-- ==== Sys2Proof/Word.lean ====
section
/-! DEFINITION. The plain word types of the model, the numbering types of units, and the shape of a sparse table.
Arithmetic that a rule of the spec governs is not here: it stands under `Sys2Proof/Machine/`. -/

namespace Sys2Proof

abbrev Byte := BitVec 8
abbrev Word32 := BitVec 32
abbrev Word64 := BitVec 64
abbrev Vec := BitVec 512

/-- A logical core number, lc0 to lc511 (01 R13). -/
abbrev LC := Fin 512
/-- A general register g0 to g31 (03 R59). -/
abbrev GReg := Fin 32
/-- A vector register v0 to v31 (03 R59). -/
abbrev VReg := Fin 32
/-- A mask register k0 to k7 (03 R59). -/
abbrev KReg := Fin 8

/-- A sparse table: pairs of a key and a value, keys strictly rising, no value equal to what an unlisted key holds.
The operations and the form they keep stand in `Machine/Store.lean`. -/
abbrev SMap (α : Type) := List (Nat × α)

end Sys2Proof
end

