-- ==== Sys2Proof/Machine/ControlState.lean ====
section
/-! DEFINITION. The state of control space (02): register words by offset, shadows and epochs, held low halves, counters and
their holding registers, locks, parity and the configuration ledger. -/

namespace Sys2Proof.Machine

/-- Who makes a control-space access (02 R35): a logical core, a service-core pair, a debug path. [DESIGN CHOICE, log entry 95] -/
inductive Writer
  | core (lc : LC)
  | pair (p : Fin 4)
  | path (p : Fin 4)
deriving DecidableEq, Repr

/-- An entry of the configuration ledger (02 R56). -/
structure LedgerEntry where
  offset : Nat
  value : Word32
  epoch : BitVec 16
  kind : Nat
  level : Nat
  time : Word32
deriving DecidableEq, Repr

/-- A value that the rind's copy of a register still holds for every reader but the one that has written the register since (02 R42, R43); with no
writer the copy is kept from before a bridge timed out (02 R39), and nothing refreshes it. -/
structure RindCopy where
  off : Nat
  writer : Option Writer
  value : Word32
deriving DecidableEq, Repr

/-- Control space. `regs` holds the written value of a register by its key (its offset, or its offset with a core number
where the block banks it); `active` the active value of a PERIOD register where it differs from the reset value; `staged` and
`committed` the epoch shadow before and after the commit (02 R46 to R51), `oldActive` what was in force before a block switched, until the
commit is over (02 R51). `copies` holds the rind's copies that differ from their registers (02 R42, R43), `edgeSnaps` the blocks captured
since the last rind-clock edge, with whether the capture was device-wide (02 R54). -/
structure Ctl where
  regs : SMap Word32 := []
  active : SMap Word32 := []
  staged : SMap (Option Word32) := []
  committed : SMap (Option Word32) := []
  oldActive : SMap (Option Word32) := []
  copies : List RindCopy := []
  edgeSnaps : List (Nat × Bool) := []
  epoch : Nat := 0
  inFlight : Bool := false
  unswitched : List Nat := []
  heldLo : List (Writer × Nat × Word32) := []
  counters : SMap Word64 := []
  holding : SMap Word64 := []
  snapSeq : SMap Word32 := []
  snapAll : Word32 := 0
  locks : BitVec 6 := 0
  badParity : List Nat := []
  fencedRegs : List Nat := []
  ledger : List LedgerEntry := []
deriving DecidableEq, Repr

/-- The answer of the last control-space access or service made on a path that has no register to answer into: a status code
of 02 R40, a value, and the bytes of a longer answer (a DMA read, 16 R409). -/
structure Answer where
  status : Nat := 0
  value : Word64 := 0
  bytes : List Byte := []
deriving DecidableEq, Repr

end Sys2Proof.Machine
end

