-- ==== Sys2Proof/Machine/Flags.lean ====
section
/-! DEFINITION. The condition flags and every rule that computes them: 03 R67 (the FLAGS register), R71 (the flag-setting
forms), R81 (the conditions). -/

namespace Sys2Proof.Machine

/-- The four condition flags (03 R59, R67). -/
structure Flags where
  n : Bool := false
  z : Bool := false
  c : Bool := false
  v : Bool := false
deriving DecidableEq, Repr

/-- FLAGS as core CSR 0x001 shows it: N, Z, C, V in bits 3 to 0 (03 R67). -/
def flagsWord (f : Flags) : Word64 :=
  BitVec.ofNat 64 (8 * f.n.toNat + 4 * f.z.toNat + 2 * f.c.toNat + f.v.toNat)

/-- The flags a write of CSR 0x001 gives (03 R65, R67). -/
def flagsOfWord (w : Word64) : Flags :=
  { n := w.getLsbD 3, z := w.getLsbD 2, c := w.getLsbD 1, v := w.getLsbD 0 }

/-- `addc` of 03 R71: the sum with a carry in, and its four flags. -/
def addc (a b : Word64) (cin : Bool) : Word64 × Flags :=
  let full := a.toNat + b.toNat + cin.toNat
  let r : Word64 := BitVec.ofNat 64 full
  (r, { n := r.msb, z := r == 0, c := decide (2 ^ 64 ≤ full), v := a.msb == b.msb && r.msb != a.msb })

/-- Flags of logical, shift, bit-count, extension and high-half multiply results (03 R71). -/
def flagsLogic (r : Word64) : Flags := { n := r.msb, z := r == 0, c := false, v := false }

/-- Flags of `MUL`: C where the unsigned product exceeds 64 bits, V where the signed one does not fit (03 R71). -/
def flagsMul (a b : Word64) : Flags :=
  let r := a * b
  let p := a.toInt * b.toInt
  { n := r.msb, z := r == 0, c := decide (2 ^ 64 ≤ a.toNat * b.toNat),
    v := decide (p < -(2 ^ 63) ∨ 2 ^ 63 ≤ p) }

/-- The most negative number. -/
def minSigned : Word64 := 0x8000000000000000#64

/-- Flags of the four division instructions: V on a zero divisor or, for the signed forms, on overflow (03 R71, R73). -/
def flagsDiv (signed : Bool) (a b r : Word64) : Flags :=
  { n := r.msb, z := r == 0, c := false,
    v := b == 0 || (signed && a == minSigned && b == BitVec.allOnes 64) }

/-- The condition codes of 03 R81; `none` for the reserved code 15. -/
def condHolds (code : BitVec 4) (f : Flags) : Option Bool :=
  match code.toNat with
  | 0 => some f.z
  | 1 => some (!f.z)
  | 2 => some (f.n != f.v)
  | 3 => some (f.n == f.v)
  | 4 => some (f.z || f.n != f.v)
  | 5 => some (!f.z && f.n == f.v)
  | 6 => some (!f.c)
  | 7 => some f.c
  | 8 => some (!f.c || f.z)
  | 9 => some (f.c && !f.z)
  | 10 => some f.n
  | 11 => some (!f.n)
  | 12 => some f.v
  | 13 => some (!f.v)
  | 14 => some true
  | _ => none

end Sys2Proof.Machine
end

