-- ==== Sys2Proof/Machine/Operands.lean ====
section
/-! DEFINITION. Operand forms and the integer data path: immediates and offsets (03 R69, R74 to R76, R82, R83; 04 R95,
R96), bit counts, byte and bit reversal, extension, shift, multiply and divide (03 R72, R73). -/

namespace Sys2Proof.Machine

/-- imm14 extended as the x bit selects: 0 sign-extends, 1 zero-extends (03 R69). -/
def immExt (x : Bool) (imm : BitVec 14) : Word64 :=
  if x then imm.setWidth 64 else imm.signExtend 64

/-- A signed word offset in bytes (03 R69, R76, R82, R83). -/
def wordOffset {n : Nat} (off : BitVec n) : Word64 := off.signExtend 64 * 4

/-- The address of a format M access: off14 is scaled by the access size (04 R95). -/
def offAddr (base : Word64) (off : BitVec 14) (size : Nat) : Word64 :=
  base + off.signExtend 64 * BitVec.ofNat 64 size

/-- The address of an indexed access (04 R96). -/
def indexAddr (base index : Word64) (size : Nat) : Word64 :=
  base + index * BitVec.ofNat 64 size

/-- Natural alignment (04 R95). -/
def aligned (a : Word64) (size : Nat) : Bool := a.toNat % size == 0

/-- Leading zeros; the width for zero (03 R72 CLZ). -/
def countLeading (a : Word64) : Nat := if a == 0 then 64 else 63 - Nat.log2 a.toNat

/-- Trailing zeros; the width for zero (03 R72 CTZ). -/
def countTrailing (a : Word64) : Nat :=
  if a == 0 then 64 else Nat.log2 (a &&& (0 - a)).toNat

/-- Ones in the low `n` bits. -/
def countOnes {w : Nat} (a : BitVec w) : Nat → Nat
  | 0 => 0
  | n + 1 => (a.getLsbD n).toNat + countOnes a n

/-- The bytes of a word, lowest first. -/
def bytesOf {w : Nat} (a : BitVec w) : Nat → List Byte
  | 0 => []
  | n + 1 => a.setWidth 8 :: bytesOf (a >>> 8) n

/-- A little-endian number from its bytes (00, multi-byte quantities). -/
def natOfBytes : List Byte → Nat
  | [] => 0
  | b :: bs => b.toNat + 256 * natOfBytes bs

/-- The bytes of a natural number, lowest first. -/
def bytesOfNat (x : Nat) : Nat → List Byte
  | 0 => []
  | n + 1 => BitVec.ofNat 8 x :: bytesOfNat (x / 256) n

/-- The order of the eight bytes reversed (03 R72 BSWAP). -/
def byteSwap (a : Word64) : Word64 := BitVec.ofNat 64 (natOfBytes (bytesOfNat a.toNat 8).reverse)

/-- `gb[5:0]` as a shift amount (03 R72). -/
def shiftAmt (b : Word64) : Nat := b.toNat % 64

/-- Signed quotient truncated toward zero, with the special cases of 03 R73. -/
def divS (a b : Word64) : Word64 :=
  if b == 0 then BitVec.allOnes 64
  else if a == minSigned && b == BitVec.allOnes 64 then minSigned
  else BitVec.ofInt 64 (a.toInt.tdiv b.toInt)

/-- Unsigned quotient (03 R72, R73). -/
def divU (a b : Word64) : Word64 :=
  if b == 0 then BitVec.allOnes 64 else BitVec.ofNat 64 (a.toNat / b.toNat)

/-- Signed remainder, with the sign of the dividend (03 R72, R73). -/
def remS (a b : Word64) : Word64 :=
  if b == 0 then a
  else if a == minSigned && b == BitVec.allOnes 64 then 0
  else BitVec.ofInt 64 (a.toInt.tmod b.toInt)

/-- Unsigned remainder (03 R72, R73). -/
def remU (a b : Word64) : Word64 :=
  if b == 0 then a else BitVec.ofNat 64 (a.toNat % b.toNat)

/-- Bits [127:64] of the signed product (03 R72 MULH). -/
def mulHS (a b : Word64) : Word64 :=
  ((a.signExtend 128 * b.signExtend 128) >>> 64).setWidth 64

/-- Bits [127:64] of the unsigned product (03 R72 MULHU). -/
def mulHU (a b : Word64) : Word64 := BitVec.ofNat 64 (a.toNat * b.toNat / 2 ^ 64)

/-- The register-form operations of opcodes 0x01 to 0x03 (03 R72), named as the table's rows. -/
inductive IntOp
  | add | adc | sub | sbc | and | andn | or | orn | xor | xnor
  | mul | mulh | mulhu | div | divu | rem | remu
  | sll | srl | sra | ror
  | clz | ctz | popc | bswap | brev | sextb | sexth | sextw | zextb | zexth | zextw
deriving DecidableEq, Repr

/-- The result and flags of a register-form operation (03 R71 to R73); `cin` is the C flag. -/
def intOp (op : IntOp) (a b : Word64) (cin : Bool) : Word64 × Flags :=
  let logic (r : Word64) : Word64 × Flags := (r, flagsLogic r)
  match op with
  | .add => addc a b false
  | .adc => addc a b cin
  | .sub => addc a (~~~b) true
  | .sbc => addc a (~~~b) cin
  | .and => logic (a &&& b)
  | .andn => logic (a &&& ~~~b)
  | .or => logic (a ||| b)
  | .orn => logic (a ||| ~~~b)
  | .xor => logic (a ^^^ b)
  | .xnor => logic (~~~(a ^^^ b))
  | .mul => (a * b, flagsMul a b)
  | .mulh => logic (mulHS a b)
  | .mulhu => logic (mulHU a b)
  | .div => (divS a b, flagsDiv true a b (divS a b))
  | .divu => (divU a b, flagsDiv false a b (divU a b))
  | .rem => (remS a b, flagsDiv true a b (remS a b))
  | .remu => (remU a b, flagsDiv false a b (remU a b))
  | .sll => logic (a <<< shiftAmt b)
  | .srl => logic (a >>> shiftAmt b)
  | .sra => logic (a.sshiftRight (shiftAmt b))
  | .ror => logic (a.rotateRight (shiftAmt b))
  | .clz => logic (BitVec.ofNat 64 (countLeading a))
  | .ctz => logic (BitVec.ofNat 64 (countTrailing a))
  | .popc => logic (BitVec.ofNat 64 (countOnes a 64))
  | .bswap => logic (byteSwap a)
  | .brev => logic a.reverse
  | .sextb => logic ((a.setWidth 8).signExtend 64)
  | .sexth => logic ((a.setWidth 16).signExtend 64)
  | .sextw => logic ((a.setWidth 32).signExtend 64)
  | .zextb => logic ((a.setWidth 8).setWidth 64)
  | .zexth => logic ((a.setWidth 16).setWidth 64)
  | .zextw => logic ((a.setWidth 32).setWidth 64)

/-- `SETQ`: quarter q holds imm16, every other bit is zero (03 R76). -/
def setQuarter (imm : BitVec 16) (q : Nat) : Word64 := imm.setWidth 64 <<< (16 * q)

/-- `PUTQ`: quarter q becomes imm16, every other bit is kept (03 R76). -/
def putQuarter (old : Word64) (imm : BitVec 16) (q : Nat) : Word64 :=
  (old &&& ~~~((0xFFFF : Word64) <<< (16 * q))) ||| setQuarter imm q

/-- The read-modify-write operations of `AMO` (04 R113) on a location of `w` bits: the new value of the location from its
old value, gs, and gt read before the access. -/
inductive AmoOp
  | xchg | add | and | or | xor | maxs | mins | maxu | minu | cmpx
deriving DecidableEq, Repr

def amoOp {w : Nat} (op : AmoOp) (old gs gt : BitVec w) : BitVec w :=
  match op with
  | .xchg => gs
  | .add => old + gs
  | .and => old &&& gs
  | .or => old ||| gs
  | .xor => old ^^^ gs
  | .maxs => if old.toInt ≤ gs.toInt then gs else old
  | .mins => if gs.toInt ≤ old.toInt then gs else old
  | .maxu => if old.toNat ≤ gs.toNat then gs else old
  | .minu => if gs.toNat ≤ old.toNat then gs else old
  | .cmpx => if old = gt then gs else old

end Sys2Proof.Machine
end

