-- ==== Sys2Proof/Machine/CoreState.lean ====
section
/-! DEFINITION. The state of one logical core: registers (03 R59), open shadows and the open shadow group (04 R101 to R109),
translation caches (08 R218), prediction structures (03 R86, R87), a wait in progress (07 R189) and how the core stands. -/

namespace Sys2Proof.Machine

/-- The registers a relocation moves and a rollback restores (03 R59). Core CSRs but FLAGS are kept by number in `csr`;
a number not listed holds its reset value. [DESIGN CHOICE, log entry 3] -/
structure Regs where
  g : SMap Word64 := []
  v : SMap Vec := []
  k : SMap Word64 := []
  flags : Flags := {}
  csr : SMap Word64 := []
deriving DecidableEq, Repr

/-- Where a load writes at its write point. -/
inductive LoadDest
  | gen (r : GReg)
  | vec (r : VReg)
  | mask (r : KReg)
deriving DecidableEq, Repr

/-- What a load will write: a value it has, or the result of a deferred access numbered within its group (04 R109). -/
inductive LoadValue
  | word (w : Word64)
  | vector (v : Vec)
  | deferred (id : Nat)
deriving DecidableEq, Repr

/-- An open load shadow: instructions still to execute before the write point (04 R101). -/
structure Shadow where
  left : Nat
  dest : LoadDest
  value : LoadValue
deriving DecidableEq, Repr

/-- How a translation treats an access: physical address, memory type, traffic class (08 R217). -/
structure Access where
  pa : Nat
  mt : BitVec 2 := 0
  tc : BitVec 2 := 0
deriving DecidableEq, Repr

/-- One leaf entry whose A or D bit the commit must set (08 R208): its address and its walked value. -/
structure AdUpdate where
  entry : Nat
  walked : Word64
  setD : Bool
deriving DecidableEq, Repr

/-- One access of a vector load (05 R142): `n` bytes of a line, and the lanes it fills, each with its offset in them. -/
structure LineRead where
  acc : Access
  n : Nat
  parts : List (List Nat × Nat)
deriving DecidableEq, Repr

/-- What a group holds until its commit, in program order: stores and letters (04 R105), deferred accesses (R109), A and D updates
(08 R208). A vector load holds the accesses still to make and the lanes filled so far; `rl` and `aq` mark release and acquire (R111). -/
inductive Held
  | store (a : Access) (bytes : List Byte) (nt : Bool) (rl : Bool := false)
  | letter (dest : BitVec 32) (tc : BitVec 2) (l : Vec)
  | load (id : Nat) (a : Access) (size : Nat) (signed : Bool) (aq : Bool := false)
  | vload (id : Nat) (w : Nat) (lines : List LineRead) (acc : Vec)
  | amo (id : Nat) (a : Access) (op : AmoOp) (wide far : Bool) (gs gt : Word64) (aq : Bool := false)
  | deq (id idV : Nat) (slot q : Nat) (isTry : Bool)
  | ad (u : AdUpdate)
deriving DecidableEq, Repr

/-- An entry of the return stack or the overlay: level, context tag, return address (03 R86). -/
structure RsEntry where
  level : BitVec 2
  tag : BitVec 16
  addr : Word64
  seq : Nat := 0
  taken : Option Nat := none
deriving DecidableEq, Repr

/-- What a committing call or return does to the return stack (03 R86): a return takes out the entry of its number. -/
inductive RsOp
  | push (e : RsEntry)
  | pop (seq : Nat)
deriving DecidableEq, Repr

/-- An entry of the indirect target table (03 R87). -/
structure IttEntry where
  level : BitVec 2
  tag : BitVec 16
  pcPart : BitVec 12
  target : BitVec 46
deriving DecidableEq, Repr

/-- An event the performance counters count (23 R564 to R567): its number, how many, the instruction, its data address where it has one,
what served the access, the flags and traffic class of a sample record, the level it occurs at. -/
structure PmEvent where
  event : Nat
  n : Nat := 1
  pc : Word64 := 0
  daddr : Option Word64 := none
  source : Nat := 0
  flags : Nat := 0
  tc : Nat := 0
  level : Nat := 0
deriving DecidableEq, Repr

/-- The open shadow group (04 R103): its first PC, member count, instructions since its first deferred access, what it
holds, the registers a rollback restores (R106), the pages its accesses used (08 R222), what its commit does to the counters
(23 R565), the return stack and the indirect target table (03 R86, R87). -/
structure Group where
  firstPc : Word64
  members : Nat
  closed : Bool
  sinceDeferred : Option Nat
  nextId : Nat
  held : List Held
  snap : Regs
  usedPages : List Nat := []
  tally : List PmEvent := []
  rsOps : List RsOp := []
  itts : List (Word64 × Word64) := []
deriving DecidableEq, Repr

/-- A TLB slot (08 R218): range, world, tag (none where it matches every tag), and the leaf's fields. -/
structure TlbSlot where
  va : Nat
  size : Nat
  world : Bool
  tag : Option (BitVec 16)
  pa : Nat
  rd : Bool
  wr : Bool
  ex : Bool
  u : Bool
  a : Bool
  d : Bool
  key : BitVec 4
  mt : BitVec 2
  tc : BitVec 2
  code : Nat := 0
  leafs : List (Nat × Word64)
deriving DecidableEq, Repr

/-- A walk-cache entry: a pointer of tier 3, 2 or 1, its table address, half and tag (08 R218). -/
structure WalkEntry where
  world : Bool
  upper : Bool
  tag : BitVec 16
  tier : Nat
  entryAddr : Nat
  table : Nat
deriving DecidableEq, Repr

/-- The translation caches of a core (08 R218). -/
structure Tlbs where
  itlb : List TlbSlot := []
  dtlb : List TlbSlot := []
  l2tlb : List (Nat × TlbSlot) := []
  walk : List WalkEntry := []
deriving DecidableEq, Repr

/-- What an invalidation removes (08 R221). -/
inductive TlbiKind
  | va (va : Nat) (tag : BitVec 16)
  | tag (tag : BitVec 16)
  | all
deriving DecidableEq, Repr

/-- Where a broadcast invalidation comes from: a core of this device, or the joined device in a slot (08 R222). -/
inductive TlbiFrom
  | core (lc : LC)
  | peer (slot : Nat) (kind : TlbiKind) (world : Bool)
deriving DecidableEq, Repr

/-- A broadcast invalidation still unacknowledged, and the targets that have not answered (08 R222, R223): cores of this device by number,
the cores of the device in slot e as 512 + e. -/
structure Broadcast where
  kind : TlbiKind
  world : Bool
  waiting : List Nat
deriving DecidableEq, Repr

/-- A wait in progress (07 R189); `WFE.NE` keeps its address and its word for a re-read that finds poison (R191). -/
inductive WaitKind
  | wfe
  | wfeNe (a : Access) (expected : Word64) (va : Word64) (insn : Word32)
  | wfeQ (q : Nat)
  | waitt (deadline : Word64)
deriving DecidableEq, Repr

structure Wait where
  kind : WaitKind
  rd : GReg
deriving DecidableEq, Repr

/-- Whether a core issues: before its start, issuing, halted by a debugger (23 R550), stopped by a failed vector fetch
(07 R181), out of service (20 R487, R491). -/
inductive Standing
  | notStarted
  | issuing
  | halted
  | stopped
  | fenced
deriving DecidableEq, Repr

/-- The state of the gateway call of a core (19 R458, R460). -/
structure GateCall where
  isOpen : Bool := false
  level : BitVec 2 := 0
deriving DecidableEq, Repr

/-- One logical core; `paused` in the pause of a relocation (20 R481); `retries` the times of its retries, `retryRun` how many in
succession (R480); `unpushed` the calls predicted while the overlay was full, each with the return that answers it, `missed` the
uncommitted branches found mispredicted (03 R86); `vecStop` a failed vector fetch (07 R181) that no write of PC has cleared. -/
structure Core where
  regs : Regs := {}
  pc : Word64 := 0
  standing : Standing := .notStarted
  shadows : List Shadow := []
  group : Option Group := none
  wait : Option Wait := none
  retStack : List RsEntry := []
  overlay : List RsEntry := []
  unpushed : List (Nat × Option Nat) := []
  missed : List Nat := []
  predSeq : Nat := 0
  itt : SMap (Option IttEntry) := []
  tlbs : Tlbs := {}
  broadcasts : List Broadcast := []
  gate : GateCall := {}
  haltReq : Bool := false
  drainReq : Bool := false
  haltCause : BitVec 5 := 0
  stepReq : Bool := false
  skipOnce : Bool := false
  eretSkip : Nat := 0
  eretStep : Nat := 0
  vecStop : Bool := false
  resuming : Bool := false
  lastPc : Word64 := 0
  lastWord : Word32 := 0
  enableL1I : Bool := true
  enableL1D : Bool := true
  enableL2 : Bool := true
  retries : List Nat := []
  retryRun : Nat := 0
  paused : Bool := false
  sevInFlight : Bool := false
  mmioWait : Bool := false
deriving DecidableEq, Repr

end Sys2Proof.Machine
end

