-- ==== Sys2Proof/Machine/MemState.lean ====
section
/-! DEFINITION. The state of memory and of what stands around it: the coherent contents and poison (10, 11 R290), caches
and transit buffers (09 R226, 10 R249, R259), home nodes with their directories (10 R255), and the memory controllers (11). -/

namespace Sys2Proof.Machine

/-- The MOESI state of a line in an L2; an invalid line is not held (10 R249). -/
inductive LineState
  | m | o | e | s
deriving DecidableEq, Repr

/-- A line an L2 holds. `stale` is the copy's own content where the cache was enabled without invalidation (09 R236);
`none` where the copy agrees with the coherent contents. An L1 line is held in the same form, its state unused. [DEDUCED, log entry 21] -/
structure L2Line where
  line : Nat
  st : LineState
  stale : Option Vec := none
deriving DecidableEq, Repr

/-- An entry of the transit buffer: an evicted line until the home acknowledges (10 R259). -/
structure Transit where
  line : Nat
  st : LineState
deriving DecidableEq, Repr

/-- The private caches of one physical core, by way slot (set times ways plus way), and their health (09 R226, R243). -/
structure PrivCaches where
  l1i : SMap (Option L2Line) := []
  l1d : SMap (Option L2Line) := []
  l2 : SMap (Option L2Line) := []
  transit : List Transit := []
  retired : BitVec 16 := 0
  spMask : BitVec 16 := 0
  errs : List (Nat × Nat × Nat) := []
  l1iParity : List Nat := []
  l1dParity : List Nat := []
deriving DecidableEq, Repr

/-- A line an L3 slice holds: dirty, recently filled, boundaries passed since the fill (09 R231, R232). [DEDUCED, log entry 21] -/
structure L3Line where
  line : Nat
  dirty : Bool
  rf : Bool
  bounds : Nat := 0
  stale : Option Vec := none
deriving DecidableEq, Repr

/-- A directory entry (10 R255): the owner's physical core, the 72-bit sharer vector, the device vector, the proxy flag. -/
structure DirEntry where
  line : Nat
  owner : Option Nat
  sharers : BitVec 72
  devs : BitVec 4
  proxy : Bool
deriving DecidableEq, Repr

/-- Who sends a request to a home: an L2, the device in another slot, a non-caching agent. -/
inductive Requester
  | l2 (pc : Nat)
  | dev (slot : Nat)
  | agent
deriving DecidableEq, Repr

/-- A requester as a command names it: who asks, and the traffic class its request carries (12 R297). -/
structure Asker where
  who : Requester
  tc : BitVec 2 := 0
deriving DecidableEq, Repr

/-- The requests of 10 R250. -/
inductive ReqKind
  | rs | ru | upg | wb | evc | rnc | fw | pw | famo | cmoc | cmoi
deriving DecidableEq, Repr

/-- The snoops of 10 R252. -/
inductive SnoopKind
  | shared | unique | inv | read | clean
deriving DecidableEq, Repr

/-- What a request carries: bytes at the line's offsets, or an atomic operation's operands; and its traffic class (12 R297, R298). -/
structure ReqData where
  off : Nat := 0
  bytes : List Byte := []
  op : Nat := 0
  wide : Bool := false
  gs : Word64 := 0
  gt : Word64 := 0
  tc : BitVec 2 := 0
deriving DecidableEq, Repr

/-- A request at its home: waiting its turn (not `served`), or waiting for the snoop answers of `pending`. `gotDirty` says an
answer carried newer data, `gotData` that one carried the line, `found` lists the L2s that answered with a copy; `since` is the time the
snoops were sent (10 R261, R270). A device of the device vector stands among the snooped under the number 600 plus its slot. -/
structure HomeReq where
  kind : ReqKind
  req : Requester
  line : Nat
  body : ReqData := {}
  served : Bool := false
  pending : List (Nat × SnoopKind) := []
  gotDirty : Bool := false
  gotData : Bool := false
  found : List Nat := []
  timedOut : Bool := false
  since : Nat := 0
deriving DecidableEq, Repr

/-- A grant on its way to the requesting L2 (10 R251, R253). -/
structure Grant where
  pc : Nat
  line : Nat
  st : LineState
  stale : Option Vec := none
deriving DecidableEq, Repr

/-- A snoop answer on its way to the home: with a copy found, with the line (`data`), with one newer than memory (`dirty`), from the transit
buffer (`evicting`). -/
structure SnoopAnswer where
  pc : Nat
  line : Nat
  had : Bool
  dirty : Bool
  evicting : Bool
  data : Bool := false
deriving DecidableEq, Repr

/-- The slice command in progress (09 R234). -/
structure SliceCmd where
  op : Nat
  ways : Nat
deriving DecidableEq, Repr

/-- One L3 slice and home node (09 R226, R233; 10 R255). -/
structure Slice where
  l3 : SMap (Option L3Line) := []
  dir : SMap (Option DirEntry) := []
  enabled : Bool := true
  removed : Bool := false
  retired : BitVec 16 := 0
  spMask : BitVec 16 := 0
  cmd : Option SliceCmd := none
  retiring : Option Nat := none
  errs : List (Nat × Nat × Nat) := []
  snpWait : Bool := false
  fenced : Bool := false
  copyLost : BitVec 2 := 0
deriving DecidableEq, Repr

/-- A write waiting in a controller's write queue, of the whole line or of a part (11 R280, R281). -/
structure QueuedWrite where
  slot : Nat
  line : Nat
  full : Bool := false
deriving DecidableEq, Repr

/-- A spared row: where it stood and the bank and row that serve it, for a DDR row repaired in its own place; the symbols that were in error
(11 R291, R292). -/
structure SparedRow where
  place : Nat
  bank : Nat
  row : Nat
  toBank : Nat
  spare : Nat
  symbols : Nat := 0
deriving DecidableEq, Repr

/-- An error seen at a place: row, column and time, the symbols in error, and whether it was uncorrectable, for the rules of 11 R291. -/
structure RowError where
  place : Nat
  bank : Nat
  row : Nat
  col : Nat
  time : Nat
  symbols : Nat := 0
  ue : Bool := false
deriving DecidableEq, Repr

/-- A device erased for its rank, or for one bank of it (11 R287, R288, R291); `place` is coded as in records (11 R295). -/
structure Erasure where
  place : Nat
  rank : Nat
  bank : Option Nat
  dev : Nat
deriving DecidableEq, Repr

/-- A retirement in progress or done (11 R293): `pointer` of `total` in MiB, `base` the pages of each DIMM's reserve taken before it. -/
structure Retirement where
  dimm : Nat
  rank : Option Nat
  pointer : Nat
  total : Nat
  done : Bool
  base : Nat := 0
deriving DecidableEq, Repr

/-- A DIMM as its SPD describes it (11 R273): its slot, an RDIMM of x4 devices or another type, its capacity, package ranks and 3DS height,
its rated MT/s, its hard repair resources. -/
structure Dimm where
  channel : Nat
  slot : Nat := 0
  rdimmX4 : Bool := true
  gib : Nat
  pranks : Nat := 1
  height : Nat := 1
  rate : Nat := 6400
  hppr : Nat := 0
deriving DecidableEq, Repr

/-- A training sweep of a lane (11 R284, R285): the delays that pass, a bit each, at the Vref codes listed; none passes at the others.
`again` is the second sweep; `pinOnly` says that one DQ pin is what fails. -/
structure LaneSweep where
  unit : Nat
  lane : Nat
  wr : Bool
  again : Bool := false
  pass : List (Nat × BitVec 128)
  pinOnly : Bool := false
deriving DecidableEq, Repr

/-- A lane's last run: its time and the temperature then (11 R286). -/
structure LaneRun where
  time : Nat := 0
  temp : Nat := 0
deriving DecidableEq, Repr

/-- One memory controller, HBM (unit 0 to 7) or DDR (8 to 15). Refresh debt and error counts are kept sparsely by place, the spare rows used
by pseudo-channel times 64 plus bank, the training results by twice the lane plus 1 for writes, re-centring runs by lane. -/
structure MemCtl where
  training : Bool := true
  excluded : Bool := false
  fenced : Bool := false
  temp : Nat := 0
  wq : List QueuedWrite := []
  refreshOwed : SMap Int := []
  stopped : BitVec 8 := 0
  spared : List SparedRow := []
  sparedBanks : List (Nat × Nat) := []
  errors : List RowError := []
  spareUsed : SMap Nat := []
  erased : List Erasure := []
  retired : List Retirement := []
  pinsUsed : SMap Nat := []
  results : SMap (Option (BitVec 32)) := []
  repaired : List Nat := []
  trainedAt : LaneRun := {}
  runs : SMap (Option LaneRun) := []
  pprs : Nat := 0
deriving DecidableEq, Repr

/-- All of memory; the DDR reserve counts in MiB. `lfsrs` holds the LFSRs that a choice has been read from (09 R228), the others stand at
the seeds of the seeding `lfsrBase`. Unlisted bytes read as zero; a poisoned line is listed in `poison`. -/
structure MemSt where
  bytes : SMap Byte := []
  poison : SMap Bool := []
  priv : SMap PrivCaches := []
  slices : SMap Slice := []
  homeQ : List HomeReq := []
  grants : List Grant := []
  answers : List SnoopAnswer := []
  ctls : SMap MemCtl := []
  ddrGib : Nat := 0
  ddrChannels : List Nat := []
  lfsrBase : Nat := 0
  lfsrs : SMap (Option (BitVec 32)) := []
  dimmsPerCh : Nat := 1
  rankLog2 : Nat := 0
  prankLog2 : Nat := 0
  ddrRate : Nat := 0
  dimms : List Dimm := []
  reserveFree : Nat := 0
  reserveTotal : Nat := 0
deriving DecidableEq, Repr

end Sys2Proof.Machine
end

