-- ==== Sys2Proof/Machine/OfficeState.lean ====
section
/-! DEFINITION. The state of franking (12) and of the sorting office: queues, letters and send slots (13), grants, regions,
commands, trigger counters and slots, reduction contexts (14). -/

namespace Sys2Proof.Machine

/-- A letter with its postmark (13 R325, R326): 64 bytes, byte 0 lowest; and the queue of this device through which it was
posted, whose completion queue its report goes to (R338). [DEDUCED, log entry 53] -/
structure Letter where
  data : Vec
  postmark : Word64
  via : Option Nat := none
deriving DecidableEq, Repr

/-- The states of a queue (13 R341). -/
inductive QState
  | free | active | draining | fenced
deriving DecidableEq, Repr

/-- A letter held in a bulk ring: where its bytes lie in memory, and its postmark, which travels beside it. -/
structure RingEntry where
  pa : Nat
  postmark : Word64
  via : Option Nat := none
deriving DecidableEq, Repr

/-- The doorbell of a queue: armed, or spent by the threshold or by the hold time (13 R346). -/
inductive Doorbell
  | armed | byThresh | byHold
deriving DecidableEq, Repr

/-- A queue: descriptor words W0 to W8 as created or resized, and what it holds (13 R341). `oldLeft` counts the letters
still in a ring replaced by RESIZE. -/
structure Queue where
  state : QState := .free
  words : List Word32 := []
  burst : List Letter := []
  ring : List RingEntry := []
  oldLeft : Nat := 0
  spill : Bool := false
  ringHead : Nat := 0
  ringTail : Nat := 0
  lease : Option Nat := none
  bell : Doorbell := .armed
  flushing : Bool := false
deriving DecidableEq, Repr

/-- A send slot in use: of a core (13 R328), of a PORT that sends letters on (R335), or of a pipeline for the letters it makes.
`dest` is the postcode the letter goes to, `tc` the class of the posting page (R329); `tid` names it while another device has it; `naked` says it was refused. [DEDUCED, log entry 53] -/
structure SendSlot where
  dest : BitVec 32
  letter : Letter
  released : Bool
  naked : Bool := false
  attempts : Nat := 0
  tid : Option (BitVec 12) := none
  tc : BitVec 2 := 1
deriving DecidableEq, Repr

/-- A command letter (14 R350), with the queue whose grants it uses; a fired one names its slot and carries the time of
firing as its postmark (R360). -/
structure Cmd where
  q : Nat
  data : Vec
  cpm : Word64
  slot : Option Nat := none
  tc : Nat := 0
deriving DecidableEq, Repr

/-- A command started and not yet complete (14 R349, R356). `tid` names it while another device performs it; `quiet` says its
success makes no letter and advances no counter of its own, `always` that success makes a letter. -/
structure Running where
  cmd : Cmd
  status : Nat := 0
  poison : Bool := false
  value : Word64 := 0
  regions : List Nat := []
  tid : Option (BitVec 12) := none
  left : Nat := 0
  quiet : Bool := false
  always : Bool := false
deriving DecidableEq, Repr

/-- A command of another device performed here (14 R351): its bytes still to come, its region. -/
structure Serving where
  src : Nat
  tid : BitVec 12
  cmd : Cmd
  left : Nat := 0
  poison : Bool := false
  region : Nat := 0
deriving DecidableEq, Repr

/-- An armed slot (14 R362). -/
structure Slot where
  cmd : Cmd
  ctr : Nat
  thresh : Word64
  order : Nat
deriving DecidableEq, Repr

/-- A grant (14 R353): kind 0 slots, 1 counters, 2 contexts, 3 regions. -/
structure GrantEntry where
  valid : Bool := false
  queue : Nat := 0
  kind : Nat := 0
  base : Nat := 0
  count : Nat := 0
deriving DecidableEq, Repr

/-- A region (14 R353). -/
structure Region where
  valid : Bool := false
  base : Nat := 0
  pages : Nat := 0
  rights : BitVec 3 := 0
  remote : Bool := false
  srcBase : BitVec 16 := 0
  srcMask : BitVec 16 := 0
  ctrBase : Nat := 0
  ctrCount : Nat := 0
deriving DecidableEq, Repr

/-- One element accumulator (14 R368, R370): the exact integer with its flags for FSUM, a 64-bit value for the others. -/
structure Acc where
  a : Int := 0
  nan : Bool := false
  inv : Bool := false
  pinf : Bool := false
  ninf : Bool := false
  allNeg0 : Bool := true
  allPos0 : Bool := true
  val : Word64 := 0
  fpx : BitVec 5 := 0
deriving DecidableEq, Repr

/-- A reduction context (14 R367): off where `cfg` is none; `cfg` is the CTXSET that configured it. -/
structure Ctx where
  cfg : Option Cmd := none
  accs : List Acc := []
  count : Nat := 0
  round : Nat := 0
deriving DecidableEq, Repr

/-- A forward on its way to another context (14 R369): from context `src` of device `srcDev` to context `dst` of `dev`. -/
structure Forward where
  src : Nat
  srcDev : Nat
  dev : Nat
  dst : Nat
  rop : Nat
  elems : Nat
  accs : List Acc
  round : Nat
  tid : BitVec 12 := 0
  tc : BitVec 2 := 1
deriving DecidableEq, Repr

/-- The sorting office. Senders are numbered: a core by its number, a queue that sends letters on or makes them by
65,536 plus its number. -/
structure Office where
  running : Bool := false
  queues : SMap Queue := []
  senders : SMap (List SendSlot) := []
  ready : List Cmd := []
  cmds : List Running := []
  serving : List Serving := []
  ctrs : SMap Word64 := []
  slots : SMap (Option Slot) := []
  armSeq : Nat := 0
  grants : SMap GrantEntry := []
  regions : SMap Region := []
  ctxs : SMap Ctx := []
  forwards : List Forward := []
  sopFenced : BitVec 8 := 0
deriving DecidableEq, Repr

/-- Franking (12): flits injected per meter in the period, flits served per resource and class (R300, R304), and the length in ns of the
interval a kind is in where it is not a full period (R301). -/
structure Franking where
  spent : SMap Nat := []
  served : SMap Nat := []
  short : SMap Nat := []
deriving DecidableEq, Repr

end Sys2Proof.Machine
end

