-- ==== Sys2Proof/Machine/LinkState.lean ====
section
/-! DEFINITION. The state of the Voxioz ports and the router (15), of joined devices (10 R262 to R271), of the PCI Express
root ports and the IOTU (16), and of the interrupt controller (17). -/

namespace Sys2Proof.Machine

/-- A message on a link (15 R377). `chunks` holds the chunks after the header. `ordered`, the initiator `init` and the mark `isOver` of
12 R302 are kept with it on this device alone. -/
structure Msg where
  kind : BitVec 8
  mc : BitVec 3 := 0
  esc : Bool := false
  tc : BitVec 2 := 0
  epar : Bool := false
  hops : Nat := 0
  tid : BitVec 12 := 0
  dst : BitVec 16 := 0
  src : BitVec 16 := 0
  kspec : BitVec 40 := 0
  chunks : List (BitVec 128) := []
  ordered : Bool := false
  init : Option Nat := none
  isOver : Bool := false
deriving DecidableEq, Repr

/-- A frame kept in the retry buffer until acknowledged (15 R376, R382), with the acknowledgement it carried and its mark of the sender's
coherent state (10 R269). -/
structure Frame where
  fseq : BitVec 8
  msgs : List Msg
  aseq : BitVec 8 := 0
  akind : BitVec 2 := 0
  coh : Bool := false
deriving DecidableEq, Repr

/-- Port states (15 R401). -/
inductive PortState
  | down | training | up | out
deriving DecidableEq, Repr

/-- Link power states (15 R391). -/
inductive LinkPower
  | active | standby | listen
deriving DecidableEq, Repr

/-- Coherent state of a port (10 R271). -/
inductive CohState
  | non | joining | coherent | fenced
deriving DecidableEq, Repr

/-- The join in progress or last made on a port (10 R264 to R271); `fresh` says a digest came since the last join ended. -/
structure Join where
  state : CohState := .non
  reason : Nat := 0
  tries : Nat := 0
  peerValid : Bool := false
  peerSlot : Nat := 0
  peerDig : List Byte := []
  ownDig : List Byte := []
  peerVerdict : Option Nat := none
  ownVerdict : Option Nat := none
  fresh : Bool := false
deriving DecidableEq, Repr

/-- An eye-margin sweep (15 R394, R395). -/
structure Sweep where
  busy : Bool := false
  done : Bool := false
  incomplete : Bool := false
  reason : Nat := 0
  lane : Nat := 0
  swapped : Bool := false
  forPeer : Bool := false
deriving DecidableEq, Repr

/-- One Voxioz port. Credits are per virtual channel: 0 to 4 the main channels of MC1 to MC5, 5 to 9 their escapes. `resyncWait` says
a lost port waits for its RESYNC (15 R390), `timeOff` that the time of its joined peer disagreed and is not yet within 20 ns (10 R268). -/
structure Port where
  state : PortState := .down
  pwr : LinkPower := .active
  attempts : Nat := 0
  lanes : BitVec 5 := 0
  spare : Nat := 0
  spareUsed : Bool := false
  degraded : Bool := false
  bad : BitVec 5 := 0
  peerDev : Nat := 0
  peerSlot : Nat := 0
  peerPort : Nat := 0
  peerValid : Bool := false
  credits : SMap Nat := []
  txSeq : BitVec 8 := 0
  rxSeq : BitVec 8 := 0xFF
  discarding : Bool := false
  retryBuf : List Frame := []
  retries : Nat := 0
  fastFails : List Nat := []
  ackKind : BitVec 2 := 0
  resyncWait : Bool := false
  sleepReq : Bool := false
  sleepAgreed : Bool := false
  join : Join := {}
  sweep : Sweep := {}
  disagree : Nat := 0
  timeOff : Bool := false
  t1 : Nat := 0
deriving DecidableEq, Repr

/-- The time servo (15 R398). -/
inductive Servo
  | unsync | locked | reslew | holdover
deriving DecidableEq, Repr

/-- The coherent messages of 15 R377: requests, snoops, snoop answers (with data, newer than memory), the home's completions, and broadcast
invalidations with their acknowledgements (08 R222). -/
inductive CohKind
  | req (k : ReqKind)
  | snoop (k : SnoopKind)
  | answer (data dirty : Bool)
  | grant (k : ReqKind)
  | tlbi (code : Nat)
  | tlbiAck
  | epoch
deriving DecidableEq, Repr

/-- A coherent message for the device in a slot (10 R263; 15 R377, R378), or a return write of a split (10 R269). -/
structure CohMsg where
  slot : Nat
  kind : CohKind
  line : Nat
  tc : BitVec 2 := 0
  data : Option Vec := none
deriving DecidableEq, Repr

/-- The links and the router of the device. `passed` counts how often a waiting message class was passed over in succession (12 R316);
`cohOut` holds the coherent messages that wait for their port, `returns` the return writes. `waiting` holds the messages that wait for a main credit or
for an escape credit, each with the port it came in on (8: injected here). -/
structure Links where
  ports : SMap Port := []
  servo : Servo := .unsync
  depth : Nat := 0
  rootDev : Nat := 0
  parentPort : Nat := 0
  offset : Int := 0
  overs : Nat := 0
  tempParent : Option Nat := none
  waiting : List (Nat × Msg) := []
  nextTid : BitVec 12 := 0
  peers : BitVec 4 := 0
  passed : SMap Nat := []
  cohOut : List CohMsg := []
  returns : List CohMsg := []
deriving DecidableEq, Repr

/-- What a DMA request asks (16 R405, R409): a read, a posted write, an AtomicOp (FetchAdd, Swap, CAS), or a feature that the root
ports do not support. -/
inductive DmaOp
  | read (n : Nat)
  | write (bytes : List Byte)
  | atomic (op : Fin 3) (wide : Bool) (a b : Word64)
  | unsupported
deriving DecidableEq, Repr

/-- What a root port sends down: a store of a core, a peer-to-peer request, a page request group response, an ATS Invalidate Request
(16 R406, R409, R410, R416). -/
inductive PcieOut
  | store (bus : Nat) (bytes : List Byte)
  | peer (bus : Nat) (op : DmaOp)
  | prgResp (rid : Nat) (prgi : Nat) (code : Nat)
  | atsInv (rid : Nat)
deriving DecidableEq, Repr

/-- A sub-port of a root port (16 R403, R414); `prgOut` holds the outstanding page requests, each a requester and a group. -/
structure SubPort where
  linkUp : Bool := false
  dpc : Bool := false
  present : Bool := false
  prgOut : List (Nat × Nat) := []
deriving DecidableEq, Repr

/-- An IOTLB slot (16 R416): its IOVA range, tag and the leaf's fields. -/
structure IoSlot where
  iova : Nat
  size : Nat
  tag : Nat
  pa : Nat
  rd : Bool
  wr : Bool
  a : Bool
  d : Bool
  leafs : List (Nat × Word64)
deriving DecidableEq, Repr

/-- A pointer in the walk cache of an IOTU (16 R416). -/
structure IoPtr where
  tag : Nat
  tier : Nat
  entryAddr : Nat
  table : Nat
deriving DecidableEq, Repr

/-- A cached device-table entry (16 R408), with the sub-port its requester was last seen at. -/
structure DevCtx where
  rid : Nat
  sub : Nat
  ats : Bool
  pri : Bool
  p2p : Bool
  tc : Nat
  tag : Nat
  msiBase : Nat
  msiCount : Nat
  root : Nat
  priq : Nat
deriving DecidableEq, Repr

/-- An invalidation command not yet done (16 R416, R417): who issued it, and the requesters whose completion it waits for. -/
structure IoInv where
  by_ : Nat
  waiting : List Nat
deriving DecidableEq, Repr

/-- The root ports and the IOTU. `cfg` holds the bytes of the sub-ports' own configuration space (16 R406). -/
structure Pcie where
  running : BitVec 3 := 0
  subs : SMap SubPort := []
  cfg : SMap Byte := []
  ctxs : List DevCtx := []
  iotlb : SMap (List IoSlot) := []
  ioptr : SMap (List IoPtr) := []
  invs : List IoInv := []
  issued : SMap (BitVec 16) := []
  done : SMap (BitVec 16) := []
  sent : List PcieOut := []
deriving DecidableEq, Repr

/-- A priority-stack entry (17 R425). -/
structure IcEntry where
  source : Nat
  prio : Nat
deriving DecidableEq, Repr

/-- The interrupt controller (17): pending, active and line bits, rotation pointers, claiming cores and priority
stacks. -/
structure Intc where
  pend : SMap Bool := []
  act : SMap Bool := []
  lines : SMap Bool := []
  rot : SMap Nat := []
  claimedBy : SMap (Option Nat) := []
  icStacks : SMap (List IcEntry) := []
deriving DecidableEq, Repr

end Sys2Proof.Machine
end

