-- ==== Sys2Proof/Machine/RindState.lean ====
section
/-! DEFINITION. The state of system time and the timers (18), of the cellar (19), and of resilience and live change (20, 21). -/

namespace Sys2Proof.Machine

/-- One timer's counting state; its configuration stands in the TMR registers (18 R443 to R451). -/
structure Timer where
  presc : Nat := 0
  cnt : Word64 := 0
  capRise : Word64 := 0
  capFall : Word64 := 0
  flags : BitVec 6 := 0
  hold : Word64 := 0
  gIn : Bool := false
  capIn : Bool := false
  lastEdge : Option Nat := none
deriving DecidableEq, Repr

/-- System time and the timer array (18). `frac` counts 2^-32 ns; `tins` the levels of TIN0 to TIN15; `evPulse` the event-line pulses
the next cycle delivers; `rindPhase` the time-base cycles since the last rind-clock edge. -/
structure Time where
  now : Word64 := 0
  frac : BitVec 32 := 0
  rate : Int := 0
  src : Nat := 0
  tbOff : Bool := false
  syncLock : Bool := false
  started : Bool := false
  timers : SMap Timer := []
  syncFlags : BitVec 3 := 0
  syncRise : Word64 := 0
  syncFall : Word64 := 0
  snapTime : Word64 := 0
  syncIn : Bool := false
  syncOut : Bool := false
  syncOutUntil : Nat := 0
  syncErrs : List Int := []
  tins : BitVec 16 := 0
  evPulse : BitVec 64 := 0
  rindPhase : Nat := 0
deriving DecidableEq, Repr

/-- The ownership-table sync in progress (19 R468). -/
structure PotSync where
  base : Nat
  pages : Nat
deriving DecidableEq, Repr

/-- A sealed record in boot flash (19 R474). -/
structure SealedRecord where
  nonce : List Byte
  header : List Byte
  cipher : List Byte
  tag : List Byte
deriving DecidableEq, Repr

/-- The cellar (19): measurement registers as 48-byte numbers, the table in force, the sync, pair roles, debug grant. -/
structure Cellar where
  mrs : SMap (BitVec 384) := []
  potStarted : Bool := false
  sync : Option PotSync := none
  life : Bool := false
  active : Nat := 0
  standby : Nat := 2
  pairsUp : BitVec 4 := 0xF
  serial : Word32 := 0
  cert : List Byte := []
  keeperVer : Word32 := 0
  minSecurity : Nat := 0
  keeperSec : Nat := 0
  sealed : SMap (List SealedRecord) := []
  secrets : List (List Byte) := []
  nonce : Nat := 0
deriving DecidableEq, Repr

/-- A fault-log record: 32 bytes (20 R500), and the sequence, time and boot fields beside it (R499). -/
structure LogEntry where
  seq : Nat
  record : List Byte
  timeHi : Word32
  boot : BitVec 16
deriving DecidableEq, Repr

/-- A relocation (20 R482) until the old L2 has been written back: its trigger (R481), whether the pause has begun and when, and once
the core has resumed how long the pause was. -/
structure Relocation where
  lc : Nat
  fromPc : Nat
  toPc : Nat
  trigger : Nat
  start : Option Nat := none
  pause : Option Nat := none
deriving DecidableEq, Repr

/-- A physical core: whether it passed self-test, whether it is in service, its microcode version. -/
structure PhysCore where
  good : Bool := true
  service : Bool := true
  version : Word32 := 0
deriving DecidableEq, Repr

/-- The resilience state (20): core map, log, census marks, spares, containment. `suspects` are the units that disagreed in the last
census round, `silent` the far sides bridges treat as absent, `testing` the pairs in self-test. -/
structure Resil where
  bound : Nat := 0
  cores : SMap PhysCore := []
  lcMap : SMap (Option Nat) := []
  gens : SMap (BitVec 8) := []
  moving : SMap Bool := []
  relocs : List Relocation := []
  log : List LogEntry := []
  logSeq : Nat := 0
  merged : List (Nat × Nat × Nat × Nat) := []
  boot : BitVec 16 := 0
  fencedUnits : List Nat := []
  silent : List Nat := []
  suspects : List Nat := []
  rounds : BitVec 16 := 0
  contain : BitVec 6 := 0
  spareLeft : SMap Nat := []
  spareUsed : SMap Nat := []
  horizonK : SMap Nat := []
  horizonKind : Nat := 0
  horizon : Nat := 0xFFFE
  warned : Bool := false
  testing : List Nat := []
deriving DecidableEq, Repr

/-- An accepted image (19 R473, 21 R505): its version and the digest of its bytes. -/
structure Image where
  version : Word32
  digest : List Byte
  security : Nat := 0
deriving DecidableEq, Repr

/-- A roll in progress (06 R170, 21 R507 to R510): instances switched (stores 1 to 5) or still on the new version. -/
structure Roll where
  store : Nat
  version : Word32
  oldVersion : Word32
  gap : Nat
  done : List Nat := []
  aborting : Bool := false
  eccs : List Nat := []
deriving DecidableEq, Repr

/-- What the aging monitors gave for an island (21 R519 to R521): VAGE in 0.25 mV, the time of its last step, degradation in 100 ppm,
average junction temperature in 0.1 degrees, the alarm, frequency steps lost. -/
structure Aging where
  vage : Nat := 0
  stepped : Option Nat := none
  degr : Nat := 0
  tj : Nat := 0
  alarm : Bool := false
  lowered : Nat := 0
deriving DecidableEq, Repr

/-- The patch store of one sequencer (06 R164, R167): the bank in use, and the patch in each bank; none where it is empty and the ROM runs. -/
structure MicroStore where
  active : Nat := 0
  banks : SMap (Option Image) := []
deriving DecidableEq, Repr

/-- Live change (21): accepted images by store, the roll, the version of each store and of its ROM, the versions in the two flash
copies, the second copy's writes that are due, aging of the islands. -/
structure Live where
  images : SMap (Option Image) := []
  roll : Option Roll := none
  versions : SMap Word32 := []
  romVersions : SMap Word32 := []
  bootCopy : Nat := 0
  stores : SMap MicroStore := []
  inService : SMap (Option Image) := []
  flash : SMap (SMap (Option Image)) := []
  flashDue : List (Nat × Nat × Nat) := []
  orderSet : Bool := false
  aging : SMap Aging := []
  patchMode : Bool := false
deriving DecidableEq, Repr

end Sys2Proof.Machine
end

