-- ==== Sys2Proof/Machine/PowerState.lean ====
section
/-! DEFINITION. The state of the power sequencer, clocks and temperature (22, 25), of the debug attachment and trace (23), and
of the pads, UARTs, boot flash, mailbox and TAP (24). Read/write registers of these blocks stand in `ControlState`. -/

namespace Sys2Proof.Machine

/-- The operating mode underneath PATCH, DEBUG and CONTAIN (22 R527; 01 R34). -/
inductive DevMode
  | off | rind | sequence | calibrate | run | doze | deepDoze | scan | drain
deriving DecidableEq, Repr

/-- Island power states (22 R529); ACTIVE is the state of an island not listed. -/
inductive IslandState
  | active | gated | retain | offState
deriving DecidableEq, Repr

/-- The transitions the power sequencer runs, as PWR_REQ_STAT codes them (22 R540, R546). -/
inductive Transition
  | dozeEntry | dozeExit | deepEntry | deepExit | drain | powerOn
deriving DecidableEq, Repr

/-- A request in the pending slot of the sequencer (22 R540). -/
structure PowerReq where
  what : Transition
  commanded : Bool
deriving DecidableEq, Repr

/-- The sequencer, islands, clocks, thermal control and rails (22, 25). Islands are numbered: 0 to 575 the cores, 1,000 to 1,575 their L2
sub-islands, 576 the tile fabrics, 584 the memory controllers, 600 the links, 608 PCIe, 611 the sorting office, 613 service, 615 the
rind. [DESIGN CHOICE, log entry 4] -/
structure Power where
  mode : DevMode := .calibrate
  pwrgd : Bool := true
  tripped : Bool := false
  strapBoot : BitVec 2 := 0
  strapSlot : BitVec 2 := 0
  strapTest : Bool := false
  strapValid : Bool := true
  cur : Option Transition := none
  pend : Option PowerReq := none
  wakeLatch : BitVec 9 := 0
  wakeLast : BitVec 9 := 0
  last : Nat := 0
  entering : Bool := false
  exiting : Bool := false
  emu : Bool := false
  pstate : Nat := 0
  deepNext : Bool := false
  throttle : Bool := false
  islands : SMap IslandState := []
  padHeld : BitVec 32 := 0
  heldLevels : BitVec 32 := 0
  limitTarget : SMap Nat := []
  tu : SMap Nat := []
  tr : SMap Nat := []
  meas : Nat := 0
  temps : SMap Nat := []
  hot : SMap Bool := []
  prochotOwn : Bool := false
  prochotBoard : Bool := false
  thermtrip : Bool := false
  tripAt : Nat := 0
  vrAlert : Bool := false
  railUnknown : Bool := false
  activeRef : Nat := 0
  refPresent : BitVec 2 := 3
  perst : Bool := false
  perstRan : BitVec 3 := 0
deriving DecidableEq, Repr

/-- What CALIBRATE finds and takes from the boot configuration (26 R609 to R614): the cores that fail self-test, the DIMMs that answer, the
training sweeps of the lanes that do not pass everywhere, the cellar region and the ownership table, the configuration of the root ports, the loader's bytes with their header in
either flash copy, whether boot used the second copy, whether a keeper image
verified, its digest and the fuse configuration, the sealed records of the two flash copies, and the ceilings of the boot record. -/
structure BootConfig where
  badCores : List Nat := []
  dimms : List Dimm := []
  sweeps : List LaneSweep := []
  cellBase : Nat := 0
  cellLimit : Nat := 0
  potBase : Nat := 0
  peCfg : List Word32 := []
  loader : List Byte := []
  otherLoader : List Byte := []
  fallback : Bool := false
  keeperOk : Bool := true
  keeperDigest : List Byte := []
  fuses : List Byte := []
  sealedA : List SealedRecord := []
  sealedB : List SealedRecord := []
  tc0Ceil : Option Word32 := none
  powerCeil : Option Word32 := none
deriving DecidableEq, Repr

/-- The debug attachment, its authorisation, the windows and the trace ring (23 R547 to R569; 19 R475). -/
structure Dbg where
  path : Nat := 0
  lastAccess : Word64 := 0
  level : Nat := 0
  grantEnd : Word64 := 0
  challenge : List Byte := []
  wanted : Option (Nat × Nat) := none
  reqPath : Nat := 0
  refusals : List Nat := []
  lockedUntil : Word64 := 0
  rStatus : Nat := 0
  mStatus : Nat := 0
  mPoison : Bool := false
  trHead : Nat := 0
  trOwed : Nat := 0
deriving DecidableEq, Repr

/-- One UART (24 R582). -/
structure Uart where
  tx : List Byte := []
  rx : List Byte := []
  err : BitVec 3 := 0
deriving DecidableEq, Repr

/-- The response the mailbox holds: STATUS, TAG and payload (24 R585). -/
structure MbxReply where
  status : Nat
  tag : Byte
  data : List Byte
deriving DecidableEq, Repr

/-- Pads, LEDs, UARTs, flash copies, the mailbox and the TAP (24). -/
structure Pads where
  level : BitVec 32 := 0
  events : BitVec 8 := 0
  fsel : SMap (BitVec 2) := []
  releasing : SMap Bool := []
  ledDiag : BitVec 8 := 0
  uarts : SMap Uart := []
  dynAddr : Option (BitVec 7) := none
  request : Option (Nat × Byte × List Byte) := none
  reply : Option MbxReply := none
  hostIn : List Byte := []
  inFull : Bool := false
  hostOut : List Byte := []
  outFull : Bool := false
  alerts : BitVec 6 := 0
  flashFails : SMap Nat := []
  ir : BitVec 8 := 1
  safeEn : Bool := false
  safeTimeout : BitVec 10 := 0
  released : Bool := false
  boundary : BitVec 2112 := 0
  dbgData : Word32 := 0
  dbgStatus : Nat := 0
deriving DecidableEq, Repr

end Sys2Proof.Machine
end

