-- ==== Sys2Proof/Syntax.lean ====
section
/-! DEFINITION. The commands of the block: one constructor per row of the opcode table, with its operands. A core instruction
names the logical core that executes it and the operand fields of its encoding; fields wide enough to hold a reserved value keep
it. An event names the unit it happens at and what arrives from outside. -/

namespace Sys2Proof
open Sys2Proof.Machine

/-- A command: one constructor per row of the opcode table; each docstring gives the row and the rule that governs it.
[DESIGN CHOICE, log entry 49; DESIGN CHOICE, log entry 95] -/
inductive Instr
  /-- `RESERVED_MAJOR_OPCODE` (R70). -/
  | reservedMajorOpcode (lc : LC) (w : Word32)
  /-- `ADD` (R72). -/
  | add (lc : LC) (f : Bool) (rd : GReg) (ra : GReg) (rb : GReg)
  /-- `ADC` (R72). -/
  | adc (lc : LC) (f : Bool) (rd : GReg) (ra : GReg) (rb : GReg)
  /-- `SUB` (R72). -/
  | sub (lc : LC) (f : Bool) (rd : GReg) (ra : GReg) (rb : GReg)
  /-- `SBC` (R72). -/
  | sbc (lc : LC) (f : Bool) (rd : GReg) (ra : GReg) (rb : GReg)
  /-- `AND` (R72). -/
  | and (lc : LC) (f : Bool) (rd : GReg) (ra : GReg) (rb : GReg)
  /-- `ANDN` (R72). -/
  | andn (lc : LC) (f : Bool) (rd : GReg) (ra : GReg) (rb : GReg)
  /-- `OR` (R72). -/
  | or (lc : LC) (f : Bool) (rd : GReg) (ra : GReg) (rb : GReg)
  /-- `ORN` (R72). -/
  | orn (lc : LC) (f : Bool) (rd : GReg) (ra : GReg) (rb : GReg)
  /-- `XOR` (R72). -/
  | xor (lc : LC) (f : Bool) (rd : GReg) (ra : GReg) (rb : GReg)
  /-- `XNOR` (R72). -/
  | xnor (lc : LC) (f : Bool) (rd : GReg) (ra : GReg) (rb : GReg)
  /-- `MUL` (R72). -/
  | mul (lc : LC) (f : Bool) (rd : GReg) (ra : GReg) (rb : GReg)
  /-- `MULH` (R72). -/
  | mulh (lc : LC) (f : Bool) (rd : GReg) (ra : GReg) (rb : GReg)
  /-- `MULHU` (R72). -/
  | mulhu (lc : LC) (f : Bool) (rd : GReg) (ra : GReg) (rb : GReg)
  /-- `DIV` (R73). -/
  | div (lc : LC) (f : Bool) (rd : GReg) (ra : GReg) (rb : GReg)
  /-- `DIVU` (R73). -/
  | divu (lc : LC) (f : Bool) (rd : GReg) (ra : GReg) (rb : GReg)
  /-- `REM` (R73). -/
  | rem (lc : LC) (f : Bool) (rd : GReg) (ra : GReg) (rb : GReg)
  /-- `REMU` (R73). -/
  | remu (lc : LC) (f : Bool) (rd : GReg) (ra : GReg) (rb : GReg)
  /-- `SLL` (R72). -/
  | sll (lc : LC) (f : Bool) (rd : GReg) (ra : GReg) (rb : GReg)
  /-- `SRL` (R72). -/
  | srl (lc : LC) (f : Bool) (rd : GReg) (ra : GReg) (rb : GReg)
  /-- `SRA` (R72). -/
  | sra (lc : LC) (f : Bool) (rd : GReg) (ra : GReg) (rb : GReg)
  /-- `ROR` (R72). -/
  | ror (lc : LC) (f : Bool) (rd : GReg) (ra : GReg) (rb : GReg)
  /-- `CLZ` (R72). -/
  | clz (lc : LC) (f : Bool) (rd : GReg) (ra : GReg) (rb : GReg)
  /-- `CTZ` (R72). -/
  | ctz (lc : LC) (f : Bool) (rd : GReg) (ra : GReg) (rb : GReg)
  /-- `POPC` (R72). -/
  | popc (lc : LC) (f : Bool) (rd : GReg) (ra : GReg) (rb : GReg)
  /-- `BSWAP` (R72). -/
  | bswap (lc : LC) (f : Bool) (rd : GReg) (ra : GReg) (rb : GReg)
  /-- `BREV` (R72). -/
  | brev (lc : LC) (f : Bool) (rd : GReg) (ra : GReg) (rb : GReg)
  /-- `SEXTB` (R72). -/
  | sextb (lc : LC) (f : Bool) (rd : GReg) (ra : GReg) (rb : GReg)
  /-- `SEXTH` (R72). -/
  | sexth (lc : LC) (f : Bool) (rd : GReg) (ra : GReg) (rb : GReg)
  /-- `SEXTW` (R72). -/
  | sextw (lc : LC) (f : Bool) (rd : GReg) (ra : GReg) (rb : GReg)
  /-- `ZEXTB` (R72). -/
  | zextb (lc : LC) (f : Bool) (rd : GReg) (ra : GReg) (rb : GReg)
  /-- `ZEXTH` (R72). -/
  | zexth (lc : LC) (f : Bool) (rd : GReg) (ra : GReg) (rb : GReg)
  /-- `ZEXTW` (R72). -/
  | zextw (lc : LC) (f : Bool) (rd : GReg) (ra : GReg) (rb : GReg)
  /-- `ADDI` (R74). -/
  | addi (lc : LC) (f : Bool) (x : Bool) (rd : GReg) (ra : GReg) (imm : BitVec 14)
  /-- `SUBI` (R74). -/
  | subi (lc : LC) (f : Bool) (x : Bool) (rd : GReg) (ra : GReg) (imm : BitVec 14)
  /-- `ANDI` (R74). -/
  | andi (lc : LC) (f : Bool) (x : Bool) (rd : GReg) (ra : GReg) (imm : BitVec 14)
  /-- `ORI` (R74). -/
  | ori (lc : LC) (f : Bool) (x : Bool) (rd : GReg) (ra : GReg) (imm : BitVec 14)
  /-- `XORI` (R74). -/
  | xori (lc : LC) (f : Bool) (x : Bool) (rd : GReg) (ra : GReg) (imm : BitVec 14)
  /-- `SLLI` (R75). -/
  | slli (lc : LC) (f : Bool) (x : Bool) (rd : GReg) (ra : GReg) (hi : BitVec 6) (n : BitVec 6)
  /-- `SRLI` (R75). -/
  | srli (lc : LC) (f : Bool) (x : Bool) (rd : GReg) (ra : GReg) (hi : BitVec 6) (n : BitVec 6)
  /-- `SRAI` (R75). -/
  | srai (lc : LC) (f : Bool) (x : Bool) (rd : GReg) (ra : GReg) (hi : BitVec 6) (n : BitVec 6)
  /-- `RORI` (R75). -/
  | rori (lc : LC) (f : Bool) (x : Bool) (rd : GReg) (ra : GReg) (hi : BitVec 6) (n : BitVec 6)
  /-- `SETQ` (R76). -/
  | setq (lc : LC) (rd : GReg) (q : BitVec 5) (imm : BitVec 16)
  /-- `PUTQ` (R76). -/
  | putq (lc : LC) (rd : GReg) (q : BitVec 5) (imm : BitVec 16)
  /-- `ADR` (R76). -/
  | adr (lc : LC) (rd : GReg) (off : BitVec 21)
  /-- `SEL` (R77). -/
  | sel (lc : LC) (f : Bool) (rd : GReg) (ra : GReg) (rb : GReg) (hi : BitVec 6) (cond : BitVec 4)
  /-- `B_COND` (R82). -/
  | bCond (lc : LC) (cond : BitVec 4) (hint : Bool) (rsv : BitVec 4) (off : BitVec 17)
  /-- `B` (R83). -/
  | b (lc : LC) (off : BitVec 26)
  /-- `BL` (R83). -/
  | bl (lc : LC) (off : BitVec 26)
  /-- `BR` (R84). -/
  | br (lc : LC) (f : Bool) (rd : GReg) (ra : GReg) (rb : GReg)
  /-- `BLR` (R84). -/
  | blr (lc : LC) (f : Bool) (rd : GReg) (ra : GReg) (rb : GReg)
  /-- `RET` (R84). -/
  | ret (lc : LC) (f : Bool) (rd : GReg) (ra : GReg) (rb : GReg)
  /-- `MISPREDICT_RECOVERY` (R86). -/
  | mispredictRecovery (lc : LC) (seq : Nat)
  /-- `CSRRD` (R64). -/
  | csrrd (lc : LC) (rd : GReg) (rv : GReg) (x12 : BitVec 12)
  /-- `CSRWR` (R64). -/
  | csrwr (lc : LC) (rd : GReg) (rv : GReg) (x12 : BitVec 12)
  /-- `CSRSET` (R64). -/
  | csrset (lc : LC) (rd : GReg) (rv : GReg) (x12 : BitVec 12)
  /-- `CSRCLR` (R64). -/
  | csrclr (lc : LC) (rd : GReg) (rv : GReg) (x12 : BitVec 12)
  /-- `SDC` (R37). -/
  | sdc (lc : LC) (rd : GReg) (rv : GReg) (x12 : BitVec 12)
  /-- `SDC_RD` (R37). -/
  | sdcRd (lc : LC) (rd : GReg) (rv : GReg) (x12 : BitVec 12)
  /-- `SDC_TIMEOUT` (R38). -/
  | sdcTimeout (lc : LC) (isRead : Bool) (rd : GReg) (rv : GReg) (x12 : BitVec 12)
  /-- `LDB` (R94). -/
  | ldb (lc : LC) (rt : GReg) (rb : GReg) (mo : BitVec 2) (off : BitVec 14)
  /-- `LDH` (R94). -/
  | ldh (lc : LC) (rt : GReg) (rb : GReg) (mo : BitVec 2) (off : BitVec 14)
  /-- `LDW` (R94). -/
  | ldw (lc : LC) (rt : GReg) (rb : GReg) (mo : BitVec 2) (off : BitVec 14)
  /-- `LDD` (R94). -/
  | ldd (lc : LC) (rt : GReg) (rb : GReg) (mo : BitVec 2) (off : BitVec 14)
  /-- `LDSB` (R94). -/
  | ldsb (lc : LC) (rt : GReg) (rb : GReg) (mo : BitVec 2) (off : BitVec 14)
  /-- `LDSH` (R94). -/
  | ldsh (lc : LC) (rt : GReg) (rb : GReg) (mo : BitVec 2) (off : BitVec 14)
  /-- `LDSW` (R94). -/
  | ldsw (lc : LC) (rt : GReg) (rb : GReg) (mo : BitVec 2) (off : BitVec 14)
  /-- `STB` (R94). -/
  | stb (lc : LC) (rt : GReg) (rb : GReg) (mo : BitVec 2) (off : BitVec 14)
  /-- `STH` (R94). -/
  | sth (lc : LC) (rt : GReg) (rb : GReg) (mo : BitVec 2) (off : BitVec 14)
  /-- `STW` (R94). -/
  | stw (lc : LC) (rt : GReg) (rb : GReg) (mo : BitVec 2) (off : BitVec 14)
  /-- `STD` (R94). -/
  | std (lc : LC) (rt : GReg) (rb : GReg) (mo : BitVec 2) (off : BitVec 14)
  /-- `LOAD_INDEXED` (R96). -/
  | loadIndexed (lc : LC) (rt : GReg) (rb : GReg) (mo : BitVec 2) (gi : GReg) (sel : BitVec 4) (low : BitVec 5)
  /-- `STORE_INDEXED` (R96). -/
  | storeIndexed (lc : LC) (rt : GReg) (rb : GReg) (mo : BitVec 2) (gi : GReg) (sel : BitVec 4) (low : BitVec 5)
  /-- `AMO_XCHG` (R113). -/
  | amoXchg (lc : LC) (rt : GReg) (rb : GReg) (mo : BitVec 2) (wide : Bool) (far : Bool) (gs : GReg) (low : BitVec 3)
  /-- `AMO_ADD` (R113). -/
  | amoAdd (lc : LC) (rt : GReg) (rb : GReg) (mo : BitVec 2) (wide : Bool) (far : Bool) (gs : GReg) (low : BitVec 3)
  /-- `AMO_AND` (R113). -/
  | amoAnd (lc : LC) (rt : GReg) (rb : GReg) (mo : BitVec 2) (wide : Bool) (far : Bool) (gs : GReg) (low : BitVec 3)
  /-- `AMO_OR` (R113). -/
  | amoOr (lc : LC) (rt : GReg) (rb : GReg) (mo : BitVec 2) (wide : Bool) (far : Bool) (gs : GReg) (low : BitVec 3)
  /-- `AMO_XOR` (R113). -/
  | amoXor (lc : LC) (rt : GReg) (rb : GReg) (mo : BitVec 2) (wide : Bool) (far : Bool) (gs : GReg) (low : BitVec 3)
  /-- `AMO_MAXS` (R113). -/
  | amoMaxs (lc : LC) (rt : GReg) (rb : GReg) (mo : BitVec 2) (wide : Bool) (far : Bool) (gs : GReg) (low : BitVec 3)
  /-- `AMO_MINS` (R113). -/
  | amoMins (lc : LC) (rt : GReg) (rb : GReg) (mo : BitVec 2) (wide : Bool) (far : Bool) (gs : GReg) (low : BitVec 3)
  /-- `AMO_MAXU` (R113). -/
  | amoMaxu (lc : LC) (rt : GReg) (rb : GReg) (mo : BitVec 2) (wide : Bool) (far : Bool) (gs : GReg) (low : BitVec 3)
  /-- `AMO_MINU` (R113). -/
  | amoMinu (lc : LC) (rt : GReg) (rb : GReg) (mo : BitVec 2) (wide : Bool) (far : Bool) (gs : GReg) (low : BitVec 3)
  /-- `AMO_CMPX` (R113). -/
  | amoCmpx (lc : LC) (rt : GReg) (rb : GReg) (mo : BitVec 2) (wide : Bool) (far : Bool) (gs : GReg) (low : BitVec 3)
  /-- `PRFM` (R100). -/
  | prfm (lc : LC) (kind : BitVec 5) (rb : GReg) (mo : BitVec 2) (off : BitVec 14)
  /-- `FENCE` (R112). -/
  | fence (lc : LC) (rd : GReg) (rv : GReg) (x12 : BitVec 12)
  /-- `IFENCE` (R118). -/
  | ifence (lc : LC) (rd : GReg) (rv : GReg) (x12 : BitVec 12)
  /-- `SPECBAR` (R122). -/
  | specbar (lc : LC) (rd : GReg) (rv : GReg) (x12 : BitVec 12)
  /-- `SHADOW_GROUP_COMMIT` (R105). -/
  | shadowGroupCommit (lc : LC)
  /-- `INTERRUPT_ENTRY` (R173). -/
  | interruptEntry (lc : LC)
  /-- `INSTRUCTION_GROUP_RETRY` (R479). -/
  | instructionGroupRetry (lc : LC) (row : Fin 16)
  /-- `VADD` (R128). -/
  | vadd (lc : LC) (vd : VReg) (va : VReg) (vb : VReg) (k : KReg) (z : Bool) (ew : BitVec 2)
  /-- `VSUB` (R128). -/
  | vsub (lc : LC) (vd : VReg) (va : VReg) (vb : VReg) (k : KReg) (z : Bool) (ew : BitVec 2)
  /-- `VMULLO` (R128). -/
  | vmullo (lc : LC) (vd : VReg) (va : VReg) (vb : VReg) (k : KReg) (z : Bool) (ew : BitVec 2)
  /-- `VMULHS` (R128). -/
  | vmulhs (lc : LC) (vd : VReg) (va : VReg) (vb : VReg) (k : KReg) (z : Bool) (ew : BitVec 2)
  /-- `VMULHU` (R128). -/
  | vmulhu (lc : LC) (vd : VReg) (va : VReg) (vb : VReg) (k : KReg) (z : Bool) (ew : BitVec 2)
  /-- `VAND` (R128). -/
  | vand (lc : LC) (vd : VReg) (va : VReg) (vb : VReg) (k : KReg) (z : Bool) (ew : BitVec 2)
  /-- `VANDN` (R128). -/
  | vandn (lc : LC) (vd : VReg) (va : VReg) (vb : VReg) (k : KReg) (z : Bool) (ew : BitVec 2)
  /-- `VOR` (R128). -/
  | vor (lc : LC) (vd : VReg) (va : VReg) (vb : VReg) (k : KReg) (z : Bool) (ew : BitVec 2)
  /-- `VXOR` (R128). -/
  | vxor (lc : LC) (vd : VReg) (va : VReg) (vb : VReg) (k : KReg) (z : Bool) (ew : BitVec 2)
  /-- `VSLLV` (R128). -/
  | vsllv (lc : LC) (vd : VReg) (va : VReg) (vb : VReg) (k : KReg) (z : Bool) (ew : BitVec 2)
  /-- `VSRLV` (R128). -/
  | vsrlv (lc : LC) (vd : VReg) (va : VReg) (vb : VReg) (k : KReg) (z : Bool) (ew : BitVec 2)
  /-- `VSRAV` (R128). -/
  | vsrav (lc : LC) (vd : VReg) (va : VReg) (vb : VReg) (k : KReg) (z : Bool) (ew : BitVec 2)
  /-- `VSMIN` (R128). -/
  | vsmin (lc : LC) (vd : VReg) (va : VReg) (vb : VReg) (k : KReg) (z : Bool) (ew : BitVec 2)
  /-- `VSMAX` (R128). -/
  | vsmax (lc : LC) (vd : VReg) (va : VReg) (vb : VReg) (k : KReg) (z : Bool) (ew : BitVec 2)
  /-- `VUMIN` (R128). -/
  | vumin (lc : LC) (vd : VReg) (va : VReg) (vb : VReg) (k : KReg) (z : Bool) (ew : BitVec 2)
  /-- `VUMAX` (R128). -/
  | vumax (lc : LC) (vd : VReg) (va : VReg) (vb : VReg) (k : KReg) (z : Bool) (ew : BitVec 2)
  /-- `VABS` (R128). -/
  | vabs (lc : LC) (vd : VReg) (va : VReg) (vb : VReg) (k : KReg) (z : Bool) (ew : BitVec 2)
  /-- `VFADD` (R133). -/
  | vfadd (lc : LC) (vd : VReg) (va : VReg) (vb : VReg) (k : KReg) (z : Bool) (ew : BitVec 2)
  /-- `VFSUB` (R133). -/
  | vfsub (lc : LC) (vd : VReg) (va : VReg) (vb : VReg) (k : KReg) (z : Bool) (ew : BitVec 2)
  /-- `VFMUL` (R133). -/
  | vfmul (lc : LC) (vd : VReg) (va : VReg) (vb : VReg) (k : KReg) (z : Bool) (ew : BitVec 2)
  /-- `VFDIV` (R133). -/
  | vfdiv (lc : LC) (vd : VReg) (va : VReg) (vb : VReg) (k : KReg) (z : Bool) (ew : BitVec 2)
  /-- `VFSQRT` (R133). -/
  | vfsqrt (lc : LC) (vd : VReg) (va : VReg) (vb : VReg) (k : KReg) (z : Bool) (ew : BitVec 2)
  /-- `VFMIN` (R133). -/
  | vfmin (lc : LC) (vd : VReg) (va : VReg) (vb : VReg) (k : KReg) (z : Bool) (ew : BitVec 2)
  /-- `VFMAX` (R133). -/
  | vfmax (lc : LC) (vd : VReg) (va : VReg) (vb : VReg) (k : KReg) (z : Bool) (ew : BitVec 2)
  /-- `VFABS` (R133). -/
  | vfabs (lc : LC) (vd : VReg) (va : VReg) (vb : VReg) (k : KReg) (z : Bool) (ew : BitVec 2)
  /-- `VFNEG` (R133). -/
  | vfneg (lc : LC) (vd : VReg) (va : VReg) (vb : VReg) (k : KReg) (z : Bool) (ew : BitVec 2)
  /-- `VFRND` (R133). -/
  | vfrnd (lc : LC) (vd : VReg) (va : VReg) (vb : VReg) (k : KReg) (z : Bool) (ew : BitVec 2)
  /-- `VFMADD` (R133). -/
  | vfmadd (lc : LC) (vd : VReg) (va : VReg) (vb : VReg) (k : KReg) (z : Bool) (ew : BitVec 2)
  /-- `VFMSUB` (R133). -/
  | vfmsub (lc : LC) (vd : VReg) (va : VReg) (vb : VReg) (k : KReg) (z : Bool) (ew : BitVec 2)
  /-- `VFNMADD` (R133). -/
  | vfnmadd (lc : LC) (vd : VReg) (va : VReg) (vb : VReg) (k : KReg) (z : Bool) (ew : BitVec 2)
  /-- `VFNMSUB` (R133). -/
  | vfnmsub (lc : LC) (vd : VReg) (va : VReg) (vb : VReg) (k : KReg) (z : Bool) (ew : BitVec 2)
  /-- `VCVT_D_S` (R134). -/
  | vcvtDS (lc : LC) (hi : Bool) (vd : VReg) (va : VReg) (vb : VReg) (k : KReg) (z : Bool) (ew : BitVec 2)
  /-- `VCVT_S_D` (R134). -/
  | vcvtSD (lc : LC) (hi : Bool) (vd : VReg) (va : VReg) (vb : VReg) (k : KReg) (z : Bool) (ew : BitVec 2)
  /-- `VCVT_S_H` (R134). -/
  | vcvtSH (lc : LC) (hi : Bool) (vd : VReg) (va : VReg) (vb : VReg) (k : KReg) (z : Bool) (ew : BitVec 2)
  /-- `VCVT_H_S` (R134). -/
  | vcvtHS (lc : LC) (hi : Bool) (vd : VReg) (va : VReg) (vb : VReg) (k : KReg) (z : Bool) (ew : BitVec 2)
  /-- `VCVT_S_BF` (R134). -/
  | vcvtSBf (lc : LC) (hi : Bool) (vd : VReg) (va : VReg) (vb : VReg) (k : KReg) (z : Bool) (ew : BitVec 2)
  /-- `VCVT_BF_S` (R134). -/
  | vcvtBfS (lc : LC) (hi : Bool) (vd : VReg) (va : VReg) (vb : VReg) (k : KReg) (z : Bool) (ew : BitVec 2)
  /-- `VCVT_F_I` (R134). -/
  | vcvtFI (lc : LC) (vd : VReg) (va : VReg) (vb : VReg) (k : KReg) (z : Bool) (ew : BitVec 2)
  /-- `VCVT_F_U` (R134). -/
  | vcvtFU (lc : LC) (vd : VReg) (va : VReg) (vb : VReg) (k : KReg) (z : Bool) (ew : BitVec 2)
  /-- `VCVT_I_F` (R135). -/
  | vcvtIF (lc : LC) (vd : VReg) (va : VReg) (vb : VReg) (k : KReg) (z : Bool) (ew : BitVec 2)
  /-- `VCVT_U_F` (R135). -/
  | vcvtUF (lc : LC) (vd : VReg) (va : VReg) (vb : VReg) (k : KReg) (z : Bool) (ew : BitVec 2)
  /-- `VCVT_I_F_T` (R135). -/
  | vcvtIFT (lc : LC) (vd : VReg) (va : VReg) (vb : VReg) (k : KReg) (z : Bool) (ew : BitVec 2)
  /-- `VCVT_U_F_T` (R135). -/
  | vcvtUFT (lc : LC) (vd : VReg) (va : VReg) (vb : VReg) (k : KReg) (z : Bool) (ew : BitVec 2)
  /-- `VPERM` (R136). -/
  | vperm (lc : LC) (vd : VReg) (va : VReg) (vb : VReg) (k : KReg) (z : Bool) (ew : BitVec 2)
  /-- `VPERM2` (R136). -/
  | vperm2 (lc : LC) (vd : VReg) (va : VReg) (vb : VReg) (k : KReg) (z : Bool) (ew : BitVec 2)
  /-- `VBCSTL` (R136). -/
  | vbcstl (lc : LC) (vd : VReg) (va : VReg) (vb : VReg) (k : KReg) (z : Bool) (ew : BitVec 2)
  /-- `VREV` (R136). -/
  | vrev (lc : LC) (vd : VReg) (va : VReg) (vb : VReg) (k : KReg) (z : Bool) (ew : BitVec 2)
  /-- `VCOMPRESS` (R136). -/
  | vcompress (lc : LC) (vd : VReg) (va : VReg) (vb : VReg) (k : KReg) (z : Bool) (ew : BitVec 2)
  /-- `VEXPAND` (R136). -/
  | vexpand (lc : LC) (vd : VReg) (va : VReg) (vb : VReg) (k : KReg) (z : Bool) (ew : BitVec 2)
  /-- `VBCSTG` (R136). -/
  | vbcstg (lc : LC) (vd : VReg) (va : VReg) (vb : VReg) (k : KReg) (z : Bool) (ew : BitVec 2)
  /-- `VINS` (R136). -/
  | vins (lc : LC) (vd : VReg) (va : VReg) (vb : VReg) (k : KReg) (z : Bool) (ew : BitVec 2)
  /-- `VEXT` (R136). -/
  | vext (lc : LC) (vd : VReg) (va : VReg) (vb : VReg) (k : KReg) (z : Bool) (ew : BitVec 2)
  /-- `VREDADD` (R137). -/
  | vredadd (lc : LC) (vd : VReg) (va : VReg) (vb : VReg) (k : KReg) (z : Bool) (ew : BitVec 2)
  /-- `VREDSMIN` (R137). -/
  | vredsmin (lc : LC) (vd : VReg) (va : VReg) (vb : VReg) (k : KReg) (z : Bool) (ew : BitVec 2)
  /-- `VREDSMAX` (R137). -/
  | vredsmax (lc : LC) (vd : VReg) (va : VReg) (vb : VReg) (k : KReg) (z : Bool) (ew : BitVec 2)
  /-- `VREDUMIN` (R137). -/
  | vredumin (lc : LC) (vd : VReg) (va : VReg) (vb : VReg) (k : KReg) (z : Bool) (ew : BitVec 2)
  /-- `VREDUMAX` (R137). -/
  | vredumax (lc : LC) (vd : VReg) (va : VReg) (vb : VReg) (k : KReg) (z : Bool) (ew : BitVec 2)
  /-- `VREDAND` (R137). -/
  | vredand (lc : LC) (vd : VReg) (va : VReg) (vb : VReg) (k : KReg) (z : Bool) (ew : BitVec 2)
  /-- `VREDOR` (R137). -/
  | vredor (lc : LC) (vd : VReg) (va : VReg) (vb : VReg) (k : KReg) (z : Bool) (ew : BitVec 2)
  /-- `VREDXOR` (R137). -/
  | vredxor (lc : LC) (vd : VReg) (va : VReg) (vb : VReg) (k : KReg) (z : Bool) (ew : BitVec 2)
  /-- `VFREDADD` (R137). -/
  | vfredadd (lc : LC) (vd : VReg) (va : VReg) (vb : VReg) (k : KReg) (z : Bool) (ew : BitVec 2)
  /-- `VFREDMIN` (R137). -/
  | vfredmin (lc : LC) (vd : VReg) (va : VReg) (vb : VReg) (k : KReg) (z : Bool) (ew : BitVec 2)
  /-- `VFREDMAX` (R137). -/
  | vfredmax (lc : LC) (vd : VReg) (va : VReg) (vb : VReg) (k : KReg) (z : Bool) (ew : BitVec 2)
  /-- `VCMPEQ` (R138). -/
  | vcmpeq (lc : LC) (vd : VReg) (va : VReg) (vb : VReg) (k : KReg) (z : Bool) (ew : BitVec 2)
  /-- `VCMPNE` (R138). -/
  | vcmpne (lc : LC) (vd : VReg) (va : VReg) (vb : VReg) (k : KReg) (z : Bool) (ew : BitVec 2)
  /-- `VCMPLT` (R138). -/
  | vcmplt (lc : LC) (vd : VReg) (va : VReg) (vb : VReg) (k : KReg) (z : Bool) (ew : BitVec 2)
  /-- `VCMPLE` (R138). -/
  | vcmple (lc : LC) (vd : VReg) (va : VReg) (vb : VReg) (k : KReg) (z : Bool) (ew : BitVec 2)
  /-- `VCMPLTU` (R138). -/
  | vcmpltu (lc : LC) (vd : VReg) (va : VReg) (vb : VReg) (k : KReg) (z : Bool) (ew : BitVec 2)
  /-- `VCMPLEU` (R138). -/
  | vcmpleu (lc : LC) (vd : VReg) (va : VReg) (vb : VReg) (k : KReg) (z : Bool) (ew : BitVec 2)
  /-- `VFCMPEQ` (R138). -/
  | vfcmpeq (lc : LC) (vd : VReg) (va : VReg) (vb : VReg) (k : KReg) (z : Bool) (ew : BitVec 2)
  /-- `VFCMPNE` (R138). -/
  | vfcmpne (lc : LC) (vd : VReg) (va : VReg) (vb : VReg) (k : KReg) (z : Bool) (ew : BitVec 2)
  /-- `VFCMPLT` (R138). -/
  | vfcmplt (lc : LC) (vd : VReg) (va : VReg) (vb : VReg) (k : KReg) (z : Bool) (ew : BitVec 2)
  /-- `VFCMPLE` (R138). -/
  | vfcmple (lc : LC) (vd : VReg) (va : VReg) (vb : VReg) (k : KReg) (z : Bool) (ew : BitVec 2)
  /-- `VFCMPUN` (R138). -/
  | vfcmpun (lc : LC) (vd : VReg) (va : VReg) (vb : VReg) (k : KReg) (z : Bool) (ew : BitVec 2)
  /-- `VFCMPF` (R139). -/
  | vfcmpf (lc : LC) (vd : VReg) (va : VReg) (vb : VReg) (k : KReg) (z : Bool) (ew : BitVec 2)
  /-- `KAND` (R140). -/
  | kand (lc : LC) (vd : VReg) (va : VReg) (vb : VReg) (k : KReg) (z : Bool) (ew : BitVec 2)
  /-- `KOR` (R140). -/
  | kor (lc : LC) (vd : VReg) (va : VReg) (vb : VReg) (k : KReg) (z : Bool) (ew : BitVec 2)
  /-- `KXOR` (R140). -/
  | kxor (lc : LC) (vd : VReg) (va : VReg) (vb : VReg) (k : KReg) (z : Bool) (ew : BitVec 2)
  /-- `KANDN` (R140). -/
  | kandn (lc : LC) (vd : VReg) (va : VReg) (vb : VReg) (k : KReg) (z : Bool) (ew : BitVec 2)
  /-- `KNOT` (R140). -/
  | knot (lc : LC) (vd : VReg) (va : VReg) (vb : VReg) (k : KReg) (z : Bool) (ew : BitVec 2)
  /-- `KMOVG` (R140). -/
  | kmovg (lc : LC) (vd : VReg) (va : VReg) (vb : VReg) (k : KReg) (z : Bool) (ew : BitVec 2)
  /-- `KMOVK` (R140). -/
  | kmovk (lc : LC) (vd : VReg) (va : VReg) (vb : VReg) (k : KReg) (z : Bool) (ew : BitVec 2)
  /-- `KPOPC` (R140). -/
  | kpopc (lc : LC) (vd : VReg) (va : VReg) (vb : VReg) (k : KReg) (z : Bool) (ew : BitVec 2)
  /-- `KFIRST` (R140). -/
  | kfirst (lc : LC) (vd : VReg) (va : VReg) (vb : VReg) (k : KReg) (z : Bool) (ew : BitVec 2)
  /-- `VLD` (R141). -/
  | vld (lc : LC) (vt : VReg) (rb : GReg) (vb : VReg) (k : KReg) (z : Bool) (ew : BitVec 2)
  /-- `VLD_X` (R141). -/
  | vldX (lc : LC) (vt : VReg) (rb : GReg) (vb : VReg) (k : KReg) (z : Bool) (ew : BitVec 2)
  /-- `VLD_FF` (R143). -/
  | vldFf (lc : LC) (vt : VReg) (rb : GReg) (vb : VReg) (k : KReg) (z : Bool) (ew : BitVec 2)
  /-- `VLD_NT` (R141). -/
  | vldNt (lc : LC) (vt : VReg) (rb : GReg) (vb : VReg) (k : KReg) (z : Bool) (ew : BitVec 2)
  /-- `VLDBC` (R141). -/
  | vldbc (lc : LC) (vt : VReg) (rb : GReg) (vb : VReg) (k : KReg) (z : Bool) (ew : BitVec 2)
  /-- `VLDBC_X` (R141). -/
  | vldbcX (lc : LC) (vt : VReg) (rb : GReg) (vb : VReg) (k : KReg) (z : Bool) (ew : BitVec 2)
  /-- `VST` (R141). -/
  | vst (lc : LC) (vt : VReg) (rb : GReg) (vb : VReg) (k : KReg) (z : Bool) (ew : BitVec 2)
  /-- `VST_X` (R141). -/
  | vstX (lc : LC) (vt : VReg) (rb : GReg) (vb : VReg) (k : KReg) (z : Bool) (ew : BitVec 2)
  /-- `VST_NT` (R142). -/
  | vstNt (lc : LC) (vt : VReg) (rb : GReg) (vb : VReg) (k : KReg) (z : Bool) (ew : BitVec 2)
  /-- `VGATHER` (R144). -/
  | vgather (lc : LC) (vt : VReg) (rb : GReg) (vb : VReg) (k : KReg) (z : Bool) (ew : BitVec 2)
  /-- `VGATHER_S` (R144). -/
  | vgatherS (lc : LC) (vt : VReg) (rb : GReg) (vb : VReg) (k : KReg) (z : Bool) (ew : BitVec 2)
  /-- `VSCATTER` (R145). -/
  | vscatter (lc : LC) (vt : VReg) (rb : GReg) (vb : VReg) (k : KReg) (z : Bool) (ew : BitVec 2)
  /-- `VSCATTER_S` (R145). -/
  | vscatterS (lc : LC) (vt : VReg) (rb : GReg) (vb : VReg) (k : KReg) (z : Bool) (ew : BitVec 2)
  /-- `BCOPY` (R153). -/
  | bcopy (lc : LC) (f : Bool) (rd : GReg) (ra : GReg) (rb : GReg)
  /-- `BCOPY_NT` (R158). -/
  | bcopyNt (lc : LC) (f : Bool) (rd : GReg) (ra : GReg) (rb : GReg)
  /-- `BFILL` (R152). -/
  | bfill (lc : LC) (f : Bool) (rd : GReg) (ra : GReg) (rb : GReg)
  /-- `BFILL_NT` (R158). -/
  | bfillNt (lc : LC) (f : Bool) (rd : GReg) (ra : GReg) (rb : GReg)
  /-- `BCMP` (R154). -/
  | bcmp (lc : LC) (f : Bool) (rd : GReg) (ra : GReg) (rb : GReg)
  /-- `ERET` (R183). -/
  | eret (lc : LC) (rd : GReg) (rv : GReg) (x12 : BitVec 12)
  /-- `SVC` (R184). -/
  | svc (lc : LC) (rd : GReg) (rv : GReg) (x12 : BitVec 12)
  /-- `SEV` (R185). -/
  | sev (lc : LC) (rd : GReg) (rv : GReg) (x12 : BitVec 12)
  /-- `EVENT_DELIVERY` (R186). -/
  | eventDelivery (lc : LC)
  /-- `WFE` (R189). -/
  | wfe (lc : LC) (rd : GReg) (rv : GReg) (x12 : BitVec 12)
  /-- `WFE_NE` (R191). -/
  | wfeNe (lc : LC) (rd : GReg) (rv : GReg) (x12 : BitVec 12)
  /-- `WFE_Q` (R192). -/
  | wfeQ (lc : LC) (rd : GReg) (rv : GReg) (x12 : BitVec 12)
  /-- `WAITT` (R193). -/
  | waitt (lc : LC) (rd : GReg) (rv : GReg) (x12 : BitVec 12)
  /-- `WAIT_END` (R190). -/
  | waitEnd (lc : LC)
  /-- `RDTIME` (R194). -/
  | rdtime (lc : LC) (rd : GReg) (rv : GReg) (x12 : BitVec 12)
  /-- `WRPKR` (R216). -/
  | wrpkr (lc : LC) (rd : GReg) (rv : GReg) (x12 : BitVec 12)
  /-- `UACON` (R216). -/
  | uacon (lc : LC) (rd : GReg) (rv : GReg) (x12 : BitVec 12)
  /-- `UACOFF` (R216). -/
  | uacoff (lc : LC) (rd : GReg) (rv : GReg) (x12 : BitVec 12)
  /-- `TLBI_VA` (R221). -/
  | tlbiVa (lc : LC) (rd : GReg) (rv : GReg) (x12 : BitVec 12)
  /-- `TLBI_VA_B` (R222). -/
  | tlbiVaB (lc : LC) (rd : GReg) (rv : GReg) (x12 : BitVec 12)
  /-- `TLBI_TAG` (R221). -/
  | tlbiTag (lc : LC) (rd : GReg) (rv : GReg) (x12 : BitVec 12)
  /-- `TLBI_TAG_B` (R222). -/
  | tlbiTagB (lc : LC) (rd : GReg) (rv : GReg) (x12 : BitVec 12)
  /-- `TLBI_ALL` (R221). -/
  | tlbiAll (lc : LC) (rd : GReg) (rv : GReg) (x12 : BitVec 12)
  /-- `TLBI_ALL_B` (R222). -/
  | tlbiAllB (lc : LC) (rd : GReg) (rv : GReg) (x12 : BitVec 12)
  /-- `TLBI_BROADCAST_ARRIVAL` (R222). -/
  | tlbiBroadcastArrival (src : TlbiFrom) (target : Nat)
  /-- `TLBSYNC` (R223). -/
  | tlbsync (lc : LC) (rd : GReg) (rv : GReg) (x12 : BitVec 12)
  /-- `GATE` (R458). -/
  | gate (lc : LC) (rd : GReg) (rv : GReg) (x12 : BitVec 12)
  /-- `GATEPAD` (R459). -/
  | gatepad (lc : LC) (rd : GReg) (rv : GReg) (x12 : BitVec 12)
  /-- `GATERET` (R460). -/
  | gateret (lc : LC) (rd : GReg) (rv : GReg) (x12 : BitVec 12)
  /-- `GATERET_R` (R461). -/
  | gateretR (lc : LC) (rd : GReg) (rv : GReg) (x12 : BitVec 12)
  /-- `ENQ` (R328). -/
  | enq (lc : LC) (rd : GReg) (rv : GReg) (x12 : BitVec 12)
  /-- `ENQT` (R328). -/
  | enqt (lc : LC) (rd : GReg) (rv : GReg) (x12 : BitVec 12)
  /-- `DEQ` (R330). -/
  | deq (lc : LC) (rd : GReg) (rv : GReg) (x12 : BitVec 12)
  /-- `DEQT` (R330). -/
  | deqt (lc : LC) (rd : GReg) (rv : GReg) (x12 : BitVec 12)
  /-- `QSTAT` (R332). -/
  | qstat (lc : LC) (rd : GReg) (rv : GReg) (x12 : BitVec 12)
  /-- `STAGE_WRITE` (R48). -/
  | stageWrite (w : Writer) (off : BitVec 30) (v : Word32)
  /-- `BIT_ALIAS_WRITE` (R52). -/
  | bitAliasWrite (w : Writer) (off : BitVec 30) (b : Fin 32) (v : Word32)
  /-- `REGISTER_WRITE` (R46). -/
  | registerWrite (w : Writer) (off : BitVec 36) (v : Word32)
  /-- `LEDGER_FULL_TIMEOUT` (R56). -/
  | ledgerFullTimeout (w : Writer) (off : BitVec 36) (v : Word32)
  /-- `SYS_EPOCH_COMMIT` (R49). -/
  | sysEpochCommit (w : Writer) (v : Word32)
  /-- `SYS_EPOCH_DISCARD` (R50). -/
  | sysEpochDiscard (w : Writer) (v : Word32)
  /-- `SYS_SNAP_ALL` (R54). -/
  | sysSnapAll (w : Writer) (v : Word32)
  /-- `BLOCK_SNAP` (R53). -/
  | blockSnap (w : Writer) (n : Fin 289) (v : Word32)
  /-- `SYS_LOCK_SET` (R57). -/
  | sysLockSet (w : Writer) (v : Word32)
  /-- `FRANKING_PERIOD_BOUNDARY` (R300). -/
  | frankingPeriodBoundary (kind : Fin 13)
  /-- `CFG_PARITY_SWEEP` (R55). -/
  | cfgParitySweep (bad : List (BitVec 30))
  /-- `CFG_PARITY_RESTORE` (R55). -/
  | cfgParityRestore (off : BitVec 30) (ok : Bool)
  /-- `BRIDGE_TIMEOUT` (R24). -/
  | bridgeTimeout (near : Word32) (far : Word32)
  /-- `RS` (R253). -/
  | rs (r : Asker) (line : Nat)
  /-- `RU` (R253). -/
  | ru (r : Asker) (line : Nat)
  /-- `UPG` (R253). -/
  | upg (r : Asker) (line : Nat)
  /-- `WB` (R260). -/
  | wb (pc : Nat) (line : Nat)
  /-- `EVC` (R260). -/
  | evc (pc : Nat) (line : Nat)
  /-- `RNC` (R253). -/
  | rnc (r : Asker) (line : Nat)
  /-- `FW` (R253). -/
  | fw (r : Asker) (line : Nat) (v : Vec)
  /-- `PW` (R253). -/
  | pw (r : Asker) (line : Nat) (off : Fin 64) (bytes : List Byte)
  /-- `FAMO` (R253). -/
  | famo (r : Asker) (line : Nat) (off : Fin 64) (op : Fin 10) (wide : Bool) (gs : Word64) (gt : Word64)
  /-- `CMOC` (R253). -/
  | cmoc (line : Nat)
  /-- `CMOI` (R253). -/
  | cmoi (line : Nat)
  /-- `SNPSHARED` (R252). -/
  | snpshared (pc : Nat) (line : Nat)
  /-- `SNPUNIQUE` (R252). -/
  | snpunique (pc : Nat) (line : Nat)
  /-- `SNPINV` (R252). -/
  | snpinv (pc : Nat) (line : Nat)
  /-- `SNPREAD` (R252). -/
  | snpread (pc : Nat) (line : Nat)
  /-- `SNPCLEAN` (R252). -/
  | snpclean (pc : Nat) (line : Nat)
  /-- `SNOOP_ANSWER` (R253). -/
  | snoopAnswer (pc : Nat) (line : Nat)
  /-- `GRANT` (R251). -/
  | grant (pc : Nat) (line : Nat)
  /-- `EVICTION_ACK` (R259). -/
  | evictionAck (pc : Nat) (line : Nat)
  /-- `SNOOP_TIMEOUT` (R261). -/
  | snoopTimeout (line : Nat)
  /-- `L3_DISABLE` (R235). -/
  | l3Disable (w : Writer) (n : Fin 256) (x : BitVec 28)
  /-- `L3_ENABLE` (R234). -/
  | l3Enable (w : Writer) (n : Fin 256) (x : BitVec 28)
  /-- `L3_INVALIDATE_ALL` (R236). -/
  | l3InvalidateAll (w : Writer) (n : Fin 256) (x : BitVec 28)
  /-- `L3_SET_SCRATCHPAD_WAYS` (R239). -/
  | l3SetScratchpadWays (w : Writer) (n : Fin 256) (x : BitVec 28)
  /-- `L3_COMMAND_COMPLETE` (R234). -/
  | l3CommandComplete (n : Fin 256)
  /-- `HN_CMO_CLEAN` (R246). -/
  | hnCmoClean (w : Writer) (n : Fin 256)
  /-- `HN_CMO_INVALIDATE` (R246). -/
  | hnCmoInvalidate (w : Writer) (n : Fin 256)
  /-- `CACHE_PATROL_READ` (R242). -/
  | cachePatrolRead (what : Fin 4) (unit : Nat) (way : Nat) (line : Nat) (err : Nat)
  /-- `WAY_RETIREMENT` (R244). -/
  | wayRetirement (isL3 : Bool) (unit : Nat) (way : Fin 16) (bad : Option Nat)
  /-- `CACHE_QUERY` (R237). -/
  | cacheQuery (lc : LC)
  /-- `CACHE_DISABLE` (R237). -/
  | cacheDisable (lc : LC)
  /-- `CACHE_ENABLE` (R237). -/
  | cacheEnable (lc : LC)
  /-- `CACHE_INVAL_ALL` (R237). -/
  | cacheInvalAll (lc : LC)
  /-- `L2_SP_SET` (R237). -/
  | l2SpSet (lc : LC)
  /-- `COH_JOIN` (R266). -/
  | cohJoin (w : Writer) (p : Fin 8) (x : BitVec 28)
  /-- `COH_LEAVE` (R269). -/
  | cohLeave (w : Writer) (p : Fin 8) (x : BitVec 28)
  /-- `JOIN_DIGEST` (R265). -/
  | joinDigest (p : Fin 8) (dig : List Byte)
  /-- `JOIN_VERDICT` (R266). -/
  | joinVerdict (p : Fin 8) (reason : Fin 11)
  /-- `JOIN_TIMEOUT` (R265). -/
  | joinTimeout (p : Fin 8)
  /-- `SPLIT_COMPLETE` (R269). -/
  | splitComplete (p : Fin 8) (back : List (Nat × Vec))
  /-- `MEMORY_READ` (R280). -/
  | memoryRead (line : Nat) (err : Nat) (symbols : Nat)
  /-- `MEMORY_WRITE` (R281). -/
  | memoryWrite (line : Nat) (v : Vec) (mask : Word64)
  /-- `REFRESH` (R282). -/
  | refresh (u : Fin 16) (place : Nat) (bank : Nat) (due : Bool) (ready : List Nat)
  /-- `TEMPERATURE_READ` (R283). -/
  | temperatureRead (u : Fin 16) (temp : Nat)
  /-- `RECENTRE` (R286). -/
  | recentre (u : Fin 16) (lane : Nat) (wr : Bool) (l : Nat) (r : Nat) (pinOnly : Bool)
  /-- `SCRUB_READ` (R289). -/
  | scrubRead (line : Nat) (err : Nat) (symbols : Nat)
  /-- `ECS_READ` (R287). -/
  | ecsRead (u : Fin 16) (dimm : Nat) (symbols : Nat)
  /-- `ROW_SPARE` (R291). -/
  | rowSpare (u : Fin 16) (place : Nat) (bank : Nat) (row : Nat) (bad : List Nat)
  /-- `BANK_SPARE` (R291). -/
  | bankSpare (u : Fin 16) (pc : Nat) (bank : Nat)
  /-- `RANK_RETIRE` (R293). -/
  | rankRetire (u : Fin 16) (dimm : Nat) (rank : Nat)
  /-- `DIMM_RETIRE` (R293). -/
  | dimmRetire (u : Fin 16) (dimm : Nat)
  /-- `MEM_SECTOR_SET` (R279). -/
  | memSectorSet (lc : LC)
  /-- `MEM_DDR_GIVE` (R294). -/
  | memDdrGive (lc : LC)
  /-- `HMC_SECTOR_STOP` (R279). -/
  | hmcSectorStop (w : Writer) (n : Fin 8) (x : BitVec 28)
  /-- `HMC_SECTOR_START` (R279). -/
  | hmcSectorStart (w : Writer) (n : Fin 8) (x : BitVec 28)
  /-- `FRK_RES_WRITE` (R305). -/
  | frkResWrite (w : Writer) (n : Fin 540) (v : Word32)
  /-- `FRK_TC0_CEIL_WRITE` (R309). -/
  | frkTc0CeilWrite (w : Writer) (v : Word32)
  /-- `LETTER_ARRIVAL` (R333). -/
  | letterArrival (sender : Nat) (dest : BitVec 32)
  /-- `DOORBELL_HOLD_EXPIRY` (R346). -/
  | doorbellHoldExpiry (q : Fin 65536)
  /-- `BULK_REFILL` (R333). -/
  | bulkRefill (q : Fin 65536)
  /-- `LETTER_RETRY` (R336). -/
  | letterRetry (sender : Nat) (dest : BitVec 32)
  /-- `SEND_TIMEOUT` (R336). -/
  | sendTimeout (sender : Nat) (dest : BitVec 32)
  /-- `LEASE_LAPSE` (R345). -/
  | leaseLapse (q : Fin 65536)
  /-- `QUEUE_CREATE` (R343). -/
  | queueCreate (w : Writer) (x : BitVec 28)
  /-- `QUEUE_RESIZE` (R343). -/
  | queueResize (w : Writer) (x : BitVec 28)
  /-- `QUEUE_RETIRE` (R344). -/
  | queueRetire (w : Writer) (x : BitVec 28)
  /-- `QUEUE_RETIRE_FLUSH` (R344). -/
  | queueRetireFlush (w : Writer) (x : BitVec 28)
  /-- `SO_START` (R348). -/
  | soStart (w : Writer) (v : Word32)
  /-- `DLR_TAIL_WRITE` (R340). -/
  | dlrTailWrite (w : Writer) (v : Word32)
  /-- `NOP` (R351). -/
  | nop (q : Fin 65536)
  /-- `PUT` (R351). -/
  | put (q : Fin 65536)
  /-- `PUTI` (R351). -/
  | puti (q : Fin 65536)
  /-- `GET` (R351). -/
  | get (q : Fin 65536)
  /-- `AMO_COMMAND` (R357). -/
  | amoCommand (q : Fin 65536)
  /-- `COPY` (R359). -/
  | copy (q : Fin 65536)
  /-- `CTRADD` (R351). -/
  | ctradd (q : Fin 65536)
  /-- `CTRSET` (R351). -/
  | ctrset (q : Fin 65536)
  /-- `CTRREAD` (R351). -/
  | ctrread (q : Fin 65536)
  /-- `TRIGCANCEL` (R366). -/
  | trigcancel (q : Fin 65536)
  /-- `CONTRIB` (R368). -/
  | contrib (q : Fin 65536)
  /-- `CTXSET` (R367). -/
  | ctxset (q : Fin 65536)
  /-- `SLOT_ARM` (R362). -/
  | slotArm (q : Fin 65536)
  /-- `COMMAND_COMPLETE` (R356). -/
  | commandComplete (q : Fin 65536) (n : Nat) (late : Bool)
  /-- `CONTEXT_FORWARD` (R369). -/
  | contextForward (f : Forward)
  /-- `SO_GRANT_SET` (R353). -/
  | soGrantSet (lc : LC)
  /-- `SO_REGION_SET` (R353). -/
  | soRegionSet (lc : LC)
  /-- `SO_REGION_QUERY` (R353). -/
  | soRegionQuery (lc : LC)
  /-- `PORT_TRAIN` (R375). -/
  | portTrain (w : Writer) (p : Fin 8)
  /-- `PORT_OUT_OF_SERVICE` (R390). -/
  | portOutOfService (w : Option Writer) (p : Fin 8)
  /-- `PORT_RETRAIN` (R375). -/
  | portRetrain (w : Writer) (p : Fin 8)
  /-- `FRAME_RECEIVE` (R382). -/
  | frameReceive (p : Fin 8) (fseq : BitVec 8) (aseq : BitVec 8) (akind : BitVec 2) (coh : Bool) (good : Bool) (slots : Nat) (retrainOk : Bool)
  /-- `LETTER` (R377). -/
  | letter (p : Fin 8) (m : Msg)
  /-- `LETTER_ACK` (R377). -/
  | letterAck (p : Fin 8) (m : Msg)
  /-- `LETTER_NAK` (R336). -/
  | letterNak (p : Fin 8) (m : Msg)
  /-- `COMMAND` (R377). -/
  | command (p : Fin 8) (m : Msg)
  /-- `CMD_RESP` (R377). -/
  | cmdResp (p : Fin 8) (m : Msg)
  /-- `CMD_DATA` (R377). -/
  | cmdData (p : Fin 8) (m : Msg)
  /-- `CMD_RDATA` (R377). -/
  | cmdRdata (p : Fin 8) (m : Msg)
  /-- `RESYNC` (R390). -/
  | resync (p : Fin 8) (m : Msg)
  /-- `RESYNC_TIMEOUT` (R390). -/
  | resyncTimeout (p : Fin 8)
  /-- `CREDIT` (R380). -/
  | credit (p : Fin 8) (vc : Fin 10) (n : Nat)
  /-- `ESCAPE_WAIT_EXPIRY` (R387). -/
  | escapeWaitExpiry (n : Nat)
  /-- `CAPS` (R375). -/
  | caps (p : Fin 8) (stepsOk : Bool) (usable : BitVec 5) (eyes : List Nat) (dev : BitVec 16) (peerSlot : BitVec 2) (peerPort : BitVec 3) (major : BitVec 8)
  /-- `LANE_FAILURE` (R384). -/
  | laneFailure (p : Fin 8) (lane : Fin 5) (eyes : List Nat)
  /-- `LANE_SWAP` (R384). -/
  | laneSwap (p : Fin 8) (lane : Fin 5) (back : Bool) (eyes : List Nat)
  /-- `SPARE_LANE_CHECK` (R384). -/
  | spareLaneCheck (p : Fin 8) (ok : Bool)
  /-- `LANE_RETUNE` (R523). -/
  | laneRetune (p : Fin 8) (lane : Fin 5) (ok : Bool)
  /-- `STANDBY_IDLE_EXPIRY` (R391). -/
  | standbyIdleExpiry (p : Fin 8)
  /-- `LISTEN_IDLE_EXPIRY` (R392). -/
  | listenIdleExpiry (p : Fin 8)
  /-- `SLEEP_REQ` (R392). -/
  | sleepReq (p : Fin 8)
  /-- `SLEEP_ACK` (R392). -/
  | sleepAck (p : Fin 8)
  /-- `SLEEP_REQ_LAPSE` (R392). -/
  | sleepReqLapse (p : Fin 8)
  /-- `WAKE_ORDERED_SET` (R393). -/
  | wakeOrderedSet (p : Fin 8)
  /-- `SWEEP_START` (R394). -/
  | sweepStart (w : Writer) (p : Fin 8) (x : BitVec 28)
  /-- `SWEEP_ABORT` (R395). -/
  | sweepAbort (w : Writer) (p : Fin 8) (x : BitVec 28)
  /-- `SWEEP_REQ` (R394). -/
  | sweepReq (p : Fin 8) (lane : Fin 5)
  /-- `SWEEP_ACK` (R394). -/
  | sweepAck (p : Fin 8) (accept : Bool)
  /-- `SWEEP_END` (R395). -/
  | sweepEnd (p : Fin 8)
  /-- `SWEEP_COMPLETE` (R394). -/
  | sweepComplete (p : Fin 8) (r0 : Word32) (r1 : Word32) (r2 : Word32)
  /-- `SWEEP_PARTNER_SILENT` (R395). -/
  | sweepPartnerSilent (p : Fin 8)
  /-- `TIME_EXCHANGE_INTERVAL` (R397). -/
  | timeExchangeInterval (p : Fin 8)
  /-- `TIME_REQ` (R397). -/
  | timeReq (p : Fin 8)
  /-- `TIME_RESP` (R398). -/
  | timeResp (p : Fin 8) (t2 : Nat) (t3 : Nat) (rootDev : BitVec 16) (depth : Nat) (ofs : Int)
  /-- `SYNC_IN_EDGE` (R440). -/
  | syncInEdge (high : Bool)
  /-- `SYNC_LOST` (R441). -/
  | syncLost
  /-- `SYNC_OUT_PULSE` (R442). -/
  | syncOutPulse
  /-- `TIME_SET` (R437). -/
  | timeSet (w : Writer) (v : Word64)
  /-- `PCIE_PORT_START` (R404). -/
  | pciePortStart (w : Writer) (n : Fin 4)
  /-- `PCIE_PORT_STOP` (R404). -/
  | pciePortStop (w : Writer) (n : Fin 4)
  /-- `DMA_REQUEST` (R409). -/
  | dmaRequest (j : Fin 12) (rid : BitVec 16) (iova : Word64) (op : DmaOp) (ep : Bool) (translated : Bool)
  /-- `TRANSLATION_REQUEST` (R410). -/
  | translationRequest (j : Fin 12) (rid : BitVec 16) (iova : Word64)
  /-- `PAGE_REQUEST` (R410). -/
  | pageRequest (j : Fin 12) (rid : BitVec 16) (iova : Word64) (rd : Bool) (wr : Bool) (last : Bool) (prgi : BitVec 9)
  /-- `PCIE_PRG_RESP` (R410). -/
  | pciePrgResp (w : Writer) (v : Word32)
  /-- `MSI_MESSAGE` (R412). -/
  | msiMessage (j : Fin 12) (rid : BitVec 16) (off : BitVec 12) (bytes : List Byte)
  /-- `MMIO_COMPLETION` (R407). -/
  | mmioCompletion (lc : LC) (value : Word64) (unsupported : Bool) (retryStatus : Bool)
  /-- `COMPLETION_TIMEOUT` (R407). -/
  | completionTimeout (lc : LC)
  /-- `DPC_TRIGGER` (R414). -/
  | dpcTrigger (j : Fin 12) (surprise : Bool)
  /-- `HOT_ADD` (R415). -/
  | hotAdd (j : Fin 12)
  /-- `IOTU_INV_PAGE` (R416). -/
  | iotuInvPage (w : Writer) (id : BitVec 16)
  /-- `IOTU_INV_TAG` (R416). -/
  | iotuInvTag (w : Writer) (id : BitVec 16)
  /-- `IOTU_INV_ALL` (R416). -/
  | iotuInvAll (w : Writer) (id : BitVec 16)
  /-- `IOTU_INV_DEVICE` (R416). -/
  | iotuInvDevice (w : Writer) (id : BitVec 16)
  /-- `INVALIDATE_COMPLETION` (R416). -/
  | invalidateCompletion (rid : BitVec 16)
  /-- `ATS_INVALIDATION_TIMEOUT` (R416). -/
  | atsInvalidationTimeout (rid : BitVec 16)
  /-- `IOTU_INVALIDATION_DONE` (R416). -/
  | iotuInvalidationDone
  /-- `WIRED_SOURCE_EDGE` (R420). -/
  | wiredSourceEdge (src : Fin 256) (high : Bool)
  /-- `IC_RAISE` (R424). -/
  | icRaise (w : Writer) (v : Word32)
  /-- `IC_UNRAISE` (R424). -/
  | icUnraise (w : Writer) (v : Word32)
  /-- `IC_CLAIM` (R428). -/
  | icClaim (w : Writer)
  /-- `IC_COMPLETE` (R430). -/
  | icComplete (w : Writer) (v : Word32)
  /-- `TIMER_TICK` (R443). -/
  | timerTick (t : Fin 64) (n : Nat)
  /-- `TIMER_WRAP` (R444). -/
  | timerWrap (t : Fin 64)
  /-- `TIMER_INPUT_EDGE` (R447). -/
  | timerInputEdge (n : Fin 16) (high : Bool)
  /-- `TIMER_START` (R447). -/
  | timerStart (w : Writer) (t : Fin 64)
  /-- `TIMER_STOP` (R447). -/
  | timerStop (w : Writer) (t : Fin 64)
  /-- `RESET_EVENT` (R447). -/
  | resetEvent (w : Writer) (t : Fin 64)
  /-- `FORCED_WRAP` (R447). -/
  | forcedWrap (w : Writer) (t : Fin 64)
  /-- `TMR_FLAGS_READ` (R451). -/
  | tmrFlagsRead (w : Writer) (t : Fin 64)
  /-- `TMR_SYNC_FLAGS_READ` (R440). -/
  | tmrSyncFlagsRead (w : Writer)
  /-- `TMR_SNAP` (R452). -/
  | tmrSnap (w : Writer)
  /-- `CEL_POT_SYNC` (R468). -/
  | celPotSync (w : Writer) (v : Word32)
  /-- `POT_SYNC_COMPLETE` (R468). -/
  | potSyncComplete
  /-- `MR_EXTEND` (R471). -/
  | mrExtend (w : Writer) (v : Word32)
  /-- `KEEPER_VERSION` (R463). -/
  | keeperVersion (lc : LC)
  /-- `ATTEST_QUOTE` (R472). -/
  | attestQuote (lc : LC)
  /-- `MEASURE_EXTEND` (R471). -/
  | measureExtend (lc : LC)
  /-- `ATTEST_CERT` (R472). -/
  | attestCert (lc : LC)
  /-- `SO_RING_RESERVE` (R463). -/
  | soRingReserve (lc : LC)
  /-- `SO_RING_RELEASE` (R463). -/
  | soRingRelease (lc : LC)
  /-- `SO_DLR_SHARE` (R466). -/
  | soDlrShare (lc : LC)
  /-- `UPDATE_SUBMIT` (R505). -/
  | updateSubmit (lc : LC) (genuine : Bool) (store : Nat) (version : Word32) (security : Nat)
  /-- `UPDATE_ROLL` (R505). -/
  | updateRoll (lc : LC)
  /-- `UPDATE_ABORT` (R510). -/
  | updateAbort (lc : LC)
  /-- `KEEPER_HANDOVER` (R512). -/
  | keeperHandover (lc : LC) (ok : Bool)
  /-- `AGING_QUERY` (R519). -/
  | agingQuery (lc : LC)
  /-- `ROLL_STEP` (R507). -/
  | rollStep
  /-- `ROLL_INSTANCE_SWITCH` (R508). -/
  | rollInstanceSwitch (n : Fin 8)
  /-- `FLASH_SECOND_COPY_WRITE` (R511). -/
  | flashSecondCopyWrite (store : Nat)
  /-- `AUTH_REQUEST` (R475). -/
  | authRequest (w : Writer) (v : Word32)
  /-- `AUTH_SUBMIT` (R475). -/
  | authSubmit (w : Writer) (v : Word32)
  /-- `GRANT_EXPIRY` (R475). -/
  | grantExpiry
  /-- `DBG_ATTACH` (R547). -/
  | dbgAttach (w : Writer) (v : Word32)
  /-- `DBG_DETACH` (R547). -/
  | dbgDetach (w : Writer) (v : Word32)
  /-- `ATTACH_TIMEOUT` (R547). -/
  | attachTimeout
  /-- `HALT_REQUEST` (R550). -/
  | haltRequest (w : Writer) (lc : LC)
  /-- `DEBUG_HALT` (R550). -/
  | debugHalt (lc : LC)
  /-- `RESUME` (R552). -/
  | resume (w : Writer) (lc : LC)
  /-- `STEP` (R552). -/
  | step (w : Writer) (lc : LC)
  /-- `HALT_ALL` (R554). -/
  | haltAll (w : Writer)
  /-- `RESUME_ALL` (R554). -/
  | resumeAll (w : Writer)
  /-- `REGISTER_WINDOW_READ` (R555). -/
  | registerWindowRead (w : Writer)
  /-- `REGISTER_WINDOW_WRITE` (R555). -/
  | registerWindowWrite (w : Writer)
  /-- `DEBUG_MEMORY_READ` (R556). -/
  | debugMemoryRead (w : Writer) (v : Word32)
  /-- `DEBUG_MEMORY_WRITE` (R556). -/
  | debugMemoryWrite (w : Writer) (v : Word32)
  /-- `DEBUG_LINE_READ` (R556). -/
  | debugLineRead (w : Writer) (v : Word32)
  /-- `DEBUG_LINE_WRITE` (R556). -/
  | debugLineWrite (w : Writer) (v : Word32)
  /-- `STIM` (R562). -/
  | stim (w : Writer) (p : Fin 256) (v : Word32)
  /-- `TRACE_TIME_PACKET` (R563). -/
  | traceTimePacket
  /-- `PMC_WRAP` (R566). -/
  | pmcWrap (lc : LC) (i : Fin 9)
  /-- `HEARTBEAT_MISSED` (R481). -/
  | heartbeatMissed (pc : Fin 576)
  /-- `CORE_RELOCATION` (R482). -/
  | coreRelocation (lc : LC) (trigger : Fin 7) (healthy : Bool)
  /-- `RELOCATION_DRAIN` (R482). -/
  | relocationDrain (lc : LC)
  /-- `RELOCATION_RESUME` (R482). -/
  | relocationResume (lc : LC)
  /-- `PROXIED_SNOOP` (R486). -/
  | proxiedSnoop (pc : Fin 576) (line : Nat) (bad : Bool)
  /-- `CENSUS` (R491). -/
  | census (bad : List Word32)
  /-- `LEASE_REVOKE` (R490). -/
  | leaseRevoke (kind : Fin 5) (lc : LC) (n : Nat)
  /-- `PAIR_MISMATCH` (R494). -/
  | pairMismatch (k : Fin 4) (silent : Bool) (released : Bool)
  /-- `PAIR_SELF_TEST_COMPLETE` (R494). -/
  | pairSelfTestComplete (k : Fin 4) (ok : Bool)
  /-- `SPARE_HORIZON` (R496). -/
  | spareHorizon (run : Nat) (used : List Nat)
  /-- `AGING_SAMPLE` (R519). -/
  | agingSample (i : Fin 616) (degr : Nat) (tj : Nat) (short : Bool)
  /-- `VDD_RIND_UP` (R527). -/
  | vddRindUp
  /-- `VDD_RIND_DOWN` (R527). -/
  | vddRindDown
  /-- `PWRGD_RISE` (R527). -/
  | pwrgdRise (boot : BitVec 2) (slot : BitVec 2) (test : Bool) (valid : Bool)
  /-- `PWRGD_FALL` (R541). -/
  | pwrgdFall
  /-- `SEQUENCE_COMPLETE` (R527). -/
  | sequenceComplete
  /-- `SEQUENCE_RAIL_TIMEOUT` (R527). -/
  | sequenceRailTimeout (rail : Fin 9) (mv : Nat)
  /-- `CALIBRATE_COMPLETE` (R609). -/
  | calibrateComplete (cfg : BootConfig)
  /-- `RAIL_FAILURE` (R544). -/
  | railFailure (rail : Fin 9) (mv : Nat) (written : Bool)
  /-- `ISLAND_GATE` (R530). -/
  | islandGate (lc : LC)
  /-- `ISLAND_RETAIN` (R530). -/
  | islandRetain (lc : LC)
  /-- `DOZE_ENTRY` (R533). -/
  | dozeEntry
  /-- `DEEP_DOZE_ENTRY` (R534). -/
  | deepDozeEntry
  /-- `DEEP_DOZE_ENTRY_COMPLETE` (R534). -/
  | deepDozeEntryComplete
  /-- `WAKE` (R536). -/
  | wake (bit : Fin 9)
  /-- `DEEP_DOZE_EXIT_COMPLETE` (R534). -/
  | deepDozeExitComplete
  /-- `DRAIN` (R542). -/
  | drain (w : Writer)
  /-- `DRAIN_COMPLETE` (R542). -/
  | drainComplete
  /-- `SET_DEEPNEXT` (R534). -/
  | setDeepnext (w : Writer)
  /-- `CLEAR_DEEPNEXT` (R534). -/
  | clearDeepnext (w : Writer)
  /-- `PWR_PAD_RELEASE` (R539). -/
  | pwrPadRelease (w : Writer)
  /-- `PWR_WAKE_LAST_READ` (R536). -/
  | pwrWakeLastRead (w : Writer)
  /-- `PWR_LIMIT_CEIL_WRITE` (R546). -/
  | pwrLimitCeilWrite (w : Writer) (v : Word32)
  /-- `POWER_LIMIT_COMPARE` (R532). -/
  | powerLimitCompare (avg : Nat)
  /-- `TEMPERATURE_SAMPLE` (R602). -/
  | temperatureSample (i : Fin 616) (temp : Nat)
  /-- `THERMAL_CONTROL` (R603). -/
  | thermalControl
  /-- `PROCHOT_INPUT` (R604). -/
  | prochotInput (low : Bool)
  /-- `VR_ALERT` (R573). -/
  | vrAlert (low : Bool)
  /-- `PERST_ASSERT` (R573). -/
  | perstAssert
  /-- `PERST_RELEASE` (R573). -/
  | perstRelease
  /-- `REFCLK_SWITCH` (R600). -/
  | refclkSwitch
  /-- `REFCLK_LOST` (R439). -/
  | refclkLost
  /-- `REFCLK_RETURN` (R600). -/
  | refclkReturn (c : Fin 2)
  /-- `GPIO_INPUT_CHANGE` (R579). -/
  | gpioInputChange (n : Fin 32) (high : Bool)
  /-- `FUNCTION_SWITCH` (R578). -/
  | functionSwitch (w : Writer) (n : Fin 32) (v : Word32)
  /-- `FUNCTION_SWITCH_COMPLETE` (R578). -/
  | functionSwitchComplete (n : Fin 32)
  /-- `LED_DIAGNOSIS` (R581). -/
  | ledDiagnosis (above : BitVec 4) (below : BitVec 4)
  /-- `UART_TX` (R582). -/
  | uartTx (w : Writer) (u : Fin 2) (v : Word32)
  /-- `UART_RX_BYTE` (R582). -/
  | uartRxByte (u : Fin 2) (b : Byte) (frameErr : Bool) (brk : Bool)
  /-- `UART_RX_READ` (R582). -/
  | uartRxRead (w : Writer) (u : Fin 2)
  /-- `UART_ERR_READ` (R582). -/
  | uartErrRead (w : Writer) (u : Fin 2)
  /-- `PAD_EVENT_READ` (R573). -/
  | padEventRead (w : Writer)
  /-- `FLASH_TIMEOUT` (R583). -/
  | flashTimeout (c : Fin 2)
  /-- `MAILBOX_REQUEST` (R585). -/
  | mailboxRequest (cmd : Byte) (tag : Byte) (len : Byte) (payload : List Byte) (pec : Byte)
  /-- `MAILBOX_STALL` (R587). -/
  | mailboxStall
  /-- `GET_ID` (R586). -/
  | getId
  /-- `GET_STATE` (R586). -/
  | getState
  /-- `POWER_ON` (R586). -/
  | powerOn
  /-- `MAILBOX_DRAIN` (R586). -/
  | mailboxDrain
  /-- `LOG_SEQ` (R586). -/
  | logSeq
  /-- `READ_LOG` (R586). -/
  | readLog
  /-- `READ_REG` (R586). -/
  | readReg
  /-- `GET_ALERT` (R587). -/
  | getAlert
  /-- `SET_PWR_LIMIT` (R586). -/
  | setPwrLimit
  /-- `DEBUG` (R586). -/
  | debug
  /-- `HOST_MSG` (R588). -/
  | hostMsg
  /-- `HOST_READ` (R588). -/
  | hostRead
  /-- `MBX_RELEASE_IN` (R588). -/
  | mbxReleaseIn (w : Writer) (v : Word32)
  /-- `MBX_POST_OUT` (R588). -/
  | mbxPostOut (w : Writer) (v : Word32)
  /-- `DYNAMIC_ADDRESS_ASSIGN` (R584). -/
  | dynamicAddressAssign (a : BitVec 7)
  /-- `RSTDAA` (R584). -/
  | rstdaa
  /-- `TAP_RESET` (R589). -/
  | tapReset
  /-- `TAP_UPDATE_IR` (R590). -/
  | tapUpdateIr (ir : BitVec 8)
  /-- `TAP_UPDATE_DR` (R589). -/
  | tapUpdateDr (d : BitVec 2112)
  /-- `SAFEHOLD_EXPIRY` (R591). -/
  | safeholdExpiry
  /-- `DBGACC` (R592). -/
  | dbgacc (d : Word64)
  /-- `UART_BYTE_SENT` (R582). -/
  | uartByteSent (u : Fin 2)
  /-- `STANDBY_REFCLK_ABSENT` (R600). -/
  | standbyRefclkAbsent
  /-- `BACKGROUND_WRITEBACK_COMPLETE` (R482). -/
  | backgroundWritebackComplete (pc : Fin 576)
  /-- `RESERVE_COPY_COMPLETE` (R293). -/
  | reserveCopyComplete (u : Fin 16)
deriving DecidableEq, Repr

end Sys2Proof
end

