-- ==== Sys2Proof/Decode.lean ====
section
/-! DEFINITION. The command a table word spells. The opcode table gives no row a bit, so no word spells a command. -/

namespace Sys2Proof

/-- No row of the opcode table has bits: a word spells no command. [DESIGN CHOICE, log entry 5] -/
def decodeTableWord (_nbits _w : Nat) : Option Instr := none

end Sys2Proof
end

