-- ==== Sys2Proof/Machine/Float.lean ====
section
/-! DEFINITION. Floating-point arithmetic of one lane: 05 R129 to R135. A finite operand is an exact pair of a mantissa and
a power of two; every operation is computed exactly (quotients and roots with a sticky bit) and rounded once. -/

namespace Sys2Proof.Machine

/-- A storage format: exponent bits and fraction bits. -/
structure FFmt where
  eb : Nat
  mb : Nat
deriving DecidableEq, Repr

def fmtD : FFmt := ⟨11, 52⟩
def fmtS : FFmt := ⟨8, 23⟩
def fmtH : FFmt := ⟨5, 10⟩
def fmtBF : FFmt := ⟨8, 7⟩

def FFmt.width (f : FFmt) : Nat := f.eb + f.mb + 1
/-- Exponent of the least normal number. -/
def FFmt.emin (f : FFmt) : Int := 2 - 2 ^ (f.eb - 1)
/-- Power of two of the last place of a subnormal number. -/
def FFmt.qmin (f : FFmt) : Int := f.emin - f.mb

/-- The five exception flags in FPCSR order: NV, DZ, OF, UF, NX in bits 4 to 0 (05 R130). -/
structure FpFlags where
  nv : Bool := false
  dz : Bool := false
  of : Bool := false
  uf : Bool := false
  nx : Bool := false
deriving DecidableEq, Repr

def FpFlags.join (a b : FpFlags) : FpFlags :=
  ⟨a.nv || b.nv, a.dz || b.dz, a.of || b.of, a.uf || b.uf, a.nx || b.nx⟩

def FpFlags.bits (a : FpFlags) : Nat :=
  16 * a.nv.toNat + 8 * a.dz.toNat + 4 * a.of.toNat + 2 * a.uf.toNat + a.nx.toNat

def FpFlags.invalid : FpFlags := { nv := true }

/-- The controls of FPCSR an operation uses: RM, FZ, DAZ (05 R130). -/
structure FpCtl where
  rm : Nat
  fz : Bool
  daz : Bool
deriving DecidableEq, Repr

/-- An operand taken apart. -/
inductive FVal
  | nan (signalling : Bool)
  | inf (s : Bool)
  | fin (s : Bool) (m : Nat) (e : Int)     -- the value m times two to the e, negative where s
deriving DecidableEq, Repr

def fSign (f : FFmt) (x : Nat) : Bool := x.testBit (f.width - 1)

/-- Take an operand apart, reading a subnormal one as zero under DAZ (05 R129, R130). -/
def fUnpack (f : FFmt) (daz : Bool) (x : Nat) : FVal :=
  let s := fSign f x
  let e := x / 2 ^ f.mb % 2 ^ f.eb
  let m := x % 2 ^ f.mb
  if e = 2 ^ f.eb - 1 then
    if m = 0 then .inf s else .nan (!m.testBit (f.mb - 1))
  else if e = 0 then .fin s (if daz then 0 else m) f.qmin
  else .fin s (m + 2 ^ f.mb) (f.qmin + (e - 1 : Nat))

/-- The canonical quiet NaN (05 R129). -/
def fNaN (f : FFmt) : Nat := (2 ^ f.eb - 1) * 2 ^ f.mb + 2 ^ (f.mb - 1)
def fInf (f : FFmt) (s : Bool) : Nat := s.toNat * 2 ^ (f.width - 1) + (2 ^ f.eb - 1) * 2 ^ f.mb
def fZero (f : FFmt) (s : Bool) : Nat := s.toNat * 2 ^ (f.width - 1)
def fMaxFinite (f : FFmt) (s : Bool) : Nat := fInf f s - 1

/-- `m` times two to the `-sh` rounded to an integer, and whether it was inexact. `rm`: 0 nearest even, 1 toward zero,
2 toward minus infinity, 3 toward plus infinity (05 R130). -/
def roundShift (rm : Nat) (s : Bool) (m sh : Nat) : Nat × Bool :=
  let q := m / 2 ^ sh
  let r := m % 2 ^ sh
  let up := match rm with
    | 0 => decide (2 ^ sh < 2 * r ∨ (2 ^ sh = 2 * r ∧ q % 2 = 1))
    | 1 => false
    | 2 => s && decide (r ≠ 0)
    | _ => !s && decide (r ≠ 0)
  (if up then q + 1 else q, decide (r ≠ 0))

/-- Rounds to an integer multiple of two to the `q`. -/
def roundTo (rm : Nat) (s : Bool) (m : Nat) (e q : Int) : Nat × Bool :=
  if q ≤ e then (m * 2 ^ (e - q).toNat, false) else roundShift rm s m (q - e).toNat

/-- Round an exact nonzero value once and pack it: overflow, underflow with tininess after rounding, and FZ
(05 R129 to R131). -/
def fRound (f : FFmt) (c : FpCtl) (s : Bool) (m : Nat) (e : Int) : Nat × FpFlags :=
  if m = 0 then (fZero f s, {})
  else
    let top : Int := (Nat.log2 m : Int) + e
    let q := max (top - f.mb) f.qmin
    let (n, inexact) := roundTo c.rm s m e q
    -- tininess after rounding: with no bound on the exponent the result would stay below the least normal number
    let tiny := decide (top < f.emin) &&
      !(decide (top = f.emin - 1) && decide ((roundTo c.rm s m e (top - f.mb)).1 = 2 ^ (f.mb + 1)))
    if n = 0 then (fZero f s, { uf := true, nx := true })
    else if n < 2 ^ f.mb then
      if c.fz then (fZero f s, { uf := true, nx := true })
      else (s.toNat * 2 ^ (f.width - 1) + n, { uf := tiny && inexact, nx := inexact })
    else
      let (n', q') := if n = 2 ^ (f.mb + 1) then (2 ^ f.mb, q + 1) else (n, q)
      let expo := (q' - f.qmin).toNat + 1
      if 2 ^ f.eb - 1 ≤ expo then
        let big := match c.rm with
          | 0 => true
          | 1 => false
          | 2 => s
          | _ => !s
        (if big then fInf f s else fMaxFinite f s, { of := true, nx := true })
      else (s.toNat * 2 ^ (f.width - 1) + expo * 2 ^ f.mb + (n' - 2 ^ f.mb), { uf := tiny && inexact, nx := inexact })

/-- The sign of an exact zero sum of opposite signs: minus only when rounding toward minus infinity. -/
def zeroSumSign (c : FpCtl) : Bool := c.rm == 2

/-- The exact sum of two finite values, rounded once. -/
def fAddFin (f : FFmt) (c : FpCtl) (s1 : Bool) (m1 : Nat) (e1 : Int) (s2 : Bool) (m2 : Nat) (e2 : Int) :
    Nat × FpFlags :=
  let e := min e1 e2
  let a : Int := (if s1 then -1 else 1) * ((m1 * 2 ^ (e1 - e).toNat : Nat) : Int)
  let b : Int := (if s2 then -1 else 1) * ((m2 * 2 ^ (e2 - e).toNat : Nat) : Int)
  let t := a + b
  if t = 0 then (fZero f (if s1 == s2 then s1 else zeroSumSign c), {})
  else fRound f c (decide (t < 0)) t.natAbs e

/-- Invalid where an operand is a signalling NaN. -/
def nanFlag (a b : FVal) : FpFlags :=
  { nv := a == .nan true || b == .nan true }

def fAdd (f : FFmt) (c : FpCtl) (a b : FVal) : Nat × FpFlags :=
  match a, b with
  | .nan _, _ => (fNaN f, nanFlag a b)
  | _, .nan _ => (fNaN f, nanFlag a b)
  | .inf s1, .inf s2 => if s1 == s2 then (fInf f s1, {}) else (fNaN f, .invalid)
  | .inf s1, .fin .. => (fInf f s1, {})
  | .fin .., .inf s2 => (fInf f s2, {})
  | .fin s1 m1 e1, .fin s2 m2 e2 => fAddFin f c s1 m1 e1 s2 m2 e2

def fNegV : FVal → FVal
  | .nan q => .nan q
  | .inf s => .inf (!s)
  | .fin s m e => .fin (!s) m e

def fMul (f : FFmt) (c : FpCtl) (a b : FVal) : Nat × FpFlags :=
  match a, b with
  | .nan _, _ => (fNaN f, nanFlag a b)
  | _, .nan _ => (fNaN f, nanFlag a b)
  | .inf s1, .inf s2 => (fInf f (s1 != s2), {})
  | .inf s1, .fin s2 m _ => if m = 0 then (fNaN f, .invalid) else (fInf f (s1 != s2), {})
  | .fin s1 m _, .inf s2 => if m = 0 then (fNaN f, .invalid) else (fInf f (s1 != s2), {})
  | .fin s1 m1 e1, .fin s2 m2 e2 => fRound f c (s1 != s2) (m1 * m2) (e1 + e2)

def fDiv (f : FFmt) (c : FpCtl) (a b : FVal) : Nat × FpFlags :=
  match a, b with
  | .nan _, _ => (fNaN f, nanFlag a b)
  | _, .nan _ => (fNaN f, nanFlag a b)
  | .inf _, .inf _ => (fNaN f, .invalid)
  | .inf s1, .fin s2 _ _ => (fInf f (s1 != s2), {})
  | .fin s1 _ _, .inf s2 => (fZero f (s1 != s2), {})
  | .fin s1 m1 e1, .fin s2 m2 e2 =>
    let s := s1 != s2
    if m2 = 0 then (if m1 = 0 then (fNaN f, .invalid) else (fInf f s, { dz := true }))
    else if m1 = 0 then (fZero f s, {})
    else
      let k := 2 * f.mb + 6
      let n := m1 * 2 ^ k
      -- one sticky bit below the quotient keeps the single rounding exact
      fRound f c s (2 * (n / m2) + (if n % m2 = 0 then 0 else 1)) (e1 - e2 - k - 1)

/-- The integer square root, one bit at a time from bit `b - 1` down. -/
def natSqrtFrom (n : Nat) : Nat → Nat → Nat
  | 0, r => r
  | b + 1, r => natSqrtFrom n b (if (r + 2 ^ b) * (r + 2 ^ b) ≤ n then r + 2 ^ b else r)

def natSqrt (n : Nat) : Nat := natSqrtFrom n (Nat.log2 n / 2 + 1) 0

def fSqrt (f : FFmt) (c : FpCtl) (a : FVal) : Nat × FpFlags :=
  match a with
  | .nan q => (fNaN f, { nv := q })
  | .inf s => if s then (fNaN f, .invalid) else (fInf f false, {})
  | .fin s m e =>
    if m = 0 then (fZero f s, {})
    else if s then (fNaN f, .invalid)
    else
      let k := 2 * f.mb + 8 + (if (e - (2 * f.mb + 8)) % 2 = 0 then 0 else 1)
      let n := m * 2 ^ k
      let r := natSqrt n
      fRound f c false (2 * r + (if r * r = n then 0 else 1)) ((e - k) / 2 - 1)

/-- `a` times `b` plus `d`, rounded once; infinity times zero is invalid even beside a quiet NaN addend (05 R129). -/
def fFma (f : FFmt) (c : FpCtl) (a b d : FVal) : Nat × FpFlags :=
  let infZero := match a, b with
    | .inf _, .fin _ m _ => decide (m = 0)
    | .fin _ m _, .inf _ => decide (m = 0)
    | _, _ => false
  let snan := a == .nan true || b == .nan true || d == .nan true
  match a, b, d with
  | .nan _, _, _ => (fNaN f, { nv := snan })
  | _, .nan _, _ => (fNaN f, { nv := snan })
  | _, _, .nan _ => (fNaN f, { nv := snan || infZero })
  | .fin s1 m1 e1, .fin s2 m2 e2, .fin s3 m3 e3 => fAddFin f c (s1 != s2) (m1 * m2) (e1 + e2) s3 m3 e3
  | .fin .., .fin .., .inf s3 => (fInf f s3, {})
  | .inf s1, .inf s2, d =>
    match d with
    | .inf s3 => if (s1 != s2) == s3 then (fInf f s3, {}) else (fNaN f, .invalid)
    | _ => (fInf f (s1 != s2), {})
  | .inf s1, .fin s2 _ _, d =>
    if infZero then (fNaN f, .invalid) else
    match d with
    | .inf s3 => if (s1 != s2) == s3 then (fInf f s3, {}) else (fNaN f, .invalid)
    | _ => (fInf f (s1 != s2), {})
  | .fin s1 _ _, .inf s2, d =>
    if infZero then (fNaN f, .invalid) else
    match d with
    | .inf s3 => if (s1 != s2) == s3 then (fInf f s3, {}) else (fNaN f, .invalid)
    | _ => (fInf f (s1 != s2), {})

/-- Pack a value that needs no rounding except FZ. -/
def fPack (f : FFmt) (c : FpCtl) (v : FVal) : Nat × FpFlags :=
  match v with
  | .nan q => (fNaN f, { nv := q })
  | .inf s => (fInf f s, {})
  | .fin s m e => fRound f c s m e

/-- Less-than over values that are no NaN; `zeroLess` says whether minus zero counts below plus zero. -/
def fLess (zeroLess : Bool) (a b : FVal) : Bool :=
  match a, b with
  | .nan _, _ => false
  | _, .nan _ => false
  | .inf s1, .inf s2 => s1 && !s2
  | .inf s1, .fin .. => s1
  | .fin .., .inf s2 => !s2
  | .fin s1 m1 e1, .fin s2 m2 e2 =>
    if m1 = 0 ∧ m2 = 0 then zeroLess && s1 && !s2
    else
      let e := min e1 e2
      let x : Int := (if s1 then -1 else 1) * ((m1 * 2 ^ (e1 - e).toNat : Nat) : Int)
      let y : Int := (if s2 then -1 else 1) * ((m2 * 2 ^ (e2 - e).toNat : Nat) : Int)
      decide (x < y)

def isNaN : FVal → Bool
  | .nan _ => true
  | _ => false

/-- `VFMIN` and `VFMAX`: minus zero below plus zero, the canonical NaN if either is one (05 R133). -/
def fMinMax (f : FFmt) (c : FpCtl) (wantMax : Bool) (a b : FVal) : Nat × FpFlags :=
  if isNaN a || isNaN b then (fNaN f, nanFlag a b)
  else if wantMax then fPack f c (if fLess true a b then b else a)
  else fPack f c (if fLess true b a then b else a)

/-- `VFRND`: the integral value in the same format; inexact is not raised (05 R133). -/
def fRnd (f : FFmt) (c : FpCtl) (a : FVal) : Nat × FpFlags :=
  match a with
  | .nan q => (fNaN f, { nv := q })
  | .inf s => (fInf f s, {})
  | .fin s m e =>
    let n := (roundTo c.rm s m e 0).1
    if n = 0 then (fZero f s, {}) else ((fRound f c s n 0).1, {})

/-- A floating-point number to an integer of `w` bits (05 R135). -/
def fToInt (w : Nat) (signed : Bool) (rm : Nat) (a : FVal) : Nat × FpFlags :=
  let lo : Int := if signed then -(2 ^ (w - 1)) else 0
  let hi : Int := if signed then 2 ^ (w - 1) - 1 else 2 ^ w - 1
  let enc (i : Int) : Nat := (i % 2 ^ w).toNat
  match a with
  | .nan _ => (0, .invalid)
  | .inf s => (enc (if s then lo else hi), .invalid)
  | .fin s m e =>
    let (n, inexact) := roundTo rm s m e 0
    let i : Int := if s then -(n : Int) else n
    if i < lo then (enc lo, .invalid)
    else if hi < i then (enc hi, .invalid)
    else (enc i, { nx := inexact })

/-- An integer of `w` bits to a floating-point number (05 R135). -/
def fOfInt (f : FFmt) (c : FpCtl) (w : Nat) (signed : Bool) (x : Nat) : Nat × FpFlags :=
  let i : Int := if signed && x.testBit (w - 1) then (x : Int) - 2 ^ w else x
  if i = 0 then (fZero f false, {}) else fRound f c (decide (i < 0)) i.natAbs 0

/-- The two-operand and one-operand operations of opcode 0x21 (05 R133). -/
inductive FOp2
  | add | sub | mul | div | sqrt | min | max | abs | neg | rnd
deriving DecidableEq, Repr

/-- The fused operations of opcode 0x22 (05 R133). -/
inductive FOp3
  | madd | msub | nmadd | nmsub
deriving DecidableEq, Repr

/-- One lane of an operation of opcode 0x21 on raw lane bits. `VFABS` and `VFNEG` work on bits only (05 R133). -/
def fOp2 (f : FFmt) (c : FpCtl) (op : FOp2) (x y : Nat) : Nat × FpFlags :=
  let a := fUnpack f c.daz x
  let b := fUnpack f c.daz y
  match op with
  | .add => fAdd f c a b
  | .sub => fAdd f c a (fNegV b)
  | .mul => fMul f c a b
  | .div => fDiv f c a b
  | .sqrt => fSqrt f c a
  | .min => fMinMax f c false a b
  | .max => fMinMax f c true a b
  | .abs => (x % 2 ^ (f.width - 1), {})
  | .neg => ((x + 2 ^ (f.width - 1)) % 2 ^ f.width, {})
  | .rnd => fRnd f c a

/-- One lane of opcode 0x22: the addend is the old destination (05 R133). -/
def fOp3 (f : FFmt) (c : FpCtl) (op : FOp3) (x y d : Nat) : Nat × FpFlags :=
  let a := fUnpack f c.daz x
  let b := fUnpack f c.daz y
  let dd := fUnpack f c.daz d
  match op with
  | .madd => fFma f c a b dd
  | .msub => fFma f c a b (fNegV dd)
  | .nmadd => fFma f c (fNegV a) b dd
  | .nmsub => fFma f c (fNegV a) b (fNegV dd)

/-- Conversion between floating-point formats (05 R135). -/
def fConv (src dst : FFmt) (c : FpCtl) (x : Nat) : Nat × FpFlags := fPack dst c (fUnpack src c.daz x)

/-- The relations of the floating-point compares (05 R138). -/
inductive FCmp
  | eq | ne | lt | le | un
deriving DecidableEq, Repr

/-- Less, equal, greater or unordered (05 R139). -/
inductive FRel
  | less | equal | greater | unordered
deriving DecidableEq, Repr

def fRel (a b : FVal) : FRel :=
  if isNaN a || isNaN b then .unordered
  else if fLess false a b then .less
  else if fLess false b a then .greater
  else .equal

/-- A compare of one lane: `VFCMPLT` and `VFCMPLE` raise invalid for any NaN, the quiet ones for a signalling NaN. -/
def fCompare (f : FFmt) (c : FpCtl) (op : FCmp) (x y : Nat) : Bool × FpFlags :=
  let a := fUnpack f c.daz x
  let b := fUnpack f c.daz y
  let r := fRel a b
  let quiet := nanFlag a b
  let loud : FpFlags := { nv := r == .unordered }
  match op with
  | .eq => (r == .equal, quiet)
  | .ne => (r != .equal, quiet)
  | .lt => (r == .less, loud)
  | .le => (r == .less || r == .equal, loud)
  | .un => (r == .unordered, quiet)

end Sys2Proof.Machine
end

