-- ==== Sys2Proof/Machine/Lanes.lean ====
section
/-! DEFINITION. The vector data path: lanes and masks (05 R123 to R125), integer lanes (R128), floating-point lanes (R129
to R133), conversions (R134, R135), permutes (R136), reductions (R137), compares (R138, R139) and mask operations (R140).
A lane is a natural number below two to the element width. -/

namespace Sys2Proof.Machine

/-- Bits of an element: ew 0, 1, 2 give 64, 32, 16; ew 3 is reserved (05 R123). -/
def ewBits (ew : BitVec 2) : Nat :=
  match ew.toNat with
  | 0 => 64
  | 1 => 32
  | _ => 16

def laneCount (w : Nat) : Nat := 512 / w

def lanesAux (w x : Nat) : Nat → List Nat
  | 0 => []
  | n + 1 => x % 2 ^ w :: lanesAux w (x / 2 ^ w) n

/-- The lanes of a vector, lane 0 first. -/
def lanesOf (w : Nat) (v : Vec) : List Nat := lanesAux w v.toNat (laneCount w)

def packNat (w : Nat) : List Nat → Nat
  | [] => 0
  | x :: xs => x % 2 ^ w + 2 ^ w * packNat w xs

/-- A vector from its lanes. -/
def vecOf (w : Nat) (xs : List Nat) : Vec := BitVec.ofNat 512 (packNat w xs)

/-- Lane i is active where bit i of the governing mask is one (05 R125). -/
def active (mask : Word64) (i : Nat) : Bool := mask.getLsbD i

/-- Write lane results under the mask: an inactive lane keeps its old value or, zeroing, becomes zero (05 R125). -/
def maskLanes (mask : Word64) (z : Bool) : Nat → List Nat → List Nat → List Nat
  | i, o :: os, r :: rs =>
    (if active mask i then r else if z then 0 else o) :: maskLanes mask z (i + 1) os rs
  | _, _, _ => []

def signedLane (w x : Nat) : Int := if x.testBit (w - 1) then (x : Int) - 2 ^ w else x
def laneOfInt (w : Nat) (i : Int) : Nat := (i % 2 ^ w).toNat

/-- The integer operations of opcode 0x20 (05 R128). -/
inductive VIntOp
  | add | sub | mullo | mulhs | mulhu | and | andn | or | xor | sllv | srlv | srav
  | smin | smax | umin | umax | abs
deriving DecidableEq, Repr

/-- One lane of an integer operation (05 R128). -/
def vIntLane (w : Nat) (op : VIntOp) (a b : Nat) : Nat :=
  let sa := signedLane w a
  let sb := signedLane w b
  match op with
  | .add => (a + b) % 2 ^ w
  | .sub => (a + 2 ^ w - b) % 2 ^ w
  | .mullo => a * b % 2 ^ w
  | .mulhs => laneOfInt w ((sa * sb) / 2 ^ w)
  | .mulhu => a * b / 2 ^ w
  | .and => a &&& b
  | .andn => a &&& (2 ^ w - 1 - b)
  | .or => a ||| b
  | .xor => a ^^^ b
  | .sllv => if w ≤ b then 0 else a * 2 ^ b % 2 ^ w
  | .srlv => if w ≤ b then 0 else a / 2 ^ b
  | .srav => laneOfInt w (sa / 2 ^ (min b w))
  | .smin => if sa ≤ sb then a else b
  | .smax => if sa ≤ sb then b else a
  | .umin => min a b
  | .umax => max a b
  | .abs => laneOfInt w sa.natAbs

def vInt (w : Nat) (op : VIntOp) (mask : Word64) (z : Bool) (old a b : Vec) : Vec :=
  vecOf w (maskLanes mask z 0 (lanesOf w old) (List.zipWith (vIntLane w op) (lanesOf w a) (lanesOf w b)))

/-- A vector floating-point outcome: the lane results, the flags of all active lanes joined, and, lane by lane, the flags
raised (05 R131, R132). -/
structure FpOut where
  lanes : List Nat
  flags : FpFlags
  raised : List FpFlags
deriving DecidableEq, Repr

/-- Keep the flags of active lanes only (05 R125). -/
def fpCollect (mask : Word64) : Nat → List (Nat × FpFlags) → FpOut
  | _, [] => ⟨[], {}, []⟩
  | i, (x, fl) :: rest =>
    let o := fpCollect mask (i + 1) rest
    let fl' := if active mask i then fl else {}
    ⟨x :: o.lanes, fl'.join o.flags, fl' :: o.raised⟩

def fmtOf (w : Nat) : FFmt := if w = 64 then fmtD else fmtS

def vFp2 (w : Nat) (c : FpCtl) (op : FOp2) (mask : Word64) (a b : Vec) : FpOut :=
  fpCollect mask 0 (List.zipWith (fOp2 (fmtOf w) c op) (lanesOf w a) (lanesOf w b))

def zip3 (f : Nat → Nat → Nat → Nat × FpFlags) : List Nat → List Nat → List Nat → List (Nat × FpFlags)
  | a :: as, b :: bs, d :: ds => f a b d :: zip3 f as bs ds
  | _, _, _ => []

def vFp3 (w : Nat) (c : FpCtl) (op : FOp3) (mask : Word64) (a b d : Vec) : FpOut :=
  fpCollect mask 0 (zip3 (fOp3 (fmtOf w) c op) (lanesOf w a) (lanesOf w b) (lanesOf w d))

/-- The conversions of opcode 0x23 (05 R134). -/
inductive CvtOp
  | dS | sD | sH | hS | sBF | bfS | fI | fU | iF | uF | iFT | uFT
deriving DecidableEq, Repr

/-- The destination widths a conversion allows; a mismatch is illegal (05 R134). -/
def cvtWidthOk (op : CvtOp) (ew : BitVec 2) : Bool :=
  match op with
  | .dS => ew == 0
  | .sD | .sH | .sBF => ew == 1
  | .hS | .bfS => ew == 2
  | _ => ew == 0 || ew == 1

/-- Conversions with a `.HI` form. -/
def cvtHasHi (op : CvtOp) : Bool :=
  match op with
  | .dS | .sD | .sH | .hS | .sBF | .bfS => true
  | _ => false

def cvtFmts : CvtOp → FFmt × FFmt
  | .dS => (fmtS, fmtD)
  | .sD => (fmtD, fmtS)
  | .sH => (fmtH, fmtS)
  | .hS => (fmtS, fmtH)
  | .sBF => (fmtBF, fmtS)
  | .bfS => (fmtS, fmtBF)
  | _ => (fmtD, fmtD)

/-- Destination lanes of a conversion, aligned with lane 0 of the destination: the raw results with their flags, and the
lanes outside the converted half as a fixed value (05 R134). -/
def vCvt (op : CvtOp) (hi : Bool) (w : Nat) (c : FpCtl) (mask : Word64) (z : Bool) (old a : Vec) : Vec × FpOut :=
  let (src, dst) := cvtFmts op
  let conv (x : Nat) : Nat × FpFlags :=
    match op with
    | .fI => fOfInt (fmtOf w) c w true x
    | .fU => fOfInt (fmtOf w) c w false x
    | .iF => fToInt w true c.rm (fUnpack (fmtOf w) c.daz x)
    | .uF => fToInt w false c.rm (fUnpack (fmtOf w) c.daz x)
    | .iFT => fToInt w true 1 (fUnpack (fmtOf w) c.daz x)
    | .uFT => fToInt w false 1 (fUnpack (fmtOf w) c.daz x)
    | _ => fConv src dst c x
  let olds := lanesOf w old
  match op with
  | .fI | .fU | .iF | .uF | .iFT | .uFT =>
    let o := fpCollect mask 0 ((lanesOf w a).map conv)
    (vecOf w (maskLanes mask z 0 olds o.lanes), o)
  | .dS | .sH | .sBF =>
    let srcs := lanesOf (w / 2) a
    let half := if hi then srcs.drop (laneCount w) else srcs.take (laneCount w)
    let o := fpCollect mask 0 (half.map conv)
    (vecOf w (maskLanes mask z 0 olds o.lanes), o)
  | _ =>
    let n := laneCount w / 2
    let res := (lanesOf (2 * w) a).map conv
    if hi then
      let o := fpCollect mask 0 (List.replicate n (0, {}) ++ res)
      (vecOf w (olds.take n ++ (maskLanes mask z 0 olds o.lanes).drop n), o)
    else
      let o := fpCollect mask 0 (res ++ List.replicate n (0, {}))
      (vecOf w ((maskLanes mask z 0 olds o.lanes).take n), o)

def laneAt (xs : List Nat) (i : Nat) : Nat := xs.getD i 0

/-- `VPERM` (05 R136). -/
def vPerm (w : Nat) (mask : Word64) (z : Bool) (old a b : Vec) : Vec :=
  let xs := lanesOf w a
  vecOf w (maskLanes mask z 0 (lanesOf w old) ((lanesOf w b).map fun i => laneAt xs (i % laneCount w)))

/-- `VPERM2`: the second half of the table is the old destination (05 R136). -/
def vPerm2 (w : Nat) (mask : Word64) (z : Bool) (old a b : Vec) : Vec :=
  let xs := lanesOf w a ++ lanesOf w old
  vecOf w (maskLanes mask z 0 (lanesOf w old) ((lanesOf w b).map fun i => laneAt xs (i % (2 * laneCount w))))

/-- `VBCSTL`, `VBCSTG` and the result of `VLDBC`: one value in every active lane (05 R136, R141). -/
def vBcst (w : Nat) (mask : Word64) (z : Bool) (old : Vec) (x : Nat) : Vec :=
  vecOf w (maskLanes mask z 0 (lanesOf w old) (List.replicate (laneCount w) (x % 2 ^ w)))

def vRev (w : Nat) (mask : Word64) (z : Bool) (old a : Vec) : Vec :=
  vecOf w (maskLanes mask z 0 (lanesOf w old) (lanesOf w a).reverse)

def compressLanes (mask : Word64) : Nat → List Nat → List Nat
  | _, [] => []
  | i, x :: xs => if active mask i then x :: compressLanes mask (i + 1) xs else compressLanes mask (i + 1) xs

/-- `VCOMPRESS`: active lanes downward, zero above (05 R136). -/
def vCompress (w : Nat) (mask : Word64) (a : Vec) : Vec := vecOf w (compressLanes mask 0 (lanesOf w a))

def expandLanes (mask : Word64) (z : Bool) : Nat → List Nat → List Nat → List Nat
  | _, [], _ => []
  | i, o :: os, xs =>
    if active mask i then
      match xs with
      | x :: xs' => x :: expandLanes mask z (i + 1) os xs'
      | [] => 0 :: expandLanes mask z (i + 1) os []
    else (if z then 0 else o) :: expandLanes mask z (i + 1) os xs

/-- `VEXPAND` (05 R136). -/
def vExpand (w : Nat) (mask : Word64) (z : Bool) (old a : Vec) : Vec :=
  vecOf w (expandLanes mask z 0 (lanesOf w old) (lanesOf w a))

/-- `VINS` (05 R136). -/
def vIns (w n : Nat) (old : Vec) (x : Word64) : Vec := vecOf w ((lanesOf w old).set n (x.toNat % 2 ^ w))

/-- `VEXT` (05 R136). -/
def vExt (w n : Nat) (a : Vec) : Word64 := BitVec.ofNat 64 (laneAt (lanesOf w a) n)

/-- The integer reductions of opcode 0x25 (05 R137). -/
inductive RedOp
  | add | smin | smax | umin | umax | and | or | xor
deriving DecidableEq, Repr

def redIdentity (w : Nat) : RedOp → Nat
  | .add => 0
  | .smin => 2 ^ (w - 1) - 1
  | .smax => 2 ^ (w - 1)
  | .umin => 2 ^ w - 1
  | .umax => 0
  | .and => 2 ^ w - 1
  | .or => 0
  | .xor => 0

def redStep (w : Nat) : RedOp → Nat → Nat → Nat
  | .add => vIntLane w .add
  | .smin => vIntLane w .smin
  | .smax => vIntLane w .smax
  | .umin => vIntLane w .umin
  | .umax => vIntLane w .umax
  | .and => vIntLane w .and
  | .or => vIntLane w .or
  | .xor => vIntLane w .xor

/-- An integer reduction: the value in lane 0, zero in every other lane (05 R137). -/
def vRed (w : Nat) (op : RedOp) (mask : Word64) (a : Vec) : Vec :=
  match compressLanes mask 0 (lanesOf w a) with
  | [] => vecOf w [redIdentity w op]
  | x :: xs => vecOf w [xs.foldl (redStep w op) x]

/-- The floating-point reductions (05 R137). -/
inductive FRedOp
  | add | min | max
deriving DecidableEq, Repr

def fRedIdentity (f : FFmt) : FRedOp → Nat
  | .add => fZero f false
  | .min => fInf f false
  | .max => fInf f true

def fRedStep (f : FFmt) (c : FpCtl) : FRedOp → Nat → Nat → Nat × FpFlags
  | .add => fOp2 f c .add
  | .min => fOp2 f c .min
  | .max => fOp2 f c .max

/-- One level of the tree of 05 R137; an absent lane is `none`. The lane numbers whose combination raised flags are those
of the pair's lower lane. -/
def treeLevel (f : FFmt) (c : FpCtl) (op : FRedOp) : List (Option Nat) → List (Option Nat) × FpFlags
  | x :: y :: rest =>
    let (zs, fl) := treeLevel f c op rest
    match x, y with
    | some a, some b =>
      let (r, fl') := fRedStep f c op a b
      (some r :: zs, fl'.join fl)
    | some a, none => (some a :: zs, fl)
    | none, some b => (some b :: zs, fl)
    | none, none => (none :: zs, fl)
  | xs => (xs, {})

def treeRed (f : FFmt) (c : FpCtl) (op : FRedOp) : Nat → List (Option Nat) → Option Nat × FpFlags
  | 0, xs => (xs.headD none, {})
  | n + 1, xs =>
    let (ys, fl) := treeLevel f c op xs
    let (r, fl') := treeRed f c op n ys
    (r, fl.join fl')

def optLanes (mask : Word64) : Nat → List Nat → List (Option Nat)
  | _, [] => []
  | i, x :: xs => (if active mask i then some x else none) :: optLanes mask (i + 1) xs

/-- A floating-point reduction: result vector and flags (05 R137). -/
def vFRed (w : Nat) (c : FpCtl) (op : FRedOp) (mask : Word64) (a : Vec) : Vec × FpFlags :=
  let f := fmtOf w
  let (r, fl) := treeRed f c op (if w = 64 then 3 else 4) (optLanes mask 0 (lanesOf w a))
  (vecOf w [r.getD (fRedIdentity f op)], fl)

/-- The integer compares (05 R138). -/
inductive VCmpOp
  | eq | ne | lt | le | ltu | leu
deriving DecidableEq, Repr

def vCmpLane (w : Nat) (op : VCmpOp) (a b : Nat) : Bool :=
  match op with
  | .eq => a == b
  | .ne => a != b
  | .lt => decide (signedLane w a < signedLane w b)
  | .le => decide (signedLane w a ≤ signedLane w b)
  | .ltu => decide (a < b)
  | .leu => decide (a ≤ b)

def maskOfBools : List Bool → Nat
  | [] => 0
  | b :: bs => b.toNat + 2 * maskOfBools bs

def gateBools (mask : Word64) : Nat → List Bool → List Bool
  | _, [] => []
  | i, b :: bs => (active mask i && b) :: gateBools mask (i + 1) bs

/-- An integer compare into a mask: inactive lanes and bits from L up are zero (05 R138, R124). -/
def vCmp (w : Nat) (op : VCmpOp) (mask : Word64) (a b : Vec) : Word64 :=
  BitVec.ofNat 64 (maskOfBools (gateBools mask 0 (List.zipWith (vCmpLane w op) (lanesOf w a) (lanesOf w b))))

/-- A floating-point compare into a mask (05 R138). -/
def vFCmp (w : Nat) (c : FpCtl) (op : FCmp) (mask : Word64) (a b : Vec) : Word64 × FpOut :=
  let rs := List.zipWith (fCompare (fmtOf w) c op) (lanesOf w a) (lanesOf w b)
  let o := fpCollect mask 0 (rs.map fun r => (r.1.toNat, r.2))
  (BitVec.ofNat 64 (maskOfBools (gateBools mask 0 (rs.map Prod.fst))), o)

/-- The flags of `VFCMPF` (05 R139). -/
def frelFlags : FRel → Flags
  | .less => { n := true, z := false, c := false, v := false }
  | .equal => { n := false, z := true, c := true, v := false }
  | .greater => { n := false, z := false, c := true, v := false }
  | .unordered => { n := false, z := false, c := true, v := true }

/-- Index of the lowest one among the low `n` bits, or `n` (05 R140). -/
def firstOne (x : Word64) (n : Nat) : Nat := ((List.range n).find? fun i => x.getLsbD i).getD n

/-- The mask operations on all 64 bits (05 R140). -/
inductive KOp
  | and | or | xor | andn | not
deriving DecidableEq, Repr

def kOp (op : KOp) (a b : Word64) : Word64 :=
  match op with
  | .and => a &&& b
  | .or => a ||| b
  | .xor => a ^^^ b
  | .andn => a &&& ~~~b
  | .not => ~~~a

/-- Bits [L-1:0] of a mask (05 R124). -/
def lowBits (x : Word64) (n : Nat) : Word64 := BitVec.ofNat 64 (x.toNat % 2 ^ n)

end Sys2Proof.Machine
end

