-- ==== Sys2Proof/Config.lean ====
section
/-! DEFINITION. What the spec leaves open and the machine draws afresh: opaque values applied to a counter of `State`, of
which no proof can learn a number. Each is named in the assumption log. -/

namespace Sys2Proof

/-- A value of the device's random source or of a free-running LFSR (03 R67, 09 R228): open. [DESIGN CHOICE, log entry 16] -/
opaque Config.freeWord : Nat → Word64

/-- The nonzero value CALIBRATE seeds an LFSR with (09 R228), by the seeding and the structure: open; zero stands for one.
[DESIGN CHOICE, log entry 16] -/
opaque Config.lfsrSeed : Nat → Nat → BitVec 32

/-- Which of the types 0x10 to 0x3F a coherent message has, by its kind (15 R377): open. [DESIGN CHOICE, log entry 96] -/
opaque Config.cohType : Nat → Nat

/-- The class the cellar keeper chooses for its accesses, and the service-core pair that makes them (12 R297, R299): open.
[DESIGN CHOICE, log entry 97] -/
opaque Config.keeperClass : BitVec 2
opaque Config.keeperPair : BitVec 2

/-- Bytes whose content the cellar alone determines: a challenge, a signature, a sealed word (19 R472, R475): open.
[DESIGN CHOICE, log entry 18] -/
opaque Config.freeByte : Nat → Byte

/-- How many cycles, or events of a kind that depends on timing, have passed since the last read (23 R565): open.
[DESIGN CHOICE, log entry 17] -/
opaque Config.freeCount : Nat → Word64

/-- The first 24 bytes of the digest over the coherence-relevant configuration, whose serial form the spec does not give
(10 R264): open. [DESIGN CHOICE, log entry 19] -/
opaque Config.cfgHash : List Nat → List Byte

/-- Does a signature verify under the algorithm, over a digest, with a key whose digest sealed storage holds (19 R475)? Open.
[DESIGN CHOICE, log entry 18] -/
opaque Config.signatureOk : Nat → List Byte → List Byte → Bool

/-- The fused unique secret of the device, and the digest of the keeper's signing key (19 R472, R474): open. [DESIGN CHOICE, log entry 101] -/
opaque Config.uniqueSecret : List Byte
opaque Config.keeperKeyDigest : List Byte

/-- The manufacturer code of the IDCODE, which the BSDL description gives (24 R589): open. [DESIGN CHOICE, log entry 84] -/
opaque Config.manufacturer : BitVec 11

end Sys2Proof
end

