-- ==== Sys2Proof/Machine/RegMap.lean ====
section
/-! DEFINITION. The register maps of control space (02 R36, R58; 06 R169; 09 R233; 10 R270, R271; 11 R296; 12 R320; 13 R348;
15 R401, R402; 16 R418; 17 R435; 18 R453; 19 R476; 20 R504; 22 R546; 23 R569; 24 R593): one row per register or array. -/

namespace Sys2Proof.Machine

/-- The registers of control space; a LO/HI pair has one name. -/
inductive RegName
  | sysId | sysCap0 | sysCap1 | sysCap2 | sysSlot | sysMode | sysEpoch | sysSnapStat | sysLockStat | sysEpochCommit
  | sysEpochDiscard | sysSnapAll | sysLockSet | sysBootPolicy | sysLcloc | pwrStat | pwrCmd | pwrReqStat | pwrIdleCfg
  | pwrCoreIdle | pwrWakeEn | pwrWakeLast | pwrPadStat | pwrPadRelease | pwrLimit | pwrLimitCeil | pwrMeas | pwrSnap
  | pwrSnapseq | pwrCntDoze | pwrCntDeep | pwrCntWake | pwrCntThrottle | pwrLcfreq | padStrap | padIn | padEvent
  | padFilt0 | padFilt1 | padMbxStat | padMbxCmd | padMbxIn | padMbxOut | padGpioCfg | ledCtl | ledPwm | ledDiag
  | padUartCfg | padUartTx | padUartRx | padUartStat | padUartErr | padUartIen | tmrStat | tmrTimeRate | tmrTimeSet
  | tmrSnap | tmrSnapseq | tmrSnapTime | tmrCmd | tmrRun | tmrSyncCfg | tmrSyncFlags | tmrSyncCaprise
  | tmrSyncCapfall | tmrTCfg | tmrTDiv | tmrTPeriod | tmrTCmp | tmrTCnt | tmrTCaprise | tmrTCapfall | tmrTFlags
  | tmrTIen | tmrTHold | icStat | icRaise | icUnraise | icClaim | icComplete | icSnap | icSnapseq | icCntClaim
  | icCntNone | icCntOrder | icSrcCfg | icSrcStat | icTset | icLcStat | icLcThresh | icLcStack | frkPeriod
  | frkTc0Ceil | frkShare | frkTc0Slots | frkCfgstat | frkSnap | frkSnapseq | frkRfree | frkResW0 | frkResW1
  | frkResW2 | frkBudW0 | frkBudW1 | frkCntInj | frkCntOver | hnId | hnStat | hnSnap | hnSnapseq | hnCntReq
  | hnCntSnoop | hnCntDirevict | hnCntL3hit | hnCntDecline | hnCntFamo | hnCntRemote | hnCntWbdrop | hnL3Cmd
  | hnL3Stat | hnCmoAddr | hnCmo | hmcId | hmcStat | hmcScrub | hmcRecentre | hmcCfgstat | hmcSnap | hmcSnapseq
  | hmcCntCe | hmcCntUe | hmcCntScrub | hmcCntRefdl | hmcCntRecentre | hmcSpareStat | hmcTrnRd | hmcTrnWr | hmcSec
  | hmcSeccmd | dmcId | dmcStat | dmcScrub | dmcRecentre | dmcCfgstat | dmcSnap | dmcSnapseq | dmcCntCe | dmcCntUe
  | dmcCntScrub | dmcCntRefdl | dmcCntRecentre | dmcSpareStat | dmcTrnRd | dmcTrnWr | dmcDdrmap | dmcReserve
  | dmcDimm | dmcRankret | soStat | soCmd | soDevnum | soDlrBase | soDlrCfg | soDlrHead | soDlrTail | soSendTimeout
  | soCfgstat | soQcmd | soQstage | soPoolRes | soPoolFree | soSnap | soSnapseq | soCntAccept | soCntDeq | soCntSpill
  | soCntDead | soCntNdr | soCntNak | soCntNdrlost | soQd | vxId | vxStat | vxPeer | vxCmd | vxCfg | vxPwrCfg
  | vxCfgstat | vxSnap | vxSnapseq | vxCntTxflit | vxCntRxflit | vxCntRetry | vxCntFeccorr | vxCntFecunc | vxCntEsc
  | vxCntDrop | vxCmdSweep | vxSweepCfg | vxSweepStat | vxSweepRes | vxTimeCfg | vxTimeAsym | vxTimePeer
  | vxTimeDelay | vxCohCmd | vxCohStat | vxCohPeerdig | vxCohOwndig | vxRtCfg | vxRtPortup | vxTimeRoot | vxTimeStat
  | vxTimeOfs | vxRtCfgstat | vxRtMem | vxRtGrp | pcieStat | pcieCmd | pciePeCfg | pcieSpCtl | pcieIotuDtbase
  | pcieMsiIova | pcieIotuFq | pcieIotuInvAddr | pcieIotuInv | pcieIotuInvstat | pciePrgResp | pcieSnap | pcieSnapseq
  | pcieCntDmard | pcieCntDmawr | pcieCntFault | pcieCntMsidrop | dbgStat | dbgAttach | dbgAttachTo | dbgAuthCeil
  | dbgAuthReq | dbgAuthExp | dbgAuthChal | dbgAuthSubmit | dbgLcCtl | dbgLcCmd | dbgLcStat | dbgHaltall
  | dbgHaltallStat | dbgRsel | dbgRcmd | dbgRstat | dbgRdata | dbgMaddr | dbgMcmd | dbgMstat | dbgMdata | dbgMbuf
  | dbgTrBase | dbgTrCfg | dbgTrCtl | dbgTrHead | dbgTrTail | dbgStimEn | dbgSnap | dbgSnapseq | dbgCntTrpkt
  | dbgCntTrlost | dbgCntMsteal | dbgAuthResp | dbgStim | resStat | resContain | resHorizon | resHorizonWarn
  | resLogSeq | resSnap | resSnapseq | resCntRetry | resCntReloc | resCntRevoke | resCntFence | resInvLeft
  | resInvUsed | resInvDays | resLog | ucsVerCore | ucsVerSop | ucsVerLink | ucsVerPwr | ucsVerHtrn | ucsVerDtrn
  | ucsRollStat | ucsVerNew | ucsSnap | ucsSnapseq | ucsEccCorr | ucsEccUncorr | ucsCoreVer | celStat | celPotVer | celPotBase
  | celPotSize | celRegionBase | celRegionLimit | celPotSyncBase | celPotSync | celPotSyncstat | celSoreadBase
  | celSoreadLimit | celMr | celMrExt | celMrCmd
deriving DecidableEq, Repr

/-- Access codes (00 R8). -/
inductive RegAcc
  | ro | rc | wo | rw | rwl
deriving DecidableEq, Repr

/-- Which half of a 64-bit pair a register is (02 R35). -/
inductive RegHalf
  | single | lo | hi
deriving DecidableEq, Repr

/-- One row of a register map: offset in control space; strides and counts of an array; access; reset; the bits that are not
reserved; the PERIOD and STOPPED bits (00 R9) and the read-only bits of a writable register; whether writing or reading needs K;
the debug levels of reading and writing (23 R569); the lock row (02 R57); whether an index is a logical core number (01 R18). -/
structure RegDesc where
  name : RegName
  off : Nat
  dims : List (Nat × Nat) := []
  acc : RegAcc := .ro
  reset : Nat := 0
  bits : Nat := 0xFFFFFFFF
  period : Nat := 0
  stopped : Nat := 0
  ro : Nat := 0
  half : RegHalf := .single
  hold : Bool := false
  bank : Bool := false
  keeper : Bool := false
  keeperRead : Bool := false
  dbgR : Nat := 0
  dbgW : Nat := 0
  lock : Option Nat := none
  byLc : Bool := false
deriving DecidableEq, Repr

def regsSys : List RegDesc := [
  { name := .sysId, off := 0x0 },
  { name := .sysCap0, off := 0x4 },
  { name := .sysCap1, off := 0x8 },
  { name := .sysCap2, off := 0xc },
  { name := .sysSlot, off := 0x10 },
  { name := .sysMode, off := 0x14 },
  { name := .sysEpoch, off := 0x20 },
  { name := .sysSnapStat, off := 0x34 },
  { name := .sysLockStat, off := 0x44 },
  { name := .sysEpochCommit, off := 0x24, acc := .wo, bits := 0x1 },
  { name := .sysEpochDiscard, off := 0x28, acc := .wo, bits := 0x1 },
  { name := .sysSnapAll, off := 0x30, acc := .wo, bits := 0x1 },
  { name := .sysLockSet, off := 0x40, acc := .wo, bits := 0x3f, keeper := true },
  { name := .sysBootPolicy, off := 0x48, acc := .rwl, bits := 0x113, ro := 0x110, lock := some 5 },
  { name := .sysLcloc, off := 0x1000, dims := [(0x4, 512)], byLc := true }]

/-- [DESIGN CHOICE, log entry 4] -/
def regsPwr : List RegDesc := [
  { name := .pwrStat, off := 0x100000 },
  { name := .pwrCmd, off := 0x100004, acc := .wo, bits := 0xf0000000 },
  { name := .pwrReqStat, off := 0x100008 },
  { name := .pwrIdleCfg, off := 0x100010, acc := .rw, reset := 0x64000a },
  { name := .pwrCoreIdle, off := 0x100014, acc := .rw, reset := 0x6403e8 },
  { name := .pwrWakeEn, off := 0x100018, acc := .rw, reset := 0x1f, bits := 0x3f },
  { name := .pwrWakeLast, off := 0x10001c, acc := .rc },
  { name := .pwrPadStat, off := 0x100020 },
  { name := .pwrPadRelease, off := 0x100024, acc := .wo, bits := 0x1, keeper := true },
  { name := .pwrLimit, off := 0x100030, acc := .rw, reset := 0x514, bits := 0x7ff },
  { name := .pwrLimitCeil, off := 0x100034, acc := .rwl, reset := 0x5aa, bits := 0x7ff, keeper := true, lock := some 3 },
  { name := .pwrMeas, off := 0x100038 },
  { name := .pwrSnap, off := 0x100040, acc := .wo, bits := 0x1 },
  { name := .pwrSnapseq, off := 0x100044 },
  { name := .pwrCntDoze, off := 0x100050, half := .lo, hold := true },
  { name := .pwrCntDoze, off := 0x100054, half := .hi, hold := true },
  { name := .pwrCntDeep, off := 0x100058, half := .lo, hold := true },
  { name := .pwrCntDeep, off := 0x10005c, half := .hi, hold := true },
  { name := .pwrCntWake, off := 0x100060, half := .lo, hold := true },
  { name := .pwrCntWake, off := 0x100064, half := .hi, hold := true },
  { name := .pwrCntThrottle, off := 0x100068, half := .lo, hold := true },
  { name := .pwrCntThrottle, off := 0x10006c, half := .hi, hold := true },
  { name := .pwrLcfreq, off := 0x101000, dims := [(0x4, 512)], acc := .rw, reset := 0x16000016, bits := 0x1f00001f, ro := 0x1f000000, byLc := true }]

def regsPad : List RegDesc := [
  { name := .padStrap, off := 0x200000 },
  { name := .padIn, off := 0x200004 },
  { name := .padEvent, off := 0x200008, acc := .rc },
  { name := .padFilt0, off := 0x200010, acc := .rw, reset := 0x2020202 },
  { name := .padFilt1, off := 0x200014, acc := .rw, reset := 0x2020000, bits := 0xffff0000 },
  { name := .padMbxStat, off := 0x200020 },
  { name := .padMbxCmd, off := 0x200024, acc := .wo, bits := 0xf000003f },
  { name := .padMbxIn, off := 0x200040, dims := [(0x4, 14)] },
  { name := .padMbxOut, off := 0x200080, dims := [(0x4, 14)], acc := .rw },
  { name := .padGpioCfg, off := 0x200100, dims := [(0x4, 24)], acc := .rw, reset := 0x2000001, bits := 0xff000f83 },
  { name := .padGpioCfg, off := 0x200160, dims := [(0x4, 8)], acc := .rw, reset := 0x2000000, bits := 0xff000f83 },
  { name := .ledCtl, off := 0x200200, acc := .rw, reset := 0x80050000, bits := 0x80ff000f },
  { name := .ledPwm, off := 0x200210, dims := [(0x4, 4)], acc := .rw, reset := 0x3e80000 },
  { name := .ledDiag, off := 0x200220 },
  { name := .padUartCfg, off := 0x200300, dims := [(0x20, 2)], acc := .rw, reset := 0x3641, bits := 0x8000ffff, stopped := 0xffff },
  { name := .padUartTx, off := 0x200304, dims := [(0x20, 2)], acc := .wo, bits := 0xff },
  { name := .padUartRx, off := 0x200308, dims := [(0x20, 2)], acc := .rc },
  { name := .padUartStat, off := 0x20030c, dims := [(0x20, 2)], reset := 0x40 },
  { name := .padUartErr, off := 0x200310, dims := [(0x20, 2)], acc := .rc },
  { name := .padUartIen, off := 0x200314, dims := [(0x20, 2)], acc := .rw, bits := 0x3 }]

def regsTmr0 : List RegDesc := [
  { name := .tmrStat, off := 0x300000 },
  { name := .tmrTimeRate, off := 0x300004 },
  { name := .tmrTimeSet, off := 0x300008, acc := .wo, half := .lo, keeper := true },
  { name := .tmrTimeSet, off := 0x30000c, acc := .wo, half := .hi, keeper := true },
  { name := .tmrSnap, off := 0x300010, acc := .wo, bits := 0x1 },
  { name := .tmrSnapseq, off := 0x300014 },
  { name := .tmrSnapTime, off := 0x300018, half := .lo },
  { name := .tmrSnapTime, off := 0x30001c, half := .hi },
  { name := .tmrCmd, off := 0x300020, acc := .wo, bits := 0xf000003f },
  { name := .tmrRun, off := 0x300040, dims := [(0x4, 2)], acc := .rw },
  { name := .tmrSyncCfg, off := 0x300050, acc := .rw, reset := 0x6400, bits := 0xffff07 },
  { name := .tmrSyncFlags, off := 0x300054, acc := .rc },
  { name := .tmrSyncCaprise, off := 0x300058, half := .lo },
  { name := .tmrSyncCaprise, off := 0x30005c, half := .hi },
  { name := .tmrSyncCapfall, off := 0x300060, half := .lo },
  { name := .tmrSyncCapfall, off := 0x300064, half := .hi },
  { name := .tmrTCfg, off := 0x301000, dims := [(0x40, 64)], acc := .rw, bits := 0x1f7f7f3f, stopped := 0x7f2f },
  { name := .tmrTDiv, off := 0x301004, dims := [(0x40, 64)], acc := .rw, bits := 0xffff, stopped := 0xffff },
  { name := .tmrTPeriod, off := 0x301008, dims := [(0x40, 64)], acc := .rw, half := .lo },
  { name := .tmrTPeriod, off := 0x30100c, dims := [(0x40, 64)], acc := .rw, half := .hi },
  { name := .tmrTCmp, off := 0x301010, dims := [(0x40, 64)], acc := .rw, half := .lo },
  { name := .tmrTCmp, off := 0x301014, dims := [(0x40, 64)], acc := .rw, half := .hi },
  { name := .tmrTCnt, off := 0x301018, dims := [(0x40, 64)], acc := .rw, stopped := 0xffffffff, half := .lo },
  { name := .tmrTCnt, off := 0x30101c, dims := [(0x40, 64)], acc := .rw, stopped := 0xffffffff, half := .hi }]

def regsTmr1 : List RegDesc := [
  { name := .tmrTCaprise, off := 0x301020, dims := [(0x40, 64)], half := .lo },
  { name := .tmrTCaprise, off := 0x301024, dims := [(0x40, 64)], half := .hi },
  { name := .tmrTCapfall, off := 0x301028, dims := [(0x40, 64)], half := .lo },
  { name := .tmrTCapfall, off := 0x30102c, dims := [(0x40, 64)], half := .hi },
  { name := .tmrTFlags, off := 0x301030, dims := [(0x40, 64)], acc := .rc },
  { name := .tmrTIen, off := 0x301034, dims := [(0x40, 64)], acc := .rw, bits := 0xf },
  { name := .tmrTHold, off := 0x301038, dims := [(0x40, 64)], half := .lo },
  { name := .tmrTHold, off := 0x30103c, dims := [(0x40, 64)], half := .hi }]

def regsTmr : List RegDesc := regsTmr0 ++ regsTmr1

def regsIc : List RegDesc := [
  { name := .icStat, off := 0x400000 },
  { name := .icRaise, off := 0x400010, acc := .wo, bits := 0x1fff },
  { name := .icUnraise, off := 0x400014, acc := .wo, bits := 0x1fff },
  { name := .icClaim, off := 0x400100, acc := .rc, bank := true },
  { name := .icComplete, off := 0x400104, acc := .wo, bits := 0x1fff, bank := true },
  { name := .icSnap, off := 0x400200, acc := .wo, bits := 0x1 },
  { name := .icSnapseq, off := 0x400204 },
  { name := .icCntClaim, off := 0x400210, half := .lo, hold := true },
  { name := .icCntClaim, off := 0x400214, half := .hi, hold := true },
  { name := .icCntNone, off := 0x400218, half := .lo, hold := true },
  { name := .icCntNone, off := 0x40021c, half := .hi, hold := true },
  { name := .icCntOrder, off := 0x400220, half := .lo, hold := true },
  { name := .icCntOrder, off := 0x400224, half := .hi, hold := true },
  { name := .icSrcCfg, off := 0x410000, dims := [(0x8, 8192)], acc := .rw, bits := 0xf03f01ff },
  { name := .icSrcStat, off := 0x410004, dims := [(0x8, 8192)] },
  { name := .icTset, off := 0x420000, dims := [(0x40, 256), (0x4, 16)], acc := .rw },
  { name := .icLcStat, off := 0x430000, dims := [(0x10, 512)], reset := 0x80, byLc := true },
  { name := .icLcThresh, off := 0x430004, dims := [(0x10, 512)], acc := .rw, bits := 0x3f, byLc := true },
  { name := .icLcStack, off := 0x440000, dims := [(0x100, 512), (0x4, 64)], byLc := true }]

def regsFrk : List RegDesc := [
  { name := .frkPeriod, off := 0x800000, dims := [(0x4, 8)], acc := .rw, reset := 0xa, bits := 0x1f, period := 0x1f },
  { name := .frkTc0Ceil, off := 0x800020, acc := .rwl, reset := 0x14, bits := 0x1f, period := 0x1f, lock := some 2 },
  { name := .frkShare, off := 0x800040, dims := [(0x4, 5)], acc := .rw, reset := 0x28190f, bits := 0xffffff, period := 0xffffff },
  { name := .frkTc0Slots, off := 0x800060, acc := .rw, reset := 0x2040210, period := 0xffffffff },
  { name := .frkCfgstat, off := 0x800070 },
  { name := .frkSnap, off := 0x800080, acc := .wo, bits := 0x1 },
  { name := .frkSnapseq, off := 0x800084 },
  { name := .frkRfree, off := 0x800100, dims := [(0x4, 40)] },
  { name := .frkResW0, off := 0x900000, dims := [(0x10, 540)], acc := .rw, bits := 0x8000ffff, period := 0x8000ffff },
  { name := .frkResW1, off := 0x900004, dims := [(0x10, 540)], acc := .rw, period := 0xffffffff },
  { name := .frkResW2, off := 0x900008, dims := [(0x10, 540)], acc := .rw, bits := 0xff, period := 0xff },
  { name := .frkBudW0, off := 0xa00000, dims := [(0x8, 540)], acc := .rw, period := 0xffffffff },
  { name := .frkBudW1, off := 0xa00004, dims := [(0x8, 540)], acc := .rw, bits := 0xffff, period := 0xffff },
  { name := .frkCntInj, off := 0xc00000, dims := [(0x10, 2160)], half := .lo, hold := true },
  { name := .frkCntInj, off := 0xc00004, dims := [(0x10, 2160)], half := .hi, hold := true },
  { name := .frkCntOver, off := 0xc00008, dims := [(0x10, 2160)], half := .lo, hold := true },
  { name := .frkCntOver, off := 0xc0000c, dims := [(0x10, 2160)], half := .hi, hold := true }]

def regsHn0 : List RegDesc := [
  { name := .hnId, off := 0x1000000, dims := [(0x10000, 256)] },
  { name := .hnStat, off := 0x1000004, dims := [(0x10000, 256)] },
  { name := .hnSnap, off := 0x1000010, dims := [(0x10000, 256)], acc := .wo, bits := 0x1 },
  { name := .hnSnapseq, off := 0x1000014, dims := [(0x10000, 256)] },
  { name := .hnCntReq, off := 0x1000020, dims := [(0x10000, 256)], half := .lo, hold := true },
  { name := .hnCntReq, off := 0x1000024, dims := [(0x10000, 256)], half := .hi, hold := true },
  { name := .hnCntSnoop, off := 0x1000028, dims := [(0x10000, 256)], half := .lo, hold := true },
  { name := .hnCntSnoop, off := 0x100002c, dims := [(0x10000, 256)], half := .hi, hold := true },
  { name := .hnCntDirevict, off := 0x1000030, dims := [(0x10000, 256)], half := .lo, hold := true },
  { name := .hnCntDirevict, off := 0x1000034, dims := [(0x10000, 256)], half := .hi, hold := true },
  { name := .hnCntL3hit, off := 0x1000038, dims := [(0x10000, 256)], half := .lo, hold := true },
  { name := .hnCntL3hit, off := 0x100003c, dims := [(0x10000, 256)], half := .hi, hold := true },
  { name := .hnCntDecline, off := 0x1000040, dims := [(0x10000, 256)], half := .lo, hold := true },
  { name := .hnCntDecline, off := 0x1000044, dims := [(0x10000, 256)], half := .hi, hold := true },
  { name := .hnCntFamo, off := 0x1000048, dims := [(0x10000, 256)], half := .lo, hold := true },
  { name := .hnCntFamo, off := 0x100004c, dims := [(0x10000, 256)], half := .hi, hold := true },
  { name := .hnCntRemote, off := 0x1000050, dims := [(0x10000, 256)], half := .lo, hold := true },
  { name := .hnCntRemote, off := 0x1000054, dims := [(0x10000, 256)], half := .hi, hold := true },
  { name := .hnCntWbdrop, off := 0x1000058, dims := [(0x10000, 256)], half := .lo, hold := true },
  { name := .hnCntWbdrop, off := 0x100005c, dims := [(0x10000, 256)], half := .hi, hold := true },
  { name := .hnL3Cmd, off := 0x1008004, dims := [(0x10000, 256)], acc := .wo, bits := 0xf000000f },
  { name := .hnL3Stat, off := 0x1008008, dims := [(0x10000, 256)] },
  { name := .hnCmoAddr, off := 0x1008010, dims := [(0x10000, 256)], acc := .rw, bits := 0xffffffc0, half := .lo, bank := true },
  { name := .hnCmoAddr, off := 0x1008014, dims := [(0x10000, 256)], acc := .rw, bits := 0xfffff, half := .hi, bank := true }]

def regsHn1 : List RegDesc := [
  { name := .hnCmo, off := 0x1008018, dims := [(0x10000, 256)], acc := .wo, bits := 0x3 }]

def regsHn : List RegDesc := regsHn0 ++ regsHn1

def regsHmc : List RegDesc := [
  { name := .hmcId, off := 0x2000000, dims := [(0x100000, 8)] },
  { name := .hmcStat, off := 0x2000004, dims := [(0x100000, 8)] },
  { name := .hmcScrub, off := 0x2000010, dims := [(0x100000, 8)], acc := .rw, reset := 0x18, bits := 0xff, period := 0xff },
  { name := .hmcRecentre, off := 0x2000014, dims := [(0x100000, 8)], acc := .rw, reset := 0xa0f, bits := 0xffff, period := 0xffff },
  { name := .hmcCfgstat, off := 0x2000018, dims := [(0x100000, 8)] },
  { name := .hmcSnap, off := 0x2000020, dims := [(0x100000, 8)], acc := .wo, bits := 0x1 },
  { name := .hmcSnapseq, off := 0x2000024, dims := [(0x100000, 8)] },
  { name := .hmcCntCe, off := 0x2000030, dims := [(0x100000, 8)], half := .lo, hold := true },
  { name := .hmcCntCe, off := 0x2000034, dims := [(0x100000, 8)], half := .hi, hold := true },
  { name := .hmcCntUe, off := 0x2000038, dims := [(0x100000, 8)], half := .lo, hold := true },
  { name := .hmcCntUe, off := 0x200003c, dims := [(0x100000, 8)], half := .hi, hold := true },
  { name := .hmcCntScrub, off := 0x2000040, dims := [(0x100000, 8)], half := .lo, hold := true },
  { name := .hmcCntScrub, off := 0x2000044, dims := [(0x100000, 8)], half := .hi, hold := true },
  { name := .hmcCntRefdl, off := 0x2000048, dims := [(0x100000, 8)], half := .lo, hold := true },
  { name := .hmcCntRefdl, off := 0x200004c, dims := [(0x100000, 8)], half := .hi, hold := true },
  { name := .hmcCntRecentre, off := 0x2000050, dims := [(0x100000, 8)], half := .lo, hold := true },
  { name := .hmcCntRecentre, off := 0x2000054, dims := [(0x100000, 8)], half := .hi, hold := true },
  { name := .hmcSpareStat, off := 0x2000060, dims := [(0x100000, 8)] },
  { name := .hmcTrnRd, off := 0x2001000, dims := [(0x100000, 8), (0x8, 128)] },
  { name := .hmcTrnWr, off := 0x2001004, dims := [(0x100000, 8), (0x8, 128)] },
  { name := .hmcSec, off := 0x2000100, dims := [(0x100000, 8), (0x4, 8)], acc := .rw, reset := 0x80000000, bits := 0x80000001, stopped := 0x1, ro := 0x80000000, keeper := true },
  { name := .hmcSeccmd, off := 0x2000120, dims := [(0x100000, 8)], acc := .wo, bits := 0xf0000007, keeper := true }]

def regsDmc : List RegDesc := [
  { name := .dmcId, off := 0x2800000, dims := [(0x100000, 8)] },
  { name := .dmcStat, off := 0x2800004, dims := [(0x100000, 8)] },
  { name := .dmcScrub, off := 0x2800010, dims := [(0x100000, 8)], acc := .rw, reset := 0x18, bits := 0xff, period := 0xff },
  { name := .dmcRecentre, off := 0x2800014, dims := [(0x100000, 8)], acc := .rw, reset := 0xa0f, bits := 0xffff, period := 0xffff },
  { name := .dmcCfgstat, off := 0x2800018, dims := [(0x100000, 8)] },
  { name := .dmcSnap, off := 0x2800020, dims := [(0x100000, 8)], acc := .wo, bits := 0x1 },
  { name := .dmcSnapseq, off := 0x2800024, dims := [(0x100000, 8)] },
  { name := .dmcCntCe, off := 0x2800030, dims := [(0x100000, 8)], half := .lo, hold := true },
  { name := .dmcCntCe, off := 0x2800034, dims := [(0x100000, 8)], half := .hi, hold := true },
  { name := .dmcCntUe, off := 0x2800038, dims := [(0x100000, 8)], half := .lo, hold := true },
  { name := .dmcCntUe, off := 0x280003c, dims := [(0x100000, 8)], half := .hi, hold := true },
  { name := .dmcCntScrub, off := 0x2800040, dims := [(0x100000, 8)], half := .lo, hold := true },
  { name := .dmcCntScrub, off := 0x2800044, dims := [(0x100000, 8)], half := .hi, hold := true },
  { name := .dmcCntRefdl, off := 0x2800048, dims := [(0x100000, 8)], half := .lo, hold := true },
  { name := .dmcCntRefdl, off := 0x280004c, dims := [(0x100000, 8)], half := .hi, hold := true },
  { name := .dmcCntRecentre, off := 0x2800050, dims := [(0x100000, 8)], half := .lo, hold := true },
  { name := .dmcCntRecentre, off := 0x2800054, dims := [(0x100000, 8)], half := .hi, hold := true },
  { name := .dmcSpareStat, off := 0x2800060, dims := [(0x100000, 8)] },
  { name := .dmcTrnRd, off := 0x2801000, dims := [(0x100000, 8), (0x8, 80)] },
  { name := .dmcTrnWr, off := 0x2801004, dims := [(0x100000, 8), (0x8, 80)] },
  { name := .dmcDdrmap, off := 0x2800100, dims := [(0x100000, 8)] },
  { name := .dmcReserve, off := 0x2800104, dims := [(0x100000, 8)] },
  { name := .dmcDimm, off := 0x2800110, dims := [(0x100000, 8), (0x4, 2)] },
  { name := .dmcRankret, off := 0x2800118, dims := [(0x100000, 8)] }]

def regsSo0 : List RegDesc := [
  { name := .soStat, off := 0x3000000 },
  { name := .soCmd, off := 0x3000004, acc := .wo, bits := 0x1 },
  { name := .soDevnum, off := 0x3000008, acc := .rw, bits := 0xffff, stopped := 0xffff },
  { name := .soDlrBase, off := 0x3000010, acc := .rw, bits := 0xfffff000, stopped := 0xfffff000, half := .lo },
  { name := .soDlrBase, off := 0x3000014, acc := .rw, bits := 0xfffff, stopped := 0xfffff, half := .hi },
  { name := .soDlrCfg, off := 0x3000018, acc := .rw, reset := 0xa, bits := 0x1f, stopped := 0x1f },
  { name := .soDlrHead, off := 0x300001c },
  { name := .soDlrTail, off := 0x3000020, acc := .rw },
  { name := .soSendTimeout, off := 0x3000030, acc := .rw, reset := 0x64, bits := 0xffff, period := 0xffff },
  { name := .soCfgstat, off := 0x3000034 },
  { name := .soQcmd, off := 0x3000040, acc := .wo },
  { name := .soQstage, off := 0x3000080, dims := [(0x4, 16)], acc := .rw, bank := true },
  { name := .soPoolRes, off := 0x3000100, dims := [(0x8, 8)] },
  { name := .soPoolFree, off := 0x3000104, dims := [(0x8, 8)], reset := 0x20000 },
  { name := .soSnap, off := 0x3000200, acc := .wo, bits := 0x1 },
  { name := .soSnapseq, off := 0x3000204 },
  { name := .soCntAccept, off := 0x3000210, half := .lo, hold := true },
  { name := .soCntAccept, off := 0x3000214, half := .hi, hold := true },
  { name := .soCntDeq, off := 0x3000218, half := .lo, hold := true },
  { name := .soCntDeq, off := 0x300021c, half := .hi, hold := true },
  { name := .soCntSpill, off := 0x3000220, half := .lo, hold := true },
  { name := .soCntSpill, off := 0x3000224, half := .hi, hold := true },
  { name := .soCntDead, off := 0x3000228, half := .lo, hold := true },
  { name := .soCntDead, off := 0x300022c, half := .hi, hold := true }]

def regsSo1 : List RegDesc := [
  { name := .soCntNdr, off := 0x3000230, half := .lo, hold := true },
  { name := .soCntNdr, off := 0x3000234, half := .hi, hold := true },
  { name := .soCntNak, off := 0x3000238, half := .lo, hold := true },
  { name := .soCntNak, off := 0x300023c, half := .hi, hold := true },
  { name := .soCntNdrlost, off := 0x3000240, half := .lo, hold := true },
  { name := .soCntNdrlost, off := 0x3000244, half := .hi, hold := true },
  { name := .soQd, off := 0x3400000, dims := [(0x40, 65536), (0x4, 16)] }]

def regsSo : List RegDesc := regsSo0 ++ regsSo1

def regsVx0 : List RegDesc := [
  { name := .vxId, off := 0x4000000, dims := [(0x100000, 8)] },
  { name := .vxStat, off := 0x4000004, dims := [(0x100000, 8)] },
  { name := .vxPeer, off := 0x4000008, dims := [(0x100000, 8)] },
  { name := .vxCmd, off := 0x4000010, dims := [(0x100000, 8)], acc := .wo, bits := 0xf0000000 },
  { name := .vxCfg, off := 0x4000014, dims := [(0x100000, 8)], acc := .rw, reset := 0x80401, bits := 0xffff01, period := 0xffff00 },
  { name := .vxPwrCfg, off := 0x4000018, dims := [(0x100000, 8)], acc := .rw, period := 0xffffffff },
  { name := .vxCfgstat, off := 0x400001c, dims := [(0x100000, 8)] },
  { name := .vxSnap, off := 0x4000040, dims := [(0x100000, 8)], acc := .wo, bits := 0x1 },
  { name := .vxSnapseq, off := 0x4000044, dims := [(0x100000, 8)] },
  { name := .vxCntTxflit, off := 0x4000050, dims := [(0x100000, 8)], half := .lo, hold := true },
  { name := .vxCntTxflit, off := 0x4000054, dims := [(0x100000, 8)], half := .hi, hold := true },
  { name := .vxCntRxflit, off := 0x4000058, dims := [(0x100000, 8)], half := .lo, hold := true },
  { name := .vxCntRxflit, off := 0x400005c, dims := [(0x100000, 8)], half := .hi, hold := true },
  { name := .vxCntRetry, off := 0x4000060, dims := [(0x100000, 8)], half := .lo, hold := true },
  { name := .vxCntRetry, off := 0x4000064, dims := [(0x100000, 8)], half := .hi, hold := true },
  { name := .vxCntFeccorr, off := 0x4000068, dims := [(0x100000, 8)], half := .lo, hold := true },
  { name := .vxCntFeccorr, off := 0x400006c, dims := [(0x100000, 8)], half := .hi, hold := true },
  { name := .vxCntFecunc, off := 0x4000070, dims := [(0x100000, 8)], half := .lo, hold := true },
  { name := .vxCntFecunc, off := 0x4000074, dims := [(0x100000, 8)], half := .hi, hold := true },
  { name := .vxCntEsc, off := 0x4000078, dims := [(0x100000, 8)], half := .lo, hold := true },
  { name := .vxCntEsc, off := 0x400007c, dims := [(0x100000, 8)], half := .hi, hold := true },
  { name := .vxCntDrop, off := 0x4000080, dims := [(0x100000, 8)], half := .lo, hold := true },
  { name := .vxCntDrop, off := 0x4000084, dims := [(0x100000, 8)], half := .hi, hold := true },
  { name := .vxCmdSweep, off := 0x4000100, dims := [(0x100000, 8)], acc := .wo, bits := 0xf0000007 }]

def regsVx1 : List RegDesc := [
  { name := .vxSweepCfg, off := 0x4000104, dims := [(0x100000, 8)], acc := .rw, reset := 0x1, bits := 0x1 },
  { name := .vxSweepStat, off := 0x4000108, dims := [(0x100000, 8)] },
  { name := .vxSweepRes, off := 0x4000110, dims := [(0x100000, 8), (0x4, 3)] },
  { name := .vxTimeCfg, off := 0x4000200, dims := [(0x100000, 8)], acc := .rw, reset := 0x7d0000, bits := 0xffff0003, period := 0xffff0003 },
  { name := .vxTimeAsym, off := 0x4000204, dims := [(0x100000, 8)], acc := .rw },
  { name := .vxTimePeer, off := 0x4000208, dims := [(0x100000, 8)] },
  { name := .vxTimeDelay, off := 0x400020c, dims := [(0x100000, 8)] },
  { name := .vxCohCmd, off := 0x400f000, dims := [(0x100000, 8)], acc := .wo, bits := 0xf },
  { name := .vxCohStat, off := 0x400f004, dims := [(0x100000, 8)] },
  { name := .vxCohPeerdig, off := 0x400f010, dims := [(0x100000, 8), (0x4, 16)] },
  { name := .vxCohOwndig, off := 0x400f050, dims := [(0x100000, 8), (0x4, 16)] },
  { name := .vxRtCfg, off := 0x4080000, acc := .rw, reset := 0x14100008, bits := 0xff1f000f, period := 0xff1f0000, stopped := 0xf },
  { name := .vxRtPortup, off := 0x4080004 },
  { name := .vxTimeRoot, off := 0x4080010, acc := .rw, bits := 0x3, period := 0x3 },
  { name := .vxTimeStat, off := 0x4080014 },
  { name := .vxTimeOfs, off := 0x4080018 },
  { name := .vxRtCfgstat, off := 0x4080020 },
  { name := .vxRtMem, off := 0x4090000, dims := [(0x4, 256)], acc := .rw, bits := 0xff0f, period := 0xf },
  { name := .vxRtGrp, off := 0x40a0000, dims := [(0x4, 4096)], acc := .rw, bits := 0xff0f, period := 0xf }]

def regsVx : List RegDesc := regsVx0 ++ regsVx1

/-- [DESIGN CHOICE, log entry 4] -/
def regsPcie : List RegDesc := [
  { name := .pcieStat, off := 0x4800000 },
  { name := .pcieCmd, off := 0x4800004, acc := .wo, bits := 0xf0000003 },
  { name := .pciePeCfg, off := 0x4800010, dims := [(0x4, 3)], acc := .rw, reset := 0x50, bits := 0x77, stopped := 0x77 },
  { name := .pcieSpCtl, off := 0x4800040, dims := [(0x4, 12)], acc := .rw, reset := 0xa0a, bits := 0xffff },
  { name := .pcieIotuDtbase, off := 0x4800100, acc := .rw, bits := 0xffe00000, stopped := 0xffe00000, half := .lo },
  { name := .pcieIotuDtbase, off := 0x4800104, acc := .rw, bits := 0xfffff, stopped := 0xfffff, half := .hi },
  { name := .pcieMsiIova, off := 0x4800108, acc := .rw, reset := 0xfffff000, bits := 0xfffff000, stopped := 0xfffff000, half := .lo },
  { name := .pcieMsiIova, off := 0x480010c, acc := .rw, reset := 0x7fff, bits := 0x7fff, stopped := 0x7fff, half := .hi },
  { name := .pcieIotuFq, off := 0x4800110, acc := .rw, bits := 0x8000ffff },
  { name := .pcieIotuInvAddr, off := 0x4800120, acc := .rw, bits := 0xfffff000, half := .lo, bank := true },
  { name := .pcieIotuInvAddr, off := 0x4800124, acc := .rw, bits := 0x7fff, half := .hi, bank := true },
  { name := .pcieIotuInv, off := 0x4800128, acc := .wo },
  { name := .pcieIotuInvstat, off := 0x480012c, bank := true },
  { name := .pciePrgResp, off := 0x4800130, acc := .wo },
  { name := .pcieSnap, off := 0x4800200, acc := .wo, bits := 0x1 },
  { name := .pcieSnapseq, off := 0x4800204 },
  { name := .pcieCntDmard, off := 0x4800210, half := .lo, hold := true },
  { name := .pcieCntDmard, off := 0x4800214, half := .hi, hold := true },
  { name := .pcieCntDmawr, off := 0x4800218, half := .lo, hold := true },
  { name := .pcieCntDmawr, off := 0x480021c, half := .hi, hold := true },
  { name := .pcieCntFault, off := 0x4800220, half := .lo, hold := true },
  { name := .pcieCntFault, off := 0x4800224, half := .hi, hold := true },
  { name := .pcieCntMsidrop, off := 0x4800228, half := .lo, hold := true },
  { name := .pcieCntMsidrop, off := 0x480022c, half := .hi, hold := true }]

def regsDbg0 : List RegDesc := [
  { name := .dbgStat, off := 0x5000000 },
  { name := .dbgAttach, off := 0x5000004, acc := .wo },
  { name := .dbgAttachTo, off := 0x5000008, acc := .rw, reset := 0xa, bits := 0xffff },
  { name := .dbgAuthCeil, off := 0x500000c, acc := .rwl, reset := 0x2, bits := 0x3, keeper := true, lock := some 4 },
  { name := .dbgAuthReq, off := 0x5000010, acc := .wo, bits := 0xffff0003 },
  { name := .dbgAuthExp, off := 0x5000018, half := .lo },
  { name := .dbgAuthExp, off := 0x500001c, half := .hi },
  { name := .dbgAuthChal, off := 0x5000020, dims := [(0x4, 12)] },
  { name := .dbgAuthSubmit, off := 0x5000060, acc := .wo, bits := 0xf0000001 },
  { name := .dbgLcCtl, off := 0x5000100, dims := [(0x10, 512)], acc := .rw, bits := 0x3, byLc := true, dbgR := 2, dbgW := 2 },
  { name := .dbgLcCmd, off := 0x5000104, dims := [(0x10, 512)], acc := .wo, bits := 0xf0000000, byLc := true, dbgR := 2, dbgW := 2 },
  { name := .dbgLcStat, off := 0x5000108, dims := [(0x10, 512)], byLc := true, dbgR := 1, dbgW := 1 },
  { name := .dbgHaltall, off := 0x5002100, acc := .wo, bits := 0xf0000000, dbgR := 2, dbgW := 2 },
  { name := .dbgHaltallStat, off := 0x5002104, dbgR := 1, dbgW := 1 },
  { name := .dbgRsel, off := 0x5002200, acc := .rw, bits := 0xf1ff0fff, dbgR := 1, dbgW := 1 },
  { name := .dbgRcmd, off := 0x5002204, acc := .wo, bits := 0xf0000000, dbgR := 1, dbgW := 1 },
  { name := .dbgRstat, off := 0x5002208, dbgR := 1, dbgW := 1 },
  { name := .dbgRdata, off := 0x5002210, acc := .rw, half := .lo, dbgR := 1, dbgW := 2 },
  { name := .dbgRdata, off := 0x5002214, acc := .rw, half := .hi, dbgR := 1, dbgW := 2 },
  { name := .dbgMaddr, off := 0x5002300, acc := .rw, half := .lo, dbgR := 1, dbgW := 1 },
  { name := .dbgMaddr, off := 0x5002304, acc := .rw, bits := 0xfffff, half := .hi, dbgR := 1, dbgW := 1 },
  { name := .dbgMcmd, off := 0x5002308, acc := .wo, bits := 0xf0000101, dbgR := 1, dbgW := 1 },
  { name := .dbgMstat, off := 0x500230c, dbgR := 1, dbgW := 1 },
  { name := .dbgMdata, off := 0x5002310, acc := .rw, half := .lo, dbgR := 1, dbgW := 1 }]

def regsDbg1 : List RegDesc := [
  { name := .dbgMdata, off := 0x5002314, acc := .rw, half := .hi, dbgR := 1, dbgW := 1 },
  { name := .dbgMbuf, off := 0x5002340, dims := [(0x4, 16)], acc := .rw, dbgR := 1, dbgW := 1 },
  { name := .dbgTrBase, off := 0x5002400, acc := .rw, bits := 0xfffff000, stopped := 0xfffff000, half := .lo },
  { name := .dbgTrBase, off := 0x5002404, acc := .rw, bits := 0xfffff, stopped := 0xfffff, half := .hi },
  { name := .dbgTrCfg, off := 0x5002408, acc := .rw, reset := 0xc, bits := 0x1f, stopped := 0x1f },
  { name := .dbgTrCtl, off := 0x500240c, acc := .rw, bits := 0x3 },
  { name := .dbgTrHead, off := 0x5002410 },
  { name := .dbgTrTail, off := 0x5002414, acc := .rw },
  { name := .dbgStimEn, off := 0x5002420, dims := [(0x4, 8)], acc := .rw },
  { name := .dbgSnap, off := 0x5002500, acc := .wo, bits := 0x1 },
  { name := .dbgSnapseq, off := 0x5002504 },
  { name := .dbgCntTrpkt, off := 0x5002510, half := .lo, hold := true },
  { name := .dbgCntTrpkt, off := 0x5002514, half := .hi, hold := true },
  { name := .dbgCntTrlost, off := 0x5002518, half := .lo, hold := true },
  { name := .dbgCntTrlost, off := 0x500251c, half := .hi, hold := true },
  { name := .dbgCntMsteal, off := 0x5002520, half := .lo, hold := true },
  { name := .dbgCntMsteal, off := 0x5002524, half := .hi, hold := true },
  { name := .dbgAuthResp, off := 0x5003000, dims := [(0x4, 1160)], acc := .rw },
  { name := .dbgStim, off := 0x5010000, dims := [(0x4, 256)], acc := .wo }]

/-- [DESIGN CHOICE, log entry 4] -/
def regsDbg : List RegDesc := regsDbg0 ++ regsDbg1

def regsRes : List RegDesc := [
  { name := .resStat, off := 0x6000000 },
  { name := .resContain, off := 0x6000004 },
  { name := .resHorizon, off := 0x6000010, reset := 0xfffe },
  { name := .resHorizonWarn, off := 0x6000014, acc := .rw, reset := 0x447, bits := 0xffff, keeper := true },
  { name := .resLogSeq, off := 0x6000020 },
  { name := .resSnap, off := 0x6000030, acc := .wo, bits := 0x1, keeper := true },
  { name := .resSnapseq, off := 0x6000034 },
  { name := .resCntRetry, off := 0x6000040, half := .lo, hold := true },
  { name := .resCntRetry, off := 0x6000044, half := .hi, hold := true },
  { name := .resCntReloc, off := 0x6000048, half := .lo, hold := true },
  { name := .resCntReloc, off := 0x600004c, half := .hi, hold := true },
  { name := .resCntRevoke, off := 0x6000050, half := .lo, hold := true },
  { name := .resCntRevoke, off := 0x6000054, half := .hi, hold := true },
  { name := .resCntFence, off := 0x6000058, half := .lo, hold := true },
  { name := .resCntFence, off := 0x600005c, half := .hi, hold := true },
  { name := .resInvLeft, off := 0x6000100, dims := [(0x10, 10)] },
  { name := .resInvUsed, off := 0x6000104, dims := [(0x10, 10)] },
  { name := .resInvDays, off := 0x6000108, dims := [(0x10, 10)], reset := 0xfffe },
  { name := .resLog, off := 0x6100000, dims := [(0x30, 4096), (0x4, 12)] }]

def regsUcs : List RegDesc := [
  { name := .ucsVerCore, off := 0x7000000 },
  { name := .ucsVerSop, off := 0x7000004 },
  { name := .ucsVerLink, off := 0x7000008 },
  { name := .ucsVerPwr, off := 0x700000c },
  { name := .ucsVerHtrn, off := 0x7000010 },
  { name := .ucsVerDtrn, off := 0x7000014 },
  { name := .ucsRollStat, off := 0x7000040 },
  { name := .ucsVerNew, off := 0x7000044 },
  { name := .ucsSnap, off := 0x7000080, acc := .wo, bits := 0x1, keeper := true },
  { name := .ucsSnapseq, off := 0x7000084 },
  { name := .ucsEccCorr, off := 0x7000090, hold := true },
  { name := .ucsEccUncorr, off := 0x7000094, hold := true }]

def regsCel : List RegDesc := [
  { name := .celStat, off := 0x8000000, keeperRead := true },
  { name := .celPotVer, off := 0x8000004, keeperRead := true },
  { name := .celPotBase, off := 0x8000010, acc := .rwl, bits := 0xfffff000, stopped := 0xfffff000, half := .lo, keeper := true, keeperRead := true, lock := some 0 },
  { name := .celPotBase, off := 0x8000014, acc := .rwl, bits := 0xfffff, stopped := 0xfffff, half := .hi, keeper := true, keeperRead := true, lock := some 0 },
  { name := .celPotSize, off := 0x8000018, acc := .rwl, bits := 0xffff, stopped := 0xffff, keeper := true, keeperRead := true, lock := some 0 },
  { name := .celRegionBase, off := 0x8000020, acc := .rwl, stopped := 0xffffffff, half := .lo, keeper := true, keeperRead := true, lock := some 1 },
  { name := .celRegionBase, off := 0x8000024, acc := .rwl, stopped := 0xffffffff, half := .hi, keeper := true, keeperRead := true, lock := some 1 },
  { name := .celRegionLimit, off := 0x8000028, acc := .rwl, stopped := 0xffffffff, half := .lo, keeper := true, keeperRead := true, lock := some 1 },
  { name := .celRegionLimit, off := 0x800002c, acc := .rwl, stopped := 0xffffffff, half := .hi, keeper := true, keeperRead := true, lock := some 1 },
  { name := .celPotSyncBase, off := 0x8000040, acc := .rw, half := .lo, keeper := true, keeperRead := true },
  { name := .celPotSyncBase, off := 0x8000044, acc := .rw, half := .hi, keeper := true, keeperRead := true },
  { name := .celPotSync, off := 0x8000048, acc := .wo, bits := 0x1fffff, keeper := true, keeperRead := true },
  { name := .celPotSyncstat, off := 0x800004c, keeperRead := true },
  { name := .celSoreadBase, off := 0x8000050, acc := .rw, bits := 0xfffff000, half := .lo, keeper := true, keeperRead := true },
  { name := .celSoreadBase, off := 0x8000054, acc := .rw, half := .hi, keeper := true, keeperRead := true },
  { name := .celSoreadLimit, off := 0x8000058, acc := .rw, half := .lo, keeper := true, keeperRead := true },
  { name := .celSoreadLimit, off := 0x800005c, acc := .rw, half := .hi, keeper := true, keeperRead := true },
  { name := .celMr, off := 0x8000100, dims := [(0x30, 16), (0x4, 12)], keeperRead := true },
  { name := .celMrExt, off := 0x8000400, dims := [(0x4, 12)], acc := .rw, keeper := true, keeperRead := true },
  { name := .celMrCmd, off := 0x8000430, acc := .wo, bits := 0xf, keeper := true, keeperRead := true }]

/-- The per-physical-core uncore view (02 R36; 06 R170): the version of each core's sequencer, at an offset that the spec does not give.
[DESIGN CHOICE, log entry 100] -/
def regsUncore : List RegDesc := [{ name := .ucsCoreVer, off := 0x10000000, dims := [(0x10000, 576)] }]

/-- The blocks of control space (02 R36): where each begins, and its registers. -/
def blockRegs (off : Nat) : List RegDesc :=
  if off < 0x100000 then regsSys
  else if off < 0x200000 then regsPwr
  else if off < 0x300000 then regsPad
  else if off < 0x400000 then regsTmr
  else if off < 0x800000 then regsIc
  else if off < 0x1000000 then regsFrk
  else if off < 0x2000000 then regsHn
  else if off < 0x2800000 then regsHmc
  else if off < 0x3000000 then regsDmc
  else if off < 0x4000000 then regsSo
  else if off < 0x4800000 then regsVx
  else if off < 0x5000000 then regsPcie
  else if off < 0x6000000 then regsDbg
  else if off < 0x7000000 then regsRes
  else if off < 0x8000000 then regsUcs
  else if off < 0x10000000 then regsCel
  else if off < 0x10000000 + 576 * 0x10000 then regsUncore
  else []

/-- The indices of an offset within an array, outermost first. -/
def dimIdx : List (Nat × Nat) → Nat → Option (List Nat)
  | [], rel => if rel = 0 then some [] else none
  | (st, n) :: ds, rel => if rel / st < n then (dimIdx ds (rel % st)).map (rel / st :: ·) else none

def findIn : List RegDesc → Nat → Option (RegDesc × List Nat)
  | [], _ => none
  | d :: ds, off =>
    if off < d.off then findIn ds off
    else
      match dimIdx d.dims (off - d.off) with
      | some ix => some (d, ix)
      | none => findIn ds off

/-- The register at a control-space offset; none where there is no register (02 R36). -/
def findReg (off : Nat) : Option (RegDesc × List Nat) := findIn (blockRegs off) off

/-- The offsets of an indexed register. -/
def idxOff : List (Nat × Nat) → List Nat → Nat
  | (st, _) :: ds, i :: is => st * i + idxOff ds is
  | _, _ => 0

end Sys2Proof.Machine
end

