-- ==== Sys2Proof/Machine/State.lean ====
section
/-! DEFINITION. The state of the device and of its command queue, the reasons a step can stop, and the state after reset. -/

namespace Sys2Proof.Machine

/-- The device: every unit of the spec, and the commands that wait. `ans` is what the last access or service answered on a path
that has no register of its own; `fresh` counts the open values drawn (the model's own fields). [DESIGN CHOICE, log entry 5] -/
structure State where
  cores : SMap Core := []
  mem : MemSt := {}
  office : Office := {}
  frk : Franking := {}
  links : Links := {}
  pcie : Pcie := {}
  intc : Intc := {}
  time : Time := {}
  cellar : Cellar := {}
  resil : Resil := {}
  live : Live := {}
  power : Power := {}
  dbg : Dbg := {}
  pads : Pads := {}
  ctl : Ctl := {}
  ans : Answer := {}
  fresh : Nat := 0
  pending : List Instr := []
deriving DecidableEq, Repr

/-- Why the machine stops: no command of this block stops it, so there is no reason. -/
inductive Fault
deriving DecidableEq, Repr

/-- Why a command has no meaning. -/
inductive Refusal
  /-- Raised by the dispatch alone, for a command that has no meaning yet; safe, because nothing follows from it. -/
  | notModelled (mnemonic : String)
deriving DecidableEq, Repr

/-- The device right after reset: the values the spec gives for reset, each other value named in the assumption log.
[DESIGN CHOICE, log entry 2] -/
def State.reset : State := {}

end Sys2Proof.Machine
end

