-- ==== Sys2Proof/Machine/Store.lean ====
section
/-! DEFINITION. The sparse tables every large piece of state is kept in: a read, a write that keeps the one canonical
form, and the form itself. `d` is what an unlisted key reads as. -/

namespace Sys2Proof.Machine

/-- What key `k` holds. -/
def smGet {α : Type} (d : Nat → α) : SMap α → Nat → α
  | [], k => d k
  | (k', v) :: m, k => if k' = k then v else smGet d m k

/-- Drop the entry of key `k`. -/
def smDrop {α : Type} : SMap α → Nat → SMap α
  | [], _ => []
  | (k', v) :: m, k => if k' = k then smDrop m k else (k', v) :: smDrop m k

/-- Put `v` at key `k`, in the place its key gives it. -/
def smInsert {α : Type} : SMap α → Nat → α → SMap α
  | [], k, v => [(k, v)]
  | (k', v') :: m, k, v =>
    if k < k' then (k, v) :: (k', v') :: m
    else if k = k' then (k, v) :: m
    else (k', v') :: smInsert m k v

/-- Write `v` at key `k`: a value an unlisted key already reads as takes the entry out. -/
def smPut {α : Type} [DecidableEq α] (d : Nat → α) (m : SMap α) (k : Nat) (v : α) : SMap α :=
  match m with
  | [] => if v = d k then [] else [(k, v)]
  | e :: r => if v = d k then smDrop (e :: r) k else smInsert (e :: r) k v

/-- Keys strictly rising. -/
def smSorted {α : Type} : SMap α → Bool
  | [] => true
  | [_] => true
  | (k, _) :: (k', v') :: m => decide (k < k') && smSorted ((k', v') :: m)

/-- The canonical form: keys strictly rising, and no entry that an unlisted key would read as. -/
def smWf {α : Type} [DecidableEq α] (d : Nat → α) (m : SMap α) : Bool :=
  smSorted m && m.all (fun e => decide (e.2 ≠ d e.1))

end Sys2Proof.Machine
end

