-- ==== Sys2Proof/Machine/Ops.lean ====
section
/-! DEFINITION. The named operations every meaning is written over: the cores and their registers, free values, bytes and lines of
memory, register words of control space, counters, interrupt lines (17 R420) and the fault log (20 R498 to R501). -/

namespace Sys2Proof.Machine

/-- The three outcomes of a command. -/
abbrev Out := Host.Outcome State Fault Refusal

/-- The status codes of 02 R40. -/
def stOk : Nat := 0
def stNoreg : Nat := 1
def stPriv : Nat := 2
def stRange : Nat := 3
def stRsvd : Nat := 4
def stLocked : Nat := 5
def stRunning : Nat := 6
def stBusy : Nat := 7
def stParity : Nat := 8
def stTimeout : Nat := 9
def stNotsupp : Nat := 10
def stOrder : Nat := 11
def stBudget : Nat := 12
def stEpoch : Nat := 13
def stFenced : Nat := 14
def stAuth : Nat := 15

/-! ### Cores and their registers -/

/-- What a core not listed is: as SEQUENCE leaves it (07 R174). -/
def coreDef (_ : Nat) : Core := {}
def coreOf (s : State) (lc : Nat) : Core := smGet coreDef s.cores lc
def setCore (s : State) (lc : Nat) (c : Core) : State := { s with cores := smPut coreDef s.cores lc c }
def updCore (lc : Nat) (f : Core → Core) (s : State) : State := setCore s lc (f (coreOf s lc))

/-- [DESIGN CHOICE, log entry 3] -/
def word0 (_ : Nat) : Word64 := 0
/-- [DESIGN CHOICE, log entry 3] -/
def vec0 (_ : Nat) : Vec := 0

/-- A read of g0 is zero (03 R60). -/
def readG (r : Regs) (i : GReg) : Word64 := if i = 0 then 0 else smGet word0 r.g i.val
/-- A write to g0 is discarded (03 R60). -/
def writeG (r : Regs) (i : GReg) (w : Word64) : Regs := if i = 0 then r else { r with g := smPut word0 r.g i.val w }
def readV (r : Regs) (i : VReg) : Vec := smGet vec0 r.v i.val
def writeV (r : Regs) (i : VReg) (w : Vec) : Regs := { r with v := smPut vec0 r.v i.val w }
/-- k0 reads as all ones (05 R124). -/
def readK (r : Regs) (i : KReg) : Word64 := if i = 0 then BitVec.allOnes 64 else smGet word0 r.k i.val
/-- A write to k0 is discarded (05 R124). -/
def writeK (r : Regs) (i : KReg) (w : Word64) : Regs := if i = 0 then r else { r with k := smPut word0 r.k i.val w }

/-- Reset values of the core CSRs kept by number (03 R67; 07 R174; 08 R197; 19 R455; 23 R559, R565). -/
def csrReset (n : Nat) : Word64 :=
  match n with
  | 0x400 => 0x22
  | 0x411 => 0xFF01
  | 0x482 => 3
  | 0x4C0 => 0x40
  | 0x800 => 2
  | 0x822 => 0x40
  | _ => 0

def csr (r : Regs) (n : Nat) : Word64 := smGet csrReset r.csr n
def setCsr (r : Regs) (n : Nat) (w : Word64) : Regs := { r with csr := smPut csrReset r.csr n w }

/-- Bits `hi` to `lo` of a number. -/
def natBits (x hi lo : Nat) : Nat := x / 2 ^ lo % 2 ^ (hi - lo + 1)
/-- Bits `hi` to `lo` of a word, as a number. -/
def fld {w : Nat} (x : BitVec w) (hi lo : Nat) : Nat := natBits x.toNat hi lo
/-- A word with bits `hi` to `lo` replaced. -/
def putFld {w : Nat} (x : BitVec w) (hi lo v : Nat) : BitVec w :=
  (x &&& ~~~(BitVec.ofNat w ((2 ^ (hi - lo + 1) - 1) * 2 ^ lo))) ||| BitVec.ofNat w (v % 2 ^ (hi - lo + 1) * 2 ^ lo)

/-- The privilege levels of 07 R171 as numbers: 0 U, 1 S, 2 K. -/
def levelOf (r : Regs) : Nat := fld (csr r 0x400) 6 5

/-! ### Free values -/

/-- A value nothing constrains (03 R67, 09 R228). [DESIGN CHOICE, log entry 16] -/
def drawWord (s : State) : Word64 × State := (Config.freeWord s.fresh, { s with fresh := s.fresh + 1 })
/-- A count nothing constrains (23 R565). [DESIGN CHOICE, log entry 17] -/
def drawCount (s : State) : Word64 × State := (Config.freeCount s.fresh, { s with fresh := s.fresh + 1 })
/-- `n` bytes nothing constrains (19 R472, R475). [DESIGN CHOICE, log entry 18] -/
def drawBytes (n : Nat) (s : State) : List Byte × State :=
  ((List.range n).map fun i => Config.freeByte (s.fresh + i), { s with fresh := s.fresh + n })

/-! ### Bytes of memory, by physical address -/

/-- What a byte that nothing has written reads as: every page is zeroed before software starts (26 R609 step 7, R614).
[DESIGN CHOICE, log entry 2] -/
def byteDef (_ : Nat) : Byte := 0
def readByte (s : State) (pa : Nat) : Byte := smGet byteDef s.mem.bytes pa
def putBytes : List Byte → Nat → SMap Byte → SMap Byte
  | [], _, m => m
  | b :: bs, pa, m => putBytes bs (pa + 1) (smPut byteDef m pa b)
def readBytes (s : State) (pa : Nat) : Nat → List Byte
  | 0 => []
  | n + 1 => readByte s pa :: readBytes s (pa + 1) n
def writeBytes (pa : Nat) (bs : List Byte) (s : State) : State :=
  { s with mem := { s.mem with bytes := putBytes bs pa s.mem.bytes } }
/-- The canonical form of memory. -/
def Memory.wf (m : SMap Byte) : Bool := smWf byteDef m

/-- A little-endian number of `n` bytes. -/
def readNat (s : State) (pa n : Nat) : Nat := natOfBytes (readBytes s pa n)
def lineOf (pa : Nat) : Nat := pa / 64
/-- A vector from 64 bytes, byte 0 in the lowest bits (05 R123). -/
def vecOfBytes (bs : List Byte) : Vec := BitVec.ofNat 512 (natOfBytes bs)
def readLine (s : State) (line : Nat) : Vec := vecOfBytes (readBytes s (64 * line) 64)
/-- Zero `n` bytes of whole lines; a line written whole is no longer poisoned. -/
def zeroBytes (pa n : Nat) (s : State) : State :=
  { s with mem := { s.mem with bytes := s.mem.bytes.filter (fun e => decide (e.1 < pa ∨ pa + n ≤ e.1)),
                               poison := s.mem.poison.filter fun e => decide (64 * e.1 + 64 ≤ pa ∨ pa + n ≤ 64 * e.1) } }

def boolDef (_ : Nat) : Bool := false
def poisoned (s : State) (line : Nat) : Bool := smGet boolDef s.mem.poison line
def setPoison (line : Nat) (b : Bool) (s : State) : State :=
  { s with mem := { s.mem with poison := smPut boolDef s.mem.poison line b } }

/-! ### Register words of control space -/

def regDef (off : Nat) : Word32 :=
  match findReg off with
  | some (d, _) => BitVec.ofNat 32 d.reset
  | none => 0
/-- The written value of the register at `off` (a shadow value where it is of class PERIOD). -/
def reg (s : State) (off : Nat) : Word32 := smGet regDef s.ctl.regs off
/-- The value in force. -/
def regAct (s : State) (off : Nat) : Word32 := smGet regDef s.ctl.active off
def setReg (off : Nat) (v : Word32) (s : State) : State := { s with ctl := { s.ctl with regs := smPut regDef s.ctl.regs off v } }
def setAct (off : Nat) (v : Word32) (s : State) : State := { s with ctl := { s.ctl with active := smPut regDef s.ctl.active off v } }
/-- Bits of a register as a number. -/
def rfld (s : State) (off hi lo : Nat) : Nat := fld (reg s off) hi lo
/-- The 64-bit value of a pair. -/
def reg64 (s : State) (off : Nat) : Nat := (reg s off).toNat + 2 ^ 32 * (reg s (off + 4)).toNat
/-- The key of a register its block banks for core `lc`. -/
def bankKey (off lc : Nat) : Nat := 2 ^ 36 + off * 1024 + lc
/-- What a banked word not listed reads as: the reset value of its register. -/
def bankDef (key : Nat) : Word32 := if key < 2 ^ 36 then regDef key else regDef ((key - 2 ^ 36) / 1024)
def bankReg (s : State) (off lc : Nat) : Word32 := smGet bankDef s.ctl.regs (bankKey off lc)
def setBankReg (off lc : Nat) (v : Word32) (s : State) : State :=
  { s with ctl := { s.ctl with regs := smPut bankDef s.ctl.regs (bankKey off lc) v } }

def cnt0 (_ : Nat) : Word64 := 0
/-- Advance the counter whose holding register lies at `off` (02 R53). -/
def bumpBy (off n : Nat) (s : State) : State :=
  { s with ctl := { s.ctl with counters := smPut cnt0 s.ctl.counters off (smGet cnt0 s.ctl.counters off + BitVec.ofNat 64 n) } }
def bump (off : Nat) (s : State) : State := bumpBy off 1 s

/-- Answer a path that has no register of its own. -/
def answer (st : Nat) (v : Word64) (s : State) : State := { s with ans := { status := st, value := v } }
def answerSt (st : Nat) (s : State) : State := answer st 0 s

/-! ### Time, modes, bound cores -/

def nowNs (s : State) : Nat := s.time.now.toNat
/-- The device slot (01 R28). -/
def slotOf (s : State) : Nat := s.power.strapSlot.toNat
def bound (s : State) (lc : Nat) : Bool := decide (lc < s.resil.bound)

/-- The physical core a logical core stands on: the core map of 01 R16 unless changed since. -/
def lcMapDef (lc : Nat) : Option Nat := some (lc / 64 * 72 + lc % 64)
def pcOf (s : State) (lc : Nat) : Nat := (smGet lcMapDef s.resil.lcMap lc).getD 0
def moving (s : State) (lc : Nat) : Bool := smGet boolDef s.resil.moving lc

/-- `SYS_MODE.MODE`: the first mode that applies (22 R526; codes of 01 R34). -/
def sysMode (s : State) : Nat :=
  match s.power.mode with
  | .off => 0
  | .rind => 1
  | .sequence => 2
  | .calibrate => 3
  | .drain => 11
  | .scan => 9
  | m =>
    if s.resil.contain ≠ 0 then 10
    else if s.dbg.path ≠ 0 ∧ 0 < s.dbg.level then 8
    else if s.live.patchMode then 7
    else match m with
      | .deepDoze => 6
      | .doze => 5
      | _ => 4

/-- Software runs in the modes of 01 R34's third column. -/
def softwareRuns (s : State) : Bool :=
  match s.power.mode with
  | .run | .doze | .deepDoze => true
  | _ => false

/-! ### Interrupt lines (17 R420) -/

def srcCfgOff (src : Nat) : Nat := 0x410000 + 8 * src
def setPend (src : Nat) (b : Bool) (s : State) : State :=
  { s with intc := { s.intc with pend := smPut boolDef s.intc.pend src b } }
def lineHigh (s : State) (src : Nat) : Bool := smGet boolDef s.intc.lines src
def isActive (s : State) (src : Nat) : Bool := smGet boolDef s.intc.act src
def isLevel (s : State) (src : Nat) : Bool := decide (src < 256) && (reg s (srcCfgOff src)).getLsbD 29
/-- A level source is pending while its line is high and it is not active; any other source while its bit is set. -/
def isPending (s : State) (src : Nat) : Bool :=
  if isLevel s src then lineHigh s src && !isActive s src else smGet boolDef s.intc.pend src
/-- A rising edge sets PENDING of an edge source. -/
def setLine (src : Nat) (high : Bool) (s : State) : State :=
  let s1 := if high && !lineHigh s src && !isLevel s src then setPend src true s else s
  { s1 with intc := { s1.intc with lines := smPut boolDef s1.intc.lines src high } }
/-- An edge on a wired source. -/
def pulse (src : Nat) (s : State) : State := setLine src false (setLine src true s)
/-- Raise a message-signalled source: merges into a pending one. -/
def raiseMsg (src : Nat) (s : State) : State := setPend src true s

/-- Set a bit the mailbox reports (24 R587). [DESIGN CHOICE, log entry 85] -/
def alert (i : Nat) (s : State) : State :=
  { s with pads := { s.pads with alerts := s.pads.alerts ||| BitVec.ofNat 6 (2 ^ i) } }

/-- Note a change of `SYS_MODE` (24 R587 bit 4). -/
def noteMode (before after : State) : State := if sysMode before = sysMode after then after else alert 4 after

/-! ### The fault log (20 R499 to R501) -/

/-- A unit of the device in a record (20 R500): kind in bits [31:24]. -/
def unitWord (kind n : Nat) : Nat := kind * 2 ^ 24 + n % 2 ^ 24
def uCore (pc : Nat) : Nat := unitWord 0 pc
def uL2 (pc : Nat) : Nat := unitWord 1 pc
def uHome (n : Nat) : Nat := unitWord 2 n
def uHmc (n : Nat) : Nat := unitWord 3 n
def uDmc (n : Nat) : Nat := unitWord 4 n
def uSop (n : Nat) : Nat := unitWord 5 n
def uPort (n : Nat) : Nat := unitWord 6 n
def uPcie (n : Nat) : Nat := unitWord 7 n
def uPair (n : Nat) : Nat := unitWord 8 n
def uRind : Nat := unitWord 9 0
def uTile (n : Nat) : Nat := unitWord 10 n
def uDevice : Nat := unitWord 11 0

/-- The island of a unit, named by one unit of it (01 R22): homes belong to their tile's fabric, pipelines and pairs to their I/O tile. -/
def islandUnit (u : Nat) : Nat :=
  let n := u % 2 ^ 24
  match u / 2 ^ 24 with
  | 2 => uTile (n / 32)
  | 5 => uSop (n / 4 * 4)
  | 8 => uPair (n / 2 * 2)
  | _ => u
/-- Do the bridges treat the island of a unit as absent (01 R24)? Nothing is accepted for it. -/
def islandSilent (s : State) (u : Nat) : Bool := s.resil.silent.any fun v => islandUnit v == islandUnit u

/-- Is the code one of the memory kinds (20 R501), whose layout is that of 11 R295? -/
def isMemKind (kind : Nat) : Bool := decide (0x100 ≤ kind ∧ kind < 0x200)

/-- The record of 20 R500. [DEDUCED, log entry 92] -/
def record (kind cls count unit : Nat) (lcore : Option Nat) (arg0 arg1 now : Nat) : List Byte :=
  bytesOfNat kind 2 ++ bytesOfNat cls 1 ++ bytesOfNat count 1 ++ bytesOfNat unit 4 ++
    bytesOfNat (match lcore with | some n => 2 ^ 31 + n % 512 | none => 0) 4 ++
    bytesOfNat arg0 8 ++ bytesOfNat arg1 8 ++ bytesOfNat (now / 2 ^ 12) 4

/-- One more event merged into a record: its COUNT saturates at 255. [DEDUCED, log entry 92] -/
def mergeCount (at_ : Nat) (r : List Byte) : List Byte :=
  r.set at_ (let c := r.getD at_ 0; if c = 255 then c else c + 1)

/-- After 0xFFFF_FFFF the sequence continues at 1 (20 R499). -/
def nextSeq (n : Nat) : Nat := if n ≥ 0xFFFFFFFF then 1 else n + 1

/-- Write an entry of the ring: newest first, 4,096 at most (20 R499); the notices of 20 R498 and 24 R587 follow. -/
def addEntry (kind cls : Nat) (rec : List Byte) (s : State) : State :=
  let seq := nextSeq s.resil.logSeq
  let e : LogEntry := { seq := seq, record := rec, timeHi := BitVec.ofNat 32 (nowNs s / 2 ^ 44), boot := s.resil.boot }
  let s1 : State := { s with resil := { s.resil with log := (e :: s.resil.log).take 4096, logSeq := seq } }
  let s2 := if 2 ≤ cls then alert 2 (pulse 144 s1) else s1
  if kind = 7 ∨ kind = 9 ∨ kind = 0xD then pulse 151 s2 else s2

/-- Where a class 0 record of the same kind and unit was written within the last second (20 R500). [PRESUMED, log entry 90] -/
def mergeTarget (kind unit : Nat) (s : State) : Option Nat :=
  (s.resil.merged.find? fun m => decide (m.1 = kind ∧ m.2.1 = unit ∧ nowNs s < m.2.2.1 + 1000000000)).map fun m => m.2.2.2

/-- Write a record, or merge it where its class is 0. [DEDUCED, log entry 92] -/
def logRecord (kind cls unit : Nat) (countAt : Nat) (rec : List Byte) (s : State) : State :=
  if cls = 0 then
    match mergeTarget kind unit s with
    | some seq =>
      { s with resil := { s.resil with log := s.resil.log.map fun e =>
          if e.seq = seq then { e with record := mergeCount countAt e.record } else e } }
    | none =>
      let s1 := addEntry kind cls rec s
      { s1 with resil := { s1.resil with
          merged := (kind, unit, nowNs s, s1.resil.logSeq) ::
            s1.resil.merged.filter fun m => decide (¬(m.1 = kind ∧ m.2.1 = unit)) } }
  else addEntry kind cls rec s

/-- Write a record of the layout of 20 R500. -/
def logFault (kind cls unit : Nat) (lcore : Option Nat) (arg0 arg1 : Nat) (s : State) : State :=
  logRecord kind cls unit 3 (record kind cls 1 unit lcore arg0 arg1 (nowNs s)) s

/-- What a memory record names beside its kind (11 R295). -/
structure MemPlace where
  unit : Nat
  flags : Nat := 0
  pa : Nat := 0
  place : Nat := 0
  rank : Nat := 0
  bank : Nat := 0
  row : Nat := 0
  col : Nat := 0
  symbols : Nat := 0

/-- CLASS of a memory kind (20 R501). -/
def memClass (kind : Nat) : Nat := ([0, 3, 2, 1, 1, 1, 1, 1, 1, 5, 5, 0, 5, 0, 1] : List Nat).getD (kind - 0x100) 0

/-- The record of 11 R295. -/
def memRecord (kind : Nat) (p : MemPlace) (now : Nat) : List Byte :=
  bytesOfNat kind 2 ++ bytesOfNat p.unit 1 ++ bytesOfNat (p.flags + 8 * memClass kind) 1 ++ bytesOfNat (p.pa / 64) 7 ++ [0] ++
    bytesOfNat p.place 1 ++ bytesOfNat p.rank 1 ++ bytesOfNat p.bank 1 ++ [1] ++ bytesOfNat p.row 3 ++ bytesOfNat p.col 1 ++
    bytesOfNat p.symbols 5 ++ [0, 0, 0] ++ bytesOfNat (now / 2 ^ 12) 4

/-- Errors at one line merge, records that name no line by their controller (11 R289; 20 R500). A line written poisoned is a visible loss
(20 R498). -/
def logMem (kind : Nat) (p : MemPlace) (s : State) : State :=
  let s1 := logRecord kind (memClass kind) (if p.pa = 0 then p.unit else 2 ^ 32 + p.pa / 64) 15 (memRecord kind p (nowNs s)) s
  if p.flags % 2 = 1 then pulse 151 s1 else s1

/-- One step of the reflected CRC-32 of IEEE 802.3. [PRESUMED, log entry 90] -/
def crcStep (c : BitVec 32) : Nat → BitVec 32
  | 0 => c
  | n + 1 => crcStep (if c.getLsbD 0 then (c >>> 1) ^^^ 0xEDB88320#32 else c >>> 1) n
/-- The CRC-32 over bytes (20 R499 CHECK). [PRESUMED, log entry 90] -/
def crc32 (bs : List Byte) : BitVec 32 := ~~~ (bs.foldl (fun c b => crcStep (c ^^^ b.setWidth 32) 8) (BitVec.allOnes 32))

/-- The 48 bytes of an entry (20 R499). -/
def entryBytes (e : LogEntry) : List Byte :=
  let b := e.record ++ bytesOfNat e.seq 4 ++ bytesOfNat e.timeHi.toNat 4 ++ bytesOfNat e.boot.toNat 4
  b ++ bytesOfNat (crc32 b).toNat 4

/-- The entry whose ring place is `n` (20 R502). [PRESUMED, log entry 90] -/
def logSlot (s : State) (n : Nat) : Option LogEntry := s.resil.log.find? fun e => e.seq % 4096 == n

end Sys2Proof.Machine
end

