-- ==== Sys2Proof/Machine/Region.lean ====
section
/-! DEFINITION. The physical address map: regions, backing and accepted accesses (01 R27 to R33), the decoding of HBM and DDR
addresses (11 R275 to R279), and the home of a line (10 R247). -/

namespace Sys2Proof.Machine

/-- The regions of 01 R27. -/
inductive Zone
  | hbm | ddr | posting | mmio | scratch | control
deriving DecidableEq, Repr

/-- Where a physical address lies: its region, its slot, its offset from the region's base there. -/
structure Place where
  region : Zone
  slot : Nat
  off : Nat
deriving DecidableEq, Repr

def hbmSize : Nat := 0x5A00000000
def ddrBase : Nat := 0x10000000000
def postingBase : Nat := 0xB000000000000
def mmioBase : Nat := 0xC000000000000
def scratchBase : Nat := 0xE000000000000
def controlBase : Nat := 0xF000000000000

/-- The slot and offset within a per-slot region of the given base and size. -/
def inSlots (r : Zone) (base size pa : Nat) : Option Place :=
  if base ≤ pa ∧ pa < base + 4 * size then some ⟨r, (pa - base) / size, (pa - base) % size⟩ else none

/-- The place of a physical address; none where it lies in no region (01 R27). -/
def placeOf (pa : Nat) : Option Place :=
  if pa < 4 * 2 ^ 44 then
    if pa % 2 ^ 44 < hbmSize then some ⟨.hbm, pa / 2 ^ 44, pa % 2 ^ 44⟩
    else if ddrBase ≤ pa % 2 ^ 44 ∧ pa % 2 ^ 44 < ddrBase + 2 ^ 42 then some ⟨.ddr, pa / 2 ^ 44, pa % 2 ^ 44 - ddrBase⟩
    else none
  else
    (inSlots .posting postingBase 0x10000000 pa).orElse fun _ =>
    (inSlots .mmio mmioBase 0x20000000000 pa).orElse fun _ =>
    (inSlots .scratch scratchBase 0x1000000000 pa).orElse fun _ =>
    inSlots .control controlBase 0x1000000000 pa

/-- The windows of the own slot, and of a joined device's slot (01 R28). [DEDUCED, log entry 22] -/
def slotBacked (s : State) (d : Nat) : Bool := d == slotOf s || s.links.peers.getLsbD d

/-- Bands and sectors of 11 R275. -/
def bandSize : Nat := 0x168000000
def bandOf (o : Nat) : Nat := o / bandSize
def hmcSecOff (n j : Nat) : Nat := 0x2000100 + 0x100000 * n + 4 * j
def ctlDef (_ : Nat) : MemCtl := {}
def memCtl (s : State) (u : Nat) : MemCtl := smGet ctlDef s.mem.ctls u
def setMemCtl (u : Nat) (c : MemCtl) (s : State) : State := { s with mem := { s.mem with ctls := smPut ctlDef s.mem.ctls u c } }
/-- A sector runs in all eight controllers with one MODE (11 R279). -/
def sectorRuns (s : State) (j : Nat) : Bool :=
  (List.range 8).all fun n => !(memCtl s n).stopped.getLsbD j && (reg s (hmcSecOff n j)).getLsbD 0 == (reg s (hmcSecOff 0 j)).getLsbD 0

/-- The stack of an HBM offset and the offset within it: LOCAL or SPREAD (11 R275). -/
def hbmDecode (s : State) (o : Nat) : Nat × Nat :=
  let b := bandOf o
  let j := b / 8
  if (reg s (hmcSecOff 0 j)).getLsbD 0 then
    let q := o - 8 * j * bandSize
    let p := q / 4096
    (p % 8, j * bandSize + p / 8 * 4096 + q % 4096)
  else (b % 8, j * bandSize + o % bandSize)

/-- The pseudo-channel, bank, row and byte of a stack offset (11 R276). -/
structure HbmLoc where
  pc : Nat
  bank : Nat
  row : Nat
  byte : Nat
deriving DecidableEq, Repr
def hbmLoc (so : Nat) : HbmLoc :=
  let u := so / 2 ^ 13 * 256 + so % 256
  { pc := natBits so 12 8 ^^^ natBits so 17 13, bank := natBits u 15 10, row := u / 2 ^ 16, byte := u % 1024 }

/-- The channel, DIMM and DIMM offset of a DDR offset (11 R277). -/
def ddrChannel (s : State) (o : Nat) : Nat :=
  let k := Nat.log2 s.mem.ddrChannels.length
  let p := o / 4096
  s.mem.ddrChannels.getD ((p % 2 ^ k) ^^^ (p / 2 ^ k % 2 ^ k)) 0
def ddrDimm (s : State) (o : Nat) : Nat × Nat :=
  let k := Nat.log2 s.mem.ddrChannels.length
  let c := o / 4096 / 2 ^ k
  if s.mem.dimmsPerCh = 2 then (c % 2, c / 2 * 4096 + o % 4096) else (0, c * 4096 + o % 4096)

/-- The DIMMs in service, their number, their pages, and each one's pages of the reserve (11 R293). -/
def dimmsIn (s : State) : List (Nat × Nat) := s.mem.ddrChannels.flatMap fun c => (List.range s.mem.dimmsPerCh).map fun d => (c, d)
def dimmCount (s : State) : Nat := max 1 (s.mem.ddrChannels.length * s.mem.dimmsPerCh)
def dimmPages (s : State) : Nat := s.mem.ddrGib * 2 ^ 18 / dimmCount s
def reservePages (s : State) : Nat := s.mem.reserveTotal * 256 / dimmCount s
/-- A DIMM retired as a whole. -/
def dimmGone (s : State) (c d : Nat) : Bool := (memCtl s (8 + c)).retired.any fun r => r.dimm == d && r.rank.isNone && r.done
/-- Where the copy of a retirement puts a page of its unit: in ascending order, to the other DIMMs in turn, in the reserve from its top
(11 R293). A reserve page that was in use follows the others. [DESIGN CHOICE, log entry 99] -/
def copiedTo (s : State) (c : Nat) (r : Retirement) (g : Nat) : Option ((Nat × Nat) × Nat) :=
  let k := s.mem.rankLog2
  let mine := match r.rank with
    | none => true
    | some n => g / 128 % 2 ^ k == n
  let x := match r.rank with
    | none => g
    | some _ => g / (128 * 2 ^ k) * 128 + g % 128
  let cut (n : Nat) : Nat := match r.rank with | none => n | some _ => n / 2 ^ k
  let low := cut (dimmPages s - reservePages s)
  let i := if x < low then x else low + (cut (dimmPages s) - 1 - x)
  let others := (dimmsIn s).filter fun e => e != (c, r.dimm)
  if mine && decide (i < 256 * r.pointer) && !others.isEmpty then
    some (others.getD (i % others.length) (c, r.dimm), dimmPages s - 1 - (r.base + i / others.length))
  else none
/-- The channel, DIMM and DIMM offset that hold a place, behind the redirections of its home's decoder (11 R293); a chain has at most one
link for each of 16 units. -/
def redirect (s : State) : Nat → Nat → Nat → Nat → Nat × Nat × Nat
  | 0, c, d, o => (c, d, o)
  | n + 1, c, d, o =>
    match (((memCtl s (8 + c)).retired.filter fun r => r.dimm == d).filterMap fun r => copiedTo s c r (o / 4096)).head? with
    | some x => redirect s n x.1.1 x.1.2 (x.2 * 4096 + o % 4096)
    | none => (c, d, o)
/-- Where a DDR offset is held (11 R277, R293). -/
def ddrPlace (s : State) (o : Nat) : Nat × Nat × Nat :=
  let d := ddrDimm s o
  redirect s 16 (ddrChannel s o) d.1 d.2

/-- The place of a DIMM offset (11 R278). -/
structure DdrLoc where
  sub : Nat
  bank : Nat
  col : Nat
  rank : Nat
  row : Nat
deriving DecidableEq, Repr
def ddrLoc (r d : Nat) : DdrLoc :=
  let row := d / 2 ^ (19 + r)
  { sub := natBits d 6 6, bank := (natBits d 9 7 ^^^ natBits row 2 0) * 4 + (natBits d 11 10 ^^^ natBits row 4 3),
    col := natBits d 18 12, rank := d / 2 ^ 19 % 2 ^ r, row := row }

/-- The controller that serves a line of the own slot's memory: 0 to 7 HMC, 8 to 15 DMC. -/
def ctlOf (s : State) (pa : Nat) : Option Nat :=
  match placeOf pa with
  | some p =>
    match p.region with
    | .hbm => some (hbmDecode s p.off).1
    | .ddr => some (8 + (ddrPlace s p.off).1)
    | _ => none
  | none => none


def privDef (_ : Nat) : PrivCaches := {}
def priv (s : State) (pc : Nat) : PrivCaches := smGet privDef s.mem.priv pc
def setPriv (pc : Nat) (c : PrivCaches) (s : State) : State := { s with mem := { s.mem with priv := smPut privDef s.mem.priv pc c } }
def sliceDef (_ : Nat) : Slice := {}
def slice (s : State) (n : Nat) : Slice := smGet sliceDef s.mem.slices n
def setSlice (n : Nat) (c : Slice) (s : State) : State := { s with mem := { s.mem with slices := smPut sliceDef s.mem.slices n c } }

/-- Scratchpad ways of an L2 and of a slice (01 R32). -/
def l2SpWays (s : State) (lc : Nat) : Nat := countOnes (priv s (pcOf s lc)).spMask 16
def l3SpWays (s : State) (n : Nat) : Nat := countOnes (slice s n).spMask 16

/-- The unit of an aperture offset: an L3 slice or a logical core's L2, and the offset within its range (01 R32). -/
def scratchUnit (off : Nat) : Option (Bool × Nat × Nat) :=
  if off < 0x20000000 then some (false, off / 0x200000, off % 0x200000)
  else if 0x40000000 ≤ off ∧ off < 0x60000000 then some (true, (off - 0x40000000) / 0x100000, off % 0x100000)
  else none

/-- Is an aperture offset of the own slot backed (01 R32)? -/
def scratchBacked (s : State) (off : Nat) : Bool :=
  match scratchUnit off with
  | some (false, n, o) => decide (o < l3SpWays s n * 0x40000)
  | some (true, lc, o) => bound s lc && decide (o < l2SpWays s lc * 0x10000)
  | none => false

/-- Is a physical address backed (01 R27, R28, R32; 11 R274, R279)? What another slot's device has installed is not known here;
its whole window counts as backed while it is joined. -/
def backed (s : State) (pa : Nat) : Bool :=
  match placeOf pa with
  | none => false
  | some p =>
    slotBacked s p.slot &&
    match p.region with
    | .hbm => p.slot != slotOf s || sectorRuns s (bandOf p.off / 8)
    | .ddr => p.slot != slotOf s || decide (p.off < s.mem.ddrGib * 2 ^ 30)
    | .posting => true
    | .mmio => true
    | .scratch => p.slot != slotOf s || scratchBacked s p.off
    | .control => true

/-- The columns of the table *Access by region* (01 R30). -/
inductive AccessKind
  | fetch | load | store | amo | block | sdc | sdcRead | queue | dma | office
deriving DecidableEq, Repr

/-- The table *Access by region* (01 R30). -/
def regionTakes (r : Zone) (k : AccessKind) : Bool :=
  match r, k with
  | .hbm, .sdc | .hbm, .sdcRead | .hbm, .queue => false
  | .ddr, .sdc | .ddr, .sdcRead | .ddr, .queue => false
  | .hbm, _ | .ddr, _ => true
  | .posting, .queue => true
  | .posting, _ => false
  | .mmio, .load | .mmio, .store | .mmio, .dma => true
  | .mmio, _ => false
  | .scratch, .load | .scratch, .store | .scratch, .amo | .scratch, .block | .scratch, .office => true
  | .scratch, _ => false
  | .control, .load | .control, .sdc | .control, .sdcRead => true
  | .control, _ => false

/-- Backed, and of a region that takes the access (01 R29). -/
def regionOk (s : State) (pa : Nat) (k : AccessKind) : Bool :=
  backed s pa && match placeOf pa with
    | some p => regionTakes p.region k
    | none => false

/-- Is it memory with a home: HBM or DDR? -/
def isMemory (pa : Nat) : Bool :=
  match placeOf pa with
  | some p => decide (p.region = .hbm ∨ p.region = .ddr)
  | none => false

/-- Control space and PCIe MMIO are treated as MT 2 (04 R99). -/
def forcedMt2 (pa : Nat) : Bool :=
  match placeOf pa with
  | some p => decide (p.region = .control ∨ p.region = .mmio)
  | none => false

/-- The line hash of 10 R247. -/
def lineHash (line : Nat) : Nat :=
  natBits line 7 0 ^^^ natBits line 15 8 ^^^ natBits line 23 16 ^^^ natBits line 31 24 ^^^ natBits line 39 32 ^^^ natBits line 45 40

/-- The slot of the other device that homes a line (10 R247, R263). -/
def remoteSlot (s : State) (line : Nat) : Option Nat :=
  match placeOf (64 * line) with
  | some p => if p.slot = slotOf s then none else some p.slot
  | none => none

/-- The home node of a line of HBM or DDR of the own slot (10 R247); for another slot's line the node of its proxy entry (R263). -/
def homeOf (s : State) (line : Nat) : Nat :=
  let h := lineHash line
  match placeOf (64 * line) with
  | some p => if p.region = .hbm ∧ p.slot = slotOf s then 32 * (hbmDecode s p.off).1 + (h % 32 ^^^ h / 32) else h
  | none => h

/-- The L3 set of a line, which the directory shares (09 R226, 10 R255). -/
def l3Set (line : Nat) : Nat := natBits line 11 0 ^^^ natBits line 23 12

end Sys2Proof.Machine
end

