-- ==== Sys2Proof/Machine/Coherence.lean ====
section
/-! DEFINITION. Caches and coherence: placement and replacement (09 R226 to R232), the L2 states and their snoops (10 R249 to
R252), the home node's actions, directory and ordering (R253 to R260). -/

namespace Sys2Proof.Machine

def optDef {α : Type} (_ : Nat) : Option α := none

/-- The logical core a physical core is bound to (01 R16). -/
def lcOfPc (s : State) (pc : Nat) : Option Nat :=
  match s.resil.lcMap.find? fun e => decide (e.2 = some pc) with
  | some (lc, _) => some lc
  | none =>
    let lc := pc / 72 * 64 + pc % 72
    if pc % 72 < 64 ∧ (s.resil.lcMap.find? fun e => e.1 == lc).isNone then some lc else none

/-- The cache enables the keeper carries for the logical core on a physical core (09 R237). -/
def l2On (s : State) (pc : Nat) : Bool := match lcOfPc s pc with | some lc => (coreOf s lc).enableL2 | none => true
def l1dOn (s : State) (pc : Nat) : Bool := match lcOfPc s pc with | some lc => (coreOf s lc).enableL1D | none => true
def l1iOn (s : State) (pc : Nat) : Bool := match lcOfPc s pc with | some lc => (coreOf s lc).enableL1I | none => true

/-- The candidate ways: neither retired nor converted (09 R229). -/
def candWays (ways : Nat) (out : BitVec 16) : List Nat := (List.range ways).filter fun w => !out.getLsbD w

/-! ### The LFSRs (09 R228) -/

/-- One cycle of an LFSR of the polynomial x^32 + x^22 + x^2 + x + 1 (09 R228). [DESIGN CHOICE, log entry 16] -/
def lfsrNext (x : BitVec 32) : BitVec 32 :=
  (x <<< 1) ||| (if xor (xor (x.getLsbD 31) (x.getLsbD 21)) (xor (x.getLsbD 1) (x.getLsbD 0)) then 1 else 0)
def lfsrRun : Nat → BitVec 32 → BitVec 32
  | 0, x => x
  | n + 1, x => lfsrRun n (lfsrNext x)
/-- The LFSRs by number: the L1I, L1D and L2 of a physical core, its core LFSR, and that of a slice. -/
def lfsrL1I (pc : Nat) : Nat := pc
def lfsrL1D (pc : Nat) : Nat := 576 + pc
def lfsrL2 (pc : Nat) : Nat := 1152 + pc
def lfsrCore (pc : Nat) : Nat := 1728 + pc
def lfsrSlice (n : Nat) : Nat := 2304 + n
/-- An LFSR as it was last seen: where CALIBRATE seeded it (09 R228), never zero. -/
def lfsrOf (s : State) (k : Nat) : BitVec 32 :=
  match smGet optDef s.mem.lfsrs k with
  | some x => x
  | none => let x := Config.lfsrSeed s.mem.lfsrBase k; if x = 0 then 1 else x
/-- An LFSR at a choice: it has advanced once in each cycle of its island, an open number of them. [DESIGN CHOICE, log entry 16] -/
def drawLfsr (k : Nat) (s : State) : BitVec 32 × State :=
  let n := drawCount s
  let x := lfsrRun n.1.toNat (lfsrOf s k)
  (x, { n.2 with mem := { n.2.mem with lfsrs := smPut optDef n.2.mem.lfsrs k (some x) } })
/-- The victim among `m` candidates (09 R229). -/
def lfsrPick (x : BitVec 32) (m : Nat) : Nat := fld x 15 0 * m / 65536

/-- Placement (09 R229): the lowest candidate way with no valid line, else the way the LFSR numbered `k` names. -/
def pickWay {α : Type} (k : Nat) (tbl : SMap (Option α)) (set ways : Nat) (cand : List Nat) (s : State) : Option Nat × State :=
  match cand with
  | [] => (none, s)
  | _ =>
    match cand.find? fun w => (smGet optDef tbl (set * ways + w)).isNone with
    | some w => (some (set * ways + w), s)
    | none =>
      let d := drawLfsr k s
      (some (set * ways + cand.getD (lfsrPick d.1 cand.length) 0), d.2)

def findLine (tbl : SMap (Option L2Line)) (line : Nat) : Option (Nat × L2Line) :=
  tbl.findSome? fun e => match e.2 with
    | some l => if l.line = line then some (e.1, l) else none
    | none => none
def dropLine (tbl : SMap (Option L2Line)) (line : Nat) : SMap (Option L2Line) :=
  tbl.filter fun e => match e.2 with
    | some l => decide (l.line ≠ line)
    | none => true

/-- The copy an enabled L2 holds. -/
def l2Copy (s : State) (pc line : Nat) : Option (Nat × L2Line) := if l2On s pc then findLine (priv s pc).l2 line else none

/-- Remove a line from the L2 and, in the same step, from the enabled L1s (09 R227). -/
def dropL2 (pc line : Nat) (s : State) : State :=
  let p := priv s pc
  setPriv pc { p with l2 := dropLine p.l2 line, l1d := if l1dOn s pc then dropLine p.l1d line else p.l1d,
                      l1i := if l1iOn s pc then dropLine p.l1i line else p.l1i } s

def putL2 (pc slot : Nat) (l : L2Line) (s : State) : State :=
  let p := priv s pc
  setPriv pc { p with l2 := smPut optDef p.l2 slot (some l) } s

/-- A copy whose content differs from the coherent contents (09 R236) becomes the coherent contents where it is handed on.
[DEDUCED, log entry 21] -/
def exposeStale (line : Nat) (st : Option Vec) (s : State) : State :=
  match st with
  | some v => writeBytes (64 * line) (bytesOf v 64) s
  | none => s

/-! ### The L3 slice (09 R230 to R232) -/

def findL3 (sl : Slice) (line : Nat) : Option (Nat × L3Line) :=
  sl.l3.findSome? fun e => match e.2 with
    | some l => if l.line = line then some (e.1, l) else none
    | none => none
/-- The copy an enabled slice holds. -/
def l3Copy (s : State) (h line : Nat) : Option (Nat × L3Line) :=
  if (slice s h).enabled && !(slice s h).removed then findL3 (slice s h) line else none
def dropL3 (h line : Nat) (s : State) : State :=
  if (slice s h).enabled && !(slice s h).removed then
    setSlice h { slice s h with l3 := (slice s h).l3.filter fun e => match e.2 with
      | some l => decide (l.line ≠ line)
      | none => true } s
  else s
def putL3 (h slot : Nat) (l : L3Line) (s : State) : State :=
  setSlice h { slice s h with l3 := smPut optDef (slice s h).l3 slot (some l) } s

def hnBase (h : Nat) : Nat := 0x1000000 + 0x10000 * h
def hnCnt (h which : Nat) (s : State) : State := bump (hnBase h + 0x20 + 8 * which) s
def cntReq : Nat := 0
def cntSnoop : Nat := 1
def cntDirevict : Nat := 2
def cntL3hit : Nat := 3
def cntDecline : Nat := 4
def cntFamo : Nat := 5
def cntRemote : Nat := 6
def cntWbdrop : Nat := 7

/-- Ways of a slice that receive lines: neither retired, nor converted, nor being retired (09 R229, R244). -/
def sliceWays (sl : Slice) : List Nat := (candWays 16 (sl.retired ||| sl.spMask)).filter fun w => sl.retiring != some w

/-- Offer an evicted line to its slice, which accepts or declines it at once (09 R231); the line of another slot has its slice on the
other device (10 R247). -/
def offerL3 (h line : Nat) (dirty : Bool) (s : State) : State :=
  let sl := slice s h
  if (remoteSlot s line).isSome then s
  else if !sl.enabled || sl.removed then (if dirty then s else hnCnt h cntDecline s)
  else
    match findL3 sl line with
    | some (slot, _) => if dirty then putL3 h slot { line := line, dirty := true, rf := true } s else s
    | none =>
      let pw := pickWay (lfsrSlice h) sl.l3 (l3Set line) 16 (sliceWays sl) s
      match pw.1 with
      | none => if dirty then s else hnCnt h cntDecline s
      | some slot =>
        let ok := dirty || match smGet optDef sl.l3 slot with
          | none => true
          | some v => !v.dirty && !v.rf
        if ok then putL3 h slot { line := line, dirty := dirty, rf := true } pw.2 else hnCnt h cntDecline pw.2

/-- A line placed in its slice for its own sake, by `PRFM` kind 3 (09 R230); a disabled or removed slice does nothing (R235). -/
def placeL3 (h line : Nat) (s : State) : State :=
  let sl := slice s h
  if (remoteSlot s line).isSome || !sl.enabled || sl.removed || (findL3 sl line).isSome then s
  else
    let pw := pickWay (lfsrSlice h) sl.l3 (l3Set line) 16 (sliceWays sl) s
    match pw.1 with
    | some slot => putL3 h slot { line := line, dirty := false, rf := true } pw.2
    | none => s

/-! ### Coherent messages to other devices (10 R263; 15 R377, R378) -/

/-- A message for the device in a slot; the link layer takes it while the pair is joined. -/
def cohSend (slot : Nat) (k : CohKind) (line : Nat) (tc : BitVec 2) (data : Option Vec) (s : State) : State :=
  { s with links := { s.links with cohOut := s.links.cohOut ++ [{ slot := slot, kind := k, line := line, tc := tc, data := data }] } }
/-- A device of the device vector stands among owners and snooped holders under a number no physical core has. -/
def devOwner (e : Nat) : Nat := 600 + e
/-- The answer of another device to a snoop: whether its copy was newer than memory is open here. [DESIGN CHOICE, log entry 96] -/
def snoopDev (p line : Nat) (k : SnoopKind) (s : State) : SnoopAnswer × State :=
  let d := drawWord s
  let dirty := decide (k ≠ .inv) && d.1.getLsbD 0
  ({ pc := p, line := line, had := true, dirty := dirty, evicting := false, data := dirty }, d.2)

/-! ### The directory (10 R255 to R257) -/

def findDir (s : State) (h line : Nat) : Option (Nat × DirEntry) :=
  (slice s h).dir.findSome? fun e => match e.2 with
    | some d => if d.line = line then some (e.1, d) else none
    | none => none
def putDir (h slot : Nat) (d : Option DirEntry) (s : State) : State :=
  setSlice h { slice s h with dir := smPut optDef (slice s h).dir slot d } s

/-- The L2s of the groups a sharer vector names (10 R256). -/
def groupPcs (v : BitVec 72) : List Nat :=
  (List.range 72).flatMap fun j => if v.getLsbD j then (List.range 8).map fun i => 8 * j + i else []
def groupBit (pc : Nat) : BitVec 72 := BitVec.ofNat 72 (2 ^ (pc / 8))

/-- An L2's answer to a snoop, and its new state (10 R252); a line in the transit buffer answers as in its state at eviction
(R259). -/
def snoopState (k : SnoopKind) (st : LineState) : Option LineState :=
  match k, st with
  | .shared, .m | .shared, .o => some .o
  | .shared, _ => some .s
  | .unique, _ | .inv, _ => none
  | .read, x => some x
  | .clean, .m => some .e
  | .clean, .o => some .s
  | .clean, x => some x
/-- Data newer than memory comes back with every snoop but SnpInv. -/
def snoopDirty (k : SnoopKind) (st : LineState) : Bool :=
  match k with
  | .inv => false
  | _ => decide (st = .m ∨ st = .o)

/-- Answers that return the line (10 R252): a shared copy never does, an exclusive one does but for SnpClean. -/
def snoopData (k : SnoopKind) (st : LineState) : Bool :=
  match k, st with
  | .inv, _ | _, .s | .clean, .e => false
  | _, _ => true

def transitOf (s : State) (pc line : Nat) : Option Transit := (priv s pc).transit.find? fun t => t.line == line
/-- A grant on its way: it took effect with the directory update (10 R253), so that the L2 stands in the granted state. -/
def grantOf (s : State) (pc line : Nat) : Option Grant := s.mem.grants.find? fun g => g.pc == pc && g.line == line
/-- The state in which an L2 holds a line. -/
def l2State (s : State) (pc line : Nat) : Option LineState :=
  match grantOf s pc line with
  | some g => some g.st
  | none => (l2Copy s pc line).map fun x => x.2.st

/-- An L2 with a grant on its way answers as in the granted state, and the grant changes as its line does. -/
def snoopGrant (g : Grant) (k : SnoopKind) (s : State) : SnoopAnswer × State :=
  let s1 := if snoopDirty k g.st then exposeStale g.line g.stale s else s
  let s2 : State := match snoopState k g.st with
    | some st =>
      let g1 := { g with st := st, stale := if snoopDirty k g.st then none else g.stale }
      { s1 with mem := { s1.mem with grants := s1.mem.grants.replace g g1 } }
    | none => dropL2 g.pc g.line { s1 with mem := { s1.mem with grants := s1.mem.grants.erase g } }
  ({ pc := g.pc, line := g.line, had := true, dirty := snoopDirty k g.st, evicting := false, data := snoopData k g.st }, s2)

def snoopCopy (pc line : Nat) (k : SnoopKind) (s : State) : SnoopAnswer × State :=
  match l2Copy s pc line with
  | some (slot, l) =>
    let s1 := if snoopDirty k l.st then exposeStale line l.stale s else s
    let s2 := match snoopState k l.st with
      | some st => putL2 pc slot { l with st := st, stale := if snoopDirty k l.st then none else l.stale } s1
      | none => dropL2 pc line s1
    ({ pc := pc, line := line, had := true, dirty := snoopDirty k l.st, evicting := false, data := snoopData k l.st }, s2)
  | none =>
    match transitOf s pc line with
    | some t => ({ pc := pc, line := line, had := true, dirty := snoopDirty k t.st, evicting := true, data := snoopData k t.st }, s)
    | none => ({ pc := pc, line := line, had := false, dirty := false, evicting := false }, s)
def islandDef (_ : Nat) : IslandState := .active
def setIsland (i : Nat) (x : IslandState) (s : State) : State := { s with power := { s.power with islands := smPut islandDef s.power.islands i x } }
/-- The L2 sub-island of a physical core. -/
def l2Island (pc : Nat) : Nat := 1000 + pc
/-- A snoop is served after the return of an L2 sub-island that sleeps (22 R530). -/
def wakeL2 (pc : Nat) (s : State) : State :=
  match smGet islandDef s.power.islands (l2Island pc) with
  | .gated | .retain => setIsland (l2Island pc) .active s
  | _ => s
/-- A snoop at an L2, or at another device, which delivers it to the L2s there (10 R252, R263). -/
def snoopL2 (pc line : Nat) (k : SnoopKind) (s : State) : SnoopAnswer × State :=
  if 600 ≤ pc then snoopDev pc line k s
  else
    let s1 := wakeL2 pc s
    match grantOf s1 pc line with
    | some g => snoopGrant g k s1
    | none => snoopCopy pc line k s1
/-- The snoops for other devices leave as coherent messages. -/
def sendSnoops (line : Nat) (sn : List (Nat × SnoopKind)) (s : State) : State :=
  sn.foldl (fun a x => if 600 ≤ x.1 then cohSend (x.1 - 600) (.snoop x.2) line 0 none a else a) s
/-- The devices a device vector names, but the owner and one left out. -/
def devHolders (devs : BitVec 4) (owner : Option Nat) (but : Nat) : List Nat :=
  ((List.range 4).map devOwner).filter fun p => devs.getLsbD (p - 600) && decide (owner ≠ some p ∧ p ≠ but)

/-- Evict the entry of a full directory set (10 R257): its owner and holders are invalidated, dirty data offered to the slice. -/
def evictDir (h slot : Nat) (d : DirEntry) (s : State) : State :=
  let own := d.owner.toList.map fun p => (p, SnoopKind.unique)
  let oth := (groupPcs d.sharers ++ devHolders d.devs d.owner 0).filterMap fun p => if d.owner = some p then none else some (p, SnoopKind.inv)
  let r := (own ++ oth).foldl (fun a pk => let x := snoopL2 pk.1 d.line pk.2 a.2; (a.1 || x.1.dirty, hnCnt h cntSnoop x.2))
    (false, sendSnoops d.line (own ++ oth) s)
  let s1 := if r.1 then offerL3 h d.line true r.2 else r.2
  hnCnt h cntDirevict (putDir h slot none s1)

/-- The slot of a line's directory entry, made if it has none (10 R255, R257). -/
def dirSlot (h line : Nat) (s : State) : Nat × State :=
  match findDir s h line with
  | some (slot, _) => (slot, s)
  | none =>
    let pw := pickWay (lfsrSlice h) (slice s h).dir (l3Set line) 18 (List.range 18) s
    let slot := pw.1.getD 0
    match smGet optDef (slice pw.2 h).dir slot with
    | some d => (slot, evictDir h slot d pw.2)
    | none => (slot, pw.2)

/-- Record a line's owner and sharers; an entry that names no L2 and no device is freed (10 R255). -/
def setDir (h line : Nat) (owner : Option Nat) (sharers : BitVec 72) (devs : BitVec 4) (s : State) : State :=
  if owner.isNone && sharers == 0 && devs == 0 then
    match findDir s h line with
    | some (slot, _) => putDir h slot none s
    | none => s
  else
    let ds := dirSlot h line s
    putDir h ds.1 (some { line := line, owner := owner, sharers := sharers, devs := devs, proxy := (remoteSlot s line).isSome }) ds.2

/-! ### The home node's actions (10 R253) -/

def dirOf (s : State) (h line : Nat) : DirEntry :=
  match findDir s h line with
  | some (_, d) => d
  | none => { line := line, owner := none, sharers := 0, devs := 0, proxy := false }

/-- Is the requester of an UPG still a holder (10 R253)? Its copy may have been invalidated while the request waited. -/
def stillHolder (s : State) (d : DirEntry) (r : Requester) : Bool :=
  match r with
  | .l2 p => (l2State s p d.line).isSome
  | .dev e => d.devs.getLsbD e
  | .agent => false

/-- The number a requester has among the holders. -/
def holderNum : Requester → Nat
  | .l2 p => p
  | .dev e => devOwner e
  | .agent => 1000

/-- The snoops of the table *Home actions*: to the owner, to the L2s of the sharer vector, to the devices of the device vector. -/
def homeSnoops (d : DirEntry) (still : Bool) (k : ReqKind) (r : Requester) : List (Nat × SnoopKind) :=
  let me := holderNum r
  let own (sk : SnoopKind) := d.owner.toList.filterMap fun p => if p = me then none else some (p, sk)
  let others := ((groupPcs d.sharers).filter (fun p => decide (p ≠ me ∧ d.owner ≠ some p)) ++ devHolders d.devs d.owner me).map
    fun p => (p, SnoopKind.inv)
  match k with
  | .rs => own .shared
  | .rnc => own .read
  | .cmoc => own .clean
  | .ru | .pw | .famo | .cmoi => own .unique ++ others
  | .fw => own .inv ++ others
  | .upg => (if still then own .inv else own .unique) ++ others
  | .wb | .evc => []

/-- Does some other L2 hold the line (the grant of RS)? One of another device may where the device vector names it. -/
def heldElsewhere (s : State) (d : DirEntry) (r : Requester) (line : Nat) : Bool :=
  ((d.owner.toList ++ groupPcs d.sharers).any fun p => decide (p ≠ holderNum r) && (l2State s p line).isSome) ||
    !(devHolders d.devs none (holderNum r)).isEmpty
/-- The owner that stays after a shared read: one that holds newer data. -/
def ownerAfterRs (s : State) (d : DirEntry) (line : Nat) : Option Nat :=
  match d.owner with
  | some o => (match l2State s o line with
    | some st => if st = .o ∨ st = .m then some o else none
    | none => none)
  | none => none
/-- The owner that stays after SnpClean: not one it left in S (10 R252, R255). -/
def ownerAfterClean (s : State) (d : DirEntry) : Option Nat :=
  match d.owner with
  | some o => if l2State s o d.line = some .s then none else some o
  | none => none

/-- The group bits that stay after an invalidation: those of groups in which an L2 was found with a copy (10 R256). -/
def keptGroups (v : BitVec 72) (found : List Nat) : BitVec 72 :=
  found.foldl (fun b p => b ||| groupBit p) 0 &&& v

/-- The content an L3 copy supplies: none where it agrees with the coherent contents. -/
def l3Stale (s : State) (h line : Nat) : Option Vec :=
  match l3Copy s h line with
  | some (_, l) => l.stale
  | none => none

/-- Perform an atomic operation at a place of memory; answers the old value (04 R113). -/
def amoCode (n : Nat) : AmoOp :=
  ([.xchg, .add, .and, .or, .xor, .maxs, .mins, .maxu, .minu, .cmpx] : List AmoOp).getD n .xchg
def amoAt (pa : Nat) (op : AmoOp) (wide : Bool) (gs gt : Word64) (s : State) : Word64 × State :=
  if wide then
    let old := BitVec.ofNat 64 (readNat s pa 8)
    (old, writeBytes pa (bytesOf (amoOp op old gs gt) 8) s)
  else
    let old := BitVec.ofNat 32 (readNat s pa 4)
    (old.setWidth 64, writeBytes pa (bytesOf (amoOp op old (gs.setWidth 32) (gt.setWidth 32)) 4) s)

/-- A request served from the L3 copy: counted; ownership takes the copy out (09 R230), an L2 read clears RF (R232). -/
def serveFromL3 (h line : Nat) (k : ReqKind) (s : State) : State :=
  match l3Copy s h line with
  | some (slot, l) =>
    let s1 := hnCnt h cntL3hit s
    (match k with
    | .ru | .upg => dropL3 h line s1
    | .rs => putL3 h slot { l with rf := false } s1
    | _ => s1)
  | none => s

/-- What the home does when every snoop has been answered (10 R253): the directory update, the L3, the write, and the grant. A
far atomic answers its old value. [DEDUCED, log entry 20] -/
def homeFinish (s : State) (q : HomeReq) : Word64 × Option Grant × State :=
  let line := q.line
  let h := homeOf s line
  let d := dirOf s h line
  let kept := keptGroups d.sharers q.found
  let src := if q.gotData then s else serveFromL3 h line q.kind s
  let stale := if q.gotData then none else l3Stale s h line
  match q.kind with
  | .rs =>
    let held := heldElsewhere s d q.req line
    -- whether L2s of other devices hold another slot's line, its home alone knows
    let x := if held || (remoteSlot s line).isNone then (held, src) else let w := drawWord src; (w.1.getLsbD 0, w.2)
    let st : LineState := if x.1 then .s else .e
    match q.req with
    | .l2 p =>
      let owner := if st = .e then some p else ownerAfterRs s d line
      (0, some { pc := p, line := line, st := st, stale := stale }, setDir h line owner (d.sharers ||| groupBit p) d.devs x.2)
    | .dev e =>
      let owner := if st = .e then some (devOwner e) else ownerAfterRs s d line
      (0, none, setDir h line owner d.sharers (d.devs ||| BitVec.ofNat 4 (2 ^ e)) x.2)
    | .agent => (0, none, x.2)
  | .ru =>
    match q.req with
    | .l2 p => (0, some { pc := p, line := line, st := .m, stale := stale }, setDir h line (some p) (kept ||| groupBit p) 0 src)
    | .dev e => (0, none, setDir h line (some (devOwner e)) kept (BitVec.ofNat 4 (2 ^ e)) src)
    | .agent => (0, none, src)
  | .upg =>
    match q.req with
    | .l2 p =>
      let still := stillHolder s d q.req
      let g : Grant := { pc := p, line := line, st := .m, stale := if still then none else stale }
      (0, some g, setDir h line (some p) (kept ||| groupBit p) 0 (if still then s else src))
    | .dev e => (0, none, setDir h line (some (devOwner e)) kept (BitVec.ofNat 4 (2 ^ e)) src)
    | .agent => (0, none, src)
  | .rnc => (0, none, src)
  | .fw =>
    let s1 := setDir h line none kept 0 (dropL3 h line s)
    (0, none, setPoison line false (writeBytes (64 * line) (q.body.bytes.take 64) s1))
  | .pw =>
    let s1 := setDir h line none kept 0 (dropL3 h line (exposeStale line stale src))
    (0, none, writeBytes (64 * line + q.body.off) (q.body.bytes.take (64 - q.body.off)) s1)
  | .famo =>
    let s1 := setDir h line none kept 0 (offerL3 h line true (exposeStale line stale s))
    let r := amoAt (64 * line + q.body.off) (amoCode q.body.op) q.body.wide q.body.gs q.body.gt s1
    (r.1, none, if (remoteSlot s line).isSome then r.2 else hnCnt h cntFamo r.2)
  | .cmoc =>
    let s1 := match l3Copy s h line with
      | some (slot, l) => putL3 h slot { l with dirty := false, stale := none } (exposeStale line (if l.dirty then l.stale else none) s)
      | none => s
    (0, none, setDir h line (ownerAfterClean s1 d) d.sharers d.devs s1)
  | .cmoi => (0, none, setDir h line none kept 0 (dropL3 h line s))
  | .wb | .evc => (0, none, s)

/-- A WB or EVC served in its turn (10 R260). -/
def serveEvict (q : HomeReq) (s : State) : State :=
  let h := homeOf s q.line
  let d := dirOf s h q.line
  let owns := decide (d.owner = some (holderNum q.req))
  let s1 := if owns then setDir h q.line none d.sharers d.devs s else s
  if q.kind = .wb then (if owns then offerL3 h q.line true s1 else hnCnt h cntWbdrop s)
  else if (l3Copy s1 h q.line).isNone then offerL3 h q.line false s1 else s1

/-- The line as a request or writeback carries it to another device. -/
def sentData (q : HomeReq) (s : State) : Option Vec :=
  match q.kind with
  | .wb => some (readLine s q.line)
  | .fw | .pw => some (vecOfBytes (q.body.bytes.take 64))
  | _ => none
/-- Count a request as the home takes it up (10 R270); a proxy forwards it to the home on the other device (R263). -/
def countReq (q : HomeReq) (s : State) : State :=
  let h := homeOf s q.line
  let s1 := hnCnt h cntReq s
  match remoteSlot s q.line, q.req with
  | some d, _ => cohSend d (.req q.kind) q.line q.body.tc (sentData q s) (hnCnt h cntRemote s1)
  | none, .dev _ => hnCnt h cntRemote s1
  | none, _ => s1
/-- The home's completion of a request of another device leaves for it (10 R263). -/
def completeDev (q : HomeReq) (s : State) : State :=
  match q.req with
  | .dev e =>
    let data := match q.kind with
      | .rs | .ru | .rnc => some (readLine s q.line)
      | _ => none
    cohSend e (.grant q.kind) q.line q.body.tc data s
  | _ => s

/-- Take one snoop answer into a request. -/
def takeAnswer (q : HomeReq) (a : SnoopAnswer) (s : State) : HomeReq × State :=
  let h := homeOf s q.line
  let s1 := if a.evicting && a.data then offerL3 h q.line a.dirty s else s
  let s2 := if a.evicting then
      let d := dirOf s1 h q.line
      if d.owner = some a.pc then setDir h q.line none d.sharers d.devs s1 else s1
    else s1
  ({ q with pending := q.pending.filter fun p => p.1 != a.pc, gotDirty := q.gotDirty || a.dirty, gotData := q.gotData || a.data,
            found := if a.had then a.pc :: q.found else q.found }, s2)

/-- Run a request to its end at once: every snoop is delivered and answered. -/
def runSnoops (q : HomeReq) : List (Nat × SnoopKind) → State → HomeReq × State
  | [], s => (q, s)
  | (p, k) :: r, s =>
    let x := snoopL2 p q.line k s
    let y := takeAnswer q x.1 (hnCnt (homeOf s q.line) cntSnoop x.2)
    runSnoops y.1 r y.2

/-- The snoops a request needs at its home. -/
def snoopsOf (q : HomeReq) (s : State) : List (Nat × SnoopKind) :=
  let d := dirOf s (homeOf s q.line) q.line
  homeSnoops d (stillHolder s d q.req) q.kind q.req
/-- Complete a request at its home. -/
def homeDone (q : HomeReq) (s : State) : Word64 × Option Grant × State :=
  let x := homeFinish s q
  (x.1, x.2.1, completeDev q x.2.2)
/-- Finish a request in progress, or run one from its start. -/
def runReq (q : HomeReq) (s : State) : Word64 × Option Grant × State :=
  if q.kind = .wb ∨ q.kind = .evc then (0, none, completeDev q (serveEvict q (countReq q s)))
  else if q.served then
    let x := runSnoops q q.pending s
    homeDone x.1 x.2
  else
    let s1 := countReq q s
    let sn := snoopsOf q s1
    let x := runSnoops q sn (sendSnoops q.line sn s1)
    homeDone x.1 x.2

/-- An L2 lets a line go into its transit buffer (10 R259). -/
def toTransit (pc : Nat) (l : L2Line) (s : State) : State :=
  let s1 := if l.st = .m ∨ l.st = .o then exposeStale l.line l.stale s else s
  let s2 := dropL2 pc l.line s1
  setPriv pc { priv s2 pc with transit := (priv s2 pc).transit ++ [{ line := l.line, st := l.st }] } s2
def freeTransit (pc line : Nat) (s : State) : State :=
  setPriv pc { priv s pc with transit := (priv s pc).transit.filter fun t => t.line != line } s
def evictKind (st : LineState) : ReqKind := if st = .m ∨ st = .o then .wb else .evc

/-- A line leaves an L2 by the way of memory: newer data is written there and the home no longer has the L2 for its owner (09 R239, R244). -/
def flushL2 (pc : Nat) (l : L2Line) (s : State) : State :=
  let s1 := dropL2 pc l.line (if l.st = .m ∨ l.st = .o then exposeStale l.line l.stale s else s)
  let h := homeOf s1 l.line
  let d := dirOf s1 h l.line
  if d.owner = some pc then setDir h l.line none d.sharers d.devs s1 else s1
/-- The lines an L2 holds in some of its ways. -/
def linesIn (tbl : SMap (Option L2Line)) (ways : BitVec 16) : List L2Line := tbl.filterMap fun e => if ways.getLsbD (e.1 % 16) then e.2 else none
/-- Empty ways of a slice: newer data is written to memory, every line removed (09 R239, R244). -/
def flushL3 (n : Nat) (ways : BitVec 16) (s : State) : State :=
  let out (e : Nat × Option L3Line) : Bool := ways.getLsbD (e.1 % 16)
  let s1 := ((slice s n).l3.filter out).foldl (fun a e => match e.2 with
    | some l => exposeStale l.line (if l.dirty then l.stale else none) a
    | none => a) s
  setSlice n { slice s1 n with l3 := (slice s1 n).l3.filter fun e => !out e } s1

/-- An eviction run to its acknowledgement. -/
def evictNow (pc : Nat) (l : L2Line) (s : State) : State :=
  let s1 := toTransit pc l s
  freeTransit pc l.line (runReq { kind := evictKind l.st, req := .l2 pc, line := l.line, body := { tc := 2 } } s1).2.2

/-- Install a granted line in its L2, evicting what stood in the way (09 R229). -/
def installL2 (g : Grant) (s : State) : State :=
  match l2Copy s g.pc g.line with
  | some (slot, l) => putL2 g.pc slot { l with st := g.st } s
  | none =>
    if !l2On s g.pc then s
    else
      let p := priv s g.pc
      let pw := pickWay (lfsrL2 g.pc) p.l2 (g.line % 1024) 16 (candWays 16 (p.retired ||| p.spMask)) s
      match pw.1 with
      | none => pw.2
      | some slot =>
        let s1 := match smGet optDef p.l2 slot with
          | some old => evictNow g.pc old pw.2
          | none => pw.2
        putL2 g.pc slot { line := g.line, st := g.st, stale := g.stale } s1

/-- A home whose last late request is done waits on no snoop any more (10 R270). -/
def clearLate (h : Nat) (s : State) : State :=
  if (slice s h).snpWait && !(s.mem.homeQ.any fun q => q.timedOut && homeOf s q.line == h) then setSlice h { slice s h with snpWait := false } s else s
/-- Finish, in arrival order, every request in the queue for a line (10 R258). -/
def settleQ (line : Nat) : List HomeReq → State → State
  | [], s => s
  | q :: r, s =>
    if q.line = line then
      let x := runReq q s
      settleQ line r (match x.2.1 with | some g => installL2 g x.2.2 | none => x.2.2)
    else settleQ line r s
/-- Every eviction of a line that its home has served is acknowledged (10 R259). -/
def ackAll (line : Nat) (s : State) : State :=
  s.mem.priv.foldl (fun a e => if e.2.transit.any fun t => t.line == line then freeTransit e.1 line a else a) s
/-- The line with no request outstanding, no grant on its way, and no transit entry: an access waits for that (10 R258, R259).
[DEDUCED, log entry 20] -/
def settle (line : Nat) (s : State) : State :=
  if s.mem.homeQ.all (fun q => q.line != line) && s.mem.grants.all (fun g => g.line != line) then ackAll line s
  else
    let s0 := (s.mem.grants.filter fun g => g.line == line).foldl (fun a g => installL2 g a) s
    let s1 := ackAll line (settleQ line s0.mem.homeQ s0)
    clearLate (homeOf s1 line) { s1 with mem := { s1.mem with homeQ := s1.mem.homeQ.filter (fun q => q.line != line),
                                                              grants := s1.mem.grants.filter (fun g => g.line != line),
                                                              answers := s1.mem.answers.filter fun a => a.line != line } }

/-- A request of an agent or a core run at once, after every earlier request for its line. [DEDUCED, log entry 20] -/
def request (k : ReqKind) (r : Requester) (line : Nat) (b : ReqData) (s : State) : Word64 × State :=
  let x := runReq { kind := k, req := r, line := line, body := b } (settle line s)
  (x.1, match x.2.1 with | some g => installL2 g x.2.2 | none => x.2.2)

/-! ### A core's own accesses (10 R251, 09 R227) -/

/-- Fill an L1 (09 R227, R229). -/
def fillL1 (instr : Bool) (pc line : Nat) (s : State) : State :=
  if (if instr then l1iOn s pc else l1dOn s pc) && l2On s pc then
    let p := priv s pc
    let tbl := if instr then p.l1i else p.l1d
    match findLine tbl line, findLine p.l2 line with
    | none, some (_, l) =>
      let pw := pickWay (if instr then lfsrL1I pc else lfsrL1D pc) tbl (line % 256) 4 (List.range 4) s
      match pw.1 with
      | some slot =>
        let t2 := smPut optDef tbl slot (some { line := line, st := .s, stale := l.stale })
        setPriv pc (if instr then { priv pw.2 pc with l1i := t2 } else { priv pw.2 pc with l1d := t2 }) pw.2
      | none => pw.2
    | _, _ => s
  else s

/-- Bring a line in for reading, in a traffic class; without allocation while the L2 is disabled (09 R235). -/
def coherentRead (lc line : Nat) (tc : BitVec 2) (instr nt : Bool) (s : State) : State :=
  let pc := pcOf s lc
  if !l2On s pc then (request .rnc .agent line { tc := tc } s).2
  else
    let s1 := match l2Copy s pc line with
      | some _ => s
      | none => (request .rs (.l2 pc) line { tc := tc } s).2
    if nt then s1 else fillL1 instr pc line s1

/-- Obtain a line in modified state (10 R251). [DEDUCED, log entry 20] -/
def coherentOwn (lc line : Nat) (tc : BitVec 2) (s : State) : State :=
  let pc := pcOf s lc
  match l2Copy s pc line with
  | some (slot, l) =>
    (match l.st with
    | .m => s
    | .e => putL2 pc slot { l with st := .m } s
    | _ => (request .upg (.l2 pc) line { tc := tc } s).2)
  | none => (request .ru (.l2 pc) line { tc := tc } s).2

/-- A line as a core sees it: its own stale copy where it holds one (09 R236), else the coherent contents. [DEDUCED, log entry 21] -/
def staleView (s : State) (pc line : Nat) (instr : Bool) : Option Vec :=
  let p := priv s pc
  match (if instr then (if l1iOn s pc then findLine p.l1i line else none) else if l1dOn s pc then findLine p.l1d line else none) with
  | some (_, l) => l.stale
  | none => match l2Copy s pc line with
    | some (_, l) => l.stale
    | none => none

/-- `n` bytes as the core sees them through its caches. -/
def viewBytes (s : State) (lc pa n : Nat) (instr : Bool) : List Byte :=
  match staleView s (pcOf s lc) (lineOf pa) instr with
  | some v => ((bytesOf v 64).drop (pa % 64)).take n
  | none => readBytes s pa n

def patchVec (v : Vec) (off : Nat) (bs : List Byte) : Vec :=
  let old := bytesOf v 64
  vecOfBytes (old.take off ++ bs ++ old.drop (off + bs.length))
def patchTbl (line off : Nat) (bs : List Byte) (tbl : SMap (Option L2Line)) : SMap (Option L2Line) :=
  tbl.map fun e => (e.1, match e.2 with
    | some l => if l.line = line then some { l with stale := l.stale.map fun v => patchVec v off bs } else some l
    | none => none)

/-- Write bytes of one line through the core's caches (09 R227): into the copies that hold a content of their own (R236), and into the
coherent contents unless the L2's copy is such a one. -/
def viewWrite (lc pa : Nat) (bs : List Byte) (s : State) : State :=
  let pc := pcOf s lc
  let line := lineOf pa
  let p := priv s pc
  let own (x : Option (Nat × L2Line)) : Bool := match x with
    | some (_, l) => l.stale.isSome
    | none => false
  let l2 := own (l2Copy s pc line)
  let l1 := l1dOn s pc && own (findLine p.l1d line)
  let s1 := if l2 || l1 then
      setPriv pc { p with l2 := if l2 then patchTbl line (pa % 64) bs p.l2 else p.l2,
                          l1d := if l1 then patchTbl line (pa % 64) bs p.l1d else p.l1d } s
    else s
  if l2 then s1 else writeBytes pa bs s1

/-- A committed store to MT 0 memory: the line is owned first, and made at the home while the L2 is disabled (09 R235). -/
def coherentStore (lc pa : Nat) (tc : BitVec 2) (bs : List Byte) (s : State) : State :=
  if !l2On s (pcOf s lc) then (request .pw .agent (lineOf pa) { off := pa % 64, bytes := bs, tc := tc } s).2
  else viewWrite lc pa bs (coherentOwn lc (lineOf pa) tc s)

end Sys2Proof.Machine
end

