-- ==== Sys2Proof/Machine/Meter.lean ====
section
/-! DEFINITION. Injection meters and the resources they lead to (12 R299 to R308): budgets of a period, what a reservation in force names,
the count of an injection, the flits a resource has served in each class. -/

namespace Sys2Proof.Machine

def zeroNat (_ : Nat) : Nat := 0
def frkResOff (n w : Nat) : Nat := 0x900000 + 16 * n + 4 * w
def frkBudOff (n w : Nat) : Nat := 0xA00000 + 8 * n + 4 * w
def frkCeilOff : Nat := 0x800020

/-- The period of a kind in ns (12 R300). -/
def periodNs (s : State) (kind : Nat) : Nat := 2 ^ fld (regAct s (0x800000 + 4 * kind)) 4 0
/-- The length of the present interval: a full period, but for the one after a change of the period (12 R301). -/
def intervalNs (s : State) (kind : Nat) : Nat :=
  let n := smGet zeroNat s.frk.short kind
  if n = 0 then periodNs s kind else n
/-- The kind whose period an initiator's meter follows (12 R320). -/
def meterKind (init : Nat) : Nat :=
  if init < 512 then 0 else if init < 520 then 4 else if init < 528 then 5 else if init < 531 then 6 else 7
/-- The budget of a period of `p` ns (12 R308). -/
def scaled (f p : Nat) : Nat := if f = 0 then 0 else max 1 (f * p / 1024)

/-- Resources of 12 R320 `FRK_RFREEi`: 0 to 7 home nodes by tile, 8 HMC, 16 DMC, 24 SOP, 32 VX. Does a reservation name one? -/
def maskNames (w1 w2 : Word32) (r : Nat) : Bool :=
  if r < 8 then w1.getLsbD (24 + r) else if r < 16 then w1.getLsbD (16 + (r - 8)) else if r < 24 then w1.getLsbD (8 + (r - 16))
  else if r < 32 then w1.getLsbD (r - 24) else w2.getLsbD (r - 32)
/-- The capacity of a resource (12 R303); a port degraded to two lanes has half (15 R385). -/
def capacity (s : State) (r : Nat) : Nat :=
  if r < 8 then 1024 else if r < 16 then 18841
  else if r < 24 then
    if (memCtl s (8 + (r - 16))).excluded then 0
    else ([614, 716, 819] : List Nat).getD s.mem.ddrRate 819
  else if r < 32 then 1638
  else if (smGet (fun _ => ({} : Port)) s.links.ports (r - 32)).degraded then 800 else 1600

def meterOff (m : Nat) : Nat := 0xC00000 + 16 * m
/-- The budget of a meter in the present interval: none where the class is not limited (12 R302, R308). -/
def meterBudget (s : State) (init tc : Nat) : Option Nat :=
  let p := intervalNs s (meterKind init)
  match tc with
  | 0 => let w0 := regAct s (frkResOff init 0); some (if w0.getLsbD 31 then scaled (fld w0 15 0) p else 0)
  | _ =>
    let f := match tc with
      | 1 => fld (regAct s (frkBudOff init 0)) 31 16
      | 2 => fld (regAct s (frkBudOff init 0)) 15 0
      | _ => fld (regAct s (frkBudOff init 1)) 15 0
    if f = 0 then none else some (scaled f p)
/-- Does the reservation in force name every resource that receives the flit (12 R307)? -/
def resNames (s : State) (init : Nat) (rs : List Nat) : Bool :=
  (regAct s (frkResOff init 0)).getLsbD 31 &&
    rs.all fun r => maskNames (regAct s (frkResOff init 1)) (regAct s (frkResOff init 2)) r

/-- How many of `n` flits lie within the budget; those that follow are over, or, of TC0, carried as TC1 (12 R302, R307). -/
def withinBudget (s : State) (init tc n : Nat) (rs : List Nat) : Nat :=
  if tc = 0 ∧ !resNames s init rs then 0
  else match meterBudget s init tc with
    | none => n
    | some b => min n (b - smGet zeroNat s.frk.spent (4 * init + tc))
/-- Do all of `n` flits lie within? -/
def injectsWithin (s : State) (init tc n : Nat) (rs : List Nat) : Bool := withinBudget s init tc n rs == n
/-- Inject `n` flits of a class toward resources: INJ counts those within, OVER the others (12 R302, R307). -/
def inject (init tc n : Nat) (rs : List Nat) (s : State) : State :=
  let m := 4 * init + tc
  let w := withinBudget s init tc n rs
  bumpBy (meterOff m + 8) (n - w) (bumpBy (meterOff m) w
    { s with frk := { s.frk with spent := smPut zeroNat s.frk.spent m (smGet zeroNat s.frk.spent m + n) } })

/-- Does a line come from its memory controller, or from the slice or another L2? -/
def fromMemory (s : State) (line : Nat) : Bool :=
  (l3Copy s (homeOf s line) line).isNone && (dirOf s (homeOf s line) line).owner.isNone
/-- The resources of this device a line of memory is served at (12 R303): its home, and its controller where it comes from there. -/
def lineResources (s : State) (pa : Nat) : List Nat :=
  if isMemory pa then
    homeOf s (lineOf pa) / 32 :: (if fromMemory s (lineOf pa) && (remoteSlot s (lineOf pa)).isNone then (ctlOf s pa).toList.map (8 + ·) else [])
  else []
/-- One FLT_MEM_FENCED per second (11 R290). -/
def logFencedOnce (u : Nat) (s : State) : State :=
  match mergeTarget 0x102 u s with
  | some _ => s
  | none =>
    let s1 := logMem 0x102 { unit := u } s
    let keep := s1.resil.merged.filter fun m => decide (¬(m.1 = 0x102 ∧ m.2.1 = u))
    { s1 with resil := { s1.resil with merged := (0x102, u, nowNs s, s1.resil.logSeq) :: keep } }
/-- A request that goes on to the memory controller of its line meets a fenced one (11 R290). -/
def noteFenced (line : Nat) (s : State) : State :=
  match (if isMemory (64 * line) && fromMemory s line then ctlOf s (64 * line) else none) with
  | some u => if (memCtl s u).fenced then logFencedOnce u s else s
  | none => s

/-! ### What resources serve (12 R300, R303, R304) -/

/-- Each counted resource by number: home nodes 0 to 255, HMC 256, DMC 264, SOP 272, VX 280; and its number among those of a
reservation. -/
def resGroup (k : Nat) : Nat := if k < 256 then k / 32 else k - 248
def resKind (k : Nat) : Nat := if k < 256 then 1 else if k < 264 then 2 else if k < 272 then 3 else if k < 280 then 4 else 5
/-- Count flits that a resource serves in a class, in the period in which they arrive (12 R300). -/
def serveFlits (k tc n : Nat) (s : State) : State :=
  { s with frk := { s.frk with served := smPut zeroNat s.frk.served (4 * k + tc) (smGet zeroNat s.frk.served (4 * k + tc) + n) } }
/-- A request for a line, counted where it is injected and where it arrives: at its home, and at the controller it goes on to. TC0 outside a
reservation counts there as TC1 (12 R303, R307). -/
def injectLine (init tc pa : Nat) (s : State) : State :=
  let rs := lineResources s pa
  let t := if tc = 0 ∧ !injectsWithin s init tc 1 rs then 1 else tc
  let s1 := inject init tc 1 rs s
  if isMemory pa then
    (rs.filter fun r => 8 ≤ r).foldl (fun a r => serveFlits (248 + r) t 1 a) (serveFlits (homeOf s (lineOf pa)) t 1 s1)
  else s1
/-- A core's injection of one access. -/
def coreInject (lc : Nat) (a : Access) (s : State) : State := injectLine lc a.tc.toNat a.pa s
/-- An agent's injection of the lines of `n` bytes. -/
def injectLines (init tc pa n : Nat) (s : State) : State :=
  (List.range ((pa + n + 63) / 64 - pa / 64)).foldl (fun a i => injectLine init tc (64 * (pa / 64 + i)) a) s
/-- `n` flits of the maintenance of a controller, always TC3 (12 R297, R299). -/
def injectMaint (u n : Nat) (s : State) : State := serveFlits (256 + u) 3 n (inject (if u < 8 then 536 else 537) 3 n [8 + u] s)

/-- `FRK_SHARE_<kind>` of a class, in per cent. -/
def sharePct (s : State) (k tc : Nat) : Nat :=
  let v := regAct s (0x800040 + 4 * (resKind k - 1))
  match tc with
  | 1 => fld v 23 16
  | 2 => fld v 15 8
  | _ => fld v 7 0
/-- Has a class share left at a resource in the period? A port counts chunks, a quarter of a flit each (15 R381). -/
def shareLeft (s : State) (k tc : Nat) : Bool :=
  decide (smGet zeroNat s.frk.served (4 * k + tc) <
    (if resKind k = 5 then 4 else 1) * scaled (capacity s (resGroup k) * sharePct s k tc / 100) (intervalNs s (resKind k)))
/-- The step of 12 R304 in which work is served: TC0 within its reservation, then TC1 to TC3 that is not over and has share left, then
the rest; TC0 outside a reservation is served as TC1 (R307). -/
def serveStep (s : State) (k tc : Nat) (isOver reserved : Bool) : Nat :=
  if tc = 0 ∧ reserved ∧ !isOver then 0
  else if !isOver && shareLeft s k (if tc = 0 then 1 else tc) then 1
  else 2

end Sys2Proof.Machine
end

