-- ==== Sys2Proof/Machine/Translate.lean ====
section
/-! DEFINITION. Address translation and protection (08): owner codes (19 R464 to R467), the walk, contiguous groups, translation
caches, the checks of a use in the order of 07 R179, and invalidation. -/

namespace Sys2Proof.Machine

/-- An exception an instruction raises, with what it reports (07 R182). -/
structure Exc where
  cause : Nat
  addr : Word64 := 0
  reason : Nat := 0
  acc : Nat := 0
  elem : Option Nat := none
  fpx : Nat := 0
  elanes : Word64 := 0
  noInsn : Bool := false
deriving DecidableEq, Repr

/-- EXC_ numbers (07 R182). -/
def excIllegal : Nat := 1
def excPriv : Nat := 2
def excAlign : Nat := 3
def excFetch : Nat := 4
def excLoad : Nat := 5
def excStore : Nat := 6
def excKey : Nat := 7
def excSag : Nat := 8
def excOwner : Nat := 9
def excPoison : Nat := 10
def excGate : Nat := 11
def excIstack : Nat := 12
def excFp : Nat := 13
def excQueue : Nat := 14
def excDebug : Nat := 15
def excSvc : Nat := 16

/-- What an access needs of its translation, and how a refusal is reported (08 R212); `late` where the translation cause comes after
the guard and the key in the order of 07 R179, as EXC_QUEUE does; `either` where RD or WR will do (13 R323). -/
structure Want where
  kind : AccessKind
  rd : Bool := false
  wr : Bool := false
  ex : Bool := false
  mt0Only : Bool := false
  noMt23 : Bool := false
  cause : Nat
  acc : Nat
  elem : Option Nat := none
  mt2Only : Bool := false
  either : Bool := false
  late : Bool := false
  noControl : Bool := false
  noMt2 : Bool := false
deriving DecidableEq, Repr

def wantFetch : Want := { kind := .fetch, ex := true, mt0Only := true, cause := excFetch, acc := 0 }
def wantLoad : Want := { kind := .load, rd := true, cause := excLoad, acc := 1 }
def wantStore : Want := { kind := .store, wr := true, cause := excStore, acc := 2 }
def wantAmo : Want := { kind := .amo, rd := true, wr := true, noMt23 := true, cause := excStore, acc := 3 }
def wantSdc : Want := { kind := .sdc, wr := true, cause := excStore, acc := 2 }
def wantSdcRead : Want := { kind := .sdcRead, rd := true, cause := excLoad, acc := 1 }
def wantWait : Want := { kind := .load, rd := true, mt0Only := true, cause := excLoad, acc := 3 }

/-- Does a page lie in the DDR reserve, which the keeper holds as its own (11 R293)? [DESIGN CHOICE, log entry 70] -/
def inReserve (s : State) (pa : Nat) : Bool :=
  let top := slotOf s * 2 ^ 44 + ddrBase + s.mem.ddrGib * 2 ^ 30
  decide (top - s.mem.reserveTotal * 2 ^ 20 ≤ pa ∧ pa < top)
/-- The owner code of a page (19 R464). Memory of another slot is checked at its own device.
[DEDUCED, log entry 22; DESIGN CHOICE, log entry 70; DEDUCED, log entry 72] -/
def ownerCode (s : State) (pa : Nat) : Nat :=
  match placeOf pa with
  | some p =>
    if (p.region = .hbm ∨ p.region = .ddr) ∧ p.slot = slotOf s then
      let page := pa / 4096
      let n := (pa - p.slot * 2 ^ 44) / 4096
      if reg64 s 0x8000020 / 4096 ≤ page ∧ page ≤ reg64 s 0x8000028 / 4096 then 1
      else if (reg s 0x8000018).toNat * 65536 ≤ n then 1
      else if inReserve s pa then 1
      else
        let b := (readByte s (reg64 s 0x8000010 + n / 2)).toNat
        if n % 2 = 0 then b % 16 else b / 16
    else 0
  | none => 0

/-- The S read window of 19 R466. -/
def inSoWindow (s : State) (pa : Nat) : Bool :=
  let base := reg64 s 0x8000050
  let lim := reg64 s 0x8000058
  decide (lim % 4096 = 4095 ∧ base ≤ lim ∧ base ≤ pa ∧ pa ≤ lim)

/-- Does the owner code grant a core's access (19 R465, R466)? -/
def ownerGrants (s : State) (level code pa : Nat) (w : Want) : Bool :=
  if level = 2 then decide (code ≤ 3) || !w.wr
  else
    match code with
    | 0 => true
    | 2 => !w.wr && !w.ex
    | 3 => decide (level = 1 ∧ w.kind = .load) && inSoWindow s pa
    | _ => false

/-- May a walk at this level read a table page of this code (19 R467)? -/
def tableReadable (level code : Nat) : Bool := if level = 2 then decide (code ≤ 3) else decide (code = 0 ∨ code = 2)

/-- Why a walk ends: a reason of 08 R204, or an owner code. -/
inductive WalkFail
  | reason (n : Nat)
  | owner (code : Nat)
deriving DecidableEq, Repr

def xlatCfg (r : Regs) : Word64 := if levelOf r = 2 then csr r 0x822 else csr r 0x4C0
def rootOf (r : Regs) (upper : Bool) : Nat :=
  let k := if levelOf r = 2 then 0x820 else 0x4C2
  (csr r (if upper then k + 1 else k)).toNat / 4096 * 4096

/-- Bits [63:48] copy bit [47]. -/
def canonical (va : Word64) : Bool := decide (va.toNat < 2 ^ 47 ∨ 2 ^ 64 - 2 ^ 47 ≤ va.toNat)

/-- Does a home or controller refuse a line: reads are then poisoned, writes discarded (11 R290, 20 R487)? -/
def lineFenced (s : State) (line : Nat) : Bool :=
  (isMemory (64 * line) && (slice s (homeOf s line)).fenced) ||
    match ctlOf s (64 * line) with
    | some u => (memCtl s u).fenced
    | none => false
/-- Does a read of the line return poison? -/
def readsPoison (s : State) (line : Nat) : Bool := poisoned s line || lineFenced s line

/-- A table entry as the walker reads it: through the core's L2 (08 R202). -/
def walkRead (s : State) (pc pa : Nat) : Word64 :=
  match l2Copy s pc (lineOf pa) with
  | some (_, { stale := some v, .. }) => BitVec.ofNat 64 (natOfBytes (((bytesOf v 64).drop (pa % 64)).take 8))
  | _ => BitVec.ofNat 64 (readNat s pa 8)

def eRights (e : Word64) : Bool := e.getLsbD 1 || e.getLsbD 2 || e.getLsbD 3
def eAddr (e : Word64) : Nat := fld e 51 12 * 4096
/-- A malformed entry (08 R201). -/
def malformed (e : Word64) (tier : Nat) : Bool :=
  fld e 11 9 != 0 ||
  (if eRights e then
    tier == 3 || (e.getLsbD 2 && !e.getLsbD 1) || (tier == 2 && fld e 29 12 != 0) || (tier == 1 && fld e 20 12 != 0)
  else
    tier == 0 || fld e 8 4 != 0 || fld e 59 52 != 0)

def tableOk (s : State) (t : Nat) : Bool := isMemory t && backed s t

def leafSize (tier : Nat) : Nat := 4096 * 512 ^ tier

/-- Do sixteen leaves form a contiguous group (08 R206; one owner code, 19 R467)? -/
def contiguous (s : State) (es : List Word64) (tier : Nat) : Bool :=
  match es with
  | [] => false
  | e0 :: _ =>
    let sz := leafSize tier
    es.all (fun e => e.getLsbD 0 && eRights e && !malformed e tier && e.getLsbD 8 &&
      fld e 5 1 == fld e0 5 1 && fld e 59 52 == fld e0 59 52) &&
    (es.zipIdx.all fun x => eAddr x.1 == eAddr e0 + x.2 * sz) &&
    eAddr e0 % (16 * sz) == 0 &&
    (List.range (16 * sz / 4096)).all fun i => ownerCode s (eAddr e0 + 4096 * i) == ownerCode s (eAddr e0)

/-- The slot a leaf makes (08 R203, R207, R218). -/
def makeSlot (s : State) (c : Core) (pc : Nat) (va ea : Nat) (e : Word64) (tier : Nat) : TlbSlot :=
  let k := levelOf c.regs = 2
  let sz := leafSize tier
  let upper := decide (2 ^ 47 ≤ va)
  let tag : Option (BitVec 16) := if upper ∨ e.getLsbD 5 ∨ k then none else some (BitVec.ofNat 16 (fld (csr c.regs 0x4C1) 15 0))
  let code := ownerCode s (eAddr e + va % sz)
  let base : TlbSlot :=
    { va := va / sz * sz, size := sz, world := decide k, tag := tag, pa := eAddr e, rd := e.getLsbD 1, wr := e.getLsbD 2,
      ex := e.getLsbD 3, u := e.getLsbD 4, a := e.getLsbD 6, d := e.getLsbD 7, key := BitVec.ofNat 4 (fld e 59 56),
      mt := BitVec.ofNat 2 (fld e 53 52), tc := BitVec.ofNat 2 (fld e 55 54), code := code, leafs := [(ea, e)] }
  if e.getLsbD 8 then
    let eas := (List.range 16).map fun j => ea / 128 * 128 + 8 * j
    let es := eas.map (walkRead s pc)
    if eas.all (fun a => a == ea || !readsPoison s (lineOf a)) && contiguous s es tier then
      { base with va := va / (16 * sz) * (16 * sz), size := 16 * sz, pa := eAddr (es.getD 0 0),
                  a := es.all (fun x => x.getLsbD 6), d := es.all (fun x => x.getLsbD 7), leafs := eas.zip es }
    else base
  else base

/-- What a walk gathers: the slot, the lines it read, the pointers it learned. -/
structure WalkOut where
  slot : TlbSlot
  lines : List Nat
  ptrs : List WalkEntry
deriving DecidableEq, Repr

def walkHit (c : Core) (upper : Bool) (tier ea : Nat) : Option Nat :=
  (c.tlbs.walk.find? fun w => decide (w.world = decide (levelOf c.regs = 2) ∧ w.upper = upper ∧ w.tier = tier ∧ w.entryAddr = ea) &&
    (upper || w.world || w.tag == BitVec.ofNat 16 (fld (csr c.regs 0x4C1) 15 0))).map fun w => w.table

/-- A walk: the lines it has read, and how it ends. -/
abbrev WalkRes := List Nat × Except WalkFail WalkOut
/-- The lines that hold the sixteen entries of a leaf's group (08 R207). -/
def groupLines (e : Word64) (ea : Nat) : List Nat := if e.getLsbD 8 then [ea / 128 * 2, ea / 128 * 2 + 1] else []

/-- The walk of 08 R203 from one tier down; `t` is the table. Steps below a cached pointer need no read (08 R218). -/
def walkFrom (s : State) (c : Core) (pc va : Nat) (tier t : Nat) (acc : WalkOut) : WalkRes :=
  let level := levelOf c.regs
  let upper := decide (2 ^ 47 ≤ va)
  let ea := t + va / leafSize tier % 512 * 8
  match (if tier = 0 then none else walkHit c upper tier ea) with
  | some next =>
    match tier with
    | 0 => (acc.lines, .error (.reason 3))
    | n + 1 => walkFrom s c pc va n next acc
  | none =>
    if !tableReadable level (ownerCode s t) then (acc.lines, .error (.owner (ownerCode s t)))
    else
      let lines := acc.lines ++ [lineOf ea]
      if readsPoison s (lineOf ea) then (lines, .error (.reason 5))
      else
        let e := walkRead s pc ea
        let acc1 := { acc with lines := lines }
        if !e.getLsbD 0 then (lines, .error (.reason 2))
        else if malformed e tier then (lines, .error (.reason 3))
        else if !eRights e then
          if !tableOk s (eAddr e) then (lines, .error (.reason 4))
          else
            match tier with
            | 0 => (lines, .error (.reason 3))
            | n + 1 =>
              let w : WalkEntry :=
                { world := decide (level = 2), upper := upper, tag := BitVec.ofNat 16 (fld (csr c.regs 0x4C1) 15 0),
                  tier := n + 1, entryAddr := ea, table := eAddr e }
              walkFrom s c pc va n (eAddr e) { acc1 with ptrs := w :: acc1.ptrs }
        else if !backed s (eAddr e + va % leafSize tier) then (lines, .error (.reason 6))
        else (lines ++ (groupLines e ea).filter (fun l => l != lineOf ea), .ok { acc1 with slot := makeSlot s c pc va ea e tier })

def noSlot : TlbSlot :=
  { va := 0, size := 0, world := false, tag := none, pa := 0, rd := false, wr := false, ex := false, u := false, a := false,
    d := false, key := 0, mt := 0, tc := 0, leafs := [] }

/-- A walk from the root (08 R203). `va` is the low 48 bits. -/
def walk (s : State) (c : Core) (pc : Nat) (va : Nat) : WalkRes :=
  let t := rootOf c.regs (decide (2 ^ 47 ≤ va))
  if !tableOk s t then ([], .error (.reason 4))
  else walkFrom s c pc va 3 t { slot := noSlot, lines := [], ptrs := [] }

/-! ### Translation caches (08 R218, R219) -/

def slotHits (r : Regs) (va : Nat) (t : TlbSlot) : Bool :=
  decide (t.va ≤ va ∧ va < t.va + t.size) && t.world == decide (levelOf r = 2) &&
    match t.tag with
    | some g => g == BitVec.ofNat 16 (fld (csr r 0x4C1) 15 0)
    | none => true

/-- Put an entry into a fully associative structure: room first, else the place the core LFSR names (09 R229). -/
def faPut {α : Type} (k n : Nat) (xs : List α) (x : α) (s : State) : List α × State :=
  if xs.length < n then (xs ++ [x], s)
  else
    let d := drawLfsr k s
    (xs.set (lfsrPick d.1 n) x, d.2)

def l2tlbPut (k : Nat) (t : TlbSlot) (m : List (Nat × TlbSlot)) (s : State) : List (Nat × TlbSlot) × State :=
  let set := t.va / t.size % 512 * 8
  match (List.range 8).find? fun w => (m.find? fun e => e.1 == set + w).isNone with
  | some w => (smInsert m (set + w) t, s)
  | none =>
    let d := drawLfsr k s
    (smInsert m (set + lfsrPick d.1 8) t, d.2)

/-- Keep a slot in the L1 TLB of its kind and, if it is new, in the L2 TLB. -/
def keepSlot (lc : Nat) (instr fresh : Bool) (t : TlbSlot) (s : State) : State :=
  let c := coreOf s lc
  let k := lfsrCore (pcOf s lc)
  let x := if instr then faPut k 48 c.tlbs.itlb t s else faPut k 64 c.tlbs.dtlb t s
  let tl := if instr then { c.tlbs with itlb := x.1 } else { c.tlbs with dtlb := x.1 }
  if fresh then
    let y := l2tlbPut k t tl.l2tlb x.2
    setCore y.2 lc { c with tlbs := { tl with l2tlb := y.1 } }
  else setCore x.2 lc { c with tlbs := tl }

def keepPtrs (lc : Nat) : List WalkEntry → State → State
  | [], s => s
  | w :: r, s =>
    let c := coreOf s lc
    let x := faPut (lfsrCore (pcOf s lc)) 32 c.tlbs.walk w s
    keepPtrs lc r (setCore x.2 lc { c with tlbs := { c.tlbs with walk := x.1 } })

/-- One of several slots that match: the spec does not state which (08 R219; a free value, log entry 94). [DESIGN CHOICE, log entry 94] -/
def oneOf (x : TlbSlot) (xs : List TlbSlot) (s : State) : TlbSlot × State :=
  if xs.length < 2 then (x, s)
  else
    let d := drawWord s
    ((xs[d.1.toNat % xs.length]?).getD x, d.2)

/-- The reads of a walk go through the core's L2 (08 R202), in the class XLAT_CFG.WTC, metered where they leave the core (12 R297). -/
def walkReads (lc : Nat) (lines : List Nat) (s : State) : State :=
  let tc := fld (xlatCfg (coreOf s lc).regs) 7 6
  lines.foldl (fun a l =>
    coherentRead lc l (BitVec.ofNat 2 tc) false true
      (if (l2Copy a (pcOf a lc) l).isNone then inject lc tc 1 (lineResources a (64 * l)) a else a)) s

/-- The slot that translates an address for an access of a kind: from the TLBs, else by a walk. No slot and no pointer is kept where the
region refuses the access (01 R29), and with HWAD = 0 a walk that ends at a leaf with A = 0 makes no slot (08 R209).
[DESIGN CHOICE, log entry 94] -/
def lookup (lc va : Nat) (kind : AccessKind) (s : State) : Except WalkFail TlbSlot × State :=
  let c := coreOf s lc
  let instr := decide (kind = .fetch)
  let l1 := (if instr then c.tlbs.itlb else c.tlbs.dtlb).filter (slotHits c.regs va)
  let l2 := (c.tlbs.l2tlb.filter fun e => slotHits c.regs va e.2).map (·.2)
  match (l1 ++ l2).dedup with
  | x :: xs =>
    let p := oneOf x (x :: xs) s
    (.ok p.1, if l1.contains p.1 then p.2 else keepSlot lc instr false p.1 p.2)
  | [] =>
    let w := walk s c (pcOf s lc) va
    let s1 := walkReads lc w.1 s
    match w.2 with
    | .error f => (.error f, s1)
    | .ok o =>
      if !regionOk s (o.slot.pa + (va - o.slot.va)) kind then (.ok o.slot, s1)
      else
        let s2 := keepPtrs lc o.ptrs.reverse s1
        if !o.slot.a && !(xlatCfg c.regs).getLsbD 3 then (.ok o.slot, s2) else (.ok o.slot, keepSlot lc instr true o.slot s2)

/-- A translation in use: where the access goes and the A and D updates its commit owes (08 R208). -/
structure Xlat where
  acc : Access
  ads : List AdUpdate := []
  page : Nat := 0
deriving DecidableEq, Repr

/-- Memory type under the override of 04 R99. -/
def effMt (pa : Nat) (mt : BitVec 2) : BitVec 2 := if forcedMt2 pa then 2 else mt

def mtRefused (w : Want) (mt : BitVec 2) : Bool := (w.mt0Only && mt != 0) || (w.mt2Only && mt != 2) || (w.noMt23 && (mt == 2 || mt == 3)) || (w.noMt2 && mt == 2)

/-- The window of 08 R214 is effective. -/
def windowOpen (r : Regs) : Bool := (csr r 0x4C4).getLsbD 0 && !(csr r 0x400).getLsbD 1

def pkrRefuses (r : Regs) (key : Nat) (write : Bool) : Bool :=
  (csr r 0x040).getLsbD (2 * key) || (write && (csr r 0x040).getLsbD (2 * key + 1))

/-- An access that control space does not take in its width, and so raises EXC_ALIGN (02 R39; 05 R142). -/
def controlRefused (w : Want) (pa : Nat) : Bool := w.noControl && match placeOf pa with | some p => decide (p.region = .control) | none => false

/-- The checks of a use that can raise the translation cause, lowest reason first (08 R204, R209, R212, R213). -/
def useReason (r : Regs) (t : TlbSlot) (pa : Nat) (w : Want) : Option Nat :=
  let level := levelOf r
  let hwad := (xlatCfg r).getLsbD 3
  if (match placeOf pa with | some p => !regionTakes p.region w.kind | none => true) then some 6
  else if mtRefused w (effMt pa t.mt) then some 7
  else if (level = 0 ∧ !t.u) ∨ (level = 1 ∧ w.ex ∧ t.u) then some 8
  else if (w.rd && !t.rd) || (w.wr && !t.wr) || (w.ex && !t.ex) || (w.either && !t.rd && !t.wr) then some 9
  else if !t.a && !hwad then some 10
  else if w.wr && !t.d && !hwad then some 11
  else none

/-- A page's owner code refuses: reported as 0 below K (07 R182). On a fetch there is no instruction word to report: EINSN is the word
at the address where no check but this one refuses it, which the spec leaves open, and the model reports 0. [DESIGN CHOICE, log entry 94] -/
def ownerExc (level code : Nat) (va : Word64) (w : Want) : Exc :=
  { cause := excOwner, addr := va, reason := if level = 2 then code else 0, acc := w.acc, elem := w.elem, noInsn := w.ex }

/-- Translate and check an access in the order of 07 R179, up to the protection key. -/
def translate (lc : Nat) (w : Want) (va : Word64) (s : State) : Except Exc Xlat × State :=
  let c := coreOf s lc
  let level := levelOf c.regs
  let cfg := xlatCfg c.regs
  let xl (n : Nat) : Exc := { cause := w.cause, addr := va, reason := n, acc := w.acc, elem := w.elem, noInsn := w.ex }
  if !cfg.getLsbD 0 then
    let pa := va.toNat
    if 2 ^ 52 ≤ pa then (.error (xl 1), s)
    else if controlRefused w pa && backed s pa then (.error { cause := excAlign, addr := va, acc := w.acc, elem := w.elem }, s)
    else if !regionOk s pa w.kind then (.error (xl 6), s)
    else
      let mt : BitVec 2 := match placeOf pa with
        | some p => if p.region = .hbm ∨ p.region = .ddr ∨ p.region = .scratch then 0 else 2
        | none => 2
      if mtRefused w mt then (.error (xl 7), s)
      else if !ownerGrants s level (ownerCode s pa) pa w then (.error (ownerExc level (ownerCode s pa) va w), s)
      else (.ok { acc := { pa := pa, mt := mt, tc := BitVec.ofNat 2 (fld cfg 7 6) }, page := pa / 4096 }, s)
  else if !canonical va then (.error (xl 1), s)
  else
    let v := va.toNat % 2 ^ 48
    let x := lookup lc v w.kind s
    match x.1 with
    | .error (.reason n) => (.error (xl n), x.2)
    | .error (.owner code) => (.error (ownerExc level code va w), x.2)
    | .ok t =>
      let pa := t.pa + (v - t.va)
      if controlRefused w pa then (.error { cause := excAlign, addr := va, acc := w.acc, elem := w.elem }, x.2)
      else match (if w.late then none else useReason c.regs t pa w) with
      | some n => (.error (xl n), x.2)
      | none =>
        if !ownerGrants s level t.code pa w then (.error (ownerExc level t.code va w), x.2)
        else if !w.ex && level == 1 && cfg.getLsbD 2 && t.u && !windowOpen c.regs then
          (.error { cause := excSag, addr := va, acc := w.acc, elem := w.elem }, x.2)
        else if !w.ex && level != 2 && cfg.getLsbD 1 && pkrRefuses c.regs t.key.toNat w.wr then
          (.error { cause := excKey, addr := va, reason := t.key.toNat, acc := w.acc, elem := w.elem }, x.2)
        else match (if w.late then useReason c.regs t pa w else none) with
        | some n => (.error (xl n), x.2)
        | none =>
          let needA := !t.a
          let needD := w.wr && !t.d
          let ads := if needA || needD then t.leafs.map fun e => { entry := e.1, walked := e.2, setD := needD } else []
          (.ok { acc := { pa := pa, mt := effMt pa t.mt, tc := t.tc }, ads := ads, page := v / 4096 }, x.2)

/-- One atomic set of A and D at an entry's home (08 R208): done only if the entry still holds its walked value apart from A and
D. [DEDUCED, log entry 11] -/
def adSwap (u : AdUpdate) (s : State) : Option State :=
  let e := BitVec.ofNat 64 (readNat s u.entry 8)
  let mask : Word64 := ~~~0xC0#64
  if e &&& mask = u.walked &&& mask then
    let e1 := e ||| (if u.setD then 0xC0 else 0x40)
    some (request .famo .agent (lineOf u.entry) { off := u.entry % 64, op := 0, wide := true, gs := e1 } s).2
  else none

/-- Record in the core's slots that A (and D) of an entry are set. -/
def markSlot (u : AdUpdate) (t : TlbSlot) : TlbSlot :=
  if t.leafs.any fun e => e.1 == u.entry then { t with a := true, d := t.d || u.setD } else t
def markSlots (u : AdUpdate) (t : Tlbs) : Tlbs :=
  { t with itlb := t.itlb.map (markSlot u), dtlb := t.dtlb.map (markSlot u), l2tlb := t.l2tlb.map fun e => (e.1, markSlot u e.2) }

/-! ### Invalidation (08 R221; at K 19 R456) -/

/-- Does an invalidation issued in the open world (or, with `k`, at K) remove a slot? -/
def tlbiHits (kind : TlbiKind) (k : Bool) (t : TlbSlot) : Bool :=
  match kind with
  | .va a g =>
    let covers := decide (t.va ≤ a ∧ a < t.va + t.size)
    if t.world then k && covers else covers && (match t.tag with | some x => x == g | none => true)
  | .tag g => !t.world && (match t.tag with | some x => x == g | none => false)
  | .all => k || !t.world
def tlbiHitsWalk (kind : TlbiKind) (k : Bool) (w : WalkEntry) : Bool :=
  match kind with
  | .va a g => (!w.world || k) && w.upper == decide (2 ^ 47 ≤ a) && (w.upper || w.world || w.tag == g)
  | .tag g => !w.world && !w.upper && w.tag == g
  | .all => k || !w.world
def tlbiApply (kind : TlbiKind) (k : Bool) (t : Tlbs) : Tlbs :=
  { itlb := t.itlb.filter fun x => !tlbiHits kind k x, dtlb := t.dtlb.filter fun x => !tlbiHits kind k x,
    l2tlb := t.l2tlb.filter fun x => !tlbiHits kind k x.2, walk := t.walk.filter fun x => !tlbiHitsWalk kind k x }

end Sys2Proof.Machine
end

