-- ==== Sys2Proof/Machine/Agents.lean ====
section
/-! DEFINITION. Accesses by agents that keep no cached copy (00 R4, 10 R250), and selection, claim and completion at the
interrupt controller (17 R425 to R430). -/

namespace Sys2Proof.Machine

/-- A read by a non-caching agent of bytes of one line, in its traffic class (12 R297): the bytes, and whether the line is poisoned. -/
def agentReadLine (tc : Nat) (pa n : Nat) (s : State) : List Byte × Bool × State :=
  if isMemory pa then
    let s1 := (request .rnc .agent (lineOf pa) { tc := BitVec.ofNat 2 tc } (noteFenced (lineOf pa) s)).2
    let st := if (dirOf s1 (homeOf s1 (lineOf pa)) (lineOf pa)).owner.isSome then none else l3Stale s1 (homeOf s1 (lineOf pa)) (lineOf pa)
    let bs := match st with
      | some v => ((bytesOf v 64).drop (pa % 64)).take n
      | none => readBytes s1 pa n
    (bs, readsPoison s1 (lineOf pa), s1)
  else (readBytes s pa n, poisoned s (lineOf pa), s)

/-- A write by a non-caching agent of bytes of one line: FW for a whole line, PW otherwise (00 R4). -/
def agentWriteLine (tc : Nat) (pa : Nat) (bs : List Byte) (s : State) : State :=
  if isMemory pa then
    if lineFenced s (lineOf pa) then noteFenced (lineOf pa) s
    else if bs.length = 64 ∧ pa % 64 = 0 then (request .fw .agent (lineOf pa) { bytes := bs, tc := BitVec.ofNat 2 tc } s).2
    else (request .pw .agent (lineOf pa) { off := pa % 64, bytes := bs, tc := BitVec.ofNat 2 tc } s).2
  else writeBytes pa bs (if bs.length = 64 then setPoison (lineOf pa) false s else s)

/-- Bytes cut at line boundaries: `n` is at most the number of bytes. -/
def cutLines (pa : Nat) (bs : List Byte) : Nat → List (Nat × List Byte)
  | 0 => []
  | n + 1 =>
    if bs.isEmpty then []
    else
      let k := 64 - pa % 64
      (pa, bs.take k) :: cutLines (pa + k) (bs.drop k) n

/-- A read over any number of lines. -/
def agentReadFrom (tc : Nat) (pa : Nat) : List (Nat × Nat) → State → List Byte × Bool × State
  | [], s => ([], false, s)
  | (a, n) :: r, s =>
    let x := agentReadLine tc a n s
    let y := agentReadFrom tc pa r x.2.2
    (x.1 ++ y.1, x.2.1 || y.2.1, y.2.2)
def lineSpans (pa n : Nat) : List (Nat × Nat) :=
  (List.range ((pa + n + 63) / 64 - pa / 64)).map fun i =>
    let a := if i = 0 then pa else (pa / 64 + i) * 64
    (a, min (pa + n) ((pa / 64 + i + 1) * 64) - a)
def agentRead (tc pa n : Nat) (s : State) : List Byte × Bool × State := if n = 0 then ([], false, s) else agentReadFrom tc pa (lineSpans pa n) s
def agentWrite (tc pa : Nat) (bs : List Byte) (s : State) : State :=
  (cutLines pa bs (bs.length + 1)).foldl (fun a x => agentWriteLine tc x.1 x.2 a) s
/-- The cellar keeper's accesses, on the meter of its pair (12 R297, R299). -/
def keeperTc : Nat := Config.keeperClass.toNat
def keeperRead (pa n : Nat) (s : State) : List Byte × Bool × State :=
  agentRead keeperTc pa n (injectLines (531 + Config.keeperPair.toNat) keeperTc pa n s)
def keeperWrite (pa : Nat) (bs : List Byte) (s : State) : State :=
  agentWrite keeperTc pa bs (injectLines (531 + Config.keeperPair.toNat) keeperTc pa bs.length s)
/-- An atomic operation by an agent at the line's home, or in the scratchpad's own array (04 R115). -/
def agentAmo (tc pa : Nat) (op : Nat) (wide : Bool) (gs gt : Word64) (s : State) : Word64 × State :=
  if isMemory pa then request .famo .agent (lineOf pa) { off := pa % 64, op := op, wide := wide, gs := gs, gt := gt, tc := BitVec.ofNat 2 tc } s
  else amoAt pa (amoCode op) wide gs gt s
/-- Store a poisoned line: a visible loss (20 R498). -/
def poisonLine (line : Nat) (s : State) : State := pulse 151 (setPoison line true s)

/-! ### Targets of broadcast invalidations (08 R222) -/

/-- Targets acknowledge every broadcast that waits for them; one that waits for none is over. -/
def ackTargets (gone : Nat → Bool) (s : State) : State :=
  let f (b : Broadcast) : Option Broadcast :=
    let w := b.waiting.filter fun x => !gone x
    if w.isEmpty then none else some { b with waiting := w }
  if s.cores.any fun e => e.2.broadcasts.any fun b => b.waiting.any gone then
    { s with cores := s.cores.map fun e => (e.1, { e.2 with broadcasts := e.2.broadcasts.filterMap f }) }
  else s

/-! ### The interrupt controller -/

def stackDef (_ : Nat) : List IcEntry := []
/-- The priority stack of a core, top first (17 R425). -/
def icStack (s : State) (lc : Nat) : List IcEntry := smGet stackDef s.intc.icStacks lc
def setIcStack (lc : Nat) (st : List IcEntry) (s : State) : State :=
  { s with intc := { s.intc with icStacks := smPut stackDef s.intc.icStacks lc st } }
/-- Running priority plus one; zero for an empty stack. -/
def rp1 (s : State) (lc : Nat) : Nat := match icStack s lc with | e :: _ => e.prio + 1 | [] => 0
def icThreshOff (lc : Nat) : Nat := 0x430004 + 16 * lc
def tsetOff (k w : Nat) : Nat := 0x420000 + 64 * k + 4 * w

/-- `IC_LCn_STAT.ELIGIBLE` (17 R435): bound, not moving, not at K, not halted, not fenced. -/
def coreEligible (s : State) (lc : Nat) : Bool :=
  let c := coreOf s lc
  bound s lc && !moving s lc && levelOf c.regs != 2 && c.standing != .halted && c.standing != .fenced

def srcPrio (s : State) (src : Nat) : Nat := rfld s (srcCfgOff src) 21 16
/-- Does the source's target name a core (17 R422, R423)? -/
def targets (s : State) (src lc : Nat) : Bool :=
  let cfg := reg s (srcCfgOff src)
  if cfg.getLsbD 28 then fld cfg 8 0 == lc
  else (reg s (tsetOff (fld cfg 7 0) (lc / 32))).getLsbD (lc % 32)
/-- Eligibility of a core for a source (17 R426). -/
def eligible (s : State) (src lc : Nat) : Bool :=
  (reg s (srcCfgOff src)).getLsbD 31 && targets s src lc && coreEligible s lc &&
    decide (rp1 s lc ≤ srcPrio s src ∧ rfld s (icThreshOff lc) 5 0 ≤ srcPrio s src)

/-- Bound cores in the order the rotation pointer gives (17 R426). -/
def rotated (s : State) (p : Nat) : List Nat :=
  let n := s.resil.bound
  if n = 0 then [] else (List.range n).map fun i => (p + i) % n
/-- The better of two cores: lower running priority, the earlier on a tie. -/
def lowestRp (s : State) (best : Option Nat) (lc : Nat) : Option Nat :=
  match best with
  | none => some lc
  | some b => if rp1 s lc < rp1 s b then some lc else some b
/-- The core selected for a source (17 R426). -/
def selectedCore (s : State) (src : Nat) : Option Nat :=
  if isPending s src && !isActive s src then
    ((rotated s (smGet (fun _ => 0) s.intc.rot src)).filter (eligible s src)).foldl (lowestRp s) none
  else none

/-- Sources that could be pending: those whose bit or line is set. -/
def liveSources (s : State) : List Nat := ((s.intc.pend.map (·.1)) ++ (s.intc.lines.map (·.1))).dedup
/-- The better of two sources to claim: higher priority, then the lower number (17 R428). -/
def betterSource (s : State) (best : Option Nat) (src : Nat) : Option Nat :=
  match best with
  | none => some src
  | some b => if srcPrio s b < srcPrio s src ∨ (srcPrio s b = srcPrio s src ∧ src < b) then some src else some b
/-- The source a claim by a core takes. -/
def claimable (s : State) (lc : Nat) : Option Nat :=
  ((liveSources s).filter fun src => selectedCore s src == some lc).foldl (betterSource s) none
/-- `CSR_EVENT.INTR` (17 R427). -/
def intrFor (s : State) (lc : Nat) : Bool := (claimable s lc).isSome

def setAct_ (src : Nat) (b : Bool) (s : State) : State :=
  { s with intc := { s.intc with act := smPut boolDef s.intc.act src b } }

/-- The value a claim returns (17 R428). -/
def claimValue (s : State) (lc : Nat) : Word32 :=
  match claimable s lc with
  | some src => BitVec.ofNat 32 (srcPrio s src * 65536 + src)
  | none => 0x80000000

/-- A read of `IC_CLAIM` by core `lc` (17 R428): what it returns, and the claim. [DEDUCED, log entry 42] -/
def icClaim (lc : Nat) (s : State) : Word32 × State :=
  match claimable s lc with
  | some src =>
    let s1 := setIcStack lc ({ source := src, prio := srcPrio s src } :: icStack s lc) (setAct_ src true (setPend src false s))
    let s2 : State := { s1 with intc := { s1.intc with
      rot := smPut (fun _ => 0) s1.intc.rot src (lc + 1), claimedBy := smPut optDef s1.intc.claimedBy src (some lc) } }
    (claimValue s lc, bump 0x400210 s2)
  | none => (0x80000000, bump 0x400218 s)

/-- A write of `IC_COMPLETE` by core `lc` (17 R430): its status; EXC_ISTACK follows `ST_ORDER` at the core. [DEDUCED, log entry 42] -/
def icComplete (lc : Nat) (v : Word32) (s : State) : Nat × State :=
  if fld v 31 13 ≠ 0 then (stRsvd, s)
  else
    match icStack s lc with
    | e :: rest =>
      if e.source = v.toNat then
        let s1 := setIcStack lc rest (setAct_ e.source false s)
        (stOk, { s1 with intc := { s1.intc with claimedBy := smPut optDef s1.intc.claimedBy e.source none } })
      else (stOrder, bump 0x400220 s)
    | [] => (stOrder, bump 0x400220 s)

/-- `IC_RAISE` and `IC_UNRAISE` (17 R424). -/
def icRaise (v : Word32) (s : State) : Nat × State :=
  if fld v 31 13 ≠ 0 then (stRsvd, s) else if v.toNat < 256 then (stRange, s) else (stOk, raiseMsg v.toNat s)
def icUnraise (v : Word32) (s : State) : Nat × State :=
  if fld v 31 13 ≠ 0 then (stRsvd, s) else (stOk, setPend v.toNat false s)

/-- Sources with REG = 1 (17 R432). -/
def regCount (s : State) : Nat :=
  (s.ctl.regs.filter fun e => decide (0x410000 ≤ e.1 ∧ e.1 < 0x420000 ∧ e.1 % 8 = 0) && e.2.getLsbD 30).length

end Sys2Proof.Machine
end

