-- ==== Sys2Proof/Machine/Faults.lean ====
section
/-! DEFINITION. Fencing a unit (20 R487, R491, R492), entering CONTAIN (R497), the spare inventory (R495) and the retirement of
cache ways (09 R243 to R245). -/

namespace Sys2Proof.Machine

/-- Enter CONTAIN, or add a cause to it (20 R497): the mode, the record, the notice, the alert. -/
def enterContain (bit : Nat) (s : State) : State :=
  if s.resil.contain.getLsbD bit then s
  else
    let s1 : State := { s with resil := { s.resil with contain := s.resil.contain ||| BitVec.ofNat 6 (2 ^ bit) } }
    noteMode s (alert 0 (pulse 147 (logFault 0x503 4 uDevice none bit 0 s1)))
def containCores : Nat := 0
def containMem : Nat := 1
def containPair : Nat := 2
def containRefclk : Nat := 3
def containHome : Nat := 4
def containUnit : Nat := 5

/-- The spare inventory at manufacture (20 R495); kinds 6 and 7 come from the installed memory. -/
def spareTotal (k : Nat) : Nat := ([64, 2304, 1024, 25165824, 1024, 512, 0, 0, 8, 2] : List Nat).getD k 0
def spareLeft (s : State) (k : Nat) : Nat := smGet spareTotal s.resil.spareLeft k
def spareUsed (s : State) (k : Nat) : Nat := smGet zeroNat s.resil.spareUsed k
/-- Consume one spare of a kind. -/
def useSpare (k : Nat) (s : State) : State :=
  { s with resil := { s.resil with
      spareLeft := smPut spareTotal s.resil.spareLeft k (spareLeft s k - 1),
      spareUsed := smPut zeroNat s.resil.spareUsed k (spareUsed s k + 1) } }

def isFenced (s : State) (unit : Nat) : Bool := s.resil.fencedUnits.contains unit
/-- Record a unit as fenced (20 R491): FLT_UNIT_FENCED and notice source 146. -/
def fenceUnit (unit cause : Nat) (s : State) : State :=
  if isFenced s unit then s
  else
    let s1 : State := { s with resil := { s.resil with fencedUnits := s.resil.fencedUnits ++ [unit] } }
    bump 0x6000058 (pulse 146 (logFault 0x500 2 unit none cause 0 s1))

/-! ### Way retirement -/

def healthyWays (retired : BitVec 16) : Nat := 16 - countOnes retired 16
/-- Lines of one way of a table of `ways` ways. -/
def inWay (ways way key : Nat) : Bool := key % ways == way
/-- The scratchpad way a retirement moves to: the highest healthy candidate (09 R239, R244). -/
def spReplacement (retired spMask : BitVec 16) : Option Nat := ((candWays 16 (retired ||| spMask)).reverse).head?
def setBit16 (m : BitVec 16) (i : Nat) : BitVec 16 := m ||| BitVec.ofNat 16 (2 ^ i)
def clearBit16 (m : BitVec 16) (i : Nat) : BitVec 16 := m &&& ~~~(BitVec.ofNat 16 (2 ^ i))
/-- The scratchpad mask after a way is retired, and the ways lost (09 R244, R245). -/
def spAfter (retired spMask : BitVec 16) (way : Nat) : BitVec 16 × Nat :=
  if spMask.getLsbD way then
    let m := clearBit16 spMask way
    match spReplacement (setBit16 retired way) m with
    | some r => (setBit16 m r, 0)
    | none => (m, 1)
  else (spMask, 0)

def sliceAperture (s : State) (n : Nat) : Nat := scratchBase + slotOf s * 0x1000000000 + n * 0x200000
def l2Aperture (s : State) (lc : Nat) : Nat := scratchBase + slotOf s * 0x1000000000 + 0x40000000 + lc * 0x100000

/-- Does a line lie in a unit's backed aperture of `n` bytes from `base`? -/
def apertureLine (base n line : Nat) : Bool := decide (base ≤ 64 * line ∧ 64 * line < base + n)
/-- Retire a way of a slice (09 R244, R245). `bad` names a line of the way whose dirty data is lost. EN of a removed slice stays as it is:
the spec says only "as though disabled". [DESIGN CHOICE, log entry 50] -/
def retireL3Way (n way : Nat) (uncorr : Bool) (bad : Option Nat) (s : State) : State :=
  let sl := slice s n
  if sl.retired.getLsbD way then s
  else
    let sp := spAfter sl.retired sl.spMask way
    let retired := setBit16 sl.retired way
    let removed := sl.removed || decide (healthyWays retired < 12)
    let s1 := match bad with
      | some line => if (sl.spMask.getLsbD way && apertureLine (sliceAperture s n) (countOnes sl.spMask 16 * 0x40000) line) ||
                        (sl.l3.any fun e => inWay 16 way e.1 && (match e.2 with | some l => l.line == line && l.dirty | none => false))
                     then poisonLine line s else s
      | none => s
    let s0 := flushL3 n (if removed then BitVec.allOnes 16 else setBit16 sp.1 way) s1
    let s2 := setSlice n { slice s0 n with retired := retired, spMask := sp.1, removed := removed, retiring := none } s0
    let s3 := logFault 6 1 (uHome n) none way uncorr.toNat s2
    let s4 := if healthyWays retired ≥ 12 then useSpare 2 s3 else s3
    if sp.2 = 0 then s4 else logFault 7 3 (uHome n) none sp.2 (sliceAperture s n + countOnes sp.1 16 * 0x40000) s4

/-- Retire a way of an L2 (09 R244, R245); below the floor the caller relocates the core. -/
def retireL2Way (pc way : Nat) (uncorr : Bool) (bad : Option Nat) (s : State) : State :=
  let p := priv s pc
  if p.retired.getLsbD way then s
  else
    let sp := spAfter p.retired p.spMask way
    let s1 := match bad with
      | some line => if (match lcOfPc s pc with
                         | some lc => p.spMask.getLsbD way && apertureLine (l2Aperture s lc) (countOnes p.spMask 16 * 0x10000) line
                         | none => false) ||
                        (p.l2.any fun e => inWay 16 way e.1 && (match e.2 with | some l => l.line == line && decide (l.st = .m ∨ l.st = .o) | none => false))
                     then poisonLine line s else s
      | none => s
    let s2 := (linesIn p.l2 (setBit16 sp.1 way)).foldl (fun a l => flushL2 pc l a) s1
    let s3 := setPriv pc { priv s2 pc with retired := setBit16 p.retired way, spMask := sp.1 } s2
    let s4 := logFault 6 1 (uL2 pc) (lcOfPc s pc) way uncorr.toNat s3
    let s5 := if healthyWays (setBit16 p.retired way) ≥ 12 then useSpare 1 s4 else s4
    match lcOfPc s pc with
    | some lc => if sp.2 = 0 then s5 else logFault 7 3 (uL2 pc) (some lc) sp.2 (l2Aperture s lc + countOnes sp.1 16 * 0x10000) s5
    | none => s5

end Sys2Proof.Machine
end

