-- ==== Sys2Proof/Machine/MemCtl.lean ====
section
/-! DEFINITION. The memory controllers (11): the answers of R290, the write queues of R281, refresh, temperature, re-centring,
sparing, retirement through the DDR reserve, sectors. Controllers are numbered 0 to 7 HMC, 8 to 15 DMC. -/

namespace Sys2Proof.Machine

def dayNs : Nat := 86400000000000
def ctlBase (u : Nat) : Nat := if u < 8 then 0x2000000 + 0x100000 * u else 0x2800000 + 0x100000 * (u - 8)
def ctlCnt (u which : Nat) (s : State) : State := bump (ctlBase u + 0x30 + 8 * which) s
def cntCe : Nat := 0
def cntUe : Nat := 1
def cntScrub : Nat := 2
def cntRefdl : Nat := 3
def cntRecentre : Nat := 4

/-- Where a line lies in its controller: place, rank, bank, row, column (11 R276, R278, R293), as records name it (R295). -/
def linePlace (s : State) (line : Nat) : MemPlace :=
  match placeOf (64 * line) with
  | some p =>
    if p.region = .hbm then
      let d := hbmDecode s p.off
      let l := hbmLoc d.2
      { unit := d.1, pa := 64 * line, place := l.pc, rank := l.bank / 16, bank := l.bank, row := l.row, col := l.byte / 64 }
    else
      let d := ddrPlace s p.off
      let l := ddrLoc s.mem.rankLog2 d.2.2
      { unit := 8 + d.1, pa := 64 * line, place := d.2.1 * 16 + l.sub * 8, rank := l.rank, bank := l.bank, row := l.row, col := l.col }
  | none => { unit := 0 }

/-- The line of the own window at a place: the decodings of 11 R275 to R278 read backwards. -/
def hbmLineAt (s : State) (n pc bank row col : Nat) : Nat :=
  let u := row * 2 ^ 16 + bank * 2 ^ 10 + col * 64
  let h := u / 256
  let so := h * 2 ^ 13 + (pc ^^^ (h % 32)) * 256 + u % 256
  let j := so / bandSize
  let r := so % bandSize
  let o := if (reg s (hmcSecOff 0 j)).getLsbD 0 then 8 * j * bandSize + ((r / 4096) * 8 + n) * 4096 + r % 4096
    else (8 * j + n) * bandSize + r
  (slotOf s * 2 ^ 44 + o) / 64
def ddrLineAt (s : State) (ch dimm sub rank bank row col : Nat) : Nat :=
  let r := s.mem.rankLog2
  let d := row * 2 ^ (19 + r) + rank * 2 ^ 19 + col * 2 ^ 12 + (bank % 4 ^^^ natBits row 4 3) * 2 ^ 10 + (bank / 4 ^^^ natBits row 2 0) * 2 ^ 7 + sub * 64
  let k := Nat.log2 s.mem.ddrChannels.length
  let c := d / 4096 * s.mem.dimmsPerCh + (if s.mem.dimmsPerCh = 2 then dimm else 0)
  let ix := ((List.range s.mem.ddrChannels.length).find? fun i => s.mem.ddrChannels.getD i 16 == ch).getD 0
  let o := (c * 2 ^ k + (ix ^^^ (c % 2 ^ k))) * 4096 + d % 4096
  (slotOf s * 2 ^ 44 + ddrBase + o) / 64
/-- The line of a column of a row, the place coded as the rows of sparing code it: the record's PLACE times 8 plus the rank (DDR) or the stack
identifier (HBM). -/
def lineAt (s : State) (u place bank row col : Nat) : Nat :=
  if u < 8 then hbmLineAt s u (place / 8) bank row col
  else ddrLineAt s (u - 8) (place / 128) (place / 64 % 2) (place % 8) bank row col

/-- The write queue a line waits in: a pseudo-channel, or a sub-channel (11 R280). -/
def wqSlot (s : State) (line : Nat) : Nat :=
  let p := linePlace s line
  if p.unit < 8 then p.place else p.place / 8 % 2

def drainWq (u slot : Nat) (s : State) : State :=
  setMemCtl u { memCtl s u with wq := (memCtl s u).wq.filter fun w => w.slot != slot } s
/-- With no read ready, every queue drains (11 R281). -/
def drainAll (s : State) : State := { s with mem := { s.mem with ctls := (s.mem.ctls.map fun e => (e.1, { e.2 with wq := [] })).filter fun e => decide (e.2 ≠ {}) } }

/-! ### Retirement (11 R293, R294) -/

def dimmMib (s : State) : Nat := 1024 * s.mem.ddrGib / dimmCount s
def reserveArmed (s : State) : Bool := decide (0 < s.mem.ddrChannels.length) && decide (dimmMib s ≤ s.mem.reserveFree)
/-- How many DIMMs the free reserve covers, kind 7 of the spare inventory (20 R495). -/
def setCoverable (s : State) : State :=
  { s with resil := { s.resil with spareLeft := smPut spareTotal s.resil.spareLeft 7 (if dimmMib s = 0 then 0 else s.mem.reserveFree / dimmMib s) } }
/-- The free reserve changes; source 149 tells that ARMED fell to 0 (11 R294; 20 R498). -/
def setReserve (total free : Nat) (s : State) : State :=
  let s1 := setCoverable { s with mem := { s.mem with reserveTotal := total, reserveFree := free } }
  if reserveArmed s && !reserveArmed s1 then pulse 149 s1 else s1

/-- A DIMM or rank retired through the reserve (11 R293, R294): with a second rank of a DIMM, the DIMM (R291); beyond the reserve, CONTAIN
(R292). The record is written as the copy begins, which the spec leaves open [DESIGN CHOICE, log entry 99]. -/
def retireUnit (u dimm : Nat) (rank : Option Nat) (s : State) : State :=
  let c := memCtl s u
  let mine := c.retired.filter fun r => r.dimm == dimm
  if mine.any fun r => r.rank == rank || r.rank.isNone then s
  else
    let whole := rank.isNone || !mine.isEmpty
    let need := if whole then dimmMib s - (mine.map fun r => r.total).foldl (· + ·) 0 else dimmMib s / 2 ^ s.mem.rankLog2
    if s.mem.reserveFree < need then enterContain containMem s
    else
      let base := ((s.mem.reserveTotal - s.mem.reserveFree) * 256 + dimmCount s - 1) / dimmCount s
      let s1 := setMemCtl u { c with retired := c.retired ++
        [{ dimm := dimm, rank := if whole then none else rank, pointer := 0, total := need, done := false, base := base }] } s
      let s2 := logMem (if whole then 0x108 else 0x107) { unit := u, place := 16 * dimm, rank := if whole then 0 else rank.getD 0 } s1
      setReserve s2.mem.reserveTotal (s2.mem.reserveFree - need) { s2 with resil := { s2.resil with
        spareUsed := if whole then smPut zeroNat s2.resil.spareUsed 7 (spareUsed s2 7 + 1) else s2.resil.spareUsed } }

/-- The copy of the oldest unfinished retirement completes and its unit leaves service; with ARMED at 0, FLT_DDR_RESERVE_LOW follows
(11 R293, R294). The pointer's steps before are not shown. [DESIGN CHOICE, log entry 99] -/
def finishFirst : List Retirement → List Retirement
  | [] => []
  | r :: rs => if r.done then r :: finishFirst rs else { r with pointer := r.total, done := true } :: rs
def reserveCopyDone (u : Nat) (s : State) : State :=
  if (memCtl s u).retired.all fun r => r.done then s
  else
    let lines := 16384 * (((memCtl s u).retired.find? fun r => !r.done).map fun r => r.total).getD 0
    let s1 := injectMaint u lines (setMemCtl u { memCtl s u with retired := finishFirst (memCtl s u).retired } s)
    if reserveArmed s1 then s1 else logMem 0x10A { unit := u } s1

/-- `DMC_RANKRET` (11 R296). -/
def rankRet (s : State) (u : Nat) : Nat :=
  ((memCtl s u).retired.filter fun r => r.done).foldl (fun a r =>
    match r.rank with
    | some k => a ||| 2 ^ (8 * r.dimm + k)
    | none => a ||| ((2 ^ (2 ^ s.mem.rankLog2) - 1) * 2 ^ (8 * r.dimm))) 0
def retiredRanks (s : State) (u : Nat) : Nat := countOnes (BitVec.ofNat 16 (rankRet s u)) 16

/-! ### The outcome of reads (11 R287, R290) -/

/-- The devices erased for a line. -/
def erasedAt (s : State) (p : MemPlace) : List Nat :=
  ((memCtl s p.unit).erased.filter fun e => decide (e.place = p.place ∧ e.rank = p.rank) && (e.bank == none || e.bank == some p.bank)).map fun e => e.dev
/-- Bits of a symbol mask. -/
def symbolCount (m : Nat) : Nat := ((List.range 36).filter fun i => m.testBit i).length
def maskWithout (m : Nat) (devs : List Nat) : Nat := (List.range 36).foldl (fun a i => if m.testBit i && !devs.contains i then a + 2 ^ i else a) 0
/-- What the code makes of errors in the symbols (devices) of a mask: 0 nothing, 1 corrected, 2 uncorrectable. `err` is 0 for no error, 1 for a
single bit of each symbol, more for several. Errors in more than two devices count as detected. [DESIGN CHOICE, log entry 99] -/
def lineOutcome (s : State) (p : MemPlace) (err symbols : Nat) : Nat :=
  if err = 0 then 0
  else if p.unit < 8 then (match symbolCount symbols with | 0 => 0 | 1 | 2 => 1 | _ => 2)
  else
    let gone := erasedAt s p
    match symbolCount (maskWithout symbols gone) with
    | 0 => 0
    | 1 => if gone.isEmpty ∨ err = 1 then 1 else 2
    | _ => 2

/-- Record an error for the counting rules of 11 R291. -/
def noteError (p : MemPlace) (ue : Bool) (s : State) : State :=
  let e : RowError := { place := p.place * 8 + p.rank % 8, bank := p.bank, row := p.row, col := p.col, time := nowNs s, symbols := p.symbols, ue := ue }
  setMemCtl p.unit { memCtl s p.unit with errors := e :: (memCtl s p.unit).errors } s

/-- What the check of a line read from memory leads to (11 R290): nothing on a poisoned line; an uncorrectable line is stored poisoned, unless
a queued write of the whole line supersedes it (R289), and retires the rank that has a device erased there (R291). `found` are the FLAGS bits
that say who read. -/
def checkLine (line err found symbols : Nat) (s : State) : State :=
  let p := { linePlace s line with symbols := symbols, flags := found }
  if poisoned s line then s
  else match lineOutcome s p err symbols with
    | 0 => s
    | 1 => noteError p false (ctlCnt p.unit cntCe (logMem 0x100 p s))
    | _ =>
      let covered := (memCtl s p.unit).wq.any fun w => w.line == line && w.full
      let s1 := if covered then logMem 0x101 p s else logMem 0x101 { p with flags := found + 1 } (setPoison line true s)
      let s2 := noteError p true (ctlCnt p.unit cntUe s1)
      if 8 ≤ p.unit ∧ erasedAt s p ≠ [] then retireUnit p.unit (p.place / 16) (some p.rank) s2 else s2

/-- Is a controller's island absent, so that its bridge accepts nothing (01 R24)? -/
def ctlSilent (s : State) (u : Nat) : Bool := islandSilent s (if u < 8 then uHmc u else uDmc (u - 8))
/-- A read request at a controller (11 R280, R281, R290): a conflicting queued write is drained first, and its data served. -/
def memRead (line err symbols : Nat) (s : State) : State :=
  match ctlOf s (64 * line) with
  | none => s
  | some u =>
    if ctlSilent s u then s
    else if (memCtl s u).fenced then answerSt stFenced (logFencedOnce u s)
    else
      let queued := (memCtl s u).wq.any fun w => w.line == line
      let s1 := if queued then drainWq u (wqSlot s line) s else checkLine line err 0 symbols s
      answer (if readsPoison s1 line then stParity else stOk) (BitVec.ofNat 64 (readNat s1 (64 * line) 8)) s1

/-- Merge the bytes a mask selects into a line. -/
def mergeMasked (s : State) (line : Nat) (v : Vec) (mask : Word64) : List Byte :=
  (List.range 64).map fun i => if mask.getLsbD i then BitVec.ofNat 8 (fld v (8 * i + 7) (8 * i)) else readByte s (64 * line + i)

/-- A write request at a controller (11 R281, R290): full lines clear poison, partial ones keep it; a fenced controller discards
it; the queue drains at 48 entries, so that it never holds its 64. -/
def memWrite (line : Nat) (v : Vec) (mask : Word64) (s : State) : State :=
  match ctlOf s (64 * line) with
  | none => s
  | some u =>
    if ctlSilent s u then s
    else if (memCtl s u).fenced then logFencedOnce u s
    else
      let full := decide (mask = BitVec.allOnes 64)
      let s1 := writeBytes (64 * line) (mergeMasked s line v mask) s
      let s2 := if full then setPoison line false s1 else s1
      let slot := wqSlot s line
      let c := memCtl s2 u
      let s3 := setMemCtl u { c with wq := c.wq ++ [{ slot := slot, line := line, full := full }] } s2
      if 48 ≤ ((memCtl s3 u).wq.filter fun w => w.slot == slot).length then drainWq u slot s3 else s3

/-! ### Refresh (11 R282) -/

def owed0 (_ : Nat) : Int := 0
/-- Banks that refresh apart: 64 of a pseudo-channel; of DDR, the 4 bank indices, each in all 8 bank groups. -/
def refreshBanks (u : Nat) : Nat := if u < 8 then 64 else 4
def owedAt (c : MemCtl) (place bank : Nat) : Int := smGet owed0 c.refreshOwed (place * 64 + bank)
/-- The bank with the most refreshes owed among those with no ready request, the lowest number on a tie. -/
def refreshPick (c : MemCtl) (place : Nat) (banks : List Nat) : Option Nat :=
  banks.foldl (fun a b => match a with
    | none => some b
    | some x => if owedAt c place x < owedAt c place b then some b else some x) none
def putOwed (u place bank : Nat) (v : Int) (s : State) : State :=
  setMemCtl u { memCtl s u with refreshOwed := smPut owed0 (memCtl s u).refreshOwed (place * 64 + bank) v } s
/-- `due` adds the refresh of an elapsed interval of a bank, which at the postpone limit is issued before any request; otherwise a refresh is
placed, down to 8 in advance. `ready` lists the banks that hold ready requests. -/
def memRefresh (u place bank : Nat) (due : Bool) (ready : List Nat) (s : State) : State :=
  let c := memCtl s u
  if due then
    let o := owedAt c place bank
    if o + 1 ≥ 8 then (if ready.contains bank then ctlCnt u cntRefdl s else s)
    else putOwed u place bank (o + 1) s
  else
    match refreshPick c place ((List.range (refreshBanks u)).filter fun b => !ready.contains b) with
    | some b => if owedAt c place b ≤ -8 then s else putOwed u place b (owedAt c place b - 1) s
    | none => s

/-- The temperature read of 11 R283. FLT_MEM_HOT is logged at every read above 95 °C, where the spec says only that it is logged
[DESIGN CHOICE, log entry 99]. [DEDUCED, log entry 51] -/
def memTemp (u temp : Nat) (s : State) : State :=
  let s1 := setMemCtl u { memCtl s u with temp := temp } s
  if 95 < temp then logMem 0x10C { unit := u } s1 else s1

/-! ### Repair (11 R288) -/

/-- Erase a device of a rank, or of one bank of it (11 R288, R291): a second one in the rank retires the rank. `flags` says who found it. -/
def eraseDevice (u place rank : Nat) (bank : Option Nat) (dev flags : Nat) (s : State) : State :=
  let c := memCtl s u
  if c.erased.any fun e => decide (e.place = place ∧ e.rank = rank ∧ e.dev = dev) && (e.bank == none || e.bank == bank) then s
  else if c.erased.any fun e => decide (e.place / 16 = place / 16 ∧ e.rank = rank ∧ (e.place, e.dev) ≠ (place, dev)) then
    retireUnit u (place / 16) (some rank) s
  else
    logMem 0x106 { unit := u, flags := flags, place := place, rank := rank, bank := bank.getD 0, symbols := 2 ^ dev }
      (setMemCtl u { c with erased := c.erased ++ [{ place := place, rank := rank, bank := bank, dev := dev }] } s)

/-- An HBM pin fails (11 R288): remapped to a spare pin, or beyond repair at the third of its pseudo-channel. -/
def hbmPin (u pc flags : Nat) (s : State) : State :=
  let c := memCtl s u
  let n := smGet zeroNat c.pinsUsed pc
  if 2 ≤ n then enterContain containMem s
  else useSpare 5 (logMem 0x10E { unit := u, flags := flags, place := pc } (setMemCtl u { c with pinsUsed := smPut zeroNat c.pinsUsed pc (n + 1) } s))

/-- A lane's place and package rank (11 R284), as records name them. -/
def lanePlace (u lane : Nat) : Nat := if u < 8 then lane / 4 else 16 * (lane / 40) + 8 * (lane / 10 % 2)
/-- The logical ranks of a package rank, one per stacked die (11 R278, R284). [DEDUCED, log entry 41] -/
def packageRanks (s : State) (lane : Nat) : List Nat :=
  let h := 2 ^ (s.mem.rankLog2 - s.mem.prankLog2)
  (List.range h).map fun i => lane / 20 % 2 * h + i
/-- Has a lane been repaired, or its device erased (11 R296)? -/
def laneRepaired (s : State) (u lane : Nat) : Bool :=
  (memCtl s u).repaired.contains lane ||
    (8 ≤ u && (packageRanks s lane).any fun r => (memCtl s u).erased.any fun e =>
      decide (e.place = lanePlace u lane ∧ e.rank = r ∧ e.dev = lane % 10) && e.bank.isNone)
/-- Repair a lane (11 R288): a pin remapped, or the device erased for its rank; a whole HBM lane is beyond repair. [DEDUCED, log entry 51] -/
def repairLane (u lane : Nat) (pinOnly : Bool) (flags : Nat) (s : State) : State :=
  if u < 8 then
    if !pinOnly then enterContain containMem s
    else if 2 ≤ smGet zeroNat (memCtl s u).pinsUsed (lane / 4) then enterContain containMem s
    else
      let s1 := hbmPin u (lane / 4) flags s
      setMemCtl u { memCtl s1 u with repaired := (memCtl s1 u).repaired ++ [lane] } s1
  else (packageRanks s lane).foldl (fun a r => eraseDevice u (lanePlace u lane) r none (lane % 10) flags a) s

/-! ### Training and re-centring (11 R284 to R286) -/

def laneCountOf (u : Nat) : Nat := if u < 8 then 128 else 80
/-- Does a lane exist? A DIMM has the lanes of its package ranks. -/
def laneExists (s : State) (u lane : Nat) : Bool :=
  decide (lane < laneCountOf u) &&
    (decide (u < 8) || s.mem.dimms.any fun d => decide (d.channel = u - 8 ∧ d.slot = lane / 40 ∧ lane / 20 % 2 < d.pranks))
/-- The longest run of passing delays of a Vref code, with its first delay; of equal runs the first [DESIGN CHOICE, log entry 99]. -/
def longestRun (pass : BitVec 128) : Nat × Nat :=
  let r := (List.range 128).foldl (fun (a : (Nat × Nat) × Nat) d =>
    if pass.getLsbD d then (if a.1.1 < a.2 + 1 then ((a.2 + 1, d - a.2), a.2 + 1) else (a.1, a.2 + 1)) else (a.1, 0)) ((0, 0), 0)
  r.1
/-- The Vref code with the largest W, the lowest on a tie, with its run (11 R285). -/
def bestVref (pass : List (Nat × BitVec 128)) : Nat × Nat × Nat :=
  let w (v : Nat) : Nat × Nat := match pass.find? fun e => e.1 == v with | some e => longestRun e.2 | none => (0, 0)
  (List.range 64).foldl (fun a v => if a.2.1 < (w v).1 then (v, w v) else a) (0, w 0)
/-- A result register: WIDTH, VREF, CENTRE (11 R285, R296). -/
def resultOf (b : Nat × Nat × Nat) : Word32 := BitVec.ofNat 32 (min 255 b.2.1 * 2 ^ 24 + b.1 * 2 ^ 16 + (b.2.2 + b.2.1 / 2))
/-- The result of a lane that passes at every delay of every Vref code. -/
def openEye : Word32 := resultOf (0, 128, 0)
def noResult (_ : Nat) : Option Word32 := none
/-- The result of a lane in a direction (11 R296), but for REPAIRED. -/
def laneResult (s : State) (u lane : Nat) (wr : Bool) : Word32 :=
  if (memCtl s u).training ∨ !laneExists s u lane then 0
  else (smGet noResult (memCtl s u).results (2 * lane + wr.toNat)).getD openEye
def putResult (u lane : Nat) (wr : Bool) (v : Word32) (s : State) : State :=
  setMemCtl u { memCtl s u with results := smPut noResult (memCtl s u).results (2 * lane + wr.toNat) (some v) } s
/-- `<b>_TRN_RDi` and `<b>_TRN_WRi` (11 R296). -/
def trnWord (s : State) (u lane : Nat) (wr : Bool) : Nat :=
  (putFld (laneResult s u lane wr) 15 15 (laneExists s u lane && laneRepaired s u lane).toNat).toNat

/-- The sweep of a lane that is not listed passes everywhere. -/
def sweepOf (sw : List LaneSweep) (u lane : Nat) (wr again : Bool) : Nat × Nat × Nat :=
  match sw.find? fun x => decide (x.unit = u ∧ x.lane = lane) && x.wr == wr && x.again == again with
  | some x => bestVref x.pass
  | none => (0, 128, 0)
/-- A lane trained (11 R285): swept once more where it fails; a second failure repairs it. -/
def trainLane (sw : List LaneSweep) (u lane : Nat) (s : State) : State :=
  if !laneExists s u lane then s
  else
    let passes (again : Bool) : Bool := decide (16 ≤ (sweepOf sw u lane false again).2.1 ∧ 16 ≤ (sweepOf sw u lane true again).2.1)
    let again := !passes false
    let s1 := putResult u lane true (resultOf (sweepOf sw u lane true again)) (putResult u lane false (resultOf (sweepOf sw u lane false again)) s)
    if again && !passes true then repairLane u lane (sw.any fun x => decide (x.unit = u ∧ x.lane = lane) && x.again && x.pinOnly) 0 s1 else s1
/-- Every lane is trained (11 R284); those not listed keep the result of an open eye. -/
def trainAll (sw : List LaneSweep) (s : State) : State :=
  let s1 := (List.range 16).foldl (fun a u => setMemCtl u { memCtl a u with
    training := false, results := [], runs := [], trainedAt := { time := nowNs a, temp := (memCtl a u).temp } } a) s
  (sw.map fun x => (x.unit % 16, x.lane)).dedup.foldl (fun a x => trainLane sw x.1 x.2 a) s1

def noRun (_ : Nat) : Option LaneRun := none
/-- A lane is due: MINUTES after its last run, or TDELTA away from its temperature (11 R286). -/
def recentreDue (s : State) (u lane : Nat) : Bool :=
  let c := memCtl s u
  let last := (smGet noRun c.runs lane).getD c.trainedAt
  let v := regAct s (ctlBase u + 0x14)
  decide (last.time + fld v 7 0 * 60000000000 ≤ nowNs s ∨ last.temp + fld v 15 8 ≤ c.temp ∨ c.temp + fld v 15 8 ≤ last.temp)

/-- Move a centre toward a target by at most 2 (11 R286). -/
def stepToward (c t : Nat) : Nat := if c < t then min t (c + 2) else max t (c - 2)

/-- A re-centring run of one lane (11 R286), where it is due: its measured edges L and R. [DEDUCED, log entry 51] -/
def memRecentre (u lane : Nat) (wr : Bool) (l r : Nat) (pinOnly : Bool) (s : State) : State :=
  if !laneExists s u lane || !recentreDue s u lane then s
  else
    let old := laneResult s u lane wr
    let width := min 255 (r - l)
    let v := putFld (putFld old 31 24 width) 8 0 (stepToward (fld old 8 0) ((l + r) / 2))
    let c := memCtl s u
    let s1 := injectMaint u 1 (ctlCnt u cntRecentre (putResult u lane wr v
      (setMemCtl u { c with runs := smPut noRun c.runs lane (some { time := nowNs s, temp := c.temp }) } s)))
    let rank := if u < 8 then 0 else (packageRanks s lane).headD 0
    let s2 := if width < 16 then
        logMem 0x10D { unit := u, flags := 4, place := lanePlace u lane, rank := rank, symbols := if u < 8 then 0 else 2 ^ (lane % 10) } s1
      else s1
    if width < 12 then repairLane u lane pinOnly 4 s2 else s2

/-! ### Sparing (11 R291, R292) -/

/-- Distinct columns of a row in error within 24 hours (11 R291). -/
def rowErrors (s : State) (u place bank row : Nat) : Nat :=
  (((memCtl s u).errors.filter fun e => decide (e.place = place ∧ e.bank = bank ∧ e.row = row ∧ nowNs s < e.time + dayNs)).map fun e => e.col).dedup.length
/-- Is a row due: two distinct columns within 24 h, or one uncorrectable error? -/
def rowDue (s : State) (u place bank row : Nat) : Bool :=
  decide (2 ≤ rowErrors s u place bank row) || (memCtl s u).errors.any fun e => decide (e.place = place ∧ e.bank = bank ∧ e.row = row) && e.ue
/-- The devices seen in error in a row. -/
def rowSymbols (s : State) (u place bank row : Nat) : Nat :=
  ((memCtl s u).errors.filter fun e => decide (e.place = place ∧ e.bank = bank ∧ e.row = row)).foldl (fun a e => a ||| e.symbols) 0

/-- Spare rows used in a bank of a pseudo-channel, of its 1,536. -/
def spareRowsUsed (c : MemCtl) (pc bank : Nat) : Nat := smGet zeroNat c.spareUsed (pc * 64 + bank)
def takeSpareRows (pc bank n : Nat) (c : MemCtl) : MemCtl := { c with spareUsed := smPut zeroNat c.spareUsed (pc * 64 + bank) (spareRowsUsed c pc bank + n) }
/-- The bank that gives a spare row: the row's own, else the lowest of the pseudo-channel with one left, which the spec does not choose
[DESIGN CHOICE, log entry 99]; a spared bank gives none. -/
def spareBankFor (c : MemCtl) (pc bank : Nat) : Option Nat :=
  (bank :: List.range 64).find? fun b => decide (spareRowsUsed c pc b < 1536) && !c.sparedBanks.contains (pc, b)

/-- A row copied line by line: a line that is uncorrectable during the copy is stored poisoned (11 R292). -/
def copyRow (u place bank row : Nat) (bad : List Nat) (s : State) : State :=
  bad.foldl (fun a col =>
    let line := lineAt a u place bank row col
    if poisoned a line then a
    else
      let p := { linePlace a line with flags := 1 }
      ctlCnt u cntUe (logMem 0x101 p (setPoison line true a))) (injectMaint u (if u < 8 then 16 else 128) s)

/-- Rows repaired in one device's bank (11 R291). -/
def deviceRows (c : MemCtl) (place bank dev : Nat) : Nat := (c.spared.filter fun r => decide (r.place = place ∧ r.bank = bank) && r.symbols.testBit dev).length
/-- Erase for a bank every device of a mask that is beyond row repair. -/
def eraseFor (u place bank mask : Nat) (isOver : MemCtl → Nat → Bool) (s : State) : State :=
  (List.range 10).foldl (fun a d => if mask.testBit d && isOver (memCtl a u) d then eraseDevice u (place / 8) (place % 8) (some bank) d 0 a else a) s

/-- Spare a row that is due (11 R291): an HBM row by a spare row; a DDR row by post-package repair, which takes a hard repair resource at
once so that CALIBRATE makes it hard [DEDUCED, log entry 51], or, with none left or with 16 rows repaired in one device's bank, by erasing
the device for the bank. `bad` are the columns found uncorrectable during the copy (R292). -/
def rowSpare (u place bank row : Nat) (bad : List Nat) (s : State) : State :=
  let c := memCtl s u
  if !rowDue s u place bank row then s
  else if c.spared.any fun r => r.place == place && r.bank == bank && r.row == row then s
  else
    let p : MemPlace := { unit := u, place := place / 8, rank := place % 8, bank := bank, row := row }
    let mask := rowSymbols s u place bank row
    if u < 8 then
      match spareBankFor c (place / 8) bank with
      | some b =>
        let e : SparedRow := { place := place, bank := bank, row := row, toBank := b, spare := 23040 + spareRowsUsed c (place / 8) b, symbols := mask }
        copyRow u place bank row bad (useSpare 3 (logMem 0x103 p (setMemCtl u (takeSpareRows (place / 8) b 1 { c with spared := c.spared ++ [e] }) s)))
      | none => enterContain containMem s
    else if spareLeft s 6 = 0 then eraseFor u place bank mask (fun _ _ => true) s
    else
      let e : SparedRow := { place := place, bank := bank, row := row, toBank := bank, spare := row, symbols := mask }
      let s1 := copyRow u place bank row bad (useSpare 6 (logMem 0x105 p (setMemCtl u { c with spared := c.spared ++ [e], pprs := c.pprs + 1 } s)))
      eraseFor u place bank mask (fun c d => decide (16 ≤ deviceRows c place bank d)) s1

/-- Take `n` spare rows of a pseudo-channel from banks in order; what could not be taken. -/
def takeFrom (pc : Nat) : List Nat → Nat → MemCtl → Nat × MemCtl
  | [], n, c => (n, c)
  | b :: bs, n, c =>
    let k := if c.sparedBanks.contains (pc, b) then 0 else min n (1536 - spareRowsUsed c pc b)
    takeFrom pc bs (n - k) (takeSpareRows pc b k c)
/-- Spare an HBM bank with more than 64 rows spared in it: its 23,040 rows go to spare rows of the other 63 banks; a fifth of a pseudo-channel
is beyond sparing (11 R291, R292). -/
def bankSpare (u pc bank : Nat) (s : State) : State :=
  let c := memCtl s u
  if 8 ≤ u ∨ c.sparedBanks.contains (pc, bank) ∨ (c.spared.filter fun r => r.place / 8 == pc && r.bank == bank).length ≤ 64 then s
  else if 4 ≤ (c.sparedBanks.filter fun b => b.1 == pc).length then enterContain containMem s
  else
    let x := takeFrom pc ((List.range 64).filter fun b => b != bank) 23040 c
    if x.1 ≠ 0 then enterContain containMem s
    else useSpare 4 (logMem 0x104 { unit := u, place := pc, rank := bank / 16, bank := bank } (setMemCtl u { x.2 with sparedBanks := c.sparedBanks ++ [(pc, bank)] } s))

/-! ### Sectors and registers (11 R279, R296) -/

/-- `HMC_SECCMD` (11 R296): stop or start a sector. -/
def hmcSecCmd (n : Nat) (v : Word32) (s : State) : Nat × State :=
  let op := fld v 31 28
  if fld v 27 3 ≠ 0 ∨ (op ≠ 1 ∧ op ≠ 2) then (stRsvd, s)
  else
    let c := memCtl s n
    let bit : BitVec 8 := BitVec.ofNat 8 (2 ^ fld v 2 0)
    (stOk, setMemCtl n { c with stopped := if op = 1 then c.stopped ||| bit else c.stopped &&& ~~~bit } s)

/-- `MEM_SECTOR_SET` (11 R279): stop the sector everywhere, write its mode, zero it, restart it. -/
def memSectorSet (j mode : Nat) (s : State) : Nat × State :=
  if 7 < j ∨ 1 < mode then (stRange, s)
  else if s.ctl.inFlight then (stBusy, s)
  else
    let s1 := (List.range 8).foldl (fun a n => setReg (hmcSecOff n j) (BitVec.ofNat 32 (2 ^ 31 + mode))
      (setMemCtl n { memCtl a n with stopped := (memCtl a n).stopped &&& ~~~(BitVec.ofNat 8 (2 ^ j)) } a)) s
    let base := slotOf s * 2 ^ 44 + 8 * j * bandSize
    let clean := s1.mem.poison.filter fun e => decide (64 * e.1 < base ∨ base + 8 * bandSize ≤ 64 * e.1)
    (stOk, zeroBytes base (8 * bandSize) { s1 with mem := { s1.mem with poison := clean } })

/-- `<b>_STAT` (11 R296). -/
def ctlStat (s : State) (u : Nat) : Nat :=
  let c := memCtl s u
  let st := if c.excluded then 3 else if c.fenced then 2 else if c.training then 0 else 1
  st * 2 ^ 30 + min c.temp 255 * 2 ^ 16 + (if 85 < c.temp then 256 else 0)

/-- The spare statistics of 11 R296. -/
def ctlSpareStat (s : State) (u : Nat) : Nat :=
  let c := memCtl s u
  if u < 8 then c.sparedBanks.length * 2 ^ 24 + (3145728 - (c.spareUsed.map fun e => e.2).foldl (· + ·) 0)
  else min 15 c.erased.length * 2 ^ 28 + retiredRanks s u * 2 ^ 20 + min 65535 c.pprs

/-- [DEDUCED, log entry 41] -/
def ddrMapWord (s : State) : Nat :=
  Nat.log2 s.mem.ddrChannels.length * 2 ^ 28 + (if s.mem.dimmsPerCh = 2 then 2 ^ 27 else 0) + s.mem.rankLog2 * 2 ^ 24 +
    s.mem.ddrRate * 2 ^ 20 + s.mem.ddrGib
/-- [DEDUCED, log entry 41] -/
def reserveWord (s : State) : Nat := (if reserveArmed s then 2 ^ 31 else 0) + s.mem.reserveTotal / 1024

/-! ### Commands -/

/-- A read request reaches the controller of a line. [DESIGN CHOICE, log entry 49] -/
def execMemoryRead (line err symbols : Nat) (s : State) : Out := .next (memRead line err symbols s)
/-- A write request reaches the controller of a line. -/
def execMemoryWrite (line : Nat) (v : Vec) (mask : Word64) (s : State) : Out := .next (memWrite line v mask s)
def execRefresh (u : Fin 16) (place bank : Nat) (due : Bool) (ready : List Nat) (s : State) : Out := .next (memRefresh u.val place bank due ready s)
def execTemperatureRead (u : Fin 16) (temp : Nat) (s : State) : Out := .next (memTemp u.val temp s)
def execRecentre (u : Fin 16) (lane : Nat) (wr : Bool) (l r : Nat) (pinOnly : Bool) (s : State) : Out :=
  .next (memRecentre u.val lane wr l r pinOnly s)
/-- The scrub read of 11 R289. -/
def execScrubRead (line err symbols : Nat) (s : State) : Out :=
  match ctlOf s (64 * line) with
  | none => .next s
  | some u => if (memCtl s u).fenced || ctlSilent s u then .next s else .next (ctlCnt u cntScrub (checkLine line err 2 symbols (injectMaint u 1 s)))
/-- The on-die error counts of a DIMM (11 R287). -/
def execEcsRead (u : Fin 16) (dimm : Nat) (symbols : Nat) (s : State) : Out :=
  if u.val < 8 then .next s else .next (logMem 0x10B { unit := u.val, place := 16 * dimm, symbols := symbols } s)
def execRowSpare (u : Fin 16) (place bank row : Nat) (bad : List Nat) (s : State) : Out := .next (rowSpare u.val place bank row bad s)
def execBankSpare (u : Fin 16) (pc bank : Nat) (s : State) : Out := .next (bankSpare u.val pc bank s)
def execRankRetire (u : Fin 16) (dimm rank : Nat) (s : State) : Out := if u.val < 8 then .next s else .next (retireUnit u.val dimm (some rank) s)
def execDimmRetire (u : Fin 16) (dimm : Nat) (s : State) : Out := if u.val < 8 then .next s else .next (retireUnit u.val dimm none s)
def execReserveCopyComplete (u : Fin 16) (s : State) : Out := .next (reserveCopyDone u.val s)

end Sys2Proof.Machine
end

