-- ==== Sys2Proof/Machine/HomeNode.lean ====
section
/-! DEFINITION. The commands of a home node and its slice: requests and snoops one step at a time (10 R252 to R261), slice commands
(09 R234 to R240), line maintenance (R246), patrol reads and way retirement (R242 to R245). -/

namespace Sys2Proof.Machine

/-- Serve the requests that wait for a line until one has snoops outstanding (10 R258); the number bounds the requests served. -/
def beginNext (line : Nat) : Nat → State → State
  | 0, s => s
  | n + 1, s =>
    if s.mem.homeQ.any fun q => q.line == line && q.served then s
    else
      match s.mem.homeQ.find? fun q => q.line == line with
      | none => s
      | some q =>
        let rest := s.mem.homeQ.erase q
        let s1 := countReq q s
        if q.kind = .wb ∨ q.kind = .evc then
          let s2 := completeDev q (serveEvict q s1)
          beginNext line n { s2 with mem := { s2.mem with homeQ := rest } }
        else
          let sn := snoopsOf q s1
          if sn.isEmpty then
            let x := homeDone q s1
            let g := match x.2.1 with | some g => [g] | none => []
            let s2 := x.2.2
            beginNext line n { s2 with ans := { status := 0, value := x.1 }, mem := { s2.mem with homeQ := rest, grants := s2.mem.grants ++ g } }
          else
            let s2 := bumpBy (hnBase (homeOf s1 line) + 0x20 + 8 * cntSnoop) sn.length (sendSnoops line sn s1)
            { s2 with mem := { s2.mem with homeQ := s2.mem.homeQ.replace q { q with served := true, pending := sn, since := nowNs s } } }

/-- Does the home of a line, or its proxy, take the request: a line of backed memory, one of this device where another device asks
(10 R247, R262, R263)? -/
def homeTakes (s : State) (r : Requester) (line : Nat) : Bool :=
  isMemory (64 * line) && backed s (64 * line) && match r with
    | .dev e => (remoteSlot s line).isNone && s.links.peers.getLsbD e
    | _ => true
/-- A request reaches its home (10 R258); no island is asked that its bridges treat as absent (01 R24). -/
def sendReq (q : HomeReq) (s : State) : State :=
  if !homeTakes s q.req q.line || islandSilent s (uHome (homeOf s q.line)) then s else
  let s1 : State := { s with mem := { s.mem with homeQ := s.mem.homeQ ++ [q] } }
  beginNext q.line s1.mem.homeQ.length s1

/-- May this L2 send a request for the line: enabled, nothing of its own outstanding, nothing in transit (10 R259)? -/
def mayRequest (s : State) (pc line : Nat) : Bool :=
  l2On s pc && (transitOf s pc line).isNone && (s.mem.homeQ.all fun q => !(q.line == line && q.req == .l2 pc)) &&
    s.mem.grants.all fun g => !(g.line == line && g.pc == pc)

/-- A caching request is sent in the states of the table *Local transitions* (10 R251). -/
def cachingReq (k : ReqKind) (r : Requester) (line : Nat) (tc : BitVec 2) (s : State) : State :=
  match r with
  | .l2 pc =>
    let ok := match l2Copy s pc line, k with
      | none, .rs | none, .ru => true
      | some (_, l), .upg => decide (l.st = .s ∨ l.st = .o)
      | _, _ => false
    if mayRequest s pc line && ok then sendReq { kind := k, req := r, line := line, body := { tc := tc } } s else s
  | .dev _ => sendReq { kind := k, req := r, line := line, body := { tc := tc } } s
  | .agent => s

/-- A request that never receives a cached copy (10 R250). -/
def plainReq (k : ReqKind) (r : Requester) (line : Nat) (b : ReqData) (s : State) : State := sendReq { kind := k, req := r, line := line, body := b } s

/-- An eviction starts: the line moves to the transit buffer and its WB or EVC is sent (10 R251, R259). It carries TC2 (12 R298). From
600 on `pc` names the device of a slot, which evicts a line of this device (R263). -/
def evictReq (k : ReqKind) (pc line : Nat) (s : State) : State :=
  if 600 ≤ pc then sendReq { kind := k, req := .dev (pc - 600), line := line, body := { tc := 2 } } s
  else
    match l2Copy s pc line with
    | some (_, l) =>
      if evictKind l.st = k ∧ (grantOf s pc line).isNone ∧ (transitOf s pc line).isNone then
        sendReq { kind := k, req := .l2 pc, line := line, body := { tc := 2 } } (toTransit pc l s)
      else s
    | none => s

/-- Is the snoop one that the home on another device sends, by way of the proxy entry here (10 R263)? -/
def snoopFromPeer (s : State) (pc line : Nat) : Bool :=
  decide (pc < 600) && match remoteSlot s line with
    | some d => s.links.peers.getLsbD d && (s.mem.homeQ.all fun q => !(q.line == line && q.served))
    | none => false
/-- A snoop reaches an L2, which answers it (10 R252, R259). -/
def deliverSnoop (k : SnoopKind) (pc line : Nat) (s : State) : State :=
  let asked := s.mem.homeQ.any fun q => q.line == line && q.served && q.pending.contains (pc, k)
  let done := s.mem.answers.any fun a => a.pc == pc && a.line == line
  if (asked || snoopFromPeer s pc line) && !done then
    let x := snoopL2 pc line k s
    { x.2 with mem := { x.2.mem with answers := x.2.mem.answers ++ [x.1] } }
  else s

/-- The proxy entry gathers an answer for the home on the other device (10 R263): an owner that gave its copy up leaves the entry. -/
def proxyAnswer (a : SnoopAnswer) (s : State) : State :=
  let s1 : State := { s with mem := { s.mem with answers := s.mem.answers.erase a } }
  match remoteSlot s a.line with
  | none => s1
  | some d =>
    let h := homeOf s1 a.line
    let e := dirOf s1 h a.line
    let owner := match e.owner with
      | some o => if l2State s1 o a.line = none ∨ l2State s1 o a.line = some .s then none else some o
      | none => none
    let s2 := if (findDir s1 h a.line).isSome then setDir h a.line owner e.sharers e.devs s1 else s1
    cohSend d (.answer a.data a.dirty) a.line 0 (if a.data then some (readLine s2 a.line) else none) s2

/-- A snoop answer reaches the home; the last one completes the request (10 R253, R254). -/
def answerArrives (pc line : Nat) (s : State) : State :=
  match s.mem.answers.find? fun a => a.pc == pc && a.line == line with
  | none => s
  | some a =>
    match s.mem.homeQ.find? fun q => q.line == line && q.served with
    | none => proxyAnswer a s
    | some q =>
      let y := takeAnswer q a { s with mem := { s.mem with answers := s.mem.answers.erase a } }
      if y.1.pending.isEmpty then
        let x := homeDone y.1 y.2
        let g := match x.2.1 with | some g => [g] | none => []
        let s2 := x.2.2
        let s3 : State := { s2 with ans := { status := 0, value := x.1 },
                                    mem := { s2.mem with homeQ := s2.mem.homeQ.erase q, grants := s2.mem.grants ++ g } }
        let s4 := clearLate (homeOf s3 line) s3
        beginNext line s4.mem.homeQ.length s4
      else { y.2 with mem := { y.2.mem with homeQ := y.2.mem.homeQ.replace q y.1 } }

/-- A grant reaches the L2 that asked (10 R251, R253). -/
def grantArrives (pc line : Nat) (s : State) : State :=
  match s.mem.grants.find? fun g => g.pc == pc && g.line == line with
  | none => s
  | some g => installL2 g { s with mem := { s.mem with grants := s.mem.grants.erase g } }

/-- The home acknowledges an eviction it has served (10 R259, R260). -/
def evictAcked (pc line : Nat) (s : State) : State :=
  if s.mem.homeQ.any fun q => q.line == line && q.req == .l2 pc && (q.kind == .wb || q.kind == .evc) then s
  else freeTransit pc line s

/-- A snoop answer is missing for 50 µs (10 R261). -/
def snoopLate (line : Nat) (s : State) : State :=
  match s.mem.homeQ.find? fun q => q.line == line && q.served && !q.pending.isEmpty && !q.timedOut with
  | none => s
  | some q =>
    let h := homeOf s line
    let p := (q.pending.head?.map (·.1)).getD 0
    let s1 := logFault 0xA 1 (uHome h) none (64 * line) (if 600 ≤ p then uDevice else uL2 p) s
    let s2 := setSlice h { slice s1 h with snpWait := true } s1
    { s2 with mem := { s2.mem with homeQ := s2.mem.homeQ.replace q { q with timedOut := true } } }

/-! ### The L3 slice's commands (09 R234 to R240) -/

/-- Disable a slice: what is newer than memory is written there, and every line stays valid and clean with the content it has (09 R235). -/
def freezeL3 (n : Nat) (s : State) : State :=
  let s1 := (slice s n).l3.foldl (fun a e => match e.2 with
    | some l => exposeStale l.line (if l.dirty then l.stale else none) a
    | none => a) s
  setSlice n { slice s1 n with l3 := (slice s1 n).l3.map fun e =>
    (e.1, e.2.map fun l => { l with dirty := false, stale := some (l.stale.getD (readLine s1 l.line)) }) } s1

/-- Choose `n` more scratchpad ways from the highest-numbered healthy candidates (09 R239). -/
def moreSp (retired m : BitVec 16) : Nat → BitVec 16
  | 0 => m
  | n + 1 => match spReplacement retired m with
    | some w => moreSp retired (setBit16 m w) n
    | none => m
/-- Give up `n` scratchpad ways. -/
def fewerSp (m : BitVec 16) : Nat → BitVec 16
  | 0 => m
  | n + 1 => match (List.range 16).find? fun w => m.getLsbD w with
    | some w => fewerSp (clearBit16 m w) n
    | none => m

/-- A write of `HN_L3_CMD` (09 R233, R234). -/
def l3Cmd (n : Nat) (v : Word32) (s : State) : Nat × State :=
  let op := fld v 31 28
  let ways := fld v 3 0
  let sl := slice s n
  if op = 2 ∧ sl.removed then (stFenced, s)
  else if fld v 27 4 ≠ 0 ∨ op = 0 ∨ 4 < op ∨ (op ≠ 4 ∧ ways ≠ 0) then (stRsvd, s)
  else if op = 4 ∧ (8 < ways ∨ healthyWays sl.retired < ways) then (stRange, s)
  else if op = 3 ∧ sl.enabled then (stRunning, s)
  else if sl.cmd.isSome ∨ sl.retiring.isSome then (stBusy, s)
  else if (op = 1 ∧ !sl.enabled) ∨ (op = 2 ∧ sl.enabled) then (stOk, s)
  else
    let j := countOnes sl.spMask 16
    let s1 := if op = 4 ∧ ways < j then
        zeroBytes (sliceAperture s n + ways * 0x40000) ((j - ways) * 0x40000) (setSlice n { sl with spMask := fewerSp sl.spMask (j - ways) } s)
      else s
    (stOk, setSlice n { slice s1 n with cmd := some { op := op, ways := ways } } s1)

/-- The slice command in progress finishes (09 R234, R235, R236, R239). -/
def l3CmdDone (n : Nat) (s : State) : State :=
  let sl := slice s n
  match sl.cmd with
  | none => s
  | some c =>
    match c.op with
    | 1 => let s1 := freezeL3 n s; setSlice n { slice s1 n with cmd := none, enabled := false } s1
    | 2 => setSlice n { sl with cmd := none, enabled := true } s
    | 3 => setSlice n { sl with cmd := none, l3 := [] } s
    | _ =>
      let j := countOnes sl.spMask 16
      let m := moreSp sl.retired sl.spMask (c.ways - j)
      let s0 := flushL3 n m s
      let s1 := setSlice n { slice s0 n with cmd := none, spMask := m } s0
      zeroBytes (sliceAperture s n + j * 0x40000) ((c.ways - j) * 0x40000) s1

/-- `HN_L3_STAT` (09 R233). -/
def l3Stat (s : State) (n : Nat) : Nat :=
  let sl := slice s n
  let h := healthyWays sl.retired
  let sp := countOnes sl.spMask 16
  (if sl.cmd.isSome ∨ sl.retiring.isSome then 2 ^ 31 else 0) + (if sl.removed then 2 ^ 30 else 0) + (if sl.enabled then 2 ^ 29 else 0) +
    h * 2 ^ 16 + sp * 2 ^ 8 + (if sl.removed then 0 else h - sp)

/-- A maintenance command on one line of memory (09 R246). -/
def hnCmo (line : Nat) (v : Word32) (s : State) : Nat × State :=
  if fld v 31 2 ≠ 0 ∨ fld v 1 0 = 0 ∨ fld v 1 0 = 3 then (stRsvd, s)
  else if !isMemory (64 * line) ∨ !backed s (64 * line) then (stRange, s)
  else if fld v 1 0 = 1 then (stOk, (request .cmoc .agent line {} s).2)
  else
    let s1 := (request .cmoi .agent line {} s).2
    let h := homeOf s1 line
    let s2 := setSlice h { slice s1 h with l3 := (slice s1 h).l3.filter fun e => match e.2 with | some l => l.line != line | none => true } s1
    (stOk, { s2 with mem := { s2.mem with priv := s2.mem.priv.map fun e =>
      (e.1, { e.2 with l1i := dropLine e.2.l1i line, l1d := dropLine e.2.l1d line, l2 := dropLine e.2.l2 line }) } })

/-! ### Errors in the arrays (09 R242, R243) -/

/-- Count a corrected error at an address not yet counted within 24 hours; way + 16 marks an uncorrectable one. [DEDUCED, log entry 50] -/
def countErr (way line now : Nat) (es : List (Nat × Nat × Nat)) : List (Nat × Nat × Nat) :=
  if es.any fun e => e.1 == way && e.2.1 == line && decide (now < e.2.2 + dayNs) then es else (way, line, now) :: es
/-- Is a way due for retirement (09 R243)? [DEDUCED, log entry 50] -/
def wayDue (way now : Nat) (es : List (Nat × Nat × Nat)) : Bool :=
  (es.any fun e => e.1 == way + 16) || decide (3 ≤ (es.filter fun e => e.1 == way && decide (now < e.2.2 + dayNs)).length)

/-- A line of an L2's or a slice's own scratchpad, in the apertures (01 R32). -/
def ownAperture (s : State) (isL3 : Bool) (unit line : Nat) : Bool :=
  match placeOf (64 * line) with
  | some p => decide (p.region = .scratch ∧ p.slot = slotOf s) && scratchBacked s p.off && (match scratchUnit p.off with
    | some (l2, n, _) => l2 != isL3 && (if isL3 then n == unit else lcOfPc s unit == some n)
    | none => false)
  | none => false
/-- A way of a slice that is due goes out of use from now on: it takes no more lines, and BUSY shows it (09 R243, R244). -/
def beginRetire (n way : Nat) (s : State) : State :=
  if wayDue way (nowNs s) (slice s n).errs && (slice s n).retiring.isNone && !(slice s n).retired.getLsbD way then
    setSlice n { slice s n with retiring := some way } s
  else s

/-- A patrol read of one array meets an error in a way: 0 none, 1 corrected, else uncorrectable. `what`: 0 L1I, 1 L1D, 2 L2, 3 L3. A line of
a scratchpad way is named by its address in the aperture. [DEDUCED, log entry 50] -/
def patrol (what unit way line err : Nat) (s : State) : State :=
  if err = 0 then s
  else if what ≤ 1 then
    let p := priv s unit
    let s1 := setPriv unit { p with l1i := if what = 0 then dropLine p.l1i line else p.l1i, l1d := if what = 1 then dropLine p.l1d line else p.l1d,
                                    l1iParity := if what = 0 then nowNs s :: p.l1iParity else p.l1iParity,
                                    l1dParity := if what = 1 then nowNs s :: p.l1dParity else p.l1dParity } s
    logFault 5 0 (uCore unit) (lcOfPc s unit) what (64 * line) s1
  else if what = 2 then
    let p := priv s unit
    if err = 1 then setPriv unit { p with errs := countErr way line (nowNs s) p.errs } s
    else
      let s1 := setPriv unit { p with errs := (way + 16, line, nowNs s) :: p.errs } s
      if p.spMask.getLsbD way && ownAperture s false unit line then poisonLine line s1 else
      match findLine p.l2 line with
      | some (_, l) => if l.st = .m ∨ l.st = .o then poisonLine line s1 else dropL2 unit line s1
      | none => s1
  else
    let sl := slice s unit
    if err = 1 then beginRetire unit way (setSlice unit { sl with errs := countErr way line (nowNs s) sl.errs } s)
    else
      let s1 := beginRetire unit way (setSlice unit { sl with errs := (way + 16, line, nowNs s) :: sl.errs } s)
      if sl.spMask.getLsbD way && ownAperture s true unit line then poisonLine line s1 else
      match findL3 sl line with
      | some (_, l) =>
        if l.dirty then poisonLine line s1
        else setSlice unit { slice s1 unit with l3 := (slice s1 unit).l3.filter fun e => match e.2 with | some x => x.line != line | none => true } s1
      | none => s1

/-- A way that is due is retired (09 R243 to R245); `bad` names the line whose data was uncorrectable. -/
def retireDue (isL3 : Bool) (unit way : Nat) (bad : Option Nat) (s : State) : State :=
  if isL3 then
    if wayDue way (nowNs s) (slice s unit).errs then retireL3Way unit way ((slice s unit).errs.any fun e => e.1 == way + 16) bad s else s
  else if wayDue way (nowNs s) (priv s unit).errs then retireL2Way unit way ((priv s unit).errs.any fun e => e.1 == way + 16) bad s
  else s

end Sys2Proof.Machine
end

