-- ==== Sys2Proof/Machine/Franking.lean ====
section
/-! DEFINITION. Franking (12): reservations and their admission, the checks of FRK writes. -/

namespace Sys2Proof.Machine

def resLimit (s : State) (r : Nat) : Nat := capacity s r * rfld s frkCeilOff 4 0 / 100

/-- The charge of an entry's written value, or of the value in force until a release takes effect (12 R305). -/
def resChargeNow (s : State) (n r : Nat) : Nat :=
  let w0 := reg s (frkResOff n 0)
  let a0 := regAct s (frkResOff n 0)
  if w0.getLsbD 31 then (if maskNames (reg s (frkResOff n 1)) (reg s (frkResOff n 2)) r then fld w0 15 0 else 0)
  else if a0.getLsbD 31 then (if maskNames (regAct s (frkResOff n 1)) (regAct s (frkResOff n 2)) r then fld a0 15 0 else 0)
  else 0
/-- A word of an entry as a commit will leave it. -/
def nextRes (s : State) (n w : Nat) : Word32 :=
  match smGet optDef s.ctl.staged (frkResOff n w), smGet optDef s.ctl.committed (frkResOff n w) with
  | some v, _ => v
  | none, some v => v
  | none, none => reg s (frkResOff n w)
/-- What an entry charges a resource: its written value, the value in force until the boundary that releases it (12 R305), and, while a
commit is to change it, the larger FLITS wherever either mask names it (21 R514). -/
def resCharge (s : State) (n r : Nat) : Nat :=
  let names (f : Nat → Word32) : Bool := (f 0).getLsbD 31 && maskNames (f 1) (f 2) r
  let flits (f : Nat → Word32) : Nat := if (f 0).getLsbD 31 then fld (f 0) 15 0 else 0
  let old (w : Nat) : Word32 := reg s (frkResOff n w)
  let new (w : Nat) : Word32 := nextRes s n w
  if (List.range 3).all fun w => new w == old w then resChargeNow s n r
  else if names old || names new then max (max (flits old) (flits new)) (resChargeNow s n r)
  else resChargeNow s n r
def chargedBut (s : State) (skip r : Nat) : Nat :=
  ((List.range 540).map fun n => if n = skip then 0 else resCharge s n r).foldl (· + ·) 0
def charged (s : State) (r : Nat) : Nat := chargedBut s 540 r
def rfree (s : State) (i : Nat) : Nat := resLimit s i * 2 ^ 16 + (resLimit s i - charged s i)

/-- The words of W1 and W2 that a write of W0 takes (12 R305): those held since, else the present ones. [DEDUCED, log entry 48] -/
def heldRes (s : State) (n w : Nat) : Word32 :=
  match s.ctl.regs.find? fun e => e.1 == bankKey (frkResOff n w) 600 with
  | some e => e.2
  | none => reg s (frkResOff n w)
/-- [DEDUCED, log entry 48] -/
def holdRes (n w : Nat) (v : Word32) (s : State) : State :=
  { s with ctl := { s.ctl with regs := smInsert s.ctl.regs (bankKey (frkResOff n w) 600) v } }
def dropHeldRes (n w : Nat) (s : State) : State :=
  { s with ctl := { s.ctl with regs := smDrop s.ctl.regs (bankKey (frkResOff n w) 600) } }

def portOut (s : State) (p : Nat) : Bool := decide ((smGet (fun _ => ({} : Port)) s.links.ports p).state = .out)

/-- A mask bit that names an excluded controller or a port out of service (12 R306). -/
def namesAbsent (s : State) (w1 w2 : Word32) : Bool :=
  (List.range 8).any fun j => (w1.getLsbD (8 + j) && (memCtl s (8 + j)).excluded) || (w2.getLsbD j && portOut s j)

/-- The admission check of a write of W0 (12 R305, R306): ok, `ST_RANGE` or `ST_BUDGET`. [DEDUCED, log entry 48] -/
def resAdmission (n : Nat) (w0 w1 w2 : Word32) (s : State) : Nat :=
  if 535 ≤ n ∨ (n < 512 ∧ !bound s n) ∨ namesAbsent s w1 w2 then stRange
  else if !w0.getLsbD 31 then stOk
  else if fld w0 15 0 = 0 then stRange
  else if (List.range 40).all fun r => !maskNames w1 w2 r || decide (chargedBut s n r + fld w0 15 0 ≤ resLimit s r) then stOk
  else stBudget

/-- The sum of shares of a kind with the ceiling (12 R303). -/
def shareSum (v : Word32) : Nat := fld v 23 16 + fld v 15 8 + fld v 7 0

/-- The value checks of FRK writes beyond reserved bits (12 R303, R305, R306, R309, R317, R320). -/
def frkCheck (off : Nat) (v : Word32) (s : State) : Nat :=
  if off < 0x800020 then (if fld v 4 0 < 8 ∨ 16 < fld v 4 0 then stRange else stOk)
  else if off = frkCeilOff then
    if 20 < fld v 4 0 ∨ ((List.range 5).any fun i => decide (100 < fld v 4 0 + shareSum (reg s (0x800040 + 4 * i)))) then stRange
    else if (List.range 40).any fun r => decide (capacity s r * fld v 4 0 / 100 < charged s r) then stBudget
    else stOk
  else if 0x800040 ≤ off ∧ off < 0x800054 then (if 100 < rfld s frkCeilOff 4 0 + shareSum v then stRange else stOk)
  else if off = 0x800060 then
    if fld v 31 24 < 1 ∨ 4 < fld v 31 24 ∨ fld v 23 16 < 1 ∨ 8 < fld v 23 16 ∨ fld v 15 8 < 1 ∨ 4 < fld v 15 8 ∨ fld v 7 0 < 4 ∨ 32 < fld v 7 0 then stRange
    else stOk
  else if 0x900000 ≤ off ∧ off < 0x900000 + 16 * 540 then
    let n := (off - 0x900000) / 16
    if (off - 0x900000) % 16 = 0 then resAdmission n v (heldRes s n 1) (heldRes s n 2) s
    else if 535 ≤ n ∨ (n < 512 ∧ !bound s n) ∨ (if (off - 0x900000) % 16 = 4 then namesAbsent s v 0 else namesAbsent s 0 v) then stRange
    else stOk
  else stOk

/-- Apply an accepted FRK write: W1 and W2 are held until W0 (12 R305). [DEDUCED, log entry 48] -/
def frkApply (off : Nat) (v : Word32) (s : State) : State :=
  if 0x900000 ≤ off ∧ off < 0x900000 + 16 * 540 then
    let n := (off - 0x900000) / 16
    match (off - 0x900000) % 16 with
    | 0 => setReg off v (dropHeldRes n 1 (dropHeldRes n 2 (setReg (frkResOff n 1) (heldRes s n 1) (setReg (frkResOff n 2) (heldRes s n 2) s))))
    | 4 => holdRes n 1 v s
    | _ => holdRes n 2 v s
  else setReg off v s

end Sys2Proof.Machine
end

