-- ==== Sys2Proof/Machine/Route.lean ====
section
/-! DEFINITION. The router's sending side (15 R380, R381, R386 to R388, R393): credits, frames, the choice of a port. -/

namespace Sys2Proof.Machine

def portDef (_ : Nat) : Port := {}
def port (s : State) (p : Nat) : Port := smGet portDef s.links.ports p
def setPort (p : Nat) (x : Port) (s : State) : State := { s with links := { s.links with ports := smPut portDef s.links.ports p x } }
def updPort (p : Nat) (f : Port → Port) (s : State) : State := setPort p (f (port s p)) s
def vxBase (p : Nat) : Nat := 0x4000000 + 0x100000 * p
/-- The device number (13 R321). -/
def devNum (s : State) : Nat := rfld s 0x3000008 15 0
def portUp (s : State) (p : Nat) : Bool := decide ((port s p).state = .up)
def portsUp (s : State) : Nat := ((List.range 8).map fun p => if portUp s p then 2 ^ p else 0).foldl (· + ·) 0

def vxTxflit (p n : Nat) (s : State) : State := bumpBy (vxBase p + 0x50) n s
def vxRxflit (p n : Nat) (s : State) : State := bumpBy (vxBase p + 0x58) n s
def vxRetry (p : Nat) (s : State) : State := bump (vxBase p + 0x60) s
def vxFecUnc (p : Nat) (s : State) : State := bump (vxBase p + 0x70) s
def vxEsc (p : Nat) (s : State) : State := bump (vxBase p + 0x78) s
def vxDrop (p : Nat) (s : State) : State := bump (vxBase p + 0x80) s

/-- Is a wake source enabled (22 R536): a core, a link and the mailbox always, the others by `PWR_WAKE_EN`? -/
def wakeOn (s : State) (bit : Nat) : Bool := decide (bit < 2 ∨ bit = 8) || (reg s 0x100018).getLsbD bit
/-- Latch a wake source (22 R536, R538): bits as `PWR_WAKE_LAST` numbers them. One that arrives during an exit is counted there. -/
def latchWake (bit : Nat) (s : State) : State :=
  let b := BitVec.ofNat 9 (2 ^ bit)
  if !wakeOn s bit then s
  else if s.power.exiting then { s with power := { s.power with wakeLast := s.power.wakeLast ||| b } }
  else if s.power.entering || decide (s.power.pstate ≠ 0) then
    { s with power := { s.power with wakeLatch := s.power.wakeLatch ||| b } }
  else s
/-- [DESIGN CHOICE, log entry 59] -/
def wakeLink : Nat := 0
def wakeMailbox : Nat := 1
def wakeTimer : Nat := 2
def wakeGpio : Nat := 3
def wakePcie : Nat := 4
def wakeSync : Nat := 5
def wakeCore : Nat := 8

/-! ### Credits (15 R380, R381) -/

def creditInit (vc : Nat) : Nat := if vc < 5 then 64 else 8
def creditsOf (po : Port) (vc : Nat) : Nat := smGet creditInit po.credits vc
def setCredits (po : Port) (vc n : Nat) : Port := { po with credits := smPut creditInit po.credits vc n }
/-- The virtual channel of a message: the main channel of its class, or the escape channel. -/
def vcOf (m : Msg) : Nat := m.mc.toNat - 1 + (if m.esc then 5 else 0)
/-- The value by which a message is treated (02 R51): while a commit is in flight, a block that has switched treats a message of the other
epoch parity by what was in force before. -/
def actFor (s : State) (m : Msg) (off : Nat) : Word32 :=
  if m.epar = decide (s.ctl.epoch % 2 = 1) then regAct s off else (smGet optDef s.ctl.oldActive off).getD (regAct s off)
/-- Credits only TC0 may use. -/
def tc0Only (s : State) (m : Msg) (vc : Nat) : Nat := if vc < 5 then fld (actFor s m 0x800060) 7 0 else 2
/-- Is the message TC0 at a port's egress: of TC0, within its initiator's budget and a reservation that names the port (12 R307)? A
response has no initiator here, and keeps the class of its request. -/
def tc0At (s : State) (p : Nat) (m : Msg) : Bool :=
  decide (m.tc = 0) && !m.isOver && match m.init with
    | some i => resNames s i [32 + p]
    | none => true
/-- A credit this message may take (12 R317). -/
def hasCredit (s : State) (p : Nat) (m : Msg) : Bool :=
  decide ((if tc0At s p m then 0 else tc0Only s m (vcOf m)) < creditsOf (port s p) (vcOf m))
/-- May the port take the message now: up, a credit held, room in the 128-frame retry buffer (R382)? -/
def canSend (s : State) (p : Nat) (m : Msg) : Bool := portUp s p && !islandSilent s (uPort p) && !(port s p).sleepAgreed && hasCredit s p m && decide ((port s p).retryBuf.length < 128)

/-- Chunks of a message, header included (R377). -/
def msgLen (m : Msg) : Nat := 1 + m.chunks.length
/-- Put messages into the next frame (R376, R382). [DESIGN CHOICE, log entry 59] -/
def sendFrame (p : Nat) (ms : List Msg) (s : State) : State :=
  let po := port s p
  let n := ((ms.map msgLen).foldl (· + ·) 0 + 3) / 4
  let f : Frame := { fseq := po.txSeq, msgs := ms, aseq := po.rxSeq, akind := po.ackKind, coh := decide (po.join.state = .coherent) }
  let w : LinkPower := if po.pwr = .standby then .active else po.pwr
  vxTxflit p n (setPort p { po with txSeq := po.txSeq + 1, retryBuf := po.retryBuf ++ [f], ackKind := 0, pwr := w } s)
/-- A link-control message takes no credit (R379). -/
def sendCtl (p : Nat) (kind : BitVec 8) (k : BitVec 40) (chunks : List (BitVec 128)) (s : State) : State :=
  sendFrame p [{ kind := kind, kspec := k, chunks := chunks }] s
/-- Send on a port: a credit is used and HOPS incremented (R381, R387), the chunks counted against the class's share (12 R303).
[DESIGN CHOICE, log entry 59] -/
def transmit (p : Nat) (m : Msg) (s : State) : State :=
  let po := port s p
  let s1 := setPort p (setCredits po (vcOf m) (creditsOf po (vcOf m) - 1)) s
  let s2 := sendFrame p [{ m with hops := m.hops + 1 }] (serveFlits (280 + p) (if tc0At s p m then 0 else max 1 m.tc.toNat) (msgLen m) s1)
  if m.esc then vxEsc p s2 else s2
/-! ### Coherent messages (10 R262, R263; 15 R377, R378) -/

/-- Ports in service that are joined with the peer in a slot. -/
def joinedWith (s : State) (slot : Nat) : List Nat :=
  (List.range 8).filter fun p => decide ((port s p).join.state = .coherent) && (port s p).join.peerSlot == slot && portUp s p
def reqNum : ReqKind → Nat
  | .rs => 0
  | .ru => 1
  | .upg => 2
  | .wb => 3
  | .evc => 4
  | .rnc => 5
  | .fw => 6
  | .pw => 7
  | .famo => 8
  | .cmoc => 9
  | .cmoi => 10
def snoopNum : SnoopKind → Nat
  | .shared => 11
  | .unique => 12
  | .inv => 13
  | .read => 14
  | .clean => 15
def cohNum : CohKind → Nat
  | .req k => reqNum k
  | .snoop k => snoopNum k
  | .answer d n => 16 + d.toNat + 2 * n.toNat
  | .grant k => 20 + reqNum k
  | .tlbi c => 32 + c
  | .tlbiAck => 31
  | .epoch => 1000
/-- Requests go in MC4, snoops in MC3, answers in MC2 (R377). -/
def cohClass : CohKind → BitVec 3
  | .req _ | .tlbi _ => 4
  | .snoop _ => 3
  | _ => 2
/-- The message: chunk 1 holds the line address, four more the line where it is carried. [DESIGN CHOICE, log entry 96] -/
def cohMsg (s : State) (p : Nat) (m : CohMsg) : Msg :=
  { kind := BitVec.ofNat 8 (0x10 + Config.cohType (cohNum m.kind) % 48), mc := cohClass m.kind, tc := m.tc,
    src := BitVec.ofNat 16 (devNum s), dst := BitVec.ofNat 16 (port s p).peerDev, epar := decide (s.ctl.epoch % 2 = 1),
    chunks := BitVec.ofNat 128 m.line :: match m.data with
      | some v => (List.range 4).map fun i => BitVec.ofNat 128 (natBits v.toNat (128 * i + 127) (128 * i))
      | none => [] }
/-- One coherent message leaves on a joined port that can take it, of two at most that carry the pair's traffic (10 R262); without one it
waits, and without a joined pair it is dropped. -/
def sendCohOne (s : State) (m : CohMsg) : State :=
  if !s.links.peers.getLsbD m.slot then s
  else match ((joinedWith s m.slot).take 2).find? fun p => canSend s p (cohMsg s p m) with
    | some p => transmit p (cohMsg s p m) s
    | none => { s with links := { s.links with cohOut := s.links.cohOut ++ [m] } }
def sendCoh (s : State) : State := s.links.cohOut.foldl sendCohOne { s with links := { s.links with cohOut := [] } }

/-- A fast retrain completes: active, every credit granted again, every frame of the retry buffer replayed (R380, R383, R393). -/
def retrained (p : Nat) (s : State) : State := updPort p (fun po => { po with pwr := .active, credits := [], retries := 0, sleepReq := false, sleepAgreed := false }) s

/-! ### The choice of a route (15 R386, R387) -/

def mbits (s : State) : Nat := rfld s 0x4080000 3 0
/-- The entry of a message's destination: member table in the own group, else group table. -/
def routeEntry (s : State) (m : Msg) : Word32 :=
  let dst := m.dst.toNat
  let b := 2 ^ mbits s
  if dst / b = devNum s / b then actFor s m (0x4090000 + 4 * (dst % b)) else actFor s m (0x40A0000 + 4 * (dst / b))

/-- What the router makes of a message. -/
inductive Routed
  | here | sent | wait | loop | unreachable
deriving DecidableEq, Repr

/-- The better of two ports: the most free main credits, the lowest on a tie. -/
def betterPort (s : State) (m : Msg) (best : Option Nat) (p : Nat) : Option Nat :=
  match best with
  | none => some p
  | some b => if creditsOf (port s b) (vcOf m) < creditsOf (port s p) (vcOf m) then some p else some b

/-- One message at the router; `expired` says ESCWAIT has passed. A port in LISTEN is woken where no other will do (R393). -/
def route (expired : Bool) (m : Msg) (s : State) : Routed × State :=
  let dst := m.dst.toNat
  if dst = devNum s then (.here, s)
  else if fld (actFor s m 0x4080000) 20 16 ≤ m.hops then (.loop, logFault 0x204 5 uDevice none dst 0 s)
  else
    let e := routeEntry s m
    let up := (List.range 8).filter fun p => e.getLsbD (8 + p) && portUp s p
    let escPort := fld e 2 0
    let esc := e.getLsbD 3 && portUp s escPort
    if up.isEmpty ∧ !esc then (.unreachable, s)
    else
      let free := up.filter fun p => canSend s p m
      let awake := free.filter fun p => decide ((port s p).pwr ≠ .listen)
      let goMain := !m.esc && !m.ordered && !up.isEmpty
      match (if goMain then (if awake.isEmpty then free else awake).foldl (betterPort s m) none else none) with
      | some p => (.sent, transmit p m (if (port s p).pwr = .listen then retrained p s else s))
      | none =>
        if (goMain && !expired) || !esc then (.wait, s)
        else
          let m1 := { m with esc := true }
          let s1 := if (port s escPort).pwr = .listen then retrained escPort s else s
          if canSend s1 escPort m1 then (.sent, transmit escPort m1 s1) else (.wait, s1)

/-! ### The order at an output (12 R304, R316) -/

/-- The port a message would leave by first. -/
def egressOf (s : State) (m : Msg) : Nat :=
  let e := routeEntry s m
  ((List.range 8).find? fun p => e.getLsbD (8 + p) && portUp s p).getD (fld e 2 0)
/-- Classes in ascending order, one passed over 8 times before them; within a channel TC0 first, then the steps of R304. -/
def serveKey (s : State) (m : Msg) : Nat :=
  let c := m.mc.toNat
  let p := egressOf s m
  (if 8 ≤ smGet zeroNat s.links.passed c then 0 else c) * 4 + (if tc0At s p m then 0 else 1 + serveStep s (280 + p) m.tc.toNat m.isOver (tc0At s p m))
def insertKey (s : State) (e : Nat × Msg) : List (Nat × Msg) → List (Nat × Msg)
  | [] => [e]
  | x :: r => if serveKey s e.2 < serveKey s x.2 then e :: x :: r else x :: insertKey s e r
/-- What waits, in the order it is served; what stands alike keeps its order, oldest first. -/
def serveOrder (s : State) (ws : List (Nat × Msg)) : List (Nat × Msg) := ws.foldl (fun acc e => insertKey s e acc) []
/-- Count the classes passed over: one that still waits while another was served (R316). -/
def countPassed (before : List (Nat × Msg)) (s : State) : State :=
  let n (ws : List (Nat × Msg)) (c : Nat) : Nat := ws.countP fun e => e.2.mc.toNat == c
  let sent (c : Nat) : Bool := decide (n s.links.waiting c < n before c)
  let any := (List.range 8).any sent
  let f (m : SMap Nat) (c : Nat) : SMap Nat :=
    if sent c ∨ n s.links.waiting c = 0 then smPut zeroNat m c 0
    else if any then smPut zeroNat m c (smGet zeroNat m c + 1)
    else m
  { s with links := { s.links with passed := (List.range 8).foldl f s.links.passed } }

/-- Inject a message of this device; one that must wait joins the waiting messages, which stand with the port they came in on (8: none). -/
def sendMsg (m : Msg) (s : State) : Routed × State :=
  let m1 := { m with src := BitVec.ofNat 16 (devNum s), epar := decide (s.ctl.epoch % 2 = 1) }
  let r := route false m1 s
  if r.1 = .wait then (.wait, { r.2 with links := { r.2.links with waiting := r.2.links.waiting ++ [(8, m1)] } }) else r

/-- A transaction identifier (R377). -/
def newTid (s : State) : BitVec 12 × State := (s.links.nextTid, { s with links := { s.links with nextTid := s.links.nextTid + 1 } })

/-- The four chunks of 64 bytes. [DESIGN CHOICE, log entry 55] -/
def chunksOf (v : Vec) : List (BitVec 128) := (List.range 4).map fun i => BitVec.ofNat 128 (natBits v.toNat (128 * i + 127) (128 * i))
def vecOfChunks (cs : List (BitVec 128)) : Vec :=
  BitVec.ofNat 512 (((List.range 4).map fun i => (cs.getD i 0).toNat * 2 ^ (128 * i)).foldl (· + ·) 0)
/-- LETTER and COMMAND messages (R377). -/
def letterMsg (kind : BitVec 8) (dst : Nat) (tid : BitVec 12) (tc : BitVec 2) (ordered : Bool) (l : Letter) : Msg :=
  { kind := kind, mc := 5, tc := tc, tid := tid, dst := BitVec.ofNat 16 dst, kspec := l.postmark.setWidth 40, chunks := chunksOf l.data,
    ordered := ordered }
/-- A data message: chunk 1 holds the offset within the command, its bit 0 whether the data is poisoned, and the byte mask.
[DESIGN CHOICE, log entry 55] -/
def dataMsg (kind : BitVec 8) (mc : BitVec 3) (dst : Nat) (tid : BitVec 12) (tc : BitVec 2) (off : Nat) (mask : Nat) (poison : Bool) (v : Vec) : Msg :=
  { kind := kind, mc := mc, tc := tc, tid := tid, dst := BitVec.ofNat 16 dst,
    chunks := BitVec.ofNat 128 (mask * 2 ^ 64 + off + poison.toNat) :: chunksOf v }
/-- CMD_RESP: chunk 1 holds the status, CFLAGS and VALUE. [DESIGN CHOICE, log entry 55] -/
def respMsg (dst : Nat) (tid : BitVec 12) (tc : BitVec 2) (st flags : Nat) (v : Word64) : Msg :=
  { kind := 5, mc := 2, tc := tc, tid := tid, dst := BitVec.ofNat 16 dst, chunks := [BitVec.ofNat 128 (v.toNat * 2 ^ 64 + flags * 256 + st)] }

end Sys2Proof.Machine
end

