-- ==== Sys2Proof/Machine/Office.lean ====
section
/-! DEFINITION. The sorting office (13): queues, storage, refusal, reports, the dead-letter ring, queue commands, consumers. -/

namespace Sys2Proof.Machine

/-- The order of checks of 02 R41. -/
def checkOrder : List Nat := [2, 1, 15, 14, 9, 8, 5, 4, 10, 3, 6, 13, 7, 12, 11]
/-- The first code of the order of checks among those that apply; `ST_OK` where none does. -/
def firstCode (cs : List Nat) : Nat := (checkOrder.find? fun c => cs.contains c).getD stOk
def codeIf (b : Bool) (c : Nat) : List Nat := if b then [c] else []

def qDef (_ : Nat) : Queue := {}
def queueOf (s : State) (q : Nat) : Queue := smGet qDef s.office.queues q
def setQueue (q : Nat) (x : Queue) (s : State) : State := { s with office := { s.office with queues := smPut qDef s.office.queues q x } }

/-! ### Descriptor fields (13 R341) -/

def qw (x : Queue) (w : Nat) : Word32 := x.words.getD w 0
def qKind (x : Queue) : Nat := fld (qw x 0) 28 27
def qClass (x : Queue) : Nat := fld (qw x 0) 26 25
def qLeased (x : Queue) : Bool := (qw x 0).getLsbD 24
def qReserve (x : Queue) : Bool := (qw x 0).getLsbD 23
def qOrdered (x : Queue) : Bool := (qw x 0).getLsbD 22
def qBurst (x : Queue) : Nat := fld (qw x 1) 31 16
def ringLog2 (x : Queue) : Nat := fld (qw x 4) 4 0
def ringBase (x : Queue) : Nat := fld (qw x 4) 31 12 * 4096 + (qw x 5).toNat * 2 ^ 32
def ringRoom (x : Queue) : Nat := if ringLog2 x = 0 then 0 else 2 ^ ringLog2 x
def qCount (x : Queue) : Nat := x.burst.length + x.ring.length
def stateCode : QState → Nat
  | .free => 0
  | .active => 1
  | .draining => 2
  | .fenced => 3

/-- Words W0 to W15 as they read (R341). -/
def qdWord (x : Queue) (w : Nat) : Word32 :=
  match x.state with
  | .free => 0
  | _ =>
    match w with
    | 0 => putFld (qw x 0) 31 29 (stateCode x.state)
    | 9 => BitVec.ofNat 32 (qCount x)
    | 10 => BitVec.ofNat 32 (x.spill.toNat * 2 ^ 31 + (decide (0 < x.oldLeft)).toNat * 2 ^ 30 + x.lease.isSome.toNat * 2 ^ 29 + x.lease.getD 0)
    | 11 => BitVec.ofNat 32 x.ringHead
    | 12 => BitVec.ofNat 32 x.ringTail
    | 13 => BitVec.ofNat 32 x.burst.length
    | _ => if w < 9 then qw x w else 0

/-! ### Burst storage (R333, R342, R348) -/

def sopOut (s : State) (p : Nat) : Bool := s.office.sopFenced.getLsbD p
/-- No pipeline of the I/O tile is left to take a pipeline's queues over (20 R493). -/
def sopDown (s : State) (p : Nat) : Bool := islandSilent s (uSop p) || (List.range 4).all fun i => sopOut s (p / 4 * 4 + i)
def ownedBy (s : State) (p : Nat) : List (Nat × Queue) := s.office.queues.filter fun e => e.1 % 8 == p
def poolReserved (s : State) (p : Nat) : Nat := ((ownedBy s p).map fun e => if qReserve e.2 then qBurst e.2 else 0).foldl (· + ·) 0
/-- Entries in use beyond the reserved allotments. -/
def poolUsed (s : State) (p : Nat) : Nat :=
  ((ownedBy s p).map fun e => if qReserve e.2 then e.2.burst.length - qBurst e.2 else e.2.burst.length).foldl (· + ·) 0
def poolFree (s : State) (p : Nat) : Nat := 131072 - poolReserved s p - poolUsed s p
/-- Room in burst storage for one more letter of the queue. -/
def burstRoom (s : State) (q : Nat) (x : Queue) : Bool := decide (x.burst.length < qBurst x) && (qReserve x || decide (0 < poolFree s (q % 8)))

def soCnt (off : Nat) (s : State) : State := bump (0x3000000 + off) s
def cntAccept : Nat := 0x210
def cntDeq : Nat := 0x218
def cntSpill : Nat := 0x220
def cntDead : Nat := 0x228
def cntNdr : Nat := 0x230
def cntNak : Nat := 0x238
def cntNdrlost : Nat := 0x240

/-! ### Trigger counters and firing (14 R361 to R365) -/

def ctrOf (s : State) (c : Nat) : Word64 := smGet word0 s.office.ctrs c
def setCtr (c : Nat) (v : Word64) (s : State) : State := { s with office := { s.office with ctrs := smPut word0 s.office.ctrs c v } }
def slotDef (_ : Nat) : Option Slot := none
def slotAt (s : State) (n : Nat) : Option Slot := smGet slotDef s.office.slots n
def putSlot (n : Nat) (x : Option Slot) (s : State) : State := { s with office := { s.office with slots := smPut slotDef s.office.slots n x } }

/-- Put a due slot in its place: ascending threshold, then the order of arming. -/
def insertDue (n : Nat) (x : Slot) : List (Nat × Slot) → List (Nat × Slot)
  | [] => [(n, x)]
  | (m, y) :: r =>
    if x.thresh.toNat < y.thresh.toNat ∨ (x.thresh = y.thresh ∧ x.order < y.order) then (n, x) :: (m, y) :: r else (m, y) :: insertDue n x r
def dueSlots (s : State) (c : Nat) : List (Nat × Slot) :=
  s.office.slots.foldr (fun e acc => match e.2 with
    | some x => if x.ctr = c ∧ x.thresh.toNat ≤ (ctrOf s c).toNat then insertDue e.1 x acc else acc
    | none => acc) []
/-- A slot fires: FREE at that moment, its command ready to start. -/
def fireSlot (n : Nat) (x : Slot) (s : State) : State :=
  let s1 := putSlot n none s
  { s1 with office := { s1.office with ready := s1.office.ready ++ [{ x.cmd with slot := some n, cpm := s.time.now }] } }
def fireCtr (c : Nat) (s : State) : State := (dueSlots s c).foldl (fun a e => fireSlot e.1 e.2 a) s
def advanceCtr (c : Nat) (n : Word64) (s : State) : State := fireCtr c (setCtr c (ctrOf s c + n) s)
def setCounter (c : Nat) (v : Word64) (s : State) : State := fireCtr c (setCtr c v s)

/-! ### Doorbells and arm slots (13 R346; 07 R187) -/

def bellOn (x : Queue) : Bool := fld (qw x 0) 21 20 == 1
/-- The doorbell after COUNT changed from `before`. -/
def ringBell (q before : Nat) (s : State) : State :=
  let x := queueOf s q
  let n := qCount x
  let th := fld (qw x 2) 31 16
  match x.bell with
  | .armed => if bellOn x && decide (before < th ∧ th ≤ n) then raiseMsg (fld (qw x 1) 12 0) (setQueue q { x with bell := .byThresh } s) else s
  | .byThresh => if n < th then setQueue q { x with bell := .armed } s else s
  | .byHold => if n = 0 then setQueue q { x with bell := .armed } s else s

/-- A queue that a consumer could wait on: in service and holding a letter. -/
def queueHolds (s : State) (q : Nat) : Bool :=
  let x := queueOf s q
  s.office.running && !sopDown s (q % 8) && decide (x.state = .active ∨ x.state = .draining) && decide (0 < qCount x)
/-- The SLOT bits that the arm slots of a core call for, of one queue or of all. -/
def slotBits (s : State) (r : Regs) (only : Option Nat) : Nat :=
  ((List.range 8).map fun n =>
    let w := csr r (0x418 + n)
    let q := fld w 15 0
    if w.getLsbD 63 && (only.isNone || only == some q) && queueHolds s q then 2 ^ (8 + n) else 0).foldl (· + ·) 0
/-- [DEDUCED, log entry 54] -/
def armRegs (s : State) (only : Option Nat) (r : Regs) : Regs := setCsr r 0x410 (csr r 0x410 ||| BitVec.ofNat 64 (slotBits s r only))
/-- Set the SLOT bits of every core that watches the queue (R187). -/
def armQueue (only : Option Nat) (s : State) : State :=
  { s with cores := s.cores.map fun e => (e.1, { e.2 with regs := armRegs s only e.2.regs }) }

/-- A queue that drains becomes FREE once empty: its lease ends, the slots it armed are freed (13 R344; 14 R355). -/
def freeIfDrained (q : Nat) (s : State) : State :=
  let x := queueOf s q
  if x.state = .draining ∧ qCount x = 0 ∧ x.oldLeft = 0 then
    let s1 := setQueue q {} s
    { s1 with office := { s1.office with slots := s1.office.slots.filter fun e => match e.2 with | some y => y.cmd.q != q | none => true } }
  else s

/-! ### The dead-letter ring (13 R340) -/

def dlrLog2 (s : State) : Nat := rfld s 0x3000018 4 0
def dlrHead (s : State) : Word32 := reg s 0x300001C
def dlrTail (s : State) : Word32 := reg s 0x3000020
def dlrBase (s : State) : Nat := reg64 s 0x3000010
def dlrFull (s : State) : Bool := dlrHead s - dlrTail s == BitVec.ofNat 32 (2 ^ dlrLog2 s)
/-- The 128 bytes of an entry. -/
def dlrEntry (s : State) (r q : Nat) (l : Letter) : List Byte :=
  bytesOf l.data 64 ++ bytesOf l.postmark 8 ++ [BitVec.ofNat 8 r, BitVec.ofNat 8 (q % 8), 0, 0] ++
    bytesOfNat (devNum s * 65536 + q) 4 ++ bytesOf s.time.now 8 ++ bytesOfNat 0 40
/-- Write an entry; none while the ring is full. -/
def deadLetter (r q : Nat) (l : Letter) (s : State) : Option State :=
  if dlrFull s then none
  else
    let h := dlrHead s
    some (soCnt cntDead (setReg 0x300001C (h + 1) (agentWrite (qClass (queueOf s q)) (dlrBase s + h.toNat % 2 ^ dlrLog2 s * 128) (dlrEntry s r q l) s)))

/-! ### Storage and order (13 R333, R334) -/

/-- A pipeline's request for the line of a ring, in the class of its queue (R329). -/
def sopInject (q pa : Nat) (s : State) : State := inject (512 + q % 8) (qClass (queueOf s q)) 1 (lineResources s pa) s

/-- Store a letter: burst storage, then the bulk ring; none where neither takes it (R333). -/
def storeLetter (q : Nat) (l : Letter) (s : State) : Option State :=
  let x := queueOf s q
  if !x.spill && burstRoom s q x then some (setQueue q { x with burst := x.burst ++ [l] } s)
  else if x.ring.length - x.oldLeft < ringRoom x then
    let pa := ringBase x + x.ringTail % ringRoom x * 64
    let e : RingEntry := { pa := pa, postmark := l.postmark, via := l.via }
    let y := { x with ring := x.ring ++ [e], ringTail := (x.ringTail + 1) % 2 ^ 32, spill := true }
    some (soCnt cntSpill (sopInject q pa (setQueue q y (agentWrite (qClass x) pa (bytesOf l.data 64) s))))
  else none

/-- What follows an acceptance: the counts, the doorbell, the arm slots, the trigger counter (R346). -/
def accepted (q before : Nat) (s : State) : State :=
  let s1 := armQueue (some q) (ringBell q before (soCnt cntAccept s))
  let x := queueOf s1 q
  if (qw x 0).getLsbD 19 then advanceCtr (fld (qw x 8) 15 0) 1 s1 else s1

/-- Reasons of 13 R337. -/
def rBulkFull : Nat := 1
def rNoRing : Nat := 2
def rNoQueue : Nat := 3
def rRetired : Nat := 4
def rWindow : Nat := 5
def rUnreachable : Nat := 6
def rRefused : Nat := 7
def rFenced : Nat := 8
def rPoison : Nat := 9
def rKind : Nat := 10
def rFlushed : Nat := 11
/-- Is the letter kept in a dead-letter ring? -/
def rKept (r : Nat) : Bool := !(r == rWindow || r == rUnreachable || r == rRefused || r == rFenced)

/-- Offer a letter to a queue: 0 accepted, else the reason it is not (R333, R337). A PORT takes no letter sent on. -/
def offer (q : Nat) (l : Letter) (s : State) : Nat × State :=
  let x := queueOf s q
  if sopDown s (q % 8) then (rFenced, s)
  else
    match x.state with
    | .free => (rNoQueue, s)
    | .draining => (rRetired, s)
    | .fenced => (rFenced, s)
    | .active =>
      if qKind x = 1 then (rKind, s)
      else
        match storeLetter q l s with
        | some s1 => (0, accepted q (qCount x) s1)
        | none => (if ringLog2 x = 0 then rNoRing else rBulkFull, s)

/-! ### Reports (13 R338, R339) -/

/-- The report of an undelivered letter, addressed to `cq`. [DEDUCED, log entry 53] -/
def reportLetter (s : State) (cq r : Nat) (indlr : Bool) (device : Nat) (l : Letter) : Letter :=
  let env := fld l.data 63 53 * 2 ^ 53 + 2 ^ 52 + 2 ^ 50 + qClass (queueOf s cq) * 2 ^ 48 + devNum s * 2 ^ 32 + devNum s * 65536 + cq
  let bs := bytesOfNat env 8 ++ bytesOfNat (fld l.data 63 0) 8 ++ [BitVec.ofNat 8 r, BitVec.ofNat 8 indlr.toNat] ++ bytesOfNat device 2 ++
    bytesOfNat 0 4 ++ bytesOf l.postmark 8 ++ bytesOfNat (fld l.data 319 64) 32
  { data := vecOfBytes bs, postmark := s.time.now }

/-- Make the report of a letter posted through queue `via`, unless it wants none or there is no completion queue. A report that
cannot be delivered goes to the dead-letter ring or is dropped, and never causes another. -/
def report (via : Option Nat) (r : Nat) (indlr : Bool) (device : Nat) (l : Letter) (s : State) : State :=
  match via with
  | none => s
  | some v =>
    let x := queueOf s v
    if l.data.getLsbD 52 || !(qw x 0).getLsbD 16 then s
    else
      let cq := fld (qw x 0) 15 0
      let rep := reportLetter s cq r indlr device l
      let o := offer cq rep (soCnt cntNdr s)
      if o.1 = 0 then o.2
      else match deadLetter o.1 cq rep o.2 with
        | some s1 => s1
        | none => soCnt cntNdrlost o.2

/-- What became of a letter at its queue. -/
inductive Verdict
  | taken | gone (r : Nat) | nak
deriving DecidableEq, Repr

/-- Deliver to a queue of this device: stored, or dead-lettered or given up with its report, or refused (R333, R336 to R338). -/
def deliver (q : Nat) (l : Letter) (s : State) : Verdict × State :=
  if !s.office.running then (.nak, soCnt cntNak s)
  else
    let o := if s.power.mode = .drain then (rFenced, s) else offer q l s
    if o.1 = 0 then (.taken, o.2)
    else if rKept o.1 then
      match deadLetter o.1 q l o.2 with
      | some s1 => (.gone o.1, report l.via o.1 true (devNum s) l s1)
      | none => (.nak, soCnt cntNak o.2)
    else (.gone o.1, report l.via o.1 false (devNum s) l o.2)

/-! ### Senders (13 R325, R328, R335, R336, R339) -/

def senderDef (_ : Nat) : List SendSlot := []
def sendersOf (s : State) (k : Nat) : List SendSlot := smGet senderDef s.office.senders k
def setSender (k : Nat) (xs : List SendSlot) (s : State) : State := { s with office := { s.office with senders := smPut senderDef s.office.senders k xs } }

/-- The fields that hardware writes when a letter is posted to queue `q` (R325). [DEDUCED, log entry 53] -/
def stamp (s : State) (q : Nat) (v : Vec) : Vec :=
  let x := queueOf s q
  let v1 := putFld v 51 32 (qClass x * 2 ^ 16 + devNum s)
  if qKind x = 1 then v1 else putFld v1 31 0 (devNum s * 65536 + q)

/-- A letter posted directly to an ACTIVE PORT: refused by its window or sent on (R339); one sent on counts as accepted (R348).
[DESIGN CHOICE, log entry 54] -/
def portTakes (q : Nat) (l : Letter) (s : State) : State :=
  let x := queueOf s q
  let dest : Word32 := l.data.setWidth 32
  if dest &&& qw x 7 = qw x 6 then
    let s1 := setSender (65536 + q) (sendersOf s (65536 + q) ++ [{ dest := dest, letter := { l with via := some q }, released := true }]) s
    accepted q 0 s1
  else report (some q) rWindow false (devNum s) { l with via := some q } s

/-- The initiator and the class under which a sender's letter is injected (R329; 12 R297, R299): a core or another poster in the class of
its slot, a pipeline in that of the queue. -/
def senderInit (k : Nat) : Nat := if k < 512 then k else if k < 131072 then 512 + k % 8 else 528 + (k - 131072)
def senderTc (s : State) (k : Nat) (sl : SendSlot) : BitVec 2 :=
  if 65536 ≤ k ∧ k < 131072 then BitVec.ofNat 2 (qClass (queueOf s (k - 65536))) else sl.tc
/-- Inject the letter, one flit, toward resources (R329). -/
def injectLetter (k : Nat) (sl : SendSlot) (rs : List Nat) (s : State) : State := inject (senderInit k) (senderTc s k sl).toNat 1 rs s
/-- Send a letter to another device (R339, R377). [DEDUCED, log entry 54] -/
def sendAway (k : Nat) (sl : SendSlot) (s : State) : State :=
  let t := newTid s
  let ordered := decide (65536 ≤ k) && qOrdered (queueOf s (k - 65536))
  let tc := senderTc s k sl
  let m0 := letterMsg 1 (fld sl.dest 31 16) t.1 tc ordered sl.letter
  let rs := [32 + egressOf t.2 m0]
  let m := { m0 with init := some (senderInit k), isOver := !injectsWithin t.2 (senderInit k) tc.toNat 1 rs }
  let r := sendMsg m (injectLetter k sl rs t.2)
  match r.1 with
  | .sent | .wait | .here => setSender k ((sendersOf r.2 k).replace sl { sl with tid := some t.1, naked := false }) r.2
  | _ => report sl.letter.via rUnreachable false (devNum s) sl.letter (setSender k ((sendersOf r.2 k).erase sl) r.2)

/-- The slot of a sender to serve next for a destination: none while an earlier letter to it stands refused (R335). [DEDUCED, log entry 52] -/
def nextSlot (retry : Bool) (dest : BitVec 32) (xs : List SendSlot) : Option SendSlot :=
  let mine := xs.filter fun x => x.dest == dest
  if retry then mine.find? fun x => x.naked
  else if mine.any fun x => x.naked then none
  else (mine.find? fun x => x.tid.isNone).bind fun x => if x.released then some x else none

/-- The letter at the front of a sender's letters to a destination reaches its pipeline (R333, R336, R339). [DEDUCED, log entry 52] -/
def serveSender (retry : Bool) (k : Nat) (dest : BitVec 32) (s : State) : State :=
  match nextSlot retry dest (sendersOf s k) with
  | none => s
  | some sl =>
    if fld dest 31 16 ≠ devNum s then sendAway k sl s
    else
      let q := fld dest 15 0
      let sentOn := decide (65536 ≤ k) && sl.letter.via.isSome
      let s := serveFlits (272 + q % 8) (senderTc s k sl).toNat 1 (if retry then s else injectLetter k sl [24 + q % 8] s)
      let l := if sentOn then sl.letter else { sl.letter with data := stamp s q sl.letter.data }
      if !sentOn && s.office.running && !sopDown s (q % 8) && decide ((queueOf s q).state = .active ∧ qKind (queueOf s q) = 1) then
        portTakes q l (setSender k ((sendersOf s k).erase sl) s)
      else
        let d := deliver q l s
        match d.1 with
        | .nak => setSender k ((sendersOf d.2 k).replace sl { sl with naked := true, attempts := sl.attempts + 1 }) d.2
        | _ => setSender k ((sendersOf d.2 k).erase sl) d.2

/-- A letter made by a pipeline is posted from queue `q` (14 R360). -/
def postFrom (q : Nat) (dest : BitVec 32) (l : Letter) (s : State) : State :=
  serveSender false (65536 + q) dest (setSender (65536 + q) (sendersOf s (65536 + q) ++ [{ dest := dest, letter := l, released := true }]) s)

/-- A letter is given up after its send timeout (R336, R338). -/
def giveUp (k : Nat) (dest : BitVec 32) (s : State) : State :=
  match nextSlot true dest (sendersOf s k) with
  | none => s
  | some sl => report sl.letter.via rRefused false (devNum s) sl.letter (setSender k ((sendersOf s k).erase sl) s)

/-- A core releases a letter to its send slot when its group commits (R326, R328, R329): the first slot it took and has not yet
released. -/
def releaseLetter (lc : Nat) (dest : BitVec 32) (tc : BitVec 2) (v : Vec) (s : State) : State :=
  match (sendersOf s lc).find? fun x => !x.released with
  | none => s
  | some sl =>
    let l : Letter := { data := v, postmark := s.time.now, via := some (fld dest 15 0) }
    setSender lc ((sendersOf s lc).replace sl { sl with dest := dest, letter := l, released := true, tc := tc }) s
/-- A core takes a send slot at issue; none where its 16 are in use (R328). -/
def takeSlot (lc : Nat) (s : State) : Option State :=
  if 16 ≤ (sendersOf s lc).length then none
  else some (setSender lc (sendersOf s lc ++ [{ dest := 0, letter := { data := 0, postmark := 0 }, released := false }]) s)
/-- The slots of a group that rolled back are freed (R328). -/
def freeSlots (lc : Nat) (s : State) : State := setSender lc ((sendersOf s lc).filter fun x => x.released) s

/-! ### Refill (13 R333, R616) -/

/-- A ring entry as a letter, BULK set. -/
def ringLetter (s : State) (e : RingEntry) : Letter :=
  { data := putFld (vecOfBytes (readBytes s e.pa 64)) 51 51 1, postmark := e.postmark, via := e.via }
/-- The queue once its ring's head has left the ring. -/
def popRing (x : Queue) : Queue :=
  let r := x.ring.tail
  { x with ring := r, oldLeft := x.oldLeft - 1, ringHead := (x.ringHead + 1) % 2 ^ 32, spill := !r.isEmpty }

/-- The head of the ring: read, or, found poisoned, dead-lettered; none of either while the dead-letter ring is full. -/
inductive RingHead
  | letter (l : Letter) | removed | stuck
deriving DecidableEq, Repr
def readRing (q : Nat) (e : RingEntry) (s : State) : RingHead × State :=
  let r := agentRead (qClass (queueOf s q)) e.pa 64 (sopInject q e.pa s)
  if r.2.1 then
    match deadLetter rPoison q (ringLetter r.2.2 e) r.2.2 with
    | some s1 => (.removed, ringBell q (qCount (queueOf s1 q)) (setQueue q (popRing (queueOf s1 q)) s1))
    | none => (.stuck, r.2.2)
  else (.letter (ringLetter r.2.2 e), r.2.2)

/-- One refill: the head of the ring moves to burst storage (R333). -/
def refill (q : Nat) (s : State) : State :=
  let x := queueOf s q
  match x.ring with
  | [] => s
  | e :: _ =>
    if decide (x.state = .fenced) || sopDown s (q % 8) || !burstRoom s q x then s
    else
      let r := readRing q e s
      match r.1 with
      | .letter l =>
        let y := popRing (queueOf r.2 q)
        setQueue q { y with burst := y.burst ++ [l] } r.2
      | .removed => freeIfDrained q r.2
      | .stuck => r.2

/-! ### Consumers (13 R330 to R332, R345) -/

/-- Remove the head letter, waiting for a refill where it lies in the ring; `n` bounds the poisoned letters passed over. -/
def takeHead (q : Nat) : Nat → State → Option Letter × State
  | 0, s => (none, s)
  | n + 1, s =>
    let x := queueOf s q
    match x.burst, x.ring with
    | l :: r, _ => (some l, setQueue q { x with burst := r } s)
    | [], e :: _ =>
      let h := readRing q e s
      match h.1 with
      | .letter l => (some l, setQueue q (popRing (queueOf h.2 q)) h.2)
      | .removed => takeHead q n h.2
      | .stuck => (none, h.2)
    | [], [] => (none, s)

/-- The first consumer operation on a free lease takes it (R345). -/
def takeLease (lc q : Nat) (s : State) : State :=
  let x := queueOf s q
  if qLeased x && x.lease.isNone then setQueue q { x with lease := some lc } s else s

/-- A `DEQ` or `DEQT` of core `lc` at the owning pipeline (R330): its status and the letter. -/
def consume (lc q : Nat) (isTry : Bool) (s : State) : Nat × Option Letter × State :=
  let x := queueOf s q
  if sopDown s (q % 8) then (stTimeout, none, s)
  else if x.state = .free then (stNoreg, none, s)
  else if x.state = .fenced then (stFenced, none, s)
  else if qLeased x && x.lease.isSome && x.lease != some lc then (stLocked, none, s)
  else
    let s1 := takeLease lc q s
    if qKind x ≠ 0 then (stNotsupp, none, s1)
    else if qCount x = 0 ∨ (isTry ∧ x.burst.isEmpty) then (stBusy, none, s1)
    else
      let h := takeHead q (qCount x + 1) s1
      match h.1 with
      | some l => (stOk, some l, freeIfDrained q (ringBell q (qCount x) (soCnt cntDeq h.2)))
      | none => (stBusy, none, freeIfDrained q (ringBell q (qCount x) h.2))

/-- The state word of a queue (R332). -/
def stateWord (s : State) (lc q : Nat) : Word64 :=
  let x := queueOf s q
  BitVec.ofNat 64 (stateCode x.state * 2 ^ 61 + qKind x * 2 ^ 59 + x.spill.toNat * 2 ^ 58 + (decide (0 < x.oldLeft)).toNat * 2 ^ 57 +
    x.lease.isSome.toNat * 2 ^ 56 + (decide (x.lease = some lc)).toNat * 2 ^ 55 + qCount x)
def queueStat (s : State) (lc q : Nat) : Nat × Word64 :=
  if sopDown s (q % 8) then (stTimeout, 0) else if (queueOf s q).state = .free then (stNoreg, 0) else (stOk, stateWord s lc q)

/-! ### Queue commands (13 R341 to R344) -/

/-- A ring of `n` bytes at `base`: aligned, in HBM or DDR of the own slot, every page of owner code 3 (R340, R341). -/
def ringOk (s : State) (base n : Nat) : Bool :=
  decide (base % n = 0) && (List.range ((n + 4095) / 4096)).all fun i =>
    let pa := base + 4096 * i
    (match placeOf pa with
      | some p => decide ((p.region = .hbm ∨ p.region = .ddr) ∧ p.slot = slotOf s)
      | none => false) && backed s pa && ownerCode s pa == 3

/-- Reserved bits of a staging image (R341, R343). [DEDUCED, log entry 54] -/
def imageRsvd (im : Nat → Word32) : Bool :=
  fld (im 0) 31 29 != 0 || fld (im 0) 18 17 != 0 || fld (im 1) 15 13 != 0 || fld (im 4) 11 5 != 0 || fld (im 5) 31 20 != 0 ||
    fld (im 8) 31 16 != 0 || (List.range 7).any fun i => im (9 + i) != 0

/-- Fields out of the ranges of R341, or nonzero where the KIND does not use them. `q` is the queue made or resized. [DEDUCED, log entry 54] -/
def imageRange (s : State) (q : Nat) (im : Nat → Word32) : Bool :=
  let x : Queue := { words := (List.range 9).map im }
  let cq := fld (im 0) 15 0
  let cqOk := (cq == q && qKind x == 0) || (decide ((queueOf s cq).state = .active) && qKind (queueOf s cq) == 0)
  qKind x == 3 || decide (1 < fld (im 0) 21 20) || (qClass x == 0 && !qReserve x && qKind x != 1) ||
    (bellOn x && (decide (fld (im 1) 12 0 < 256) || fld (im 2) 31 16 == 0)) ||
    (qLeased x && decide (fld (im 3) 31 16 < 100)) ||
    (ringLog2 x != 0 && (decide (ringLog2 x < 6 ∨ 26 < ringLog2 x) || !ringOk s (ringBase x) (64 * 2 ^ ringLog2 x))) ||
    (ringLog2 x == 0 && ringBase x != 0) ||
    ((im 0).getLsbD 16 && !cqOk) ||
    (if qKind x = 1 then
      qBurst x != 0 || qReserve x || ringLog2 x != 0 || ringBase x != 0 || decide (fld (im 3) 15 0 < 10) || (im 6 &&& ~~~(im 7)) != 0
    else qOrdered x || fld (im 3) 15 0 != 0 || im 6 != 0 || im 7 != 0)

/-- The limit of R342 with the image in the queue's place. [DEDUCED, log entry 54] -/
def imageBudget (s : State) (q : Nat) (im : Nat → Word32) : Bool :=
  let x : Queue := { words := (List.range 9).map im }
  let old := queueOf s q
  decide (98304 < poolReserved s (q % 8) - (if qReserve old then qBurst old else 0) + (if qReserve x then qBurst x else 0))

/-- Move every held letter to the dead-letter ring, in order, until it is full; `n` bounds the letters moved (R344). -/
def flushFrom (q : Nat) : Nat → State → State
  | 0, s => s
  | n + 1, s =>
    let x := queueOf s q
    match x.burst, x.ring with
    | l :: r, _ =>
      match deadLetter rFlushed q l s with
      | some s1 => flushFrom q n (report l.via rFlushed true (devNum s) l (setQueue q { x with burst := r } s1))
      | none => s
    | [], e :: _ =>
      let rd := agentRead (qClass x) e.pa 64 (sopInject q e.pa s)
      let l := ringLetter rd.2.2 e
      match deadLetter (if rd.2.1 then rPoison else rFlushed) q l rd.2.2 with
      | some s1 =>
        let s2 := setQueue q (popRing (queueOf s1 q)) s1
        flushFrom q n (if rd.2.1 then s2 else report l.via rFlushed true (devNum s) l s2)
      | none => rd.2.2
    | [], [] => s
def flushQueue (q : Nat) (s : State) : State :=
  let n := qCount (queueOf s q)
  let s1 := flushFrom q (n + 1) s
  freeIfDrained q (ringBell q n s1)

/-- RESIZE (R343): a new ring takes effect at once, the old one empties first. -/
def resized (x : Queue) (im : Nat → Word32) : Queue :=
  let keep : Word32 := 0x1F000000
  let w0 := (qw x 0 &&& keep) ||| (im 0 &&& ~~~keep)
  let y := { x with words := w0 :: (List.range 8).map fun i => im (i + 1) }
  if qw x 4 = im 4 ∧ qw x 5 = im 5 then y else { y with oldLeft := x.ring.length, spill := decide (0 < x.ring.length) }

/-- A write of `SO_QCMD` (R343): its status and what it does. `im` is the writer's staging image. -/
def soQcmd (im : Nat → Word32) (v : Word32) (s : State) : Nat × State :=
  let op := fld v 31 28
  let q := fld v 15 0
  let x := queueOf s q
  let uses := decide (op = 1 ∨ op = 2)
  let ring := decide (op = 2) && (qw x 4 != im 4 || qw x 5 != im 5) && decide (0 < x.oldLeft)
  let wrong := match op with
    | 1 => decide (x.state ≠ .free)
    | 2 => decide (x.state ≠ .active)
    | 3 => decide (x.state ≠ .active)
    | _ => decide (x.state ≠ .active ∧ x.state ≠ .draining)
  let code := firstCode (
    codeIf (fld v 27 16 != 0 || op == 0 || decide (4 < op) || (uses && imageRsvd im)) stRsvd ++
    codeIf (decide (x.state = .fenced) || sopDown s (q % 8)) stFenced ++
    codeIf (uses && imageRange s q im) stRange ++
    codeIf (op == 2 && ((qw x 0 ^^^ im 0) &&& 0x1F000000) != 0) stRunning ++
    codeIf (!s.office.running || wrong || ring) stBusy ++
    codeIf (uses && imageBudget s q im) stBudget)
  if code ≠ stOk then (code, s)
  else
    match op with
    | 1 => (stOk, setQueue q { state := .active, words := (List.range 9).map im } s)
    | 2 =>
      let s1 := setQueue q (resized x im) s
      (stOk, s1)
    | 3 => (stOk, freeIfDrained q (setQueue q { x with state := .draining } s))
    | _ => (stOk, flushQueue q (setQueue q { x with state := .draining, flushing := true } s))

/-- A write of `SO_DLR_TAIL` (R340): what waited for room goes on. -/
def soDlrTail (v : Word32) (s : State) : Nat × State :=
  if (dlrHead s - dlrTail s).toNat < (v - dlrTail s).toNat then (stRange, s)
  else (stOk, s.office.queues.foldl (fun a e => if e.2.flushing then flushQueue e.1 a else a) (setReg 0x3000020 v s))

/-- A write of `SO_CMD` (R348; 14 R361, R367). [DEDUCED, log entry 58] -/
def soStart (v : Word32) (s : State) : Nat × State :=
  if fld v 31 1 ≠ 0 then (stRsvd, s)
  else if !v.getLsbD 0 || s.office.running then (stOk, s)
  else if dlrLog2 s < 6 ∨ 20 < dlrLog2 s ∨ !ringOk s (dlrBase s) (128 * 2 ^ dlrLog2 s) then (stRange, s)
  else (stOk, { s with office := { s.office with running := true, ctrs := [], ctxs := [] } })

def soStat (s : State) : Nat :=
  s.office.running.toNat * 2 ^ 31 + ((List.range 8).map fun p => if s.office.running && !sopOut s p then 2 ^ p else 0).foldl (· + ·) 0

/-! ### Commands -/

/-- The senders' numbers: a core below 512, else a queue. -/
def execLetterArrival (sender : Nat) (dest : BitVec 32) (s : State) : Out := .next (serveSender false sender dest s)
/-- [DEDUCED, log entry 52] -/
def execLetterRetry (sender : Nat) (dest : BitVec 32) (s : State) : Out := .next (serveSender true sender dest s)
/-- [DESIGN CHOICE, log entry 7; DEDUCED, log entry 52] -/
def execSendTimeout (sender : Nat) (dest : BitVec 32) (s : State) : Out := .next (giveUp sender dest s)
def execBulkRefill (q : Fin 65536) (s : State) : Out := .next (refill q.val s)
/-- The hold time passes while the queue holds letters below its threshold (R346). -/
def execDoorbellHoldExpiry (q : Fin 65536) (s : State) : Out :=
  let x := queueOf s q.val
  if bellOn x && decide (x.bell = .armed) && fld (qw x 2) 15 0 != 0 && decide (0 < qCount x ∧ qCount x < fld (qw x 2) 31 16) then
    .next (raiseMsg (fld (qw x 1) 12 0) (setQueue q.val { x with bell := .byHold } s))
  else .next s
/-- A lease lapses after LEASE_IDLE with letters held and no consumer operation of its holder (R345). -/
def execLeaseLapse (q : Fin 65536) (s : State) : Out :=
  let x := queueOf s q.val
  if x.lease.isSome && decide (0 < qCount x) then .next (setQueue q.val { x with lease := none } s) else .next s

end Sys2Proof.Machine
end

