-- ==== Sys2Proof/Machine/Remote.lean ====
section
/-! DEFINITION. Command letters, grants and regions, the copy engine, trigger slots, reduction contexts and the exact accumulator,
and what a device performs for another (14). -/

namespace Sys2Proof.Machine

/-! ### The fields of a command letter (R350) -/

/-- Bytes `hi` to `lo` of the letter. -/
def cb (c : Cmd) (hi lo : Nat) : Nat := natBits c.data.toNat (8 * hi + 7) (8 * lo)
def cMode (c : Cmd) : Nat := cb c 8 8
def cActr (c : Cmd) : Nat := cb c 11 10
def cAslot (c : Cmd) : Nat := cb c 15 12
def cThresh (c : Cmd) : Nat := cb c 23 16
def cOp (c : Cmd) : Nat := cb c 24 24
def cFlag (c : Cmd) (i : Nat) : Bool := (cb c 25 25).testBit i
def cLctr (c : Cmd) : Nat := cb c 27 26
def cCplq (c : Cmd) : Nat := cb c 29 28
def cCtag (c : Cmd) : Nat := cb c 30 30
def cRdev (c : Cmd) : Nat := cb c 33 32
def cRreg (c : Cmd) : Nat := cb c 35 34
def cLreg (c : Cmd) : Nat := cb c 37 36
def cRctr (c : Cmd) : Nat := cb c 39 38
def cRoff (c : Cmd) : Nat := cb c 47 40
def cLoff (c : Cmd) : Nat := cb c 55 48
def cX (c : Cmd) : Nat := cb c 63 56
def fCpl : Nat := 0
def fOrder : Nat := 1
def fLctren : Nat := 2
def fRctren : Nat := 3

/-- The body fields an OP uses (R351): RDEV, RREG, LREG, RCTR, ROFF, LOFF, X. -/
def opUses (op : Nat) : List Bool :=
  match op with
  | 0x01 | 0x03 => [true, true, true, true, true, true, true]
  | 0x02 => [true, true, true, true, true, false, true]
  | 0x04 => [true, true, true, true, true, true, true]
  | 0x05 => [true, true, true, false, true, true, true]
  | 0x08 => [true, true, false, true, false, false, true]
  | 0x09 => [true, false, false, true, false, false, true]
  | 0x0A => [true, false, false, true, false, false, false]
  | 0x0C => [false, false, false, false, false, false, true]
  | 0x10 => [true, false, true, false, false, true, true]
  | 0x11 => [true, true, true, true, true, true, true]
  | _ => [false, false, false, false, false, false, false]
def opKnown (op : Nat) : Bool := ([0, 1, 2, 3, 4, 5, 8, 9, 10, 12, 16, 17] : List Nat).contains op
/-- A field that must be zero is not (R350). -/
def fieldsBad (c : Cmd) : Bool :=
  cb c 9 9 != 0 || cb c 31 31 != 0 || decide (16 ≤ cb c 25 25) || (c.slot.isNone && cMode c == 0 && cb c 23 10 != 0) ||
    ((opUses (cOp c)).zip [cRdev c, cRreg c, cLreg c, cRctr c, cRoff c, cLoff c, cX c]).any fun e => !e.1 && e.2 != 0

/-! ### Grants and regions (R353, R354) -/

def grantDef (_ : Nat) : GrantEntry := {}
def regionDef (_ : Nat) : Region := {}
def regionOf (s : State) (r : Nat) : Region := smGet regionDef s.office.regions r
/-- Does a grant to the queue cover a resource? Kinds: 0 slots, 1 counters, 2 contexts, 3 regions. -/
def granted (s : State) (q kind n : Nat) : Bool :=
  s.office.grants.any fun e => e.2.valid && e.2.queue == q && e.2.kind == kind && decide (e.2.base ≤ n ∧ n < e.2.base + e.2.count)

def needWrite : Nat := 0
def needRead : Nat := 1
def needAmo : Nat := 2
/-- The pages of a range. [DEDUCED, log entry 57] -/
def pagesOf (pa n : Nat) : List Nat := (List.range ((pa + n + 4095) / 4096 - pa / 4096)).map fun i => (pa / 4096 + i) * 4096
def linesOf (pa n : Nat) : List Nat := (List.range ((pa + n + 63) / 64 - pa / 64)).map fun i => pa / 64 + i
/-- An operation's use of `n` bytes at an offset of a region: the codes that apply, and the address (R352 to R354). -/
def regionUse (s : State) (allowed : Bool) (r off n need : Nat) : List Nat × Nat :=
  let g := regionOf s r
  let pa := g.base + off
  let inside := decide (off + n ≤ g.pages * 4096)
  let pages := if g.valid && inside && n != 0 then pagesOf pa n else []
  (codeIf (!allowed || (g.valid && !g.rights.getLsbD need) ||
      pages.any fun p => let c := ownerCode s p; !(c == 0 || (c == 2 && need == needRead))) stPriv ++
    codeIf (!g.valid) stNoreg ++
    codeIf (!pages.isEmpty && (linesOf pa n).any fun l => lineFenced s l) stFenced ++
    codeIf (g.valid && (!inside || pages.any fun p => !regionOk s p .office)) stRange, pa)
/-- A use by a command of queue `q` of this device. -/
def localUse (s : State) (q r off n need : Nat) : List Nat × Nat := regionUse s (granted s q 3 r) r off n need
/-- Does a device match source fields? -/
def srcMatches (dev base mask : Nat) : Bool := dev &&& mask == base
/-- A use as target by a command of another device. -/
def remoteUse (s : State) (dev r off n need : Nat) : List Nat × Nat :=
  let g := regionOf s r
  regionUse s (!g.valid || (g.remote && srcMatches dev g.srcBase.toNat g.srcMask.toNat)) r off n need

/-- `SO_GRANT_SET` (R353): arguments g2 to g7. [DEDUCED, log entry 57] -/
def soGrantSet (a : Nat → Nat) (s : State) : Nat × State :=
  let limit := ([262144, 65536, 4096, 4096] : List Nat).getD (a 5) 0
  if 1024 ≤ a 2 ∨ 1 < a 3 then (stRange, s)
  else if a 3 = 0 then (stOk, { s with office := { s.office with grants := smPut grantDef s.office.grants (a 2) {} } })
  else if 65535 < a 4 ∨ 3 < a 5 ∨ a 7 = 0 ∨ limit < a 6 + a 7 then (stRange, s)
  else
    let g : GrantEntry := { valid := true, queue := a 4, kind := a 5, base := a 6, count := a 7 }
    (stOk, { s with office := { s.office with grants := smPut grantDef s.office.grants (a 2) g } })
/-- A page of the own slot's backed HBM, DDR or scratchpad. -/
def apertureOk (s : State) (pa : Nat) : Bool :=
  backed s pa && match placeOf pa with
    | some p => decide (p.slot = slotOf s ∧ (p.region = .hbm ∨ p.region = .ddr ∨ p.region = .scratch))
    | none => false
/-- `SO_REGION_SET` (R353). [DEDUCED, log entry 57] -/
def soRegionSet (a : Nat → Nat) (s : State) : Nat × State :=
  if 4096 ≤ a 2 ∨ 1 < a 3 then (stRange, s)
  else if a 3 = 0 then
    (stOk, { s with office := { s.office with regions := smPut regionDef s.office.regions (a 2) { regionOf s (a 2) with valid := false } } })
  else if a 4 % 4096 ≠ 0 ∨ a 5 = 0 ∨ 2 ^ 30 < a 5 ∨ natBits (a 6) 15 4 ≠ 0 ∨ 2 ^ 48 ≤ a 6 ∨ 2 ^ 32 ≤ a 7 ∨
      !((pagesOf (a 4) (4096 * a 5)).all (apertureOk s)) then (stRange, s)
  else
    let g : Region :=
      { valid := true, base := a 4, pages := a 5, rights := BitVec.ofNat 3 (a 6), remote := (a 6).testBit 3,
        srcBase := BitVec.ofNat 16 (natBits (a 6) 31 16), srcMask := BitVec.ofNat 16 (natBits (a 6) 47 32),
        ctrBase := natBits (a 7) 15 0, ctrCount := natBits (a 7) 31 16 }
    (stOk, { s with office := { s.office with regions := smPut regionDef s.office.regions (a 2) g } })
/-- INFLIGHT (R354): commands checked against the region and not complete. -/
def inflight (s : State) (r : Nat) : Nat :=
  (s.office.cmds.filter fun c => c.status == 0 && c.regions.contains r).length + (s.office.serving.filter fun c => c.region == r).length
/-- `SO_REGION_QUERY` (R353). -/
def soRegionQuery (a : Nat → Nat) (s : State) : Nat × Nat :=
  if 4096 ≤ a 2 then (stRange, 0) else (stOk, (regionOf s (a 2)).valid.toNat * 2 ^ 31 + inflight s (a 2) % 65536)

/-! ### Moving bytes (R356, R358) -/

/-- The class of a command: that of its queue, or the one in which another device's message came; and the initiator of its
accesses (12 R297, R299). -/
def cmdTc (s : State) (c : Cmd) : Nat := if c.q < 65536 then qClass (queueOf s c.q) else c.tc
def cmdInit (c : Cmd) : Nat := 512 + c.q % 8
/-- Copy a piece within one destination line, poison carried. The accesses of a command have no defined order (R356): the model makes them
in ascending order. [DESIGN CHOICE, log entry 57] -/
def copyPiece (init tc src dst n : Nat) (s : State) : Bool × State :=
  let r := agentRead tc src n (injectLines init tc src n s)
  let s1 := agentWrite tc dst r.1 (injectLines init tc dst n r.2.2)
  (r.2.1, if r.2.1 then poisonLine (lineOf dst) s1 else s1)
/-- Copy `n` bytes; the first number bounds the pieces. -/
def copyBytes (init tc : Nat) : Nat → Nat → Nat → Nat → State → Bool × State
  | 0, _, _, _, s => (false, s)
  | k + 1, src, dst, n, s =>
    if n = 0 then (false, s)
    else
      let m := min n (64 - dst % 64)
      let a := copyPiece init tc src dst m s
      let b := copyBytes init tc k (src + m) (dst + m) (n - m) a.2
      (a.1 || b.1, b.2)
/-- Write the bytes a mask selects, poison carried. -/
def writeMasked (tc pa : Nat) (mask : Nat) (poison : Bool) (v : Vec) (s : State) : State :=
  (List.range 64).foldl (fun a i =>
    if mask.testBit i then
      let a1 := agentWrite tc (pa + i) [BitVec.ofNat 8 (fld v (8 * i + 7) (8 * i))] a
      if poison && !poisoned a1 (lineOf (pa + i)) then poisonLine (lineOf (pa + i)) a1 else a1
    else a) s

/-! ### The exact accumulator and the reductions (R368, R370, R371) -/

def redCtl : FpCtl := { rm := 0, fz := false, daz := false }
/-- Add a contributed binary64 value (R370). -/
def accAdd (acc : Acc) (v : Word64) : Acc :=
  let b := match fUnpack fmtD false v.toNat with
    | .nan sig => { acc with nan := true, inv := acc.inv || sig }
    | .inf false => { acc with pinf := true }
    | .inf true => { acc with ninf := true }
    | .fin sg m e =>
      let x : Int := (m * 2 ^ (e + 1074).toNat : Nat)
      { acc with a := acc.a + (if sg then -x else x) }
  { b with allNeg0 := b.allNeg0 && v == 0x8000000000000000, allPos0 := b.allPos0 && v == 0 }
/-- Merge a forwarded accumulator (R370). -/
def accMerge (acc f : Acc) : Acc :=
  { a := acc.a + f.a, nan := acc.nan || f.nan, inv := acc.inv || f.inv, pinf := acc.pinf || f.pinf, ninf := acc.ninf || f.ninf,
    allNeg0 := acc.allNeg0 && f.allNeg0, allPos0 := acc.allPos0 && f.allPos0, val := acc.val, fpx := acc.fpx }
/-- The identity of a combination (R368). -/
def ropIdentity (rop : Nat) : Nat :=
  match rop with
  | 3 => redIdentity 64 .smin
  | 4 => redIdentity 64 .smax
  | 5 => redIdentity 64 .umin
  | 7 => fInf fmtD false
  | 8 => fInf fmtD true
  | 9 => redIdentity 64 .and
  | _ => 0
def accStart (rop : Nat) : Acc := { val := BitVec.ofNat 64 (ropIdentity rop) }
/-- Combine an accumulator with a 64-bit value under a ROP other than FSUM. -/
def accCombine (rop : Nat) (acc : Acc) (v : Word64) : Acc :=
  let a := acc.val.toNat
  let put (x : Nat) : Acc := { acc with val := BitVec.ofNat 64 x }
  match rop with
  | 2 => put (redStep 64 .add a v.toNat)
  | 3 => put (redStep 64 .smin a v.toNat)
  | 4 => put (redStep 64 .smax a v.toNat)
  | 5 => put (redStep 64 .umin a v.toNat)
  | 6 => put (redStep 64 .umax a v.toNat)
  | 7 => let r := fOp2 fmtD redCtl .min a v.toNat; { put r.1 with fpx := acc.fpx ||| BitVec.ofNat 5 r.2.bits }
  | 8 => let r := fOp2 fmtD redCtl .max a v.toNat; { put r.1 with fpx := acc.fpx ||| BitVec.ofNat 5 r.2.bits }
  | 9 => put (redStep 64 .and a v.toNat)
  | 10 => put (redStep 64 .or a v.toNat)
  | _ => put (redStep 64 .xor a v.toNat)
def contribute (rop : Nat) (acc : Acc) (v : Word64) : Acc := if rop = 1 then accAdd acc v else accCombine rop acc v
def mergeAcc (rop : Nat) (acc f : Acc) : Acc :=
  if rop = 1 then accMerge acc f else let r := accCombine rop acc f.val; { r with fpx := r.fpx ||| f.fpx }
/-- The result of an element and the flags it reports (R371). -/
def accResult (rop rm : Nat) (acc : Acc) : Nat × Nat :=
  if rop ≠ 1 then (acc.val.toNat, acc.fpx.toNat)
  else if acc.nan || (acc.pinf && acc.ninf) then (fNaN fmtD, if acc.inv || (acc.pinf && acc.ninf) then FpFlags.invalid.bits else 0)
  else if acc.pinf then (fInf fmtD false, 0)
  else if acc.ninf then (fInf fmtD true, 0)
  else if acc.a = 0 then (fZero fmtD (acc.allNeg0 || (rm == 2 && !acc.allPos0)), 0)
  else let r := fRound fmtD { redCtl with rm := rm } (decide (acc.a < 0)) acc.a.natAbs (-1074); (r.1, r.2.bits)

/-! ### Completion letters (R360) -/

def completionLetter (s : State) (c : Cmd) (st flags fpx number value cpm : Nat) : Letter :=
  let env := cCtag c * 2 ^ 56 + 2 ^ 52 + devNum s * 65536 + cCplq c
  let bs := bytesOfNat env 8 ++ [BitVec.ofNat 8 (cOp c), BitVec.ofNat 8 st, BitVec.ofNat 8 flags, BitVec.ofNat 8 fpx] ++ bytesOfNat number 4 ++
    bytesOfNat value 8 ++ bytesOfNat cpm 8 ++ bytesOfNat (cb c 55 24) 32
  { data := vecOfBytes bs, postmark := s.time.now }
/-- Post a completion letter to CPLQ of the command. -/
def postCompletion (c : Cmd) (st flags fpx number value cpm : Nat) (s : State) : State :=
  postFrom c.q (BitVec.ofNat 32 (devNum s * 65536 + cCplq c)) (completionLetter s c st flags fpx number value cpm) s

/-! ### Contexts and rounds (R367 to R369) -/

def ctxDef (_ : Nat) : Ctx := {}
def ctxOf (s : State) (x : Nat) : Ctx := smGet ctxDef s.office.ctxs x
def setCtx (x : Nat) (v : Ctx) (s : State) : State := { s with office := { s.office with ctxs := smPut ctxDef s.office.ctxs x v } }
def xCtx (c : Cmd) : Nat := natBits (cX c) 11 0
def xElems (c : Cmd) : Nat := natBits (cX c) 19 16
def xRm (c : Cmd) : Nat := natBits (cX c) 21 20
def xFwd (c : Cmd) : Bool := (cX c).testBit 22
def xRop (c : Cmd) : Nat := natBits (cX c) 27 24
def xExpect (c : Cmd) : Nat := natBits (cX c) 63 32
def freshAccs (c : Cmd) : List Acc := List.replicate (xElems c) (accStart (xRop c))

/-- LCTR and the letter of a round (R360, R369). -/
def roundDone (x : Nat) (c : Cmd) (round st fpx : Nat) (s : State) : State :=
  let s1 := if st = stOk ∧ cFlag c fLctren then advanceCtr (cLctr c) 1 s else s
  if st ≠ stOk ∨ cFlag c fCpl then postCompletion c st 4 fpx x round (nowNs s1) s1 else s1

/-- Bytes of an accumulator sent to another device: five flits an element (R369). -/
def accBytes (a : Acc) : List Byte :=
  bytesOfNat (a.a % 2 ^ 2176).toNat 272 ++
    bytesOfNat (a.nan.toNat + 2 * a.inv.toNat + 4 * a.pinf.toNat + 8 * a.ninf.toNat + 16 * a.allNeg0.toNat + 32 * a.allPos0.toNat) 1 ++
    bytesOf a.val 8 ++ bytesOfNat a.fpx.toNat 1 ++ bytesOfNat 0 38
/-- Send a message of an initiator: one flit, injected toward the port it leaves by (12 R302, R307). -/
def sendOf (init : Nat) (m : Msg) (s : State) : Routed × State :=
  let rs := [32 + egressOf s m]
  sendMsg { m with init := some init, isOver := !injectsWithin s init m.tc.toNat 1 rs } (inject init m.tc.toNat 1 rs s)
/-- Data for another device, one message a line (R377). -/
def dataMsgs (kind : BitVec 8) (mc : BitVec 3) (dst : Nat) (tid : BitVec 12) (tc : BitVec 2) (poison : Bool) (bs : List Byte) : List Msg :=
  (List.range ((bs.length + 63) / 64)).map fun i =>
    let b := (bs.drop (64 * i)).take 64
    dataMsg kind mc dst tid tc (64 * i) (2 ^ b.length - 1) poison (vecOfBytes b)
/-- Send data as the initiator of a request, or as a response. -/
def sendData (init : Option Nat) (ms : List Msg) (s : State) : State :=
  ms.foldl (fun a m => match init with
    | some i => (sendOf i m a).2
    | none => (sendMsg m a).2) s
/-- Does a route lead on from here (R352)? -/
def routeLeads (r : Routed) : Bool := r == .sent || r == .wait || r == .here

/-- A round is complete (R369): written, or forwarded. -/
def finishRound (x : Nat) (c : Cmd) (accs : List Acc) (round : Nat) (s : State) : State :=
  if xFwd c then
    let t := newTid s
    let f : Forward := { src := x, srcDev := devNum s, dev := cRdev c, dst := natBits (cRoff c) 11 0, rop := xRop c, elems := xElems c,
                         accs := accs, round := round, tid := t.1, tc := BitVec.ofNat 2 (qClass (queueOf s c.q)) }
    let s1 := if cRdev c = devNum s then inject (512 + x % 8) (qClass (queueOf s c.q)) (5 * xElems c) [24 + f.dst % 8] t.2 else t.2
    let s2 : State := { s1 with office := { s1.office with forwards := s1.office.forwards ++ [f] } }
    if f.dev = devNum s then s2
    else
      match dataMsgs 6 4 f.dev t.1 f.tc false ((accs.map accBytes).foldr (· ++ ·) []) with
      | [] => s2
      | m :: ms =>
        let r := sendOf (512 + x % 8) m s2
        if routeLeads r.1 then sendData (some (512 + x % 8)) ms r.2 else roundDone x c round stTimeout 0 s1
  else
    let rs := accs.map (accResult (xRop c) (xRm c))
    let fpx := (rs.map (·.2)).foldl (· ||| ·) 0
    let u := localUse s c.q (cLreg c) (cLoff c) (8 * xElems c) needWrite
    let code := firstCode u.1
    if code ≠ stOk then roundDone x c round code fpx s
    else
      let s1 := injectLines (cmdInit c) (cmdTc s c) u.2 (8 * xElems c) s
      roundDone x c round stOk fpx (agentWrite (cmdTc s c) u.2 ((rs.map fun r => bytesOfNat r.1 8).foldr (· ++ ·) []) s1)

/-- A contribution or a forward has been combined: the count, and the round when it reaches EXPECT (R369). -/
def addToCtx (x : Nat) (accs : List Acc) (s : State) : State :=
  let k := ctxOf s x
  match k.cfg with
  | none => s
  | some c =>
    if k.count + 1 < xExpect c then setCtx x { k with accs := accs, count := k.count + 1 } s
    else finishRound x c accs k.round (setCtx x { k with accs := freshAccs c, count := 0, round := k.round + 1 } s)
/-- Add the values of a contribution. -/
def addValues (x rop : Nat) (vs : List Word64) (s : State) : State :=
  addToCtx x (((ctxOf s x).accs.zip vs).map fun e => contribute rop e.1 e.2) s
/-- Merge a forward: the status answered to the forwarding context (R352, R367, R369). -/
def mergeForward (f : Forward) (s : State) : Nat × State :=
  match (ctxOf s f.dst).cfg with
  | none => (stNoreg, s)
  | some c =>
    let code := firstCode (codeIf (f.srcDev != devNum s && !srcMatches f.srcDev (cRreg c) (cRctr c)) stPriv ++
      codeIf (xRop c != f.rop || xElems c != f.elems) stRange)
    if code ≠ stOk then (code, s)
    else (stOk, addToCtx f.dst (((ctxOf s f.dst).accs.zip f.accs).map fun e => mergeAcc f.rop e.1 e.2) s)
/-- The forwarding context learns the outcome (R369). -/
def forwardDone (f : Forward) (st : Nat) (s : State) : State :=
  match (ctxOf s f.src).cfg with
  | some c => roundDone f.src c f.round st 0 s
  | none => s
/-- A forward arrives: one of this device's own, or one of another device, which is answered (R369). [DEDUCED, log entry 56] -/
def forwardArrives (f : Forward) (s : State) : State :=
  if f.srcDev = devNum s then
    if s.office.forwards.contains f && f.dev == devNum s then
      let r := mergeForward f { s with office := { s.office with forwards := s.office.forwards.erase f } }
      forwardDone f r.1 r.2
    else s
  else
    let r := mergeForward f s
    (sendMsg (respMsg f.srcDev f.tid f.tc r.1 0 0) r.2).2

/-! ### Starting a command (R349, R351, R352) -/

def runningOf (s : State) (q : Nat) : Bool := s.office.cmds.any fun c => c.cmd.q == q
def addRunning (r : Running) (s : State) : State := { s with office := { s.office with cmds := s.office.cmds ++ [r] } }

/-- The letter at the head of a COMMAND queue; a poisoned one in the ring is not read here. [DEDUCED, log entry 58] -/
def frontCmd (s : State) (q : Nat) : Option Cmd :=
  let x := queueOf s q
  if qKind x ≠ 2 ∨ sopDown s (q % 8) ∨ !(decide (x.state = .active ∨ x.state = .draining)) then none
  else match x.burst, x.ring with
    | l :: _, _ => some { q := q, data := l.data, cpm := l.postmark }
    | [], e :: _ => if readsPoison s (lineOf e.pa) then none else
        let l := ringLetter s e
        some { q := q, data := l.data, cpm := l.postmark }
    | [], [] => none
def popCmd (q : Nat) (s : State) : State :=
  let n := qCount (queueOf s q)
  freeIfDrained q (ringBell q n (takeHead q 1 s).2)
/-- The next command of the queue with this OP: a fired one first, else the head letter; held back by ORDER (R349). [DEDUCED, log entry 58] -/
def takeCmd (q op : Nat) (s : State) : Option (Cmd × State) :=
  match s.office.ready.find? fun c => c.q == q with
  | some c =>
    if cOp c = op ∧ !(cFlag c fOrder && runningOf s q) then some (c, { s with office := { s.office with ready := s.office.ready.erase c } })
    else none
  | none =>
    match frontCmd s q with
    | some c => if cMode c = 0 ∧ cOp c = op ∧ !(cFlag c fOrder && runningOf s q) then some (c, popCmd q s) else none
    | none => none

/-- The checks every command meets (R350, R352). -/
def commonCodes (c : Cmd) (s : State) : List Nat :=
  codeIf (fieldsBad c) stRsvd ++ codeIf (cFlag c fLctren && !granted s c.q 1 (cLctr c)) stPriv ++
    codeIf (c.slot.isSome && decide ((queueOf s c.q).state = .free)) stNoreg
/-- Start the next command of a queue and OP: its own checks and its action decide what runs. -/
def begin_ (q op : Nat) (codes : Cmd → State → List Nat) (act : Cmd → State → Running × State) (s : State) : State :=
  match takeCmd q op s with
  | none => s
  | some (c, s1) =>
    let code := firstCode (commonCodes c s1 ++ codes c s1)
    if code ≠ stOk then addRunning { cmd := c, status := code } s1
    else let r := act c s1; addRunning r.1 r.2

def isLocal (c : Cmd) (s : State) : Bool := cRdev c == devNum s
/-- A local RCTR needs a grant to the queue, or lies in a fenced pipeline (R353). -/
def rctrCodes (c : Cmd) (s : State) : List Nat :=
  codeIf (cFlag c fRctren && isLocal c s && !granted s c.q 1 (cRctr c)) stPriv ++
    codeIf (cFlag c fRctren && isLocal c s && sopDown s (cRctr c % 8)) stFenced
/-- Send a command to its device (R351): the messages, or `ST_TIMEOUT` where there is no route. -/
def sendCommand (c : Cmd) (data : List Byte) (poison : Bool) (regions : List Nat) (s : State) : Running × State :=
  let t := newTid s
  let tc := BitVec.ofNat 2 (qClass (queueOf s c.q))
  let r := sendOf (cmdInit c) (letterMsg 4 (cRdev c) t.1 tc false { data := c.data, postmark := c.cpm }) t.2
  if routeLeads r.1 then
    ({ cmd := c, tid := some t.1, poison := poison, regions := regions, left := if cOp c = 3 then cX c else 0 },
      sendData (some (cmdInit c)) (dataMsgs 6 4 (cRdev c) t.1 tc poison data) r.2)
  else ({ cmd := c, status := stTimeout, regions := regions }, r.2)

def putCodes (c : Cmd) (s : State) : List Nat :=
  codeIf (decide (2 ^ 30 < cX c)) stRange ++ (localUse s c.q (cLreg c) (cLoff c) (cX c) needRead).1 ++
    (if isLocal c s then (localUse s c.q (cRreg c) (cRoff c) (cX c) needWrite).1 else []) ++ rctrCodes c s
def putAct (c : Cmd) (s : State) : Running × State :=
  let src := (regionOf s (cLreg c)).base + cLoff c
  if isLocal c s then
    let r := copyBytes (cmdInit c) (cmdTc s c) (cX c + 1) src ((regionOf s (cRreg c)).base + cRoff c) (cX c) s
    ({ cmd := c, poison := r.1, regions := [cLreg c, cRreg c] }, r.2)
  else
    let r := agentRead (cmdTc s c) src (cX c) (injectLines (cmdInit c) (cmdTc s c) src (cX c) s)
    sendCommand c r.1 r.2.1 [cLreg c] r.2.2

def putiSize (c : Cmd) : Nat := natBits (cLreg c) 3 0
def putiCodes (c : Cmd) (s : State) : List Nat :=
  codeIf (decide (16 ≤ cLreg c)) stRsvd ++ codeIf (decide (putiSize c < 1 ∨ 8 < putiSize c)) stRange ++
    (if isLocal c s then (localUse s c.q (cRreg c) (cRoff c) (putiSize c) needWrite).1 else []) ++ rctrCodes c s
def putiAct (c : Cmd) (s : State) : Running × State :=
  if isLocal c s then
    let pa := (regionOf s (cRreg c)).base + cRoff c
    ({ cmd := c, regions := [cRreg c] },
      agentWrite (cmdTc s c) pa (bytesOfNat (cX c) (putiSize c)) (injectLines (cmdInit c) (cmdTc s c) pa (putiSize c) s))
  else sendCommand c [] false [] s

def getCodes (c : Cmd) (s : State) : List Nat :=
  codeIf (decide (2 ^ 30 < cX c)) stRange ++ (localUse s c.q (cLreg c) (cLoff c) (cX c) needWrite).1 ++
    (if isLocal c s then (localUse s c.q (cRreg c) (cRoff c) (cX c) needRead).1 else []) ++ rctrCodes c s
def getAct (c : Cmd) (s : State) : Running × State :=
  if isLocal c s then
    let r := copyBytes (cmdInit c) (cmdTc s c) (cX c + 1) ((regionOf s (cRreg c)).base + cRoff c) ((regionOf s (cLreg c)).base + cLoff c) (cX c) s
    ({ cmd := c, poison := r.1, regions := [cLreg c, cRreg c] }, r.2)
  else sendCommand c [] false [cLreg c] s

def amoSize (c : Cmd) : Nat := if (cLreg c).testBit 8 then 8 else 4
def amoCodes (c : Cmd) : List Nat :=
  codeIf (natBits (cLreg c) 7 4 != 0 || decide (512 ≤ cLreg c) || decide (9 < natBits (cLreg c) 3 0)) stRsvd ++
    codeIf (cRoff c % amoSize c != 0) stRange
/-- The operation at the line's home, or its refusal for poison (R357, R358). -/
def amoDo (c : Cmd) (pa : Nat) (s : State) : Nat × Bool × Word64 × State :=
  if readsPoison s (lineOf pa) then (stRange, true, 0, s)
  else
    let r := agentAmo (cmdTc s c) pa (natBits (cLreg c) 3 0) ((cLreg c).testBit 8) (BitVec.ofNat 64 (cLoff c)) (BitVec.ofNat 64 (cX c)) s
    (stOk, false, r.1, r.2)
def amoAct (c : Cmd) (s : State) : Running × State :=
  if isLocal c s then
    let pa := (regionOf s (cRreg c)).base + cRoff c
    let r := amoDo c pa (injectLines (cmdInit c) (cmdTc s c) pa 1 s)
    ({ cmd := c, status := r.1, poison := r.2.1, value := r.2.2.1, regions := [cRreg c] }, r.2.2.2)
  else sendCommand c [] false [] s

def overlaps (a b n : Nat) : Bool := decide (a < b + n ∧ b < a + n)
def copyCodes (c : Cmd) (s : State) : List Nat :=
  let u := localUse s c.q (cLreg c) (cLoff c) (cX c) needRead
  let v := localUse s c.q (cRreg c) (cRoff c) (cX c) needWrite
  codeIf (!isLocal c s || decide (2 ^ 30 < cX c) || overlaps u.2 v.2 (cX c)) stRange ++ u.1 ++ v.1
def copyAct (c : Cmd) (s : State) : Running × State :=
  let r := copyBytes (cmdInit c) (cmdTc s c) (cX c + 1) ((regionOf s (cLreg c)).base + cLoff c) ((regionOf s (cRreg c)).base + cRoff c) (cX c) s
  ({ cmd := c, poison := r.1, regions := [cLreg c, cRreg c] }, r.2)

/-- The counter a command acts on: granted, its pipeline in service. -/
def ctrCodes (c : Cmd) (s : State) : List Nat :=
  codeIf (!granted s c.q 1 (cRctr c)) stPriv ++ codeIf (sopDown s (cRctr c % 8)) stFenced
def ctraddAct (c : Cmd) (s : State) : Running × State :=
  if isLocal c s then ({ cmd := c }, advanceCtr (cRctr c) (BitVec.ofNat 64 (cX c)) s) else sendCommand c [] false [] s

def cancelAct (c : Cmd) (s : State) : Running × State :=
  match slotAt s (cX c % 2 ^ 18) with
  | some _ => ({ cmd := c }, putSlot (cX c % 2 ^ 18) none s)
  | none => ({ cmd := c, status := stBusy }, s)

/-- The words at a place. -/
def wordsAt (pa : Nat) (s : State) (n : Nat) : List Word64 := (List.range n).map fun i => BitVec.ofNat 64 (readNat s (pa + 8 * i) 8)
/-- ELEMS of a context of this device. -/
def elemsOf (s : State) (x : Nat) : Nat := match (ctxOf s x).cfg with | some c => xElems c | none => 0
/-- [DEDUCED, log entry 56] -/
def contribCodes (c : Cmd) (s : State) : List Nat :=
  let n := if isLocal c s then 8 * elemsOf s (xCtx c) else 8
  codeIf (decide (4096 ≤ cX c)) stRsvd ++ codeIf (cLoff c % 8 != 0) stRange ++
    (if isLocal c s then
      codeIf (!granted s c.q 2 (xCtx c)) stPriv ++ codeIf (ctxOf s (xCtx c)).cfg.isNone stNoreg ++ codeIf (sopDown s (xCtx c % 8)) stFenced
    else []) ++
    (localUse s c.q (cLreg c) (cLoff c) n needRead).1
/-- [DEDUCED, log entry 56] -/
def contribAct (c : Cmd) (s : State) : Running × State :=
  let g := regionOf s (cLreg c)
  let pa := g.base + cLoff c
  let n := if isLocal c s then 8 * elemsOf s (xCtx c) else min 64 ((g.pages * 4096 - cLoff c) / 8 * 8)
  let r := agentRead (cmdTc s c) pa n (injectLines (cmdInit c) (cmdTc s c) pa n s)
  if r.2.1 then ({ cmd := c, status := stRange, poison := true, regions := [cLreg c] }, r.2.2)
  else if isLocal c s then
    let rop := match (ctxOf s (xCtx c)).cfg with | some k => xRop k | none => 0
    ({ cmd := c, regions := [cLreg c] }, addValues (xCtx c) rop (wordsAt pa r.2.2 (n / 8)) r.2.2)
  else sendCommand c r.1 false [cLreg c] r.2.2

def ctxsetCodes (c : Cmd) (s : State) : List Nat :=
  codeIf (natBits (cX c) 15 12 != 0 || (cX c).testBit 23 || natBits (cX c) 31 28 != 0 || decide (4096 ≤ cRoff c)) stRsvd ++
    codeIf (!granted s c.q 2 (xCtx c)) stPriv ++ codeIf (sopDown s (xCtx c % 8)) stFenced ++
    codeIf ((ctxOf s (xCtx c)).count != 0) stBusy ++
    (if xRop c = 0 then []
    else
      codeIf (decide (11 < xRop c ∨ xElems c < 1 ∨ 8 < xElems c ∨ xExpect c = 0)) stRange ++
        (if xFwd c then [] else (localUse s c.q (cLreg c) (cLoff c) (8 * xElems c) needWrite).1))
def ctxsetAct (c : Cmd) (s : State) : Running × State :=
  ({ cmd := c, quiet := true }, setCtx (xCtx c) (if xRop c = 0 then {} else { cfg := some c, accs := freshAccs c }) s)

/-! ### Arming (R362, R363) -/

def armCodes (c : Cmd) (s : State) : List Nat :=
  let n := cAslot c % 2 ^ 18
  codeIf (cb c 9 9 != 0 || decide (2 ^ 18 ≤ cAslot c)) stRsvd ++
    codeIf (!granted s c.q 0 n || !granted s c.q 1 (cActr c)) stPriv ++
    codeIf (n % 8 != cActr c % 8) stRange ++ codeIf (sopDown s (n % 8)) stFenced ++ codeIf (slotAt s n).isSome stBusy
/-- The command stored: the body, its arming fields cleared. -/
def armedCmd (c : Cmd) : Cmd := { c with data := putFld c.data 191 64 0 }
def armHead (q : Nat) (s : State) : State :=
  match frontCmd s q with
  | none => s
  | some c =>
    if cMode c ≠ 1 then s
    else
      let s1 := popCmd q s
      let code := firstCode (armCodes c s1)
      if code ≠ stOk then addRunning { cmd := c, status := code } s1
      else
        let x : Slot := { cmd := armedCmd c, ctr := cActr c, thresh := BitVec.ofNat 64 (cThresh c), order := s1.office.armSeq }
        let s2 := putSlot (cAslot c % 2 ^ 18) (some x) s1
        fireCtr (cActr c) { s2 with office := { s2.office with armSeq := s2.office.armSeq + 1 } }

/-! ### Completion (R356, R360) -/

/-- RCTR of a local target: after its accesses. -/
def rctrDone (r : Running) (s : State) : State :=
  if r.status = stOk ∧ r.tid.isNone ∧ cFlag r.cmd fRctren ∧ isLocal r.cmd s ∧ ([1, 2, 3, 4] : List Nat).contains (cOp r.cmd) then
    advanceCtr (cRctr r.cmd) 1 s
  else s
/-- A command completes: LCTR, then its letter. -/
def completeCmd (r : Running) (s : State) : State :=
  let c := r.cmd
  let s1 := rctrDone r { s with office := { s.office with cmds := s.office.cmds.erase r } }
  let s2 := if r.status = stOk ∧ !r.quiet ∧ cFlag c fLctren then advanceCtr (cLctr c) 1 s1 else s1
  if r.status ≠ stOk ∨ r.poison ∨ r.always ∨ (cFlag c fCpl && !r.quiet) then
    postCompletion c r.status (c.slot.isSome.toNat + 2 * r.poison.toNat) 0 (c.slot.getD 0) r.value.toNat c.cpm.toNat s2
  else s2
/-- The forwards that contexts configured through a queue have under way. -/
def forwardsOf (s : State) (q : Nat) : List Forward :=
  s.office.forwards.filter fun f => f.srcDev == devNum s && match (ctxOf s f.src).cfg with | some c => c.q == q | none => false
/-- The `n`-th command running on a queue completes; one that another device performs completes only when that device has
answered, or, `late`, when it has not answered in time (R352). After the commands count the forwards of the contexts that the queue
configured, which can only be late. Where none is left, a head letter of no known MODE or OP fails. [DESIGN CHOICE, log entry 94] -/
def completeNth (q n : Nat) (late : Bool) (s : State) : State :=
  match (s.office.cmds.filter fun r => r.cmd.q == q)[n]? with
  | some r =>
    match r.tid with
    | none => completeCmd r s
    | some _ => if late then completeCmd { r with status := stTimeout, tid := none } { s with office := { s.office with cmds := s.office.cmds.replace r { r with status := stTimeout, tid := none } } } else s
  | none =>
    match (forwardsOf s q)[n - (s.office.cmds.filter fun r => r.cmd.q == q).length]?, frontCmd s q with
    | some f, _ =>
      if late ∧ f.dev ≠ devNum s then forwardDone f stTimeout { s with office := { s.office with forwards := s.office.forwards.erase f } } else s
    | none, some c =>
      if 1 < cMode c ∨ (cMode c = 0 ∧ !opKnown (cOp c)) then
        let r : Running := { cmd := c, status := stRsvd }
        completeCmd r (addRunning r (popCmd q s))
      else s
    | none, none => s

/-! ### What this device performs for another (R351, R352, R356) -/

/-- A counter of RREG that a command of another device may advance. -/
def remoteCtr (s : State) (dev r n : Nat) : List Nat :=
  let g := regionOf s r
  codeIf (g.valid && !(g.remote && srcMatches dev g.srcBase.toNat g.srcMask.toNat)) stPriv ++ codeIf (!g.valid) stNoreg ++
    codeIf (!(decide (g.ctrBase ≤ n ∧ n < g.ctrBase + g.ctrCount))) stRange ++ codeIf (sopDown s (n % 8)) stFenced
def remoteRctr (s : State) (dev : Nat) (c : Cmd) : List Nat := if cFlag c fRctren then remoteCtr s dev (cRreg c) (cRctr c) else []
def advanceRctr (c : Cmd) (s : State) : State := if cFlag c fRctren then advanceCtr (cRctr c) 1 s else s
def reply (m : Msg) (st flags : Nat) (v : Word64) (s : State) : State :=
  (sendMsg { respMsg m.src.toNat m.tid m.tc st flags v with ordered := m.ordered } s).2

/-- The checks of a command of device `dev` at its target. -/
def serveCodes (s : State) (dev : Nat) (c : Cmd) : List Nat :=
  match cOp c with
  | 1 => (remoteUse s dev (cRreg c) (cRoff c) (cX c) needWrite).1 ++ remoteRctr s dev c
  | 2 => (remoteUse s dev (cRreg c) (cRoff c) (putiSize c) needWrite).1 ++ remoteRctr s dev c
  | 3 => (remoteUse s dev (cRreg c) (cRoff c) (cX c) needRead).1 ++ remoteRctr s dev c
  | 4 => amoCodes c ++ (remoteUse s dev (cRreg c) (cRoff c) (amoSize c) needAmo).1 ++ remoteRctr s dev c
  | 8 => remoteCtr s dev (cRreg c) (cRctr c)
  | 16 => match (ctxOf s (xCtx c)).cfg with
    | none => [stNoreg]
    | some k => codeIf (!srcMatches dev (cRreg k) (cRctr k)) stPriv ++ codeIf (sopDown s (xCtx c % 8)) stFenced
  | _ => [stRsvd]
/-- A COMMAND message addressed to this device (R351, R377). -/
def serveCommand (m : Msg) (s : State) : State :=
  let c : Cmd := { q := 65536, data := vecOfChunks m.chunks, cpm := m.kspec.setWidth 64, tc := m.tc.toNat }
  let dev := m.src.toNat
  let code := if s.office.running then firstCode (serveCodes s dev c) else stBusy
  let pa := (regionOf s (cRreg c)).base + cRoff c
  if code ≠ stOk then reply m code 0 0 s
  else
    match cOp c with
    | 1 =>
      if cX c = 0 then reply m stOk 0 0 (advanceRctr c s)
      else { s with office := { s.office with serving := s.office.serving ++ [{ src := dev, tid := m.tid, cmd := c, left := cX c, region := cRreg c }] } }
    | 2 => reply m stOk 0 0 (advanceRctr c (agentWrite m.tc.toNat pa (bytesOfNat (cX c) (putiSize c)) s))
    | 3 =>
      let r := agentRead m.tc.toNat pa (cX c) s
      reply m stOk (2 * r.2.1.toNat) 0 (advanceRctr c (sendData none (dataMsgs 7 2 dev m.tid m.tc r.2.1 r.1) r.2.2))
    | 4 =>
      let r := amoDo c pa s
      reply m r.1 (2 * r.2.1.toNat) r.2.2.1 (if r.1 = stOk then advanceRctr c r.2.2.2 else r.2.2.2)
    | 8 => reply m stOk 0 0 (advanceCtr (cRctr c) (BitVec.ofNat 64 (cX c)) s)
    | _ => { s with office := { s.office with serving := s.office.serving ++ [{ src := dev, tid := m.tid, cmd := c, left := 8 * elemsOf s (xCtx c), region := 4096 }] } }

/-- Offset, mask and poison of a data message. -/
def dataOff (m : Msg) : Nat := fld (m.chunks.headD 0) 63 1 * 2
def dataPoison (m : Msg) : Bool := (m.chunks.headD 0).getLsbD 0
def dataMask (m : Msg) : Nat := fld (m.chunks.headD 0) 127 64
def dataVec (m : Msg) : Vec := vecOfChunks m.chunks.tail
/-- Has a page that data is to be written to left the open world since the command was checked (R354)? -/
def pagesTaken (s : State) (pa : Nat) (m : Msg) : Bool := (pagesOf pa (Nat.log2 (dataMask m) + 1)).any fun p => ownerCode s p != 0
/-- CMD_DATA for a command performed here (R356, R358, R368). [DESIGN CHOICE, log entry 93] -/
def serveData (m : Msg) (s : State) : State :=
  match s.office.serving.find? fun x => x.src == m.src.toNat && x.tid == m.tid with
  | none => s
  | some x =>
    let c := x.cmd
    let drop : State := { s with office := { s.office with serving := s.office.serving.erase x } }
    if cOp c = 16 then
      let n := elemsOf s (xCtx c)
      match (ctxOf s (xCtx c)).cfg with
      | none => reply m stNoreg 0 0 drop
      | some k =>
        if dataMask m % 2 ^ (8 * n) ≠ 2 ^ (8 * n) - 1 then reply m stRange 0 0 drop
        else if dataPoison m then reply m stRange 2 0 drop
        else reply m stOk 0 0 (addValues (xCtx c) (xRop k) ((List.range n).map fun i => BitVec.ofNat 64 (fld (dataVec m) (64 * i + 63) (64 * i))) drop)
    else
      let pa := (regionOf s (cRreg c)).base + cRoff c + dataOff m
      let s1 := writeMasked m.tc.toNat pa (dataMask m) (dataPoison m) (dataVec m) s
      let left := x.left - countOnes (BitVec.ofNat 64 (dataMask m)) 64
      let poison := x.poison || dataPoison m
      if pagesTaken s pa m then reply m stPriv 0 0 drop
      else if left = 0 then
        reply m stOk (2 * poison.toNat) 0 (advanceRctr c { s1 with office := { s1.office with serving := s1.office.serving.erase x } })
      else { s1 with office := { s1.office with serving := s1.office.serving.replace x { x with left := left, poison := poison } } }
/-- CMD_RDATA for a GET of this device. [DESIGN CHOICE, log entry 93] -/
def takeReadData (m : Msg) (s : State) : State :=
  match s.office.cmds.find? fun r => r.tid == some m.tid && cRdev r.cmd == m.src.toNat with
  | none => s
  | some r =>
    let pa := (regionOf s (cLreg r.cmd)).base + cLoff r.cmd + dataOff m
    let taken := pagesTaken s pa m
    let s1 := if taken then s else writeMasked m.tc.toNat pa (dataMask m) (dataPoison m) (dataVec m) s
    let y := { r with left := r.left - countOnes (BitVec.ofNat 64 (dataMask m)) 64, poison := r.poison || dataPoison m,
                      status := if taken then stPriv else r.status }
    { s1 with office := { s1.office with cmds := s1.office.cmds.replace r y } }
/-- CMD_RESP for a command or a forward of this device. [DESIGN CHOICE, log entry 93] -/
def takeResponse (m : Msg) (s : State) : State :=
  let w := (m.chunks.headD 0)
  let st := fld w 7 0
  match s.office.cmds.find? fun r => r.tid == some m.tid && cRdev r.cmd == m.src.toNat with
  | some r =>
    let y := { r with tid := none, status := if r.status = stOk then st else r.status, poison := r.poison || w.getLsbD 9, value := BitVec.ofNat 64 (fld w 127 64) }
    { s with office := { s.office with cmds := s.office.cmds.replace r y } }
  | none =>
    match s.office.forwards.find? fun f => f.tid == m.tid && f.dev == m.src.toNat && f.dev != devNum s with
    | some f => forwardDone f st { s with office := { s.office with forwards := s.office.forwards.erase f } }
    | none => s

/-! ### Commands -/

def execNop (q : Fin 65536) (s : State) : Out := .next (begin_ q.val 0 (fun _ _ => []) (fun c s => ({ cmd := c }, s)) s)
def execPut (q : Fin 65536) (s : State) : Out := .next (begin_ q.val 1 putCodes putAct s)
def execPuti (q : Fin 65536) (s : State) : Out := .next (begin_ q.val 2 putiCodes putiAct s)
def execGet (q : Fin 65536) (s : State) : Out := .next (begin_ q.val 3 getCodes getAct s)
def execAmoCommand (q : Fin 65536) (s : State) : Out :=
  .next (begin_ q.val 4 (fun c s => amoCodes c ++ (if isLocal c s then (localUse s c.q (cRreg c) (cRoff c) (amoSize c) needAmo).1 else []) ++ rctrCodes c s)
    amoAct s)
def execCopy (q : Fin 65536) (s : State) : Out := .next (begin_ q.val 5 copyCodes copyAct s)
def execCtradd (q : Fin 65536) (s : State) : Out := .next (begin_ q.val 8 (fun c s => if isLocal c s then ctrCodes c s else []) ctraddAct s)
def execCtrset (q : Fin 65536) (s : State) : Out :=
  .next (begin_ q.val 9 (fun c s => codeIf (!isLocal c s) stRange ++ ctrCodes c s)
    (fun c s => ({ cmd := c }, setCounter (cRctr c) (BitVec.ofNat 64 (cX c)) s)) s)
def execCtrread (q : Fin 65536) (s : State) : Out :=
  .next (begin_ q.val 10 (fun c s => codeIf (!isLocal c s) stRange ++ ctrCodes c s)
    (fun c s => ({ cmd := c, value := ctrOf s (cRctr c), always := true }, s)) s)
def execTrigcancel (q : Fin 65536) (s : State) : Out :=
  .next (begin_ q.val 12 (fun c s => codeIf (decide (2 ^ 18 ≤ cX c)) stRsvd ++ codeIf (!granted s c.q 0 (cX c % 2 ^ 18)) stPriv ++
    codeIf (sopDown s (cX c % 8)) stFenced) cancelAct s)
def execContrib (q : Fin 65536) (s : State) : Out := .next (begin_ q.val 16 contribCodes contribAct s)
def execCtxset (q : Fin 65536) (s : State) : Out := .next (begin_ q.val 17 ctxsetCodes ctxsetAct s)
def execSlotArm (q : Fin 65536) (s : State) : Out := .next (armHead q.val s)
/-- [DEDUCED, log entry 58] -/
def execCommandComplete (q : Fin 65536) (n : Nat) (late : Bool) (s : State) : Out := .next (completeNth q.val n late s)
/-- [DEDUCED, log entry 56] -/
def execContextForward (f : Forward) (s : State) : Out := .next (forwardArrives f s)

end Sys2Proof.Machine
end

