-- ==== Sys2Proof/Machine/Links.lean ====
section
/-! DEFINITION. The Voxioz ports (15): frames and retry, training, sparing, failover, link power, eye sweeps, system time on links;
and joins and splits of devices (10 R264 to R269). -/

namespace Sys2Proof.Machine

/-! ### Arriving messages (15 R387, R388) -/

/-- Return the credit of a message's buffer entry (R380). -/
def giveCredit (p : Nat) (m : Msg) (s : State) : State :=
  if p < 8 ∧ portUp s p then sendCtl p 0x80 (BitVec.ofNat 40 (vcOf m * 256 + 1)) [] s else s

/-- LETTER_ACK: the sender's letter was accepted. -/
def letterAcked (m : Msg) (s : State) : State :=
  { s with office := { s.office with senders := s.office.senders.filterMap fun e =>
      let r := e.2.filter fun x => !(x.tid == some m.tid && fld x.dest 31 16 == m.src.toNat)
      if r.isEmpty then none else some (e.1, r) } }
/-- The sender that has a letter under way as a message's TID. -/
def letterOf (m : Msg) (s : State) : Option (Nat × SendSlot) :=
  s.office.senders.findSome? fun e => (e.2.find? fun x => x.tid == some m.tid && fld x.dest 31 16 == m.src.toNat).map fun x => (e.1, x)
/-- LETTER_NAK (13 R336, R338): a full queue makes the sender keep the letter; any other reason gives it up with its report. -/
def letterNaked (m : Msg) (device : Nat) (s : State) : State :=
  match letterOf m s with
  | none => s
  | some (k, sl) =>
    let r := fld m.kspec 7 0
    if r = 0 then
      setSender k ((sendersOf s k).replace sl { sl with tid := none, naked := true, attempts := sl.attempts + 1 }) s
    else report sl.letter.via r (rKept r) device sl.letter (setSender k ((sendersOf s k).erase sl) s)

/-- A message that cannot be routed is answered to its source, and the answer, if it has no route, dropped (R388). [DEDUCED, log entry 63] -/
def refuseMsg (p : Nat) (m : Msg) (s : State) : State :=
  let own := decide (m.src.toNat = devNum s)
  let answer (a : Msg) : State :=
    let r := sendMsg { a with ordered := m.ordered } s
    if r.1 = .loop ∨ r.1 = .unreachable then vxDrop (p % 8) r.2 else r.2
  match m.kind.toNat with
  | 1 =>
    if own then letterNaked { m with src := m.dst, kspec := BitVec.ofNat 40 rUnreachable } (devNum s) s
    else answer { kind := 3, mc := 2, tc := m.tc, tid := m.tid, dst := m.src, kspec := BitVec.ofNat 40 rUnreachable }
  | 4 =>
    if own then takeResponse { respMsg 0 m.tid m.tc stTimeout 0 0 with src := m.dst } s
    else answer (respMsg m.src.toNat m.tid m.tc stTimeout 0 0)
  | _ => s

/-- Route one message; its buffer entry is given back once it leaves. -/
def forwardMsg (expired : Bool) (p : Nat) (m : Msg) (s : State) : State :=
  let r := route expired m s
  match r.1 with
  | .sent => giveCredit p m r.2
  | .wait => { r.2 with links := { r.2.links with waiting := r.2.links.waiting ++ [(p, m)] } }
  | .loop | .unreachable => giveCredit p m (refuseMsg p m r.2)
  | .here => r.2
/-- Route the waiting messages again, in the order of 12 R316. -/
def reroute (s : State) : State :=
  let ws := s.links.waiting
  sendCoh (countPassed ws ((serveOrder s ws).foldl (fun a e => forwardMsg false e.1 e.2 a) { s with links := { s.links with waiting := [] } }))

/-- A letter for a queue of this device: stored, and answered (R377; 13 R336). -/
def letterHere (m : Msg) (s : State) : State :=
  let data := vecOfChunks m.chunks
  -- bits 63 to 40 of the postmark are those that bring it nearest the own time (R377)
  let now := nowNs s
  let low := m.kspec.toNat
  let base := now / 2 ^ 40 * 2 ^ 40 + low
  let pm := if now + 2 ^ 39 < base then base - 2 ^ 40 else if base + 2 ^ 39 < now then base + 2 ^ 40 else base
  let r := deliver (fld data 15 0) { data := data, postmark := BitVec.ofNat 64 pm } s
  let ans (k : BitVec 8) (n : Nat) : State :=
    (sendMsg { kind := k, mc := 2, tc := m.tc, tid := m.tid, dst := m.src, kspec := BitVec.ofNat 40 n, ordered := m.ordered } r.2).2
  match r.1 with
  | .taken => ans 2 0
  | .gone n => ans 3 n
  | .nak => ans 3 0

/-- May a message be taken from the port: in service, no replay awaited (R382), of the kind its command names? -/
def takesMsg (s : State) (p : Nat) (m : Msg) (kind : Nat) : Bool := portUp s p && !(port s p).discarding && m.kind.toNat == kind
/-- The flits a request or a letter of another device injects: its 64-byte payloads; a response none (12 R298, R299).
[DESIGN CHOICE, log entry 96] -/
def ingressFlits (m : Msg) : Nat := if m.mc.toNat ≤ 2 then 0 else max 1 (m.chunks.length / 4)
/-- A message as the port injects it here, or routes it on (12 R299, R310). -/
def injectMsg (p : Nat) (m : Msg) (s : State) : Msg × State :=
  let n := ingressFlits m
  let rs := if m.dst.toNat = devNum s then [] else [32 + egressOf s m]
  if n = 0 then (m, s)
  else ({ m with init := some (520 + p), isOver := !injectsWithin s (520 + p) m.tc.toNat n rs }, inject (520 + p) m.tc.toNat n rs s)
/-- A message arrives: routed on, or handled here (R387); its arrival is activity (22 R537). [DESIGN CHOICE, log entry 93] -/
def arrive (p : Nat) (m : Msg) (kind : Nat) (here : Msg → State → State) (s : State) : State :=
  if takesMsg s p m kind then
    let x := injectMsg p m (latchWake wakeLink s)
    if m.dst.toNat = devNum s then giveCredit p m (here m x.2) else forwardMsg false p x.1 x.2
  else s

/-! ### Failover (15 R390) -/

/-- A reservation in force names the port's egress (R391). -/
def egressReserved (s : State) (p : Nat) : Bool :=
  (List.range 540).any fun n => (regAct s (frkResOff n 0)).getLsbD 31 && (regAct s (frkResOff n 2)).getLsbD p

/-- The data of a swept lane returns to it (R394, R395). -/
def unswap (po : Port) : Port :=
  if po.sweep.swapped then
    let l := (po.lanes &&& ~~~(BitVec.ofNat 5 (2 ^ po.spare))) ||| BitVec.ofNat 5 (2 ^ po.sweep.lane)
    { po with lanes := if po.bad.getLsbD po.sweep.lane then po.lanes else l, sweep := { po.sweep with swapped := false } }
  else po
/-- Abort a sweep with a reason (R395). -/
def abortSweep (p reason : Nat) (s : State) : State :=
  let po := port s p
  if po.sweep.busy then
    let q := unswap po
    let s1 := setPort p { q with sweep := { q.sweep with busy := false, done := false, incomplete := true, reason := reason } } s
    if portUp s1 p then sendCtl p 0x8A (BitVec.ofNat 40 reason) [] s1 else s1
  else s

/-- A request in flight to or from a peer that splits (10 R269 step 2): a write of its memory is recorded as discarded. -/
def dropInFlight (slot : Nat) (s : State) : State :=
  let ours (line : Nat) : Bool := remoteSlot s line == some slot
  let lost := s.mem.homeQ.filter fun q => ours q.line && (q.kind == .fw || q.kind == .pw)
  let s1 := lost.foldl (fun a q => pulse 151 (logFault 9 3 (uHome (homeOf a q.line)) none (64 * q.line) 0 a)) s
  let late := (s1.mem.homeQ.filter fun q => q.pending.any fun x => x.1 == devOwner slot).map (·.line)
  let s2 : State := { s1 with
    links := { s1.links with cohOut := s1.links.cohOut.filter fun m => m.slot != slot },
    mem := { s1.mem with grants := s1.mem.grants.filter (fun g => !ours g.line), answers := s1.mem.answers.filter (fun a => !ours a.line),
                         homeQ := (s1.mem.homeQ.filter fun q => q.req != .dev slot && !ours q.line).map fun q =>
                           { q with pending := q.pending.filter fun x => x.1 != devOwner slot } } }
  ackTargets (fun n => n == 512 + slot) (late.foldl (fun a l => settle l a) s2)
/-- A block, or a joined device (9 plus its slot), has switched to the committed epoch; the last one ends the flight (02 R49; 10 R267). -/
def blockSwitched (k : Nat) (s : State) : State :=
  if s.ctl.inFlight && s.ctl.unswitched.contains k then
    let left := s.ctl.unswitched.erase k
    let s1 : State := { s with ctl := { s.ctl with
      unswitched := left, inFlight := !left.isEmpty, oldActive := if left.isEmpty then [] else s.ctl.oldActive } }
    if left.isEmpty then pulse 155 s1 else s1
  else s
/-- A split begins (10 R269): the pair's ports are fenced, the peer's windows unbacked, its requests in flight dropped.
[DEDUCED, log entry 63] -/
def splitPair (p trigger : Nat) (log : Bool) (s : State) : State :=
  let po := port s p
  let slot := if po.join.state = .coherent then po.join.peerSlot else po.peerSlot
  if po.join.state = .fenced then s
  else
    let ps := p :: ((List.range 8).filter fun q => q != p && decide ((port s q).join.state = .coherent) && (port s q).join.peerSlot == slot)
    let s1 := ps.foldl (fun a q => updPort q (fun x => { x with join := { x.join with state := .fenced, peerSlot := slot } }) a) s
    let s2 := blockSwitched (9 + slot) <| dropInFlight slot { s1 with links := { s1.links with peers := s1.links.peers &&& ~~~(BitVec.ofNat 4 (2 ^ slot)) } }
    if log then logFault 0xD 3 (uPort p) none slot trigger s2 else s2

/-- Is this device the time root (R396)? -/
def isTimeRoot (s : State) : Bool := (regAct s 0x4080010).getLsbD 0
/-- The port that steers the servo: one taken after a disagreement, the configured parent, else a backup (R396, R400). -/
def parentOf (s : State) : Option Nat :=
  match s.links.tempParent with
  | some p => some p
  | none =>
    if isTimeRoot s then none
    else
      let cfg (b : Nat) (p : Nat) : Bool := (regAct s (vxBase p + 0x200)).getLsbD b
      match (List.range 8).find? (cfg 0) with
      | some p => if portUp s p then some p else (List.range 8).find? fun q => cfg 1 q && portUp s q
      | none => none
/-- The depth, the root and the offset that this device reports: the time root's own are 0, itself and 0 (R396, R398). -/
def timeDepth (s : State) : Nat := if isTimeRoot s then 0 else s.links.depth
def timeRootDev (s : State) : Nat := if isTimeRoot s then devNum s else s.links.rootDev
def timeOffset (s : State) : Int := if isTimeRoot s then 0 else s.links.offset
/-- A device that had a parent and has none left in service goes to HOLDOVER (R398). -/
def checkParent (s : State) : State :=
  let s0 : State := match s.links.tempParent with
    | some p => if portUp s p then s else { s with links := { s.links with tempParent := none } }
    | none => s
  if (parentOf s0).isNone && !isTimeRoot s0 && decide (s0.links.servo = .locked ∨ s0.links.servo = .reslew) then
    logFault 0x206 5 uDevice none 0 s0.links.parentPort { s0 with links := { s0.links with servo := .holdover } }
  else s0

/-- A port leaves service (R390): its waiting messages are routed again, a RESYNC is sent, a coherent pair without another port
splits. A join in progress on it is refused with TIMEOUT. [DESIGN CHOICE, log entry 96] -/
def outOfService (p : Nat) (s : State) : State :=
  let po := port s p
  if po.state = .out then s
  else
    let s1 := setPort p { port (abortSweep p 1 s) p with state := .out, resyncWait := po.peerValid && !po.retryBuf.isEmpty, degraded := false,
                                                         sleepReq := false, sleepAgreed := false } (abortSweep p 1 s)
    let others := (joinedWith s1 po.join.peerSlot).filter fun q => q != p
    let s2 := if po.join.state = .coherent ∧ others.isEmpty then splitPair p 2 true s1
      else if po.join.state = .coherent then setPort p { port s1 p with join := { po.join with state := .non } } s1
      else if po.join.state = .joining then setPort p { port s1 p with join := { po.join with state := .non, reason := 9, tries := min 65535 (po.join.tries + 1) } } s1
      else s1
    let s3 := checkParent (reroute s2)
    if po.peerValid then
      (sendMsg { kind := 8, mc := 2, dst := BitVec.ofNat 16 po.peerDev, kspec := BitVec.ofNat 40 (p * 256 + po.rxSeq.toNat) } s3).2
    else s3

/-- Frames after a sequence number. -/
def framesAfter (seq : BitVec 8) (fs : List Frame) : List Frame := fs.filter fun f => decide ((f.fseq - seq).toNat - 1 < 128 ∧ f.fseq ≠ seq)
/-- Route again the messages of frames the peer had not received, and forget the rest (R390). -/
def resync (p : Nat) (seq : BitVec 8) (s : State) : State :=
  let po := port s p
  let ms := (framesAfter seq po.retryBuf).foldr (fun f acc => f.msgs ++ acc) []
  let s1 := setPort p { po with retryBuf := [], resyncWait := false } s
  (ms.filter fun m => m.mc != 0).foldl (fun a m => forwardMsg false 8 m a) s1
/-- A peer's RESYNC addressed to this device: port in bits 10 to 8, FSEQ in bits 7 to 0. -/
def resyncHere (m : Msg) (s : State) : State :=
  match (List.range 8).find? fun p => (port s p).peerValid && (port s p).peerDev == m.src.toNat && (port s p).peerPort == fld m.kspec 10 8 with
  | none => s
  | some p =>
    let s1 := if portUp s p then outOfService p s else s
    resync p (m.kspec.setWidth 8) s1
/-- No RESYNC within 10 ms: the messages of the unacknowledged frames are refused (R390). -/
def resyncLate (p : Nat) (s : State) : State :=
  let po := port s p
  if po.resyncWait then
    let ms := po.retryBuf.foldr (fun f acc => f.msgs ++ acc) []
    (ms.filter fun m => m.mc != 0).foldl (fun a m => refuseMsg p m a) (setPort p { po with retryBuf := [], resyncWait := false } s)
  else s

/-! ### Frames (15 R376, R382, R383) -/

/-- Enter LISTEN once agreed and the retry buffer is empty (R392); a message held meanwhile wakes the port at once (R393). -/
def settleSleep (p : Nat) (s : State) : State :=
  let po := port s p
  if po.sleepAgreed && po.retryBuf.isEmpty then
    reroute (setPort p { po with pwr := .listen, sleepAgreed := false, sleepReq := false } s)
  else s

/-- A fast retrain, which may fail (R383). [DESIGN CHOICE, log entry 59] -/
def fastRetrain (p : Nat) (ok : Bool) (s : State) : State :=
  if ok then retrained p s
  else
    let po := port s p
    let fails := nowNs s :: po.fastFails.filter fun t => decide (nowNs s < t + 1000000000)
    let s1 := setPort p { po with fastFails := fails } s
    if 3 ≤ fails.length then outOfService p (logFault 0x201 2 (uPort p) none po.peerDev 0 s1) else s1

/-- The acknowledgement a frame carries (R376, R382). -/
def takeAck (p : Nat) (aseq : BitVec 8) (akind : BitVec 2) (retrainOk : Bool) (s : State) : State :=
  let po := port s p
  let rest := framesAfter aseq po.retryBuf
  if akind = 1 then settleSleep p (setPort p { po with retryBuf := rest, retries := if rest.length < po.retryBuf.length then 0 else po.retries } s)
  else if akind = 2 then
    let n := if rest.length < po.retryBuf.length then 1 else po.retries + 1
    let s1 := vxRetry p (setPort p { po with retryBuf := rest, retries := n } s)
    if fld (regAct s (vxBase p + 0x14)) 15 8 ≤ n then fastRetrain p retrainOk s1 else s1
  else s

/-- A frame arrives (R382): in order and good it is taken, its acknowledgement with it; otherwise a negative acknowledgement is
owed and everything is discarded until the replay. A flit marked non-coherent from a coherent peer splits the pair (10 R269). -/
def frameArrives (p : Nat) (fseq aseq : BitVec 8) (akind : BitVec 2) (coh good : Bool) (slots : Nat) (retrainOk : Bool) (s : State) : State :=
  let po := port s p
  if !portUp s p then s
  else if good && fseq == po.rxSeq + 1 then
    let s1 := vxRxflit p slots (setPort p { po with rxSeq := fseq, discarding := false, ackKind := 1 } s)
    let s2 := takeAck p aseq akind retrainOk s1
    if (port s2 p).join.state = .coherent ∧ !coh then splitPair p 0 true s2 else s2
  else
    let s1 := setPort p { po with discarding := true, ackKind := 2 } s
    if good then s1 else vxFecUnc p s1

/-! ### Training and lanes (15 R375, R384, R385; 21 R523) -/

/-- The widest eye first, the lower lane on a tie. -/
def insertEye (eyes : List Nat) (l : Nat) : List Nat → List Nat
  | [] => [l]
  | m :: r => if eyes.getD m 0 < eyes.getD l 0 then l :: m :: r else m :: insertEye eyes l r
def byEye (eyes : List Nat) (ls : List Nat) : List Nat := ls.foldl (fun acc l => insertEye eyes l acc) []
def lanesMask (ls : List Nat) : BitVec 5 := ls.foldl (fun m l => m ||| BitVec.ofNat 5 (2 ^ l)) 0
def mainVer (s : State) (k : Nat) : Word32 := smGet (fun _ => 0) s.live.versions k

/-- An attempt fails; after three the port is out of service (R375). [DEDUCED, log entry 60] -/
def trainFailed (p lane : Nat) (s : State) : State :=
  let po := port s p
  if 3 ≤ po.attempts + 1 then
    outOfService p (logFault 0x200 2 (uPort p) none lane 0 (setPort p { po with attempts := 0, state := .training } s))
  else setPort p { po with attempts := po.attempts + 1, state := .training } s

/-- CAPS arrives at step 6, or a step before it failed (R375). `usable` are the lanes whose partner answered, `eyes` their widths.
[DESIGN CHOICE, log entry 55; DEDUCED, log entry 60] -/
def capsArrive (p : Nat) (stepsOk : Bool) (usable : BitVec 5) (eyes : List Nat) (dev slot pport major : Nat) (s : State) : State :=
  let po := port s p
  if !(decide (po.state = .training) || (decide (po.state = .down) && decide (s.power.mode = .calibrate))) then s
  else
    let ls := byEye eyes ((List.range 5).filter fun l => usable.getLsbD l && !po.bad.getLsbD l)
    if !stepsOk ∨ major ≠ fld (mainVer s 2) 31 24 ∨ ls.length < 2 then trainFailed p ((List.range 5).find? (fun l => !usable.getLsbD l) |>.getD 0) s
    else
      let wide := decide (4 ≤ ls.length)
      let data := ls.take (if wide then 4 else 2)
      let spare := (ls[4]?).getD (((List.range 5).find? fun l => !data.contains l).getD 4)
      let po1 := { po with state := .up, pwr := .active, attempts := 0, lanes := lanesMask data, spare := spare,
                           spareUsed := !(decide (ls.length = 5)), degraded := !wide, peerDev := dev, peerSlot := slot, peerPort := pport,
                           peerValid := true, credits := [], retries := 0, discarding := false, resyncWait := false }
      let s1 := setPort p po1 s
      reroute (if wide then s1 else logFault 0x202 1 (uPort p) none 0 0 s1)

/-- `VX_CMD` (R401). [DEDUCED, log entry 60] -/
def vxCmd (p : Nat) (v : Word32) (s : State) : Nat × State :=
  let op := fld v 31 28
  let po := port s p
  if fld v 27 0 ≠ 0 ∨ op = 0 ∨ 3 < op then (stRsvd, s)
  else if po.state = .training then (stBusy, s)
  else if op = 2 then (stOk, outOfService p s)
  else (stOk, setPort p { port (abortSweep p 1 s) p with state := .training, attempts := 0 } (abortSweep p 1 s))

/-- Degrade to the two healthy lanes with the widest eyes; a degraded port that loses another lane goes out of service (R385). -/
def degrade (p lane : Nat) (eyes : List Nat) (s : State) : State :=
  let po := port s p
  let bad := po.bad ||| BitVec.ofNat 5 (2 ^ lane)
  let ls := (byEye eyes ((List.range 5).filter fun l => !bad.getLsbD l)).take 2
  if po.degraded ∨ ls.length < 2 then outOfService p (logFault 0x201 2 (uPort p) none lane 0 (setPort p { po with bad := bad } s))
  else logFault 0x202 1 (uPort p) none lane 0 (setPort p { po with bad := bad, degraded := true, lanes := lanesMask ls } s)
/-- A failing data lane (R384, R385). -/
def laneFails (p lane : Nat) (eyes : List Nat) (s0 : State) : State :=
  if !portUp s0 p ∨ !(port s0 p).lanes.getLsbD lane then s0
  else
    let s := abortSweep p 4 s0
    let po := port s p
    if (reg s (vxBase p + 0x14)).getLsbD 0 && !po.spareUsed && !po.degraded && !po.bad.getLsbD po.spare then
      let lanes := (po.lanes &&& ~~~(BitVec.ofNat 5 (2 ^ lane))) ||| BitVec.ofNat 5 (2 ^ po.spare)
      let s1 := setPort p { po with lanes := lanes, spareUsed := true, bad := po.bad ||| BitVec.ofNat 5 (2 ^ lane) } s
      useSpare 8 (logFault 0x203 1 (uPort p) none lane 0 (sendCtl p 0x87 (BitVec.ofNat 40 (lane * 256 + (po.txSeq + 16).toNat)) [] s1))
    else degrade p lane eyes s
/-- The peer's LANE_SWAP (R384): this side switches too; where the spare serves another lane already, a second lane has failed.
[DESIGN CHOICE, log entry 55] -/
def swapArrives (p lane : Nat) (back : Bool) (eyes : List Nat) (s : State) : State :=
  let po := port s p
  if !portUp s p then s
  else if back then
    let l := (po.lanes &&& ~~~(BitVec.ofNat 5 (2 ^ po.spare))) ||| BitVec.ofNat 5 (2 ^ lane)
    if po.bad.getLsbD lane then s else setPort p { po with lanes := l, spareUsed := false } s
  else if !po.lanes.getLsbD lane then s
  else if po.spareUsed then degrade p lane eyes s
  else
    let l := (po.lanes &&& ~~~(BitVec.ofNat 5 (2 ^ lane))) ||| BitVec.ofNat 5 (2 ^ po.spare)
    setPort p { po with lanes := l, spareUsed := true } s

/-! ### Link power (15 R391 to R393) -/

/-- Held ACTIVE: an admitted reservation, a join, a sweep (R391). -/
def heldActive (s : State) (p : Nat) : Bool :=
  let po := port s p
  egressReserved s p || decide (po.join.state ≠ .non) || po.sweep.busy || po.sweep.forPeer
def standbyIdle (p : Nat) (s : State) : State :=
  let po := port s p
  if portUp s p && decide (po.pwr = .active) && fld (regAct s (vxBase p + 0x18)) 15 0 != 0 && !heldActive s p then
    setPort p { po with pwr := .standby } (abortSweep p 6 s)
  else s
/-- Ask the peer for LISTEN (R392). -/
def askSleep (p : Nat) (s : State) : State :=
  let po := port s p
  let want := decide (s.power.mode = .deepDoze) || s.power.entering || fld (regAct s (vxBase p + 0x18)) 31 16 != 0
  if portUp s p && decide (po.pwr ≠ .listen) && want && !heldActive s p && !po.sleepReq then
    sendCtl p 0x85 0 [] (setPort p { po with sleepReq := true } s)
  else s
def sleepAsked (p : Nat) (s : State) : State :=
  let po := port s p
  if !portUp s p ∨ po.pwr = .listen then s
  else if po.sleepReq then settleSleep p (setPort p { po with sleepAgreed := true } s)
  else if heldActive s p || !s.links.waiting.isEmpty then s
  else
    let s1 := sendCtl p 0x86 0 [] s
    setPort p { port s1 p with sleepAgreed := true } s1
def sleepAcked (p : Nat) (s : State) : State :=
  let po := port s p
  if portUp s p && po.sleepReq then settleSleep p (setPort p { po with sleepAgreed := true } s) else s
def wakeArrives (p : Nat) (s : State) : State :=
  if (port s p).pwr = .listen then reroute (latchWake wakeLink (retrained p s)) else s

/-! ### Eye sweeps (15 R394, R395) -/

def vxSweep (p : Nat) (v : Word32) (s : State) : Nat × State :=
  let op := fld v 31 28
  let lane := fld v 2 0
  let po := port s p
  if op = 1 ∧ po.state ≠ .up then (stFenced, s)
  else if fld v 27 3 ≠ 0 ∨ op = 0 ∨ 2 < op then (stRsvd, s)
  else if op = 2 then (stOk, abortSweep p 5 s)
  else if 4 < lane then (stRange, s)
  else if po.sweep.busy || (po.spareUsed && po.lanes.getLsbD lane) then (stBusy, s)
  else (stOk, sendCtl p 0x88 (BitVec.ofNat 40 lane) [] (setPort p { po with sweep := { busy := true, lane := lane, forPeer := po.sweep.forPeer } } s))
def sweepAsked (p lane : Nat) (s : State) : State :=
  if !portUp s p then s
  else if (reg s (vxBase p + 0x104)).getLsbD 0 && !((port s p).spareUsed && (port s p).lanes.getLsbD lane) then
    sendCtl p 0x89 1 [] (updPort p (fun x => { x with sweep := { x.sweep with forPeer := true } }) s)
  else sendCtl p 0x89 0 [] s
def sweepAnswered (p : Nat) (accept : Bool) (s : State) : State :=
  let po := port s p
  if !po.sweep.busy then s
  else if !accept then abortSweep p 2 s
  else if po.lanes.getLsbD po.sweep.lane then
    let l := (po.lanes &&& ~~~(BitVec.ofNat 5 (2 ^ po.sweep.lane))) ||| BitVec.ofNat 5 (2 ^ po.spare)
    sendCtl p 0x87 (BitVec.ofNat 40 (po.sweep.lane * 256 + (po.txSeq + 16).toNat)) []
      (setPort p { po with lanes := l, sweep := { po.sweep with swapped := true } } s)
  else s
def sweepEnded (p : Nat) (s : State) : State :=
  abortSweep p 7 (updPort p (fun x => { x with sweep := { x.sweep with forPeer := false } }) s)
def sweepDone (p : Nat) (r0 r1 r2 : Word32) (s : State) : State :=
  let po := port s p
  if !po.sweep.busy then s
  else
    let q := unswap po
    let s1 := setPort p { q with sweep := { q.sweep with busy := false, done := true, incomplete := false, reason := 0 } } s
    sendCtl p 0x8A 0 [] (setReg (vxBase p + 0x118) r2 (setReg (vxBase p + 0x114) r1 (setReg (vxBase p + 0x110) r0 s1)))

/-! ### System time (15 R396 to R400; 10 R268) -/

/-- System time in 1/256 ns. -/
def time256 (s : State) : Int := (s.time.now.toNat * 256 + s.time.frac.toNat / 2 ^ 24 : Nat)
def signed32 (v : Word32) : Int := v.toInt
def ofInt64 (i : Int) : Nat := (i % 2 ^ 64).toNat
def ofInt32 (i : Int) : Word32 := BitVec.ofInt 32 i
/-- 20 ns and 100 ns in 1/256 ns. -/
def ns20 : Int := 5120
def ns100 : Int := 25600
def absLe (x y : Int) : Bool := decide (x ≤ y ∧ -y ≤ x)

/-- [DESIGN CHOICE, log entry 61] -/
def setRate (r : Int) (s : State) : State := { s with time := { s.time with rate := r } }
def setServo (v : Servo) (s : State) : State := { s with links := { s.links with servo := v } }
/-- In LOCKED the rate is proportional to the offset, within 10 ppm; its gain is open (R398). [DESIGN CHOICE, log entry 61] -/
def lockedRate (th : Int) (s : State) : State :=
  let d := drawWord s
  let m : Int := (d.1.toNat % 10000001 : Nat)
  setRate (if th < 0 then -m else if th = 0 then 0 else m) d.2
/-- RESLEW: 1,000 ppm toward agreement. [DESIGN CHOICE, log entry 61] -/
def reslewRate (th : Int) (s : State) : State := setRate (if th < 0 then -1000000000 else 1000000000) s

/-- Steer by an offset measured on the parent port or from SYNC_IN (R398). [DESIGN CHOICE, log entry 61] -/
def steer (p : Nat) (th : Int) (s : State) : State :=
  let wide := !absLe th ns100
  let n := if wide then s.links.overs + 1 else 0
  let s1 : State := { s with links := { s.links with overs := n } }
  match s.links.servo with
  | .unsync =>
    if !s.time.started then
      let t := time256 s + th
      let t1 : Time := { s1.time with now := BitVec.ofInt 64 (t / 256), frac := BitVec.ofInt 32 (t % 256 * 2 ^ 24) }
      setRate 0 (setServo .locked { s1 with time := t1, links := { s1.links with overs := 0 } })
    else if absLe th ns20 then lockedRate th (setServo .locked s1)
    else reslewRate th s1
  | .reslew => if absLe th ns20 then lockedRate th (setServo .locked s1) else reslewRate th s1
  | .locked | .holdover =>
    if wide ∧ 2 ≤ n then logFault 0x205 5 uDevice none (ofInt64 th) p (reslewRate th (setServo .reslew s1))
    else lockedRate th (setServo .locked s1)

/-- A time response (R397, R398, R400). [DEDUCED, log entry 62] -/
def timeResp (p : Nat) (t2 t3 : Nat) (rootDev depth : Nat) (ofs : Int) (s : State) : State :=
  if !portUp s p then s
  else
    let t1 : Int := (port s p).t1
    let d1 : Int := (t2 : Int) - t1
    let d2 : Int := time256 s - (t3 : Int)
    let a : Int := signed32 (reg s (vxBase p + 0x204)) * 256 / 1000
    let th := (d1 - d2 - a) / 2
    let off := decide ((port s p).join.state = .coherent) && !absLe th ns100
    let s0 := updPort p (fun x => { x with timeOff := !absLe th ns20 && (x.timeOff || off) }) s
    let s1 := setReg (vxBase p + 0x20C) (ofInt32 ((d1 + d2) / 2)) (setReg (vxBase p + 0x208) (ofInt32 th) s0)
    if parentOf s = some p then
      let lk := { s1.links with depth := depth + 1, rootDev := rootDev, parentPort := p, offset := ofs - th / 256 }
      let s2 := { s1 with links := lk }
      if 14 < depth then
        if s.links.servo = .holdover then s2 else logFault 0x206 5 uDevice none (ofInt64 th) p (setServo .holdover s2)
      else
        let s3 := steer p th s2
        if s3.links.tempParent = some p ∧ absLe th ns20 then { s3 with links := { s3.links with tempParent := none } } else s3
    else if rootDev ≠ timeRootDev s then logFault 0x208 5 uDevice none (ofInt64 th) p s1
    else
      let n := if absLe th ns100 then 0 else (port s p).disagree + 1
      let s2 := updPort p (fun x => { x with disagree := if n = 3 then 0 else n }) s1
      if n = 3 then
        let s3 := logFault 0x207 5 uDevice none (ofInt64 th) p s2
        let follow := decide (depth < timeDepth s) || (depth == timeDepth s && decide ((port s p).peerDev < devNum s))
        if (port s p).join.state = .coherent ∧ follow then
          logFault 0x205 5 uDevice none (ofInt64 th) p (reslewRate th { s3 with links := { s3.links with tempParent := some p, servo := .reslew } })
        else s3
      else s2

/-- CONTAIN whose only cause is REFCLK ends once a clock is back and the servo is LOCKED (20 R497). -/
def clockCleared (s : State) : State :=
  if s.resil.contain = 8 ∧ s.power.refPresent ≠ 0 ∧ s.links.servo = .locked then noteMode s { s with resil := { s.resil with contain := 0 } } else s

/-- A time request is answered with t2, t3, ROOTDEV, DEPTH and the own offset (R379). -/
def timeAsked (p : Nat) (s : State) : State :=
  if !portUp s p then s
  else
    let t := ofInt64 (time256 s)
    sendCtl p 0x82 0 [BitVec.ofNat 128 (t * 2 ^ 64 + t), BitVec.ofNat 128 (timeRootDev s + timeDepth s * 2 ^ 16 + ofInt64 (timeOffset s) * 2 ^ 64)] s
def timeAsk (p : Nat) (s : State) : State :=
  if portUp s p ∧ (port s p).pwr ≠ .listen then
    sendCtl p 0x81 0 [] (updPort p (fun x => { x with t1 := (time256 s).toNat }) s)
  else s
def timeStat (s : State) : Nat :=
  (match s.links.servo with | .unsync => 0 | .locked => 1 | .reslew => 2 | .holdover => 3) * 2 ^ 28 + timeDepth s % 16 * 2 ^ 24 +
    s.links.parentPort * 2 ^ 16 + timeRootDev s

/-! ### Joins (10 R264 to R269) -/

/-- [DESIGN CHOICE, log entry 4] -/
def sysId : Nat := 0x00400000
/-- Items of the table *Hashed configuration* (R264): the interleave of the running sectors, the periods, the ceiling, the buffer
reservations, the table version. [DESIGN CHOICE, log entry 19] -/
def hashedConfig (s : State) : List Nat :=
  ((List.range 8).map fun j => fld (reg s (hmcSecOff 0 j)) 0 0) ++ ((List.range 8).map fun i => (regAct s (0x800000 + 4 * i)).toNat) ++
    [(regAct s 0x800020).toNat, (regAct s 0x800060).toNat, (reg s 0x8000004).toNat]
def flagsByte (s : State) : Nat :=
  s.ctl.inFlight.toNat + 2 * s.live.roll.isSome.toNat + 4 * (decide (sysMode s = 4)).toNat
/-- The join digest of this device (R264). [DESIGN CHOICE, log entry 19] -/
def joinDigest (s : State) : List Byte :=
  [BitVec.ofNat 8 (slotOf s), BitVec.ofNat 8 (sysId % 256)] ++ bytesOfNat (sysId / 2 ^ 20) 2 ++
    ((List.range 6).map fun k => bytesOf (mainVer s k) 4).foldr (· ++ ·) [] ++ bytesOfNat s.ctl.epoch 2 ++
    [BitVec.ofNat 8 (flagsByte s), 0] ++ bytesOfNat (ofInt64 (timeOffset s)) 4 ++ bytesOfNat 0 4 ++ (Config.cfgHash (hashedConfig s) ++ List.replicate 24 0).take 24
def dig (d : List Byte) (hi lo : Nat) : List Byte := (d.drop lo).take (hi + 1 - lo)
def digNat (d : List Byte) (hi lo : Nat) : Nat := natOfBytes (dig d hi lo)
/-- The first applicable refusal reason, own values against the peer's digest (R265): TIME also while a disagreement of R268 lasts,
NODE_FULL also for a third port of one pair (R262). [DESIGN CHOICE, log entry 96] -/
def joinReason (s : State) (own peer : List Byte) : Nat :=
  let n (x : List Byte) (hi lo : Nat) := digNat x hi lo
  let off (x : List Byte) : Int := (BitVec.ofNat 32 (n x 35 32)).toInt
  let bit (x : List Byte) (i : Nat) : Bool := (n x 30 30).testBit i
  if n own 0 0 = n peer 0 0 then 1
  else if dig own 3 1 ≠ dig peer 3 1 then 2
  else if !bit own 2 || !bit peer 2 || bit own 1 || bit peer 1 then 3
  else if dig own 27 4 ≠ dig peer 27 4 then 4
  else if dig own 63 40 ≠ dig peer 63 40 then 5
  else if n own 29 28 ≠ n peer 29 28 ∨ bit own 0 ∨ bit peer 0 then 6
  else if !absLe (off own - off peer) 20 ∨ ((List.range 8).any fun p => (port s p).timeOff) then 7
  else if 3 < countOnes (s.links.peers ||| BitVec.ofNat 4 (2 ^ n peer 0 0)) 4 ∨ 2 ≤ (joinedWith s (n peer 0 0)).length then 8
  else if n peer 31 31 ≠ 0 ∨ n peer 39 36 ≠ 0 ∨ 8 ≤ n peer 30 30 ∨ 3 < n peer 0 0 then 10
  else 0

/-- Both verdicts decide (R266): coherent, or refused with a reason. [DEDUCED, log entry 62] -/
def joinEnds (p reason : Nat) (s : State) : State :=
  let j := (port s p).join
  let done := { j with ownVerdict := none, peerVerdict := none, fresh := false }
  if reason = 0 then
    let s1 := updPort p (fun x => { x with join := { done with state := .coherent, tries := 0 } }) s
    { s1 with links := { s1.links with peers := s1.links.peers ||| BitVec.ofNat 4 (2 ^ j.peerSlot) } }
  else updPort p (fun x => { x with join := { done with state := .non, reason := reason, tries := min 65535 (j.tries + 1) } }) s
/-- [DEDUCED, log entry 62] -/
def joinDecide (p : Nat) (s : State) : State :=
  let j := (port s p).join
  if j.state ≠ .joining then s
  else match j.ownVerdict, j.peerVerdict with
    | some 0, some r => joinEnds p r s
    | some 0, none => s
    | some r, _ => joinEnds p r s
    | none, _ => s
/-- Check the peer's digest and send the verdict. -/
def joinCheck (p : Nat) (s : State) : State :=
  let j := (port s p).join
  if j.state = .joining ∧ j.fresh ∧ j.ownVerdict.isNone then
    let r := joinReason s j.ownDig j.peerDig
    joinDecide p (sendCtl p 0x84 (BitVec.ofNat 40 r) [] (updPort p (fun x => { x with join := { x.join with ownVerdict := some r } }) s))
  else s
/-- `VX_COH_CMD` (R271). -/
def vxCohCmd (p : Nat) (v : Word32) (s : State) : Nat × State :=
  let op := fld v 3 0
  let po := port s p
  if po.state = .out then (stFenced, s)
  else if fld v 31 4 ≠ 0 ∨ op = 0 ∨ 2 < op then (stRsvd, s)
  else if po.join.state = .joining ∨ po.join.state = .fenced then (stBusy, s)
  else if op = 1 then
    if po.join.state = .coherent then (stOk, s)
    else
      let d := joinDigest s
      let j := { po.join with state := .joining, ownDig := d, ownVerdict := none, peerVerdict := none }
      let chunks := (List.range 4).map fun i => BitVec.ofNat 128 (natOfBytes ((d.drop (16 * i)).take 16))
      (stOk, joinCheck p (sendCtl p 0x83 0 chunks (setPort p { po with join := j } s)))
  else if po.join.state = .non then (stOk, s)
  else (stOk, splitPair p 0 false s)
def digestArrives (p : Nat) (d : List Byte) (s : State) : State :=
  if portUp s p then
    joinCheck p (updPort p (fun x => { x with join := { x.join with peerDig := d, peerValid := true, fresh := true, peerSlot := digNat d 0 0 % 4 } }) s)
  else s
/-- [DEDUCED, log entry 62] -/
def verdictArrives (p reason : Nat) (s : State) : State :=
  if portUp s p ∧ (port s p).join.state = .joining then
    joinDecide p (updPort p (fun x => { x with join := { x.join with peerVerdict := some reason } }) s)
  else s
def joinLate (p : Nat) (s : State) : State :=
  if (port s p).join.state = .joining then joinEnds p 9 s else s

/-- The split finishes (R269 steps 3 to 5). `back` are the return writes of the peer: taken for lines its device is recorded
for. Lines it still owns are written poisoned; its bits leave every device vector; copies of its memory are dropped here, what is newer
than its memory sent back first.
[DEDUCED, log entry 63] -/
def splitDone (p : Nat) (back : List (Nat × Vec)) (s : State) : State :=
  let slot := (port s p).join.peerSlot
  if (port s p).join.state ≠ .fenced then s
  else
    let bit := BitVec.ofNat 4 (2 ^ slot)
    let ofPeer (line : Nat) : Bool := match placeOf (64 * line) with | some q => q.slot == slot | none => false
    let s1 := back.foldl (fun a e =>
      let h := homeOf a e.1
      let d := dirOf a h e.1
      if (d.devs &&& bit) != 0 || d.owner == some (devOwner slot) then
        setDir h e.1 (if d.owner = some (devOwner slot) then none else d.owner) d.sharers d.devs (setPoison e.1 false (writeBytes (64 * e.1) (bytesOf e.2 64) a))
      else a) s
    let fix (n : Nat) (a : State) : State :=
      (slice a n).dir.foldl (fun b e => match e.2 with
        | some d =>
          if d.proxy && ofPeer d.line then putDir n e.1 none b
          else
            let x : DirEntry := { d with owner := if d.owner = some (devOwner slot) then none else d.owner, devs := d.devs &&& ~~~bit }
            putDir n e.1 (if x.owner.isNone && x.sharers == 0 && x.devs == 0 then none else some x)
              (if d.owner = some (devOwner slot) then poisonLine d.line b else b)
        | none => b) a
    let s2 := (List.range 256).foldl (fun a n => fix n a) s1
    let keep (e : Nat × Option L2Line) : Bool := match e.2 with | some l => !ofPeer l.line | none => true
    let dirty : List CohMsg := (s2.mem.priv.map fun e => e.2.l2.filterMap fun x => match x.2 with
      | some l => if ofPeer l.line ∧ (l.st = .m ∨ l.st = .o) then
          some { slot := slot, kind := .req .wb, line := l.line, tc := 2, data := some (l.stale.getD (readLine s l.line)) } else none
      | none => none).foldl (· ++ ·) []
    let s3 : State := { s2 with links := { s2.links with returns := s2.links.returns ++ dirty }, mem := { s2.mem with priv := s2.mem.priv.map fun e =>
      (e.1, { e.2 with l1i := e.2.l1i.filter keep, l1d := e.2.l1d.filter keep, l2 := e.2.l2.filter keep }) } }
    ((List.range 8).filter fun q => decide ((port s q).join.state = .fenced) && (port s q).join.peerSlot == slot).foldl
      (fun a q => updPort q (fun x => { x with join := { x.join with state := .non } }) a) s3

def cohCode : CohState → Nat
  | .non => 0
  | .joining => 1
  | .coherent => 2
  | .fenced => 3
def cohStat (s : State) (p : Nat) : Nat :=
  let j := (port s p).join
  j.tries * 2 ^ 16 + j.reason * 2 ^ 8 + j.peerValid.toNat * 2 ^ 6 + j.peerSlot * 2 ^ 4 + cohCode j.state
def portCode : PortState → Nat
  | .down => 0
  | .training => 1
  | .up => 2
  | .out => 3
/-- `VX_STAT` (R401). -/
def vxStat (s : State) (p : Nat) : Nat :=
  let po := port s p
  portCode po.state * 2 ^ 30 + (match po.pwr with | .active => 0 | .standby => 1 | .listen => 2) * 2 ^ 28 + po.degraded.toNat * 2 ^ 27 +
    po.spareUsed.toNat * 2 ^ 26 + po.spare * 2 ^ 20 + po.lanes.toNat * 2 ^ 8
def vxPeer (s : State) (p : Nat) : Nat :=
  let po := port s p
  if po.peerValid then po.peerDev * 2 ^ 16 + po.peerSlot * 2 ^ 14 + po.peerPort * 2 ^ 8 + 1 else 0
def sweepStat (s : State) (p : Nat) : Nat :=
  let w := (port s p).sweep
  w.busy.toNat * 2 ^ 31 + w.done.toNat * 2 ^ 30 + w.incomplete.toNat * 2 ^ 29 + w.reason * 2 ^ 24 + w.lane

/-! ### Commands -/

def execFrameReceive (p : Fin 8) (fseq aseq : BitVec 8) (akind : BitVec 2) (coh good : Bool) (slots : Nat) (retrainOk : Bool) (s : State) : Out :=
  .next (frameArrives p.val fseq aseq akind coh good slots retrainOk s)
def execLetter (p : Fin 8) (m : Msg) (s : State) : Out := .next (arrive p.val m 1 letterHere s)
def execLetterAck (p : Fin 8) (m : Msg) (s : State) : Out := .next (arrive p.val m 2 letterAcked s)
def execLetterNak (p : Fin 8) (m : Msg) (s : State) : Out := .next (arrive p.val m 3 (fun m s => letterNaked m m.src.toNat s) s)
def execCommand (p : Fin 8) (m : Msg) (s : State) : Out := .next (arrive p.val m 4 serveCommand s)
def execCmdResp (p : Fin 8) (m : Msg) (s : State) : Out := .next (arrive p.val m 5 takeResponse s)
def execCmdData (p : Fin 8) (m : Msg) (s : State) : Out := .next (arrive p.val m 6 serveData s)
def execCmdRdata (p : Fin 8) (m : Msg) (s : State) : Out := .next (arrive p.val m 7 takeReadData s)
def execResync (p : Fin 8) (m : Msg) (s : State) : Out := .next (arrive p.val m 8 resyncHere s)
/-- [DESIGN CHOICE, log entry 7] -/
def execResyncTimeout (p : Fin 8) (s : State) : Out := .next (resyncLate p.val s)
/-- Returned credits (R380): a channel never holds more than it was granted. -/
def execCredit (p : Fin 8) (vc : Fin 10) (n : Nat) (s : State) : Out :=
  if portUp s p.val then
    .next (reroute (updPort p.val (fun x => setCredits x vc.val (min (creditInit vc.val) (creditsOf x vc.val + n))) s))
  else .next s
/-- ESCWAIT has passed for a waiting message (R387). -/
def execEscapeWaitExpiry (n : Nat) (s : State) : Out :=
  match s.links.waiting[n]? with
  | some e => .next (forwardMsg true e.1 e.2 { s with links := { s.links with waiting := s.links.waiting.eraseIdx n } })
  | none => .next s
/-- [DEDUCED, log entry 60] -/
def execCaps (p : Fin 8) (stepsOk : Bool) (usable : BitVec 5) (eyes : List Nat) (dev : BitVec 16) (peerSlot : BitVec 2) (peerPort : BitVec 3)
    (major : BitVec 8) (s : State) : Out :=
  .next (capsArrive p.val stepsOk usable eyes dev.toNat peerSlot.toNat peerPort.toNat major.toNat s)
def execLaneFailure (p : Fin 8) (lane : Fin 5) (eyes : List Nat) (s : State) : Out := .next (laneFails p.val lane.val eyes s)
def execLaneSwap (p : Fin 8) (lane : Fin 5) (back : Bool) (eyes : List Nat) (s : State) : Out := .next (swapArrives p.val lane.val back eyes s)
/-- A spare that fails its recheck can no longer take a lane (R384). -/
def execSpareLaneCheck (p : Fin 8) (ok : Bool) (s : State) : Out :=
  if ok || (port s p.val).spareUsed || !portUp s p.val then .next s
  else .next (updPort p.val (fun x => { x with bad := x.bad ||| BitVec.ofNat 5 (2 ^ x.spare) }) s)
/-- The daily re-tune of a lane; one whose eye fails stays on the spare (21 R523). -/
def execLaneRetune (p : Fin 8) (lane : Fin 5) (ok : Bool) (s : State) : Out :=
  if (port s p.val).spareUsed || (port s p.val).sweep.busy || ok then .next s else .next (laneFails p.val lane.val [] s)
def execStandbyIdleExpiry (p : Fin 8) (s : State) : Out := .next (standbyIdle p.val s)
def execListenIdleExpiry (p : Fin 8) (s : State) : Out := .next (askSleep p.val s)
def execSleepReq (p : Fin 8) (s : State) : Out := .next (sleepAsked p.val s)
/-- [DESIGN CHOICE, log entry 6] -/
def execSleepAck (p : Fin 8) (s : State) : Out := .next (sleepAcked p.val s)
def execSleepReqLapse (p : Fin 8) (s : State) : Out := .next (updPort p.val (fun x => { x with sleepReq := x.sleepReq && x.sleepAgreed }) s)
def execWakeOrderedSet (p : Fin 8) (s : State) : Out := .next (wakeArrives p.val s)
def execSweepReq (p : Fin 8) (lane : Fin 5) (s : State) : Out := .next (sweepAsked p.val lane.val s)
def execSweepAck (p : Fin 8) (accept : Bool) (s : State) : Out := .next (sweepAnswered p.val accept s)
def execSweepEnd (p : Fin 8) (s : State) : Out := .next (sweepEnded p.val s)
def execSweepComplete (p : Fin 8) (r0 r1 r2 : Word32) (s : State) : Out := .next (sweepDone p.val r0 r1 r2 s)
def execSweepPartnerSilent (p : Fin 8) (s : State) : Out := .next (abortSweep p.val 3 s)
def execTimeExchangeInterval (p : Fin 8) (s : State) : Out := .next (timeAsk p.val s)
def execTimeReq (p : Fin 8) (s : State) : Out := .next (timeAsked p.val s)
def execTimeResp (p : Fin 8) (t2 t3 : Nat) (rootDev : BitVec 16) (depth : Nat) (ofs : Int) (s : State) : Out :=
  .next (clockCleared (timeResp p.val t2 t3 rootDev.toNat depth ofs s))
def execJoinDigest (p : Fin 8) (dig : List Byte) (s : State) : Out := .next (digestArrives p.val dig s)
def execJoinVerdict (p : Fin 8) (reason : Fin 11) (s : State) : Out := .next (verdictArrives p.val reason.val s)
def execJoinTimeout (p : Fin 8) (s : State) : Out := .next (joinLate p.val s)
def execSplitComplete (p : Fin 8) (back : List (Nat × Vec)) (s : State) : Out := .next (splitDone p.val back s)

end Sys2Proof.Machine
end

