-- ==== Sys2Proof/Machine/Node.lean ====
section
/-! DEFINITION. The coherence commands of homes and L2s (10 R250 to R261), those of other devices of the coherent node among them
(10 R263; 15 R378). -/

namespace Sys2Proof.Machine

/-- A coherent kind from the device in a slot: taken while the pair is joined; on a port held non-coherent it splits the pair
(15 R378, 10 R269). -/
def fromPeer (r : Requester) (f : State → State) (s : State) : State :=
  match r with
  | .dev e =>
    if s.links.peers.getLsbD e then f s
    else match (List.range 8).find? fun p => portUp s p && (port s p).peerValid && (port s p).peerSlot == e with
      | some p => splitPair p 1 true s
      | none => s
  | _ => f s
/-- The number from 600 on that names the device of a slot, as a requester. -/
def peerOf (pc : Nat) : Requester := if 600 ≤ pc then .dev (pc - 600) else .l2 pc

/-- The coherent messages a command left for other devices go out as credits allow. -/
def nodeDone (s : State) : Out := .next (sendCoh s)

def execRs (r : Asker) (line : Nat) (s : State) : Out := nodeDone (fromPeer r.who (cachingReq .rs r.who line r.tc) s)
def execRu (r : Asker) (line : Nat) (s : State) : Out := nodeDone (fromPeer r.who (cachingReq .ru r.who line r.tc) s)
def execUpg (r : Asker) (line : Nat) (s : State) : Out := nodeDone (fromPeer r.who (cachingReq .upg r.who line r.tc) s)
def execRnc (r : Asker) (line : Nat) (s : State) : Out := nodeDone (fromPeer r.who (plainReq .rnc r.who line { tc := r.tc }) s)
def execFw (r : Asker) (line : Nat) (v : Vec) (s : State) : Out :=
  nodeDone (fromPeer r.who (plainReq .fw r.who line { bytes := bytesOf v 64, tc := r.tc }) s)
def execPw (r : Asker) (line : Nat) (off : Fin 64) (bytes : List Byte) (s : State) : Out :=
  nodeDone (fromPeer r.who (plainReq .pw r.who line { off := off.val, bytes := bytes, tc := r.tc }) s)
def execFamo (r : Asker) (line : Nat) (off : Fin 64) (op : Fin 10) (wide : Bool) (gs gt : Word64) (s : State) : Out :=
  nodeDone (fromPeer r.who (plainReq .famo r.who line { off := off.val, op := op.val, wide := wide, gs := gs, gt := gt, tc := r.tc }) s)
def execCmoc (line : Nat) (s : State) : Out := nodeDone (plainReq .cmoc .agent line {} s)
def execCmoi (line : Nat) (s : State) : Out := nodeDone (plainReq .cmoi .agent line {} s)
def execSnoopAnswer (pc line : Nat) (s : State) : Out := nodeDone (answerArrives pc line s)
def execWb (pc line : Nat) (s : State) : Out := nodeDone (fromPeer (peerOf pc) (evictReq .wb pc line) s)
def execEvc (pc line : Nat) (s : State) : Out := nodeDone (fromPeer (peerOf pc) (evictReq .evc pc line) s)
def execSnpshared (pc line : Nat) (s : State) : Out := nodeDone (deliverSnoop .shared pc line s)
def execSnpunique (pc line : Nat) (s : State) : Out := nodeDone (deliverSnoop .unique pc line s)
def execSnpinv (pc line : Nat) (s : State) : Out := nodeDone (deliverSnoop .inv pc line s)
def execSnpread (pc line : Nat) (s : State) : Out := nodeDone (deliverSnoop .read pc line s)
def execSnpclean (pc line : Nat) (s : State) : Out := nodeDone (deliverSnoop .clean pc line s)
/-- [DESIGN CHOICE, log entry 6] -/
def execGrant (pc line : Nat) (s : State) : Out := nodeDone (grantArrives pc line s)
def execEvictionAck (pc line : Nat) (s : State) : Out := nodeDone (evictAcked pc line s)
/-- [DESIGN CHOICE, log entry 7] -/
def execSnoopTimeout (line : Nat) (s : State) : Out := nodeDone (snoopLate line s)
def execL3CommandComplete (n : Fin 256) (s : State) : Out := .next (l3CmdDone n.val s)

end Sys2Proof.Machine
end

