-- ==== Sys2Proof/Machine/Pcie.lean ====
section
/-! DEFINITION. The PCI Express root ports and the IOTU (16): sub-ports, DMA translation, message-signalled interrupts, page requests,
invalidation, containment and hot-plug. -/

namespace Sys2Proof.Machine

def subDef (_ : Nat) : SubPort := {}
def subOf (s : State) (j : Nat) : SubPort := smGet subDef s.pcie.subs j
def setSub (j : Nat) (x : SubPort) (s : State) : State := { s with pcie := { s.pcie with subs := smPut subDef s.pcie.subs j x } }
def updSub (j : Nat) (f : SubPort → SubPort) (s : State) : State := setSub j (f (subOf s j)) s
def pcieReg (o : Nat) : Nat := 0x4800000 + o
def peRunning (s : State) (n : Nat) : Bool := s.pcie.running.getLsbD n
def sendPcie (x : PcieOut) (s : State) : State := { s with pcie := { s.pcie with sent := s.pcie.sent ++ [x] } }

/-- The sub-ports of a bifurcation (R403). -/
def bifSubs (code : Nat) : List Nat :=
  match code with
  | 0 => [0]
  | 1 => [0, 2]
  | 2 => [0, 2, 3]
  | 3 => [0, 1, 2]
  | 4 => [0, 1, 2, 3]
  | _ => []
def subExists (s : State) (j : Nat) : Bool := (bifSubs (rfld s (pcieReg (0x10 + 4 * (j / 4))) 2 0)).contains (j % 4)
def subsOf (s : State) (n : Nat) : List Nat := (bifSubs (rfld s (pcieReg (0x10 + 4 * n)) 2 0)).map fun k => 4 * n + k
/-- Do requests pass at sub-port `j`: its port running, its link up, not contained? -/
def subLive (s : State) (j : Nat) : Bool := !islandSilent s (uPcie (j / 4)) && peRunning s (j / 4) && subExists s j && (subOf s j).linkUp && !(subOf s j).dpc

/-- The wired source of an event of a sub-port (R413). -/
def subEvent (j e : Nat) (s : State) : State := pulse (96 + 4 * j + e) s
def evHotplug : Nat := 0
def evAer : Nat := 1
def evDpc : Nat := 2

/-! ### Configuration space and bridge windows (R406) -/

def cfgBase : Nat := 0x1FFF0000000
/-- [PRESUMED, log entry 64] -/
def cfgByte (s : State) (j r : Nat) : Nat := (smGet byteDef s.pcie.cfg (4096 * j + r)).toNat
def cfgNat (s : State) (j r n : Nat) : Nat := natOfBytes ((List.range n).map fun i => smGet byteDef s.pcie.cfg (4096 * j + r + i))
/-- Does the memory range of the type-1 header of sub-port `j` hold a bus address: the 32-bit window at 0x20, or the 64-bit one at
0x24 to 0x2C? [PRESUMED, log entry 64] -/
def bridgeHolds (s : State) (j bus : Nat) : Bool :=
  let lo := cfgNat s j 0x20 2 / 16 * 2 ^ 20
  let hi := cfgNat s j 0x22 2 / 16 * 2 ^ 20 + 0xFFFFF
  let plo := cfgNat s j 0x24 2 / 16 * 2 ^ 20 + cfgNat s j 0x28 4 * 2 ^ 32
  let phi := cfgNat s j 0x26 2 / 16 * 2 ^ 20 + 0xFFFFF + cfgNat s j 0x2C 4 * 2 ^ 32
  decide ((lo ≤ bus ∧ bus ≤ hi ∧ hi ≠ 0xFFFFF) ∨ (plo ≤ bus ∧ bus ≤ phi ∧ phi ≠ 0xFFFFF))
/-- Where an access at an offset of the slot's window goes: a register of a sub-port's own function, a sub-port, or nowhere. -/
inductive PcieDest
  | own (j r : Nat)
  | below (j : Nat)
  | nowhere
deriving DecidableEq, Repr
/-- [PRESUMED, log entry 64] -/
def pcieDest (s : State) (off : Nat) : PcieDest :=
  if cfgBase ≤ off then
    let bus := natBits off 27 20
    let dev := natBits off 19 15
    if bus = 0 then
      if dev < 12 ∧ natBits off 14 12 = 0 ∧ subExists s dev ∧ peRunning s (dev / 4) then .own dev (off % 4096) else .nowhere
    else match (List.range 12).find? fun j => subExists s j && decide (cfgByte s j 0x19 ≤ bus ∧ bus ≤ cfgByte s j 0x1A ∧ cfgByte s j 0x19 ≠ 0) with
      | some j => .below j
      | none => .nowhere
  else match (List.range 12).find? fun j => subExists s j && bridgeHolds s j off with
    | some j => .below j
    | none => .nowhere

/-- Software's release of DPC: a one written to the trigger status, here in the register at 0x108 (R414). [PRESUMED, log entry 64] -/
def dpcStatusReg : Nat := 0x108
/-- A core's store to PCIe MMIO (R406, R407): to a sub-port's own function, sent below, or discarded. -/
def pcieStore (off : Nat) (bs : List Byte) (s : State) : State :=
  match pcieDest s off with
  | .own j r =>
    let s1 : State := { s with pcie := { s.pcie with cfg := putBytes bs (4096 * j + r) s.pcie.cfg } }
    if r = dpcStatusReg ∧ (bs.getD 0 0).getLsbD 0 then updSub j (fun x => { x with dpc := false, linkUp := x.present }) s1 else s1
  | .below j => if subLive s j then sendPcie (.store off bs) s else subEvent j evAer s
  | .nowhere => s
/-- What a core's load from PCIe MMIO answers at once: none where the answer is a completion from below (R407). -/
def pcieLoad (off n : Nat) (s : State) : Option Nat × State :=
  match pcieDest s off with
  | .own j r => (some (cfgNat s j r n), s)
  | .below j => if subLive s j then (none, s) else (some (2 ^ (8 * n) - 1), subEvent j evAer s)
  | .nowhere => (some (2 ^ (8 * n) - 1), s)

/-! ### Contexts and letters (R408, R411) -/

/-- What refuses a request: a KIND and a REASON of the table *IOTU letter*. -/
structure IoFault where
  kind : Nat
  reason : Nat := 0
deriving DecidableEq, Repr

/-- The 64 bytes of an IOTU letter. [DEDUCED, log entry 65] -/
def iotuLetter (s : State) (kind reason rid j access prgi iova : Nat) : Vec :=
  vecOfBytes (bytesOfNat (kind * 2 ^ 56 + 2 ^ 52) 8 ++ bytesOfNat kind 1 ++ bytesOfNat reason 1 ++ bytesOfNat rid 2 ++ bytesOfNat j 1 ++
    bytesOfNat access 1 ++ bytesOfNat prgi 2 ++ bytesOfNat iova 8 ++ bytesOfNat (nowNs s) 8)
/-- Post an IOTU letter to queue `q` in class `tc`. -/
def postIotu (n q tc : Nat) (v : Vec) (s : State) : State :=
  let dest := BitVec.ofNat 32 (devNum s * 2 ^ 16 + q)
  let v1 := putFld (putFld v 31 0 dest.toNat) 51 32 (tc * 2 ^ 16 + devNum s)
  let k := 131072 + n
  serveSender false k dest (setSender k (sendersOf s k ++
    [{ dest := dest, letter := { data := v1, postmark := s.time.now }, released := true, tc := BitVec.ofNat 2 tc }]) s)
def ioAccess (op : DmaOp) : Nat := match op with | .read _ => 1 | .write _ => 2 | .atomic .. => 3 | .unsupported => 0
/-- A letter for the fault queue: posted where that queue is enabled, counted always. -/
def toFaultQueue (n tc : Nat) (v : Vec) (s : State) : State :=
  let s1 := bump (pcieReg 0x220) s
  if (reg s (pcieReg 0x110)).getLsbD 31 then postIotu n (rfld s (pcieReg 0x110) 15 0) tc v s1 else s1
/-- [DEDUCED, log entry 65] -/
def ioFault (j rid tc : Nat) (f : IoFault) (access prgi iova : Nat) (s : State) : State :=
  toFaultQueue (j / 4) tc (iotuLetter s f.kind f.reason rid j access prgi iova) s

/-- Is a device-table entry well formed (R408)? -/
def ctxOk (s : State) (b : List Byte) : Bool :=
  let w (hi lo : Nat) : Nat := natOfBytes (dig b hi lo)
  decide (w 0 0 / 64 = 0 ∧ w 1 1 = 0 ∧ w 7 4 / 2 ^ 29 = 0 ∧ natBits (w 7 4) 15 13 = 0 ∧ natBits (w 7 4) 28 16 ≤ 7936 ∧
    w 15 8 % 4096 = 0 ∧ w 15 8 < 2 ^ 52 ∧ w 31 18 = 0) && tableOk s (w 15 8)
def ctxOfBytes (rid j : Nat) (b : List Byte) : DevCtx :=
  let w (hi lo : Nat) : Nat := natOfBytes (dig b hi lo)
  { rid := rid, sub := j, ats := (b.getD 0 0).getLsbD 1, pri := (b.getD 0 0).getLsbD 2, p2p := (b.getD 0 0).getLsbD 3,
    tc := natBits (w 0 0) 5 4, tag := w 3 2, msiBase := natBits (w 7 4) 12 0, msiCount := natBits (w 7 4) 28 16, root := w 15 8,
    priq := w 17 16 }
/-- The context of a requester: cached, or read from the device table; none where V = 0 or the entry is malformed. -/
def findCtx (rid j : Nat) (s : State) : Except IoFault DevCtx × State :=
  match s.pcie.ctxs.find? fun c => c.rid == rid with
  | some c =>
    let c1 := { c with sub := j }
    (.ok c1, { s with pcie := { s.pcie with ctxs := c1 :: s.pcie.ctxs.erase c } })
  | none =>
    let at_ := reg64 s (pcieReg 0x100) + 32 * rid
    if !tableOk s at_ then (.error { kind := 2, reason := 4 }, s)
    else if !decide (ownerCode s at_ = 0 ∨ ownerCode s at_ = 2) then (.error { kind := 4 }, s)
    else
      let r := agentRead 1 at_ 32 s
      if r.2.1 then (.error { kind := 2, reason := 5 }, r.2.2)
      else if !(r.1.getD 0 0).getLsbD 0 then (.error { kind := 2, reason := 2 }, r.2.2)
      else if !ctxOk r.2.2 r.1 then (.error { kind := 2, reason := 3 }, r.2.2)
      else
        let c := ctxOfBytes rid j r.1
        (.ok c, { r.2.2 with pcie := { r.2.2.pcie with ctxs := c :: r.2.2.pcie.ctxs } })

/-! ### Translation (R409, R225) -/

def ioslotsDef (_ : Nat) : List IoSlot := []
def ioptrsDef (_ : Nat) : List IoPtr := []
def ioslots (s : State) (n : Nat) : List IoSlot := smGet ioslotsDef s.pcie.iotlb n
def setIoslots (n : Nat) (xs : List IoSlot) (s : State) : State := { s with pcie := { s.pcie with iotlb := smPut ioslotsDef s.pcie.iotlb n xs } }
def ioptrs (s : State) (n : Nat) : List IoPtr := smGet ioptrsDef s.pcie.ioptr n

/-- The slot that a leaf makes; the contiguity hint as on a core (08 R206, R207). -/
def ioMake (s : State) (tag iova ea : Nat) (e : Word64) (tier : Nat) : IoSlot :=
  let sz := leafSize tier
  let base : IoSlot := { iova := iova / sz * sz, size := sz, tag := tag, pa := eAddr e, rd := e.getLsbD 1, wr := e.getLsbD 2,
                         a := e.getLsbD 6, d := e.getLsbD 7, leafs := [(ea, e)] }
  if e.getLsbD 8 then
    let eas := (List.range 16).map fun i => ea / 128 * 128 + 8 * i
    let es := eas.map fun a => BitVec.ofNat 64 (readNat s a 8)
    if eas.all (fun a => a == ea || !readsPoison s (lineOf a)) && contiguous s es tier then
      { base with iova := iova / (16 * sz) * (16 * sz), size := 16 * sz, pa := eAddr (es.getD 0 0),
                  a := es.all (fun x => x.getLsbD 6), d := es.all (fun x => x.getLsbD 7), leafs := eas.zip es }
    else base
  else base

/-- The walk of 08 R203 for an IOVA, from one tier down. -/
def ioWalk (s : State) (n tag iova : Nat) (tier t : Nat) (ptrs : List IoPtr) : Except IoFault (IoSlot × List IoPtr) :=
  let ea := t + iova / leafSize tier % 512 * 8
  let next (p : Nat) (ps : List IoPtr) : Except IoFault (IoSlot × List IoPtr) :=
    match tier with
    | 0 => .error { kind := 2, reason := 3 }
    | k + 1 => ioWalk s n tag iova k p ps
  match (if tier = 0 then none else (ioptrs s n).find? fun w => decide (w.tag = tag ∧ w.tier = tier ∧ w.entryAddr = ea)) with
  | some w => next w.table ptrs
  | none =>
    if !decide (ownerCode s t = 0 ∨ ownerCode s t = 2) then .error { kind := 4 }
    else if readsPoison s (lineOf ea) then .error { kind := 2, reason := 5 }
    else
      let e := BitVec.ofNat 64 (readNat s ea 8)
      if !e.getLsbD 0 then .error { kind := 2, reason := 2 }
      else if malformed e tier then .error { kind := 2, reason := 3 }
      else if !eRights e then
        if !tableOk s (eAddr e) then .error { kind := 2, reason := 4 }
        else next (eAddr e) ({ tag := tag, tier := tier, entryAddr := ea, table := eAddr e } :: ptrs)
      else if !backed s (eAddr e + iova % leafSize tier) then .error { kind := 2, reason := 6 }
      else .ok (ioMake s tag iova ea e tier, ptrs)

/-- Keep a slot: 128 sets of 8 (R416). [DESIGN CHOICE, log entry 66] -/
def keepIo (n : Nat) (x : IoSlot) (s : State) : State :=
  let key (y : IoSlot) : Nat := y.iova / y.size % 128
  let xs := ioslots s n
  let mine := xs.filter fun y => key y == key x
  if mine.length < 8 then setIoslots n (xs ++ [x]) s
  else
    let d := drawWord s
    match mine[fld d.1 15 0 * 8 / 65536]? with
    | some v => setIoslots n (xs.erase v ++ [x]) d.2
    | none => setIoslots n (xs ++ [x]) d.2
/-- Keep the pointers of a walk: 32 in all (R416). [DESIGN CHOICE, log entry 66] -/
def keepIoPtrs (n : Nat) : List IoPtr → State → State
  | [], s => s
  | w :: r, s =>
    let xs := ioptrs s n
    let d := drawWord s
    let x : List IoPtr × State := if xs.length < 32 then (xs ++ [w], s) else (xs.set (fld d.1 15 0 * 32 / 65536) w, d.2)
    keepIoPtrs n r { x.2 with pcie := { x.2.pcie with ioptr := smPut ioptrsDef x.2.pcie.ioptr n x.1 } }
/-- The entries that the walk of `ioWalk` reads, in order: the other entries of a group after them. -/
def ioWalkReads (s : State) (n tag iova : Nat) (tier t : Nat) : List Nat :=
  let ea := t + iova / leafSize tier % 512 * 8
  let next (p : Nat) : List Nat :=
    match tier with
    | 0 => []
    | k + 1 => ioWalkReads s n tag iova k p
  match (if tier = 0 then none else (ioptrs s n).find? fun w => decide (w.tag = tag ∧ w.tier = tier ∧ w.entryAddr = ea)) with
  | some w => next w.table
  | none =>
    if !decide (ownerCode s t = 0 ∨ ownerCode s t = 2) then []
    else
      let e := BitVec.ofNat 64 (readNat s ea 8)
      if readsPoison s (lineOf ea) || !e.getLsbD 0 || malformed e tier then [ea]
      else if !eRights e then (if tableOk s (eAddr e) then ea :: next (eAddr e) else [ea])
      else if e.getLsbD 8 then [ea, (if ea / 64 % 2 = 0 then ea + 64 else ea - 64)]
      else [ea]
/-- The reads of a walk, on the root port's meter in the class of the context (R411; 12 R297). -/
def ioReads (n tc : Nat) (eas : List Nat) (s : State) : State :=
  eas.foldl (fun a ea => (agentRead tc (ea / 8 * 8) 8 (inject (528 + n) tc 1 (lineResources a ea) a)).2.2) s

/-- Set A, and D for a write, in every leaf entry of a slot (08 R208): none where a swap fails.
[DEDUCED, log entry 11; DEDUCED, log entry 65] -/
def ioSwaps (setD : Bool) : List (Nat × Word64) → State → Option State
  | [], s => some s
  | (ea, e) :: r, s =>
    match adSwap { entry := ea, walked := e, setD := setD } s with
    | some s1 => ioSwaps setD r s1
    | none => none

/-- A slot for an IOVA by a walk from the root; none is kept for an address that no DMA may reach (01 R29). [DESIGN CHOICE, log entry 66] -/
def ioFill (n : Nat) (c : DevCtx) (iova : Nat) (s : State) : Except IoFault IoSlot × State :=
  if !tableOk s c.root then (.error { kind := 2, reason := 4 }, s)
  else
    let s1 := ioReads n c.tc (ioWalkReads s n c.tag iova 3 c.root) s
    match ioWalk s n c.tag iova 3 c.root [] with
    | .error f => (.error f, s1)
    | .ok (x, ps) =>
      if !regionOk s (x.pa + (iova - x.iova)) .dma then (.error { kind := 4 }, s1)
      else (.ok x, keepIoPtrs n ps.reverse (keepIo n x s1))

/-- PCIe MMIO that a context may not reach: without P2P, or of another slot, which peer-to-peer requests never reach (R405, R409).
[DEDUCED, log entry 65] -/
def mmioBarred (s : State) (c : DevCtx) (pa : Nat) : Bool :=
  match placeOf pa with
  | some ⟨.mmio, slot, _⟩ => !c.p2p || slot != slotOf s
  | _ => false
/-- The translation of a request, with rights, region, P2P and owner code checked, and A and D set; `again` permits one fresh walk
after a swap that failed. -/
def ioXlat (again : Nat) (n : Nat) (c : DevCtx) (iova : Nat) (rd wr : Bool) (s : State) : Except IoFault Nat × State :=
  if 2 ^ 47 ≤ iova then (.error { kind := 2, reason := 1 }, s)
  else
    let r : Except IoFault IoSlot × State :=
      match (ioslots s n).find? fun x => decide (x.tag = c.tag ∧ x.iova ≤ iova ∧ iova < x.iova + x.size) with
      | some x => (.ok x, s)
      | none => ioFill n c iova s
    match r.1 with
    | .error f => (.error f, r.2)
    | .ok x =>
      let pa := x.pa + (iova - x.iova)
      let code := ownerCode r.2 pa
      if !regionOk r.2 pa .dma then (.error { kind := 4 }, r.2)
      else if (rd && !x.rd) || (wr && !x.wr) then (.error { kind := 2, reason := 9 }, r.2)
      else if mmioBarred r.2 c pa then (.error { kind := 4 }, r.2)
      else if code ≠ 0 ∧ (wr ∨ code ≠ 2) then (.error { kind := 4 }, r.2)
      else if x.a && (x.d || !wr) then (.ok pa, r.2)
      else match ioSwaps wr x.leafs r.2 with
        | some s1 => (.ok pa, setIoslots n ((ioslots s1 n).replace x { x with a := true, d := x.d || wr }) s1)
        | none =>
          let s1 := setIoslots n ((ioslots r.2 n).erase x) r.2
          match again with
          | 0 => (.error { kind := 2, reason := 2 }, s1)
          | k + 1 => ioXlat k n c iova rd wr s1

/-- A Translated request: the address is physical; region and owner code alone are checked (R410). -/
def ioTranslated (c : DevCtx) (pa : Nat) (wr : Bool) (s : State) : Except IoFault Nat :=
  let code := ownerCode s pa
  if !c.ats then .error { kind := 4 }
  else if !regionOk s pa .dma then .error { kind := 4 }
  else if mmioBarred s c pa then .error { kind := 4 }
  else if code ≠ 0 ∧ (wr ∨ code ≠ 2) then .error { kind := 4 }
  else .ok pa

/-! ### Message-signalled interrupts (R412) -/

def msiPage (s : State) : Nat := reg64 s (pcieReg 0x108)
/-- A write to the MSI page: a message of an allowed source, or discarded, counted and reported. [DESIGN CHOICE, log entry 66] -/
def msi (c : DevCtx) (j iova : Nat) (bs : List Byte) (s : State) : State :=
  let v := natOfBytes bs
  if bs.length = 4 ∧ v < 2 ^ 13 ∧ c.msiBase ≤ v ∧ v < c.msiBase + c.msiCount ∧ 256 ≤ v then raiseMsg v s
  else ioFault j c.rid c.tc { kind := 3 } 2 0 iova (bump (pcieReg 0x228) s)

/-! ### DMA (R409 to R411) -/

/-- The answer to a request: status 0 a completion, 1 Unsupported Request; `value` 1 says EP. -/
def complete (st : Nat) (ep : Bool) (bs : List Byte) (s : State) : State :=
  { s with ans := { status := st, value := if ep then 1 else 0, bytes := bs } }
def spanLines (pa n : Nat) : Nat := if n = 0 then 1 else (pa + n - 1) / 64 - pa / 64 + 1
def poisonLines (pa n : Nat) (s : State) : State := (List.range (spanLines pa n)).foldl (fun a i => poisonLine (pa / 64 + i) a) s

/-- Perform a request at a physical address. FetchAdd, Swap and CAS are the far atomics ADD, XCHG and CMPX (R405). -/
def dmaPerform (n : Nat) (c : DevCtx) (pa : Nat) (op : DmaOp) (ep : Bool) (s : State) : State :=
  match placeOf pa with
  | some ⟨.mmio, _, off⟩ => complete 0 false [] (sendPcie (.peer off op) s)
  | _ =>
    match op with
    | .read k =>
      let r := agentRead c.tc pa k (bumpBy (pcieReg 0x210) (spanLines pa k) (inject (528 + n) c.tc (spanLines pa k) (lineResources s pa) s))
      complete 0 r.2.1 r.1 r.2.2
    | .write bs =>
      let s1 := agentWrite c.tc pa bs (bumpBy (pcieReg 0x218) (spanLines pa bs.length) (inject (528 + n) c.tc (spanLines pa bs.length) (lineResources s pa) s))
      complete 0 false [] (if ep then poisonLines pa bs.length s1 else s1)
    | .atomic o wide a b =>
      let s1 := inject (528 + n) c.tc 1 (lineResources s pa) s
      let code := match o.val with | 0 => 1 | 1 => 0 | _ => 9
      let r := if o.val = 2 then agentAmo c.tc pa code wide b a s1 else agentAmo c.tc pa code wide a 0 s1
      complete 0 false (bytesOfNat r.1.toNat (if wide then 8 else 4)) r.2
    | .unsupported => complete 1 false [] s

def dmaLen (op : DmaOp) : Nat :=
  match op with | .read n => n | .write bs => bs.length | .atomic _ w _ _ => if w then 8 else 4 | .unsupported => 1
/-- Sizes a root port takes (R405), within one page; an AtomicOp is aligned to its size. -/
def dmaSizeOk (iova : Nat) (op : DmaOp) : Bool :=
  decide (0 < dmaLen op ∧ iova % 4096 + dmaLen op ≤ 4096) &&
    match op with
    | .write bs => decide (bs.length ≤ 512)
    | .atomic _ w _ _ => decide (iova % (if w then 8 else 4) = 0)
    | _ => true
/-- A refused request: Unsupported Request where it is non-posted, discarded where it is a posted write; a fault letter (R409).
[DEDUCED, log entry 65] -/
def dmaRefuse (j rid tc : Nat) (f : IoFault) (op : DmaOp) (translated : Bool) (iova : Nat) (s : State) : State :=
  let s1 := ioFault j rid tc f (ioAccess op + if translated then 8 else 0) 0 iova s
  match op with
  | .write _ => s1
  | _ => complete 1 false [] s1

/-- [DEDUCED, log entry 65] -/
def dmaRequest (j rid iova : Nat) (op : DmaOp) (ep translated : Bool) (s : State) : State :=
  if !subLive s j then s
  else if op = .unsupported ∨ !dmaSizeOk iova op then complete 1 false [] s
  else
    let x := findCtx rid j s
    match x.1 with
    | .error f => dmaRefuse j rid 3 f op translated iova x.2
    | .ok c =>
      let wr := match op with | .read _ => false | _ => true
      let rd := match op with | .write _ => false | _ => true
      match op with
      | .write bs =>
        if iova / 4096 * 4096 = msiPage s ∧ !translated then msi c j iova bs x.2
        else
          let r := if translated then (ioTranslated c iova wr x.2, x.2) else ioXlat 1 (j / 4) c iova rd wr x.2
          match r.1 with
          | .error f => dmaRefuse j rid c.tc f op translated iova r.2
          | .ok pa => dmaPerform (j / 4) c pa op ep r.2
      | _ =>
        let r := if translated then (ioTranslated c iova wr x.2, x.2) else ioXlat 1 (j / 4) c iova rd wr x.2
        match r.1 with
        | .error f => dmaRefuse j rid c.tc f op translated iova r.2
        | .ok pa => dmaPerform (j / 4) c pa op ep r.2

/-- An ATS Translation Request (R410): answered with the page, its rights and its size, up to 2 MiB; a failure has no rights. -/
def translationRequest (j rid iova : Nat) (s : State) : State :=
  if !subLive s j then s
  else
    let x := findCtx rid j s
    match x.1 with
    | .error f => complete 1 false [] (ioFault j rid 3 f 0 0 iova x.2)
    | .ok c =>
      if !c.ats then complete 1 false [] (ioFault j rid c.tc { kind := 4 } 0 0 iova x.2)
      else
        let t := ioXlat 1 (j / 4) c iova false false x.2
        -- an answer that grants WR finds D set (08 R225)
        let may := ((ioslots t.2 (j / 4)).find? fun y => decide (y.tag = c.tag ∧ y.iova ≤ iova ∧ iova < y.iova + y.size)).any fun y => y.wr
        let r := if t.1.toBool && may then ioXlat 1 (j / 4) c iova false true t.2 else t
        match r.1 with
        | .error f => complete 1 false [] (if c.pri then r.2 else ioFault j rid c.tc f 0 0 iova r.2)
        | .ok pa =>
          match (ioslots r.2 (j / 4)).find? fun y => decide (y.tag = c.tag ∧ y.iova ≤ iova ∧ iova < y.iova + y.size) with
          | some y =>
            let sz := min y.size 0x200000
            { r.2 with ans := { status := 0, value := BitVec.ofNat 64 (pa / sz * sz + (if y.rd then 1 else 0) + (if y.wr then 2 else 0)),
                                bytes := bytesOfNat sz 8 } }
          | none => complete 1 false [] r.2

/-- A Page Request (R410): a letter to PRIQ; without PRI, or past 512 outstanding on the root port, to the fault queue.
[DEDUCED, log entry 65] -/
def pageRequest (j rid iova : Nat) (rd wr last : Bool) (prgi : Nat) (s : State) : State :=
  if !subLive s j then s
  else
    let x := findCtx rid j s
    let access := (if rd then 1 else 0) + (if wr then 2 else 0) + (if last then 4 else 0)
    let page := iova / 4096 * 4096
    match x.1 with
    | .error f => complete 1 false [] (ioFault j rid 3 f access prgi page x.2)
    | .ok c =>
      let out := ((List.range 4).map fun k => (subOf s (j / 4 * 4 + k)).prgOut.length).foldl (· + ·) 0
      if !c.pri then ioFault j rid c.tc { kind := 1 } access prgi page x.2
      else if 512 ≤ out then ioFault j rid c.tc { kind := 6 } access prgi page x.2
      else postIotu (j / 4) c.priq c.tc (iotuLetter x.2 1 0 rid j access prgi page) (updSub j (fun y => { y with prgOut := y.prgOut ++ [(rid, prgi)] }) x.2)

/-- `PCIE_PRG_RESP` (R410): the response goes to the sub-port whose group it is; one for a link that is down is discarded. -/
def pciePrgResp (v : Word32) (s : State) : Nat × State :=
  let code := fld v 31 28
  let g := (fld v 15 0, fld v 24 16)
  match firstCode (codeIf (fld v 27 25 != 0) stRsvd ++ codeIf (code != 0 && code != 1 && code != 15) stRange) with
  | 0 =>
    match (List.range 12).find? fun j => subLive s j && (subOf s j).prgOut.contains g with
    | some j => (stOk, sendPcie (.prgResp g.1 g.2 code) (updSub j (fun y => { y with prgOut := y.prgOut.filter fun e => e != g }) s))
    | none => (stOk, s)
  | c => (c, s)

/-! ### Invalidation (R416, R417) -/

/-- The number a writer's own commands are counted under: its core, or past the cores. [DEDUCED, log entry 91] -/
def writerKey : Writer → Nat
  | .core lc => lc.val
  | .pair p => 512 + p.val
  | .path p => 516 + p.val
def bv0 {w : Nat} (_ : Nat) : BitVec w := 0
def invIssued (s : State) (k : Nat) : BitVec 16 := smGet bv0 s.pcie.issued k
def invDone (s : State) (k : Nat) : BitVec 16 := smGet bv0 s.pcie.done k
/-- Does the scope of a KIND cover a context? -/
def invCovers (kind id : Nat) (c : DevCtx) : Bool :=
  match kind with
  | 3 => true
  | 4 => c.rid == id
  | _ => c.tag == id
def invSlots (kind id iova : Nat) (xs : List IoSlot) : List IoSlot :=
  match kind with
  | 1 => xs.filter fun x => !decide (x.tag = id ∧ x.iova ≤ iova ∧ iova < x.iova + x.size)
  | 2 => xs.filter fun x => x.tag != id
  | 3 => []
  | _ => xs
def invPtrs (kind id : Nat) (xs : List IoPtr) : List IoPtr :=
  match kind with
  | 1 | 2 => xs.filter fun x => x.tag != id
  | 3 => []
  | _ => xs
/-- `PCIE_IOTU_INV`: the entries leave every root port, and the covered endpoints with ATS = 1 are asked. -/
def pcieInv (w : Writer) (v : Word32) (s : State) : Nat × State :=
  let kind := fld v 31 28
  let id := fld v 15 0
  let k := writerKey w
  let mine := (s.pcie.invs.filter fun x => x.by_ == k).length
  match firstCode (codeIf (fld v 27 16 != 0 || kind == 0 || decide (4 < kind)) stRsvd ++ codeIf (kind == 3 && id != 0) stRange ++
      codeIf (decide (16 ≤ mine)) stBusy) with
  | 0 =>
    let iova := fld (bankReg s (pcieReg 0x120) k) 31 12 * 4096 + (bankReg s (pcieReg 0x124) k).toNat * 2 ^ 32
    let ask := (s.pcie.ctxs.filter fun c => invCovers kind id c && c.ats && subLive s c.sub).map (·.rid)
    let p := s.pcie
    let p1 : Pcie := { p with
      iotlb := p.iotlb.map fun e => (e.1, invSlots kind id iova e.2)
      ioptr := p.ioptr.map fun e => (e.1, invPtrs kind id e.2)
      ctxs := if kind = 4 then p.ctxs.filter fun c => c.rid != id else p.ctxs
      invs := p.invs ++ [{ by_ := k, waiting := ask }]
      issued := smPut bv0 p.issued k (invIssued s k + 1)
      sent := p.sent ++ ask.map PcieOut.atsInv }
    (stOk, { s with pcie := { p1 with iotlb := p1.iotlb.filter (fun e => decide (e.2 ≠ [])), ioptr := p1.ioptr.filter (fun e => decide (e.2 ≠ [])) } })
  | c => (c, s)
/-- `PCIE_IOTU_INVSTAT` as its reader sees it. -/
def pcieInvstat (s : State) (k : Nat) : Nat := (invIssued s k).toNat * 65536 + (invDone s k).toNat
/-- An endpoint answers: one command less waits for it. -/
def dropWaiting (rid : Nat) : List IoInv → List IoInv
  | [] => []
  | x :: r => if x.waiting.contains rid then { x with waiting := x.waiting.erase rid } :: r else x :: dropWaiting rid r
def invAnswered (rid : Nat) (s : State) : State := { s with pcie := { s.pcie with invs := dropWaiting rid s.pcie.invs } }
/-- The oldest command is done once none of its endpoints is awaited. -/
def invDoneNow (s : State) : State :=
  match s.pcie.invs with
  | x :: r =>
    if x.waiting.isEmpty then
      { s with pcie := { s.pcie with invs := r, done := smPut bv0 s.pcie.done x.by_ (invDone s x.by_ + 1) } }
    else s
  | [] => s

/-! ### Containment and hot-plug (R404, R414, R415) -/

/-- DPC or surprise down on a sub-port: its link disabled, its page request groups dropped, awaited ATS completions given. What cores
wait for below it then answers all ones. A link that goes down, or comes up, is an event of link state (R413). [DEDUCED, log entry 64] -/
def dpcTrigger (j : Nat) (surprise : Bool) (s : State) : State :=
  if !subExists s j then s
  else
    let below := (s.pcie.ctxs.filter fun c => c.sub == j).map (·.rid)
    let s1 := updSub j (fun x => { x with linkUp := false, dpc := true, present := x.present && !surprise, prgOut := [] }) s
    let s2 : State := { s1 with pcie := { s1.pcie with
      invs := s1.pcie.invs.map fun x => { x with waiting := x.waiting.filter fun r => !below.contains r } } }
    let s3 := subEvent j evDpc s2
    if surprise || (subOf s j).linkUp then subEvent j evHotplug s3 else s3
/-- `PCIE_CMD` with OP 2 (R404). -/
def peStop (n : Nat) (s : State) : State :=
  if peRunning s n then
    let s1 := (subsOf s n).foldl (fun a j => dpcTrigger j false a) s
    { s1 with pcie := { s1.pcie with running := s1.pcie.running &&& ~~~(BitVec.ofNat 3 (2 ^ n)) } }
  else s
/-- `PCIE_CMD` with OP 1: the links of sub-ports with a partner train. -/
def peStart (n : Nat) (s : State) : State :=
  if peRunning s n then s
  else
    let s1 : State := { s with pcie := { s.pcie with running := s.pcie.running ||| BitVec.ofNat 3 (2 ^ n) } }
    (subsOf s n).foldl (fun a j =>
      let b := updSub j (fun x => { x with dpc := false, linkUp := x.present }) a
      if (subOf b j).linkUp then subEvent j evHotplug b else b) s1
/-- `PCIE_CMD` (R404, R418). -/
def pcieCmd (v : Word32) (s : State) : Nat × State :=
  let op := fld v 31 28
  let n := fld v 1 0
  match firstCode (codeIf (fld v 27 2 != 0 || (op != 1 && op != 2)) stRsvd ++ codeIf (n == 3) stRange) with
  | 0 => (stOk, if op = 1 then peStart n s else peStop n s)
  | c => (c, s)
def hotAdd (j : Nat) (s : State) : State :=
  if !subExists s j then s
  else subEvent j evHotplug (updSub j (fun x => { x with present := true, linkUp := peRunning s (j / 4) && !x.dpc }) s)
/-- An endpoint silent past ATSTO (R416). -/
def atsLate (rid : Nat) (s : State) : State :=
  if s.pcie.invs.any fun x => x.waiting.contains rid then
    match s.pcie.ctxs.find? fun c => c.rid == rid with
    | some c => ioFault c.sub rid c.tc { kind := 5 } 0 0 0 (dpcTrigger c.sub false s)
    | none => { s with pcie := { s.pcie with invs := s.pcie.invs.map fun x => { x with waiting := x.waiting.erase rid } } }
  else s
/-- `PCIE_STAT`. -/
def pcieStat (s : State) : Nat :=
  s.pcie.running.toNat * 65536 + ((List.range 12).map fun j => if subLive s j then 2 ^ j else 0).foldl (· + ·) 0

def execDmaRequest (j : Fin 12) (rid : BitVec 16) (iova : Word64) (op : DmaOp) (ep translated : Bool) (s : State) : Out :=
  .next (dmaRequest j.val rid.toNat iova.toNat op ep translated s)
def execTranslationRequest (j : Fin 12) (rid : BitVec 16) (iova : Word64) (s : State) : Out :=
  .next (translationRequest j.val rid.toNat iova.toNat s)
def execPageRequest (j : Fin 12) (rid : BitVec 16) (iova : Word64) (rd wr last : Bool) (prgi : BitVec 9) (s : State) : Out :=
  .next (pageRequest j.val rid.toNat iova.toNat rd wr last prgi.toNat s)
/-- A message is the posted write of its bytes to the MSI page (R412). [DESIGN CHOICE, log entry 66] -/
def execMsiMessage (j : Fin 12) (rid : BitVec 16) (off : BitVec 12) (bytes : List Byte) (s : State) : Out :=
  .next (dmaRequest j.val rid.toNat (msiPage s + off.toNat) (.write bytes) false false s)
def execHotAdd (j : Fin 12) (s : State) : Out := .next (hotAdd j.val s)
def execInvalidateCompletion (rid : BitVec 16) (s : State) : Out := .next (invAnswered rid.toNat s)
def execIotuInvalidationDone (s : State) : Out := .next (invDoneNow s)

end Sys2Proof.Machine
end

