-- ==== Sys2Proof/Machine/Timers.lean ====
section
/-! DEFINITION. System time, SYNC_IN and SYNC_OUT, and the timer array (18). -/

namespace Sys2Proof.Machine

def tmrReg (o : Nat) : Nat := 0x300000 + o
def tReg (t o : Nat) : Nat := 0x301000 + 64 * t + o
def timerDef (_ : Nat) : Timer := {}
def timer (s : State) (t : Nat) : Timer := smGet timerDef s.time.timers t
def setTimer (t : Nat) (x : Timer) (s : State) : State := { s with time := { s.time with timers := smPut timerDef s.time.timers t x } }
def updTimer (t : Nat) (f : Timer → Timer) (s : State) : State := setTimer t (f (timer s t)) s

def tMode (s : State) (t : Nat) : Nat := rfld s (tReg t 0) 2 0
def tCfgBit (s : State) (t b : Nat) : Bool := (reg s (tReg t 0)).getLsbD b
def tRun (s : State) (t : Nat) : Bool := (reg s (tmrReg (0x40 + 4 * (t / 32)))).getLsbD (t % 32)
/-- The time base is off (R438), or both reference clocks are lost (R439). -/
def baseOff (s : State) : Bool := s.time.tbOff || decide (s.time.src = 2)
/-- A PERIOD of 0 stands for 2^64 (R444). -/
def tPeriod (s : State) (t : Nat) : Nat := let p := reg64 s (tReg t 8); if p = 0 then 2 ^ 64 else p
def tCmp (s : State) (t : Nat) : Nat := reg64 s (tReg t 0x10)
/-- The compare level (R445). -/
def tLvl (s : State) (t : Nat) : Bool := decide ((timer s t).cnt.toNat < tCmp s t) != tCfgBit s t 27

/-- The wired source of a timer follows its flags and enables (R451). -/
def tmrLine (t : Nat) (s : State) : State := setLine t (decide (fld (timer s t).flags 3 0 &&& rfld s (tReg t 0x34) 3 0 ≠ 0)) s
def setTFlag (t b : Nat) (s : State) : State :=
  tmrLine t (updTimer t (fun x => { x with flags := x.flags ||| BitVec.ofNat 6 (2 ^ b) }) s)
def evSel (s : State) (t : Nat) : Nat := rfld s (tReg t 0) 26 24
/-- Pulse the event line where EVSEL selects one of these events (R448). [DEDUCED, log entry 67] -/
def evPulse (t : Nat) (sels : List Nat) (s : State) : State :=
  if sels.contains (evSel s t) then { s with time := { s.time with evPulse := s.time.evPulse ||| BitVec.ofNat 64 (2 ^ t) } } else s
/-- RUN := `b` (R447). -/
def putRun (t : Nat) (b : Bool) (s : State) : State :=
  let off := tmrReg (0x40 + 4 * (t / 32))
  setReg off (putFld (reg s off) (t % 32) (t % 32) (if b then 1 else 0)) s

/-- A wrap event (R444, R445, R448). -/
def wrapEvent (t : Nat) (s : State) : State :=
  let s1 := evPulse t [1, 3] (setTFlag t 0 s)
  if tCfgBit s t 4 then putRun t false s1 else s1
/-- A compare event (R445, R448, R451). -/
def compareEvent (t : Nat) (s : State) : State :=
  let s1 := evPulse t [2, 3] (setTFlag t 1 s)
  if tCfgBit s t 28 then latchWake wakeTimer s1 else s1
/-- A reset event (R447). -/
def resetEvent (t : Nat) (s : State) : State := evPulse t [4] (updTimer t (fun x => { x with cnt := 0, presc := 0 }) s)
/-- A forced wrap (R447). -/
def forcedWrap (t : Nat) (s : State) : State := wrapEvent t (updTimer t (fun x => { x with cnt := 0, presc := 0 }) s)
/-- A start event (R447) and a stop event. -/
def startEvent (t : Nat) (s : State) : State := putRun t true (updTimer t (fun x => { x with presc := 0 }) s)

/-- Where `n` ticks take a count: the new count and the number of wraps passed; a one-shot stops at its first wrap (R444, R445). -/
def ticksTo (c p n : Nat) (oneshot : Bool) : Nat × Nat :=
  let first := if c + 1 < p then p - c else 1
  if n < first then (c + n, 0)
  else if oneshot then (0, 1)
  else ((n - first) % p, 1 + (n - first) / p)
/-- Do the values taken include CMP (R445)? -/
def cmpHit (c new wraps p cmp : Nat) : Bool :=
  if wraps = 0 then decide (c < cmp ∧ cmp ≤ new)
  else decide (cmp < p ∧ (c < cmp ∨ cmp ≤ new ∨ 2 ≤ wraps))
/-- `n` ticks applied together. [DEDUCED, log entry 67] -/
def ticks (t n : Nat) (s : State) : State :=
  if n = 0 then s
  else
    let c := (timer s t).cnt.toNat
    let r := ticksTo c (tPeriod s t) n (tCfgBit s t 4)
    let s1 := updTimer t (fun x => { x with cnt := BitVec.ofNat 64 r.1 }) s
    let s2 := if r.2 = 0 then s1 else wrapEvent t s1
    let s3 := if 2 ≤ r.2 then setTFlag t 5 s2 else s2
    if cmpHit c r.1 r.2 (tPeriod s t) (tCmp s t) then compareEvent t s3 else s3
/-- Prescaler steps (R443). -/
def prescale (t n : Nat) (s : State) : State :=
  let d := rfld s (tReg t 4) 15 0 + 1
  let q := (timer s t).presc + n
  ticks t (q / d) (updTimer t (fun x => { x with presc := q % d }) s)

/-! ### Inputs (R446, R447, R449) -/

/-- The level of an input code; `pulses` are the event-line pulses in this cycle. -/
def inLevel (s : State) (pulses : BitVec 64) (code : Nat) : Bool :=
  if code < 64 then
    match evSel s code with
    | 0 => false
    | 5 => tRun s code
    | 6 => tLvl s code
    | _ => pulses.getLsbD code
  else if code < 80 then s.time.tins.getLsbD (code - 64)
  else if code = 80 then s.time.syncIn
  else false
/-- A capture into one of the pair (R449). -/
def capture (t : Nat) (rise : Bool) (s : State) : State :=
  let x := timer s t
  if x.flags.getLsbD (if rise then 2 else 3) then setTFlag t 4 s
  else setTFlag t (if rise then 2 else 3) (setTimer t (if rise then { x with capRise := x.cnt } else { x with capFall := x.cnt }) s)
/-- The spacing an external clock keeps (R443). -/
def edgeGap (s : State) : Nat := if baseOff s then 160 else 10
/-- One timer takes the levels of its inputs: a capture before a reset, then the slave mode's effect. The answer says that the timer
does not count in this cycle (R450). -/
def takeInputs (pulses : BitVec 64) (t : Nat) (s : State) : Bool × State :=
  let g := inLevel s pulses (rfld s (tReg t 0) 14 8)
  let cp := inLevel s pulses (rfld s (tReg t 0) 22 16)
  let x := timer s t
  let tpol := tCfgBit s t 5
  let gEdge := x.gIn != g && g != tpol
  let s1 := if x.capIn != cp then capture t (cp != tpol) (updTimer t (fun y => { y with capIn := cp }) s) else s
  let s2 := if x.gIn != g then updTimer t (fun y => { y with gIn := g }) s1 else s1
  if gEdge then
    match tMode s t with
    | 2 => (true, resetEvent t s2)
    | 3 => (true, startEvent t s2)
    | 4 =>
      let far := match x.lastEdge with | some e => decide (e + edgeGap s ≤ nowNs s) | none => true
      if tRun s t && far then (false, prescale t 1 (updTimer t (fun y => { y with lastEdge := some (nowNs s) }) s2)) else (false, s2)
    | _ => (false, s2)
  else (false, s2)
/-- One cycle of one timer: inputs, then counting. -/
def timerCycle (pulses : BitVec 64) (ns : Nat) (rind : Bool) (s : State) (t : Nat) : State :=
  let r := takeInputs pulses t s
  let s1 := r.2
  let gate := tMode s1 t != 1 || (timer s1 t).gIn != tCfgBit s1 t 5
  if r.1 || !tRun s t || tMode s1 t == 4 || !gate then s1
  else prescale t (if tCfgBit s1 t 3 then (if rind then 1 else 0) else ns) s1
/-- Is any register of the timer array other than at reset? Else no timer runs and no event line moves. -/
def timersSet (s : State) : Bool := s.ctl.regs.any fun e => decide (tmrReg 0 ≤ e.1 ∧ e.1 < tmrReg 0x2000)
/-- Every timer takes its inputs: an edge at a land. -/
def inputsChanged (s : State) : State :=
  if timersSet s then (List.range 64).foldl (fun a t => (takeInputs 0 t a).2) s else s

/-! ### The counter (R436, R438, R439, R442) -/

/-- Advance the counter by `n` × (1 + rate) ns: the nanoseconds gained, and the state. With both reference clocks lost it advances by `n` alone
(R439). -/
def advance (n : Nat) (s : State) : Nat × State :=
  let old : Int := (s.time.now.toNat * 2 ^ 32 + s.time.frac.toNat : Nat)
  let step : Int := (n * 2 ^ 32 : Nat) + (if s.time.src = 2 then 0 else (n : Int) * 2 ^ 32 * s.time.rate / 10 ^ 12)
  let t := old + step
  let now : Word64 := BitVec.ofInt 64 (t / 2 ^ 32)
  ((t / 2 ^ 32 - old / 2 ^ 32).toNat, { s with time := { s.time with now := now, frac := BitVec.ofInt 32 (t % 2 ^ 32) } })
def second : Nat := 1000000000
/-- SYNC_OUT rises as a whole second passes (R442). -/
def syncOut (before : Nat) (s : State) : State :=
  let now := nowNs s
  let rise := decide (before / second < now / second) && (reg s (tmrReg 0x50)).getLsbD 0
  let t := s.time
  if rise then { s with time := { t with syncOut := true, syncOutUntil := now / second * second + 1000 * rfld s (tmrReg 0x50) 23 8 } }
  else if t.syncOut ∧ t.syncOutUntil ≤ now then { s with time := { t with syncOut := false } }
  else s
/-- A rind-clock edge: the rind's copies of registers are refreshed, but for those behind a bridge that has timed out (02 R42, R43), and the next
snapshots are captures of their own (02 R54). -/
def rindEdge (s : State) : State :=
  { s with ctl := { s.ctl with copies := (s.ctl.copies.filter fun c => c.writer.isNone), edgeSnaps := [] } }
/-- One cycle of the time base, or of the rind clock while the time base is off: the counter, SYNC_OUT and the timers.
[DESIGN CHOICE, log entry 1] -/
def timeCycle (s : State) : State :=
  let before := nowNs s
  let off := baseOff s
  let a := advance (if off then 80 else 1) s
  let rind := off || decide (79 ≤ s.time.rindPhase)
  let pulses := s.time.evPulse
  let t := a.2.time
  let s1 : State := { a.2 with time := { t with evPulse := 0, rindPhase := if rind then 0 else t.rindPhase + 1 } }
  let s2 := syncOut before (if rind then rindEdge s1 else s1)
  if timersSet s then (List.range 64).foldl (timerCycle pulses a.1 rind) s2 else s2

/-! ### SYNC_IN (R440, R441) -/

def syncLine (s : State) : State :=
  let f := s.time.syncFlags
  let c := reg s (tmrReg 0x50)
  setLine 152 ((f.getLsbD 0 && c.getLsbD 1) || (f.getLsbD 1 && c.getLsbD 2)) s
/-- The capture rule of R449 for SYNC_IN. -/
def syncCapture (high : Bool) (s : State) : State :=
  let t := s.time
  let held := t.syncFlags.getLsbD (if high then 0 else 1)
  syncLine { s with time :=
    if held then { t with syncFlags := t.syncFlags ||| 4 }
    else if high then { t with syncFlags := t.syncFlags ||| 1, syncRise := t.now }
    else { t with syncFlags := t.syncFlags ||| 2, syncFall := t.now } }
/-- Is this device the time root following SYNC_IN (R441)? -/
def ppsRoot (s : State) : Bool := fld (regAct s 0x4080010) 1 0 == 3
/-- How far system time is from the nearest whole second: what must be added to it. -/
def syncOff (s : State) : Int :=
  let r : Nat := nowNs s % second
  if r < second / 2 then -(r : Int) else (second : Int) - r
/-- The servo takes a rising edge (R441). [DESIGN CHOICE, log entry 68] -/
def syncSteer (s : State) : State :=
  let off := syncOff s
  let far := !absLe off 1000000
  let errs := (off :: s.time.syncErrs).take 3
  let agree := decide (errs.length = 3) && errs.all fun x => absLe (x - off) 1000
  let s1 : State := { s with time := { s.time with syncErrs := errs } }
  if !s.time.started then
    let t := s1.time
    setServo .locked { s1 with time := { t with now := BitVec.ofInt 64 (t.now.toNat + off), frac := 0, rate := 0, syncLock := true } }
  else if far && !agree then s1
  else
    let s2 := steer 8 (off * 256) s1
    { s2 with time := { s2.time with syncLock := decide (s2.links.servo = .locked) } }
/-- An edge of SYNC_IN: captured, given to the timers, used by the servo, a wake source (22 R536). [DESIGN CHOICE, log entry 68] -/
def syncEdge (high : Bool) (s : State) : State :=
  if s.time.syncIn = high then s
  else
    let s1 : State := { s with time := { s.time with syncIn := high } }
    let s2 := latchWake wakeSync (inputsChanged (syncCapture high s1))
    if high && ppsRoot s then clockCleared (syncSteer s2) else s2
/-- No edge for 2.5 s (R441). -/
def syncLost (s : State) : State :=
  if ppsRoot s ∧ s.time.syncLock then
    logFault 0x209 5 uDevice none 0 0 (setServo .holdover { s with time := { s.time with syncLock := false, syncErrs := [] } })
  else s

/-! ### Registers of the block -/

/-- `TMR_STAT` (R438, R439, R441). -/
def tmrStat (s : State) : Nat := (if s.time.tbOff then 128 else 0) + (if s.time.syncLock then 4 else 0) + s.time.src
/-- A write of `TMR_CMD` (R447). -/
def tmrCmd (v : Word32) (s : State) : Nat × State :=
  let op := fld v 31 28
  if fld v 27 6 ≠ 0 ∨ (op ≠ 1 ∧ op ≠ 2) then (stRsvd, s)
  else (stOk, if op = 1 then resetEvent (fld v 5 0) s else forcedWrap (fld v 5 0) s)
/-- A write of `TMR_RUN0` or `TMR_RUN1`: starts, and stops, of the bits it changes. -/
def tmrRun (w : Nat) (v : Word32) (s : State) : State :=
  (List.range 32).foldl (fun a i =>
    let old := tRun s (32 * w + i)
    if v.getLsbD i = old then a else if old then putRun (32 * w + i) false a else startEvent (32 * w + i) a) s
/-- A read of `TMR_t_FLAGS`, and what it clears (R451). -/
def tmrFlagsRead (t : Nat) (s : State) : Nat × State :=
  ((timer s t).flags.toNat, tmrLine t (updTimer t (fun x => { x with flags := 0 }) s))
def syncFlagsRead (s : State) : Nat × State := (s.time.syncFlags.toNat, syncLine { s with time := { s.time with syncFlags := 0 } })
/-- `TMR_TIME_SET_HI` (R437). [DEDUCED, log entry 37] -/
def timeSet (v : Nat) (s : State) : Nat × State :=
  if s.time.started then (stRunning, s) else (stOk, { s with time := { s.time with now := BitVec.ofNat 64 v, frac := 0 } })
/-- Every counter and the time at one edge (R452). -/
def tmrSnap (s : State) : State :=
  let t := s.time
  { s with time := { t with snapTime := t.now, timers := t.timers.map fun e => (e.1, { e.2 with hold := e.2.cnt }) } }

/-! ### Commands -/

def execSyncInEdge (high : Bool) (s : State) : Out := .next (syncEdge high s)
def execSyncLost (s : State) : Out := .next (syncLost s)
/-- System time passes a whole second (R442). -/
def execSyncOutPulse (s : State) : Out :=
  .next (if (reg s (tmrReg 0x50)).getLsbD 0 then syncOut (nowNs s / second * second - 1) s else s)
/-- A running timer that counts time: its prescaler passes DIV, and `n` ticks apply together (R443, R444). [DEDUCED, log entry 67] -/
def execTimerTick (t : Fin 64) (n : Nat) (s : State) : Out :=
  .next (if tRun s t.val && tMode s t.val != 4 then ticks t.val (max n 1) (updTimer t.val (fun x => { x with presc := 0 }) s) else s)
/-- The tick on which the counter reaches its period (R444). [DEDUCED, log entry 67] -/
def execTimerWrap (t : Fin 64) (s : State) : Out :=
  .next (if tRun s t.val && decide (tPeriod s t.val ≤ (timer s t.val).cnt.toNat + 1) then ticks t.val 1 (updTimer t.val (fun x => { x with presc := 0 }) s)
    else s)
/-- A level at TIN`n`, after the glitch filter, reaches the timers that follow it (R446, R447). -/
def tinLevel (n : Nat) (high : Bool) (s : State) : State :=
  let t := s.time
  let w := putFld t.tins n n (if high then 1 else 0)
  if w = t.tins then s else inputsChanged { s with time := { t with tins := w } }
def execTimerInputEdge (n : Fin 16) (high : Bool) (s : State) : Out := .next (tinLevel n.val high s)

end Sys2Proof.Machine
end

