-- ==== Sys2Proof/Machine/Cellar.lean ====
section
/-! DEFINITION. The cellar (19): the service-call convention, page ownership, measurement, attestation; the cache service (09 R237)
and the memory service (11 R279, R294). -/

namespace Sys2Proof.Machine

/-! ### SHA-384 (R471) -/

/-- The round constants of SHA-512. -/
def shaK : List Word64 :=
  [0x428A2F98D728AE22, 0x7137449123EF65CD, 0xB5C0FBCFEC4D3B2F, 0xE9B5DBA58189DBBC, 0x3956C25BF348B538,
   0x59F111F1B605D019, 0x923F82A4AF194F9B, 0xAB1C5ED5DA6D8118, 0xD807AA98A3030242, 0x12835B0145706FBE,
   0x243185BE4EE4B28C, 0x550C7DC3D5FFB4E2, 0x72BE5D74F27B896F, 0x80DEB1FE3B1696B1, 0x9BDC06A725C71235,
   0xC19BF174CF692694, 0xE49B69C19EF14AD2, 0xEFBE4786384F25E3, 0x0FC19DC68B8CD5B5, 0x240CA1CC77AC9C65] ++
  [0x2DE92C6F592B0275, 0x4A7484AA6EA6E483, 0x5CB0A9DCBD41FBD4, 0x76F988DA831153B5, 0x983E5152EE66DFAB,
   0xA831C66D2DB43210, 0xB00327C898FB213F, 0xBF597FC7BEEF0EE4, 0xC6E00BF33DA88FC2, 0xD5A79147930AA725,
   0x06CA6351E003826F, 0x142929670A0E6E70, 0x27B70A8546D22FFC, 0x2E1B21385C26C926, 0x4D2C6DFC5AC42AED,
   0x53380D139D95B3DF, 0x650A73548BAF63DE, 0x766A0ABB3C77B2A8, 0x81C2C92E47EDAEE6, 0x92722C851482353B] ++
  [0xA2BFE8A14CF10364, 0xA81A664BBC423001, 0xC24B8B70D0F89791, 0xC76C51A30654BE30, 0xD192E819D6EF5218,
   0xD69906245565A910, 0xF40E35855771202A, 0x106AA07032BBD1B8, 0x19A4C116B8D2D0C8, 0x1E376C085141AB53,
   0x2748774CDF8EEB99, 0x34B0BCB5E19B48A8, 0x391C0CB3C5C95A63, 0x4ED8AA4AE3418ACB, 0x5B9CCA4F7763E373,
   0x682E6FF3D6B2B8A3, 0x748F82EE5DEFB2FC, 0x78A5636F43172F60, 0x84C87814A1F0AB72, 0x8CC702081A6439EC] ++
  [0x90BEFFFA23631E28, 0xA4506CEBDE82BDE9, 0xBEF9A3F7B2C67915, 0xC67178F2E372532B, 0xCA273ECEEA26619C,
   0xD186B8C721C0C207, 0xEADA7DD6CDE0EB1E, 0xF57D4F7FEE6ED178, 0x06F067AA72176FBA, 0x0A637DC5A2C898A6,
   0x113F9804BEF90DAE, 0x1B710B35131C471B, 0x28DB77F523047D84, 0x32CAAB7B40C72493, 0x3C9EBE0A15C9BEBC,
   0x431D67C49C100D4C, 0x4CC5D4BECB3E42B6, 0x597F299CFC657E2A, 0x5FCB6FAB3AD6FAEC, 0x6C44198C4A475817]
/-- The initial value of SHA-384. -/
def shaInit : List Word64 :=
  [0xCBBB9D5DC1059ED8, 0x629A292A367CD507, 0x9159015A3070DD17, 0x152FECD8F70E5939,
   0x67332667FFC00B31, 0x8EB44A8768581511, 0xDB0C2E0D64F98FA7, 0x47B5481DBEFA4FA4]
def bigEndian (bs : List Byte) : Nat := bs.foldl (fun n b => n * 256 + b.toNat) 0
/-- A block of 128 bytes as sixteen words. -/
def blockWords (bs : List Byte) : List Word64 := (List.range 16).map fun i => BitVec.ofNat 64 (bigEndian ((bs.drop (8 * i)).take 8))
/-- The message schedule, newest word first, extended by `n` words. -/
def schedule : Nat → List Word64 → List Word64
  | 0, w => w
  | n + 1, w =>
    let x := w.getD 1 0
    let y := w.getD 14 0
    let s1 := x.rotateRight 19 ^^^ x.rotateRight 61 ^^^ (x >>> 6)
    let s0 := y.rotateRight 1 ^^^ y.rotateRight 8 ^^^ (y >>> 7)
    schedule n ((s1 + w.getD 6 0 + s0 + w.getD 15 0) :: w)
/-- One round over the eight working words. -/
def shaRound (h : List Word64) (kw : Word64 × Word64) : List Word64 :=
  match h with
  | [a, b, c, d, e, f, g, x] =>
    let t1 := x + (e.rotateRight 14 ^^^ e.rotateRight 18 ^^^ e.rotateRight 41) + ((e &&& f) ^^^ (~~~e &&& g)) + kw.1 + kw.2
    let t2 := (a.rotateRight 28 ^^^ a.rotateRight 34 ^^^ a.rotateRight 39) + ((a &&& b) ^^^ (a &&& c) ^^^ (b &&& c))
    [t1 + t2, a, b, c, d + t1, e, f, g]
  | _ => h
def shaBlock (h : List Word64) (bs : List Byte) : List Word64 :=
  let w := (schedule 64 (blockWords bs).reverse).reverse
  (h.zip ((shaK.zip w).foldl shaRound h)).map fun p => p.1 + p.2
/-- The padded message. -/
def shaPad (bs : List Byte) : List Byte :=
  let z := (239 - bs.length % 128) % 128
  bs ++ [0x80] ++ List.replicate z 0 ++ (bytesOfNat (8 * bs.length) 16).reverse
def shaBlocks : Nat → List Word64 → List Byte → List Word64
  | 0, h, _ => h
  | n + 1, h, bs => shaBlocks n (shaBlock h (bs.take 128)) (bs.drop 128)
/-- The 48 bytes of SHA-384 of a message. [DEDUCED, log entry 77] -/
def sha384 (bs : List Byte) : List Byte :=
  let p := shaPad bs
  ((shaBlocks (p.length / 128) shaInit p).take 6).flatMap fun w => (bytesOfNat w.toNat 8).reverse

/-! ### Measurement registers (R471) -/

def mr0 (_ : Nat) : BitVec 384 := 0
def mrOf (s : State) (i : Nat) : BitVec 384 := smGet mr0 s.cellar.mrs i
/-- MRi := SHA-384(MRi ‖ D). -/
def extendMr (i : Nat) (d : List Byte) (s : State) : State :=
  let v := sha384 (bytesOfNat (mrOf s i).toNat 48 ++ d)
  { s with cellar := { s.cellar with mrs := smPut mr0 s.cellar.mrs i (BitVec.ofNat 384 (natOfBytes v)) } }
def mrExtOff (k : Nat) : Nat := 0x8000400 + 4 * k
/-- `CEL_MR_CMD`. -/
def celMrCmd (v : Word32) (s : State) : Nat × State :=
  if fld v 31 4 ≠ 0 then (stRsvd, s)
  else (stOk, extendMr (fld v 3 0) ((List.range 12).flatMap fun k => bytesOfNat (reg s (mrExtOff k)).toNat 4) s)
def celStat (s : State) : Nat :=
  s.cellar.life.toNat * 2 ^ 31 + s.cellar.active * 64 + s.cellar.standby * 16 + s.cellar.pairsUp.toNat

/-! ### The Page Ownership Table (R464, R468) -/

def potBase (s : State) : Nat := reg64 s 0x8000010
/-- Does the range of a translation meet [`lo`, `hi`)? -/
def meets (lo hi a n : Nat) : Bool := decide (a < hi ∧ lo < a + n)
def purgeTlbs (lo hi : Nat) (t : Tlbs) : Tlbs :=
  let keep (x : TlbSlot) : Bool := !meets lo hi x.pa x.size
  { itlb := t.itlb.filter keep, dtlb := t.dtlb.filter keep, l2tlb := t.l2tlb.filter fun e => keep e.2,
    walk := t.walk.filter fun w => !(meets lo hi w.entryAddr 8 || meets lo hi w.table 4096) }
/-- Every slot, walk-cache entry and IOTLB entry whose physical range or table address meets the range leaves. -/
def purgeRange (lo hi : Nat) (s : State) : State :=
  let p := s.pcie
  let io := p.iotlb.map fun e => (e.1, e.2.filter fun x => !meets lo hi x.pa x.size)
  let ptr := p.ioptr.map fun e => (e.1, e.2.filter fun w => !(meets lo hi w.entryAddr 8 || meets lo hi w.table 4096))
  let p1 : Pcie := { p with iotlb := io.filter fun e => decide (e.2 ≠ []), ioptr := ptr.filter fun e => decide (e.2 ≠ []) }
  { s with cores := s.cores.map fun e => (e.1, { e.2 with tlbs := purgeTlbs lo hi e.2.tlbs }), pcie := p1 }
/-- The table lies inside the cellar region. -/
def potInside (s : State) : Bool :=
  decide (reg64 s 0x8000020 ≤ potBase s ∧ potBase s + (reg s 0x8000018).toNat * 32768 ≤ reg64 s 0x8000028 + 1)
/-- `CEL_POT_SYNC` (R468): the removal starts, and the registers of R476 run from now on. -/
def celPotSync (v : Word32) (s : State) : Nat × State :=
  let n := fld v 20 0
  match firstCode (codeIf (fld v 31 21 != 0) stRsvd ++ codeIf (n == 0 || decide (2 ^ 20 < n) || !potInside s) stRange ++
      codeIf s.cellar.sync.isSome stBusy) with
  | 0 =>
    let base := reg64 s 0x8000040 / 4096 * 4096
    let s1 := purgeRange base (base + 4096 * n) s
    (stOk, { s1 with cellar := { s1.cellar with potStarted := true, sync := some { base := base, pages := n } } })
  | c => (c, s)
def potSyncDone (s : State) : State := { s with cellar := { s.cellar with sync := none } }
/-- A nibble of the table (R464). -/
def putNibble (p code b : Nat) : Nat := if p % 2 = 0 then b / 16 * 16 + code else b % 16 + 16 * code
/-- New codes for `n` pages from `pa` on, and the sync that follows them (R468). The call waits for its end. -/
def setCodes (pa n code : Nat) (s : State) : State :=
  let p := (pa - slotOf s * 2 ^ 44) / 4096
  let lo := p / 2
  let bs := readBytes s (potBase s + lo) ((p + n + 1) / 2 - lo)
  let new := bs.zipIdx.map fun x =>
    let q := 2 * (lo + x.2)
    let b1 := if p ≤ q ∧ q < p + n then putNibble q code x.1.toNat else x.1.toNat
    BitVec.ofNat 8 (if p ≤ q + 1 ∧ q + 1 < p + n then putNibble (q + 1) code b1 else b1)
  let s1 := purgeRange pa (pa + 4096 * n) (keeperWrite (potBase s + lo) new s)
  let s2 := setReg 0x8000044 (BitVec.ofNat 32 (pa / 2 ^ 32)) (setReg 0x8000040 (BitVec.ofNat 32 pa) s1)
  { s2 with cellar := { s2.cellar with potStarted := true } }

/-- Do `n` bytes lie wholly on backed pages of this code (R463)? -/
def pagesCoded (s : State) (pa n code : Nat) : Bool :=
  (List.range ((pa + n + 4095) / 4096 - pa / 4096)).all fun i =>
    let a := (pa / 4096 + i) * 4096
    isMemory a && backed s a && ownerCode s a == code

/-! ### Keeper services (R463) -/

/-- What a function answers: a status, and a result where it has one. [DEDUCED, log entry 69] -/
abbrev Served := Nat × Option Nat × State

/-- The call of core `lc` at K with a gate open is served: status in g1, a result in g2, Z. The core stays at K until its
`GATERET`. [DEDUCED, log entry 69] -/
def service (fn : Nat) (lc : LC) (body : (Nat → Nat) → State → Served) (s : State) : State :=
  let c := coreOf s lc
  let g (i : Nat) : Nat := (smGet word0 c.regs.g i).toNat
  if levelOf c.regs = 2 ∧ c.gate.isOpen ∧ c.standing = .issuing ∧ g 1 % 65536 = fn then
    let r : Served :=
      if c.gate.level = 0 then (stPriv, none, s) else if 65536 ≤ g 1 then (stRsvd, none, s) else body g s
    updCore lc (fun x =>
      let r1 := writeG x.regs 1 (BitVec.ofNat 64 r.1)
      let r2 := match r.2.1 with | some v => if r.1 = stOk then writeG r1 2 (BitVec.ofNat 64 v) else r1 | none => r1
      { x with regs := { r2 with flags := { r2.flags with z := decide (r.1 = stOk) } } }) r.2.2
  else s
/-- The functions of R463. -/
def serviceNumbers : List Nat :=
  [0, 1, 2, 3, 0x100, 0x101, 0x102, 0x103, 0x104, 0x200, 0x201, 0x300, 0x301, 0x302, 0x401, 0x402, 0x403, 0x500, 0x501, 0x502, 0x503, 0x504]
/-- The function that core `lc` names. -/
def calledFn (lc : LC) (s : State) : Nat := (smGet word0 (coreOf s lc).regs.g 1).toNat % 65536
/-- A function without a result. -/
def plain (r : Nat × State) : Served := (r.1, none, r.2)

/-- The certificate digest and issuer identifier of a quote: the digest first, then the issuer (R472). -/
def certBytes (s : State) : List Byte := sha384 s.cellar.cert
def verWord (s : State) (k : Nat) : Nat := (mainVer s k).toNat
/-- The 1,024 bytes of a quote (R472); `issuer` the 114 bytes of the issuer identifier. [DESIGN CHOICE, log entry 18] -/
def quote (s : State) (nonce issuer : List Byte) : List Byte :=
  bytesOfNat sysId 4 ++ bytesOfNat s.cellar.serial.toNat 4 ++ bytesOfNat s.cellar.keeperVer.toNat 4 ++
    ((List.range 6).flatMap fun k => bytesOfNat (verWord s k) 4) ++ bytesOfNat (nowNs s) 8 ++ nonce ++
    ((List.range 16).flatMap fun i => bytesOfNat (mrOf s i).toNat 48) ++ certBytes s ++ issuer ++
    [BitVec.ofNat 8 s.dbg.level, if s.cellar.life then 1 else 0]
/-- `ATTEST_QUOTE`; the signature is open. -/
def attestQuote (a : Nat → Nat) (s : State) : Served :=
  let sig := if a 4 = 0 then 4627 else 96
  if 1 < a 4 ∨ !pagesCoded s (a 2) 48 0 ∨ !pagesCoded s (a 3) (1024 + sig) 0 then (stRange, none, s)
  else
    let n := keeperRead (a 2) 48 s
    let iss := drawBytes 114 n.2.2
    let sg := drawBytes sig iss.2
    (stOk, none, keeperWrite (a 3) (quote iss.2 n.1 iss.1 ++ sg.1) sg.2)
/-- `MEASURE_EXTEND`. -/
def measureExtend (a : Nat → Nat) (s : State) : Served :=
  if a 2 < 8 ∨ 15 < a 2 ∨ !pagesCoded s (a 3) 48 0 then (stRange, none, s)
  else
    let d := keeperRead (a 3) 48 s
    (stOk, none, extendMr (a 2) d.1 d.2.2)
/-- `ATTEST_CERT`. -/
def attestCert (a : Nat → Nat) (s : State) : Served :=
  let n := s.cellar.cert.length
  if a 3 < n ∨ !pagesCoded s (a 2) (a 3) 0 then (stRange, none, s) else (stOk, some n, keeperWrite (a 2) s.cellar.cert s)
/-- The pages the two ring services take: page-aligned, of the own slot's window, whose table the device holds (R464, R468). DEDUCED: a page of
another slot has no code here and is refused. [DEDUCED, log entry 71] -/
def ringArgs (a : Nat → Nat) (code : Nat) (s : State) : Bool :=
  decide (1 ≤ a 3 ∧ a 3 ≤ 2 ^ 20 ∧ a 2 % 4096 = 0 ∧ a 2 / 2 ^ 44 = slotOf s) && pagesCoded s (a 2) (4096 * a 3) code
/-- `SO_RING_RESERVE`. -/
def ringReserve (a : Nat → Nat) (s : State) : Served :=
  if !ringArgs a 0 s then (stRange, none, s)
  else (stOk, none, setCodes (a 2) (a 3) 3 s)
/-- Does a queue's ring or the dead-letter ring use a page of the range? -/
def ringsUse (s : State) (lo hi : Nat) : Bool :=
  (s.office.queues.any fun e => decide (e.2.state ≠ .free) && ringRoom e.2 != 0 && meets lo hi (ringBase e.2) (64 * ringRoom e.2)) ||
    (s.office.running && meets lo hi (dlrBase s) (2 ^ dlrLog2 s * 128))
/-- `SO_RING_RELEASE`: zeroed first (R469). -/
def ringRelease (a : Nat → Nat) (s : State) : Served :=
  if !ringArgs a 3 s then (stRange, none, s)
  else if ringsUse s (a 2) (a 2 + 4096 * a 3) then (stBusy, none, s)
  else (stOk, none, setCodes (a 2) (a 3) 0 (zeroBytes (a 2) (4096 * a 3) s))
/-- `SO_DLR_SHARE` (R466). -/
def dlrShare (s : State) : Served :=
  if !s.office.running then (stBusy, none, s)
  else
    let lim := dlrBase s + 2 ^ dlrLog2 s * 128 - 1
    let put (off v : Nat) (x : State) : State := setReg (off + 4) (BitVec.ofNat 32 (v / 2 ^ 32)) (setReg off (BitVec.ofNat 32 v) x)
    (stOk, none, put 0x8000058 lim (put 0x8000050 (dlrBase s) s))

/-! ### The cache service (09 R237) -/

def cacheOk (s : State) (a : Nat → Nat) : Bool := bound s (a 2)
/-- A cache frozen: every line valid and clean, with its own content (09 R235). -/
def freezeTbl (s : State) (t : SMap (Option L2Line)) : SMap (Option L2Line) :=
  t.map fun e => (e.1, e.2.map fun l => { l with st := .s, stale := some (l.stale.getD (readLine s l.line)) })
/-- What an L2 holds newer than memory is written there before it is disabled. -/
def writeBackL2 (pc : Nat) (s : State) : State :=
  (linesIn (priv s pc).l2 (BitVec.allOnes 16)).foldl (fun a l => exposeStale l.line (if l.st = .m ∨ l.st = .o then l.stale else none) a) s
/-- `CACHE_QUERY`. -/
def cacheQuery (a : Nat → Nat) (s : State) : Served :=
  if !cacheOk s a then (stRange, none, s)
  else
    let c := coreOf s (a 2)
    (stOk, some (c.enableL1I.toNat + 2 * c.enableL1D.toNat + 4 * c.enableL2.toNat + 256 * l2SpWays s (a 2) +
      65536 * healthyWays (priv s (pcOf s (a 2))).retired), s)
def maskBad (a : Nat → Nat) : Bool := decide (7 < a 3)
/-- `CACHE_DISABLE`: disabling the L2 disables both L1s. [DEDUCED, log entry 71] -/
def cacheDisable (a : Nat → Nat) (s : State) : Served :=
  if maskBad a then (stRsvd, none, s)
  else if !cacheOk s a then (stRange, none, s)
  else
    let m := if (a 3).testBit 2 then 7 else a 3
    let c := coreOf s (a 2)
    let pc := pcOf s (a 2)
    let s1 := if m.testBit 2 && c.enableL2 then writeBackL2 pc s else s
    let p := priv s1 pc
    let p1 : PrivCaches := { p with
      l1i := if m.testBit 0 && c.enableL1I then freezeTbl s1 p.l1i else p.l1i
      l1d := if m.testBit 1 && c.enableL1D then freezeTbl s1 p.l1d else p.l1d
      l2 := if m.testBit 2 && c.enableL2 then freezeTbl s1 p.l2 else p.l2 }
    (stOk, none, updCore (a 2) (fun x => { x with enableL1I := x.enableL1I && !m.testBit 0, enableL1D := x.enableL1D && !m.testBit 1,
                                                  enableL2 := x.enableL2 && !m.testBit 2 }) (setPriv pc p1 s1))
/-- `CACHE_ENABLE`: lines that were not invalidated are hit with the content they have (09 R236). [DEDUCED, log entry 71] -/
def cacheEnable (a : Nat → Nat) (s : State) : Served :=
  let c := coreOf s (a 2)
  if maskBad a then (stRsvd, none, s)
  else if !cacheOk s a ∨ ((a 3 % 4 ≠ 0) ∧ !c.enableL2 ∧ !(a 3).testBit 2) then (stRange, none, s)
  else
    let m := a 3
    (stOk, none, updCore (a 2) (fun x => { x with enableL1I := x.enableL1I || m.testBit 0, enableL1D := x.enableL1D || m.testBit 1,
                                                  enableL2 := x.enableL2 || m.testBit 2 }) s)
/-- `CACHE_INVAL_ALL` (09 R236). [DEDUCED, log entry 71] -/
def cacheInvalAll (a : Nat → Nat) (s : State) : Served :=
  let c := coreOf s (a 2)
  let m := a 3
  if maskBad a then (stRsvd, none, s)
  else if !cacheOk s a then (stRange, none, s)
  else if (m.testBit 0 && c.enableL1I) || (m.testBit 1 && c.enableL1D) || (m.testBit 2 && c.enableL2) then (stRunning, none, s)
  else
    let pc := pcOf s (a 2)
    let p := priv s pc
    (stOk, none, setPriv pc { p with l1i := if m.testBit 0 then [] else p.l1i, l1d := if m.testBit 1 then [] else p.l1d,
                                     l2 := if m.testBit 2 then [] else p.l2 } s)
/-- `L2_SP_SET` (09 R239, R240). [DEDUCED, log entry 71] -/
def l2SpSet (a : Nat → Nat) (s : State) : Served :=
  let pc := pcOf s (a 2)
  let p := priv s pc
  let k := a 3
  let j := countOnes p.spMask 16
  if !cacheOk s a ∨ 8 < k ∨ healthyWays p.retired < k then (stRange, none, s)
  else if k ≤ j then
    (stOk, none, zeroBytes (l2Aperture s (a 2) + k * 0x10000) ((j - k) * 0x10000) (setPriv pc { p with spMask := fewerSp p.spMask (j - k) } s))
  else
    let m := moreSp p.retired p.spMask (k - j)
    let s1 := (linesIn p.l2 m).foldl (fun x l => flushL2 pc l x) s
    let s2 := setPriv pc { priv s1 pc with spMask := m } s1
    (stOk, none, zeroBytes (l2Aperture s (a 2) + j * 0x10000) ((k - j) * 0x10000) s2)

/-! ### The memory service (11 R279, R294) -/

/-- Where the DDR reserve begins: it is the top of the window's DDR. -/
def reserveBase (s : State) : Nat := slotOf s * 2 ^ 44 + ddrBase + s.mem.ddrGib * 2 ^ 30 - s.mem.reserveTotal * 2 ^ 20
/-- Does any core, or the I/O translation, hold a translation of the open world into the range? -/
def mappedOpen (s : State) (lo hi : Nat) : Bool :=
  (s.pcie.iotlb.any fun e => e.2.any fun t => meets lo hi t.pa t.size) ||
  s.cores.any fun e =>
    let hit (t : TlbSlot) : Bool := !t.world && meets lo hi t.pa t.size
    e.2.tlbs.itlb.any hit || e.2.tlbs.dtlb.any hit || e.2.tlbs.l2tlb.any fun x => hit x.2
/-- `MEM_DDR_GIVE`: a physical range, first byte and length; its pages become the keeper's and join the reserve.
[DESIGN CHOICE, log entry 70] -/
def memDdrGive (a : Nat → Nat) (s : State) : Served :=
  let lo := a 2
  let n := a 3
  if n = 0 ∨ lo % 0x200000 ≠ 0 ∨ n % 0x200000 ≠ 0 ∨ lo + n ≠ reserveBase s ∨ lo < slotOf s * 2 ^ 44 + ddrBase ∨
      !pagesCoded s lo n 0 ∨ mappedOpen s lo (lo + n) then (stRange, none, s)
  else
    let s1 := purgeRange lo (lo + n) s
    let k := n / 2 ^ 20
    (stOk, none, setReserve (s1.mem.reserveTotal + k) (s1.mem.reserveFree + k) s1)

/-! ### Commands -/

def execPotSyncComplete (s : State) : Out := .next (potSyncDone s)
/-- The row also stands for a call of an unknown function (R463). [DEDUCED, log entry 69] -/
def execKeeperVersion (lc : LC) (s : State) : Out :=
  let fn := calledFn lc s
  if serviceNumbers.contains fn then .next (service 0 lc (fun _ s => (stOk, some s.cellar.keeperVer.toNat, s)) s)
  else .next (service fn lc (fun _ s => (stNoreg, none, s)) s)
def execAttestQuote (lc : LC) (s : State) : Out := .next (service 1 lc attestQuote s)
def execMeasureExtend (lc : LC) (s : State) : Out := .next (service 2 lc measureExtend s)
def execAttestCert (lc : LC) (s : State) : Out := .next (service 3 lc attestCert s)
def execCacheQuery (lc : LC) (s : State) : Out := .next (service 0x100 lc cacheQuery s)
def execCacheDisable (lc : LC) (s : State) : Out := .next (service 0x101 lc cacheDisable s)
def execCacheEnable (lc : LC) (s : State) : Out := .next (service 0x102 lc cacheEnable s)
def execCacheInvalAll (lc : LC) (s : State) : Out := .next (service 0x103 lc cacheInvalAll s)
def execL2SpSet (lc : LC) (s : State) : Out := .next (service 0x104 lc l2SpSet s)
def execMemSectorSet (lc : LC) (s : State) : Out := .next (service 0x200 lc (fun a s => plain (memSectorSet (a 2) (a 3) s)) s)
/-- [DESIGN CHOICE, log entry 70] -/
def execMemDdrGive (lc : LC) (s : State) : Out := .next (service 0x201 lc memDdrGive s)
def execSoGrantSet (lc : LC) (s : State) : Out := .next (service 0x300 lc (fun a s => plain (soGrantSet a s)) s)
def execSoRegionSet (lc : LC) (s : State) : Out := .next (service 0x301 lc (fun a s => plain (soRegionSet a s)) s)
def execSoRegionQuery (lc : LC) (s : State) : Out :=
  .next (service 0x302 lc (fun a s => ((soRegionQuery a s).1, some (soRegionQuery a s).2, s)) s)
def execSoRingReserve (lc : LC) (s : State) : Out := .next (service 0x401 lc ringReserve s)
def execSoRingRelease (lc : LC) (s : State) : Out := .next (service 0x402 lc ringRelease s)
def execSoDlrShare (lc : LC) (s : State) : Out := .next (service 0x403 lc (fun _ s => dlrShare s) s)

end Sys2Proof.Machine
end

