-- ==== Sys2Proof/Machine/Seal.lean ====
section
/-! DEFINITION. Sealed storage (19 R474): the key, the records in the two flash copies, opening and resealing. AES-256 (FIPS 197), GCM
(SP 800-38D) and HMAC (FIPS 198) are the published ones. [PRESUMED, log entry 101] -/

namespace Sys2Proof.Machine

/-! ### AES-256 -/

/-- A product in the field of AES, modulo x^8 + x^4 + x^3 + x + 1: `n` bits of `b` are left. -/
def gfMul (a b : Byte) : Nat → Byte
  | 0 => 0
  | n + 1 => (if b.getLsbD 0 then a else 0) ^^^ gfMul ((a <<< 1) ^^^ (if a.getLsbD 7 then 0x1B else 0)) (b >>> 1) n
def gf (a b : Byte) : Byte := gfMul a b 8
/-- The inverse, as the power 254: squares of squares collected. -/
def gfInv (a : Byte) : Byte :=
  let a2 := gf a a
  let a4 := gf a2 a2
  let a8 := gf a4 a4
  let a16 := gf a8 a8
  let a32 := gf a16 a16
  let a64 := gf a32 a32
  gf (gf (gf a2 a4) (gf a8 a16)) (gf a32 (gf a64 (gf a64 a64)))
def subByte (x : Byte) : Byte :=
  let b := gfInv x
  b ^^^ b.rotateLeft 1 ^^^ b.rotateLeft 2 ^^^ b.rotateLeft 3 ^^^ b.rotateLeft 4 ^^^ 0x63
def xorBytes (a b : List Byte) : List Byte := List.zipWith (· ^^^ ·) a b
/-- The 60 words of the key schedule, the last first. -/
def keyWords : Nat → Byte → List (List Byte) → List (List Byte)
  | 0, _, w => w
  | n + 1, rc, w =>
    let i := w.length
    let prev := w.headD []
    let t := if i % 8 = 0 then xorBytes ((prev.rotateLeft 1).map subByte) [rc, 0, 0, 0]
      else if i % 8 = 4 then prev.map subByte
      else prev
    keyWords n (if i % 8 = 0 then gf rc 2 else rc) (xorBytes (w.getD 7 []) t :: w)
def roundKeys (key : List Byte) : List (List Byte) :=
  let first := ((List.range 8).map fun i => (key.drop (4 * i)).take 4).reverse
  let all := (keyWords 52 1 first).reverse
  (List.range 15).map fun r => ((all.drop (4 * r)).take 4).flatten
/-- Byte `i` of a shifted row comes from column `i / 4 + i % 4`. -/
def shiftRows (s : List Byte) : List Byte := (List.range 16).map fun i => s.getD ((i + 4 * (i % 4)) % 16) 0
def mixColumn (c : List Byte) : List Byte :=
  (List.range 4).map fun i =>
    gf 2 (c.getD i 0) ^^^ gf 3 (c.getD ((i + 1) % 4) 0) ^^^ c.getD ((i + 2) % 4) 0 ^^^ c.getD ((i + 3) % 4) 0
def mixColumns (s : List Byte) : List Byte := (List.range 4).flatMap fun j => mixColumn ((s.drop (4 * j)).take 4)
def aesRounds : List (List Byte) → List Byte → List Byte
  | [], s => s
  | [k], s => xorBytes (shiftRows (s.map subByte)) k
  | k :: ks, s => aesRounds ks (xorBytes (mixColumns (shiftRows (s.map subByte))) k)
/-- One block under a key schedule. -/
def aesBlock (ks : List (List Byte)) (b : List Byte) : List Byte := aesRounds ks.tail (xorBytes b (ks.headD []))

/-! ### GCM -/

def beNat (bs : List Byte) : Nat := natOfBytes bs.reverse
def beBytes (n k : Nat) : List Byte := (bytesOfNat n k).reverse
/-- A product of GHASH: bit 127 is the first bit. -/
def ghMul (x y : BitVec 128) : Nat → BitVec 128
  | 0 => 0
  | n + 1 => (if x.getLsbD 127 then y else 0) ^^^
      ghMul (x <<< 1) ((y >>> 1) ^^^ (if y.getLsbD 0 then 0xE1000000000000000000000000000000#128 else 0)) n
/-- Blocks of 16 bytes, the last one filled with zeros. -/
def blocks16 (bs : List Byte) : List (List Byte) :=
  (List.range ((bs.length + 15) / 16)).map fun i => let b := (bs.drop (16 * i)).take 16; b ++ List.replicate (16 - b.length) 0
def ghash (h : BitVec 128) (aad c : List Byte) : BitVec 128 :=
  (blocks16 aad ++ blocks16 c ++ [beBytes (8 * aad.length) 8 ++ beBytes (8 * c.length) 8]).foldl
    (fun y b => ghMul (y ^^^ BitVec.ofNat 128 (beNat b)) h 128) 0
/-- Counter mode from counter 2 on. -/
def gcmText (ks : List (List Byte)) (iv bs : List Byte) : List Byte :=
  ((List.range ((bs.length + 15) / 16)).flatMap fun i => xorBytes ((bs.drop (16 * i)).take 16) (aesBlock ks (iv ++ beBytes (i + 2) 4)))
def gcmTag (ks : List (List Byte)) (iv aad c : List Byte) : List Byte :=
  let h := BitVec.ofNat 128 (beNat (aesBlock ks (List.replicate 16 0)))
  xorBytes (beBytes (ghash h aad c).toNat 16) (aesBlock ks (iv ++ beBytes 1 4))

/-! ### Records (R474) -/

/-- HMAC-SHA-384. -/
def hmac384 (key msg : List Byte) : List Byte :=
  let k := (if 128 < key.length then sha384 key else key)
  let pad (x : Byte) : List Byte := (k ++ List.replicate (128 - k.length) 0).map (· ^^^ x)
  sha384 (pad 0x5C ++ sha384 (pad 0x36 ++ msg))
/-- The key of a keeper security version: HMAC under the fused unique secret of the signing-key digest and the version, its first 32 bytes. -/
def sealKey (version : Nat) : List (List Byte) :=
  roundKeys ((hmac384 Config.uniqueSecret (Config.keeperKeyDigest ++ bytesOfNat version 4)).take 32)
/-- The 16-byte header: the security version that sealed the record, its number, zeros. -/
def sealHeader (version n : Nat) : List Byte := bytesOfNat version 4 ++ bytesOfNat n 4 ++ List.replicate 8 0
/-- Seal a secret under a nonce. -/
def sealRecord (version nonce n : Nat) (secret : List Byte) : SealedRecord :=
  let ks := sealKey version
  let iv := bytesOfNat nonce 12
  let h := sealHeader version n
  let c := gcmText ks iv secret
  { nonce := iv, header := h, cipher := c, tag := gcmTag ks iv h c }
/-- Open a record as a keeper of a security version: none where its tag fails, or where a higher version sealed it. -/
def openRecord (version : Nat) (r : SealedRecord) : Option (List Byte) :=
  let v := natOfBytes (r.header.take 4)
  let ks := sealKey v
  if v ≤ version ∧ r.nonce.length = 12 ∧ gcmTag ks r.nonce r.header r.cipher = r.tag then some (gcmText ks r.nonce r.cipher) else none
def noRecords (_ : Nat) : List SealedRecord := []
/-- What the two flash copies give for record `n`, the copy that ORDER names first read first (26 R611). -/
def openEither (s : State) (copies : SMap (List SealedRecord)) (n : Nat) : Option (List Byte) :=
  let first := if rfld s 0x48 1 0 = 1 then 1 else 0
  let at_ (c : Nat) : Option (List Byte) := ((smGet noRecords copies c)[n]?).bind (openRecord s.cellar.keeperSec)
  (at_ first).orElse fun _ => at_ (1 - first)
/-- Seal every secret anew into a copy, each under a nonce not used before. -/
def sealAll (s : State) : State :=
  let rs := s.cellar.secrets.zipIdx.map fun x => sealRecord s.cellar.keeperSec (s.cellar.nonce + x.2) x.2 x.1
  { s with cellar := { s.cellar with nonce := s.cellar.nonce + rs.length, sealed := smPut noRecords (smPut noRecords s.cellar.sealed 0 rs) 1 rs } }
/-- At boot the keeper opens the records that the flash copies hold; one whose tag fails in both is discarded and logged. Records that a lower
version sealed stay until both copies hold this keeper (21 R511). -/
def openSealed (copies : SMap (List SealedRecord)) (s : State) : State :=
  let n := max (smGet noRecords copies 0).length (smGet noRecords copies 1).length
  let bad := (List.range n).filter fun i => (openEither s copies i).isNone
  let s1 := bad.foldl (fun a i => logFault 0x402 5 uDevice none 0 i a) s
  let keep (c : Nat) : List SealedRecord := ((smGet noRecords copies c).zipIdx.filter fun x => !bad.contains x.2).map fun x => x.1
  let used := ((smGet noRecords copies 0 ++ smGet noRecords copies 1).map fun r => natOfBytes r.nonce + 1).foldl max s1.cellar.nonce
  { s1 with cellar := { s1.cellar with
      nonce := used,
      secrets := (List.range n).filterMap (openEither s copies),
      sealed := smPut noRecords (smPut noRecords [] 0 (keep 0)) 1 (keep 1) } }

end Sys2Proof.Machine
end

