-- ==== Sys2Proof/Machine/Resil.lean ====
section
/-! DEFINITION. Retry, relocation, leases, census, service pairs, the spare horizon (20). -/

namespace Sys2Proof.Machine

/-! ### The core map (01 R16 to R20) -/

def physDef (_ : Nat) : PhysCore := {}
def phys (s : State) (pc : Nat) : PhysCore := smGet physDef s.resil.cores pc
def setPhys (pc : Nat) (x : PhysCore) (s : State) : State := { s with resil := { s.resil with cores := smPut physDef s.resil.cores pc x } }
/-- A core island with its L2 sub-island. -/
def setCoreIsland (pc : Nat) (x : IslandState) (s : State) : State := setIsland (l2Island pc) x (setIsland pc x s)
/-- Physical cores that are bound or taken by a relocation. -/
def pcsInUse (s : State) : List Nat :=
  ((List.range s.resil.bound).map (pcOf s)) ++ (s.resil.relocs.flatMap fun r => [r.fromPc, r.toPc])
/-- The spare for a logical core: of its tile, else of the lowest other tile that has one (01 R19). `ver` asks for a version (21 R507). -/
def chooseSpare (s : State) (lc : Nat) (ver : Option Word32) : Option Nat :=
  let t := pcOf s lc / 72
  let used := pcsInUse s
  let order := ((List.range 72).map fun i => 72 * t + i) ++ (List.range 576).filter fun pc => pc / 72 != t
  order.find? fun pc => (phys s pc).good && (phys s pc).service && !used.contains pc &&
    (match ver with | some v => (phys s pc).version == v | none => true)
def sparesLeft (s : State) : List Nat :=
  let used := pcsInUse s
  (List.range 576).filter fun pc => (phys s pc).good && (phys s pc).service && !used.contains pc
def gen0 (_ : Nat) : BitVec 8 := 0
/-- `SYS_LCLOCn` (01 R18, R20). -/
def lclocWord (s : State) (lc : Nat) : Nat :=
  if bound s lc then (smGet gen0 s.resil.gens lc).toNat * 2 ^ 24 + (moving s lc).toNat * 2 ^ 16 + pcOf s lc / 72 else 0

/-! ### Retry and relocation (R479 to R487) -/

/-- The core CSRs a member of a group can write: `PKR`, `CSR_UAWIN` (08 R216) and `FPCSR` (05 R132). What events and counters wrote
in the others meanwhile stands. -/
def undoCsrs (snap now : Regs) : Regs :=
  [0x002, 0x040, 0x4C4].foldl (fun r n => setCsr r n (csr snap n)) { snap with csr := now.csr }
/-- Roll the open group back: the registers at its first load, no shadow open, the calls and returns predicted in it forgotten (04
R106, 20 R479, 03 R86). -/
def rollbackCore (c : Core) : Core :=
  match c.group with
  | none => c
  | some g => { c with regs := undoCsrs g.snap c.regs, pc := g.firstPc, group := none, shadows := [], mmioWait := false, overlay := [], unpushed := [], missed := [],
                       retStack := c.retStack.map fun e => { e with taken := none } }
def rollback (lc : Nat) (s : State) : State := freeSlots lc (updCore lc rollbackCore s)

/-- The open group is discarded (R483), unless its deferred accesses are being performed: their results are kept and delivered on the new
core (R484). -/
def dropGroup (lc : Nat) (s : State) : State := if (coreOf s lc).mmioWait then s else rollback lc s
def setMoving (lc : Nat) (b : Bool) (s : State) : State := { s with resil := { s.resil with moving := smPut boolDef s.resil.moving lc b } }
/-- A trigger starts the relocation of a logical core (R481, R482); a failed one pauses at once, its open group discarded (R483). With
no spare the core is fenced and the device enters CONTAIN (R487). -/
def startReloc (lc trigger : Nat) (healthy : Bool) (ver : Option Word32) (s : State) : State :=
  if !bound s lc ∨ moving s lc ∨ (coreOf s lc).standing = .fenced then s
  else match chooseSpare s lc ver with
    | none =>
      if trigger = 6 then s
      else
        let s1 := updCore lc (fun c => { c with standing := .fenced }) (dropGroup lc s)
        enterContain containCores (fenceUnit (uCore (pcOf s lc)) trigger s1)
    | some pc =>
      let r : Relocation := { lc := lc, fromPc := pcOf s lc, toPc := pc, trigger := trigger, start := if healthy then none else some (nowNs s) }
      let s1 := setMoving lc true (setCoreIsland pc .active { s with resil := { s.resil with relocs := s.resil.relocs ++ [r] } })
      if healthy then updCore lc (fun c => { c with drainReq := true }) s1
      else updCore lc (fun c => { c with paused := true, wait := none }) (dropGroup lc s1)

def relocOf (s : State) (lc : Nat) : Option Relocation := s.resil.relocs.find? fun r => r.lc == lc && r.pause.isNone
def putReloc (r r' : Relocation) (s : State) : State := { s with resil := { s.resil with relocs := s.resil.relocs.replace r r' } }
/-- The core takes the drain at a group boundary (R482 step 2). -/
def relocDrain (lc : Nat) (s : State) : State :=
  match relocOf s lc with
  | some r =>
    if (coreOf s lc).group.isNone && (coreOf s lc).shadows.isEmpty && r.start.isNone then
      putReloc r { r with start := some (nowNs s) } (updCore lc (fun c => { c with paused := true, drainReq := false, wait := none }) s)
    else s
  | none => s
/-- The scratchpad ways a core carries to a new L2 (R482 step 4). -/
def carrySp (fromPc toPc : Nat) (s : State) : State :=
  let n := countOnes (priv s fromPc).spMask 16
  let s1 := setPriv fromPc { priv s fromPc with spMask := 0 } s
  setPriv toPc { priv s1 toPc with spMask := moreSp (priv s1 toPc).retired 0 n } s1
/-- The version a roll of store 0 loads now (21 R507, R510). -/
def rollVersion (s : State) : Option Word32 :=
  match s.live.roll with
  | some r => if r.store = 0 then some (if r.aborting then r.oldVersion else r.version) else none
  | none => none
/-- The control stores of 06 R164, by store code: instances, ROM words, word width, patch words, patch banks, match entries. -/
structure StoreShape where
  instances : Nat
  rom : Nat
  width : Nat
  patch : Nat
  banks : Nat
  entries : Nat
def storeShapes : List StoreShape :=
  [⟨576, 8192, 96, 1024, 1, 64⟩, ⟨8, 4096, 128, 512, 2, 32⟩, ⟨8, 2048, 64, 256, 2, 16⟩, ⟨1, 4096, 48, 512, 2, 32⟩, ⟨8, 2048, 64, 256, 2, 16⟩,
   ⟨8, 2048, 64, 256, 2, 16⟩]
def storeShape (k : Nat) : StoreShape := storeShapes.getD k ⟨0, 0, 0, 0, 0, 0⟩
def microDef (_ : Nat) : MicroStore := {}
def microOf (s : State) (k n : Nat) : MicroStore := smGet microDef s.live.stores (1024 * k + n)
def setMicro (k n : Nat) (m : MicroStore) (s : State) : State := { s with live := { s.live with stores := smPut microDef s.live.stores (1024 * k + n) m } }
def noImage (_ : Nat) : Option Image := none
/-- Load a patch, or nothing, into the idle bank of a sequencer, and change banks and match tables together (06 R167); a store of one bank loads
that bank. The bank that ran keeps its patch. -/
def loadBank (k n : Nat) (im : Option Image) (s : State) : State :=
  let m := microOf s k n
  let b := if (storeShape k).banks = 2 then 1 - m.active else 0
  setMicro k n { active := b, banks := smPut noImage m.banks b im } s
/-- The image a roll loads now: the submitted one, or, in a reversal, the one in service before. -/
def rollImage (s : State) (r : Roll) : Option Image :=
  if r.aborting then smGet noImage s.live.inService r.store else smGet noImage s.live.images r.store
/-- A core's sequencer is loaded while its physical core runs no logical core (06 R167). -/
def loadPatch (pc : Nat) (s : State) : State :=
  match s.live.roll, rollVersion s with
  | some r, some v => loadBank 0 pc (rollImage s r) (setPhys pc { phys s pc with version := v } s)
  | _, _ => s
/-- Detection row 3 of 20 R477: a double-bit error in a core's control store (06 R166), at a word the model leaves open; twice in a patched
instance within a roll, the keeper reverses the roll (21 R510). [DESIGN CHOICE, log entry 100] -/
def microError (pc : Nat) (s : State) : State :=
  let d := drawWord s
  let words := (storeShape 0).rom + (storeShape 0).patch
  let s1 := bump 0x7000094 (logFault 4 1 (uCore pc) none 0 (d.1.toNat % words) d.2)
  match s1.live.roll, rollVersion s1 with
  | some r, some v =>
    if r.store = 0 ∧ !r.aborting ∧ (phys s1 pc).version = v then
      if r.eccs.contains pc then
        logFault 0x401 5 uDevice none 16 0 { s1 with live := { s1.live with roll := some { r with aborting := true } } }
      else { s1 with live := { s1.live with roll := some { r with eccs := pc :: r.eccs } } }
    else s1
  | _, _ => s1
/-- The image is in place: the map, GEN and the selection change on one edge, and the core issues on the spare with its translation
and prediction structures empty (R482 steps 5 and 6). [DEDUCED, log entry 73; DEDUCED, log entry 74] -/
def relocResume (lc : Nat) (s : State) : State :=
  match relocOf s lc with
  | some r =>
    match r.start with
    | some t0 =>
      let rs := s.resil
      let s1 : State := { s with resil := { rs with
        lcMap := smPut lcMapDef rs.lcMap lc (some r.toPc), gens := smPut gen0 rs.gens lc (smGet gen0 rs.gens lc + 1) } }
      let s2 := carrySp r.fromPc r.toPc (setMoving lc false (putReloc r { r with pause := some (nowNs s - t0) } s1))
      let s3 := updCore lc (fun c => { c with paused := false, drainReq := false, tlbs := {}, retStack := [], overlay := [], unpushed := [], missed := [], itt := [],
                                              predSeq := 0, retryRun := 0, retries := [] }) s2
      let s4 := setPriv r.fromPc { priv s3 r.fromPc with l1i := [], l1d := [] } s3
      pulse 145 (bump 0x6000048 (loadPatch r.fromPc (ackTargets (fun n => n == lc) s4)))
    | none => s
  | none => s
/-- The old L2 is empty: its core becomes a spare again, or leaves service where it was the cause (R482, R486). [DEDUCED, log entry 73] -/
def writebackDone (pc : Nat) (s : State) : State :=
  match s.resil.relocs.find? fun r => r.fromPc == pc && r.pause.isSome with
  | some r =>
    let s1 := (((priv s pc).l2.filterMap fun e => e.2).foldl (fun a l => evictNow pc l a) s)
    let s2 : State := { s1 with resil := { s1.resil with relocs := s1.resil.relocs.erase r } }
    let arg := r.toPc + r.fromPc * 2 ^ 16 + r.trigger * 2 ^ 32
    let s3 := setCoreIsland pc .offState (logFault 3 1 (uCore pc) (some r.lc) arg (r.pause.getD 0) s2)
    if r.trigger = 6 then s3 else useSpare 0 (setPhys pc { phys s3 pc with service := false } s3)
  | none => s

/-- A retry (R479, R480): the group rolled back, or nothing where none is open; three of one group in succession, or sixteen within a
second, relocate the core. A group whose deferred accesses are being performed is past its retry (04 R109). `row` is the detection row of R477. [DEDUCED, log entry 75] -/
def retryGroup (lc row : Nat) (s : State) : State :=
  if !bound s lc ∨ (coreOf s lc).paused ∨ (coreOf s lc).mmioWait then s
  else
    let pc0 := (rollbackCore (coreOf s lc)).pc
    let s0 := rollback lc s
    let s1 := bump 0x6000040 (logFault 1 0 (uCore (pcOf s lc)) (some lc) pc0.toNat row (if row = 3 then microError (pcOf s lc) s0 else s0))
    let now := nowNs s
    let run := if (coreOf s lc).group.isSome then (coreOf s lc).retryRun + 1 else (coreOf s lc).retryRun
    let times := now :: ((coreOf s lc).retries.filter fun t => decide (now < t + second))
    let s2 := updCore lc (fun c => { c with retries := times, retryRun := run }) s1
    if 3 ≤ run ∨ 16 ≤ times.length then startReloc lc 0 true none s2 else s2

/-- Four heartbeats missed (R481). The record names the PC of the first instruction that has not committed: no register keeps that of the last
that has. [DEDUCED, log entry 74] -/
def heartbeatLost (pc : Nat) (s : State) : State :=
  match lcOfPc s pc with
  | some lc =>
    if bound s lc then
      startReloc lc 3 false none (logFault 2 2 (uCore pc) (some lc) (rollbackCore (coreOf s lc)).pc.toNat 0 s)
    else s
  | none => s
/-- What an error in a core's arrays leads to (09 R243, R245): relocation for L1 parity or an L2 below its floor. -/
def afterArray (pc : Nat) (s : State) : State :=
  match lcOfPc s pc with
  | some lc =>
    let recent (l : List Nat) : Nat := (l.filter fun t => decide (nowNs s < t + dayNs)).length
    if healthyWays (priv s pc).retired < 12 then startReloc lc 2 true none s
    else if 8 ≤ recent (priv s pc).l1iParity ∨ 8 ≤ recent (priv s pc).l1dParity then startReloc lc 1 true none s
    else s
  | none => s
/-- A bridge treats its far side as absent (01 R24); a silent core is relocated (R481). -/
def bridgeLate (near far : Nat) (s : State) : State :=
  let s1 := logFault 0xC 1 far none near far { s with resil := { s.resil with silent := far :: s.resil.silent.erase far } }
  if far / 2 ^ 24 ≤ 1 then
    match lcOfPc s (far % 2 ^ 24) with
    | some lc => startReloc lc 4 false none (ackTargets (fun n => n == lc) s1)
    | none => s1
  else s1

/-- The worker pair answers a snoop for a failed L2 from its drain port; `bad` says the line cannot be corrected (R486). -/
def proxiedSnoop (pc line : Nat) (bad : Bool) (s : State) : State :=
  match s.mem.homeQ.find? fun q => q.line == line && q.served && q.pending.any fun x => x.1 == pc with
  | some q =>
    match q.pending.find? fun x => x.1 == pc with
    | some (_, k) =>
      let s1 := answerArrives pc line (deliverSnoop k pc line s)
      if bad then poisonLine line s1 else s1
    | none => s
  | none => s

/-! ### Leases (R489, R490) -/

/-- [DESIGN CHOICE, log entry 76] -/
def noteRevoke (kind n : Nat) (lc : Nat) (s : State) : State :=
  pulse 150 (bump 0x6000050 (logFault 0x502 1 (uCore (pcOf s lc)) (some lc) kind n s))
/-- Revoke a lease (the rows of the table *Leases*, from 0): a queue's consumer lease of a fenced core, a home transit entry, an L2
transit buffer entry. The two results that are kept until acknowledged are always delivered here. [DESIGN CHOICE, log entry 76] -/
def leaseRevoke (kind lc n : Nat) (s : State) : State :=
  match kind with
  | 0 =>
    if (queueOf s n).lease = some lc ∧ (coreOf s lc).standing = .fenced then
      noteRevoke 0 n lc (setQueue n { queueOf s n with lease := none } s)
    else s
  | 3 =>
    if s.mem.homeQ.any fun q => q.line == n && q.timedOut && q.pending.any fun x => x.1 == pcOf s lc then
      noteRevoke 3 (64 * n) lc (proxiedSnoop (pcOf s lc) n false s)
    else s
  | 4 => if (transitOf s (pcOf s lc) n).isSome then noteRevoke 4 (64 * n) lc (freeTransit (pcOf s lc) n s) else s
  | _ => s

/-! ### Service pairs (R494) -/

def pairUp (s : State) (k : Nat) : Bool := s.cellar.pairsUp.getLsbD k
/-- The lowest pair in service beside `k`, or `k` itself where it is the only one. [DEDUCED, log entry 74] -/
def otherPair (up : BitVec 4) (k : Nat) : Nat := ((List.range 4).find? fun j => up.getLsbD j && j != k).getD k
/-- The active and the standby pair once only the pairs `up` serve: the standby replaces a lost active keeper, another pair a lost standby;
the last pair takes every role. [DEDUCED, log entry 74] -/
def pairRoles (up : BitVec 4) (active standby : Nat) : Nat × Nat :=
  let a := if up.getLsbD active then active else if up.getLsbD standby then standby else otherPair up active
  (a, if up.getLsbD standby && standby != a then standby else otherPair up a)
/-- A pair leaves service and its roles move; with one pair left, CONTAIN. -/
def pairLost (k : Nat) (s : State) : State :=
  if !pairUp s k then s
  else
    let c := s.cellar
    let up := c.pairsUp &&& ~~~(BitVec.ofNat 4 (2 ^ k))
    let roles := pairRoles up c.active c.standby
    let c1 : Cellar := { c with pairsUp := up, active := roles.1, standby := roles.2 }
    let s1 := useSpare 9 (logFault 0x405 2 (uPair k) none k 0 { s with cellar := c1 })
    if countOnes up 4 ≤ 1 then enterContain containPair s1 else s1
/-- A lockstep mismatch, or both members stopping together (`silent`); `released` says outputs of the step were out. [DEDUCED, log entry 74] -/
def pairStops (k : Nat) (silent released : Bool) (s : State) : State :=
  if !pairUp s k then s
  else
    let s1 : State := { s with resil := { s.resil with testing := k :: s.resil.testing.erase k } }
    if silent then (if released then enterContain containPair s1 else s1) else logFault 0x404 1 (uPair k) none k 0 s1
def pairTested (k : Nat) (ok : Bool) (s : State) : State :=
  if s.resil.testing.contains k then
    let s1 : State := { s with resil := { s.resil with testing := s.resil.testing.erase k } }
    if ok then s1 else pairLost k s1
  else s

/-! ### Census (R491 to R493) -/

def unfence (unit : Nat) (s : State) : State := { s with resil := { s.resil with fencedUnits := s.resil.fencedUnits.erase unit } }
/-- The pipeline that takes over from `p`: the next of its tile that is in service (R493). [DEDUCED, log entry 74] -/
def taker (s : State) (p : Nat) : Option Nat :=
  ((List.range 3).map fun i => p / 4 * 4 + (p + 1 + i) % 4).find? fun q => !sopOut s q
/-- One copy of a home node's duplicate logic is lost: the other goes on alone (R492); without the other, the home is fenced. -/
def copyLost (n copy : Nat) (s : State) : State :=
  let x := slice s n
  let y := { x with copyLost := x.copyLost ||| BitVec.ofNat 2 (2 ^ copy) }
  let s1 := logFault 0xE 1 (uHome n) none copy 0 (setSlice n y s)
  if y.copyLost = 3 then enterContain containHome (setSlice n { y with fenced := true } (fenceUnit (uHome n) 0 s1)) else s1
/-- The arrays of an L3 slice are lost: the slice is removed (R492; 09 R245). -/
def removeSlice (n : Nat) (s : State) : State :=
  let s1 := flushL3 n (BitVec.allOnes 16) s
  setSlice n { slice s1 n with removed := true, retiring := none } s1
/-- A part of a home node that a census names: its copy 0 or 1, or its slice's arrays, numbered n + 256, n + 512 and n + 768 as units of
kind 2. The home goes on, so the unit itself is not listed as fenced. [DESIGN CHOICE, log entry 74] -/
def homePart (u : Nat) (s : State) : State :=
  let n := u % 256
  let part := u % 2 ^ 24 / 256
  let s1 := bump 0x6000058 (pulse 146 (logFault 0x500 2 (uHome n) none 0 0 s))
  if part < 3 then copyLost n (part - 1) s1 else removeSlice n s1
def isHomePart (u : Nat) : Bool := decide (u / 2 ^ 24 = 2 ∧ 256 ≤ u % 2 ^ 24 ∧ u % 2 ^ 24 < 1024)
/-- What the table *Fenced units* does with a unit that has been fenced (R492). -/
def replaceUnit (unit : Nat) (s : State) : State :=
  let n := unit % 2 ^ 24
  match unit / 2 ^ 24 with
  | 0 | 1 =>
    match lcOfPc s n with
    | some lc => if (chooseSpare s lc none).isSome then unfence unit (startReloc lc 4 false none s) else startReloc lc 4 false none s
    | none => unfence unit (setPhys n { phys s n with service := false } s)
  | 2 => enterContain containHome (setSlice n { slice s n with fenced := true } s)
  | 3 => enterContain containMem (setMemCtl n { memCtl s n with fenced := true } s)
  | 4 =>
    if dimmMib s * s.mem.dimmsPerCh ≤ s.mem.reserveFree then
      unfence unit ((List.range s.mem.dimmsPerCh).foldl (fun a d => retireUnit (8 + n) d none a) s)
    else enterContain containMem (setMemCtl (8 + n) { memCtl s (8 + n) with fenced := true } s)
  | 5 =>
    let s1 : State := { s with office := { s.office with sopFenced := s.office.sopFenced ||| BitVec.ofNat 8 (2 ^ n) } }
    match taker s1 n with
    | some q => unfence unit (logFault 0x505 1 (uSop n) none n q s1)
    | none => enterContain containUnit s1
  | 6 => outOfService n s
  | 7 => (subsOf s n).foldl (fun a j => dpcTrigger j false a) s
  | 8 => pairLost n s
  | 10 => unfence unit s
  | _ => s
/-- A census round: the units whose self-report disagrees with the map, or whose heartbeat count stands. A unit seen so in two
consecutive rounds is fenced. [DEDUCED, log entry 74] -/
def census (bad : List Nat) (s : State) : State :=
  let old := s.resil.suspects
  let s1 : State := { s with resil := { s.resil with suspects := bad, rounds := s.resil.rounds + 1 } }
  bad.foldl (fun a u =>
    if old.contains u then (if isHomePart u then homePart u a else if isFenced a u then a else replaceUnit u (fenceUnit u 0 a)) else logFault 0x501 1 u none 0 0 a) s1

/-! ### The spare horizon (R495, R496) -/

/-- [DEDUCED, log entry 75] -/
def dayK (_ : Nat) : Nat := 0xFFFE
/-- The days of one kind: `run` days in RUN since manufacture, `used` consumed in the last min(365, run) days. [DEDUCED, log entry 75] -/
def horizonDays (s : State) (run used k : Nat) : Nat :=
  let w := min 365 run
  if spareLeft s k = 0 ∧ 0 < spareUsed s k then 0
  else if w < 30 then 0xFFFE
  else if used = 0 then 0xFFFF
  else min 0xFFFD (spareLeft s k * w / used)
def horizonOff : Nat := 0x6000014
/-- [DEDUCED, log entry 75] -/
def spareHorizon (run : Nat) (used : List Nat) (s : State) : State :=
  let days := (List.range 10).map fun k => horizonDays s run (used.getD k 0) k
  let h := days.foldl min 0xFFFF
  let kind := (days.findIdx? fun d => d == h).getD 0
  let r := s.resil
  let low := decide (h < rfld s horizonOff 15 0)
  let s1 : State := { s with resil := { r with
    horizonK := days.zipIdx.foldl (fun m e => smPut dayK m e.2 e.1) r.horizonK, horizon := h, horizonKind := kind, warned := low } }
  if low && !r.warned then alert 3 (pulse 148 (logFault 0x504 5 uDevice none kind h s1)) else s1

/-- `RES_STAT`. -/
def resStat (s : State) : Nat :=
  (decide (s.resil.contain ≠ 0)).toNat * 2 ^ 31 + min 4095 s.resil.fencedUnits.length * 2 ^ 16 + s.resil.rounds.toNat

/-! ### Commands -/

/-- A patrol read of an L2 or an L3 slice is one flit of its tiles' patrol agent, in TC3 and naming no resource (12 R297, R299).
[DESIGN CHOICE, log entry 99] -/
def injectPatrol (isL3 : Bool) (unit : Nat) (s : State) : State :=
  inject (if unit / (if isL3 then 32 else 72) < 4 then 538 else 539) 3 1 [] s
def execCachePatrolRead (what : Fin 4) (unit way line err : Nat) (s : State) : Out :=
  if what.val < 2 then .next (afterArray unit (patrol what.val unit way line err s))
  else if what.val = 2 then .next (afterArray unit (patrol what.val unit way line err (injectPatrol false unit s)))
  else .next (patrol what.val unit way line err (injectPatrol true unit s))
def execWayRetirement (isL3 : Bool) (unit : Nat) (way : Fin 16) (bad : Option Nat) (s : State) : Out :=
  .next (if isL3 then retireDue isL3 unit way.val bad s else afterArray unit (retireDue isL3 unit way.val bad s))
def execInstructionGroupRetry (lc : LC) (row : Fin 16) (s : State) : Out := .next (retryGroup lc.val row.val s)
def execHeartbeatMissed (pc : Fin 576) (s : State) : Out := .next (heartbeatLost pc.val s)
def execCoreRelocation (lc : LC) (trigger : Fin 7) (healthy : Bool) (s : State) : Out :=
  .next (startReloc lc.val trigger.val healthy (if trigger.val = 6 then rollVersion s else none) s)
def execRelocationDrain (lc : LC) (s : State) : Out := .next (relocDrain lc.val s)
def execProxiedSnoop (pc : Fin 576) (line : Nat) (bad : Bool) (s : State) : Out := .next (proxiedSnoop pc.val line bad s)
def execLeaseRevoke (kind : Fin 5) (lc : LC) (n : Nat) (s : State) : Out := .next (leaseRevoke kind.val lc.val n s)
def execPairMismatch (k : Fin 4) (silent released : Bool) (s : State) : Out := .next (pairStops k.val silent released s)
def execPairSelfTestComplete (k : Fin 4) (ok : Bool) (s : State) : Out := .next (pairTested k.val ok s)
def execCensus (bad : List Word32) (s : State) : Out := .next (census (bad.map (·.toNat)) s)
def execSpareHorizon (run : Nat) (used : List Nat) (s : State) : Out := .next (spareHorizon run used s)

end Sys2Proof.Machine
end

