-- ==== Sys2Proof/Machine/Live.lean ====
section
/-! DEFINITION. Live change (21): updates, rolls, the keeper's handover, boot flash, aging. -/

namespace Sys2Proof.Machine

def ver0 (_ : Nat) : Word32 := 0
def imageDef (_ : Nat) : Option Image := none
def imageOf (s : State) (k : Nat) : Option Image := smGet imageDef s.live.images k
def setLive (f : Live → Live) (s : State) : State := { s with live := f s.live }
/-- PATCH begins or ends (R506). -/
def setPatch (b : Bool) (s : State) : State := noteMode s (setLive (fun l => { l with patchMode := b }) s)
def busyRolling (s : State) : Bool := s.live.roll.isSome

/-! ### Submitting (R505; 19 R473) -/

/-- What authentication finds in an image: whether it is well formed and both signatures verify, and its header. -/
structure ImageHeader where
  genuine : Bool
  store : Nat
  version : Word32
  security : Nat

/-- Is the image accepted (19 R473)? [DEDUCED, log entry 77] -/
def acceptable (s : State) (h : ImageHeader) : Bool :=
  h.genuine && decide (h.store ≤ 5 ∨ h.store = 8) && decide (fld h.version 31 24 = fld (smGet ver0 s.live.romVersions h.store) 31 24) &&
    decide (s.cellar.minSecurity ≤ h.security)
/-- `UPDATE_SUBMIT`. [DEDUCED, log entry 77] -/
def updateSubmit (h : ImageHeader) (a : Nat → Nat) (s : State) : Served :=
  let active := match s.live.roll with | some r => decide (r.store = h.store) | none => false
  if a 3 = 0 ∨ !pagesCoded s (a 2) (a 3) 0 then (stRange, none, s)
  else if !acceptable s h then
    (stRange, none, logFault 0x401 5 uDevice none (if h.genuine then 2 else 1) h.store s)
  else if active then (stBusy, none, s)
  else
    let b := keeperRead (a 2) (a 3) s
    let im : Image := { version := h.version, digest := sha384 b.1, security := h.security }
    (stOk, some (h.store * 2 ^ 32 + h.version.toNat), setLive (fun l => { l with images := smPut imageDef l.images h.store (some im) }) b.2.2)

/-! ### Rolls (R506 to R510; 06 R170) -/

/-- Instances of the stores 1 to 5. -/
def rollInstances (store : Nat) : Nat := if store = 0 then 0 else (storeShape store).instances
/-- Physical cores in service that run a version. -/
def coresOn (s : State) (v : Word32) : Nat :=
  ((List.range 576).filter fun pc => (phys s pc).good && (phys s pc).service && (phys s pc).version == v).length
/-- `UCS_ROLL_STAT.DONE`. -/
def rollDone (s : State) (r : Roll) : Nat := if r.store = 0 then coresOn s r.version else r.done.length
/-- `UCS_ROLL_STAT` and `UCS_VER_NEW`. -/
def rollStat (s : State) : Nat :=
  match s.live.roll with
  | some r => 2 ^ 31 + r.store * 2 ^ 28 + rollDone s r % 1024
  | none => 0
def verNew (s : State) : Nat :=
  match s.live.roll with
  | some r => (if r.aborting then r.oldVersion else r.version).toNat
  | none => 0
/-- A copy that is absent: two accesses to it have failed since SEQUENCE (24 R583), or the board has no copy B (24 R575), or ORDER names A only.
[DEDUCED, log entry 79] -/
def copyAbsent (s : State) (c : Nat) : Bool :=
  decide (2 ≤ smGet zeroNat s.pads.flashFails c ∨ (c = 1 ∧ (s.power.strapBoot = 2 ∨ rfld s 0x48 1 0 = 2)))
/-- The copy written first: the one not used at the last boot (R511), or, once ORDER has been written, the one it names second, so that the
copy a boot tries first keeps the old version for the day (26 R611). [DEDUCED, log entry 79] -/
def firstCopy (s : State) : Nat := if s.live.orderSet then (if rfld s 0x48 1 0 = 0 then 1 else 0) else 1 - s.live.bootCopy
/-- The first flash copy is written once a roll or handover has ended; the second is due a day later (R511). [DEDUCED, log entry 79] -/
def flashFirst (store : Nat) (im : Option Image) (s : State) : State :=
  let put (l : Live) : Live :=
    let c := firstCopy s
    let m := smGet (fun _ => []) l.flash c
    { l with flash := if copyAbsent s c then l.flash else smPut (fun _ => []) l.flash c (smPut noImage m store im),
             flashDue := (store, nowNs s, c) :: l.flashDue.filter fun e => e.1 != store }
  setLive put s
/-- The roll has reached its end: the version register changes on the edge on which ACTIVE falls (06 R170); an aborted one leaves it, and the
day that a first flash copy waits for begins again (R511). [DEDUCED, log entry 79] -/
def rollEnd (r : Roll) (s : State) : State :=
  let s1 := setPatch false (setLive (fun l => { l with roll := none }) s)
  if r.aborting then
    setLive (fun l => { l with flashDue := l.flashDue.map fun e => if e.1 = r.store then (e.1, nowNs s, e.2.2) else e }) s1
  else flashFirst r.store (imageOf s r.store) (setLive (fun l => { l with
    versions := smPut ver0 l.versions r.store r.version, inService := smPut noImage l.inService r.store (imageOf s r.store) }) s1)
/-- Does every physical core in service run what the roll loads? -/
def coresRolled (s : State) (v : Word32) : Bool :=
  (List.range 576).all fun pc => !((phys s pc).good && (phys s pc).service) || (phys s pc).version == v
/-- End a roll of store 0 that is complete. -/
def rollCheck (s : State) : State :=
  match s.live.roll, rollVersion s with
  | some r, some v => if coresRolled s v then rollEnd r s else s
  | _, _ => s
/-- Every spare core's sequencer is loaded (R507 step 1). [DEDUCED, log entry 77] -/
def loadSpares (s : State) : State := (sparesLeft s).foldl (fun a pc => loadPatch pc a) s
/-- `UPDATE_ROLL`. -/
def updateRoll (a : Nat → Nat) (s : State) : Served :=
  match (if a 2 ≤ 5 then imageOf s (a 2) else none) with
  | none => (stRange, none, s)
  | some im =>
    if a 3 = 0 ∨ 60000 < a 3 then (stRange, none, s)
    else if busyRolling s ∨ s.ctl.inFlight ∨ s.resil.contain.getLsbD 0 ∨ (a 2 = 0 ∧ (sparesLeft s).isEmpty) then (stBusy, none, s)
    else
      let r : Roll := { store := a 2, version := im.version, oldVersion := smGet ver0 s.live.versions (a 2), gap := a 3 }
      let s1 := extendMr 2 im.digest (setPatch true (setLive (fun l => { l with roll := some r }) s))
      (stOk, none, if a 2 = 0 then rollCheck (loadSpares s1) else s1)
/-- `UPDATE_ABORT` (R510). [DESIGN CHOICE, log entry 80] -/
def updateAbort (s : State) : Served :=
  match s.live.roll with
  | none => (stOk, none, s)
  | some r =>
    let s1 := setLive (fun l => { l with roll := some { r with aborting := true } }) s
    (stOk, none, if r.store = 0 then rollCheck (loadSpares s1) else if r.done.isEmpty then rollEnd { r with aborting := true } s1 else s1)
/-- The next logical core of a tile that does not yet run what the roll loads. -/
def nextToRoll (s : State) (v : Word32) (t : Nat) : Option Nat :=
  if s.resil.relocs.any fun r => r.pause.isNone && r.fromPc / 72 == t then none
  else (List.range s.resil.bound).find? fun lc => pcOf s lc / 72 == t && (phys s (pcOf s lc)).version != v
/-- The next relocation begins on each tile that has none in progress (R507); a roll pauses while CONTAIN.CORES is 1 (R506). -/
def rollStep (s : State) : State :=
  match rollVersion s with
  | none => s
  | some v =>
    if s.resil.contain.getLsbD 0 then s
    else (List.range 8).foldl (fun a t => match nextToRoll a v t with | some lc => startReloc lc 6 true (some v) a | none => a) s
/-- May an instance switch now (06 R167; R508): a pipeline that runs no operation, a link with its retry buffer empty, the power sequencer
between transitions? -/
def maySwitch (s : State) (store n : Nat) : Bool :=
  match store with
  | 1 => (s.office.cmds.all fun c => c.cmd.q % 8 != n || c.status != 0) && s.office.serving.all fun c => c.cmd.q % 8 != n
  | 2 => (port s n).retryBuf.isEmpty
  | 3 => s.power.cur.isNone
  | _ => true
/-- The next instance of a roll of store 1 to 5 switches (R508), or, in a reversal, returns (R510); a roll pauses while CONTAIN.CORES is 1
(R506). -/
def instanceSwitch (n : Nat) (s : State) : State :=
  match s.live.roll with
  | none => s
  | some r =>
    if r.store = 0 ∨ s.resil.contain.getLsbD 0 ∨ !maySwitch s r.store n then s
    else if r.aborting then
      if r.done.head? = some n then
        let r1 := { r with done := r.done.tail }
        let s0 := setMicro r.store n { microOf s r.store n with active := 1 - (microOf s r.store n).active } s
        if r1.done.isEmpty then rollEnd r1 s0 else setLive (fun l => { l with roll := some r1 }) s0
      else s
    else if n = r.done.length then
      let r1 := { r with done := r.done ++ [n] }
      let s1 := setLive (fun l => { l with roll := some r1 }) (loadBank r.store n (rollImage s r) s)
      if r1.done.length = rollInstances r.store then rollEnd r1 s1 else s1
    else s

/-! ### The keeper's handover (R512) and boot flash (R511) -/

/-- `KEEPER_HANDOVER`; `ok` says that the standby pair loaded and tested the image. [DEDUCED, log entry 77] -/
def keeperHandover (ok : Bool) (s : State) : Served :=
  match imageOf s 8 with
  | none => (stRange, none, s)
  | some im =>
    if busyRolling s ∨ countOnes s.cellar.pairsUp 4 < 3 then (stBusy, none, s)
    else
      let s1 := setPatch true s
      if !ok then (stRange, none, setPatch false s1)
      else
        let s2 := extendMr 2 im.digest s1
        let c := s2.cellar
        let s3 : State := { s2 with cellar := { c with active := c.standby, standby := c.active, keeperVer := im.version, keeperSec := im.security } }
        (stOk, none, flashFirst 8 (some im) (setPatch false s3))
/-- The other copy is written after a day on the new version; with the keeper in both, sealed records are sealed anew (R511; 19 R474).
[DEDUCED, log entry 79] -/
def flashSecond (store : Nat) (s : State) : State :=
  match s.live.flashDue.find? fun e => e.1 == store with
  | some (_, t, c) =>
    if t + dayNs ≤ nowNs s ∧ !busyRolling s then
      let v := smGet noImage (smGet (fun _ => []) s.live.flash c) store
      let s1 := setLive (fun l =>
        let m := smGet (fun _ => []) l.flash (1 - c)
        { l with flash := if copyAbsent s (1 - c) then l.flash else smPut (fun _ => []) l.flash (1 - c) (smPut noImage m store v),
                 flashDue := l.flashDue.filter fun e => e.1 != store }) s
      if store = 8 then sealAll s1 else s1
    else s
  | none => s

/-! ### Aging (R519 to R521) -/

def agingDef (_ : Nat) : Aging := {}
def agingOf (s : State) (i : Nat) : Aging := smGet agingDef s.live.aging i
def setAging (i : Nat) (x : Aging) (s : State) : State := setLive (fun l => { l with aging := smPut agingDef l.aging i x }) s
/-- Islands by kind: how many, and the number of the first (01 R22). -/
def islandKinds : List (Nat × Nat) := [(576, 0), (8, 576), (16, 584), (8, 600), (3, 608), (2, 611), (2, 613), (1, 615)]
/-- `AGING_QUERY`: a core island is named by its logical core. [DEDUCED, log entry 78] -/
def agingQuery (a : Nat → Nat) (s : State) : Served :=
  match islandKinds[a 2]? with
  | none => (stRange, none, s)
  | some (n, base) =>
    if (if a 2 = 0 then s.resil.bound else n) ≤ a 3 then (stRange, none, s)
    else
      let x := agingOf s (if a 2 = 0 then pcOf s (a 3) else base + a 3)
      (stOk, some (x.vage % 65536 + x.degr % 65536 * 2 ^ 16 + x.tj % 65536 * 2 ^ 32 + x.alarm.toNat * 2 ^ 48), s)
/-- [DEDUCED, log entry 78] -/
def agingAlarm (i : Nat) (x : Aging) (s : State) : State := logFault 0x303 5 uDevice none i x.vage (setAging i { x with alarm := true } s)
/-- The sample of an island: degradation in 100 ppm, lifetime average temperature in 0.1 degrees, and whether the degradation exceeds the
fused margin. VAGE rises by 2.5 mV at most once a day, to 60 mV at most; the alarms follow. [DEDUCED, log entry 78] -/
def agingSample (i degr tj : Nat) (short : Bool) (s : State) : State :=
  let x := { agingOf s i with degr := degr, tj := tj }
  let dayOver := match x.stepped with | some t => decide (t + dayNs ≤ nowNs s) | none => true
  let x1 := if short && dayOver && decide (x.vage < 240) then { x with vage := min 240 (x.vage + 10), stepped := some (nowNs s) } else x
  let s1 := setAging i x1 s
  if i < 576 then
    if 200 ≤ x1.vage ∧ !x1.alarm then
      let s2 := agingAlarm i x1 s1
      match lcOfPc s i with
      | some lc => if bound s lc then startReloc lc 5 true none s2 else s2
      | none => useSpare 0 (setPhys i { phys s2 i with service := false } s2)
    else s1
  else if short ∧ x.vage = 240 then
    if x1.lowered = 0 then agingAlarm i { x1 with lowered := 1 } s1 else enterContain containUnit (setAging i { x1 with lowered := 2 } s1)
  else s1

/-! ### Commands -/

def execUpdateSubmit (lc : LC) (genuine : Bool) (store : Nat) (version : Word32) (security : Nat) (s : State) : Out :=
  .next (service 0x500 lc (updateSubmit { genuine := genuine, store := store, version := version, security := security }) s)
def execUpdateRoll (lc : LC) (s : State) : Out := .next (service 0x501 lc updateRoll s)
def execUpdateAbort (lc : LC) (s : State) : Out := .next (service 0x502 lc (fun _ s => updateAbort s) s)
def execKeeperHandover (lc : LC) (ok : Bool) (s : State) : Out := .next (service 0x503 lc (fun _ s => keeperHandover ok s) s)
def execAgingQuery (lc : LC) (s : State) : Out := .next (service 0x504 lc agingQuery s)
def execRollStep (s : State) : Out := .next (rollStep s)
def execRollInstanceSwitch (n : Fin 8) (s : State) : Out := .next (instanceSwitch n.val s)
def execFlashSecondCopyWrite (store : Nat) (s : State) : Out := .next (flashSecond store s)
/-- [DESIGN CHOICE, log entry 49] -/
def execAgingSample (i : Fin 616) (degr tj : Nat) (short : Bool) (s : State) : Out := .next (agingSample i.val degr tj short s)
def execRelocationResume (lc : LC) (s : State) : Out := .next (rollCheck (relocResume lc.val s))
def execBackgroundWritebackComplete (pc : Fin 576) (s : State) : Out := .next (rollCheck (writebackDone pc.val s))

end Sys2Proof.Machine
end

