-- ==== Sys2Proof/Machine/Power.lean ====
section
/-! DEFINITION. Power modes, island states, wake, DRAIN, the rail-failure path (22); reference clocks, the power limit, temperature (25). -/

namespace Sys2Proof.Machine

def pwrReg (o : Nat) : Nat := 0x100000 + o
def setPower (f : Power → Power) (s : State) : State := { s with power := f s.power }
/-- Change the mode, noting the change of `SYS_MODE` (24 R587). -/
def setMode (m : DevMode) (s : State) : State := noteMode s (setPower (fun p => { p with mode := m }) s)
/-- What a wait finds (07 R189, R190): the latched bits that end it, INTR, and the condition of its own kind. -/
def waitResult (s : State) (lc : Nat) (k : WaitKind) : Nat :=
  let r := (coreOf s lc).regs
  let latched := (csr r 0x410 &&& csr r 0x411 &&& 0xFF01).toNat
  let own := match k with
    | .wfe => 0
    | .wfeNe a x _ _ => if BitVec.ofNat 64 (natOfBytes (viewBytes s lc a.pa 8 false)) ≠ x then 4 else 0
    | .wfeQ q => if q / 65536 = slotOf s ∧ queueHolds s (q % 65536) then 8 else 0
    | .waitt d => if d.toNat ≤ nowNs s then 2 else 0
  latched + (intrFor s lc).toNat * 16 + own
/-- An idle core (07 R195): it waits, no wake condition holds, its L2 has no miss outstanding. Its store buffer is empty outside a group. -/
def coreIdle (s : State) (lc : Nat) : Bool :=
  match (coreOf s lc).wait with
  | some w =>
    waitResult s lc w.kind == 0 && (s.mem.homeQ.all fun q => q.req != .l2 (pcOf s lc)) && s.mem.grants.all fun g => g.pc != pcOf s lc
  | none => false
/-- Does a core wait in a `WFE.NE`, which its L2 stays ready for (07 R196)? -/
def watchesLine (s : State) (lc : Nat) : Bool :=
  match (coreOf s lc).wait with
  | some { kind := .wfeNe .., .. } => true
  | _ => false
def boundCores (s : State) : List Nat := List.range s.resil.bound
/-- The `WAITT` deadlines armed. -/
def deadlines (s : State) : List Nat :=
  (boundCores s).filterMap fun lc => match (coreOf s lc).wait with | some { kind := .waitt d, .. } => some d.toNat | _ => none
/-- A debugger is attached with a level above CLOSED (R543). -/
def dbgAttached (s : State) : Bool := decide (s.dbg.path ≠ 0 ∧ 0 < s.dbg.level)
def setTbOff (b : Bool) (s : State) : State := { s with time := { s.time with tbOff := b } }

/-! ### Requests (R540, R541) -/

def transCode : Transition → Nat
  | .dozeEntry => 1 | .dozeExit => 2 | .deepEntry => 3 | .deepExit => 4 | .drain => 5 | .powerOn => 6
/-- An exit begins: the sources pending become `PWR_WAKE_LAST` (R538). [DEDUCED, log entry 12] -/
def takeWakes (s : State) : State := setPower (fun p => { p with wakeLast := p.wakeLatch, wakeLatch := 0 }) s
/-- The islands of scratchpad, which keep their contents in RETAIN (R530, R535; 09 R241). -/
def deepIsland (s : State) (i : Nat) : IslandState :=
  if i < 576 ∨ 1000 ≤ i then
    match lcOfPc s (i % 1000) with
    | some lc => if bound s lc && decide (0 < l2SpWays s lc) then .retain else .offState
    | none => .offState
  else if i < 584 then
    if (List.range 32).any fun k => decide (0 < l3SpWays s (32 * (i - 576) + k)) then .retain else .offState
  else if i < 600 ∨ (608 ≤ i ∧ i < 613) then .retain
  else .active
def setIslands (f : Nat → IslandState) (s : State) : State :=
  (List.range 615 ++ (List.range 576).map l2Island).foldl (fun a i => setIsland i (f i) a) s
/-- Islands in service return to ACTIVE; spares and cores out of service stay OFF (R530). -/
def runIsland (s : State) (i : Nat) : IslandState :=
  if i < 576 ∨ 1000 ≤ i then
    match lcOfPc s (i % 1000) with
    | some lc => if bound s lc then .active else .offState
    | none => .offState
  else .active
/-- Pads whose function is driven from the sorting-office islands (R539; 24 R576). -/
def heldPads (s : State) : BitVec 32 :=
  BitVec.ofNat 32 (((List.range 32).map fun n => if 2 ≤ n ∧ n < 28 ∧ smGet (fun k => if k < 24 then (1 : BitVec 2) else 0) s.pads.fsel n = 1 then 2 ^ n else 0).foldl (· + ·) 0)

/-- A port that lost its traffic by agreement or by DRAIN. -/
def drainPorts (s : State) : State :=
  (List.range 8).foldl (fun a p =>
    let a1 := if (port a p).join.state = .coherent then splitPair p 0 false a else a
    outOfService p (updPort p (fun x => { x with join := { x.join with state := .non }, resyncWait := false, retryBuf := [] }) a1)) s
/-- Steps 1 to 4 of DRAIN (R542); the exit of DOZE or DEEP_DOZE comes first, and counts as one. [DEDUCED, log entry 81] -/
def startDrain (s : State) : State :=
  let s1 := if s.power.pstate = 0 then s else bump (pwrReg 0x60) (setTbOff false (setIslands (runIsland s) (takeWakes s)))
  let s2 := setMode .drain (setPower (fun p => { p with cur := some .drain, pstate := 0, emu := false, entering := false, exiting := false, wakeLatch := 0 }) s1)
  (List.range 3).foldl (fun a n => peStop n a) (drainPorts s2)
/-- Start a transition. The exit from DOZE completes within the step (R527). -/
def startTransition (t : Transition) (s : State) : State :=
  match t with
  | .dozeEntry =>
    let s1 := bump (pwrReg 0x50) (setPower (fun p => { p with pstate := 1, emu := dbgAttached s }) s)
    if dbgAttached s then s1 else setTbOff true (setMode .doze s1)
  | .dozeExit =>
    bump (pwrReg 0x60) (setTbOff false (setMode .run (takeWakes (setPower (fun p => { p with pstate := 0, emu := false }) s))))
  | .deepEntry => setPower (fun p => { p with cur := some .deepEntry, entering := true, deepNext := false }) s
  | .deepExit => takeWakes (setPower (fun p => { p with cur := some .deepExit, exiting := true }) s)
  | .drain => startDrain s
  | .powerOn => s
/-- After a transition: a latched wake, then the pending request (R540). [DEDUCED, log entry 12] -/
def afterTransition (s : State) : State :=
  let p := s.power
  if p.cur.isSome then s
  else if p.wakeLatch ≠ 0 ∧ p.pstate ≠ 0 then startTransition (if p.pstate = 2 then .deepExit else .dozeExit) s
  else match p.pend with
    | some r => startTransition r.what (setPower (fun q => { q with pend := none }) s)
    | none => s
/-- Place a request (R540): its status. -/
def placeRequest (t : Transition) (commanded : Bool) (s : State) : Nat × State :=
  let r : PowerReq := { what := t, commanded := commanded }
  let s1 := if commanded then setPower (fun q => { q with last := 2 }) s else s
  match s.power.cur, s.power.pend with
  | none, _ => (stOk, startTransition t s1)
  | some _, none => (stOk, setPower (fun q => { q with pend := some r }) s1)
  | some _, some old =>
    if !old.commanded then (stOk, setPower (fun q => { q with pend := some r }) s1)
    else if commanded then (stBusy, s) else (stOk, s)
/-- A DRAIN that PWRGD triggers replaces any pending request (R541); LAST shows commanded requests alone. It waits as one that nothing
replaces. [DEDUCED, log entry 81] -/
def drainByPwrgd (s : State) : State :=
  let replaced := match s.power.pend with | some r => r.commanded | none => false
  let s1 := if replaced then setPower (fun p => { p with last := 3 }) s else s
  match s.power.cur with
  | none => startDrain s1
  | some .drain => s
  | some _ => setPower (fun p => { p with pend := some { what := .drain, commanded := true } }) s1
/-- May DRAIN be asked for (24 R586)? -/
def drainAllowed (s : State) : Bool := decide (s.power.mode = .run ∨ s.power.mode = .doze ∨ s.power.mode = .deepDoze)
/-- `PWR_CMD` (R546). -/
def pwrCmd (v : Word32) (s : State) : Nat × State :=
  if fld v 27 0 ≠ 0 then (stRsvd, s)
  else match fld v 31 28 with
    | 1 => placeRequest .drain true s
    | 2 => (stOk, setPower (fun p => { p with deepNext := true }) s)
    | 3 => (stOk, setPower (fun p => { p with deepNext := false }) s)
    | _ => (stRsvd, s)

/-! ### DOZE and DEEP_DOZE (R533 to R538) -/

def mayDoze (s : State) : Bool :=
  decide (s.power.mode = .run ∧ s.power.cur = none ∧ s.power.pstate = 0 ∧ 0 < s.resil.bound) &&
    (boundCores s).all (fun lc => coreIdle s lc && (coreOf s lc).standing != .halted) &&
    (deadlines s).all fun d => decide (nowNs s + 3000 ≤ d)
def mayDeep (s : State) : Bool :=
  decide (s.power.pstate = 1 ∧ s.power.cur = none) && (s.power.deepNext || rfld s (pwrReg 0x10) 31 16 != 0) &&
    (List.range 8).all (fun p => decide ((port s p).join.state = .non)) &&
    (boundCores s).all (fun lc => !watchesLine s lc) &&
    (deadlines s).all (fun d => decide (nowNs s + 7000000 ≤ d)) &&
    !s.live.patchMode && !s.ctl.inFlight && s.resil.relocs.all fun r => r.pause.isSome
/-- Step 1 of the entry: ports are asked to sleep (not where the state is emulated, R543). [DEDUCED, log entry 81] -/
def deepBegin (s : State) : State :=
  let s1 := startTransition .deepEntry s
  if s.power.emu then s1 else (List.range 8).foldl (fun a p => if portUp a p then askSleep p a else a) s1
/-- An island that is OFF keeps no state: its core's image comes back without translations and predictions (R529, R534; 20 R482). -/
def forgetCore (c : Core) : Core :=
  { c with tlbs := {}, retStack := [], overlay := [], unpushed := [], missed := [], itt := [], predSeq := 0 }
def forgetOff (s : State) : State :=
  (boundCores s).foldl (fun a lc => if smGet islandDef a.power.islands (pcOf a lc) = .offState then updCore lc forgetCore a else a) s
/-- Steps 3 to 6 of the entry: caches written back, islands down, pads held. [DEDUCED, log entry 81] -/
def deepEnd (s : State) : State :=
  if s.power.cur ≠ some .deepEntry then s
  else
    let s1 := bump (pwrReg 0x58) (setPower (fun p => { p with cur := none, entering := false, pstate := 2 }) s)
    if s.power.emu then afterTransition s1
    else
      let s0 := s1.mem.priv.foldl (fun a e => (e.2.l2.filterMap (·.2)).foldl (fun x l =>
        if l.st = .m ∨ l.st = .o then exposeStale l.line l.stale x else x) a)
        (s1.mem.slices.foldl (fun a e => (e.2.l3.filterMap (·.2)).foldl (fun x l => if l.dirty then exposeStale l.line l.stale x else x) a) s1)
      let m := s0.mem
      let s2 : State := { s0 with mem := { m with
        priv := m.priv.map fun e => (e.1, { e.2 with l1i := [], l1d := [], l2 := [], transit := [] }),
        slices := m.slices.map fun e => (e.1, { e.2 with l3 := [], dir := [] }) } }
      let s3 := forgetOff (setIslands (deepIsland s2) (setPower (fun p => { p with padHeld := heldPads s2, heldLevels := s2.pads.level }) s2))
      afterTransition (setMode .deepDoze s3)
/-- The exit ends: islands ACTIVE, images restored, each core at its wait. -/
def deepExitEnd (s : State) : State :=
  if s.power.cur ≠ some .deepExit then s
  else
    let s1 := bump (pwrReg 0x60) (setPower (fun p => { p with cur := none, exiting := false, pstate := 0, emu := false }) s)
    let s2 := if s.power.emu then s1 else setMode .run (setTbOff false (setIslands (runIsland s1) s1))
    afterTransition s2
/-- A wake source (R536, R538): latched, and the exit begins if no transition runs. [DEDUCED, log entry 81] -/
def wake (bit : Nat) (s : State) : State := let s1 := latchWake bit s; if s1.power.entering then s1 else afterTransition s1
/-- `PWR_STAT`. -/
def pwrStat (s : State) : Nat :=
  let p := s.power
  p.pstate * 2 ^ 30 + p.entering.toNat * 2 ^ 29 + p.exiting.toNat * 2 ^ 28 + p.emu.toNat * 2 ^ 27 + p.throttle.toNat * 2 ^ 26 + p.deepNext.toNat * 2 ^ 25
/-- `PWR_REQ_STAT`. -/
def pwrReqStat (s : State) : Nat :=
  let p := s.power
  let pend := match p.pend with | some r => transCode r.what * 2 ^ 24 + r.commanded.toNat * 2 ^ 23 | none => 0
  (match p.cur with | some t => transCode t | none => 0) * 2 ^ 28 + pend + (decide (p.wakeLatch ≠ 0)).toNat * 2 ^ 22 + p.last
/-- A read of `PWR_WAKE_LAST` clears it. -/
def wakeLastRead (s : State) : Nat × State := (s.power.wakeLast.toNat, setPower (fun p => { p with wakeLast := 0 }) s)
/-- `PWR_PAD_RELEASE` (R539, R546). -/
def padRelease (v : Word32) (s : State) : Nat × State :=
  if fld v 31 1 ≠ 0 then (stRsvd, s)
  else if s.power.entering ∨ s.power.pstate = 2 then (stBusy, s)
  else (stOk, if v.getLsbD 0 then setPower (fun p => { p with padHeld := 0, heldLevels := 0 }) s else s)

/-- A core island's idle timer runs out; its L2 sub-island follows it, but for RETAIN during a `WFE.NE` (R530). -/
def islandIdle (st : IslandState) (lc : Nat) (s : State) : State :=
  let c := reg s (pwrReg 0x14)
  let on := match st with | .gated => fld c 15 0 != 0 | _ => fld c 31 16 != 0
  if bound s lc && coreIdle s lc && on && !dbgAttached s && smGet islandDef s.power.islands (pcOf s lc) != .offState then
    setIsland (l2Island (pcOf s lc)) (if st = .retain ∧ watchesLine s lc then .gated else st) (setIsland (pcOf s lc) st s)
  else s

/-! ### DRAIN and rails (R527, R528, R541 to R545) -/

/-- Steps 5 to 8 of DRAIN: everything OFF but the rind. [DEDUCED, log entry 81] -/
def drainEnd (s : State) : State :=
  if s.power.mode = .drain then
    setMode .rind (setIslands (fun _ => .offState) (setPower (fun p => { p with cur := none, pend := none, last := if p.last = 2 then 1 else p.last, padHeld := 0 }) s))
  else s
/-- The device falls to RIND, or OFF, dropping every transition; LAST names a request so dropped no longer, for which it has no code.
[DESIGN CHOICE, log entry 81] -/
def fallTo (m : DevMode) (s : State) : State :=
  setMode m (setIslands (fun _ => .offState) (setPower (fun p => { p with cur := none, pend := none, last := if p.last = 2 then 0 else p.last, entering := false, exiting := false, pstate := 0, emu := false,
                                                                          padHeld := 0, wakeLatch := 0 }) s))
/-- SEQUENCE to DRAIN, SCAN included (R544, 25 R605). -/
def powered (s : State) : Bool := decide (s.power.mode ≠ .off ∧ s.power.mode ≠ .rind)
def vddRind : Nat := 8
/-- With its rail the rind loses what it holds for the mailbox and the TAP (24 R584, R589). [DEDUCED, log entry 86] -/
def rindLost (s : State) : State :=
  { s with pads := { s.pads with dynAddr := none, request := none, reply := none, hostIn := [], inFull := false, hostOut := [], outFull := false,
                                 alerts := 0, ir := 1, safeEn := false, safeTimeout := 0, released := false, boundary := 0 } }
/-- The emergency path (R544, R545); `written` says the record was completed from the hold-up
capacitance: where not, VDD_RIND has failed too. -/
def railFails (rail mv : Nat) (written : Bool) (s : State) : State :=
  if !powered s then s
  else
    let s1 := if written then logFault 0x300 4 uRind none rail mv s else s
    let s2 := setPower (fun p => { p with tripped := true, railUnknown := p.railUnknown || !written }) s1
    if rail = vddRind ∨ !written then rindLost (fallTo .off s2) else fallTo .rind s2
/-- VDD_RIND leaves its window. -/
def rindDown (s : State) : State := if s.power.mode = .rind then rindLost (setMode .off s) else railFails vddRind 0 false s
def rindUp (s : State) : State := if s.power.mode = .off then setMode .rind s else s
/-- PWRGD falls (R528, R541). -/
def pwrgdFalls (s : State) : State :=
  let s1 := setPower (fun p => { p with pwrgd := false, tripped := false }) s
  match s.power.mode with
  | .sequence | .calibrate | .scan => fallTo .rind s1
  | .run | .doze | .deepDoze => drainByPwrgd s1
  | _ => s1
/-- A rail still outside its window at 500 ms (R527). -/
def sequenceLate (rail mv : Nat) (s : State) : State :=
  if s.power.mode = .sequence then fallTo .rind (logFault 0x300 4 uRind none rail mv s) else s

/-! ### The power limit and temperature (R531, R532; 25 R602 to R605) -/

def full26 (_ : Nat) : Nat := 26
def freqReq (s : State) (lc : Nat) : Nat := rfld s (pwrReg 0x1000 + 4 * lc) 4 0
def limitOf (s : State) (lc : Nat) : Nat := smGet full26 s.power.limitTarget lc
def resValid (s : State) (lc : Nat) : Bool := (regAct s (frkResOff lc 0)).getLsbD 31
def tileTarget (s : State) (lc : Nat) : Nat :=
  let t := pcOf s lc / 72
  if resValid s lc then smGet full26 s.power.tr t else smGet full26 s.power.tu t
/-- `PWR_LCFREQn.ACT`. -/
def freqAct (s : State) (lc : Nat) : Nat :=
  let f := min (freqReq s lc) (min (limitOf s lc) (tileTarget s lc))
  if resValid s lc then max 14 f else f
def throttled (s : State) : Bool := (boundCores s).any fun lc => decide (limitOf s lc < freqReq s lc)
def setLimit (lc n : Nat) (s : State) : State := setPower (fun p => { p with limitTarget := smPut full26 p.limitTarget lc n }) s
/-- THROTTLE follows the targets; each change is an edge on source 154. -/
def noteThrottle (s : State) : State :=
  let t := throttled s
  if t = s.power.throttle then s else pulse 154 (setPower (fun p => { p with throttle := t }) s)
/-- The 1 ms comparison with the average input power (R532; VR_ALERT# by 24 R573). -/
def limitCompare (avg : Nat) (s : State) : State :=
  let s0 := setPower (fun p => { p with meas := avg }) s
  let limit := rfld s (pwrReg 0x30) 10 0
  let step (a : State) (lc : Nat) : State := setLimit lc (freqAct a lc - 1) a
  let s1 :=
    if limit < avg ∨ s.power.vrAlert then
      let first := (boundCores s).filter fun lc => !resValid s lc && decide (6 < freqAct s lc)
      let second := (boundCores s).filter fun lc => resValid s lc && decide (14 < freqAct s lc)
      (if first.isEmpty then second else first).foldl step s0
    else if 20 * avg < 19 * limit then
      (boundCores s).foldl (fun a lc => if limitOf a lc < freqReq a lc then setLimit lc (limitOf a lc + 1) a else a) s0
    else s0
  let s2 := noteThrottle s1
  if s2.power.throttle then bump (pwrReg 0x68) s2 else s2

def tempOf (s : State) (i : Nat) : Nat := smGet zeroNat s.power.temps i
def setTargets (t tu tr : Nat) (s : State) : State :=
  setPower (fun p => { p with tu := smPut full26 p.tu t tu, tr := smPut full26 p.tr t tr }) s
/-- The lowering of 25 R604 on every tile. -/
def lowerAll (s : State) : State := (List.range 8).foldl (fun a t => setTargets t 6 14 a) s
/-- The thermal trip (25 R605). -/
def thermalTrip (s : State) : State := alert 5 (fallTo .rind (setPower (fun p => { p with tripped := true, thermtrip := true, tripAt := nowNs s }) s))
/-- The island's sensor is sampled (25 R602, R604, R605). -/
def tempSample (i temp : Nat) (s : State) : State :=
  let was := smGet boolDef s.power.hot i
  let hot := decide (115 ≤ temp)
  let s1 := setPower (fun p => { p with temps := smPut zeroNat p.temps i temp, hot := smPut boolDef p.hot i hot }) s
  if hot && was && powered s then thermalTrip s1
  else if 95 ≤ temp ∧ !s.power.prochotOwn then
    alert 5 (pulse 154 (lowerAll (setPower (fun p => { p with prochotOwn := true }) s1)))
  else if s.power.prochotOwn && s1.power.temps.all (fun e => decide (e.2 < 92)) then
    pulse 154 (setPower (fun p => { p with prochotOwn := false }) s1)
  else s1
/-- Islands that heat tile `t`, and those whose heat counts for every tile. -/
def heatsTile (t i : Nat) : Bool := decide ((i < 576 ∧ i / 72 = t) ∨ i = 576 + t ∨ i = 584 + t ∨ 592 ≤ i)
/-- The 1 ms adjustment of each tile's targets (25 R603). -/
def thermalStep (s : State) : State :=
  if s.power.prochotOwn || s.power.prochotBoard then lowerAll s
  else
    let stackHot := (List.range 8).any fun u => decide (92 ≤ (memCtl s u).temp)
    let stackCool := (List.range 8).all fun u => decide ((memCtl s u).temp < 89)
    (List.range 8).foldl (fun a t =>
      let ts := (s.power.temps.filter fun e => heatsTile t e.1).map (·.2)
      let tu := smGet full26 a.power.tu t
      let tr := smGet full26 a.power.tr t
      if stackHot || ts.any fun x => decide (92 ≤ x) then
        if 6 < tu then setTargets t (tu - 1) tr a else if 14 < tr then setTargets t tu (tr - 1) a else a
      else if stackCool && ts.all fun x => decide (x < 89) then
        if tr < 26 then setTargets t tu (tr + 1) a else if tu < 26 then setTargets t (tu + 1) tr a else a
      else a) s
/-- The board's PROCHOT#, sampled while the device does not drive the line (25 R604). -/
def prochotBoard (low : Bool) (s : State) : State :=
  if s.power.prochotOwn ∨ s.power.prochotBoard = low then s
  else
    let s1 := pulse 154 (setPower (fun p => { p with prochotBoard := low }) s)
    if low then lowerAll s1 else s1
def setPadEvent (b : Nat) (s : State) : State := { s with pads := { s.pads with events := s.pads.events ||| BitVec.ofNat 8 (2 ^ b) } }
def vrAlert (low : Bool) (s : State) : State :=
  let s1 := setPower (fun p => { p with vrAlert := low }) s
  if low then setPadEvent 7 s1 else s1
/-- PERST# (24 R573). -/
def perstLow (s : State) : State :=
  if s.power.perst then s
  else (List.range 3).foldl (fun a n => peStop n a) (setPower (fun p => { p with perst := true, perstRan := s.pcie.running }) s)
def perstHigh (s : State) : State :=
  if s.power.perst then
    (List.range 3).foldl (fun a n => if s.power.perstRan.getLsbD n then peStart n a else a) (setPower (fun p => { p with perst := false, perstRan := 0 }) s)
  else s

/-! ### Reference clocks (25 R600; 18 R439) -/

def setSrc (n : Nat) (s : State) : State := { s with time := { s.time with src := n } }
def dropRef (c : Nat) (s : State) : State := setPower (fun p => { p with refPresent := p.refPresent &&& ~~~(BitVec.ofNat 2 (2 ^ c)) }) s
/-- The active clock is absent and the standby takes over. -/
def refSwitch (s : State) : State :=
  let c := s.power.activeRef
  if s.power.refPresent = 3 then
    logFault 0x301 1 uRind none c 0 (setSrc (1 - c) (dropRef c (setPower (fun p => { p with activeRef := 1 - c }) s)))
  else s
def standbyLost (s : State) : State :=
  let c := 1 - s.power.activeRef
  if s.power.refPresent = 3 then logFault 0x301 1 uRind none c 0 (dropRef c s) else s
/-- Both clocks are lost. -/
def refLost (s : State) : State :=
  if s.time.src = 2 then s
  else
    enterContain containRefclk (logFault 0x302 4 uRind none s.power.activeRef 0 (setSrc 2 (setPower (fun p => { p with refPresent := 0 }) s)))
/-- A clock has met both tests for 100 ms. -/
def refReturn (c : Nat) (s : State) : State :=
  if s.power.refPresent.getLsbD c then s
  else
    let s1 := setPower (fun p => { p with refPresent := p.refPresent ||| BitVec.ofNat 2 (2 ^ c) }) s
    if s.time.src = 2 then clockCleared (logFault 0x301 1 uRind none c 0 (setSrc c (setPower (fun p => { p with activeRef := c }) s1))) else s1

/-! ### Commands -/

def execVddRindUp (s : State) : Out := .next (rindUp s)
def execVddRindDown (s : State) : Out := .next (rindDown s)
def execPwrgdFall (s : State) : Out := .next (pwrgdFalls s)
def execSequenceRailTimeout (rail : Fin 9) (mv : Nat) (s : State) : Out := .next (sequenceLate rail.val mv s)
def execRailFailure (rail : Fin 9) (mv : Nat) (written : Bool) (s : State) : Out := .next (railFails rail.val mv written s)
def execIslandGate (lc : LC) (s : State) : Out := .next (islandIdle .gated lc.val s)
def execIslandRetain (lc : LC) (s : State) : Out := .next (islandIdle .retain lc.val s)
/-- With DEEPNEXT the entry into DEEP_DOZE follows at once (R534). -/
def execDozeEntry (s : State) : Out :=
  .next (if mayDoze s then let s1 := startTransition .dozeEntry s; if s1.power.deepNext && mayDeep s1 then deepBegin s1 else s1 else s)
def execDeepDozeEntry (s : State) : Out := .next (if mayDeep s then deepBegin s else s)
def execDeepDozeEntryComplete (s : State) : Out := .next (deepEnd s)
def execWake (bit : Fin 9) (s : State) : Out := .next (wake bit.val s)
def execDeepDozeExitComplete (s : State) : Out := .next (deepExitEnd s)
/-- [DESIGN CHOICE, log entry 6] -/
def execDrainComplete (s : State) : Out := .next (drainEnd s)
def execPowerLimitCompare (avg : Nat) (s : State) : Out := .next (limitCompare avg s)
/-- [DESIGN CHOICE, log entry 49] -/
def execTemperatureSample (i : Fin 616) (temp : Nat) (s : State) : Out := .next (tempSample i.val temp s)
def execThermalControl (s : State) : Out := .next (thermalStep s)
def execProchotInput (low : Bool) (s : State) : Out := .next (prochotBoard low s)
def execVrAlert (low : Bool) (s : State) : Out := .next (vrAlert low s)
def execPerstAssert (s : State) : Out := .next (perstLow s)
def execPerstRelease (s : State) : Out := .next (perstHigh s)
def execRefclkSwitch (s : State) : Out := .next (refSwitch s)
def execStandbyRefclkAbsent (s : State) : Out := .next (standbyLost s)
def execRefclkLost (s : State) : Out := .next (refLost s)
def execRefclkReturn (c : Fin 2) (s : State) : Out := .next (refReturn c.val s)

end Sys2Proof.Machine
end

