-- ==== Sys2Proof/Machine/Pads.lean ====
section
/-! DEFINITION. Pads, LEDs, UARTs, the boot flash, the mailbox interface and the TAP (24). -/

namespace Sys2Proof.Machine

def padReg (o : Nat) : Nat := 0x200000 + o
def setPads (f : Pads → Pads) (s : State) : State := { s with pads := f s.pads }

/-! ### GPIO functions (R576 to R579) -/

def fselReset (n : Nat) : BitVec 2 := if n < 24 then 1 else 0
/-- The function that has pad `n`. -/
def padFsel (s : State) (n : Nat) : Nat := (smGet fselReset s.pads.fsel n).toNat
def padCfg (s : State) (n : Nat) : Word32 := reg s (padReg (0x100 + 4 * n))
def padReleasing (s : State) (n : Nat) : Bool := smGet boolDef s.pads.releasing n
/-- Bit `n` of `PAD_IN` (R577). -/
def padIn (s : State) (n : Nat) : Bool := s.pads.level.getLsbD n != (padCfg s n).getLsbD 10
def padInWord (s : State) : Nat := ((List.range 32).map fun n => (padIn s n).toNat * 2 ^ n).foldl (· + ·) 0
/-- The timer input that function `f` of pad `n` is (R576). -/
def tinOf (n f : Nat) : Option Nat :=
  if 13 ≤ n ∧ n < 24 ∧ f = 2 then some (n - 13)
  else if 24 ≤ n ∧ n < 29 ∧ f = 3 then some (n - 13)
  else none
/-- Legal values of FSEL (R576, R577); pads 13 to 23 are free where STRAP_BOOT is 0b10. -/
def fselLegal (n f : Nat) : Bool :=
  if n < 13 then f == 1
  else if n < 24 then decide (f ≤ 2)
  else if n < 29 then true
  else decide (f ≤ 2)
/-- The source line of pad `n` follows `PAD_IN`; a rise may wake the device (R579). [DEDUCED, log entry 82] -/
def padFollow (n : Nat) (was : Bool) (s : State) : State :=
  let now := padIn s n
  let s1 := setLine (160 + n) now s
  if now && !was && (padCfg s n).getLsbD 11 then latchWake wakeGpio s1 else s1
/-! ### What the low-speed outputs do (R572) -/

/-- What the device does to a low-speed output: it leaves the line to its board resistor, drives a level, or drives the signal of a serial
function or of a boundary cell, whose bits over time the model does not hold. -/
inductive PadDrive
  | released | low | high | signal
deriving DecidableEq, Repr
/-- The low-speed outputs. -/
inductive LowSpeedOut
  | gpio (n : Fin 32) | tdo | syncOut | prochot | thermtrip
deriving DecidableEq, Repr
/-- A level driven push-pull, or open-drain. -/
def driveLevel (od level : Bool) : PadDrive := if !level then .low else if od then .released else .high
/-- The on-time of LED `n` in ns. [DEDUCED, log entry 82] -/
def ledOn (s : State) (n : Nat) : Nat :=
  let r := reg s (padReg (0x210 + 4 * n))
  fld r 31 16 * 1000 * fld r 15 0 / 65536 / 80 * 80
def ledPeriod (s : State) (n : Nat) : Nat := 1000 * rfld s (padReg (0x210 + 4 * n)) 31 16
/-- LED `n` sinks: its EN bit, in the on-time of its period (R580). [DEDUCED, log entry 82] -/
def ledSinks (s : State) (n : Nat) : Bool :=
  (reg s (padReg 0x200)).getLsbD n && decide (nowNs s % ledPeriod s n < ledOn s n)
/-- A TOUT pad carries the compare level of its timer (18 R445). -/
def toutDrive (s : State) (n k : Nat) : PadDrive := driveLevel ((padCfg s n).getLsbD 9) (tLvl s k)
/-- What the function of pad `n` drives (R576, R577, R580, R582). A UART drives its TX once it is enabled; the mailbox drives SDA only inside a
transfer, which is one command. [DEDUCED, log entry 82] -/
def functionDrive (s : State) (n : Nat) : PadDrive :=
  let c := padCfg s n
  match padFsel s n with
  | 0 => if c.getLsbD 7 then driveLevel (c.getLsbD 9) (c.getLsbD 8) else .released
  | 1 =>
    if n < 2 then .released
    else if n < 24 then .signal
    else if n < 28 then
      let u := (n - 24) / 2
      if n % 2 = 1 ∨ !(reg s (padReg (0x300 + 32 * u))).getLsbD 31 then .released
      else if (smGet (fun _ => ({} : Uart)) s.pads.uarts u).tx.isEmpty then .high else .signal
    else if ledSinks s (n - 28) then .low else .released
  | 2 => if n < 24 then .released else if n < 28 then toutDrive s n (n - 20) else toutDrive s n (n - 28)
  | _ => .released
/-- The cases in which no output drives: absent or unpowered, PWRGD low, RIND, SEQUENCE. The steps of DRAIN, of the emergency path and of a
thermal trip from the release of the pads onward are the step to RIND or OFF. -/
def outputsOff (s : State) : Bool := !s.power.pwrgd || decide (s.power.mode = .off ∨ s.power.mode = .rind ∨ s.power.mode = .sequence)
/-- TAP codes that take the pads. -/
def padCode (ir : BitVec 8) : Bool := ir == 0 || (decide (4 ≤ ir.toNat) && decide (ir.toNat ≤ 7))
/-- In SCAN the pads follow the boundary register, but for HIGHZ and after a release by SAFEHOLD (R590, R591). Which cell is which land stands in
the BSDL, not in the spec. -/
def scanDrive (s : State) : PadDrive := if s.pads.ir = 5 ∨ s.pads.released ∨ !padCode s.pads.ir then .released else .signal
/-- What the device does to a low-speed output. TDO drives in Shift-IR and Shift-DR only, which lie inside a TAP command. A held pad keeps its
level (22 R539). THERMTRIP# is low for the 10 ms of a thermal trip (25 R605). [DEDUCED, log entry 82] -/
def padDrive (s : State) : LowSpeedOut → PadDrive
  | .gpio n =>
    if s.power.mode = .scan then scanDrive s
    else if outputsOff s || padReleasing s n then .released
    else if s.power.padHeld.getLsbD n then
      (match functionDrive s n with
       | .released => .released
       | _ => driveLevel false (s.power.heldLevels.getLsbD n))
    else functionDrive s n
  | .tdo => .released
  | .syncOut =>
    if s.power.mode = .scan then scanDrive s
    else if outputsOff s || !(reg s (tmrReg 0x50)).getLsbD 0 then .released
    else driveLevel false s.time.syncOut
  | .prochot => if s.power.mode = .scan then scanDrive s else if !outputsOff s && s.power.prochotOwn then .low else .released
  | .thermtrip =>
    if s.power.mode = .scan then scanDrive s
    else if s.power.pwrgd && s.power.thermtrip && decide (nowNs s < s.power.tripAt + 10000000) then .low else .released
/-- The level a pad shows: that which the device drives, else that of the board. -/
def padShows (s : State) (n : Fin 32) (board : Bool) : Bool :=
  match padDrive s (.gpio n) with
  | .low => false
  | .high => true
  | _ => board

/-- The filtered level of pad `n` changes; what the device drives wins over the board. -/
def padLevel (n : Fin 32) (board : Bool) (s : State) : State :=
  let was := padIn s n
  let high := padShows s n board
  let s1 := padFollow n was (setPads (fun p => { p with level := putFld p.level n n high.toNat }) s)
  if padReleasing s n then s1
  else match tinOf n (padFsel s n) with
    | some k => tinLevel k high s1
    | none => s1
/-- [DEDUCED, log entry 82] -/
def takeFsel (n : Nat) (s : State) : State := setPads (fun p => { p with fsel := smPut fselReset p.fsel n (BitVec.ofNat 2 (fld (padCfg s n) 1 0)) }) s
def setReleasing (n : Nat) (b : Bool) (s : State) : State := setPads (fun p => { p with releasing := smPut boolDef p.releasing n b }) s
/-- The old function's input reads its idle level. -/
def idleInput (n : Nat) (s : State) : State := match tinOf n (padFsel s n) with | some k => tinLevel k false s | none => s
/-- The new function's input starts from the pad's level. [DEDUCED, log entry 82] -/
def startInput (n : Nat) (s : State) : State :=
  match tinOf n (padFsel s n) with | some k => tinLevel k (s.pads.level.getLsbD n) s | none => s
/-- A pad that the device drives shows what it drives. [DEDUCED, log entry 82] -/
def redrive (n : Nat) (s : State) : State :=
  if h : n < 32 then padLevel ⟨n, h⟩ (s.pads.level.getLsbD n) s else s
/-- `PAD_GPIOn_CFG` has been written; `old` is its value before (R578). A held pad takes the function behind the hold. -/
def padCfgWritten (n : Nat) (old : Word32) (s : State) : State :=
  let was := s.pads.level.getLsbD n != old.getLsbD 10
  let s1 := redrive n (padFollow n was s)
  if fld old 1 0 = fld (padCfg s n) 1 0 then s1
  else if s.power.padHeld.getLsbD n then startInput n (takeFsel n (idleInput n s1))
  else setReleasing n true (idleInput n s1)
/-- The release has lasted its 2 rind cycles; in SCAN the switch waits. -/
def padSwitched (n : Nat) (s : State) : State :=
  if padReleasing s n && s.power.mode != .scan then redrive n (startInput n (takeFsel n (setReleasing n false s))) else s

/-! ### LEDs (R580, R581) -/

/-- The code a second of LED `n` ends with: `above` says that the pad stood above 1.2 V while sinking, `below` that it stood below 0.2 V
while not sinking. -/
def ledCode (s : State) (n : Nat) (above below : Bool) : Nat :=
  let c := reg s (padReg 0x200)
  let mine := padFsel s (28 + n) == 1 && !padReleasing s (28 + n)
  let on := if c.getLsbD n then ledOn s n else 0
  let offLong := decide (on = 0 ∨ on + 25000 ≤ ledPeriod s n)
  let openTest := decide (0 < on) && (decide (25000 ≤ on) || c.getLsbD 31)
  if !mine then 0
  else if offLong && below then 3
  else if openTest then (if above then 2 else 1)
  else 0
def ledDiagnose (above below : BitVec 4) (s : State) : State :=
  setPads (fun p => { p with ledDiag := BitVec.ofNat 8 (((List.range 4).map fun n =>
    ledCode s n (above.getLsbD n) (below.getLsbD n) * 4 ^ n).foldl (· + ·) 0) }) s

/-! ### UARTs (R582) -/

def uartDef (_ : Nat) : Uart := {}
def uart (s : State) (u : Nat) : Uart := smGet uartDef s.pads.uarts u
def uartReg (u o : Nat) : Nat := padReg (0x300 + 32 * u + o)
/-- The UART's source follows its enabled conditions. -/
def uartLine (u : Nat) (s : State) : State :=
  let ien := reg s (uartReg u 0x14)
  setLine (156 + u) ((ien.getLsbD 0 && decide ((uart s u).rx ≠ [])) || (ien.getLsbD 1 && decide ((uart s u).tx.length < 32))) s
def setUart (u : Nat) (x : Uart) (s : State) : State := uartLine u (setPads (fun p => { p with uarts := smPut uartDef p.uarts u x }) s)
def uartOn (s : State) (u : Nat) : Bool := (reg s (uartReg u 0)).getLsbD 31
/-- Does UART `u` have pad `n`? Else its input reads a mark (R578). -/
def uartPad (s : State) (u n : Nat) : Bool := padFsel s (24 + 2 * u + n) == 1 && !padReleasing s (24 + 2 * u + n)
def uartSend (u : Nat) (v : Word32) (s : State) : Nat × State :=
  let x := uart s u
  if 64 ≤ x.tx.length then (stBusy, s) else (stOk, setUart u { x with tx := x.tx ++ [v.setWidth 8] } s)
/-- A frame arrives: BREAK where the line was low throughout; FRAME where the stop bit was low; OVERRUN where the FIFO was full.
[DEDUCED, log entry 82] -/
def uartReceive (u : Nat) (b : Byte) (frameErr brk : Bool) (s : State) : State :=
  let x := uart s u
  if !(uartOn s u && uartPad s u 1) then s
  else if brk then setUart u { x with err := x.err ||| 1 } s
  else
    let e := if frameErr then x.err ||| 2 else x.err
    if 64 ≤ x.rx.length then setUart u { x with err := e ||| 4 } s else setUart u { x with err := e, rx := x.rx ++ [b] } s
def uartSent (u : Nat) (s : State) : State :=
  if uartOn s u then setUart u { uart s u with tx := (uart s u).tx.drop 1 } s else s
/-- A read of `PAD_UARTu_RX`. -/
def uartRead (u : Nat) (s : State) : Nat × State :=
  match (uart s u).rx with
  | b :: r => (2 ^ 31 + b.toNat, setUart u { uart s u with rx := r } s)
  | [] => (0, s)
def uartErrRead (u : Nat) (s : State) : Nat × State := ((uart s u).err.toNat, setUart u { uart s u with err := 0 } s)
def uartStat (s : State) (u : Nat) : Nat := (uart s u).rx.length * 256 + (64 - (uart s u).tx.length)

def padEventRead (s : State) : Nat × State := (s.pads.events.toNat, setPads (fun p => { p with events := 0 }) s)
/-- `PAD_STRAP`. -/
def padStrap (s : State) : Nat :=
  s.power.strapValid.toNat * 2 ^ 31 + s.power.strapTest.toNat * 16 + s.power.strapSlot.toNat * 4 + s.power.strapBoot.toNat

/-! ### Boot flash (R583) -/

def flashFails (s : State) (c : Nat) : Nat := smGet zeroNat s.pads.flashFails c
/-- [DEDUCED, log entry 79] -/
def flashTimeout (c : Nat) (s : State) : State :=
  setPadEvent (2 + c) (setPads (fun p => { p with flashFails := smPut zeroNat p.flashFails c (flashFails s c + 1) }) s)

/-! ### The mailbox interface (R584 to R588) -/

/-- One step of the CRC-8 with polynomial x^8 + x^2 + x + 1. -/
def crc8Step (c : Byte) : Nat → Byte
  | 0 => c
  | n + 1 => crc8Step (if c.msb then (c <<< 1) ^^^ 0x07#8 else c <<< 1) n
def crc8 (bs : List Byte) : Byte := bs.foldl (fun c b => crc8Step (c ^^^ b) 8) 0
/-- Blocks that lie in the rind (02 R42; 23 R547). -/
def inRind (off : Nat) : Bool := decide (off < 0x400000 ∨ (0x5000000 ≤ off ∧ off < 0x6000000))
def mbxAnswer (st : Nat) (tag : Byte) (data : List Byte) (s : State) : State :=
  setPads (fun p => { p with request := none, reply := some { status := st, tag := tag, data := data } }) s
/-- A write transfer delivers a request; while one executes the mailbox takes none. -/
def mbxRequest (cmd tag len : Byte) (payload : List Byte) (pec : Byte) (s : State) : State :=
  if s.power.mode = .off ∨ s.pads.request.isSome then s
  else if pec ≠ crc8 ([cmd, tag, len] ++ payload) ∨ 56 < len.toNat ∨ payload.length ≠ len.toNat then mbxAnswer stRsvd tag [] s
  else if cmd = 0 ∨ 12 < cmd.toNat then mbxAnswer stNoreg tag [] s
  else
    let s1 := setPads (fun p => { p with request := some (cmd.toNat, tag, payload), reply := none }) s
    if cmd = 7 ∧ !inRind (natOfBytes (payload.take 4)) then latchWake wakeMailbox s1 else s1
/-- The interface returns to idle, whatever it was doing. -/
def mbxStall (s : State) : State := setPadEvent 5 (setPads (fun p => { p with request := none, reply := none }) s)
/-- Bytes of `PAD_MBX_OUT0` to `PAD_MBX_OUT13`. -/
def mbxOutBytes (s : State) (n : Nat) : List Byte :=
  ((List.range 14).flatMap fun w => bytesOfNat (reg s (padReg (0x80 + 4 * w))).toNat 4).take n
/-- `PAD_MBX_CMD`. [DEDUCED, log entry 83] -/
def mbxCmd (v : Word32) (s : State) : Nat × State :=
  let n := fld v 5 0
  if fld v 27 6 ≠ 0 then (stRsvd, s)
  else match fld v 31 28 with
    | 1 => (stOk, setLine 153 false (setPads (fun p => { p with inFull := false }) s))
    | 2 =>
      if n = 0 ∨ 56 < n then (stRange, s)
      else if s.pads.outFull then (stBusy, s)
      else (stOk, alert 1 (setPads (fun p => { p with hostOut := mbxOutBytes s n, outFull := true }) s))
    | _ => (stRsvd, s)
/-- `PAD_MBX_STAT`. -/
def mbxStat (s : State) : Nat :=
  let p := s.pads
  p.inFull.toNat * 2 ^ 31 + p.outFull.toNat * 2 ^ 30 + (match p.dynAddr with | some a => 2 ^ 29 + a.toNat * 2 ^ 16 | none => 0) + p.hostIn.length

/-! ### The TAP (R589 to R591) -/

/-- May they take the pads now? Else they act as BYPASS. -/
def mayScan (s : State) : Bool := s.power.strapTest && decide (s.power.mode = .sequence ∨ s.power.mode = .scan)
/-- [DEDUCED, log entry 84] -/
def leaveScan (s : State) : State := if s.power.mode = .scan then setMode .sequence s else s
def tapReset (s : State) : State := leaveScan (setPads (fun p => { p with ir := 1, safeEn := false, released := false }) s)
/-- [DEDUCED, log entry 84] -/
def tapUpdateIr (ir : BitVec 8) (s : State) : State :=
  let s1 := setPads (fun p => { p with ir := ir, released := false }) s
  if padCode ir && mayScan s then setMode .scan s1 else leaveScan s1
/-- Update-DR into the register the IR selects; the access of DBGACC is a command of its own. [DEDUCED, log entry 84] -/
def tapUpdateDr (d : BitVec 2112) (s : State) : State :=
  let s1 := setPads (fun p => { p with released := false }) s
  let ir := s.pads.ir
  if ir = 2 ∨ ((ir = 0 ∨ ir = 6 ∨ ir = 7) ∧ s.power.mode = .scan) then setPads (fun p => { p with boundary := d }) s1
  else if ir = 0x10 then
    let t := fld d 9 0
    if 1 ≤ t ∧ t ≤ 1000 then setPads (fun p => { p with safeEn := d.getLsbD 15, safeTimeout := BitVec.ofNat 10 t }) s1 else s1
  else s1
/-- The watchdog of SAFEHOLD runs out. [DEDUCED, log entry 84] -/
def safeholdExpires (s : State) : State :=
  if s.pads.safeEn && s.power.mode == .scan && padCode s.pads.ir && !s.pads.released then
    setPadEvent 6 (setPads (fun p => { p with released := true }) s)
  else s

/-- The value that Capture-IR loads (R589). -/
def irCapture (s : State) : Nat :=
  s.pads.released.toNat * 16 + (decide (s.power.mode = .scan)).toNat * 8 + s.power.strapTest.toNat * 4 + 1
/-- The IDCODE (R589): its manufacturer code stands in the BSDL. -/
def idcode : Nat := (natBits sysId 15 12 * 4 + natBits sysId 11 8) % 16 * 2 ^ 28 + 0x6B04 * 2 ^ 12 + Config.manufacturer.toNat * 2 + 1
/-- What Capture-DR loads into the register that the IR selects (R589 to R592): the cells' inputs of the boundary are the board's, a free value. -/
def drCapture (s : State) : Nat :=
  match s.pads.ir.toNat with
  | 1 => idcode
  | 0x10 => s.pads.safeEn.toNat * 2 ^ 15 + s.pads.safeTimeout.toNat
  | 0x20 => s.pads.dbgData.toNat * 2 ^ 32 + s.pads.dbgStatus % 16
  | _ => 0

/-! ### Commands -/

/-- The mailbox and the TAP work while the rind does (R584, R589). -/
def inRindOn (f : State → State) (s : State) : State := if s.power.mode = .off then s else f s
def execGpioInputChange (n : Fin 32) (high : Bool) (s : State) : Out := .next (padLevel n high s)
def execFunctionSwitchComplete (n : Fin 32) (s : State) : Out := .next (padSwitched n.val s)
def execLedDiagnosis (above below : BitVec 4) (s : State) : Out := .next (ledDiagnose above below s)
def execUartRxByte (u : Fin 2) (b : Byte) (frameErr brk : Bool) (s : State) : Out := .next (uartReceive u.val b frameErr brk s)
def execUartByteSent (u : Fin 2) (s : State) : Out := .next (uartSent u.val s)
def execFlashTimeout (c : Fin 2) (s : State) : Out := .next (flashTimeout c.val s)
def execMailboxRequest (cmd tag len : Byte) (payload : List Byte) (pec : Byte) (s : State) : Out :=
  .next (mbxRequest cmd tag len payload pec s)
def execMailboxStall (s : State) : Out := .next (inRindOn mbxStall s)
def execDynamicAddressAssign (a : BitVec 7) (s : State) : Out := .next (inRindOn (setPads fun p => { p with dynAddr := some a }) s)
def execRstdaa (s : State) : Out := .next (inRindOn (setPads fun p => { p with dynAddr := none }) s)
def execTapReset (s : State) : Out := .next (inRindOn tapReset s)
def execTapUpdateIr (ir : BitVec 8) (s : State) : Out := .next (inRindOn (tapUpdateIr ir) s)
def execTapUpdateDr (d : BitVec 2112) (s : State) : Out := .next (inRindOn (tapUpdateDr d) s)
def execSafeholdExpiry (s : State) : Out := .next (safeholdExpires s)

end Sys2Proof.Machine
end

