-- ==== Sys2Proof/Machine/Boot.lean ====
section
/-! DEFINITION. From PWRGD to the first instruction (22 R527; 24 R575; 26 R609 to R614): SEQUENCE, what CALIBRATE leaves, the core map
(01 R16, R17), the loader and the boot block. -/

namespace Sys2Proof.Machine

/-! ### The configuration ledger (02 R56) -/

/-- Journal a write: KIND 0 direct, 1 staged, 2 commit, 3 restore, 4 sequencer. The keeper compacts the full ring. [DEDUCED, log entry 38] -/
def journal (off : Nat) (v : Word32) (kind level : Nat) (s : State) : State :=
  let e : LedgerEntry := { offset := off, value := v, epoch := BitVec.ofNat 16 s.ctl.epoch, kind := kind, level := level,
                           time := BitVec.ofNat 32 (nowNs s / 4096) }
  let old := s.ctl.ledger
  { s with ctl := { s.ctl with ledger := e :: (if old.length < 65536 then old else old.filter fun x => x.offset != off) } }
/-- Has the ring no room for an entry of a register, nor an older one of it that the keeper's compaction takes out (02 R56)? [DEDUCED, log entry 38] -/
def ledgerFull (s : State) (off : Nat) : Bool := decide (65536 ≤ s.ctl.ledger.length) && !(s.ctl.ledger.any fun e => e.offset == off)
/-- A write by the sequencers of CALIBRATE: in force at once. -/
def seqWrite (off v : Nat) (s : State) : State :=
  let w := BitVec.ofNat 32 v
  journal off w 4 2 (setAct off w (setReg off w s))
def seqWrite64 (off v : Nat) (s : State) : State := seqWrite (off + 4) (v / 2 ^ 32) (seqWrite off v s)

/-! ### SEQUENCE -/

/-- SEQUENCE begins; a rail record that the hold-up could not finish is written now (22 R545). [DEDUCED, log entry 86] -/
def enterSequence (s : State) : State :=
  let s1 := setMode .sequence s
  if s.power.railUnknown then logFault 0x300 4 uRind none 0xFF 0 (setPower (fun p => { p with railUnknown := false }) s1) else s1
/-- The straps as sampled after PWRGD (24 R575): all take their defaults where samples of one differ. -/
def takeStraps (boot slot : BitVec 2) (test valid : Bool) (s : State) : State :=
  if valid then setPower (fun p => { p with strapBoot := boot, strapSlot := slot, strapTest := test, strapValid := true }) s
  else setPadEvent 0 (setPower (fun p => { p with strapBoot := 0, strapSlot := 0, strapTest := false, strapValid := false }) s)
/-- PWRGD rises after its filter. -/
def pwrgdRises (boot slot : BitVec 2) (test valid : Bool) (s : State) : State :=
  if s.power.pwrgd then s
  else
    let s1 := setPower (fun p => { p with pwrgd := true }) s
    if s.power.mode = .rind then enterSequence (takeStraps boot slot test valid s1) else s1
/-- The mailbox's power-on command (24 R586). [DEDUCED, log entry 86] -/
def powerOn (s : State) : Nat × State :=
  if s.power.mode ≠ .rind then (stOk, s)
  else if s.power.pwrgd ∧ !s.power.tripped then (stOk, enterSequence (setPower (fun p => { p with cur := some .powerOn, last := 2 }) s))
  else (stRange, s)

/-- The boot order that the straps set (02 R58; 26 R611). -/
def strapOrder (s : State) : Nat := if s.power.strapBoot = 3 then 0 else s.power.strapBoot.toNat
/-- What lies in the rind, in flash, in fuses or outside the device outlives SEQUENCE: the fault log, the straps, the mailbox and the
TAP, pad levels, flash contents, the inventory of spares, retired ways, spared rows and swapped lanes, the command queue. [DEDUCED, log entry 86] -/
def afterSequence (s : State) : State :=
  let z := State.reset
  let m := s.mem
  let boot : BitVec 16 := s.resil.boot + 1
  let s1 : State :=
    { z with
      mem := { z.mem with
        priv := (m.priv.map fun e => (e.1, ({ retired := e.2.retired } : PrivCaches))).filter fun e => decide (e.2 ≠ {}),
        slices := (m.slices.map fun e => (e.1, ({ retired := e.2.retired } : Slice))).filter fun e => decide (e.2 ≠ {}),
        ctls := (m.ctls.map fun e => (e.1, ({ spared := e.2.spared, sparedBanks := e.2.sparedBanks, spareUsed := e.2.spareUsed, erased := e.2.erased,
                                              retired := e.2.retired, pinsUsed := e.2.pinsUsed, repaired := e.2.repaired, pprs := e.2.pprs } : MemCtl))).filter fun e => decide (e.2 ≠ {}) },
      links := { z.links with ports := (s.links.ports.map fun e => (e.1, ({ bad := e.2.bad } : Port))).filter fun e => decide (e.2 ≠ {}) },
      resil := { z.resil with log := s.resil.log, logSeq := s.resil.logSeq, boot := boot, spareLeft := s.resil.spareLeft,
                              spareUsed := s.resil.spareUsed },
      cellar := { z.cellar with life := s.cellar.life, serial := s.cellar.serial, cert := s.cellar.cert, keeperVer := s.cellar.keeperVer,
                                minSecurity := s.cellar.minSecurity, keeperSec := s.cellar.keeperSec, sealed := s.cellar.sealed, nonce := s.cellar.nonce },
      live := { z.live with romVersions := s.live.romVersions, flash := s.live.flash, aging := s.live.aging },
      power := { z.power with strapBoot := s.power.strapBoot, strapSlot := s.power.strapSlot, strapTest := s.power.strapTest,
                              strapValid := s.power.strapValid, vrAlert := s.power.vrAlert, prochotBoard := s.power.prochotBoard,
                              activeRef := s.power.activeRef, refPresent := s.power.refPresent, temps := s.power.temps },
      pads := { z.pads with level := s.pads.level, events := if s.power.strapValid then 0 else 1, dynAddr := s.pads.dynAddr, request := s.pads.request,
                            reply := s.pads.reply, alerts := s.pads.alerts, ir := s.pads.ir, safeEn := s.pads.safeEn,
                            safeTimeout := s.pads.safeTimeout, boundary := s.pads.boundary },
      time := { z.time with src := s.time.src, tins := 0, syncIn := s.time.syncIn },
      ans := s.ans, fresh := s.fresh, pending := s.pending }
  setReg 0x48 (BitVec.ofNat 32 (strapOrder s)) s1
/-- Rails, regulators and fuses are ready. While STRAP_TEST is 1 the device stays in SEQUENCE (22 R527). [DEDUCED, log entry 86] -/
def sequenceDone (s : State) : State :=
  if s.power.mode = .sequence ∧ !s.power.strapTest then noteMode s (afterSequence s) else s

/-! ### CALIBRATE -/

/-- The good physical cores of a tile, by position. -/
def goodOf (bad : List Nat) (t : Nat) : List Nat := ((List.range 72).map fun i => 72 * t + i).filter fun pc => !bad.contains pc
/-- A tile whose first 64 logical cores are filled leaves its other good cores as spares (01 R16). -/
def tileSpares (bad : List Nat) : List Nat := (List.range 8).flatMap fun t => (goodOf bad t).drop 64
/-- The logical cores of tile `t`: its first good cores, then spares taken for those unfilled; the spares that remain. -/
def fillTile (bad : List Nat) (t : Nat) (spares : List Nat) : List Nat × List Nat :=
  let own := (goodOf bad t).take 64
  (own ++ spares.take (64 - own.length), spares.drop (64 - own.length))
def fillTiles (bad : List Nat) : Nat → Nat → List Nat → List Nat
  | 0, _, _ => []
  | n + 1, t, spares =>
    let r := fillTile bad t spares
    r.1 ++ fillTiles bad n (t + 1) r.2
/-- The core map: the physical core of each logical core in order. -/
def coreMap (bad : List Nat) : List Nat :=
  let good := (List.range 576).filter fun pc => !bad.contains pc
  if good.length < 512 then good else fillTiles bad 8 0 (tileSpares bad)
def putMap (map : List Nat) (s : State) : State :=
  { s with resil := { s.resil with
      bound := map.length,
      lcMap := map.zipIdx.foldl (fun m x => smPut lcMapDef m x.2 (some x.1)) [] } }

/-- A header of 26 R613: length, load address, entry. -/
structure Loader where
  bytes : List Byte
  base : Nat
  entry : Nat

def loaderOf (s : State) (cfg : BootConfig) (bs : List Byte) : Option Loader :=
  let n := natOfBytes ((bs.drop 4).take 4)
  let pa := natOfBytes ((bs.drop 8).take 8)
  let entry := natOfBytes ((bs.drop 16).take 4)
  let ok := decide (natOfBytes (bs.take 4) = 0x4C4F4144 ∧ 8192 ≤ n ∧ n ≤ 64 * 2 ^ 20 ∧ n % 4096 = 0 ∧ n ≤ bs.length) &&
    decide (pa % 4096 = 0 ∧ slotOf s * 2 ^ 44 ≤ pa ∧ pa + n + 64 ≤ slotOf s * 2 ^ 44 + hbmSize) &&
    (cfg.cellLimit < pa || decide (pa + n + 64 ≤ cfg.cellBase)) &&
    decide (0x1000 ≤ entry ∧ entry < n) && ((bs.drop 20).take 44).all fun b => b == 0
  if ok then some { bytes := bs.take n, base := pa, entry := entry } else none
/-- The loader of the booted copy, else of the other (26 R613). [DEDUCED, log entry 87] -/
def chooseLoader (s : State) (cfg : BootConfig) : Option Loader := (loaderOf s cfg cfg.loader).or (loaderOf s cfg cfg.otherLoader)

/-- The boot block (26 R614). -/
def bootBlock (s : State) (cfg : BootConfig) (l : Loader) : List Byte :=
  bytesOfNat cfg.cellBase 8 ++ bytesOfNat cfg.cellLimit 8 ++ bytesOfNat (reserveBase s) 8 ++ bytesOfNat l.base 8 ++
    bytesOfNat (l.base + l.bytes.length + 63) 8 ++ bytesOfNat (nowNs s) 8 ++ bytesOfNat 1 4 ++ List.replicate 12 0

/-- A logical core in the state of 07 R174 and 26 R614; its branch keys are values nothing constrains (03 R86). -/
def startCore (l : Loader) (s : State) (lc : Nat) : State :=
  let k1 := drawWord s
  let k2 := drawWord k1.2
  let r : Regs := {}
  let r1 := writeG (setCsr (setCsr (setCsr r 0x401 (BitVec.ofNat 64 l.base)) 0x481 k1.1) 0x880 k2.1) 1
    (BitVec.ofNat 64 (l.base + l.bytes.length))
  setCore k2.2 lc { regs := r1, pc := BitVec.ofNat 64 (l.base + l.entry), standing := .issuing }

/-- A progress message of 26 R610, skipped while the last one has not been read. [DEDUCED, log entry 87] -/
def progress (stage detail : Nat) (s : State) : State :=
  if s.pads.outFull then s
  else alert 1 (setPads (fun p => { p with hostOut := [0xB0, BitVec.ofNat 8 stage] ++ bytesOfNat detail 2, outFull := true }) s)

/-- The copy that booted (26 R611). -/
def bootedCopy (s : State) (fallback : Bool) : Nat :=
  let first := if rfld s 0x48 1 0 = 1 then 1 else 0
  if fallback then 1 - first else first
/-- Is a DIMM supported (11 R273)? -/
def dimmOk (d : Dimm) : Bool :=
  d.rdimmX4 && ([16, 32, 64, 96, 128, 256] : List Nat).contains d.gib && ([1, 2] : List Nat).contains d.pranks &&
    ([1, 2, 4] : List Nat).contains d.height && (decide (6400 ≤ d.rate) || ([5600, 4800] : List Nat).contains d.rate)
/-- What two DIMMs, or two channels, must share: capacity, package ranks, 3DS height, and with them the die density (11 R274). -/
def dimmShape (d : Dimm) : Nat × Nat × Nat := (d.gib, d.pranks, d.height)
/-- The population of a channel, and how many DIMMs it has: none where it is not populated or is excluded (11 R274). -/
def population (ds : List Dimm) (c : Nat) : Option (Nat × (Nat × Nat × Nat)) :=
  let at0 := ds.find? fun d => decide (d.channel = c ∧ d.slot = 0)
  let at1 := ds.find? fun d => decide (d.channel = c ∧ d.slot = 1)
  match at0, at1 with
  | some d, none => if dimmOk d then some (1, dimmShape d) else none
  | some d, some e => if dimmOk d && dimmOk e && dimmShape d == dimmShape e then some (2, dimmShape d) else none
  | _, _ => none
/-- The channels of a population that go into service: the lowest 1, 2, 4 or 8. -/
def serviceSet (ds : List Dimm) (p : Nat × (Nat × Nat × Nat)) : List Nat :=
  let all := (List.range 8).filter fun c => population ds c == some p
  all.take (2 ^ Nat.log2 all.length)
/-- The choice of 11 R274: the largest set; of equal ones that of the population most channels hold, then that of the lowest channels. -/
def chooseSet (ds : List Dimm) : List Nat :=
  let count (c : Nat) : Nat := ((List.range 8).filter fun x => population ds x == population ds c).length
  let size (c : Nat) : Nat := match population ds c with | some p => 16 * (serviceSet ds p).length + count c | none => 0
  let best := (List.range 8).foldl (fun a c => if size a < size c then c else a) 0
  match population ds best with
  | some p => serviceSet ds p
  | none => []
/-- The code of the data rate: the lowest of 6,400 MT/s and the rated rates (11 R274, R296). -/
def rateCode (ds : List Dimm) (chs : List Nat) : Nat :=
  let r := ((ds.filter fun d => chs.contains d.channel).map fun d => d.rate).foldl min 6400
  if r < 5600 then 0 else if r < 6400 then 1 else 2
/-- DDR after steps 5 and 7 (11 R273, R274, R293): the DIMMs in service, the unsupported ones recorded, the reserve of one DIMM's size set
aside, the retirements of earlier boots in force, the spares that the SPDs tell. -/
def bootDdr (ds : List Dimm) (s : State) : State :=
  let chs := chooseSet ds
  let d0 := (ds.find? fun d => decide (chs.head? = some d.channel ∧ d.slot = 0)).getD { channel := 0, gib := 0 }
  let per := if ds.any fun d => decide (chs.head? = some d.channel ∧ d.slot = 1) then 2 else 1
  let s1 : State :=
    { s with mem := { s.mem with
        dimms := ds, ddrChannels := chs, dimmsPerCh := per, prankLog2 := Nat.log2 d0.pranks, rankLog2 := Nat.log2 (d0.pranks * d0.height),
        ddrGib := chs.length * per * d0.gib, ddrRate := rateCode ds chs } }
  let s2 := (List.range 8).foldl (fun a c => setMemCtl (8 + c) { memCtl a (8 + c) with
      excluded := !chs.contains c,
      retired := (memCtl a (8 + c)).retired.map fun r => { r with pointer := r.total, done := true } } a) s1
  let s3 := (ds.filter fun d => !dimmOk d).foldl (fun a d => logMem 0x109 { unit := 8 + d.channel % 8, place := 16 * d.slot } a) s2
  let total := if chs.isEmpty then 0 else dimmMib s3
  let gone := ((List.range 8).map fun c => ((memCtl s3 (8 + c)).retired.map fun r => r.total).foldl (· + ·) 0).foldl (· + ·) 0
  let hard := (((ds.filter fun d => chs.contains d.channel).map fun d => d.hppr).foldl (· + ·) 0) -
    ((List.range 8).map fun c => (memCtl s3 (8 + c)).pprs).foldl (· + ·) 0
  setReserve total (total - gone) { s3 with resil := { s3.resil with spareLeft := smPut spareTotal s3.resil.spareLeft 6 hard } }
/-- Memory after steps 5 and 7: DDR configured, every lane trained, the LFSRs seeded anew (09 R228), slices below their floor removed
(09 R245). -/
def bootMemory (cfg : BootConfig) (s : State) : State :=
  let s1 := trainAll cfg.sweeps (bootDdr cfg.dimms s)
  { s1 with
    mem := { s1.mem with
      lfsrBase := s1.fresh, lfsrs := [],
      slices := s1.mem.slices.map fun e => (e.1, if healthyWays e.2.retired < 12 then { e.2 with removed := true } else e.2) },
    fresh := s1.fresh + 1 }
/-- Registers that CALIBRATE sets (26 R609 steps 8 and 9, R611; 19 R464); the lock rows of 26 R612. -/
def bootRegs (cfg : BootConfig) (s : State) : State :=
  let pages := (ddrBase + s.mem.ddrGib * 2 ^ 30) / 4096
  let s1 := seqWrite64 0x8000028 cfg.cellLimit (seqWrite64 0x8000020 cfg.cellBase (seqWrite64 0x8000010 cfg.potBase s))
  let s2 := seqWrite 0x8000018 ((pages + 65535) / 65536) s1
  let s3 := (match cfg.tc0Ceil with | some v => seqWrite frkCeilOff v.toNat s2 | none => s2)
  let s4 := (match cfg.powerCeil with
    | some v =>
      let a := seqWrite 0x100034 v.toNat s3
      if fld v 10 0 < rfld a 0x100030 10 0 then seqWrite 0x100030 (fld v 10 0) a else a
    | none => s3)
  let copy := bootedCopy s cfg.fallback
  let s5 := seqWrite 0x48 (rfld s 0x48 1 0 + 16 * copy + (if cfg.fallback then 256 else 0)) s4
  let s6 := if s.power.strapBoot = 2 then
      (List.range 11).foldl (fun a i => padCfgWritten (13 + i) (padCfg a (13 + i)) (seqWrite (padReg (0x100 + 4 * (13 + i))) 0x2000000 a)) s5
    else s5
  let s7 : State :=
    { s6 with
      ctl := { s6.ctl with locks := 0x3F },
      cellar := { s6.cellar with potStarted := true },
      live := { s6.live with bootCopy := copy } }
  (cfg.peCfg.zipIdx.take 3).foldl (fun a x => peStart x.2 (seqWrite (pcieReg (0x10 + 4 * x.2)) x.1.toNat a)) s7
/-- Steps 3 and 4 (26 R609; 19 R471, R474): the boot ROM measures the keeper, the keeper its configuration; it opens what it has sealed and loads
the accepted patches of the booted copy into every control store, each measured first. The form of what MR1 measures is the model's.
[DEDUCED, log entry 100] -/
def bootPatches (cfg : BootConfig) (s : State) : State :=
  let copy := bootedCopy s cfg.fallback
  let s1 := extendMr 1 (sha384 (cfg.fuses ++ bytesOfNat (reg s 0x48).toNat 4)) (extendMr 0 cfg.keeperDigest s)
  let s2 := openSealed [(0, cfg.sealedA), (1, cfg.sealedB)] s1
  (List.range 6).foldl (fun a k =>
    match smGet noImage (smGet (fun _ => []) a.live.flash copy) k with
    | some im =>
      let b := (List.range (storeShape k).instances).foldl (fun x n => loadBank k n (some im) x) (extendMr 2 im.digest a)
      setLive (fun l => { l with versions := smPut ver0 l.versions k im.version, inService := smPut noImage l.inService k (some im) }) b
    | none => setLive (fun l => { l with versions := smPut ver0 l.versions k (smGet ver0 l.romVersions k) }) a) s2
/-- Step 10: every bound core starts together, spares stay OFF; with fewer than 512 cores the device enters CONTAIN (01 R17). -/
def bootCores (l : Loader) (s : State) : State :=
  let s1 := (boundCores s).foldl (startCore l) s
  let used := (boundCores s).map (pcOf s)
  let s2 := (List.range 576).foldl (fun a pc => if used.contains pc then a else setCoreIsland pc .offState a) s1
  let s3 := setMode .run { s2 with time := { s2.time with started := true } }
  if s.resil.bound < 512 then enterContain containCores s3 else s3
/-- [DEDUCED, log entry 87] -/
def calibrateDone (cfg : BootConfig) (s : State) : State :=
  if s.power.mode ≠ .calibrate then s
  else if !cfg.keeperOk then progress 0xF3 0 (logFault 0x400 5 uDevice none 1 0 s)
  else
    let s0 := bootMemory cfg (progress 2 0 (bootPatches cfg (progress 1 0 s)))
    let map := coreMap cfg.badCores
    let ready := progress 5 0 (progress 4 map.length (progress 3 s0.mem.ddrChannels.length s0))
    let s1 := progress 7 0 (bootRegs cfg (progress 6 0 ready))
    let v := smGet ver0 s1.live.versions 0
    let s2 := putMap map { s1 with resil := { s1.resil with
      cores := (List.range 576).foldl (fun m pc => smPut physDef m pc
        (if cfg.badCores.contains pc then { good := false, service := false, version := v } else { version := v })) [] } }
    match chooseLoader s2 cfg with
    | none => progress 0xF9 0 (logFault 0x400 5 uDevice none 2 0 s2)
    | some l =>
      let s3 := writeBytes l.base l.bytes s2
      let s4 := extendMr 8 (sha384 l.bytes) (writeBytes (l.base + l.bytes.length) (bootBlock s3 cfg l) s3)
      bootCores l (progress 8 0 s4)

/-! ### Commands -/

def execPwrgdRise (boot slot : BitVec 2) (test valid : Bool) (s : State) : Out := .next (pwrgdRises boot slot test valid s)
def execSequenceComplete (s : State) : Out := .next (sequenceDone s)
def execCalibrateComplete (cfg : BootConfig) (s : State) : Out := .next (calibrateDone cfg s)

end Sys2Proof.Machine
end

