-- ==== Sys2Proof/Machine/Csr.lean ====
section
/-! DEFINITION. Core CSRs (03 R62 to R67; 05 R130; 07 R174; 08 R197; 19 R455; 23 R558): which exist, the checks of reading and writing
them, what a write does beside its value; the performance counters and the sample buffer (23 R564 to R567). -/

namespace Sys2Proof.Machine

/-- A core CSR: access, bits that are not reserved, read-only bits of a writable one. -/
structure CsrDesc where
  acc : RegAcc := .rw
  bits : Nat := 0xFFFFFFFFFFFFFFFF
  ro : Nat := 0

/-- A field of whole 4 KiB pages, bits [51:12]. -/
def pageBits : Nat := 0xFFFFFFFFFF000
/-- The exception registers 0x401 to 0x40A and their K copies. -/
def excCsr (n : Nat) : Option CsrDesc :=
  match n with
  | 1 => some { bits := 0xFFFFFFFFFFFFF000 }
  | 2 | 6 => some { bits := 0xFFFFFFFFFFFFFFFC }
  | 3 => some { bits := 0xF31 }
  | 4 => some { bits := 0xC0001FFF0000FFFF }
  | 7 => some { bits := 0xFFFFFFFF }
  | 5 | 8 | 9 | 10 => some {}
  | _ => none
def csrDesc (n : Nat) : Option CsrDesc :=
  match n with
  | 0x001 => some { bits := 0xF }
  | 0x002 => some { bits := 0x331F1F }
  | 0x008 => some {}
  | 0x009 => some { acc := .ro }
  | 0x040 => some { bits := 0xFFFFFFFF }
  | 0x400 => some { bits := 0xE7, ro := 0xE0 }
  | 0x410 => some { bits := 0xFF1F, ro := 0x1E }
  | 0x411 => some { bits := 0xFF01 }
  | 0x480 => some { bits := 0xFFFF }
  | 0x481 | 0x880 => some { acc := .wo }
  | 0x482 => some { bits := 7 }
  | 0x4C0 => some { bits := 0xCF }
  | 0x4C1 => some { bits := 0xFFFF }
  | 0x4C2 | 0x4C3 | 0x820 | 0x821 | 0x541 => some { bits := pageBits }
  | 0x4C4 | 0x522 => some { bits := 1 }
  | 0x520 => some { bits := 0x1FF }
  | 0x521 => some { bits := 0x80001FFF }
  | 0x540 => some { bits := 0xE000001F }
  | 0x542 => some { acc := .ro }
  | 0x543 => some { bits := 0xFFFFFFFF }
  | 0x610 | 0x800 => some { bits := 3 }
  | 0x810 | 0x811 => some { acc := .ro }
  | 0x822 => some { bits := 0xC9 }
  | _ =>
    if 0x401 ≤ n ∧ n ≤ 0x40A then excCsr (n - 0x400)
    else if 0x801 ≤ n ∧ n ≤ 0x80A then excCsr (n - 0x800)
    else if 0x418 ≤ n ∧ n ≤ 0x41F then some { bits := 0x800000000000FFFF }
    else if 0x500 ≤ n ∧ n ≤ 0x508 then some {}
    else if 0x510 ≤ n ∧ n ≤ 0x517 then some { bits := 0xFFC003FF }
    else if (0x600 ≤ n ∧ n ≤ 0x603) ∨ (0x608 ≤ n ∧ n ≤ 0x60B) then some {}
    else if 0x60C ≤ n ∧ n ≤ 0x60F then some { bits := 0x3FF }
    else none

/-! ### Performance counters (23 R564 to R567) -/

/-- The events of the table *Core events*, and those marked speculative. -/
def pmEvents : List Nat :=
  [0, 1, 2, 3, 4, 5, 6, 0x10, 0x11, 0x12, 0x13, 0x20, 0x21, 0x22, 0x23, 0x24, 0x25, 0x26, 0x27, 0x28, 0x30, 0x31, 0x32, 0x40, 0x41,
   0x50, 0x51, 0x52, 0x60, 0x61, 0x70, 0x71, 0x72]
def pmSpeculative : List Nat := [2, 6, 0x13, 0x28, 0x30, 0x31, 0x32, 0x52]
def pmSel (r : Regs) (i : Nat) : Word64 := csr r (0x510 + i)
/-- [DEDUCED, log entry 34] -/
def pmFrozen (r : Regs) : Bool := (csr r 0x522).getLsbD 0
/-- Does counter `i` count at a level? No counter counts at K (R565). [DEDUCED, log entry 34] -/
def pmCounts (r : Regs) (level i : Nat) : Bool :=
  !pmFrozen r && (match level with
    | 0 => i == 8 || (pmSel r i).getLsbD 31
    | 1 => i == 8 || (pmSel r i).getLsbD 30
    | _ => false)
def updRegs (lc : Nat) (f : Regs → Regs) (s : State) : State := updCore lc (fun c => { c with regs := f c.regs }) s
/-- Raise `CSR_PMINT`'s source if enabled. -/
def pmRaise (lc : Nat) (s : State) : State :=
  let p := csr (coreOf s lc).regs 0x521
  if p.getLsbD 31 then raiseMsg (fld p 12 0) s else s

/-- The sample record of R567. [DESIGN CHOICE, log entry 17] -/
def sampleBytes (lc : Nat) (e : PmEvent) (latency : List Byte) (s : State) : List Byte :=
  bytesOfNat e.pc.toNat 8 ++ bytesOfNat (e.daddr.getD 0).toNat 8 ++ (if e.daddr.isSome then latency else [0, 0, 0, 0]) ++
    bytesOfNat e.event 2 ++ bytesOfNat lc 2 ++ [BitVec.ofNat 8 e.source, BitVec.ofNat 8 e.flags, BitVec.ofNat 8 e.tc] ++
    List.replicate 5 0 ++ bytesOfNat (nowNs s) 8 ++ bytesOfNat (csr (coreOf s lc).regs 0x500).toNat 8 ++ List.replicate 16 0
/-- `CYC` counts: at U or S, not frozen, halted or in a relocation's pause (R565). -/
def cycRuns (c : Core) : Bool := !pmFrozen c.regs && c.standing != .halted && !c.paused && levelOf c.regs != 2
/-- Cycles pass for `CYC` in a number nothing constrains. [DESIGN CHOICE, log entry 17] -/
def cycTick (lc : Nat) (s : State) : State :=
  if cycRuns (coreOf s lc) then
    let d := drawCount s
    let n := (csr (coreOf s lc).regs 0x500).toNat + d.1.toNat
    if n < 2 ^ 64 then updRegs lc (fun q => setCsr q 0x500 (BitVec.ofNat 64 n)) d.2
    else pmRaise lc (updRegs lc (fun q => setCsr (setCsr q 0x500 (BitVec.ofNat 64 (n - 2 ^ 64))) 0x520 (csr q 0x520 ||| 0x100)) d.2)
  else s
/-- Write a sample record, or drop it: no room sets FULL, a page that may not be written sets ERR. The latency is open (R567 counts
cycles). -/
def sample (lc : Nat) (e : PmEvent) (s : State) : State :=
  let r := (coreOf s lc).regs
  let ctl := csr r 0x540
  let head := (csr r 0x542).toNat
  let used := (head + 2 ^ 32 - (csr r 0x543).toNat) % 2 ^ 32
  let size := 2 ^ fld ctl 4 0
  if !ctl.getLsbD 31 then s
  else if size ≤ used then
    let s1 := updRegs lc (fun q => setCsr q 0x540 (putFld ctl 30 30 1)) s
    if ctl.getLsbD 30 then s1 else pmRaise lc s1
  else
    let pa := (csr r 0x541).toNat + head % size * 64
    let own := match placeOf pa with | some p => decide ((p.region = .hbm ∨ p.region = .ddr) ∧ p.slot = slotOf s) | none => false
    if own && backed s pa && ownerCode s pa == 0 then
      let d := drawBytes 4 (cycTick lc s)
      let s1 := inject lc 3 1 (lineResources s pa) (agentWrite 3 pa (sampleBytes lc e d.1 d.2) d.2)
      updRegs lc (fun q => setCsr q 0x542 (BitVec.ofNat 64 ((head + 1) % 2 ^ 32))) s1
    else updRegs lc (fun q => setCsr q 0x540 (putFld (putFld ctl 29 29 1) 31 31 0)) s
/-- Counter `i` (8 is `CYC`) passes its top by `excess` (R566). -/
def pmWrap (lc i excess : Nat) (e : PmEvent) (s : State) : State :=
  let r := (coreOf s lc).regs
  let sel := if i = 8 then 0 else pmSel r i
  let plog := fld sel 27 22
  let value := if sel.getLsbD 29 then 2 ^ 64 - 2 ^ plog + excess % 2 ^ plog else excess
  let off := if i = 8 then 0x500 else 0x501 + i
  let s1 := updRegs lc (fun q => setCsr (setCsr q off (BitVec.ofNat 64 value)) 0x520 (csr q 0x520 ||| BitVec.ofNat 64 (2 ^ i))) s
  let s2 := if sel.getLsbD 29 then sample lc e s1 else s1
  if i = 8 ∨ sel.getLsbD 28 then pmRaise lc s2 else s2
/-- Add to a counter. -/
def pmAdd (lc i : Nat) (e : PmEvent) (s : State) : State :=
  let off := if i = 8 then 0x500 else 0x501 + i
  let n := (csr (coreOf s lc).regs off).toNat + e.n
  if n < 2 ^ 64 then updRegs lc (fun q => setCsr q off (BitVec.ofNat 64 n)) s else pmWrap lc i (n - 2 ^ 64) e s
/-- Count an event that has committed, in every counter that selects it. -/
def pmCount (lc : Nat) (s : State) (e : PmEvent) : State :=
  (List.range 8).foldl (fun a i =>
    let r := (coreOf a lc).regs
    if fld (pmSel r i) 9 0 = e.event && e.event != 0 && pmCounts r e.level i then pmAdd lc i e a else a) s
/-- Cycles, and events marked speculative, pass in a number nothing constrains: counter `i` takes it when it is read (R565), and before a counter
stops, at a halt, a freeze or a gateway call. None passes at K, halted or in a relocation's pause (19 R462, 20 R485). [DESIGN CHOICE, log entry 17] -/
def pmTick (lc i : Nat) (s : State) : State :=
  let c := coreOf s lc
  if i = 8 then cycTick lc s
  else if pmSpeculative.contains (fld (pmSel c.regs i) 9 0) && cycRuns c then
    let d := drawCount s
    pmAdd lc i { event := 0, n := d.1.toNat, pc := c.pc } d.2
  else s

def pmTickAll (lc : Nat) (s : State) : State := (List.range 9).foldl (fun a i => pmTick lc i a) s

/-! ### Reading and writing -/

/-- `CSR_GSTAT` (19 R455). -/
def gstatWord (c : Core) : Nat := c.gate.isOpen.toNat * 128 + c.gate.level.toNat
/-- The value a CSR reads as. -/
def csrValue (s : State) (lc n : Nat) : Word64 :=
  let c := coreOf s lc
  match n with
  | 0x001 => flagsWord c.regs.flags
  | 0x009 => BitVec.ofNat 64 lc
  | 0x410 => csr c.regs 0x410 ||| BitVec.ofNat 64 ((intrFor s lc).toNat * 16)
  | 0x481 | 0x880 => 0
  | 0x811 => BitVec.ofNat 64 (gstatWord c)
  | _ => csr c.regs n
/-- May the level reach the CSR (03 R62; 07 R175)? -/
def csrLevelOk (r : Regs) (lvl n : Nat) : Bool :=
  (0xC00 ≤ n || decide (n / 1024 ≤ lvl)) && !(n == 2 && lvl == 0 && (csr r 0x400).getLsbD 2)
/-- The status and value of a read (03 R64), at level `lvl`. -/
def csrRead (lc lvl n : Nat) (s : State) : Nat × Word64 × State :=
  if !csrLevelOk (coreOf s lc).regs lvl n then (stPriv, 0, s)
  else match csrDesc n with
    | none => (stNoreg, 0, s)
    | some _ =>
      let s1 := if n = 0x500 then pmTick lc 8 s else if 0x501 ≤ n ∧ n ≤ 0x508 then pmTick lc (n - 0x501) s else s
      (stOk, csrValue s1 lc n, s1)
/-- The written value is outside a field's legal range. [DEDUCED, log entry 88] -/
def csrRangeBad (r : Regs) (n : Nat) (v : Word64) : Bool :=
  if n = 0x403 then decide (2 ≤ fld v 5 4)
  else if 0x510 ≤ n ∧ n ≤ 0x517 then
    !pmEvents.contains (fld v 9 0) || decide (40 < fld v 27 22) || (v.getLsbD 29 && pmSpeculative.contains (fld v 9 0))
  else if n = 0x521 then decide (fld v 12 0 < 256)
  else if n = 0x540 then decide (fld v 4 0 < 6 ∨ 20 < fld v 4 0)
  else if n = 0x543 then
    let t := (csr r 0x543).toNat
    decide (((csr r 0x542).toNat + 2 ^ 32 - t) % 2 ^ 32 < (v.toNat + 2 ^ 32 - t) % 2 ^ 32)
  else if 0x60C ≤ n ∧ n ≤ 0x60F then decide (12 < fld v 9 4 ∨ (csr r (n - 4)).toNat % 2 ^ fld v 9 4 ≠ 0)
  else if 0x608 ≤ n ∧ n ≤ 0x60B then decide (v.toNat % 2 ^ fld (csr r (n + 4)) 9 4 ≠ 0)
  else false
def flushTlbs (c : Core) : Core := { c with tlbs := {} }
/-- Store a checked value, with what the write does beside it (03 R65, R67; 07 R187; 08 R198; 19 R456). -/
def csrApply (lc n : Nat) (v : Word64) (s : State) : State :=
  let c := coreOf s lc
  let put (x : Word64) : State := updRegs lc (fun r => setCsr r n x) s
  match n with
  | 0x001 => updRegs lc (fun r => { r with flags := flagsOfWord v }) s
  | 0x410 => put (v &&& 0xFF01)
  | 0x482 =>
    let s1 := put (v &&& 3)
    if v.getLsbD 2 then updCore lc (fun x => { x with retStack := [], overlay := [], unpushed := [], missed := [], itt := [] }) s1 else s1
  | 0x4C0 | 0x822 => if (csr c.regs n).getLsbD 0 = v.getLsbD 0 then put v else updCore lc flushTlbs (put v)
  | 0x522 =>
    let s1 := if v.getLsbD 0 then pmTickAll lc s else s
    updRegs lc (fun r => setCsr r n v) s1
  | _ =>
    if 0x418 ≤ n ∧ n ≤ 0x41F then
      let s1 := put v
      updRegs lc (armRegs s1 none) s1
    else if 0x510 ≤ n ∧ n ≤ 0x517 then updRegs lc (fun r => setCsr r n v) (pmTick lc (n - 0x510) s)
    else put v
/-- The status of writing `v` (03 R64), and the state after it. [DEDUCED, log entry 88] -/
def csrWrite (lc lvl n : Nat) (v : Word64) (s : State) : Nat × State :=
  let r := (coreOf s lc).regs
  if !csrLevelOk r lvl n then (stPriv, s)
  else match csrDesc n with
    | none => (stNoreg, s)
    | some d =>
      let ro := BitVec.ofNat 64 d.ro
      if d.acc = .ro || (v &&& ro) != (csrValue s lc n &&& ro) then (stNoreg, s)
      else if (v &&& ~~~(BitVec.ofNat 64 d.bits)) != 0 then (stRsvd, s)
      else if csrRangeBad r n v then (stRange, s)
      else (stOk, csrApply lc n v s)
/-- The value CSRSET and CSRCLR start from. [DEDUCED, log entry 88] -/
def csrBase (s : State) (lc n : Nat) : Word64 := if n = 0x481 ∨ n = 0x880 then csr (coreOf s lc).regs n else csrValue s lc n

/-- A counter that stands at its top counts once more (R566): `i` is 8 for `CYC`. -/
def execPmcWrap (lc : LC) (i : Fin 9) (s : State) : Out :=
  let c := coreOf s lc.val
  let top := csr c.regs (if i.val = 8 then 0x500 else 0x501 + i.val) = BitVec.allOnes 64
  .next (if top && pmCounts c.regs (levelOf c.regs) i.val && c.standing == .issuing then
      pmAdd lc.val i.val { event := fld (pmSel c.regs i.val) 9 0, pc := c.pc } s
    else s)

end Sys2Proof.Machine
end

