-- ==== Sys2Proof/Machine/Debug.lean ====
section
/-! DEFINITION. The debug attachment and its authorisation (23 R547 to R549; 19 R475), halting and stepping (R550 to R554), the register
window (R555), memory by cycle stealing (R556, R557), trace (R562, R563). -/

namespace Sys2Proof.Machine

def dbgReg (o : Nat) : Nat := 0x5000000 + o
def setDbg (f : Dbg → Dbg) (s : State) : State := { s with dbg := f s.dbg }
/-- The path a writer uses: the TAP, the mailbox, or in-band (R547). -/
def pathOf : Writer → Nat
  | .path p => p.val
  | _ => 3
/-- Does the writer's path hold the attachment at this level or above (R548)? Level 0 asks for nothing. -/
def dbgAllows (s : State) (w : Writer) (lvl : Nat) : Bool := lvl == 0 || (s.dbg.path == pathOf w && decide (lvl ≤ s.dbg.level))
/-- An access by the holding path keeps the attachment. -/
def dbgTouch (w : Writer) (s : State) : State := if s.dbg.path = pathOf w then setDbg (fun d => { d with lastAccess := s.time.now }) s else s
/-- `DBG_STAT`. -/
def dbgStat (s : State) : Nat := s.dbg.level * 2 ^ 30 + s.dbg.path * 2 ^ 28

/-! ### The trace ring (R562, R563) -/

def traceBase (s : State) : Nat := reg64 s (dbgReg 0x2400)
def traceSize (s : State) : Nat := 2 ^ rfld s (dbgReg 0x2408) 4 0
def traceOn (s : State) : Bool := (reg s (dbgReg 0x240C)).getLsbD 0
def traceUsed (s : State) : Nat := (s.dbg.trHead + 2 ^ 32 - (reg s (dbgReg 0x2414)).toNat) % 2 ^ 32
/-- The 32 bytes of a packet. [DEDUCED, log entry 89] -/
def packet (kind port : Nat) (lcore : Option Nat) (data : Nat) (arg : Nat) (s : State) : List Byte :=
  [BitVec.ofNat 8 kind, BitVec.ofNat 8 port] ++ bytesOfNat (match lcore with | some n => 2 ^ 15 + n | none => 0) 2 ++ bytesOfNat data 4 ++
    bytesOfNat (nowNs s) 8 ++ bytesOfNat arg 8 ++ bytesOfNat s.dbg.trHead 4 ++ [0, 0, 0, 0]
/-- Write a packet whole, then pass it. -/
def putPacket (bs : List Byte) (s : State) : State :=
  let pa := traceBase s + s.dbg.trHead % traceSize s * 32
  let s1 := bump (dbgReg 0x2510) (inject 535 3 1 (lineResources s pa) (agentWrite 3 pa bs s))
  setDbg (fun d => { d with trHead := (d.trHead + 1) % 2 ^ 32 }) s1
/-- Emit a packet while tracing is on: dropped and counted where the ring has no room; a LOST packet comes before the next one. -/
def emit (kind port : Nat) (lcore : Option Nat) (data arg : Nat) (s : State) : State :=
  let drop (a : State) : State := bump (dbgReg 0x2518) (setDbg (fun d => { d with trOwed := d.trOwed + 1 }) a)
  if !traceOn s then s
  else if traceSize s ≤ traceUsed s then drop s
  else if s.dbg.trOwed = 0 then putPacket (packet kind port lcore data arg s) s
  else
    let s1 := setDbg (fun d => { d with trOwed := 0 }) (putPacket (packet 2 0 none 0 s.dbg.trOwed s) s)
    if traceSize s1 ≤ traceUsed s1 then drop s1 else putPacket (packet kind port lcore data arg s1) s1
/-- HALT (4) and RESUME (5) packets, where they are asked for. -/
def emitHalt (kind lc data : Nat) (s : State) : State :=
  if (reg s (dbgReg 0x240C)).getLsbD 1 then emit kind 0 (some lc) data (coreOf s lc).pc.toNat s else s
/-- A write to a stimulus port. -/
def stim (w : Writer) (p : Nat) (v : Word32) (s : State) : State :=
  let atK := match w with | .core lc => levelOf (coreOf s lc.val).regs == 2 | _ => false
  let lcore := match w with | .core lc => some lc.val | _ => none
  if (reg s (dbgReg 0x2420 + 4 * (p / 32))).getLsbD (p % 32) && !atK then emit 1 p lcore v.toNat 0 s else s
/-- Are the ring's pages HBM or DDR of the device's own slot with owner code 0? -/
def tracePagesOk (s : State) : Bool :=
  (List.range ((traceSize s * 32 + 4095) / 4096)).all fun i =>
    let pa := traceBase s + 4096 * i
    match placeOf pa with
    | some p => decide ((p.region = .hbm ∨ p.region = .ddr) ∧ p.slot = slotOf s) && backed s pa && ownerCode s pa == 0
    | none => false

/-! ### Halting (R550 to R554) -/

/-- Cause bits as `DBG_LCn_STAT` [30:26] shows them. -/
def causeRequest : BitVec 5 := 16
def causeBreak : BitVec 5 := 8
def causeWatch : BitVec 5 := 4
def causeStep : BitVec 5 := 2
def causeAll : BitVec 5 := 1
def haltedCores (s : State) : Nat := ((boundCores s).filter fun lc => (coreOf s lc).standing == .halted).length
/-- The time base is off while every bound core is halted (18 R438), as in DOZE and DEEP_DOZE that are not emulated. -/
def noteHalts (s : State) : State :=
  setTbOff (decide (s.power.pstate ≠ 0 ∧ !s.power.emu) || decide (0 < s.resil.bound ∧ haltedCores s = s.resil.bound)) s
/-- The core halts. -/
def haltCore (lc : Nat) (cause : BitVec 5) (s : State) : State :=
  let s1 := updCore lc (fun c => { c with standing := .halted, wait := none, haltReq := false, stepReq := false, haltCause := c.haltCause ||| cause, resuming := false }) (pmTickAll lc s)
  noteHalts (emitHalt 4 lc ((coreOf s1 lc).haltCause.toNat * 2 ^ 26) s1)
/-- A halted core runs again: matches are suppressed in its first unit where a match had halted it (R552); a failed vector fetch still
stops it unless its PC was changed (07 R181). -/
def resumeCore (lc : Nat) (step : Bool) (s : State) : State :=
  let s0 := emitHalt 5 lc 0 s
  noteHalts (updCore lc (fun c => { c with
    standing := if c.vecStop then .stopped else .issuing, stepReq := step, haltReq := false,
    skipOnce := c.skipOnce || (c.haltCause &&& (causeBreak ||| causeWatch)) != 0, haltCause := 0, resuming := true }) s0)
/-- A halt request: nothing more for a halted core (R550). -/
def requestHalt (cause : BitVec 5) (lc : Nat) (s : State) : State :=
  if (coreOf s lc).standing = .halted then s
  else updCore lc (fun c => { c with haltReq := true, haltCause := c.haltCause ||| cause }) s
/-- The halt at a group boundary: after a relocation drain, never at K (R550). -/
def haltNow (lc : Nat) (s : State) : State :=
  let c := coreOf s lc
  if c.haltReq && c.group.isNone && c.shadows.isEmpty && !c.drainReq && !c.paused && levelOf c.regs != 2 && c.standing != .halted &&
      bound s lc then haltCore lc 0 s
  else s
/-- `DBG_LCn_CMD`. -/
def lcCmd (lc : Nat) (v : Word32) (s : State) : Nat × State :=
  let halted := (coreOf s lc).standing == .halted
  if fld v 27 0 ≠ 0 then (stRsvd, s)
  else match fld v 31 28 with
    | 1 => (stOk, requestHalt causeRequest lc s)
    | 2 => if halted then (stOk, resumeCore lc false s) else (stRunning, s)
    | 3 => if halted then (stOk, resumeCore lc true s) else (stRunning, s)
    | _ => (stRsvd, s)
def resumeHalted (s : State) (lc : Nat) : State := if (coreOf s lc).standing = .halted then resumeCore lc false s else s
/-- `DBG_HALTALL`. -/
def haltAll (v : Word32) (s : State) : Nat × State :=
  if fld v 27 0 ≠ 0 then (stRsvd, s)
  else match fld v 31 28 with
    | 1 => (stOk, (boundCores s).foldl (fun a lc => requestHalt causeAll lc a) s)
    | 2 => (stOk, (boundCores s).foldl resumeHalted s)
    | _ => (stRsvd, s)
/-- Does `DBG_LCn_STAT.HALTED` read 1: from the halt until the first instruction after a resume issues (R550)? -/
def showsHalted (c : Core) : Bool := c.standing == .halted || c.resuming
/-- `DBG_LCn_STAT`: the causes stand while the core is halted. [DEDUCED, log entry 89] -/
def lcStat (s : State) (lc : Nat) : Nat :=
  let c := coreOf s lc
  (showsHalted c).toNat * 2 ^ 31 + (if c.standing = .halted then c.haltCause.toNat else 0) * 2 ^ 26
/-- `DBG_HALTALL_STAT`. -/
def haltAllStat (s : State) : Nat := ((boundCores s).filter fun lc => showsHalted (coreOf s lc)).length

/-! ### The attachment and its level (R547, R549) -/

/-- The level returns to CLOSED: every `DBG_LCn_CTL` at reset, every halted core resumes; a step in progress completes first. -/
def closeLevel (s : State) : State :=
  let s1 := noteMode s (setDbg (fun d => { d with level := 0, grantEnd := 0, challenge := [], wanted := none }) s)
  let s2 := (boundCores s1).foldl (fun a lc => setReg (dbgReg 0x100 + 16 * lc) 0 a) s1
  (boundCores s2).foldl (fun a lc => updCore lc (fun c => { c with haltReq := false, stepReq := false, haltCause := 0 }) (resumeHalted a lc)) s2
/-- [DEDUCED, log entry 89] -/
def detach (s : State) : State := setDbg (fun d => { d with path := 0 }) (closeLevel s)
/-- `DBG_ATTACH`; a path may attach again, and a detach by a path that holds nothing ends nothing. [DEDUCED, log entry 89] -/
def dbgAttach (w : Writer) (v : Word32) (s : State) : Nat × State :=
  let p := pathOf w
  if fld v 27 0 ≠ 0 then (stRsvd, s)
  else match fld v 31 28 with
    | 1 =>
      if s.dbg.path = p then (stOk, s)
      else if s.dbg.path ≠ 0 then (stBusy, s)
      else (stOk, setDbg (fun d => { d with path := p, lastAccess := s.time.now }) s)
    | 2 => if s.dbg.path = p then (stOk, detach s) else if s.dbg.path = 0 then (stOk, s) else (stBusy, s)
    | _ => (stRsvd, s)
/-- The holding path has made no access for SECONDS. [DESIGN CHOICE, log entry 7] -/
def attachLate (s : State) : State :=
  if s.dbg.path ≠ 0 ∧ s.dbg.lastAccess.toNat + rfld s (dbgReg 8) 15 0 * second ≤ nowNs s then detach s else s

/-! ### Authorisation (19 R475) -/

/-- `DBG_AUTH_REQ`: the keeper issues a challenge, unless it answers no request after three refusals. -/
def authRequest (w : Writer) (v : Word32) (s : State) : Nat × State :=
  let lvl := fld v 1 0
  let dur := fld v 31 16
  if fld v 15 2 ≠ 0 then (stRsvd, s)
  else if lvl = 0 ∨ lvl = 3 ∨ dur = 0 then (stRange, s)
  else if nowNs s < s.dbg.lockedUntil.toNat then (stOk, s)
  else
    let c := drawBytes 48 s
    (stOk, setDbg (fun d => { d with challenge := c.1, wanted := some (lvl, dur), reqPath := pathOf w }) c.2)
/-- The bytes of `DBG_AUTH_RESP`. [DEDUCED, log entry 89] -/
def respBytes (s : State) : List Byte := (List.range 1160).flatMap fun i => bytesOfNat (reg s (dbgReg 0x3000 + 4 * i)).toNat 4
def sigLen (alg : Nat) : Nat := if alg = 0 then 4627 else 96
/-- The digest the debugger signs. -/
def authDigest (s : State) (lvl dur : Nat) : List Byte :=
  sha384 (bytesOfNat sysId 4 ++ bytesOfNat s.cellar.serial.toNat 4 ++ s.dbg.challenge ++ bytesOfNat lvl 4 ++ bytesOfNat dur 4)
/-- A refusal: the challenge is spent, the third within a second silences the keeper for 60 s. [DEDUCED, log entry 89] -/
def authRefuse (s : State) : State :=
  let recent := nowNs s :: s.dbg.refusals.filter fun t => decide (nowNs s < t + second)
  let locked := if 3 ≤ recent.length then BitVec.ofNat 64 (nowNs s + 60 * second) else s.dbg.lockedUntil
  logFault 0x403 5 uDevice none 1 s.dbg.reqPath (setDbg (fun d => { d with challenge := [], wanted := none, refusals := recent, lockedUntil := locked }) s)
/-- `DBG_AUTH_SUBMIT`: the keeper grants, up to the ceiling, or refuses. [DESIGN CHOICE, log entry 18; DEDUCED, log entry 89] -/
def authSubmit (w : Writer) (v : Word32) (s : State) : Nat × State :=
  let alg := fld v 31 28
  if fld v 27 1 ≠ 0 ∨ 1 < alg then (stRsvd, s)
  else if !v.getLsbD 0 then (stOk, s)
  else match s.dbg.wanted with
    | none => (stOk, if nowNs s < s.dbg.lockedUntil.toNat then s else authRefuse s)
    | some (lvl, dur) =>
      let r := respBytes s
      let dig := authDigest s lvl dur
      let lvl1 := min lvl (rfld s (dbgReg 0xC) 1 0)
      let ok := Config.signatureOk alg dig (r.take (sigLen alg)) && (r.drop (sigLen alg)).all (fun b => b == 0) &&
        s.dbg.reqPath == pathOf w && s.dbg.path == pathOf w && decide (0 < lvl1)
      if ok then
        let s1 := setDbg (fun d => { d with level := lvl1, grantEnd := BitVec.ofNat 64 (nowNs s + dur * second), challenge := [], wanted := none }) s
        (stOk, noteMode s (logFault 0x403 5 uDevice none 0 lvl1 (extendMr 3 dig s1)))
      else (stOk, authRefuse s)
/-- The grant lapses at its expiry time. [DESIGN CHOICE, log entry 7] -/
def grantLapses (s : State) : State := if 0 < s.dbg.level ∧ s.dbg.grantEnd.toNat ≤ nowNs s then closeLevel s else s

/-! ### The register window (R555) -/

/-- A word of a vector register. -/
def vecWord (v : Vec) (i : Nat) : Word64 := BitVec.ofNat 64 (natBits v.toNat (64 * i + 63) (64 * i))
def putVecWord (v : Vec) (i : Nat) (w : Word64) : Vec := putFld v (64 * i + 63) (64 * i) w.toNat
/-- The level the window reaches core CSRs at: K only while the device is not provisioned. -/
def winLevel (s : State) : Nat := if s.cellar.life then 1 else 2
/-- Read a register of a halted core. [DEDUCED, log entry 43] -/
def winRead (lc cls n : Nat) (s : State) : Nat × Word64 × State :=
  let c := coreOf s lc
  match cls with
  | 0 => if n < 32 then (stOk, readG c.regs (Fin.ofNat 32 n), s) else (stRange, 0, s)
  | 1 => if n = 0 then (stOk, flagsWord c.regs.flags, s) else if n = 1 then (stOk, c.pc, s) else (stRange, 0, s)
  | 2 => if n < 256 then (stOk, vecWord (readV c.regs (Fin.ofNat 32 (n / 8))) (n % 8), s) else (stRange, 0, s)
  | 3 => if n < 8 then (stOk, readK c.regs (Fin.ofNat 8 n), s) else (stRange, 0, s)
  | 4 => csrRead lc (winLevel s) n s
  | _ => (stRsvd, 0, s)
/-- Write a register of a halted core. -/
def winWrite (lc cls n : Nat) (v : Word64) (s : State) : Nat × State :=
  let put (ok : Bool) (f : Regs → Regs) : Nat × State := if ok then (stOk, updRegs lc f s) else (stRange, s)
  match cls with
  | 0 => put (decide (n < 32)) (fun r => writeG r (Fin.ofNat 32 n) v)
  | 1 =>
    if n = 0 then (if fld v 63 4 ≠ 0 then (stRsvd, s) else put true (fun r => { r with flags := flagsOfWord v }))
    else if n = 1 then
      if fld v 1 0 ≠ 0 then (stRsvd, s) else (stOk, updCore lc (fun c => { c with pc := v, vecStop := false }) s)
    else (stRange, s)
  | 2 => put (decide (n < 256)) (fun r => writeV r (Fin.ofNat 32 (n / 8)) (putVecWord (readV r (Fin.ofNat 32 (n / 8))) (n % 8) v))
  | 3 => put (decide (n < 8)) (fun r => writeK r (Fin.ofNat 8 n) v)
  | 4 => csrWrite lc (winLevel s) n v s
  | _ => (stRsvd, s)
def putRdata (w : Word64) (s : State) : State :=
  setReg (dbgReg 0x2214) (BitVec.ofNat 32 (w.toNat / 2 ^ 32)) (setReg (dbgReg 0x2210) (w.setWidth 32) s)
/-- `DBG_RCMD`; its outcome stands in `DBG_RSTAT`. [DEDUCED, log entry 43] -/
def rcmd (w : Writer) (v : Word32) (s : State) : Nat × State :=
  let op := fld v 31 28
  let sel := reg s (dbgReg 0x2200)
  let cls := fld sel 31 28
  let lc := fld sel 24 16
  let n := fld sel 11 0
  let done (st : Nat) (a : State) : Nat × State := (stOk, setDbg (fun d => { d with rStatus := st }) a)
  if fld v 27 0 ≠ 0 ∨ (op ≠ 1 ∧ op ≠ 2) then (stRsvd, s)
  else if op = 2 ∧ !dbgAllows s w 2 then (stAuth, s)
  else if !bound s lc then done stRange s
  else if (coreOf s lc).standing ≠ .halted then done stRunning s
  else if op = 1 then
    let r := winRead lc cls n s
    done r.1 (if r.1 = stOk then putRdata r.2.1 r.2.2 else s)
  else
    let r := winWrite lc cls n (BitVec.ofNat 64 (reg64 s (dbgReg 0x2210))) s
    done r.1 r.2

/-! ### Memory (R556, R557) -/

/-- May the attachment access the page as DMA could? At LIFE 0, FULL reaches every owner code. -/
def dbgOwnerOk (s : State) (w : Writer) (wr : Bool) (pa : Nat) : Bool :=
  let code := ownerCode s pa
  code == 0 || (code == 2 && !wr) || (!s.cellar.life && dbgAllows s w 2)
def dbgDone (st : Nat) (poison : Bool) (s : State) : Nat × State := (stOk, setDbg (fun d => { d with mStatus := st, mPoison := poison }) s)
/-- One injection of the attachment, as initiator 535 in TC3. -/
def dbgSteal (pa : Nat) (s : State) : State := bump (dbgReg 0x2520) (inject 535 3 1 (lineResources s pa) s)
/-- A memory command outside control space: `op` as `DBG_MCMD` codes it, `n` bytes. [DEDUCED, log entry 43] -/
def dbgMem (w : Writer) (op n pa : Nat) (s : State) : Nat × State :=
  let region := match placeOf pa with | some p => decide (p.region = .hbm ∨ p.region = .ddr ∨ p.region = .scratch) | none => false
  if pa % n ≠ 0 then dbgDone stRsvd false s
  else if !region || !backed s pa then dbgDone stRange false s
  else if !dbgOwnerOk s w (op % 2 == 0) pa then dbgDone stPriv false s
  else if op = 1 ∨ op = 3 then
    let r := agentRead 3 pa n (dbgSteal pa s)
    let s1 :=
      if op = 3 then (List.range 16).foldl (fun a i => setReg (dbgReg 0x2340 + 4 * i) (BitVec.ofNat 32 (natOfBytes ((r.1.drop (4 * i)).take 4))) a) r.2.2
      else
        let x := natOfBytes r.1
        setReg (dbgReg 0x2314) (BitVec.ofNat 32 (x / 2 ^ 32)) (setReg (dbgReg 0x2310) (BitVec.ofNat 32 x) r.2.2)
    dbgDone stOk r.2.1 s1
  else
    let bs := if op = 4 then (List.range 16).flatMap fun i => bytesOfNat (reg s (dbgReg 0x2340 + 4 * i)).toNat 4
              else bytesOfNat (reg64 s (dbgReg 0x2310)) n
    dbgDone stOk false (agentWrite 3 pa bs (dbgSteal pa s))

/-! ### Commands -/

def execGrantExpiry (s : State) : Out := .next (grantLapses s)
def execAttachTimeout (s : State) : Out := .next (attachLate s)
def execDebugHalt (lc : LC) (s : State) : Out := .next (haltNow lc.val s)
/-- Every 1 ms of system time while tracing is on (R563). -/
def execTraceTimePacket (s : State) : Out := .next (emit 3 0 none 0 0 s)

end Sys2Proof.Machine
end

