-- ==== Sys2Proof/Machine/Period.lean ====
section
/-! DEFINITION. Franking-period boundaries (12 R300, R301): budgets, shadowed PERIOD values (02 R47), the switch of a configuration epoch
(02 R49, R51), recency of L3 lines (09 R232), arm slots (07 R187). -/

namespace Sys2Proof.Machine

/-- The kind of period whose boundary a register's PERIOD fields wait for (12 R301, R320); 8 stands for the FRK block, whose values wait for
the longest period. -/
def blockKind (off : Nat) : Nat :=
  if 0x800000 ≤ off ∧ off < 0x1000000 then 8
  else if 0x1000000 ≤ off ∧ off < 0x2000000 then 1
  else if 0x2000000 ≤ off ∧ off < 0x2800000 then 2
  else if 0x2800000 ≤ off ∧ off < 0x3000000 then 3
  else if 0x3000000 ≤ off ∧ off < 0x4000000 then 4
  else if 0x4000000 ≤ off ∧ off < 0x4800000 then 5
  else if 0x4800000 ≤ off ∧ off < 0x5000000 then 6
  else 7
def ofKind (kind off : Nat) : Bool := decide (off < 2 ^ 36) && blockKind off == kind
/-- Every shadowed value of the blocks of a kind comes into force. -/
def applyShadows (kind : Nat) (s : State) : State :=
  let keys := ((s.ctl.regs.map (·.1)) ++ (s.ctl.active.map (·.1))).filter (ofKind kind)
  keys.foldl (fun a off => setAct off (reg a off) a) s
/-- The PERIOD fields of `v` over the other fields of `base`. -/
def periodMerge (off : Nat) (base v : Word32) : Word32 :=
  match findReg off with
  | some (d, _) => (base &&& ~~~(BitVec.ofNat 32 d.period)) ||| (v &&& BitVec.ofNat 32 d.period)
  | none => v
/-- A block's first boundary after a commit: its committed values become its configuration. [DESIGN CHOICE, log entry 47] -/
def switchEpoch (kind : Nat) (s : State) : State :=
  if s.ctl.inFlight && s.ctl.unswitched.contains kind then
    let mine := s.ctl.committed.filter fun e => ofKind kind e.1
    let kept := mine.foldl (fun m e => smPut optDef m e.1 (some (regAct s e.1))) s.ctl.oldActive
    let s0 : State := { s with ctl := { s.ctl with oldActive := kept } }
    let s1 := mine.foldl (fun a e => match e.2 with | some v => setReg e.1 (periodMerge e.1 (reg a e.1) v) a | none => a) s0
    blockSwitched kind { s1 with ctl := { s1.ctl with committed := s1.ctl.committed.filter fun e => !ofKind kind e.1 } }
  else s
/-- RF is cleared at a line's second boundary after its fill. -/
def ageLine (l : L3Line) : L3Line := if l.rf then (if 1 ≤ l.bounds then { l with rf := false, bounds := 0 } else { l with bounds := l.bounds + 1 }) else l
def ageSlices (s : State) : State :=
  { s with mem := { s.mem with slices := s.mem.slices.map fun e => (e.1, { e.2 with l3 := e.2.l3.map fun x => (x.1, x.2.map ageLine) }) } }
/-- The boundary of a kind refills its budgets and shares (12 R300). -/
def refillKind (kind : Nat) (s : State) : State :=
  { s with frk := { spent := s.frk.spent.filter (fun e => meterKind (e.1 / 4) != kind),
                    served := s.frk.served.filter (fun e => resKind (e.1 / 4) != kind),
                    short := s.frk.short.filter fun e => e.1 != kind } }
/-- The switch of the FRK block's values, a boundary of every kind (12 R301): no count crosses it; a kind whose period changes runs an
interval up to the first multiple of its new period. -/
def frankSwitch (s : State) : State :=
  let s1 := applyShadows 8 (switchEpoch 8 s)
  let len (k : Nat) : Nat := if periodNs s1 k = periodNs s k then 0 else (periodNs s1 k - nowNs s % periodNs s1 k) % periodNs s1 k
  { s1 with frk := { spent := [], served := [], short := (List.range 8).foldl (fun m k => smPut zeroNat m k (len k)) [] } }
/-- The boundary of a kind; 8 stands for the switch of the FRK block, 9 to 12 for the joined device in a slot, whose last block has switched
(10 R267). -/
def periodBoundary (kind : Nat) (s : State) : State :=
  if 9 ≤ kind then blockSwitched kind s
  else if kind = 8 then frankSwitch s
  else
    let s2 := applyShadows kind (switchEpoch kind (refillKind kind s))
    if kind = 0 then armQueue none s2
    else if kind = 1 then ageSlices s2
    else s2
def execFrankingPeriodBoundary (kind : Fin 13) (s : State) : Out := .next (periodBoundary kind.val s)

/-! ### Epochs (02 R48 to R51) -/

def allKinds : List Nat := List.range 9
/-- A write of `SYS_EPOCH_COMMIT` (R49; 10 R267): busy while a commit is in flight, in PATCH mode, or while a port joins.
It is sent to every joined device, which takes it as a commit of its own. [DESIGN CHOICE, log entry 47] -/
def epochCommit (s : State) : Nat × State :=
  if s.ctl.inFlight ∨ s.live.patchMode ∨ ((List.range 8).any fun p => decide ((port s p).join.state = .joining)) then (stBusy, s)
  else
    let joined := (List.range 4).filter fun d => s.links.peers.getLsbD d && d != slotOf s
    let s1 : State := { s with ctl := { s.ctl with committed := s.ctl.staged, staged := [], epoch := (s.ctl.epoch + 1) % 65536, inFlight := true,
                                                   unswitched := allKinds ++ joined.map (9 + ·) } }
    (stOk, joined.foldl (fun a d => cohSend d .epoch a.ctl.epoch 1 none a) s1)
def epochDiscard (s : State) : Nat × State :=
  if s.ctl.inFlight then (stEpoch, s) else (stOk, { s with ctl := { s.ctl with staged := [] } })
/-- `SYS_EPOCH`. -/
def epochWord (s : State) : Nat := s.ctl.inFlight.toNat * 2 ^ 31 + (!s.ctl.staged.isEmpty).toNat * 2 ^ 30 + s.ctl.epoch

end Sys2Proof.Machine
end

