-- ==== Sys2Proof/Machine/Control.lean ====
section
/-! DEFINITION. Reads of control space (02 R35 to R44, R48, R52, R54): the level a register asks for, the values every register reads as, the
registers a read clears. -/

namespace Sys2Proof.Machine

/-! ### Levels, banks, units -/

/-- The level of a writer: debug paths count as S in the open world (23 R547), pairs are the keeper's. -/
def writerLevel (s : State) : Writer → Nat
  | .core lc => levelOf (coreOf s lc.val).regs
  | .pair _ => 2
  | .path _ => 1
/-- The level a block asks for (02 R36). -/
def blockLevel (off : Nat) (wr : Bool) : Nat :=
  if off < 0x100000 then (if wr then 1 else 0)
  else if 0x6000000 ≤ off ∧ off < 0x8000000 then (if wr then 2 else 1)
  else if 0x8000000 ≤ off ∧ off < 0x10000000 + 576 * 0x10000 then 2
  else if off < 0x8000000 then 1 else 0
/-- The number of a GPIO pad whose CFG lies at an offset. [DEDUCED, log entry 45] -/
def cfgPad (off : Nat) : Nat := (off - 0x200100) / 4
/-- Pads whose CFG only K writes: 0 to 23, but 13 to 23 where STRAP_BOOT released them (24 R577). [DEDUCED, log entry 45] -/
def padAtK (s : State) (n : Nat) : Bool := decide (n < 24) && !(decide (13 ≤ n) && decide (s.power.strapBoot = 2))
/-- The level a register asks for: its block's, raised where its map says so. [DEDUCED, log entry 45] -/
def needLevel (s : State) (d : RegDesc) (off : Nat) (wr : Bool) : Nat :=
  let k := if wr then d.keeper || (d.name == .padGpioCfg && padAtK s (cfgPad off)) else d.keeperRead
  if k then 2 else blockLevel off wr
/-- The pipeline or root port that holds a register of its block; what is the whole block's lies with the first. [DEDUCED, log entry 40] -/
def unitIndex (off : Nat) : Nat :=
  match findReg off with
  | some (d, ix) => (match d.name with
    | .soPoolRes | .soPoolFree | .soQd => ix.getD 0 0 % 8
    | .pciePeCfg => ix.getD 0 0
    | .pcieSpCtl => ix.getD 0 0 / 4
    | _ => 0)
  | none => 0
/-- The unit that holds a register, where it is not the rind (02 R41, R55). -/
def blockUnit (off : Nat) : Option Nat :=
  if off < 0x1000000 then none
  else if off < 0x2000000 then some (uHome ((off - 0x1000000) / 0x10000))
  else if off < 0x2800000 then some (uHmc ((off - 0x2000000) / 0x100000))
  else if off < 0x3000000 then some (uDmc ((off - 0x2800000) / 0x100000))
  else if off < 0x4000000 then some (uSop (unitIndex off))
  else if off < 0x4800000 then some (uPort ((off - 0x4000000) / 0x100000))
  else if off < 0x5000000 then some (uPcie (unitIndex off))
  else none
/-- Is the island that holds a register absent (01 R22, R24)? [DEDUCED, log entry 25; DEDUCED, log entry 40] -/
def bridgeSilent (s : State) (off : Nat) : Bool := match blockUnit off with | some u => islandSilent s u | none => false
/-- Is the register or its unit fenced (02 R55)? [DEDUCED, log entry 40] -/
def regFenced (s : State) (off : Nat) : Bool :=
  s.ctl.fencedRegs.contains off || match blockUnit off with | some u => isFenced s u | none => false
/-- The key a register's written word is kept under. [DEDUCED, log entry 91] -/
def regKey (w : Writer) (d : RegDesc) (off : Nat) : Nat := if d.bank then bankKey off (writerKey w) else off
def keyReg (s : State) (k : Nat) : Word32 := smGet bankDef s.ctl.regs k
def setKeyReg (k : Nat) (v : Word32) (s : State) : State :=
  { s with ctl := { s.ctl with regs := smPut bankDef s.ctl.regs k v } }
/-- The number of a logical core that a register is indexed by (01 R18). -/
def lcIndex (d : RegDesc) (ix : List Nat) : Option Nat :=
  match d.name with
  | .frkResW0 | .frkResW1 | .frkResW2 | .frkBudW0 | .frkBudW1 => let n := ix.getD 0 0; if n < 512 then some n else none
  | _ => if d.byLc then some (ix.getD 0 0) else none
def unboundReg (s : State) (d : RegDesc) (ix : List Nat) : Bool := match lcIndex d ix with | some n => !bound s n | none => false

/-! ### Values -/

/-- Half of a 64-bit value, as the register holds it. -/
def halfOf (d : RegDesc) (v : Nat) : Nat :=
  match d.half with
  | .hi => v / 2 ^ 32 % 2 ^ 32
  | _ => v % 2 ^ 32
def pairBase (d : RegDesc) (off : Nat) : Nat := match d.half with | .hi => off - 4 | _ => off
/-- A shadowed value of the block differs from the active one (02 R47). -/
def pendIn (lo hi : Nat) (s : State) : Nat :=
  (((s.ctl.regs.map (·.1)) ++ (s.ctl.active.map (·.1))).any fun off =>
    decide (lo ≤ off ∧ off < hi) && match findReg off with
      | some (d, _) => (reg s off ^^^ regAct s off) &&& BitVec.ofNat 32 d.period != 0
      | none => false).toNat
/-- Byte `4n` upward of a list, as a word. -/
def wordAt (bs : List Byte) (n : Nat) : Nat := natOfBytes ((bs.drop (4 * n)).take 4)

/-- `SYS_CAP2`. [DESIGN CHOICE, log entry 4] -/
def sysCap2 (s : State) : Nat := 3 * 2 ^ 24 + countOnes (BitVec.ofNat 8 (portsUp s)) 8 * 2 ^ 16 + s.mem.ddrChannels.length * 256 + 8
def sysValue (d : RegDesc) (ix : List Nat) (off : Nat) (s : State) : Nat :=
  match d.name with
  | .sysId => sysId
  | .sysCap0 => s.resil.bound * 2 ^ 16 + (576 - (s.resil.cores.filter fun e => !e.2.good).length)
  | .sysCap1 => 0x100400
  | .sysCap2 => sysCap2 s
  | .sysSlot => slotOf s
  | .sysMode => sysMode s
  | .sysEpoch => epochWord s
  | .sysSnapStat => s.ctl.snapAll.toNat
  | .sysLockStat => s.ctl.locks.toNat
  | .sysLcloc => lclocWord s (ix.getD 0 0)
  | _ => (reg s off).toNat
def pwrValue (d : RegDesc) (ix : List Nat) (off : Nat) (s : State) : Nat :=
  match d.name with
  | .pwrStat => pwrStat s
  | .pwrReqStat => pwrReqStat s
  | .pwrWakeLast => s.power.wakeLast.toNat
  | .pwrPadStat => s.power.padHeld.toNat
  | .pwrMeas => s.power.meas
  | .pwrLcfreq => freqAct s (ix.getD 0 0) * 2 ^ 24 + freqReq s (ix.getD 0 0)
  | _ => (reg s off).toNat
/-- `PAD_UARTu_RX`: the byte at the front. -/
def uartFront (s : State) (u : Nat) : Nat := match (uart s u).rx with | b :: _ => 2 ^ 31 + b.toNat | [] => 0
def padValue (d : RegDesc) (ix : List Nat) (off : Nat) (s : State) : Nat :=
  match d.name with
  | .padStrap => padStrap s
  | .padIn => padInWord s
  | .padEvent => s.pads.events.toNat
  | .padMbxStat => mbxStat s
  | .padMbxIn => wordAt s.pads.hostIn (ix.getD 0 0)
  | .ledDiag => s.pads.ledDiag.toNat
  | .padUartRx => uartFront s (ix.getD 0 0)
  | .padUartStat => uartStat s (ix.getD 0 0)
  | .padUartErr => (uart s (ix.getD 0 0)).err.toNat
  | _ => (reg s off).toNat
def tmrValue (d : RegDesc) (ix : List Nat) (off : Nat) (s : State) : Nat :=
  let t := timer s (ix.getD 0 0)
  match d.name with
  | .tmrStat => tmrStat s
  | .tmrTimeRate => (BitVec.ofInt 32 s.time.rate).toNat
  | .tmrSnapTime => halfOf d s.time.snapTime.toNat
  | .tmrSyncFlags => s.time.syncFlags.toNat
  | .tmrSyncCaprise => halfOf d s.time.syncRise.toNat
  | .tmrSyncCapfall => halfOf d s.time.syncFall.toNat
  | .tmrTCnt => halfOf d t.cnt.toNat
  | .tmrTCaprise => halfOf d t.capRise.toNat
  | .tmrTCapfall => halfOf d t.capFall.toNat
  | .tmrTFlags => t.flags.toNat
  | .tmrTHold => halfOf d t.hold.toNat
  | _ => (reg s off).toNat
/-- `IC_SRCs_STAT` (17 R435). -/
def srcStat (s : State) (src : Nat) : Nat :=
  let sel := if isPending s src then selectedCore s src else none
  let core := match sel with
    | some lc => 2 ^ 28 + lc
    | none => if isActive s src then (smGet optDef s.intc.claimedBy src).getD 0 else 0
  (isPending s src).toNat * 2 ^ 31 + (isActive s src).toNat * 2 ^ 30 + (decide (src < 256) && lineHigh s src).toNat * 2 ^ 29 + core
/-- `IC_LCn_STAT`. -/
def icLcStat (s : State) (lc : Nat) : Nat :=
  let st := icStack s lc
  (coreEligible s lc).toNat * 2 ^ 31 + st.length * 2 ^ 16 + (match st with | e :: _ => e.prio | [] => 128)
/-- `IC_LCn_STACKd`: entry 0 is the bottom. -/
def icStackWord (s : State) (lc d : Nat) : Nat :=
  match (icStack s lc).reverse[d]? with
  | some e => 2 ^ 31 + e.prio * 2 ^ 16 + e.source
  | none => 0
/-- What a claim by the reader would return; a reader that is no core claims nothing. [DEDUCED, log entry 42] -/
def claimPeek (s : State) : Writer → Nat
  | .core lc => (claimValue s lc.val).toNat
  | _ => 2 ^ 31
def icValue (w : Writer) (d : RegDesc) (ix : List Nat) (off : Nat) (s : State) : Nat :=
  match d.name with
  | .icStat => regCount s
  | .icClaim => claimPeek s w
  | .icSrcStat => srcStat s (ix.getD 0 0)
  | .icLcStat => icLcStat s (ix.getD 0 0)
  | .icLcStack => icStackWord s (ix.getD 0 0) (ix.getD 1 0)
  | _ => (reg s off).toNat
def frkValue (d : RegDesc) (ix : List Nat) (off : Nat) (s : State) : Nat :=
  match d.name with
  | .frkCfgstat => pendIn 0x800000 0x1000000 s
  | .frkRfree => rfree s (ix.getD 0 0)
  | _ => (reg s off).toNat
/-- `HN_STAT` (10 R270): a request that has waited for a snoop answer for more than 10 µs; the home fenced. -/
def hnStat (s : State) (n : Nat) : Nat :=
  let late := s.mem.homeQ.any fun q => q.served && !q.pending.isEmpty && decide (q.since + 10000 < nowNs s) && homeOf s q.line == n
  ((slice s n).snpWait || late).toNat * 2 + (slice s n).fenced.toNat
def hnValue (d : RegDesc) (ix : List Nat) (off : Nat) (s : State) : Nat :=
  let n := ix.getD 0 0
  match d.name with
  | .hnId => n / 32 * 256 + n
  | .hnStat => hnStat s n
  | .hnL3Stat => l3Stat s n
  | _ => (reg s off).toNat
/-- `DMC_DIMMn` (11 R296), from the DIMM's SPD. -/
def dimmWord (s : State) (n i : Nat) : Nat :=
  match s.mem.dimms.find? fun d => decide (d.channel = n ∧ d.slot = i) with
  | some d =>
    let used := s.mem.ddrChannels.contains n && decide (i < s.mem.dimmsPerCh) && !dimmGone s n i
    2 ^ 31 + used.toNat * 2 ^ 30 + min 3 (Nat.log2 d.height) * 2 ^ 28 + (if d.pranks = 2 then 2 ^ 27 else 0) + d.gib % 512
  | none => 0
/-- A controller's registers: `u` as `memCtl` numbers them. -/
def ctlValue (d : RegDesc) (ix : List Nat) (off u : Nat) (s : State) : Nat :=
  match d.name with
  | .hmcId | .dmcId => ix.getD 0 0
  | .hmcStat | .dmcStat => ctlStat s u
  | .hmcCfgstat | .dmcCfgstat => pendIn (ctlBase u) (ctlBase u + 0x100000) s
  | .hmcSpareStat | .dmcSpareStat => ctlSpareStat s u
  | .hmcSec => (!(memCtl s u).stopped.getLsbD (ix.getD 1 0)).toNat * 2 ^ 31 + rfld s off 0 0
  | .dmcDdrmap => ddrMapWord s
  | .dmcReserve => reserveWord s
  | .dmcDimm => dimmWord s (ix.getD 0 0) (ix.getD 1 0)
  | .dmcRankret => rankRet s u
  | .hmcTrnRd | .dmcTrnRd => trnWord s u (ix.getD 1 0) false
  | .hmcTrnWr | .dmcTrnWr => trnWord s u (ix.getD 1 0) true
  | _ => (reg s off).toNat
def soValue (d : RegDesc) (ix : List Nat) (off : Nat) (s : State) : Nat :=
  match d.name with
  | .soStat => soStat s
  | .soCfgstat => pendIn 0x3000000 0x4000000 s
  | .soPoolRes => poolReserved s (ix.getD 0 0)
  | .soPoolFree => poolFree s (ix.getD 0 0)
  | .soQd => (qdWord (queueOf s (ix.getD 0 0)) (ix.getD 1 0)).toNat
  | _ => (reg s off).toNat
def vxValue (d : RegDesc) (ix : List Nat) (off : Nat) (s : State) : Nat :=
  let p := ix.getD 0 0
  match d.name with
  | .vxId => p
  | .vxStat => vxStat s p
  | .vxPeer => vxPeer s p
  | .vxCfgstat => pendIn (vxBase p) (vxBase p + 0x80000) s
  | .vxSweepStat => sweepStat s p
  | .vxCohStat => cohStat s p
  | .vxCohPeerdig => wordAt (port s p).join.peerDig (ix.getD 1 0)
  | .vxCohOwndig => wordAt (port s p).join.ownDig (ix.getD 1 0)
  | .vxRtPortup => portsUp s
  | .vxTimeStat => timeStat s
  | .vxTimeOfs => (ofInt32 (timeOffset s)).toNat
  | .vxRtCfgstat => pendIn 0x4080000 0x4100000 s
  | _ => (reg s off).toNat
def pcieValue (w : Writer) (d : RegDesc) (off : Nat) (s : State) : Nat :=
  match d.name with
  | .pcieStat => pcieStat s
  | .pcieIotuInvstat => pcieInvstat s (writerKey w)
  | _ => (reg s off).toNat
def dbgValue (d : RegDesc) (ix : List Nat) (off : Nat) (s : State) : Nat :=
  match d.name with
  | .dbgStat => dbgStat s
  | .dbgAuthExp => halfOf d s.dbg.grantEnd.toNat
  | .dbgAuthChal => wordAt s.dbg.challenge (ix.getD 0 0)
  | .dbgLcStat => lcStat s (ix.getD 0 0)
  | .dbgHaltallStat => haltAllStat s
  | .dbgRstat => s.dbg.rStatus
  | .dbgMstat => s.dbg.mPoison.toNat * 2 ^ 30 + s.dbg.mStatus
  | .dbgTrHead => s.dbg.trHead
  | _ => (reg s off).toNat
/-- Word `w` of log entry `n` (20 R502): zero where no entry stands there. -/
def logWord (s : State) (n w : Nat) : Nat := match logSlot s n with | some e => wordAt (entryBytes e) w | none => 0
def resValue (d : RegDesc) (ix : List Nat) (off : Nat) (s : State) : Nat :=
  let k := ix.getD 0 0
  match d.name with
  | .resStat => resStat s
  | .resContain => s.resil.contain.toNat
  | .resHorizon => s.resil.horizonKind * 2 ^ 28 + s.resil.horizon
  | .resLogSeq => s.resil.logSeq
  | .resInvLeft => smGet zeroNat s.resil.spareLeft k
  | .resInvUsed => smGet zeroNat s.resil.spareUsed k
  | .resInvDays => smGet dayK s.resil.horizonK k
  | .resLog => logWord s k (ix.getD 1 0)
  | _ => (reg s off).toNat
def ucsValue (d : RegDesc) (off : Nat) (s : State) : Nat :=
  match d.name with
  | .ucsRollStat => rollStat s
  | .ucsVerNew => verNew s
  | .ucsVerCore | .ucsVerSop | .ucsVerLink | .ucsVerPwr | .ucsVerHtrn | .ucsVerDtrn => verWord s ((off - 0x7000000) / 4)
  | _ => (reg s off).toNat
def celValue (d : RegDesc) (ix : List Nat) (off : Nat) (s : State) : Nat :=
  match d.name with
  | .celStat => celStat s
  | .celPotVer => 1
  | .celPotSyncstat => s.cellar.sync.isSome.toNat * 2 ^ 31
  | .celMr => wordAt (bytesOf (mrOf s (ix.getD 0 0)) 48) (ix.getD 1 0)
  | _ => (reg s off).toNat

/-- Is the register a block's snapshot count (02 R53)? -/
def isSnapSeq : RegName → Bool
  | .pwrSnapseq | .tmrSnapseq | .icSnapseq | .frkSnapseq | .hnSnapseq | .hmcSnapseq | .dmcSnapseq | .soSnapseq | .vxSnapseq
  | .pcieSnapseq | .dbgSnapseq | .resSnapseq | .ucsSnapseq => true
  | _ => false
def seq0 (_ : Nat) : Word32 := 0
/-- The value a register reads as, by writer for banked ones; nothing is cleared. -/
def regValue (w : Writer) (d : RegDesc) (ix : List Nat) (off : Nat) (s : State) : Word32 :=
  if unboundReg s d ix then BitVec.ofNat 32 (if d.name = .sysLcloc then 0 else d.reset)
  else if d.hold then BitVec.ofNat 32 (halfOf d (smGet cnt0 s.ctl.holding (pairBase d off)).toNat)
  else if isSnapSeq d.name then smGet seq0 s.ctl.snapSeq off
  else if d.acc = .wo then 0
  else if d.name = .soQstage ∨ d.name = .hnCmoAddr ∨ d.name = .pcieIotuInvAddr then keyReg s (regKey w d off)
  else BitVec.ofNat 32 (
    if off < 0x100000 then sysValue d ix off s
    else if off < 0x200000 then pwrValue d ix off s
    else if off < 0x300000 then padValue d ix off s
    else if off < 0x400000 then tmrValue d ix off s
    else if off < 0x800000 then icValue w d ix off s
    else if off < 0x1000000 then frkValue d ix off s
    else if off < 0x2000000 then hnValue d ix off s
    else if off < 0x2800000 then ctlValue d ix off (ix.getD 0 0) s
    else if off < 0x3000000 then ctlValue d ix off (8 + ix.getD 0 0) s
    else if off < 0x4000000 then soValue d ix off s
    else if off < 0x4800000 then vxValue d ix off s
    else if off < 0x5000000 then pcieValue w d off s
    else if off < 0x6000000 then dbgValue d ix off s
    else if off < 0x7000000 then resValue d ix off s
    else if off < 0x8000000 then ucsValue d off s
    else if off < 0x10000000 then celValue d ix off s
    else (phys s (ix.getD 0 0)).version.toNat)

/-! ### The rind's copies (02 R39, R42, R43) -/

/-- Registers of SYS, PWR, PAD, LED and TMR stand in the rind itself (02 R42). -/
def rindReg (off : Nat) : Bool := decide (off < 0x400000)
/-- What the rind's copy of a register holds for a reader, where that is not the register's present value: a value from before a bridge timed
out, or from before a write that another made since the last rind-clock edge. -/
def copyFor (s : State) (w : Writer) (off : Nat) : Option Word32 :=
  let mine := s.ctl.copies.filter fun c => decide (c.off = off)
  if bridgeSilent s off then (mine.find? fun c => c.writer.isNone).map fun c => c.value
  else if mine.any fun c => c.writer == some w then none
  else (mine.find? fun c => c.writer.isSome).map fun c => c.value
/-- A write of a register by `w` reaches the copy for that writer alone; the others read the copy's old value until the next edge (02 R43). -/
def keepCopy (w : Writer) (off : Nat) (old : Word32) (s : State) : State :=
  if rindReg off then s
  else
    let v := ((s.ctl.copies.find? fun c => decide (c.off = off) && c.writer.isSome).map fun c => c.value).getD old
    { s with ctl := { s.ctl with copies := { off := off, writer := some w, value := v } ::
      (s.ctl.copies.filter fun c => !(decide (c.off = off) && decide (c.writer = some w))) } }
/-- The offsets a row of a register map spans. -/
def rowOffs (d : RegDesc) : List Nat :=
  d.dims.foldl (fun l m => l.flatMap fun o => (List.range m.2).map fun i => o + m.1 * i) [d.off]
/-- The register offsets of a unit's island; of the queue descriptors, those of listed queues. -/
def islandOffs (s : State) (u : Nat) : List Nat :=
  let lo := match islandUnit u / 2 ^ 24 with
    | 10 => 0x1000000
    | 3 => 0x2000000
    | 4 => 0x2800000
    | 5 => 0x3000000
    | 6 => 0x4000000
    | 7 => 0x4800000
    | _ => 0
  if lo = 0 then []
  else
    let rows := (blockRegs lo).filter fun d => d.name != .soQd
    let qs := if lo = 0x3000000 then s.office.queues.flatMap fun e => (List.range 16).map fun w => 0x3400000 + 0x40 * e.1 + 4 * w else []
    (rows.flatMap rowOffs ++ qs).filter fun off => match blockUnit off with | some v => islandUnit v == islandUnit u | none => false
/-- A bridge has timed out: of every register of the far island the value last copied stays (02 R39). -/
def freezeCopies (u : Nat) (s : State) : State :=
  let w : Writer := .path 0
  let keep := (islandOffs s u).map fun off => match findReg off with
    | some (d, ix) => ({ off := off, writer := none, value := (copyFor s w off).getD (regValue w d ix off s) } : RindCopy)
    | none => { off := off, writer := none, value := 0 }
  { s with ctl := { s.ctl with copies := keep ++ (s.ctl.copies.filter fun c => !(keep.any fun k => decide (k.off = c.off))) } }

/-! ### Reads -/

/-- What a read of an RC register clears: the bits of `mask` that it returns (00 R8; 02 R44, R52). Of `PAD_UARTu_RX` the whole word or VALID
removes the byte, another bit clears that bit of it; only a read of the whole of `IC_CLAIM` claims. [DEDUCED, log entry 39] -/
def clearRead (w : Writer) (d : RegDesc) (ix : List Nat) (mask : Word32) (s : State) : State :=
  let n := ix.getD 0 0
  match d.name with
  | .pwrWakeLast => setPower (fun p => { p with wakeLast := p.wakeLast &&& ~~~(mask.setWidth 9) }) s
  | .padEvent => setPads (fun p => { p with events := p.events &&& ~~~(mask.setWidth 8) }) s
  | .padUartRx =>
    if mask.getLsbD 31 then (uartRead n s).2
    else match (uart s n).rx with
      | b :: r => setUart n { uart s n with rx := (b &&& ~~~(mask.setWidth 8)) :: r } s
      | [] => s
  | .padUartErr => setUart n { uart s n with err := (uart s n).err &&& ~~~(mask.setWidth 3) } s
  | .tmrSyncFlags => syncLine { s with time := { s.time with syncFlags := s.time.syncFlags &&& ~~~(mask.setWidth 3) } }
  | .tmrTFlags => tmrLine n (updTimer n (fun x => { x with flags := x.flags &&& ~~~(mask.setWidth 6) }) s)
  | .icClaim => match w with | .core lc => (if mask = BitVec.allOnes 32 then (icClaim lc.val s).2 else s) | _ => s
  | _ => s

/-- An access to the DBG block by the holding path keeps the attachment (23 R547). -/
def touch (w : Writer) (off : Nat) (s : State) : State := if 0x5000000 ≤ off ∧ off < 0x6000000 then dbgTouch w s else s
/-- The status of a checked read of a register (02 R39, R41). [DEDUCED, log entry 36] -/
def readStatus (w : Writer) (d : RegDesc) (ix : List Nat) (off : Nat) (s : State) : Nat :=
  if !dbgAllows s w d.dbgR then stAuth
  else if regFenced s off then stFenced
  else if bridgeSilent s off then stTimeout
  else if s.ctl.badParity.contains off then stParity
  else if d.name = .tmrTCnt ∧ tRun s (ix.getD 0 0) then stRunning
  else stOk
/-- A read of a register at an offset of the register region: its status, the value (02 R39), and the state after. [DEDUCED, log entry 40] -/
def regRead (w : Writer) (off : Nat) (mask : Word32) (clear : Bool) (s : State) : Nat × Word32 × State :=
  match findReg off with
  | none => (if writerLevel s w < blockLevel off false then stPriv else stNoreg, 0, s)
  | some (d, ix) =>
    if writerLevel s w < needLevel s d off false then (stPriv, 0, s)
    else
      let st := readStatus w d ix off s
      if st = stAuth then (st, 0, s)
      else if st = stRunning then (st, BitVec.allOnes 32, s)
      else
        let v := if d.acc = .rc then regValue w d ix off s else (copyFor s w off).getD (regValue w d ix off s)
        let s1 := if d.acc = .rc ∧ clear then clearRead w d ix mask s else s
        (st, v, touch w off s1)

def stageBase : Nat := 0x40000000
def bitBase : Nat := 0x800000000
/-- A read at any offset of control space: the register, its staged value (02 R48), or one bit (02 R52). [DEDUCED, log entry 39] -/
def ctlReadAt (w : Writer) (off : Nat) (clear : Bool) (s : State) : Nat × Word32 × State :=
  if off < stageBase then regRead w off (BitVec.allOnes 32) clear s
  else if off < 2 * stageBase then
    let x := off - stageBase
    let r := regRead w x 0 false s
    match smGet optDef s.ctl.staged x with
    | some v => if r.1 = stPriv ∨ r.1 = stNoreg then r else (r.1, v, r.2.2)
    | none => r
  else if bitBase ≤ off ∧ off < 2 * bitBase then
    let a := off - bitBase
    let b := a % 128 / 4
    let r := regRead w (a / 128 * 4) (BitVec.ofNat 32 (2 ^ b)) clear s
    (r.1, if r.2.1.getLsbD b then 1 else 0, r.2.2)
  else (stNoreg, 0, s)
/-- A debugger at OBSERVE clears nothing (00 R8; 02 R44); every other reader clears what it reads. -/
def readClears (w : Writer) (s : State) : Bool := match w with | .path _ => dbgAllows s w 2 | _ => true
/-- `SDC.RD`, and the value an ordinary load returns (02 R39). -/
def ctlRead (w : Writer) (off : Nat) (s : State) : Nat × Word32 × State := ctlReadAt w off (readClears w s) s

end Sys2Proof.Machine
end

