-- ==== Sys2Proof/Machine/ControlWrite.lean ====
section
/-! DEFINITION. Writes of control space (02 R35 to R57): the order of checks, field classes, held low halves, the staging view, bit by bit
writes, commands, snapshots, locks, the ledger. -/

namespace Sys2Proof.Machine

/-! ### Snapshots (02 R53, R54) -/

/-- The offset range of the block that an offset lies in. -/
def blockRange (off : Nat) : Nat × Nat :=
  if off < 0x400000 then (off / 0x100000 * 0x100000, 0x100000)
  else if off < 0x800000 then (0x400000, 0x400000)
  else if off < 0x1000000 then (0x800000, 0x800000)
  else if off < 0x2000000 then (off / 0x10000 * 0x10000, 0x10000)
  else if off < 0x3000000 then (off / 0x100000 * 0x100000, 0x100000)
  else if off < 0x4000000 then (0x3000000, 0x1000000)
  else if off < 0x4800000 then (off / 0x100000 * 0x100000, 0x100000)
  else if off < 0x5000000 then (0x4800000, 0x800000)
  else (off / 0x1000000 * 0x1000000, 0x1000000)
/-- Has the block been captured since the last rind-clock edge by a snapshot of the other kind? One capture then serves both (02 R54). -/
def capturedNow (s : State) (off : Nat) (all : Bool) : Bool := s.ctl.edgeSnaps.contains (off, !all)
/-- Copy the counters of the block whose SNAP register lies at `off`, and advance its count. [DEDUCED, log entry 46] -/
def captureBlock (off : Nat) (s : State) : State :=
  let r := blockRange off
  let mine := s.ctl.counters.filter fun e => decide (r.1 ≤ e.1 ∧ e.1 < r.1 + r.2)
  let s1 : State := { s with ctl := { s.ctl with
    holding := mine.foldl (fun m e => smPut cnt0 m e.1 e.2) (s.ctl.holding.filter fun e => !decide (r.1 ≤ e.1 ∧ e.1 < r.1 + r.2)),
    snapSeq := smPut seq0 s.ctl.snapSeq (off + 4) (smGet seq0 s.ctl.snapSeq (off + 4) + 1) } }
  if off = tmrReg 0x10 then tmrSnap s1 else s1
/-- A snapshot of one block, or of it with all others. -/
def snapOne (all : Bool) (off : Nat) (s : State) : State :=
  let s1 := if capturedNow s off all then s else captureBlock off s
  { s1 with ctl := { s1.ctl with edgeSnaps := (off, all) :: s1.ctl.edgeSnaps } }
def blockSnap (off : Nat) (s : State) : State := snapOne false off s
/-- Every SNAP register. [DEDUCED, log entry 46] -/
def snapOffs : List Nat :=
  [0x100040, 0x300010, 0x400200, 0x800080] ++ ((List.range 256).map fun n => 0x1000010 + 0x10000 * n) ++
    ((List.range 16).map fun u => ctlBase u + 0x20) ++ [0x3000200] ++ ((List.range 8).map fun p => vxBase p + 0x40) ++
    [0x4800200, 0x5002500, 0x6000030, 0x7000080]
/-- Device-wide: blocks behind a timed-out bridge keep their values. [DEDUCED, log entry 46] -/
def snapAll (s : State) : Nat × State :=
  let s1 := snapOffs.foldl (fun a o => if bridgeSilent s o then a else snapOne true o a) s
  let s2 : State := { s1 with ctl := { s1.ctl with snapAll := s1.ctl.snapAll + 1 } }
  (if snapOffs.any (bridgeSilent s) then stTimeout else stOk, s2)

/-! ### Locks (02 R57) -/

/-- The registers of a lockable row. -/
def lockRow : Nat → List Nat
  | 0 => [0x8000010, 0x8000014, 0x8000018]
  | 1 => [0x8000020, 0x8000024, 0x8000028, 0x800002C]
  | 2 => [0x800020]
  | 3 => [0x100034]
  | 4 => [0x500000C]
  | 5 => [0x48]
  | _ => []
def lockSet (v : Word32) (s : State) : Nat × State :=
  if (List.range 6).any fun i => v.getLsbD i && (lockRow i).any s.ctl.badParity.contains then (stParity, s)
  else if fld v 31 6 ≠ 0 then (stRsvd, s)
  else (stOk, { s with ctl := { s.ctl with locks := s.ctl.locks ||| v.setWidth 6 } })

/-! ### Checks of a write -/

/-- Steps 1 to 7 of the order of checks. [DEDUCED, log entry 36] -/
def earlyChecks (w : Writer) (d : RegDesc) (off : Nat) (s : State) : Nat :=
  let debug := if d.name = .dbgSnap then (match w with | .path _ => 2 | _ => 0) else d.dbgW
  firstCode (
    codeIf (decide (writerLevel s w < needLevel s d off true)) stPriv ++
    codeIf (decide (d.acc = .ro ∨ d.acc = .rc)) stNoreg ++
    codeIf (!dbgAllows s w debug) stAuth ++
    codeIf (regFenced s off) stFenced ++
    codeIf (bridgeSilent s off) stTimeout ++
    codeIf (s.ctl.badParity.contains off) stParity ++
    codeIf (match d.lock with | some i => s.ctl.locks.getLsbD i | none => false) stLocked)
/-- Does the block that a STOPPED field belongs to run (00 R9; 02 R47; 11 R296; 13 R348; 15 R402; 16 R418; 18 R452; 19 R476; 23 R563;
24 R593)? -/
def fieldRuns (d : RegDesc) (ix : List Nat) (s : State) : Bool :=
  let n := ix.getD 0 0
  match d.name with
  | .hmcSec => !(memCtl s n).stopped.getLsbD (ix.getD 1 0)
  | .soDevnum | .soDlrBase | .soDlrCfg | .vxRtCfg => s.office.running
  | .pciePeCfg => peRunning s n
  | .pcieIotuDtbase | .pcieMsiIova => s.pcie.running != 0
  | .padUartCfg => uartOn s n
  | .tmrTCfg | .tmrTDiv | .tmrTCnt => tRun s n
  | .dbgTrBase | .dbgTrCfg => traceOn s
  | .celPotBase | .celPotSize | .celRegionBase | .celRegionLimit => s.cellar.potStarted
  | _ => false
/-- [DEDUCED, log entry 36] -/
def outside (lo hi n : Nat) : Bool := decide (n < lo ∨ hi < n)
/-- Another port is the parent (15 R396). -/
def otherParent (s : State) (p : Nat) : Bool := (List.range 8).any fun i => i != p && (reg s (vxBase i + 0x200)).getLsbD 0
def anyParent (s : State) : Bool := (List.range 8).any fun i => (reg s (vxBase i + 0x200)).getLsbD 0
/-- `TMR_t_CFG` (18 R446 to R448). -/
def tmrCfgCodes (t : Nat) (v : Word32) : List Nat :=
  let mode := fld v 2 0
  codeIf (decide (4 < mode) || decide (80 < fld v 14 8) || decide (80 < fld v 22 16) || decide (fld v 26 24 = 7)) stRsvd ++
    codeIf (decide (mode ≠ 0) && decide (fld v 14 8 = t)) stRange
/-- `IC_SRCs_CFG` (17 R422, R432). -/
def icCfgCodes (src : Nat) (old v : Word32) (s : State) : List Nat :=
  let target := fld v 8 0
  codeIf (v.getLsbD 31 && (decide (src = 159) || (decide (192 ≤ src) && decide (src < 256)))) stNotsupp ++
    codeIf ((v.getLsbD 29 && decide (256 ≤ src)) || (if v.getLsbD 28 then !bound s target else decide (256 ≤ target))) stRange ++
    codeIf (v.getLsbD 30 && !old.getLsbD 30 && decide (512 ≤ regCount s)) stBudget
/-- What each register map says of the values of a single register, beyond reserved bits. -/
def valueCodes (d : RegDesc) (ix : List Nat) (off : Nat) (old v : Word32) (s : State) : List Nat :=
  let n := ix.getD 0 0
  let range (b : Bool) : List Nat := codeIf b stRange
  match d.name with
  | .sysBootPolicy => range (decide (fld v 1 0 = 3) || (decide (fld v 1 0 < 2) && decide (s.power.strapBoot = 2)))
  | .pwrIdleCfg => range (decide (fld v 15 0 = 0))
  | .pwrCoreIdle =>
    let r := fld v 31 16
    let g := fld v 15 0
    range ((decide (r ≠ 0) && decide (r < 10)) || (decide (g ≠ 0) && decide (g < 100)) ||
      (decide (r ≠ 0) && decide (g ≠ 0) && decide (r * 1000 ≤ g)))
  | .pwrWakeEn => range (decide (fld v 1 0 ≠ 3))
  | .pwrLimit => range (outside 300 (rfld s 0x100034 10 0) (fld v 10 0))
  | .pwrLimitCeil => range (outside 300 1450 (fld v 10 0))
  | .pwrLcfreq => range (outside 6 26 (fld v 4 0))
  | .padGpioCfg => if fld v 1 0 = fld old 1 0 then [] else range (!fselLegal (cfgPad off) (fld v 1 0))
  | .ledCtl => range (outside 2 20 (fld v 23 16))
  | .ledPwm => range (decide (fld v 31 16 < 100))
  | .padUartCfg => range (decide (fld v 15 0 < 533))
  | .tmrSyncCfg => range (decide (fld v 23 8 = 0))
  | .tmrTCfg => tmrCfgCodes n v
  | .icSrcCfg => icCfgCodes n old v s
  | .icTset => range ((List.range 32).any fun i => v.getLsbD i && !bound s (32 * ix.getD 1 0 + i))
  | .frkPeriod | .frkTc0Ceil | .frkShare | .frkTc0Slots | .frkResW0 | .frkResW1 | .frkResW2 => [frkCheck off v s]
  | .hmcScrub | .dmcScrub => range (decide (fld v 7 0 = 0))
  | .hmcRecentre | .dmcRecentre => range (outside 1 50 (fld v 15 8) || decide (fld v 7 0 = 0))
  | .soDlrCfg => range (outside 6 20 (fld v 4 0))
  | .soDlrTail => range (decide ((dlrHead s - old).toNat < (v - old).toNat))
  | .soSendTimeout => range (decide (fld v 15 0 < 10))
  | .vxCfg => range (decide (fld v 23 16 = 0) || outside 1 32 (fld v 15 8))
  | .vxTimeCfg => range (decide (fld v 31 16 < 16) || (v.getLsbD 0 && (otherParent s n || (reg s 0x4080010).getLsbD 0)))
  | .vxTimeAsym => range (!decide (-1000000 ≤ v.toInt ∧ v.toInt ≤ 1000000))
  | .vxRtCfg => range (decide (fld v 31 24 = 0) || outside 2 31 (fld v 20 16) || outside 4 8 (fld v 3 0))
  | .vxTimeRoot => range (v.getLsbD 0 && anyParent s)
  | .vxRtGrp => range (decide (2 ^ (16 - mbits s) ≤ n))
  | .pciePeCfg => range (decide (5 < fld v 6 4) || decide (bifSubs (fld v 2 0) = []))
  | .pcieSpCtl => range (outside 1 50 (fld v 7 0) || decide (fld v 15 8 = 0))
  | .dbgAttachTo => range (outside 1 3600 (fld v 15 0))
  | .dbgAuthCeil => range (decide (fld v 1 0 = 3))
  | .dbgTrCfg => range (outside 7 25 (fld v 4 0))
  | .dbgTrCtl => range (v.getLsbD 0 && !old.getLsbD 0 && (!tracePagesOk s || decide (traceBase s % (32 * traceSize s) ≠ 0)))
  | .dbgTrTail => range (decide ((BitVec.ofNat 32 s.dbg.trHead - old).toNat < (v - old).toNat))
  | .resHorizonWarn => range (decide (fld v 15 0 < 30))
  | _ => []
/-- The values of a pair (19 R476). -/
def pairCodes (d : RegDesc) (v : Nat) : List Nat :=
  match d.name with
  | .celRegionBase => codeIf (decide (v % 4096 ≠ 0)) stRange
  | .celRegionLimit => codeIf (decide (v % 4096 ≠ 4095)) stRange
  | _ => []
/-- Does a register hold a staged value for a direct write (02 R48)? One that a commit has taken counts until its block has switched to it, though
the staging view then returns the shadow and `SYS_EPOCH.STAGED` reads 0. [DESIGN CHOICE, log entry 47] -/
def hasStaged (s : State) (off : Nat) : Bool := (smGet optDef s.ctl.staged off).isSome || (smGet optDef s.ctl.committed off).isSome
/-- The checks after step 7 of a write of the bits `mask` of a single register, whose new word is `v` (02 R46, R52). [DEDUCED, log entry 36] -/
def lateChecks (d : RegDesc) (ix : List Nat) (off : Nat) (old v mask : Word32) (s : State) : List Nat :=
  codeIf ((v &&& ~~~(BitVec.ofNat 32 d.bits)) != 0) stRsvd ++
  codeIf (((v ^^^ old) &&& BitVec.ofNat 32 d.ro) != 0) stNoreg ++
  codeIf (unboundReg s d ix) stRange ++
  valueCodes d ix off old v s ++
  codeIf (((v ^^^ old) &&& BitVec.ofNat 32 d.stopped) != 0 && fieldRuns d ix s) stRunning ++
  codeIf ((mask &&& BitVec.ofNat 32 d.period) != 0 && hasStaged s off) stEpoch

/-! ### Effects of a write -/

/-- Write a word: PERIOD fields are shadowed, the others in force at once (02 R46). -/
def putWord (d : RegDesc) (off : Nat) (v : Word32) (s : State) : State :=
  let s1 := setReg off v s
  if d.period = 0 then s1 else setAct off ((regAct s off &&& BitVec.ofNat 32 d.period) ||| (v &&& ~~~(BitVec.ofNat 32 d.period))) s1
/-- What an accepted write of a single register does. -/
def applyReg (w : Writer) (d : RegDesc) (ix : List Nat) (off : Nat) (v : Word32) (s : State) : State :=
  let n := ix.getD 0 0
  match d.name with
  | .pwrLimitCeil =>
    let s1 := setReg off v s
    if fld v 10 0 < rfld s 0x100030 10 0 then setReg 0x100030 v s1 else s1
  | .sysBootPolicy => setLive (fun l => { l with orderSet := true }) (setReg off v s)
  | .padGpioCfg => padCfgWritten (cfgPad off) (reg s off) (setReg off v s)
  | .padUartIen => uartLine n (setReg off v s)
  | .tmrRun => tmrRun n v s
  | .tmrSyncCfg => syncLine (setReg off v s)
  | .tmrTCfg => inputsChanged (setReg off v s)
  | .tmrTIen => tmrLine n (setReg off v s)
  | .frkPeriod | .frkTc0Ceil | .frkShare | .frkTc0Slots | .frkResW0 | .frkResW1 | .frkResW2 | .frkBudW0 | .frkBudW1 => frkApply off v s
  | .soQstage => setKeyReg (regKey w d off) v s
  | .soDlrTail => (soDlrTail v s).2
  | .vxRtMem | .vxRtGrp => reroute (putWord d off v s)
  | _ => putWord d off v s
/-- What an accepted write of a pair does; `k` is the key of its low half. -/
def applyPair (w : Writer) (d : RegDesc) (ix : List Nat) (off v : Nat) (s : State) : State :=
  let put (a : State) : State :=
    setKeyReg (regKey w d (off + 4)) (BitVec.ofNat 32 (v / 2 ^ 32)) (setKeyReg (regKey w d off) (BitVec.ofNat 32 v) a)
  match d.name with
  | .tmrTCnt => updTimer (ix.getD 0 0) (fun x => { x with cnt := BitVec.ofNat 64 v }) s
  | _ => put s

/-! ### Commands -/

/-- A GO bit: nothing is done where it is 0. -/
def goBit (bits : Nat) (v : Word32) (f : State → Nat × State) (s : State) : Nat × State :=
  if (v &&& ~~~(BitVec.ofNat 32 bits)) ≠ 0 then (stRsvd, s) else if v.getLsbD 0 then f s else (stOk, s)
def ofCore (w : Writer) (f : Nat → Nat × State) (s : State) : Nat × State := match w with | .core lc => f lc.val | _ => (stOrder, s)
/-- Perform the command of a WO register; `mcmd` is what `DBG_MCMD` does. -/
def command (mcmd : Writer → Word32 → State → Nat × State) (w : Writer) (d : RegDesc) (ix : List Nat) (off : Nat) (v : Word32) (s : State) :
    Nat × State :=
  let n := ix.getD 0 0
  match d.name with
  | .sysEpochCommit => goBit 1 v epochCommit s
  | .sysEpochDiscard => goBit 1 v epochDiscard s
  | .sysSnapAll => goBit 1 v snapAll s
  | .sysLockSet => lockSet v s
  | .pwrCmd => pwrCmd v s
  | .pwrPadRelease => padRelease v s
  | .padMbxCmd => mbxCmd v s
  | .padUartTx => if fld v 31 8 ≠ 0 then (stRsvd, s) else uartSend n v s
  | .tmrCmd => tmrCmd v s
  | .icRaise => icRaise v s
  | .icUnraise => icUnraise v s
  | .icComplete => ofCore w (fun lc => icComplete lc v s) s
  | .hnL3Cmd => l3Cmd n v s
  | .hnCmo =>
    let lo := keyReg s (bankKey (off - 8) (writerKey w))
    let hi := keyReg s (bankKey (off - 4) (writerKey w))
    hnCmo ((hi.toNat * 2 ^ 32 + lo.toNat) / 64) v s
  | .hmcSeccmd => hmcSecCmd n v s
  | .soCmd => soStart v s
  | .soQcmd => soQcmd (fun i => keyReg s (bankKey (0x3000080 + 4 * i) (writerKey w))) v s
  | .vxCmd => vxCmd n v s
  | .vxCmdSweep => vxSweep n v s
  | .vxCohCmd => vxCohCmd n v s
  | .pcieCmd => pcieCmd v s
  | .pcieIotuInv => pcieInv w v s
  | .pciePrgResp => pciePrgResp v s
  | .dbgAttach => dbgAttach w v s
  | .dbgAuthReq => authRequest w v s
  | .dbgAuthSubmit => authSubmit w v s
  | .dbgLcCmd => if bound s n then lcCmd n v s else (stRange, s)
  | .dbgHaltall => haltAll v s
  | .dbgRcmd => rcmd w v s
  | .dbgMcmd => mcmd w v s
  | .dbgStim => (stOk, stim w n v s)
  | .celPotSync => celPotSync v s
  | .celMrCmd => celMrCmd v s
  | _ => goBit d.bits v (fun a => (stOk, blockSnap off a)) s

/-! ### The write of a register -/

/-- Was the write applied (02 R40)? A device-wide snapshot is taken though a bridge has timed out (02 R54). -/
def wasDone (d : RegDesc) (st : Nat) : Bool := st == stOk || (d.name == .sysSnapAll && st == stTimeout)
/-- The journal kind of a direct write (02 R56). [DEDUCED, log entry 38] -/
def journalKind (d : RegDesc) : Nat := if d.name = .sysEpochCommit then 2 else 0
/-- Answer a command, journaling it where it succeeded; with no room in the ledger it is busy before budget and order are looked at.
[DEDUCED, log entry 38] -/
def finish (w : Writer) (d : RegDesc) (off : Nat) (v : Word32) (s : State) (r : Nat × State) : Nat × State :=
  if ledgerFull s off && (wasDone d r.1 || r.1 == stBudget || r.1 == stOrder) then (stBusy, s)
  else if wasDone d r.1 then (r.1, journal off v (journalKind d) (writerLevel s w) r.2) else (r.1, s)
/-- A refused completion is counted though it changes nothing else (17 R430). [DEDUCED, log entry 38] -/
def finishWo (w : Writer) (d : RegDesc) (off : Nat) (v : Word32) (s : State) (r : Nat × State) : Nat × State :=
  if wasDone d r.1 ∨ ledgerFull s off then finish w d off v s r else if r.1 = stOrder then r else (r.1, s)
/-- The low half a writer holds for a pair (02 R35). [DEDUCED, log entry 91] -/
def heldOf (s : State) (w : Writer) (k : Nat) : Option Word32 := (s.ctl.heldLo.find? fun e => e.1 == w && e.2.1 == k).map fun e => e.2.2
def dropHeld (w : Writer) (k : Nat) (s : State) : State :=
  { s with ctl := { s.ctl with heldLo := s.ctl.heldLo.filter fun e => !(e.1 == w && e.2.1 == k) } }
/-- [DEDUCED, log entry 37] -/
def holdLo (w : Writer) (k : Nat) (v : Word32) (s : State) : State :=
  { s with ctl := { s.ctl with heldLo := (w, k, v) :: (dropHeld w k s).ctl.heldLo } }
/-- The word a write of one bit starts from: for the held words of a reservation, what is held (12 R305). -/
def curWord (w : Writer) (d : RegDesc) (ix : List Nat) (off : Nat) (s : State) : Word32 :=
  match d.name with
  | .frkResW1 => heldRes s (ix.getD 0 0) 1
  | .frkResW2 => heldRes s (ix.getD 0 0) 2
  | _ => regValue w d ix off s
/-- The descriptor of the other half of a pair. -/
def otherBits (off : Nat) : Nat := match findReg off with | some (d, _) => d.bits | none => 0xFFFFFFFF
/-- Check and apply a new 64-bit value of the pair at `off`, of which `mask` is written. [DEDUCED, log entry 37] -/
def pairWrite (w : Writer) (d : RegDesc) (ix : List Nat) (off old v : Nat) (s : State) : Nat × State :=
  let bits := otherBits off + otherBits (off + 4) * 2 ^ 32
  let stops := d.stopped ≠ 0 ∧ (old ≠ v ∨ d.name = .tmrTCnt)
  let code := firstCode (
    codeIf ((BitVec.ofNat 64 v &&& ~~~(BitVec.ofNat 64 bits)) != 0) stRsvd ++
    codeIf (unboundReg s d ix) stRange ++ pairCodes d v ++
    codeIf (decide stops && fieldRuns d ix s) stRunning ++ codeIf (ledgerFull s off || ledgerFull s (off + 4)) stBusy)
  if code ≠ stOk then (code, s)
  else
    let lv := writerLevel s w
    let a := keepCopy w (off + 4) (BitVec.ofNat 32 (old / 2 ^ 32)) (keepCopy w off (BitVec.ofNat 32 old) s)
    let r := if d.name = .tmrTimeSet then timeSet v s else (stOk, applyPair w d ix off v a)
    if r.1 = stOk then
      (stOk, journal (off + 4) (BitVec.ofNat 32 (v / 2 ^ 32)) 0 lv (journal off (BitVec.ofNat 32 v) 0 lv r.2))
    else r
/-- A write of a half of a read/write pair (02 R35). [DEDUCED, log entry 37] -/
def halfWrite (w : Writer) (d : RegDesc) (ix : List Nat) (off : Nat) (v : Word32) (s : State) : Nat × State :=
  let lo := pairBase d off
  let k := regKey w d lo
  let early := earlyChecks w d off s
  if d.half = .lo then (if early = stOk then (stOk, holdLo w k v s) else (early, s))
  else
    let s1 := dropHeld w k s
    if early ≠ stOk then (early, s1)
    else
      let cur := (regValue w { d with half := .lo } ix lo s).toNat
      let old := cur + (regValue w d ix off s).toNat * 2 ^ 32
      pairWrite w d ix lo old (((heldOf s w k).map (·.toNat)).getD cur + v.toNat * 2 ^ 32) s1
/-- A write of a whole single register. -/
def wordWrite (w : Writer) (d : RegDesc) (ix : List Nat) (off : Nat) (old v mask : Word32) (s : State) : Nat × State :=
  let code := firstCode ([earlyChecks w d off s] ++ lateChecks d ix off old v mask s ++ codeIf (ledgerFull s off) stBusy)
  if code ≠ stOk then (code, s) else finish w d off v s (stOk, applyReg w d ix off v (keepCopy w off (regValue w d ix off s) s))
/-- A write at an offset of the register region. -/
def regWrite (mcmd : Writer → Word32 → State → Nat × State) (w : Writer) (off : Nat) (v : Word32) (s : State) : Nat × State :=
  match findReg off with
  | none => (if writerLevel s w < blockLevel off true then stPriv else stNoreg, s)
  | some (d, ix) =>
    if d.half ≠ .single ∧ d.acc ≠ .ro then halfWrite w d ix off v s
    else if d.acc = .wo then
      let early := earlyChecks w d off s
      if early ≠ stOk then (early, s) else finishWo w d off v s (command mcmd w d ix off v s)
    else wordWrite w d ix off (curWord w d ix off s) v (BitVec.allOnes 32) s

/-! ### One bit (02 R52) -/

/-- A write of bit `b` of the register at `off`. -/
def bitWrite (mcmd : Writer → Word32 → State → Nat × State) (w : Writer) (off b : Nat) (v : Word32) (s : State) : Nat × State :=
  match findReg off with
  | none => (if writerLevel s w < blockLevel off true then stPriv else stNoreg, s)
  | some (d, ix) =>
    let early := earlyChecks w d off s
    let m := BitVec.ofNat 32 (2 ^ b)
    if early ≠ stOk then (early, s)
    else if d.acc = .wo then
      if v = 0 then (stOk, s)
      else if v ≠ 1 then (stRsvd, s)
      else if d.half = .single then finishWo w d off m s (command mcmd w d ix off m s)
      else halfWrite w d ix off m s
    else if fld v 31 1 ≠ 0 then (stRsvd, s)
    else
      let old := curWord w d ix off s
      let new := if v = 0 then old &&& ~~~m else old ||| m
      if d.half = .single then wordWrite w d ix off old new m s
      else
        let lo := pairBase d off
        let cur := (regValue w { d with half := .lo } ix lo s).toNat
        let high := (regValue w { d with half := .hi } ix (lo + 4) s).toNat
        let v64 := if d.half = .hi then cur + new.toNat * 2 ^ 32 else new.toNat + high * 2 ^ 32
        pairWrite w d ix lo (cur + high * 2 ^ 32) v64 s

/-! ### The staging view (02 R48) -/

/-- The configuration that would result at the commit. -/
def staged (s : State) : State :=
  let put (m : SMap (Option Word32)) (a : State) : State :=
    m.foldl (fun b e => match e.2 with | some v => setReg e.1 (periodMerge e.1 (reg b e.1) v) b | none => b) a
  put s.ctl.staged (put s.ctl.committed s)
/-- The admission of a staged reservation: the larger FLITS wherever the old or the new masks name a resource (12 R306; 21 R514). -/
def stagedAdmit (n w : Nat) (v : Word32) (s : State) : Nat :=
  let word (i : Nat) : Word32 := if i = w then v else nextRes s n i
  let own (x : Word32) : Nat := if x.getLsbD 31 then fld x 15 0 else 0
  let either (r : Nat) : Bool := maskNames (word 1) (word 2) r || maskNames (reg s (frkResOff n 1)) (reg s (frkResOff n 2)) r
  if 535 ≤ n ∨ (n < 512 ∧ !bound s n) then stRange
  else if !(word 0).getLsbD 31 then stOk
  else if fld (word 0) 15 0 = 0 ∨ namesAbsent s (word 1) (word 2) then stRange
  else if (List.range 40).all fun r =>
      !either r || decide (chargedBut s n r + max (own (word 0)) (own (reg s (frkResOff n 0))) ≤ resLimit s r) then stOk
  else stBudget
/-- The value checks of a staging write, against the configuration that would result. -/
def stageCodes (d : RegDesc) (ix : List Nat) (off : Nat) (v : Word32) (s : State) : List Nat :=
  let n := ix.getD 0 0
  let next := staged s
  match d.name with
  | .frkResW0 => [stagedAdmit n 0 v s]
  | .frkResW1 => [stagedAdmit n 1 v s]
  | .frkResW2 => [stagedAdmit n 2 v s]
  | .frkTc0Ceil => [frkCheck off v next] ++
      codeIf ((List.range 40).any fun r => decide (capacity s r * fld v 4 0 / 100 < charged s r)) stBudget
  | _ => valueCodes d ix off (reg next off) v next
/-- A write through the staging view of the register at `off`. [DEDUCED, log entry 39] -/
def stageWrite (w : Writer) (off : Nat) (v : Word32) (s : State) : Nat × State :=
  match findReg off with
  | none => (if writerLevel s w < blockLevel off true then stPriv else stNoreg, s)
  | some (d, ix) =>
    let base := (smGet optDef s.ctl.staged off).getD (reg s off)
    let new := periodMerge off base v
    let code := firstCode ([earlyChecks w d off s] ++
      codeIf ((v &&& ~~~(BitVec.ofNat 32 d.bits)) != 0) stRsvd ++ codeIf (decide (d.period = 0)) stNotsupp ++
      codeIf (unboundReg s d ix) stRange ++ (if d.period = 0 then [] else stageCodes d ix off new s) ++ codeIf s.ctl.inFlight stEpoch ++ codeIf (ledgerFull s off) stBusy)
    if code ≠ stOk then (code, s)
    else
      let s1 : State := { s with ctl := { s.ctl with staged := smPut optDef s.ctl.staged off (some new) } }
      (stOk, journal off v 1 (writerLevel s w) s1)

/-! ### The whole of control space -/

/-- A write at any offset. -/
def ctlWriteWith (mcmd : Writer → Word32 → State → Nat × State) (w : Writer) (off : Nat) (v : Word32) (s : State) : Nat × State :=
  if off < stageBase then
    let r := regWrite mcmd w off v s
    (r.1, touch w off r.2)
  else if off < 2 * stageBase then stageWrite w (off - stageBase) v s
  else if bitBase ≤ off ∧ off < 2 * bitBase then
    let x := (off - bitBase) / 128 * 4
    let r := bitWrite mcmd w x ((off - bitBase) % 128 / 4) v s
    (r.1, touch w x r.2)
  else (stNoreg, s)
/-- `DBG_MCMD` (23 R556, R557): control space is reached 4 bytes at a time, at level S; the command itself is busy meanwhile.
[DEDUCED, log entry 43] -/
def mcmd (w : Writer) (v : Word32) (s : State) : Nat × State :=
  let op := fld v 31 28
  let pa := reg64 s (dbgReg 0x2300)
  let n := if 3 ≤ op then 64 else if v.getLsbD 8 then 8 else 4
  let own := match placeOf pa with | some p => decide (p.region = .control ∧ p.slot = slotOf s) | none => false
  if fld v 27 9 ≠ 0 ∨ fld v 7 1 ≠ 0 then (stRsvd, s)
  else if op = 0 ∨ 4 < op then dbgDone stRsvd false s
  else if (op = 2 ∨ op = 4) ∧ !dbgAllows s w 2 then (stAuth, s)
  else if !own then dbgMem w op n pa s
  else if n ≠ 4 ∨ pa % 4 ≠ 0 then dbgDone stRsvd false s
  else
    let p : Writer := .path (Fin.ofNat 4 (pathOf w))
    let off := pa % 2 ^ 36
    if op = 1 then
      let r := ctlReadAt p off (!v.getLsbD 0 && dbgAllows s w 2) s
      dbgDone r.1 false (setReg (dbgReg 0x2310) r.2.1 r.2.2)
    else
      let r := ctlWriteWith (fun _ _ a => (stBusy, a)) p off (reg s (dbgReg 0x2310)) s
      dbgDone r.1 false r.2
/-- `SDC`: the status, and the state after. -/
def ctlWrite (w : Writer) (off : Nat) (v : Word32) (s : State) : Nat × State := ctlWriteWith mcmd w off v s

end Sys2Proof.Machine
end

