-- ==== Sys2Proof/Machine/CommandRows.lean ====
section
/-! DEFINITION. The commands that are a write or a read of one control-space register (02 R37), parity and the ledger (02 R55, R56). The answer
stands in `ans`. -/

namespace Sys2Proof.Machine

/-- A checked write, answered with its status. -/
def sdc (w : Writer) (off : Nat) (v : Word32) (s : State) : State :=
  if s.power.mode = .off then s else let r := ctlWrite w off v s; answerSt r.1 r.2
/-- A checked read, answered with its status and value. -/
def sdcRd (w : Writer) (off : Nat) (s : State) : State :=
  if s.power.mode = .off then s else let r := ctlRead w off s; answer r.1 (r.2.1.setWidth 64) r.2.2
/-- A word with OP in bits 31 to 28. -/
def opWord (op : Nat) (x : BitVec 28) : Word32 := BitVec.ofNat 32 (op * 2 ^ 28 + x.toNat)
def withOp (op : Nat) (v : Word32) : Word32 := putFld v 31 28 op
def bitOff (off b : Nat) : Nat := bitBase + off * 32 + b * 4

/-! ### Control space itself (02) -/

def execRegisterWrite (w : Writer) (off : BitVec 36) (v : Word32) (s : State) : Out := .next (sdc w off.toNat v s)
def execStageWrite (w : Writer) (off : BitVec 30) (v : Word32) (s : State) : Out := .next (sdc w (stageBase + off.toNat) v s)
def execBitAliasWrite (w : Writer) (off : BitVec 30) (b : Fin 32) (v : Word32) (s : State) : Out :=
  .next (sdc w (bitOff (off.toNat / 4 * 4) b.val) v s)
/-- The half of a read/write pair that an offset of the register region or a one-bit write of it names. -/
def pairHalf (off : Nat) : RegHalf := match findReg off with | some (d, _) => (if d.acc = .ro then .single else d.half) | none => .single
/-- What a `_HI` write discards, whatever its status (R35). -/
def dropHigh (w : Writer) (off : Nat) (s : State) : State :=
  match findReg off with
  | some (d, _) => if d.half = .hi ∧ d.acc ≠ .ro then dropHeld w (regKey w d (off - 4)) s else s
  | none => s
/-- A write that is answered before it reaches the register: a `_HI` write discards its writer's held low half all the same (R35). -/
def answeredAt (w : Writer) (off st : Nat) (s : State) : State :=
  answerSt st (dropHigh w off s)
/-- The ring stayed full: `ST_BUSY`, unless an earlier check fails; nothing changes (R41, R56). A `_LO` write asks for no room (R35).
[DESIGN CHOICE, log entry 7] -/
def execLedgerFullTimeout (w : Writer) (off : BitVec 36) (v : Word32) (s : State) : Out :=
  if s.power.mode = .off then .next s
  else if pairHalf off.toNat = .lo then .next (sdc w off.toNat v s)
  else .next (answeredAt w off.toNat (firstCode [(ctlWrite w off.toNat v s).1, stBusy]) s)
def execSysEpochCommit (w : Writer) (v : Word32) (s : State) : Out := .next (sdc w 0x24 v s)
def execSysEpochDiscard (w : Writer) (v : Word32) (s : State) : Out := .next (sdc w 0x28 v s)
def execSysSnapAll (w : Writer) (v : Word32) (s : State) : Out := .next (sdc w 0x30 v s)
/-- The SNAP register of the `n`th block that holds counters. -/
def execBlockSnap (w : Writer) (n : Fin 289) (v : Word32) (s : State) : Out := .next (sdc w (snapOffs.getD n.val 0) v s)
def execSysLockSet (w : Writer) (v : Word32) (s : State) : Out := .next (sdc w 0x40 v s)

/-- Does a register carry parity (R55)? -/
def hasParity (off : Nat) : Bool := match findReg off with | some (d, _) => decide (d.acc = .rw ∨ d.acc = .rwl) | none => false
/-- What the ledger says a register holds: the last value written, staged values only once committed. `committed` says that the next epoch
command after the entry was a commit. [DEDUCED, log entry 44] -/
def lastWritten (off : Nat) : List LedgerEntry → Bool → Option Word32
  | [], _ => none
  | e :: es, committed =>
    if e.kind = 2 then lastWritten off es true
    else if e.offset = 0x28 then lastWritten off es false
    else if e.offset ≠ off then lastWritten off es committed
    else if e.kind ≠ 1 then some e.value
    else if committed then some (periodMerge off ((lastWritten off es committed).getD (regDef off)) e.value)
    else lastWritten off es committed
/-- The reset value of a register: that of `SYS_BOOT_POLICY` is the strap's (02 R58). -/
def resetWord (s : State) (off : Nat) : Word32 := if off = 0x48 then BitVec.ofNat 32 (strapOrder s) else regDef off
/-- [DEDUCED, log entry 44] -/
def restored (s : State) (off : Nat) : Word32 := (lastWritten off s.ctl.ledger false).getD (resetWord s off)
/-- A use of a register or the sweep finds mismatches (R55): each is reported, and its register awaits its restore. [DEDUCED, log entry 44] -/
def paritySweep (bad : List Nat) (s : State) : State :=
  bad.foldl (fun a off =>
    if hasParity off && !a.ctl.badParity.contains off then
      let b := logFault 0xB 1 ((blockUnit off).getD uRind) none off (restored a off).toNat a
      { b with ctl := { b.ctl with badParity := off :: b.ctl.badParity } }
    else a) s
/-- The value a restore puts into a register: a count into its timer, a banked register into every core's copy that has been written; LIVE fields are
in force at once (02 R46). [DEDUCED, log entry 44] -/
def restoreReg (off : Nat) (v : Word32) (s : State) : State :=
  match findReg off with
  | some (d, ix) =>
    if d.name = .tmrTCnt then
      updTimer (ix.getD 0 0) (fun x => { x with cnt := if d.half = .hi then putFld x.cnt 63 32 v.toNat else putFld x.cnt 31 0 v.toNat }) s
    else if d.bank then ((s.ctl.regs.map (·.1)).filter fun k => decide (2 ^ 36 ≤ k ∧ (k - 2 ^ 36) / 1024 = off)).foldl (fun a k => setKeyReg k v a) s
    else putWord d off v s
  | none => s
/-- No good value can be had: the unit that holds the register is fenced, and the register with it (R55; 20 R492). -/
def parityFence (off : Nat) (s : State) : State :=
  let s1 : State := { s with ctl := { s.ctl with fencedRegs := off :: s.ctl.fencedRegs.erase off } }
  match blockUnit off with
  | some u => if isFenced s1 u then s1 else replaceUnit u (fenceUnit u 0 s1)
  | none => s1
/-- The keeper restores a register, or its unit is fenced where no good value can be had. [DEDUCED, log entry 44] -/
def parityRestore (off : Nat) (ok : Bool) (s : State) : State :=
  if !s.ctl.badParity.contains off then s
  else if ok then
    let v := restored s off
    journal off v 3 2 (restoreReg off v { s with ctl := { s.ctl with badParity := s.ctl.badParity.erase off } })
  else parityFence off s
/-- A bridge treats its far side as absent, and what was last copied from there stays (01 R24; 02 R39). -/
def execBridgeTimeout (near far : Word32) (s : State) : Out := .next (freezeCopies far.toNat (bridgeLate near.toNat far.toNat s))
def execCfgParitySweep (bad : List (BitVec 30)) (s : State) : Out := .next (paritySweep (bad.map (·.toNat)) s)
def execCfgParityRestore (off : BitVec 30) (ok : Bool) (s : State) : Out := .next (parityRestore off.toNat ok s)

/-! ### Caches, coherence, memory (09, 10, 11) -/

def hnOff (n o : Nat) : Nat := 0x1000000 + 0x10000 * n + o
def execL3Disable (w : Writer) (n : Fin 256) (x : BitVec 28) (s : State) : Out := .next (sdc w (hnOff n.val 0x8004) (opWord 1 x) s)
def execL3Enable (w : Writer) (n : Fin 256) (x : BitVec 28) (s : State) : Out := .next (sdc w (hnOff n.val 0x8004) (opWord 2 x) s)
def execL3InvalidateAll (w : Writer) (n : Fin 256) (x : BitVec 28) (s : State) : Out := .next (sdc w (hnOff n.val 0x8004) (opWord 3 x) s)
def execL3SetScratchpadWays (w : Writer) (n : Fin 256) (x : BitVec 28) (s : State) : Out := .next (sdc w (hnOff n.val 0x8004) (opWord 4 x) s)
def execHnCmoClean (w : Writer) (n : Fin 256) (s : State) : Out := .next (sdc w (hnOff n.val 0x8018) 1 s)
def execHnCmoInvalidate (w : Writer) (n : Fin 256) (s : State) : Out := .next (sdc w (hnOff n.val 0x8018) 2 s)
/-- `VX_COH_CMD` has OP in its low bits (10 R271). -/
def cohOff (p : Fin 8) : Nat := vxBase p.val + 0xF000
def execCohJoin (w : Writer) (p : Fin 8) (x : BitVec 28) (s : State) : Out := .next (sdc w (cohOff p) (BitVec.ofNat 32 (x.toNat * 16 + 1)) s)
def execCohLeave (w : Writer) (p : Fin 8) (x : BitVec 28) (s : State) : Out := .next (sdc w (cohOff p) (BitVec.ofNat 32 (x.toNat * 16 + 2)) s)
def execHmcSectorStop (w : Writer) (n : Fin 8) (x : BitVec 28) (s : State) : Out := .next (sdc w (ctlBase n.val + 0x120) (opWord 1 x) s)
def execHmcSectorStart (w : Writer) (n : Fin 8) (x : BitVec 28) (s : State) : Out := .next (sdc w (ctlBase n.val + 0x120) (opWord 2 x) s)

/-! ### Franking and the sorting office (12, 13) -/

def execFrkResWrite (w : Writer) (n : Fin 540) (v : Word32) (s : State) : Out := .next (sdc w (frkResOff n.val 0) v s)
def execFrkTc0CeilWrite (w : Writer) (v : Word32) (s : State) : Out := .next (sdc w frkCeilOff v s)
def soOff (o : Nat) : Nat := 0x3000000 + o
def execQueueCreate (w : Writer) (x : BitVec 28) (s : State) : Out := .next (sdc w (soOff 0x40) (opWord 1 x) s)
def execQueueResize (w : Writer) (x : BitVec 28) (s : State) : Out := .next (sdc w (soOff 0x40) (opWord 2 x) s)
def execQueueRetire (w : Writer) (x : BitVec 28) (s : State) : Out := .next (sdc w (soOff 0x40) (opWord 3 x) s)
def execQueueRetireFlush (w : Writer) (x : BitVec 28) (s : State) : Out := .next (sdc w (soOff 0x40) (opWord 4 x) s)
def execSoStart (w : Writer) (v : Word32) (s : State) : Out := .next (sdc w (soOff 4) v s)
def execDlrTailWrite (w : Writer) (v : Word32) (s : State) : Out := .next (sdc w (soOff 0x20) v s)

/-! ### Links (15) -/

def execPortTrain (w : Writer) (p : Fin 8) (s : State) : Out := .next (sdc w (vxBase p.val + 0x10) (opWord 1 0) s)
/-- By command, or as the port finds it must (R390). -/
def execPortOutOfService (w : Option Writer) (p : Fin 8) (s : State) : Out :=
  match w with
  | some w => .next (sdc w (vxBase p.val + 0x10) (opWord 2 0) s)
  | none => .next (outOfService p.val s)
def execPortRetrain (w : Writer) (p : Fin 8) (s : State) : Out := .next (sdc w (vxBase p.val + 0x10) (opWord 3 0) s)
def execSweepStart (w : Writer) (p : Fin 8) (x : BitVec 28) (s : State) : Out := .next (sdc w (vxBase p.val + 0x100) (opWord 1 x) s)
def execSweepAbort (w : Writer) (p : Fin 8) (x : BitVec 28) (s : State) : Out := .next (sdc w (vxBase p.val + 0x100) (opWord 2 x) s)

/-! ### PCIe (16) -/

def execPciePortStart (w : Writer) (n : Fin 4) (s : State) : Out := .next (sdc w (pcieReg 4) (opWord 1 (BitVec.ofNat 28 n.val)) s)
def execPciePrgResp (w : Writer) (v : Word32) (s : State) : Out := .next (sdc w (pcieReg 0x130) v s)
def execIotuInvPage (w : Writer) (id : BitVec 16) (s : State) : Out := .next (sdc w (pcieReg 0x128) (opWord 1 (id.setWidth 28)) s)
def execIotuInvTag (w : Writer) (id : BitVec 16) (s : State) : Out := .next (sdc w (pcieReg 0x128) (opWord 2 (id.setWidth 28)) s)
def execIotuInvAll (w : Writer) (id : BitVec 16) (s : State) : Out := .next (sdc w (pcieReg 0x128) (opWord 3 (id.setWidth 28)) s)
def execIotuInvDevice (w : Writer) (id : BitVec 16) (s : State) : Out := .next (sdc w (pcieReg 0x128) (opWord 4 (id.setWidth 28)) s)

/-! ### Interrupts, time (17, 18) -/

def execWiredSourceEdge (src : Fin 256) (high : Bool) (s : State) : Out := .next (setLine src.val high s)
def execIcRaise (w : Writer) (v : Word32) (s : State) : Out := .next (sdc w 0x400010 v s)
def execIcUnraise (w : Writer) (v : Word32) (s : State) : Out := .next (sdc w 0x400014 v s)
def execIcClaim (w : Writer) (s : State) : Out := .next (sdcRd w 0x400100 s)
/-- A RUN bit, by its own word (02 R52). -/
def runBit (t : Fin 64) : Nat := bitOff (tmrReg (0x40 + 4 * (t.val / 32))) (t.val % 32)
def execTimerStart (w : Writer) (t : Fin 64) (s : State) : Out := .next (sdc w (runBit t) 1 s)
def execTimerStop (w : Writer) (t : Fin 64) (s : State) : Out := .next (sdc w (runBit t) 0 s)
def execResetEvent (w : Writer) (t : Fin 64) (s : State) : Out := .next (sdc w (tmrReg 0x20) (opWord 1 (BitVec.ofNat 28 t.val)) s)
def execForcedWrap (w : Writer) (t : Fin 64) (s : State) : Out := .next (sdc w (tmrReg 0x20) (opWord 2 (BitVec.ofNat 28 t.val)) s)
def execTmrFlagsRead (w : Writer) (t : Fin 64) (s : State) : Out := .next (sdcRd w (tReg t.val 0x30) s)
def execTmrSyncFlagsRead (w : Writer) (s : State) : Out := .next (sdcRd w (tmrReg 0x54) s)
def execTmrSnap (w : Writer) (s : State) : Out := .next (sdc w (tmrReg 0x10) 1 s)
/-- Both halves, low first. -/
def execTimeSet (w : Writer) (v : Word64) (s : State) : Out :=
  .next (sdc w (tmrReg 0xC) (BitVec.ofNat 32 (v.toNat / 2 ^ 32)) (ctlWrite w (tmrReg 8) (v.setWidth 32) s).2)

/-! ### The cellar (19), power (22), pads (24) -/

def execCelPotSync (w : Writer) (v : Word32) (s : State) : Out := .next (sdc w 0x8000048 v s)
def execMrExtend (w : Writer) (v : Word32) (s : State) : Out := .next (sdc w 0x8000430 v s)
def execDrain (w : Writer) (s : State) : Out := .next (sdc w (pwrReg 4) (opWord 1 0) s)
def execSetDeepnext (w : Writer) (s : State) : Out := .next (sdc w (pwrReg 4) (opWord 2 0) s)
def execClearDeepnext (w : Writer) (s : State) : Out := .next (sdc w (pwrReg 4) (opWord 3 0) s)
def execPwrPadRelease (w : Writer) (s : State) : Out := .next (sdc w (pwrReg 0x24) 1 s)
def execPwrWakeLastRead (w : Writer) (s : State) : Out := .next (sdcRd w (pwrReg 0x1C) s)
def execPwrLimitCeilWrite (w : Writer) (v : Word32) (s : State) : Out := .next (sdc w (pwrReg 0x34) v s)
def execFunctionSwitch (w : Writer) (n : Fin 32) (v : Word32) (s : State) : Out := .next (sdc w (padReg (0x100 + 4 * n.val)) v s)
def execUartTx (w : Writer) (u : Fin 2) (v : Word32) (s : State) : Out := .next (sdc w (uartReg u.val 4) v s)
def execUartRxRead (w : Writer) (u : Fin 2) (s : State) : Out := .next (sdcRd w (uartReg u.val 8) s)
def execUartErrRead (w : Writer) (u : Fin 2) (s : State) : Out := .next (sdcRd w (uartReg u.val 0x10) s)
def execPadEventRead (w : Writer) (s : State) : Out := .next (sdcRd w (padReg 8) s)
def execMbxReleaseIn (w : Writer) (v : Word32) (s : State) : Out := .next (sdc w (padReg 0x24) (withOp 1 v) s)
def execMbxPostOut (w : Writer) (v : Word32) (s : State) : Out := .next (sdc w (padReg 0x24) (withOp 2 v) s)

/-! ### Debug (23) -/

def execAuthRequest (w : Writer) (v : Word32) (s : State) : Out := .next (sdc w (dbgReg 0x10) v s)
def execAuthSubmit (w : Writer) (v : Word32) (s : State) : Out := .next (sdc w (dbgReg 0x60) v s)
def execDbgAttach (w : Writer) (v : Word32) (s : State) : Out := .next (sdc w (dbgReg 4) (withOp 1 v) s)
def execDbgDetach (w : Writer) (v : Word32) (s : State) : Out := .next (sdc w (dbgReg 4) (withOp 2 v) s)
def lcCmdOff (lc : LC) : Nat := dbgReg (0x104 + 16 * lc.val)
def execHaltRequest (w : Writer) (lc : LC) (s : State) : Out := .next (sdc w (lcCmdOff lc) (opWord 1 0) s)
def execResume (w : Writer) (lc : LC) (s : State) : Out := .next (sdc w (lcCmdOff lc) (opWord 2 0) s)
def execStep (w : Writer) (lc : LC) (s : State) : Out := .next (sdc w (lcCmdOff lc) (opWord 3 0) s)
def execHaltAll (w : Writer) (s : State) : Out := .next (sdc w (dbgReg 0x2100) (opWord 1 0) s)
def execResumeAll (w : Writer) (s : State) : Out := .next (sdc w (dbgReg 0x2100) (opWord 2 0) s)
def execRegisterWindowRead (w : Writer) (s : State) : Out := .next (sdc w (dbgReg 0x2204) (opWord 1 0) s)
def execRegisterWindowWrite (w : Writer) (s : State) : Out := .next (sdc w (dbgReg 0x2204) (opWord 2 0) s)
def execDebugMemoryRead (w : Writer) (v : Word32) (s : State) : Out := .next (sdc w (dbgReg 0x2308) (withOp 1 v) s)
def execDebugMemoryWrite (w : Writer) (v : Word32) (s : State) : Out := .next (sdc w (dbgReg 0x2308) (withOp 2 v) s)
def execDebugLineRead (w : Writer) (v : Word32) (s : State) : Out := .next (sdc w (dbgReg 0x2308) (withOp 3 v) s)
def execDebugLineWrite (w : Writer) (v : Word32) (s : State) : Out := .next (sdc w (dbgReg 0x2308) (withOp 4 v) s)
def execStim (w : Writer) (p : Fin 256) (v : Word32) (s : State) : Out := .next (sdc w (dbgReg (0x10000 + 4 * p.val)) v s)

end Sys2Proof.Machine
end

