-- ==== Sys2Proof/Machine/Mailbox.lean ====
section
/-! DEFINITION. The commands of the management mailbox (24 R586 to R588) and the debug access of the TAP (24 R592). -/

namespace Sys2Proof.Machine

/-- The mailbox as a writer: path 2, level S (23 R547). -/
def mbxPath : Writer := .path 2
/-- In OFF nothing answers. Serve the held request if it is the command `cmd`, whose payload has `len` bytes where that is fixed. [DEDUCED, log entry 83] -/
def mbxServe (cmd : Nat) (len : Option Nat) (f : List Byte → State → Nat × List Byte × State) (s : State) : State :=
  match s.pads.request with
  | some (c, tag, payload) =>
    if c ≠ cmd ∨ s.power.mode = .off then s
    else if len.isSome ∧ len ≠ some payload.length then mbxAnswer stRsvd tag [] s
    else
      let r := f payload s
      mbxAnswer r.1 tag r.2.1 r.2.2
  | none => s
def okBytes (bs : List Byte) (s : State) : Nat × List Byte × State := (stOk, bs, s)
def inRindMode (s : State) : Bool := decide (s.power.mode = .rind)

/-- [DEDUCED, log entry 83] -/
def execGetId (s : State) : Out :=
  .next (mbxServe 1 (some 0) (fun _ a => okBytes (bytesOfNat sysId 4 ++ bytesOfNat a.cellar.serial.toNat 8) a) s)
/-- The RES words read 0 in RIND. -/
def execGetState (s : State) : Out :=
  .next (mbxServe 2 (some 0) (fun _ a =>
    let res (n : Nat) : List Byte := bytesOfNat (if inRindMode a then 0 else n) 4
    okBytes (bytesOfNat (sysMode a) 4 ++ bytesOfNat (pwrStat a) 4 ++ bytesOfNat (pwrReqStat a) 4 ++ res (resStat a) ++
      res a.resil.contain.toNat) a) s)
def execPowerOn (s : State) : Out := .next (mbxServe 3 (some 0) (fun _ a => let r := powerOn a; (r.1, [], r.2)) s)
def execMailboxDrain (s : State) : Out :=
  .next (mbxServe 4 (some 0) (fun _ a =>
    if drainAllowed a then (let r := placeRequest .drain true a; (r.1, [], r.2)) else (stRange, [], a)) s)
def execLogSeq (s : State) : Out := .next (mbxServe 5 (some 0) (fun _ a => okBytes (bytesOfNat a.resil.logSeq 4) a) s)
/-- [DEDUCED, log entry 83] -/
def execReadLog (s : State) : Out :=
  .next (mbxServe 6 (some 4) (fun p a =>
    let n := natOfBytes p
    if n < 4096 then okBytes (match logSlot a n with | some e => entryBytes e | none => List.replicate 48 0) a else (stRange, [], a)) s)
/-- [DEDUCED, log entry 43; DEDUCED, log entry 83] -/
def execReadReg (s : State) : Out :=
  .next (mbxServe 7 (some 4) (fun p a =>
    let r := ctlRead mbxPath (natOfBytes p) a
    (r.1, bytesOfNat r.2.1.toNat 4, r.2.2)) s)
/-- [DESIGN CHOICE, log entry 85] -/
def execGetAlert (s : State) : Out :=
  .next (mbxServe 8 (some 0) (fun _ a => okBytes (bytesOfNat a.pads.alerts.toNat 4) (setPads (fun p => { p with alerts := 0 }) a)) s)
def execSetPwrLimit (s : State) : Out :=
  .next (mbxServe 9 (some 2) (fun p a => let r := ctlWrite mbxPath (pwrReg 0x30) (BitVec.ofNat 32 (natOfBytes p)) a; (r.1, [], r.2)) s)
/-- One access to the DBG block by a path (23 R547): the status, the data read, the state after. -/
def dbgAccess (w : Writer) (o : Nat) (wr : Bool) (v : Word32) (s : State) : Nat × Word32 × State :=
  if 0x1000000 ≤ o then (stNoreg, 0, s)
  else if wr then (let r := ctlWrite w (dbgReg o) v s; (r.1, 0, r.2))
  else ctlRead w (dbgReg o) s
def execDebug (s : State) : Out :=
  .next (mbxServe 10 (some 9) (fun p a =>
    let r := dbgAccess mbxPath (natOfBytes (p.take 4)) (p.getD 4 0 != 0) (BitVec.ofNat 32 (natOfBytes (p.drop 5))) a
    (r.1, bytesOfNat r.2.1.toNat 4, r.2.2)) s)
/-- [DEDUCED, log entry 83] -/
def execHostMsg (s : State) : Out :=
  .next (mbxServe 11 none (fun p a =>
    if p = [] then (stRange, [], a)
    else if a.pads.inFull then (stBusy, [], a)
    else (stOk, [], setLine 153 true (setPads (fun x => { x with hostIn := p, inFull := true }) a))) s)
def execHostRead (s : State) : Out :=
  .next (mbxServe 12 (some 0) (fun _ a =>
    okBytes (if a.pads.outFull then a.pads.hostOut else []) (setPads (fun x => { x with outFull := false }) a)) s)
/-- An Update-DR of DBGACC: path 1. [DEDUCED, log entry 83] -/
def execDbgacc (d : Word64) (s : State) : Out :=
  if s.pads.ir = 0x20 ∧ d.getLsbD 0 ∧ s.power.mode ≠ .off then
    let s1 := setPads (fun p => { p with released := false }) s
    let r := if fld d 31 24 ≠ 0 then (stRsvd, 0, s1)
      else dbgAccess (.path 1) (4 * fld d 23 2) (d.getLsbD 1) (BitVec.ofNat 32 (fld d 63 32)) s1
    .next (setPads (fun p => { p with dbgData := r.2.1, dbgStatus := r.1 }) r.2.2)
  else .next s

end Sys2Proof.Machine
end

