-- ==== Sys2Proof/Machine/Encode.lean ====
section
/-! DEFINITION. The instruction formats (03 R68): the word an instruction's fields make, which an exception reports (07 R182). -/

namespace Sys2Proof.Machine

def wordOf (op rest : Nat) : Word32 := BitVec.ofNat 32 (op * 2 ^ 26 + rest)
/-- Format A, three-register. -/
def encA (op : Nat) (rd ra rb : Fin 32) (f : Bool) (fn : Nat) : Word32 :=
  wordOf op (rd.val * 2 ^ 21 + ra.val * 2 ^ 16 + rb.val * 2 ^ 11 + f.toNat * 2 ^ 10 + fn)
/-- Format I, register and immediate. -/
def encI (op : Nat) (rd ra : Fin 32) (f x : Bool) (imm : BitVec 14) : Word32 :=
  wordOf op (rd.val * 2 ^ 21 + ra.val * 2 ^ 16 + f.toNat * 2 ^ 15 + x.toNat * 2 ^ 14 + imm.toNat)
/-- Format I as `SETQ` and `PUTQ` use it: Q in [20:16], imm16 in [15:0] (03 R76). -/
def encQ (op : Nat) (rd : Fin 32) (q : BitVec 5) (imm : BitVec 16) : Word32 := wordOf op (rd.val * 2 ^ 21 + q.toNat * 2 ^ 16 + imm.toNat)
/-- Format I as `ADR` uses it: off21 in [20:0] (03 R76). -/
def encAdr (rd : Fin 32) (off : BitVec 21) : Word32 := wordOf 0x10 (rd.val * 2 ^ 21 + off.toNat)
/-- Format M, memory. -/
def encM (op : Nat) (rt rb : Fin 32) (mo : BitVec 2) (off : BitVec 14) : Word32 :=
  wordOf op (rt.val * 2 ^ 21 + rb.val * 2 ^ 16 + mo.toNat * 2 ^ 14 + off.toNat)
/-- Format B, conditional branch; [20:17] are reserved. -/
def encB (cond : BitVec 4) (hint : Bool) (rsv : BitVec 4) (off : BitVec 17) : Word32 :=
  wordOf 0x30 (cond.toNat * 2 ^ 22 + hint.toNat * 2 ^ 21 + rsv.toNat * 2 ^ 17 + off.toNat)
/-- Format J, jump. -/
def encJ (op : Nat) (off : BitVec 26) : Word32 := wordOf op off.toNat
/-- Format V, vector. -/
def encV (op : Nat) (vd va vb : Fin 32) (k : Fin 8) (z : Bool) (ew : BitVec 2) (vfn : Nat) : Word32 :=
  wordOf op (vd.val * 2 ^ 21 + va.val * 2 ^ 16 + vb.val * 2 ^ 11 + k.val * 2 ^ 8 + z.toNat * 2 ^ 7 + ew.toNat * 2 ^ 5 + vfn)
/-- Format S, system. -/
def encS (op : Nat) (rd rv : Fin 32) (sfn : Nat) (x12 : BitVec 12) : Word32 :=
  wordOf op (rd.val * 2 ^ 21 + rv.val * 2 ^ 16 + sfn * 2 ^ 12 + x12.toNat)
/-- The third register of the register layout of format S, in x12[11:7] (03 R69). -/
def thirdReg (x12 : BitVec 12) : GReg := ⟨x12.toNat / 128 % 32, Nat.mod_lt _ (by decide)⟩
def thirdOk (x12 : BitVec 12) : Bool := x12.toNat % 128 == 0

end Sys2Proof.Machine
end

