-- ==== Sys2Proof/Machine/Access.lean ====
section
/-! DEFINITION. A core's data accesses: the checks each byte range meets (07 R179, 01 R31, 23 R559), what serves it (23 R567), and the
access itself by region and memory type (04 R97, R99, R115). -/

namespace Sys2Proof.Machine

/-! ### Matches (23 R559) -/

/-- Do breakpoints and watchpoints match now? Never at K, nor in the first unit after a match or an `ERET` that skips (R552, R561). -/
def matchesOn (c : Core) : Bool := decide (levelOf c.regs < 2) && !c.skipOnce && c.eretSkip == 0 && c.eretStep == 0
/-- The breakpoint that matches the instruction at PC. -/
def breakAt (c : Core) : Option Nat :=
  if matchesOn c then
    (List.range 4).find? fun i =>
      let b := csr c.regs (0x600 + i)
      fld b 63 2 == fld c.pc 63 2 && (if levelOf c.regs = 0 then b.getLsbD 0 else b.getLsbD 1)
  else none
/-- The watchpoint a data access of `n` bytes touches at the first byte that matches, the lowest-numbered of those that share it
(06 R156; 23 R559). -/
def watchAt (c : Core) (va : Word64) (n : Nat) (ld st : Bool) : Option (Nat × Nat) :=
  if matchesOn c then
    ((List.range 4).filterMap fun i =>
      let cfg := csr c.regs (0x60C + i)
      let lo := (csr c.regs (0x608 + i)).toNat
      let hi := lo + 2 ^ fld cfg 9 4
      let on := (if levelOf c.regs = 0 then cfg.getLsbD 0 else cfg.getLsbD 1) && ((ld && cfg.getLsbD 2) || (st && cfg.getLsbD 3))
      if on && decide (va.toNat < hi ∧ lo < va.toNat + n) then some (i, max lo va.toNat) else none).foldl
        (fun a x => match a with
          | none => some x
          | some y => if x.2 < y.2 then some x else some y) none
  else none

/-! ### The checks of an access -/

/-- Translate an access of `n` bytes and make its further checks, in the order of 07 R179: a stale translation to an unbacked address
(01 R31), poison, watchpoints; `part` for a write of part of a line that poison refuses (06 R155). -/
def accessPart (lc : Nat) (w : Want) (va : Word64) (n : Nat) (ld st part : Bool) (s : State) : Except Exc Xlat × State :=
  let x := translate lc w va s
  match x.1 with
  | .error e => (.error e, x.2)
  | .ok a =>
    if ld && !backed x.2 a.acc.pa then
      (.error { cause := excPoison, addr := va, reason := 2, acc := w.acc, elem := w.elem }, x.2)
    else if (ld || part) && readsPoison x.2 (lineOf a.acc.pa) then
      (.error { cause := excPoison, addr := va, reason := 1, acc := w.acc, elem := w.elem }, x.2)
    else match watchAt (coreOf x.2 lc) va n ld st with
      | some (i, b) => (.error { cause := excDebug, addr := BitVec.ofNat 64 b, reason := 0x20 + i }, x.2)
      | none => (.ok a, x.2)

def access (lc : Nat) (w : Want) (va : Word64) (n : Nat) (ld st : Bool) (s : State) : Except Exc Xlat × State :=
  accessPart lc w va n ld st false s

/-! ### What serves an access -/

/-- Is the address in the scratchpad of the core's own L2? -/
def ownScratch (s : State) (lc pa : Nat) : Bool :=
  match placeOf pa with
  | some p => decide (p.region = .scratch ∧ p.slot = slotOf s) && (match scratchUnit p.off with | some (true, n, _) => n == lc | _ => false)
  | none => false
/-- Does the access leave the core's own caches, and so pass its injection meter (12 R302)? -/
def leavesCore (s : State) (lc : Nat) (a : Access) : Bool :=
  if isMemory a.pa then a.mt != 0 || (l2Copy s (pcOf s lc) (lineOf a.pa)).isNone else !ownScratch s lc a.pa
/-- SOURCE of a sample record: 1 L1D, 2 L2, 3 and 4 an L3, 5 another L2, 6 HBM, 7 DDR, 8 another device, 9 scratchpad (23 R567). -/
def servedBy (s : State) (lc : Nat) (a : Access) : Nat :=
  let pc := pcOf s lc
  let line := lineOf a.pa
  match placeOf a.pa with
  | some p =>
    if p.region = .scratch then 9
    else if p.region ≠ .hbm ∧ p.region ≠ .ddr then 0
    else if a.mt = 0 ∧ l1dOn s pc ∧ (findLine (priv s pc).l1d line).isSome then 1
    else if a.mt = 0 ∧ (l2Copy s pc line).isSome then 2
    else if p.slot ≠ slotOf s then 8
    else
      let h := homeOf s line
      if (dirOf s h line).owner.isSome then 5
      else if (l3Copy s h line).isSome then (if h / 32 = pc / 72 then 3 else 4)
      else if p.region = .hbm then 6
      else 7
  | none => 0
/-- The events of 23 R565 that an access counts at its commit. [DEDUCED, log entry 34] -/
def accessEvents (s : State) (lc : Nat) (va : Word64) (a : Access) (load : Bool) : List PmEvent :=
  let c := coreOf s lc
  let src := servedBy s lc a
  let out := leavesCore s lc a
  let passed := out && !injectsWithin s lc a.tc.toNat 1 (lineResources s a.pa)
  let miss := (xlatCfg c.regs).getLsbD 0 && (c.tlbs.dtlb.find? (slotHits c.regs (va.toNat % 2 ^ 48))).isNone
  let e (n : Nat) : PmEvent :=
    { event := n, pc := c.pc, daddr := some va, source := src, tc := a.tc.toNat, level := levelOf c.regs,
      flags := miss.toNat + 2 * c.group.isSome.toNat + 4 * passed.toNat + 8 * (decide (a.tc = 0) && !passed).toNat }
  let opt (b : Bool) (n : Nat) : List PmEvent := if b then [e n] else []
  [e (if load then 0x20 else 0x21)] ++ opt (load && decide (src ≠ 1)) 0x22 ++ opt (decide (3 ≤ src ∧ src ≤ 8)) 0x23 ++
    opt (src == 3 || src == 4) 0x24 ++ opt (src == 6) 0x25 ++ opt (src == 7) 0x26 ++ opt (src == 8) 0x27 ++
    opt (passed && a.tc == 0) 0x60 ++ opt passed 0x61

/-! ### The access itself -/

def coreMeter (lc : Nat) (a : Access) (s : State) : State := if leavesCore s lc a then coreInject lc a s else s
/-- Read `n` bytes of memory or of a scratchpad: through the core's caches on MT 0, once at the home otherwise (04 R99). -/
def loadNow (lc : Nat) (a : Access) (n : Nat) (nt : Bool) (s : State) : List Byte × State :=
  let s0 := coreMeter lc a s
  if isMemory a.pa then
    if a.mt = 0 then
      let s1 := coherentRead lc (lineOf a.pa) a.tc false nt (noteFenced (lineOf a.pa) s0)
      (viewBytes s1 lc a.pa n false, s1)
    else
      let r := agentRead a.tc.toNat a.pa n s0
      (r.1, r.2.2)
  else (readBytes s0 a.pa n, s0)
/-- Perform a store of bytes of one line: discarded and recorded where the address is no longer backed (01 R31), discarded where its
home is fenced (20 R487). A whole line written with `nt` is one full-line write at its home (04 R97). -/
def storeNow (lc : Nat) (a : Access) (bs : List Byte) (nt : Bool) (s : State) : State :=
  if !backed s a.pa then pulse 151 (logFault 9 3 (uCore (pcOf s lc)) (some lc) a.pa 0 s)
  else
    let s0 := coreMeter lc a s
    match placeOf a.pa with
    | some p =>
      if p.region = .mmio then
        if p.slot = slotOf s then pcieStore p.off bs s0
        else cohSend p.slot (.req .pw) (lineOf a.pa) a.tc (some (BitVec.ofNat 512 (natOfBytes bs * 2 ^ (8 * (a.pa % 64))))) s0
      else if lineFenced s (lineOf a.pa) then noteFenced (lineOf a.pa) s0
      else if isMemory a.pa ∧ a.mt ≠ 0 then
        (request .pw .agent (lineOf a.pa) { off := a.pa % 64, bytes := bs, tc := a.tc } s0).2
      else if isMemory a.pa ∧ !(nt && bs.length == 64) then coherentStore lc a.pa a.tc bs s0
      else agentWrite a.tc.toNat a.pa bs s0
    | none => s0
/-- The code of an operation in the field of `AMO` (04 R113). -/
def amoNum : AmoOp → Nat
  | .xchg => 0
  | .add => 1
  | .and => 2
  | .or => 3
  | .xor => 4
  | .maxs => 5
  | .mins => 6
  | .maxu => 7
  | .minu => 8
  | .cmpx => 9
/-- Perform an `AMO` (04 R115): in the core's L2 when near on MT 0, else at the home, or in the scratchpad's array. -/
def amoNow (lc : Nat) (a : Access) (op : AmoOp) (wide far : Bool) (gs gt : Word64) (s : State) : Word64 × State :=
  let s0 := coreMeter lc a s
  if isMemory a.pa && a.mt == 0 && !far && l2On s (pcOf s lc) then
    let s1 := coherentOwn lc (lineOf a.pa) a.tc s0
    if wide then
      let old := BitVec.ofNat 64 (natOfBytes (viewBytes s1 lc a.pa 8 false))
      (old, viewWrite lc a.pa (bytesOf (amoOp op old gs gt) 8) s1)
    else
      let old := BitVec.ofNat 32 (natOfBytes (viewBytes s1 lc a.pa 4 false))
      (old.setWidth 64, viewWrite lc a.pa (bytesOf (amoOp op old (gs.setWidth 32) (gt.setWidth 32)) 4) s1)
  else agentAmo a.tc.toNat a.pa (amoNum op) wide gs gt s0

/-- Slots made from an entry are dropped, so that its next use translates afresh. -/
def dropSlots (entry : Nat) (t : Tlbs) : Tlbs :=
  let uses (x : TlbSlot) : Bool := x.leafs.any fun e => e.1 == entry
  { t with itlb := t.itlb.filter fun x => !uses x, dtlb := t.dtlb.filter fun x => !uses x, l2tlb := t.l2tlb.filter fun x => !uses x.2 }
/-- Set A and D as an access owes them (08 R208); answers whether every entry still held its walked value. -/
def setAds (lc : Nat) : List AdUpdate → State → Bool × State
  | [], s => (true, s)
  | u :: r, s =>
    match adSwap u s with
    | some s1 => setAds lc r (updCore lc (fun c => { c with tlbs := markSlots u c.tlbs }) s1)
    | none => (false, updCore lc (fun c => { c with tlbs := dropSlots u.entry c.tlbs }) s)

end Sys2Proof.Machine
end

