-- ==== Sys2Proof/Machine/Entry.lean ====
section
/-! DEFINITION. Exception and interrupt entry and the exception return (07 R171 to R183), debug matches routed to a halt (23 R560), the end
of a step unit (23 R552, R561). -/

namespace Sys2Proof.Machine

/-! ### The registers of an entry -/

/-- The exception registers of a level: 0x400 upward at U and S, the K copies 0x800 upward at K (07 R173, R174). -/
def excBank (r : Regs) : Nat := if levelOf r = 2 then 0x800 else 0x400
/-- `CSR_ECAUSE` but NESTED (07 R174, R182). -/
def causeInfo (e : Exc) (intr : Bool) : Nat :=
  intr.toNat * 2 ^ 63 + e.fpx % 32 * 2 ^ 40 + e.acc % 4 * 2 ^ 38 + e.elem.isSome.toNat * 2 ^ 37 + e.elem.getD 0 % 32 * 2 ^ 32 +
    e.reason % 256 * 2 ^ 8 + e.cause % 256
/-- `CSR_ECAUSE`. -/
def causeWord (e : Exc) (intr nested : Bool) : Word64 := BitVec.ofNat 64 (causeInfo e intr + 2 ^ 62 * nested.toNat)
/-- `CSR_ESTAT` (07 R176 step 1). -/
def estatWord (r : Regs) : Word64 :=
  BitVec.ofNat 64 ((flagsWord r.flags).toNat * 2 ^ 8 + levelOf r * 2 ^ 4 + ((csr r (excBank r)).getLsbD 0).toNat)
/-- g31 and a stack-pointer register exchange values (07 R176). -/
def swapSp (esp : Nat) (r : Regs) : Regs := writeG (setCsr r esp (readG r 31)) 31 (csr r esp)
/-- LEVEL and W of `CSR_STATUS` (07 R174); W is 1 exactly at K (03 R62). -/
def setLevel (n : Nat) (r : Regs) : Regs := setCsr r 0x400 (putFld (putFld (csr r 0x400) 6 5 n) 7 7 (decide (n = 2)).toNat)
/-- IE and EXL of a level's status (07 R174). -/
def setIeExl (bank : Nat) (ie exl : Bool) (r : Regs) : Regs := setCsr r bank (putFld (putFld (csr r bank) 0 0 ie.toNat) 1 1 exl.toNat)
/-- The saved registers of the bank at `b` (07 R176 steps 1 to 3). -/
def saveEntry (b : Nat) (estat epc cause : Word64) (e : Exc) (empc insn : Word64) (r : Regs) : Regs :=
  setCsr (setCsr (setCsr (setCsr (setCsr (setCsr (setCsr r (b + 3) estat) (b + 2) epc) (b + 4) cause) (b + 5) e.addr) (b + 6) empc) (b + 7) insn)
    (b + 8) e.elanes
/-- The registers after entry as one step (07 R176): from U to S, at S and K to the same level. [DEDUCED, log entry 13] -/
def enterRegs (e : Exc) (intr : Bool) (epc empc insn : Word64) (r : Regs) : Regs :=
  let b := excBank r
  let r1 := saveEntry b (estatWord r) epc (causeWord e intr ((csr r b).getLsbD 1)) e empc insn r
  setIeExl b false true (if levelOf r = 0 then setLevel 1 (swapSp (b + 9) r1) else r1)
/-- The vector address (07 R177). -/
def vectorPc (cause : Nat) (r : Regs) : Word64 :=
  csr r (excBank r + 1) + BitVec.ofNat 64 ((if levelOf r = 0 then 0 else 0x800) + cause * 0x40)
/-- The entry of a core; it ends what an `ERET` armed, and clears SKIP (23 R561). -/
def enterCore (e : Exc) (intr : Bool) (epc empc insn : Word64) (c : Core) : Core :=
  let x := enterRegs e intr epc empc insn c.regs
  let r := if c.eretSkip = 0 then x else setCsr x 0x610 (putFld (csr x 0x610) 0 0 0)
  { c with regs := r, pc := vectorPc e.cause c.regs, eretSkip := 0, eretStep := 0 }

/-! ### Shadows at a cut (04 R101, R104) -/

/-- Write a load's value at its write point. -/
def applyShadow (r : Regs) (sh : Shadow) : Regs :=
  match sh.dest, sh.value with
  | .gen g, .word w => writeG r g w
  | .vec v, .vector x => writeV r v x
  | .mask k, .word w => writeK r k w
  | _, _ => r
/-- Every open shadow is cut: its write point is here. -/
def cutShadows (c : Core) : Core := { c with regs := c.shadows.foldl applyShadow c.regs, shadows := [] }

/-! ### Raising an exception -/

def pmEvents1 (lc : Nat) (evs : List PmEvent) (s : State) : State := evs.foldl (pmCount lc) s
def plainEvent (c : Core) (n : Nat) : PmEvent := { event := n, pc := c.pc, flags := 2 * c.group.isSome.toNat, level := levelOf c.regs }
/-- Does PC lie in a slot of the vector table of the level (07 R177, R181)? [DEDUCED, log entry 14] -/
def inVectorSlot (c : Core) : Bool :=
  let d := (c.pc - csr c.regs (excBank c.regs + 1)).toNat
  decide (0 < levelOf c.regs ∧ d < 0x1000 ∧ d % 0x800 < 0x440)
/-- The fetch of a vector slot failed: the core stops and the keeper records it (07 R181). [DEDUCED, log entry 14] -/
def vectorStop (lc : Nat) (s : State) : State :=
  let c := coreOf s lc
  logFault 8 3 (uCore (pcOf s lc)) (some lc) (csr c.regs (excBank c.regs + 1)).toNat 0
    (updCore lc (fun x => { x with standing := .stopped, vecStop := true }) s)
/-- Does a match halt the core instead of raising EXC_DEBUG (23 R560)? -/
def haltsInstead (s : State) (lc : Nat) (e : Exc) : Bool := e.cause == excDebug && decide (e.reason < 0x30) && (reg s (dbgReg (0x100 + 16 * lc))).getLsbD 0
/-- A step that ran into an entry ends there (23 R552). [DEDUCED, log entry 13] -/
def stepEnds (lc : Nat) (s : State) : State :=
  let c := coreOf s lc
  if c.stepReq && decide (levelOf c.regs < 2) then haltCore lc causeStep s else s
/-- The exception `e` of the instruction at PC, whose word is `insn` (04 R106, R108; 07 R176 to R182). A group rolls back and the return PC
is its first load's; outside a group the open shadows are cut. -/
def raiseExc (lc : Nat) (e : Exc) (insn : Word32) (s : State) : State :=
  let c := coreOf s lc
  let epc := match c.group with
    | some g => g.firstPc
    | none => if e.cause = excSvc then c.pc + 4 else c.pc
  let s1 := match c.group with
    | some _ => pmEvents1 lc [plainEvent c 4] (rollback lc s)
    | none => updCore lc cutShadows s
  if e.noInsn && inVectorSlot c then vectorStop lc s1
  else if haltsInstead s lc e then
    haltCore lc (if e.reason < 0x20 then causeBreak else causeWatch) (updCore lc (fun x => { x with pc := epc }) s1)
  else
    let word : Word64 := if e.noInsn then 0 else insn.setWidth 64
    stepEnds lc (pmEvents1 lc [plainEvent c 0x72] (updCore lc (enterCore e false epc c.pc word) s1))
/-- EXC_ISTACK after the `SDC` at PC (17 R430; 07 R178, R182): the instruction after it is the return PC. -/
def raiseIstack (lc : Nat) (source : Nat) (s : State) : State :=
  let c := coreOf s lc
  let e : Exc := { cause := excIstack, addr := BitVec.ofNat 64 source }
  stepEnds lc (pmEvents1 lc [plainEvent c 0x72] (updCore lc (fun x => enterCore e false (c.pc + 4) c.pc 0 (cutShadows x)) s))

/-! ### The end of a step unit (23 R552, R561) -/

/-- One unit has ended at a group boundary: what suppressed matches in it ends, a stepped core halts, a step that an `ERET` armed raises
EXC_DEBUG with the next instruction as return PC; its member is the last instruction of the unit. [DEDUCED, log entry 13] -/
def unitEnd (lc : Nat) (s : State) : State :=
  let c := coreOf s lc
  if c.group.isSome || !c.shadows.isEmpty || (!c.skipOnce && c.eretSkip == 0 && c.eretStep == 0 && !c.stepReq) then s
  else
    let r := if c.eretSkip = 1 then setCsr c.regs 0x610 (putFld (csr c.regs 0x610) 0 0 0) else c.regs
    let s1 := setCore s lc { c with skipOnce := false, eretSkip := c.eretSkip - 1, eretStep := c.eretStep - 1, regs := r }
    if c.stepReq && decide (levelOf c.regs < 2) then haltCore lc causeStep s1
    else if c.eretStep = 1 then
      let e : Exc := { cause := excDebug, reason := 0x30 }
      pmEvents1 lc [plainEvent c 0x72] (updCore lc (enterCore e false c.pc c.lastPc (c.lastWord.setWidth 64)) s1)
    else s1

end Sys2Proof.Machine
end

