-- ==== Sys2Proof/Machine/Group.lean ====
section
/-! DEFINITION. Shadow groups (04 R103 to R109): opening, the values of loads at their write points, the commit with its deferred
accesses, the completion of a load from PCIe MMIO (16 R407); committed predictions (03 R86 to R88). -/

namespace Sys2Proof.Machine

/-! ### Opening a group and joining it -/

/-- A load that executes when no shadow is open begins a group (04 R103). -/
def openGroup (c : Core) : Core :=
  match c.group with
  | some _ => c
  | none => { c with group := some { firstPc := c.pc, members := 0, closed := false, sinceDeferred := none, nextId := 0, held := [], snap := c.regs } }
def updGroup (f : Group → Group) (c : Core) : Core := { c with group := c.group.map f }
/-- What an instruction of the open group holds until the commit, and the page it used. -/
def holdAll (hs : List Held) (pages : List Nat) (c : Core) : Core :=
  updGroup (fun g => { g with held := g.held ++ hs, usedPages := pages ++ g.usedPages }) c
/-- A load's shadow: its write point is after the third instruction that follows it; its own execution counts first. -/
def pushShadow (d : LoadDest) (v : LoadValue) (c : Core) : Core := { c with shadows := c.shadows ++ [{ left := 4, dest := d, value := v }] }
/-- The number of the next deferred access, which also counts three instructions from the first (04 R103). -/
def nextDeferred (c : Core) : Nat × Core :=
  match c.group with
  | some g => (g.nextId, { c with group := some { g with nextId := g.nextId + 1, sinceDeferred := some (g.sinceDeferred.getD 0) } })
  | none => (0, c)

/-- Bytes as the core's own held stores leave them (04 R105). -/
def patchStore (pa : Nat) (bs : List Byte) : Held → List Byte
  | .store a b _ _ => bs.zipIdx.map fun x => if a.pa ≤ pa + x.2 ∧ pa + x.2 < a.pa + b.length then b.getD (pa + x.2 - a.pa) x.1 else x.1
  | _ => bs
def heldOf_ (c : Core) : List Held := match c.group with | some g => g.held | none => []
/-- A load that is not deferred: the value, with the core's own earlier stores. -/
def loadBytes (lc : Nat) (a : Access) (n : Nat) (nt : Bool) (s : State) : List Byte × State :=
  let x := loadNow lc a n nt s
  ((heldOf_ (coreOf s lc)).foldl (patchStore a.pa) x.1, x.2)
/-- Must a load of `n` bytes come after an access its group performs only at the commit (04 R111): an acquire, an `AMO` of the same bytes, or,
for an acquire, a release? -/
def comesAfter (a : Access) (n : Nat) (aq : Bool) : Held → Bool
  | .deq .. => true
  | .amo _ b _ wide _ _ _ q => q || decide (a.pa < b.pa + (if wide then 8 else 4) ∧ b.pa < a.pa + n)
  | .load _ _ _ _ q => q
  | .store _ _ _ rl => rl && aq
  | .letter .. => aq
  | _ => false
def mustWait (c : Core) (a : Access) (n : Nat) (aq : Bool) : Bool := (heldOf_ c).any (comesAfter a n aq)

/-! ### `.NT` stores that fill a line (04 R97) -/

/-- The bytes that `.NT` stores have put into a line: none where another store touches it. -/
def fillLine (line : Nat) (acc : Option (List (Option Byte))) : Held → Option (List (Option Byte))
  | .store a b nt _ =>
    if lineOf a.pa = line then
      if nt ∧ a.mt = 0 then acc.map fun l => l.zipIdx.map fun x => if a.pa % 64 ≤ x.2 ∧ x.2 < a.pa % 64 + b.length then some (b.getD (x.2 - a.pa % 64) 0) else x.1
      else none
    else acc
  | _ => acc
def fullLine (hs : List Held) (line : Nat) : Option (List Byte) :=
  match hs.foldl (fillLine line) (some (List.replicate 64 none)) with
  | some l => if l.all Option.isSome then some (l.map fun x => x.getD 0) else none
  | none => none
/-- Held accesses with each line that `.NT` stores fill written whole, where the first of them stands. -/
def mergeNt (hs : List Held) : List Held :=
  (hs.foldl (fun (acc : List Held × List Nat) h =>
    match h with
    | .store a _ true _ =>
      (match fullLine hs (lineOf a.pa) with
      | some bs =>
        if acc.2.contains (lineOf a.pa) then acc
        else (acc.1 ++ [.store { a with pa := 64 * lineOf a.pa } bs true], lineOf a.pa :: acc.2)
      | none => (acc.1 ++ [h], acc.2))
    | _ => (acc.1 ++ [h], acc.2)) ([], [])).1

/-! ### Performing what a group holds -/

/-- The values deferred accesses have brought: none for a destination that is not written. -/
abbrev Brought := List (Nat × Option LoadValue)

def extendLoad (bs : List Byte) (n : Nat) (signed : Bool) : Word64 :=
  let v := natOfBytes (bs.take n)
  if signed ∧ v.testBit (8 * n - 1) then BitVec.ofNat 64 (2 ^ 64 - 2 ^ (8 * n) + v) else BitVec.ofNat 64 v
/-- A deferred read of `n` bytes: none where it waits for a completion from below a root port (16 R407). A register is read 4 bytes
wide (02 R39); those of another device's control space are not known here. [DEDUCED, log entry 22] -/
def deferredRead (lc : LC) (a : Access) (n : Nat) (s : State) : Option (List Byte) × State :=
  match placeOf a.pa with
  | some p =>
    if p.region = .control then
      if p.slot = slotOf s then
        let r := ctlRead (.core lc) p.off (coreMeter lc.val a s)
        (some (bytesOf r.2.1 4), r.2.2)
      else
        let d := drawBytes 4 (coreMeter lc.val a s)
        (some d.1, d.2)
    else if p.region = .mmio then
      if p.slot = slotOf s then
        let r := pcieLoad p.off n (coreMeter lc.val a s)
        (r.1.map fun v => bytesOfNat v n, r.2)
      else (none, s)
    else
      let r := loadNow lc.val a n false s
      (some r.1, r.2)
  | none => (some (List.replicate n 0xFF), s)
/-- Fill lanes of a vector. -/
def fillLanes (w : Nat) (lanes : List Nat) (x : Nat) (v : Vec) : Vec := vecOf w (lanes.foldl (fun l i => l.set i x) (lanesOf w v))
/-- Put what an access brings into the lanes it fills. -/
def fillParts (w : Nat) (l : LineRead) (x : Nat) (v : Vec) : Vec := l.parts.foldl (fun a p => fillLanes w p.1 (x / 2 ^ (8 * p.2) % 2 ^ w) a) v
/-- The accesses still to make of a deferred vector load, as one read a line (05 R142): the vector so far, and what is left where one of
them waits. -/
def readElems (lc : LC) (w : Nat) (kept : List Held) : List LineRead → Vec → State → Vec × List LineRead × State
  | [], v, s => (v, [], s)
  | e :: r, v, s =>
    let x := deferredRead lc e.acc e.n s
    match x.1 with
    | some bs => readElems lc w kept r (fillParts w e (natOfBytes (kept.foldl (patchStore e.acc.pa) bs)) v) x.2
    | none => (v, e :: r, x.2)
/-- A status of another device's pipeline: which of them it is, nothing here decides. [DESIGN CHOICE, log entry 23] -/
def peerStatus (l : List Nat) (s : State) : Nat × State :=
  let d := drawWord s
  (l.getD (d.1.toNat % l.length) stOk, d.2)
/-- A `DEQ` or `DEQT` at the owning pipeline (13 R330, R331); what another device's pipeline answers is not known here. -/
def deqNow (lc : Nat) (slot q : Nat) (isTry : Bool) (s : State) : Nat × Option Letter × State :=
  if slot = slotOf s then consume lc q isTry s
  else
    let r := peerStatus [stOk, stTimeout, stNoreg, stFenced, stLocked, stNotsupp, stBusy] s
    if r.1 = stOk then
      let v := drawBytes 64 r.2
      let m := drawWord v.2
      (stOk, some { data := vecOfBytes v.1, postmark := m.1 }, m.2)
    else (r.1, none, r.2)
/-- Perform one deferred access, past the stores `kept` so far: what it brings, or what of it still waits. -/
def heldOne (lc : LC) (kept : List Held) (h : Held) (s : State) : Option Brought × Held × State :=
  match h with
  | .load id a n signed _ =>
    let x := deferredRead lc a n s
    (x.1.map fun bs => [(id, some (.word (extendLoad (kept.foldl (patchStore a.pa) bs) n signed)))], h, x.2)
  | .vload id w es acc =>
    let x := readElems lc w kept es acc s
    (if x.2.1.isEmpty then some [(id, some (.vector x.1))] else none, .vload id w x.2.1 x.1, x.2.2)
  | .amo id a op wide far gs gt _ =>
    let x := amoNow lc.val a op wide far gs gt s
    (some [(id, some (.word x.1))], h, x.2)
  | .deq id idV slot q isTry =>
    let x := deqNow lc.val slot q isTry s
    match x.2.1 with
    | some l =>
      let s1 := updCore lc.val (fun c => updGroup (fun g => { g with tally := g.tally ++ [plainEvent c 0x51] }) c) x.2.2
      (some [(id, some (.word (l.postmark &&& 0x7FFFFFFFFFFFFFFF))), (idV, some (.vector l.data))], h, s1)
    | none => (some [(id, some (.word (BitVec.ofNat 64 (2 ^ 63 + x.1)))), (idV, none)], h, x.2.2)
  | .store .. | .letter .. | .ad _ => (some [], h, s)
/-- Release a store or a letter (04 R105). -/
def releaseOne (lc : LC) (s : State) : Held → State
  | .store a bs nt _ => storeNow lc.val a bs nt s
  | .letter dest tc l => releaseLetter lc.val dest tc l s
  | _ => s
def releaseAll (lc : LC) (hs : List Held) (s : State) : State := hs.foldl (releaseOne lc) s
def isOutgoing : Held → Bool
  | .store .. | .letter .. => true
  | _ => false
/-- Must a store or letter be out before a deferred access (04 R111): a release before an acquire, MT 2 before MT 2? -/
def comesBefore (h : Held) : Held → Bool
  | .store a _ _ rl => (match h with
    | .load _ b _ _ aq => (a.mt == 2 && b.mt == 2) || (rl && aq)
    | .vload _ _ es _ => a.mt == 2 && es.any fun e => e.acc.mt == 2
    | .deq .. => rl
    | _ => false)
  | .letter .. => (match h with
    | .load _ _ _ _ aq => aq
    | .deq .. => true
    | _ => false)
  | _ => false
/-- What a pass over the held accesses leaves: what deferred accesses brought, what is still held, whether one of them waits. -/
structure Passed where
  brought : Brought
  left : List Held
  waits : Bool
  st : State
/-- Perform the deferred accesses in program order, up to one that waits; stores and letters are kept for the commit (04 R105), but for those
that must be out before (R111). [DEDUCED, log entry 10] -/
def heldPass (lc : LC) (kept : List Held) : List Held → State → Passed
  | [], s => { brought := [], left := kept, waits := false, st := s }
  | h :: r, s =>
    if isOutgoing h then heldPass lc (kept ++ [h]) r s
    else
      let out := kept.any (comesBefore h)
      let k := if out then [] else kept
      let x := heldOne lc k h (if out then releaseAll lc kept s else s)
      match x.1 with
      | some b => let y := heldPass lc k r x.2.2; { y with brought := b ++ y.brought }
      | none => { brought := [], left := k ++ x.2.1 :: r, waits := true, st := x.2.2 }
def adsOf (hs : List Held) : List AdUpdate := hs.filterMap fun h => match h with | .ad u => some u | _ => none
def notAd : Held → Bool
  | .ad _ => false
  | _ => true
/-- A shadow with the value its deferred access brought. [DEDUCED, log entry 11] -/
def resolve (m : Brought) (sh : Shadow) : Option Shadow :=
  match sh.value with
  | .deferred id => (match m.find? fun e => e.1 == id with
    | some (_, some v) => some { sh with value := v }
    | some (_, none) => none
    | none => some sh)
  | _ => some sh

/-! ### Predictions that commit (03 R86, R87) -/

/-- Push a committed call: the oldest of 16 entries is overwritten. [DEDUCED, log entry 15] -/
def pushRs (e : RsEntry) (l : List RsEntry) : List RsEntry := (e :: l).take 16
def rsOp (l : List RsEntry) : RsOp → List RsEntry
  | .push e => pushRs { e with taken := none } l
  | .pop n => l.filter fun e => e.seq != n
/-- Context tag and key of predictions (03 R88). -/
def brTag (r : Regs) : BitVec 16 := if levelOf r = 2 then 0 else (csr r 0x480).setWidth 16
def brKey (r : Regs) : Word64 := if levelOf r = 2 then csr r 0x880 else csr r 0x481
def keyHash (k : Word64) : BitVec 46 := k.setWidth 46 ^^^ (k >>> 46).setWidth 46
def ittDef (_ : Nat) : Option IttEntry := none
def ittSet (r : Regs) (pc : Word64) : Nat := fld pc 9 2 ^^^ fld (brTag r) 7 0
def ittHit (r : Regs) (pc : Word64) (e : Option IttEntry) : Bool :=
  match e with
  | some x => decide (x.level.toNat = levelOf r) && x.tag == brTag r && decide (x.pcPart.toNat = fld pc 21 10)
  | none => false
/-- The way of a set that hits. -/
def ittWay (c : Core) (pc : Word64) : Option Nat :=
  (List.range 4).find? fun w => ittHit c.regs pc (smGet ittDef c.itt (4 * ittSet c.regs pc + w))
/-- The predicted target of a hit. -/
def ittTarget (c : Core) (pc : Word64) : Option Word64 :=
  (ittWay c pc).bind fun w => (smGet ittDef c.itt (4 * ittSet c.regs pc + w)).map fun x =>
    let t : BitVec 46 := x.target ^^^ keyHash (brKey c.regs)
    (t.signExtend 62).setWidth 64 <<< 2
/-- Write the actual target of a committed branch; a miss takes the lowest free way, else the one the core's LFSR names (09 R229).
[DEDUCED, log entry 15] -/
def ittWrite (lc : Nat) (pc target : Word64) (s : State) : State :=
  let c := coreOf s lc
  let e : IttEntry := { level := BitVec.ofNat 2 (levelOf c.regs), tag := brTag c.regs, pcPart := BitVec.ofNat 12 (fld pc 21 10),
                        target := BitVec.ofNat 46 (fld target 47 2) ^^^ keyHash (brKey c.regs) }
  let x : Nat × State := match ittWay c pc with
    | some w => (w, s)
    | none =>
      match (List.range 4).find? fun w => (smGet ittDef c.itt (4 * ittSet c.regs pc + w)).isNone with
      | some w => (w, s)
      | none => let d := drawLfsr (lfsrCore (pcOf s lc)) s; (lfsrPick d.1 4, d.2)
  setCore x.2 lc { c with itt := smPut ittDef c.itt (4 * ittSet c.regs pc + x.1) (some e) }

/-! ### The commit -/

/-- The group has committed: its predictions, its counts; a group that closed early is cut here. [DEDUCED, log entry 10] -/
def finishCommit (lc : Nat) (g : Group) (s : State) : State :=
  let s1 := updCore lc (fun c =>
    let c1 := { c with group := none, mmioWait := false, retryRun := 0, overlay := [], unpushed := [], missed := [], retStack := g.rsOps.foldl rsOp c.retStack }
    if g.closed then cutShadows c1 else c1) s
  let s2 := g.itts.foldl (fun a e => ittWrite lc e.1 e.2 a) s1
  unitEnd lc (pmEvents1 lc (g.tally ++ [{ event := 3, pc := g.firstPc, flags := 2, level := levelOf (coreOf s2 lc).regs }]) s2)
/-- Perform what is held: once every deferred access is performed the group commits and its stores and letters are released in program
order (04 R105). [DEDUCED, log entry 10] -/
def performHeld (lc : LC) (hs : List Held) (s : State) : Bool × State :=
  let x := heldPass lc [] hs s
  let s1 := updCore lc.val (fun c => { c with shadows := c.shadows.filterMap (resolve x.brought) }) x.st
  if x.waits then (false, updCore lc.val (fun c => updGroup (fun g => { g with held := x.left }) { c with mmioWait := true }) s1)
  else
    let s2 := releaseAll lc x.left s1
    match (coreOf s2 lc.val).group with
    | none => (true, s2)
    | some g => (true, finishCommit lc.val g s2)
/-- The commit of the core's group (04 R105; 08 R208): false where it could not commit. A swap of A or D that fails has the group
re-executed from its first load, with no record. [DEDUCED, log entry 10] -/
def commitGroup (lc : LC) (s : State) : Bool × State :=
  match (coreOf s lc.val).group with
  | none => (true, s)
  | some g =>
    let x := setAds lc.val (adsOf g.held) s
    if x.1 then performHeld lc (mergeNt (g.held.filter notAd)) x.2 else (false, rollback lc.val x.2)

/-! ### Loads from PCIe MMIO that wait (16 R407) -/

/-- The first access a parked group waits for, answered with `v`: the value it brings, and what is still held. -/
def giveHeld (v : Nat) : List Held → Brought × List Held
  | .load id _ n signed _ :: r => ([(id, some (.word (extendLoad (bytesOfNat v n) n signed)))], r)
  | .vload id w (e :: es) acc :: r =>
    let acc1 := fillParts w e v acc
    if es.isEmpty then ([(id, some (.vector acc1))], r) else ([], .vload id w es acc1 :: r)
  | h :: r => let x := giveHeld v r; (x.1, h :: x.2)
  | [] => ([], [])
/-- A completion: the commit goes on. -/
def finishMmio (lc : LC) (v : Nat) (s : State) : State :=
  let c := coreOf s lc.val
  match c.mmioWait, c.group with
  | true, some g =>
    let x := giveHeld v g.held
    let s1 := setCore s lc.val { c with mmioWait := false, shadows := c.shadows.filterMap (resolve x.1), group := some { g with held := x.2 } }
    (performHeld lc x.2 s1).2
  | _, _ => s
/-- The access whose completion a core waits for. -/
def waitsFor : Held → Option Access
  | .load _ a _ _ _ => some a
  | .vload _ _ (e :: _) _ => some e.acc
  | _ => none
def mmioAccess (c : Core) : Option Access :=
  match c.mmioWait, c.group with
  | true, some g => g.held.findSome? waitsFor
  | _, _ => none
def allOnes512 : Nat := 2 ^ 512 - 1
/-- Loads whose completion can no longer come answer all ones (16 R407, R414): those whose way below is not live. -/
def lostLoad (s : State) (lc : LC) : Bool :=
  match mmioAccess (coreOf s lc.val) with
  | some a => (match placeOf a.pa with
    | some p => decide (p.slot = slotOf s) && (match pcieDest s p.off with | .below j => !subLive s j | _ => true)
    | none => true)
  | none => false
/-- [DEDUCED, log entry 26] -/
def finishLost (s : State) : State :=
  if s.cores.any fun e => e.2.mmioWait then (List.finRange 512).foldl (fun a lc => if lostLoad a lc then finishMmio lc allOnes512 a else a) s else s

end Sys2Proof.Machine
end

