-- ==== Sys2Proof/Machine/Issue.lean ====
section
/-! DEFINITION. One instruction of a core (03 R61; 04 R103 to R108; 07 R179, R180): whether it may issue now, its fetch, what it does, its
place in a shadow group; an interrupt taken at a group boundary (07 R173, R178). -/

namespace Sys2Proof.Machine

/-! ### May the core issue (07 R180)? -/

/-- A core that runs: bound, issuing, not in a relocation's pause, not waiting in a wait instruction or for a completion.
[DEDUCED, log entry 9] -/
def coreRuns (s : State) (lc : Nat) : Bool :=
  let c := coreOf s lc
  bound s lc && c.standing == .issuing && !c.paused && c.wait.isNone && !c.mmioWait && softwareRuns s
def atBoundary (c : Core) : Bool := c.group.isNone && c.shadows.isEmpty
/-- `DBG_LCn_CTL.STEPINT` (23 R552). [DEDUCED, log entry 9] -/
def stepInt (s : State) (lc : Nat) : Bool := (reg s (dbgReg (0x100 + 16 * lc))).getLsbD 1
/-- A selected interrupt that the core takes: always enabled at U, at S while IE is 1, never at K (07 R173). -/
def takesIntr (s : State) (lc : Nat) : Bool :=
  let c := coreOf s lc
  (decide (levelOf c.regs = 0) || (decide (levelOf c.regs = 1) && (csr c.regs 0x400).getLsbD 0)) && (!c.stepReq || stepInt s lc) && intrFor s lc
/-- Something due at this group boundary comes before the next instruction (07 R180). [DEDUCED, log entry 9] -/
def boundaryDue (s : State) (lc : Nat) : Bool :=
  let c := coreOf s lc
  atBoundary c && (c.drainReq || (c.haltReq && decide (levelOf c.regs < 2)) || takesIntr s lc)
/-- The core as it stands before its next instruction: a closed group commits, and before a serialising instruction an open one too
(04 R103, R108). Answers whether the instruction may issue. [DEDUCED, log entry 9] -/
def ready (lc : LC) (ser : Bool) (s : State) : Bool × State :=
  if !coreRuns s lc.val then (false, s)
  else
    match (coreOf s lc.val).group with
    | none =>
      let s1 := if ser || (coreOf s lc.val).shadows.isEmpty then s else updCore lc.val cutShadows s
      (!boundaryDue s1 lc.val, s1)
    | some g =>
      if g.closed || ser then
        let x := commitGroup lc s
        (x.1 && coreRuns x.2 lc.val && !boundaryDue x.2 lc.val, x.2)
      else (true, s)

/-! ### The fetch (07 R179, R182; 23 R559) -/

/-- What a fetch gives: the word, with the A updates it owes and its page, or an exception. -/
inductive Fetched
  | word (ads : List AdUpdate) (page : Nat)
  | exc (e : Exc)
deriving DecidableEq, Repr

/-- The fetch of the instruction at PC: a breakpoint, the translation, poison; else the word is obtained through the L1I, on the core's
meter where it leaves its caches (08 R217). What A it owes is set at the commit (08 R208). [DESIGN CHOICE, log entry 8] -/
def fetch (lc : Nat) (s : State) : Fetched × State :=
  let c := coreOf s lc
  match breakAt c with
  | some i => (.exc { cause := excDebug, reason := 0x10 + i }, s)
  | none =>
    let x := translate lc wantFetch c.pc s
    match x.1 with
    | .error e => (.exc e, x.2)
    | .ok a =>
      if !backed x.2 a.acc.pa then (.exc { cause := excPoison, addr := c.pc, reason := 2, noInsn := true }, x.2)
      else if readsPoison x.2 (lineOf a.acc.pa) then (.exc { cause := excPoison, addr := c.pc, reason := 1, noInsn := true }, x.2)
      else (.word a.ads a.page, coherentRead lc (lineOf a.acc.pa) a.acc.tc true false (coreMeter lc a.acc x.2))

/-! ### What an instruction does -/

/-- What an instruction's own definition answers: done, with the next PC and the events it counts; an exception; or that it waits at its
place, nothing done; `micro` is a micro-step of a long instruction that is not its last (06 R152); `istack` is an `SDC` that is done and after which
EXC_ISTACK is raised (17 R430). -/
inductive Eff
  | ok (s : State) (pc : Word64) (evs : List PmEvent)
  | micro (s : State) (evs : List PmEvent)
  | istack (s : State) (source : Nat)
  | exc (e : Exc) (s : State)
  | hold (s : State)

def evOne (c : Core) (n : Nat) : PmEvent := plainEvent c n
/-- One more instruction executed: shadows it was the last of are over (04 R101). -/
def tick (c : Core) : Core :=
  let shs := c.shadows.map fun x => { x with left := x.left - 1 }
  let due (x : Shadow) : Bool := x.left == 0 && (match x.value with | .deferred _ => false | _ => true)
  { c with regs := (shs.filter due).foldl applyShadow c.regs, shadows := shs.filter fun x => !due x }
/-- The group after one more member: it closes with its last shadow, at 16 members, or three instructions after its first deferred
access (04 R103). -/
def joinGroup (g : Group) (evs : List PmEvent) (shadows : List Shadow) : Group :=
  let since := g.sinceDeferred.map (· + 1)
  let full := decide (g.members = 15)
  { g with
    members := g.members + 1
    sinceDeferred := since
    closed := shadows.isEmpty || full || since == some 4
    tally := g.tally ++ evs ++ (if full && !shadows.isEmpty then [{ event := 5, pc := g.firstPc, flags := 2, level := levelOf g.snap }] else []) }
/-- An instruction has executed: the PC moves on; a member joins its group, anything else ends a unit, the open shadows cut. -/
def retire (lc : Nat) (pc : Word64) (evs : List PmEvent) (s : State) : State :=
  let c := coreOf s lc
  match c.group with
  | some g =>
    let c1 := tick { c with pc := pc }
    setCore s lc { c1 with group := some (joinGroup g evs c1.shadows) }
  | none => unitEnd lc (pmEvents1 lc evs (setCore s lc { cutShadows c with pc := pc }))
/-- Something ends the run of a long instruction's micro-steps here, or a step unit ends with one (06 R159, R163). -/
def microEnds (s : State) (lc : Nat) : Bool :=
  let c := coreOf s lc
  c.drainReq || (c.haltReq && decide (levelOf c.regs < 2)) || takesIntr s lc || c.stepReq || c.skipOnce || c.eretSkip != 0 || c.eretStep != 0
/-- A micro-step that is not the last has ended, at a group boundary: shadows stay open for the instruction (04 R108) unless something is
taken here. [DEDUCED, log entry 33] -/
def retireMicro (lc : Nat) (evs : List PmEvent) (s : State) : State :=
  let s1 := pmEvents1 lc evs s
  if (coreOf s1 lc).shadows.isEmpty || microEnds s1 lc then unitEnd lc (updCore lc cutShadows s1) else s1
/-- Give the A updates of a fetch and its page to the open group, which owes them at its commit; outside a group set them now, or answer
that a swap failed and the instruction is to be fetched afresh (08 R208, R222). -/
def oweFetch (lc : Nat) (ads : List AdUpdate) (page : Nat) (s : State) : Bool × State :=
  match (coreOf s lc).group with
  | some _ => (true, updCore lc (holdAll (ads.map .ad) [page]) s)
  | none => setAds lc ads s
/-- An instruction issues: a resumed core shows HALTED no longer (23 R550); in a step that an `ERET` armed its PC and word are noted (07 R182). -/
def noteIssue (lc : Nat) (insn : Word32) (s : State) : State :=
  let c := coreOf s lc
  if c.resuming || c.eretStep != 0 then updCore lc (fun x => { x with resuming := false, lastPc := x.pc, lastWord := insn }) s else s
/-- One instruction of core `lc`, whose word is `insn`; `ser` where it is serialising. It has no effect where it cannot issue now.
[DESIGN CHOICE, log entry 8] -/
def runInsn (lc : LC) (ser : Bool) (insn : Word32) (body : State → Eff) (s : State) : State :=
  let r := ready lc ser s
  if !r.1 then r.2
  else
    let f := fetch lc.val (noteIssue lc.val insn r.2)
    match f.1 with
    | .exc e => raiseExc lc.val e insn f.2
    | .word ads page =>
      let c := coreOf f.2 lc.val
      let owed (s2 : State) (k : State → State) : State :=
        let y := oweFetch lc.val ads page s2
        if y.1 then k y.2 else (setAds lc.val ads f.2).2
      match body f.2 with
      | .ok s2 pc evs => owed s2 (retire lc.val pc (evOne c 1 :: ((if ser then [evOne c 0x70] else []) ++ evs)))
      | .micro s2 evs => owed s2 (retireMicro lc.val evs)
      | .istack s2 n => owed s2 fun a => raiseIstack lc.val n (pmEvents1 lc.val [evOne c 1, evOne c 0x70] a)
      | .exc e s2 => raiseExc lc.val e insn s2
      | .hold s2 => if (coreOf s2 lc.val).wait.isSome then (setAds lc.val ads s2).2 else s2

/-- The next instruction in order. -/
def nextPc (s : State) (lc : LC) : Word64 := (coreOf s lc.val).pc + 4
def illegal (s : State) : Eff := .exc { cause := excIllegal } s
/-- Done: registers changed, the PC at the next instruction. -/
def doneRegs (lc : LC) (f : Regs → Regs) (s : State) : Eff := .ok (updRegs lc.val f s) (nextPc s lc) []
/-- Write a status into gd and Z (02 R37). [DESIGN CHOICE, log entry 24] -/
def writeStatus (rd : GReg) (st : Nat) (r : Regs) : Regs :=
  let r1 := writeG r rd (BitVec.ofNat 64 st)
  { r1 with flags := { r1.flags with z := decide (st = stOk) } }

/-! ### Taking an interrupt -/

/-- A wait ends with a result: the latched bits it reports are cleared in the same step (07 R190), the shadows left open are cut (04 R108);
the island is ACTIVE (R195). -/
def endWait (lc : Nat) (rd : GReg) (res : Nat) (s : State) : State :=
  let c0 := coreOf s lc
  let s1 := updCore lc (fun c =>
    let r := setCsr c.regs 0x410 (csr c.regs 0x410 &&& ~~~(BitVec.ofNat 64 res &&& 0xFF01))
    cutShadows { c with regs := writeG r rd (BitVec.ofNat 64 res), pc := c.pc + 4, wait := none }) s
  unitEnd lc (pmEvents1 lc [evOne c0 1, evOne c0 0x70] (setCoreIsland (pcOf s lc) .active s1))
/-- A device in a low-power mode leaves it first (22 R533): the wake source is a core's. -/
def wakeDevice (s : State) : State := if s.power.pstate = 0 then s else wake wakeCore s
/-- Interrupt entry at a group boundary (07 R173, R176, R178, R180). -/
def interruptEntry (lc : LC) (s : State) : State :=
  let c0 := coreOf s lc.val
  if !(bound s lc.val && c0.standing == .issuing && !c0.paused && !c0.mmioWait && softwareRuns s) then s
  else
    let s0 := match c0.group with
      | some g => if g.closed then (commitGroup lc s).2 else s
      | none => s
    let c := coreOf s0 lc.val
    if !atBoundary c || c.standing != .issuing || c.drainReq || c.haltReq || !takesIntr s0 lc.val then s0
    else
      let s1 := match c.wait with
        | some w =>
          let s2 := wakeDevice s0
          if s2.power.pstate = 0 then endWait lc.val w.rd (waitResult s2 lc.val w.kind) s2 else s2
        | none => s0
      let c1 := coreOf s1 lc.val
      if c1.wait.isSome || c1.standing != .issuing || !takesIntr s1 lc.val then s1
      else
        let s2 := updCore lc.val (enterCore { cause := 0 } true c1.pc 0 0) s1
        stepEnds lc.val (pmEvents1 lc.val [plainEvent c1 0x71] s2)

def execInterruptEntry (lc : LC) (s : State) : Out := .next (interruptEntry lc s)
/-- A closed group commits (04 R105). -/
def execShadowGroupCommit (lc : LC) (s : State) : Out :=
  .next (match (coreOf s lc.val).group with
    | some g => if g.closed && coreRuns s lc.val then (commitGroup lc s).2 else s
    | none => s)

end Sys2Proof.Machine
end

