-- ==== Sys2Proof/Machine/CoreInt.lean ====
section
/-! DEFINITION. Integer and branch instructions (03 R71 to R92): opcodes 0x01 to 0x05, 0x08 to 0x10, 0x30 to 0x32. -/

namespace Sys2Proof.Machine

/-- The flag-setting form takes the flags; the other leaves them (03 R71). -/
def setFlags (f : Bool) (fl : Flags) (r : Regs) : Regs := if f then { r with flags := fl } else r
def regsOf (s : State) (lc : LC) : Regs := (coreOf s lc.val).regs

/-! ### Register forms (R72, R73) -/

/-- A register-form instruction; a unary one has no rb. -/
def intReg (op : IntOp) (major fn : Nat) (unary : Bool) (lc : LC) (f : Bool) (rd ra rb : GReg) (s : State) : Out :=
  .next (runInsn lc false (encA major rd ra rb f fn) (fun a =>
    if unary && rb != 0 then illegal a
    else
      let r := regsOf a lc
      let x := intOp op (readG r ra) (readG r rb) r.flags.c
      doneRegs lc (fun q => setFlags f x.2 (writeG q rd x.1)) a) s)
def execAdd (lc : LC) (f : Bool) (rd ra rb : GReg) (s : State) : Out := intReg .add 1 0x0 false lc f rd ra rb s
def execAdc (lc : LC) (f : Bool) (rd ra rb : GReg) (s : State) : Out := intReg .adc 1 0x1 false lc f rd ra rb s
def execSub (lc : LC) (f : Bool) (rd ra rb : GReg) (s : State) : Out := intReg .sub 1 0x2 false lc f rd ra rb s
def execSbc (lc : LC) (f : Bool) (rd ra rb : GReg) (s : State) : Out := intReg .sbc 1 0x3 false lc f rd ra rb s
def execAnd (lc : LC) (f : Bool) (rd ra rb : GReg) (s : State) : Out := intReg .and 1 0x8 false lc f rd ra rb s
def execAndn (lc : LC) (f : Bool) (rd ra rb : GReg) (s : State) : Out := intReg .andn 1 0x9 false lc f rd ra rb s
def execOr (lc : LC) (f : Bool) (rd ra rb : GReg) (s : State) : Out := intReg .or 1 0xa false lc f rd ra rb s
def execOrn (lc : LC) (f : Bool) (rd ra rb : GReg) (s : State) : Out := intReg .orn 1 0xb false lc f rd ra rb s
def execXor (lc : LC) (f : Bool) (rd ra rb : GReg) (s : State) : Out := intReg .xor 1 0xc false lc f rd ra rb s
def execXnor (lc : LC) (f : Bool) (rd ra rb : GReg) (s : State) : Out := intReg .xnor 1 0xd false lc f rd ra rb s
def execMul (lc : LC) (f : Bool) (rd ra rb : GReg) (s : State) : Out := intReg .mul 2 0x0 false lc f rd ra rb s
def execMulh (lc : LC) (f : Bool) (rd ra rb : GReg) (s : State) : Out := intReg .mulh 2 0x1 false lc f rd ra rb s
def execMulhu (lc : LC) (f : Bool) (rd ra rb : GReg) (s : State) : Out := intReg .mulhu 2 0x2 false lc f rd ra rb s
def execDiv (lc : LC) (f : Bool) (rd ra rb : GReg) (s : State) : Out := intReg .div 2 0x4 false lc f rd ra rb s
def execDivu (lc : LC) (f : Bool) (rd ra rb : GReg) (s : State) : Out := intReg .divu 2 0x5 false lc f rd ra rb s
def execRem (lc : LC) (f : Bool) (rd ra rb : GReg) (s : State) : Out := intReg .rem 2 0x6 false lc f rd ra rb s
def execRemu (lc : LC) (f : Bool) (rd ra rb : GReg) (s : State) : Out := intReg .remu 2 0x7 false lc f rd ra rb s
def execSll (lc : LC) (f : Bool) (rd ra rb : GReg) (s : State) : Out := intReg .sll 3 0x0 false lc f rd ra rb s
def execSrl (lc : LC) (f : Bool) (rd ra rb : GReg) (s : State) : Out := intReg .srl 3 0x1 false lc f rd ra rb s
def execSra (lc : LC) (f : Bool) (rd ra rb : GReg) (s : State) : Out := intReg .sra 3 0x2 false lc f rd ra rb s
def execRor (lc : LC) (f : Bool) (rd ra rb : GReg) (s : State) : Out := intReg .ror 3 0x3 false lc f rd ra rb s
def execClz (lc : LC) (f : Bool) (rd ra rb : GReg) (s : State) : Out := intReg .clz 3 0x10 true lc f rd ra rb s
def execCtz (lc : LC) (f : Bool) (rd ra rb : GReg) (s : State) : Out := intReg .ctz 3 0x11 true lc f rd ra rb s
def execPopc (lc : LC) (f : Bool) (rd ra rb : GReg) (s : State) : Out := intReg .popc 3 0x12 true lc f rd ra rb s
def execBswap (lc : LC) (f : Bool) (rd ra rb : GReg) (s : State) : Out := intReg .bswap 3 0x13 true lc f rd ra rb s
def execBrev (lc : LC) (f : Bool) (rd ra rb : GReg) (s : State) : Out := intReg .brev 3 0x14 true lc f rd ra rb s
def execSextb (lc : LC) (f : Bool) (rd ra rb : GReg) (s : State) : Out := intReg .sextb 3 0x20 true lc f rd ra rb s
def execSexth (lc : LC) (f : Bool) (rd ra rb : GReg) (s : State) : Out := intReg .sexth 3 0x21 true lc f rd ra rb s
def execSextw (lc : LC) (f : Bool) (rd ra rb : GReg) (s : State) : Out := intReg .sextw 3 0x22 true lc f rd ra rb s
def execZextb (lc : LC) (f : Bool) (rd ra rb : GReg) (s : State) : Out := intReg .zextb 3 0x24 true lc f rd ra rb s
def execZexth (lc : LC) (f : Bool) (rd ra rb : GReg) (s : State) : Out := intReg .zexth 3 0x25 true lc f rd ra rb s
def execZextw (lc : LC) (f : Bool) (rd ra rb : GReg) (s : State) : Out := intReg .zextw 3 0x26 true lc f rd ra rb s

/-! ### Immediate forms (R74, R75) -/

def intImm (op : IntOp) (major : Nat) (lc : LC) (f x : Bool) (rd ra : GReg) (imm : BitVec 14) (s : State) : Out :=
  .next (runInsn lc false (encI major rd ra f x imm) (fun a =>
    let r := regsOf a lc
    let y := intOp op (readG r ra) (immExt x imm) r.flags.c
    doneRegs lc (fun q => setFlags f y.2 (writeG q rd y.1)) a) s)
def execAddi (lc : LC) (f x : Bool) (rd ra : GReg) (imm : BitVec 14) (s : State) : Out := intImm .add 8 lc f x rd ra imm s
def execSubi (lc : LC) (f x : Bool) (rd ra : GReg) (imm : BitVec 14) (s : State) : Out := intImm .sub 9 lc f x rd ra imm s
def execAndi (lc : LC) (f x : Bool) (rd ra : GReg) (imm : BitVec 14) (s : State) : Out := intImm .and 10 lc f x rd ra imm s
def execOri (lc : LC) (f x : Bool) (rd ra : GReg) (imm : BitVec 14) (s : State) : Out := intImm .or 11 lc f x rd ra imm s
def execXori (lc : LC) (f x : Bool) (rd ra : GReg) (imm : BitVec 14) (s : State) : Out := intImm .xor 12 lc f x rd ra imm s
/-- A shift by an immediate: x and imm14[11:6] are zero (R75). -/
def shiftImm (op : IntOp) (sel : Nat) (lc : LC) (f x : Bool) (rd ra : GReg) (hi n : BitVec 6) (s : State) : Out :=
  .next (runInsn lc false (encI 13 rd ra f x (BitVec.ofNat 14 (sel * 4096 + hi.toNat * 64 + n.toNat))) (fun a =>
    if x || hi != 0 then illegal a
    else
      let r := regsOf a lc
      let y := intOp op (readG r ra) (n.setWidth 64) r.flags.c
      doneRegs lc (fun q => setFlags f y.2 (writeG q rd y.1)) a) s)
def execSlli (lc : LC) (f x : Bool) (rd ra : GReg) (hi n : BitVec 6) (s : State) : Out := shiftImm .sll 0 lc f x rd ra hi n s
def execSrli (lc : LC) (f x : Bool) (rd ra : GReg) (hi n : BitVec 6) (s : State) : Out := shiftImm .srl 1 lc f x rd ra hi n s
def execSrai (lc : LC) (f x : Bool) (rd ra : GReg) (hi n : BitVec 6) (s : State) : Out := shiftImm .sra 2 lc f x rd ra hi n s
def execRori (lc : LC) (f x : Bool) (rd ra : GReg) (hi n : BitVec 6) (s : State) : Out := shiftImm .ror 3 lc f x rd ra hi n s

/-! ### Constants, addresses, selection (R76, R77) -/

def execSetq (lc : LC) (rd : GReg) (q : BitVec 5) (imm : BitVec 16) (s : State) : Out :=
  .next (runInsn lc false (encQ 14 rd q imm) (fun a =>
    if 4 ≤ q.toNat then illegal a else doneRegs lc (fun r => writeG r rd (setQuarter imm q.toNat)) a) s)
def execPutq (lc : LC) (rd : GReg) (q : BitVec 5) (imm : BitVec 16) (s : State) : Out :=
  .next (runInsn lc false (encQ 15 rd q imm) (fun a =>
    if 4 ≤ q.toNat then illegal a else doneRegs lc (fun r => writeG r rd (putQuarter (readG r rd) imm q.toNat)) a) s)
def execAdr (lc : LC) (rd : GReg) (off : BitVec 21) (s : State) : Out :=
  .next (runInsn lc false (encAdr rd off) (fun a => doneRegs lc (fun r => writeG r rd ((coreOf a lc.val).pc + wordOffset off)) a) s)
/-- `SEL`: f and fn[9:4] are zero, cond 15 is reserved. -/
def execSel (lc : LC) (f : Bool) (rd ra rb : GReg) (hi : BitVec 6) (cond : BitVec 4) (s : State) : Out :=
  .next (runInsn lc false (encA 4 rd ra rb f (hi.toNat * 16 + cond.toNat)) (fun a =>
    match condHolds cond (regsOf a lc).flags with
    | some b => if f || hi != 0 then illegal a else doneRegs lc (fun r => writeG r rd (if b then readG r ra else readG r rb)) a
    | none => illegal a) s)

/-! ### Predictions (R86 to R88) -/

/-- Are the return stack and the indirect target table in use? Always at K. -/
def rsUsed (r : Regs) : Bool := levelOf r == 2 || (csr r 0x482).getLsbD 0
def itUsed (r : Regs) : Bool := levelOf r == 2 || (csr r 0x482).getLsbD 1
/-- Number a predicted branch. -/
def numberBranch (c : Core) : Core := { c with predSeq := c.predSeq + 1 }
/-- Note a branch of an open group that was predicted wrongly. -/
def noteMiss (miss : Bool) (c : Core) : Core := if miss && c.group.isSome then { c with missed := c.predSeq :: c.missed } else c
/-- A call is predicted and, outside a group, commits: its return address is pushed. Within a group the overlay holds at most eight; a call
beyond is not pushed, and its return takes nothing from the overlay. -/
def predictCall (ret : Word64) (c : Core) : Core :=
  if rsUsed c.regs then
    let e : RsEntry := { level := BitVec.ofNat 2 (levelOf c.regs), tag := brTag c.regs, addr := ret, seq := c.predSeq }
    match c.group with
    | some g =>
      let c1 : Core := { c with group := some { g with rsOps := g.rsOps ++ [.push e] } }
      if c.overlay.length < 8 then { c1 with overlay := e :: c.overlay } else { c1 with unpushed := (e.seq, none) :: c.unpushed }
    | none => { c with retStack := pushRs e c.retStack }
  else c
/-- The newest entry that no earlier uncommitted return has taken: of the overlay, then of the return stack. -/
def retEntry (c : Core) : Option RsEntry :=
  (if c.unpushed.any fun e => e.2.isNone then c.retStack else c.overlay ++ c.retStack).find? fun e => e.taken.isNone
/-- The newest call predicted without a push that no return has answered is answered by the return `n`. -/
def answerCall (n : Nat) : List (Nat × Option Nat) → List (Nat × Option Nat)
  | [] => []
  | e :: r => if e.2.isNone then (e.1, some n) :: r else e :: answerCall n r
def markTaken (n by_ : Nat) (e : RsEntry) : RsEntry := if e.seq = n then { e with taken := some by_ } else e
/-- A return takes its entry; the target it gives is a prediction where level and tag are the current ones. -/
def predictRet (c0 : Core) : Option Word64 × Core :=
  let c := { c0 with unpushed := if rsUsed c0.regs then answerCall c0.predSeq c0.unpushed else c0.unpushed }
  if rsUsed c.regs then
    match retEntry c0 with
    | some e =>
      let p := if e.level.toNat = levelOf c.regs ∧ e.tag = brTag c.regs then some e.addr else none
      (match c.group with
      | some g => (p, { c with overlay := c.overlay.map (markTaken e.seq c.predSeq), retStack := c.retStack.map (markTaken e.seq c.predSeq),
                               group := some { g with rsOps := g.rsOps ++ [.pop e.seq] } })
      | none => (p, { c with retStack := c.retStack.filter fun x => x.seq != e.seq }))
    | none => (none, c)
  else (none, c)
/-- The target table's prediction. -/
def predictItt (c : Core) : Option Word64 := if itUsed c.regs then ittTarget c c.pc else none
/-- The actual target is written to the table, at the commit. -/
def learnItt (lc : LC) (pc target : Word64) (s : State) : State :=
  let c := coreOf s lc.val
  if !itUsed c.regs then s
  else match c.group with
    | some g => setCore s lc.val { c with group := some { g with itts := g.itts ++ [(pc, target)] } }
    | none => ittWrite lc.val pc target s

/-! ### Branches (R82 to R85) -/

def execBCond (lc : LC) (cond : BitVec 4) (hint : Bool) (rsv : BitVec 4) (off : BitVec 17) (s : State) : Out :=
  .next (runInsn lc false (encB cond hint rsv off) (fun a =>
    let c := coreOf a lc.val
    match condHolds cond c.regs.flags with
    | some taken =>
      if rsv != 0 then illegal a
      else .ok (updCore lc.val (fun x => noteMiss (taken != (hint || cond == 14)) (numberBranch x)) a) (if taken then c.pc + wordOffset off else c.pc + 4)
        (evOne c 0x10 :: if taken = (hint || cond == 14) then [] else [evOne c 0x11])
    | none => illegal a) s)
def execB (lc : LC) (off : BitVec 26) (s : State) : Out :=
  .next (runInsn lc false (encJ 0x31 off) (fun a =>
    let c := coreOf a lc.val
    .ok (updCore lc.val numberBranch a) (c.pc + wordOffset off) [evOne c 0x10]) s)
def execBl (lc : LC) (off : BitVec 26) (s : State) : Out :=
  .next (runInsn lc false (encJ 0x32 off) (fun a =>
    let c := coreOf a lc.val
    .ok (updCore lc.val (fun x => predictCall (c.pc + 4) (numberBranch { x with regs := writeG x.regs 30 (c.pc + 4) })) a)
      (c.pc + wordOffset off) [evOne c 0x10]) s)
/-- A register-indirect branch: rd, rb and f are zero; the target is aligned (R84). -/
def indirect (lc : LC) (fn : Nat) (f : Bool) (rd ra rb : GReg) (body : Word64 → State → Eff) (s : State) : Out :=
  .next (runInsn lc false (encA 5 rd ra rb f fn) (fun a =>
    let t := readG (regsOf a lc) ra
    if f || rd != 0 || rb != 0 then illegal a
    else if !aligned t 4 then .exc { cause := excAlign, addr := t } a
    else body t a) s)
/-- The events of a branch with a predicted target. -/
def targetEvents (c : Core) (p : Option Word64) (t : Word64) : List PmEvent := evOne c 0x10 :: if p = some t then [] else [evOne c 0x12]
def execBr (lc : LC) (f : Bool) (rd ra rb : GReg) (s : State) : Out :=
  indirect lc 0 f rd ra rb (fun t a =>
    let c := coreOf a lc.val
    .ok (learnItt lc c.pc t (updCore lc.val (fun x => noteMiss (predictItt c != some t) (numberBranch x)) a)) t (targetEvents c (predictItt c) t)) s
def execBlr (lc : LC) (f : Bool) (rd ra rb : GReg) (s : State) : Out :=
  indirect lc 1 f rd ra rb (fun t a =>
    let c := coreOf a lc.val
    let a1 := updCore lc.val (fun x =>
      predictCall (c.pc + 4) (noteMiss (predictItt c != some t) (numberBranch { x with regs := writeG x.regs 30 (c.pc + 4) }))) a
    .ok (learnItt lc c.pc t a1) t (targetEvents c (predictItt c) t)) s
def execRet (lc : LC) (f : Bool) (rd ra rb : GReg) (s : State) : Out :=
  indirect lc 2 f rd ra rb (fun t a =>
    let c := coreOf a lc.val
    let y := predictRet (numberBranch c)
    let x := (y.1, noteMiss ((match y.1 with | some z => some z | none => predictItt c) != some t) y.2)
    let a1 := setCore a lc.val x.2
    let p := match x.1 with | some y => some y | none => predictItt c
    .ok (if x.1 = some t then a1 else learnItt lc c.pc t a1) t (targetEvents c p t)) s

/-- The `n`th branch, one that was predicted wrongly, is resolved: overlay pushes made after it are discarded, entries taken after it return
(R86). No wrong path is run here, so none fills a cache or a TLB (04 R120). [DESIGN CHOICE, log entry 98] -/
def mispredicted (n : Nat) (c : Core) : Core :=
  let after (m : Option Nat) : Bool := match m with | some k => decide (n < k) | none => false
  let back (e : RsEntry) : RsEntry := if after e.taken then { e with taken := none } else e
  if !c.missed.contains n then c
  else
    { c with
      overlay := (c.overlay.filter fun e => decide (e.seq ≤ n)).map back, retStack := c.retStack.map back
      unpushed := (c.unpushed.filter fun e => decide (e.1 ≤ n)).map fun e => if after e.2 then (e.1, none) else e }
def execMispredictRecovery (lc : LC) (seq : Nat) (s : State) : Out := .next (updCore lc.val (mispredicted seq) s)

/-- The selectors a major opcode assigns (R72, R84, R93; 04 R96, R112, R113; 05 R127; 06 R150; 07 R184, R188; 08 R216, R221; 13 R327;
19 R457), with the selector of a word; none for an opcode without one. -/
def selectors (w : Word32) : Option (List Nat × Nat) :=
  let fn := fld w 9 0
  let vfn := fld w 4 0
  let sfn := fld w 15 12
  match fld w 31 26 with
  | 0x01 => some ([0, 1, 2, 3, 8, 9, 10, 11, 12, 13], fn)
  | 0x02 => some ([0, 1, 2, 4, 5, 6, 7], fn)
  | 0x03 => some ([0, 1, 2, 3, 0x10, 0x11, 0x12, 0x13, 0x14, 0x20, 0x21, 0x22, 0x24, 0x25, 0x26], fn)
  | 0x05 => some ([0, 1, 2], fn)
  | 0x1D => some ([0, 1, 2, 3, 4, 5, 6, 8, 9, 10, 11], fld w 8 5)
  | 0x1E => some ([0, 1, 2, 3, 4, 5, 6, 7, 8, 9], fld w 13 10)
  | 0x20 => some ([0, 1, 2, 3, 4, 8, 9, 10, 11, 12, 13, 14, 16, 17, 18, 19, 20], vfn)
  | 0x21 => some ([0, 1, 2, 3, 4, 5, 6, 7, 8, 9], vfn)
  | 0x22 => some ([0, 1, 2, 3], vfn)
  | 0x23 => some ([0, 1, 2, 3, 4, 5, 6, 7, 8, 9, 10, 11, 16, 17, 18, 19, 20, 21], vfn)
  | 0x24 => some ([0, 1, 2, 3, 4, 5, 6, 7, 8], vfn)
  | 0x25 => some ([0, 1, 2, 3, 4, 5, 6, 7, 8, 9, 10], vfn)
  | 0x26 => some ([0, 1, 2, 3, 4, 5, 8, 9, 10, 11, 12, 16], vfn)
  | 0x27 => some ([0, 1, 2, 3, 4, 8, 9, 10, 11], vfn)
  | 0x2C => some ([0, 1, 2, 3, 4, 5, 8, 9, 11], vfn)
  | 0x2D => some ([0, 1, 4, 5], vfn)
  | 0x38 => some ([0, 1, 2, 3], sfn)
  | 0x39 => some ([0, 1], sfn)
  | 0x3A => some ([0, 1, 2, 3, 4], fn)
  | 0x3B => some ([0, 1, 2, 3, 4], sfn)
  | 0x3C => some ([0, 1, 2, 4, 5, 6, 7, 8, 9, 10], sfn)
  | 0x3D => some ([0, 1, 2, 3, 4, 5], sfn)
  | 0x3E => some ([0, 1, 2, 3, 4, 5, 8, 9, 10], sfn)
  | _ => none
/-- A major opcode that is reserved (R70). -/
def reservedMajor (op : Nat) : Bool :=
  ([0, 6, 7, 0x11, 0x28, 0x29, 0x2A, 0x2B, 0x2E, 0x2F, 0x33, 0x34, 0x35, 0x36, 0x37, 0x3F] : List Nat).contains op
/-- A word of a reserved major opcode, or with a reserved selector (R7, R70); a word of any other opcode is that opcode's command. -/
def reservedWord (w : Word32) : Bool :=
  reservedMajor (fld w 31 26) || match selectors w with | some (l, x) => !l.contains x | none => false
/-- The vector unit is off for the core at U (07 R175). -/
def vectorOff (r : Regs) : Bool := levelOf r == 0 && (csr r 0x400).getLsbD 2
def execReservedMajorOpcode (lc : LC) (w : Word32) (s : State) : Out :=
  .next (if reservedWord w then
      runInsn lc false w (fun a =>
        let off := vectorOff (regsOf a lc) && decide (0x20 ≤ fld w 31 26 ∧ fld w 31 26 ≤ 0x2D)
        .exc { cause := excIllegal, reason := off.toNat } a) s
    else s)

end Sys2Proof.Machine
end

