-- ==== Sys2Proof/Machine/CoreMem.lean ====
section
/-! DEFINITION. Scalar loads and stores, atomics, prefetch and the fences (04 R94 to R100, R112 to R118, R122). -/

namespace Sys2Proof.Machine

/-! ### Loads (R94 to R97, R101, R109) -/

/-- A load of `n` bytes at `va` into `d` (R101): deferred from an MT 2 page or past an access of its group that it must follow (R111), else
its value is read now. A load of control space is 4 bytes wide (02 R39). [DEDUCED, log entry 10] -/
def loadAt (lc : LC) (va : Word64) (n : Nat) (signed : Bool) (mo : BitVec 2) (rt : GReg) (s : State) : Eff :=
  if !aligned va n then .exc { cause := excAlign, addr := va, acc := 1 } s
  else
    let x := access lc.val { wantLoad with noControl := n != 4 } va n true false s
    match x.1 with
    | .error e => .exc e x.2
    | .ok a =>
      let evs := accessEvents x.2 lc.val va a.acc true
      let c := openGroup (coreOf x.2 lc.val)
      if a.acc.mt = 2 ∨ mustWait c a.acc n (mo == 1) then
        let d := nextDeferred c
        let c2 := holdAll (a.ads.map .ad ++ [.load d.1 a.acc n signed (mo == 1)]) [a.page] d.2
        .ok (setCore x.2 lc.val (pushShadow (.gen rt) (.deferred d.1) c2)) (c.pc + 4) evs
      else
        let v := loadBytes lc.val a.acc n (mo == 2) x.2
        let c2 := holdAll (a.ads.map .ad) [a.page] (openGroup (coreOf v.2 lc.val))
        .ok (setCore v.2 lc.val (pushShadow (.gen rt) (.word (extendLoad v.1 n signed)) c2)) (c.pc + 4) evs
/-- A format-M load; mo 0b11 is reserved. -/
def loadM (major n : Nat) (signed : Bool) (lc : LC) (rt rb : GReg) (mo : BitVec 2) (off : BitVec 14) (s : State) : Out :=
  .next (runInsn lc false (encM major rt rb mo off) (fun a =>
    if mo = 3 then illegal a else loadAt lc (offAddr (readG (regsOf a lc) rb) off n) n signed mo rt a) s)
def execLdb (lc : LC) (rt rb : GReg) (mo : BitVec 2) (off : BitVec 14) (s : State) : Out := loadM 0x12 1 false lc rt rb mo off s
def execLdh (lc : LC) (rt rb : GReg) (mo : BitVec 2) (off : BitVec 14) (s : State) : Out := loadM 0x13 2 false lc rt rb mo off s
def execLdw (lc : LC) (rt rb : GReg) (mo : BitVec 2) (off : BitVec 14) (s : State) : Out := loadM 0x14 4 false lc rt rb mo off s
def execLdd (lc : LC) (rt rb : GReg) (mo : BitVec 2) (off : BitVec 14) (s : State) : Out := loadM 0x15 8 false lc rt rb mo off s
def execLdsb (lc : LC) (rt rb : GReg) (mo : BitVec 2) (off : BitVec 14) (s : State) : Out := loadM 0x16 1 true lc rt rb mo off s
def execLdsh (lc : LC) (rt rb : GReg) (mo : BitVec 2) (off : BitVec 14) (s : State) : Out := loadM 0x17 2 true lc rt rb mo off s
def execLdsw (lc : LC) (rt rb : GReg) (mo : BitVec 2) (off : BitVec 14) (s : State) : Out := loadM 0x18 4 true lc rt rb mo off s

/-! ### Stores (R94, R95, R105) -/

/-- Hold the stores and letters an instruction gives its group, or, outside a group, release them at once, so that `.NT` stores fill a line
together only within a group (R97); the state after a failed swap of A or D. [DESIGN CHOICE, log entry 98] -/
def giveOrDo (lc : LC) (hs : List Held) (ads : List AdUpdate) (pages : List Nat) (s : State) : Bool × State :=
  match (coreOf s lc.val).group with
  | some _ => (true, updCore lc.val (holdAll (ads.map .ad ++ hs) pages) s)
  | none =>
    let x := setAds lc.val ads s
    if x.1 then (true, releaseAll lc hs x.2) else x
/-- An effect that is done unless a swap failed: the instruction is then executed afresh (08 R208). -/
def doneIf (r : Bool × State) (pc : Word64) (evs : List PmEvent) : Eff := if r.1 then .ok r.2 pc evs else .hold r.2
def storeAt (lc : LC) (va : Word64) (n : Nat) (mo : BitVec 2) (v : Word64) (s : State) : Eff :=
  if !aligned va n then .exc { cause := excAlign, addr := va, acc := 2 } s
  else
    let x := access lc.val wantStore va n false true s
    match x.1 with
    | .error e => .exc e x.2
    | .ok a =>
      doneIf (giveOrDo lc [.store a.acc (bytesOf v n) (mo == 2) (mo == 1)] a.ads [a.page] x.2) (nextPc x.2 lc) (accessEvents x.2 lc.val va a.acc false)
def storeM (major n : Nat) (lc : LC) (rt rb : GReg) (mo : BitVec 2) (off : BitVec 14) (s : State) : Out :=
  .next (runInsn lc false (encM major rt rb mo off) (fun a =>
    if mo = 3 then illegal a else storeAt lc (offAddr (readG (regsOf a lc) rb) off n) n mo (readG (regsOf a lc) rt) a) s)
def execStb (lc : LC) (rt rb : GReg) (mo : BitVec 2) (off : BitVec 14) (s : State) : Out := storeM 0x19 1 lc rt rb mo off s
def execSth (lc : LC) (rt rb : GReg) (mo : BitVec 2) (off : BitVec 14) (s : State) : Out := storeM 0x1A 2 lc rt rb mo off s
def execStw (lc : LC) (rt rb : GReg) (mo : BitVec 2) (off : BitVec 14) (s : State) : Out := storeM 0x1B 4 lc rt rb mo off s
def execStd (lc : LC) (rt rb : GReg) (mo : BitVec 2) (off : BitVec 14) (s : State) : Out := storeM 0x1C 8 lc rt rb mo off s

/-! ### Indexed forms (R96) -/

def encIndexed (rt rb : GReg) (mo : BitVec 2) (gi : GReg) (sel : BitVec 4) (low : BitVec 5) : Word32 :=
  encM 0x1D rt rb mo (BitVec.ofNat 14 (gi.val * 512 + sel.toNat * 32 + low.toNat))
/-- The size, and whether it is signed, of a load that sel names. -/
def loadSel (sel : BitVec 4) : Option (Nat × Bool) := ([(1, false), (2, false), (4, false), (8, false), (1, true), (2, true), (4, true)] : List (Nat × Bool))[sel.toNat]?
def storeSel (sel : BitVec 4) : Option Nat := if 8 ≤ sel.toNat ∧ sel.toNat < 12 then some (2 ^ (sel.toNat - 8)) else none
def execLoadIndexed (lc : LC) (rt rb : GReg) (mo : BitVec 2) (gi : GReg) (sel : BitVec 4) (low : BitVec 5) (s : State) : Out :=
  .next (runInsn lc false (encIndexed rt rb mo gi sel low) (fun a =>
    match loadSel sel with
    | some (n, signed) =>
      if mo = 3 ∨ low ≠ 0 then illegal a
      else loadAt lc (indexAddr (readG (regsOf a lc) rb) (readG (regsOf a lc) gi) n) n signed mo rt a
    | none => illegal a) s)
def execStoreIndexed (lc : LC) (rt rb : GReg) (mo : BitVec 2) (gi : GReg) (sel : BitVec 4) (low : BitVec 5) (s : State) : Out :=
  .next (runInsn lc false (encIndexed rt rb mo gi sel low) (fun a =>
    match storeSel sel with
    | some n =>
      if mo = 3 ∨ low ≠ 0 then illegal a
      else storeAt lc (indexAddr (readG (regsOf a lc) rb) (readG (regsOf a lc) gi) n) n mo (readG (regsOf a lc) rt) a
    | none => illegal a) s)

/-! ### Atomics (R113 to R115) -/

/-- An `AMO`: serialising, and the first load of a new group, in which it is deferred. Its operands are read before the earlier shadows
are cut (R108). -/
def amoRow (op : AmoOp) (lc : LC) (rt rb : GReg) (mo : BitVec 2) (wide far : Bool) (gs : GReg) (low : BitVec 3) (s : State) : Out :=
  .next (runInsn lc true
    (encM 0x1E rt rb mo (BitVec.ofNat 14 (amoNum op * 1024 + wide.toNat * 512 + far.toNat * 256 + gs.val * 8 + low.toNat))) (fun a =>
    let r := regsOf a lc
    let va := readG r rb
    let n := if wide then 8 else 4
    if low ≠ 0 then illegal a
    else if !aligned va n then .exc { cause := excAlign, addr := va, acc := 3 } a
    else
      let x := access lc.val wantAmo va n true true a
      match x.1 with
      | .error e => .exc e x.2
      | .ok t =>
        let c := openGroup (cutShadows (coreOf x.2 lc.val))
        let d := nextDeferred c
        let c2 := holdAll (t.ads.map .ad ++ [.amo d.1 t.acc op wide far (readG r gs) (readG r rt) (mo.getLsbD 0)]) [t.page] d.2
        .ok (setCore x.2 lc.val (pushShadow (.gen rt) (.deferred d.1) c2)) (c.pc + 4)
          (accessEvents x.2 lc.val va t.acc true ++ [evOne c 0x21])) s)
def execAmoXchg (lc : LC) (rt rb : GReg) (mo : BitVec 2) (wide far : Bool) (gs : GReg) (low : BitVec 3) (s : State) : Out :=
  amoRow .xchg lc rt rb mo wide far gs low s
def execAmoAdd (lc : LC) (rt rb : GReg) (mo : BitVec 2) (wide far : Bool) (gs : GReg) (low : BitVec 3) (s : State) : Out :=
  amoRow .add lc rt rb mo wide far gs low s
def execAmoAnd (lc : LC) (rt rb : GReg) (mo : BitVec 2) (wide far : Bool) (gs : GReg) (low : BitVec 3) (s : State) : Out :=
  amoRow .and lc rt rb mo wide far gs low s
def execAmoOr (lc : LC) (rt rb : GReg) (mo : BitVec 2) (wide far : Bool) (gs : GReg) (low : BitVec 3) (s : State) : Out :=
  amoRow .or lc rt rb mo wide far gs low s
def execAmoXor (lc : LC) (rt rb : GReg) (mo : BitVec 2) (wide far : Bool) (gs : GReg) (low : BitVec 3) (s : State) : Out :=
  amoRow .xor lc rt rb mo wide far gs low s
def execAmoMaxs (lc : LC) (rt rb : GReg) (mo : BitVec 2) (wide far : Bool) (gs : GReg) (low : BitVec 3) (s : State) : Out :=
  amoRow .maxs lc rt rb mo wide far gs low s
def execAmoMins (lc : LC) (rt rb : GReg) (mo : BitVec 2) (wide far : Bool) (gs : GReg) (low : BitVec 3) (s : State) : Out :=
  amoRow .mins lc rt rb mo wide far gs low s
def execAmoMaxu (lc : LC) (rt rb : GReg) (mo : BitVec 2) (wide far : Bool) (gs : GReg) (low : BitVec 3) (s : State) : Out :=
  amoRow .maxu lc rt rb mo wide far gs low s
def execAmoMinu (lc : LC) (rt rb : GReg) (mo : BitVec 2) (wide far : Bool) (gs : GReg) (low : BitVec 3) (s : State) : Out :=
  amoRow .minu lc rt rb mo wide far gs low s
def execAmoCmpx (lc : LC) (rt rb : GReg) (mo : BitVec 2) (wide far : Bool) (gs : GReg) (low : BitVec 3) (s : State) : Out :=
  amoRow .cmpx lc rt rb mo wide far gs low s

/-! ### Prefetch (R100, R121) -/

/-- What a prefetch of a line does: kind 0 into the L1D, 1 and 2 into the L2, 3 into the slice alone (09 R230). -/
def prefetchLine (lc : LC) (kind : Nat) (line : Nat) (tc : BitVec 2) (s : State) : State :=
  match kind with
  | 0 => coherentRead lc.val line tc false false s
  | 1 => coherentRead lc.val line tc false true s
  | 2 => if l2On s (pcOf s lc.val) then coherentOwn lc.val line tc s else s
  | _ => placeL3 (homeOf s line) line s
/-- `PRFM`: no exception but EXC_ILLEGAL; dropped where translation or a check refuses, off MT 0, on poison, or where A or, for kind 2, D
would have to be set (08 R208): kind 2 is checked as a store. It alone prefetches: the L2's own prefetcher never acts (R121).
[DEDUCED, log entry 27; DESIGN CHOICE, log entry 98] -/
def prefetch (lc : LC) (kind : Nat) (va : Word64) (s : State) : State :=
  let x := translate lc.val (if kind = 2 then wantStore else wantLoad) va s
  match x.1 with
  | .error _ => s
  | .ok a =>
    if a.acc.mt ≠ 0 || !isMemory a.acc.pa || !a.ads.isEmpty || !backed x.2 a.acc.pa || readsPoison x.2 (lineOf a.acc.pa) then s
    else prefetchLine lc kind (lineOf a.acc.pa) a.acc.tc (coreMeter lc.val a.acc x.2)
/-- A prefetch into the L1D of a line it does not hold (06 R162). -/
def prefetchNew (lc : LC) (va : Word64) (s : State) : State :=
  match (translate lc.val wantLoad va s).1 with
  | .ok a => if (if l1dOn s (pcOf s lc.val) then (findLine (priv s (pcOf s lc.val)).l1d (lineOf a.acc.pa)).isSome
      else (l2Copy s (pcOf s lc.val) (lineOf a.acc.pa)).isSome) then s else prefetch lc 0 va s
  | .error _ => s
def execPrfm (lc : LC) (kind : BitVec 5) (rb : GReg) (mo : BitVec 2) (off : BitVec 14) (s : State) : Out :=
  .next (runInsn lc false (encM 0x1F ⟨kind.toNat, kind.isLt⟩ rb mo off) (fun a =>
    if 4 ≤ kind.toNat ∨ mo ≠ 0 then illegal a
    else .ok (prefetch lc kind.toNat (offAddr (readG (regsOf a lc) rb) off 8) a) (nextPc a lc) []) s)

/-! ### Fences (R112, R118, R122) -/

/-- `FENCE`: every earlier access of the one core that executes in order has been performed when it issues. [DEDUCED, log entry 27] -/
def execFence (lc : LC) (rd rv : GReg) (x12 : BitVec 12) (s : State) : Out :=
  .next (runInsn lc true (encS 0x3C rd rv 0 x12) (fun a =>
    if rd != 0 || rv != 0 || decide (32 ≤ x12.toNat) then illegal a else doneRegs lc id a) s)
/-- `IFENCE` (04 R118): fetches after it are of commands after it, so it is complete once it has serialised. [DEDUCED, log entry 27] -/
def execIfence (lc : LC) (rd rv : GReg) (x12 : BitVec 12) (s : State) : Out :=
  .next (runInsn lc true (encS 0x3C rd rv 1 x12) (fun a => if rd != 0 || rv != 0 || x12 != 0 then illegal a else doneRegs lc id a) s)
/-- [DEDUCED, log entry 27] -/
def execSpecbar (lc : LC) (rd rv : GReg) (x12 : BitVec 12) (s : State) : Out :=
  .next (runInsn lc false (encS 0x3C rd rv 2 x12) (fun a => if rd != 0 || rv != 0 || x12 != 0 then illegal a else doneRegs lc id a) s)

end Sys2Proof.Machine
end

