-- ==== Sys2Proof/Machine/CoreVec.lean ====
section
/-! DEFINITION. Vector, floating-point and mask instructions (05 R123 to R146): opcodes 0x20 to 0x27, 0x2C, 0x2D. -/

namespace Sys2Proof.Machine

/-! ### One vector instruction -/

/-- A vector instruction: EXC_ILLEGAL with the reason "vector unit off" at U while `CSR_STATUS.VOFF` is 1 (07 R175); EXC_ILLEGAL where a
field holds a value it may not hold. -/
def vecInsn (op vfn : Nat) (lc : LC) (vd va vb : VReg) (k : KReg) (z : Bool) (ew : BitVec 2) (bad : Bool) (body : State → Eff) (s : State) : Out :=
  .next (runInsn lc false (encV op vd va vb k z ew vfn) (fun a =>
    if vectorOff (regsOf a lc) then .exc { cause := excIllegal, reason := 1 } a else if bad then illegal a else body a) s)
/-- Every instruction of the vector opcodes counts event 0x40 (23 R565). [DEDUCED, log entry 34] -/
def vecEv (s : State) (lc : LC) : PmEvent := evOne (coreOf s lc.val) 0x40
/-- Registers changed, nothing trapped. -/
def vecRegs (lc : LC) (f : Regs → Regs) (s : State) : Eff := .ok (updRegs lc.val f s) (nextPc s lc) [vecEv s lc]
/-- A vector destination under no further rule: what `f` computes from the registers. -/
def vecTo (lc : LC) (vd : VReg) (f : Regs → Vec) (s : State) : Eff := vecRegs lc (fun r => writeV r vd (f r)) s

/-! ### Floating-point controls and traps (R130 to R132) -/

def fpCtl (r : Regs) : FpCtl := { rm := fld (csr r 0x002) 17 16, fz := (csr r 0x002).getLsbD 20, daz := (csr r 0x002).getLsbD 21 }
/-- The enables of `FPCSR`, NVE to NXE, in the order of the flags. -/
def fpEnables (r : Regs) : Nat := fld (csr r 0x002) 12 8
/-- Lanes that raised an exception whose trap is enabled (R132; 07 R174). [DESIGN CHOICE, log entry 31] -/
def trapLanes (en : Nat) : Nat → List FpFlags → Nat
  | _, [] => 0
  | i, f :: r => (if f.bits &&& en ≠ 0 then 2 ^ i else 0) + trapLanes en (i + 1) r
/-- A floating-point instruction's end (R131, R132): EXC_FP where an enabled exception was raised, with no effect; else the flags are
joined and the result is written. -/
def fpEnd (lc : LC) (fl : FpFlags) (lanes : Nat) (write : Regs → Regs) (n : Nat) (s : State) : Eff :=
  let c := coreOf s lc.val
  if fl.bits &&& fpEnables c.regs ≠ 0 then .exc { cause := excFp, fpx := fl.bits, elanes := BitVec.ofNat 64 lanes } s
  else
    .ok (updRegs lc.val (fun r => write (setCsr r 0x002 (csr r 0x002 ||| BitVec.ofNat 64 fl.bits))) s) (c.pc + 4)
      (vecEv s lc :: if n = 0 then [] else [{ evOne c 0x41 with n := n }])
def activeCount (mask : Word64) (w : Nat) : Nat := ((List.range (laneCount w)).filter (active mask)).length
/-- The lane-wise outcome of a floating-point instruction. -/
def fpLanes (lc : LC) (o : FpOut) (write : Regs → Regs) (n : Nat) (s : State) : Eff :=
  fpEnd lc o.flags (trapLanes (fpEnables (regsOf s lc)) 0 o.raised) write n s
def fpEw (ew : BitVec 2) : Bool := ew == 0 || ew == 1

/-! ### Integer lanes (R128) -/

def vecInt (op : VIntOp) (vfn : Nat) (unary : Bool) (lc : LC) (vd va vb : VReg) (k : KReg) (z : Bool) (ew : BitVec 2) (s : State) : Out :=
  vecInsn 0x20 vfn lc vd va vb k z ew (ew == 3 || (unary && vb != 0))
    (vecTo lc vd fun r => vInt (ewBits ew) op (readK r k) z (readV r vd) (readV r va) (readV r vb)) s
def execVadd (lc : LC) (vd va vb : VReg) (k : KReg) (z : Bool) (ew : BitVec 2) (s : State) : Out := vecInt .add 0 false lc vd va vb k z ew s
def execVsub (lc : LC) (vd va vb : VReg) (k : KReg) (z : Bool) (ew : BitVec 2) (s : State) : Out := vecInt .sub 1 false lc vd va vb k z ew s
def execVmullo (lc : LC) (vd va vb : VReg) (k : KReg) (z : Bool) (ew : BitVec 2) (s : State) : Out := vecInt .mullo 2 false lc vd va vb k z ew s
def execVmulhs (lc : LC) (vd va vb : VReg) (k : KReg) (z : Bool) (ew : BitVec 2) (s : State) : Out := vecInt .mulhs 3 false lc vd va vb k z ew s
def execVmulhu (lc : LC) (vd va vb : VReg) (k : KReg) (z : Bool) (ew : BitVec 2) (s : State) : Out := vecInt .mulhu 4 false lc vd va vb k z ew s
def execVand (lc : LC) (vd va vb : VReg) (k : KReg) (z : Bool) (ew : BitVec 2) (s : State) : Out := vecInt .and 8 false lc vd va vb k z ew s
def execVandn (lc : LC) (vd va vb : VReg) (k : KReg) (z : Bool) (ew : BitVec 2) (s : State) : Out := vecInt .andn 9 false lc vd va vb k z ew s
def execVor (lc : LC) (vd va vb : VReg) (k : KReg) (z : Bool) (ew : BitVec 2) (s : State) : Out := vecInt .or 10 false lc vd va vb k z ew s
def execVxor (lc : LC) (vd va vb : VReg) (k : KReg) (z : Bool) (ew : BitVec 2) (s : State) : Out := vecInt .xor 11 false lc vd va vb k z ew s
def execVsllv (lc : LC) (vd va vb : VReg) (k : KReg) (z : Bool) (ew : BitVec 2) (s : State) : Out := vecInt .sllv 12 false lc vd va vb k z ew s
def execVsrlv (lc : LC) (vd va vb : VReg) (k : KReg) (z : Bool) (ew : BitVec 2) (s : State) : Out := vecInt .srlv 13 false lc vd va vb k z ew s
def execVsrav (lc : LC) (vd va vb : VReg) (k : KReg) (z : Bool) (ew : BitVec 2) (s : State) : Out := vecInt .srav 14 false lc vd va vb k z ew s
def execVsmin (lc : LC) (vd va vb : VReg) (k : KReg) (z : Bool) (ew : BitVec 2) (s : State) : Out := vecInt .smin 16 false lc vd va vb k z ew s
def execVsmax (lc : LC) (vd va vb : VReg) (k : KReg) (z : Bool) (ew : BitVec 2) (s : State) : Out := vecInt .smax 17 false lc vd va vb k z ew s
def execVumin (lc : LC) (vd va vb : VReg) (k : KReg) (z : Bool) (ew : BitVec 2) (s : State) : Out := vecInt .umin 18 false lc vd va vb k z ew s
def execVumax (lc : LC) (vd va vb : VReg) (k : KReg) (z : Bool) (ew : BitVec 2) (s : State) : Out := vecInt .umax 19 false lc vd va vb k z ew s
def execVabs (lc : LC) (vd va vb : VReg) (k : KReg) (z : Bool) (ew : BitVec 2) (s : State) : Out := vecInt .abs 20 true lc vd va vb k z ew s

/-! ### Floating-point lanes (R133) -/

def vecFp2 (op : FOp2) (vfn : Nat) (unary : Bool) (lc : LC) (vd va vb : VReg) (k : KReg) (z : Bool) (ew : BitVec 2) (s : State) : Out :=
  vecInsn 0x21 vfn lc vd va vb k z ew (!fpEw ew || (unary && vb != 0)) (fun a =>
    let r := regsOf a lc
    let w := ewBits ew
    let o := vFp2 w (fpCtl r) op (readK r k) (readV r va) (readV r vb)
    fpLanes lc o (fun q => writeV q vd (vecOf w (maskLanes (readK r k) z 0 (lanesOf w (readV r vd)) o.lanes))) (activeCount (readK r k) w) a) s
def execVfadd (lc : LC) (vd va vb : VReg) (k : KReg) (z : Bool) (ew : BitVec 2) (s : State) : Out := vecFp2 .add 0 false lc vd va vb k z ew s
def execVfsub (lc : LC) (vd va vb : VReg) (k : KReg) (z : Bool) (ew : BitVec 2) (s : State) : Out := vecFp2 .sub 1 false lc vd va vb k z ew s
def execVfmul (lc : LC) (vd va vb : VReg) (k : KReg) (z : Bool) (ew : BitVec 2) (s : State) : Out := vecFp2 .mul 2 false lc vd va vb k z ew s
def execVfdiv (lc : LC) (vd va vb : VReg) (k : KReg) (z : Bool) (ew : BitVec 2) (s : State) : Out := vecFp2 .div 3 false lc vd va vb k z ew s
def execVfsqrt (lc : LC) (vd va vb : VReg) (k : KReg) (z : Bool) (ew : BitVec 2) (s : State) : Out := vecFp2 .sqrt 4 true lc vd va vb k z ew s
def execVfmin (lc : LC) (vd va vb : VReg) (k : KReg) (z : Bool) (ew : BitVec 2) (s : State) : Out := vecFp2 .min 5 false lc vd va vb k z ew s
def execVfmax (lc : LC) (vd va vb : VReg) (k : KReg) (z : Bool) (ew : BitVec 2) (s : State) : Out := vecFp2 .max 6 false lc vd va vb k z ew s
def execVfabs (lc : LC) (vd va vb : VReg) (k : KReg) (z : Bool) (ew : BitVec 2) (s : State) : Out := vecFp2 .abs 7 true lc vd va vb k z ew s
def execVfneg (lc : LC) (vd va vb : VReg) (k : KReg) (z : Bool) (ew : BitVec 2) (s : State) : Out := vecFp2 .neg 8 true lc vd va vb k z ew s
def execVfrnd (lc : LC) (vd va vb : VReg) (k : KReg) (z : Bool) (ew : BitVec 2) (s : State) : Out := vecFp2 .rnd 9 true lc vd va vb k z ew s
/-- Opcode 0x22: vd is both the addend and the destination; each active lane counts two operations (23 R565). -/
def vecFp3 (op : FOp3) (vfn : Nat) (lc : LC) (vd va vb : VReg) (k : KReg) (z : Bool) (ew : BitVec 2) (s : State) : Out :=
  vecInsn 0x22 vfn lc vd va vb k z ew (!fpEw ew) (fun a =>
    let r := regsOf a lc
    let w := ewBits ew
    let o := vFp3 w (fpCtl r) op (readK r k) (readV r va) (readV r vb) (readV r vd)
    fpLanes lc o (fun q => writeV q vd (vecOf w (maskLanes (readK r k) z 0 (lanesOf w (readV r vd)) o.lanes))) (2 * activeCount (readK r k) w) a) s
def execVfmadd (lc : LC) (vd va vb : VReg) (k : KReg) (z : Bool) (ew : BitVec 2) (s : State) : Out := vecFp3 .madd 0 lc vd va vb k z ew s
def execVfmsub (lc : LC) (vd va vb : VReg) (k : KReg) (z : Bool) (ew : BitVec 2) (s : State) : Out := vecFp3 .msub 1 lc vd va vb k z ew s
def execVfnmadd (lc : LC) (vd va vb : VReg) (k : KReg) (z : Bool) (ew : BitVec 2) (s : State) : Out := vecFp3 .nmadd 2 lc vd va vb k z ew s
def execVfnmsub (lc : LC) (vd va vb : VReg) (k : KReg) (z : Bool) (ew : BitVec 2) (s : State) : Out := vecFp3 .nmsub 3 lc vd va vb k z ew s

/-! ### Conversions (R134, R135) -/

def vecCvt (op : CvtOp) (vfn : Nat) (hi : Bool) (lc : LC) (vd va vb : VReg) (k : KReg) (z : Bool) (ew : BitVec 2) (s : State) : Out :=
  vecInsn 0x23 vfn lc vd va vb k z ew (!cvtWidthOk op ew || vb != 0) (fun a =>
    let r := regsOf a lc
    let w := ewBits ew
    let o := vCvt op hi w (fpCtl r) (readK r k) z (readV r vd) (readV r va)
    fpLanes lc o.2 (fun q => writeV q vd o.1) 0 a) s
def execVcvtDS (lc : LC) (hi : Bool)  (vd va vb : VReg) (k : KReg) (z : Bool) (ew : BitVec 2) (s : State) : Out := vecCvt .dS (0 + hi.toNat) hi lc vd va vb k z ew s
def execVcvtSD (lc : LC) (hi : Bool)  (vd va vb : VReg) (k : KReg) (z : Bool) (ew : BitVec 2) (s : State) : Out := vecCvt .sD (2 + hi.toNat) hi lc vd va vb k z ew s
def execVcvtSH (lc : LC) (hi : Bool)  (vd va vb : VReg) (k : KReg) (z : Bool) (ew : BitVec 2) (s : State) : Out := vecCvt .sH (4 + hi.toNat) hi lc vd va vb k z ew s
def execVcvtHS (lc : LC) (hi : Bool)  (vd va vb : VReg) (k : KReg) (z : Bool) (ew : BitVec 2) (s : State) : Out := vecCvt .hS (6 + hi.toNat) hi lc vd va vb k z ew s
def execVcvtSBf (lc : LC) (hi : Bool)  (vd va vb : VReg) (k : KReg) (z : Bool) (ew : BitVec 2) (s : State) : Out := vecCvt .sBF (8 + hi.toNat) hi lc vd va vb k z ew s
def execVcvtBfS (lc : LC) (hi : Bool)  (vd va vb : VReg) (k : KReg) (z : Bool) (ew : BitVec 2) (s : State) : Out := vecCvt .bfS (10 + hi.toNat) hi lc vd va vb k z ew s
def execVcvtFI (lc : LC) (vd va vb : VReg) (k : KReg) (z : Bool) (ew : BitVec 2) (s : State) : Out := vecCvt .fI 16 false lc vd va vb k z ew s
def execVcvtFU (lc : LC) (vd va vb : VReg) (k : KReg) (z : Bool) (ew : BitVec 2) (s : State) : Out := vecCvt .fU 17 false lc vd va vb k z ew s
def execVcvtIF (lc : LC) (vd va vb : VReg) (k : KReg) (z : Bool) (ew : BitVec 2) (s : State) : Out := vecCvt .iF 18 false lc vd va vb k z ew s
def execVcvtUF (lc : LC) (vd va vb : VReg) (k : KReg) (z : Bool) (ew : BitVec 2) (s : State) : Out := vecCvt .uF 19 false lc vd va vb k z ew s
def execVcvtIFT (lc : LC) (vd va vb : VReg) (k : KReg) (z : Bool) (ew : BitVec 2) (s : State) : Out := vecCvt .iFT 20 false lc vd va vb k z ew s
def execVcvtUFT (lc : LC) (vd va vb : VReg) (k : KReg) (z : Bool) (ew : BitVec 2) (s : State) : Out := vecCvt .uFT 21 false lc vd va vb k z ew s

/-! ### Permutes and moves (R136) -/

/-- A general register named by a field of format V. -/
def gOf (x : VReg) : GReg := x
def laneOk (n : VReg) (ew : BitVec 2) : Bool := decide (n.val < laneCount (ewBits ew))
def vecMove (vfn : Nat) (lc : LC) (vd va vb : VReg) (k : KReg) (z : Bool) (ew : BitVec 2) (bad : Bool)
    (f : Nat → Word64 → Regs → Vec) (s : State) : Out :=
  vecInsn 0x24 vfn lc vd va vb k z ew (ew == 3 || bad) (vecTo lc vd fun r => f (ewBits ew) (readK r k) r) s
def execVperm (lc : LC) (vd va vb : VReg) (k : KReg) (z : Bool) (ew : BitVec 2) (s : State) : Out :=
  vecMove 0 lc vd va vb k z ew (false) (fun w m r => vPerm w m z (readV r vd) (readV r va) (readV r vb)) s
def execVperm2 (lc : LC) (vd va vb : VReg) (k : KReg) (z : Bool) (ew : BitVec 2) (s : State) : Out :=
  vecMove 1 lc vd va vb k z ew (false) (fun w m r => vPerm2 w m z (readV r vd) (readV r va) (readV r vb)) s
def execVbcstl (lc : LC) (vd va vb : VReg) (k : KReg) (z : Bool) (ew : BitVec 2) (s : State) : Out :=
  vecMove 4 lc vd va vb k z ew (!laneOk vb ew) (fun w m r => vBcst w m z (readV r vd) (laneAt (lanesOf w (readV r va)) vb.val)) s
def execVrev (lc : LC) (vd va vb : VReg) (k : KReg) (z : Bool) (ew : BitVec 2) (s : State) : Out :=
  vecMove 8 lc vd va vb k z ew (vb != 0) (fun w m r => vRev w m z (readV r vd) (readV r va)) s
def execVcompress (lc : LC) (vd va vb : VReg) (k : KReg) (z : Bool) (ew : BitVec 2) (s : State) : Out :=
  vecMove 2 lc vd va vb k z ew (vb != 0 || z) (fun w m r => vCompress w m (readV r va)) s
def execVexpand (lc : LC) (vd va vb : VReg) (k : KReg) (z : Bool) (ew : BitVec 2) (s : State) : Out :=
  vecMove 3 lc vd va vb k z ew (vb != 0) (fun w m r => vExpand w m z (readV r vd) (readV r va)) s
def execVbcstg (lc : LC) (vd va vb : VReg) (k : KReg) (z : Bool) (ew : BitVec 2) (s : State) : Out :=
  vecMove 5 lc vd va vb k z ew (vb != 0) (fun w m r => vBcst w m z (readV r vd) (readG r (gOf va)).toNat) s
def execVins (lc : LC) (vd va vb : VReg) (k : KReg) (z : Bool) (ew : BitVec 2) (s : State) : Out :=
  vecMove 6 lc vd va vb k z ew (!laneOk vb ew || k != 0 || z) (fun w m r => let _ := m; vIns w vb.val (readV r vd) (readG r (gOf va))) s
def execVext (lc : LC) (vd va vb : VReg) (k : KReg) (z : Bool) (ew : BitVec 2) (s : State) : Out :=
  vecInsn 0x24 7 lc vd va vb k z ew (ew == 3 || !laneOk vb ew || k != 0 || z)
    (vecRegs lc fun r => writeG r (gOf vd) (vExt (ewBits ew) vb.val (readV r va))) s

/-! ### Reductions (R137) -/

def vecRed (op : RedOp) (vfn : Nat) (lc : LC) (vd va vb : VReg) (k : KReg) (z : Bool) (ew : BitVec 2) (s : State) : Out :=
  vecInsn 0x25 vfn lc vd va vb k z ew (ew == 3 || vb != 0 || z) (vecTo lc vd fun r => vRed (ewBits ew) op (readK r k) (readV r va)) s
def execVredadd (lc : LC) (vd va vb : VReg) (k : KReg) (z : Bool) (ew : BitVec 2) (s : State) : Out := vecRed .add 0 lc vd va vb k z ew s
def execVredsmin (lc : LC) (vd va vb : VReg) (k : KReg) (z : Bool) (ew : BitVec 2) (s : State) : Out := vecRed .smin 1 lc vd va vb k z ew s
def execVredsmax (lc : LC) (vd va vb : VReg) (k : KReg) (z : Bool) (ew : BitVec 2) (s : State) : Out := vecRed .smax 2 lc vd va vb k z ew s
def execVredumin (lc : LC) (vd va vb : VReg) (k : KReg) (z : Bool) (ew : BitVec 2) (s : State) : Out := vecRed .umin 3 lc vd va vb k z ew s
def execVredumax (lc : LC) (vd va vb : VReg) (k : KReg) (z : Bool) (ew : BitVec 2) (s : State) : Out := vecRed .umax 4 lc vd va vb k z ew s
def execVredand (lc : LC) (vd va vb : VReg) (k : KReg) (z : Bool) (ew : BitVec 2) (s : State) : Out := vecRed .and 5 lc vd va vb k z ew s
def execVredor (lc : LC) (vd va vb : VReg) (k : KReg) (z : Bool) (ew : BitVec 2) (s : State) : Out := vecRed .or 6 lc vd va vb k z ew s
def execVredxor (lc : LC) (vd va vb : VReg) (k : KReg) (z : Bool) (ew : BitVec 2) (s : State) : Out := vecRed .xor 7 lc vd va vb k z ew s
/-- A floating-point reduction. DESIGN CHOICE: a combination is of more lanes than one; which of the active lanes a trap names is left
open, a free word. [DESIGN CHOICE, log entry 31] -/
def vecFRed (op : FRedOp) (vfn : Nat) (lc : LC) (vd va vb : VReg) (k : KReg) (z : Bool) (ew : BitVec 2) (s : State) : Out :=
  vecInsn 0x25 vfn lc vd va vb k z ew (!fpEw ew || vb != 0 || z) (fun a =>
    let r := regsOf a lc
    let w := ewBits ew
    let o := vFRed w (fpCtl r) op (readK r k) (readV r va)
    let d : Word64 × State := if o.2.bits &&& fpEnables r = 0 then (0, a) else drawWord a
    fpEnd lc o.2 (lowBits (readK r k &&& d.1) (laneCount w)).toNat (fun q => writeV q vd o.1) (activeCount (readK r k) w) d.2) s
def execVfredadd (lc : LC) (vd va vb : VReg) (k : KReg) (z : Bool) (ew : BitVec 2) (s : State) : Out := vecFRed .add 8 lc vd va vb k z ew s
def execVfredmin (lc : LC) (vd va vb : VReg) (k : KReg) (z : Bool) (ew : BitVec 2) (s : State) : Out := vecFRed .min 9 lc vd va vb k z ew s
def execVfredmax (lc : LC) (vd va vb : VReg) (k : KReg) (z : Bool) (ew : BitVec 2) (s : State) : Out := vecFRed .max 10 lc vd va vb k z ew s

/-! ### Compares (R138, R139) -/

/-- A mask register named in the low three bits of a field whose other bits are zero (R126). -/
def maskReg (x : VReg) : KReg := ⟨x.val % 8, Nat.mod_lt _ (by decide)⟩
def maskRegOk (x : VReg) : Bool := decide (x.val < 8)
def vecCmp (op : VCmpOp) (vfn : Nat) (lc : LC) (vd va vb : VReg) (k : KReg) (z : Bool) (ew : BitVec 2) (s : State) : Out :=
  vecInsn 0x26 vfn lc vd va vb k z ew (ew == 3 || !maskRegOk vd || z)
    (vecRegs lc fun r => writeK r (maskReg vd) (vCmp (ewBits ew) op (readK r k) (readV r va) (readV r vb))) s
def execVcmpeq (lc : LC) (vd va vb : VReg) (k : KReg) (z : Bool) (ew : BitVec 2) (s : State) : Out := vecCmp .eq 0 lc vd va vb k z ew s
def execVcmpne (lc : LC) (vd va vb : VReg) (k : KReg) (z : Bool) (ew : BitVec 2) (s : State) : Out := vecCmp .ne 1 lc vd va vb k z ew s
def execVcmplt (lc : LC) (vd va vb : VReg) (k : KReg) (z : Bool) (ew : BitVec 2) (s : State) : Out := vecCmp .lt 2 lc vd va vb k z ew s
def execVcmple (lc : LC) (vd va vb : VReg) (k : KReg) (z : Bool) (ew : BitVec 2) (s : State) : Out := vecCmp .le 3 lc vd va vb k z ew s
def execVcmpltu (lc : LC) (vd va vb : VReg) (k : KReg) (z : Bool) (ew : BitVec 2) (s : State) : Out := vecCmp .ltu 4 lc vd va vb k z ew s
def execVcmpleu (lc : LC) (vd va vb : VReg) (k : KReg) (z : Bool) (ew : BitVec 2) (s : State) : Out := vecCmp .leu 5 lc vd va vb k z ew s
def vecFCmp (op : FCmp) (vfn : Nat) (lc : LC) (vd va vb : VReg) (k : KReg) (z : Bool) (ew : BitVec 2) (s : State) : Out :=
  vecInsn 0x26 vfn lc vd va vb k z ew (!fpEw ew || !maskRegOk vd || z) (fun a =>
    let r := regsOf a lc
    let w := ewBits ew
    let o := vFCmp w (fpCtl r) op (readK r k) (readV r va) (readV r vb)
    fpLanes lc o.2 (fun q => writeK q (maskReg vd) o.1) (activeCount (readK r k) w) a) s
def execVfcmpeq (lc : LC) (vd va vb : VReg) (k : KReg) (z : Bool) (ew : BitVec 2) (s : State) : Out := vecFCmp .eq 8 lc vd va vb k z ew s
def execVfcmpne (lc : LC) (vd va vb : VReg) (k : KReg) (z : Bool) (ew : BitVec 2) (s : State) : Out := vecFCmp .ne 9 lc vd va vb k z ew s
def execVfcmplt (lc : LC) (vd va vb : VReg) (k : KReg) (z : Bool) (ew : BitVec 2) (s : State) : Out := vecFCmp .lt 10 lc vd va vb k z ew s
def execVfcmple (lc : LC) (vd va vb : VReg) (k : KReg) (z : Bool) (ew : BitVec 2) (s : State) : Out := vecFCmp .le 11 lc vd va vb k z ew s
def execVfcmpun (lc : LC) (vd va vb : VReg) (k : KReg) (z : Bool) (ew : BitVec 2) (s : State) : Out := vecFCmp .un 12 lc vd va vb k z ew s
/-- `VFCMPF`: lane 0 alone, quiet. -/
def execVfcmpf (lc : LC) (vd va vb : VReg) (k : KReg) (z : Bool) (ew : BitVec 2) (s : State) : Out :=
  vecInsn 0x26 16 lc vd va vb k z ew (!fpEw ew || vd != 0 || k != 0 || z) (fun a =>
    let r := regsOf a lc
    let w := ewBits ew
    let x := laneAt (lanesOf w (readV r va)) 0
    let y := laneAt (lanesOf w (readV r vb)) 0
    let c := fpCtl r
    let fl := (fCompare (fmtOf w) c .eq x y).2
    let rel := fRel (fUnpack (fmtOf w) c.daz x) (fUnpack (fmtOf w) c.daz y)
    fpEnd lc fl 1 (fun q => { q with flags := frelFlags rel }) 1 a) s

/-! ### Mask instructions (R140) -/

/-- A logical operation on all 64 bits. -/
def kLogic (op : KOp) (vfn : Nat) (unary : Bool) (lc : LC) (vd va vb : VReg) (k : KReg) (z : Bool) (ew : BitVec 2) (s : State) : Out :=
  vecInsn 0x27 vfn lc vd va vb k z ew
    (ew != 0 || k != 0 || z || !maskRegOk vd || !maskRegOk va || (if unary then vb != 0 else !maskRegOk vb))
    (vecRegs lc fun r => writeK r (maskReg vd) (kOp op (readK r (maskReg va)) (readK r (maskReg vb)))) s
def execKand (lc : LC) (vd va vb : VReg) (k : KReg) (z : Bool) (ew : BitVec 2) (s : State) : Out := kLogic .and 0 false lc vd va vb k z ew s
def execKor (lc : LC) (vd va vb : VReg) (k : KReg) (z : Bool) (ew : BitVec 2) (s : State) : Out := kLogic .or 1 false lc vd va vb k z ew s
def execKxor (lc : LC) (vd va vb : VReg) (k : KReg) (z : Bool) (ew : BitVec 2) (s : State) : Out := kLogic .xor 2 false lc vd va vb k z ew s
def execKandn (lc : LC) (vd va vb : VReg) (k : KReg) (z : Bool) (ew : BitVec 2) (s : State) : Out := kLogic .andn 3 false lc vd va vb k z ew s
def execKnot (lc : LC) (vd va vb : VReg) (k : KReg) (z : Bool) (ew : BitVec 2) (s : State) : Out := kLogic .not 4 true lc vd va vb k z ew s
def execKmovg (lc : LC) (vd va vb : VReg) (k : KReg) (z : Bool) (ew : BitVec 2) (s : State) : Out :=
  vecInsn 0x27 8 lc vd va vb k z ew (ew != 0 || k != 0 || z || !maskRegOk va || vb != 0)
    (vecRegs lc fun r => writeG r (gOf vd) (readK r (maskReg va))) s
def execKmovk (lc : LC) (vd va vb : VReg) (k : KReg) (z : Bool) (ew : BitVec 2) (s : State) : Out :=
  vecInsn 0x27 9 lc vd va vb k z ew (ew != 0 || k != 0 || z || !maskRegOk vd || vb != 0)
    (vecRegs lc fun r => writeK r (maskReg vd) (readG r (gOf va))) s
def execKpopc (lc : LC) (vd va vb : VReg) (k : KReg) (z : Bool) (ew : BitVec 2) (s : State) : Out :=
  vecInsn 0x27 10 lc vd va vb k z ew (ew == 3 || k != 0 || z || !maskRegOk va || vb != 0)
    (vecRegs lc fun r => writeG r (gOf vd) (BitVec.ofNat 64 (activeCount (readK r (maskReg va)) (ewBits ew)))) s
def execKfirst (lc : LC) (vd va vb : VReg) (k : KReg) (z : Bool) (ew : BitVec 2) (s : State) : Out :=
  vecInsn 0x27 11 lc vd va vb k z ew (ew == 3 || k != 0 || z || !maskRegOk va || vb != 0)
    (vecRegs lc fun r => writeG r (gOf vd) (BitVec.ofNat 64 (firstOne (readK r (maskReg va)) (laneCount (ewBits ew))))) s

/-! ### Vector loads and stores (R141 to R143): the checks of the elements -/

/-- An element that passed its checks: the lanes it fills, its virtual address, how it is accessed. -/
structure Elem where
  lanes : List Nat
  va : Word64
  acc : Access
deriving DecidableEq, Repr

/-- The checks of a vector access, element by element in their order: those that passed, what their commit owes, and the first that failed
with its element number. -/
structure Checked where
  elems : List Elem := []
  ads : List AdUpdate := []
  pages : List Nat := []
  bad : Option (Nat × Exc) := none
deriving DecidableEq, Repr

/-- Check elements of `n` bytes in order; `numbered` where the exception reports the element (R146). [DEDUCED, log entry 30] -/
def checkElems (lc : LC) (w : Want) (numbered : Bool) (n : Nat) (ld st : Bool) : List (List Nat × Word64) → Checked → State → Checked × State
  | [], k, s => (k, s)
  | e :: r, k, s =>
    let i := e.1.headD 0
    let el := if numbered then some i else none
    if !aligned e.2 n then ({ k with bad := some (i, { cause := excAlign, addr := e.2, acc := w.acc, elem := el }) }, s)
    else
      let x := access lc.val { w with elem := el } e.2 n ld st s
      match x.1 with
      | .error ex => ({ k with bad := some (i, ex) }, x.2)
      | .ok a =>
        checkElems lc w numbered n ld st r
          { k with elems := k.elems ++ [{ lanes := e.1, va := e.2, acc := a.acc }], ads := k.ads ++ a.ads, pages := a.page :: k.pages } x.2
def vWantLoad : Want := { wantLoad with noControl := true }
def vWantStore : Want := { wantStore with noControl := true }
def vWantGather : Want := { wantLoad with noControl := true, noMt23 := true }
def vWantScatter : Want := { wantStore with noControl := true, noMt23 := true }
/-- The active lanes with the addresses a vector access gives them. -/
def laneAddrs (mask : Word64) (w : Nat) (f : Nat → Word64) : List (List Nat × Word64) :=
  ((List.range (laneCount w)).filter (active mask)).map fun i => ([i], f i)

/-! ### Vector loads: the value -/

/-- The accesses of a vector load (R142): elements that follow one another in a line are read together; the elements of a gather are not
(R145). -/
def lineReads (n : Nat) : List Elem → List LineRead
  | [] => []
  | e :: r =>
    let one : LineRead := { acc := e.acc, n := n, parts := [(e.lanes, 0)] }
    match lineReads n r with
    | x :: xs =>
      if lineOf x.acc.pa = lineOf e.acc.pa ∧ e.acc.pa < x.acc.pa then
        let d := x.acc.pa - e.acc.pa
        { acc := e.acc, n := d + x.n, parts := (e.lanes, 0) :: x.parts.map fun p => (p.1, p.2 + d) } :: xs
      else one :: x :: xs
    | [] => [one]
def singleReads (n : Nat) (es : List Elem) : List LineRead := es.map fun e => { acc := e.acc, n := n, parts := [(e.lanes, 0)] }
/-- Make the accesses of a load that is not deferred, each filling its lanes. -/
def readLanes (lc : LC) (w : Nat) (nt : Bool) : List LineRead → Vec → State → Vec × State
  | [], v, s => (v, s)
  | e :: r, v, s =>
    let x := loadBytes lc.val e.acc e.n nt s
    readLanes lc w nt r (fillParts w e (natOfBytes x.1) v) x.2
/-- The destination before its elements come: inactive lanes keep or lose their value (R125). -/
def loadBase (mask : Word64) (z : Bool) (w : Nat) (old : Vec) : Vec :=
  vecOf w (maskLanes mask z 0 (lanesOf w old) (List.replicate (laneCount w) 0))
def elemEvents (lc : LC) (load : Bool) (k : Checked) (s : State) : List PmEvent :=
  match k.elems with
  | e :: _ => accessEvents s lc.val e.va e.acc load
  | [] => []
/-- A vector load whose elements have been checked (R101, R142): deferred as a whole where an active element lies on an MT 2 page; `mk`
is a mask register written with it (R143). [DEDUCED, log entry 30] -/
def vecLoad (lc : LC) (vt : VReg) (w : Nat) (nt gather : Bool) (base : Vec) (mk : Option (KReg × Word64)) (k : Checked) (s : State) : Eff :=
  let reads := if gather then singleReads (w / 8) k.elems else lineReads (w / 8) k.elems
  let evs := vecEv s lc :: elemEvents lc true k s
  let c := openGroup (coreOf s lc.val)
  let withMask (c : Core) : Core := match mk with | some m => pushShadow (.mask m.1) (.word m.2) c | none => c
  if (k.elems.any fun e => e.acc.mt == 2) || reads.any fun e => mustWait c e.acc e.n false then
    let d := nextDeferred c
    let c2 := holdAll (k.ads.map .ad ++ [.vload d.1 w reads base]) k.pages d.2
    .ok (setCore s lc.val (withMask (pushShadow (.vec vt) (.deferred d.1) c2))) (c.pc + 4) evs
  else
    let x := readLanes lc w nt reads base s
    let c2 := holdAll (k.ads.map .ad) k.pages (openGroup (coreOf x.2 lc.val))
    .ok (setCore x.2 lc.val (withMask (pushShadow (.vec vt) (.vector x.1) c2))) (c.pc + 4) evs
/-- The address of a contiguous access: an immediate of 64-byte units, or a register of elements. -/
def vecImm (r : Regs) (rb : GReg) (vb : VReg) (unit : Nat) : Word64 :=
  readG r rb + (BitVec.ofNat 5 vb.val).signExtend 64 * BitVec.ofNat 64 unit
def vecIdx (r : Regs) (rb : GReg) (vb : VReg) (size : Nat) : Word64 := indexAddr (readG r rb) (readG r (gOf vb)) size
def elemSize (ew : BitVec 2) : Nat := ewBits ew / 8
/-- A contiguous load of the active elements. -/
def vldRow (vfn : Nat) (nt : Bool) (addr : Regs → Word64) (lc : LC) (vt : VReg) (rb : GReg) (vb : VReg) (k : KReg) (z : Bool) (ew : BitVec 2)
    (s : State) : Out :=
  vecInsn 0x2C vfn lc vt rb vb k z ew (ew == 3) (fun a =>
    let r := regsOf a lc
    let w := ewBits ew
    let va := addr r
    if !aligned va (w / 8) then .exc { cause := excAlign, addr := va, acc := 1 } a
    else
      let x := checkElems lc vWantLoad false (w / 8) true false (laneAddrs (readK r k) w fun i => va + BitVec.ofNat 64 (i * (w / 8))) {} a
      match x.1.bad with
      | some e => .exc e.2 x.2
      | none => vecLoad lc vt w nt false (loadBase (readK r k) z w (readV r vt)) none x.1 x.2) s
def execVld (lc : LC) (vt : VReg) (rb : GReg) (vb : VReg) (k : KReg) (z : Bool) (ew : BitVec 2) (s : State) : Out :=
  vldRow 0 false (fun r => vecImm r rb vb 64) lc vt rb vb k z ew s
def execVldX (lc : LC) (vt : VReg) (rb : GReg) (vb : VReg) (k : KReg) (z : Bool) (ew : BitVec 2) (s : State) : Out :=
  vldRow 1 false (fun r => vecIdx r rb vb (elemSize ew)) lc vt rb vb k z ew s
def execVldNt (lc : LC) (vt : VReg) (rb : GReg) (vb : VReg) (k : KReg) (z : Bool) (ew : BitVec 2) (s : State) : Out :=
  vldRow 3 true (fun r => vecImm r rb vb 64) lc vt rb vb k z ew s
/-- `VLD.FF` (R143): past the lowest active element, a failing one trims the mask and is not accessed. [DEDUCED, log entry 32] -/
def execVldFf (lc : LC) (vt : VReg) (rb : GReg) (vb : VReg) (k : KReg) (z : Bool) (ew : BitVec 2) (s : State) : Out :=
  vecInsn 0x2C 2 lc vt rb vb k z ew (ew == 3 || k == 0) (fun a =>
    let r := regsOf a lc
    let w := ewBits ew
    let va := vecImm r rb vb 64
    if !aligned va (w / 8) then .exc { cause := excAlign, addr := va, acc := 1 } a
    else
      let x := checkElems lc vWantLoad false (w / 8) true false (laneAddrs (readK r k) w fun i => va + BitVec.ofNat 64 (i * (w / 8))) {} a
      let go (mask : Word64) : Eff := vecLoad lc vt w false false (loadBase mask z w (readV r vt)) (some (k, mask)) x.1 x.2
      match x.1.bad with
      | some e => if x.1.elems.isEmpty || e.2.cause == excDebug then .exc e.2 x.2 else go (lowBits (readK r k) e.1)
      | none => go (lowBits (readK r k) (laneCount w))) s
/-- `VLDBC`: one element into every active lane; no access where none is active. -/
def vldbcRow (vfn : Nat) (addr : Regs → Word64) (lc : LC) (vt : VReg) (rb : GReg) (vb : VReg) (k : KReg) (z : Bool) (ew : BitVec 2)
    (s : State) : Out :=
  vecInsn 0x2C vfn lc vt rb vb k z ew (ew == 3) (fun a =>
    let r := regsOf a lc
    let w := ewBits ew
    let va := addr r
    let on := (List.range (laneCount w)).filter (active (readK r k))
    if !aligned va (w / 8) then .exc { cause := excAlign, addr := va, acc := 1 } a
    else
      let x := checkElems lc vWantLoad false (w / 8) true false (if on.isEmpty then [] else [(on, va)]) {} a
      match x.1.bad with
      | some e => .exc e.2 x.2
      | none => vecLoad lc vt w false false (loadBase (readK r k) z w (readV r vt)) none x.1 x.2) s
def execVldbc (lc : LC) (vt : VReg) (rb : GReg) (vb : VReg) (k : KReg) (z : Bool) (ew : BitVec 2) (s : State) : Out :=
  vldbcRow 4 (fun r => vecImm r rb vb (elemSize ew)) lc vt rb vb k z ew s
def execVldbcX (lc : LC) (vt : VReg) (rb : GReg) (vb : VReg) (k : KReg) (z : Bool) (ew : BitVec 2) (s : State) : Out :=
  vldbcRow 5 (fun r => vecIdx r rb vb (elemSize ew)) lc vt rb vb k z ew s

/-! ### Vector stores and scatters -/

/-- Elements that follow one another without a gap in a line are stored together (R142). -/
def lineStores (w : Nat) (v : Vec) : List Elem → List (Access × List Byte)
  | [] => []
  | e :: r =>
    let bs := bytesOfNat (laneAt (lanesOf w v) (e.lanes.headD 0)) (w / 8)
    match lineStores w v r with
    | x :: xs => if lineOf x.1.pa = lineOf e.acc.pa ∧ x.1.pa = e.acc.pa + w / 8 then (e.acc, bs ++ x.2) :: xs else (e.acc, bs) :: x :: xs
    | [] => [(e.acc, bs)]
/-- The stores of the checked elements, in element order (R145); a whole line written at once where `whole`, the elements of a scatter one by
one (R142). [DEDUCED, log entry 32] -/
def elemStores (w : Nat) (v : Vec) (whole scatter : Bool) (k : Checked) : List Held :=
  let one (e : Elem) : Held := .store e.acc (bytesOfNat (laneAt (lanesOf w v) (e.lanes.headD 0)) (w / 8)) false
  match whole, k.elems with
  | true, e :: _ => [.store e.acc (bytesOfNat v.toNat 64) true]
  | _, es => if scatter then es.map one else (lineStores w v es).map fun x => .store x.1 x.2 false
/-- [DEDUCED, log entry 30] -/
def vecStore (lc : LC) (w : Nat) (v : Vec) (whole scatter : Bool) (k : Checked) (s : State) : Eff :=
  doneIf (giveOrDo lc (elemStores w v whole scatter k) k.ads k.pages s) (nextPc s lc) (vecEv s lc :: elemEvents lc false k s)
/-- A contiguous store of the active elements. An unmasked `VST.NT` of whole aligned lines on an MT 0 page is one full-line write. -/
def vstRow (vfn : Nat) (nt : Bool) (addr : Regs → Word64) (lc : LC) (vt : VReg) (rb : GReg) (vb : VReg) (k : KReg) (z : Bool) (ew : BitVec 2)
    (s : State) : Out :=
  vecInsn 0x2C vfn lc vt rb vb k z ew (ew == 3 || z) (fun a =>
    let r := regsOf a lc
    let w := ewBits ew
    let va := addr r
    if !aligned va (w / 8) then .exc { cause := excAlign, addr := va, acc := 2 } a
    else
      let x := checkElems lc vWantStore false (w / 8) false true (laneAddrs (readK r k) w fun i => va + BitVec.ofNat 64 (i * (w / 8))) {} a
      match x.1.bad with
      | some e => .exc e.2 x.2
      | none => vecStore lc w (readV r vt) (nt && k == 0 && ew == 0 && aligned va 64 && (x.1.elems.all fun e => e.acc.mt == 0)) false x.1 x.2) s
def execVst (lc : LC) (vt : VReg) (rb : GReg) (vb : VReg) (k : KReg) (z : Bool) (ew : BitVec 2) (s : State) : Out :=
  vstRow 8 false (fun r => vecImm r rb vb 64) lc vt rb vb k z ew s
def execVstX (lc : LC) (vt : VReg) (rb : GReg) (vb : VReg) (k : KReg) (z : Bool) (ew : BitVec 2) (s : State) : Out :=
  vstRow 9 false (fun r => vecIdx r rb vb (elemSize ew)) lc vt rb vb k z ew s
/-- [DEDUCED, log entry 32] -/
def execVstNt (lc : LC) (vt : VReg) (rb : GReg) (vb : VReg) (k : KReg) (z : Bool) (ew : BitVec 2) (s : State) : Out :=
  vstRow 11 true (fun r => vecImm r rb vb 64) lc vt rb vb k z ew s

/-! ### Gathers and scatters (R144 to R146) -/

/-- The element addresses: the index lanes sign-extended, scaled by the element size in the `.S` forms. -/
def gatherAddrs (r : Regs) (rb : GReg) (vi : VReg) (k : KReg) (w scale : Nat) : List (List Nat × Word64) :=
  let ix := lanesOf w (readV r vi)
  laneAddrs (readK r k) w fun i => readG r rb + BitVec.ofInt 64 (signedLane w (laneAt ix i) * scale)
/-- [DESIGN CHOICE, log entry 94] -/
def gatherRow (vfn : Nat) (scaled : Bool) (lc : LC) (vt : VReg) (rb : GReg) (vb : VReg) (k : KReg) (z : Bool) (ew : BitVec 2) (s : State) : Out :=
  vecInsn 0x2D vfn lc vt rb vb k z ew (!fpEw ew) (fun a =>
    let r := regsOf a lc
    let w := ewBits ew
    let x := checkElems lc vWantGather true (w / 8) true false (gatherAddrs r rb vb k w (if scaled then w / 8 else 1)) {} a
    match x.1.bad with
    | some e => .exc e.2 x.2
    | none => vecLoad lc vt w false true (loadBase (readK r k) z w (readV r vt)) none x.1 x.2) s
def execVgather (lc : LC) (vt : VReg) (rb : GReg) (vb : VReg) (k : KReg) (z : Bool) (ew : BitVec 2) (s : State) : Out :=
  gatherRow 0 false lc vt rb vb k z ew s
def execVgatherS (lc : LC) (vt : VReg) (rb : GReg) (vb : VReg) (k : KReg) (z : Bool) (ew : BitVec 2) (s : State) : Out :=
  gatherRow 1 true lc vt rb vb k z ew s
def scatterRow (vfn : Nat) (scaled : Bool) (lc : LC) (vt : VReg) (rb : GReg) (vb : VReg) (k : KReg) (z : Bool) (ew : BitVec 2) (s : State) : Out :=
  vecInsn 0x2D vfn lc vt rb vb k z ew (!fpEw ew || z) (fun a =>
    let r := regsOf a lc
    let w := ewBits ew
    let x := checkElems lc vWantScatter true (w / 8) false true (gatherAddrs r rb vb k w (if scaled then w / 8 else 1)) {} a
    match x.1.bad with
    | some e => .exc e.2 x.2
    | none => vecStore lc w (readV r vt) false true x.1 x.2) s
def execVscatter (lc : LC) (vt : VReg) (rb : GReg) (vb : VReg) (k : KReg) (z : Bool) (ew : BitVec 2) (s : State) : Out :=
  scatterRow 4 false lc vt rb vb k z ew s
def execVscatterS (lc : LC) (vt : VReg) (rb : GReg) (vb : VReg) (k : KReg) (z : Bool) (ew : BitVec 2) (s : State) : Out :=
  scatterRow 5 true lc vt rb vb k z ew s

end Sys2Proof.Machine
end

