-- ==== Sys2Proof/Machine/CoreLong.lean ====
section
/-! DEFINITION. The long instructions (06 R150 to R163): each command is one micro-step. -/

namespace Sys2Proof.Machine

/-! ### Ranges of a micro-step -/

def longWantRead : Want := { kind := .block, rd := true, noMt2 := true, cause := excLoad, acc := 1 }
def longWantWrite : Want := { kind := .block, wr := true, noMt2 := true, cause := excStore, acc := 2 }
/-- Check the bytes of a range line by line in ascending order (R155, R156); sums are exact, and an address above 64 bits is not canonical. -/
def checkPieces (lc : LC) (w : Want) (wr : Bool) : List (Nat × Nat) → State → Except Exc (List (Word64 × Nat × Xlat)) × State
  | [], s => (.ok [], s)
  | p :: r, s =>
    let va := BitVec.ofNat 64 p.1
    if 2 ^ 64 ≤ p.1 then (.error { cause := w.cause, addr := va, reason := 1, acc := w.acc }, s)
    else
      let x := accessPart lc.val w va p.2 (!wr) wr (wr && decide (p.2 < 64)) s
      match x.1 with
      | .error e => (.error e, x.2)
      | .ok a =>
        let y := checkPieces lc w wr r x.2
        match y.1 with
        | .error e => (.error e, y.2)
        | .ok l => (.ok ((va, p.2, a) :: l), y.2)
def readPieces (lc : LC) : List (Word64 × Nat × Xlat) → State → List Byte × State
  | [], s => ([], s)
  | p :: r, s =>
    let x := loadNow lc.val p.2.2.acc p.2.1 false s
    let y := readPieces lc r x.2
    (x.1 ++ y.1, y.2)
/-- Write one piece (R158): a whole line replaces what it held, poison with it; `nt` writes it as a full-line write at its home. -/
def writePiece (lc : LC) (nt : Bool) (a : Access) (bs : List Byte) (s : State) : State :=
  let s1 := storeNow lc.val a bs nt s
  if bs.length = 64 && backed s1 a.pa && !lineFenced s1 (lineOf a.pa) then setPoison (lineOf a.pa) false s1 else s1
def writePieces (lc : LC) (nt : Bool) : List (Word64 × Nat × Xlat) → List Byte → State → State
  | [], _, s => s
  | p :: r, bs, s => writePieces lc nt r (bs.drop p.2.1) (writePiece lc nt p.2.2.acc (bs.take p.2.1) s)
def pieceAds (l : List (Word64 × Nat × Xlat)) : List AdUpdate := l.flatMap fun p => p.2.2.ads
/-- The events of the accesses, but those of load and store instructions (23 R565). -/
def pieceEvents (lc : LC) (l : List (Word64 × Nat × Xlat)) (load : Bool) (s : State) : List PmEvent :=
  (l.flatMap fun p => accessEvents s lc.val p.1 p.2.2.acc load).filter fun e => decide (0x22 < e.event)

/-! ### One micro-step -/

/-- What a micro-step is to do: the ranges it reads, in the order of their checks, the range it writes, and what later
micro-steps read (R162). -/
structure Micro where
  reads : List (Nat × Nat)
  second : List (Nat × Nat) := []
  writes : List (Nat × Nat) := []
  ahead : List (Nat × Nat) := []
deriving DecidableEq, Repr

/-- What the bytes read and the registers make of a micro-step: bytes to write, the registers, and whether the instruction ends. -/
abbrev MicroEnd := List Byte → List Byte → List Byte × (Regs → Regs) × Bool

/-- [DEDUCED, log entry 33] -/
def checkMicro (lc : LC) (m : Micro) (s : State) :
    Except Exc (List (Word64 × Nat × Xlat) × List (Word64 × Nat × Xlat) × List (Word64 × Nat × Xlat)) × State :=
  let x := checkPieces lc longWantRead false m.reads s
  match x.1 with
  | .error e => (.error e, x.2)
  | .ok l1 =>
    let y := checkPieces lc longWantRead false m.second x.2
    match y.1 with
    | .error e => (.error e, y.2)
    | .ok l2 =>
      let z := checkPieces lc longWantWrite true m.writes y.2
      match z.1 with
      | .error e => (.error e, z.2)
      | .ok l3 => (.ok (l1, l2, l3), z.2)
/-- Read ahead (R162): the reads of up to 32 later micro-steps, as prefetches into the L1D of the lines it does not hold, of pages that are
MT 0. A core whose caches are off keeps nothing and reads nothing ahead. [DESIGN CHOICE, log entry 98] -/
def readAhead (lc : LC) (spans : List (Nat × Nat)) (s : State) : State :=
  if l2On s (pcOf s lc.val) then
    spans.foldl (fun a p => if p.1 < 2 ^ 64 then prefetchNew lc (BitVec.ofNat 64 p.1) a else a) s
  else s
/-- Perform a micro-step: all its checks, its reads, its writes, the new register values all together (R152, R156). [DEDUCED, log entry 33] -/
def microStep (lc : LC) (nt : Bool) (m : Micro) (fin : MicroEnd) (s : State) : Eff :=
  let x := checkMicro lc m s
  match x.1 with
  | .error e => .exc e x.2
  | .ok (l1, l2, l3) =>
    let y := setAds lc.val (pieceAds l1 ++ pieceAds l2 ++ pieceAds l3) x.2
    if !y.1 then .hold y.2
    else
      let evs := pieceEvents lc (l1 ++ l2) true y.2 ++ pieceEvents lc l3 false y.2
      let a := readPieces lc l1 y.2
      let b := readPieces lc l2 a.2
      let e := fin a.1 b.1
      let s1 := updRegs lc.val e.2.1 (writePieces lc nt l3 e.1 b.2)
      if e.2.2 then .ok s1 (nextPc s1 lc) evs else .micro (readAhead lc m.ahead s1) evs
/-- A long instruction (R151, R157): `dataOp` where ra is an address; a zero length ends it at once with `zero`. [DEDUCED, log entry 33] -/
def longInsn (fn : Nat) (addrA : Bool) (lc : LC) (f : Bool) (rd ra rb : GReg) (zero : Regs → Regs) (body : Word64 → Word64 → Word64 → State → Eff)
    (s : State) : Out :=
  .next (runInsn lc true (encA 0x3A rd ra rb f fn) (fun a =>
    if f || rd == 0 || rb == 0 || (addrA && ra == 0) || rd == ra || rd == rb || ra == rb then illegal a
    else
      let r := regsOf a lc
      if readG r rb = 0 then doneRegs lc zero a else body (readG r rd) (readG r ra) (readG r rb) a) s)
/-- Bytes of an ascending micro-step (R152). -/
def ascending (gd gb : Word64) : Nat := min gb.toNat (64 - gd.toNat % 64)
/-- Bytes of a descending micro-step (R152). -/
def descending (gd gb : Word64) : Nat :=
  let e := gd.toNat + gb.toNat
  e - max gd.toNat (e - 1 - (e - 1) % 64)
/-- [DEDUCED, log entry 33] -/
def add3 (rd ra rb : GReg) (up n : Nat) (both : Bool) (gd ga gb : Word64) (r : Regs) : Regs :=
  let r1 := writeG r rd (gd + BitVec.ofNat 64 up)
  let r2 := if both then writeG r1 ra (ga + BitVec.ofNat 64 up) else r1
  writeG r2 rb (gb - BitVec.ofNat 64 n)

/-! ### The instructions -/

/-- What up to 32 later micro-steps read of `left` bytes, upward from an address or downward to one (R162). -/
def aheadUp (a left : Nat) : List (Nat × Nat) := lineSpans a (min left 2048)
def aheadDown (a left : Nat) : List (Nat × Nat) := (lineSpans (a - min left 2048) (min left 2048)).reverse
def bcopyStep (nt : Bool) (lc : LC) (rd ra rb : GReg) (gd ga gb : Word64) (s : State) : Eff :=
  if ga.toNat < gd.toNat ∧ gd.toNat < ga.toNat + gb.toNat then
    let n := descending gd gb
    microStep lc nt
      { reads := lineSpans (ga.toNat + gb.toNat - n) n,
        writes := [(gd.toNat + gb.toNat - n, n)],
        ahead := aheadDown (ga.toNat + gb.toNat - n) (gb.toNat - n) }
      (fun bs _ => (bs, add3 rd ra rb 0 n true gd ga gb, decide (gb.toNat = n))) s
  else
    let n := ascending gd gb
    microStep lc nt { reads := lineSpans ga.toNat n, writes := [(gd.toNat, n)], ahead := aheadUp (ga.toNat + n) (gb.toNat - n) }
      (fun bs _ => (bs, add3 rd ra rb n n true gd ga gb, decide (gb.toNat = n))) s
/-- The pattern by each byte's address. -/
def fillBytes (pat : Word64) (a n : Nat) : List Byte := (List.range n).map fun i => (bytesOf pat 8).getD ((a + i) % 8) 0
def bfillStep (nt : Bool) (lc : LC) (rd ra rb : GReg) (gd ga gb : Word64) (s : State) : Eff :=
  let n := ascending gd gb
  microStep lc nt { reads := [], writes := [(gd.toNat, n)] }
    (fun _ _ => (fillBytes ga gd.toNat n, add3 rd ra rb n n false gd ga gb, decide (gb.toNat = n))) s
/-- The flags at the end of a `BCMP` (R154). -/
def bcmpFlags (a b : Byte) : Flags :=
  if a.toNat < b.toNat then { n := true, z := false, c := false, v := false }
  else { n := false, z := a == b, c := true, v := false }
/-- The first place two lists of bytes differ. -/
def firstDiff : List Byte → List Byte → Option (Nat × Byte × Byte)
  | a :: as, b :: bs => if a = b then (firstDiff as bs).map fun x => (x.1 + 1, x.2) else some (0, a, b)
  | _, _ => none
def bcmpStep (lc : LC) (rd ra rb : GReg) (gd ga gb : Word64) (s : State) : Eff :=
  let n := ascending gd gb
  microStep lc false
    { reads := [(gd.toNat, n)],
      second := lineSpans ga.toNat n,
      ahead := aheadUp (gd.toNat + n) (gb.toNat - n) ++ aheadUp (ga.toNat + n) (gb.toNat - n) }
    (fun xs ys =>
      match firstDiff xs ys with
      | some (i, x, y) => ([], fun r => { add3 rd ra rb i i true gd ga gb r with flags := bcmpFlags x y }, true)
      | none =>
        let last := decide (gb.toNat = n)
        ([], fun r => let q := add3 rd ra rb n n true gd ga gb r; if last then { q with flags := bcmpFlags 0 0 } else q, last)) s
def execBcopy (lc : LC) (f : Bool) (rd ra rb : GReg) (s : State) : Out := longInsn 0 true lc f rd ra rb id (bcopyStep false lc rd ra rb) s
def execBcopyNt (lc : LC) (f : Bool) (rd ra rb : GReg) (s : State) : Out := longInsn 1 true lc f rd ra rb id (bcopyStep true lc rd ra rb) s
def execBfill (lc : LC) (f : Bool) (rd ra rb : GReg) (s : State) : Out := longInsn 2 false lc f rd ra rb id (bfillStep false lc rd ra rb) s
def execBfillNt (lc : LC) (f : Bool) (rd ra rb : GReg) (s : State) : Out := longInsn 3 false lc f rd ra rb id (bfillStep true lc rd ra rb) s
def execBcmp (lc : LC) (f : Bool) (rd ra rb : GReg) (s : State) : Out :=
  longInsn 4 true lc f rd ra rb (fun r => { r with flags := bcmpFlags 0 0 }) (bcmpStep lc rd ra rb) s

end Sys2Proof.Machine
end

