-- ==== Sys2Proof/Machine/CoreQueue.lean ====
section
/-! DEFINITION. The queue instructions (13 R323, R324, R327 to R332). -/

namespace Sys2Proof.Machine

/-! ### The posting page (R323, R324) -/

def wantQueue : Want := { kind := .queue, mt2Only := true, cause := excQueue, acc := 3, late := true }
def wantEnq : Want := { wantQueue with wr := true }
def wantDeq : Want := { wantQueue with rd := true }
def wantQstat : Want := { wantQueue with either := true }
/-- What a posting page stands for: the slot and the queue, the queue's postcode. -/
structure Posting where
  slot : Nat
  queue : Nat
  tc : BitVec 2
  ads : List AdUpdate
  page : Nat
deriving DecidableEq, Repr

/-- The posting page at gb: alignment, translation and rights; `letter` where the instruction needs a letter register, which a vector
unit that is off refuses ahead of a translation reason (R324). -/
def postingPage (lc : LC) (w : Want) (letter : Bool) (va : Word64) (s : State) : Except Exc Posting × State :=
  if fld va 11 0 ≠ 0 then (.error { cause := excAlign, addr := va, acc := 3 }, s)
  else
    let off := letter && vectorOff (regsOf s lc)
    let no : Except Exc Posting := .error { cause := excQueue, addr := va, reason := 16, acc := 3 }
    let x := translate lc.val w va s
    match x.1 with
    | .error e => if off && e.cause == excQueue then (no, x.2) else (.error e, x.2)
    | .ok a =>
      if off then (no, x.2)
      else match placeOf a.acc.pa with
      | some p => (.ok { slot := p.slot, queue := p.off / 0x1000 % 65536, tc := a.acc.tc, ads := a.ads, page := a.page }, x.2)
      | none => (no, x.2)
/-- The number of the device in a slot: this one's, or that of a joined peer. [DESIGN CHOICE, log entry 23] -/
def slotDev (s : State) (slot : Nat) : Nat :=
  if slot = slotOf s then devNum s
  else match joinedWith s slot with
  | p :: _ => (port s p).peerDev
  | [] => devNum s
/-- A vector register named by a field of format S. [DEDUCED, log entry 35] -/
def vOf (x : GReg) : VReg := x

/-! ### Posting (R328, R329) -/

/-- A queue instruction of format S; gb is held in x12. [DEDUCED, log entry 35] -/
def queueInsn (sfn : Nat) (ser : Bool) (lc : LC) (rd rv : GReg) (x12 : BitVec 12) (body : Word64 → State → Eff) (s : State) : Out :=
  .next (runInsn lc ser (encS 0x3B rd rv sfn x12) (fun a =>
    if !thirdOk x12 then illegal a else body (readG (regsOf a lc) (thirdReg x12)) a) s)
/-- Post a letter: a send slot at issue, the letter at the commit. -/
def postLetter (lc : LC) (rd rv : GReg) (p : Posting) (s : State) : Option Eff :=
  (takeSlot lc.val s).map fun s1 =>
    let v := readV (regsOf s lc) (vOf rv)
    let dest := BitVec.ofNat 32 (slotDev s p.slot * 65536 + p.queue)
    let r := giveOrDo lc [.letter dest p.tc v] p.ads [p.page] s1
    if r.1 then .ok (updRegs lc.val (writeStatus rd stOk) r.2) (nextPc s lc) [evOne (coreOf s lc.val) 0x50] else .hold (freeSlots lc.val r.2)
def execEnq (lc : LC) (rd rv : GReg) (x12 : BitVec 12) (s : State) : Out :=
  queueInsn 0 false lc rd rv x12 (fun va a =>
    let x := postingPage lc wantEnq true va a
    match x.1 with
    | .error e => .exc e x.2
    | .ok p => (postLetter lc rd rv p x.2).getD (.hold x.2)) s
def execEnqt (lc : LC) (rd rv : GReg) (x12 : BitVec 12) (s : State) : Out :=
  queueInsn 1 false lc rd rv x12 (fun va a =>
    let x := postingPage lc wantEnq true va a
    match x.1 with
    | .error e => .exc e x.2
    | .ok p => (postLetter lc rd rv p x.2).getD (doneRegs lc (writeStatus rd stBusy) x.2)) s

/-! ### Consuming (R330, R331) -/

/-- `DEQ` and `DEQT`: a load with two destinations, deferred to the commit. -/
def deqRow (sfn : Nat) (isTry : Bool) (lc : LC) (rd rv : GReg) (x12 : BitVec 12) (s : State) : Out :=
  queueInsn sfn false lc rd rv x12 (fun va a =>
    let x := postingPage lc wantDeq true va a
    match x.1 with
    | .error e => .exc e x.2
    | .ok p =>
      let c := openGroup (coreOf x.2 lc.val)
      let d := nextDeferred c
      let d2 := nextDeferred d.2
      let c2 := holdAll (p.ads.map .ad ++ [.deq d.1 d2.1 p.slot p.queue isTry]) [p.page] d2.2
      .ok (setCore x.2 lc.val (pushShadow (.vec (vOf rv)) (.deferred d2.1) (pushShadow (.gen rd) (.deferred d.1) c2))) (c.pc + 4) []) s
def execDeq (lc : LC) (rd rv : GReg) (x12 : BitVec 12) (s : State) : Out := deqRow 2 false lc rd rv x12 s
def execDeqt (lc : LC) (rd rv : GReg) (x12 : BitVec 12) (s : State) : Out := deqRow 3 true lc rd rv x12 s

/-! ### The state of a queue (R332) -/

/-- The status and state word; what another device's pipeline answers is not known here. [DESIGN CHOICE, log entry 23] -/
def qstatNow (lc : Nat) (p : Posting) (s : State) : Nat × Word64 × State :=
  if p.slot = slotOf s then
    let r := queueStat s lc p.queue
    (r.1, r.2, s)
  else
    let r := peerStatus [stOk, stTimeout, stNoreg] s
    if r.1 = stOk then
      let d := drawWord r.2
      (stOk, d.1 &&& 0xFF800000FFFFFFFF, d.2)
    else (r.1, 0, r.2)
def execQstat (lc : LC) (rd rv : GReg) (x12 : BitVec 12) (s : State) : Out :=
  queueInsn 4 true lc rd rv x12 (fun va a =>
    let x := postingPage lc wantQstat false va a
    match x.1 with
    | .error e => .exc e x.2
    | .ok p =>
      let y := setAds lc.val p.ads x.2
      if !y.1 then .hold y.2
      else
        let r := qstatNow lc.val p y.2
        doneRegs lc (fun q => writeStatus rd r.1 (writeG q rv r.2.1)) r.2.2) s

end Sys2Proof.Machine
end

