-- ==== Sys2Proof/Machine/CoreSys.lean ====
section
/-! DEFINITION. CSR instructions (03 R64 to R66), checked control-space accesses (02 R37, R38), exception return and system calls (07 R183,
R184), keys and the access window (08 R216), gateways (19 R457 to R462), translation invalidation (08 R221 to R223). -/

namespace Sys2Proof.Machine

/-! ### CSR instructions (03 R64 to R66) -/

/-- [DESIGN CHOICE, log entry 24] -/
def execCsrrd (lc : LC) (rd rv : GReg) (x12 : BitVec 12) (s : State) : Out :=
  .next (runInsn lc true (encS 0x38 rd rv 0 x12) (fun a =>
    let r := csrRead lc.val (levelOf (regsOf a lc)) x12.toNat a
    doneRegs lc (fun q => writeStatus rd r.1 (writeG q rv r.2.1)) r.2.2) s)
/-- A write of `v`: its status in gd; Z from the status but where `FLAGS` was written (R65). -/
def csrPut (lc : LC) (rd : GReg) (n : Nat) (v : Word64) (s : State) : Eff :=
  let r := csrWrite lc.val (levelOf (regsOf s lc)) n v s
  doneRegs lc (fun q => if n = 1 ∧ r.1 = stOk then writeG q rd 0 else writeStatus rd r.1 q) r.2
def execCsrwr (lc : LC) (rd rv : GReg) (x12 : BitVec 12) (s : State) : Out :=
  .next (runInsn lc true (encS 0x38 rd rv 1 x12) (fun a => csrPut lc rd x12.toNat (readG (regsOf a lc) rv) a) s)
def execCsrset (lc : LC) (rd rv : GReg) (x12 : BitVec 12) (s : State) : Out :=
  .next (runInsn lc true (encS 0x38 rd rv 2 x12) (fun a =>
    csrPut lc rd x12.toNat (csrBase a lc.val x12.toNat ||| readG (regsOf a lc) rv) a) s)
def execCsrclr (lc : LC) (rd rv : GReg) (x12 : BitVec 12) (s : State) : Out :=
  .next (runInsn lc true (encS 0x38 rd rv 3 x12) (fun a =>
    csrPut lc rd x12.toNat (csrBase a lc.val x12.toNat &&& ~~~(readG (regsOf a lc) rv)) a) s)

/-! ### Checked control-space accesses (02 R37, R38) -/

/-- The address of a checked access: aligned, translated as a store or a load. -/
def sdcPlace (lc : LC) (isRead : Bool) (va : Word64) (s : State) : Except Exc (Xlat × Place) × State :=
  let w := if isRead then wantSdcRead else wantSdc
  if !aligned va 4 then (.error { cause := excAlign, addr := va, acc := w.acc }, s)
  else
    let x := access lc.val w va 4 isRead (!isRead) s
    match x.1 with
    | .error e => (.error e, x.2)
    | .ok a => (match placeOf a.acc.pa with
      | some p => (.ok (a, p), x.2)
      | none => (.error { cause := w.cause, addr := va, reason := 6, acc := w.acc }, x.2))
/-- An instruction of opcode 0x39: `act` is the access itself. -/
def sdcInsn (isRead : Bool) (lc : LC) (rd rv : GReg) (x12 : BitVec 12) (act : Place → State → Eff) (s : State) : Out :=
  .next (runInsn lc true (encS 0x39 rd rv isRead.toNat x12) (fun a =>
    if !thirdOk x12 then illegal a
    else
      let x := sdcPlace lc isRead (readG (regsOf a lc) (thirdReg x12)) a
      match x.1 with
      | .error e => .exc e x.2
      | .ok p =>
        let y := setAds lc.val p.1.ads x.2
        if !y.1 then .hold y.2 else act p.2 (coreMeter lc.val p.1.acc y.2)) s)
def icCompleteOff : Nat := 0x400104
/-- Every status code of 02 R40: which of them another device answers, nothing here decides. -/
def anyStatus (s : State) : Nat × State := peerStatus (List.range 16) s
def execSdc (lc : LC) (rd rv : GReg) (x12 : BitVec 12) (s : State) : Out :=
  sdcInsn false lc rd rv x12 (fun p a =>
    let v := (readG (regsOf a lc) rv).setWidth 32
    let r := if p.slot = slotOf a then ctlWrite (.core lc) p.off v a else anyStatus a
    if p.slot = slotOf a ∧ p.off = icCompleteOff ∧ r.1 = stOrder then .istack (updRegs lc.val (writeStatus rd r.1) r.2) (fld v 12 0)
    else doneRegs lc (writeStatus rd r.1) r.2) s
/-- [DESIGN CHOICE, log entry 24] -/
def execSdcRd (lc : LC) (rd rv : GReg) (x12 : BitVec 12) (s : State) : Out :=
  sdcInsn true lc rd rv x12 (fun p a =>
    let r : Nat × Word32 × State :=
      if p.slot = slotOf a then ctlRead (.core lc) p.off a
      else
        let d := anyStatus a
        let v := drawWord d.2
        (d.1, v.1.setWidth 32, v.2)
    doneRegs lc (fun q => writeStatus rd r.1 (writeG q rv (r.2.1.setWidth 64))) r.2.2) s
/-- No status within 10 µs (R38, R41): the level is still checked by the core's own side; nothing changes. A read gives the value the
register holds (R39). [DEDUCED, log entry 25] -/
def execSdcTimeout (lc : LC) (isRead : Bool) (rd rv : GReg) (x12 : BitVec 12) (s : State) : Out :=
  sdcInsn isRead lc rd rv x12 (fun p a =>
    let r := if p.slot = slotOf a then ctlRead (.core lc) p.off a else (stOk, 0, a)
    let w := if p.slot = slotOf a then ctlWrite (.core lc) p.off ((readG (regsOf a lc) rv).setWidth 32) a else (stOk, a)
    let st := if (if isRead then r.1 else w.1) = stPriv then stPriv else stTimeout
    let v := if p.slot = slotOf a then (r.2.1.setWidth 64, a) else let d := drawWord a; (d.1 &&& 0xFFFFFFFF, d.2)
    if isRead then doneRegs lc (fun q => writeStatus rd st (writeG q rv v.1)) v.2
    else doneRegs lc (writeStatus rd st) (if p.slot = slotOf a then dropHigh (.core lc) p.off a else a)) s

/-! ### Exception return and system calls (07 R183, R184) -/

/-- A system instruction of opcode `op`, whose named fields are right where `ok`; `priv` where it raises EXC_PRIV at U. -/
def sysInsn (op sfn : Nat) (ser : Bool) (ok priv : Bool) (lc : LC) (rd rv : GReg) (x12 : BitVec 12) (body : State → Eff) (s : State) : Out :=
  .next (runInsn lc ser (encS op rd rv sfn x12) (fun a =>
    if !ok then illegal a
    else if priv && levelOf (regsOf a lc) == 0 then .exc { cause := excPriv } a
    else body a) s)
/-- The registers after `ERET` (R183); at K it stays at K. -/
def eretRegs (r : Regs) : Regs :=
  let b := excBank r
  let st := csr r (b + 3)
  let lowers := decide (levelOf r = 1) && fld st 5 4 == 0
  let r1 := setIeExl b (st.getLsbD 0) false { r with flags := flagsOfWord (BitVec.ofNat 64 (fld st 11 8)) }
  if lowers then setLevel 0 (swapSp (b + 9) r1) else r1
/-- What an `ERET` at S arms (23 R561): it ends with the unit after its own. [DEDUCED, log entry 13] -/
def eretArms (r : Regs) (n : Nat) : Nat := if levelOf r = 1 ∧ (csr r 0x610).getLsbD n then 2 else 0
def execEret (lc : LC) (rd rv : GReg) (x12 : BitVec 12) (s : State) : Out :=
  sysInsn 0x3E 1 true (rd == 0 && rv == 0 && x12 == 0) true lc rd rv x12 (fun a =>
    let r := regsOf a lc
    .ok (updCore lc.val (fun c => { c with regs := eretRegs c.regs, eretSkip := eretArms r 0, eretStep := eretArms r 1 }) a)
      (csr r (excBank r + 2)) []) s
def execSvc (lc : LC) (rd rv : GReg) (x12 : BitVec 12) (s : State) : Out :=
  sysInsn 0x3E 0 true (rd == 0 && rv == 0) false lc rd rv x12 (fun a => .exc { cause := excSvc, addr := x12.setWidth 64 } a) s

/-! ### Keys and the access window (08 R216) -/

def execWrpkr (lc : LC) (rd rv : GReg) (x12 : BitVec 12) (s : State) : Out :=
  sysInsn 0x3E 8 false (rd == 0 && x12 == 0) false lc rd rv x12
    (doneRegs lc fun r => setCsr r 0x040 (((readG r rv).setWidth 32).setWidth 64)) s
def execUacon (lc : LC) (rd rv : GReg) (x12 : BitVec 12) (s : State) : Out :=
  sysInsn 0x3E 9 false (rd == 0 && rv == 0 && x12 == 0) true lc rd rv x12 (doneRegs lc fun r => setCsr r 0x4C4 (putFld (csr r 0x4C4) 0 0 1)) s
def execUacoff (lc : LC) (rd rv : GReg) (x12 : BitVec 12) (s : State) : Out :=
  sysInsn 0x3E 10 false (rd == 0 && rv == 0 && x12 == 0) true lc rd rv x12 (doneRegs lc fun r => setCsr r 0x4C4 (putFld (csr r 0x4C4) 0 0 0)) s

/-! ### Gateways (19 R457 to R462) -/

def gatePadWord : Word32 := 0xF8003000
/-- Checks 3 to 5 of a gateway target: the reason that refuses it, or what translating it owes. [DEDUCED, log entry 28] -/
def gateTarget (lc : LC) (va : Word64) (s : State) : Except Nat Xlat × State :=
  let old := regsOf s lc
  let x := translate lc.val wantFetch va (updRegs lc.val (setLevel 2) s)
  let s1 := updRegs lc.val (fun r => setCsr r 0x400 (csr old 0x400)) x.2
  match x.1 with
  | .error e => (.error (if e.cause = excOwner then 2 else 1), s1)
  | .ok a =>
    if ownerCode s1 a.acc.pa ≠ 1 then (.error 2, s1)
    else if !backed s1 a.acc.pa || readsPoison s1 (lineOf a.acc.pa) then (.error 3, s1)
    else
      let s2 := coherentRead lc.val (lineOf a.acc.pa) a.acc.tc true false (coreMeter lc.val a.acc s1)
      if BitVec.ofNat 32 (natOfBytes (viewBytes s2 lc.val a.acc.pa 4 true)) = gatePadWord then (.ok a, s2) else (.error 3, s2)
/-- The entry of K, as one step (R458). -/
def gateEnter (ret target : Word64) (c : Core) : Core :=
  { c with regs := setLevel 2 (swapSp 0x809 (setCsr c.regs 0x810 ret)), gate := { isOpen := true, level := BitVec.ofNat 2 (levelOf c.regs) },
           pc := target }
def execGate (lc : LC) (rd rv : GReg) (x12 : BitVec 12) (s : State) : Out :=
  sysInsn 0x3E 2 true (rd == 0 && x12 == 0) false lc rd rv x12 (fun a =>
    let va := readG (regsOf a lc) rv
    let gateExc (n : Nat) (t : State) : Eff := .exc { cause := excGate, addr := va, reason := n } t
    if !aligned va 4 then .exc { cause := excAlign, addr := va } a
    else if levelOf (regsOf a lc) = 2 then gateExc 4 a
    else
      let x := gateTarget lc va a
      match x.1 with
      | .error n => gateExc n x.2
      | .ok t =>
        let y := setAds lc.val t.ads x.2
        if !y.1 then .hold y.2 else .ok (updCore lc.val (gateEnter (nextPc y.2 lc) (va + 4)) (pmTickAll lc.val y.2)) (va + 4) []) s
/-- A `GATEPAD` reached otherwise than by a `GATE` (R459). -/
def execGatepad (lc : LC) (rd rv : GReg) (x12 : BitVec 12) (s : State) : Out :=
  sysInsn 0x3E 3 true (rd == 0 && rv == 0 && x12 == 0) false lc rd rv x12 (fun a =>
    if levelOf (regsOf a lc) = 2 then doneRegs lc id a else illegal a) s
/-- The return from a gateway call (R460). -/
def gateLeave (c : Core) : Core :=
  { c with regs := setLevel c.gate.level.toNat (swapSp 0x809 c.regs), gate := { c.gate with isOpen := false } }
def gateRet (sfn : Nat) (back : Word64) (lc : LC) (rd rv : GReg) (x12 : BitVec 12) (s : State) : Out :=
  sysInsn 0x3E sfn true (rd == 0 && rv == 0 && x12 == 0) false lc rd rv x12 (fun a =>
    let c := coreOf a lc.val
    if levelOf c.regs ≠ 2 then .exc { cause := excPriv } a
    else if !c.gate.isOpen then .exc { cause := excGate, reason := 6 } a
    else .ok (updCore lc.val gateLeave a) (csr c.regs 0x810 - back) []) s
def execGateret (lc : LC) (rd rv : GReg) (x12 : BitVec 12) (s : State) : Out := gateRet 4 0 lc rd rv x12 s
def execGateretR (lc : LC) (rd rv : GReg) (x12 : BitVec 12) (s : State) : Out := gateRet 5 4 lc rd rv x12 s

/-! ### Translation invalidation (08 R221 to R223) -/

def tlbiInsn (sfn : Nat) (ok : Bool) (lc : LC) (rd rv : GReg) (x12 : BitVec 12) (body : State → Eff) (s : State) : Out :=
  sysInsn 0x3C sfn true ok true lc rd rv x12 body s
def atK (r : Regs) : Bool := levelOf r == 2
/-- A local form: the core's own slots and walk-cache entries. -/
def tlbiLocal (lc : LC) (kind : Regs → TlbiKind) (s : State) : Eff :=
  let r := regsOf s lc
  .ok (updCore lc.val (fun c => { c with tlbs := tlbiApply (kind r) (atK r) c.tlbs }) s) (nextPc s lc) []
/-- The number of a scope in a message to another device. [DESIGN CHOICE, log entry 96] -/
def tlbiCode (k : TlbiKind) (world : Bool) : Nat × Nat :=
  let w := world.toNat
  match k with
  | .va v t => (w, v / 4096 + t.toNat * 2 ^ 36)
  | .tag t => (2 + w, t.toNat)
  | .all => (4 + w, 0)
/-- The slots of the devices of the coherent node. -/
def peerSlots (s : State) : List Nat := (List.range 4).filter fun e => s.links.peers.getLsbD e
/-- A broadcast form: every bound core of every device of the node is a target, one behind a silent bridge apart; a seventeenth waits at
issue. [DEDUCED, log entry 29] -/
def tlbiBroadcast (lc : LC) (kind : Regs → TlbiKind) (s : State) : Eff :=
  let r := regsOf s lc
  if 16 ≤ (coreOf s lc.val).broadcasts.length then .hold s
  else
    let own := (List.range s.resil.bound).filter fun n => !islandSilent s (uCore (pcOf s n))
    let b : Broadcast := { kind := kind r, world := atK r, waiting := own ++ (peerSlots s).map (512 + ·) }
    let code := tlbiCode b.kind b.world
    let s1 := (peerSlots s).foldl (fun a e => cohSend e (.tlbi code.1) code.2 0 none a) s
    .ok (updCore lc.val (fun c => { c with broadcasts := c.broadcasts ++ [b] }) s1) (nextPc s lc) []
def tagOf (w : Word64) : BitVec 16 := w.setWidth 16
def vaKind (rv : GReg) (x12 : BitVec 12) (r : Regs) : TlbiKind := .va (fld (readG r rv) 47 12 * 4096) (tagOf (readG r (thirdReg x12)))
def tagKind (rv : GReg) (r : Regs) : TlbiKind := .tag (tagOf (readG r rv))
def execTlbiVa (lc : LC) (rd rv : GReg) (x12 : BitVec 12) (s : State) : Out :=
  tlbiInsn 4 (rd == 0 && thirdOk x12) lc rd rv x12 (tlbiLocal lc (vaKind rv x12)) s
def execTlbiVaB (lc : LC) (rd rv : GReg) (x12 : BitVec 12) (s : State) : Out :=
  tlbiInsn 5 (rd == 0 && thirdOk x12) lc rd rv x12 (tlbiBroadcast lc (vaKind rv x12)) s
def execTlbiTag (lc : LC) (rd rv : GReg) (x12 : BitVec 12) (s : State) : Out :=
  tlbiInsn 6 (rd == 0 && x12 == 0) lc rd rv x12 (tlbiLocal lc (tagKind rv)) s
def execTlbiTagB (lc : LC) (rd rv : GReg) (x12 : BitVec 12) (s : State) : Out :=
  tlbiInsn 7 (rd == 0 && x12 == 0) lc rd rv x12 (tlbiBroadcast lc (tagKind rv)) s
def execTlbiAll (lc : LC) (rd rv : GReg) (x12 : BitVec 12) (s : State) : Out :=
  tlbiInsn 8 (rd == 0 && rv == 0 && x12 == 0) lc rd rv x12 (tlbiLocal lc fun _ => .all) s
def execTlbiAllB (lc : LC) (rd rv : GReg) (x12 : BitVec 12) (s : State) : Out :=
  tlbiInsn 9 (rd == 0 && rv == 0 && x12 == 0) lc rd rv x12 (tlbiBroadcast lc fun _ => .all) s
def execTlbsync (lc : LC) (rd rv : GReg) (x12 : BitVec 12) (s : State) : Out :=
  tlbiInsn 10 (rd == 0 && rv == 0 && x12 == 0) lc rd rv x12 (fun a =>
    if (coreOf a lc.val).broadcasts.isEmpty then doneRegs lc id a else .hold a) s

/-- Did the open group use a page of a slot that the invalidation removes? [DEDUCED, log entry 29] -/
def usedRemoved (kind : TlbiKind) (world : Bool) (c : Core) : Bool :=
  match c.group with
  | some g =>
    let gone := (c.tlbs.itlb ++ c.tlbs.dtlb ++ c.tlbs.l2tlb.map Prod.snd).filter (tlbiHits kind world)
    g.usedPages.any fun p => gone.any fun t => decide (t.va ≤ p * 4096 ∧ p * 4096 < t.va + t.size)
  | none => false
/-- A target removes the matching entries, all of them where its island sleeps (R222); an open group that used one executes again from its
first load, unless its deferred accesses are being performed (04 R109). [DEDUCED, log entry 29] -/
def tlbiTarget (kind : TlbiKind) (world : Bool) (lc : Nat) (s : State) : State :=
  let c := coreOf s lc
  let s1 := if usedRemoved kind world c && !c.mmioWait then rollback lc s else s
  let asleep := smGet islandDef s.power.islands (pcOf s lc) != .active
  updCore lc (fun x => { x with tlbs := if asleep then {} else tlbiApply kind world x.tlbs }) s1
/-- The first broadcast that still waits for a core, acknowledged by it; one that waits for none is over. [DEDUCED, log entry 29] -/
def ackFirst (lc : Nat) : List Broadcast → Option (Broadcast × List Broadcast)
  | [] => none
  | b :: r =>
    if b.waiting.contains lc then
      let w := b.waiting.filter fun x => x != lc
      some (b, if w.isEmpty then r else { b with waiting := w } :: r)
    else (ackFirst lc r).map fun x => (x.1, b :: x.2)
/-- A broadcast reaches a target: a core of this device, or, as 512 + e, the cores of the device in slot e, which acknowledge; one of a
joined device is acknowledged to it. [DEDUCED, log entry 29; DESIGN CHOICE, log entry 96] -/
def execTlbiBroadcastArrival (src : TlbiFrom) (target : Nat) (s : State) : Out :=
  .next (match src with
    | .core lc =>
      (match ackFirst target (coreOf s lc.val).broadcasts with
      | some (b, l) =>
        let s1 := updCore lc.val (fun c => { c with broadcasts := l }) s
        if target < 512 then tlbiTarget b.kind b.world target s1 else s1
      | none => s)
    | .peer slot kind world =>
      if s.links.peers.getLsbD slot ∧ bound s target then cohSend slot .tlbiAck target 0 none (tlbiTarget kind world target s) else s)

end Sys2Proof.Machine
end

