-- ==== Sys2Proof/Machine/CoreEvents.lean ====
section
/-! DEFINITION. Events, waits and time (07 R185 to R195). -/

namespace Sys2Proof.Machine

/-! ### Events (R185, R186) -/

/-- The cores a `SEV` names, or the status that refuses it. -/
def sevTargets (s : State) (v : Word64) : Except Nat (List Nat) :=
  if fld v 62 9 ≠ 0 then .error stRsvd
  else if v.getLsbD 63 then .ok (List.range s.resil.bound)
  else if fld v 8 0 < s.resil.bound then .ok [fld v 8 0]
  else .error stRange
def sendEvents (l : List Nat) (s : State) : State := l.foldl (fun a n => updCore n (fun c => { c with sevInFlight := true }) a) s
/-- `SEV`: its stores have been performed once it issues; the event is delivered by EVENT_DELIVERY. -/
def execSev (lc : LC) (rd rv : GReg) (x12 : BitVec 12) (s : State) : Out :=
  sysInsn 0x3D 0 true (x12 == 0) false lc rd rv x12 (fun a =>
    match sevTargets a (readG (regsOf a lc) rv) with
    | .ok l => doneRegs lc (writeStatus rd stOk) (sendEvents l a)
    | .error st => doneRegs lc (writeStatus rd st) a) s
/-- An event in flight reaches its core: the SEV bit is set. -/
def execEventDelivery (lc : LC) (s : State) : Out :=
  .next (if (coreOf s lc.val).sevInFlight then
      updCore lc.val (fun c => { c with sevInFlight := false, regs := setCsr c.regs 0x410 (csr c.regs 0x410 ||| 1) }) s
    else s)

/-! ### Waits (R189 to R193) -/

/-- Where the result of a wait goes that begins now: a load's value written at the cut after it stands (04 R108). -/
def waitDest (rd : GReg) (c : Core) : GReg := if c.shadows.any fun x => x.dest == .gen rd then 0 else rd
/-- A wait instruction has begun (R189): it ends at once where a condition holds; else it goes on until WAIT_END. [DEDUCED, log entry 12] -/
def beginWait (lc : LC) (rd : GReg) (k : WaitKind) (s : State) : Eff :=
  let res := waitResult s lc.val k
  if res ≠ 0 then
    doneRegs lc (fun r => writeG (setCsr r 0x410 (csr r 0x410 &&& ~~~(BitVec.ofNat 64 res &&& 0xFF01))) rd (BitVec.ofNat 64 res)) s
  else .hold (updCore lc.val (fun c => { cutShadows c with wait := some { kind := k, rd := waitDest rd c } }) s)
def execWfe (lc : LC) (rd rv : GReg) (x12 : BitVec 12) (s : State) : Out :=
  sysInsn 0x3D 1 true (rv == 0 && x12 == 0) false lc rd rv x12 (beginWait lc rd .wfe) s
/-- `WFE.NE` (R191): the line is held in the core's L2. -/
def execWfeNe (lc : LC) (rd rv : GReg) (x12 : BitVec 12) (s : State) : Out :=
  sysInsn 0x3D 2 true (thirdOk x12) false lc rd rv x12 (fun a =>
    let r := regsOf a lc
    let va := readG r (thirdReg x12)
    if !aligned va 8 then .exc { cause := excAlign, addr := va, acc := 3 } a
    else
      let x := access lc.val wantWait va 8 true false a
      match x.1 with
      | .error e => .exc e x.2
      | .ok t =>
        let y := setAds lc.val t.ads x.2
        if !y.1 then .hold y.2 else beginWait lc rd (.wfeNe t.acc (readG r rv) va (encS 0x3D rd rv 2 x12)) (loadNow lc.val t.acc 8 true y.2).2) s
/-- `WFE.Q` (R192): the posting page is checked as for `DEQ`; no letter register is read. A queue of another slot is watched there. -/
def execWfeQ (lc : LC) (rd rv : GReg) (x12 : BitVec 12) (s : State) : Out :=
  sysInsn 0x3D 3 true (rv == 0 && thirdOk x12) false lc rd rv x12 (fun a =>
    let x := postingPage lc wantDeq false (readG (regsOf a lc) (thirdReg x12)) a
    match x.1 with
    | .error e => .exc e x.2
    | .ok p =>
      let y := setAds lc.val p.ads x.2
      if !y.1 then .hold y.2 else beginWait lc rd (.wfeQ (p.slot * 65536 + p.queue)) y.2) s
def execWaitt (lc : LC) (rd rv : GReg) (x12 : BitVec 12) (s : State) : Out :=
  sysInsn 0x3D 4 true (x12 == 0) false lc rd rv x12 (fun a => beginWait lc rd (.waitt (readG (regsOf a lc) rv)) a) s
/-- What ends a wait now: what this device knows, or else the word of another device's pipeline that its queue holds a letter, for which the
command stands. -/
def endResult (s : State) (lc : Nat) (k : WaitKind) : Nat :=
  match waitResult s lc k, k with
  | 0, .wfeQ q => if q / 65536 = slotOf s then 0 else 8
  | n, _ => n
/-- A `WFE.NE` whose line was invalidated reads it again into its L2 (R191). -/
def rereadLine (lc : Nat) (k : WaitKind) (s : State) : State :=
  match k with
  | .wfeNe a _ _ _ =>
    if l2On s (pcOf s lc) && (l2Copy s (pcOf s lc) (lineOf a.pa)).isNone then coherentRead lc (lineOf a.pa) a.tc false true (coreMeter lc a s) else s
  | _ => s
/-- The poison a re-read of `WFE.NE` meets (R191). -/
def rereadPoison (k : WaitKind) (s : State) : Option (Exc × Word32) :=
  match k with
  | .wfeNe a _ va w => if readsPoison s (lineOf a.pa) then some ({ cause := excPoison, addr := va, reason := 1, acc := 1 }, w) else none
  | _ => none
/-- A wait whose condition holds ends (R189, R190), or raises what its re-read meets (R191); a device in a low-power mode leaves it first
(22 R533). [DEDUCED, log entry 12] -/
def execWaitEnd (lc : LC) (s : State) : Out :=
  .next (
    let c := coreOf s lc.val
    match c.wait with
    | some w =>
      if bound s lc.val && c.standing == .issuing && !c.paused && !c.drainReq then
        let s0 := rereadLine lc.val w.kind s
        match rereadPoison w.kind s0 with
        | some e => raiseExc lc.val e.1 e.2 (updCore lc.val (fun x => { x with wait := none }) s0)
        | none =>
          if endResult s0 lc.val w.kind != 0 then
            let s1 := wakeDevice s0
            if s1.power.pstate = 0 then endWait lc.val w.rd (endResult s1 lc.val w.kind) s1 else s1
          else s0
      else s
    | none => s)

/-! ### Time (R194) -/

def execRdtime (lc : LC) (rd rv : GReg) (x12 : BitVec 12) (s : State) : Out :=
  sysInsn 0x3D 5 false (rv == 0 && x12 == 0) false lc rd rv x12 (fun a => doneRegs lc (fun r => writeG r rd a.time.now) a) s

end Sys2Proof.Machine
end

