-- ==== Sys2Proof/Machine/CoreIo.lean ====
section
/-! DEFINITION. What comes back to a core from below a root port (16 R407, R414, R416) and from the interrupt controller (17 R430). -/

namespace Sys2Proof.Machine

/-- An event of R407 is logged through AER at the sub-port that the access went to. -/
def logAer (s : State) (pa : Nat) : State :=
  match placeOf pa with
  | some p => if p.slot = slotOf s then (match pcieDest s p.off with | .below j => subEvent j evAer s | _ => s) else s
  | none => s
/-- Is it a read of a function's vendor-ID field in configuration space? [DEDUCED, log entry 26] -/
def vendorRead (pa : Nat) : Bool := match placeOf pa with | some p => decide (cfgBase ≤ p.off ∧ p.off % 4096 = 0) | none => false
/-- What the load receives (R407): the completion's value; all ones without one or with one that refuses; a vendor ID of 0x0001 for Request
Retry Status with Software Visibility on, whose other bits the spec does not state. [DEDUCED, log entry 26] -/
def completionValue (a : Access) (value : Word64) (unsupported retryStatus : Bool) (s : State) : Nat × State :=
  if unsupported then (allOnes512, logAer s a.pa)
  else if retryStatus then
    if vendorRead a.pa then
      let d := drawWord (logAer s a.pa)
      ((putFld d.1 15 0 1).toNat, d.2)
    else (allOnes512, logAer s a.pa)
  else (value.toNat, s)
def execMmioCompletion (lc : LC) (value : Word64) (unsupported retryStatus : Bool) (s : State) : Out :=
  .next (match mmioAccess (coreOf s lc.val) with
    | some a =>
      let x := completionValue a value (unsupported || lostLoad s lc) retryStatus s
      finishMmio lc x.1 x.2
    | none => s)
def execCompletionTimeout (lc : LC) (s : State) : Out :=
  .next (match mmioAccess (coreOf s lc.val) with
    | some a => finishMmio lc allOnes512 (logAer s a.pa)
    | none => s)
def execDpcTrigger (j : Fin 12) (surprise : Bool) (s : State) : Out := .next (finishLost (dpcTrigger j.val surprise s))
def execAtsInvalidationTimeout (rid : BitVec 16) (s : State) : Out := .next (finishLost (atsLate rid.toNat s))
def execPciePortStop (w : Writer) (n : Fin 4) (s : State) : Out :=
  .next (finishLost (sdc w (pcieReg 4) (opWord 2 (BitVec.ofNat 28 n.val)) s))

/-- A completion at the controller; a core whose number is not the top of its stack raises EXC_ISTACK. [DEDUCED, log entry 42] -/
def execIcComplete (w : Writer) (v : Word32) (s : State) : Out :=
  .next (
    let r := ctlWrite w icCompleteOff v s
    let s1 := answerSt r.1 r.2
    match w with
    | .core lc => if r.1 = stOrder && coreRuns s1 lc.val && atBoundary (coreOf s1 lc.val) then raiseIstack lc.val (fld v 12 0) s1 else s1
    | _ => s1)

end Sys2Proof.Machine
end

