-- ==== Sys2Proof/Machine/Dispatch.lean ====
section
/-! DEFINITION. The dispatch: one arm per command, each one direct call of its meaning. -/
namespace Sys2Proof.Machine

def exec (i : Instr) (s : State) : Host.Outcome State Fault Refusal :=
  match i with
  | .add lc f rd ra rb => Sys2Proof.Machine.execAdd lc f rd ra rb s
  | .adc lc f rd ra rb => Sys2Proof.Machine.execAdc lc f rd ra rb s
  | .sub lc f rd ra rb => Sys2Proof.Machine.execSub lc f rd ra rb s
  | .sbc lc f rd ra rb => Sys2Proof.Machine.execSbc lc f rd ra rb s
  | .and lc f rd ra rb => Sys2Proof.Machine.execAnd lc f rd ra rb s
  | .andn lc f rd ra rb => Sys2Proof.Machine.execAndn lc f rd ra rb s
  | .or lc f rd ra rb => Sys2Proof.Machine.execOr lc f rd ra rb s
  | .orn lc f rd ra rb => Sys2Proof.Machine.execOrn lc f rd ra rb s
  | .xor lc f rd ra rb => Sys2Proof.Machine.execXor lc f rd ra rb s
  | .xnor lc f rd ra rb => Sys2Proof.Machine.execXnor lc f rd ra rb s
  | .mul lc f rd ra rb => Sys2Proof.Machine.execMul lc f rd ra rb s
  | .mulh lc f rd ra rb => Sys2Proof.Machine.execMulh lc f rd ra rb s
  | .mulhu lc f rd ra rb => Sys2Proof.Machine.execMulhu lc f rd ra rb s
  | .div lc f rd ra rb => Sys2Proof.Machine.execDiv lc f rd ra rb s
  | .divu lc f rd ra rb => Sys2Proof.Machine.execDivu lc f rd ra rb s
  | .rem lc f rd ra rb => Sys2Proof.Machine.execRem lc f rd ra rb s
  | .remu lc f rd ra rb => Sys2Proof.Machine.execRemu lc f rd ra rb s
  | .sll lc f rd ra rb => Sys2Proof.Machine.execSll lc f rd ra rb s
  | .srl lc f rd ra rb => Sys2Proof.Machine.execSrl lc f rd ra rb s
  | .sra lc f rd ra rb => Sys2Proof.Machine.execSra lc f rd ra rb s
  | .ror lc f rd ra rb => Sys2Proof.Machine.execRor lc f rd ra rb s
  | .clz lc f rd ra rb => Sys2Proof.Machine.execClz lc f rd ra rb s
  | .ctz lc f rd ra rb => Sys2Proof.Machine.execCtz lc f rd ra rb s
  | .popc lc f rd ra rb => Sys2Proof.Machine.execPopc lc f rd ra rb s
  | .bswap lc f rd ra rb => Sys2Proof.Machine.execBswap lc f rd ra rb s
  | .brev lc f rd ra rb => Sys2Proof.Machine.execBrev lc f rd ra rb s
  | .sextb lc f rd ra rb => Sys2Proof.Machine.execSextb lc f rd ra rb s
  | .sexth lc f rd ra rb => Sys2Proof.Machine.execSexth lc f rd ra rb s
  | .sextw lc f rd ra rb => Sys2Proof.Machine.execSextw lc f rd ra rb s
  | .zextb lc f rd ra rb => Sys2Proof.Machine.execZextb lc f rd ra rb s
  | .zexth lc f rd ra rb => Sys2Proof.Machine.execZexth lc f rd ra rb s
  | .zextw lc f rd ra rb => Sys2Proof.Machine.execZextw lc f rd ra rb s
  | .addi lc f x rd ra imm => Sys2Proof.Machine.execAddi lc f x rd ra imm s
  | .subi lc f x rd ra imm => Sys2Proof.Machine.execSubi lc f x rd ra imm s
  | .andi lc f x rd ra imm => Sys2Proof.Machine.execAndi lc f x rd ra imm s
  | .ori lc f x rd ra imm => Sys2Proof.Machine.execOri lc f x rd ra imm s
  | .xori lc f x rd ra imm => Sys2Proof.Machine.execXori lc f x rd ra imm s
  | .slli lc f x rd ra hi n => Sys2Proof.Machine.execSlli lc f x rd ra hi n s
  | .srli lc f x rd ra hi n => Sys2Proof.Machine.execSrli lc f x rd ra hi n s
  | .srai lc f x rd ra hi n => Sys2Proof.Machine.execSrai lc f x rd ra hi n s
  | .rori lc f x rd ra hi n => Sys2Proof.Machine.execRori lc f x rd ra hi n s
  | .setq lc rd q imm => Sys2Proof.Machine.execSetq lc rd q imm s
  | .putq lc rd q imm => Sys2Proof.Machine.execPutq lc rd q imm s
  | .adr lc rd off => Sys2Proof.Machine.execAdr lc rd off s
  | .sel lc f rd ra rb hi cond => Sys2Proof.Machine.execSel lc f rd ra rb hi cond s
  | .bCond lc cond hint rsv off => Sys2Proof.Machine.execBCond lc cond hint rsv off s
  | .b lc off => Sys2Proof.Machine.execB lc off s
  | .bl lc off => Sys2Proof.Machine.execBl lc off s
  | .br lc f rd ra rb => Sys2Proof.Machine.execBr lc f rd ra rb s
  | .blr lc f rd ra rb => Sys2Proof.Machine.execBlr lc f rd ra rb s
  | .ret lc f rd ra rb => Sys2Proof.Machine.execRet lc f rd ra rb s
  | .mispredictRecovery lc seq => Sys2Proof.Machine.execMispredictRecovery lc seq s
  | .csrrd lc rd rv x12 => Sys2Proof.Machine.execCsrrd lc rd rv x12 s
  | .csrwr lc rd rv x12 => Sys2Proof.Machine.execCsrwr lc rd rv x12 s
  | .csrset lc rd rv x12 => Sys2Proof.Machine.execCsrset lc rd rv x12 s
  | .csrclr lc rd rv x12 => Sys2Proof.Machine.execCsrclr lc rd rv x12 s
  | .sdc lc rd rv x12 => Sys2Proof.Machine.execSdc lc rd rv x12 s
  | .sdcRd lc rd rv x12 => Sys2Proof.Machine.execSdcRd lc rd rv x12 s
  | .sdcTimeout lc isRead rd rv x12 => Sys2Proof.Machine.execSdcTimeout lc isRead rd rv x12 s
  | .ldb lc rt rb mo off => Sys2Proof.Machine.execLdb lc rt rb mo off s
  | .ldh lc rt rb mo off => Sys2Proof.Machine.execLdh lc rt rb mo off s
  | .ldw lc rt rb mo off => Sys2Proof.Machine.execLdw lc rt rb mo off s
  | .ldd lc rt rb mo off => Sys2Proof.Machine.execLdd lc rt rb mo off s
  | .ldsb lc rt rb mo off => Sys2Proof.Machine.execLdsb lc rt rb mo off s
  | .ldsh lc rt rb mo off => Sys2Proof.Machine.execLdsh lc rt rb mo off s
  | .ldsw lc rt rb mo off => Sys2Proof.Machine.execLdsw lc rt rb mo off s
  | .stb lc rt rb mo off => Sys2Proof.Machine.execStb lc rt rb mo off s
  | .sth lc rt rb mo off => Sys2Proof.Machine.execSth lc rt rb mo off s
  | .stw lc rt rb mo off => Sys2Proof.Machine.execStw lc rt rb mo off s
  | .std lc rt rb mo off => Sys2Proof.Machine.execStd lc rt rb mo off s
  | .loadIndexed lc rt rb mo gi sel low => Sys2Proof.Machine.execLoadIndexed lc rt rb mo gi sel low s
  | .storeIndexed lc rt rb mo gi sel low => Sys2Proof.Machine.execStoreIndexed lc rt rb mo gi sel low s
  | .amoXchg lc rt rb mo wide far gs low => Sys2Proof.Machine.execAmoXchg lc rt rb mo wide far gs low s
  | .amoAdd lc rt rb mo wide far gs low => Sys2Proof.Machine.execAmoAdd lc rt rb mo wide far gs low s
  | .amoAnd lc rt rb mo wide far gs low => Sys2Proof.Machine.execAmoAnd lc rt rb mo wide far gs low s
  | .amoOr lc rt rb mo wide far gs low => Sys2Proof.Machine.execAmoOr lc rt rb mo wide far gs low s
  | .amoXor lc rt rb mo wide far gs low => Sys2Proof.Machine.execAmoXor lc rt rb mo wide far gs low s
  | .amoMaxs lc rt rb mo wide far gs low => Sys2Proof.Machine.execAmoMaxs lc rt rb mo wide far gs low s
  | .amoMins lc rt rb mo wide far gs low => Sys2Proof.Machine.execAmoMins lc rt rb mo wide far gs low s
  | .amoMaxu lc rt rb mo wide far gs low => Sys2Proof.Machine.execAmoMaxu lc rt rb mo wide far gs low s
  | .amoMinu lc rt rb mo wide far gs low => Sys2Proof.Machine.execAmoMinu lc rt rb mo wide far gs low s
  | .amoCmpx lc rt rb mo wide far gs low => Sys2Proof.Machine.execAmoCmpx lc rt rb mo wide far gs low s
  | .prfm lc kind rb mo off => Sys2Proof.Machine.execPrfm lc kind rb mo off s
  | .fence lc rd rv x12 => Sys2Proof.Machine.execFence lc rd rv x12 s
  | .ifence lc rd rv x12 => Sys2Proof.Machine.execIfence lc rd rv x12 s
  | .specbar lc rd rv x12 => Sys2Proof.Machine.execSpecbar lc rd rv x12 s
  | .shadowGroupCommit lc => Sys2Proof.Machine.execShadowGroupCommit lc s
  | .interruptEntry lc => Sys2Proof.Machine.execInterruptEntry lc s
  | .instructionGroupRetry lc row => Sys2Proof.Machine.execInstructionGroupRetry lc row s
  | .vadd lc vd va vb k z ew => Sys2Proof.Machine.execVadd lc vd va vb k z ew s
  | .vsub lc vd va vb k z ew => Sys2Proof.Machine.execVsub lc vd va vb k z ew s
  | .vmullo lc vd va vb k z ew => Sys2Proof.Machine.execVmullo lc vd va vb k z ew s
  | .vmulhs lc vd va vb k z ew => Sys2Proof.Machine.execVmulhs lc vd va vb k z ew s
  | .vmulhu lc vd va vb k z ew => Sys2Proof.Machine.execVmulhu lc vd va vb k z ew s
  | .vand lc vd va vb k z ew => Sys2Proof.Machine.execVand lc vd va vb k z ew s
  | .vandn lc vd va vb k z ew => Sys2Proof.Machine.execVandn lc vd va vb k z ew s
  | .vor lc vd va vb k z ew => Sys2Proof.Machine.execVor lc vd va vb k z ew s
  | .vxor lc vd va vb k z ew => Sys2Proof.Machine.execVxor lc vd va vb k z ew s
  | .vsllv lc vd va vb k z ew => Sys2Proof.Machine.execVsllv lc vd va vb k z ew s
  | .vsrlv lc vd va vb k z ew => Sys2Proof.Machine.execVsrlv lc vd va vb k z ew s
  | .vsrav lc vd va vb k z ew => Sys2Proof.Machine.execVsrav lc vd va vb k z ew s
  | .vsmin lc vd va vb k z ew => Sys2Proof.Machine.execVsmin lc vd va vb k z ew s
  | .vsmax lc vd va vb k z ew => Sys2Proof.Machine.execVsmax lc vd va vb k z ew s
  | .vumin lc vd va vb k z ew => Sys2Proof.Machine.execVumin lc vd va vb k z ew s
  | .vumax lc vd va vb k z ew => Sys2Proof.Machine.execVumax lc vd va vb k z ew s
  | .vabs lc vd va vb k z ew => Sys2Proof.Machine.execVabs lc vd va vb k z ew s
  | .vfadd lc vd va vb k z ew => Sys2Proof.Machine.execVfadd lc vd va vb k z ew s
  | .vfsub lc vd va vb k z ew => Sys2Proof.Machine.execVfsub lc vd va vb k z ew s
  | .vfmul lc vd va vb k z ew => Sys2Proof.Machine.execVfmul lc vd va vb k z ew s
  | .vfdiv lc vd va vb k z ew => Sys2Proof.Machine.execVfdiv lc vd va vb k z ew s
  | .vfsqrt lc vd va vb k z ew => Sys2Proof.Machine.execVfsqrt lc vd va vb k z ew s
  | .vfmin lc vd va vb k z ew => Sys2Proof.Machine.execVfmin lc vd va vb k z ew s
  | .vfmax lc vd va vb k z ew => Sys2Proof.Machine.execVfmax lc vd va vb k z ew s
  | .vfabs lc vd va vb k z ew => Sys2Proof.Machine.execVfabs lc vd va vb k z ew s
  | .vfneg lc vd va vb k z ew => Sys2Proof.Machine.execVfneg lc vd va vb k z ew s
  | .vfrnd lc vd va vb k z ew => Sys2Proof.Machine.execVfrnd lc vd va vb k z ew s
  | .vfmadd lc vd va vb k z ew => Sys2Proof.Machine.execVfmadd lc vd va vb k z ew s
  | .vfmsub lc vd va vb k z ew => Sys2Proof.Machine.execVfmsub lc vd va vb k z ew s
  | .vfnmadd lc vd va vb k z ew => Sys2Proof.Machine.execVfnmadd lc vd va vb k z ew s
  | .vfnmsub lc vd va vb k z ew => Sys2Proof.Machine.execVfnmsub lc vd va vb k z ew s
  | .vcvtDS lc hi vd va vb k z ew => Sys2Proof.Machine.execVcvtDS lc hi vd va vb k z ew s
  | .vcvtSD lc hi vd va vb k z ew => Sys2Proof.Machine.execVcvtSD lc hi vd va vb k z ew s
  | .vcvtSH lc hi vd va vb k z ew => Sys2Proof.Machine.execVcvtSH lc hi vd va vb k z ew s
  | .vcvtHS lc hi vd va vb k z ew => Sys2Proof.Machine.execVcvtHS lc hi vd va vb k z ew s
  | .vcvtSBf lc hi vd va vb k z ew => Sys2Proof.Machine.execVcvtSBf lc hi vd va vb k z ew s
  | .vcvtBfS lc hi vd va vb k z ew => Sys2Proof.Machine.execVcvtBfS lc hi vd va vb k z ew s
  | .vcvtFI lc vd va vb k z ew => Sys2Proof.Machine.execVcvtFI lc vd va vb k z ew s
  | .vcvtFU lc vd va vb k z ew => Sys2Proof.Machine.execVcvtFU lc vd va vb k z ew s
  | .vcvtIF lc vd va vb k z ew => Sys2Proof.Machine.execVcvtIF lc vd va vb k z ew s
  | .vcvtUF lc vd va vb k z ew => Sys2Proof.Machine.execVcvtUF lc vd va vb k z ew s
  | .vcvtIFT lc vd va vb k z ew => Sys2Proof.Machine.execVcvtIFT lc vd va vb k z ew s
  | .vcvtUFT lc vd va vb k z ew => Sys2Proof.Machine.execVcvtUFT lc vd va vb k z ew s
  | .vperm lc vd va vb k z ew => Sys2Proof.Machine.execVperm lc vd va vb k z ew s
  | .vperm2 lc vd va vb k z ew => Sys2Proof.Machine.execVperm2 lc vd va vb k z ew s
  | .vbcstl lc vd va vb k z ew => Sys2Proof.Machine.execVbcstl lc vd va vb k z ew s
  | .vrev lc vd va vb k z ew => Sys2Proof.Machine.execVrev lc vd va vb k z ew s
  | .vcompress lc vd va vb k z ew => Sys2Proof.Machine.execVcompress lc vd va vb k z ew s
  | .vexpand lc vd va vb k z ew => Sys2Proof.Machine.execVexpand lc vd va vb k z ew s
  | .vbcstg lc vd va vb k z ew => Sys2Proof.Machine.execVbcstg lc vd va vb k z ew s
  | .vins lc vd va vb k z ew => Sys2Proof.Machine.execVins lc vd va vb k z ew s
  | .vext lc vd va vb k z ew => Sys2Proof.Machine.execVext lc vd va vb k z ew s
  | .vredadd lc vd va vb k z ew => Sys2Proof.Machine.execVredadd lc vd va vb k z ew s
  | .vredsmin lc vd va vb k z ew => Sys2Proof.Machine.execVredsmin lc vd va vb k z ew s
  | .vredsmax lc vd va vb k z ew => Sys2Proof.Machine.execVredsmax lc vd va vb k z ew s
  | .vredumin lc vd va vb k z ew => Sys2Proof.Machine.execVredumin lc vd va vb k z ew s
  | .vredumax lc vd va vb k z ew => Sys2Proof.Machine.execVredumax lc vd va vb k z ew s
  | .vredand lc vd va vb k z ew => Sys2Proof.Machine.execVredand lc vd va vb k z ew s
  | .vredor lc vd va vb k z ew => Sys2Proof.Machine.execVredor lc vd va vb k z ew s
  | .vredxor lc vd va vb k z ew => Sys2Proof.Machine.execVredxor lc vd va vb k z ew s
  | .vfredadd lc vd va vb k z ew => Sys2Proof.Machine.execVfredadd lc vd va vb k z ew s
  | .vfredmin lc vd va vb k z ew => Sys2Proof.Machine.execVfredmin lc vd va vb k z ew s
  | .vfredmax lc vd va vb k z ew => Sys2Proof.Machine.execVfredmax lc vd va vb k z ew s
  | .vcmpeq lc vd va vb k z ew => Sys2Proof.Machine.execVcmpeq lc vd va vb k z ew s
  | .vcmpne lc vd va vb k z ew => Sys2Proof.Machine.execVcmpne lc vd va vb k z ew s
  | .vcmplt lc vd va vb k z ew => Sys2Proof.Machine.execVcmplt lc vd va vb k z ew s
  | .vcmple lc vd va vb k z ew => Sys2Proof.Machine.execVcmple lc vd va vb k z ew s
  | .vcmpltu lc vd va vb k z ew => Sys2Proof.Machine.execVcmpltu lc vd va vb k z ew s
  | .vcmpleu lc vd va vb k z ew => Sys2Proof.Machine.execVcmpleu lc vd va vb k z ew s
  | .vfcmpeq lc vd va vb k z ew => Sys2Proof.Machine.execVfcmpeq lc vd va vb k z ew s
  | .vfcmpne lc vd va vb k z ew => Sys2Proof.Machine.execVfcmpne lc vd va vb k z ew s
  | .vfcmplt lc vd va vb k z ew => Sys2Proof.Machine.execVfcmplt lc vd va vb k z ew s
  | .vfcmple lc vd va vb k z ew => Sys2Proof.Machine.execVfcmple lc vd va vb k z ew s
  | .vfcmpun lc vd va vb k z ew => Sys2Proof.Machine.execVfcmpun lc vd va vb k z ew s
  | .vfcmpf lc vd va vb k z ew => Sys2Proof.Machine.execVfcmpf lc vd va vb k z ew s
  | .kand lc vd va vb k z ew => Sys2Proof.Machine.execKand lc vd va vb k z ew s
  | .kor lc vd va vb k z ew => Sys2Proof.Machine.execKor lc vd va vb k z ew s
  | .kxor lc vd va vb k z ew => Sys2Proof.Machine.execKxor lc vd va vb k z ew s
  | .kandn lc vd va vb k z ew => Sys2Proof.Machine.execKandn lc vd va vb k z ew s
  | .knot lc vd va vb k z ew => Sys2Proof.Machine.execKnot lc vd va vb k z ew s
  | .kmovg lc vd va vb k z ew => Sys2Proof.Machine.execKmovg lc vd va vb k z ew s
  | .kmovk lc vd va vb k z ew => Sys2Proof.Machine.execKmovk lc vd va vb k z ew s
  | .kpopc lc vd va vb k z ew => Sys2Proof.Machine.execKpopc lc vd va vb k z ew s
  | .kfirst lc vd va vb k z ew => Sys2Proof.Machine.execKfirst lc vd va vb k z ew s
  | .vld lc vt rb vb k z ew => Sys2Proof.Machine.execVld lc vt rb vb k z ew s
  | .vldX lc vt rb vb k z ew => Sys2Proof.Machine.execVldX lc vt rb vb k z ew s
  | .vldFf lc vt rb vb k z ew => Sys2Proof.Machine.execVldFf lc vt rb vb k z ew s
  | .vldNt lc vt rb vb k z ew => Sys2Proof.Machine.execVldNt lc vt rb vb k z ew s
  | .vldbc lc vt rb vb k z ew => Sys2Proof.Machine.execVldbc lc vt rb vb k z ew s
  | .vldbcX lc vt rb vb k z ew => Sys2Proof.Machine.execVldbcX lc vt rb vb k z ew s
  | .vst lc vt rb vb k z ew => Sys2Proof.Machine.execVst lc vt rb vb k z ew s
  | .vstX lc vt rb vb k z ew => Sys2Proof.Machine.execVstX lc vt rb vb k z ew s
  | .vstNt lc vt rb vb k z ew => Sys2Proof.Machine.execVstNt lc vt rb vb k z ew s
  | .vgather lc vt rb vb k z ew => Sys2Proof.Machine.execVgather lc vt rb vb k z ew s
  | .vgatherS lc vt rb vb k z ew => Sys2Proof.Machine.execVgatherS lc vt rb vb k z ew s
  | .vscatter lc vt rb vb k z ew => Sys2Proof.Machine.execVscatter lc vt rb vb k z ew s
  | .vscatterS lc vt rb vb k z ew => Sys2Proof.Machine.execVscatterS lc vt rb vb k z ew s
  | .bcopy lc f rd ra rb => Sys2Proof.Machine.execBcopy lc f rd ra rb s
  | .bcopyNt lc f rd ra rb => Sys2Proof.Machine.execBcopyNt lc f rd ra rb s
  | .bfill lc f rd ra rb => Sys2Proof.Machine.execBfill lc f rd ra rb s
  | .bfillNt lc f rd ra rb => Sys2Proof.Machine.execBfillNt lc f rd ra rb s
  | .bcmp lc f rd ra rb => Sys2Proof.Machine.execBcmp lc f rd ra rb s
  | .eret lc rd rv x12 => Sys2Proof.Machine.execEret lc rd rv x12 s
  | .svc lc rd rv x12 => Sys2Proof.Machine.execSvc lc rd rv x12 s
  | .sev lc rd rv x12 => Sys2Proof.Machine.execSev lc rd rv x12 s
  | .eventDelivery lc => Sys2Proof.Machine.execEventDelivery lc s
  | .wfe lc rd rv x12 => Sys2Proof.Machine.execWfe lc rd rv x12 s
  | .wfeNe lc rd rv x12 => Sys2Proof.Machine.execWfeNe lc rd rv x12 s
  | .wfeQ lc rd rv x12 => Sys2Proof.Machine.execWfeQ lc rd rv x12 s
  | .waitt lc rd rv x12 => Sys2Proof.Machine.execWaitt lc rd rv x12 s
  | .waitEnd lc => Sys2Proof.Machine.execWaitEnd lc s
  | .rdtime lc rd rv x12 => Sys2Proof.Machine.execRdtime lc rd rv x12 s
  | .wrpkr lc rd rv x12 => Sys2Proof.Machine.execWrpkr lc rd rv x12 s
  | .uacon lc rd rv x12 => Sys2Proof.Machine.execUacon lc rd rv x12 s
  | .uacoff lc rd rv x12 => Sys2Proof.Machine.execUacoff lc rd rv x12 s
  | .tlbiVa lc rd rv x12 => Sys2Proof.Machine.execTlbiVa lc rd rv x12 s
  | .tlbiVaB lc rd rv x12 => Sys2Proof.Machine.execTlbiVaB lc rd rv x12 s
  | .tlbiTag lc rd rv x12 => Sys2Proof.Machine.execTlbiTag lc rd rv x12 s
  | .tlbiTagB lc rd rv x12 => Sys2Proof.Machine.execTlbiTagB lc rd rv x12 s
  | .tlbiAll lc rd rv x12 => Sys2Proof.Machine.execTlbiAll lc rd rv x12 s
  | .tlbiAllB lc rd rv x12 => Sys2Proof.Machine.execTlbiAllB lc rd rv x12 s
  | .tlbiBroadcastArrival src target => Sys2Proof.Machine.execTlbiBroadcastArrival src target s
  | .tlbsync lc rd rv x12 => Sys2Proof.Machine.execTlbsync lc rd rv x12 s
  | .gate lc rd rv x12 => Sys2Proof.Machine.execGate lc rd rv x12 s
  | .gatepad lc rd rv x12 => Sys2Proof.Machine.execGatepad lc rd rv x12 s
  | .gateret lc rd rv x12 => Sys2Proof.Machine.execGateret lc rd rv x12 s
  | .gateretR lc rd rv x12 => Sys2Proof.Machine.execGateretR lc rd rv x12 s
  | .enq lc rd rv x12 => Sys2Proof.Machine.execEnq lc rd rv x12 s
  | .enqt lc rd rv x12 => Sys2Proof.Machine.execEnqt lc rd rv x12 s
  | .deq lc rd rv x12 => Sys2Proof.Machine.execDeq lc rd rv x12 s
  | .deqt lc rd rv x12 => Sys2Proof.Machine.execDeqt lc rd rv x12 s
  | .qstat lc rd rv x12 => Sys2Proof.Machine.execQstat lc rd rv x12 s
  | .stageWrite w off v => Sys2Proof.Machine.execStageWrite w off v s
  | .bitAliasWrite w off b v => Sys2Proof.Machine.execBitAliasWrite w off b v s
  | .registerWrite w off v => Sys2Proof.Machine.execRegisterWrite w off v s
  | .ledgerFullTimeout w off v => Sys2Proof.Machine.execLedgerFullTimeout w off v s
  | .sysEpochCommit w v => Sys2Proof.Machine.execSysEpochCommit w v s
  | .sysEpochDiscard w v => Sys2Proof.Machine.execSysEpochDiscard w v s
  | .sysSnapAll w v => Sys2Proof.Machine.execSysSnapAll w v s
  | .blockSnap w n v => Sys2Proof.Machine.execBlockSnap w n v s
  | .sysLockSet w v => Sys2Proof.Machine.execSysLockSet w v s
  | .frankingPeriodBoundary kind => Sys2Proof.Machine.execFrankingPeriodBoundary kind s
  | .cfgParitySweep bad => Sys2Proof.Machine.execCfgParitySweep bad s
  | .cfgParityRestore off ok => Sys2Proof.Machine.execCfgParityRestore off ok s
  | .bridgeTimeout near far => Sys2Proof.Machine.execBridgeTimeout near far s
  | .rs r line => Sys2Proof.Machine.execRs r line s
  | .ru r line => Sys2Proof.Machine.execRu r line s
  | .upg r line => Sys2Proof.Machine.execUpg r line s
  | .wb pc line => Sys2Proof.Machine.execWb pc line s
  | .evc pc line => Sys2Proof.Machine.execEvc pc line s
  | .rnc r line => Sys2Proof.Machine.execRnc r line s
  | .fw r line v => Sys2Proof.Machine.execFw r line v s
  | .pw r line off bytes => Sys2Proof.Machine.execPw r line off bytes s
  | .famo r line off op wide gs gt => Sys2Proof.Machine.execFamo r line off op wide gs gt s
  | .cmoc line => Sys2Proof.Machine.execCmoc line s
  | .cmoi line => Sys2Proof.Machine.execCmoi line s
  | .snpshared pc line => Sys2Proof.Machine.execSnpshared pc line s
  | .snpunique pc line => Sys2Proof.Machine.execSnpunique pc line s
  | .snpinv pc line => Sys2Proof.Machine.execSnpinv pc line s
  | .snpread pc line => Sys2Proof.Machine.execSnpread pc line s
  | .snpclean pc line => Sys2Proof.Machine.execSnpclean pc line s
  | .snoopAnswer pc line => Sys2Proof.Machine.execSnoopAnswer pc line s
  | .grant pc line => Sys2Proof.Machine.execGrant pc line s
  | .evictionAck pc line => Sys2Proof.Machine.execEvictionAck pc line s
  | .snoopTimeout line => Sys2Proof.Machine.execSnoopTimeout line s
  | .l3Disable w n x => Sys2Proof.Machine.execL3Disable w n x s
  | .l3Enable w n x => Sys2Proof.Machine.execL3Enable w n x s
  | .l3InvalidateAll w n x => Sys2Proof.Machine.execL3InvalidateAll w n x s
  | .l3SetScratchpadWays w n x => Sys2Proof.Machine.execL3SetScratchpadWays w n x s
  | .l3CommandComplete n => Sys2Proof.Machine.execL3CommandComplete n s
  | .hnCmoClean w n => Sys2Proof.Machine.execHnCmoClean w n s
  | .hnCmoInvalidate w n => Sys2Proof.Machine.execHnCmoInvalidate w n s
  | .cachePatrolRead what unit way line err => Sys2Proof.Machine.execCachePatrolRead what unit way line err s
  | .wayRetirement isL3 unit way bad => Sys2Proof.Machine.execWayRetirement isL3 unit way bad s
  | .cacheQuery lc => Sys2Proof.Machine.execCacheQuery lc s
  | .cacheDisable lc => Sys2Proof.Machine.execCacheDisable lc s
  | .cacheEnable lc => Sys2Proof.Machine.execCacheEnable lc s
  | .cacheInvalAll lc => Sys2Proof.Machine.execCacheInvalAll lc s
  | .l2SpSet lc => Sys2Proof.Machine.execL2SpSet lc s
  | .cohJoin w p x => Sys2Proof.Machine.execCohJoin w p x s
  | .cohLeave w p x => Sys2Proof.Machine.execCohLeave w p x s
  | .joinDigest p dig => Sys2Proof.Machine.execJoinDigest p dig s
  | .joinVerdict p reason => Sys2Proof.Machine.execJoinVerdict p reason s
  | .joinTimeout p => Sys2Proof.Machine.execJoinTimeout p s
  | .splitComplete p back => Sys2Proof.Machine.execSplitComplete p back s
  | .memoryRead line err symbols => Sys2Proof.Machine.execMemoryRead line err symbols s
  | .memoryWrite line v mask => Sys2Proof.Machine.execMemoryWrite line v mask s
  | .refresh u place bank due ready => Sys2Proof.Machine.execRefresh u place bank due ready s
  | .temperatureRead u temp => Sys2Proof.Machine.execTemperatureRead u temp s
  | .recentre u lane wr l r pinOnly => Sys2Proof.Machine.execRecentre u lane wr l r pinOnly s
  | .scrubRead line err symbols => Sys2Proof.Machine.execScrubRead line err symbols s
  | .ecsRead u dimm symbols => Sys2Proof.Machine.execEcsRead u dimm symbols s
  | .rowSpare u place bank row bad => Sys2Proof.Machine.execRowSpare u place bank row bad s
  | .bankSpare u pc bank => Sys2Proof.Machine.execBankSpare u pc bank s
  | .rankRetire u dimm rank => Sys2Proof.Machine.execRankRetire u dimm rank s
  | .dimmRetire u dimm => Sys2Proof.Machine.execDimmRetire u dimm s
  | .memSectorSet lc => Sys2Proof.Machine.execMemSectorSet lc s
  | .memDdrGive lc => Sys2Proof.Machine.execMemDdrGive lc s
  | .hmcSectorStop w n x => Sys2Proof.Machine.execHmcSectorStop w n x s
  | .hmcSectorStart w n x => Sys2Proof.Machine.execHmcSectorStart w n x s
  | .frkResWrite w n v => Sys2Proof.Machine.execFrkResWrite w n v s
  | .frkTc0CeilWrite w v => Sys2Proof.Machine.execFrkTc0CeilWrite w v s
  | .letterArrival sender dest => Sys2Proof.Machine.execLetterArrival sender dest s
  | .doorbellHoldExpiry q => Sys2Proof.Machine.execDoorbellHoldExpiry q s
  | .bulkRefill q => Sys2Proof.Machine.execBulkRefill q s
  | .letterRetry sender dest => Sys2Proof.Machine.execLetterRetry sender dest s
  | .sendTimeout sender dest => Sys2Proof.Machine.execSendTimeout sender dest s
  | .leaseLapse q => Sys2Proof.Machine.execLeaseLapse q s
  | .queueCreate w x => Sys2Proof.Machine.execQueueCreate w x s
  | .queueResize w x => Sys2Proof.Machine.execQueueResize w x s
  | .queueRetire w x => Sys2Proof.Machine.execQueueRetire w x s
  | .queueRetireFlush w x => Sys2Proof.Machine.execQueueRetireFlush w x s
  | .soStart w v => Sys2Proof.Machine.execSoStart w v s
  | .dlrTailWrite w v => Sys2Proof.Machine.execDlrTailWrite w v s
  | .nop q => Sys2Proof.Machine.execNop q s
  | .put q => Sys2Proof.Machine.execPut q s
  | .puti q => Sys2Proof.Machine.execPuti q s
  | .get q => Sys2Proof.Machine.execGet q s
  | .amoCommand q => Sys2Proof.Machine.execAmoCommand q s
  | .copy q => Sys2Proof.Machine.execCopy q s
  | .ctradd q => Sys2Proof.Machine.execCtradd q s
  | .ctrset q => Sys2Proof.Machine.execCtrset q s
  | .ctrread q => Sys2Proof.Machine.execCtrread q s
  | .trigcancel q => Sys2Proof.Machine.execTrigcancel q s
  | .contrib q => Sys2Proof.Machine.execContrib q s
  | .ctxset q => Sys2Proof.Machine.execCtxset q s
  | .slotArm q => Sys2Proof.Machine.execSlotArm q s
  | .commandComplete q n late => Sys2Proof.Machine.execCommandComplete q n late s
  | .contextForward f => Sys2Proof.Machine.execContextForward f s
  | .soGrantSet lc => Sys2Proof.Machine.execSoGrantSet lc s
  | .soRegionSet lc => Sys2Proof.Machine.execSoRegionSet lc s
  | .soRegionQuery lc => Sys2Proof.Machine.execSoRegionQuery lc s
  | .portTrain w p => Sys2Proof.Machine.execPortTrain w p s
  | .portOutOfService w p => Sys2Proof.Machine.execPortOutOfService w p s
  | .portRetrain w p => Sys2Proof.Machine.execPortRetrain w p s
  | .frameReceive p fseq aseq akind coh good slots retrainOk => Sys2Proof.Machine.execFrameReceive p fseq aseq akind coh good slots retrainOk s
  | .letter p m => Sys2Proof.Machine.execLetter p m s
  | .letterAck p m => Sys2Proof.Machine.execLetterAck p m s
  | .letterNak p m => Sys2Proof.Machine.execLetterNak p m s
  | .command p m => Sys2Proof.Machine.execCommand p m s
  | .cmdResp p m => Sys2Proof.Machine.execCmdResp p m s
  | .cmdData p m => Sys2Proof.Machine.execCmdData p m s
  | .cmdRdata p m => Sys2Proof.Machine.execCmdRdata p m s
  | .resync p m => Sys2Proof.Machine.execResync p m s
  | .resyncTimeout p => Sys2Proof.Machine.execResyncTimeout p s
  | .credit p vc n => Sys2Proof.Machine.execCredit p vc n s
  | .escapeWaitExpiry n => Sys2Proof.Machine.execEscapeWaitExpiry n s
  | .caps p stepsOk usable eyes dev peerSlot peerPort major => Sys2Proof.Machine.execCaps p stepsOk usable eyes dev peerSlot peerPort major s
  | .laneFailure p lane eyes => Sys2Proof.Machine.execLaneFailure p lane eyes s
  | .laneSwap p lane back eyes => Sys2Proof.Machine.execLaneSwap p lane back eyes s
  | .spareLaneCheck p ok => Sys2Proof.Machine.execSpareLaneCheck p ok s
  | .laneRetune p lane ok => Sys2Proof.Machine.execLaneRetune p lane ok s
  | .standbyIdleExpiry p => Sys2Proof.Machine.execStandbyIdleExpiry p s
  | .listenIdleExpiry p => Sys2Proof.Machine.execListenIdleExpiry p s
  | .sleepReq p => Sys2Proof.Machine.execSleepReq p s
  | .sleepAck p => Sys2Proof.Machine.execSleepAck p s
  | .sleepReqLapse p => Sys2Proof.Machine.execSleepReqLapse p s
  | .wakeOrderedSet p => Sys2Proof.Machine.execWakeOrderedSet p s
  | .sweepStart w p x => Sys2Proof.Machine.execSweepStart w p x s
  | .sweepAbort w p x => Sys2Proof.Machine.execSweepAbort w p x s
  | .sweepReq p lane => Sys2Proof.Machine.execSweepReq p lane s
  | .sweepAck p accept => Sys2Proof.Machine.execSweepAck p accept s
  | .sweepEnd p => Sys2Proof.Machine.execSweepEnd p s
  | .sweepComplete p r0 r1 r2 => Sys2Proof.Machine.execSweepComplete p r0 r1 r2 s
  | .sweepPartnerSilent p => Sys2Proof.Machine.execSweepPartnerSilent p s
  | .timeExchangeInterval p => Sys2Proof.Machine.execTimeExchangeInterval p s
  | .timeReq p => Sys2Proof.Machine.execTimeReq p s
  | .timeResp p t2 t3 rootDev depth ofs => Sys2Proof.Machine.execTimeResp p t2 t3 rootDev depth ofs s
  | .syncInEdge high => Sys2Proof.Machine.execSyncInEdge high s
  | .syncLost => Sys2Proof.Machine.execSyncLost s
  | .syncOutPulse => Sys2Proof.Machine.execSyncOutPulse s
  | .timeSet w v => Sys2Proof.Machine.execTimeSet w v s
  | .pciePortStart w n => Sys2Proof.Machine.execPciePortStart w n s
  | .pciePortStop w n => Sys2Proof.Machine.execPciePortStop w n s
  | .dmaRequest j rid iova op ep translated => Sys2Proof.Machine.execDmaRequest j rid iova op ep translated s
  | .translationRequest j rid iova => Sys2Proof.Machine.execTranslationRequest j rid iova s
  | .pageRequest j rid iova rd wr last prgi => Sys2Proof.Machine.execPageRequest j rid iova rd wr last prgi s
  | .pciePrgResp w v => Sys2Proof.Machine.execPciePrgResp w v s
  | .msiMessage j rid off bytes => Sys2Proof.Machine.execMsiMessage j rid off bytes s
  | .mmioCompletion lc value unsupported retryStatus => Sys2Proof.Machine.execMmioCompletion lc value unsupported retryStatus s
  | .completionTimeout lc => Sys2Proof.Machine.execCompletionTimeout lc s
  | .dpcTrigger j surprise => Sys2Proof.Machine.execDpcTrigger j surprise s
  | .hotAdd j => Sys2Proof.Machine.execHotAdd j s
  | .iotuInvPage w id => Sys2Proof.Machine.execIotuInvPage w id s
  | .iotuInvTag w id => Sys2Proof.Machine.execIotuInvTag w id s
  | .iotuInvAll w id => Sys2Proof.Machine.execIotuInvAll w id s
  | .iotuInvDevice w id => Sys2Proof.Machine.execIotuInvDevice w id s
  | .invalidateCompletion rid => Sys2Proof.Machine.execInvalidateCompletion rid s
  | .atsInvalidationTimeout rid => Sys2Proof.Machine.execAtsInvalidationTimeout rid s
  | .iotuInvalidationDone => Sys2Proof.Machine.execIotuInvalidationDone s
  | .wiredSourceEdge src high => Sys2Proof.Machine.execWiredSourceEdge src high s
  | .icRaise w v => Sys2Proof.Machine.execIcRaise w v s
  | .icUnraise w v => Sys2Proof.Machine.execIcUnraise w v s
  | .icClaim w => Sys2Proof.Machine.execIcClaim w s
  | .icComplete w v => Sys2Proof.Machine.execIcComplete w v s
  | .timerTick t n => Sys2Proof.Machine.execTimerTick t n s
  | .timerWrap t => Sys2Proof.Machine.execTimerWrap t s
  | .timerInputEdge n high => Sys2Proof.Machine.execTimerInputEdge n high s
  | .timerStart w t => Sys2Proof.Machine.execTimerStart w t s
  | .timerStop w t => Sys2Proof.Machine.execTimerStop w t s
  | .resetEvent w t => Sys2Proof.Machine.execResetEvent w t s
  | .forcedWrap w t => Sys2Proof.Machine.execForcedWrap w t s
  | .tmrFlagsRead w t => Sys2Proof.Machine.execTmrFlagsRead w t s
  | .tmrSyncFlagsRead w => Sys2Proof.Machine.execTmrSyncFlagsRead w s
  | .tmrSnap w => Sys2Proof.Machine.execTmrSnap w s
  | .celPotSync w v => Sys2Proof.Machine.execCelPotSync w v s
  | .potSyncComplete => Sys2Proof.Machine.execPotSyncComplete s
  | .mrExtend w v => Sys2Proof.Machine.execMrExtend w v s
  | .keeperVersion lc => Sys2Proof.Machine.execKeeperVersion lc s
  | .attestQuote lc => Sys2Proof.Machine.execAttestQuote lc s
  | .measureExtend lc => Sys2Proof.Machine.execMeasureExtend lc s
  | .attestCert lc => Sys2Proof.Machine.execAttestCert lc s
  | .soRingReserve lc => Sys2Proof.Machine.execSoRingReserve lc s
  | .soRingRelease lc => Sys2Proof.Machine.execSoRingRelease lc s
  | .soDlrShare lc => Sys2Proof.Machine.execSoDlrShare lc s
  | .updateSubmit lc genuine store version security => Sys2Proof.Machine.execUpdateSubmit lc genuine store version security s
  | .updateRoll lc => Sys2Proof.Machine.execUpdateRoll lc s
  | .updateAbort lc => Sys2Proof.Machine.execUpdateAbort lc s
  | .keeperHandover lc ok => Sys2Proof.Machine.execKeeperHandover lc ok s
  | .agingQuery lc => Sys2Proof.Machine.execAgingQuery lc s
  | .rollStep => Sys2Proof.Machine.execRollStep s
  | .rollInstanceSwitch n => Sys2Proof.Machine.execRollInstanceSwitch n s
  | .flashSecondCopyWrite store => Sys2Proof.Machine.execFlashSecondCopyWrite store s
  | .authRequest w v => Sys2Proof.Machine.execAuthRequest w v s
  | .authSubmit w v => Sys2Proof.Machine.execAuthSubmit w v s
  | .grantExpiry => Sys2Proof.Machine.execGrantExpiry s
  | .dbgAttach w v => Sys2Proof.Machine.execDbgAttach w v s
  | .dbgDetach w v => Sys2Proof.Machine.execDbgDetach w v s
  | .attachTimeout => Sys2Proof.Machine.execAttachTimeout s
  | .haltRequest w lc => Sys2Proof.Machine.execHaltRequest w lc s
  | .debugHalt lc => Sys2Proof.Machine.execDebugHalt lc s
  | .resume w lc => Sys2Proof.Machine.execResume w lc s
  | .step w lc => Sys2Proof.Machine.execStep w lc s
  | .haltAll w => Sys2Proof.Machine.execHaltAll w s
  | .resumeAll w => Sys2Proof.Machine.execResumeAll w s
  | .registerWindowRead w => Sys2Proof.Machine.execRegisterWindowRead w s
  | .registerWindowWrite w => Sys2Proof.Machine.execRegisterWindowWrite w s
  | .debugMemoryRead w v => Sys2Proof.Machine.execDebugMemoryRead w v s
  | .debugMemoryWrite w v => Sys2Proof.Machine.execDebugMemoryWrite w v s
  | .debugLineRead w v => Sys2Proof.Machine.execDebugLineRead w v s
  | .debugLineWrite w v => Sys2Proof.Machine.execDebugLineWrite w v s
  | .stim w p v => Sys2Proof.Machine.execStim w p v s
  | .traceTimePacket => Sys2Proof.Machine.execTraceTimePacket s
  | .pmcWrap lc k => Sys2Proof.Machine.execPmcWrap lc k s
  | .heartbeatMissed pc => Sys2Proof.Machine.execHeartbeatMissed pc s
  | .coreRelocation lc trigger healthy => Sys2Proof.Machine.execCoreRelocation lc trigger healthy s
  | .relocationDrain lc => Sys2Proof.Machine.execRelocationDrain lc s
  | .relocationResume lc => Sys2Proof.Machine.execRelocationResume lc s
  | .proxiedSnoop pc line bad => Sys2Proof.Machine.execProxiedSnoop pc line bad s
  | .census bad => Sys2Proof.Machine.execCensus bad s
  | .leaseRevoke kind lc n => Sys2Proof.Machine.execLeaseRevoke kind lc n s
  | .pairMismatch k silent released => Sys2Proof.Machine.execPairMismatch k silent released s
  | .pairSelfTestComplete k ok => Sys2Proof.Machine.execPairSelfTestComplete k ok s
  | .spareHorizon run used => Sys2Proof.Machine.execSpareHorizon run used s
  | .agingSample u degr tj short => Sys2Proof.Machine.execAgingSample u degr tj short s
  | .vddRindUp => Sys2Proof.Machine.execVddRindUp s
  | .vddRindDown => Sys2Proof.Machine.execVddRindDown s
  | .pwrgdRise boot slot test valid => Sys2Proof.Machine.execPwrgdRise boot slot test valid s
  | .pwrgdFall => Sys2Proof.Machine.execPwrgdFall s
  | .sequenceComplete => Sys2Proof.Machine.execSequenceComplete s
  | .sequenceRailTimeout rail mv => Sys2Proof.Machine.execSequenceRailTimeout rail mv s
  | .calibrateComplete cfg => Sys2Proof.Machine.execCalibrateComplete cfg s
  | .railFailure rail mv written => Sys2Proof.Machine.execRailFailure rail mv written s
  | .islandGate lc => Sys2Proof.Machine.execIslandGate lc s
  | .islandRetain lc => Sys2Proof.Machine.execIslandRetain lc s
  | .dozeEntry => Sys2Proof.Machine.execDozeEntry s
  | .deepDozeEntry => Sys2Proof.Machine.execDeepDozeEntry s
  | .deepDozeEntryComplete => Sys2Proof.Machine.execDeepDozeEntryComplete s
  | .wake bit => Sys2Proof.Machine.execWake bit s
  | .deepDozeExitComplete => Sys2Proof.Machine.execDeepDozeExitComplete s
  | .drain w => Sys2Proof.Machine.execDrain w s
  | .drainComplete => Sys2Proof.Machine.execDrainComplete s
  | .setDeepnext w => Sys2Proof.Machine.execSetDeepnext w s
  | .clearDeepnext w => Sys2Proof.Machine.execClearDeepnext w s
  | .pwrPadRelease w => Sys2Proof.Machine.execPwrPadRelease w s
  | .pwrWakeLastRead w => Sys2Proof.Machine.execPwrWakeLastRead w s
  | .pwrLimitCeilWrite w v => Sys2Proof.Machine.execPwrLimitCeilWrite w v s
  | .powerLimitCompare avg => Sys2Proof.Machine.execPowerLimitCompare avg s
  | .temperatureSample u temp => Sys2Proof.Machine.execTemperatureSample u temp s
  | .thermalControl => Sys2Proof.Machine.execThermalControl s
  | .prochotInput low => Sys2Proof.Machine.execProchotInput low s
  | .vrAlert low => Sys2Proof.Machine.execVrAlert low s
  | .perstAssert => Sys2Proof.Machine.execPerstAssert s
  | .perstRelease => Sys2Proof.Machine.execPerstRelease s
  | .refclkSwitch => Sys2Proof.Machine.execRefclkSwitch s
  | .refclkLost => Sys2Proof.Machine.execRefclkLost s
  | .refclkReturn c => Sys2Proof.Machine.execRefclkReturn c s
  | .gpioInputChange n high => Sys2Proof.Machine.execGpioInputChange n high s
  | .functionSwitch w n v => Sys2Proof.Machine.execFunctionSwitch w n v s
  | .functionSwitchComplete n => Sys2Proof.Machine.execFunctionSwitchComplete n s
  | .ledDiagnosis above below => Sys2Proof.Machine.execLedDiagnosis above below s
  | .uartTx w u v => Sys2Proof.Machine.execUartTx w u v s
  | .uartRxByte u b frameErr brk => Sys2Proof.Machine.execUartRxByte u b frameErr brk s
  | .uartRxRead w u => Sys2Proof.Machine.execUartRxRead w u s
  | .uartErrRead w u => Sys2Proof.Machine.execUartErrRead w u s
  | .padEventRead w => Sys2Proof.Machine.execPadEventRead w s
  | .flashTimeout c => Sys2Proof.Machine.execFlashTimeout c s
  | .mailboxRequest cmd tag len payload pec => Sys2Proof.Machine.execMailboxRequest cmd tag len payload pec s
  | .mailboxStall => Sys2Proof.Machine.execMailboxStall s
  | .getId => Sys2Proof.Machine.execGetId s
  | .getState => Sys2Proof.Machine.execGetState s
  | .powerOn => Sys2Proof.Machine.execPowerOn s
  | .mailboxDrain => Sys2Proof.Machine.execMailboxDrain s
  | .logSeq => Sys2Proof.Machine.execLogSeq s
  | .readLog => Sys2Proof.Machine.execReadLog s
  | .readReg => Sys2Proof.Machine.execReadReg s
  | .getAlert => Sys2Proof.Machine.execGetAlert s
  | .setPwrLimit => Sys2Proof.Machine.execSetPwrLimit s
  | .debug => Sys2Proof.Machine.execDebug s
  | .hostMsg => Sys2Proof.Machine.execHostMsg s
  | .hostRead => Sys2Proof.Machine.execHostRead s
  | .mbxReleaseIn w v => Sys2Proof.Machine.execMbxReleaseIn w v s
  | .mbxPostOut w v => Sys2Proof.Machine.execMbxPostOut w v s
  | .dynamicAddressAssign a => Sys2Proof.Machine.execDynamicAddressAssign a s
  | .rstdaa => Sys2Proof.Machine.execRstdaa s
  | .tapReset => Sys2Proof.Machine.execTapReset s
  | .tapUpdateIr ir => Sys2Proof.Machine.execTapUpdateIr ir s
  | .tapUpdateDr d => Sys2Proof.Machine.execTapUpdateDr d s
  | .safeholdExpiry => Sys2Proof.Machine.execSafeholdExpiry s
  | .dbgacc d => Sys2Proof.Machine.execDbgacc d s
  | .reservedMajorOpcode lc w => Sys2Proof.Machine.execReservedMajorOpcode lc w s
  | .uartByteSent u => Sys2Proof.Machine.execUartByteSent u s
  | .standbyRefclkAbsent => Sys2Proof.Machine.execStandbyRefclkAbsent s
  | .backgroundWritebackComplete pc => Sys2Proof.Machine.execBackgroundWritebackComplete pc s
  | .reserveCopyComplete u => Sys2Proof.Machine.execReserveCopyComplete u s

end Sys2Proof.Machine
end

