-- ==== Sys2Proof/Machine/Idle.lean ====
section
/-! DEFINITION. What the block does by itself, when no command waits. -/

namespace Sys2Proof.Machine

/-- A cycle of the time base passes (18 R436); a wake that has been latched is acted on (22 R538); loads whose answer can no longer come
receive all ones (16 R414); with no read ready the write queues drain (11 R281); messages that waited for credits go out (15 R382).
[DESIGN CHOICE, log entry 1] -/
def idle (s : State) : State := sendCoh (drainAll (finishLost (afterTransition (timeCycle s))))

end Sys2Proof.Machine
end

