-- ==== Sys2Proof/Machine/Words.lean ====
section
/-! DEFINITION. The words of core instructions (03 R68 to R70): the word of each instruction, from the formats and the tables of its
chapter, and the instruction that a word spells. -/

namespace Sys2Proof.Machine

/-- A 5-bit field, a register number. -/
def field5 (w : Word32) (lo : Nat) : Fin 32 := ⟨w.toNat / 2 ^ lo % 32, Nat.mod_lt _ (by decide)⟩
def field3 (w : Word32) (lo : Nat) : Fin 8 := ⟨w.toNat / 2 ^ lo % 8, Nat.mod_lt _ (by decide)⟩
/-- A field of `n` bits from bit `lo` upward. -/
def fieldN (n lo : Nat) (w : Word32) : BitVec n := BitVec.ofNat n (w.toNat / 2 ^ lo)

/-- The word of an instruction; none for a command that is not one. -/
def encodeWord : Instr → Option Word32
  | .reservedMajorOpcode _ w => some (w)
  | .add _ f rd ra rb => some (encA 0x1 rd ra rb f 0x0)
  | .adc _ f rd ra rb => some (encA 0x1 rd ra rb f 0x1)
  | .sub _ f rd ra rb => some (encA 0x1 rd ra rb f 0x2)
  | .sbc _ f rd ra rb => some (encA 0x1 rd ra rb f 0x3)
  | .and _ f rd ra rb => some (encA 0x1 rd ra rb f 0x8)
  | .andn _ f rd ra rb => some (encA 0x1 rd ra rb f 0x9)
  | .or _ f rd ra rb => some (encA 0x1 rd ra rb f 0xa)
  | .orn _ f rd ra rb => some (encA 0x1 rd ra rb f 0xb)
  | .xor _ f rd ra rb => some (encA 0x1 rd ra rb f 0xc)
  | .xnor _ f rd ra rb => some (encA 0x1 rd ra rb f 0xd)
  | .mul _ f rd ra rb => some (encA 0x2 rd ra rb f 0x0)
  | .mulh _ f rd ra rb => some (encA 0x2 rd ra rb f 0x1)
  | .mulhu _ f rd ra rb => some (encA 0x2 rd ra rb f 0x2)
  | .div _ f rd ra rb => some (encA 0x2 rd ra rb f 0x4)
  | .divu _ f rd ra rb => some (encA 0x2 rd ra rb f 0x5)
  | .rem _ f rd ra rb => some (encA 0x2 rd ra rb f 0x6)
  | .remu _ f rd ra rb => some (encA 0x2 rd ra rb f 0x7)
  | .sll _ f rd ra rb => some (encA 0x3 rd ra rb f 0x0)
  | .srl _ f rd ra rb => some (encA 0x3 rd ra rb f 0x1)
  | .sra _ f rd ra rb => some (encA 0x3 rd ra rb f 0x2)
  | .ror _ f rd ra rb => some (encA 0x3 rd ra rb f 0x3)
  | .clz _ f rd ra rb => some (encA 0x3 rd ra rb f 0x10)
  | .ctz _ f rd ra rb => some (encA 0x3 rd ra rb f 0x11)
  | .popc _ f rd ra rb => some (encA 0x3 rd ra rb f 0x12)
  | .bswap _ f rd ra rb => some (encA 0x3 rd ra rb f 0x13)
  | .brev _ f rd ra rb => some (encA 0x3 rd ra rb f 0x14)
  | .sextb _ f rd ra rb => some (encA 0x3 rd ra rb f 0x20)
  | .sexth _ f rd ra rb => some (encA 0x3 rd ra rb f 0x21)
  | .sextw _ f rd ra rb => some (encA 0x3 rd ra rb f 0x22)
  | .zextb _ f rd ra rb => some (encA 0x3 rd ra rb f 0x24)
  | .zexth _ f rd ra rb => some (encA 0x3 rd ra rb f 0x25)
  | .zextw _ f rd ra rb => some (encA 0x3 rd ra rb f 0x26)
  | .br _ f rd ra rb => some (encA 0x5 rd ra rb f 0x0)
  | .blr _ f rd ra rb => some (encA 0x5 rd ra rb f 0x1)
  | .ret _ f rd ra rb => some (encA 0x5 rd ra rb f 0x2)
  | .bcopy _ f rd ra rb => some (encA 0x3a rd ra rb f 0x0)
  | .bcopyNt _ f rd ra rb => some (encA 0x3a rd ra rb f 0x1)
  | .bfill _ f rd ra rb => some (encA 0x3a rd ra rb f 0x2)
  | .bfillNt _ f rd ra rb => some (encA 0x3a rd ra rb f 0x3)
  | .bcmp _ f rd ra rb => some (encA 0x3a rd ra rb f 0x4)
  | .addi _ f x rd ra imm => some (encI 0x8 rd ra f x imm)
  | .subi _ f x rd ra imm => some (encI 0x9 rd ra f x imm)
  | .andi _ f x rd ra imm => some (encI 0xa rd ra f x imm)
  | .ori _ f x rd ra imm => some (encI 0xb rd ra f x imm)
  | .xori _ f x rd ra imm => some (encI 0xc rd ra f x imm)
  | .slli _ f x rd ra hi n => some (encI 0xd rd ra f x (BitVec.ofNat 14 (0 * 4096 + hi.toNat * 64 + n.toNat)))
  | .srli _ f x rd ra hi n => some (encI 0xd rd ra f x (BitVec.ofNat 14 (1 * 4096 + hi.toNat * 64 + n.toNat)))
  | .srai _ f x rd ra hi n => some (encI 0xd rd ra f x (BitVec.ofNat 14 (2 * 4096 + hi.toNat * 64 + n.toNat)))
  | .rori _ f x rd ra hi n => some (encI 0xd rd ra f x (BitVec.ofNat 14 (3 * 4096 + hi.toNat * 64 + n.toNat)))
  | .setq _ rd q imm => some (encQ 0xe rd q imm)
  | .putq _ rd q imm => some (encQ 0xf rd q imm)
  | .adr _ rd off => some (encAdr rd off)
  | .sel _ f rd ra rb hi cond => some (encA 0x4 rd ra rb f (hi.toNat * 16 + cond.toNat))
  | .bCond _ cond hint rsv off => some (encB cond hint rsv off)
  | .b _ off => some (encJ 0x31 off)
  | .bl _ off => some (encJ 0x32 off)
  | .ldb _ rt rb mo off => some (encM 0x12 rt rb mo off)
  | .ldh _ rt rb mo off => some (encM 0x13 rt rb mo off)
  | .ldw _ rt rb mo off => some (encM 0x14 rt rb mo off)
  | .ldd _ rt rb mo off => some (encM 0x15 rt rb mo off)
  | .ldsb _ rt rb mo off => some (encM 0x16 rt rb mo off)
  | .ldsh _ rt rb mo off => some (encM 0x17 rt rb mo off)
  | .ldsw _ rt rb mo off => some (encM 0x18 rt rb mo off)
  | .stb _ rt rb mo off => some (encM 0x19 rt rb mo off)
  | .sth _ rt rb mo off => some (encM 0x1a rt rb mo off)
  | .stw _ rt rb mo off => some (encM 0x1b rt rb mo off)
  | .std _ rt rb mo off => some (encM 0x1c rt rb mo off)
  | .loadIndexed _ rt rb mo gi sel low => some (encM 0x1d rt rb mo (BitVec.ofNat 14 (gi.val * 512 + sel.toNat * 32 + low.toNat)))
  | .storeIndexed _ rt rb mo gi sel low => some (encM 0x1d rt rb mo (BitVec.ofNat 14 (gi.val * 512 + sel.toNat * 32 + low.toNat)))
  | .amoXchg _ rt rb mo wide far gs low => some (encM 0x1e rt rb mo (BitVec.ofNat 14 (0 * 1024 + wide.toNat * 512 + far.toNat * 256 + gs.val * 8 + low.toNat)))
  | .amoAdd _ rt rb mo wide far gs low => some (encM 0x1e rt rb mo (BitVec.ofNat 14 (1 * 1024 + wide.toNat * 512 + far.toNat * 256 + gs.val * 8 + low.toNat)))
  | .amoAnd _ rt rb mo wide far gs low => some (encM 0x1e rt rb mo (BitVec.ofNat 14 (2 * 1024 + wide.toNat * 512 + far.toNat * 256 + gs.val * 8 + low.toNat)))
  | .amoOr _ rt rb mo wide far gs low => some (encM 0x1e rt rb mo (BitVec.ofNat 14 (3 * 1024 + wide.toNat * 512 + far.toNat * 256 + gs.val * 8 + low.toNat)))
  | .amoXor _ rt rb mo wide far gs low => some (encM 0x1e rt rb mo (BitVec.ofNat 14 (4 * 1024 + wide.toNat * 512 + far.toNat * 256 + gs.val * 8 + low.toNat)))
  | .amoMaxs _ rt rb mo wide far gs low => some (encM 0x1e rt rb mo (BitVec.ofNat 14 (5 * 1024 + wide.toNat * 512 + far.toNat * 256 + gs.val * 8 + low.toNat)))
  | .amoMins _ rt rb mo wide far gs low => some (encM 0x1e rt rb mo (BitVec.ofNat 14 (6 * 1024 + wide.toNat * 512 + far.toNat * 256 + gs.val * 8 + low.toNat)))
  | .amoMaxu _ rt rb mo wide far gs low => some (encM 0x1e rt rb mo (BitVec.ofNat 14 (7 * 1024 + wide.toNat * 512 + far.toNat * 256 + gs.val * 8 + low.toNat)))
  | .amoMinu _ rt rb mo wide far gs low => some (encM 0x1e rt rb mo (BitVec.ofNat 14 (8 * 1024 + wide.toNat * 512 + far.toNat * 256 + gs.val * 8 + low.toNat)))
  | .amoCmpx _ rt rb mo wide far gs low => some (encM 0x1e rt rb mo (BitVec.ofNat 14 (9 * 1024 + wide.toNat * 512 + far.toNat * 256 + gs.val * 8 + low.toNat)))
  | .prfm _ kind rb mo off => some (encM 0x1f ⟨kind.toNat, kind.isLt⟩ rb mo off)
  | .vadd _ vd va vb k z ew => some (encV 0x20 vd va vb k z ew 0x0)
  | .vsub _ vd va vb k z ew => some (encV 0x20 vd va vb k z ew 0x1)
  | .vmullo _ vd va vb k z ew => some (encV 0x20 vd va vb k z ew 0x2)
  | .vmulhs _ vd va vb k z ew => some (encV 0x20 vd va vb k z ew 0x3)
  | .vmulhu _ vd va vb k z ew => some (encV 0x20 vd va vb k z ew 0x4)
  | .vand _ vd va vb k z ew => some (encV 0x20 vd va vb k z ew 0x8)
  | .vandn _ vd va vb k z ew => some (encV 0x20 vd va vb k z ew 0x9)
  | .vor _ vd va vb k z ew => some (encV 0x20 vd va vb k z ew 0xa)
  | .vxor _ vd va vb k z ew => some (encV 0x20 vd va vb k z ew 0xb)
  | .vsllv _ vd va vb k z ew => some (encV 0x20 vd va vb k z ew 0xc)
  | .vsrlv _ vd va vb k z ew => some (encV 0x20 vd va vb k z ew 0xd)
  | .vsrav _ vd va vb k z ew => some (encV 0x20 vd va vb k z ew 0xe)
  | .vsmin _ vd va vb k z ew => some (encV 0x20 vd va vb k z ew 0x10)
  | .vsmax _ vd va vb k z ew => some (encV 0x20 vd va vb k z ew 0x11)
  | .vumin _ vd va vb k z ew => some (encV 0x20 vd va vb k z ew 0x12)
  | .vumax _ vd va vb k z ew => some (encV 0x20 vd va vb k z ew 0x13)
  | .vabs _ vd va vb k z ew => some (encV 0x20 vd va vb k z ew 0x14)
  | .vfadd _ vd va vb k z ew => some (encV 0x21 vd va vb k z ew 0x0)
  | .vfsub _ vd va vb k z ew => some (encV 0x21 vd va vb k z ew 0x1)
  | .vfmul _ vd va vb k z ew => some (encV 0x21 vd va vb k z ew 0x2)
  | .vfdiv _ vd va vb k z ew => some (encV 0x21 vd va vb k z ew 0x3)
  | .vfsqrt _ vd va vb k z ew => some (encV 0x21 vd va vb k z ew 0x4)
  | .vfmin _ vd va vb k z ew => some (encV 0x21 vd va vb k z ew 0x5)
  | .vfmax _ vd va vb k z ew => some (encV 0x21 vd va vb k z ew 0x6)
  | .vfabs _ vd va vb k z ew => some (encV 0x21 vd va vb k z ew 0x7)
  | .vfneg _ vd va vb k z ew => some (encV 0x21 vd va vb k z ew 0x8)
  | .vfrnd _ vd va vb k z ew => some (encV 0x21 vd va vb k z ew 0x9)
  | .vfmadd _ vd va vb k z ew => some (encV 0x22 vd va vb k z ew 0x0)
  | .vfmsub _ vd va vb k z ew => some (encV 0x22 vd va vb k z ew 0x1)
  | .vfnmadd _ vd va vb k z ew => some (encV 0x22 vd va vb k z ew 0x2)
  | .vfnmsub _ vd va vb k z ew => some (encV 0x22 vd va vb k z ew 0x3)
  | .vcvtFI _ vd va vb k z ew => some (encV 0x23 vd va vb k z ew 0x10)
  | .vcvtFU _ vd va vb k z ew => some (encV 0x23 vd va vb k z ew 0x11)
  | .vcvtIF _ vd va vb k z ew => some (encV 0x23 vd va vb k z ew 0x12)
  | .vcvtUF _ vd va vb k z ew => some (encV 0x23 vd va vb k z ew 0x13)
  | .vcvtIFT _ vd va vb k z ew => some (encV 0x23 vd va vb k z ew 0x14)
  | .vcvtUFT _ vd va vb k z ew => some (encV 0x23 vd va vb k z ew 0x15)
  | .vperm _ vd va vb k z ew => some (encV 0x24 vd va vb k z ew 0x0)
  | .vperm2 _ vd va vb k z ew => some (encV 0x24 vd va vb k z ew 0x1)
  | .vcompress _ vd va vb k z ew => some (encV 0x24 vd va vb k z ew 0x2)
  | .vexpand _ vd va vb k z ew => some (encV 0x24 vd va vb k z ew 0x3)
  | .vbcstl _ vd va vb k z ew => some (encV 0x24 vd va vb k z ew 0x4)
  | .vbcstg _ vd va vb k z ew => some (encV 0x24 vd va vb k z ew 0x5)
  | .vins _ vd va vb k z ew => some (encV 0x24 vd va vb k z ew 0x6)
  | .vext _ vd va vb k z ew => some (encV 0x24 vd va vb k z ew 0x7)
  | .vrev _ vd va vb k z ew => some (encV 0x24 vd va vb k z ew 0x8)
  | .vredadd _ vd va vb k z ew => some (encV 0x25 vd va vb k z ew 0x0)
  | .vredsmin _ vd va vb k z ew => some (encV 0x25 vd va vb k z ew 0x1)
  | .vredsmax _ vd va vb k z ew => some (encV 0x25 vd va vb k z ew 0x2)
  | .vredumin _ vd va vb k z ew => some (encV 0x25 vd va vb k z ew 0x3)
  | .vredumax _ vd va vb k z ew => some (encV 0x25 vd va vb k z ew 0x4)
  | .vredand _ vd va vb k z ew => some (encV 0x25 vd va vb k z ew 0x5)
  | .vredor _ vd va vb k z ew => some (encV 0x25 vd va vb k z ew 0x6)
  | .vredxor _ vd va vb k z ew => some (encV 0x25 vd va vb k z ew 0x7)
  | .vfredadd _ vd va vb k z ew => some (encV 0x25 vd va vb k z ew 0x8)
  | .vfredmin _ vd va vb k z ew => some (encV 0x25 vd va vb k z ew 0x9)
  | .vfredmax _ vd va vb k z ew => some (encV 0x25 vd va vb k z ew 0xa)
  | .vcmpeq _ vd va vb k z ew => some (encV 0x26 vd va vb k z ew 0x0)
  | .vcmpne _ vd va vb k z ew => some (encV 0x26 vd va vb k z ew 0x1)
  | .vcmplt _ vd va vb k z ew => some (encV 0x26 vd va vb k z ew 0x2)
  | .vcmple _ vd va vb k z ew => some (encV 0x26 vd va vb k z ew 0x3)
  | .vcmpltu _ vd va vb k z ew => some (encV 0x26 vd va vb k z ew 0x4)
  | .vcmpleu _ vd va vb k z ew => some (encV 0x26 vd va vb k z ew 0x5)
  | .vfcmpeq _ vd va vb k z ew => some (encV 0x26 vd va vb k z ew 0x8)
  | .vfcmpne _ vd va vb k z ew => some (encV 0x26 vd va vb k z ew 0x9)
  | .vfcmplt _ vd va vb k z ew => some (encV 0x26 vd va vb k z ew 0xa)
  | .vfcmple _ vd va vb k z ew => some (encV 0x26 vd va vb k z ew 0xb)
  | .vfcmpun _ vd va vb k z ew => some (encV 0x26 vd va vb k z ew 0xc)
  | .vfcmpf _ vd va vb k z ew => some (encV 0x26 vd va vb k z ew 0x10)
  | .kand _ vd va vb k z ew => some (encV 0x27 vd va vb k z ew 0x0)
  | .kor _ vd va vb k z ew => some (encV 0x27 vd va vb k z ew 0x1)
  | .kxor _ vd va vb k z ew => some (encV 0x27 vd va vb k z ew 0x2)
  | .kandn _ vd va vb k z ew => some (encV 0x27 vd va vb k z ew 0x3)
  | .knot _ vd va vb k z ew => some (encV 0x27 vd va vb k z ew 0x4)
  | .kmovg _ vd va vb k z ew => some (encV 0x27 vd va vb k z ew 0x8)
  | .kmovk _ vd va vb k z ew => some (encV 0x27 vd va vb k z ew 0x9)
  | .kpopc _ vd va vb k z ew => some (encV 0x27 vd va vb k z ew 0xa)
  | .kfirst _ vd va vb k z ew => some (encV 0x27 vd va vb k z ew 0xb)
  | .vld _ vd va vb k z ew => some (encV 0x2c vd va vb k z ew 0x0)
  | .vldX _ vd va vb k z ew => some (encV 0x2c vd va vb k z ew 0x1)
  | .vldFf _ vd va vb k z ew => some (encV 0x2c vd va vb k z ew 0x2)
  | .vldNt _ vd va vb k z ew => some (encV 0x2c vd va vb k z ew 0x3)
  | .vldbc _ vd va vb k z ew => some (encV 0x2c vd va vb k z ew 0x4)
  | .vldbcX _ vd va vb k z ew => some (encV 0x2c vd va vb k z ew 0x5)
  | .vst _ vd va vb k z ew => some (encV 0x2c vd va vb k z ew 0x8)
  | .vstX _ vd va vb k z ew => some (encV 0x2c vd va vb k z ew 0x9)
  | .vstNt _ vd va vb k z ew => some (encV 0x2c vd va vb k z ew 0xb)
  | .vgather _ vd va vb k z ew => some (encV 0x2d vd va vb k z ew 0x0)
  | .vgatherS _ vd va vb k z ew => some (encV 0x2d vd va vb k z ew 0x1)
  | .vscatter _ vd va vb k z ew => some (encV 0x2d vd va vb k z ew 0x4)
  | .vscatterS _ vd va vb k z ew => some (encV 0x2d vd va vb k z ew 0x5)
  | .vcvtDS _ hi vd va vb k z ew => some (encV 0x23 vd va vb k z ew (0 + hi.toNat))
  | .vcvtSD _ hi vd va vb k z ew => some (encV 0x23 vd va vb k z ew (2 + hi.toNat))
  | .vcvtSH _ hi vd va vb k z ew => some (encV 0x23 vd va vb k z ew (4 + hi.toNat))
  | .vcvtHS _ hi vd va vb k z ew => some (encV 0x23 vd va vb k z ew (6 + hi.toNat))
  | .vcvtSBf _ hi vd va vb k z ew => some (encV 0x23 vd va vb k z ew (8 + hi.toNat))
  | .vcvtBfS _ hi vd va vb k z ew => some (encV 0x23 vd va vb k z ew (10 + hi.toNat))
  | .csrrd _ rd rv x12 => some (encS 0x38 rd rv 0x0 x12)
  | .csrwr _ rd rv x12 => some (encS 0x38 rd rv 0x1 x12)
  | .csrset _ rd rv x12 => some (encS 0x38 rd rv 0x2 x12)
  | .csrclr _ rd rv x12 => some (encS 0x38 rd rv 0x3 x12)
  | .sdc _ rd rv x12 => some (encS 0x39 rd rv 0x0 x12)
  | .sdcRd _ rd rv x12 => some (encS 0x39 rd rv 0x1 x12)
  | .enq _ rd rv x12 => some (encS 0x3b rd rv 0x0 x12)
  | .enqt _ rd rv x12 => some (encS 0x3b rd rv 0x1 x12)
  | .deq _ rd rv x12 => some (encS 0x3b rd rv 0x2 x12)
  | .deqt _ rd rv x12 => some (encS 0x3b rd rv 0x3 x12)
  | .qstat _ rd rv x12 => some (encS 0x3b rd rv 0x4 x12)
  | .fence _ rd rv x12 => some (encS 0x3c rd rv 0x0 x12)
  | .ifence _ rd rv x12 => some (encS 0x3c rd rv 0x1 x12)
  | .specbar _ rd rv x12 => some (encS 0x3c rd rv 0x2 x12)
  | .tlbiVa _ rd rv x12 => some (encS 0x3c rd rv 0x4 x12)
  | .tlbiVaB _ rd rv x12 => some (encS 0x3c rd rv 0x5 x12)
  | .tlbiTag _ rd rv x12 => some (encS 0x3c rd rv 0x6 x12)
  | .tlbiTagB _ rd rv x12 => some (encS 0x3c rd rv 0x7 x12)
  | .tlbiAll _ rd rv x12 => some (encS 0x3c rd rv 0x8 x12)
  | .tlbiAllB _ rd rv x12 => some (encS 0x3c rd rv 0x9 x12)
  | .tlbsync _ rd rv x12 => some (encS 0x3c rd rv 0xa x12)
  | .sev _ rd rv x12 => some (encS 0x3d rd rv 0x0 x12)
  | .wfe _ rd rv x12 => some (encS 0x3d rd rv 0x1 x12)
  | .wfeNe _ rd rv x12 => some (encS 0x3d rd rv 0x2 x12)
  | .wfeQ _ rd rv x12 => some (encS 0x3d rd rv 0x3 x12)
  | .waitt _ rd rv x12 => some (encS 0x3d rd rv 0x4 x12)
  | .rdtime _ rd rv x12 => some (encS 0x3d rd rv 0x5 x12)
  | .svc _ rd rv x12 => some (encS 0x3e rd rv 0x0 x12)
  | .eret _ rd rv x12 => some (encS 0x3e rd rv 0x1 x12)
  | .gate _ rd rv x12 => some (encS 0x3e rd rv 0x2 x12)
  | .gatepad _ rd rv x12 => some (encS 0x3e rd rv 0x3 x12)
  | .gateret _ rd rv x12 => some (encS 0x3e rd rv 0x4 x12)
  | .gateretR _ rd rv x12 => some (encS 0x3e rd rv 0x5 x12)
  | .wrpkr _ rd rv x12 => some (encS 0x3e rd rv 0x8 x12)
  | .uacon _ rd rv x12 => some (encS 0x3e rd rv 0x9 x12)
  | .uacoff _ rd rv x12 => some (encS 0x3e rd rv 0xa x12)
  | _ => none

/-- Format A, opcode 0x1, by fn. -/
def decodeA1 (lc : LC) (w : Word32) (n : Nat) : Option Instr :=
  let rd := field5 w 21
  let ra := field5 w 16
  let rb := field5 w 11
  let f := w.getLsbD 10
  match n with
  | 0x0 => some (.add lc f rd ra rb)
  | 0x1 => some (.adc lc f rd ra rb)
  | 0x2 => some (.sub lc f rd ra rb)
  | 0x3 => some (.sbc lc f rd ra rb)
  | 0x8 => some (.and lc f rd ra rb)
  | 0x9 => some (.andn lc f rd ra rb)
  | 0xa => some (.or lc f rd ra rb)
  | 0xb => some (.orn lc f rd ra rb)
  | 0xc => some (.xor lc f rd ra rb)
  | 0xd => some (.xnor lc f rd ra rb)
  | _ => none
/-- Format A, opcode 0x2, by fn. -/
def decodeA2 (lc : LC) (w : Word32) (n : Nat) : Option Instr :=
  let rd := field5 w 21
  let ra := field5 w 16
  let rb := field5 w 11
  let f := w.getLsbD 10
  match n with
  | 0x0 => some (.mul lc f rd ra rb)
  | 0x1 => some (.mulh lc f rd ra rb)
  | 0x2 => some (.mulhu lc f rd ra rb)
  | 0x4 => some (.div lc f rd ra rb)
  | 0x5 => some (.divu lc f rd ra rb)
  | 0x6 => some (.rem lc f rd ra rb)
  | 0x7 => some (.remu lc f rd ra rb)
  | _ => none
/-- Format A, opcode 0x3, by fn. -/
def decodeA3 (lc : LC) (w : Word32) (n : Nat) : Option Instr :=
  let rd := field5 w 21
  let ra := field5 w 16
  let rb := field5 w 11
  let f := w.getLsbD 10
  match n with
  | 0x0 => some (.sll lc f rd ra rb)
  | 0x1 => some (.srl lc f rd ra rb)
  | 0x2 => some (.sra lc f rd ra rb)
  | 0x3 => some (.ror lc f rd ra rb)
  | 0x10 => some (.clz lc f rd ra rb)
  | 0x11 => some (.ctz lc f rd ra rb)
  | 0x12 => some (.popc lc f rd ra rb)
  | 0x13 => some (.bswap lc f rd ra rb)
  | 0x14 => some (.brev lc f rd ra rb)
  | 0x20 => some (.sextb lc f rd ra rb)
  | 0x21 => some (.sexth lc f rd ra rb)
  | 0x22 => some (.sextw lc f rd ra rb)
  | 0x24 => some (.zextb lc f rd ra rb)
  | 0x25 => some (.zexth lc f rd ra rb)
  | 0x26 => some (.zextw lc f rd ra rb)
  | _ => none
/-- Format A, opcode 0x5, by fn. -/
def decodeA5 (lc : LC) (w : Word32) (n : Nat) : Option Instr :=
  let rd := field5 w 21
  let ra := field5 w 16
  let rb := field5 w 11
  let f := w.getLsbD 10
  match n with
  | 0x0 => some (.br lc f rd ra rb)
  | 0x1 => some (.blr lc f rd ra rb)
  | 0x2 => some (.ret lc f rd ra rb)
  | _ => none
/-- Format A, opcode 0x3a, by fn. -/
def decodeA3a (lc : LC) (w : Word32) (n : Nat) : Option Instr :=
  let rd := field5 w 21
  let ra := field5 w 16
  let rb := field5 w 11
  let f := w.getLsbD 10
  match n with
  | 0x0 => some (.bcopy lc f rd ra rb)
  | 0x1 => some (.bcopyNt lc f rd ra rb)
  | 0x2 => some (.bfill lc f rd ra rb)
  | 0x3 => some (.bfillNt lc f rd ra rb)
  | 0x4 => some (.bcmp lc f rd ra rb)
  | _ => none
/-- Format V, opcode 0x20, by vfn. -/
def decodeV20 (lc : LC) (w : Word32) (n : Nat) : Option Instr :=
  let vd := field5 w 21
  let va := field5 w 16
  let vb := field5 w 11
  let k := field3 w 8
  let z := w.getLsbD 7
  let ew := fieldN 2 5 w
  match n with
  | 0x0 => some (.vadd lc vd va vb k z ew)
  | 0x1 => some (.vsub lc vd va vb k z ew)
  | 0x2 => some (.vmullo lc vd va vb k z ew)
  | 0x3 => some (.vmulhs lc vd va vb k z ew)
  | 0x4 => some (.vmulhu lc vd va vb k z ew)
  | 0x8 => some (.vand lc vd va vb k z ew)
  | 0x9 => some (.vandn lc vd va vb k z ew)
  | 0xa => some (.vor lc vd va vb k z ew)
  | 0xb => some (.vxor lc vd va vb k z ew)
  | 0xc => some (.vsllv lc vd va vb k z ew)
  | 0xd => some (.vsrlv lc vd va vb k z ew)
  | 0xe => some (.vsrav lc vd va vb k z ew)
  | 0x10 => some (.vsmin lc vd va vb k z ew)
  | 0x11 => some (.vsmax lc vd va vb k z ew)
  | 0x12 => some (.vumin lc vd va vb k z ew)
  | 0x13 => some (.vumax lc vd va vb k z ew)
  | 0x14 => some (.vabs lc vd va vb k z ew)
  | _ => none
/-- Format V, opcode 0x21, by vfn. -/
def decodeV21 (lc : LC) (w : Word32) (n : Nat) : Option Instr :=
  let vd := field5 w 21
  let va := field5 w 16
  let vb := field5 w 11
  let k := field3 w 8
  let z := w.getLsbD 7
  let ew := fieldN 2 5 w
  match n with
  | 0x0 => some (.vfadd lc vd va vb k z ew)
  | 0x1 => some (.vfsub lc vd va vb k z ew)
  | 0x2 => some (.vfmul lc vd va vb k z ew)
  | 0x3 => some (.vfdiv lc vd va vb k z ew)
  | 0x4 => some (.vfsqrt lc vd va vb k z ew)
  | 0x5 => some (.vfmin lc vd va vb k z ew)
  | 0x6 => some (.vfmax lc vd va vb k z ew)
  | 0x7 => some (.vfabs lc vd va vb k z ew)
  | 0x8 => some (.vfneg lc vd va vb k z ew)
  | 0x9 => some (.vfrnd lc vd va vb k z ew)
  | _ => none
/-- Format V, opcode 0x22, by vfn. -/
def decodeV22 (lc : LC) (w : Word32) (n : Nat) : Option Instr :=
  let vd := field5 w 21
  let va := field5 w 16
  let vb := field5 w 11
  let k := field3 w 8
  let z := w.getLsbD 7
  let ew := fieldN 2 5 w
  match n with
  | 0x0 => some (.vfmadd lc vd va vb k z ew)
  | 0x1 => some (.vfmsub lc vd va vb k z ew)
  | 0x2 => some (.vfnmadd lc vd va vb k z ew)
  | 0x3 => some (.vfnmsub lc vd va vb k z ew)
  | _ => none
/-- Format V, opcode 0x23, by vfn. -/
def decodeV23 (lc : LC) (w : Word32) (n : Nat) : Option Instr :=
  let vd := field5 w 21
  let va := field5 w 16
  let vb := field5 w 11
  let k := field3 w 8
  let z := w.getLsbD 7
  let ew := fieldN 2 5 w
  match n with
  | 0x0 => some (.vcvtDS lc false vd va vb k z ew)
  | 0x1 => some (.vcvtDS lc true vd va vb k z ew)
  | 0x2 => some (.vcvtSD lc false vd va vb k z ew)
  | 0x3 => some (.vcvtSD lc true vd va vb k z ew)
  | 0x4 => some (.vcvtSH lc false vd va vb k z ew)
  | 0x5 => some (.vcvtSH lc true vd va vb k z ew)
  | 0x6 => some (.vcvtHS lc false vd va vb k z ew)
  | 0x7 => some (.vcvtHS lc true vd va vb k z ew)
  | 0x8 => some (.vcvtSBf lc false vd va vb k z ew)
  | 0x9 => some (.vcvtSBf lc true vd va vb k z ew)
  | 0xa => some (.vcvtBfS lc false vd va vb k z ew)
  | 0xb => some (.vcvtBfS lc true vd va vb k z ew)
  | 0x10 => some (.vcvtFI lc vd va vb k z ew)
  | 0x11 => some (.vcvtFU lc vd va vb k z ew)
  | 0x12 => some (.vcvtIF lc vd va vb k z ew)
  | 0x13 => some (.vcvtUF lc vd va vb k z ew)
  | 0x14 => some (.vcvtIFT lc vd va vb k z ew)
  | 0x15 => some (.vcvtUFT lc vd va vb k z ew)
  | _ => none
/-- Format V, opcode 0x24, by vfn. -/
def decodeV24 (lc : LC) (w : Word32) (n : Nat) : Option Instr :=
  let vd := field5 w 21
  let va := field5 w 16
  let vb := field5 w 11
  let k := field3 w 8
  let z := w.getLsbD 7
  let ew := fieldN 2 5 w
  match n with
  | 0x0 => some (.vperm lc vd va vb k z ew)
  | 0x1 => some (.vperm2 lc vd va vb k z ew)
  | 0x2 => some (.vcompress lc vd va vb k z ew)
  | 0x3 => some (.vexpand lc vd va vb k z ew)
  | 0x4 => some (.vbcstl lc vd va vb k z ew)
  | 0x5 => some (.vbcstg lc vd va vb k z ew)
  | 0x6 => some (.vins lc vd va vb k z ew)
  | 0x7 => some (.vext lc vd va vb k z ew)
  | 0x8 => some (.vrev lc vd va vb k z ew)
  | _ => none
/-- Format V, opcode 0x25, by vfn. -/
def decodeV25 (lc : LC) (w : Word32) (n : Nat) : Option Instr :=
  let vd := field5 w 21
  let va := field5 w 16
  let vb := field5 w 11
  let k := field3 w 8
  let z := w.getLsbD 7
  let ew := fieldN 2 5 w
  match n with
  | 0x0 => some (.vredadd lc vd va vb k z ew)
  | 0x1 => some (.vredsmin lc vd va vb k z ew)
  | 0x2 => some (.vredsmax lc vd va vb k z ew)
  | 0x3 => some (.vredumin lc vd va vb k z ew)
  | 0x4 => some (.vredumax lc vd va vb k z ew)
  | 0x5 => some (.vredand lc vd va vb k z ew)
  | 0x6 => some (.vredor lc vd va vb k z ew)
  | 0x7 => some (.vredxor lc vd va vb k z ew)
  | 0x8 => some (.vfredadd lc vd va vb k z ew)
  | 0x9 => some (.vfredmin lc vd va vb k z ew)
  | 0xa => some (.vfredmax lc vd va vb k z ew)
  | _ => none
/-- Format V, opcode 0x26, by vfn. -/
def decodeV26 (lc : LC) (w : Word32) (n : Nat) : Option Instr :=
  let vd := field5 w 21
  let va := field5 w 16
  let vb := field5 w 11
  let k := field3 w 8
  let z := w.getLsbD 7
  let ew := fieldN 2 5 w
  match n with
  | 0x0 => some (.vcmpeq lc vd va vb k z ew)
  | 0x1 => some (.vcmpne lc vd va vb k z ew)
  | 0x2 => some (.vcmplt lc vd va vb k z ew)
  | 0x3 => some (.vcmple lc vd va vb k z ew)
  | 0x4 => some (.vcmpltu lc vd va vb k z ew)
  | 0x5 => some (.vcmpleu lc vd va vb k z ew)
  | 0x8 => some (.vfcmpeq lc vd va vb k z ew)
  | 0x9 => some (.vfcmpne lc vd va vb k z ew)
  | 0xa => some (.vfcmplt lc vd va vb k z ew)
  | 0xb => some (.vfcmple lc vd va vb k z ew)
  | 0xc => some (.vfcmpun lc vd va vb k z ew)
  | 0x10 => some (.vfcmpf lc vd va vb k z ew)
  | _ => none
/-- Format V, opcode 0x27, by vfn. -/
def decodeV27 (lc : LC) (w : Word32) (n : Nat) : Option Instr :=
  let vd := field5 w 21
  let va := field5 w 16
  let vb := field5 w 11
  let k := field3 w 8
  let z := w.getLsbD 7
  let ew := fieldN 2 5 w
  match n with
  | 0x0 => some (.kand lc vd va vb k z ew)
  | 0x1 => some (.kor lc vd va vb k z ew)
  | 0x2 => some (.kxor lc vd va vb k z ew)
  | 0x3 => some (.kandn lc vd va vb k z ew)
  | 0x4 => some (.knot lc vd va vb k z ew)
  | 0x8 => some (.kmovg lc vd va vb k z ew)
  | 0x9 => some (.kmovk lc vd va vb k z ew)
  | 0xa => some (.kpopc lc vd va vb k z ew)
  | 0xb => some (.kfirst lc vd va vb k z ew)
  | _ => none
/-- Format V, opcode 0x2c, by vfn. -/
def decodeV2c (lc : LC) (w : Word32) (n : Nat) : Option Instr :=
  let vd := field5 w 21
  let va := field5 w 16
  let vb := field5 w 11
  let k := field3 w 8
  let z := w.getLsbD 7
  let ew := fieldN 2 5 w
  match n with
  | 0x0 => some (.vld lc vd va vb k z ew)
  | 0x1 => some (.vldX lc vd va vb k z ew)
  | 0x2 => some (.vldFf lc vd va vb k z ew)
  | 0x3 => some (.vldNt lc vd va vb k z ew)
  | 0x4 => some (.vldbc lc vd va vb k z ew)
  | 0x5 => some (.vldbcX lc vd va vb k z ew)
  | 0x8 => some (.vst lc vd va vb k z ew)
  | 0x9 => some (.vstX lc vd va vb k z ew)
  | 0xb => some (.vstNt lc vd va vb k z ew)
  | _ => none
/-- Format V, opcode 0x2d, by vfn. -/
def decodeV2d (lc : LC) (w : Word32) (n : Nat) : Option Instr :=
  let vd := field5 w 21
  let va := field5 w 16
  let vb := field5 w 11
  let k := field3 w 8
  let z := w.getLsbD 7
  let ew := fieldN 2 5 w
  match n with
  | 0x0 => some (.vgather lc vd va vb k z ew)
  | 0x1 => some (.vgatherS lc vd va vb k z ew)
  | 0x4 => some (.vscatter lc vd va vb k z ew)
  | 0x5 => some (.vscatterS lc vd va vb k z ew)
  | _ => none
/-- Format S, opcode 0x38, by sfn. -/
def decodeS38 (lc : LC) (w : Word32) (n : Nat) : Option Instr :=
  let rd := field5 w 21
  let rv := field5 w 16
  let x12 := fieldN 12 0 w
  match n with
  | 0x0 => some (.csrrd lc rd rv x12)
  | 0x1 => some (.csrwr lc rd rv x12)
  | 0x2 => some (.csrset lc rd rv x12)
  | 0x3 => some (.csrclr lc rd rv x12)
  | _ => none
/-- Format S, opcode 0x39, by sfn. -/
def decodeS39 (lc : LC) (w : Word32) (n : Nat) : Option Instr :=
  let rd := field5 w 21
  let rv := field5 w 16
  let x12 := fieldN 12 0 w
  match n with
  | 0x0 => some (.sdc lc rd rv x12)
  | 0x1 => some (.sdcRd lc rd rv x12)
  | _ => none
/-- Format S, opcode 0x3b, by sfn. -/
def decodeS3b (lc : LC) (w : Word32) (n : Nat) : Option Instr :=
  let rd := field5 w 21
  let rv := field5 w 16
  let x12 := fieldN 12 0 w
  match n with
  | 0x0 => some (.enq lc rd rv x12)
  | 0x1 => some (.enqt lc rd rv x12)
  | 0x2 => some (.deq lc rd rv x12)
  | 0x3 => some (.deqt lc rd rv x12)
  | 0x4 => some (.qstat lc rd rv x12)
  | _ => none
/-- Format S, opcode 0x3c, by sfn. -/
def decodeS3c (lc : LC) (w : Word32) (n : Nat) : Option Instr :=
  let rd := field5 w 21
  let rv := field5 w 16
  let x12 := fieldN 12 0 w
  match n with
  | 0x0 => some (.fence lc rd rv x12)
  | 0x1 => some (.ifence lc rd rv x12)
  | 0x2 => some (.specbar lc rd rv x12)
  | 0x4 => some (.tlbiVa lc rd rv x12)
  | 0x5 => some (.tlbiVaB lc rd rv x12)
  | 0x6 => some (.tlbiTag lc rd rv x12)
  | 0x7 => some (.tlbiTagB lc rd rv x12)
  | 0x8 => some (.tlbiAll lc rd rv x12)
  | 0x9 => some (.tlbiAllB lc rd rv x12)
  | 0xa => some (.tlbsync lc rd rv x12)
  | _ => none
/-- Format S, opcode 0x3d, by sfn. -/
def decodeS3d (lc : LC) (w : Word32) (n : Nat) : Option Instr :=
  let rd := field5 w 21
  let rv := field5 w 16
  let x12 := fieldN 12 0 w
  match n with
  | 0x0 => some (.sev lc rd rv x12)
  | 0x1 => some (.wfe lc rd rv x12)
  | 0x2 => some (.wfeNe lc rd rv x12)
  | 0x3 => some (.wfeQ lc rd rv x12)
  | 0x4 => some (.waitt lc rd rv x12)
  | 0x5 => some (.rdtime lc rd rv x12)
  | _ => none
/-- Format S, opcode 0x3e, by sfn. -/
def decodeS3e (lc : LC) (w : Word32) (n : Nat) : Option Instr :=
  let rd := field5 w 21
  let rv := field5 w 16
  let x12 := fieldN 12 0 w
  match n with
  | 0x0 => some (.svc lc rd rv x12)
  | 0x1 => some (.eret lc rd rv x12)
  | 0x2 => some (.gate lc rd rv x12)
  | 0x3 => some (.gatepad lc rd rv x12)
  | 0x4 => some (.gateret lc rd rv x12)
  | 0x5 => some (.gateretR lc rd rv x12)
  | 0x8 => some (.wrpkr lc rd rv x12)
  | 0x9 => some (.uacon lc rd rv x12)
  | 0xa => some (.uacoff lc rd rv x12)
  | _ => none
/-- `AMO`, by op (04 R113). -/
def decodeAmo (lc : LC) (w : Word32) (n : Nat) : Option Instr :=
  let rt := field5 w 21
  let rb := field5 w 16
  let mo := fieldN 2 14 w
  let wide := w.getLsbD 9
  let far := w.getLsbD 8
  let gs := field5 w 3
  let low := fieldN 3 0 w
  match n with
  | 0x0 => some (.amoXchg lc rt rb mo wide far gs low)
  | 0x1 => some (.amoAdd lc rt rb mo wide far gs low)
  | 0x2 => some (.amoAnd lc rt rb mo wide far gs low)
  | 0x3 => some (.amoOr lc rt rb mo wide far gs low)
  | 0x4 => some (.amoXor lc rt rb mo wide far gs low)
  | 0x5 => some (.amoMaxs lc rt rb mo wide far gs low)
  | 0x6 => some (.amoMins lc rt rb mo wide far gs low)
  | 0x7 => some (.amoMaxu lc rt rb mo wide far gs low)
  | 0x8 => some (.amoMinu lc rt rb mo wide far gs low)
  | 0x9 => some (.amoCmpx lc rt rb mo wide far gs low)
  | _ => none
/-- Shifts by an immediate, by imm14[13:12] (03 R75). -/
def decodeShift (lc : LC) (w : Word32) (k : Nat) : Option Instr :=
  let rd := field5 w 21
  let ra := field5 w 16
  let f := w.getLsbD 15
  let x := w.getLsbD 14
  let hi := fieldN 6 6 w
  let n := fieldN 6 0 w
  match k with
  | 0 => some (.slli lc f x rd ra hi n)
  | 1 => some (.srli lc f x rd ra hi n)
  | 2 => some (.srai lc f x rd ra hi n)
  | 3 => some (.rori lc f x rd ra hi n)
  | _ => none
/-- Indexed loads and stores, by sel (04 R96). -/
def decodeIndexed (lc : LC) (w : Word32) (k : Nat) : Option Instr :=
  let rt := field5 w 21
  let rb := field5 w 16
  let mo := fieldN 2 14 w
  let gi := field5 w 9
  let sel := fieldN 4 5 w
  let low := fieldN 5 0 w
  if k < 8 then some (.loadIndexed lc rt rb mo gi sel low) else some (.storeIndexed lc rt rb mo gi sel low)

/-- The instruction of core `lc` that a word spells: reserved words first (R7, R70), then by major opcode. -/
def decodeWord (lc : LC) (w : Word32) : Option Instr :=
  if reservedWord w then some (.reservedMajorOpcode lc w)
  else
    let rd := field5 w 21
    let ra := field5 w 16
    let f := w.getLsbD 15
    let x := w.getLsbD 14
    let imm := fieldN 14 0 w
    let mo := fieldN 2 14 w
    match fld w 31 26 with
    | 0x1 => decodeA1 lc w (fld w 9 0)
    | 0x2 => decodeA2 lc w (fld w 9 0)
    | 0x3 => decodeA3 lc w (fld w 9 0)
    | 0x4 => some (.sel lc (w.getLsbD 10) rd ra (field5 w 11) (fieldN 6 4 w) (fieldN 4 0 w))
    | 0x5 => decodeA5 lc w (fld w 9 0)
    | 0x8 => some (.addi lc f x rd ra imm)
    | 0x9 => some (.subi lc f x rd ra imm)
    | 0xa => some (.andi lc f x rd ra imm)
    | 0xb => some (.ori lc f x rd ra imm)
    | 0xc => some (.xori lc f x rd ra imm)
    | 0xd => decodeShift lc w (fld w 13 12)
    | 0xe => some (.setq lc rd (fieldN 5 16 w) (fieldN 16 0 w))
    | 0xf => some (.putq lc rd (fieldN 5 16 w) (fieldN 16 0 w))
    | 0x10 => some (.adr lc rd (fieldN 21 0 w))
    | 0x12 => some (.ldb lc rd ra mo imm)
    | 0x13 => some (.ldh lc rd ra mo imm)
    | 0x14 => some (.ldw lc rd ra mo imm)
    | 0x15 => some (.ldd lc rd ra mo imm)
    | 0x16 => some (.ldsb lc rd ra mo imm)
    | 0x17 => some (.ldsh lc rd ra mo imm)
    | 0x18 => some (.ldsw lc rd ra mo imm)
    | 0x19 => some (.stb lc rd ra mo imm)
    | 0x1a => some (.sth lc rd ra mo imm)
    | 0x1b => some (.stw lc rd ra mo imm)
    | 0x1c => some (.std lc rd ra mo imm)
    | 0x1d => decodeIndexed lc w (fld w 8 5)
    | 0x1e => decodeAmo lc w (fld w 13 10)
    | 0x1f => some (.prfm lc (fieldN 5 21 w) ra mo imm)
    | 0x20 => decodeV20 lc w (fld w 4 0)
    | 0x21 => decodeV21 lc w (fld w 4 0)
    | 0x22 => decodeV22 lc w (fld w 4 0)
    | 0x23 => decodeV23 lc w (fld w 4 0)
    | 0x24 => decodeV24 lc w (fld w 4 0)
    | 0x25 => decodeV25 lc w (fld w 4 0)
    | 0x26 => decodeV26 lc w (fld w 4 0)
    | 0x27 => decodeV27 lc w (fld w 4 0)
    | 0x2c => decodeV2c lc w (fld w 4 0)
    | 0x2d => decodeV2d lc w (fld w 4 0)
    | 0x30 => some (.bCond lc (fieldN 4 22 w) (w.getLsbD 21) (fieldN 4 17 w) (fieldN 17 0 w))
    | 0x31 => some (.b lc (fieldN 26 0 w))
    | 0x32 => some (.bl lc (fieldN 26 0 w))
    | 0x3a => decodeA3a lc w (fld w 9 0)
    | 0x38 => decodeS38 lc w (fld w 15 12)
    | 0x39 => decodeS39 lc w (fld w 15 12)
    | 0x3b => decodeS3b lc w (fld w 15 12)
    | 0x3c => decodeS3c lc w (fld w 15 12)
    | 0x3d => decodeS3d lc w (fld w 15 12)
    | 0x3e => decodeS3e lc w (fld w 15 12)
    | _ => none

end Sys2Proof.Machine
end

