-- ==== Sys2Proof/Safety.lean ====
section
/-! DEFINITION. The terms claims are stated in: a core that issues its next instruction undisturbed, and what one command leaves of the
device beside what it is said to change. -/

namespace Sys2Proof.Machine

/-! ### One core -/

/-- `t` is `u` but that core `lc` has become `c`: no other core, no byte of memory and no other unit has changed. -/
def CoreNow (lc : LC) (u t : State) (c : Core) : Prop :=
  coreOf t lc.val = c ∧ (∀ n, n ≠ lc.val → coreOf t n = coreOf u n) ∧ { t with cores := u.cores } = u

/-- Core `lc` issues its next instruction in `s` and nothing beside the instruction acts on it: it runs (07 R180), no shadow group or shadow
is open (04 R101, R103), nothing is due at the boundary, no match is suppressed and no step armed (23 R552, R561), its counters stand
(23 R565), and the fetch obtains the word, which leaves `u` and owes no A bit (07 R179; 08 R208). -/
structure Issues (lc : LC) (s u : State) : Prop where
  runs : coreRuns s lc.val = true
  alone : (coreOf s lc.val).group = none ∧ (coreOf s lc.val).shadows = []
  clear : boundaryDue s lc.val = false
  unarmed : (coreOf s lc.val).skipOnce = false ∧ (coreOf s lc.val).eretSkip = 0 ∧ (coreOf s lc.val).eretStep = 0 ∧ (coreOf s lc.val).stepReq = false ∧
    (coreOf s lc.val).resuming = false
  counters : (csr (coreOf s lc.val).regs 0x522).getLsbD 0 = true ∨ levelOf (coreOf s lc.val).regs = 2
  fetched : ∃ page, fetch lc.val s = (.word [] page, u)
  kept : coreOf u lc.val = { coreOf s lc.val with tlbs := (coreOf u lc.val).tlbs }

/-- Core `lc` issues its next instruction as a member of its open shadow group `g` (04 R103), no step armed, the fetch leaving `u` and owing no
A bit; the group notes the page it used. -/
structure IssuesInGroup (lc : LC) (s u : State) (g : Group) : Prop where
  runs : coreRuns s lc.val = true
  member : (coreOf s lc.val).group = some g ∧ g.closed = false
  unarmed : (coreOf s lc.val).eretStep = 0 ∧ (coreOf s lc.val).resuming = false
  fetched : ∃ page, fetch lc.val s = (.word [] page, u)
  kept : coreOf u lc.val = { coreOf s lc.val with tlbs := (coreOf u lc.val).tlbs }
/-- The group of core `lc` has closed and may commit, owing no A or D bit and predicting nothing; its counters stand and nothing is armed. -/
structure MayCommit (lc : LC) (s : State) (g : Group) : Prop where
  runs : coreRuns s lc.val = true
  closed : (coreOf s lc.val).group = some g ∧ g.closed = true
  plain : g.rsOps = [] ∧ g.itts = [] ∧ (coreOf s lc.val).overlay = []
  counters : (csr (coreOf s lc.val).regs 0x522).getLsbD 0 = true
  unarmed : (coreOf s lc.val).skipOnce = false ∧ (coreOf s lc.val).eretSkip = 0 ∧ (coreOf s lc.val).eretStep = 0 ∧ (coreOf s lc.val).stepReq = false
/-- The core after an instruction that changes registers alone, its PC at `pc`. -/
def Ran (lc : LC) (u t : State) (pc : Word64) (R : Regs → Regs → Prop) : Prop :=
  ∃ r, R (coreOf u lc.val).regs r ∧ CoreNow lc u t { coreOf u lc.val with regs := r, pc := pc }

/-- The command `i` answers a next state in `s`, of which `P` holds. -/
def Completes (i : Instr) (s : State) (P : State → Prop) : Prop := ∃ t, exec i s = .next t ∧ P t
/-- The instruction `i` of a core that issues it ends with its PC at the next instruction, the registers changed as `R` says. -/
def Executes (lc : LC) (s u : State) (i : Instr) (R : Regs → Regs → Prop) : Prop :=
  Completes i s fun t => Ran lc u t ((coreOf u lc.val).pc + 4) R

/-! ### Registers -/

/-- `w` written to general register `rd`, the flags `fl`: a write to g0 is discarded and g0 reads as zero (03 R60); every other register
as before. -/
def WroteG (rd : GReg) (w : Word64) (fl : Flags) (old new : Regs) : Prop :=
  (∀ r, readG new r = if r = rd ∧ rd ≠ 0 then w else readG old r) ∧ new.flags = fl ∧ new.v = old.v ∧ new.k = old.k ∧ new.csr = old.csr
/-- The flags of a sum (03 R71), from the exact unsigned and signed results. -/
def sumFlags (r : Word64) (carry : Bool) (exact : Int) : Flags :=
  { n := r.msb, z := decide (r = 0), c := carry, v := decide (exact < -(2 ^ 63) ∨ 2 ^ 63 ≤ exact) }
/-- The flags of a logical result (03 R71); `v` where a division sets V. -/
def resultFlags (r : Word64) (v : Bool) : Flags := { n := r.msb, z := decide (r = 0), c := false, v := v }
/-- No register is written. -/
def SameRegs (old new : Regs) : Prop := new = old
/-- `w` written to vector register `vd`, every other register as before. -/
def WroteV (vd : VReg) (w : Vec) (old new : Regs) : Prop :=
  (∀ r, readV new r = if r = vd then w else readV old r) ∧ new.flags = old.flags ∧ new.g = old.g ∧ new.k = old.k ∧ new.csr = old.csr
/-- `w` written to mask register `kd`: k0 reads as all ones and a write to it is discarded (05 R124). -/
def WroteK (kd : KReg) (w : Word64) (old new : Regs) : Prop :=
  (∀ r, readK new r = if r = kd ∧ kd ≠ 0 then w else readK old r) ∧ new.flags = old.flags ∧ new.g = old.g ∧ new.v = old.v ∧ new.csr = old.csr

/-! ### Exception entry -/

/-- The exception registers used at a level: the S registers at U and S, the K copies at K (07 R173). -/
def bankOf (r : Regs) : Nat := if levelOf r = 2 then 0x800 else 0x400
/-- `t` is `u` after core `lc` has entered an exception or interrupt (07 R176, R177): what the exception registers hold, level and status,
the exchange of g31 where the level is raised, the PC at the vector; nothing else of the device changes. `info` is `CSR_ECAUSE` but NESTED. -/
structure Entered (lc : LC) (u t : State) (cause info : Nat) (epc eaddr empc insn elanes : Word64) : Prop where
  others : ∀ n, n ≠ lc.val → coreOf t n = coreOf u n
  device : { t with cores := u.cores } = u
  estat : csr (coreOf t lc.val).regs (bankOf (coreOf u lc.val).regs + 3) =
    BitVec.ofNat 64 ((flagsWord (coreOf u lc.val).regs.flags).toNat * 256 + levelOf (coreOf u lc.val).regs * 16 +
      ((csr (coreOf u lc.val).regs (bankOf (coreOf u lc.val).regs)).getLsbD 0).toNat)
  epc : csr (coreOf t lc.val).regs (bankOf (coreOf u lc.val).regs + 2) = epc
  ecause : csr (coreOf t lc.val).regs (bankOf (coreOf u lc.val).regs + 4) =
    BitVec.ofNat 64 (info + 2 ^ 62 * ((csr (coreOf u lc.val).regs (bankOf (coreOf u lc.val).regs)).getLsbD 1).toNat)
  eaddr : csr (coreOf t lc.val).regs (bankOf (coreOf u lc.val).regs + 5) = eaddr
  empc : csr (coreOf t lc.val).regs (bankOf (coreOf u lc.val).regs + 6) = empc
  einsn : csr (coreOf t lc.val).regs (bankOf (coreOf u lc.val).regs + 7) = insn
  elanes : csr (coreOf t lc.val).regs (bankOf (coreOf u lc.val).regs + 8) = elanes
  level : levelOf (coreOf t lc.val).regs = max 1 (levelOf (coreOf u lc.val).regs)
  ieExl : (csr (coreOf t lc.val).regs (bankOf (coreOf u lc.val).regs)).getLsbD 0 = false ∧
    (csr (coreOf t lc.val).regs (bankOf (coreOf u lc.val).regs)).getLsbD 1 = true
  stack : levelOf (coreOf u lc.val).regs = 0 →
    readG (coreOf t lc.val).regs 31 = csr (coreOf u lc.val).regs 0x409 ∧ csr (coreOf t lc.val).regs 0x409 = readG (coreOf u lc.val).regs 31
  general : ∀ i, (i ≠ 31 ∨ levelOf (coreOf u lc.val).regs ≠ 0) → readG (coreOf t lc.val).regs i = readG (coreOf u lc.val).regs i
  kept : (coreOf t lc.val).regs.flags = (coreOf u lc.val).regs.flags ∧ (coreOf t lc.val).regs.v = (coreOf u lc.val).regs.v ∧
    (coreOf t lc.val).regs.k = (coreOf u lc.val).regs.k
  evbase : csr (coreOf t lc.val).regs (bankOf (coreOf u lc.val).regs + 1) = csr (coreOf u lc.val).regs (bankOf (coreOf u lc.val).regs + 1)
  esp : levelOf (coreOf u lc.val).regs ≠ 0 →
    csr (coreOf t lc.val).regs (bankOf (coreOf u lc.val).regs + 9) = csr (coreOf u lc.val).regs (bankOf (coreOf u lc.val).regs + 9)
  voff : (csr (coreOf t lc.val).regs 0x400).getLsbD 2 = (csr (coreOf u lc.val).regs 0x400).getLsbD 2
  csrs : ∀ n, n ≠ 0x400 → (n < bankOf (coreOf u lc.val).regs ∨ bankOf (coreOf u lc.val).regs + 9 < n) →
    csr (coreOf t lc.val).regs n = csr (coreOf u lc.val).regs n
  vector : (coreOf t lc.val).pc = csr (coreOf u lc.val).regs (bankOf (coreOf u lc.val).regs + 1) +
    BitVec.ofNat 64 ((if levelOf (coreOf u lc.val).regs = 0 then 0 else 0x800) + cause * 0x40)
/-- The instruction `i`, whose word is `w`, raises the exception `cause` with the return PC `epc` (07 R178, R182). -/
def Raises (lc : LC) (s u : State) (i : Instr) (w : Word32) (cause reason acc : Nat) (eaddr epc : Word64) : Prop :=
  Completes i s fun t =>
    Entered lc u t cause (acc * 2 ^ 38 + reason * 256 + cause) epc eaddr (coreOf u lc.val).pc (w.setWidth 64) 0
/-- The instruction raises EXC_ILLEGAL (07 R182). -/
def Illegal (lc : LC) (s u : State) (i : Instr) (w : Word32) : Prop := Raises lc s u i w 1 0 0 0 (coreOf u lc.val).pc

/-! ### Memory -/

/-- Every byte of memory reads as before. -/
def SameBytes (s t : State) : Prop := ∀ a, readByte t a = readByte s a
/-- Every byte of memory outside the `n` bytes at `pa` reads as before. -/
def SameBytesBut (pa n : Nat) (s t : State) : Prop := ∀ a, (a < pa ∨ pa + n ≤ a) → readByte t a = readByte s a
/-- The bytes at `pa` are those of `v`, lowest first. -/
def HoldsBytes (t : State) (pa n : Nat) (v : Nat) : Prop := ∀ i, i < n → readByte t (pa + i) = BitVec.ofNat 8 (v / 256 ^ i)
/-- The access is served by the core's own caches or its own scratchpad: a line of memory is held coherent, in the core's L1D and modified in
its L2, on an MT 0 page (09 R224, R226; 10 R251). -/
structure OwnLine (lc : LC) (a : Access) (u : State) : Prop where
  inside : leavesCore u lc.val a = false
  backed : backed u a.pa = true
  unfenced : lineFenced u (lineOf a.pa) = false
  place : ∃ p, placeOf a.pa = some p ∧ (p.region = .hbm ∨ p.region = .ddr ∨ p.region = .scratch)
  line : isMemory a.pa = true → a.mt = 0 ∧ l2On u (pcOf u lc.val) = true ∧ (∀ nt, coherentRead lc.val (lineOf a.pa) a.tc false nt u = u) ∧
    staleView u (pcOf u lc.val) (lineOf a.pa) false = none ∧
    ∃ slot l, l2Copy u (pcOf u lc.val) (lineOf a.pa) = some (slot, l) ∧ l.st = .m ∧ l.stale = none
/-- A data access of `n` bytes at `va` passes its checks, owes no A or D bit, changes nothing in passing them, and is aligned. -/
structure Passes (lc : LC) (w : Want) (va : Word64) (n : Nat) (ld st : Bool) (u : State) (a : Xlat) : Prop where
  aligned : va.toNat % n = 0
  checked : access lc.val w va n ld st u = (.ok a, u)
  owed : a.ads = []
/-- Core `lc` has executed a load: its shadow is open with `n` more instructions to its write point, it begins a shadow group, and no
register and nothing else of the device has changed (04 R101, R103). -/
def OpensShadow (lc : LC) (u t : State) (sh : List Shadow) : Prop :=
  ∃ g, CoreNow lc u t { coreOf u lc.val with pc := (coreOf u lc.val).pc + 4, shadows := sh, group := some g } ∧
    g.firstPc = (coreOf u lc.val).pc ∧ g.snap = (coreOf u lc.val).regs ∧ g.members = 1 ∧ g.closed = false

/-- Nothing stands between an agent and the bytes of the range: they are this device's, no cache holds a line of them, no request for one is under
way, none is poisoned or fenced (10 R250). -/
def Clear (s : State) (pa n : Nat) : Prop := ∀ i, i < n →
  let line := lineOf (pa + i)
  readsPoison s line = false ∧ (isMemory (64 * line) = true → remoteSlot s line = none ∧ findDir s (homeOf s line) line = none ∧
    l3Copy s (homeOf s line) line = none ∧ (∀ q ∈ s.mem.homeQ, q.line ≠ line) ∧ ∀ g ∈ s.mem.grants, g.line ≠ line)

/-- The line at `pa` is served at its home on this device at once: it is backed memory of this device's slot, not fenced, held by no cache and
nothing is under way for it (10 R247, R254). -/
def AtHome (s : State) (pa : Nat) : Prop :=
  isMemory pa = true ∧ backed s pa = true ∧ lineFenced s (lineOf pa) = false ∧ remoteSlot s (lineOf pa) = none ∧ Clear s pa 64

/-- The home of a line of this device's backed memory is there and has nothing in hand for it, and no coherent message waits to leave
(10 R247, R258). -/
structure HomeIdle (s : State) (line : Nat) : Prop where
  memory : isMemory (64 * line) = true
  backed : backed s (64 * line) = true
  own : remoteSlot s line = none
  awake : islandSilent s (uHome (homeOf s line)) = false
  idle : (∀ q ∈ s.mem.homeQ, q.line ≠ line) ∧ ∀ g ∈ s.mem.grants, g.line ≠ line
  quiet : s.links.cohOut = []

/-! ### Vectors -/

/-- Lane `i` of a vector of `w`-bit lanes (05 R123). -/
def lane (w : Nat) (v : Vec) (i : Nat) : BitVec w := v.extractLsb' (w * i) w
/-- `new` holds `f i` in each active lane `i`; an inactive lane keeps its value or, zeroing, becomes zero (05 R125). -/
def MaskedLanes (w : Nat) (mask : Word64) (z : Bool) (f : Nat → BitVec w) (old new : Vec) : Prop :=
  ∀ i, i < 512 / w → lane w new i = if mask.getLsbD i then f i else if z then 0 else lane w old i
/-- The vector unit may be used: it is on, or the core is not at U (07 R175). -/
def VectorOn (r : Regs) : Prop := ¬(levelOf r = 0 ∧ (csr r 0x400).getLsbD 2 = true)
/-- The instruction ends with `vd` holding a vector of which `P` holds of the old value and the new, nothing else changed. -/
def ExecutesV (lc : LC) (s u : State) (i : Instr) (vd : VReg) (P : Vec → Vec → Prop) : Prop :=
  Executes lc s u i fun old new => ∃ x, P (readV old vd) x ∧ WroteV vd x old new
/-- The active lanes of `w` bits, lowest first. -/
def activeLanes (w : Nat) (mask : Word64) : List Nat := (List.range (512 / w)).filter fun i => mask.getLsbD i
/-- FPCSR after an instruction that raised the flags `bits` (05 R131). -/
def FpFlagsJoined (bits : Nat) (old new : Regs) : Prop :=
  csr new 0x002 = csr old 0x002 ||| BitVec.ofNat 64 bits ∧ ∀ n, n ≠ 0x002 → csr new n = csr old n

/-- The vector destination and nothing else is written, beside the FPCSR: `P` holds of its old value and the new. -/
def WroteFp (vd : VReg) (P : Vec → Vec → Prop) (old new : Regs) : Prop :=
  new.flags = old.flags ∧ new.g = old.g ∧ new.k = old.k ∧ (∀ v, v ≠ vd → readV new v = readV old v) ∧ P (readV old vd) (readV new vd)
/-- A floating-point instruction over `L` lanes, of which lane `j` raises `fl j` where it is active (05 R131, R132): with no raised exception
enabled the flags join FPCSR and the registers change as `R` says; else nothing does and EXC_FP reports the flags and the lanes that raised an
enabled one. -/
def FpEnds (lc : LC) (s u : State) (i : Instr) (word : Word32) (L : Nat) (mask : Word64) (fl : Nat → FpFlags) (R : Regs → Regs → Prop) : Prop :=
  let enabled := fld (csr (coreOf u lc.val).regs 0x002) 12 8
  let raised (j : Nat) : Nat := if mask.getLsbD j then (fl j).bits else 0
  let bits := (List.range L).foldl (fun b j => b ||| raised j) 0
  (bits &&& enabled = 0 → Executes lc s u i fun old new => FpFlagsJoined bits old new ∧ R old new) ∧
  (bits &&& enabled ≠ 0 → ∃ lanes : Word64, (∀ j, lanes.getLsbD j = (decide (j < L) && decide (raised j &&& enabled ≠ 0))) ∧
    Completes i s fun t => Entered lc u t 13 (bits * 2 ^ 40 + 13) (coreOf u lc.val).pc 0 (coreOf u lc.val).pc (word.setWidth 64) lanes)
/-- The value and the flags of node `i` at level `d` of the tree of a reduction (05 R137): its two nodes below combined, the one that has a value,
or none; level 0 are the active lanes. -/
def treeAt (op : Nat → Nat → Nat × FpFlags) (x : Nat → Nat) (act : Nat → Bool) : Nat → Nat → Option (Nat × Nat)
  | 0, i => if act i then some (x i, 0) else none
  | d + 1, i =>
    match treeAt op x act d (2 * i), treeAt op x act d (2 * i + 1) with
    | some a, some b => some ((op a.1 b.1).1, a.2 ||| b.2 ||| (op a.1 b.1).2.bits)
    | some a, none => some a
    | none, b => b

/-! ### Commands of control space -/

/-- Nothing ahead of the register's own values refuses the access of `w` at `off` (02 R41): the device is not in OFF, level `lv`, debug level `dbg`,
no fence, no silent bridge, parity sound, no lock set. -/
structure Answers (w : Writer) (lv dbg off : Nat) (s : State) : Prop where
  level : lv ≤ writerLevel s w
  attached : dbgAllows s w dbg = true
  unfenced : regFenced s off = false
  answers : bridgeSilent s off = false
  sound : s.ctl.badParity.contains off = false
  unlocked : s.ctl.locks = 0
  powered : s.power.mode ≠ .off
/-- A write by `w` at `off` is not refused either for want of room in the ledger (02 R56). -/
structure Reaches (w : Writer) (lv dbg off : Nat) (s : State) : Prop extends Answers w lv dbg off s where
  room : ledgerFull s off = false
/-- The write of `v` at `off` has been accepted and has made `u` of the device (02 R40, R56): `ST_OK`, and the write of the writer's level in the
ledger, its newest entry; an access to the debug unit is noted there, and what others read of the register until the next edge in the rind's
copies (02 R43). -/
def Accepted (w : Writer) (off : Nat) (v : Word32) (s u t : State) : Prop :=
  t.ans = { status := 0 } ∧
  (∃ e rest, t.ctl.ledger = e :: rest ∧ e.offset = off ∧ e.value = v ∧ e.level = writerLevel s w) ∧
  (t.dbg = u.dbg ∨ 0x5000000 ≤ off ∧ t.dbg = { u.dbg with lastAccess := u.time.now }) ∧
  { t with ans := u.ans, ctl := { t.ctl with ledger := u.ctl.ledger, copies := u.ctl.copies }, dbg := u.dbg } = u
/-- The command `i`, a write of `v` at `off`, is accepted and makes of the device what `E` says. -/
def Commands (i : Instr) (w : Writer) (off : Nat) (v : Word32) (s : State) (E : State → Prop) : Prop :=
  Completes i s fun t => ∃ u, E u ∧ Accepted w off v s u t
/-- The command `i` answers `st` and nothing else changes; an access to the debug unit is noted there. -/
def Refuses (i : Instr) (s : State) (st : Nat) : Prop :=
  Completes i s fun t => t.ans = { status := st } ∧ { t with ans := s.ans, dbg := { t.dbg with lastAccess := s.dbg.lastAccess } } = s
/-- The read `i` answers `st` and `v`, and what it clears makes `u` of the device. -/
def Reads (i : Instr) (s u : State) (st : Nat) (v : Word64) : Prop :=
  Completes i s fun t => t.ans = { status := st, value := v } ∧ { t with ans := u.ans, dbg := { t.dbg with lastAccess := u.dbg.lastAccess } } = u

/-- The read `i` by `w` of a read-to-clear register answers its value `v`, and what it returns is cleared, as `E` says; a debugger that may only
observe clears nothing (00 R8; 02 R44). -/
def ReadsToClear (i : Instr) (w : Writer) (s : State) (v : Word64) (E : State → Prop) : Prop :=
  (readClears w s = true → ∃ u, Reads i s u 0 v ∧ E u) ∧ (readClears w s = false → Reads i s s 0 v)

/-! ### Links -/

/-- A port that has sent one frame more, which acknowledges what the port has received (15 R376, R382). -/
def framed (po : Port) (ms : List Msg) : Port :=
  let f : Frame := { fseq := po.txSeq, msgs := ms, aseq := po.rxSeq, akind := po.ackKind, coh := decide (po.join.state = .coherent) }
  { po with txSeq := po.txSeq + 1, retryBuf := po.retryBuf ++ [f], ackKind := 0, pwr := if po.pwr = .standby then .active else po.pwr }
/-- A link-control message (15 R379). -/
def ctlMsg (kind : BitVec 8) (k : Nat) : Msg := { kind := kind, kspec := BitVec.ofNat 40 k }
/-- The ports but `p` are those of before, and no byte of memory, core or queue has changed. -/
def OnlyPort (p : Nat) (po : Port) (s t : State) : Prop :=
  port t p = po ∧ (∀ q, q ≠ p → port t q = port s q) ∧ t.mem = s.mem ∧ t.cores = s.cores ∧ t.office = s.office

/-! ### Commands of queues -/

/-- `c` is the next command of the COMMAND queue it came from: the queue's head letter, none fired before it, its fields as its operation `op` has
them, LCTR granted, not held back by ORDER (14 R349, R350). -/
structure NextCmd (c : Cmd) (op : Nat) (s : State) : Prop where
  queue : qKind (queueOf s c.q) = 2 ∧ (queueOf s c.q).state = .active ∧ sopDown s (c.q % 8) = false
  alone : ∀ x ∈ s.office.ready, x.q ≠ c.q
  front : ∃ l r, (queueOf s c.q).burst = l :: r ∧ c = { q := c.q, data := l.data, cpm := l.postmark }
  fields : fieldsBad c = false ∧ cOp c = op
  free : cFlag c fOrder = false ∨ runningOf s c.q = false
  counter : cFlag c fLctren = true → granted s c.q 1 (cLctr c) = true
/-- The command starts: it leaves its queue and runs, or stands there with the status it failed with; `E` holds of the state after. -/
def Starts (i : Instr) (c : Cmd) (s : State) (r : Running) (E : State → Prop) : Prop :=
  Completes i s fun t => (queueOf t c.q).burst = (queueOf s c.q).burst.tail ∧ t.office.cmds = s.office.cmds ++ [r] ∧ E t
/-- A use of a region meets no code of 14 R352 to R354. -/
def MayUse (s : State) (q r off n need : Nat) : Prop := ∀ x ∈ (localUse s q r off n need).1, x = 0
/-- RCTR, where it is used, is granted and in service (14 R353). -/
def RctrFree (c : Cmd) (s : State) : Prop := cFlag c fRctren = true → granted s c.q 1 (cRctr c) = true ∧ sopDown s (cRctr c % 8) = false

/-! ### The fault log and the keeper's services -/

/-- The newest record of the fault log is of the kind (20 R499, R500). -/
def Newest (kind : Nat) (t : State) : Prop := ∃ e rest, t.resil.log = e :: rest ∧ e.record.take 2 = bytesOfNat kind 2
/-- Core `lc` has called service `fn` from S: it stands at K with its gate open and `fn` in g1 (19 R463). -/
def Called (lc : LC) (fn : Nat) (s : State) : Prop :=
  levelOf (coreOf s lc.val).regs = 2 ∧ (coreOf s lc.val).gate.isOpen = true ∧ (coreOf s lc.val).gate.level ≠ 0 ∧
    (coreOf s lc.val).standing = .issuing ∧ (readG (coreOf s lc.val).regs 1).toNat = fn
/-- An argument of a service. -/
def argOf (lc : LC) (s : State) (i : GReg) : Nat := (readG (coreOf s lc.val).regs i).toNat
/-- The service makes of the device what `E` says and answers `st` in g1 with Z, its result in g2 where it has one (19 R463). -/
def Serves (i : Instr) (lc : LC) (s : State) (st : Nat) (res : Option Nat) (E : State → Prop) : Prop :=
  Completes i s fun t => ∃ u, E u ∧ CoreNow lc u t { coreOf u lc.val with regs := (coreOf t lc.val).regs } ∧
    (∀ n, readG (coreOf t lc.val).regs n = if n = 1 then BitVec.ofNat 64 st else match res with
      | some v => if n = 2 then BitVec.ofNat 64 v else readG (coreOf u lc.val).regs n
      | none => readG (coreOf u lc.val).regs n) ∧
    (coreOf t lc.val).regs.flags = { (coreOf u lc.val).regs.flags with z := decide (st = 0) } ∧
    (coreOf t lc.val).regs.v = (coreOf u lc.val).regs.v ∧ (coreOf t lc.val).regs.k = (coreOf u lc.val).regs.k ∧
    (coreOf t lc.val).regs.csr = (coreOf u lc.val).regs.csr

end Sys2Proof.Machine
end

