-- ==== Sys2Proof/WellFormed.lean ====
section
/-! DEFINITION. Which terms of `Instr` are commands: the operands whose type admits more than the encoding or the device does. -/

namespace Sys2Proof

open Machine

/-- Ways of the cache a patrol read looks at: L1I, L1D, L2, L3 (09 R225, R230, R242). -/
def patrolWays (what : Nat) : Nat := if what < 2 then 4 else 16
def patrolUnits (what : Nat) : Nat := if what < 3 then 576 else 256
/-- The checks. An instruction's selector must be one of its own (04 R96; 03 R70); a partial write lies in its line and a far atomic is naturally
aligned (10 R250; 04 R113); patrol names a way of a cache the device has (09 R242); a timer counts at least once (18 R444). -/
def wellFormed (i : Instr) : Bool :=
  match i with
  | .loadIndexed _ _ _ _ _ sel _ => decide (sel.toNat ≤ 6)
  | .storeIndexed _ _ _ _ _ sel _ => decide (8 ≤ sel.toNat ∧ sel.toNat ≤ 11)
  | .reservedMajorOpcode _ w => reservedWord w
  | .pw _ _ off bytes => decide (off.val + bytes.length ≤ 64)
  | .famo _ _ off _ wide _ _ => decide (off.val % (if wide then 8 else 4) = 0)
  | .cachePatrolRead what unit way _ _ => decide (unit < patrolUnits what.val ∧ way < patrolWays what.val)
  | .timerTick _ n => decide (1 ≤ n)
  | _ => true

end Sys2Proof
end

