-- ==== Sys2Proof/Certificates/Slice0/Obligations.lean ====
section
/-! DEFINITION. The statements for the provers. Where a value or a behaviour is the model's own choice, the docstring names the log entry. -/

open Sys2Proof Sys2Proof.Machine

/-! ### The block -/

/-- A step performs the command at the front of the queue on the state with the queue's rest; on an empty queue the block idles (the model's
choice, log entry 1). -/
def Obligations.StepPerformsFrontCommand : Prop :=
  (∀ (c : Instr) (rest : List Instr) (s : State), step { s with pending := c :: rest } = exec c { s with pending := rest }) ∧
  ∀ s : State, s.pending = [] → step s = .next (idle s)

/-! ### Core: integer instructions (03) -/

/-- The register forms of opcodes 0x01 to 0x03 write gd and go on at the next instruction: the results of 03 R72 and the special cases of R73; in
the flag-setting form the flags of R71, else FLAGS unchanged. Nothing else of the device changes; a write to g0 is discarded (R60). -/
def Obligations.IntegerRegisterFormsGiveResults : Prop :=
  ∀ (lc : LC) (s u : State) (f : Bool) (rd ra rb : GReg), Issues lc s u →
    let r := (coreOf u lc.val).regs
    let a := readG r ra
    let b := readG r rb
    let c := r.flags.c
    let gives (i : Instr) (w : Word64) (x : Flags) : Prop := Executes lc s u i (WroteG rd w (if f then x else r.flags))
    let plain (i : Instr) (w : Word64) : Prop := gives i w (resultFlags w false)
    gives (.add lc f rd ra rb) (a + b) (sumFlags (a + b) (decide (2 ^ 64 ≤ a.toNat + b.toNat)) (a.toInt + b.toInt)) ∧
    gives (.adc lc f rd ra rb) (a + b + BitVec.ofNat 64 c.toNat)
      (sumFlags (a + b + BitVec.ofNat 64 c.toNat) (decide (2 ^ 64 ≤ a.toNat + b.toNat + c.toNat)) (a.toInt + b.toInt + c.toNat)) ∧
    gives (.sub lc f rd ra rb) (a - b) (sumFlags (a - b) (decide (b.toNat ≤ a.toNat)) (a.toInt - b.toInt)) ∧
    gives (.sbc lc f rd ra rb) (a - b - 1 + BitVec.ofNat 64 c.toNat)
      (sumFlags (a - b - 1 + BitVec.ofNat 64 c.toNat) (decide (b.toNat + 1 ≤ a.toNat + c.toNat)) (a.toInt - b.toInt - 1 + c.toNat)) ∧
    plain (.and lc f rd ra rb) (a &&& b) ∧ plain (.andn lc f rd ra rb) (a &&& ~~~b) ∧
    plain (.or lc f rd ra rb) (a ||| b) ∧ plain (.orn lc f rd ra rb) (a ||| ~~~b) ∧
    plain (.xor lc f rd ra rb) (a ^^^ b) ∧ plain (.xnor lc f rd ra rb) (~~~(a ^^^ b)) ∧
    gives (.mul lc f rd ra rb) (a * b) (sumFlags (a * b) (decide (2 ^ 64 ≤ a.toNat * b.toNat)) (a.toInt * b.toInt)) ∧
    plain (.mulh lc f rd ra rb) (BitVec.ofInt 64 (a.toInt * b.toInt / 2 ^ 64)) ∧
    plain (.mulhu lc f rd ra rb) (BitVec.ofNat 64 (a.toNat * b.toNat / 2 ^ 64)) ∧
    (b = 0 → gives (.div lc f rd ra rb) (BitVec.allOnes 64) (resultFlags (BitVec.allOnes 64) true) ∧
      gives (.divu lc f rd ra rb) (BitVec.allOnes 64) (resultFlags (BitVec.allOnes 64) true) ∧
      gives (.rem lc f rd ra rb) a (resultFlags a true) ∧ gives (.remu lc f rd ra rb) a (resultFlags a true)) ∧
    (b ≠ 0 → plain (.divu lc f rd ra rb) (BitVec.ofNat 64 (a.toNat / b.toNat)) ∧
      plain (.remu lc f rd ra rb) (BitVec.ofNat 64 (a.toNat % b.toNat)) ∧
      (a = 0x8000000000000000 → b = BitVec.allOnes 64 →
        gives (.div lc f rd ra rb) a (resultFlags a true) ∧ gives (.rem lc f rd ra rb) 0 (resultFlags 0 true)) ∧
      (¬(a = 0x8000000000000000 ∧ b = BitVec.allOnes 64) →
        plain (.div lc f rd ra rb) (BitVec.ofInt 64 (a.toInt.tdiv b.toInt)) ∧ plain (.rem lc f rd ra rb) (BitVec.ofInt 64 (a.toInt.tmod b.toInt)))) ∧
    plain (.sll lc f rd ra rb) (a <<< (b.toNat % 64)) ∧ plain (.srl lc f rd ra rb) (a >>> (b.toNat % 64)) ∧
    plain (.sra lc f rd ra rb) (a.sshiftRight (b.toNat % 64)) ∧ plain (.ror lc f rd ra rb) (a.rotateRight (b.toNat % 64)) ∧
    plain (.clz lc f rd ra 0) a.clz ∧ plain (.ctz lc f rd ra 0) a.ctz ∧
    plain (.popc lc f rd ra 0) (BitVec.ofNat 64 ((List.range 64).countP fun i => a.getLsbD i)) ∧
    plain (.brev lc f rd ra 0) a.reverse ∧
    (∀ w : Word64, (∀ i, i < 8 → w.extractLsb' (8 * i) 8 = a.extractLsb' (8 * (7 - i)) 8) → plain (.bswap lc f rd ra 0) w) ∧
    plain (.sextb lc f rd ra 0) ((a.extractLsb' 0 8).signExtend 64) ∧ plain (.sexth lc f rd ra 0) ((a.extractLsb' 0 16).signExtend 64) ∧
    plain (.sextw lc f rd ra 0) ((a.extractLsb' 0 32).signExtend 64) ∧ plain (.zextb lc f rd ra 0) ((a.extractLsb' 0 8).setWidth 64) ∧
    plain (.zexth lc f rd ra 0) ((a.extractLsb' 0 16).setWidth 64) ∧ plain (.zextw lc f rd ra 0) ((a.extractLsb' 0 32).setWidth 64)

/-- The immediate forms compute with imm14 extended as x selects (03 R74), the shifts with n (R75), `SETQ`, `PUTQ` and `ADR` as R76 states, `SEL`
as R77 and the table of conditions (R81) state; each writes gd alone, and FLAGS in the flag-setting form. -/
def Obligations.ImmediateConstantAndSelectFormsGiveResults : Prop :=
  ∀ (lc : LC) (s u : State) (f x : Bool) (rd ra rb : GReg) (imm : BitVec 14) (n : BitVec 6), Issues lc s u →
    let r := (coreOf u lc.val).regs
    let a := readG r ra
    let b : Word64 := if x then imm.setWidth 64 else imm.signExtend 64
    let gives (i : Instr) (w : Word64) (y : Flags) : Prop := Executes lc s u i (WroteG rd w (if f then y else r.flags))
    let plain (i : Instr) (w : Word64) : Prop := gives i w (resultFlags w false)
    let puts (i : Instr) (w : Word64) : Prop := Executes lc s u i (WroteG rd w r.flags)
    gives (.addi lc f x rd ra imm) (a + b) (sumFlags (a + b) (decide (2 ^ 64 ≤ a.toNat + b.toNat)) (a.toInt + b.toInt)) ∧
    gives (.subi lc f x rd ra imm) (a - b) (sumFlags (a - b) (decide (b.toNat ≤ a.toNat)) (a.toInt - b.toInt)) ∧
    plain (.andi lc f x rd ra imm) (a &&& b) ∧ plain (.ori lc f x rd ra imm) (a ||| b) ∧ plain (.xori lc f x rd ra imm) (a ^^^ b) ∧
    plain (.slli lc f false rd ra 0 n) (a <<< n.toNat) ∧ plain (.srli lc f false rd ra 0 n) (a >>> n.toNat) ∧
    plain (.srai lc f false rd ra 0 n) (a.sshiftRight n.toNat) ∧ plain (.rori lc f false rd ra 0 n) (a.rotateRight n.toNat) ∧
    (∀ (q : BitVec 5) (h : BitVec 16), q.toNat < 4 →
      puts (.setq lc rd q h) (h.setWidth 64 <<< (16 * q.toNat)) ∧
      ∃ w : Word64, (∀ i, i < 64 → w.getLsbD i = if 16 * q.toNat ≤ i ∧ i < 16 * q.toNat + 16 then h.getLsbD (i - 16 * q.toNat) else (readG r rd).getLsbD i) ∧
        puts (.putq lc rd q h) w) ∧
    (∀ off : BitVec 21, puts (.adr lc rd off) ((coreOf u lc.val).pc + off.signExtend 64 * 4)) ∧
    ∀ cond : BitVec 4, cond ≠ 15 →
      let fl := r.flags
      let holds := [fl.z, !fl.z, fl.n != fl.v, fl.n == fl.v, fl.z || fl.n != fl.v, !fl.z && fl.n == fl.v, !fl.c, fl.c, !fl.c || fl.z, fl.c && !fl.z,
        fl.n, !fl.n, fl.v, !fl.v, true].getD cond.toNat false
      puts (.sel lc false rd ra rb 0 cond) (if holds then a else readG r rb)

/-- A reserved major opcode or selector raises EXC_ILLEGAL (03 R70), and so do the reserved fields of the integer instructions (03 R72, R75 to
R77): rb of a unary instruction, x and imm14[11:6] of a shift by an immediate, Q above 3, f, fn[9:4] and condition 15 of `SEL`. -/
def Obligations.ReservedIntegerEncodingsRaiseIllegal : Prop :=
  ∀ (lc : LC) (s u : State) (f x : Bool) (rd ra rb : GReg) (hi n : BitVec 6) (q : BitVec 5) (h : BitVec 16) (cond : BitVec 4), Issues lc s u →
    (∀ w : Word32, reservedWord w = true → levelOf (coreOf u lc.val).regs ≠ 0 → Illegal lc s u (.reservedMajorOpcode lc w) w) ∧
    (rb ≠ 0 →
      Illegal lc s u (.clz lc f rd ra rb) (encA 3 rd ra rb f 0x10) ∧ Illegal lc s u (.ctz lc f rd ra rb) (encA 3 rd ra rb f 0x11) ∧
      Illegal lc s u (.popc lc f rd ra rb) (encA 3 rd ra rb f 0x12) ∧ Illegal lc s u (.bswap lc f rd ra rb) (encA 3 rd ra rb f 0x13) ∧
      Illegal lc s u (.brev lc f rd ra rb) (encA 3 rd ra rb f 0x14) ∧ Illegal lc s u (.sextb lc f rd ra rb) (encA 3 rd ra rb f 0x20) ∧
      Illegal lc s u (.sexth lc f rd ra rb) (encA 3 rd ra rb f 0x21) ∧ Illegal lc s u (.sextw lc f rd ra rb) (encA 3 rd ra rb f 0x22) ∧
      Illegal lc s u (.zextb lc f rd ra rb) (encA 3 rd ra rb f 0x24) ∧ Illegal lc s u (.zexth lc f rd ra rb) (encA 3 rd ra rb f 0x25) ∧
      Illegal lc s u (.zextw lc f rd ra rb) (encA 3 rd ra rb f 0x26)) ∧
    (x = true ∨ hi ≠ 0 →
      let w (sel : Nat) : Word32 := encI 13 rd ra f x (BitVec.ofNat 14 (sel * 4096 + hi.toNat * 64 + n.toNat))
      Illegal lc s u (.slli lc f x rd ra hi n) (w 0) ∧ Illegal lc s u (.srli lc f x rd ra hi n) (w 1) ∧
      Illegal lc s u (.srai lc f x rd ra hi n) (w 2) ∧ Illegal lc s u (.rori lc f x rd ra hi n) (w 3)) ∧
    (4 ≤ q.toNat → Illegal lc s u (.setq lc rd q h) (encQ 14 rd q h) ∧ Illegal lc s u (.putq lc rd q h) (encQ 15 rd q h)) ∧
    (f = true ∨ hi ≠ 0 ∨ cond = 15 → Illegal lc s u (.sel lc f rd ra rb hi cond) (encA 4 rd ra rb f (hi.toNat * 16 + cond.toNat)))

/-- Branches (03 R82 to R84): the target, g30 of the calls, EXC_ALIGN on a misaligned target and EXC_ILLEGAL on reserved fields. Beside the PC and
g30 only the branch's number and the structures of prediction (R86, R87) may change, with the LFSR that names the way they replace (09 R228; its
count of cycles is a free value). -/
def Obligations.BranchesGoToTheirTargets : Prop :=
  ∀ (lc : LC) (s u : State) (cond rsv : BitVec 4) (hint f : Bool) (off17 : BitVec 17) (off26 : BitVec 26) (rd ra rb : GReg), Issues lc s u →
    let c := coreOf u lc.val
    let fl := c.regs.flags
    let holds := [fl.z, !fl.z, fl.n != fl.v, fl.n == fl.v, fl.z || fl.n != fl.v, !fl.z && fl.n == fl.v, !fl.c, fl.c, !fl.c || fl.z, fl.c && !fl.z,
      fl.n, !fl.n, fl.v, !fl.v, true].getD cond.toNat false
    let goes (i : Instr) (pc : Word64) (R : Regs → Regs → Prop) : Prop := Completes i s fun t =>
      R c.regs (coreOf t lc.val).regs ∧
      coreOf t lc.val = { c with pc := pc, regs := (coreOf t lc.val).regs, predSeq := c.predSeq + 1, retStack := (coreOf t lc.val).retStack,
                                 itt := (coreOf t lc.val).itt, unpushed := (coreOf t lc.val).unpushed } ∧
      (∀ n, n ≠ lc.val → coreOf t n = coreOf u n) ∧
      { t with cores := u.cores, fresh := u.fresh, mem := { t.mem with lfsrs := u.mem.lfsrs } } = u
    let link : Regs → Regs → Prop := WroteG 30 (c.pc + 4) fl
    let target := readG c.regs ra
    (cond ≠ 15 → goes (.bCond lc cond hint 0 off17) (if holds then c.pc + off17.signExtend 64 * 4 else c.pc + 4) SameRegs) ∧
    goes (.b lc off26) (c.pc + off26.signExtend 64 * 4) SameRegs ∧
    goes (.bl lc off26) (c.pc + off26.signExtend 64 * 4) link ∧
    (target.toNat % 4 = 0 →
      goes (.br lc false 0 ra 0) target SameRegs ∧ goes (.blr lc false 0 ra 0) target link ∧ goes (.ret lc false 0 ra 0) target SameRegs) ∧
    (target.toNat % 4 ≠ 0 →
      Raises lc s u (.br lc false 0 ra 0) (encA 5 0 ra 0 false 0) 3 0 0 target c.pc ∧
      Raises lc s u (.blr lc false 0 ra 0) (encA 5 0 ra 0 false 1) 3 0 0 target c.pc ∧
      Raises lc s u (.ret lc false 0 ra 0) (encA 5 0 ra 0 false 2) 3 0 0 target c.pc) ∧
    (cond = 15 ∨ rsv ≠ 0 → Illegal lc s u (.bCond lc cond hint rsv off17) (encB cond hint rsv off17)) ∧
    (f = true ∨ rd ≠ 0 ∨ rb ≠ 0 → Illegal lc s u (.br lc f rd ra rb) (encA 5 rd ra rb f 0) ∧
      Illegal lc s u (.blr lc f rd ra rb) (encA 5 rd ra rb f 1) ∧ Illegal lc s u (.ret lc f rd ra rb) (encA 5 rd ra rb f 2))

/-- The return stack (03 R86): outside a group a call pushes its return address, at most 16 entries kept and the newest first, and a return
takes the newest entry out, while the level uses the return stack. Recovery from a branch of an open group that was predicted wrongly leaves no
overlay entry pushed and no entry taken after it; recovery named for any other branch changes nothing; and no register, PC or memory changes. -/
def Obligations.ReturnStackFollowsCallsAndReturns : Prop :=
  (∀ (lc : LC) (s u : State) (off : BitVec 26) (ra : GReg), Issues lc s u → (readG (coreOf u lc.val).regs ra).toNat % 4 = 0 →
    let c := coreOf u lc.val
    (rsUsed c.regs = true →
      (Completes (.bl lc off) s fun t => ∃ e, e.addr = c.pc + 4 ∧ e.level.toNat = levelOf c.regs ∧ e.taken = none ∧
        (coreOf t lc.val).retStack = e :: c.retStack.take 15) ∧
      (Completes (.blr lc false 0 ra 0) s fun t => ∃ e, e.addr = c.pc + 4 ∧ (coreOf t lc.val).retStack = e :: c.retStack.take 15) ∧
      ∀ e rest, c.retStack = e :: rest → c.overlay = [] → e.taken = none → (∀ x ∈ rest, x.seq ≠ e.seq) →
        Completes (.ret lc false 0 ra 0) s fun t => (coreOf t lc.val).retStack = rest) ∧
    (rsUsed c.regs = false →
      (Completes (.bl lc off) s fun t => (coreOf t lc.val).retStack = c.retStack) ∧
      Completes (.ret lc false 0 ra 0) s fun t => (coreOf t lc.val).retStack = c.retStack)) ∧
  ∀ (lc : LC) (s : State) (n : Nat), Completes (.mispredictRecovery lc n) s fun t =>
    (n ∈ (coreOf s lc.val).missed →
      (∀ e ∈ (coreOf t lc.val).overlay, e.seq ≤ n ∧ ∀ m, e.taken = some m → m ≤ n) ∧
      ∀ e ∈ (coreOf t lc.val).retStack, ∀ m, e.taken = some m → m ≤ n) ∧
    (n ∉ (coreOf s lc.val).missed → coreOf t lc.val = coreOf s lc.val) ∧
    (coreOf t lc.val).retStack.map RsEntry.addr = (coreOf s lc.val).retStack.map RsEntry.addr ∧
    (coreOf t lc.val).regs = (coreOf s lc.val).regs ∧ (coreOf t lc.val).pc = (coreOf s lc.val).pc ∧
    (∀ k, k ≠ lc.val → coreOf t k = coreOf s k) ∧ { t with cores := s.cores } = s

/-! ### Core: CSRs and control space (03 R64 to R66; 02 R37, R38) -/

/-- The CSR instructions (03 R64, R65): a status in gd and in Z, a read's value in gv; a write of a CSR without a rule of its own stores its value,
`CSRSET` and `CSRCLR` change the bits that gv names; an unlisted number gives ST_NOREG, a level that is too low ST_PRIV, and neither changes
anything else. Where gd and gv are one register it holds the status (the model's choice, log entry 24). -/
def Obligations.CsrInstructionsGiveStatusAndValue : Prop :=
  ∀ (lc : LC) (s u : State) (rd rv : GReg) (x : BitVec 12), Issues lc s u →
    let r := (coreOf u lc.val).regs
    let n := x.toNat
    let status (st : Nat) (old new : Regs) : Prop :=
      (∀ i, readG new i = if i = rd ∧ rd ≠ 0 then BitVec.ofNat 64 st else readG old i) ∧ new.flags = { old.flags with z := decide (st = 0) } ∧
        new.v = old.v ∧ new.k = old.k
    let reads (st : Nat) (w : Word64) : Prop := Executes lc s u (.csrrd lc rd rv x) fun old new =>
      (∀ i, readG new i = if i = rd ∧ rd ≠ 0 then BitVec.ofNat 64 st else if i = rv ∧ rv ≠ 0 then w else readG old i) ∧
        new.flags = { old.flags with z := decide (st = 0) } ∧ new.v = old.v ∧ new.k = old.k ∧ new.csr = old.csr
    let refused (st : Nat) : Prop := reads st 0 ∧
      Executes lc s u (.csrwr lc rd rv x) (fun old new => status st old new ∧ new.csr = old.csr) ∧
      Executes lc s u (.csrset lc rd rv x) (fun old new => status st old new ∧ new.csr = old.csr) ∧
      Executes lc s u (.csrclr lc rd rv x) (fun old new => status st old new ∧ new.csr = old.csr)
    let stored : Bool := n ∈ [0x002, 0x008, 0x040, 0x401, 0x402, 0x404, 0x405, 0x406, 0x407, 0x408, 0x409, 0x40A, 0x411, 0x480, 0x4C1, 0x4C2, 0x4C3, 0x4C4,
      0x520, 0x600, 0x601, 0x602, 0x603, 0x610, 0x801, 0x802, 0x809, 0x820, 0x821]
    let bits (i : Nat) : Nat := match csrDesc i with | some d => d.bits | none => 0
    let writes (i : Instr) (w : Word64) : Prop := w &&& ~~~(BitVec.ofNat 64 (bits n)) = 0 → Executes lc s u i (fun old new => status 0 old new ∧
      csr new n = w ∧ ∀ m, m ≠ n → csr new m = csr old m)
    (csrLevelOk r (levelOf r) n = false → refused 2) ∧
    (csrLevelOk r (levelOf r) n = true → csrDesc n = none → refused 1) ∧
    (csrLevelOk r (levelOf r) n = true →
      (stored = true → reads 0 (csr r n) ∧ writes (.csrwr lc rd rv x) (readG r rv) ∧ writes (.csrset lc rd rv x) (csr r n ||| readG r rv) ∧
        writes (.csrclr lc rd rv x) (csr r n &&& ~~~(readG r rv))) ∧
      (n = 0x009 → reads 0 (BitVec.ofNat 64 lc.val)) ∧
      (n = 0x001 → reads 0 (BitVec.ofNat 64 (8 * r.flags.n.toNat + 4 * r.flags.z.toNat + 2 * r.flags.c.toNat + r.flags.v.toNat)) ∧
        ((readG r rv).toNat < 16 → Executes lc s u (.csrwr lc rd rv x) fun old new =>
          (∀ i, readG new i = if i = rd ∧ rd ≠ 0 then 0 else readG old i) ∧
          new.flags = { n := (readG r rv).getLsbD 3, z := (readG r rv).getLsbD 2, c := (readG r rv).getLsbD 1, v := (readG r rv).getLsbD 0 } ∧
          new.csr = old.csr)))

/-! ### Core: loads, shadows, stores, atomics (04) -/

/-- A load served by the core's own caches or scratchpad (04 R94 to R96, R101, R103): outside a group it opens a shadow group and a shadow with
three instructions to its write point, holding the bytes at the address, zero- or sign-extended; no register and nothing else of the device
changes. mo 0b11, a `sel` without a meaning and low bits that are not zero raise EXC_ILLEGAL, a misaligned address EXC_ALIGN. -/
def Obligations.LoadsOpenAShadowWithTheirValue : Prop :=
  ∀ (lc : LC) (s u : State) (rt rb gi : GReg) (mo : BitVec 2) (off : BitVec 14) (a : Xlat), Issues lc s u →
    let r := (coreOf u lc.val).regs
    let va (n : Nat) : Word64 := readG r rb + off.signExtend 64 * BitVec.ofNat 64 n
    let vx (n : Nat) : Word64 := readG r rb + readG r gi * BitVec.ofNat 64 n
    let served (v : Word64) (n : Nat) : Prop :=
      Passes lc { wantLoad with noControl := n != 4 } v n true false u a ∧ a.acc.mt ≠ 2 ∧ OwnLine lc a.acc u
    let misses (i : Instr) (w : Word32) (v : Word64) : Prop := Raises lc s u i w 3 0 1 v (coreOf u lc.val).pc
    let opens (i : Instr) (w : Word64) : Prop := Completes i s fun t => OpensShadow lc u t [{ left := 3, dest := .gen rt, value := .word w }]
    let z (n : Nat) : Word64 := BitVec.ofNat 64 (readNat u a.acc.pa n)
    let x (n : Nat) : Word64 := (BitVec.ofNat (8 * n) (readNat u a.acc.pa n)).signExtend 64
    (mo ≠ 3 →
      (served (va 1) 1 → opens (.ldb lc rt rb mo off) (z 1) ∧ opens (.ldsb lc rt rb mo off) (x 1)) ∧
      (served (va 2) 2 → opens (.ldh lc rt rb mo off) (z 2) ∧ opens (.ldsh lc rt rb mo off) (x 2)) ∧
      (served (va 4) 4 → opens (.ldw lc rt rb mo off) (z 4) ∧ opens (.ldsw lc rt rb mo off) (x 4)) ∧
      (served (va 8) 8 → opens (.ldd lc rt rb mo off) (z 8)) ∧
      (served (vx 1) 1 → opens (.loadIndexed lc rt rb mo gi 0 0) (z 1) ∧ opens (.loadIndexed lc rt rb mo gi 4 0) (x 1)) ∧
      (served (vx 2) 2 → opens (.loadIndexed lc rt rb mo gi 1 0) (z 2) ∧ opens (.loadIndexed lc rt rb mo gi 5 0) (x 2)) ∧
      (served (vx 4) 4 → opens (.loadIndexed lc rt rb mo gi 2 0) (z 4) ∧ opens (.loadIndexed lc rt rb mo gi 6 0) (x 4)) ∧
      (served (vx 8) 8 → opens (.loadIndexed lc rt rb mo gi 3 0) (z 8)) ∧
      ((va 2).toNat % 2 ≠ 0 → misses (.ldh lc rt rb mo off) (encM 0x13 rt rb mo off) (va 2) ∧ misses (.ldsh lc rt rb mo off) (encM 0x17 rt rb mo off) (va 2)) ∧
      ((va 4).toNat % 4 ≠ 0 → misses (.ldw lc rt rb mo off) (encM 0x14 rt rb mo off) (va 4) ∧ misses (.ldsw lc rt rb mo off) (encM 0x18 rt rb mo off) (va 4)) ∧
      ((va 8).toNat % 8 ≠ 0 → misses (.ldd lc rt rb mo off) (encM 0x15 rt rb mo off) (va 8)) ∧
      ∀ sel ∈ [1, 2, 3, 5, 6], (vx (2 ^ (sel % 4))).toNat % 2 ^ (sel % 4) ≠ 0 →
        misses (.loadIndexed lc rt rb mo gi (BitVec.ofNat 4 sel) 0) (encIndexed rt rb mo gi (BitVec.ofNat 4 sel) 0) (vx (2 ^ (sel % 4)))) ∧
    (mo = 3 →
      Illegal lc s u (.ldb lc rt rb mo off) (encM 0x12 rt rb mo off) ∧ Illegal lc s u (.ldh lc rt rb mo off) (encM 0x13 rt rb mo off) ∧
      Illegal lc s u (.ldw lc rt rb mo off) (encM 0x14 rt rb mo off) ∧ Illegal lc s u (.ldd lc rt rb mo off) (encM 0x15 rt rb mo off) ∧
      Illegal lc s u (.ldsb lc rt rb mo off) (encM 0x16 rt rb mo off) ∧ Illegal lc s u (.ldsh lc rt rb mo off) (encM 0x17 rt rb mo off) ∧
      Illegal lc s u (.ldsw lc rt rb mo off) (encM 0x18 rt rb mo off)) ∧
    ∀ (sel : BitVec 4) (low : BitVec 5), (mo = 3 ∨ low ≠ 0 ∨ 7 ≤ sel.toNat) →
      Illegal lc s u (.loadIndexed lc rt rb mo gi sel low) (encIndexed rt rb mo gi sel low)

/-- An instruction executed within a load's shadow reads the registers from before the load, and the load writes its register immediately after
the third instruction that follows it, over what that instruction wrote there (03 R80; 04 R101); the group closes with its last shadow (R103). -/
def Obligations.LoadWritesAtItsWritePoint : Prop :=
  ∀ (lc : LC) (s u : State) (g : Group) (rd ra rb rt : GReg) (v : Word64) (k : Nat), IssuesInGroup lc s u g →
    (coreOf s lc.val).shadows = [{ left := k + 1, dest := .gen rt, value := .word v }] →
    let r := (coreOf u lc.val).regs
    let w := readG r ra + readG r rb
    Completes (.add lc false rd ra rb) s fun t =>
      (coreOf t lc.val).pc = (coreOf u lc.val).pc + 4 ∧ (∀ n, n ≠ lc.val → coreOf t n = coreOf u n) ∧ { t with cores := u.cores } = u ∧
      (coreOf t lc.val).regs.flags = r.flags ∧ (coreOf t lc.val).regs.v = r.v ∧ (coreOf t lc.val).regs.k = r.k ∧
      (coreOf t lc.val).regs.csr = r.csr ∧
      (0 < k → (coreOf t lc.val).shadows = [{ left := k, dest := .gen rt, value := .word v }] ∧
        ∀ i, readG (coreOf t lc.val).regs i = if i = rd ∧ rd ≠ 0 then w else readG r i) ∧
      (k = 0 → (coreOf t lc.val).shadows = [] ∧ (∃ g', (coreOf t lc.val).group = some g' ∧ g'.closed = true) ∧
        ∀ i, readG (coreOf t lc.val).regs i = if i = rt ∧ rt ≠ 0 then v else if i = rd ∧ rd ≠ 0 then w else readG r i)

/-- A store served by the core's own caches or scratchpad writes the low bytes of its register at its address, lowest first (04 R94 to R96): every
byte outside them reads as before, no register changes. mo 0b11, a `sel` without a meaning and low bits that are not zero raise EXC_ILLEGAL, a
misaligned address EXC_ALIGN. -/
def Obligations.StoresWriteTheirBytes : Prop :=
  ∀ (lc : LC) (s u : State) (rt rb gi : GReg) (mo : BitVec 2) (off : BitVec 14) (a : Xlat), Issues lc s u →
    let r := (coreOf u lc.val).regs
    let va (n : Nat) : Word64 := readG r rb + off.signExtend 64 * BitVec.ofNat 64 n
    let vx (n : Nat) : Word64 := readG r rb + readG r gi * BitVec.ofNat 64 n
    let served (v : Word64) (n : Nat) : Prop := Passes lc wantStore v n false true u a ∧ OwnLine lc a.acc u
    let misses (i : Instr) (w : Word32) (v : Word64) : Prop := Raises lc s u i w 3 0 2 v (coreOf u lc.val).pc
    let stores (i : Instr) (n : Nat) : Prop := Completes i s fun t =>
      HoldsBytes t a.acc.pa n (readG r rt).toNat ∧ SameBytesBut a.acc.pa n u t ∧
      { t with cores := u.cores, mem := { t.mem with bytes := u.mem.bytes } } = u ∧
      coreOf t lc.val = { coreOf u lc.val with pc := (coreOf u lc.val).pc + 4 } ∧ ∀ n, n ≠ lc.val → coreOf t n = coreOf u n
    (mo ≠ 3 →
      (served (va 1) 1 → stores (.stb lc rt rb mo off) 1) ∧ (served (va 2) 2 → stores (.sth lc rt rb mo off) 2) ∧
      (served (va 4) 4 → stores (.stw lc rt rb mo off) 4) ∧ (served (va 8) 8 → stores (.std lc rt rb mo off) 8) ∧
      (served (vx 1) 1 → stores (.storeIndexed lc rt rb mo gi 8 0) 1) ∧ (served (vx 2) 2 → stores (.storeIndexed lc rt rb mo gi 9 0) 2) ∧
      (served (vx 4) 4 → stores (.storeIndexed lc rt rb mo gi 10 0) 4) ∧ (served (vx 8) 8 → stores (.storeIndexed lc rt rb mo gi 11 0) 8) ∧
      ((va 2).toNat % 2 ≠ 0 → misses (.sth lc rt rb mo off) (encM 0x1A rt rb mo off) (va 2)) ∧
      ((va 4).toNat % 4 ≠ 0 → misses (.stw lc rt rb mo off) (encM 0x1B rt rb mo off) (va 4)) ∧
      ((va 8).toNat % 8 ≠ 0 → misses (.std lc rt rb mo off) (encM 0x1C rt rb mo off) (va 8)) ∧
      ∀ k ∈ [1, 2, 3], (vx (2 ^ k)).toNat % 2 ^ k ≠ 0 →
        misses (.storeIndexed lc rt rb mo gi (BitVec.ofNat 4 (8 + k)) 0) (encIndexed rt rb mo gi (BitVec.ofNat 4 (8 + k)) 0) (vx (2 ^ k))) ∧
    (mo = 3 →
      Illegal lc s u (.stb lc rt rb mo off) (encM 0x19 rt rb mo off) ∧ Illegal lc s u (.sth lc rt rb mo off) (encM 0x1A rt rb mo off) ∧
      Illegal lc s u (.stw lc rt rb mo off) (encM 0x1B rt rb mo off) ∧ Illegal lc s u (.std lc rt rb mo off) (encM 0x1C rt rb mo off)) ∧
    ∀ (sel : BitVec 4) (low : BitVec 5), (mo = 3 ∨ low ≠ 0 ∨ sel.toNat < 8 ∨ 12 ≤ sel.toNat) →
      Illegal lc s u (.storeIndexed lc rt rb mo gi sel low) (encIndexed rt rb mo gi sel low)

/-- An `AMO` that passes its checks opens a shadow group as its first load and holds the operation until the commit, changing no register and no
memory (04 R108, R109, R113, R114); low bits that are not zero raise EXC_ILLEGAL, a misaligned address EXC_ALIGN. -/
def Obligations.AtomicsAreHeldUntilTheCommit : Prop :=
  ∀ (lc : LC) (s u : State) (rt rb gs : GReg) (mo : BitVec 2) (wide far : Bool) (low : BitVec 3) (a : Xlat), Issues lc s u →
    let r := (coreOf u lc.val).regs
    let n := if wide then 8 else 4
    let holds (i : Instr) (op : AmoOp) : Prop := Completes i s fun t =>
      ∃ g, CoreNow lc u t { coreOf u lc.val with
          pc := (coreOf u lc.val).pc + 4, shadows := [{ left := 3, dest := .gen rt, value := .deferred 0 }], group := some g } ∧
        g.firstPc = (coreOf u lc.val).pc ∧ g.snap = r ∧ g.members = 1 ∧ g.closed = false ∧
        g.held = [.amo 0 a.acc op wide far (readG r gs) (readG r rt) (mo.getLsbD 0)]
    let word (k : Nat) : Word32 := encM 0x1E rt rb mo (BitVec.ofNat 14 (k * 1024 + wide.toNat * 512 + far.toNat * 256 + gs.val * 8 + low.toNat))
    (Passes lc wantAmo (readG r rb) n true true u a →
      holds (.amoXchg lc rt rb mo wide far gs 0) .xchg ∧ holds (.amoAdd lc rt rb mo wide far gs 0) .add ∧
      holds (.amoAnd lc rt rb mo wide far gs 0) .and ∧ holds (.amoOr lc rt rb mo wide far gs 0) .or ∧
      holds (.amoXor lc rt rb mo wide far gs 0) .xor ∧ holds (.amoMaxs lc rt rb mo wide far gs 0) .maxs ∧
      holds (.amoMins lc rt rb mo wide far gs 0) .mins ∧ holds (.amoMaxu lc rt rb mo wide far gs 0) .maxu ∧
      holds (.amoMinu lc rt rb mo wide far gs 0) .minu ∧ holds (.amoCmpx lc rt rb mo wide far gs 0) .cmpx) ∧
    let all (P : Instr → Nat → Prop) : Prop :=
      P (.amoXchg lc rt rb mo wide far gs low) 0 ∧ P (.amoAdd lc rt rb mo wide far gs low) 1 ∧ P (.amoAnd lc rt rb mo wide far gs low) 2 ∧
      P (.amoOr lc rt rb mo wide far gs low) 3 ∧ P (.amoXor lc rt rb mo wide far gs low) 4 ∧ P (.amoMaxs lc rt rb mo wide far gs low) 5 ∧
      P (.amoMins lc rt rb mo wide far gs low) 6 ∧ P (.amoMaxu lc rt rb mo wide far gs low) 7 ∧ P (.amoMinu lc rt rb mo wide far gs low) 8 ∧
      P (.amoCmpx lc rt rb mo wide far gs low) 9
    (low ≠ 0 → all fun i k => Illegal lc s u i (word k)) ∧
    (low = 0 → (readG r rb).toNat % n ≠ 0 → all fun i k => Raises lc s u i (word k) 3 0 3 (readG r rb) (coreOf u lc.val).pc)

/-- The commit of a closed group (04 R104, R105, R115): what it holds is performed and every open shadow writes its register. A held store writes
its bytes; a near `AMO` to a line the core owns writes old op operand, of the width and signedness R113 gives, and its destination receives the
old value. A group that is open, or of a core that does not run, does not commit. -/
def Obligations.GroupCommitPerformsWhatIsHeld : Prop :=
  (∀ (lc : LC) (s : State) (g : Group), MayCommit lc s g →
    let c := coreOf s lc.val
    let ended (t : State) : Prop := (coreOf t lc.val).group = none ∧ (coreOf t lc.val).shadows = [] ∧ (coreOf t lc.val).pc = c.pc ∧
      (∀ n, n ≠ lc.val → coreOf t n = coreOf s n) ∧ { t with cores := s.cores, mem := { t.mem with bytes := s.mem.bytes } } = s
    (g.held = [] → ∀ (sh : Nat) (rt : GReg) (v : Word64), c.shadows = [{ left := sh, dest := .gen rt, value := .word v }] →
      Completes (.shadowGroupCommit lc) s fun t => ended t ∧ SameBytes s t ∧
        ∀ i, readG (coreOf t lc.val).regs i = if i = rt ∧ rt ≠ 0 then v else readG c.regs i) ∧
    (∀ (a : Access) (bs : List Byte) (rl : Bool), g.held = [.store a bs false rl] → c.shadows = [] → a.pa % 64 + bs.length ≤ 64 → 0 < bs.length → bs.length < 64 →
      OwnLine lc a s →
      Completes (.shadowGroupCommit lc) s fun t => ended t ∧ (∀ i, i < bs.length → readByte t (a.pa + i) = bs.getD i 0) ∧
        SameBytesBut a.pa bs.length s t ∧ (coreOf t lc.val).regs = c.regs) ∧
    ∀ (a : Access) (op : AmoOp) (wide aq : Bool) (gs gt : Word64) (sh : Nat) (rt : GReg),
      g.held = [.amo 0 a op wide false gs gt aq] → c.shadows = [{ left := sh, dest := .gen rt, value := .deferred 0 }] →
      OwnLine lc a s → isMemory a.pa = true →
      let n := if wide then 8 else 4
      let old : BitVec (8 * n) := BitVec.ofNat _ (readNat s a.pa n)
      let x : BitVec (8 * n) := gs.setWidth _
      let y : BitVec (8 * n) := gt.setWidth _
      let new : BitVec (8 * n) := match op with
        | .xchg => x
        | .add => old + x
        | .and => old &&& x
        | .or => old ||| x
        | .xor => old ^^^ x
        | .maxs => if old.sle x then x else old
        | .mins => if old.sle x then old else x
        | .maxu => if old.ule x then x else old
        | .minu => if old.ule x then old else x
        | .cmpx => if old = y then x else old
      Completes (.shadowGroupCommit lc) s fun t => ended t ∧ HoldsBytes t a.pa n new.toNat ∧ SameBytesBut a.pa n s t ∧
        ∀ i, readG (coreOf t lc.val).regs i = if i = rt ∧ rt ≠ 0 then old.setWidth 64 else readG c.regs i) ∧
  ∀ (lc : LC) (s : State), ((coreOf s lc.val).group = none ∨ coreRuns s lc.val = false ∨ ∃ g, (coreOf s lc.val).group = some g ∧ g.closed = false) →
    exec (.shadowGroupCommit lc) s = .next s

/-- The fences order a core that executes in order and end at once, and so does a prefetch of kind 0 or 1 that finds its line in the core's own
caches, and one of any kind that the translation refuses: only the PC changes (04 R100, R112, R118, R121, R122; 08 R208). Reserved fields raise
EXC_ILLEGAL. -/
def Obligations.FencesAndPrefetchesChangeOnlyThePc : Prop :=
  ∀ (lc : LC) (s u : State) (rd rv rb : GReg) (x : BitVec 12) (kind : BitVec 5) (mo : BitVec 2) (off : BitVec 14), Issues lc s u →
    let va := readG (coreOf u lc.val).regs rb + off.signExtend 64 * 8
    (x.toNat < 32 → Executes lc s u (.fence lc 0 0 x) SameRegs) ∧
    Executes lc s u (.ifence lc 0 0 0) SameRegs ∧ Executes lc s u (.specbar lc 0 0 0) SameRegs ∧
    (∀ a : Xlat, kind.toNat < 2 → translate lc.val wantLoad va u = (.ok a, u) → OwnLine lc a.acc u →
      Executes lc s u (.prfm lc kind rb 0 off) SameRegs) ∧
    (∀ (e : Exc) (v : State), kind.toNat < 4 → translate lc.val (if kind = 2 then wantStore else wantLoad) va u = (.error e, v) → Executes lc s u (.prfm lc kind rb 0 off) SameRegs) ∧
    (4 ≤ kind.toNat ∨ mo ≠ 0 → Illegal lc s u (.prfm lc kind rb mo off) (encM 0x1F ⟨kind.toNat, kind.isLt⟩ rb mo off)) ∧
    (rd ≠ 0 ∨ rv ≠ 0 ∨ 32 ≤ x.toNat → Illegal lc s u (.fence lc rd rv x) (encS 0x3C rd rv 0 x)) ∧
    (rd ≠ 0 ∨ rv ≠ 0 ∨ x ≠ 0 → Illegal lc s u (.ifence lc rd rv x) (encS 0x3C rd rv 1 x) ∧
      Illegal lc s u (.specbar lc rd rv x) (encS 0x3C rd rv 2 x))

/-- An interrupt is taken at a group boundary, never at K and at S only while IE is 1 (07 R173, R176 to R178): entry with INTR 1, CAUSE 0 and the
next instruction as return PC. An instruction group that is retried starts again from its first load with the registers it had there (20 R479,
R480). -/
def Obligations.InterruptsAndRetriesActAtGroupEdges : Prop :=
  (∀ (lc : LC) (s : State), coreRuns s lc.val = true → (coreOf s lc.val).group = none → (coreOf s lc.val).shadows = [] →
    (coreOf s lc.val).drainReq = false → (coreOf s lc.val).haltReq = false →
    (takesIntr s lc.val = true → (coreOf s lc.val).eretSkip = 0 → (coreOf s lc.val).stepReq = false →
      (csr (coreOf s lc.val).regs 0x522).getLsbD 0 = true →
      Completes (.interruptEntry lc) s fun t => Entered lc s t 0 (2 ^ 63) (coreOf s lc.val).pc 0 0 0 0) ∧
    (takesIntr s lc.val = false → exec (.interruptEntry lc) s = .next s) ∧
    (levelOf (coreOf s lc.val).regs = 2 → takesIntr s lc.val = false) ∧
    (levelOf (coreOf s lc.val).regs = 1 → (csr (coreOf s lc.val).regs 0x400).getLsbD 0 = false → takesIntr s lc.val = false)) ∧
  ∀ (lc : LC) (row : Fin 16) (s : State) (g : Group), bound s lc.val = true → (coreOf s lc.val).paused = false → (coreOf s lc.val).mmioWait = false →
    (coreOf s lc.val).group = some g → (coreOf s lc.val).retryRun = 0 → (coreOf s lc.val).retries = [] →
    Completes (.instructionGroupRetry lc row) s fun t =>
      (coreOf t lc.val).pc = g.firstPc ∧ (coreOf t lc.val).group = none ∧ (coreOf t lc.val).shadows = [] ∧ (coreOf t lc.val).retryRun = 1 ∧
      (∀ i, readG (coreOf t lc.val).regs i = readG g.snap i) ∧ (coreOf t lc.val).regs.flags = g.snap.flags ∧
      (coreOf t lc.val).regs.v = g.snap.v ∧ (coreOf t lc.val).regs.k = g.snap.k ∧ SameBytes s t

/-! ### Core: vector and mask registers (05) -/

/-- The integer lane instructions of opcode 0x20 (05 R125, R128) under their mask, merging or zeroing: no lane interacts with another, no register
but vd changes. ew 3 and rb of `VABS` are reserved; with the vector unit off at U each raises EXC_ILLEGAL, REASON 1 (07 R175). -/
def Obligations.VectorIntegerLanesGiveResults : Prop :=
  ∀ (lc : LC) (s u : State) (vd va vb : VReg) (k : KReg) (z : Bool) (ew : BitVec 2), Issues lc s u →
    let r := (coreOf u lc.val).regs
    let w := if ew = 0 then 64 else if ew = 1 then 32 else 16
    let word (vfn : Nat) : Word32 := encV 0x20 vd va vb k z ew vfn
    let forms : List (Instr × Nat) := [(.vadd lc vd va vb k z ew, 0), (.vsub lc vd va vb k z ew, 1), (.vmullo lc vd va vb k z ew, 2),
      (.vmulhs lc vd va vb k z ew, 3), (.vmulhu lc vd va vb k z ew, 4), (.vand lc vd va vb k z ew, 8), (.vandn lc vd va vb k z ew, 9),
      (.vor lc vd va vb k z ew, 10), (.vxor lc vd va vb k z ew, 11), (.vsllv lc vd va vb k z ew, 12), (.vsrlv lc vd va vb k z ew, 13),
      (.vsrav lc vd va vb k z ew, 14), (.vsmin lc vd va vb k z ew, 16), (.vsmax lc vd va vb k z ew, 17), (.vumin lc vd va vb k z ew, 18),
      (.vumax lc vd va vb k z ew, 19), (.vabs lc vd va vb k z ew, 20)]
    let gives (i : Instr) (f : BitVec w → BitVec w → BitVec w) : Prop :=
      ExecutesV lc s u i vd (MaskedLanes w (readK r k) z fun j => f (lane w (readV r va) j) (lane w (readV r vb) j))
    (VectorOn r → ew ≠ 3 →
      gives (.vadd lc vd va vb k z ew) (fun a b => a + b) ∧ gives (.vsub lc vd va vb k z ew) (fun a b => a - b) ∧
      gives (.vmullo lc vd va vb k z ew) (fun a b => a * b) ∧
      gives (.vmulhs lc vd va vb k z ew) (fun a b => BitVec.ofInt w (a.toInt * b.toInt / 2 ^ w)) ∧
      gives (.vmulhu lc vd va vb k z ew) (fun a b => BitVec.ofNat w (a.toNat * b.toNat / 2 ^ w)) ∧
      gives (.vand lc vd va vb k z ew) (fun a b => a &&& b) ∧ gives (.vandn lc vd va vb k z ew) (fun a b => a &&& ~~~b) ∧
      gives (.vor lc vd va vb k z ew) (fun a b => a ||| b) ∧ gives (.vxor lc vd va vb k z ew) (fun a b => a ^^^ b) ∧
      gives (.vsllv lc vd va vb k z ew) (fun a b => a <<< b.toNat) ∧ gives (.vsrlv lc vd va vb k z ew) (fun a b => a >>> b.toNat) ∧
      gives (.vsrav lc vd va vb k z ew) (fun a b => a.sshiftRight b.toNat) ∧
      gives (.vsmin lc vd va vb k z ew) (fun a b => if a.sle b then a else b) ∧ gives (.vsmax lc vd va vb k z ew) (fun a b => if a.sle b then b else a) ∧
      gives (.vumin lc vd va vb k z ew) (fun a b => if a.ule b then a else b) ∧ gives (.vumax lc vd va vb k z ew) (fun a b => if a.ule b then b else a) ∧
      (vb = 0 → gives (.vabs lc vd va vb k z ew) (fun a _ => if a.slt 0 then -a else a)) ∧
      (vb ≠ 0 → Illegal lc s u (.vabs lc vd va vb k z ew) (word 20))) ∧
    (VectorOn r → ew = 3 → ∀ e ∈ forms, Illegal lc s u e.1 (word e.2)) ∧
    (¬VectorOn r → ∀ e ∈ forms, Raises lc s u e.1 (word e.2) 1 1 0 0 (coreOf u lc.val).pc)

/-- The floating-point lane instructions of opcodes 0x21 and 0x22 (05 R129 to R133): each active lane receives the operation's result under the
controls of FPCSR, the flags of the active lanes join FPCSR; where an enabled exception is raised nothing changes and EXC_FP reports the flags
and the lanes that raised one whose trap is enabled (R132; 07 R182). ew 2 and 3, and vb of a unary instruction, are reserved. -/
def Obligations.FloatingPointLanesGiveResultsOrTrap : Prop :=
  ∀ (lc : LC) (s u : State) (vd va vb : VReg) (k : KReg) (z : Bool) (ew : BitVec 2), Issues lc s u → VectorOn (coreOf u lc.val).regs →
    let r := (coreOf u lc.val).regs
    let w := if ew = 0 then 64 else 32
    let fm := if ew = 0 then fmtD else fmtS
    let c := fpCtl r
    let m := readK r k
    let x (v : VReg) (j : Nat) : Nat := (lane w (readV r v) j).toNat
    let lanes (i : Instr) (word : Word32) (f : Nat → Nat × FpFlags) : Prop :=
      FpEnds lc s u i word (512 / w) m (fun j => (f j).2) (WroteFp vd (MaskedLanes w m z fun j => BitVec.ofNat w (f j).1))
    let two (i : Instr) (vfn : Nat) (op : FOp2) : Prop := lanes i (encV 0x21 vd va vb k z ew vfn) fun j => fOp2 fm c op (x va j) (x vb j)
    let three (i : Instr) (vfn : Nat) (op : FOp3) : Prop := lanes i (encV 0x22 vd va vb k z ew vfn) fun j => fOp3 fm c op (x va j) (x vb j) (x vd j)
    let binary : List (Instr × Nat) := [(.vfadd lc vd va vb k z ew, 0), (.vfsub lc vd va vb k z ew, 1), (.vfmul lc vd va vb k z ew, 2),
      (.vfdiv lc vd va vb k z ew, 3), (.vfmin lc vd va vb k z ew, 5), (.vfmax lc vd va vb k z ew, 6)]
    let unary : List (Instr × Nat) := [(.vfsqrt lc vd va vb k z ew, 4), (.vfabs lc vd va vb k z ew, 7), (.vfneg lc vd va vb k z ew, 8),
      (.vfrnd lc vd va vb k z ew, 9)]
    let fused : List (Instr × Nat) := [(.vfmadd lc vd va vb k z ew, 0), (.vfmsub lc vd va vb k z ew, 1), (.vfnmadd lc vd va vb k z ew, 2),
      (.vfnmsub lc vd va vb k z ew, 3)]
    (ew.toNat < 2 →
      two (.vfadd lc vd va vb k z ew) 0 .add ∧ two (.vfsub lc vd va vb k z ew) 1 .sub ∧ two (.vfmul lc vd va vb k z ew) 2 .mul ∧
      two (.vfdiv lc vd va vb k z ew) 3 .div ∧ two (.vfmin lc vd va vb k z ew) 5 .min ∧ two (.vfmax lc vd va vb k z ew) 6 .max ∧
      (vb = 0 → two (.vfsqrt lc vd va vb k z ew) 4 .sqrt ∧ two (.vfabs lc vd va vb k z ew) 7 .abs ∧ two (.vfneg lc vd va vb k z ew) 8 .neg ∧
        two (.vfrnd lc vd va vb k z ew) 9 .rnd) ∧
      three (.vfmadd lc vd va vb k z ew) 0 .madd ∧ three (.vfmsub lc vd va vb k z ew) 1 .msub ∧
      three (.vfnmadd lc vd va vb k z ew) 2 .nmadd ∧ three (.vfnmsub lc vd va vb k z ew) 3 .nmsub) ∧
    (2 ≤ ew.toNat → (∀ e ∈ binary, Illegal lc s u e.1 (encV 0x21 vd va vb k z ew e.2)) ∧
      ∀ e ∈ fused, Illegal lc s u e.1 (encV 0x22 vd va vb k z ew e.2)) ∧
    (2 ≤ ew.toNat ∨ vb ≠ 0 → ∀ e ∈ unary, Illegal lc s u e.1 (encV 0x21 vd va vb k z ew e.2))

/-- The conversions of opcode 0x23 (05 R134, R135) in the destination widths the table allows, lane by lane: between formats, the widening ones
from the lower or upper half of the source, the narrowing ones into the lower half with zero above or into the upper half with the lower kept,
and between numbers and integers of one width. The flags of the active lanes join FPCSR, or EXC_FP is raised where one is enabled. Any other
width, and a vb that is not zero, are reserved. -/
def Obligations.ConversionsGiveResults : Prop :=
  ∀ (lc : LC) (s u : State) (hi : Bool) (vd va vb : VReg) (k : KReg) (z : Bool) (ew : BitVec 2), Issues lc s u → VectorOn (coreOf u lc.val).regs →
    let r := (coreOf u lc.val).regs
    let c := fpCtl r
    let m := readK r k
    let word (vfn : Nat) : Word32 := encV 0x23 vd va vb k z ew vfn
    let src (w j : Nat) : Nat := (lane w (readV r va) j).toNat
    -- between integers and numbers of one width
    let level (i : Instr) (vfn w : Nat) (f : Nat → Nat × FpFlags) : Prop :=
      FpEnds lc s u i (word vfn) (512 / w) m (fun j => (f (src w j)).2) (WroteFp vd (MaskedLanes w m z fun j => BitVec.ofNat w (f (src w j)).1))
    -- to lanes of twice the width
    let widen (i : Instr) (vfn w : Nat) (a b : FFmt) : Prop :=
      let g (j : Nat) : Nat × FpFlags := fConv a b c (src (w / 2) (if hi then j + 512 / w else j))
      FpEnds lc s u i (word vfn) (512 / w) m (fun j => (g j).2) (WroteFp vd (MaskedLanes w m z fun j => BitVec.ofNat w (g j).1))
    -- to lanes of half the width
    let narrow (i : Instr) (vfn w : Nat) (a b : FFmt) : Prop :=
      let half := 256 / w
      let into (j : Nat) : Bool := if hi then decide (half ≤ j) else decide (j < half)
      let g (j : Nat) : Nat × FpFlags := fConv a b c (src (2 * w) (if hi then j - half else j))
      FpEnds lc s u i (word vfn) (512 / w) m (fun j => if into j then (g j).2 else {}) (WroteFp vd fun old new =>
        ∀ j, j < 512 / w → lane w new j =
          if into j then (if m.getLsbD j then BitVec.ofNat w (g j).1 else if z then 0 else lane w old j) else if hi then lane w old j else 0)
    let w := if ew = 0 then 64 else 32
    let fm := if ew = 0 then fmtD else fmtS
    (vb = 0 →
      (ew = 0 → widen (.vcvtDS lc hi vd va vb k z ew) (0 + hi.toNat) 64 fmtS fmtD) ∧
      (ew = 1 → narrow (.vcvtSD lc hi vd va vb k z ew) (2 + hi.toNat) 32 fmtD fmtS ∧
        widen (.vcvtSH lc hi vd va vb k z ew) (4 + hi.toNat) 32 fmtH fmtS ∧ widen (.vcvtSBf lc hi vd va vb k z ew) (8 + hi.toNat) 32 fmtBF fmtS) ∧
      (ew = 2 → narrow (.vcvtHS lc hi vd va vb k z ew) (6 + hi.toNat) 16 fmtS fmtH ∧ narrow (.vcvtBfS lc hi vd va vb k z ew) (10 + hi.toNat) 16 fmtS fmtBF) ∧
      (ew.toNat < 2 →
        level (.vcvtFI lc vd va vb k z ew) 16 w (fOfInt fm c w true) ∧ level (.vcvtFU lc vd va vb k z ew) 17 w (fOfInt fm c w false) ∧
        level (.vcvtIF lc vd va vb k z ew) 18 w (fun x => fToInt w true c.rm (fUnpack fm c.daz x)) ∧
        level (.vcvtUF lc vd va vb k z ew) 19 w (fun x => fToInt w false c.rm (fUnpack fm c.daz x)) ∧
        level (.vcvtIFT lc vd va vb k z ew) 20 w (fun x => fToInt w true 1 (fUnpack fm c.daz x)) ∧
        level (.vcvtUFT lc vd va vb k z ew) 21 w (fun x => fToInt w false 1 (fUnpack fm c.daz x)))) ∧
    let bad (i : Instr) (vfn : Nat) (fits : Prop) : Prop := vb ≠ 0 ∨ ¬fits → Illegal lc s u i (word vfn)
    bad (.vcvtDS lc hi vd va vb k z ew) (0 + hi.toNat) (ew = 0) ∧ bad (.vcvtSD lc hi vd va vb k z ew) (2 + hi.toNat) (ew = 1) ∧
    bad (.vcvtSH lc hi vd va vb k z ew) (4 + hi.toNat) (ew = 1) ∧ bad (.vcvtHS lc hi vd va vb k z ew) (6 + hi.toNat) (ew = 2) ∧
    bad (.vcvtSBf lc hi vd va vb k z ew) (8 + hi.toNat) (ew = 1) ∧ bad (.vcvtBfS lc hi vd va vb k z ew) (10 + hi.toNat) (ew = 2) ∧
    bad (.vcvtFI lc vd va vb k z ew) 16 (ew.toNat < 2) ∧ bad (.vcvtFU lc vd va vb k z ew) 17 (ew.toNat < 2) ∧
    bad (.vcvtIF lc vd va vb k z ew) 18 (ew.toNat < 2) ∧ bad (.vcvtUF lc vd va vb k z ew) 19 (ew.toNat < 2) ∧
    bad (.vcvtIFT lc vd va vb k z ew) 20 (ew.toNat < 2) ∧ bad (.vcvtUFT lc vd va vb k z ew) 21 (ew.toNat < 2)

/-- Permutes and moves (05 R136): each says which lane or register every destination lane comes from, no other register changes. ew 3, a lane
number that is not of the vector, and the fields that the table marks zero are reserved. -/
def Obligations.PermutesMoveLanes : Prop :=
  ∀ (lc : LC) (s u : State) (vd va vb : VReg) (k : KReg) (z : Bool) (ew : BitVec 2), Issues lc s u → VectorOn (coreOf u lc.val).regs →
    let r := (coreOf u lc.val).regs
    let w := if ew = 0 then 64 else if ew = 1 then 32 else 16
    let L := 512 / w
    let m := readK r k
    let a (j : Nat) : BitVec w := lane w (readV r va) j
    let at_ (j : Nat) : Nat := (lane w (readV r vb) j).toNat
    let gives (i : Instr) (f : Nat → BitVec w) : Prop := ExecutesV lc s u i vd (MaskedLanes w m z f)
    let bad (i : Instr) (vfn : Nat) : Prop := Illegal lc s u i (encV 0x24 vd va vb k z ew vfn)
    (ew ≠ 3 →
      gives (.vperm lc vd va vb k z ew) (fun j => a (at_ j % L)) ∧
      gives (.vperm2 lc vd va vb k z ew) (fun j => if at_ j % (2 * L) < L then a (at_ j % (2 * L)) else lane w (readV r vd) (at_ j % (2 * L) - L)) ∧
      (vb.val < L → gives (.vbcstl lc vd va vb k z ew) (fun _ => a vb.val)) ∧
      (vb = 0 → gives (.vrev lc vd va vb k z ew) (fun j => a (L - 1 - j)) ∧
        gives (.vbcstg lc vd va vb k z ew) (fun _ => (readG r va).setWidth w) ∧
        gives (.vexpand lc vd va vb k z ew) (fun j => a ((List.range j).countP fun i => m.getLsbD i)) ∧
        (z = false → ExecutesV lc s u (.vcompress lc vd va vb k z ew) vd fun _ x =>
          ∀ j, j < L → lane w x j = match (activeLanes w m)[j]? with | some i => a i | none => 0)) ∧
      (vb.val < L → k = 0 → z = false →
        ExecutesV lc s u (.vins lc vd va vb k z ew) vd (fun old x =>
          ∀ j, j < L → lane w x j = if j = vb.val then (readG r va).setWidth w else lane w old j) ∧
        Executes lc s u (.vext lc vd va vb k z ew) (WroteG vd ((a vb.val).setWidth 64) r.flags))) ∧
    (ew = 3 → bad (.vperm lc vd va vb k z ew) 0 ∧ bad (.vperm2 lc vd va vb k z ew) 1) ∧
    (ew = 3 ∨ vb ≠ 0 ∨ z = true → bad (.vcompress lc vd va vb k z ew) 2) ∧
    (ew = 3 ∨ vb ≠ 0 → bad (.vexpand lc vd va vb k z ew) 3 ∧ bad (.vbcstg lc vd va vb k z ew) 5 ∧ bad (.vrev lc vd va vb k z ew) 8) ∧
    (ew = 3 ∨ L ≤ vb.val → bad (.vbcstl lc vd va vb k z ew) 4) ∧
    (ew = 3 ∨ L ≤ vb.val ∨ k ≠ 0 ∨ z = true → bad (.vins lc vd va vb k z ew) 6 ∧ bad (.vext lc vd va vb k z ew) 7)

/-- Reductions (05 R137): the active lanes combined, the identity where none is active, in lane 0, and zero in every other lane; the
floating-point ones along the tree of the rule, each combination's flags joined to FPCSR or, where one is enabled, EXC_FP raised (which lanes it
names is a free value, log entry 31). vb, z, ew 3 and, for floating point, ew 2 are reserved. -/
def Obligations.ReductionsCombineActiveLanes : Prop :=
  ∀ (lc : LC) (s u : State) (vd va vb : VReg) (k : KReg) (z : Bool) (ew : BitVec 2), Issues lc s u → VectorOn (coreOf u lc.val).regs →
    let r := (coreOf u lc.val).regs
    let w := if ew = 0 then 64 else if ew = 1 then 32 else 16
    let m := readK r k
    let word (vfn : Nat) : Word32 := encV 0x25 vd va vb k z ew vfn
    let gives (i : Instr) (one : BitVec w) (f : BitVec w → BitVec w → BitVec w) : Prop := ExecutesV lc s u i vd fun _ x =>
      lane w x 0 = (activeLanes w m).foldl (fun b j => f b (lane w (readV r va) j)) one ∧ ∀ j, 0 < j → j < 512 / w → lane w x j = 0
    let fgives (i : Instr) (vfn : Nat) (op : FOp2) (one : Nat) : Prop :=
      let o := (treeAt (fOp2 (if ew = 0 then fmtD else fmtS) (fpCtl r) op) (fun j => (lane w (readV r va) j).toNat) (fun j => m.getLsbD j)
        (if ew = 0 then 3 else 4) 0).getD (one, 0)
      let enabled := fld (csr r 0x002) 12 8
      (o.2 &&& enabled = 0 → Executes lc s u i fun old new => FpFlagsJoined o.2 old new ∧
        WroteFp vd (fun _ x => lane w x 0 = BitVec.ofNat w o.1 ∧ ∀ j, 0 < j → j < 512 / w → lane w x j = 0) old new) ∧
      (o.2 &&& enabled ≠ 0 → Completes i s fun t => ∃ (n : Nat) (lanes : Word64),
        Entered lc { u with fresh := n } t 13 (o.2 * 2 ^ 40 + 13) (coreOf u lc.val).pc 0 (coreOf u lc.val).pc ((word vfn).setWidth 64) lanes)
    let forms : List (Instr × Nat) := [(.vredadd lc vd va vb k z ew, 0), (.vredsmin lc vd va vb k z ew, 1), (.vredsmax lc vd va vb k z ew, 2),
      (.vredumin lc vd va vb k z ew, 3), (.vredumax lc vd va vb k z ew, 4), (.vredand lc vd va vb k z ew, 5), (.vredor lc vd va vb k z ew, 6),
      (.vredxor lc vd va vb k z ew, 7)]
    let fforms : List (Instr × Nat) := [(.vfredadd lc vd va vb k z ew, 8), (.vfredmin lc vd va vb k z ew, 9), (.vfredmax lc vd va vb k z ew, 10)]
    (vb = 0 → z = false → ew ≠ 3 →
      gives (.vredadd lc vd va vb k z ew) 0 (fun a b => a + b) ∧
      gives (.vredsmin lc vd va vb k z ew) (BitVec.intMax w) (fun a b => if a.sle b then a else b) ∧
      gives (.vredsmax lc vd va vb k z ew) (BitVec.intMin w) (fun a b => if a.sle b then b else a) ∧
      gives (.vredumin lc vd va vb k z ew) (BitVec.allOnes w) (fun a b => if a.ule b then a else b) ∧
      gives (.vredumax lc vd va vb k z ew) 0 (fun a b => if a.ule b then b else a) ∧
      gives (.vredand lc vd va vb k z ew) (BitVec.allOnes w) (fun a b => a &&& b) ∧
      gives (.vredor lc vd va vb k z ew) 0 (fun a b => a ||| b) ∧ gives (.vredxor lc vd va vb k z ew) 0 (fun a b => a ^^^ b)) ∧
    (vb = 0 → z = false → ew.toNat < 2 →
      fgives (.vfredadd lc vd va vb k z ew) 8 .add 0 ∧
      fgives (.vfredmin lc vd va vb k z ew) 9 .min (if ew = 0 then 0x7FF0000000000000 else 0x7F800000) ∧
      fgives (.vfredmax lc vd va vb k z ew) 10 .max (if ew = 0 then 0xFFF0000000000000 else 0xFF800000)) ∧
    (vb ≠ 0 ∨ z = true ∨ ew = 3 → ∀ e ∈ forms, Illegal lc s u e.1 (word e.2)) ∧
    (vb ≠ 0 ∨ z = true ∨ 2 ≤ ew.toNat → ∀ e ∈ fforms, Illegal lc s u e.1 (word e.2))

/-- Compares write a mask register, a one in each active lane for which the relation holds and zero elsewhere (05 R124, R138); `VFCMPF` writes
FLAGS from lane 0 (R139). The flags of a floating-point compare join FPCSR, or EXC_FP is raised where one is enabled. A destination field above 7,
z, ew 3, for floating point ew 2, and vd and k of `VFCMPF` are reserved. -/
def Obligations.ComparesWriteMasks : Prop :=
  ∀ (lc : LC) (s u : State) (vd va vb : VReg) (k : KReg) (z : Bool) (ew : BitVec 2), Issues lc s u → VectorOn (coreOf u lc.val).regs →
    let r := (coreOf u lc.val).regs
    let w := if ew = 0 then 64 else if ew = 1 then 32 else 16
    let fm := if ew = 0 then fmtD else fmtS
    let c := fpCtl r
    let m := readK r k
    let a (j : Nat) : BitVec w := lane w (readV r va) j
    let b (j : Nat) : BitVec w := lane w (readV r vb) j
    let word (vfn : Nat) : Word32 := encV 0x26 vd va vb k z ew vfn
    let kd : KReg := ⟨vd.val % 8, by omega⟩
    let Ones (f : Nat → Bool) (x : Word64) : Prop := ∀ j, x.getLsbD j = (decide (j < 512 / w) && (m.getLsbD j && f j))
    let gives (i : Instr) (f : BitVec w → BitVec w → Bool) : Prop :=
      Executes lc s u i fun old new => ∃ x, Ones (fun j => f (a j) (b j)) x ∧ WroteK kd x old new
    let fgives (i : Instr) (vfn : Nat) (op : FCmp) : Prop :=
      FpEnds lc s u i (word vfn) (512 / w) m (fun j => (fCompare fm c op (a j).toNat (b j).toNat).2) fun old new =>
        ∃ x, Ones (fun j => (fCompare fm c op (a j).toNat (b j).toNat).1) x ∧
          (∀ i, readK new i = if i = kd ∧ kd ≠ 0 then x else readK old i) ∧ new.g = old.g ∧ new.v = old.v ∧ new.flags = old.flags
    let forms : List (Instr × Nat) := [(.vcmpeq lc vd va vb k z ew, 0), (.vcmpne lc vd va vb k z ew, 1), (.vcmplt lc vd va vb k z ew, 2),
      (.vcmple lc vd va vb k z ew, 3), (.vcmpltu lc vd va vb k z ew, 4), (.vcmpleu lc vd va vb k z ew, 5)]
    let fforms : List (Instr × Nat) := [(.vfcmpeq lc vd va vb k z ew, 8), (.vfcmpne lc vd va vb k z ew, 9), (.vfcmplt lc vd va vb k z ew, 10),
      (.vfcmple lc vd va vb k z ew, 11), (.vfcmpun lc vd va vb k z ew, 12)]
    (vd.val < 8 → z = false → ew ≠ 3 →
      gives (.vcmpeq lc vd va vb k z ew) (fun x y => decide (x = y)) ∧ gives (.vcmpne lc vd va vb k z ew) (fun x y => decide (x ≠ y)) ∧
      gives (.vcmplt lc vd va vb k z ew) BitVec.slt ∧ gives (.vcmple lc vd va vb k z ew) BitVec.sle ∧
      gives (.vcmpltu lc vd va vb k z ew) BitVec.ult ∧ gives (.vcmpleu lc vd va vb k z ew) BitVec.ule) ∧
    (vd.val < 8 → z = false → ew.toNat < 2 →
      fgives (.vfcmpeq lc vd va vb k z ew) 8 .eq ∧ fgives (.vfcmpne lc vd va vb k z ew) 9 .ne ∧ fgives (.vfcmplt lc vd va vb k z ew) 10 .lt ∧
      fgives (.vfcmple lc vd va vb k z ew) 11 .le ∧ fgives (.vfcmpun lc vd va vb k z ew) 12 .un) ∧
    (vd = 0 → k = 0 → z = false → ew.toNat < 2 →
      FpEnds lc s u (.vfcmpf lc vd va vb k z ew) (word 16) 1 1 (fun _ => (fCompare fm c .eq (a 0).toNat (b 0).toNat).2) fun old new =>
        new.g = old.g ∧ new.v = old.v ∧ new.k = old.k ∧
        new.flags = match fRel (fUnpack fm c.daz (a 0).toNat) (fUnpack fm c.daz (b 0).toNat) with
          | .less => { n := true, z := false, c := false, v := false }
          | .equal => { n := false, z := true, c := true, v := false }
          | .greater => { n := false, z := false, c := true, v := false }
          | .unordered => { n := false, z := false, c := true, v := true }) ∧
    (8 ≤ vd.val ∨ z = true ∨ ew = 3 → ∀ e ∈ forms, Illegal lc s u e.1 (word e.2)) ∧
    (8 ≤ vd.val ∨ z = true ∨ 2 ≤ ew.toNat → ∀ e ∈ fforms, Illegal lc s u e.1 (word e.2)) ∧
    (vd ≠ 0 ∨ k ≠ 0 ∨ z = true ∨ 2 ≤ ew.toNat → Illegal lc s u (.vfcmpf lc vd va vb k z ew) (word 16))

/-- Mask instructions (05 R140): the logical ones on all 64 bits, moves to and from a general register, the count of ones and the number of the
lowest one among the lanes of ew (their number where there is none). A mask field above 7, the fields an instruction does not use, and an ew it
does not take are reserved. -/
def Obligations.MaskInstructionsGiveResults : Prop :=
  ∀ (lc : LC) (s u : State) (vd va vb : VReg) (k : KReg) (z : Bool) (ew : BitVec 2), Issues lc s u → VectorOn (coreOf u lc.val).regs →
    let r := (coreOf u lc.val).regs
    let kr (x : VReg) : KReg := ⟨x.val % 8, by omega⟩
    let L := 512 / (if ew = 0 then 64 else if ew = 1 then 32 else 16)
    let free := k = 0 ∧ z = false
    let mask (x : VReg) : Prop := x.val < 8
    let form (i : Instr) (vfn : Nat) (fits : Prop) (R : Regs → Regs → Prop) : Prop :=
      (free ∧ fits → Executes lc s u i R) ∧ (¬(free ∧ fits) → Illegal lc s u i (encV 0x27 vd va vb k z ew vfn))
    let logic (i : Instr) (vfn : Nat) (w : Word64) : Prop := form i vfn (ew = 0 ∧ mask vd ∧ mask va ∧ mask vb) (WroteK (kr vd) w)
    logic (.kand lc vd va vb k z ew) 0 (readK r (kr va) &&& readK r (kr vb)) ∧ logic (.kor lc vd va vb k z ew) 1 (readK r (kr va) ||| readK r (kr vb)) ∧
    logic (.kxor lc vd va vb k z ew) 2 (readK r (kr va) ^^^ readK r (kr vb)) ∧ logic (.kandn lc vd va vb k z ew) 3 (readK r (kr va) &&& ~~~(readK r (kr vb))) ∧
    form (.knot lc vd va vb k z ew) 4 (ew = 0 ∧ mask vd ∧ mask va ∧ vb = 0) (WroteK (kr vd) (~~~(readK r (kr va)))) ∧
    form (.kmovg lc vd va vb k z ew) 8 (ew = 0 ∧ mask va ∧ vb = 0) (WroteG vd (readK r (kr va)) r.flags) ∧
    form (.kmovk lc vd va vb k z ew) 9 (ew = 0 ∧ mask vd ∧ vb = 0) (WroteK (kr vd) (readG r va)) ∧
    form (.kpopc lc vd va vb k z ew) 10 (ew ≠ 3 ∧ mask va ∧ vb = 0)
      (WroteG vd (BitVec.ofNat 64 ((List.range L).countP fun i => (readK r (kr va)).getLsbD i)) r.flags) ∧
    form (.kfirst lc vd va vb k z ew) 11 (ew ≠ 3 ∧ mask va ∧ vb = 0)
      (WroteG vd (BitVec.ofNat 64 (((List.range L).find? fun i => (readK r (kr va)).getLsbD i).getD L)) r.flags)

/-! ### Core: vector loads and stores (05 R141 to R146) -/

/-- Vector loads, gathers and broadcasts whose active elements are served by the core's own caches or scratchpad (05 R141 to R145): the shadow's
value holds each active element from its own address, an inactive lane keeps or loses its value, and an inactive element is not accessed. `VLD.FF`
trims its mask at the first element past the lowest that fails. A misaligned base raises EXC_ALIGN, a misaligned element of a gather with its
number (R146); ew 3, for gathers ew 2, and k0 of `VLD.FF` are reserved. -/
def Obligations.VectorLoadsFillActiveLanes : Prop :=
  ∀ (lc : LC) (s u : State) (vt vb : VReg) (rb : GReg) (k : KReg) (z : Bool) (ew : BitVec 2) (x : Nat → Xlat) (y : Vec), Issues lc s u →
    VectorOn (coreOf u lc.val).regs →
    let r := (coreOf u lc.val).regs
    let w := if ew = 0 then 64 else if ew = 1 then 32 else 16
    let n := w / 8
    let on (i : Nat) : Prop := i < 512 / w ∧ (readK r k).getLsbD i = true
    let imm (unit : Nat) : Word64 := readG r rb + (BitVec.ofNat 5 vb.val).signExtend 64 * BitVec.ofNat 64 unit
    let idx : Word64 := readG r rb + readG r vb * BitVec.ofNat 64 n
    let el (base : Word64) (i : Nat) : Word64 := base + BitVec.ofNat 64 (i * n)
    let ga (scale i : Nat) : Word64 := readG r rb + BitVec.ofInt 64 ((lane w (readV r vb) i).toInt * scale)
    let served (wt : Want) (va : Word64) (i : Nat) : Prop := Passes lc wt va n true false u (x i) ∧ (x i).acc.mt ≠ 2 ∧ OwnLine lc (x i).acc u
    let each (base : Word64) : Prop := base.toNat % n = 0 ∧ ∀ i, on i → served vWantLoad (el base i) i
    let opens (i : Instr) : Prop := Completes i s fun t => OpensShadow lc u t [{ left := 3, dest := .vec vt, value := .vector y }]
    let mem (i : Nat) : BitVec w := BitVec.ofNat w (readNat u (x i).acc.pa n)
    (ew ≠ 3 → MaskedLanes w (readK r k) z mem (readV r vt) y →
      (each (imm 64) → opens (.vld lc vt rb vb k z ew) ∧ opens (.vldNt lc vt rb vb k z ew)) ∧
      (each idx → opens (.vldX lc vt rb vb k z ew)) ∧
      (ew.toNat < 2 → (∀ i, on i → served { vWantGather with elem := some i } (ga 1 i) i) → opens (.vgather lc vt rb vb k z ew)) ∧
      (ew.toNat < 2 → (∀ i, on i → served { vWantGather with elem := some i } (ga n i) i) → opens (.vgatherS lc vt rb vb k z ew))) ∧
    (ew ≠ 3 → MaskedLanes w (readK r k) z (fun _ => mem 0) (readV r vt) y →
      ((imm n).toNat % n = 0 → ((∃ i, on i) → served vWantLoad (imm n) 0) → opens (.vldbc lc vt rb vb k z ew)) ∧
      (idx.toNat % n = 0 → ((∃ i, on i) → served vWantLoad idx 0) → opens (.vldbcX lc vt rb vb k z ew))) ∧
    (∀ (m : Nat) (mask : Word64), ew ≠ 3 → k ≠ 0 → m ≤ 512 / w → (∀ i, mask.getLsbD i = (decide (i < m) && (readK r k).getLsbD i)) →
      MaskedLanes w mask z mem (readV r vt) y → (imm 64).toNat % n = 0 → (∀ i, on i → i < m → served vWantLoad (el (imm 64) i) i) →
      (m < 512 / w → on m ∧ (∃ i, on i ∧ i < m) ∧ ∃ e : Exc, e.cause ≠ 15 ∧ access lc.val vWantLoad (el (imm 64) m) n true false u = (.error e, u)) →
      Completes (.vldFf lc vt rb vb k z ew) s fun t =>
        OpensShadow lc u t [{ left := 3, dest := .vec vt, value := .vector y }, { left := 3, dest := .mask k, value := .word mask }]) ∧
    (ew ≠ 3 →
      let misses (i : Instr) (vfn : Nat) (va : Word64) : Prop := va.toNat % n ≠ 0 →
        Raises lc s u i (encV 0x2C vt rb vb k z ew vfn) 3 0 1 va (coreOf u lc.val).pc
      misses (.vld lc vt rb vb k z ew) 0 (imm 64) ∧ misses (.vldX lc vt rb vb k z ew) 1 idx ∧ misses (.vldNt lc vt rb vb k z ew) 3 (imm 64) ∧
      (k ≠ 0 → misses (.vldFf lc vt rb vb k z ew) 2 (imm 64)) ∧ misses (.vldbc lc vt rb vb k z ew) 4 (imm n) ∧
      misses (.vldbcX lc vt rb vb k z ew) 5 idx) ∧
    (∀ i, ew.toNat < 2 → on i → (∀ j, j < i → ¬on j) →
      let misses (x : Instr) (vfn : Nat) (va : Word64) : Prop := va.toNat % n ≠ 0 → Completes x s fun t =>
        Entered lc u t 3 (1 * 2 ^ 38 + 2 ^ 37 + i * 2 ^ 32 + 3) (coreOf u lc.val).pc va (coreOf u lc.val).pc
          ((encV 0x2D vt rb vb k z ew vfn).setWidth 64) 0
      misses (.vgather lc vt rb vb k z ew) 0 (ga 1 i) ∧ misses (.vgatherS lc vt rb vb k z ew) 1 (ga n i)) ∧
    (ew = 3 → ∀ e ∈ ([(.vld lc vt rb vb k z ew, 0), (.vldX lc vt rb vb k z ew, 1), (.vldNt lc vt rb vb k z ew, 3), (.vldbc lc vt rb vb k z ew, 4),
      (.vldbcX lc vt rb vb k z ew, 5)] : List (Instr × Nat)), Illegal lc s u e.1 (encV 0x2C vt rb vb k z ew e.2)) ∧
    (ew = 3 ∨ k = 0 → Illegal lc s u (.vldFf lc vt rb vb k z ew) (encV 0x2C vt rb vb k z ew 2)) ∧
    (2 ≤ ew.toNat → Illegal lc s u (.vgather lc vt rb vb k z ew) (encV 0x2D vt rb vb k z ew 0) ∧
      Illegal lc s u (.vgatherS lc vt rb vb k z ew) (encV 0x2D vt rb vb k z ew 1))

/-- Vector stores and scatters whose active elements are served by the core's own caches or scratchpad (05 R142, R145): each active element writes
its lane's bytes, in element order, so that of elements at one address the highest stands; no other byte and no register changes. An unmasked
`VST.NT` of a whole line of memory that no cache holds writes it at its home (R142). Zeroing, ew 3 and, for scatters, ew 2 are reserved; a
misaligned base raises EXC_ALIGN, a misaligned element of a scatter with its number (R146). -/
def Obligations.VectorStoresWriteActiveLanes : Prop :=
  ∀ (lc : LC) (s u : State) (vt vb : VReg) (rb : GReg) (k : KReg) (z : Bool) (ew : BitVec 2) (x : Nat → Xlat), Issues lc s u →
    VectorOn (coreOf u lc.val).regs →
    let r := (coreOf u lc.val).regs
    let w := if ew = 0 then 64 else if ew = 1 then 32 else 16
    let n := w / 8
    let on (i : Nat) : Prop := i < 512 / w ∧ (readK r k).getLsbD i = true
    let imm : Word64 := readG r rb + (BitVec.ofNat 5 vb.val).signExtend 64 * 64
    let idx : Word64 := readG r rb + readG r vb * BitVec.ofNat 64 n
    let ga (scale i : Nat) : Word64 := readG r rb + BitVec.ofInt 64 ((lane w (readV r vb) i).toInt * scale)
    let served (wt : Want) (va : Word64) (i : Nat) : Prop := Passes lc wt va n false true u (x i) ∧ OwnLine lc (x i).acc u
    let each (base : Word64) : Prop := base.toNat % n = 0 ∧ ∀ i, on i → served vWantStore (base + BitVec.ofNat 64 (i * n)) i
    let pa (i : Nat) : Nat := (x i).acc.pa
    let within (a i : Nat) : Prop := pa i ≤ a ∧ a < pa i + n
    let wrote (t : State) : Prop :=
      (∀ a i, on i → within a i → (∀ j, on j → i < j → ¬within a j) → readByte t a = BitVec.ofNat 8 ((lane w (readV r vt) i).toNat / 256 ^ (a - pa i))) ∧
      (∀ a, (∀ i, on i → ¬within a i) → readByte t a = readByte u a) ∧
      coreOf t lc.val = { coreOf u lc.val with pc := (coreOf u lc.val).pc + 4 } ∧ ∀ n, n ≠ lc.val → coreOf t n = coreOf u n
    let stores (i : Instr) : Prop := Completes i s fun t => wrote t ∧ { t with cores := u.cores, mem := { t.mem with bytes := u.mem.bytes } } = u
    let line := isMemory (pa 0) = true ∧ k = 0 ∧ ew = 0 ∧ imm.toNat % 64 = 0
    (z = false → ew ≠ 3 →
      (each imm → stores (.vst lc vt rb vb k z ew)) ∧ (each idx → stores (.vstX lc vt rb vb k z ew)) ∧
      (each imm → ¬line → stores (.vstNt lc vt rb vb k z ew)) ∧
      (line → (∀ i, i < 8 → Passes lc vWantStore (imm + BitVec.ofNat 64 (i * n)) n false true u (x i) ∧ (x i).acc.mt = 0) → AtHome u (pa 0) →
        Completes (.vstNt lc vt rb vb k z ew) s wrote)) ∧
    (z = false → ew.toNat < 2 →
      ((∀ i, on i → served { vWantScatter with elem := some i } (ga 1 i) i) → stores (.vscatter lc vt rb vb k z ew)) ∧
      ((∀ i, on i → served { vWantScatter with elem := some i } (ga n i) i) → stores (.vscatterS lc vt rb vb k z ew)) ∧
      ∀ i, on i → (∀ j, j < i → ¬on j) →
        let misses (x : Instr) (vfn : Nat) (va : Word64) : Prop := va.toNat % n ≠ 0 → Completes x s fun t =>
          Entered lc u t 3 (2 * 2 ^ 38 + 2 ^ 37 + i * 2 ^ 32 + 3) (coreOf u lc.val).pc va (coreOf u lc.val).pc
            ((encV 0x2D vt rb vb k z ew vfn).setWidth 64) 0
        misses (.vscatter lc vt rb vb k z ew) 4 (ga 1 i) ∧ misses (.vscatterS lc vt rb vb k z ew) 5 (ga n i)) ∧
    (z = true ∨ ew = 3 → Illegal lc s u (.vst lc vt rb vb k z ew) (encV 0x2C vt rb vb k z ew 8) ∧
      Illegal lc s u (.vstX lc vt rb vb k z ew) (encV 0x2C vt rb vb k z ew 9) ∧ Illegal lc s u (.vstNt lc vt rb vb k z ew) (encV 0x2C vt rb vb k z ew 11)) ∧
    (z = true ∨ 2 ≤ ew.toNat → Illegal lc s u (.vscatter lc vt rb vb k z ew) (encV 0x2D vt rb vb k z ew 4) ∧
      Illegal lc s u (.vscatterS lc vt rb vb k z ew) (encV 0x2D vt rb vb k z ew 5)) ∧
    (z = false → ew ≠ 3 →
      let misses (i : Instr) (vfn : Nat) (va : Word64) : Prop := va.toNat % n ≠ 0 →
        Raises lc s u i (encV 0x2C vt rb vb k z ew vfn) 3 0 2 va (coreOf u lc.val).pc
      misses (.vst lc vt rb vb k z ew) 8 imm ∧ misses (.vstX lc vt rb vb k z ew) 9 idx ∧ misses (.vstNt lc vt rb vb k z ew) 11 imm)

/-! ### Core: long instructions (06) -/

/-- One micro-step of a long instruction within lines served by the core's own caches or scratchpad (06 R150 to R158): the bytes moved, filled or
compared, the registers advanced by them together, PC + 4 only where it is the last; a zero length ends it at once. After a step that is not the
last the reads of later steps are made ahead (R162; the model's choice, log entry 98). An overlapping `BCOPY` to a higher address moves from the
top down; a `.NT` form writes a whole line of memory that no cache holds at its home. Reserved register choices raise EXC_ILLEGAL. -/
def Obligations.LongInstructionsTakeMicroSteps : Prop :=
  ∀ (lc : LC) (s u : State) (f : Bool) (rd ra rb : GReg) (src dst : Nat → Byte) (a : Xlat), Issues lc s u →
    let c := coreOf u lc.val
    let gd := readG c.regs rd
    let ga := readG c.regs ra
    let gb := readG c.regs rb
    let reads (place n : Nat) (bytes : Nat → Byte) : Prop := ∀ p ∈ lineSpans place n, p.1 < 2 ^ 64 ∧ ∃ x : Xlat,
      accessPart lc.val longWantRead (BitVec.ofNat 64 p.1) p.2 true false false u = (.ok x, u) ∧ x.ads = [] ∧ OwnLine lc x.acc u ∧
      ∀ j, j < p.2 → bytes (p.1 - place + j) = readByte u (x.acc.pa + j)
    let piece (w : Want) (wr : Bool) (va n : Nat) : Prop :=
      va < 2 ^ 64 ∧ accessPart lc.val w (BitVec.ofNat 64 va) n (!wr) wr (wr && decide (n < 64)) u = (.ok a, u) ∧ a.ads = [] ∧ OwnLine lc a.acc u
    let goes (t : State) (last : Bool) (up n : Nat) (both : Bool) (fl : Flags) : Prop :=
      (coreOf t lc.val).pc = (if last then c.pc + 4 else c.pc) ∧
      (∀ i, readG (coreOf t lc.val).regs i = if i = rd then gd + BitVec.ofNat 64 up else if i = rb then gb - BitVec.ofNat 64 n
        else if i = ra ∧ both then ga + BitVec.ofNat 64 up else readG c.regs i) ∧
      coreOf t lc.val = { c with pc := (coreOf t lc.val).pc, regs := { c.regs with g := (coreOf t lc.val).regs.g, flags := fl } } ∧
      (∀ m, m ≠ lc.val → coreOf t m = coreOf u m) ∧
      { t with cores := u.cores, mem := { t.mem with bytes := u.mem.bytes, poison := u.mem.poison } } = u
    let moves (i : Instr) (last : Bool) (ahead : List (Nat × Nat)) (P : State → Prop) : Prop := Completes i s fun t =>
      ∃ v, t = (if last then v else readAhead lc ahead v) ∧ P v
    let writes (i : Instr) (n up : Nat) (both : Bool) (ahead : List (Nat × Nat)) (bytes : Nat → Byte) : Prop :=
      moves i (decide (gb.toNat = n)) ahead fun v =>
        goes v (decide (gb.toNat = n)) up n both c.regs.flags ∧ (∀ j, j < n → readByte v (a.acc.pa + j) = bytes j) ∧ SameBytesBut a.acc.pa n u v ∧
        (n < 64 → v.mem.poison = u.mem.poison) ∧ (n = 64 → poisoned v (lineOf a.acc.pa) = false)
    let n := min gb.toNat (64 - gd.toNat % 64)
    let up := lineSpans (ga.toNat + n) (min (gb.toNat - n) 2048)
    let line (i : Instr) (both : Bool) (ahead : List (Nat × Nat)) (bytes : Nat → Byte) : Prop :=
      accessPart lc.val longWantWrite gd n false true false u = (.ok a, u) → a.ads = [] → AtHome u a.acc.pa → n = 64 →
      moves i (decide (gb.toNat = n)) ahead fun v =>
        (coreOf v lc.val).pc = (if gb.toNat = n then c.pc + 4 else c.pc) ∧
        (∀ i, readG (coreOf v lc.val).regs i = if i = rd then gd + BitVec.ofNat 64 n else if i = rb then gb - BitVec.ofNat 64 n
          else if i = ra ∧ both then ga + BitVec.ofNat 64 n else readG c.regs i) ∧
        (∀ m, m ≠ lc.val → coreOf v m = coreOf u m) ∧
        (∀ j, j < n → readByte v (a.acc.pa + j) = bytes j) ∧ SameBytesBut a.acc.pa n u v ∧ poisoned v (lineOf a.acc.pa) = false
    let down := gd.toNat + gb.toNat - max gd.toNat (gd.toNat + gb.toNat - 1 - (gd.toNat + gb.toNat - 1) % 64)
    let overlaps := ga.toNat < gd.toNat ∧ gd.toNat < ga.toNat + gb.toNat
    let word (fn : Nat) : Word32 := encA 0x3A rd ra rb f fn
    (rd ≠ 0 → rb ≠ 0 → rd ≠ ra → rd ≠ rb → ra ≠ rb →
      (gb = 0 →
        Executes lc s u (.bfill lc false rd ra rb) SameRegs ∧ Executes lc s u (.bfillNt lc false rd ra rb) SameRegs ∧
        (ra ≠ 0 → Executes lc s u (.bcopy lc false rd ra rb) SameRegs ∧ Executes lc s u (.bcopyNt lc false rd ra rb) SameRegs ∧
          Executes lc s u (.bcmp lc false rd ra rb) fun old new => new = { old with flags := { n := false, z := true, c := true, v := false } })) ∧
      (gb ≠ 0 →
        (piece longWantWrite true gd.toNat n →
          let pat (j : Nat) : Byte := ga.extractLsb' (8 * ((gd.toNat + j) % 8)) 8
          writes (.bfill lc false rd ra rb) n n false [] pat ∧
          (n < 64 ∨ isMemory a.acc.pa = false → writes (.bfillNt lc false rd ra rb) n n false [] pat)) ∧
        line (.bfillNt lc false rd ra rb) false [] (fun j => ga.extractLsb' (8 * ((gd.toNat + j) % 8)) 8) ∧
        (ra ≠ 0 → ¬overlaps → reads ga.toNat n src → piece longWantWrite true gd.toNat n →
          writes (.bcopy lc false rd ra rb) n n true up src ∧
          (n < 64 ∨ isMemory a.acc.pa = false → writes (.bcopyNt lc false rd ra rb) n n true up src)) ∧
        (ra ≠ 0 → ¬overlaps → reads ga.toNat n src → line (.bcopyNt lc false rd ra rb) true up src) ∧
        (ra ≠ 0 → overlaps → reads (ga.toNat + gb.toNat - down) down src → piece longWantWrite true (gd.toNat + gb.toNat - down) down →
          let below := min (gb.toNat - down) 2048
          writes (.bcopy lc false rd ra rb) down 0 true (lineSpans (ga.toNat + gb.toNat - down - below) below).reverse src) ∧
        (ra ≠ 0 → piece longWantRead false gd.toNat n → (∀ j, j < n → dst j = readByte u (a.acc.pa + j)) → reads ga.toNat n src →
          ((∀ j, j < n → dst j = src j) →
            moves (.bcmp lc false rd ra rb) (decide (gb.toNat = n)) (lineSpans (gd.toNat + n) (min (gb.toNat - n) 2048) ++ up) fun v => SameBytes u v ∧
            goes v (decide (gb.toNat = n)) n n true (if gb.toNat = n then { n := false, z := true, c := true, v := false } else c.regs.flags)) ∧
          ∀ i, i < n → (∀ j, j < i → dst j = src j) → dst i ≠ src i → Completes (.bcmp lc false rd ra rb) s fun t => SameBytes u t ∧
            goes t true i i true { n := (dst i).ult (src i), z := false, c := !(dst i).ult (src i), v := false }))) ∧
    (f = true ∨ rd = 0 ∨ rb = 0 ∨ rd = ra ∨ rd = rb ∨ ra = rb →
      Illegal lc s u (.bfill lc f rd ra rb) (word 2) ∧ Illegal lc s u (.bfillNt lc f rd ra rb) (word 3)) ∧
    (f = true ∨ rd = 0 ∨ ra = 0 ∨ rb = 0 ∨ rd = ra ∨ rd = rb ∨ ra = rb →
      Illegal lc s u (.bcopy lc f rd ra rb) (word 0) ∧ Illegal lc s u (.bcopyNt lc f rd ra rb) (word 1) ∧ Illegal lc s u (.bcmp lc f rd ra rb) (word 4))

/-! ### Core: privilege, keys, gateways, translation caches, events (07, 08, 19) -/

/-- `ERET` (07 R183) returns to the PC, FLAGS and IE that entry saved, clears EXL and lowers the level where PL is U, exchanging g31 with the
stack register; at K it uses the K copies and stays at K; at U it raises EXC_PRIV. `SVC` enters EXC_SVC with the next instruction as return PC
(R178, R184). -/
def Obligations.SystemCallsEnterAndReturn : Prop :=
  ∀ (lc : LC) (s u : State) (x : BitVec 12), Issues lc s u →
    let c := coreOf u lc.val
    let r := c.regs
    let b := bankOf r
    let st := csr r (b + 3)
    let lowers := levelOf r = 1 ∧ fld st 5 4 = 0
    Raises lc s u (.svc lc 0 0 x) (encS 0x3E 0 0 0 x) 16 0 0 (x.setWidth 64) (c.pc + 4) ∧
    (levelOf r = 0 → Raises lc s u (.eret lc 0 0 0) (encS 0x3E 0 0 1 0) 2 0 0 0 c.pc) ∧
    (levelOf r ≠ 0 → fld (csr r 0x610) 1 0 = 0 → (levelOf r = 1 → fld st 5 4 < 2) → Completes (.eret lc 0 0 0) s fun t =>
      let q := (coreOf t lc.val).regs
      CoreNow lc u t { c with regs := q, pc := csr r (b + 2) } ∧
      q.flags = { n := st.getLsbD 11, z := st.getLsbD 10, c := st.getLsbD 9, v := st.getLsbD 8 } ∧
      (csr q b).getLsbD 0 = st.getLsbD 0 ∧ (csr q b).getLsbD 1 = false ∧
      (lowers → levelOf q = 0 ∧ readG q 31 = csr r 0x409 ∧ csr q 0x409 = readG r 31) ∧
      (¬lowers → levelOf q = levelOf r ∧ readG q 31 = readG r 31 ∧ csr q 0x409 = csr r 0x409) ∧
      (∀ i, i ≠ 31 → readG q i = readG r i) ∧ q.v = r.v ∧ q.k = r.k ∧
      ∀ n, n ≠ b → n ≠ 0x400 → n ≠ 0x409 → csr q n = csr r n) ∧
    (x ≠ 0 → Illegal lc s u (.eret lc 0 0 x) (encS 0x3E 0 0 1 x))

/-- `WRPKR` writes the low 32 bits of gv to the keys at every level; `UACON` and `UACOFF` open and close the access window, and raise EXC_PRIV at U
(08 R216). -/
def Obligations.KeyAndWindowInstructionsWriteTheirRegister : Prop :=
  ∀ (lc : LC) (s u : State) (rv : GReg), Issues lc s u →
    let r := (coreOf u lc.val).regs
    let only (n : Nat) (w : Word64) (old new : Regs) : Prop :=
      csr new n = w ∧ (∀ m, m ≠ n → csr new m = csr old m) ∧ new = { old with csr := new.csr }
    Executes lc s u (.wrpkr lc 0 rv 0) (only 0x040 (((readG r rv).setWidth 32).setWidth 64)) ∧
    (levelOf r ≠ 0 →
      (∀ w, (∀ i, i < 64 → w.getLsbD i = (decide (i = 0) || (csr r 0x4C4).getLsbD i)) → Executes lc s u (.uacon lc 0 0 0) (only 0x4C4 w)) ∧
      (∀ w, (∀ i, i < 64 → w.getLsbD i = (!decide (i = 0) && (csr r 0x4C4).getLsbD i)) → Executes lc s u (.uacoff lc 0 0 0) (only 0x4C4 w))) ∧
    (levelOf r = 0 → Raises lc s u (.uacon lc 0 0 0) (encS 0x3E 0 0 9 0) 2 0 0 0 (coreOf u lc.val).pc ∧
      Raises lc s u (.uacoff lc 0 0 0) (encS 0x3E 0 0 10 0) 2 0 0 0 (coreOf u lc.val).pc)

/-- `GATE` to a target that passes the checks enters K as one step: the return PC and level kept, g31 exchanged with the K stack register, PC past
the `GATEPAD` (19 R458); a misaligned target and a `GATE` at K raise EXC_ALIGN and EXC_GATE 4. `GATEPAD` does nothing at K and is illegal below
(R459). `GATERET` and `GATERET.R` undo the entry (R460). -/
def Obligations.GatewaysEnterAndLeaveK : Prop :=
  ∀ (lc : LC) (s u : State) (rv : GReg), Issues lc s u →
    let c := coreOf u lc.val
    let r := c.regs
    let va := readG r rv
    let gate : Instr := .gate lc 0 rv 0
    let word : Word32 := encS 0x3E 0 rv 2 0
    let leaves (i : Instr) (pc : Word64) : Prop := Completes i s fun t =>
      let q := (coreOf t lc.val).regs
      CoreNow lc u t { c with regs := q, pc := pc, gate := { c.gate with isOpen := false } } ∧
      levelOf q = c.gate.level.toNat ∧ readG q 31 = csr r 0x809 ∧ csr q 0x809 = readG r 31 ∧
      (∀ i, i ≠ 31 → readG q i = readG r i) ∧ q.flags = r.flags ∧ q.v = r.v ∧ q.k = r.k ∧ ∀ n, n ≠ 0x400 → n ≠ 0x809 → csr q n = csr r n
    (∀ a : Xlat, va.toNat % 4 = 0 → levelOf r ≠ 2 → gateTarget lc va u = (.ok a, u) → a.ads = [] → Completes gate s fun t =>
      let q := (coreOf t lc.val).regs
      CoreNow lc u t { c with regs := q, pc := va + 4, gate := { isOpen := true, level := BitVec.ofNat 2 (levelOf r) } } ∧
      levelOf q = 2 ∧ (csr q 0x400).getLsbD 7 = true ∧ csr q 0x810 = c.pc + 4 ∧ readG q 31 = csr r 0x809 ∧ csr q 0x809 = readG r 31 ∧
      (∀ i, i ≠ 31 → readG q i = readG r i) ∧ q.flags = r.flags ∧ q.v = r.v ∧ q.k = r.k ∧
      ∀ n, n ≠ 0x400 → n ≠ 0x809 → n ≠ 0x810 → csr q n = csr r n) ∧
    (va.toNat % 4 ≠ 0 → Raises lc s u gate word 3 0 0 va c.pc) ∧
    (va.toNat % 4 = 0 → levelOf r = 2 → Raises lc s u gate word 11 4 0 va c.pc) ∧
    (∀ n : Nat, n < 4 → va.toNat % 4 = 0 → levelOf r ≠ 2 → gateTarget lc va u = (.error n, u) → Raises lc s u gate word 11 n 0 va c.pc) ∧
    (levelOf r = 2 → Executes lc s u (.gatepad lc 0 0 0) SameRegs) ∧
    (levelOf r ≠ 2 → Illegal lc s u (.gatepad lc 0 0 0) 0xF8003000) ∧
    (levelOf r = 2 → c.gate.isOpen = true → c.gate.level.toNat < 2 → (csr r 0x522).getLsbD 0 = true →
      leaves (.gateret lc 0 0 0) (csr r 0x810) ∧ leaves (.gateretR lc 0 0 0) (csr r 0x810 - 4)) ∧
    (levelOf r = 2 → c.gate.isOpen = false → Raises lc s u (.gateret lc 0 0 0) 0xF8004000 11 6 0 0 c.pc ∧
      Raises lc s u (.gateretR lc 0 0 0) 0xF8005000 11 6 0 0 c.pc) ∧
    (levelOf r ≠ 2 → Raises lc s u (.gateret lc 0 0 0) 0xF8004000 2 0 0 0 c.pc ∧ Raises lc s u (.gateretR lc 0 0 0) 0xF8005000 2 0 0 0 c.pc)

/-- The local invalidations remove from the core's own translation caches exactly the slots they name, at S those of the open world alone (08 R221);
the broadcast forms wait for every bound core that is not behind a silent bridge and for every joined device, where there is room among 16 (R222,
R223); `TLBSYNC` ends once none is unacknowledged; an arrival removes the slots at its target and acknowledges. At U all raise EXC_PRIV. -/
def Obligations.InvalidationsRemoveTheSlotsTheyName : Prop :=
  (∀ (lc : LC) (s u : State) (rv : GReg) (gt : GReg), Issues lc s u →
    let c := coreOf u lc.val
    let r := c.regs
    let x12 : BitVec 12 := BitVec.ofNat 12 (gt.val * 128)
    let kind (i : Instr × Instr) : TlbiKind := match i.1 with
      | .tlbiVa .. => .va (fld (readG r rv) 47 12 * 4096) ((readG r gt).setWidth 16)
      | .tlbiTag .. => .tag ((readG r rv).setWidth 16)
      | _ => .all
    let forms : List (Instr × Instr) := [(.tlbiVa lc 0 rv x12, .tlbiVaB lc 0 rv x12), (.tlbiTag lc 0 rv 0, .tlbiTagB lc 0 rv 0),
      (.tlbiAll lc 0 0 0, .tlbiAllB lc 0 0 0)]
    (levelOf r ≠ 0 → ∀ i ∈ forms,
      let k := decide (levelOf r = 2)
      let gone (t : TlbSlot) : Prop := match kind i with
        | .va p g => (t.va ≤ p ∧ p < t.va + t.size) ∧ if t.world then k = true else t.tag = none ∨ t.tag = some g
        | .tag g => t.world = false ∧ (t.tag = none ∨ t.tag = some g)
        | .all => t.world = true → k = true
      (Completes i.1 s fun t => ∃ y : Tlbs, CoreNow lc u t { c with pc := c.pc + 4, tlbs := y } ∧
        (∀ x, x ∈ y.itlb ↔ x ∈ c.tlbs.itlb ∧ ¬gone x) ∧ (∀ x, x ∈ y.dtlb ↔ x ∈ c.tlbs.dtlb ∧ ¬gone x) ∧
        (∀ x, x ∈ y.l2tlb ↔ x ∈ c.tlbs.l2tlb ∧ ¬gone x.2) ∧ ∀ x, x ∈ y.walk → x ∈ c.tlbs.walk) ∧
      (c.broadcasts.length < 16 →
        let own := (List.range u.resil.bound).filter fun n => !islandSilent u (uCore (pcOf u n))
        let peers := (List.range 4).filter fun e => u.links.peers.getLsbD e
        let now : Core := { c with pc := c.pc + 4,
                                   broadcasts := c.broadcasts ++ [{ kind := kind i, world := k, waiting := own ++ peers.map (512 + ·) }] }
        Completes i.2 s fun t => coreOf t lc.val = now ∧ (∀ n, n ≠ lc.val → coreOf t n = coreOf u n) ∧ (peers = [] → CoreNow lc u t now)) ∧
      (16 ≤ c.broadcasts.length → exec i.2 s = .next u)) ∧
    (levelOf r ≠ 0 → (c.broadcasts = [] → Executes lc s u (.tlbsync lc 0 0 0) SameRegs) ∧ (c.broadcasts ≠ [] → exec (.tlbsync lc 0 0 0) s = .next u)) ∧
    (levelOf r = 0 → Raises lc s u (.tlbsync lc 0 0 0) 0xF000A000 2 0 0 0 c.pc ∧
      ∀ e ∈ ([(.tlbiVa lc 0 rv x12, 4), (.tlbiVaB lc 0 rv x12, 5), (.tlbiTag lc 0 rv 0, 6), (.tlbiTagB lc 0 rv 0, 7), (.tlbiAll lc 0 rv 0, 8),
          (.tlbiAllB lc 0 rv 0, 9)] : List (Instr × Nat)), (7 < e.2 → rv = 0) →
        Raises lc s u e.1 (encS 0x3C 0 rv e.2 (if e.2 < 6 then x12 else 0)) 2 0 0 0 c.pc)) ∧
  (∀ (src lc : LC) (s : State) (b : Broadcast) (rest : List Broadcast), (coreOf s src.val).broadcasts = b :: rest → lc.val ∈ b.waiting →
    (coreOf s lc.val).group = none → smGet islandDef s.power.islands (pcOf s lc.val) = .active →
    Completes (.tlbiBroadcastArrival (.core src) lc.val) s fun t =>
      let left := b.waiting.filter fun x => x != lc.val
      (∀ n, coreOf t n = { coreOf s n with
        tlbs := if n = lc.val then tlbiApply b.kind b.world (coreOf s n).tlbs else (coreOf s n).tlbs,
        broadcasts := if n = src.val then (if left = [] then rest else { b with waiting := left } :: rest) else (coreOf s n).broadcasts }) ∧
      { t with cores := s.cores } = s) ∧
  ∀ (slot : Nat) (kind : TlbiKind) (world : Bool) (lc : LC) (s : State), s.links.peers.getLsbD slot = true → bound s lc.val = true →
    (coreOf s lc.val).group = none → smGet islandDef s.power.islands (pcOf s lc.val) = .active →
    Completes (.tlbiBroadcastArrival (.peer slot kind world) lc.val) s fun t =>
      coreOf t lc.val = { coreOf s lc.val with tlbs := tlbiApply kind world (coreOf s lc.val).tlbs } ∧ ∀ n, n ≠ lc.val → coreOf t n = coreOf s n

/-- `SEV` sends its event to the cores named, with its status in gd and Z (07 R185); its delivery sets bit 0 of the core's latched events (R186).
A wait ends at once with the conditions that hold, clearing the latched bits it reports, else it waits and a later end delivers them (R189 to
R192); a `WFE.NE` whose line is poisoned raises EXC_POISON (R191). `RDTIME` reads system time (R194). -/
def Obligations.EventsAndWaitsReportTheirConditions : Prop :=
  (∀ (lc : LC) (s u : State) (rd rv gt : GReg), Issues lc s u →
    let c := coreOf u lc.val
    let r := c.regs
    let v := readG r rv
    let x12 : BitVec 12 := BitVec.ofNat 12 (gt.val * 128)
    let sends (st : Nat) (to_ : Nat → Prop) : Prop := Completes (.sev lc rd rv 0) s fun t =>
      (∀ n, (coreOf t n).sevInFlight = true ↔ (to_ n ∨ (coreOf u n).sevInFlight = true)) ∧
      (∀ n, n ≠ lc.val → coreOf t n = { coreOf u n with sevInFlight := (coreOf t n).sevInFlight }) ∧
      WroteG rd (BitVec.ofNat 64 st) { r.flags with z := decide (st = 0) } r (coreOf t lc.val).regs ∧
      coreOf t lc.val = { c with pc := c.pc + 4, regs := (coreOf t lc.val).regs, sevInFlight := (coreOf t lc.val).sevInFlight } ∧
      { t with cores := u.cores } = u
    let waits (i : Instr) (kind : WaitKind) (own : Nat) : Prop :=
      let res := (csr r 0x410 &&& csr r 0x411 &&& 0xFF01).toNat + (intrFor u lc.val).toNat * 16 + own
      (res ≠ 0 → Executes lc s u i fun old new => (∀ n, readG new n = if n = rd ∧ rd ≠ 0 then BitVec.ofNat 64 res else readG old n) ∧
        csr new 0x410 = csr old 0x410 &&& ~~~(BitVec.ofNat 64 res &&& 0xFF01) ∧ (∀ n, n ≠ 0x410 → csr new n = csr old n) ∧
        new.flags = old.flags ∧ new.v = old.v ∧ new.k = old.k) ∧
      (res = 0 → Completes i s fun t => CoreNow lc u t { c with wait := some { kind := kind, rd := rd } })
    (fld v 62 9 ≠ 0 → sends 4 fun _ => False) ∧
    (fld v 62 9 = 0 → v.getLsbD 63 = true → sends 0 fun n => n < u.resil.bound) ∧
    (fld v 62 9 = 0 → v.getLsbD 63 = false → fld v 8 0 < u.resil.bound → sends 0 fun n => n = fld v 8 0) ∧
    (fld v 62 9 = 0 → v.getLsbD 63 = false → u.resil.bound ≤ fld v 8 0 → sends 3 fun _ => False) ∧
    waits (.wfe lc rd 0 0) .wfe 0 ∧
    waits (.waitt lc rd rv 0) (.waitt v) (if v.toNat ≤ u.time.now.toNat then 2 else 0) ∧
    (∀ a : Xlat, Passes lc wantWait (readG r gt) 8 true false u a → OwnLine lc a.acc u →
      staleView u (pcOf u lc.val) (lineOf a.acc.pa) false = none → isMemory a.acc.pa = true →
      waits (.wfeNe lc rd rv x12) (.wfeNe a.acc v (readG r gt) (encS 0x3D rd rv 2 x12)) (if BitVec.ofNat 64 (readNat u a.acc.pa 8) ≠ v then 4 else 0)) ∧
    (∀ p : Posting, postingPage lc wantDeq false (readG r gt) u = (.ok p, u) → p.ads = [] → p.queue < 65536 →
      waits (.wfeQ lc rd 0 x12) (.wfeQ (p.slot * 65536 + p.queue)) (if p.slot = slotOf u ∧ queueHolds u p.queue then 8 else 0)) ∧
    Executes lc s u (.rdtime lc rd 0 0) (WroteG rd u.time.now r.flags)) ∧
  (∀ (lc : LC) (s : State),
    ((coreOf s lc.val).sevInFlight = true → Completes (.eventDelivery lc) s fun t =>
      CoreNow lc s t { coreOf s lc.val with sevInFlight := false, regs := (coreOf t lc.val).regs } ∧
      csr (coreOf t lc.val).regs 0x410 = csr (coreOf s lc.val).regs 0x410 ||| 1 ∧
      (∀ n, n ≠ 0x410 → csr (coreOf t lc.val).regs n = csr (coreOf s lc.val).regs n) ∧
      (coreOf t lc.val).regs = { (coreOf s lc.val).regs with csr := (coreOf t lc.val).regs.csr }) ∧
    ((coreOf s lc.val).sevInFlight = false → exec (.eventDelivery lc) s = .next s)) ∧
  ∀ (lc : LC) (s : State) (w : Wait), (coreOf s lc.val).wait = some w →
    (∀ a x va i, w.kind = .wfeNe a x va i → l2On s (pcOf s lc.val) = true → (l2Copy s (pcOf s lc.val) (lineOf a.pa)).isSome = true) →
    let clean := ∀ a x va i, w.kind = .wfeNe a x va i → readsPoison s (lineOf a.pa) = false
    (clean → endResult s lc.val w.kind = 0 → exec (.waitEnd lc) s = .next s) ∧
    (∀ a x va i, w.kind = .wfeNe a x va i → readsPoison s (lineOf a.pa) = true → bound s lc.val = true → (coreOf s lc.val).standing = .issuing →
      (coreOf s lc.val).paused = false → (coreOf s lc.val).drainReq = false → (coreOf s lc.val).group = none → (coreOf s lc.val).shadows = [] →
      (coreOf s lc.val).eretSkip = 0 → (csr (coreOf s lc.val).regs 0x522).getLsbD 0 = true → (coreOf s lc.val).stepReq = false →
      Completes (.waitEnd lc) s fun t => (coreOf t lc.val).wait = none ∧
        Entered lc s t 10 (2 ^ 38 + 256 + 10) (coreOf s lc.val).pc va (coreOf s lc.val).pc (i.setWidth 64) 0) ∧
    (clean → endResult s lc.val w.kind ≠ 0 → bound s lc.val = true → (coreOf s lc.val).standing = .issuing → (coreOf s lc.val).paused = false →
      (coreOf s lc.val).drainReq = false → s.power.pstate = 0 → (coreOf s lc.val).shadows = [] → (coreOf s lc.val).group = none →
      (csr (coreOf s lc.val).regs 0x522).getLsbD 0 = true → (coreOf s lc.val).skipOnce = false → (coreOf s lc.val).eretSkip = 0 →
      (coreOf s lc.val).eretStep = 0 → (coreOf s lc.val).stepReq = false →
      let res := endResult s lc.val w.kind
      Completes (.waitEnd lc) s fun t => (coreOf t lc.val).wait = none ∧ (coreOf t lc.val).pc = (coreOf s lc.val).pc + 4 ∧
        (∀ n, readG (coreOf t lc.val).regs n = if n = w.rd ∧ n ≠ 0 then BitVec.ofNat 64 res else readG (coreOf s lc.val).regs n) ∧
        csr (coreOf t lc.val).regs 0x410 = csr (coreOf s lc.val).regs 0x410 &&& ~~~(BitVec.ofNat 64 res &&& 0xFF01) ∧
        (∀ n, n ≠ lc.val → coreOf t n = coreOf s n) ∧ smGet islandDef t.power.islands (pcOf s lc.val) = .active ∧ SameBytes s t)

/-! ### Core: control space and queues (02, 13) -/

/-- `SDC` and `SDC.RD` (02 R37 to R41): the access by this core at the register's offset, its status in gd and Z, a read value in gv; nothing else of
the core changes. An end of interrupt out of order raises EXC_ISTACK after it (17 R430). The row of a lost answer reports ST_TIMEOUT, or ST_PRIV
where the level fails, and has no effect on the register beside the low half it discards (02 R35). What another device answers is a free value (log
entry 23). A misaligned address raises EXC_ALIGN. -/
def Obligations.CheckedAccessesReportTheirStatus : Prop :=
  ∀ (lc : LC) (s u : State) (rd rv gt : GReg) (a : Xlat) (p : Place), Issues lc s u →
    let c := coreOf u lc.val
    let r := c.regs
    let x12 : BitVec 12 := BitVec.ofNat 12 (gt.val * 128)
    let va := readG r gt
    let m := coreMeter lc.val a.acc u
    let passes (w : Want) (ld : Bool) : Prop := Passes lc w va 4 ld (!ld) u a ∧ placeOf a.acc.pa = some p ∧ slotOf m = slotOf u
    let served (w : Want) (ld : Bool) : Prop := passes w ld ∧ p.slot = slotOf u
    let away (i : Instr) (f : Word32 → Regs → Regs) (sts : List Nat) : Prop := coreOf m lc.val = c → Completes i s fun t =>
      ∃ (st n : Nat) (w : Word32), st ∈ sts ∧ WroteG rd (BitVec.ofNat 64 st) { r.flags with z := decide (st = 0) } (f w r) (coreOf t lc.val).regs ∧
        CoreNow lc { m with fresh := n } t { c with pc := c.pc + 4, regs := (coreOf t lc.val).regs }
    let wr := ctlWrite (.core lc) p.off ((readG r rv).setWidth 32) m
    let rdg := ctlRead (.core lc) p.off m
    let ends (i : Instr) (v : State) (f : Regs → Regs) (st : Nat) : Prop := coreOf v lc.val = c → Completes i s fun t =>
      WroteG rd (BitVec.ofNat 64 st) { r.flags with z := decide (st = 0) } (f r) (coreOf t lc.val).regs ∧
      CoreNow lc v t { c with pc := c.pc + 4, regs := (coreOf t lc.val).regs }
    (served wantSdc false →
      (¬(p.off = 0x400104 ∧ wr.1 = 11) → ends (.sdc lc rd rv x12) wr.2 (fun q => q) wr.1) ∧
      (p.off = 0x400104 → wr.1 = 11 → coreOf wr.2 lc.val = c → Completes (.sdc lc rd rv x12) s fun t => ∃ v,
        WroteG rd 11 { r.flags with z := false } r (coreOf v lc.val).regs ∧ CoreNow lc wr.2 v { c with regs := (coreOf v lc.val).regs } ∧
        Entered lc v t 12 12 (c.pc + 4) (BitVec.ofNat 64 (fld ((readG r rv).setWidth 32) 12 0)) c.pc 0 0) ∧
      ends (.sdcTimeout lc false rd rv x12) (dropHigh (.core lc) p.off m) (fun q => q) (if wr.1 = 2 then 2 else 9)) ∧
    (served wantSdcRead true →
      ends (.sdcRd lc rd rv x12) rdg.2.2 (fun q => writeG q rv (rdg.2.1.setWidth 64)) rdg.1 ∧
      ends (.sdcTimeout lc true rd rv x12) m (fun q => writeG q rv (rdg.2.1.setWidth 64)) (if rdg.1 = 2 then 2 else 9)) ∧
    (p.slot ≠ slotOf u → a.ads = [] →
      (passes wantSdc false → away (.sdc lc rd rv x12) (fun _ q => q) (List.range 16) ∧ away (.sdcTimeout lc false rd rv x12) (fun _ q => q) [9]) ∧
      (passes wantSdcRead true → away (.sdcRd lc rd rv x12) (fun w q => writeG q rv (w.setWidth 64)) (List.range 16) ∧
        away (.sdcTimeout lc true rd rv x12) (fun w q => writeG q rv (w.setWidth 64)) [9])) ∧
    (va.toNat % 4 ≠ 0 → Raises lc s u (.sdc lc rd rv x12) (encS 0x39 rd rv 0 x12) 3 0 2 va c.pc ∧
      Raises lc s u (.sdcRd lc rd rv x12) (encS 0x39 rd rv 1 x12) 3 0 1 va c.pc)

/-- `ENQ` and `ENQT` outside a group take a send slot of the core and release the letter register to it, ST_OK in gd; with 16 slots in use `ENQ` waits
and `ENQT` reports ST_BUSY (13 R328, R329). `DEQ` and `DEQT` are loads with two destinations held until the commit (R330, R331). `QSTAT` reports
the queue's state and count (R332); what another device's pipeline answers is a free value (log entry 23). With the vector unit off a letter
register is refused with EXC_QUEUE, REASON 16 (R324), and a posting address that is not page-aligned raises EXC_ALIGN. -/
def Obligations.QueueInstructionsPostAndConsume : Prop :=
  ∀ (lc : LC) (s u : State) (rd rv gt : GReg) (p : Posting), Issues lc s u →
    let c := coreOf u lc.val
    let r := c.regs
    let x12 : BitVec 12 := BitVec.ofNat 12 (gt.val * 128)
    let va := readG r gt
    let posts (i : Instr) : Prop := Completes i s fun t =>
      Ran lc { u with office := t.office } t (c.pc + 4) (WroteG rd 0 { r.flags with z := true }) ∧
      sendersOf t lc.val = sendersOf u lc.val ++
        [{ dest := BitVec.ofNat 32 (slotDev u p.slot * 65536 + p.queue), released := true, tc := p.tc,
           letter := { data := readV r rv, postmark := u.time.now, via := some (p.queue % 65536) } }] ∧
      (∀ n, n ≠ lc.val → sendersOf t n = sendersOf u n) ∧ { t.office with senders := u.office.senders } = u.office
    let consumes (i : Instr) (isTry : Bool) : Prop := Completes i s fun t =>
      ∃ g, CoreNow lc u t { c with pc := c.pc + 4, group := some g, shadows :=
          [{ left := 3, dest := .gen rd, value := .deferred 0 }, { left := 3, dest := .vec rv, value := .deferred 1 }] } ∧
        g.firstPc = c.pc ∧ g.snap = r ∧ g.members = 1 ∧ g.closed = false ∧ g.held = [.deq 0 1 p.slot p.queue isTry]
    (VectorOn r → p.ads = [] →
      (postingPage lc wantEnq true va u = (.ok p, u) → (∀ x ∈ sendersOf u lc.val, x.released = true) →
        ((sendersOf u lc.val).length < 16 → posts (.enq lc rd rv x12) ∧ posts (.enqt lc rd rv x12)) ∧
        (16 ≤ (sendersOf u lc.val).length → exec (.enq lc rd rv x12) s = .next u ∧
          Executes lc s u (.enqt lc rd rv x12) (WroteG rd 7 { r.flags with z := false }))) ∧
      (postingPage lc wantDeq true va u = (.ok p, u) → consumes (.deq lc rd rv x12) false ∧ consumes (.deqt lc rd rv x12) true)) ∧
    (postingPage lc wantQstat false va u = (.ok p, u) → p.ads = [] → p.slot = slotOf u →
      let q := queueOf u p.queue
      let gives (st : Nat) (w : Word64) : Prop := Executes lc s u (.qstat lc rd rv x12) fun old new =>
        WroteG rd (BitVec.ofNat 64 st) { old.flags with z := decide (st = 0) } (writeG old rv w) new
      let code (x : QState) : Nat := match x with
        | .free => 0
        | .active => 1
        | .draining => 2
        | .fenced => 3
      (sopDown u (p.queue % 8) = true → gives 9 0) ∧
      (sopDown u (p.queue % 8) = false → q.state = .free → gives 1 0) ∧
      (sopDown u (p.queue % 8) = false → q.state ≠ .free → qCount q < 2 ^ 32 → ∃ w : Word64, gives 0 w ∧
        fld w 63 61 = code q.state ∧ fld w 60 59 = qKind q ∧ w.getLsbD 58 = q.spill ∧ w.getLsbD 57 = decide (0 < q.oldLeft) ∧
        w.getLsbD 56 = q.lease.isSome ∧ w.getLsbD 55 = decide (q.lease = some lc.val) ∧ fld w 31 0 = qCount q)) ∧
    (postingPage lc wantQstat false va u = (.ok p, u) → p.ads = [] → p.slot ≠ slotOf u → Completes (.qstat lc rd rv x12) s fun t =>
      ∃ (st n : Nat) (w : Word64), st ∈ [0, 9, 1] ∧ (st ≠ 0 → w = 0) ∧ fld w 54 32 = 0 ∧
        WroteG rd (BitVec.ofNat 64 st) { r.flags with z := decide (st = 0) } (writeG r rv w) (coreOf t lc.val).regs ∧
        CoreNow lc { u with fresh := n } t { c with pc := c.pc + 4, regs := (coreOf t lc.val).regs }) ∧
    let off (i : Instr) (w : Want) (sfn : Nat) : Prop := ∀ a : Xlat, ¬VectorOn r → va.toNat % 4096 = 0 → translate lc.val w va u = (.ok a, u) →
      Raises lc s u i (encS 0x3B rd rv sfn x12) 14 16 3 va c.pc
    off (.enq lc rd rv x12) wantEnq 0 ∧ off (.enqt lc rd rv x12) wantEnq 1 ∧ off (.deq lc rd rv x12) wantDeq 2 ∧ off (.deqt lc rd rv x12) wantDeq 3 ∧
    (va.toNat % 4096 ≠ 0 → ∀ e ∈ ([(.enq lc rd rv x12, 0), (.enqt lc rd rv x12, 1), (.deq lc rd rv x12, 2), (.deqt lc rd rv x12, 3),
      (.qstat lc rd rv x12, 4)] : List (Instr × Nat)), Raises lc s u e.1 (encS 0x3B rd rv e.2 x12) 3 0 3 va c.pc)

/-! ### Control space (02) -/

/-- A checked write (02 R35 to R41, R46): the code reported is the first of the order of checks, and a refused write changes nothing; an accepted write
of a register without an effect of its own puts its LIVE bits in force, shadows its PERIOD bits and joins the ledger. One bit is written through its
own word (R52); the staging view stages PERIOD bits (R48); a write for which the ledger finds no room answers ST_BUSY (R56), a `_HI` write among them
discarding its writer's held low half (R35); in mode OFF nothing answers (01 R34). -/
def Obligations.RegisterWritesTakeEffectOrAreRefused : Prop :=
  (∀ cs : List Nat, (∀ x ∈ cs, x < 16) →
    let order := [2, 1, 15, 14, 9, 8, 5, 4, 10, 3, 6, 13, 7, 12, 11]
    (firstCode cs = 0 ↔ ∀ x ∈ cs, x = 0) ∧
    (firstCode cs ≠ 0 → firstCode cs ∈ cs ∧ ∀ x ∈ cs, x ≠ 0 → order.idxOf (firstCode cs) ≤ order.idxOf x)) ∧
  (∀ (w : Writer) (off : BitVec 36) (v : Word32) (s : State) (d : RegDesc) (ix : List Nat), off.toNat < 0x40000000 →
    findReg off.toNat = some (d, ix) → d.half = .single → s.power.mode ≠ .off →
    let o := off.toNat
    let old := curWord w d ix o s
    let code := firstCode ([earlyChecks w d o s] ++ lateChecks d ix o old v (BitVec.allOnes 32) s ++ if ledgerFull s o then [7] else [])
    (writerLevel s w < needLevel s d o true → Refuses (.registerWrite w off v) s 2) ∧
    (d.acc = .ro ∨ d.acc = .rc → needLevel s d o true ≤ writerLevel s w → Refuses (.registerWrite w off v) s 1) ∧
    (d.acc = .wo → earlyChecks w d o s ≠ 0 → Refuses (.registerWrite w off v) s (earlyChecks w d o s)) ∧
    (d.acc = .rw ∨ d.acc = .rwl → code ≠ 0 → Refuses (.registerWrite w off v) s code) ∧
    (d.acc = .rw ∨ d.acc = .rwl → code = 0 →
      d.name ∉ [.pwrLimitCeil, .padGpioCfg, .padUartIen, .tmrRun, .tmrSyncCfg, .tmrTCfg, .tmrTIen, .frkPeriod, .frkTc0Ceil, .frkShare, .frkTc0Slots,
        .frkResW0, .frkResW1, .frkResW2, .frkBudW0, .frkBudW1, .soQstage, .soDlrTail, .vxRtMem, .vxRtGrp] →
      Commands (.registerWrite w off v) w o v s fun u => reg u o = v ∧ (∀ p, p ≠ o → reg u p = reg s p ∧ regAct u p = regAct s p) ∧
        (d.period ≠ 0 → ∀ b, b < 32 → (regAct u o).getLsbD b = if d.period.testBit b then (regAct s o).getLsbD b else v.getLsbD b) ∧
        u.live = (if d.name = .sysBootPolicy then { s.live with orderSet := true } else s.live) ∧
        { u with live := s.live, ctl := { u.ctl with regs := s.ctl.regs, active := s.ctl.active } } = s)) ∧
  (∀ (w : Writer) (off : BitVec 36) (v : Word32) (s : State), off.toNat < 0x40000000 → findReg off.toNat = none → s.power.mode ≠ .off →
    Refuses (.registerWrite w off v) s (if writerLevel s w < blockLevel off.toNat true then 2 else 1)) ∧
  (∀ (w : Writer) (off : BitVec 30) (b : Fin 32) (v : Word32) (s : State) (d : RegDesc) (ix : List Nat),
    let o := off.toNat / 4 * 4
    findReg o = some (d, ix) → d.half = .single → d.acc = .rw ∨ d.acc = .rwl → s.power.mode ≠ .off → ledgerFull s o = false →
    d.name = .sysBootPolicy ∨ d.name = .pwrIdleCfg ∨ d.name = .icTset ∨ d.name = .padMbxOut →
    earlyChecks w d o s = 0 →
    let old := reg s o
    let new : Word32 := if v = 0 then old &&& ~~~(1#32 <<< b.val) else old ||| (1#32 <<< b.val)
    (1 < v.toNat → Refuses (.bitAliasWrite w off b v) s 4) ∧
    (v.toNat ≤ 1 → (∀ c ∈ lateChecks d ix o old new (BitVec.ofNat 32 (2 ^ b.val)) s, c = 0) →
      Commands (.bitAliasWrite w off b v) w o new s fun u => reg u o = new ∧ (∀ p, p ≠ o → reg u p = reg s p))) ∧
  (∀ (w : Writer) (off : BitVec 30) (v : Word32) (s : State) (d : RegDesc) (ix : List Nat), findReg off.toNat = some (d, ix) →
    let o := off.toNat
    let base := (smGet optDef s.ctl.staged o).getD (reg s o)
    (Reaches w (needLevel s d o true) d.dbgW o s → d.acc = .rw → (v &&& ~~~(BitVec.ofNat 32 d.bits)) = 0 → unboundReg s d ix = false →
      (d.period = 0 → Refuses (.stageWrite w off v) s 10) ∧
      (d.period ≠ 0 → (∀ c ∈ stageCodes d ix o (periodMerge o base v) s, c = 0) →
        (s.ctl.inFlight = true → Refuses (.stageWrite w off v) s 13) ∧
        (s.ctl.inFlight = false → Commands (.stageWrite w off v) w o v s fun u => ∃ x, smGet optDef u.ctl.staged o = some x ∧
          (∀ b, b < 32 → x.getLsbD b = if d.period.testBit b then v.getLsbD b else base.getLsbD b) ∧
          (∀ p, p ≠ o → smGet optDef u.ctl.staged p = smGet optDef s.ctl.staged p) ∧
          { u with ctl := { u.ctl with staged := s.ctl.staged } } = s)))) ∧
  (∀ (w : Writer) (off : BitVec 36) (v : Word32) (s : State), s.power.mode ≠ .off →
    let st := (ctlWrite w off.toNat v s).1
    (pairHalf off.toNat = .lo → exec (.ledgerFullTimeout w off v) s = exec (.registerWrite w off v) s) ∧
    (pairHalf off.toNat ≠ .lo → Completes (.ledgerFullTimeout w off v) s fun t => { t with ans := s.ans } = { dropHigh w off.toNat s with ans := s.ans } ∧
      t.ans = { status := if st ∈ [0, 11, 12] then 7 else st })) ∧
  (∀ (w : Writer) (off k : Nat) (v x : Word32) (s : State) (d : RegDesc) (ix : List Nat), findReg off = some (d, ix) → d.half = .hi → d.acc ≠ .ro →
    k = regKey w d (off - 4) → (w, k, x) ∈ s.ctl.heldLo → ∀ e, e ∈ (dropHigh w off s).ctl.heldLo ↔ e ∈ s.ctl.heldLo ∧ ¬(e.1 = w ∧ e.2.1 = k)) ∧
  ∀ (w : Writer) (off : BitVec 36) (off' : BitVec 30) (b : Fin 32) (v : Word32) (s : State), s.power.mode = .off →
    ∀ i ∈ ([.registerWrite w off v, .stageWrite w off' v, .bitAliasWrite w off' b v, .ledgerFullTimeout w off v] : List Instr), exec i s = .next s

/-- Epochs (02 R47 to R51): a commit moves every staged value to the committed shadow, advances the number, is sent to every joined device (10 R267)
and is in flight until each block has met its franking-period boundary and each joined device has switched; at its boundary a block's committed values
become its configuration, the values in force before are kept until the commit is over (02 R51), and its shadowed values come into force; a discard
drops what is staged. At the boundary of a kind its meters and the counts of its resources start afresh; at the switch of the FRK block those of every
kind do, and a kind whose period changed runs an interval up to the first multiple of its new period (12 R300, R301). -/
def Obligations.EpochsCommitAtPeriodBoundaries : Prop :=
  (∀ (w : Writer) (s : State), Reaches w 1 0 0x24 s → Reaches w 1 0 0x28 s →
    let joined := (List.range 4).filter fun d => s.links.peers.getLsbD d && d != slotOf s
    let e := (s.ctl.epoch + 1) % 65536
    (s.ctl.inFlight = false → s.live.patchMode = false → (∀ p, p < 8 → (port s p).join.state ≠ .joining) → Commands (.sysEpochCommit w 1) w 0x24 1 s
      fun u => u = { s with
        ctl := { s.ctl with committed := s.ctl.staged, staged := [], epoch := e, inFlight := true, unswitched := List.range 9 ++ joined.map (9 + ·) }
        links := { s.links with
          cohOut := s.links.cohOut ++ joined.map fun d => { slot := d, kind := .epoch, line := e, tc := 1, data := none } } }) ∧
    (s.ctl.inFlight = true ∨ s.live.patchMode = true ∨ (∃ p, p < 8 ∧ (port s p).join.state = .joining) → Refuses (.sysEpochCommit w 1) s 7) ∧
    (s.ctl.inFlight = false → Commands (.sysEpochDiscard w 1) w 0x28 1 s fun u => u = { s with ctl := { s.ctl with staged := [] } }) ∧
    (s.ctl.inFlight = true → Refuses (.sysEpochDiscard w 1) s 13) ∧
    Refuses (.sysEpochCommit w 2) s 4) ∧
  ∀ (kind : Fin 13) (s : State), smWf optDef s.ctl.committed = true →
    Completes (.frankingPeriodBoundary kind) s fun t =>
    let now := s.ctl.inFlight && s.ctl.unswitched.contains kind.val
    let left := s.ctl.unswitched.erase kind.val
    let off (o : Nat) : Prop := o < 2 ^ 36 ∧ blockKind o = kind.val
    (∀ o, off o → regAct t o = reg t o ∧
      reg t o = match smGet optDef s.ctl.committed o with
        | some v => if now then periodMerge o (reg s o) v else reg s o
        | none => reg s o) ∧
    (∀ o, o < 2 ^ 36 → blockKind o ≠ kind.val → reg t o = reg s o ∧ regAct t o = regAct s o) ∧
    (kind.val < 8 →
      (∀ m c, smGet zeroNat t.frk.spent (4 * m + c % 4) = if meterKind m = kind.val then 0 else smGet zeroNat s.frk.spent (4 * m + c % 4)) ∧
      (∀ k c, smGet zeroNat t.frk.served (4 * k + c % 4) = if resKind k = kind.val then 0 else smGet zeroNat s.frk.served (4 * k + c % 4)) ∧
      intervalNs t kind.val = periodNs t kind.val) ∧
    (kind.val = 8 → (∀ m, smGet zeroNat t.frk.spent m = 0 ∧ smGet zeroNat t.frk.served m = 0) ∧ ∀ k, k < 8 →
      let r := (periodNs t k - nowNs s % periodNs t k) % periodNs t k
      intervalNs t k = if periodNs t k = periodNs s k ∨ r = 0 then periodNs t k else r) ∧
    (9 ≤ kind.val → t.frk = s.frk) ∧
    (now = true → t.ctl.unswitched = left ∧ t.ctl.inFlight = !left.isEmpty ∧ (left = [] → t.ctl.oldActive = []) ∧
      (left ≠ [] → ∀ o, off o → (smGet optDef s.ctl.committed o).isSome = true → smGet optDef t.ctl.oldActive o = some (regAct s o))) ∧
    (now = false → t.ctl.unswitched = s.ctl.unswitched ∧ t.ctl.inFlight = s.ctl.inFlight ∧ t.ctl.oldActive = s.ctl.oldActive) ∧
    t.ctl.staged = s.ctl.staged ∧ t.ctl.epoch = s.ctl.epoch ∧ SameBytes s t ∧ ∀ n, (coreOf t n).pc = (coreOf s n).pc

/-- Snapshots copy every counter of a block, or of all blocks whose bridge answers, into its holding register and count themselves; a block that the
other kind has captured since the last rind-clock edge is not captured again (02 R53, R54); a lock holds until the next boot (R57); a parity mismatch
is recorded once and its register restored from the ledger, or fenced with the unit that holds it (R55). -/
def Obligations.SnapshotsLocksAndParity : Prop :=
  (∀ (w : Writer) (n : Fin 289) (s : State), (n.val < 287 → Reaches w 1 0 (snapOffs.getD n.val 0) s) → (287 ≤ n.val → Reaches w 2 0 (snapOffs.getD n.val 0) s) →
    let o := snapOffs.getD n.val 0
    let mine (c : Nat) : Prop := (blockRange o).1 ≤ c ∧ c < (blockRange o).1 + (blockRange o).2
    let taken : Prop := (o, true) ∈ s.ctl.edgeSnaps
    (n.val = 286 → ∃ lc, w = .core lc) → smWf cnt0 s.ctl.counters = true → Commands (.blockSnap w n 1) w o 1 s fun u =>
      (∀ c, mine c → ¬taken → smGet cnt0 u.ctl.holding c = smGet cnt0 s.ctl.counters c) ∧
      (∀ c, ¬mine c ∨ taken → smGet cnt0 u.ctl.holding c = smGet cnt0 s.ctl.holding c) ∧
      (∀ c, ¬taken → smGet seq0 u.ctl.snapSeq c = if c = o + 4 then smGet seq0 s.ctl.snapSeq c + 1 else smGet seq0 s.ctl.snapSeq c) ∧
      (taken → u.ctl.snapSeq = s.ctl.snapSeq) ∧ u.ctl.edgeSnaps = (o, false) :: s.ctl.edgeSnaps ∧ (o ≠ tmrReg 0x10 → u.time = s.time) ∧
      { u with time := s.time, ctl := { u.ctl with holding := s.ctl.holding, snapSeq := s.ctl.snapSeq, edgeSnaps := s.ctl.edgeSnaps } } = s) ∧
  (∀ (w : Writer) (s : State), Reaches w 1 0 0x30 s → smWf cnt0 s.ctl.counters = true → Completes (.sysSnapAll w 1) s fun t =>
    let kept (o : Nat) : Prop := bridgeSilent s o = true ∨ (o, false) ∈ s.ctl.edgeSnaps
    t.ans.status = (if snapOffs.any (bridgeSilent s) then 9 else 0) ∧ t.ctl.snapAll = s.ctl.snapAll + 1 ∧
    (∀ o ∈ snapOffs, ∀ c, (blockRange o).1 ≤ c → c < (blockRange o).1 + (blockRange o).2 →
      (¬kept o → smGet cnt0 t.ctl.holding c = smGet cnt0 s.ctl.counters c) ∧ (kept o → smGet cnt0 t.ctl.holding c = smGet cnt0 s.ctl.holding c)) ∧
    (∀ o ∈ snapOffs, bridgeSilent s o = false → (o, true) ∈ t.ctl.edgeSnaps) ∧ t.ctl.counters = s.ctl.counters ∧ SameBytes s t ∧ t.cores = s.cores) ∧
  (∀ (w : Writer) (v : Word32) (s : State), Reaches w 2 0 0x40 s → s.ctl.badParity = [] → v.toNat < 64 →
    Commands (.sysLockSet w v) w 0x40 v s fun u => u = { s with ctl := { s.ctl with locks := v.setWidth 6 } }) ∧
  (∀ (w : Writer) (v : Word32) (s : State), s.power.mode ≠ .off → writerLevel s w < 2 → Refuses (.sysLockSet w v) s 2) ∧
  (∀ (o : BitVec 30) (s : State), hasParity o.toNat = true → s.ctl.badParity.contains o.toNat = false →
    Completes (.cfgParitySweep [o]) s fun t => t.ctl.badParity = o.toNat :: s.ctl.badParity ∧ t.ctl.regs = s.ctl.regs ∧ SameBytes s t ∧ t.cores = s.cores ∧
      ∃ e rest, t.resil.log = e :: rest ∧ e.record.take 2 = bytesOfNat 0xB 2) ∧
  (∀ (o : BitVec 30) (s : State), hasParity o.toNat = false ∨ s.ctl.badParity.contains o.toNat = true → exec (.cfgParitySweep [o]) s = .next s) ∧
  ∀ (o : BitVec 30) (s : State),
    (s.ctl.badParity.contains o.toNat = true →
      (∀ d ix, findReg o.toNat = some (d, ix) → Completes (.cfgParityRestore o true) s fun t =>
        let v := restored s o.toNat
        t.ctl.badParity = s.ctl.badParity.erase o.toNat ∧ (∃ e rest, t.ctl.ledger = e :: rest ∧ e.kind = 3 ∧ e.offset = o.toNat ∧ e.value = v) ∧
        (d.name ≠ .tmrTCnt → d.bank = false → reg t o.toNat = v ∧ t.time = s.time ∧
          (d.period ≠ 0 → ∀ b, b < 32 → (regAct t o.toNat).getLsbD b = if d.period.testBit b then (regAct s o.toNat).getLsbD b else v.getLsbD b)) ∧
        (d.name = .tmrTCnt → ∀ b, b < 32 → (timer t (ix.getD 0 0)).cnt.getLsbD (b + if d.half = .hi then 32 else 0) = v.getLsbD b) ∧
        (d.bank = true → d.name ≠ .tmrTCnt → ∀ e ∈ s.ctl.regs, 2 ^ 36 ≤ e.1 → (e.1 - 2 ^ 36) / 1024 = o.toNat → keyReg t e.1 = v) ∧
        (∀ p, p < 2 ^ 36 → p ≠ o.toNat → reg t p = reg s p ∧ regAct t p = regAct s p) ∧
        { t with time := s.time, ctl := { t.ctl with regs := s.ctl.regs, active := s.ctl.active, ledger := s.ctl.ledger, badParity := s.ctl.badParity } } = s) ∧
      (blockUnit o.toNat = none → Completes (.cfgParityRestore o false) s fun t =>
        o.toNat ∈ t.ctl.fencedRegs ∧ { t with ctl := { t.ctl with fencedRegs := s.ctl.fencedRegs } } = s) ∧
      (∀ u, blockUnit o.toNat = some u → isFenced s u = false → Completes (.cfgParityRestore o false) s fun t =>
        o.toNat ∈ t.ctl.fencedRegs ∧ (∃ e ∈ t.resil.log, e.record.take 2 = bytesOfNat 0x500 2) ∧ t.ctl.badParity = s.ctl.badParity ∧
        (0x1000000 ≤ o.toNat → o.toNat < 0x2000000 → isFenced t u = true ∧ (slice t ((o.toNat - 0x1000000) / 0x10000)).fenced = true))) ∧
    (s.ctl.badParity.contains o.toNat = false → ∀ ok, exec (.cfgParityRestore o ok) s = .next s)

/-! ### Coherence (10) -/

/-- A request at its home (10 R250 to R254, R260): with copies elsewhere it waits, having sent the snoops of the table of home actions to L2s and to
other devices; with none it is served at once: the grant and the directory entry of a cached copy, the bytes of a write, the old value and the result
of a far atomic. One that finds another request for its line in progress waits (R258); what is no backed memory has no home (R247); another device is
served while it is joined (R263). Line maintenance cleans the line, or leaves it in no cache (09 R246). -/
def Obligations.HomesServeRequests : Prop :=
  ∀ (s : State) (line pc e off : Nat) (tc : BitVec 2) (v : Vec) (bs : List Byte) (gs gt : Word64) (o : Fin 64), HomeIdle s line →
    let h := homeOf s line
    let d := dirOf s h line
    let r : Asker := { who := .l2 pc, tc := tc }
    let a : Asker := { who := .agent, tc := tc }
    let others (x : Asker) : List (Nat × SnoopKind) :=
      ((groupPcs d.sharers ++ ((List.range 4).filter fun e => d.devs.getLsbD e).map (600 + ·)).filter fun p =>
        decide (p ≠ holderNum x.who ∧ d.owner ≠ some p)).map fun p => (p, .inv)
    let own (x : Asker) (k : SnoopKind) : List (Nat × SnoopKind) := match d.owner with
      | some p => if p = holderNum x.who then [] else [(p, k)]
      | none => []
    let waits (i : Instr) (k : ReqKind) (x : Asker) (b : ReqData) (sn : List (Nat × SnoopKind)) : Prop := sn ≠ [] → Completes i s fun t =>
      t.mem.homeQ = s.mem.homeQ ++ [{ kind := k, req := x.who, line := line, body := { b with tc := x.tc }, served := true, pending := sn,
                                      since := nowNs s }] ∧
      t.mem.grants = s.mem.grants ∧ SameBytes s t ∧
      ((∀ y ∈ sn, y.1 < 600) → { t with ctl := { t.ctl with counters := s.ctl.counters }, mem := { t.mem with homeQ := s.mem.homeQ } } = s) ∧
      ((∀ e, joinedWith s e = []) →
        t.links.cohOut = (sn.filter fun y => decide (600 ≤ y.1) && s.links.peers.getLsbD (y.1 - 600)).map (fun y =>
          { slot := y.1 - 600, kind := .snoop y.2, line := line, tc := 0, data := none }) ∧
        { t with ctl := { t.ctl with counters := s.ctl.counters }, mem := { t.mem with homeQ := s.mem.homeQ }, links := s.links } = s)
    let pw : ReqData := { off := o.val, bytes := bs }
    let fa (op : Fin 10) (wide : Bool) : ReqData := { off := o.val, op := op.val, wide := wide, gs := gs, gt := gt }
    (mayRequest s pc line = true →
      (l2Copy s pc line = none → waits (.rs r line) .rs r {} (own r .shared) ∧ waits (.ru r line) .ru r {} (own r .unique ++ others r)) ∧
      (∀ x, l2Copy s pc line = some x → (x.2.st = .s ∨ x.2.st = .o) → waits (.upg r line) .upg r {} (own r .inv ++ others r))) ∧
    (∀ x : Asker, x.who = .agent ∨ (∃ e, x.who = .dev e ∧ s.links.peers.getLsbD e = true) →
      waits (.rnc x line) .rnc x {} (own x .read) ∧
      waits (.fw x line v) .fw x { bytes := bytesOf v 64 } (own x .inv ++ others x) ∧
      waits (.pw x line o bs) .pw x pw (own x .unique ++ others x) ∧
      ∀ op wide, waits (.famo x line o op wide gs gt) .famo x (fa op wide) (own x .unique ++ others x)) ∧
    (let x : Asker := { who := .dev e, tc := tc }
     s.links.peers.getLsbD e = true → waits (.rs x line) .rs x {} (own x .shared) ∧ waits (.ru x line) .ru x {} (own x .unique ++ others x) ∧
      waits (.upg x line) .upg x {} ((if d.devs.getLsbD e then own x .inv else own x .unique) ++ others x)) ∧
    waits (.cmoc line) .cmoc { who := .agent } {} (own { who := .agent } .clean) ∧
    waits (.cmoi line) .cmoi { who := .agent } {} (own { who := .agent } .unique ++ others { who := .agent }) ∧
    (let x : Asker := { who := .dev e, tc := tc }
     s.links.peers.getLsbD e = false → (∀ p, p < 8 → ¬(portUp s p = true ∧ (port s p).peerValid = true ∧ (port s p).peerSlot = e)) →
      ∀ i ∈ ([.rs x line, .ru x line, .upg x line, .rnc x line, .fw x line v, .pw x line o bs, .famo x line o 1 true gs gt] : List Instr),
        exec i s = .next s) ∧
    (∀ l, isMemory (64 * l) = false ∨ backed s (64 * l) = false →
      ∀ i ∈ ([.rs r l, .ru r l, .upg r l, .rnc a l, .fw a l v, .pw a l o bs, .famo a l o 1 true gs gt, .cmoc l, .cmoi l] : List Instr),
        exec i s = .next s) ∧
    (∀ l, isMemory (64 * l) = true → backed s (64 * l) = true → islandSilent s (uHome (homeOf s l)) = false →
      (∃ q ∈ s.mem.homeQ, q.line = l ∧ q.served = true) →
      exec (.fw a l v) s = .next { s with mem := { s.mem with homeQ := s.mem.homeQ ++
        [{ kind := .fw, req := .agent, line := l, body := { bytes := bytesOf v 64, tc := tc } }] } } ∧
      exec (.cmoi l) s = .next { s with mem := { s.mem with homeQ := s.mem.homeQ ++ [{ kind := .cmoi, req := .agent, line := l }] } }) ∧
    (findDir s h line = none → (∃ i, i < 18 ∧ smGet optDef (slice s h).dir (l3Set line * 18 + i) = none) →
      -- the memory that stands where the slice holds a content of its own (09 R236)
      let held := exposeStale line (l3Stale s h line) s
      let cleaned : State := if (l3Copy s h line).any fun x => x.2.dirty then held else s
      let quiet (b t : State) : Prop := { t with ans := b.ans, ctl := { t.ctl with counters := b.ctl.counters },
                                                 mem := { t.mem with slices := b.mem.slices, grants := b.mem.grants } } = b
      let grants (i : Instr) (st : LineState) : Prop := Completes i s fun t => quiet s t ∧
        (∃ g, t.mem.grants = s.mem.grants ++ [g] ∧ g.pc = pc ∧ g.line = line ∧ g.st = st) ∧
        dirOf t h line = { line := line, owner := some pc, sharers := groupBit pc, devs := 0, proxy := false }
      let remote (i : Instr) (k : ReqKind) : Prop := Completes i s fun t => t.mem.grants = s.mem.grants ∧ SameBytes s t ∧
        dirOf t h line = { line := line, owner := some (600 + e), sharers := 0, devs := BitVec.ofNat 4 (2 ^ e), proxy := false } ∧
        ((∀ e, joinedWith s e = []) →
          t.links.cohOut = [{ slot := e, kind := .grant k, line := line, tc := tc, data := if k = .upg then none else some (readLine s line) }])
      (mayRequest s pc line = true →
        (l2Copy s pc line = none → grants (.rs r line) .e ∧ grants (.ru r line) .m) ∧
        (∀ x, l2Copy s pc line = some x → (x.2.st = .s ∨ x.2.st = .o) → grants (.upg r line) .m)) ∧
      (e < 4 → s.links.peers.getLsbD e = true → remote (.rs { who := .dev e, tc := tc } line) .rs ∧ remote (.ru { who := .dev e, tc := tc } line) .ru ∧
        remote (.upg { who := .dev e, tc := tc } line) .upg) ∧
      (Completes (.rnc a line) s fun t => quiet s t ∧ t.mem.grants = s.mem.grants ∧ findDir t h line = none) ∧
      (Completes (.fw a line v) s fun t => HoldsBytes t (64 * line) 64 v.toNat ∧ SameBytesBut (64 * line) 64 s t ∧
        poisoned t line = false ∧ findDir t h line = none ∧ l3Copy t h line = none) ∧
      (o.val + bs.length ≤ 64 → Completes (.pw a line o bs) s fun t => (∀ i, i < bs.length → readByte t (64 * line + o.val + i) = bs.getD i 0) ∧
        SameBytesBut (64 * line + o.val) bs.length held t ∧ findDir t h line = none ∧ l3Copy t h line = none) ∧
      (∀ op : Fin 10,
        (Completes (.famo a line o op true gs gt) s fun t =>
          let old := BitVec.ofNat 64 (readNat held (64 * line + o.val) 8)
          t.ans.value = old ∧ HoldsBytes t (64 * line + o.val) 8 (amoOp (amoCode op.val) old gs gt).toNat ∧
          SameBytesBut (64 * line + o.val) 8 held t) ∧
        Completes (.famo a line o op false gs gt) s fun t =>
          let old := BitVec.ofNat 32 (readNat held (64 * line + o.val) 4)
          t.ans.value = old.setWidth 64 ∧ HoldsBytes t (64 * line + o.val) 4 (amoOp (amoCode op.val) old (gs.setWidth 32) (gt.setWidth 32)).toNat ∧
          SameBytesBut (64 * line + o.val) 4 held t) ∧
      (Completes (.cmoc line) s fun t => quiet cleaned t ∧ ∀ x, l3Copy t h line = some x → x.2.dirty = false) ∧
      (Completes (.cmoi line) s fun t => quiet s t ∧ l3Copy t h line = none ∧ findDir t h line = none)) ∧
    ∀ (w : Writer) (n : Fin 256), Reaches w 1 0 (hnOff n.val 0x8018) s →
      let addr := (keyReg s (bankKey (hnOff n.val 0x8014) (writerKey w))).toNat * 2 ^ 32 + (keyReg s (bankKey (hnOff n.val 0x8010) (writerKey w))).toNat
      (isMemory (64 * (addr / 64)) = false ∨ backed s (64 * (addr / 64)) = false → Refuses (.hnCmoClean w n) s 3 ∧ Refuses (.hnCmoInvalidate w n) s 3) ∧
      (addr = 64 * line + off → off < 64 → findDir s h line = none → (∀ x, l3Copy s h line = some x → x.2.dirty = true → x.2.stale = none) →
        (Commands (.hnCmoClean w n) w (hnOff n.val 0x8018) 1 s fun u => SameBytes s u ∧ ∀ x, l3Copy u h line = some x → x.2.dirty = false) ∧
        Commands (.hnCmoInvalidate w n) w (hnOff n.val 0x8018) 2 s fun u => SameBytes s u ∧ l3Copy u h line = none ∧
          ∀ p, findLine (priv u p).l2 line = none ∧ findLine (priv u p).l1d line = none ∧ findLine (priv u p).l1i line = none)

/-- The L2's side (10 R251, R252, R259, R261): a snoop is answered once, the copy changing as the table of snoops says, a grant on its way or an entry
of the transit buffer answering for its line; the last answer ends the request; a grant installs its line; an evicted line stays in the transit buffer
until its WB or EVC has been served, which takes a recorded owner out of the directory (R260); a missing answer is recorded. -/
def Obligations.CachesAnswerSnoopsAndEvict : Prop :=
  (∀ (s : State) (pc line : Nat), (∀ a ∈ s.mem.answers, ¬(a.pc = pc ∧ a.line = line)) → pc < 600 → s.links.cohOut = [] →
    -- the home of the line here has sent the snoop, or the home on another device by way of the proxy entry (R263)
    let asked (k : SnoopKind) : Prop := (∃ q ∈ s.mem.homeQ, q.line = line ∧ q.served = true ∧ (pc, k) ∈ q.pending) ∨
      (∃ d, remoteSlot s line = some d ∧ s.links.peers.getLsbD d = true ∧ ∀ q ∈ s.mem.homeQ, ¬(q.line = line ∧ q.served = true))
    let answers (i : Instr) (k : SnoopKind) (st : LineState) (stale : Option Vec) (evicting dirty data : Bool) (E : State → Prop) : Prop :=
      asked k → Completes i s fun t =>
        let base := if dirty && !evicting then exposeStale line stale s else s
        t.mem.answers = s.mem.answers ++ [{ pc := pc, line := line, had := true, dirty := dirty, evicting := evicting, data := data }] ∧ E t ∧
        { t with mem := { t.mem with answers := s.mem.answers, priv := s.mem.priv, grants := s.mem.grants }
                 power := { t.power with islands := s.power.islands } } = base
    let table (st : LineState) (stale : Option Vec) (evicting : Bool) (E : Option LineState → State → Prop) : Prop :=
      let newer := decide (st = .m ∨ st = .o)
      let most := decide (st ≠ .s)
      answers (.snpshared pc line) .shared st stale evicting newer most (E (some (if newer then .o else .s))) ∧
      answers (.snpunique pc line) .unique st stale evicting newer most (E none) ∧
      answers (.snpinv pc line) .inv st stale evicting false false (E none) ∧
      answers (.snpread pc line) .read st stale evicting newer most (E (some st)) ∧
      answers (.snpclean pc line) .clean st stale evicting newer newer (E (some (if st = .m then .e else if st = .o then .s else st)))
    (∀ slot l, grantOf s pc line = none → l2Copy s pc line = some (slot, l) → smWf optDef (priv s pc).l2 = true →
      (∀ x ∈ (priv s pc).l2, x.1 ≠ slot → ∀ y, x.2 = some y → y.line ≠ line) →
      table l.st l.stale false fun left t => (l2Copy t pc line).map (fun x => x.2.st) = left ∧ t.mem.grants = s.mem.grants) ∧
    (∀ g, grantOf s pc line = some g → (∀ x ∈ s.mem.grants.erase g, ¬(x.pc = pc ∧ x.line = line)) →
      table g.st g.stale false fun left t => (grantOf t pc line).map (fun x => x.st) = left) ∧
    (∀ x, grantOf s pc line = none → l2Copy s pc line = none → transitOf s pc line = some x →
      table x.st none true fun _ t => t.mem.priv = s.mem.priv ∧ t.mem.grants = s.mem.grants) ∧
    (grantOf s pc line = none → l2Copy s pc line = none → transitOf s pc line = none → asked .inv → Completes (.snpinv pc line) s fun t =>
      t.mem.answers = s.mem.answers ++ [{ pc := pc, line := line, had := false, dirty := false, evicting := false }] ∧
      { t with mem := { t.mem with answers := s.mem.answers }, power := { t.power with islands := s.power.islands } } = s)) ∧
  (∀ (s : State) (pc line : Nat) (a : SnoopAnswer) (q : HomeReq) (rest : List HomeReq) (r : Nat), s.mem.homeQ = q :: rest → q.line = line → q.served = true →
    (∀ x ∈ rest, x.line ≠ line) → s.mem.answers = [a] → a.pc = pc → a.line = line → a.evicting = false →
    let h := homeOf s line
    let left := q.pending.filter (fun p => p.1 != pc)
    (left ≠ [] → Completes (.snoopAnswer pc line) s fun t => ∃ q', t.mem.homeQ = q' :: rest ∧
      q'.pending = left ∧ (q'.gotDirty = true ↔ q.gotDirty = true ∨ a.dirty = true) ∧ t.mem.answers = [] ∧ SameBytes s t) ∧
    (left = [] → q.req = .l2 r → q.kind = .ru → findDir s h line ≠ none →
      Completes (.snoopAnswer pc line) s fun t => t.mem.homeQ = rest ∧ t.mem.answers = [] ∧ (∃ g, t.mem.grants = s.mem.grants ++ [g] ∧
        g.pc = r ∧ g.line = line ∧ g.st = .m) ∧ (dirOf t h line).owner = some r ∧ SameBytes s t) ∧
    (left = [] → q.req = .agent → q.kind = .fw → q.body.bytes.length = 64 → Completes (.snoopAnswer pc line) s fun t =>
      t.mem.homeQ = rest ∧ t.mem.answers = [] ∧ t.mem.grants = s.mem.grants ∧ HoldsBytes t (64 * line) 64 (natOfBytes q.body.bytes) ∧
      SameBytesBut (64 * line) 64 s t ∧ (dirOf t h line).owner = none)) ∧
  (∀ (s : State) (g : Grant) (rest : List Grant), s.mem.grants = g :: rest → s.links.cohOut = [] →
    (∀ slot l, l2Copy s g.pc g.line = some (slot, l) → Completes (.grant g.pc g.line) s fun t => t.mem.grants = rest ∧
      smGet optDef (priv t g.pc).l2 slot = some { l with st := g.st } ∧ { t with mem := { t.mem with grants := s.mem.grants, priv := s.mem.priv } } = s) ∧
    (l2On s g.pc = true → findLine (priv s g.pc).l2 g.line = none →
      (∃ i, i < 16 ∧ (priv s g.pc).retired.getLsbD i = false ∧ (priv s g.pc).spMask.getLsbD i = false ∧
        smGet optDef (priv s g.pc).l2 (g.line % 1024 * 16 + i) = none) →
      Completes (.grant g.pc g.line) s fun t => t.mem.grants = rest ∧
        (∃ slot, l2Copy t g.pc g.line = some (slot, { line := g.line, st := g.st, stale := g.stale }) ∧ slot / 16 = g.line % 1024) ∧
        { t with mem := { t.mem with grants := s.mem.grants, priv := s.mem.priv } } = s)) ∧
  (∀ (s : State) (pc line slot e : Nat) (l : L2Line), HomeIdle s line → pc < 600 → l2Copy s pc line = some (slot, l) → transitOf s pc line = none →
    let newer := decide (l.st = .m ∨ l.st = .o)
    let gone (t : State) : Prop := l2Copy t pc line = none ∧ { line := line, st := l.st } ∈ (priv t pc).transit ∧ t.mem.homeQ = s.mem.homeQ ∧
      SameBytes (if newer then exposeStale line l.stale s else s) t
    let h := homeOf s line
    let owned := decide ((dirOf s h line).owner = some pc)
    (newer = true → (Completes (.wb pc line) s fun t => gone t ∧ (owned = true → (dirOf t h line).owner = none) ∧
      (owned = false → dirOf t h line = dirOf s h line)) ∧ exec (.evc pc line) s = .next s) ∧
    (newer = false → (Completes (.evc pc line) s fun t => gone t ∧ (owned = true → (dirOf t h line).owner = none) ∧
      (owned = false → dirOf t h line = dirOf s h line)) ∧ exec (.wb pc line) s = .next s) ∧
    (s.links.peers.getLsbD e = true → (dirOf s h line).owner = some (600 + e) →
      ∀ i ∈ ([.wb (600 + e) line, .evc (600 + e) line] : List Instr), Completes i s fun t => (dirOf t h line).owner = none ∧ SameBytes s t)) ∧
  (∀ (s : State) (pc line : Nat), s.links.cohOut = [] →
    ((∀ q ∈ s.mem.homeQ, q.line ≠ line) → Completes (.evictionAck pc line) s fun t => (∀ x ∈ (priv t pc).transit, x.line ≠ line) ∧
      (∀ x ∈ (priv s pc).transit, x.line ≠ line → x ∈ (priv t pc).transit) ∧ { t with mem := { t.mem with priv := s.mem.priv } } = s) ∧
    ((∃ q ∈ s.mem.homeQ, q.line = line ∧ q.req = .l2 pc ∧ (q.kind = .wb ∨ q.kind = .evc)) → exec (.evictionAck pc line) s = .next s)) ∧
  ∀ (s : State) (line : Nat) (q : HomeReq) (rest : List HomeReq), s.mem.homeQ = q :: rest → q.line = line → q.served = true → q.pending ≠ [] →
    q.timedOut = false → Completes (.snoopTimeout line) s fun t => t.mem.homeQ = { q with timedOut := true } :: rest ∧
      (slice t (homeOf s line)).snpWait = true ∧ (∃ e l, t.resil.log = e :: l ∧ e.record.take 2 = bytesOfNat 0xA 2) ∧ SameBytes s t

/-! ### Caches and memory controllers (09, 11) -/

/-- The commands of an L3 slice (09 R233 to R239): accepted, the command is in progress until its completion, which disables the slice with every
line valid, clean and with the content it has, enables it, empties it, or takes lines and contents out of the ways that become scratchpad; one that
finds the slice so already does nothing (R234); a second command, and any while a way is retired (R244), is refused with ST_BUSY, an invalidation of
an enabled slice with ST_RUNNING, the enabling of a removed one with ST_FENCED. -/
def Obligations.SliceCommandsStartAndComplete : Prop :=
  (∀ (w : Writer) (n : Fin 256) (s : State) (k : Nat), Reaches w 1 0 (hnOff n.val 0x8004) s →
    let o := hnOff n.val 0x8004
    let sl := slice s n.val
    let j := countOnes sl.spMask 16
    let starts (i : Instr) (op : Nat) (x : BitVec 28) : Prop := Commands i w o (BitVec.ofNat 32 (op * 2 ^ 28 + x.toNat)) s fun u =>
      slice u n.val = { sl with cmd := some { op := op, ways := x.toNat } } ∧ { u with mem := { u.mem with slices := s.mem.slices } } = s
    (sl.cmd = none → sl.retiring = none →
      (sl.enabled = true → starts (.l3Disable w n 0) 1 0) ∧ (sl.enabled = false → sl.removed = false → starts (.l3Enable w n 0) 2 0) ∧
      (sl.enabled = false → Commands (.l3Disable w n 0) w o 0x10000000 s fun u => u = s) ∧
      (sl.enabled = true → sl.removed = false → Commands (.l3Enable w n 0) w o 0x20000000 s fun u => u = s) ∧ (sl.enabled = false → starts (.l3InvalidateAll w n 0) 3 0) ∧
      (k ≤ 8 → k ≤ healthyWays sl.retired → j ≤ k → starts (.l3SetScratchpadWays w n (BitVec.ofNat 28 k)) 4 (BitVec.ofNat 28 k)) ∧
      (k < j → k ≤ 8 → k ≤ healthyWays sl.retired → Completes (.l3SetScratchpadWays w n (BitVec.ofNat 28 k)) s fun t =>
        t.ans.status = 0 ∧ countOnes (slice t n.val).spMask 16 = k ∧ (slice t n.val).cmd = some { op := 4, ways := k } ∧
        (∀ a, sliceAperture s n.val + k * 0x40000 ≤ a → a < sliceAperture s n.val + j * 0x40000 → readByte t a = 0) ∧
        ∀ a, (a < sliceAperture s n.val + k * 0x40000 ∨ sliceAperture s n.val + j * 0x40000 ≤ a) → readByte t a = readByte s a)) ∧
    (sl.enabled = true → Refuses (.l3InvalidateAll w n 0) s 6) ∧
    (sl.removed = true → Refuses (.l3Enable w n 0) s 14) ∧
    (sl.cmd ≠ none ∨ sl.retiring ≠ none → Refuses (.l3Disable w n 0) s 7) ∧ Refuses (.l3SetScratchpadWays w n 9) s 3) ∧
  ∀ (n : Fin 256) (s : State),
    let sl := slice s n.val
    let done (E : State → Slice → Prop) : Prop := Completes (.l3CommandComplete n) s fun t => E t (slice t n.val) ∧ (slice t n.val).cmd = none ∧
      ∀ m, m ≠ n.val → slice t m = slice s m
    (sl.cmd = none → exec (.l3CommandComplete n) s = .next s) ∧
    ∀ k,
      (sl.cmd = some { op := 1, ways := k } → done fun t x => x.enabled = false ∧
        (∀ slot, smGet optDef x.l3 slot = (smGet optDef sl.l3 slot).map fun l => { l with dirty := false, stale := some (l.stale.getD (readLine t l.line)) }) ∧
        ((∀ e ∈ sl.l3, ∀ l, e.2 = some l → l.dirty = true → l.stale = none) → SameBytes s t) ∧
        ∀ slot l v, sl.l3 = [(slot, some l)] → l.dirty = true → l.stale = some v → HoldsBytes t (64 * l.line) 64 v.toNat) ∧
      (sl.cmd = some { op := 2, ways := k } → done fun t x => x = { sl with cmd := none, enabled := true } ∧ SameBytes s t) ∧
      (sl.cmd = some { op := 3, ways := k } → done fun t x => x = { sl with cmd := none, l3 := [] } ∧ SameBytes s t) ∧
      (sl.cmd = some { op := 4, ways := k } →
        let j := countOnes sl.spMask 16
        let lo := sliceAperture s n.val + j * 0x40000
        done fun t x => (∀ e, e ∈ x.l3 ↔ e ∈ sl.l3 ∧ x.spMask.getLsbD (e.1 % 16) = false) ∧ (∀ i, sl.spMask.getLsbD i = true → x.spMask.getLsbD i = true) ∧
          ∀ a, readByte t a = if lo ≤ a ∧ a < lo + (k - j) * 0x40000 then 0 else readByte (flushL3 n.val x.spMask s) a)

/-- Errors in arrays (09 R242 to R245) and the keeper's cache services (R237): an uncorrectable error poisons a line whose only copy it is, a line of
scratchpad among them, and drops a clean one; an L1 line with an error is dropped and recorded; a patrol read of an L2 or a slice is counted on the
meter of its tiles (12 R299); a way that is due goes out of use and is retired, a healthy one stays; the services report, disable, enable and empty a
core's caches and set its scratchpad ways. -/
def Obligations.CacheErrorsAndCacheServices : Prop :=
  (∀ (unit way line : Nat) (s : State),
    let meter (isL3 : Bool) : Nat := if unit / (if isL3 then 32 else 72) < 4 then 538 else 539
    -- the line is one of the unit's own scratchpad
    let row : Bool := (priv s unit).spMask.getLsbD way && ownAperture s false unit line
    let row3 : Bool := (slice s unit).spMask.getLsbD way && ownAperture s true unit line
    -- what the read of an array of a core finds, before the keeper looks at the core (20 R481)
    let finds (what : Fin 4) (err : Nat) (E : State → Prop) : Prop :=
      ∃ v, exec (.cachePatrolRead what unit way line err) s = .next (afterArray unit v) ∧ SameBytes s v ∧ E v
    (∀ what : Fin 4, what.val < 2 → exec (.cachePatrolRead what unit way line 0) s = .next (afterArray unit s)) ∧
    exec (.cachePatrolRead 2 unit way line 0) s = .next (afterArray unit (injectPatrol false unit s)) ∧
    exec (.cachePatrolRead 3 unit way line 0) s = .next (injectPatrol true unit s) ∧
    (∀ isL3 m, smGet zeroNat (injectPatrol isL3 unit s).frk.spent m = smGet zeroNat s.frk.spent m + if m = 4 * meter isL3 + 3 then 1 else 0) ∧
    (finds 0 1 fun v => (priv v unit).l1i = dropLine (priv s unit).l1i line ∧ (priv v unit).l1d = (priv s unit).l1d ∧
      (priv v unit).l2 = (priv s unit).l2 ∧ (priv v unit).l1iParity = nowNs s :: (priv s unit).l1iParity ∧ Newest 5 v) ∧
    (finds 1 1 fun v => (priv v unit).l1d = dropLine (priv s unit).l1d line ∧ (priv v unit).l1i = (priv s unit).l1i ∧
      (priv v unit).l2 = (priv s unit).l2 ∧ (priv v unit).l1dParity = nowNs s :: (priv s unit).l1dParity ∧ Newest 5 v) ∧
    (finds 2 1 fun v => v.mem.poison = s.mem.poison ∧ (priv v unit).l2 = (priv s unit).l2 ∧ ∃ time, (way, line, time) ∈ (priv v unit).errs) ∧
    (row = true → finds 2 2 fun v => poisoned v line = true ∧ (way + 16, line, nowNs s) ∈ (priv v unit).errs) ∧
    (row = false → ∀ slot l, findLine (priv s unit).l2 line = some (slot, l) → finds 2 2 fun v =>
      (l.st = .m ∨ l.st = .o → poisoned v line = true) ∧
      (l.st = .e ∨ l.st = .s → findLine (priv v unit).l2 line = none ∧ v.mem.poison = s.mem.poison)) ∧
    (row3 = true → Completes (.cachePatrolRead 3 unit way line 2) s fun t => SameBytes s t ∧ poisoned t line = true) ∧
    ((slice s unit).retiring = none → (slice s unit).retired.getLsbD way = false →
      Completes (.cachePatrolRead 3 unit way line 2) s fun t => (slice t unit).retiring = some way) ∧
    (row3 = false → ∀ slot l, findL3 (slice s unit) line = some (slot, l) → Completes (.cachePatrolRead 3 unit way line 2) s fun t => SameBytes s t ∧
      (l.dirty = true → poisoned t line = true) ∧ (l.dirty = false → findL3 (slice t unit) line = none ∧ t.mem.poison = s.mem.poison))) ∧
  (∀ (unit : Nat) (way : Fin 16) (bad : Option Nat) (s : State),
    let sl := slice s unit
    let due := wayDue way.val (nowNs s) sl.errs
    (due = false → exec (.wayRetirement true unit way bad) s = .next s) ∧
    (due = true → sl.retired.getLsbD way.val = true → exec (.wayRetirement true unit way bad) s = .next s) ∧
    (due = true → sl.retired.getLsbD way.val = false → Completes (.wayRetirement true unit way bad) s fun t =>
      (slice t unit).retired = sl.retired ||| BitVec.ofNat 16 (2 ^ way.val) ∧ (slice t unit).retiring = none ∧
      (∀ e ∈ (slice t unit).l3, e.1 % 16 ≠ way.val ∧ (slice t unit).spMask.getLsbD (e.1 % 16) = false ∧ e ∈ sl.l3) ∧
      ((slice t unit).removed = true ↔ sl.removed = true ∨ healthyWays (sl.retired ||| BitVec.ofNat 16 (2 ^ way.val)) < 12) ∧
      ((slice t unit).removed = true → (slice t unit).l3 = []) ∧
      ((∀ e ∈ sl.l3, ∀ l, e.2 = some l → l.dirty = true → l.stale = none) → SameBytes s t))) ∧
  ∀ (lc : LC) (s : State),
    let a2 := argOf lc s 2
    let a3 := argOf lc s 3
    let pc := pcOf s a2
    let x := coreOf s a2
    let refused (i : Instr) (st : Nat) : Prop := Serves i lc s st none fun u => u = s
    (Called lc 0x100 s →
      (a2 < s.resil.bound → Serves (.cacheQuery lc) lc s 0 (some (x.enableL1I.toNat + 2 * x.enableL1D.toNat + 4 * x.enableL2.toNat +
        256 * countOnes (priv s pc).spMask 16 + 65536 * healthyWays (priv s pc).retired)) fun u => u = s) ∧
      (s.resil.bound ≤ a2 → refused (.cacheQuery lc) 3)) ∧
    (Called lc 0x101 s → (a3 < 8 → a2 < s.resil.bound → Serves (.cacheDisable lc) lc s 0 none fun u =>
        let m := if a3.testBit 2 then 7 else a3
        let base := if m.testBit 2 && x.enableL2 then writeBackL2 pc s else s
        let frozen (off : Bool) (old new : SMap (Option L2Line)) : Prop := (off = false → new = old) ∧ (off = true → ∀ slot, smGet optDef new slot =
          (smGet optDef old slot).map fun l => { l with st := .s, stale := some (l.stale.getD (readLine base l.line)) })
        coreOf u a2 = { x with enableL1I := x.enableL1I && !m.testBit 0, enableL1D := x.enableL1D && !m.testBit 1, enableL2 := x.enableL2 && !m.testBit 2 } ∧
        frozen (m.testBit 0 && x.enableL1I) (priv s pc).l1i (priv u pc).l1i ∧ frozen (m.testBit 1 && x.enableL1D) (priv s pc).l1d (priv u pc).l1d ∧
        frozen (m.testBit 2 && x.enableL2) (priv s pc).l2 (priv u pc).l2 ∧
        (∀ n, n ≠ a2 → coreOf u n = coreOf s n) ∧ { u with cores := s.cores, mem := { u.mem with priv := s.mem.priv } } = base) ∧
      (8 ≤ a3 → refused (.cacheDisable lc) 4) ∧ (a3 < 8 → s.resil.bound ≤ a2 → refused (.cacheDisable lc) 3)) ∧
    (Called lc 0x102 s → (a3 < 8 → a2 < s.resil.bound → (a3 % 4 = 0 ∨ x.enableL2 = true ∨ a3.testBit 2 = true) → Serves (.cacheEnable lc) lc s 0 none fun u =>
        coreOf u a2 = { x with enableL1I := x.enableL1I || a3.testBit 0, enableL1D := x.enableL1D || a3.testBit 1, enableL2 := x.enableL2 || a3.testBit 2 } ∧
        (∀ n, n ≠ a2 → coreOf u n = coreOf s n) ∧ { u with cores := s.cores } = s) ∧
      (8 ≤ a3 → refused (.cacheEnable lc) 4) ∧
      (a3 < 8 → s.resil.bound ≤ a2 ∨ (a3 % 4 ≠ 0 ∧ x.enableL2 = false ∧ a3.testBit 2 = false) → refused (.cacheEnable lc) 3)) ∧
    (Called lc 0x103 s → a3 < 8 → a2 < s.resil.bound →
      ((a3.testBit 0 = true ∧ x.enableL1I = true) ∨ (a3.testBit 1 = true ∧ x.enableL1D = true) ∨ (a3.testBit 2 = true ∧ x.enableL2 = true) →
        refused (.cacheInvalAll lc) 6) ∧
      (¬((a3.testBit 0 = true ∧ x.enableL1I = true) ∨ (a3.testBit 1 = true ∧ x.enableL1D = true) ∨ (a3.testBit 2 = true ∧ x.enableL2 = true)) →
        Serves (.cacheInvalAll lc) lc s 0 none fun u => { u with mem := { u.mem with priv := s.mem.priv } } = s ∧
          (priv u pc).l1i = (if a3.testBit 0 then [] else (priv s pc).l1i) ∧ (priv u pc).l1d = (if a3.testBit 1 then [] else (priv s pc).l1d) ∧
          (priv u pc).l2 = (if a3.testBit 2 then [] else (priv s pc).l2))) ∧
    (Called lc 0x104 s →
      let j := countOnes (priv s pc).spMask 16
      (8 < a3 → refused (.l2SpSet lc) 3) ∧
      (a2 < s.resil.bound → a3 ≤ 8 → a3 ≤ healthyWays (priv s pc).retired → a3 ≤ j → Serves (.l2SpSet lc) lc s 0 none fun u =>
        countOnes (priv u pc).spMask 16 = a3 ∧ (priv u pc).l2 = (priv s pc).l2 ∧
        ∀ a, readByte u a = if l2Aperture s a2 + a3 * 0x10000 ≤ a ∧ a < l2Aperture s a2 + j * 0x10000 then 0 else readByte s a) ∧
      (a2 < s.resil.bound → a3 ≤ 8 → a3 ≤ healthyWays (priv s pc).retired → j < a3 → (∀ e ∈ (priv s pc).l2, ∀ l, e.2 = some l → l.stale = none) →
        Serves (.l2SpSet lc) lc s 0 none fun u =>
          (∀ i, (priv s pc).spMask.getLsbD i = true → (priv u pc).spMask.getLsbD i = true) ∧
          (∀ e ∈ (priv s pc).l2, (priv u pc).spMask.getLsbD (e.1 % 16) = true → (priv s pc).spMask.getLsbD (e.1 % 16) = false →
            ∀ l, e.2 = some l → findLine (priv u pc).l2 l.line = none) ∧
          ∀ a, readByte u a = if l2Aperture s a2 + j * 0x10000 ≤ a ∧ a < l2Aperture s a2 + a3 * 0x10000 then 0 else readByte s a))

/-- The memory controllers' answers (11 R281 to R290): a read gives its line, two symbols of HBM or one device of DDR in error are corrected and
counted, more poison the line, unless a queued write of the whole line supersedes it (R289), and a poisoned line leads to nothing more; a write joins
the write queue, its masked bytes in force at once; a scrub read is counted, on its controllers' meter too (12 R299); refresh may lag or lead by 8 and
takes the bank with the most owed; a lane that is due is re-centred, logged below 16 and repaired below 12; a fenced controller answers ST_FENCED and
discards writes, and one behind a silent bridge takes nothing (01 R24). -/
def Obligations.MemoryControllersServeLines : Prop :=
  (∀ (s : State) (line u err sym : Nat) (v : Vec) (mask : Word64), ctlOf s (64 * line) = some u →
    let c := memCtl s u
    let p := linePlace s line
    let gone := erasedAt s { p with symbols := sym }
    let n := symbolCount (maskWithout sym gone)
    let code := if err = 0 then 0 else if u < 8 then (if symbolCount sym = 0 then 0 else if symbolCount sym ≤ 2 then 1 else 2)
      else if n = 0 then 0 else if n = 1 ∧ (gone = [] ∨ err = 1) then 1 else 2
    let value := BitVec.ofNat 64 (readNat s (64 * line) 8)
    let retires (t : State) : Prop := 8 ≤ u → gone ≠ [] → dimmMib s ≤ s.mem.reserveFree →
      ∃ r ∈ (memCtl t u).retired, r.dimm = p.place / 16 ∧ (r.rank = none ∨ r.rank = some p.rank)
    let inHand := c.wq.any fun w => w.line == line
    (ctlSilent s u = true → ∀ i ∈ ([.memoryRead line err sym, .memoryWrite line v mask, .scrubRead line err sym] : List Instr), exec i s = .next s) ∧
    (ctlSilent s u = false → c.fenced = true →
      (Completes (.memoryRead line err sym) s fun t => t.ans.status = 14 ∧ t.mem = s.mem ∧ t.cores = s.cores) ∧
      (Completes (.memoryWrite line v mask) s fun t => t.mem = s.mem ∧ t.cores = s.cores) ∧ exec (.scrubRead line err sym) s = .next s) ∧
    (ctlSilent s u = false → c.fenced = false →
      (inHand = false → isMemory (64 * line) = true → lineFenced s line = false →
        (poisoned s line = true ∨ code = 0 → Completes (.memoryRead line err sym) s fun t =>
          t = { s with ans := { status := if poisoned s line then 8 else 0, value := value } }) ∧
        (poisoned s line = false → code = 1 → Completes (.memoryRead line err sym) s fun t => t.ans = { status := 0, value := value } ∧ SameBytes s t ∧
          t.mem.poison = s.mem.poison ∧ (memCtl t u).errors.length = c.errors.length + 1 ∧
          (mergeTarget 0x100 (if line = 0 then u else 2 ^ 32 + line) s = none → Newest 0x100 t)) ∧
        (poisoned s line = false → code = 2 → Completes (.memoryRead line err sym) s fun t => t.ans.status = 8 ∧ SameBytes s t ∧ poisoned t line = true ∧
          (u < 8 ∨ gone = [] → Newest 0x101 t) ∧ retires t)) ∧
      (inHand = true → Completes (.memoryRead line err sym) s fun t => t.ans.value = value ∧ SameBytes s t ∧ t.mem.poison = s.mem.poison ∧
        (∀ x, x ∈ (memCtl t u).wq ↔ x ∈ c.wq ∧ x.slot ≠ wqSlot s line)) ∧
      (Completes (.memoryWrite line v mask) s fun t =>
        (∀ i, i < 64 → readByte t (64 * line + i) = if mask.getLsbD i then lane 8 v i else readByte s (64 * line + i)) ∧ SameBytesBut (64 * line) 64 s t ∧
        (mask = BitVec.allOnes 64 → poisoned t line = false) ∧ (mask ≠ BitVec.allOnes 64 → t.mem.poison = s.mem.poison) ∧
        ((c.wq.filter fun w => w.slot == wqSlot s line).length < 47 →
          (memCtl t u).wq = c.wq ++ [{ slot := wqSlot s line, line := line, full := decide (mask = BitVec.allOnes 64) }]) ∧
        ((c.wq.filter fun w => w.slot == wqSlot s line).length = 47 → ∀ x ∈ (memCtl t u).wq, x.slot ≠ wqSlot s line)) ∧
      (let m := 4 * (if u < 8 then 536 else 537) + 3
       (Completes (.scrubRead line err sym) s fun t =>
        smGet cnt0 t.ctl.counters (ctlBase u + 0x40) = smGet cnt0 s.ctl.counters (ctlBase u + 0x40) + 1 ∧
        smGet zeroNat t.frk.spent m = smGet zeroNat s.frk.spent m + 1 ∧ SameBytes s t ∧
        (poisoned s line = true ∨ code = 0 → { t with frk := s.frk, ctl := { t.ctl with counters := s.ctl.counters } } = s) ∧
        (poisoned s line = false → code = 2 → (c.wq.any fun w => w.line == line && w.full) = true → t.mem.poison = s.mem.poison) ∧
        (poisoned s line = false → code = 2 → (c.wq.any fun w => w.line == line && w.full) = false → poisoned t line = true))))) ∧
  (∀ (s : State) (u : Fin 16) (place bank : Nat) (ready : List Nat),
    let owed (t : State) (b : Nat) : Int := smGet owed0 (memCtl t u.val).refreshOwed (place * 64 + b)
    let free := (List.range (if u.val < 8 then 64 else 4)).filter fun b => !ready.contains b
    (owed s bank < 7 → Completes (.refresh u place bank true ready) s fun t => owed t bank = owed s bank + 1 ∧ SameBytes s t) ∧
    (7 ≤ owed s bank → bank ∉ ready → exec (.refresh u place bank true ready) s = .next s) ∧
    (7 ≤ owed s bank → bank ∈ ready → Completes (.refresh u place bank true ready) s fun t => owed t bank = owed s bank ∧
      smGet cnt0 t.ctl.counters (ctlBase u.val + 0x48) = smGet cnt0 s.ctl.counters (ctlBase u.val + 0x48) + 1 ∧
      { t with ctl := { t.ctl with counters := s.ctl.counters } } = s) ∧
    (free = [] → exec (.refresh u place bank false ready) s = .next s) ∧
    ∀ b ∈ free, (∀ x ∈ free, owed s x ≤ owed s b ∧ (owed s x = owed s b → b ≤ x)) →
      (-8 < owed s b → Completes (.refresh u place bank false ready) s fun t => owed t b = owed s b - 1 ∧ (∀ x, x < 64 → x ≠ b → owed t x = owed s x) ∧
        SameBytes s t) ∧
      (owed s b ≤ -8 → exec (.refresh u place bank false ready) s = .next s)) ∧
  (∀ (s : State) (u : Fin 16) (temp : Nat), Completes (.temperatureRead u temp) s fun t => (memCtl t u.val).temp = temp ∧
    (95 < temp → Newest 0x10C t) ∧ (temp ≤ 95 → t.resil = s.resil) ∧ SameBytes s t) ∧
  ∀ (s : State) (u : Fin 16) (ln l r : Nat) (wr pin : Bool),
    let c := memCtl s u.val
    let last := (smGet noRun c.runs ln).getD c.trainedAt
    let cfg := regAct s (ctlBase u.val + 0x14)
    let due := laneExists s u.val ln = true ∧
      (last.time + fld cfg 7 0 * 60000000000 ≤ nowNs s ∨ last.temp + fld cfg 15 8 ≤ c.temp ∨ c.temp + fld cfg 15 8 ≤ last.temp)
    let old := fld (laneResult s u.val ln wr) 8 0
    let aim := (l + r) / 2
    (¬due → exec (.recentre u ln wr l r pin) s = .next s) ∧
    (due → c.training = false → 16 ≤ r - l → Completes (.recentre u ln wr l r pin) s fun t => SameBytes s t ∧ t.resil = s.resil ∧
      fld (laneResult t u.val ln wr) 31 24 = min 255 (r - l) ∧
      (aim < 512 → fld (laneResult t u.val ln wr) 8 0 = if old < aim then min aim (old + 2) else max aim (old - 2)) ∧
      (memCtl t u.val).repaired = c.repaired ∧ (memCtl t u.val).erased = c.erased ∧
      ∀ x d, (x ≠ ln ∨ d ≠ wr) → x < 128 → laneResult t u.val x d = laneResult s u.val x d) ∧
    (due → 12 ≤ r - l → r - l < 16 → Completes (.recentre u ln wr l r pin) s fun t => Newest 0x10D t ∧ SameBytes s t) ∧
    (due → r - l < 12 → u.val < 8 → pin = true → smGet zeroNat c.pinsUsed (ln / 4) < 2 → Completes (.recentre u ln wr l r pin) s fun t =>
      laneRepaired t u.val ln = true ∧ Newest 0x10E t ∧ smGet zeroNat (memCtl t u.val).pinsUsed (ln / 4) = smGet zeroNat c.pinsUsed (ln / 4) + 1) ∧
    (due → r - l < 12 → u.val < 8 → pin = false ∨ 2 ≤ smGet zeroNat c.pinsUsed (ln / 4) → Completes (.recentre u ln wr l r pin) s fun t =>
      t.resil.contain.getLsbD 1 = true) ∧
    (due → r - l < 12 → 8 ≤ u.val → c.erased = [] → Completes (.recentre u ln wr l r pin) s fun t =>
      (∀ k ∈ packageRanks s ln, ∃ e ∈ (memCtl t u.val).erased, e.place = lanePlace u.val ln ∧ e.rank = k ∧ e.dev = ln % 10 ∧ e.bank = none) ∧ SameBytes s t)

/-- Repair and retirement (11 R288 to R294): a row that is due is spared once, by a spare row of its own bank or another (HBM) or in place (DDR), a line
uncorrectable during the copy being stored poisoned; a bank is spared after 64 spared rows; a rank or a DIMM is retired into the DDR reserve, a second
rank with its DIMM, or the device enters CONTAIN where the reserve or the spares do not suffice; sectors stop, start and change their mode, which zeroes
them (R279); a range given to the keeper joins the reserve. -/
def Obligations.MemoryRepairsAndSectors : Prop :=
  (∀ (s : State) (u : Fin 16) (place bank row : Nat) (bad : List Nat),
    let c := memCtl s u.val
    let mine := c.errors.filter fun e => decide (e.place = place ∧ e.bank = bank ∧ e.row = row)
    let due := (∃ e ∈ mine, e.ue = true) ∨ 2 ≤ ((mine.filter fun e => decide (nowNs s < e.time + 86400000000000)).map fun e => e.col).dedup.length
    let mask := mine.foldl (fun a e => a ||| e.symbols) 0
    let spared := ∃ x ∈ c.spared, x.place = place ∧ x.bank = bank ∧ x.row = row
    let gives (b : Nat) : Prop := smGet zeroNat c.spareUsed (place / 8 * 64 + b) < 1536 ∧ (place / 8, b) ∉ c.sparedBanks
    let copied (t : State) : Prop := SameBytes s t ∧ (∀ x ∈ bad, poisoned t (lineAt s u.val place bank row x) = true) ∧
      ∀ l, (∀ x ∈ bad, l ≠ lineAt s u.val place bank row x) → poisoned t l = poisoned s l
    let takes (b spare : Nat) (t : State) : Prop := (memCtl t u.val).spared =
      c.spared ++ [{ place := place, bank := bank, row := row, toBank := b, spare := spare, symbols := mask }] ∧ copied t
    (¬due ∨ spared → exec (.rowSpare u place bank row bad) s = .next s) ∧
    (due → ¬spared → u.val < 8 →
      (gives bank → Completes (.rowSpare u place bank row bad) s fun t => takes bank (23040 + smGet zeroNat c.spareUsed (place / 8 * 64 + bank)) t ∧
        (bad = [] → Newest 0x103 t)) ∧
      (¬gives bank → ∀ b, b < 64 → gives b → (∀ x, x < b → ¬gives x) → Completes (.rowSpare u place bank row bad) s fun t =>
        takes b (23040 + smGet zeroNat c.spareUsed (place / 8 * 64 + b)) t) ∧
      (¬gives bank → (∀ x, x < 64 → ¬gives x) → Completes (.rowSpare u place bank row bad) s fun t => t.resil.contain.getLsbD 1 = true ∧ t.mem = s.mem)) ∧
    (due → ¬spared → 8 ≤ u.val →
      (spareLeft s 6 ≠ 0 → Completes (.rowSpare u place bank row bad) s fun t => takes bank row t ∧ spareLeft t 6 = spareLeft s 6 - 1 ∧
        ((∀ d, d < 10 → mask.testBit d = true → deviceRows c place bank d < 15) → (memCtl t u.val).erased = c.erased ∧ (bad = [] → Newest 0x105 t))) ∧
      (∀ d, d < 10 → spareLeft s 6 = 0 → mask = 2 ^ d → c.erased = [] → Completes (.rowSpare u place bank row bad) s fun t =>
        (memCtl t u.val).erased = [{ place := place / 8, rank := place % 8, bank := some bank, dev := d }] ∧ (memCtl t u.val).spared = c.spared ∧
        Newest 0x106 t ∧ SameBytes s t))) ∧
  (∀ (s : State) (u : Fin 16) (pc bank : Nat),
    let c := memCtl s u.val
    let rows := (c.spared.filter fun r => r.place / 8 == pc && r.bank == bank).length
    let left := ((List.range 64).filter fun b => b != bank && !c.sparedBanks.contains (pc, b)).map fun b => 1536 - smGet zeroNat c.spareUsed (pc * 64 + b)
    let four := (c.sparedBanks.filter fun b => b.1 == pc).length < 4
    (8 ≤ u.val ∨ rows ≤ 64 ∨ (pc, bank) ∈ c.sparedBanks → exec (.bankSpare u pc bank) s = .next s) ∧
    (u.val < 8 → 64 < rows → (pc, bank) ∉ c.sparedBanks →
      (four → 23040 ≤ left.sum → Completes (.bankSpare u pc bank) s fun t => (memCtl t u.val).sparedBanks = c.sparedBanks ++ [(pc, bank)] ∧
        Newest 0x104 t ∧ SameBytes s t) ∧
      (¬four ∨ left.sum < 23040 → Completes (.bankSpare u pc bank) s fun t => t.resil.contain.getLsbD 1 = true ∧ t.mem = s.mem))) ∧
  (∀ (s : State) (u : Fin 16) (dimm rank k sym : Nat), 8 ≤ u.val →
    let c := memCtl s u.val
    let whole := 1024 * s.mem.ddrGib / dimmCount s
    let base := ((s.mem.reserveTotal - s.mem.reserveFree) * 256 + dimmCount s - 1) / dimmCount s
    let retires (i : Instr) (k : Option Nat) (need : Nat) : Prop :=
      (need ≤ s.mem.reserveFree → Completes i s fun t => t.mem.reserveFree = s.mem.reserveFree - need ∧ SameBytes s t ∧
        Newest (if k = none then 0x108 else 0x107) t ∧
        (memCtl t u.val).retired = c.retired ++ [{ dimm := dimm, rank := k, pointer := 0, total := need, done := false, base := base }]) ∧
      (s.mem.reserveFree < need → Completes i s fun t => t.resil.contain.getLsbD 1 = true ∧ t.mem = s.mem)
    ((∀ r ∈ c.retired, r.dimm ≠ dimm) → retires (.dimmRetire u dimm) none whole ∧ retires (.rankRetire u dimm rank) (some rank) (whole / 2 ^ s.mem.rankLog2)) ∧
    (∀ r, c.retired = [r] → r.dimm = dimm → r.rank = some k → k ≠ rank → retires (.rankRetire u dimm rank) none (whole - r.total)) ∧
    (∀ r ∈ c.retired, r.dimm = dimm → (r.rank = none ∨ r.rank = some rank → exec (.rankRetire u dimm rank) s = .next s) ∧
      (r.rank = none → exec (.dimmRetire u dimm) s = .next s)) ∧
    (Completes (.ecsRead u dimm sym) s fun t => t.mem = s.mem ∧ t.cores = s.cores ∧ (mergeTarget 0x10B u.val s = none → Newest 0x10B t))) ∧
  (∀ (s : State) (u : Fin 16) (dimm rank sym : Nat), u.val < 8 →
    ∀ i ∈ ([.dimmRetire u dimm, .rankRetire u dimm rank, .ecsRead u dimm sym] : List Instr), exec i s = .next s) ∧
  (∀ (s : State) (u : Fin 16),
    (∀ r rest, (memCtl s u.val).retired = r :: rest → r.done = false → Completes (.reserveCopyComplete u) s fun t =>
      (memCtl t u.val).retired = { r with pointer := r.total, done := true } :: rest ∧ SameBytes s t ∧ (reserveArmed s = false → Newest 0x10A t)) ∧
    ((∀ r ∈ (memCtl s u.val).retired, r.done = true) → exec (.reserveCopyComplete u) s = .next s)) ∧
  (∀ (w : Writer) (n : Fin 8) (x : BitVec 28) (s : State), Reaches w 2 0 (ctlBase n.val + 0x120) s → x.toNat < 8 →
    let sets (i : Instr) (op : Nat) (b : Bool) : Prop := Commands i w (ctlBase n.val + 0x120) (BitVec.ofNat 32 (op * 2 ^ 28 + x.toNat)) s fun u =>
      (∀ j, j < 8 → (memCtl u n.val).stopped.getLsbD j = if j = x.toNat then b else (memCtl s n.val).stopped.getLsbD j) ∧
      { memCtl u n.val with stopped := 0 } = { memCtl s n.val with stopped := 0 } ∧ (∀ m, m ≠ n.val → memCtl u m = memCtl s m) ∧
      { u with mem := { u.mem with ctls := s.mem.ctls } } = s
    sets (.hmcSectorStop w n x) 1 true ∧ sets (.hmcSectorStart w n x) 2 false) ∧
  ∀ (lc : LC) (s : State),
    let j := argOf lc s 2
    let mode := argOf lc s 3
    let base := slotOf s * 2 ^ 44 + 8 * j * 0x168000000
    (Called lc 0x200 s →
      (j < 8 → mode < 2 → s.ctl.inFlight = false → Serves (.memSectorSet lc) lc s 0 none fun u =>
        (∀ n, n < 8 → reg u (0x2000100 + 0x100000 * n + 4 * j) = BitVec.ofNat 32 (2 ^ 31 + mode) ∧ (memCtl u n).stopped.getLsbD j = false) ∧
        (∀ l, base ≤ 64 * l → 64 * l < base + 8 * 0x168000000 → poisoned u l = false) ∧
        (∀ a, readByte u a = if base ≤ a ∧ a < base + 8 * 0x168000000 then 0 else readByte s a)) ∧
      (7 < j ∨ 1 < mode → Serves (.memSectorSet lc) lc s 3 none fun u => u = s) ∧
      (j < 8 → mode < 2 → s.ctl.inFlight = true → Serves (.memSectorSet lc) lc s 7 none fun u => u = s)) ∧
    (Called lc 0x201 s → mode ≠ 0 → mode % 0x200000 = 0 → j % 0x200000 = 0 → j + mode = reserveBase s → slotOf s * 2 ^ 44 + 0x10000000000 ≤ j →
      pagesCoded s j mode 0 = true → mappedOpen s j (j + mode) = false → Serves (.memDdrGive lc) lc s 0 none fun u => SameBytes s u ∧
        u.mem.reserveTotal = s.mem.reserveTotal + mode / 2 ^ 20 ∧ u.mem.reserveFree = s.mem.reserveFree + mode / 2 ^ 20 ∧
        ∀ n, (coreOf u n).regs = (coreOf s n).regs)

/-! ### Franking and the sorting office (12, 13) -/

/-- Queue commands, the start of the office, the dead-letter tail and reservations (12 R303 to R306; 13 R340 to R344, R348): each takes effect under the
conditions the rules name and is refused under its own code otherwise. -/
def Obligations.OfficeAndReservationCommands : Prop :=
  ∀ (w : Writer) (s : State),
    (∀ x : BitVec 28, Reaches w 1 0 0x3000040 s → x.toNat < 65536 → smWf slotDef s.office.slots = true →
      let q := x.toNat
      let old := queueOf s q
      let im (i : Nat) : Word32 := keyReg s (bankKey (0x3000080 + 4 * i) (writerKey w))
      let words := (List.range 9).map im
      let v (op : Nat) : Word32 := BitVec.ofNat 32 (op * 2 ^ 28 + q)
      let good := imageRsvd im = false ∧ imageRange s q im = false
      let ready := s.office.running = true ∧ sopDown s (q % 8) = false
      let only (u : State) (y : Queue) : Prop := queueOf u q = y ∧ (∀ p, p ≠ q → queueOf u p = queueOf s p) ∧
        { u with office := { u.office with queues := s.office.queues, slots := s.office.slots } } = s
      let freed (u : State) : Prop := ∀ n, slotAt u n = match slotAt s n with
        | some y => if y.cmd.q = q then none else some y
        | none => none
      (ready → good → old.state = .free → imageBudget s q im = false → Commands (.queueCreate w x) w 0x3000040 (v 1) s fun u =>
        only u { state := .active, words := words } ∧ u.office.slots = s.office.slots) ∧
      (ready → good → old.state = .free → imageBudget s q im = true → Refuses (.queueCreate w x) s 12) ∧
      (ready → good → old.state = .active → Refuses (.queueCreate w x) s 7) ∧
      (ready → old.state ≠ .fenced → imageRsvd im = true → Refuses (.queueCreate w x) s 4) ∧
      (s.office.running = false → sopDown s (q % 8) = false → good → old.state = .free → Refuses (.queueCreate w x) s 7) ∧
      (old.state = .fenced → Refuses (.queueCreate w x) s 14 ∧ Refuses (.queueRetire w x) s 14 ∧ Refuses (.queueRetireFlush w x) s 14) ∧
      (ready → good → old.state = .active → (qw old 0 ^^^ im 0) &&& 0x1F000000 = 0 → imageBudget s q im = false →
        let same := qw old 4 = im 4 ∧ qw old 5 = im 5
        (same → Commands (.queueResize w x) w 0x3000040 (v 2) s fun u => only u { old with words := words } ∧ u.office.slots = s.office.slots) ∧
        (¬same → old.oldLeft = 0 → Commands (.queueResize w x) w 0x3000040 (v 2) s fun u =>
          only u { old with words := words, oldLeft := old.ring.length, spill := decide (0 < old.ring.length) } ∧ u.office.slots = s.office.slots) ∧
        (¬same → 0 < old.oldLeft → Refuses (.queueResize w x) s 7)) ∧
      (ready → good → old.state = .active → (qw old 0 ^^^ im 0) &&& 0x1F000000 ≠ 0 → Refuses (.queueResize w x) s 6) ∧
      (ready → old.state = .active →
        (qCount old = 0 → old.oldLeft = 0 → Commands (.queueRetire w x) w 0x3000040 (v 3) s fun u => only u {} ∧ freed u) ∧
        (qCount old ≠ 0 → Commands (.queueRetire w x) w 0x3000040 (v 3) s fun u => only u { old with state := .draining } ∧ u.office.slots = s.office.slots)) ∧
      (ready → old.state = .free → Refuses (.queueRetire w x) s 7 ∧ Refuses (.queueRetireFlush w x) s 7) ∧
      (ready → old.state = .active ∨ old.state = .draining → old.ring = [] → old.oldLeft = 0 → old.bell = .armed →
        (∀ l ∈ old.burst, l.via = none ∨ l.data.getLsbD 52 = true) → dlrLog2 s < 21 →
        (old.burst.length + (dlrHead s - dlrTail s).toNat ≤ 2 ^ dlrLog2 s → Commands (.queueRetireFlush w x) w 0x3000040 (v 4) s fun u =>
          queueOf u q = {} ∧ dlrHead u = dlrHead s + BitVec.ofNat 32 old.burst.length ∧ (∀ p, p ≠ q → queueOf u p = queueOf s p)) ∧
        (old.burst ≠ [] → dlrFull s = true → Commands (.queueRetireFlush w x) w 0x3000040 (v 4) s fun u =>
          only u { old with state := .draining, flushing := true } ∧ u.office.slots = s.office.slots))) ∧
    (Reaches w 1 0 0x3000004 s →
      (s.office.running = false → 6 ≤ dlrLog2 s → dlrLog2 s ≤ 20 → ringOk s (dlrBase s) (128 * 2 ^ dlrLog2 s) = true →
        Commands (.soStart w 1) w 0x3000004 1 s fun u => u = { s with office := { s.office with running := true, ctrs := [], ctxs := [] } }) ∧
      (s.office.running = false → (dlrLog2 s < 6 ∨ 20 < dlrLog2 s ∨ ringOk s (dlrBase s) (128 * 2 ^ dlrLog2 s) = false) → Refuses (.soStart w 1) s 3) ∧
      (s.office.running = true → Commands (.soStart w 1) w 0x3000004 1 s fun u => u = s) ∧ Refuses (.soStart w 2) s 4) ∧
    (∀ v, Reaches w 1 0 0x3000020 s →
      ((v - dlrTail s).toNat ≤ (dlrHead s - dlrTail s).toNat → (∀ e ∈ s.office.queues, e.2.flushing = false) →
        Commands (.dlrTailWrite w v) w 0x3000020 v s fun u => dlrTail u = v ∧ (∀ o, o ≠ 0x3000020 → reg u o = reg s o) ∧
          { u with ctl := { u.ctl with regs := s.ctl.regs } } = s) ∧
      ((dlrHead s - dlrTail s).toNat < (v - dlrTail s).toNat → Refuses (.dlrTailWrite w v) s 3)) ∧
    (∀ (n : Fin 540) (v : Word32), let off (i : Nat) := 0x900000 + 16 * n.val + 4 * i
      let w1 := heldRes s n.val 1
      let w2 := heldRes s n.val 2
      let fits := ∀ r, r < 40 → maskNames w1 w2 r = true → chargedBut s n.val r + fld v 15 0 ≤ resLimit s r
      Reaches w 1 0 (off 0) s → v &&& 0x7FFF0000 = 0 → hasStaged s (off 0) = false →
      let exists_ := n.val < 535 ∧ (n.val < 512 → bound s n.val = true)
      let takes := Commands (.frkResWrite w n v) w (off 0) v s fun u => reg u (off 0) = v ∧ reg u (off 1) = w1 ∧ reg u (off 2) = w2 ∧
        (∀ o, o < 2 ^ 36 → o ≠ off 0 → o ≠ off 1 → o ≠ off 2 → reg u o = reg s o) ∧ { u with ctl := { u.ctl with regs := s.ctl.regs } } = s
      (¬exists_ ∨ namesAbsent s w1 w2 = true → Refuses (.frkResWrite w n v) s 3) ∧
      (exists_ → namesAbsent s w1 w2 = false →
        (v.getLsbD 31 = false → takes) ∧ (v.getLsbD 31 = true → fld v 15 0 = 0 → Refuses (.frkResWrite w n v) s 3) ∧
        (v.getLsbD 31 = true → fld v 15 0 ≠ 0 → (fits → takes) ∧ (¬fits → Refuses (.frkResWrite w n v) s 12)))) ∧
    ∀ v : Word32, Reaches w 1 0 0x800020 s → v.toNat < 32 → hasStaged s 0x800020 = false →
      let tooHigh := 20 < v.toNat ∨ ∃ i, i < 5 ∧ 100 < v.toNat + shareSum (reg s (0x800040 + 4 * i))
      let less := ∃ r, r < 40 ∧ capacity s r * v.toNat / 100 < charged s r
      (tooHigh → Refuses (.frkTc0CeilWrite w v) s 3) ∧ (¬tooHigh → less → Refuses (.frkTc0CeilWrite w v) s 12) ∧
      (¬tooHigh → ¬less → Commands (.frkTc0CeilWrite w v) w 0x800020 v s fun u => reg u 0x800020 = v ∧ (∀ o, o ≠ 0x800020 → reg u o = reg s o) ∧
        { u with ctl := { u.ctl with regs := s.ctl.regs } } = s)

/-- Letters (13 R333 to R339, R345, R346): the first letter of a sender to a destination, new or refused before, is stored behind the others with the
postcode and class stamped, sent to its device, taken by the window of a PORT, dead-lettered with its reason, or refused and kept; one given up is reported to the completion queue. The head of the
bulk ring refills burst storage, or is dead-lettered where it is poisoned (R616); a doorbell rings on the hold time; an idle lease lapses. -/
def Obligations.LettersAreStoredReportedOrKept : Prop :=
  (∀ (s : State) (k : Nat) (dest : BitVec 32) (sl : SendSlot) (rest : List SendSlot) (retry : Bool),
    sendersOf s k = sl :: rest → sl.dest = dest → sl.tid = none → sl.released = true → sl.naked = retry →
    (retry = false → ∀ x ∈ rest, x.dest = dest → x.naked = false) → (k < 65536 ∨ sl.letter.via = none) →
    let i : Instr := if retry then .letterRetry k dest else .letterArrival k dest
    let q := fld dest 15 0
    let x := queueOf s q
    let l : Letter := { sl.letter with data := putFld (putFld sl.letter.data 51 32 (qClass x * 2 ^ 16 + devNum s)) 31 0 (devNum s * 65536 + q) }
    let place := dlrBase s + (dlrHead s).toNat % 2 ^ dlrLog2 s * 128
    let kept := Completes i s fun t => sendersOf t k = { sl with naked := true, attempts := sl.attempts + 1 } :: rest ∧
      (∀ p, queueOf t p = queueOf s p) ∧ SameBytes s t
    let low : Word32 := sl.letter.data.setWidth 32
    let routed := routeLeads (sendMsg (letterMsg 1 (fld dest 31 16) s.links.nextTid (senderTc s k sl) (decide (65536 ≤ k) && qOrdered (queueOf s (k - 65536)))
      sl.letter) (newTid s).2).1
    let dead (r : Nat) := Completes i s fun t => sendersOf t k = rest ∧ dlrHead t = dlrHead s + 1 ∧ (∀ p, queueOf t p = queueOf s p) ∧
      (∀ j, j < 128 → readByte t (place + j) = (dlrEntry s r q l).getD j 0) ∧ SameBytesBut place 128 s t
    (fld dest 31 16 ≠ devNum s →
      (routed = true → Completes i s fun t => sendersOf t k = { sl with tid := some s.links.nextTid, naked := false } :: rest ∧
        (∀ n, n ≠ k → sendersOf t n = sendersOf s n) ∧ (∀ p, queueOf t p = queueOf s p) ∧ SameBytes s t) ∧
      (routed = false → sl.letter.data.getLsbD 52 = true ∨ sl.letter.via = none → Completes i s fun t => sendersOf t k = rest ∧
        (∀ n, n ≠ k → sendersOf t n = sendersOf s n) ∧ (∀ p, queueOf t p = queueOf s p) ∧ SameBytes s t)) ∧
    (fld dest 31 16 = devNum s → qKind x = 1 → s.office.running = true → sopDown s (q % 8) = false → x.state = .active → k ≠ 65536 + q →
      (qw x 0).getLsbD 19 = false → bellOn x = false ∨ x.bell ≠ .armed →
      (low &&& qw x 7 = qw x 6 → sl.letter.via = none → Completes i s fun t => sendersOf t k = rest ∧ SameBytes s t ∧
        let l : Letter := { sl.letter with data := putFld sl.letter.data 51 32 (qClass x * 2 ^ 16 + devNum s), via := some q }
        sendersOf t (65536 + q) = sendersOf s (65536 + q) ++ [{ dest := low, released := true, letter := l }]) ∧
      (low &&& qw x 7 ≠ qw x 6 → sl.letter.via = none → sl.letter.data.getLsbD 52 = true → Completes i s fun t => sendersOf t k = rest ∧
        (∀ n, n ≠ k → sendersOf t n = sendersOf s n) ∧ SameBytes s t)) ∧
    (fld dest 31 16 = devNum s → qKind x ≠ 1 →
    (s.office.running = false → kept) ∧
    (s.office.running = true → s.power.mode ≠ .drain → sopDown s (q % 8) = false →
      (x.state = .active → x.spill = false → burstRoom s q x = true → (qw x 0).getLsbD 19 = false → bellOn x = false ∨ x.bell ≠ .armed →
        Completes i s fun t => (queueOf t q).burst = x.burst ++ [l] ∧ (queueOf t q).ring = x.ring ∧ (∀ p, p ≠ q → queueOf t p = queueOf s p) ∧
          sendersOf t k = rest ∧ (∀ n, n ≠ k → sendersOf t n = sendersOf s n) ∧ SameBytes s t) ∧
      (l.data.getLsbD 52 = true → dlrFull s = false → Clear s place 128 → (x.state = .free → dead 3) ∧ (x.state = .draining → dead 4) ∧
        (x.state = .active → ringLog2 x = 0 → burstRoom s q x = false → dead 2)) ∧
      (dlrFull s = true → x.state = .free ∨ x.state = .draining ∨ (x.state = .active ∧ ringLog2 x = 0 ∧ burstRoom s q x = false) → kept)))) ∧
  (∀ (s : State) (k : Nat) (dest : BitVec 32), sendersOf s k = [] →
    exec (.letterArrival k dest) s = .next s ∧ exec (.letterRetry k dest) s = .next s ∧ exec (.sendTimeout k dest) s = .next s) ∧
  (∀ (s : State) (k : Nat) (dest : BitVec 32) (sl : SendSlot) (rest : List SendSlot), sendersOf s k = sl :: rest → sl.dest = dest → sl.naked = true →
    (sl.letter.data.getLsbD 52 = true ∨ sl.letter.via = none → Completes (.sendTimeout k dest) s fun t => sendersOf t k = rest ∧
      (∀ n, n ≠ k → sendersOf t n = sendersOf s n) ∧ { t with office := { t.office with senders := s.office.senders } } = s) ∧
    (∀ v, sl.letter.data.getLsbD 52 = false → sl.letter.via = some v → (qw (queueOf s v) 0).getLsbD 16 = true →
      let cq := fld (qw (queueOf s v) 0) 15 0
      let x := queueOf s cq
      sopDown s (cq % 8) = false → x.state = .active → qKind x ≠ 1 → x.spill = false → burstRoom s cq x = true →
      (qw x 0).getLsbD 19 = false → bellOn x = false → Completes (.sendTimeout k dest) s fun t => sendersOf t k = rest ∧
        (queueOf t cq).burst = x.burst ++ [reportLetter s cq 7 false (devNum s) sl.letter] ∧ SameBytes s t)) ∧
  ∀ (s : State) (q : Fin 65536),
    let x := queueOf s q.val
    (∀ e r, x.ring = e :: r → x.state ≠ .fenced → sopDown s (q.val % 8) = false → burstRoom s q.val x = true → e.pa % 64 = 0 → Clear s e.pa 64 →
      Completes (.bulkRefill q) s fun t => SameBytes s t ∧ (∀ p, p ≠ q.val → queueOf t p = queueOf s p) ∧
        let l : Letter := { data := putFld (readLine s (lineOf e.pa)) 51 51 1, postmark := e.postmark, via := e.via }
        let n := (x.ringHead + 1) % 2 ^ 32
        queueOf t q.val = { x with burst := x.burst ++ [l], ring := r, oldLeft := x.oldLeft - 1, ringHead := n, spill := !r.isEmpty }) ∧
    (∀ e r, x.ring = e :: r → x.state ≠ .fenced → sopDown s (q.val % 8) = false → burstRoom s q.val x = true → e.pa % 64 = 0 →
      poisoned s (lineOf e.pa) = true → dlrFull s = false → dlrLog2 s < 21 → Completes (.bulkRefill q) s fun t =>
        dlrHead t = dlrHead s + 1 ∧ (queueOf t q.val).ring = r) ∧
    (x.ring = [] ∨ x.state = .fenced ∨ burstRoom s q.val x = false → exec (.bulkRefill q) s = .next s) ∧
    (let holds := bellOn x = true ∧ x.bell = .armed ∧ fld (qw x 2) 15 0 ≠ 0 ∧ 0 < qCount x ∧ qCount x < fld (qw x 2) 31 16;
      (holds → Completes (.doorbellHoldExpiry q) s fun t => queueOf t q.val = { x with bell := .byHold } ∧
        smGet boolDef t.intc.pend (fld (qw x 1) 12 0) = true ∧ (∀ n, n ≠ fld (qw x 1) 12 0 → smGet boolDef t.intc.pend n = smGet boolDef s.intc.pend n) ∧
        { t with office := { t.office with queues := s.office.queues }, intc := { t.intc with pend := s.intc.pend } } = s) ∧
      (¬holds → exec (.doorbellHoldExpiry q) s = .next s)) ∧
    (0 < qCount x → Completes (.leaseLapse q) s fun t => queueOf t q.val = { x with lease := none } ∧
      (∀ p, p ≠ q.val → queueOf t p = queueOf s p) ∧ { t with office := { t.office with queues := s.office.queues } } = s) ∧
    (x.lease = none ∨ qCount x = 0 → exec (.leaseLapse q) s = .next s)

/-! ### Remote operations and collectives (14) -/

/-- Command letters (14 R349 to R371): the head command of a queue starts, moves or changes what its operation says and stands among the commands
running; its completion advances LCTR and posts its letter; slots are armed, fire and are cancelled; contexts combine contributions exactly and write
their rounds. -/
def Obligations.CommandLettersActAndComplete : Prop :=
  (∀ (s : State) (q : Fin 65536) (c : Cmd), c.q = q.val →
    let here := cRdev c = devNum s
    let dst := (regionOf s (cRreg c)).base + cRoff c
    let src := (regionOf s (cLreg c)).base + cLoff c
    let n := cX c
    let copied (a b n : Nat) (t : State) : Prop := (∀ j, j < n → readByte t (b + j) = readByte s (a + j)) ∧ SameBytesBut b n s t
    let apart (a b n : Nat) : Prop := a + n ≤ b ∨ b + n ≤ a
    let both : List Nat := [cLreg c, cRreg c]
    let sends (i : Instr) (left : Nat) (rs : List Nat) : Prop :=
      let m := letterMsg 4 (cRdev c) s.links.nextTid (BitVec.ofNat 2 (qClass (queueOf s c.q))) false { data := c.data, postmark := c.cpm }
      let out := (sendMsg m (newTid s).2).1
      (routeLeads out = true → Starts i c s { cmd := c, tid := some s.links.nextTid, left := left, regions := rs } (SameBytes s)) ∧
      (routeLeads out = false → Starts i c s { cmd := c, status := 9, regions := rs } (SameBytes s))
    (cMode c = 0 → NextCmd c 0 s → Starts (.nop q) c s { cmd := c } (SameBytes s)) ∧
    (cMode c = 0 → NextCmd c 1 s → here → n ≤ 2 ^ 30 → RctrFree c s →
      MayUse s c.q (cLreg c) (cLoff c) n needRead → MayUse s c.q (cRreg c) (cRoff c) n needWrite → apart src dst n → Clear s src n → Clear s dst n →
      Starts (.put q) c s { cmd := c, regions := both } (copied src dst n)) ∧
    (cMode c = 0 → NextCmd c 1 s → ¬here → n ≤ 2 ^ 30 → MayUse s c.q (cLreg c) (cLoff c) n needRead → Clear s src n → sends (.put q) 0 [cLreg c]) ∧
    (cMode c = 0 → NextCmd c 2 s → cLreg c < 9 → 0 < cLreg c → RctrFree c s →
      (here → MayUse s c.q (cRreg c) (cRoff c) (cLreg c) needWrite → Clear s dst (cLreg c) → Starts (.puti q) c s { cmd := c, regions := [cRreg c] }
        fun t => HoldsBytes t dst (cLreg c) (cX c) ∧ SameBytesBut dst (cLreg c) s t) ∧
      (¬here → sends (.puti q) 0 [])) ∧
    (cMode c = 0 → NextCmd c 3 s → n ≤ 2 ^ 30 → RctrFree c s → MayUse s c.q (cLreg c) (cLoff c) n needWrite →
      (here → MayUse s c.q (cRreg c) (cRoff c) n needRead → apart src dst n → Clear s src n → Clear s dst n →
        Starts (.get q) c s { cmd := c, regions := both } (copied dst src n)) ∧
      (¬here → sends (.get q) n [cLreg c])) ∧
    (cMode c = 0 → NextCmd c 4 s → cLreg c % 256 < 10 → cLreg c < 512 → cRoff c % amoSize c = 0 → RctrFree c s →
      (here → MayUse s c.q (cRreg c) (cRoff c) (amoSize c) needAmo → dst % amoSize c = 0 → Clear s dst (amoSize c) →
        let op := amoCode (natBits (cLreg c) 3 0)
        let old := BitVec.ofNat 64 (readNat s dst 8)
        let lo := BitVec.ofNat 32 (readNat s dst 4)
        (256 ≤ cLreg c → Starts (.amoCommand q) c s { cmd := c, value := old, regions := [cRreg c] } fun t =>
          HoldsBytes t dst 8 (amoOp op old (BitVec.ofNat 64 (cLoff c)) (BitVec.ofNat 64 n)).toNat ∧ SameBytesBut dst 8 s t) ∧
        (cLreg c < 256 → Starts (.amoCommand q) c s { cmd := c, value := lo.setWidth 64, regions := [cRreg c] } fun t =>
          HoldsBytes t dst 4 (amoOp op lo (BitVec.ofNat 32 (cLoff c)) (BitVec.ofNat 32 n)).toNat ∧ SameBytesBut dst 4 s t)) ∧
      (¬here → sends (.amoCommand q) 0 [])) ∧
    (cMode c = 0 → NextCmd c 5 s →
      (here → n ≤ 2 ^ 30 → MayUse s c.q (cLreg c) (cLoff c) n needRead → MayUse s c.q (cRreg c) (cRoff c) n needWrite → apart src dst n →
        Clear s src n → Clear s dst n → Starts (.copy q) c s { cmd := c, regions := both } (copied src dst n)) ∧
      (¬here → (∀ x ∈ (localUse s c.q (cLreg c) (cLoff c) n needRead).1 ++ (localUse s c.q (cRreg c) (cRoff c) n needWrite).1, x = 0) →
        Starts (.copy q) c s { cmd := c, status := 3 } (SameBytes s))) ∧
    (let k := cRctr c
      let x := BitVec.ofNat 64 n
      let allowed := granted s c.q 1 k = true ∧ sopDown s (k % 8) = false
      let quiet := ∀ e ∈ s.office.slots, ∀ y, e.2 = some y → y.ctr ≠ k
      let moved (v : Word64) (t : State) : Prop := ctrOf t k = v ∧ (∀ j, j ≠ k → ctrOf t j = ctrOf s j) ∧ SameBytes s t
      (cMode c = 0 → NextCmd c 8 s → here → allowed →
        (quiet → Starts (.ctradd q) c s { cmd := c } fun t => moved (ctrOf s k + x) t ∧ t.office.ready = s.office.ready ∧ t.office.slots = s.office.slots) ∧
        (∀ j y, s.office.slots = [(j, some y)] → y.ctr = k → y.thresh.toNat ≤ (ctrOf s k + x).toNat → Starts (.ctradd q) c s { cmd := c } fun t =>
          moved (ctrOf s k + x) t ∧ t.office.slots = [] ∧ t.office.ready = s.office.ready ++ [{ y.cmd with slot := some j, cpm := s.time.now }])) ∧
      (cMode c = 0 → NextCmd c 8 s → here → granted s c.q 1 k = false → Starts (.ctradd q) c s { cmd := c, status := 2 } (moved (ctrOf s k))) ∧
      (cMode c = 0 → NextCmd c 8 s → ¬here → sends (.ctradd q) 0 []) ∧
      (cMode c = 0 → NextCmd c 9 s → here → allowed → quiet → Starts (.ctrset q) c s { cmd := c } (moved x)) ∧
      (cMode c = 0 → NextCmd c 10 s → here → allowed → Starts (.ctrread q) c s { cmd := c, value := ctrOf s k, always := true } (moved (ctrOf s k)))) ∧
    (cMode c = 0 → NextCmd c 12 s → n < 2 ^ 18 → granted s c.q 0 n = true → sopDown s (n % 8) = false →
      (slotAt s n ≠ none → Starts (.trigcancel q) c s { cmd := c } fun t => slotAt t n = none ∧ (∀ j, j ≠ n → slotAt t j = slotAt s j) ∧ SameBytes s t) ∧
      (slotAt s n = none → Starts (.trigcancel q) c s { cmd := c, status := 7 } fun t => t.office.slots = s.office.slots ∧ SameBytes s t)) ∧
    (∀ k, cMode c = 0 → NextCmd c 16 s → here → n < 4096 → cLoff c % 8 = 0 → granted s c.q 2 n = true → (ctxOf s n).cfg = some k →
      sopDown s (n % 8) = false → MayUse s c.q (cLreg c) (cLoff c) (8 * xElems k) needRead → Clear s src (8 * xElems k) →
      let accs := ((ctxOf s n).accs.zip (wordsAt src s (xElems k))).map fun e => contribute (xRop k) e.1 e.2
      ((ctxOf s n).count + 1 < xExpect k → Starts (.contrib q) c s { cmd := c, regions := [cLreg c] } fun t =>
        ctxOf t n = { ctxOf s n with accs := accs, count := (ctxOf s n).count + 1 } ∧ (∀ j, j ≠ n → ctxOf t j = ctxOf s j) ∧ SameBytes s t) ∧
      (xExpect k ≤ (ctxOf s n).count + 1 → xFwd k = false → cFlag k fCpl = false → cFlag k fLctren = false →
        MayUse s k.q (cLreg k) (cLoff k) (8 * xElems k) needWrite → accs.length = xElems k →
        let out := (regionOf s (cLreg k)).base + cLoff k
        Clear s out (8 * xElems k) → Starts (.contrib q) c s { cmd := c, regions := [cLreg c] } fun t =>
          ctxOf t n = { cfg := some k, accs := List.replicate (xElems k) (accStart (xRop k)), round := (ctxOf s n).round + 1 } ∧
          (∀ j a, accs[j]? = some a → HoldsBytes t (out + 8 * j) 8 (accResult (xRop k) (xRm k) a).1) ∧ SameBytesBut out (8 * xElems k) s t)) ∧
    (cMode c = 0 → NextCmd c 16 s → ¬here → n < 4096 → cLoff c % 8 = 0 → MayUse s c.q (cLreg c) (cLoff c) 8 needRead → Clear s src 64 →
      sends (.contrib q) 0 [cLreg c]) ∧
    (cMode c = 0 → NextCmd c 17 s → natBits n 15 12 = 0 → n.testBit 23 = false → natBits n 31 28 = 0 → cRoff c < 4096 →
      granted s c.q 2 (xCtx c) = true → sopDown s (xCtx c % 8) = false →
      let only (k : Ctx) (t : State) : Prop := ctxOf t (xCtx c) = k ∧ (∀ j, j ≠ xCtx c → ctxOf t j = ctxOf s j) ∧ SameBytes s t
      ((ctxOf s (xCtx c)).count ≠ 0 → xRop c = 0 → Starts (.ctxset q) c s { cmd := c, status := 7 } (only (ctxOf s (xCtx c)))) ∧
      ((ctxOf s (xCtx c)).count = 0 → xRop c = 0 → Starts (.ctxset q) c s { cmd := c, quiet := true } (only {})) ∧
      ((ctxOf s (xCtx c)).count = 0 → 1 ≤ xRop c → xRop c < 12 → 1 ≤ xElems c → xElems c ≤ 8 → xExpect c ≠ 0 →
        (xFwd c = true ∨ MayUse s c.q (cLreg c) (cLoff c) (8 * xElems c) needWrite) →
        Starts (.ctxset q) c s { cmd := c, quiet := true }
          (only { cfg := some c, accs := List.replicate (xElems c) (accStart (xRop c)) }))) ∧
    (∀ l r, qKind (queueOf s c.q) = 2 → (queueOf s c.q).state = .active → sopDown s (c.q % 8) = false → (queueOf s c.q).burst = l :: r →
      c = { q := c.q, data := l.data, cpm := l.postmark } → cMode c = 1 → cb c 9 9 = 0 → cAslot c < 2 ^ 18 →
      granted s c.q 0 (cAslot c) = true → granted s c.q 1 (cActr c) = true → cAslot c % 8 = cActr c % 8 → sopDown s (cAslot c % 8) = false →
      let x : Slot := { cmd := { c with data := putFld c.data 191 64 0 }, ctr := cActr c, thresh := BitVec.ofNat 64 (cThresh c), order := s.office.armSeq }
      (slotAt s (cAslot c) ≠ none → Starts (.slotArm q) c s { cmd := c, status := 7 } fun t => t.office.slots = s.office.slots) ∧
      (slotAt s (cAslot c) = none → (ctrOf s (cActr c)).toNat < cThresh c → (∀ e ∈ s.office.slots, ∀ y, e.2 = some y → y.ctr ≠ cActr c) →
        Completes (.slotArm q) s fun t => (queueOf t c.q).burst = r ∧ slotAt t (cAslot c) = some x ∧
          (∀ j, j ≠ cAslot c → slotAt t j = slotAt s j) ∧ t.office.ready = s.office.ready ∧ t.office.cmds = s.office.cmds ∧ SameBytes s t) ∧
      (s.office.slots = [] → cThresh c ≤ (ctrOf s (cActr c)).toNat → Completes (.slotArm q) s fun t => (queueOf t c.q).burst = r ∧
        t.office.slots = [] ∧ t.office.ready = s.office.ready ++ [{ x.cmd with slot := some (cAslot c), cpm := s.time.now }])) ∧
    (∀ (k : Nat) (late : Bool) (r : Running), (s.office.cmds.filter fun y => y.cmd.q == q.val)[k]? = some r → r.cmd = c →
      cFlag c fRctren = false → cFlag c fLctren = false →
      let st := if r.tid.isSome then 9 else r.status
      let left := if r.tid.isSome then (s.office.cmds.replace r { r with status := 9, tid := none }).erase { r with status := 9, tid := none }
        else s.office.cmds.erase r
      let cq := cCplq c
      let y := queueOf s cq
      let l := completionLetter s c st (c.slot.isSome.toNat + 2 * r.poison.toNat) 0 (c.slot.getD 0) r.value.toNat c.cpm.toNat
      (r.tid.isSome = true → late = false → exec (.commandComplete q k late) s = .next s) ∧
      (r.tid = none → st = 0 → r.poison = false → r.always = false → cFlag c fCpl = false ∨ r.quiet = true →
        Completes (.commandComplete q k late) s fun t => t = { s with office := { s.office with cmds := left } }) ∧
      ((r.tid = none ∨ late = true) → (st ≠ 0 ∨ (cFlag c fCpl = true ∧ r.quiet = false)) → sendersOf s (65536 + q.val) = [] → s.office.running = true →
        s.power.mode ≠ .drain → sopDown s (cq % 8) = false → y.state = .active → qKind y ≠ 1 → y.spill = false → burstRoom s cq y = true →
        (qw y 0).getLsbD 19 = false → bellOn y = false → Completes (.commandComplete q k late) s fun t => t.office.cmds = left ∧
          (queueOf t cq).burst = y.burst ++ [{ l with data := stamp s cq l.data }] ∧ (∀ p, p ≠ cq → queueOf t p = queueOf s p) ∧ SameBytes s t))) ∧
  ∀ (f : Forward) (s : State),
    (f.srcDev = devNum s → f ∉ s.office.forwards → exec (.contextForward f) s = .next s) ∧
    (∀ c, f.srcDev ≠ devNum s → (ctxOf s f.dst).cfg = some c → srcMatches f.srcDev (cRreg c) (cRctr c) = true → xRop c = f.rop → xElems c = f.elems →
      (ctxOf s f.dst).count + 1 < xExpect c → Completes (.contextForward f) s fun t => SameBytes s t ∧
        (∀ j, j ≠ f.dst → ctxOf t j = ctxOf s j) ∧ ctxOf t f.dst = { ctxOf s f.dst with
          accs := ((ctxOf s f.dst).accs.zip f.accs).map fun e => mergeAcc f.rop e.1 e.2, count := (ctxOf s f.dst).count + 1 }) ∧
    (∀ c k, f.srcDev = devNum s → f ∈ s.office.forwards → f.dev = devNum s → (ctxOf s f.dst).cfg = some c → xRop c = f.rop → xElems c = f.elems →
      (ctxOf s f.dst).count + 1 < xExpect c → (ctxOf s f.src).cfg = some k → cFlag k fLctren = false → cFlag k fCpl = false →
      Completes (.contextForward f) s fun t => t.office.forwards = s.office.forwards.erase f ∧ SameBytes s t ∧
        (∀ j, j ≠ f.dst → ctxOf t j = ctxOf s j) ∧ ctxOf t f.dst = { ctxOf s f.dst with
          accs := ((ctxOf s f.dst).accs.zip f.accs).map fun e => mergeAcc f.rop e.1 e.2, count := (ctxOf s f.dst).count + 1 })

/-! ### Voxioz links (15) -/

/-- Frames, credits and routing (15 R376 to R390): a frame in order is taken with its acknowledgement, any other is answered by a replay; a flit marked
non-coherent from a coherent peer splits the pair; a returned credit frees what waits; an arriving message is taken once, here or sent on, its buffer
entry given back, or answered where it has no route; a lost port's messages go by another. -/
def Obligations.FramesCreditsAndMessages : Prop :=
  (∀ (s : State) (p : Fin 8) (fseq aseq : BitVec 8) (coh good ok : Bool) (n : Nat),
    let po := port s p.val
    let rest := framesAfter aseq po.retryBuf
    let fewer := rest.length < po.retryBuf.length
    let limit := fld (regAct s (vxBase p.val + 0x14)) 15 8
    let again := if fewer then 1 else po.retries + 1
    let i (k : BitVec 2) : Instr := .frameReceive p fseq aseq k coh good n ok
    let taken (k : BitVec 2) (x : Port) : Prop := Completes (i k) s (OnlyPort p.val x s)
    (po.state ≠ .up → ∀ k, exec (i k) s = .next s) ∧
    (po.state = .up → good = false ∨ fseq ≠ po.rxSeq + 1 → ∀ k, taken k { po with discarding := true, ackKind := 2 }) ∧
    (po.state = .up → good = true → fseq = po.rxSeq + 1 → po.join.state ≠ .coherent ∨ coh = true →
      let got := { po with rxSeq := fseq, discarding := false, ackKind := 1 }
      let acked := { got with retryBuf := rest, retries := if fewer then 0 else po.retries }
      let nacked := { got with retryBuf := rest, retries := again }
      let fails := nowNs s :: po.fastFails.filter fun x => decide (nowNs s < x + 1000000000)
      (∀ k, k ≠ 1 → k ≠ 2 → taken k got) ∧
      (po.sleepAgreed = false ∨ rest ≠ [] → taken 1 acked) ∧
      (po.sleepAgreed = true → rest = [] → s.links.waiting = [] → s.links.cohOut = [] →
        taken 1 { acked with pwr := .listen, sleepAgreed := false, sleepReq := false }) ∧
      (again < limit → taken 2 nacked) ∧
      (limit ≤ again → ok = true → taken 2 { nacked with pwr := .active, credits := [], retries := 0, sleepReq := false, sleepAgreed := false }) ∧
      (limit ≤ again → ok = false → fails.length < 3 → taken 2 { nacked with fastFails := fails }) ∧
      (limit ≤ again → ok = false → 3 ≤ fails.length → po.join.state = .non → s.links.waiting = [] → s.links.cohOut = [] →
        Completes (i 2) s fun t => (port t p.val).state = .out ∧ (∃ e ∈ t.resil.log, e.record.take 2 = bytesOfNat 0x201 2) ∧ SameBytes s t)) ∧
    (po.state = .up → good = true → fseq = po.rxSeq + 1 → po.join.state = .coherent → coh = false → po.sleepAgreed = false →
      -- no request of a home waits for the peer
      (∀ q ∈ s.mem.homeQ, ∀ x ∈ q.pending, x.1 ≠ devOwner po.join.peerSlot) →
      Completes (i 1) s fun t => (port t p.val).join.state = .fenced ∧ t.links.peers.getLsbD po.join.peerSlot = false ∧ Newest 0xD t ∧
        (∀ m ∈ t.links.cohOut, m.slot ≠ po.join.peerSlot) ∧ SameBytes s t)) ∧
  (∀ (s : State) (p : Fin 8) (vc : Fin 10) (n : Nat), let po := port s p.val
    (po.state ≠ .up → exec (.credit p vc n) s = .next s) ∧
    (po.state = .up → s.links.waiting = [] → s.links.cohOut = [] → Completes (.credit p vc n) s fun t =>
      OnlyPort p.val { po with credits := (port t p.val).credits } s t ∧
      ∀ v, creditsOf (port t p.val) v = if v = vc.val then min (creditInit v) (creditsOf po v + n) else creditsOf po v)) ∧
  (∀ (s : State) (n : Nat), (s.links.waiting[n]? = none → exec (.escapeWaitExpiry n) s = .next s) ∧
    ∀ m ep, s.links.waiting[n]? = some (8, m) → m.dst.toNat ≠ devNum s → m.hops < fld (actFor s m 0x4080000) 20 16 → m.esc = false →
      (routeEntry s m).getLsbD 3 = true → fld (routeEntry s m) 2 0 = ep →
      (∀ q, q < 8 → (routeEntry s m).getLsbD (8 + q) = true → canSend s q m = false) →
      canSend s ep { m with esc := true } = true → (port s ep).pwr ≠ .listen → Completes (.escapeWaitExpiry n) s fun t =>
        let vc := m.mc.toNat - 1 + 5
        t.links.waiting = s.links.waiting.eraseIdx n ∧
        (port t ep).retryBuf = (framed (port s ep) [{ m with esc := true, hops := m.hops + 1 }]).retryBuf ∧
        creditsOf (port t ep) vc = creditsOf (port s ep) vc - 1 ∧ (∀ q, q ≠ ep → port t q = port s q) ∧ SameBytes s t) ∧
  (∀ (s : State) (p : Fin 8) (m : Msg),
    let po := port s p.val
    let here := m.dst.toNat = devNum s
    let back := framed po [ctlMsg 0x80 (vcOf m * 256 + 1)]
    let kinds : List (Instr × Nat) := [(.letter p m, 1), (.letterAck p m, 2), (.letterNak p m, 3), (.command p m, 4), (.cmdResp p m, 5),
      (.cmdData p m, 6), (.cmdRdata p m, 7), (.resync p m, 8)]
    -- what the port injects here, its meter moved
    let x := injectMsg p m (latchWake wakeLink s)
    let r := route false x.1 x.2
    (∀ e ∈ kinds,
      (po.state ≠ .up ∨ po.discarding = true ∨ m.kind.toNat ≠ e.2 → exec e.1 s = .next s) ∧
      (po.state = .up → po.discarding = false → m.kind.toNat = e.2 → ¬here →
        (r.1 = .wait → Completes e.1 s fun t => t.links = { r.2.links with waiting := r.2.links.waiting ++ [(p.val, x.1)] } ∧
          t.office = s.office ∧ SameBytes s t) ∧
        (r.1 = .sent → Completes e.1 s fun t => t.links = (giveCredit p.val m r.2).links ∧ t.office = s.office ∧ SameBytes s t) ∧
        (r.1 = .loop ∨ r.1 = .unreachable →
          (e.2 ≠ 1 → e.2 ≠ 4 → Completes e.1 s fun t => t.links = (giveCredit p.val m r.2).links ∧ t.office = s.office ∧ SameBytes s t) ∧
          ∀ a : Msg, m.src.toNat ≠ devNum s →
            (e.2 = 1 ∧ a = { kind := 3, mc := 2, tc := m.tc, tid := m.tid, dst := m.src, kspec := 6 } ∨
              e.2 = 4 ∧ a = respMsg m.src.toNat m.tid m.tc 9 0 0) →
            Completes e.1 s fun t => t.links = (giveCredit p.val m (sendMsg { a with ordered := m.ordered } r.2).2).links ∧ t.office = s.office ∧
              SameBytes s t))) ∧
    (po.state = .up → po.discarding = false → here →
      (m.kind = 1 → s.office.running = true → s.power.mode ≠ .drain →
        let data := vecOfChunks m.chunks
        let q := fld data 15 0
        let x := queueOf s q
        sopDown s (q % 8) = false → x.state = .active → qKind x ≠ 1 → x.spill = false → burstRoom s q x = true → (qw x 0).getLsbD 19 = false →
        bellOn x = false → 2 ^ 40 ≤ nowNs s → nowNs s < 2 ^ 63 → Completes (.letter p m) s fun t => ∃ pm : Word64,
          (queueOf t q).burst = x.burst ++ [{ data := data, postmark := pm }] ∧ pm.setWidth 40 = m.kspec ∧ nowNs s ≤ pm.toNat + 2 ^ 39 ∧
          pm.toNat ≤ nowNs s + 2 ^ 39 ∧ SameBytes s t) ∧
      (m.kind = 2 → smWf senderDef s.office.senders = true → Completes (.letterAck p m) s fun t => port t p.val = back ∧ SameBytes s t ∧
        ∀ k, sendersOf t k = (sendersOf s k).filter fun x => !(x.tid == some m.tid && fld x.dest 31 16 == m.src.toNat)) ∧
      (∀ k sl, m.kind = 3 → letterOf m s = some (k, sl) →
        (fld m.kspec 7 0 = 0 → Completes (.letterNak p m) s fun t => port t p.val = back ∧ SameBytes s t ∧
          sendersOf t k = (sendersOf s k).replace sl { sl with tid := none, naked := true, attempts := sl.attempts + 1 }) ∧
        (fld m.kspec 7 0 ≠ 0 → sl.letter.data.getLsbD 52 = true → Completes (.letterNak p m) s fun t => port t p.val = back ∧ SameBytes s t ∧
          sendersOf t k = (sendersOf s k).erase sl)) ∧
      (m.kind = 4 → let c : Cmd := { q := 65536, data := vecOfChunks m.chunks, cpm := m.kspec.setWidth 64, tc := m.tc.toNat }
        let g := regionOf s (cRreg c)
        let pa := g.base + cRoff c
        let n := cLreg c
        (s.office.running = false → Completes (.command p m) s fun t => t.office = s.office ∧ SameBytes s t) ∧
        (s.office.running = true → (∀ x ∈ serveCodes s m.src.toNat c, x = 0) →
          (cOp c = 1 → cX c ≠ 0 → Completes (.command p m) s fun t => t.office = { s.office with serving := s.office.serving ++
            [{ src := m.src.toNat, tid := m.tid, cmd := c, left := cX c, region := cRreg c }] } ∧ port t p.val = back ∧ SameBytes s t) ∧
          (cOp c = 2 → 1 ≤ n → n ≤ 8 → cFlag c fRctren = false → Clear s pa n → Completes (.command p m) s fun t =>
            HoldsBytes t pa n (cX c) ∧ SameBytesBut pa n s t ∧ t.office = s.office) ∧
          (cOp c = 3 → cFlag c fRctren = false → Clear s pa (cX c) → Completes (.command p m) s fun t => t.office = s.office ∧ SameBytes s t) ∧
          (cOp c = 4 → cLreg c % 256 < 10 → 256 ≤ cLreg c → cLreg c < 512 → cRoff c % 8 = 0 → g.base % 4096 = 0 → cFlag c fRctren = false → Clear s pa 8 →
            Completes (.command p m) s fun t => HoldsBytes t pa 8 (amoOp (amoCode (natBits (cLreg c) 3 0)) (BitVec.ofNat 64 (readNat s pa 8))
              (BitVec.ofNat 64 (cLoff c)) (BitVec.ofNat 64 (cX c))).toNat ∧ SameBytesBut pa 8 s t ∧ t.office = s.office) ∧
          (cOp c = 8 → (∀ e ∈ s.office.slots, ∀ y, e.2 = some y → y.ctr ≠ cRctr c) → Completes (.command p m) s fun t =>
            ctrOf t (cRctr c) = ctrOf s (cRctr c) + BitVec.ofNat 64 (cX c) ∧ SameBytes s t))) ∧
      (∀ r, m.kind = 5 → (s.office.cmds.find? fun r => r.tid == some m.tid && cRdev r.cmd == m.src.toNat) = some r →
        let w := m.chunks.headD 0
        Completes (.cmdResp p m) s fun t => port t p.val = back ∧ SameBytes s t ∧ t.office.cmds = s.office.cmds.replace r
          { r with tid := none, status := if r.status = 0 then fld w 7 0 else r.status, poison := r.poison || w.getLsbD 9,
                   value := BitVec.ofNat 64 (fld w 127 64) }) ∧
      (∀ x, m.kind = 6 → (s.office.serving.find? fun x => x.src == m.src.toNat && x.tid == m.tid) = some x → cOp x.cmd = 1 → 64 < x.left →
        let pa := (regionOf s (cRreg x.cmd)).base + cRoff x.cmd + dataOff m
        dataMask m = 2 ^ 64 - 1 → dataPoison m = false →
        (pagesTaken s pa m = false → Clear s pa 64 → Completes (.cmdData p m) s fun t => HoldsBytes t pa 64 (dataVec m).toNat ∧
          SameBytesBut pa 64 s t ∧ port t p.val = back ∧ t.office.serving = s.office.serving.replace x { x with left := x.left - 64 }) ∧
        (pagesTaken s pa m = true → Completes (.cmdData p m) s fun t => SameBytes s t ∧ t.office.serving = s.office.serving.erase x)) ∧
      (∀ r, m.kind = 7 → (s.office.cmds.find? fun r => r.tid == some m.tid && cRdev r.cmd == m.src.toNat) = some r →
        let pa := (regionOf s (cLreg r.cmd)).base + cLoff r.cmd + dataOff m
        dataMask m = 2 ^ 64 - 1 → dataPoison m = false →
        (pagesTaken s pa m = false → Clear s pa 64 → Completes (.cmdRdata p m) s fun t => HoldsBytes t pa 64 (dataVec m).toNat ∧
          SameBytesBut pa 64 s t ∧ port t p.val = back ∧ t.office.cmds = s.office.cmds.replace r { r with left := r.left - 64 }) ∧
        (pagesTaken s pa m = true → Completes (.cmdRdata p m) s fun t => SameBytes s t ∧ port t p.val = back ∧
          t.office.cmds = s.office.cmds.replace r { r with left := r.left - 64, status := 2 })) ∧
      (∀ q : Fin 8, m.kind = 8 → q ≠ p → (port s q.val).state ≠ .up → (port s q.val).peerValid = true → (port s q.val).peerDev = m.src.toNat →
        (port s q.val).peerPort = fld m.kspec 10 8 → (∀ r, r < q.val → (port s r).peerValid = true → (port s r).peerDev ≠ m.src.toNat) →
        framesAfter (m.kspec.setWidth 8) (port s q.val).retryBuf = [] → Completes (.resync p m) s fun t => port t p.val = back ∧
          port t q.val = { port s q.val with retryBuf := [], resyncWait := false } ∧ SameBytes s t))) ∧
  ∀ (s : State) (p : Fin 8), let po := port s p.val
    (po.resyncWait = false → exec (.resyncTimeout p) s = .next s) ∧
    (po.resyncWait = true → (∀ f ∈ po.retryBuf, ∀ m ∈ f.msgs, m.mc = 0) →
      Completes (.resyncTimeout p) s (OnlyPort p.val { po with retryBuf := [], resyncWait := false } s))

/-- Training, lanes, link power and eye sweeps (15 R375, R384, R385, R391 to R395): a port trains to its widest lanes or counts a failed attempt; a failing
lane goes to the spare, or the port degrades, or leaves service; idle ports rest and wake; a sweep borrows the spare and returns it. A port that leaves
service ends its join (10 R266, R269). -/
def Obligations.PortsTrainRestAndSweep : Prop :=
  ∀ (s : State) (p : Fin 8) (w : Writer) (lane : Fin 5) (eyes : List Nat),
    let po := port s p
    let sp := BitVec.ofNat 5 (2 ^ po.spare)
    let bitOf (l : Nat) := BitVec.ofNat 5 (2 ^ l)
    let ln := bitOf lane.val
    let same (i : Instr) : Prop := exec i s = .next s
    let only (i : Instr) (x : Port) : Prop := Completes i s (OnlyPort p.val x s)
    let cmd (i : Instr) (off : Nat) (v : Word32) (x : Port) : Prop := Commands i w (vxBase p.val + off) v s (OnlyPort p.val x s)
    let ready := Reaches w 1 0 (vxBase p.val + 0x10) s ∧ Reaches w 1 0 (vxBase p.val + 0x100) s
    -- nothing waits to be sent by another port
    let quiet := s.links.waiting = [] ∧ s.links.cohOut = []
    let logged (k : Nat) (t : State) : Prop := ∃ e ∈ t.resil.log, e.record.take 2 = bytesOfNat k 2
    let goesOut (i : Instr) (k : Nat) : Prop := po.join.state = .non → quiet →
      Completes i s fun t => (port t p.val).state = .out ∧ logged k t ∧ SameBytes s t
    (∀ (ok : Bool) (usable : BitVec 5) (dev : BitVec 16) (ps : BitVec 2) (pp : BitVec 3) (major : BitVec 8),
      let caps : Instr := .caps p ok usable eyes dev ps pp major
      let ls := byEye eyes ((List.range 5).filter fun l => usable.getLsbD l && !po.bad.getLsbD l)
      let fit := ok = true ∧ major.toNat = fld (mainVer s 2) 31 24 ∧ 2 ≤ ls.length
      let trains := po.state = .training ∨ (po.state = .down ∧ s.power.mode = .calibrate)
      let data := ls.take (if 4 ≤ ls.length then 4 else 2)
      (¬trains → same caps) ∧
      (trains → fit → quiet → Completes caps s fun t => ∃ spare, spare < 5 ∧ (∀ l, ls[4]? = some l → spare = l) ∧
        OnlyPort p.val { po with state := .up, pwr := .active, attempts := 0, lanes := lanesMask data, spare := spare,
                                 spareUsed := decide (ls.length ≠ 5), degraded := decide (ls.length < 4), peerDev := dev.toNat, peerSlot := ps.toNat,
                                 peerPort := pp.toNat, peerValid := true, credits := [], retries := 0, discarding := false, resyncWait := false } s t ∧
        (ls.length < 4 → Newest 0x202 t) ∧ (4 ≤ ls.length → t.resil = s.resil)) ∧
      (trains → ¬fit →
        (po.attempts < 2 → only caps { po with attempts := po.attempts + 1, state := .training }) ∧ (2 ≤ po.attempts → goesOut caps 0x200))) ∧
    (let carries := po.state = .up ∧ po.lanes.getLsbD lane.val = true
      let ls (e : List Nat) := byEye e ((List.range 5).filter fun l => !(po.bad ||| ln).getLsbD l)
      let degrades (i : Instr) (e : List Nat) : Prop :=
        (po.degraded = true ∨ (ls e).length < 2 → goesOut i 0x201) ∧
        (po.degraded = false → 2 ≤ (ls e).length → Completes i s fun t => Newest 0x202 t ∧
          OnlyPort p.val { po with bad := po.bad ||| ln, degraded := true, lanes := lanesMask ((ls e).take 2) } s t)
      let fails (i : Instr) (e : List Nat) : Prop := carries → po.sweep.busy = false →
        let takes := (reg s (vxBase p.val + 0x14)).getLsbD 0 = true ∧ po.spareUsed = false ∧ po.degraded = false ∧ po.bad.getLsbD po.spare = false
        (takes → Completes i s fun t => Newest 0x203 t ∧ spareLeft t 8 = spareLeft s 8 - 1 ∧ OnlyPort p.val (framed
          { po with lanes := (po.lanes &&& ~~~ln) ||| sp, spareUsed := true, bad := po.bad ||| ln }
          [ctlMsg 0x87 (lane.val * 256 + (po.txSeq + 16).toNat)]) s t) ∧
        (¬takes → degrades i e)
      fails (.laneFailure p lane eyes) eyes ∧ (po.spareUsed = false → fails (.laneRetune p lane false) []) ∧
      (carries → po.sweep.busy = true → Completes (.laneFailure p lane eyes) s fun t => (port t p.val).sweep.busy = false ∧
        (port t p.val).sweep.incomplete = true ∧ (port t p.val).sweep.reason = 4) ∧
      same (.laneRetune p lane true) ∧ (po.spareUsed = true ∨ po.sweep.busy = true → same (.laneRetune p lane false)) ∧
      (¬carries → same (.laneFailure p lane eyes) ∧ same (.laneRetune p lane false) ∧ same (.laneSwap p lane false eyes)) ∧
      (carries → (po.spareUsed = false → only (.laneSwap p lane false eyes) { po with lanes := (po.lanes &&& ~~~ln) ||| sp, spareUsed := true }) ∧
        (po.spareUsed = true → degrades (.laneSwap p lane false eyes) eyes)) ∧
      (po.state = .up → po.bad.getLsbD lane.val = false →
        only (.laneSwap p lane true eyes) { po with lanes := (po.lanes &&& ~~~sp) ||| ln, spareUsed := false }) ∧
      (po.state ≠ .up ∨ po.bad.getLsbD lane.val = true → same (.laneSwap p lane true eyes))) ∧
    (po.state = .up → po.spareUsed = false → only (.spareLaneCheck p false) { po with bad := po.bad ||| sp }) ∧
    same (.spareLaneCheck p true) ∧ (po.state ≠ .up ∨ po.spareUsed = true → same (.spareLaneCheck p false)) ∧
    (let wants := s.power.mode = .deepDoze ∨ s.power.entering = true ∨ fld (regAct s (vxBase p.val + 0x18)) 31 16 ≠ 0
      let rests := po.state = .up ∧ heldActive s p.val = false
      let agrees (i : Instr) : Prop :=
        (po.retryBuf = [] → quiet → only i { po with pwr := .listen, sleepAgreed := false, sleepReq := false }) ∧
        (po.retryBuf ≠ [] → only i { po with sleepAgreed := true })
      (rests → po.pwr = .active → fld (regAct s (vxBase p.val + 0x18)) 15 0 ≠ 0 → only (.standbyIdleExpiry p) { po with pwr := .standby }) ∧
      (¬rests ∨ po.pwr ≠ .active ∨ fld (regAct s (vxBase p.val + 0x18)) 15 0 = 0 → same (.standbyIdleExpiry p)) ∧
      (rests → po.pwr ≠ .listen → wants → po.sleepReq = false → only (.listenIdleExpiry p) (framed { po with sleepReq := true } [ctlMsg 0x85 0])) ∧
      (¬rests ∨ po.pwr = .listen ∨ ¬wants ∨ po.sleepReq = true → same (.listenIdleExpiry p)) ∧
      (rests → po.pwr ≠ .listen → po.sleepReq = false → s.links.waiting = [] → only (.sleepReq p) { framed po [ctlMsg 0x86 0] with sleepAgreed := true }) ∧
      (po.state = .up → po.pwr ≠ .listen → po.sleepReq = true → agrees (.sleepReq p)) ∧
      (po.state ≠ .up ∨ po.pwr = .listen ∨ (po.sleepReq = false ∧ (heldActive s p.val = true ∨ s.links.waiting ≠ [])) → same (.sleepReq p)) ∧
      (po.state = .up → po.sleepReq = true → agrees (.sleepAck p)) ∧ (po.state ≠ .up ∨ po.sleepReq = false → same (.sleepAck p)) ∧
      (po.sleepAgreed = false → only (.sleepReqLapse p) { po with sleepReq := false }) ∧
      (po.sleepAgreed = true → only (.sleepReqLapse p) po) ∧
      (po.pwr = .listen → quiet → only (.wakeOrderedSet p) { po with pwr := .active, credits := [], retries := 0, sleepReq := false, sleepAgreed := false }) ∧
      (po.pwr ≠ .listen → same (.wakeOrderedSet p))) ∧
    (let w0 := po.sweep
      let back := if w0.swapped = true ∧ po.bad.getLsbD w0.lane = false then (po.lanes &&& ~~~sp) ||| bitOf w0.lane else po.lanes
      let stopped (r : Nat) : Port := { po with lanes := back, sweep := { w0 with busy := false, done := false, incomplete := true, reason := r, swapped := false } }
      let busySpare := po.spareUsed = true ∧ po.lanes.getLsbD lane.val = true
      (po.state ≠ .up → same (.sweepReq p lane)) ∧
      (po.state = .up →
        ((reg s (vxBase p.val + 0x104)).getLsbD 0 = true → ¬busySpare →
          only (.sweepReq p lane) (framed { po with sweep := { w0 with forPeer := true } } [ctlMsg 0x89 1])) ∧
        ((reg s (vxBase p.val + 0x104)).getLsbD 0 = false ∨ busySpare → only (.sweepReq p lane) (framed po [ctlMsg 0x89 0])) ∧
        (w0.busy = true →
          (po.lanes.getLsbD w0.lane = true →
            let x := { po with lanes := (po.lanes &&& ~~~(bitOf w0.lane)) ||| sp, sweep := { w0 with swapped := true } }
            only (.sweepAck p true) (framed x [ctlMsg 0x87 (w0.lane * 256 + (po.txSeq + 16).toNat)])) ∧
          (po.lanes.getLsbD w0.lane = false → same (.sweepAck p true)) ∧
          only (.sweepAck p false) (framed (stopped 2) [ctlMsg 0x8A 2]) ∧ only (.sweepPartnerSilent p) (framed (stopped 3) [ctlMsg 0x8A 3]) ∧
          only (.sweepEnd p) (framed { stopped 7 with sweep := { (stopped 7).sweep with forPeer := false } } [ctlMsg 0x8A 7]) ∧
          (ready → cmd (.sweepAbort w p 0) 0x100 0x20000000 (framed (stopped 5) [ctlMsg 0x8A 5])))) ∧
      (w0.busy = false → only (.sweepEnd p) { po with sweep := { w0 with forPeer := false } }) ∧
      (∀ r0 r1 r2, w0.busy = true → Completes (.sweepComplete p r0 r1 r2) s fun t =>
        let off := vxBase p.val + 0x110
        let x := { po with lanes := back, sweep := { w0 with busy := false, done := true, incomplete := false, reason := 0, swapped := false } }
        OnlyPort p.val (framed x [ctlMsg 0x8A 0]) s t ∧
        reg t off = r0 ∧ reg t (off + 4) = r1 ∧ reg t (off + 8) = r2 ∧ (∀ o, o < off ∨ off + 8 < o → reg t o = reg s o)) ∧
      (w0.busy = false → same (.sweepAck p true) ∧ same (.sweepAck p false) ∧ same (.sweepPartnerSilent p) ∧
        ∀ r0 r1 r2, same (.sweepComplete p r0 r1 r2)) ∧
      (ready →
        (po.state = .up → w0.busy = false → ¬busySpare → cmd (.sweepStart w p (BitVec.ofNat 28 lane.val)) 0x100
          (BitVec.ofNat 32 (0x10000000 + lane.val)) (framed { po with sweep := { busy := true, lane := lane.val, forPeer := w0.forPeer } }
            [ctlMsg 0x88 lane.val])) ∧
        (po.state = .up → w0.busy = true ∨ busySpare → Refuses (.sweepStart w p (BitVec.ofNat 28 lane.val)) s 7) ∧
        (po.state = .up → Refuses (.sweepStart w p 5) s 3) ∧ (po.state ≠ .up → Refuses (.sweepStart w p 0) s 14) ∧
        (w0.busy = false → cmd (.sweepAbort w p 0) 0x100 0x20000000 po))) ∧
    (let leaves (x : Option Writer) (E : State → Prop) : Prop := match x with
        | some w => Commands (.portOutOfService x p) w (vxBase p.val + 0x10) 0x20000000 s E
        | none => Completes (.portOutOfService x p) s E
      let gone (E : State → Prop) : Prop := leaves none E ∧ (ready → po.state ≠ .training → leaves (some w) E)
      (ready →
        (po.state = .training → Refuses (.portTrain w p) s 7 ∧ Refuses (.portRetrain w p) s 7 ∧ Refuses (.portOutOfService (some w) p) s 7) ∧
        (po.state ≠ .training → po.sweep.busy = false →
          cmd (.portTrain w p) 0x10 0x10000000 { po with state := .training, attempts := 0 } ∧
          cmd (.portRetrain w p) 0x10 0x30000000 { po with state := .training, attempts := 0 })) ∧
      (po.state = .out → same (.portOutOfService none p)) ∧
      (po.state ≠ .out → po.sweep.busy = false → quiet →
        (po.join.state = .non ∨ po.join.state = .fenced → gone fun t => (port t p.val).state = .out ∧ (port t p.val).degraded = false ∧
          (port t p.val).join = po.join ∧ ((port t p.val).resyncWait = true ↔ po.peerValid = true ∧ po.retryBuf ≠ []) ∧ SameBytes s t) ∧
        (po.join.state = .joining → gone fun t => (port t p.val).state = .out ∧ SameBytes s t ∧
          (port t p.val).join = { po.join with state := .non, reason := 9, tries := min 65535 (po.join.tries + 1) }) ∧
        (po.join.state = .coherent → (∃ q ∈ joinedWith s po.join.peerSlot, q ≠ p.val) → gone fun t => (port t p.val).state = .out ∧
          (port t p.val).join = { po.join with state := .non } ∧ t.links.peers = s.links.peers ∧ SameBytes s t) ∧
        (po.join.state = .coherent → (∀ q ∈ joinedWith s po.join.peerSlot, q = p.val) →
          (∀ q ∈ s.mem.homeQ, ∀ x ∈ q.pending, x.1 ≠ devOwner po.join.peerSlot) → gone fun t => (port t p.val).state = .out ∧
          (port t p.val).join.state = .fenced ∧ t.links.peers = s.links.peers &&& ~~~(BitVec.ofNat 4 (2 ^ po.join.peerSlot)) ∧ logged 0xD t)))

/-- Joined devices (10 R264 to R269) and system time on links (15 R397 to R400): digests and verdicts are exchanged and both decide; leaving or losing a
peer fences the pair until its split has finished, which takes back what the peer returns, poisons what it still owned and drops the copies of its
memory; a time exchange measures offset and delay, steers from the parent, and reports disagreement. -/
def Obligations.DevicesJoinSplitAndKeepTime : Prop :=
  ∀ (s : State) (p : Fin 8) (w : Writer),
    let po := port s p.val
    let j := po.join
    let off := vxBase p.val + 0xF000
    let same (i : Instr) : Prop := exec i s = .next s
    let only (i : Instr) (x : Port) : Prop := Completes i s (OnlyPort p.val x s)
    let ends (x : Join) (r : Nat) : Join := { x with state := .non, reason := r, tries := min 65535 (j.tries + 1), ownVerdict := none,
                                                     peerVerdict := none, fresh := false }
    let joins (x : Join) : Join := { x with state := .coherent, tries := 0, ownVerdict := none, peerVerdict := none, fresh := false }
    let bit := BitVec.ofNat 4 (2 ^ j.peerSlot)
    let chunks (d : List Byte) : List (BitVec 128) := (List.range 4).map fun i => BitVec.ofNat 128 (natOfBytes ((d.drop (16 * i)).take 16))
    (Reaches w 1 0 off s →
      (po.state ≠ .out → j.state = .non →
        let own := joinDigest s
        let r := joinReason s own j.peerDig
        let x : Join := { j with state := .joining, ownDig := own, ownVerdict := none, peerVerdict := none }
        let asked (x : Join) : Port := framed { po with join := x } [{ kind := 0x83, chunks := chunks own }]
        (j.fresh = false → Commands (.cohJoin w p 0) w off 1 s (OnlyPort p.val (asked x) s)) ∧
        (j.fresh = true → r = 0 → Commands (.cohJoin w p 0) w off 1 s (OnlyPort p.val (framed (asked { x with ownVerdict := some 0 }) [ctlMsg 0x84 0]) s)) ∧
        (j.fresh = true → r ≠ 0 → Commands (.cohJoin w p 0) w off 1 s (OnlyPort p.val (framed (asked (ends x r)) [ctlMsg 0x84 r]) s))) ∧
      (po.state ≠ .out → j.state = .coherent → Commands (.cohJoin w p 0) w off 1 s fun u => u = s) ∧
      (po.state ≠ .out → j.state = .joining ∨ j.state = .fenced → Refuses (.cohJoin w p 0) s 7 ∧ Refuses (.cohLeave w p 0) s 7) ∧
      (po.state = .out → Refuses (.cohJoin w p 0) s 14 ∧ Refuses (.cohLeave w p 0) s 14) ∧ (po.state ≠ .out → Refuses (.cohJoin w p 1) s 4) ∧
      (po.state ≠ .out → j.state = .coherent → (∀ q ∈ s.mem.homeQ, ∀ x ∈ q.pending, x.1 ≠ devOwner j.peerSlot) →
        Commands (.cohLeave w p 0) w off 2 s fun u => u.links.peers = s.links.peers &&& ~~~bit ∧
        u.links.cohOut = s.links.cohOut.filter (fun m => m.slot != j.peerSlot) ∧ SameBytes s u ∧
        ∀ q, q < 8 → (port u q).join.state = if (port s q).join.state = .coherent ∧ (port s q).join.peerSlot = j.peerSlot then .fenced
          else (port s q).join.state) ∧
      (po.state ≠ .out → j.state = .non → Commands (.cohLeave w p 0) w off 2 s fun u => u = s)) ∧
    (∀ d : List Byte, let got : Join := { j with peerDig := d, peerValid := true, fresh := true, peerSlot := digNat d 0 0 % 4 }
      let r := joinReason s j.ownDig d
      (po.state ≠ .up → same (.joinDigest p d)) ∧
      (po.state = .up → j.state = .non ∨ (j.state = .joining ∧ j.ownVerdict ≠ none) → only (.joinDigest p d) { po with join := got }) ∧
      (po.state = .up → j.state = .joining → j.ownVerdict = none →
        (r = 0 → j.peerVerdict = none → only (.joinDigest p d) (framed { po with join := { got with ownVerdict := some 0 } } [ctlMsg 0x84 0])) ∧
        (r ≠ 0 → only (.joinDigest p d) (framed { po with join := ends got r } [ctlMsg 0x84 r])) ∧
        (∀ v, r = 0 → j.peerVerdict = some v → v ≠ 0 → only (.joinDigest p d) (framed { po with join := ends got v } [ctlMsg 0x84 0])) ∧
        (r = 0 → j.peerVerdict = some 0 → Completes (.joinDigest p d) s fun t => (port t p.val).join = joins got ∧
          t.links.peers = s.links.peers ||| BitVec.ofNat 4 (2 ^ got.peerSlot) ∧ SameBytes s t))) ∧
    (let n := digNat j.ownDig 0 0
      -- the reasons of R265 that rest on this device's own state: a disagreement of time that lasts (R268), a third port of one pair (R262)
      ∀ d : List Byte, digNat d 0 0 ≠ n → joinReason s j.ownDig d = 0 →
        (∀ q, q < 8 → (port s q).timeOff = false) ∧ (joinedWith s (digNat d 0 0)).length < 2) ∧
    (∀ r : Fin 11,
      (po.state ≠ .up ∨ j.state ≠ .joining → same (.joinVerdict p r)) ∧
      (po.state = .up → j.state = .joining →
        (j.ownVerdict = none → only (.joinVerdict p r) { po with join := { j with peerVerdict := some r.val } }) ∧
        (j.ownVerdict = some 0 → r.val ≠ 0 → only (.joinVerdict p r) { po with join := ends j r.val }) ∧
        (j.ownVerdict = some 0 → r.val = 0 → Completes (.joinVerdict p r) s fun t => port t p.val = { po with join := joins j } ∧
          t.links.peers = s.links.peers ||| bit ∧ { t with links := { t.links with ports := s.links.ports, peers := s.links.peers } } = s))) ∧
    (j.state = .joining → only (.joinTimeout p) { po with join := ends j 9 }) ∧ (j.state ≠ .joining → same (.joinTimeout p)) ∧
    (∀ back, j.state ≠ .fenced → same (.splitComplete p back)) ∧
    (∀ back, j.state = .fenced → Completes (.splitComplete p back) s fun t =>
      (∀ q, q < 8 → (port t q).join.state = if (port s q).join.state = .fenced ∧ (port s q).join.peerSlot = j.peerSlot then .non else (port s q).join.state) ∧
      (∀ pc line q, placeOf (64 * line) = some q → q.slot = j.peerSlot →
        findLine (priv t pc).l2 line = none ∧ findLine (priv t pc).l1d line = none ∧ findLine (priv t pc).l1i line = none) ∧
      ∀ m, m ∈ t.links.returns ↔ m ∈ s.links.returns ∨ ∃ e ∈ s.mem.priv, ∃ x ∈ e.2.l2, ∃ l q, x.2 = some l ∧ placeOf (64 * l.line) = some q ∧
        q.slot = j.peerSlot ∧ (l.st = .m ∨ l.st = .o) ∧
        m = { slot := j.peerSlot, kind := .req .wb, line := l.line, tc := 2, data := some (l.stale.getD (readLine s l.line)) }) ∧
    (∀ h k d, h < 256 → j.state = .fenced → (slice s h).dir = [(k, some d)] → (∀ n, n ≠ h → (slice s n).dir = []) → d.proxy = false →
      d.owner = some (devOwner j.peerSlot) → d.sharers = 0 → d.devs &&& ~~~bit = 0 →
      (Completes (.splitComplete p []) s fun t => poisoned t d.line = true ∧ findDir t h d.line = none) ∧
      ∀ v : Vec, homeOf s d.line = h → k / 18 = l3Set d.line → Completes (.splitComplete p [(d.line, v)]) s fun t =>
        HoldsBytes t (64 * d.line) 64 v.toNat ∧ SameBytesBut (64 * d.line) 64 s t ∧ poisoned t d.line = false ∧ findDir t h d.line = none) ∧
    (po.state = .up → po.pwr ≠ .listen → only (.timeExchangeInterval p) (framed { po with t1 := (time256 s).toNat } [ctlMsg 0x81 0])) ∧
    (po.state ≠ .up ∨ po.pwr = .listen → same (.timeExchangeInterval p)) ∧ (po.state ≠ .up → same (.timeReq p)) ∧
    (po.state = .up → let t := ofInt64 (time256 s)
      let x : Nat × Nat × Int := if (regAct s 0x4080010).getLsbD 0 then (devNum s, 0, 0) else (s.links.rootDev, s.links.depth, s.links.offset)
      only (.timeReq p) (framed po [{ kind := 0x82, chunks := [BitVec.ofNat 128 (t * 2 ^ 64 + t),
        BitVec.ofNat 128 (x.1 + x.2.1 * 2 ^ 16 + ofInt64 x.2.2 * 2 ^ 64)] }])) ∧
    ∀ (t2 t3 : Nat) (root : BitVec 16) (depth : Nat) (ofs : Int),
      let i : Instr := .timeResp p t2 t3 root depth ofs
      let d1 : Int := t2 - po.t1
      let d2 : Int := time256 s - t3
      let th : Int := (d1 - d2 - (reg s (vxBase p.val + 0x204)).toInt * 256 / 1000) / 2
      -- within 20 ns, within 100 ns
      let near := -5120 ≤ th ∧ th ≤ 5120
      let close := -25600 ≤ th ∧ th ≤ 25600
      let po1 := { po with timeOff := decide (¬near) && (po.timeOff || decide (j.state = .coherent ∧ ¬close)) }
      let slew : Int := if th < 0 then -1000000000 else 1000000000
      let measured (t : State) : Prop := reg t (vxBase p.val + 0x208) = BitVec.ofInt 32 th ∧ reg t (vxBase p.val + 0x20C) = BitVec.ofInt 32 ((d1 + d2) / 2) ∧
        SameBytes s t
      (po.state ≠ .up → s.resil.contain = 0 → same i) ∧
      (s.resil.contain = 0 → po.state = .up → parentOf s ≠ some p.val →
        (root.toNat ≠ timeRootDev s → Completes i s fun t => measured t ∧ Newest 0x208 t ∧ port t p.val = po1 ∧ t.links.servo = s.links.servo) ∧
        (root.toNat = timeRootDev s →
          (close → Completes i s fun t => measured t ∧ port t p.val = { po1 with disagree := 0 } ∧ t.resil = s.resil) ∧
          (¬close → po.disagree ≠ 2 → Completes i s fun t => measured t ∧ port t p.val = { po1 with disagree := po.disagree + 1 } ∧ t.resil = s.resil) ∧
          (¬close → po.disagree = 2 →
            let follow := depth < timeDepth s ∨ (depth = timeDepth s ∧ po.peerDev < devNum s)
            (¬(j.state = .coherent ∧ follow) → Completes i s fun t => measured t ∧ port t p.val = { po1 with disagree := 0 } ∧ Newest 0x207 t ∧
              t.links.servo = s.links.servo ∧ t.links.tempParent = s.links.tempParent) ∧
            (j.state = .coherent → follow → Completes i s fun t => measured t ∧ port t p.val = { po1 with disagree := 0 } ∧ Newest 0x205 t ∧
              t.links.servo = .reslew ∧ t.links.tempParent = some p.val ∧ t.time.rate = slew)))) ∧
      (po.state = .up → parentOf s = some p.val →
        let told (t : State) : Prop := measured t ∧ t.links.depth = depth + 1 ∧ t.links.rootDev = root.toNat ∧ t.links.parentPort = p.val ∧
          t.links.offset = ofs - th / 256 ∧ port t p.val = po1
        let locks (t : State) : Prop := told t ∧ t.links.servo = .locked ∧ t.resil.log = s.resil.log ∧
          (near → t.links.tempParent ≠ some p.val) ∧ -10000000 ≤ t.time.rate ∧ t.time.rate ≤ 10000000 ∧ (th = 0 → t.time.rate = 0) ∧
          (0 < th → 0 ≤ t.time.rate) ∧ (th < 0 → t.time.rate ≤ 0)
        (s.resil.contain = 0 →
          (14 < depth → s.links.servo ≠ .holdover → Completes i s fun t => told t ∧ t.links.servo = .holdover ∧ Newest 0x206 t) ∧
          (depth ≤ 14 → s.links.servo = .locked ∨ s.links.servo = .holdover →
            (close ∨ s.links.overs = 0 → Completes i s locks) ∧
            (¬close → 1 ≤ s.links.overs → Completes i s fun t => told t ∧ t.links.servo = .reslew ∧ t.time.rate = slew ∧ Newest 0x205 t)) ∧
          (depth ≤ 14 → s.links.servo = .reslew ∨ (s.links.servo = .unsync ∧ s.time.started = true) →
            (near → Completes i s locks) ∧ (¬near → Completes i s fun t => told t ∧ t.links.servo = .reslew ∧ t.time.rate = slew)) ∧
          (depth ≤ 14 → s.links.servo = .unsync → s.time.started = false → Completes i s fun t => measured t ∧ t.links.servo = .locked ∧ t.time.rate = 0 ∧
            t.time.now = BitVec.ofInt 64 ((time256 s + th) / 256))) ∧
        (s.resil.contain = 8 → s.power.refPresent ≠ 0 → depth ≤ 14 → s.links.servo = .holdover → close → Completes i s fun t => t.links.servo = .locked ∧
          t.resil.contain = 0))

/-! ### Interrupts (17), system time and timers (18) -/

/-- Timers count, wrap, compare and capture (18 R444 to R449); starts, stops, resets and forced wraps act at once (R447); flags clear when read (R451);
system time is set before it starts (R437), snapped (R452) and given to SYNC_IN and SYNC_OUT (R440 to R442). -/
def Obligations.TimersCountCaptureAndKeepTime : Prop :=
  (∀ (s : State) (t : Fin 64) (n : Nat) (w : Writer),
    let x := timer s t.val
    let c := x.cnt.toNat
    let per := tPeriod s t.val
    let cmp := tCmp s t.val
    let off := 0x300040 + 4 * (t.val / 32)
    let bit := 1#32 <<< (t.val % 32)
    let others (u : State) : Prop := ∀ j, j ≠ t.val → timer u j = timer s j
    (1 ≤ n → tRun s t.val = true → tMode s t.val ≠ 4 → c + n < per → Completes (.timerTick t n) s fun u =>
      (timer u t.val).cnt.toNat = c + n ∧ (timer u t.val).flags = (if c < cmp ∧ cmp ≤ c + n then x.flags ||| 2 else x.flags) ∧
      (timer u t.val).presc = 0 ∧ others u ∧ SameBytes s u) ∧
    (tRun s t.val = false → exec (.timerTick t n) s = .next s ∧ exec (.timerWrap t) s = .next s) ∧
    (tRun s t.val = true → c + 1 = per → Completes (.timerWrap t) s fun u => (timer u t.val).cnt = 0 ∧ (timer u t.val).flags.getLsbD 0 = true ∧
      (tRun u t.val = !tCfgBit s t.val 4) ∧ ((reg s (0x301034 + 64 * t.val)).getLsbD 0 = true → lineHigh u t.val = true) ∧ others u ∧ SameBytes s u) ∧
    (c + 1 < per → exec (.timerWrap t) s = .next s) ∧
    (Reaches w 1 0 off s →
      (tRun s t.val = false → Commands (.timerStart w t) w off (reg s off ||| bit) s fun u => tRun u t.val = true ∧
        (∀ j, j < 64 → j ≠ t.val → tRun u j = tRun s j) ∧ timer u t.val = { x with presc := 0 } ∧ others u ∧ ∀ o, o ≠ off → reg u o = reg s o) ∧
      (tRun s t.val = true → Commands (.timerStop w t) w off (reg s off &&& ~~~bit) s fun u => tRun u t.val = false ∧
        (∀ j, j < 64 → j ≠ t.val → tRun u j = tRun s j) ∧ u.time = s.time ∧ ∀ o, o ≠ off → reg u o = reg s o)) ∧
    (Reaches w 1 0 0x300020 s →
      (Commands (.resetEvent w t) w 0x300020 (BitVec.ofNat 32 (2 ^ 28 + t.val)) s fun u => timer u t.val = { x with cnt := 0, presc := 0 } ∧ others u ∧
        { u with time := { u.time with timers := s.time.timers, evPulse := s.time.evPulse } } = s) ∧
      (Commands (.forcedWrap w t) w 0x300020 (BitVec.ofNat 32 (2 ^ 29 + t.val)) s fun u => timer u t.val = { x with cnt := 0, presc := 0, flags := x.flags ||| 1 } ∧
        (tRun u t.val = (tRun s t.val && !tCfgBit s t.val 4)) ∧ others u ∧ SameBytes s u)) ∧
    (Answers w 1 0 (0x301030 + 64 * t.val) s → ReadsToClear (.tmrFlagsRead w t) w s (x.flags.setWidth 64) fun u => timer u t.val = { x with flags := 0 } ∧
      lineHigh u t.val = false ∧ others u ∧ SameBytes s u)) ∧
  (∀ (s : State) (w : Writer),
    (Answers w 1 0 0x300054 s → ReadsToClear (.tmrSyncFlagsRead w) w s (s.time.syncFlags.setWidth 64) fun u => u.time = { s.time with syncFlags := 0 } ∧
      lineHigh u 152 = false ∧ SameBytes s u) ∧
    (Reaches w 1 0 0x300010 s → Commands (.tmrSnap w) w 0x300010 1 s fun u => u.time.snapTime = s.time.now ∧
      ∀ j, timer u j = { timer s j with hold := (timer s j).cnt }) ∧
    (∀ v : Word64, Reaches w 2 0 0x300008 s → Reaches w 2 0 0x30000C s →
      (s.time.started = false → Completes (.timeSet w v) s fun u => u.ans.status = 0 ∧ u.time = { s.time with now := v, frac := 0 } ∧
        { u with ans := s.ans, time := s.time, ctl := { u.ctl with ledger := s.ctl.ledger, heldLo := s.ctl.heldLo } } = s) ∧
      (s.time.started = true → Completes (.timeSet w v) s fun u => u.ans.status = 6 ∧ u.time = s.time)) ∧
    exec (.syncInEdge s.time.syncIn) s = .next s ∧
    (∀ high, s.time.syncIn ≠ high → ppsRoot s = false → Completes (.syncInEdge high) s fun u => u.time.syncIn = high ∧ SameBytes s u ∧
      u.time.syncFlags = (if s.time.syncFlags.getLsbD (if high then 0 else 1) then s.time.syncFlags ||| 4
        else s.time.syncFlags ||| (if high then 1 else 2)) ∧
      (s.time.syncFlags.getLsbD (if high then 0 else 1) = false → (if high then u.time.syncRise else u.time.syncFall) = s.time.now)) ∧
    (s.time.syncLock = true → ppsRoot s = true → Completes (.syncLost) s fun u => u.links.servo = .holdover ∧
      u.time = { s.time with syncLock := false, syncErrs := [] } ∧ Newest 0x209 u ∧ SameBytes s u) ∧
    (s.time.syncLock = false ∨ ppsRoot s = false → exec .syncLost s = .next s) ∧
    ((reg s 0x300050).getLsbD 0 = true → 1000000000 ≤ nowNs s → Completes .syncOutPulse s fun u => u = { s with time := { s.time with
      syncOut := true, syncOutUntil := nowNs s / 1000000000 * 1000000000 + 1000 * fld (reg s 0x300050) 23 8 } }) ∧
    ((reg s 0x300050).getLsbD 0 = false → exec .syncOutPulse s = .next s) ∧
    ∀ (n : Fin 16) (high : Bool),
      (s.time.tins.getLsbD n.val = high → exec (.timerInputEdge n high) s = .next s) ∧
      (s.time.tins.getLsbD n.val ≠ high → Completes (.timerInputEdge n high) s fun u => SameBytes s u ∧
        (∀ b, b < 16 → u.time.tins.getLsbD b = if b = n.val then high else s.time.tins.getLsbD b) ∧
        ∀ t, t < 64 → tMode s t = 0 → fld (reg s (tReg t 0)) 22 16 = 64 + n.val → tCfgBit s t 5 = false → (timer s t).flags.getLsbD 2 = false →
          (timer s t).capIn = false → high = true → (timer u t).capRise = (timer s t).cnt ∧ (timer u t).flags.getLsbD 2 = true))

/-- The interrupt controller (17 R420 to R430): an edge or a message makes a source pending, a claim by the core selected for it returns the highest
priority and pushes it, a completion takes the top entry off; a wrong completion changes nothing here. -/
def Obligations.InterruptsAreRaisedClaimedAndCompleted : Prop :=
  (∀ (s : State) (src : Fin 256) (high : Bool), Completes (.wiredSourceEdge src high) s fun u => lineHigh u src.val = high ∧
    (∀ n, n ≠ src.val → lineHigh u n = lineHigh s n ∧ smGet boolDef u.intc.pend n = smGet boolDef s.intc.pend n) ∧
    smGet boolDef u.intc.pend src.val = (smGet boolDef s.intc.pend src.val || (high && !lineHigh s src.val && !isLevel s src.val)) ∧
    { u with intc := { u.intc with lines := s.intc.lines, pend := s.intc.pend } } = s) ∧
  (∀ (s : State) (w : Writer) (v : Word32),
    let only (u : State) (b : Bool) : Prop := (∀ n, smGet boolDef u.intc.pend n = if n = v.toNat then b else smGet boolDef s.intc.pend n) ∧
      { u with intc := { u.intc with pend := s.intc.pend } } = s
    (Reaches w 1 0 0x400010 s → (256 ≤ v.toNat → v.toNat < 8192 → Commands (.icRaise w v) w 0x400010 v s fun u => only u true) ∧
      (v.toNat < 256 → Refuses (.icRaise w v) s 3) ∧ (8192 ≤ v.toNat → Refuses (.icRaise w v) s 4)) ∧
    (Reaches w 1 0 0x400014 s → (v.toNat < 8192 → Commands (.icUnraise w v) w 0x400014 v s fun u => only u false) ∧
      (8192 ≤ v.toNat → Refuses (.icUnraise w v) s 4))) ∧
  (∀ (s : State) (lc : LC), Answers (.core lc) 1 0 0x400100 s →
    (claimable s lc.val = none → ∃ u, Reads (.icClaim (.core lc)) s u 0 0x80000000 ∧ u.intc = s.intc) ∧
    ∀ src, claimable s lc.val = some src → src < 8192 → ∃ u, Reads (.icClaim (.core lc)) s u 0 (BitVec.ofNat 64 (srcPrio s src * 65536 + src)) ∧
      isActive u src = true ∧ smGet boolDef u.intc.pend src = false ∧ icStack u lc.val = { source := src, prio := srcPrio s src } :: icStack s lc.val ∧
      (∀ n, n ≠ lc.val → icStack u n = icStack s n) ∧ (∀ n, n ≠ src → isActive u n = isActive s n) ∧ u.cores = s.cores ∧
      selectedCore s src = some lc.val ∧ (∀ n, n ∈ liveSources s → selectedCore s n = some lc.val → srcPrio s n ≤ srcPrio s src)) ∧
  ∀ (s : State) (lc : LC) (v : Word32), Reaches (.core lc) 1 0 0x400104 s → v.toNat < 8192 →
    (∀ e rest, icStack s lc.val = e :: rest → e.source = v.toNat → Commands (.icComplete (.core lc) v) (.core lc) 0x400104 v s fun u =>
      icStack u lc.val = rest ∧ isActive u v.toNat = false ∧ (∀ n, n ≠ lc.val → icStack u n = icStack s n) ∧
      (∀ n, n ≠ v.toNat → isActive u n = isActive s n) ∧
      { u with intc := { u.intc with icStacks := s.intc.icStacks, act := s.intc.act, claimedBy := s.intc.claimedBy } } = s) ∧
    ((∀ e rest, icStack s lc.val = e :: rest → e.source ≠ v.toNat) → Completes (.icComplete (.core lc) v) s fun u => u.ans.status = 11 ∧
      (coreRuns s lc.val = false → u.cores = s.cores ∧ u.intc = s.intc))

/-! ### PCI Express (16) -/

/-- Requests from below (16 R405, R408 to R412): translated by the requester's context and its cached slot, performed with far atomics, answered; refused
without rights as Unsupported Request, a posted write discarded; a message raises an allowed source; a page request reaches its queue and its answer
goes back. -/
def Obligations.DevicesBelowReadWriteAndRaise : Prop :=
  (∀ (s : State) (j : Fin 12) (rid : BitVec 16) (iova : Word64) (c : DevCtx) (rest : List DevCtx) (x : IoSlot) (xs : List IoSlot) (tr : Bool) (op : DmaOp),
    subLive s j.val = true → s.pcie.ctxs = c :: rest → c.rid = rid.toNat → ioslots s (j.val / 4) = x :: xs → x.tag = c.tag → iova.toNat < 2 ^ 47 →
    x.iova ≤ iova.toNat → iova.toNat < x.iova + x.size → x.a = true → x.d = true → iova.toNat / 4096 * 4096 ≠ msiPage s →
    let n := dmaLen op
    let pa := if tr then iova.toNat else x.pa + (iova.toNat - x.iova)
    let i (op : DmaOp) : Instr := .dmaRequest j rid iova op false tr
    let passes := regionOk s pa .dma = true ∧ ownerCode s pa = 0 ∧ pa < mmioBase ∧ (tr = true → c.ats = true)
    (passes → dmaSizeOk iova.toNat op = true → Clear s pa n →
      (∀ k, op = .read k → x.rd = true → Completes (i op) s fun t => t.ans = { status := 0, value := 0, bytes := readBytes s pa k } ∧ SameBytes s t) ∧
      (∀ bs, op = .write bs → x.wr = true → Completes (i op) s fun t => t.ans.status = 0 ∧ (∀ k, k < n → readByte t (pa + k) = bs.getD k 0) ∧
        SameBytesBut pa n s t) ∧
      (∀ bs, op = .write bs → x.wr = true → Completes (.dmaRequest j rid iova op true tr) s fun t => (∀ k, k < n → readByte t (pa + k) = bs.getD k 0) ∧
        SameBytesBut pa n s t ∧ ∀ k, k < n → readsPoison t (lineOf (pa + k)) = true) ∧
      (∀ o wide a b, op = .atomic o wide a b → x.rd = true → x.wr = true → pa % n = 0 →
        let w := 8 * n
        let old : BitVec w := BitVec.ofNat w (readNat s pa n)
        let new : BitVec w := if o = 0 then old + a.setWidth w else if o = 1 then a.setWidth w else if old = a.setWidth w then b.setWidth w else old
        Completes (i op) s fun t => t.ans = { status := 0, value := 0, bytes := bytesOfNat old.toNat n } ∧ HoldsBytes t pa n new.toNat ∧
          SameBytesBut pa n s t)) ∧
    (∀ sl off k, op = .read k → dmaSizeOk iova.toNat op = true → placeOf pa = some ⟨.mmio, sl, off⟩ → regionOk s pa .dma = true → ownerCode s pa = 0 →
      x.rd = true → c.ats = true → (reg s 0x4800110).getLsbD 31 = false →
      (c.p2p = true → sl = slotOf s → Completes (i op) s fun t => t.pcie.sent = s.pcie.sent ++ [.peer off op] ∧ t.ans.status = 0 ∧ SameBytes s t) ∧
      (c.p2p = false ∨ sl ≠ slotOf s → Completes (i op) s fun t => t.ans.status = 1 ∧ t.pcie.sent = s.pcie.sent ∧ SameBytes s t)) ∧
    (tr = false → regionOk s pa .dma = true → (reg s 0x4800110).getLsbD 31 = false →
      (∀ bs, op = .write bs → dmaSizeOk iova.toNat op = true → x.wr = false → Completes (i op) s fun t => t.ans = s.ans ∧ SameBytes s t) ∧
      (∀ k, op = .read k → dmaSizeOk iova.toNat op = true → x.rd = false → Completes (i op) s fun t => t.ans.status = 1 ∧ SameBytes s t)) ∧
    (Completes (i .unsupported) s fun t => t.ans.status = 1 ∧ { t with ans := s.ans } = s) ∧
    (regionOk s (x.pa + (iova.toNat - x.iova)) .dma = true → ownerCode s (x.pa + (iova.toNat - x.iova)) = 0 →
      x.pa + (iova.toNat - x.iova) < mmioBase → c.ats = true → Completes (.translationRequest j rid iova) s fun t =>
        let sz := min x.size 0x200000
        t.ans.status = 0 ∧ t.ans.value = BitVec.ofNat 64 ((x.pa + (iova.toNat - x.iova)) / sz * sz + x.rd.toNat + 2 * x.wr.toNat) ∧
        t.ans.bytes = bytesOfNat sz 8 ∧ SameBytes s t) ∧
    (c.ats = false → (reg s 0x4800110).getLsbD 31 = false → Completes (.translationRequest j rid iova) s fun t => t.ans.status = 1 ∧ SameBytes s t)) ∧
  (∀ (s : State) (j : Fin 12) (rid : BitVec 16) (op : DmaOp) (iova : Word64) (rd wr last : Bool) (prgi : BitVec 9) (off : BitVec 12) (bs : List Byte),
    (subLive s j.val = false → (∀ tr, exec (.dmaRequest j rid iova op false tr) s = .next s) ∧ exec (.translationRequest j rid iova) s = .next s ∧
      exec (.pageRequest j rid iova rd wr last prgi) s = .next s ∧ exec (.msiMessage j rid off bs) s = .next s) ∧
    ∀ c rest, subLive s j.val = true → s.pcie.ctxs = c :: rest → c.rid = rid.toNat →
      let v := natOfBytes bs
      let ok := bs.length = 4 ∧ v < 8192 ∧ c.msiBase ≤ v ∧ v < c.msiBase + c.msiCount ∧ 256 ≤ v
      (msiPage s % 4096 = 0 → 0 < bs.length → bs.length ≤ 512 → off.toNat + bs.length ≤ 4096 →
        (ok → Completes (.msiMessage j rid off bs) s fun t => (∀ n, smGet boolDef t.intc.pend n = if n = v then true else smGet boolDef s.intc.pend n) ∧
          SameBytes s t) ∧
        (¬ok → (reg s 0x4800110).getLsbD 31 = false → Completes (.msiMessage j rid off bs) s fun t => t.intc = s.intc ∧ SameBytes s t)) ∧
      let out := ((List.range 4).map fun k => (subOf s (j.val / 4 * 4 + k)).prgOut.length).foldl (· + ·) 0
      let q := c.priq
      let y := queueOf s q
      (c.pri = true → out < 512 → sendersOf s (131072 + j.val / 4) = [] → s.office.running = true → s.power.mode ≠ .drain → q < 65536 →
        sopDown s (q % 8) = false → y.state = .active → qKind y ≠ 1 → y.spill = false → burstRoom s q y = true → (qw y 0).getLsbD 19 = false →
        bellOn y = false → Completes (.pageRequest j rid iova rd wr last prgi) s fun t => SameBytes s t ∧
          (subOf t j.val).prgOut = (subOf s j.val).prgOut ++ [(rid.toNat, prgi.toNat)] ∧ ∃ l, (queueOf t q).burst = y.burst ++ [l] ∧
            fld l.data 71 64 = 1 ∧ fld l.data 79 72 = 0 ∧ fld l.data 95 80 = rid.toNat ∧ fld l.data 103 96 = j.val ∧
            fld l.data 111 104 = rd.toNat + 2 * wr.toNat + 4 * last.toNat ∧ fld l.data 127 112 = prgi.toNat ∧
            fld l.data 191 128 = iova.toNat / 4096 * 4096) ∧
      (c.pri = false ∨ 512 ≤ out → (reg s 0x4800110).getLsbD 31 = false → Completes (.pageRequest j rid iova rd wr last prgi) s fun t =>
        t.pcie.subs = s.pcie.subs ∧ t.office = s.office ∧ SameBytes s t)) ∧
  ∀ (s : State) (w : Writer) (v : Word32), Reaches w 1 0 0x4800130 s → fld v 27 25 = 0 →
    let g := (fld v 15 0, fld v 24 16)
    let code := fld v 31 28
    let good := code = 0 ∨ code = 1 ∨ code = 15
    (¬good → Refuses (.pciePrgResp w v) s 3) ∧
    (good → (∀ j, j < 12 → g ∉ (subOf s j).prgOut) → Commands (.pciePrgResp w v) w 0x4800130 v s fun u => u = s) ∧
    ∀ j, j < 12 → good → subLive s j = true → g ∈ (subOf s j).prgOut → (∀ k, k < j → g ∉ (subOf s k).prgOut) →
      Commands (.pciePrgResp w v) w 0x4800130 v s fun u => u.pcie.sent = s.pcie.sent ++ [.prgResp g.1 g.2 code] ∧
        (subOf u j).prgOut = (subOf s j).prgOut.filter (fun e => e != g) ∧ (∀ k, k ≠ j → subOf u k = subOf s k) ∧ SameBytes s u

/-- Root ports, invalidation and containment (16 R404, R407, R413 to R417): ports start and stop; an invalidation removes what it names and is done once
its endpoints have answered; a contained or removed sub-port passes nothing, and what waits below it answers all ones. -/
def Obligations.RootPortsInvalidateAndContain : Prop :=
  (∀ (s : State) (w : Writer) (n : Fin 4), Reaches w 1 0 0x4800004 s →
    (n.val < 3 → peRunning s n.val = false → Commands (.pciePortStart w n) w 0x4800004 (BitVec.ofNat 32 (2 ^ 28 + n.val)) s fun u =>
      peRunning u n.val = true ∧ (∀ k, k ≠ n.val → peRunning u k = peRunning s k) ∧
      (∀ j, subOf u j = if j ∈ subsOf s n.val then { subOf s j with dpc := false, linkUp := (subOf s j).present } else subOf s j) ∧ SameBytes s u) ∧
    (n.val < 3 → peRunning s n.val = true → (∀ e ∈ s.cores, e.2.mmioWait = false) → Completes (.pciePortStop w n) s fun t => t.ans.status = 0 ∧ peRunning t n.val = false ∧
      ∀ j ∈ subsOf s n.val, (subOf t j).linkUp = false ∧ (subOf t j).dpc = true ∧ (subOf t j).prgOut = []) ∧
    (n.val = 3 → Refuses (.pciePortStart w n) s 3 ∧ ((∀ e ∈ s.cores, e.2.mmioWait = false) → Refuses (.pciePortStop w n) s 3))) ∧
  (∀ (s : State) (w : Writer) (id : BitVec 16), Reaches w 1 0 0x4800128 s → smWf ioslotsDef s.pcie.iotlb = true →
    let k := writerKey w
    let iova := fld (bankReg s 0x4800120 k) 31 12 * 4096 + (bankReg s 0x4800124 k).toNat * 2 ^ 32
    let free := (s.pcie.invs.filter fun x => x.by_ == k).length < 16
    let does (i : Instr) (kind : Nat) (cover : DevCtx → Bool) (keep : IoSlot → Bool) : Prop :=
      Commands i w 0x4800128 (BitVec.ofNat 32 (kind * 2 ^ 28 + id.toNat)) s fun u =>
        let ask := (s.pcie.ctxs.filter fun c => cover c && c.ats && subLive s c.sub).map (·.rid)
        (∀ n, ioslots u n = (ioslots s n).filter keep) ∧ u.pcie.invs = s.pcie.invs ++ [{ by_ := k, waiting := ask }] ∧
        invIssued u k = invIssued s k + 1 ∧ u.pcie.sent = s.pcie.sent ++ ask.map PcieOut.atsInv ∧
        u.pcie.ctxs = (if kind = 4 then s.pcie.ctxs.filter fun c => c.rid != id.toNat else s.pcie.ctxs) ∧ { u with pcie := s.pcie } = s
    (free → does (.iotuInvPage w id) 1 (fun c => c.tag == id.toNat) (fun x => !decide (x.tag = id.toNat ∧ x.iova ≤ iova ∧ iova < x.iova + x.size)) ∧
      does (.iotuInvTag w id) 2 (fun c => c.tag == id.toNat) (fun x => x.tag != id.toNat) ∧
      (id = 0 → does (.iotuInvAll w id) 3 (fun _ => true) (fun _ => false)) ∧ does (.iotuInvDevice w id) 4 (fun c => c.rid == id.toNat) (fun _ => true)) ∧
    (id ≠ 0 → Refuses (.iotuInvAll w id) s 3) ∧ (¬free → Refuses (.iotuInvPage w id) s 7 ∧ Refuses (.iotuInvDevice w id) s 7)) ∧
  (∀ (s : State) (rid : BitVec 16) (x : IoInv) (rest : List IoInv), s.pcie.invs = x :: rest →
    (rid.toNat ∈ x.waiting → Completes (.invalidateCompletion rid) s fun t => t.pcie.invs = { x with waiting := x.waiting.erase rid.toNat } :: rest ∧
      { t with pcie := { t.pcie with invs := s.pcie.invs } } = s) ∧
    (x.waiting = [] → Completes .iotuInvalidationDone s fun t => t.pcie.invs = rest ∧ invDone t x.by_ = invDone s x.by_ + 1 ∧
      (∀ k, k ≠ x.by_ → invDone t k = invDone s k) ∧ { t with pcie := { t.pcie with invs := s.pcie.invs, done := s.pcie.done } } = s) ∧
    (x.waiting ≠ [] → exec .iotuInvalidationDone s = .next s)) ∧
  (∀ (s : State) (j : Fin 12) (surprise : Bool), let y := subOf s j.val
    (subExists s j.val = false → exec (.hotAdd j) s = .next s) ∧
    (subExists s j.val = true → isLevel s (96 + 4 * j.val) = false → lineHigh s (96 + 4 * j.val) = false → Completes (.hotAdd j) s fun t =>
      subOf t j.val = { y with present := true, linkUp := peRunning s (j.val / 4) && !y.dpc } ∧ smGet boolDef t.intc.pend (96 + 4 * j.val) = true ∧
      (∀ k, k ≠ j.val → subOf t k = subOf s k) ∧ SameBytes s t) ∧
    ((∀ e ∈ s.cores, e.2.mmioWait = false) →
      (subExists s j.val = true → Completes (.dpcTrigger j surprise) s fun t =>
        subOf t j.val = { y with linkUp := false, dpc := true, present := y.present && !surprise, prgOut := [] } ∧
        (∀ k, k ≠ j.val → subOf t k = subOf s k) ∧ t.cores = s.cores ∧ SameBytes s t) ∧
      (∀ (rid : BitVec 16) (c : DevCtx) (rest : List DevCtx), s.pcie.ctxs = c :: rest → c.rid = rid.toNat → c.sub = j.val → subExists s j.val = true →
        (reg s 0x4800110).getLsbD 31 = false →
        ((∃ x ∈ s.pcie.invs, rid.toNat ∈ x.waiting) → Completes (.atsInvalidationTimeout rid) s fun t => (subOf t j.val).dpc = true ∧
          (subOf t j.val).linkUp = false ∧ (∀ x ∈ t.pcie.invs, rid.toNat ∉ x.waiting) ∧ SameBytes s t) ∧
        ((∀ x ∈ s.pcie.invs, rid.toNat ∉ x.waiting) → exec (.atsInvalidationTimeout rid) s = .next s)))) ∧
  ∀ (s : State) (lc : LC) (g : Group) (a : Access) (sh : Nat) (rt : GReg) (v : Word64) (u r : Bool),
    let c := coreOf s lc.val
    (c.mmioWait = false → exec (.mmioCompletion lc v u r) s = .next s ∧ exec (.completionTimeout lc) s = .next s) ∧
    (c.mmioWait = true → c.group = some g → g.closed = true → g.rsOps = [] → g.itts = [] → c.overlay = [] → g.held = [.load 0 a 8 false] →
      c.shadows = [{ left := sh, dest := .gen rt, value := .deferred 0 }] → (csr c.regs 0x522).getLsbD 0 = true →
      c.skipOnce = false → c.eretSkip = 0 → c.eretStep = 0 → c.stepReq = false →
      let ends (x : Word64) (t : State) : Prop := (coreOf t lc.val).group = none ∧ (coreOf t lc.val).mmioWait = false ∧ (coreOf t lc.val).pc = c.pc ∧
        (∀ i, readG (coreOf t lc.val).regs i = if i = rt ∧ rt ≠ 0 then x else readG c.regs i) ∧ (∀ n, n ≠ lc.val → coreOf t n = coreOf s n) ∧ SameBytes s t
      (lostLoad s lc = false → Completes (.mmioCompletion lc v false false) s (ends v)) ∧
      Completes (.mmioCompletion lc v true r) s (ends (BitVec.allOnes 64)) ∧ Completes (.completionTimeout lc) s (ends (BitVec.allOnes 64)) ∧
      (vendorRead a.pa = false → Completes (.mmioCompletion lc v false true) s (ends (BitVec.allOnes 64))))

/-! ### The cellar (19) and its services (R463) -/

/-- The keeper's services: versions and measurement (19 R471, R472), page ownership (R464, R468, R469), the S read window (R466), and the sorting
office's grants and regions (14 R353, R354); a synchronisation of the ownership table starts and completes, and a measurement register is extended. -/
def Obligations.KeeperServicesAnswer : Prop :=
  (∀ (s : State) (lc : LC),
    let a := argOf lc s
    let refused (i : Instr) (st : Nat) : Prop := Serves i lc s st none fun u => u = s
    (Called lc 0 s → Serves (.keeperVersion lc) lc s 0 (some s.cellar.keeperVer.toNat) fun u => u = s) ∧
    (Called lc 1 s → (1 < a 4 → refused (.attestQuote lc) 3) ∧
      ∀ sig, a 4 < 2 → sig = (if a 4 = 0 then 4627 else 96) → pagesCoded s (a 2) 48 0 = true → pagesCoded s (a 3) (1024 + sig) 0 = true →
        Clear s (a 2) 48 → Clear s (a 3) (1024 + sig) → (a 2 + 48 ≤ a 3 ∨ a 3 + 1024 + sig ≤ a 2) → Serves (.attestQuote lc) lc s 0 none fun u =>
          SameBytesBut (a 3) (1024 + sig) s u ∧ HoldsBytes u (a 3) 4 (sysId) ∧ HoldsBytes u (a 3 + 4) 4 s.cellar.serial.toNat ∧
          HoldsBytes u (a 3 + 8) 4 s.cellar.keeperVer.toNat ∧ HoldsBytes u (a 3 + 36) 8 (nowNs s) ∧
          (∀ k, k < 48 → readByte u (a 3 + 44 + k) = readByte s (a 2 + k)) ∧
          (∀ i, i < 16 → HoldsBytes u (a 3 + 92 + 48 * i) 48 (mrOf s i).toNat)) ∧
    (Called lc 2 s → (a 2 < 8 ∨ 15 < a 2 → refused (.measureExtend lc) 3) ∧
      (8 ≤ a 2 → a 2 < 16 → pagesCoded s (a 3) 48 0 = true → Clear s (a 3) 48 → Serves (.measureExtend lc) lc s 0 none fun u => SameBytes s u ∧
        ∀ i, mrOf u i = if i = a 2 then BitVec.ofNat 384 (natOfBytes (sha384 (bytesOfNat (mrOf s i).toNat 48 ++ readBytes s (a 3) 48))) else mrOf s i)) ∧
    (Called lc 3 s → let n := s.cellar.cert.length
      (a 3 < n → refused (.attestCert lc) 3) ∧
      (n ≤ a 3 → pagesCoded s (a 2) (a 3) 0 = true → Clear s (a 2) n → Serves (.attestCert lc) lc s 0 (some n) fun u =>
        SameBytesBut (a 2) n s u ∧ ∀ k, k < n → readByte u (a 2 + k) = s.cellar.cert.getD k 0)) ∧
    (Called lc 0x300 s →
      (1024 ≤ a 2 ∨ 1 < a 3 → refused (.soGrantSet lc) 3) ∧
      (a 2 < 1024 → a 3 = 1 → 65535 < a 4 ∨ 3 < a 5 ∨ a 7 = 0 ∨ ([262144, 65536, 4096, 4096] : List Nat).getD (a 5) 0 < a 6 + a 7 →
        refused (.soGrantSet lc) 3) ∧
      (∀ e : GrantEntry, a 2 < 1024 → (a 3 = 0 ∧ e = {}) ∨ (a 3 = 1 ∧ a 4 ≤ 65535 ∧ a 5 ≤ 3 ∧ 1 ≤ a 7 ∧
          a 6 + a 7 ≤ ([262144, 65536, 4096, 4096] : List Nat).getD (a 5) 0 ∧
          e = { valid := true, queue := a 4, kind := a 5, base := a 6, count := a 7 }) → Serves (.soGrantSet lc) lc s 0 none fun u =>
        (∀ g, smGet grantDef u.office.grants g = if g = a 2 then e else smGet grantDef s.office.grants g) ∧
        { u with office := { u.office with grants := s.office.grants } } = s)) ∧
    (Called lc 0x301 s →
      let onlyRegion (u : State) (e : Region) : Prop := (∀ r, regionOf u r = if r = a 2 then e else regionOf s r) ∧
        { u with office := { u.office with regions := s.office.regions } } = s
      (4096 ≤ a 2 ∨ 1 < a 3 → refused (.soRegionSet lc) 3) ∧
      (a 2 < 4096 → a 3 = 0 → Serves (.soRegionSet lc) lc s 0 none fun u => onlyRegion u { regionOf s (a 2) with valid := false }) ∧
      (a 2 < 4096 → a 3 = 1 → a 4 % 4096 = 0 → 1 ≤ a 5 → a 5 ≤ 2 ^ 30 → natBits (a 6) 15 4 = 0 → a 6 < 2 ^ 48 → a 7 < 2 ^ 32 →
        (pagesOf (a 4) (4096 * a 5)).all (apertureOk s) = true → Serves (.soRegionSet lc) lc s 0 none fun u => onlyRegion u {
          valid := true, base := a 4, pages := a 5, rights := BitVec.ofNat 3 (a 6), remote := (a 6).testBit 3,
          srcBase := BitVec.ofNat 16 (a 6 / 2 ^ 16), srcMask := BitVec.ofNat 16 (a 6 / 2 ^ 32), ctrBase := a 7 % 2 ^ 16, ctrCount := a 7 / 2 ^ 16 })) ∧
    (Called lc 0x302 s → (4096 ≤ a 2 → refused (.soRegionQuery lc) 3) ∧
      (a 2 < 4096 → Serves (.soRegionQuery lc) lc s 0 (some ((regionOf s (a 2)).valid.toNat * 2 ^ 31 + inflight s (a 2) % 65536)) fun u => u = s)) ∧
    (∀ (i : Instr) (old new : Nat), (Called lc 0x401 s ∧ i = .soRingReserve lc ∧ old = 0 ∧ new = 3) ∨
        (Called lc 0x402 s ∧ i = .soRingRelease lc ∧ old = 3 ∧ new = 0) →
      (a 3 = 0 ∨ 2 ^ 20 < a 3 ∨ a 2 % 4096 ≠ 0 ∨ pagesCoded s (a 2) (4096 * a 3) old = false → refused i 3) ∧
      (1 ≤ a 3 → a 3 ≤ 2 ^ 20 → a 2 % 4096 = 0 → a 2 / 2 ^ 44 = slotOf s → pagesCoded s (a 2) (4096 * a 3) old = true → potInside s = true →
        let lo := potBase s + a 2 % 2 ^ 44 / 8192
        let n := a 2 % 2 ^ 44 / 4096
        let len := (n + a 3 + 1) / 2 - n / 2
        let rel := i = .soRingRelease lc
        Clear s lo len → (∀ k, k < len → ownerCode s (lo + k) = 1) →
          (rel → ringsUse s (a 2) (a 2 + 4096 * a 3) = true → refused i 7) ∧
          (¬(rel ∧ ringsUse s (a 2) (a 2 + 4096 * a 3) = true) → Serves i lc s 0 none fun u =>
            (∀ x, ownerCode u x = if a 2 ≤ x ∧ x < a 2 + 4096 * a 3 then new else ownerCode s x) ∧
            ∀ x, (x < lo ∨ lo + len ≤ x) →
              readByte u x = if rel ∧ a 2 ≤ x ∧ x < a 2 + 4096 * a 3 then 0 else readByte s x))) ∧
    (Called lc 0x403 s → (s.office.running = false → refused (.soDlrShare lc) 7) ∧
      (s.office.running = true → Serves (.soDlrShare lc) lc s 0 none fun u => reg64 u 0x8000050 = dlrBase s % 2 ^ 64 ∧
        reg64 u 0x8000058 = (dlrBase s + 2 ^ dlrLog2 s * 128 - 1) % 2 ^ 64 ∧ (∀ o, o ≠ 0x8000050 → o ≠ 0x8000054 → o ≠ 0x8000058 → o ≠ 0x800005C →
          reg u o = reg s o) ∧ SameBytes s u))) ∧
  ∀ (s : State) (w : Writer) (v : Word32),
    let n := v.toNat % 2 ^ 21
    let lo := reg64 s 0x8000040 / 4096 * 4096
    Completes .potSyncComplete s (fun u => u = { s with cellar := { s.cellar with sync := none } }) ∧
    (Reaches w 2 0 0x8000048 s → v.toNat < 2 ^ 21 →
      (n = 0 ∨ 2 ^ 20 < n ∨ potInside s = false → Refuses (.celPotSync w v) s 3) ∧
      (1 ≤ n → n ≤ 2 ^ 20 → potInside s = true → s.cellar.sync.isSome = true → Refuses (.celPotSync w v) s 7) ∧
      (1 ≤ n → n ≤ 2 ^ 20 → potInside s = true → s.cellar.sync = none → Commands (.celPotSync w v) w 0x8000048 v s fun u =>
        u.cellar = { s.cellar with potStarted := true, sync := some { base := lo, pages := n } } ∧ SameBytes s u ∧
        (∀ c, (coreOf u c).regs = (coreOf s c).regs ∧ (∀ x, x ∈ (coreOf u c).tlbs.dtlb ∨ x ∈ (coreOf u c).tlbs.itlb ∨ x ∈ (coreOf u c).tlbs.l2tlb.map (·.2) →
          meets lo (lo + 4096 * n) x.pa x.size = false)) ∧
        ∀ j x, x ∈ ioslots u j → meets lo (lo + 4096 * n) x.pa x.size = false)) ∧
    (Reaches w 2 0 0x8000430 s → v.toNat < 16 → Commands (.mrExtend w v) w 0x8000430 v s fun u =>
      (∀ i, mrOf u i = if i = v.toNat then BitVec.ofNat 384 (natOfBytes (sha384 (bytesOfNat (mrOf s i).toNat 48 ++
        (List.range 12).flatMap fun k => bytesOfNat (reg s (0x8000400 + 4 * k)).toNat 4))) else mrOf s i) ∧
      { u with cellar := { u.cellar with mrs := s.cellar.mrs } } = s)

/-! ### Resilience (20) -/

/-- Relocation (20 R481 to R487): a trigger takes a spare, the drain begins the pause, the core resumes on the spare with its registers, GEN one on, and
the old core becomes a spare or leaves service; with no spare the core is fenced and CONTAIN entered. A silent bridge and a missed heartbeat are logged
first. Leases (R489, R490), pairs (R494), census (R491), proxied snoops (R486) and the spare horizon (R496) follow. -/
def Obligations.FaultsRelocateRevokeAndCount : Prop :=
  (∀ (s : State) (lc : LC) (i : Instr) (trig : Nat) (healthy : Bool),
    ((∃ f : Fin 7, i = .coreRelocation lc f healthy ∧ f.val = trig ∧ trig ≠ 6) ∨
      (∃ pc : Fin 576, i = .heartbeatMissed pc ∧ lcOfPc s pc.val = some lc.val ∧ trig = 3 ∧ healthy = false) ∨
      (∃ near far : Word32, i = .bridgeTimeout near far ∧ far.toNat / 2 ^ 24 ≤ 1 ∧ lcOfPc s (far.toNat % 2 ^ 24) = some lc.val ∧ trig = 4 ∧ healthy = false)) →
    bound s lc.val = true → moving s lc.val = false → (coreOf s lc.val).standing ≠ .fenced →
      (∀ sp, chooseSpare s lc.val none = some sp → Completes i s fun u =>
        (phys s sp).good = true ∧ (phys s sp).service = true ∧ sp ∉ pcsInUse s ∧ moving u lc.val = true ∧ SameBytes s u ∧
        u.resil.relocs = s.resil.relocs ++ [⟨lc.val, pcOf s lc.val, sp, trig, if healthy then none else some (nowNs s), none⟩] ∧
        (if healthy then coreOf u lc.val = { coreOf s lc.val with drainReq := true }
          else (coreOf u lc.val).paused = true ∧ (coreOf u lc.val).wait = none ∧
            -- a group whose deferred accesses are being performed keeps their results (R484)
            ((coreOf s lc.val).mmioWait = false → (coreOf u lc.val).group = none) ∧
            ((coreOf s lc.val).mmioWait = true → (coreOf u lc.val).group = (coreOf s lc.val).group ∧ (coreOf u lc.val).mmioWait = true ∧
              (coreOf u lc.val).shadows = (coreOf s lc.val).shadows) ∧
            ((coreOf s lc.val).group = none ∨ (coreOf s lc.val).mmioWait = true →
              (coreOf u lc.val).regs = (coreOf s lc.val).regs ∧ (coreOf u lc.val).pc = (coreOf s lc.val).pc)) ∧
        ∀ n, n ≠ lc.val → (coreOf u n).regs = (coreOf s n).regs) ∧
      (chooseSpare s lc.val none = none → Completes i s fun u => (coreOf u lc.val).standing = .fenced ∧ u.resil.contain.getLsbD 0 = true ∧
        isFenced u (uCore (pcOf s lc.val)) = true ∧ u.resil.relocs = s.resil.relocs ∧ SameBytes s u)) ∧
  (∀ (s : State) (lc : LC) (r : Relocation), relocOf s lc.val = some r →
    (r.start = none → ((coreOf s lc.val).group ≠ none ∨ (coreOf s lc.val).shadows ≠ [] → exec (.relocationDrain lc) s = .next s) ∧
      ((coreOf s lc.val).group = none → (coreOf s lc.val).shadows = [] → Completes (.relocationDrain lc) s fun u => relocOf u lc.val = some { r with start := some (nowNs s) } ∧
        coreOf u lc.val = { coreOf s lc.val with paused := true, drainReq := false, wait := none } ∧ SameBytes s u)) ∧
    ∀ t0, r.start = some t0 → s.live.roll = none → Completes (.relocationResume lc) s fun u =>
      pcOf u lc.val = r.toPc ∧ smGet gen0 u.resil.gens lc.val = smGet gen0 s.resil.gens lc.val + 1 ∧ moving u lc.val = false ∧
      (coreOf u lc.val).regs = (coreOf s lc.val).regs ∧ (coreOf u lc.val).pc = (coreOf s lc.val).pc ∧ (coreOf u lc.val).paused = false ∧
      (coreOf u lc.val).tlbs = {} ∧ smGet cnt0 u.ctl.counters 0x6000048 = smGet cnt0 s.ctl.counters 0x6000048 + 1 ∧ SameBytes s u ∧
      (∀ n b, b ∈ (coreOf u n).broadcasts → lc.val ∉ b.waiting) ∧
      ∀ n, n ≠ lc.val → pcOf u n = pcOf s n ∧ { coreOf u n with broadcasts := (coreOf s n).broadcasts } = coreOf s n) ∧
  (∀ (s : State) (pc : Fin 576) (r : Relocation), s.live.roll = none → s.resil.relocs.find? (fun r => r.fromPc == pc.val && r.pause.isSome) = some r →
    Completes (.backgroundWritebackComplete pc) s fun u => u.resil.relocs = s.resil.relocs.erase r ∧ Newest 3 u ∧
      smGet islandDef u.power.islands pc.val = .offState ∧ (r.trigger ≠ 6 → (phys u pc.val).service = false ∧ spareUsed u 0 = spareUsed s 0 + 1) ∧
      (r.trigger = 6 → u.resil.cores = s.resil.cores ∧ spareUsed u 0 = spareUsed s 0)) ∧
  (∀ (s : State) (near far : Word32), 2 ≤ far.toNat / 2 ^ 24 → Completes (.bridgeTimeout near far) s fun u => Newest 0xC u ∧
    u.resil.silent = far.toNat :: s.resil.silent.erase far.toNat ∧ u.cores = s.cores ∧ SameBytes s u) ∧
  (∀ (s : State) (pc : Fin 576), lcOfPc s pc.val = none → exec (.heartbeatMissed pc) s = .next s) ∧
  (∀ (s : State) (lc : LC) (n : Nat),
    let revoked (u : State) : Prop := Newest 0x502 u ∧ smGet cnt0 u.ctl.counters 0x6000050 = smGet cnt0 s.ctl.counters 0x6000050 + 1 ∧ SameBytes s u
    ((queueOf s n).lease = some lc.val → (coreOf s lc.val).standing = .fenced → Completes (.leaseRevoke 0 lc n) s fun u => revoked u ∧
      queueOf u n = { queueOf s n with lease := none } ∧ ∀ q, q ≠ n → queueOf u q = queueOf s q) ∧
    ((queueOf s n).lease ≠ some lc.val ∨ (coreOf s lc.val).standing ≠ .fenced → exec (.leaseRevoke 0 lc n) s = .next s) ∧
    exec (.leaseRevoke 1 lc n) s = .next s ∧ exec (.leaseRevoke 2 lc n) s = .next s ∧
    ((∀ q ∈ s.mem.homeQ, ¬(q.line = n ∧ q.timedOut = true ∧ ∃ x ∈ q.pending, x.1 = pcOf s lc.val)) → exec (.leaseRevoke 3 lc n) s = .next s) ∧
    ((∃ q ∈ s.mem.homeQ, q.line = n ∧ q.timedOut = true ∧ ∃ x ∈ q.pending, x.1 = pcOf s lc.val) → Completes (.leaseRevoke 3 lc n) s fun u => Newest 0x502 u ∧
      smGet cnt0 u.ctl.counters 0x6000050 = smGet cnt0 s.ctl.counters 0x6000050 + 1) ∧
    ((transitOf s (pcOf s lc.val) n).isSome = false → exec (.leaseRevoke 4 lc n) s = .next s) ∧
    ((transitOf s (pcOf s lc.val) n).isSome = true → Completes (.leaseRevoke 4 lc n) s fun u => revoked u ∧ transitOf u (pcOf s lc.val) n = none)) ∧
  (∀ (s : State) (pc : Fin 576) (line : Nat) (bad : Bool),
    ((∀ q ∈ s.mem.homeQ, ∀ x ∈ q.pending, ¬(q.line = line ∧ q.served = true ∧ x.1 = pc.val)) → exec (.proxiedSnoop pc line bad) s = .next s) ∧
    ∀ q k, s.mem.homeQ.find? (fun q => q.line == line && q.served && q.pending.any fun x => x.1 == pc.val) = some q →
      q.pending.find? (fun x => x.1 == pc.val) = some (pc.val, k) → Completes (.proxiedSnoop pc line bad) s fun u =>
        u = (if bad then poisonLine line else id) (answerArrives pc.val line (deliverSnoop k pc.val line s))) ∧
  (∀ (s : State) (k : Fin 4) (silent released ok : Bool),
    (pairUp s k.val = false → exec (.pairMismatch k silent released) s = .next s) ∧
    (pairUp s k.val = true → Completes (.pairMismatch k silent released) s fun u => k.val ∈ u.resil.testing ∧ u.cellar = s.cellar ∧ SameBytes s u ∧
      (silent = false → Newest 0x404 u) ∧ (silent = true → released = true → u.resil.contain.getLsbD 2 = true) ∧
      (silent = true → released = false → u.resil.contain = s.resil.contain ∧ u.resil.log = s.resil.log)) ∧
    (s.resil.testing.contains k.val = false → exec (.pairSelfTestComplete k ok) s = .next s) ∧
    (s.resil.testing.contains k.val = true → pairUp s k.val = true → Completes (.pairSelfTestComplete k ok) s fun u =>
      u.resil.testing = s.resil.testing.erase k.val ∧ SameBytes s u ∧ (ok = true → u.cellar = s.cellar ∧ u.resil.contain = s.resil.contain) ∧
      (ok = false → (∀ j, j < 4 → pairUp u j = (pairUp s j && j != k.val)) ∧ spareUsed u 9 = spareUsed s 9 + 1 ∧
        Newest (if countOnes u.cellar.pairsUp 4 ≤ 1 ∧ s.resil.contain.getLsbD 2 = false then 0x503 else 0x405) u ∧
        (u.cellar.pairsUp.getLsbD s.cellar.active = true → u.cellar.active = s.cellar.active) ∧
        (u.cellar.pairsUp.getLsbD s.cellar.active = false → u.cellar.pairsUp.getLsbD s.cellar.standby = true → u.cellar.active = s.cellar.standby) ∧
        (2 ≤ countOnes u.cellar.pairsUp 4 → u.cellar.active ≠ u.cellar.standby ∧ u.cellar.pairsUp.getLsbD u.cellar.active = true ∧
          u.cellar.pairsUp.getLsbD u.cellar.standby = true) ∧
        (countOnes u.cellar.pairsUp 4 ≤ 1 → u.resil.contain.getLsbD 2 = true)))) ∧
  (∀ (s : State) (x : Word32),
    (Completes (.census []) s fun u => u = { s with resil := { s.resil with suspects := [], rounds := s.resil.rounds + 1 } }) ∧
    (x.toNat ∉ s.resil.suspects → Completes (.census [x]) s fun u => Newest 0x501 u ∧ u.resil.suspects = [x.toNat] ∧ u.resil.rounds = s.resil.rounds + 1 ∧
      u.resil.fencedUnits = s.resil.fencedUnits ∧ u.cores = s.cores ∧ u.mem = s.mem) ∧
    (x.toNat ∈ s.resil.suspects → ∀ n,
      -- the units of the table of R492, each replaced from its redundancy, or CONTAIN entered
      (n < 256 → x.toNat = uHome n → isFenced s x.toNat = false → Completes (.census [x]) s fun u =>
        isFenced u x.toNat = true ∧ (slice u n).fenced = true ∧ u.resil.contain.getLsbD 4 = true ∧ SameBytes s u) ∧
      (∀ c, n < 256 → c < 2 → x.toNat = uHome n + 256 * (c + 1) → Completes (.census [x]) s fun u =>
        (slice u n).copyLost = (slice s n).copyLost ||| BitVec.ofNat 2 (2 ^ c) ∧ SameBytes s u ∧ (∃ e ∈ u.resil.log, e.record.take 2 = bytesOfNat 0xE 2) ∧
        ((slice u n).copyLost ≠ 3 → (slice u n).fenced = (slice s n).fenced ∧ u.resil.contain = s.resil.contain) ∧
        ((slice u n).copyLost = 3 → (slice u n).fenced = true ∧ u.resil.contain.getLsbD 4 = true)) ∧
      (n < 256 → x.toNat = uHome n + 768 → Completes (.census [x]) s fun u => (slice u n).removed = true ∧ (slice u n).l3 = [] ∧
        ((∀ e ∈ (slice s n).l3, ∀ l, e.2 = some l → l.stale = none) → SameBytes s u)) ∧
      (n < 16 → x.toNat = unitWord 3 n → isFenced s x.toNat = false → Completes (.census [x]) s fun u => isFenced u x.toNat = true ∧
        (memCtl u n).fenced = true ∧ u.resil.contain.getLsbD 1 = true ∧ SameBytes s u) ∧
      (n < 8 → x.toNat = uSop n → isFenced s x.toNat = false → Completes (.census [x]) s fun u =>
        u.office.sopFenced = s.office.sopFenced ||| BitVec.ofNat 8 (2 ^ n) ∧ SameBytes s u ∧
        ((∃ q, q / 4 = n / 4 ∧ q ≠ n ∧ sopOut s q = false) → isFenced u x.toNat = false ∧ Newest 0x505 u) ∧
        ((∀ q, q / 4 = n / 4 → q ≠ n → sopOut s q = true) → isFenced u x.toNat = true ∧ u.resil.contain.getLsbD 5 = true)) ∧
      (n < 4 → x.toNat = uPair n → isFenced s x.toNat = false → pairUp s n = true → Completes (.census [x]) s fun u => pairUp u n = false ∧
        spareUsed u 9 = spareUsed s 9 + 1 ∧ SameBytes s u))) ∧
  ∀ (s : State) (run : Nat) (used : List Nat),
    let w := min 365 run
    let days (k : Nat) : Nat := if spareLeft s k = 0 ∧ 0 < spareUsed s k then 0 else if w < 30 then 0xFFFE else if used.getD k 0 = 0 then 0xFFFF
      else min 0xFFFD (spareLeft s k * w / used.getD k 0)
    Completes (.spareHorizon run used) s fun u => (∀ k, k < 10 → smGet dayK u.resil.horizonK k = days k ∧ u.resil.horizon ≤ days k) ∧
      u.resil.horizonKind < 10 ∧ days u.resil.horizonKind = u.resil.horizon ∧ (∀ k, k < u.resil.horizonKind → u.resil.horizon < days k) ∧
      SameBytes s u ∧ u.cores = s.cores ∧ u.resil.warned = decide (u.resil.horizon < fld (reg s 0x6000014) 15 0) ∧
      (u.resil.warned = true → s.resil.warned = false → Newest 0x504 u) ∧ (u.resil.warned = false ∨ s.resil.warned = true → u.resil.log = s.resil.log)

/-! ### Live change (21) -/

/-- Updates (21 R505 to R512): an image is accepted when genuine, of a known store, of the same MAJOR and of sufficient security; a roll measures it, puts
the device in PATCH and moves it instance by instance, or core by core, to the new version; an abort reverses it; the keeper hands over; flash follows.
Aging (R519 to R521): the sample, VAGE's steps and the alarm. -/
def Obligations.UpdatesRollAndIslandsAge : Prop :=
  (∀ (s : State) (lc : LC) (genuine : Bool) (store : Nat) (ver : Word32) (sec : Nat),
    let a := argOf lc s
    let i : Instr := .updateSubmit lc genuine store ver sec
    let good := genuine = true ∧ (store ≤ 5 ∨ store = 8) ∧ fld ver 31 24 = fld (smGet ver0 s.live.romVersions store) 31 24 ∧ s.cellar.minSecurity ≤ sec
    Called lc 0x500 s →
      (a 3 = 0 ∨ pagesCoded s (a 2) (a 3) 0 = false → Serves i lc s 3 none fun u => u = s) ∧
      (a 3 ≠ 0 → pagesCoded s (a 2) (a 3) 0 = true →
        (¬good → Serves i lc s 3 none fun u => Newest 0x401 u ∧ u.live = s.live ∧ SameBytes s u) ∧
        (good → ∀ r, s.live.roll = some r → r.store = store → Serves i lc s 7 none fun u => u = s) ∧
        (good → (∀ r, s.live.roll = some r → r.store ≠ store) → Clear s (a 2) (a 3) →
          Serves i lc s 0 (some (store * 2 ^ 32 + ver.toNat)) fun u => SameBytes s u ∧
            (∀ k, imageOf u k = if k = store then some { version := ver, digest := sha384 (readBytes s (a 2) (a 3)), security := sec } else imageOf s k) ∧
            u.live = { s.live with images := u.live.images }))) ∧
  (∀ (s : State) (lc : LC) (ok : Bool),
    let a := argOf lc s
    let measured (u : State) (im : Image) : Prop := ∀ k, mrOf u k = if k = 2 then BitVec.ofNat 384 (natOfBytes (sha384 (bytesOfNat (mrOf s k).toNat 48 ++ im.digest)))
      else mrOf s k
    let refused (i : Instr) (st : Nat) : Prop := Serves i lc s st none fun u => u = s
    -- the day that a first flash copy of the store waits for begins again (R511)
    let again (s : State) (r : Roll) := s.live.flashDue.map fun e => if e.1 = r.store then (e.1, nowNs s, e.2.2) else e
    (Called lc 0x501 s →
      (5 < a 2 ∨ imageOf s (a 2) = none ∨ a 3 = 0 ∨ 60000 < a 3 → refused (.updateRoll lc) 3) ∧
      ∀ im, a 2 ≤ 5 → imageOf s (a 2) = some im → 1 ≤ a 3 → a 3 ≤ 60000 →
        (s.live.roll ≠ none ∨ s.ctl.inFlight = true ∨ s.resil.contain.getLsbD 0 = true ∨ a 2 = 0 ∧ sparesLeft s = [] → refused (.updateRoll lc) 7) ∧
        (s.live.roll = none → s.ctl.inFlight = false → s.resil.contain.getLsbD 0 = false →
          (a 2 ≠ 0 → Serves (.updateRoll lc) lc s 0 none fun u => measured u im ∧ SameBytes s u ∧
            u.live = { s.live with roll := some ⟨a 2, im.version, smGet ver0 s.live.versions (a 2), a 3, [], false, []⟩, patchMode := true }) ∧
          (a 2 = 0 → sparesLeft s ≠ [] → Serves (.updateRoll lc) lc s 0 none fun u => measured u im ∧ SameBytes s u ∧
            (∀ pc, (phys u pc).version = if pc ∈ sparesLeft s then im.version else (phys s pc).version) ∧
            (∀ pc ∈ sparesLeft s, smGet noImage (microOf u 0 pc).banks 0 = some im) ∧
            ∀ r, u.live.roll = some r → r.version = im.version ∧ r.store = 0 ∧ u.live.patchMode = true))) ∧
    (Called lc 0x502 s → (s.live.roll = none → Serves (.updateAbort lc) lc s 0 none fun u => u = s) ∧
      ∀ r, s.live.roll = some r → r.store ≠ 0 →
        (r.done ≠ [] → Serves (.updateAbort lc) lc s 0 none fun u => u = { s with live := { s.live with roll := some { r with aborting := true } } }) ∧
        (r.done = [] → Serves (.updateAbort lc) lc s 0 none fun u => SameBytes s u ∧
          u.live = { s.live with roll := none, patchMode := false, flashDue := again s r })) ∧
    (Called lc 0x503 s → (imageOf s 8 = none → refused (.keeperHandover lc ok) 3) ∧ ∀ im, imageOf s 8 = some im →
      (s.live.roll ≠ none ∨ countOnes s.cellar.pairsUp 4 < 3 → refused (.keeperHandover lc ok) 7) ∧
      (s.live.roll = none → 3 ≤ countOnes s.cellar.pairsUp 4 →
        (ok = false → Serves (.keeperHandover lc ok) lc s 3 none fun u => u.cellar = s.cellar ∧ u.live = { s.live with patchMode := false } ∧ SameBytes s u) ∧
        (ok = true → Serves (.keeperHandover lc ok) lc s 0 none fun u => measured u im ∧ SameBytes s u ∧ u.live.patchMode = false ∧
          u.cellar = { s.cellar with active := s.cellar.standby, standby := s.cellar.active, keeperVer := im.version, keeperSec := im.security,
                                     mrs := u.cellar.mrs } ∧
          (8, nowNs s, firstCopy s) ∈ u.live.flashDue ∧
          (copyAbsent s (firstCopy s) = false → smGet noImage (smGet (fun _ => []) u.live.flash (firstCopy s)) 8 = some im)))) ∧
    (Called lc 0x504 s → ∀ n base, (7 < a 2 → refused (.agingQuery lc) 3) ∧
      (islandKinds[a 2]? = some (n, base) → let m := if a 2 = 0 then s.resil.bound else n
        let x := agingOf s (if a 2 = 0 then pcOf s (a 3) else base + a 3)
        (m ≤ a 3 → refused (.agingQuery lc) 3) ∧ (a 3 < m → x.vage < 2 ^ 16 → x.degr < 2 ^ 16 → x.tj < 2 ^ 16 →
          Serves (.agingQuery lc) lc s 0 (some (x.vage + x.degr * 2 ^ 16 + x.tj * 2 ^ 32 + x.alarm.toNat * 2 ^ 48)) fun u => u = s)))) ∧
  (∀ (s : State),
    ((rollVersion s = none ∨ s.resil.contain.getLsbD 0 = true) → exec .rollStep s = .next s) ∧
    (∀ v t lc sp, rollVersion s = some v → s.resil.contain.getLsbD 0 = false → t < 8 → nextToRoll s v t = some lc → (∀ t', t' < 8 → t' ≠ t → nextToRoll s v t' = none) →
      chooseSpare s lc (some v) = some sp → moving s lc = false → (coreOf s lc).standing ≠ .fenced → Completes .rollStep s fun u => (phys s sp).version = v ∧
        moving u lc = true ∧ u.resil.relocs = s.resil.relocs ++ [{ lc := lc, fromPc := pcOf s lc, toPc := sp, trigger := 6 }] ∧ SameBytes s u) ∧
    (∀ (n : Fin 8), s.live.roll = none → exec (.rollInstanceSwitch n) s = .next s) ∧
    (∀ (n : Fin 8) (r : Roll), s.live.roll = some r →
      r.store = 0 ∨ s.resil.contain.getLsbD 0 = true ∨ (r.store = 2 ∧ (port s n.val).retryBuf ≠ []) ∨ (r.store = 3 ∧ s.power.cur ≠ none) ∨
        (r.store = 1 ∧ ∃ c ∈ s.office.cmds, c.cmd.q % 8 = n.val ∧ c.status = 0) → exec (.rollInstanceSwitch n) s = .next s) ∧
    (∀ (n : Fin 8) (r : Roll), s.live.roll = some r → r.store ≠ 0 → maySwitch s r.store n.val = true → s.resil.contain.getLsbD 0 = false →
      let m := microOf s r.store n.val
      -- the other bank is loaded where there are two, and runs from now on (06 R167)
      let bank := if (storeShape r.store).banks = 2 then 1 - m.active else 0
      let loaded (u : State) : Prop := (microOf u r.store n.val).active = bank ∧ ∀ b, smGet noImage (microOf u r.store n.val).banks b =
        if b = bank then imageOf s r.store else smGet noImage m.banks b
      let now (r1 : Roll) (u : State) : Prop := u = { s with live := { s.live with roll := some r1, stores := u.live.stores } }
      (r.aborting = false → n.val = r.done.length →
        (n.val + 1 ≠ rollInstances r.store → Completes (.rollInstanceSwitch n) s fun u => now { r with done := r.done ++ [n.val] } u ∧ loaded u) ∧
        (n.val + 1 = rollInstances r.store → Completes (.rollInstanceSwitch n) s fun u => u.live.roll = none ∧ u.live.patchMode = false ∧ SameBytes s u ∧
          loaded u ∧ (∀ k, smGet ver0 u.live.versions k = if k = r.store then r.version else smGet ver0 s.live.versions k) ∧
          (r.store, nowNs s, firstCopy s) ∈ u.live.flashDue ∧
          (copyAbsent s (firstCopy s) = false → smGet noImage (smGet (fun _ => []) u.live.flash (firstCopy s)) r.store = imageOf s r.store))) ∧
      (r.aborting = false → n.val ≠ r.done.length → exec (.rollInstanceSwitch n) s = .next s) ∧
      (r.aborting = true → ∀ rest, r.done = n.val :: rest →
        (rest ≠ [] → Completes (.rollInstanceSwitch n) s fun u => now { r with done := rest } u ∧ (microOf u r.store n.val).active = 1 - m.active) ∧
        (rest = [] → Completes (.rollInstanceSwitch n) s fun u => u.live.roll = none ∧ u.live.patchMode = false ∧ u.live.versions = s.live.versions ∧
          (microOf u r.store n.val).active = 1 - m.active ∧ SameBytes s u))) ∧
    (∀ (store t c : Nat), s.live.flashDue.find? (fun e => e.1 == store) = some (store, t, c) →
      (nowNs s < t + 86400000000000 ∨ s.live.roll ≠ none → exec (.flashSecondCopyWrite store) s = .next s) ∧
      (t + 86400000000000 ≤ nowNs s → s.live.roll = none → Completes (.flashSecondCopyWrite store) s fun u =>
        let held (x : State) (k : Nat) := smGet (fun _ => []) x.live.flash k
        (copyAbsent s (1 - c) = false → smGet noImage (held u (1 - c)) store = smGet noImage (held s c) store) ∧
        u.live.flashDue = s.live.flashDue.filter (fun e => e.1 != store) ∧
        { u with cellar := s.cellar, live := { u.live with flash := s.live.flash, flashDue := s.live.flashDue } } = s ∧
        (store ≠ 8 → u.cellar = s.cellar) ∧
        -- both copies hold the keeper: its secrets are sealed under its version (19 R474)
        (store = 8 → u.cellar.secrets = s.cellar.secrets ∧ smGet noRecords u.cellar.sealed 0 = smGet noRecords u.cellar.sealed 1 ∧
          (smGet noRecords u.cellar.sealed 0).length = s.cellar.secrets.length ∧ ∀ k x, s.cellar.secrets[k]? = some x →
            (smGet noRecords u.cellar.sealed 0)[k]? = some (sealRecord s.cellar.keeperSec (s.cellar.nonce + k) k x)))) ∧
    ∀ store, s.live.flashDue.find? (fun e => e.1 == store) = none → exec (.flashSecondCopyWrite store) s = .next s) ∧
  ∀ (s : State) (i : Fin 616) (degr tj : Nat) (short : Bool),
    let x := agingOf s i.val
    let step := short = true ∧ (∀ t, x.stepped = some t → t + 86400000000000 ≤ nowNs s) ∧ x.vage < 240
    let y : Aging := { x with degr := degr, tj := tj }
    ((i.val < 576 ∧ (x.vage < 190 ∨ x.alarm = true)) ∨ (576 ≤ i.val ∧ (short = false ∨ x.vage ≠ 240)) →
      (¬step → Completes (.agingSample i degr tj short) s fun u => agingOf u i.val = y ∧ { u with live := { u.live with aging := s.live.aging } } = s) ∧
      (step → Completes (.agingSample i degr tj short) s fun u => agingOf u i.val = { y with vage := min 240 (x.vage + 10), stepped := some (nowNs s) } ∧
        { u with live := { u.live with aging := s.live.aging } } = s)) ∧
    (i.val < 576 → 190 ≤ x.vage → x.alarm = false → step ∨ 200 ≤ x.vage → lcOfPc s i.val = none → Completes (.agingSample i degr tj short) s fun u =>
      (agingOf u i.val).alarm = true ∧ Newest 0x303 u ∧ (phys u i.val).service = false ∧ spareUsed u 0 = spareUsed s 0 + 1 ∧ SameBytes s u) ∧
    (∀ lc sp, i.val < 576 → 190 ≤ x.vage → x.alarm = false → step ∨ 200 ≤ x.vage → lcOfPc s i.val = some lc → bound s lc = true → moving s lc = false →
      (coreOf s lc).standing ≠ .fenced → chooseSpare s lc none = some sp → Completes (.agingSample i degr tj short) s fun u => (agingOf u i.val).alarm = true ∧
        Newest 0x303 u ∧ moving u lc = true ∧ u.resil.relocs = s.resil.relocs ++ [⟨lc, pcOf s lc, sp, 5, none, none⟩] ∧ SameBytes s u) ∧
    (576 ≤ i.val → short = true → x.vage = 240 → Completes (.agingSample i degr tj short) s fun u => SameBytes s u ∧
      (x.lowered = 0 → (agingOf u i.val).alarm = true ∧ (agingOf u i.val).lowered = 1 ∧ Newest 0x303 u) ∧
      (x.lowered ≠ 0 → (agingOf u i.val).lowered = 2 ∧ u.resil.contain.getLsbD 5 = true))

/-! ### Power, clocks, temperature and boot (22, 25, 26) -/

/-- The transitions of 22 R527 with their triggers; DOZE and DEEP_DOZE (R533 to R538), the pending slot (R540), DRAIN (R541, R542), the rail path (R544);
the power limit (R532) and the thermal targets (25 R603 to R605); the reference clocks (25 R600, 18 R439); SEQUENCE and CALIBRATE (26 R609 to R614). -/
def Obligations.PowerAndBootFollowTheirTriggers : Prop :=
  (∀ (s : State),
    let quiet (u : State) : Prop := { u with power := s.power, pads := { u.pads with alerts := s.pads.alerts } } = s
    let off (u : State) : Prop := ∀ i, i < 615 → smGet islandDef u.power.islands i = .offState
    let lost (u : State) : Prop := u.pads.dynAddr = none ∧ u.pads.request = none ∧ u.pads.reply = none ∧ u.pads.hostIn = [] ∧ u.pads.hostOut = [] ∧
      u.pads.inFull = false ∧ u.pads.outFull = false ∧ u.pads.alerts = 0 ∧ u.pads.ir = 1 ∧ u.pads.safeEn = false ∧ u.pads.boundary = 0 ∧
      u.pads.level = s.pads.level
    (s.power.mode = .off → Completes .vddRindUp s fun u => u.power = { s.power with mode := .rind } ∧ quiet u) ∧
    (s.power.mode ≠ .off → exec .vddRindUp s = .next s) ∧
    (s.power.mode = .rind → Completes .vddRindDown s fun u => u.power = { s.power with mode := .off } ∧ lost u ∧
      { u with power := s.power, pads := s.pads } = s) ∧
    (s.power.mode = .off → exec .vddRindDown s = .next s) ∧
    (s.power.mode = .sequence ∨ s.power.mode = .calibrate ∨ s.power.mode = .scan → Completes .pwrgdFall s fun u =>
      u.power.mode = .rind ∧ u.power.pwrgd = false ∧ u.power.cur = none ∧ off u ∧ quiet u) ∧
    (s.power.mode = .run ∨ s.power.mode = .doze ∨ s.power.mode = .deepDoze → s.power.cur = none → Completes .pwrgdFall s fun u => u.power.mode = .drain ∧
      u.power.cur = some .drain ∧ u.power.pstate = 0 ∧ u.power.pwrgd = false ∧ u.pcie.running = 0 ∧ (s.power.pstate ≠ 0 → u.time.tbOff = false) ∧
      ∀ p, p < 8 → (port u p).join.state = .non) ∧
    (∀ t, s.power.mode = .run ∨ s.power.mode = .doze ∨ s.power.mode = .deepDoze → s.power.cur = some t → t ≠ .drain → Completes .pwrgdFall s fun u =>
      u.power.pend = some { what := .drain, commanded := true } ∧ u.power.cur = some t ∧ quiet u ∧
      (∀ r, s.power.pend = some r → r.commanded = true → u.power.last = 3)) ∧
    (∀ (rail : Fin 9) (mv : Nat) (written : Bool),
      (s.power.mode = .sequence → Completes (.sequenceRailTimeout rail mv) s fun u => u.power.mode = .rind ∧ Newest 0x300 u ∧ off u) ∧
      (s.power.mode ≠ .sequence → exec (.sequenceRailTimeout rail mv) s = .next s) ∧
      (s.power.mode = .off ∨ s.power.mode = .rind → exec (.railFailure rail mv written) s = .next s) ∧
      (s.power.mode ≠ .off → s.power.mode ≠ .rind → Completes (.railFailure rail mv written) s fun u =>
        u.power.mode = (if rail.val = 8 ∨ written = false then .off else .rind) ∧ (rail.val = 8 ∨ written = false → lost u) ∧ u.power.tripped = true ∧ u.power.cur = none ∧ off u ∧ u.power.padHeld = 0 ∧
        (written = true → Newest 0x300 u) ∧ (written = false → u.power.railUnknown = true ∧ u.resil.log = s.resil.log))) ∧
    (∀ (lc : LC) (i : Instr) (st : IslandState) (hi lo : Nat), (i = .islandGate lc ∧ st = .gated ∧ hi = 15 ∧ lo = 0) ∨
        (i = .islandRetain lc ∧ st = .retain ∧ hi = 31 ∧ lo = 16) →
      let pc := pcOf s lc.val
      let idle := ∃ w, (coreOf s lc.val).wait = some w ∧ waitResult s lc.val w.kind = 0 ∧ (∀ q ∈ s.mem.homeQ, q.req ≠ .l2 pc) ∧
        ∀ g ∈ s.mem.grants, g.pc ≠ pc
      let watches := ∃ w va x p q, (coreOf s lc.val).wait = some w ∧ w.kind = .wfeNe va x p q
      let may := bound s lc.val = true ∧ idle ∧ fld (reg s 0x100014) hi lo ≠ 0 ∧ dbgAttached s = false ∧ smGet islandDef s.power.islands pc ≠ .offState
      (may → Completes i s fun u => { u with power := { u.power with islands := s.power.islands } } = s ∧
        smGet islandDef u.power.islands pc = st ∧
        (watches → st = .retain → smGet islandDef u.power.islands (l2Island pc) = .gated) ∧
        (¬watches ∨ st = .gated → smGet islandDef u.power.islands (l2Island pc) = st) ∧
        ∀ n, n ≠ pc → n ≠ l2Island pc → smGet islandDef u.power.islands n = smGet islandDef s.power.islands n) ∧
      (¬may → exec i s = .next s)) ∧
    (mayDoze s = false → exec .dozeEntry s = .next s) ∧
    (mayDoze s = true → s.power.deepNext = false → Completes .dozeEntry s fun u => u.power.pstate = 1 ∧ SameBytes s u ∧ u.cores = s.cores ∧
      smGet cnt0 u.ctl.counters 0x100050 = smGet cnt0 s.ctl.counters 0x100050 + 1 ∧
      (if dbgAttached s then u.power.emu = true ∧ u.power.mode = .run ∧ u.time = s.time
        else u.power.emu = false ∧ u.power.mode = .doze ∧ u.time = { s.time with tbOff := true })) ∧
    (mayDoze s = true → s.power.deepNext = true → Completes .dozeEntry s fun u => u.power.pstate = 1 ∧ SameBytes s u ∧ u.cores = s.cores ∧
      u.power.emu = dbgAttached s ∧
      (mayDeep { s with power := { s.power with pstate := 1 } } = true → u.power.cur = some .deepEntry ∧ u.power.entering = true ∧ u.power.deepNext = false) ∧
      (mayDeep { s with power := { s.power with pstate := 1 } } = false → u.power.cur = none ∧ u.power.deepNext = true)) ∧
    (mayDeep s = false → exec .deepDozeEntry s = .next s) ∧
    (mayDeep s = true → s.power.emu = true → Completes .deepDozeEntry s fun u =>
      u = { s with power := { s.power with cur := some .deepEntry, entering := true, deepNext := false } }) ∧
    (mayDeep s = true → s.power.emu = false → Completes .deepDozeEntry s fun u =>
      u.power = { s.power with cur := some .deepEntry, entering := true, deepNext := false } ∧ u.mem = s.mem ∧ u.cores = s.cores ∧ ∀ p, p < 8 →
        (port s p).state = .up → (port s p).pwr ≠ .listen → heldActive s p = false → (port u p).sleepReq = true) ∧
    (s.power.cur ≠ some .deepEntry → exec .deepDozeEntryComplete s = .next s) ∧
    (s.power.cur = some .deepEntry → s.power.wakeLatch = 0 → s.power.pend = none → Completes .deepDozeEntryComplete s fun u =>
      u.power.pstate = 2 ∧ u.power.cur = none ∧ u.power.entering = false ∧
      smGet cnt0 u.ctl.counters 0x100058 = smGet cnt0 s.ctl.counters 0x100058 + 1 ∧
      (s.power.emu = true → u.power.mode = s.power.mode ∧ u.mem = s.mem ∧ u.power.islands = s.power.islands ∧ u.cores = s.cores) ∧
      (s.power.emu = false → u.power.mode = .deepDoze ∧ u.power.padHeld = heldPads s ∧ u.power.heldLevels = s.pads.level ∧
        (∀ i, i < 615 → smGet islandDef u.power.islands i = deepIsland s i) ∧ (∀ pc, (priv u pc).l2 = [] ∧ (priv u pc).l1d = [] ∧ (priv u pc).l1i = [] ∧ (priv u pc).transit = []) ∧
        (∀ h, (slice u h).l3 = [] ∧ (slice u h).dir = []) ∧ ∀ lc, lc < 512 → (coreOf u lc).regs = (coreOf s lc).regs ∧ (coreOf u lc).pc = (coreOf s lc).pc ∧
          (coreOf u lc).wait = (coreOf s lc).wait ∧
          (lc < s.resil.bound → deepIsland s (pcOf s lc) = .offState → (coreOf u lc).tlbs = {} ∧ (coreOf u lc).retStack = [] ∧ (coreOf u lc).itt = []) ∧
          (lc < s.resil.bound → deepIsland s (pcOf s lc) ≠ .offState → coreOf u lc = coreOf s lc))) ∧
    (∀ (b : Fin 9), wakeOn s b.val = false → s.power.wakeLatch = 0 → s.power.pend = none → exec (.wake b) s = .next s) ∧
    (∀ (b : Fin 9), wakeOn s b.val = true →
      (s.power.exiting = true → s.power.cur ≠ none → Completes (.wake b) s fun u =>
        u = { s with power := { s.power with wakeLast := s.power.wakeLast ||| BitVec.ofNat 9 (2 ^ b.val) } }) ∧
      (s.power.exiting = false → s.power.entering = true → Completes (.wake b) s fun u =>
        u = { s with power := { s.power with wakeLatch := s.power.wakeLatch ||| BitVec.ofNat 9 (2 ^ b.val) } }) ∧
      (s.power.exiting = false → s.power.entering = false → s.power.cur = none → s.power.pstate = 2 → Completes (.wake b) s fun u =>
        u.power = { s.power with cur := some .deepExit, exiting := true, wakeLatch := 0,
                                 wakeLast := s.power.wakeLatch ||| BitVec.ofNat 9 (2 ^ b.val) } ∧ quiet u) ∧
      (s.power.exiting = false → s.power.entering = false → s.power.cur = none → s.power.pstate = 1 → Completes (.wake b) s fun u =>
        u.power.mode = .run ∧ u.power.pstate = 0 ∧ u.power.wakeLast = s.power.wakeLatch ||| BitVec.ofNat 9 (2 ^ b.val) ∧ u.time = { s.time with tbOff := false } ∧
        smGet cnt0 u.ctl.counters 0x100060 = smGet cnt0 s.ctl.counters 0x100060 + 1 ∧ u.mem = s.mem ∧ u.cores = s.cores)) ∧
    (s.power.cur ≠ some .deepExit → exec .deepDozeExitComplete s = .next s) ∧
    (s.power.cur = some .deepExit → s.power.emu = false → s.power.wakeLatch = 0 → s.power.pend = none → Completes .deepDozeExitComplete s fun u =>
      u.power.mode = .run ∧ u.power.pstate = 0 ∧ u.power.exiting = false ∧ u.power.padHeld = s.power.padHeld ∧ u.time = { s.time with tbOff := false } ∧
      (∀ i, i < 615 → smGet islandDef u.power.islands i = runIsland s i) ∧ u.mem = s.mem ∧ u.cores = s.cores) ∧
    (s.power.mode ≠ .drain → exec .drainComplete s = .next s) ∧
    (s.power.mode = .drain → Completes .drainComplete s fun u => u.power.mode = .rind ∧ off u ∧ u.power.cur = none ∧ u.power.pend = none ∧
      u.power.padHeld = 0 ∧ quiet u)) ∧
  (∀ (s : State) (w : Writer) (v : Word32),
    (Reaches w 1 0 0x100004 s →
      (Commands (.setDeepnext w) w 0x100004 0x20000000 s fun u => u = { s with power := { s.power with deepNext := true } }) ∧
      (Commands (.clearDeepnext w) w 0x100004 0x30000000 s fun u => u = { s with power := { s.power with deepNext := false } }) ∧
      (s.power.cur = none → s.power.pstate = 0 → Commands (.drain w) w 0x100004 0x10000000 s fun u => u.power.mode = .drain ∧ u.power.cur = some .drain ∧
        u.power.last = 2 ∧ u.pcie.running = 0) ∧
      (∀ t, s.power.cur = some t → (∀ r, s.power.pend = some r → r.commanded = false) → Commands (.drain w) w 0x100004 0x10000000 s fun u =>
        u = { s with power := { s.power with pend := some { what := .drain, commanded := true }, last := 2 } }) ∧
      (∀ t r, s.power.cur = some t → s.power.pend = some r → r.commanded = true → Refuses (.drain w) s 7)) ∧
    (Reaches w 2 0 0x100024 s →
      (s.power.entering = true ∨ s.power.pstate = 2 → Refuses (.pwrPadRelease w) s 7) ∧
      (s.power.entering = false → s.power.pstate ≠ 2 → Commands (.pwrPadRelease w) w 0x100024 1 s fun u =>
        u = { s with power := { s.power with padHeld := 0, heldLevels := 0 } })) ∧
    (Answers w 1 0 0x10001C s → ReadsToClear (.pwrWakeLastRead w) w s (s.power.wakeLast.setWidth 64) fun u =>
      u = { s with power := { s.power with wakeLast := 0 } }) ∧
    (Reaches w 2 0 0x100034 s → v.toNat < 2048 → (300 ≤ v.toNat → v.toNat ≤ 1450 → Commands (.pwrLimitCeilWrite w v) w 0x100034 v s fun u =>
        reg u 0x100034 = v ∧ (v.toNat < fld (reg s 0x100030) 10 0 → reg u 0x100030 = v) ∧ (fld (reg s 0x100030) 10 0 ≤ v.toNat → reg u 0x100030 = reg s 0x100030) ∧
        (∀ o, o ≠ 0x100030 → o ≠ 0x100034 → reg u o = reg s o) ∧ u.power = s.power) ∧
      (v.toNat < 300 ∨ 1450 < v.toNat → Refuses (.pwrLimitCeilWrite w v) s 3))) ∧
  (∀ (s : State) (avg : Nat),
    let limit := fld (reg s 0x100030) 10 0
    let above := limit < avg ∨ s.power.vrAlert = true
    let plain (lc : Nat) : Prop := lc < s.resil.bound ∧ resValid s lc = false ∧ 6 < freqAct s lc
    let held (lc : Nat) : Prop := lc < s.resil.bound ∧ resValid s lc = true ∧ 14 < freqAct s lc
    Completes (.powerLimitCompare avg) s fun u => u.power.meas = avg ∧ u.power.throttle = throttled u ∧ SameBytes s u ∧ u.cores = s.cores ∧ ∀ lc,
      (above → (∃ n, plain n) → (plain lc → limitOf u lc = freqAct s lc - 1) ∧ (¬plain lc → limitOf u lc = limitOf s lc)) ∧
      (above → (¬∃ n, plain n) → (held lc → limitOf u lc = freqAct s lc - 1) ∧ (¬held lc → limitOf u lc = limitOf s lc)) ∧
      (¬above → 20 * avg < 19 * limit → limitOf u lc = if lc < s.resil.bound ∧ limitOf s lc < freqReq s lc then limitOf s lc + 1 else limitOf s lc) ∧
      (¬above → 19 * limit ≤ 20 * avg → limitOf u lc = limitOf s lc)) ∧
  (∀ (s : State) (i : Fin 616) (temp : Nat) (low : Bool),
    let lowered (u : State) : Prop := ∀ t, t < 8 → smGet full26 u.power.tu t = 6 ∧ smGet full26 u.power.tr t = 14
    let was := smGet boolDef s.power.hot i.val
    (temp < 95 → s.power.prochotOwn = false → Completes (.temperatureSample i temp) s fun u => tempOf u i.val = temp ∧
      (∀ n, n ≠ i.val → tempOf u n = tempOf s n) ∧ { u with power := { u.power with temps := s.power.temps, hot := s.power.hot } } = s) ∧
    (95 ≤ temp → (temp < 115 ∨ was = false) → s.power.prochotOwn = false → Completes (.temperatureSample i temp) s fun u =>
      u.power.prochotOwn = true ∧ lowered u ∧ u.pads.alerts.getLsbD 5 = true ∧ u.power.mode = s.power.mode ∧ SameBytes s u) ∧
    (s.power.prochotOwn = true → temp < 115 ∨ was = false → Completes (.temperatureSample i temp) s fun u => tempOf u i.val = temp ∧
      (∀ n, n ≠ i.val → tempOf u n = tempOf s n) ∧ SameBytes s u ∧ u.cores = s.cores ∧ u.power.mode = s.power.mode ∧
      u.power.prochotOwn = !(u.power.temps.all fun e => decide (e.2 < 92))) ∧
    (115 ≤ temp → was = true → s.power.mode ≠ .off → s.power.mode ≠ .rind → Completes (.temperatureSample i temp) s fun u =>
      u.power.mode = .rind ∧ u.power.tripped = true ∧ u.power.thermtrip = true ∧ u.pads.alerts.getLsbD 5 = true) ∧
    (s.power.prochotOwn = true ∨ s.power.prochotBoard = true → Completes .thermalControl s fun u => lowered u ∧
      { u with power := { u.power with tu := s.power.tu, tr := s.power.tr } } = s) ∧
    (s.power.prochotOwn = false → s.power.prochotBoard = false → Completes .thermalControl s fun u =>
      { u with power := { u.power with tu := s.power.tu, tr := s.power.tr } } = s ∧ ∀ t, t < 8 →
        let tu := smGet full26 s.power.tu t
        let tr := smGet full26 s.power.tr t
        let ts := (s.power.temps.filter fun e => heatsTile t e.1).map (·.2)
        ((∃ x ∈ ts, 92 ≤ x) ∨ (∃ k, k < 8 ∧ 92 ≤ (memCtl s k).temp) → (6 < tu → smGet full26 u.power.tu t = tu - 1 ∧ smGet full26 u.power.tr t = tr) ∧
          (tu ≤ 6 → 14 < tr → smGet full26 u.power.tu t = tu ∧ smGet full26 u.power.tr t = tr - 1)) ∧
        ((∀ x ∈ ts, x < 89) → (∀ k, k < 8 → (memCtl s k).temp < 89) → (tr < 26 → smGet full26 u.power.tu t = tu ∧ smGet full26 u.power.tr t = tr + 1) ∧
          (26 ≤ tr → tu < 26 → smGet full26 u.power.tu t = tu + 1 ∧ smGet full26 u.power.tr t = tr))) ∧
    (s.power.prochotOwn = true ∨ s.power.prochotBoard = low → exec (.prochotInput low) s = .next s) ∧
    (s.power.prochotOwn = false → s.power.prochotBoard ≠ low → Completes (.prochotInput low) s fun u => u.power.prochotBoard = low ∧ SameBytes s u ∧
      (low = true → lowered u) ∧ (low = false → u.power = { s.power with prochotBoard := false })) ∧
    (Completes (.vrAlert low) s fun u => u.power = { s.power with vrAlert := low } ∧
      u.pads.events = (if low then s.pads.events ||| 0x80 else s.pads.events) ∧ { u with power := s.power, pads := { u.pads with events := s.pads.events } } = s) ∧
    (s.power.perst = true → exec .perstAssert s = .next s) ∧
    (s.power.perst = false → Completes .perstAssert s fun u => u.power.perst = true ∧ u.power.perstRan = s.pcie.running ∧ u.pcie.running = 0) ∧
    (s.power.perst = false → exec .perstRelease s = .next s) ∧
    (s.power.perst = true → s.pcie.running = 0 → Completes .perstRelease s fun u => u.power.perst = false ∧ u.pcie.running = s.power.perstRan ∧ SameBytes s u)) ∧
  (∀ (s : State) (c : Fin 2),
    let a := s.power.activeRef
    (s.power.refPresent = 3 → a < 2 →
      (Completes .refclkSwitch s fun u => u.power.activeRef = 1 - a ∧ u.power.refPresent = BitVec.ofNat 2 (2 ^ (1 - a)) ∧ Newest 0x301 u ∧
        u.time = { s.time with src := 1 - a } ∧ SameBytes s u) ∧
      (Completes .standbyRefclkAbsent s fun u => u.power.activeRef = a ∧ u.power.refPresent = BitVec.ofNat 2 (2 ^ a) ∧ Newest 0x301 u ∧ u.time = s.time)) ∧
    (s.power.refPresent ≠ 3 → exec .refclkSwitch s = .next s ∧ exec .standbyRefclkAbsent s = .next s) ∧
    (s.time.src = 2 → exec .refclkLost s = .next s) ∧
    (s.time.src ≠ 2 → Completes .refclkLost s fun u => u.power.refPresent = 0 ∧ u.time.src = 2 ∧ u.resil.contain.getLsbD 3 = true ∧ SameBytes s u) ∧
    (s.power.refPresent.getLsbD c.val = true → exec (.refclkReturn c) s = .next s) ∧
    (s.power.refPresent.getLsbD c.val = false → s.time.src ≠ 2 → Completes (.refclkReturn c) s fun u =>
      u = { s with power := { s.power with refPresent := s.power.refPresent ||| BitVec.ofNat 2 (2 ^ c.val) } }) ∧
    (s.power.refPresent.getLsbD c.val = false → s.time.src = 2 → Completes (.refclkReturn c) s fun u => u.power.activeRef = c.val ∧ u.time.src = c.val ∧
      u.power.refPresent.getLsbD c.val = true ∧ SameBytes s u ∧ (s.resil.contain = 8 → s.links.servo = .locked → u.resil.contain = 0))) ∧
  (∀ (s : State) (boot slot : BitVec 2) (test valid : Bool),
    (s.power.pwrgd = true → exec (.pwrgdRise boot slot test valid) s = .next s) ∧
    (s.power.pwrgd = false → s.power.mode ≠ .rind → Completes (.pwrgdRise boot slot test valid) s fun u => u = { s with power := { s.power with pwrgd := true } }) ∧
    (s.power.pwrgd = false → s.power.mode = .rind → Completes (.pwrgdRise boot slot test valid) s fun u => u.power.mode = .sequence ∧ u.power.pwrgd = true ∧
      u.power.strapSlot = (if valid then slot else 0) ∧ u.power.strapBoot = (if valid then boot else 0) ∧ u.power.strapTest = (if valid then test else false) ∧
      u.power.strapValid = valid ∧ u.mem = s.mem ∧ u.cores = s.cores ∧ (s.power.railUnknown = true → Newest 0x300 u)) ∧
    (s.power.mode ≠ .sequence ∨ s.power.strapTest = true → exec .sequenceComplete s = .next s) ∧
    (s.power.mode = .sequence → s.power.strapTest = false → Completes .sequenceComplete s fun u => u.power.mode = .calibrate ∧
      u.power.strapSlot = s.power.strapSlot ∧ u.pads.events = (if s.power.strapValid then 0 else 1) ∧ u.pads.level = s.pads.level ∧
      u.cellar.sealed = s.cellar.sealed ∧ u.cellar.nonce = s.cellar.nonce ∧ u.cellar.keeperSec = s.cellar.keeperSec ∧
      reg u 0x48 = (if s.power.strapBoot = 3 then 0 else s.power.strapBoot.setWidth 32) ∧ u.cores = State.reset.cores ∧ u.mem.bytes = State.reset.mem.bytes ∧ u.office = State.reset.office ∧
      u.intc = State.reset.intc ∧ u.resil.log = s.resil.log ∧ u.resil.spareLeft = s.resil.spareLeft ∧
      ∀ o, o ≠ 0x48 → reg u o = reg State.reset o)) ∧
  ∀ (s : State) (cfg : BootConfig) (l : Loader),
    (s.power.mode ≠ .calibrate → exec (.calibrateComplete cfg) s = .next s) ∧
    (s.power.mode = .calibrate → cfg.keeperOk = false → Completes (.calibrateComplete cfg) s fun u => u.power.mode = .calibrate ∧ Newest 0x400 u ∧
      u.cores = s.cores ∧ u.mem = s.mem) ∧
    let copies : SMap (List SealedRecord) := [(0, cfg.sealedA), (1, cfg.sealedB)]
    let n := max cfg.sealedA.length cfg.sealedB.length
    let brought (u : State) : Prop := u.mem.ddrChannels = chooseSet cfg.dimms ∧ u.mem.lfsrs = [] ∧ u.ctl.locks = 0x3F ∧
      u.resil.bound = (coreMap cfg.badCores).length ∧ u.cellar.secrets = (List.range n).filterMap (openEither s copies) ∧
      (s.cellar.mrs = [] → (mrOf u 0).toNat = natOfBytes (sha384 (List.replicate 48 0 ++ cfg.keeperDigest))) ∧
      ((∀ x ∈ cfg.sweeps, 16 ≤ (bestVref x.pass).2.1) → ∀ k lane wr, k < 16 → laneExists u k lane = true →
        laneResult u k lane wr = resultOf (match cfg.sweeps.find? fun x => x.unit == k && x.lane == lane && x.wr == wr && !x.again with
          | some x => bestVref x.pass
          | none => (0, 128, 0)))
    (s.power.mode = .calibrate → cfg.keeperOk = true → loaderOf s cfg cfg.loader = none → loaderOf s cfg cfg.otherLoader = none →
      Completes (.calibrateComplete cfg) s fun u => u.power.mode = .calibrate ∧ Newest 0x400 u ∧ u.cores = s.cores ∧ brought u) ∧
    (s.power.mode = .calibrate → cfg.keeperOk = true →
      loaderOf s cfg cfg.loader = some l ∨ loaderOf s cfg cfg.loader = none ∧ loaderOf s cfg cfg.otherLoader = some l →
      Completes (.calibrateComplete cfg) s fun u => u.power.mode = .run ∧ u.time.started = true ∧ brought u ∧
        ((coreMap cfg.badCores).length < 512 → u.resil.contain.getLsbD 0 = true) ∧ (∀ k, k < l.bytes.length → readByte u (l.base + k) = l.bytes.getD k 0) ∧
        HoldsBytes u (l.base + l.bytes.length) 8 cfg.cellBase ∧ HoldsBytes u (l.base + l.bytes.length + 8) 8 cfg.cellLimit ∧
        ∀ lc, lc < (coreMap cfg.badCores).length → pcOf u lc = (coreMap cfg.badCores).getD lc 0 ∧ (coreOf u lc).standing = .issuing ∧
          (coreOf u lc).pc = BitVec.ofNat 64 (l.base + l.entry) ∧ levelOf (coreOf u lc).regs = 1 ∧
          (∀ g, readG (coreOf u lc).regs g = if g = 1 then BitVec.ofNat 64 (l.base + l.bytes.length) else 0) ∧
          csr (coreOf u lc).regs 0x401 = BitVec.ofNat 64 l.base)

/-! ### Pads, UARTs, mailbox and TAP (24) -/

/-- What the low-speed outputs drive (24 R572), GPIO inputs and functions (R576 to R579), LED diagnosis (R580, R581), the UARTs (R582), flash time-outs (R583), the pad events and the
TAP (R589 to R592). -/
def Obligations.PadsSwitchSampleAndScan : Prop :=
  (∀ (s : State) (n : Fin 32) (board : Bool),
    let high := padShows s n board
    (padDrive s (.gpio n) = .released ∨ padDrive s (.gpio n) = .signal → high = board) ∧
    (Completes (.gpioInputChange n board) s fun u => (∀ b, b < 32 → u.pads.level.getLsbD b = if b = n.val then high else s.pads.level.getLsbD b) ∧
      lineHigh u (160 + n.val) = (high != (padCfg s n.val).getLsbD 10) ∧ SameBytes s u ∧
      (padReleasing s n.val = true ∨ tinOf n.val (padFsel s n.val) = none → u.time = s.time) ∧
      (∀ k, padReleasing s n.val = false → tinOf n.val (padFsel s n.val) = some k → u.time.tins.getLsbD k = high) ∧
      (padIn s n.val = false → (high != (padCfg s n.val).getLsbD 10) = true → (padCfg s n.val).getLsbD 11 = true → wakeOn s 3 = true → s.power.exiting = false →
        s.power.pstate ≠ 0 → (padReleasing s n.val = true ∨ tinOf n.val (padFsel s n.val) = none) → u.power.wakeLatch = s.power.wakeLatch ||| 8)) ∧
    (padReleasing s n.val = true → s.power.mode ≠ .scan → Completes (.functionSwitchComplete n) s fun u => padReleasing u n.val = false ∧
      padFsel u n.val = fld (padCfg s n.val) 1 0 ∧ (∀ m, m ≠ n.val → padFsel u m = padFsel s m ∧ padReleasing u m = padReleasing s m) ∧ SameBytes s u ∧
      ∀ b, b < 32 → u.pads.level.getLsbD b = if b = n.val then padShows u n (s.pads.level.getLsbD n.val) else s.pads.level.getLsbD b) ∧
    (padReleasing s n.val = false ∨ s.power.mode = .scan → exec (.functionSwitchComplete n) s = .next s) ∧
    ∀ (w : Writer) (v : Word32), Reaches w (if n.val < 24 ∧ ¬(13 ≤ n.val ∧ s.power.strapBoot = 2) then 2 else 1) 0 (0x200100 + 4 * n.val) s →
      fld v 23 12 = 0 → fld v 6 2 = 0 →
      let held := s.power.padHeld.getLsbD n.val
      let same := fld v 1 0 = fld (padCfg s n.val) 1 0
      (¬same → fselLegal n.val (fld v 1 0) = false → Refuses (.functionSwitch w n v) s 3) ∧
      (same ∨ fselLegal n.val (fld v 1 0) = true → Commands (.functionSwitch w n v) w (0x200100 + 4 * n.val) v s fun u =>
        padCfg u n.val = v ∧ (∀ o, o ≠ 0x200100 + 4 * n.val → o / 0x100000 ≠ 3 → reg u o = reg s o) ∧ SameBytes s u ∧
        (∀ b, b < 32 → b ≠ n.val → u.pads.level.getLsbD b = s.pads.level.getLsbD b) ∧
        (same → u.pads.level.getLsbD n.val = padShows u n (s.pads.level.getLsbD n.val)) ∧
        lineHigh u (160 + n.val) = (u.pads.level.getLsbD n.val != v.getLsbD 10) ∧
        (∀ m, m ≠ n.val → padFsel u m = padFsel s m ∧ padReleasing u m = padReleasing s m) ∧
        (same → padFsel u n.val = padFsel s n.val ∧ padReleasing u n.val = padReleasing s n.val) ∧
        (¬same → held = false → padFsel u n.val = padFsel s n.val ∧ padReleasing u n.val = true) ∧
        (¬same → held = true → padFsel u n.val = fld v 1 0 ∧ padReleasing u n.val = padReleasing s n.val))) ∧
  (∀ (s : State),
    (s.power.mode ≠ .scan →
      (s.power.pwrgd = false ∨ s.power.mode = .off ∨ s.power.mode = .rind ∨ s.power.mode = .sequence → ∀ o, o ≠ .thermtrip → padDrive s o = .released) ∧
      (padDrive s .thermtrip = .low ∨ padDrive s .thermtrip = .released) ∧
      (s.power.thermtrip = true → s.power.pwrgd = true → nowNs s < s.power.tripAt + 10000000 → padDrive s .thermtrip = .low) ∧
      (s.power.thermtrip = false ∨ s.power.tripAt + 10000000 ≤ nowNs s → padDrive s .thermtrip = .released)) ∧
    (s.power.mode = .scan → ∀ o, o ≠ .tdo → padDrive s o = (if s.pads.ir = 5 ∨ s.pads.released = true ∨ padCode s.pads.ir = false then .released else .signal)) ∧
    (s.power.mode = .calibrate ∨ s.power.mode = .run ∨ s.power.mode = .doze ∨ s.power.mode = .deepDoze ∨ s.power.mode = .drain → s.power.pwrgd = true →
      (padDrive s .prochot = if s.power.prochotOwn then .low else .released) ∧
      (padDrive s .syncOut = if (reg s 0x300050).getLsbD 0 then (if s.time.syncOut then .high else .low) else .released) ∧
      ∀ n : Fin 32, (padReleasing s n.val = true → padDrive s (.gpio n) = .released) ∧
        (padReleasing s n.val = false → padFsel s n.val = 0 →
          let c := padCfg s n.val
          (c.getLsbD 7 = false → padDrive s (.gpio n) = .released) ∧
          (c.getLsbD 7 = true → s.power.padHeld.getLsbD n.val = false →
            padDrive s (.gpio n) = if c.getLsbD 8 then (if c.getLsbD 9 then .released else .high) else .low)))) ∧
  (∀ (s : State) (hi lo : BitVec 4),
    Completes (.ledDiagnosis hi lo) s fun u => { u with pads := { u.pads with ledDiag := s.pads.ledDiag } } = s ∧ ∀ n, n < 4 →
      let r := reg s (0x200210 + 4 * n)
      let on := if (reg s 0x200200).getLsbD n then fld r 31 16 * 1000 * fld r 15 0 / 65536 / 80 * 80 else 0
      let mine := padFsel s (28 + n) = 1 ∧ padReleasing s (28 + n) = false
      let short := mine ∧ lo.getLsbD n = true ∧ (on = 0 ∨ on + 25000 ≤ 1000 * fld r 31 16)
      let tested := mine ∧ 0 < on ∧ (25000 ≤ on ∨ (reg s 0x200200).getLsbD 31 = true)
      fld u.pads.ledDiag (2 * n + 1) (2 * n) = if short then 3 else if tested then (if hi.getLsbD n then 2 else 1) else 0) ∧
  (∀ (s : State) (k : Fin 2) (b : Byte) (frame brk : Bool) (w : Writer) (v : Word32),
    let x := uart s k.val
    let now (u : State) (y : Uart) : Prop := uart u k.val = y ∧ (∀ j, j ≠ k.val → uart u j = uart s j) ∧ SameBytes s u ∧ u.ctl = s.ctl ∧
      lineHigh u (156 + k.val) = (((reg s (0x200314 + 32 * k.val)).getLsbD 0 && decide (y.rx ≠ [])) || ((reg s (0x200314 + 32 * k.val)).getLsbD 1 && decide (y.tx.length < 32)))
    (uartOn s k.val = false ∨ uartPad s k.val 1 = false → exec (.uartRxByte k b frame brk) s = .next s) ∧
    (uartOn s k.val = true → uartPad s k.val 1 = true →
      (brk = true → Completes (.uartRxByte k b frame brk) s fun u => now u { x with err := x.err ||| 1 }) ∧
      (brk = false → x.rx.length < 64 → Completes (.uartRxByte k b frame brk) s fun u =>
        now u { x with err := if frame then x.err ||| 2 else x.err, rx := x.rx ++ [b] }) ∧
      (brk = false → 64 ≤ x.rx.length → Completes (.uartRxByte k b frame brk) s fun u => now u { x with err := (if frame then x.err ||| 2 else x.err) ||| 4 })) ∧
    (uartOn s k.val = true → Completes (.uartByteSent k) s fun u => now u { x with tx := x.tx.drop 1 }) ∧
    (uartOn s k.val = false → exec (.uartByteSent k) s = .next s) ∧
    (Reaches w 1 0 (0x200304 + 32 * k.val) s → v.toNat < 256 →
      (x.tx.length < 64 → Commands (.uartTx w k v) w (0x200304 + 32 * k.val) v s fun u => now u { x with tx := x.tx ++ [v.setWidth 8] }) ∧
      (64 ≤ x.tx.length → Refuses (.uartTx w k v) s 7)) ∧
    (Answers w 1 0 (0x200308 + 32 * k.val) s →
      (x.rx = [] → Reads (.uartRxRead w k) s s 0 0) ∧
      ∀ c rest, x.rx = c :: rest → ReadsToClear (.uartRxRead w k) w s (BitVec.ofNat 64 (2 ^ 31 + c.toNat)) fun u => now u { x with rx := rest }) ∧
    (Answers w 1 0 (0x200310 + 32 * k.val) s → ReadsToClear (.uartErrRead w k) w s (x.err.setWidth 64) fun u => now u { x with err := 0 })) ∧
  (∀ (s : State) (c : Fin 2) (w : Writer),
    (Completes (.flashTimeout c) s fun u => (∀ k, smGet zeroNat u.pads.flashFails k = smGet zeroNat s.pads.flashFails k + if k = c.val then 1 else 0) ∧
      u.pads.events = s.pads.events ||| BitVec.ofNat 8 (4 * 2 ^ c.val) ∧
      { u with pads := { u.pads with flashFails := s.pads.flashFails, events := s.pads.events } } = s) ∧
    (Answers w 1 0 0x200008 s → ReadsToClear (.padEventRead w) w s (s.pads.events.setWidth 64) fun u =>
      u = { s with pads := { s.pads with events := 0 } })) ∧
  ∀ (s : State) (ir : BitVec 8) (d : BitVec 2112) (x : Word64),
    let quiet (u : State) : Prop :=
      { u with power := s.power, pads := { u.pads with alerts := s.pads.alerts, ir := s.pads.ir, safeEn := s.pads.safeEn, released := s.pads.released } } = s
    let back (u : State) : Prop := u.power = { s.power with mode := if s.power.mode = .scan then .sequence else s.power.mode } ∧ quiet u
    let on := s.power.mode ≠ .off
    let fires := s.pads.safeEn = true ∧ s.power.mode = .scan ∧ padCode s.pads.ir = true ∧ s.pads.released = false
    (¬on → exec .tapReset s = .next s ∧ exec (.tapUpdateIr ir) s = .next s ∧ exec (.tapUpdateDr d) s = .next s) ∧
    (on → Completes .tapReset s fun u => u.pads.ir = 1 ∧ u.pads.safeEn = false ∧ u.pads.released = false ∧ back u) ∧
    (padCode ir = true → s.power.strapTest = true → s.power.mode = .sequence ∨ s.power.mode = .scan → Completes (.tapUpdateIr ir) s fun u =>
      u.pads.ir = ir ∧ u.pads.released = false ∧ u.pads.safeEn = s.pads.safeEn ∧ u.power = { s.power with mode := .scan } ∧ quiet u) ∧
    (on → padCode ir = false ∨ s.power.strapTest = false ∨ s.power.mode ≠ .sequence ∧ s.power.mode ≠ .scan → Completes (.tapUpdateIr ir) s fun u =>
      u.pads.ir = ir ∧ u.pads.released = false ∧ u.pads.safeEn = s.pads.safeEn ∧ back u) ∧
    (on → s.pads.ir = 2 ∨ (s.pads.ir = 0 ∨ s.pads.ir = 6 ∨ s.pads.ir = 7) ∧ s.power.mode = .scan → Completes (.tapUpdateDr d) s fun u =>
      u = { s with pads := { s.pads with boundary := d, released := false } }) ∧
    (on → s.pads.ir = 0x10 → Completes (.tapUpdateDr d) s fun u =>
      { u with pads := { u.pads with safeEn := s.pads.safeEn, safeTimeout := s.pads.safeTimeout, released := s.pads.released } } = s ∧ u.pads.released = false ∧
      (if 1 ≤ fld d 9 0 ∧ fld d 9 0 ≤ 1000 then u.pads.safeEn = d.getLsbD 15 ∧ u.pads.safeTimeout.toNat = fld d 9 0
        else u.pads.safeEn = s.pads.safeEn ∧ u.pads.safeTimeout = s.pads.safeTimeout)) ∧
    (on → s.pads.ir ≠ 2 → s.pads.ir ≠ 0x10 → ¬((s.pads.ir = 0 ∨ s.pads.ir = 6 ∨ s.pads.ir = 7) ∧ s.power.mode = .scan) → Completes (.tapUpdateDr d) s fun u =>
      u = { s with pads := { s.pads with released := false } }) ∧
    (fires → Completes .safeholdExpiry s fun u => u = { s with pads := { s.pads with released := true, events := s.pads.events ||| 0x40 } }) ∧
    (¬fires → exec .safeholdExpiry s = .next s) ∧
    (s.pads.ir ≠ 0x20 ∨ x.getLsbD 0 = false ∨ ¬on → exec (.dbgacc x) s = .next s) ∧
    (on → s.pads.ir = 0x20 → x.getLsbD 0 = true → fld x 31 24 ≠ 0 → Completes (.dbgacc x) s fun u =>
      u = { s with pads := { s.pads with released := false, dbgData := 0, dbgStatus := 4 } }) ∧
    (on → s.pads.ir = 0x20 → x.getLsbD 0 = true → fld x 31 24 = 0 →
      let s1 := { s with pads := { s.pads with released := false } }
      let o := 0x5000000 + 4 * fld x 23 2
      let answered (u a : State) (st : Nat) (v : Word32) : Prop := u = { a with pads := { a.pads with dbgData := v, dbgStatus := st } }
      let r := ctlRead (.path 1) o s1
      let q := ctlWrite (.path 1) o (BitVec.ofNat 32 (fld x 63 32)) s1
      (x.getLsbD 1 = false → Completes (.dbgacc x) s fun u => answered u r.2.2 r.1 r.2.1) ∧
      (x.getLsbD 1 = true → Completes (.dbgacc x) s fun u => answered u q.2 q.1 0))

/-- The management mailbox (24 R584 to R588): a request with a sound PEC is held and served once, its response kept with its TAG; the commands of the
table *Mailbox commands*; the messages to and from S-level software; the dynamic address. -/
def Obligations.TheMailboxServesItsCommands : Prop :=
  (∀ (s : State) (cmd tag len : Byte) (payload : List Byte) (pec : Byte),
    let i : Instr := .mailboxRequest cmd tag len payload pec
    let sound := pec = crc8 ([cmd, tag, len] ++ payload) ∧ len.toNat ≤ 56 ∧ payload.length = len.toNat
    let replied (u : State) (st : Nat) : Prop := u = { s with pads := { s.pads with request := none, reply := some ⟨st, tag, []⟩ } }
    (s.power.mode = .off ∨ s.pads.request ≠ none → exec i s = .next s) ∧
    (s.power.mode ≠ .off → s.pads.request = none →
      (¬sound → Completes i s fun u => replied u 4) ∧
      (sound → cmd = 0 ∨ 12 < cmd.toNat → Completes i s fun u => replied u 5) ∧
      (sound → cmd ≠ 0 → cmd.toNat ≤ 12 → Completes i s fun u => u.pads = { s.pads with request := some (cmd.toNat, tag, payload), reply := none } ∧
        { u with pads := s.pads, power := { u.power with wakeLatch := s.power.wakeLatch, wakeLast := s.power.wakeLast } } = s ∧
        (cmd ≠ 7 → u.power = s.power) ∧
        (cmd = 7 → inRind (natOfBytes (payload.take 4)) = false → s.power.pstate ≠ 0 → s.power.exiting = false → u.power.wakeLatch = s.power.wakeLatch ||| 2)))) ∧
  (∀ (s : State) (a : BitVec 7) (w : Writer) (v : Word32),
    (s.power.mode = .off → exec .mailboxStall s = .next s ∧ exec (.dynamicAddressAssign a) s = .next s ∧ exec .rstdaa s = .next s) ∧
    (s.power.mode ≠ .off →
      (Completes .mailboxStall s fun u => u = { s with pads := { s.pads with request := none, reply := none, events := s.pads.events ||| 0x20 } }) ∧
      (Completes (.dynamicAddressAssign a) s fun u => u = { s with pads := { s.pads with dynAddr := some a } }) ∧
      (Completes .rstdaa s fun u => u = { s with pads := { s.pads with dynAddr := none } })) ∧
    (Reaches w 1 0 0x200024 s → fld v 27 6 = 0 →
      (Commands (.mbxReleaseIn w v) w 0x200024 (putFld v 31 28 1) s fun u => u.pads = { s.pads with inFull := false } ∧ lineHigh u 153 = false ∧ SameBytes s u) ∧
      (fld v 5 0 = 0 ∨ 56 < fld v 5 0 → Refuses (.mbxPostOut w v) s 3) ∧
      (1 ≤ fld v 5 0 → fld v 5 0 ≤ 56 → s.pads.outFull = true → Refuses (.mbxPostOut w v) s 7) ∧
      (1 ≤ fld v 5 0 → fld v 5 0 ≤ 56 → s.pads.outFull = false → Commands (.mbxPostOut w v) w 0x200024 (putFld v 31 28 2) s fun u =>
        u.pads.outFull = true ∧ u.pads.hostOut.length = fld v 5 0 ∧ u.pads.alerts = s.pads.alerts ||| 2 ∧
        (∀ k, k < fld v 5 0 → u.pads.hostOut.getD k 0 = BitVec.ofNat 8 ((reg s (0x200080 + 4 * (k / 4))).toNat / 256 ^ (k % 4))) ∧
        { u with pads := { u.pads with outFull := s.pads.outFull, hostOut := s.pads.hostOut, alerts := s.pads.alerts } } = s))) ∧
  ∀ (s : State) (tag : Byte) (p : List Byte),
    let held (cmd : Nat) : Prop := s.pads.request = some (cmd, tag, p) ∧ s.power.mode ≠ .off
    let answers (i : Instr) (st : Nat) (data : List Byte) (E : State → Prop) : Prop := Completes i s fun t => ∃ u, E u ∧
      t = { u with pads := { u.pads with request := none, reply := some ⟨st, tag, data⟩ } }
    let same (u : State) : Prop := u = s
    let res (n : Nat) : List Byte := bytesOfNat (if s.power.mode = .rind then 0 else n) 4
    (∀ c i, (c, i) ∈ [(1, Instr.getId), (2, .getState), (3, .powerOn), (4, .mailboxDrain), (5, .logSeq), (6, .readLog), (7, .readReg), (8, .getAlert),
        (9, .setPwrLimit), (10, .debug), (11, .hostMsg), (12, .hostRead)] →
      ((∀ tg q, s.pads.request ≠ some (c, tg, q)) ∨ s.power.mode = .off → exec i s = .next s) ∧
      (held c → c ≠ 11 → p.length ≠ (if c = 6 ∨ c = 7 then 4 else if c = 9 then 2 else if c = 10 then 9 else 0) → answers i 4 [] same)) ∧
    (held 1 → p = [] → answers .getId 0 (bytesOfNat sysId 4 ++ bytesOfNat s.cellar.serial.toNat 8) same) ∧
    (held 2 → p = [] → answers .getState 0 (bytesOfNat (sysMode s) 4 ++ bytesOfNat (pwrStat s) 4 ++ bytesOfNat (pwrReqStat s) 4 ++ res (resStat s) ++
      res s.resil.contain.toNat) same) ∧
    (held 3 → p = [] → (s.power.mode ≠ .rind → answers .powerOn 0 [] same) ∧
      (s.power.mode = .rind → s.power.pwrgd = false → answers .powerOn 3 [] same) ∧
      (s.power.mode = .rind → s.power.pwrgd = true → s.power.tripped = false → answers .powerOn 0 [] fun u =>
        u.power.mode = .sequence ∧ u.power.cur = some .powerOn ∧ u.power.last = 2 ∧ SameBytes s u) ∧
      (s.power.mode = .rind → s.power.tripped = true → answers .powerOn 3 [] same)) ∧
    (held 4 → p = [] → (s.power.mode = .run → s.power.cur = none → s.power.pstate = 0 → answers .mailboxDrain 0 [] fun u =>
        u.power.mode = .drain ∧ u.power.cur = some .drain ∧ u.power.last = 2) ∧
      (∀ t, drainAllowed s = true → s.power.cur = some t → (∀ r, s.power.pend = some r → r.commanded = false) → answers .mailboxDrain 0 [] fun u =>
        u = { s with power := { s.power with pend := some { what := .drain, commanded := true }, last := 2 } }) ∧
      (∀ t r, drainAllowed s = true → s.power.cur = some t → s.power.pend = some r → r.commanded = true → answers .mailboxDrain 7 [] same) ∧
      (s.power.mode ≠ .run → s.power.mode ≠ .doze → s.power.mode ≠ .deepDoze → answers .mailboxDrain 3 [] same)) ∧
    (held 5 → p = [] → answers .logSeq 0 (bytesOfNat s.resil.logSeq 4) same) ∧
    (held 6 → p.length = 4 → (natOfBytes p < 4096 → answers .readLog 0 (match logSlot s (natOfBytes p) with | some e => entryBytes e | none => List.replicate 48 0) same) ∧
      (4096 ≤ natOfBytes p → answers .readLog 3 [] same)) ∧
    (held 7 → p.length = 4 → answers .readReg (ctlRead (.path 2) (natOfBytes p) s).1 (bytesOfNat (ctlRead (.path 2) (natOfBytes p) s).2.1.toNat 4) fun u =>
      u = (ctlRead (.path 2) (natOfBytes p) s).2.2) ∧
    (held 8 → p = [] → answers .getAlert 0 (bytesOfNat s.pads.alerts.toNat 4) fun u => u = { s with pads := { s.pads with alerts := 0 } }) ∧
    (held 9 → p.length = 2 → Reaches (.path 2) 1 0 0x100030 s → natOfBytes p < 2048 →
      (300 ≤ natOfBytes p → natOfBytes p ≤ fld (reg s 0x100034) 10 0 → answers .setPwrLimit 0 [] fun u =>
        reg u 0x100030 = BitVec.ofNat 32 (natOfBytes p) ∧ (∀ o, o ≠ 0x100030 → reg u o = reg s o) ∧ u.power = s.power) ∧
      (natOfBytes p < 300 ∨ fld (reg s 0x100034) 10 0 < natOfBytes p → answers .setPwrLimit 3 [] same)) ∧
    (held 10 → p.length = 9 → let o := natOfBytes (p.take 4)
      let v : Word32 := BitVec.ofNat 32 (natOfBytes (p.drop 5))
      (0x1000000 ≤ o → answers .debug 5 (bytesOfNat 0 4) same) ∧
      (o < 0x1000000 → p.getD 4 0 = 0 → answers .debug (ctlRead (.path 2) (0x5000000 + o) s).1 (bytesOfNat (ctlRead (.path 2) (0x5000000 + o) s).2.1.toNat 4) fun u =>
        u = (ctlRead (.path 2) (0x5000000 + o) s).2.2) ∧
      (o < 0x1000000 → p.getD 4 0 ≠ 0 → answers .debug (ctlWrite (.path 2) (0x5000000 + o) v s).1 (bytesOfNat 0 4) fun u =>
        u = (ctlWrite (.path 2) (0x5000000 + o) v s).2)) ∧
    (held 11 → (p = [] → answers .hostMsg 3 [] same) ∧ (p ≠ [] → s.pads.inFull = true → answers .hostMsg 7 [] same) ∧
      (p ≠ [] → s.pads.inFull = false → answers .hostMsg 0 [] fun u => u.pads = { s.pads with hostIn := p, inFull := true } ∧ lineHigh u 153 = true ∧ SameBytes s u)) ∧
    (held 12 → p = [] → answers .hostRead 0 (if s.pads.outFull then s.pads.hostOut else []) fun u => u = { s with pads := { s.pads with outFull := false } })

/-! ### Debug and trace (23) -/

/-- The attachment and its level (23 R547 to R549; 19 R475); halting, resuming and stepping (R550 to R554); the register window (R555); memory by cycle
stealing (R556, R557); stimulus ports and the trace ring (R562, R563); a counter's wrap (R566). Challenges are values nothing constrains. -/
def Obligations.DebuggersAttachHaltAndLook : Prop :=
  (∀ (s : State) (w : Writer) (v : Word32),
    let p := pathOf w
    let closed (u : State) : Prop := u.dbg.level = 0 ∧ ∀ lc, lc < s.resil.bound → (coreOf u lc).standing ≠ .halted ∧ (coreOf u lc).stepReq = false ∧
      reg u (0x5000100 + 16 * lc) = 0 ∧ (coreOf u lc).regs = (coreOf s lc).regs
    (Reaches w 1 0 0x5000004 s → fld v 27 0 = 0 → p ≠ 0 →
      (s.dbg.path = 0 → Commands (.dbgAttach w v) w 0x5000004 (putFld v 31 28 1) s fun u => u = { s with dbg := { s.dbg with path := p, lastAccess := s.time.now } }) ∧
      (s.dbg.path = p → Commands (.dbgAttach w v) w 0x5000004 (putFld v 31 28 1) s fun u => u = s) ∧
      (s.dbg.path ≠ 0 → s.dbg.path ≠ p → Refuses (.dbgAttach w v) s 7 ∧ Refuses (.dbgDetach w v) s 7) ∧
      (s.dbg.path = 0 → Commands (.dbgDetach w v) w 0x5000004 (putFld v 31 28 2) s fun u => u = s) ∧
      (s.dbg.path = p → Commands (.dbgDetach w v) w 0x5000004 (putFld v 31 28 2) s fun u => u.dbg.path = 0 ∧ closed u)) ∧
    (let due := s.dbg.path ≠ 0 ∧ s.dbg.lastAccess.toNat + fld (reg s 0x5000008) 15 0 * 1000000000 ≤ nowNs s;
      (due → Completes .attachTimeout s fun u => u.dbg.path = 0 ∧ closed u) ∧ (¬due → exec .attachTimeout s = .next s)) ∧
    (let due := 0 < s.dbg.level ∧ s.dbg.grantEnd.toNat ≤ nowNs s;
      (due → Completes .grantExpiry s fun u => u.dbg.path = s.dbg.path ∧ closed u) ∧ (¬due → exec .grantExpiry s = .next s)) ∧
    (Reaches w 1 0 0x5000010 s →
      (fld v 15 2 ≠ 0 → Refuses (.authRequest w v) s 4) ∧
      (fld v 15 2 = 0 → fld v 1 0 = 0 ∨ fld v 1 0 = 3 ∨ fld v 31 16 = 0 → Refuses (.authRequest w v) s 3) ∧
      (fld v 15 2 = 0 → fld v 1 0 = 1 ∨ fld v 1 0 = 2 → fld v 31 16 ≠ 0 → s.dbg.lockedUntil.toNat ≤ nowNs s → Commands (.authRequest w v) w 0x5000010 v s fun u =>
        u.dbg = { s.dbg with challenge := u.dbg.challenge, wanted := some (fld v 1 0, fld v 31 16), reqPath := p } ∧ u.dbg.challenge.length = 48 ∧
        { u with dbg := s.dbg, fresh := s.fresh } = s) ∧
      (fld v 15 2 = 0 → fld v 1 0 = 1 ∨ fld v 1 0 = 2 → fld v 31 16 ≠ 0 → nowNs s < s.dbg.lockedUntil.toNat →
        Commands (.authRequest w v) w 0x5000010 v s fun u => u = s)) ∧
    (Reaches w 1 0 0x5000060 s → fld v 27 1 = 0 → fld v 31 28 < 2 →
      (v.getLsbD 0 = false → Commands (.authSubmit w v) w 0x5000060 v s fun u => u = s) ∧
      (v.getLsbD 0 = true → s.dbg.wanted = none → s.dbg.lockedUntil.toNat ≤ nowNs s → Commands (.authSubmit w v) w 0x5000060 v s fun u =>
        u.dbg.level = s.dbg.level ∧ Newest 0x403 u ∧ u.cellar = s.cellar ∧
        (2 ≤ (s.dbg.refusals.filter fun x => decide (nowNs s < x + 1000000000)).length → u.dbg.lockedUntil = BitVec.ofNat 64 (nowNs s + 60000000000))) ∧
      ∀ lvl dur, v.getLsbD 0 = true → s.dbg.wanted = some (lvl, dur) →
        let sig := if fld v 31 28 = 0 then 4627 else 96
        let dig := sha384 (bytesOfNat sysId 4 ++ bytesOfNat s.cellar.serial.toNat 4 ++ s.dbg.challenge ++ bytesOfNat lvl 4 ++ bytesOfNat dur 4)
        let lvl1 := min lvl (fld (reg s 0x500000C) 1 0)
        let good := Config.signatureOk (fld v 31 28) dig ((respBytes s).take sig) = true ∧ (∀ b ∈ (respBytes s).drop sig, b = 0) ∧ s.dbg.reqPath = p ∧
          s.dbg.path = p ∧ 0 < lvl1
        (good → Commands (.authSubmit w v) w 0x5000060 v s fun u => u.dbg.level = lvl1 ∧ u.dbg.challenge = [] ∧ u.dbg.wanted = none ∧
          u.dbg.grantEnd = BitVec.ofNat 64 (nowNs s + dur * 1000000000) ∧ Newest 0x403 u ∧
          (∀ k, mrOf u k = if k = 3 then BitVec.ofNat 384 (natOfBytes (sha384 (bytesOfNat (mrOf s k).toNat 48 ++ dig))) else mrOf s k)) ∧
        (¬good → Commands (.authSubmit w v) w 0x5000060 v s fun u => u.dbg.level = s.dbg.level ∧ u.dbg.challenge = [] ∧ u.dbg.wanted = none ∧ Newest 0x403 u ∧
          u.cellar = s.cellar))) ∧
  (∀ (s : State) (w : Writer) (lc : LC),
    let c := coreOf s lc.val
    let off := 0x5000104 + 16 * lc.val
    let noEvents := (reg s 0x500240C).getLsbD 1 = false
    let run : Standing := if c.vecStop then .stopped else .issuing
    let skip := c.skipOnce || (c.haltCause &&& 12) != 0
    (Reaches w 1 2 off s →
      (s.resil.bound ≤ lc.val → Refuses (.haltRequest w lc) s 3 ∧ Refuses (.resume w lc) s 3 ∧ Refuses (.step w lc) s 3) ∧
      (lc.val < s.resil.bound →
        (c.standing ≠ .halted → (Commands (.haltRequest w lc) w off 0x10000000 s fun u => CoreNow lc s u { c with haltReq := true, haltCause := c.haltCause ||| 16 }) ∧
          Refuses (.resume w lc) s 6 ∧ Refuses (.step w lc) s 6) ∧
        (c.standing = .halted → (Commands (.haltRequest w lc) w off 0x10000000 s fun u => u = s) ∧
          (noEvents → (Commands (.resume w lc) w off 0x20000000 s fun u =>
            coreOf u lc.val = { c with standing := run, stepReq := false, haltReq := false, skipOnce := skip, haltCause := 0, resuming := true } ∧ SameBytes s u ∧
              ∀ n, n ≠ lc.val → coreOf u n = coreOf s n) ∧
            (Commands (.step w lc) w off 0x30000000 s fun u =>
              coreOf u lc.val = { c with standing := run, stepReq := true, haltReq := false, skipOnce := skip, haltCause := 0, resuming := true } ∧ SameBytes s u ∧
                ∀ n, n ≠ lc.val → coreOf u n = coreOf s n))))) ∧
    (Reaches w 1 2 0x5002100 s →
      (Commands (.haltAll w) w 0x5002100 0x10000000 s fun u => ∀ n, coreOf u n =
        if n < s.resil.bound ∧ (coreOf s n).standing ≠ .halted then { coreOf s n with haltReq := true, haltCause := (coreOf s n).haltCause ||| 1 } else coreOf s n) ∧
      (Commands (.resumeAll w) w 0x5002100 0x20000000 s fun u => ∀ n, n < s.resil.bound → (coreOf u n).standing ≠ .halted ∧ (coreOf u n).regs = (coreOf s n).regs)) ∧
    let halts := c.haltReq = true ∧ c.group = none ∧ c.shadows = [] ∧ c.drainReq = false ∧ c.paused = false ∧ levelOf c.regs ≠ 2 ∧ c.standing ≠ .halted ∧
      lc.val < s.resil.bound
    (halts → noEvents → Completes (.debugHalt lc) s fun u =>
      let r := (coreOf u lc.val).regs
      coreOf u lc.val = { c with standing := .halted, wait := none, haltReq := false, stepReq := false, resuming := false, regs := { c.regs with csr := r.csr } } ∧
      (∀ n, n < 0x500 ∨ 0x508 < n → n ≠ 0x520 → n ≠ 0x540 → n ≠ 0x542 → csr r n = csr c.regs n) ∧ (pmFrozen c.regs = true → r = c.regs) ∧
      (pmFrozen c.regs = true ∨ (csr c.regs 0x540).getLsbD 31 = false → SameBytes s u) ∧ (∀ n, n ≠ lc.val → coreOf u n = coreOf s n) ∧ u.dbg = s.dbg) ∧
    (¬halts → exec (.debugHalt lc) s = .next s)) ∧
  (∀ (s : State) (w : Writer), Reaches w 1 1 0x5002204 s →
    let sel := reg s 0x5002200
    let lc := fld sel 24 16
    let n := fld sel 11 0
    let cls := fld sel 31 28
    let r := (coreOf s lc).regs
    let stops (st : Nat) : Prop := (Commands (.registerWindowRead w) w 0x5002204 0x10000000 s fun u => u = { s with dbg := { s.dbg with rStatus := st } }) ∧
      (dbgAllows s w 2 = true → Commands (.registerWindowWrite w) w 0x5002204 0x20000000 s fun u => u = { s with dbg := { s.dbg with rStatus := st } })
    let got (x : Word64) : Prop := Commands (.registerWindowRead w) w 0x5002204 0x10000000 s fun u => u.dbg = { s.dbg with rStatus := 0 } ∧
      reg64 u 0x5002210 = x.toNat ∧ (∀ o, o ≠ 0x5002210 → o ≠ 0x5002214 → reg u o = reg s o) ∧ u.cores = s.cores ∧ SameBytes s u
    let x : Word64 := BitVec.ofNat 64 (reg64 s 0x5002210)
    let put (R : Regs → Prop) : Prop := dbgAllows s w 2 = true → Commands (.registerWindowWrite w) w 0x5002204 0x20000000 s fun u => u.dbg = { s.dbg with rStatus := 0 } ∧
      R (coreOf u lc).regs ∧ coreOf u lc = { coreOf s lc with regs := (coreOf u lc).regs } ∧ (∀ k, k ≠ lc → coreOf u k = coreOf s k) ∧ SameBytes s u
    (dbgAllows s w 2 = false → Refuses (.registerWindowWrite w) s 15) ∧
    (s.resil.bound ≤ lc → stops 3) ∧
    (lc < s.resil.bound → (coreOf s lc).standing ≠ .halted → stops 6) ∧
    (lc < s.resil.bound → (coreOf s lc).standing = .halted →
      (4 < cls → stops 4) ∧ (cls = 0 ∧ 32 ≤ n ∨ cls = 1 ∧ 2 ≤ n ∨ cls = 2 ∧ 256 ≤ n ∨ cls = 3 ∧ 8 ≤ n → stops 3) ∧
      (∀ g : GReg, cls = 0 → g.val = n → got (readG r g) ∧ put (WroteG g x r.flags r)) ∧
      (cls = 1 → n = 0 → got (flagsWord r.flags) ∧ (x.toNat < 16 → put fun q => q = { r with flags := flagsOfWord x })) ∧
      (cls = 1 → n = 1 → got (coreOf s lc).pc ∧ (x.toNat % 4 = 0 → dbgAllows s w 2 = true → Commands (.registerWindowWrite w) w 0x5002204 0x20000000 s fun u =>
        coreOf u lc = { coreOf s lc with pc := x, vecStop := false } ∧ u.dbg = { s.dbg with rStatus := 0 })) ∧
      (∀ k : VReg, cls = 2 → k.val = n / 8 → got ((readV r k).extractLsb' (64 * (n % 8)) 64) ∧ put fun q => ∃ y, WroteV k y r q ∧
        ∀ j, j < 8 → y.extractLsb' (64 * j) 64 = if j = n % 8 then x else (readV r k).extractLsb' (64 * j) 64) ∧
      (∀ k : KReg, cls = 3 → k.val = n → got (readK r k) ∧ put (WroteK k x r)) ∧
      (cls = 4 →
        let lvl := if s.cellar.life then 1 else 2
        let z := csrRead lc lvl n s
        let y := csrWrite lc lvl n x s
        (Commands (.registerWindowRead w) w 0x5002204 0x10000000 s fun u => u.dbg.rStatus = z.1 ∧ (z.1 = 0 → reg64 u 0x5002210 = z.2.1.toNat)) ∧
        (dbgAllows s w 2 = true → Commands (.registerWindowWrite w) w 0x5002204 0x20000000 s fun u => u.dbg.rStatus = y.1 ∧ u.cores = y.2.cores)))) ∧
  (∀ (s : State) (w : Writer) (v : Word32), Reaches w 1 1 0x5002308 s → fld v 27 9 = 0 → fld v 7 1 = 0 →
    let pa := reg64 s 0x5002300
    let n := if v.getLsbD 8 then 8 else 4
    let inMem := (∃ q, placeOf pa = some q ∧ (q.region = .hbm ∨ q.region = .ddr ∨ q.region = .scratch)) ∧ backed s pa = true
    let fails (i : Instr) (op st : Nat) : Prop := Commands i w 0x5002308 (putFld v 31 28 op) s fun u => u = { s with dbg := { s.dbg with mStatus := st, mPoison := false } }
    let done (u : State) : Prop := u.dbg = { s.dbg with mStatus := 0, mPoison := false } ∧ u.cores = s.cores
    let full := dbgAllows s w 2 = true
    (dbgAllows s w 2 = false → Refuses (.debugMemoryWrite w v) s 15 ∧ Refuses (.debugLineWrite w v) s 15) ∧
    ((∀ q, placeOf pa = some q → q.region ≠ .control) →
      (pa % n ≠ 0 → fails (.debugMemoryRead w v) 1 4 ∧ (full → fails (.debugMemoryWrite w v) 2 4)) ∧
      (pa % 64 ≠ 0 → fails (.debugLineRead w v) 3 4 ∧ (full → fails (.debugLineWrite w v) 4 4)) ∧
      (pa % 64 = 0 → ¬inMem → fails (.debugMemoryRead w v) 1 3 ∧ fails (.debugLineRead w v) 3 3 ∧
        (full → fails (.debugMemoryWrite w v) 2 3 ∧ fails (.debugLineWrite w v) 4 3)) ∧
      (pa % 64 = 0 → inMem → ownerCode s pa ≠ 0 → ownerCode s pa ≠ 2 → s.cellar.life = true → fails (.debugMemoryRead w v) 1 2 ∧ fails (.debugLineRead w v) 3 2 ∧
        (full → fails (.debugMemoryWrite w v) 2 2 ∧ fails (.debugLineWrite w v) 4 2)) ∧
      (inMem → ownerCode s pa = 0 ∨ (s.cellar.life = false ∧ full) → Clear s pa 64 →
        (pa % n = 0 → (Commands (.debugMemoryRead w v) w 0x5002308 (putFld v 31 28 1) s fun u => done u ∧ reg64 u 0x5002310 = readNat s pa n ∧ SameBytes s u) ∧
          (full → Commands (.debugMemoryWrite w v) w 0x5002308 (putFld v 31 28 2) s fun u => done u ∧ HoldsBytes u pa n (reg64 s 0x5002310) ∧ SameBytesBut pa n s u)) ∧
        (pa % 64 = 0 → (Commands (.debugLineRead w v) w 0x5002308 (putFld v 31 28 3) s fun u => done u ∧ SameBytes s u ∧
            ∀ k, k < 16 → (reg u (0x5002340 + 4 * k)).toNat = readNat s (pa + 4 * k) 4) ∧
          (full → Commands (.debugLineWrite w v) w 0x5002308 (putFld v 31 28 4) s fun u => done u ∧ SameBytesBut pa 64 s u ∧
            ∀ k, k < 16 → HoldsBytes u (pa + 4 * k) 4 (reg s (0x5002340 + 4 * k)).toNat))))) ∧
  (∀ (s : State) (w : Writer) (p : Fin 256) (v : Word32),
    let size := 2 ^ fld (reg s 0x5002408) 4 0
    let pa := reg64 s 0x5002400 + s.dbg.trHead % size * 32
    let on := (reg s 0x500240C).getLsbD 0 = true
    let room := traceUsed s < size
    let enabled := (reg s (0x5002420 + 4 * (p.val / 32))).getLsbD (p.val % 32) = true ∧ ∀ lc, w = .core lc → levelOf (coreOf s lc.val).regs ≠ 2
    let wrote (u : State) (kind port lcore data : Nat) : Prop := HoldsBytes u pa 1 kind ∧ HoldsBytes u (pa + 1) 1 port ∧ HoldsBytes u (pa + 2) 2 lcore ∧
      HoldsBytes u (pa + 4) 4 data ∧ HoldsBytes u (pa + 8) 8 (nowNs s) ∧ HoldsBytes u (pa + 16) 8 0 ∧ HoldsBytes u (pa + 24) 4 s.dbg.trHead ∧
      SameBytesBut pa 32 s u ∧ u.dbg = { s.dbg with trHead := (s.dbg.trHead + 1) % 2 ^ 32 }
    let dropped (u : State) : Prop := u.dbg = { s.dbg with trOwed := s.dbg.trOwed + 1 } ∧ SameBytes s u ∧
      smGet cnt0 u.ctl.counters 0x5002518 = smGet cnt0 s.ctl.counters 0x5002518 + 1
    (¬on → exec .traceTimePacket s = .next s) ∧
    (on → ¬room → Completes .traceTimePacket s dropped) ∧
    (on → room → s.dbg.trOwed = 0 → Clear s pa 32 → Completes .traceTimePacket s fun u => wrote u 3 0 0 0) ∧
    (Reaches w 1 0 (0x5010000 + 4 * p.val) s →
      (¬on ∨ ¬enabled → Commands (.stim w p v) w (0x5010000 + 4 * p.val) v s fun u => u = s) ∧
      (on → enabled → ¬room → Commands (.stim w p v) w (0x5010000 + 4 * p.val) v s dropped) ∧
      (on → enabled → room → s.dbg.trOwed = 0 → Clear s pa 32 → Commands (.stim w p v) w (0x5010000 + 4 * p.val) v s fun u =>
        wrote u 1 p.val (match w with | .core lc => 2 ^ 15 + lc.val | _ => 0) v.toNat))) ∧
  ∀ (s : State) (lc : LC) (i : Fin 9),
    let r := (coreOf s lc.val).regs
    let off := if i.val = 8 then 0x500 else 0x501 + i.val
    let counts := csr r off = BitVec.allOnes 64 ∧ pmCounts r (levelOf r) i.val = true ∧ (coreOf s lc.val).standing = .issuing
    let asks := (i.val = 8 ∨ (csr r (0x510 + i.val)).getLsbD 28 = true) ∧ (csr r 0x521).getLsbD 31 = true
    (¬counts → exec (.pmcWrap lc i) s = .next s) ∧
    (counts → (i.val = 8 ∨ (csr r (0x510 + i.val)).getLsbD 29 = false) → Completes (.pmcWrap lc i) s fun u =>
      csr (coreOf u lc.val).regs off = 0 ∧ csr (coreOf u lc.val).regs 0x520 = csr r 0x520 ||| BitVec.ofNat 64 (2 ^ i.val) ∧
      (∀ n, n ≠ off → n ≠ 0x520 → csr (coreOf u lc.val).regs n = csr r n) ∧ SameBytes s u ∧
      ∀ n, smGet boolDef u.intc.pend n = if asks ∧ n = fld (csr r 0x521) 12 0 then true else smGet boolDef s.intc.pend n)

/-! ### The words, reset, memory -/

/-- The words of 03 R68 to R70 and the chapters' tables agree in both directions: the word of a well-formed instruction decodes to it, and every word
is that of exactly the well-formed instruction it decodes to, no bit of it dropped. -/
def Obligations.WordsAndInstructionsAgree : Prop :=
  (∀ (i : Instr) (w : Word32), wellFormed i = true → encodeWord i = some w → ∃ lc, decodeWord lc w = some i) ∧
  ∀ (lc : LC) (w : Word32), ∃ i, decodeWord lc w = some i ∧ wellFormed i = true ∧ encodeWord i = some w

/-- Every step keeps the canonical form of memory: listed addresses strictly rise and no listed byte is the one an unlisted address reads as. -/
def Obligations.EveryStepKeepsMemoryCanonical : Prop :=
  ∀ s t : State, Memory.wf s.mem.bytes = true → step s = .next t → Memory.wf t.mem.bytes = true

/-- What reset leaves (22 R525): SYS_MODE is CALIBRATE, no command is waiting, no core has begun, each register of control space holds the reset value
its block's table gives it; memory is canonical. That memory lists nothing, that no core has begun and the general registers' zeros are the
model's choices (log entries 2 and 3). -/
def Obligations.ResetLeavesTheStatedValues : Prop :=
  Memory.wf State.reset.mem.bytes = true ∧ State.reset.mem.bytes = [] ∧ State.reset.pending = [] ∧ sysMode State.reset = 3 ∧
  (∀ n, (coreOf State.reset n).standing = .notStarted ∧ (∀ i, readG (coreOf State.reset n).regs i = 0) ∧ (coreOf State.reset n).group = none ∧
    (coreOf State.reset n).shadows = []) ∧
  (∀ off, reg State.reset off = regDef off) ∧ State.reset.ctl.locks = 0 ∧ (∀ q, (queueOf State.reset q).state = .free)
end

