-- ==== Sys2Proof/Laws/Store.lean ====
section
/-! SUPPORT. Laws of the sparse tables: read after write, the canonical form kept by every operation, and equal reads of canonical tables
make equal tables. -/

namespace Sys2Proof.Machine

theorem smGet_smInsert_same {α : Type} (d : Nat → α) (m : SMap α) (k : Nat) (v : α) : smGet d (smInsert m k v) k = v := by
  induction m with
  | nil => simp [smInsert, smGet]
  | cons e m ih =>
    obtain ⟨k', v'⟩ := e
    unfold smInsert
    split
    · simp [smGet]
    · split
      · simp [smGet]
      · rename_i h1 h2
        have : k' ≠ k := fun h => h2 h.symm
        simp [smGet, this, ih]

theorem smGet_smInsert_other {α : Type} (d : Nat → α) (m : SMap α) {k j : Nat} (v : α) (h : j ≠ k) :
    smGet d (smInsert m k v) j = smGet d m j := by
  induction m with
  | nil => simp [smInsert, smGet, Ne.symm h]
  | cons e m ih =>
    obtain ⟨k', v'⟩ := e
    unfold smInsert
    split
    · simp [smGet, Ne.symm h]
    · split
      · rename_i h1 h2
        subst h2
        simp [smGet, Ne.symm h]
      · simp [smGet, ih]

theorem smGet_smDrop_other {α : Type} (d : Nat → α) (m : SMap α) {k j : Nat} (h : j ≠ k) : smGet d (smDrop m k) j = smGet d m j := by
  induction m with
  | nil => rfl
  | cons e m ih =>
    obtain ⟨k', v'⟩ := e
    unfold smDrop
    split
    · rename_i h1
      subst h1
      simp [smGet, Ne.symm h, ih]
    · simp [smGet, ih]

/-- A write, whatever the table holds. -/
theorem smPut_eq {α : Type} [DecidableEq α] (d : Nat → α) (m : SMap α) (k : Nat) (v : α) :
    smPut d m k v = if v = d k then smDrop m k else smInsert m k v := by cases m <;> rfl

theorem smGet_smPut_other {α : Type} [DecidableEq α] (d : Nat → α) (m : SMap α) {k j : Nat} (v : α) (h : j ≠ k) :
    smGet d (smPut d m k v) j = smGet d m j := by
  rw [smPut_eq]
  split
  · exact smGet_smDrop_other d m h
  · exact smGet_smInsert_other d m v h

/-- All keys of a sorted table's tail lie above its first key. -/
theorem smSorted_head_lt {α : Type} {k : Nat} {v : α} {m : SMap α} (h : smSorted ((k, v) :: m) = true) : ∀ e ∈ m, k < e.1 := by
  induction m generalizing k v with
  | nil => simp
  | cons e m ih =>
    obtain ⟨k', v'⟩ := e
    simp only [smSorted, Bool.and_eq_true, decide_eq_true_eq] at h
    intro e he
    rcases List.mem_cons.1 he with rfl | he
    · exact h.1
    · exact Nat.lt_trans h.1 (ih h.2 e he)

theorem smSorted_tail {α : Type} {e : Nat × α} {m : SMap α} (h : smSorted (e :: m) = true) : smSorted m = true := by
  cases m with
  | nil => rfl
  | cons e' m =>
    obtain ⟨k, v⟩ := e
    obtain ⟨k', v'⟩ := e'
    simp only [smSorted, Bool.and_eq_true] at h
    exact h.2

theorem smSorted_cons {α : Type} {k : Nat} {v : α} {m : SMap α} (hm : smSorted m = true) (h : ∀ e ∈ m, k < e.1) :
    smSorted ((k, v) :: m) = true := by
  cases m with
  | nil => rfl
  | cons e m =>
    obtain ⟨k', v'⟩ := e
    simp only [smSorted, Bool.and_eq_true, decide_eq_true_eq]
    exact ⟨h _ (List.mem_cons_self ..), hm⟩

theorem smGet_of_lt {α : Type} (d : Nat → α) {m : SMap α} {k : Nat} (h : ∀ e ∈ m, k < e.1) : smGet d m k = d k := by
  induction m with
  | nil => rfl
  | cons e m ih =>
    obtain ⟨k', v'⟩ := e
    have h1 : k < k' := h _ (List.mem_cons_self ..)
    simp only [smGet]
    rw [if_neg (by omega)]
    exact ih fun e he => h e (List.mem_cons_of_mem _ he)

theorem mem_smInsert {α : Type} {m : SMap α} {k : Nat} {v : α} {e : Nat × α} (h : e ∈ smInsert m k v) : e = (k, v) ∨ e ∈ m := by
  induction m with
  | nil => simpa [smInsert] using h
  | cons a m ih =>
    obtain ⟨k', v'⟩ := a
    unfold smInsert at h
    split at h
    · simpa using h
    · split at h
      · rcases List.mem_cons.1 h with h | h
        · exact .inl h
        · exact .inr (List.mem_cons_of_mem _ h)
      · rcases List.mem_cons.1 h with h | h
        · exact .inr (h ▸ List.mem_cons_self ..)
        · rcases ih h with h | h
          · exact .inl h
          · exact .inr (List.mem_cons_of_mem _ h)

theorem mem_smDrop {α : Type} {m : SMap α} {k : Nat} {e : Nat × α} (h : e ∈ smDrop m k) : e ∈ m := by
  induction m with
  | nil => exact h
  | cons a m ih =>
    obtain ⟨k', v'⟩ := a
    unfold smDrop at h
    split at h
    · exact List.mem_cons_of_mem _ (ih h)
    · rcases List.mem_cons.1 h with h | h
      · exact h ▸ List.mem_cons_self ..
      · exact List.mem_cons_of_mem _ (ih h)

theorem smSorted_smDrop {α : Type} {m : SMap α} (k : Nat) (h : smSorted m = true) : smSorted (smDrop m k) = true := by
  induction m with
  | nil => rfl
  | cons a m ih =>
    obtain ⟨k', v'⟩ := a
    unfold smDrop
    split
    · exact ih (smSorted_tail h)
    · exact smSorted_cons (ih (smSorted_tail h)) fun e he => smSorted_head_lt h e (mem_smDrop he)

theorem smSorted_smInsert {α : Type} {m : SMap α} (k : Nat) (v : α) (h : smSorted m = true) : smSorted (smInsert m k v) = true := by
  induction m with
  | nil => rfl
  | cons a m ih =>
    obtain ⟨k', v'⟩ := a
    unfold smInsert
    split
    · rename_i h1
      simp [smSorted, h1, h]
    · split
      · rename_i h1 h2
        subst h2
        exact smSorted_cons (smSorted_tail h) (smSorted_head_lt h)
      · refine smSorted_cons (ih (smSorted_tail h)) fun e he => ?_
        rcases mem_smInsert he with rfl | he
        · show k' < k
          omega
        · exact smSorted_head_lt h e he

theorem smGet_smDrop_same {α : Type} (d : Nat → α) (m : SMap α) (k : Nat) : smGet d (smDrop m k) k = d k := by
  induction m with
  | nil => rfl
  | cons a m ih =>
    obtain ⟨k', v'⟩ := a
    unfold smDrop
    split
    · exact ih
    · rename_i h1
      simp [smGet, h1, ih]

/-- A read of the key written gives the value written. -/
@[simp] theorem smGet_smPut_same {α : Type} [DecidableEq α] (d : Nat → α) (m : SMap α) (k : Nat) (v : α) :
    smGet d (smPut d m k v) k = v := by
  rw [smPut_eq]
  split
  · rename_i hv
    rw [smGet_smDrop_same d m k, hv]
  · exact smGet_smInsert_same d m k v

/-- A read of any key after a write. -/
theorem smGet_smPut {α : Type} [DecidableEq α] (d : Nat → α) (m : SMap α) (k j : Nat) (v : α) :
    smGet d (smPut d m k v) j = if j = k then v else smGet d m j := by
  by_cases h : j = k
  · subst h
    simp
  · simp [h, smGet_smPut_other d m v h]

theorem smWf_sorted {α : Type} [DecidableEq α] {d : Nat → α} {m : SMap α} (h : smWf d m = true) : smSorted m = true := by
  simp only [smWf, Bool.and_eq_true] at h
  exact h.1

/-- A write keeps the canonical form. -/
theorem smWf_smPut {α : Type} [DecidableEq α] {d : Nat → α} {m : SMap α} (k : Nat) (v : α) (h : smWf d m = true) :
    smWf d (smPut d m k v) = true := by
  simp only [smWf, Bool.and_eq_true, List.all_eq_true, decide_eq_true_eq] at h ⊢
  rw [smPut_eq]
  split
  · exact ⟨smSorted_smDrop k h.1, fun e he => h.2 e (mem_smDrop he)⟩
  · rename_i hv
    refine ⟨smSorted_smInsert k v h.1, fun e he => ?_⟩
    rcases mem_smInsert he with rfl | he
    · exact hv
    · exact h.2 e he

theorem smSorted_filter {α : Type} {m : SMap α} (p : Nat × α → Bool) (h : smSorted m = true) : smSorted (m.filter p) = true := by
  induction m with
  | nil => rfl
  | cons a m ih =>
    obtain ⟨k, v⟩ := a
    simp only [List.filter_cons]
    split
    · exact smSorted_cons (ih (smSorted_tail h)) fun e he => smSorted_head_lt h e (List.mem_filter.1 he).1
    · exact ih (smSorted_tail h)

/-- Taking entries out keeps the canonical form. -/
theorem smWf_filter {α : Type} [DecidableEq α] {d : Nat → α} {m : SMap α} (p : Nat × α → Bool) (h : smWf d m = true) :
    smWf d (m.filter p) = true := by
  simp only [smWf, Bool.and_eq_true, List.all_eq_true, decide_eq_true_eq] at h ⊢
  exact ⟨smSorted_filter p h.1, fun e he => h.2 e (List.mem_filter.1 he).1⟩

/-- Canonical tables that read alike are one table. -/
theorem smWf_ext {α : Type} [DecidableEq α] {d : Nat → α} {m n : SMap α} (hm : smWf d m = true) (hn : smWf d n = true)
    (h : ∀ k, smGet d m k = smGet d n k) : m = n := by
  simp only [smWf, Bool.and_eq_true, List.all_eq_true, decide_eq_true_eq] at hm hn
  induction m generalizing n with
  | nil =>
    cases n with
    | nil => rfl
    | cons b n =>
      have := h b.1
      simp only [smGet, if_true] at this
      exact absurd this.symm (hn.2 b (List.mem_cons_self ..))
  | cons a m ih =>
    obtain ⟨k, v⟩ := a
    have hv : v ≠ d k := hm.2 _ (List.mem_cons_self ..)
    cases n with
    | nil =>
      have := h k
      simp only [smGet, if_true] at this
      exact absurd this hv
    | cons b n =>
      obtain ⟨k', v'⟩ := b
      have hv' : v' ≠ d k' := hn.2 _ (List.mem_cons_self ..)
      have hk : k = k' := by
        rcases Nat.lt_trichotomy k k' with hlt | he | hgt
        · have h1 := h k
          have h2 : smGet d ((k', v') :: n) k = d k := by
            refine smGet_of_lt d fun e he => ?_
            rcases List.mem_cons.1 he with rfl | he
            · exact hlt
            · exact Nat.lt_trans hlt (smSorted_head_lt hn.1 e he)
          rw [h2] at h1
          simp only [smGet, if_true] at h1
          exact absurd h1 hv
        · exact he
        · have h1 := h k'
          have h2 : smGet d ((k, v) :: m) k' = d k' := by
            refine smGet_of_lt d fun e he => ?_
            rcases List.mem_cons.1 he with rfl | he
            · exact hgt
            · exact Nat.lt_trans hgt (smSorted_head_lt hm.1 e he)
          rw [h2] at h1
          simp only [smGet, if_true] at h1
          exact absurd h1.symm hv'
      subst hk
      have hvv : v = v' := by
        have := h k
        simpa [smGet] using this
      subst hvv
      have htail : m = n := by
        refine ih (fun j => ?_) ⟨smSorted_tail hm.1, fun e he => hm.2 e (List.mem_cons_of_mem _ he)⟩
          ⟨smSorted_tail hn.1, fun e he => hn.2 e (List.mem_cons_of_mem _ he)⟩
        by_cases hj : k = j
        · subst hj
          rw [smGet_of_lt d (smSorted_head_lt hm.1), smGet_of_lt d (smSorted_head_lt hn.1)]
        · have := h j
          simpa [smGet, hj] using this
      rw [htail]

end Sys2Proof.Machine
end

