-- ==== Sys2Proof/Laws/State.lean ====
section
/-! SUPPORT. What each named operation leaves in each field of the state (every field it does not name is unchanged by definition), and
the read-after-write laws of cores, registers and control words. -/

namespace Sys2Proof.Machine

variable (s : State) (lc n : Nat) (c : Core)

/-! ### Cores -/

@[simp] theorem coreOf_setCore_same : coreOf (setCore s lc c) lc = c := by simp [coreOf, setCore]
@[simp] theorem coreOf_updCore_same (f : Core → Core) : coreOf (updCore lc f s) lc = f (coreOf s lc) := by simp [updCore]
@[simp] theorem coreOf_updRegs_same (f : Regs → Regs) : coreOf (updRegs lc f s) lc = { coreOf s lc with regs := f (coreOf s lc).regs } := by
  simp [updRegs]
theorem coreOf_setCore_other {n lc : Nat} (h : n ≠ lc) : coreOf (setCore s lc c) n = coreOf s n := by
  simp [coreOf, setCore, smGet_smPut_other coreDef s.cores c h]
theorem coreOf_updCore_other {n lc : Nat} (f : Core → Core) (h : n ≠ lc) : coreOf (updCore lc f s) n = coreOf s n :=
  coreOf_setCore_other s _ h
theorem coreOf_updRegs_other {n lc : Nat} (f : Regs → Regs) (h : n ≠ lc) : coreOf (updRegs lc f s) n = coreOf s n :=
  coreOf_updCore_other s _ h
@[simp] theorem setCore_cores (m : SMap Core) : { setCore s lc c with cores := m } = { s with cores := m } := rfl
@[simp] theorem updCore_cores (f : Core → Core) (m : SMap Core) : { updCore lc f s with cores := m } = { s with cores := m } := rfl
@[simp] theorem updRegs_cores (f : Regs → Regs) (m : SMap Core) : { updRegs lc f s with cores := m } = { s with cores := m } := rfl
/-- A state differs from one in its cores alone where all cores are those of the other. -/
theorem coreOf_of_cores {s t : State} (h : t.cores = s.cores) (n : Nat) : coreOf t n = coreOf s n := by simp [coreOf, h]

/-! ### `setCore` -/

@[simp] theorem setCore_mem : (setCore s lc c).mem = s.mem := rfl
@[simp] theorem setCore_office : (setCore s lc c).office = s.office := rfl
@[simp] theorem setCore_frk : (setCore s lc c).frk = s.frk := rfl
@[simp] theorem setCore_links : (setCore s lc c).links = s.links := rfl
@[simp] theorem setCore_pcie : (setCore s lc c).pcie = s.pcie := rfl
@[simp] theorem setCore_intc : (setCore s lc c).intc = s.intc := rfl
@[simp] theorem setCore_time : (setCore s lc c).time = s.time := rfl
@[simp] theorem setCore_cellar : (setCore s lc c).cellar = s.cellar := rfl
@[simp] theorem setCore_resil : (setCore s lc c).resil = s.resil := rfl
@[simp] theorem setCore_live : (setCore s lc c).live = s.live := rfl
@[simp] theorem setCore_power : (setCore s lc c).power = s.power := rfl
@[simp] theorem setCore_dbg : (setCore s lc c).dbg = s.dbg := rfl
@[simp] theorem setCore_pads : (setCore s lc c).pads = s.pads := rfl
@[simp] theorem setCore_ctl : (setCore s lc c).ctl = s.ctl := rfl
@[simp] theorem setCore_ans : (setCore s lc c).ans = s.ans := rfl
@[simp] theorem setCore_fresh : (setCore s lc c).fresh = s.fresh := rfl
@[simp] theorem setCore_pending : (setCore s lc c).pending = s.pending := rfl

/-! ### `updCore` -/

@[simp] theorem updCore_mem (f : Core → Core) : (updCore lc f s).mem = s.mem := rfl
@[simp] theorem updCore_office (f : Core → Core) : (updCore lc f s).office = s.office := rfl
@[simp] theorem updCore_frk (f : Core → Core) : (updCore lc f s).frk = s.frk := rfl
@[simp] theorem updCore_links (f : Core → Core) : (updCore lc f s).links = s.links := rfl
@[simp] theorem updCore_pcie (f : Core → Core) : (updCore lc f s).pcie = s.pcie := rfl
@[simp] theorem updCore_intc (f : Core → Core) : (updCore lc f s).intc = s.intc := rfl
@[simp] theorem updCore_time (f : Core → Core) : (updCore lc f s).time = s.time := rfl
@[simp] theorem updCore_cellar (f : Core → Core) : (updCore lc f s).cellar = s.cellar := rfl
@[simp] theorem updCore_resil (f : Core → Core) : (updCore lc f s).resil = s.resil := rfl
@[simp] theorem updCore_live (f : Core → Core) : (updCore lc f s).live = s.live := rfl
@[simp] theorem updCore_power (f : Core → Core) : (updCore lc f s).power = s.power := rfl
@[simp] theorem updCore_dbg (f : Core → Core) : (updCore lc f s).dbg = s.dbg := rfl
@[simp] theorem updCore_pads (f : Core → Core) : (updCore lc f s).pads = s.pads := rfl
@[simp] theorem updCore_ctl (f : Core → Core) : (updCore lc f s).ctl = s.ctl := rfl
@[simp] theorem updCore_ans (f : Core → Core) : (updCore lc f s).ans = s.ans := rfl
@[simp] theorem updCore_fresh (f : Core → Core) : (updCore lc f s).fresh = s.fresh := rfl
@[simp] theorem updCore_pending (f : Core → Core) : (updCore lc f s).pending = s.pending := rfl

/-! ### `updRegs` -/

@[simp] theorem updRegs_mem (f : Regs → Regs) : (updRegs lc f s).mem = s.mem := rfl
@[simp] theorem updRegs_office (f : Regs → Regs) : (updRegs lc f s).office = s.office := rfl
@[simp] theorem updRegs_frk (f : Regs → Regs) : (updRegs lc f s).frk = s.frk := rfl
@[simp] theorem updRegs_links (f : Regs → Regs) : (updRegs lc f s).links = s.links := rfl
@[simp] theorem updRegs_pcie (f : Regs → Regs) : (updRegs lc f s).pcie = s.pcie := rfl
@[simp] theorem updRegs_intc (f : Regs → Regs) : (updRegs lc f s).intc = s.intc := rfl
@[simp] theorem updRegs_time (f : Regs → Regs) : (updRegs lc f s).time = s.time := rfl
@[simp] theorem updRegs_cellar (f : Regs → Regs) : (updRegs lc f s).cellar = s.cellar := rfl
@[simp] theorem updRegs_resil (f : Regs → Regs) : (updRegs lc f s).resil = s.resil := rfl
@[simp] theorem updRegs_live (f : Regs → Regs) : (updRegs lc f s).live = s.live := rfl
@[simp] theorem updRegs_power (f : Regs → Regs) : (updRegs lc f s).power = s.power := rfl
@[simp] theorem updRegs_dbg (f : Regs → Regs) : (updRegs lc f s).dbg = s.dbg := rfl
@[simp] theorem updRegs_pads (f : Regs → Regs) : (updRegs lc f s).pads = s.pads := rfl
@[simp] theorem updRegs_ctl (f : Regs → Regs) : (updRegs lc f s).ctl = s.ctl := rfl
@[simp] theorem updRegs_ans (f : Regs → Regs) : (updRegs lc f s).ans = s.ans := rfl
@[simp] theorem updRegs_fresh (f : Regs → Regs) : (updRegs lc f s).fresh = s.fresh := rfl
@[simp] theorem updRegs_pending (f : Regs → Regs) : (updRegs lc f s).pending = s.pending := rfl

/-! ### `drawWord` -/

@[simp] theorem drawWord_cores : ((drawWord s).2).cores = s.cores := rfl
@[simp] theorem drawWord_mem : ((drawWord s).2).mem = s.mem := rfl
@[simp] theorem drawWord_office : ((drawWord s).2).office = s.office := rfl
@[simp] theorem drawWord_frk : ((drawWord s).2).frk = s.frk := rfl
@[simp] theorem drawWord_links : ((drawWord s).2).links = s.links := rfl
@[simp] theorem drawWord_pcie : ((drawWord s).2).pcie = s.pcie := rfl
@[simp] theorem drawWord_intc : ((drawWord s).2).intc = s.intc := rfl
@[simp] theorem drawWord_time : ((drawWord s).2).time = s.time := rfl
@[simp] theorem drawWord_cellar : ((drawWord s).2).cellar = s.cellar := rfl
@[simp] theorem drawWord_resil : ((drawWord s).2).resil = s.resil := rfl
@[simp] theorem drawWord_live : ((drawWord s).2).live = s.live := rfl
@[simp] theorem drawWord_power : ((drawWord s).2).power = s.power := rfl
@[simp] theorem drawWord_dbg : ((drawWord s).2).dbg = s.dbg := rfl
@[simp] theorem drawWord_pads : ((drawWord s).2).pads = s.pads := rfl
@[simp] theorem drawWord_ctl : ((drawWord s).2).ctl = s.ctl := rfl
@[simp] theorem drawWord_ans : ((drawWord s).2).ans = s.ans := rfl
@[simp] theorem drawWord_pending : ((drawWord s).2).pending = s.pending := rfl

/-! ### `drawCount` -/

@[simp] theorem drawCount_cores : ((drawCount s).2).cores = s.cores := rfl
@[simp] theorem drawCount_mem : ((drawCount s).2).mem = s.mem := rfl
@[simp] theorem drawCount_office : ((drawCount s).2).office = s.office := rfl
@[simp] theorem drawCount_frk : ((drawCount s).2).frk = s.frk := rfl
@[simp] theorem drawCount_links : ((drawCount s).2).links = s.links := rfl
@[simp] theorem drawCount_pcie : ((drawCount s).2).pcie = s.pcie := rfl
@[simp] theorem drawCount_intc : ((drawCount s).2).intc = s.intc := rfl
@[simp] theorem drawCount_time : ((drawCount s).2).time = s.time := rfl
@[simp] theorem drawCount_cellar : ((drawCount s).2).cellar = s.cellar := rfl
@[simp] theorem drawCount_resil : ((drawCount s).2).resil = s.resil := rfl
@[simp] theorem drawCount_live : ((drawCount s).2).live = s.live := rfl
@[simp] theorem drawCount_power : ((drawCount s).2).power = s.power := rfl
@[simp] theorem drawCount_dbg : ((drawCount s).2).dbg = s.dbg := rfl
@[simp] theorem drawCount_pads : ((drawCount s).2).pads = s.pads := rfl
@[simp] theorem drawCount_ctl : ((drawCount s).2).ctl = s.ctl := rfl
@[simp] theorem drawCount_ans : ((drawCount s).2).ans = s.ans := rfl
@[simp] theorem drawCount_pending : ((drawCount s).2).pending = s.pending := rfl

/-! ### `drawBytes` -/

@[simp] theorem drawBytes_cores : ((drawBytes n s).2).cores = s.cores := rfl
@[simp] theorem drawBytes_mem : ((drawBytes n s).2).mem = s.mem := rfl
@[simp] theorem drawBytes_office : ((drawBytes n s).2).office = s.office := rfl
@[simp] theorem drawBytes_frk : ((drawBytes n s).2).frk = s.frk := rfl
@[simp] theorem drawBytes_links : ((drawBytes n s).2).links = s.links := rfl
@[simp] theorem drawBytes_pcie : ((drawBytes n s).2).pcie = s.pcie := rfl
@[simp] theorem drawBytes_intc : ((drawBytes n s).2).intc = s.intc := rfl
@[simp] theorem drawBytes_time : ((drawBytes n s).2).time = s.time := rfl
@[simp] theorem drawBytes_cellar : ((drawBytes n s).2).cellar = s.cellar := rfl
@[simp] theorem drawBytes_resil : ((drawBytes n s).2).resil = s.resil := rfl
@[simp] theorem drawBytes_live : ((drawBytes n s).2).live = s.live := rfl
@[simp] theorem drawBytes_power : ((drawBytes n s).2).power = s.power := rfl
@[simp] theorem drawBytes_dbg : ((drawBytes n s).2).dbg = s.dbg := rfl
@[simp] theorem drawBytes_pads : ((drawBytes n s).2).pads = s.pads := rfl
@[simp] theorem drawBytes_ctl : ((drawBytes n s).2).ctl = s.ctl := rfl
@[simp] theorem drawBytes_ans : ((drawBytes n s).2).ans = s.ans := rfl
@[simp] theorem drawBytes_pending : ((drawBytes n s).2).pending = s.pending := rfl

/-! ### `writeBytes` -/

@[simp] theorem writeBytes_cores (bs : List Byte) : (writeBytes n bs s).cores = s.cores := rfl
@[simp] theorem writeBytes_office (bs : List Byte) : (writeBytes n bs s).office = s.office := rfl
@[simp] theorem writeBytes_frk (bs : List Byte) : (writeBytes n bs s).frk = s.frk := rfl
@[simp] theorem writeBytes_links (bs : List Byte) : (writeBytes n bs s).links = s.links := rfl
@[simp] theorem writeBytes_pcie (bs : List Byte) : (writeBytes n bs s).pcie = s.pcie := rfl
@[simp] theorem writeBytes_intc (bs : List Byte) : (writeBytes n bs s).intc = s.intc := rfl
@[simp] theorem writeBytes_time (bs : List Byte) : (writeBytes n bs s).time = s.time := rfl
@[simp] theorem writeBytes_cellar (bs : List Byte) : (writeBytes n bs s).cellar = s.cellar := rfl
@[simp] theorem writeBytes_resil (bs : List Byte) : (writeBytes n bs s).resil = s.resil := rfl
@[simp] theorem writeBytes_live (bs : List Byte) : (writeBytes n bs s).live = s.live := rfl
@[simp] theorem writeBytes_power (bs : List Byte) : (writeBytes n bs s).power = s.power := rfl
@[simp] theorem writeBytes_dbg (bs : List Byte) : (writeBytes n bs s).dbg = s.dbg := rfl
@[simp] theorem writeBytes_pads (bs : List Byte) : (writeBytes n bs s).pads = s.pads := rfl
@[simp] theorem writeBytes_ctl (bs : List Byte) : (writeBytes n bs s).ctl = s.ctl := rfl
@[simp] theorem writeBytes_ans (bs : List Byte) : (writeBytes n bs s).ans = s.ans := rfl
@[simp] theorem writeBytes_fresh (bs : List Byte) : (writeBytes n bs s).fresh = s.fresh := rfl
@[simp] theorem writeBytes_pending (bs : List Byte) : (writeBytes n bs s).pending = s.pending := rfl

/-! ### `zeroBytes` -/

@[simp] theorem zeroBytes_cores (k : Nat) : (zeroBytes n k s).cores = s.cores := rfl
@[simp] theorem zeroBytes_office (k : Nat) : (zeroBytes n k s).office = s.office := rfl
@[simp] theorem zeroBytes_frk (k : Nat) : (zeroBytes n k s).frk = s.frk := rfl
@[simp] theorem zeroBytes_links (k : Nat) : (zeroBytes n k s).links = s.links := rfl
@[simp] theorem zeroBytes_pcie (k : Nat) : (zeroBytes n k s).pcie = s.pcie := rfl
@[simp] theorem zeroBytes_intc (k : Nat) : (zeroBytes n k s).intc = s.intc := rfl
@[simp] theorem zeroBytes_time (k : Nat) : (zeroBytes n k s).time = s.time := rfl
@[simp] theorem zeroBytes_cellar (k : Nat) : (zeroBytes n k s).cellar = s.cellar := rfl
@[simp] theorem zeroBytes_resil (k : Nat) : (zeroBytes n k s).resil = s.resil := rfl
@[simp] theorem zeroBytes_live (k : Nat) : (zeroBytes n k s).live = s.live := rfl
@[simp] theorem zeroBytes_power (k : Nat) : (zeroBytes n k s).power = s.power := rfl
@[simp] theorem zeroBytes_dbg (k : Nat) : (zeroBytes n k s).dbg = s.dbg := rfl
@[simp] theorem zeroBytes_pads (k : Nat) : (zeroBytes n k s).pads = s.pads := rfl
@[simp] theorem zeroBytes_ctl (k : Nat) : (zeroBytes n k s).ctl = s.ctl := rfl
@[simp] theorem zeroBytes_ans (k : Nat) : (zeroBytes n k s).ans = s.ans := rfl
@[simp] theorem zeroBytes_fresh (k : Nat) : (zeroBytes n k s).fresh = s.fresh := rfl
@[simp] theorem zeroBytes_pending (k : Nat) : (zeroBytes n k s).pending = s.pending := rfl

/-! ### `setPoison` -/

@[simp] theorem setPoison_cores (b : Bool) : (setPoison n b s).cores = s.cores := rfl
@[simp] theorem setPoison_office (b : Bool) : (setPoison n b s).office = s.office := rfl
@[simp] theorem setPoison_frk (b : Bool) : (setPoison n b s).frk = s.frk := rfl
@[simp] theorem setPoison_links (b : Bool) : (setPoison n b s).links = s.links := rfl
@[simp] theorem setPoison_pcie (b : Bool) : (setPoison n b s).pcie = s.pcie := rfl
@[simp] theorem setPoison_intc (b : Bool) : (setPoison n b s).intc = s.intc := rfl
@[simp] theorem setPoison_time (b : Bool) : (setPoison n b s).time = s.time := rfl
@[simp] theorem setPoison_cellar (b : Bool) : (setPoison n b s).cellar = s.cellar := rfl
@[simp] theorem setPoison_resil (b : Bool) : (setPoison n b s).resil = s.resil := rfl
@[simp] theorem setPoison_live (b : Bool) : (setPoison n b s).live = s.live := rfl
@[simp] theorem setPoison_power (b : Bool) : (setPoison n b s).power = s.power := rfl
@[simp] theorem setPoison_dbg (b : Bool) : (setPoison n b s).dbg = s.dbg := rfl
@[simp] theorem setPoison_pads (b : Bool) : (setPoison n b s).pads = s.pads := rfl
@[simp] theorem setPoison_ctl (b : Bool) : (setPoison n b s).ctl = s.ctl := rfl
@[simp] theorem setPoison_ans (b : Bool) : (setPoison n b s).ans = s.ans := rfl
@[simp] theorem setPoison_fresh (b : Bool) : (setPoison n b s).fresh = s.fresh := rfl
@[simp] theorem setPoison_pending (b : Bool) : (setPoison n b s).pending = s.pending := rfl

/-! ### `setReg` -/

@[simp] theorem setReg_cores (v : Word32) : (setReg n v s).cores = s.cores := rfl
@[simp] theorem setReg_mem (v : Word32) : (setReg n v s).mem = s.mem := rfl
@[simp] theorem setReg_office (v : Word32) : (setReg n v s).office = s.office := rfl
@[simp] theorem setReg_frk (v : Word32) : (setReg n v s).frk = s.frk := rfl
@[simp] theorem setReg_links (v : Word32) : (setReg n v s).links = s.links := rfl
@[simp] theorem setReg_pcie (v : Word32) : (setReg n v s).pcie = s.pcie := rfl
@[simp] theorem setReg_intc (v : Word32) : (setReg n v s).intc = s.intc := rfl
@[simp] theorem setReg_time (v : Word32) : (setReg n v s).time = s.time := rfl
@[simp] theorem setReg_cellar (v : Word32) : (setReg n v s).cellar = s.cellar := rfl
@[simp] theorem setReg_resil (v : Word32) : (setReg n v s).resil = s.resil := rfl
@[simp] theorem setReg_live (v : Word32) : (setReg n v s).live = s.live := rfl
@[simp] theorem setReg_power (v : Word32) : (setReg n v s).power = s.power := rfl
@[simp] theorem setReg_dbg (v : Word32) : (setReg n v s).dbg = s.dbg := rfl
@[simp] theorem setReg_pads (v : Word32) : (setReg n v s).pads = s.pads := rfl
@[simp] theorem setReg_ans (v : Word32) : (setReg n v s).ans = s.ans := rfl
@[simp] theorem setReg_fresh (v : Word32) : (setReg n v s).fresh = s.fresh := rfl
@[simp] theorem setReg_pending (v : Word32) : (setReg n v s).pending = s.pending := rfl

/-! ### `setAct` -/

@[simp] theorem setAct_cores (v : Word32) : (setAct n v s).cores = s.cores := rfl
@[simp] theorem setAct_mem (v : Word32) : (setAct n v s).mem = s.mem := rfl
@[simp] theorem setAct_office (v : Word32) : (setAct n v s).office = s.office := rfl
@[simp] theorem setAct_frk (v : Word32) : (setAct n v s).frk = s.frk := rfl
@[simp] theorem setAct_links (v : Word32) : (setAct n v s).links = s.links := rfl
@[simp] theorem setAct_pcie (v : Word32) : (setAct n v s).pcie = s.pcie := rfl
@[simp] theorem setAct_intc (v : Word32) : (setAct n v s).intc = s.intc := rfl
@[simp] theorem setAct_time (v : Word32) : (setAct n v s).time = s.time := rfl
@[simp] theorem setAct_cellar (v : Word32) : (setAct n v s).cellar = s.cellar := rfl
@[simp] theorem setAct_resil (v : Word32) : (setAct n v s).resil = s.resil := rfl
@[simp] theorem setAct_live (v : Word32) : (setAct n v s).live = s.live := rfl
@[simp] theorem setAct_power (v : Word32) : (setAct n v s).power = s.power := rfl
@[simp] theorem setAct_dbg (v : Word32) : (setAct n v s).dbg = s.dbg := rfl
@[simp] theorem setAct_pads (v : Word32) : (setAct n v s).pads = s.pads := rfl
@[simp] theorem setAct_ans (v : Word32) : (setAct n v s).ans = s.ans := rfl
@[simp] theorem setAct_fresh (v : Word32) : (setAct n v s).fresh = s.fresh := rfl
@[simp] theorem setAct_pending (v : Word32) : (setAct n v s).pending = s.pending := rfl

/-! ### `setBankReg` -/

@[simp] theorem setBankReg_cores (v : Word32) : (setBankReg n lc v s).cores = s.cores := rfl
@[simp] theorem setBankReg_mem (v : Word32) : (setBankReg n lc v s).mem = s.mem := rfl
@[simp] theorem setBankReg_office (v : Word32) : (setBankReg n lc v s).office = s.office := rfl
@[simp] theorem setBankReg_frk (v : Word32) : (setBankReg n lc v s).frk = s.frk := rfl
@[simp] theorem setBankReg_links (v : Word32) : (setBankReg n lc v s).links = s.links := rfl
@[simp] theorem setBankReg_pcie (v : Word32) : (setBankReg n lc v s).pcie = s.pcie := rfl
@[simp] theorem setBankReg_intc (v : Word32) : (setBankReg n lc v s).intc = s.intc := rfl
@[simp] theorem setBankReg_time (v : Word32) : (setBankReg n lc v s).time = s.time := rfl
@[simp] theorem setBankReg_cellar (v : Word32) : (setBankReg n lc v s).cellar = s.cellar := rfl
@[simp] theorem setBankReg_resil (v : Word32) : (setBankReg n lc v s).resil = s.resil := rfl
@[simp] theorem setBankReg_live (v : Word32) : (setBankReg n lc v s).live = s.live := rfl
@[simp] theorem setBankReg_power (v : Word32) : (setBankReg n lc v s).power = s.power := rfl
@[simp] theorem setBankReg_dbg (v : Word32) : (setBankReg n lc v s).dbg = s.dbg := rfl
@[simp] theorem setBankReg_pads (v : Word32) : (setBankReg n lc v s).pads = s.pads := rfl
@[simp] theorem setBankReg_ans (v : Word32) : (setBankReg n lc v s).ans = s.ans := rfl
@[simp] theorem setBankReg_fresh (v : Word32) : (setBankReg n lc v s).fresh = s.fresh := rfl
@[simp] theorem setBankReg_pending (v : Word32) : (setBankReg n lc v s).pending = s.pending := rfl

/-! ### `bumpBy` -/

@[simp] theorem bumpBy_cores (k : Nat) : (bumpBy n k s).cores = s.cores := rfl
@[simp] theorem bumpBy_mem (k : Nat) : (bumpBy n k s).mem = s.mem := rfl
@[simp] theorem bumpBy_office (k : Nat) : (bumpBy n k s).office = s.office := rfl
@[simp] theorem bumpBy_frk (k : Nat) : (bumpBy n k s).frk = s.frk := rfl
@[simp] theorem bumpBy_links (k : Nat) : (bumpBy n k s).links = s.links := rfl
@[simp] theorem bumpBy_pcie (k : Nat) : (bumpBy n k s).pcie = s.pcie := rfl
@[simp] theorem bumpBy_intc (k : Nat) : (bumpBy n k s).intc = s.intc := rfl
@[simp] theorem bumpBy_time (k : Nat) : (bumpBy n k s).time = s.time := rfl
@[simp] theorem bumpBy_cellar (k : Nat) : (bumpBy n k s).cellar = s.cellar := rfl
@[simp] theorem bumpBy_resil (k : Nat) : (bumpBy n k s).resil = s.resil := rfl
@[simp] theorem bumpBy_live (k : Nat) : (bumpBy n k s).live = s.live := rfl
@[simp] theorem bumpBy_power (k : Nat) : (bumpBy n k s).power = s.power := rfl
@[simp] theorem bumpBy_dbg (k : Nat) : (bumpBy n k s).dbg = s.dbg := rfl
@[simp] theorem bumpBy_pads (k : Nat) : (bumpBy n k s).pads = s.pads := rfl
@[simp] theorem bumpBy_ans (k : Nat) : (bumpBy n k s).ans = s.ans := rfl
@[simp] theorem bumpBy_fresh (k : Nat) : (bumpBy n k s).fresh = s.fresh := rfl
@[simp] theorem bumpBy_pending (k : Nat) : (bumpBy n k s).pending = s.pending := rfl

/-! ### `answer` -/

@[simp] theorem answer_cores (v : Word64) : (answer n v s).cores = s.cores := rfl
@[simp] theorem answer_mem (v : Word64) : (answer n v s).mem = s.mem := rfl
@[simp] theorem answer_office (v : Word64) : (answer n v s).office = s.office := rfl
@[simp] theorem answer_frk (v : Word64) : (answer n v s).frk = s.frk := rfl
@[simp] theorem answer_links (v : Word64) : (answer n v s).links = s.links := rfl
@[simp] theorem answer_pcie (v : Word64) : (answer n v s).pcie = s.pcie := rfl
@[simp] theorem answer_intc (v : Word64) : (answer n v s).intc = s.intc := rfl
@[simp] theorem answer_time (v : Word64) : (answer n v s).time = s.time := rfl
@[simp] theorem answer_cellar (v : Word64) : (answer n v s).cellar = s.cellar := rfl
@[simp] theorem answer_resil (v : Word64) : (answer n v s).resil = s.resil := rfl
@[simp] theorem answer_live (v : Word64) : (answer n v s).live = s.live := rfl
@[simp] theorem answer_power (v : Word64) : (answer n v s).power = s.power := rfl
@[simp] theorem answer_dbg (v : Word64) : (answer n v s).dbg = s.dbg := rfl
@[simp] theorem answer_pads (v : Word64) : (answer n v s).pads = s.pads := rfl
@[simp] theorem answer_ctl (v : Word64) : (answer n v s).ctl = s.ctl := rfl
@[simp] theorem answer_fresh (v : Word64) : (answer n v s).fresh = s.fresh := rfl
@[simp] theorem answer_pending (v : Word64) : (answer n v s).pending = s.pending := rfl

/-! ### `setPend` -/

@[simp] theorem setPend_cores (b : Bool) : (setPend n b s).cores = s.cores := rfl
@[simp] theorem setPend_mem (b : Bool) : (setPend n b s).mem = s.mem := rfl
@[simp] theorem setPend_office (b : Bool) : (setPend n b s).office = s.office := rfl
@[simp] theorem setPend_frk (b : Bool) : (setPend n b s).frk = s.frk := rfl
@[simp] theorem setPend_links (b : Bool) : (setPend n b s).links = s.links := rfl
@[simp] theorem setPend_pcie (b : Bool) : (setPend n b s).pcie = s.pcie := rfl
@[simp] theorem setPend_time (b : Bool) : (setPend n b s).time = s.time := rfl
@[simp] theorem setPend_cellar (b : Bool) : (setPend n b s).cellar = s.cellar := rfl
@[simp] theorem setPend_resil (b : Bool) : (setPend n b s).resil = s.resil := rfl
@[simp] theorem setPend_live (b : Bool) : (setPend n b s).live = s.live := rfl
@[simp] theorem setPend_power (b : Bool) : (setPend n b s).power = s.power := rfl
@[simp] theorem setPend_dbg (b : Bool) : (setPend n b s).dbg = s.dbg := rfl
@[simp] theorem setPend_pads (b : Bool) : (setPend n b s).pads = s.pads := rfl
@[simp] theorem setPend_ctl (b : Bool) : (setPend n b s).ctl = s.ctl := rfl
@[simp] theorem setPend_ans (b : Bool) : (setPend n b s).ans = s.ans := rfl
@[simp] theorem setPend_fresh (b : Bool) : (setPend n b s).fresh = s.fresh := rfl
@[simp] theorem setPend_pending (b : Bool) : (setPend n b s).pending = s.pending := rfl

/-! ### `alert` -/

@[simp] theorem alert_cores : (alert n s).cores = s.cores := rfl
@[simp] theorem alert_mem : (alert n s).mem = s.mem := rfl
@[simp] theorem alert_office : (alert n s).office = s.office := rfl
@[simp] theorem alert_frk : (alert n s).frk = s.frk := rfl
@[simp] theorem alert_links : (alert n s).links = s.links := rfl
@[simp] theorem alert_pcie : (alert n s).pcie = s.pcie := rfl
@[simp] theorem alert_intc : (alert n s).intc = s.intc := rfl
@[simp] theorem alert_time : (alert n s).time = s.time := rfl
@[simp] theorem alert_cellar : (alert n s).cellar = s.cellar := rfl
@[simp] theorem alert_resil : (alert n s).resil = s.resil := rfl
@[simp] theorem alert_live : (alert n s).live = s.live := rfl
@[simp] theorem alert_power : (alert n s).power = s.power := rfl
@[simp] theorem alert_dbg : (alert n s).dbg = s.dbg := rfl
@[simp] theorem alert_ctl : (alert n s).ctl = s.ctl := rfl
@[simp] theorem alert_ans : (alert n s).ans = s.ans := rfl
@[simp] theorem alert_fresh : (alert n s).fresh = s.fresh := rfl
@[simp] theorem alert_pending : (alert n s).pending = s.pending := rfl

/-! ### Registers -/

@[simp] theorem readG_zero (r : Regs) : readG r 0 = 0 := rfl
/-- A read of a general register after a write (03 R60). -/
theorem readG_writeG (r : Regs) (i j : GReg) (w : Word64) : readG (writeG r i w) j = if j = i ∧ i ≠ 0 then w else readG r j := by
  by_cases hi : i = 0
  · simp [writeG, hi]
  · by_cases hj : j = 0
    · simp [readG, hj, Ne.symm hi]
    · by_cases hij : j = i
      · subst hij
        simp [writeG, readG, hj]
      · have : j.val ≠ i.val := fun h => hij (Fin.ext h)
        simp [writeG, readG, hi, hj, hij, smGet_smPut_other _ _ _ this]
@[simp] theorem writeG_flags (r : Regs) (i : GReg) (w : Word64) : (writeG r i w).flags = r.flags := by unfold writeG; split <;> rfl
@[simp] theorem writeG_v (r : Regs) (i : GReg) (w : Word64) : (writeG r i w).v = r.v := by unfold writeG; split <;> rfl
@[simp] theorem writeG_k (r : Regs) (i : GReg) (w : Word64) : (writeG r i w).k = r.k := by unfold writeG; split <;> rfl
@[simp] theorem writeG_csr (r : Regs) (i : GReg) (w : Word64) : (writeG r i w).csr = r.csr := by unfold writeG; split <;> rfl
/-- A read of a vector register after a write. -/
theorem readV_writeV (r : Regs) (i j : VReg) (w : Vec) : readV (writeV r i w) j = if j = i then w else readV r j := by
  by_cases hij : j = i
  · subst hij
    simp [writeV, readV]
  · have : j.val ≠ i.val := fun h => hij (Fin.ext h)
    simp [writeV, readV, hij, smGet_smPut_other _ _ _ this]
@[simp] theorem writeV_flags (r : Regs) (i : VReg) (w : Vec) : (writeV r i w).flags = r.flags := rfl
@[simp] theorem writeV_g (r : Regs) (i : VReg) (w : Vec) : (writeV r i w).g = r.g := rfl
@[simp] theorem writeV_k (r : Regs) (i : VReg) (w : Vec) : (writeV r i w).k = r.k := rfl
@[simp] theorem writeV_csr (r : Regs) (i : VReg) (w : Vec) : (writeV r i w).csr = r.csr := rfl
/-- A read of a mask register after a write (05 R124). -/
theorem readK_writeK (r : Regs) (i j : KReg) (w : Word64) : readK (writeK r i w) j = if j = i ∧ i ≠ 0 then w else readK r j := by
  by_cases hi : i = 0
  · simp [writeK, hi]
  · by_cases hj : j = 0
    · simp [readK, hj, Ne.symm hi]
    · by_cases hij : j = i
      · subst hij
        simp [writeK, readK, hj]
      · have : j.val ≠ i.val := fun h => hij (Fin.ext h)
        simp [writeK, readK, hi, hj, hij, smGet_smPut_other _ _ _ this]
@[simp] theorem writeK_flags (r : Regs) (i : KReg) (w : Word64) : (writeK r i w).flags = r.flags := by unfold writeK; split <;> rfl
@[simp] theorem writeK_g (r : Regs) (i : KReg) (w : Word64) : (writeK r i w).g = r.g := by unfold writeK; split <;> rfl
@[simp] theorem writeK_v (r : Regs) (i : KReg) (w : Word64) : (writeK r i w).v = r.v := by unfold writeK; split <;> rfl
@[simp] theorem writeK_csr (r : Regs) (i : KReg) (w : Word64) : (writeK r i w).csr = r.csr := by unfold writeK; split <;> rfl
/-- A read of a core CSR after a write. -/
theorem csr_setCsr (r : Regs) (i j : Nat) (w : Word64) : csr (setCsr r i w) j = if j = i then w else csr r j := by
  simp [csr, setCsr, smGet_smPut]
@[simp] theorem csr_setCsr_same (r : Regs) (i : Nat) (w : Word64) : csr (setCsr r i w) i = w := by simp [csr_setCsr]
@[simp] theorem csr_writeG (r : Regs) (i : GReg) (w : Word64) (n : Nat) : csr (writeG r i w) n = csr r n := by simp [csr]
@[simp] theorem csr_writeV (r : Regs) (i : VReg) (w : Vec) (n : Nat) : csr (writeV r i w) n = csr r n := rfl
@[simp] theorem csr_writeK (r : Regs) (i : KReg) (w : Word64) (n : Nat) : csr (writeK r i w) n = csr r n := by simp [csr]
@[simp] theorem readG_setCsr (r : Regs) (i : GReg) (n : Nat) (w : Word64) : readG (setCsr r n w) i = readG r i := rfl
@[simp] theorem setCsr_flags (r : Regs) (n : Nat) (w : Word64) : (setCsr r n w).flags = r.flags := rfl
@[simp] theorem setCsr_g (r : Regs) (n : Nat) (w : Word64) : (setCsr r n w).g = r.g := rfl
@[simp] theorem setCsr_v (r : Regs) (n : Nat) (w : Word64) : (setCsr r n w).v = r.v := rfl
@[simp] theorem setCsr_k (r : Regs) (n : Nat) (w : Word64) : (setCsr r n w).k = r.k := rfl

/-! ### Control words, counters, lines -/

theorem reg_setReg (off o : Nat) (v : Word32) : reg (setReg off v s) o = if o = off then v else reg s o := by simp [reg, setReg, smGet_smPut]
@[simp] theorem reg_setReg_same (off : Nat) (v : Word32) : reg (setReg off v s) off = v := by simp [reg_setReg]
theorem regAct_setAct (off o : Nat) (v : Word32) : regAct (setAct off v s) o = if o = off then v else regAct s o := by
  simp [regAct, setAct, smGet_smPut]
@[simp] theorem poisoned_setPoison (line : Nat) (b : Bool) : poisoned (setPoison line b s) line = b := by simp [poisoned, setPoison]

end Sys2Proof.Machine
end

