-- ==== Sys2Proof/Laws/Bits.lean ====
section
/-! SUPPORT. Fields of words: what a read of a field gives, and what replacing one leaves. -/

namespace Sys2Proof.Machine

theorem testBit_natBits (x hi lo j : Nat) : (natBits x hi lo).testBit j = (decide (j < hi - lo + 1) && x.testBit (lo + j)) := by
  rw [natBits, Nat.testBit_mod_two_pow, ← Nat.shiftRight_eq_div_pow, Nat.testBit_shiftRight]
theorem testBit_fld {w : Nat} (x : BitVec w) (hi lo j : Nat) : (fld x hi lo).testBit j = (decide (j < hi - lo + 1) && x.getLsbD (lo + j)) :=
  testBit_natBits ..
theorem fld_lt {w : Nat} (x : BitVec w) (hi lo : Nat) : fld x hi lo < 2 ^ (hi - lo + 1) := Nat.mod_lt _ (Nat.two_pow_pos _)

/-- A bit of a word whose bits `hi` to `lo` have been replaced. -/
theorem getLsbD_putFld {w : Nat} (x : BitVec w) {hi lo : Nat} (v i : Nat) (h : lo ≤ hi) (hw : hi < w) :
    (putFld x hi lo v).getLsbD i = if lo ≤ i ∧ i ≤ hi then v.testBit (i - lo) else x.getLsbD i := by
  have hm : ∀ j, ((2 ^ (hi - lo + 1) - 1) * 2 ^ lo).testBit j = (decide (lo ≤ j) && decide (j - lo < hi - lo + 1)) := by
    intro j
    rw [← Nat.shiftLeft_eq, Nat.testBit_shiftLeft, Nat.testBit_two_pow_sub_one]
  have hv : ∀ j, (v % 2 ^ (hi - lo + 1) * 2 ^ lo).testBit j = (decide (lo ≤ j) && (decide (j - lo < hi - lo + 1) && v.testBit (j - lo))) := by
    intro j
    rw [← Nat.shiftLeft_eq, Nat.testBit_shiftLeft, Nat.testBit_mod_two_pow]
  unfold putFld
  simp only [BitVec.getLsbD_or, BitVec.getLsbD_and, BitVec.getLsbD_not, BitVec.getLsbD_ofNat, hm, hv]
  by_cases hi' : i < w
  · by_cases h1 : lo ≤ i
    · by_cases h2 : i ≤ hi
      · have : i - lo < hi - lo + 1 := by omega
        simp [h1, h2, hi', this]
      · have : ¬ i - lo < hi - lo + 1 := by omega
        simp [h1, h2, hi', this]
    · simp [h1, hi']
  · have h2 : ¬ (lo ≤ i ∧ i ≤ hi) := by omega
    simp [hi', h2, BitVec.getLsbD_of_ge x i (by omega)]
/-- A read of the field that was replaced. -/
theorem fld_putFld_same {w : Nat} (x : BitVec w) {hi lo : Nat} (v : Nat) (h : lo ≤ hi) (hw : hi < w) :
    fld (putFld x hi lo v) hi lo = v % 2 ^ (hi - lo + 1) := by
  apply Nat.eq_of_testBit_eq
  intro j
  rw [testBit_fld, getLsbD_putFld x v _ h hw, Nat.testBit_mod_two_pow]
  by_cases hj : j < hi - lo + 1
  · have : lo ≤ lo + j ∧ lo + j ≤ hi := by omega
    simp [hj, this]
  · simp [hj]
/-- A read of a field that the replaced one does not touch. -/
theorem fld_putFld_other {w : Nat} (x : BitVec w) {hi lo h' l' : Nat} (v : Nat) (h : lo ≤ hi) (hw : hi < w) (h2 : l' ≤ h') (hd : h' < lo ∨ hi < l') :
    fld (putFld x hi lo v) h' l' = fld x h' l' := by
  apply Nat.eq_of_testBit_eq
  intro j
  rw [testBit_fld, testBit_fld, getLsbD_putFld x v _ h hw]
  by_cases hj : j < h' - l' + 1
  · have : ¬ (lo ≤ l' + j ∧ l' + j ≤ hi) := by omega
    simp [this]
  · simp [hj]

end Sys2Proof.Machine
end

