-- ==== Sys2Proof/Laws/Issue.lean ====
section
/-! SUPPORT. What one instruction leaves of a core that issues it undisturbed (`Issues`). -/

namespace Sys2Proof.Machine

/-- The counters of core `lc` stand for an event of level `l` (23 R565). -/
def Still (r : Regs) (l : Nat) : Prop := (csr r 0x522).getLsbD 0 = true ∨ l = 2

theorem pmCounts_still {r : Regs} {l : Nat} (h : Still r l) (i : Nat) : pmCounts r l i = false := by
  rcases h with h | h
  · simp [pmCounts, pmFrozen, h]
  · simp [pmCounts, h]
/-- A counter that stands counts nothing. -/
theorem pmCount_still {lc : Nat} {s : State} {e : PmEvent} (h : Still (coreOf s lc).regs e.level) : pmCount lc s e = s := by
  unfold pmCount
  generalize List.range 8 = l
  induction l with
  | nil => rfl
  | cons i l ih =>
    simp only [List.foldl_cons, pmCounts_still h, Bool.and_false, Bool.false_eq_true, if_false]
    exact ih
theorem pmEvents1_still {lc : Nat} {s : State} {evs : List PmEvent} (h : ∀ e ∈ evs, Still (coreOf s lc).regs e.level) :
    pmEvents1 lc evs s = s := by
  unfold pmEvents1
  induction evs with
  | nil => rfl
  | cons e evs ih =>
    rw [List.foldl_cons, pmCount_still (h e (List.mem_cons_self ..))]
    exact ih fun x hx => h x (List.mem_cons_of_mem _ hx)

/-- Nothing is armed that the end of a step unit acts on. -/
def Unarmed (c : Core) : Prop := c.skipOnce = false ∧ c.eretSkip = 0 ∧ c.eretStep = 0 ∧ c.stepReq = false
theorem unitEnd_unarmed {lc : Nat} {s : State} (h : Unarmed (coreOf s lc)) : unitEnd lc s = s := by
  obtain ⟨h1, h2, h3, h4⟩ := h
  simp [unitEnd, h1, h2, h3, h4]
theorem cutShadows_none {c : Core} (h : c.shadows = []) : cutShadows c = c := by
  cases c
  simp_all [cutShadows]
/-- An instruction outside a group, nothing armed, its events not counted: the PC moves on. -/
theorem retire_plain {lc : Nat} {s : State} {pc : Word64} {evs : List PmEvent} (hg : (coreOf s lc).group = none) (hs : (coreOf s lc).shadows = [])
    (hu : Unarmed (coreOf s lc)) (he : ∀ e ∈ evs, Still (coreOf s lc).regs e.level) :
    retire lc pc evs s = setCore s lc { coreOf s lc with pc := pc } := by
  unfold retire
  simp only [hg, cutShadows_none hs]
  rw [pmEvents1_still (by simpa using he), unitEnd_unarmed]
  simpa [Unarmed] using hu

theorem Issues.core_group {lc : LC} {s u : State} (h : Issues lc s u) : (coreOf u lc.val).group = none := by rw [h.kept]; exact h.alone.1
theorem Issues.core_shadows {lc : LC} {s u : State} (h : Issues lc s u) : (coreOf u lc.val).shadows = [] := by rw [h.kept]; exact h.alone.2
theorem Issues.core_regs {lc : LC} {s u : State} (h : Issues lc s u) : (coreOf u lc.val).regs = (coreOf s lc.val).regs := by rw [h.kept]
theorem Issues.core_pc {lc : LC} {s u : State} (h : Issues lc s u) : (coreOf u lc.val).pc = (coreOf s lc.val).pc := by rw [h.kept]
theorem Issues.core_unarmed {lc : LC} {s u : State} (h : Issues lc s u) : Unarmed (coreOf u lc.val) := by
  obtain ⟨h1, h2, h3, h4, -⟩ := h.unarmed
  rw [h.kept]
  exact ⟨h1, h2, h3, h4⟩
theorem Issues.still {lc : LC} {s u : State} (h : Issues lc s u) : Still (coreOf u lc.val).regs (levelOf (coreOf u lc.val).regs) := by
  rw [h.core_regs]
  exact h.counters
theorem Issues.still_evOne {lc : LC} {s u : State} (h : Issues lc s u) (n : Nat) : Still (coreOf u lc.val).regs (evOne (coreOf u lc.val) n).level :=
  h.still

/-- No resumed core and no armed step: an issue is not noted. -/
theorem noteIssue_unarmed {lc : Nat} {insn : Word32} {s : State} (h1 : (coreOf s lc).resuming = false) (h2 : (coreOf s lc).eretStep = 0) :
    noteIssue lc insn s = s := by simp [noteIssue, h1, h2]
/-- A fetch that owes no A bit succeeds; outside a group it leaves nothing. -/
theorem oweFetch_nil (lc page : Nat) (s : State) : (oweFetch lc [] page s).1 = true := by
  unfold oweFetch
  cases (coreOf s lc).group <;> rfl
theorem oweFetch_alone {lc page : Nat} {s : State} (h : (coreOf s lc).group = none) : (oweFetch lc [] page s).2 = s := by
  unfold oweFetch
  rw [h]
  rfl
/-- What an instruction leaves, by what it answers; a group that it leaves open notes the page of its fetch. -/
theorem runInsn_issues {lc : LC} {s u : State} (h : Issues lc s u) (ser : Bool) (insn : Word32) (body : State → Eff) :
    ∃ page, runInsn lc ser insn body s =
      match body u with
      | .ok s2 pc evs => retire lc.val pc (evOne (coreOf u lc.val) 1 :: ((if ser then [evOne (coreOf u lc.val) 0x70] else []) ++ evs))
          (oweFetch lc.val [] page s2).2
      | .micro s2 evs => retireMicro lc.val evs (oweFetch lc.val [] page s2).2
      | .istack s2 n => raiseIstack lc.val n (pmEvents1 lc.val [evOne (coreOf u lc.val) 1, evOne (coreOf u lc.val) 0x70] (oweFetch lc.val [] page s2).2)
      | .exc e s2 => raiseExc lc.val e insn s2
      | .hold s2 => s2 := by
  obtain ⟨page, hf⟩ := h.fetched
  refine ⟨page, ?_⟩
  have hr : ready lc ser s = (true, s) := by simp [ready, h.runs, h.alone.1, h.alone.2, h.clear]
  have hn : noteIssue lc.val insn s = s := noteIssue_unarmed h.unarmed.2.2.2.2 h.unarmed.2.2.1
  simp only [runInsn, hr, hn, hf, Bool.not_true, Bool.false_eq_true, if_false]
  cases body u with
  | hold s2 => exact ite_self s2
  | exc e s2 => rfl
  | _ => simp only [oweFetch_nil, if_true]

/-- An instruction that changes registers alone. -/
theorem runInsn_regs {lc : LC} {s u : State} (h : Issues lc s u) (ser : Bool) (insn : Word32) (body : State → Eff) (f : Regs → Regs) (pc : Word64)
    (evs : List PmEvent) (hb : body u = .ok (updRegs lc.val f u) pc evs) (he : ∀ e ∈ evs, e.level = levelOf (coreOf u lc.val).regs)
    (hf : csr (f (coreOf u lc.val).regs) 0x522 = csr (coreOf u lc.val).regs 0x522) :
    CoreNow lc u (runInsn lc ser insn body s) { coreOf u lc.val with regs := f (coreOf u lc.val).regs, pc := pc } := by
  have st : Still (f (coreOf u lc.val).regs) (levelOf (coreOf u lc.val).regs) := by
    rcases h.still with h | h
    · exact .inl (by rw [hf]; exact h)
    · exact .inr h
  obtain ⟨page, hp⟩ := runInsn_issues h ser insn body
  have hg : (coreOf (updRegs lc.val f u) lc.val).group = none := by rw [coreOf_updRegs_same]; exact h.core_group
  rw [hp, hb]
  simp only [oweFetch_alone hg]
  rw [retire_plain]
  · refine ⟨by simp, fun n hn => ?_, rfl⟩
    rw [coreOf_setCore_other _ _ hn, coreOf_updRegs_other _ _ hn]
  · simp [h.core_group]
  · simp [h.core_shadows]
  · simpa [Unarmed] using h.core_unarmed
  · intro e hm
    rw [coreOf_updRegs_same]
    have : e.level = levelOf (coreOf u lc.val).regs := by
      rcases List.mem_cons.1 hm with rfl | hm
      · rfl
      · rcases List.mem_append.1 hm with hm | hm
        · split at hm
          · rw [List.mem_singleton.1 hm]; rfl
          · cases hm
        · exact he e hm
    rw [this]
    exact st

/-- An instruction that ends with `doneRegs`. -/
theorem runInsn_doneRegs {lc : LC} {s u : State} (h : Issues lc s u) (ser : Bool) (insn : Word32) (body : State → Eff) (f : Regs → Regs)
    (hb : body u = doneRegs lc f u) (hf : csr (f (coreOf u lc.val).regs) 0x522 = csr (coreOf u lc.val).regs 0x522) :
    CoreNow lc u (runInsn lc ser insn body s)
      { coreOf u lc.val with regs := f (coreOf u lc.val).regs, pc := (coreOf u lc.val).pc + 4 } :=
  runInsn_regs h ser insn body f _ [] hb (by simp) hf

end Sys2Proof.Machine
end

