-- ==== Sys2Proof/Laws/Entry.lean ====
section
/-! SUPPORT. What exception entry leaves (07 R176, R177). -/

namespace Sys2Proof.Machine

theorem levelOf_lt (r : Regs) : levelOf r < 4 := fld_lt _ 6 5

theorem csr_setIeExl {b n : Nat} (ie exl : Bool) (r : Regs) (h : n ≠ b) : csr (setIeExl b ie exl r) n = csr r n := by
  unfold setIeExl
  rw [csr_setCsr, if_neg h]
theorem ie_setIeExl (b : Nat) (ie exl : Bool) (r : Regs) :
    (csr (setIeExl b ie exl r) b).getLsbD 0 = ie ∧ (csr (setIeExl b ie exl r) b).getLsbD 1 = exl ∧
      (csr (setIeExl b ie exl r) b).getLsbD 2 = (csr r b).getLsbD 2 := by
  unfold setIeExl
  rw [csr_setCsr_same]
  refine ⟨?_, ?_, ?_⟩ <;> rw [getLsbD_putFld _ _ _ (by omega) (by omega), getLsbD_putFld _ _ _ (by omega) (by omega)] <;>
    cases ie <;> cases exl <;> rfl
theorem levelOf_setIeExl (b : Nat) (ie exl : Bool) (r : Regs) : levelOf (setIeExl b ie exl r) = levelOf r := by
  unfold levelOf
  by_cases h : (0x400 : Nat) = b
  · subst h
    unfold setIeExl
    rw [csr_setCsr_same, fld_putFld_other, fld_putFld_other] <;> omega
  · rw [csr_setIeExl ie exl r h]
theorem csr_setLevel {m n : Nat} (r : Regs) (h : n ≠ 0x400) : csr (setLevel m r) n = csr r n := by
  unfold setLevel
  rw [csr_setCsr, if_neg h]
@[simp] theorem readG_setIeExl (b : Nat) (ie exl : Bool) (r : Regs) (i : GReg) : readG (setIeExl b ie exl r) i = readG r i := by
  simp only [setIeExl, readG_setCsr]
@[simp] theorem readG_setLevel (n : Nat) (r : Regs) (i : GReg) : readG (setLevel n r) i = readG r i := by simp only [setLevel, readG_setCsr]
theorem readG_swapSp (n : Nat) (r : Regs) (i : GReg) : readG (swapSp n r) i = if i = 31 then csr r n else readG r i := by
  simp [swapSp, readG_writeG]
theorem csr_swapSp (m : Nat) (r : Regs) (n : Nat) : csr (swapSp m r) n = if n = m then readG r 31 else csr r n := by
  simp [swapSp, csr_setCsr]
theorem levelOf_setLevel {n : Nat} (h : n < 4) (r : Regs) : levelOf (setLevel n r) = n := by
  unfold levelOf setLevel
  rw [csr_setCsr_same, fld_putFld_other, fld_putFld_same] <;> omega
theorem low_setLevel (n : Nat) (r : Regs) {i : Nat} (h : i < 5) : (csr (setLevel n r) 0x400).getLsbD i = (csr r 0x400).getLsbD i := by
  unfold setLevel
  rw [csr_setCsr_same, getLsbD_putFld _ _ _ (by omega) (by omega), getLsbD_putFld _ _ _ (by omega) (by omega), if_neg (by omega), if_neg (by omega)]

/-! ### The registers of an entry -/

theorem bankOf_excBank (r : Regs) : excBank r = bankOf r := rfl
theorem bankOf_eq (r : Regs) : bankOf r = 0x400 ∨ bankOf r = 0x800 := by unfold bankOf; split <;> simp
theorem bankOf_of_level {r : Regs} (h : levelOf r = 0) : bankOf r = 0x400 := by simp [bankOf, h]
@[simp] theorem readG_saveEntry (b : Nat) (x y z : Word64) (e : Exc) (empc insn : Word64) (r : Regs) (i : GReg) :
    readG (saveEntry b x y z e empc insn r) i = readG r i := by simp only [saveEntry, readG_setCsr]
theorem csr_saveEntry (b : Nat) (x y z : Word64) (e : Exc) (empc insn : Word64) (r : Regs) {n : Nat} (h : n < b + 2 ∨ b + 8 < n) :
    csr (saveEntry b x y z e empc insn r) n = csr r n := by
  simp only [saveEntry, csr_setCsr]
  repeat rw [if_neg (by omega)]
/-- What the saved registers hold. -/
theorem saveEntry_holds (b : Nat) (x y z : Word64) (e : Exc) (empc insn : Word64) (r : Regs) :
    csr (saveEntry b x y z e empc insn r) (b + 2) = y ∧ csr (saveEntry b x y z e empc insn r) (b + 3) = x ∧
      csr (saveEntry b x y z e empc insn r) (b + 4) = z ∧ csr (saveEntry b x y z e empc insn r) (b + 5) = e.addr ∧
      csr (saveEntry b x y z e empc insn r) (b + 6) = empc ∧ csr (saveEntry b x y z e empc insn r) (b + 7) = insn ∧
      csr (saveEntry b x y z e empc insn r) (b + 8) = e.elanes := by
  simp [saveEntry, csr_setCsr]

/-- What entry changes among the registers, for any level U, S or K. -/
structure EntryRegs (b : Nat) (e : Exc) (intr : Bool) (epc empc insn : Word64) (r q : Regs) : Prop where
  saved : ∀ n, b + 2 ≤ n → n ≤ b + 8 → 
    csr q n = csr (saveEntry (b) (estatWord r) epc (causeWord e intr ((csr r (b)).getLsbD 1)) e empc insn r) n
  level : levelOf q = max 1 (levelOf r)
  ieExl : (csr q (b)).getLsbD 0 = false ∧ (csr q (b)).getLsbD 1 = true
  stack : levelOf r = 0 → readG q 31 = csr r (b + 9) ∧ csr q (b + 9) = readG r 31
  general : ∀ i, (i ≠ 31 ∨ levelOf r ≠ 0) → readG q i = readG r i
  kept : q.flags = r.flags ∧ q.v = r.v ∧ q.k = r.k
  esp : levelOf r ≠ 0 → csr q (b + 9) = csr r (b + 9)
  voff : (csr q 0x400).getLsbD 2 = (csr r 0x400).getLsbD 2
  rest : ∀ n, n ≠ 0x400 → n ≠ b → (n < b + 2 ∨ b + 9 < n) → csr q n = csr r n

theorem enterRegs_spec (e : Exc) (intr : Bool) (epc empc insn : Word64) (r : Regs) :
    EntryRegs (excBank r) e intr epc empc insn r (enterRegs e intr epc empc insn r) := by
  have hb : excBank r = 0x400 ∨ excBank r = 0x800 := bankOf_eq r
  generalize hg : saveEntry (excBank r) (estatWord r) epc (causeWord e intr ((csr r (excBank r)).getLsbD 1)) e empc insn r = g
  have hs : ∀ n, n < excBank r + 2 ∨ excBank r + 8 < n → csr g n = csr r n := fun n h => by rw [← hg, csr_saveEntry _ _ _ _ _ _ _ _ h]
  have hr : ∀ i, readG g i = readG r i := fun i => by rw [← hg, readG_saveEntry]
  have hk : g.flags = r.flags ∧ g.v = r.v ∧ g.k = r.k := by rw [← hg]; simp only [saveEntry, setCsr_flags, setCsr_v, setCsr_k, and_self]
  have he : enterRegs e intr epc empc insn r = setIeExl (excBank r) false true (if levelOf r = 0 then setLevel 1 (swapSp (excBank r + 9) g) else g) := by
    rw [← hg, enterRegs]
  have hbl : levelOf r = 0 → excBank r = 0x400 := bankOf_of_level
  rw [he]
  generalize excBank r = b at *
  clear he
  by_cases h0 : levelOf r = 0
  · have hb0 := hbl h0
    rw [if_pos h0]
    have hsw : ∀ n, n ≠ b + 9 → csr (swapSp (b + 9) g) n = csr g n := by
      intro n hn
      rw [csr_swapSp, if_neg hn]
    constructor
    · intro n h1 h2
      rw [csr_setIeExl _ _ _ (by omega), csr_setLevel _ (by omega), hsw n (by omega), hg]
    · rw [levelOf_setIeExl, levelOf_setLevel (show 1 < 4 by omega), h0, Nat.max_eq_left (Nat.zero_le 1)]
    · exact ⟨(ie_setIeExl ..).1, (ie_setIeExl ..).2.1⟩
    · intro _
      constructor
      · rw [readG_setIeExl, readG_setLevel, readG_swapSp, if_pos rfl, hs _ (by omega)]
      · rw [csr_setIeExl _ _ _ (by omega), csr_setLevel _ (by omega), csr_swapSp, if_pos rfl, hr]
    · intro i hi
      have : i ≠ 31 := by rcases hi with h | h; exacts [h, absurd h0 h]
      rw [readG_setIeExl, readG_setLevel, readG_swapSp, if_neg this, hr]
    · simpa only [setIeExl, setLevel, swapSp, setCsr_flags, setCsr_v, setCsr_k, writeG_flags, writeG_v, writeG_k] using hk
    · exact fun h => absurd h0 h
    · have h2 : (0x400 : Nat) = b := hb0.symm
      rw [h2, (ie_setIeExl ..).2.2, ← h2, low_setLevel _ _ (by omega), h2, hsw _ (by omega), hs _ (by omega)]
    · intro n h1 h2 h3
      rw [csr_setIeExl _ _ _ h2, csr_setLevel _ h1, hsw n (by omega), hs n (by omega)]
  · rw [if_neg h0]
    constructor
    · intro n h1 h2
      rw [csr_setIeExl _ _ _ (by omega), hg]
    · rw [levelOf_setIeExl, levelOf, hs _ (by omega), ← levelOf]; omega
    · exact ⟨(ie_setIeExl ..).1, (ie_setIeExl ..).2.1⟩
    · exact fun h => absurd h h0
    · intro i _
      rw [readG_setIeExl, hr]
    · simpa only [setIeExl, setCsr_flags, setCsr_v, setCsr_k] using hk
    · intro _
      rw [csr_setIeExl _ _ _ (by omega), hs _ (by omega)]
    · by_cases hb4 : b = 0x400
      · rw [← hb4, (ie_setIeExl ..).2.2, hs _ (by omega)]
      · rw [csr_setIeExl _ _ _ (Ne.symm hb4), hs _ (by omega)]
    · intro n h1 h2 h3
      rw [csr_setIeExl _ _ _ h2, hs n (by omega)]

/-! ### The state after an entry -/

/-- An entry of a core for which nothing is armed, its event not counted. -/
theorem entered_of_enterCore {lc : LC} {u t : State} (e : Exc) (intr : Bool) (epc empc insn : Word64) (hk : (coreOf u lc.val).eretSkip = 0)
    (ht : CoreNow lc u t (enterCore e intr epc empc insn (coreOf u lc.val))) :
    Entered lc u t e.cause (causeInfo e intr) epc e.addr empc insn e.elanes := by
  obtain ⟨hcore, hother, hdev⟩ := ht
  have hr : (coreOf t lc.val).regs = enterRegs e intr epc empc insn (coreOf u lc.val).regs := by
    rw [hcore, enterCore]
    simp only [hk, if_true]
  have hp : (coreOf t lc.val).pc = vectorPc e.cause (coreOf u lc.val).regs := by
    rw [hcore]
    rfl
  have hs := enterRegs_spec e intr epc empc insn (coreOf u lc.val).regs
  have hv := saveEntry_holds (excBank (coreOf u lc.val).regs) (estatWord (coreOf u lc.val).regs) epc
    (causeWord e intr ((csr (coreOf u lc.val).regs (excBank (coreOf u lc.val).regs)).getLsbD 1)) e empc insn (coreOf u lc.val).regs
  obtain ⟨v2, v3, v4, v5, v6, v7, v8⟩ := hv
  have sv : ∀ n, excBank (coreOf u lc.val).regs + 2 ≤ n → n ≤ excBank (coreOf u lc.val).regs + 8 → _ := hs.saved
  have hb : bankOf (coreOf u lc.val).regs = excBank (coreOf u lc.val).regs := rfl
  have b4 := bankOf_eq (coreOf u lc.val).regs
  constructor
  · exact hother
  · exact hdev
  · rw [hr, hb, sv _ (by omega) (by omega), v3]; rfl
  · rw [hr, hb, sv _ (by omega) (by omega), v2]
  · rw [hr, hb, sv _ (by omega) (by omega), v4]; rfl
  · rw [hr, hb, sv _ (by omega) (by omega), v5]
  · rw [hr, hb, sv _ (by omega) (by omega), v6]
  · rw [hr, hb, sv _ (by omega) (by omega), v7]
  · rw [hr, hb, sv _ (by omega) (by omega), v8]
  · rw [hr, hs.level]
  · rw [hr, hb]; exact hs.ieExl
  · intro h0
    have h9 : excBank (coreOf u lc.val).regs + 9 = 0x409 := by rw [← hb, bankOf_of_level h0]
    rw [hr, ← h9]
    exact hs.stack h0
  · intro i hi
    rw [hr, hs.general i hi]
  · rw [hr]; exact hs.kept
  · rw [hr, hb]
    rcases b4 with h | h
    · rw [hs.rest _ (by omega) (by omega) (by omega)]
    · rw [hs.rest _ (by omega) (by omega) (by omega)]
  · intro h0
    rw [hr, hb, hs.esp h0]
  · rw [hr, hs.voff]
  · intro n h1 h2
    rw [hr, hs.rest n h1 (by omega) (by omega)]
  · rw [hp]; rfl

/-- The exception of an instruction that a core issues undisturbed: no debug match, the word obtained. -/
theorem runInsn_raises {lc : LC} {s u : State} (h : Issues lc s u) (ser : Bool) (insn : Word32) (body : State → Eff) (e : Exc)
    (hb : body u = .exc e u) (hw : e.noInsn = false) (hd : e.cause ≠ excDebug) :
    Entered lc u (runInsn lc ser insn body s) e.cause (causeInfo e false)
      (if e.cause = excSvc then (coreOf u lc.val).pc + 4 else (coreOf u lc.val).pc) e.addr (coreOf u lc.val).pc (insn.setWidth 64) e.elanes := by
  have hu := h.core_unarmed
  refine entered_of_enterCore e false _ _ _ hu.2.1 ?_
  generalize hepc : (if e.cause = excSvc then (coreOf u lc.val).pc + 4 else (coreOf u lc.val).pc) = epc
  obtain ⟨page, hp⟩ := runInsn_issues h ser insn body
  rw [hp, hb]
  have hh : ∀ x, haltsInstead x lc.val e = false := fun x => by simp [haltsInstead, hd]
  have hcut : coreOf (updCore lc.val cutShadows u) lc.val = coreOf u lc.val := by rw [coreOf_updCore_same, cutShadows_none h.core_shadows]
  simp only [raiseExc, h.core_group, hepc, hw, Bool.false_and, Bool.false_eq_true, if_false, hh]
  generalize hx : updCore lc.val (enterCore e false epc (coreOf u lc.val).pc (insn.setWidth 64)) (updCore lc.val cutShadows u) = x
  have hxc : coreOf x lc.val = enterCore e false epc (coreOf u lc.val).pc (insn.setWidth 64) (coreOf u lc.val) := by
    rw [← hx, coreOf_updCore_same, hcut]
  have hrest := enterRegs_spec e false epc (coreOf u lc.val).pc (insn.setWidth 64) (coreOf u lc.val).regs
  have hpm : pmEvents1 lc.val [plainEvent (coreOf u lc.val) 0x72] x = x := by
    apply pmEvents1_still
    intro ev hev
    rw [List.mem_singleton.1 hev, hxc]
    have hc : csr (enterCore e false epc (coreOf u lc.val).pc (insn.setWidth 64) (coreOf u lc.val)).regs 0x522 =
        csr (coreOf u lc.val).regs 0x522 := by
      simp only [enterCore, hu.2.1, if_true]
      have b4 := bankOf_eq (coreOf u lc.val).regs
      rw [← bankOf_excBank] at b4
      exact hrest.rest _ (by omega) (by omega) (by omega)
    rcases h.still with hf | hf
    · exact .inl (by rw [hc]; exact hf)
    · exact .inr hf
  rw [hpm]
  have hst : stepEnds lc.val x = x := by
    have : (coreOf x lc.val).stepReq = false := by rw [hxc]; exact hu.2.2.2
    simp [stepEnds, this]
  rw [hst]
  refine ⟨hxc, fun n hn => ?_, ?_⟩
  · rw [← hx, coreOf_updCore_other _ _ hn, coreOf_updCore_other _ _ hn]
  · rw [← hx]; rfl

end Sys2Proof.Machine
end

