-- ==== Sys2Proof/Laws/Memory.lean ====
section
/-! SUPPORT. Memory's two writes: both keep its canonical form, a read after a write gives what was written, every other byte stays. -/

namespace Sys2Proof.Machine

theorem wf_putBytes (bs : List Byte) (pa : Nat) {m : SMap Byte} (h : Memory.wf m = true) : Memory.wf (putBytes bs pa m) = true := by
  induction bs generalizing pa m with
  | nil => exact h
  | cons b bs ih => exact ih (pa + 1) (smWf_smPut pa b h)
/-- A write keeps the canonical form. -/
theorem wf_writeBytes (pa : Nat) (bs : List Byte) {s : State} (h : Memory.wf s.mem.bytes = true) :
    Memory.wf (writeBytes pa bs s).mem.bytes = true := wf_putBytes bs pa h
/-- Zeroing keeps the canonical form. -/
theorem wf_zeroBytes (pa n : Nat) {s : State} (h : Memory.wf s.mem.bytes = true) : Memory.wf (zeroBytes pa n s).mem.bytes = true :=
  smWf_filter _ h
theorem wf_reset : Memory.wf State.reset.mem.bytes = true := rfl

theorem smGet_putBytes (bs : List Byte) (pa a : Nat) (m : SMap Byte) :
    smGet byteDef (putBytes bs pa m) a = if pa ≤ a ∧ a < pa + bs.length then bs.getD (a - pa) 0 else smGet byteDef m a := by
  induction bs generalizing pa m with
  | nil => simp [putBytes, show ¬(pa ≤ a ∧ a < pa) by omega]
  | cons b bs ih =>
    simp only [putBytes, ih, smGet_smPut, List.length_cons]
    by_cases h : a = pa
    · subst h; simp
    · by_cases h2 : pa + 1 ≤ a ∧ a < pa + 1 + bs.length
      · rw [if_pos h2, if_pos (by omega), show a - pa = (a - (pa + 1)) + 1 by omega, List.getD_cons_succ]
      · rw [if_neg h2, if_neg h, if_neg (by omega)]
/-- Every byte after a write: the byte written, or what stood there. -/
theorem readByte_writeBytes (pa a : Nat) (bs : List Byte) (s : State) :
    readByte (writeBytes pa bs s) a = if pa ≤ a ∧ a < pa + bs.length then bs.getD (a - pa) 0 else readByte s a :=
  smGet_putBytes bs pa a s.mem.bytes
theorem smGet_filter_in {α : Type} (d : Nat → α) (m : SMap α) (p : Nat → Bool) (a : Nat) :
    smGet d (m.filter fun e => p e.1) a = if p a then smGet d m a else d a := by
  induction m with
  | nil => simp [smGet]
  | cons e m ih =>
    obtain ⟨k, v⟩ := e
    simp only [List.filter_cons]
    by_cases hp : p k = true <;> by_cases hk : k = a
    · subst hk; simp [hp, smGet]
    · simp [hp, smGet, hk, ih]
    · subst hk; simp [hp, smGet, ih]
    · simp [hp, smGet, hk, ih]
/-- Every byte after zeroing. -/
theorem readByte_zeroBytes (pa n a : Nat) (s : State) : readByte (zeroBytes pa n s) a = if pa ≤ a ∧ a < pa + n then 0 else readByte s a := by
  unfold readByte zeroBytes
  rw [smGet_filter_in byteDef s.mem.bytes (fun x => decide (x < pa ∨ pa + n ≤ x)) a]
  by_cases h : pa ≤ a ∧ a < pa + n
  · rw [if_pos h, if_neg (by simp; omega)]; rfl
  · rw [if_neg h, if_pos (by simp; omega)]

end Sys2Proof.Machine
end

