-- ==== Sys2Proof/Tests/Slice0.lean ====
section
/-! SUPPORT. Tests: terms that are no commands are refused, words written out in the spec are the words of their instructions, and states and
operands that meet the hypotheses of the statements. -/

set_option Elab.async false

namespace Sys2Proof.Tests

open Sys2Proof Sys2Proof.Machine

/-! ### Terms that are no commands -/

theorem test_load_selector_above_six_is_refused : wellFormed (.loadIndexed 0 1 2 0 3 7 0) = false := by decide
theorem test_store_selector_below_eight_is_refused : wellFormed (.storeIndexed 0 1 2 0 3 7 0) = false := by decide
theorem test_store_selector_above_eleven_is_refused : wellFormed (.storeIndexed 0 1 2 0 3 12 0) = false := by decide
theorem test_assigned_opcode_is_no_reserved_one : wellFormed (.reservedMajorOpcode 0 0x04000000) = false := by decide
theorem test_zero_word_is_reserved : wellFormed (.reservedMajorOpcode 0 0) = true := by decide
theorem test_partial_write_past_its_line_is_refused : wellFormed (.pw { who := .agent } 0 63 [0, 0]) = false := by decide
theorem test_misaligned_far_atomic_is_refused : wellFormed (.famo { who := .agent } 0 4 0 true 0 0) = false := by decide
theorem test_patrol_of_a_way_that_is_not_there_is_refused : wellFormed (.cachePatrolRead 0 0 4 0 0) = false := by decide
theorem test_timer_tick_of_nothing_is_refused : wellFormed (.timerTick 0 0) = false := by decide

/-! ### Words written out in the spec: each is the word of its instruction, and decodes to it -/

/-- The word of an instruction of lc0, both ways. -/
def spells (w : Word32) (i : Instr) : Bool := decide (encodeWord i = some w) && decide (decodeWord 0 w = some i)
/-- The example under 03 R78. -/
theorem test_word_addi : spells 0x20A6BFFD (.addi 0 true false 5 6 0x3FFD) = true := by decide
/-- 03 R78: `NOP` is `OR g0, g0, g0`. -/
theorem test_word_nop : spells 0x0400000A (.or 0 false 0 0 0) = true := by decide
/-- The example under 03 R82: back five instructions. -/
theorem test_word_b_ne : spells 0xC061FFFB (.bCond 0 1 true 0 0x1FFFB) = true := by decide
/-- The example under 03 R66. -/
theorem test_word_sdc : spells 0xE4220180 (.sdc 0 1 2 0x180) = true := by decide
/-- The example under 04 R95. -/
theorem test_word_ldd : spells 0x54A10002 (.ldd 0 5 1 0 2) = true := by decide
/-- The example under 04 R113. -/
theorem test_word_amo_add : spells 0x78860728 (.amoAdd 0 4 6 0 true true 5 0) = true := by decide
/-- 04 R118: `FENCE` with every bit. -/
theorem test_word_fence : spells 0xF000001F (.fence 0 0 0 0x1F) = true := by decide
/-- The example under 05 R127. -/
theorem test_word_vfadd : spells 0x84642AA0 (.vfadd 0 3 4 5 2 true 1) = true := by decide
/-- The example under 05 R133. -/
theorem test_word_vfmadd : spells 0x89011000 (.vfmadd 0 8 1 2 0 false 0) = true := by decide
/-- The example under 06 R151. -/
theorem test_word_bcopy : spells 0xE8221800 (.bcopy 0 false 1 2 3) = true := by decide
/-- 07 R183, R184. -/
theorem test_words_svc_eret : spells 0xF8000005 (.svc 0 0 0 5) = true ∧ spells 0xF8001000 (.eret 0 0 0 0) = true := by decide
/-- 07 R189 to R192. -/
theorem test_words_waits : spells 0xF4224000 (.waitt 0 1 2 0) = true ∧ spells 0xF4A72200 (.wfeNe 0 5 7 0x200) = true := by decide
/-- 08 R216, R221. -/
theorem test_words_keys_and_tlbi : spells 0xF8058000 (.wrpkr 0 0 5 0) = true ∧ spells 0xF8009000 (.uacon 0 0 0 0) = true ∧
    spells 0xF800A000 (.uacoff 0 0 0 0) = true ∧ spells 0xF0014100 (.tlbiVa 0 0 1 0x100) = true ∧
    spells 0xF0015100 (.tlbiVaB 0 0 1 0x100) = true ∧ spells 0xF0008000 (.tlbiAll 0 0 0 0) = true ∧ spells 0xF000A000 (.tlbsync 0 0 0 0) = true := by
  decide
/-- 13 R327. -/
theorem test_words_queue : spells 0xECA22200 (.deq 0 5 2 0x200) = true ∧ spells 0xEC230300 (.enq 0 1 3 0x300) = true := by decide
/-- 19 R457. -/
theorem test_words_gate : spells 0xF8052000 (.gate 0 0 5 0) = true ∧ spells 0xF8003000 (.gatepad 0 0 0 0) = true := by decide

/-! ### Cores that issue -/

/-- A line that a cache holds in its first way, modified. -/
def oneLine (line : Nat) : SMap (Option L2Line) := [(0, some { line := line, st := .m })]
/-- Registers with a status, the counters frozen. -/
def regsWith (status : Word64) (g : SMap Word64) : Regs := { ({} : Regs) with csr := [(0x400, status), (0x522, 1)], g := g }
def coreWith (r : Regs) : Core := { ({} : Core) with standing := .issuing, regs := r, pc := 0x20000 }
/-- lc0 as given, in RUN, its caches holding the line at 0x20000; the ownership table covers 65,536 pages, all of code 0. -/
def device (c : Core) : State := { ({} : State) with
  cores := [(0, c)], resil := { ({} : Resil) with bound := 512 }, power := { ({} : Power) with mode := .run }
  mem := { ({} : MemSt) with priv := [(0, { ({} : PrivCaches) with l1i := oneLine 0x800, l1d := oneLine 0x800, l2 := oneLine 0x800 })] }
  ctl := { ({} : Ctl) with regs := [(0x8000018, 1)] } }
/-- g1 the most negative number, g2 all ones, g3 = 5, g4 the address of the line. -/
def someG : SMap Word64 := [(1, 0x8000000000000000), (2, 0xFFFFFFFFFFFFFFFF), (3, 5), (4, 0x20000)]
def atK : State := device (coreWith (regsWith 0x42 someG))
def atS : State := device (coreWith (regsWith 0x22 someG))
def atU : State := device (coreWith (regsWith 0x02 someG))

theorem issues_atK : Issues 0 atK atK := ⟨by decide, by decide, by decide, by decide, by decide, ⟨0x20, by decide +kernel⟩, by rfl⟩
theorem issues_atS : Issues 0 atS atS := ⟨by decide, by decide, by decide, by decide, by decide, ⟨0x20, by decide +kernel⟩, by rfl⟩
theorem issues_atU : Issues 0 atU atU := ⟨by decide, by decide, by decide, by decide, by decide, ⟨0x20, by decide +kernel⟩, by rfl⟩

/-- Operands for each clause on integer results: g1 and g2 the overflow of division, g0 the zero divisor; g3 and g4 a misaligned and an aligned
target; R17 of the table of conditions needs no more. -/
theorem witness_integer_operands : Issues 0 atK atK ∧ readG (coreOf atK 0).regs 1 = 0x8000000000000000 ∧
    readG (coreOf atK 0).regs 2 = BitVec.allOnes 64 ∧ readG (coreOf atK 0).regs 0 = 0 ∧ readG (coreOf atK 0).regs 3 ≠ 0 ∧
    (readG (coreOf atK 0).regs 3).toNat % 4 ≠ 0 ∧ (readG (coreOf atK 0).regs 4).toNat % 4 = 0 :=
  ⟨issues_atK, by decide, by decide, by decide, by decide, by decide, by decide⟩
/-- A reserved word, at a level above U. -/
theorem witness_reserved_word : Issues 0 atS atS ∧ reservedWord 0xFFFFFFFF = true ∧ levelOf (coreOf atS 0).regs ≠ 0 :=
  ⟨issues_atS, by decide, by decide⟩

/-- A core that has called: the return stack holds one entry; with it in use and not. -/
def oneCall : List RsEntry := [{ level := 1, tag := 0, addr := 0x40, seq := 1 }]
def called : State := device { coreWith (regsWith 0x22 someG) with retStack := oneCall, predSeq := 1 }
def stackOff : State := device { coreWith { regsWith 0x22 someG with csr := [(0x400, 0x22), (0x482, 0), (0x522, 1)] } with retStack := oneCall }
theorem witness_return_stack : (Issues 0 called called ∧ rsUsed (coreOf called 0).regs = true ∧ (coreOf called 0).retStack = oneCall ∧
      (coreOf called 0).overlay = []) ∧
    Issues 0 stackOff stackOff ∧ rsUsed (coreOf stackOff 0).regs = false :=
  ⟨⟨⟨by decide, by decide, by decide, by decide, by decide, ⟨0x20, by decide +kernel⟩, by rfl⟩, by decide, by rfl, by rfl⟩,
    ⟨by decide, by decide, by decide, by decide, by decide, ⟨0x20, by decide +kernel⟩, by rfl⟩, by decide⟩

/-- CSR numbers for each clause: FPCSR, the core's number and FLAGS readable, one that does not exist, one that asks for K at S. -/
theorem witness_csr_numbers : Issues 0 atS atS ∧ csrLevelOk (coreOf atS 0).regs 1 0x002 = true ∧ csrLevelOk (coreOf atS 0).regs 1 0x009 = true ∧
    csrLevelOk (coreOf atS 0).regs 1 0x001 = true ∧ (csrLevelOk (coreOf atS 0).regs 1 0x0FF = true ∧ csrDesc 0x0FF = none) ∧
    csrLevelOk (coreOf atS 0).regs 1 0x801 = false :=
  ⟨issues_atS, by decide, by decide, by decide, by decide, by decide⟩

/-! ### Accesses served by the core's own caches -/

/-- The line at 0x20000, translation off at K. -/
def ownAccess : Access := { pa := 0x20000, tc := 1 }
def ownXlat : Xlat := { acc := ownAccess, page := 0x20 }
theorem own_line : OwnLine 0 ownAccess atK :=
  ⟨by decide, by decide, by decide, ⟨_, rfl, .inl rfl⟩, fun _ => ⟨rfl, by decide, fun nt => by cases nt <;> rfl, by decide, 0, _, rfl, rfl, rfl⟩⟩
theorem passes_load (n : Nat) (h : n ∈ [1, 2, 8]) : Passes 0 { wantLoad with noControl := n != 4 } 0x20000 n true false atK ownXlat := by
  simp only [List.mem_cons, List.not_mem_nil, or_false] at h
  obtain rfl | rfl | rfl := h <;> exact ⟨by decide, by rfl, by rfl⟩
theorem passes_load_word : Passes 0 { wantLoad with noControl := false } 0x20000 4 true false atK ownXlat := ⟨by decide, by rfl, by rfl⟩
theorem passes_store (n : Nat) (h : n ∈ [1, 2, 4, 8]) : Passes 0 wantStore 0x20000 n false true atK ownXlat := by
  simp only [List.mem_cons, List.not_mem_nil, or_false] at h
  obtain rfl | rfl | rfl | rfl := h <;> exact ⟨by decide, by rfl, by rfl⟩
theorem passes_amo (n : Nat) (h : n ∈ [4, 8]) : Passes 0 wantAmo 0x20000 n true true atK ownXlat := by
  simp only [List.mem_cons, List.not_mem_nil, or_false] at h
  obtain rfl | rfl := h <;> exact ⟨by decide, by rfl, by rfl⟩

/-- Operands of loads, stores and atomics at the line: base g4, offset and index zero; g3 is misaligned. -/
theorem witness_access_operands : Issues 0 atK atK ∧ readG (coreOf atK 0).regs 4 + (0 : BitVec 14).signExtend 64 * 8 = 0x20000 ∧
    readG (coreOf atK 0).regs 4 + readG (coreOf atK 0).regs 0 * 8 = 0x20000 ∧ (readG (coreOf atK 0).regs 3).toNat % 8 ≠ 0 ∧
    (readG (coreOf atK 0).regs 3).toNat % 4 ≠ 0 :=
  ⟨issues_atK, by decide, by decide, by decide, by decide⟩

/-- A group whose load into g5 has one or two instructions to go. -/
def openGroup (held : List Held) (closed : Bool) : Group :=
  { firstPc := 0x20000, members := 3, closed := closed, sinceDeferred := none, nextId := 1, held := held, snap := regsWith 0x42 someG }
def loading (left : Nat) : State := device { coreWith (regsWith 0x42 someG) with
  shadows := [{ left := left, dest := .gen 5, value := .word 9 }], group := some (openGroup [] false) }
theorem witness_shadow_last : IssuesInGroup 0 (loading 1) (loading 1) (openGroup [] false) ∧
    (coreOf (loading 1) 0).shadows = [{ left := 0 + 1, dest := .gen 5, value := .word 9 }] :=
  ⟨⟨by decide, ⟨by rfl, by rfl⟩, ⟨by rfl, by rfl⟩, ⟨0x20, by decide +kernel⟩, by rfl⟩, by rfl⟩
theorem witness_shadow_second : IssuesInGroup 0 (loading 2) (loading 2) (openGroup [] false) ∧
    (coreOf (loading 2) 0).shadows = [{ left := 1 + 1, dest := .gen 5, value := .word 9 }] :=
  ⟨⟨by decide, ⟨by rfl, by rfl⟩, ⟨by rfl, by rfl⟩, ⟨0x20, by decide +kernel⟩, by rfl⟩, by rfl⟩

/-- Closed groups that hold nothing, a store, an atomic. -/
def closing (held : List Held) (sh : List Shadow) : State :=
  device { coreWith (regsWith 0x42 someG) with shadows := sh, group := some (openGroup held true) }
def closingLoad : State := closing [] [{ left := 0, dest := .gen 5, value := .word 9 }]
def closingStore : State := closing [.store ownAccess [1, 2] false] []
def closingAmo : State := closing [.amo 0 ownAccess .add true false 7 0] [{ left := 0, dest := .gen 5, value := .deferred 0 }]
theorem witness_commit_of_a_load : MayCommit 0 closingLoad (openGroup [] true) :=
  ⟨by decide, ⟨rfl, rfl⟩, ⟨rfl, rfl, rfl⟩, by decide, ⟨rfl, rfl, rfl, rfl⟩⟩
theorem witness_commit_of_a_store : MayCommit 0 closingStore (openGroup [.store ownAccess [1, 2] false] true) ∧
    (coreOf closingStore 0).shadows = [] ∧ ownAccess.pa % 64 + 2 ≤ 64 ∧ OwnLine 0 ownAccess closingStore :=
  ⟨⟨by decide, ⟨rfl, rfl⟩, ⟨rfl, rfl, rfl⟩, by decide, ⟨rfl, rfl, rfl, rfl⟩⟩, rfl, by decide,
    by decide, by decide, by decide, ⟨_, rfl, .inl rfl⟩, fun _ => ⟨rfl, by decide, fun nt => by cases nt <;> rfl, by decide, 0, _, rfl, rfl, rfl⟩⟩
theorem witness_commit_of_an_amo : MayCommit 0 closingAmo (openGroup [.amo 0 ownAccess .add true false 7 0] true) ∧
    OwnLine 0 ownAccess closingAmo ∧ isMemory ownAccess.pa = true :=
  ⟨⟨by decide, ⟨rfl, rfl⟩, ⟨rfl, rfl, rfl⟩, by decide, ⟨rfl, rfl, rfl, rfl⟩⟩,
    ⟨by decide, by decide, by decide, ⟨_, rfl, .inl rfl⟩, fun _ => ⟨rfl, by decide, fun nt => by cases nt <;> rfl, by decide, 0, _, rfl, rfl, rfl⟩⟩,
    by decide⟩

/-- A prefetch at the line passes; one at all ones is refused. -/
theorem witness_prefetches : (translate 0 wantLoad 0x20000 atK = (.ok ownXlat, atK)) ∧
    ∃ e v, translate 0 wantLoad 0xFFFFFFFFFFFFFFFF atK = (.error e, v) := ⟨rfl, _, _, rfl⟩

/-- An interrupt waits for lc0 at U; at S with IE 0 and at K none is taken. -/
def interrupted (status : Word64) : State := { device (coreWith (regsWith status someG)) with
  intc := { ({} : Intc) with pend := [(300, true)] }, ctl := { ({} : Ctl) with regs := [(0x410960, 0x90000000), (0x8000018, 1)] } }
theorem witness_interrupts : takesIntr (interrupted 0x02) 0 = true ∧ takesIntr (interrupted 0x22) 0 = false ∧
    takesIntr (interrupted 0x42) 0 = false ∧ coreRuns (interrupted 0x02) 0 = true ∧ (coreOf (interrupted 0x02) 0).group = none ∧
    (csr (coreOf (interrupted 0x02) 0).regs 0x522).getLsbD 0 = true := by decide +kernel
theorem witness_retry : bound (loading 1) 0 = true ∧ (coreOf (loading 1) 0).paused = false ∧
    (coreOf (loading 1) 0).group = some (openGroup [] false) ∧ (coreOf (loading 1) 0).retryRun = 0 ∧ (coreOf (loading 1) 0).retries = [] :=
  ⟨by decide, rfl, rfl, rfl, rfl⟩

/-! ### Vectors -/

/-- One in each 64-bit lane of v1; v2 the doubles 1.0; k1 the two lowest lanes. -/
def vecRegsOf (status : Word64) (fpcsr : Word64) : Regs := { regsWith status someG with
  v := [(1, 1), (2, 0x3FF0000000000000)], k := [(1, 3)], csr := [(0x002, fpcsr), (0x400, status), (0x522, 1)] }
def vecK : State := device (coreWith (vecRegsOf 0x42 0x1F00))
def vecQuiet : State := device (coreWith (vecRegsOf 0x42 0))
def vecOffU : State := device (coreWith (vecRegsOf 0x06 0))
theorem issues_vecK : Issues 0 vecK vecK := ⟨by decide, by decide, by decide, by decide, by decide, ⟨0x20, by decide +kernel⟩, by rfl⟩
theorem issues_vecQuiet : Issues 0 vecQuiet vecQuiet := ⟨by decide, by decide, by decide, by decide, by decide, ⟨0x20, by decide +kernel⟩, by rfl⟩
theorem witness_vector_on_and_off : (Issues 0 vecK vecK ∧ VectorOn (coreOf vecK 0).regs) ∧
    Issues 0 vecOffU vecOffU ∧ ¬VectorOn (coreOf vecOffU 0).regs :=
  ⟨⟨issues_vecK, by unfold VectorOn; decide⟩, ⟨by decide, by decide, by decide, by decide, by decide, ⟨0x20, by decide +kernel⟩, by rfl⟩,
    by unfold VectorOn; decide⟩
/-- 1.0 divided by 0.0 raises division by zero, which is enabled in `vecK` and not in `vecQuiet`. -/
theorem witness_fp_flags : (fOp2 fmtD (fpCtl (coreOf vecK 0).regs) .div 0x3FF0000000000000 0).2.bits &&& fld (csr (coreOf vecK 0).regs 0x002) 12 8 ≠ 0 ∧
    fld (csr (coreOf vecQuiet 0).regs 0x002) 12 8 = 0 := by decide +kernel

/-- An element access of 8 bytes at the line. -/
theorem passes_element : Passes 0 vWantLoad 0x20000 8 true false vecK ownXlat := ⟨by decide, by rfl, by rfl⟩
theorem own_line_vecK : OwnLine 0 ownAccess vecK :=
  ⟨by decide, by decide, by decide, ⟨_, rfl, .inl rfl⟩, fun _ => ⟨rfl, by decide, fun nt => by cases nt <;> rfl, by decide, 0, _, rfl, rfl, rfl⟩⟩
/-- The two lowest lanes at g4 and g4 + 8 (`VLD`, `VLD.FF` with all of its lanes, `VST`). -/
def twoLanes (i : Nat) : Xlat := { acc := { pa := 0x20000 + 8 * i, tc := 1 }, page := 0x20 }
theorem witness_vector_load : (0x20000 : Word64).toNat % 8 = 0 ∧ ∀ i, (i < 8 ∧ (readK (coreOf vecK 0).regs 1).getLsbD i = true) →
    Passes 0 vWantLoad (0x20000 + BitVec.ofNat 64 (i * 8)) 8 true false vecK (twoLanes i) ∧ OwnLine 0 (twoLanes i).acc vecK := by
  refine ⟨by decide, fun i h => ?_⟩
  have h2 : i < 2 := by
    have : ∀ i, i < 8 → (readK (coreOf vecK 0).regs 1).getLsbD i = true → i < 2 := by decide
    exact this i h.1 h.2
  obtain rfl | rfl : i = 0 ∨ i = 1 := by omega
  · exact ⟨⟨by decide, by rfl, by rfl⟩, by decide, by decide, by decide, ⟨_, rfl, .inl rfl⟩,
      fun _ => ⟨rfl, by decide, fun nt => by cases nt <;> rfl, by decide, 0, _, rfl, rfl, rfl⟩⟩
  · exact ⟨⟨by decide, by rfl, by rfl⟩, by decide, by decide, by decide, ⟨_, rfl, .inl rfl⟩,
      fun _ => ⟨rfl, by decide, fun nt => by cases nt <;> rfl, by decide, 0, _, rfl, rfl, rfl⟩⟩
theorem witness_vector_store : (0x20000 : Word64).toNat % 8 = 0 ∧ ∀ i, (i < 8 ∧ (readK (coreOf vecK 0).regs 1).getLsbD i = true) →
    Passes 0 vWantStore (0x20000 + BitVec.ofNat 64 (i * 8)) 8 false true vecK (twoLanes i) := by
  refine ⟨by decide, fun i h => ?_⟩
  have h2 : i < 2 := by
    have : ∀ i, i < 8 → (readK (coreOf vecK 0).regs 1).getLsbD i = true → i < 2 := by decide
    exact this i h.1 h.2
  obtain rfl | rfl : i = 0 ∨ i = 1 := by omega
  · exact ⟨by decide, by rfl, by rfl⟩
  · exact ⟨by decide, by rfl, by rfl⟩
/-- Every lane of a gather or a scatter through v0 lies at g4. -/
theorem witness_gather (i : Nat) (h : i = 0 ∨ i = 1) : Passes 0 { vWantGather with elem := some i } 0x20000 8 true false vecK ownXlat ∧
    Passes 0 { vWantScatter with elem := some i } 0x20000 8 false true vecK ownXlat := by
  obtain rfl | rfl := h <;> exact ⟨⟨by decide, by rfl, by rfl⟩, ⟨by decide, by rfl, by rfl⟩⟩
/-- The value of a load of zeros under k1, merging with v0. -/
theorem witness_lanes : MaskedLanes 64 (readK (coreOf vecK 0).regs 1) false (fun _ => 0) (readV (coreOf vecK 0).regs 0) 0 := by
  intro i _; simp [lane, show readV (coreOf vecK 0).regs 0 = 0 from rfl]
/-- `VLD.FF` across the end of a page that S may read: the element past it is refused. -/
def endOfPage : State := { device (coreWith { vecRegsOf 0x22 0 with g := [(4, 0x20FF8)] }) with
  mem := { ({} : MemSt) with bytes := [(0x10, 0x10)]
                             priv := [(0, { ({} : PrivCaches) with l1i := oneLine 0x800, l1d := oneLine 0x83F, l2 := oneLine 0x83F })] } }
theorem passed {x : Except Exc Xlat × State} {y : Xlat} {s : State}
    (h : (match x.1 with | .ok a => decide (a = y) | .error _ => false) = true) (k : x.2 = s) : x = (.ok y, s) := by
  obtain ⟨_ | a, t⟩ := x
  · cases h
  · exact Prod.ext (congrArg Except.ok (of_decide_eq_true h)) k
theorem refused {x : Except Exc Xlat × State} {s : State}
    (h : (match x.1 with | .ok _ => false | .error e => decide (e.cause ≠ 15)) = true) (k : x.2 = s) :
    ∃ e : Exc, e.cause ≠ 15 ∧ x = (.error e, s) := by
  obtain ⟨e | a, t⟩ := x
  · exact ⟨e, of_decide_eq_true h, Prod.ext rfl k⟩
  · cases h
theorem witness_first_fault : (access 0 vWantLoad 0x20FF8 8 true false endOfPage = (.ok { acc := { pa := 0x20FF8, tc := 1 }, page := 0x20 }, endOfPage)) ∧
    ∃ e : Exc, e.cause ≠ 15 ∧ access 0 vWantLoad 0x21000 8 true false endOfPage = (.error e, endOfPage) :=
  ⟨passed (by decide +kernel) (by decide +kernel), refused (by decide +kernel) (by decide +kernel)⟩

/-! ### Long instructions -/

/-- g5 the destination, g6 a source that differs in its first byte, g7 a length of 8, g8 a destination that overlaps a source at g5. -/
def longK : State := { device (coreWith (regsWith 0x42 [(5, 0x20000), (6, 0x20010), (7, 8), (8, 0x20004)])) with
  mem := { ({} : MemSt) with bytes := [(0x20010, 1)]
                             priv := [(0, { ({} : PrivCaches) with l1i := oneLine 0x800, l1d := oneLine 0x800, l2 := oneLine 0x800 })] } }
theorem issues_longK : Issues 0 longK longK := ⟨by decide, by decide, by decide, by decide, by decide, ⟨0x20, by decide +kernel⟩, by rfl⟩
theorem own_line_longK (i : Nat) (h : i = 0 ∨ i = 4 ∨ i = 0x10) : OwnLine 0 { pa := 0x20000 + i, tc := 1 } longK := by
  obtain rfl | rfl | rfl := h <;> exact ⟨by decide, by decide, by decide, ⟨_, rfl, .inl rfl⟩,
    fun _ => ⟨rfl, by decide, fun nt => by cases nt <;> rfl, by decide, 0, _, rfl, rfl, rfl⟩⟩
theorem witness_long_write : accessPart 0 longWantWrite 0x20000 8 false true true longK = (.ok ownXlat, longK) := passed (by decide +kernel) (by decide +kernel)
theorem witness_long_read : lineSpans 0x20010 8 = [(0x20010, 8)] ∧
    accessPart 0 longWantRead 0x20010 8 true false false longK = (.ok { acc := { pa := 0x20010, tc := 1 }, page := 0x20 }, longK) ∧
    readByte longK 0x20010 ≠ readByte longK 0x20000 :=
  ⟨by decide, passed (by decide +kernel) (by decide +kernel), by decide⟩
/-- `BCOPY g8, g5, g7`: the source lies below, the ranges overlap; its first micro-step moves all 8 bytes from the top. -/
theorem witness_long_overlap : (0x20000 < 0x20004 ∧ 0x20004 < 0x20000 + 8) ∧ 0x20004 + 8 - max 0x20004 (0x20004 + 8 - 1 - (0x20004 + 8 - 1) % 64) = 8 ∧
    accessPart 0 longWantWrite 0x20004 8 false true true longK = (.ok { acc := { pa := 0x20004, tc := 1 }, page := 0x20 }, longK) :=
  ⟨by decide, by decide, passed (by decide +kernel) (by decide +kernel)⟩

/-! ### Privilege, gateways, translation caches, events -/

/-- `ERET` at S to U and to S, at K, at U. -/
def returning (status estat : Word64) : State := device (coreWith { regsWith status someG with csr := [(0x400, status), (0x403, estat), (0x522, 1)] })
theorem witness_eret : (Issues 0 (returning 0x22 0) (returning 0x22 0) ∧ fld (csr (coreOf (returning 0x22 0) 0).regs 0x403) 5 4 = 0) ∧
    (Issues 0 (returning 0x22 0x10) (returning 0x22 0x10) ∧ fld (csr (coreOf (returning 0x22 0x10) 0).regs 0x403) 5 4 = 1) ∧
    levelOf (coreOf atK 0).regs = 2 ∧ levelOf (coreOf atU 0).regs = 0 ∧ fld (csr (coreOf atK 0).regs 0x610) 1 0 = 0 :=
  ⟨⟨⟨by decide, by decide, by decide, by decide, by decide, ⟨0x20, by decide +kernel⟩, by rfl⟩, by decide⟩,
    ⟨⟨by decide, by decide, by decide, by decide, by decide, ⟨0x20, by decide +kernel⟩, by rfl⟩, by decide⟩, by decide, by decide, by decide⟩

/-- A `GATEPAD` at 0x21000 on a page of code 1; the page at 0x20000 has code 0. -/
def gated : State := { device (coreWith { regsWith 0x22 someG with csr := [(0x522, 1)] }) with
  mem := { ({} : MemSt) with bytes := [(0x10, 0x10), (0x21001, 0x30), (0x21003, 0xF8)]
                             priv := [(0, { ({} : PrivCaches) with l1i := [(0, some { line := 0x800, st := .m }), (1, some { line := 0x840, st := .m })]
                                                                   l2 := [(0, some { line := 0x800, st := .m }), (1, some { line := 0x840, st := .m })] })] } }
theorem passedGate {x : Except Nat Xlat × State} {y : Xlat} {s : State}
    (h : (match x.1 with | .ok a => decide (a = y) | .error _ => false) = true) (k : x.2 = s) : x = (.ok y, s) := by
  obtain ⟨_ | a, t⟩ := x
  · cases h
  · exact Prod.ext (congrArg Except.ok (of_decide_eq_true h)) k
theorem refusedGate {x : Except Nat Xlat × State} {n : Nat} {s : State}
    (h : (match x.1 with | .ok _ => false | .error m => decide (m = n)) = true) (k : x.2 = s) : x = (.error n, s) := by
  obtain ⟨m | a, t⟩ := x
  · exact Prod.ext (congrArg Except.error (of_decide_eq_true h)) k
  · cases h
theorem witness_gate : Issues 0 gated gated ∧ levelOf (coreOf gated 0).regs ≠ 2 ∧
    gateTarget 0 0x21000 gated = (.ok { acc := { pa := 0x21000, tc := 1 }, page := 0x21 }, gated) ∧ gateTarget 0 0x20000 gated = (.error 2, gated) :=
  ⟨⟨by decide, by decide, by decide, by decide, by decide, ⟨0x20, by decide +kernel⟩, by rfl⟩, by decide,
    passedGate (by decide +kernel) (by decide +kernel), refusedGate (by decide +kernel) (by decide +kernel)⟩
/-- A core at K with its gate open from S, and one with no gate open. -/
def gateOpen : State := device { coreWith (regsWith 0x42 someG) with gate := { isOpen := true, level := 1 } }
theorem witness_gateret : Issues 0 gateOpen gateOpen ∧ (coreOf gateOpen 0).gate.isOpen = true ∧ (coreOf gateOpen 0).gate.level.toNat < 2 ∧
    (coreOf atK 0).gate.isOpen = false :=
  ⟨⟨by decide, by decide, by decide, by decide, by decide, ⟨0x20, by decide +kernel⟩, by rfl⟩, by decide, by decide, by decide⟩

/-- 16 broadcasts of lc0 that lc1 has not acknowledged. -/
def someBroadcast : Broadcast := { kind := .all, world := false, waiting := [1] }
def broadcasting : State := device { coreWith (regsWith 0x22 someG) with broadcasts := List.replicate 16 someBroadcast }
theorem witness_broadcasts : Issues 0 broadcasting broadcasting ∧ (coreOf broadcasting 0).broadcasts = someBroadcast :: List.replicate 15 someBroadcast ∧
    (1 : Nat) ∈ someBroadcast.waiting ∧ (coreOf broadcasting 1).group = none ∧ smGet islandDef broadcasting.power.islands (pcOf broadcasting 1) = .active ∧
    (coreOf atS 0).broadcasts = [] :=
  ⟨⟨by decide, by decide, by decide, by decide, by decide, ⟨0x20, by decide +kernel⟩, by rfl⟩, by rfl, by decide, by decide, by decide, by decide⟩

/-- A latched event; a wait that an event ends, and one that nothing ends. -/
def evented (w : Option Wait) (e : Word64) : State := device { coreWith { regsWith 0x42 someG with csr := [(0x400, 0x42), (0x410, e), (0x522, 1)] } with wait := w }
theorem witness_wait_with_an_event : Issues 0 (evented none 1) (evented none 1) ∧
    csr (coreOf (evented none 1) 0).regs 0x410 &&& csr (coreOf (evented none 1) 0).regs 0x411 &&& 0xFF01 ≠ 0 :=
  ⟨⟨by decide, by decide, by decide, by decide, by decide, ⟨0x20, by decide +kernel⟩, by rfl⟩, by decide⟩
theorem witness_wait_ends : endResult (evented (some { kind := .wfe, rd := 5 }) 1) 0 .wfe ≠ 0 ∧ endResult (evented (some { kind := .wfe, rd := 5 }) 0) 0 .wfe = 0 ∧
    (coreOf (evented (some { kind := .wfe, rd := 5 }) 1) 0).wait = some { kind := .wfe, rd := 5 } := by decide +kernel
theorem witness_wait_on_memory : Passes 0 wantWait 0x20000 8 true false atK ownXlat ∧ staleView atK (pcOf atK 0) (lineOf 0x20000) false = none :=
  ⟨⟨by decide, by rfl, by rfl⟩, by decide⟩
/-- The kinds of targets of `SEV`: all cores, lc3, a core not bound (with 256 bound), a reserved bit. -/
theorem witness_sev_operands : (0x8000000000000000 : Word64).getLsbD 63 = true ∧ fld (0x8000000000000000 : Word64) 62 9 = 0 ∧
    (fld (3 : Word64) 62 9 = 0 ∧ fld (3 : Word64) 8 0 < 512) ∧ (fld (0x1FF : Word64) 62 9 = 0 ∧ 256 ≤ fld (0x1FF : Word64) 8 0) ∧
    fld (0x200 : Word64) 62 9 ≠ 0 := by decide

/-! ### Control space and queues -/

/-- lc0 at K with a control-space address in g5 (a mailbox register), a posting page in g6. -/
def ctlK : State := device (coreWith (regsWith 0x42 [(3, 5), (5, 0xF000000200400), (6, 0xB000000000000)]))
theorem issues_ctlK : Issues 0 ctlK ctlK := ⟨by decide, by decide, by decide, by decide, by decide, ⟨0x20, by decide +kernel⟩, by rfl⟩
def ctlXlat : Xlat := { acc := { pa := 0xF000000200400, mt := 2, tc := 1 }, page := 0xF000000200 }
theorem witness_sdc : Passes 0 wantSdc 0xF000000200400 4 false true ctlK ctlXlat ∧ Passes 0 wantSdcRead 0xF000000200400 4 true false ctlK ctlXlat ∧
    placeOf 0xF000000200400 = some ⟨.control, 0, 0x200400⟩ ∧ slotOf ctlK = 0 ∧ slotOf (coreMeter 0 ctlXlat.acc ctlK) = 0 :=
  ⟨⟨by decide, passed (by decide +kernel) (by decide +kernel), rfl⟩, ⟨by decide, passed (by decide +kernel) (by decide +kernel), rfl⟩,
    by decide, by decide, by decide +kernel⟩
def page0 : Posting := { slot := 0, queue := 0, ads := [], page := 0xB000000000, tc := 1 }
theorem passedPosting {x : Except Exc Posting × State} {y : Posting} {s : State}
    (h : (match x.1 with | .ok a => decide (a = y) | .error _ => false) = true) (k : x.2 = s) : x = (.ok y, s) := by
  obtain ⟨_ | a, t⟩ := x
  · cases h
  · exact Prod.ext (congrArg Except.ok (of_decide_eq_true h)) k
theorem witness_posting_page : postingPage 0 wantEnq true 0xB000000000000 ctlK = (.ok page0, ctlK) ∧
    postingPage 0 wantDeq true 0xB000000000000 ctlK = (.ok page0, ctlK) ∧ postingPage 0 wantQstat false 0xB000000000000 ctlK = (.ok page0, ctlK) ∧
    postingPage 0 wantDeq false 0xB000000000000 ctlK = (.ok page0, ctlK) ∧ (sendersOf ctlK 0).length < 16 ∧ sopDown ctlK 0 = false ∧
    (queueOf ctlK 0).state = .free :=
  ⟨passedPosting (by decide +kernel) (by decide +kernel), passedPosting (by decide +kernel) (by decide +kernel),
    passedPosting (by decide +kernel) (by decide +kernel), passedPosting (by decide +kernel) (by decide +kernel), by decide, by decide, by decide⟩
/-- The queue in service and a fenced pipeline; 16 send slots in use. -/
def someLetter : Letter := { data := 7, postmark := 1 }
def queueK : State := { ctlK with office := { ({} : Office) with
  queues := [(0, { ({} : Queue) with state := .active, burst := [someLetter] })]
  senders := [(0, List.replicate 16 { dest := 0, letter := someLetter, released := true })], sopFenced := 0xF0 } }
theorem witness_queue_states : Issues 0 queueK queueK ∧ (sendersOf queueK 0).length = 16 ∧ (∀ x ∈ sendersOf queueK 0, x.released = true) ∧
    sopDown queueK 0 = false ∧ sopDown queueK 4 = true ∧ (queueOf queueK 0).state ≠ .free ∧ qCount (queueOf queueK 0) < 2 ^ 32 ∧
    postingPage 0 wantEnq true 0xB000000000000 queueK = (.ok page0, queueK) :=
  ⟨⟨by decide, by decide, by decide, by decide, by decide, ⟨0x20, by decide +kernel⟩, by rfl⟩, by decide, by decide, by decide, by decide, by decide, by decide,
    passedPosting (by decide +kernel) (by decide +kernel)⟩

/-! ### Control space -/

/-- Nothing refuses lc0, at K, the registers the statements name. -/
theorem reaches_atK (lv off : Nat) (h : (lv, off) ∈ [(1, 0x24), (1, 0x28), (1, 0x30), (2, 0x40), (1, 0x430004), (1, 0x1008004), (1, 0x1008018),
    (2, 0x2000120), (1, 0x3000040), (1, 0x3000004)]) : Reaches (.core 0) lv 0 off atK := by
  simp only [List.mem_cons, List.not_mem_nil, or_false, Prod.mk.injEq] at h
  rcases h with h | h | h | h | h | h | h | h | h | h <;> obtain ⟨rfl, rfl⟩ := h <;>
    exact ⟨⟨by decide, by decide, by decide, by decide, by decide, by decide, by decide⟩, by decide⟩
/-- Registers for each clause: a threshold of the interrupt controller written with 1, with a reserved bit, by a core at U; SYS_ID; no register. -/
theorem witness_register_writes : (∃ d ix, findReg 0x430004 = some (d, ix) ∧ d.half = .single ∧ d.acc = .rw ∧
      firstCode ([earlyChecks (.core 0) d 0x430004 atK] ++ lateChecks d ix 0x430004 (curWord (.core 0) d ix 0x430004 atK) 1 (BitVec.allOnes 32) atK) = 0 ∧
      firstCode ([earlyChecks (.core 0) d 0x430004 atK] ++ lateChecks d ix 0x430004 (curWord (.core 0) d ix 0x430004 atK) 0x80000000 (BitVec.allOnes 32) atK) ≠ 0 ∧
      writerLevel atU (.core 0) < needLevel atU d 0x430004 true) ∧
    (∃ d ix, findReg 0 = some (d, ix) ∧ d.half = .single ∧ d.acc = .ro ∧ needLevel atK d 0 true ≤ writerLevel atK (.core 0)) ∧ findReg 0x50 = none :=
  ⟨⟨_, _, rfl, rfl, rfl, by decide +kernel, by decide +kernel, by decide +kernel⟩, ⟨_, _, rfl, rfl, rfl, by decide +kernel⟩, rfl⟩
/-- A bit of a target set, set and refused; a share of franking staged, with a commit in flight and without. -/
theorem witness_bit_alias : ∃ d ix, findReg 0x420000 = some (d, ix) ∧ d.half = .single ∧ d.acc = .rw ∧ d.name = .icTset ∧
    earlyChecks (.core 0) d 0x420000 atK = 0 ∧ ∀ c ∈ lateChecks d ix 0x420000 0 1 1 atK, c = 0 :=
  ⟨_, _, rfl, rfl, rfl, rfl, by decide +kernel, by decide +kernel⟩
def inFlight : State := { atK with ctl := { ({} : Ctl) with inFlight := true, unswitched := [0, 3] } }
theorem witness_stage : ∃ d ix, findReg 0x800000 = some (d, ix) ∧ d.acc = .rw ∧ 31 &&& ~~~(BitVec.ofNat 32 d.bits) = 0 ∧ d.period ≠ 0 ∧
    needLevel atK d 0x800000 true = 1 ∧ unboundReg atK d ix = false ∧
    (∀ c ∈ stageCodes d ix 0x800000 (periodMerge 0x800000 (reg atK 0x800000) 9) atK, c = 0) ∧ inFlight.ctl.inFlight = true :=
  ⟨_, _, rfl, rfl, by decide +kernel, by decide +kernel, by decide +kernel, by decide +kernel, by decide +kernel, rfl⟩
theorem witness_ledger_timeout : (ctlWrite (.core 0) 0x430004 1 atK).1 = 0 ∧ (ctlWrite (.core 0) 0x430004 1 atU).1 = 2 := by decide +kernel
theorem witness_epochs : (atK.ctl.inFlight = false ∧ atK.live.patchMode = false ∧ (∀ p, p < 8 → (port atK p).join.state ≠ .joining)) ∧
    inFlight.ctl.inFlight = true ∧ smWf optDef inFlight.ctl.committed = true ∧ inFlight.ctl.unswitched.contains 3 = true := by decide +kernel
/-- The first block's snapshot, that of all, a lock at K and one refused at S, a register whose parity fails. -/
def parityBad : State := { atK with ctl := { ({} : Ctl) with badParity := [0x430004] } }
theorem witness_snapshots : writerLevel atK (.core 0) = 2 ∧ writerLevel atS (.core 0) < 2 ∧ smWf cnt0 atK.ctl.counters = true ∧
    hasParity 0x430004 = true ∧ atK.ctl.badParity.contains 0x430004 = false ∧ parityBad.ctl.badParity.contains 0x430004 = true := by decide +kernel

/-! ### Homes and caches -/

/-- The line at 0x40000, in no cache, in the L2 of core 1 as owner with core 2 as sharer, shared by core 0. -/
def theLine : Nat := 0x1000
def dirEntry (owner : Option Nat) (sharers : BitVec 72) : DirEntry := { line := theLine, owner := owner, sharers := sharers, devs := 0, proxy := false }
def home (dir : SMap (Option DirEntry)) (priv : SMap PrivCaches) (q : List HomeReq) (a : List SnoopAnswer) (g : List Grant) : State := { atK with
  mem := { ({} : MemSt) with priv := priv, homeQ := q, answers := a, grants := g
                             slices := [(homeOf atK theLine, { ({} : Slice) with dir := dir })] } }
def emptyHome : State := home [] [] [] [] []
def holds (st : LineState) : PrivCaches := { ({} : PrivCaches) with l2 := [(0, some { line := theLine, st := st })] }
def ownedHome : State := home [(l3Set theLine * 18, some (dirEntry (some 1) 3))] [(1, holds .m)] [] [] []
def sharedHome : State := home [(l3Set theLine * 18, some (dirEntry (some 1) 3))] [(0, holds .s), (1, holds .o)] [] [] []
theorem witness_home_serves : (∀ q ∈ emptyHome.mem.homeQ, q.line ≠ theLine) ∧ (∀ g ∈ emptyHome.mem.grants, g.line ≠ theLine) ∧
    mayRequest emptyHome 0 theLine = true ∧ l2Copy emptyHome 0 theLine = none ∧ findDir emptyHome (homeOf emptyHome theLine) theLine = none ∧
    smGet optDef (slice emptyHome (homeOf emptyHome theLine)).dir (l3Set theLine * 18 + 0) = none ∧ isMemory (64 * theLine) = true := by decide +kernel
theorem witness_home_waits : mayRequest ownedHome 0 theLine = true ∧ l2Copy ownedHome 0 theLine = none ∧
    (dirOf ownedHome (homeOf ownedHome theLine) theLine).owner = some 1 ∧
    (mayRequest sharedHome 0 theLine = true ∧ (l2Copy sharedHome 0 theLine).map (fun x => x.2.st) = some .s) := by decide +kernel
/-- `HN_CMO_ADDR` of lc0 names the line at 0, which is memory, and, at K, one that is not. -/
def cmoElsewhere : State := { atK with ctl := { ({} : Ctl) with regs := [(bankKey (hnOff 0 0x8014) (writerKey (.core 0)), 0xF0000)] } }
theorem witness_maintenance : (keyReg atK (bankKey (hnOff 0 0x8014) (writerKey (.core 0)))).toNat * 2 ^ 32 +
      (keyReg atK (bankKey (hnOff 0 0x8010) (writerKey (.core 0)))).toNat = 64 * 0 + 0 ∧ isMemory (64 * 0) = true ∧ backed atK (64 * 0) = true ∧
    (keyReg cmoElsewhere (bankKey (hnOff 0 0x8014) (writerKey (.core 0)))).toNat * 2 ^ 32 +
      (keyReg cmoElsewhere (bankKey (hnOff 0 0x8010) (writerKey (.core 0)))).toNat = 64 * (0xF0000 * 2 ^ 26) + 0 ∧
    isMemory (64 * (0xF0000 * 2 ^ 26)) = false := by decide +kernel

/-! ### Snoops, grants, evictions -/

/-- Core 1 holds the line as its owner, modified; a served request of core 0 waits for its snoop. -/
def waiting (k : SnoopKind) : HomeReq := { kind := .ru, req := .l2 0, line := theLine, body := {}, served := true, pending := [(1, k)] }
def snooped (k : SnoopKind) : State := home [(l3Set theLine * 18, some (dirEntry (some 1) 2))] [(1, holds .m)] [waiting k] [] []
theorem witness_snoops : (∀ k ∈ [SnoopKind.shared, .unique, .inv, .read, .clean], waiting k ∈ (snooped k).mem.homeQ ∧ (1, k) ∈ (waiting k).pending ∧
    (snooped k).mem.answers.length = 0 ∧ l2Copy (snooped k) 1 theLine = some (0, { line := theLine, st := .m }) ∧
    smWf optDef (priv (snooped k) 1).l2 = true) := by decide +kernel
/-- Its answer: one snoop still open, and none. -/
def answer1 : SnoopAnswer := { pc := 1, line := theLine, had := true, dirty := true, evicting := false }
def answered (p : List (Nat × SnoopKind)) : State := home [(l3Set theLine * 18, some (dirEntry (some 1) 2))] [] [{ waiting .unique with pending := p }] [answer1] []
theorem witness_answers : (answered [(1, .unique), (2, .inv)]).mem.answers = [answer1] ∧
    [((1 : Nat), SnoopKind.unique), (2, .inv)].filter (fun p => p.1 != 1) ≠ [] ∧ [((1 : Nat), SnoopKind.unique)].filter (fun p => p.1 != 1) = [] ∧
    findDir (answered [(1, .unique)]) (homeOf (answered [(1, .unique)]) theLine) theLine ≠ none := by decide +kernel
def grantWaits : State := home [(l3Set theLine * 18, some (dirEntry (some 0) 1))] [] [] [] [{ pc := 0, line := theLine, st := .m }]
theorem witness_grant : grantWaits.mem.grants = [{ pc := 0, line := theLine, st := .m }] ∧ l2On grantWaits 0 = true ∧ findLine (priv grantWaits 0).l2 theLine = none ∧
    (priv grantWaits 0).retired.getLsbD 0 = false ∧ (priv grantWaits 0).spMask.getLsbD 0 = false ∧
    smGet optDef (priv grantWaits 0).l2 (theLine % 1024 * 16 + 0) = none := by decide +kernel
/-- Core 1 may write back a modified line, or report that a shared one is gone. -/
def evicts (st : LineState) : State := home [(l3Set theLine * 18, some (dirEntry (some 1) 2))] [(1, holds st)] [] [] []
theorem witness_evictions : ∀ st ∈ [LineState.m, .o, .e, .s], l2Copy (evicts st) 1 theLine = some (0, { line := theLine, st := st }) ∧
    (evicts st).mem.homeQ.length = 0 ∧ transitOf (evicts st) 1 theLine = none ∧
    (dirOf (evicts st) (homeOf (evicts st) theLine) theLine).owner = some 1 ∧
    (dirOf (evicts st) (homeOf (evicts st) theLine) theLine).sharers ≠ 0 := by decide +kernel
/-- A write-back still queued keeps the acknowledgement back. -/
def queuedWb : State := home [] [] [{ kind := .wb, req := .l2 1, line := theLine, body := {} }] [] []
theorem witness_acknowledgements : (∃ q ∈ queuedWb.mem.homeQ, q.line = theLine ∧ q.req = .l2 1 ∧ (q.kind = .wb ∨ q.kind = .evc)) ∧
    (∀ q ∈ atK.mem.homeQ, q.line ≠ theLine) := by decide +kernel
theorem witness_snoop_timeout : (snooped .inv).mem.homeQ = [waiting .inv] ∧ (waiting .inv).served = true ∧ (waiting .inv).pending ≠ [] ∧
    (waiting .inv).timedOut = false := by decide +kernel

/-! ### Slices, errors in arrays, the keeper's cache services -/

/-- Slice 0 at work on a command, and without one: enabled, disabled, with two ways of scratchpad. -/
def withSlice (x : Slice) : State := { atK with mem := { atK.mem with slices := [(0, x)] } }
theorem reaches_slice (x : Slice) : Reaches (.core 0) 1 0 (hnOff 0 0x8004) (withSlice x) :=
  ⟨⟨(by decide : 1 ≤ writerLevel atK (.core 0)), rfl, rfl, rfl, rfl, rfl, (by decide : DevMode.run ≠ .off)⟩, rfl⟩
theorem witness_slice_commands : (slice atK 0).retiring = none ∧ (slice atK 0).cmd = none ∧ (slice atK 0).removed = false ∧
    (slice (withSlice { ({} : Slice) with enabled := false }) 0).enabled = false ∧ (slice (withSlice { ({} : Slice) with enabled := true }) 0).enabled = true ∧
    (slice (withSlice { ({} : Slice) with cmd := some { op := 1, ways := 0 } }) 0).cmd ≠ none ∧
    (8 ≤ healthyWays (slice atK 0).retired ∧ countOnes (slice atK 0).spMask 16 ≤ 8) ∧
    1 < countOnes (slice (withSlice { ({} : Slice) with spMask := 3 }) 0).spMask 16 := by decide +kernel
theorem witness_slice_completions : (∀ p ∈ [(1, true), (2, false), (3, true), (4, true)],
    (slice (withSlice { ({} : Slice) with cmd := some { op := p.1, ways := 4 }, enabled := p.2 }) 0).cmd = some { op := p.1, ways := 4 } ∧
    (slice (withSlice { ({} : Slice) with cmd := some { op := p.1, ways := 4 }, enabled := p.2 }) 0).enabled = p.2) := by decide +kernel
/-- Of a spare core's L2, a modified line and a shared one; an L3 line, dirty and clean; a way that three errors made due, in use and retired. -/
def spareHolds (st : LineState) : State := home [] [(64, holds st)] [] [] []
def l3Line (dirty : Bool) : State := withSlice { ({} : Slice) with l3 := [(0, some { line := theLine, dirty := dirty, rf := false })] }
def dueWay (r : BitVec 16) : State := withSlice { ({} : Slice) with errs := [(5, 1, 0), (5, 2, 0), (5, 3, 0)], retired := r }
theorem witness_array_errors : (∀ st ∈ [LineState.m, .o, .e, .s], lcOfPc (spareHolds st) 64 = none ∧
      findLine (priv (spareHolds st) 64).l2 theLine = some (0, { line := theLine, st := st })) ∧
    (∀ d ∈ [true, false], findL3 (slice (l3Line d) 0) theLine = some (0, { line := theLine, dirty := d, rf := false })) ∧
    wayDue 5 (nowNs (dueWay 0)) (slice (dueWay 0) 0).errs = true := by decide +kernel
theorem witness_ways : wayDue 5 (nowNs (dueWay 32)) (slice (dueWay 32) 0).errs = true ∧ (slice (dueWay 0) 0).retired.getLsbD 5 = false ∧
    (slice (dueWay 32) 0).retired.getLsbD 5 = true ∧ wayDue 4 (nowNs (dueWay 0)) (slice (dueWay 0) 0).errs = false := by decide +kernel
/-- lc0 at K inside a gateway call, asking for service `fn` with the arguments given. -/
def asks (fn a2 a3 : Word64) : State :=
  device { coreWith (regsWith 0x42 [(1, fn), (2, a2), (3, a3)]) with gate := { ({} : GateCall) with isOpen := true, level := 1 } }
theorem called_asks (a2 a3 : Word64) (fn : Nat) (h : fn < 2 ^ 64) : Called 0 fn (asks (BitVec.ofNat 64 fn) a2 a3) :=
  ⟨by with_unfolding_all rfl, rfl, (by decide : (1 : BitVec 2) ≠ 0), rfl, Nat.mod_eq_of_lt h⟩
/-- lc0 itself and a core that is not there; every cache, no cache, one too many; ways of scratchpad. -/
theorem witness_cache_services : argOf 0 (asks 0x100 0 7) 2 < (asks 0x100 0 7).resil.bound ∧ (asks 0x100 600 0).resil.bound ≤ argOf 0 (asks 0x100 600 0) 2 ∧
    argOf 0 (asks 0x101 0 7) 3 < 8 ∧ 8 ≤ argOf 0 (asks 0x101 0 8) 3 ∧ (argOf 0 (asks 0x102 0 3) 3).testBit 2 = false ∧ (coreOf (asks 0x102 0 3) 0).enableL2 = true ∧
    ((argOf 0 (asks 0x103 0 1) 3).testBit 0 = true ∧ (coreOf (asks 0x103 0 1) 0).enableL1I = true) ∧ argOf 0 (asks 0x103 0 0) 3 = 0 ∧
    8 < argOf 0 (asks 0x104 0 9) 3 ∧ argOf 0 (asks 0x104 0 0) 3 ≤ countOnes (priv (asks 0x104 0 0) (pcOf (asks 0x104 0 0) 0)).spMask 16 := by decide +kernel

/-! ### Memory controllers -/

def withCtl (u : Nat) (c : MemCtl) : State := { atK with mem := { atK.mem with ctls := [(u, c)] } }
/-- A controller of HBM, in service and fenced; its write queue empty, and full of 47 writes for the slot of the line. -/
def fullQueue : State := withCtl 0 { ({} : MemCtl) with wq := (List.range 47).map fun i => { slot := wqSlot atK 0, line := i + 1 } }
theorem witness_controllers : ctlOf atK (64 * 0) = some 0 ∧ (memCtl atK 0).fenced = false ∧ (memCtl atK 0).wq.all (fun w => w.line != 0) = true ∧
    isMemory (64 * 0) = true ∧ readsPoison atK 0 = false ∧ ctlOf (withCtl 0 { ({} : MemCtl) with fenced := true }) (64 * 0) = some 0 ∧
    (memCtl (withCtl 0 { ({} : MemCtl) with fenced := true }) 0).fenced = true ∧
    ((memCtl fullQueue 0).wq.filter fun w => w.slot == wqSlot fullQueue 0).length = 47 := by decide +kernel
/-- Refreshes owed: none, 7, 8 ahead. -/
theorem witness_refresh : (∀ n ∈ [(0 : Int), 6, -7], n < 7 ∧ -8 < n ∧
      smGet owed0 (memCtl (withCtl 0 { ({} : MemCtl) with refreshOwed := [(0, n)] }) 0).refreshOwed (0 * 64 + 0) = n) ∧
    smGet owed0 (memCtl (withCtl 0 { ({} : MemCtl) with refreshOwed := [(0, 7)] }) 0).refreshOwed (0 * 64 + 0) = 7 ∧
    smGet owed0 (memCtl (withCtl 0 { ({} : MemCtl) with refreshOwed := [(0, -8)] }) 0).refreshOwed (0 * 64 + 0) = -8 := by decide +kernel
/-- Lanes of both kinds of controller, an eye of 16 steps and the widest. -/
theorem witness_recentre : (127 < (if (0 : Fin 16).val < 8 then 128 else 80) ∧ ¬127 < (if (8 : Fin 16).val < 8 then 128 else 80)) ∧
    (16 ≤ (116 : Nat) - 100 ∧ (116 : Nat) ≤ 255 + 100 ∧ (100 + 116) / 2 < 512) ∧ (16 ≤ (255 : Nat) - 0 ∧ (255 : Nat) ≤ 255 + 0) := by decide

/-! ### Repair, sectors -/

/-- A row with two corrected errors, one already spared, a bank with 65 spared rows, a DIMM that fits the reserve and one that does not. -/
def errorsAt (n : Nat) : State := withCtl 0 { ({} : MemCtl) with errors := (List.range n).map fun i => { place := 0, bank := 1, row := 2, col := i, time := 0 } }
def sparedRows (banks : List (Nat × Nat)) : State := withCtl 0 { ({} : MemCtl) with
  spared := (List.range 65).map fun i => { place := 0, bank := 1, row := i, spare := i, toBank := 1 }
  sparedBanks := banks }
theorem witness_row_sparing : rowErrors (errorsAt 2) 0 0 1 2 = 2 ∧ rowErrors (errorsAt 1) 0 0 1 2 = 1 ∧ (memCtl (errorsAt 2) 0).spared.length = 0 ∧
    ((memCtl (sparedRows []) 0).spared.any fun x => x.place == 0 && x.bank == 1 && x.row == 2) = true := by decide +kernel
theorem witness_bank_sparing : 64 < ((memCtl (sparedRows []) 0).spared.filter fun r => r.place / 8 == 0 && r.bank == 1).length ∧
    (0, 1) ∉ (memCtl (sparedRows []) 0).sparedBanks ∧ ((memCtl (sparedRows []) 0).sparedBanks.filter fun b => b.1 == 0).length < 4 ∧
    ((memCtl (errorsAt 2) 0).spared.filter fun r => r.place / 8 == 0 && r.bank == 1).length ≤ 64 := by decide +kernel
/-- Two channels of one DIMM of two ranks each hold 64 GiB; the reserve holds one DIMM, and nothing. -/
def reserve (free : Nat) : State := { atK with mem := { atK.mem with ddrGib := 64, ddrChannels := [0, 1], rankLog2 := 1, reserveTotal := free, reserveFree := free } }
theorem witness_retirement : (∀ r ∈ (memCtl (reserve 32768) 8).retired, r.dimm ≠ 0) ∧
    1024 * (reserve 32768).mem.ddrGib / max 1 ((reserve 32768).mem.ddrChannels.length * (reserve 32768).mem.dimmsPerCh) ≤ (reserve 32768).mem.reserveFree ∧
    (reserve 0).mem.reserveFree < 32768 / 2 ^ (reserve 0).mem.rankLog2 ∧ mergeTarget 0x10B 8 (reserve 0) = none := by decide +kernel
theorem witness_reserve_copy : (memCtl (withCtl 8 { ({} : MemCtl) with retired := [{ dimm := 0, rank := none, pointer := 0, total := 4, done := false }] }) 8).retired =
    [{ dimm := 0, rank := none, pointer := 0, total := 4, done := false }] := by decide
/-- Sectors 0 and 7 and the modes; a commit in flight; the last 2 MiB below the reserve given. -/
def smallDdr (c : Core) : State := { device c with mem := { (device c).mem with ddrGib := 64, ddrChannels := [0, 1] },
                                                       ctl := { ({} : Ctl) with regs := [(0x8000018, 0x1101)] } }
def gives : State := smallDdr { coreWith (regsWith 0x42 [(1, 0x201), (2, BitVec.ofNat 64 (ddrBase + 64 * 2 ^ 30 - 0x200000)), (3, 0x200000)]) with
  gate := { ({} : GateCall) with isOpen := true, level := 1 } }
theorem witness_sectors : argOf 0 (asks 0x200 7 1) 2 < 8 ∧ argOf 0 (asks 0x200 7 1) 3 < 2 ∧ (asks 0x200 7 1).ctl.inFlight = false ∧
    7 < argOf 0 (asks 0x200 8 0) 2 ∧ ({ asks 0x200 0 0 with ctl := inFlight.ctl }).ctl.inFlight = true := by decide +kernel
set_option maxRecDepth 20000 in
theorem witness_ddr_give : argOf 0 gives 3 % 0x200000 = 0 ∧ argOf 0 gives 2 % 0x200000 = 0 ∧ argOf 0 gives 2 + argOf 0 gives 3 = reserveBase gives ∧
    slotOf gives * 2 ^ 44 + 0x10000000000 ≤ argOf 0 gives 2 ∧ pagesCoded gives (argOf 0 gives 2) (argOf 0 gives 3) 0 = true ∧
    mappedOpen gives (argOf 0 gives 2) (argOf 0 gives 2 + argOf 0 gives 3) = false := by decide +kernel
theorem called_gives : Called 0 0x201 gives := ⟨by decide, by decide, by decide, by decide, by decide⟩

/-! ### The sorting office -/

/-- The office runs; queue 0 and, in the same pipeline, queue 8 as given; lc0's staging image holds W0 and W1 as given. -/
def officeQ (run : Bool) (q0 q8 : Queue) (w0 w1 : Word32) : State := { atK with
  office := { ({} : Office) with running := run, queues := [(0, q0), (8, q8)] }
  ctl := { ({} : Ctl) with regs := [(0x3000018, 6), (bankKey 0x3000080 (writerKey (.core 0)), w0), (bankKey 0x3000084 (writerKey (.core 0)), w1),
                                    (0x8000018, 1)] } }
def image (s : State) (i : Nat) : Word32 := keyReg s (bankKey (0x3000080 + 4 * i) (writerKey (.core 0)))
/-- A LETTER queue with a reserved allotment: W0 and W1. -/
def lq : Word32 := 0x00800000
def words (w1 : Word32) : List Word32 := [lq, w1]
def active (b : List Letter) : Queue := { ({} : Queue) with state := .active, words := words 0x40000, burst := b }
theorem reaches_office (run : Bool) (q0 q8 : Queue) (w0 w1 : Word32) (off : Nat) (h : off ∈ [0x3000040, 0x3000004, 0x3000020]) :
    Reaches (.core 0) 1 0 off (officeQ run q0 q8 w0 w1) := by
  simp only [List.mem_cons, List.not_mem_nil, or_false] at h
  obtain rfl | rfl | rfl := h <;> exact ⟨⟨(by decide : 1 ≤ writerLevel atK (.core 0)), rfl, rfl, rfl, rfl, rfl, (by decide : DevMode.run ≠ .off)⟩, rfl⟩
def freeQ : State := officeQ true {} {} lq 0x40000
/-- Room, none (queue 8 has 65,535 entries reserved), a reserved bit, the office at rest. -/
theorem witness_queue_create : (freeQ.office.running = true ∧ sopDown freeQ 0 = false ∧ imageRsvd (image freeQ) = false ∧
      imageRange freeQ 0 (image freeQ) = false ∧ (queueOf freeQ 0).state = .free ∧ imageBudget freeQ 0 (image freeQ) = false ∧
      smWf slotDef freeQ.office.slots = true) ∧
    imageBudget (officeQ true {} { ({} : Queue) with state := .active, words := words 0xFFFF0000 } lq 0xFFFF0000) 0
      (image (officeQ true {} { ({} : Queue) with state := .active, words := words 0xFFFF0000 } lq 0xFFFF0000)) = true ∧
    imageRsvd (image (officeQ true {} {} 0x80800000 0x40000)) = true ∧ (officeQ false {} {} lq 0x40000).office.running = false ∧
    (queueOf (officeQ true { ({} : Queue) with state := .fenced } {} lq 0x40000) 0).state = .fenced := by decide +kernel
def activeQ (b : List Letter) : State := officeQ true (active b) {} lq 0x50000
theorem witness_queue_resize : imageRsvd (image (activeQ [])) = false ∧ imageRange (activeQ []) 0 (image (activeQ [])) = false ∧
    (queueOf (activeQ []) 0).state = .active ∧ (qw (queueOf (activeQ []) 0) 0 ^^^ image (activeQ []) 0) &&& 0x1F000000 = 0 ∧
    imageBudget (activeQ []) 0 (image (activeQ [])) = false ∧ qw (queueOf (activeQ []) 0) 4 = image (activeQ []) 4 ∧
    qw (queueOf (activeQ []) 0) 5 = image (activeQ []) 5 ∧
    (qw (queueOf (officeQ true (active []) {} 0x02800000 0x40000) 0) 0 ^^^ image (officeQ true (active []) {} 0x02800000 0x40000) 0) &&& 0x1F000000 ≠ 0 := by
  decide +kernel
/-- A queue that had a ring, now without: nothing of the old ring left, and one letter of it. -/
def oldRing (left : Nat) : State := officeQ true { active [] with words := [lq, 0x40000, 0, 0, 6], oldLeft := left } {} lq 0x40000
theorem witness_queue_new_ring : (∀ n ∈ [0, 1], imageRange (oldRing n) 0 (image (oldRing n)) = false ∧ (queueOf (oldRing n) 0).oldLeft = n ∧
    qw (queueOf (oldRing n) 0) 4 ≠ image (oldRing n) 4) := by decide +kernel
theorem witness_queue_retire : (queueOf (activeQ []) 0).oldLeft = 0 ∧ qCount (queueOf (activeQ []) 0) = 0 ∧ qCount (queueOf (activeQ [someLetter]) 0) ≠ 0 ∧
    (queueOf (activeQ [someLetter]) 0).bell = .armed ∧ dlrLog2 (activeQ [someLetter]) < 21 ∧ (queueOf (activeQ [someLetter]) 0).ring.length = 0 ∧
    (queueOf (activeQ [someLetter]) 0).burst.length + (dlrHead (activeQ [someLetter]) - dlrTail (activeQ [someLetter])).toNat ≤
      2 ^ dlrLog2 (activeQ [someLetter]) := by decide +kernel
def fullDlr : State := { activeQ [someLetter] with ctl := { (activeQ [someLetter]).ctl with regs := [(0x3000018, 6), (0x300001C, 64), (0x8000018, 1)] } }
theorem witness_full_dead_letter_ring : dlrFull fullDlr = true ∧ (queueOf fullDlr 0).burst = [someLetter] := by decide +kernel
/-- The office started with a ring that fits, pages of code 3, and with none. -/
def ringReady : State := { atK with
  mem := { atK.mem with bytes := [(0x20, 0x33)] }
  ctl := { ({} : Ctl) with regs := [(0x3000010, 0x40000), (0x3000018, 6), (0x8000018, 1)] } }
theorem witness_start : ringOk ringReady (dlrBase ringReady) (128 * 2 ^ dlrLog2 ringReady) = true ∧ ringReady.office.running = false ∧ freeQ.office.running = true ∧ (officeQ false {} {} lq 0).office.running = false ∧
    ringOk (officeQ false {} {} lq 0) (dlrBase (officeQ false {} {} lq 0)) (128 * 2 ^ dlrLog2 (officeQ false {} {} lq 0)) = false := by decide +kernel
theorem witness_dead_letter_tail : ((64 : Word32) - dlrTail fullDlr).toNat ≤ (dlrHead fullDlr - dlrTail fullDlr).toNat ∧
    (dlrHead fullDlr - dlrTail fullDlr).toNat < ((65 : Word32) - dlrTail fullDlr).toNat := by decide +kernel
/-- Reservation 0 of lc0, of nothing and of HBM unit 0; reservation 534 is the last; the ceiling of TC0 at 20 and 21. -/
theorem reaches_franking (off : Nat) (h : off ∈ [0x900000, 0x902160, 0x800020]) : Reaches (.core 0) 1 0 off atK := by
  simp only [List.mem_cons, List.not_mem_nil, or_false] at h
  obtain rfl | rfl | rfl := h <;> exact ⟨⟨by decide, by decide, by decide, by decide, by decide, by decide, by decide⟩, by decide⟩
def resFor (w1 : Word32) : State := { atK with ctl := { ({} : Ctl) with regs := [(0x900004, w1), (0x8000018, 1)] } }
theorem witness_reservations : (0x80000001 : Word32) &&& 0x7FFF0000 = 0 ∧ hasStaged atK 0x900000 = false ∧ bound atK 0 = true ∧
    fld (0x80000001 : Word32) 15 0 ≠ 0 ∧ namesAbsent atK (heldRes atK 0 1) (heldRes atK 0 2) = false ∧
    (∀ r, r < 40 → maskNames (heldRes atK 0 1) (heldRes atK 0 2) r = false) ∧ maskNames (heldRes (resFor 0x1000000) 0 1) 0 0 = true ∧
    ¬chargedBut (resFor 0x1000000) 0 0 + fld (0x8000FFFF : Word32) 15 0 ≤ resLimit (resFor 0x1000000) 0 := by decide +kernel
theorem witness_ceiling : hasStaged atK 0x800020 = false ∧ (∀ i, i < 5 → 20 + shareSum (reg atK (0x800040 + 4 * i)) ≤ 100) := by decide +kernel
theorem witness_ceiling_charged : ¬∃ r, r < 40 ∧ capacity atK r * 20 / 100 < charged atK r := by decide +kernel
def charges : State := { atK with ctl := { ({} : Ctl) with regs := [(0x900000, 0x80000400), (0x900004, 0x1000000), (0x8000018, 1)] } }
theorem witness_ceiling_too_low : capacity charges 0 * 5 / 100 < charged charges 0 := by decide +kernel

/-! ### Letters -/

/-- Core 3 sends a letter to queue 0; the letter may be dead-lettered. -/
def sentLetter (via : Option Nat) : Letter := { data := 2 ^ 52, postmark := 1, via := via }
def sending (naked : Bool) (l : Letter) : SendSlot := { dest := 0, letter := l, released := true, naked := naked }
def posting (run naked : Bool) (q : Queue) (l : Letter) : State := { atK with
  power := { ({} : Power) with mode := .run }
  office := { ({} : Office) with running := run, queues := [(0, q), (9, active [])], senders := [(3, [sending naked l])] }
  ctl := { ({} : Ctl) with regs := [(0x3000010, 0x40000), (0x3000018, 6), (0x8000018, 1)] } }
theorem witness_letter_arrives : (∀ naked ∈ [false, true], sendersOf (posting true naked (active []) (sentLetter none)) 3 = [sending naked (sentLetter none)]) ∧
    (posting false false (active []) (sentLetter none)).office.running = false ∧
    (let s := posting true false (active []) (sentLetter none)
     s.office.running = true ∧ s.power.mode ≠ .drain ∧ sopDown s 0 = false ∧ fld (0 : BitVec 32) 31 16 = devNum s ∧ qKind (queueOf s 0) ≠ 1 ∧
       (queueOf s 0).state = .active ∧ (queueOf s 0).spill = false ∧ burstRoom s 0 (queueOf s 0) = true ∧ (qw (queueOf s 0) 0).getLsbD 19 = false ∧
       bellOn (queueOf s 0) = false ∧ dlrFull s = false) := by decide +kernel
theorem clear_dead_letters : Clear (posting true false {} (sentLetter none)) 0x40000 128 := by unfold Clear; decide +kernel
/-- A queue in no use, draining, full; the dead-letter ring full. -/
def fullQ : Queue := active (List.replicate 4 someLetter)
def dlrIsFull (q : Queue) : State := { posting true false q (sentLetter none) with
  ctl := { ({} : Ctl) with regs := [(0x3000018, 6), (0x300001C, 64), (0x8000018, 1)] } }
theorem witness_dead_letters : (sentLetter none).data.getLsbD 52 = true ∧ dlrFull (posting true false {} (sentLetter none)) = false ∧
    (queueOf (posting true false {} (sentLetter none)) 0).state = .free ∧ ringLog2 fullQ = 0 ∧
    burstRoom (posting true false fullQ (sentLetter none)) 0 fullQ = false ∧ dlrFull (dlrIsFull fullQ) = true ∧ dlrFull (dlrIsFull {}) = true := by
  decide +kernel
/-- A letter given up: of no sending queue, and of one whose queue 9 takes reports. -/
def sendQ : Queue := { ({} : Queue) with state := .active, words := [0x08010009] }
def givesUp : State := { posting true true (active []) { sentLetter (some 4) with data := 0 } with
  office := { ({} : Office) with running := true, queues := [(4, sendQ), (9, active [])], senders := [(3, [sending true { sentLetter (some 4) with data := 0 }])] } }
theorem witness_given_up : sendersOf (posting true true {} (sentLetter none)) 3 = [sending true (sentLetter none)] ∧
    sendersOf givesUp 3 = [sending true { sentLetter (some 4) with data := 0 }] ∧ ((0 : Vec).getLsbD 52 = false ∧ (qw (queueOf givesUp 4) 0).getLsbD 16 = true) ∧
    fld (qw (queueOf givesUp 4) 0) 15 0 = 9 ∧ sopDown givesUp 1 = false ∧ (queueOf givesUp 9).state = .active ∧ qKind (queueOf givesUp 9) ≠ 1 ∧
    (queueOf givesUp 9).spill = false ∧ burstRoom givesUp 9 (queueOf givesUp 9) = true ∧ (qw (queueOf givesUp 9) 0).getLsbD 19 = false ∧
    bellOn (queueOf givesUp 9) = false := by decide +kernel
/-- A bulk ring with a letter at 0x40000; a doorbell held; a lease. -/
def spilled : Queue := { active [] with ring := [{ pa := 0x40000, postmark := 1 }], lease := some 3, words := [0x00900000, 0x40100, 0x40001] }
theorem witness_ring_bell_lease : (let s := posting true false spilled (sentLetter none)
    (queueOf s 0).ring = [{ pa := 0x40000, postmark := 1 }] ∧ (queueOf s 0).state ≠ .fenced ∧ sopDown s 0 = false ∧ burstRoom s 0 (queueOf s 0) = true ∧
      bellOn (queueOf s 0) = true ∧ (queueOf s 0).bell = .armed ∧ fld (qw (queueOf s 0) 2) 15 0 ≠ 0 ∧ 0 < qCount (queueOf s 0) ∧
      qCount (queueOf s 0) < fld (qw (queueOf s 0) 2) 31 16) ∧
    bellOn (active []) = false ∧ (active []).lease = none := by decide +kernel
theorem clear_ring_letter : Clear (posting true false spilled (sentLetter none)) 0x40000 64 := by unfold Clear; decide +kernel

/-! ### Commands of queues -/

/-- A command letter of queue 0: the fields at the byte offsets of 14 R350. -/
def cmdData (fields : List (Nat × Nat)) : Vec := BitVec.ofNat 512 ((fields.map fun f => f.2 * 2 ^ (8 * f.1)).foldl (· + ·) 0)
def cmdOf (fields : List (Nat × Nat)) : Cmd := { q := 0, data := cmdData fields, cpm := 1 }
def cmdQ (fields : List (Nat × Nat)) : Queue :=
  { ({} : Queue) with state := .active, words := [0x10800000, 0x40000], burst := [{ data := cmdData fields, postmark := 1 }] }
/-- Regions 1 and 2 stand at 0x40000 and 0x50000; every resource below 16 is granted to queue 0. -/
def commanding (slots : SMap (Option Slot)) (ctxs : SMap Ctx) (fields : List (Nat × Nat)) : State := { atK with
  power := { ({} : Power) with mode := .run }
  office := { ({} : Office) with
    running := true, queues := [(0, cmdQ fields), (9, active [])], slots := slots, ctxs := ctxs, ctrs := [(3, 7)]
    grants := (List.range 4).map fun k => (k, { ({} : GrantEntry) with valid := true, queue := 0, kind := k, base := 0, count := 16 })
    regions := [(1, { ({} : Region) with valid := true, base := 0x40000, pages := 1, rights := 7 }),
                (2, { ({} : Region) with valid := true, base := 0x50000, pages := 1, rights := 7 })] } }
theorem next_cmd (slots : SMap (Option Slot)) (ctxs : SMap Ctx) (f : List (Nat × Nat)) (op : Nat) (h : fieldsBad (cmdOf f) = false ∧ cOp (cmdOf f) = op)
    (o : cFlag (cmdOf f) fOrder = false) (l : cFlag (cmdOf f) fLctren = false) : NextCmd (cmdOf f) op (commanding slots ctxs f) := by
  refine ⟨⟨?_, rfl, ?_⟩, ?_, ⟨_, _, rfl, rfl⟩, h, Or.inl o, ?_⟩
  · show fld (0x10800000 : Word32) 28 27 = 2
    decide
  · rw [show (cmdOf f).q % 8 = 0 from rfl]
    have h1 : (commanding slots ctxs f).resil.silent = [] := rfl
    have h2 : (commanding slots ctxs f).office.sopFenced = 0 := rfl
    simp [sopDown, sopOut, islandSilent, h1, h2]
    exact ⟨0, by decide⟩
  · intro x hx
    cases hx
  · intro hl
    rw [l] at hl
    cases hl
/-- `PUT`, `GET` and `COPY` of 8 bytes between regions 1 and 2; `PUTI` of 1 and 8 bytes to region 2; AMO on 8 and 4 bytes of region 2. -/
def moves (op : Nat) : List (Nat × Nat) := [(24, op), (34, 2), (36, 1), (56, 8)]
def putiOf (n : Nat) : List (Nat × Nat) := [(24, 2), (34, 2), (36, n), (56, 5)]
def amoOf (n : Nat) : List (Nat × Nat) := [(24, 4), (34, 2), (36, n), (48, 3), (56, 5)]
theorem witness_moves : (∀ op ∈ [1, 3, 5], fieldsBad (cmdOf (moves op)) = false ∧ cOp (cmdOf (moves op)) = op ∧ cMode (cmdOf (moves op)) = 0 ∧
      cRdev (cmdOf (moves op)) = devNum atK ∧ cX (cmdOf (moves op)) ≤ 2 ^ 30 ∧
      (∀ x ∈ (localUse (commanding [] [] (moves op)) 0 1 0 8 needRead).1, x = 0) ∧ (∀ x ∈ (localUse (commanding [] [] (moves op)) 0 2 0 8 needWrite).1, x = 0) ∧
      (∀ x ∈ (localUse (commanding [] [] (moves op)) 0 1 0 8 needWrite).1, x = 0) ∧ ∀ x ∈ (localUse (commanding [] [] (moves op)) 0 2 0 8 needRead).1, x = 0) ∧
    (0x40000 + 8 ≤ 0x50000) := by decide +kernel
theorem clear_regions (f : List (Nat × Nat)) (pa : Nat) (h : pa = 0x40000 ∨ pa = 0x50000) : Clear (commanding [] [] f) pa 8 := by
  obtain rfl | rfl := h <;> exact (show Clear (commanding [] [] []) _ 8 by unfold Clear; decide +kernel)
theorem witness_immediates : (∀ n ∈ [1, 8], fieldsBad (cmdOf (putiOf n)) = false ∧ cOp (cmdOf (putiOf n)) = 2 ∧ 0 < cLreg (cmdOf (putiOf n)) ∧
      cLreg (cmdOf (putiOf n)) < 9 ∧ ∀ x ∈ (localUse (commanding [] [] (putiOf n)) 0 2 0 n needWrite).1, x = 0) ∧
    (∀ n ∈ [1, 9, 256, 265], fieldsBad (cmdOf (amoOf n)) = false ∧ cOp (cmdOf (amoOf n)) = 4 ∧ cLreg (cmdOf (amoOf n)) % 256 < 10 ∧
      cLreg (cmdOf (amoOf n)) < 512 ∧ cRoff (cmdOf (amoOf n)) % amoSize (cmdOf (amoOf n)) = 0 ∧
      ∀ x ∈ (localUse (commanding [] [] (amoOf n)) 0 2 0 (amoSize (cmdOf (amoOf n))) needAmo).1, x = 0) := by decide +kernel
/-- To another device, by a route that is not there, and by one whose PORT is up. -/
theorem witness_elsewhere : (∀ op ∈ [2, 3, 4, 8], cRdev (cmdOf [(24, op), (32, 1), (36, 1)]) ≠ devNum atK) ∧
    (sendMsg (letterMsg 4 1 0 0 false { data := 0, postmark := 1 }) (newTid atK).2).1 = .unreachable := by decide +kernel
/-- Counter 3 holds 7: no slot waits on it, one with threshold 10; one that is not granted. -/
def armed (thresh : Word64) : SMap (Option Slot) := [(5, some { cmd := cmdOf [], ctr := 3, thresh := thresh, order := 0 })]
def counts (op k : Nat) : List (Nat × Nat) := [(24, op), (38, k), (56, 3 - 3 * (op / 10))]
theorem witness_counters : (∀ op ∈ [8, 9, 10], fieldsBad (cmdOf (counts op 3)) = false ∧ cOp (cmdOf (counts op 3)) = op ∧ cRctr (cmdOf (counts op 3)) = 3) ∧
    (let s := commanding (armed 10) [] (counts 8 3)
     granted s 0 1 3 = true ∧ sopDown s 3 = false ∧ (10 : Word64).toNat ≤ (ctrOf s 3 + 3).toNat) ∧
    granted (commanding [] [] (counts 8 16)) 0 1 16 = false := by decide +kernel
/-- `TRIGCANCEL` of slot 5, armed and empty. -/
theorem witness_cancel : fieldsBad (cmdOf [(24, 12), (56, 5)]) = false ∧ cX (cmdOf [(24, 12), (56, 5)]) = 5 ∧
    slotAt (commanding (armed 10) [] []) 5 ≠ none ∧ slotAt (commanding [] [] []) 5 = none ∧ granted (commanding [] [] []) 0 0 5 = true ∧
    sopDown (commanding [] [] []) 5 = false := by decide +kernel
/-- Contexts: context 2 combines 2 elements of 3 contributors, and of 1. -/
def setsUp (rop elems expect : Nat) : List (Nat × Nat) := [(24, 17), (36, 2), (56, 2 + elems * 65536 + rop * 2 ^ 24 + expect * 2 ^ 32)]
def context (expect : Nat) : SMap Ctx := [(2, { ({} : Ctx) with cfg := some (cmdOf (setsUp 1 2 expect)), accs := List.replicate 2 (accStart 1) })]
def contribs : List (Nat × Nat) := [(24, 16), (36, 1), (56, 2)]
theorem witness_contributions : fieldsBad (cmdOf contribs) = false ∧ cOp (cmdOf contribs) = 16 ∧ cX (cmdOf contribs) < 4096 ∧
    (∀ n ∈ [3, 1], (let s := commanding [] (context n) contribs
      (ctxOf s 2).cfg = some (cmdOf (setsUp 1 2 n)) ∧ granted s 0 2 2 = true ∧ sopDown s 2 = false ∧ xExpect (cmdOf (setsUp 1 2 n)) = n ∧
        xElems (cmdOf (setsUp 1 2 n)) = 2 ∧ (ctxOf s 2).count = 0 ∧ xFwd (cmdOf (setsUp 1 2 n)) = false ∧
        cFlag (cmdOf (setsUp 1 2 n)) fCpl = false ∧ cFlag (cmdOf (setsUp 1 2 n)) fLctren = false ∧
        (∀ x ∈ (localUse s 0 1 0 16 needRead).1, x = 0) ∧ ∀ x ∈ (localUse s 0 2 0 16 needWrite).1, x = 0)) := by decide +kernel
theorem clear_contributions (n pa : Nat) (h : pa = 0x40000 ∨ pa = 0x50000) : Clear (commanding [] (context n) contribs) pa 16 := by
  obtain rfl | rfl := h <;> exact (show Clear (commanding [] [] []) _ 16 by unfold Clear; decide +kernel)
theorem witness_context_set : (∀ rop ∈ [0, 1, 11], (let c := cmdOf (setsUp rop 8 1)
      fieldsBad c = false ∧ cOp c = 17 ∧ natBits (cX c) 15 12 = 0 ∧ (cX c).testBit 23 = false ∧ natBits (cX c) 31 28 = 0 ∧ cRoff c < 4096 ∧ xRop c = rop ∧
        xElems c = 8 ∧ xExpect c ≠ 0 ∧ xCtx c = 2 ∧ ∀ x ∈ (localUse (commanding [] [] (setsUp rop 8 1)) 0 2 0 64 needWrite).1, x = 0)) ∧
    (ctxOf (commanding [] [(2, { ({} : Ctx) with cfg := some (cmdOf (setsUp 1 2 3)), count := 1 })] []) 2).count ≠ 0 := by decide +kernel
/-- A trigger on counter 3 for slot 11, above and at what the counter holds. -/
def arming (thresh : Nat) : List (Nat × Nat) := [(8, 1), (10, 3), (12, 11), (16, thresh)]
theorem witness_arming : (∀ n ∈ [7, 8], cMode (cmdOf (arming n)) = 1 ∧ cb (cmdOf (arming n)) 9 9 = 0 ∧ cAslot (cmdOf (arming n)) = 11 ∧
      cActr (cmdOf (arming n)) = 3 ∧ cThresh (cmdOf (arming n)) = n ∧ 11 % 8 = 3) ∧ ctrOf (commanding [] [] (arming 7)) 3 = 7 ∧
    granted (commanding [] [] (arming 7)) 0 0 11 = true ∧ qKind (queueOf (commanding [] [] (arming 7)) 0) = 2 := by decide +kernel
/-- Commands that run: one that succeeds in silence, one that another device has, one that posts a letter to queue 9. -/
def loud : List (Nat × Nat) := [(25, 1), (28, 9)]
def running (f : List (Nat × Nat)) (tid : Option (BitVec 12)) : State := { commanding [] [] f with
  office := { (commanding [] [] f).office with cmds := [{ ({ cmd := cmdOf f } : Running) with tid := tid }] } }
theorem witness_completions : ((running [] none).office.cmds.filter fun y => y.cmd.q == 0)[0]? = some { cmd := cmdOf [] } ∧
    ((running [] (some 5)).office.cmds.filter fun y => y.cmd.q == 0)[0]? = some { ({ cmd := cmdOf [] } : Running) with tid := some 5 } ∧
    cFlag (cmdOf []) fCpl = false ∧ (cFlag (cmdOf loud) fCpl = true ∧ cFlag (cmdOf loud) fRctren = false ∧ cFlag (cmdOf loud) fLctren = false ∧
      cCplq (cmdOf loud) = 9) ∧
    (let s := running loud none
     (sendersOf s 65536).length = 0 ∧ s.office.running = true ∧ s.power.mode ≠ .drain ∧ sopDown s 1 = false ∧ (queueOf s 9).state = .active ∧
       qKind (queueOf s 9) ≠ 1 ∧ (queueOf s 9).spill = false ∧ burstRoom s 9 (queueOf s 9) = true ∧ (qw (queueOf s 9) 0).getLsbD 19 = false ∧
       bellOn (queueOf s 9) = false) := by decide +kernel
/-- A forward from context 4 to context 2 of the same device. -/
def fwd : Forward := { src := 4, srcDev := 0, dev := 0, dst := 2, rop := 1, elems := 2, accs := List.replicate 2 (accStart 1), round := 0 }
def forwarding : State := { commanding [] [] [] with
  office := { (commanding [] [] []).office with
    forwards := [fwd]
    ctxs := [(2, { ({} : Ctx) with cfg := some (cmdOf (setsUp 1 2 3)), accs := List.replicate 2 (accStart 1) }),
             (4, { ({} : Ctx) with cfg := some (cmdOf (setsUp 1 2 3)), accs := List.replicate 2 (accStart 1) })] } }
theorem witness_forward : fwd.srcDev = devNum forwarding ∧ fwd.dev = devNum forwarding ∧ fwd ∈ forwarding.office.forwards ∧
    (ctxOf forwarding 2).cfg = some (cmdOf (setsUp 1 2 3)) ∧ (ctxOf forwarding 4).cfg = some (cmdOf (setsUp 1 2 3)) ∧
    xRop (cmdOf (setsUp 1 2 3)) = fwd.rop ∧ xElems (cmdOf (setsUp 1 2 3)) = fwd.elems ∧
    (ctxOf forwarding 2).count + 1 < xExpect (cmdOf (setsUp 1 2 3)) ∧ fwd ∉ atK.office.forwards := by decide +kernel

/-! ### Links -/

/-- PORT 2 as given, words of registers in force and written, the messages that wait. -/
def linked (x : Port) (regs act : SMap Word32) (w : List (Nat × Msg)) : State := { atK with
  power := { ({} : Power) with mode := .run }
  links := { ({} : Links) with ports := [(2, x)], waiting := w }
  ctl := { ({} : Ctl) with regs := regs, active := act } }
def upPort : Port := { ({} : Port) with state := .up, lanes := 15, spare := 4 }
def frameOf (n : BitVec 8) : Frame := { fseq := n, msgs := [{ kind := 1 }] }
/-- A frame in order, FSEQ 0 after 0xFF; it acknowledges the one frame kept, or none; too many retries; a coherent peer that is not. -/
def keeps (n : Nat) : Port := { upPort with retryBuf := [frameOf 5], retries := n }
def cohPort (st : CohState) : Port := { upPort with join := { ({} : Join) with state := st, peerSlot := 1 } }
theorem witness_frames : upPort.state = .up ∧ ({} : Port).state ≠ .up ∧ (0 : BitVec 8) = upPort.rxSeq + 1 ∧ (2 : BitVec 8) ≠ upPort.rxSeq + 1 ∧
    upPort.sleepAgreed = false ∧ upPort.join.state ≠ .coherent ∧ (framesAfter 5 (keeps 0).retryBuf).length < (keeps 0).retryBuf.length ∧
    ¬(framesAfter 4 (keeps 0).retryBuf).length < (keeps 0).retryBuf.length ∧
    (2 + 1 < fld (regAct (linked (keeps 2) [] [] []) (vxBase 2 + 0x14)) 15 8) ∧
    (fld (regAct (linked (keeps 3) [] [] []) (vxBase 2 + 0x14)) 15 8 ≤ 3 + 1) ∧ (cohPort .coherent).join.state = .coherent := by decide +kernel
/-- A message to device 1 waits at PORT 2, which has no credit left for its main channel; the escape channel has. -/
def waitsHere : Msg := { kind := 1, mc := 1, dst := 1 }
def escaping : State := linked { upPort with credits := [(0, 0)] } [] [(0x4090004, 0x40A)] [(8, waitsHere)]
theorem witness_escape : escaping.links.waiting[0]? = some (8, waitsHere) ∧ escaping.links.waiting[1]? = none ∧ waitsHere.dst.toNat ≠ devNum escaping ∧
    waitsHere.hops < fld (regAct escaping 0x4080000) 20 16 ∧ (routeEntry escaping waitsHere).getLsbD 3 = true ∧ fld (routeEntry escaping waitsHere) 2 0 = 2 ∧
    (∀ q, q < 8 → (routeEntry escaping waitsHere).getLsbD (8 + q) = true → canSend escaping q waitsHere = false) ∧
    canSend escaping 2 { waitsHere with esc := true } = true ∧ (port escaping 2).pwr ≠ .listen := by decide +kernel
/-- Messages through and to this device: one that is sent on, one that waits. -/
def passing (main : Word32) : State := linked upPort [] [(0x4090004, main)] []
theorem witness_passing_messages : (route false waitsHere (passing 0x400)).1 = .sent ∧ (route false waitsHere escaping).1 = .wait ∧
    upPort.discarding = false ∧ ({ kind := 1 } : Msg).dst.toNat = devNum (passing 0) := by decide +kernel
/-- The office of this device at PORT 2, the time past 2^40 ns. -/
def receiving (o : Office) : State := { linked upPort [] [] [] with office := o, time := { ({} : Time) with now := 0x10000000000 } }
theorem witness_letter_received : (let s := receiving { ({} : Office) with running := true, queues := [(0, active [])] }
    fld (vecOfChunks []) 15 0 = 0 ∧ sopDown s 0 = false ∧ (queueOf s 0).state = .active ∧ qKind (queueOf s 0) ≠ 1 ∧ (queueOf s 0).spill = false ∧
      burstRoom s 0 (queueOf s 0) = true ∧ (qw (queueOf s 0) 0).getLsbD 19 = false ∧ bellOn (queueOf s 0) = false ∧ 2 ^ 40 ≤ nowNs s ∧
      nowNs s < 2 ^ 63 ∧ s.office.running = true ∧ s.power.mode ≠ .drain) := by decide +kernel
/-- A letter that device 1 has, answered by it: acknowledged, refused, given up. -/
def outThere : SendSlot := { dest := 0x10000, letter := sentLetter none, released := true, tid := some 5 }
def awaiting : State := receiving { ({} : Office) with senders := [(3, [outThere])] }
def answer (kind : BitVec 8) (k : BitVec 40) (cs : List (BitVec 128)) : Msg := { kind := kind, tid := 5, src := 1, kspec := k, chunks := cs }
theorem witness_letter_answers : smWf senderDef awaiting.office.senders = true ∧ letterOf (answer 3 0 []) awaiting = some (3, outThere) ∧
    fld (answer 3 0 []).kspec 7 0 = 0 ∧ fld (answer 3 2 []).kspec 7 0 ≠ 0 ∧ outThere.letter.data.getLsbD 52 = true := by decide +kernel
/-- A command of device 1 on region 2, open to it, and on counter 3. -/
def openRegion : Region := { ({} : Region) with valid := true, base := 0x50000, pages := 1, rights := 7, remote := true, ctrBase := 0, ctrCount := 8 }
def serves : State := { receiving { ({} : Office) with running := true, regions := [(2, openRegion)] } with
  ctl := { ({} : Ctl) with regs := [(0x8000018, 1)] } }
def remoteCmd (f : List (Nat × Nat)) : Cmd := { q := 65536, data := vecOfChunks (chunksOf (cmdData f)), cpm := 0 }
theorem witness_commands_received : (∀ x ∈ serveCodes serves 1 (remoteCmd (putiOf 8)), x = 0) ∧ cOp (remoteCmd (putiOf 8)) = 2 ∧
    cFlag (remoteCmd (putiOf 8)) fRctren = false ∧ (∀ x ∈ serveCodes serves 1 (remoteCmd [(24, 8), (34, 2), (38, 3), (56, 3)]), x = 0) ∧
    cOp (remoteCmd [(24, 8), (34, 2), (38, 3), (56, 3)]) = 8 ∧ awaiting.office.running = false := by decide +kernel
theorem clear_served (n : Nat) (h : n ≤ 8) : Clear serves 0x50000 n :=
  fun i hi => (show Clear serves 0x50000 8 by unfold Clear; decide +kernel) i (Nat.lt_of_lt_of_le hi h)
/-- Answers and data for a command that runs elsewhere, and for one performed here with 128 bytes to come. -/
def away (left : Nat) : Running := { ({ cmd := cmdOf [(24, 3), (32, 1), (36, 2)] } : Running) with tid := some 5, left := left }
def here128 : Serving := { src := 1, tid := 5, cmd := { q := 65536, data := cmdData [(24, 1), (34, 2)], cpm := 0 }, left := 128 }
def dataIn : State := { serves with office := { serves.office with cmds := [away 128], serving := [here128] } }
def dataMsg (kind : BitVec 8) : Msg := answer kind 0 [0xFFFFFFFFFFFFFFFF0000000000000000, 1, 2, 3, 4]
theorem witness_data : (dataIn.office.cmds.find? fun r => r.tid == some (5 : BitVec 12) && cRdev r.cmd == 1) = some (away 128) ∧
    (dataIn.office.serving.find? fun x => x.src == 1 && x.tid == 5) = some here128 ∧ cOp here128.cmd = 1 ∧ 64 < here128.left ∧
    dataMask (dataMsg 6) = 2 ^ 64 - 1 ∧ dataPoison (dataMsg 6) = false ∧ dataOff (dataMsg 6) = 0 ∧
    (regionOf dataIn (cRreg here128.cmd)).base = 0x50000 ∧ (regionOf dataIn (cLreg (away 128).cmd)).base = 0x50000 := by decide +kernel
theorem clear_data : Clear dataIn 0x50000 64 := by unfold Clear; decide +kernel
/-- `RESYNC` for PORT 3, lost; its frames received, and none. -/
def lost (ms : List Msg) : State := { receiving {} with
  links := { ({} : Links) with ports := [(2, upPort), (3, { ({} : Port) with state := .out, peerValid := true, peerDev := 1, peerPort := 4, resyncWait := true
                                                                             retryBuf := [{ fseq := 5, msgs := ms }] })] } }
theorem witness_resync : (port (lost []) 3).state ≠ .up ∧ (port (lost []) 3).peerDev = (answer 8 0x405 []).src.toNat ∧
    (port (lost []) 3).peerPort = fld (answer 8 0x405 []).kspec 10 8 ∧ (∀ r, r < 3 → (port (lost []) r).peerValid = false) ∧
    framesAfter ((answer 8 0x405 []).kspec.setWidth 8) (port (lost []) 3).retryBuf = [] ∧ (port (lost []) 3).resyncWait = true ∧
    (∀ f ∈ (port (lost []) 3).retryBuf, ∀ m ∈ f.msgs, m.mc = 0) ∧ upPort.resyncWait = false := by decide +kernel

/-! ### Training, lanes, rest, sweeps -/

/-- Four lanes, two, one; the third failure puts the PORT out of service. -/
def trains (n : Nat) : State := linked { ({} : Port) with state := .training, attempts := n } [] [] []
theorem witness_training : (∀ u ∈ [(31 : BitVec 5), 15, 3], 2 ≤ (byEye [] ((List.range 5).filter fun l => u.getLsbD l && !(port (trains 0) 2).bad.getLsbD l)).length) ∧
    ¬2 ≤ (byEye [] ((List.range 5).filter fun l => (16 : BitVec 5).getLsbD l && !(port (trains 0) 2).bad.getLsbD l)).length ∧
    (0 : BitVec 8).toNat = fld (mainVer (trains 0) 2) 31 24 ∧ (port (trains 1) 2).attempts < 2 ∧ 2 ≤ (port (trains 2) 2).attempts ∧
    (port (trains 2) 2).join.state = .non ∧ (trains 2).links.waiting.length = 0 := by decide +kernel
/-- Lane 1 fails: with the spare free, used, of a degraded PORT. -/
def spareInUse : Port := { upPort with lanes := 30, spareUsed := true, bad := 1 }
def degradedPort : Port := { upPort with lanes := 3, degraded := true, bad := 28 }
theorem witness_spare_lanes : (upPort.lanes.getLsbD 1 = true ∧ upPort.spareUsed = false ∧ upPort.degraded = false ∧ upPort.bad.getLsbD upPort.spare = false ∧
      (reg (linked upPort [] [] []) (vxBase 2 + 0x14)).getLsbD 0 = true ∧ upPort.sweep.busy = false) ∧
    (spareInUse.lanes.getLsbD 1 = true ∧ 2 ≤ ((List.range 5).filter fun l => !(spareInUse.bad ||| 2).getLsbD l).length) ∧
    (degradedPort.lanes.getLsbD 1 = true ∧ degradedPort.join.state = .non) ∧ upPort.lanes.getLsbD 4 = false ∧ upPort.bad.getLsbD 1 = false := by decide +kernel
/-- Idle times in force; a PORT held active; one asleep, one that agreed to sleep, one whose request is out. -/
def resting (x : Port) : State := linked x [] [(0x4200018, 0x100001)] []
theorem witness_rest : heldActive (resting upPort) 2 = false ∧ fld (regAct (resting upPort) (vxBase 2 + 0x18)) 15 0 ≠ 0 ∧
    fld (regAct (resting upPort) (vxBase 2 + 0x18)) 31 16 ≠ 0 ∧ upPort.pwr = .active ∧ upPort.sleepReq = false ∧
    heldActive (resting (cohPort .coherent)) 2 = true ∧ (port (resting { upPort with sleepReq := true }) 2).sleepReq = true ∧
    (port (resting { upPort with pwr := .listen }) 2).pwr = .listen ∧ (port (resting { keeps 0 with sleepReq := true }) 2).retryBuf ≠ [] := by decide +kernel
/-- A sweep of lane 1: under way with its lane in use, swapped; the spare lent to the peer, or not. -/
def sweeping (x : Sweep) (spareOk : Word32) : State :=
  linked { upPort with sweep := x } [(0x4200104, spareOk), (0x8000018, 1)] [] []
def swept : Sweep := { ({} : Sweep) with busy := true, lane := 1 }
theorem reaches_port (x : Port) (r a : SMap Word32) (w : List (Nat × Msg)) : Reaches (.core 0) 1 0 (vxBase 2 + 0x10) (linked x r a w) ∧
    Reaches (.core 0) 1 0 (vxBase 2 + 0x100) (linked x r a w) ∧ Reaches (.core 0) 1 0 (vxBase 2 + 0xF000) (linked x r a w) :=
  ⟨⟨⟨(by decide : 1 ≤ writerLevel atK (.core 0)), rfl, rfl, rfl, rfl, rfl, (by decide : DevMode.run ≠ .off)⟩, rfl⟩, ⟨⟨(by decide : 1 ≤ writerLevel atK (.core 0)), rfl, rfl, rfl, rfl, rfl, (by decide : DevMode.run ≠ .off)⟩, rfl⟩,
    ⟨⟨(by decide : 1 ≤ writerLevel atK (.core 0)), rfl, rfl, rfl, rfl, rfl, (by decide : DevMode.run ≠ .off)⟩, rfl⟩⟩
theorem witness_sweeps : (reg (sweeping {} 1) (vxBase 2 + 0x104)).getLsbD 0 = true ∧ (reg (sweeping {} 0) (vxBase 2 + 0x104)).getLsbD 0 = false ∧
    (port (sweeping swept 1) 2).sweep.busy = true ∧ (port (sweeping swept 1) 2).sweep.swapped = false ∧
    (port (sweeping swept 1) 2).lanes.getLsbD (port (sweeping swept 1) 2).sweep.lane = true ∧ (port (sweeping swept 1) 2).bad.getLsbD 1 = false ∧
    (port (sweeping { swept with swapped := true } 1) 2).sweep.swapped = true ∧ (port (sweeping {} 1) 2).sweep.busy = false := by decide +kernel
theorem witness_out_of_service : (port (linked { upPort with state := .out } [] [] []) 2).state = .out ∧ upPort.state ≠ .out ∧ upPort.join.state = .non := by
  decide

/-! ### Joined devices, system time -/

def joined (st : CohState) (own peer : Option Nat) : State :=
  linked { upPort with join := { ({} : Join) with state := st, peerSlot := 1, ownVerdict := own, peerVerdict := peer } } [] [] []
theorem witness_joins : (∀ st ∈ [CohState.non, .joining, .coherent, .fenced], (port (joined st none none) 2).join.state = st ∧ (port (joined st none none) 2).state = .up ∧
      (port (joined st none none) 2).join.fresh = false) ∧
    (port (joined .joining (some 0) none) 2).join.ownVerdict = some 0 ∧ (port (joined .joining none (some 0)) 2).join.peerVerdict = some 0 := by decide +kernel
/-- Digests of one slot are refused with reason 1, digests that differ in nothing but the slot agree. -/
def digest (slot : Byte) : List Byte := [slot] ++ List.replicate 29 0 ++ [4] ++ List.replicate 33 0
theorem witness_digests : joinReason (joined .joining none none) (digest 0) (digest 0) = 1 ∧
    joinReason (joined .joining none none) (digest 0) (digest 1) = 0 := by decide +kernel
/-- The split: one line whose owner is the lost peer. -/
def splitting : State := { joined .fenced none none with
  mem := { ({} : MemSt) with slices := [(3, { ({} : Slice) with dir := [(0, some { line := theLine, owner := some (devOwner 1), sharers := 0, devs := 0, proxy := false })] })] } }
theorem witness_split : (port splitting 2).join.state = .fenced ∧ (slice splitting 3).dir.length = 1 ∧
    findDir splitting 3 theLine = some (0, { line := theLine, owner := some (devOwner 1), sharers := 0, devs := 0, proxy := false }) := by decide +kernel
theorem splitting_elsewhere (n : Nat) (h : n ≠ 3) : (slice splitting n).dir = [] := by
  show (smGet sliceDef [(3, _)] n).dir = []
  simp [smGet, sliceDef, Ne.symm h]
/-- Parents: none, and PORT 2. -/
def steered (servo : Servo) (overs : Nat) : State := { linked upPort [] [(0x4200200, 1)] [] with
  links := { ({} : Links) with ports := [(2, upPort)], servo := servo, overs := overs } }
theorem witness_time : parentOf (linked upPort [] [] []) ≠ some 2 ∧ parentOf (steered .locked 1) = some 2 ∧ (steered .locked 1).links.servo = .locked ∧
    (steered .locked 1).resil.contain = 0 ∧ (port (linked { upPort with disagree := 2 } [] [] []) 2).disagree = 2 := by decide +kernel

/-! ### Timers, system time -/

/-- Timer 63 with the count given; words of registers. -/
def timing (cnt : Word64) (flags : BitVec 6) (regs : SMap Word32) : State := { atK with
  time := { ({} : Time) with timers := [(63, { ({} : Timer) with cnt := cnt, flags := flags })] }
  ctl := { ({} : Ctl) with regs := regs } }
theorem reaches_timer (off : Nat) (h : (off ∈ [0x300044, 0x300020, 0x301FF0, 0x300054, 0x300010])) (c : Word64) (f : BitVec 6) (r : SMap Word32) :
    Reaches (.core 0) 1 0 off (timing c f r) := by
  simp only [List.mem_cons, List.not_mem_nil, or_false] at h
  obtain rfl | rfl | rfl | rfl | rfl := h <;> exact ⟨⟨(by decide : 1 ≤ writerLevel atK (.core 0)), rfl, rfl, rfl, rfl, rfl, (by decide : DevMode.run ≠ .off)⟩, rfl⟩
theorem reaches_time_set : Reaches (.core 0) 2 0 0x300008 atK ∧ Reaches (.core 0) 2 0 0x30000C atK :=
  ⟨⟨⟨by decide, by decide, by decide, by decide, by decide, by decide, by decide⟩, by decide⟩, ⟨⟨by decide, by decide, by decide, by decide, by decide, by decide, by decide⟩, by decide⟩⟩
/-- PERIOD 10 and COMPARE 5, running: below the period, at its end; at rest; a PERIOD of 0. -/
def ten : SMap Word32 := [(0x300044, 0x80000000), (0x301FC8, 10), (0x301FD0, 5)]
theorem witness_timers : tRun (timing 2 0 ten) 63 = true ∧ tMode (timing 2 0 ten) 63 ≠ 4 ∧ (timer (timing 2 0 ten) 63).cnt.toNat + 7 < tPeriod (timing 2 0 ten) 63 ∧
    tCmp (timing 2 0 ten) 63 = 5 ∧ (timer (timing 9 0 ten) 63).cnt.toNat + 1 = tPeriod (timing 9 0 ten) 63 ∧ tRun (timing 0 0 []) 63 = false ∧
    (timer (timing 8 0 ten) 63).cnt.toNat + 1 < tPeriod (timing 8 0 ten) 63 ∧ tRun (timing (BitVec.allOnes 64) 0 [(0x300044, 0x80000000)]) 63 = true ∧
    (timer (timing (BitVec.allOnes 64) 0 []) 63).cnt.toNat + 1 = tPeriod (timing (BitVec.allOnes 64) 0 []) 63 := by decide +kernel
/-- Time started and not, SYNC_IN, the device that follows it and one that does not, SYNC_OUT on. -/
def syncing (x : Time) (regs act : SMap Word32) : State := { atK with time := x, ctl := { ({} : Ctl) with regs := regs, active := act } }
theorem witness_system_time : atK.time.started = false ∧ (syncing { ({} : Time) with started := true } [] []).time.started = true ∧
    atK.time.syncIn ≠ true ∧ ppsRoot atK = false ∧ ppsRoot (syncing { ({} : Time) with syncLock := true } [] [(0x4080010, 3)]) = true ∧
    (reg (syncing {} [(0x300050, 0x201)] []) 0x300050).getLsbD 0 = true ∧ (reg atK 0x300050).getLsbD 0 = false ∧
    1000000000 ≤ nowNs (syncing { ({} : Time) with now := 1000000000 } [] []) := by decide +kernel
theorem witness_timer_inputs : atK.time.tins.getLsbD 15 = false ∧ tMode (timing 2 0 [(0x301FC0, 0x4F0000)]) 63 = 0 ∧
    fld (reg (timing 2 0 [(0x301FC0, 0x4F0000)]) (tReg 63 0)) 22 16 = 64 + 15 ∧ tCfgBit (timing 2 0 [(0x301FC0, 0x4F0000)]) 63 5 = false := by decide +kernel

/-! ### Interrupts -/

/-- Source 256, single to core 0, edge, priority 5; and, pending and not, a stack. -/
def interrupting (pend : Bool) (st : List IcEntry) : State := { atS with
  intc := { ({} : Intc) with pend := if pend then [(256, true)] else [], icStacks := [(0, st)] }
  ctl := { ({} : Ctl) with regs := [(srcCfgOff 256, 0x90050000), (0x430004, 0)] } }
theorem reaches_intc (off : Nat) (h : off ∈ [0x400010, 0x400014, 0x400100, 0x400104]) (p : Bool) (st : List IcEntry) :
    Reaches (.core 0) 1 0 off (interrupting p st) := by
  simp only [List.mem_cons, List.not_mem_nil, or_false] at h
  obtain rfl | rfl | rfl | rfl := h <;> exact ⟨⟨(by decide : 1 ≤ writerLevel atS (.core 0)), rfl, rfl, rfl, rfl, rfl, (by decide : DevMode.run ≠ .off)⟩, rfl⟩
theorem witness_claims : claimable (interrupting true []) 0 = some 256 ∧ claimable (interrupting false []) 0 = none ∧
    icStack (interrupting false [{ source := 8191, prio := 5 }]) 0 = [{ source := 8191, prio := 5 }] ∧ (icStack (interrupting false []) 0).length = 0 := by
  decide +kernel

/-! ### Devices below -/

/-- Requester 7 at sub-port 0, its slot covering 4 KiB of IOVA at 0x1000 onto 0x40000. -/
def devCtx (ats pri : Bool) : DevCtx :=
  { rid := 7, sub := 0, ats := ats, pri := pri, p2p := false, tc := 0, tag := 1, msiBase := 256, msiCount := 4, root := 0, priq := 0 }
def ioSlot (rd wr : Bool) : IoSlot := { iova := 0x1000, size := 4096, tag := 1, pa := 0x40000, rd := rd, wr := wr, a := true, d := true, leafs := [] }
def below (c : DevCtx) (x : IoSlot) (live : Bool) : State := { atK with
  power := { ({} : Power) with mode := .run }
  pcie := { ({} : Pcie) with running := 7, ctxs := [c], iotlb := [(0, [x])], subs := [(0, { ({} : SubPort) with linkUp := live, present := true })] }
  office := { ({} : Office) with running := true, queues := [(0, active [])] }
  ctl := { ({} : Ctl) with regs := [(0x8000018, 1)] } }
theorem witness_dma : (let s := below (devCtx true true) (ioSlot true true) true
    subLive s 0 = true ∧ ioslots s 0 = [ioSlot true true] ∧ (0x1000 ≤ 0x1FF8 ∧ 0x1FF8 < 0x1000 + 4096) ∧ 0x1FF8 / 4096 * 4096 ≠ msiPage s ∧
      regionOk s 0x40FF8 .dma = true ∧ ownerCode s 0x40FF8 = 0 ∧ 0x40FF8 < mmioBase ∧ dmaSizeOk 0x1FF8 (.read 8) = true ∧
      dmaSizeOk 0x1FF8 (.write [1, 2, 3, 4, 5, 6, 7, 8]) = true ∧ dmaSizeOk 0x1FF8 (.atomic 0 true 1 2) = true ∧ 0x40FF8 % dmaLen (.atomic 0 true 1 2) = 0 ∧
      (reg s 0x4800110).getLsbD 31 = false) ∧
    ioslots (below (devCtx false false) (ioSlot false false) true) 0 = [ioSlot false false] ∧
    subLive (below (devCtx true true) (ioSlot true true) false) 0 = false := by decide +kernel
theorem clear_dma : Clear (below (devCtx true true) (ioSlot true true) true) 0x40FF8 8 := by unfold Clear; decide +kernel
theorem witness_messages : (let s := below (devCtx true true) (ioSlot true true) true
    msiPage s % 4096 = 0 ∧ natOfBytes [3, 1, 0, 0] = 259 ∧ ¬natOfBytes [4, 1, 0, 0] < 256 + 4 ∧
      (∀ k, k < 4 → (subOf s k).prgOut.length = 0) ∧ (sendersOf s 131072).length = 0 ∧ s.power.mode ≠ .drain ∧ sopDown s 0 = false ∧
      (queueOf s 0).state = .active ∧ qKind (queueOf s 0) ≠ 1 ∧ (queueOf s 0).spill = false ∧ burstRoom s 0 (queueOf s 0) = true ∧
      (qw (queueOf s 0) 0).getLsbD 19 = false ∧ bellOn (queueOf s 0) = false) := by decide +kernel
/-- Group 5 of requester 7, outstanding at sub-port 0 and nowhere; the answers 0, 15 and a reserved one. -/
def paging : State := { atK with pcie := { ({} : Pcie) with running := 7, subs := [(0, { ({} : SubPort) with linkUp := true, prgOut := [(7, 5)] })] } }
theorem witness_page_answers : Reaches (.core 0) 1 0 0x4800130 paging ∧ fld (0xF0050007 : Word32) 27 25 = 0 ∧
    (fld (0xF0050007 : Word32) 15 0, fld (0xF0050007 : Word32) 24 16) = (7, 5) ∧ fld (0xF0050007 : Word32) 31 28 = 15 ∧ fld (0x20050007 : Word32) 31 28 = 2 ∧
    (7, 5) ∈ (subOf paging 0).prgOut ∧ subLive paging 0 = true ∧ (∀ j, j < 12 → (7, 5) ∉ (subOf atK j).prgOut) :=
  ⟨⟨⟨by decide, by decide, by decide, by decide, by decide, by decide, by decide⟩, by decide⟩, by decide, by decide, by decide, by decide, by decide, by decide +kernel, by decide⟩

/-! ### Root ports -/

/-- Ports at rest and running; 15 and 16 commands of lc0 that are not done. -/
def rootPorts (run : BitVec 3) (invs : List IoInv) : State := { atK with pcie := { ({} : Pcie) with running := run, ctxs := [devCtx true true], invs := invs } }
theorem reaches_pcie (off : Nat) (h : off ∈ [0x4800004, 0x4800128]) (r : BitVec 3) (i : List IoInv) : Reaches (.core 0) 1 0 off (rootPorts r i) := by
  simp only [List.mem_cons, List.not_mem_nil, or_false] at h
  obtain rfl | rfl := h <;> exact ⟨⟨(by decide : 1 ≤ writerLevel atK (.core 0)), rfl, rfl, rfl, rfl, rfl, (by decide : DevMode.run ≠ .off)⟩, rfl⟩
def openInvs (n : Nat) : List IoInv := List.replicate n { by_ := writerKey (.core 0), waiting := [7] }
theorem witness_root_ports : peRunning (rootPorts 0 []) 2 = false ∧ peRunning (rootPorts 4 []) 2 = true ∧ (∀ e ∈ (rootPorts 4 []).cores, e.2.mmioWait = false) ∧
    smWf ioslotsDef (rootPorts 0 []).pcie.iotlb = true ∧ ((rootPorts 0 (openInvs 15)).pcie.invs.filter fun x => x.by_ == writerKey (.core 0)).length < 16 ∧
    ¬((rootPorts 0 (openInvs 16)).pcie.invs.filter fun x => x.by_ == writerKey (.core 0)).length < 16 := by decide +kernel
theorem witness_invalidations : (rootPorts 0 (openInvs 1)).pcie.invs = [{ by_ := writerKey (.core 0), waiting := [7] }] ∧
    (rootPorts 0 [{ by_ := 0, waiting := [] }]).pcie.invs = [{ by_ := 0, waiting := [] }] := by decide +kernel
theorem witness_sub_ports : subExists (rootPorts 7 []) 0 = true ∧ subExists (rootPorts 7 []) 1 = false ∧ isLevel (rootPorts 7 []) 96 = false ∧
    lineHigh (rootPorts 7 []) 96 = false ∧ (reg (rootPorts 7 []) 0x4800110).getLsbD 31 = false := by decide +kernel
/-- lc0 waits for the completion of its one load from MMIO space, into g5. -/
def mmioAcc : Access := { pa := mmioBase + cfgBase + 0x100004, mt := 2, tc := 1 }
def waitingLoad : State := { device { coreWith (regsWith 0x22 someG) with
  mmioWait := true
  group := some { firstPc := 0x20000, members := 1, closed := true, sinceDeferred := none, nextId := 1, held := [.load 0 mmioAcc 8 false], snap := {} }
  shadows := [{ left := 2, dest := .gen 5, value := .deferred 0 }] } with
  pcie := { ({} : Pcie) with running := 7, cfg := [(0x19, 1), (0x1A, 1)], subs := [(0, { ({} : SubPort) with linkUp := true })] } }
theorem witness_waiting_load : (coreOf waitingLoad 0).mmioWait = true ∧ (coreOf waitingLoad 0).group.isSome = true ∧
    (coreOf waitingLoad 0).shadows = [{ left := 2, dest := .gen 5, value := .deferred 0 }] ∧ (csr (coreOf waitingLoad 0).regs 0x522).getLsbD 0 = true ∧
    (coreOf waitingLoad 0).skipOnce = false ∧ (coreOf waitingLoad 0).eretSkip = 0 ∧ (coreOf waitingLoad 0).stepReq = false ∧
    lostLoad waitingLoad 0 = false ∧ vendorRead mmioAcc.pa = false ∧ (coreOf atS 0).mmioWait = false := by decide +kernel

/-! ### The keeper's services -/

/-- lc0 inside a gateway call: g1 and on as given; the ownership table lies in pages the keeper owns, 0x10000000 on. -/
def calls (g : List Word64) (regs : SMap Word32) (bytes : SMap Byte) (cel : Cellar) (o : Office) : State :=
  { device { coreWith (regsWith 0x42 ((List.range g.length).map fun i => (i + 1, g.getD i 0))) with gate := { ({} : GateCall) with isOpen := true, level := 1 } } with
    ctl := { ({} : Ctl) with regs := regs }, cellar := cel, office := o
    mem := { ({} : MemSt) with bytes := bytes } }
def keeper (g : List Word64) : State := calls g [(0x8000018, 1)] [] {} {}
theorem witness_calls : (∀ fn ∈ [0x000, 0x001, 0x002, 0x003, 0x300, 0x301, 0x302, 0x401, 0x402, 0x403, 0x500, 0x501, 0x502, 0x503, 0x504],
    levelOf (coreOf (keeper [BitVec.ofNat 64 fn]) 0).regs = 2 ∧ (coreOf (keeper [BitVec.ofNat 64 fn]) 0).gate.isOpen = true ∧
      (coreOf (keeper [BitVec.ofNat 64 fn]) 0).gate.level ≠ 0 ∧ (coreOf (keeper [BitVec.ofNat 64 fn]) 0).standing = .issuing ∧
      (readG (coreOf (keeper [BitVec.ofNat 64 fn]) 0).regs 1).toNat = fn) := by decide +kernel
/-- A quote: nonce at 0x40000, its place at 0x50000, key 0, key 1, no key. -/
theorem witness_quote : (∀ k ∈ [0, 1, 2], argOf 0 (keeper [1, 0x40000, 0x50000, BitVec.ofNat 64 k]) 4 = k) ∧
    pagesCoded (keeper [1, 0x40000, 0x50000, 0]) 0x40000 48 0 = true ∧ pagesCoded (keeper [1, 0x40000, 0x50000, 0]) 0x50000 (1024 + 4627) 0 = true := by
  decide +kernel
theorem clear_nonce : Clear (keeper [1, 0x40000, 0x50000, 0]) 0x40000 48 := by unfold Clear; decide +kernel
/-- Measurement registers 7, 8, 15 and 16; a certificate that fits and one that does not. -/
theorem witness_measurement : (∀ k ∈ [7, 8, 15, 16], argOf 0 (keeper [2, BitVec.ofNat 64 k, 0x40000]) 2 = k) ∧ pagesCoded (keeper [2, 8, 0x40000]) 0x40000 48 0 = true ∧
    (calls [3, 0x40000, 3] [] [] { ({} : Cellar) with cert := [1, 2, 3, 4] } {}).cellar.cert.length = 4 ∧ ({} : Cellar).cert.length ≤ 0 := by decide +kernel
/-- Grants 1,023 and 1,024; the last of the slots; one past them. Regions 4,095 and 4,096; a region of one page. -/
theorem witness_grants : (∀ k ∈ [1023, 1024], argOf 0 (keeper [0x300, BitVec.ofNat 64 k, 1, 65535, 0, 262143, 1]) 2 = k) ∧
    argOf 0 (keeper [0x300, 0, 1, 65535, 0, 262143, 1]) 6 + argOf 0 (keeper [0x300, 0, 1, 65535, 0, 262143, 1]) 7 = 262144 ∧
    262144 < argOf 0 (keeper [0x300, 0, 1, 65535, 0, 262143, 2]) 6 + argOf 0 (keeper [0x300, 0, 1, 65535, 0, 262143, 2]) 7 := by decide +kernel
theorem witness_regions : (∀ k ∈ [4095, 4096], argOf 0 (keeper [0x301, BitVec.ofNat 64 k, 1, 0x40000, 1, 15, 0]) 2 = k) ∧
    (pagesOf 0x40000 (4096 * 1)).all (apertureOk (keeper [0x301, 0, 1, 0x40000, 1, 15, 0])) = true ∧
    natBits (argOf 0 (keeper [0x301, 0, 1, 0x40000, 1, 15, 0]) 6) 15 4 = 0 := by decide +kernel
/-- One page, even and odd, reserved and released; the table stands at 0x20000, the keeper's pages from there to 0x2FFFF. -/
def table : SMap Word32 := [(0x8000010, 0x20000), (0x8000018, 1), (0x8000020, 0x20000), (0x8000028, 0x2FFFF)]
def ring (fn pa : Word64) (bytes : SMap Byte) (o : Office) : State := calls [fn, pa, 1] table bytes {} o
theorem witness_rings : (∀ pa ∈ [0x40000, 0x41000], (let s := ring 0x401 (BitVec.ofNat 64 pa) [] {}
      pagesCoded s pa 4096 0 = true ∧ potInside s = true ∧ ownerCode s (0x20000 + pa / 8192) = 1 ∧ pa / 2 ^ 44 = slotOf s)) ∧
    pagesCoded (ring 0x402 0x40000 [(0x20020, 3)] {}) 0x40000 4096 3 = true ∧ ringsUse (ring 0x402 0x40000 [(0x20020, 3)] {}) 0x40000 0x41000 = false ∧
    ringsUse (ring 0x402 0x40000 [(0x20020, 3)] { ({} : Office) with queues := [(0, { ({} : Queue) with state := .active, words := [0, 0, 0, 0, 0x40006] })] })
      0x40000 0x41000 = true ∧
    pagesCoded (ring 0x401 0x40000 [] {}) 0x40000 4096 3 = false := by decide +kernel
theorem clear_table (n : Nat) (h : n = 0x20020) : Clear (ring 0x401 0x40000 [] {}) n 1 := by subst h; unfold Clear; decide +kernel
theorem witness_dead_letter_share : (keeper [0x403]).office.running = false ∧ (calls [0x403] [] [] {} { ({} : Office) with running := true }).office.running = true := by
  decide
/-- A synchronisation of 1 and of 2^20 pages, of none, of too many; one already under way. -/
def syncs (cel : Cellar) : State := { atK with cellar := cel, ctl := { ({} : Ctl) with regs := table } }
theorem witness_table_sync : Reaches (.core 0) 2 0 0x8000048 (syncs {}) ∧ Reaches (.core 0) 2 0 0x8000430 (syncs {}) ∧ potInside (syncs {}) = true ∧
    (syncs {}).cellar.sync.isNone = true ∧ (syncs { ({} : Cellar) with sync := some { base := 0, pages := 1 } }).cellar.sync.isSome = true ∧
    ((0x100000 : Word32).toNat % 2 ^ 21 = 2 ^ 20 ∧ 2 ^ 20 < (0x100001 : Word32).toNat % 2 ^ 21 ∧ (0 : Word32).toNat % 2 ^ 21 = 0) :=
  ⟨⟨⟨by decide, by decide, by decide, by decide, by decide, by decide, by decide⟩, by decide⟩, ⟨⟨by decide, by decide, by decide, by decide, by decide, by decide, by decide⟩, by decide⟩,
    by decide +kernel, by decide, by decide, by decide⟩

/-! ### Faults -/

/-- Four cores are bound; relocations, core states, requests at homes as given. -/
def resilient (r : List Relocation) (c : Core) : State := { atK with
  cores := [(0, c)]
  resil := { ({} : Resil) with bound := 4, relocs := r } }
def issuing : Core := coreWith (regsWith 0x22 someG)
theorem witness_relocation : chooseSpare (resilient [] issuing) 0 none = some 4 ∧ bound (resilient [] issuing) 0 = true ∧ moving (resilient [] issuing) 0 = false ∧
    (coreOf (resilient [] issuing) 0).standing ≠ .fenced ∧ lcOfPc (resilient [] issuing) 0 = some 0 ∧ lcOfPc (resilient [] issuing) 64 = none ∧
    (0x01000000 : Word32).toNat / 2 ^ 24 ≤ 1 ∧ (0x01000000 : Word32).toNat % 2 ^ 24 = 0 ∧ 2 ≤ (0x02000000 : Word32).toNat / 2 ^ 24 := by decide +kernel
/-- No core is left over: none but the four passed the self-test. -/
def badCore : PhysCore := { ({} : PhysCore) with good := false }
def badFrom (a n : Nat) : SMap PhysCore := (List.range' a n).map fun i => (i, badCore)
theorem badFrom_get (n : Nat) : ∀ a k, a ≤ k → k < a + n → smGet physDef (badFrom a n) k = badCore := by
  induction n with
  | zero => intro a k h g; omega
  | succ n ih =>
    intro a k h g
    rw [badFrom, List.range'_succ, List.map_cons, smGet]
    split
    · rfl
    · exact ih (a + 1) k (by omega) (by omega)
def noSpare : State := { atK with resil := { ({} : Resil) with bound := 4, cores := badFrom 4 572 } }
theorem witness_no_spare : chooseSpare noSpare 0 none = none := by
  have small : ∀ pc, pc < 4 → (pcsInUse noSpare).contains pc = true := by decide +kernel
  have place : pcOf noSpare 0 / 72 = 0 := by decide
  rw [chooseSpare, place]
  refine List.find?_eq_none.mpr fun pc h => ?_
  have lt : pc < 576 := by
    simp only [List.mem_append, List.mem_map, List.mem_range, List.mem_filter] at h
    omega
  by_cases low : pc < 4
  · simp only [small pc low, Bool.not_true, Bool.and_false, Bool.false_and]
    decide
  · have bad : phys noSpare pc = badCore := badFrom_get 572 4 pc (by omega) (by omega)
    simp [bad, badCore]
def relocating (start pause : Option Nat) : Relocation := { lc := 0, fromPc := 0, toPc := 64, trigger := 3, start := start, pause := pause }
theorem witness_relocation_steps : relocOf (resilient [relocating none none] issuing) 0 = some (relocating none none) ∧
    (coreOf (resilient [relocating none none] issuing) 0).group.isNone = true ∧
    relocOf (resilient [relocating (some 5) none] issuing) 0 = some (relocating (some 5) none) ∧ (resilient [] issuing).live.roll.isNone = true ∧
    (resilient [relocating (some 5) (some 7)] issuing).resil.relocs.find? (fun r => r.fromPc == 0 && r.pause.isSome) = some (relocating (some 5) (some 7)) := by
  decide +kernel
/-- Leases of a fenced core: a queue's, an eviction's. -/
def leased : State := { resilient [] { issuing with standing := .fenced } with
  office := { ({} : Office) with queues := [(0, { active [] with lease := some 0 })] }
  mem := { ({} : MemSt) with priv := [(0, { ({} : PrivCaches) with transit := [{ line := theLine, st := .m }] })] } }
theorem witness_leases : (queueOf leased 0).lease = some 0 ∧ (coreOf leased 0).standing = .fenced ∧ (queueOf leased 1).lease ≠ some 0 ∧
    (transitOf leased (pcOf leased 0) theLine).isSome = true := by decide +kernel
/-- A snoop that is answered for a core. -/
def proxied : State := home [(l3Set theLine * 18, some (dirEntry (some 1) 2))] [(1, holds .m)]
  [{ kind := .ru, req := .l2 0, line := theLine, body := {}, served := true, pending := [(1, .unique)] }] [] []
theorem witness_proxied : (proxied.mem.homeQ.find? (fun q => q.line == theLine && q.served && q.pending.any fun x => x.1 == 1)).isSome = true ∧
    ([((1 : Nat), SnoopKind.unique)].find? fun x => x.1 == 1) = some (1, .unique) := by decide +kernel
/-- Pairs: up, down, in self-test; units: named for the first and for the second time. -/
theorem witness_pairs_census : pairUp atK 3 = true ∧ pairUp (syncs { ({} : Cellar) with pairsUp := 7 }) 3 = false ∧
    ({ atK with resil := { atK.resil with testing := [3] } }).resil.testing.contains 3 = true ∧ atK.resil.testing.contains 3 = false ∧
    (uHome 255 ∈ ({ atK with resil := { atK.resil with suspects := [uHome 255] } }).resil.suspects ∧ uHome 255 ∉ atK.resil.suspects) ∧
    isFenced atK (uHome 255) = false := by decide +kernel

/-! ### Live change -/

def updating (g : List Word64) (l : Live) (r : Resil) : State := { keeper g with live := l, resil := r }
def anImage : Image := { version := 0x01000002, digest := List.replicate 48 1 }
def held (store : Nat) : Live := { ({} : Live) with images := [(store, some anImage)] }
def roll (store : Nat) (done : List Nat) (aborting : Bool) : Roll := { store := store, version := 0x01000002, oldVersion := 0, gap := 1, done := done, aborting := aborting }
def rolling (store : Nat) (done : List Nat) (aborting : Bool) : Live := { held store with roll := some (roll store done aborting) }
/-- An image submitted for stores 0, 5 and 8: genuine or not, while no roll and while one of the same store goes on. -/
theorem witness_submit : pagesCoded (keeper [0x500, 0x40000, 64]) 0x40000 64 0 = true ∧ fld (0 : Word32) 31 24 = fld (smGet ver0 ({} : Live).romVersions 5) 31 24 ∧
    (keeper []).cellar.minSecurity ≤ 0 ∧ argOf 0 (keeper [0x500, 0x40000, 0]) 3 = 0 ∧ (updating [0x500, 0x40000, 64] (rolling 5 [] false) {}).live.roll =
      some (roll 5 [] false) := by decide +kernel
theorem clear_image : Clear (keeper [0x500, 0x40000, 64]) 0x40000 64 := by unfold Clear; decide +kernel
/-- Rolls: of store 0 with spares, of store 5, with gaps 1, 60,000 and 60,001. -/
def someCores : Resil := { ({} : Resil) with bound := 1 }
theorem witness_roll : imageOf (updating [0x501, 5, 1] (held 5) someCores) 5 = some anImage ∧ imageOf (updating [0x501, 0, 1] (held 0) someCores) 0 = some anImage ∧
    (∀ g ∈ [0, 1, 60000, 60001], argOf 0 (updating [0x501, 5, BitVec.ofNat 64 g] (held 5) someCores) 3 = g) ∧
    (updating [0x501, 5, 1] (held 5) someCores).live.roll.isNone = true ∧ (updating [0x501, 5, 1] (held 5) someCores).ctl.inFlight = false ∧
    imageOf (keeper []) 5 = none := by decide +kernel
theorem witness_spares_left : 575 ∈ sparesLeft (updating [0x501, 0, 1] (held 0) someCores) :=
  List.mem_filter.mpr ⟨List.mem_range.mpr (by decide), by decide +kernel⟩
theorem witness_abort_handover : (updating [] (rolling 1 [0] false) {}).live.roll = some (roll 1 [0] false) ∧
    imageOf (updating [] (held 8) {}) 8 = some anImage ∧ 3 ≤ countOnes (updating [] (held 8) {}).cellar.pairsUp 4 ∧
    countOnes (syncs { ({} : Cellar) with pairsUp := 3 }).cellar.pairsUp 4 < 3 ∧ copyAbsent (updating [] (held 8) {}) 1 = false ∧
    (islandKinds[7]? = some (1, 615)) ∧ (agingOf (keeper []) 615).vage < 2 ^ 16 := by decide +kernel
theorem witness_roll_steps : rollVersion (updating [] (rolling 0 [] false) someCores) = some 0x01000002 ∧
    nextToRoll (updating [] (rolling 0 [] false) someCores) 0x01000002 0 = some 0 ∧
    (∀ t, t < 8 → t ≠ 0 → nextToRoll (updating [] (rolling 0 [] false) someCores) 0x01000002 t = none) ∧
    rollVersion (keeper []) = none := by decide +kernel
def patched : Resil := { ({} : Resil) with bound := 1, cores := [(1, { ({} : PhysCore) with version := 0x01000002 })] }
theorem witness_roll_spare : chooseSpare (updating [] (rolling 0 [] false) patched) 0 (some 0x01000002) = some 1 := by decide +kernel
theorem witness_instances : maySwitch (updating [] (rolling 1 (List.range 7) false) {}) 1 7 = true ∧ (7 + 1 = rollInstances 1) ∧
    (roll 1 (List.range 7) false).done.length = 7 ∧ (roll 3 [] false).done.length + 1 = rollInstances 3 ∧
    (port { atK with links := { ({} : Links) with ports := [(2, { ({} : Port) with retryBuf := [{ fseq := 0, msgs := [] }] })] } } 2).retryBuf ≠ [] ∧
    (roll 1 [7] true).done = 7 :: [] := by decide +kernel
theorem witness_flash : (({ held 1 with flashDue := [(1, 5, 0)] } : Live).flashDue.find? fun e => e.1 == 1) = some (1, 5, 0) ∧
    5 + 86400000000000 ≤ nowNs { atK with time := { ({} : Time) with now := 86400000000005 } } ∧ nowNs atK < 5 + 86400000000000 := by decide +kernel
/-- Islands of cores and others, with VAGE below, at and above the alarm. -/
def aged (i : Nat) (x : Aging) : State := { atK with live := { ({} : Live) with aging := [(i, x)] } }
theorem witness_aging : (∀ v ∈ [189, 190, 200, 240], (agingOf (aged 64 { ({} : Aging) with vage := v }) 64).vage = v) ∧ lcOfPc (aged 64 {}) 64 = none ∧
    (agingOf (aged 615 { ({} : Aging) with vage := 240, lowered := 1 }) 615).lowered ≠ 0 ∧
    (agingOf (aged 64 { ({} : Aging) with vage := 100, stepped := some 0 }) 64).stepped = some 0 := by decide +kernel

/-! ### Power, clocks, temperature, boot -/

def powered (p : Power) (regs : SMap Word32) : State := { atK with
  power := p
  resil := { ({} : Resil) with bound := 1 }
  ctl := { ({} : Ctl) with regs := regs } }
theorem reaches_power (lv off : Nat) (h : (lv, off) ∈ [(1, 0x100004), (2, 0x100024), (1, 0x10001C), (2, 0x100034)]) (p : Power) (r : SMap Word32) :
    p.mode ≠ .off → Reaches (.core 0) lv 0 off (powered p r) := by
  intro on
  simp only [List.mem_cons, List.not_mem_nil, or_false, Prod.mk.injEq] at h
  rcases h with h | h | h | h <;> obtain ⟨rfl, rfl⟩ := h <;>
    first
      | exact ⟨⟨(by decide : 1 ≤ writerLevel atK (.core 0)), rfl, rfl, rfl, rfl, rfl, on⟩, rfl⟩
      | exact ⟨⟨(by decide : 2 ≤ writerLevel atK (.core 0)), rfl, rfl, rfl, rfl, rfl, on⟩, rfl⟩
/-- Each mode that a transition starts from, a transition under way, a request that waits. -/
def inMode (m : DevMode) (ps : Nat) (cur : Option Transition) : State := powered { ({} : Power) with mode := m, pstate := ps, cur := cur } []
theorem witness_modes : (∀ m ∈ [DevMode.off, .rind, .sequence, .calibrate, .run, .doze, .deepDoze, .scan, .drain], (inMode m 0 none).power.mode = m) ∧
    (inMode .run 0 none).power.cur.isNone = true ∧ (inMode .doze 1 (some .deepEntry)).power.cur = some .deepEntry ∧
    (powered { ({} : Power) with mode := .run, cur := some .dozeExit, pend := some { what := .drain, commanded := true } } []).power.pend =
      some { what := .drain, commanded := true } := by decide
/-- Core 0 waits: its island may be gated and retained, the device may doze, and doze deeply. -/
def asleep (w : Option Wait) (ps : Nat) (deep : Bool) (path : Nat) : State :=
  { powered { ({} : Power) with mode := .run, pstate := ps, deepNext := deep } [(0x100014, 0x10001)] with
    cores := [(0, { coreWith (regsWith 0x22 someG) with wait := w })], dbg := { ({} : Dbg) with path := path, level := path } }
def waits : Option Wait := some { kind := .wfe, rd := 5 }
theorem witness_doze : mayDoze (asleep waits 0 false 0) = true ∧ mayDoze (asleep none 0 false 0) = false ∧ dbgAttached (asleep waits 0 false 0) = false ∧
    dbgAttached (asleep waits 0 false 1) = true ∧ mayDeep (asleep waits 1 true 0) = true ∧ mayDeep (asleep waits 1 false 0) = true ∧
    mayDeep (asleep waits 0 true 0) = false ∧ smGet islandDef (asleep waits 0 false 0).power.islands 0 ≠ .offState ∧
    fld (reg (asleep waits 0 false 0) 0x100014) 15 0 ≠ 0 ∧ fld (reg (asleep waits 0 false 0) 0x100014) 31 16 ≠ 0 := by decide +kernel
/-- Wake sources 0 and 8, which are always on, during an entry, in DEEP_DOZE, in DOZE. -/
theorem witness_wakes : wakeOn atK 0 = true ∧ wakeOn atK 8 = true ∧ wakeOn (powered {} [(0x100018, 0)]) 3 = false ∧
    (powered { ({} : Power) with entering := true } []).power.exiting = false ∧ (inMode .deepDoze 2 none).power.entering = false := by decide +kernel
theorem witness_power_limits : (300 ≤ (300 : Word32).toNat ∧ (1450 : Word32).toNat ≤ 1450 ∧ (1450 : Word32).toNat < 2048) ∧
    ((299 : Word32).toNat < 300 ∧ 1450 < (1451 : Word32).toNat) := by decide
/-- Measured above the limit, 5 % below it, between; with a core that has no reservation, with one that has. -/
def limited (res : Word32) : State := { powered {} [(0x100030, 1000)] with ctl := { ({} : Ctl) with regs := [(0x100030, 1000)], active := [(0x900000, res)] } }
theorem witness_limit_compare : fld (reg (limited 0) 0x100030) 10 0 = 1000 ∧ (0 < (limited 0).resil.bound ∧ resValid (limited 0) 0 = false ∧ 6 < freqAct (limited 0) 0) ∧
    (resValid (limited 0x80000001) 0 = true ∧ 14 < freqAct (limited 0x80000001) 0) ∧ (20 * 949 < 19 * 1000 ∧ 19 * 1000 ≤ 20 * 950) := by decide +kernel
/-- Temperatures of island 0: warm, above 92, cool; hot before. -/
def heated (temp : Nat) (hot own board : Bool) (tu : Nat) : State := powered { ({} : Power) with
  mode := .run, temps := [(0, temp)], hot := [(0, hot)], prochotOwn := own, prochotBoard := board, tu := [(0, tu)], tr := [(0, 20)] } []
theorem witness_temperatures : smGet boolDef (heated 90 true false false 26).power.hot 0 = true ∧ (heated 90 false true false 26).power.prochotOwn = true ∧
    (92 ∈ ((heated 92 false false false 7).power.temps.filter fun e => heatsTile 0 e.1).map (·.2) ∧ smGet full26 (heated 92 false false false 7).power.tu 0 = 7) ∧
    (∀ x ∈ ((heated 88 false false false 7).power.temps.filter fun e => heatsTile 0 e.1).map (·.2), x < 89) ∧
    (∀ k, k < 8 → (memCtl (heated 88 false false false 7) k).temp < 89) ∧ (powered { ({} : Power) with perst := true } []).pcie.running = 0 := by decide +kernel
theorem witness_clocks : atK.power.refPresent = 3 ∧ atK.power.activeRef < 2 ∧ (powered { ({} : Power) with refPresent := 1 } []).power.refPresent.getLsbD 1 = false ∧
    atK.time.src ≠ 2 ∧ ({ powered { ({} : Power) with refPresent := 0 } [] with time := { ({} : Time) with src := 2 } }).time.src = 2 := by decide
theorem witness_boot_steps : (powered { ({} : Power) with pwrgd := false, mode := .rind } []).power.pwrgd = false ∧
    (powered { ({} : Power) with mode := .sequence } []).power.strapTest = false ∧ (powered { ({} : Power) with mode := .sequence, strapTest := true } []).power.strapTest = true := by
  decide
/-- The smallest loader: 8 KiB at 0x100000, entered at 0x1000. -/
def loaderBytes : List Byte := bytesOfNat 0x4C4F4144 4 ++ bytesOfNat 8192 4 ++ bytesOfNat 0x100000 8 ++ bytesOfNat 0x1000 4 ++ List.replicate 8172 0
def bootCfg : BootConfig := { ({} : BootConfig) with cellBase := 0x10000000, cellLimit := 0x1FFFFFFF, loader := loaderBytes }
theorem witness_loader : (loaderOf State.reset bootCfg bootCfg.loader).isSome = true ∧ State.reset.power.mode = .calibrate ∧ bootCfg.keeperOk = true ∧
    ({ bootCfg with keeperOk := false }).keeperOk = false := by decide +kernel
theorem witness_core_map : (coreMap bootCfg.badCores).length = 512 := by decide +kernel

/-! ### Pads, UARTs, mailbox, TAP -/

def padded (p : Pads) (regs : SMap Word32) : State := { atK with pads := p, ctl := { ({} : Ctl) with regs := regs } }
theorem witness_pads : padReleasing (padded { ({} : Pads) with releasing := [(31, true)] } []) 31 = true ∧ padReleasing (padded {} []) 31 = false ∧
    fselLegal 31 2 = true ∧ fselLegal 31 3 = false ∧ fselLegal 12 1 = true ∧ fselLegal 12 0 = false ∧
    tinOf 28 (padFsel (padded { ({} : Pads) with fsel := [(28, 3)] } []) 28) = some 15 ∧ tinOf 31 (padFsel (padded {} []) 31) = none := by decide +kernel
theorem reaches_pads (off : Nat) (h : off ∈ [0x20017C, 0x200304, 0x200308, 0x200310, 0x200008, 0x200024]) (p : Pads) (r : SMap Word32) :
    Reaches (.core 0) 1 0 off (padded p r) := by
  simp only [List.mem_cons, List.not_mem_nil, or_false] at h
  obtain rfl | rfl | rfl | rfl | rfl | rfl := h <;> exact ⟨⟨(by decide : 1 ≤ writerLevel atK (.core 0)), rfl, rfl, rfl, rfl, rfl, (by decide : DevMode.run ≠ .off)⟩, rfl⟩
/-- UART 0 on, its pad given to it; its FIFOs empty, and full. -/
def serial (x : Uart) : State := padded { ({} : Pads) with uarts := [(0, x)], fsel := [(25, 1)] } [(0x200300, 0x80000000)]
theorem witness_uarts : uartOn (serial {}) 0 = true ∧ uartPad (serial {}) 0 1 = true ∧ uartOn (padded {} []) 0 = false ∧
    64 ≤ (uart (serial { ({} : Uart) with rx := List.replicate 64 0, tx := List.replicate 64 0 }) 0).rx.length ∧
    64 ≤ (uart (serial { ({} : Uart) with rx := List.replicate 64 0, tx := List.replicate 64 0 }) 0).tx.length ∧
    (uart (serial { ({} : Uart) with rx := [7] }) 0).rx = [7] := by decide +kernel
/-- The TAP: in SEQUENCE under test, in SCAN, with each instruction register that matters. -/
def scanning (m : DevMode) (ir : BitVec 8) (safe : Bool) : State := { padded { ({} : Pads) with ir := ir, safeEn := safe } [] with
  power := { ({} : Power) with mode := m, strapTest := true } }
theorem witness_tap : padCode 0 = true ∧ padCode 7 = true ∧ padCode 8 = false ∧ (scanning .sequence 0 false).power.strapTest = true ∧
    (scanning .scan 4 true).pads.released = false ∧ (scanning .scan 2 false).pads.ir = 2 ∧ (scanning .scan 0x10 false).pads.ir = 0x10 ∧
    ((0x1000001 : Word64).getLsbD 0 = true ∧ fld (0x1000001 : Word64) 31 24 ≠ 0) ∧ (fld (0x3 : Word64) 31 24 = 0 ∧ (0x3 : Word64).getLsbD 1 = true) := by
  decide +kernel
/-- A sound request of the largest code and one past it, a PEC that is wrong; each request held. -/
theorem witness_mailbox_requests : (0xC1 : Byte) ≠ crc8 [12, 5, 0] ∧ (crc8 ([13, 5, 0] ++ []) = crc8 [13, 5, 0]) ∧ (padded {} []).pads.request.isNone = true ∧
    ({ padded {} [] with power := { ({} : Power) with mode := .off } }).power.mode = .off := by decide +kernel
def asked (cmd : Nat) (p : List Byte) : State := padded { ({} : Pads) with request := some (cmd, 5, p) } []
theorem witness_mailbox_held : (∀ c ∈ [1, 2, 3, 4, 5, 6, 7, 8, 9, 10, 11, 12], (asked c []).pads.request = some (c, 5, [])) ∧
    (natOfBytes [0xFF, 0x0F, 0, 0] < 4096 ∧ 4096 ≤ natOfBytes [0, 0x10, 0, 0]) ∧ (300 ≤ natOfBytes [0x2C, 1] ∧ natOfBytes [0x2B, 1] < 300) ∧
    natOfBytes [0, 0, 0, 1] = 0x1000000 ∧ natOfBytes [0xFC, 0xFF, 0xFF, 0] < 0x1000000 := by decide +kernel
theorem reaches_limit : Reaches (.path 2) 1 0 0x100030 (asked 9 [0x2C, 1]) := ⟨⟨by decide, by decide, by decide, by decide, by decide, by decide, by decide⟩, by decide⟩
theorem witness_mailbox_posts : fld (0x00000038 : Word32) 5 0 = 56 ∧ 56 < fld (0x39 : Word32) 5 0 ∧
    (padded { ({} : Pads) with outFull := true } []).pads.outFull = true ∧ (padded {} []).pads.inFull = false := by decide

/-! ### Debug and trace -/

/-- The mailbox's path holds the attachment at the level given; lc0 halted or issuing at S. -/
def debugging (path lvl : Nat) (st : Standing) (regs : SMap Word32) : State := { atS with
  cores := [(0, { coreWith (regsWith 0x22 someG) with standing := st })]
  dbg := { ({} : Dbg) with path := path, level := lvl }
  ctl := { ({} : Ctl) with regs := regs } }
theorem reaches_debug (need off : Nat) (h : (need, off) ∈ [(0, 0x5000004), (0, 0x5000010), (0, 0x5000060), (2, 0x5000104), (2, 0x5002100), (1, 0x5002204),
    (1, 0x5002308), (0, 0x50103FC)]) (st : Standing) (r : SMap Word32) : Reaches (.path 2) 1 need off (debugging 2 2 st r) := by
  simp only [List.mem_cons, List.not_mem_nil, or_false, Prod.mk.injEq] at h
  rcases h with h | h | h | h | h | h | h | h <;> obtain ⟨rfl, rfl⟩ := h <;>
    exact ⟨⟨by with_unfolding_all rfl, rfl, rfl, rfl, rfl, rfl, (by decide : DevMode.run ≠ .off)⟩, rfl⟩
theorem witness_attachment : pathOf (.path 2) ≠ 0 ∧ (debugging 0 0 .issuing []).dbg.path = 0 ∧ (debugging 2 2 .issuing []).dbg.path = pathOf (.path 2) ∧
    (debugging 1 2 .issuing []).dbg.path ≠ pathOf (.path 2) ∧
    ((debugging 2 2 .issuing [(0x5000008, 0)]).dbg.lastAccess.toNat + fld (reg (debugging 2 2 .issuing [(0x5000008, 0)]) 0x5000008) 15 0 * 1000000000 ≤
      nowNs (debugging 2 2 .issuing [(0x5000008, 0)])) ∧ (debugging 2 2 .issuing []).dbg.grantEnd.toNat ≤ nowNs (debugging 2 2 .issuing []) := by decide +kernel
theorem witness_authorisation : (fld (0x00010001 : Word32) 15 2 = 0 ∧ fld (0x00010001 : Word32) 1 0 = 1 ∧ fld (0x00010001 : Word32) 31 16 ≠ 0) ∧
    (fld (0x00010003 : Word32) 1 0 = 3 ∧ fld (0x00000001 : Word32) 31 16 = 0 ∧ fld (0x00010005 : Word32) 15 2 ≠ 0) ∧
    ({ debugging 2 0 .issuing [] with dbg := { ({} : Dbg) with path := 2, reqPath := 2, wanted := some (2, 1) } }).dbg.wanted = some (2, 1) ∧
    (fld (0x10000001 : Word32) 31 28 < 2 ∧ fld (0x10000001 : Word32) 27 1 = 0) := by decide
/-- lc0 halted, and asked to halt at a boundary. -/
def haltAsked : State := { atS with cores := [(0, { coreWith (regsWith 0x22 someG) with haltReq := true })] }
theorem witness_halts : (coreOf (debugging 2 2 .halted []) 0).standing = .halted ∧ (reg (debugging 2 2 .halted []) 0x500240C).getLsbD 1 = false ∧
    ((coreOf haltAsked 0).haltReq = true ∧ (coreOf haltAsked 0).group.isNone = true ∧ (coreOf haltAsked 0).shadows.length = 0 ∧
      levelOf (coreOf haltAsked 0).regs ≠ 2 ∧ 0 < haltAsked.resil.bound) := by decide +kernel
/-- The window on g31, FLAGS, the pc, a lane of v31, k7; registers that are not there; no such core. -/
theorem witness_window : (∀ x ∈ [(0, 31), (1, 0), (1, 1), (2, 255), (3, 7), (0, 32), (1, 2), (2, 256), (3, 8), (5, 0)],
      (let s := debugging 2 2 .halted [(0x5002200, BitVec.ofNat 32 (x.1 * 2 ^ 28 + x.2))]
       fld (reg s 0x5002200) 31 28 = x.1 ∧ fld (reg s 0x5002200) 11 0 = x.2 ∧ fld (reg s 0x5002200) 24 16 = 0 ∧ dbgAllows s (.path 2) 2 = true)) ∧
    (debugging 2 1 .halted []).resil.bound ≤ 512 ∧ dbgAllows (debugging 2 1 .halted []) (.path 2) 2 = false := by decide +kernel
/-- Memory by stealing: at 0x40000, misaligned, in no memory; pages of code 0 and of code 1. -/
def looks (pa : Word32) (hi own : Word32) : State := debugging 2 2 .issuing [(0x5002300, pa), (0x5002304, hi), (0x8000018, own)]
theorem witness_stealing : reg64 (looks 0x40000 0 1) 0x5002300 = 0x40000 ∧ backed (looks 0x40000 0 1) 0x40000 = true ∧ ownerCode (looks 0x40000 0 1) 0x40000 = 0 ∧
    ownerCode (looks 0x40000 0 0) 0x40000 = 1 ∧ reg64 (looks 0x40001 0 1) 0x5002300 % 4 ≠ 0 ∧
    (placeOf 0x40000).map (fun q => q.region) = some .hbm ∧ (reg64 (looks 0 0xC0000 1) 0x5002300 % 64 = 0 ∧
      (placeOf (reg64 (looks 0 0xC0000 1) 0x5002300)).map (fun q => q.region) = some .mmio) := by decide +kernel
theorem clear_stealing : Clear (looks 0x40000 0 1) 0x40000 64 := by unfold Clear; decide +kernel
/-- The ring of 2 packets at 0x40000: on with room, full, off; stimulus port 255 enabled. -/
def traces (on : Word32) (head : Nat) : State := { debugging 2 2 .issuing [(0x5002400, 0x40000), (0x5002408, 1), (0x500240C, on), (0x500243C, 0x80000000)] with
  dbg := { ({} : Dbg) with trHead := head } }
theorem witness_trace : (reg (traces 1 0) 0x500240C).getLsbD 0 = true ∧ traceUsed (traces 1 0) < 2 ^ fld (reg (traces 1 0) 0x5002408) 4 0 ∧
    ¬traceUsed (traces 1 2) < 2 ^ fld (reg (traces 1 2) 0x5002408) 4 0 ∧ (reg (traces 1 0) (0x5002420 + 4 * (255 / 32))).getLsbD (255 % 32) = true ∧
    (traces 1 0).dbg.trOwed = 0 ∧ (reg (traces 0 0) 0x500240C).getLsbD 0 = false := by decide +kernel
theorem clear_trace : Clear (traces 1 1) 0x40020 32 := by unfold Clear; decide +kernel
/-- The cycle counter and counter 7 at their ends. -/
def wraps : State := device (coreWith { ({} : Regs) with csr := [(0x500, BitVec.allOnes 64), (0x508, BitVec.allOnes 64), (0x517, 0xC0000000)] })
theorem witness_counters_wrap : (∀ i ∈ [8, 7], csr (coreOf wraps 0).regs (if i = 8 then 0x500 else 0x501 + i) = BitVec.allOnes 64 ∧
    pmCounts (coreOf wraps 0).regs (levelOf (coreOf wraps 0).regs) i = true) := by decide +kernel

/-! ### Words, memory -/

/-- A well-formed instruction and its word; a memory in canonical form, and one that is not. -/
theorem witness_words : wellFormed (.addi 0 true false 5 6 0x3FFD) = true ∧ (encodeWord (.addi 0 true false 5 6 0x3FFD)).isSome = true := by decide
theorem witness_memory : Memory.wf [(0, 1), (0x20000, 5)] = true ∧ Memory.wf [(0x20000, 5), (0, 1)] = false ∧ Memory.wf [(0, 0)] = false := by decide


/-! ### Further witnesses: cores -/

/-- Recovery from a branch predicted wrongly, and from another; entries that no return has taken. -/
def mispredictedCore : State := device { coreWith (regsWith 0x42 someG) with missed := [3], overlay := oneCall }
theorem witness_recovery : 3 ∈ (coreOf mispredictedCore 0).missed ∧ 4 ∉ (coreOf mispredictedCore 0).missed ∧
    (∀ e ∈ oneCall, e.taken = none) := by decide +kernel
theorem witness_prefetch_to_write : ∃ e v, translate 0 wantStore 0xFFFFFFFFFFFFFFFF atK = (.error e, v) := ⟨_, _, rfl⟩

/-- A line of memory that no cache holds, served at its home. -/
theorem at_home_vecK : AtHome vecK 0x60000 := by unfold AtHome Clear; decide +kernel
theorem witness_store_of_a_line (i : Nat) (h : i < 8) :
    Passes 0 vWantStore (0x60000 + BitVec.ofNat 64 (i * 8)) 8 false true vecK { acc := { pa := 0x60000 + 8 * i, tc := 1 }, page := 0x60 } := by
  match i, h with
  | 0, _ | 1, _ | 2, _ | 3, _ | 4, _ | 5, _ | 6, _ | 7, _ => exact ⟨by decide, by rfl, by rfl⟩
theorem witness_long_line : accessPart 0 longWantWrite 0x60000 64 false true false longK = (.ok { acc := { pa := 0x60000, tc := 1 }, page := 0x60 }, longK) ∧
    AtHome longK 0x60000 := ⟨passed (by decide +kernel) (by decide +kernel), by unfold AtHome Clear; decide +kernel⟩

/-- A broadcast with a target of this device, and one that another device has sent. -/
theorem witness_broadcast_targets : 1 ∈ someBroadcast.waiting ∧ (coreOf broadcasting 1).group = none ∧
    smGet islandDef broadcasting.power.islands (pcOf broadcasting 1) = .active := by decide +kernel
def joinedPeer : State := { atK with links := { ({} : Links) with peers := 2 } }
theorem witness_broadcast_of_a_peer : joinedPeer.links.peers.getLsbD 1 = true ∧ bound joinedPeer 0 = true ∧ atK.links.peers = 0 := by decide +kernel

/-- A wait on memory whose line is held, sound and poisoned. -/
def memoryWait (poison : SMap Bool) : State :=
  let s := evented (some { kind := .wfeNe ownAccess 5 0x20000 0xF4A72200, rd := 5 }) 0
  { s with mem := { s.mem with poison := poison } }
theorem witness_wait_on_a_line : (l2Copy (memoryWait []) 0 (lineOf ownAccess.pa)).isSome = true ∧ readsPoison (memoryWait []) (lineOf ownAccess.pa) = false ∧
    readsPoison (memoryWait [(0x800, true)]) (lineOf ownAccess.pa) = true ∧ endResult (memoryWait []) 0 (.wfeNe ownAccess 5 0x20000 0xF4A72200) ≠ 0 ∧
    (csr (coreOf (memoryWait []) 0).regs 0x522).getLsbD 0 = true ∧ (coreOf (memoryWait []) 0).stepReq = false := by decide +kernel

/-- Control space of a joined device and the posting window of one. -/
def peerCtl : State := { device (coreWith (regsWith 0x42 [(5, 0xF001000200400), (6, 0xB000010000000), (3, 5)])) with links := { ({} : Links) with peers := 2 } }
def peerXlat : Xlat := { acc := { pa := 0xF001000200400, mt := 2, tc := 1 }, page := 0xF001000200 }
theorem witness_control_space_elsewhere : Issues 0 peerCtl peerCtl ∧ Passes 0 wantSdc 0xF001000200400 4 false true peerCtl peerXlat ∧
    Passes 0 wantSdcRead 0xF001000200400 4 true false peerCtl peerXlat ∧
    (∃ p, placeOf 0xF001000200400 = some p ∧ p.slot ≠ slotOf peerCtl ∧ slotOf (coreMeter 0 peerXlat.acc peerCtl) = slotOf peerCtl) ∧
    coreOf (coreMeter 0 peerXlat.acc peerCtl) 0 = coreOf peerCtl 0 :=
  ⟨⟨by decide, by decide, by decide, by decide, by decide, ⟨0x20, by decide +kernel⟩, by rfl⟩, ⟨by decide, by rfl, by rfl⟩, ⟨by decide, by rfl, by rfl⟩,
    ⟨_, rfl, by decide, by decide⟩, by decide +kernel⟩
theorem witness_queue_elsewhere : ∃ p, postingPage 0 wantQstat false 0xB000010000000 peerCtl = (.ok p, peerCtl) ∧ p.ads = [] ∧ p.slot ≠ slotOf peerCtl :=
  ⟨{ slot := 1, queue := 0, ads := [], page := 0xB000010000, tc := 1 }, by rfl, rfl, by decide⟩
/-- An end of interrupt of a source that is not the one in service. -/
def endsOther : State := { device (coreWith (regsWith 0x42 [(5, 0xF000000400104), (3, 300)])) with
  intc := { ({} : Intc) with icStacks := [(0, [{ source := 256, prio := 5 }])] } }
theorem witness_end_out_of_order : (ctlWrite (.core 0) 0x400104 300 endsOther).1 = 11 ∧
    coreOf (ctlWrite (.core 0) 0x400104 300 endsOther).2 0 = coreOf endsOther 0 ∧ (placeOf 0xF000000400104).map (·.off) = some 0x400104 := by decide +kernel


/-! ### Further witnesses: control space, homes, caches -/

/-- A pair of words of one register, the low half held by lc0; in mode OFF nothing answers. -/
def heldHalf : State := { atK with ctl := { ({} : Ctl) with heldLo := [(.core 0, 0x300008, 5)] } }
theorem witness_halves : pairHalf 0x300008 = .lo ∧ pairHalf 0x30000C ≠ .lo ∧ (∃ d ix, findReg 0x30000C = some (d, ix) ∧ d.half = .hi ∧ d.acc ≠ .ro ∧
    regKey (.core 0) d 0x300008 = 0x300008) ∧ (.core 0, 0x300008, 5) ∈ heldHalf.ctl.heldLo ∧ (inMode .off 0 none).power.mode = .off :=
  ⟨by decide +kernel, by decide +kernel, ⟨_, _, rfl, by decide, by decide, by decide⟩, by decide, rfl⟩
/-- Blocks captured since the last edge, by the device and by one; a block behind a silent bridge. -/
def captured : State := { atK with ctl := { ({} : Ctl) with edgeSnaps := [(snapOffs.getD 0 0, true), (snapOffs.getD 1 0, false)] } }
theorem witness_captures : (snapOffs.getD 0 0, true) ∈ captured.ctl.edgeSnaps ∧ (snapOffs.getD 1 0, false) ∈ captured.ctl.edgeSnaps ∧
    snapOffs.getD 0 0 ≠ tmrReg 0x10 ∧ snapOffs.getD 2 0 ≠ snapOffs.getD 1 0 := by decide +kernel
/-- Registers that a parity error finds: one of a home, one of the rind, a timer's count, one with a copy per core. -/
theorem witness_parity_places : (blockUnit 0x1008014 = some (uHome 0) ∧ isFenced atK (uHome 0) = false) ∧ blockUnit 0x48 = none ∧
    (∃ d ix, findReg 0x300050 = some (d, ix)) ∧ atK.ctl.committed = [] := by
  exact ⟨by decide +kernel, by decide +kernel, ⟨_, _, rfl⟩, rfl⟩

/-- An idle home; holders on another device; a requester that is joined and one that is not; what is no memory. -/
theorem home_idle (st : LineState) : HomeIdle emptyHome theLine ∧ HomeIdle (evicts st) theLine :=
  ⟨⟨by decide, by decide +kernel, by decide, by decide +kernel, ⟨fun _ h => (nomatch h), fun _ h => (nomatch h)⟩, rfl⟩,
   ⟨by decide, by cases st <;> decide +kernel, by cases st <;> decide, by cases st <;> decide +kernel, ⟨fun _ h => (nomatch h), fun _ h => (nomatch h)⟩, rfl⟩⟩
def peerHolds (owner : Option Nat) : State :=
  let s := home [(l3Set theLine * 18, some { dirEntry owner 0 with devs := 4 })] [] [] [] []
  { s with links := { ({} : Links) with peers := 6 } }
theorem witness_holders_elsewhere : (dirOf (peerHolds none) (homeOf (peerHolds none) theLine) theLine).devs = 4 ∧
    (dirOf (peerHolds (some 602)) (homeOf (peerHolds none) theLine) theLine).owner = some (600 + 2) ∧ (peerHolds none).links.peers.getLsbD 1 = true ∧
    (∀ e, e < 4 → joinedWith (peerHolds none) e = []) ∧ (peerHolds none).links.cohOut = [] ∧
    (emptyHome.links.peers.getLsbD 1 = false ∧ ∀ p, p < 8 → (port emptyHome p).peerValid = false) ∧
    isMemory (64 * (0xF0000 * 2 ^ 26)) = false := by decide +kernel
theorem witness_request_in_progress : (∃ q ∈ (snooped .inv).mem.homeQ, q.line = theLine ∧ q.served = true) ∧ backed (snooped .inv) (64 * theLine) = true ∧
    islandSilent (snooped .inv) (uHome (homeOf (snooped .inv) theLine)) = false := by decide +kernel
/-- The L3 holds the line dirty, with the content of memory and with one of its own. -/
def l3Held (stale : Option Vec) : State := { atK with mem := { ({} : MemSt) with
  slices := [(homeOf atK theLine, { ({} : Slice) with l3 := [(l3Set theLine * 16, some { line := theLine, dirty := true, rf := false, stale := stale })] })] } }
theorem witness_dirty_in_l3 : (l3Copy (l3Held none) (homeOf atK theLine) theLine).any (fun x => x.2.dirty) = true ∧
    l3Stale (l3Held (some 7)) (homeOf atK theLine) theLine = some 7 ∧ findDir (l3Held none) (homeOf atK theLine) theLine = none := by decide +kernel
/-- `HN_CMO_ADDR` of lc0 names theLine. -/
theorem witness_maintenance_line : findDir emptyHome (homeOf emptyHome (0 : Nat)) 0 = none ∧ l3Copy emptyHome (homeOf emptyHome 0) 0 = none := by decide +kernel

/-- A grant on its way and an entry of the transit buffer answer for the line; a snoop of a home on another device. -/
def inTransit : State := home [] [(1, { ({} : PrivCaches) with transit := [{ line := theLine, st := .m }] })] [waiting .unique] [] []
def farLine : Nat := 2 ^ 38 + 0x1000
theorem witness_snoop_cases : grantOf grantWaits 0 theLine = some { pc := 0, line := theLine, st := .m } ∧
    (∀ x ∈ grantWaits.mem.grants.erase { pc := 0, line := theLine, st := .m }, ¬(x.pc = 0 ∧ x.line = theLine)) ∧
    transitOf inTransit 1 theLine = some { line := theLine, st := .m } ∧ l2Copy inTransit 1 theLine = none ∧ grantOf inTransit 1 theLine = none ∧
    (remoteSlot joinedPeer farLine = some 1 ∧ joinedPeer.links.peers.getLsbD 1 = true ∧ joinedPeer.mem.homeQ = []) ∧
    (∀ x ∈ (priv (snooped .inv) 1).l2, x.1 ≠ 0 → ∀ y, x.2 = some y → y.line ≠ theLine) := by decide +kernel
/-- The last answer lets a whole-line write of an agent be made. -/
def writeWaits : State := home [(l3Set theLine * 18, some (dirEntry (some 1) 2))] []
  [{ kind := .fw, req := .agent, line := theLine, body := { bytes := List.replicate 64 7 }, served := true, pending := [(1, .inv)] }] [answer1] []
theorem witness_write_waits : (writeWaits.mem.homeQ.head?.map fun q => (q.req == .agent, q.kind == .fw, q.body.bytes.length, q.pending)) =
    some (true, true, 64, [(1, .inv)]) ∧ writeWaits.mem.answers = [answer1] := by decide +kernel
/-- A grant for a line that the L2 holds already, shared. -/
def grantHeld : State := home [] [(0, holds .s)] [] [] [{ pc := 0, line := theLine, st := .m }]
theorem witness_grant_of_a_held_line : l2Copy grantHeld 0 theLine = some (0, { line := theLine, st := .s }) ∧
    (dirOf (peerHolds (some 601)) (homeOf (peerHolds none) theLine) theLine).owner = some (600 + 1) := by decide +kernel

/-- Removed slices, one whose way is being retired, and a disabled one; errors in scratchpad rows of an L2 and of a slice. -/
theorem witness_slices : (slice (withSlice { ({} : Slice) with removed := true }) 0).removed = true ∧
    (slice (withSlice { ({} : Slice) with retiring := some 3 }) 0).retiring ≠ none ∧
    (slice (withSlice { ({} : Slice) with enabled := false }) 0).cmd = none := by decide +kernel
def scratchRows : State := { atK with mem := { atK.mem with slices := [(0, { ({} : Slice) with spMask := 1 })], priv := [(0, { ({} : PrivCaches) with spMask := 1 })] } }
theorem witness_scratchpad_rows : ((priv scratchRows 0).spMask.getLsbD 0 && ownAperture scratchRows false 0 (l2Aperture scratchRows 0 / 64)) = true ∧
    ((slice scratchRows 0).spMask.getLsbD 0 && ownAperture scratchRows true 0 (sliceAperture scratchRows 0 / 64)) = true ∧
    (slice scratchRows 0).retiring = none ∧ (slice scratchRows 0).retired.getLsbD 0 = false := by decide +kernel
/-- A slice that goes below its floor of ways; lines with no content of their own. -/
theorem witness_floor : healthyWays ((0x1E : BitVec 16) ||| BitVec.ofNat 16 (2 ^ 5)) < 12 ∧
    (∀ e ∈ (priv atK 0).l2, ∀ l, e.2 = some l → l.stale = none) ∧ countOnes (priv scratchRows 0).spMask 16 = 1 := by decide +kernel

/-! ### Further witnesses: memory controllers, the office, letters -/

/-- Two channels of one DIMM each; the first line of the DDR. -/
def twoDimms : List Dimm := [{ channel := 0, gib := 32, pranks := 2 }, { channel := 1, gib := 32, pranks := 2 }]
def ddrOf (c : MemCtl) : State := { atK with
  mem := { atK.mem with ddrGib := 64, ddrChannels := [0, 1], rankLog2 := 1, ctls := [(8, c)], dimms := twoDimms } }
def ddrLine : Nat := ddrBase / 64
def anErasure (bank : Option Nat) : Erasure := { place := 0, rank := 0, bank := bank, dev := 3 }
/-- HBM: one, two and three symbols in error; DDR: no device erased, one erased, a single bit and several of another. -/
theorem witness_codes : ctlOf atK 0 = some 0 ∧ lineFenced atK 0 = false ∧ ctlSilent atK 0 = false ∧ poisoned atK 0 = false ∧
    (symbolCount 1 = 1 ∧ symbolCount 3 = 2 ∧ symbolCount 7 = 3) ∧ poisoned { atK with mem := { atK.mem with poison := [(0, true)] } } 0 = true ∧
    ctlOf (ddrOf {}) (64 * ddrLine) = some 8 ∧ erasedAt (ddrOf {}) (linePlace (ddrOf {}) ddrLine) = [] ∧
    erasedAt (ddrOf { ({} : MemCtl) with erased := [anErasure none] }) (linePlace (ddrOf {}) ddrLine) = [3] ∧
    (symbolCount (maskWithout 1 [3]) = 1 ∧ symbolCount (maskWithout 8 [3]) = 0 ∧ symbolCount (maskWithout 3 []) = 2) := by decide +kernel
theorem witness_retires_at_an_error : dimmMib (reserve 32768) ≤ (reserve 32768).mem.reserveFree ∧
    ctlSilent { atK with resil := { atK.resil with silent := [uHmc 0] } } 0 = true := by decide +kernel
/-- A write of the whole line, and a masked one, that waits. -/
def queuedLine (full : Bool) : State := withCtl 0 { ({} : MemCtl) with wq := [{ slot := wqSlot atK 0, line := 0, full := full }] }
theorem witness_in_hand : ((memCtl (queuedLine true) 0).wq.any fun w => w.line == 0 && w.full) = true ∧
    ((memCtl (queuedLine false) 0).wq.any fun w => w.line == 0) = true ∧ ((memCtl (queuedLine false) 0).wq.any fun w => w.line == 0 && w.full) = false := by
  decide +kernel
/-- Every bank has a request ready; bank 5 is owed the most, and 8 are done ahead. -/
def owes (n : Int) : State := withCtl 8 { ({} : MemCtl) with refreshOwed := [(0, n), (1, -8), (2, -8), (3, -8)] }
theorem witness_refresh_choice : ((List.range 4).filter fun b => !([0, 1, 2, 3] : List Nat).contains b) = [] ∧ ((List.range 4).filter fun b => !([3] : List Nat).contains b) = [0, 1, 2] ∧
    (∀ x ∈ [0, 1, 2], smGet owed0 (memCtl (owes 5) 8).refreshOwed (0 * 64 + x) ≤ smGet owed0 (memCtl (owes 5) 8).refreshOwed (0 * 64 + 0)) ∧
    smGet owed0 (memCtl (owes (-8)) 8).refreshOwed (0 * 64 + 0) ≤ -8 := by decide +kernel
/-- A lane that is due at once (no hours are set), one that is not there, one that waits; two pins of a byte used. -/
def lanes (u : Nat) (c : MemCtl) : State := { ddrOf {} with
  mem := { (ddrOf {}).mem with ctls := [(u, c)] }
  ctl := { ({} : Ctl) with active := [(ctlBase u + 0x14, 0x4001)] } }
theorem witness_lanes_due : laneExists atK 0 127 = true ∧ laneExists atK 0 128 = false ∧ laneExists (ddrOf {}) 8 0 = true ∧
    (memCtl (lanes 0 { ({} : MemCtl) with temp := 64, training := false }) 0).training = false ∧
    fld (regAct (lanes 0 {}) (ctlBase 0 + 0x14)) 15 8 = 64 ∧ (0 < fld (regAct (lanes 0 {}) (ctlBase 0 + 0x14)) 7 0 * 60000000000) ∧
    ((smGet noRun (memCtl (lanes 0 {}) 0).runs 0).getD (memCtl (lanes 0 {}) 0).trainedAt).temp + 64 ≤ 64 ∧
    smGet zeroNat ({ ({} : MemCtl) with pinsUsed := [(0, 2)] }).pinsUsed (0 / 4) = 2 := by decide +kernel

/-- A row of bank 1 whose two errors name device 3; spare rows of its bank used up; no resource for repairs left. -/
def dueRow (u : Nat) (used left : Nat) : State := { ddrOf {} with
  mem := { (ddrOf {}).mem with ctls := [(u, { ({} : MemCtl) with
    spareUsed := [(1, used)], errors := [{ place := 0, bank := 1, row := 2, col := 0, time := 0, symbols := 8 }, { place := 0, bank := 1, row := 2, col := 1, time := 0, symbols := 8 }] })] }
  resil := { (ddrOf {}).resil with spareLeft := [(6, left)] } }
theorem witness_rows_due : (((memCtl (dueRow 0 0 0) 0).errors.map fun e => e.col).dedup.length = 2 ∧ nowNs (dueRow 0 0 0) < 0 + 86400000000000) ∧
    smGet zeroNat (memCtl (dueRow 0 1535 0) 0).spareUsed (0 / 8 * 64 + 1) = 1535 ∧ smGet zeroNat (memCtl (dueRow 0 1536 0) 0).spareUsed 1 = 1536 ∧
    smGet zeroNat (memCtl (dueRow 0 1536 0) 0).spareUsed 0 < 1536 ∧
    ((memCtl (dueRow 8 0 0) 8).errors.foldl (fun a e => a ||| e.symbols) 0 = 2 ^ 3 ∧ spareLeft (dueRow 8 0 0) 6 = 0 ∧ spareLeft (dueRow 8 0 5) 6 = 5) ∧
    deviceRows (memCtl (dueRow 8 0 0) 8) 0 1 3 < 15 ∧ (memCtl (dueRow 8 0 0) 8).erased = [] := by decide +kernel
/-- Every bank but two spared or without rows, and 63 banks with all of theirs. -/
theorem witness_bank_room : 23040 ≤ (((List.range 64).filter fun b => b != 1 && !([] : List (Nat × Nat)).contains (0, b)).map fun b =>
      1536 - smGet zeroNat (memCtl (sparedRows []) 0).spareUsed (0 * 64 + b)).sum ∧
    ¬((memCtl (sparedRows [(0, 2), (0, 3), (0, 4), (0, 5)]) 0).sparedBanks.filter fun b => b.1 == 0).length < 4 := by decide +kernel
def oneRank (rank : Option Nat) : State := { reserve 32768 with
  mem := { (reserve 32768).mem with ctls := [(8, { ({} : MemCtl) with retired := [{ dimm := 0, rank := rank, pointer := 0, total := 16384, done := true }] })] } }
theorem witness_second_rank : (memCtl (oneRank (some 0)) 8).retired = [{ dimm := 0, rank := some 0, pointer := 0, total := 16384, done := true }] ∧
    1024 * (oneRank none).mem.ddrGib / dimmCount (oneRank none) - 16384 ≤ (oneRank none).mem.reserveFree ∧
    (∀ r ∈ (memCtl (oneRank none) 8).retired, r.done = true) := by decide +kernel
theorem witness_reserve_low : reserveArmed (withCtl 8 {}) = false ∧ argOf 0 gives 3 ≠ 0 := by decide +kernel
theorem witness_sector_commands (off : Nat) (h : off ∈ [0x2000120, 0x2700120]) : Reaches (.core 0) 2 0 off atK := by
  simp only [List.mem_cons, List.not_mem_nil, or_false] at h
  obtain rfl | rfl := h <;> exact ⟨⟨by decide, by decide, by decide, by decide, by decide, by decide, by decide⟩, by decide⟩

/-- Reservations of a core that is not bound; a mask that names an absent controller of DDR; flushes of letters of no queue. -/
theorem witness_absent : ¬((511 : Fin 540).val < 535 ∧ ((511 : Fin 540).val < 512 → bound { atK with resil := { atK.resil with bound := 511 } } 511 = true)) ∧
    namesAbsent (withCtl 15 { ({} : MemCtl) with excluded := true }) 0x8000 0 = true ∧
    (∀ l ∈ (queueOf (activeQ [someLetter]) 0).burst, l.via = none ∨ l.data.getLsbD 52 = true) ∧ (∀ e ∈ fullDlr.office.queues, e.2.flushing = false) := by
  decide +kernel
/-- A PORT takes letters whose low bits its window names; another device with a PORT that is up, and with none. -/
def portQ : Queue := { ({} : Queue) with state := .active, words := [0x08800000, 0x40000, 0, 0, 0, 0, 0x20, 0xF0] }
def windowed (d : Vec) : State := { posting true false portQ { sentLetter none with data := d } with power := { ({} : Power) with mode := .run } }
theorem witness_port_window : qKind portQ = 1 ∧ portQ.state = .active ∧ (qw portQ 0).getLsbD 19 = false ∧ bellOn portQ = false ∧
    ((0x2F : Word32) &&& qw portQ 7 = qw portQ 6 ∧ (0x3F : Word32) &&& qw portQ 7 ≠ qw portQ 6) ∧
    (2 ^ 52 + 0x3F : Vec).getLsbD 52 = true ∧ sopDown (windowed 0x2F) 0 = false ∧ (windowed 0x2F).office.running = true := by decide +kernel
def sendsAway (l : Letter) : State := { posting true false {} l with
  office := { ({} : Office) with running := true, senders := [(3, [{ dest := 0x10000, letter := l, released := true }])] } }
theorem witness_letter_away : fld (0x10000 : BitVec 32) 31 16 ≠ devNum (sendsAway (sentLetter none)) ∧
    routeLeads (sendMsg (letterMsg 1 1 0 0 false (sentLetter none)) (newTid (sendsAway (sentLetter none))).2).1 = false ∧
    sendersOf (sendsAway (sentLetter none)) 3 = [{ dest := 0x10000, letter := sentLetter none, released := true }] := by decide +kernel
theorem witness_poisoned_ring : (let s := { posting true false spilled (sentLetter none) with mem := { atK.mem with poison := [(0x1000, true)] } }
    poisoned s (lineOf 0x40000) = true ∧ dlrFull s = false ∧ dlrLog2 s < 21) := by decide +kernel

/-! ### Further witnesses: commands, links -/

/-- What commands may use; a command for another device, with a PORT on the way and none; contributions to contexts elsewhere and from there. -/
theorem witness_may_use : MayUse (commanding [] [] (moves 1)) 0 1 0 8 needRead ∧ MayUse (commanding [] [] (moves 1)) 0 2 0 8 needWrite ∧
    RctrFree (cmdOf (moves 1)) (commanding [] [] (moves 1)) := by unfold MayUse RctrFree; decide +kernel
def commandsAway (op : Nat) (lead : Bool) : State := { commanding [] [] [(24, op), (32, 1), (36, 1), (56, 8)] with
  links := if lead then { ({} : Links) with ports := [(2, upPort)] } else {}
  ctl := { ({} : Ctl) with regs := [(0x8000018, 1)], active := [(0x4090004, 0x400)] } }
theorem witness_commands_away : (∀ b ∈ [true, false], ∀ op ∈ [1, 2, 3, 4, 8, 16],
    routeLeads (sendMsg (letterMsg 4 1 0 0 false { data := cmdData [(24, op), (32, 1), (36, 1), (56, 8)], postmark := 1 }) (newTid (commandsAway op b)).2).1 = b) ∧
    cRdev (cmdOf [(24, 16), (32, 1), (36, 1), (56, 8)]) ≠ devNum (commandsAway 16 true) ∧
    MayUse (commandsAway 16 true) 0 1 0 8 needRead := by unfold MayUse; decide +kernel
/-- A forward of device 1 to context 2, whose sources its configuration names. -/
def fwdFrom1 : Forward := { fwd with srcDev := 1 }
theorem witness_forward_from_another_device : fwdFrom1.srcDev ≠ devNum forwarding ∧
    srcMatches fwdFrom1.srcDev (cRreg (cmdOf (setsUp 1 2 3))) (cRctr (cmdOf (setsUp 1 2 3))) = true := by decide +kernel

/-- A frame that acknowledges, one that does not, at the limit of retries; three failures of fast training within a second. -/
theorem witness_retry_limit : fld (regAct (linked (keeps 3) [] [] []) (vxBase 2 + 0x14)) 15 8 ≤ (keeps 3).retries + 1 ∧
    ((0 : Nat) :: [0, 0].filter fun x => decide ((0 : Nat) < x + 1000000000)).length = 3 ∧ (keeps 3).join.state = .non ∧
    (linked (keeps 3) [] [] []).links.waiting.length = 0 := by decide +kernel
/-- A coherent peer; no request of a home waits for it; another joined PORT of the pair, and none. -/
def twoPorts (st : CohState) : State := { linked (cohPort st) [] [] [] with links := { ({} : Links) with ports := [(2, cohPort st), (3, cohPort .coherent)], peers := 2 } }
theorem witness_coherent_ports : (port (linked (cohPort .coherent) [] [] []) 2).join.state = .coherent ∧
    (∀ q ∈ (linked (cohPort .coherent) [] [] []).mem.homeQ, ∀ x ∈ q.pending, x.1 ≠ devOwner 1) ∧
    (∃ q ∈ joinedWith (twoPorts .coherent) 1, q ≠ 2) ∧ (∀ q ∈ joinedWith (linked (cohPort .coherent) [] [] []) 1, q = 2) := by decide +kernel
/-- What a loop ends, and what has no route; pages that other code has taken. -/
def looped : Msg := { waitsHere with hops := 31 }
theorem witness_no_route : (route false looped (passing 0x400)).1 = .loop ∧ (route false waitsHere (linked upPort [] [] [])).1 = .unreachable ∧
    pagesTaken dataIn 0x50000 (dataMsg 6) = false ∧ pagesTaken { dataIn with ctl := { ({} : Ctl) with regs := [] } } 0x50000 (dataMsg 6) = true := by decide +kernel
/-- Joins: a digest of the peer that agrees, and one that does not; a disagreement of time that lasts. -/
def fresher (d : List Byte) : State := linked { upPort with join := { ({} : Join) with fresh := true, peerDig := d } } [] [] []
theorem witness_digest_refused : joinReason (fresher []) (joinDigest (fresher [])) (joinDigest (fresher [])) = 1 := by decide +kernel
theorem witness_digest_agrees : joinReason (fresher []) (joinDigest (fresher [])) (1 :: (joinDigest (fresher [])).tail) = 0 := by
  unfold joinReason
  rw [if_neg (by decide +kernel), if_neg (by decide +kernel), if_neg (by decide +kernel), if_neg (by decide +kernel), if_neg (fun h => h rfl),
    if_neg (by decide +kernel), if_neg (by decide +kernel), if_neg (by decide +kernel), if_neg (by decide +kernel)]
theorem witness_time_off : joinReason (linked { upPort with timeOff := true } [] [] []) (digest 0) (digest 1) ≠ 0 ∧
    (port (linked { upPort with timeOff := true } [] [] []) 2).timeOff = true := by decide +kernel
/-- What a split takes back: a line of the peer, modified; the home's own line with its data. -/
def returning_ : State := { joined .fenced none none with
  mem := { ({} : MemSt) with
    priv := [(1, { ({} : PrivCaches) with l2 := [(0, some { line := farLine, st := .m })] })]
    slices := [(homeOf atK theLine, { ({} : Slice) with
      dir := [(l3Set theLine * 18, some { line := theLine, owner := some (devOwner 1), sharers := 0, devs := 0, proxy := false })] })] } }
theorem witness_returns : (placeOf (64 * farLine)).map (fun q => q.slot) = some 1 ∧ l3Set theLine * 18 / 18 = l3Set theLine ∧
    homeOf returning_ theLine = homeOf atK theLine ∧ (slice returning_ (homeOf atK theLine)).dir =
      [(l3Set theLine * 18, some { line := theLine, owner := some (devOwner 1), sharers := 0, devs := 0, proxy := false })] := by decide +kernel
/-- System time: in holdover for want of references that are back. -/
theorem witness_time_cases : (steered .holdover 0).links.servo = .holdover ∧ parentOf (steered .holdover 0) = some 2 ∧
    ({ steered .holdover 0 with resil := { atK.resil with contain := 8 } } : State).resil.contain = 8 ∧ (steered .holdover 0).power.refPresent ≠ 0 := by decide +kernel

/-! ### Further witnesses: devices below, faults, updates, power, pads, mailbox, debug -/

/-- A read of a requester that has P2P, of its own device's window and of another's; a context that no request has. -/
def peerReads (slot : Nat) : State :=
  { below { devCtx true true with p2p := true } { ioSlot true true with pa := mmioBase + slot * 2 ^ 41 } true with links := { ({} : Links) with peers := 2 } }
theorem witness_peer_to_peer : ∀ slot ∈ [0, 1], (placeOf (mmioBase + slot * 2 ^ 41)).map (fun q => (q.region, q.slot)) = some (.mmio, slot) ∧
    regionOk (peerReads slot) (mmioBase + slot * 2 ^ 41) .dma = true ∧ ownerCode (peerReads slot) (mmioBase + slot * 2 ^ 41) = 0 ∧
    (reg (peerReads slot) 0x4800110).getLsbD 31 = false := by decide +kernel
/-- Units suspected before: a home, a directory copy, a slice, a controller, a pipeline with its neighbours and without, a pair. -/
def suspect (u : Nat) : State := { atK with resil := { atK.resil with suspects := [u] } }
theorem witness_suspects : (∀ u ∈ [uHome 255, uHome 3 + 256, uHome 3 + 768, unitWord 3 15, uSop 7, uPair 3],
      u ∈ (suspect u).resil.suspects ∧ isFenced (suspect u) u = false ∧ (BitVec.ofNat 32 u).toNat = u) ∧
    (∃ q, q / 4 = 7 / 4 ∧ q ≠ 7 ∧ sopOut (suspect (uSop 7)) q = false) ∧
    (∀ q, q < 8 → q / 4 = 7 / 4 → q ≠ 7 → sopOut { suspect (uSop 7) with office := { ({} : Office) with sopFenced := 0x70 } } q = true) ∧
    pairUp (suspect (uPair 3)) 3 = true := by refine ⟨by decide +kernel, ⟨4, by decide +kernel⟩, by decide +kernel, by decide +kernel⟩
theorem witness_pair_tests : ({ atK with resil := { atK.resil with testing := [3] } }).resil.testing.contains 3 = true ∧
    countOnes (syncs { ({} : Cellar) with pairsUp := 9 }).cellar.pairsUp 4 ≤ 2 ∧ pairUp (syncs { ({} : Cellar) with pairsUp := 9 }) 3 = true := by decide +kernel
/-- A core that performs its deferred accesses when its relocation begins. -/
theorem witness_relocation_with_accesses : (coreOf waitingLoad 0).mmioWait = true ∧ (coreOf waitingLoad 0).standing ≠ .fenced ∧
    bound waitingLoad 0 = true ∧ moving waitingLoad 0 = false := by decide +kernel
theorem witness_spare_horizon : min 365 365 = 365 ∧
    fld (reg { atK with ctl := { atK.ctl with regs := [(0x6000014, 90)] } } 0x6000014) 15 0 = 90 := by decide +kernel

/-- An operation of pipeline 7 under way; the keeper's second flash copy due. -/
theorem witness_busy_pipeline : (∃ c ∈ ({ atK with office := { ({} : Office) with cmds := [{ cmd := { cmdOf [] with q := 7 } }] } } : State).office.cmds,
    c.cmd.q % 8 = 7 ∧ c.status = 0) ∧ (storeShape 1).banks ≤ 2 := by decide +kernel
theorem witness_keeper_copies : (({ held 8 with flashDue := [(8, 5, 0)] } : Live).flashDue.find? fun e => e.1 == 8) = some (8, 5, 0) ∧
    copyAbsent atK 0 = false ∧ copyAbsent atK 1 = false := by decide +kernel
theorem witness_roll_shut_out : (updating [] (rolling 5 [] false) { ({} : Resil) with contain := 1 }).resil.contain.getLsbD 0 = true ∧
    (roll 2 [] false).store = 2 ∧ (powered { ({} : Power) with cur := some .drain } []).power.cur ≠ none := by decide +kernel

/-- Islands: a wait on memory that watches its line, one whose condition holds. -/
theorem witness_watching : (∃ w va x p q, (coreOf (evented (some { kind := .wfeNe ownAccess 5 0x20000 0xF4A72200, rd := 5 }) 0) 0).wait = some w ∧
      w.kind = .wfeNe va x p q) ∧
    waitResult (asleep waits 0 false 0) 0 .wfe = 0 ∧ waitResult (evented waits 1) 0 .wfe ≠ 0 := ⟨⟨_, _, _, _, _, rfl, rfl⟩, by decide +kernel, by decide +kernel⟩
/-- Entries into DOZE: to go on to DEEP_DOZE or not; a debugger attached, which makes the device emulate them. -/
theorem witness_entries : (asleep waits 0 true 0).power.deepNext = true ∧
    mayDeep { asleep waits 0 true 0 with power := { (asleep waits 0 true 0).power with pstate := 1 } } = true ∧
    dbgAttached (asleep waits 0 true 2) = true ∧ (powered { ({} : Power) with emu := true, pstate := 1 } []).power.emu = true := by decide +kernel
theorem witness_falls : (inMode .scan 0 none).power.mode = .scan ∧ (inMode .doze 1 (some .deepEntry)).power.cur ≠ some .drain ∧
    ({ inMode .rind 0 none with power := { (inMode .rind 0 none).power with railUnknown := true } } : State).power.railUnknown = true := by decide
/-- Boot: a sweep that passes at 17 delays of one Vref code; the first loader absent. -/
theorem witness_sweeps_at_boot : 16 ≤ (bestVref [(20, 0x1FFFF00)]).2.1 ∧ ¬16 ≤ (bestVref [(20, 0xFF)]).2.1 ∧
    (loaderOf State.reset { bootCfg with loader := [], otherLoader := loaderBytes } []).isSome = false := by decide +kernel

/-- Outputs: at power good and not, in SCAN by the instruction, THERMTRIP# within and after its 10 ms; a pad as output, held and not. -/
theorem witness_outputs : padDrive (padded {} []) .syncOut = .released ∧ padDrive (padded {} [(0x300050, 1)]) .syncOut = .low ∧
    padDrive (scanning .scan 0 false) .syncOut = .signal ∧ padDrive (scanning .scan 5 false) .prochot = .released ∧
    padDrive (powered { ({} : Power) with mode := .rind, pwrgd := true, thermtrip := true } []) .thermtrip = .low ∧
    padDrive (padded { ({} : Pads) with fsel := [(31, 0)] } [(0x20017C, 0x180)]) (.gpio 31) = .high ∧
    padDrive (padded { ({} : Pads) with fsel := [(31, 0)] } [(0x20017C, 0x80)]) (.gpio 31) = .low := by decide +kernel
/-- Requests that powering on serves in RIND: with power good, and after a trip. -/
def inRindAsked (good tripped : Bool) : State := { asked 3 [] with power := { ({} : Power) with mode := .rind, pwrgd := good, tripped := tripped } }
theorem witness_power_on : (inRindAsked true false).pads.request = some (3, 5, []) ∧ (inRindAsked true false).power.mode = .rind ∧
    (inRindAsked false false).power.pwrgd = false ∧ (inRindAsked true true).power.tripped = true ∧ drainAllowed (asked 4 []) = true ∧
    (padded {} []).pads.request.isNone = true ∧ inRind (natOfBytes [0, 0, 0x20, 0]) = true ∧ inRind (natOfBytes [0, 0, 0x10, 1]) = false := by decide +kernel
/-- Authorisation locked out; the window on a special register. -/
theorem witness_locked_out : nowNs atK < ({ ({} : Dbg) with lockedUntil := 60000000000 } : Dbg).lockedUntil.toNat ∧
    fld (reg (debugging 2 2 .halted [(0x5002200, 0x40000400)]) 0x5002200) 31 28 = 4 := by decide +kernel

end Sys2Proof.Tests
end

section
/-! Results and flags of the integer operations (03 R71 to R77): each operation of the model against the exact arithmetic of the spec. -/

namespace Sys2Proof.Machine

/-! ### Sums (03 R71) -/

/-- C and V of a sum with carry come from its exact unsigned and signed values: the sign bit of the result differs from two equal sign bits
where the signed sum is out of range. -/
theorem addc_eq (a b : Word64) (cin : Bool) :
    addc a b cin = (a + b + BitVec.ofNat 64 cin.toNat,
      sumFlags (a + b + BitVec.ofNat 64 cin.toNat) (decide (2 ^ 64 ≤ a.toNat + b.toNat + cin.toNat)) (a.toInt + b.toInt + cin.toNat)) := by
  have hr : BitVec.ofNat 64 (a.toNat + b.toNat + cin.toNat) = a + b + BitVec.ofNat 64 cin.toNat := by
    simp only [BitVec.ofNat_add, BitVec.ofNat_toNat, BitVec.setWidth_eq]
  have hv : (a.msb == b.msb && (a + b + BitVec.ofNat 64 cin.toNat).msb != a.msb) =
      decide (a.toInt + b.toInt + cin.toNat < -(2 ^ 63) ∨ 2 ^ 63 ≤ a.toInt + b.toInt + cin.toNat) := by
    have hc : cin.toNat ≤ 1 := Bool.toNat_le cin
    have ha := a.isLt
    have hb := b.isLt
    rw [← hr]
    simp only [BitVec.msb_eq_decide, BitVec.toInt_eq_toNat_cond, BitVec.toNat_ofNat]
    generalize cin.toNat = k at *
    grind
  simp only [addc, hr, hv, sumFlags]
  rfl
theorem toInt_not_eq_neg_sub_one (b : Word64) : (~~~b).toInt = -b.toInt - 1 := by
  have hb := b.isLt
  simp only [BitVec.toInt_eq_toNat_cond, BitVec.toNat_not]
  grind
/-- A difference is a sum with the complement; C is set where nothing is borrowed. -/
theorem addc_not_eq (a b : Word64) (cin : Bool) :
    addc a (~~~b) cin = (a - b - 1 + BitVec.ofNat 64 cin.toNat,
      sumFlags (a - b - 1 + BitVec.ofNat 64 cin.toNat) (decide (b.toNat + 1 ≤ a.toNat + cin.toNat)) (a.toInt - b.toInt - 1 + cin.toNat)) := by
  have hw : a + ~~~b = a - b - 1 := by rw [BitVec.not_eq_neg_add, BitVec.sub_eq_add_neg a b]; exact (add_sub_assoc a (-b) 1).symm
  have hc : 2 ^ 64 ≤ a.toNat + (~~~b).toNat + cin.toNat ↔ b.toNat + 1 ≤ a.toNat + cin.toNat := by
    have hb := b.isLt
    rw [BitVec.toNat_not]
    omega
  have hs : a.toInt + (~~~b).toInt + cin.toNat = a.toInt - b.toInt - 1 + cin.toNat := by rw [toInt_not_eq_neg_sub_one]; ring
  rw [addc_eq, hw, hs, decide_eq_decide.2 hc]
theorem addc_false (a b : Word64) :
    addc a b false = (a + b, sumFlags (a + b) (decide (2 ^ 64 ≤ a.toNat + b.toNat)) (a.toInt + b.toInt)) := by
  simpa using addc_eq a b false
theorem addc_not_true (a b : Word64) :
    addc a (~~~b) true = (a - b, sumFlags (a - b) (decide (b.toNat ≤ a.toNat)) (a.toInt - b.toInt)) := by
  simpa using addc_not_eq a b true

/-! ### Products and quotients (03 R72, R73) -/

theorem mulHS_eq (a b : Word64) : mulHS a b = BitVec.ofInt 64 (a.toInt * b.toInt / 2 ^ 64) := by
  have hp : a.signExtend 128 * b.signExtend 128 = BitVec.ofInt 128 (a.toInt * b.toInt) := (BitVec.ofInt_mul ..).symm
  apply BitVec.eq_of_toNat_eq
  simp only [mulHS, hp, BitVec.toNat_setWidth, BitVec.toNat_ushiftRight, BitVec.toNat_ofInt, Nat.shiftRight_eq_div_pow]
  omega
theorem flagsDiv_eq (signed : Bool) (a b r : Word64) :
    flagsDiv signed a b r = resultFlags r (b == 0 || (signed && a == minSigned && b == BitVec.allOnes 64)) := rfl

section
variable {a b : Word64} (c : Bool)

/-! The special cases of 03 R73, then the quotients and remainders outside them. -/
theorem intOp_div_zero (h : b = 0) : intOp .div a b c = (BitVec.allOnes 64, resultFlags (BitVec.allOnes 64) true) := by subst h; rfl
theorem intOp_divu_zero (h : b = 0) : intOp .divu a b c = (BitVec.allOnes 64, resultFlags (BitVec.allOnes 64) true) := by subst h; rfl
theorem intOp_rem_zero (h : b = 0) : intOp .rem a b c = (a, resultFlags a true) := by subst h; rfl
theorem intOp_remu_zero (h : b = 0) : intOp .remu a b c = (a, resultFlags a true) := by subst h; rfl
theorem intOp_div_overflow (ha : a = 0x8000000000000000) (hb : b = BitVec.allOnes 64) : intOp .div a b c = (a, resultFlags a true) := by
  subst ha hb; rfl
theorem intOp_rem_overflow (ha : a = 0x8000000000000000) (hb : b = BitVec.allOnes 64) : intOp .rem a b c = (0, resultFlags 0 true) := by
  subst ha hb; rfl
theorem intOp_divu (h : b ≠ 0) :
    intOp .divu a b c = (BitVec.ofNat 64 (a.toNat / b.toNat), resultFlags (BitVec.ofNat 64 (a.toNat / b.toNat)) false) := by
  simp only [intOp, divU, flagsDiv_eq, beq_false_of_ne h, Bool.false_and, Bool.or_false, Bool.false_eq_true, if_false]
theorem intOp_remu (h : b ≠ 0) :
    intOp .remu a b c = (BitVec.ofNat 64 (a.toNat % b.toNat), resultFlags (BitVec.ofNat 64 (a.toNat % b.toNat)) false) := by
  simp only [intOp, remU, flagsDiv_eq, beq_false_of_ne h, Bool.false_and, Bool.or_false, Bool.false_eq_true, if_false]
theorem overflow_eq_false (ho : ¬(a = 0x8000000000000000 ∧ b = BitVec.allOnes 64)) : (a == minSigned && b == BitVec.allOnes 64) = false := by
  simpa [minSigned] using ho
theorem intOp_div (h : b ≠ 0) (ho : ¬(a = 0x8000000000000000 ∧ b = BitVec.allOnes 64)) :
    intOp .div a b c = (BitVec.ofInt 64 (a.toInt.tdiv b.toInt), resultFlags (BitVec.ofInt 64 (a.toInt.tdiv b.toInt)) false) := by
  simp only [intOp, divS, flagsDiv_eq, overflow_eq_false ho, beq_false_of_ne h, Bool.true_and, Bool.or_false, Bool.false_eq_true, if_false]
theorem intOp_rem (h : b ≠ 0) (ho : ¬(a = 0x8000000000000000 ∧ b = BitVec.allOnes 64)) :
    intOp .rem a b c = (BitVec.ofInt 64 (a.toInt.tmod b.toInt), resultFlags (BitVec.ofInt 64 (a.toInt.tmod b.toInt)) false) := by
  simp only [intOp, remS, flagsDiv_eq, overflow_eq_false ho, beq_false_of_ne h, Bool.true_and, Bool.or_false, Bool.false_eq_true, if_false]
end

/-! ### Bit counts and byte order (03 R72) -/

/-- The highest one of a word that is not zero stands below its leading zeros. -/
theorem log2_toNat_eq_clz {a : Word64} (h : a ≠ 0) : Nat.log2 a.toNat = 63 - a.clz.toNat := by
  have hk : a.clz.toNat < 64 := by simpa [BitVec.lt_def] using BitVec.clz_lt_iff_ne_zero.2 h
  have hlt : a.toNat < 2 ^ (63 - a.clz.toNat + 1) := by
    rw [show 63 - a.clz.toNat + 1 = 64 - a.clz.toNat by omega]
    exact BitVec.toNat_lt_two_pow_sub_clz
  exact (Nat.log2_eq_iff (by simpa [BitVec.toNat_eq] using h)).2 ⟨BitVec.two_pow_sub_clz_le_toNat_of_ne_zero (by decide) h, hlt⟩
theorem countLeading_eq_clz (a : Word64) : BitVec.ofNat 64 (countLeading a) = a.clz := by
  by_cases h : a = 0
  · subst h
    exact (BitVec.clz_eq_iff_eq_zero (x := (0 : Word64))).2 rfl |>.symm
  · have hk : a.clz.toNat < 64 := by simpa [BitVec.lt_def] using BitVec.clz_lt_iff_ne_zero.2 h
    apply BitVec.eq_of_toNat_eq
    simp only [countLeading, beq_iff_eq, h, if_false, log2_toNat_eq_clz h, BitVec.toNat_ofNat]
    omega
theorem ctz_zero : BitVec.ctz (0 : Word64) = 64 := by
  have hr : (0 : Word64).reverse = 0 := by
    apply BitVec.eq_of_getLsbD_eq
    simp [BitVec.getLsbD_reverse]
  rw [BitVec.ctz_eq_reverse_clz, hr]
  exact (BitVec.clz_eq_iff_eq_zero (x := (0 : Word64))).2 rfl
/-- A word and its negation have its lowest one alone in common. -/
theorem and_neg_eq_twoPow_ctz {a : Word64} (h : a ≠ 0) : a &&& -a = BitVec.twoPow 64 a.ctz.toNat := by
  have hk : a.getLsbD a.ctz.toNat = true := BitVec.getLsbD_true_ctz_of_ne_zero h
  apply BitVec.eq_of_getLsbD_eq
  intro i hi
  rw [BitVec.getLsbD_and, BitVec.getLsbD_neg, BitVec.getLsbD_twoPow]
  rcases Nat.lt_trichotomy i a.ctz.toNat with hlt | heq | hgt
  · simp [BitVec.getLsbD_false_of_lt_ctz hlt, Nat.ne_of_gt hlt]
  · have hlow : ¬∃ j < i, a.getLsbD j = true := by
      rintro ⟨j, hj, hb⟩
      rw [BitVec.getLsbD_false_of_lt_ctz (heq ▸ hj)] at hb
      cases hb
    simp [hlow, hi, heq ▸ hk, ← heq]
  · have hlow : ∃ j < i, a.getLsbD j = true := ⟨_, hgt, hk⟩
    simp [hlow, hi, Nat.ne_of_lt hgt]
theorem countTrailing_eq_ctz (a : Word64) : BitVec.ofNat 64 (countTrailing a) = a.ctz := by
  by_cases h : a = 0
  · rw [h, ctz_zero]
    rfl
  · have hk : a.ctz.toNat < 64 := by simpa [BitVec.lt_def] using BitVec.ctz_lt_iff_ne_zero.2 h
    have hp : 2 ^ a.ctz.toNat < 2 ^ 64 := Nat.pow_lt_pow_right (by decide) hk
    simp only [countTrailing, beq_iff_eq, h, if_false]
    rw [show 0 - a = -a from BitVec.zero_sub a, and_neg_eq_twoPow_ctz h, BitVec.toNat_twoPow, Nat.mod_eq_of_lt hp, Nat.log2_two_pow,
      BitVec.ofNat_toNat, BitVec.setWidth_eq]
theorem countOnes_eq_countP {w : Nat} (a : BitVec w) (n : Nat) : countOnes a n = (List.range n).countP fun i => a.getLsbD i := by
  induction n with
  | zero => rfl
  | succ n ih =>
    rw [countOnes, ih, List.range_succ, List.countP_append, List.countP_singleton, Nat.add_comm]
    cases a.getLsbD n <;> rfl

theorem natOfBytes_bytesOfNat (n x : Nat) (h : x < 256 ^ n) : natOfBytes (bytesOfNat x n) = x := by
  induction n generalizing x with
  | zero =>
    rw [Nat.lt_one_iff.1 h]
    rfl
  | succ n ih =>
    have hq : x / 256 < 256 ^ n := by
      rw [Nat.pow_succ] at h
      omega
    rw [bytesOfNat, natOfBytes, ih _ hq, BitVec.toNat_ofNat]
    exact Nat.mod_add_div x 256
@[simp] theorem length_bytesOfNat (x n : Nat) : (bytesOfNat x n).length = n := by
  induction n generalizing x with
  | zero => rfl
  | succ n ih => rw [bytesOfNat, List.length_cons, ih]
theorem getElem_bytesOfNat (x n i : Nat) (h : i < (bytesOfNat x n).length) : (bytesOfNat x n)[i] = BitVec.ofNat 8 (x / 256 ^ i) := by
  induction n generalizing x i with
  | zero => simp at h
  | succ n ih =>
    cases i with
    | zero => simp [bytesOfNat]
    | succ i => simp only [bytesOfNat, List.getElem_cons_succ, ih, Nat.div_div_eq_div_mul, Nat.pow_succ']
theorem getElem_bytesOfNat_toNat {v : Nat} (a : BitVec v) (n i : Nat) (h : i < (bytesOfNat a.toNat n).length) :
    (bytesOfNat a.toNat n)[i] = a.extractLsb' (8 * i) 8 := by
  rw [getElem_bytesOfNat, BitVec.extractLsb', Nat.shiftRight_eq_div_pow, Nat.pow_mul]
/-- The word whose bytes are those of `a` in reversed order is its byte swap. -/
theorem byteSwap_eq {a w : Word64} (h : ∀ i, i < 8 → w.extractLsb' (8 * i) 8 = a.extractLsb' (8 * (7 - i)) 8) : byteSwap a = w := by
  have hb : (bytesOfNat a.toNat 8).reverse = bytesOfNat w.toNat 8 := by
    refine List.ext_getElem (by simp) fun i h1 h2 => ?_
    rw [List.getElem_reverse, getElem_bytesOfNat_toNat, getElem_bytesOfNat_toNat, length_bytesOfNat]
    exact (h i (by simpa using h2)).symm
  rw [byteSwap, hb, natOfBytes_bytesOfNat 8 _ w.isLt, BitVec.ofNat_toNat, BitVec.setWidth_eq]

/-! ### Constants and conditions (03 R76, R81) -/

theorem getLsbD_putQuarter (old : Word64) (imm : BitVec 16) (q i : Nat) (hi : i < 64) :
    (putQuarter old imm q).getLsbD i = if 16 * q ≤ i ∧ i < 16 * q + 16 then imm.getLsbD (i - 16 * q) else old.getLsbD i := by
  have hm : (0xFFFF : Word64).getLsbD (i - 16 * q) = decide (i - 16 * q < 16) := by
    rw [show (0xFFFF : Word64) = (BitVec.allOnes 16).setWidth 64 by decide, BitVec.getLsbD_setWidth, BitVec.getLsbD_allOnes,
      decide_eq_true (show i - 16 * q < 64 by omega), Bool.true_and]
  simp only [putQuarter, setQuarter, BitVec.getLsbD_or, BitVec.getLsbD_and, BitVec.getLsbD_not, BitVec.getLsbD_shiftLeft, hm,
    BitVec.getLsbD_setWidth, hi, decide_true, Bool.true_and]
  by_cases h1 : 16 * q ≤ i
  · by_cases h2 : i < 16 * q + 16
    · simp [show ¬i < 16 * q by omega, show i - 16 * q < 16 by omega, show i - 16 * q < 64 by omega, h1, h2]
    · simp [show ¬i - 16 * q < 16 by omega, h2, BitVec.getLsbD_of_ge imm (i - 16 * q) (by omega)]
  · simp [h1, Nat.lt_of_not_le h1]
/-- The table of conditions: every code but the reserved one has a truth value. -/
theorem condHolds_eq_table {cond : BitVec 4} (h : cond ≠ 15) (fl : Flags) :
    condHolds cond fl = some ([fl.z, !fl.z, fl.n != fl.v, fl.n == fl.v, fl.z || fl.n != fl.v, !fl.z && fl.n == fl.v, !fl.c, fl.c, !fl.c || fl.z,
      fl.c && !fl.z, fl.n, !fl.n, fl.v, !fl.v, true].getD cond.toNat false) := by
  have hc : cond.toNat < 15 := by
    have hlt := cond.isLt
    have hne : cond.toNat ≠ 15 := fun e => h (BitVec.eq_of_toNat_eq e)
    omega
  unfold condHolds
  interval_cases cond.toNat <;> rfl

end Sys2Proof.Machine
end

section
/-! Integer instructions of a core that issues them undisturbed (03 R71 to R77): the register they write, FLAGS, and that nothing else of the
device changes. -/

namespace Sys2Proof.Machine

theorem setFlags_eq (f : Bool) (fl : Flags) (r : Regs) : setFlags f fl r = { r with flags := if f then fl else r.flags } := by
  cases f <;> rfl
theorem wroteG_writeG (rd : GReg) (w : Word64) (r : Regs) : WroteG rd w r.flags r (writeG r rd w) :=
  ⟨fun j => readG_writeG r rd j w, writeG_flags .., writeG_v .., writeG_k .., writeG_csr ..⟩
theorem wroteG_setFlags_writeG (rd : GReg) (w : Word64) (f : Bool) (fl : Flags) (r : Regs) :
    WroteG rd w (if f then fl else r.flags) r (setFlags f fl (writeG r rd w)) := by
  rw [setFlags_eq, writeG_flags]
  exact ⟨fun j => readG_writeG r rd j w, rfl, writeG_v .., writeG_k .., writeG_csr ..⟩
/-- A result whose flags are those of a logical one (03 R71). -/
theorem logic_of_eq {x w : Word64} (h : x = w) : (x, flagsLogic x) = (w, resultFlags w false) := by
  subst h
  rfl

section
variable {lc : LC} {s u : State} (h : Issues lc s u) {i : Instr} {insn : Word32} {body : State → Eff}
include h

/-- An instruction whose body changes registers alone, the CSRs kept. -/
theorem Issues.executes_doneRegs {ser : Bool} {g : Regs → Regs} {R : Regs → Regs → Prop} (hx : exec i s = .next (runInsn lc ser insn body s))
    (hb : body u = doneRegs lc g u) (hcsr : (g (coreOf u lc.val).regs).csr = (coreOf u lc.val).regs.csr)
    (hR : R (coreOf u lc.val).regs (g (coreOf u lc.val).regs)) : Executes lc s u i R :=
  ⟨_, hx, _, hR, runInsn_doneRegs h ser insn body g hb (by rw [csr, csr, hcsr])⟩

variable {rd ra rb : GReg} {w : Word64} {fl : Flags} {f : Bool} {op : IntOp}

/-- An instruction that writes gd alone. -/
theorem Issues.executes_writeG {ser : Bool} {v : Regs → Word64} (hx : exec i s = .next (runInsn lc ser insn body s))
    (hb : body u = doneRegs lc (fun r => writeG r rd (v r)) u) (hv : v (coreOf u lc.val).regs = w) :
    Executes lc s u i (WroteG rd w (coreOf u lc.val).regs.flags) :=
  h.executes_doneRegs hx hb (writeG_csr ..) (hv ▸ wroteG_writeG ..)
/-- An instruction that writes the result `x.1` to gd and in the flag-setting form `x.2` to FLAGS. -/
theorem Issues.executes_result {x : Word64 × Flags} (hx : exec i s = .next (runInsn lc false insn body s))
    (hb : body u = doneRegs lc (fun r => setFlags f x.2 (writeG r rd x.1)) u) (hop : x = (w, fl)) :
    Executes lc s u i (WroteG rd w (if f then fl else (coreOf u lc.val).regs.flags)) := by
  subst hop
  exact h.executes_doneRegs hx hb (by rw [setFlags_eq, writeG_csr]) (wroteG_setFlags_writeG ..)
theorem Issues.executes_binary {major fn : Nat} (hx : exec i s = intReg op major fn false lc f rd ra rb s)
    (hop : intOp op (readG (coreOf u lc.val).regs ra) (readG (coreOf u lc.val).regs rb) (coreOf u lc.val).regs.flags.c = (w, fl)) :
    Executes lc s u i (WroteG rd w (if f then fl else (coreOf u lc.val).regs.flags)) :=
  h.executes_result hx rfl hop
theorem Issues.executes_unary {major fn : Nat} (hx : exec i s = intReg op major fn true lc f rd ra 0 s)
    (hop : intOp op (readG (coreOf u lc.val).regs ra) 0 (coreOf u lc.val).regs.flags.c = (w, fl)) :
    Executes lc s u i (WroteG rd w (if f then fl else (coreOf u lc.val).regs.flags)) :=
  h.executes_result hx rfl hop
theorem Issues.executes_intImm {major : Nat} {x : Bool} {imm : BitVec 14} (hx : exec i s = intImm op major lc f x rd ra imm s)
    (hop : intOp op (readG (coreOf u lc.val).regs ra) (immExt x imm) (coreOf u lc.val).regs.flags.c = (w, fl)) :
    Executes lc s u i (WroteG rd w (if f then fl else (coreOf u lc.val).regs.flags)) :=
  h.executes_result hx rfl hop
/-- The amount of a shift by an immediate is below 64. -/
theorem Issues.executes_shiftImm {sel : Nat} {n : BitVec 6} (hx : exec i s = shiftImm op sel lc f false rd ra 0 n s)
    (hop : intOp op (readG (coreOf u lc.val).regs ra) (n.setWidth 64) (coreOf u lc.val).regs.flags.c = (w, fl)) :
    Executes lc s u i (WroteG rd w (if f then fl else (coreOf u lc.val).regs.flags)) :=
  h.executes_result hx rfl hop
theorem Issues.executes_sel {cond : BitVec 4} {b : Bool} (hc : condHolds cond (coreOf u lc.val).regs.flags = some b) :
    Executes lc s u (.sel lc false rd ra rb 0 cond)
      (WroteG rd (if b then readG (coreOf u lc.val).regs ra else readG (coreOf u lc.val).regs rb) (coreOf u lc.val).regs.flags) := by
  refine h.executes_writeG (v := fun r => if b then readG r ra else readG r rb) rfl ?_ rfl
  simp only [regsOf, hc]
  rfl
end

theorem shiftAmt_setWidth (n : BitVec 6) : shiftAmt (n.setWidth 64) = n.toNat := by
  have hn := n.isLt
  rw [shiftAmt, BitVec.toNat_setWidth]
  omega

/-- Settles O2: each form is `intOp` of its registers in a core that issues it, and `intOp` gives the results of R71 to R73. -/
theorem integerRegisterFormsGiveResults : Obligations.IntegerRegisterFormsGiveResults := by
  intro lc s u f rd ra rb h r a b c gives plain
  have low (k : Nat) (hk : k ≤ 64) : a.setWidth k = a.extractLsb' 0 k := BitVec.setWidth_eq_extractLsb' hk
  refine ⟨h.executes_binary rfl (addc_false a b), h.executes_binary rfl (addc_eq a b c), h.executes_binary rfl (addc_not_true a b),
    h.executes_binary rfl (addc_not_eq a b c), h.executes_binary rfl (logic_of_eq rfl), h.executes_binary rfl (logic_of_eq rfl),
    h.executes_binary rfl (logic_of_eq rfl), h.executes_binary rfl (logic_of_eq rfl), h.executes_binary rfl (logic_of_eq rfl),
    h.executes_binary rfl (logic_of_eq rfl), h.executes_binary rfl rfl, h.executes_binary rfl (logic_of_eq (mulHS_eq a b)),
    h.executes_binary rfl (logic_of_eq rfl), fun hz => ?zeroDivisor, fun hnz => ?divisor,
    h.executes_binary rfl (logic_of_eq rfl), h.executes_binary rfl (logic_of_eq rfl), h.executes_binary rfl (logic_of_eq rfl),
    h.executes_binary rfl (logic_of_eq rfl), h.executes_unary rfl (logic_of_eq (countLeading_eq_clz a)),
    h.executes_unary rfl (logic_of_eq (countTrailing_eq_ctz a)),
    h.executes_unary rfl (logic_of_eq (congrArg (BitVec.ofNat 64) (countOnes_eq_countP a 64))), h.executes_unary rfl (logic_of_eq rfl),
    fun w hw => h.executes_unary rfl (logic_of_eq (byteSwap_eq hw)),
    h.executes_unary rfl (logic_of_eq (congrArg (BitVec.signExtend 64) (low 8 (by decide)))),
    h.executes_unary rfl (logic_of_eq (congrArg (BitVec.signExtend 64) (low 16 (by decide)))),
    h.executes_unary rfl (logic_of_eq (congrArg (BitVec.signExtend 64) (low 32 (by decide)))),
    h.executes_unary rfl (logic_of_eq (congrArg (BitVec.setWidth 64) (low 8 (by decide)))),
    h.executes_unary rfl (logic_of_eq (congrArg (BitVec.setWidth 64) (low 16 (by decide)))),
    h.executes_unary rfl (logic_of_eq (congrArg (BitVec.setWidth 64) (low 32 (by decide))))⟩
  case zeroDivisor =>
    exact ⟨h.executes_binary rfl (intOp_div_zero c hz), h.executes_binary rfl (intOp_divu_zero c hz), h.executes_binary rfl (intOp_rem_zero c hz),
      h.executes_binary rfl (intOp_remu_zero c hz)⟩
  case divisor =>
    exact ⟨h.executes_binary rfl (intOp_divu c hnz), h.executes_binary rfl (intOp_remu c hnz),
      fun ha hb => ⟨h.executes_binary rfl (intOp_div_overflow c ha hb), h.executes_binary rfl (intOp_rem_overflow c ha hb)⟩,
      fun ho => ⟨h.executes_binary rfl (intOp_div c hnz ho), h.executes_binary rfl (intOp_rem c hnz ho)⟩⟩

/-- Settles O3: the immediate forms are `intOp` of the extended immediate; the others write gd alone. -/
theorem immediateConstantAndSelectFormsGiveResults : Obligations.ImmediateConstantAndSelectFormsGiveResults := by
  intro lc s u f x rd ra rb imm n h r a b gives plain puts
  have hn := shiftAmt_setWidth n
  refine ⟨h.executes_intImm rfl (addc_false a b), h.executes_intImm rfl (addc_not_true a b), h.executes_intImm rfl (logic_of_eq rfl),
    h.executes_intImm rfl (logic_of_eq rfl), h.executes_intImm rfl (logic_of_eq rfl),
    h.executes_shiftImm rfl (logic_of_eq (congrArg (a <<< ·) hn)), h.executes_shiftImm rfl (logic_of_eq (congrArg (a >>> ·) hn)),
    h.executes_shiftImm rfl (logic_of_eq (congrArg a.sshiftRight hn)), h.executes_shiftImm rfl (logic_of_eq (congrArg a.rotateRight hn)),
    fun q imm16 hq => ⟨?setq, putQuarter (readG r rd) imm16 q.toNat, ?bits, ?putq⟩, fun off => h.executes_writeG rfl rfl rfl,
    fun cond hc => h.executes_sel (condHolds_eq_table hc _)⟩
  case setq => exact h.executes_writeG rfl (if_neg (Nat.not_le.2 hq)) rfl
  case bits => exact fun i hi => getLsbD_putQuarter _ _ _ i hi
  case putq => exact h.executes_writeG rfl (if_neg (Nat.not_le.2 hq)) rfl

end Sys2Proof.Machine
end

section
/-! Lanes of a vector and of what the lane-wise operations give (05 R123, R125), and the integer operations of one lane (05 R128): each operation
of the model on lanes as numbers against the bit vector operation, for every element width. -/

namespace Sys2Proof.Machine

/-! ### The lanes of a vector (05 R123) -/

theorem lanesAux_eq_map (w x n : Nat) : lanesAux w x n = (List.range n).map fun i => x / 2 ^ (w * i) % 2 ^ w := by
  induction n generalizing x with
  | zero => rfl
  | succ n ih =>
    rw [lanesAux, ih, List.range_succ_eq_map, List.map_cons, List.map_map]
    simp only [Nat.mul_zero, Nat.pow_zero, Nat.div_one, Nat.div_div_eq_div_mul, Function.comp_def, Nat.succ_eq_add_one, Nat.mul_add_one,
      Nat.pow_add, Nat.mul_comm]
theorem lanesOf_eq_map (w : Nat) (v : Vec) : lanesOf w v = (List.range (512 / w)).map fun i => (lane w v i).toNat := by
  simp only [lanesOf, laneCount, lanesAux_eq_map, lane, BitVec.extractLsb'_toNat, Nat.shiftRight_eq_div_pow]
theorem zipWith_lanesOf (f : Nat → Nat → Nat) (w : Nat) (a b : Vec) :
    List.zipWith f (lanesOf w a) (lanesOf w b) = (List.range (512 / w)).map fun i => f (lane w a i).toNat (lane w b i).toNat := by
  rw [lanesOf_eq_map, lanesOf_eq_map, List.zipWith_map, List.zipWith_self]
theorem testBit_packNat (w : Nat) (xs : List Nat) (i j : Nat) (hj : j < w) :
    (packNat w xs).testBit (w * i + j) = (xs.getD i 0).testBit j := by
  induction xs generalizing i with
  | nil => simp [packNat]
  | cons x xs ih =>
    rw [packNat, Nat.add_comm, Nat.testBit_two_pow_mul_add _ (Nat.mod_lt _ (Nat.two_pow_pos w))]
    cases i with
    | zero => simp [hj]
    | succ i =>
      rw [if_neg (by rw [Nat.mul_add_one]; omega), List.getD_cons_succ, ← ih, show w * (i + 1) + j - w = w * i + j by rw [Nat.mul_add_one]; omega]
/-- A lane of a vector built from its lanes; a lane that the vector has lies within its 512 bits. -/
theorem lane_vecOf {w i : Nat} (xs : List Nat) (hi : i < 512 / w) : lane w (vecOf w xs) i = BitVec.ofNat w (xs.getD i 0) := by
  have hw : w * (i + 1) ≤ 512 := (Nat.mul_le_mul_left w hi).trans (Nat.mul_div_le 512 w)
  apply BitVec.eq_of_getLsbD_eq
  intro j hj
  have hin : w * i + j < 512 := by rw [Nat.mul_add_one] at hw; omega
  simp only [lane, vecOf, BitVec.getLsbD_extractLsb', BitVec.getLsbD_ofNat, testBit_packNat w xs i j hj, hj, hin, decide_true, Bool.true_and]

/-! ### Results under a mask (05 R125) -/

theorem maskLanes_map_range' (mask : Word64) (z : Bool) (o r : Nat → Nat) (n len : Nat) :
    maskLanes mask z n ((List.range' n len).map o) ((List.range' n len).map r) =
      (List.range' n len).map fun i => if mask.getLsbD i then r i else if z then 0 else o i := by
  induction len generalizing n with
  | zero => rfl
  | succ len ih =>
    simp only [List.range'_succ, List.map_cons, maskLanes, ih]
    rfl
/-- What is written under a mask: a result `r i` in each active lane. -/
theorem maskedLanes_vecOf_maskLanes {w : Nat} (mask : Word64) (z : Bool) (old : Vec) {r : Nat → Nat} {f : Nat → BitVec w}
    (h : ∀ i, BitVec.ofNat w (r i) = f i) :
    MaskedLanes w mask z f old (vecOf w (maskLanes mask z 0 (lanesOf w old) ((List.range (512 / w)).map r))) := by
  intro i hi
  rw [lanesOf_eq_map, List.range_eq_range', maskLanes_map_range', lane_vecOf _ hi, ← List.range_eq_range',
    List.getD_eq_getElem _ _ (by simpa using hi), List.getElem_map, List.getElem_range]
  cases mask.getLsbD i
  · cases z <;> simp
  · exact h i
theorem maskedLanes_vInt {w : Nat} {op : VIntOp} {f : BitVec w → BitVec w → BitVec w} (mask : Word64) (z : Bool) (old a b : Vec)
    (hop : ∀ x y : BitVec w, BitVec.ofNat w (vIntLane w op x.toNat y.toNat) = f x y) :
    MaskedLanes w mask z (fun j => f (lane w a j) (lane w b j)) old (vInt w op mask z old a b) := by
  rw [vInt, zipWith_lanesOf]
  exact maskedLanes_vecOf_maskLanes mask z old fun i => hop _ _

/-! ### One lane of an integer operation (05 R128) -/

@[simp] theorem signedLane_toNat {w : Nat} (a : BitVec w) : signedLane w a.toNat = a.toInt := by
  rw [signedLane, BitVec.toInt_eq_msb_cond, BitVec.msb_eq_getLsbD_last, BitVec.testBit_toNat]
  norm_cast
theorem ofNat_mod_two_pow (w n : Nat) : BitVec.ofNat w (n % 2 ^ w) = BitVec.ofNat w n :=
  BitVec.eq_of_toNat_eq (by simp)
theorem ofNat_laneOfInt (w : Nat) (i : Int) : BitVec.ofNat w (laneOfInt w i) = BitVec.ofInt w i := by
  apply BitVec.eq_of_toNat_eq
  rw [laneOfInt, BitVec.toNat_ofNat, BitVec.toNat_ofInt]
  refine Nat.mod_eq_of_lt ?_
  have := Int.emod_lt_of_pos i (b := 2 ^ w) (by positivity)
  have := Int.emod_nonneg i (b := 2 ^ w) (by positivity)
  zify
  omega

section
variable {w : Nat} (a b : BitVec w)

theorem ofNat_vIntLane_add : BitVec.ofNat w (vIntLane w .add a.toNat b.toNat) = a + b := by
  simp [vIntLane, ofNat_mod_two_pow, BitVec.ofNat_add]
theorem ofNat_vIntLane_sub : BitVec.ofNat w (vIntLane w .sub a.toNat b.toNat) = a - b := by
  have hb := b.isLt
  rw [vIntLane, ofNat_mod_two_pow, BitVec.sub_def, show a.toNat + 2 ^ w - b.toNat = 2 ^ w - b.toNat + a.toNat by omega]
theorem ofNat_vIntLane_mullo : BitVec.ofNat w (vIntLane w .mullo a.toNat b.toNat) = a * b := by
  simp [vIntLane, ofNat_mod_two_pow, BitVec.ofNat_mul]
theorem ofNat_vIntLane_mulhs : BitVec.ofNat w (vIntLane w .mulhs a.toNat b.toNat) = BitVec.ofInt w (a.toInt * b.toInt / 2 ^ w) := by
  simp [vIntLane, ofNat_laneOfInt]
theorem ofNat_vIntLane_mulhu : BitVec.ofNat w (vIntLane w .mulhu a.toNat b.toNat) = BitVec.ofNat w (a.toNat * b.toNat / 2 ^ w) := rfl
theorem ofNat_vIntLane_and : BitVec.ofNat w (vIntLane w .and a.toNat b.toNat) = a &&& b := by
  simp [vIntLane]
theorem ofNat_vIntLane_andn : BitVec.ofNat w (vIntLane w .andn a.toNat b.toNat) = a &&& ~~~b := by
  rw [vIntLane, ← BitVec.toNat_not, ← BitVec.toNat_and, BitVec.ofNat_toNat, BitVec.setWidth_eq]
theorem ofNat_vIntLane_or : BitVec.ofNat w (vIntLane w .or a.toNat b.toNat) = a ||| b := by
  simp [vIntLane]
theorem ofNat_vIntLane_xor : BitVec.ofNat w (vIntLane w .xor a.toNat b.toNat) = a ^^^ b := by
  simp [vIntLane]
theorem ofNat_vIntLane_sllv : BitVec.ofNat w (vIntLane w .sllv a.toNat b.toNat) = a <<< b.toNat := by
  by_cases h : w ≤ b.toNat
  · simp [vIntLane, h]
  · rw [vIntLane, if_neg h, ofNat_mod_two_pow, ← Nat.shiftLeft_eq]
    rfl
theorem ofNat_vIntLane_srlv : BitVec.ofNat w (vIntLane w .srlv a.toNat b.toNat) = a >>> b.toNat := by
  by_cases h : w ≤ b.toNat
  · rw [vIntLane, if_pos h, BitVec.ushiftRight_eq_zero h]
  · rw [vIntLane, if_neg h, ← Nat.shiftRight_eq_div_pow, ← BitVec.toNat_ushiftRight, BitVec.ofNat_toNat, BitVec.setWidth_eq]
/-- A shift by the width or more leaves sign copies alone. -/
theorem toInt_ediv_two_pow_of_le {n : Nat} (h : w ≤ n) : a.toInt / 2 ^ n = if a.toInt < 0 then -1 else 0 := by
  have hp : (2 : Int) ^ w ≤ 2 ^ n := pow_le_pow_right₀ (by norm_num) h
  have hlt := a.two_mul_toInt_lt
  have hge := a.le_two_mul_toInt
  split
  case isTrue hn => exact Int.ediv_eq_neg_one_of_neg_of_le hn (by omega)
  case isFalse hn => exact Int.ediv_eq_zero_of_lt (by omega) (by omega)
theorem ofNat_vIntLane_srav : BitVec.ofNat w (vIntLane w .srav a.toNat b.toNat) = a.sshiftRight b.toNat := by
  rw [vIntLane, signedLane_toNat, ofNat_laneOfInt, BitVec.sshiftRight, Int.shiftRight_eq_div_pow]
  by_cases h : w ≤ b.toNat
  · rw [Nat.min_eq_right h, toInt_ediv_two_pow_of_le a le_rfl, Nat.cast_pow, Nat.cast_ofNat, toInt_ediv_two_pow_of_le a h]
  · rw [Nat.min_eq_left (Nat.le_of_not_le h)]
    rfl
theorem ofNat_vIntLane_smin : BitVec.ofNat w (vIntLane w .smin a.toNat b.toNat) = if a.sle b then a else b := by
  simp only [vIntLane, signedLane_toNat, BitVec.sle_iff_toInt_le, apply_ite (BitVec.ofNat w), BitVec.ofNat_toNat, BitVec.setWidth_eq]
theorem ofNat_vIntLane_smax : BitVec.ofNat w (vIntLane w .smax a.toNat b.toNat) = if a.sle b then b else a := by
  simp only [vIntLane, signedLane_toNat, BitVec.sle_iff_toInt_le, apply_ite (BitVec.ofNat w), BitVec.ofNat_toNat, BitVec.setWidth_eq]
theorem ofNat_vIntLane_umin : BitVec.ofNat w (vIntLane w .umin a.toNat b.toNat) = if a.ule b then a else b := by
  simp only [vIntLane, min_def, BitVec.ule_iff_toNat_le, apply_ite (BitVec.ofNat w), BitVec.ofNat_toNat, BitVec.setWidth_eq]
theorem ofNat_vIntLane_umax : BitVec.ofNat w (vIntLane w .umax a.toNat b.toNat) = if a.ule b then b else a := by
  simp only [vIntLane, max_def, BitVec.ule_iff_toNat_le, apply_ite (BitVec.ofNat w), BitVec.ofNat_toNat, BitVec.setWidth_eq]
theorem ofNat_vIntLane_abs : BitVec.ofNat w (vIntLane w .abs a.toNat b.toNat) = if a.slt 0 then -a else a := by
  rw [vIntLane, signedLane_toNat, ofNat_laneOfInt]
  by_cases h : a.toInt < 0
  · rw [if_pos (by simpa [BitVec.slt_iff_toInt_lt] using h), Int.ofNat_natAbs_of_nonpos h.le, BitVec.ofInt_neg, BitVec.ofInt_toInt]
  · rw [if_neg (by simpa [BitVec.slt_iff_toInt_lt] using h), Int.natAbs_of_nonneg (Int.not_lt.1 h), BitVec.ofInt_toInt]
end

end Sys2Proof.Machine
end

section
/-! Vector instructions of a core that issues them undisturbed (05 R125; 07 R175): the register they write, and the words they refuse. -/

namespace Sys2Proof.Machine

theorem vectorOn_iff (r : Regs) : VectorOn r ↔ vectorOff r = false := by simp [VectorOn, vectorOff]
theorem not_vectorOn_iff (r : Regs) : ¬VectorOn r ↔ vectorOff r = true := by rw [vectorOn_iff, Bool.not_eq_false]
theorem wroteV_writeV (vd : VReg) (x : Vec) (r : Regs) : WroteV vd x r (writeV r vd x) :=
  ⟨fun j => readV_writeV r vd j x, writeV_flags .., writeV_g .., writeV_k .., writeV_csr ..⟩

section
variable {lc : LC} {s u : State} (h : Issues lc s u) {i : Instr} {op vfn : Nat} {vd va vb : VReg} {k : KReg} {z : Bool} {ew : BitVec 2} {bad : Bool}
include h

/-- A vector instruction of no reserved word that writes vd alone. -/
theorem Issues.executesV_vecTo {f : Regs → Vec} {P : Vec → Vec → Prop} (hon : VectorOn (coreOf u lc.val).regs) (hbad : bad = false)
    (hx : exec i s = vecInsn op vfn lc vd va vb k z ew bad (vecTo lc vd f) s)
    (hP : P (readV (coreOf u lc.val).regs vd) (f (coreOf u lc.val).regs)) : ExecutesV lc s u i vd P := by
  refine ⟨_, hx, _, ⟨_, hP, wroteV_writeV vd _ _⟩, runInsn_regs h false _ _ (fun r => writeV r vd (f r)) _ [vecEv u lc] ?_ ?_ rfl⟩
  · simp only [regsOf, (vectorOn_iff _).1 hon, hbad, Bool.false_eq_true, if_false]
    rfl
  · exact fun e he => List.mem_singleton.1 he ▸ rfl
/-- A vector instruction with a field that holds a reserved value. -/
theorem Issues.illegal_vecInsn {body : State → Eff} (hon : VectorOn (coreOf u lc.val).regs) (hbad : bad = true)
    (hx : exec i s = vecInsn op vfn lc vd va vb k z ew bad body s) : Illegal lc s u i (encV op vd va vb k z ew vfn) := by
  refine ⟨_, hx, runInsn_raises h false _ _ { cause := excIllegal } ?_ rfl (by decide)⟩
  simp only [regsOf, (vectorOn_iff _).1 hon, hbad, Bool.false_eq_true, if_false, if_true]
  rfl
/-- With the vector unit off no field is looked at (07 R175). -/
theorem Issues.raises_vecInsn_off {body : State → Eff} (hoff : ¬VectorOn (coreOf u lc.val).regs)
    (hx : exec i s = vecInsn op vfn lc vd va vb k z ew bad body s) :
    Raises lc s u i (encV op vd va vb k z ew vfn) 1 1 0 0 (coreOf u lc.val).pc := by
  refine ⟨_, hx, runInsn_raises h false _ _ { cause := excIllegal, reason := 1 } ?_ rfl (by decide)⟩
  simp only [regsOf, (not_vectorOn_iff _).1 hoff, if_true]

/-- An integer lane instruction over lanes of `w` bits. -/
theorem Issues.executesV_vecInt {op : VIntOp} {unary : Bool} {w : Nat} {f : BitVec w → BitVec w → BitVec w}
    (hon : VectorOn (coreOf u lc.val).regs) (hew : ew ≠ 3) (hvb : unary = true → vb = 0) (hw : ewBits ew = w)
    (hx : exec i s = vecInt op vfn unary lc vd va vb k z ew s)
    (hop : ∀ x y : BitVec w, BitVec.ofNat w (vIntLane w op x.toNat y.toNat) = f x y) :
    ExecutesV lc s u i vd (MaskedLanes w (readK (coreOf u lc.val).regs k) z fun j =>
      f (lane w (readV (coreOf u lc.val).regs va) j) (lane w (readV (coreOf u lc.val).regs vb) j)) := by
  subst hw
  refine h.executesV_vecTo hon ?_ hx (maskedLanes_vInt _ z _ _ _ hop)
  simpa using ⟨hew, hvb⟩
end

theorem ewBits_eq (ew : BitVec 2) : ewBits ew = if ew = 0 then 64 else if ew = 1 then 32 else 16 := by
  revert ew
  decide

/-- Settles O15: each form is `vInt` of its registers in a core that issues it, and `vIntLane` gives the lane results of R128. -/
theorem vectorIntegerLanesGiveResults : Obligations.VectorIntegerLanesGiveResults := by
  intro lc s u vd va vb k z ew h r w word forms gives
  have hforms : ∀ e ∈ forms, ∃ op unary, exec e.1 s = vecInt op e.2 unary lc vd va vb k z ew s := by
    simp only [forms, List.forall_mem_cons]
    exact ⟨⟨_, _, rfl⟩, ⟨_, _, rfl⟩, ⟨_, _, rfl⟩, ⟨_, _, rfl⟩, ⟨_, _, rfl⟩, ⟨_, _, rfl⟩, ⟨_, _, rfl⟩, ⟨_, _, rfl⟩, ⟨_, _, rfl⟩,
      ⟨_, _, rfl⟩, ⟨_, _, rfl⟩, ⟨_, _, rfl⟩, ⟨_, _, rfl⟩, ⟨_, _, rfl⟩, ⟨_, _, rfl⟩, ⟨_, _, rfl⟩, ⟨_, _, rfl⟩, by simp⟩
  refine ⟨fun hon hew => ?results, fun hon hew e he => ?reservedWidth, fun hoff e he => ?unitOff⟩
  case results =>
    have binary {i : Instr} {op : VIntOp} {vfn : Nat} {f : BitVec w → BitVec w → BitVec w}
        (hx : exec i s = vecInt op vfn false lc vd va vb k z ew s)
        (hop : ∀ x y : BitVec w, BitVec.ofNat w (vIntLane w op x.toNat y.toNat) = f x y) : gives i f :=
      h.executesV_vecInt (unary := false) hon hew nofun (ewBits_eq ew) hx hop
    refine ⟨binary rfl ofNat_vIntLane_add, binary rfl ofNat_vIntLane_sub, binary rfl ofNat_vIntLane_mullo, binary rfl ofNat_vIntLane_mulhs,
      binary rfl ofNat_vIntLane_mulhu, binary rfl ofNat_vIntLane_and, binary rfl ofNat_vIntLane_andn, binary rfl ofNat_vIntLane_or,
      binary rfl ofNat_vIntLane_xor, binary rfl ofNat_vIntLane_sllv, binary rfl ofNat_vIntLane_srlv, binary rfl ofNat_vIntLane_srav,
      binary rfl ofNat_vIntLane_smin, binary rfl ofNat_vIntLane_smax, binary rfl ofNat_vIntLane_umin, binary rfl ofNat_vIntLane_umax,
      fun hvb => ?abs, fun hvb => ?absReserved⟩
    case abs => exact h.executesV_vecInt hon hew (fun _ => hvb) (ewBits_eq ew) rfl ofNat_vIntLane_abs
    case absReserved => exact h.illegal_vecInsn hon (by simp [hvb]) rfl
  case reservedWidth =>
    obtain ⟨op, unary, hx⟩ := hforms e he
    exact h.illegal_vecInsn hon (by simp [hew]) hx
  case unitOff =>
    obtain ⟨op, unary, hx⟩ := hforms e he
    exact h.raises_vecInsn_off hoff hx

end Sys2Proof.Machine
end

section
/-! Gateway entry and return (19 R457 to R460): the change of level with its exchange of stack registers, and what the four gateway instructions
do in a core that issues them undisturbed. -/

namespace Sys2Proof.Machine

/-! ### The registers of a change of level (19 R458 steps 2 and 3, R460) -/

/-- `q` is `r` at level `n`, g31 exchanged with the K stack register. -/
structure AtLevelSwapped (n : Nat) (r q : Regs) : Prop where
  level : levelOf q = n
  write : (csr q 0x400).getLsbD 7 = decide (n = 2)
  stack : readG q 31 = csr r 0x809
  saved : csr q 0x809 = readG r 31
  general : ∀ i, i ≠ 31 → readG q i = readG r i
  flags : q.flags = r.flags
  vectors : q.v = r.v
  masks : q.k = r.k
  csrs : ∀ m, m ≠ 0x400 → m ≠ 0x809 → csr q m = csr r m

theorem write_setLevel (n : Nat) (r : Regs) : (csr (setLevel n r) 0x400).getLsbD 7 = decide (n = 2) := by
  rw [setLevel, csr_setCsr_same, getLsbD_putFld _ _ _ (by omega) (by omega), if_pos (by omega)]
  cases decide (n = 2) <;> rfl
theorem atLevelSwapped_setLevel {n : Nat} (hn : n < 4) (r : Regs) : AtLevelSwapped n r (setLevel n (swapSp 0x809 r)) where
  level := levelOf_setLevel hn _
  write := write_setLevel n _
  stack := by rw [readG_setLevel, readG_swapSp, if_pos rfl]
  saved := by rw [csr_setLevel _ (by decide), csr_swapSp, if_pos rfl]
  general i hi := by rw [readG_setLevel, readG_swapSp, if_neg hi]
  flags := writeG_flags ..
  vectors := writeG_v ..
  masks := writeG_k ..
  csrs m h1 h2 := by rw [csr_setLevel _ h1, csr_swapSp, if_neg h2]

/-! ### What an instruction leaves of its core -/

/-- With the counters frozen no speculative count passes (23 R565). -/
theorem pmTickAll_frozen {lc : Nat} {s : State} (h : (csr (coreOf s lc).regs 0x522).getLsbD 0 = true) : pmTickAll lc s = s := by
  have hc : cycRuns (coreOf s lc) = false := by simp [cycRuns, pmFrozen, h]
  have ht : ∀ i, pmTick lc i s = s := fun i => by simp [pmTick, cycTick, hc]
  rw [pmTickAll]
  induction List.range 9 with
  | nil => rfl
  | cons i l ih => rw [List.foldl_cons, ht, ih]

section
variable {lc : LC} {s u : State} (h : Issues lc s u) {ser : Bool} {insn : Word32} {body : State → Eff}
include h

/-- An instruction that changes registers and the gateway call of its core. -/
theorem Issues.coreNow_updCore {f : Core → Core} {q : Regs} {g : GateCall} {pc pc' : Word64} (hb : body u = .ok (updCore lc.val f u) pc [])
    (hf : f (coreOf u lc.val) = { coreOf u lc.val with regs := q, gate := g, pc := pc' }) (hq : Still q (levelOf (coreOf u lc.val).regs)) :
    CoreNow lc u (runInsn lc ser insn body s) { coreOf u lc.val with regs := q, gate := g, pc := pc } := by
  obtain ⟨page, hp⟩ := runInsn_issues h ser insn body
  have hc : coreOf (updCore lc.val f u) lc.val = { coreOf u lc.val with regs := q, gate := g, pc := pc' } := by rw [coreOf_updCore_same, hf]
  have hg : (coreOf (updCore lc.val f u) lc.val).group = none := by rw [hc]; exact h.core_group
  have hevents : ∀ e ∈ evOne (coreOf u lc.val) 1 :: ((if ser then [evOne (coreOf u lc.val) 0x70] else []) ++ []),
      e.level = levelOf (coreOf u lc.val).regs := by
    cases ser <;> simp [evOne, plainEvent]
  rw [hp, hb]
  simp only [oweFetch_alone hg]
  rw [retire_plain hg (by rw [hc]; exact h.core_shadows) (by rw [hc]; exact h.core_unarmed) fun e he => by rw [hc, hevents e he]; exact hq, hc]
  refine ⟨coreOf_setCore_same .., fun n hn => ?_, rfl⟩
  rw [coreOf_setCore_other _ _ hn, coreOf_updCore_other _ _ hn]

/-- A change of level, the stack registers exchanged, from the registers `r`. -/
theorem Issues.completes_levelChange {i : Instr} {f : Core → Core} {n : Nat} {r : Regs} {g : GateCall} {pc pc' : Word64}
    (hx : exec i s = .next (runInsn lc ser insn body s)) (hb : body u = .ok (updCore lc.val f u) pc [])
    (hf : f (coreOf u lc.val) = { coreOf u lc.val with regs := setLevel n (swapSp 0x809 r), gate := g, pc := pc' }) (hn : n < 4)
    (hr : Still r (levelOf (coreOf u lc.val).regs)) :
    Completes i s fun t => CoreNow lc u t { coreOf u lc.val with regs := (coreOf t lc.val).regs, gate := g, pc := pc } ∧
      AtLevelSwapped n r (coreOf t lc.val).regs := by
  have hq := atLevelSwapped_setLevel hn r
  have hstill : Still (setLevel n (swapSp 0x809 r)) (levelOf (coreOf u lc.val).regs) := by
    rw [Still, hq.csrs _ (by decide) (by decide)]
    exact hr
  have ht := h.coreNow_updCore (ser := ser) (insn := insn) hb hf hstill
  refine ⟨_, hx, ?_⟩
  beta_reduce
  rw [ht.1]
  exact ⟨ht, hq⟩

/-- An exception that reports its cause, a reason and an address alone. -/
theorem Issues.raises_exc {i : Instr} {cause reason : Nat} {addr : Word64} (hx : exec i s = .next (runInsn lc ser insn body s))
    (hb : body u = .exc { cause := cause, addr := addr, reason := reason } u) (hc : cause < 15) (hr : reason < 256) :
    Raises lc s u i insn cause reason 0 addr (coreOf u lc.val).pc := by
  have hi : causeInfo { cause := cause, addr := addr, reason := reason } false = 0 * 2 ^ 38 + reason * 256 + cause := by
    simp only [causeInfo, Option.isSome_none, Option.getD_none, Bool.toNat_false]
    omega
  have ht := runInsn_raises h ser insn body _ hb rfl (show cause ≠ 15 by omega)
  rw [hi, if_neg (show cause ≠ excSvc from Nat.ne_of_lt (hc.trans (by decide)))] at ht
  exact ⟨_, hx, ht⟩

/-! ### The gateway instructions (19 R457) -/

variable {rv : GReg}

theorem Issues.raises_gate_misaligned (hva : (readG (coreOf u lc.val).regs rv).toNat % 4 ≠ 0) :
    Raises lc s u (.gate lc 0 rv 0) (encS 0x3E 0 rv 2 0) 3 0 0 (readG (coreOf u lc.val).regs rv) (coreOf u lc.val).pc := by
  refine h.raises_exc rfl ?_ (by decide) (by decide)
  simp [aligned, regsOf, hva, excAlign]
theorem Issues.raises_gate_atK (hva : (readG (coreOf u lc.val).regs rv).toNat % 4 = 0) (hl : levelOf (coreOf u lc.val).regs = 2) :
    Raises lc s u (.gate lc 0 rv 0) (encS 0x3E 0 rv 2 0) 11 4 0 (readG (coreOf u lc.val).regs rv) (coreOf u lc.val).pc := by
  refine h.raises_exc rfl ?_ (by decide) (by decide)
  simp [aligned, regsOf, hva, hl, excGate]
theorem Issues.raises_gate_refused {n : Nat} (hn : n < 4) (hva : (readG (coreOf u lc.val).regs rv).toNat % 4 = 0)
    (hl : levelOf (coreOf u lc.val).regs ≠ 2) (ht : gateTarget lc (readG (coreOf u lc.val).regs rv) u = (.error n, u)) :
    Raises lc s u (.gate lc 0 rv 0) (encS 0x3E 0 rv 2 0) 11 n 0 (readG (coreOf u lc.val).regs rv) (coreOf u lc.val).pc := by
  refine h.raises_exc rfl ?_ (by decide) (by omega)
  simp [aligned, regsOf, hva, hl, excGate, ht]
/-- The entry of K; the counters of a core below K stand. -/
theorem Issues.completes_gate {a : Xlat} (hva : (readG (coreOf u lc.val).regs rv).toNat % 4 = 0) (hl : levelOf (coreOf u lc.val).regs ≠ 2)
    (ht : gateTarget lc (readG (coreOf u lc.val).regs rv) u = (.ok a, u)) (ha : a.ads = []) :
    Completes (.gate lc 0 rv 0) s fun t => CoreNow lc u t { coreOf u lc.val with
        regs := (coreOf t lc.val).regs, pc := readG (coreOf u lc.val).regs rv + 4,
        gate := { isOpen := true, level := BitVec.ofNat 2 (levelOf (coreOf u lc.val).regs) } } ∧
      AtLevelSwapped 2 (setCsr (coreOf u lc.val).regs 0x810 ((coreOf u lc.val).pc + 4)) (coreOf t lc.val).regs := by
  have hfrozen : (csr (coreOf u lc.val).regs 0x522).getLsbD 0 = true := h.still.resolve_right hl
  refine h.completes_levelChange (f := gateEnter ((coreOf u lc.val).pc + 4) (readG (coreOf u lc.val).regs rv + 4)) rfl ?_ rfl (by decide) (.inl ?_)
  · simp [aligned, regsOf, hva, hl, ht, ha, setAds, nextPc, pmTickAll_frozen hfrozen]
  · rw [csr_setCsr, if_neg (by decide), hfrozen]

theorem Issues.executes_gatepad (hl : levelOf (coreOf u lc.val).regs = 2) : Executes lc s u (.gatepad lc 0 0 0) SameRegs := by
  refine h.executes_doneRegs (g := id) rfl ?_ rfl rfl
  simp [regsOf, hl]
theorem Issues.illegal_gatepad (hl : levelOf (coreOf u lc.val).regs ≠ 2) : Illegal lc s u (.gatepad lc 0 0 0) 0xF8003000 := by
  refine h.raises_exc rfl ?_ (by decide) (by decide)
  simp [regsOf, hl, illegal, excIllegal]

/-! `GATERET` and `GATERET.R` are one return (R460); its `back` is 4 where it goes to the `GATE` itself. -/

theorem Issues.completes_gateRet {i : Instr} {sfn : Nat} {back : Word64} (hx : exec i s = gateRet sfn back lc 0 0 0 s)
    (hl : levelOf (coreOf u lc.val).regs = 2) (ho : (coreOf u lc.val).gate.isOpen = true) :
    Completes i s fun t => CoreNow lc u t { coreOf u lc.val with
        regs := (coreOf t lc.val).regs, pc := csr (coreOf u lc.val).regs 0x810 - back, gate := { (coreOf u lc.val).gate with isOpen := false } } ∧
      AtLevelSwapped (coreOf u lc.val).gate.level.toNat (coreOf u lc.val).regs (coreOf t lc.val).regs := by
  refine h.completes_levelChange (f := gateLeave) hx ?_ rfl (BitVec.isLt _) (.inr hl)
  simp [hl, ho]
theorem Issues.raises_gateRet_closed {i : Instr} {sfn : Nat} {back : Word64} (hx : exec i s = gateRet sfn back lc 0 0 0 s)
    (hl : levelOf (coreOf u lc.val).regs = 2) (ho : (coreOf u lc.val).gate.isOpen = false) :
    Raises lc s u i (encS 0x3E 0 0 sfn 0) 11 6 0 0 (coreOf u lc.val).pc := by
  refine h.raises_exc hx ?_ (by decide) (by decide)
  simp [hl, ho, excGate]
theorem Issues.raises_gateRet_priv {i : Instr} {sfn : Nat} {back : Word64} (hx : exec i s = gateRet sfn back lc 0 0 0 s)
    (hl : levelOf (coreOf u lc.val).regs ≠ 2) : Raises lc s u i (encS 0x3E 0 0 sfn 0) 2 0 0 0 (coreOf u lc.val).pc := by
  refine h.raises_exc hx ?_ (by decide) (by decide)
  simp [hl, excPriv]
end

/-- Settles O27: entry and return are changes of level by `gateEnter` and `gateLeave`; each refused check raises its exception. -/
theorem gatewaysEnterAndLeaveK : Obligations.GatewaysEnterAndLeaveK := by
  intro lc s u rv h c r va gate word leaves
  refine ⟨fun a hva hl ht ha => ?entry, h.raises_gate_misaligned, h.raises_gate_atK, fun n hn => h.raises_gate_refused hn, h.executes_gatepad,
    h.illegal_gatepad, fun hl ho _ _ => ?leave,
    fun hl ho => ⟨h.raises_gateRet_closed (sfn := 4) rfl hl ho, h.raises_gateRet_closed (sfn := 5) rfl hl ho⟩,
    fun hl => ⟨h.raises_gateRet_priv (sfn := 4) rfl hl, h.raises_gateRet_priv (sfn := 5) rfl hl⟩⟩
  case entry =>
    obtain ⟨t, hx, ht, hq⟩ := h.completes_gate hva hl ht ha
    have hkeep : ∀ n, n ≠ 0x810 → csr (setCsr r 0x810 (c.pc + 4)) n = csr r n := fun n hn => by rw [csr_setCsr, if_neg hn]
    exact ⟨t, hx, ht, hq.level, hq.write, (hq.csrs _ (by decide) (by decide)).trans (csr_setCsr_same ..),
      hq.stack.trans (hkeep _ (by decide)), hq.saved, hq.general, hq.flags, hq.vectors, hq.masks,
      fun n h1 h2 h3 => (hq.csrs n h1 h2).trans (hkeep n h3)⟩
  case leave =>
    have hleaves {i : Instr} {sfn : Nat} {back pc : Word64} (hx : exec i s = gateRet sfn back lc 0 0 0 s) (hpc : csr r 0x810 - back = pc) :
        leaves i pc := by
      subst hpc
      obtain ⟨t, hx, ht, hq⟩ := h.completes_gateRet hx hl ho
      exact ⟨t, hx, ht, hq.level, hq.stack, hq.saved, hq.general, hq.flags, hq.vectors, hq.masks, hq.csrs⟩
    exact ⟨hleaves (sfn := 4) rfl (BitVec.sub_zero _), hleaves (sfn := 5) rfl rfl⟩

end Sys2Proof.Machine
end

section
/-! Instruction words (03 R68 to R70): the fields of a word of each format and the word its fields make, then decoding against encoding. -/

namespace Sys2Proof.Machine

/-! ### The number a word is, and its fields -/

theorem toNat_wordOf {op rest : Nat} (h1 : op < 64) (h2 : rest < 2 ^ 26) : (wordOf op rest).toNat = op * 2 ^ 26 + rest := by
  rw [wordOf, BitVec.toNat_ofNat]
  omega
theorem getLsbD_eq_of_div {w : Word32} {i : Nat} {b : Bool} (h : w.toNat / 2 ^ i % 2 = b.toNat) : w.getLsbD i = b := by
  rw [BitVec.getLsbD, Nat.testBit_eq_decide_div_mod_eq, h]
  cases b <;> rfl
theorem toNat_getLsbD (w : Word32) (i : Nat) : (w.getLsbD i).toNat = w.toNat / 2 ^ i % 2 := by
  rw [BitVec.getLsbD, Nat.testBit_eq_decide_div_mod_eq]
  rcases Nat.mod_two_eq_zero_or_one (w.toNat / 2 ^ i) with h | h <;> rw [h] <;> rfl
theorem toNat_fieldN (n lo : Nat) (w : Word32) : (fieldN n lo w).toNat = w.toNat / 2 ^ lo % 2 ^ n := BitVec.toNat_ofNat ..
theorem fieldN_eq_of_div {n lo : Nat} {w : Word32} {x : BitVec n} (h : w.toNat / 2 ^ lo % 2 ^ n = x.toNat) : fieldN n lo w = x :=
  BitVec.eq_of_toNat_eq ((toNat_fieldN n lo w).trans h)


/-! ### The fields of each format (03 R68) -/

section
variable {op : Nat} (hop : op < 64) (rd ra rb : Fin 32) (f x : Bool) (mo : BitVec 2)
include hop

theorem fields_encA {fn : Nat} (hfn : fn < 1024) : fld (encA op rd ra rb f fn) 31 26 = op ∧ field5 (encA op rd ra rb f fn) 21 = rd ∧
    field5 (encA op rd ra rb f fn) 16 = ra ∧ field5 (encA op rd ra rb f fn) 11 = rb ∧ (encA op rd ra rb f fn).getLsbD 10 = f ∧
    fld (encA op rd ra rb f fn) 9 0 = fn := by
  have hf := Bool.toNat_le f
  refine ⟨?_, Fin.ext ?_, Fin.ext ?_, Fin.ext ?_, getLsbD_eq_of_div ?_, ?_⟩ <;>
    simp only [fld, natBits, field5, encA] <;> rw [toNat_wordOf hop] <;> omega
theorem fields_encA_sel (hi : BitVec 6) (cond : BitVec 4) :
    fieldN 6 4 (encA op rd ra rb f (hi.toNat * 16 + cond.toNat)) = hi ∧ fieldN 4 0 (encA op rd ra rb f (hi.toNat * 16 + cond.toNat)) = cond := by
  have hf := Bool.toNat_le f
  constructor <;> apply fieldN_eq_of_div <;> rw [encA, toNat_wordOf hop] <;> omega
theorem fields_encI (imm : BitVec 14) : fld (encI op rd ra f x imm) 31 26 = op ∧ field5 (encI op rd ra f x imm) 21 = rd ∧
    field5 (encI op rd ra f x imm) 16 = ra ∧ (encI op rd ra f x imm).getLsbD 15 = f ∧ (encI op rd ra f x imm).getLsbD 14 = x ∧
    fieldN 14 0 (encI op rd ra f x imm) = imm := by
  have hf := Bool.toNat_le f
  have hx := Bool.toNat_le x
  refine ⟨?_, Fin.ext ?_, Fin.ext ?_, getLsbD_eq_of_div ?_, getLsbD_eq_of_div ?_, fieldN_eq_of_div ?_⟩ <;>
    simp only [fld, natBits, field5, encI] <;> rw [toNat_wordOf hop] <;> omega
/-- imm14 of a shift by an immediate: the shift, the reserved bits, n (03 R75). -/
theorem fields_encI_shift {k : Nat} (hk : k < 4) (hi n : BitVec 6) :
    let w := encI op rd ra f x (BitVec.ofNat 14 (k * 4096 + hi.toNat * 64 + n.toNat))
    fld w 13 12 = k ∧ fieldN 6 6 w = hi ∧ fieldN 6 0 w = n := by
  have hf := Bool.toNat_le f
  have hx := Bool.toNat_le x
  refine ⟨?_, fieldN_eq_of_div ?_, fieldN_eq_of_div ?_⟩ <;>
    simp only [fld, natBits, encI, BitVec.toNat_ofNat] <;> rw [toNat_wordOf hop] <;> omega
theorem fields_encQ (q : BitVec 5) (imm : BitVec 16) : fld (encQ op rd q imm) 31 26 = op ∧ field5 (encQ op rd q imm) 21 = rd ∧
    fieldN 5 16 (encQ op rd q imm) = q ∧ fieldN 16 0 (encQ op rd q imm) = imm := by
  refine ⟨?_, Fin.ext ?_, fieldN_eq_of_div ?_, fieldN_eq_of_div ?_⟩ <;> simp only [fld, natBits, field5, encQ] <;> rw [toNat_wordOf hop] <;> omega
theorem fields_encM (off : BitVec 14) : fld (encM op rd rb mo off) 31 26 = op ∧ field5 (encM op rd rb mo off) 21 = rd ∧
    field5 (encM op rd rb mo off) 16 = rb ∧ fieldN 2 14 (encM op rd rb mo off) = mo ∧ fieldN 14 0 (encM op rd rb mo off) = off ∧
    (∀ kind : BitVec 5, rd = ⟨kind.toNat, kind.isLt⟩ → fieldN 5 21 (encM op rd rb mo off) = kind) := by
  refine ⟨?_, Fin.ext ?_, Fin.ext ?_, fieldN_eq_of_div ?_, fieldN_eq_of_div ?_, ?_⟩
  case refine_6 =>
    rintro kind rfl
    apply fieldN_eq_of_div
    simp only [encM]
    rw [toNat_wordOf hop] <;> omega
  all_goals simp only [fld, natBits, field5, encM]; rw [toNat_wordOf hop] <;> omega
/-- imm14 of an indexed access: gi, sel, the low bits (04 R96). -/
theorem fields_encM_indexed (gi : Fin 32) (sel : BitVec 4) (low : BitVec 5) :
    let w := encM op rd rb mo (BitVec.ofNat 14 (gi.val * 512 + sel.toNat * 32 + low.toNat))
    fld w 8 5 = sel.toNat ∧ field5 w 9 = gi ∧ fieldN 4 5 w = sel ∧ fieldN 5 0 w = low := by
  refine ⟨?_, Fin.ext ?_, fieldN_eq_of_div ?_, fieldN_eq_of_div ?_⟩ <;>
    simp only [fld, natBits, field5, encM, BitVec.toNat_ofNat] <;> rw [toNat_wordOf hop] <;> omega
/-- imm14 of an atomic: its operation, size, place and operand register, the low bits (04 R113). -/
theorem fields_encM_amo {k : Nat} (hk : k < 16) (wide far : Bool) (gs : Fin 32) (low : BitVec 3) :
    let w := encM op rd rb mo (BitVec.ofNat 14 (k * 1024 + wide.toNat * 512 + far.toNat * 256 + gs.val * 8 + low.toNat))
    fld w 13 10 = k ∧ w.getLsbD 9 = wide ∧ w.getLsbD 8 = far ∧ field5 w 3 = gs ∧ fieldN 3 0 w = low := by
  have hwide := Bool.toNat_le wide
  have hfar := Bool.toNat_le far
  refine ⟨?_, getLsbD_eq_of_div ?_, getLsbD_eq_of_div ?_, Fin.ext ?_, fieldN_eq_of_div ?_⟩ <;>
    simp only [fld, natBits, field5, encM, BitVec.toNat_ofNat] <;> rw [toNat_wordOf hop] <;> omega
theorem fields_encJ (off : BitVec 26) : fld (encJ op off) 31 26 = op ∧ fieldN 26 0 (encJ op off) = off := by
  refine ⟨?_, fieldN_eq_of_div ?_⟩ <;> simp only [fld, natBits, encJ] <;> rw [toNat_wordOf hop] <;> omega
theorem fields_encV {vfn : Nat} (hvfn : vfn < 32) (k : Fin 8) (z : Bool) (ew : BitVec 2) :
    let w := encV op rd ra rb k z ew vfn
    fld w 31 26 = op ∧ field5 w 21 = rd ∧ field5 w 16 = ra ∧ field5 w 11 = rb ∧ field3 w 8 = k ∧ w.getLsbD 7 = z ∧ fieldN 2 5 w = ew ∧
    fld w 4 0 = vfn := by
  have hz := Bool.toNat_le z
  refine ⟨?_, Fin.ext ?_, Fin.ext ?_, Fin.ext ?_, Fin.ext ?_, getLsbD_eq_of_div ?_, fieldN_eq_of_div ?_, ?_⟩ <;>
    simp only [fld, natBits, field5, field3, encV] <;> rw [toNat_wordOf hop] <;> omega
theorem fields_encS {sfn : Nat} (hsfn : sfn < 16) (x12 : BitVec 12) : fld (encS op rd ra sfn x12) 31 26 = op ∧
    field5 (encS op rd ra sfn x12) 21 = rd ∧ field5 (encS op rd ra sfn x12) 16 = ra ∧ fld (encS op rd ra sfn x12) 15 12 = sfn ∧
    fieldN 12 0 (encS op rd ra sfn x12) = x12 := by
  refine ⟨?_, Fin.ext ?_, Fin.ext ?_, ?_, fieldN_eq_of_div ?_⟩ <;> simp only [fld, natBits, field5, encS] <;> rw [toNat_wordOf hop] <;> omega
end

theorem fields_encAdr (rd : Fin 32) (off : BitVec 21) :
    fld (encAdr rd off) 31 26 = 0x10 ∧ field5 (encAdr rd off) 21 = rd ∧ fieldN 21 0 (encAdr rd off) = off := by
  refine ⟨?_, Fin.ext ?_, fieldN_eq_of_div ?_⟩ <;> simp only [fld, natBits, field5, encAdr] <;> rw [toNat_wordOf (by decide)] <;> omega
theorem fields_encB (cond rsv : BitVec 4) (hint : Bool) (off : BitVec 17) : fld (encB cond hint rsv off) 31 26 = 0x30 ∧
    fieldN 4 22 (encB cond hint rsv off) = cond ∧ (encB cond hint rsv off).getLsbD 21 = hint ∧
    fieldN 4 17 (encB cond hint rsv off) = rsv ∧ fieldN 17 0 (encB cond hint rsv off) = off := by
  have hh := Bool.toNat_le hint
  refine ⟨?_, fieldN_eq_of_div ?_, getLsbD_eq_of_div ?_, fieldN_eq_of_div ?_, fieldN_eq_of_div ?_⟩ <;>
    simp only [fld, natBits, encB] <;> rw [toNat_wordOf (by decide)] <;> omega

/-! ### A word from its fields -/

section
variable {w : Word32} {op : Nat} (hop : fld w 31 26 = op)
include hop

theorem encA_fields {fn : Nat} (hfn : fld w 9 0 = fn) : encA op (field5 w 21) (field5 w 16) (field5 w 11) (w.getLsbD 10) fn = w := by
  subst hop hfn
  apply BitVec.eq_of_toNat_eq
  simp only [encA, wordOf, BitVec.toNat_ofNat, toNat_getLsbD, field5, fld, natBits]
  omega
theorem encA_fields_sel :
    encA op (field5 w 21) (field5 w 16) (field5 w 11) (w.getLsbD 10) ((fieldN 6 4 w).toNat * 16 + (fieldN 4 0 w).toNat) = w :=
  encA_fields hop (by simp only [toNat_fieldN, fld, natBits]; omega)
theorem encI_fields {imm : BitVec 14} (himm : fieldN 14 0 w = imm) :
    encI op (field5 w 21) (field5 w 16) (w.getLsbD 15) (w.getLsbD 14) imm = w := by
  subst hop himm
  apply BitVec.eq_of_toNat_eq
  simp only [encI, wordOf, BitVec.toNat_ofNat, toNat_getLsbD, toNat_fieldN, field5, fld, natBits]
  omega
theorem encI_fields_shift {k : Nat} (hk : fld w 13 12 = k) : encI op (field5 w 21) (field5 w 16) (w.getLsbD 15) (w.getLsbD 14)
    (BitVec.ofNat 14 (k * 4096 + (fieldN 6 6 w).toNat * 64 + (fieldN 6 0 w).toNat)) = w := by
  refine encI_fields hop (fieldN_eq_of_div ?_)
  subst hk
  simp only [toNat_fieldN, BitVec.toNat_ofNat, fld, natBits]
  omega
theorem encQ_fields : encQ op (field5 w 21) (fieldN 5 16 w) (fieldN 16 0 w) = w := by
  subst hop
  apply BitVec.eq_of_toNat_eq
  simp only [encQ, wordOf, BitVec.toNat_ofNat, toNat_fieldN, field5, fld, natBits]
  omega
theorem encM_fields {imm : BitVec 14} (himm : fieldN 14 0 w = imm) : encM op (field5 w 21) (field5 w 16) (fieldN 2 14 w) imm = w := by
  subst hop himm
  apply BitVec.eq_of_toNat_eq
  simp only [encM, wordOf, BitVec.toNat_ofNat, toNat_fieldN, field5, fld, natBits]
  omega
theorem encM_fields_indexed : encM op (field5 w 21) (field5 w 16) (fieldN 2 14 w)
    (BitVec.ofNat 14 ((field5 w 9).val * 512 + (fieldN 4 5 w).toNat * 32 + (fieldN 5 0 w).toNat)) = w := by
  refine encM_fields hop (fieldN_eq_of_div ?_)
  simp only [toNat_fieldN, BitVec.toNat_ofNat, field5]
  omega
theorem encM_fields_amo {k : Nat} (hk : fld w 13 10 = k) : encM op (field5 w 21) (field5 w 16) (fieldN 2 14 w)
    (BitVec.ofNat 14 (k * 1024 + (w.getLsbD 9).toNat * 512 + (w.getLsbD 8).toNat * 256 + (field5 w 3).val * 8 + (fieldN 3 0 w).toNat)) = w := by
  refine encM_fields hop (fieldN_eq_of_div ?_)
  subst hk
  simp only [toNat_fieldN, BitVec.toNat_ofNat, toNat_getLsbD, field5, fld, natBits]
  omega
theorem encJ_fields : encJ op (fieldN 26 0 w) = w := by
  subst hop
  apply BitVec.eq_of_toNat_eq
  simp only [encJ, wordOf, BitVec.toNat_ofNat, toNat_fieldN, fld, natBits]
  omega
theorem encV_fields {vfn : Nat} (hvfn : fld w 4 0 = vfn) :
    encV op (field5 w 21) (field5 w 16) (field5 w 11) (field3 w 8) (w.getLsbD 7) (fieldN 2 5 w) vfn = w := by
  subst hop hvfn
  apply BitVec.eq_of_toNat_eq
  simp only [encV, wordOf, BitVec.toNat_ofNat, toNat_getLsbD, toNat_fieldN, field5, field3, fld, natBits]
  omega
theorem encS_fields {sfn : Nat} (hsfn : fld w 15 12 = sfn) : encS op (field5 w 21) (field5 w 16) sfn (fieldN 12 0 w) = w := by
  subst hop hsfn
  apply BitVec.eq_of_toNat_eq
  simp only [encS, wordOf, BitVec.toNat_ofNat, toNat_fieldN, field5, fld, natBits]
  omega
end

section
variable {w : Word32}
theorem encAdr_fields (hop : fld w 31 26 = 0x10) : encAdr (field5 w 21) (fieldN 21 0 w) = w := by
  apply BitVec.eq_of_toNat_eq
  simp only [fld, natBits] at hop
  simp only [encAdr, wordOf, BitVec.toNat_ofNat, toNat_fieldN, field5]
  omega
theorem encB_fields (hop : fld w 31 26 = 0x30) : encB (fieldN 4 22 w) (w.getLsbD 21) (fieldN 4 17 w) (fieldN 17 0 w) = w := by
  apply BitVec.eq_of_toNat_eq
  simp only [fld, natBits] at hop
  simp only [encB, wordOf, BitVec.toNat_ofNat, toNat_fieldN, toNat_getLsbD]
  omega
end

/-! ### Every word is that of the instruction it spells -/

/-- A word of an opcode with selectors that is not reserved has one of them. -/
theorem selector_mem {w : Word32} (h : reservedWord w = false) {l : List Nat} {x : Nat} (hs : selectors w = some (l, x)) : x ∈ l := by
  rw [reservedWord, hs, Bool.or_eq_false_iff] at h
  simpa using h.2
/-- `d` is, for the word `w`, the instruction whose word it is. -/
def Spells (w : Word32) (d : Option Instr) : Prop := ∃ i, d = some i ∧ wellFormed i = true ∧ encodeWord i = some w
theorem spells_of_encode {w x : Word32} {i : Instr} (hwf : wellFormed i = true) (he : encodeWord i = some x) (hx : x = w) : Spells w (some i) :=
  ⟨i, rfl, hwf, hx ▸ he⟩

section
variable (lc : LC) {w : Word32} {n : Nat}
theorem spells_decodeA1 (hop : fld w 31 26 = 0x1) (hn : fld w 9 0 = n) (h : n ∈ [0, 1, 2, 3, 8, 9, 10, 11, 12, 13]) :
    Spells w (decodeA1 lc w n) := by
  fin_cases h <;> exact spells_of_encode rfl rfl (encA_fields hop hn)
theorem spells_decodeA2 (hop : fld w 31 26 = 0x2) (hn : fld w 9 0 = n) (h : n ∈ [0, 1, 2, 4, 5, 6, 7]) :
    Spells w (decodeA2 lc w n) := by
  fin_cases h <;> exact spells_of_encode rfl rfl (encA_fields hop hn)
theorem spells_decodeA3 (hop : fld w 31 26 = 0x3) (hn : fld w 9 0 = n)
    (h : n ∈ [0, 1, 2, 3, 0x10, 0x11, 0x12, 0x13, 0x14, 0x20, 0x21, 0x22, 0x24, 0x25, 0x26]) :
    Spells w (decodeA3 lc w n) := by
  fin_cases h <;> exact spells_of_encode rfl rfl (encA_fields hop hn)
theorem spells_decodeA5 (hop : fld w 31 26 = 0x5) (hn : fld w 9 0 = n) (h : n ∈ [0, 1, 2]) :
    Spells w (decodeA5 lc w n) := by
  fin_cases h <;> exact spells_of_encode rfl rfl (encA_fields hop hn)
theorem spells_decodeA3a (hop : fld w 31 26 = 0x3a) (hn : fld w 9 0 = n) (h : n ∈ [0, 1, 2, 3, 4]) :
    Spells w (decodeA3a lc w n) := by
  fin_cases h <;> exact spells_of_encode rfl rfl (encA_fields hop hn)
theorem spells_decodeV20 (hop : fld w 31 26 = 0x20) (hn : fld w 4 0 = n) (h : n ∈ [0, 1, 2, 3, 4, 8, 9, 10, 11, 12, 13, 14, 16, 17, 18, 19, 20]) :
    Spells w (decodeV20 lc w n) := by
  fin_cases h <;> exact spells_of_encode rfl rfl (encV_fields hop hn)
theorem spells_decodeV21 (hop : fld w 31 26 = 0x21) (hn : fld w 4 0 = n) (h : n ∈ [0, 1, 2, 3, 4, 5, 6, 7, 8, 9]) :
    Spells w (decodeV21 lc w n) := by
  fin_cases h <;> exact spells_of_encode rfl rfl (encV_fields hop hn)
theorem spells_decodeV22 (hop : fld w 31 26 = 0x22) (hn : fld w 4 0 = n) (h : n ∈ [0, 1, 2, 3]) :
    Spells w (decodeV22 lc w n) := by
  fin_cases h <;> exact spells_of_encode rfl rfl (encV_fields hop hn)
theorem spells_decodeV23 (hop : fld w 31 26 = 0x23) (hn : fld w 4 0 = n) (h : n ∈ [0, 1, 2, 3, 4, 5, 6, 7, 8, 9, 10, 11, 16, 17, 18, 19, 20, 21]) :
    Spells w (decodeV23 lc w n) := by
  fin_cases h <;> exact spells_of_encode rfl rfl (encV_fields hop hn)
theorem spells_decodeV24 (hop : fld w 31 26 = 0x24) (hn : fld w 4 0 = n) (h : n ∈ [0, 1, 2, 3, 4, 5, 6, 7, 8]) :
    Spells w (decodeV24 lc w n) := by
  fin_cases h <;> exact spells_of_encode rfl rfl (encV_fields hop hn)
theorem spells_decodeV25 (hop : fld w 31 26 = 0x25) (hn : fld w 4 0 = n) (h : n ∈ [0, 1, 2, 3, 4, 5, 6, 7, 8, 9, 10]) :
    Spells w (decodeV25 lc w n) := by
  fin_cases h <;> exact spells_of_encode rfl rfl (encV_fields hop hn)
theorem spells_decodeV26 (hop : fld w 31 26 = 0x26) (hn : fld w 4 0 = n) (h : n ∈ [0, 1, 2, 3, 4, 5, 8, 9, 10, 11, 12, 16]) :
    Spells w (decodeV26 lc w n) := by
  fin_cases h <;> exact spells_of_encode rfl rfl (encV_fields hop hn)
theorem spells_decodeV27 (hop : fld w 31 26 = 0x27) (hn : fld w 4 0 = n) (h : n ∈ [0, 1, 2, 3, 4, 8, 9, 10, 11]) :
    Spells w (decodeV27 lc w n) := by
  fin_cases h <;> exact spells_of_encode rfl rfl (encV_fields hop hn)
theorem spells_decodeV2c (hop : fld w 31 26 = 0x2c) (hn : fld w 4 0 = n) (h : n ∈ [0, 1, 2, 3, 4, 5, 8, 9, 11]) :
    Spells w (decodeV2c lc w n) := by
  fin_cases h <;> exact spells_of_encode rfl rfl (encV_fields hop hn)
theorem spells_decodeV2d (hop : fld w 31 26 = 0x2d) (hn : fld w 4 0 = n) (h : n ∈ [0, 1, 4, 5]) :
    Spells w (decodeV2d lc w n) := by
  fin_cases h <;> exact spells_of_encode rfl rfl (encV_fields hop hn)
theorem spells_decodeS38 (hop : fld w 31 26 = 0x38) (hn : fld w 15 12 = n) (h : n ∈ [0, 1, 2, 3]) :
    Spells w (decodeS38 lc w n) := by
  fin_cases h <;> exact spells_of_encode rfl rfl (encS_fields hop hn)
theorem spells_decodeS39 (hop : fld w 31 26 = 0x39) (hn : fld w 15 12 = n) (h : n ∈ [0, 1]) :
    Spells w (decodeS39 lc w n) := by
  fin_cases h <;> exact spells_of_encode rfl rfl (encS_fields hop hn)
theorem spells_decodeS3b (hop : fld w 31 26 = 0x3b) (hn : fld w 15 12 = n) (h : n ∈ [0, 1, 2, 3, 4]) :
    Spells w (decodeS3b lc w n) := by
  fin_cases h <;> exact spells_of_encode rfl rfl (encS_fields hop hn)
theorem spells_decodeS3c (hop : fld w 31 26 = 0x3c) (hn : fld w 15 12 = n) (h : n ∈ [0, 1, 2, 4, 5, 6, 7, 8, 9, 10]) :
    Spells w (decodeS3c lc w n) := by
  fin_cases h <;> exact spells_of_encode rfl rfl (encS_fields hop hn)
theorem spells_decodeS3d (hop : fld w 31 26 = 0x3d) (hn : fld w 15 12 = n) (h : n ∈ [0, 1, 2, 3, 4, 5]) :
    Spells w (decodeS3d lc w n) := by
  fin_cases h <;> exact spells_of_encode rfl rfl (encS_fields hop hn)
theorem spells_decodeS3e (hop : fld w 31 26 = 0x3e) (hn : fld w 15 12 = n) (h : n ∈ [0, 1, 2, 3, 4, 5, 8, 9, 10]) :
    Spells w (decodeS3e lc w n) := by
  fin_cases h <;> exact spells_of_encode rfl rfl (encS_fields hop hn)
theorem spells_decodeAmo (hop : fld w 31 26 = 0x1e) (hn : fld w 13 10 = n) (h : n ∈ [0, 1, 2, 3, 4, 5, 6, 7, 8, 9]) : Spells w (decodeAmo lc w n) := by
  fin_cases h <;> exact spells_of_encode rfl rfl (encM_fields_amo hop hn)
theorem spells_decodeShift (hop : fld w 31 26 = 0xd) (hn : fld w 13 12 = n) : Spells w (decodeShift lc w n) := by
  have hlt : n < 4 := hn ▸ fld_lt w 13 12
  interval_cases n <;> exact spells_of_encode rfl rfl (encI_fields_shift hop hn)
theorem spells_decodeIndexed (hop : fld w 31 26 = 0x1d) (hn : fld w 8 5 = n) (h : n ∈ [0, 1, 2, 3, 4, 5, 6, 8, 9, 10, 11]) :
    Spells w (decodeIndexed lc w n) := by
  have hs : (fieldN 4 5 w).toNat = n := (toNat_fieldN 4 5 w).trans hn
  fin_cases h <;> exact spells_of_encode (by simp [wellFormed, hs]) rfl (encM_fields_indexed hop)
end

/-- Every word spells an instruction whose word it is. -/
theorem spells_decodeWord (lc : LC) (w : Word32) : Spells w (decodeWord lc w) := by
  by_cases hr : reservedWord w = true
  · rw [decodeWord, if_pos hr]
    exact spells_of_encode hr rfl rfl
  have hsel {l : List Nat} {x : Nat} (hs : selectors w = some (l, x)) : x ∈ l := selector_mem (eq_false_of_ne_true hr) hs
  obtain ⟨op, hop⟩ : ∃ op, fld w 31 26 = op := ⟨_, rfl⟩
  have hmajor : reservedMajor op = false := by
    rw [← hop]
    exact (Bool.or_eq_false_iff.1 (eq_false_of_ne_true hr)).1
  have hlt : op < 64 := hop ▸ fld_lt w 31 26
  simp only [decodeWord, if_neg hr, hop]
  interval_cases op
  · cases hmajor
  · exact spells_decodeA1 lc hop rfl (hsel (by simp only [selectors, hop]))
  · exact spells_decodeA2 lc hop rfl (hsel (by simp only [selectors, hop]))
  · exact spells_decodeA3 lc hop rfl (hsel (by simp only [selectors, hop]))
  · exact spells_of_encode rfl rfl (encA_fields_sel hop)
  · exact spells_decodeA5 lc hop rfl (hsel (by simp only [selectors, hop]))
  · cases hmajor
  · cases hmajor
  · exact spells_of_encode rfl rfl (encI_fields hop rfl)
  · exact spells_of_encode rfl rfl (encI_fields hop rfl)
  · exact spells_of_encode rfl rfl (encI_fields hop rfl)
  · exact spells_of_encode rfl rfl (encI_fields hop rfl)
  · exact spells_of_encode rfl rfl (encI_fields hop rfl)
  · exact spells_decodeShift lc hop rfl
  · exact spells_of_encode rfl rfl (encQ_fields hop)
  · exact spells_of_encode rfl rfl (encQ_fields hop)
  · exact spells_of_encode rfl rfl (encAdr_fields hop)
  · cases hmajor
  · exact spells_of_encode rfl rfl (encM_fields hop rfl)
  · exact spells_of_encode rfl rfl (encM_fields hop rfl)
  · exact spells_of_encode rfl rfl (encM_fields hop rfl)
  · exact spells_of_encode rfl rfl (encM_fields hop rfl)
  · exact spells_of_encode rfl rfl (encM_fields hop rfl)
  · exact spells_of_encode rfl rfl (encM_fields hop rfl)
  · exact spells_of_encode rfl rfl (encM_fields hop rfl)
  · exact spells_of_encode rfl rfl (encM_fields hop rfl)
  · exact spells_of_encode rfl rfl (encM_fields hop rfl)
  · exact spells_of_encode rfl rfl (encM_fields hop rfl)
  · exact spells_of_encode rfl rfl (encM_fields hop rfl)
  · exact spells_decodeIndexed lc hop rfl (hsel (by simp only [selectors, hop]))
  · exact spells_decodeAmo lc hop rfl (hsel (by simp only [selectors, hop]))
  · exact spells_of_encode rfl rfl (encM_fields hop rfl)
  · exact spells_decodeV20 lc hop rfl (hsel (by simp only [selectors, hop]))
  · exact spells_decodeV21 lc hop rfl (hsel (by simp only [selectors, hop]))
  · exact spells_decodeV22 lc hop rfl (hsel (by simp only [selectors, hop]))
  · exact spells_decodeV23 lc hop rfl (hsel (by simp only [selectors, hop]))
  · exact spells_decodeV24 lc hop rfl (hsel (by simp only [selectors, hop]))
  · exact spells_decodeV25 lc hop rfl (hsel (by simp only [selectors, hop]))
  · exact spells_decodeV26 lc hop rfl (hsel (by simp only [selectors, hop]))
  · exact spells_decodeV27 lc hop rfl (hsel (by simp only [selectors, hop]))
  · cases hmajor
  · cases hmajor
  · cases hmajor
  · cases hmajor
  · exact spells_decodeV2c lc hop rfl (hsel (by simp only [selectors, hop]))
  · exact spells_decodeV2d lc hop rfl (hsel (by simp only [selectors, hop]))
  · cases hmajor
  · cases hmajor
  · exact spells_of_encode rfl rfl (encB_fields hop)
  · exact spells_of_encode rfl rfl (encJ_fields hop)
  · exact spells_of_encode rfl rfl (encJ_fields hop)
  · cases hmajor
  · cases hmajor
  · cases hmajor
  · cases hmajor
  · cases hmajor
  · exact spells_decodeS38 lc hop rfl (hsel (by simp only [selectors, hop]))
  · exact spells_decodeS39 lc hop rfl (hsel (by simp only [selectors, hop]))
  · exact spells_decodeA3a lc hop rfl (hsel (by simp only [selectors, hop]))
  · exact spells_decodeS3b lc hop rfl (hsel (by simp only [selectors, hop]))
  · exact spells_decodeS3c lc hop rfl (hsel (by simp only [selectors, hop]))
  · exact spells_decodeS3d lc hop rfl (hsel (by simp only [selectors, hop]))
  · exact spells_decodeS3e lc hop rfl (hsel (by simp only [selectors, hop]))
  · cases hmajor

/-! ### The instruction a word spells, by its opcode and selector -/

section
variable {lc : LC} {w : Word32} {n : Nat}
theorem reservedWord_of_selector {l : List Nat} (hm : reservedMajor (fld w 31 26) = false) (hs : selectors w = some (l, n)) (hn : n ∈ l) :
    reservedWord w = false := by
  rw [reservedWord, hm, hs]
  simpa using hn
/-- The opcodes without selectors. -/
theorem reservedWord_unselected {op : Nat} (hop : fld w 31 26 = op)
    (h : op ∈ [4, 8, 9, 10, 11, 12, 13, 14, 15, 16, 18, 19, 20, 21, 22, 23, 24, 25, 26, 27, 28, 31, 48, 49, 50]) : reservedWord w = false := by
  have hs : selectors w = none := by fin_cases h <;> simp only [selectors, hop]
  rw [reservedWord, hs, hop]
  fin_cases h <;> rfl
theorem decodeWord_A1 (hop : fld w 31 26 = 0x1) (hn : fld w 9 0 = n) (h : n ∈ [0, 1, 2, 3, 8, 9, 10, 11, 12, 13]) :
    decodeWord lc w = decodeA1 lc w n := by
  have hr := reservedWord_of_selector (n := n) (by rw [hop]; rfl) (by simp only [selectors, hop, hn]) h
  simp only [decodeWord, hr, hop, hn, Bool.false_eq_true, if_false]
theorem decodeWord_A2 (hop : fld w 31 26 = 0x2) (hn : fld w 9 0 = n) (h : n ∈ [0, 1, 2, 4, 5, 6, 7]) : decodeWord lc w = decodeA2 lc w n := by
  have hr := reservedWord_of_selector (n := n) (by rw [hop]; rfl) (by simp only [selectors, hop, hn]) h
  simp only [decodeWord, hr, hop, hn, Bool.false_eq_true, if_false]
theorem decodeWord_A3 (hop : fld w 31 26 = 0x3) (hn : fld w 9 0 = n) (h : n ∈ [0, 1, 2, 3, 0x10, 0x11, 0x12, 0x13, 0x14, 0x20, 0x21, 0x22, 0x24, 0x25, 0x26]) :
    decodeWord lc w = decodeA3 lc w n := by
  have hr := reservedWord_of_selector (n := n) (by rw [hop]; rfl) (by simp only [selectors, hop, hn]) h
  simp only [decodeWord, hr, hop, hn, Bool.false_eq_true, if_false]
theorem decodeWord_A5 (hop : fld w 31 26 = 0x5) (hn : fld w 9 0 = n) (h : n ∈ [0, 1, 2]) : decodeWord lc w = decodeA5 lc w n := by
  have hr := reservedWord_of_selector (n := n) (by rw [hop]; rfl) (by simp only [selectors, hop, hn]) h
  simp only [decodeWord, hr, hop, hn, Bool.false_eq_true, if_false]
theorem decodeWord_A3a (hop : fld w 31 26 = 0x3a) (hn : fld w 9 0 = n) (h : n ∈ [0, 1, 2, 3, 4]) : decodeWord lc w = decodeA3a lc w n := by
  have hr := reservedWord_of_selector (n := n) (by rw [hop]; rfl) (by simp only [selectors, hop, hn]) h
  simp only [decodeWord, hr, hop, hn, Bool.false_eq_true, if_false]
theorem decodeWord_V20 (hop : fld w 31 26 = 0x20) (hn : fld w 4 0 = n) (h : n ∈ [0, 1, 2, 3, 4, 8, 9, 10, 11, 12, 13, 14, 16, 17, 18, 19, 20]) :
    decodeWord lc w = decodeV20 lc w n := by
  have hr := reservedWord_of_selector (n := n) (by rw [hop]; rfl) (by simp only [selectors, hop, hn]) h
  simp only [decodeWord, hr, hop, hn, Bool.false_eq_true, if_false]
theorem decodeWord_V21 (hop : fld w 31 26 = 0x21) (hn : fld w 4 0 = n) (h : n ∈ [0, 1, 2, 3, 4, 5, 6, 7, 8, 9]) :
    decodeWord lc w = decodeV21 lc w n := by
  have hr := reservedWord_of_selector (n := n) (by rw [hop]; rfl) (by simp only [selectors, hop, hn]) h
  simp only [decodeWord, hr, hop, hn, Bool.false_eq_true, if_false]
theorem decodeWord_V22 (hop : fld w 31 26 = 0x22) (hn : fld w 4 0 = n) (h : n ∈ [0, 1, 2, 3]) : decodeWord lc w = decodeV22 lc w n := by
  have hr := reservedWord_of_selector (n := n) (by rw [hop]; rfl) (by simp only [selectors, hop, hn]) h
  simp only [decodeWord, hr, hop, hn, Bool.false_eq_true, if_false]
theorem decodeWord_V23 (hop : fld w 31 26 = 0x23) (hn : fld w 4 0 = n) (h : n ∈ [0, 1, 2, 3, 4, 5, 6, 7, 8, 9, 10, 11, 16, 17, 18, 19, 20, 21]) :
    decodeWord lc w = decodeV23 lc w n := by
  have hr := reservedWord_of_selector (n := n) (by rw [hop]; rfl) (by simp only [selectors, hop, hn]) h
  simp only [decodeWord, hr, hop, hn, Bool.false_eq_true, if_false]
theorem decodeWord_V24 (hop : fld w 31 26 = 0x24) (hn : fld w 4 0 = n) (h : n ∈ [0, 1, 2, 3, 4, 5, 6, 7, 8]) :
    decodeWord lc w = decodeV24 lc w n := by
  have hr := reservedWord_of_selector (n := n) (by rw [hop]; rfl) (by simp only [selectors, hop, hn]) h
  simp only [decodeWord, hr, hop, hn, Bool.false_eq_true, if_false]
theorem decodeWord_V25 (hop : fld w 31 26 = 0x25) (hn : fld w 4 0 = n) (h : n ∈ [0, 1, 2, 3, 4, 5, 6, 7, 8, 9, 10]) :
    decodeWord lc w = decodeV25 lc w n := by
  have hr := reservedWord_of_selector (n := n) (by rw [hop]; rfl) (by simp only [selectors, hop, hn]) h
  simp only [decodeWord, hr, hop, hn, Bool.false_eq_true, if_false]
theorem decodeWord_V26 (hop : fld w 31 26 = 0x26) (hn : fld w 4 0 = n) (h : n ∈ [0, 1, 2, 3, 4, 5, 8, 9, 10, 11, 12, 16]) :
    decodeWord lc w = decodeV26 lc w n := by
  have hr := reservedWord_of_selector (n := n) (by rw [hop]; rfl) (by simp only [selectors, hop, hn]) h
  simp only [decodeWord, hr, hop, hn, Bool.false_eq_true, if_false]
theorem decodeWord_V27 (hop : fld w 31 26 = 0x27) (hn : fld w 4 0 = n) (h : n ∈ [0, 1, 2, 3, 4, 8, 9, 10, 11]) :
    decodeWord lc w = decodeV27 lc w n := by
  have hr := reservedWord_of_selector (n := n) (by rw [hop]; rfl) (by simp only [selectors, hop, hn]) h
  simp only [decodeWord, hr, hop, hn, Bool.false_eq_true, if_false]
theorem decodeWord_V2c (hop : fld w 31 26 = 0x2c) (hn : fld w 4 0 = n) (h : n ∈ [0, 1, 2, 3, 4, 5, 8, 9, 11]) :
    decodeWord lc w = decodeV2c lc w n := by
  have hr := reservedWord_of_selector (n := n) (by rw [hop]; rfl) (by simp only [selectors, hop, hn]) h
  simp only [decodeWord, hr, hop, hn, Bool.false_eq_true, if_false]
theorem decodeWord_V2d (hop : fld w 31 26 = 0x2d) (hn : fld w 4 0 = n) (h : n ∈ [0, 1, 4, 5]) : decodeWord lc w = decodeV2d lc w n := by
  have hr := reservedWord_of_selector (n := n) (by rw [hop]; rfl) (by simp only [selectors, hop, hn]) h
  simp only [decodeWord, hr, hop, hn, Bool.false_eq_true, if_false]
theorem decodeWord_S38 (hop : fld w 31 26 = 0x38) (hn : fld w 15 12 = n) (h : n ∈ [0, 1, 2, 3]) : decodeWord lc w = decodeS38 lc w n := by
  have hr := reservedWord_of_selector (n := n) (by rw [hop]; rfl) (by simp only [selectors, hop, hn]) h
  simp only [decodeWord, hr, hop, hn, Bool.false_eq_true, if_false]
theorem decodeWord_S39 (hop : fld w 31 26 = 0x39) (hn : fld w 15 12 = n) (h : n ∈ [0, 1]) : decodeWord lc w = decodeS39 lc w n := by
  have hr := reservedWord_of_selector (n := n) (by rw [hop]; rfl) (by simp only [selectors, hop, hn]) h
  simp only [decodeWord, hr, hop, hn, Bool.false_eq_true, if_false]
theorem decodeWord_S3b (hop : fld w 31 26 = 0x3b) (hn : fld w 15 12 = n) (h : n ∈ [0, 1, 2, 3, 4]) : decodeWord lc w = decodeS3b lc w n := by
  have hr := reservedWord_of_selector (n := n) (by rw [hop]; rfl) (by simp only [selectors, hop, hn]) h
  simp only [decodeWord, hr, hop, hn, Bool.false_eq_true, if_false]
theorem decodeWord_S3c (hop : fld w 31 26 = 0x3c) (hn : fld w 15 12 = n) (h : n ∈ [0, 1, 2, 4, 5, 6, 7, 8, 9, 10]) :
    decodeWord lc w = decodeS3c lc w n := by
  have hr := reservedWord_of_selector (n := n) (by rw [hop]; rfl) (by simp only [selectors, hop, hn]) h
  simp only [decodeWord, hr, hop, hn, Bool.false_eq_true, if_false]
theorem decodeWord_S3d (hop : fld w 31 26 = 0x3d) (hn : fld w 15 12 = n) (h : n ∈ [0, 1, 2, 3, 4, 5]) : decodeWord lc w = decodeS3d lc w n := by
  have hr := reservedWord_of_selector (n := n) (by rw [hop]; rfl) (by simp only [selectors, hop, hn]) h
  simp only [decodeWord, hr, hop, hn, Bool.false_eq_true, if_false]
theorem decodeWord_S3e (hop : fld w 31 26 = 0x3e) (hn : fld w 15 12 = n) (h : n ∈ [0, 1, 2, 3, 4, 5, 8, 9, 10]) :
    decodeWord lc w = decodeS3e lc w n := by
  have hr := reservedWord_of_selector (n := n) (by rw [hop]; rfl) (by simp only [selectors, hop, hn]) h
  simp only [decodeWord, hr, hop, hn, Bool.false_eq_true, if_false]
theorem decodeWord_Indexed (hop : fld w 31 26 = 0x1d) (hn : fld w 8 5 = n) (h : n ∈ [0, 1, 2, 3, 4, 5, 6, 8, 9, 10, 11]) :
    decodeWord lc w = decodeIndexed lc w n := by
  have hr := reservedWord_of_selector (n := n) (by rw [hop]; rfl) (by simp only [selectors, hop, hn]) h
  simp only [decodeWord, hr, hop, hn, Bool.false_eq_true, if_false]
theorem decodeWord_Amo (hop : fld w 31 26 = 0x1e) (hn : fld w 13 10 = n) (h : n ∈ [0, 1, 2, 3, 4, 5, 6, 7, 8, 9]) :
    decodeWord lc w = decodeAmo lc w n := by
  have hr := reservedWord_of_selector (n := n) (by rw [hop]; rfl) (by simp only [selectors, hop, hn]) h
  simp only [decodeWord, hr, hop, hn, Bool.false_eq_true, if_false]
end

/-! ### Each format read back (03 R68) -/

section
variable {lc : LC} {op : Nat} {rd ra rb : Fin 32} {f x : Bool} {mo : BitVec 2}

theorem decodeWord_encA {fn : Nat} {mk : Bool → Fin 32 → Fin 32 → Fin 32 → Instr}
    (h : ∀ w, fld w 31 26 = op → fld w 9 0 = fn → decodeWord lc w = some (mk (w.getLsbD 10) (field5 w 21) (field5 w 16) (field5 w 11)))
    (hop : op < 64 := by decide) (hfn : fn < 1024 := by decide) : decodeWord lc (encA op rd ra rb f fn) = some (mk f rd ra rb) := by
  obtain ⟨h1, h2, h3, h4, h5, h6⟩ := fields_encA hop rd ra rb f hfn
  rw [h _ h1 h6, h2, h3, h4, h5]
theorem decodeWord_encI {imm : BitVec 14} {mk : Bool → Bool → Fin 32 → Fin 32 → BitVec 14 → Instr}
    (h : ∀ w, fld w 31 26 = op → decodeWord lc w = some (mk (w.getLsbD 15) (w.getLsbD 14) (field5 w 21) (field5 w 16) (fieldN 14 0 w)))
    (hop : op < 64 := by decide) : decodeWord lc (encI op rd ra f x imm) = some (mk f x rd ra imm) := by
  obtain ⟨h1, h2, h3, h4, h5, h6⟩ := fields_encI hop rd ra f x imm
  rw [h _ h1, h2, h3, h4, h5, h6]
theorem decodeWord_shift {k : Nat} {hi n : BitVec 6} {mk : Bool → Bool → Fin 32 → Fin 32 → BitVec 6 → BitVec 6 → Instr}
    (h : ∀ w, decodeShift lc w k = some (mk (w.getLsbD 15) (w.getLsbD 14) (field5 w 21) (field5 w 16) (fieldN 6 6 w) (fieldN 6 0 w)))
    (hk : k < 4 := by decide) :
    decodeWord lc (encI 0xd rd ra f x (BitVec.ofNat 14 (k * 4096 + hi.toNat * 64 + n.toNat))) = some (mk f x rd ra hi n) := by
  obtain ⟨h1, h2, h3, h4, h5, -⟩ := fields_encI (op := 0xd) (by decide) rd ra f x (BitVec.ofNat 14 (k * 4096 + hi.toNat * 64 + n.toNat))
  obtain ⟨h6, h7, h8⟩ := fields_encI_shift (op := 0xd) (by decide) rd ra f x hk hi n
  have hr := reservedWord_unselected h1 (by decide)
  simp only [decodeWord, hr, h1, h6, h, h2, h3, h4, h5, h7, h8, Bool.false_eq_true, if_false]
theorem decodeWord_encQ {q : BitVec 5} {imm : BitVec 16} {mk : Fin 32 → BitVec 5 → BitVec 16 → Instr}
    (h : ∀ w, fld w 31 26 = op → decodeWord lc w = some (mk (field5 w 21) (fieldN 5 16 w) (fieldN 16 0 w)))
    (hop : op < 64 := by decide) : decodeWord lc (encQ op rd q imm) = some (mk rd q imm) := by
  obtain ⟨h1, h2, h3, h4⟩ := fields_encQ hop rd q imm
  rw [h _ h1, h2, h3, h4]
theorem decodeWord_encM {off : BitVec 14} {mk : Fin 32 → Fin 32 → BitVec 2 → BitVec 14 → Instr}
    (h : ∀ w, fld w 31 26 = op → decodeWord lc w = some (mk (field5 w 21) (field5 w 16) (fieldN 2 14 w) (fieldN 14 0 w)))
    (hop : op < 64 := by decide) : decodeWord lc (encM op rd rb mo off) = some (mk rd rb mo off) := by
  obtain ⟨h1, h2, h3, h4, h5, -⟩ := fields_encM hop rd rb mo off
  rw [h _ h1, h2, h3, h4, h5]
theorem decodeWord_indexed {gi : Fin 32} {sel : BitVec 4} {low : BitVec 5} {i : Instr} (hs : sel.toNat ∈ [0, 1, 2, 3, 4, 5, 6, 8, 9, 10, 11])
    (hi : i = if sel.toNat < 8 then .loadIndexed lc rd rb mo gi sel low else .storeIndexed lc rd rb mo gi sel low) :
    decodeWord lc (encM 0x1d rd rb mo (BitVec.ofNat 14 (gi.val * 512 + sel.toNat * 32 + low.toNat))) = some i := by
  obtain ⟨h1, h2, h3, h4, -, -⟩ := fields_encM (op := 0x1d) (by decide) rd rb mo (BitVec.ofNat 14 (gi.val * 512 + sel.toNat * 32 + low.toNat))
  obtain ⟨h5, h6, h7, h8⟩ := fields_encM_indexed (op := 0x1d) (by decide) rd rb mo gi sel low
  rw [decodeWord_Indexed h1 h5 hs, hi]
  simp only [decodeIndexed, h2, h3, h4, h6, h7, h8]
  split <;> rfl
theorem decodeWord_amo {k : Nat} {wide far : Bool} {gs : Fin 32} {low : BitVec 3}
    {mk : Fin 32 → Fin 32 → BitVec 2 → Bool → Bool → Fin 32 → BitVec 3 → Instr}
    (h : ∀ w, decodeAmo lc w k =
      some (mk (field5 w 21) (field5 w 16) (fieldN 2 14 w) (w.getLsbD 9) (w.getLsbD 8) (field5 w 3) (fieldN 3 0 w)))
    (hk : k ∈ [0, 1, 2, 3, 4, 5, 6, 7, 8, 9] := by decide) (hlt : k < 16 := by decide) :
    decodeWord lc (encM 0x1e rd rb mo (BitVec.ofNat 14 (k * 1024 + wide.toNat * 512 + far.toNat * 256 + gs.val * 8 + low.toNat))) =
      some (mk rd rb mo wide far gs low) := by
  obtain ⟨h1, h2, h3, h4, -, -⟩ := fields_encM (op := 0x1e) (by decide) rd rb mo
    (BitVec.ofNat 14 (k * 1024 + wide.toNat * 512 + far.toNat * 256 + gs.val * 8 + low.toNat))
  obtain ⟨h5, h6, h7, h8, h9⟩ := fields_encM_amo (op := 0x1e) (by decide) rd rb mo hlt wide far gs low
  rw [decodeWord_Amo h1 h5 hk, h, h2, h3, h4, h6, h7, h8, h9]
theorem decodeWord_encJ {off : BitVec 26} {mk : BitVec 26 → Instr} (h : ∀ w, fld w 31 26 = op → decodeWord lc w = some (mk (fieldN 26 0 w)))
    (hop : op < 64 := by decide) : decodeWord lc (encJ op off) = some (mk off) := by
  obtain ⟨h1, h2⟩ := fields_encJ hop off
  rw [h _ h1, h2]
theorem decodeWord_encV {vfn : Nat} {k : Fin 8} {z : Bool} {ew : BitVec 2} {mk : Fin 32 → Fin 32 → Fin 32 → Fin 8 → Bool → BitVec 2 → Instr}
    (h : ∀ w, fld w 31 26 = op → fld w 4 0 = vfn → decodeWord lc w =
      some (mk (field5 w 21) (field5 w 16) (field5 w 11) (field3 w 8) (w.getLsbD 7) (fieldN 2 5 w)))
    (hop : op < 64 := by decide) (hvfn : vfn < 32 := by decide) : decodeWord lc (encV op rd ra rb k z ew vfn) = some (mk rd ra rb k z ew) := by
  obtain ⟨h1, h2, h3, h4, h5, h6, h7, h8⟩ := fields_encV hop rd ra rb hvfn k z ew
  rw [h _ h1 h8, h2, h3, h4, h5, h6, h7]
theorem decodeWord_encS {sfn : Nat} {x12 : BitVec 12} {mk : Fin 32 → Fin 32 → BitVec 12 → Instr}
    (h : ∀ w, fld w 31 26 = op → fld w 15 12 = sfn → decodeWord lc w = some (mk (field5 w 21) (field5 w 16) (fieldN 12 0 w)))
    (hop : op < 64 := by decide) (hsfn : sfn < 16 := by decide) : decodeWord lc (encS op rd ra sfn x12) = some (mk rd ra x12) := by
  obtain ⟨h1, h2, h3, h4, h5⟩ := fields_encS hop rd ra hsfn x12
  rw [h _ h1 h4, h2, h3, h5]
theorem decodeWord_sel {hi : BitVec 6} {cond : BitVec 4} :
    decodeWord lc (encA 4 rd ra rb f (hi.toNat * 16 + cond.toNat)) = some (.sel lc f rd ra rb hi cond) := by
  obtain ⟨h1, h2, h3, h4, h5, -⟩ := fields_encA (op := 4) (by decide) rd ra rb f (fn := hi.toNat * 16 + cond.toNat) (by omega)
  obtain ⟨h6, h7⟩ := fields_encA_sel (op := 4) (by decide) rd ra rb f hi cond
  have hr := reservedWord_unselected h1 (by decide)
  simp only [decodeWord, hr, h1, h2, h3, h4, h5, h6, h7, Bool.false_eq_true, if_false]
theorem decodeWord_prfm {kind : BitVec 5} {off : BitVec 14} :
    decodeWord lc (encM 0x1f ⟨kind.toNat, kind.isLt⟩ rb mo off) = some (.prfm lc kind rb mo off) := by
  obtain ⟨h1, -, h3, h4, h5, h6⟩ := fields_encM (op := 0x1f) (by decide) ⟨kind.toNat, kind.isLt⟩ rb mo off
  have hr := reservedWord_unselected h1 (by decide)
  simp only [decodeWord, hr, h1, h3, h4, h5, h6 kind rfl, Bool.false_eq_true, if_false]
theorem decodeWord_encB {cond rsv : BitVec 4} {off : BitVec 17} : decodeWord lc (encB cond f rsv off) = some (.bCond lc cond f rsv off) := by
  obtain ⟨h1, h2, h3, h4, h5⟩ := fields_encB cond rsv f off
  have hr := reservedWord_unselected h1 (by decide)
  simp only [decodeWord, hr, h1, h2, h3, h4, h5, Bool.false_eq_true, if_false]
theorem decodeWord_encAdr {off : BitVec 21} : decodeWord lc (encAdr rd off) = some (.adr lc rd off) := by
  obtain ⟨h1, h2, h3⟩ := fields_encAdr rd off
  have hr := reservedWord_unselected h1 (by decide)
  simp only [decodeWord, hr, h1, h2, h3, Bool.false_eq_true, if_false]
end

/-! ### From instructions to words and back -/

/-- The word of an instruction spells it. -/
theorem decodeWord_of_encodeWord {i : Instr} {w : Word32} (hwf : wellFormed i = true) (he : encodeWord i = some w) :
    ∃ lc, decodeWord lc w = some i := by
  cases i with
  | reservedMajorOpcode lc => cases he; exact ⟨lc, if_pos hwf⟩
  | add lc => cases he; exact ⟨lc, decodeWord_encA (fun w hop hn => decodeWord_A1 hop hn (by decide))⟩
  | adc lc => cases he; exact ⟨lc, decodeWord_encA (fun w hop hn => decodeWord_A1 hop hn (by decide))⟩
  | sub lc => cases he; exact ⟨lc, decodeWord_encA (fun w hop hn => decodeWord_A1 hop hn (by decide))⟩
  | sbc lc => cases he; exact ⟨lc, decodeWord_encA (fun w hop hn => decodeWord_A1 hop hn (by decide))⟩
  | and lc => cases he; exact ⟨lc, decodeWord_encA (fun w hop hn => decodeWord_A1 hop hn (by decide))⟩
  | andn lc => cases he; exact ⟨lc, decodeWord_encA (fun w hop hn => decodeWord_A1 hop hn (by decide))⟩
  | or lc => cases he; exact ⟨lc, decodeWord_encA (fun w hop hn => decodeWord_A1 hop hn (by decide))⟩
  | orn lc => cases he; exact ⟨lc, decodeWord_encA (fun w hop hn => decodeWord_A1 hop hn (by decide))⟩
  | xor lc => cases he; exact ⟨lc, decodeWord_encA (fun w hop hn => decodeWord_A1 hop hn (by decide))⟩
  | xnor lc => cases he; exact ⟨lc, decodeWord_encA (fun w hop hn => decodeWord_A1 hop hn (by decide))⟩
  | mul lc => cases he; exact ⟨lc, decodeWord_encA (fun w hop hn => decodeWord_A2 hop hn (by decide))⟩
  | mulh lc => cases he; exact ⟨lc, decodeWord_encA (fun w hop hn => decodeWord_A2 hop hn (by decide))⟩
  | mulhu lc => cases he; exact ⟨lc, decodeWord_encA (fun w hop hn => decodeWord_A2 hop hn (by decide))⟩
  | div lc => cases he; exact ⟨lc, decodeWord_encA (fun w hop hn => decodeWord_A2 hop hn (by decide))⟩
  | divu lc => cases he; exact ⟨lc, decodeWord_encA (fun w hop hn => decodeWord_A2 hop hn (by decide))⟩
  | rem lc => cases he; exact ⟨lc, decodeWord_encA (fun w hop hn => decodeWord_A2 hop hn (by decide))⟩
  | remu lc => cases he; exact ⟨lc, decodeWord_encA (fun w hop hn => decodeWord_A2 hop hn (by decide))⟩
  | sll lc => cases he; exact ⟨lc, decodeWord_encA (fun w hop hn => decodeWord_A3 hop hn (by decide))⟩
  | srl lc => cases he; exact ⟨lc, decodeWord_encA (fun w hop hn => decodeWord_A3 hop hn (by decide))⟩
  | sra lc => cases he; exact ⟨lc, decodeWord_encA (fun w hop hn => decodeWord_A3 hop hn (by decide))⟩
  | ror lc => cases he; exact ⟨lc, decodeWord_encA (fun w hop hn => decodeWord_A3 hop hn (by decide))⟩
  | clz lc => cases he; exact ⟨lc, decodeWord_encA (fun w hop hn => decodeWord_A3 hop hn (by decide))⟩
  | ctz lc => cases he; exact ⟨lc, decodeWord_encA (fun w hop hn => decodeWord_A3 hop hn (by decide))⟩
  | popc lc => cases he; exact ⟨lc, decodeWord_encA (fun w hop hn => decodeWord_A3 hop hn (by decide))⟩
  | bswap lc => cases he; exact ⟨lc, decodeWord_encA (fun w hop hn => decodeWord_A3 hop hn (by decide))⟩
  | brev lc => cases he; exact ⟨lc, decodeWord_encA (fun w hop hn => decodeWord_A3 hop hn (by decide))⟩
  | sextb lc => cases he; exact ⟨lc, decodeWord_encA (fun w hop hn => decodeWord_A3 hop hn (by decide))⟩
  | sexth lc => cases he; exact ⟨lc, decodeWord_encA (fun w hop hn => decodeWord_A3 hop hn (by decide))⟩
  | sextw lc => cases he; exact ⟨lc, decodeWord_encA (fun w hop hn => decodeWord_A3 hop hn (by decide))⟩
  | zextb lc => cases he; exact ⟨lc, decodeWord_encA (fun w hop hn => decodeWord_A3 hop hn (by decide))⟩
  | zexth lc => cases he; exact ⟨lc, decodeWord_encA (fun w hop hn => decodeWord_A3 hop hn (by decide))⟩
  | zextw lc => cases he; exact ⟨lc, decodeWord_encA (fun w hop hn => decodeWord_A3 hop hn (by decide))⟩
  | br lc => cases he; exact ⟨lc, decodeWord_encA (fun w hop hn => decodeWord_A5 hop hn (by decide))⟩
  | blr lc => cases he; exact ⟨lc, decodeWord_encA (fun w hop hn => decodeWord_A5 hop hn (by decide))⟩
  | ret lc => cases he; exact ⟨lc, decodeWord_encA (fun w hop hn => decodeWord_A5 hop hn (by decide))⟩
  | bcopy lc => cases he; exact ⟨lc, decodeWord_encA (fun w hop hn => decodeWord_A3a hop hn (by decide))⟩
  | bcopyNt lc => cases he; exact ⟨lc, decodeWord_encA (fun w hop hn => decodeWord_A3a hop hn (by decide))⟩
  | bfill lc => cases he; exact ⟨lc, decodeWord_encA (fun w hop hn => decodeWord_A3a hop hn (by decide))⟩
  | bfillNt lc => cases he; exact ⟨lc, decodeWord_encA (fun w hop hn => decodeWord_A3a hop hn (by decide))⟩
  | bcmp lc => cases he; exact ⟨lc, decodeWord_encA (fun w hop hn => decodeWord_A3a hop hn (by decide))⟩
  | addi lc =>
    cases he
    exact ⟨lc, decodeWord_encI fun w hop => by
      simp only [decodeWord, reservedWord_unselected hop (by decide), hop, Bool.false_eq_true, if_false]⟩
  | subi lc =>
    cases he
    exact ⟨lc, decodeWord_encI fun w hop => by
      simp only [decodeWord, reservedWord_unselected hop (by decide), hop, Bool.false_eq_true, if_false]⟩
  | andi lc =>
    cases he
    exact ⟨lc, decodeWord_encI fun w hop => by
      simp only [decodeWord, reservedWord_unselected hop (by decide), hop, Bool.false_eq_true, if_false]⟩
  | ori lc =>
    cases he
    exact ⟨lc, decodeWord_encI fun w hop => by
      simp only [decodeWord, reservedWord_unselected hop (by decide), hop, Bool.false_eq_true, if_false]⟩
  | xori lc =>
    cases he
    exact ⟨lc, decodeWord_encI fun w hop => by
      simp only [decodeWord, reservedWord_unselected hop (by decide), hop, Bool.false_eq_true, if_false]⟩
  | slli lc => cases he; exact ⟨lc, decodeWord_shift fun _ => rfl⟩
  | srli lc => cases he; exact ⟨lc, decodeWord_shift fun _ => rfl⟩
  | srai lc => cases he; exact ⟨lc, decodeWord_shift fun _ => rfl⟩
  | rori lc => cases he; exact ⟨lc, decodeWord_shift fun _ => rfl⟩
  | setq lc =>
    cases he
    exact ⟨lc, decodeWord_encQ fun w hop => by
      simp only [decodeWord, reservedWord_unselected hop (by decide), hop, Bool.false_eq_true, if_false]⟩
  | putq lc =>
    cases he
    exact ⟨lc, decodeWord_encQ fun w hop => by
      simp only [decodeWord, reservedWord_unselected hop (by decide), hop, Bool.false_eq_true, if_false]⟩
  | adr lc => cases he; exact ⟨lc, decodeWord_encAdr⟩
  | sel lc => cases he; exact ⟨lc, decodeWord_sel⟩
  | bCond lc => cases he; exact ⟨lc, decodeWord_encB⟩
  | b lc =>
    cases he
    exact ⟨lc, decodeWord_encJ fun w hop => by
      simp only [decodeWord, reservedWord_unselected hop (by decide), hop, Bool.false_eq_true, if_false]⟩
  | bl lc =>
    cases he
    exact ⟨lc, decodeWord_encJ fun w hop => by
      simp only [decodeWord, reservedWord_unselected hop (by decide), hop, Bool.false_eq_true, if_false]⟩
  | ldb lc =>
    cases he
    exact ⟨lc, decodeWord_encM fun w hop => by
      simp only [decodeWord, reservedWord_unselected hop (by decide), hop, Bool.false_eq_true, if_false]⟩
  | ldh lc =>
    cases he
    exact ⟨lc, decodeWord_encM fun w hop => by
      simp only [decodeWord, reservedWord_unselected hop (by decide), hop, Bool.false_eq_true, if_false]⟩
  | ldw lc =>
    cases he
    exact ⟨lc, decodeWord_encM fun w hop => by
      simp only [decodeWord, reservedWord_unselected hop (by decide), hop, Bool.false_eq_true, if_false]⟩
  | ldd lc =>
    cases he
    exact ⟨lc, decodeWord_encM fun w hop => by
      simp only [decodeWord, reservedWord_unselected hop (by decide), hop, Bool.false_eq_true, if_false]⟩
  | ldsb lc =>
    cases he
    exact ⟨lc, decodeWord_encM fun w hop => by
      simp only [decodeWord, reservedWord_unselected hop (by decide), hop, Bool.false_eq_true, if_false]⟩
  | ldsh lc =>
    cases he
    exact ⟨lc, decodeWord_encM fun w hop => by
      simp only [decodeWord, reservedWord_unselected hop (by decide), hop, Bool.false_eq_true, if_false]⟩
  | ldsw lc =>
    cases he
    exact ⟨lc, decodeWord_encM fun w hop => by
      simp only [decodeWord, reservedWord_unselected hop (by decide), hop, Bool.false_eq_true, if_false]⟩
  | stb lc =>
    cases he
    exact ⟨lc, decodeWord_encM fun w hop => by
      simp only [decodeWord, reservedWord_unselected hop (by decide), hop, Bool.false_eq_true, if_false]⟩
  | sth lc =>
    cases he
    exact ⟨lc, decodeWord_encM fun w hop => by
      simp only [decodeWord, reservedWord_unselected hop (by decide), hop, Bool.false_eq_true, if_false]⟩
  | stw lc =>
    cases he
    exact ⟨lc, decodeWord_encM fun w hop => by
      simp only [decodeWord, reservedWord_unselected hop (by decide), hop, Bool.false_eq_true, if_false]⟩
  | std lc =>
    cases he
    exact ⟨lc, decodeWord_encM fun w hop => by
      simp only [decodeWord, reservedWord_unselected hop (by decide), hop, Bool.false_eq_true, if_false]⟩
  | loadIndexed lc rt rb mo gi sel low =>
    cases he
    have hs : sel.toNat ≤ 6 := of_decide_eq_true hwf
    exact ⟨lc, decodeWord_indexed (by interval_cases sel.toNat <;> decide) (if_pos (by omega)).symm⟩
  | storeIndexed lc rt rb mo gi sel low =>
    cases he
    have hs : 8 ≤ sel.toNat ∧ sel.toNat ≤ 11 := of_decide_eq_true hwf
    obtain ⟨hlo, hhi⟩ := hs
    exact ⟨lc, decodeWord_indexed (by interval_cases sel.toNat <;> decide) (if_neg (by omega)).symm⟩
  | amoXchg lc => cases he; exact ⟨lc, decodeWord_amo fun _ => rfl⟩
  | amoAdd lc => cases he; exact ⟨lc, decodeWord_amo fun _ => rfl⟩
  | amoAnd lc => cases he; exact ⟨lc, decodeWord_amo fun _ => rfl⟩
  | amoOr lc => cases he; exact ⟨lc, decodeWord_amo fun _ => rfl⟩
  | amoXor lc => cases he; exact ⟨lc, decodeWord_amo fun _ => rfl⟩
  | amoMaxs lc => cases he; exact ⟨lc, decodeWord_amo fun _ => rfl⟩
  | amoMins lc => cases he; exact ⟨lc, decodeWord_amo fun _ => rfl⟩
  | amoMaxu lc => cases he; exact ⟨lc, decodeWord_amo fun _ => rfl⟩
  | amoMinu lc => cases he; exact ⟨lc, decodeWord_amo fun _ => rfl⟩
  | amoCmpx lc => cases he; exact ⟨lc, decodeWord_amo fun _ => rfl⟩
  | prfm lc => cases he; exact ⟨lc, decodeWord_prfm⟩
  | vadd lc => cases he; exact ⟨lc, decodeWord_encV (fun w hop hn => decodeWord_V20 hop hn (by decide))⟩
  | vsub lc => cases he; exact ⟨lc, decodeWord_encV (fun w hop hn => decodeWord_V20 hop hn (by decide))⟩
  | vmullo lc => cases he; exact ⟨lc, decodeWord_encV (fun w hop hn => decodeWord_V20 hop hn (by decide))⟩
  | vmulhs lc => cases he; exact ⟨lc, decodeWord_encV (fun w hop hn => decodeWord_V20 hop hn (by decide))⟩
  | vmulhu lc => cases he; exact ⟨lc, decodeWord_encV (fun w hop hn => decodeWord_V20 hop hn (by decide))⟩
  | vand lc => cases he; exact ⟨lc, decodeWord_encV (fun w hop hn => decodeWord_V20 hop hn (by decide))⟩
  | vandn lc => cases he; exact ⟨lc, decodeWord_encV (fun w hop hn => decodeWord_V20 hop hn (by decide))⟩
  | vor lc => cases he; exact ⟨lc, decodeWord_encV (fun w hop hn => decodeWord_V20 hop hn (by decide))⟩
  | vxor lc => cases he; exact ⟨lc, decodeWord_encV (fun w hop hn => decodeWord_V20 hop hn (by decide))⟩
  | vsllv lc => cases he; exact ⟨lc, decodeWord_encV (fun w hop hn => decodeWord_V20 hop hn (by decide))⟩
  | vsrlv lc => cases he; exact ⟨lc, decodeWord_encV (fun w hop hn => decodeWord_V20 hop hn (by decide))⟩
  | vsrav lc => cases he; exact ⟨lc, decodeWord_encV (fun w hop hn => decodeWord_V20 hop hn (by decide))⟩
  | vsmin lc => cases he; exact ⟨lc, decodeWord_encV (fun w hop hn => decodeWord_V20 hop hn (by decide))⟩
  | vsmax lc => cases he; exact ⟨lc, decodeWord_encV (fun w hop hn => decodeWord_V20 hop hn (by decide))⟩
  | vumin lc => cases he; exact ⟨lc, decodeWord_encV (fun w hop hn => decodeWord_V20 hop hn (by decide))⟩
  | vumax lc => cases he; exact ⟨lc, decodeWord_encV (fun w hop hn => decodeWord_V20 hop hn (by decide))⟩
  | vabs lc => cases he; exact ⟨lc, decodeWord_encV (fun w hop hn => decodeWord_V20 hop hn (by decide))⟩
  | vfadd lc => cases he; exact ⟨lc, decodeWord_encV (fun w hop hn => decodeWord_V21 hop hn (by decide))⟩
  | vfsub lc => cases he; exact ⟨lc, decodeWord_encV (fun w hop hn => decodeWord_V21 hop hn (by decide))⟩
  | vfmul lc => cases he; exact ⟨lc, decodeWord_encV (fun w hop hn => decodeWord_V21 hop hn (by decide))⟩
  | vfdiv lc => cases he; exact ⟨lc, decodeWord_encV (fun w hop hn => decodeWord_V21 hop hn (by decide))⟩
  | vfsqrt lc => cases he; exact ⟨lc, decodeWord_encV (fun w hop hn => decodeWord_V21 hop hn (by decide))⟩
  | vfmin lc => cases he; exact ⟨lc, decodeWord_encV (fun w hop hn => decodeWord_V21 hop hn (by decide))⟩
  | vfmax lc => cases he; exact ⟨lc, decodeWord_encV (fun w hop hn => decodeWord_V21 hop hn (by decide))⟩
  | vfabs lc => cases he; exact ⟨lc, decodeWord_encV (fun w hop hn => decodeWord_V21 hop hn (by decide))⟩
  | vfneg lc => cases he; exact ⟨lc, decodeWord_encV (fun w hop hn => decodeWord_V21 hop hn (by decide))⟩
  | vfrnd lc => cases he; exact ⟨lc, decodeWord_encV (fun w hop hn => decodeWord_V21 hop hn (by decide))⟩
  | vfmadd lc => cases he; exact ⟨lc, decodeWord_encV (fun w hop hn => decodeWord_V22 hop hn (by decide))⟩
  | vfmsub lc => cases he; exact ⟨lc, decodeWord_encV (fun w hop hn => decodeWord_V22 hop hn (by decide))⟩
  | vfnmadd lc => cases he; exact ⟨lc, decodeWord_encV (fun w hop hn => decodeWord_V22 hop hn (by decide))⟩
  | vfnmsub lc => cases he; exact ⟨lc, decodeWord_encV (fun w hop hn => decodeWord_V22 hop hn (by decide))⟩
  | vcvtFI lc => cases he; exact ⟨lc, decodeWord_encV (fun w hop hn => decodeWord_V23 hop hn (by decide))⟩
  | vcvtFU lc => cases he; exact ⟨lc, decodeWord_encV (fun w hop hn => decodeWord_V23 hop hn (by decide))⟩
  | vcvtIF lc => cases he; exact ⟨lc, decodeWord_encV (fun w hop hn => decodeWord_V23 hop hn (by decide))⟩
  | vcvtUF lc => cases he; exact ⟨lc, decodeWord_encV (fun w hop hn => decodeWord_V23 hop hn (by decide))⟩
  | vcvtIFT lc => cases he; exact ⟨lc, decodeWord_encV (fun w hop hn => decodeWord_V23 hop hn (by decide))⟩
  | vcvtUFT lc => cases he; exact ⟨lc, decodeWord_encV (fun w hop hn => decodeWord_V23 hop hn (by decide))⟩
  | vperm lc => cases he; exact ⟨lc, decodeWord_encV (fun w hop hn => decodeWord_V24 hop hn (by decide))⟩
  | vperm2 lc => cases he; exact ⟨lc, decodeWord_encV (fun w hop hn => decodeWord_V24 hop hn (by decide))⟩
  | vcompress lc => cases he; exact ⟨lc, decodeWord_encV (fun w hop hn => decodeWord_V24 hop hn (by decide))⟩
  | vexpand lc => cases he; exact ⟨lc, decodeWord_encV (fun w hop hn => decodeWord_V24 hop hn (by decide))⟩
  | vbcstl lc => cases he; exact ⟨lc, decodeWord_encV (fun w hop hn => decodeWord_V24 hop hn (by decide))⟩
  | vbcstg lc => cases he; exact ⟨lc, decodeWord_encV (fun w hop hn => decodeWord_V24 hop hn (by decide))⟩
  | vins lc => cases he; exact ⟨lc, decodeWord_encV (fun w hop hn => decodeWord_V24 hop hn (by decide))⟩
  | vext lc => cases he; exact ⟨lc, decodeWord_encV (fun w hop hn => decodeWord_V24 hop hn (by decide))⟩
  | vrev lc => cases he; exact ⟨lc, decodeWord_encV (fun w hop hn => decodeWord_V24 hop hn (by decide))⟩
  | vredadd lc => cases he; exact ⟨lc, decodeWord_encV (fun w hop hn => decodeWord_V25 hop hn (by decide))⟩
  | vredsmin lc => cases he; exact ⟨lc, decodeWord_encV (fun w hop hn => decodeWord_V25 hop hn (by decide))⟩
  | vredsmax lc => cases he; exact ⟨lc, decodeWord_encV (fun w hop hn => decodeWord_V25 hop hn (by decide))⟩
  | vredumin lc => cases he; exact ⟨lc, decodeWord_encV (fun w hop hn => decodeWord_V25 hop hn (by decide))⟩
  | vredumax lc => cases he; exact ⟨lc, decodeWord_encV (fun w hop hn => decodeWord_V25 hop hn (by decide))⟩
  | vredand lc => cases he; exact ⟨lc, decodeWord_encV (fun w hop hn => decodeWord_V25 hop hn (by decide))⟩
  | vredor lc => cases he; exact ⟨lc, decodeWord_encV (fun w hop hn => decodeWord_V25 hop hn (by decide))⟩
  | vredxor lc => cases he; exact ⟨lc, decodeWord_encV (fun w hop hn => decodeWord_V25 hop hn (by decide))⟩
  | vfredadd lc => cases he; exact ⟨lc, decodeWord_encV (fun w hop hn => decodeWord_V25 hop hn (by decide))⟩
  | vfredmin lc => cases he; exact ⟨lc, decodeWord_encV (fun w hop hn => decodeWord_V25 hop hn (by decide))⟩
  | vfredmax lc => cases he; exact ⟨lc, decodeWord_encV (fun w hop hn => decodeWord_V25 hop hn (by decide))⟩
  | vcmpeq lc => cases he; exact ⟨lc, decodeWord_encV (fun w hop hn => decodeWord_V26 hop hn (by decide))⟩
  | vcmpne lc => cases he; exact ⟨lc, decodeWord_encV (fun w hop hn => decodeWord_V26 hop hn (by decide))⟩
  | vcmplt lc => cases he; exact ⟨lc, decodeWord_encV (fun w hop hn => decodeWord_V26 hop hn (by decide))⟩
  | vcmple lc => cases he; exact ⟨lc, decodeWord_encV (fun w hop hn => decodeWord_V26 hop hn (by decide))⟩
  | vcmpltu lc => cases he; exact ⟨lc, decodeWord_encV (fun w hop hn => decodeWord_V26 hop hn (by decide))⟩
  | vcmpleu lc => cases he; exact ⟨lc, decodeWord_encV (fun w hop hn => decodeWord_V26 hop hn (by decide))⟩
  | vfcmpeq lc => cases he; exact ⟨lc, decodeWord_encV (fun w hop hn => decodeWord_V26 hop hn (by decide))⟩
  | vfcmpne lc => cases he; exact ⟨lc, decodeWord_encV (fun w hop hn => decodeWord_V26 hop hn (by decide))⟩
  | vfcmplt lc => cases he; exact ⟨lc, decodeWord_encV (fun w hop hn => decodeWord_V26 hop hn (by decide))⟩
  | vfcmple lc => cases he; exact ⟨lc, decodeWord_encV (fun w hop hn => decodeWord_V26 hop hn (by decide))⟩
  | vfcmpun lc => cases he; exact ⟨lc, decodeWord_encV (fun w hop hn => decodeWord_V26 hop hn (by decide))⟩
  | vfcmpf lc => cases he; exact ⟨lc, decodeWord_encV (fun w hop hn => decodeWord_V26 hop hn (by decide))⟩
  | kand lc => cases he; exact ⟨lc, decodeWord_encV (fun w hop hn => decodeWord_V27 hop hn (by decide))⟩
  | kor lc => cases he; exact ⟨lc, decodeWord_encV (fun w hop hn => decodeWord_V27 hop hn (by decide))⟩
  | kxor lc => cases he; exact ⟨lc, decodeWord_encV (fun w hop hn => decodeWord_V27 hop hn (by decide))⟩
  | kandn lc => cases he; exact ⟨lc, decodeWord_encV (fun w hop hn => decodeWord_V27 hop hn (by decide))⟩
  | knot lc => cases he; exact ⟨lc, decodeWord_encV (fun w hop hn => decodeWord_V27 hop hn (by decide))⟩
  | kmovg lc => cases he; exact ⟨lc, decodeWord_encV (fun w hop hn => decodeWord_V27 hop hn (by decide))⟩
  | kmovk lc => cases he; exact ⟨lc, decodeWord_encV (fun w hop hn => decodeWord_V27 hop hn (by decide))⟩
  | kpopc lc => cases he; exact ⟨lc, decodeWord_encV (fun w hop hn => decodeWord_V27 hop hn (by decide))⟩
  | kfirst lc => cases he; exact ⟨lc, decodeWord_encV (fun w hop hn => decodeWord_V27 hop hn (by decide))⟩
  | vld lc => cases he; exact ⟨lc, decodeWord_encV (fun w hop hn => decodeWord_V2c hop hn (by decide))⟩
  | vldX lc => cases he; exact ⟨lc, decodeWord_encV (fun w hop hn => decodeWord_V2c hop hn (by decide))⟩
  | vldFf lc => cases he; exact ⟨lc, decodeWord_encV (fun w hop hn => decodeWord_V2c hop hn (by decide))⟩
  | vldNt lc => cases he; exact ⟨lc, decodeWord_encV (fun w hop hn => decodeWord_V2c hop hn (by decide))⟩
  | vldbc lc => cases he; exact ⟨lc, decodeWord_encV (fun w hop hn => decodeWord_V2c hop hn (by decide))⟩
  | vldbcX lc => cases he; exact ⟨lc, decodeWord_encV (fun w hop hn => decodeWord_V2c hop hn (by decide))⟩
  | vst lc => cases he; exact ⟨lc, decodeWord_encV (fun w hop hn => decodeWord_V2c hop hn (by decide))⟩
  | vstX lc => cases he; exact ⟨lc, decodeWord_encV (fun w hop hn => decodeWord_V2c hop hn (by decide))⟩
  | vstNt lc => cases he; exact ⟨lc, decodeWord_encV (fun w hop hn => decodeWord_V2c hop hn (by decide))⟩
  | vgather lc => cases he; exact ⟨lc, decodeWord_encV (fun w hop hn => decodeWord_V2d hop hn (by decide))⟩
  | vgatherS lc => cases he; exact ⟨lc, decodeWord_encV (fun w hop hn => decodeWord_V2d hop hn (by decide))⟩
  | vscatter lc => cases he; exact ⟨lc, decodeWord_encV (fun w hop hn => decodeWord_V2d hop hn (by decide))⟩
  | vscatterS lc => cases he; exact ⟨lc, decodeWord_encV (fun w hop hn => decodeWord_V2d hop hn (by decide))⟩
  | vcvtDS lc hi => cases he; cases hi <;> exact ⟨lc, decodeWord_encV (fun w hop hn => decodeWord_V23 hop hn (by decide))⟩
  | vcvtSD lc hi => cases he; cases hi <;> exact ⟨lc, decodeWord_encV (fun w hop hn => decodeWord_V23 hop hn (by decide))⟩
  | vcvtSH lc hi => cases he; cases hi <;> exact ⟨lc, decodeWord_encV (fun w hop hn => decodeWord_V23 hop hn (by decide))⟩
  | vcvtHS lc hi => cases he; cases hi <;> exact ⟨lc, decodeWord_encV (fun w hop hn => decodeWord_V23 hop hn (by decide))⟩
  | vcvtSBf lc hi => cases he; cases hi <;> exact ⟨lc, decodeWord_encV (fun w hop hn => decodeWord_V23 hop hn (by decide))⟩
  | vcvtBfS lc hi => cases he; cases hi <;> exact ⟨lc, decodeWord_encV (fun w hop hn => decodeWord_V23 hop hn (by decide))⟩
  | csrrd lc => cases he; exact ⟨lc, decodeWord_encS (fun w hop hn => decodeWord_S38 hop hn (by decide))⟩
  | csrwr lc => cases he; exact ⟨lc, decodeWord_encS (fun w hop hn => decodeWord_S38 hop hn (by decide))⟩
  | csrset lc => cases he; exact ⟨lc, decodeWord_encS (fun w hop hn => decodeWord_S38 hop hn (by decide))⟩
  | csrclr lc => cases he; exact ⟨lc, decodeWord_encS (fun w hop hn => decodeWord_S38 hop hn (by decide))⟩
  | sdc lc => cases he; exact ⟨lc, decodeWord_encS (fun w hop hn => decodeWord_S39 hop hn (by decide))⟩
  | sdcRd lc => cases he; exact ⟨lc, decodeWord_encS (fun w hop hn => decodeWord_S39 hop hn (by decide))⟩
  | enq lc => cases he; exact ⟨lc, decodeWord_encS (fun w hop hn => decodeWord_S3b hop hn (by decide))⟩
  | enqt lc => cases he; exact ⟨lc, decodeWord_encS (fun w hop hn => decodeWord_S3b hop hn (by decide))⟩
  | deq lc => cases he; exact ⟨lc, decodeWord_encS (fun w hop hn => decodeWord_S3b hop hn (by decide))⟩
  | deqt lc => cases he; exact ⟨lc, decodeWord_encS (fun w hop hn => decodeWord_S3b hop hn (by decide))⟩
  | qstat lc => cases he; exact ⟨lc, decodeWord_encS (fun w hop hn => decodeWord_S3b hop hn (by decide))⟩
  | fence lc => cases he; exact ⟨lc, decodeWord_encS (fun w hop hn => decodeWord_S3c hop hn (by decide))⟩
  | ifence lc => cases he; exact ⟨lc, decodeWord_encS (fun w hop hn => decodeWord_S3c hop hn (by decide))⟩
  | specbar lc => cases he; exact ⟨lc, decodeWord_encS (fun w hop hn => decodeWord_S3c hop hn (by decide))⟩
  | tlbiVa lc => cases he; exact ⟨lc, decodeWord_encS (fun w hop hn => decodeWord_S3c hop hn (by decide))⟩
  | tlbiVaB lc => cases he; exact ⟨lc, decodeWord_encS (fun w hop hn => decodeWord_S3c hop hn (by decide))⟩
  | tlbiTag lc => cases he; exact ⟨lc, decodeWord_encS (fun w hop hn => decodeWord_S3c hop hn (by decide))⟩
  | tlbiTagB lc => cases he; exact ⟨lc, decodeWord_encS (fun w hop hn => decodeWord_S3c hop hn (by decide))⟩
  | tlbiAll lc => cases he; exact ⟨lc, decodeWord_encS (fun w hop hn => decodeWord_S3c hop hn (by decide))⟩
  | tlbiAllB lc => cases he; exact ⟨lc, decodeWord_encS (fun w hop hn => decodeWord_S3c hop hn (by decide))⟩
  | tlbsync lc => cases he; exact ⟨lc, decodeWord_encS (fun w hop hn => decodeWord_S3c hop hn (by decide))⟩
  | sev lc => cases he; exact ⟨lc, decodeWord_encS (fun w hop hn => decodeWord_S3d hop hn (by decide))⟩
  | wfe lc => cases he; exact ⟨lc, decodeWord_encS (fun w hop hn => decodeWord_S3d hop hn (by decide))⟩
  | wfeNe lc => cases he; exact ⟨lc, decodeWord_encS (fun w hop hn => decodeWord_S3d hop hn (by decide))⟩
  | wfeQ lc => cases he; exact ⟨lc, decodeWord_encS (fun w hop hn => decodeWord_S3d hop hn (by decide))⟩
  | waitt lc => cases he; exact ⟨lc, decodeWord_encS (fun w hop hn => decodeWord_S3d hop hn (by decide))⟩
  | rdtime lc => cases he; exact ⟨lc, decodeWord_encS (fun w hop hn => decodeWord_S3d hop hn (by decide))⟩
  | svc lc => cases he; exact ⟨lc, decodeWord_encS (fun w hop hn => decodeWord_S3e hop hn (by decide))⟩
  | eret lc => cases he; exact ⟨lc, decodeWord_encS (fun w hop hn => decodeWord_S3e hop hn (by decide))⟩
  | gate lc => cases he; exact ⟨lc, decodeWord_encS (fun w hop hn => decodeWord_S3e hop hn (by decide))⟩
  | gatepad lc => cases he; exact ⟨lc, decodeWord_encS (fun w hop hn => decodeWord_S3e hop hn (by decide))⟩
  | gateret lc => cases he; exact ⟨lc, decodeWord_encS (fun w hop hn => decodeWord_S3e hop hn (by decide))⟩
  | gateretR lc => cases he; exact ⟨lc, decodeWord_encS (fun w hop hn => decodeWord_S3e hop hn (by decide))⟩
  | wrpkr lc => cases he; exact ⟨lc, decodeWord_encS (fun w hop hn => decodeWord_S3e hop hn (by decide))⟩
  | uacon lc => cases he; exact ⟨lc, decodeWord_encS (fun w hop hn => decodeWord_S3e hop hn (by decide))⟩
  | uacoff lc => cases he; exact ⟨lc, decodeWord_encS (fun w hop hn => decodeWord_S3e hop hn (by decide))⟩
  | _ => cases he

/-- Settles O58: a word read back has the fields it was made from, and the fields of a word make it again, format by format. -/
theorem wordsAndInstructionsAgree : Obligations.WordsAndInstructionsAgree :=
  ⟨fun _ _ hwf he => decodeWord_of_encodeWord hwf he, spells_decodeWord⟩

end Sys2Proof.Machine
end

section
/-! Reserved words of the integer instructions and of the branches of a core that issues them undisturbed (00 R7; 03 R70, R72, R75 to R77, R82, R84). -/

namespace Sys2Proof.Machine

section
variable {lc : LC} {s u : State} (h : Issues lc s u) {i : Instr} {ser : Bool} {insn : Word32} {body : State → Eff}
include h

/-- An instruction that finds a field reserved. -/
theorem Issues.illegal_of_body (hx : exec i s = .next (runInsn lc ser insn body s)) (hb : body u = illegal u) : Illegal lc s u i insn :=
  h.raises_exc hx hb (by decide) (by decide)
theorem Issues.illegal_unary {op : IntOp} {major fn : Nat} {f : Bool} {rd ra rb : GReg} (hx : exec i s = intReg op major fn true lc f rd ra rb s)
    (hrb : rb ≠ 0) : Illegal lc s u i (encA major rd ra rb f fn) :=
  h.illegal_of_body hx (if_pos (by simpa using hrb))
theorem Issues.illegal_shiftImm {op : IntOp} {sel : Nat} {f x : Bool} {rd ra : GReg} {hi n : BitVec 6}
    (hx : exec i s = shiftImm op sel lc f x rd ra hi n s) (hbad : x = true ∨ hi ≠ 0) :
    Illegal lc s u i (encI 13 rd ra f x (BitVec.ofNat 14 (sel * 4096 + hi.toNat * 64 + n.toNat))) :=
  h.illegal_of_body hx (if_pos (by simpa using hbad))
theorem Issues.illegal_sel {f : Bool} {rd ra rb : GReg} {hi : BitVec 6} {cond : BitVec 4} (hbad : f = true ∨ hi ≠ 0 ∨ cond = 15) :
    Illegal lc s u (.sel lc f rd ra rb hi cond) (encA 4 rd ra rb f (hi.toNat * 16 + cond.toNat)) := by
  refine h.illegal_of_body rfl ?_
  by_cases hc : cond = 15
  · subst hc
    rfl
  · have hbad : (f || hi != 0) = true := by simpa [show ¬cond = 15#4 from hc] using hbad
    simp only [condHolds_eq_table hc, hbad, if_true]
/-- A reserved opcode or selector; above U the vector unit is on (07 R175). -/
theorem Issues.illegal_reserved {w : Word32} (hw : reservedWord w = true) (hl : levelOf (coreOf u lc.val).regs ≠ 0) :
    Illegal lc s u (.reservedMajorOpcode lc w) w := by
  have hx : exec (.reservedMajorOpcode lc w) s = execReservedMajorOpcode lc w s := rfl
  rw [execReservedMajorOpcode, if_pos hw] at hx
  refine h.illegal_of_body hx ?_
  simp [regsOf, vectorOff, hl, illegal]
end

/-- Settles O4: each field that a form checks is looked at before anything else is done. -/
theorem reservedIntegerEncodingsRaiseIllegal : Obligations.ReservedIntegerEncodingsRaiseIllegal := by
  intro lc s u f x rd ra rb hi n q imm cond h
  refine ⟨fun w => h.illegal_reserved, fun hrb => ?unary, fun hbad => ?shift, fun hq => ?quarter, h.illegal_sel⟩
  case unary =>
    exact ⟨h.illegal_unary rfl hrb, h.illegal_unary rfl hrb, h.illegal_unary rfl hrb, h.illegal_unary rfl hrb, h.illegal_unary rfl hrb,
      h.illegal_unary rfl hrb, h.illegal_unary rfl hrb, h.illegal_unary rfl hrb, h.illegal_unary rfl hrb, h.illegal_unary rfl hrb,
      h.illegal_unary rfl hrb⟩
  case shift =>
    exact ⟨h.illegal_shiftImm rfl hbad, h.illegal_shiftImm rfl hbad, h.illegal_shiftImm rfl hbad, h.illegal_shiftImm rfl hbad⟩
  case quarter => exact ⟨h.illegal_of_body rfl (if_pos hq), h.illegal_of_body rfl (if_pos hq)⟩

end Sys2Proof.Machine
end

section
/-! What an instruction that ends leaves of a core that issues it undisturbed, whatever the instruction changed. -/

namespace Sys2Proof.Machine

/-- The core has no shadow group or shadow open and nothing armed. -/
structure Idle (c : Core) : Prop where
  group : c.group = none
  shadows : c.shadows = []
  unarmed : Unarmed c
theorem Issues.idle {lc : LC} {s u : State} (h : Issues lc s u) : Idle (coreOf u lc.val) := ⟨h.core_group, h.core_shadows, h.core_unarmed⟩

section
variable {lc : LC} {s u : State} (h : Issues lc s u) {i : Instr} {ser : Bool} {insn : Word32} {body : State → Eff}
include h

/-- The PC moves on and nothing else is done at the end of an instruction whose core stays idle, its events not counted. -/
theorem Issues.exec_ok {s2 : State} {pc : Word64} {evs : List PmEvent} (hx : exec i s = .next (runInsn lc ser insn body s))
    (hb : body u = .ok s2 pc evs) (hidle : Idle (coreOf s2 lc.val)) (hst : Still (coreOf s2 lc.val).regs (levelOf (coreOf u lc.val).regs))
    (he : ∀ e ∈ evs, e.level = levelOf (coreOf u lc.val).regs) : exec i s = .next (setCore s2 lc.val { coreOf s2 lc.val with pc := pc }) := by
  obtain ⟨page, hp⟩ := runInsn_issues h ser insn body
  have hevents : ∀ e ∈ evOne (coreOf u lc.val) 1 :: ((if ser then [evOne (coreOf u lc.val) 0x70] else []) ++ evs),
      e.level = levelOf (coreOf u lc.val).regs := by
    intro e hm
    rcases List.mem_cons.1 hm with rfl | hm
    · rfl
    · rcases List.mem_append.1 hm with hm | hm
      · cases ser <;> simp at hm
        rw [hm]
        rfl
      · exact he e hm
  rw [hx, hp, hb]
  simp only [oweFetch_alone hidle.group]
  rw [retire_plain hidle.group hidle.shadows hidle.unarmed fun e hm => by rw [hevents e hm]; exact hst]
end

end Sys2Proof.Machine
end

section
/-! Branches and the structures that predict them (03 R82 to R88). -/

namespace Sys2Proof.Machine

/-! ### What a branch may change -/

/-- `c'` is `c` after a branch: numbered, its prediction structures and its registers as they may be. -/
def Branched (c c' : Core) : Prop :=
  c' = { c with regs := c'.regs, predSeq := c.predSeq + 1, retStack := c'.retStack, itt := c'.itt, unpushed := c'.unpushed }
theorem Branched.idle {c c' : Core} (hb : Branched c c') (h : Idle c) : Idle c' := by
  rw [hb]
  exact ⟨h.group, h.shadows, h.unarmed⟩

theorem noteMiss_alone {c : Core} (h : c.group = none) (miss : Bool) : noteMiss miss c = c := by simp [noteMiss, h]
/-- A call outside a group pushes its return address, where the level uses the return stack. -/
theorem predictCall_alone {c : Core} (h : c.group = none) (ret : Word64) :
    predictCall ret c = { c with retStack := (predictCall ret c).retStack } := by
  unfold predictCall
  split
  · rw [h]
  · rfl
theorem predictRet_alone {c : Core} (h : c.group = none) :
    (predictRet c).2 = { c with retStack := (predictRet c).2.retStack, unpushed := (predictRet c).2.unpushed } := by
  unfold predictRet
  dsimp only
  split
  · cases retEntry c with
    | none => rfl
    | some e => simp only [h]
  · rfl

/-- Core `lc` has learnt an indirect target and nothing else of the device has changed, beside free values and the LFSRs (09 R228). -/
structure LearntTarget (lc : LC) (u t : State) : Prop where
  core : coreOf t lc.val = { coreOf u lc.val with itt := (coreOf t lc.val).itt }
  others : ∀ n, n ≠ lc.val → coreOf t n = coreOf u n
  device : { t with cores := u.cores, fresh := u.fresh, mem := { t.mem with lfsrs := u.mem.lfsrs } } = u

theorem learntTarget_refl (lc : LC) (s : State) : LearntTarget lc s s := ⟨rfl, fun _ _ => rfl, rfl⟩
theorem learntTarget_ittWrite (lc : LC) (pc target : Word64) (s : State) : LearntTarget lc s (ittWrite lc.val pc target s) := by
  unfold ittWrite
  dsimp only
  refine ⟨by rw [coreOf_setCore_same], fun n hn => ?_, ?_⟩
  · rw [coreOf_setCore_other _ _ hn]
    split
    · rfl
    · split <;> rfl
  · split
    · rfl
    · split <;> rfl
theorem learntTarget_learnItt {lc : LC} {s : State} (h : (coreOf s lc.val).group = none) (pc target : Word64) :
    LearntTarget lc s (learnItt lc pc target s) := by
  unfold learnItt
  simp only [h]
  split
  · exact ⟨rfl, fun _ _ => rfl, rfl⟩
  · exact learntTarget_ittWrite lc pc target s

/-! ### Branches of a core that issues them -/

/-- The state after a branch: the registers as `R` says, the PC, the branch's number and its predictions; nothing else, beside free values and
the LFSRs. -/
structure BranchedTo (lc : LC) (u t : State) (pc : Word64) (R : Regs → Regs → Prop) : Prop where
  regs : R (coreOf u lc.val).regs (coreOf t lc.val).regs
  core : coreOf t lc.val =
    { coreOf u lc.val with
      pc := pc, regs := (coreOf t lc.val).regs, predSeq := (coreOf u lc.val).predSeq + 1, retStack := (coreOf t lc.val).retStack,
      itt := (coreOf t lc.val).itt, unpushed := (coreOf t lc.val).unpushed }
  others : ∀ n, n ≠ lc.val → coreOf t n = coreOf u n
  device : { t with cores := u.cores, fresh := u.fresh, mem := { t.mem with lfsrs := u.mem.lfsrs } } = u

theorem wroteG_link (ret : Word64) (r : Regs) : WroteG 30 ret r.flags r (writeG r 30 ret) := wroteG_writeG ..

section
variable {lc : LC} {s u : State} (h : Issues lc s u) {i : Instr} {insn : Word32} {body : State → Eff} {R : Regs → Regs → Prop}
include h

/-- A branch whose body makes `c'` of its core; the target may be learnt (03 R87). -/
theorem Issues.completes_branch {s2 : State} {c' : Core} {pc : Word64} {evs : List PmEvent} (hx : exec i s = .next (runInsn lc false insn body s))
    (hb : body u = .ok s2 pc evs) (hc : Branched (coreOf u lc.val) c') (hs : LearntTarget lc (setCore u lc.val c') s2)
    (hR : R (coreOf u lc.val).regs c'.regs) (hcsr : c'.regs.csr = (coreOf u lc.val).regs.csr)
    (he : ∀ e ∈ evs, e.level = levelOf (coreOf u lc.val).regs) :
    Completes i s fun t => BranchedTo lc u t pc R ∧ (coreOf t lc.val).retStack = c'.retStack := by
  have hcore : coreOf s2 lc.val = { c' with itt := (coreOf s2 lc.val).itt } := by simpa only [coreOf_setCore_same] using hs.core
  have hidle := hc.idle h.idle
  have hst : Still (coreOf s2 lc.val).regs (levelOf (coreOf u lc.val).regs) := by
    rw [hcore, Still, csr, hcsr]
    exact h.still
  have ht := h.exec_ok hx hb (by rw [hcore]; exact ⟨hidle.group, hidle.shadows, hidle.unarmed⟩) hst he
  refine ⟨_, ht, ⟨?_, ?_, fun n hn => ?_, congrArg (fun x : State => { x with cores := u.cores }) hs.device⟩, ?_⟩
  · rw [coreOf_setCore_same, hcore]
    exact hR
  · rw [coreOf_setCore_same, hcore, hc]
  · rw [coreOf_setCore_other _ _ hn, hs.others n hn, coreOf_setCore_other _ _ hn]
  · rw [coreOf_setCore_same, hcore]
end

/-! ### The calls and returns (03 R84, R86) -/

section
variable {c : Core} (hg : c.group = none)
include hg

/-- The core of a call: numbered, its return address in g30 and, where the level uses the return stack, pushed. -/
theorem branched_call (ret : Word64) : Branched c (predictCall ret (numberBranch { c with regs := writeG c.regs 30 ret })) := by
  rw [predictCall_alone (show (numberBranch { c with regs := writeG c.regs 30 ret }).group = none from hg)]
  rfl
theorem regs_call (ret : Word64) : (predictCall ret (numberBranch { c with regs := writeG c.regs 30 ret })).regs = writeG c.regs 30 ret := by
  rw [predictCall_alone (show (numberBranch { c with regs := writeG c.regs 30 ret }).group = none from hg)]
  rfl
theorem branched_ret : Branched c (predictRet (numberBranch c)).2 := by
  rw [predictRet_alone (show (numberBranch c).group = none from hg)]
  rfl
theorem regs_ret : (predictRet (numberBranch c)).2.regs = c.regs := by
  rw [predictRet_alone (show (numberBranch c).group = none from hg)]
  rfl
end

theorem level_targetEvents {c : Core} {p : Option Word64} {t : Word64} : ∀ e ∈ targetEvents c p t, e.level = levelOf c.regs := by
  intro e he
  unfold targetEvents at he
  split at he <;> simp at he
  · rw [he]; rfl
  · rcases he with he | he <;> rw [he] <;> rfl

section
variable {lc : LC} {s u : State} {ra : GReg}

theorem exec_br (f : Bool) (rd rb : GReg) : exec (.br lc f rd ra rb) s = execBr lc f rd ra rb s := rfl
theorem exec_blr (f : Bool) (rd rb : GReg) : exec (.blr lc f rd ra rb) s = execBlr lc f rd ra rb s := rfl
theorem exec_ret (f : Bool) (rd rb : GReg) : exec (.ret lc f rd ra rb) s = execRet lc f rd ra rb s := rfl

variable (h : Issues lc s u)
include h

theorem Issues.completes_bCond {cond : BitVec 4} {hint : Bool} {off : BitVec 17} {taken : Bool}
    (hc : condHolds cond (coreOf u lc.val).regs.flags = some taken) :
    Completes (.bCond lc cond hint 0 off) s fun t =>
      BranchedTo lc u t (if taken then (coreOf u lc.val).pc + off.signExtend 64 * 4 else (coreOf u lc.val).pc + 4) SameRegs ∧
      (coreOf t lc.val).retStack = (coreOf u lc.val).retStack := by
  have hb : ∀ miss, updCore lc.val (fun x => noteMiss miss (numberBranch x)) u = setCore u lc.val (numberBranch (coreOf u lc.val)) := fun miss => by
    rw [updCore, noteMiss_alone (show (numberBranch (coreOf u lc.val)).group = none from h.core_group)]
  refine h.completes_branch (c' := numberBranch (coreOf u lc.val)) rfl (by simp only [hc, hb]; rfl) rfl (learntTarget_refl lc _) rfl rfl fun e he => ?_
  rcases List.mem_cons.1 he with rfl | he
  · rfl
  · split at he <;> simp at he
    rw [he]
    rfl
theorem Issues.completes_b {off : BitVec 26} : Completes (.b lc off) s fun t =>
    BranchedTo lc u t ((coreOf u lc.val).pc + off.signExtend 64 * 4) SameRegs ∧ (coreOf t lc.val).retStack = (coreOf u lc.val).retStack :=
  h.completes_branch (c' := numberBranch (coreOf u lc.val)) rfl rfl rfl (learntTarget_refl lc _) rfl rfl (by simp [evOne, plainEvent])
theorem Issues.completes_bl {off : BitVec 26} : Completes (.bl lc off) s fun t =>
    BranchedTo lc u t ((coreOf u lc.val).pc + off.signExtend 64 * 4) (WroteG 30 ((coreOf u lc.val).pc + 4) (coreOf u lc.val).regs.flags) ∧
    (coreOf t lc.val).retStack = (predictCall ((coreOf u lc.val).pc + 4)
      (numberBranch { coreOf u lc.val with regs := writeG (coreOf u lc.val).regs 30 ((coreOf u lc.val).pc + 4) })).retStack := by
  refine h.completes_branch rfl rfl (branched_call h.core_group _) (learntTarget_refl lc _) ?_ ?_ (by simp [evOne, plainEvent])
  · rw [regs_call h.core_group]
    exact wroteG_link _ _
  · rw [regs_call h.core_group, writeG_csr]

/-! The branches to a register (R84): `body` is what the form does with its target. -/

theorem Issues.completes_indirect {i : Instr} {fn : Nat} {body : Word64 → State → Eff} {R : Regs → Regs → Prop} {s2 : State} {c' : Core}
    {pc : Word64} {evs : List PmEvent} (hx : exec i s = indirect lc fn false 0 ra 0 body s) (hra : (readG (coreOf u lc.val).regs ra).toNat % 4 = 0)
    (hb : body (readG (coreOf u lc.val).regs ra) u = .ok s2 pc evs) (hc : Branched (coreOf u lc.val) c')
    (hs : LearntTarget lc (setCore u lc.val c') s2) (hR : R (coreOf u lc.val).regs c'.regs) (hcsr : c'.regs.csr = (coreOf u lc.val).regs.csr)
    (he : ∀ e ∈ evs, e.level = levelOf (coreOf u lc.val).regs) :
    Completes i s fun t => BranchedTo lc u t pc R ∧ (coreOf t lc.val).retStack = c'.retStack :=
  h.completes_branch hx (by simpa [regsOf, aligned, hra] using hb) hc hs hR hcsr he
theorem Issues.raises_indirect {i : Instr} {fn : Nat} {body : Word64 → State → Eff} (hx : exec i s = indirect lc fn false 0 ra 0 body s)
    (hra : (readG (coreOf u lc.val).regs ra).toNat % 4 ≠ 0) :
    Raises lc s u i (encA 5 0 ra 0 false fn) 3 0 0 (readG (coreOf u lc.val).regs ra) (coreOf u lc.val).pc :=
  h.raises_exc hx (by simp [regsOf, aligned, hra, excAlign]) (by decide) (by decide)
theorem Issues.illegal_indirect {i : Instr} {fn : Nat} {f : Bool} {rd rb : GReg} {body : Word64 → State → Eff}
    (hx : exec i s = indirect lc fn f rd ra rb body s) (hbad : f = true ∨ rd ≠ 0 ∨ rb ≠ 0) : Illegal lc s u i (encA 5 rd ra rb f fn) :=
  h.illegal_of_body hx (if_pos (by simpa [or_assoc] using hbad))
theorem Issues.illegal_bCond {cond rsv : BitVec 4} {hint : Bool} {off : BitVec 17} (hbad : cond = 15 ∨ rsv ≠ 0) :
    Illegal lc s u (.bCond lc cond hint rsv off) (encB cond hint rsv off) := by
  refine h.illegal_of_body rfl ?_
  by_cases hc : cond = 15
  · subst hc
    rfl
  · have hr : (rsv != 0) = true := by simpa using hbad.resolve_left hc
    simp only [condHolds_eq_table hc, hr, if_true]

theorem Issues.completes_br (hra : (readG (coreOf u lc.val).regs ra).toNat % 4 = 0) : Completes (.br lc false 0 ra 0) s fun t =>
    BranchedTo lc u t (readG (coreOf u lc.val).regs ra) SameRegs ∧ (coreOf t lc.val).retStack = (coreOf u lc.val).retStack := by
  have hx : exec (.br lc false 0 ra 0) s = indirect lc 0 false 0 ra 0 _ s := exec_br ..
  refine h.completes_indirect hx hra rfl (c' := numberBranch (coreOf u lc.val)) rfl ?_ rfl rfl level_targetEvents
  rw [updCore, noteMiss_alone (show (numberBranch (coreOf u lc.val)).group = none from h.core_group)]
  exact learntTarget_learnItt (by rw [coreOf_setCore_same]; exact h.core_group) _ _
theorem Issues.completes_blr (hra : (readG (coreOf u lc.val).regs ra).toNat % 4 = 0) : Completes (.blr lc false 0 ra 0) s fun t =>
    BranchedTo lc u t (readG (coreOf u lc.val).regs ra) (WroteG 30 ((coreOf u lc.val).pc + 4) (coreOf u lc.val).regs.flags) ∧
    (coreOf t lc.val).retStack = (predictCall ((coreOf u lc.val).pc + 4)
      (numberBranch { coreOf u lc.val with regs := writeG (coreOf u lc.val).regs 30 ((coreOf u lc.val).pc + 4) })).retStack := by
  have hbr := branched_call h.core_group ((coreOf u lc.val).pc + 4)
  have hx : exec (.blr lc false 0 ra 0) s = indirect lc 1 false 0 ra 0 _ s := exec_blr ..
  refine h.completes_indirect hx hra rfl hbr ?_ ?_ ?_ level_targetEvents
  · rw [updCore, noteMiss_alone (by exact h.core_group)]
    exact learntTarget_learnItt (by rw [coreOf_setCore_same]; exact (hbr.idle h.idle).group) _ _
  · rw [regs_call h.core_group]
    exact wroteG_link _ _
  · rw [regs_call h.core_group, writeG_csr]
theorem Issues.completes_ret (hra : (readG (coreOf u lc.val).regs ra).toNat % 4 = 0) : Completes (.ret lc false 0 ra 0) s fun t =>
    BranchedTo lc u t (readG (coreOf u lc.val).regs ra) SameRegs ∧
    (coreOf t lc.val).retStack = (predictRet (numberBranch (coreOf u lc.val))).2.retStack := by
  have hbr := branched_ret h.core_group
  have hx : exec (.ret lc false 0 ra 0) s = indirect lc 2 false 0 ra 0 _ s := exec_ret ..
  refine h.completes_indirect hx hra rfl hbr ?_ (regs_ret h.core_group) (by rw [regs_ret h.core_group]) level_targetEvents
  dsimp only
  rw [noteMiss_alone (hbr.idle h.idle).group]
  split
  · exact learntTarget_refl lc _
  · exact learntTarget_learnItt (by rw [coreOf_setCore_same]; exact (hbr.idle h.idle).group) _ _
end

/-- Settles O5: each branch numbers itself, predicts and goes to its target; what it checks it checks first. -/
theorem branchesGoToTheirTargets : Obligations.BranchesGoToTheirTargets := by
  intro lc s u cond rsv hint f off17 off26 rd ra rb h c fl holds goes link target
  have hgoes {i : Instr} {pc : Word64} {R : Regs → Regs → Prop} {Q : State → Prop} (hi : Completes i s fun t => BranchedTo lc u t pc R ∧ Q t) :
      goes i pc R := by
    obtain ⟨t, hx, ht, -⟩ := hi
    exact ⟨t, hx, ht.regs, ht.core, ht.others, ht.device⟩
  exact ⟨fun hc => hgoes (h.completes_bCond (condHolds_eq_table hc fl)), hgoes h.completes_b, hgoes h.completes_bl,
    fun ht => ⟨hgoes (h.completes_br ht), hgoes (h.completes_blr ht), hgoes (h.completes_ret ht)⟩,
    fun ht => ⟨h.raises_indirect (exec_br ..) ht, h.raises_indirect (exec_blr ..) ht,
      h.raises_indirect (exec_ret ..) ht⟩, h.illegal_bCond,
    fun hbad => ⟨h.illegal_indirect (exec_br ..) hbad,
      h.illegal_indirect (exec_blr ..) hbad, h.illegal_indirect (exec_ret ..) hbad⟩⟩

end Sys2Proof.Machine
end

section
/-! The return stack (03 R86). -/

namespace Sys2Proof.Machine

section
variable {c : Core} (hg : c.group = none)
include hg

/-- What a call that uses the return stack leaves there. -/
theorem retStack_call (ret : Word64) (hu : rsUsed c.regs = true) : ∃ e : RsEntry, e.addr = ret ∧ e.level.toNat = levelOf c.regs ∧ e.taken = none ∧
    (predictCall ret (numberBranch { c with regs := writeG c.regs 30 ret })).retStack = e :: c.retStack.take 15 := by
  have hlevel : levelOf (writeG c.regs 30 ret) = levelOf c.regs := by simp only [levelOf, csr_writeG]
  have hused : rsUsed (writeG c.regs 30 ret) = true := by simpa only [rsUsed, hlevel, csr_writeG] using hu
  refine ⟨{ level := BitVec.ofNat 2 (levelOf c.regs), tag := brTag (writeG c.regs 30 ret), addr := ret, seq := c.predSeq + 1 },
    rfl, ?_, rfl, ?_⟩
  · exact (BitVec.toNat_ofNat ..).trans (Nat.mod_eq_of_lt (levelOf_lt _))
  · simp only [predictCall, numberBranch, hused, if_true, hg, hlevel]
    rfl
/-- A return takes the newest entry that is not taken; no other bears its number. -/
theorem retStack_ret {e : RsEntry} {rest : List RsEntry} (hu : rsUsed c.regs = true) (hs : c.retStack = e :: rest) (ho : c.overlay = [])
    (he : e.taken = none) (hrest : ∀ x ∈ rest, x.seq ≠ e.seq) : (predictRet (numberBranch c)).2.retStack = rest := by
  have hentry : retEntry (numberBranch c) = some e := by
    rw [retEntry, numberBranch, hs, ho, List.nil_append, ite_self, List.find?_cons_of_pos (by simp [he])]
  have hkept : rest.filter (fun x => x.seq != e.seq) = rest := List.filter_eq_self.2 fun x hx => by simpa using hrest x hx
  simp [predictRet, hentry, show rsUsed (numberBranch c).regs = true from hu, show (numberBranch c).group = none from hg,
    show (numberBranch c).retStack = _ from hs, hkept]
end

theorem retStack_call_unused {c : Core} (ret : Word64) (hu : rsUsed c.regs = false) :
    (predictCall ret (numberBranch { c with regs := writeG c.regs 30 ret })).retStack = c.retStack := by
  have hused : rsUsed (writeG c.regs 30 ret) = false := by simpa only [rsUsed, levelOf, csr_writeG] using hu
  simp [predictCall, numberBranch, hused]
theorem retStack_ret_unused {c : Core} (hu : rsUsed c.regs = false) : (predictRet (numberBranch c)).2.retStack = c.retStack := by
  have hn : rsUsed (numberBranch c).regs = false := hu
  simp only [predictRet, hn, Bool.false_eq_true, if_false]
  rfl

/-! ### Recovery from a branch that was predicted wrongly -/

theorem mispredicted_of_not_mem {n : Nat} {c : Core} (h : n ∉ c.missed) : mispredicted n c = c := by simp [mispredicted, h]
/-- Recovery changes the return stack, its overlay and the calls not pushed. -/
theorem mispredicted_frame (n : Nat) (c : Core) : mispredicted n c =
    { c with overlay := (mispredicted n c).overlay, retStack := (mispredicted n c).retStack, unpushed := (mispredicted n c).unpushed } := by
  unfold mispredicted
  dsimp only
  split <;> rfl
/-- An entry that a return after the `n`th branch took is back. -/
def takenBack (n : Nat) (e : RsEntry) : RsEntry :=
  if (match e.taken with | some k => decide (n < k) | none => false) then { e with taken := none } else e
theorem takenBack_addr (n : Nat) (e : RsEntry) : (takenBack n e).addr = e.addr := by rw [takenBack, apply_ite RsEntry.addr, ite_self]
theorem takenBack_seq (n : Nat) (e : RsEntry) : (takenBack n e).seq = e.seq := by rw [takenBack, apply_ite RsEntry.seq, ite_self]
theorem le_of_takenBack {n m : Nat} {e : RsEntry} (h : (takenBack n e).taken = some m) : m ≤ n := by
  cases ht : e.taken with
  | none => simp [takenBack, ht] at h
  | some k =>
    by_cases hk : n < k <;> simp [takenBack, ht, hk] at h
    omega
theorem retStack_mispredicted {n : Nat} {c : Core} (h : n ∈ c.missed) : (mispredicted n c).retStack = c.retStack.map (takenBack n) := by
  simp only [mispredicted, List.contains_iff_mem.2 h, Bool.not_true, Bool.false_eq_true, if_false]
  rfl
theorem overlay_mispredicted {n : Nat} {c : Core} (h : n ∈ c.missed) :
    (mispredicted n c).overlay = (c.overlay.filter fun e => decide (e.seq ≤ n)).map (takenBack n) := by
  simp only [mispredicted, List.contains_iff_mem.2 h, Bool.not_true, Bool.false_eq_true, if_false]
  rfl
theorem addrs_mispredicted (n : Nat) (c : Core) : (mispredicted n c).retStack.map RsEntry.addr = c.retStack.map RsEntry.addr := by
  by_cases h : n ∈ c.missed
  · rw [retStack_mispredicted h, List.map_map]
    exact List.map_congr_left fun e _ => takenBack_addr n e
  · rw [mispredicted_of_not_mem h]

/-- Settles O6: calls push and returns take as `predictCall` and `predictRet` have it outside a group; recovery is `mispredicted`. -/
theorem returnStackFollowsCallsAndReturns : Obligations.ReturnStackFollowsCallsAndReturns := by
  refine ⟨fun lc s u off ra h hra => ?_, fun lc s n => ⟨_, rfl, fun hn => ⟨?overlay, ?stack⟩, fun hn => ?other, ?addrs, ?regs, ?pc, ?cores, rfl⟩⟩
  · obtain ⟨tl, hxl, -, hl⟩ := h.completes_bl (off := off)
    obtain ⟨tr, hxr, -, hr⟩ := h.completes_blr hra
    obtain ⟨tt, hxt, -, ht⟩ := h.completes_ret hra
    refine ⟨fun hu => ⟨⟨tl, hxl, ?_⟩, ⟨tr, hxr, ?_⟩, fun e rest hs ho he hrest => ⟨tt, hxt, ?_⟩⟩, fun hu => ⟨⟨tl, hxl, ?_⟩, tt, hxt, ?_⟩⟩
    · obtain ⟨e, h1, h2, h3, h4⟩ := retStack_call h.core_group ((coreOf u lc.val).pc + 4) hu
      exact ⟨e, h1, h2, h3, hl.trans h4⟩
    · obtain ⟨e, h1, -, -, h4⟩ := retStack_call h.core_group ((coreOf u lc.val).pc + 4) hu
      exact ⟨e, h1, hr.trans h4⟩
    · exact ht.trans (retStack_ret h.core_group hu hs ho he hrest)
    · exact hl.trans (retStack_call_unused _ hu)
    · exact ht.trans (retStack_ret_unused hu)
  case overlay =>
    intro e he
    rw [coreOf_updCore_same, overlay_mispredicted hn] at he
    obtain ⟨x, hx, rfl⟩ := List.mem_map.1 he
    rw [takenBack_seq]
    exact ⟨of_decide_eq_true (List.mem_filter.1 hx).2, fun m => le_of_takenBack⟩
  case stack =>
    intro e he m hm
    rw [coreOf_updCore_same, retStack_mispredicted hn] at he
    obtain ⟨x, -, rfl⟩ := List.mem_map.1 he
    exact le_of_takenBack hm
  case other => rw [coreOf_updCore_same, mispredicted_of_not_mem hn]
  case addrs => rw [coreOf_updCore_same, addrs_mispredicted]
  case regs => rw [coreOf_updCore_same, mispredicted_frame]
  case pc => rw [coreOf_updCore_same, mispredicted_frame]
  case cores => exact fun k hk => coreOf_updCore_other _ _ hk

end Sys2Proof.Machine
end

section
/-! CSR instructions (03 R64, R65): what a read and a write of a core CSR answer, and what the four instructions leave. -/

namespace Sys2Proof.Machine

/-! ### Reads and writes of core CSRs (03 R62 to R65) -/

/-- The CSRs whose write stores the value and does nothing beside it. -/
def plainCsrs : List Nat :=
  [0x002, 0x008, 0x040, 0x401, 0x402, 0x404, 0x405, 0x406, 0x407, 0x408, 0x409, 0x40A, 0x411, 0x480, 0x4C1, 0x4C2, 0x4C3, 0x4C4,
    0x520, 0x600, 0x601, 0x602, 0x603, 0x610, 0x801, 0x802, 0x809, 0x820, 0x821]
/-- The bits of a CSR that are not reserved. -/
def csrBits (n : Nat) : Nat := match csrDesc n with | some d => d.bits | none => 0

section
variable {lc lvl n : Nat} {s : State}

theorem csrRead_low (h : csrLevelOk (coreOf s lc).regs lvl n = false) : csrRead lc lvl n s = (stPriv, 0, s) := by
  rw [csrRead, h]
  rfl
theorem csrRead_unlisted (h : csrLevelOk (coreOf s lc).regs lvl n = true) (hd : csrDesc n = none) : csrRead lc lvl n s = (stNoreg, 0, s) := by
  rw [csrRead, h, hd]
  rfl
theorem csrRead_listed {d : CsrDesc} (h : csrLevelOk (coreOf s lc).regs lvl n = true) (hd : csrDesc n = some d) (hn : n < 0x500 ∨ 0x508 < n) :
    csrRead lc lvl n s = (stOk, csrValue s lc n, s) := by
  have h0 : n ≠ 0x500 := by omega
  have h1 : ¬(0x501 ≤ n ∧ n ≤ 0x508) := by omega
  simp only [csrRead, h, hd, h0, h1, if_false, Bool.not_true, Bool.false_eq_true]
theorem csrWrite_low {v : Word64} (h : csrLevelOk (coreOf s lc).regs lvl n = false) : csrWrite lc lvl n v s = (stPriv, s) := by
  simp only [csrWrite, h, Bool.not_false, if_true]
theorem csrWrite_unlisted {v : Word64} (h : csrLevelOk (coreOf s lc).regs lvl n = true) (hd : csrDesc n = none) :
    csrWrite lc lvl n v s = (stNoreg, s) := by
  simp only [csrWrite, h, hd, Bool.not_true, Bool.false_eq_true, if_false]
theorem plainCsr_listed (h : n ∈ plainCsrs) : csrDesc n = some { bits := csrBits n } := by
  fin_cases h <;> rfl
theorem plainCsr_place (h : n ∈ plainCsrs) : (n < 0x500 ∨ 0x508 < n) ∧ n ≠ 1 ∧ n ≠ 0x522 := by
  fin_cases h <;> decide
theorem csrValue_plain (h : n ∈ plainCsrs) : csrValue s lc n = csr (coreOf s lc).regs n := by
  fin_cases h <;> rfl
theorem csrBase_plain (h : n ∈ plainCsrs) : csrBase s lc n = csr (coreOf s lc).regs n := by
  fin_cases h <;> rfl
theorem csrApply_plain {v : Word64} (h : n ∈ plainCsrs) : csrApply lc n v s = updRegs lc (fun r => setCsr r n v) s := by
  fin_cases h <;> rfl
theorem csrRangeBad_plain {v : Word64} {r : Regs} (h : n ∈ plainCsrs) : csrRangeBad r n v = false := by
  fin_cases h <;> rfl
/-- A value within the bits of a plain CSR is stored. -/
theorem csrWrite_plain {v : Word64} (h : csrLevelOk (coreOf s lc).regs lvl n = true) (hn : n ∈ plainCsrs)
    (hv : v &&& ~~~(BitVec.ofNat 64 (csrBits n)) = 0) : csrWrite lc lvl n v s = (stOk, updRegs lc (fun r => setCsr r n v) s) := by
  simp [csrWrite, h, plainCsr_listed hn, csrRangeBad_plain hn, csrApply_plain hn, hv]
theorem csrWrite_flags {v : Word64} (h : csrLevelOk (coreOf s lc).regs lvl 1 = true) (hv : v.toNat < 16) :
    csrWrite lc lvl 1 v s = (stOk, updRegs lc (fun r => { r with flags := flagsOfWord v }) s) := by
  have hbits : v &&& ~~~(BitVec.ofNat 64 0xF) = 0 := by
    rw [show v = BitVec.ofNat 64 v.toNat by simp]
    interval_cases v.toNat <;> rfl
  have hdesc : csrDesc 1 = some { bits := 0xF } := rfl
  have hrange (r : Regs) : csrRangeBad r 1 v = false := rfl
  have happly : csrApply lc 1 v s = updRegs lc (fun r => { r with flags := flagsOfWord v }) s := rfl
  simp only [csrWrite, h, hdesc, hrange, happly, hbits]
  simp
end

theorem coreNow_refl (lc : LC) (u : State) : CoreNow lc u u (coreOf u lc.val) := ⟨rfl, fun _ _ => rfl, rfl⟩
theorem coreNow_updRegs (lc : LC) (u : State) (f : Regs → Regs) :
    CoreNow lc u (updRegs lc.val f u) { coreOf u lc.val with regs := f (coreOf u lc.val).regs } :=
  ⟨coreOf_updRegs_same .., fun _ hn => coreOf_updRegs_other _ _ hn, rfl⟩

/-! ### The status of an instruction (02 R37) -/

theorem readG_writeStatus (rd : GReg) (st : Nat) (r : Regs) (i : GReg) :
    readG (writeStatus rd st r) i = if i = rd ∧ rd ≠ 0 then BitVec.ofNat 64 st else readG r i := readG_writeG r rd i _
theorem writeStatus_flags (rd : GReg) (st : Nat) (r : Regs) : (writeStatus rd st r).flags = { r.flags with z := decide (st = 0) } := by
  simp only [writeStatus, writeG_flags]
  rfl
@[simp] theorem writeStatus_v (rd : GReg) (st : Nat) (r : Regs) : (writeStatus rd st r).v = r.v := writeG_v ..
@[simp] theorem writeStatus_k (rd : GReg) (st : Nat) (r : Regs) : (writeStatus rd st r).k = r.k := writeG_k ..
@[simp] theorem writeStatus_csr (rd : GReg) (st : Nat) (r : Regs) : (writeStatus rd st r).csr = r.csr := writeG_csr ..

section
variable {lc : LC} {s u : State} (h : Issues lc s u) {i : Instr} {ser : Bool} {insn : Word32} {body : State → Eff}
include h

/-- An instruction that ends with `doneRegs` where its work has changed registers alone. -/
theorem Issues.executes_doneRegs_after {s2 : State} {q : Regs} {f : Regs → Regs} {R : Regs → Regs → Prop}
    (hx : exec i s = .next (runInsn lc ser insn body s)) (hb : body u = doneRegs lc f s2) (hs : CoreNow lc u s2 { coreOf u lc.val with regs := q })
    (hcsr : csr (f q) 0x522 = csr (coreOf u lc.val).regs 0x522) (hR : R (coreOf u lc.val).regs (f q)) : Executes lc s u i R := by
  obtain ⟨hcore, hothers, hdevice⟩ := hs
  have hc : coreOf (updRegs lc.val f s2) lc.val = { coreOf u lc.val with regs := f q } := by rw [coreOf_updRegs_same, hcore]
  have ht := h.exec_ok hx hb (by rw [hc]; exact ⟨h.core_group, h.core_shadows, h.core_unarmed⟩)
    (by rw [hc, Still, hcsr]; exact h.still) (by simp)
  refine ⟨_, ht, f q, hR, ?_, fun n hn => ?_, hdevice⟩
  · rw [coreOf_setCore_same, hc, nextPc, hcore]
  · rw [coreOf_setCore_other _ _ hn, coreOf_updRegs_other _ _ hn, hothers n hn]

variable {rd rv : GReg} {x : BitVec 12}

/-- `CSRRD` where the read changes nothing. -/
theorem Issues.executes_csrrd {st : Nat} {w : Word64}
    (hr : csrRead lc.val (levelOf (coreOf u lc.val).regs) x.toNat u = (st, w, u)) :
    Executes lc s u (.csrrd lc rd rv x) fun old new =>
      (∀ i, readG new i = if i = rd ∧ rd ≠ 0 then BitVec.ofNat 64 st else if i = rv ∧ rv ≠ 0 then w else readG old i) ∧
        new.flags = { old.flags with z := decide (st = 0) } ∧ new.v = old.v ∧ new.k = old.k ∧ new.csr = old.csr := by
  refine h.executes_doneRegs (ser := true) (g := fun q => writeStatus rd st (writeG q rv w)) rfl ?_ (by simp) ⟨fun i => ?_, ?_, by simp, by simp, by simp⟩
  · simp only [regsOf, hr]
  · rw [readG_writeStatus, readG_writeG]
  · rw [writeStatus_flags, writeG_flags]
/-- The end of a write of a CSR: its status, after the write has changed registers alone. -/
theorem Issues.executes_csrPut {i : Instr} {n st : Nat} {v : Word64} {s2 : State} {q : Regs} {R : Regs → Regs → Prop}
    (hx : exec i s = .next (runInsn lc true insn body s)) (hb : body u = csrPut lc rd n v u)
    (hw : csrWrite lc.val (levelOf (coreOf u lc.val).regs) n v u = (st, s2)) (hs : CoreNow lc u s2 { coreOf u lc.val with regs := q })
    (hcsr : csr q 0x522 = csr (coreOf u lc.val).regs 0x522)
    (hR : R (coreOf u lc.val).regs (if n = 1 ∧ st = stOk then writeG q rd 0 else writeStatus rd st q)) : Executes lc s u i R := by
  refine h.executes_doneRegs_after (f := fun q => if n = 1 ∧ st = stOk then writeG q rd 0 else writeStatus rd st q) hx ?_ hs ?_ hR
  · rw [hb]
    simp only [csrPut, regsOf, hw]
  · rw [← hcsr]
    split
    · rw [csr_writeG]
    · rw [csr, writeStatus_csr, csr]
theorem Issues.executes_csrPut_refused {i : Instr} {n st : Nat} {v : Word64} (hx : exec i s = .next (runInsn lc true insn body s))
    (hb : body u = csrPut lc rd n v u) (hw : csrWrite lc.val (levelOf (coreOf u lc.val).regs) n v u = (st, u)) (hst : st ≠ 0) :
    Executes lc s u i fun old new => ((∀ i, readG new i = if i = rd ∧ rd ≠ 0 then BitVec.ofNat 64 st else readG old i) ∧
      new.flags = { old.flags with z := decide (st = 0) } ∧ new.v = old.v ∧ new.k = old.k) ∧ new.csr = old.csr := by
  refine h.executes_csrPut (q := (coreOf u lc.val).regs) hx hb hw (coreNow_refl lc u) rfl ?_
  rw [if_neg fun hn => hst hn.2]
  exact ⟨⟨readG_writeStatus rd st _, writeStatus_flags .., by simp, by simp⟩, by simp⟩
theorem Issues.executes_csrPut_plain {i : Instr} {n : Nat} {v : Word64} (hx : exec i s = .next (runInsn lc true insn body s))
    (hb : body u = csrPut lc rd n v u) (hl : csrLevelOk (coreOf u lc.val).regs (levelOf (coreOf u lc.val).regs) n = true) (hn : n ∈ plainCsrs)
    (hv : v &&& ~~~(BitVec.ofNat 64 (csrBits n)) = 0) :
    Executes lc s u i fun old new => ((∀ i, readG new i = if i = rd ∧ rd ≠ 0 then BitVec.ofNat 64 0 else readG old i) ∧
      new.flags = { old.flags with z := decide (0 = 0) } ∧ new.v = old.v ∧ new.k = old.k) ∧ csr new n = v ∧ ∀ m, m ≠ n → csr new m = csr old m := by
  obtain ⟨-, hn1, hn2⟩ := plainCsr_place hn
  refine h.executes_csrPut hx hb (csrWrite_plain hl hn hv) (coreNow_updRegs lc u _) (by rw [csr_setCsr, if_neg (Ne.symm hn2)]) ?_
  rw [if_neg fun h => hn1 h.1]
  refine ⟨⟨readG_writeStatus rd 0 _, writeStatus_flags .., by simp, by simp⟩, ?_, fun m hm => ?_⟩
  · rw [csr, writeStatus_csr, ← csr, csr_setCsr_same]
  · rw [csr, writeStatus_csr, ← csr, csr_setCsr, if_neg hm]
theorem Issues.executes_csrwr_flags (hx : x.toNat = 1) (hl : csrLevelOk (coreOf u lc.val).regs (levelOf (coreOf u lc.val).regs) 1 = true)
    (hv : (readG (coreOf u lc.val).regs rv).toNat < 16) :
    Executes lc s u (.csrwr lc rd rv x) fun old new => (∀ i, readG new i = if i = rd ∧ rd ≠ 0 then 0 else readG old i) ∧
      new.flags = flagsOfWord (readG (coreOf u lc.val).regs rv) ∧ new.csr = old.csr := by
  refine h.executes_csrPut rfl rfl (hx ▸ csrWrite_flags hl hv) (coreNow_updRegs lc u _) rfl ?_
  rw [if_pos ⟨hx, rfl⟩]
  exact ⟨fun i => readG_writeG .., writeG_flags .., writeG_csr ..⟩
end

/-- Settles O7: a read or a write answers its status by the order of its checks, and the instruction puts it in gd and in Z. -/
theorem csrInstructionsGiveStatusAndValue : Obligations.CsrInstructionsGiveStatusAndValue := by
  intro lc s u rd rv x h r n status reads refused stored bits writes
  have hrefused {st : Nat} (hst : st ≠ 0) (hr : csrRead lc.val (levelOf r) n u = (st, 0, u))
      (hw : ∀ v, csrWrite lc.val (levelOf r) n v u = (st, u)) : refused st :=
    ⟨h.executes_csrrd hr, h.executes_csrPut_refused rfl rfl (hw _) hst, h.executes_csrPut_refused rfl rfl (hw _) hst,
      h.executes_csrPut_refused rfl rfl (hw _) hst⟩
  refine ⟨fun hl => hrefused (by decide) (csrRead_low hl) fun v => csrWrite_low hl,
    fun hl hd => hrefused (by decide) (csrRead_unlisted hl hd) fun v => csrWrite_unlisted hl hd, fun hl => ⟨fun hs => ?stored, fun hn => ?number, fun hn => ?flags⟩⟩
  case stored =>
    have hn : n ∈ plainCsrs := of_decide_eq_true hs
    have hread := csrRead_listed (s := u) hl (plainCsr_listed hn) (plainCsr_place hn).1
    rw [csrValue_plain hn] at hread
    refine ⟨h.executes_csrrd hread, fun hv => h.executes_csrPut_plain rfl rfl hl hn hv, fun hv => h.executes_csrPut_plain rfl ?_ hl hn hv,
      fun hv => h.executes_csrPut_plain rfl ?_ hl hn hv⟩
    · exact congrArg (fun b => csrPut lc rd n (b ||| readG r rv) u) (csrBase_plain hn)
    · exact congrArg (fun b => csrPut lc rd n (b &&& ~~~readG r rv) u) (csrBase_plain hn)
  case number =>
    have hread := csrRead_listed (s := u) hl (d := { acc := .ro }) (by rw [hn]; rfl) (.inl (by omega))
    exact h.executes_csrrd (hread.trans (by rw [hn]; rfl))
  case flags =>
    have hread := csrRead_listed (s := u) hl (d := { bits := 0xF }) (by rw [hn]; rfl) (.inl (by omega))
    exact ⟨h.executes_csrrd (hread.trans (by rw [hn]; rfl)), fun hv => h.executes_csrwr_flags hn (hn ▸ hl) hv⟩

end Sys2Proof.Machine
end

section
/-! A step, and what reset leaves (95; 22 R525). -/

namespace Sys2Proof.Machine

/-- Settles O1. -/
theorem stepPerformsFrontCommand : Obligations.StepPerformsFrontCommand := by
  refine ⟨fun c rest s => rfl, fun s h => ?_⟩
  unfold step
  rw [h]

end Sys2Proof.Machine
end

section
/-! What reset leaves (22 R525). -/

namespace Sys2Proof.Machine

/-- No core has begun after reset. -/
theorem coreOf_reset (n : Nat) : coreOf State.reset n = coreDef n := rfl
theorem reg_reset (off : Nat) : reg State.reset off = regDef off := rfl
theorem queueOf_reset (q : Nat) : queueOf State.reset q = qDef q := rfl

/-- The general registers of a core that has not begun read as zero. -/
theorem readG_coreDef (n : Nat) (i : GReg) : readG (coreDef n).regs i = 0 := by
  unfold readG
  split
  · rfl
  · rfl

/-- Settles O60. -/
theorem resetLeavesTheStatedValues : Obligations.ResetLeavesTheStatedValues := by
  refine ⟨rfl, rfl, rfl, rfl, fun n => ?_, reg_reset, rfl, fun q => ?_⟩
  · rw [coreOf_reset]
    exact ⟨rfl, readG_coreDef n, rfl, rfl⟩
  · rw [queueOf_reset]
    rfl

end Sys2Proof.Machine
end

section
/-! The key and access-window registers (08 R216). -/

namespace Sys2Proof.Machine

/-- Register `n` of the CSRs becomes `w`, nothing else changes. -/
theorem onlyCsr_setCsr {r : Regs} {n : Nat} {w v : Word64} (h : v = w) :
    csr (setCsr r n v) n = w ∧ (∀ m, m ≠ n → csr (setCsr r n v) m = csr r m) ∧ setCsr r n v = { r with csr := (setCsr r n v).csr } :=
  ⟨h ▸ csr_setCsr_same .., fun m hm => by rw [csr_setCsr, if_neg hm], rfl⟩
/-- A word with bit 0 replaced is the word of those bits. -/
theorem putFld_zero_eq {x w : Word64} {b : Bool}
    (h : ∀ i, i < 64 → w.getLsbD i = if i = 0 then b else x.getLsbD i) : putFld x 0 0 b.toNat = w := by
  apply BitVec.eq_of_getLsbD_eq
  intro i hi
  rw [getLsbD_putFld _ _ _ (le_refl 0) (by decide), h i hi]
  by_cases h0 : i = 0
  · subst h0
    cases b <;> rfl
  · rw [if_neg (by omega), if_neg h0]

section
variable {lc : LC} {s u : State} (h : Issues lc s u) {i : Instr} {sfn n : Nat} {v w : Word64}
include h

/-- An instruction of opcode 0x3E that writes one CSR, not the one that freezes the counters. -/
theorem Issues.executes_setCsr {ser : Bool} {insn : Word32} {body : State → Eff} {f : Regs → Word64} (hx : exec i s = .next (runInsn lc ser insn body s))
    (hb : body u = doneRegs lc (fun r => setCsr r n (f r)) u) (hn : n ≠ 0x522) (hv : f (coreOf u lc.val).regs = w) :
    Executes lc s u i fun old new => csr new n = w ∧ (∀ m, m ≠ n → csr new m = csr old m) ∧ new = { old with csr := new.csr } :=
  ⟨_, hx, _, onlyCsr_setCsr hv, runInsn_doneRegs h ser insn body _ hb (by rw [csr_setCsr, if_neg (Ne.symm hn)])⟩
/-- A privileged instruction at U (07 R183; 08 R216). -/
theorem Issues.raises_priv {ser : Bool} {x : BitVec 12} {body : State → Eff} (hx : exec i s = sysInsn 0x3E sfn ser true true lc 0 0 x body s)
    (hl : levelOf (coreOf u lc.val).regs = 0) : Raises lc s u i (encS 0x3E 0 0 sfn x) 2 0 0 0 (coreOf u lc.val).pc :=
  h.raises_exc hx (by simp [regsOf, hl, excPriv]) (by decide) (by decide)
end

/-- Settles O26: each writes its CSR alone; the windows ask for a level above U. -/
theorem keyAndWindowInstructionsWriteTheirRegister : Obligations.KeyAndWindowInstructionsWriteTheirRegister := by
  intro lc s u rv h r only
  refine ⟨h.executes_setCsr rfl rfl (by decide) rfl, fun hl => ⟨fun w hw => ?opens, fun w hw => ?closes⟩,
    fun hl => ⟨h.raises_priv rfl hl, h.raises_priv rfl hl⟩⟩
  case opens =>
    refine h.executes_setCsr rfl (f := fun r => putFld (csr r 0x4C4) 0 0 1) (by simp [regsOf, show levelOf (coreOf u lc.val).regs ≠ 0 from hl]) (by decide)
      (putFld_zero_eq (b := true) fun i hi => ?_)
    rw [hw i hi]
    by_cases h0 : i = 0 <;> simp [h0, r]
  case closes =>
    refine h.executes_setCsr rfl (f := fun r => putFld (csr r 0x4C4) 0 0 0) (by simp [regsOf, show levelOf (coreOf u lc.val).regs ≠ 0 from hl]) (by decide)
      (putFld_zero_eq (b := false) fun i hi => ?_)
    rw [hw i hi]
    by_cases h0 : i = 0 <;> simp [h0, r]

end Sys2Proof.Machine
end

section
/-! Exception return and system calls (07 R183, R184). -/

namespace Sys2Proof.Machine

/-- `q` is `r` after an exception return: the status of the level is what entry saved, the level lowered where PL is U. -/
structure ReturnedRegs (r q : Regs) : Prop where
  flags : q.flags = flagsOfWord (BitVec.ofNat 64 (fld (csr r (bankOf r + 3)) 11 8))
  ie : (csr q (bankOf r)).getLsbD 0 = (csr r (bankOf r + 3)).getLsbD 0
  exl : (csr q (bankOf r)).getLsbD 1 = false
  lowered : levelOf r = 1 ∧ fld (csr r (bankOf r + 3)) 5 4 = 0 → levelOf q = 0 ∧ readG q 31 = csr r 0x409 ∧ csr q 0x409 = readG r 31
  stayed : ¬(levelOf r = 1 ∧ fld (csr r (bankOf r + 3)) 5 4 = 0) → levelOf q = levelOf r ∧ readG q 31 = readG r 31 ∧ csr q 0x409 = csr r 0x409
  general : ∀ i, i ≠ 31 → readG q i = readG r i
  vectors : q.v = r.v
  masks : q.k = r.k
  csrs : ∀ n, n ≠ bankOf r → n ≠ 0x400 → n ≠ 0x409 → csr q n = csr r n

/-- FLAGS as they lie in a saved status (07 R176). -/
theorem flagsOfWord_fld (st : Word64) :
    flagsOfWord (BitVec.ofNat 64 (fld st 11 8)) = { n := st.getLsbD 11, z := st.getLsbD 10, c := st.getLsbD 9, v := st.getLsbD 8 } := by
  simp only [flagsOfWord, BitVec.getLsbD_ofNat, testBit_fld]
  rfl
theorem eretRegs_eq (r : Regs) : eretRegs r =
    if (decide (levelOf r = 1) && fld (csr r (bankOf r + 3)) 5 4 == 0) = true then
      setLevel 0 (swapSp (bankOf r + 9) (setIeExl (bankOf r) ((csr r (bankOf r + 3)).getLsbD 0) false
        { r with flags := flagsOfWord (BitVec.ofNat 64 (fld (csr r (bankOf r + 3)) 11 8)) }))
    else setIeExl (bankOf r) ((csr r (bankOf r + 3)).getLsbD 0) false
      { r with flags := flagsOfWord (BitVec.ofNat 64 (fld (csr r (bankOf r + 3)) 11 8)) } := rfl
theorem returnedRegs_eretRegs (r : Regs) : ReturnedRegs r (eretRegs r) := by
  have hbank := bankOf_eq r
  rw [eretRegs_eq]
  generalize hfl : flagsOfWord (BitVec.ofNat 64 (fld (csr r (bankOf r + 3)) 11 8)) = fl
  generalize hr : setIeExl (bankOf r) ((csr r (bankOf r + 3)).getLsbD 0) false { r with flags := fl } = r1
  have hie : (csr r1 (bankOf r)).getLsbD 0 = (csr r (bankOf r + 3)).getLsbD 0 ∧ (csr r1 (bankOf r)).getLsbD 1 = false := by
    obtain ⟨hie, hexl, -⟩ := ie_setIeExl (bankOf r) ((csr r (bankOf r + 3)).getLsbD 0) false { r with flags := fl }
    exact hr ▸ ⟨hie, hexl⟩
  have hlevel : levelOf r1 = levelOf r := hr ▸ levelOf_setIeExl ..
  have hcsr : ∀ n, n ≠ bankOf r → csr r1 n = csr r n := fun n hn => hr ▸ csr_setIeExl _ _ _ hn
  have hg : ∀ i, readG r1 i = readG r i := fun i => hr ▸ readG_setIeExl ..
  have hkept : r1.flags = fl ∧ r1.v = r.v ∧ r1.k = r.k := hr ▸ ⟨rfl, rfl, rfl⟩
  obtain ⟨hflags, hv, hk⟩ := hkept
  have h409 : (0x409 : Nat) ≠ bankOf r := by rcases hbank with hb | hb <;> rw [hb] <;> decide
  by_cases hlow : levelOf r = 1 ∧ fld (csr r (bankOf r + 3)) 5 4 = 0
  · have hb : bankOf r = 0x400 := by simp [bankOf, hlow.1]
    rw [if_pos (by simp [hlow.1, hlow.2])]
    exact {
      flags := by rw [hfl]; exact (writeG_flags ..).trans hflags
      ie := by rw [hb, low_setLevel _ _ (by decide), csr_swapSp, if_neg (by decide), ← hb]; exact hie.1
      exl := by rw [hb, low_setLevel _ _ (by decide), csr_swapSp, if_neg (by decide), ← hb]; exact hie.2
      lowered _ := ⟨levelOf_setLevel (by decide) _, by rw [readG_setLevel, readG_swapSp, if_pos rfl, hb, hcsr 0x409 h409],
        by rw [csr_setLevel _ (by decide), csr_swapSp, hb, if_pos rfl, hg]⟩
      stayed hn := absurd hlow hn
      general i hi := by rw [readG_setLevel, readG_swapSp, if_neg hi, hg]
      vectors := (writeG_v ..).trans hv
      masks := (writeG_k ..).trans hk
      csrs n h1 h2 h3 := by rw [csr_setLevel _ h2, csr_swapSp, if_neg (by rw [hb]; exact h3), hcsr n h1] }
  · rw [if_neg (by simpa using hlow)]
    exact {
      flags := by rw [hfl]; exact hflags
      ie := hie.1
      exl := hie.2
      lowered hn := absurd hn hlow
      stayed _ := ⟨hlevel, hg 31, hcsr _ h409⟩
      general i _ := hg i
      vectors := hv
      masks := hk
      csrs n h1 _ _ := hcsr n h1 }

/-- The core after an exception return from the registers `r`. -/
def eretCore (r : Regs) (c : Core) : Core := { c with regs := eretRegs c.regs, eretSkip := eretArms r 0, eretStep := eretArms r 1 }
/-- A core that has nothing armed is not changed by disarming it. -/
theorem disarmed_eq {c : Core} (hc : Unarmed c) (q : Regs) : { c with regs := q, eretSkip := 0, eretStep := 0 } = { c with regs := q } := by
  obtain ⟨-, hskip, hstep, -⟩ := hc
  cases c
  simp only at hskip hstep
  rw [hskip, hstep]

section
variable {lc : LC} {s u : State} (h : Issues lc s u)
include h

/-- A system call reports its number; the next instruction is its return PC. -/
theorem Issues.raises_svc (x : BitVec 12) :
    Raises lc s u (.svc lc 0 0 x) (encS 0x3E 0 0 0 x) 16 0 0 (x.setWidth 64) ((coreOf u lc.val).pc + 4) := by
  have ht := runInsn_raises h true (encS 0x3E 0 0 0 x) _ { cause := excSvc, addr := x.setWidth 64 } rfl rfl (show (16 : Nat) ≠ 15 by decide)
  have hi : causeInfo { cause := excSvc, addr := x.setWidth 64 } false = 0 * 2 ^ 38 + 0 * 256 + 16 := by simp [causeInfo, excSvc]
  rw [hi, if_pos rfl] at ht
  exact ⟨_, rfl, ht⟩
/-- A return that arms neither SKIP nor SSTEP. -/
theorem Issues.completes_eret (hl : levelOf (coreOf u lc.val).regs ≠ 0) (harm : fld (csr (coreOf u lc.val).regs 0x610) 1 0 = 0) :
    Completes (.eret lc 0 0 0) s fun t => CoreNow lc u t { coreOf u lc.val with
        regs := eretRegs (coreOf u lc.val).regs, pc := csr (coreOf u lc.val).regs (bankOf (coreOf u lc.val).regs + 2) } := by
  have hbits : ∀ j, j < 2 → (csr (coreOf u lc.val).regs 0x610).getLsbD j = false := by
    intro j hj
    have ht := testBit_fld (csr (coreOf u lc.val).regs 0x610) 1 0 j
    rw [harm, Nat.zero_testBit, decide_eq_true (by omega), Bool.true_and, Nat.zero_add] at ht
    exact ht.symm
  have harms : ∀ j, j < 2 → eretArms (coreOf u lc.val).regs j = 0 := fun j hj => by simp [eretArms, hbits j hj]
  have hcore : coreOf (updCore lc.val (eretCore (coreOf u lc.val).regs) u) lc.val =
      { coreOf u lc.val with regs := eretRegs (coreOf u lc.val).regs } := by
    rw [coreOf_updCore_same, eretCore, harms 0 (by decide), harms 1 (by decide), disarmed_eq h.core_unarmed]
  have hret := returnedRegs_eretRegs (coreOf u lc.val).regs
  have hx := h.exec_ok (i := .eret lc 0 0 0) (s2 := updCore lc.val (eretCore (coreOf u lc.val).regs) u) rfl (by simp [regsOf, hl]; exact ⟨rfl, rfl, rfl⟩)
    (by rw [hcore]; exact ⟨h.core_group, h.core_shadows, h.core_unarmed⟩)
    (by
      rw [hcore, Still, hret.csrs _ (by rcases bankOf_eq (coreOf u lc.val).regs with hb | hb <;> rw [hb] <;> decide) (by decide) (by decide)]
      exact h.still)
    (by simp)
  refine ⟨_, hx, ?_, fun n hn => ?_, rfl⟩
  · rw [coreOf_setCore_same, hcore]
    rfl
  · rw [coreOf_setCore_other _ _ hn, coreOf_updCore_other _ _ hn]
end

/-- Settles O25: `eretRegs` restores what entry saved, and nothing but the registers and the PC changes. -/
theorem systemCallsEnterAndReturn : Obligations.SystemCallsEnterAndReturn := by
  intro lc s u x h c r b st lowers
  refine ⟨h.raises_svc x, fun hl => h.raises_priv rfl hl, fun hl harm _ => ?returns, fun hx => ?reserved⟩
  case returns =>
    obtain ⟨t, ht, hnow⟩ := h.completes_eret hl harm
    have hret := returnedRegs_eretRegs r
    have hq : (coreOf t lc.val).regs = eretRegs r := by rw [hnow.1]
    refine ⟨t, ht, ?_⟩
    simp only [hq]
    exact ⟨hnow, hret.flags.trans (flagsOfWord_fld st), hret.ie, hret.exl, hret.lowered, hret.stayed, hret.general, hret.vectors, hret.masks,
      hret.csrs⟩
  case reserved => exact h.illegal_of_body rfl (by simp [show ¬x = 0#12 from hx])

end Sys2Proof.Machine
end

section
/-! Vector instructions that change registers without a trap (05 R136 to R140): what a core that issues them undisturbed is left with, and the mask
instructions (05 R140). -/

namespace Sys2Proof.Machine

section
variable {lc : LC} {s u : State} (h : Issues lc s u) {i : Instr} {op vfn : Nat} {vd va vb : VReg} {k : KReg} {z : Bool} {ew : BitVec 2} {bad : Bool}
  {f : Regs → Regs} {R : Regs → Regs → Prop}
include h

/-- A vector instruction of no reserved word that changes registers alone, the CSRs kept. -/
theorem Issues.executes_vecRegs (hon : VectorOn (coreOf u lc.val).regs) (hbad : bad = false)
    (hx : exec i s = vecInsn op vfn lc vd va vb k z ew bad (vecRegs lc f) s)
    (hcsr : (f (coreOf u lc.val).regs).csr = (coreOf u lc.val).regs.csr) (hR : R (coreOf u lc.val).regs (f (coreOf u lc.val).regs)) :
    Executes lc s u i R := by
  refine ⟨_, hx, _, hR, runInsn_regs h false _ _ f _ [vecEv u lc] ?_ ?_ (by rw [csr, csr, hcsr])⟩
  · simp only [regsOf, (vectorOn_iff _).1 hon, hbad, Bool.false_eq_true, if_false]
    rfl
  · exact fun e he => List.mem_singleton.1 he ▸ rfl
/-- It executes where no field is reserved and raises EXC_ILLEGAL elsewhere. -/
theorem Issues.form_vecRegs {fits : Prop} (hon : VectorOn (coreOf u lc.val).regs) (hbad : fits ↔ bad = false)
    (hx : exec i s = vecInsn op vfn lc vd va vb k z ew bad (vecRegs lc f) s)
    (hcsr : (f (coreOf u lc.val).regs).csr = (coreOf u lc.val).regs.csr) (hR : R (coreOf u lc.val).regs (f (coreOf u lc.val).regs)) :
    (fits → Executes lc s u i R) ∧ (¬fits → Illegal lc s u i (encV op vd va vb k z ew vfn)) :=
  ⟨fun hf => h.executes_vecRegs hon (hbad.1 hf) hx hcsr hR,
    fun hf => h.illegal_vecInsn hon (by simpa using mt hbad.2 hf) hx⟩
end

theorem wroteK_writeK (kd : KReg) (w : Word64) (r : Regs) : WroteK kd w r (writeK r kd w) :=
  ⟨fun j => readK_writeK r kd j w, writeK_flags .., writeK_g .., writeK_v .., writeK_csr ..⟩

/-! ### Mask instructions -/

section
variable {lc : LC} {s u : State} (h : Issues lc s u) (hon : VectorOn (coreOf u lc.val).regs) {i : Instr} {vfn : Nat} {vd va vb : VReg} {k : KReg} {z : Bool} {ew : BitVec 2}
  {fits : Prop} {bad : Bool} {f : Regs → Word64} {w : Word64}
include h hon

/-- A mask instruction that writes a mask register alone. -/
theorem Issues.form_toMask (hbad : fits ↔ bad = false)
    (hx : exec i s = vecInsn 0x27 vfn lc vd va vb k z ew bad (vecRegs lc fun r => writeK r (maskReg vd) (f r)) s)
    (hw : f (coreOf u lc.val).regs = w) :
    (fits → Executes lc s u i (WroteK (maskReg vd) w)) ∧ (¬fits → Illegal lc s u i (encV 0x27 vd va vb k z ew vfn)) :=
  h.form_vecRegs hon hbad hx (writeK_csr ..) (hw ▸ wroteK_writeK ..)
/-- A mask instruction that writes a general register alone. -/
theorem Issues.form_toGeneral (hbad : fits ↔ bad = false)
    (hx : exec i s = vecInsn 0x27 vfn lc vd va vb k z ew bad (vecRegs lc fun r => writeG r (gOf vd) (f r)) s)
    (hw : f (coreOf u lc.val).regs = w) :
    (fits → Executes lc s u i (WroteG vd w (coreOf u lc.val).regs.flags)) ∧ (¬fits → Illegal lc s u i (encV 0x27 vd va vb k z ew vfn)) :=
  h.form_vecRegs hon hbad hx (writeG_csr ..) (hw ▸ wroteG_writeG ..)
end

/-- The active lanes of a mask, counted. -/
theorem activeCount_eq_countP (m : Word64) (w : Nat) : activeCount m w = (List.range (512 / w)).countP fun i => m.getLsbD i := by
  rw [activeCount, List.countP_eq_length_filter]
  rfl

/-- Settles O21: each form writes one mask or general register, and the value is that of R140. -/
theorem maskInstructionsGiveResults : Obligations.MaskInstructionsGiveResults := by
  intro lc s u vd va vb k z ew h hon r kr L free mask form logic
  have logical {i : Instr} {op : KOp} {vfn : Nat} {w : Word64} (hx : exec i s = kLogic op vfn false lc vd va vb k z ew s)
      (hw : kOp op (readK r (maskReg va)) (readK r (maskReg vb)) = w) : logic i vfn w :=
    h.form_toMask hon (by simp [free, mask, maskRegOk]; tauto) hx hw
  refine ⟨logical rfl rfl, logical rfl rfl, logical rfl rfl, logical rfl rfl,
    h.form_toMask hon (by simp [free, mask, maskRegOk]; tauto) rfl rfl, h.form_toGeneral hon (by simp [free, mask, maskRegOk]; tauto) rfl rfl,
    h.form_toMask hon (by simp [free, mask, maskRegOk]; tauto) rfl rfl, h.form_toGeneral hon (by simp [free, mask, maskRegOk]; tauto) rfl ?count,
    h.form_toGeneral hon (by simp [free, mask, maskRegOk]; tauto) rfl ?lowest⟩
  case count =>
    rw [activeCount_eq_countP, ewBits_eq]
    rfl
  case lowest =>
    rw [firstOne, laneCount, ewBits_eq]
    rfl

end Sys2Proof.Machine
end

section
/-! Permutes and moves of lanes (05 R136): the lane that each destination lane comes from, for every element width. -/

namespace Sys2Proof.Machine

theorem lane_eq_zero {w i : Nat} (h : 512 ≤ w * i) (v : Vec) : lane w v i = 0 := by
  apply BitVec.eq_of_getLsbD_eq
  intro j hj
  simp only [lane, BitVec.getLsbD_extractLsb']
  rw [BitVec.getLsbD_of_ge v _ (by omega)]
  simp

/-! An element width is one that divides the vector. -/
section
variable {w : Nat} (hw : w * (512 / w) = 512) (v : Vec)
include hw

theorem laneAt_lanesOf (i : Nat) : laneAt (lanesOf w v) i = (lane w v i).toNat := by
  rw [laneAt, lanesOf_eq_map]
  by_cases hi : i < 512 / w
  · rw [List.getD_eq_getElem _ _ (by simpa using hi), List.getElem_map, List.getElem_range]
  · have hle : 512 ≤ w * i := hw ▸ Nat.mul_le_mul_left w (Nat.not_lt.1 hi)
    rw [List.getD_eq_default _ _ (by simpa using Nat.not_lt.1 hi), lane_eq_zero hle]
    simp
theorem laneCount_pos : 0 < 512 / w := by
  rcases Nat.eq_zero_or_pos (512 / w) with h0 | h0
  · rw [h0] at hw
    simp at hw
  · exact h0
end

@[simp] theorem length_lanesOf (w : Nat) (v : Vec) : (lanesOf w v).length = 512 / w := by simp [lanesOf_eq_map]

/-! ### Each permute -/

section
variable {w : Nat} (mask : Word64) (z : Bool) (old a b : Vec)

section
variable (hw : w * (512 / w) = 512)
include hw

theorem maskedLanes_vPerm : MaskedLanes w mask z (fun j => lane w a ((lane w b j).toNat % (512 / w))) old (vPerm w mask z old a b) := by
  rw [vPerm, lanesOf_eq_map w b, List.map_map]
  refine maskedLanes_vecOf_maskLanes mask z old fun j => ?_
  simp only [Function.comp_apply, laneAt_lanesOf hw, laneCount, BitVec.ofNat_toNat, BitVec.setWidth_eq]
theorem maskedLanes_vPerm2 : MaskedLanes w mask z (fun j => if (lane w b j).toNat % (2 * (512 / w)) < 512 / w then
      lane w a ((lane w b j).toNat % (2 * (512 / w))) else lane w old ((lane w b j).toNat % (2 * (512 / w)) - 512 / w))
    old (vPerm2 w mask z old a b) := by
  have hat : ∀ i, laneAt (lanesOf w a ++ lanesOf w old) i =
      if i < 512 / w then (lane w a i).toNat else (lane w old (i - 512 / w)).toNat := by
    intro i
    rw [← laneAt_lanesOf hw a i, ← laneAt_lanesOf hw old, laneAt, laneAt, laneAt]
    split
    case isTrue hi => exact List.getD_append _ _ _ _ (by simpa using hi)
    case isFalse hi => rw [List.getD_append_right _ _ _ _ (by simpa using hi), length_lanesOf]
  rw [vPerm2, lanesOf_eq_map w b, List.map_map]
  refine maskedLanes_vecOf_maskLanes mask z old fun j => ?_
  simp only [Function.comp_apply, hat, laneCount, apply_ite (BitVec.ofNat w), BitVec.ofNat_toNat, BitVec.setWidth_eq]
theorem maskedLanes_vRev : MaskedLanes w mask z (fun j => lane w a (512 / w - 1 - j)) old (vRev w mask z old a) := by
  have hrev : (lanesOf w a).reverse = (List.range (512 / w)).map fun j => laneAt (lanesOf w a) (512 / w - 1 - j) := by
    refine List.ext_getElem (by simp) fun j h1 h2 => ?_
    rw [List.getElem_reverse, List.getElem_map, List.getElem_range, laneAt, List.getD_eq_getElem]
    · simp only [length_lanesOf]
    · have := laneCount_pos hw
      rw [length_lanesOf]
      omega
  rw [vRev, hrev]
  refine maskedLanes_vecOf_maskLanes mask z old fun j => ?_
  rw [laneAt_lanesOf hw, BitVec.ofNat_toNat, BitVec.setWidth_eq]
end

theorem expandLanes_cons (n o : Nat) (os xs : List Nat) : expandLanes mask z n (o :: os) xs =
    if mask.getLsbD n then laneAt xs 0 :: expandLanes mask z (n + 1) os xs.tail else (if z then 0 else o) :: expandLanes mask z (n + 1) os xs := by
  cases xs <;> rfl
/-- Each active lane of an expansion is the source lane of its number among the active ones. -/
theorem expandLanes_map_range' (o : Nat → Nat) (len n : Nat) (xs : List Nat) : expandLanes mask z n ((List.range' n len).map o) xs =
    maskLanes mask z n ((List.range' n len).map o)
      ((List.range' n len).map fun i => laneAt xs ((List.range' n (i - n)).countP fun i => mask.getLsbD i)) := by
  induction len generalizing n xs with
  | zero => rfl
  | succ len ih =>
    have htail : ∀ ys : List Nat, (∀ c, laneAt ys c = laneAt xs (c + (mask.getLsbD n).toNat)) →
        (List.range' (n + 1) len).map (fun i => laneAt ys ((List.range' (n + 1) (i - (n + 1))).countP fun i => mask.getLsbD i)) =
          (List.range' (n + 1) len).map fun i => laneAt xs ((List.range' n (i - n)).countP fun i => mask.getLsbD i) := by
      intro ys hys
      refine List.map_congr_left fun i hi => ?_
      obtain ⟨hle, -⟩ := List.mem_range'_1.1 hi
      rw [hys, show i - n = (i - (n + 1)) + 1 by omega, List.range'_succ, List.countP_cons]
      cases mask.getLsbD n <;> rfl
    rw [List.range'_succ, List.map_cons, List.map_cons, maskLanes, expandLanes_cons, active, Nat.sub_self]
    cases hbit : mask.getLsbD n
    · rw [ih (n + 1) xs, htail xs fun c => by simp [hbit]]
      rfl
    · rw [ih (n + 1) xs.tail, htail xs.tail fun c => by cases xs <;> simp [laneAt, hbit]]
      rfl
theorem maskedLanes_vExpand (hw : w * (512 / w) = 512) : MaskedLanes w mask z (fun j => lane w a ((List.range j).countP fun i => mask.getLsbD i)) old (vExpand w mask z old a) := by
  rw [vExpand, lanesOf_eq_map w old, List.range_eq_range', expandLanes_map_range', ← List.range_eq_range', ← lanesOf_eq_map]
  refine maskedLanes_vecOf_maskLanes mask z old fun j => ?_
  rw [laneAt_lanesOf hw, BitVec.ofNat_toNat, BitVec.setWidth_eq, Nat.sub_zero, List.range_eq_range']
theorem maskedLanes_vBcst (x : Nat) : MaskedLanes w mask z (fun _ => BitVec.ofNat w x) old (vBcst w mask z old x) := by
  rw [vBcst, laneCount, show List.replicate (512 / w) (x % 2 ^ w) = (List.range (512 / w)).map fun _ => x % 2 ^ w by simp [List.map_const']]
  exact maskedLanes_vecOf_maskLanes mask z old fun j => ofNat_mod_two_pow w x
/-- The active lanes lie downward from lane 0, zero above them. -/
theorem lane_vCompress {j : Nat} (hj : j < 512 / w) : lane w (vCompress w mask a) j =
    match (activeLanes w mask)[j]? with
    | some i => lane w a i
    | none => 0 := by
  have hcomp : ∀ (o : Nat → Nat) (len n : Nat), compressLanes mask n ((List.range' n len).map o) =
      ((List.range' n len).filter fun i => mask.getLsbD i).map o := by
    intro o len
    induction len with
    | zero => exact fun n => rfl
    | succ len ih =>
      intro n
      rw [List.range'_succ, List.map_cons, compressLanes, ih, List.filter_cons]
      by_cases ha : active mask n = true
      · rw [if_pos ha, if_pos (by exact ha)]
        rfl
      · rw [if_neg ha, if_neg (by exact ha)]
  rw [vCompress, lane_vecOf _ hj, lanesOf_eq_map, List.range_eq_range', hcomp, ← List.range_eq_range', List.getD_eq_getElem?_getD,
    List.getElem?_map, activeLanes]
  cases ((List.range (512 / w)).filter fun i => mask.getLsbD i)[j]? <;> simp
theorem lane_vIns {n j : Nat} (x : Word64) (hj : j < 512 / w) :
    lane w (vIns w n old x) j = if j = n then x.setWidth w else lane w old j := by
  rw [vIns, lane_vecOf _ hj, List.getD_eq_getElem _ _ (by simpa using hj), List.getElem_set]
  by_cases h : n = j
  · rw [if_pos h, if_pos h.symm, ofNat_mod_two_pow, BitVec.ofNat_toNat]
  · rw [if_neg h, if_neg (Ne.symm h)]
    simp [lanesOf_eq_map]
theorem vExt_eq (hw : w * (512 / w) = 512) (n : Nat) : vExt w n a = (lane w a n).setWidth 64 := by
  rw [vExt, laneAt_lanesOf hw, BitVec.ofNat_toNat]
end

/-! ### The instructions -/

theorem laneOk_eq (n : VReg) (ew : BitVec 2) : laneOk n ew = decide (n.val < 512 / ewBits ew) := rfl
theorem mul_laneCount {w : Nat} (hw : w = 64 ∨ w = 32 ∨ w = 16) : w * (512 / w) = 512 := by
  rcases hw with rfl | rfl | rfl <;> rfl
theorem ewBits_cases (ew : BitVec 2) : ewBits ew = 64 ∨ ewBits ew = 32 ∨ ewBits ew = 16 := by
  rw [ewBits_eq]
  split
  · exact .inl rfl
  · split
    · exact .inr (.inl rfl)
    · exact .inr (.inr rfl)

/-- Settles O18: each instruction writes what its permute of the lanes gives; reserved fields raise EXC_ILLEGAL. -/
theorem permutesMoveLanes : Obligations.PermutesMoveLanes := by
  intro lc s u vd va vb k z ew h hon r w L m a at_ gives bad
  have hew : w = ewBits ew := (ewBits_eq ew).symm
  clear_value w
  subst hew
  have hw : ewBits ew * (512 / ewBits ew) = 512 := mul_laneCount (ewBits_cases ew)
  have hok : laneOk vb ew = decide (vb.val < L) := laneOk_eq vb ew
  refine ⟨fun h3 => ⟨?perm, ?perm2, fun hvb => ?bcstl, fun hvb => ⟨?rev, ?bcstg, ?expand, fun hz => ?compress⟩, fun hvb hk hz => ⟨?ins, ?ext⟩⟩,
    fun h3 => ⟨h.illegal_vecInsn hon (by simp [h3]) rfl, h.illegal_vecInsn hon (by simp [h3]) rfl⟩,
    fun hb => h.illegal_vecInsn hon (by simpa using hb) rfl,
    fun hb => ⟨h.illegal_vecInsn hon (by simpa using hb) rfl, h.illegal_vecInsn hon (by simpa using hb) rfl, h.illegal_vecInsn hon (by simpa using hb) rfl⟩,
    fun hb => h.illegal_vecInsn hon (by simpa [hok] using hb) rfl, fun hb => ⟨h.illegal_vecInsn hon ?insReserved rfl, h.illegal_vecInsn hon ?extReserved rfl⟩⟩
  case perm => exact h.executesV_vecTo hon (by simpa using h3) rfl (maskedLanes_vPerm _ _ _ _ _ hw)
  case perm2 => exact h.executesV_vecTo hon (by simpa using h3) rfl (maskedLanes_vPerm2 _ _ _ _ _ hw)
  case bcstl =>
    refine h.executesV_vecTo hon (by simpa [hok] using ⟨h3, hvb⟩) rfl ?_
    have hl : BitVec.ofNat (ewBits ew) (laneAt (lanesOf (ewBits ew) (readV r va)) vb.val) = a vb.val := by
      rw [laneAt_lanesOf hw, BitVec.ofNat_toNat, BitVec.setWidth_eq]
    rw [← hl]
    exact maskedLanes_vBcst _ _ _ _
  case rev => exact h.executesV_vecTo hon (by simpa using ⟨h3, hvb⟩) rfl (maskedLanes_vRev _ _ _ _ hw)
  case bcstg =>
    refine h.executesV_vecTo hon (by simpa using ⟨h3, hvb⟩) rfl ?_
    rw [← BitVec.ofNat_toNat]
    exact maskedLanes_vBcst _ _ _ _
  case expand => exact h.executesV_vecTo hon (by simpa using ⟨h3, hvb⟩) rfl (maskedLanes_vExpand _ _ _ _ hw)
  case compress => exact h.executesV_vecTo hon (by simpa using ⟨h3, hvb, hz⟩) rfl fun j hj => lane_vCompress _ _ hj
  case ins => exact h.executesV_vecTo hon (by simpa [hok] using ⟨h3, ⟨hvb, hk⟩, hz⟩) rfl fun j hj => lane_vIns _ _ hj
  case ext =>
    refine h.executes_vecRegs hon (f := fun r => writeG r (gOf vd) (vExt (ewBits ew) vb.val (readV r va))) ?_ rfl (writeG_csr ..) ?_
    · simpa [hok] using ⟨⟨⟨h3, hvb⟩, hk⟩, hz⟩
    · rw [vExt_eq _ hw]
      exact wroteG_writeG ..
  case insReserved => simpa [hok, or_assoc] using hb
  case extReserved => simpa [hok, or_assoc] using hb

end Sys2Proof.Machine
end

section
/-! An exception raised in a state that differs from the one the fetch left: a core that stands idle enters it (07 R176 to R178). -/

namespace Sys2Proof.Machine

theorem entered_raiseExc {lc : LC} {u : State} (hidle : Idle (coreOf u lc.val)) (hst : Still (coreOf u lc.val).regs (levelOf (coreOf u lc.val).regs))
    (insn : Word32) {e : Exc} (hw : e.noInsn = false) (hd : e.cause ≠ excDebug) (hsvc : e.cause ≠ excSvc) :
    Entered lc u (raiseExc lc.val e insn u) e.cause (causeInfo e false) (coreOf u lc.val).pc e.addr (coreOf u lc.val).pc (insn.setWidth 64) e.elanes := by
  obtain ⟨-, hskip, -, hreq⟩ := hidle.unarmed
  have hcut : updCore lc.val cutShadows u = setCore u lc.val (coreOf u lc.val) := by rw [updCore, cutShadows_none hidle.shadows]
  have hhalts : ∀ x, haltsInstead x lc.val e = false := fun x => by simp [haltsInstead, hd]
  have hraise : raiseExc lc.val e insn u = stepEnds lc.val (pmEvents1 lc.val [plainEvent (coreOf u lc.val) 0x72]
      (setCore (setCore u lc.val (coreOf u lc.val)) lc.val
        (enterCore e false (coreOf u lc.val).pc (coreOf u lc.val).pc (insn.setWidth 64) (coreOf u lc.val)))) := by
    simp only [raiseExc, hidle.group, hw, hsvc, hcut, hhalts, Bool.false_and, Bool.false_eq_true, if_false]
    rw [updCore, coreOf_setCore_same]
  generalize hc : enterCore e false (coreOf u lc.val).pc (coreOf u lc.val).pc (insn.setWidth 64) (coreOf u lc.val) = c at hraise
  generalize hx : setCore (setCore u lc.val (coreOf u lc.val)) lc.val c = x at hraise
  have hxc : coreOf x lc.val = c := by rw [← hx, coreOf_setCore_same]
  have hcsr : csr c.regs 0x522 = csr (coreOf u lc.val).regs 0x522 := by
    have hbank := bankOf_eq (coreOf u lc.val).regs
    rw [← hc]
    simp only [enterCore, hskip, if_true]
    exact (enterRegs_spec ..).rest _ (by decide) (by rw [bankOf_excBank]; omega) (by rw [bankOf_excBank]; omega)
  have hevents : pmEvents1 lc.val [plainEvent (coreOf u lc.val) 0x72] x = x := by
    refine pmEvents1_still fun ev hev => ?_
    rw [List.mem_singleton.1 hev, hxc, Still, hcsr]
    exact hst
  have hends : stepEnds lc.val x = x := by
    have hxreq : (coreOf x lc.val).stepReq = false := by
      rw [hxc, ← hc]
      exact hreq
    simp [stepEnds, hxreq]
  rw [hraise, hevents, hends]
  refine entered_of_enterCore e false _ _ _ hskip ⟨hxc.trans hc.symm, fun n hn => ?_, ?_⟩
  · rw [← hx, coreOf_setCore_other _ _ hn, coreOf_setCore_other _ _ hn]
  · rw [← hx]
    rfl

/-- An instruction whose body raises an exception in a state `v`. -/
theorem Issues.entered_of_body {lc : LC} {s u v : State} (h : Issues lc s u) {ser : Bool} {insn : Word32} {body : State → Eff} {e : Exc}
    (hb : body u = .exc e v) (hidle : Idle (coreOf v lc.val)) (hst : Still (coreOf v lc.val).regs (levelOf (coreOf v lc.val).regs))
    (hw : e.noInsn = false) (hd : e.cause ≠ excDebug) (hsvc : e.cause ≠ excSvc) :
    Entered lc v (runInsn lc ser insn body s) e.cause (causeInfo e false) (coreOf v lc.val).pc e.addr (coreOf v lc.val).pc (insn.setWidth 64) e.elanes := by
  obtain ⟨page, hp⟩ := runInsn_issues h ser insn body
  rw [hp, hb]
  exact entered_raiseExc hidle hst insn hw hd hsvc

end Sys2Proof.Machine
end

section
/-! Floating-point instructions (05 R129 to R133): the flags of the active lanes, the trap where one is enabled (R132), and the lane instructions of
opcodes 0x21 and 0x22. -/

namespace Sys2Proof.Machine

/-! ### Flags of the lanes (05 R131, R132) -/

theorem bits_join (a b : FpFlags) : (a.join b).bits = a.bits ||| b.bits := by
  obtain ⟨a1, a2, a3, a4, a5⟩ := a
  obtain ⟨b1, b2, b3, b4, b5⟩ := b
  revert a1 a2 a3 a4 a5 b1 b2 b3 b4 b5
  decide
theorem bits_lt (a : FpFlags) : a.bits < 32 := by
  obtain ⟨a1, a2, a3, a4, a5⟩ := a
  revert a1 a2 a3 a4 a5
  decide
@[simp] theorem bits_none : ({} : FpFlags).bits = 0 := rfl

theorem testBit_maskOfBools (bs : List Bool) (j : Nat) : (maskOfBools bs).testBit j = bs.getD j false := by
  induction bs generalizing j with
  | nil => simp [maskOfBools]
  | cons b bs ih =>
    rw [maskOfBools, Nat.add_comm]
    cases j with
    | zero => cases b <;> simp [Nat.testBit_zero]
    | succ j =>
      rw [Nat.testBit_succ, List.getD_cons_succ, ← ih]
      congr 1
      cases b
      · simp
      · simp
        omega
/-- The lanes that trap, as a mask. -/
theorem trapLanes_eq (en n : Nat) (fs : List FpFlags) : trapLanes en n fs = 2 ^ n * maskOfBools (fs.map fun f => decide (f.bits &&& en ≠ 0)) := by
  induction fs generalizing n with
  | nil => rfl
  | cons f fs ih =>
    rw [trapLanes, ih, List.map_cons, maskOfBools, Nat.mul_add, Nat.pow_succ, Nat.mul_assoc]
    congr 1
    by_cases h : f.bits &&& en = 0 <;> simp [h]

/-- `o` has the flags of `L` lanes of which lane `j` raises `fl j` where it is active. -/
structure Collected (o : FpOut) (L : Nat) (mask : Word64) (fl : Nat → FpFlags) : Prop where
  flags : o.flags.bits = (List.range L).foldl (fun b j => b ||| if mask.getLsbD j then (fl j).bits else 0) 0
  raised : o.raised = (List.range L).map fun j => if mask.getLsbD j then fl j else {}

theorem fpCollect_map_range' (mask : Word64) (g : Nat → Nat × FpFlags) (n len : Nat) :
    (fpCollect mask n ((List.range' n len).map g)).lanes = (List.range' n len).map (fun j => (g j).1) ∧
    (fpCollect mask n ((List.range' n len).map g)).raised = (List.range' n len).map (fun j => if mask.getLsbD j then (g j).2 else {}) ∧
    (fpCollect mask n ((List.range' n len).map g)).flags.bits =
      (List.range' n len).foldr (fun j b => (if mask.getLsbD j then (g j).2.bits else 0) ||| b) 0 := by
  induction len generalizing n with
  | zero => exact ⟨rfl, rfl, rfl⟩
  | succ len ih =>
    obtain ⟨hl, hr, hf⟩ := ih (n + 1)
    simp only [List.range'_succ, List.map_cons, fpCollect, hl, hr, List.foldr_cons, bits_join, hf, true_and]
    refine ⟨rfl, ?_⟩
    congr 1
    cases h : mask.getLsbD n <;> simp [active, h]
theorem lanes_fpCollect (mask : Word64) (g : Nat → Nat × FpFlags) (L : Nat) :
    (fpCollect mask 0 ((List.range L).map g)).lanes = (List.range L).map fun j => (g j).1 := by
  rw [List.range_eq_range']
  exact (fpCollect_map_range' mask g 0 L).1
theorem collected_fpCollect (mask : Word64) (g : Nat → Nat × FpFlags) (L : Nat) :
    Collected (fpCollect mask 0 ((List.range L).map g)) L mask fun j => (g j).2 := by
  rw [List.range_eq_range']
  obtain ⟨-, hr, hf⟩ := fpCollect_map_range' mask g 0 L
  refine ⟨?_, List.range_eq_range' ▸ hr⟩
  rw [hf, ← List.foldr_map (f := fun j => if mask.getLsbD j then (g j).2.bits else 0) (g := fun a b => a ||| b),
    ← List.foldl_map (f := fun j => if mask.getLsbD j then (g j).2.bits else 0) (g := fun a b => a ||| b), List.range_eq_range']
  exact (List.foldl_eq_foldr (f := fun a b : Nat => a ||| b) ..).symm

/-! ### The end of a floating-point instruction -/

section
variable {lc : LC} {s u : State} (h : Issues lc s u) {i : Instr} {op vfn : Nat} {vd va vb : VReg} {k : KReg} {z : Bool} {ew : BitVec 2} {bad : Bool}
  {body : State → Eff} {fl : FpFlags} {lanes n : Nat} {write : Regs → Regs} {R : Regs → Regs → Prop}
include h

/-- Where none of the raised exceptions is enabled, the flags join FPCSR and the result is written. -/
theorem Issues.executes_fpEnd (hon : VectorOn (coreOf u lc.val).regs) (hbad : bad = false)
    (hx : exec i s = vecInsn op vfn lc vd va vb k z ew bad body s) (hb : body u = fpEnd lc fl lanes write n u)
    (hfl : fl.bits &&& fpEnables (coreOf u lc.val).regs = 0) (hcsr : ∀ q, (write q).csr = q.csr)
    (hR : ∀ w, R (coreOf u lc.val).regs (write (setCsr (coreOf u lc.val).regs 0x002 w))) :
    Executes lc s u i fun old new => FpFlagsJoined fl.bits old new ∧ R old new := by
  have hread : ∀ q m, csr (write q) m = csr q m := fun q m => by rw [csr, csr, hcsr]
  refine ⟨_, hx, _, ⟨⟨?_, fun m hm => ?_⟩, hR _⟩, runInsn_regs h false _ _
    (fun r => write (setCsr r 0x002 (csr r 0x002 ||| BitVec.ofNat 64 fl.bits))) _
    (vecEv u lc :: if n = 0 then [] else [{ evOne (coreOf u lc.val) 0x41 with n := n }]) ?_ ?_ ?_⟩
  · rw [hread, csr_setCsr_same]
  · rw [hread, csr_setCsr, if_neg hm]
  · simp only [regsOf, (vectorOn_iff _).1 hon, hbad, Bool.false_eq_true, if_false, hb, fpEnd, hfl, ne_eq, not_true]
  · intro e he
    rcases List.mem_cons.1 he with rfl | he
    · rfl
    · split at he
      · simp at he
      · rw [List.mem_singleton.1 he]
        rfl
  · rw [hread, csr_setCsr, if_neg (by decide)]
/-- Where a raised exception is enabled, EXC_FP reports the flags and the lanes; `v` is `u` but for values drawn. -/
theorem Issues.traps_fpEnd {v : State} (hon : VectorOn (coreOf u lc.val).regs) (hbad : bad = false)
    (hx : exec i s = vecInsn op vfn lc vd va vb k z ew bad body s) (hb : body u = fpEnd lc fl lanes write n v) (hv : coreOf v lc.val = coreOf u lc.val)
    (hfl : fl.bits &&& fpEnables (coreOf u lc.val).regs ≠ 0) :
    Completes i s fun t => Entered lc v t 13 (fl.bits * 2 ^ 40 + 13) (coreOf u lc.val).pc 0 (coreOf u lc.val).pc
      ((encV op vd va vb k z ew vfn).setWidth 64) (BitVec.ofNat 64 lanes) := by
  have hlt := bits_lt fl
  have hraise : fpEnd lc fl lanes write n v = .exc { cause := excFp, fpx := fl.bits, elanes := BitVec.ofNat 64 lanes } v :=
    if_pos (by rw [hv]; exact hfl)
  have ht := h.entered_of_body (v := v) (ser := false) (insn := encV op vd va vb k z ew vfn)
    (body := fun a => if vectorOff (regsOf a lc) then .exc { cause := excIllegal, reason := 1 } a else if bad then illegal a else body a)
    (by simp only [regsOf, (vectorOn_iff _).1 hon, hbad, Bool.false_eq_true, if_false]; exact hb.trans hraise)
    (by rw [hv]; exact h.idle) (by rw [hv]; exact h.still) rfl (show (13 : Nat) ≠ 15 by decide) (show (13 : Nat) ≠ 16 by decide)
  have hi : causeInfo { cause := excFp, fpx := fl.bits, elanes := BitVec.ofNat 64 lanes } false = fl.bits * 2 ^ 40 + 13 := by
    simp only [causeInfo, Option.isSome_none, Option.getD_none, Bool.toNat_false, Nat.mod_eq_of_lt hlt, excFp]
    omega
  rw [hi, hv] at ht
  exact ⟨_, hx, ht⟩

/-- The end of an instruction over lanes whose flags are collected. -/
theorem Issues.fpEnds_fpLanes {o : FpOut} {L : Nat} {mask : Word64} {fl : Nat → FpFlags} (hon : VectorOn (coreOf u lc.val).regs) (hbad : bad = false)
    (hx : exec i s = vecInsn op vfn lc vd va vb k z ew bad body s) (hb : body u = fpLanes lc o write n u) (ho : Collected o L mask fl)
    (hL : L ≤ 64) (hcsr : ∀ q, (write q).csr = q.csr) (hR : ∀ w, R (coreOf u lc.val).regs (write (setCsr (coreOf u lc.val).regs 0x002 w))) :
    FpEnds lc s u i (encV op vd va vb k z ew vfn) L mask fl R := by
  refine ⟨fun hen => ?joined, fun hen => ⟨BitVec.ofNat 64 (trapLanes (fpEnables (coreOf u lc.val).regs) 0 o.raised), fun j => ?lanes, ?trap⟩⟩
  case joined =>
    rw [← ho.flags] at hen ⊢
    exact h.executes_fpEnd hon hbad hx hb hen hcsr hR
  case lanes =>
    rw [trapLanes_eq, Nat.pow_zero, Nat.one_mul, BitVec.getLsbD_ofNat, testBit_maskOfBools, ho.raised, List.map_map]
    by_cases hj : j < L
    · rw [List.getD_eq_getElem _ _ (by simpa using hj), List.getElem_map, List.getElem_range]
      simp only [hj, decide_true, Bool.true_and, Function.comp_apply, decide_eq_true (show j < 64 by omega), apply_ite FpFlags.bits, bits_none]
      rfl
    · rw [List.getD_eq_default _ _ (by simpa using hj)]
      simp [hj]
  case trap =>
    rw [← ho.flags] at hen ⊢
    exact h.traps_fpEnd hon hbad hx hb rfl hen
end

/-! ### A vector destination -/

/-- A vector result written after the flags have joined. -/
theorem wroteFp_writeV {P : Vec → Vec → Prop} {vd : VReg} {r : Regs} {x : Vec} (hP : P (readV r vd) x) (n : Nat) (w : Word64) :
    WroteFp vd P r (writeV (setCsr r n w) vd x) := by
  refine ⟨writeV_flags .., writeV_g .., writeV_k .., fun v hv => ?_, ?_⟩
  · rw [readV_writeV, if_neg hv]
    rfl
  · rw [readV_writeV, if_pos rfl]
    exact hP

section
variable {w : Nat} (mask : Word64) (z : Bool) (old : Vec) (g : Nat → Nat × FpFlags)

/-- Results of lanes under a mask, whose flags are collected. -/
theorem maskedLanes_fpCollect : MaskedLanes w mask z (fun j => BitVec.ofNat w (g j).1) old
    (vecOf w (maskLanes mask z 0 (lanesOf w old) (fpCollect mask 0 ((List.range (512 / w)).map g)).lanes)) := by
  rw [lanes_fpCollect]
  exact maskedLanes_vecOf_maskLanes mask z old fun _ => rfl
end

section
variable {α : Type} (w : Nat) (a b d : Vec)

theorem zipWith_lanesOf_eq_map (f : Nat → Nat → α) :
    List.zipWith f (lanesOf w a) (lanesOf w b) = (List.range (512 / w)).map fun j => f (lane w a j).toNat (lane w b j).toNat := by
  rw [lanesOf_eq_map, lanesOf_eq_map, List.zipWith_map, List.zipWith_self]
theorem zip3_map (f : Nat → Nat → Nat → Nat × FpFlags) (x y t : Nat → Nat) (l : List Nat) :
    zip3 f (l.map x) (l.map y) (l.map t) = l.map fun j => f (x j) (y j) (t j) := by
  induction l with
  | nil => rfl
  | cons j l ih => rw [List.map_cons, List.map_cons, List.map_cons, zip3, ih, List.map_cons]
theorem vFp2_eq (c : FpCtl) (op : FOp2) (mask : Word64) : vFp2 w c op mask a b =
    fpCollect mask 0 ((List.range (512 / w)).map fun j => fOp2 (fmtOf w) c op (lane w a j).toNat (lane w b j).toNat) := by
  rw [vFp2, zipWith_lanesOf_eq_map]
theorem vFp3_eq (c : FpCtl) (op : FOp3) (mask : Word64) : vFp3 w c op mask a b d =
    fpCollect mask 0 ((List.range (512 / w)).map fun j => fOp3 (fmtOf w) c op (lane w a j).toNat (lane w b j).toNat (lane w d j).toNat) := by
  rw [vFp3, lanesOf_eq_map, lanesOf_eq_map, lanesOf_eq_map, zip3_map]
end

theorem laneCount_le (ew : BitVec 2) : 512 / ewBits ew ≤ 64 := by
  rcases ewBits_cases ew with hw | hw | hw <;> rw [hw] <;> decide

/-! ### The lane instructions (05 R133) -/

section
variable {lc : LC} {s u : State} (h : Issues lc s u) (hon : VectorOn (coreOf u lc.val).regs) {i : Instr} {op vfn : Nat} {vd va vb : VReg} {k : KReg}
  {z : Bool} {ew : BitVec 2} {bad : Bool} {body : State → Eff} {n : Nat}
include h hon

/-- A floating-point instruction whose active lanes of vd receive what `g` gives. -/
theorem Issues.fpEnds_lanes (g : Nat → Nat × FpFlags) (hbad : bad = false) (hx : exec i s = vecInsn op vfn lc vd va vb k z ew bad body s)
    (hb : body u = fpLanes lc (fpCollect (readK (coreOf u lc.val).regs k) 0 ((List.range (512 / ewBits ew)).map g)) (fun q => writeV q vd
      (vecOf (ewBits ew) (maskLanes (readK (coreOf u lc.val).regs k) z 0 (lanesOf (ewBits ew) (readV (coreOf u lc.val).regs vd))
        (fpCollect (readK (coreOf u lc.val).regs k) 0 ((List.range (512 / ewBits ew)).map g)).lanes))) n u) :
    FpEnds lc s u i (encV op vd va vb k z ew vfn) (512 / ewBits ew) (readK (coreOf u lc.val).regs k) (fun j => (g j).2)
      (WroteFp vd (MaskedLanes (ewBits ew) (readK (coreOf u lc.val).regs k) z fun j => BitVec.ofNat (ewBits ew) (g j).1)) :=
  h.fpEnds_fpLanes hon hbad hx hb (collected_fpCollect ..) (laneCount_le ew) (fun _ => writeV_csr ..)
    (wroteFp_writeV (maskedLanes_fpCollect _ z _ g) 0x002)
theorem Issues.fpEnds_vecFp2 {f : FOp2} {unary : Bool} (hew : fpEw ew = true) (hvb : unary = true → vb = 0)
    (hx : exec i s = vecFp2 f vfn unary lc vd va vb k z ew s) (g : Nat → Nat × FpFlags)
    (hg : g = fun j => fOp2 (fmtOf (ewBits ew)) (fpCtl (coreOf u lc.val).regs) f (lane (ewBits ew) (readV (coreOf u lc.val).regs va) j).toNat
      (lane (ewBits ew) (readV (coreOf u lc.val).regs vb) j).toNat) :
    FpEnds lc s u i (encV 0x21 vd va vb k z ew vfn) (512 / ewBits ew) (readK (coreOf u lc.val).regs k) (fun j => (g j).2)
      (WroteFp vd (MaskedLanes (ewBits ew) (readK (coreOf u lc.val).regs k) z fun j => BitVec.ofNat (ewBits ew) (g j).1)) := by
  refine h.fpEnds_lanes hon g (n := activeCount (readK (coreOf u lc.val).regs k) (ewBits ew)) (by simpa [hew] using hvb) hx ?_
  simp only [vFp2_eq, hg]
  rfl
theorem Issues.fpEnds_vecFp3 {f : FOp3} (hew : fpEw ew = true) (hx : exec i s = vecFp3 f vfn lc vd va vb k z ew s) (g : Nat → Nat × FpFlags)
    (hg : g = fun j => fOp3 (fmtOf (ewBits ew)) (fpCtl (coreOf u lc.val).regs) f (lane (ewBits ew) (readV (coreOf u lc.val).regs va) j).toNat
      (lane (ewBits ew) (readV (coreOf u lc.val).regs vb) j).toNat (lane (ewBits ew) (readV (coreOf u lc.val).regs vd) j).toNat) :
    FpEnds lc s u i (encV 0x22 vd va vb k z ew vfn) (512 / ewBits ew) (readK (coreOf u lc.val).regs k) (fun j => (g j).2)
      (WroteFp vd (MaskedLanes (ewBits ew) (readK (coreOf u lc.val).regs k) z fun j => BitVec.ofNat (ewBits ew) (g j).1)) := by
  refine h.fpEnds_lanes hon g (n := 2 * activeCount (readK (coreOf u lc.val).regs k) (ewBits ew)) (by simp [hew]) hx ?_
  simp only [vFp3_eq, hg]
  rfl
end

theorem fpEw_iff (ew : BitVec 2) : fpEw ew = true ↔ ew.toNat < 2 := by
  revert ew
  decide
theorem fpEw_eq_false {ew : BitVec 2} (h : 2 ≤ ew.toNat) : fpEw ew = false := by
  have hn := mt (fpEw_iff ew).1 (Nat.not_lt.2 h)
  simpa using hn
/-- The widths and formats of the floating-point lanes. -/
theorem fpWidth_eq {ew : BitVec 2} (h : ew.toNat < 2) :
    (if ew = 0 then 64 else 32) = ewBits ew ∧ (if ew = 0 then fmtD else fmtS) = fmtOf (ewBits ew) := by
  revert ew
  decide

/-- Settles O16: each form collects the lanes and flags of its operation and ends as R131 and R132 say. -/
theorem floatingPointLanesGiveResultsOrTrap : Obligations.FloatingPointLanesGiveResultsOrTrap := by
  intro lc s u vd va vb k z ew h hon r w fm c m x lanes two three binary unary fused
  refine ⟨fun hew => ?results, fun hew => ⟨?binaryReserved, ?fusedReserved⟩, fun hew => ?unaryReserved⟩
  case results =>
    obtain ⟨hw, hfm⟩ : w = ewBits ew ∧ fm = fmtOf (ewBits ew) := fpWidth_eq hew
    clear_value w fm
    subst hw hfm
    have hfp := (fpEw_iff ew).2 hew
    have bin {i : Instr} {op : FOp2} {vfn : Nat} (hx : exec i s = vecFp2 op vfn false lc vd va vb k z ew s) : two i vfn op :=
      h.fpEnds_vecFp2 (unary := false) hon hfp nofun hx _ rfl
    have un {i : Instr} {op : FOp2} {vfn : Nat} (hvb : vb = 0) (hx : exec i s = vecFp2 op vfn true lc vd va vb k z ew s) : two i vfn op :=
      h.fpEnds_vecFp2 hon hfp (fun _ => hvb) hx _ rfl
    have fus {i : Instr} {op : FOp3} {vfn : Nat} (hx : exec i s = vecFp3 op vfn lc vd va vb k z ew s) : three i vfn op :=
      h.fpEnds_vecFp3 hon hfp hx _ rfl
    exact ⟨bin rfl, bin rfl, bin rfl, bin rfl, bin rfl, bin rfl, fun hvb => ⟨un hvb rfl, un hvb rfl, un hvb rfl, un hvb rfl⟩,
      fus rfl, fus rfl, fus rfl, fus rfl⟩
  case binaryReserved =>
    have bin {i : Instr} {op : FOp2} {vfn : Nat} (hx : exec i s = vecFp2 op vfn false lc vd va vb k z ew s) :
        Illegal lc s u i (encV 0x21 vd va vb k z ew vfn) := h.illegal_vecInsn hon (by simp [fpEw_eq_false hew]) hx
    simp only [binary, List.forall_mem_cons]
    exact ⟨bin rfl, bin rfl, bin rfl, bin rfl, bin rfl, bin rfl, by simp⟩
  case fusedReserved =>
    have fus {i : Instr} {op : FOp3} {vfn : Nat} (hx : exec i s = vecFp3 op vfn lc vd va vb k z ew s) :
        Illegal lc s u i (encV 0x22 vd va vb k z ew vfn) := h.illegal_vecInsn hon (by simp [fpEw_eq_false hew]) hx
    simp only [fused, List.forall_mem_cons]
    exact ⟨fus rfl, fus rfl, fus rfl, fus rfl, by simp⟩
  case unaryReserved =>
    have un {i : Instr} {op : FOp2} {vfn : Nat} (hx : exec i s = vecFp2 op vfn true lc vd va vb k z ew s) :
        Illegal lc s u i (encV 0x21 vd va vb k z ew vfn) := by
      refine h.illegal_vecInsn hon ?_ hx
      rcases hew with hew | hvb
      · simp [fpEw_eq_false hew]
      · simp [hvb]
    simp only [unary, List.forall_mem_cons]
    exact ⟨un rfl, un rfl, un rfl, un rfl, by simp⟩

end Sys2Proof.Machine
end

section
/-! Conversions (05 R134, R135): each form lane by lane, the flags of its active lanes collected. -/

namespace Sys2Proof.Machine

/-! ### Halves of a vector (05 R134) -/

theorem drop_range (m n : Nat) : (List.range (m + n)).drop m = (List.range n).map fun j => j + m := by
  refine List.ext_getElem (by simp) fun j h1 h2 => ?_
  simp [Nat.add_comm]
/-- The half of the lanes of half the width, the upper or the lower. -/
theorem half_lanesOf {w : Nat} (h2 : 512 / (w / 2) = 512 / w + 512 / w) (hi : Bool) (a : Vec) :
    (if hi then (lanesOf (w / 2) a).drop (laneCount w) else (lanesOf (w / 2) a).take (laneCount w)) =
      (List.range (512 / w)).map fun j => (lane (w / 2) a (if hi then j + 512 / w else j)).toNat := by
  rw [lanesOf_eq_map, laneCount, h2, ← List.map_drop, ← List.map_take, drop_range]
  cases hi
  · simp [List.take_range]
  · simp [List.map_map, Function.comp_def]

section
variable {β : Type} (x y : Nat → β) (n : Nat)
/-- Two lists, of the numbers below `n` and of the `n` from there, as one. -/
theorem map_range_append : (List.range n).map x ++ (List.range n).map y = (List.range (n + n)).map fun j => if j < n then x j else y (j - n) := by
  rw [List.range_add, List.map_append, List.map_map]
  congr 1
  · exact List.map_congr_left fun j hj => by rw [if_pos (List.mem_range.1 hj)]
  · exact List.map_congr_left fun j _ => by simp
end

theorem maskLanes_map_range (mask : Word64) (z : Bool) (o r : Nat → Nat) (L : Nat) :
    maskLanes mask z 0 ((List.range L).map o) ((List.range L).map r) = (List.range L).map fun i => if mask.getLsbD i then r i else if z then 0 else o i := by
  rw [List.range_eq_range']
  exact maskLanes_map_range' mask z o r 0 L
theorem getD_map_range (f : Nat → Nat) {L j : Nat} (hj : j < L) : ((List.range L).map f).getD j 0 = f j := by
  rw [List.getD_eq_getElem _ _ (by simpa using hj), List.getElem_map, List.getElem_range]

/-- A narrowing result: the converted half under the mask, the other half zero or kept. -/
def narrowed (w : Nat) (hi : Bool) (mask : Word64) (z : Bool) (g : Nat → Nat × FpFlags) (old : Vec) (j : Nat) : BitVec w :=
  if (if hi then decide (256 / w ≤ j) else decide (j < 256 / w)) then
    (if mask.getLsbD j then BitVec.ofNat w (g j).1 else if z then 0 else lane w old j)
  else if hi then lane w old j else 0
/-- The results of a narrowing conversion: none outside the converted half. -/
def narrowLanes (w : Nat) (hi : Bool) (g : Nat → Nat × FpFlags) (j : Nat) : Nat × FpFlags :=
  if (if hi then decide (256 / w ≤ j) else decide (j < 256 / w)) then g j else (0, {})

section
variable {w : Nat} (hw : 512 / w = 256 / w + 256 / w) (mask : Word64) (z : Bool) (old : Vec) (g : Nat → Nat × FpFlags)
include hw

theorem lane_narrow_high {j : Nat} (hj : j < 512 / w) :
    lane w (vecOf w ((lanesOf w old).take (256 / w) ++
      (maskLanes mask z 0 (lanesOf w old) ((List.range (512 / w)).map fun j => (narrowLanes w true g j).1)).drop (256 / w))) j =
      narrowed w true mask z g old j := by
  rw [lane_vecOf _ hj, lanesOf_eq_map, maskLanes_map_range, ← List.map_take, ← List.map_drop, hw, drop_range, List.map_map, List.take_range,
    Nat.min_eq_left (by omega), map_range_append, ← hw, getD_map_range _ hj, narrowed]
  by_cases hlow : j < 256 / w
  · simp [hlow, Nat.not_le.2 hlow]
  · have hle : 256 / w ≤ j := Nat.not_lt.1 hlow
    simp only [hlow, hle, narrowLanes, Function.comp_apply, Nat.sub_add_cancel hle, if_true, if_false, decide_true]
    cases mask.getLsbD j
    · cases z <;> simp
    · simp
theorem lane_narrow_low {j : Nat} (hj : j < 512 / w) :
    lane w (vecOf w ((maskLanes mask z 0 (lanesOf w old) ((List.range (512 / w)).map fun j => (narrowLanes w false g j).1)).take (256 / w))) j =
      narrowed w false mask z g old j := by
  rw [lane_vecOf _ hj, lanesOf_eq_map, maskLanes_map_range, ← List.map_take, hw, List.take_range, Nat.min_eq_left (by omega), narrowed]
  by_cases hlow : j < 256 / w
  · rw [getD_map_range _ hlow]
    simp only [hlow, narrowLanes, decide_true, if_true, Bool.false_eq_true, if_false]
    cases mask.getLsbD j
    · cases z <;> simp
    · simp
  · rw [List.getD_eq_default _ _ (by simpa using hlow)]
    simp [hlow]
end

/-! ### The outcome of a conversion -/

section
variable (op : CvtOp) (hi : Bool) {w : Nat} (c : FpCtl) (mask : Word64) (z : Bool) (old a : Vec)

/-- To lanes of twice the width. -/
theorem vCvt_widen (h2 : 512 / (w / 2) = 512 / w + 512 / w) (hop : op = .dS ∨ op = .sH ∨ op = .sBF) :
    vCvt op hi w c mask z old a = (vecOf w (maskLanes mask z 0 (lanesOf w old) (fpCollect mask 0 ((List.range (512 / w)).map fun j =>
        fConv (cvtFmts op).1 (cvtFmts op).2 c (lane (w / 2) a (if hi then j + 512 / w else j)).toNat)).lanes),
      fpCollect mask 0 ((List.range (512 / w)).map fun j =>
        fConv (cvtFmts op).1 (cvtFmts op).2 c (lane (w / 2) a (if hi then j + 512 / w else j)).toNat)) := by
  have hl : (List.range (512 / w)).map (fun j => fConv (cvtFmts op).1 (cvtFmts op).2 c (lane (w / 2) a (if hi then j + 512 / w else j)).toNat) =
      (if hi then (lanesOf (w / 2) a).drop (laneCount w) else (lanesOf (w / 2) a).take (laneCount w)).map (fConv (cvtFmts op).1 (cvtFmts op).2 c) := by
    rw [half_lanesOf h2, List.map_map]
    rfl
  rw [hl]
  rcases hop with rfl | rfl | rfl <;> rfl
/-- To lanes of half the width: the results of a narrowing conversion. -/
theorem vCvt_narrow (hw : 512 / w = 256 / w + 256 / w) (h2 : 512 / (2 * w) = 256 / w) (hop : op = .sD ∨ op = .hS ∨ op = .bfS)
    (g : Nat → Nat × FpFlags)
    (hg : g = fun j => fConv (cvtFmts op).1 (cvtFmts op).2 c (lane (2 * w) a (if hi then j - 256 / w else j)).toNat) :
    (∀ j, j < 512 / w → lane w (vCvt op hi w c mask z old a).1 j = narrowed w hi mask z g old j) ∧
      (vCvt op hi w c mask z old a).2 = fpCollect mask 0 ((List.range (512 / w)).map (narrowLanes w hi g)) := by
  have hn : laneCount w / 2 = 256 / w := by rw [laneCount, hw]; omega
  have hsrc : (lanesOf (2 * w) a).map (fConv (cvtFmts op).1 (cvtFmts op).2 c) =
      (List.range (256 / w)).map fun j => fConv (cvtFmts op).1 (cvtFmts op).2 c (lane (2 * w) a j).toNat := by
    rw [lanesOf_eq_map, h2, List.map_map]
    rfl
  have hrep : List.replicate (256 / w) ((0, {}) : Nat × FpFlags) = (List.range (256 / w)).map fun _ => (0, {}) := by simp [List.map_const']
  cases hi
  case true =>
    have hlist : List.replicate (256 / w) ((0, {}) : Nat × FpFlags) ++ (lanesOf (2 * w) a).map (fConv (cvtFmts op).1 (cvtFmts op).2 c) =
        (List.range (512 / w)).map (narrowLanes w true g) := by
      rw [hrep, hsrc, map_range_append, hw]
      refine List.map_congr_left fun j _ => ?_
      by_cases hlow : j < 256 / w
      · simp [narrowLanes, hlow, Nat.not_le.2 hlow]
      · simp [narrowLanes, hlow, Nat.not_lt.1 hlow, hg]
    have hcvt : vCvt op true w c mask z old a = (vecOf w ((lanesOf w old).take (256 / w) ++
        (maskLanes mask z 0 (lanesOf w old) (fpCollect mask 0 ((List.range (512 / w)).map (narrowLanes w true g))).lanes).drop (256 / w)),
        fpCollect mask 0 ((List.range (512 / w)).map (narrowLanes w true g))) := by
      rw [← hlist, ← hn]
      rcases hop with rfl | rfl | rfl <;> rfl
    rw [hcvt]
    exact ⟨fun j hj => by rw [lanes_fpCollect]; exact lane_narrow_high hw mask z old g hj, rfl⟩
  case false =>
    have hlist : (lanesOf (2 * w) a).map (fConv (cvtFmts op).1 (cvtFmts op).2 c) ++ List.replicate (256 / w) ((0, {}) : Nat × FpFlags) =
        (List.range (512 / w)).map (narrowLanes w false g) := by
      rw [hrep, hsrc, map_range_append, hw]
      refine List.map_congr_left fun j _ => ?_
      by_cases hlow : j < 256 / w
      · simp [narrowLanes, hlow, hg]
      · simp [narrowLanes, hlow]
    have hcvt : vCvt op false w c mask z old a = (vecOf w
        ((maskLanes mask z 0 (lanesOf w old) (fpCollect mask 0 ((List.range (512 / w)).map (narrowLanes w false g))).lanes).take (256 / w)),
        fpCollect mask 0 ((List.range (512 / w)).map (narrowLanes w false g))) := by
      rw [← hlist, ← hn]
      rcases hop with rfl | rfl | rfl <;> rfl
    rw [hcvt]
    exact ⟨fun j hj => by rw [lanes_fpCollect]; exact lane_narrow_low hw mask z old g hj, rfl⟩
end

/-! ### The instructions -/

section
variable {lc : LC} {s u : State} (h : Issues lc s u) (hon : VectorOn (coreOf u lc.val).regs) {i : Instr} {op : CvtOp} {vfn : Nat} {hi : Bool}
  {vd va vb : VReg} {k : KReg} {z : Bool} {ew : BitVec 2}
include h hon

theorem Issues.illegal_vecCvt (hbad : vb ≠ 0 ∨ cvtWidthOk op ew = false) (hx : exec i s = vecCvt op vfn hi lc vd va vb k z ew s) :
    Illegal lc s u i (encV 0x23 vd va vb k z ew vfn) :=
  h.illegal_vecInsn hon (by rcases hbad with hb | hb <;> simp [hb]) hx

/-- A conversion whose lanes are those of `g`, the whole destination under the mask. -/
theorem Issues.fpEnds_vecCvt (hok : cvtWidthOk op ew = true) (hvb : vb = 0) (hx : exec i s = vecCvt op vfn hi lc vd va vb k z ew s)
    (g : Nat → Nat × FpFlags)
    (hcvt : vCvt op hi (ewBits ew) (fpCtl (coreOf u lc.val).regs) (readK (coreOf u lc.val).regs k) z (readV (coreOf u lc.val).regs vd)
      (readV (coreOf u lc.val).regs va) = (vecOf (ewBits ew) (maskLanes (readK (coreOf u lc.val).regs k) z 0
        (lanesOf (ewBits ew) (readV (coreOf u lc.val).regs vd)) (fpCollect (readK (coreOf u lc.val).regs k) 0
          ((List.range (512 / ewBits ew)).map g)).lanes), fpCollect (readK (coreOf u lc.val).regs k) 0 ((List.range (512 / ewBits ew)).map g))) :
    FpEnds lc s u i (encV 0x23 vd va vb k z ew vfn) (512 / ewBits ew) (readK (coreOf u lc.val).regs k) (fun j => (g j).2)
      (WroteFp vd (MaskedLanes (ewBits ew) (readK (coreOf u lc.val).regs k) z fun j => BitVec.ofNat (ewBits ew) (g j).1)) := by
  refine h.fpEnds_lanes hon g (n := 0) (by simp [hok, hvb]) hx ?_
  simp only [regsOf, hcvt]
/-- Between numbers and integers of one width. -/
theorem Issues.fpEnds_level (hok : cvtWidthOk op ew = true) (hvb : vb = 0) (hx : exec i s = vecCvt op vfn hi lc vd va vb k z ew s)
    (conv : Nat → Nat × FpFlags)
    (hcvt : ∀ mask old a, vCvt op hi (ewBits ew) (fpCtl (coreOf u lc.val).regs) mask z old a = (vecOf (ewBits ew) (maskLanes mask z 0
        (lanesOf (ewBits ew) old) (fpCollect mask 0 ((lanesOf (ewBits ew) a).map conv)).lanes), fpCollect mask 0 ((lanesOf (ewBits ew) a).map conv))) :
    FpEnds lc s u i (encV 0x23 vd va vb k z ew vfn) (512 / ewBits ew) (readK (coreOf u lc.val).regs k)
      (fun j => (conv (lane (ewBits ew) (readV (coreOf u lc.val).regs va) j).toNat).2)
      (WroteFp vd (MaskedLanes (ewBits ew) (readK (coreOf u lc.val).regs k) z fun j =>
        BitVec.ofNat (ewBits ew) (conv (lane (ewBits ew) (readV (coreOf u lc.val).regs va) j).toNat).1)) := by
  refine h.fpEnds_vecCvt hon hok hvb hx _ ?_
  rw [hcvt, lanesOf_eq_map (ewBits ew) (readV (coreOf u lc.val).regs va), List.map_map]
  rfl
/-- To lanes of twice the width. -/
theorem Issues.fpEnds_widen (hok : cvtWidthOk op ew = true) (hvb : vb = 0) (hx : exec i s = vecCvt op vfn hi lc vd va vb k z ew s) {w : Nat}
    (hw : ewBits ew = w) (h2 : 512 / (w / 2) = 512 / w + 512 / w) (hop : op = .dS ∨ op = .sH ∨ op = .sBF) (g : Nat → Nat × FpFlags)
    (hg : g = fun j => fConv (cvtFmts op).1 (cvtFmts op).2 (fpCtl (coreOf u lc.val).regs)
      (lane (w / 2) (readV (coreOf u lc.val).regs va) (if hi then j + 512 / w else j)).toNat) :
    FpEnds lc s u i (encV 0x23 vd va vb k z ew vfn) (512 / w) (readK (coreOf u lc.val).regs k) (fun j => (g j).2)
      (WroteFp vd (MaskedLanes w (readK (coreOf u lc.val).regs k) z fun j => BitVec.ofNat w (g j).1)) := by
  subst hw hg
  exact h.fpEnds_vecCvt hon hok hvb hx _ (vCvt_widen op hi _ _ z _ _ h2 hop)
/-- To lanes of half the width: the converted half alone raises flags. -/
theorem Issues.fpEnds_narrow (hok : cvtWidthOk op ew = true) (hvb : vb = 0) (hx : exec i s = vecCvt op vfn hi lc vd va vb k z ew s) {w : Nat}
    (hew : ewBits ew = w) (hw : 512 / w = 256 / w + 256 / w) (h2 : 512 / (2 * w) = 256 / w) (hop : op = .sD ∨ op = .hS ∨ op = .bfS)
    (g : Nat → Nat × FpFlags)
    (hg : g = fun j => fConv (cvtFmts op).1 (cvtFmts op).2 (fpCtl (coreOf u lc.val).regs)
      (lane (2 * w) (readV (coreOf u lc.val).regs va) (if hi then j - 256 / w else j)).toNat) :
    FpEnds lc s u i (encV 0x23 vd va vb k z ew vfn) (512 / w) (readK (coreOf u lc.val).regs k)
      (fun j => if (if hi then decide (256 / w ≤ j) else decide (j < 256 / w)) then (g j).2 else {})
      (WroteFp vd fun old new => ∀ j, j < 512 / w → lane w new j = narrowed w hi (readK (coreOf u lc.val).regs k) z g old j) := by
  subst hew
  obtain ⟨hlanes, hout⟩ := vCvt_narrow op hi (fpCtl (coreOf u lc.val).regs) (readK (coreOf u lc.val).regs k) z
    (readV (coreOf u lc.val).regs vd) (readV (coreOf u lc.val).regs va) hw h2 hop g hg
  have hfl : (fun j => (narrowLanes (ewBits ew) hi g j).2) =
      fun j => if (if hi then decide (256 / ewBits ew ≤ j) else decide (j < 256 / ewBits ew)) then (g j).2 else {} := by
    funext j
    rw [narrowLanes, apply_ite Prod.snd]
  rw [← hfl]
  refine h.fpEnds_fpLanes hon (n := 0) (by simp [hok, hvb]) hx rfl ?_ (laneCount_le ew) (fun _ => writeV_csr ..) (wroteFp_writeV hlanes 0x002)
  simp only [regsOf, hout]
  exact collected_fpCollect ..
end

/-- Settles O17: each form is `vCvt` of its registers, whose lanes are the conversions of R134 and R135. -/
theorem conversionsGiveResults : Obligations.ConversionsGiveResults := by
  intro lc s u hi vd va vb k z ew h hon r c m word src level widen narrow w fm
  refine ⟨fun hvb => ⟨fun hew => ?double, fun hew => ?single, fun hew => ?half, fun hew => ?integers⟩, ?reserved⟩
  case double =>
    subst hew
    exact h.fpEnds_widen hon rfl hvb rfl rfl rfl (.inl rfl) _ rfl
  case single =>
    subst hew
    exact ⟨h.fpEnds_narrow hon rfl hvb rfl rfl rfl rfl (.inl rfl) _ rfl, h.fpEnds_widen hon rfl hvb rfl rfl rfl (.inr (.inl rfl)) _ rfl,
      h.fpEnds_widen hon rfl hvb rfl rfl rfl (.inr (.inr rfl)) _ rfl⟩
  case half =>
    subst hew
    exact ⟨h.fpEnds_narrow hon rfl hvb rfl rfl rfl rfl (.inr (.inl rfl)) _ rfl, h.fpEnds_narrow hon rfl hvb rfl rfl rfl rfl (.inr (.inr rfl)) _ rfl⟩
  case integers =>
    obtain ⟨hw, hfm⟩ : w = ewBits ew ∧ fm = fmtOf (ewBits ew) := fpWidth_eq hew
    clear_value w fm
    subst hw hfm
    have hok : fpEw ew = true := (fpEw_iff ew).2 hew
    let toInt (signed : Bool) (rm x : Nat) : Nat × FpFlags := fToInt (ewBits ew) signed rm (fUnpack (fmtOf (ewBits ew)) c.daz x)
    exact ⟨h.fpEnds_level (op := .fI) hon hok hvb rfl _ fun _ _ _ => rfl,
      h.fpEnds_level (op := .fU) hon hok hvb rfl _ fun _ _ _ => rfl,
      h.fpEnds_level (op := .iF) hon hok hvb rfl (toInt true c.rm) fun _ _ _ => rfl,
      h.fpEnds_level (op := .uF) hon hok hvb rfl (toInt false c.rm) fun _ _ _ => rfl,
      h.fpEnds_level (op := .iFT) hon hok hvb rfl (toInt true 1) fun _ _ _ => rfl,
      h.fpEnds_level (op := .uFT) hon hok hvb rfl (toInt false 1) fun _ _ _ => rfl⟩
  case reserved =>
    intro bad
    have refused {i : Instr} {op : CvtOp} {vfn : Nat} {hi : Bool} {fits : Prop} (hfit : cvtWidthOk op ew = true → fits)
        (hx : exec i s = vecCvt op vfn hi lc vd va vb k z ew s) : bad i vfn fits := fun hb =>
      h.illegal_vecCvt hon (hb.imp id fun hn => Bool.eq_false_iff.2 (mt hfit hn)) hx
    have hlevel : fpEw ew = true → ew.toNat < 2 := (fpEw_iff ew).1
    exact ⟨refused (op := .dS) eq_of_beq rfl, refused (op := .sD) eq_of_beq rfl, refused (op := .sH) eq_of_beq rfl,
      refused (op := .hS) eq_of_beq rfl, refused (op := .sBF) eq_of_beq rfl, refused (op := .bfS) eq_of_beq rfl,
      refused (op := .fI) hlevel rfl, refused (op := .fU) hlevel rfl, refused (op := .iF) hlevel rfl, refused (op := .uF) hlevel rfl,
      refused (op := .iFT) hlevel rfl, refused (op := .uFT) hlevel rfl⟩

end Sys2Proof.Machine
end

section
/-! Compares (05 R138, R139): the mask of the lanes for which the relation holds, and the flags of `VFCMPF`. -/

namespace Sys2Proof.Machine

theorem gateBools_map_range' (mask : Word64) (f : Nat → Bool) (n len : Nat) :
    gateBools mask n ((List.range' n len).map f) = (List.range' n len).map fun j => mask.getLsbD j && f j := by
  induction len generalizing n with
  | zero => rfl
  | succ len ih =>
    rw [List.range'_succ, List.map_cons, gateBools, ih, List.map_cons]
    rfl
/-- The mask of a compare: a one in each active lane of which the relation holds. -/
theorem getLsbD_maskOfBools (mask : Word64) (f : Nat → Bool) {L : Nat} (hL : L ≤ 64) (j : Nat) :
    (BitVec.ofNat 64 (maskOfBools (gateBools mask 0 ((List.range L).map f)))).getLsbD j = (decide (j < L) && (mask.getLsbD j && f j)) := by
  rw [BitVec.getLsbD_ofNat, testBit_maskOfBools, List.range_eq_range', gateBools_map_range', ← List.range_eq_range']
  by_cases hj : j < L
  · rw [List.getD_eq_getElem _ _ (by simpa using hj), List.getElem_map, List.getElem_range, decide_eq_true (show j < 64 by omega), decide_eq_true hj]
  · rw [List.getD_eq_default _ _ (by simpa using hj), decide_eq_false hj, Bool.and_false, Bool.false_and]

/-! ### One lane of an integer compare -/

section
variable {w : Nat} (a b : BitVec w)

theorem vCmpLane_eq : vCmpLane w .eq a.toNat b.toNat = decide (a = b) := by
  rw [vCmpLane, beq_eq_decide]
  exact decide_eq_decide.2 BitVec.toNat_inj
theorem vCmpLane_ne : vCmpLane w .ne a.toNat b.toNat = decide (a ≠ b) := by
  rw [vCmpLane, bne, beq_eq_decide, decide_not, decide_eq_decide.2 BitVec.toNat_inj]
theorem vCmpLane_lt : vCmpLane w .lt a.toNat b.toNat = a.slt b := by
  rw [vCmpLane, signedLane_toNat, signedLane_toNat]
  rfl
theorem vCmpLane_le : vCmpLane w .le a.toNat b.toNat = a.sle b := by
  rw [vCmpLane, signedLane_toNat, signedLane_toNat]
  rfl
theorem vCmpLane_ltu : vCmpLane w .ltu a.toNat b.toNat = a.ult b := rfl
theorem vCmpLane_leu : vCmpLane w .leu a.toNat b.toNat = a.ule b := rfl
end

/-- The flags of one active lane. -/
theorem foldl_range_one (b : Nat) : (List.range 1).foldl (fun x j => x ||| if (1 : Word64).getLsbD j then b else 0) 0 = b := by
  simp

/-! ### The instructions -/

section
variable {lc : LC} {s u : State} (h : Issues lc s u) (hon : VectorOn (coreOf u lc.val).regs) {i : Instr} {vfn : Nat} {vd va vb : VReg} {k : KReg}
  {z : Bool} {ew : BitVec 2}
include h hon

theorem Issues.executes_vecCmp {op : VCmpOp} {f : BitVec (ewBits ew) → BitVec (ewBits ew) → Bool} (hew : ew ≠ 3) (hvd : vd.val < 8) (hz : z = false)
    (hx : exec i s = vecCmp op vfn lc vd va vb k z ew s)
    (hop : ∀ x y : BitVec (ewBits ew), vCmpLane (ewBits ew) op x.toNat y.toNat = f x y) :
    Executes lc s u i fun old new => ∃ x : Word64, (∀ j, x.getLsbD j = (decide (j < 512 / ewBits ew) && ((readK (coreOf u lc.val).regs k).getLsbD j &&
      f (lane (ewBits ew) (readV (coreOf u lc.val).regs va) j) (lane (ewBits ew) (readV (coreOf u lc.val).regs vb) j)))) ∧
      WroteK (maskReg vd) x old new := by
  refine h.executes_vecRegs hon (by simpa [hz, maskRegOk, hvd] using hew) hx (writeK_csr ..) ⟨_, fun j => ?_, wroteK_writeK ..⟩
  rw [vCmp, zipWith_lanesOf_eq_map, getLsbD_maskOfBools _ _ (laneCount_le ew), hop]
theorem Issues.fpEnds_vecFCmp {op : FCmp} (hew : fpEw ew = true) (hvd : vd.val < 8) (hz : z = false)
    (hx : exec i s = vecFCmp op vfn lc vd va vb k z ew s) (g : Nat → Bool × FpFlags)
    (hg : g = fun j => fCompare (fmtOf (ewBits ew)) (fpCtl (coreOf u lc.val).regs) op (lane (ewBits ew) (readV (coreOf u lc.val).regs va) j).toNat
      (lane (ewBits ew) (readV (coreOf u lc.val).regs vb) j).toNat) :
    FpEnds lc s u i (encV 0x26 vd va vb k z ew vfn) (512 / ewBits ew) (readK (coreOf u lc.val).regs k) (fun j => (g j).2) fun old new =>
      ∃ x : Word64, (∀ j, x.getLsbD j = (decide (j < 512 / ewBits ew) && ((readK (coreOf u lc.val).regs k).getLsbD j && (g j).1))) ∧
        (∀ n, readK new n = if n = maskReg vd ∧ maskReg vd ≠ 0 then x else readK old n) ∧ new.g = old.g ∧ new.v = old.v ∧ new.flags = old.flags := by
  have hout : vFCmp (ewBits ew) (fpCtl (coreOf u lc.val).regs) op (readK (coreOf u lc.val).regs k) (readV (coreOf u lc.val).regs va)
      (readV (coreOf u lc.val).regs vb) =
      (BitVec.ofNat 64 (maskOfBools (gateBools (readK (coreOf u lc.val).regs k) 0 ((List.range (512 / ewBits ew)).map fun j => (g j).1))),
        fpCollect (readK (coreOf u lc.val).regs k) 0 ((List.range (512 / ewBits ew)).map fun j => ((g j).1.toNat, (g j).2))) := by
    rw [vFCmp, zipWith_lanesOf_eq_map, hg, List.map_map, List.map_map]
    rfl
  refine h.fpEnds_fpLanes hon (write := fun q => writeK q (maskReg vd) (BitVec.ofNat 64 (maskOfBools
      (gateBools (readK (coreOf u lc.val).regs k) 0 ((List.range (512 / ewBits ew)).map fun j => (g j).1)))))
    (n := activeCount (readK (coreOf u lc.val).regs k) (ewBits ew)) (by simp [hew, hz, maskRegOk, hvd]) hx
    (by simp only [regsOf, hout]; rfl) (collected_fpCollect ..) (laneCount_le ew) (fun _ => writeK_csr ..)
    fun w => ⟨_, getLsbD_maskOfBools _ (fun j => (g j).1) (laneCount_le ew), fun n => ?_, writeK_g .., writeK_v .., writeK_flags ..⟩
  rw [readK_writeK]
  rfl
/-- `VFCMPF` compares lane 0 alone. -/
theorem Issues.fpEnds_vfcmpf (hew : fpEw ew = true) (hvd : vd = 0) (hk : k = 0) (hz : z = false) {x y : Nat}
    (hx : x = (lane (ewBits ew) (readV (coreOf u lc.val).regs va) 0).toNat) (hy : y = (lane (ewBits ew) (readV (coreOf u lc.val).regs vb) 0).toNat) :
    FpEnds lc s u (.vfcmpf lc vd va vb k z ew) (encV 0x26 vd va vb k z ew 16) 1 1
      (fun _ => (fCompare (fmtOf (ewBits ew)) (fpCtl (coreOf u lc.val).regs) .eq x y).2) fun old new =>
        new.g = old.g ∧ new.v = old.v ∧ new.k = old.k ∧ new.flags = frelFlags (fRel (fUnpack (fmtOf (ewBits ew)) (fpCtl (coreOf u lc.val).regs).daz x)
          (fUnpack (fmtOf (ewBits ew)) (fpCtl (coreOf u lc.val).regs).daz y)) := by
  have hw := mul_laneCount (ewBits_cases ew)
  rw [← laneAt_lanesOf hw] at hx hy
  have hbad : (!fpEw ew || vd != 0 || k != 0 || z) = false := by simp [hew, hvd, hk, hz]
  subst hx hy
  refine ⟨fun hen => ?joined, fun hen => ⟨1, fun j => ?lane, ?trap⟩⟩
  case joined =>
    rw [foldl_range_one] at hen ⊢
    exact h.executes_fpEnd hon hbad (n := 1) rfl rfl hen (fun _ => rfl) fun _ => ⟨rfl, rfl, rfl, rfl⟩
  case lane =>
    rw [foldl_range_one] at hen
    by_cases hj : j = 0
    · subst hj
      simpa using hen
    · simp [hj]
  case trap =>
    rw [foldl_range_one] at hen ⊢
    exact h.traps_fpEnd hon hbad (lanes := 1) rfl rfl rfl hen
end

/-- Settles O20: each form writes the mask of its relation, one lane at a time, or FLAGS. -/
theorem comparesWriteMasks : Obligations.ComparesWriteMasks := by
  intro lc s u vd va vb k z ew h hon r w fm c m a b word kd Ones gives fgives forms fforms
  have hew : w = ewBits ew := (ewBits_eq ew).symm
  have refused {i : Instr} {op : VCmpOp} {vfn : Nat} (hbad : 8 ≤ vd.val ∨ z = true ∨ ew = 3) (hx : exec i s = vecCmp op vfn lc vd va vb k z ew s) :
      Illegal lc s u i (word vfn) :=
    h.illegal_vecInsn hon (by rcases hbad with hb | hb | hb <;> simp [hb, maskRegOk]) hx
  have frefused {i : Instr} {op : FCmp} {vfn : Nat} (hbad : 8 ≤ vd.val ∨ z = true ∨ 2 ≤ ew.toNat)
      (hx : exec i s = vecFCmp op vfn lc vd va vb k z ew s) : Illegal lc s u i (word vfn) :=
    h.illegal_vecInsn hon (by rcases hbad with hb | hb | hb <;> simp [hb, maskRegOk, fpEw_eq_false]) hx
  refine ⟨fun hvd hz h3 => ?integer, fun hvd hz h2 => ?floating, fun hvd hk hz h2 => ?flags, fun hbad => ?integerReserved,
    fun hbad => ?floatingReserved, fun hbad => ?flagsReserved⟩
  case integer =>
    clear_value w
    subst hew
    have cmp {i : Instr} {op : VCmpOp} {vfn : Nat} {f : BitVec (ewBits ew) → BitVec (ewBits ew) → Bool}
        (hx : exec i s = vecCmp op vfn lc vd va vb k z ew s)
        (hop : ∀ x y : BitVec (ewBits ew), vCmpLane (ewBits ew) op x.toNat y.toNat = f x y) : gives i f :=
      h.executes_vecCmp hon h3 hvd hz hx hop
    exact ⟨cmp rfl vCmpLane_eq, cmp rfl vCmpLane_ne, cmp rfl vCmpLane_lt, cmp rfl vCmpLane_le, cmp rfl vCmpLane_ltu, cmp rfl vCmpLane_leu⟩
  case floating =>
    have hfm : fm = fmtOf (ewBits ew) := (fpWidth_eq h2).2
    clear_value w fm
    subst hew hfm
    have cmp {i : Instr} {op : FCmp} {vfn : Nat} (hx : exec i s = vecFCmp op vfn lc vd va vb k z ew s) : fgives i vfn op :=
      h.fpEnds_vecFCmp hon ((fpEw_iff ew).2 h2) hvd hz hx _ rfl
    exact ⟨cmp rfl, cmp rfl, cmp rfl, cmp rfl, cmp rfl⟩
  case flags =>
    have hfm : fm = fmtOf (ewBits ew) := (fpWidth_eq h2).2
    clear_value w fm
    subst hew hfm
    exact h.fpEnds_vfcmpf hon ((fpEw_iff ew).2 h2) hvd hk hz rfl rfl
  case integerReserved =>
    simp only [forms, List.forall_mem_cons]
    exact ⟨refused hbad rfl, refused hbad rfl, refused hbad rfl, refused hbad rfl, refused hbad rfl, refused hbad rfl, by simp⟩
  case floatingReserved =>
    simp only [fforms, List.forall_mem_cons]
    exact ⟨frefused hbad rfl, frefused hbad rfl, frefused hbad rfl, frefused hbad rfl, frefused hbad rfl, by simp⟩
  case flagsReserved =>
    exact h.illegal_vecInsn hon (by rcases hbad with hb | hb | hb | hb <;> simp [hb, fpEw_eq_false]) rfl

end Sys2Proof.Machine
end

section
/-! Reductions (05 R137): the active lanes combined in order, and the tree of the floating-point ones with its flags. -/

namespace Sys2Proof.Machine

/-! ### Integer reductions -/

theorem compressLanes_map_range' (mask : Word64) (o : Nat → Nat) (n len : Nat) : compressLanes mask n ((List.range' n len).map o) =
    ((List.range' n len).filter fun i => mask.getLsbD i).map o := by
  induction len generalizing n with
  | zero => rfl
  | succ len ih =>
    rw [List.range'_succ, List.map_cons, compressLanes, ih, List.filter_cons]
    by_cases ha : active mask n = true
    · rw [if_pos ha, if_pos (by exact ha)]
      rfl
    · rw [if_neg ha, if_neg (by exact ha)]
theorem compressLanes_lanesOf (w : Nat) (mask : Word64) (a : Vec) :
    compressLanes mask 0 (lanesOf w a) = (activeLanes w mask).map fun i => (lane w a i).toNat := by
  rw [lanesOf_eq_map, List.range_eq_range', compressLanes_map_range', ← List.range_eq_range', activeLanes]

/-- `op` combines as `f` does, of which `one` is the identity. -/
structure Reduces (w : Nat) (op : RedOp) (f : BitVec w → BitVec w → BitVec w) (one : BitVec w) : Prop where
  step : ∀ x y : BitVec w, redStep w op x.toNat y.toNat = (f x y).toNat
  identity : redIdentity w op = one.toNat
  left : ∀ y, f one y = y

section
variable {w : Nat} {op : RedOp} {f : BitVec w → BitVec w → BitVec w} {one : BitVec w} (h : Reduces w op f one)
include h

theorem foldl_redStep (l : List (BitVec w)) (x : BitVec w) : (l.map BitVec.toNat).foldl (redStep w op) x.toNat = (l.foldl f x).toNat := by
  induction l generalizing x with
  | nil => rfl
  | cons y l ih => rw [List.map_cons, List.foldl_cons, h.step, ih, List.foldl_cons]
theorem vRed_eq (mask : Word64) (a : Vec) :
    vRed w op mask a = vecOf w [((activeLanes w mask).foldl (fun b j => f b (lane w a j)) one).toNat] := by
  have hl : compressLanes mask 0 (lanesOf w a) = ((activeLanes w mask).map (lane w a)).map BitVec.toNat := by
    rw [compressLanes_lanesOf, List.map_map]
    rfl
  rw [vRed, hl, ← List.foldl_map (f := lane w a) (g := f)]
  cases (activeLanes w mask).map (lane w a) with
  | nil => simp [h.identity]
  | cons x l => simp only [List.map_cons, List.foldl_cons, h.left, foldl_redStep h]
end

/-- A vector of one lane: zero in every other. -/
theorem lane_vecOf_singleton {w : Nat} (x : Nat) (h : 0 < 512 / w) :
    lane w (vecOf w [x]) 0 = BitVec.ofNat w x ∧ ∀ j, 0 < j → j < 512 / w → lane w (vecOf w [x]) j = 0 := by
  refine ⟨by rw [lane_vecOf _ h]; rfl, fun j h0 hj => ?_⟩
  rw [lane_vecOf _ hj, List.getD_eq_default _ _ (by exact h0)]
  rfl

section
variable {w : Nat}

theorem reduces_of_vIntLane {op : RedOp} {v : VIntOp} {f : BitVec w → BitVec w → BitVec w} {one : BitVec w} (hop : redStep w op = vIntLane w v)
    (hf : ∀ x y : BitVec w, BitVec.ofNat w (vIntLane w v x.toNat y.toNat) = f x y)
    (hlt : ∀ x y : BitVec w, vIntLane w v x.toNat y.toNat < 2 ^ w) (hid : redIdentity w op = one.toNat) (hl : ∀ y, f one y = y) :
    Reduces w op f one where
  step x y := by rw [hop, ← hf, BitVec.toNat_ofNat, Nat.mod_eq_of_lt (hlt x y)]
  identity := hid
  left := hl

theorem reduces_add : Reduces w .add (fun a b => a + b) 0 :=
  reduces_of_vIntLane rfl ofNat_vIntLane_add (fun _ _ => Nat.mod_lt _ (Nat.two_pow_pos w)) (by simp [redIdentity]) (by simp)
theorem reduces_umin : Reduces w .umin (fun a b => if a.ule b then a else b) (BitVec.allOnes w) :=
  reduces_of_vIntLane rfl ofNat_vIntLane_umin (fun x _ => (Nat.min_le_left _ _).trans_lt x.isLt) (by simp [redIdentity]) fun y => by
    split
    case isTrue hle =>
      have := y.isLt
      apply BitVec.eq_of_toNat_eq
      simp only [BitVec.ule_iff_toNat_le, BitVec.toNat_allOnes] at hle ⊢
      omega
    case isFalse => rfl
theorem reduces_umax : Reduces w .umax (fun a b => if a.ule b then b else a) 0 :=
  reduces_of_vIntLane rfl ofNat_vIntLane_umax (fun x y => max_lt x.isLt y.isLt) (by simp [redIdentity]) fun y => if_pos (by simp [BitVec.ule])
theorem reduces_and : Reduces w .and (fun a b => a &&& b) (BitVec.allOnes w) :=
  reduces_of_vIntLane rfl ofNat_vIntLane_and (fun x y => Nat.and_lt_two_pow _ y.isLt) (by simp [redIdentity]) (by simp)
theorem reduces_or : Reduces w .or (fun a b => a ||| b) 0 :=
  reduces_of_vIntLane rfl ofNat_vIntLane_or (fun x y => Nat.or_lt_two_pow x.isLt y.isLt) (by simp [redIdentity]) (by simp)
theorem reduces_xor : Reduces w .xor (fun a b => a ^^^ b) 0 :=
  reduces_of_vIntLane rfl ofNat_vIntLane_xor (fun x y => Nat.xor_lt_two_pow x.isLt y.isLt) (by simp [redIdentity]) (by simp)
theorem reduces_smin : Reduces w .smin (fun a b => if a.sle b then a else b) (BitVec.intMax w) :=
  reduces_of_vIntLane rfl ofNat_vIntLane_smin (fun x y => by simp only [vIntLane]; split <;> exact BitVec.isLt _)
    (by simp [redIdentity, BitVec.toNat_intMax]) fun y => by
    have hmax : y.toInt ≤ (BitVec.intMax w).toInt := by
      have := BitVec.toInt_lt (x := y)
      rw [BitVec.toInt_intMax]
      omega
    split
    case isTrue hle => exact BitVec.eq_of_toInt_eq (le_antisymm (BitVec.sle_iff_toInt_le.1 hle) hmax)
    case isFalse => rfl
theorem reduces_smax (hw : 0 < w) : Reduces w .smax (fun a b => if a.sle b then b else a) (BitVec.intMin w) :=
  reduces_of_vIntLane rfl ofNat_vIntLane_smax (fun x y => by simp only [vIntLane]; split <;> exact BitVec.isLt _)
    (by simp [redIdentity, BitVec.toNat_intMin, hw]) fun y => if_pos (BitVec.sle_iff_toInt_le.2 (BitVec.toInt_intMin_le y))
end

/-! ### The tree of a floating-point reduction -/

/-- The operation of two lanes that a reduction combines with. -/
def treeOp : FRedOp → FOp2
  | .add => .add
  | .min => .min
  | .max => .max
theorem fRedStep_eq (f : FFmt) (c : FpCtl) (op : FRedOp) : fRedStep f c op = fOp2 f c (treeOp op) := by cases op <;> rfl

section
variable (op : Nat → Nat → Nat × FpFlags) (x : Nat → Nat) (act : Nat → Bool)

/-- The value of a node of the tree. -/
def treeVal (d i : Nat) : Option Nat := (treeAt op x act d i).map Prod.fst
/-- The flags raised in a node and below it. -/
def treeBits (d i : Nat) : Nat := ((treeAt op x act d i).map Prod.snd).getD 0
/-- The flags raised where two values are combined. -/
def pairBits : Option Nat → Option Nat → Nat
  | some a, some b => (op a b).2.bits
  | _, _ => 0
/-- Two values combined, the one there is, or none. -/
def pairVal : Option Nat → Option Nat → Option Nat
  | some a, some b => some (op a b).1
  | some a, none => some a
  | none, b => b

theorem treeVal_succ (d i : Nat) : treeVal op x act (d + 1) i = pairVal op (treeVal op x act d (2 * i)) (treeVal op x act d (2 * i + 1)) := by
  simp only [treeVal, treeAt]
  cases treeAt op x act d (2 * i) <;> cases treeAt op x act d (2 * i + 1) <;> rfl
theorem treeBits_succ (d i : Nat) : treeBits op x act (d + 1) i = treeBits op x act d (2 * i) ||| treeBits op x act d (2 * i + 1) |||
    pairBits op (treeVal op x act d (2 * i)) (treeVal op x act d (2 * i + 1)) := by
  simp only [treeVal, treeBits, treeAt]
  cases treeAt op x act d (2 * i) <;> cases treeAt op x act d (2 * i + 1) <;> simp [pairBits]
theorem treeBits_zero (i : Nat) : treeBits op x act 0 i = 0 := by
  simp only [treeBits, treeAt]
  split <;> rfl
end

/-- The flags `g` of the numbers from `n` on, joined. -/
def joinBits (g : Nat → Nat) (l : List Nat) : Nat := l.foldr (fun i b => g i ||| b) 0

section
variable (f : FFmt) (c : FpCtl) (op : FRedOp)

theorem treeLevel_cons (a b : Option Nat) (l : List (Option Nat)) :
    (treeLevel f c op (a :: b :: l)).1 = pairVal (fRedStep f c op) a b :: (treeLevel f c op l).1 ∧
      (treeLevel f c op (a :: b :: l)).2.bits = pairBits (fRedStep f c op) a b ||| (treeLevel f c op l).2.bits := by
  cases a <;> cases b <;> simp [treeLevel, pairVal, pairBits, bits_join]
/-- One level of the tree, from the `2 * m` nodes below. -/
theorem treeLevel_map_range' (v : Nat → Option Nat) (m n : Nat) :
    (treeLevel f c op ((List.range' (2 * n) (2 * m)).map v)).1 =
        (List.range' n m).map (fun i => pairVal (fRedStep f c op) (v (2 * i)) (v (2 * i + 1))) ∧
      (treeLevel f c op ((List.range' (2 * n) (2 * m)).map v)).2.bits =
        joinBits (fun i => pairBits (fRedStep f c op) (v (2 * i)) (v (2 * i + 1))) (List.range' n m) := by
  induction m generalizing n with
  | zero => exact ⟨rfl, rfl⟩
  | succ m ih =>
    obtain ⟨hval, hbits⟩ := ih (n + 1)
    rw [show 2 * (m + 1) = 2 * m + 1 + 1 by omega, List.range'_succ, List.range'_succ, List.map_cons, List.map_cons,
      (treeLevel_cons ..).1, (treeLevel_cons ..).2, show 2 * n + 1 + 1 = 2 * (n + 1) by omega, hval, hbits, List.range'_succ]
    exact ⟨rfl, rfl⟩
end

theorem joinBits_or (g k : Nat → Nat) (l : List Nat) : joinBits (fun i => g i ||| k i) l = joinBits g l ||| joinBits k l := by
  induction l with
  | nil => simp [joinBits]
  | cons i l ih =>
    simp only [joinBits, List.foldr_cons] at ih ⊢
    rw [ih, Nat.or_assoc, Nat.or_assoc, ← Nat.or_assoc (k i), ← Nat.or_assoc _ (k i), Nat.or_comm (k i)]
theorem joinBits_pairs (g : Nat → Nat) (m n : Nat) :
    joinBits (fun i => g (2 * i) ||| g (2 * i + 1)) (List.range' n m) = joinBits g (List.range' (2 * n) (2 * m)) := by
  induction m generalizing n with
  | zero => rfl
  | succ m ih =>
    have htail := ih (n + 1)
    rw [show 2 * (m + 1) = 2 * m + 1 + 1 by omega, List.range'_succ, List.range'_succ, List.range'_succ, show 2 * n + 1 + 1 = 2 * (n + 1) by omega]
    simp only [joinBits, List.foldr_cons] at htail ⊢
    rw [htail, Nat.or_assoc]
theorem treeRed_succ (f : FFmt) (c : FpCtl) (op : FRedOp) (n : Nat) (xs : List (Option Nat)) :
    (treeRed f c op (n + 1) xs).1 = (treeRed f c op n (treeLevel f c op xs).1).1 ∧
      (treeRed f c op (n + 1) xs).2.bits = (treeLevel f c op xs).2.bits ||| (treeRed f c op n (treeLevel f c op xs).1).2.bits :=
  ⟨rfl, bits_join _ _⟩
/-- The remaining `n` levels over the nodes of level `k`: the value at the root, and with the flags already raised those of the root. -/
theorem treeRed_map_range' (f : FFmt) (c : FpCtl) (op : FRedOp) (x : Nat → Nat) (act : Nat → Bool) (n k : Nat) :
    (treeRed f c op n ((List.range' 0 (2 ^ n)).map (treeVal (fRedStep f c op) x act k))).1 = treeVal (fRedStep f c op) x act (k + n) 0 ∧
      joinBits (treeBits (fRedStep f c op) x act k) (List.range' 0 (2 ^ n)) |||
          (treeRed f c op n ((List.range' 0 (2 ^ n)).map (treeVal (fRedStep f c op) x act k))).2.bits =
        treeBits (fRedStep f c op) x act (k + n) 0 := by
  induction n generalizing k with
  | zero => simp [treeRed, joinBits]
  | succ n ih =>
    obtain ⟨hval, hbits⟩ := treeLevel_map_range' f c op (treeVal (fRedStep f c op) x act k) (2 ^ n) 0
    simp only [Nat.mul_zero, ← treeVal_succ] at hval hbits
    obtain ⟨ihval, ihbits⟩ := ih (k + 1)
    have hstep : joinBits (treeBits (fRedStep f c op) x act (k + 1)) (List.range' 0 (2 ^ n)) =
        joinBits (treeBits (fRedStep f c op) x act k) (List.range' 0 (2 * 2 ^ n)) |||
          joinBits (fun i => pairBits (fRedStep f c op) (treeVal (fRedStep f c op) x act k (2 * i)) (treeVal (fRedStep f c op) x act k (2 * i + 1)))
            (List.range' 0 (2 ^ n)) := by
      rw [← Nat.mul_zero 2, ← joinBits_pairs, ← joinBits_or]
      exact congrArg (joinBits · _) (funext fun i => treeBits_succ ..)
    obtain ⟨hredVal, hredBits⟩ := treeRed_succ f c op n ((List.range' 0 (2 * 2 ^ n)).map (treeVal (fRedStep f c op) x act k))
    rw [Nat.pow_succ', hredVal, hredBits, hval, hbits, ← Nat.or_assoc, ← hstep, ihval, ihbits, show k + 1 + n = k + (n + 1) by omega]
    exact ⟨rfl, rfl⟩

theorem optLanes_map_range' (mask : Word64) (x : Nat → Nat) (n len : Nat) :
    optLanes mask n ((List.range' n len).map x) = (List.range' n len).map fun i => if mask.getLsbD i then some (x i) else none := by
  induction len generalizing n with
  | zero => rfl
  | succ len ih =>
    rw [List.range'_succ, List.map_cons, optLanes, ih, List.map_cons]
    rfl
/-- A floating-point reduction is the root of its tree. -/
theorem vFRed_eq {w d : Nat} (hd : (if w = 64 then 3 else 4) = d) (hL : 512 / w = 2 ^ d) (c : FpCtl) (op : FRedOp) (mask : Word64) (a : Vec)
    {o : Nat × Nat}
    (ho : o = (treeAt (fOp2 (fmtOf w) c (treeOp op)) (fun j => (lane w a j).toNat) (fun j => mask.getLsbD j) d 0).getD (fRedIdentity (fmtOf w) op, 0)) :
    (vFRed w c op mask a).1 = vecOf w [o.1] ∧ (vFRed w c op mask a).2.bits = o.2 := by
  have hopt : optLanes mask 0 (lanesOf w a) = (List.range' 0 (2 ^ d)).map
      (treeVal (fRedStep (fmtOf w) c op) (fun j => (lane w a j).toNat) (fun j => mask.getLsbD j) 0) := by
    rw [lanesOf_eq_map, List.range_eq_range', optLanes_map_range', hL]
    refine List.map_congr_left fun i _ => ?_
    simp only [treeVal, treeAt]
    cases mask.getLsbD i <;> rfl
  obtain ⟨hval, hbits⟩ := treeRed_map_range' (fmtOf w) c op (fun j => (lane w a j).toNat) (fun j => mask.getLsbD j) d 0
  have hzero : joinBits (treeBits (fRedStep (fmtOf w) c op) (fun j => (lane w a j).toNat) (fun j => mask.getLsbD j) 0) (List.range' 0 (2 ^ d)) = 0 := by
    generalize List.range' 0 (2 ^ d) = l
    induction l with
    | nil => rfl
    | cons i l ih =>
      simp only [joinBits, List.foldr_cons, treeBits_zero, Nat.zero_or] at ih ⊢
      exact ih
  rw [hzero, Nat.zero_or] at hbits
  rw [← fRedStep_eq] at ho
  subst ho
  simp only [vFRed, hd, hopt, hval, hbits, Nat.zero_add]
  simp only [treeVal, treeBits]
  cases treeAt (fRedStep (fmtOf w) c op) (fun j => (lane w a j).toNat) (fun j => mask.getLsbD j) d 0 <;> exact ⟨rfl, rfl⟩

/-! ### The instructions -/

section
variable {lc : LC} {s u : State} (h : Issues lc s u) (hon : VectorOn (coreOf u lc.val).regs) {i : Instr} {vfn : Nat} {vd va vb : VReg} {k : KReg}
  {z : Bool} {ew : BitVec 2}
include h hon

theorem Issues.executesV_vecRed {op : RedOp} {f : BitVec (ewBits ew) → BitVec (ewBits ew) → BitVec (ewBits ew)} {one : BitVec (ewBits ew)}
    (hvb : vb = 0) (hz : z = false) (hew : ew ≠ 3) (hx : exec i s = vecRed op vfn lc vd va vb k z ew s) (hop : Reduces (ewBits ew) op f one) :
    ExecutesV lc s u i vd fun _ x =>
      lane (ewBits ew) x 0 = (activeLanes (ewBits ew) (readK (coreOf u lc.val).regs k)).foldl
        (fun b j => f b (lane (ewBits ew) (readV (coreOf u lc.val).regs va) j)) one ∧
      ∀ j, 0 < j → j < 512 / ewBits ew → lane (ewBits ew) x j = 0 := by
  obtain ⟨hzero, hrest⟩ := lane_vecOf_singleton ((activeLanes (ewBits ew) (readK (coreOf u lc.val).regs k)).foldl
    (fun b j => f b (lane (ewBits ew) (readV (coreOf u lc.val).regs va) j)) one).toNat (laneCount_pos (mul_laneCount (ewBits_cases ew)))
  refine h.executesV_vecTo hon (by simpa [hvb, hz] using hew) hx ?_
  simp only [vRed_eq hop]
  exact ⟨by rw [hzero, BitVec.ofNat_toNat, BitVec.setWidth_eq], hrest⟩

/-- A floating-point reduction of the outcome `x`, `bits` its flags. -/
theorem Issues.vecFRed_ends {op : FRedOp} {x bits : Nat} (hvb : vb = 0) (hz : z = false) (hew : fpEw ew = true)
    (hx : exec i s = vecFRed op vfn lc vd va vb k z ew s)
    (hval : (vFRed (ewBits ew) (fpCtl (coreOf u lc.val).regs) op (readK (coreOf u lc.val).regs k) (readV (coreOf u lc.val).regs va)).1 =
      vecOf (ewBits ew) [x])
    (hbits : (vFRed (ewBits ew) (fpCtl (coreOf u lc.val).regs) op (readK (coreOf u lc.val).regs k) (readV (coreOf u lc.val).regs va)).2.bits = bits) :
    (bits &&& fld (csr (coreOf u lc.val).regs 0x002) 12 8 = 0 → Executes lc s u i fun old new => FpFlagsJoined bits old new ∧
      WroteFp vd (fun _ y => lane (ewBits ew) y 0 = BitVec.ofNat (ewBits ew) x ∧
        ∀ j, 0 < j → j < 512 / ewBits ew → lane (ewBits ew) y j = 0) old new) ∧
    (bits &&& fld (csr (coreOf u lc.val).regs 0x002) 12 8 ≠ 0 → Completes i s fun t => ∃ (n : Nat) (lanes : Word64),
      Entered lc { u with fresh := n } t 13 (bits * 2 ^ 40 + 13) (coreOf u lc.val).pc 0 (coreOf u lc.val).pc
        ((encV 0x25 vd va vb k z ew vfn).setWidth 64) lanes) := by
  have hbad : (!fpEw ew || vb != 0 || z) = false := by simp [hew, hvb, hz]
  subst hbits
  refine ⟨fun hen => ?joined, fun hen => ?trap⟩
  case joined =>
    refine h.executes_fpEnd hon hbad hx ?_ hen (lanes := (lowBits (readK (coreOf u lc.val).regs k &&& 0) (laneCount (ewBits ew))).toNat)
      (n := activeCount (readK (coreOf u lc.val).regs k) (ewBits ew)) (write := fun q => writeV q vd (vecOf (ewBits ew) [x])) (fun _ => writeV_csr ..)
      (wroteFp_writeV (lane_vecOf_singleton x (laneCount_pos (mul_laneCount (ewBits_cases ew)))) 0x002)
    simp only [regsOf, fpEnables, hen, hval, if_true]
  case trap =>
    obtain ⟨t, ht, hentered⟩ := h.traps_fpEnd (v := (drawWord u).2) hon hbad
      (lanes := (lowBits (readK (coreOf u lc.val).regs k &&& (drawWord u).1) (laneCount (ewBits ew))).toNat)
      (n := activeCount (readK (coreOf u lc.val).regs k) (ewBits ew)) (write := fun q => writeV q vd (vecOf (ewBits ew) [x])) hx
      (by simp only [regsOf, fpEnables, hen, hval, if_false]) rfl hen
    exact ⟨t, ht, _, _, hentered⟩
end

theorem fRedIdentity_eq {ew : BitVec 2} (hew : ew.toNat < 2) : fRedIdentity (fmtOf (ewBits ew)) .add = 0 ∧
    fRedIdentity (fmtOf (ewBits ew)) .min = (if ew = 0 then 0x7FF0000000000000 else 0x7F800000) ∧
    fRedIdentity (fmtOf (ewBits ew)) .max = if ew = 0 then 0xFFF0000000000000 else 0xFF800000 := by
  revert ew
  decide
/-- The levels of the tree over the lanes of a floating-point width. -/
theorem fpLevels {ew : BitVec 2} (hew : ew.toNat < 2) :
    (if ewBits ew = 64 then 3 else 4) = (if ew = 0 then 3 else 4) ∧ 512 / ewBits ew = 2 ^ (if ew = 0 then 3 else 4) := by
  revert ew
  decide

/-- Settles O19: the integer forms fold the active lanes, the floating-point ones are the root of their tree. -/
theorem reductionsCombineActiveLanes : Obligations.ReductionsCombineActiveLanes := by
  intro lc s u vd va vb k z ew h hon r w m word gives fgives forms fforms
  have hew : w = ewBits ew := (ewBits_eq ew).symm
  have refused {i : Instr} {op : RedOp} {vfn : Nat} (hbad : vb ≠ 0 ∨ z = true ∨ ew = 3) (hx : exec i s = vecRed op vfn lc vd va vb k z ew s) :
      Illegal lc s u i (word vfn) :=
    h.illegal_vecInsn hon (by rcases hbad with hb | hb | hb <;> simp [hb]) hx
  have frefused {i : Instr} {op : FRedOp} {vfn : Nat} (hbad : vb ≠ 0 ∨ z = true ∨ 2 ≤ ew.toNat)
      (hx : exec i s = vecFRed op vfn lc vd va vb k z ew s) : Illegal lc s u i (word vfn) :=
    h.illegal_vecInsn hon (by rcases hbad with hb | hb | hb <;> simp [hb, fpEw_eq_false]) hx
  clear_value w
  subst hew
  refine ⟨fun hvb hz h3 => ?integer, fun hvb hz h2 => ?floating, fun hbad => ?integerReserved, fun hbad => ?floatingReserved⟩
  case integer =>
    have hw : 0 < ewBits ew := by rcases ewBits_cases ew with hw | hw | hw <;> rw [hw] <;> decide
    have red {i : Instr} {op : RedOp} {vfn : Nat} {one : BitVec (ewBits ew)} {f : BitVec (ewBits ew) → BitVec (ewBits ew) → BitVec (ewBits ew)}
        (hx : exec i s = vecRed op vfn lc vd va vb k z ew s) (hop : Reduces (ewBits ew) op f one) : gives i one f :=
      h.executesV_vecRed hon hvb hz h3 hx hop
    exact ⟨red rfl reduces_add, red rfl reduces_smin, red rfl (reduces_smax hw), red rfl reduces_umin, red rfl reduces_umax, red rfl reduces_and,
      red rfl reduces_or, red rfl reduces_xor⟩
  case floating =>
    obtain ⟨-, hfm⟩ := fpWidth_eq h2
    obtain ⟨hadd, hmin, hmax⟩ := fRedIdentity_eq h2
    obtain ⟨hd, hL⟩ := fpLevels h2
    have red {i : Instr} {op : FRedOp} {vfn one : Nat} (hone : fRedIdentity (fmtOf (ewBits ew)) op = one)
        (hx : exec i s = vecFRed op vfn lc vd va vb k z ew s) : fgives i vfn (treeOp op) one := by
      obtain ⟨hval, hbits⟩ := vFRed_eq hd hL (fpCtl r) op m (readV r va) rfl
      have hends := h.vecFRed_ends hon hvb hz ((fpEw_iff ew).2 h2) hx hval hbits
      rw [hone, ← hfm] at hends
      exact hends
    exact ⟨red hadd rfl, red hmin rfl, red hmax rfl⟩
  case integerReserved =>
    simp only [forms, List.forall_mem_cons]
    exact ⟨refused hbad rfl, refused hbad rfl, refused hbad rfl, refused hbad rfl, refused hbad rfl, refused hbad rfl, refused hbad rfl,
      refused hbad rfl, by simp⟩
  case floatingReserved =>
    simp only [fforms, List.forall_mem_cons]
    exact ⟨frefused hbad rfl, frefused hbad rfl, frefused hbad rfl, by simp⟩

end Sys2Proof.Machine
end

section
/-! What the core's own caches and scratchpad serve (04 R94 to R99; 09 R224 to R227): a load reads the bytes at its address and a store writes
them, and nothing else of the device changes. -/

namespace Sys2Proof.Machine

/-! ### Bytes -/

@[simp] theorem length_readBytes (s : State) (pa n : Nat) : (readBytes s pa n).length = n := by
  induction n generalizing pa with
  | zero => rfl
  | succ n ih => rw [readBytes, List.length_cons, ih]
theorem natOfBytes_lt (bs : List Byte) : natOfBytes bs < 256 ^ bs.length := by
  induction bs with
  | nil => exact Nat.one_pos
  | cons b bs ih =>
    have hb := b.isLt
    rw [natOfBytes, List.length_cons, Nat.pow_succ]
    omega
theorem readNat_lt (s : State) (pa n : Nat) : readNat s pa n < 256 ^ n := by
  have h := natOfBytes_lt (readBytes s pa n)
  rwa [length_readBytes] at h
@[simp] theorem length_bytesOf {w : Nat} (a : BitVec w) (n : Nat) : (bytesOf a n).length = n := by
  induction n generalizing a with
  | zero => rfl
  | succ n ih => rw [bytesOf, List.length_cons, ih]
theorem bytesOf_eq_bytesOfNat {w : Nat} (a : BitVec w) (n : Nat) : bytesOf a n = bytesOfNat a.toNat n := by
  induction n generalizing a with
  | zero => rfl
  | succ n ih =>
    rw [bytesOf, bytesOfNat, ih, BitVec.toNat_ushiftRight, Nat.shiftRight_eq_div_pow]
    exact congrArg₂ List.cons (BitVec.eq_of_toNat_eq (by simp)) rfl
theorem getD_bytesOf {w : Nat} (a : BitVec w) {n i : Nat} (h : i < n) : (bytesOf a n).getD i 0 = BitVec.ofNat 8 (a.toNat / 256 ^ i) := by
  have hi : i < (bytesOf a n).length := by rwa [length_bytesOf]
  rw [List.getD_eq_getElem _ _ hi]
  simp only [bytesOf_eq_bytesOfNat, getElem_bytesOfNat]
theorem putBytes_append (xs ys : List Byte) (pa : Nat) (m : SMap Byte) :
    putBytes (xs ++ ys) pa m = putBytes ys (pa + xs.length) (putBytes xs pa m) := by
  induction xs generalizing pa m with
  | nil => rfl
  | cons x xs ih => rw [List.cons_append, putBytes, ih, putBytes, List.length_cons, Nat.add_assoc, Nat.add_comm 1]
theorem writeBytes_append (xs ys : List Byte) (pa : Nat) (s : State) :
    writeBytes pa (xs ++ ys) s = writeBytes (pa + xs.length) ys (writeBytes pa xs s) := by
  simp only [writeBytes, putBytes_append]
/-- Bytes written are held, and no other byte changes. -/
theorem holdsBytes_writeBytes {w : Nat} (pa n : Nat) (v : BitVec w) (s : State) : HoldsBytes (writeBytes pa (bytesOf v n) s) pa n v.toNat := by
  intro i hi
  rw [readByte_writeBytes, length_bytesOf, if_pos (by omega), Nat.add_sub_cancel_left, getD_bytesOf v hi]
theorem sameBytesBut_writeBytes (pa : Nat) (bs : List Byte) (s : State) : SameBytesBut pa bs.length s (writeBytes pa bs s) := by
  intro a ha
  rw [readByte_writeBytes, if_neg (by omega)]

/-! ### Places -/

theorem region_of_inSlots {r : Zone} {base size pa : Nat} {p : Place} (h : inSlots r base size pa = some p) : p.region = r := by
  unfold inSlots at h
  split at h
  · cases h
    rfl
  · cases h
/-- Below the regions of fixed base lies memory alone. -/
theorem region_of_lt {pa : Nat} {p : Place} (hlt : pa < 4 * 2 ^ 44) (h : placeOf pa = some p) : p.region = .hbm ∨ p.region = .ddr := by
  rw [placeOf, if_pos hlt] at h
  split at h
  · cases h
    exact .inl rfl
  · split at h
    · cases h
      exact .inr rfl
    · cases h
theorem region_of_ge {pa : Nat} {p : Place} (hge : ¬pa < 4 * 2 ^ 44) (h : placeOf pa = some p) : p.region ≠ .hbm ∧ p.region ≠ .ddr := by
  rw [placeOf, if_neg hge] at h
  have hp : p.region = .posting ∨ p.region = .mmio ∨ p.region = .scratch ∨ p.region = .control := by
    rcases hs1 : inSlots .posting postingBase 0x10000000 pa with - | q
    · rcases hs2 : inSlots .mmio mmioBase 0x20000000000 pa with - | q
      · rcases hs3 : inSlots .scratch scratchBase 0x1000000000 pa with - | q
        · simp only [hs1, hs2, hs3, Option.orElse_none] at h
          exact .inr (.inr (.inr (region_of_inSlots h)))
        · simp only [hs1, hs2, hs3, Option.orElse_none, Option.orElse_some, Option.some.injEq] at h
          exact .inr (.inr (.inl (h ▸ region_of_inSlots hs3)))
      · simp only [hs1, hs2, Option.orElse_none, Option.orElse_some, Option.some.injEq] at h
        exact .inr (.inl (h ▸ region_of_inSlots hs2))
    · simp only [hs1, Option.orElse_some, Option.some.injEq] at h
      exact .inl (h ▸ region_of_inSlots hs1)
  rcases hp with hp | hp | hp | hp <;> rw [hp] <;> decide
/-- Memory has the lowest addresses: what lies above an address of another region is no memory. -/
theorem isMemory_eq_false_of_le {pa pb : Nat} {p : Place} (h : placeOf pa = some p) (hr : p.region ≠ .hbm ∧ p.region ≠ .ddr) (hle : pa ≤ pb) :
    isMemory pb = false := by
  have hge : ¬pa < 4 * 2 ^ 44 := fun hlt => (region_of_lt hlt h).elim hr.1 hr.2
  have hge' : ¬pb < 4 * 2 ^ 44 := fun hlt => hge (Nat.lt_of_le_of_lt hle hlt)
  unfold isMemory
  cases hpb : placeOf pb with
  | none => rfl
  | some q =>
    obtain ⟨h1, h2⟩ := region_of_ge hge' hpb
    simp [h1, h2]
theorem isMemory_of_place {pa : Nat} {p : Place} (h : placeOf pa = some p) : isMemory pa = decide (p.region = .hbm ∨ p.region = .ddr) := by
  simp only [isMemory, h]

/-! ### Accesses that do not leave the core -/

theorem noteFenced_unfenced {s : State} {line : Nat} (h : lineFenced s line = false) : noteFenced line s = s := by
  obtain ⟨-, hctl⟩ := Bool.or_eq_false_iff.1 h
  unfold noteFenced
  split
  next u hu =>
    have hc : ctlOf s (64 * line) = some u := by
      split at hu
      · exact hu
      · cases hu
    rw [hc] at hctl
    simp only at hctl
    rw [if_neg (by simp [hctl])]
  next => rfl
theorem coreMeter_inside {lc : Nat} {a : Access} {s : State} (h : leavesCore s lc a = false) : coreMeter lc a s = s := by simp [coreMeter, h]

/-- What of `OwnLine` a store asks for: the caches hold the line as the core's own. -/
structure OwnStore (lc : LC) (a : Access) (u : State) : Prop where
  inside : leavesCore u lc.val a = false
  backed : backed u a.pa = true
  unfenced : lineFenced u (lineOf a.pa) = false
  place : ∃ p, placeOf a.pa = some p ∧ (p.region = .hbm ∨ p.region = .ddr ∨ p.region = .scratch)
  line : isMemory a.pa = true → a.mt = 0 ∧ l2On u (pcOf u lc.val) = true ∧ staleView u (pcOf u lc.val) (lineOf a.pa) false = none ∧
    ∃ slot l, l2Copy u (pcOf u lc.val) (lineOf a.pa) = some (slot, l) ∧ l.st = .m ∧ l.stale = none
theorem OwnLine.ownStore {lc : LC} {a : Access} {u : State} (h : OwnLine lc a u) : OwnStore lc a u :=
  ⟨h.inside, h.backed, h.unfenced, h.place, fun hm => by
    obtain ⟨hmt, hl2, -, hstale, hcopy⟩ := h.line hm
    exact ⟨hmt, hl2, hstale, hcopy⟩⟩

section
variable {lc : LC} {a : Access} {u : State} (h : OwnLine lc a u)
include h

/-- A load that the core serves itself reads the bytes at its address. -/
theorem OwnLine.loadNow (n : Nat) (nt : Bool) : loadNow lc.val a n nt u = (readBytes u a.pa n, u) := by
  unfold Machine.loadNow
  rw [coreMeter_inside h.inside]
  by_cases hm : isMemory a.pa = true
  · obtain ⟨hmt, -, hread, hstale, -⟩ := h.line hm
    simp only [hm, hmt, noteFenced_unfenced h.unfenced, hread, viewBytes, hstale, if_true]
  · simp only [hm, Bool.false_eq_true, if_false]
end

section
variable {lc : LC} {a : Access} {u : State} (h : OwnStore lc a u)
include h

/-- The line is the core's own, so that owning it changes nothing. -/
theorem OwnStore.coherentOwn (hm : isMemory a.pa = true) : coherentOwn lc.val (lineOf a.pa) a.tc u = u := by
  obtain ⟨-, -, -, slot, l, hcopy, hst, -⟩ := h.line hm
  simp only [Machine.coherentOwn, hcopy, hst]
/-- No copy of the core's holds a content of its own. -/
theorem OwnStore.viewWrite (hm : isMemory a.pa = true) (bs : List Byte) : viewWrite lc.val a.pa bs u = writeBytes a.pa bs u := by
  obtain ⟨-, -, hstale, slot, l, hcopy, -, hl⟩ := h.line hm
  simp only [staleView, Bool.false_eq_true, if_false] at hstale
  cases hon : l1dOn u (pcOf u lc.val)
  · simp only [Machine.viewWrite, hcopy, hl, hon, Option.isSome_none, Bool.false_and, Bool.or_self, Bool.false_eq_true, if_false]
  · simp only [hon, if_true] at hstale
    cases hf : findLine (priv u (pcOf u lc.val)).l1d (lineOf a.pa) with
    | none => simp only [Machine.viewWrite, hcopy, hl, hon, hf, Option.isSome_none, Bool.and_false, Bool.or_self, Bool.false_eq_true, if_false]
    | some x =>
      rw [hf] at hstale
      simp only at hstale
      simp only [Machine.viewWrite, hcopy, hl, hon, hf, hstale, Option.isSome_none, Bool.and_false, Bool.or_self, Bool.false_eq_true, if_false]
end

/-! ### Bytes of a scratchpad -/

/-- Fewer bytes than a line, written outside memory, are written as they stand, whatever lines they cross. -/
theorem foldl_cutLines_writeBytes (tc : Nat) (k : Nat) (pa : Nat) (bs : List Byte) (s : State) (hmem : ∀ pb, pa ≤ pb → isMemory pb = false)
    (hlen : bs.length < 64) (hk : bs.length < k) :
    (cutLines pa bs k).foldl (fun a x => agentWriteLine tc x.1 x.2 a) s = writeBytes pa bs s := by
  induction k generalizing pa bs s with
  | zero => omega
  | succ k ih =>
    unfold cutLines
    by_cases he : bs = []
    · subst he
      rfl
    · have hne : bs.isEmpty = false := by simpa using he
      have hpos : 0 < bs.length := List.length_pos_iff.2 he
      have hcut : 0 < 64 - pa % 64 := by omega
      have hline : agentWriteLine tc pa (bs.take (64 - pa % 64)) s = writeBytes pa (bs.take (64 - pa % 64)) s := by
        have hlt : (bs.take (64 - pa % 64)).length ≠ 64 := by rw [List.length_take]; omega
        simp only [agentWriteLine, hmem pa le_rfl, Bool.false_eq_true, if_false, hlt]
      rw [hne, if_neg Bool.false_ne_true, List.foldl_cons, hline, ih _ _ _ (fun pb hb => hmem pb (by omega)) (by rw [List.length_drop]; omega)
        (by rw [List.length_drop]; omega)]
      by_cases hall : bs.length ≤ 64 - pa % 64
      · rw [List.drop_eq_nil_of_le hall, List.take_of_length_le hall]
        rfl
      · have hl : (bs.take (64 - pa % 64)).length = 64 - pa % 64 := by rw [List.length_take]; omega
        conv_rhs => rw [← List.take_append_drop (64 - pa % 64) bs, writeBytes_append, hl]

section
variable {lc : LC} {a : Access} {u : State} (h : OwnStore lc a u)
include h

/-- A store of less than a line that the core serves itself writes its bytes. -/
theorem OwnStore.storeNow {bs : List Byte} (hlen : bs.length < 64) (nt : Bool) : storeNow lc.val a bs nt u = writeBytes a.pa bs u := by
  obtain ⟨p, hp, hr⟩ := h.place
  have hio : p.region ≠ .mmio := by rcases hr with hr | hr | hr <;> rw [hr] <;> decide
  have hfull : (nt && bs.length == 64) = false := by simp [Nat.ne_of_lt hlen]
  unfold Machine.storeNow
  rw [coreMeter_inside h.inside]
  simp only [h.backed, hp, hio, h.unfenced, hfull, Bool.not_true, Bool.false_eq_true, if_false, Bool.not_false, and_true]
  by_cases hm : isMemory a.pa = true
  · obtain ⟨hmt, hl2, -, -⟩ := h.line hm
    simp only [hm, hmt, ne_eq, not_true, and_false, if_false, if_true, coherentStore, hl2, Bool.not_true, Bool.false_eq_true,
      h.coherentOwn hm, h.viewWrite hm]
  · have hmem : ∀ pb, a.pa ≤ pb → isMemory pb = false := fun pb hb => by
      rw [isMemory_of_place hp] at hm
      exact isMemory_eq_false_of_le hp (by simpa using hm) hb
    simp only [hm, false_and, Bool.false_eq_true, if_false]
    exact foldl_cutLines_writeBytes _ _ _ _ _ hmem hlen (Nat.lt_succ_self _)
end

end Sys2Proof.Machine
end

section
/-! Instructions that open a shadow group (04 R101, R103), and the loads served by the core's own caches or scratchpad. -/

namespace Sys2Proof.Machine

/-- A shadow that has more instructions before its write point stays open. -/
theorem tick_eq_of_left {c : Core} (h : ∀ x ∈ c.shadows, 1 < x.left) :
    tick c = { c with shadows := c.shadows.map fun x => { x with left := x.left - 1 } } := by
  have hleft : ∀ x ∈ c.shadows.map (fun x => { x with left := x.left - 1 }), (x.left == 0) = false := by
    intro x hx
    obtain ⟨y, hy, rfl⟩ := List.mem_map.1 hx
    have hlt := h y hy
    simp only [beq_eq_false_iff_ne]
    omega
  simp only [tick]
  rw [List.filter_eq_nil_iff.2 fun x hx => by simp [hleft x hx], List.filter_eq_self.2 fun x hx => by simp [hleft x hx]]
  rfl

/-- A member of a group whose shadows all stay open has executed. -/
theorem retire_member {lc : Nat} {s : State} {c : Core} {g : Group} (pc : Word64) (evs : List PmEvent) (hc : coreOf s lc = c) (hg : c.group = some g)
    (h : ∀ x ∈ c.shadows, 1 < x.left) : retire lc pc evs s = setCore s lc { c with
      pc := pc, shadows := c.shadows.map fun x => { x with left := x.left - 1 },
      group := some (joinGroup g evs (c.shadows.map fun x => { x with left := x.left - 1 })) } := by
  subst hc
  have htick := tick_eq_of_left (c := { coreOf s lc with pc := pc }) h
  unfold retire
  dsimp only
  split
  next g' hg' =>
    obtain rfl := Option.some.inj (hg.symm.trans hg')
    rw [htick]
  next hnone => rw [hg] at hnone; cases hnone

section
variable {lc : LC} {s u : State} (h : Issues lc s u) {i : Instr} {ser : Bool} {insn : Word32} {body : State → Eff}
include h

/-- An exception of an access: it reports how the access was made (07 R182). -/
theorem Issues.raises_access {cause reason acc : Nat} {addr : Word64} (hx : exec i s = .next (runInsn lc ser insn body s))
    (hb : body u = .exc { cause := cause, addr := addr, reason := reason, acc := acc } u) (hc : cause < 15) (hr : reason < 256) (ha : acc < 4) :
    Raises lc s u i insn cause reason acc addr (coreOf u lc.val).pc := by
  have hi : causeInfo { cause := cause, addr := addr, reason := reason, acc := acc } false = acc * 2 ^ 38 + reason * 256 + cause := by
    simp only [causeInfo, Option.isSome_none, Option.getD_none, Bool.toNat_false]
    omega
  have ht := runInsn_raises h ser insn body _ hb rfl (show cause ≠ 15 by omega)
  rw [hi, if_neg (show cause ≠ excSvc from Nat.ne_of_lt (hc.trans (by decide)))] at ht
  exact ⟨_, hx, ht⟩

/-- An instruction of a core `c` that stands in a group of no member yet and has pushed the shadows of `l`: they have three instructions left to
their write point, and the group has one member. -/
theorem Issues.next_opensGroup {v : State} {c : Core} {g : Group} {l : List (LoadDest × LoadValue)} {pc : Word64} {evs : List PmEvent}
    (hx : exec i s = .next (runInsn lc ser insn body s)) (hb : body u = .ok (setCore v lc.val c) pc evs) (hg : c.group = some g) (hm : g.members = 0)
    (hs : g.sinceDeferred = none ∨ g.sinceDeferred = some 0) (hsh : c.shadows = l.map fun x => { left := 4, dest := x.1, value := x.2 }) (hl : l ≠ []) :
    Completes i s fun t => ∃ g', CoreNow lc v t { c with
        pc := pc, shadows := l.map fun x => { left := 3, dest := x.1, value := x.2 }, group := some g' } ∧
      g'.firstPc = g.firstPc ∧ g'.snap = g.snap ∧ g'.members = 1 ∧ g'.closed = false ∧ g'.held = g.held := by
  obtain ⟨page, hp⟩ := runInsn_issues h ser insn body
  have howed : (oweFetch lc.val [] page (setCore v lc.val c)).2 = setCore (setCore v lc.val c) lc.val (holdAll [] [page] c) := by
    simp only [oweFetch, coreOf_setCore_same, hg, updCore, List.map_nil]
  have hgroup : (holdAll [] [page] c).group = some { g with held := g.held ++ [], usedPages := [page] ++ g.usedPages } := by
    simp only [holdAll, updGroup, hg, Option.map_some]
  have hshadows : (holdAll [] [page] c).shadows = l.map fun x => { left := 4, dest := x.1, value := x.2 } := hsh
  have hmap : (holdAll [] [page] c).shadows.map (fun x => { x with left := x.left - 1 }) =
      l.map fun x => { left := 3, dest := x.1, value := x.2 } := by
    rw [hshadows, List.map_map]
    rfl
  have hretire := retire_member (s := setCore (setCore v lc.val c) lc.val (holdAll [] [page] c)) pc
    (evOne (coreOf u lc.val) 1 :: ((if ser then [evOne (coreOf u lc.val) 0x70] else []) ++ evs)) (coreOf_setCore_same ..) hgroup
    (by
      intro x hx
      rw [hshadows] at hx
      obtain ⟨y, -, rfl⟩ := List.mem_map.1 hx
      exact (by decide : 1 < 4))
  rw [hmap] at hretire
  have hne : (l.map fun x => ({ left := 3, dest := x.1, value := x.2 } : Shadow)).isEmpty = false := by simpa using hl
  have hclosed : (({ g with held := g.held ++ [], usedPages := [page] ++ g.usedPages } : Group).sinceDeferred.map (· + 1) == some 4) = false := by
    rcases hs with hs | hs <;> simp [hs]
  refine ⟨_, hx, joinGroup { g with held := g.held ++ [], usedPages := [page] ++ g.usedPages }
    (evOne (coreOf u lc.val) 1 :: ((if ser then [evOne (coreOf u lc.val) 0x70] else []) ++ evs))
    (l.map fun x => { left := 3, dest := x.1, value := x.2 }), ⟨?_, fun n hn => ?_, ?_⟩, rfl, rfl, by simp [joinGroup, hm],
    by simp only [joinGroup, hne, hm, hclosed]; rfl, by simp [joinGroup]⟩
  · rw [hp, hb]
    simp only [howed, hretire, coreOf_setCore_same]
    rfl
  · rw [hp, hb]
    simp only [howed, hretire, coreOf_setCore_other _ _ hn]
  · rw [hp, hb]
    simp only [howed, hretire]
    rfl
end

/-! ### The value of a load (04 R94) -/

theorem extendLoad_unsigned (s : State) (pa n : Nat) : extendLoad (readBytes s pa n) n false = BitVec.ofNat 64 (readNat s pa n) := by
  simp [extendLoad, readNat, List.take_of_length_le]
theorem extendLoad_signed (s : State) (pa : Nat) {n : Nat} (h0 : 0 < n) (h8 : n ≤ 8) :
    extendLoad (readBytes s pa n) n true = (BitVec.ofNat (8 * n) (readNat s pa n)).signExtend 64 := by
  have hlt : readNat s pa n < 2 ^ (8 * n) := by
    have hr := readNat_lt s pa n
    rwa [show 256 = 2 ^ 8 by rfl, ← Nat.pow_mul] at hr
  have hpow : 2 ^ (8 * n) ≤ 2 ^ 64 := Nat.pow_le_pow_right (by decide) (by omega)
  have hmsb : (BitVec.ofNat (8 * n) (readNat s pa n)).msb = (readNat s pa n).testBit (8 * n - 1) := by
    rw [BitVec.msb_eq_getLsbD_last, BitVec.getLsbD_ofNat, decide_eq_true (by omega), Bool.true_and]
  apply BitVec.eq_of_toNat_eq
  rw [BitVec.toNat_signExtend, hmsb, BitVec.toNat_setWidth, BitVec.toNat_ofNat, Nat.mod_eq_of_lt hlt, Nat.mod_eq_of_lt (hlt.trans_le hpow)]
  unfold extendLoad
  rw [List.take_of_length_le (by simp), ← readNat]
  cases ht : (readNat s pa n).testBit (8 * n - 1)
  · simp only [ht, Bool.false_eq_true, and_false, if_false, BitVec.toNat_ofNat, Nat.add_zero]
    exact Nat.mod_eq_of_lt (hlt.trans_le hpow)
  · simp only [ht, and_true, if_true, BitVec.toNat_ofNat]
    rw [Nat.mod_eq_of_lt (by omega)]
    omega

/-! ### The loads -/

section
variable {lc : LC} {s u : State} (h : Issues lc s u) {i : Instr} {insn : Word32} {body : State → Eff} {n : Nat} {signed : Bool} {mo : BitVec 2}
  {rt : GReg} {va : Word64}
include h

/-- A load whose access passes and that the core serves itself. -/
theorem Issues.opens_loadAt {a : Xlat} {w : Word64} (hx : exec i s = .next (runInsn lc false insn body s)) (hb : body u = loadAt lc va n signed mo rt u)
    (hp : Passes lc { wantLoad with noControl := n != 4 } va n true false u a) (hmt : a.acc.mt ≠ 2) (ho : OwnLine lc a.acc u)
    (hw : extendLoad (readBytes u a.acc.pa n) n signed = w) :
    Completes i s fun t => OpensShadow lc u t [{ left := 3, dest := .gen rt, value := .word w }] := by
  have hal : aligned va n = true := by simp [aligned, hp.aligned]
  have hheld : heldOf_ (openGroup (coreOf u lc.val)) = [] := by simp only [openGroup, h.core_group, heldOf_]
  have hwait : mustWait (openGroup (coreOf u lc.val)) a.acc n (mo == 1) = false := by simp only [mustWait, hheld, List.any_nil]
  have hbytes : loadBytes lc.val a.acc n (mo == 2) u = (readBytes u a.acc.pa n, u) := by
    simp only [loadBytes, ho.loadNow, heldOf_, h.core_group, List.foldl_nil]
  have hload : loadAt lc va n signed mo rt u = .ok (setCore u lc.val (pushShadow (.gen rt) (.word w)
      (holdAll [] [a.page] (openGroup (coreOf u lc.val))))) ((coreOf u lc.val).pc + 4) (accessEvents u lc.val va a.acc true) := by
    simp only [loadAt, hal, hp.checked, hp.owed, hmt, hwait, hbytes, hw, Bool.not_true, Bool.false_eq_true, or_self, if_false, List.map_nil]
    simp only [openGroup, h.core_group]
  have hgroup : (pushShadow (.gen rt) (.word w) (holdAll [] [a.page] (openGroup (coreOf u lc.val)))).group =
      some { firstPc := (coreOf u lc.val).pc, members := 0, closed := false, sinceDeferred := none, nextId := 0, held := [],
             usedPages := [a.page], snap := (coreOf u lc.val).regs } := by
    simp only [pushShadow, holdAll, updGroup, openGroup, h.core_group, Option.map_some]
    rfl
  obtain ⟨t, ht, g, hnow, hfirst, hsnap, hmembers, hclosed, -⟩ := h.next_opensGroup (l := [(.gen rt, .word w)]) hx (hb.trans hload) hgroup rfl (.inl rfl)
    (by simp only [pushShadow, holdAll, updGroup, openGroup, h.core_group, h.core_shadows]; rfl) (by simp)
  refine ⟨t, ht, g, ?_, hfirst, hsnap, hmembers, hclosed⟩
  have hcore : openGroup (coreOf u lc.val) = { coreOf u lc.val with group := (openGroup (coreOf u lc.val)).group } := by
    simp only [openGroup, h.core_group]
  rw [hcore] at hnow
  exact hnow
theorem Issues.misses_loadAt (hx : exec i s = .next (runInsn lc false insn body s)) (hb : body u = loadAt lc va n signed mo rt u)
    (hal : va.toNat % n ≠ 0) : Raises lc s u i insn 3 0 1 va (coreOf u lc.val).pc :=
  h.raises_access hx (hb.trans (by simp [loadAt, aligned, hal, excAlign])) (by decide) (by decide) (by decide)

variable {major : Nat} {rb gi : GReg} {off : BitVec 14} {sel : BitVec 4} {low : BitVec 5}

theorem Issues.opens_loadM {a : Xlat} {w : Word64} (hmo : mo ≠ 3) (hx : exec i s = loadM major n signed lc rt rb mo off s)
    (hp : Passes lc { wantLoad with noControl := n != 4 } (offAddr (readG (coreOf u lc.val).regs rb) off n) n true false u a)
    (hmt : a.acc.mt ≠ 2) (ho : OwnLine lc a.acc u) (hw : extendLoad (readBytes u a.acc.pa n) n signed = w) :
    Completes i s fun t => OpensShadow lc u t [{ left := 3, dest := .gen rt, value := .word w }] :=
  h.opens_loadAt hx (if_neg hmo) hp hmt ho hw
theorem Issues.misses_loadM (hmo : mo ≠ 3) (hx : exec i s = loadM major n signed lc rt rb mo off s)
    (hal : (offAddr (readG (coreOf u lc.val).regs rb) off n).toNat % n ≠ 0) :
    Raises lc s u i (encM major rt rb mo off) 3 0 1 (offAddr (readG (coreOf u lc.val).regs rb) off n) (coreOf u lc.val).pc :=
  h.misses_loadAt hx (if_neg hmo) hal
theorem Issues.illegal_loadM (hmo : mo = 3) (hx : exec i s = loadM major n signed lc rt rb mo off s) :
    Illegal lc s u i (encM major rt rb mo off) :=
  h.illegal_of_body hx (if_pos hmo)

theorem Issues.opens_loadIndexed {a : Xlat} {w : Word64} (hsel : loadSel sel = some (n, signed)) (hmo : mo ≠ 3)
    (hp : Passes lc { wantLoad with noControl := n != 4 } (indexAddr (readG (coreOf u lc.val).regs rb) (readG (coreOf u lc.val).regs gi) n) n true false u a)
    (hmt : a.acc.mt ≠ 2) (ho : OwnLine lc a.acc u) (hw : extendLoad (readBytes u a.acc.pa n) n signed = w) :
    Completes (.loadIndexed lc rt rb mo gi sel 0) s fun t => OpensShadow lc u t [{ left := 3, dest := .gen rt, value := .word w }] :=
  h.opens_loadAt rfl (by simp only [hsel]; exact if_neg (by simpa using hmo)) hp hmt ho hw
theorem Issues.misses_loadIndexed (hsel : loadSel sel = some (n, signed)) (hmo : mo ≠ 3)
    (hal : (indexAddr (readG (coreOf u lc.val).regs rb) (readG (coreOf u lc.val).regs gi) n).toNat % n ≠ 0) :
    Raises lc s u (.loadIndexed lc rt rb mo gi sel 0) (encIndexed rt rb mo gi sel 0) 3 0 1
      (indexAddr (readG (coreOf u lc.val).regs rb) (readG (coreOf u lc.val).regs gi) n) (coreOf u lc.val).pc :=
  h.misses_loadAt rfl (by simp only [hsel]; exact if_neg (by simpa using hmo)) hal
theorem Issues.illegal_loadIndexed (hbad : mo = 3 ∨ low ≠ 0 ∨ 7 ≤ sel.toNat) :
    Illegal lc s u (.loadIndexed lc rt rb mo gi sel low) (encIndexed rt rb mo gi sel low) := by
  refine h.illegal_of_body rfl ?_
  cases hsel : loadSel sel with
  | none => rfl
  | some x =>
    have hlt : ¬7 ≤ sel.toNat := fun hge => by
      rw [loadSel, List.getElem?_eq_none (by simpa using hge)] at hsel
      cases hsel
    exact if_pos (hbad.imp_right fun hb => hb.resolve_right hlt)
end

/-- Settles O8: a load that passes and that the core serves itself opens a shadow of the bytes it reads. -/
theorem loadsOpenAShadowWithTheirValue : Obligations.LoadsOpenAShadowWithTheirValue := by
  intro lc s u rt rb gi mo off a h r va vx served misses opens z x
  have hz (n : Nat) : extendLoad (readBytes u a.acc.pa n) n false = z n := extendLoad_unsigned u a.acc.pa n
  have hx (n : Nat) (h0 : 0 < n) (h8 : n ≤ 8) : extendLoad (readBytes u a.acc.pa n) n true = x n := extendLoad_signed u a.acc.pa h0 h8
  refine ⟨fun hmo => ?loads, fun hmo => ?reserved, fun sel low hbad => h.illegal_loadIndexed hbad⟩
  case loads =>
    refine ⟨fun ⟨hp, hmt, ho⟩ => ⟨h.opens_loadM hmo rfl hp hmt ho (hz 1), h.opens_loadM hmo rfl hp hmt ho (hx 1 (by decide) (by decide))⟩,
      fun ⟨hp, hmt, ho⟩ => ⟨h.opens_loadM hmo rfl hp hmt ho (hz 2), h.opens_loadM hmo rfl hp hmt ho (hx 2 (by decide) (by decide))⟩,
      fun ⟨hp, hmt, ho⟩ => ⟨h.opens_loadM hmo rfl hp hmt ho (hz 4), h.opens_loadM hmo rfl hp hmt ho (hx 4 (by decide) (by decide))⟩,
      fun ⟨hp, hmt, ho⟩ => h.opens_loadM hmo rfl hp hmt ho (hz 8),
      fun ⟨hp, hmt, ho⟩ => ⟨h.opens_loadIndexed rfl hmo hp hmt ho (hz 1), h.opens_loadIndexed rfl hmo hp hmt ho (hx 1 (by decide) (by decide))⟩,
      fun ⟨hp, hmt, ho⟩ => ⟨h.opens_loadIndexed rfl hmo hp hmt ho (hz 2), h.opens_loadIndexed rfl hmo hp hmt ho (hx 2 (by decide) (by decide))⟩,
      fun ⟨hp, hmt, ho⟩ => ⟨h.opens_loadIndexed rfl hmo hp hmt ho (hz 4), h.opens_loadIndexed rfl hmo hp hmt ho (hx 4 (by decide) (by decide))⟩,
      fun ⟨hp, hmt, ho⟩ => h.opens_loadIndexed rfl hmo hp hmt ho (hz 8),
      fun hal => ⟨h.misses_loadM hmo rfl hal, h.misses_loadM hmo rfl hal⟩, fun hal => ⟨h.misses_loadM hmo rfl hal, h.misses_loadM hmo rfl hal⟩,
      fun hal => h.misses_loadM hmo rfl hal, ?_⟩
    have indexed (sel : Nat) (signed : Bool) (hsel : loadSel (BitVec.ofNat 4 sel) = some (2 ^ (sel % 4), signed))
        (hal : (vx (2 ^ (sel % 4))).toNat % 2 ^ (sel % 4) ≠ 0) : misses (.loadIndexed lc rt rb mo gi (BitVec.ofNat 4 sel) 0)
          (encIndexed rt rb mo gi (BitVec.ofNat 4 sel) 0) (vx (2 ^ (sel % 4))) := h.misses_loadIndexed hsel hmo hal
    simp only [List.forall_mem_cons]
    exact ⟨indexed 1 false rfl, indexed 2 false rfl, indexed 3 false rfl, indexed 5 true rfl, indexed 6 true rfl, by simp⟩
  case reserved =>
    exact ⟨h.illegal_loadM hmo rfl, h.illegal_loadM hmo rfl, h.illegal_loadM hmo rfl, h.illegal_loadM hmo rfl, h.illegal_loadM hmo rfl,
      h.illegal_loadM hmo rfl, h.illegal_loadM hmo rfl⟩

end Sys2Proof.Machine
end

section
/-! A member of an open shadow group, and the write point of a load (03 R80; 04 R101, R103). -/

namespace Sys2Proof.Machine

/-- The shadow of a load whose write point has come is over, and the load has written its register. -/
theorem tick_eq_of_due {c : Core} {rt : GReg} {v : Word64} (h : c.shadows = [{ left := 1, dest := .gen rt, value := .word v }]) :
    tick c = { c with regs := writeG c.regs rt v, shadows := [] } := by
  simp only [tick, h]
  rfl
/-- The group closes with its last shadow. -/
theorem retire_lastShadow {lc : Nat} {s : State} {c : Core} {g : Group} {rt : GReg} {v : Word64} (pc : Word64) (evs : List PmEvent)
    (hc : coreOf s lc = c) (hg : c.group = some g) (h : c.shadows = [{ left := 1, dest := .gen rt, value := .word v }]) :
    retire lc pc evs s = setCore s lc { c with regs := writeG c.regs rt v, pc := pc, shadows := [], group := some (joinGroup g evs []) } := by
  subst hc
  have htick := tick_eq_of_due (c := { coreOf s lc with pc := pc }) h
  unfold retire
  dsimp only
  split
  next g' hg' =>
    obtain rfl := Option.some.inj (hg.symm.trans hg')
    rw [htick]
  next hnone => rw [hg] at hnone; cases hnone
theorem closed_joinGroup_nil (g : Group) (evs : List PmEvent) : (joinGroup g evs []).closed = true := rfl

section
variable {lc : LC} {s u : State} {g : Group} (h : IssuesInGroup lc s u g)
include h

/-- A member of the group that does not serialise executes and gives its group the page of its fetch. -/
theorem IssuesInGroup.runInsn_eq {insn : Word32} {body : State → Eff} {s2 : State} {pc : Word64} {evs : List PmEvent} {g2 : Group}
    (hb : body u = .ok s2 pc evs) (hg : (coreOf s2 lc.val).group = some g2) :
    ∃ page, runInsn lc false insn body s =
      retire lc.val pc (evOne (coreOf u lc.val) 1 :: evs) (setCore s2 lc.val (holdAll [] [page] (coreOf s2 lc.val))) := by
  obtain ⟨page, hf⟩ := h.fetched
  obtain ⟨hgroup, hopen⟩ := h.member
  obtain ⟨hstep, hres⟩ := h.unarmed
  refine ⟨page, ?_⟩
  have hready : ready lc false s = (true, s) := by simp [ready, h.runs, hgroup, hopen]
  have hnote : noteIssue lc.val insn s = s := noteIssue_unarmed hres hstep
  simp only [runInsn, hready, hnote, hf, hb, oweFetch, hg, Bool.not_true, Bool.false_eq_true, if_false, if_true, List.map_nil, List.nil_append]
  rfl
end

/-- Settles O9: the member writes gd, and at the write point the load writes its register over it. -/
theorem loadWritesAtItsWritePoint : Obligations.LoadWritesAtItsWritePoint := by
  intro lc s u g rd ra rb rt v k h hsh r w
  have hgroup : (coreOf u lc.val).group = some g := by rw [h.kept]; exact h.member.1
  have hshadows : (coreOf u lc.val).shadows = [{ left := k + 1, dest := .gen rt, value := .word v }] := by rw [h.kept]; exact hsh
  have hbody : (doneRegs lc (fun q => setFlags false (intOp .add (readG r ra) (readG r rb) r.flags.c).2
      (writeG q rd (intOp .add (readG r ra) (readG r rb) r.flags.c).1)) u) =
      .ok (updRegs lc.val (fun q => writeG q rd w) u) ((coreOf u lc.val).pc + 4) [] := by
    have hop : (intOp .add (readG r ra) (readG r rb) r.flags.c).1 = w := congrArg Prod.fst (addc_false _ _)
    simp only [hop, setFlags_eq]
    rfl
  have hcore : coreOf (updRegs lc.val (fun q => writeG q rd w) u) lc.val = { coreOf u lc.val with regs := writeG r rd w } := coreOf_updRegs_same ..
  obtain ⟨page, hrun⟩ := h.runInsn_eq (insn := encA 1 rd ra rb false 0)
    (body := fun a => if false && rb != 0 then illegal a else doneRegs lc (fun q =>
      setFlags false (intOp .add (readG (regsOf a lc) ra) (readG (regsOf a lc) rb) (regsOf a lc).flags.c).2
        (writeG q rd (intOp .add (readG (regsOf a lc) ra) (readG (regsOf a lc) rb) (regsOf a lc).flags.c).1)) a)
    hbody (g2 := g) (by rw [hcore]; exact hgroup)
  rw [hcore] at hrun
  generalize hc : holdAll [] [page] { coreOf u lc.val with regs := writeG r rd w } = c at hrun
  have hcg : c.group = some { g with held := g.held ++ [], usedPages := [page] ++ g.usedPages } := by
    rw [← hc]
    simp only [holdAll, updGroup, hgroup, Option.map_some]
  have hcs : c.shadows = [{ left := k + 1, dest := .gen rt, value := .word v }] := by rw [← hc]; exact hshadows
  have hcr : c.regs = writeG r rd w := by rw [← hc]; rfl
  refine ⟨_, congrArg Host.Outcome.next hrun, ?_⟩
  have hsame : coreOf (setCore (updRegs lc.val (fun q => writeG q rd w) u) lc.val c) lc.val = c := coreOf_setCore_same ..
  have hother (c' : Core) (n : Nat) (hn : n ≠ lc.val) :
      coreOf (setCore (setCore (updRegs lc.val (fun q => writeG q rd w) u) lc.val c) lc.val c') n = coreOf u n := by
    rw [coreOf_setCore_other _ _ hn, coreOf_setCore_other _ _ hn, coreOf_updRegs_other _ _ hn]
  have hw (i : GReg) : readG c.regs i = if i = rd ∧ rd ≠ 0 then w else readG r i := by rw [hcr, readG_writeG]
  rcases Nat.eq_zero_or_pos k with rfl | hk
  · rw [retire_lastShadow _ _ hsame hcg hcs]
    simp only [coreOf_setCore_same]
    refine ⟨trivial, hother _, rfl, ?_, ?_, ?_, ?_, fun h0 => absurd h0 (Nat.lt_irrefl 0), fun _ => ⟨trivial, ⟨_, rfl, closed_joinGroup_nil ..⟩, fun i => ?_⟩⟩
    · rw [writeG_flags, hcr, writeG_flags]
    · rw [writeG_v, hcr, writeG_v]
    · rw [writeG_k, hcr, writeG_k]
    · rw [writeG_csr, hcr, writeG_csr]
    · rw [readG_writeG, hw]
  · rw [retire_member _ _ hsame hcg (by rw [hcs]; simpa using hk)]
    simp only [coreOf_setCore_same]
    refine ⟨trivial, hother _, rfl, ?_, ?_, ?_, ?_, fun _ => ⟨by rw [hcs]; rfl, hw⟩, fun h0 => absurd h0 (Nat.ne_of_gt hk)⟩
    · rw [hcr, writeG_flags]
    · rw [hcr, writeG_v]
    · rw [hcr, writeG_k]
    · rw [hcr, writeG_csr]

end Sys2Proof.Machine
end

section
/-! Stores served by the core's own caches or scratchpad (04 R94 to R97, R105). -/

namespace Sys2Proof.Machine

/-- Every event that an access counts is of the core's level. -/
theorem level_accessEvents {s : State} {lc : Nat} {va : Word64} {a : Access} {load : Bool} :
    ∀ e ∈ accessEvents s lc va a load, e.level = levelOf (coreOf s lc).regs := by
  intro e he
  simp only [accessEvents, List.mem_append, List.mem_singleton, List.mem_ite_nil_right] at he
  rcases he with (((((((rfl | ⟨-, rfl⟩) | ⟨-, rfl⟩) | ⟨-, rfl⟩) | ⟨-, rfl⟩) | ⟨-, rfl⟩) | ⟨-, rfl⟩) | ⟨-, rfl⟩) | ⟨-, rfl⟩ <;> rfl

@[simp] theorem coreOf_writeBytes (pa : Nat) (bs : List Byte) (s : State) (n : Nat) : coreOf (writeBytes pa bs s) n = coreOf s n := rfl

section
variable {lc : LC} {s u : State} (h : Issues lc s u) {i : Instr} {insn : Word32} {body : State → Eff} {n : Nat} {mo : BitVec 2}
  {rt : GReg} {va v : Word64}
include h

/-- Outside a group what an instruction gives away is released at once. -/
theorem Issues.giveOrDo_eq (hs : List Held) (pages : List Nat) : giveOrDo lc hs [] pages u = (true, releaseAll lc hs u) := by
  simp only [giveOrDo, h.core_group, setAds, if_true]

/-- A store whose access passes and that the core serves itself. -/
theorem Issues.completes_storeAt {a : Xlat} (hx : exec i s = .next (runInsn lc false insn body s)) (hb : body u = storeAt lc va n mo v u)
    (hn : n < 64) (hp : Passes lc wantStore va n false true u a) (ho : OwnLine lc a.acc u) :
    Completes i s fun t => HoldsBytes t a.acc.pa n v.toNat ∧ SameBytesBut a.acc.pa n u t ∧
      { t with cores := u.cores, mem := { t.mem with bytes := u.mem.bytes } } = u ∧
      coreOf t lc.val = { coreOf u lc.val with pc := (coreOf u lc.val).pc + 4 } ∧ ∀ n, n ≠ lc.val → coreOf t n = coreOf u n := by
  have hal : aligned va n = true := by simp [aligned, hp.aligned]
  have hstore : storeAt lc va n mo v u =
      .ok (writeBytes a.acc.pa (bytesOf v n) u) ((coreOf u lc.val).pc + 4) (accessEvents u lc.val va a.acc false) := by
    simp only [storeAt, hal, hp.checked, hp.owed, h.giveOrDo_eq, releaseAll, releaseOne, List.foldl_cons, List.foldl_nil,
      ho.ownStore.storeNow (bs := bytesOf v n) (by simpa using hn), Bool.not_true, Bool.false_eq_true, if_false]
    rfl
  have ht := h.exec_ok hx (hb.trans hstore) h.idle h.still level_accessEvents
  refine ⟨_, ht, fun k hk => holdsBytes_writeBytes a.acc.pa n v u k hk, fun b hb => ?_, rfl, coreOf_setCore_same .., fun m hm => ?_⟩
  · have hsame := sameBytesBut_writeBytes a.acc.pa (bytesOf v n) u
    rw [length_bytesOf] at hsame
    exact hsame b hb
  · rw [coreOf_setCore_other _ _ hm, coreOf_writeBytes]
theorem Issues.misses_storeAt (hx : exec i s = .next (runInsn lc false insn body s)) (hb : body u = storeAt lc va n mo v u)
    (hal : va.toNat % n ≠ 0) : Raises lc s u i insn 3 0 2 va (coreOf u lc.val).pc :=
  h.raises_access hx (hb.trans (by simp [storeAt, aligned, hal, excAlign])) (by decide) (by decide) (by decide)

variable {major : Nat} {rb gi : GReg} {off : BitVec 14} {sel : BitVec 4} {low : BitVec 5}

theorem Issues.misses_storeM (hmo : mo ≠ 3) (hx : exec i s = storeM major n lc rt rb mo off s)
    (hal : (offAddr (readG (coreOf u lc.val).regs rb) off n).toNat % n ≠ 0) :
    Raises lc s u i (encM major rt rb mo off) 3 0 2 (offAddr (readG (coreOf u lc.val).regs rb) off n) (coreOf u lc.val).pc :=
  h.misses_storeAt hx (if_neg hmo) hal
theorem Issues.illegal_storeM (hmo : mo = 3) (hx : exec i s = storeM major n lc rt rb mo off s) :
    Illegal lc s u i (encM major rt rb mo off) :=
  h.illegal_of_body hx (if_pos hmo)
theorem Issues.misses_storeIndexed (hsel : storeSel sel = some n) (hmo : mo ≠ 3)
    (hal : (indexAddr (readG (coreOf u lc.val).regs rb) (readG (coreOf u lc.val).regs gi) n).toNat % n ≠ 0) :
    Raises lc s u (.storeIndexed lc rt rb mo gi sel 0) (encIndexed rt rb mo gi sel 0) 3 0 2
      (indexAddr (readG (coreOf u lc.val).regs rb) (readG (coreOf u lc.val).regs gi) n) (coreOf u lc.val).pc :=
  h.misses_storeAt rfl (by simp only [hsel]; exact if_neg (by simpa using hmo)) hal
theorem Issues.illegal_storeIndexed (hbad : mo = 3 ∨ low ≠ 0 ∨ sel.toNat < 8 ∨ 12 ≤ sel.toNat) :
    Illegal lc s u (.storeIndexed lc rt rb mo gi sel low) (encIndexed rt rb mo gi sel low) := by
  refine h.illegal_of_body rfl ?_
  cases hsel : storeSel sel with
  | none => rfl
  | some x =>
    have hin : 8 ≤ sel.toNat ∧ sel.toNat < 12 := by
      by_contra hn
      rw [storeSel, if_neg hn] at hsel
      cases hsel
    exact if_pos (hbad.imp_right fun hb => hb.resolve_right (by omega))
end

/-- Settles O10: a store that passes and that the core serves itself writes its bytes. -/
theorem storesWriteTheirBytes : Obligations.StoresWriteTheirBytes := by
  intro lc s u rt rb gi mo off a h r va vx served misses stores
  refine ⟨fun hmo => ?stores, fun hmo => ?reserved, fun sel low hbad => h.illegal_storeIndexed hbad⟩
  case stores =>
    have plain {i : Instr} {major n : Nat} (hn : n < 64) (hx : exec i s = storeM major n lc rt rb mo off s) : served (va n) n → stores i n :=
      fun ⟨hp, ho⟩ => h.completes_storeAt hx (if_neg hmo) hn hp ho
    have indexed (sel : BitVec 4) {n : Nat} (hn : n < 64) (hsel : storeSel sel = some n) :
        served (vx n) n → stores (.storeIndexed lc rt rb mo gi sel 0) n :=
      fun ⟨hp, ho⟩ => h.completes_storeAt rfl (by simp only [hsel]; exact if_neg (by simpa using hmo)) hn hp ho
    refine ⟨plain (by decide) rfl, plain (by decide) rfl, plain (by decide) rfl, plain (by decide) rfl, indexed 8 (by decide) rfl,
      indexed 9 (by decide) rfl, indexed 10 (by decide) rfl, indexed 11 (by decide) rfl, h.misses_storeM hmo rfl, h.misses_storeM hmo rfl,
      h.misses_storeM hmo rfl, ?_⟩
    have misaligned (k : Nat) (hsel : storeSel (BitVec.ofNat 4 (8 + k)) = some (2 ^ k)) (hal : (vx (2 ^ k)).toNat % 2 ^ k ≠ 0) :
        misses (.storeIndexed lc rt rb mo gi (BitVec.ofNat 4 (8 + k)) 0) (encIndexed rt rb mo gi (BitVec.ofNat 4 (8 + k)) 0) (vx (2 ^ k)) :=
      h.misses_storeIndexed hsel hmo hal
    simp only [List.forall_mem_cons]
    exact ⟨misaligned 1 rfl, misaligned 2 rfl, misaligned 3 rfl, by simp⟩
  case reserved =>
    exact ⟨h.illegal_storeM hmo rfl, h.illegal_storeM hmo rfl, h.illegal_storeM hmo rfl, h.illegal_storeM hmo rfl⟩

end Sys2Proof.Machine
end

section
/-! Atomics (04 R108, R109, R113, R114). -/

namespace Sys2Proof.Machine

/-- The group that a core begins with its first deferred access. -/
def deferredGroup (c : Core) (hs : List Held) (pages : List Nat) : Group where
  firstPc := c.pc
  members := 0
  closed := false
  sinceDeferred := some 0
  nextId := 1
  held := hs
  snap := c.regs
  usedPages := pages

section
variable {lc : LC} {s u : State} (h : Issues lc s u) {i : Instr} {op : AmoOp} {rt rb gs : GReg} {mo : BitVec 2} {wide far : Bool} {low : BitVec 3}
include h

/-- An `AMO` that passes its checks is held by the group it opens. -/
theorem Issues.holds_amoRow {a : Xlat} (hx : exec i s = amoRow op lc rt rb mo wide far gs 0 s)
    (hp : Passes lc wantAmo (readG (coreOf u lc.val).regs rb) (if wide then 8 else 4) true true u a) :
    Completes i s fun t => ∃ g, CoreNow lc u t { coreOf u lc.val with
        pc := (coreOf u lc.val).pc + 4, shadows := [{ left := 3, dest := .gen rt, value := .deferred 0 }], group := some g } ∧
      g.firstPc = (coreOf u lc.val).pc ∧ g.snap = (coreOf u lc.val).regs ∧ g.members = 1 ∧ g.closed = false ∧
      g.held = [.amo 0 a.acc op wide far (readG (coreOf u lc.val).regs gs) (readG (coreOf u lc.val).regs rt) (mo.getLsbD 0)] := by
  have hal : aligned (readG (coreOf u lc.val).regs rb) (if wide then 8 else 4) = true := by simp [aligned, hp.aligned]
  have hcut : cutShadows (coreOf u lc.val) = coreOf u lc.val := cutShadows_none h.core_shadows
  obtain ⟨t, ht, g, hnow, hfirst, hsnap, hmembers, hclosed, hheld⟩ := h.next_opensGroup (l := [(.gen rt, .deferred 0)])
    (v := u) (c := { coreOf u lc.val with
      shadows := [{ left := 4, dest := .gen rt, value := .deferred 0 }],
      group := some (deferredGroup (coreOf u lc.val)
        [.amo 0 a.acc op wide far (readG (coreOf u lc.val).regs gs) (readG (coreOf u lc.val).regs rt) (mo.getLsbD 0)] [a.page]) })
    (pc := (coreOf u lc.val).pc + 4) (evs := accessEvents u lc.val (readG (coreOf u lc.val).regs rb) a.acc true ++ [evOne (openGroup (coreOf u lc.val)) 0x21])
    hx (by
      simp only [ne_eq, not_true, if_false, regsOf, hal, hp.checked, hp.owed, hcut, openGroup, h.core_group, nextDeferred, Bool.not_true,
        Bool.false_eq_true, List.map_nil, pushShadow, h.core_shadows, holdAll, updGroup, Option.map_some]
      rfl) rfl rfl (.inr rfl) rfl (by simp)
  exact ⟨t, ht, g, hnow, hfirst, hsnap, hmembers, hclosed, hheld⟩
theorem Issues.illegal_amoRow (hlow : low ≠ 0) (hx : exec i s = amoRow op lc rt rb mo wide far gs low s) : Illegal lc s u i
    (encM 0x1E rt rb mo (BitVec.ofNat 14 (amoNum op * 1024 + wide.toNat * 512 + far.toNat * 256 + gs.val * 8 + low.toNat))) :=
  h.illegal_of_body hx (if_pos hlow)
theorem Issues.misses_amoRow (hlow : low = 0) (hx : exec i s = amoRow op lc rt rb mo wide far gs low s)
    (hal : (readG (coreOf u lc.val).regs rb).toNat % (if wide then 8 else 4) ≠ 0) : Raises lc s u i
    (encM 0x1E rt rb mo (BitVec.ofNat 14 (amoNum op * 1024 + wide.toNat * 512 + far.toNat * 256 + gs.val * 8 + low.toNat))) 3 0 3
    (readG (coreOf u lc.val).regs rb) (coreOf u lc.val).pc :=
  h.raises_access hx (by simp [hlow, aligned, regsOf, hal, excAlign]) (by decide) (by decide) (by decide)
end

/-- Settles O11: an `AMO` opens the group that holds it; a reserved or misaligned one raises its exception. -/
theorem atomicsAreHeldUntilTheCommit : Obligations.AtomicsAreHeldUntilTheCommit := by
  intro lc s u rt rb gs mo wide far low a h r n holds word
  refine ⟨fun hp => ⟨h.holds_amoRow rfl hp, h.holds_amoRow rfl hp, h.holds_amoRow rfl hp, h.holds_amoRow rfl hp, h.holds_amoRow rfl hp,
    h.holds_amoRow rfl hp, h.holds_amoRow rfl hp, h.holds_amoRow rfl hp, h.holds_amoRow rfl hp, h.holds_amoRow rfl hp⟩, ?_⟩
  intro all
  refine ⟨fun hlow => ?reserved, fun hlow hal => ?misaligned⟩
  case reserved =>
    have bad {i : Instr} {op : AmoOp} (hx : exec i s = amoRow op lc rt rb mo wide far gs low s) : Illegal lc s u i (word (amoNum op)) :=
      h.illegal_amoRow hlow hx
    exact ⟨bad (op := .xchg) rfl, bad (op := .add) rfl, bad (op := .and) rfl, bad (op := .or) rfl, bad (op := .xor) rfl, bad (op := .maxs) rfl,
      bad (op := .mins) rfl, bad (op := .maxu) rfl, bad (op := .minu) rfl, bad (op := .cmpx) rfl⟩
  case misaligned =>
    have misses {i : Instr} {op : AmoOp} (hx : exec i s = amoRow op lc rt rb mo wide far gs low s) :
        Raises lc s u i (word (amoNum op)) 3 0 3 (readG r rb) (coreOf u lc.val).pc := h.misses_amoRow hlow hx hal
    exact ⟨misses (op := .xchg) rfl, misses (op := .add) rfl, misses (op := .and) rfl, misses (op := .or) rfl, misses (op := .xor) rfl,
      misses (op := .maxs) rfl, misses (op := .mins) rfl, misses (op := .maxu) rfl, misses (op := .minu) rfl, misses (op := .cmpx) rfl⟩

end Sys2Proof.Machine
end

section
/-! Fences and prefetches (04 R100, R112, R118, R121, R122; 08 R208). -/

namespace Sys2Proof.Machine

section
variable {lc : LC} {s u : State} (h : Issues lc s u) {i : Instr} {ser : Bool} {insn : Word32} {body : State → Eff}
include h

/-- An instruction that leaves the device as it is. -/
theorem Issues.executes_sameRegs (hx : exec i s = .next (runInsn lc ser insn body s)) (hb : body u = .ok u (nextPc u lc) []) :
    Executes lc s u i SameRegs := by
  refine ⟨_, h.exec_ok hx hb h.idle h.still (by simp), (coreOf u lc.val).regs, rfl, coreOf_setCore_same .., fun n hn => coreOf_setCore_other _ _ hn, rfl⟩
theorem Issues.executes_fence (hx : exec i s = .next (runInsn lc ser insn body s)) (hb : body u = doneRegs lc id u) :
    Executes lc s u i SameRegs :=
  h.executes_doneRegs hx hb rfl rfl
end

theorem prefetch_refused {lc : LC} {kind : Nat} {va : Word64} {u v : State} {e : Exc}
    (ht : translate lc.val (if kind = 2 then wantStore else wantLoad) va u = (.error e, v)) : prefetch lc kind va u = u := by
  simp only [prefetch, ht]
/-- A prefetch of kind 0 or 1 of a line that the core's caches hold finds nothing to do. -/
theorem prefetch_ownLine {lc : LC} {kind : Nat} {va : Word64} {u : State} {a : Xlat} (hk : kind < 2)
    (ht : translate lc.val wantLoad va u = (.ok a, u)) (ho : OwnLine lc a.acc u) : prefetch lc kind va u = u := by
  simp only [prefetch, if_neg (show kind ≠ 2 by omega), ht]
  split
  case isTrue => rfl
  case isFalse hdo =>
    have hm : isMemory a.acc.pa = true := by
      by_contra hn
      simp [hn] at hdo
    obtain ⟨-, -, hread, -⟩ := ho.line hm
    rw [coreMeter_inside ho.inside]
    interval_cases kind
    · exact hread false
    · exact hread true

/-- Settles O13: the fences change no register; a prefetch that finds its line, or that the translation refuses, does nothing. -/
theorem fencesAndPrefetchesChangeOnlyThePc : Obligations.FencesAndPrefetchesChangeOnlyThePc := by
  intro lc s u rd rv rb x kind mo off h va
  have hprefetch (hk : kind.toNat < 4) (hp : prefetch lc kind.toNat va u = u) : Executes lc s u (.prfm lc kind rb 0 off) SameRegs :=
    h.executes_sameRegs rfl ((if_neg (by simpa using hk)).trans (congrArg (Eff.ok · (nextPc u lc) []) hp))
  refine ⟨fun hx => h.executes_fence rfl (if_neg (by simpa using hx)), h.executes_fence rfl rfl, h.executes_fence rfl rfl,
    fun a hk ht ho => hprefetch (hk.trans (by decide)) (prefetch_ownLine hk ht ho), fun e v hk ht => hprefetch hk (prefetch_refused (e := e) (v := v) ?store),
    fun hbad => h.illegal_of_body rfl (if_pos hbad), fun hbad => h.illegal_of_body rfl (if_pos (by simpa [or_assoc] using hbad)),
    fun hbad => ⟨h.illegal_of_body rfl (if_pos (by simpa [or_assoc] using hbad)), h.illegal_of_body rfl (if_pos (by simpa [or_assoc] using hbad))⟩⟩
  case store =>
    have hkind : kind.toNat = 2 ↔ kind = 2 := BitVec.toNat_inj (y := 2)
    simp only [hkind]
    exact ht

end Sys2Proof.Machine
end

section
/-! The commit of a closed group (04 R104, R105, R115). -/

namespace Sys2Proof.Machine

/-! ### What the core's own caches serve does not depend on the registers -/

theorem OwnStore.of_cores {lc : LC} {a : Access} {s : State} {cs : SMap Core} (h : OwnStore lc a s)
    (hc : ∀ n, (coreOf { s with cores := cs } n).enableL2 = (coreOf s n).enableL2 ∧ (coreOf { s with cores := cs } n).enableL1D = (coreOf s n).enableL1D) :
    OwnStore lc a { s with cores := cs } := by
  have hl2 : ∀ pc, l2On { s with cores := cs } pc = l2On s pc := by
    intro pc
    show (match lcOfPc s pc with | some lc => (coreOf { s with cores := cs } lc).enableL2 | none => true) = l2On s pc
    unfold l2On
    cases lcOfPc s pc
    · rfl
    · exact (hc _).1
  have hl1 : ∀ pc, l1dOn { s with cores := cs } pc = l1dOn s pc := by
    intro pc
    show (match lcOfPc s pc with | some lc => (coreOf { s with cores := cs } lc).enableL1D | none => true) = l1dOn s pc
    unfold l1dOn
    cases lcOfPc s pc
    · rfl
    · exact (hc _).2
  have hpc : pcOf { s with cores := cs } lc.val = pcOf s lc.val := rfl
  have hpriv : ∀ pc, priv { s with cores := cs } pc = priv s pc := fun _ => rfl
  have hcopy : ∀ pc line, l2Copy { s with cores := cs } pc line = l2Copy s pc line := fun pc line => by rw [l2Copy, hl2, hpriv, l2Copy]
  have hview : ∀ pc line, staleView { s with cores := cs } pc line false = staleView s pc line false := fun pc line => by
    simp only [staleView, hl1, hpriv, hcopy, Bool.false_eq_true, if_false]
  refine ⟨?_, h.backed, h.unfenced, h.place, fun hm => ?_⟩
  · have hscratch : ownScratch { s with cores := cs } lc.val a.pa = ownScratch s lc.val a.pa := rfl
    rw [leavesCore, hpc, hcopy, hscratch, ← leavesCore]
    exact h.inside
  · rw [hpc, hl2, hview, hcopy]
    exact h.line hm

/-! ### A near `AMO` of an owned line (04 R113, R115) -/

section
variable {lc : LC} {a : Access} {s : State} (h : OwnLine lc a s) (hm : isMemory a.pa = true) (op : AmoOp) (gs gt : Word64)
include h hm

theorem OwnLine.amoNow_wide : amoNow lc.val a op true false gs gt s = ((BitVec.ofNat 64 (readNat s a.pa 8)).setWidth 64,
    writeBytes a.pa (bytesOf (amoOp op (BitVec.ofNat 64 (readNat s a.pa 8)) (gs.setWidth 64) (gt.setWidth 64)) 8) s) := by
  obtain ⟨hmt, hl2, -, hstale, -⟩ := h.line hm
  simp only [amoNow, coreMeter_inside h.inside, hm, hmt, hl2, h.ownStore.coherentOwn hm, viewBytes, hstale, h.ownStore.viewWrite hm, beq_self_eq_true,
    Bool.not_false, Bool.and_self, if_true, BitVec.setWidth_eq]
  rfl
theorem OwnLine.amoNow_narrow : amoNow lc.val a op false false gs gt s = ((BitVec.ofNat 32 (readNat s a.pa 4)).setWidth 64,
    writeBytes a.pa (bytesOf (amoOp op (BitVec.ofNat 32 (readNat s a.pa 4)) (gs.setWidth 32) (gt.setWidth 32)) 4) s) := by
  obtain ⟨hmt, hl2, -, hstale, -⟩ := h.line hm
  simp only [amoNow, coreMeter_inside h.inside, hm, hmt, hl2, h.ownStore.coherentOwn hm, viewBytes, hstale, h.ownStore.viewWrite hm, beq_self_eq_true,
    Bool.not_false, Bool.and_self, if_true, Bool.false_eq_true, if_false]
  rfl
end

/-- The operations of R113, on a word of any width. -/
theorem amoOp_eq {w : Nat} (op : AmoOp) (old x y : BitVec w) : amoOp op old x y =
    match op with
    | .xchg => x
    | .add => old + x
    | .and => old &&& x
    | .or => old ||| x
    | .xor => old ^^^ x
    | .maxs => if old.sle x then x else old
    | .mins => if old.sle x then old else x
    | .maxu => if old.ule x then x else old
    | .minu => if old.ule x then old else x
    | .cmpx => if old = y then x else old := by
  cases op with
  | maxs => simp only [amoOp, BitVec.sle_iff_toInt_le]
  | mins =>
    simp only [amoOp, BitVec.sle_iff_toInt_le]
    rcases lt_trichotomy old.toInt x.toInt with hlt | heq | hgt
    · rw [if_neg (by omega), if_pos (by omega)]
    · rw [if_pos (by omega), if_pos (by omega), BitVec.eq_of_toInt_eq heq]
    · rw [if_pos (by omega), if_neg (by omega)]
  | maxu => simp only [amoOp, BitVec.ule_iff_toNat_le]
  | minu =>
    simp only [amoOp, BitVec.ule_iff_toNat_le]
    rcases lt_trichotomy old.toNat x.toNat with hlt | heq | hgt
    · rw [if_neg (by omega), if_pos (by omega)]
    · rw [if_pos (by omega), if_pos (by omega), BitVec.eq_of_toNat_eq heq]
    · rw [if_pos (by omega), if_neg (by omega)]
  | xchg | add | and | or | xor | cmpx => rfl

/-! ### The end of a commit -/

theorem readByte_setCore (s : State) (n : Nat) (c : Core) (b : Nat) : readByte (setCore s n c) b = readByte s b := rfl
theorem enables_setCore {s : State} {lc : Nat} {c : Core} (h2 : c.enableL2 = (coreOf s lc).enableL2) (h1 : c.enableL1D = (coreOf s lc).enableL1D) (n : Nat) :
    (coreOf (setCore s lc c) n).enableL2 = (coreOf s n).enableL2 ∧ (coreOf (setCore s lc c) n).enableL1D = (coreOf s n).enableL1D := by
  by_cases hn : n = lc
  · subst hn
    rw [coreOf_setCore_same]
    exact ⟨h2, h1⟩
  · rw [coreOf_setCore_other _ _ hn]
    exact ⟨rfl, rfl⟩

/-- A core whose group has committed, its open shadows cut. -/
def committed (c : Core) : Core := cutShadows { c with group := none, mmioWait := false, retryRun := 0, overlay := [], unpushed := [], missed := [] }
/-- A load's write point changes no CSR. -/
theorem csr_applyShadow (r : Regs) (sh : Shadow) : (applyShadow r sh).csr = r.csr := by
  unfold applyShadow
  split
  · exact writeG_csr ..
  · exact writeV_csr ..
  · exact writeK_csr ..
  · rfl
theorem csr_foldl_applyShadow (l : List Shadow) (r : Regs) : (l.foldl applyShadow r).csr = r.csr := by
  induction l generalizing r with
  | nil => rfl
  | cons x l ih => rw [List.foldl_cons, ih, csr_applyShadow]

/-- The end of the commit of a closed group that predicts nothing, of a core whose counters stand and on which nothing is armed. -/
theorem finishCommit_plain {lc : LC} {g : Group} {t : State} {c : Core} (hclosed : g.closed = true) (hrs : g.rsOps = []) (hitts : g.itts = [])
    (hcount : (csr c.regs 0x522).getLsbD 0 = true) (hun : Unarmed c) (ht : coreOf t lc.val = c) :
    finishCommit lc.val g t = setCore t lc.val (committed c) := by
  have hcore : updCore lc.val (fun c =>
      let c1 := { c with group := none, mmioWait := false, retryRun := 0, overlay := [], unpushed := [], missed := [], retStack := g.rsOps.foldl rsOp c.retStack }
      if g.closed then cutShadows c1 else c1) t = setCore t lc.val (committed c) := by
    simp only [updCore, ht, hrs, hclosed, List.foldl_nil, if_true]
    rfl
  have hsame : coreOf (setCore t lc.val (committed c)) lc.val = committed c := coreOf_setCore_same ..
  have hcsr : csr (committed c).regs 0x522 = csr c.regs 0x522 := by
    rw [csr, csr]
    exact congrArg (smGet _ · _) (csr_foldl_applyShadow ..)
  unfold Machine.finishCommit
  simp only [hcore, hitts, List.foldl_nil]
  rw [pmEvents1_still fun e _ => by rw [hsame, Still, hcsr]; exact .inl hcount, unitEnd_unarmed (by rw [hsame]; exact hun)]

section
variable {lc : LC} {s : State} {g : Group} (h : MayCommit lc s g)
include h

/-- The end of the commit, from a state in which the core has been given the values of its deferred loads. -/
theorem MayCommit.finishCommit {t : State} {c : Core} {shs : List Shadow} (hc : c = { coreOf s lc.val with shadows := shs })
    (ht : coreOf t lc.val = c) : finishCommit lc.val g t = setCore t lc.val (committed c) :=
  finishCommit_plain h.closed.2 h.plain.1 h.plain.2.1 (by rw [hc]; exact h.counters) (by rw [hc]; exact h.unarmed) ht

/-- A commit whose deferred accesses bring `b` and make `t` of the device, and which releases `hs`. -/
theorem MayCommit.commits {t : State} {b : Brought} {hs : List Held} {c : Core} (hads : adsOf g.held = [])
    (hpass : heldPass lc [] (mergeNt (g.held.filter notAd)) s = { brought := b, left := hs, waits := false, st := t })
    (ht : coreOf t lc.val = coreOf s lc.val) (hc : c = { coreOf s lc.val with shadows := (coreOf s lc.val).shadows.filterMap (resolve b) })
    (hrel : coreOf (releaseAll lc hs (setCore t lc.val c)) lc.val = c) :
    exec (.shadowGroupCommit lc) s = .next (setCore (releaseAll lc hs (setCore t lc.val c)) lc.val (committed c)) := by
  obtain ⟨hgroup, hclosed⟩ := h.closed
  have hcg : c.group = some g := by rw [hc]; exact hgroup
  have hperform : performHeld lc (mergeNt (g.held.filter notAd)) s = (true, setCore (releaseAll lc hs (setCore t lc.val c)) lc.val (committed c)) := by
    simp only [performHeld, hpass, updCore, ht, ← hc, Bool.false_eq_true, if_false, hrel, hcg]
    rw [h.finishCommit hc hrel]
  have hcommit : commitGroup lc s = performHeld lc (mergeNt (g.held.filter notAd)) s := by
    simp only [commitGroup, hgroup, hads, setAds, if_true]
  show Host.Outcome.next _ = _
  simp only [hgroup, hclosed, h.runs, Bool.and_self, if_true, hcommit, hperform]

end

/-- What a commit that writes bytes `bs` at `pa` leaves, but for the registers. -/
theorem ended_setCore_committed {lc : LC} {s : State} {c : Core} {shs : List Shadow} (hc : c = { coreOf s lc.val with shadows := shs }) (s2 : State)
    (hs2 : { s2 with cores := s.cores, mem := { s2.mem with bytes := s.mem.bytes } } = s) (hother : ∀ n, n ≠ lc.val → coreOf s2 n = coreOf s n) :
    (coreOf (setCore s2 lc.val (committed c)) lc.val).group = none ∧ (coreOf (setCore s2 lc.val (committed c)) lc.val).shadows = [] ∧
      (coreOf (setCore s2 lc.val (committed c)) lc.val).pc = (coreOf s lc.val).pc ∧
      (∀ n, n ≠ lc.val → coreOf (setCore s2 lc.val (committed c)) n = coreOf s n) ∧
      { setCore s2 lc.val (committed c) with
        cores := s.cores, mem := { (setCore s2 lc.val (committed c)).mem with bytes := s.mem.bytes } } = s := by
  simp only [coreOf_setCore_same]
  refine ⟨rfl, rfl, by rw [hc]; rfl, fun n hn => by rw [coreOf_setCore_other _ _ hn, hother n hn], hs2⟩
theorem regs_committed_one (c : Core) (sh : Nat) (rt : GReg) (v : Word64)
    (hc : c.shadows = [{ left := sh, dest := .gen rt, value := .word v }]) : (committed c).regs = writeG c.regs rt v := by
  simp only [committed, cutShadows, hc]
  rfl

/-- Settles O12: each commit is `MayCommit.commits` of what its group holds. -/
theorem groupCommitPerformsWhatIsHeld : Obligations.GroupCommitPerformsWhatIsHeld := by
  refine ⟨fun lc s g h => ?commits, fun lc s hno => ?none⟩
  case none =>
    show Host.Outcome.next _ = _
    rcases hno with hg | hr | ⟨g, hg, hclosed⟩
    · simp only [hg]
    · cases (coreOf s lc.val).group <;> simp [hr]
    · simp [hg, hclosed]
  case commits =>
    intro c ended
    refine ⟨fun hheld sh rt v hsh => ?loads, fun a bs rl hheld hsh hline hpos hlen ho => ?store, fun a op wide aq gs gt sh rt hheld hsh ho hm => ?amo⟩
    case loads =>
      have hshs : c.shadows.filterMap (resolve []) = c.shadows := by rw [hsh]; rfl
      have ht := h.commits (t := s) (b := []) (hs := []) (c := { c with shadows := c.shadows }) (by rw [hheld]; rfl) (by rw [hheld]; rfl) rfl
        (by rw [hshs]) (coreOf_setCore_same ..)
      refine ⟨_, ht, ended_setCore_committed rfl _ rfl fun n hn => coreOf_setCore_other _ _ hn, fun a => rfl, fun i => ?_⟩
      rw [coreOf_setCore_same, regs_committed_one _ sh rt v hsh, readG_writeG]
    case store =>
      have hown : OwnStore lc a (setCore s lc.val { c with shadows := c.shadows.filterMap (resolve []) }) :=
        ho.ownStore.of_cores (enables_setCore rfl rfl)
      have hrel : releaseAll lc [.store a bs false rl] (setCore s lc.val { c with shadows := c.shadows.filterMap (resolve []) }) =
          writeBytes a.pa bs (setCore s lc.val { c with shadows := c.shadows.filterMap (resolve []) }) := hown.storeNow hlen false
      have ht := h.commits (t := s) (b := []) (hs := [.store a bs false rl]) (by rw [hheld]; rfl) (by rw [hheld]; rfl) rfl rfl
        (by rw [hrel, coreOf_writeBytes, coreOf_setCore_same])
      refine ⟨_, ht, ended_setCore_committed rfl _ (by rw [hrel]; rfl) fun n hn => ?_, fun i hi => ?_, fun b hb => ?_, ?_⟩
      · rw [hrel, coreOf_writeBytes, coreOf_setCore_other _ _ hn]
      · rw [readByte_setCore, hrel, readByte_writeBytes, if_pos (by omega), Nat.add_sub_cancel_left]
      · rw [readByte_setCore, hrel, sameBytesBut_writeBytes _ _ _ _ hb, readByte_setCore]
      · rw [coreOf_setCore_same, hsh]
        rfl
    case amo =>
      intro n old x y new
      have done {w : Word64} {v : BitVec (8 * n)} (hnow : amoNow lc.val a op wide false gs gt s = (w, writeBytes a.pa (bytesOf v n) s)) :
          Completes (.shadowGroupCommit lc) s fun t => ended t ∧ HoldsBytes t a.pa n v.toNat ∧ SameBytesBut a.pa n s t ∧
            ∀ i, readG (coreOf t lc.val).regs i = if i = rt ∧ rt ≠ 0 then w else readG c.regs i := by
        have hpass : heldPass lc [] (mergeNt (g.held.filter notAd)) s =
            { brought := [(0, some (.word w))], left := [], waits := false, st := writeBytes a.pa (bytesOf v n) s } := by
          rw [hheld]
          show heldPass lc [] [.amo 0 a op wide false gs gt aq] s = _
          simp only [heldPass, isOutgoing, heldOne, hnow, List.any_nil, Bool.false_eq_true, if_false]
          rfl
        have hshs : c.shadows.filterMap (resolve [(0, some (.word w))]) = [{ left := sh, dest := .gen rt, value := .word w }] := by
          rw [hsh]
          rfl
        have ht := h.commits (c := { c with shadows := [{ left := sh, dest := .gen rt, value := .word w }] }) (by rw [hheld]; rfl) hpass
          (coreOf_writeBytes ..) (by rw [hshs]) (coreOf_setCore_same ..)
        refine ⟨_, ht, ended_setCore_committed rfl _ rfl fun n hn => ?_, fun i hi => ?_, fun b hb => ?_, fun i => ?_⟩
        · exact coreOf_setCore_other _ _ hn
        · exact holdsBytes_writeBytes a.pa n v s i hi
        · have hsame := sameBytesBut_writeBytes a.pa (bytesOf v n) s
          rw [length_bytesOf] at hsame
          exact hsame b hb
        · rw [coreOf_setCore_same, regs_committed_one _ sh rt w rfl, readG_writeG]
      have hnew : new = amoOp op old x y := (amoOp_eq op old x y).symm
      rw [hnew]
      clear_value new
      cases wide
      · exact done (ho.amoNow_narrow hm op gs gt)
      · exact done (ho.amoNow_wide hm op gs gt)

end Sys2Proof.Machine
end

section
/-! The interrupt lines and the fault log (17 R421; 20 R500): a line raised or a record written changes the interrupt controller, the log and
the alert pads alone. -/

namespace Sys2Proof.Machine
variable {s : State}

theorem setLine_eq (src : Nat) (b : Bool) : ∃ i, setLine src b s = { s with intc := i } := by
  unfold setLine setPend
  split <;> exact ⟨_, rfl⟩
theorem pulse_eq (src : Nat) : ∃ i, pulse src s = { s with intc := i } := by
  obtain ⟨i, hi⟩ := setLine_eq (s := s) src true
  obtain ⟨j, hj⟩ := setLine_eq (s := { s with intc := i }) src false
  exact ⟨j, by rw [pulse, hi, hj]⟩

/-- `t` is `s` but for the log, the alert pads and the interrupt controller. -/
def LogNow (s t : State) : Prop := ∃ r p i, t = { s with resil := r, pads := p, intc := i }

namespace LogNow
variable {t u : State}
theorem refl : LogNow s s := ⟨_, _, _, rfl⟩
theorem trans (h : LogNow s t) (h' : LogNow t u) : LogNow s u := by
  obtain ⟨_, _, _, rfl⟩ := h
  obtain ⟨_, _, _, rfl⟩ := h'
  exact ⟨_, _, _, rfl⟩
theorem of_pulse (src : Nat) : LogNow s (pulse src s) := by
  obtain ⟨i, hi⟩ := pulse_eq (s := s) src
  exact ⟨_, _, i, hi⟩
theorem cores (h : LogNow s t) : t.cores = s.cores := by
  obtain ⟨_, _, _, rfl⟩ := h
  rfl
theorem mem (h : LogNow s t) : t.mem = s.mem := by
  obtain ⟨_, _, _, rfl⟩ := h
  rfl
end LogNow

theorem logNow_addEntry (kind cls : Nat) (rec : List Byte) : LogNow s (addEntry kind cls rec s) := by
  unfold addEntry
  extract_lets seq e r s1 s2
  have h1 : LogNow s s1 := ⟨_, _, _, rfl⟩
  have h2 : LogNow s1 s2 := by
    unfold s2
    split
    · exact (LogNow.of_pulse 144).trans ⟨_, _, _, rfl⟩
    · exact .refl
  split
  · exact (h1.trans h2).trans (.of_pulse 151)
  · exact h1.trans h2
theorem logNow_logRecord (kind cls unit countAt : Nat) (rec : List Byte) : LogNow s (logRecord kind cls unit countAt rec s) := by
  unfold logRecord
  split
  · split
    · exact ⟨_, _, _, rfl⟩
    · exact (logNow_addEntry kind cls rec).trans ⟨_, _, _, rfl⟩
  · exact logNow_addEntry kind cls rec
theorem logNow_logFault (kind cls unit : Nat) (lcore : Option Nat) (arg0 arg1 : Nat) : LogNow s (logFault kind cls unit lcore arg0 arg1 s) :=
  logNow_logRecord ..

@[simp] theorem cores_logFault (kind cls unit : Nat) (lcore : Option Nat) (arg0 arg1 : Nat) :
    (logFault kind cls unit lcore arg0 arg1 s).cores = s.cores := (logNow_logFault ..).cores
@[simp] theorem mem_logFault (kind cls unit : Nat) (lcore : Option Nat) (arg0 arg1 : Nat) :
    (logFault kind cls unit lcore arg0 arg1 s).mem = s.mem := (logNow_logFault ..).mem

theorem microError_keeps (pc : Nat) : (microError pc s).cores = s.cores ∧ (microError pc s).mem = s.mem := by
  unfold microError
  dsimp only
  split
  · split
    · split <;> simp [bump]
    · simp [bump]
  · simp [bump]

end Sys2Proof.Machine
end

section
/-! Interrupts at a group boundary and the retry of an instruction group (07 R173, R176 to R178; 20 R479, R480). -/

namespace Sys2Proof.Machine
variable {lc : LC} {s : State}

/-- A core whose counters are frozen enters an interrupt, no step armed. -/
theorem entered_interrupt (hskip : (coreOf s lc.val).eretSkip = 0) (hreq : (coreOf s lc.val).stepReq = false)
    (hfrozen : (csr (coreOf s lc.val).regs 0x522).getLsbD 0 = true) (e : Exc) (epc empc insn : Word64) (n : Nat) :
    Entered lc s (stepEnds lc.val (pmEvents1 lc.val [plainEvent (coreOf s lc.val) n] (updCore lc.val (enterCore e true epc empc insn) s)))
      e.cause (causeInfo e true) epc e.addr empc insn e.elanes := by
  generalize ht : updCore lc.val (enterCore e true epc empc insn) s = t
  have hc : coreOf t lc.val = enterCore e true epc empc insn (coreOf s lc.val) := by rw [← ht, coreOf_updCore_same]
  have hcsr : csr (coreOf t lc.val).regs 0x522 = csr (coreOf s lc.val).regs 0x522 := by
    have hbank := bankOf_eq (coreOf s lc.val).regs
    rw [hc]
    simp only [enterCore, hskip, if_true]
    exact (enterRegs_spec ..).rest _ (by decide) (by rw [bankOf_excBank]; omega) (by rw [bankOf_excBank]; omega)
  have hends : stepEnds lc.val t = t := by
    have htreq : (coreOf t lc.val).stepReq = false := by
      rw [hc]
      exact hreq
    simp [stepEnds, htreq]
  rw [pmEvents1_still fun ev _ => by rw [Still, hcsr]; exact .inl hfrozen, hends]
  refine entered_of_enterCore e true epc empc insn hskip ⟨hc, fun m hm => ?_, ?_⟩
  · rw [← ht, coreOf_updCore_other _ _ hm]
  · rw [← ht]
    rfl

/-- A core at a group boundary where nothing else is due takes the interrupt that is selected for it, if it takes one (07 R173). -/
theorem interruptEntry_atBoundary (hruns : coreRuns s lc.val = true) (hgroup : (coreOf s lc.val).group = none)
    (hshadows : (coreOf s lc.val).shadows = []) (hdrain : (coreOf s lc.val).drainReq = false) (hhalt : (coreOf s lc.val).haltReq = false) :
    interruptEntry lc s = if takesIntr s lc.val then
      stepEnds lc.val (pmEvents1 lc.val [plainEvent (coreOf s lc.val) 0x71]
        (updCore lc.val (enterCore { cause := 0 } true (coreOf s lc.val).pc 0 0) s)) else s := by
  simp only [coreRuns, Bool.and_eq_true, Bool.not_eq_true', Option.isNone_iff_eq_none, beq_iff_eq] at hruns
  obtain ⟨⟨⟨⟨⟨hbound, hissuing⟩, hpaused⟩, hwait⟩, hmmio⟩, hsoft⟩ := hruns
  cases htakes : takesIntr s lc.val <;>
    simp [interruptEntry, atBoundary, hbound, hissuing, hpaused, hwait, hmmio, hsoft, hgroup, hshadows, hdrain, hhalt, htakes]

/-- What a roll back leaves of a core with an open group: the registers and the PC of the group's first load (20 R479). -/
theorem readG_undoCsrs (snap now : Regs) (i : GReg) : readG (undoCsrs snap now) i = readG snap i := by simp [undoCsrs, readG]
theorem undoCsrs_kept (snap now : Regs) :
    (undoCsrs snap now).flags = snap.flags ∧ (undoCsrs snap now).v = snap.v ∧ (undoCsrs snap now).k = snap.k := ⟨rfl, rfl, rfl⟩

theorem rollbackCore_group {c : Core} {g : Group} (hg : c.group = some g) :
    (rollbackCore c).regs = undoCsrs g.snap c.regs ∧ (rollbackCore c).pc = g.firstPc ∧ (rollbackCore c).group = none ∧
      (rollbackCore c).shadows = [] := by
  rw [rollbackCore, hg]
  exact ⟨rfl, rfl, rfl, rfl⟩

/-- The first retry of a group does not relocate the core: its group is rolled back, the retry logged and counted. -/
theorem retryGroup_first {row : Nat} {g : Group} (hb : bound s lc.val = true) (hp : (coreOf s lc.val).paused = false)
    (hm : (coreOf s lc.val).mmioWait = false) (hg : (coreOf s lc.val).group = some g) (hrun : (coreOf s lc.val).retryRun = 0)
    (hretries : (coreOf s lc.val).retries = []) :
    (coreOf (retryGroup lc.val row s) lc.val =
      { rollbackCore (coreOf s lc.val) with retries := [nowNs s], retryRun := 1 }) ∧ (retryGroup lc.val row s).mem = s.mem := by
  have hback : coreOf (rollback lc.val s) lc.val = rollbackCore (coreOf s lc.val) := by
    rw [← coreOf_updCore_same s lc.val rollbackCore]
    rfl
  have hmem : (rollback lc.val s).mem = s.mem := rfl
  generalize hs1 : (if row = 3 then microError (pcOf s lc.val) (rollback lc.val s) else rollback lc.val s) = s1
  have hkept : s1.cores = (rollback lc.val s).cores ∧ s1.mem = s.mem := by
    rw [← hs1]
    split
    · exact microError_keeps _
    · exact ⟨rfl, rfl⟩
  have hfew : ¬(3 ≤ 0 + 1 ∨ 16 ≤ [nowNs s].length) := by simp
  simp only [retryGroup, hb, hp, hm, hg, hrun, hretries, hs1, Bool.not_true, Bool.false_eq_true, or_self, if_false, Option.isSome_some, if_true,
    List.filter_nil, if_neg hfew, coreOf_updCore_same, updCore_mem, bump, bumpBy_mem, mem_logFault, hkept.2, and_true]
  rw [← hback, coreOf, coreOf, bumpBy_cores, cores_logFault, hkept.1]

/-- Settles O14: at a boundary where nothing is due, `interruptEntry` enters or does nothing; a first retry is a roll back. -/
theorem interruptsAndRetriesActAtGroupEdges : Obligations.InterruptsAndRetriesActAtGroupEdges := by
  refine ⟨fun lc s hruns hgroup hshadows hdrain hhalt => ⟨fun htakes hskip hreq hfrozen => ⟨_, rfl, ?_⟩, fun htakes => ?_, fun hlevel => ?_,
    fun hlevel hie => ?_⟩, fun lc row s g hb hp hm hg hrun hretries => ⟨_, rfl, ?_⟩⟩
  · rw [interruptEntry_atBoundary hruns hgroup hshadows hdrain hhalt, if_pos htakes]
    exact entered_interrupt hskip hreq hfrozen { cause := 0 } (coreOf s lc.val).pc 0 0 0x71
  · show Host.Outcome.next (interruptEntry lc s) = .next s
    rw [interruptEntry_atBoundary hruns hgroup hshadows hdrain hhalt, htakes]
    rfl
  · simp [takesIntr, hlevel]
  · simp only [takesIntr, hlevel, hie, Bool.and_false, Bool.or_false, Bool.false_and, show ¬(1 : Nat) = 0 by decide, decide_false]
  · obtain ⟨hcore, hmem⟩ := retryGroup_first (row := row.val) hb hp hm hg hrun hretries
    obtain ⟨hregs, hpc, hgroup, hshadows⟩ := rollbackCore_group hg
    obtain ⟨hflags, hv, hk⟩ := undoCsrs_kept g.snap (coreOf s lc.val).regs
    rw [hcore]
    refine ⟨hpc, hgroup, hshadows, rfl, fun i => ?_, hregs ▸ hflags, hregs ▸ hv, hregs ▸ hk, fun a => ?_⟩
    · rw [← readG_undoCsrs g.snap (coreOf s lc.val).regs i, ← hregs]
    · rw [readByte, hmem]
      rfl

end Sys2Proof.Machine
end

section
/-! The elements of a vector access (05 R141 to R146): their checks in order, and the lanes that what they bring fills. -/

namespace Sys2Proof.Machine

/-! ### The checks -/

/-- An element that passed its checks, `g` giving how each is accessed. -/
def passedElem (g : List Nat × Word64 → Xlat) (e : List Nat × Word64) : Elem := { lanes := e.1, va := e.2, acc := (g e).acc }

section
variable {lc : LC} {w : Want} {numbered : Bool} {n : Nat} {ld st : Bool} {u : State} {g : List Nat × Word64 → Xlat} {es rest : List (List Nat × Word64)}

/-- Elements that pass are added to those checked, and the checks of the rest follow. -/
theorem checkElems_append (k : Checked)
    (h : ∀ e ∈ es, Passes lc { w with elem := if numbered then some (e.1.headD 0) else none } e.2 n ld st u (g e)) :
    ∃ pages, checkElems lc w numbered n ld st (es ++ rest) k u =
      checkElems lc w numbered n ld st rest { k with elems := k.elems ++ es.map (passedElem g), pages := pages } u := by
  induction es generalizing k with
  | nil => exact ⟨k.pages, by simp⟩
  | cons e es ih =>
    obtain ⟨hal, hacc, hads⟩ := h e (List.mem_cons_self ..)
    obtain ⟨pages, hp⟩ := ih { k with elems := k.elems ++ [passedElem g e], pages := (g e).page :: k.pages }
      fun e' he' => h e' (List.mem_cons_of_mem _ he')
    refine ⟨pages, ?_⟩
    rw [List.cons_append, checkElems]
    simp only [aligned, hal, beq_self_eq_true, Bool.not_true, Bool.false_eq_true, if_false, hacc, hads, List.append_nil]
    rw [show k.elems ++ [({ lanes := e.1, va := e.2, acc := (g e).acc } : Elem)] = k.elems ++ [passedElem g e] from rfl, hp, List.map_cons,
      List.append_assoc, List.singleton_append]
theorem checkElems_pass (h : ∀ e ∈ es, Passes lc { w with elem := if numbered then some (e.1.headD 0) else none } e.2 n ld st u (g e)) :
    ∃ pages, checkElems lc w numbered n ld st es {} u = ({ elems := es.map (passedElem g), pages := pages }, u) := by
  obtain ⟨pages, hp⟩ := checkElems_append (rest := []) {} h
  rw [List.append_nil] at hp
  exact ⟨pages, hp⟩
theorem checkElems_misses {e : List Nat × Word64} (hal : e.2.toNat % n ≠ 0) (k : Checked) :
    checkElems lc w numbered n ld st (e :: rest) k u = ({ k with bad := some (e.1.headD 0,
      { cause := excAlign, addr := e.2, acc := w.acc, elem := if numbered then some (e.1.headD 0) else none }) }, u) := by
  simp [checkElems, aligned, hal]
theorem checkElems_fails {e : List Nat × Word64} {ex : Exc} (hal : e.2.toNat % n = 0)
    (hacc : access lc.val { w with elem := if numbered then some (e.1.headD 0) else none } e.2 n ld st u = (.error ex, u)) (k : Checked) :
    checkElems lc w numbered n ld st (e :: rest) k u = ({ k with bad := some (e.1.headD 0, ex) }, u) := by
  rw [checkElems]
  simp only [aligned, hal, beq_self_eq_true, Bool.not_true, Bool.false_eq_true, if_false, hacc]
end

/-! ### Active lanes -/

theorem mem_laneAddrs {mask : Word64} {w : Nat} {f : Nat → Word64} {e : List Nat × Word64} :
    e ∈ laneAddrs mask w f ↔ ∃ i, (i < 512 / w ∧ mask.getLsbD i = true) ∧ ([i], f i) = e := by
  simp only [laneAddrs, laneCount, active, List.mem_map, List.mem_filter, List.mem_range]
/-- The lanes below an active lane come before it. -/
theorem laneAddrs_split {mask : Word64} {w m : Nat} (f : Nat → Word64) (hm : m < 512 / w) (hon : mask.getLsbD m = true) :
    ∃ rest, laneAddrs mask w f = ((List.range m).filter (active mask)).map (fun i => ([i], f i)) ++ ([m], f m) :: rest := by
  obtain ⟨d, hd⟩ := Nat.exists_eq_add_of_lt hm
  have hrange : List.range (512 / w) = List.range m ++ m :: List.range' (m + 1) d := by
    rw [hd, List.range_eq_range', List.range_eq_range', ← List.range'_succ, Nat.add_assoc, ← List.range'_append_1, Nat.zero_add]
  refine ⟨((List.range' (m + 1) d).filter (active mask)).map fun i => ([i], f i), ?_⟩
  rw [laneAddrs, laneCount, hrange, List.filter_append, List.map_append, List.filter_cons_of_pos (by exact hon)]
  rfl
theorem laneAddrs_head {mask : Word64} {w i : Nat} (f : Nat → Word64) (hi : i < 512 / w) (hon : mask.getLsbD i = true)
    (hfirst : ∀ j, j < i → mask.getLsbD j = false) : ∃ rest, laneAddrs mask w f = ([i], f i) :: rest := by
  obtain ⟨rest, hr⟩ := laneAddrs_split f hi hon
  have hnone : (List.range i).filter (active mask) = [] :=
    List.filter_eq_nil_iff.2 fun j hj => by simp [active, hfirst j (List.mem_range.1 hj)]
  exact ⟨rest, by rw [hr, hnone]; rfl⟩

/-- The elements of the lanes `is`, each from its own address. -/
def laneElems (is : List Nat) (f : Nat → Word64) (x : Nat → Xlat) : List Elem := is.map fun i => { lanes := [i], va := f i, acc := (x i).acc }

theorem map_passedElem (is : List Nat) (f : Nat → Word64) (x : Nat → Xlat) :
    (is.map fun i => ([i], f i)).map (passedElem fun e => x (e.1.headD 0)) = laneElems is f x := by
  rw [List.map_map]
  rfl
theorem mem_activeLanes {w : Nat} {mask : Word64} {j : Nat} : j ∈ activeLanes w mask ↔ j < 512 / w ∧ mask.getLsbD j = true := by
  simp [activeLanes]
theorem checkElems_lanes {lc : LC} {w : Want} {numbered : Bool} {n b : Nat} {ld st : Bool} {u : State} {mask : Word64} {f : Nat → Word64}
    {x : Nat → Xlat} (h : ∀ j, j < 512 / b ∧ mask.getLsbD j = true →
      Passes lc { w with elem := if numbered then some j else none } (f j) n ld st u (x j)) :
    ∃ pages, checkElems lc w numbered n ld st (laneAddrs mask b f) {} u = ({ elems := laneElems (activeLanes b mask) f x, pages := pages }, u) := by
  rw [← map_passedElem]
  refine checkElems_pass fun e he => ?_
  obtain ⟨j, hj, rfl⟩ := mem_laneAddrs.1 he
  exact h j hj

/-- The checks of the lanes where all below `m` pass, and `m` is the number of lanes or fails. -/
theorem checkElems_trimmed {lc : LC} {w : Want} {n b m : Nat} {ld st : Bool} {u : State} {mask : Word64} {f : Nat → Word64} {x : Nat → Xlat}
    (hm : m ≤ 512 / b) (h : ∀ j, j < m → mask.getLsbD j = true → Passes lc { w with elem := none } (f j) n ld st u (x j))
    (hfails : m < 512 / b → mask.getLsbD m = true ∧ (∃ j, j < m ∧ mask.getLsbD j = true) ∧ ∃ e : Exc, e.cause ≠ 15 ∧ (f m).toNat % n = 0 ∧
      access lc.val { w with elem := none } (f m) n ld st u = (.error e, u)) :
    ∃ ex pages, checkElems lc w false n ld st (laneAddrs mask b f) {} u =
        ({ elems := laneElems ((List.range m).filter (active mask)) f x, pages := pages, bad := ex }, u) ∧
      (ex = none ∧ m = 512 / b ∨ ∃ e, ex = some (m, e) ∧ (List.range m).filter (active mask) ≠ [] ∧ e.cause ≠ 15) := by
  have hpass : ∀ e ∈ ((List.range m).filter (active mask)).map (fun j => ([j], f j)),
      Passes lc { w with elem := if false then some (e.1.headD 0) else none } e.2 n ld st u (x (e.1.headD 0)) := by
    intro e he
    obtain ⟨j, hj, rfl⟩ := List.mem_map.1 he
    obtain ⟨hlt, hbit⟩ := List.mem_filter.1 hj
    exact h j (List.mem_range.1 hlt) hbit
  rcases Nat.lt_or_eq_of_le hm with hlt | rfl
  · obtain ⟨hbit, ⟨j, hjm, hj⟩, e, hcause, hal, hacc⟩ := hfails hlt
    obtain ⟨rest, hr⟩ := laneAddrs_split f hlt hbit
    obtain ⟨pages, hp⟩ := checkElems_append (rest := ([m], f m) :: rest) {} hpass
    rw [checkElems_fails (e := ([m], f m)) hal hacc, map_passedElem] at hp
    exact ⟨some (m, e), pages, hr ▸ hp, .inr ⟨e, rfl, List.ne_nil_of_mem (List.mem_filter.2 ⟨List.mem_range.2 hjm, hj⟩), hcause⟩⟩
  · obtain ⟨pages, hp⟩ := checkElems_pass hpass
    rw [map_passedElem] at hp
    exact ⟨none, pages, hp, .inl ⟨rfl, rfl⟩⟩
/-- The elements of a contiguous access are aligned with its base. -/
theorem aligned_elem (ew : BitVec 2) {va : Word64} (h : va.toNat % (ewBits ew / 8) = 0) (j : Nat) :
    (va + BitVec.ofNat 64 (j * (ewBits ew / 8))).toNat % (ewBits ew / 8) = 0 := by
  rw [BitVec.toNat_add, BitVec.toNat_ofNat]
  rcases ewBits_cases ew with he | he | he <;> rw [he] at h ⊢ <;> simp only [Nat.reduceDiv, Nat.reducePow] at h ⊢ <;> omega

/-! ### Gathered addresses -/

/-- The address that a gather or scatter gives lane `i` (05 R144). -/
def gatherAddr (r : Regs) (rb : GReg) (vi : VReg) (w scale i : Nat) : Word64 := readG r rb + BitVec.ofInt 64 ((lane w (readV r vi) i).toInt * scale)
theorem gatherAddrs_eq {w : Nat} (hw : w * (512 / w) = 512) (r : Regs) (rb : GReg) (vi : VReg) (k : KReg) (scale : Nat) :
    gatherAddrs r rb vi k w scale = laneAddrs (readK r k) w (gatherAddr r rb vi w scale) := by
  simp only [gatherAddrs, laneAt_lanesOf hw, signedLane_toNat]
  rfl
/-- The lanes of a gather have numbers of five bits. -/
theorem laneCount_le_of_fpEw {ew : BitVec 2} (h : fpEw ew = true) : 512 / ewBits ew ≤ 32 := by
  rw [ewBits_eq]
  rcases (Bool.or_eq_true _ _).mp h with h | h <;> rw [beq_iff_eq.1 h] <;> decide

/-! ### Lanes filled -/

section
variable {w : Nat}

/-- A vector is its lanes. -/
theorem lane_ext (hw : w * (512 / w) = 512) {a b : Vec} (h : ∀ i, i < 512 / w → lane w a i = lane w b i) : a = b := by
  apply BitVec.eq_of_getLsbD_eq
  intro j hj
  have hpos : 0 < w := Nat.pos_of_ne_zero fun h0 => by simp [h0] at hw
  have hlane (v : Vec) : (lane w v (j / w)).getLsbD (j % w) = v.getLsbD j := by
    simp only [lane, BitVec.getLsbD_extractLsb', Nat.mod_lt j hpos, decide_true, Bool.true_and, Nat.div_add_mod]
  rw [← hlane a, ← hlane b, h _ (Nat.div_lt_of_lt_mul (by rw [hw]; exact hj))]
theorem getD_lanesOf (v : Vec) {i : Nat} (hi : i < 512 / w) : BitVec.ofNat w ((lanesOf w v).getD i 0) = lane w v i := by
  rw [lanesOf_eq_map, List.getD_eq_getElem _ _ (by simpa using hi), List.getElem_map, List.getElem_range, BitVec.ofNat_toNat, BitVec.setWidth_eq]
theorem length_foldl_set (lanes : List Nat) (x : Nat) (l : List Nat) : (lanes.foldl (fun l i => l.set i x) l).length = l.length := by
  induction lanes generalizing l with
  | nil => rfl
  | cons i lanes ih => rw [List.foldl_cons, ih, List.length_set]
theorem getD_foldl_set (lanes : List Nat) (x : Nat) (l : List Nat) {j : Nat} (hj : j < l.length) :
    (lanes.foldl (fun l i => l.set i x) l).getD j 0 = if j ∈ lanes then x else l.getD j 0 := by
  induction lanes generalizing l with
  | nil => simp
  | cons i lanes ih =>
    rw [List.foldl_cons, ih _ (by rwa [List.length_set])]
    by_cases hm : j ∈ lanes
    · simp [hm]
    · by_cases hi : j = i
      · subst hi
        rw [if_neg hm, if_pos (List.mem_cons_self ..), List.getD_eq_getElem _ _ (by rwa [List.length_set]), List.getElem_set_self]
      · simp [hm, hi, List.getElem?_set_ne (Ne.symm hi)]
theorem lane_fillLanes (lanes : List Nat) (x : Nat) (v : Vec) {j : Nat} (hj : j < 512 / w) :
    lane w (fillLanes w lanes x v) j = if j ∈ lanes then BitVec.ofNat w x else lane w v j := by
  rw [fillLanes, lane_vecOf _ hj, getD_foldl_set _ _ _ (by rwa [length_lanesOf])]
  split
  · rfl
  · exact getD_lanesOf v hj
end

end Sys2Proof.Machine
end

section
/-! The vector loads (05 R141 to R146): the elements read, a line at a time or one by one, and the shadow that holds them. -/

namespace Sys2Proof.Machine

/-! ### What the reads bring -/

theorem readNat_add (s : State) (pa a b : Nat) : readNat s pa (a + b) = readNat s pa a + 256 ^ a * readNat s (pa + a) b := by
  induction a generalizing pa with
  | zero => simp [readNat, readBytes, natOfBytes]
  | succ a ih =>
    have hcons (n : Nat) : readNat s pa (n + 1) = (readByte s pa).toNat + 256 * readNat s (pa + 1) n := rfl
    rw [show a + 1 + b = (a + b) + 1 by omega, hcons, ih, hcons, Nat.pow_succ, show pa + 1 + a = pa + (a + 1) by omega]
    ring
theorem readNat_mod (s : State) (pa : Nat) {n m : Nat} (h : n ≤ m) : readNat s pa m % 256 ^ n = readNat s pa n := by
  obtain ⟨d, rfl⟩ := Nat.exists_eq_add_of_le h
  rw [readNat_add, Nat.add_mul_mod_self_left, Nat.mod_eq_of_lt (readNat_lt s pa n)]
theorem readNat_div (s : State) (pa d m : Nat) : readNat s pa (d + m) / 256 ^ d = readNat s (pa + d) m := by
  rw [readNat_add, Nat.add_mul_div_left _ _ (Nat.pos_of_ne_zero (by simp)), Nat.div_eq_of_lt (readNat_lt s pa d), Nat.zero_add]

/-- The vector once each element has filled its lanes. -/
def fillElems (w : Nat) (u : State) (es : List Elem) (v : Vec) : Vec :=
  es.foldl (fun v e => fillLanes w e.lanes (readNat u e.acc.pa (w / 8)) v) v
/-- A read of at least an element, from an address that one of the elements has. -/
def ReadsOf (n : Nat) (es : List Elem) (l : LineRead) : Prop := n ≤ l.n ∧ ∃ e ∈ es, l.acc = e.acc

theorem readsOf_singleReads {n : Nat} {es : List Elem} {l : LineRead} (h : l ∈ singleReads n es) : ReadsOf n es l := by
  obtain ⟨e, he, rfl⟩ := List.mem_map.1 h
  exact ⟨le_rfl, e, he, rfl⟩

section
variable {lc : LC} {w : Nat} {u : State} {nt : Bool}

/-- A read that the core serves itself fills its lanes. -/
theorem readLanes_cons {l : LineRead} (ls : List LineRead) (v : Vec) (hg : (coreOf u lc.val).group = none) (ho : OwnLine lc l.acc u) :
    readLanes lc w nt (l :: ls) v u = readLanes lc w nt ls (fillParts w l (readNat u l.acc.pa l.n) v) u := by
  have hb : loadBytes lc.val l.acc l.n nt u = (readBytes u l.acc.pa l.n, u) := by
    simp only [loadBytes, ho.loadNow, heldOf_, hg, List.foldl_nil]
  rw [readLanes]
  simp only [hb]
  rfl
/-- An element read alone fills its lanes. -/
theorem fillParts_single (h8 : 8 * (w / 8) = w) (a : Access) (lanes : List Nat) (v : Vec) :
    fillParts w { acc := a, n := w / 8, parts := [(lanes, 0)] } (readNat u a.pa (w / 8)) v = fillLanes w lanes (readNat u a.pa (w / 8)) v := by
  have hlt : readNat u a.pa (w / 8) < 2 ^ w := by
    have h := readNat_lt u a.pa (w / 8)
    rwa [show 256 = 2 ^ 8 by rfl, ← Nat.pow_mul, h8] at h
  rw [fillParts, List.foldl_cons, List.foldl_nil, Nat.mul_zero, Nat.pow_zero, Nat.div_one, Nat.mod_eq_of_lt hlt]
/-- An element read together with those after it in its line. -/
theorem fillParts_joined (h8 : 8 * (w / 8) = w) (a : Access) (lanes : List Nat) (l : LineRead) (v : Vec) {d : Nat} (hd : l.acc.pa = a.pa + d)
    (hn : w / 8 ≤ l.n) :
    fillParts w { acc := a, n := d + l.n, parts := (lanes, 0) :: l.parts.map fun p => (p.1, p.2 + d) } (readNat u a.pa (d + l.n)) v =
      fillParts w l (readNat u l.acc.pa l.n) (fillLanes w lanes (readNat u a.pa (w / 8)) v) := by
  have hfirst : readNat u a.pa (d + l.n) / 2 ^ (8 * 0) % 2 ^ w = readNat u a.pa (w / 8) := by
    rw [Nat.mul_zero, Nat.pow_zero, Nat.div_one]
    conv_lhs => rw [← h8, Nat.pow_mul]
    exact readNat_mod u a.pa (by omega)
  have hrest (off : Nat) : readNat u a.pa (d + l.n) / 2 ^ (8 * (off + d)) = readNat u l.acc.pa l.n / 2 ^ (8 * off) := by
    rw [hd, ← readNat_div, Nat.div_div_eq_div_mul, show 256 = 2 ^ 8 by rfl, ← Nat.pow_mul, ← Nat.pow_add, ← Nat.mul_add, Nat.add_comm d off]
  rw [fillParts, fillParts, List.foldl_cons, hfirst, List.foldl_map]
  simp only [hrest]

theorem lineReads_cons (n : Nat) (e : Elem) (es : List Elem) :
    (lineReads n (e :: es) = { acc := e.acc, n := n, parts := [(e.lanes, 0)] } :: lineReads n es) ∨
      ∃ l ls d, lineReads n es = l :: ls ∧ l.acc.pa = e.acc.pa + d ∧
        lineReads n (e :: es) = { acc := e.acc, n := d + l.n, parts := (e.lanes, 0) :: l.parts.map fun p => (p.1, p.2 + d) } :: ls := by
  rw [lineReads]
  cases hl : lineReads n es with
  | nil => exact .inl rfl
  | cons l ls =>
    by_cases hc : lineOf l.acc.pa = lineOf e.acc.pa ∧ e.acc.pa < l.acc.pa
    · exact .inr ⟨l, ls, l.acc.pa - e.acc.pa, rfl, by omega, by simp only [hc, and_self, if_true]⟩
    · exact .inl (by simp only [hc, if_false])
theorem readsOf_lineReads {n : Nat} {es : List Elem} : ∀ l ∈ lineReads n es, ReadsOf n es l := by
  induction es with
  | nil => exact fun l hl => by cases hl
  | cons e es ih =>
    have hmono (l : LineRead) (hl : l ∈ lineReads n es) : ReadsOf n (e :: es) l := by
      obtain ⟨hn, e', he', hacc⟩ := ih l hl
      exact ⟨hn, e', List.mem_cons_of_mem _ he', hacc⟩
    intro x hx
    rcases lineReads_cons n e es with heq | ⟨l, ls, d, hes, -, heq⟩
    · rw [heq] at hx
      rcases List.mem_cons.1 hx with rfl | hx
      · exact ⟨le_rfl, e, List.mem_cons_self .., rfl⟩
      · exact hmono x hx
    · rw [heq] at hx
      rcases List.mem_cons.1 hx with rfl | hx
      · have hn := (ih l (hes ▸ List.mem_cons_self ..)).1
        exact ⟨by show n ≤ d + l.n; omega, e, List.mem_cons_self .., rfl⟩
      · exact hmono x (hes ▸ List.mem_cons_of_mem _ hx)

section
variable (h8 : 8 * (w / 8) = w) (hg : (coreOf u lc.val).group = none)
include h8 hg

theorem readLanes_singleReads {es : List Elem} (ho : ∀ e ∈ es, OwnLine lc e.acc u) (v : Vec) :
    readLanes lc w nt (singleReads (w / 8) es) v u = (fillElems w u es v, u) := by
  induction es generalizing v with
  | nil => rfl
  | cons e es ih =>
    have hcons : singleReads (w / 8) (e :: es) = { acc := e.acc, n := w / 8, parts := [(e.lanes, 0)] } :: singleReads (w / 8) es := rfl
    rw [hcons, readLanes_cons _ _ hg (ho e (List.mem_cons_self ..)), fillParts_single h8, ih fun e' he' => ho e' (List.mem_cons_of_mem _ he')]
    rfl
theorem readLanes_lineReads {es : List Elem} (ho : ∀ e ∈ es, OwnLine lc e.acc u) (v : Vec) :
    readLanes lc w nt (lineReads (w / 8) es) v u = (fillElems w u es v, u) := by
  induction es generalizing v with
  | nil => rfl
  | cons e es ih =>
    have hoe := ho e (List.mem_cons_self ..)
    have ih' := ih (fun e' he' => ho e' (List.mem_cons_of_mem _ he')) (fillLanes w e.lanes (readNat u e.acc.pa (w / 8)) v)
    have hfill : fillElems w u (e :: es) v = fillElems w u es (fillLanes w e.lanes (readNat u e.acc.pa (w / 8)) v) := rfl
    rcases lineReads_cons (w / 8) e es with heq | ⟨l, ls, d, hes, hd, heq⟩
    · rw [heq, readLanes_cons _ _ hg hoe, fillParts_single h8, ih', hfill]
    · obtain ⟨hn, e', he', hacc⟩ := readsOf_lineReads (es := es) l (hes ▸ List.mem_cons_self ..)
      rw [hes, readLanes_cons _ _ hg (hacc ▸ ho e' (List.mem_cons_of_mem _ he'))] at ih'
      rw [heq, readLanes_cons _ _ hg hoe, fillParts_joined h8 e.acc e.lanes l v hd hn, ih', hfill]
end

/-- Each lane that an element fills holds what lies at the element's address, every other lane what it held. -/
theorem lane_fillElems {p : Nat → Nat} {es : List Elem} (v : Vec) {j : Nat} (hj : j < 512 / w) (hp : ∀ e ∈ es, j ∈ e.lanes → e.acc.pa = p j) :
    lane w (fillElems w u es v) j = if (∃ e ∈ es, j ∈ e.lanes) then BitVec.ofNat w (readNat u (p j) (w / 8)) else lane w v j := by
  induction es generalizing v with
  | nil => simp [fillElems]
  | cons e es ih =>
    have hfill : fillElems w u (e :: es) v = fillElems w u es (fillLanes w e.lanes (readNat u e.acc.pa (w / 8)) v) := rfl
    rw [hfill, ih _ fun e' he' => hp e' (List.mem_cons_of_mem _ he'), lane_fillLanes _ _ _ hj]
    simp only [List.exists_mem_cons_iff]
    by_cases h1 : ∃ x ∈ es, j ∈ x.lanes
    · simp [h1]
    · by_cases h2 : j ∈ e.lanes
      · simp [h2, hp e (List.mem_cons_self ..) h2]
      · simp [h1, h2]
theorem maskedLanes_loadBase (mask : Word64) (z : Bool) (old : Vec) : MaskedLanes w mask z (fun _ => 0) old (loadBase mask z w old) := by
  rw [loadBase, laneCount, show List.replicate (512 / w) 0 = (List.range (512 / w)).map fun _ => 0 by simp [List.map_const']]
  exact maskedLanes_vecOf_maskLanes mask z old fun j => rfl
/-- The elements of the active lanes fill the destination as a masked load does. -/
theorem fillElems_eq (hw : w * (512 / w) = 512) {mask : Word64} {z : Bool} {old y : Vec} {p : Nat → Nat} {es : List Elem}
    (hy : MaskedLanes w mask z (fun i => BitVec.ofNat w (readNat u (p i) (w / 8))) old y)
    (hp : ∀ e ∈ es, ∀ j ∈ e.lanes, e.acc.pa = p j) (hes : ∀ j, j < 512 / w → ((∃ e ∈ es, j ∈ e.lanes) ↔ mask.getLsbD j = true)) :
    fillElems w u es (loadBase mask z w old) = y := by
  refine lane_ext hw fun j hj => ?_
  rw [lane_fillElems _ hj fun e he => hp e he j, hy j hj, maskedLanes_loadBase mask z old j hj]
  simp only [hes j hj]
  split <;> rfl
end

/-! ### The instructions -/

/-- What a vector load pushes: its destination and, where the load writes it, its mask. -/
def loadedDests (vt : VReg) (y : Vec) (mk : Option (KReg × Word64)) : List (LoadDest × LoadValue) :=
  (.vec vt, .vector y) :: mk.toList.map fun m => (.mask m.1, .word m.2)
/-- A core that has opened a group for a vector load and pushed its shadows. -/
def loadedCore (vt : VReg) (y : Vec) (mk : Option (KReg × Word64)) (pages : List Nat) (c : Core) : Core :=
  (loadedDests vt y mk).foldl (fun c d => pushShadow d.1 d.2 c) (holdAll [] pages (openGroup c))

section
variable (vt : VReg) (y : Vec) (mk : Option (KReg × Word64)) (pages : List Nat) {c : Core} (hg : c.group = none)
include hg
theorem loadedCore_group : (loadedCore vt y mk pages c).group =
    some { firstPc := c.pc, members := 0, closed := false, sinceDeferred := none, nextId := 0, held := [], usedPages := pages ++ [], snap := c.regs } := by
  cases mk <;> simp only [loadedCore, loadedDests, Option.toList, List.map, List.foldl, pushShadow, holdAll, updGroup, openGroup, hg, Option.map_some] <;> rfl
theorem loadedCore_shadows (hs : c.shadows = []) :
    (loadedCore vt y mk pages c).shadows = (loadedDests vt y mk).map fun x => { left := 4, dest := x.1, value := x.2 } := by
  cases mk <;> simp only [loadedCore, loadedDests, Option.toList, List.map, List.foldl, pushShadow, holdAll, updGroup, openGroup, hg, hs] <;> rfl
theorem loadedCore_eq :
    loadedCore vt y mk pages c = { c with group := (loadedCore vt y mk pages c).group, shadows := (loadedCore vt y mk pages c).shadows } := by
  cases mk <;> simp only [loadedCore, loadedDests, Option.toList, List.map, List.foldl, pushShadow, holdAll, updGroup, openGroup, hg]
end

section
variable {lc : LC} {s u : State} (h : Issues lc s u) {i : Instr} {vt : VReg}
include h

/-- A vector load whose elements have passed and that the core serves itself opens a shadow of what the elements give, and one of the mask where the
load writes it. -/
theorem Issues.opens_vecLoad {insn : Word32} {body : State → Eff} {w : Nat} {nt gather : Bool} {base y : Vec} {mk : Option (KReg × Word64)}
    {es : List Elem} {pages : List Nat} {ex : Option (Nat × Exc)} (hx : exec i s = .next (runInsn lc false insn body s))
    (hb : body u = vecLoad lc vt w nt gather base mk { elems := es, pages := pages, bad := ex } u) (h8 : 8 * (w / 8) = w)
    (hmt : ∀ e ∈ es, e.acc.mt ≠ 2) (ho : ∀ e ∈ es, OwnLine lc e.acc u) (hy : fillElems w u es base = y) :
    Completes i s fun t => OpensShadow lc u t ((loadedDests vt y mk).map fun x => { left := 3, dest := x.1, value := x.2 }) := by
  have hheld : heldOf_ (openGroup (coreOf u lc.val)) = [] := by simp only [openGroup, h.core_group, heldOf_]
  have hpc : (openGroup (coreOf u lc.val)).pc = (coreOf u lc.val).pc := by simp only [openGroup, h.core_group]
  have hmt2 : (es.any fun e => e.acc.mt == 2) = false := by simpa using hmt
  have hreads (r : List LineRead) : (r.any fun e => mustWait (openGroup (coreOf u lc.val)) e.acc e.n false) = false := by
    simp [mustWait, hheld]
  have hlanes : readLanes lc w nt (if gather then singleReads (w / 8) es else lineReads (w / 8) es) base u = (y, u) := by
    rw [← hy]
    split
    · exact readLanes_singleReads h8 h.core_group ho base
    · exact readLanes_lineReads h8 h.core_group ho base
  have hload : vecLoad lc vt w nt gather base mk { elems := es, pages := pages, bad := ex } u =
      .ok (setCore u lc.val (loadedCore vt y mk pages (coreOf u lc.val))) ((coreOf u lc.val).pc + 4)
        (vecEv u lc :: elemEvents lc true { elems := es, pages := pages, bad := ex } u) := by
    simp only [vecLoad, hmt2, hreads, hlanes, hpc, Bool.or_self, Bool.false_eq_true, if_false, List.map_nil]
    cases mk <;> rfl
  obtain ⟨t, ht, g, hnow, hfirst, hsnap, hmembers, hclosed, -⟩ := h.next_opensGroup (l := loadedDests vt y mk) hx (hb.trans hload)
    (loadedCore_group vt y mk pages h.core_group) rfl (.inl rfl) (loadedCore_shadows vt y mk pages h.core_group h.core_shadows) (by simp [loadedDests])
  refine ⟨t, ht, g, ?_, hfirst, hsnap, hmembers, hclosed⟩
  rw [loadedCore_eq vt y mk pages h.core_group] at hnow
  exact hnow

end

/-! ### Lanes with an element of their own -/

theorem fillElems_laneElems {w : Nat} (hw : w * (512 / w) = 512) {u : State} {mask : Word64} {z : Bool} {old y : Vec} {is : List Nat}
    {f : Nat → Word64} {x : Nat → Xlat} (hy : MaskedLanes w mask z (fun i => BitVec.ofNat w (readNat u (x i).acc.pa (w / 8))) old y)
    (his : ∀ j, j < 512 / w → (j ∈ is ↔ mask.getLsbD j = true)) : fillElems w u (laneElems is f x) (loadBase mask z w old) = y := by
  refine fillElems_eq hw (p := fun i => (x i).acc.pa) hy ?_ fun j hj => ?_
  · intro e he j hj
    obtain ⟨i, -, rfl⟩ := List.mem_map.1 he
    rw [List.mem_singleton.1 hj]
  · simp [laneElems, his j hj]
theorem getLsbD_lowBits (x : Word64) (n i : Nat) : (lowBits x n).getLsbD i = (decide (i < n) && x.getLsbD i) := by
  rw [lowBits, BitVec.getLsbD_ofNat, Nat.testBit_mod_two_pow, BitVec.testBit_toNat]
  by_cases hi : i < 64
  · simp only [hi, decide_true, Bool.true_and]
  · simp [hi, BitVec.getLsbD_of_ge x i (by omega)]
theorem ewBits_div (ew : BitVec 2) : 8 * (ewBits ew / 8) = ewBits ew := by rcases ewBits_cases ew with h | h | h <;> rw [h]

/-! ### The instructions -/

section
variable {lc : LC} {s u : State} (h : Issues lc s u) (hon : VectorOn (coreOf u lc.val).regs) {i : Instr} {op vfn : Nat} {vt vb : VReg} {rb : GReg}
  {k : KReg} {z : Bool} {ew : BitVec 2} {bad : Bool} {body : State → Eff} {x : Nat → Xlat} {y : Vec}
include h hon

/-- A vector access at a misaligned address, or refused otherwise. -/
theorem Issues.entered_vecInsn {e : Exc} (hbad : bad = false) (hx : exec i s = vecInsn op vfn lc vt rb vb k z ew bad body s)
    (hb : body u = .exc e u) (hw : e.noInsn = false) (hd : e.cause < 14) :
    Completes i s fun t => Entered lc u t e.cause (causeInfo e false) (coreOf u lc.val).pc e.addr (coreOf u lc.val).pc
      ((encV op vt rb vb k z ew vfn).setWidth 64) e.elanes := by
  have ht := runInsn_raises h false (encV op vt rb vb k z ew vfn)
    (fun a => if vectorOff (regsOf a lc) then .exc { cause := excIllegal, reason := 1 } a else if bad then illegal a else body a) e
    (by simp only [regsOf, (vectorOn_iff _).1 hon, hbad, Bool.false_eq_true, if_false, hb]) hw (Nat.ne_of_lt (hd.trans (by decide)))
  rw [if_neg] at ht
  · exact ⟨_, hx, ht⟩
  · exact fun hc => absurd (hc ▸ hd) (by decide)
theorem Issues.misses_vecInsn {acc : Nat} {va : Word64} (hbad : bad = false) (hx : exec i s = vecInsn op vfn lc vt rb vb k z ew bad body s)
    (hacc : acc < 4) (hb : body u = .exc { cause := excAlign, addr := va, acc := acc } u) :
    Raises lc s u i (encV op vt rb vb k z ew vfn) 3 0 acc va (coreOf u lc.val).pc := by
  have ht := h.entered_vecInsn hon hbad hx hb rfl (by decide : excAlign < 14)
  rw [show causeInfo { cause := excAlign, addr := va, acc := acc } false = acc * 2 ^ 38 + 0 * 256 + 3 by
    simp only [causeInfo, Option.isSome_none, Option.getD_none, Bool.toNat_false, excAlign]
    omega] at ht
  exact ht
theorem Issues.missesElem_vecInsn {acc j : Nat} {va : Word64} (hbad : bad = false) (hx : exec i s = vecInsn op vfn lc vt rb vb k z ew bad body s)
    (hacc : acc < 4) (hj : j < 32) (hb : body u = .exc { cause := excAlign, addr := va, acc := acc, elem := some j } u) :
    Completes i s fun t => Entered lc u t 3 (acc * 2 ^ 38 + 2 ^ 37 + j * 2 ^ 32 + 3) (coreOf u lc.val).pc va (coreOf u lc.val).pc
      ((encV op vt rb vb k z ew vfn).setWidth 64) 0 := by
  have ht := h.entered_vecInsn hon hbad hx hb rfl (by decide : excAlign < 14)
  rw [show causeInfo { cause := excAlign, addr := va, acc := acc, elem := some j } false = acc * 2 ^ 38 + 2 ^ 37 + j * 2 ^ 32 + 3 by
    simp only [causeInfo, Option.isSome_some, Option.getD_some, Bool.toNat_false, Bool.toNat_true, excAlign]
    omega] at ht
  exact ht

/-- The elements of the active lanes, each served by the core itself. -/
theorem Issues.opens_lanes {nt gather : Bool} {mask : Word64} {is : List Nat} {f : Nat → Word64} {mk : Option (KReg × Word64)} {pages : List Nat}
    {ex : Option (Nat × Exc)} {old : Vec} (hbad : bad = false) (hx : exec i s = vecInsn op vfn lc vt rb vb k z ew bad body s)
    (hb : body u = vecLoad lc vt (ewBits ew) nt gather (loadBase mask z (ewBits ew) old) mk
      { elems := laneElems is f x, pages := pages, bad := ex } u)
    (hserved : ∀ j ∈ is, (x j).acc.mt ≠ 2 ∧ OwnLine lc (x j).acc u) (his : ∀ j, j < 512 / ewBits ew → (j ∈ is ↔ mask.getLsbD j = true))
    (hy : MaskedLanes (ewBits ew) mask z (fun j => BitVec.ofNat (ewBits ew) (readNat u (x j).acc.pa (ewBits ew / 8))) old y) :
    Completes i s fun t => OpensShadow lc u t ((loadedDests vt y mk).map fun x => { left := 3, dest := x.1, value := x.2 }) := by
  refine h.opens_vecLoad hx (nt := nt) (gather := gather) (es := laneElems is f x) (mk := mk) (pages := pages) (ex := ex) ?_ (ewBits_div ew) ?_ ?_
    (fillElems_laneElems (mul_laneCount (ewBits_cases ew)) hy his)
  · simp only [regsOf, (vectorOn_iff _).1 hon, hbad, Bool.false_eq_true, if_false]
    exact hb
  · intro e he
    obtain ⟨j, hj, rfl⟩ := List.mem_map.1 he
    exact (hserved j hj).1
  · intro e he
    obtain ⟨j, hj, rfl⟩ := List.mem_map.1 he
    exact (hserved j hj).2

/-- A contiguous load whose active elements pass. -/
theorem Issues.opens_vldRow {nt : Bool} {addr : Regs → Word64} {va : Word64} (hew : ew ≠ 3) (hx : exec i s = vldRow vfn nt addr lc vt rb vb k z ew s)
    (hva : addr (coreOf u lc.val).regs = va) (hal : va.toNat % (ewBits ew / 8) = 0)
    (hserved : ∀ j, j < 512 / ewBits ew ∧ (readK (coreOf u lc.val).regs k).getLsbD j = true →
      Passes lc vWantLoad (va + BitVec.ofNat 64 (j * (ewBits ew / 8))) (ewBits ew / 8) true false u (x j) ∧ (x j).acc.mt ≠ 2 ∧ OwnLine lc (x j).acc u)
    (hy : MaskedLanes (ewBits ew) (readK (coreOf u lc.val).regs k) z
      (fun j => BitVec.ofNat (ewBits ew) (readNat u (x j).acc.pa (ewBits ew / 8))) (readV (coreOf u lc.val).regs vt) y) :
    Completes i s fun t => OpensShadow lc u t [{ left := 3, dest := .vec vt, value := .vector y }] := by
  obtain ⟨pages, hp⟩ := checkElems_lanes (w := vWantLoad) (numbered := false) (f := fun j => va + BitVec.ofNat 64 (j * (ewBits ew / 8)))
    fun j hj => (hserved j hj).1
  refine h.opens_lanes hon (nt := nt) (gather := false) (mk := none) (pages := pages) (ex := none)
    (f := fun j => va + BitVec.ofNat 64 (j * (ewBits ew / 8))) (by simpa using hew) hx ?_ (fun j hj => (hserved j (mem_activeLanes.1 hj)).2)
    (fun j hj => by simp [mem_activeLanes, hj]) hy
  simp only [regsOf, hva, aligned, hal, beq_self_eq_true, Bool.not_true, Bool.false_eq_true, if_false, hp]
theorem Issues.misses_vldRow {nt : Bool} {addr : Regs → Word64} {va : Word64} (hew : ew ≠ 3) (hx : exec i s = vldRow vfn nt addr lc vt rb vb k z ew s)
    (hva : addr (coreOf u lc.val).regs = va) (hal : va.toNat % (ewBits ew / 8) ≠ 0) :
    Raises lc s u i (encV 0x2C vt rb vb k z ew vfn) 3 0 1 va (coreOf u lc.val).pc :=
  h.misses_vecInsn hon (by simpa using hew) hx (by decide) (by simp [regsOf, hva, aligned, hal])

section
variable {scaled : Bool} {ga : Nat → Word64} (hew : fpEw ew = true) (hx : exec i s = gatherRow vfn scaled lc vt rb vb k z ew s)
  (hga : gatherAddrs (coreOf u lc.val).regs rb vb k (ewBits ew) (if scaled then ewBits ew / 8 else 1) =
    laneAddrs (readK (coreOf u lc.val).regs k) (ewBits ew) ga)
include hew hx hga

/-- A gather whose active elements pass. -/
theorem Issues.opens_gatherRow (hserved : ∀ j, j < 512 / ewBits ew ∧ (readK (coreOf u lc.val).regs k).getLsbD j = true →
      Passes lc { vWantGather with elem := some j } (ga j) (ewBits ew / 8) true false u (x j) ∧ (x j).acc.mt ≠ 2 ∧ OwnLine lc (x j).acc u)
    (hy : MaskedLanes (ewBits ew) (readK (coreOf u lc.val).regs k) z
      (fun j => BitVec.ofNat (ewBits ew) (readNat u (x j).acc.pa (ewBits ew / 8))) (readV (coreOf u lc.val).regs vt) y) :
    Completes i s fun t => OpensShadow lc u t [{ left := 3, dest := .vec vt, value := .vector y }] := by
  obtain ⟨pages, hp⟩ := checkElems_lanes (w := vWantGather) (numbered := true) (f := ga) fun j hj => (hserved j hj).1
  refine h.opens_lanes hon (nt := false) (gather := true) (mk := none) (pages := pages) (ex := none) (f := ga) (by simpa using hew) hx ?_
    (fun j hj => (hserved j (mem_activeLanes.1 hj)).2) (fun j hj => by simp [mem_activeLanes, hj]) hy
  simp only [regsOf, hga, hp]
theorem Issues.misses_gatherRow {j : Nat} (hj : j < 512 / ewBits ew) (hk : (readK (coreOf u lc.val).regs k).getLsbD j = true)
    (hfirst : ∀ m, m < j → (readK (coreOf u lc.val).regs k).getLsbD m = false) (hal : (ga j).toNat % (ewBits ew / 8) ≠ 0) :
    Completes i s fun t => Entered lc u t 3 (1 * 2 ^ 38 + 2 ^ 37 + j * 2 ^ 32 + 3) (coreOf u lc.val).pc (ga j) (coreOf u lc.val).pc
      ((encV 0x2D vt rb vb k z ew vfn).setWidth 64) 0 := by
  obtain ⟨rest, hr⟩ := laneAddrs_head ga hj hk hfirst
  have hmiss := checkElems_misses (lc := lc) (w := vWantGather) (numbered := true) (ld := true) (st := false) (u := u) (rest := rest)
    (e := ([j], ga j)) hal {}
  refine h.missesElem_vecInsn hon (by simpa using hew) hx (by decide) (hj.trans_le (laneCount_le_of_fpEw hew)) ?_
  simp only [regsOf, hga, hr, hmiss]
  rfl
end

/-- One element into every active lane; nothing is accessed where no lane is active. -/
theorem Issues.opens_vldbcRow {addr : Regs → Word64} {va : Word64} (hew : ew ≠ 3) (hx : exec i s = vldbcRow vfn addr lc vt rb vb k z ew s)
    (hva : addr (coreOf u lc.val).regs = va) (hal : va.toNat % (ewBits ew / 8) = 0)
    (hserved : (∃ j, j < 512 / ewBits ew ∧ (readK (coreOf u lc.val).regs k).getLsbD j = true) →
      Passes lc vWantLoad va (ewBits ew / 8) true false u (x 0) ∧ (x 0).acc.mt ≠ 2 ∧ OwnLine lc (x 0).acc u)
    (hy : MaskedLanes (ewBits ew) (readK (coreOf u lc.val).regs k) z
      (fun _ => BitVec.ofNat (ewBits ew) (readNat u (x 0).acc.pa (ewBits ew / 8))) (readV (coreOf u lc.val).regs vt) y) :
    Completes i s fun t => OpensShadow lc u t [{ left := 3, dest := .vec vt, value := .vector y }] := by
  generalize hon' : activeLanes (ewBits ew) (readK (coreOf u lc.val).regs k) = on
  have hmem (j : Nat) : j ∈ on ↔ j < 512 / ewBits ew ∧ (readK (coreOf u lc.val).regs k).getLsbD j = true := by rw [← hon', mem_activeLanes]
  have hes : ∀ e ∈ (if on.isEmpty then [] else [(on, va)]), e = (on, va) ∧ ∃ j, j ∈ on := by
    intro e he
    split at he
    · cases he
    next hne =>
      obtain ⟨j, hj⟩ := List.exists_mem_of_ne_nil on (by simpa using hne)
      exact ⟨List.mem_singleton.1 he, j, hj⟩
  obtain ⟨pages, hp⟩ := checkElems_pass (lc := lc) (w := vWantLoad) (numbered := false) (n := ewBits ew / 8) (ld := true) (st := false) (u := u)
    (g := fun _ => x 0) (es := if on.isEmpty then [] else [(on, va)]) fun e he => by
      obtain ⟨rfl, j, hj⟩ := hes e he
      exact (hserved ⟨j, (hmem j).1 hj⟩).1
  have hserved' : ∀ e ∈ (if on.isEmpty then [] else [(on, va)]).map (passedElem fun _ => x 0),
      e.lanes = on ∧ e.acc = (x 0).acc ∧ (x 0).acc.mt ≠ 2 ∧ OwnLine lc (x 0).acc u := by
    intro e he
    obtain ⟨e', he', rfl⟩ := List.mem_map.1 he
    obtain ⟨rfl, j, hj⟩ := hes e' he'
    exact ⟨rfl, rfl, (hserved ⟨j, (hmem j).1 hj⟩).2⟩
  refine h.opens_vecLoad (mk := none) hx (nt := false) (gather := false) (ex := none) (pages := pages)
    (es := (if on.isEmpty then [] else [(on, va)]).map (passedElem fun _ => x 0))
    (base := loadBase (readK (coreOf u lc.val).regs k) z (ewBits ew) (readV (coreOf u lc.val).regs vt))
    ?_ (ewBits_div ew) (fun e he => ?_) (fun e he => ?_)
    (fillElems_eq (mul_laneCount (ewBits_cases ew)) (p := fun _ => (x 0).acc.pa) hy (fun e he j _ => ?_) fun j hj => ?_)
  · simp only [regsOf, (vectorOn_iff _).1 hon, beq_eq_false_iff_ne.2 hew, hva, aligned, hal, beq_self_eq_true, Bool.not_true, Bool.false_eq_true, if_false]
    rw [show (List.range (laneCount (ewBits ew))).filter (active (readK (coreOf u lc.val).regs k)) = on from hon', hp]
  · obtain ⟨-, hacc, hmt, -⟩ := hserved' e he
    rwa [hacc]
  · obtain ⟨-, hacc, -, ho⟩ := hserved' e he
    rwa [hacc]
  · rw [(hserved' e he).2.1]
  · constructor
    · rintro ⟨e, he, hj'⟩
      rw [(hserved' e he).1] at hj'
      exact ((hmem j).1 hj').2
    · intro hk
      have hjon := (hmem j).2 ⟨hj, hk⟩
      have hne : on.isEmpty = false := by simpa using List.ne_nil_of_mem hjon
      exact ⟨passedElem (fun _ => x 0) (on, va), by simp [hne], hjon⟩
theorem Issues.misses_vldbcRow {addr : Regs → Word64} {va : Word64} (hew : ew ≠ 3) (hx : exec i s = vldbcRow vfn addr lc vt rb vb k z ew s)
    (hva : addr (coreOf u lc.val).regs = va) (hal : va.toNat % (ewBits ew / 8) ≠ 0) :
    Raises lc s u i (encV 0x2C vt rb vb k z ew vfn) 3 0 1 va (coreOf u lc.val).pc :=
  h.misses_vecInsn hon (by simpa using hew) hx (by decide) (by simp [regsOf, hva, aligned, hal])

theorem Issues.misses_vldFf {va : Word64} (hew : ew ≠ 3) (hk : k ≠ 0) (hva : vecImm (coreOf u lc.val).regs rb vb 64 = va)
    (hal : va.toNat % (ewBits ew / 8) ≠ 0) :
    Raises lc s u (.vldFf lc vt rb vb k z ew) (encV 0x2C vt rb vb k z ew 2) 3 0 1 va (coreOf u lc.val).pc :=
  h.misses_vecInsn hon (by rw [beq_eq_false_iff_ne.2 hew, beq_eq_false_iff_ne.2 hk]; rfl) rfl (by decide) (by simp [regsOf, hva, aligned, hal])
/-- `VLD.FF` where the lowest element passes and either all do or the first that fails past it is element `m`. -/
theorem Issues.opens_vldFf {m : Nat} {mask va : Word64} (hew : ew ≠ 3) (hk : k ≠ 0) (hm : m ≤ 512 / ewBits ew)
    (hmask : ∀ j, mask.getLsbD j = (decide (j < m) && (readK (coreOf u lc.val).regs k).getLsbD j))
    (hva : vecImm (coreOf u lc.val).regs rb vb 64 = va) (hal : va.toNat % (ewBits ew / 8) = 0)
    (hserved : ∀ j, j < 512 / ewBits ew ∧ (readK (coreOf u lc.val).regs k).getLsbD j = true → j < m →
      Passes lc vWantLoad (va + BitVec.ofNat 64 (j * (ewBits ew / 8))) (ewBits ew / 8) true false u (x j) ∧ (x j).acc.mt ≠ 2 ∧ OwnLine lc (x j).acc u)
    (hfails : m < 512 / ewBits ew → (m < 512 / ewBits ew ∧ (readK (coreOf u lc.val).regs k).getLsbD m = true) ∧
      (∃ j, (j < 512 / ewBits ew ∧ (readK (coreOf u lc.val).regs k).getLsbD j = true) ∧ j < m) ∧ ∃ e : Exc, e.cause ≠ 15 ∧
        access lc.val vWantLoad (va + BitVec.ofNat 64 (m * (ewBits ew / 8))) (ewBits ew / 8) true false u = (.error e, u))
    (hy : MaskedLanes (ewBits ew) mask z (fun j => BitVec.ofNat (ewBits ew) (readNat u (x j).acc.pa (ewBits ew / 8))) (readV (coreOf u lc.val).regs vt) y) :
    Completes (.vldFf lc vt rb vb k z ew) s fun t =>
      OpensShadow lc u t [{ left := 3, dest := .vec vt, value := .vector y }, { left := 3, dest := .mask k, value := .word mask }] := by
  have htrim : lowBits (readK (coreOf u lc.val).regs k) m = mask :=
    BitVec.eq_of_getLsbD_eq fun j _ => by rw [getLsbD_lowBits, hmask]
  obtain ⟨ex, pages, hp, hex⟩ := checkElems_trimmed (lc := lc) (w := vWantLoad) (n := ewBits ew / 8) (ld := true) (st := false) (u := u) (x := x)
    (mask := readK (coreOf u lc.val).regs k) (f := fun j => va + BitVec.ofNat 64 (j * (ewBits ew / 8))) hm
    (fun j hj hbit => (hserved j ⟨hj.trans_le hm, hbit⟩ hj).1) fun hlt => by
      obtain ⟨⟨-, hbit⟩, ⟨j, ⟨-, hj⟩, hjm⟩, e, hcause, hacc⟩ := hfails hlt
      exact ⟨hbit, ⟨j, hjm, hj⟩, e, hcause, aligned_elem ew hal m, hacc⟩
  refine h.opens_lanes hon (nt := false) (gather := false) (mk := some (k, mask)) (pages := pages) (ex := ex)
    (is := (List.range m).filter (active (readK (coreOf u lc.val).regs k))) (f := fun j => va + BitVec.ofNat 64 (j * (ewBits ew / 8)))
    (by rw [beq_eq_false_iff_ne.2 hew, beq_eq_false_iff_ne.2 hk]; rfl) rfl ?_ (fun j hj => ?_) (fun j hj => ?_) hy
  · simp only [regsOf, hva, hp, aligned, hal, beq_self_eq_true, Bool.not_true, Bool.false_eq_true, if_false]
    rcases hex with ⟨rfl, rfl⟩ | ⟨e, rfl, hne, hcause⟩
    · simp only [laneCount, htrim]
    · have hfalse : ((laneElems ((List.range m).filter (active (readK (coreOf u lc.val).regs k))) (fun j => va + BitVec.ofNat 64 (j * (ewBits ew / 8))) x).isEmpty
          || e.cause == excDebug) = false := by
        rw [Bool.or_eq_false_iff]
        exact ⟨by simpa [laneElems] using hne, beq_eq_false_iff_ne.2 hcause⟩
      simp only [hfalse, Bool.false_eq_true, if_false, htrim]
  · obtain ⟨hlt, hbit⟩ := List.mem_filter.1 hj
    rw [List.mem_range] at hlt
    exact (hserved j ⟨hlt.trans_le hm, hbit⟩ hlt).2
  · rw [List.mem_filter, List.mem_range, hmask, Bool.and_eq_true, decide_eq_true_iff]
    rfl
end

/-- Settles O22: each row checks its elements in order and opens a shadow of what they give; a misaligned base or element raises EXC_ALIGN. -/
theorem vectorLoadsFillActiveLanes : Obligations.VectorLoadsFillActiveLanes := by
  intro lc s u vt vb rb k z ew x y h hon r w n on imm idx el ga served each opens mem
  have hew : w = ewBits ew := (ewBits_eq ew).symm
  clear_value w
  subst hew
  have hga (scale : Nat) : gatherAddrs (coreOf u lc.val).regs rb vb k (ewBits ew) scale = laneAddrs (readK (coreOf u lc.val).regs k) (ewBits ew) (ga scale) :=
    gatherAddrs_eq (mul_laneCount (ewBits_cases ew)) ..
  refine ⟨fun h3 hy => ⟨fun ⟨hal, hs⟩ => ⟨?vld, ?vldNt⟩, fun ⟨hal, hs⟩ => ?vldX, fun hlt hs => ?gather, fun hlt hs => ?gatherS⟩,
    fun h3 hy => ⟨fun hal hs => ?bc, fun hal hs => ?bcX⟩, fun m mask h3 hk hm hmask hy hal hs hf => ?ff, fun h3 => ?misses,
    fun j hlt hj hfirst => ?missesElem, fun h3 => ?reserved, fun hbad => ?ffReserved, fun hge => ?gatherReserved⟩
  case vld => exact h.opens_vldRow hon h3 (addr := fun r => vecImm r rb vb 64) rfl rfl hal hs hy
  case vldNt => exact h.opens_vldRow hon h3 (addr := fun r => vecImm r rb vb 64) rfl rfl hal hs hy
  case vldX => exact h.opens_vldRow hon h3 (addr := fun r => vecIdx r rb vb (elemSize ew)) rfl rfl hal hs hy
  case gather => exact h.opens_gatherRow hon (scaled := false) ((fpEw_iff ew).2 hlt) rfl (hga 1) hs hy
  case gatherS => exact h.opens_gatherRow hon (scaled := true) ((fpEw_iff ew).2 hlt) rfl (hga n) hs hy
  case bc => exact h.opens_vldbcRow hon h3 (addr := fun r => vecImm r rb vb (elemSize ew)) rfl rfl hal hs hy
  case bcX => exact h.opens_vldbcRow hon h3 (addr := fun r => vecIdx r rb vb (elemSize ew)) rfl rfl hal hs hy
  case ff => exact h.opens_vldFf hon h3 hk hm hmask rfl hal hs hf hy
  case misses =>
    exact ⟨h.misses_vldRow hon h3 (addr := fun r => vecImm r rb vb 64) rfl rfl, h.misses_vldRow hon h3 (addr := fun r => vecIdx r rb vb (elemSize ew)) rfl rfl,
      h.misses_vldRow hon h3 (addr := fun r => vecImm r rb vb 64) rfl rfl, fun hk hal => h.misses_vldFf hon h3 hk rfl hal,
      h.misses_vldbcRow hon h3 (addr := fun r => vecImm r rb vb (elemSize ew)) rfl rfl,
      h.misses_vldbcRow hon h3 (addr := fun r => vecIdx r rb vb (elemSize ew)) rfl rfl⟩
  case missesElem =>
    have hnone (j' : Nat) (hj' : j' < j) : (readK (coreOf u lc.val).regs k).getLsbD j' = false := by
      simpa using mt (fun hb => ⟨hj'.trans hj.1, hb⟩) (hfirst j' hj')
    exact ⟨h.misses_gatherRow hon (scaled := false) ((fpEw_iff ew).2 hlt) rfl (hga 1) hj.1 hj.2 hnone,
      h.misses_gatherRow hon (scaled := true) ((fpEw_iff ew).2 hlt) rfl (hga n) hj.1 hj.2 hnone⟩
  case reserved =>
    have hbad : (ew == 3) = true := beq_iff_eq.2 h3
    simp only [List.forall_mem_cons]
    exact ⟨h.illegal_vecInsn hon hbad rfl, h.illegal_vecInsn hon hbad rfl, h.illegal_vecInsn hon hbad rfl, h.illegal_vecInsn hon hbad rfl,
      h.illegal_vecInsn hon hbad rfl, by simp⟩
  case ffReserved => exact h.illegal_vecInsn hon (by simpa using hbad) rfl
  case gatherReserved =>
    have hbad : (!fpEw ew) = true := by rw [fpEw_eq_false hge]; rfl
    exact ⟨h.illegal_vecInsn hon hbad rfl, h.illegal_vecInsn hon hbad rfl⟩

end Sys2Proof.Machine
end

section
/-! A vector store of a whole line of the core's scratchpad writes the line as a whole and so ends its poison (09 R242, R243): beside bytes and the
PC, the poison of the device changes. -/

namespace Sys2Proof.Machine
-- One declaration after another: each `decide +kernel` waits for the kernel's turn, and many at once would hold a thread each.
set_option Elab.async false

/-- The first line of the scratchpad of lc0. -/
def scratchLine : Nat := 0xE000040000000
/-- The line at 0x20000, from which lc0 fetches, modified in a cache. -/
def fetchedLine : SMap (Option L2Line) := [(0, some { line := 0x800, st := .m })]
/-- lc0 at K with its counters frozen, g4 the address of the first line of its scratchpad. -/
def scratchCore : Core := { ({} : Core) with
  standing := .issuing, pc := 0x20000, regs := { ({} : Regs) with csr := [(0x400, 0x42), (0x522, 1)], g := [(4, 0xE000040000000)] } }
/-- The L2 of lc0 has one way of scratchpad, whose first line is poisoned. -/
def poisonedScratch : State := { ({} : State) with
  cores := [(0, scratchCore)], resil := { ({} : Resil) with bound := 512 }, power := { ({} : Power) with mode := .run }
  mem := { ({} : MemSt) with
    priv := [(0, { ({} : PrivCaches) with l1i := fetchedLine, l1d := fetchedLine, l2 := fetchedLine, spMask := 1 })]
    poison := [(lineOf scratchLine, true)] }
  ctl := { ({} : Ctl) with regs := [(0x8000018, 1)] } }
/-- How lane `i` of 64 bits is accessed. -/
def scratchLanes (i : Nat) : Xlat := { acc := { pa := scratchLine + 8 * i, tc := 1 }, page := scratchLine / 4096 }

theorem issues_poisonedScratch : Issues 0 poisonedScratch poisonedScratch :=
  ⟨by decide, by decide, by decide, by decide, by decide, ⟨0x20, by decide +kernel⟩, by rfl⟩
/-- The store of lane `i`, checked. -/
def scratchAccess (i : Nat) : Except Exc Xlat × State :=
  access 0 vWantStore (0xE000040000000 + BitVec.ofNat 64 (i * 8)) 8 false true poisonedScratch
theorem scratchAccess_eq (i : Nat) (hi : i < 8) : scratchAccess i = (.ok (scratchLanes i), poisonedScratch) := by
  have h : ∀ i, i < 8 → (scratchAccess i).1.toOption = some (scratchLanes i) ∧ (scratchAccess i).2 = poisonedScratch := by decide +kernel
  obtain ⟨hacc, hsame⟩ := h i hi
  refine Prod.ext ?_ hsame
  cases hx : (scratchAccess i).1 with
  | ok a => rw [hx] at hacc; exact congrArg _ (Option.some.inj hacc)
  | error e => rw [hx] at hacc; cases hacc
theorem passes_scratchLanes (i : Nat) (hi : i < 8) :
    Passes 0 vWantStore (0xE000040000000 + BitVec.ofNat 64 (i * 8)) 8 false true poisonedScratch (scratchLanes i) := by
  have hal : ∀ i, i < 8 → (0xE000040000000 + BitVec.ofNat 64 (i * 8)).toNat % 8 = 0 := by decide
  exact ⟨hal i hi, scratchAccess_eq i hi, rfl⟩
theorem ownLine_scratchLanes (i : Nat) (hi : i < 8) : OwnLine 0 (scratchLanes i).acc poisonedScratch := by
  have h : ∀ i, i < 8 → leavesCore poisonedScratch 0 (scratchLanes i).acc = false ∧ backed poisonedScratch (scratchLanes i).acc.pa = true ∧
    lineFenced poisonedScratch (lineOf (scratchLanes i).acc.pa) = false ∧ isMemory (scratchLanes i).acc.pa = false ∧
    placeOf (scratchLanes i).acc.pa = some ⟨.scratch, 0, 0x40000000 + 8 * i⟩ := by decide +kernel
  obtain ⟨h1, h2, h3, h4, h5⟩ := h i hi
  exact ⟨h1, h2, h3, ⟨_, h5, .inr (.inr rfl)⟩, fun hm => by rw [h4] at hm; cases hm⟩
/-- The line is no longer poisoned once `VST` has written it. -/
theorem poison_vst : (match exec (.vst 0 1 4 0 0 false 0) poisonedScratch with | .next t => t.mem.poison.isEmpty | _ => false) = true := by decide +kernel

/-- Refutes O23: `VST` of a whole line of the core's own scratchpad ends the poison of the line, where nothing but bytes was to change. -/
theorem not_vectorStoresWriteActiveLanes : ¬ Obligations.VectorStoresWriteActiveLanes := by
  intro h
  have hon : VectorOn (coreOf poisonedScratch 0).regs := by unfold VectorOn; decide
  obtain ⟨⟨hvst, -⟩, -⟩ := (h 0 poisonedScratch poisonedScratch 1 0 4 0 false 0 scratchLanes issues_poisonedScratch hon).imp_left fun hs => hs rfl (by decide)
  obtain ⟨t, ht, -, hdev⟩ := hvst ⟨by decide, fun i hi => ⟨passes_scratchLanes i hi.1, ownLine_scratchLanes i hi.1⟩⟩
  have hpoison : t.mem.poison = poisonedScratch.mem.poison := by rw [← hdev]
  have hrun := poison_vst
  rw [ht] at hrun
  simp only [hpoison] at hrun
  exact absurd hrun (by decide)

end Sys2Proof.Machine
end

section
/-! A core whose translation caches hold a slot of no aligned page: a whole line written by `BFILL.NT` then lies across two lines of memory, and a
write at a home takes the bytes of one line alone (10 R253). -/

namespace Sys2Proof.Machine
-- One declaration after another: each `decide +kernel` waits for the kernel's turn, and many at once would hold a thread each.
set_option Elab.async false

/-- A slot of 4 KiB that lets everything through. -/
def openSlot (va pa : Nat) (mt : BitVec 2) : TlbSlot where
  va := va
  size := 4096
  world := true
  tag := none
  pa := pa
  rd := true
  wr := true
  ex := true
  u := false
  a := true
  d := true
  key := 0
  mt := mt
  tc := 1
  leafs := []
/-- lc0 at K with translation on, its counters frozen: g5 an address in the page at 0x40000, g6 a pattern of ones, g7 a length of 64. -/
def crookedCore : Core := { ({} : Core) with
  standing := .issuing, pc := 0x20000
  regs := { ({} : Regs) with csr := [(0x400, 0x42), (0x522, 1), (0x822, 1)], g := [(5, 0x40000), (6, 0xFFFFFFFFFFFFFFFF), (7, 64)] }
  tlbs := { ({} : Tlbs) with itlb := [openSlot 0x20000 0x20000 0], dtlb := [openSlot 0x40000 0x40001 1] } }
/-- The device, the line that lc0 fetches from in its caches. -/
def crooked : State := { ({} : State) with
  cores := [(0, crookedCore)], resil := { ({} : Resil) with bound := 512 }, power := { ({} : Power) with mode := .run }
  mem := { ({} : MemSt) with priv := [(0, { ({} : PrivCaches) with l1i := [(0, some { line := 0x800, st := .m })], l2 := [(0, some { line := 0x800, st := .m })] })] }
  ctl := { ({} : Ctl) with regs := [(0x8000018, 1)] } }
/-- How the line at g5 is written: at an address of memory that is no line's. -/
def crookedXlat : Xlat := { acc := { pa := 0x40001, mt := 1, tc := 1 }, page := 0x40 }

theorem issues_crooked : Issues 0 crooked crooked :=
  ⟨by decide, by decide, by decide, by decide, by decide, ⟨0x20, by decide +kernel⟩, by rfl⟩
theorem accessPart_crooked : accessPart 0 longWantWrite 0x40000 64 false true false crooked = (.ok crookedXlat, crooked) := by
  have h : (accessPart 0 longWantWrite 0x40000 64 false true false crooked).1.toOption = some crookedXlat ∧
    (accessPart 0 longWantWrite 0x40000 64 false true false crooked).2 = crooked := by decide +kernel
  obtain ⟨hacc, hsame⟩ := h
  refine Prod.ext ?_ hsame
  cases hx : (accessPart 0 longWantWrite 0x40000 64 false true false crooked).1 with
  | ok a => rw [hx] at hacc; exact congrArg _ (Option.some.inj hacc)
  | error e => rw [hx] at hacc; cases hacc
theorem atHome_crooked : AtHome crooked 0x40001 := by
  refine ⟨by decide, by decide, by decide, by decide, fun i hi => ?_⟩
  have hline : lineOf (0x40001 + i) = 0x1000 ∨ lineOf (0x40001 + i) = 0x1001 := by
    unfold lineOf
    omega
  rcases hline with hl | hl <;> rw [hl] <;>
    exact ⟨by decide, fun _ => ⟨by decide, by decide, by decide, fun q hq => (List.not_mem_nil hq).elim, fun g hg => (List.not_mem_nil hg).elim⟩⟩
/-- The last byte that `BFILL.NT` was to write is not written. -/
theorem last_byte_bfillNt :
    (match exec (.bfillNt 0 false 5 6 7) crooked with | .next t => readByte t (0x40001 + 63) | _ => 0xFF) = 0 := by decide +kernel

/-- Refutes O24: through a slot whose page is not aligned the line at g5 lies across two lines of memory, and `BFILL.NT` writes the bytes of the
first alone. -/
theorem not_longInstructionsTakeMicroSteps : ¬ Obligations.LongInstructionsTakeMicroSteps := by
  intro h
  obtain ⟨hgo, -⟩ := h 0 crooked crooked false 5 6 7 (fun _ => 0) (fun _ => 0) crookedXlat issues_crooked
  obtain ⟨-, hfill⟩ := hgo (by decide) (by decide) (by decide) (by decide) (by decide)
  obtain ⟨-, hline, -⟩ := hfill (by decide)
  obtain ⟨t, ht, v, htv, -, -, -, hbytes, -⟩ := hline accessPart_crooked rfl atHome_crooked (by decide)
  have hlast := last_byte_bfillNt
  rw [ht] at hlast
  have htv' : t = v := htv
  rw [← htv'] at hbytes
  have hbyte := hbytes 63 (by decide)
  exact absurd (hlast.symm.trans hbyte) (by decide)

end Sys2Proof.Machine
end

section
/-! A translation slot of every tag (G, 08 R210) and an invalidation by tag (08 R221): the model keeps the slot. -/

namespace Sys2Proof.Machine
-- One declaration after another: each `decide +kernel` waits for the kernel's turn, and many at once would hold a thread each.
set_option Elab.async false

/-- A slot of the open world that belongs to every tag. -/
def globalSlot : TlbSlot where
  va := 0x40000
  size := 4096
  world := false
  tag := none
  pa := 0x40000
  rd := true
  wr := true
  ex := true
  u := false
  a := true
  d := true
  key := 0
  mt := 0
  tc := 1
  leafs := []
/-- lc0 at S with translation off and its counters frozen, which holds the slot. -/
def globalCore : Core := { ({} : Core) with
  standing := .issuing, pc := 0x20000, regs := { ({} : Regs) with csr := [(0x400, 0x22), (0x522, 1)] }
  tlbs := { ({} : Tlbs) with dtlb := [globalSlot] } }
/-- The device, the line that lc0 fetches from in its caches. -/
def globalHeld : State := { ({} : State) with
  cores := [(0, globalCore)], resil := { ({} : Resil) with bound := 512 }, power := { ({} : Power) with mode := .run }
  mem := { ({} : MemSt) with priv := [(0, { ({} : PrivCaches) with l1i := [(0, some { line := 0x800, st := .m })], l2 := [(0, some { line := 0x800, st := .m })] })] }
  ctl := { ({} : Ctl) with regs := [(0x8000018, 1)] } }

theorem issues_globalHeld : Issues 0 globalHeld globalHeld :=
  ⟨by decide, by decide, by decide, by decide, by decide, ⟨0x20, by decide +kernel⟩, by rfl⟩
/-- `TLBI.TAG` leaves the slot where it is. -/
theorem dtlb_tlbiTag : (match exec (.tlbiTag 0 0 0 0) globalHeld with | .next t => (coreOf t 0).tlbs.dtlb | _ => []) = [globalSlot] := by decide +kernel

/-- Refutes O28: a slot of every tag is among those that an invalidation by tag is said to remove, and the model keeps it. -/
theorem not_invalidationsRemoveTheSlotsTheyName : ¬ Obligations.InvalidationsRemoveTheSlotsTheyName := by
  intro h
  obtain ⟨hforms, -⟩ := h.1 0 globalHeld globalHeld 0 0 issues_globalHeld
  obtain ⟨⟨t, ht, y, ⟨hcore, -⟩, -, hdtlb, -⟩, -⟩ :=
    hforms (by decide) (.tlbiTag 0 0 0 0, .tlbiTagB 0 0 0 0) (List.mem_cons_of_mem _ (List.mem_cons_self ..))
  have hkept := dtlb_tlbiTag
  rw [ht] at hkept
  have hy : y.dtlb = [globalSlot] := (congrArg (fun c : Core => c.tlbs.dtlb) hcore).symm.trans hkept
  have hmem : globalSlot ∈ y.dtlb := by simp [hy]
  exact ((hdtlb globalSlot).1 hmem).2 ⟨rfl, .inl rfl⟩

end Sys2Proof.Machine
end

section
/-! The queue instructions (13 R323, R324, R327 to R332). -/

namespace Sys2Proof.Machine

/-- The third register of a word of format S that names it (03 R69). -/
theorem thirdReg_ofNat (gt : GReg) : thirdReg (BitVec.ofNat 12 (gt.val * 128)) = gt := by
  have hgt := gt.isLt
  apply Fin.ext
  simp only [thirdReg, BitVec.toNat_ofNat]
  omega
theorem thirdOk_ofNat (gt : GReg) : thirdOk (BitVec.ofNat 12 (gt.val * 128)) = true := by
  have hgt := gt.isLt
  simp only [thirdOk, BitVec.toNat_ofNat, beq_iff_eq]
  omega

/-! ### Send slots -/

@[simp] theorem sendersOf_setSender_same (k : Nat) (xs : List SendSlot) (s : State) : sendersOf (setSender k xs s) k = xs :=
  smGet_smPut_same ..
theorem sendersOf_setSender_other {k j : Nat} (h : j ≠ k) (xs : List SendSlot) (s : State) : sendersOf (setSender k xs s) j = sendersOf s j :=
  smGet_smPut_other _ _ _ h

/-- A slot taken and not released yet. -/
def takenSlot : SendSlot := { dest := 0, letter := { data := 0, postmark := 0 }, released := false }
/-- The slot of a letter that core `lc` posts to queue `p` at once. -/
def postedSlot (u : State) (p : Posting) (v : Vec) : SendSlot where
  dest := BitVec.ofNat 32 (slotDev u p.slot * 65536 + p.queue)
  released := true
  tc := p.tc
  letter := { data := v, postmark := u.time.now, via := some (p.queue % 65536) }

theorem queue_of_dest (d q : Nat) : fld (BitVec.ofNat 32 (d * 65536 + q)) 15 0 = q % 65536 := by
  simp only [fld, natBits, BitVec.toNat_ofNat]
  omega
/-- The slot just taken is the one that is released, where every other has been. -/
theorem releaseLetter_taken {lc : Nat} {s : State} {xs : List SendSlot} (hs : sendersOf s lc = xs ++ [takenSlot]) (hxs : ∀ x ∈ xs, x.released = true)
    (dest : BitVec 32) (tc : BitVec 2) (v : Vec) : releaseLetter lc dest tc v s = setSender lc (xs ++
      [{ dest := dest, letter := { data := v, postmark := s.time.now, via := some (fld dest 15 0) }, released := true, tc := tc }]) s := by
  have hfind : (xs ++ [takenSlot]).find? (fun x => !x.released) = some takenSlot := by
    rw [List.find?_append, List.find?_eq_none.2 fun x hx => by simp [hxs x hx]]
    rfl
  have hnot : takenSlot ∉ xs := fun hm => absurd (hxs _ hm) (by decide)
  have hreplace (y : SendSlot) : (xs ++ [takenSlot]).replace takenSlot y = xs ++ [y] := by
    rw [List.replace_append_right hnot, List.replace_cons_self]
  unfold releaseLetter
  rw [hs, hfind]
  dsimp only
  rw [hreplace]
  rfl

section
variable {lc : LC} {s u : State} (h : Issues lc s u) {i : Instr} {rd rv gt : GReg} {p : Posting}
include h

/-- A letter posted outside a group: its slot is taken and released in one instruction. -/
theorem Issues.postLetter_eq (hads : p.ads = []) (hreleased : ∀ x ∈ sendersOf u lc.val, x.released = true)
    (hroom : (sendersOf u lc.val).length < 16) : ∃ v, CoreNow lc { u with office := v.office } v (coreOf u lc.val) ∧
      sendersOf v lc.val = sendersOf u lc.val ++ [postedSlot u p (readV (coreOf u lc.val).regs (vOf rv))] ∧
      (∀ n, n ≠ lc.val → sendersOf v n = sendersOf u n) ∧ { v.office with senders := u.office.senders } = u.office ∧
      postLetter lc rd rv p u = some (.ok (updRegs lc.val (writeStatus rd stOk) v) ((coreOf u lc.val).pc + 4) [evOne (coreOf u lc.val) 0x50]) := by
  generalize hdest : BitVec.ofNat 32 (slotDev u p.slot * 65536 + p.queue) = dest
  generalize hs1 : setSender lc.val (sendersOf u lc.val ++ [takenSlot]) u = s1
  have htake : takeSlot lc.val u = some s1 := by
    rw [takeSlot, if_neg (by omega), ← hs1]
    rfl
  have hgroup : (coreOf s1 lc.val).group = none := by
    rw [← hs1]
    exact h.core_group
  have hout : releaseAll lc [.letter dest p.tc (readV (coreOf u lc.val).regs (vOf rv))] s1 =
      setSender lc.val (sendersOf u lc.val ++ [postedSlot u p (readV (coreOf u lc.val).regs (vOf rv))]) s1 := by
    have hrel := releaseLetter_taken (s := s1) (lc := lc.val) (by rw [← hs1, sendersOf_setSender_same]) hreleased dest p.tc
      (readV (coreOf u lc.val).regs (vOf rv))
    rw [← hdest, queue_of_dest, hdest] at hrel
    simp only [releaseAll, releaseOne, List.foldl_cons, List.foldl_nil, hrel, postedSlot, hdest]
    rw [← hs1]
    rfl
  refine ⟨_, ⟨?_, fun n _ => ?_, ?_⟩, sendersOf_setSender_same lc.val _ s1, fun n hn => ?_, ?_, ?_⟩
  rotate_right
  · simp only [postLetter, htake, Option.map_some, giveOrDo, hgroup, hads, setAds, if_true, regsOf, hdest, hout]
    rfl
  all_goals rw [← hs1]
  · rfl
  · rfl
  · rfl
  · rw [sendersOf_setSender_other hn, sendersOf_setSender_other hn]
  · rfl

omit h in
/-- The word of a queue instruction that names its posting address in gt is sound. -/
theorem queueInsn_eq {sfn : Nat} {ser : Bool} (body : Word64 → State → Eff) (hx : exec i s = queueInsn sfn ser lc rd rv (BitVec.ofNat 12 (gt.val * 128)) body s) :
    exec i s = .next (runInsn lc ser (encS 0x3B rd rv sfn (BitVec.ofNat 12 (gt.val * 128))) (fun a => body (readG (regsOf a lc) gt) a) s) := by
  rw [hx]
  simp only [queueInsn, thirdOk_ofNat, thirdReg_ofNat, Bool.not_true, Bool.false_eq_true, if_false]

/-- An instruction that waits at its place does nothing. -/
theorem Issues.waits_of_body {ser : Bool} {insn : Word32} {body : State → Eff} (hx : exec i s = .next (runInsn lc ser insn body s))
    (hb : body u = .hold u) : exec i s = .next u := by
  obtain ⟨page, hp⟩ := runInsn_issues h ser insn body
  rw [hx, hp, hb]

section
variable (hads : p.ads = []) (hreleased : ∀ x ∈ sendersOf u lc.val, x.released = true)
include hads hreleased

/-- `ENQ` or `ENQT` with a send slot free. -/
theorem Issues.posts_letter {insn : Word32} {body : State → Eff} {other : Eff} (hx : exec i s = .next (runInsn lc false insn body s))
    (hb : body u = (postLetter lc rd rv p u).getD other) (hroom : (sendersOf u lc.val).length < 16) :
    Completes i s fun t => Ran lc { u with office := t.office } t ((coreOf u lc.val).pc + 4)
        (WroteG rd 0 { (coreOf u lc.val).regs.flags with z := true }) ∧
      sendersOf t lc.val = sendersOf u lc.val ++ [postedSlot u p (readV (coreOf u lc.val).regs (vOf rv))] ∧
      (∀ n, n ≠ lc.val → sendersOf t n = sendersOf u n) ∧ { t.office with senders := u.office.senders } = u.office := by
  obtain ⟨v, ⟨hcore, hothers, hdev⟩, hown, hsenders, hoffice, hpost⟩ := h.postLetter_eq (rd := rd) (rv := rv) hads hreleased hroom
  rw [hpost] at hb
  have hc : coreOf (updRegs lc.val (writeStatus rd stOk) v) lc.val =
      { coreOf u lc.val with regs := writeStatus rd stOk (coreOf u lc.val).regs } := by rw [coreOf_updRegs_same, hcore]
  have ht := h.exec_ok hx hb (by rw [hc]; exact ⟨h.core_group, h.core_shadows, h.core_unarmed⟩)
    (by rw [hc, Still, csr, writeStatus_csr]; exact h.still) (by simp [evOne, plainEvent])
  refine ⟨_, ht, ⟨writeStatus rd stOk (coreOf u lc.val).regs, ⟨readG_writeStatus _ _ _, writeStatus_flags .., writeStatus_v .., writeStatus_k .., writeStatus_csr ..⟩,
    ?_, fun n hn => ?_, hdev⟩, hown, hsenders, hoffice⟩
  · rw [coreOf_setCore_same, hc]
    rfl
  · rw [coreOf_setCore_other _ _ hn, updRegs, coreOf_updCore_other _ _ hn]
    exact hothers n hn
end

omit h in
theorem postLetter_full (hfull : 16 ≤ (sendersOf u lc.val).length) : postLetter lc rd rv p u = none := by
  rw [postLetter, takeSlot, if_pos hfull]
  rfl

/-- The group that a `DEQ` opens. -/
def deqGroup (c : Core) (p : Posting) (isTry : Bool) : Group where
  firstPc := c.pc
  members := 0
  closed := false
  sinceDeferred := some 0
  nextId := 2
  held := [.deq 0 1 p.slot p.queue isTry]
  snap := c.regs
  usedPages := [p.page]
/-- `DEQ` and `DEQT` are loads with two destinations, held until the commit. -/
theorem Issues.holds_deqRow {sfn : Nat} {isTry : Bool} (hx : exec i s = deqRow sfn isTry lc rd rv (BitVec.ofNat 12 (gt.val * 128)) s)
    (hpage : postingPage lc wantDeq true (readG (coreOf u lc.val).regs gt) u = (.ok p, u)) (hads : p.ads = []) :
    Completes i s fun t => ∃ g, CoreNow lc u t { coreOf u lc.val with pc := (coreOf u lc.val).pc + 4, group := some g, shadows :=
          [{ left := 3, dest := .gen rd, value := .deferred 0 }, { left := 3, dest := .vec rv, value := .deferred 1 }] } ∧
        g.firstPc = (coreOf u lc.val).pc ∧ g.snap = (coreOf u lc.val).regs ∧ g.members = 1 ∧ g.closed = false ∧
        g.held = [.deq 0 1 p.slot p.queue isTry] := by
  obtain ⟨t, ht, g, hnow, hfirst, hsnap, hmembers, hclosed, hheld⟩ := h.next_opensGroup
    (l := [(.gen rd, .deferred 0), (.vec rv, .deferred 1)]) (v := u)
    (c := { coreOf u lc.val with
      shadows := [{ left := 4, dest := .gen rd, value := .deferred 0 }, { left := 4, dest := .vec rv, value := .deferred 1 }],
      group := some (deqGroup (coreOf u lc.val) p isTry) })
    (pc := (coreOf u lc.val).pc + 4) (evs := []) (queueInsn_eq _ hx) (by
      simp only [regsOf, hpage, hads, openGroup, h.core_group, nextDeferred, List.map_nil, pushShadow, h.core_shadows, holdAll, updGroup, Option.map_some]
      rfl) rfl rfl (.inr rfl) rfl (by simp)
  exact ⟨t, ht, g, hnow, hfirst, hsnap, hmembers, hclosed, hheld⟩

/-! ### The state of a queue (13 R332) -/

omit h in
/-- A status, with a value in another register. -/
theorem wroteG_status (st : Nat) (w : Word64) (r : Regs) :
    WroteG rd (BitVec.ofNat 64 st) { r.flags with z := decide (st = 0) } (writeG r rv w) (writeStatus rd st (writeG r rv w)) :=
  ⟨readG_writeStatus _ _ _, by rw [writeStatus_flags, writeG_flags], writeStatus_v .., writeStatus_k .., writeStatus_csr ..⟩

omit h in
/-- The fields of a state word (13 R332). -/
theorem stateWord_fields (lc q : Nat) (hn : qCount (queueOf u q) < 2 ^ 32) :
    fld (stateWord u lc q) 63 61 = stateCode (queueOf u q).state ∧ fld (stateWord u lc q) 60 59 = qKind (queueOf u q) ∧
      (stateWord u lc q).getLsbD 58 = (queueOf u q).spill ∧ (stateWord u lc q).getLsbD 57 = decide (0 < (queueOf u q).oldLeft) ∧
      (stateWord u lc q).getLsbD 56 = (queueOf u q).lease.isSome ∧ (stateWord u lc q).getLsbD 55 = decide ((queueOf u q).lease = some lc) ∧
      fld (stateWord u lc q) 31 0 = qCount (queueOf u q) := by
  have hstate : stateCode (queueOf u q).state < 4 := by cases (queueOf u q).state <;> decide
  have hkind : qKind (queueOf u q) < 4 := fld_lt (qw (queueOf u q) 0) 28 27
  unfold stateWord
  dsimp only
  generalize stateCode (queueOf u q).state = a at *
  generalize qKind (queueOf u q) = b at *
  generalize qCount (queueOf u q) = n at *
  generalize (queueOf u q).spill = b1
  generalize decide (0 < (queueOf u q).oldLeft) = b2
  generalize (queueOf u q).lease.isSome = b3
  generalize decide ((queueOf u q).lease = some lc) = b4
  have hb (x : Bool) : x.toNat < 2 := Bool.toNat_lt x
  have hbit (x : Bool) (m : Nat) (hm : m % 2 = x.toNat) : decide (m % 2 = 1) = x := by rw [hm]; cases x <;> rfl
  have h1 := hb b1
  have h2 := hb b2
  have h3 := hb b3
  have h4 := hb b4
  simp only [fld, natBits, BitVec.getLsbD, BitVec.toNat_ofNat, Nat.testBit_eq_decide_div_mod_eq]
  refine ⟨by omega, by omega, hbit b1 _ (by omega), hbit b2 _ (by omega), hbit b3 _ (by omega), hbit b4 _ (by omega), by omega⟩

section
variable (hpage : postingPage lc wantQstat false (readG (coreOf u lc.val).regs gt) u = (.ok p, u)) (hads : p.ads = [])
include hpage hads

/-- `QSTAT` of a queue of this device. -/
theorem Issues.executes_qstat (hslot : p.slot = slotOf u) {st : Nat} {w : Word64} (hst : queueStat u lc.val p.queue = (st, w)) :
    Executes lc s u (.qstat lc rd rv (BitVec.ofNat 12 (gt.val * 128))) fun old new =>
      WroteG rd (BitVec.ofNat 64 st) { old.flags with z := decide (st = 0) } (writeG old rv w) new := by
  have hx : exec (.qstat lc rd rv (BitVec.ofNat 12 (gt.val * 128))) s = execQstat lc rd rv (BitVec.ofNat 12 (gt.val * 128)) s := rfl
  refine h.executes_doneRegs (g := fun q => writeStatus rd st (writeG q rv w)) (queueInsn_eq _ hx) ?_ ?_ (wroteG_status st w _)
  · simp only [regsOf, hpage, hads, setAds, qstatNow, hslot, hst, Bool.not_true, Bool.false_eq_true, if_false, if_true]
  · rw [writeStatus_csr, writeG_csr]
/-- `QSTAT` of a queue of another device: a free status, and a free value where it is ST_OK. -/
theorem Issues.completes_qstat_peer (hslot : p.slot ≠ slotOf u) : Completes (.qstat lc rd rv (BitVec.ofNat 12 (gt.val * 128))) s fun t =>
    ∃ (st n : Nat) (w : Word64), st ∈ [0, 9, 1] ∧ (st ≠ 0 → w = 0) ∧ fld w 54 32 = 0 ∧
      WroteG rd (BitVec.ofNat 64 st) { (coreOf u lc.val).regs.flags with z := decide (st = 0) } (writeG (coreOf u lc.val).regs rv w)
        (coreOf t lc.val).regs ∧
      CoreNow lc { u with fresh := n } t { coreOf u lc.val with pc := (coreOf u lc.val).pc + 4, regs := (coreOf t lc.val).regs } := by
  obtain ⟨st, n, w, hmem, hzero, hfld, hnow⟩ : ∃ (st n : Nat) (w : Word64), st ∈ [0, 9, 1] ∧ (st ≠ 0 → w = 0) ∧ fld w 54 32 = 0 ∧
      qstatNow lc.val p u = (st, w, { u with fresh := n }) := by
    rw [qstatNow, if_neg hslot]
    generalize hk : ([stOk, stTimeout, stNoreg] : List Nat).getD ((drawWord u).1.toNat % 3) stOk = st
    have hstatus : peerStatus [stOk, stTimeout, stNoreg] u = (st, { u with fresh := u.fresh + 1 }) := Prod.ext hk rfl
    have hmem : st ∈ [0, 9, 1] := by
      have hlt : (drawWord u).1.toNat % 3 < ([stOk, stTimeout, stNoreg] : List Nat).length := Nat.mod_lt _ (by decide)
      rw [← hk, List.getD_eq_getElem _ _ hlt]
      exact List.getElem_mem hlt
    rw [hstatus]
    dsimp only
    split
    next hok =>
      refine ⟨stOk, _, _, by decide, fun hne => absurd rfl hne, ?_, rfl⟩
      apply Nat.eq_of_testBit_eq
      intro j
      rw [testBit_fld, BitVec.getLsbD_and, Nat.zero_testBit]
      by_cases hj : j < 23
      · have hbits : ∀ j, j < 23 → (0xFF800000FFFFFFFF : Word64).getLsbD (32 + j) = false := by decide
        rw [hbits j hj, Bool.and_false, Bool.and_false]
      · rw [decide_eq_false hj, Bool.false_and]
    next hne => exact ⟨st, _, 0, hmem, fun _ => rfl, rfl, rfl⟩
  have hx : exec (.qstat lc rd rv (BitVec.ofNat 12 (gt.val * 128))) s = execQstat lc rd rv (BitVec.ofNat 12 (gt.val * 128)) s := rfl
  have hc : coreOf (updRegs lc.val (fun q => writeStatus rd st (writeG q rv w)) { u with fresh := n }) lc.val =
      { coreOf u lc.val with regs := writeStatus rd st (writeG (coreOf u lc.val).regs rv w) } := coreOf_updRegs_same ..
  have ht := h.exec_ok (s2 := updRegs lc.val (fun q => writeStatus rd st (writeG q rv w)) { u with fresh := n }) (pc := (coreOf u lc.val).pc + 4)
    (evs := []) (queueInsn_eq _ hx)
    (by simp only [regsOf, hpage, hads, setAds, hnow, Bool.not_true, Bool.false_eq_true, if_false]; rfl)
    (by rw [hc]; exact ⟨h.core_group, h.core_shadows, h.core_unarmed⟩) (by rw [hc, Still, csr, writeStatus_csr, writeG_csr]; exact h.still) (by simp)
  refine ⟨_, ht, st, n, w, hmem, hzero, hfld, ?_, ?_, fun m hm => ?_, rfl⟩
  · rw [coreOf_setCore_same, hc]
    exact wroteG_status st w _
  · rw [coreOf_setCore_same, hc]
  · rw [coreOf_setCore_other _ _ hm, coreOf_updRegs_other _ _ hm]
end

/-! ### What the posting page refuses -/

section
variable {w : Want} {letter : Bool} {va : Word64}
omit h

theorem postingPage_misaligned (hal : va.toNat % 4096 ≠ 0) :
    postingPage lc w letter va u = (.error { cause := excAlign, addr := va, acc := 3 }, u) := by
  have hfld : fld va 11 0 ≠ 0 := by simpa [fld, natBits] using hal
  rw [postingPage, if_pos hfld]
/-- With the vector unit off no letter register may be named (13 R324). -/
theorem postingPage_vectorOff {a : Xlat} (hoff : ¬VectorOn (coreOf u lc.val).regs) (hal : va.toNat % 4096 = 0)
    (htr : translate lc.val w va u = (.ok a, u)) :
    postingPage lc w true va u = (.error { cause := excQueue, addr := va, reason := 16, acc := 3 }, u) := by
  have hfld : fld va 11 0 = 0 := by simpa [fld, natBits] using hal
  simp only [postingPage, hfld, ne_eq, not_true, if_false, regsOf, (not_vectorOn_iff _).1 hoff, Bool.and_self, htr, if_true]
end

section
variable {sfn : Nat} {ser : Bool} {body : Word64 → State → Eff} {w : Want} {letter : Bool}
  (hx : exec i s = queueInsn sfn ser lc rd rv (BitVec.ofNat 12 (gt.val * 128)) body s)
  (hb : ∀ va e, postingPage lc w letter va u = (.error e, u) → body va u = .exc e u)
include hx hb

/-- A posting address that is not page-aligned. -/
theorem Issues.misses_queueInsn (hal : (readG (coreOf u lc.val).regs gt).toNat % 4096 ≠ 0) :
    Raises lc s u i (encS 0x3B rd rv sfn (BitVec.ofNat 12 (gt.val * 128))) 3 0 3 (readG (coreOf u lc.val).regs gt) (coreOf u lc.val).pc :=
  h.raises_access (queueInsn_eq body hx) (hb _ _ (postingPage_misaligned hal)) (by decide) (by decide) (by decide)
theorem Issues.raises_vectorOff {a : Xlat} (hl : letter = true) (hoff : ¬VectorOn (coreOf u lc.val).regs)
    (hal : (readG (coreOf u lc.val).regs gt).toNat % 4096 = 0) (htr : translate lc.val w (readG (coreOf u lc.val).regs gt) u = (.ok a, u)) :
    Raises lc s u i (encS 0x3B rd rv sfn (BitVec.ofNat 12 (gt.val * 128))) 14 16 3 (readG (coreOf u lc.val).regs gt) (coreOf u lc.val).pc :=
  h.raises_access (queueInsn_eq body hx) (hb _ _ (hl ▸ postingPage_vectorOff hoff hal htr)) (by decide) (by decide) (by decide)
end
end

/-- Settles O31: a posting takes and releases a slot, a `DEQ` opens its group, `QSTAT` reports, and what the page refuses is raised. -/
theorem queueInstructionsPostAndConsume : Obligations.QueueInstructionsPostAndConsume := by
  intro lc s u rd rv gt p h c r x12 va posts consumes
  have hxE : exec (.enq lc rd rv x12) s = execEnq lc rd rv x12 s := rfl
  have hxT : exec (.enqt lc rd rv x12) s = execEnqt lc rd rv x12 s := rfl
  have hxD : exec (.deq lc rd rv x12) s = deqRow 2 false lc rd rv x12 s := rfl
  have hxU : exec (.deqt lc rd rv x12) s = deqRow 3 true lc rd rv x12 s := rfl
  have hxQ : exec (.qstat lc rd rv x12) s = execQstat lc rd rv x12 s := rfl
  refine ⟨fun hon hads => ⟨fun hpage hreleased => ⟨fun hroom => ⟨?enq, ?enqt⟩, fun hfull => ⟨?enqWaits, ?enqtBusy⟩⟩, fun hpage => ⟨?deq, ?deqt⟩⟩,
    fun hpage hads hslot => ?qstat, fun hpage hads hslot => h.completes_qstat_peer hpage hads hslot, ?refused⟩
  case enq =>
    have hp : postingPage lc wantEnq true (readG (regsOf u lc) gt) u = (.ok p, u) := hpage
    exact h.posts_letter (other := .hold u) hads hreleased (queueInsn_eq _ hxE) (by simp only [hp]) hroom
  case enqt =>
    have hp : postingPage lc wantEnq true (readG (regsOf u lc) gt) u = (.ok p, u) := hpage
    exact h.posts_letter (other := doneRegs lc (writeStatus rd stBusy) u) hads hreleased (queueInsn_eq _ hxT) (by simp only [hp]) hroom
  case enqWaits =>
    have hp : postingPage lc wantEnq true (readG (regsOf u lc) gt) u = (.ok p, u) := hpage
    exact h.waits_of_body (queueInsn_eq _ hxE) (by simp only [hp, postLetter_full hfull, Option.getD_none])
  case enqtBusy =>
    have hp : postingPage lc wantEnq true (readG (regsOf u lc) gt) u = (.ok p, u) := hpage
    exact h.executes_doneRegs (g := writeStatus rd stBusy) (queueInsn_eq _ hxT) (by simp only [hp, postLetter_full hfull, Option.getD_none])
      (writeStatus_csr ..) ⟨readG_writeStatus _ _ _, writeStatus_flags .., writeStatus_v .., writeStatus_k .., writeStatus_csr ..⟩
  case deq => exact h.holds_deqRow hxD hpage hads
  case deqt => exact h.holds_deqRow hxU hpage hads
  case qstat =>
    intro q gives code
    have hcode : code q.state = stateCode q.state := by
      show code (queueOf u p.queue).state = stateCode (queueOf u p.queue).state
      cases (queueOf u p.queue).state <;> rfl
    refine ⟨fun hdown => h.executes_qstat hpage hads hslot (st := 9) (by simp only [queueStat, hdown, if_true]; rfl),
      fun hup hfree => h.executes_qstat hpage hads hslot (st := 1) (by
        simp only [queueStat, hup, Bool.false_eq_true, if_false, show (queueOf u p.queue).state = .free from hfree, if_true]; rfl),
      fun hup hused hn => ⟨stateWord u lc.val p.queue, h.executes_qstat hpage hads hslot (st := 0) (by
        simp only [queueStat, hup, Bool.false_eq_true, if_false, if_neg (show (queueOf u p.queue).state ≠ .free from hused)]; rfl), ?_⟩⟩
    obtain ⟨hstate, hfields⟩ := stateWord_fields (u := u) lc.val p.queue hn
    exact ⟨hstate.trans hcode.symm, hfields⟩
  case refused =>
    intro off
    refine ⟨
      fun a hoff hal htr => h.raises_vectorOff (w := wantEnq) (letter := true) hxE
        (fun va e he => by simp only [he]) rfl hoff hal htr,
      fun a hoff hal htr => h.raises_vectorOff (w := wantEnq) (letter := true) hxT
        (fun va e he => by simp only [he]) rfl hoff hal htr,
      fun a hoff hal htr => h.raises_vectorOff (w := wantDeq) (letter := true) hxD
        (fun va e he => by simp only [he]) rfl hoff hal htr,
      fun a hoff hal htr => h.raises_vectorOff (w := wantDeq) (letter := true) hxU
        (fun va e he => by simp only [he]) rfl hoff hal htr,
      fun hal => ?_⟩
    simp only [List.forall_mem_cons]
    exact ⟨
      h.misses_queueInsn (w := wantEnq) (letter := true) hxE
        (fun va e he => by simp only [he]) hal,
      h.misses_queueInsn (w := wantEnq) (letter := true) hxT
        (fun va e he => by simp only [he]) hal,
      h.misses_queueInsn (w := wantDeq) (letter := true) hxD
        (fun va e he => by simp only [he]) hal,
      h.misses_queueInsn (w := wantDeq) (letter := true) hxU
        (fun va e he => by simp only [he]) hal,
      h.misses_queueInsn (w := wantQstat) (letter := false) hxQ
        (fun va e he => by simp only [he]) hal, by simp⟩

end Sys2Proof.Machine
end

section
/-! Every status a write of control space answers is one of the sixteen codes (02 R40, R41). -/

namespace Sys2Proof.Machine

theorem stCodes_lt : stOk < 16 ∧ stNoreg < 16 ∧ stPriv < 16 ∧ stRange < 16 ∧ stRsvd < 16 ∧ stLocked < 16 ∧ stRunning < 16 ∧ stBusy < 16 ∧
    stParity < 16 ∧ stTimeout < 16 ∧ stNotsupp < 16 ∧ stOrder < 16 ∧ stBudget < 16 ∧ stEpoch < 16 ∧ stFenced < 16 ∧ stAuth < 16 := by decide

theorem mem_checkOrder {x : Nat} : x ∈ checkOrder ↔ x ≠ 0 ∧ x < 16 := by
  constructor
  · intro h
    fin_cases h <;> decide
  · rintro ⟨h0, h⟩
    have hall : ∀ x < 16, x ≠ 0 → x ∈ checkOrder := by decide
    exact hall x h h0

theorem firstCode_eq_zero_or_mem (cs : List Nat) : firstCode cs = 0 ∨ (firstCode cs ∈ checkOrder ∧ firstCode cs ∈ cs) := by
  unfold firstCode
  cases h : checkOrder.find? fun c => cs.contains c with
  | none => exact .inl rfl
  | some x =>
    have hx := List.find?_some h
    exact .inr ⟨List.mem_of_find?_eq_some h, by simpa using hx⟩
theorem firstCode_lt (cs : List Nat) : firstCode cs < 16 := by
  obtain h | ⟨h, -⟩ := firstCode_eq_zero_or_mem cs
  · omega
  · exact (mem_checkOrder.1 h).2

section
variable (v : Word32) (s : State) (w : Writer) (n : Nat)

theorem epochCommit_status : (epochCommit s).1 < 16 := by unfold epochCommit; split <;> simp [stCodes_lt]
theorem epochDiscard_status : (epochDiscard s).1 < 16 := by unfold epochDiscard; split <;> simp [stCodes_lt]
theorem snapAll_status : (snapAll s).1 < 16 := by unfold snapAll; dsimp only; split <;> simp [stCodes_lt]
theorem lockSet_status : (lockSet v s).1 < 16 := by unfold lockSet; split_ifs <;> simp [stCodes_lt]
theorem placeRequest_status (t : Transition) (c : Bool) : (placeRequest t c s).1 < 16 := by
  unfold placeRequest
  dsimp only
  split
  · simp [stCodes_lt]
  · simp [stCodes_lt]
  · split_ifs <;> simp [stCodes_lt]
theorem pwrCmd_status : (pwrCmd v s).1 < 16 := by
  unfold pwrCmd
  split
  · simp [stCodes_lt]
  · split
    · exact placeRequest_status ..
    all_goals simp [stCodes_lt]
theorem padRelease_status : (padRelease v s).1 < 16 := by unfold padRelease; split_ifs <;> simp [stCodes_lt]
theorem mbxCmd_status : (mbxCmd v s).1 < 16 := by
  unfold mbxCmd
  dsimp only
  split
  · simp [stCodes_lt]
  · split
    · simp [stCodes_lt]
    · split_ifs <;> simp [stCodes_lt]
    · simp [stCodes_lt]
theorem uartSend_status : (uartSend n v s).1 < 16 := by unfold uartSend; dsimp only; split_ifs <;> simp [stCodes_lt]
theorem tmrCmd_status : (tmrCmd v s).1 < 16 := by unfold tmrCmd; dsimp only; split <;> simp [stCodes_lt]
theorem icRaise_status : (icRaise v s).1 < 16 := by unfold icRaise; split_ifs <;> simp [stCodes_lt]
theorem icUnraise_status : (icUnraise v s).1 < 16 := by unfold icUnraise; split_ifs <;> simp [stCodes_lt]
theorem icComplete_status : (icComplete n v s).1 < 16 := by
  unfold icComplete
  split
  · simp [stCodes_lt]
  · split
    · split <;> simp [stCodes_lt]
    · simp [stCodes_lt]
theorem ofCore_status (f : Nat → Nat × State) (h : ∀ lc, (f lc).1 < 16) : (ofCore w f s).1 < 16 := by
  unfold ofCore
  split
  · exact h _
  · simp [stCodes_lt]
theorem l3Cmd_status : (l3Cmd n v s).1 < 16 := by unfold l3Cmd; dsimp only; split_ifs <;> simp [stCodes_lt]
theorem hnCmo_status : (hnCmo n v s).1 < 16 := by unfold hnCmo; dsimp only; split_ifs <;> simp [stCodes_lt]
theorem hmcSecCmd_status : (hmcSecCmd n v s).1 < 16 := by unfold hmcSecCmd; dsimp only; split <;> simp [stCodes_lt]
theorem soStart_status : (soStart v s).1 < 16 := by unfold soStart; split_ifs <;> simp [stCodes_lt]
/-- Checks whose first code is answered, and what is done where there is none. -/
theorem status_unless_code (cs : List Nat) (s' : State) (r : Nat × State) (h : r.1 < 16) :
    (if firstCode cs ≠ stOk then (firstCode cs, s') else r).1 < 16 := by
  split
  · exact firstCode_lt cs
  · exact h
theorem status_ite (p : Prop) [Decidable p] {a b : Nat × State} (ha : a.1 < 16) (hb : b.1 < 16) : (if p then a else b).1 < 16 := by
  split
  · exact ha
  · exact hb
theorem soQcmd_status (im : Nat → Word32) : (soQcmd im v s).1 < 16 := by
  unfold soQcmd
  refine status_unless_code _ _ _ ?_
  split <;> simp [stCodes_lt]
theorem vxCmd_status : (vxCmd n v s).1 < 16 := by unfold vxCmd; dsimp only; split_ifs <;> simp [stCodes_lt]
theorem vxSweep_status : (vxSweep n v s).1 < 16 := by unfold vxSweep; dsimp only; split_ifs <;> simp [stCodes_lt]
theorem vxCohCmd_status : (vxCohCmd n v s).1 < 16 := by unfold vxCohCmd; dsimp only; split_ifs <;> simp [stCodes_lt]
/-- A command whose checks give the first code among some, and that is carried out where there is none. -/
theorem status_of_firstCode (cs : List Nat) (r : Nat × State) (h : r.1 < 16) :
    (match firstCode cs with | 0 => r | c => (c, s)).1 < 16 := by
  split
  · exact h
  · exact firstCode_lt cs
theorem pcieCmd_status : (pcieCmd v s).1 < 16 := status_of_firstCode _ _ _ stCodes_lt.1
theorem pcieInv_status : (pcieInv w v s).1 < 16 := status_of_firstCode _ _ _ stCodes_lt.1
theorem pciePrgResp_status : (pciePrgResp v s).1 < 16 := by
  refine status_of_firstCode s _ _ ?_
  split <;> simp [stCodes_lt]
theorem celPotSync_status : (celPotSync v s).1 < 16 := status_of_firstCode _ _ _ stCodes_lt.1
theorem celMrCmd_status : (celMrCmd v s).1 < 16 := by unfold celMrCmd; split <;> simp [stCodes_lt]
theorem dbgAttach_status : (dbgAttach w v s).1 < 16 := by
  unfold dbgAttach
  dsimp only
  split
  · simp [stCodes_lt]
  · split
    · split_ifs <;> simp [stCodes_lt]
    · split_ifs <;> simp [stCodes_lt]
    · simp [stCodes_lt]
theorem authRequest_status : (authRequest w v s).1 < 16 := by unfold authRequest; dsimp only; split_ifs <;> simp [stCodes_lt]
theorem authSubmit_status : (authSubmit w v s).1 < 16 := by
  unfold authSubmit
  dsimp only
  split
  · simp [stCodes_lt]
  · split
    · simp [stCodes_lt]
    · split
      · simp [stCodes_lt]
      · split <;> simp [stCodes_lt]
theorem lcCmd_status : (lcCmd n v s).1 < 16 := by
  unfold lcCmd
  dsimp only
  split
  · simp [stCodes_lt]
  · split
    · simp [stCodes_lt]
    · split <;> simp [stCodes_lt]
    · split <;> simp [stCodes_lt]
    · simp [stCodes_lt]
theorem haltAll_status : (haltAll v s).1 < 16 := by
  unfold haltAll
  split
  · simp [stCodes_lt]
  · split <;> simp [stCodes_lt]
theorem rcmd_status : (rcmd w v s).1 < 16 := by unfold rcmd; dsimp only; split_ifs <;> simp [stCodes_lt]
theorem dbgMem_status (op k pa : Nat) : (dbgMem w op k pa s).1 < 16 := by unfold dbgMem dbgDone; dsimp only; split_ifs <;> simp [stCodes_lt]
theorem timeSet_status : (timeSet n s).1 < 16 := by unfold timeSet; split <;> simp [stCodes_lt]
theorem goBit_status (f : State → Nat × State) (h : (f s).1 < 16) : (goBit n v f s).1 < 16 := by
  unfold goBit
  split_ifs
  · simp [stCodes_lt]
  · exact h
  · simp [stCodes_lt]

/-- The command of every register answers a code, where `DBG_MCMD` does. -/
theorem command_status (mc : Writer → Word32 → State → Nat × State) (hmc : ∀ w v s, (mc w v s).1 < 16) (d : RegDesc) (ix : List Nat) (off : Nat) :
    (command mc w d ix off v s).1 < 16 := by
  unfold command
  dsimp only
  split
  case h_1 => exact goBit_status _ _ _ _ (epochCommit_status s)
  case h_2 => exact goBit_status _ _ _ _ (epochDiscard_status s)
  case h_3 => exact goBit_status _ _ _ _ (snapAll_status s)
  case h_4 => exact lockSet_status ..
  case h_5 => exact pwrCmd_status ..
  case h_6 => exact padRelease_status ..
  case h_7 => exact mbxCmd_status ..
  case h_8 =>
    split
    · simp [stCodes_lt]
    · exact uartSend_status ..
  case h_9 => exact tmrCmd_status ..
  case h_10 => exact icRaise_status ..
  case h_11 => exact icUnraise_status ..
  case h_12 => exact ofCore_status _ _ _ fun _ => icComplete_status ..
  case h_13 => exact l3Cmd_status ..
  case h_14 => exact hnCmo_status ..
  case h_15 => exact hmcSecCmd_status ..
  case h_16 => exact soStart_status ..
  case h_17 => exact soQcmd_status ..
  case h_18 => exact vxCmd_status ..
  case h_19 => exact vxSweep_status ..
  case h_20 => exact vxCohCmd_status ..
  case h_21 => exact pcieCmd_status ..
  case h_22 => exact pcieInv_status ..
  case h_23 => exact pciePrgResp_status ..
  case h_24 => exact dbgAttach_status ..
  case h_25 => exact authRequest_status ..
  case h_26 => exact authSubmit_status ..
  case h_27 =>
    split
    · exact lcCmd_status ..
    · simp [stCodes_lt]
  case h_28 => exact haltAll_status ..
  case h_29 => exact rcmd_status ..
  case h_30 => exact hmc ..
  case h_31 => simp [stCodes_lt]
  case h_32 => exact celPotSync_status ..
  case h_33 => exact celMrCmd_status ..
  case h_34 => exact goBit_status _ _ _ _ stCodes_lt.1

theorem finish_status (d : RegDesc) (off : Nat) (r : Nat × State) (h : r.1 < 16) : (finish w d off v s r).1 < 16 := by
  unfold finish
  split_ifs
  · simp [stCodes_lt]
  · exact h
  · exact h
theorem finishWo_status (d : RegDesc) (off : Nat) (r : Nat × State) (h : r.1 < 16) : (finishWo w d off v s r).1 < 16 := by
  unfold finishWo
  split_ifs
  · exact finish_status _ _ _ _ _ _ h
  · exact h
  · exact h
theorem pairWrite_status (d : RegDesc) (ix : List Nat) (off old x : Nat) : (pairWrite w d ix off old x s).1 < 16 := by
  unfold pairWrite
  refine status_unless_code _ _ _ (status_ite _ stCodes_lt.1 ?_)
  exact status_ite _ (timeSet_status ..) stCodes_lt.1
theorem earlyChecks_lt (d : RegDesc) (off : Nat) : earlyChecks w d off s < 16 := firstCode_lt _
theorem halfWrite_status (d : RegDesc) (ix : List Nat) (off : Nat) : (halfWrite w d ix off v s).1 < 16 := by
  unfold halfWrite
  dsimp only
  split_ifs
  · simp [stCodes_lt]
  · exact earlyChecks_lt ..
  · exact earlyChecks_lt ..
  · exact pairWrite_status ..
theorem wordWrite_status (d : RegDesc) (ix : List Nat) (off : Nat) (old mask : Word32) : (wordWrite w d ix off old v mask s).1 < 16 := by
  unfold wordWrite
  dsimp only
  split_ifs
  · exact firstCode_lt _
  · exact finish_status _ _ _ _ _ _ stCodes_lt.1

variable (mc : Writer → Word32 → State → Nat × State) (hmc : ∀ w v s, (mc w v s).1 < 16)
include hmc

theorem regWrite_status (off : Nat) : (regWrite mc w off v s).1 < 16 := by
  unfold regWrite
  split
  · dsimp only
    split <;> simp [stCodes_lt]
  · dsimp only
    split_ifs
    · exact halfWrite_status ..
    · exact earlyChecks_lt ..
    · exact finishWo_status _ _ _ _ _ _ (command_status _ _ _ mc hmc ..)
    · exact wordWrite_status ..
theorem bitWrite_status (off b : Nat) : (bitWrite mc w off b v s).1 < 16 := by
  have hok : stOk < 16 := stCodes_lt.1
  have hrsvd : stRsvd < 16 := by simp [stCodes_lt]
  unfold bitWrite
  split
  · dsimp only
    split <;> simp [stCodes_lt]
  · refine status_ite _ (earlyChecks_lt ..) (status_ite _ ?wo ?word)
    case wo =>
      refine status_ite _ hok (status_ite _ hrsvd (status_ite _ ?_ (halfWrite_status ..)))
      exact finishWo_status _ _ _ _ _ _ (command_status _ _ _ mc hmc ..)
    case word => exact status_ite _ hrsvd (status_ite _ (wordWrite_status ..) (pairWrite_status ..))
omit hmc in
theorem stageWrite_status (off : Nat) : (stageWrite w off v s).1 < 16 := by
  unfold stageWrite
  split
  · dsimp only
    split <;> simp [stCodes_lt]
  · extract_lets base new code
    have hcode : code < 16 := firstCode_lt _
    split
    · exact hcode
    · simp [stCodes_lt]
omit hmc in
/-- What holds of the write of a register, of a staged value and of one bit, and of no register, holds of every write. -/
theorem ctlWriteWith_induction (off : Nat) (P : Nat × State → Prop) (reg : P ((regWrite mc w off v s).1, touch w off (regWrite mc w off v s).2))
    (stage : ∀ o, P (stageWrite w o v s)) (bit : ∀ o b, P ((bitWrite mc w o b v s).1, touch w o (bitWrite mc w o b v s).2))
    (none : P (stNoreg, s)) : P (ctlWriteWith mc w off v s) := by
  rw [ctlWriteWith]
  by_cases hreg : off < stageBase
  · rw [if_pos hreg]; exact reg
  · rw [if_neg hreg]
    by_cases hstage : off < 2 * stageBase
    · rw [if_pos hstage]; exact stage _
    · rw [if_neg hstage]
      by_cases hbit : bitBase ≤ off ∧ off < 2 * bitBase
      · rw [if_pos hbit]; exact bit _ _
      · rw [if_neg hbit]; exact none
theorem ctlWriteWith_status (off : Nat) : (ctlWriteWith mc w off v s).1 < 16 :=
  ctlWriteWith_induction v s w mc off (fun r => r.1 < 16) (regWrite_status v s w mc hmc off) (stageWrite_status v s w)
    (bitWrite_status v s w mc hmc) (by simp [stCodes_lt])
end

theorem mcmd_status (w : Writer) (v : Word32) (s : State) : (mcmd w v s).1 < 16 := by
  have hrsvd : stRsvd < 16 := by simp [stCodes_lt]
  have hauth : stAuth < 16 := by simp [stCodes_lt]
  have hdone (st : Nat) (p : Bool) (a : State) : (dbgDone st p a).1 < 16 := stCodes_lt.1
  unfold mcmd
  refine status_ite _ hrsvd (status_ite _ (hdone ..) (status_ite _ hauth (status_ite _ (dbgMem_status ..) (status_ite _ (hdone ..) ?_))))
  exact status_ite _ (hdone ..) (hdone ..)
/-- A checked write anywhere in control space answers one of the codes of 02 R41. -/
theorem ctlWrite_status (w : Writer) (off : Nat) (v : Word32) (s : State) : (ctlWrite w off v s).1 < 16 :=
  ctlWriteWith_status v s w mcmd mcmd_status off

end Sys2Proof.Machine
end

section
/-! Checked writes of control space (02 R35 to R57). -/

namespace Sys2Proof.Machine
-- One declaration after another: each `decide +kernel` waits for the kernel's turn, and many at once would hold a thread each.
set_option Elab.async false

variable {s u : State} {w : Writer} {v : Word32} {st : Nat}

/-! ### The order of checks (02 R41) -/

theorem firstCode_ne_zero {cs : List Nat} {x : Nat} (hx : x ∈ cs) (h : x ∈ checkOrder) : firstCode cs ≠ 0 := by
  have hfind : checkOrder.find? (fun c => cs.contains c) ≠ none := by
    intro hn
    have := List.find?_eq_none.1 hn x h
    simp [hx] at this
  obtain ⟨y, hy⟩ := Option.ne_none_iff_exists'.1 hfind
  rw [firstCode, hy]
  exact (mem_checkOrder.1 (List.mem_of_find?_eq_some hy)).1
theorem firstCode_eq_zero {cs : List Nat} (h : ∀ x ∈ cs, x < 16) : firstCode cs = 0 ↔ ∀ x ∈ cs, x = 0 := by
  constructor
  · intro hz x hx
    by_contra hne
    exact firstCode_ne_zero hx (mem_checkOrder.2 ⟨hne, h x hx⟩) hz
  · intro hz
    obtain h0 | ⟨hm, hc⟩ := firstCode_eq_zero_or_mem cs
    · exact h0
    · exact hz _ hc

theorem idxOf_find?_le {p : Nat → Bool} {l : List Nat} {y x : Nat} (hy : l.find? p = some y) (hx : p x = true) : l.idxOf y ≤ l.idxOf x := by
  induction l with
  | nil => simp at hy
  | cons a l ih =>
    by_cases ha : p a = true
    · have : a = y := by simpa [List.find?_cons, ha] using hy
      simp [this]
    · have hne : a ≠ x := fun h => ha (h ▸ hx)
      have hya : l.find? p = some y := by simpa [List.find?_cons, ha] using hy
      have hny : a ≠ y := fun h => ha (h ▸ List.find?_some hya)
      rw [List.idxOf_cons_ne _ hny, List.idxOf_cons_ne _ hne]
      exact Nat.succ_le_succ (ih hya)

theorem firstCode_least {cs : List Nat} {x : Nat} (hne : firstCode cs ≠ 0) (hx : x ∈ cs) : checkOrder.idxOf (firstCode cs) ≤ checkOrder.idxOf x := by
  unfold firstCode at hne ⊢
  cases hf : checkOrder.find? fun c => cs.contains c with
  | none => exact absurd (by rw [hf]; rfl) hne
  | some y => exact idxOf_find?_le hf (by simpa using hx)

/-! ### What a checked write answers -/

theorem touch_eq (w : Writer) (off : Nat) (a : State) :
    touch w off a = a ∨ 0x5000000 ≤ off ∧ touch w off a = { a with dbg := { a.dbg with lastAccess := a.time.now } } := by
  unfold touch
  split
  case isTrue h =>
    unfold dbgTouch
    split
    · exact .inr ⟨h.1, rfl⟩
    · exact .inl rfl
  · exact .inl rfl

theorem sdc_register {off : Nat} (hoff : off < 0x40000000) (hon : s.power.mode ≠ .off) :
    sdc w off v s = answerSt (regWrite mcmd w off v s).1 (touch w off (regWrite mcmd w off v s).2) := by
  unfold sdc
  rw [if_neg hon]
  show answerSt (ctlWriteWith mcmd w off v s).1 (ctlWriteWith mcmd w off v s).2 = _
  rw [ctlWriteWith, if_pos (show off < stageBase from hoff)]

theorem refused_touched (off st : Nat) (s : State) :
    (answerSt st (touch w off s)).ans = { status := st } ∧
      { answerSt st (touch w off s) with
        ans := s.ans, dbg := { (answerSt st (touch w off s)).dbg with lastAccess := s.dbg.lastAccess } } = s := by
  obtain h | ⟨-, h⟩ := touch_eq w off s <;> rw [h] <;> exact ⟨rfl, rfl⟩

theorem keepCopy_eq (w : Writer) (off : Nat) (old : Word32) (s : State) : ∃ c, keepCopy w off old s = { s with ctl := { s.ctl with copies := c } } := by
  unfold keepCopy
  split
  · exact ⟨s.ctl.copies, rfl⟩
  · exact ⟨_, rfl⟩

theorem accepted_journal (w : Writer) (off kind : Nat) (v : Word32) (c : List RindCopy) (s u : State) :
    Accepted w off v s u (answerSt 0 (touch w off (journal off v kind (writerLevel s w) { u with ctl := { u.ctl with copies := c } }))) := by
  obtain h | ⟨hlo, h⟩ := touch_eq w off (journal off v kind (writerLevel s w) { u with ctl := { u.ctl with copies := c } })
  · rw [h]
    exact ⟨rfl, ⟨_, _, rfl, rfl, rfl, rfl⟩, .inl rfl, rfl⟩
  · rw [h]
    exact ⟨rfl, ⟨_, _, rfl, rfl, rfl, rfl⟩, .inr ⟨hlo, rfl⟩, rfl⟩

theorem accepted_journal_untouched (w : Writer) (off kind : Nat) (v : Word32) (s u : State) :
    Accepted w off v s u (answerSt 0 (journal off v kind (writerLevel s w) u)) :=
  ⟨rfl, ⟨_, _, rfl, rfl, rfl, rfl⟩, .inl rfl, rfl⟩

/-- A register write that its checks refuse. -/
theorem refuses_register {off : BitVec 36} (hoff : off.toNat < 0x40000000) (hon : s.power.mode ≠ .off) (h : regWrite mcmd w off.toNat v s = (st, s)) :
    Refuses (.registerWrite w off v) s st := by
  refine ⟨sdc w off.toNat v s, rfl, ?_⟩
  rw [sdc_register hoff hon, h]
  exact refused_touched off.toNat st s

section
variable {off : Nat} {d : RegDesc} {ix : List Nat} (hreg : findReg off = some (d, ix)) (hone : d.half = .single)
include hreg hone

theorem regWrite_wo (hacc : d.acc = .wo) (he : earlyChecks w d off s ≠ 0) : regWrite mcmd w off v s = (earlyChecks w d off s, s) := by
  unfold regWrite
  rw [hreg]
  simp [hone, hacc, stOk, he]
theorem regWrite_word (hacc : d.acc ≠ .wo) :
    regWrite mcmd w off v s = wordWrite w d ix off (curWord w d ix off s) v (BitVec.allOnes 32) s := by
  unfold regWrite
  rw [hreg]
  simp [hone, hacc]
end

/-- The code a write of a single register is refused with, zero where it is accepted. -/
def wordCode (w : Writer) (d : RegDesc) (ix : List Nat) (off : Nat) (old v mask : Word32) (s : State) : Nat :=
  firstCode ([earlyChecks w d off s] ++ lateChecks d ix off old v mask s ++ codeIf (ledgerFull s off) stBusy)

theorem wordWrite_refused {d : RegDesc} {ix : List Nat} {off : Nat} {old mask : Word32} (h : wordCode w d ix off old v mask s ≠ 0) :
    wordWrite w d ix off old v mask s = (wordCode w d ix off old v mask s, s) := by
  unfold wordWrite
  exact if_pos h

theorem wordWrite_accepted {d : RegDesc} {ix : List Nat} {off : Nat} {old mask : Word32} (h : wordCode w d ix off old v mask s = 0)
    (hroom : ledgerFull s off = false) :
    wordWrite w d ix off old v mask s =
      (0, journal off v (journalKind d) (writerLevel s w) (applyReg w d ix off v (keepCopy w off (regValue w d ix off s) s))) := by
  unfold wordWrite
  refine (if_neg (not_not.2 h)).trans ?_
  unfold finish
  rw [hroom]
  rfl

/-! ### The register maps -/

/-- The rows of every register map. -/
def everyRow : List RegDesc :=
  regsSys ++ regsPwr ++ regsPad ++ regsTmr ++ regsIc ++ regsFrk ++ regsHn ++ regsHmc ++ regsDmc ++ regsSo ++ regsVx ++ regsPcie ++ regsDbg ++
    regsRes ++ regsUcs ++ regsCel ++ regsUncore

theorem mem_of_findIn {l : List RegDesc} {off : Nat} {d : RegDesc} {ix : List Nat} (h : findIn l off = some (d, ix)) : d ∈ l := by
  induction l with
  | nil => simp [findIn] at h
  | cons a l ih =>
    unfold findIn at h
    split at h
    · exact List.mem_cons_of_mem _ (ih h)
    · split at h
      · simp only [Option.some.injEq, Prod.mk.injEq] at h
        simp [h.1]
      · exact List.mem_cons_of_mem _ (ih h)
theorem ite_subset {l a b : List RegDesc} {p : Prop} [Decidable p] (ha : a ⊆ l) (hb : b ⊆ l) : (if p then a else b) ⊆ l := by
  split
  · exact ha
  · exact hb
theorem blockRegs_subset (off : Nat) : blockRegs off ⊆ everyRow := by
  unfold blockRegs
  iterate 17 refine ite_subset (fun d hd => by simp only [everyRow, List.mem_append, hd, true_or, or_true]) ?_
  exact List.nil_subset _
theorem mem_everyRow {off : Nat} {d : RegDesc} {ix : List Nat} (h : findReg off = some (d, ix)) : d ∈ everyRow :=
  blockRegs_subset off (mem_of_findIn h)
theorem lt_of_findReg {off : Nat} {d : RegDesc} {ix : List Nat} (h : findReg off = some (d, ix)) (hn : d.name ≠ .ucsCoreVer) : off < 0x10000000 := by
  by_contra hlt
  have hd := mem_of_findIn h
  unfold blockRegs at hd
  simp only [show ¬off < 0x100000 by omega, show ¬off < 0x200000 by omega, show ¬off < 0x300000 by omega, show ¬off < 0x400000 by omega,
    show ¬off < 0x800000 by omega, show ¬off < 0x1000000 by omega, show ¬off < 0x2000000 by omega, show ¬off < 0x2800000 by omega,
    show ¬off < 0x3000000 by omega, show ¬off < 0x4000000 by omega, show ¬off < 0x4800000 by omega, show ¬off < 0x5000000 by omega,
    show ¬off < 0x6000000 by omega, show ¬off < 0x7000000 by omega, show ¬off < 0x8000000 by omega, hlt, if_false] at hd
  split at hd
  · simp only [regsUncore, List.mem_singleton] at hd
    exact hn (by rw [hd])
  · simp at hd

theorem bootPolicy_period : ∀ d ∈ everyRow, d.name = .sysBootPolicy → d.period = 0 := by decide +kernel
theorem aliased_plain : ∀ d ∈ everyRow, d.name = .sysBootPolicy ∨ d.name = .pwrIdleCfg ∨ d.name = .icTset ∨ d.name = .padMbxOut →
    d.hold = false := by decide +kernel

/-! ### What an accepted write does -/

/-- The registers whose write has an effect of its own. -/
def hasEffect (n : RegName) : Prop :=
  n ∈ [.pwrLimitCeil, .padGpioCfg, .padUartIen, .tmrRun, .tmrSyncCfg, .tmrTCfg, .tmrTIen, .frkPeriod, .frkTc0Ceil, .frkShare, .frkTc0Slots,
    .frkResW0, .frkResW1, .frkResW2, .frkBudW0, .frkBudW1, .soQstage, .soDlrTail, .vxRtMem, .vxRtGrp]

/-- What the write of a register without an effect of its own makes of the device; that of the boot policy is noted. -/
def plainWrite (d : RegDesc) (off : Nat) (v : Word32) (s : State) : State :=
  let t := putWord d off v s
  { t with live := if d.name = .sysBootPolicy then { s.live with orderSet := true } else s.live }

theorem putWord_eq (d : RegDesc) (off : Nat) (v : Word32) (s : State) :
    putWord d off v s = if d.period = 0 then setReg off v s
      else setAct off ((regAct s off &&& BitVec.ofNat 32 d.period) ||| (v &&& ~~~(BitVec.ofNat 32 d.period))) (setReg off v s) := rfl

theorem applyReg_plain {d : RegDesc} {ix : List Nat} {off : Nat} (hd : d ∈ everyRow) (h : ¬hasEffect d.name) :
    applyReg w d ix off v s = plainWrite d off v s := by
  have hboot := bootPolicy_period d hd
  simp only [hasEffect, List.mem_cons, List.not_mem_nil, or_false, not_or] at h
  unfold applyReg plainWrite
  dsimp only
  split
  all_goals simp_all only [not_true_eq_false, false_and, and_false]
  · simp [putWord_eq, hboot, setLive]
  · rw [if_neg (by assumption), putWord_eq]
    split <;> rfl

theorem plainWrite_copies (d : RegDesc) (off : Nat) (v : Word32) (c : List RindCopy) (s : State) :
    plainWrite d off v { s with ctl := { s.ctl with copies := c } } =
      { plainWrite d off v s with ctl := { (plainWrite d off v s).ctl with copies := c } } := by
  simp only [plainWrite, putWord_eq]
  split <;> rfl

theorem plainWrite_reg (d : RegDesc) (off o : Nat) (v : Word32) (s : State) : reg (plainWrite d off v s) o = if o = off then v else reg s o := by
  rw [← reg_setReg]
  simp only [plainWrite, putWord_eq]
  split <;> rfl
theorem plainWrite_regAct (d : RegDesc) (off o : Nat) (v : Word32) (s : State) :
    regAct (plainWrite d off v s) o = if d.period ≠ 0 ∧ o = off then
      (regAct s off &&& BitVec.ofNat 32 d.period) ||| (v &&& ~~~(BitVec.ofNat 32 d.period)) else regAct s o := by
  simp only [plainWrite, putWord_eq]
  split
  case isTrue h => simp [h]; rfl
  case isFalse h =>
    simp only [h, ne_eq, not_false_eq_true, true_and]
    exact regAct_setAct (s := setReg off v s) ..

/-! ### The checks before the register's own values (02 R41) -/

theorem mem_codeIf {b : Bool} {c x : Nat} : x ∈ codeIf b c ↔ b = true ∧ x = c := by
  cases b <;> simp [codeIf]

theorem firstCode_priv {cs : List Nat} (h : 2 ∈ cs) : firstCode cs = 2 := by simp [firstCode, checkOrder, h]
theorem firstCode_noreg {cs : List Nat} (h : 1 ∈ cs) (h2 : 2 ∉ cs) : firstCode cs = 1 := by simp [firstCode, checkOrder, h, h2]
theorem firstCode_zero {cs : List Nat} (h : ∀ x ∈ cs, x = 0) : firstCode cs = 0 :=
  (firstCode_eq_zero fun x hx => by rw [h x hx]; decide).2 h

theorem earlyChecks_priv {d : RegDesc} {off : Nat} (h : writerLevel s w < needLevel s d off true) : earlyChecks w d off s = 2 :=
  firstCode_priv (by simp [codeIf, h, stPriv])
theorem earlyChecks_noreg {d : RegDesc} {off : Nat} (h : needLevel s d off true ≤ writerLevel s w) (hacc : d.acc = .ro ∨ d.acc = .rc) :
    earlyChecks w d off s = 1 := by
  refine firstCode_noreg (by simp [mem_codeIf, hacc, stNoreg]) ?_
  simp [mem_codeIf, h, stNoreg, stAuth, stFenced, stTimeout, stParity, stLocked]

theorem dbgSnap_wo : ∀ d ∈ everyRow, d.name = .dbgSnap → d.acc = .wo := by decide +kernel
theorem earlyChecks_answers {d : RegDesc} {off : Nat} (hro : d.acc ≠ .ro) (hrc : d.acc ≠ .rc) (hname : d.name ≠ .dbgSnap)
    (h : Answers w (needLevel s d off true) d.dbgW off s) : earlyChecks w d off s = 0 := by
  unfold earlyChecks
  refine firstCode_zero fun x hx => ?_
  simp only [List.mem_append, mem_codeIf, hname, hro, hrc, h.attached, h.unfenced, h.answers, h.sound, if_false] at hx
  have hlevel := h.level
  simp only [decide_eq_true_eq, Bool.not_true, Bool.false_eq_true, false_and, or_false, or_self, decide_false] at hx
  obtain ⟨hl, -⟩ | ⟨hl, -⟩ := hx
  · omega
  · split at hl <;> simp [h.unlocked] at hl
theorem earlyChecks_zero {d : RegDesc} {off : Nat} (hd : d ∈ everyRow) (hacc : d.acc = .rw)
    (h : Answers w (needLevel s d off true) d.dbgW off s) : earlyChecks w d off s = 0 :=
  earlyChecks_answers (by simp [hacc]) (by simp [hacc]) (fun hn => by simp [dbgSnap_wo d hd hn] at hacc) h

theorem resAdmission_ne_priv (n : Nat) (a b c : Word32) (s : State) : resAdmission n a b c s ≠ 2 := by
  unfold resAdmission
  split_ifs <;> simp [stRange, stOk, stBudget]
theorem frkCheck_ne_priv (off : Nat) (v : Word32) (s : State) : frkCheck off v s ≠ 2 := by
  unfold frkCheck
  dsimp only
  split_ifs <;> simp [stRange, stOk, stBudget, resAdmission_ne_priv]
theorem priv_not_mem_valueCodes (d : RegDesc) (ix : List Nat) (off : Nat) (old v : Word32) (s : State) : 2 ∉ valueCodes d ix off old v s := by
  have hfrk : 2 ≠ frkCheck off v s := (frkCheck_ne_priv off v s).symm
  unfold valueCodes
  dsimp only
  split
  all_goals simp [mem_codeIf, stRange, hfrk, tmrCfgCodes, icCfgCodes, stRsvd, stNotsupp, stBudget]
theorem priv_not_mem_lateChecks (d : RegDesc) (ix : List Nat) (off : Nat) (old v mask : Word32) (s : State) :
    2 ∉ lateChecks d ix off old v mask s := by
  simp [lateChecks, mem_codeIf, priv_not_mem_valueCodes, stRsvd, stNoreg, stRange, stRunning, stEpoch]

/-! ### One bit and the staging view (02 R48, R52) -/

theorem sdc_bit {o b : Nat} (ho : o < 0x40000000) (h4 : o % 4 = 0) (hb : b < 32) (hon : s.power.mode ≠ .off) :
    sdc w (bitOff o b) v s = answerSt (bitWrite mcmd w o b v s).1 (touch w o (bitWrite mcmd w o b v s).2) := by
  have hsub : bitOff o b - bitBase = o * 32 + b * 4 := by rw [bitOff, Nat.add_assoc, Nat.add_sub_cancel_left]
  have hword : (o * 32 + b * 4) / 128 * 4 = o := by omega
  have hbit : (o * 32 + b * 4) % 128 / 4 = b := by omega
  have hlow : bitBase ≤ bitOff o b := by rw [bitOff, Nat.add_assoc]; exact Nat.le_add_right ..
  have hreg : ¬bitOff o b < stageBase := Nat.not_lt.2 (le_trans (by decide) hlow)
  have hstage : ¬bitOff o b < 2 * stageBase := Nat.not_lt.2 (le_trans (by decide) hlow)
  have hhigh : bitOff o b < 2 * bitBase := by
    rw [bitOff, Nat.add_assoc, Nat.two_mul]
    exact Nat.add_lt_add_left (lt_of_lt_of_le (show o * 32 + b * 4 < 0x800000000 by omega) (by decide)) _
  unfold sdc
  rw [if_neg hon]
  show answerSt (ctlWriteWith mcmd w (bitOff o b) v s).1 (ctlWriteWith mcmd w (bitOff o b) v s).2 = _
  rw [ctlWriteWith, if_neg hreg, if_neg hstage, if_pos ⟨hlow, hhigh⟩, hsub, hword, hbit]

theorem sdc_stage {off : Nat} (hoff : off < 0x40000000) (hon : s.power.mode ≠ .off) :
    sdc w (stageBase + off) v s = answerSt (stageWrite w off v s).1 (stageWrite w off v s).2 := by
  have hreg : ¬stageBase + off < stageBase := Nat.not_lt.2 (Nat.le_add_right ..)
  have hstage : stageBase + off < 2 * stageBase := by
    rw [Nat.two_mul]
    exact Nat.add_lt_add_left hoff _
  unfold sdc
  rw [if_neg hon]
  show answerSt (ctlWriteWith mcmd w (stageBase + off) v s).1 (ctlWriteWith mcmd w (stageBase + off) v s).2 = _
  rw [ctlWriteWith, if_neg hreg, if_pos hstage, Nat.add_sub_cancel_left]

theorem regValue_plain {d : RegDesc} {ix : List Nat} {off : Nat} (hreg : findReg off = some (d, ix)) (hacc : d.acc = .rw ∨ d.acc = .rwl)
    (hn : d.name = .sysBootPolicy ∨ d.name = .pwrIdleCfg ∨ d.name = .icTset ∨ d.name = .padMbxOut) (hb : unboundReg s d ix = false) :
    regValue w d ix off s = reg s off := by
  have hhold := aliased_plain d (mem_everyRow hreg) hn
  have hwo : d.acc ≠ .wo := by rcases hacc with h | h <;> simp [h]
  have hlt := lt_of_findReg hreg (by rcases hn with h | h | h | h <;> simp [h])
  unfold regValue
  rw [hb, hhold]
  have hofNat : BitVec.ofNat 32 (reg s off).toNat = reg s off := BitVec.ofNat_toNat ..
  rcases hn with hn | hn | hn | hn <;>
    simp [hn, isSnapSeq, hwo, sysValue, pwrValue, padValue, tmrValue, icValue, frkValue, hnValue, ctlValue, soValue, vxValue, pcieValue, dbgValue,
      resValue, ucsValue, celValue, hlt]

theorem firstCode_append_zeros {zs cs : List Nat} (h : ∀ c ∈ zs, c = 0) : firstCode (zs ++ cs) = firstCode cs := by
  have hc (c : Nat) (hc : c ∈ checkOrder) : (zs ++ cs).contains c = cs.contains c := by
    have hz : c ∉ zs := fun hm => (mem_checkOrder.1 hc).1 (h c hm)
    simp [hz]
  unfold firstCode
  rw [List.find?_congr hc]

theorem periodMerge_bit {off : Nat} {d : RegDesc} {ix : List Nat} (hreg : findReg off = some (d, ix)) (base v : Word32) {b : Nat} (hb : b < 32) :
    (periodMerge off base v).getLsbD b = if d.period.testBit b then v.getLsbD b else base.getLsbD b := by
  unfold periodMerge
  rw [hreg]
  by_cases h : d.period.testBit b <;> simp [-BitVec.getLsbD_eq_getElem, BitVec.getLsbD_ofNat, h, hb]

/-- A staging write that nothing before its values refuses. -/
theorem stageWrite_eq {d : RegDesc} {ix : List Nat} {off : Nat} (hreg : findReg off = some (d, ix)) (he : earlyChecks w d off s = 0)
    (hbits : (v &&& ~~~(BitVec.ofNat 32 d.bits)) = 0) (hb : unboundReg s d ix = false) (hroom : ledgerFull s off = false) :
    let new := periodMerge off ((smGet optDef s.ctl.staged off).getD (reg s off)) v
    let code := firstCode (codeIf (decide (d.period = 0)) stNotsupp ++ ((if d.period = 0 then [] else stageCodes d ix off new s) ++
      codeIf s.ctl.inFlight stEpoch))
    stageWrite w off v s = if code ≠ 0 then (code, s)
      else (0, journal off v 1 (writerLevel s w) { s with ctl := { s.ctl with staged := smPut optDef s.ctl.staged off (some new) } }) := by
  intro new code
  unfold stageWrite
  rw [hreg]
  dsimp only
  have hcode : firstCode ([earlyChecks w d off s] ++ codeIf ((v &&& ~~~(BitVec.ofNat 32 d.bits)) != 0) stRsvd ++
      codeIf (decide (d.period = 0)) stNotsupp ++ codeIf (unboundReg s d ix) stRange ++
      (if d.period = 0 then [] else stageCodes d ix off new s) ++ codeIf s.ctl.inFlight stEpoch ++ codeIf (ledgerFull s off) stBusy) = code := by
    rw [he, hbits, hb, hroom]
    show firstCode _ = firstCode _
    simp only [bne_self_eq_false, codeIf, Bool.false_eq_true, if_false, List.append_nil, List.append_assoc]
    exact firstCode_append_zeros (zs := [0]) (by simp)
  rw [hcode]
  rfl

/-- A staging write that its checks refuse. -/
theorem refuses_stage {off : BitVec 30} (hon : s.power.mode ≠ .off) (h : stageWrite w off.toNat v s = (st, s)) : Refuses (.stageWrite w off v) s st := by
  refine ⟨sdc w (stageBase + off.toNat) v s, rfl, ?_⟩
  rw [sdc_stage (by omega) hon, h]
  exact ⟨rfl, rfl⟩

theorem plainWrite_frame (d : RegDesc) (off : Nat) (v : Word32) (s : State) :
    { plainWrite d off v s with
      live := s.live, ctl := { (plainWrite d off v s).ctl with regs := s.ctl.regs, active := s.ctl.active } } = s := by
  simp only [plainWrite, putWord_eq]
  split <;> rfl
theorem plainWrite_bit {d : RegDesc} (off : Nat) (v : Word32) (s : State) (hp : d.period ≠ 0) {b : Nat} (hb : b < 32) :
    (regAct (plainWrite d off v s) off).getLsbD b = if d.period.testBit b then (regAct s off).getLsbD b else v.getLsbD b := by
  rw [plainWrite_regAct, if_pos ⟨hp, rfl⟩]
  by_cases h : d.period.testBit b <;> simp [-BitVec.getLsbD_eq_getElem, BitVec.getLsbD_ofNat, h, hb]

/-- An accepted write of a register without an effect of its own: what `plainWrite` makes of the device. -/
theorem accepted_word {d : RegDesc} {ix : List Nat} {off : Nat} {old mask : Word32} (hd : d ∈ everyRow) (hn : ¬hasEffect d.name)
    (h : wordCode w d ix off old v mask s = 0) (hroom : ledgerFull s off = false) :
    let r := wordWrite w d ix off old v mask s
    Accepted w off v s (plainWrite d off v s) (answerSt r.1 (touch w off r.2)) := by
  intro r
  obtain ⟨c, hc⟩ := keepCopy_eq w off (regValue w d ix off s) s
  have hr : r = (0, journal off v (journalKind d) (writerLevel s w) { plainWrite d off v s with ctl := { (plainWrite d off v s).ctl with copies := c } }) := by
    show wordWrite .. = _
    rw [wordWrite_accepted h hroom, applyReg_plain hd hn, hc, plainWrite_copies]
  rw [hr]
  exact accepted_journal w off (journalKind d) v c s (plainWrite d off v s)

theorem firstCode_busy : ∀ x < 16, firstCode [x, stBusy] = if x ∈ [0, 11, 12] then 7 else x := by decide

/-- Settles O32: the checks in their order, then the effect of the write, as the register's row has it. -/
theorem registerWritesTakeEffectOrAreRefused : Obligations.RegisterWritesTakeEffectOrAreRefused := by
  unfold Obligations.RegisterWritesTakeEffectOrAreRefused
  refine ⟨fun cs hcs => ⟨firstCode_eq_zero hcs, fun hne => ⟨?_, fun x hx _ => firstCode_least hne hx⟩⟩, ?word, ?unlisted, ?bit, ?stage, ?timeout,
    ?drop, ?off⟩
  · exact ((firstCode_eq_zero_or_mem cs).resolve_left hne).2
  case word =>
    intro w off v s d ix hoff hreg hone hon o old code
    have hd := mem_everyRow hreg
    refine ⟨fun hlv => ?priv, fun hacc hlv => ?noreg, fun hacc he => ?wo, fun hacc hcode => ?refused, fun hacc hcode hn => ?accepted⟩
    case priv =>
      have he := earlyChecks_priv hlv
      by_cases hacc : d.acc = .wo
      · exact refuses_register hoff hon ((regWrite_wo hreg hone hacc (by rw [he]; decide)).trans (by rw [he]))
      · have hc (old) : wordCode w d ix o old v (BitVec.allOnes 32) s = 2 := firstCode_priv (by simp [he])
        exact refuses_register hoff hon ((regWrite_word hreg hone hacc).trans ((wordWrite_refused (by rw [hc]; decide)).trans (by rw [hc])))
    case noreg =>
      have he := earlyChecks_noreg hlv hacc
      have hwo : d.acc ≠ .wo := by rcases hacc with h | h <;> simp [h]
      have hc (old) : wordCode w d ix o old v (BitVec.allOnes 32) s = 1 :=
        firstCode_noreg (by simp [he]) (by simp [he, priv_not_mem_lateChecks, mem_codeIf, stBusy])
      exact refuses_register hoff hon ((regWrite_word hreg hone hwo).trans ((wordWrite_refused (by rw [hc]; decide)).trans (by rw [hc])))
    case wo => exact refuses_register hoff hon (regWrite_wo hreg hone hacc he)
    case refused =>
      have hwo : d.acc ≠ .wo := by rcases hacc with h | h <;> simp [h]
      exact refuses_register hoff hon ((regWrite_word hreg hone hwo).trans (wordWrite_refused hcode))
    case accepted =>
      have hwo : d.acc ≠ .wo := by rcases hacc with h | h <;> simp [h]
      have hroom : ledgerFull s o = false := by
        by_contra hfull
        exact firstCode_ne_zero (x := 7) (by simp [hfull]) (by decide) hcode
      refine ⟨sdc w off.toNat v s, rfl, plainWrite d o v s, ⟨by simp [plainWrite_reg], fun p hp => ?_, fun hp b hb => plainWrite_bit o v s hp hb, rfl,
        plainWrite_frame ..⟩, ?_⟩
      · simp [plainWrite_reg, plainWrite_regAct, hp]
      · rw [sdc_register hoff hon, regWrite_word hreg hone hwo]
        exact accepted_word hd hn hcode hroom
  case unlisted =>
    intro w off v s hoff hreg hon
    refine refuses_register hoff hon ?_
    unfold regWrite
    rw [hreg]
    rfl
  case bit =>
    intro w off b v s d ix o hreg hone hacc hon hroom hn he old new
    have ho : o < 0x40000000 := by omega
    have hd := mem_everyRow hreg
    have hwo : d.acc ≠ .wo := by rcases hacc with h | h <;> simp [h]
    have hwrite : exec (.bitAliasWrite w off b v) s = .next (answerSt (bitWrite mcmd w o b.val v s).1 (touch w o (bitWrite mcmd w o b.val v s).2)) :=
      congrArg Host.Outcome.next (sdc_bit ho (Nat.mul_mod_left ..) b.isLt hon)
    have hbw : bitWrite mcmd w o b.val v s = if fld v 31 1 ≠ 0 then (stRsvd, s)
        else wordWrite w d ix o (curWord w d ix o s)
          (if v = 0 then curWord w d ix o s &&& ~~~(BitVec.ofNat 32 (2 ^ b.val)) else curWord w d ix o s ||| BitVec.ofNat 32 (2 ^ b.val))
          (BitVec.ofNat 32 (2 ^ b.val)) s := by
      unfold bitWrite
      rw [hreg]
      simp [he, stOk, hwo, hone]
    have hfld : fld v 31 1 = v.toNat / 2 := by
      have := v.isLt
      simp only [fld, natBits]
      omega
    refine ⟨fun hv => ⟨_, hwrite, ?_⟩, fun hv hlate => ⟨_, hwrite, ?_⟩⟩
    · rw [hbw, if_pos (by omega)]
      exact refused_touched o stRsvd s
    · have hbound : unboundReg s d ix = false := by
        by_contra hb
        exact absurd (hlate 3 (by simp [lateChecks, mem_codeIf, hb, stRange])) (by decide)
      have hcur : curWord w d ix o s = old := by
        have hval : regValue w d ix o s = old := regValue_plain hreg hacc hn hbound
        rcases hn with h | h | h | h <;> simpa only [curWord, h] using hval
      have hmask : BitVec.ofNat 32 (2 ^ b.val) = 1#32 <<< b.val := by
        apply BitVec.eq_of_toNat_eq
        simp [BitVec.toNat_shiftLeft, Nat.shiftLeft_eq]
      rw [hcur, hmask, if_neg (by omega)] at hbw
      have hcode : wordCode w d ix o old new (BitVec.ofNat 32 (2 ^ b.val)) s = 0 := by
        refine firstCode_zero fun x hx => ?_
        simp only [List.mem_append, List.mem_singleton, mem_codeIf, hroom, Bool.false_eq_true, false_and, or_false] at hx
        exact hx.elim (fun h => h.trans he) (hlate x)
      have heff : ¬hasEffect d.name := by rcases hn with h | h | h | h <;> simp [hasEffect, h]
      rw [hmask] at hcode
      refine ⟨plainWrite d o new s, ⟨by simp [plainWrite_reg], fun p hp => by simp [plainWrite_reg, hp]⟩, ?_⟩
      rw [hbw]
      exact accepted_word hd heff hcode hroom
  case stage =>
    intro w off v s d ix hreg o base hr hacc hbits hb
    have he := earlyChecks_zero (mem_everyRow hreg) hacc hr.toAnswers
    have hw := stageWrite_eq (w := w) hreg he hbits hb hr.room
    refine ⟨fun hp => ?_, fun hp hcodes => ⟨fun hfly => ?_, fun hfly => ?_⟩⟩
    · refine refuses_stage hr.powered (hw.trans ?_)
      cases hfly : s.ctl.inFlight <;> simp [hp, codeIf, firstCode, checkOrder, stNotsupp, stEpoch]
    · refine refuses_stage hr.powered (hw.trans ?_)
      have hc : firstCode (stageCodes d ix o (periodMerge o base v) s ++ [13]) = 13 := firstCode_append_zeros hcodes
      simp only [hp, decide_false, codeIf, if_false, Bool.false_eq_true, List.nil_append, hfly, if_true, stEpoch]
      rw [hc]
      rfl
    · have hc : firstCode (codeIf (decide (d.period = 0)) stNotsupp ++
          ((if d.period = 0 then [] else stageCodes d ix o (periodMerge o base v) s) ++ codeIf s.ctl.inFlight stEpoch)) = 0 := by
        simp only [hp, decide_false, codeIf, if_false, Bool.false_eq_true, List.nil_append, hfly]
        exact firstCode_append_zeros hcodes
      refine ⟨sdc w (stageBase + o) v s, rfl,
        { s with ctl := { s.ctl with staged := smPut optDef s.ctl.staged o (some (periodMerge o base v)) } }, ⟨periodMerge o base v, smGet_smPut_same ..,
        fun b hb => periodMerge_bit hreg base v hb,
        fun p hp => smGet_smPut_other optDef _ _ hp, rfl⟩, ?_⟩
      rw [sdc_stage off.isLt hr.powered, hw, if_neg (not_not.2 hc)]
      exact accepted_journal_untouched w o 1 v s _
  case timeout =>
    intro w off v s hon st
    refine ⟨fun hlo => ?_, fun hlo => ⟨answeredAt w off.toNat (firstCode [st, stBusy]) s, ?_, rfl, ?_⟩⟩
    · show execLedgerFullTimeout w off v s = execRegisterWrite w off v s
      unfold execLedgerFullTimeout
      rw [if_neg hon, if_pos hlo]
      rfl
    · show execLedgerFullTimeout w off v s = _
      unfold execLedgerFullTimeout
      rw [if_neg hon, if_neg hlo]
    · rw [← firstCode_busy st (ctlWrite_status ..)]
      rfl
  case drop =>
    intro w off k v x s d ix hreg hhi hacc hk hmem e
    have hdrop : dropHigh w off s = dropHeld w k s := by
      unfold dropHigh
      rw [hreg, hk]
      exact if_pos ⟨hhi, hacc⟩
    rw [hdrop]
    simp only [dropHeld, List.mem_filter, Bool.not_eq_true', Bool.and_eq_false_iff, beq_eq_false_iff_ne, not_and_or, ne_eq]
  case off =>
    intro w off off' b v s hoff
    have hsdc (o : Nat) : sdc w o v s = s := if_pos hoff
    simp only [List.forall_mem_cons]
    exact ⟨congrArg Host.Outcome.next (hsdc _), congrArg Host.Outcome.next (hsdc _), congrArg Host.Outcome.next (hsdc _), if_pos hoff, by simp⟩

end Sys2Proof.Machine
end

section
/-! The registers that are commands (02 R37, R41, R56): a command accepted, and one refused with its code. -/

namespace Sys2Proof.Machine

variable {s u : State} {w : Writer} {v : Word32} {off : Nat} {d : RegDesc} {ix : List Nat} {i : Instr}

/-- `i` writes the command register `d` at `off`, and nothing ahead of the command itself refuses it. -/
structure Orders (i : Instr) (w : Writer) (d : RegDesc) (ix : List Nat) (off : Nat) (v : Word32) (s : State) : Prop where
  row : findReg off = some (d, ix)
  writes : exec i s = .next (sdc w off v s)
  single : d.half = .single
  wo : d.acc = .wo
  counted : d.name ≠ .dbgSnap
  reaches : Reaches w (needLevel s d off true) d.dbgW off s

namespace Orders
variable (h : Orders i w d ix off v s)
include h

theorem low : off < 0x40000000 := by
  by_contra hoff
  have hd := mem_of_findIn h.row
  have hnil : blockRegs off = [] := by
    unfold blockRegs
    simp only [show ¬off < 0x100000 by omega, show ¬off < 0x200000 by omega, show ¬off < 0x300000 by omega, show ¬off < 0x400000 by omega,
      show ¬off < 0x800000 by omega, show ¬off < 0x1000000 by omega, show ¬off < 0x2000000 by omega, show ¬off < 0x2800000 by omega,
      show ¬off < 0x3000000 by omega, show ¬off < 0x4000000 by omega, show ¬off < 0x4800000 by omega, show ¬off < 0x5000000 by omega,
      show ¬off < 0x6000000 by omega, show ¬off < 0x7000000 by omega, show ¬off < 0x8000000 by omega, show ¬off < 0x10000000 by omega,
      show ¬off < 0x10000000 + 576 * 0x10000 by omega, if_false]
  simp [hnil] at hd

theorem regWrite_eq : regWrite mcmd w off v s = finishWo w d off v s (command mcmd w d ix off v s) := by
  have he : earlyChecks w d off s = 0 := earlyChecks_answers (by simp [h.wo]) (by simp [h.wo]) h.counted h.reaches.toAnswers
  unfold regWrite
  rw [h.row]
  simp [h.single, h.wo, he, stOk]

theorem commands {E : State → Prop} (hc : command mcmd w d ix off v s = (0, u)) (hE : E u) : Commands i w off v s E := by
  have hw : regWrite mcmd w off v s = (0, journal off v (journalKind d) (writerLevel s w) u) := by
    rw [h.regWrite_eq, hc]
    simp [finishWo, finish, wasDone, h.reaches.room, stOk]
  refine ⟨_, h.writes, u, hE, ?_⟩
  rw [sdc_register h.low h.reaches.powered, hw]
  exact accepted_journal w off (journalKind d) v u.ctl.copies s u

theorem refuses {st : Nat} {a : State} (hc : command mcmd w d ix off v s = (st, a)) (hst : wasDone d st = false) (horder : st ≠ stOrder) :
    Refuses i s st := by
  have hw : regWrite mcmd w off v s = (st, s) := by
    rw [h.regWrite_eq, hc]
    simp [finishWo, hst, h.reaches.room, horder]
  refine ⟨_, h.writes, ?_⟩
  rw [sdc_register h.low h.reaches.powered, hw]
  exact refused_touched off st s
end Orders

end Sys2Proof.Machine
end

section
/-! Configuration epochs (02 R47 to R51; 12 R300, R301). -/

namespace Sys2Proof.Machine
-- One declaration after another: each `decide +kernel` waits for the kernel's turn, and many at once would hold a thread each.
set_option Elab.async false

variable {s : State}

/-! ### Shadowed values come into force -/

theorem smGet_of_not_mem {α : Type} (d : Nat → α) {m : SMap α} {k : Nat} (h : k ∉ m.map (·.1)) : smGet d m k = d k := by
  induction m with
  | nil => rfl
  | cons e m ih =>
    simp only [List.map_cons, List.mem_cons, not_or] at h
    rw [smGet, if_neg (Ne.symm h.1), ih h.2]

/-- The active values after the shadowed values of `keys` have come into force. -/
theorem foldl_setAct (keys : List Nat) (s : State) :
    ∃ act, keys.foldl (fun a off => setAct off (reg a off) a) s = { s with ctl := { s.ctl with active := act } } ∧
      ∀ o, smGet regDef act o = if o ∈ keys then reg s o else regAct s o := by
  induction keys generalizing s with
  | nil => exact ⟨s.ctl.active, rfl, fun o => by simp [regAct]⟩
  | cons k keys ih =>
    obtain ⟨act, hs, hact⟩ := ih (setAct k (reg s k) s)
    refine ⟨act, hs, fun o => ?_⟩
    rw [hact, regAct_setAct]
    by_cases ho : o ∈ keys
    · rw [if_pos ho, if_pos (List.mem_cons_of_mem _ ho)]
      rfl
    · by_cases hk : o = k
      · subst hk
        rw [if_neg ho, if_pos rfl, if_pos (List.mem_cons_self ..)]
      · simp [ho, hk]

theorem applyShadows_eq (kind : Nat) (s : State) :
    ∃ act, applyShadows kind s = { s with ctl := { s.ctl with active := act } } ∧
      ∀ o, smGet regDef act o = if ofKind kind o then reg s o else regAct s o := by
  obtain ⟨act, hs, hact⟩ := foldl_setAct (((s.ctl.regs.map (·.1)) ++ (s.ctl.active.map (·.1))).filter (ofKind kind)) s
  refine ⟨act, hs, fun o => (hact o).trans ?_⟩
  by_cases hk : ofKind kind o = true
  · rw [if_pos hk]
    split
    · rfl
    case isFalse hm =>
      simp only [List.mem_filter, List.mem_append, hk, and_true, not_or] at hm
      rw [reg, regAct, smGet_of_not_mem _ hm.1, smGet_of_not_mem _ hm.2]
  · rw [if_neg (by simp [hk]), if_neg hk]

/-! ### The switch of an epoch -/

theorem smSorted_not_mem {α : Type} {k : Nat} {v : α} {m : SMap α} (h : smSorted ((k, v) :: m) = true) : k ∉ m.map (·.1) := by
  intro hk
  obtain ⟨e, he, rfl⟩ := List.mem_map.1 hk
  exact absurd (smSorted_head_lt h e he) (lt_irrefl _)

/-- A committed value becomes the register's. -/
def commitOne (a : State) (e : Nat × Option Word32) : State :=
  match e.2 with
  | some v => setReg e.1 (periodMerge e.1 (reg a e.1) v) a
  | none => a
/-- The values of a commit, put into the registers one after the other. -/
theorem foldl_commit {m : SMap (Option Word32)} (hm : smSorted m = true) (s : State) :
    ∃ regs, m.foldl commitOne s =
        { s with ctl := { s.ctl with regs := regs } } ∧
      ∀ o, smGet regDef regs o = match smGet optDef m o with | some v => periodMerge o (reg s o) v | none => reg s o := by
  induction m generalizing s with
  | nil => exact ⟨s.ctl.regs, rfl, fun o => rfl⟩
  | cons e m ih =>
    obtain ⟨k, x⟩ := e
    have hk := smSorted_not_mem hm
    cases x with
    | none =>
      obtain ⟨regs, hs, hregs⟩ := ih (smSorted_tail hm) s
      refine ⟨regs, hs, fun o => (hregs o).trans ?_⟩
      by_cases ho : k = o
      · subst ho
        simp only [smGet, if_true]
        rw [smGet_of_not_mem _ hk]
        rfl
      · simp only [smGet, if_neg ho]
    | some v =>
      obtain ⟨regs, hs, hregs⟩ := ih (smSorted_tail hm) (setReg k (periodMerge k (reg s k) v) s)
      refine ⟨regs, hs, fun o => (hregs o).trans ?_⟩
      rw [reg_setReg]
      by_cases ho : k = o
      · subst ho
        simp only [smGet, if_true]
        rw [smGet_of_not_mem _ hk]
        rfl
      · simp only [smGet, if_neg ho, if_neg (Ne.symm ho)]

/-- The values in force before, kept of every committed register. -/
theorem smGet_foldl_kept {m : SMap (Option Word32)} (hm : ∀ e ∈ m, e.2 ≠ none) (s : State) (old : SMap (Option Word32)) (o : Nat) :
    smGet optDef (m.foldl (fun a e => smPut optDef a e.1 (some (regAct s e.1))) old) o =
      if (smGet optDef m o).isSome then some (regAct s o) else smGet optDef old o := by
  induction m generalizing old with
  | nil => simp [smGet, optDef]
  | cons e m ih =>
    obtain ⟨k, x⟩ := e
    rw [List.foldl_cons, ih fun e he => hm e (List.mem_cons_of_mem _ he), smGet_smPut, smGet]
    have hx : x.isSome = true := Option.isSome_iff_ne_none.2 (hm (k, x) (List.mem_cons_self ..))
    by_cases ho : k = o
    · subst ho
      simp [hx]
    · rw [if_neg ho, if_neg (Ne.symm ho)]

theorem blockSwitched_eq {k : Nat} (hnow : (s.ctl.inFlight && s.ctl.unswitched.contains k) = true) :
    let left := s.ctl.unswitched.erase k
    ∃ i, blockSwitched k s = { s with intc := i, ctl := { s.ctl with
      unswitched := left, inFlight := !left.isEmpty, oldActive := if left.isEmpty then [] else s.ctl.oldActive } } := by
  intro left
  unfold blockSwitched
  rw [if_pos hnow]
  dsimp only
  split
  · exact pulse_eq 155
  · exact ⟨s.intc, rfl⟩
theorem blockSwitched_idle {k : Nat} (hnow : (s.ctl.inFlight && s.ctl.unswitched.contains k) = false) : blockSwitched k s = s := by
  unfold blockSwitched
  rw [hnow]
  rfl

/-- The switch of a kind while it is awaited: what becomes of registers, values kept and the commit. -/
theorem switchEpoch_eq {kind : Nat} (hwf : smWf optDef s.ctl.committed = true) (hnow : (s.ctl.inFlight && s.ctl.unswitched.contains kind) = true) :
    let left := s.ctl.unswitched.erase kind
    ∃ regs old committed i, switchEpoch kind s = { s with intc := i, ctl := { s.ctl with
        regs := regs, oldActive := old, committed := committed, unswitched := left, inFlight := !left.isEmpty } } ∧
      (∀ o, smGet regDef regs o = match if ofKind kind o then smGet optDef s.ctl.committed o else none with
        | some v => periodMerge o (reg s o) v
        | none => reg s o) ∧
      (left = [] → old = []) ∧
      (left ≠ [] → ∀ o, ofKind kind o = true → (smGet optDef s.ctl.committed o).isSome = true → smGet optDef old o = some (regAct s o)) := by
  intro left
  have hmine (o : Nat) : smGet optDef (s.ctl.committed.filter fun e => ofKind kind e.1) o =
      if ofKind kind o then smGet optDef s.ctl.committed o else none := smGet_filter_in ..
  obtain ⟨regs, hregs, hval⟩ := foldl_commit (smSorted_filter (fun e => ofKind kind e.1) (smWf_sorted hwf))
    { s with ctl := { s.ctl with
      oldActive := (s.ctl.committed.filter fun e => ofKind kind e.1).foldl (fun m e => smPut optDef m e.1 (some (regAct s e.1))) s.ctl.oldActive } }
  have hsome : ∀ e ∈ s.ctl.committed.filter fun e => ofKind kind e.1, e.2 ≠ none := by
    intro e he
    have hall := (Bool.and_eq_true_iff.1 hwf).2
    exact of_decide_eq_true (List.all_eq_true.1 hall e (List.mem_of_mem_filter he))
  have hkept := smGet_foldl_kept hsome s s.ctl.oldActive
  simp only [hmine] at hval hkept
  have hsw : switchEpoch kind s = blockSwitched kind { s with ctl := { s.ctl with
      oldActive := (s.ctl.committed.filter fun e => ofKind kind e.1).foldl (fun m e => smPut optDef m e.1 (some (regAct s e.1))) s.ctl.oldActive,
      regs := regs, committed := s.ctl.committed.filter fun e => !ofKind kind e.1 } } := by
    unfold switchEpoch
    rw [if_pos hnow]
    exact congrArg (fun a : State => blockSwitched kind { a with
      ctl := { a.ctl with committed := a.ctl.committed.filter fun e => !ofKind kind e.1 } }) hregs
  obtain ⟨i, hi⟩ := blockSwitched_eq (k := kind) (s := { s with ctl := { s.ctl with
      oldActive := (s.ctl.committed.filter fun e => ofKind kind e.1).foldl (fun m e => smPut optDef m e.1 (some (regAct s e.1))) s.ctl.oldActive,
      regs := regs, committed := s.ctl.committed.filter fun e => !ofKind kind e.1 } }) hnow
  refine ⟨regs, _, _, i, hsw.trans hi, hval, fun hnil => if_pos (List.isEmpty_iff.2 hnil), fun hne o hk ho => ?_⟩
  rw [if_neg (fun he => hne (List.isEmpty_iff.1 he))]
  refine (hkept o).trans ?_
  rw [if_pos hk, if_pos ho]

theorem switchEpoch_idle {kind : Nat} (hnow : (s.ctl.inFlight && s.ctl.unswitched.contains kind) = false) : switchEpoch kind s = s := by
  unfold switchEpoch
  rw [hnow]
  rfl

/-! ### A boundary -/

/-- What the boundary of kind `k` makes of the control-space state of `s`. -/
structure AtBoundary (k : Nat) (s : State) (c : Ctl) : Prop where
  inForce : ∀ o, ofKind k o = true → smGet regDef c.active o = smGet regDef c.regs o
  committed : ∀ o, ofKind k o = true → smGet regDef c.regs o = match smGet optDef s.ctl.committed o with
    | some v => if s.ctl.inFlight && s.ctl.unswitched.contains k then periodMerge o (reg s o) v else reg s o
    | none => reg s o
  others : ∀ o, ofKind k o = false → smGet regDef c.regs o = reg s o ∧ smGet regDef c.active o = regAct s o
  switched : (s.ctl.inFlight && s.ctl.unswitched.contains k) = true → c.unswitched = s.ctl.unswitched.erase k ∧
    c.inFlight = !(s.ctl.unswitched.erase k).isEmpty ∧ (s.ctl.unswitched.erase k = [] → c.oldActive = []) ∧
    (s.ctl.unswitched.erase k ≠ [] → ∀ o, ofKind k o = true → (smGet optDef s.ctl.committed o).isSome = true →
      smGet optDef c.oldActive o = some (regAct s o))
  waiting : (s.ctl.inFlight && s.ctl.unswitched.contains k) = false →
    c.unswitched = s.ctl.unswitched ∧ c.inFlight = s.ctl.inFlight ∧ c.oldActive = s.ctl.oldActive
  staged : c.staged = s.ctl.staged
  epoch : c.epoch = s.ctl.epoch

theorem atBoundary_shadows {k : Nat} (hwf : smWf optDef s.ctl.committed = true) :
    ∃ c i, applyShadows k (switchEpoch k s) = { s with intc := i, ctl := c } ∧ AtBoundary k s c := by
  cases hnow : s.ctl.inFlight && s.ctl.unswitched.contains k with
  | false =>
    rw [switchEpoch_idle hnow]
    obtain ⟨act, hs, hact⟩ := applyShadows_eq k s
    refine ⟨_, s.intc, hs, ⟨fun o ho => ?_, fun o _ => ?_, fun o ho => ⟨rfl, ?_⟩, fun h => absurd (hnow.symm.trans h) (by decide),
      fun _ => ⟨rfl, rfl, rfl⟩, rfl, rfl⟩⟩
    · exact (hact o).trans (if_pos ho)
    · rw [hnow]
      cases smGet optDef s.ctl.committed o <;> rfl
    · exact (hact o).trans (by rw [ho]; rfl)
  | true =>
    obtain ⟨regs, old, committed, i, hs, hregs, hnil, hkept⟩ := switchEpoch_eq hwf hnow
    obtain ⟨act, ha, hact⟩ := applyShadows_eq k (switchEpoch k s)
    rw [ha, hs]
    rw [hs] at hact
    refine ⟨_, i, rfl, ⟨fun o ho => ?_, fun o ho => ?_, fun o ho => ⟨?_, ?_⟩, fun _ => ⟨rfl, rfl, hnil, hkept⟩,
      fun h => absurd (hnow.symm.trans h) (by decide), rfl, rfl⟩⟩
    · exact (hact o).trans (if_pos ho)
    · rw [hnow]
      refine (hregs o).trans ?_
      rw [if_pos ho]
      rfl
    · refine (hregs o).trans ?_
      rw [ho]
      rfl
    · exact (hact o).trans (by rw [ho]; rfl)

theorem atBoundary_device {k : Nat} (hk : 9 ≤ k) : ∃ c i, blockSwitched k s = { s with intc := i, ctl := c } ∧ AtBoundary k s c := by
  have hnone (o : Nat) : ofKind k o = false := by
    unfold ofKind blockKind
    split_ifs <;> simp <;> omega
  cases hnow : s.ctl.inFlight && s.ctl.unswitched.contains k with
  | false =>
    exact ⟨s.ctl, s.intc, blockSwitched_idle hnow, fun o ho => by simp [hnone] at ho, fun o ho => by simp [hnone] at ho, fun o _ => ⟨rfl, rfl⟩,
      fun h => absurd (hnow.symm.trans h) (by decide), fun _ => ⟨rfl, rfl, rfl⟩, rfl, rfl⟩
  | true =>
    obtain ⟨i, hi⟩ := blockSwitched_eq hnow
    exact ⟨_, i, hi, fun o ho => by simp [hnone] at ho, fun o ho => by simp [hnone] at ho, fun o _ => ⟨rfl, rfl⟩,
      fun _ => ⟨rfl, rfl, fun h => if_pos (List.isEmpty_iff.2 h), fun _ o ho => by simp [hnone] at ho⟩,
      fun h => absurd (hnow.symm.trans h) (by decide), rfl, rfl⟩

/-! ### The counts of an interval (12 R300, R301) -/

theorem smGet_filter_quarter (m : SMap Nat) (p : Nat → Bool) (k c : Nat) :
    smGet zeroNat (m.filter fun e => p (e.1 / 4)) (4 * k + c % 4) = if p k then smGet zeroNat m (4 * k + c % 4) else 0 := by
  rw [smGet_filter_in zeroNat m (fun x => p (x / 4)), show (4 * k + c % 4) / 4 = k by omega]
  rfl

theorem smGet_foldl_put (f : Nat → Nat) (ks : List Nat) (m : SMap Nat) (k : Nat) :
    smGet zeroNat (ks.foldl (fun m k => smPut zeroNat m k (f k)) m) k = if k ∈ ks then f k else smGet zeroNat m k := by
  induction ks generalizing m with
  | nil => simp
  | cons j ks ih =>
    rw [List.foldl_cons, ih, smGet_smPut]
    by_cases hk : k ∈ ks
    · simp [hk]
    · by_cases hj : k = j
      · subst hj
        simp
      · simp [hk, hj]

theorem coreOf_armQueue_pc (only : Option Nat) (s : State) (n : Nat) : (coreOf (armQueue only s) n).pc = (coreOf s n).pc := by
  unfold coreOf armQueue
  generalize s.cores = cs
  induction cs with
  | nil => rfl
  | cons e cs ih =>
    simp only [List.map_cons, smGet]
    split
    · rfl
    · exact ih

theorem foldl_cohSend (ds : List Nat) (s : State) :
    ds.foldl (fun a d => cohSend d .epoch a.ctl.epoch 1 none a) s =
      { s with links := { s.links with
        cohOut := s.links.cohOut ++ ds.map fun d => { slot := d, kind := .epoch, line := s.ctl.epoch, tc := 1, data := none } } } := by
  induction ds generalizing s with
  | nil => simp
  | cons d ds ih =>
    rw [List.foldl_cons, ih]
    simp [cohSend]

/-- The counts after a boundary of kind `k` (12 R300, R301). -/
def CountsAtBoundary (k : Nat) (s t : State) : Prop :=
  if k < 8 then t.frk = (refillKind k s).frk
  else if k = 8 then t.frk.spent = [] ∧ t.frk.served = [] ∧ ∀ j, j < 8 → smGet zeroNat t.frk.short j =
    if periodNs t j = periodNs s j then 0 else (periodNs t j - nowNs s % periodNs t j) % periodNs t j
  else t.frk = s.frk

theorem periodBoundary_keeps (k : Nat) (hwf : smWf optDef s.ctl.committed = true) :
    AtBoundary k s (periodBoundary k s).ctl ∧ CountsAtBoundary k s (periodBoundary k s) ∧ SameBytes s (periodBoundary k s) ∧
      ∀ n, (coreOf (periodBoundary k s) n).pc = (coreOf s n).pc := by
  unfold periodBoundary
  split
  case isTrue hk =>
    obtain ⟨c, i, hs, hc⟩ := atBoundary_device (s := s) hk
    rw [hs]
    refine ⟨hc, ?_, fun _ => rfl, fun _ => rfl⟩
    rw [CountsAtBoundary, if_neg (by omega), if_neg (by omega)]
  case isFalse hk =>
    split
    case isTrue h8 =>
      subst h8
      obtain ⟨c, i, hs, hc⟩ := atBoundary_shadows (k := 8) hwf
      unfold frankSwitch
      rw [hs]
      refine ⟨hc, ?_, fun _ => rfl, fun _ => rfl⟩
      rw [CountsAtBoundary, if_neg (by omega), if_pos rfl]
      refine ⟨rfl, rfl, fun j hj => ?_⟩
      refine (smGet_foldl_put _ _ _ _).trans ?_
      rw [if_pos (List.mem_range.2 hj)]
      rfl
    case isFalse h8 =>
      obtain ⟨c, i, hs, hc⟩ := atBoundary_shadows (s := refillKind k s) (k := k) hwf
      rw [hs]
      have hcount (t : State) (ht : t.frk = (refillKind k s).frk) : CountsAtBoundary k s t := by
        rw [CountsAtBoundary, if_pos (by omega)]
        exact ht
      have hbound : AtBoundary k s c := ⟨hc.inForce, hc.committed, hc.others, hc.switched, hc.waiting, hc.staged, hc.epoch⟩
      dsimp only
      split
      · exact ⟨hbound, hcount _ rfl, fun _ => rfl, fun n => coreOf_armQueue_pc ..⟩
      · split
        · exact ⟨hbound, hcount _ rfl, fun _ => rfl, fun _ => rfl⟩
        · exact ⟨hbound, hcount _ rfl, fun _ => rfl, fun _ => rfl⟩

theorem ofKind_iff (k o : Nat) : ofKind k o = true ↔ o < 2 ^ 36 ∧ blockKind o = k := by simp [ofKind]

/-- Settles O33: the commands of the epoch, then the boundary of each kind. -/
theorem epochsCommitAtPeriodBoundaries : Obligations.EpochsCommitAtPeriodBoundaries := by
  unfold Obligations.EpochsCommitAtPeriodBoundaries
  refine ⟨fun w s hcommit hdiscard => ?commands, fun kind s hwf => ⟨periodBoundary kind.val s, rfl, ?boundary⟩⟩
  case commands =>
    intro joined e
    have hc (v : Word32) : Orders (.sysEpochCommit w v) w { name := .sysEpochCommit, off := 0x24, acc := .wo, bits := 0x1 } [] 0x24 v s :=
      ⟨by decide +kernel, rfl, rfl, rfl, by decide, hcommit⟩
    have hd (v : Word32) : Orders (.sysEpochDiscard w v) w { name := .sysEpochDiscard, off := 0x28, acc := .wo, bits := 0x1 } [] 0x28 v s :=
      ⟨by decide +kernel, rfl, rfl, rfl, by decide, hdiscard⟩
    refine ⟨fun hfly hpatch hjoin => (hc 1).commands ?_ rfl, fun hbusy => (hc 1).refuses (a := s) (st := 7) ?_ rfl (by decide),
      fun hfly => (hd 1).commands ?_ rfl, fun hfly => (hd 1).refuses (a := s) (st := 13) ?_ rfl (by decide),
      (hc 2).refuses (a := s) (st := 4) rfl rfl (by decide)⟩
    · show epochCommit s = _
      unfold epochCommit
      rw [if_neg (by simpa [hfly, hpatch] using hjoin)]
      simp only [foldl_cohSend]
      rfl
    · show epochCommit s = _
      unfold epochCommit
      rw [if_pos (by simpa using hbusy)]
      rfl
    · show epochDiscard s = _
      unfold epochDiscard
      rw [hfly]
      rfl
    · show epochDiscard s = _
      unfold epochDiscard
      rw [hfly]
      rfl
  case boundary =>
    obtain ⟨hb, hcounts, hbytes, hpc⟩ := periodBoundary_keeps kind.val hwf
    generalize periodBoundary kind.val s = t at hb hcounts hbytes hpc
    intro now left off
    have hoff (o : Nat) (ho : off o) : ofKind kind.val o = true := (ofKind_iff ..).2 ho
    refine ⟨fun o ho => ⟨hb.inForce o (hoff o ho), hb.committed o (hoff o ho)⟩, fun o ho hne => ?_, fun hk => ?_, fun hk => ?_, fun hk => ?_,
      fun hn => ?_, hb.waiting, hb.staged, hb.epoch, hbytes, hpc⟩
    · exact hb.others o (by simp [ofKind, hne])
    · rw [CountsAtBoundary, if_pos hk] at hcounts
      rw [hcounts]
      refine ⟨fun m c => ?_, fun k c => ?_, ?_⟩
      · refine (smGet_filter_quarter _ (fun x => meterKind x != kind.val) m c).trans ?_
        by_cases h : meterKind m = kind.val <;> simp [h]
      · refine (smGet_filter_quarter _ (fun x => resKind x != kind.val) k c).trans ?_
        by_cases h : resKind k = kind.val <;> simp [h]
      · have hshort : smGet zeroNat t.frk.short kind.val = 0 := by
          rw [hcounts]
          refine (smGet_filter_in zeroNat _ (fun x => x != kind.val) kind.val).trans ?_
          simp [zeroNat]
        unfold intervalNs
        rw [hshort]
        rfl
    · rw [CountsAtBoundary, if_neg (by omega), if_pos hk] at hcounts
      obtain ⟨hspent, hserved, hshort⟩ := hcounts
      refine ⟨fun m => ⟨by rw [hspent]; rfl, by rw [hserved]; rfl⟩, ?_⟩
      intro k hk r
      unfold intervalNs
      rw [hshort k hk]
      by_cases hp : periodNs t k = periodNs s k
      · simp [hp]
      · simp only [hp, if_false, false_or]
        rfl
    · rw [CountsAtBoundary, if_neg (by omega), if_neg (by omega)] at hcounts
      exact hcounts
    · obtain ⟨h1, h2, h3, h4⟩ := hb.switched hn
      exact ⟨h1, h2, h3, fun hne o ho => h4 hne o (hoff o ho)⟩

end Sys2Proof.Machine
end

section
/-! The directory of a home that lists a line twice (10 R255): the last answer of a write frees the first entry alone. -/

namespace Sys2Proof.Machine
-- One declaration after another: each `decide +kernel` waits for the kernel's turn, and many at once would hold a thread each.
set_option Elab.async false

/-- A write of line 0 by an agent, of which one answer is out. -/
def awaitedWrite : HomeReq := { kind := .fw, req := .agent, line := 0, body := { bytes := List.replicate 64 0 }, served := true }
def lastAnswer : SnoopAnswer := { pc := 3, line := 0, had := false, dirty := false, evicting := false }
/-- An entry of line 0 that names an L2 as its owner. -/
def entryOf (pc : Nat) : DirEntry := { line := 0, owner := some pc, sharers := 0, devs := 0, proxy := false }
/-- The home of line 0, which lists it twice. -/
def listedTwice : State := { ({} : State) with
  mem := { ({} : MemSt) with
    homeQ := [awaitedWrite], answers := [lastAnswer], slices := [(0, { ({} : Slice) with dir := [(0, some (entryOf 5)), (1, some (entryOf 7))] })] } }

theorem homeOf_listedTwice : homeOf listedTwice 0 = 0 := by decide +kernel
/-- The second entry still names an owner after the write. -/
theorem owner_afterAnswer : (match exec (.snoopAnswer 3 0) listedTwice with | .next t => (dirOf t 0 0).owner | _ => none) = some 7 := by
  decide +kernel

/-- Refutes O36: of a line that the directory lists twice the answer that ends a write frees the first entry alone, and the other names an owner. -/
theorem not_cachesAnswerSnoopsAndEvict : ¬ Obligations.CachesAnswerSnoopsAndEvict := by
  intro h
  obtain ⟨-, hanswer, -⟩ := h
  obtain ⟨-, -, hwrite⟩ := hanswer listedTwice 3 0 lastAnswer awaitedWrite [] 0 rfl rfl rfl (by simp) rfl rfl rfl rfl
  obtain ⟨t, ht, -, -, -, -, -, howner⟩ := hwrite rfl rfl rfl rfl
  rw [homeOf_listedTwice] at howner
  have hleft := owner_afterAnswer
  rw [ht] at hleft
  exact absurd (howner.symm.trans hleft) (by decide)

end Sys2Proof.Machine
end

section
/-! A parity error of an L1 within a second of the last one (20 R500): the record is merged, and no newer one is written. -/

namespace Sys2Proof.Machine
-- One declaration after another: each `decide +kernel` waits for the kernel's turn, and many at once would hold a thread each.
set_option Elab.async false

variable {s : State}

/-- Where the fault log of `s` holds a record, that of `t` does. -/
def LogHeld (s t : State) : Prop := s.resil.log ≠ [] → t.resil.log ≠ []

theorem LogHeld.refl : LogHeld s s := id

theorem resil_pulse (src : Nat) : (pulse src s).resil = s.resil := by
  obtain ⟨i, hi⟩ := pulse_eq (s := s) src
  rw [hi]
theorem resil_rollback (lc : Nat) : (rollback lc s).resil = s.resil := by
  unfold rollback freeSlots
  rfl
theorem resil_dropGroup (lc : Nat) : (dropGroup lc s).resil = s.resil := by
  unfold dropGroup
  split
  · rfl
  · exact resil_rollback lc

theorem log_addEntry (kind cls : Nat) (rec : List Byte) : (addEntry kind cls rec s).resil.log ≠ [] := by
  unfold addEntry
  extract_lets seq e r s1 s2
  have h1 : s1.resil.log ≠ [] := by
    show (e :: s.resil.log).take 4096 ≠ []
    simp
  have h2 : s2.resil.log ≠ [] := by
    dsimp only [s2]
    split
    · simpa [resil_pulse] using h1
    · exact h1
  split
  · rwa [resil_pulse]
  · exact h2
theorem log_logFault (kind cls unit : Nat) (lcore : Option Nat) (arg0 arg1 : Nat) (hc : cls ≠ 0) :
    (logFault kind cls unit lcore arg0 arg1 s).resil.log ≠ [] := by
  unfold logFault logRecord
  rw [if_neg hc]
  exact log_addEntry kind cls _

theorem logHeld_enterContain (bit : Nat) : LogHeld s (enterContain bit s) := by
  unfold enterContain
  split
  · exact .refl
  · intro _
    have hlog (b a : State) (h : a.resil.log ≠ []) : (noteMode b a).resil.log ≠ [] := by
      unfold noteMode
      split
      · exact h
      · exact h
    refine hlog _ _ ?_
    show (pulse 147 _).resil.log ≠ []
    rw [resil_pulse]
    exact log_logFault _ _ _ _ _ _ (by decide)
theorem logHeld_fenceUnit (unit cause : Nat) : LogHeld s (fenceUnit unit cause s) := by
  unfold fenceUnit
  split
  · exact .refl
  · intro _
    show (pulse 146 _).resil.log ≠ []
    rw [resil_pulse]
    exact log_logFault _ _ _ _ _ _ (by decide)
theorem logHeld_startReloc (lc trigger : Nat) (healthy : Bool) (ver : Option Word32) : LogHeld s (startReloc lc trigger healthy ver s) := by
  unfold startReloc
  split
  · exact .refl
  · split
    · split
      · exact .refl
      · intro h
        refine logHeld_enterContain _ (logHeld_fenceUnit _ _ ?_)
        show (dropGroup lc s).resil.log ≠ []
        rwa [resil_dropGroup]
    · dsimp only
      split
      · exact id
      · intro h
        show (dropGroup lc _).resil.log ≠ []
        rw [resil_dropGroup]
        exact h
theorem logHeld_afterArray (pc : Nat) : LogHeld s (afterArray pc s) := by
  unfold afterArray
  split
  · dsimp only
    split
    · exact logHeld_startReloc _ _ _ _
    · split
      · exact logHeld_startReloc _ _ _ _
      · exact .refl
  · exact .refl

/-- A device that has recorded a parity error of physical core 0 in this second; the record has been read and discarded. -/
def parityMerged : State := { ({} : State) with resil := { ({} : Resil) with merged := [(5, uCore 0, 0, 1)] } }
/-- The next parity error writes no record. -/
theorem log_parityMerged : (match exec (.cachePatrolRead 0 0 0 0 1) parityMerged with | .next t => t.resil.log | _ => []) = [] := by decide +kernel

/-- Refutes O38: a parity error in the second of another one of the same L1 is merged into its record, and is not the newest of the log. -/
theorem not_cacheErrorsAndCacheServices : ¬ Obligations.CacheErrorsAndCacheServices := by
  intro h
  obtain ⟨hpatrol, -⟩ := h
  obtain ⟨-, -, -, -, hparity, -⟩ := hpatrol 0 0 0 parityMerged
  obtain ⟨v, ht, -, -, -, -, -, e, rest, hlog, -⟩ := hparity
  have hempty := log_parityMerged
  rw [ht] at hempty
  exact logHeld_afterArray (s := v) 0 (by simp [hlog]) hempty

end Sys2Proof.Machine
end

section
/-! A lane re-centred within a second of the last one that was logged (20 R500): the record is merged, and no newer one is written. -/

namespace Sys2Proof.Machine
-- One declaration after another: each `decide +kernel` waits for the kernel's turn, and many at once would hold a thread each.
set_option Elab.async false

/-- A hot controller that has logged a re-centred lane in this second; the record has been read and discarded. -/
def laneMerged : State := { ({} : State) with
  resil := { ({} : Resil) with merged := [(0x10D, 0, 0, 1)] }, mem := { ({} : MemSt) with ctls := [(0, { ({} : MemCtl) with temp := 255 })] } }
/-- The next lane, 12 codes wide, writes no record. -/
theorem log_laneMerged : (match exec (.recentre 0 0 false 0 12 false) laneMerged with | .next t => t.resil.log | _ => []) = [] := by decide +kernel

/-- Refutes O39: a re-centred lane in the second of another one of its controller is merged into its record, and is not the newest of the log. -/
theorem not_memoryControllersServeLines : ¬ Obligations.MemoryControllersServeLines := by
  intro h
  obtain ⟨-, -, -, hrecentre⟩ := h
  obtain ⟨-, -, hlogged, -⟩ := hrecentre laneMerged 0 0 0 12 false false
  obtain ⟨t, ht, ⟨e, rest, hlog, -⟩, -⟩ := hlogged (by decide +kernel) (by decide) (by decide)
  have hempty := log_laneMerged
  rw [ht] at hempty
  simp [hlog] at hempty

end Sys2Proof.Machine
end

section
/-! A ring's head in a poisoned line that a waiting write of the whole line is about to make good (10 R258; 11 R290): it is refilled. -/

namespace Sys2Proof.Machine
-- One declaration after another: each `decide +kernel` waits for the kernel's turn, and many at once would hold a thread each.
set_option Elab.async false

/-- Queue 0, with one letter in its ring, at address 0. -/
def oneInRing : Queue :=
  { ({} : Queue) with state := .active, words := [BitVec.ofNat 32 (2 ^ 23), BitVec.ofNat 32 (2 ^ 16)], ring := [{ pa := 0, postmark := 0 }] }
/-- Line 0 is poisoned, and a write of the whole line waits at its home. -/
def writeBeforeRefill : State := { ({} : State) with
  office := { ({} : Office) with queues := [(0, oneInRing)] },
  mem := { ({} : MemSt) with
    poison := [(0, true)], homeQ := [{ kind := .fw, req := .agent, line := 0, body := { bytes := List.replicate 64 0 } }] } }
/-- The write goes first, and no dead letter is written. -/
theorem dlrHead_writeBeforeRefill : (match exec (.bulkRefill 0) writeBeforeRefill with | .next t => dlrHead t | _ => 0) = 0 := by decide +kernel

/-- Refutes O42: where a write of the whole line waits ahead of the refill, the ring's head is no longer poisoned when it is read. -/
theorem not_lettersAreStoredReportedOrKept : ¬ Obligations.LettersAreStoredReportedOrKept := by
  intro h
  obtain ⟨-, -, -, hrefill⟩ := h
  obtain ⟨-, hdead, -⟩ := hrefill writeBeforeRefill 0
  obtain ⟨t, ht, hhead, -⟩ := hdead { pa := 0, postmark := 0 } [] rfl (by decide +kernel) (by decide +kernel) (by decide +kernel) rfl (by decide +kernel)
    (by decide +kernel) (by decide +kernel)
  have hkept := dlrHead_writeBeforeRefill
  rw [ht] at hkept
  have hfirst : dlrHead writeBeforeRefill = 0 := by decide +kernel
  rw [hfirst] at hhead
  exact absurd (hkept.symm.trans hhead) (by decide)

end Sys2Proof.Machine
end

section
/-! DEEP_DOZE of a device that names an island without a rule of its own as a core's (22 R529, R534): the island stays OFF, and its core
comes back without its predictions. -/

namespace Sys2Proof.Machine
-- One declaration after another: each `decide +kernel` waits for the kernel's turn, and many at once would hold a thread each.
set_option Elab.async false

/-- A core with one entry on its return stack. -/
def oneReturn : Core := { ({} : Core) with retStack := [{ level := 0, tag := 0, addr := 0 }] }
/-- Core 0 bound to number 700, of which no core island is, and which is OFF. -/
def strayIsland : State := { ({} : State) with
  cores := [(0, oneReturn)], resil := { ({} : Resil) with bound := 1, lcMap := [(0, some 700)] },
  power := { ({} : Power) with cur := some .deepEntry, islands := [(700, .offState)] } }
theorem deepIsland_strayIsland : deepIsland strayIsland (pcOf strayIsland 0) = .active := by decide +kernel
/-- The islands are set one after the other, and nothing beside them. -/
theorem foldl_setIsland_other (f : Nat → IslandState) (l : List Nat) (n : Nat) (h : n ∉ l) (s : State) :
    let t := l.foldl (fun a i => setIsland i (f i) a) s
    smGet islandDef t.power.islands n = smGet islandDef s.power.islands n ∧ t = { s with power := { s.power with islands := t.power.islands } } := by
  induction l generalizing s with
  | nil => exact ⟨rfl, rfl⟩
  | cons i l ih =>
    have hn : n ≠ i := fun e => h (by simp [e])
    obtain ⟨hsame, hrest⟩ := ih (fun hm => h (List.mem_cons_of_mem i hm)) (setIsland i (f i) s)
    exact ⟨hsame.trans (smGet_smPut_other _ _ _ hn), hrest⟩

theorem setIslands_other (f : Nat → IslandState) (n : Nat) (hcore : 615 ≤ n) (hl2 : n < 1000) (s : State) :
    smGet islandDef (setIslands f s).power.islands n = smGet islandDef s.power.islands n ∧
      setIslands f s = { s with power := { s.power with islands := (setIslands f s).power.islands } } := by
  have hn : n ∉ List.range 615 ++ (List.range 576).map l2Island := by simp only [List.mem_append, List.mem_range, List.mem_map, l2Island]; omega
  unfold setIslands
  generalize List.range 615 ++ (List.range 576).map l2Island = l at hn
  exact foldl_setIsland_other f l n hn s

/-- A core whose island is OFF once the islands are set comes back without its predictions. -/
theorem forgetOff_strayIsland (m : SMap IslandState) (s : State) (hm : smGet islandDef m 700 = .offState) (hbound : s.resil.bound = 1)
    (hmap : s.resil.lcMap = [(0, some 700)]) :
    (coreOf (forgetOff { s with power := { s.power with islands := m } }) 0).retStack = [] := by
  have hpc : pcOf { s with power := { s.power with islands := m } } 0 = 700 := by simp only [pcOf, hmap]; rfl
  simp only [forgetOff, boundCores, hbound, List.range_one, List.foldl_cons, List.foldl_nil, hpc, hm, if_true]
  simp only [updCore, setCore, coreOf, smGet_smPut_same, forgetCore]

theorem afterTransition_idle (s : State) (hlatch : s.power.wakeLatch = 0) (hpend : s.power.pend = none) : afterTransition s = s := by
  simp only [afterTransition, hlatch, hpend]
  split
  · rfl
  · simp

theorem setMode_eq (m : DevMode) (s : State) : (setMode m s).cores = s.cores ∧ (setMode m s).power = { s.power with mode := m } := by
  simp only [setMode, noteMode]
  split <;> exact ⟨rfl, rfl⟩

theorem power_forgetOff (s : State) : (forgetOff s).power = s.power :=
  List.foldlRecOn (motive := fun a : State => a.power = s.power) (boundCores s) _ rfl fun a ha lc _ => by
    split
    · exact ha
    · exact ha

/-- DEEP_DOZE entered with nothing waiting: of a device without caches filled the islands alone are set before the predictions are lost. -/
theorem cores_setMode_forgetOff (m : DevMode) (f : Nat → IslandState) (s : State) (hlatch : s.power.wakeLatch = 0) (hpend : s.power.pend = none) :
    (afterTransition (setMode m (forgetOff (setIslands f s)))).cores = (forgetOff (setIslands f s)).cores := by
  obtain ⟨-, hset⟩ := setIslands_other f 700 (by omega) (by omega) s
  generalize setIslands f s = t at hset
  have hislands : t.power = { s.power with islands := t.power.islands } := by
    rw [hset]
  have hpower : (setMode m (forgetOff t)).power = { s.power with islands := t.power.islands, mode := m } := by
    rw [(setMode_eq m _).2, power_forgetOff, hislands]
  rw [afterTransition_idle _ (by rw [hpower]; exact hlatch) (by rw [hpower]; exact hpend), (setMode_eq m _).1]

/-- What the entry leaves as it was before the islands are set, where no cache holds a line. -/
theorem deepEnd_eq (s : State) (hcur : s.power.cur = some .deepEntry) (hemu : s.power.emu = false) (hpriv : s.mem.priv = []) (hslices : s.mem.slices = []) :
    ∃ f x, deepEnd s = afterTransition (setMode .deepDoze (forgetOff (setIslands f x))) ∧ x.power.wakeLatch = s.power.wakeLatch ∧
      x.power.pend = s.power.pend ∧ x.power.islands = s.power.islands ∧ x.resil = s.resil := by
  have hbump : ∀ (n : Nat) (y : State), (bump n y).mem = y.mem := fun _ _ => rfl
  rw [deepEnd, if_neg (by simp [hcur])]
  simp only [hbump, setPower, hpriv, hslices, hemu, Bool.false_eq_true, if_false, List.foldl_nil]
  exact ⟨_, _, rfl, rfl, rfl, rfl, rfl⟩

/-- The return stack is lost. -/
theorem retStack_deepEnd : (coreOf (deepEnd strayIsland) 0).retStack = [] := by
  obtain ⟨f, x, hend, hlatch, hpend, hislands, hresil⟩ := deepEnd_eq strayIsland rfl rfl rfl rfl
  obtain ⟨hoff, hset⟩ := setIslands_other f 700 (by omega) (by omega) x
  rw [hend, coreOf, cores_setMode_forgetOff _ _ _ hlatch hpend, hset]
  exact forgetOff_strayIsland _ x (by rw [hoff, hislands]; rfl) (by rw [hresil]; rfl) (by rw [hresil]; rfl)

/-- Refutes O54: a core bound to a number that no island of a core has loses its predictions where that island is OFF. -/
theorem not_powerAndBootFollowTheirTriggers : ¬ Obligations.PowerAndBootFollowTheirTriggers := by
  intro h
  obtain ⟨hpower, -⟩ := h
  obtain ⟨-, -, -, -, -, -, -, -, -, -, -, -, -, -, -, -, hdeep, -⟩ := hpower strayIsland
  obtain ⟨t, ht, -, -, -, -, -, heach⟩ := hdeep rfl rfl rfl
  obtain ⟨-, -, -, -, -, -, hcores⟩ := heach rfl
  obtain ⟨-, -, -, -, hsame⟩ := hcores 0 (by decide)
  have hlost := retStack_deepEnd
  have hexec : exec .deepDozeEntryComplete strayIsland = .next (deepEnd strayIsland) := rfl
  have hend : t = deepEnd strayIsland := Host.Outcome.next.inj (ht.symm.trans hexec)
  have hcore : coreOf t 0 = coreOf strayIsland 0 := hsame (by decide) (by rw [deepIsland_strayIsland]; decide)
  have hheld : (coreOf strayIsland 0).retStack = oneReturn.retStack := rfl
  rw [← hend, hcore, hheld] at hlost
  exact absurd hlost (by decide)

end Sys2Proof.Machine
end

section
/-! A device out of step with its parent whose servo is not yet synchronised (15 R398): it slews, but its servo stays UNSYNC. -/

namespace Sys2Proof.Machine
-- One declaration after another: each `decide +kernel` waits for the kernel's turn, and many at once would hold a thread each.
set_option Elab.async false

/-- Port 0 in service, the parent by a disagreement, of a device whose time runs and is not yet in step. -/
def unsyncRunning : State := { ({} : State) with
  links := { ({} : Links) with ports := [(0, { ({} : Port) with state := .up })], tempParent := some 0, servo := .unsync },
  time := { ({} : Time) with started := true } }
/-- 50,000 units of 1/256 ns off: the servo is as it was. -/
theorem servo_unsyncRunning : (match exec (.timeResp 0 100000 0 0 0 0) unsyncRunning with | .next t => t.links.servo | _ => .reslew) = .unsync := by
  decide +kernel
theorem time256_unsyncRunning : time256 unsyncRunning = 0 := by decide +kernel
theorem asymmetry_unsyncRunning : (reg unsyncRunning (vxBase 0 + 0x204)).toInt = 0 := by decide +kernel

/-- Refutes O46: from UNSYNC, with time running and an offset beyond 20 ns, the rate slews and the servo stays UNSYNC. -/
theorem not_devicesJoinSplitAndKeepTime : ¬ Obligations.DevicesJoinSplitAndKeepTime := by
  intro h
  obtain ⟨-, -, -, -, -, -, -, -, -, -, -, -, -, htime⟩ := h unsyncRunning 0 (.core 0)
  obtain ⟨-, -, hparent⟩ := htime 100000 0 0 0 0
  obtain ⟨hsteer, -⟩ := hparent rfl rfl
  obtain ⟨-, -, hslew, -⟩ := hsteer rfl
  obtain ⟨-, hfar⟩ := hslew (by decide) (.inr ⟨rfl, rfl⟩)
  obtain ⟨t, ht, -, hservo, -⟩ := hfar (by
    have ht1 : (port unsyncRunning 0).t1 = 0 := rfl
    show ¬(_ ∧ _)
    simp only [Fin.val_zero, time256_unsyncRunning, asymmetry_unsyncRunning, ht1]
    decide)
  have hkept := servo_unsyncRunning
  rw [ht] at hkept
  exact absurd (hkept.symm.trans hservo) (by decide)

end Sys2Proof.Machine
end

section
/-! A mailbox request of a command that the table does not have (24 R586): it is answered ST_NOREG, which is 1 (02 R40). -/

namespace Sys2Proof.Machine
-- One declaration after another: each `decide +kernel` waits for the kernel's turn, and many at once would hold a thread each.
set_option Elab.async false

/-- What the mailbox replies to command 0, with a sound PEC, at reset. -/
theorem reply_unknownCommand :
    (match exec (.mailboxRequest 0 0 0 [] (crc8 [0, 0, 0])) ({} : State) with | .next t => t.pads.reply.map (·.status) | _ => none) = some 1 := by
  decide +kernel

/-- Refutes O56: an unknown command is answered with the code of a register that is not there, 1, and not 5, which is ST_LOCKED. -/
theorem not_theMailboxServesItsCommands : ¬ Obligations.TheMailboxServesItsCommands := by
  intro h
  obtain ⟨hrequest, -⟩ := h
  obtain ⟨-, htaken⟩ := hrequest {} 0 0 0 [] (crc8 [0, 0, 0])
  obtain ⟨-, hunknown, -⟩ := htaken (by decide) rfl
  obtain ⟨t, ht, hreply⟩ := hunknown ⟨rfl, by decide, rfl⟩ (.inl rfl)
  have hstatus := reply_unknownCommand
  rw [ht] at hstatus
  simp only [hreply, Option.map_some, Option.some.injEq] at hstatus
  exact absurd hstatus (by decide)

end Sys2Proof.Machine
end

section
/-! The commands of an L3 slice (09 R233 to R239). -/

namespace Sys2Proof.Machine
-- One declaration after another: each `decide +kernel` waits for the kernel's turn, and many at once would hold a thread each.
set_option Elab.async false

variable {s : State} {n : Nat}

@[simp] theorem slice_setSlice (n m : Nat) (x : Slice) (s : State) : slice (setSlice n x s) m = if m = n then x else slice s m := by
  simp [slice, setSlice, smGet_smPut]
@[simp] theorem slice_writeBytes (n pa : Nat) (bs : List Byte) (s : State) : slice (writeBytes pa bs s) n = slice s n := rfl
@[simp] theorem slice_exposeStale (n line : Nat) (st : Option Vec) (s : State) : slice (exposeStale line st s) n = slice s n := by
  cases st <;> rfl
@[simp] theorem slice_zeroBytes (n pa k : Nat) (s : State) : slice (zeroBytes pa k s) n = slice s n := rfl
theorem readByte_setSlice (n a : Nat) (x : Slice) (s : State) : readByte (setSlice n x s) a = readByte s a := rfl

/-! ### Masks of scratchpad ways -/

theorem countOnes_congr {w : Nat} {a b : BitVec w} : ∀ k, (∀ i, i < k → a.getLsbD i = b.getLsbD i) → countOnes a k = countOnes b k
  | 0, _ => rfl
  | k + 1, h => by rw [countOnes, countOnes, h k (by omega), countOnes_congr k fun i hi => h i (by omega)]

theorem getLsbD_clearBit16 (m : BitVec 16) (w i : Nat) : (clearBit16 m w).getLsbD i = (m.getLsbD i && decide (i ≠ w)) := by
  by_cases hi : i < 16
  · simp only [clearBit16, BitVec.getLsbD_and, BitVec.getLsbD_not, BitVec.getLsbD_ofNat, Nat.testBit_two_pow, hi, decide_true, Bool.true_and, eq_comm,
      ne_eq, decide_not]
  · simp [BitVec.getLsbD_of_ge _ _ (Nat.le_of_not_lt hi)]

theorem countOnes_clearBit16 {m : BitVec 16} {w : Nat} (hm : m.getLsbD w = true) (k : Nat) :
    countOnes (clearBit16 m w) k + (if w < k then 1 else 0) = countOnes m k := by
  induction k with
  | zero => rfl
  | succ k ih =>
    rw [countOnes, countOnes, ← ih, getLsbD_clearBit16]
    by_cases hk : k = w
    · subst hk
      simp [hm]
      omega
    · have hlt : w < k + 1 ↔ w < k := by omega
      simp only [hk, ne_eq, not_false_eq_true, decide_true, Bool.and_true, hlt]
      omega

theorem countOnes_pos {m : BitVec 16} {k : Nat} (h : 0 < countOnes m k) : ∃ w, (List.range k).find? (fun w => m.getLsbD w) = some w := by
  by_contra hno
  have hnone : (List.range k).find? (fun w => m.getLsbD w) = none := Option.eq_none_iff_forall_ne_some.2 fun w hw => hno ⟨w, hw⟩
  have hzero : ∀ i, i < k → m.getLsbD i = (0 : BitVec 16).getLsbD i := fun i hi => by
    simpa using List.find?_eq_none.1 hnone i (List.mem_range.2 hi)
  have hcount : ∀ k, countOnes (0 : BitVec 16) k = 0 := fun k => by
    induction k with
    | zero => rfl
    | succ k ih => rw [countOnes, ih]; simp
  rw [countOnes_congr k hzero, hcount] at h
  exact absurd h (by decide)

/-- Ways given up are as many as there are to give up. -/
theorem countOnes_fewerSp (m : BitVec 16) (k : Nat) (h : k ≤ countOnes m 16) : countOnes (fewerSp m k) 16 = countOnes m 16 - k := by
  induction k generalizing m with
  | zero => rfl
  | succ k ih =>
    obtain ⟨w, hw⟩ := countOnes_pos (m := m) (k := 16) (by omega)
    have hlt : w < 16 := List.mem_range.1 (List.mem_of_find?_eq_some hw)
    have hbit : m.getLsbD w = true := by simpa using List.find?_some hw
    have hless := countOnes_clearBit16 hbit 16
    rw [if_pos hlt] at hless
    simp only [fewerSp, hw]
    rw [ih _ (by omega)]
    omega

/-- Ways taken for scratchpad are taken beside those that are. -/
theorem moreSp_keeps (retired m : BitVec 16) (k i : Nat) (h : m.getLsbD i = true) : (moreSp retired m k).getLsbD i = true := by
  induction k generalizing m with
  | zero => exact h
  | succ k ih =>
    rw [moreSp]
    split
    · exact ih _ (by simp [setBit16, h])
    · exact h

/-! ### A command is written -/

/-- The blocks that are written from S up (02 R36). -/
theorem blockLevel_supervisor {off : Nat} (hlo : 0x100000 ≤ off) (hhi : off < 0x6000000) : blockLevel off true = 1 := by
  rw [blockLevel, if_neg (by omega), if_neg (by omega), if_neg (by omega), if_pos (by omega)]

theorem findReg_hnL3Cmd : ∀ n : Fin 256, findReg (hnOff n.val 0x8004) =
    some ({ name := .hnL3Cmd, off := 0x1008004, dims := [(0x10000, 256)], acc := .wo, bits := 0xf000000f }, [n.val]) := by decide +kernel

theorem l3Cmd_orders {i : Instr} {w : Writer} {n : Fin 256} {v : Word32} {s : State} (hi : exec i s = .next (sdc w (hnOff n.val 0x8004) v s))
    (h : Reaches w 1 0 (hnOff n.val 0x8004) s) :
    Orders i w { name := .hnL3Cmd, off := 0x1008004, dims := [(0x10000, 256)], acc := .wo, bits := 0xf000000f } [n.val] (hnOff n.val 0x8004) v s := by
  refine ⟨findReg_hnL3Cmd n, hi, rfl, rfl, by decide, ?_⟩
  have hlevel : needLevel s { name := .hnL3Cmd, off := 0x1008004, dims := [(0x10000, 256)], acc := .wo, bits := 0xf000000f } (hnOff n.val 0x8004) true = 1 := by
    have hn := n.isLt
    generalize hoff : hnOff n.val 0x8004 = off
    exact blockLevel_supervisor (by rw [← hoff, hnOff]; omega) (by rw [← hoff, hnOff]; omega)
  rw [hlevel]
  exact h

theorem fld_opWord (op k : Nat) (hop : op < 16) (hk : k < 16) : let v := opWord op (BitVec.ofNat 28 k)
    fld v 31 28 = op ∧ fld v 3 0 = k ∧ fld v 27 4 = 0 := by
  simp only [fld, natBits, opWord, BitVec.toNat_ofNat]
  omega

/-! ### A command starts, or is refused -/

section
variable {w : Writer} {n : Fin 256}

theorem command_hnL3Cmd (w : Writer) (n off : Nat) (v : Word32) (s : State) :
    command mcmd w { name := .hnL3Cmd, off := 0x1008004, dims := [(0x10000, 256)], acc := .wo, bits := 0xf000000f } [n] off v s = l3Cmd n v s := rfl

theorem l3Cmd_opWord (op k : Nat) (hop : 0 < op ∧ op < 5) (hk : k < 16) (hways : op = 4 ∨ k = 0) :
    l3Cmd n.val (opWord op (BitVec.ofNat 28 k)) s =
      if op = 2 ∧ (slice s n.val).removed then (14, s)
      else if op = 4 ∧ (8 < k ∨ healthyWays (slice s n.val).retired < k) then (3, s)
      else if op = 3 ∧ (slice s n.val).enabled then (6, s)
      else if (slice s n.val).cmd.isSome ∨ (slice s n.val).retiring.isSome then (7, s)
      else if (op = 1 ∧ !(slice s n.val).enabled) ∨ (op = 2 ∧ (slice s n.val).enabled) then (0, s)
      else
        let j := countOnes (slice s n.val).spMask 16
        let s1 := if op = 4 ∧ k < j then
            zeroBytes (sliceAperture s n.val + k * 0x40000) ((j - k) * 0x40000)
              (setSlice n.val { slice s n.val with spMask := fewerSp (slice s n.val).spMask (j - k) } s)
          else s
        (0, setSlice n.val { slice s1 n.val with cmd := some { op := op, ways := k } } s1) := by
  obtain ⟨hop', hk', hres⟩ := fld_opWord op k (by omega) hk
  have hfields : ¬(fld (opWord op (BitVec.ofNat 28 k)) 27 4 ≠ 0 ∨ op = 0 ∨ 4 < op ∨ (op ≠ 4 ∧ k ≠ 0)) := by omega
  unfold l3Cmd
  simp only [hop', hk', hres, stFenced, stRange, stRunning, stBusy, stOk]
  rw [hres] at hfields
  simp only [if_neg hfields]

/-- The device once scratchpad ways of a slice are given up: their bytes read zero, and the command is under way. -/
def fewerWays (n k : Nat) (s : State) : State :=
  let j := countOnes (slice s n).spMask 16
  let x := { slice s n with spMask := fewerSp (slice s n).spMask (j - k) }
  setSlice n { x with cmd := some { op := 4, ways := k } } (zeroBytes (sliceAperture s n + k * 0x40000) ((j - k) * 0x40000) (setSlice n x s))

/-- Where nothing keeps it, a command of the slice is under way. -/
theorem starts_slice {i : Instr} {op k : Nat} (hop : 0 < op ∧ op < 5) (hk : k < 16) (hways : op = 4 ∨ k = 0)
    (ho : Orders i w { name := .hnL3Cmd, off := 0x1008004, dims := [(0x10000, 256)], acc := .wo, bits := 0xf000000f } [n.val] (hnOff n.val 0x8004)
      (opWord op (BitVec.ofNat 28 k)) s)
    (hcmd : (slice s n.val).cmd = none) (hret : (slice s n.val).retiring = none)
    (hok : ¬(op = 2 ∧ (slice s n.val).removed = true) ∧ ¬(op = 4 ∧ (8 < k ∨ healthyWays (slice s n.val).retired < k)) ∧
      ¬(op = 3 ∧ (slice s n.val).enabled = true) ∧ ¬((op = 1 ∧ (slice s n.val).enabled = false) ∨ (op = 2 ∧ (slice s n.val).enabled = true)) ∧
      ¬(op = 4 ∧ k < countOnes (slice s n.val).spMask 16)) :
    Commands i w (hnOff n.val 0x8004) (opWord op (BitVec.ofNat 28 k)) s fun u =>
      slice u n.val = { slice s n.val with cmd := some { op := op, ways := k } } ∧ { u with mem := { u.mem with slices := s.mem.slices } } = s := by
  obtain ⟨h2, h4, h3, h1, hj⟩ := hok
  refine ho.commands (u := setSlice n.val { slice s n.val with cmd := some { op := op, ways := k } } s) ?_ ⟨by simp, rfl⟩
  rw [command_hnL3Cmd, l3Cmd_opWord op k hop hk hways, if_neg h2, if_neg h4, if_neg h3, if_neg (by simp [hcmd, hret]), if_neg (by simpa using h1)]
  simp only [if_neg hj]
end

theorem sliceCommands_start (w : Writer) (n : Fin 256) (s : State) (k : Nat) (h : Reaches w 1 0 (hnOff n.val 0x8004) s) :
    let o := hnOff n.val 0x8004
    let sl := slice s n.val
    let j := countOnes sl.spMask 16
    let starts (i : Instr) (op : Nat) (x : BitVec 28) : Prop := Commands i w o (BitVec.ofNat 32 (op * 2 ^ 28 + x.toNat)) s fun u =>
      slice u n.val = { sl with cmd := some { op := op, ways := x.toNat } } ∧ { u with mem := { u.mem with slices := s.mem.slices } } = s
    (sl.cmd = none → sl.retiring = none →
      (sl.enabled = true → starts (.l3Disable w n 0) 1 0) ∧ (sl.enabled = false → sl.removed = false → starts (.l3Enable w n 0) 2 0) ∧
      (sl.enabled = false → Commands (.l3Disable w n 0) w o 0x10000000 s fun u => u = s) ∧
      (sl.enabled = true → sl.removed = false → Commands (.l3Enable w n 0) w o 0x20000000 s fun u => u = s) ∧ (sl.enabled = false → starts (.l3InvalidateAll w n 0) 3 0) ∧
      (k ≤ 8 → k ≤ healthyWays sl.retired → j ≤ k → starts (.l3SetScratchpadWays w n (BitVec.ofNat 28 k)) 4 (BitVec.ofNat 28 k)) ∧
      (k < j → k ≤ 8 → k ≤ healthyWays sl.retired → Completes (.l3SetScratchpadWays w n (BitVec.ofNat 28 k)) s fun t =>
        t.ans.status = 0 ∧ countOnes (slice t n.val).spMask 16 = k ∧ (slice t n.val).cmd = some { op := 4, ways := k } ∧
        (∀ a, sliceAperture s n.val + k * 0x40000 ≤ a → a < sliceAperture s n.val + j * 0x40000 → readByte t a = 0) ∧
        ∀ a, (a < sliceAperture s n.val + k * 0x40000 ∨ sliceAperture s n.val + j * 0x40000 ≤ a) → readByte t a = readByte s a)) ∧
    (sl.enabled = true → Refuses (.l3InvalidateAll w n 0) s 6) ∧
    (sl.removed = true → Refuses (.l3Enable w n 0) s 14) ∧
    (sl.cmd ≠ none ∨ sl.retiring ≠ none → Refuses (.l3Disable w n 0) s 7) ∧ Refuses (.l3SetScratchpadWays w n 9) s 3 := by
  intro o sl j starts
  have hdis := l3Cmd_orders (i := .l3Disable w n 0) (v := opWord 1 (BitVec.ofNat 28 0)) rfl h
  have hen := l3Cmd_orders (i := .l3Enable w n 0) (v := opWord 2 (BitVec.ofNat 28 0)) rfl h
  have hinv := l3Cmd_orders (i := .l3InvalidateAll w n 0) (v := opWord 3 (BitVec.ofNat 28 0)) rfl h
  have hset (k : Nat) := l3Cmd_orders (i := .l3SetScratchpadWays w n (BitVec.ofNat 28 k)) (v := opWord 4 (BitVec.ofNat 28 k)) rfl h
  refine ⟨fun hcmd hret => ⟨fun hon => ?_, fun hoff hin => ?_, fun hoff => ?_, fun hon hin => ?_, fun hoff => ?_, fun h8 hh hj => ?_, fun hlt h8 hh => ?_⟩,
    fun hon => ?_, fun hrem => ?_, fun hbusy => ?_, ?_⟩
  · exact starts_slice ⟨by decide, by decide⟩ (by decide) (.inr rfl) hdis hcmd hret (by simp [show (slice s n.val).enabled = true from hon])
  · exact starts_slice ⟨by decide, by decide⟩ (by decide) (.inr rfl) hen hcmd hret
      (by simp [show (slice s n.val).enabled = false from hoff, show (slice s n.val).removed = false from hin])
  · refine hdis.commands (u := s) ?_ rfl
    rw [command_hnL3Cmd, l3Cmd_opWord 1 0 ⟨by decide, by decide⟩ (by decide) (.inr rfl), if_neg (by simp), if_neg (by simp), if_neg (by simp),
      if_neg (by simp [show (slice s n.val).cmd = none from hcmd, show (slice s n.val).retiring = none from hret]),
      if_pos (by simp [show (slice s n.val).enabled = false from hoff])]
  · refine hen.commands (u := s) ?_ rfl
    rw [command_hnL3Cmd, l3Cmd_opWord 2 0 ⟨by decide, by decide⟩ (by decide) (.inr rfl), if_neg (by simp [show (slice s n.val).removed = false from hin]), if_neg (by simp),
      if_neg (by simp), if_neg (by simp [show (slice s n.val).cmd = none from hcmd, show (slice s n.val).retiring = none from hret]),
      if_pos (by simp [show (slice s n.val).enabled = true from hon])]
  · exact starts_slice ⟨by decide, by decide⟩ (by decide) (.inr rfl) hinv hcmd hret (by simp [show (slice s n.val).enabled = false from hoff])
  · have hk : (BitVec.ofNat 28 k).toNat = k := Nat.mod_eq_of_lt (by omega)
    have hstart := starts_slice ⟨by decide, by decide⟩ (by omega) (.inl rfl) (hset k) hcmd hret
      (by simp [show k ≤ 8 from h8, show k ≤ healthyWays (slice s n.val).retired from hh, show countOnes (slice s n.val).spMask 16 ≤ k from hj])
    have hword : opWord 4 (BitVec.ofNat 28 k) = BitVec.ofNat 32 (4 * 2 ^ 28 + (BitVec.ofNat 28 k).toNat) := rfl
    rw [hword, hk] at hstart
    simp only [starts, hk]
    exact hstart
  · have hcommand : command mcmd w { name := .hnL3Cmd, off := 0x1008004, dims := [(0x10000, 256)], acc := .wo, bits := 0xf000000f } [n.val] o
        (opWord 4 (BitVec.ofNat 28 k)) s = (0, fewerWays n.val k s) := by
      rw [command_hnL3Cmd, l3Cmd_opWord 4 k ⟨by decide, by decide⟩ (by omega) (.inl rfl), if_neg (by simp),
        if_neg (by simp [show k ≤ 8 from h8, show k ≤ healthyWays (slice s n.val).retired from hh]), if_neg (by simp),
        if_neg (by simp [show (slice s n.val).cmd = none from hcmd, show (slice s n.val).retiring = none from hret]), if_neg (by simp)]
      simp only [show k < countOnes (slice s n.val).spMask 16 from hlt, and_self, if_true, fewerWays, slice_zeroBytes, slice_setSlice]
    obtain ⟨t, ht, u, hu, hans, -, -, ht'⟩ := (hset k).commands (E := fun u => u = fewerWays n.val k s) hcommand rfl
    have hmem : t.mem = (fewerWays n.val k s).mem := by
      rw [← hu]
      have hkept := congrArg State.mem ht'
      exact hkept
    have hslice (m : Nat) : slice t m = slice (fewerWays n.val k s) m := congrArg (fun x : MemSt => smGet sliceDef x.slices m) hmem
    have hbyte (a : Nat) : readByte t a = readByte (fewerWays n.val k s) a := congrArg (fun x : MemSt => smGet byteDef x.bytes a) hmem
    have hspan : k * 0x40000 + (countOnes (slice s n.val).spMask 16 - k) * 0x40000 = j * 0x40000 := by
      have hj : j = countOnes (slice s n.val).spMask 16 := rfl
      omega
    refine ⟨t, ht, by rw [hans], ?_, ?_, fun a hlo hhi => ?_, fun a hout => ?_⟩
    · rw [hslice]
      simp only [fewerWays, slice_setSlice, slice_zeroBytes, if_true]
      rw [countOnes_fewerSp _ _ (by omega)]
      exact Nat.sub_sub_self hlt.le
    · rw [hslice]
      simp [fewerWays]
    · rw [hbyte, fewerWays, readByte_setSlice, readByte_zeroBytes, if_pos (by omega)]
    · rw [hbyte, fewerWays, readByte_setSlice, readByte_zeroBytes, if_neg (by omega), readByte_setSlice]
  · refine hinv.refuses (a := s) ?_ rfl (by decide)
    rw [command_hnL3Cmd, l3Cmd_opWord 3 0 ⟨by decide, by decide⟩ (by decide) (.inr rfl), if_neg (by simp), if_neg (by simp),
      if_pos ⟨rfl, hon⟩]
  · refine hen.refuses (a := s) ?_ rfl (by decide)
    rw [command_hnL3Cmd, l3Cmd_opWord 2 0 ⟨by decide, by decide⟩ (by decide) (.inr rfl), if_pos ⟨rfl, hrem⟩]
  · refine hdis.refuses (a := s) ?_ rfl (by decide)
    rw [command_hnL3Cmd, l3Cmd_opWord 1 0 ⟨by decide, by decide⟩ (by decide) (.inr rfl), if_neg (by simp), if_neg (by simp), if_neg (by simp),
      if_pos (by simpa only [Option.isSome_iff_ne_none] using hbusy)]
  · refine (hset 9).refuses (a := s) ?_ rfl (by decide)
    rw [command_hnL3Cmd, l3Cmd_opWord 4 9 ⟨by decide, by decide⟩ (by decide) (.inl rfl), if_neg (by simp), if_pos ⟨rfl, .inl (by decide)⟩]

/-! ### A command completes -/

/-- A line of a slice that is newer than memory is written there. -/
def writtenBack (a : State) (e : Nat × Option L3Line) : State :=
  match e.2 with
  | some l => exposeStale l.line (if l.dirty then l.stale else none) a
  | none => a

theorem freezeL3_eq (n : Nat) (s : State) : let f := (slice s n).l3.foldl writtenBack s
    freezeL3 n s = setSlice n { slice f n with l3 := (slice f n).l3.map fun e =>
      (e.1, e.2.map fun l => { l with dirty := false, stale := some (l.stale.getD (readLine f l.line)) }) } f := rfl
theorem flushL3_eq (n : Nat) (ways : BitVec 16) (s : State) : let f := ((slice s n).l3.filter fun e => ways.getLsbD (e.1 % 16)).foldl writtenBack s
    flushL3 n ways s = setSlice n { slice f n with l3 := (slice f n).l3.filter fun e => !ways.getLsbD (e.1 % 16) } f := rfl

@[simp] theorem slice_writtenBack (l : SMap (Option L3Line)) (m : Nat) (s : State) : slice (l.foldl writtenBack s) m = slice s m := by
  induction l generalizing s with
  | nil => rfl
  | cons e l ih =>
    rw [List.foldl_cons, ih, writtenBack]
    split <;> simp

/-- Lines that stand as memory does leave it as it is. -/
theorem writtenBack_clean (l : SMap (Option L3Line)) (s : State) (h : ∀ e ∈ l, ∀ x, e.2 = some x → x.dirty = true → x.stale = none) :
    l.foldl writtenBack s = s := by
  induction l generalizing s with
  | nil => rfl
  | cons e l ih =>
    have hrest := ih s fun y hy => h y (List.mem_cons_of_mem _ hy)
    rw [List.foldl_cons]
    refine (congrArg (fun a => l.foldl writtenBack a) ?_).trans hrest
    unfold writtenBack
    split
    case h_1 x hx =>
      split
      · rw [h e List.mem_cons_self x hx ‹_›]; rfl
      · rfl
    case h_2 => rfl

theorem smGet_map_opt {α β : Type} (f : α → β) (m : SMap (Option α)) (k : Nat) :
    smGet optDef (m.map fun e => (e.1, e.2.map f)) k = (smGet optDef m k).map f := by
  induction m with
  | nil => rfl
  | cons e m ih =>
    simp only [List.map_cons, smGet]
    split <;> [rfl; exact ih]

theorem sliceCommand_completes (n : Fin 256) (s : State) :
    let sl := slice s n.val
    let done (E : State → Slice → Prop) : Prop := Completes (.l3CommandComplete n) s fun t => E t (slice t n.val) ∧ (slice t n.val).cmd = none ∧
      ∀ m, m ≠ n.val → slice t m = slice s m
    (sl.cmd = none → exec (.l3CommandComplete n) s = .next s) ∧
    ∀ k,
      (sl.cmd = some { op := 1, ways := k } → done fun t x => x.enabled = false ∧
        (∀ slot, smGet optDef x.l3 slot = (smGet optDef sl.l3 slot).map fun l => { l with dirty := false, stale := some (l.stale.getD (readLine t l.line)) }) ∧
        ((∀ e ∈ sl.l3, ∀ l, e.2 = some l → l.dirty = true → l.stale = none) → SameBytes s t) ∧
        ∀ slot l v, sl.l3 = [(slot, some l)] → l.dirty = true → l.stale = some v → HoldsBytes t (64 * l.line) 64 v.toNat) ∧
      (sl.cmd = some { op := 2, ways := k } → done fun t x => x = { sl with cmd := none, enabled := true } ∧ SameBytes s t) ∧
      (sl.cmd = some { op := 3, ways := k } → done fun t x => x = { sl with cmd := none, l3 := [] } ∧ SameBytes s t) ∧
      (sl.cmd = some { op := 4, ways := k } →
        let j := countOnes sl.spMask 16
        let lo := sliceAperture s n.val + j * 0x40000
        done fun t x => (∀ e, e ∈ x.l3 ↔ e ∈ sl.l3 ∧ x.spMask.getLsbD (e.1 % 16) = false) ∧ (∀ i, sl.spMask.getLsbD i = true → x.spMask.getLsbD i = true) ∧
          ∀ a, readByte t a = if lo ≤ a ∧ a < lo + (k - j) * 0x40000 then 0 else readByte (flushL3 n.val x.spMask s) a) := by
  intro sl done
  have hx : exec (.l3CommandComplete n) s = .next (l3CmdDone n.val s) := rfl
  refine ⟨fun hnone => ?_, fun k => ⟨fun hcmd => ⟨_, hx, ?_⟩, fun hcmd => ⟨_, hx, ?_⟩, fun hcmd => ⟨_, hx, ?_⟩, fun hcmd => ⟨_, hx, ?_⟩⟩⟩
  · rw [hx, l3CmdDone]
    simp [show (slice s n.val).cmd = none from hnone]
  · have hdone : l3CmdDone n.val s = setSlice n.val { slice (freezeL3 n.val s) n.val with cmd := none, enabled := false } (freezeL3 n.val s) := by
      unfold l3CmdDone
      simp only [show (slice s n.val).cmd = some { op := 1, ways := k } from hcmd]
    rw [hdone]
    rw [freezeL3_eq]
    dsimp only
    generalize hf : (slice s n.val).l3.foldl writtenBack s = f
    have hother (m : Nat) : slice f m = slice s m := by rw [← hf, slice_writtenBack]
    simp only [hother]
    refine ⟨⟨by simp, fun slot => ?_, fun hclean a => ?_, fun slot l v hone hdirty hstale => ?_⟩, by simp, fun m hm => by simp [hm, hother]⟩
    · simp only [slice_setSlice, if_true]
      exact smGet_map_opt _ _ _
    · show readByte f a = _
      rw [← hf, writtenBack_clean _ s hclean]
    · have hwrite : f = writeBytes (64 * l.line) (bytesOf v 64) s := by
        rw [← hf, show (slice s n.val).l3 = [(slot, some l)] from hone]
        simp [writtenBack, hdirty, hstale, exposeStale]
      have hheld := holdsBytes_writeBytes (64 * l.line) 64 v s
      rw [← hwrite] at hheld
      exact hheld
  · have hdone : l3CmdDone n.val s = setSlice n.val { slice s n.val with cmd := none, enabled := true } s := by
      unfold l3CmdDone
      simp only [show (slice s n.val).cmd = some { op := 2, ways := k } from hcmd]
    rw [hdone]
    exact ⟨⟨by simp [sl], fun a => rfl⟩, by simp, fun m hm => by simp [hm]⟩
  · have hdone : l3CmdDone n.val s = setSlice n.val { slice s n.val with cmd := none, l3 := [] } s := by
      unfold l3CmdDone
      simp only [show (slice s n.val).cmd = some { op := 3, ways := k } from hcmd]
    rw [hdone]
    exact ⟨⟨by simp [sl], fun a => rfl⟩, by simp, fun m hm => by simp [hm]⟩
  · have hdone : l3CmdDone n.val s =
        let m := moreSp (slice s n.val).retired (slice s n.val).spMask (k - countOnes (slice s n.val).spMask 16)
        zeroBytes (sliceAperture s n.val + countOnes (slice s n.val).spMask 16 * 0x40000) ((k - countOnes (slice s n.val).spMask 16) * 0x40000)
          (setSlice n.val { slice (flushL3 n.val m s) n.val with cmd := none, spMask := m } (flushL3 n.val m s)) := by
      unfold l3CmdDone
      simp only [show (slice s n.val).cmd = some { op := 4, ways := k } from hcmd]
    rw [hdone]
    dsimp only
    generalize hm : moreSp (slice s n.val).retired (slice s n.val).spMask (k - countOnes (slice s n.val).spMask 16) = m
    have hflush (i : Nat) : slice (flushL3 n.val m s) i =
        if i = n.val then { slice s n.val with l3 := (slice s n.val).l3.filter fun e => !m.getLsbD (e.1 % 16) } else slice s i := by
      rw [flushL3_eq]
      simp
    refine ⟨⟨fun e => ?_, fun i hi => ?_, fun a => ?_⟩, by simp, fun i hi => ?_⟩
    · simp [hflush, sl]
    · simp only [slice_zeroBytes, slice_setSlice, if_true]
      rw [← hm]
      exact moreSp_keeps _ _ _ i hi
    · rw [readByte_zeroBytes]
      simp [sl, readByte_setSlice]
    · simp [hflush, hi]

/-- Settles O37: each command's checks in their order, and what its completion makes of the slice. -/
theorem sliceCommandsStartAndComplete : Obligations.SliceCommandsStartAndComplete :=
  ⟨fun w n s k h => sliceCommands_start w n s k h, fun n s => sliceCommand_completes n s⟩

end Sys2Proof.Machine
end

section
/-! What a record of the fault log, a unit fenced and a cause of CONTAIN change (20 R491, R497 to R500): the log, the marks of resilience, the alert
pads, the interrupt lines and the count of units fenced. -/

namespace Sys2Proof.Machine
variable {s : State}

/-- A record that does not merge is the newest of the log. -/
theorem addEntry_eq (kind cls : Nat) (rec : List Byte) : ∃ e n p i, e.record = rec ∧
    addEntry kind cls rec s = { s with resil := { s.resil with log := e :: s.resil.log.take 4095, logSeq := n }, pads := p, intc := i } := by
  unfold addEntry
  extract_lets seq e r s1 s2
  have h2 : ∃ p i, s2 = { s with resil := { s.resil with log := e :: s.resil.log.take 4095, logSeq := seq }, pads := p, intc := i } := by
    unfold s2
    split
    · obtain ⟨i, hi⟩ := pulse_eq (s := s1) 144
      exact ⟨_, i, by rw [hi]; rfl⟩
    · exact ⟨_, _, rfl⟩
  obtain ⟨p, i, hs⟩ := h2
  split
  · obtain ⟨j, hj⟩ := pulse_eq (s := s2) 151
    exact ⟨e, seq, p, j, rfl, by rw [hj, hs]⟩
  · exact ⟨e, seq, p, i, rfl, hs⟩
theorem take_record (kind cls unit : Nat) (lcore : Option Nat) (arg0 arg1 now : Nat) :
    (record kind cls 1 unit lcore arg0 arg1 now).take 2 = bytesOfNat kind 2 := by
  simp only [record, List.append_assoc]
  exact List.take_left' (length_bytesOfNat ..)
theorem logFault_eq (kind cls unit : Nat) (lcore : Option Nat) (arg0 arg1 : Nat) (hc : cls ≠ 0) : ∃ e n p i, e.record.take 2 = bytesOfNat kind 2 ∧
    logFault kind cls unit lcore arg0 arg1 s =
      { s with resil := { s.resil with log := e :: s.resil.log.take 4095, logSeq := n }, pads := p, intc := i } := by
  obtain ⟨e, n, p, i, he, h⟩ := addEntry_eq (s := s) kind cls (record kind cls 1 unit lcore arg0 arg1 (nowNs s))
  refine ⟨e, n, p, i, by rw [he, take_record], ?_⟩
  rw [logFault, logRecord, if_neg hc, h]

theorem alert_eq (k : Nat) : ∃ p, alert k s = { s with pads := p } := ⟨_, rfl⟩
theorem noteMode_eq (b a : State) : ∃ p, noteMode b a = { a with pads := p } := by
  unfold noteMode
  split
  · exact ⟨_, rfl⟩
  · exact ⟨_, rfl⟩

theorem enterContain_again (bit : Nat) (h : s.resil.contain.getLsbD bit = true) : enterContain bit s = s := if_pos h
theorem enterContain_first (bit : Nat) (h : s.resil.contain.getLsbD bit = false) : ∃ e n p i, e.record.take 2 = bytesOfNat 0x503 2 ∧
    enterContain bit s = { s with resil := { s.resil with contain := s.resil.contain ||| BitVec.ofNat 6 (2 ^ bit),
                                                          log := e :: s.resil.log.take 4095, logSeq := n }, pads := p, intc := i } := by
  rw [enterContain, if_neg (by simp [h])]
  obtain ⟨e, n, p, i, he, hl⟩ := logFault_eq
    (s := { s with resil := { s.resil with contain := s.resil.contain ||| BitVec.ofNat 6 (2 ^ bit) } }) 0x503 4 uDevice none bit 0 (by decide)
  obtain ⟨j, hj⟩ := pulse_eq (s := logFault 0x503 4 uDevice none bit 0
    { s with resil := { s.resil with contain := s.resil.contain ||| BitVec.ofNat 6 (2 ^ bit) } }) 147
  dsimp only
  rw [hj, hl]
  obtain ⟨p', hp⟩ := noteMode_eq s (alert 0
    { s with resil := { s.resil with contain := s.resil.contain ||| BitVec.ofNat 6 (2 ^ bit), log := e :: s.resil.log.take 4095, logSeq := n },
             pads := p, intc := j })
  exact ⟨e, n, p', j, he, hp⟩
/-- Entering CONTAIN sets the cause's bit, writes a record where it is new, and nothing else of memory or of a core changes. -/
theorem enterContain_spec (bit : Nat) (hb : bit < 6) : ∃ l n p i c, (enterContain bit s) =
    { s with resil := { s.resil with contain := c, log := l, logSeq := n }, pads := p, intc := i } ∧ c.getLsbD bit = true ∧
      (l = s.resil.log ∨ ∃ e, l = e :: s.resil.log.take 4095) := by
  cases h : s.resil.contain.getLsbD bit with
  | true => exact ⟨_, _, _, _, _, enterContain_again bit h, h, .inl rfl⟩
  | false =>
    obtain ⟨e, n, p, i, -, hs⟩ := enterContain_first bit h
    refine ⟨_, n, p, i, _, hs, ?_, .inr ⟨e, rfl⟩⟩
    rw [BitVec.getLsbD_or, BitVec.getLsbD_ofNat, Nat.testBit_two_pow_self]
    simp [hb]

theorem fenceUnit_first (unit cause : Nat) (h : isFenced s unit = false) : ∃ e n p i, e.record.take 2 = bytesOfNat 0x500 2 ∧
    fenceUnit unit cause s = bump 0x6000058
      { s with resil := { s.resil with fencedUnits := s.resil.fencedUnits ++ [unit], log := e :: s.resil.log.take 4095, logSeq := n },
               pads := p, intc := i } := by
  rw [fenceUnit, if_neg (by simp [h])]
  obtain ⟨e, n, p, i, he, hl⟩ := logFault_eq
    (s := { s with resil := { s.resil with fencedUnits := s.resil.fencedUnits ++ [unit] } }) 0x500 2 unit none cause 0 (by decide)
  obtain ⟨j, hj⟩ := pulse_eq (s := logFault 0x500 2 unit none cause 0
    { s with resil := { s.resil with fencedUnits := s.resil.fencedUnits ++ [unit] } }) 146
  refine ⟨e, n, p, j, he, ?_⟩
  dsimp only
  rw [hj, hl]
/-- A unit fenced is listed; the rest of what changes is the log, the pads, the lines and the counters. -/
theorem fenceUnit_spec (unit cause : Nat) : ∃ l n p i f c, fenceUnit unit cause s =
    { s with resil := { s.resil with fencedUnits := f, log := l, logSeq := n }, pads := p, intc := i, ctl := { s.ctl with counters := c } } ∧
      unit ∈ f ∧ (l = s.resil.log ∨ ∃ e, l = e :: s.resil.log.take 4095) := by
  cases h : isFenced s unit with
  | true => exact ⟨_, _, _, _, _, _, if_pos h, by simpa [isFenced] using h, .inl rfl⟩
  | false =>
    obtain ⟨e, n, p, i, -, hs⟩ := fenceUnit_first unit cause h
    exact ⟨_, n, p, i, _, _, hs, by simp, .inr ⟨e, rfl⟩⟩

end Sys2Proof.Machine
end

section
/-! What the home nodes, the caches and the slices leave alone (10 R250 to R261): the work on a line changes memory's own state, the free values drawn,
the counters of the homes, the coherent messages that wait and the islands of the L2s it wakes, and nothing else; the count of leases revoked is
not one of a home. -/

namespace Sys2Proof.Machine

/-- The leases revoked so far (20 R489). -/
def revokedCount (s : State) : Word64 := smGet cnt0 s.ctl.counters 0x6000050
/-- The device beside the part that work on a line may change; of the counters the count of leases revoked. -/
def beside (s : State) : State :=
  { s with mem := {}, fresh := 0, ctl := { s.ctl with counters := [(0, revokedCount s)] }, links := { s.links with cohOut := [] },
           power := { s.power with islands := [] } }

theorem foldl_beside {α : Type} (f : State → α → State) (hf : ∀ a x, beside (f a x) = beside a) (l : List α) (s : State) :
    beside (l.foldl f s) = beside s := by
  induction l generalizing s with
  | nil => rfl
  | cons x l ih => rw [List.foldl_cons, ih, hf]

@[simp] theorem beside_writeBytes (pa : Nat) (bs : List Byte) (s : State) : beside (writeBytes pa bs s) = beside s := rfl
@[simp] theorem beside_setPoison (line : Nat) (b : Bool) (s : State) : beside (setPoison line b s) = beside s := rfl
@[simp] theorem beside_setPriv (pc : Nat) (p : PrivCaches) (s : State) : beside (setPriv pc p s) = beside s := rfl
@[simp] theorem beside_setSlice (h : Nat) (x : Slice) (s : State) : beside (setSlice h x s) = beside s := rfl
@[simp] theorem beside_setIsland (i : Nat) (x : IslandState) (s : State) : beside (setIsland i x s) = beside s := rfl
theorem beside_bumpBy {off : Nat} (h : off ≠ 0x6000050) (n : Nat) (s : State) : beside (bumpBy off n s) = beside s := by
  have hcount : revokedCount (bumpBy off n s) = revokedCount s := smGet_smPut_other _ _ _ (Ne.symm h)
  unfold beside
  rw [hcount]
  rfl
/-- No counter of a home of the device lies where the leases are counted. -/
theorem beside_hnCnt {h which : Nat} (hw : h < 256 ∧ which < 8 ∨ which < 6 ∨ which = 7) (s : State) : beside (hnCnt h which s) = beside s :=
  beside_bumpBy (by unfold hnBase; omega) 1 s
@[simp] theorem beside_cntReq (h : Nat) (s : State) : beside (hnCnt h cntReq s) = beside s := beside_hnCnt (.inr (by decide)) s
@[simp] theorem beside_cntSnoop (h : Nat) (s : State) : beside (hnCnt h cntSnoop s) = beside s := beside_hnCnt (.inr (by decide)) s
@[simp] theorem beside_cntDirevict (h : Nat) (s : State) : beside (hnCnt h cntDirevict s) = beside s := beside_hnCnt (.inr (by decide)) s
@[simp] theorem beside_cntL3hit (h : Nat) (s : State) : beside (hnCnt h cntL3hit s) = beside s := beside_hnCnt (.inr (by decide)) s
@[simp] theorem beside_cntDecline (h : Nat) (s : State) : beside (hnCnt h cntDecline s) = beside s := beside_hnCnt (.inr (by decide)) s
@[simp] theorem beside_cntFamo (h : Nat) (s : State) : beside (hnCnt h cntFamo s) = beside s := beside_hnCnt (.inr (by decide)) s
@[simp] theorem beside_cntWbdrop (h : Nat) (s : State) : beside (hnCnt h cntWbdrop s) = beside s := beside_hnCnt (.inr (by decide)) s
theorem lineHash_lt (line : Nat) : lineHash line < 256 := by
  have hbits (hi lo : Nat) (h : hi - lo + 1 ≤ 8) : natBits line hi lo < 2 ^ 8 :=
    (Nat.mod_lt _ (Nat.two_pow_pos _)).trans_le (Nat.pow_le_pow_right (by decide) h)
  unfold lineHash
  exact Nat.xor_lt_two_pow (Nat.xor_lt_two_pow (Nat.xor_lt_two_pow (Nat.xor_lt_two_pow (Nat.xor_lt_two_pow (hbits _ _ (by decide))
    (hbits _ _ (by decide))) (hbits _ _ (by decide))) (hbits _ _ (by decide))) (hbits _ _ (by decide))) (hbits _ _ (by decide))
theorem homeOf_lt (s : State) (line : Nat) : homeOf s line < 256 := by
  have hh := lineHash_lt line
  unfold homeOf
  extract_lets h
  split
  · split_ifs
    · have hstack (o : Nat) : (hbmDecode s o).1 < 8 := by
        unfold hbmDecode
        extract_lets b j q p
        split_ifs <;> exact Nat.mod_lt _ (by decide)
      have hnode : h % 32 ^^^ h / 32 < 2 ^ 5 := Nat.xor_lt_two_pow (Nat.mod_lt _ (by decide)) (by omega)
      have := hstack (‹Place›).off
      omega
    · exact hh
  · exact hh
@[simp] theorem beside_cntRemote (s t : State) (line : Nat) : beside (hnCnt (homeOf t line) cntRemote s) = beside s :=
  beside_hnCnt (.inl ⟨homeOf_lt t line, by decide⟩) s
@[simp] theorem beside_drawWord (s : State) : beside (drawWord s).2 = beside s := rfl
@[simp] theorem beside_drawLfsr (k : Nat) (s : State) : beside (drawLfsr k s).2 = beside s := rfl
@[simp] theorem beside_cohSend (slot : Nat) (k : CohKind) (line : Nat) (tc : BitVec 2) (data : Option Vec) (s : State) :
    beside (cohSend slot k line tc data s) = beside s := rfl
@[simp] theorem beside_putL2 (pc slot : Nat) (l : L2Line) (s : State) : beside (putL2 pc slot l s) = beside s := rfl
@[simp] theorem beside_dropL2 (pc line : Nat) (s : State) : beside (dropL2 pc line s) = beside s := rfl
@[simp] theorem beside_putL3 (h slot : Nat) (l : L3Line) (s : State) : beside (putL3 h slot l s) = beside s := rfl
@[simp] theorem beside_putDir (h slot : Nat) (d : Option DirEntry) (s : State) : beside (putDir h slot d s) = beside s := rfl
@[simp] theorem beside_freeTransit (pc line : Nat) (s : State) : beside (freeTransit pc line s) = beside s := rfl

@[simp] theorem beside_dropL3 (h line : Nat) (s : State) : beside (dropL3 h line s) = beside s := by
  unfold dropL3
  split <;> rfl
@[simp] theorem beside_exposeStale (line : Nat) (st : Option Vec) (s : State) : beside (exposeStale line st s) = beside s := by
  cases st <;> rfl
@[simp] theorem beside_pickWay {α : Type} (k : Nat) (tbl : SMap (Option α)) (set ways : Nat) (cand : List Nat) (s : State) :
    beside (pickWay k tbl set ways cand s).2 = beside s := by
  unfold pickWay
  split
  · rfl
  · split <;> rfl
/-- A branch leaves alone what both its ends do. -/
theorem beside_ite (c : Prop) [Decidable c] (x y s : State) (hx : beside x = beside s) (hy : beside y = beside s) : beside (if c then x else y) = beside s := by
  split_ifs <;> assumption
@[simp] theorem beside_offerL3 (h line : Nat) (dirty : Bool) (s : State) : beside (offerL3 h line dirty s) = beside s := by
  unfold offerL3
  extract_lets sl pw
  have hpw : beside pw.2 = beside s := beside_pickWay ..
  refine beside_ite _ _ _ s rfl (beside_ite _ _ _ s (beside_ite _ _ _ s rfl (beside_cntDecline ..)) ?_)
  split
  · exact beside_ite _ _ _ s (beside_putL3 ..) rfl
  · split
    · exact beside_ite _ _ _ s rfl (beside_cntDecline ..)
    · exact beside_ite _ _ _ s ((beside_putL3 ..).trans hpw) ((beside_cntDecline ..).trans hpw)
@[simp] theorem beside_snoopGrant (g : Grant) (k : SnoopKind) (s : State) : beside (snoopGrant g k s).2 = beside s := by
  have h1 : beside (if snoopDirty k g.st then exposeStale g.line g.stale s else s) = beside s := beside_ite _ _ _ s (beside_exposeStale ..) rfl
  unfold snoopGrant
  generalize (if snoopDirty k g.st then exposeStale g.line g.stale s else s) = s1 at h1
  split
  · exact h1
  · exact h1
@[simp] theorem beside_snoopCopy (pc line : Nat) (k : SnoopKind) (s : State) : beside (snoopCopy pc line k s).2 = beside s := by
  unfold snoopCopy
  split
  · extract_lets s1 s2
    have h1 : beside s1 = beside s := by
      show beside (if _ then _ else _) = _
      split_ifs <;> simp
    show beside s2 = _
    simp only [s2]
    split <;> simp [h1]
  · split <;> rfl
@[simp] theorem beside_wakeL2 (pc : Nat) (s : State) : beside (wakeL2 pc s) = beside s := by
  unfold wakeL2
  split <;> rfl
@[simp] theorem beside_snoopL2 (pc line : Nat) (k : SnoopKind) (s : State) : beside (snoopL2 pc line k s).2 = beside s := by
  unfold snoopL2
  split_ifs
  · rfl
  · extract_lets s1
    split <;> simp [s1]
@[simp] theorem beside_sendSnoops (line : Nat) (sn : List (Nat × SnoopKind)) (s : State) : beside (sendSnoops line sn s) = beside s :=
  foldl_beside _ (fun a x => by split_ifs <;> simp) sn s
@[simp] theorem beside_evictDir (h slot : Nat) (d : DirEntry) (s : State) : beside (evictDir h slot d s) = beside s := by
  unfold evictDir
  extract_lets own oth r s1
  have hfold : ∀ (l : List (Nat × SnoopKind)) (a : Bool × State),
      beside (l.foldl (fun a pk => let x := snoopL2 pk.1 d.line pk.2 a.2; (a.1 || x.1.dirty, hnCnt h cntSnoop x.2)) a).2 = beside a.2 := by
    intro l
    induction l with
    | nil => intro a; rfl
    | cons x l ih => intro a; rw [List.foldl_cons, ih]; simp
  have hr : beside r.2 = beside s := by simp only [r, hfold, beside_sendSnoops]
  have h1 : beside s1 = beside s := by
    show beside (if _ then _ else _) = _
    split_ifs <;> simp [hr]
  simp [h1]
@[simp] theorem beside_dirSlot (h line : Nat) (s : State) : beside (dirSlot h line s).2 = beside s := by
  unfold dirSlot
  split
  · rfl
  · extract_lets pw slot
    split <;> simp [pw]
@[simp] theorem beside_setDir (h line : Nat) (owner : Option Nat) (sharers : BitVec 72) (devs : BitVec 4) (s : State) :
    beside (setDir h line owner sharers devs s) = beside s := by
  unfold setDir
  split
  · split <;> simp
  · simp
@[simp] theorem beside_serveFromL3 (h line : Nat) (k : ReqKind) (s : State) : beside (serveFromL3 h line k s) = beside s := by
  unfold serveFromL3
  split
  · extract_lets s1
    split <;> simp [s1]
  · rfl
@[simp] theorem beside_amoAt (pa : Nat) (op : AmoOp) (wide : Bool) (gs gt : Word64) (s : State) : beside (amoAt pa op wide gs gt s).2 = beside s := by
  unfold amoAt
  split <;> rfl

@[simp] theorem beside_homeFinish (s : State) (q : HomeReq) : beside (homeFinish s q).2.2 = beside s := by
  cases hk : q.kind with
  | rs => cases hr : q.req <;> simp [homeFinish, hk, hr, apply_ite beside, apply_ite Prod.snd]
  | ru | upg => cases hr : q.req <;> simp [homeFinish, hk, hr, apply_ite beside]
  | cmoc =>
    simp only [homeFinish, hk, beside_setDir]
    split <;> simp
  | rnc | fw | pw | famo | cmoi | wb | evc => simp [homeFinish, hk, apply_ite beside]
@[simp] theorem beside_serveEvict (q : HomeReq) (s : State) : beside (serveEvict q s) = beside s := by
  unfold serveEvict
  extract_lets h d owns s1
  have h1 : beside s1 = beside s := by
    show beside (if _ then _ else _) = _
    split_ifs <;> simp
  split_ifs <;> simp [h1]
@[simp] theorem beside_countReq (q : HomeReq) (s : State) : beside (countReq q s) = beside s := by
  unfold countReq
  dsimp only
  split <;> simp
@[simp] theorem beside_completeDev (q : HomeReq) (s : State) : beside (completeDev q s) = beside s := by
  unfold completeDev
  split <;> simp
@[simp] theorem beside_takeAnswer (q : HomeReq) (a : SnoopAnswer) (s : State) : beside (takeAnswer q a s).2 = beside s := by
  simp [takeAnswer, apply_ite beside]
@[simp] theorem beside_runSnoops (q : HomeReq) (sn : List (Nat × SnoopKind)) (s : State) : beside (runSnoops q sn s).2 = beside s := by
  induction sn generalizing q s with
  | nil => rfl
  | cons x sn ih =>
    rw [runSnoops, ih]
    simp
@[simp] theorem beside_homeDone (q : HomeReq) (s : State) : beside (homeDone q s).2.2 = beside s := by
  simp [homeDone]
@[simp] theorem beside_runReq (q : HomeReq) (s : State) : beside (runReq q s).2.2 = beside s := by
  unfold runReq
  split_ifs <;> simp
@[simp] theorem beside_toTransit (pc : Nat) (l : L2Line) (s : State) : beside (toTransit pc l s) = beside s := by
  unfold toTransit
  extract_lets s1 s2
  have h1 : beside s1 = beside s := by
    show beside (if _ then _ else _) = _
    split_ifs <;> simp
  simp [s2, h1]
@[simp] theorem beside_evictNow (pc : Nat) (l : L2Line) (s : State) : beside (evictNow pc l s) = beside s := by simp [evictNow]
@[simp] theorem beside_installL2 (g : Grant) (s : State) : beside (installL2 g s) = beside s := by
  unfold installL2
  split
  · simp
  · split_ifs
    · rfl
    · extract_lets p pw
      have hpw : beside pw.2 = beside s := beside_pickWay ..
      split
      · exact hpw
      · extract_lets s1
        have h1 : beside s1 = beside s := by
          simp only [s1]
          split <;> simp [hpw]
        simp [h1]
@[simp] theorem beside_clearLate (h : Nat) (s : State) : beside (clearLate h s) = beside s := by
  unfold clearLate
  split_ifs <;> simp
@[simp] theorem beside_ackAll (line : Nat) (s : State) : beside (ackAll line s) = beside s :=
  foldl_beside _ (fun a x => by split_ifs <;> simp) _ s
/-- The end of one request, and the line it grants. -/
theorem beside_granted (q : HomeReq) (s : State) :
    beside (match (runReq q s).2.1 with | some g => installL2 g (runReq q s).2.2 | none => (runReq q s).2.2) = beside s := by
  split <;> simp
@[simp] theorem beside_settleQ (line : Nat) (l : List HomeReq) (s : State) : beside (settleQ line l s) = beside s := by
  induction l generalizing s with
  | nil => rfl
  | cons q l ih =>
    rw [settleQ]
    split_ifs
    · rw [ih]
      exact beside_granted q s
    · exact ih s
@[simp] theorem beside_settle (line : Nat) (s : State) : beside (settle line s) = beside s := by
  unfold settle
  split_ifs
  · simp
  · extract_lets s0 s1
    have h0 : beside s0 = beside s := foldl_beside _ (fun a x => beside_installL2 x a) _ s
    have h1 : beside s1 = beside s := by simp [s1, h0]
    rw [beside_clearLate]
    exact h1
/-- Work on a line of memory run to its end leaves alone what is beside memory. -/
@[simp] theorem beside_request (k : ReqKind) (r : Requester) (line : Nat) (b : ReqData) (s : State) : beside (request k r line b s).2 = beside s :=
  (beside_granted _ _).trans (beside_settle line s)

end Sys2Proof.Machine
end

section
/-! Relocation (20 R481 to R487): what a trigger, the drain, the resumption and the write-back of the old L2 change. -/

namespace Sys2Proof.Machine
variable {s t : State}

theorem newest_cons {kind : Nat} {e : LogEntry} {l : List LogEntry} (h : t.resil.log = e :: l) (he : e.record.take 2 = bytesOfNat kind 2) :
    Newest kind t := ⟨e, l, h, he⟩

/-- The records and interrupts of a trigger leave the core map, the cores and memory alone; a broadcast may have lost a target. -/
structure SameCores (s t : State) : Prop where
  cores : t.resil.cores = s.resil.cores
  lcMap : t.resil.lcMap = s.resil.lcMap
  relocs : t.resil.relocs = s.resil.relocs
  bound : t.resil.bound = s.resil.bound
  moving : t.resil.moving = s.resil.moving
  time : t.time = s.time
  mem : t.mem = s.mem
  core : ∀ n, { coreOf t n with broadcasts := (coreOf s n).broadcasts } = coreOf s n

theorem SameCores.refl (s : State) : SameCores s s := ⟨rfl, rfl, rfl, rfl, rfl, rfl, rfl, fun _ => rfl⟩

namespace SameCores
variable (h : SameCores s t)
include h
theorem pcOf_eq (lc : Nat) : pcOf t lc = pcOf s lc := by simp only [pcOf, h.lcMap]
theorem chooseSpare_eq (lc : Nat) (ver : Option Word32) : chooseSpare t lc ver = chooseSpare s lc ver := by
  have hp : Sys2Proof.Machine.pcOf t = Sys2Proof.Machine.pcOf s := funext h.pcOf_eq
  simp only [chooseSpare, pcsInUse, phys, hp, h.cores, h.relocs, h.bound]
theorem regs (n : Nat) : (coreOf t n).regs = (coreOf s n).regs := by rw [← h.core n]
theorem pc (n : Nat) : (coreOf t n).pc = (coreOf s n).pc := by rw [← h.core n]
theorem group (n : Nat) : (coreOf t n).group = (coreOf s n).group := by rw [← h.core n]
theorem mmioWait (n : Nat) : (coreOf t n).mmioWait = (coreOf s n).mmioWait := by rw [← h.core n]
theorem shadows (n : Nat) : (coreOf t n).shadows = (coreOf s n).shadows := by rw [← h.core n]
theorem standing (n : Nat) : (coreOf t n).standing = (coreOf s n).standing := by rw [← h.core n]
end SameCores

theorem chooseSpare_some {lc sp : Nat} {ver : Option Word32} (h : chooseSpare s lc ver = some sp) :
    (phys s sp).good = true ∧ (phys s sp).service = true ∧ sp ∉ pcsInUse s ∧ ∀ v, ver = some v → (phys s sp).version = v := by
  have hp := List.find?_some h
  simp only [Bool.and_eq_true, Bool.not_eq_true', List.contains_eq_mem, decide_eq_false_iff_not] at hp
  obtain ⟨⟨⟨hgood, hservice⟩, hfree⟩, hver⟩ := hp
  refine ⟨hgood, hservice, hfree, ?_⟩
  rintro v rfl
  exact eq_of_beq hver

/-! ### The open group -/

theorem rollbackCore_none {c : Core} (h : c.group = none) : rollbackCore c = c := by rw [rollbackCore, h]
theorem group_rollbackCore (c : Core) : (rollbackCore c).group = none := by
  unfold rollbackCore
  split
  · assumption
  · rfl
theorem dropGroup_mem (lc : Nat) (s : State) : (dropGroup lc s).mem = s.mem := by
  unfold dropGroup
  split
  · rfl
  · rfl
theorem coreOf_dropGroup (lc : Nat) (s : State) : coreOf (dropGroup lc s) lc = if (coreOf s lc).mmioWait then coreOf s lc else rollbackCore (coreOf s lc) := by
  unfold dropGroup
  split
  · rfl
  · exact coreOf_updCore_same _ _ rollbackCore
theorem coreOf_dropGroup_other {lc n : Nat} (h : n ≠ lc) (s : State) : coreOf (dropGroup lc s) n = coreOf s n := by
  unfold dropGroup
  split
  · rfl
  · exact coreOf_updCore_other _ rollbackCore h

/-! ### Triggers -/

/-- A spare is taken for logical core `lc` (20 R482 step 1). -/
def takeSpare (lc sp trigger : Nat) (start : Option Nat) (s : State) : State :=
  setMoving lc true (setCoreIsland sp .active { s with resil := { s.resil with
    relocs := s.resil.relocs ++ [{ lc := lc, fromPc := pcOf s lc, toPc := sp, trigger := trigger, start := start }] } })

theorem moving_takeSpare (lc sp trigger : Nat) (start : Option Nat) (s : State) : moving (takeSpare lc sp trigger start s) lc = true :=
  smGet_smPut_same ..

section
variable {lc trigger sp : Nat} {ver : Option Word32} (hb : bound s lc = true) (hm : moving s lc = false) (hf : (coreOf s lc).standing ≠ .fenced)
include hb hm hf
theorem startReloc_healthy (hc : chooseSpare s lc ver = some sp) :
    startReloc lc trigger true ver s = updCore lc (fun c => { c with drainReq := true }) (takeSpare lc sp trigger none s) := by
  simp [startReloc, hb, hm, hf, hc, takeSpare]
theorem startReloc_failed (hc : chooseSpare s lc ver = some sp) :
    startReloc lc trigger false ver s =
      updCore lc (fun c => { c with paused := true, wait := none }) (dropGroup lc (takeSpare lc sp trigger (some (nowNs s)) s)) := by
  simp [startReloc, hb, hm, hf, hc, takeSpare]
theorem startReloc_noSpare (healthy : Bool) (ht : trigger ≠ 6) (hc : chooseSpare s lc ver = none) :
    startReloc lc trigger healthy ver s = enterContain containCores (fenceUnit (uCore (pcOf s lc)) trigger
      (updCore lc (fun c => { c with standing := .fenced }) (dropGroup lc s))) := by
  simp [startReloc, hb, hm, hf, hc, ht]
end

/-- A failed core pauses with its open group rolled back, unless the group's deferred accesses are being performed (20 R483, R484). -/
structure Paused (s u : State) (lc : Nat) : Prop where
  paused : (coreOf u lc).paused = true
  wait : (coreOf u lc).wait = none
  dropped : (coreOf s lc).mmioWait = false → (coreOf u lc).group = none
  kept : (coreOf s lc).mmioWait = true → (coreOf u lc).group = (coreOf s lc).group ∧ (coreOf u lc).mmioWait = true ∧
    (coreOf u lc).shadows = (coreOf s lc).shadows
  still : (coreOf s lc).group = none ∨ (coreOf s lc).mmioWait = true → (coreOf u lc).regs = (coreOf s lc).regs ∧ (coreOf u lc).pc = (coreOf s lc).pc

theorem paused_failed {u : State} (lc : Nat) (h : coreOf u lc = { coreOf (dropGroup lc s) lc with paused := true, wait := none }) : Paused s u lc := by
  rw [coreOf_dropGroup] at h
  cases hw : (coreOf s lc).mmioWait with
  | true =>
    rw [hw, if_pos rfl] at h
    constructor <;> simp [h, hw]
  | false =>
    rw [hw, if_neg (by decide)] at h
    refine ⟨by rw [h], by rw [h], fun _ => by rw [h]; exact group_rollbackCore _, by simp [hw], ?_⟩
    rintro (hg | hg)
    · rw [h, rollbackCore_none hg]
      exact ⟨rfl, rfl⟩
    · cases hw.symm.trans hg
theorem Paused.of_same {u : State} {lc : Nat} (h : SameCores s t) (hp : Paused t u lc) : Paused s u lc := by
  obtain ⟨hpaused, hwait, hdropped, hkept, hstill⟩ := hp
  rw [h.mmioWait] at hdropped hkept hstill
  rw [h.group] at hkept hstill
  rw [h.shadows] at hkept
  rw [h.regs, h.pc] at hstill
  exact ⟨hpaused, hwait, hdropped, hkept, hstill⟩

/-- What the taking of a spare leaves: the place in the list of relocations, memory and the registers of the other cores. -/
structure Moves (s u : State) (lc sp trigger : Nat) (start : Option Nat) : Prop where
  moving : moving u lc = true
  bytes : SameBytes s u
  relocs : u.resil.relocs = s.resil.relocs ++ [⟨lc, pcOf s lc, sp, trigger, start, none⟩]
  regs : ∀ n, n ≠ lc → (coreOf u n).regs = (coreOf s n).regs

theorem moves_healthy (lc sp trigger : Nat) (f : Core → Core) (s : State) : Moves s (updCore lc f (takeSpare lc sp trigger none s)) lc sp trigger none where
  moving := moving_takeSpare ..
  bytes _ := rfl
  relocs := rfl
  regs _ hn := congrArg Core.regs (coreOf_updCore_other _ f hn)
theorem moves_failed (lc sp trigger : Nat) (start : Option Nat) (f : Core → Core) (s : State) :
    Moves s (updCore lc f (dropGroup lc (takeSpare lc sp trigger start s))) lc sp trigger start where
  moving := by
    show smGet boolDef (dropGroup lc _).resil.moving lc = true
    rw [resil_dropGroup]
    exact moving_takeSpare ..
  bytes a := by
    show smGet byteDef (dropGroup lc _).mem.bytes a = _
    rw [dropGroup_mem]
    rfl
  relocs := by
    show (dropGroup lc _).resil.relocs = _
    rw [resil_dropGroup]
    rfl
  regs n hn := by
    rw [coreOf_updCore_other _ f hn, coreOf_dropGroup_other hn]
    rfl
theorem Moves.of_same {u : State} {lc sp trigger : Nat} {start : Option Nat} (h : SameCores s t) (hm : Moves t u lc sp trigger start) :
    Moves s u lc sp trigger start where
  moving := hm.moving
  bytes a := (hm.bytes a).trans (by rw [readByte, h.mem]; rfl)
  relocs := by rw [hm.relocs, h.relocs, h.pcOf_eq]
  regs n hn := (hm.regs n hn).trans (h.regs n)

/-- With no spare the core is fenced and CONTAIN entered (20 R487). -/
theorem startReloc_contains {lc trigger : Nat} {ver : Option Word32} (healthy : Bool) (hb : bound s lc = true) (hm : moving s lc = false)
    (hf : (coreOf s lc).standing ≠ .fenced) (ht : trigger ≠ 6) (hc : chooseSpare s lc ver = none) :
    let u := startReloc lc trigger healthy ver s
    (coreOf u lc).standing = .fenced ∧ u.resil.contain.getLsbD 0 = true ∧ isFenced u (uCore (pcOf s lc)) = true ∧
      u.resil.relocs = s.resil.relocs ∧ SameBytes s u := by
  intro u
  have hu : u = _ := startReloc_noSpare hb hm hf healthy ht hc
  set v := updCore lc (fun c => { c with standing := .fenced }) (dropGroup lc s) with hv
  obtain ⟨l, n, p, i, f, c, hfence, hin, -⟩ := fenceUnit_spec (s := v) (uCore (pcOf s lc)) trigger
  rw [hfence] at hu
  obtain ⟨l', n', p', i', c', hcontain, hbit, -⟩ := enterContain_spec (s := { v with
    resil := { v.resil with fencedUnits := f, log := l, logSeq := n }, pads := p, intc := i, ctl := { v.ctl with counters := c } }) containCores (by decide)
  rw [hu, hcontain]
  refine ⟨?_, hbit, ?_, ?_, fun a => ?_⟩
  · show (coreOf v lc).standing = _
    rw [hv, coreOf_updCore_same]
  · simpa [isFenced] using hin
  · show (dropGroup lc s).resil.relocs = _
    rw [resil_dropGroup]
  · show smGet byteDef (dropGroup lc s).mem.bytes a = _
    rw [dropGroup_mem]
    rfl

/-! ### Broadcasts that lose a target -/

theorem smGet_map_of_default {α : Type} (d : Nat → α) (f : α → α) (hd : ∀ k, f (d k) = d k) (m : SMap α) (k : Nat) :
    smGet d (m.map fun e => (e.1, f e.2)) k = f (smGet d m k) := by
  induction m with
  | nil => exact (hd k).symm
  | cons e m ih =>
    rw [List.map_cons, smGet, smGet]
    split
    · rfl
    · exact ih
theorem smGet_default_or_listed {α : Type} (d : Nat → α) (m : SMap α) (k : Nat) : smGet d m k = d k ∨ (k, smGet d m k) ∈ m := by
  induction m with
  | nil => exact .inl rfl
  | cons e m ih =>
    rw [smGet]
    split
    next h => exact .inr (by subst h; exact List.mem_cons_self ..)
    next => exact ih.imp_right (List.mem_cons_of_mem e)
/-- Every core's broadcasts wait for no target that is gone; nothing else of the device changes. -/
theorem ackTargets_spec (gone : Nat → Bool) (s : State) :
    (∀ n b x, b ∈ (coreOf (ackTargets gone s) n).broadcasts → x ∈ b.waiting → gone x = false) ∧
    (∀ n, { coreOf (ackTargets gone s) n with broadcasts := (coreOf s n).broadcasts } = coreOf s n) ∧
    ackTargets gone s = { s with cores := (ackTargets gone s).cores } := by
  unfold ackTargets
  extract_lets f
  split
  next hany =>
    have hcore (n : Nat) : coreOf { s with cores := s.cores.map fun e => (e.1, { e.2 with broadcasts := e.2.broadcasts.filterMap f }) } n =
        { coreOf s n with broadcasts := (coreOf s n).broadcasts.filterMap f } :=
      smGet_map_of_default coreDef (fun c => { c with broadcasts := c.broadcasts.filterMap f }) (fun _ => rfl) s.cores n
    refine ⟨fun n b x hb hx => ?_, fun n => by rw [hcore n], rfl⟩
    rw [hcore n] at hb
    obtain ⟨b0, -, hf⟩ := List.mem_filterMap.mp hb
    simp only [f] at hf
    split at hf
    · cases hf
    · cases hf
      simpa using (List.mem_filter.mp hx).2
  next hany =>
    refine ⟨fun n b x hb hx => ?_, fun _ => rfl, rfl⟩
    by_contra hg
    refine hany (List.any_eq_true.mpr ?_)
    obtain hk | hk := smGet_default_or_listed coreDef s.cores n
    · rw [coreOf, hk] at hb
      cases hb
    · exact ⟨_, hk, List.any_eq_true.mpr ⟨b, hb, List.any_eq_true.mpr ⟨x, hx, by simpa using hg⟩⟩⟩

end Sys2Proof.Machine
end

section
/-! Relocation, leases, service pairs, the census and the spare horizon (20 R481 to R496), clause by clause. -/

namespace Sys2Proof.Machine
variable {s t : State}

/-! ### Triggers -/

/-- Each trigger records what it has found and then starts the relocation (20 R481). -/
theorem relocation_begins (s : State) (lc : LC) (i : Instr) (trig : Nat) (healthy : Bool) (hb : bound s lc.val = true)
    (h : (∃ f : Fin 7, i = .coreRelocation lc f healthy ∧ f.val = trig ∧ trig ≠ 6) ∨
      (∃ pc : Fin 576, i = .heartbeatMissed pc ∧ lcOfPc s pc.val = some lc.val ∧ trig = 3 ∧ healthy = false) ∨
      (∃ near far : Word32, i = .bridgeTimeout near far ∧ far.toNat / 2 ^ 24 ≤ 1 ∧ lcOfPc s (far.toNat % 2 ^ 24) = some lc.val ∧ trig = 4 ∧
        healthy = false)) :
    trig ≠ 6 ∧ ∃ t c, exec i s = .next { startReloc lc.val trig healthy none t with
        ctl := { (startReloc lc.val trig healthy none t).ctl with copies := c } } ∧ SameCores s t ∧ (healthy = true → t = s) := by
  obtain ⟨f, rfl, rfl, ht⟩ | ⟨pc, rfl, hlc, rfl, rfl⟩ | ⟨near, far, rfl, hfar, hlc, rfl, rfl⟩ := h
  · refine ⟨ht, s, (startReloc lc.val f.val healthy none s).ctl.copies, ?_, .refl s, fun _ => rfl⟩
    show Host.Outcome.next (startReloc _ _ _ (if f.val = 6 then rollVersion s else none) s) = _
    rw [if_neg ht]
  · obtain ⟨e, n, p, j, -, hl⟩ := logFault_eq (s := s) 2 2 (uCore pc.val) (some lc.val) (rollbackCore (coreOf s lc.val)).pc.toNat 0 (by decide)
    let t := logFault 2 2 (uCore pc.val) (some lc.val) (rollbackCore (coreOf s lc.val)).pc.toNat 0 s
    refine ⟨by decide, t, (startReloc lc.val 3 false none t).ctl.copies, ?_, ?_, by simp⟩
    · show Host.Outcome.next (heartbeatLost pc.val s) = _
      simp only [heartbeatLost, hlc, hb, if_true]
      rfl
    · show SameCores s (logFault ..)
      rw [hl]
      exact ⟨rfl, rfl, rfl, rfl, rfl, rfl, rfl, fun _ => rfl⟩
  · obtain ⟨e, n, p, j, -, hl⟩ := logFault_eq (s := { s with resil := { s.resil with silent := far.toNat :: s.resil.silent.erase far.toNat } })
      0xC 1 far.toNat none near.toNat far.toNat (by decide)
    let t := ackTargets (fun n => n == lc.val) (logFault 0xC 1 far.toNat none near.toNat far.toNat
      { s with resil := { s.resil with silent := far.toNat :: s.resil.silent.erase far.toNat } })
    refine ⟨by decide, t, (freezeCopies far.toNat (startReloc lc.val 4 false none t)).ctl.copies, ?_, ?_, by simp⟩
    · show Host.Outcome.next (freezeCopies _ (bridgeLate near.toNat far.toNat s)) = _
      simp only [bridgeLate, hlc, hfar, if_true]
      rfl
    · show SameCores s (ackTargets _ (logFault ..))
      rw [hl]
      obtain ⟨-, hcore, hs⟩ := ackTargets_spec (fun n => n == lc.val)
        { s with resil := { s.resil with silent := far.toNat :: s.resil.silent.erase far.toNat, log := e :: s.resil.log.take 4095, logSeq := n },
                 pads := p, intc := j }
      rw [hs]
      exact ⟨rfl, rfl, rfl, rfl, rfl, rfl, rfl, hcore⟩

/-! ### The drain and the resumption -/

theorem relocOf_lc {lc : Nat} {r : Relocation} (h : relocOf s lc = some r) : r.lc = lc ∧ r.pause = none := by
  have hp := List.find?_some h
  simpa using hp
/-- The relocation found of a core is the first of the list that has not resumed: what replaces it is found in its place. -/
theorem find?_replace {l : List Relocation} {p : Relocation → Bool} {r r' : Relocation} (h : l.find? p = some r) (hp : p r' = true) :
    (l.replace r r').find? p = some r' := by
  induction l with
  | nil => cases h
  | cons x l ih =>
    rw [List.find?_cons] at h
    cases hx : p x with
    | true =>
      rw [hx] at h
      cases h
      simp [List.replace_cons, hp]
    | false =>
      rw [hx] at h
      have hne : x ≠ r := fun e => by rw [e, List.find?_some h] at hx; cases hx
      have hne' : (r == x) = false := by simpa using Ne.symm hne
      simp only [List.replace_cons, hne', List.find?_cons, hx]
      exact ih h
theorem relocDrain_waits {lc : Nat} {r : Relocation} (h : relocOf s lc = some r) (hg : (coreOf s lc).group ≠ none ∨ (coreOf s lc).shadows ≠ []) :
    relocDrain lc s = s := by
  have hbusy : ((coreOf s lc).group.isNone && (coreOf s lc).shadows.isEmpty && r.start.isNone) = false := by
    rcases hg with hg | hg <;> simp [hg]
  simp only [relocDrain, h, hbusy]
  rfl
theorem relocDrain_begins {lc : Nat} {r : Relocation} (h : relocOf s lc = some r) (hstart : r.start = none) (hg : (coreOf s lc).group = none)
    (hs : (coreOf s lc).shadows = []) : relocDrain lc s =
      putReloc r { r with start := some (nowNs s) } (updCore lc (fun c => { c with paused := true, drainReq := false, wait := none }) s) := by
  simp [relocDrain, h, hstart, hg, hs]

theorem loadPatch_idle (pc : Nat) (h : s.live.roll = none) : loadPatch pc s = s := by simp only [loadPatch, h]
theorem rollCheck_idle (h : s.live.roll = none) : rollCheck s = s := by simp only [rollCheck, h]

/-- The core on its spare, before the broadcasts that wait for the old one are acknowledged (20 R482 steps 5 and 6). -/
def onSpare (lc t0 : Nat) (r : Relocation) (s : State) : State :=
  let s1 : State := { s with resil := { s.resil with
    lcMap := smPut lcMapDef s.resil.lcMap lc (some r.toPc), gens := smPut gen0 s.resil.gens lc (smGet gen0 s.resil.gens lc + 1) } }
  let s2 := carrySp r.fromPc r.toPc (setMoving lc false (putReloc r { r with pause := some (nowNs s - t0) } s1))
  let s3 := updCore lc (fun c => { c with paused := false, drainReq := false, tlbs := {}, retStack := [], overlay := [], unpushed := [], missed := [],
                                          itt := [], predSeq := 0, retryRun := 0, retries := [] }) s2
  setPriv r.fromPc { priv s3 r.fromPc with l1i := [], l1d := [] } s3
/-- What a core loses on its way to the spare: its translations and its predictions. -/
def freshCore (c : Core) : Core :=
  { c with paused := false, drainReq := false, tlbs := {}, retStack := [], overlay := [], unpushed := [], missed := [], itt := [], predSeq := 0,
           retryRun := 0, retries := [] }
theorem cores_onSpare (lc t0 : Nat) (r : Relocation) : (onSpare lc t0 r s).cores = (updCore lc freshCore s).cores := rfl
theorem relocResume_eq {lc t0 : Nat} {r : Relocation} (h : relocOf s lc = some r) (hstart : r.start = some t0) (hroll : s.live.roll = none) :
    ∃ i, relocResume lc s = { bump 0x6000048 (ackTargets (fun n => n == lc) (onSpare lc t0 r s)) with intc := i } := by
  obtain ⟨-, -, hack⟩ := ackTargets_spec (fun n => n == lc) (onSpare lc t0 r s)
  have hidle : loadPatch r.fromPc (ackTargets (fun n => n == lc) (onSpare lc t0 r s)) = ackTargets (fun n => n == lc) (onSpare lc t0 r s) :=
    loadPatch_idle _ (by rw [hack]; exact hroll)
  obtain ⟨i, hi⟩ := pulse_eq (s := bump 0x6000048 (ackTargets (fun n => n == lc) (onSpare lc t0 r s))) 145
  refine ⟨i, ?_⟩
  have hr : relocResume lc s = pulse 145 (bump 0x6000048 (loadPatch r.fromPc (ackTargets (fun n => n == lc) (onSpare lc t0 r s)))) := by
    rw [relocResume, h]
    dsimp only
    split
    next t1 h1 =>
      cases hstart.symm.trans h1
      rfl
    next h1 => cases hstart.symm.trans h1
  exact hr.trans <| (congrArg (fun x => pulse 145 (bump 0x6000048 x)) hidle).trans hi

theorem relocationResume (lc : LC) {r : Relocation} {t0 : Nat} (h : relocOf s lc.val = some r) (hstart : r.start = some t0) (hroll : s.live.roll = none) :
    Completes (.relocationResume lc) s fun u =>
      pcOf u lc.val = r.toPc ∧ smGet gen0 u.resil.gens lc.val = smGet gen0 s.resil.gens lc.val + 1 ∧ moving u lc.val = false ∧
      (coreOf u lc.val).regs = (coreOf s lc.val).regs ∧ (coreOf u lc.val).pc = (coreOf s lc.val).pc ∧ (coreOf u lc.val).paused = false ∧
      (coreOf u lc.val).tlbs = {} ∧ smGet cnt0 u.ctl.counters 0x6000048 = smGet cnt0 s.ctl.counters 0x6000048 + 1 ∧ SameBytes s u ∧
      (∀ n b, b ∈ (coreOf u n).broadcasts → lc.val ∉ b.waiting) ∧
      ∀ n, n ≠ lc.val → pcOf u n = pcOf s n ∧ { coreOf u n with broadcasts := (coreOf s n).broadcasts } = coreOf s n := by
  obtain ⟨i, hu⟩ := relocResume_eq h hstart hroll
  have hown : coreOf (onSpare lc.val t0 r s) lc.val = freshCore (coreOf s lc.val) :=
    (coreOf_of_cores (cores_onSpare ..) _).trans (coreOf_updCore_same ..)
  have hothers (n : Nat) (hn : n ≠ lc.val) : coreOf (onSpare lc.val t0 r s) n = coreOf s n :=
    (coreOf_of_cores (cores_onSpare ..) n).trans (coreOf_updCore_other _ _ hn)
  have hmap : smGet lcMapDef (onSpare lc.val t0 r s).resil.lcMap lc.val = some r.toPc := smGet_smPut_same ..
  have hmaps (n : Nat) (hn : n ≠ lc.val) : smGet lcMapDef (onSpare lc.val t0 r s).resil.lcMap n = smGet lcMapDef s.resil.lcMap n :=
    smGet_smPut_other _ _ _ hn
  have hgens : smGet gen0 (onSpare lc.val t0 r s).resil.gens lc.val = smGet gen0 s.resil.gens lc.val + 1 := smGet_smPut_same ..
  have hmoving : smGet boolDef (onSpare lc.val t0 r s).resil.moving lc.val = false := smGet_smPut_same ..
  have hctl : (onSpare lc.val t0 r s).ctl = s.ctl := rfl
  have hlive : (onSpare lc.val t0 r s).live = s.live := rfl
  have hbytes : (onSpare lc.val t0 r s).mem.bytes = s.mem.bytes := rfl
  generalize onSpare lc.val t0 r s = v at *
  obtain ⟨hgone, hcore, hack⟩ := ackTargets_spec (fun n => n == lc.val) v
  generalize ackTargets (fun n => n == lc.val) v = w at *
  have hc := hcore lc.val
  rw [hown] at hc
  refine ⟨relocResume lc.val s, ?_, ?_⟩
  · show Host.Outcome.next (rollCheck (relocResume lc.val s)) = _
    rw [rollCheck_idle]
    rw [hu]
    show w.live.roll = none
    rw [hack]
    exact (congrArg Live.roll hlive).trans hroll
  rw [hu]
  have hres : w.resil = v.resil := by rw [hack]
  refine ⟨?_, ?_, ?_, ?_, ?_, ?_, ?_, ?_, ?_, ?_, ?_⟩
  · show (smGet lcMapDef w.resil.lcMap lc.val).getD 0 = _
    rw [hres, hmap]
    rfl
  · show smGet gen0 w.resil.gens lc.val = _
    rw [hres, hgens]
  · show smGet boolDef w.resil.moving lc.val = _
    rw [hres, hmoving]
  · exact (congrArg Core.regs hc :)
  · exact (congrArg Core.pc hc :)
  · exact (congrArg Core.paused hc :)
  · exact (congrArg Core.tlbs hc :)
  · show smGet cnt0 (smPut cnt0 w.ctl.counters _ _) _ = _
    rw [hack, smGet_smPut_same]
    show smGet cnt0 v.ctl.counters _ + _ = _
    rw [hctl]
    rfl
  · intro a
    show smGet byteDef w.mem.bytes a = _
    rw [hack]
    exact congrArg (smGet byteDef · a) hbytes
  · intro n b hb hx
    simpa using hgone n b lc.val hb hx
  · intro n hn
    refine ⟨?_, ?_⟩
    · show (smGet lcMapDef w.resil.lcMap n).getD 0 = _
      rw [hres, hmaps n hn]
      rfl
    · have hk := hcore n
      rw [hothers n hn] at hk
      exact hk

/-! ### The old L2 is empty -/

theorem resil_of_beside (h : beside t = beside s) : t.resil = s.resil := (congrArg State.resil h :)
theorem writebackComplete (pc : Fin 576) {r : Relocation} (hroll : s.live.roll = none)
    (h : s.resil.relocs.find? (fun r => r.fromPc == pc.val && r.pause.isSome) = some r) :
    Completes (.backgroundWritebackComplete pc) s fun u => u.resil.relocs = s.resil.relocs.erase r ∧ Newest 3 u ∧
      smGet islandDef u.power.islands pc.val = .offState ∧ (r.trigger ≠ 6 → (phys u pc.val).service = false ∧ spareUsed u 0 = spareUsed s 0 + 1) ∧
      (r.trigger = 6 → u.resil.cores = s.resil.cores ∧ spareUsed u 0 = spareUsed s 0) := by
  set s1 := ((priv s pc.val).l2.filterMap fun e => e.2).foldl (fun a l => evictNow pc.val l a) s with hs1
  have hbeside : beside s1 = beside s := foldl_beside _ (fun a l => beside_evictNow ..) _ s
  have hres : s1.resil = s.resil := resil_of_beside hbeside
  have hlive : s1.live = s.live := (congrArg State.live hbeside :)
  obtain ⟨e, n, p, i, he, hl⟩ := logFault_eq (s := { s1 with resil := { s1.resil with relocs := s1.resil.relocs.erase r } }) 3 1 (uCore pc.val)
    (some r.lc) (r.toPc + r.fromPc * 2 ^ 16 + r.trigger * 2 ^ 32) (r.pause.getD 0) (by decide)
  have hislands : pc.val ≠ l2Island pc.val := by unfold l2Island; omega
  have hoff (m : SMap IslandState) : smGet islandDef (smPut islandDef (smPut islandDef m pc.val .offState) (l2Island pc.val) .offState) pc.val = .offState := by
    rw [smGet_smPut_other _ _ _ hislands, smGet_smPut_same]
  have hexec : exec (.backgroundWritebackComplete pc) s = .next (rollCheck (writebackDone pc.val s)) := rfl
  by_cases ht : r.trigger = 6
  · have hdone : writebackDone pc.val s = setCoreIsland pc.val .offState (logFault 3 1 (uCore pc.val) (some r.lc)
        (r.toPc + r.fromPc * 2 ^ 16 + r.trigger * 2 ^ 32) (r.pause.getD 0) { s1 with resil := { s1.resil with relocs := s1.resil.relocs.erase r } }) := by
      simp only [writebackDone, h, ht]
      rfl
    rw [hdone, hl, rollCheck_idle (by show s1.live.roll = none; rw [hlive, hroll])] at hexec
    refine ⟨_, hexec, ?_, newest_cons rfl he, hoff _, fun hn => absurd ht hn, fun _ => ⟨?_, ?_⟩⟩
    · show s1.resil.relocs.erase r = _
      rw [hres]
    · show s1.resil.cores = _
      rw [hres]
    · show smGet zeroNat s1.resil.spareUsed 0 = _
      rw [hres]
      rfl
  · have hdone : writebackDone pc.val s = useSpare 0 (let x := setCoreIsland pc.val .offState (logFault 3 1 (uCore pc.val) (some r.lc)
        (r.toPc + r.fromPc * 2 ^ 16 + r.trigger * 2 ^ 32) (r.pause.getD 0) { s1 with resil := { s1.resil with relocs := s1.resil.relocs.erase r } })
        setPhys pc.val { phys x pc.val with service := false } x) := by
      simp only [writebackDone, h, if_neg ht]
      rfl
    rw [hdone, hl, rollCheck_idle (by show s1.live.roll = none; rw [hlive, hroll])] at hexec
    refine ⟨_, hexec, ?_, newest_cons rfl he, hoff _, fun _ => ⟨?_, ?_⟩, fun h6 => absurd h6 ht⟩
    · show s1.resil.relocs.erase r = _
      rw [hres]
    · exact congrArg PhysCore.service (smGet_smPut_same ..)
    · show smGet zeroNat (smPut zeroNat s1.resil.spareUsed 0 (smGet zeroNat s1.resil.spareUsed 0 + 1)) 0 = _
      rw [smGet_smPut_same, hres]
      rfl

/-! ### Leases -/

/-- A revocation is logged, counted and noticed. -/
theorem noteRevoke_spec (kind n lc : Nat) (s : State) : Newest 0x502 (noteRevoke kind n lc s) ∧
    smGet cnt0 (noteRevoke kind n lc s).ctl.counters 0x6000050 = revokedCount s + 1 ∧ (noteRevoke kind n lc s).mem = s.mem ∧
    (noteRevoke kind n lc s).office = s.office := by
  obtain ⟨e, m, p, i, he, hl⟩ := logFault_eq (s := s) 0x502 1 (uCore (pcOf s lc)) (some lc) kind n (by decide)
  obtain ⟨j, hj⟩ := pulse_eq (s := bump 0x6000050 (logFault 0x502 1 (uCore (pcOf s lc)) (some lc) kind n s)) 150
  rw [hl] at hj
  rw [noteRevoke, hl, hj]
  exact ⟨newest_cons rfl he, smGet_smPut_same .., rfl, rfl⟩

theorem revokedCount_of_beside (h : beside t = beside s) : revokedCount t = revokedCount s := by
  have hc : [(0, revokedCount t)] = [(0, revokedCount s)] := (congrArg (fun x : State => x.ctl.counters) h :)
  simpa using hc
theorem revokedCount_beginNext (line n : Nat) (s : State) : revokedCount (beginNext line n s) = revokedCount s := by
  induction n generalizing s with
  | zero => rfl
  | succ n ih =>
    unfold beginNext
    split
    · rfl
    · split
      · rfl
      next q _ =>
        dsimp only
        split
        · rw [ih]
          have h : beside (completeDev q (serveEvict q (countReq q s))) = beside s := by simp
          exact (revokedCount_of_beside h :)
        · split
          · rw [ih]
            have h : beside (homeDone q (countReq q s)).2.2 = beside s := by simp
            exact (revokedCount_of_beside h :)
          · have h : beside (bumpBy (hnBase (homeOf (countReq q s) line) + 0x20 + 8 * cntSnoop) (snoopsOf q (countReq q s)).length
                (sendSnoops line (snoopsOf q (countReq q s)) (countReq q s))) = beside s := by
              rw [beside_bumpBy, beside_sendSnoops, beside_countReq]
              simp only [hnBase, cntSnoop]
              omega
            exact (revokedCount_of_beside h :)
theorem revokedCount_answerArrives (pc line : Nat) (s : State) : revokedCount (answerArrives pc line s) = revokedCount s := by
  unfold answerArrives
  split
  · rfl
  · split
    · unfold proxyAnswer
      dsimp only
      split
      · rfl
      · refine revokedCount_of_beside ((beside_cohSend ..).trans ?_)
        split
        · rw [beside_setDir]
          rfl
        · rfl
    next a _ _ q _ =>
      generalize hy : takeAnswer q a { s with mem := { s.mem with answers := s.mem.answers.erase a } } = y
      have h2 : beside y.2 = beside s := by
        rw [← hy, beside_takeAnswer]
        rfl
      dsimp only
      split
      · rw [revokedCount_beginNext]
        refine (revokedCount_of_beside (beside_clearLate ..)).trans ?_
        exact (revokedCount_of_beside ((beside_homeDone ..).trans h2) :)
      · exact (revokedCount_of_beside h2 :)
theorem revokedCount_proxiedSnoop (pc line : Nat) (s : State) : revokedCount (proxiedSnoop pc line false s) = revokedCount s := by
  unfold proxiedSnoop
  split
  · split
    · dsimp only
      rw [if_neg (by decide), revokedCount_answerArrives, deliverSnoop]
      dsimp only
      split
      · exact revokedCount_of_beside (beside_snoopL2 ..)
      · rfl
    · rfl
  · rfl
theorem transitOf_freeTransit (pc line : Nat) (s : State) : transitOf (freeTransit pc line s) pc line = none := by
  have hp : (priv (freeTransit pc line s) pc).transit = (priv s pc).transit.filter fun t => t.line != line :=
    congrArg PrivCaches.transit (smGet_smPut_same ..)
  rw [transitOf, hp, List.find?_eq_none]
  intro x hx
  simpa using (List.mem_filter.mp hx).2

theorem leasesRevoked (s : State) (lc : LC) (n : Nat) :
    let revoked (u : State) : Prop := Newest 0x502 u ∧ smGet cnt0 u.ctl.counters 0x6000050 = smGet cnt0 s.ctl.counters 0x6000050 + 1 ∧ SameBytes s u
    ((queueOf s n).lease = some lc.val → (coreOf s lc.val).standing = .fenced → Completes (.leaseRevoke 0 lc n) s fun u => revoked u ∧
      queueOf u n = { queueOf s n with lease := none } ∧ ∀ q, q ≠ n → queueOf u q = queueOf s q) ∧
    ((queueOf s n).lease ≠ some lc.val ∨ (coreOf s lc.val).standing ≠ .fenced → exec (.leaseRevoke 0 lc n) s = .next s) ∧
    exec (.leaseRevoke 1 lc n) s = .next s ∧ exec (.leaseRevoke 2 lc n) s = .next s ∧
    ((∀ q ∈ s.mem.homeQ, ¬(q.line = n ∧ q.timedOut = true ∧ ∃ x ∈ q.pending, x.1 = pcOf s lc.val)) → exec (.leaseRevoke 3 lc n) s = .next s) ∧
    ((∃ q ∈ s.mem.homeQ, q.line = n ∧ q.timedOut = true ∧ ∃ x ∈ q.pending, x.1 = pcOf s lc.val) → Completes (.leaseRevoke 3 lc n) s fun u => Newest 0x502 u ∧
      smGet cnt0 u.ctl.counters 0x6000050 = smGet cnt0 s.ctl.counters 0x6000050 + 1) ∧
    ((transitOf s (pcOf s lc.val) n).isSome = false → exec (.leaseRevoke 4 lc n) s = .next s) ∧
    ((transitOf s (pcOf s lc.val) n).isSome = true → Completes (.leaseRevoke 4 lc n) s fun u => revoked u ∧ transitOf u (pcOf s lc.val) n = none) := by
  intro revoked
  have hexec (k : Fin 5) : exec (.leaseRevoke k lc n) s = .next (leaseRevoke k.val lc.val n s) := rfl
  refine ⟨fun hlease hf => ?_, fun h => ?_, rfl, rfl, fun h => ?_, fun h => ?_, fun h => ?_, fun h => ?_⟩
  · obtain ⟨hnew, hcount, hmem, hoffice⟩ := noteRevoke_spec 0 n lc.val (setQueue n { queueOf s n with lease := none } s)
    have hq (q : Nat) : queueOf (noteRevoke 0 n lc.val (setQueue n { queueOf s n with lease := none } s)) q =
        if q = n then { queueOf s n with lease := none } else queueOf s q := by
      rw [queueOf, hoffice]
      exact smGet_smPut ..
    refine ⟨_, (hexec 0).trans (congrArg _ (if_pos ⟨hlease, hf⟩)), ⟨hnew, hcount, fun a => ?_⟩, ?_, fun q hqn => ?_⟩
    · rw [readByte, hmem]
      rfl
    · rw [hq, if_pos rfl]
    · rw [hq, if_neg hqn]
  · rw [hexec]
    exact congrArg _ (if_neg (by tauto))
  · rw [hexec]
    refine congrArg _ (if_neg ?_)
    simp only [List.any_eq_true, Bool.and_eq_true, beq_iff_eq]
    rintro ⟨q, hq, ⟨hline, hto⟩, x, hx, hpc⟩
    exact h q hq ⟨hline, hto, x, hx, hpc⟩
  · obtain ⟨hnew, hcount, -, -⟩ := noteRevoke_spec 3 (64 * n) lc.val (proxiedSnoop (pcOf s lc.val) n false s)
    refine ⟨_, (hexec 3).trans (congrArg _ (if_pos ?_)), hnew, hcount.trans (by rw [revokedCount_proxiedSnoop]; rfl)⟩
    obtain ⟨q, hq, hline, hto, x, hx, hpc⟩ := h
    simp only [List.any_eq_true, Bool.and_eq_true, beq_iff_eq]
    exact ⟨q, hq, ⟨hline, hto⟩, x, hx, hpc⟩
  · rw [hexec]
    exact congrArg _ (if_neg (by simp [h]))
  · obtain ⟨hnew, hcount, hmem, -⟩ := noteRevoke_spec 4 (64 * n) lc.val (freeTransit (pcOf s lc.val) n s)
    refine ⟨_, (hexec 4).trans (congrArg _ (if_pos h)), ⟨hnew, hcount, fun a => ?_⟩, ?_⟩
    · rw [readByte, hmem]
      rfl
    · rw [transitOf, priv, hmem]
      exact transitOf_freeTransit ..

/-! ### Proxied snoops -/

theorem proxiedSnoops (s : State) (pc : Fin 576) (line : Nat) (bad : Bool) :
    ((∀ q ∈ s.mem.homeQ, ∀ x ∈ q.pending, ¬(q.line = line ∧ q.served = true ∧ x.1 = pc.val)) → exec (.proxiedSnoop pc line bad) s = .next s) ∧
    ∀ q k, s.mem.homeQ.find? (fun q => q.line == line && q.served && q.pending.any fun x => x.1 == pc.val) = some q →
      q.pending.find? (fun x => x.1 == pc.val) = some (pc.val, k) → Completes (.proxiedSnoop pc line bad) s fun u =>
        u = (if bad then poisonLine line else id) (answerArrives pc.val line (deliverSnoop k pc.val line s)) := by
  have hexec : exec (.proxiedSnoop pc line bad) s = .next (proxiedSnoop pc.val line bad s) := rfl
  refine ⟨fun h => ?_, fun q k hq hk => ⟨_, hexec, ?_⟩⟩
  · have hnone : s.mem.homeQ.find? (fun q => q.line == line && q.served && q.pending.any fun x => x.1 == pc.val) = none := by
      rw [List.find?_eq_none]
      intro q hq hany
      simp only [Bool.and_eq_true, beq_iff_eq, List.any_eq_true] at hany
      obtain ⟨⟨hline, hserved⟩, x, hx, hpc⟩ := hany
      exact h q hq x hx ⟨hline, hserved, hpc⟩
    rw [hexec, proxiedSnoop, hnone]
  · rw [proxiedSnoop, hq]
    dsimp only
    rw [hk]
    cases bad <;> rfl

end Sys2Proof.Machine
end

section
/-! Service pairs (20 R494), the census (R491 to R493) and the spare horizon (R496). -/

namespace Sys2Proof.Machine
variable {s t : State}

/-! ### Service pairs -/

/-- Of two pairs in service one is not `k`. -/
theorem otherPair_spec {up : BitVec 4} (h : 2 ≤ countOnes up 4) (k : Nat) : up.getLsbD (otherPair up k) = true ∧ otherPair up k ≠ k := by
  unfold otherPair
  cases hf : (List.range 4).find? (fun j => up.getLsbD j && j != k) with
  | some j =>
    have hp := List.find?_some hf
    simpa using hp
  | none =>
    have hbit (j : Nat) (hj : j < 4) : (up.getLsbD j).toNat ≤ if j = k then 1 else 0 := by
      have hn := List.find?_eq_none.mp hf j (List.mem_range.mpr hj)
      cases hup : up.getLsbD j with
      | false => exact Nat.zero_le _
      | true =>
        have hk : j = k := by simpa [hup] using hn
        rw [if_pos hk]
        exact Nat.le_refl 1
    have h0 := hbit 0 (by decide)
    have h1 := hbit 1 (by decide)
    have h2 := hbit 2 (by decide)
    have h3 := hbit 3 (by decide)
    simp only [countOnes] at h
    split_ifs at h0 h1 h2 h3 <;> omega

/-- The roles after a pair is lost: an active or a standby pair that serves keeps its role, the standby follows a lost active keeper, and two pairs
that serve take the two roles. -/
theorem pairRoles_spec (up : BitVec 4) (active standby : Nat) :
    (up.getLsbD active = true → (pairRoles up active standby).1 = active) ∧
    (up.getLsbD active = false → up.getLsbD standby = true → (pairRoles up active standby).1 = standby) ∧
    (2 ≤ countOnes up 4 → (pairRoles up active standby).1 ≠ (pairRoles up active standby).2 ∧ up.getLsbD (pairRoles up active standby).1 = true ∧
      up.getLsbD (pairRoles up active standby).2 = true) := by
  unfold pairRoles
  extract_lets a
  refine ⟨fun h => if_pos h, fun h h' => by simp [a, h, h'], fun h => ?_⟩
  have ha : up.getLsbD a = true := by
    simp only [a]
    split
    · assumption
    · split
      · assumption
      · exact (otherPair_spec h active).1
  dsimp only
  split
  next hs =>
    simp only [Bool.and_eq_true, bne_iff_ne] at hs
    exact ⟨hs.2.symm, ha, hs.1⟩
  next => exact ⟨(otherPair_spec h a).2.symm, ha, (otherPair_spec h a).1⟩

/-- The pairs that serve once pair `k` is lost. -/
def pairsWithout (k : Nat) (s : State) : BitVec 4 := s.cellar.pairsUp &&& ~~~(BitVec.ofNat 4 (2 ^ k))
theorem getLsbD_pairsWithout {k j : Nat} (hj : j < 4) : (pairsWithout k s).getLsbD j = (pairUp s j && j != k) := by
  rw [pairsWithout, BitVec.getLsbD_and, BitVec.getLsbD_not, BitVec.getLsbD_ofNat, Nat.testBit_two_pow, pairUp]
  simp only [hj, decide_true, Bool.true_and]
  rcases eq_or_ne k j with rfl | hk
  · simp
  · simp [hk, hk.symm]
/-- The keeper's state once pair `k` is lost. -/
def cellarWithout (k : Nat) (s : State) : Cellar :=
  { s.cellar with pairsUp := pairsWithout k s, active := (pairRoles (pairsWithout k s) s.cellar.active s.cellar.standby).1,
                  standby := (pairRoles (pairsWithout k s) s.cellar.active s.cellar.standby).2 }
/-- A pair that is lost: the spare used, the record, and the record of CONTAIN where this enters it. -/
theorem pairLost_spec {k : Nat} (h : pairUp s k = true) : ∃ e l n p i c sl, pairLost k s =
      { s with cellar := cellarWithout k s, pads := p, intc := i,
               resil := { s.resil with log := e :: l, logSeq := n, contain := c, spareLeft := sl,
                                       spareUsed := smPut zeroNat s.resil.spareUsed 9 (spareUsed s 9 + 1) } } ∧
    e.record.take 2 = bytesOfNat (if countOnes (pairsWithout k s) 4 ≤ 1 ∧ s.resil.contain.getLsbD 2 = false then 0x503 else 0x405) 2 ∧
    (countOnes (pairsWithout k s) 4 ≤ 1 → c.getLsbD 2 = true) := by
  obtain ⟨e, n, p, i, he, hl⟩ := logFault_eq (s := { s with cellar := cellarWithout k s }) 0x405 2 (uPair k) none k 0 (by decide)
  have hlost : pairLost k s = if countOnes (pairsWithout k s) 4 ≤ 1 then
      enterContain containPair (useSpare 9 (logFault 0x405 2 (uPair k) none k 0 { s with cellar := cellarWithout k s }))
    else useSpare 9 (logFault 0x405 2 (uPair k) none k 0 { s with cellar := cellarWithout k s }) := by
    rw [pairLost, if_neg (by simp [h])]
    rfl
  rw [hl] at hlost
  by_cases hone : countOnes (pairsWithout k s) 4 ≤ 1
  · rw [if_pos hone] at hlost
    cases hbit : s.resil.contain.getLsbD 2 with
    | true =>
      exact ⟨e, _, n, p, i, _, _, hlost.trans (enterContain_again containPair hbit), by simp [he], fun _ => hbit⟩
    | false =>
      obtain ⟨e', n', p', i', he', hs⟩ := enterContain_first (s := useSpare 9 { s with
        cellar := cellarWithout k s, resil := { s.resil with log := e :: s.resil.log.take 4095, logSeq := n }, pads := p, intc := i }) containPair hbit
      refine ⟨e', _, n', p', i', _, _, hlost.trans hs, by simp [he', hone], fun _ => ?_⟩
      show (s.resil.contain ||| BitVec.ofNat 6 (2 ^ 2)).getLsbD 2 = true
      rw [BitVec.getLsbD_or]
      exact Bool.or_eq_true_iff.mpr (.inr (by decide))
  · rw [if_neg hone] at hlost
    exact ⟨e, _, n, p, i, _, _, hlost, by simp [he, hone], fun h1 => absurd h1 hone⟩

theorem pairsStop (s : State) (k : Fin 4) (silent released ok : Bool) :
    (pairUp s k.val = false → exec (.pairMismatch k silent released) s = .next s) ∧
    (pairUp s k.val = true → Completes (.pairMismatch k silent released) s fun u => k.val ∈ u.resil.testing ∧ u.cellar = s.cellar ∧ SameBytes s u ∧
      (silent = false → Newest 0x404 u) ∧ (silent = true → released = true → u.resil.contain.getLsbD 2 = true) ∧
      (silent = true → released = false → u.resil.contain = s.resil.contain ∧ u.resil.log = s.resil.log)) := by
  have hexec : exec (.pairMismatch k silent released) s = .next (pairStops k.val silent released s) := rfl
  refine ⟨fun h => ?_, fun h => ⟨_, hexec, ?_⟩⟩
  · rw [hexec, pairStops, if_pos (by simp [h])]
  rw [pairStops, if_neg (by simp [h])]
  dsimp only
  cases silent with
  | false =>
    obtain ⟨e, n, p, i, he, hl⟩ := logFault_eq (s := { s with resil := { s.resil with testing := k.val :: s.resil.testing.erase k.val } }) 0x404 1
      (uPair k.val) none k.val 0 (by decide)
    rw [if_neg (by decide), hl]
    exact ⟨List.mem_cons_self .., rfl, fun _ => rfl, fun _ => newest_cons rfl he, fun hs => absurd hs (by decide), fun hs => absurd hs (by decide)⟩
  | true =>
    rw [if_pos rfl]
    cases released with
    | false => exact ⟨List.mem_cons_self .., rfl, fun _ => rfl, fun hs => absurd hs (by decide), fun _ hs => absurd hs (by decide), fun _ _ => ⟨rfl, rfl⟩⟩
    | true =>
      obtain ⟨l, n, p, i, c, hs, hbit, -⟩ := enterContain_spec
        (s := { s with resil := { s.resil with testing := k.val :: s.resil.testing.erase k.val } }) containPair (by decide)
      rw [if_pos rfl, hs]
      exact ⟨List.mem_cons_self .., rfl, fun _ => rfl, fun hs => absurd hs (by decide), fun _ _ => hbit, fun _ hs => absurd hs (by decide)⟩

theorem pairsTested (s : State) (k : Fin 4) (ok : Bool) :
    (s.resil.testing.contains k.val = false → exec (.pairSelfTestComplete k ok) s = .next s) ∧
    (s.resil.testing.contains k.val = true → pairUp s k.val = true → Completes (.pairSelfTestComplete k ok) s fun u =>
      u.resil.testing = s.resil.testing.erase k.val ∧ SameBytes s u ∧ (ok = true → u.cellar = s.cellar ∧ u.resil.contain = s.resil.contain) ∧
      (ok = false → (∀ j, j < 4 → pairUp u j = (pairUp s j && j != k.val)) ∧ spareUsed u 9 = spareUsed s 9 + 1 ∧
        Newest (if countOnes u.cellar.pairsUp 4 ≤ 1 ∧ s.resil.contain.getLsbD 2 = false then 0x503 else 0x405) u ∧
        (u.cellar.pairsUp.getLsbD s.cellar.active = true → u.cellar.active = s.cellar.active) ∧
        (u.cellar.pairsUp.getLsbD s.cellar.active = false → u.cellar.pairsUp.getLsbD s.cellar.standby = true → u.cellar.active = s.cellar.standby) ∧
        (2 ≤ countOnes u.cellar.pairsUp 4 → u.cellar.active ≠ u.cellar.standby ∧ u.cellar.pairsUp.getLsbD u.cellar.active = true ∧
          u.cellar.pairsUp.getLsbD u.cellar.standby = true) ∧
        (countOnes u.cellar.pairsUp 4 ≤ 1 → u.resil.contain.getLsbD 2 = true))) := by
  have hexec : exec (.pairSelfTestComplete k ok) s = .next (pairTested k.val ok s) := rfl
  refine ⟨fun h => ?_, fun h hup => ⟨_, hexec, ?_⟩⟩
  · rw [hexec, pairTested, if_neg (by simpa using h)]
  rw [pairTested, if_pos h]
  dsimp only
  cases ok with
  | true => exact ⟨rfl, fun _ => rfl, fun _ => ⟨rfl, rfl⟩, fun hs => absurd hs (by decide)⟩
  | false =>
    obtain ⟨e, l, n, p, i, c, sl, hlost, he, hc⟩ := pairLost_spec (s := { s with resil := { s.resil with testing := s.resil.testing.erase k.val } }) hup
    rw [if_neg (by decide), hlost]
    obtain ⟨hkeep, hfollow, htwo⟩ := pairRoles_spec (pairsWithout k.val s) s.cellar.active s.cellar.standby
    exact ⟨rfl, fun _ => rfl, fun hs => absurd hs (by decide), fun _ => ⟨fun j hj => getLsbD_pairsWithout hj, smGet_smPut_same .., newest_cons rfl he,
      hkeep, hfollow, htwo, hc⟩⟩

/-! ### The census -/

/-- A census round has been counted, its suspects noted. -/
def counted (bad : List Nat) (s : State) : State := { s with resil := { s.resil with suspects := bad, rounds := s.resil.rounds + 1 } }
theorem census_one (x : Nat) (s : State) : census [x] s =
    if s.resil.suspects.contains x then
      (if isHomePart x then homePart x (counted [x] s) else if isFenced s x then counted [x] s else replaceUnit x (fenceUnit x 0 (counted [x] s)))
    else logFault 0x501 1 x none 0 0 (counted [x] s) := rfl
theorem isHomePart_false {x : Nat} (h : x / 2 ^ 24 ≠ 2 ∨ x % 2 ^ 24 < 256) : isHomePart x = false := by
  unfold isHomePart
  rw [decide_eq_false_iff_not]
  omega

/-- The device after a unit that was suspect before has been fenced: beside the log, the pads, the lines and the counters its census marks. -/
theorem census_fences {x : Nat} (hx : x ∈ s.resil.suspects) (hpart : isHomePart x = false) (hf : isFenced s x = false) : ∃ l n p i c,
    census [x] s = replaceUnit x { s with
      resil := { s.resil with suspects := [x], rounds := s.resil.rounds + 1, fencedUnits := s.resil.fencedUnits ++ [x], log := l, logSeq := n },
      pads := p, intc := i, ctl := { s.ctl with counters := c } } := by
  obtain ⟨e, n, p, i, -, hs⟩ := fenceUnit_first (s := counted [x] s) x 0 hf
  refine ⟨e :: s.resil.log.take 4095, n, p, i, (bump 0x6000058 s).ctl.counters, ?_⟩
  rw [census_one, if_pos (by simpa using hx), hpart, if_neg (by decide), hf, if_neg (by decide), hs]
  rfl
theorem isFenced_append (l : List Nat) (x : Nat) : (l ++ [x]).contains x = true := by simp
theorem isFenced_erase {x : Nat} (hf : isFenced s x = false) : ((s.resil.fencedUnits ++ [x]).erase x).contains x = false := by
  have hx : x ∉ s.resil.fencedUnits := by simpa [isFenced] using hf
  rw [List.erase_append_right _ hx]
  simpa using hx

/-- A home that is fenced enters CONTAIN (20 R492). -/
theorem census_home {n : Nat} (hn : n < 256) (hx : uHome n ∈ s.resil.suspects) (hf : isFenced s (uHome n) = false) : let u := census [uHome n] s
    isFenced u (uHome n) = true ∧ (slice u n).fenced = true ∧ u.resil.contain.getLsbD 4 = true ∧ SameBytes s u := by
  have hkind : uHome n / 2 ^ 24 = 2 := by unfold uHome unitWord; omega
  have hnum : uHome n % 2 ^ 24 = n := by unfold uHome unitWord; omega
  obtain ⟨l, m, p, i, c, hu⟩ := census_fences hx (isHomePart_false (.inr (by omega))) hf
  simp only [replaceUnit, hkind, hnum] at hu
  intro u
  obtain ⟨l', m', p', i', c', hs, hbit, -⟩ := enterContain_spec (s := setSlice n { slice s n with fenced := true } { s with
    resil := { s.resil with suspects := [uHome n], rounds := s.resil.rounds + 1, fencedUnits := s.resil.fencedUnits ++ [uHome n], log := l, logSeq := m },
    pads := p, intc := i, ctl := { s.ctl with counters := c } }) containHome (by decide)
  have hu' : u = _ := hu.trans hs
  rw [hu']
  exact ⟨isFenced_append .., congrArg Slice.fenced (smGet_smPut_same ..), hbit, fun _ => rfl⟩
/-- A memory controller that is fenced enters CONTAIN (20 R492). -/
theorem census_memory {n : Nat} (hn : n < 16) (hx : unitWord 3 n ∈ s.resil.suspects) (hf : isFenced s (unitWord 3 n) = false) :
    let u := census [unitWord 3 n] s
    isFenced u (unitWord 3 n) = true ∧ (memCtl u n).fenced = true ∧ u.resil.contain.getLsbD 1 = true ∧ SameBytes s u := by
  have hkind : unitWord 3 n / 2 ^ 24 = 3 := by unfold unitWord; omega
  have hnum : unitWord 3 n % 2 ^ 24 = n := by unfold unitWord; omega
  obtain ⟨l, m, p, i, c, hu⟩ := census_fences hx (isHomePart_false (.inl (by omega))) hf
  simp only [replaceUnit, hkind, hnum] at hu
  intro u
  obtain ⟨l', m', p', i', c', hs, hbit, -⟩ := enterContain_spec (s := setMemCtl n { memCtl s n with fenced := true } { s with
    resil := { s.resil with suspects := [unitWord 3 n], rounds := s.resil.rounds + 1, fencedUnits := s.resil.fencedUnits ++ [unitWord 3 n], log := l,
                            logSeq := m },
    pads := p, intc := i, ctl := { s.ctl with counters := c } }) containMem (by decide)
  have hu' : u = _ := hu.trans hs
  rw [hu']
  exact ⟨isFenced_append .., congrArg MemCtl.fenced (smGet_smPut_same ..), hbit, fun _ => rfl⟩
/-- A service pair that is fenced leaves service (20 R492, R494). -/
theorem census_pair {n : Nat} (hn : n < 4) (hx : uPair n ∈ s.resil.suspects) (hf : isFenced s (uPair n) = false) (hup : pairUp s n = true) :
    let u := census [uPair n] s
    pairUp u n = false ∧ spareUsed u 9 = spareUsed s 9 + 1 ∧ SameBytes s u := by
  have hkind : uPair n / 2 ^ 24 = 8 := by unfold uPair unitWord; omega
  have hnum : uPair n % 2 ^ 24 = n := by unfold uPair unitWord; omega
  obtain ⟨l, m, p, i, c, hu⟩ := census_fences hx (isHomePart_false (.inl (by omega))) hf
  simp only [replaceUnit, hkind, hnum] at hu
  intro u
  obtain ⟨e, l', m', p', i', c', sl, hs, -, -⟩ := pairLost_spec (k := n) (s := { s with
    resil := { s.resil with suspects := [uPair n], rounds := s.resil.rounds + 1, fencedUnits := s.resil.fencedUnits ++ [uPair n], log := l, logSeq := m },
    pads := p, intc := i, ctl := { s.ctl with counters := c } }) hup
  have hu' : u = _ := hu.trans hs
  rw [hu']
  refine ⟨?_, smGet_smPut_same .., fun _ => rfl⟩
  have hbit := getLsbD_pairsWithout (s := s) (k := n) hn
  rw [bne_self_eq_false, Bool.and_false] at hbit
  exact hbit

/-- The pipeline that takes over is one of the tile's others, and in service. -/
theorem taker_some {p q : Nat} (hp : p < 8) (h : taker s p = some q) : sopOut s q = false ∧ q / 4 = p / 4 ∧ q ≠ p := by
  have hq := List.find?_some h
  obtain ⟨i, hi, rfl⟩ := List.mem_map.mp (List.mem_of_find?_eq_some h)
  have hi' := List.mem_range.mp hi
  exact ⟨by simpa using hq, by omega, by omega⟩
theorem taker_none {p q : Nat} (h : taker s p = none) (hq : q / 4 = p / 4) (hne : q ≠ p) : sopOut s q = true := by
  have hmem : q ∈ (List.range 3).map fun i => p / 4 * 4 + (p + 1 + i) % 4 := by
    rw [List.mem_map]
    exact ⟨(q + 4 - p % 4 - 1) % 4, List.mem_range.mpr (by omega), by omega⟩
  simpa using List.find?_eq_none.mp h q hmem
/-- A pipeline that is fenced hands over to another of its tile, or CONTAIN is entered (20 R492, R493). -/
theorem census_pipeline {n : Nat} (hn : n < 8) (hx : uSop n ∈ s.resil.suspects) (hf : isFenced s (uSop n) = false) : let u := census [uSop n] s
    u.office.sopFenced = s.office.sopFenced ||| BitVec.ofNat 8 (2 ^ n) ∧ SameBytes s u ∧
    ((∃ q, q / 4 = n / 4 ∧ q ≠ n ∧ sopOut s q = false) → isFenced u (uSop n) = false ∧ Newest 0x505 u) ∧
    ((∀ q, q / 4 = n / 4 → q ≠ n → sopOut s q = true) → isFenced u (uSop n) = true ∧ u.resil.contain.getLsbD 5 = true) := by
  have hkind : uSop n / 2 ^ 24 = 5 := by unfold uSop unitWord; omega
  have hnum : uSop n % 2 ^ 24 = n := by unfold uSop unitWord; omega
  obtain ⟨l, m, p, i, c, hu⟩ := census_fences hx (isHomePart_false (.inl (by omega))) hf
  simp only [replaceUnit, hkind, hnum] at hu
  intro u
  generalize hv : ({ s with
    resil := { s.resil with suspects := [uSop n], rounds := s.resil.rounds + 1, fencedUnits := s.resil.fencedUnits ++ [uSop n], log := l, logSeq := m },
    pads := p, intc := i, ctl := { s.ctl with counters := c },
    office := { s.office with sopFenced := s.office.sopFenced ||| BitVec.ofNat 8 (2 ^ n) } } : State) = v
  have hu : u = match taker v n with
      | some q => unfence (uSop n) (logFault 0x505 1 (uSop n) none n q v)
      | none => enterContain containUnit v := by
    rw [← hv]
    exact hu
  have hout (q : Nat) (hq : q ≠ n) : sopOut v q = sopOut s q := by
    rw [← hv]
    simp only [sopOut, BitVec.getLsbD_or, BitVec.getLsbD_ofNat, Nat.testBit_two_pow, hq.symm, decide_false, Bool.and_false, Bool.or_false]
  cases htake : taker v n with
  | some q =>
    obtain ⟨hserves, htile, hne⟩ := taker_some hn htake
    obtain ⟨e, m', p', i', he, hl⟩ := logFault_eq (s := v) 0x505 1 (uSop n) none n q (by decide)
    rw [htake] at hu
    dsimp only at hu
    rw [hl] at hu
    rw [hu, ← hv]
    refine ⟨rfl, fun _ => rfl, fun _ => ⟨isFenced_erase hf, newest_cons rfl he⟩, fun hall => ?_⟩
    have h1 := hall q htile hne
    rw [← hout q hne, hserves] at h1
    cases h1
  | none =>
    obtain ⟨l', m', p', i', c', hs, hbit, -⟩ := enterContain_spec (s := v) containUnit (by decide)
    rw [htake] at hu
    dsimp only at hu
    rw [hs] at hu
    rw [hu]
    refine ⟨by rw [← hv], fun a => by rw [← hv]; rfl, ?_, fun _ => ⟨by rw [← hv]; exact isFenced_append .., hbit⟩⟩
    rintro ⟨q, hq, hne, hserves⟩
    have h1 := taker_none htake hq hne
    rw [hout q hne, hserves] at h1
    cases h1

end Sys2Proof.Machine
end

section
/-! The parts of a home node in the census (20 R491, R492), the spare horizon (R496), and the obligation on resilience. -/

namespace Sys2Proof.Machine
variable {s t : State}

/-! ### A home node's parts -/

/-- A part of a home is recorded before its redundancy takes over. -/
theorem census_part {x n part : Nat} (hx : x ∈ s.resil.suspects) (hx2 : x = 2 * 2 ^ 24 + 256 * part + n) (hn : n < 256) (hpart : 1 ≤ part)
    (hpart' : part < 4) : ∃ e l m p i c,
    census [x] s = (if part < 3 then copyLost n (part - 1) else removeSlice n) { s with
      resil := { s.resil with suspects := [x], rounds := s.resil.rounds + 1, log := e :: l, logSeq := m }, pads := p, intc := i,
      ctl := { s.ctl with counters := c } } := by
  have his : isHomePart x = true := by
    unfold isHomePart
    rw [decide_eq_true_iff]
    omega
  have hnum : x % 256 = n := by omega
  have hp : x % 2 ^ 24 / 256 = part := by omega
  obtain ⟨e, m, p, i, -, hl⟩ := logFault_eq (s := counted [x] s) 0x500 2 (uHome n) none 0 0 (by decide)
  obtain ⟨j, hj⟩ := pulse_eq (s := logFault 0x500 2 (uHome n) none 0 0 (counted [x] s)) 146
  rw [hl] at hj
  refine ⟨e, s.resil.log.take 4095, m, p, j, (bump 0x6000058 s).ctl.counters, ?_⟩
  rw [census_one, if_pos (by simpa using hx), his, if_pos rfl, homePart]
  simp only [hnum, hp]
  rw [hl, hj]
  split <;> rfl

theorem copyLost_spec (n copy : Nat) (s : State) : let u := copyLost n copy s
    (slice u n).copyLost = (slice s n).copyLost ||| BitVec.ofNat 2 (2 ^ copy) ∧ SameBytes s u ∧ (∃ e ∈ u.resil.log, e.record.take 2 = bytesOfNat 0xE 2) ∧
    ((slice u n).copyLost ≠ 3 → (slice u n).fenced = (slice s n).fenced ∧ u.resil.contain = s.resil.contain) ∧
    ((slice u n).copyLost = 3 → (slice u n).fenced = true ∧ u.resil.contain.getLsbD 4 = true) := by
  intro u
  generalize hc : (slice s n).copyLost ||| BitVec.ofNat 2 (2 ^ copy) = c
  have hu : u = if c = 3 then enterContain containHome (setSlice n { slice s n with copyLost := c, fenced := true }
        (fenceUnit (uHome n) 0 (logFault 0xE 1 (uHome n) none copy 0 (setSlice n { slice s n with copyLost := c } s))))
      else logFault 0xE 1 (uHome n) none copy 0 (setSlice n { slice s n with copyLost := c } s) := by
    rw [← hc]
    rfl
  obtain ⟨e, m, p, i, he, hl⟩ := logFault_eq (s := setSlice n { slice s n with copyLost := c } s) 0xE 1 (uHome n) none copy 0 (by decide)
  rw [hl] at hu
  by_cases h3 : c = 3
  · obtain ⟨l1, m1, p1, i1, f1, c1, hfence, -, hlog1⟩ := fenceUnit_spec (s := { setSlice n { slice s n with copyLost := c } s with
      resil := { s.resil with log := e :: s.resil.log.take 4095, logSeq := m }, pads := p, intc := i }) (uHome n) 0
    obtain ⟨l2, m2, p2, i2, c2, hcontain, hbit, hlog2⟩ := enterContain_spec (s := setSlice n { slice s n with copyLost := c, fenced := true } {
      setSlice n { slice s n with copyLost := c } s with
        resil := { s.resil with fencedUnits := f1, log := l1, logSeq := m1 }, pads := p1, intc := i1, ctl := { s.ctl with counters := c1 } })
      containHome (by decide)
    rw [if_pos h3] at hu
    have hu' : u = _ := hu.trans ((congrArg (fun x => enterContain containHome (setSlice n { slice s n with copyLost := c, fenced := true } x))
      hfence).trans hcontain)
    have hslice : slice u n = { slice s n with copyLost := c, fenced := true } := by
      rw [hu']
      exact smGet_smPut_same ..
    rw [hslice]
    refine ⟨rfl, fun a => by rw [hu']; rfl, ⟨e, ?_, he⟩, fun hne => absurd h3 hne, fun _ => ⟨rfl, by rw [hu']; exact hbit⟩⟩
    have h1 : e ∈ l1 ∧ e ∈ l1.take 4095 := by
      obtain h1 | ⟨e', h1⟩ := hlog1 <;> rw [h1] <;> simp [List.take_take]
    rw [hu']
    show e ∈ l2
    obtain h2 | ⟨e', h2⟩ := hlog2
    · rw [h2]
      exact h1.1
    · rw [h2]
      exact List.mem_cons_of_mem e' h1.2
  · rw [if_neg h3] at hu
    have hslice : slice u n = { slice s n with copyLost := c } := by
      rw [hu]
      exact smGet_smPut_same ..
    rw [hslice]
    exact ⟨rfl, fun a => by rw [hu]; rfl, ⟨e, by rw [hu]; exact List.mem_cons_self .., he⟩, fun _ => ⟨rfl, by rw [hu]; rfl⟩, fun he => absurd he h3⟩

theorem writtenBack_plain (l : SMap (Option L3Line)) (h : ∀ e ∈ l, ∀ x, e.2 = some x → x.stale = none) (s : State) : l.foldl writtenBack s = s := by
  induction l generalizing s with
  | nil => rfl
  | cons e l ih =>
    have he : writtenBack s e = s := by
      unfold writtenBack
      split
      next x hx =>
        rw [h e (List.mem_cons_self ..) x hx, ite_self]
        rfl
      next => rfl
    rw [List.foldl_cons, he]
    exact ih (fun e' he' => h e' (List.mem_cons_of_mem e he')) s
theorem removeSlice_spec (n : Nat) (s : State) : (slice (removeSlice n s) n).removed = true ∧ (slice (removeSlice n s) n).l3 = [] ∧
    ((∀ e ∈ (slice s n).l3, ∀ l, e.2 = some l → l.stale = none) → SameBytes s (removeSlice n s)) := by
  have hall (e : Nat × Option L3Line) : (BitVec.allOnes 16).getLsbD (e.1 % 16) = true := by
    rw [BitVec.getLsbD_allOnes, decide_eq_true_iff]
    omega
  have hslice : slice (removeSlice n s) n = { slice (flushL3 n (BitVec.allOnes 16) s) n with removed := true, retiring := none } := smGet_smPut_same ..
  refine ⟨by rw [hslice], ?_, fun hplain a => ?_⟩
  · rw [hslice, flushL3_eq]
    dsimp only
    rw [slice_setSlice, if_pos rfl, List.filter_eq_nil_iff]
    intro e _
    rw [hall]
    decide
  · have hsame : ((slice s n).l3.filter fun e => (BitVec.allOnes 16).getLsbD (e.1 % 16)).foldl writtenBack s = s :=
      writtenBack_plain _ (fun e he => hplain e (List.mem_of_mem_filter he)) s
    show readByte (flushL3 n (BitVec.allOnes 16) s) a = _
    rw [flushL3_eq]
    dsimp only
    rw [readByte_setSlice, hsame]

theorem census_suspects (s : State) (x : Word32) :
    (Completes (.census []) s fun u => u = { s with resil := { s.resil with suspects := [], rounds := s.resil.rounds + 1 } }) ∧
    (x.toNat ∉ s.resil.suspects → Completes (.census [x]) s fun u => Newest 0x501 u ∧ u.resil.suspects = [x.toNat] ∧ u.resil.rounds = s.resil.rounds + 1 ∧
      u.resil.fencedUnits = s.resil.fencedUnits ∧ u.cores = s.cores ∧ u.mem = s.mem) ∧
    (x.toNat ∈ s.resil.suspects → ∀ n,
      -- the units of the table of R492, each replaced from its redundancy, or CONTAIN entered
      (n < 256 → x.toNat = uHome n → isFenced s x.toNat = false → Completes (.census [x]) s fun u =>
        isFenced u x.toNat = true ∧ (slice u n).fenced = true ∧ u.resil.contain.getLsbD 4 = true ∧ SameBytes s u) ∧
      (∀ c, n < 256 → c < 2 → x.toNat = uHome n + 256 * (c + 1) → Completes (.census [x]) s fun u =>
        (slice u n).copyLost = (slice s n).copyLost ||| BitVec.ofNat 2 (2 ^ c) ∧ SameBytes s u ∧ (∃ e ∈ u.resil.log, e.record.take 2 = bytesOfNat 0xE 2) ∧
        ((slice u n).copyLost ≠ 3 → (slice u n).fenced = (slice s n).fenced ∧ u.resil.contain = s.resil.contain) ∧
        ((slice u n).copyLost = 3 → (slice u n).fenced = true ∧ u.resil.contain.getLsbD 4 = true)) ∧
      (n < 256 → x.toNat = uHome n + 768 → Completes (.census [x]) s fun u => (slice u n).removed = true ∧ (slice u n).l3 = [] ∧
        ((∀ e ∈ (slice s n).l3, ∀ l, e.2 = some l → l.stale = none) → SameBytes s u)) ∧
      (n < 16 → x.toNat = unitWord 3 n → isFenced s x.toNat = false → Completes (.census [x]) s fun u => isFenced u x.toNat = true ∧
        (memCtl u n).fenced = true ∧ u.resil.contain.getLsbD 1 = true ∧ SameBytes s u) ∧
      (n < 8 → x.toNat = uSop n → isFenced s x.toNat = false → Completes (.census [x]) s fun u =>
        u.office.sopFenced = s.office.sopFenced ||| BitVec.ofNat 8 (2 ^ n) ∧ SameBytes s u ∧
        ((∃ q, q / 4 = n / 4 ∧ q ≠ n ∧ sopOut s q = false) → isFenced u x.toNat = false ∧ Newest 0x505 u) ∧
        ((∀ q, q / 4 = n / 4 → q ≠ n → sopOut s q = true) → isFenced u x.toNat = true ∧ u.resil.contain.getLsbD 5 = true)) ∧
      (n < 4 → x.toNat = uPair n → isFenced s x.toNat = false → pairUp s n = true → Completes (.census [x]) s fun u => pairUp u n = false ∧
        spareUsed u 9 = spareUsed s 9 + 1 ∧ SameBytes s u)) := by
  have hexec : exec (.census [x]) s = .next (census [x.toNat] s) := rfl
  refine ⟨⟨_, rfl, rfl⟩, fun h => ⟨_, hexec, ?_⟩, fun h n => ⟨fun hn hx hf => ⟨_, hexec, ?_⟩, fun c hn hc hx => ⟨_, hexec, ?_⟩, fun hn hx => ⟨_, hexec, ?_⟩,
    fun hn hx hf => ⟨_, hexec, ?_⟩, fun hn hx hf => ⟨_, hexec, ?_⟩, fun hn hx hf hup => ⟨_, hexec, ?_⟩⟩⟩
  · obtain ⟨e, m, p, i, he, hl⟩ := logFault_eq (s := counted [x.toNat] s) 0x501 1 x.toNat none 0 0 (by decide)
    rw [census_one, if_neg (by simpa using h), hl]
    exact ⟨newest_cons rfl he, rfl, rfl, rfl, rfl, rfl⟩
  · rw [hx] at h hf ⊢
    exact census_home hn h hf
  · obtain ⟨e, l, m, p, i, k, hu⟩ := census_part h (part := c + 1) (n := n) (by rw [hx, uHome, unitWord]; omega) hn (by omega) (by omega)
    rw [if_pos (by omega), Nat.add_sub_cancel] at hu
    rw [hu]
    exact copyLost_spec n c _
  · obtain ⟨e, l, m, p, i, k, hu⟩ := census_part h (part := 3) (n := n) (by rw [hx, uHome, unitWord]; omega) hn (by omega) (by omega)
    rw [if_neg (by omega)] at hu
    rw [hu]
    exact removeSlice_spec n _
  · rw [hx] at h hf ⊢
    exact census_memory hn h hf
  · rw [hx] at h hf ⊢
    exact census_pipeline hn h hf
  · rw [hx] at h hf
    rw [hx]
    exact census_pair hn h hf hup

/-! ### The spare horizon -/

/-- Entry after entry of a list put at the numbers from `i` on. -/
theorem smGet_foldl_zipIdx {α : Type} [DecidableEq α] (d : Nat → α) (l : List α) (i k : Nat) (m : SMap α) :
    smGet d ((l.zipIdx i).foldl (fun m e => smPut d m e.2 e.1) m) k = if i ≤ k then l[k - i]?.getD (smGet d m k) else smGet d m k := by
  induction l generalizing i m with
  | nil => simp
  | cons x l ih =>
    rw [List.zipIdx_cons, List.foldl_cons, ih, smGet_smPut]
    rcases Nat.lt_trichotomy k i with h | h | h
    · rw [if_neg (by omega), if_neg (by omega), if_neg (by omega)]
    · rw [if_neg (by omega), if_pos h, if_pos (by omega), h, Nat.sub_self]
      rfl
    · rw [if_pos (by omega), if_neg (by omega), if_pos (by omega), show k - i = (k - (i + 1)) + 1 by omega, List.getElem?_cons_succ]

theorem foldl_min_spec (l : List Nat) (a : Nat) : (∀ x ∈ l, l.foldl min a ≤ x) ∧ l.foldl min a ≤ a ∧ (l.foldl min a = a ∨ l.foldl min a ∈ l) := by
  induction l generalizing a with
  | nil => exact ⟨fun _ h => (List.not_mem_nil h).elim, Nat.le_refl a, .inl rfl⟩
  | cons x l ih =>
    obtain ⟨hle, ha, hin⟩ := ih (min a x)
    rw [List.foldl_cons]
    refine ⟨fun y hy => ?_, ha.trans (Nat.min_le_left a x), ?_⟩
    · obtain rfl | hy := List.mem_cons.mp hy
      · exact ha.trans (Nat.min_le_right a y)
      · exact hle y hy
    · obtain h | h := hin
      · rw [h]
        obtain h' | h' := Nat.le_total a x
        · exact .inl (Nat.min_eq_left h')
        · exact .inr (by rw [Nat.min_eq_right h']; exact List.mem_cons_self ..)
      · exact .inr (List.mem_cons_of_mem x h)

/-- Of ten kinds the least day count is the horizon, and the first kind that has it is its kind. -/
theorem least_of_ten (f : Nat → Nat) (hf : ∀ k, f k ≤ 0xFFFF) : let days := (List.range 10).map f
    let h := days.foldl min 0xFFFF
    let kind := (days.findIdx? fun d => d == h).getD 0
    (∀ k, k < 10 → h ≤ f k) ∧ kind < 10 ∧ f kind = h ∧ ∀ k, k < kind → h < f k := by
  intro days h kind
  obtain ⟨hle, htop, hin⟩ := foldl_min_spec days 0xFFFF
  have hlow (k : Nat) (hk : k < 10) : h ≤ f k := hle _ (List.mem_map.mpr ⟨k, List.mem_range.mpr hk, rfl⟩)
  have hmem : h ∈ days := by
    obtain h1 | h1 := hin
    · have h0 : f 0 = h := Nat.le_antisymm ((hf 0).trans (Nat.le_of_eq h1.symm)) (hlow 0 (by decide))
      rw [← h0]
      exact List.mem_map.mpr ⟨0, List.mem_range.mpr (by decide), rfl⟩
    · exact h1
  obtain ⟨j, hj⟩ : ∃ j, days.findIdx? (fun d => d == h) = some j := by
    rw [← Option.isSome_iff_exists, List.findIdx?_isSome]
    exact List.any_eq_true.mpr ⟨h, hmem, beq_self_eq_true h⟩
  obtain ⟨hlen, hthere, hbefore⟩ := List.findIdx?_eq_some_iff_getElem.mp hj
  have hkind : kind = j := by simp only [kind, hj, Option.getD_some]
  have hlen' : j < 10 := by simpa [days] using hlen
  rw [hkind]
  refine ⟨hlow, hlen', by simpa [days] using hthere, fun k hk => ?_⟩
  have hne := hbefore k hk
  simp only [days, List.getElem_map, List.getElem_range, beq_iff_eq] at hne
  exact Nat.lt_of_le_of_ne (hlow k (hk.trans hlen')) (Ne.symm hne)

theorem horizonDays_le (s : State) (run used k : Nat) : horizonDays s run used k ≤ 0xFFFF := by
  unfold horizonDays
  extract_lets w
  split_ifs <;> omega

theorem spareHorizons (s : State) (run : Nat) (used : List Nat) :
    let w := min 365 run
    let days (k : Nat) : Nat := if spareLeft s k = 0 ∧ 0 < spareUsed s k then 0 else if w < 30 then 0xFFFE else if used.getD k 0 = 0 then 0xFFFF
      else min 0xFFFD (spareLeft s k * w / used.getD k 0)
    Completes (.spareHorizon run used) s fun u => (∀ k, k < 10 → smGet dayK u.resil.horizonK k = days k ∧ u.resil.horizon ≤ days k) ∧
      u.resil.horizonKind < 10 ∧ days u.resil.horizonKind = u.resil.horizon ∧ (∀ k, k < u.resil.horizonKind → u.resil.horizon < days k) ∧
      SameBytes s u ∧ u.cores = s.cores ∧ u.resil.warned = decide (u.resil.horizon < fld (reg s 0x6000014) 15 0) ∧
      (u.resil.warned = true → s.resil.warned = false → Newest 0x504 u) ∧ (u.resil.warned = false ∨ s.resil.warned = true → u.resil.log = s.resil.log) := by
  intro w days
  refine ⟨spareHorizon run used s, rfl, ?_⟩
  have hdays : days = fun k => horizonDays s run (used.getD k 0) k := rfl
  have hspare : spareHorizon run used s =
      (let l := (List.range 10).map days
       let h := l.foldl min 0xFFFF
       let kind := (l.findIdx? fun d => d == h).getD 0
       let low := decide (h < rfld s horizonOff 15 0)
       let s1 : State := { s with resil := { s.resil with
         horizonK := l.zipIdx.foldl (fun m e => smPut dayK m e.2 e.1) s.resil.horizonK, horizon := h, horizonKind := kind, warned := low } }
       if low && !s.resil.warned then alert 3 (pulse 148 (logFault 0x504 5 uDevice none kind h s1)) else s1) := rfl
  obtain ⟨hlow, hkind, hthere, hbefore⟩ := least_of_ten days fun k => by rw [hdays]; exact horizonDays_le ..
  have hlisted (k : Nat) (hk : k < 10) :
      smGet dayK ((((List.range 10).map days).zipIdx).foldl (fun m e => smPut dayK m e.2 e.1) s.resil.horizonK) k = days k := by
    rw [smGet_foldl_zipIdx, if_pos (Nat.zero_le k), Nat.sub_zero, List.getElem?_map, List.getElem?_range hk]
    rfl
  rw [hspare]
  dsimp only
  generalize ((List.range 10).map days).foldl min 0xFFFF = h at *
  generalize (((List.range 10).map days).findIdx? fun d => d == h).getD 0 = kind at *
  generalize (((List.range 10).map days).zipIdx).foldl (fun m e => smPut dayK m e.2 e.1) s.resil.horizonK = table at *
  have hall : (∀ k, k < 10 → smGet dayK table k = days k ∧ h ≤ days k) := fun k hk => ⟨hlisted k hk, hlow k hk⟩
  split
  next hwarn =>
    simp only [Bool.and_eq_true, Bool.not_eq_true'] at hwarn
    obtain ⟨e, n, p, i, he, hl⟩ := logFault_eq (s := { s with resil := { s.resil with
      horizonK := table, horizon := h, horizonKind := kind, warned := decide (h < rfld s horizonOff 15 0) } }) 0x504 5 uDevice none kind h (by decide)
    obtain ⟨j, hj⟩ := pulse_eq (s := logFault 0x504 5 uDevice none kind h { s with resil := { s.resil with
      horizonK := table, horizon := h, horizonKind := kind, warned := decide (h < rfld s horizonOff 15 0) } }) 148
    rw [hj, hl]
    refine ⟨hall, hkind, hthere, hbefore, fun _ => rfl, rfl, rfl, fun _ _ => newest_cons rfl he, fun hor => ?_⟩
    obtain hor | hor := hor
    · exact absurd (hwarn.1.symm.trans hor) (by decide)
    · exact absurd (hwarn.2.symm.trans hor) (by decide)
  next hquiet =>
    refine ⟨hall, hkind, hthere, hbefore, fun _ => rfl, rfl, rfl, fun h1 h2 => absurd ?_ hquiet, fun _ => rfl⟩
    rw [h2]
    exact (Bool.and_true _).trans h1

/-- Settles O52: each trigger records what it found and starts the one relocation; the other clauses follow the table they name. -/
theorem faultsRelocateRevokeAndCount : Obligations.FaultsRelocateRevokeAndCount := by
  unfold Obligations.FaultsRelocateRevokeAndCount
  refine ⟨fun s lc i trig healthy htrig hb hm hf => ?_, fun s lc r hr => ⟨fun hstart => ⟨fun hg => ?_, fun hg hs => ?_⟩, fun t0 hstart hroll => ?_⟩,
    fun s pc r hroll hr => writebackComplete pc hroll hr, fun s near far hfar => ?_, fun s pc hlc => ?_, leasesRevoked, proxiedSnoops,
    fun s k silent released ok => ?_, census_suspects, spareHorizons⟩
  · obtain ⟨h6, t, c, hexec, hsame, hself⟩ := relocation_begins s lc i trig healthy hb htrig
    have hb' : bound t lc.val = true := by rw [bound, hsame.bound]; exact hb
    have hm' : moving t lc.val = false := by rw [moving, hsame.moving]; exact hm
    have hf' : (coreOf t lc.val).standing ≠ .fenced := by rw [hsame.standing]; exact hf
    refine ⟨fun sp hsp => ⟨_, hexec, ?_⟩, fun hno => ⟨_, hexec, ?_⟩⟩
    · obtain ⟨hgood, hservice, hfree, -⟩ := chooseSpare_some hsp
      have hsp' := (hsame.chooseSpare_eq lc.val none).trans hsp
      cases healthy with
      | true =>
        obtain rfl := hself rfl
        obtain ⟨hmoving, hbytes, hrelocs, hregs⟩ := moves_healthy lc.val sp trig (fun c => { c with drainReq := true }) t
        rw [startReloc_healthy hb hm hf hsp]
        exact ⟨hgood, hservice, hfree, hmoving, hbytes, hrelocs,
          coreOf_updCore_same (takeSpare lc.val sp trig none t) lc.val fun c => { c with drainReq := true }, hregs⟩
      | false =>
        have hnow : nowNs t = nowNs s := by rw [nowNs, hsame.time]; rfl
        rw [startReloc_failed hb' hm' hf' hsp', hnow]
        obtain ⟨hmoving, hbytes, hrelocs, hregs⟩ :=
          (moves_failed lc.val sp trig (some (nowNs s)) (fun c => { c with paused := true, wait := none }) t).of_same hsame
        have hpause := paused_failed (s := takeSpare lc.val sp trig (some (nowNs s)) t) lc.val
          (coreOf_updCore_same (dropGroup lc.val (takeSpare lc.val sp trig (some (nowNs s)) t)) lc.val fun c => { c with paused := true, wait := none })
        obtain ⟨hpaused, hwait, hdropped, hkept, hstill⟩ := Paused.of_same hsame ⟨hpause.paused, hpause.wait, hpause.dropped, hpause.kept, hpause.still⟩
        exact ⟨hgood, hservice, hfree, hmoving, hbytes, hrelocs, ⟨hpaused, hwait, hdropped, hkept, hstill⟩, hregs⟩
    · obtain ⟨hstanding, hbit, hfenced, hrelocs, hbytes⟩ :=
        startReloc_contains healthy hb' hm' hf' h6 ((hsame.chooseSpare_eq lc.val none).trans hno)
      rw [hsame.pcOf_eq] at hfenced
      exact ⟨hstanding, hbit, hfenced, hrelocs.trans hsame.relocs, fun a => (hbytes a).trans (by rw [readByte, hsame.mem]; rfl)⟩
  · exact congrArg Host.Outcome.next (relocDrain_waits hr hg)
  · obtain ⟨hlc, hpause⟩ := relocOf_lc hr
    refine ⟨_, congrArg Host.Outcome.next (relocDrain_begins hr hstart hg hs), ?_,
      coreOf_updCore_same s lc.val fun c => { c with paused := true, drainReq := false, wait := none }, fun _ => rfl⟩
    exact find?_replace hr (by simp [hlc, hpause])
  · exact relocationResume lc hr hstart hroll
  · obtain ⟨e, n, p, i, he, hl⟩ := logFault_eq (s := { s with resil := { s.resil with silent := far.toNat :: s.resil.silent.erase far.toNat } })
      0xC 1 far.toNat none near.toNat far.toNat (by decide)
    have hexec : exec (.bridgeTimeout near far) s = .next (freezeCopies far.toNat (bridgeLate near.toNat far.toNat s)) := rfl
    rw [bridgeLate, if_neg (by omega), hl] at hexec
    exact ⟨_, hexec, newest_cons rfl he, rfl, rfl, fun _ => rfl⟩
  · show Host.Outcome.next (heartbeatLost pc.val s) = _
    rw [heartbeatLost, hlc]
  · obtain ⟨hdown, hstop⟩ := pairsStop s k silent released ok
    obtain ⟨hidle, htest⟩ := pairsTested s k ok
    exact ⟨hdown, hstop, hidle, htest⟩

end Sys2Proof.Machine
end

section
/-! Accesses by agents that keep no copy (00 R4; 10 R250, R253): of lines that nothing else holds, a read gives the bytes of memory and a write puts its
bytes there, and beside them only transit entries, counters and meters change. -/

namespace Sys2Proof.Machine
variable {s t u : State}

/-- `t` is `s` but for bytes of memory, transit entries, counters and meters, and perhaps a line that is no longer poisoned; the slices hold what
they held. -/
def Accessed (s t : State) : Prop := ∃ b p pr sl c f,
  t = { s with mem := { s.mem with bytes := b, poison := p, priv := pr, slices := sl }, ctl := { s.ctl with counters := c }, frk := f } ∧
  (∀ n, smGet sliceDef sl n = slice s n) ∧ ∀ l, smGet boolDef p l = true → poisoned s l = true

namespace Accessed
theorem refl (s : State) : Accessed s s := ⟨_, _, _, _, _, _, rfl, fun _ => rfl, fun _ h => h⟩
theorem trans (h : Accessed s t) (h' : Accessed t u) : Accessed s u := by
  obtain ⟨b, p, pr, sl, c, f, rfl, hsl, hp⟩ := h
  obtain ⟨b', p', pr', sl', c', f', rfl, hsl', hp'⟩ := h'
  exact ⟨b', p', pr', sl', c', f', rfl, fun n => (hsl' n).trans (hsl n), fun l hl => hp l (hp' l hl)⟩
theorem slice_eq (h : Accessed s t) (n : Nat) : slice t n = slice s n := by
  obtain ⟨b, p, pr, sl, c, f, rfl, hsl, -⟩ := h
  exact hsl n
theorem poisoned_of (h : Accessed s t) (l : Nat) (hl : poisoned t l = true) : poisoned s l = true := by
  obtain ⟨b, p, pr, sl, c, f, rfl, -, hp⟩ := h
  exact hp l hl
theorem homeOf_eq (h : Accessed s t) (line : Nat) : homeOf t line = homeOf s line := by
  obtain ⟨b, p, pr, sl, c, f, rfl, -, -⟩ := h
  rfl
theorem remoteSlot_eq (h : Accessed s t) (line : Nat) : remoteSlot t line = remoteSlot s line := by
  obtain ⟨b, p, pr, sl, c, f, rfl, -, -⟩ := h
  rfl
theorem homeQ (h : Accessed s t) : t.mem.homeQ = s.mem.homeQ := by
  obtain ⟨b, p, pr, sl, c, f, rfl, -, -⟩ := h
  rfl
theorem grants (h : Accessed s t) : t.mem.grants = s.mem.grants := by
  obtain ⟨b, p, pr, sl, c, f, rfl, -, -⟩ := h
  rfl
theorem live (h : Accessed s t) : t.live = s.live := by
  obtain ⟨b, p, pr, sl, c, f, rfl, -, -⟩ := h
  rfl
theorem cellar (h : Accessed s t) : t.cellar = s.cellar := by
  obtain ⟨b, p, pr, sl, c, f, rfl, -, -⟩ := h
  rfl
theorem findDir_eq (h : Accessed s t) (n line : Nat) : findDir t n line = findDir s n line := by rw [findDir, findDir, h.slice_eq]
theorem l3Copy_eq (h : Accessed s t) (n line : Nat) : l3Copy t n line = l3Copy s n line := by rw [l3Copy, l3Copy, h.slice_eq]
theorem lineFenced_eq (h : Accessed s t) (line : Nat) : lineFenced t line = lineFenced s line := by
  rw [lineFenced, lineFenced, h.homeOf_eq, h.slice_eq]
  obtain ⟨b, p, pr, sl, c, f, rfl, -, -⟩ := h
  rfl
/-- What was clear stays so. -/
theorem clear (h : Accessed s t) {pa n : Nat} (hc : Clear s pa n) : Clear t pa n := by
  intro i hi
  obtain ⟨hpoison, hmem⟩ := hc i hi
  simp only [readsPoison, Bool.or_eq_false_iff] at hpoison ⊢
  refine ⟨⟨?_, by rw [h.lineFenced_eq]; exact hpoison.2⟩, fun him => ?_⟩
  · cases hp : poisoned t (lineOf (pa + i)) with
    | false => rfl
    | true =>
      rw [h.poisoned_of _ hp] at hpoison
      cases hpoison.1
  · obtain ⟨hremote, hdir, hl3, hq, hg⟩ := hmem him
    rw [h.remoteSlot_eq, h.homeOf_eq, h.findDir_eq, h.l3Copy_eq, h.homeQ, h.grants]
    exact ⟨hremote, hdir, hl3, hq, hg⟩
end Accessed

theorem Clear.mono {pa n pa' n' : Nat} (h : Clear s pa n) (hlo : pa ≤ pa') (hhi : pa' + n' ≤ pa + n) : Clear s pa' n' := by
  intro i hi
  have hk := h (pa' - pa + i) (by omega)
  rwa [show pa + (pa' - pa + i) = pa' + i by omega] at hk

/-! ### Meters -/

/-- `t` is `s` but for counters and meters. -/
def Metered (s t : State) : Prop := ∃ c f, t = { s with ctl := { s.ctl with counters := c }, frk := f }
namespace Metered
theorem refl (s : State) : Metered s s := ⟨_, _, rfl⟩
theorem trans (h : Metered s t) (h' : Metered t u) : Metered s u := by
  obtain ⟨c, f, rfl⟩ := h
  obtain ⟨c', f', rfl⟩ := h'
  exact ⟨c', f', rfl⟩
theorem mem (h : Metered s t) : t.mem = s.mem := by
  obtain ⟨c, f, rfl⟩ := h
  rfl
theorem accessed (h : Metered s t) : Accessed s t := by
  obtain ⟨c, f, rfl⟩ := h
  exact ⟨_, _, _, _, _, _, rfl, fun _ => rfl, fun _ h => h⟩
theorem foldl {α : Type} (f : State → α → State) (hf : ∀ a x, Metered a (f a x)) (l : List α) (s : State) : Metered s (l.foldl f s) := by
  induction l generalizing s with
  | nil => exact .refl s
  | cons x l ih => exact (hf s x).trans (ih _)
end Metered
theorem metered_inject (init tc n : Nat) (rs : List Nat) (s : State) : Metered s (inject init tc n rs s) := ⟨_, _, rfl⟩
theorem metered_injectLine (init tc pa : Nat) (s : State) : Metered s (injectLine init tc pa s) := by
  unfold injectLine
  extract_lets rs k s1
  have h1 : Metered s s1 := metered_inject ..
  split
  · exact h1.trans (.trans ⟨_, _, rfl⟩ (.foldl _ (fun _ _ => ⟨_, _, rfl⟩) _ _))
  · exact h1
theorem metered_injectLines (init tc pa n : Nat) (s : State) : Metered s (injectLines init tc pa n s) :=
  .foldl _ (fun _ _ => metered_injectLine ..) _ s

/-! ### One request for a clear line -/

/-- The part of `Clear` that speaks of one line of memory. -/
structure LineClear (s : State) (line : Nat) : Prop where
  remote : remoteSlot s line = none
  dir : findDir s (homeOf s line) line = none
  l3 : l3Copy s (homeOf s line) line = none
  queue : ∀ q ∈ s.mem.homeQ, q.line ≠ line
  grants : ∀ g ∈ s.mem.grants, g.line ≠ line
theorem LineClear.of_accessed {line : Nat} (hc : LineClear s line) (h : Accessed s t) : LineClear t line := by
  obtain ⟨hremote, hdir, hl3, hq, hg⟩ := hc
  constructor
  · rwa [h.remoteSlot_eq]
  · rwa [h.homeOf_eq, h.findDir_eq]
  · rwa [h.homeOf_eq, h.l3Copy_eq]
  · rwa [h.homeQ]
  · rwa [h.grants]

theorem accessed_writeBytes (pa : Nat) (bs : List Byte) (s : State) : Accessed s (writeBytes pa bs s) :=
  ⟨_, _, _, _, _, _, rfl, fun _ => rfl, fun _ h => h⟩
theorem accessed_soundLine (line : Nat) (s : State) : Accessed s (setPoison line false s) := by
  refine ⟨_, _, _, _, _, _, rfl, fun _ => rfl, fun l hl => ?_⟩
  rw [smGet_smPut] at hl
  split at hl
  · cases hl
  · exact hl
theorem accessed_priv (s : State) (pr : SMap PrivCaches) : Accessed s { s with mem := { s.mem with priv := pr } } :=
  ⟨_, _, _, _, _, _, rfl, fun _ => rfl, fun _ h => h⟩
theorem ackAll_priv (line : Nat) (s : State) : ∃ pr, ackAll line s = { s with mem := { s.mem with priv := pr } } := by
  unfold ackAll
  generalize s.mem.priv = l
  induction l generalizing s with
  | nil => exact ⟨_, rfl⟩
  | cons e l ih =>
    rw [List.foldl_cons]
    split
    · obtain ⟨pr, h⟩ := ih (freeTransit e.1 line s)
      exact ⟨pr, by rw [h]; rfl⟩
    · exact ih s
theorem settle_clear {line : Nat} (h : LineClear s line) : settle line s = ackAll line s := by
  unfold settle
  rw [if_pos]
  simp only [Bool.and_eq_true, List.all_eq_true, bne_iff_ne]
  exact ⟨h.queue, h.grants⟩

theorem groupPcs_zero : groupPcs 0#72 = [] := by simp [groupPcs]
/-- A line that the directory does not list needs no snoop. -/
theorem snoopsOf_clear {line : Nat} (h : LineClear s line) (k : ReqKind) (b : ReqData) :
    snoopsOf { kind := k, req := .agent, line := line, body := b } s = [] := by
  have hd : dirOf s (homeOf s line) line = { line := line, owner := none, sharers := 0, devs := 0, proxy := false } := by rw [dirOf, h.dir]
  simp only [snoopsOf, hd]
  cases k <;> simp [homeSnoops, devHolders, groupPcs_zero]

/-- The home serves an agent's request for a clear line at once. -/
theorem request_clear {line : Nat} (h : LineClear s line) (k : ReqKind) (hk : k ≠ .wb ∧ k ≠ .evc) (b : ReqData) :
    let s1 := hnCnt (homeOf s line) cntReq (ackAll line s)
    let x := homeFinish s1 { kind := k, req := .agent, line := line, body := b }
    x.2.1 = none → request k .agent line b s = (x.1, x.2.2) := by
  intro s1 x hx
  obtain ⟨pr, hack⟩ := ackAll_priv line s
  have hacc : Accessed s (ackAll line s) := by
    rw [hack]
    exact accessed_priv s pr
  have hcount : countReq { kind := k, req := .agent, line := line, body := b } (ackAll line s) = s1 := by
    simp only [countReq, s1, hacc.homeOf_eq, hacc.remoteSlot_eq, h.remote]
  have hacc1 : Accessed s s1 := hacc.trans (Metered.accessed ⟨_, _, rfl⟩)
  have hrun : runReq { kind := k, req := .agent, line := line, body := b } (settle line s) = x := by
    rw [settle_clear h, runReq, if_neg (by simpa using hk), if_neg Bool.false_ne_true]
    dsimp only
    rw [hcount, snoopsOf_clear (h.of_accessed hacc1)]
    rfl
  simp only [request, hrun, hx]

theorem accessed_setSlice (n : Nat) (s : State) : Accessed s (setSlice n (slice s n) s) := by
  refine ⟨_, _, _, _, _, _, rfl, fun m => ?_, fun _ h => h⟩
  rw [smGet_smPut]
  split
  next h => rw [h]
  next => rfl
/-- A line that the slice does not hold is not dropped from it. -/
theorem accessed_dropL3 {h line : Nat} (hl : l3Copy s h line = none) : Accessed s (dropL3 h line s) ∧ (dropL3 h line s).mem.bytes = s.mem.bytes := by
  unfold dropL3
  split
  next hon =>
    have hnone : findL3 (slice s h) line = none := by rwa [l3Copy, if_pos hon] at hl
    have hkeep : (slice s h).l3.filter (fun e => match e.2 with | some l => decide (l.line ≠ line) | none => true) = (slice s h).l3 := by
      rw [List.filter_eq_self]
      rintro ⟨k, o⟩ he
      have hn := List.findSome?_eq_none_iff.mp hnone _ he
      cases o with
      | none => rfl
      | some l => simpa using hn
    have hsame : setSlice h { slice s h with l3 := (slice s h).l3.filter (fun e => match e.2 with | some l => decide (l.line ≠ line) | none => true) } s =
        setSlice h (slice s h) s := by rw [hkeep]
    exact hsame ▸ ⟨accessed_setSlice h s, rfl⟩
  · exact ⟨.refl s, rfl⟩
theorem setDir_clear {h line : Nat} (hd : findDir s h line = none) : setDir h line none 0 0 s = s := by
  unfold setDir
  rw [if_pos (by decide), hd]

/-- What a clear line's home answers a read with, and leaves. -/
theorem request_rnc {line : Nat} (h : LineClear s line) (b : ReqData) :
    Accessed s (request .rnc .agent line b s).2 ∧ (request .rnc .agent line b s).2.mem.bytes = s.mem.bytes := by
  obtain ⟨pr, hack⟩ := ackAll_priv line s
  have hacc : Accessed s (hnCnt (homeOf s line) cntReq (ackAll line s)) := by
    rw [hack]
    exact (accessed_priv s pr).trans (Metered.accessed ⟨_, _, rfl⟩)
  have hl3 := (h.of_accessed hacc).l3
  have hfin : homeFinish (hnCnt (homeOf s line) cntReq (ackAll line s)) { kind := .rnc, req := .agent, line := line, body := b } =
      (0, none, hnCnt (homeOf s line) cntReq (ackAll line s)) := by
    simp only [homeFinish, Bool.false_eq_true, if_false, serveFromL3, hl3]
  rw [request_clear h .rnc (by decide) b (by rw [hfin]), hfin]
  refine ⟨hacc, ?_⟩
  rw [hack]
  rfl

/-- The bytes an agent's write puts, as its request carries them. -/
theorem request_write {line : Nat} (h : LineClear s line) (b : ReqData) :
    (Accessed s (request .pw .agent line b s).2 ∧ (request .pw .agent line b s).2.mem.bytes =
      putBytes (b.bytes.take (64 - b.off)) (64 * line + b.off) s.mem.bytes) ∧
    (Accessed s (request .fw .agent line b s).2 ∧ (request .fw .agent line b s).2.mem.bytes = putBytes (b.bytes.take 64) (64 * line) s.mem.bytes) := by
  obtain ⟨pr, hack⟩ := ackAll_priv line s
  generalize hs1 : hnCnt (homeOf s line) cntReq (ackAll line s) = s1
  have hacc : Accessed s s1 := by
    rw [← hs1, hack]
    exact (accessed_priv s pr).trans (Metered.accessed ⟨_, _, rfl⟩)
  have hbytes : s1.mem.bytes = s.mem.bytes := by
    rw [← hs1, hack]
    rfl
  obtain ⟨-, hdir, hl3, -, -⟩ := h.of_accessed hacc
  obtain ⟨hdrop, hdropBytes⟩ := accessed_dropL3 hl3
  have hd : dirOf s1 (homeOf s1 line) line = { line := line, owner := none, sharers := 0, devs := 0, proxy := false } := by rw [dirOf, hdir]
  have hset : setDir (homeOf s1 line) line none 0 0 (dropL3 (homeOf s1 line) line s1) = dropL3 (homeOf s1 line) line s1 :=
    setDir_clear (by rw [hdrop.findDir_eq, hdir])
  have hstale : l3Stale s1 (homeOf s1 line) line = none := by rw [l3Stale, hl3]
  have hkept : keptGroups (0 : BitVec 72) [] = 0 := by simp [keptGroups]
  constructor
  · have hfin : homeFinish s1 { kind := .pw, req := .agent, line := line, body := b } = (0, none,
        writeBytes (64 * line + b.off) (b.bytes.take (64 - b.off)) (dropL3 (homeOf s1 line) line s1)) := by
      simp only [homeFinish, Bool.false_eq_true, if_false, serveFromL3, hl3, hd, hkept, hstale, exposeStale, hset]
    rw [request_clear h .pw (by decide) b (by rw [hs1, hfin]), hs1, hfin]
    refine ⟨hacc.trans (hdrop.trans (accessed_writeBytes ..)), ?_⟩
    show putBytes _ _ (dropL3 (homeOf s1 line) line s1).mem.bytes = _
    rw [hdropBytes, hbytes]
  · have hfin : homeFinish s1 { kind := .fw, req := .agent, line := line, body := b } = (0, none,
        setPoison line false (writeBytes (64 * line) (b.bytes.take 64) (dropL3 (homeOf s1 line) line s1))) := by
      simp only [homeFinish, hd, hkept, hset]
    rw [request_clear h .fw (by decide) b (by rw [hs1, hfin]), hs1, hfin]
    refine ⟨hacc.trans (hdrop.trans ((accessed_writeBytes ..).trans (accessed_soundLine ..))), ?_⟩
    show putBytes _ _ (dropL3 (homeOf s1 line) line s1).mem.bytes = _
    rw [hdropBytes, hbytes]

/-! ### One line -/

theorem Clear.line {pa n i : Nat} (h : Clear s pa n) (hi : i < n) (hm : isMemory (64 * lineOf (pa + i)) = true) : LineClear s (lineOf (pa + i)) := by
  obtain ⟨-, hmem⟩ := h i hi
  obtain ⟨hremote, hdir, hl3, hq, hg⟩ := hmem hm
  exact ⟨hremote, hdir, hl3, hq, hg⟩
theorem isMemory_iff (pa : Nat) : isMemory pa = true ↔
    pa < 4 * 2 ^ 44 ∧ (pa % 2 ^ 44 < 0x5A00000000 ∨ 0x10000000000 ≤ pa % 2 ^ 44 ∧ pa % 2 ^ 44 < 0x10000000000 + 2 ^ 42) := by
  by_cases hlt : pa < 4 * 2 ^ 44
  · rw [isMemory, placeOf, if_pos hlt]
    by_cases h1 : pa % 2 ^ 44 < hbmSize
    · rw [if_pos h1]
      exact iff_of_true (decide_eq_true (.inl rfl)) ⟨hlt, .inl h1⟩
    · rw [if_neg h1]
      by_cases h2 : ddrBase ≤ pa % 2 ^ 44 ∧ pa % 2 ^ 44 < ddrBase + 2 ^ 42
      · rw [if_pos h2]
        exact iff_of_true (decide_eq_true (.inr rfl)) ⟨hlt, .inr h2⟩
      · rw [if_neg h2]
        exact iff_of_false Bool.false_ne_true fun h => h.2.elim h1 h2
  · have hno : isMemory pa = false := by
      cases hp : placeOf pa with
      | none => rw [isMemory, hp]
      | some p =>
        obtain ⟨h1, h2⟩ := region_of_ge hlt hp
        rw [isMemory_of_place hp]
        simp [h1, h2]
    exact iff_of_false (by simp [hno]) fun h => hlt h.1
/-- A line is memory as a whole. -/
theorem isMemory_line (pa : Nat) : isMemory (64 * lineOf pa) = isMemory pa := by
  rw [Bool.eq_iff_iff, isMemory_iff, isMemory_iff, lineOf]
  omega

theorem readBytes_congr (h : t.mem.bytes = s.mem.bytes) (pa n : Nat) : readBytes t pa n = readBytes s pa n := by
  induction n generalizing pa with
  | zero => rfl
  | succ n ih => rw [readBytes, readBytes, ih, readByte, readByte, h]
theorem readBytes_add (s : State) (pa m n : Nat) : readBytes s pa (m + n) = readBytes s pa m ++ readBytes s (pa + m) n := by
  induction m generalizing pa with
  | zero => rw [Nat.zero_add]; rfl
  | succ m ih => rw [Nat.succ_add, readBytes, readBytes, ih, List.cons_append, Nat.add_assoc, Nat.add_comm 1]

theorem Clear.poison {pa n : Nat} (h : Clear s pa n) (hn : 0 < n) : poisoned s (lineOf pa) = false ∧ lineFenced s (lineOf pa) = false := by
  obtain ⟨hp, -⟩ := h 0 hn
  simpa [readsPoison] using hp
theorem Clear.lineAt {pa n : Nat} (h : Clear s pa n) (hn : 0 < n) (hm : isMemory pa = true) : LineClear s (lineOf pa) :=
  h.line (i := 0) hn (by rw [Nat.add_zero, isMemory_line, hm])

/-- An agent's read of bytes of one clear line. -/
theorem agentReadLine_clear (tc : Nat) {pa n : Nat} (h : Clear s pa n) (hn : 0 < n) : let x := agentReadLine tc pa n s
    x.1 = readBytes s pa n ∧ x.2.1 = false ∧ Accessed s x.2.2 ∧ x.2.2.mem.bytes = s.mem.bytes := by
  obtain ⟨hpoison, hfenced⟩ := h.poison hn
  unfold agentReadLine
  split
  next hm =>
    have hclear := h.lineAt hn hm
    rw [noteFenced_unfenced hfenced]
    obtain ⟨hacc, hbytes⟩ := request_rnc hclear { tc := BitVec.ofNat 2 tc }
    generalize (request .rnc .agent (lineOf pa) { tc := BitVec.ofNat 2 tc } s).2 = t at hacc hbytes
    have hstale : l3Stale t (homeOf t (lineOf pa)) (lineOf pa) = none := by rw [l3Stale, (hclear.of_accessed hacc).l3]
    have hsound : readsPoison t (lineOf pa) = false := by
      have hp := (hacc.clear h).poison hn
      rw [readsPoison, hp.1, hp.2]
      rfl
    simp only [hstale, ite_self, hsound]
    exact ⟨readBytes_congr hbytes .., trivial, hacc, hbytes⟩
  · exact ⟨rfl, hpoison, .refl s, rfl⟩
/-- An agent's write of bytes of one clear line. -/
theorem agentWriteLine_clear (tc : Nat) {pa : Nat} {bs : List Byte} (h : Clear s pa bs.length) (hn : 0 < bs.length) (hline : pa % 64 + bs.length ≤ 64) :
    Accessed s (agentWriteLine tc pa bs s) ∧ (agentWriteLine tc pa bs s).mem.bytes = putBytes bs pa s.mem.bytes := by
  obtain ⟨-, hfenced⟩ := h.poison hn
  unfold agentWriteLine
  split
  next hm =>
    have hclear := h.lineAt hn hm
    rw [hfenced, if_neg Bool.false_ne_true]
    obtain ⟨-, haccF, hbytesF⟩ := request_write hclear { bytes := bs, tc := BitVec.ofNat 2 tc }
    obtain ⟨⟨haccP, hbytesP⟩, -⟩ := request_write hclear { off := pa % 64, bytes := bs, tc := BitVec.ofNat 2 tc }
    split
    next hwhole =>
      refine ⟨haccF, hbytesF.trans ?_⟩
      rw [List.take_of_length_le (by show bs.length ≤ 64; omega), show 64 * lineOf pa = pa by unfold lineOf; omega]
    next =>
      refine ⟨haccP, hbytesP.trans ?_⟩
      dsimp only
      rw [List.take_of_length_le (by omega), show 64 * lineOf pa + pa % 64 = pa by unfold lineOf; omega]
  · split
    · exact ⟨(accessed_soundLine _ s).trans (accessed_writeBytes ..), rfl⟩
    · exact ⟨accessed_writeBytes .., rfl⟩

/-! ### Any number of lines -/

/-- The place where the bytes of the `i`-th line begin. -/
def spanStart (pa i : Nat) : Nat := if i = 0 then pa else (pa / 64 + i) * 64
/-- The read of the lines from the `i`-th on gives the bytes from there to the end. -/
theorem agentReadFrom_clear (tc : Nat) {pa n : Nat} (hn : 0 < n) (k i : Nat) (hk : i + k = (pa + n + 63) / 64 - pa / 64) (s : State) (h : Clear s pa n) :
    let x := agentReadFrom tc pa ((List.range' i k).map fun i => (spanStart pa i, min (pa + n) ((pa / 64 + i + 1) * 64) - spanStart pa i)) s
    x.1 = readBytes s (spanStart pa i) (pa + n - spanStart pa i) ∧ x.2.1 = false ∧ Accessed s x.2.2 ∧ x.2.2.mem.bytes = s.mem.bytes := by
  induction k generalizing i s with
  | zero =>
    have hend : pa + n - spanStart pa i = 0 := by
      unfold spanStart
      split <;> omega
    rw [hend]
    exact ⟨rfl, rfl, .refl s, rfl⟩
  | succ k ih =>
    have hlo : pa ≤ spanStart pa i := by unfold spanStart; split <;> omega
    have hnext : spanStart pa (i + 1) = (pa / 64 + i + 1) * 64 := by
      unfold spanStart
      rw [if_neg (by omega)]
      omega
    have hlt : spanStart pa i < min (pa + n) ((pa / 64 + i + 1) * 64) := by unfold spanStart; split <;> omega
    obtain ⟨hbytes, hpoison, hacc, hmem⟩ := agentReadLine_clear tc (h.mono (pa' := spanStart pa i)
      (n' := min (pa + n) ((pa / 64 + i + 1) * 64) - spanStart pa i) hlo (by omega)) (by omega)
    rw [List.range'_succ, List.map_cons, agentReadFrom]
    generalize agentReadLine tc (spanStart pa i) (min (pa + n) ((pa / 64 + i + 1) * 64) - spanStart pa i) s = y at *
    obtain ⟨hbytes', hpoison', hacc', hmem'⟩ := ih (i + 1) (by omega) y.2.2 (hacc.clear h)
    refine ⟨?_, by simp only [hpoison, hpoison', Bool.or_self], hacc.trans hacc', hmem'.trans hmem⟩
    dsimp only
    rw [hbytes, hbytes', readBytes_congr hmem]
    rcases Nat.lt_or_ge (pa + n) ((pa / 64 + i + 1) * 64) with hlast | hmore
    · rw [Nat.min_eq_left (by omega), show pa + n - spanStart pa (i + 1) = 0 by omega]
      exact List.append_nil _
    · rw [Nat.min_eq_right hmore, hnext]
      rw [Nat.min_eq_right hmore] at hlt
      rw [show pa + n - spanStart pa i = ((pa / 64 + i + 1) * 64 - spanStart pa i) + (pa + n - (pa / 64 + i + 1) * 64) by omega, readBytes_add,
        show spanStart pa i + ((pa / 64 + i + 1) * 64 - spanStart pa i) = (pa / 64 + i + 1) * 64 by omega]
/-- An agent's read of clear bytes. -/
theorem agentRead_clear (tc : Nat) {pa n : Nat} (h : Clear s pa n) : let x := agentRead tc pa n s
    x.1 = readBytes s pa n ∧ x.2.1 = false ∧ Accessed s x.2.2 ∧ x.2.2.mem.bytes = s.mem.bytes := by
  unfold agentRead
  split
  next h0 => exact ⟨by rw [h0]; rfl, rfl, .refl s, rfl⟩
  next hn =>
    have hspans : lineSpans pa n = (List.range' 0 ((pa + n + 63) / 64 - pa / 64)).map fun i =>
        (spanStart pa i, min (pa + n) ((pa / 64 + i + 1) * 64) - spanStart pa i) := by
      rw [lineSpans, List.range_eq_range']
      rfl
    obtain ⟨hbytes, hrest⟩ := agentReadFrom_clear tc (Nat.pos_of_ne_zero hn) ((pa + n + 63) / 64 - pa / 64) 0 (by omega) s h
    rw [hspans]
    refine ⟨hbytes.trans ?_, hrest⟩
    rw [spanStart, if_pos rfl, Nat.add_sub_cancel_left]

/-- An agent's write of clear bytes. -/
theorem agentWrite_cut (tc : Nat) (k : Nat) {pa : Nat} {bs : List Byte} (s : State) (hk : bs.length < k) (h : Clear s pa bs.length) :
    let t := (cutLines pa bs k).foldl (fun a x => agentWriteLine tc x.1 x.2 a) s
    Accessed s t ∧ t.mem.bytes = putBytes bs pa s.mem.bytes := by
  induction k generalizing pa bs s with
  | zero => omega
  | succ k ih =>
    unfold cutLines
    cases bs with
    | nil => exact ⟨.refl s, rfl⟩
    | cons b bs =>
      rw [List.isEmpty_cons, if_neg Bool.false_ne_true]
      dsimp only
      rw [List.foldl_cons]
      set xs := (b :: bs).take (64 - pa % 64) with hxs
      have hlen : xs.length = min (64 - pa % 64) (b :: bs).length := List.length_take ..
      have hpos : 0 < (b :: bs).length := by simp
      obtain ⟨hacc, hbytes⟩ := agentWriteLine_clear tc (h.mono (pa' := pa) (n' := xs.length) (Nat.le_refl pa) (by omega)) (by omega) (by omega)
      have hdrop : ((b :: bs).drop (64 - pa % 64)).length = (b :: bs).length - (64 - pa % 64) := List.length_drop ..
      have hrest : Clear (agentWriteLine tc pa xs s) (pa + (64 - pa % 64)) ((b :: bs).drop (64 - pa % 64)).length := by
        rcases Nat.lt_or_ge (64 - pa % 64) (b :: bs).length with hlt | hge
        · exact (hacc.clear h).mono (by omega) (by omega)
        · rw [hdrop, Nat.sub_eq_zero_of_le hge]
          intro i hi
          omega
      obtain ⟨hacc', hbytes'⟩ := ih (agentWriteLine tc pa xs s) (by omega) hrest
      refine ⟨hacc.trans hacc', hbytes'.trans ?_⟩
      rw [hbytes]
      rcases Nat.lt_or_ge (64 - pa % 64) (b :: bs).length with hlt | hge
      · have hcut : 64 - pa % 64 = xs.length := by omega
        rw [hcut, ← putBytes_append, ← hcut, hxs, List.take_append_drop]
      · rw [List.drop_eq_nil_of_le hge, hxs, List.take_of_length_le hge]
        rfl
theorem agentWrite_clear (tc : Nat) {pa : Nat} {bs : List Byte} (h : Clear s pa bs.length) :
    Accessed s (agentWrite tc pa bs s) ∧ (agentWrite tc pa bs s).mem.bytes = putBytes bs pa s.mem.bytes :=
  agentWrite_cut tc (bs.length + 1) s (Nat.lt_succ_self _) h

theorem keeperRead_clear {pa n : Nat} (h : Clear s pa n) : let x := keeperRead pa n s
    x.1 = readBytes s pa n ∧ x.2.1 = false ∧ Accessed s x.2.2 ∧ x.2.2.mem.bytes = s.mem.bytes := by
  have hm := metered_injectLines (531 + Config.keeperPair.toNat) keeperTc pa n s
  obtain ⟨hbytes, hpoison, hacc, hmem⟩ := agentRead_clear keeperTc (hm.accessed.clear h)
  exact ⟨hbytes.trans (readBytes_congr (congrArg MemSt.bytes hm.mem) ..), hpoison, hm.accessed.trans hacc, hmem.trans (congrArg MemSt.bytes hm.mem)⟩
theorem keeperWrite_clear {pa : Nat} {bs : List Byte} (h : Clear s pa bs.length) :
    Accessed s (keeperWrite pa bs s) ∧ (keeperWrite pa bs s).mem.bytes = putBytes bs pa s.mem.bytes := by
  have hm := metered_injectLines (531 + Config.keeperPair.toNat) keeperTc pa bs.length s
  obtain ⟨hacc, hbytes⟩ := agentWrite_clear keeperTc (hm.accessed.clear h)
  exact ⟨hm.accessed.trans hacc, hbytes.trans (by rw [hm.mem])⟩

end Sys2Proof.Machine
end

section
/-! The keeper's call (19 R463): a core that has called a service finds its answer in g1, g2 and Z, and beside them what the function made of the
device. -/

namespace Sys2Proof.Machine
variable {s u : State} {lc : LC}

/-- Register `k` as the keeper's function reads it. -/
def regArg (lc : LC) (s : State) (k : Nat) : Nat := (smGet word0 (coreOf s lc.val).regs.g k).toNat
theorem argOf_eq (i : GReg) (hi : i ≠ 0) : argOf lc s i = regArg lc s i.val := by
  rw [argOf, readG, if_neg hi]
  rfl

theorem argOf_2 : argOf lc s 2 = regArg lc s 2 := argOf_eq 2 (by decide)
theorem argOf_3 : argOf lc s 3 = regArg lc s 3 := argOf_eq 3 (by decide)
theorem argOf_4 : argOf lc s 4 = regArg lc s 4 := argOf_eq 4 (by decide)
theorem argOf_5 : argOf lc s 5 = regArg lc s 5 := argOf_eq 5 (by decide)
theorem argOf_6 : argOf lc s 6 = regArg lc s 6 := argOf_eq 6 (by decide)
theorem argOf_7 : argOf lc s 7 = regArg lc s 7 := argOf_eq 7 (by decide)

/-- A function that answers `st`, a result and the device `u` serves so: the result is written where the status is `ST_OK`. -/
theorem serves_of {fn st : Nat} {i : Instr} {body : (Nat → Nat) → State → Served} {r res : Option Nat} {E : State → Prop} (hc : Called lc fn s)
    (hfn : fn < 65536) (hexec : exec i s = .next (service fn lc body s)) (hbody : body (regArg lc s) s = (st, r, u))
    (hres : res = if st = 0 then r else none) (hE : E u) : Serves i lc s st res E := by
  obtain ⟨hlevel, hgate, hcaller, hstanding, hfnr⟩ := hc
  have hg1 : regArg lc s 1 = fn := hfnr
  have hserve : service fn lc body s = updCore lc.val (fun x =>
      let r1 := writeG x.regs 1 (BitVec.ofNat 64 st)
      let r2 := match r with | some v => if st = stOk then writeG r1 2 (BitVec.ofNat 64 v) else r1 | none => r1
      { x with regs := { r2 with flags := { r2.flags with z := decide (st = stOk) } } }) u := by
    have hcall : levelOf (coreOf s lc.val).regs = 2 ∧ (coreOf s lc.val).gate.isOpen = true ∧ (coreOf s lc.val).standing = .issuing ∧
        regArg lc s 1 % 65536 = fn := ⟨hlevel, hgate, hstanding, by omega⟩
    have hsmall : ¬ 65536 ≤ (smGet word0 (coreOf s lc.val).regs.g 1).toNat := fun h => absurd (hg1 ▸ h : 65536 ≤ fn) (by omega)
    have hb : (if (coreOf s lc.val).gate.level = 0 then ((stPriv, none, s) : Served)
        else if 65536 ≤ (smGet word0 (coreOf s lc.val).regs.g 1).toNat then (stRsvd, none, s)
        else body (fun k => (smGet word0 (coreOf s lc.val).regs.g k).toNat) s) = (st, r, u) := by
      rw [if_neg hcaller, if_neg hsmall]
      exact hbody
    refine (if_pos hcall).trans ?_
    simp only [hb] <;> rfl
  rw [hserve] at hexec
  refine ⟨_, hexec, u, hE, ⟨?_, fun n hn => coreOf_updCore_other u _ hn, rfl⟩, ?_⟩
  · rw [coreOf_updCore_same]
  rw [coreOf_updCore_same, hres]
  cases r with
  | none =>
    refine ⟨fun n => ?_, ?_, ?_, ?_, ?_⟩
    · rw [ite_self]
      exact (readG_writeG ..).trans (by simp)
    · simp only [stOk, writeG_flags]
      rfl
    all_goals simp
  | some v =>
    by_cases h0 : st = 0
    · subst h0
      refine ⟨fun n => ?_, ?_, ?_, ?_, ?_⟩
      · show readG (writeG (writeG _ 1 _) 2 _) n = _
        rw [readG_writeG, readG_writeG]
        by_cases h1 : n = 1
        · subst h1
          simp
        · by_cases h2 : n = 2
          · subst h2
            simp
          · simp [h1, h2]
      · simp [stOk]
      all_goals simp [stOk]
    · have hok : ¬ st = stOk := h0
      simp only [if_neg h0, if_neg hok]
      refine ⟨fun n => ?_, ?_, ?_, ?_, ?_⟩
      · exact (readG_writeG ..).trans (by simp)
      · simp only [stOk, writeG_flags]
        rfl
      all_goals simp

end Sys2Proof.Machine
end

section
/-! Folds in which at most one element changes anything. -/

namespace Sys2Proof.Machine

theorem foldl_still {α β : Type} {f : β → α → β} {b : β} (l : List α) (h : ∀ y ∈ l, f b y = b) : l.foldl f b = b := by
  induction l with
  | nil => rfl
  | cons y l ih =>
    rw [List.foldl_cons, h y (List.mem_cons_self ..)]
    exact ih fun z hz => h z (List.mem_cons_of_mem y hz)
/-- Where one element alone changes anything, and nothing is changed again after it, the fold is that one change. -/
theorem foldl_one {α β : Type} {f : β → α → β} {x : α} {b c : β} (l : List α) (hl : l.Nodup) (hx : x ∈ l) (hb : ∀ y ∈ l, y ≠ x → f b y = b)
    (hc : ∀ y ∈ l, y ≠ x → f c y = c) (h : f b x = c) : l.foldl f b = c := by
  induction l with
  | nil => cases hx
  | cons y l ih =>
    obtain ⟨hy, hl'⟩ := List.nodup_cons.mp hl
    rw [List.foldl_cons]
    by_cases hyx : y = x
    · subst hyx
      rw [h]
      exact foldl_still l fun z hz => hc z (List.mem_cons_of_mem _ hz) fun hzy => hy (hzy ▸ hz)
    · rw [hb y (List.mem_cons_self ..) hyx]
      exact ih hl' ((List.mem_cons.mp hx).resolve_left (Ne.symm hyx)) (fun z hz => hb z (List.mem_cons_of_mem _ hz))
        fun z hz => hc z (List.mem_cons_of_mem _ hz)

end Sys2Proof.Machine
end

section
/-! Live change (21 R505 to R512): what the end of a roll, the loading of a sequencer and the first flash copy change. -/

namespace Sys2Proof.Machine
variable {s t : State}

theorem sameBytes_of_bytes (h : t.mem.bytes = s.mem.bytes) : SameBytes s t := fun a => by rw [readByte, h]; rfl
theorem sameBytes_of_mem (h : t.mem = s.mem) : SameBytes s t := sameBytes_of_bytes (congrArg MemSt.bytes h)

/-- PATCH changes its mode bit and, where SYS_MODE changes, the alerts. -/
theorem setPatch_eq (b : Bool) (s : State) : ∃ a, setPatch b s =
    { s with live := { s.live with patchMode := b }, pads := { s.pads with alerts := a } } := by
  unfold setPatch noteMode
  split
  · exact ⟨_, rfl⟩
  · exact ⟨_, rfl⟩

/-- The flash and the writes due once store `store` holds `im` in its first copy (21 R511). -/
def firstWrite (store : Nat) (im : Option Image) (s : State) (l : Live) : Live :=
  { l with flash := if copyAbsent s (firstCopy s) then l.flash
             else smPut (fun _ => []) l.flash (firstCopy s) (smPut noImage (smGet (fun _ => []) l.flash (firstCopy s)) store im)
           flashDue := (store, nowNs s, firstCopy s) :: l.flashDue.filter fun e => e.1 != store }
theorem firstWrite_due (store : Nat) (im : Option Image) (s : State) (l : Live) : (store, nowNs s, firstCopy s) ∈ (firstWrite store im s l).flashDue :=
  List.mem_cons_self ..
theorem firstWrite_flash (store : Nat) (im : Option Image) (s : State) (l : Live) (h : copyAbsent s (firstCopy s) = false) :
    smGet noImage (smGet (fun _ => []) (firstWrite store im s l).flash (firstCopy s)) store = im := by
  unfold firstWrite
  simp only [h, Bool.false_eq_true, if_false, smGet_smPut_same]

/-- The live state once a roll has reached its end (06 R170). -/
def rolled (r : Roll) (s : State) : Live :=
  firstWrite r.store (imageOf s r.store) s { s.live with
    roll := none, patchMode := false, versions := smPut ver0 s.live.versions r.store r.version,
    inService := smPut noImage s.live.inService r.store (imageOf s r.store) }
theorem rollEnd_done {r : Roll} (h : r.aborting = false) (s : State) : ∃ a, rollEnd r s =
    { s with live := rolled r s, pads := { s.pads with alerts := a } } := by
  obtain ⟨a, hp⟩ := setPatch_eq false (setLive (fun l => { l with roll := none }) s)
  refine ⟨a, ?_⟩
  rw [rollEnd]
  simp only [hp, h, Bool.false_eq_true, if_false]
  rfl
theorem rollEnd_aborted {r : Roll} (h : r.aborting = true) (s : State) : ∃ a, rollEnd r s =
    { s with live := { s.live with roll := none, patchMode := false,
                                   flashDue := s.live.flashDue.map fun e => if e.1 = r.store then (e.1, nowNs s, e.2.2) else e },
             pads := { s.pads with alerts := a } } := by
  obtain ⟨a, hp⟩ := setPatch_eq false (setLive (fun l => { l with roll := none }) s)
  refine ⟨a, ?_⟩
  rw [rollEnd]
  simp only [hp, h, if_true]
  rfl
/-- A roll of store 0 ends or goes on: no core, no sequencer, no byte and nothing of the keeper's changes. -/
theorem rollCheck_spec {r : Roll} (hr : s.live.roll = some r) : ∃ L p, rollCheck s = { s with live := L, pads := p } ∧ L.stores = s.live.stores ∧
    (L.roll = none ∨ L = s.live) := by
  unfold rollCheck
  split
  next r' v hr' hv =>
    split
    · cases ha : r'.aborting with
      | true =>
        obtain ⟨a, h⟩ := rollEnd_aborted ha s
        exact ⟨_, _, h, rfl, .inl rfl⟩
      | false =>
        obtain ⟨a, h⟩ := rollEnd_done ha s
        exact ⟨_, _, h, rfl, .inl rfl⟩
    · exact ⟨_, _, rfl, rfl, .inr rfl⟩
  · exact ⟨_, _, rfl, rfl, .inr rfl⟩

/-! ### Sequencers -/

theorem microOf_setMicro (k n : Nat) (m : MicroStore) (s : State) : microOf (setMicro k n m s) k n = m := smGet_smPut_same ..
/-- The bank a load goes to: the idle one where there are two (06 R167). -/
def idleBank (k n : Nat) (s : State) : Nat := if (storeShape k).banks = 2 then 1 - (microOf s k n).active else 0
theorem microOf_loadBank (k n : Nat) (im : Option Image) (s : State) : microOf (loadBank k n im s) k n =
    { active := idleBank k n s, banks := smPut noImage (microOf s k n).banks (idleBank k n s) im } := microOf_setMicro ..

/-- The sequencer of physical core `pc` loaded with what roll `r` of store 0 brings. -/
def patched (r : Roll) (pc : Nat) (s : State) : State :=
  loadBank 0 pc (rollImage s r) (setPhys pc { phys s pc with version := r.version } s)
theorem loadPatch_rolling {r : Roll} (hr : s.live.roll = some r) (h0 : r.store = 0) (ha : r.aborting = false) (pc : Nat) :
    loadPatch pc s = patched r pc s := by
  have hv : rollVersion s = some r.version := by simp only [rollVersion, hr, h0, if_true, ha, Bool.false_eq_true, if_false]
  simp only [loadPatch, hr, hv]
  rfl
/-- What the loading of a list of cores leaves. -/
structure Patched (r : Roll) (im : Image) (l : List Nat) (s t : State) : Prop where
  roll : t.live.roll = some r
  images : t.live.images = s.live.images
  patchMode : t.live.patchMode = s.live.patchMode
  mem : t.mem = s.mem
  cellar : t.cellar = s.cellar
  version : ∀ pc, (phys t pc).version = if pc ∈ l then r.version else (phys s pc).version
  banks : ∀ pc ∈ l, smGet noImage (microOf t 0 pc).banks 0 = some im
theorem phys_patched (r : Roll) (pc n : Nat) (s : State) : (phys (patched r pc s) n).version = if n = pc then r.version else (phys s n).version := by
  have h : phys (patched r pc s) n = if n = pc then { phys s pc with version := r.version } else phys s n := smGet_smPut ..
  rw [h]
  split <;> rfl
theorem microOf_patched (r : Roll) (pc n : Nat) (s : State) : microOf (patched r pc s) 0 n =
    if n = pc then { active := 0, banks := smPut noImage (microOf s 0 pc).banks 0 (rollImage s r) } else microOf s 0 n := by
  refine (smGet_smPut ..).trans ?_
  have hn : (1024 * 0 + n = 1024 * 0 + pc) = (n = pc) := by simp
  simp only [hn]
  rfl
theorem patched_foldl {r : Roll} {im : Image} (h0 : r.store = 0) (ha : r.aborting = false) (l : List Nat) (s : State) (hr : s.live.roll = some r)
    (him : imageOf s 0 = some im) : Patched r im l s (l.foldl (fun a pc => loadPatch pc a) s) := by
  suffices hmain : ∀ (l done : List Nat) (t : State), Patched r im done s t → Patched r im (done ++ l) s (l.foldl (fun a pc => loadPatch pc a) t) from
    hmain l [] s ⟨hr, rfl, rfl, rfl, rfl, fun _ => by simp, fun _ h => by cases h⟩
  intro l
  induction l with
  | nil => intro done t h; rwa [List.append_nil]
  | cons pc l ih =>
    intro done t h
    rw [List.foldl_cons, loadPatch_rolling h.roll h0 ha, ← List.singleton_append, ← List.append_assoc]
    have himage : rollImage t r = some im := by
      rw [rollImage, ha, if_neg Bool.false_ne_true, h0, h.images]
      exact him
    refine ih (done ++ [pc]) (patched r pc t) ⟨h.roll, h.images, h.patchMode, h.mem, h.cellar, fun n => ?_, fun n hn => ?_⟩
    · rw [phys_patched, h.version]
      simp only [List.mem_append, List.mem_singleton]
      by_cases hn : n = pc <;> simp [hn]
    · rw [microOf_patched]
      split
      next => simp only [smGet_smPut_same, himage]
      next hne => exact h.banks n (by simpa [hne] using hn)
theorem patched_loadSpares {r : Roll} {im : Image} (h0 : r.store = 0) (ha : r.aborting = false) (hr : s.live.roll = some r) (him : imageOf s 0 = some im) :
    Patched r im (sparesLeft s) s (loadSpares s) := patched_foldl h0 ha (sparesLeft s) s hr him

end Sys2Proof.Machine
end

section
/-! The keeper's services of live change (21 R505, R506, R510, R512) and the aging query. -/

namespace Sys2Proof.Machine
variable {s : State} {lc : LC}

/-- A service that refuses changes nothing beside its answer. -/
theorem refuses_of {fn st : Nat} {i : Instr} {body : (Nat → Nat) → State → Served} (hc : Called lc fn s) (hfn : fn < 65536)
    (hexec : exec i s = .next (service fn lc body s)) (hbody : body (regArg lc s) s = (st, none, s)) : Serves i lc s st none fun u => u = s :=
  serves_of hc hfn hexec hbody (ite_self _).symm rfl

theorem acceptable_iff (h : ImageHeader) (s : State) : acceptable s h = true ↔ h.genuine = true ∧ (h.store ≤ 5 ∨ h.store = 8) ∧
    fld h.version 31 24 = fld (smGet ver0 s.live.romVersions h.store) 31 24 ∧ s.cellar.minSecurity ≤ h.security := by
  simp [acceptable, and_assoc]

/-- The store's submitted image replaced. -/
def putImage (store : Nat) (im : Image) (s : State) : State := setLive (fun l => { l with images := smPut imageDef l.images store (some im) }) s
theorem submits (s : State) (lc : LC) (genuine : Bool) (store : Nat) (ver : Word32) (sec : Nat) :
    let a := argOf lc s
    let i : Instr := .updateSubmit lc genuine store ver sec
    let good := genuine = true ∧ (store ≤ 5 ∨ store = 8) ∧ fld ver 31 24 = fld (smGet ver0 s.live.romVersions store) 31 24 ∧ s.cellar.minSecurity ≤ sec
    Called lc 0x500 s →
      (a 3 = 0 ∨ pagesCoded s (a 2) (a 3) 0 = false → Serves i lc s 3 none fun u => u = s) ∧
      (a 3 ≠ 0 → pagesCoded s (a 2) (a 3) 0 = true →
        (¬good → Serves i lc s 3 none fun u => Newest 0x401 u ∧ u.live = s.live ∧ SameBytes s u) ∧
        (good → ∀ r, s.live.roll = some r → r.store = store → Serves i lc s 7 none fun u => u = s) ∧
        (good → (∀ r, s.live.roll = some r → r.store ≠ store) → Clear s (a 2) (a 3) →
          Serves i lc s 0 (some (store * 2 ^ 32 + ver.toNat)) fun u => SameBytes s u ∧
            (∀ k, imageOf u k = if k = store then some { version := ver, digest := sha384 (readBytes s (a 2) (a 3)), security := sec } else imageOf s k) ∧
            u.live = { s.live with images := u.live.images })) := by
  intro a i good hc
  have hexec : exec i s = .next (service 0x500 lc (updateSubmit { genuine := genuine, store := store, version := ver, security := sec }) s) := rfl
  have hgood : acceptable s { genuine := genuine, store := store, version := ver, security := sec } = true ↔ good := acceptable_iff _ s
  simp only [a, argOf_2, argOf_3]
  refine ⟨fun h => refuses_of hc (by decide) hexec ?_, fun h3 hpages => ⟨fun hbad => ?_, fun hok r hr hst => refuses_of hc (by decide) hexec ?_,
    fun hok hno hclear => ?_⟩⟩
  · rw [updateSubmit]
    exact if_pos (by simpa using h)
  · obtain ⟨e, n, p, j, he, hl⟩ := logFault_eq (s := s) 0x401 5 uDevice none (if genuine then 2 else 1) store (by decide)
    refine serves_of (r := none) hc (by decide) hexec (u := logFault 0x401 5 uDevice none (if genuine then 2 else 1) store s) ?_ rfl ?_
    · rw [updateSubmit]
      have hno : acceptable s { genuine := genuine, store := store, version := ver, security := sec } = false := by
        rw [← Bool.not_eq_true, hgood]
        exact hbad
      simp only [hno, hpages, h3, Bool.not_true, Bool.not_false, Bool.false_eq_true, or_self, if_false, if_true]
      rfl
    · rw [hl]
      exact ⟨newest_cons rfl he, rfl, fun _ => rfl⟩
  · rw [updateSubmit]
    simp [hpages, h3, hgood.mpr hok, hr, hst, stBusy]
  · obtain ⟨hbytes, -, hacc, hmem⟩ := keeperRead_clear hclear
    refine serves_of (r := some (store * 2 ^ 32 + ver.toNat)) hc (by decide) hexec
      (u := putImage store { version := ver, digest := sha384 (keeperRead (regArg lc s 2) (regArg lc s 3) s).1, security := sec }
        (keeperRead (regArg lc s 2) (regArg lc s 3) s).2.2) ?_ rfl ⟨sameBytes_of_bytes hmem, fun k => ?_, ?_⟩
    · rw [updateSubmit]
      cases hr : s.live.roll with
      | none =>
        simp only [hpages, h3, hgood.mpr hok, Bool.not_true, Bool.false_eq_true, or_self, if_false]
        rfl
      | some r =>
        simp only [hno r hr, decide_false, hpages, h3, hgood.mpr hok, Bool.not_true, Bool.false_eq_true, or_self, if_false]
        rfl
    · rw [hbytes]
      refine (smGet_smPut ..).trans ?_
      rw [hacc.live]
      rfl
    · rw [← hacc.live]
      rfl

/-! ### Rolls and the handover -/

theorem mrOf_extendMr (i k : Nat) (d : List Byte) (s : State) : mrOf (extendMr i d s) k =
    if k = i then BitVec.ofNat 384 (natOfBytes (sha384 (bytesOfNat (mrOf s i).toNat 48 ++ d))) else mrOf s k := smGet_smPut ..
/-- Register 2 has been extended by the digest of an image that goes into service (21 R507, R512). -/
def Measured (s u : State) (im : Image) : Prop :=
  ∀ k, mrOf u k = if k = 2 then BitVec.ofNat 384 (natOfBytes (sha384 (bytesOfNat (mrOf s k).toNat 48 ++ im.digest))) else mrOf s k
theorem measured_of_mrs {s u : State} {im : Image} (v : State) (hv : v.cellar.mrs = s.cellar.mrs) (hu : u.cellar.mrs = (extendMr 2 im.digest v).cellar.mrs) :
    Measured s u im := by
  have hs (k : Nat) : mrOf v k = mrOf s k := by rw [mrOf, hv]; rfl
  intro k
  have hk : mrOf u k = mrOf (extendMr 2 im.digest v) k := by rw [mrOf, hu]; rfl
  rw [hk, mrOf_extendMr, hs, hs]
  split
  next h => rw [h]
  next => rfl

/-- The state in which a roll has begun: PATCH entered and the image measured. -/
theorem rollBegins_eq (r : Roll) (d : List Byte) (s : State) : ∃ al, extendMr 2 d (setPatch true (setLive (fun l => { l with roll := some r }) s)) =
    extendMr 2 d { s with live := { s.live with roll := some r, patchMode := true }, pads := { s.pads with alerts := al } } := by
  obtain ⟨al, h⟩ := setPatch_eq true (setLive (fun l => { l with roll := some r }) s)
  exact ⟨al, by rw [h]; rfl⟩

theorem rolls (s : State) (lc : LC) (hc : Called lc 0x501 s) : let a := argOf lc s
    (5 < a 2 ∨ imageOf s (a 2) = none ∨ a 3 = 0 ∨ 60000 < a 3 → Serves (.updateRoll lc) lc s 3 none fun u => u = s) ∧
    ∀ im, a 2 ≤ 5 → imageOf s (a 2) = some im → 1 ≤ a 3 → a 3 ≤ 60000 →
      (s.live.roll ≠ none ∨ s.ctl.inFlight = true ∨ s.resil.contain.getLsbD 0 = true ∨ a 2 = 0 ∧ sparesLeft s = [] →
        Serves (.updateRoll lc) lc s 7 none fun u => u = s) ∧
      (s.live.roll = none → s.ctl.inFlight = false → s.resil.contain.getLsbD 0 = false →
        (a 2 ≠ 0 → Serves (.updateRoll lc) lc s 0 none fun u => Measured s u im ∧ SameBytes s u ∧
          u.live = { s.live with roll := some ⟨a 2, im.version, smGet ver0 s.live.versions (a 2), a 3, [], false, []⟩, patchMode := true }) ∧
        (a 2 = 0 → sparesLeft s ≠ [] → Serves (.updateRoll lc) lc s 0 none fun u => Measured s u im ∧ SameBytes s u ∧
          (∀ pc, (phys u pc).version = if pc ∈ sparesLeft s then im.version else (phys s pc).version) ∧
          (∀ pc ∈ sparesLeft s, smGet noImage (microOf u 0 pc).banks 0 = some im) ∧
          ∀ r, u.live.roll = some r → r.version = im.version ∧ r.store = 0 ∧ u.live.patchMode = true)) := by
  intro a
  have hexec : exec (.updateRoll lc) s = .next (service 0x501 lc updateRoll s) := rfl
  simp only [a, argOf_2, argOf_3]
  refine ⟨fun h => refuses_of hc (by decide) hexec ?_, fun im h2 him h3 h3' => ⟨fun h => refuses_of hc (by decide) hexec ?_, fun hroll hflight hcores => ?_⟩⟩
  · rw [updateRoll]
    split
    next => rfl
    next im him =>
      split at him
      next h5 =>
        rw [if_pos]
        · rfl
        · rcases h with h | h | h
          · omega
          · rw [h] at him
            cases him
          · exact h
      next => cases him
  · have hb : (busyRolling s = true ∨ s.ctl.inFlight = true ∨ s.resil.contain.getLsbD 0 = true ∨ (regArg lc s 2 = 0 ∧ (sparesLeft s).isEmpty = true)) := by
      simpa [busyRolling, Option.isSome_iff_ne_none] using h
    rw [updateRoll, if_pos h2, him]
    dsimp only
    rw [if_neg (by omega), if_pos hb]
    rfl
  · set r : Roll := ⟨regArg lc s 2, im.version, smGet ver0 s.live.versions (regArg lc s 2), regArg lc s 3, [], false, []⟩ with hr
    obtain ⟨al, hbegin⟩ := rollBegins_eq r im.digest s
    have hbody (hbusy : ¬(regArg lc s 2 = 0 ∧ (sparesLeft s).isEmpty = true)) : updateRoll (regArg lc s) s = (0, none,
        if regArg lc s 2 = 0 then rollCheck (loadSpares (extendMr 2 im.digest (setPatch true (setLive (fun l => { l with roll := some r }) s))))
        else extendMr 2 im.digest (setPatch true (setLive (fun l => { l with roll := some r }) s))) := by
      rw [updateRoll, if_pos h2, him]
      dsimp only
      rw [if_neg (by omega), if_neg]
      · rfl
      · simp only [busyRolling, hroll, hflight, hcores, Option.isSome_none, Bool.false_eq_true, false_or]
        exact hbusy
    refine ⟨fun hne => serves_of hc (by decide) hexec (hbody fun h => hne h.1) rfl ?_, fun h0 hspares => serves_of hc (by decide) hexec
      (hbody fun h => hspares (by simpa using h.2)) rfl ?_⟩
    · rw [if_neg hne, hbegin]
      exact ⟨measured_of_mrs _ rfl rfl, fun _ => rfl, rfl⟩
    · rw [if_pos h0, hbegin]
      generalize hv : extendMr 2 im.digest { s with
        live := { s.live with roll := some r, patchMode := true }, pads := { s.pads with alerts := al } } = v
      have hvroll : v.live.roll = some r := by rw [← hv]; rfl
      have hvimage : imageOf v 0 = some im := by
        rw [← hv]
        exact h0 ▸ him
      have hvphys (pc : Nat) : phys v pc = phys s pc := by rw [← hv]; rfl
      have hvspares : sparesLeft v = sparesLeft s := by rw [← hv]; rfl
      obtain ⟨hroll', -, hpatch, hmem, hcellar, hversion, hbanks⟩ := patched_loadSpares (r := r) h0 rfl hvroll hvimage
      generalize loadSpares v = w at *
      obtain ⟨L, p, hcheck, hstores, hend⟩ := rollCheck_spec hroll'
      rw [hcheck]
      refine ⟨measured_of_mrs s rfl ?_, sameBytes_of_mem ?_, fun pc => ?_, fun pc hpc => ?_, fun r' hr' => ?_⟩
      · show w.cellar.mrs = _
        rw [hcellar, ← hv]
        rfl
      · show w.mem = _
        rw [hmem, ← hv]
        rfl
      · exact (hversion pc).trans (by rw [hvspares, hvphys])
      · show smGet noImage (smGet microDef L.stores _).banks 0 = _
        rw [hstores]
        exact hbanks pc (by rw [hvspares]; exact hpc)
      · have hL : L.roll = some r' := hr'
        obtain hnone | hlive := hend
        · rw [hnone] at hL
          cases hL
        · rw [hlive, hroll'] at hL
          cases hL
          have hmode : L.patchMode = true := by rw [hlive, hpatch, ← hv]; rfl
          exact ⟨rfl, h0, hmode⟩

theorem aborts (s : State) (lc : LC) (hc : Called lc 0x502 s) :
    let again (s : State) (r : Roll) := s.live.flashDue.map fun e => if e.1 = r.store then (e.1, nowNs s, e.2.2) else e
    (s.live.roll = none → Serves (.updateAbort lc) lc s 0 none fun u => u = s) ∧
    ∀ r, s.live.roll = some r → r.store ≠ 0 →
      (r.done ≠ [] → Serves (.updateAbort lc) lc s 0 none fun u => u = { s with live := { s.live with roll := some { r with aborting := true } } }) ∧
      (r.done = [] → Serves (.updateAbort lc) lc s 0 none fun u => SameBytes s u ∧
        u.live = { s.live with roll := none, patchMode := false, flashDue := again s r }) := by
  intro again
  have hexec : exec (.updateAbort lc) s = .next (service 0x502 lc (fun _ s => updateAbort s) s) := rfl
  refine ⟨fun h => refuses_of hc (by decide) hexec ?_, fun r hr h0 => ⟨fun hd => ?_, fun hd => ?_⟩⟩
  · show updateAbort s = _
    rw [updateAbort, h]
    rfl
  · refine serves_of (r := none) (u := { s with live := { s.live with roll := some { r with aborting := true } } }) hc (by decide) hexec ?_ rfl rfl
    show updateAbort s = _
    rw [updateAbort, hr]
    simp only [h0, if_false, List.isEmpty_iff, hd]
    rfl
  · obtain ⟨a, hend⟩ := rollEnd_aborted (r := { r with aborting := true }) rfl
      (setLive (fun l => { l with roll := some { r with aborting := true } }) s)
    refine serves_of (r := none) (u := rollEnd { r with aborting := true } (setLive (fun l => { l with roll := some { r with aborting := true } }) s))
      hc (by decide) hexec ?_ rfl ?_
    · show updateAbort s = _
      rw [updateAbort, hr]
      simp only [h0, if_false, List.isEmpty_iff, hd, if_true]
      rfl
    · rw [hend]
      exact ⟨fun _ => rfl, rfl⟩

theorem hands_over (s : State) (lc : LC) (ok : Bool) (hc : Called lc 0x503 s) :
    (imageOf s 8 = none → Serves (.keeperHandover lc ok) lc s 3 none fun u => u = s) ∧ ∀ im, imageOf s 8 = some im →
      (s.live.roll ≠ none ∨ countOnes s.cellar.pairsUp 4 < 3 → Serves (.keeperHandover lc ok) lc s 7 none fun u => u = s) ∧
      (s.live.roll = none → 3 ≤ countOnes s.cellar.pairsUp 4 →
        (ok = false → Serves (.keeperHandover lc ok) lc s 3 none fun u => u.cellar = s.cellar ∧ u.live = { s.live with patchMode := false } ∧ SameBytes s u) ∧
        (ok = true → Serves (.keeperHandover lc ok) lc s 0 none fun u => Measured s u im ∧ SameBytes s u ∧ u.live.patchMode = false ∧
          u.cellar = { s.cellar with active := s.cellar.standby, standby := s.cellar.active, keeperVer := im.version, keeperSec := im.security,
                                     mrs := u.cellar.mrs } ∧
          (8, nowNs s, firstCopy s) ∈ u.live.flashDue ∧
          (copyAbsent s (firstCopy s) = false → smGet noImage (smGet (fun _ => []) u.live.flash (firstCopy s)) 8 = some im))) := by
  have hexec : exec (.keeperHandover lc ok) s = .next (service 0x503 lc (fun _ s => keeperHandover ok s) s) := rfl
  refine ⟨fun h => refuses_of hc (by decide) hexec ?_, fun im him => ⟨fun h => refuses_of hc (by decide) hexec ?_, fun hroll hpairs => ?_⟩⟩
  · show keeperHandover ok s = _
    rw [keeperHandover, h]
    rfl
  · show keeperHandover ok s = _
    rw [keeperHandover, him]
    dsimp only
    rw [if_pos (by simpa [busyRolling, Option.isSome_iff_ne_none] using h)]
    rfl
  have hidle : ¬(busyRolling s = true ∨ countOnes s.cellar.pairsUp 4 < 3) := by
    simp only [busyRolling, hroll, Option.isSome_none, Bool.false_eq_true, false_or]
    omega
  obtain ⟨al, hbegin⟩ := setPatch_eq true s
  refine ⟨?_, ?_⟩
  · rintro rfl
    obtain ⟨al', hend⟩ := setPatch_eq false (setPatch true s)
    refine serves_of (r := none) (u := setPatch false (setPatch true s)) hc (by decide) hexec ?_ rfl ?_
    · show keeperHandover false s = _
      rw [keeperHandover, him]
      dsimp only
      rw [if_neg hidle]
      rfl
    · rw [hend, hbegin]
      exact ⟨rfl, rfl, fun _ => rfl⟩
  · rintro rfl
    obtain ⟨al', hend⟩ := setPatch_eq false { extendMr 2 im.digest (setPatch true s) with
      cellar := { (extendMr 2 im.digest (setPatch true s)).cellar with
        active := (extendMr 2 im.digest (setPatch true s)).cellar.standby, standby := (extendMr 2 im.digest (setPatch true s)).cellar.active,
        keeperVer := im.version, keeperSec := im.security } }
    refine serves_of (r := none) (u := flashFirst 8 (some im) (setPatch false { extendMr 2 im.digest (setPatch true s) with
      cellar := { (extendMr 2 im.digest (setPatch true s)).cellar with
        active := (extendMr 2 im.digest (setPatch true s)).cellar.standby, standby := (extendMr 2 im.digest (setPatch true s)).cellar.active,
        keeperVer := im.version, keeperSec := im.security } })) hc (by decide) hexec ?_ rfl ?_
    · show keeperHandover true s = _
      rw [keeperHandover, him]
      dsimp only
      rw [if_neg hidle]
      rfl
    · rw [hend, hbegin]
      exact ⟨measured_of_mrs s rfl rfl, fun _ => rfl, rfl, rfl, List.mem_cons_self .., fun h => firstWrite_flash 8 (some im) s _ h⟩

theorem queries_aging (s : State) (lc : LC) (hc : Called lc 0x504 s) : let a := argOf lc s
    ∀ n base, (7 < a 2 → Serves (.agingQuery lc) lc s 3 none fun u => u = s) ∧
      (islandKinds[a 2]? = some (n, base) → let m := if a 2 = 0 then s.resil.bound else n
        let x := agingOf s (if a 2 = 0 then pcOf s (a 3) else base + a 3)
        (m ≤ a 3 → Serves (.agingQuery lc) lc s 3 none fun u => u = s) ∧ (a 3 < m → x.vage < 2 ^ 16 → x.degr < 2 ^ 16 → x.tj < 2 ^ 16 →
          Serves (.agingQuery lc) lc s 0 (some (x.vage + x.degr * 2 ^ 16 + x.tj * 2 ^ 32 + x.alarm.toNat * 2 ^ 48)) fun u => u = s)) := by
  intro a n base
  have hexec : exec (.agingQuery lc) s = .next (service 0x504 lc agingQuery s) := rfl
  simp only [a, argOf_2, argOf_3]
  refine ⟨fun h => refuses_of hc (by decide) hexec ?_, fun hk => ⟨fun hm => refuses_of hc (by decide) hexec ?_, fun hm hv hd ht => ?_⟩⟩
  · have hnone : islandKinds[regArg lc s 2]? = none := List.getElem?_eq_none (by show 8 ≤ _; omega)
    rw [agingQuery, hnone]
    rfl
  · rw [agingQuery, hk]
    exact if_pos hm
  · refine serves_of (r := some _) (u := s) hc (by decide) hexec ?_ rfl rfl
    rw [agingQuery, hk]
    dsimp only
    have hmod {v : Nat} (h : v < 2 ^ 16) : v % 65536 = v := Nat.mod_eq_of_lt h
    rw [if_neg (Nat.not_le.mpr hm), hmod hv, hmod hd, hmod ht]
    rfl

end Sys2Proof.Machine
end

section
/-! Live change (21 R507 to R511, R519 to R521): the steps of a roll, the second flash copy and the aging of islands. -/

namespace Sys2Proof.Machine
variable {s t : State}

/-! ### The next relocation of a roll (R507) -/

theorem nextToRoll_spec {v : Word32} {t lc : Nat} (h : nextToRoll s v t = some lc) : bound s lc = true ∧
    s.resil.relocs.any (fun r => r.pause.isNone && r.fromPc / 72 == t) = false := by
  unfold nextToRoll at h
  split at h
  · cases h
  next hnone =>
    have hlc := List.mem_of_find?_eq_some h
    exact ⟨by simpa [bound] using hlc, by simpa using hnone⟩
/-- A tile with no core to roll has none after one more relocation has begun. -/
theorem nextToRoll_grows {v : Word32} {t : Nat} {r : Relocation} {u : State} (h : nextToRoll s v t = none) (hr : u.resil.relocs = s.resil.relocs ++ [r])
    (hb : u.resil.bound = s.resil.bound) (hm : u.resil.lcMap = s.resil.lcMap) (hp : ∀ pc, (phys u pc).version = (phys s pc).version) :
    nextToRoll u v t = none := by
  have hpc : pcOf u = pcOf s := funext fun lc => by simp only [pcOf, hm]
  unfold nextToRoll at h ⊢
  simp only [hr, hb, hpc, hp, List.any_append, Bool.or_eq_true]
  split at h
  next hany => rw [if_pos (.inl hany)]
  next hany =>
    split
    · rfl
    · exact h

theorem rollStep_none (h : rollVersion s = none ∨ s.resil.contain.getLsbD 0 = true) : exec .rollStep s = .next s := by
  show Host.Outcome.next (rollStep s) = _
  unfold rollStep
  obtain h | h := h
  · rw [h]
  · split
    · rfl
    · rw [if_pos h]

theorem rollStep_begins (v : Word32) (t lc sp : Nat) (hv : rollVersion s = some v) (hcontain : s.resil.contain.getLsbD 0 = false) (ht : t < 8)
    (hnext : nextToRoll s v t = some lc) (hothers : ∀ t', t' < 8 → t' ≠ t → nextToRoll s v t' = none)
    (hsp : chooseSpare s lc (some v) = some sp) (hm : moving s lc = false) (hf : (coreOf s lc).standing ≠ .fenced) :
    Completes .rollStep s fun u => (phys s sp).version = v ∧
        moving u lc = true ∧ u.resil.relocs = s.resil.relocs ++ [{ lc := lc, fromPc := pcOf s lc, toPc := sp, trigger := 6 }] ∧ SameBytes s u := by
  obtain ⟨hb, hfree⟩ := nextToRoll_spec hnext
  obtain ⟨-, -, -, hversion⟩ := chooseSpare_some hsp
  refine ⟨rollStep s, rfl, ?_⟩
  have hstart := startReloc_healthy (trigger := 6) hb hm hf hsp
  set u := updCore lc (fun c => { c with drainReq := true }) (takeSpare lc sp 6 none s) with hu
  have hu' : rollStep s = u := by
    rw [rollStep, hv]
    simp only [hcontain, Bool.false_eq_true, if_false]
    refine foldl_one (x := t) _ List.nodup_range (List.mem_range.mpr ht) (fun t' ht' hne => ?_) (fun t' ht' hne => ?_) ?_
    · rw [hothers t' (List.mem_range.mp ht') hne]
    · have hnone : nextToRoll u v t' = none :=
        nextToRoll_grows (s := s) (r := { lc := lc, fromPc := pcOf s lc, toPc := sp, trigger := 6 }) (hothers t' (List.mem_range.mp ht') hne) rfl rfl
          rfl fun _ => rfl
      rw [hnone]
    · rw [hnext]
      exact hstart
  obtain ⟨hmoving, hbytes, hrelocs, -⟩ := moves_healthy lc sp 6 (fun c => { c with drainReq := true }) s
  rw [hu']
  exact ⟨hversion v rfl, hmoving, hrelocs, hbytes⟩

/-! ### Instances that switch (R508, R510) -/

theorem instanceSwitch_none (n : Fin 8) (h : s.live.roll = none) : exec (.rollInstanceSwitch n) s = .next s := by
  show Host.Outcome.next (instanceSwitch n.val s) = _
  rw [instanceSwitch, h]

theorem maySwitch_of_busy {r : Roll} {n : Nat} (h : (r.store = 2 ∧ (port s n).retryBuf ≠ []) ∨ (r.store = 3 ∧ s.power.cur ≠ none) ∨
    (r.store = 1 ∧ ∃ c ∈ s.office.cmds, c.cmd.q % 8 = n ∧ c.status = 0)) : maySwitch s r.store n = false := by
  obtain ⟨h, hbuf⟩ | ⟨h, hcur⟩ | ⟨h, c, hc, hq, hst⟩ := h
  · rw [h]
    simpa [maySwitch] using hbuf
  · rw [h]
    simpa [maySwitch] using Option.isSome_iff_ne_none.mpr hcur
  · rw [h]
    simp only [maySwitch, Bool.and_eq_false_iff]
    exact .inl (List.all_eq_false.mpr ⟨c, hc, by simp [hq, hst]⟩)
theorem instanceSwitch_waits (n : Fin 8) (r : Roll) (hr : s.live.roll = some r)
    (h : r.store = 0 ∨ s.resil.contain.getLsbD 0 = true ∨ maySwitch s r.store n.val = false) : exec (.rollInstanceSwitch n) s = .next s := by
  show Host.Outcome.next (instanceSwitch n.val s) = _
  rw [instanceSwitch, hr]
  dsimp only
  rw [if_pos (by simpa using h)]

section
variable (n : Fin 8) (r : Roll) (hr : s.live.roll = some r) (h0 : r.store ≠ 0) (hmay : maySwitch s r.store n.val = true)
  (hcontain : s.resil.contain.getLsbD 0 = false)
include hr h0 hmay hcontain
theorem instanceSwitch_forward (ha : r.aborting = false) (hn : n.val = r.done.length) : instanceSwitch n.val s =
    let r1 := { r with done := r.done ++ [n.val] }
    let s1 := setLive (fun l => { l with roll := some r1 }) (loadBank r.store n.val (imageOf s r.store) s)
    if n.val + 1 = rollInstances r.store then rollEnd r1 s1 else s1 := by
  rw [instanceSwitch, hr]
  simp only [h0, hcontain, hmay, ha, rollImage, Bool.not_true, Bool.false_eq_true, or_self, if_false, List.length_append, List.length_singleton]
  rw [if_pos hn, ← hn]
  rfl
theorem instanceSwitch_later (ha : r.aborting = false) (hn : n.val ≠ r.done.length) : instanceSwitch n.val s = s := by
  rw [instanceSwitch, hr]
  simp only [h0, hcontain, hmay, ha, hn, Bool.not_true, Bool.false_eq_true, or_self, if_false]
theorem instanceSwitch_back (ha : r.aborting = true) {rest : List Nat} (hd : r.done = n.val :: rest) : instanceSwitch n.val s =
    let s0 := setMicro r.store n.val { microOf s r.store n.val with active := 1 - (microOf s r.store n.val).active } s
    if rest.isEmpty then rollEnd { r with done := rest } s0 else setLive (fun l => { l with roll := some { r with done := rest } }) s0 := by
  rw [instanceSwitch, hr]
  simp only [h0, hcontain, hmay, ha, hd, Bool.not_true, Bool.false_eq_true, or_self, if_false, if_true, List.head?_cons, List.tail_cons]
end

/-- The load of an instance's idle bank, seen through the live state alone. -/
theorem loadBank_eq (k n : Nat) (im : Option Image) (s : State) : ∃ st, loadBank k n im s = { s with live := { s.live with stores := st } } := ⟨_, rfl⟩
theorem loaded_loadBank (k n : Nat) (im : Option Image) (s : State) :
    (microOf (loadBank k n im s) k n).active = idleBank k n s ∧ ∀ b, smGet noImage (microOf (loadBank k n im s) k n).banks b =
      if b = idleBank k n s then im else smGet noImage (microOf s k n).banks b := by
  rw [microOf_loadBank]
  exact ⟨rfl, fun b => smGet_smPut ..⟩

theorem instances_switch (s : State) (n : Fin 8) (r : Roll) (hr : s.live.roll = some r) (h0 : r.store ≠ 0)
    (hmay : maySwitch s r.store n.val = true) (hcontain : s.resil.contain.getLsbD 0 = false) :
    let m := microOf s r.store n.val
    let bank := if (storeShape r.store).banks = 2 then 1 - m.active else 0
    let loaded (u : State) : Prop := (microOf u r.store n.val).active = bank ∧ ∀ b, smGet noImage (microOf u r.store n.val).banks b =
      if b = bank then imageOf s r.store else smGet noImage m.banks b
    let now (r1 : Roll) (u : State) : Prop := u = { s with live := { s.live with roll := some r1, stores := u.live.stores } }
    (r.aborting = false → n.val = r.done.length →
      (n.val + 1 ≠ rollInstances r.store → Completes (.rollInstanceSwitch n) s fun u => now { r with done := r.done ++ [n.val] } u ∧ loaded u) ∧
      (n.val + 1 = rollInstances r.store → Completes (.rollInstanceSwitch n) s fun u => u.live.roll = none ∧ u.live.patchMode = false ∧ SameBytes s u ∧
        loaded u ∧ (∀ k, smGet ver0 u.live.versions k = if k = r.store then r.version else smGet ver0 s.live.versions k) ∧
        (r.store, nowNs s, firstCopy s) ∈ u.live.flashDue ∧
        (copyAbsent s (firstCopy s) = false → smGet noImage (smGet (fun _ => []) u.live.flash (firstCopy s)) r.store = imageOf s r.store))) ∧
    (r.aborting = false → n.val ≠ r.done.length → exec (.rollInstanceSwitch n) s = .next s) ∧
    (r.aborting = true → ∀ rest, r.done = n.val :: rest →
      (rest ≠ [] → Completes (.rollInstanceSwitch n) s fun u => now { r with done := rest } u ∧ (microOf u r.store n.val).active = 1 - m.active) ∧
      (rest = [] → Completes (.rollInstanceSwitch n) s fun u => u.live.roll = none ∧ u.live.patchMode = false ∧ u.live.versions = s.live.versions ∧
        (microOf u r.store n.val).active = 1 - m.active ∧ SameBytes s u)) := by
  intro m bank loaded now
  have hexec : exec (.rollInstanceSwitch n) s = .next (instanceSwitch n.val s) := rfl
  refine ⟨fun ha hn => ?_, fun ha hn => ?_, fun ha rest hd => ?_⟩
  · have hs := instanceSwitch_forward n r hr h0 hmay hcontain ha hn
    have hload : loaded (loadBank r.store n.val (imageOf s r.store) s) := loaded_loadBank r.store n.val (imageOf s r.store) s
    refine ⟨fun hlast => ?_, fun hlast => ?_⟩
    · exact ⟨_, hexec, by rw [hs, if_neg hlast]; exact ⟨rfl, hload⟩⟩
    · obtain ⟨a, hend⟩ := rollEnd_done (r := { r with done := r.done ++ [n.val] }) ha
        (setLive (fun l => { l with roll := some { r with done := r.done ++ [n.val] } }) (loadBank r.store n.val (imageOf s r.store) s))
      refine ⟨_, hexec, ?_⟩
      rw [hs, if_pos hlast, hend]
      exact ⟨rfl, rfl, fun _ => rfl, hload, fun k => smGet_smPut .., firstWrite_due .., fun hc => firstWrite_flash _ _ _ _ hc⟩
  · rw [hexec, instanceSwitch_later n r hr h0 hmay hcontain ha hn]
  · have hs := instanceSwitch_back n r hr h0 hmay hcontain ha hd
    have hback := microOf_setMicro r.store n.val { m with active := 1 - m.active } s
    refine ⟨fun hrest => ?_, fun hrest => ?_⟩
    · refine ⟨_, hexec, ?_⟩
      rw [hs, if_neg (by simpa using hrest)]
      exact ⟨rfl, congrArg MicroStore.active hback⟩
    · obtain ⟨a, hend⟩ := rollEnd_aborted (r := { r with done := rest }) ha (setMicro r.store n.val { m with active := 1 - m.active } s)
      refine ⟨_, hexec, ?_⟩
      rw [hs, if_pos (by simpa using hrest), hend]
      exact ⟨rfl, rfl, rfl, congrArg MicroStore.active hback, fun _ => rfl⟩

/-! ### The second flash copy (R511) -/

theorem flashSecond_none (store : Nat) (h : s.live.flashDue.find? (fun e => e.1 == store) = none) : exec (.flashSecondCopyWrite store) s = .next s := by
  show Host.Outcome.next (flashSecond store s) = _
  rw [flashSecond, h]

/-- The live state once the second copy of store `store` has been written from copy `c`. -/
def secondWrite (store c : Nat) (s : State) : Live :=
  { s.live with flash := if copyAbsent s (1 - c) then s.live.flash
                  else smPut (fun _ => []) s.live.flash (1 - c)
                    (smPut noImage (smGet (fun _ => []) s.live.flash (1 - c)) store (smGet noImage (smGet (fun _ => []) s.live.flash c) store))
                flashDue := s.live.flashDue.filter fun e => e.1 != store }
theorem flashSecond_due {store t c : Nat} (h : s.live.flashDue.find? (fun e => e.1 == store) = some (store, t, c)) (ht : t + 86400000000000 ≤ nowNs s)
    (hroll : s.live.roll = none) : flashSecond store s =
      if store = 8 then sealAll { s with live := secondWrite store c s } else { s with live := secondWrite store c s } := by
  rw [flashSecond, h]
  simp only [busyRolling, hroll, dayNs, ht, Option.isSome_none, Bool.not_false, and_self, if_true]
  rfl
theorem secondWrite_flash (store c : Nat) (h : copyAbsent s (1 - c) = false) :
    smGet noImage (smGet (fun _ => []) (secondWrite store c s).flash (1 - c)) store = smGet noImage (smGet (fun _ => []) s.live.flash c) store := by
  unfold secondWrite
  simp only [h, Bool.false_eq_true, if_false, smGet_smPut_same]
theorem flashSecond_waits {store t c : Nat} (h : s.live.flashDue.find? (fun e => e.1 == store) = some (store, t, c))
    (hw : nowNs s < t + 86400000000000 ∨ s.live.roll ≠ none) : exec (.flashSecondCopyWrite store) s = .next s := by
  show Host.Outcome.next (flashSecond store s) = _
  rw [flashSecond, h]
  dsimp only
  rw [if_neg]
  rintro ⟨ht, hr⟩
  obtain hw | hw := hw
  · exact absurd ht (Nat.not_le.mpr hw)
  · simp [busyRolling, Option.isSome_iff_ne_none.mpr hw] at hr
/-- The records sealed anew: one for each secret, under the keeper's version and the next nonces. -/
theorem sealAll_sealed (s : State) : smGet noRecords (sealAll s).cellar.sealed 0 = smGet noRecords (sealAll s).cellar.sealed 1 ∧
    (smGet noRecords (sealAll s).cellar.sealed 0).length = s.cellar.secrets.length ∧ ∀ k x, s.cellar.secrets[k]? = some x →
      (smGet noRecords (sealAll s).cellar.sealed 0)[k]? = some (sealRecord s.cellar.keeperSec (s.cellar.nonce + k) k x) := by
  set rs := s.cellar.secrets.zipIdx.map fun x => sealRecord s.cellar.keeperSec (s.cellar.nonce + x.2) x.2 x.1 with hrs
  have hone : smGet noRecords (sealAll s).cellar.sealed 1 = rs := smGet_smPut_same ..
  have hzero : smGet noRecords (sealAll s).cellar.sealed 0 = rs :=
    (smGet_smPut_other _ _ _ (by decide)).trans (smGet_smPut_same ..)
  rw [hone, hzero]
  refine ⟨rfl, by simp [hrs], fun k x hk => ?_⟩
  simp [hrs, List.getElem?_map, List.getElem?_zipIdx, hk]

theorem second_copy (s : State) (store t c : Nat) (h : s.live.flashDue.find? (fun e => e.1 == store) = some (store, t, c))
    (ht : t + 86400000000000 ≤ nowNs s) (hroll : s.live.roll = none) : Completes (.flashSecondCopyWrite store) s fun u =>
      let held (x : State) (k : Nat) := smGet (fun _ => []) x.live.flash k
      (copyAbsent s (1 - c) = false → smGet noImage (held u (1 - c)) store = smGet noImage (held s c) store) ∧
      u.live.flashDue = s.live.flashDue.filter (fun e => e.1 != store) ∧
      { u with cellar := s.cellar, live := { u.live with flash := s.live.flash, flashDue := s.live.flashDue } } = s ∧
      (store ≠ 8 → u.cellar = s.cellar) ∧
      (store = 8 → u.cellar.secrets = s.cellar.secrets ∧ smGet noRecords u.cellar.sealed 0 = smGet noRecords u.cellar.sealed 1 ∧
        (smGet noRecords u.cellar.sealed 0).length = s.cellar.secrets.length ∧ ∀ k x, s.cellar.secrets[k]? = some x →
          (smGet noRecords u.cellar.sealed 0)[k]? = some (sealRecord s.cellar.keeperSec (s.cellar.nonce + k) k x)) := by
  refine ⟨flashSecond store s, rfl, ?_⟩
  rw [flashSecond_due h ht hroll]
  have hflash := secondWrite_flash (s := s) store c
  by_cases h8 : store = 8
  · rw [if_pos h8]
    exact ⟨hflash, rfl, rfl, fun hne => absurd h8 hne, fun _ => ⟨rfl, sealAll_sealed { s with live := secondWrite store c s }⟩⟩
  · rw [if_neg h8]
    exact ⟨hflash, rfl, rfl, fun _ => rfl, fun he => absurd he h8⟩

/-! ### Aging (R519 to R521) -/

/-- An island's sample as it is kept, its margin raised where it falls short (R519). -/
def sampled (i degr tj : Nat) (short : Bool) (s : State) : Aging :=
  if short = true ∧ (∀ t, (agingOf s i).stepped = some t → t + 86400000000000 ≤ nowNs s) ∧ (agingOf s i).vage < 240 then
    { agingOf s i with degr := degr, tj := tj, vage := min 240 ((agingOf s i).vage + 10), stepped := some (nowNs s) }
  else { agingOf s i with degr := degr, tj := tj }
theorem sampled_alarm (i degr tj : Nat) (short : Bool) (s : State) : (sampled i degr tj short s).alarm = (agingOf s i).alarm := by
  unfold sampled
  split <;> rfl
theorem sampled_lowered (i degr tj : Nat) (short : Bool) (s : State) : (sampled i degr tj short s).lowered = (agingOf s i).lowered := by
  unfold sampled
  split <;> rfl
theorem sampled_due {i degr tj : Nat} {short : Bool} (h190 : 190 ≤ (agingOf s i).vage)
    (hdue : (short = true ∧ (∀ t, (agingOf s i).stepped = some t → t + 86400000000000 ≤ nowNs s) ∧ (agingOf s i).vage < 240) ∨ 200 ≤ (agingOf s i).vage) :
    200 ≤ (sampled i degr tj short s).vage := by
  unfold sampled
  split
  · show 200 ≤ min 240 ((agingOf s i).vage + 10)
    omega
  next hno => exact hdue.resolve_left hno

theorem agingSample_eq (i degr tj : Nat) (short : Bool) (s : State) : agingSample i degr tj short s =
    let x := sampled i degr tj short s
    let s1 := setAging i x s
    if i < 576 then
      if 200 ≤ x.vage ∧ x.alarm = false then
        let s2 := agingAlarm i x s1
        match lcOfPc s i with
        | some lc => if bound s lc then startReloc lc 5 true none s2 else s2
        | none => useSpare 0 (setPhys i { phys s2 i with service := false } s2)
      else s1
    else if short = true ∧ (agingOf s i).vage = 240 then
      if x.lowered = 0 then agingAlarm i { x with lowered := 1 } s1 else enterContain containUnit (setAging i { x with lowered := 2 } s1)
    else s1 := by
  have hx : sampled i degr tj short s = if short && (match (agingOf s i).stepped with | some t => decide (t + dayNs ≤ nowNs s) | none => true) &&
      decide ((agingOf s i).vage < 240) then
        { agingOf s i with degr := degr, tj := tj, vage := min 240 ((agingOf s i).vage + 10), stepped := some (nowNs s) }
      else { agingOf s i with degr := degr, tj := tj } := by
    refine if_congr ?_ rfl rfl
    cases (agingOf s i).stepped with
    | none => simp
    | some t =>
      simp only [Option.some.injEq, forall_eq', Bool.and_eq_true, and_assoc, decide_eq_true_eq]
      rfl
  rw [agingSample, hx]
  simp only [Bool.not_eq_eq_eq_not, Bool.not_true] <;> rfl

theorem agingOf_setAging (i : Nat) (x : Aging) (s : State) : agingOf (setAging i x s) i = x := smGet_smPut_same ..
/-- The alarm of an island is kept with its sample and logged; the cores and memory stay as they are. -/
theorem agingAlarm_spec (i : Nat) (x : Aging) (s : State) : Newest 0x303 (agingAlarm i x s) ∧ agingOf (agingAlarm i x s) i = { x with alarm := true } ∧
    SameCores s (agingAlarm i x s) := by
  obtain ⟨e, n, p, j, he, hl⟩ := logFault_eq (s := setAging i { x with alarm := true } s) 0x303 5 uDevice none i x.vage (by decide)
  have h : agingAlarm i x s = _ := hl
  rw [h]
  exact ⟨newest_cons rfl he, agingOf_setAging i _ s, rfl, rfl, rfl, rfl, rfl, rfl, rfl, fun _ => rfl⟩

section
variable (s : State) (i : Fin 616) (degr tj : Nat) (short : Bool)
theorem aging_below (h : (i.val < 576 ∧ ((agingOf s i.val).vage < 190 ∨ (agingOf s i.val).alarm = true)) ∨
      (576 ≤ i.val ∧ (short = false ∨ (agingOf s i.val).vage ≠ 240))) :
    agingSample i.val degr tj short s = setAging i.val (sampled i.val degr tj short s) s := by
  rw [agingSample_eq]
  obtain ⟨hi, hx⟩ | ⟨hi, hx⟩ := h
  · simp only [hi, if_true]
    rw [if_neg]
    rintro ⟨hv, ha⟩
    rw [sampled_alarm] at ha
    obtain hx | hx := hx
    · unfold sampled at hv
      split at hv
      · have hmin : 200 ≤ min 240 ((agingOf s i.val).vage + 10) := hv
        omega
      · exact absurd hv (by show ¬ 200 ≤ (agingOf s i.val).vage; omega)
    · cases ha.symm.trans hx
  · simp only [Nat.not_lt.mpr hi, if_false]
    rw [if_neg]
    rintro ⟨hs, hv⟩
    obtain hx | hx := hx
    · cases hs.symm.trans hx
    · exact hx hv

theorem aging_alarms (hi : i.val < 576) (h190 : 190 ≤ (agingOf s i.val).vage) (ha : (agingOf s i.val).alarm = false)
    (hdue : (short = true ∧ (∀ t, (agingOf s i.val).stepped = some t → t + 86400000000000 ≤ nowNs s) ∧ (agingOf s i.val).vage < 240) ∨
      200 ≤ (agingOf s i.val).vage) : ∃ s2, Newest 0x303 s2 ∧ (agingOf s2 i.val).alarm = true ∧ SameCores s s2 ∧ spareUsed s2 0 = spareUsed s 0 ∧
        agingSample i.val degr tj short s =
          match lcOfPc s i.val with
          | some lc => if bound s lc then startReloc lc 5 true none s2 else s2
          | none => useSpare 0 (setPhys i.val { phys s2 i.val with service := false } s2) := by
  set x := sampled i.val degr tj short s with hx
  obtain ⟨hnewest, hof, hsame⟩ := agingAlarm_spec i.val x (setAging i.val x s)
  refine ⟨agingAlarm i.val x (setAging i.val x s), hnewest, by rw [hof], ?_, ?_, ?_⟩
  · obtain ⟨h1, h2, h3, h4, h5, h6, h7, h8⟩ := hsame
    exact ⟨h1, h2, h3, h4, h5, h6, h7, h8⟩
  · obtain ⟨e, n, p, j, -, hl⟩ := logFault_eq (s := setAging i.val { x with alarm := true } (setAging i.val x s)) 0x303 5 uDevice none i.val x.vage (by decide)
    have h : agingAlarm i.val x (setAging i.val x s) = _ := hl
    rw [h]
    rfl
  · rw [agingSample_eq]
    simp only [hi, if_true]
    rw [if_pos ⟨sampled_due h190 hdue, (sampled_alarm ..).trans ha⟩]
end

theorem islands_age (s : State) (i : Fin 616) (degr tj : Nat) (short : Bool) :
    let x := agingOf s i.val
    let step := short = true ∧ (∀ t, x.stepped = some t → t + 86400000000000 ≤ nowNs s) ∧ x.vage < 240
    let y : Aging := { x with degr := degr, tj := tj }
    ((i.val < 576 ∧ (x.vage < 190 ∨ x.alarm = true)) ∨ (576 ≤ i.val ∧ (short = false ∨ x.vage ≠ 240)) →
      (¬step → Completes (.agingSample i degr tj short) s fun u => agingOf u i.val = y ∧ { u with live := { u.live with aging := s.live.aging } } = s) ∧
      (step → Completes (.agingSample i degr tj short) s fun u => agingOf u i.val = { y with vage := min 240 (x.vage + 10), stepped := some (nowNs s) } ∧
        { u with live := { u.live with aging := s.live.aging } } = s)) ∧
    (i.val < 576 → 190 ≤ x.vage → x.alarm = false → step ∨ 200 ≤ x.vage → lcOfPc s i.val = none → Completes (.agingSample i degr tj short) s fun u =>
      (agingOf u i.val).alarm = true ∧ Newest 0x303 u ∧ (phys u i.val).service = false ∧ spareUsed u 0 = spareUsed s 0 + 1 ∧ SameBytes s u) ∧
    (∀ lc sp, i.val < 576 → 190 ≤ x.vage → x.alarm = false → step ∨ 200 ≤ x.vage → lcOfPc s i.val = some lc → bound s lc = true → moving s lc = false →
      (coreOf s lc).standing ≠ .fenced → chooseSpare s lc none = some sp → Completes (.agingSample i degr tj short) s fun u => (agingOf u i.val).alarm = true ∧
        Newest 0x303 u ∧ moving u lc = true ∧ u.resil.relocs = s.resil.relocs ++ [⟨lc, pcOf s lc, sp, 5, none, none⟩] ∧ SameBytes s u) ∧
    (576 ≤ i.val → short = true → x.vage = 240 → Completes (.agingSample i degr tj short) s fun u => SameBytes s u ∧
      (x.lowered = 0 → (agingOf u i.val).alarm = true ∧ (agingOf u i.val).lowered = 1 ∧ Newest 0x303 u) ∧
      (x.lowered ≠ 0 → (agingOf u i.val).lowered = 2 ∧ u.resil.contain.getLsbD 5 = true)) := by
  intro x step y
  have hexec : exec (.agingSample i degr tj short) s = .next (agingSample i.val degr tj short s) := rfl
  refine ⟨fun h => ⟨fun hno => ?_, fun hstep => ?_⟩, fun hi h190 ha hdue hlc => ?_, fun lc sp hi h190 ha hdue hlc hb hm hf hsp => ?_,
    fun hi hshort h240 => ?_⟩
  · refine ⟨_, hexec, ?_⟩
    rw [aging_below s i degr tj short h, show sampled i.val degr tj short s = y from if_neg hno]
    exact ⟨agingOf_setAging .., rfl⟩
  · refine ⟨_, hexec, ?_⟩
    rw [aging_below s i degr tj short h, show sampled i.val degr tj short s = _ from if_pos hstep]
    exact ⟨agingOf_setAging .., rfl⟩
  · obtain ⟨s2, hnewest, halarm, hsame, hused, hs⟩ := aging_alarms s i degr tj short hi h190 ha hdue
    rw [hlc] at hs
    refine ⟨_, hexec, ?_⟩
    rw [hs]
    refine ⟨halarm, hnewest, congrArg PhysCore.service (smGet_smPut_same ..), ?_, sameBytes_of_mem hsame.mem⟩
    exact (smGet_smPut_same ..).trans (congrArg (· + 1) hused)
  · obtain ⟨s2, hnewest, halarm, hsame, -, hs⟩ := aging_alarms s i degr tj short hi h190 ha hdue
    rw [hlc] at hs
    simp only [hb, if_true] at hs
    have hb2 : bound s2 lc = true := by rw [bound, hsame.bound]; exact hb
    have hm2 : moving s2 lc = false := by rw [moving, hsame.moving]; exact hm
    have hsp2 : chooseSpare s2 lc none = some sp := (hsame.chooseSpare_eq lc none).trans hsp
    rw [startReloc_healthy hb2 hm2 (by rw [hsame.standing]; exact hf) hsp2] at hs
    obtain ⟨hmoving, hbytes, hrelocs, -⟩ := (moves_healthy lc sp 5 (fun c => { c with drainReq := true }) s2).of_same hsame
    refine ⟨_, hexec, ?_⟩
    rw [hs]
    exact ⟨halarm, hnewest, hmoving, hrelocs, hbytes⟩
  · refine ⟨_, hexec, ?_⟩
    rw [agingSample_eq]
    simp only [Nat.not_lt.mpr hi, if_false, hshort, true_and, show (agingOf s i.val).vage = 240 from h240, if_true]
    rw [sampled_lowered]
    split
    next h0 =>
      obtain ⟨hnewest, hof, hsame⟩ := agingAlarm_spec i.val { sampled i.val degr tj true s with lowered := 1 }
        (setAging i.val (sampled i.val degr tj true s) s)
      rw [hof]
      exact ⟨sameBytes_of_mem hsame.mem, fun _ => ⟨rfl, rfl, hnewest⟩, fun hne => absurd h0 hne⟩
    next h0 =>
      obtain ⟨l, m, p, j, c, hcontain, hbit, -⟩ := enterContain_spec (s := setAging i.val { sampled i.val degr tj true s with lowered := 2 }
        (setAging i.val (sampled i.val degr tj true s) s)) containUnit (by decide)
      rw [hcontain]
      exact ⟨fun _ => rfl, fun he => absurd he h0, fun _ => ⟨congrArg Aging.lowered (agingOf_setAging ..), hbit⟩⟩

/-- Settles O53: submissions and services by the conditions they test, the switches and ends of a roll by what loading a bank and ending a roll
leave, aging by the sample kept and what its alarm starts. -/
theorem updatesRollAndIslandsAge : Obligations.UpdatesRollAndIslandsAge := by
  unfold Obligations.UpdatesRollAndIslandsAge
  refine ⟨submits, fun s lc ok => ⟨rolls s lc, aborts s lc, hands_over s lc ok, queries_aging s lc⟩, fun s => ⟨rollStep_none, rollStep_begins,
    instanceSwitch_none, fun n r hr h => ?_, instances_switch s, fun store t c h => ⟨flashSecond_waits h, second_copy s store t c h⟩,
    fun store => flashSecond_none store⟩, islands_age⟩
  refine instanceSwitch_waits n r hr ?_
  obtain h | h | h := h
  · exact .inl h
  · exact .inr (.inl h)
  · exact .inr (.inr (maySwitch_of_busy h))

end Sys2Proof.Machine
end

section
/-! The keeper's services on memory (19 R463 to R472): where the parts of what it writes lie, the codes of the pages it takes, and the slots that a
synchronisation removes. -/

namespace Sys2Proof.Machine
variable {s t : State}

/-! ### Parts of what is written -/

/-- `xs` stands in `bs` from place `k` on. -/
def Part (bs : List Byte) (k : Nat) (xs : List Byte) : Prop := ∃ pre post, bs = pre ++ (xs ++ post) ∧ pre.length = k
theorem Part.here (xs post : List Byte) : Part (xs ++ post) 0 xs := ⟨[], post, rfl, rfl⟩
theorem Part.skip {bs xs : List Byte} {k m : Nat} (ys : List Byte) (h : Part bs k xs) (hm : m = ys.length + k) : Part (ys ++ bs) m xs := by
  obtain ⟨pre, post, rfl, hk⟩ := h
  exact ⟨ys ++ pre, post, by rw [List.append_assoc], by rw [List.length_append, hk, hm]⟩
theorem Part.within {bs xs ys : List Byte} {k m l : Nat} (h : Part bs k xs) (h' : Part xs m ys) (hl : l = k + m) : Part bs l ys := by
  obtain ⟨pre, post, rfl, hk⟩ := h
  obtain ⟨pre', post', rfl, hm⟩ := h'
  exact ⟨pre ++ pre', post' ++ post, by simp only [List.append_assoc], by rw [List.length_append, hk, hm, hl]⟩
/-- The `i`-th of pieces of one length. -/
theorem Part.flatMap {f : Nat → List Byte} {m n i k : Nat} (hn : ∀ j, (f j).length = n) (hi : i < m) (hk : k = n * i) :
    Part ((List.range m).flatMap f) k (f i) := by
  have hlen (j : Nat) : ((List.range j).flatMap f).length = n * j := by
    induction j with
    | zero => rfl
    | succ j ih => rw [List.range_succ, List.flatMap_append, List.length_append, ih, List.flatMap_singleton, hn, Nat.mul_succ]
  obtain ⟨r, rfl⟩ : ∃ r, m = i + (1 + r) := ⟨m - i - 1, by omega⟩
  refine ⟨(List.range i).flatMap f, ((List.range r).map fun x => i + (1 + x)).flatMap f, ?_, (hlen i).trans hk.symm⟩
  rw [List.range_add, List.range_add, List.flatMap_append]
  simp [List.map_map, Function.comp_def]

theorem readByte_of_putBytes {pa : Nat} {bs : List Byte} (h : t.mem.bytes = putBytes bs pa s.mem.bytes) (a : Nat) :
    readByte t a = if pa ≤ a ∧ a < pa + bs.length then bs.getD (a - pa) 0 else readByte s a := by
  rw [readByte, h]
  exact smGet_putBytes bs pa a s.mem.bytes
theorem sameBytesBut_of_putBytes {pa n : Nat} {bs : List Byte} (h : t.mem.bytes = putBytes bs pa s.mem.bytes) (hn : bs.length = n) :
    SameBytesBut pa n s t := by
  intro a ha
  rw [readByte_of_putBytes h, if_neg (by omega)]
theorem Part.byte {bs xs : List Byte} {pa k i : Nat} (h : Part bs k xs) (hb : t.mem.bytes = putBytes bs pa s.mem.bytes) (hi : i < xs.length) :
    readByte t (pa + k + i) = xs.getD i 0 := by
  obtain ⟨pre, post, rfl, hk⟩ := h
  rw [readByte_of_putBytes hb, if_pos (by simp only [List.length_append]; omega), show pa + k + i - pa = pre.length + i by omega,
    List.getD_append_right _ _ _ _ (Nat.le_add_right ..), Nat.add_sub_cancel_left, List.getD_append _ _ _ _ hi]
theorem Part.holds {bs : List Byte} {pa k n v : Nat} (h : Part bs k (bytesOfNat v n)) (hb : t.mem.bytes = putBytes bs pa s.mem.bytes) :
    HoldsBytes t (pa + k) n v := by
  intro i hi
  have hlen : i < (bytesOfNat v n).length := by rwa [length_bytesOfNat]
  rw [h.byte hb hlen, List.getD_eq_getElem _ _ hlen, getElem_bytesOfNat]
theorem getD_readBytes (s : State) (pa n k : Nat) (hk : k < n) : (readBytes s pa n).getD k 0 = readByte s (pa + k) := by
  induction n generalizing pa k with
  | zero => omega
  | succ n ih =>
    cases k with
    | zero => rfl
    | succ k => rw [readBytes, List.getD_cons_succ, ih (pa + 1) k (by omega), Nat.add_assoc, Nat.add_comm 1]

/-! ### The quote (R472) -/

theorem length_shaRound {h : List Word64} (kw : Word64 × Word64) (hh : h.length = 8) : (shaRound h kw).length = 8 := by
  unfold shaRound
  split
  · rfl
  · exact hh
theorem length_shaBlock {h : List Word64} (bs : List Byte) (hh : h.length = 8) : (shaBlock h bs).length = 8 := by
  have hrounds (l : List (Word64 × Word64)) : (l.foldl shaRound h).length = 8 := by
    induction l generalizing h with
    | nil => exact hh
    | cons x l ih => exact ih (length_shaRound x hh)
  simp only [shaBlock, List.length_map, List.length_zip, hh, hrounds, Nat.min_self]
theorem length_shaBlocks (n : Nat) {h : List Word64} (bs : List Byte) (hh : h.length = 8) : (shaBlocks n h bs).length = 8 := by
  induction n generalizing h bs with
  | zero => exact hh
  | succ n ih => exact ih _ (length_shaBlock _ hh)
theorem length_sha384 (bs : List Byte) : (sha384 bs).length = 48 := by
  have h := length_shaBlocks ((shaPad bs).length / 128) (shaPad bs) (h := shaInit) rfl
  rw [sha384]
  rw [List.length_flatMap]
  simp [h]
theorem length_drawBytes (n : Nat) (s : State) : (drawBytes n s).1.length = n := by simp [drawBytes]

/-- The last 164 bytes of a quote: the certificate digest, the issuer and the state of the device. -/
def quoteTail (s : State) (issuer : List Byte) : List Byte :=
  certBytes s ++ (issuer ++ [BitVec.ofNat 8 s.dbg.level, if s.cellar.life then 1 else 0])
theorem quote_eq (s : State) (nonce issuer sg : List Byte) : quote s nonce issuer ++ sg =
    bytesOfNat sysId 4 ++ (bytesOfNat s.cellar.serial.toNat 4 ++ (bytesOfNat s.cellar.keeperVer.toNat 4 ++
      (((List.range 6).flatMap fun k => bytesOfNat (verWord s k) 4) ++ (bytesOfNat (nowNs s) 8 ++ (nonce ++
        (((List.range 16).flatMap fun i => bytesOfNat (mrOf s i).toNat 48) ++ (quoteTail s issuer ++ sg))))))) := by
  simp only [quote, quoteTail, List.append_assoc]
theorem length_pieces {f : Nat → List Byte} {n : Nat} (hn : ∀ j, (f j).length = n) (m : Nat) : ((List.range m).flatMap f).length = n * m := by
  simp [List.length_flatMap, hn, Nat.mul_comm]
theorem length_quote (s : State) {nonce issuer : List Byte} (hn : nonce.length = 48) (hi : issuer.length = 114) (sg : List Byte) :
    (quote s nonce issuer ++ sg).length = 1024 + sg.length := by
  rw [quote_eq]
  simp only [List.length_append, length_bytesOfNat, length_pieces fun _ => length_bytesOfNat _ _, hn, hi, quoteTail, certBytes, length_sha384,
    List.length_cons, List.length_nil]
  omega
/-- Where the parts of a quote lie. -/
theorem quote_parts (s : State) {nonce : List Byte} (hn : nonce.length = 48) (issuer sg : List Byte) :
    Part (quote s nonce issuer ++ sg) 0 (bytesOfNat sysId 4) ∧ Part (quote s nonce issuer ++ sg) 4 (bytesOfNat s.cellar.serial.toNat 4) ∧
    Part (quote s nonce issuer ++ sg) 8 (bytesOfNat s.cellar.keeperVer.toNat 4) ∧ Part (quote s nonce issuer ++ sg) 36 (bytesOfNat (nowNs s) 8) ∧
    Part (quote s nonce issuer ++ sg) 44 nonce ∧ ∀ i, i < 16 → Part (quote s nonce issuer ++ sg) (92 + 48 * i) (bytesOfNat (mrOf s i).toNat 48) := by
  have hver : ((List.range 6).flatMap fun k => bytesOfNat (verWord s k) 4).length = 24 := length_pieces (fun _ => length_bytesOfNat _ _) 6
  have h4 (x : Nat) : (bytesOfNat x 4).length = 4 := length_bytesOfNat x 4
  have h8 (x : Nat) : (bytesOfNat x 8).length = 8 := length_bytesOfNat x 8
  rw [quote_eq]
  refine ⟨.here .., .skip _ (.here ..) (by rw [h4]), .skip _ (.skip _ (.here ..) rfl) (by simp only [h4]), ?_, ?_, fun i hi => ?_⟩
  · exact .skip _ (.skip _ (.skip _ (.skip _ (.here ..) rfl) rfl) rfl) (by simp only [h4, hver])
  · exact .skip _ (.skip _ (.skip _ (.skip _ (.skip _ (.here ..) rfl) rfl) rfl) rfl) (by simp only [h4, h8, hver])
  · refine .within (.skip _ (.skip _ (.skip _ (.skip _ (.skip _ (.skip _ (.here ..) rfl) rfl) rfl) rfl) rfl) rfl)
      (.flatMap (n := 48) (fun _ => length_bytesOfNat _ _) hi rfl) ?_
    simp only [h4, h8, hver, hn]

/-! ### The Page Ownership Table (R464, R468) -/

/-- A page of memory of the own slot whose code the table gives: it lies in no part that is the keeper's by itself. -/
structure Tabled (s : State) (x : Nat) : Prop where
  memory : isMemory x = true
  own : x / 2 ^ 44 = slotOf s
  outside : ¬(reg64 s 0x8000020 / 4096 ≤ x / 4096 ∧ x / 4096 ≤ reg64 s 0x8000028 / 4096)
  listed : x % 2 ^ 44 / 4096 < (reg s 0x8000018).toNat * 65536
  free : inReserve s x = false

/-- The code that the byte of a page's table entry gives. -/
def nibbleOf (n : Nat) (b : Byte) : Nat := if n % 2 = 0 then b.toNat % 16 else b.toNat / 16

theorem place_of_memory {x : Nat} (h : isMemory x = true) : ∃ p, placeOf x = some p ∧ (p.region = .hbm ∨ p.region = .ddr) ∧ p.slot = x / 2 ^ 44 ∧
    x < 4 * 2 ^ 44 := by
  have hlt := ((isMemory_iff x).mp h).1
  rw [isMemory] at h
  split at h
  next p hp =>
    refine ⟨p, hp, by simpa using h, ?_, hlt⟩
    rw [placeOf, if_pos hlt] at hp
    split at hp
    · cases hp; rfl
    · split at hp
      · cases hp; rfl
      · cases hp
  next => cases h
theorem sub_slot {x d : Nat} (h : x / 2 ^ 44 = d) : x - d * 2 ^ 44 = x % 2 ^ 44 := by omega
/-- Where memory is of the own slot, the code is the keeper's or the table's. -/
theorem ownerCode_own {x : Nat} (hm : isMemory x = true) (hs : x / 2 ^ 44 = slotOf s) : ownerCode s x =
    if reg64 s 0x8000020 / 4096 ≤ x / 4096 ∧ x / 4096 ≤ reg64 s 0x8000028 / 4096 then 1
    else if (reg s 0x8000018).toNat * 65536 ≤ x % 2 ^ 44 / 4096 then 1
    else if inReserve s x then 1
    else nibbleOf (x % 2 ^ 44 / 4096) (readByte s (potBase s + x % 2 ^ 44 / 4096 / 2)) := by
  obtain ⟨p, hp, hr, hslot, -⟩ := place_of_memory hm
  rw [ownerCode, hp]
  dsimp only
  rw [if_pos ⟨hr, hslot.trans hs⟩, hslot, sub_slot rfl]
  rfl
theorem ownerCode_other {x : Nat} (h : ¬(isMemory x = true ∧ x / 2 ^ 44 = slotOf s)) : ownerCode s x = 0 := by
  rw [ownerCode]
  split
  next p hp =>
    rw [if_neg]
    rintro ⟨hr, hslot⟩
    have hm : isMemory x = true := by
      rw [isMemory_of_place hp]
      exact decide_eq_true hr
    obtain ⟨q, hq, -, hqs, -⟩ := place_of_memory hm
    cases hp.symm.trans hq
    exact h ⟨hm, hqs.symm.trans hslot⟩
  next => rfl
theorem Tabled.code {x : Nat} (h : Tabled s x) : ownerCode s x = nibbleOf (x % 2 ^ 44 / 4096) (readByte s (potBase s + x % 2 ^ 44 / 4096 / 2)) := by
  obtain ⟨hm, hs, ho, hl, hf⟩ := h
  rw [ownerCode_own hm hs, if_neg ho, if_neg (by omega), hf, if_neg Bool.false_ne_true]
/-- A page of a code other than the keeper's is one that the table lists. -/
theorem tabled_of_code {x : Nat} (hm : isMemory x = true) (hs : x / 2 ^ 44 = slotOf s) (h : ownerCode s x ≠ 1) : Tabled s x := by
  rw [ownerCode_own hm hs] at h
  split at h
  · exact absurd rfl h
  next ho =>
    split at h
    · exact absurd rfl h
    next hl =>
      split at h
      · exact absurd rfl h
      next hf => exact ⟨hm, hs, ho, by omega, by simpa using hf⟩

end Sys2Proof.Machine
end

section
/-! Page ownership by the keeper's services (19 R464, R468, R469): the codes that a change of pages leaves. -/

namespace Sys2Proof.Machine
variable {s t : State}

/-- Byte `q / 2` of the table once `n` pages from `p` on have the code `code`. -/
def codedByte (p n code q : Nat) (b : Byte) : Byte :=
  let b1 := if p ≤ q ∧ q < p + n then putNibble q code b.toNat else b.toNat
  BitVec.ofNat 8 (if p ≤ q + 1 ∧ q + 1 < p + n then putNibble (q + 1) code b1 else b1)
theorem putNibble_spec {q code b : Nat} (hc : code < 16) (hb : b < 256) : putNibble q code b < 256 ∧
    putNibble q code b % 16 = (if q % 2 = 0 then code else b % 16) ∧ putNibble q code b / 16 = if q % 2 = 0 then b / 16 else code := by
  unfold putNibble
  split
  · exact ⟨by omega, by omega, by omega⟩
  · exact ⟨by omega, by omega, by omega⟩
theorem nibbleOf_codedByte {p n code m : Nat} (b : Byte) (hc : code < 16) : nibbleOf m (codedByte p n code (2 * (m / 2)) b) =
    if p ≤ m ∧ m < p + n then code else nibbleOf m b := by
  generalize hb1 : (if p ≤ 2 * (m / 2) ∧ 2 * (m / 2) < p + n then putNibble (2 * (m / 2)) code b.toNat else b.toNat) = b1
  obtain ⟨hlt1, hlow1, hhigh1⟩ := putNibble_spec (q := 2 * (m / 2)) hc b.isLt
  have hlt : b1 < 256 := by
    rw [← hb1]
    split
    · exact hlt1
    · exact b.isLt
  obtain ⟨hlt2, hlow2, hhigh2⟩ := putNibble_spec (q := 2 * (m / 2) + 1) hc hlt
  have hbyte : (codedByte p n code (2 * (m / 2)) b).toNat =
      if p ≤ 2 * (m / 2) + 1 ∧ 2 * (m / 2) + 1 < p + n then putNibble (2 * (m / 2) + 1) code b1 else b1 := by
    rw [codedByte, hb1, BitVec.toNat_ofNat, Nat.mod_eq_of_lt]
    split
    · exact hlt2
    · exact hlt
  rw [if_pos (by omega)] at hlow1 hhigh1
  rw [if_neg (by omega)] at hlow2 hhigh2
  unfold nibbleOf
  rw [hbyte]
  rcases Nat.mod_two_eq_zero_or_one m with hm | hm
  · have heven : 2 * (m / 2) = m := by omega
    rw [heven] at hb1 hlow1 hlow2 ⊢
    rw [if_pos hm, if_pos hm, apply_ite (· % 16), hlow2, ite_self, ← hb1, apply_ite (· % 16), hlow1]
  · have hodd : 2 * (m / 2) + 1 = m := by omega
    rw [hodd] at hhigh2 ⊢
    rw [if_neg (show ¬m % 2 = 0 by omega), if_neg (show ¬m % 2 = 0 by omega), apply_ite (· / 16), hhigh2, ← hb1, apply_ite (· / 16), hhigh1, ite_self]

/-- The bytes of the table that a change of `n` pages from `pa` on writes, and their place. -/
def tableAt (pa : Nat) (s : State) : Nat := potBase s + pa % 2 ^ 44 / 8192
def tableLen (pa n : Nat) : Nat := (pa % 2 ^ 44 / 4096 + n + 1) / 2 - pa % 2 ^ 44 / 4096 / 2
def tableBytes (pa n code : Nat) (s : State) : List Byte :=
  (readBytes s (tableAt pa s) (tableLen pa n)).zipIdx.map fun x => codedByte (pa % 2 ^ 44 / 4096) n code (2 * (pa % 2 ^ 44 / 8192 + x.2)) x.1
theorem length_tableBytes (pa n code : Nat) (s : State) : (tableBytes pa n code s).length = tableLen pa n := by simp [tableBytes]
theorem getD_tableBytes {pa n code j : Nat} (hj : j < tableLen pa n) : (tableBytes pa n code s).getD j 0 =
    codedByte (pa % 2 ^ 44 / 4096) n code (2 * (pa % 2 ^ 44 / 8192 + j)) (readByte s (tableAt pa s + j)) := by
  have hlen : j < (tableBytes pa n code s).length := by rwa [length_tableBytes]
  rw [List.getD_eq_getElem _ _ hlen, ← getD_readBytes s (tableAt pa s) _ j hj, List.getD_eq_getElem _ _ (by rwa [length_readBytes])]
  simp [tableBytes]

/-- What the codes of pages depend on beside the table: the same in both states. -/
structure SameTable (s t : State) : Prop where
  regs : ∀ o, o ≠ 0x8000040 → o ≠ 0x8000044 → reg t o = reg s o
  slot : slotOf t = slotOf s
  ddrGib : t.mem.ddrGib = s.mem.ddrGib
  reserve : t.mem.reserveTotal = s.mem.reserveTotal
namespace SameTable
variable (h : SameTable s t)
include h
theorem reg64_eq (o : Nat) (h1 : o ≠ 0x8000040) (h2 : o ≠ 0x8000044) (h3 : o + 4 ≠ 0x8000040) (h4 : o + 4 ≠ 0x8000044) : reg64 t o = reg64 s o := by
  rw [reg64, reg64, h.regs o h1 h2, h.regs (o + 4) h3 h4]
theorem potBase_eq : potBase t = potBase s := h.reg64_eq _ (by decide) (by decide) (by decide) (by decide)
theorem inReserve_eq (x : Nat) : inReserve t x = inReserve s x := by rw [inReserve, inReserve, h.slot, h.ddrGib, h.reserve]
theorem tabled_iff (x : Nat) : Tabled t x ↔ Tabled s x := by
  constructor
  · rintro ⟨hm, hs, ho, hl, hf⟩
    rw [h.slot] at hs
    rw [h.reg64_eq _ (by decide) (by decide) (by decide) (by decide), h.reg64_eq _ (by decide) (by decide) (by decide) (by decide)] at ho
    rw [h.regs _ (by decide) (by decide)] at hl
    rw [h.inReserve_eq] at hf
    exact ⟨hm, hs, ho, hl, hf⟩
  · rintro ⟨hm, hs, ho, hl, hf⟩
    refine ⟨hm, hs.trans h.slot.symm, ?_, ?_, (h.inReserve_eq x).trans hf⟩
    · rwa [h.reg64_eq _ (by decide) (by decide) (by decide) (by decide), h.reg64_eq _ (by decide) (by decide) (by decide) (by decide)]
    · rwa [h.regs _ (by decide) (by decide)]
/-- Pages that no table lists have the code they had; of the others the table decides. -/
theorem ownerCode_eq (x : Nat) : (¬Tabled s x → ownerCode t x = ownerCode s x) ∧
    (Tabled s x → ownerCode t x = nibbleOf (x % 2 ^ 44 / 4096) (readByte t (potBase s + x % 2 ^ 44 / 4096 / 2))) := by
  refine ⟨fun hn => ?_, fun ht => ?_⟩
  · by_cases hown : isMemory x = true ∧ x / 2 ^ 44 = slotOf s
    · have hs : ownerCode s x = 1 := by
        by_contra hne
        exact hn (tabled_of_code hown.1 hown.2 hne)
      have ht : ownerCode t x = 1 := by
        by_contra hne
        exact hn ((h.tabled_iff x).mp (tabled_of_code hown.1 (hown.2.trans h.slot.symm) hne))
      rw [hs, ht]
    · rw [ownerCode_other hown, ownerCode_other (by rwa [h.slot])]
  · rw [((h.tabled_iff x).mpr ht).code, h.potBase_eq]
end SameTable

/-- The table's own bytes lie in pages that the table does not list. -/
theorem table_outside (hp : potInside s = true) {x y : Nat} (hx : Tabled s x) (hy : Tabled s y) : potBase s + x % 2 ^ 44 / 4096 / 2 ≠ y := by
  have hin : reg64 s 0x8000020 ≤ potBase s ∧ potBase s + (reg s 0x8000018).toNat * 32768 ≤ reg64 s 0x8000028 + 1 := of_decide_eq_true hp
  have hl := hx.listed
  have ho := hy.outside
  intro hxy
  rw [← hxy] at ho
  omega

/-- What a change of codes leaves (R468). -/
theorem setCodes_spec {pa n code : Nat} (hs : pa / 2 ^ 44 = slotOf s) (hclear : Clear s (tableAt pa s) (tableLen pa n)) :
    SameTable s (setCodes pa n code s) ∧ (setCodes pa n code s).mem.bytes = putBytes (tableBytes pa n code s) (tableAt pa s) s.mem.bytes := by
  have hp : (pa - slotOf s * 2 ^ 44) / 4096 = pa % 2 ^ 44 / 4096 := by rw [sub_slot hs]
  have hlo : pa % 2 ^ 44 / 4096 / 2 = pa % 2 ^ 44 / 8192 := by omega
  obtain ⟨hacc, hbytes⟩ := keeperWrite_clear (s := s) (pa := tableAt pa s) (bs := tableBytes pa n code s) (by rwa [length_tableBytes])
  have hset : setCodes pa n code s = (fun z : State => { z with cellar := { z.cellar with potStarted := true } })
      (setReg 0x8000044 (BitVec.ofNat 32 (pa / 2 ^ 32)) (setReg 0x8000040 (BitVec.ofNat 32 pa)
        (purgeRange pa (pa + 4096 * n) (keeperWrite (tableAt pa s) (tableBytes pa n code s) s)))) := by
    rw [setCodes]
    simp only [hp, hlo, tableAt, tableBytes, tableLen]
    rfl
  rw [hset]
  refine ⟨?_, hbytes⟩
  generalize keeperWrite (tableAt pa s) (tableBytes pa n code s) s = z at hacc
  obtain ⟨b, p, pr, sl, c, f, rfl, -, -⟩ := hacc
  refine ⟨fun o h1 h2 => ?_, rfl, rfl, rfl⟩
  exact (smGet_smPut_other _ _ _ h2).trans (smGet_smPut_other _ _ _ h1)

/-- The pages changed have the new code, every other page the code it had. -/
theorem ownerCode_setCodes {pa n code : Nat} (hc : code < 16) (halign : pa % 4096 = 0) (hs : pa / 2 ^ 44 = slotOf s)
    (hclear : Clear s (tableAt pa s) (tableLen pa n)) (htab : ∀ x, pa ≤ x → x < pa + 4096 * n → Tabled s x) (x : Nat) :
    ownerCode (setCodes pa n code s) x = if pa ≤ x ∧ x < pa + 4096 * n then code else ownerCode s x := by
  obtain ⟨hsame, hbytes⟩ := setCodes_spec (code := code) hs hclear
  obtain ⟨hout, hin⟩ := hsame.ownerCode_eq x
  by_cases ht : Tabled s x
  · have hxs := ht.own
    rw [hin ht, ht.code, readByte_of_putBytes hbytes, length_tableBytes]
    have hrange : (pa ≤ x ∧ x < pa + 4096 * n) ↔ (pa % 2 ^ 44 / 4096 ≤ x % 2 ^ 44 / 4096 ∧ x % 2 ^ 44 / 4096 < pa % 2 ^ 44 / 4096 + n) := by omega
    rw [if_congr hrange rfl rfl]
    by_cases hbyte : tableAt pa s ≤ potBase s + x % 2 ^ 44 / 4096 / 2 ∧
        potBase s + x % 2 ^ 44 / 4096 / 2 < tableAt pa s + tableLen pa n
    · have hj : potBase s + x % 2 ^ 44 / 4096 / 2 - tableAt pa s < tableLen pa n := by omega
      have hat : pa % 2 ^ 44 / 8192 + (potBase s + x % 2 ^ 44 / 4096 / 2 - tableAt pa s) = x % 2 ^ 44 / 4096 / 2 := by
        unfold tableAt at hbyte ⊢
        omega
      rw [if_pos hbyte, getD_tableBytes hj, hat, nibbleOf_codedByte _ hc, Nat.add_sub_cancel' hbyte.1]
    · rw [if_neg hbyte, if_neg]
      unfold tableAt tableLen at hbyte
      omega
  · rw [hout ht, if_neg fun h => ht (htab x h.1 h.2)]

theorem accessed_zeroBytes (pa n : Nat) (s : State) : Accessed s (zeroBytes pa n s) := by
  refine ⟨_, _, _, _, _, _, rfl, fun _ => rfl, fun l hl => ?_⟩
  rw [smGet_filter_in boolDef s.mem.poison (fun k => decide (64 * k + 64 ≤ pa ∨ pa + n ≤ 64 * k))] at hl
  split at hl
  · exact hl
  · cases hl
/-- Pages zeroed and then changed (R469). -/
theorem ownerCode_zeroed {pa n : Nat} (hp : potInside s = true) (htab : ∀ x, pa ≤ x → x < pa + 4096 * n → Tabled s x) (x : Nat) :
    ownerCode (zeroBytes pa (4096 * n) s) x = ownerCode s x := by
  have hsame : SameTable s (zeroBytes pa (4096 * n) s) := ⟨fun _ _ _ => rfl, rfl, rfl, rfl⟩
  obtain ⟨hout, hin⟩ := hsame.ownerCode_eq x
  by_cases ht : Tabled s x
  · rw [hin ht, ht.code, readByte_zeroBytes, if_neg]
    rintro ⟨h1, h2⟩
    exact table_outside hp ht (htab _ h1 h2) rfl
  · exact hout ht

/-- The pages a ring service takes are all listed by the table. -/
theorem tabled_of_pages {pa n old : Nat} (hold : old ≠ 1) (halign : pa % 4096 = 0) (hs : pa / 2 ^ 44 = slotOf s) (hn : n ≤ 2 ^ 20)
    (hpages : pagesCoded s pa (4096 * n) old = true) (x : Nat) (h1 : pa ≤ x) (h2 : x < pa + 4096 * n) : Tabled s x := by
  have hall (i : Nat) (hi : i < n) : isMemory ((pa / 4096 + i) * 4096) = true ∧ ownerCode s ((pa / 4096 + i) * 4096) = old := by
    have h := List.all_eq_true.mp hpages i (List.mem_range.mpr (by omega))
    simp only [Bool.and_eq_true, beq_iff_eq] at h
    exact ⟨h.1.1, h.2⟩
  have hfirst := (isMemory_iff _).mp (hall 0 (by omega)).1
  obtain ⟨hm, hcode⟩ := hall (x / 4096 - pa / 4096) (by omega)
  rw [show (pa / 4096 + (x / 4096 - pa / 4096)) * 4096 = x / 4096 * 4096 by omega] at hm hcode
  obtain ⟨-, hown, houtside, hlisted, hfree⟩ := tabled_of_code hm (by omega) (hcode ▸ hold)
  rw [isMemory_iff] at hm
  refine ⟨(isMemory_iff x).mpr (by omega), by omega, by omega, by omega, ?_⟩
  unfold inReserve ddrBase at hfree ⊢
  simp only [decide_eq_false_iff_not] at hfree ⊢
  omega

/-! ### Slots that a synchronisation removes (R468) -/

theorem smGet_purged {α : Type} (m : SMap (List α)) (keep : α → Bool) (j : Nat) (x : α)
    (h : x ∈ smGet (fun _ => []) ((m.map fun e => (e.1, e.2.filter keep)).filter fun e => decide (e.2 ≠ [])) j) : keep x = true := by
  induction m with
  | nil => cases h
  | cons e m ih =>
    rw [List.map_cons, List.filter_cons] at h
    split at h
    · rw [smGet] at h
      split at h
      · exact (List.mem_filter.mp h).2
      · exact ih h
    · exact ih h
theorem coreOf_purgeRange (lo hi n : Nat) (s : State) : coreOf (purgeRange lo hi s) n = { coreOf s n with tlbs := purgeTlbs lo hi (coreOf s n).tlbs } :=
  smGet_map_of_default coreDef (fun c => { c with tlbs := purgeTlbs lo hi c.tlbs }) (fun _ => rfl) s.cores n
/-- No slot that is left meets the range. -/
theorem purgeRange_spec (lo hi : Nat) (s : State) :
    (∀ c, (coreOf (purgeRange lo hi s) c).regs = (coreOf s c).regs ∧ ∀ x, x ∈ (coreOf (purgeRange lo hi s) c).tlbs.dtlb ∨
      x ∈ (coreOf (purgeRange lo hi s) c).tlbs.itlb ∨ x ∈ (coreOf (purgeRange lo hi s) c).tlbs.l2tlb.map (·.2) → meets lo hi x.pa x.size = false) ∧
    ∀ j x, x ∈ ioslots (purgeRange lo hi s) j → meets lo hi x.pa x.size = false := by
  refine ⟨fun c => ?_, fun j x hx => ?_⟩
  · rw [coreOf_purgeRange]
    refine ⟨rfl, fun x hx => ?_⟩
    simp only [purgeTlbs, List.mem_filter, List.mem_map, Bool.not_eq_true'] at hx
    obtain ⟨-, h⟩ | ⟨-, h⟩ | ⟨e, ⟨-, h⟩, rfl⟩ := hx
    · exact h
    · exact h
    · exact h
  · have h := smGet_purged s.pcie.iotlb (fun x => !meets lo hi x.pa x.size) j x hx
    simpa using h

end Sys2Proof.Machine
end

section
/-! The keeper's services (19 R463 to R472; 14 R353, R354) and its commands: what each answers and leaves. -/

namespace Sys2Proof.Machine
-- One declaration after another: each `decide +kernel` waits for the kernel's turn, and many at once would hold a thread each.
set_option Elab.async false
variable {s t : State} {lc : LC}

/-! ### Versions and measurement (R471, R472) -/

theorem answers_version (hc : Called lc 0 s) : Serves (.keeperVersion lc) lc s 0 (some s.cellar.keeperVer.toNat) fun u => u = s := by
  have hfn : calledFn lc s = 0 := by
    obtain ⟨-, -, -, -, hfnr⟩ := hc
    have hg1 : (smGet word0 (coreOf s lc.val).regs.g 1).toNat = 0 := hfnr
    rw [calledFn, hg1]
  have hexec : exec (.keeperVersion lc) s = .next (service 0 lc (fun _ s => (stOk, some s.cellar.keeperVer.toNat, s)) s) := by
    show execKeeperVersion lc s = _
    rw [execKeeperVersion, hfn]
    rfl
  exact serves_of (r := some _) (u := s) hc (by decide) hexec rfl rfl rfl

theorem quotes (hc : Called lc 1 s) : let a := argOf lc s
    (1 < a 4 → Serves (.attestQuote lc) lc s 3 none fun u => u = s) ∧
      ∀ sig, a 4 < 2 → sig = (if a 4 = 0 then 4627 else 96) → pagesCoded s (a 2) 48 0 = true → pagesCoded s (a 3) (1024 + sig) 0 = true →
        Clear s (a 2) 48 → Clear s (a 3) (1024 + sig) → (a 2 + 48 ≤ a 3 ∨ a 3 + 1024 + sig ≤ a 2) → Serves (.attestQuote lc) lc s 0 none fun u =>
          SameBytesBut (a 3) (1024 + sig) s u ∧ HoldsBytes u (a 3) 4 (sysId) ∧ HoldsBytes u (a 3 + 4) 4 s.cellar.serial.toNat ∧
          HoldsBytes u (a 3 + 8) 4 s.cellar.keeperVer.toNat ∧ HoldsBytes u (a 3 + 36) 8 (nowNs s) ∧
          (∀ k, k < 48 → readByte u (a 3 + 44 + k) = readByte s (a 2 + k)) ∧
          (∀ i, i < 16 → HoldsBytes u (a 3 + 92 + 48 * i) 48 (mrOf s i).toNat) := by
  intro a
  have hexec : exec (.attestQuote lc) s = .next (service 1 lc attestQuote s) := rfl
  simp only [a, argOf_2, argOf_3, argOf_4]
  refine ⟨fun h => refuses_of hc (by decide) hexec ?_, fun sig h4 hsig hnonce hroom hclear2 hclear3 _ => ?_⟩
  · rw [attestQuote]
    exact if_pos (.inl h)
  obtain ⟨hbytes, -, hacc, hmem⟩ := keeperRead_clear hclear2
  generalize hn : keeperRead (regArg lc s 2) 48 s = n at *
  generalize hiss : drawBytes 114 n.2.2 = iss
  generalize hsg : drawBytes sig iss.2 = sg
  have hnlen : n.1.length = 48 := by rw [hbytes, length_readBytes]
  have hisslen : iss.1.length = 114 := by rw [← hiss, length_drawBytes]
  have hsglen : sg.1.length = sig := by rw [← hsg, length_drawBytes]
  have hlen := length_quote iss.2 hnlen hisslen sg.1
  rw [hsglen] at hlen
  have hfresh : ∃ f, sg.2 = { n.2.2 with fresh := f } := ⟨_, by rw [← hsg, ← hiss]; rfl⟩
  obtain ⟨f, hf⟩ := hfresh
  have hacc3 : Clear sg.2 (regArg lc s 3) (quote iss.2 n.1 iss.1 ++ sg.1).length := by
    rw [hlen, hf]
    exact hacc.clear hclear3
  obtain ⟨-, hput⟩ := keeperWrite_clear hacc3
  have hput' : (keeperWrite (regArg lc s 3) (quote iss.2 n.1 iss.1 ++ sg.1) sg.2).mem.bytes =
      putBytes (quote iss.2 n.1 iss.1 ++ sg.1) (regArg lc s 3) s.mem.bytes := by
    rw [hput, hf]
    exact congrArg _ hmem
  obtain ⟨hid, hserial, hver, hnow, hnc, hmrs⟩ := quote_parts iss.2 hnlen iss.1 sg.1
  have hiss2 : iss.2 = { n.2.2 with fresh := n.2.2.fresh + 114 } := by rw [← hiss]; rfl
  have hcellar : iss.2.cellar = s.cellar := by rw [hiss2]; exact hacc.cellar
  have htime : nowNs iss.2 = nowNs s := by
    rw [hiss2]
    obtain ⟨b, p, pr, sl, c, f, h, -, -⟩ := hacc
    rw [h]
    rfl
  have hmr (i : Nat) : mrOf iss.2 i = mrOf s i := by rw [mrOf, hcellar]; rfl
  rw [hcellar] at hserial hver
  rw [htime] at hnow
  refine serves_of (r := none) (u := keeperWrite (regArg lc s 3) (quote iss.2 n.1 iss.1 ++ sg.1) sg.2) hc (by decide) hexec ?_ rfl
    ⟨sameBytesBut_of_putBytes hput' hlen, hid.holds hput', hserial.holds hput', hver.holds hput', hnow.holds hput', fun k hk => ?_, fun i hi => ?_⟩
  · rw [attestQuote]
    simp only [← hsig, hnonce, hroom, Nat.not_lt.mpr (show regArg lc s 4 ≤ 1 by omega), Bool.not_true, Bool.false_eq_true, or_self, if_false, hn, hiss, hsg]
    rfl
  · rw [hnc.byte hput' (by rwa [hnlen]), hbytes, getD_readBytes s _ _ _ hk]
  · rw [Nat.add_assoc]
    exact ((hmr i) ▸ hmrs i hi).holds hput'

theorem measures (hc : Called lc 2 s) : let a := argOf lc s
    (a 2 < 8 ∨ 15 < a 2 → Serves (.measureExtend lc) lc s 3 none fun u => u = s) ∧
      (8 ≤ a 2 → a 2 < 16 → pagesCoded s (a 3) 48 0 = true → Clear s (a 3) 48 → Serves (.measureExtend lc) lc s 0 none fun u => SameBytes s u ∧
        ∀ i, mrOf u i = if i = a 2 then BitVec.ofNat 384 (natOfBytes (sha384 (bytesOfNat (mrOf s i).toNat 48 ++ readBytes s (a 3) 48))) else mrOf s i) := by
  intro a
  have hexec : exec (.measureExtend lc) s = .next (service 2 lc measureExtend s) := rfl
  simp only [a, argOf_2, argOf_3]
  refine ⟨fun h => refuses_of hc (by decide) hexec ?_, fun h8 h16 hpages hclear => ?_⟩
  · rw [measureExtend]
    exact if_pos (h.imp_right .inl)
  obtain ⟨hbytes, -, hacc, hmem⟩ := keeperRead_clear hclear
  refine serves_of (r := none) (u := extendMr (regArg lc s 2) (keeperRead (regArg lc s 3) 48 s).1 (keeperRead (regArg lc s 3) 48 s).2.2) hc (by decide)
    hexec ?_ rfl ⟨sameBytes_of_bytes hmem, fun i => ?_⟩
  · rw [measureExtend]
    refine if_neg ?_
    simp only [hpages, Bool.not_true, Bool.false_eq_true, or_false]
    omega
  · have hmr (k : Nat) : mrOf (keeperRead (regArg lc s 3) 48 s).2.2 k = mrOf s k := by rw [mrOf, hacc.cellar]; rfl
    rw [mrOf_extendMr, hbytes, hmr, hmr]
    split
    next h => rw [h]
    next => rfl

theorem certifies (hc : Called lc 3 s) : let a := argOf lc s
    let n := s.cellar.cert.length
    (a 3 < n → Serves (.attestCert lc) lc s 3 none fun u => u = s) ∧
      (n ≤ a 3 → pagesCoded s (a 2) (a 3) 0 = true → Clear s (a 2) n → Serves (.attestCert lc) lc s 0 (some n) fun u =>
        SameBytesBut (a 2) n s u ∧ ∀ k, k < n → readByte u (a 2 + k) = s.cellar.cert.getD k 0) := by
  intro a n
  have hexec : exec (.attestCert lc) s = .next (service 3 lc attestCert s) := rfl
  simp only [a, argOf_2, argOf_3]
  refine ⟨fun h => refuses_of hc (by decide) hexec ?_, fun h hpages hclear => ?_⟩
  · rw [attestCert]
    exact if_pos (.inl h)
  obtain ⟨-, hput⟩ := keeperWrite_clear (bs := s.cellar.cert) hclear
  refine serves_of (r := some n) (u := keeperWrite (regArg lc s 2) s.cellar.cert s) hc (by decide) hexec ?_ rfl
    ⟨sameBytesBut_of_putBytes hput rfl, fun k hk => ?_⟩
  · rw [attestCert]
    refine if_neg ?_
    simp only [hpages, Bool.not_true, Bool.false_eq_true, or_false]
    exact Nat.not_lt.mpr h
  · rw [readByte_of_putBytes hput, if_pos ⟨Nat.le_add_right .., Nat.add_lt_add_left hk _⟩, Nat.add_sub_cancel_left]

/-! ### Grants and regions of the sorting office (14 R353, R354) -/

theorem grants_set (hc : Called lc 0x300 s) : let a := argOf lc s
    (1024 ≤ a 2 ∨ 1 < a 3 → Serves (.soGrantSet lc) lc s 3 none fun u => u = s) ∧
      (a 2 < 1024 → a 3 = 1 → 65535 < a 4 ∨ 3 < a 5 ∨ a 7 = 0 ∨ ([262144, 65536, 4096, 4096] : List Nat).getD (a 5) 0 < a 6 + a 7 →
        Serves (.soGrantSet lc) lc s 3 none fun u => u = s) ∧
      (∀ e : GrantEntry, a 2 < 1024 → (a 3 = 0 ∧ e = {}) ∨ (a 3 = 1 ∧ a 4 ≤ 65535 ∧ a 5 ≤ 3 ∧ 1 ≤ a 7 ∧
          a 6 + a 7 ≤ ([262144, 65536, 4096, 4096] : List Nat).getD (a 5) 0 ∧
          e = { valid := true, queue := a 4, kind := a 5, base := a 6, count := a 7 }) → Serves (.soGrantSet lc) lc s 0 none fun u =>
        (∀ g, smGet grantDef u.office.grants g = if g = a 2 then e else smGet grantDef s.office.grants g) ∧
        { u with office := { u.office with grants := s.office.grants } } = s) := by
  intro a
  have hexec : exec (.soGrantSet lc) s = .next (service 0x300 lc (fun a s => plain (soGrantSet a s)) s) := rfl
  simp only [a, argOf_2, argOf_3, argOf_4, argOf_5, argOf_6, argOf_7]
  refine ⟨fun h => refuses_of hc (by decide) hexec ?_, fun h2 h3 h => refuses_of hc (by decide) hexec ?_, fun e h2 he => ?_⟩
  · rw [soGrantSet, if_pos h]
    rfl
  · rw [soGrantSet, if_neg (by omega), if_neg (by omega), if_pos h]
    rfl
  · refine serves_of (r := none) (u := { s with office := { s.office with grants := smPut grantDef s.office.grants (regArg lc s 2) e } }) hc (by decide)
      hexec ?_ rfl ⟨fun g => smGet_smPut .., rfl⟩
    obtain ⟨h3, rfl⟩ | ⟨h3, h4, h5, h7, hlim, rfl⟩ := he
    · rw [soGrantSet, if_neg (by omega), if_pos h3]
      rfl
    · rw [soGrantSet, if_neg (by omega), if_neg (by omega), if_neg (by omega)]
      rfl

theorem natBits_16 (x lo : Nat) : BitVec.ofNat 16 (natBits x (lo + 15) lo) = BitVec.ofNat 16 (x / 2 ^ lo) := by
  refine BitVec.eq_of_toNat_eq ?_
  rw [BitVec.toNat_ofNat, BitVec.toNat_ofNat, natBits, show lo + 15 - lo + 1 = 16 by omega, Nat.mod_mod]
theorem regions_set (hc : Called lc 0x301 s) : let a := argOf lc s
    let onlyRegion (u : State) (e : Region) : Prop := (∀ r, regionOf u r = if r = a 2 then e else regionOf s r) ∧
      { u with office := { u.office with regions := s.office.regions } } = s
    (4096 ≤ a 2 ∨ 1 < a 3 → Serves (.soRegionSet lc) lc s 3 none fun u => u = s) ∧
      (a 2 < 4096 → a 3 = 0 → Serves (.soRegionSet lc) lc s 0 none fun u => onlyRegion u { regionOf s (a 2) with valid := false }) ∧
      (a 2 < 4096 → a 3 = 1 → a 4 % 4096 = 0 → 1 ≤ a 5 → a 5 ≤ 2 ^ 30 → natBits (a 6) 15 4 = 0 → a 6 < 2 ^ 48 → a 7 < 2 ^ 32 →
        (pagesOf (a 4) (4096 * a 5)).all (apertureOk s) = true → Serves (.soRegionSet lc) lc s 0 none fun u => onlyRegion u {
          valid := true, base := a 4, pages := a 5, rights := BitVec.ofNat 3 (a 6), remote := (a 6).testBit 3,
          srcBase := BitVec.ofNat 16 (a 6 / 2 ^ 16), srcMask := BitVec.ofNat 16 (a 6 / 2 ^ 32), ctrBase := a 7 % 2 ^ 16, ctrCount := a 7 / 2 ^ 16 }) := by
  intro a onlyRegion
  have hexec : exec (.soRegionSet lc) s = .next (service 0x301 lc (fun a s => plain (soRegionSet a s)) s) := rfl
  have hput (e : Region) : onlyRegion { s with office := { s.office with regions := smPut regionDef s.office.regions (a 2) e } } e :=
    ⟨fun r => smGet_smPut .., rfl⟩
  simp only [a, argOf_2, argOf_3, argOf_4, argOf_5, argOf_6, argOf_7] at hput ⊢
  refine ⟨fun h => refuses_of hc (by decide) hexec ?_, fun h2 h3 => serves_of (r := none) hc (by decide) hexec ?_ rfl (hput _),
    fun h2 h3 h4 h5 h5' h6 h6' h7 hpages => serves_of (r := none) hc (by decide) hexec ?_ rfl (hput _)⟩
  · rw [soRegionSet, if_pos h]
    rfl
  · rw [soRegionSet, if_neg (by omega), if_pos h3]
    rfl
  · have hlo : natBits (regArg lc s 7) 15 0 = regArg lc s 7 % 2 ^ 16 := by simp only [natBits]; omega
    have hhi : natBits (regArg lc s 7) 31 16 = regArg lc s 7 / 2 ^ 16 := by simp only [natBits]; omega
    have hbase := natBits_16 (regArg lc s 6) 16
    have hmask := natBits_16 (regArg lc s 6) 32
    rw [soRegionSet, if_neg (by omega), if_neg (by omega), if_neg]
    · dsimp only at hbase hmask ⊢
      rw [hlo, hhi, hbase, hmask]
      rfl
    · simp only [hpages, Bool.not_true, Bool.false_eq_true, or_false, h4, h6]
      omega

theorem regions_query (hc : Called lc 0x302 s) : let a := argOf lc s
    (4096 ≤ a 2 → Serves (.soRegionQuery lc) lc s 3 none fun u => u = s) ∧
      (a 2 < 4096 → Serves (.soRegionQuery lc) lc s 0 (some ((regionOf s (a 2)).valid.toNat * 2 ^ 31 + inflight s (a 2) % 65536)) fun u => u = s) := by
  intro a
  have hexec : exec (.soRegionQuery lc) s = .next (service 0x302 lc (fun a s => ((soRegionQuery a s).1, some (soRegionQuery a s).2, s)) s) := rfl
  simp only [a, argOf_2]
  refine ⟨fun h => serves_of (r := some 0) (u := s) hc (by decide) hexec ?_ rfl rfl, fun h => serves_of (r := some _) (u := s) hc (by decide) hexec ?_ rfl rfl⟩
  · rw [soRegionQuery, if_pos h]
    rfl
  · rw [soRegionQuery, if_neg (Nat.not_le.mpr h)]
    rfl

/-! ### Rings (R464, R466, R468, R469) -/

theorem ringArgs_false {a : Nat → Nat} {old : Nat} (h : a 3 = 0 ∨ 2 ^ 20 < a 3 ∨ a 2 % 4096 ≠ 0 ∨ pagesCoded s (a 2) (4096 * a 3) old = false) :
    ringArgs a old s = false := by
  unfold ringArgs
  obtain h | h | h | h := h
  · rw [decide_eq_false (by omega), Bool.false_and]
  · rw [decide_eq_false (by omega), Bool.false_and]
  · rw [decide_eq_false (by omega), Bool.false_and]
  · rw [h, Bool.and_false]

/-- The pages taken or given back have their new code, and the bytes of the table alone have changed (R464). -/
theorem codes_change {pa n old code : Nat} (z : State) (hz : z = s ∨ z = zeroBytes pa (4096 * n) s) (hcode : code < 16) (hold : old ≠ 1)
    (hn : n ≤ 2 ^ 20) (halign : pa % 4096 = 0) (hslot : pa / 2 ^ 44 = slotOf s) (hpages : pagesCoded s pa (4096 * n) old = true)
    (hinside : potInside s = true) (hclear : Clear s (tableAt pa s) (tableLen pa n)) :
    (∀ x, ownerCode (setCodes pa n code z) x = if pa ≤ x ∧ x < pa + 4096 * n then code else ownerCode s x) ∧
    ∀ x, (x < tableAt pa s ∨ tableAt pa s + tableLen pa n ≤ x) → readByte (setCodes pa n code z) x = readByte z x := by
  have htab := tabled_of_pages hold halign hslot hn hpages
  have hzacc : Accessed s z ∧ (∀ x, ownerCode z x = ownerCode s x) ∧ SameTable s z := by
    obtain rfl | rfl := hz
    · exact ⟨.refl z, fun _ => rfl, fun _ _ _ => rfl, rfl, rfl, rfl⟩
    · exact ⟨accessed_zeroBytes .., ownerCode_zeroed hinside htab, fun _ _ _ => rfl, rfl, rfl, rfl⟩
  obtain ⟨hacc, hcodes, hsame⟩ := hzacc
  have hat : tableAt pa z = tableAt pa s := by rw [tableAt, hsame.potBase_eq]; rfl
  have hzclear : Clear z (tableAt pa z) (tableLen pa n) := by
    rw [hat]
    exact hacc.clear hclear
  have hzslot : pa / 2 ^ 44 = slotOf z := hslot.trans hsame.slot.symm
  refine ⟨fun x => ?_, fun x hx => ?_⟩
  · rw [ownerCode_setCodes hcode halign hzslot hzclear (fun x h1 h2 => (hsame.tabled_iff x).mpr (htab x h1 h2)), hcodes]
  · obtain ⟨-, hbytes⟩ := setCodes_spec (code := code) hzslot hzclear
    rw [← hat] at hx
    rw [readByte_of_putBytes hbytes, length_tableBytes, if_neg (by omega)]

theorem rings_change (i : Instr) (old new : Nat) (h : (Called lc 0x401 s ∧ i = .soRingReserve lc ∧ old = 0 ∧ new = 3) ∨
        (Called lc 0x402 s ∧ i = .soRingRelease lc ∧ old = 3 ∧ new = 0)) : let a := argOf lc s
      (a 3 = 0 ∨ 2 ^ 20 < a 3 ∨ a 2 % 4096 ≠ 0 ∨ pagesCoded s (a 2) (4096 * a 3) old = false → Serves i lc s 3 none fun u => u = s) ∧
      (1 ≤ a 3 → a 3 ≤ 2 ^ 20 → a 2 % 4096 = 0 → a 2 / 2 ^ 44 = slotOf s → pagesCoded s (a 2) (4096 * a 3) old = true → potInside s = true →
        let lo := potBase s + a 2 % 2 ^ 44 / 8192
        let n := a 2 % 2 ^ 44 / 4096
        let len := (n + a 3 + 1) / 2 - n / 2
        let rel := i = .soRingRelease lc
        Clear s lo len → (∀ k, k < len → ownerCode s (lo + k) = 1) →
          (rel → ringsUse s (a 2) (a 2 + 4096 * a 3) = true → Serves i lc s 7 none fun u => u = s) ∧
          (¬(rel ∧ ringsUse s (a 2) (a 2 + 4096 * a 3) = true) → Serves i lc s 0 none fun u =>
            (∀ x, ownerCode u x = if a 2 ≤ x ∧ x < a 2 + 4096 * a 3 then new else ownerCode s x) ∧
            ∀ x, (x < lo ∨ lo + len ≤ x) →
              readByte u x = if rel ∧ a 2 ≤ x ∧ x < a 2 + 4096 * a 3 then 0 else readByte s x)) := by
  intro a
  simp only [a, argOf_2, argOf_3]
  have hargs (h1 : 1 ≤ regArg lc s 3) (h2 : regArg lc s 3 ≤ 2 ^ 20) (h3 : regArg lc s 2 % 4096 = 0) (h4 : regArg lc s 2 / 2 ^ 44 = slotOf s)
      (h5 : pagesCoded s (regArg lc s 2) (4096 * regArg lc s 3) old = true) : ringArgs (regArg lc s) old s = true := by
    rw [ringArgs, h5, Bool.and_true]
    exact decide_eq_true ⟨h1, h2, h3, h4⟩
  obtain ⟨hc, rfl, rfl, rfl⟩ | ⟨hc, rfl, rfl, rfl⟩ := h
  · have hexec : exec (.soRingReserve lc) s = .next (service 0x401 lc ringReserve s) := rfl
    have hrel : ¬(Instr.soRingReserve lc = Instr.soRingRelease lc) := nofun
    refine ⟨fun h => refuses_of hc (by decide) hexec ?_, fun h1 h2 halign hslot hpages hinside hclear _ => ⟨fun h => absurd h hrel, fun _ => ?_⟩⟩
    · rw [ringReserve, ringArgs_false h]
      rfl
    · obtain ⟨hcodes, hbytes⟩ := codes_change (code := 3) s (.inl rfl) (by decide) (by decide) h2 halign hslot hpages hinside hclear
      refine serves_of (r := none) hc (by decide) hexec ?_ rfl ⟨hcodes, fun x hx => ?_⟩
      · rw [ringReserve, hargs h1 h2 halign hslot hpages]
        rfl
      · rw [hbytes x hx, if_neg fun h => hrel h.1]
  · have hexec : exec (.soRingRelease lc) s = .next (service 0x402 lc ringRelease s) := rfl
    refine ⟨fun h => refuses_of hc (by decide) hexec ?_, fun h1 h2 halign hslot hpages hinside hclear _ =>
      ⟨fun _ huse => refuses_of hc (by decide) hexec ?_, fun huse => ?_⟩⟩
    · rw [ringRelease, ringArgs_false h]
      rfl
    · rw [ringRelease, hargs h1 h2 halign hslot hpages, huse]
      rfl
    · obtain ⟨hcodes, hbytes⟩ := codes_change (code := 0) _ (.inr rfl) (by decide) (by decide) h2 halign hslot hpages hinside hclear
      refine serves_of (r := none) hc (by decide) hexec ?_ rfl ⟨hcodes, fun x hx => ?_⟩
      · rw [ringRelease, hargs h1 h2 halign hslot hpages]
        exact if_neg fun h => huse ⟨rfl, h⟩
      · rw [hbytes x hx, readByte_zeroBytes]
        simp only [true_and]

/-- A value written over a pair of registers. -/
def putPair (o v : Nat) (s : State) : State := setReg (o + 4) (BitVec.ofNat 32 (v / 2 ^ 32)) (setReg o (BitVec.ofNat 32 v) s)
theorem reg_putPair_other {o o' : Nat} (v : Nat) (h : o' ≠ o) (h' : o' ≠ o + 4) : reg (putPair o v s) o' = reg s o' := by
  rw [putPair, reg_setReg, if_neg h', reg_setReg, if_neg h]
theorem reg64_putPair (o v : Nat) (s : State) : reg64 (putPair o v s) o = v % 2 ^ 64 := by
  rw [reg64, putPair, reg_setReg, reg_setReg, reg_setReg, if_neg (by omega), if_pos rfl, if_pos rfl, BitVec.toNat_ofNat, BitVec.toNat_ofNat]
  omega
theorem reg64_putPair_other {o o' : Nat} (v : Nat) (h1 : o' ≠ o) (h2 : o' ≠ o + 4) (h3 : o' + 4 ≠ o) : reg64 (putPair o v s) o' = reg64 s o' := by
  rw [reg64, reg64, reg_putPair_other v h1 h2, reg_putPair_other v h3 (by omega)]
theorem shares_dlr (hc : Called lc 0x403 s) : (s.office.running = false → Serves (.soDlrShare lc) lc s 7 none fun u => u = s) ∧
      (s.office.running = true → Serves (.soDlrShare lc) lc s 0 none fun u => reg64 u 0x8000050 = dlrBase s % 2 ^ 64 ∧
        reg64 u 0x8000058 = (dlrBase s + 2 ^ dlrLog2 s * 128 - 1) % 2 ^ 64 ∧ (∀ o, o ≠ 0x8000050 → o ≠ 0x8000054 → o ≠ 0x8000058 → o ≠ 0x800005C →
          reg u o = reg s o) ∧ SameBytes s u) := by
  have hexec : exec (.soDlrShare lc) s = .next (service 0x403 lc (fun _ s => dlrShare s) s) := rfl
  refine ⟨fun h => refuses_of hc (by decide) hexec ?_, fun h => serves_of (r := none)
    (u := putPair 0x8000058 (dlrBase s + 2 ^ dlrLog2 s * 128 - 1) (putPair 0x8000050 (dlrBase s) s)) hc (by decide) hexec ?_ rfl
    ⟨?_, reg64_putPair .., fun o h1 h2 h3 h4 => ?_, fun _ => rfl⟩⟩
  · show dlrShare s = _
    rw [dlrShare, h]
    rfl
  · show dlrShare s = _
    rw [dlrShare, h]
    rfl
  · rw [reg64_putPair_other _ (by decide) (by decide) (by decide), reg64_putPair]
  · rw [reg_putPair_other _ h3 h4, reg_putPair_other _ h1 h2]

/-! ### Commands of the cellar (R468, R471) -/

theorem syncs {w : Writer} {v : Word32} (hr : Reaches w 2 0 0x8000048 s) (hv : v.toNat < 2 ^ 21) :
    let n := v.toNat % 2 ^ 21
    let lo := reg64 s 0x8000040 / 4096 * 4096
    (n = 0 ∨ 2 ^ 20 < n ∨ potInside s = false → Refuses (.celPotSync w v) s 3) ∧
      (1 ≤ n → n ≤ 2 ^ 20 → potInside s = true → s.cellar.sync.isSome = true → Refuses (.celPotSync w v) s 7) ∧
      (1 ≤ n → n ≤ 2 ^ 20 → potInside s = true → s.cellar.sync = none → Commands (.celPotSync w v) w 0x8000048 v s fun u =>
        u.cellar = { s.cellar with potStarted := true, sync := some { base := lo, pages := n } } ∧ SameBytes s u ∧
        (∀ c, (coreOf u c).regs = (coreOf s c).regs ∧ (∀ x, x ∈ (coreOf u c).tlbs.dtlb ∨ x ∈ (coreOf u c).tlbs.itlb ∨ x ∈ (coreOf u c).tlbs.l2tlb.map (·.2) →
          meets lo (lo + 4096 * n) x.pa x.size = false)) ∧
        ∀ j x, x ∈ ioslots u j → meets lo (lo + 4096 * n) x.pa x.size = false) := by
  intro n lo
  have ho : Orders (.celPotSync w v) w { name := .celPotSync, off := 0x8000048, acc := .wo, bits := 0x1fffff, keeper := true, keeperRead := true } []
      0x8000048 v s := ⟨by decide +kernel, rfl, rfl, rfl, by decide, hr⟩
  have hn : fld v 20 0 = n := by
    rw [fld, natBits, Nat.pow_zero, Nat.div_one]
  have hzero : (fld v 31 21 != 0) = false := by
    rw [fld, natBits, Nat.div_eq_of_lt hv]
    rfl
  have hcmd : command mcmd w { name := .celPotSync, off := 0x8000048, acc := .wo, bits := 0x1fffff, keeper := true, keeperRead := true } [] 0x8000048 v s =
      celPotSync v s := rfl
  refine ⟨fun h => ho.refuses (a := s) (st := 3) ?_ rfl (by decide), fun h1 h2 h3 h4 => ho.refuses (a := s) (st := 7) ?_ rfl (by decide), fun h1 h2 h3 h4 => ?_⟩
  · rw [hcmd, celPotSync, hzero, hn]
    have hrange : (n == 0 || decide (2 ^ 20 < n) || !potInside s) = true := by
      simpa [or_assoc] using h
    simp only [hrange, codeIf, firstCode]
    cases s.cellar.sync <;> rfl
  · rw [hcmd, celPotSync, hzero, hn]
    have hrange : (n == 0 || decide (2 ^ 20 < n) || !potInside s) = false := by
      simp only [h3, Bool.not_true, Bool.or_false, Bool.or_eq_false_iff, beq_eq_false_iff_ne, decide_eq_false_iff_not]
      omega
    rw [hrange, h4]
    rfl
  · obtain ⟨hcores, hio⟩ := purgeRange_spec lo (lo + 4096 * n) s
    refine ho.commands (u := { purgeRange lo (lo + 4096 * n) s with
      cellar := { s.cellar with potStarted := true, sync := some { base := lo, pages := n } } }) ?_ ⟨rfl, fun _ => rfl, hcores, hio⟩
    rw [hcmd, celPotSync, hzero, hn]
    have hrange : (n == 0 || decide (2 ^ 20 < n) || !potInside s) = false := by
      simp only [h3, Bool.not_true, Bool.or_false, Bool.or_eq_false_iff, beq_eq_false_iff_ne, decide_eq_false_iff_not]
      omega
    rw [hrange, h4]
    rfl

theorem extends_mr {w : Writer} {v : Word32} (hr : Reaches w 2 0 0x8000430 s) (hv : v.toNat < 16) : Commands (.mrExtend w v) w 0x8000430 v s fun u =>
      (∀ i, mrOf u i = if i = v.toNat then BitVec.ofNat 384 (natOfBytes (sha384 (bytesOfNat (mrOf s i).toNat 48 ++
        (List.range 12).flatMap fun k => bytesOfNat (reg s (0x8000400 + 4 * k)).toNat 4))) else mrOf s i) ∧
      { u with cellar := { u.cellar with mrs := s.cellar.mrs } } = s := by
  have ho : Orders (.mrExtend w v) w { name := .celMrCmd, off := 0x8000430, acc := .wo, bits := 0xf, keeper := true, keeperRead := true } []
      0x8000430 v s := ⟨by decide +kernel, rfl, rfl, rfl, by decide, hr⟩
  have hn : fld v 3 0 = v.toNat := by
    rw [fld, natBits, Nat.pow_zero, Nat.div_one]
    exact Nat.mod_eq_of_lt hv
  have hzero : fld v 31 4 = 0 := by
    simp only [fld, natBits]
    omega
  refine ho.commands (u := extendMr v.toNat ((List.range 12).flatMap fun k => bytesOfNat (reg s (0x8000400 + 4 * k)).toNat 4) s) ?_
    ⟨fun i => ?_, rfl⟩
  · show celMrCmd v s = _
    rw [celMrCmd, hzero, hn]
    rfl
  · rw [mrOf_extendMr]
    split
    next h => rw [h]
    next => rfl

/-- Settles O51: each service by its own equation on clear memory, the rings by the codes that a change of pages leaves. -/
theorem keeperServicesAnswer : Obligations.KeeperServicesAnswer := by
  unfold Obligations.KeeperServicesAnswer
  refine ⟨fun s lc => ⟨answers_version, quotes, measures, certifies, grants_set, regions_set, regions_query, rings_change, shares_dlr⟩,
    fun s w v => ⟨⟨_, rfl, rfl⟩, syncs, extends_mr⟩⟩

end Sys2Proof.Machine
end

section
/-! Queue commands and the dead-letter ring (13 R340 to R344): the code that refuses a command, the queue each makes, and a flush letter by letter. -/

namespace Sys2Proof.Machine
variable {s t : State}

/-! ### What an agent's write leaves of the office -/

/-- The sorting office and the register words are the same. -/
def SameOffice (s t : State) : Prop := t.office = s.office ∧ t.ctl.regs = s.ctl.regs
namespace SameOffice
theorem refl (s : State) : SameOffice s s := ⟨rfl, rfl⟩
theorem trans {u : State} (h : SameOffice s t) (h' : SameOffice t u) : SameOffice s u := ⟨h'.1.trans h.1, h'.2.trans h.2⟩
theorem of_beside (h : beside t = beside s) : SameOffice s t := ⟨(congrArg State.office h :), (congrArg (fun x : State => x.ctl.regs) h :)⟩
theorem queueOf_eq (h : SameOffice s t) (q : Nat) : queueOf t q = queueOf s q := by rw [queueOf, h.1]; rfl
theorem reg_eq (h : SameOffice s t) (o : Nat) : reg t o = reg s o := by rw [reg, h.2]; rfl
theorem foldl {α : Type} (f : State → α → State) (hf : ∀ a x, SameOffice a (f a x)) (l : List α) (s : State) : SameOffice s (l.foldl f s) := by
  induction l generalizing s with
  | nil => exact .refl s
  | cons x l ih => exact (hf s x).trans (ih _)
end SameOffice
theorem SameOffice.of_log (h : LogNow s t) : SameOffice s t := by
  obtain ⟨_, _, _, rfl⟩ := h
  exact ⟨rfl, rfl⟩
theorem logNow_logMem (kind : Nat) (p : MemPlace) : LogNow s (logMem kind p s) := by
  unfold logMem
  extract_lets s1
  have h : LogNow s s1 := logNow_logRecord ..
  split
  · exact h.trans (.of_pulse 151)
  · exact h
theorem logNow_logFencedOnce (u : Nat) : LogNow s (logFencedOnce u s) := by
  unfold logFencedOnce
  split
  · exact .refl
  · exact (logNow_logMem 0x102 { unit := u }).trans ⟨_, _, _, rfl⟩
theorem noteFenced_office (line : Nat) (s : State) : SameOffice s (noteFenced line s) := by
  unfold noteFenced
  split
  · split
    · exact .of_log (logNow_logFencedOnce _)
    · exact .refl s
  · exact .refl s
theorem agentWriteLine_office (tc pa : Nat) (bs : List Byte) (s : State) : SameOffice s (agentWriteLine tc pa bs s) := by
  unfold agentWriteLine
  split
  · split
    · exact noteFenced_office ..
    · split <;> exact .of_beside (beside_request ..)
  · split <;> exact ⟨rfl, rfl⟩
theorem agentWrite_office (tc pa : Nat) (bs : List Byte) (s : State) : SameOffice s (agentWrite tc pa bs s) :=
  .foldl _ (fun _ _ => agentWriteLine_office ..) _ s

/-! ### A flush (R344) -/

/-- A letter put into the dead-letter ring advances its head, and no queue changes. -/
theorem deadLetter_some (r q : Nat) (l : Letter) (h : dlrFull s = false) : ∃ t, deadLetter r q l s = some t ∧ t.office = s.office ∧
    dlrHead t = dlrHead s + 1 ∧ ∀ o, o ≠ 0x300001C → reg t o = reg s o := by
  have hw := agentWrite_office (qClass (queueOf s q)) (dlrBase s + (dlrHead s).toNat % 2 ^ dlrLog2 s * 128) (dlrEntry s r q l) s
  have hdead : deadLetter r q l s = some (soCnt cntDead (setReg 0x300001C (dlrHead s + 1) (agentWrite (qClass (queueOf s q))
      (dlrBase s + (dlrHead s).toNat % 2 ^ dlrLog2 s * 128) (dlrEntry s r q l) s))) := by
    rw [deadLetter, h]
    rfl
  generalize agentWrite (qClass (queueOf s q)) (dlrBase s + (dlrHead s).toNat % 2 ^ dlrLog2 s * 128) (dlrEntry s r q l) s = w at hw hdead
  exact ⟨_, hdead, hw.1, smGet_smPut_same .., fun o ho => (smGet_smPut_other _ _ _ ho).trans (hw.reg_eq o)⟩

theorem report_none (via : Option Nat) (r : Nat) (indlr : Bool) (device : Nat) (l : Letter) (h : via = none ∨ l.data.getLsbD 52 = true) :
    report via r indlr device l s = s := by
  unfold report
  split
  · rfl
  next v =>
    obtain h | h := h
    · cases h
    · exact if_pos (by rw [h, Bool.true_or])

/-- The dead-letter ring is the same but for its head. -/
structure SameRing (s t : State) (n : Nat) : Prop where
  head : dlrHead t = dlrHead s + BitVec.ofNat 32 n
  tail : dlrTail t = dlrTail s
  log2 : dlrLog2 t = dlrLog2 s
theorem dlrFull_eq_false (hlog : dlrLog2 s < 21) (h : (dlrHead s - dlrTail s).toNat < 2 ^ dlrLog2 s) : dlrFull s = false := by
  have hpow : 2 ^ dlrLog2 s ≤ 2 ^ 20 := Nat.pow_le_pow_right (by decide) (by omega)
  refine beq_eq_false_iff_ne.mpr fun he => ?_
  rw [he, BitVec.toNat_ofNat, Nat.mod_eq_of_lt (by omega)] at h
  exact absurd h (Nat.lt_irrefl _)
/-- A queue without a ring is flushed letter by letter while the dead-letter ring has room. -/
theorem flushFrom_all {q : Nat} (n : Nat) (s : State) (x : Queue) (hx : queueOf s q = x) (hring : x.ring = []) (hn : x.burst.length < n)
    (hquiet : ∀ l ∈ x.burst, l.via = none ∨ l.data.getLsbD 52 = true) (hlog : dlrLog2 s < 21)
    (hroom : x.burst.length + (dlrHead s - dlrTail s).toNat ≤ 2 ^ dlrLog2 s) :
    queueOf (flushFrom q n s) q = { x with burst := [] } ∧ (∀ p, p ≠ q → queueOf (flushFrom q n s) p = queueOf s p) ∧
      SameRing s (flushFrom q n s) x.burst.length := by
  induction n generalizing s x with
  | zero => omega
  | succ n ih =>
    obtain hb | ⟨l, r, hb⟩ : x.burst = [] ∨ ∃ l r, x.burst = l :: r := by cases x.burst <;> simp
    · have hsame : flushFrom q (n + 1) s = s := by
        rw [flushFrom]
        simp only [hx, hb, hring]
      rw [hsame, hx]
      refine ⟨?_, fun _ _ => rfl, ?_, rfl, rfl⟩
      · exact congrArg (fun b => { x with burst := b }) hb
      · rw [hb]
        exact (BitVec.add_zero _).symm
    · have hpow : 2 ^ dlrLog2 s ≤ 2 ^ 20 := Nat.pow_le_pow_right (by decide) (by omega)
      rw [hb, List.length_cons] at hroom hn ⊢
      obtain ⟨s1, hdead, hoffice, hhead, hregs⟩ := deadLetter_some rFlushed q l (dlrFull_eq_false hlog (by omega))
      have hq1 (p : Nat) : queueOf s1 p = queueOf s p := by rw [queueOf, hoffice]; rfl
      set s2 := setQueue q { x with burst := r } s1 with hs2
      have hstep : flushFrom q (n + 1) s = flushFrom q n s2 := by
        rw [flushFrom]
        simp only [hx, hb, hdead]
        rw [report_none _ _ _ _ _ (hquiet l (by rw [hb]; exact List.mem_cons_self ..))]
      have hq2 : queueOf s2 q = { x with burst := r } := smGet_smPut_same ..
      have htail : dlrTail s2 = dlrTail s := hregs _ (by decide)
      have hlog2 : dlrLog2 s2 = dlrLog2 s := congrArg (fld · 4 0) (hregs 0x3000018 (by decide))
      have hhead2 : dlrHead s2 = dlrHead s + 1 := hhead
      have hnext : (dlrHead s2 - dlrTail s2).toNat = (dlrHead s - dlrTail s).toNat + 1 := by
        rw [hhead2, htail]
        bv_omega
      obtain ⟨hq, hothers, hh, ht, hl⟩ := ih s2 { x with burst := r } hq2 hring (Nat.lt_of_succ_lt_succ hn)
        (fun l' hl' => hquiet l' (by rw [hb]; exact List.mem_cons_of_mem _ hl')) (hlog2 ▸ hlog) (by rw [hlog2, hnext]; show r.length + _ ≤ _; omega)
      rw [hstep]
      refine ⟨hq, fun p hp => ?_, ?_, ht.trans htail, hl.trans hlog2⟩
      · rw [hothers p hp]
        exact (smGet_smPut_other _ _ _ hp).trans (hq1 p)
      · rw [hh, hhead2]
        show _ + 1 + BitVec.ofNat 32 r.length = _
        rw [BitVec.add_assoc, Nat.add_comm r.length 1, BitVec.ofNat_add 1]
        rfl

theorem ringBell_idle {q before : Nat} (ha : (queueOf s q).bell = .armed) (h : qCount (queueOf s q) ≤ before) : ringBell q before s = s := by
  have hno : ¬(before < fld (qw (queueOf s q) 2) 31 16 ∧ fld (qw (queueOf s q) 2) 31 16 ≤ qCount (queueOf s q)) := by omega
  unfold ringBell
  simp only [ha, decide_eq_false hno, Bool.and_false, Bool.false_eq_true, if_false]

/-! ### The end of a queue (R344) -/

/-- The device with one more queue gone: it is free, and the slots it armed with it. -/
def queueFreed (q : Nat) (s : State) : State :=
  let s1 := setQueue q {} s
  { s1 with office := { s1.office with slots := s1.office.slots.filter fun e => match e.2 with | some y => y.cmd.q != q | none => true } }
theorem freeIfDrained_empty {q : Nat} (h : (queueOf s q).state = .draining) (h0 : qCount (queueOf s q) = 0) (hold : (queueOf s q).oldLeft = 0) :
    freeIfDrained q s = queueFreed q s := if_pos ⟨h, h0, hold⟩
theorem freeIfDrained_held {q : Nat} (h : qCount (queueOf s q) ≠ 0) : freeIfDrained q s = s := if_neg fun hc => h hc.2.1
theorem smWf_tail {α : Type} [DecidableEq α] {d : Nat → α} {e : Nat × α} {m : SMap α} (h : smWf d (e :: m) = true) : smWf d m = true := by
  unfold smWf at h ⊢
  simp only [Bool.and_eq_true, List.all_cons] at h ⊢
  obtain ⟨hs, -, hall⟩ := h
  refine ⟨?_, hall⟩
  cases m with
  | nil => rfl
  | cons e' m =>
    simp only [smSorted, Bool.and_eq_true] at hs
    exact hs.2
/-- In a map of rising keys what follows an entry has higher keys. -/
theorem smGet_above {α : Type} [DecidableEq α] {d : Nat → α} {e : Nat × α} {m : SMap α} (h : smWf d (e :: m) = true) {k : Nat} (hk : k ≤ e.1) :
    smGet d m k = d k := by
  induction m generalizing e with
  | nil => rfl
  | cons e' m ih =>
    have hlt : e.1 < e'.1 := by
      unfold smWf at h
      simp only [smSorted, Bool.and_eq_true, decide_eq_true_eq] at h
      exact h.1.1
    rw [smGet, if_neg (by omega)]
    exact ih (smWf_tail h) (by omega)
theorem smGet_filter {α : Type} [DecidableEq α] {d : Nat → α} (p : Nat × α → Bool) {m : SMap α} (h : smWf d m = true) (k : Nat) :
    smGet d (m.filter p) k = if p (k, smGet d m k) = true then smGet d m k else d k := by
  induction m with
  | nil => exact (ite_self _).symm
  | cons e m ih =>
    obtain ⟨k', v⟩ := e
    have ih := ih (smWf_tail h)
    by_cases hk : k' = k
    · subst hk
      have habove := smGet_above h (Nat.le_refl k')
      rw [List.filter_cons, smGet, if_pos rfl]
      split
      · rw [smGet, if_pos rfl]
      · rw [ih, habove, ite_self]
    · rw [List.filter_cons, smGet, if_neg hk]
      split
      · rw [smGet, if_neg hk, ih]
      · exact ih
theorem slotAt_queueFreed (q n : Nat) (h : smWf slotDef s.office.slots = true) : slotAt (queueFreed q s) n =
    match slotAt s n with
    | some y => if y.cmd.q = q then none else some y
    | none => none := by
  have hf := smGet_filter (fun e => match e.2 with | some y => y.cmd.q != q | none => true) h n
  show smGet slotDef (s.office.slots.filter _) n = _
  refine hf.trans ?_
  show (if (match slotAt s n with | some y => y.cmd.q != q | none => true) = true then slotAt s n else none) = _
  cases slotAt s n with
  | none => rfl
  | some y =>
    by_cases hy : y.cmd.q = q
    · simp [hy]
    · simp [hy]

/-! ### The code that refuses a command (R343) -/

theorem firstCode_queue : ∀ b4 b14 b3 b6 b7 b12 : Bool,
    firstCode (codeIf b4 4 ++ codeIf b14 14 ++ codeIf b3 3 ++ codeIf b6 6 ++ codeIf b7 7 ++ codeIf b12 12) =
      if b14 then 14 else if b4 then 4 else if b3 then 3 else if b6 then 6 else if b7 then 7 else if b12 then 12 else 0 := by decide
/-- Is the queue in a state that the command does not take? -/
def queueWrong (op : Nat) (x : Queue) : Bool :=
  match op with
  | 1 => decide (x.state ≠ .free)
  | 2 => decide (x.state ≠ .active)
  | 3 => decide (x.state ≠ .active)
  | _ => decide (x.state ≠ .active ∧ x.state ≠ .draining)
/-- The code that refuses command `op` for queue `q`. -/
def queueCode (im : Nat → Word32) (op q : Nat) (s : State) : Nat :=
  let uses := decide (op = 1 ∨ op = 2)
  let x := queueOf s q
  let ring := decide (op = 2) && (qw x 4 != im 4 || qw x 5 != im 5) && decide (0 < x.oldLeft)
  if decide (x.state = .fenced) || sopDown s (q % 8) then 14
  else if uses && imageRsvd im then 4
  else if uses && imageRange s q im then 3
  else if op == 2 && ((qw x 0 ^^^ im 0) &&& 0x1F000000) != 0 then 6
  else if !s.office.running || queueWrong op x || ring then 7
  else if uses && imageBudget s q im then 12
  else 0
/-- What the command makes of the device where nothing refuses it. -/
def queueMade (im : Nat → Word32) (op q : Nat) (s : State) : State :=
  match op with
  | 1 => setQueue q { state := .active, words := (List.range 9).map im } s
  | 2 => setQueue q (resized (queueOf s q) im) s
  | 3 => freeIfDrained q (setQueue q { queueOf s q with state := .draining } s)
  | _ => flushQueue q (setQueue q { queueOf s q with state := .draining, flushing := true } s)
theorem soQcmd_eq (im : Nat → Word32) {op : Nat} {x : BitVec 28} (hop : 1 ≤ op ∧ op ≤ 4) (hx : x.toNat < 65536) (s : State) :
    soQcmd im (opWord op x) s = if queueCode im op x.toNat s ≠ 0 then (queueCode im op x.toNat s, s) else (0, queueMade im op x.toNat s) := by
  have hv : (opWord op x).toNat = op * 2 ^ 28 + x.toNat := by
    rw [opWord, BitVec.toNat_ofNat]
    omega
  have hf1 : fld (opWord op x) 31 28 = op := by simp only [fld, natBits, hv]; omega
  have hf2 : fld (opWord op x) 15 0 = x.toNat := by simp only [fld, natBits, hv]; omega
  have hf3 : (fld (opWord op x) 27 16 != 0) = false := by
    have : fld (opWord op x) 27 16 = 0 := by simp only [fld, natBits, hv]; omega
    rw [this]
    rfl
  have hop0 : (op == 0) = false := beq_eq_false_iff_ne.mpr (by omega)
  have hop4 : decide (4 < op) = false := decide_eq_false (by omega)
  unfold soQcmd
  simp only [hf1, hf2, hf3, hop0, hop4, Bool.false_or]
  have hmade : (match op with
      | 1 => ((stOk, setQueue x.toNat { state := .active, words := (List.range 9).map im } s) : Nat × State)
      | 2 => (stOk, setQueue x.toNat (resized (queueOf s x.toNat) im) s)
      | 3 => (stOk, freeIfDrained x.toNat (setQueue x.toNat { queueOf s x.toNat with state := .draining } s))
      | _ => (stOk, flushQueue x.toNat (setQueue x.toNat { queueOf s x.toNat with state := .draining, flushing := true } s))) =
      (0, queueMade im op x.toNat s) := by
    unfold queueMade
    split <;> rfl
  rw [← hmade]
  exact congrArg (fun c => if c ≠ 0 then ((c, s) : Nat × State) else _) (firstCode_queue ..)

end Sys2Proof.Machine
end

section
/-! Office, queue and reservation commands (12 R303 to R306; 13 R340 to R344, R348). -/

namespace Sys2Proof.Machine
-- One declaration after another: each `decide +kernel` waits for the kernel's turn, and many at once would hold a thread each.
set_option Elab.async false
variable {s : State} {w : Writer}

/-! ### Queue commands (13 R341 to R344) -/

section
variable {x : BitVec 28} (hr : Reaches w 1 0 0x3000040 s) (hx : x.toNat < 65536)
include hr

/-- The image a queue command takes: the writer's staging words. -/
def stagedWord (w : Writer) (s : State) (i : Nat) : Word32 := keyReg s (bankKey (0x3000080 + 4 * i) (writerKey w))

theorem qcmd_orders {i : Instr} {v : Word32} (hi : exec i s = .next (sdc w 0x3000040 v s)) :
    Orders i w { name := .soQcmd, off := 0x3000040, acc := .wo } [] 0x3000040 v s := ⟨by decide +kernel, hi, rfl, rfl, by decide, hr⟩

include hx
/-- A queue command that nothing refuses. -/
theorem qcmd_commands {i : Instr} {op : Nat} {E : State → Prop} (hi : exec i s = .next (sdc w 0x3000040 (opWord op x) s)) (hop : 1 ≤ op ∧ op ≤ 4)
    (hc : queueCode (stagedWord w s) op x.toNat s = 0) (hE : E (queueMade (stagedWord w s) op x.toNat s)) :
    Commands i w 0x3000040 (opWord op x) s E := by
  refine (qcmd_orders hr hi).commands (u := queueMade (stagedWord w s) op x.toNat s) ?_ hE
  refine (soQcmd_eq (stagedWord w s) hop hx s).trans ?_
  rw [hc]
  rfl
/-- A queue command that its checks refuse. -/
theorem qcmd_refuses {i : Instr} {op st : Nat} (hi : exec i s = .next (sdc w 0x3000040 (opWord op x) s)) (hop : 1 ≤ op ∧ op ≤ 4)
    (hc : queueCode (stagedWord w s) op x.toNat s = st) (hst : st ∈ [3, 4, 6, 7, 12, 14]) : Refuses i s st := by
  have hne : st ≠ 0 ∧ st ≠ stOrder ∧ wasDone { name := .soQcmd, off := 0x3000040, acc := .wo } st = false := by
    fin_cases hst <;> decide
  refine (qcmd_orders hr hi).refuses (a := s) ?_ hne.2.2 hne.2.1
  refine (soQcmd_eq (stagedWord w s) hop hx s).trans ?_
  rw [hc, if_pos hne.1]
end

theorem queueOf_setQueue_other {p q : Nat} (y : Queue) (h : p ≠ q) : queueOf (setQueue q y s) p = queueOf s p := smGet_smPut_other _ _ _ h
theorem queueOf_setQueue (q : Nat) (y : Queue) (s : State) : queueOf (setQueue q y s) q = y := smGet_smPut_same ..
theorem merge_of_xor {a b k : Word32} (h : (a ^^^ b) &&& k = 0) : (a &&& k) ||| (b &&& ~~~k) = b := by
  refine BitVec.eq_of_getLsbD_eq fun i hi => ?_
  have hb : ((a ^^^ b) &&& k).getLsbD i = false := by rw [h]; exact BitVec.getLsbD_zero
  simp only [BitVec.getLsbD_and, BitVec.getLsbD_xor, BitVec.getLsbD_or, BitVec.getLsbD_not, hi, decide_true, Bool.true_and] at hb ⊢
  revert hb
  cases a.getLsbD i <;> cases b.getLsbD i <;> cases k.getLsbD i <;> decide
/-- A resize takes the image's words; an old ring that is left drains first. -/
theorem resized_eq {old : Queue} {im : Nat → Word32} (h : (qw old 0 ^^^ im 0) &&& 0x1F000000 = 0) : resized old im =
    if qw old 4 = im 4 ∧ qw old 5 = im 5 then { old with words := (List.range 9).map im }
    else { old with words := (List.range 9).map im, oldLeft := old.ring.length, spill := decide (0 < old.ring.length) } := by
  unfold resized
  dsimp only
  rw [merge_of_xor h]
  rfl

/-- The queue commands. -/
theorem queue_commands (x : BitVec 28) (hr : Reaches w 1 0 0x3000040 s) (hx : x.toNat < 65536) (hslots : smWf slotDef s.office.slots = true) :
    let q := x.toNat
    let old := queueOf s q
    let im (i : Nat) : Word32 := keyReg s (bankKey (0x3000080 + 4 * i) (writerKey w))
    let words := (List.range 9).map im
    let v (op : Nat) : Word32 := BitVec.ofNat 32 (op * 2 ^ 28 + q)
    let good := imageRsvd im = false ∧ imageRange s q im = false
    let ready := s.office.running = true ∧ sopDown s (q % 8) = false
    let only (u : State) (y : Queue) : Prop := queueOf u q = y ∧ (∀ p, p ≠ q → queueOf u p = queueOf s p) ∧
      { u with office := { u.office with queues := s.office.queues, slots := s.office.slots } } = s
    let freed (u : State) : Prop := ∀ n, slotAt u n = match slotAt s n with
      | some y => if y.cmd.q = q then none else some y
      | none => none
    (ready → good → old.state = .free → imageBudget s q im = false → Commands (.queueCreate w x) w 0x3000040 (v 1) s fun u =>
      only u { state := .active, words := words } ∧ u.office.slots = s.office.slots) ∧
    (ready → good → old.state = .free → imageBudget s q im = true → Refuses (.queueCreate w x) s 12) ∧
    (ready → good → old.state = .active → Refuses (.queueCreate w x) s 7) ∧
    (ready → old.state ≠ .fenced → imageRsvd im = true → Refuses (.queueCreate w x) s 4) ∧
    (s.office.running = false → sopDown s (q % 8) = false → good → old.state = .free → Refuses (.queueCreate w x) s 7) ∧
    (old.state = .fenced → Refuses (.queueCreate w x) s 14 ∧ Refuses (.queueRetire w x) s 14 ∧ Refuses (.queueRetireFlush w x) s 14) ∧
    (ready → good → old.state = .active → (qw old 0 ^^^ im 0) &&& 0x1F000000 = 0 → imageBudget s q im = false →
      let same := qw old 4 = im 4 ∧ qw old 5 = im 5
      (same → Commands (.queueResize w x) w 0x3000040 (v 2) s fun u => only u { old with words := words } ∧ u.office.slots = s.office.slots) ∧
      (¬same → old.oldLeft = 0 → Commands (.queueResize w x) w 0x3000040 (v 2) s fun u =>
        only u { old with words := words, oldLeft := old.ring.length, spill := decide (0 < old.ring.length) } ∧ u.office.slots = s.office.slots) ∧
      (¬same → 0 < old.oldLeft → Refuses (.queueResize w x) s 7)) ∧
    (ready → good → old.state = .active → (qw old 0 ^^^ im 0) &&& 0x1F000000 ≠ 0 → Refuses (.queueResize w x) s 6) ∧
    (ready → old.state = .active →
      (qCount old = 0 → old.oldLeft = 0 → Commands (.queueRetire w x) w 0x3000040 (v 3) s fun u => only u {} ∧ freed u) ∧
      (qCount old ≠ 0 → Commands (.queueRetire w x) w 0x3000040 (v 3) s fun u => only u { old with state := .draining } ∧ u.office.slots = s.office.slots)) ∧
    (ready → old.state = .free → Refuses (.queueRetire w x) s 7 ∧ Refuses (.queueRetireFlush w x) s 7) ∧
    (ready → old.state = .active ∨ old.state = .draining → old.ring = [] → old.oldLeft = 0 → old.bell = .armed →
      (∀ l ∈ old.burst, l.via = none ∨ l.data.getLsbD 52 = true) → dlrLog2 s < 21 →
      (old.burst.length + (dlrHead s - dlrTail s).toNat ≤ 2 ^ dlrLog2 s → Commands (.queueRetireFlush w x) w 0x3000040 (v 4) s fun u =>
        queueOf u q = {} ∧ dlrHead u = dlrHead s + BitVec.ofNat 32 old.burst.length ∧ (∀ p, p ≠ q → queueOf u p = queueOf s p)) ∧
      (old.burst ≠ [] → dlrFull s = true → Commands (.queueRetireFlush w x) w 0x3000040 (v 4) s fun u =>
        only u { old with state := .draining, flushing := true } ∧ u.office.slots = s.office.slots)) := by
  intro q old im words v good ready only freed
  have him : stagedWord w s = im := rfl
  have hold : queueOf s q = old := rfl
  have hq : x.toNat = q := rfl
  have hcreate : exec (.queueCreate w x) s = .next (sdc w 0x3000040 (opWord 1 x) s) := rfl
  have hresize : exec (.queueResize w x) s = .next (sdc w 0x3000040 (opWord 2 x) s) := rfl
  have hretire : exec (.queueRetire w x) s = .next (sdc w 0x3000040 (opWord 3 x) s) := rfl
  have hflush : exec (.queueRetireFlush w x) s = .next (sdc w 0x3000040 (opWord 4 x) s) := rfl
  have honly (y : Queue) : only (setQueue q y s) y := ⟨queueOf_setQueue .., fun p hp => queueOf_setQueue_other y hp, rfl⟩
  refine ⟨fun ⟨hrun, hdown⟩ ⟨hrsvd, hrange⟩ hst hbudget => ?_, fun ⟨hrun, hdown⟩ ⟨hrsvd, hrange⟩ hst hbudget => ?_,
    fun ⟨hrun, hdown⟩ ⟨hrsvd, hrange⟩ hst => ?_, fun ⟨hrun, hdown⟩ hst hrsvd => ?_, fun hrun hdown ⟨hrsvd, hrange⟩ hst => ?_, fun hst => ?_,
    fun ⟨hrun, hdown⟩ ⟨hrsvd, hrange⟩ hst hkeep hbudget => ?_, fun ⟨hrun, hdown⟩ ⟨hrsvd, hrange⟩ hst hkeep => ?_,
    fun ⟨hrun, hdown⟩ hst => ⟨fun hcount hleft => ?_, fun hcount => ?_⟩, fun ⟨hrun, hdown⟩ hst => ⟨?_, ?_⟩,
    fun ⟨hrun, hdown⟩ hst hring hleft hbell hquiet hlog => ⟨fun hroom => ?_, fun hburst hfull => ?_⟩⟩
  · refine qcmd_commands hr hx hcreate (by decide) ?_ ⟨honly _, rfl⟩
    simp [queueCode, queueWrong, him, hq, hold, hst, hdown, hrsvd, hrange, hrun, hbudget]
  · refine qcmd_refuses hr hx hcreate (by decide) ?_ (by decide)
    simp [queueCode, queueWrong, him, hq, hold, hst, hdown, hrsvd, hrange, hrun, hbudget]
  · refine qcmd_refuses hr hx hcreate (by decide) ?_ (by decide)
    simp [queueCode, queueWrong, him, hq, hold, hst, hdown, hrsvd, hrange]
  · refine qcmd_refuses hr hx hcreate (by decide) ?_ (by decide)
    simp [queueCode, him, hq, hold, hst, hdown, hrsvd]
  · refine qcmd_refuses hr hx hcreate (by decide) ?_ (by decide)
    simp [queueCode, him, hq, hold, hst, hdown, hrsvd, hrange, hrun]
  · refine ⟨qcmd_refuses hr hx hcreate (by decide) ?_ (by decide), qcmd_refuses hr hx hretire (by decide) ?_ (by decide),
      qcmd_refuses hr hx hflush (by decide) ?_ (by decide)⟩
    all_goals simp [queueCode, him, hq, hold, hst]
  · have hmade := resized_eq (old := old) (im := im) hkeep
    have hbits : (qw old 0 ^^^ im 0) &&& 520093696#32 = 0#32 := hkeep
    refine ⟨fun hsame => ?_, fun hdiff hleft => ?_, fun hdiff hleft => ?_⟩
    · rw [if_pos hsame] at hmade
      refine qcmd_commands hr hx hresize (by decide) ?_ (hmade ▸ ⟨honly (resized old im), rfl⟩)
      simp [queueCode, queueWrong, him, hq, hold, hst, hdown, hrsvd, hrange, hrun, hbudget, hbits, hsame.1, hsame.2]
    · rw [if_neg hdiff] at hmade
      refine qcmd_commands hr hx hresize (by decide) ?_ (hmade ▸ ⟨honly (resized old im), rfl⟩)
      simp [queueCode, queueWrong, him, hq, hold, hst, hdown, hrsvd, hrange, hrun, hbudget, hbits, hleft]
    · refine qcmd_refuses hr hx hresize (by decide) ?_ (by decide)
      have hne : (qw old 4 != im 4 || qw old 5 != im 5) = true := by
        rw [Bool.or_eq_true, bne_iff_ne, bne_iff_ne]
        exact Decidable.not_and_iff_or_not.mp hdiff
      simp [queueCode, queueWrong, him, hq, hold, hst, hdown, hrsvd, hrange, hrun, hbits, hne, hleft]
  · refine qcmd_refuses hr hx hresize (by decide) ?_ (by decide)
    have hbits : ¬(qw old 0 ^^^ im 0) &&& 520093696#32 = 0#32 := hkeep
    simp [queueCode, him, hq, hold, hst, hdown, hrsvd, hrange, hbits]
  · refine qcmd_commands hr hx hretire (by decide) ?_ ?_
    · simp [queueCode, queueWrong, him, hq, hold, hst, hdown, hrun]
    · have hd := queueOf_setQueue q { old with state := .draining } s
      have hmade : queueMade (stagedWord w s) 3 x.toNat s = queueFreed q (setQueue q { old with state := .draining } s) :=
        freeIfDrained_empty (by rw [hd]) (by rw [hd]; exact hcount) (by rw [hd]; exact hleft)
      rw [hmade]
      refine ⟨⟨queueOf_setQueue .., fun p hp => ?_, rfl⟩, fun n => slotAt_queueFreed q n hslots⟩
      exact (queueOf_setQueue_other {} hp).trans (queueOf_setQueue_other _ hp)
  · refine qcmd_commands hr hx hretire (by decide) ?_ ?_
    · simp [queueCode, queueWrong, him, hq, hold, hst, hdown, hrun]
    · have hd := queueOf_setQueue q { old with state := .draining } s
      have hmade : queueMade (stagedWord w s) 3 x.toNat s = setQueue q { old with state := .draining } s :=
        freeIfDrained_held (by rw [hd]; exact hcount)
      rw [hmade]
      exact ⟨honly _, rfl⟩
  · refine qcmd_refuses hr hx hretire (by decide) ?_ (by decide)
    simp [queueCode, queueWrong, him, hq, hold, hst, hdown]
  · refine qcmd_refuses hr hx hflush (by decide) ?_ (by decide)
    simp [queueCode, queueWrong, him, hq, hold, hst, hdown]
  · refine qcmd_commands hr hx hflush (by decide) ?_ ?_
    · rcases hst with hst | hst <;> simp [queueCode, queueWrong, him, hq, hold, hst, hdown, hrun]
    · have hd := queueOf_setQueue q { old with state := .draining, flushing := true } s
      have hcount : qCount { old with state := .draining, flushing := true } = old.burst.length := by rw [qCount, hring]; rfl
      obtain ⟨hq, hothers, hhead, -, -⟩ := flushFrom_all (qCount { old with state := .draining, flushing := true } + 1) _ _ hd hring
        (by rw [hcount]; exact Nat.lt_succ_self _) hquiet hlog hroom
      have hmade : queueMade (stagedWord w s) 4 x.toNat s = flushQueue q (setQueue q { old with state := .draining, flushing := true } s) := rfl
      rw [hmade, flushQueue, hd]
      generalize flushFrom q (qCount { old with state := .draining, flushing := true } + 1) _ = z at *
      have hempty : qCount (queueOf z q) = 0 := by rw [hq, qCount, hring]; rfl
      rw [ringBell_idle (by rw [hq]; exact hbell) (by rw [hempty]; exact Nat.zero_le _), freeIfDrained_empty (by rw [hq]) hempty (by rw [hq]; exact hleft)]
      exact ⟨queueOf_setQueue .., hhead, fun p hp => (queueOf_setQueue_other {} hp).trans ((hothers p hp).trans (queueOf_setQueue_other _ hp))⟩
  · refine qcmd_commands hr hx hflush (by decide) ?_ ?_
    · rcases hst with hst | hst <;> simp [queueCode, queueWrong, him, hq, hold, hst, hdown, hrun]
    · have hd := queueOf_setQueue q { old with state := .draining, flushing := true } s
      obtain ⟨l, r, hb⟩ := List.exists_cons_of_ne_nil hburst
      set z := setQueue q { old with state := .draining, flushing := true } s with hz
      have hstuck : flushFrom q (qCount { old with state := .draining, flushing := true } + 1) z = z := by
        have hdead : deadLetter rFlushed q l z = none := if_pos hfull
        rw [flushFrom]
        simp only [hd, hb, hdead]
      have hcount : qCount (queueOf z q) ≠ 0 := by
        rw [hd, qCount, hb]
        simp
      have hmade : queueMade (stagedWord w s) 4 x.toNat s = flushQueue q z := rfl
      rw [hmade, flushQueue, hd]
      rw [hstuck, ringBell_idle (by rw [hd]; exact hbell) (by rw [hd]), freeIfDrained_held hcount]
      exact ⟨honly _, rfl⟩

/-! ### Registers written whole (02 R46) -/

/-- `i` writes the register `d` at `off`, and nothing ahead of the values refuses it. -/
structure Stores (i : Instr) (w : Writer) (d : RegDesc) (ix : List Nat) (off : Nat) (v : Word32) (s : State) : Prop where
  row : findReg off = some (d, ix)
  writes : exec i s = .next (sdc w off v s)
  single : d.half = .single
  acc : d.acc = .rw ∨ d.acc = .rwl
  name : d.name ≠ .dbgSnap ∧ d.name ≠ .ucsCoreVer
  reaches : Reaches w (needLevel s d off true) d.dbgW off s
namespace Stores
variable {i : Instr} {d : RegDesc} {ix : List Nat} {off st : Nat} {v : Word32} {u : State} (h : Stores i w d ix off v s)
include h
theorem not_wo : d.acc ≠ .wo := by rcases h.acc with ha | ha <;> simp [ha]
theorem code_eq (old : Word32) : wordCode w d ix off old v (BitVec.allOnes 32) s = firstCode (lateChecks d ix off old v (BitVec.allOnes 32) s) := by
  have hro : d.acc ≠ .ro ∧ d.acc ≠ .rc := by rcases h.acc with ha | ha <;> simp [ha]
  have he : earlyChecks w d off s = 0 := earlyChecks_answers hro.1 hro.2 h.name.1 h.reaches.toAnswers
  rw [wordCode, he, h.reaches.room]
  simp only [codeIf, Bool.false_eq_true, if_false, List.append_nil]
  exact firstCode_append_zeros (zs := [0]) (by simp)
theorem low : off < 0x40000000 := lt_trans (lt_of_findReg h.row h.name.2) (by decide)
/-- A write that its values refuse. -/
theorem refuses (hc : firstCode (lateChecks d ix off (curWord w d ix off s) v (BitVec.allOnes 32) s) = st) (hst : st ≠ 0) : Refuses i s st := by
  refine ⟨_, h.writes, ?_⟩
  have hcode := (h.code_eq (curWord w d ix off s)).trans hc
  rw [sdc_register h.low h.reaches.powered, regWrite_word h.row h.single h.not_wo, wordWrite_refused (by rw [hcode]; exact hst), hcode]
  exact refused_touched off st s
/-- An accepted write, by what it makes of the device whatever the rind's copies. -/
theorem commands {E : State → Prop} (hc : firstCode (lateChecks d ix off (curWord w d ix off s) v (BitVec.allOnes 32) s) = 0)
    (happly : ∀ c, applyReg w d ix off v { s with ctl := { s.ctl with copies := c } } = { u with ctl := { u.ctl with copies := c } }) (hE : E u) :
    Commands i w off v s E := by
  have hcode := (h.code_eq (curWord w d ix off s)).trans hc
  obtain ⟨c, hcopy⟩ := keepCopy_eq w off (regValue w d ix off s) s
  refine ⟨_, h.writes, u, hE, ?_⟩
  rw [sdc_register h.low h.reaches.powered, regWrite_word h.row h.single h.not_wo, wordWrite_accepted hcode h.reaches.room, hcopy, happly]
  exact accepted_journal w off (journalKind d) v c s u
end Stores

/-! ### The start of the office and the dead-letter tail (13 R340, R348) -/

theorem starts_office (hr : Reaches w 1 0 0x3000004 s) :
    (s.office.running = false → 6 ≤ dlrLog2 s → dlrLog2 s ≤ 20 → ringOk s (dlrBase s) (128 * 2 ^ dlrLog2 s) = true →
      Commands (.soStart w 1) w 0x3000004 1 s fun u => u = { s with office := { s.office with running := true, ctrs := [], ctxs := [] } }) ∧
    (s.office.running = false → (dlrLog2 s < 6 ∨ 20 < dlrLog2 s ∨ ringOk s (dlrBase s) (128 * 2 ^ dlrLog2 s) = false) → Refuses (.soStart w 1) s 3) ∧
    (s.office.running = true → Commands (.soStart w 1) w 0x3000004 1 s fun u => u = s) ∧ Refuses (.soStart w 2) s 4 := by
  have ho (v : Word32) : Orders (.soStart w v) w { name := .soCmd, off := 0x3000004, acc := .wo, bits := 0x1 } [] 0x3000004 v s :=
    ⟨by decide +kernel, rfl, rfl, rfl, by decide, hr⟩
  have hstart : soStart 1 s = if s.office.running then (0, s)
      else if dlrLog2 s < 6 ∨ 20 < dlrLog2 s ∨ !ringOk s (dlrBase s) (128 * 2 ^ dlrLog2 s) then (3, s)
      else (0, { s with office := { s.office with running := true, ctrs := [], ctxs := [] } }) := rfl
  refine ⟨fun hrun h6 h20 hring => ?_, fun hrun hbad => ?_, fun hrun => ?_, ?_⟩
  · refine (ho 1).commands (u := { s with office := { s.office with running := true, ctrs := [], ctxs := [] } }) ?_ rfl
    show soStart 1 s = _
    rw [hstart, hrun, hring, if_neg Bool.false_ne_true, if_neg]
    simp only [Bool.not_true, Bool.false_eq_true, or_false]
    omega
  · refine (ho 1).refuses (a := s) (st := 3) ?_ rfl (by decide)
    show soStart 1 s = _
    rw [hstart, hrun, if_neg Bool.false_ne_true, if_pos (by simpa using hbad)]
  · refine (ho 1).commands (u := s) ?_ rfl
    show soStart 1 s = _
    rw [hstart, hrun, if_pos rfl]
  · exact (ho 2).refuses (a := s) (st := 4) rfl rfl (by decide)

theorem writes_dlrTail (v : Word32) (hr : Reaches w 1 0 0x3000020 s) :
    ((v - dlrTail s).toNat ≤ (dlrHead s - dlrTail s).toNat → (∀ e ∈ s.office.queues, e.2.flushing = false) →
      Commands (.dlrTailWrite w v) w 0x3000020 v s fun u => dlrTail u = v ∧ (∀ o, o ≠ 0x3000020 → reg u o = reg s o) ∧
        { u with ctl := { u.ctl with regs := s.ctl.regs } } = s) ∧
    ((dlrHead s - dlrTail s).toNat < (v - dlrTail s).toNat → Refuses (.dlrTailWrite w v) s 3) := by
  set d : RegDesc := { name := .soDlrTail, off := 0x3000020, acc := .rw } with hd
  have hs : Stores (.dlrTailWrite w v) w d [] 0x3000020 v s := ⟨by decide +kernel, rfl, rfl, .inl rfl, by decide, hr⟩
  have hcur : curWord w d [] 0x3000020 s = dlrTail s := BitVec.ofNat_toNat ..
  have hlate : lateChecks d [] 0x3000020 (dlrTail s) v (BitVec.allOnes 32) s =
      codeIf (decide ((dlrHead s - dlrTail s).toNat < (v - dlrTail s).toNat)) 3 := by
    have hbits : (v &&& ~~~(BitVec.ofNat 32 d.bits)) = 0 := by simp [hd]
    simp [lateChecks, hbits, hd, unboundReg, lcIndex, valueCodes, codeIf, stRange]
  refine ⟨fun hle hflush => hs.commands (u := setReg 0x3000020 v s) ?_ (fun c => ?_) ⟨reg_setReg_same .., fun o ho => ?_, rfl⟩, fun hlt => hs.refuses ?_ (by decide)⟩
  · rw [hcur, hlate, decide_eq_false (Nat.not_lt.mpr hle)]
    rfl
  · show (soDlrTail v { s with ctl := { s.ctl with copies := c } }).2 = _
    have hno : ¬(dlrHead { s with ctl := { s.ctl with copies := c } } - dlrTail { s with ctl := { s.ctl with copies := c } }).toNat <
        (v - dlrTail { s with ctl := { s.ctl with copies := c } }).toNat := Nat.not_lt.mpr hle
    rw [soDlrTail, if_neg hno]
    refine foldl_still _ fun e he => ?_
    rw [hflush e he, if_neg Bool.false_ne_true]
  · rw [reg_setReg, if_neg ho]
  · rw [hcur, hlate, decide_eq_true hlt]
    rfl

/-! ### Reservations and the ceiling (12 R303 to R306) -/

theorem findReg_frkResW0 : ∀ n : Fin 540, findReg (0x900000 + 16 * n.val) =
    some ({ name := .frkResW0, off := 0x900000, dims := [(0x10, 540)], acc := .rw, bits := 0x8000ffff, period := 0x8000ffff }, [n.val]) := by decide +kernel

/-- The words of a reservation once its first has been written: the three words, and nothing held any more. -/
def reservedRegs (n : Nat) (v : Word32) (s : State) : SMap Word32 :=
  smPut regDef (smDrop (smDrop (smPut regDef (smPut regDef s.ctl.regs (frkResOff n 2) (heldRes s n 2)) (frkResOff n 1) (heldRes s n 1))
    (bankKey (frkResOff n 2) 600)) (bankKey (frkResOff n 1) 600)) (frkResOff n 0) v
def reserved (n : Nat) (v : Word32) (s : State) : State := { s with ctl := { s.ctl with regs := reservedRegs n v s } }
theorem frkApply_reserved {n : Nat} (hn : n < 540) (v : Word32) (s : State) : frkApply (frkResOff n 0) v s = reserved n v s := by
  have hoff : frkResOff n 0 = 0x900000 + 16 * n := rfl
  have hdiv : (frkResOff n 0 - 0x900000) / 16 = n := by omega
  have hmod : (frkResOff n 0 - 0x900000) % 16 = 0 := by omega
  unfold frkApply
  rw [if_pos (by omega), hdiv, hmod]
  simp only [setReg, dropHeldRes, reserved, reservedRegs]
theorem reserved_copies (n : Nat) (v : Word32) (c : List RindCopy) (s : State) : reserved n v { s with ctl := { s.ctl with copies := c } } =
    { reserved n v s with ctl := { (reserved n v s).ctl with copies := c } } := by
  have hregs : reservedRegs n v { s with ctl := { s.ctl with copies := c } } = reservedRegs n v s := by
    unfold reservedRegs heldRes reg
    rfl
  unfold reserved
  rw [hregs]
theorem reg_reserved (n : Nat) (v : Word32) (s : State) {o : Nat} (ho : o < 2 ^ 36) : reg (reserved n v s) o =
    if o = frkResOff n 0 then v else if o = frkResOff n 1 then heldRes s n 1 else if o = frkResOff n 2 then heldRes s n 2 else reg s o := by
  have hkey (i : Nat) : o ≠ bankKey (frkResOff n i) 600 := by
    unfold bankKey
    omega
  show smGet regDef (reservedRegs n v s) o = _
  rw [reservedRegs, smGet_smPut, smGet_smDrop_other _ _ (hkey 1), smGet_smDrop_other _ _ (hkey 2), smGet_smPut, smGet_smPut]
  rfl

/-- The row of a reservation's first word. -/
def rowRes : RegDesc := { name := .frkResW0, off := 0x900000, dims := [(0x10, 540)], acc := .rw, bits := 0x8000ffff, period := 0x8000ffff }
/-- Does the entry belong to an initiator of the device (12 R304)? -/
def EntryExists (s : State) (n : Nat) : Prop := n < 535 ∧ (n < 512 → bound s n = true)
/-- The reservation fits where it names (12 R306). -/
def Fits (s : State) (n : Nat) (v w1 w2 : Word32) : Prop :=
  ∀ r, r < 40 → maskNames w1 w2 r = true → chargedBut s n r + fld v 15 0 ≤ resLimit s r

open Classical in
theorem resAdmission_eq (n : Nat) (v w1 w2 : Word32) (s : State) : resAdmission n v w1 w2 s =
    if ¬EntryExists s n ∨ namesAbsent s w1 w2 = true then 3 else if v.getLsbD 31 = false then 0
    else if fld v 15 0 = 0 then 3 else if Fits s n v w1 w2 then 0 else 12 := by
  have hex : (535 ≤ n ∨ (n < 512 ∧ !bound s n) ∨ namesAbsent s w1 w2) ↔ (¬EntryExists s n ∨ namesAbsent s w1 w2 = true) := by
    simp only [EntryExists, Bool.not_eq_true', not_and_or, Classical.not_imp, Nat.not_lt, Bool.not_eq_true, or_assoc]
  have hfits : ((List.range 40).all fun r => !maskNames w1 w2 r || decide (chargedBut s n r + fld v 15 0 ≤ resLimit s r)) = true ↔
      Fits s n v w1 w2 := by
    simp only [Fits, List.all_eq_true, List.mem_range, Bool.or_eq_true, Bool.not_eq_true', decide_eq_true_eq]
    refine forall_congr' fun r => forall_congr' fun _ => ?_
    cases maskNames w1 w2 r <;> simp
  unfold resAdmission
  rw [if_congr hex rfl rfl, if_congr hfits rfl rfl]
  simp only [Bool.not_eq_true']
  rfl
theorem frkCheck_reservation {n : Nat} (hn : n < 540) (v : Word32) (s : State) :
    frkCheck (frkResOff n 0) v s = resAdmission n v (heldRes s n 1) (heldRes s n 2) s := by
  have hoff : frkResOff n 0 = 0x900000 + 16 * n := rfl
  unfold frkCheck frkCeilOff
  rw [if_neg (by omega), if_neg (by omega), if_neg (by omega), if_neg (by omega), if_pos (by omega)]
  dsimp only
  rw [if_pos (by omega), show (frkResOff n 0 - 0x900000) / 16 = n by omega]
theorem unbound_reservation {n : Nat} (h : unboundReg s rowRes [n] = true) : ¬EntryExists s n := by
  have hm : (match (if n < 512 then some n else none) with | some m => !bound s m | none => false) = true := h
  by_cases hlt : n < 512
  · rw [if_pos hlt] at hm
    simp only [Bool.not_eq_true'] at hm
    exact fun h => by simp [h.2 hlt] at hm
  · rw [if_neg hlt] at hm
    cases hm
/-- The code of a write of a reservation is that of its admission. -/
theorem late_reservation {n : Nat} {v : Word32} (hn : n < 540) (hzero : v &&& 0x7FFF0000 = 0) (hstaged : hasStaged s (frkResOff n 0) = false)
    (old : Word32) : firstCode (lateChecks rowRes [n] (frkResOff n 0) old v (BitVec.allOnes 32) s) =
      resAdmission n v (heldRes s n 1) (heldRes s n 2) s := by
  have hbits : (v &&& ~~~2147549183#32 != 0#32) = false := bne_eq_false_iff_eq.mpr hzero
  have hlist : lateChecks rowRes [n] (frkResOff n 0) old v (BitVec.allOnes 32) s =
      codeIf (unboundReg s rowRes [n]) 3 ++ [resAdmission n v (heldRes s n 1) (heldRes s n 2) s] := by
    have hvalue : valueCodes rowRes [n] (frkResOff n 0) old v s = [resAdmission n v (heldRes s n 1) (heldRes s n 2) s] := by
      rw [← frkCheck_reservation hn]
      rfl
    rw [lateChecks, hvalue, hstaged]
    simp only [rowRes, hbits, codeIf, Bool.and_false, BitVec.ofNat_eq_ofNat, BitVec.and_zero, bne_self_eq_false, Bool.false_and, Bool.false_eq_true,
      if_false, List.nil_append, List.append_nil, stRange]
  rw [hlist, resAdmission_eq]
  cases hu : unboundReg s rowRes [n] with
  | true =>
    rw [if_pos (.inl (unbound_reservation hu))]
    rfl
  | false =>
    simp only [codeIf, Bool.false_eq_true, if_false, List.nil_append]
    split_ifs <;> rfl

theorem writes_reservation (n : Fin 540) (v : Word32) : let off (i : Nat) := 0x900000 + 16 * n.val + 4 * i
    let w1 := heldRes s n.val 1
    let w2 := heldRes s n.val 2
    let fits := ∀ r, r < 40 → maskNames w1 w2 r = true → chargedBut s n.val r + fld v 15 0 ≤ resLimit s r
    Reaches w 1 0 (off 0) s → v &&& 0x7FFF0000 = 0 → hasStaged s (off 0) = false →
    let exists_ := n.val < 535 ∧ (n.val < 512 → bound s n.val = true)
    let takes := Commands (.frkResWrite w n v) w (off 0) v s fun u => reg u (off 0) = v ∧ reg u (off 1) = w1 ∧ reg u (off 2) = w2 ∧
      (∀ o, o < 2 ^ 36 → o ≠ off 0 → o ≠ off 1 → o ≠ off 2 → reg u o = reg s o) ∧ { u with ctl := { u.ctl with regs := s.ctl.regs } } = s
    (¬exists_ ∨ namesAbsent s w1 w2 = true → Refuses (.frkResWrite w n v) s 3) ∧
    (exists_ → namesAbsent s w1 w2 = false →
      (v.getLsbD 31 = false → takes) ∧ (v.getLsbD 31 = true → fld v 15 0 = 0 → Refuses (.frkResWrite w n v) s 3) ∧
      (v.getLsbD 31 = true → fld v 15 0 ≠ 0 → (fits → takes) ∧ (¬fits → Refuses (.frkResWrite w n v) s 12))) := by
  intro off w1 w2 fits hr hzero hstaged exists_ takes
  have hn := n.isLt
  have hs : Stores (.frkResWrite w n v) w rowRes [n.val] (frkResOff n.val 0) v s := by
    refine ⟨findReg_frkResW0 n, rfl, rfl, .inl rfl, by decide, ?_⟩
    have hlevel : needLevel s rowRes (frkResOff n.val 0) true = 1 := blockLevel_supervisor (by unfold frkResOff; omega) (by unfold frkResOff; omega)
    rw [hlevel]
    exact hr
  have hlate := late_reservation hn hzero hstaged
  have hadm := resAdmission_eq n.val v w1 w2 s
  have htakes (hc : resAdmission n.val v w1 w2 s = 0) : takes := by
    have hlow (i : Nat) (hi : i < 3) : frkResOff n.val i < 2 ^ 36 := by unfold frkResOff; omega
    have hne (i j : Nat) (hij : i ≠ j) : frkResOff n.val i ≠ frkResOff n.val j := by unfold frkResOff; omega
    have happly (c : List RindCopy) : applyReg w rowRes [n.val] (frkResOff n.val 0) v { s with ctl := { s.ctl with copies := c } } =
        { reserved n.val v s with ctl := { (reserved n.val v s).ctl with copies := c } } := by
      rw [← reserved_copies, ← frkApply_reserved hn]
      rfl
    refine hs.commands (u := reserved n.val v s) ((hlate _).trans hc) happly ⟨?_, ?_, ?_, fun o ho h0 h1 h2 => ?_, rfl⟩
    · exact (reg_reserved n.val v s (hlow 0 (by decide))).trans (if_pos rfl)
    · exact (reg_reserved n.val v s (hlow 1 (by decide))).trans ((if_neg (hne 1 0 (by decide))).trans (if_pos rfl))
    · exact (reg_reserved n.val v s (hlow 2 (by decide))).trans ((if_neg (hne 2 0 (by decide))).trans ((if_neg (hne 2 1 (by decide))).trans (if_pos rfl)))
    · exact (reg_reserved n.val v s ho).trans ((if_neg h0).trans ((if_neg h1).trans (if_neg h2)))
  refine ⟨fun h => hs.refuses ((hlate _).trans (hadm.trans (if_pos h))) (by decide), fun hex hnames => ?_⟩
  rw [if_neg (show ¬(¬EntryExists s n.val ∨ namesAbsent s w1 w2 = true) from fun h => h.elim (fun h => h hex) fun h => by simp [hnames] at h)] at hadm
  refine ⟨fun hv => htakes (hadm.trans (if_pos hv)), fun hv h0 => hs.refuses ((hlate _).trans ?_) (by decide), fun hv h0 => ?_⟩
  all_goals rw [if_neg (by simp [hv])] at hadm
  · exact hadm.trans (if_pos h0)
  · rw [if_neg h0] at hadm
    exact ⟨fun hfits => htakes (hadm.trans (if_pos hfits)), fun hfits => hs.refuses ((hlate _).trans (hadm.trans (if_neg hfits))) (by decide)⟩

theorem writes_ceiling (v : Word32) (hr : Reaches w 1 0 0x800020 s) (hv : v.toNat < 32) (hstaged : hasStaged s 0x800020 = false) :
    let tooHigh := 20 < v.toNat ∨ ∃ i, i < 5 ∧ 100 < v.toNat + shareSum (reg s (0x800040 + 4 * i))
    let less := ∃ r, r < 40 ∧ capacity s r * v.toNat / 100 < charged s r
    (tooHigh → Refuses (.frkTc0CeilWrite w v) s 3) ∧ (¬tooHigh → less → Refuses (.frkTc0CeilWrite w v) s 12) ∧
    (¬tooHigh → ¬less → Commands (.frkTc0CeilWrite w v) w 0x800020 v s fun u => reg u 0x800020 = v ∧ (∀ o, o ≠ 0x800020 → reg u o = reg s o) ∧
      { u with ctl := { u.ctl with regs := s.ctl.regs } } = s) := by
  intro tooHigh less
  set d : RegDesc := { name := .frkTc0Ceil, off := 0x800020, acc := .rwl, reset := 0x14, bits := 0x1f, period := 0x1f, lock := some 2 } with hd
  have hs : Stores (.frkTc0CeilWrite w v) w d [] 0x800020 v s := ⟨by decide +kernel, rfl, rfl, .inr rfl, by decide, hr⟩
  have hfld : fld v 4 0 = v.toNat := by
    simp only [fld, natBits]
    omega
  have hcheck : frkCheck 0x800020 v s = if tooHigh then 3 else if less then 12 else 0 := by
    have hhigh : (20 < v.toNat ∨ ((List.range 5).any fun i => decide (100 < v.toNat + shareSum (reg s (0x800040 + 4 * i)))) = true) ↔ tooHigh := by
      simp [tooHigh]
    have hless : ((List.range 40).any fun r => decide (capacity s r * v.toNat / 100 < charged s r)) = true ↔ less := by simp [less]
    have hck : frkCheck 0x800020 v s =
        if 20 < fld v 4 0 ∨ ((List.range 5).any fun i => decide (100 < fld v 4 0 + shareSum (reg s (0x800040 + 4 * i)))) then 3
        else if (List.range 40).any fun r => decide (capacity s r * fld v 4 0 / 100 < charged s r) then 12 else 0 := rfl
    rw [hck, hfld, if_congr hhigh rfl rfl, if_congr hless rfl rfl]
  have hlate (old : Word32) : firstCode (lateChecks d [] 0x800020 old v (BitVec.allOnes 32) s) = if tooHigh then 3 else if less then 12 else 0 := by
    have hbits : (v &&& ~~~31#32 != 0#32) = false := by
      rw [bne_eq_false_iff_eq]
      refine BitVec.eq_of_getLsbD_eq fun i hi => ?_
      rw [BitVec.getLsbD_and, BitVec.getLsbD_not, BitVec.getLsbD_zero]
      by_cases h5 : i < 5
      · have h31 : ∀ i < 5, (31#32).getLsbD i = true := by decide
        simp [-BitVec.getLsbD_eq_getElem, h31 i h5]
      · have hv5 : v.getLsbD i = false :=
          Nat.testBit_lt_two_pow (lt_of_lt_of_le hv (Nat.pow_le_pow_right (n := 2) (by decide) (by omega : 5 ≤ i)))
        rw [hv5, Bool.false_and]
    have hlist : lateChecks d [] 0x800020 old v (BitVec.allOnes 32) s = [frkCheck 0x800020 v s] := by
      simp only [lateChecks, hbits, hstaged, valueCodes, hd, unboundReg, lcIndex, codeIf, Bool.and_false, BitVec.ofNat_eq_ofNat, BitVec.and_zero,
        bne_self_eq_false, Bool.false_and, Bool.false_eq_true, if_false, List.nil_append, List.append_nil]
    rw [hlist, hcheck]
    split_ifs <;> rfl
  refine ⟨fun h => hs.refuses ?_ (by decide), fun h h' => hs.refuses ?_ (by decide), fun h h' => hs.commands (u := setReg 0x800020 v s) ?_ (fun c => ?_)
    ⟨reg_setReg_same .., fun o ho => ?_, rfl⟩⟩
  · rw [hlate, if_pos h]
  · rw [hlate, if_neg h, if_pos h']
  · rw [hlate, if_neg h, if_neg h']
  · rfl
  · rw [reg_setReg, if_neg ho]

/-- Settles O41: the queue commands by their code and the queue each makes, the register writes by their values and what they store. -/
theorem officeAndReservationCommands : Obligations.OfficeAndReservationCommands := by
  unfold Obligations.OfficeAndReservationCommands
  exact fun w s => ⟨queue_commands, starts_office, writes_dlrTail, writes_reservation, writes_ceiling⟩

end Sys2Proof.Machine
end

section
/-! Sparing and retirement of memory (11 R291 to R294): the records, the reserve, the copy of a row and what erasing a device leaves. -/

namespace Sys2Proof.Machine
variable {s t r : State} {u place bank row : Nat}

/-! ### Records and the reserve -/

theorem take_memRecord (kind : Nat) (p : MemPlace) (now : Nat) : (memRecord kind p now).take 2 = bytesOfNat kind 2 := by
  simp only [memRecord, List.append_assoc]
  exact List.take_left' (length_bytesOfNat ..)
/-- A memory record of a class that never merges is the newest of the log. -/
theorem logMem_eq (kind : Nat) (p : MemPlace) (hc : memClass kind ≠ 0) : ∃ e n q i, e.record.take 2 = bytesOfNat kind 2 ∧ logMem kind p s =
    { s with resil := { s.resil with log := e :: s.resil.log.take 4095, logSeq := n }, pads := q, intc := i } := by
  obtain ⟨e, n, q, i, he, hadd⟩ := addEntry_eq (s := s) kind (memClass kind) (memRecord kind p (nowNs s))
  have hrec : e.record.take 2 = bytesOfNat kind 2 := by rw [he, take_memRecord]
  unfold logMem
  rw [logRecord, if_neg hc, hadd]
  dsimp only
  split
  · obtain ⟨j, hj⟩ := pulse_eq (s := { s with resil := { s.resil with log := e :: s.resil.log.take 4095, logSeq := n }, pads := q, intc := i }) 151
    exact ⟨e, n, q, j, hrec, hj⟩
  · exact ⟨e, n, q, i, hrec, rfl⟩
/-- One of class 0 is, where none of its unit merges with it. -/
theorem newest_logMem (kind : Nat) (p : MemPlace) (hc : memClass kind = 0) (hp : p.pa = 0) (hm : mergeTarget kind p.unit s = none) :
    Newest kind (logMem kind p s) := by
  obtain ⟨e, n, q, i, he, hadd⟩ := addEntry_eq (s := s) kind 0 (memRecord kind p (nowNs s))
  unfold logMem
  rw [hc, logRecord, if_pos rfl, if_pos hp, hm, hadd]
  dsimp only
  split
  · rw [Newest, resil_pulse]
    exact ⟨e, _, rfl, by rw [he, take_memRecord]⟩
  · exact ⟨e, _, rfl, by rw [he, take_memRecord]⟩

theorem setReserve_eq (total free : Nat) (s : State) : ∃ v i, setReserve total free s =
    { s with mem := { s.mem with reserveTotal := total, reserveFree := free },
             resil := { s.resil with spareLeft := smPut spareTotal s.resil.spareLeft 7 v }, intc := i } := by
  unfold setReserve
  extract_lets _ s1
  split
  · obtain ⟨i, hi⟩ := pulse_eq (s := s1) 149
    exact ⟨_, i, hi⟩
  · exact ⟨_, s.intc, rfl⟩

/-! ### Retirement (R293, R294) -/

/-- What a retirement beyond the reserve leaves: CONTAIN for memory, and all memory as before. -/
theorem enterContain_memory (s : State) : (enterContain containMem s).resil.contain.getLsbD 1 = true ∧ (enterContain containMem s).mem = s.mem := by
  obtain ⟨l, n, p, i, c, h, hc, -⟩ := enterContain_spec (s := s) containMem (by decide)
  rw [h]
  exact ⟨hc, rfl⟩

/-- The retirements of a DIMM and of its ranks. -/
def retirementsOf (s : State) (u dimm : Nat) : List Retirement := (memCtl s u).retired.filter fun r => r.dimm == dimm
/-- What a retirement takes of the reserve, the whole DIMM or one rank of it, in MiB. -/
def retireNeed (s : State) (u dimm : Nat) (whole : Bool) : Nat :=
  if whole then dimmMib s - ((retirementsOf s u dimm).map fun r => r.total).foldl (· + ·) 0 else dimmMib s / 2 ^ s.mem.rankLog2
def reserveStart (s : State) : Nat := ((s.mem.reserveTotal - s.mem.reserveFree) * 256 + dimmCount s - 1) / dimmCount s

/-- The retirement begins: its record, and what it takes of the reserve. -/
def beginRetirement (u dimm : Nat) (rank : Option Nat) (whole : Bool) (need : Nat) (s : State) : State :=
  let s2 := logMem (if whole then 0x108 else 0x107) { unit := u, place := 16 * dimm, rank := if whole then 0 else rank.getD 0 }
    (setMemCtl u { memCtl s u with retired := (memCtl s u).retired ++
      [{ dimm := dimm, rank := if whole then none else rank, pointer := 0, total := need, done := false, base := reserveStart s }] } s)
  setReserve s2.mem.reserveTotal (s2.mem.reserveFree - need) { s2 with resil := { s2.resil with
    spareUsed := if whole then smPut zeroNat s2.resil.spareUsed 7 (spareUsed s2 7 + 1) else s2.resil.spareUsed } }
theorem retireUnit_again {dimm : Nat} {rank : Option Nat} {x : Retirement} (hx : x ∈ (memCtl s u).retired) (hd : x.dimm = dimm)
    (hr : x.rank = none ∨ x.rank = rank) : retireUnit u dimm rank s = s := by
  refine if_pos (List.any_eq_true.mpr ⟨x, List.mem_filter.mpr ⟨hx, by simpa using hd⟩, ?_⟩)
  obtain h | h := hr
  · simp [h]
  · simp [h]
theorem retireUnit_short {dimm : Nat} {rank : Option Nat} (hm : ∀ x ∈ retirementsOf s u dimm, x.rank ≠ none ∧ x.rank ≠ rank)
    (hf : s.mem.reserveFree < retireNeed s u dimm (rank.isNone || !(retirementsOf s u dimm).isEmpty)) :
    retireUnit u dimm rank s = enterContain containMem s := by
  have hany : ((retirementsOf s u dimm).any fun r => r.rank == rank || r.rank.isNone) = false := by
    simp only [List.any_eq_false, Bool.or_eq_true, beq_iff_eq, Option.isNone_iff_eq_none, not_or]
    exact fun x hx => ⟨(hm x hx).2, (hm x hx).1⟩
  exact (if_neg (Bool.not_eq_true _ ▸ hany)).trans (if_pos hf)
theorem retireUnit_new {dimm : Nat} {rank : Option Nat} {whole : Bool} {need : Nat} (hm : ∀ x ∈ retirementsOf s u dimm, x.rank ≠ none ∧ x.rank ≠ rank)
    (hw : whole = (rank.isNone || !(retirementsOf s u dimm).isEmpty)) (hneed : need = retireNeed s u dimm whole) (hf : need ≤ s.mem.reserveFree) :
    ∃ e n p i used v, e.record.take 2 = bytesOfNat (if whole then 0x108 else 0x107) 2 ∧ retireUnit u dimm rank s =
      { s with mem := { s.mem with
                 ctls := smPut ctlDef s.mem.ctls u { memCtl s u with retired := (memCtl s u).retired ++
                   [{ dimm := dimm, rank := if whole then none else rank, pointer := 0, total := need, done := false, base := reserveStart s }] },
                 reserveFree := s.mem.reserveFree - need },
               resil := { s.resil with log := e :: s.resil.log.take 4095, logSeq := n, spareUsed := used,
                                       spareLeft := smPut spareTotal s.resil.spareLeft 7 v },
               pads := p, intc := i } := by
  have hany : ((retirementsOf s u dimm).any fun r => r.rank == rank || r.rank.isNone) = false := by
    simp only [List.any_eq_false, Bool.or_eq_true, beq_iff_eq, Option.isNone_iff_eq_none, not_or]
    exact fun x hx => ⟨(hm x hx).2, (hm x hx).1⟩
  obtain ⟨e, n, p, i, he, hlog⟩ := logMem_eq (s := setMemCtl u { memCtl s u with retired := (memCtl s u).retired ++
    [{ dimm := dimm, rank := if whole then none else rank, pointer := 0, total := need, done := false, base := reserveStart s }] } s)
    (if whole then 0x108 else 0x107) { unit := u, place := 16 * dimm, rank := if whole then 0 else rank.getD 0 } (by cases whole <;> decide)
  have hret : retireUnit u dimm rank s = beginRetirement u dimm rank whole need s := by
    subst hneed hw
    unfold retireUnit
    extract_lets c mine w n base s1 s2
    rw [if_neg (Bool.not_eq_true _ ▸ hany), if_neg (show ¬s.mem.reserveFree < n from Nat.not_lt.mpr hf)]
    unfold beginRetirement reserveStart retireNeed retirementsOf
    with_reducible_and_instances rfl
  rw [hret, beginRetirement, hlog]
  dsimp only
  obtain ⟨v, j, h⟩ := setReserve_eq s.mem.reserveTotal (s.mem.reserveFree - need)
    { s with mem := { s.mem with ctls := smPut ctlDef s.mem.ctls u { memCtl s u with retired := (memCtl s u).retired ++
               [{ dimm := dimm, rank := if whole then none else rank, pointer := 0, total := need, done := false, base := reserveStart s }] } },
             resil := { s.resil with log := e :: s.resil.log.take 4095, logSeq := n,
                                     spareUsed := if whole then smPut zeroNat s.resil.spareUsed 7 (spareUsed s 7 + 1) else s.resil.spareUsed },
             pads := p, intc := i }
  exact ⟨e, n, p, j, _, v, he, h⟩

/-! ### The copy of a row (R292) -/

/-- The bytes, the map from rows to lines, the controllers and the spares left are as before. -/
structure SameRows (s t : State) : Prop where
  bytes : t.mem.bytes = s.mem.bytes
  lines : lineAt t = lineAt s
  ctls : t.mem.ctls = s.mem.ctls
  spares : t.resil.spareLeft = s.resil.spareLeft
theorem SameRows.trans (h : SameRows s t) (h' : SameRows t r) : SameRows s r :=
  ⟨h'.bytes.trans h.bytes, h'.lines.trans h.lines, h'.ctls.trans h.ctls, h'.spares.trans h.spares⟩

/-- A column found uncorrectable during the copy. -/
def storePoisoned (u place bank row : Nat) (s : State) (col : Nat) : State :=
  let line := lineAt s u place bank row col
  if poisoned s line then s
  else ctlCnt u cntUe (logMem 0x101 { linePlace s line with flags := 1 } (setPoison line true s))
theorem storePoisoned_spec (col : Nat) : SameRows s (storePoisoned u place bank row s col) ∧
    ∀ l, poisoned (storePoisoned u place bank row s col) l = true ↔ poisoned s l = true ∨ l = lineAt s u place bank row col := by
  unfold storePoisoned
  extract_lets line
  split
  next hp => exact ⟨⟨rfl, rfl, rfl, rfl⟩, fun l => ⟨.inl, fun h => h.elim id fun hl => hl ▸ hp⟩⟩
  next hp =>
    obtain ⟨e, n, p, i, -, hlog⟩ := logMem_eq (s := setPoison line true s) 0x101 { linePlace s line with flags := 1 } (by decide)
    rw [hlog]
    refine ⟨⟨rfl, rfl, rfl, rfl⟩, fun l => ?_⟩
    have h : poisoned (setPoison line true s) l = if l = line then true else poisoned s l := smGet_smPut ..
    refine (iff_of_eq (congrArg (· = true) (?_ : _ = if l = line then true else poisoned s l))).trans ?_
    · exact h
    split
    next hl => exact ⟨fun _ => .inr hl, fun _ => rfl⟩
    next hl => exact ⟨.inl, fun h => h.resolve_right hl⟩
theorem copyRow_spec (bad : List Nat) : SameRows s (copyRow u place bank row bad s) ∧
    (∀ l, poisoned (copyRow u place bank row bad s) l = true ↔ poisoned s l = true ∨ ∃ x ∈ bad, l = lineAt s u place bank row x) ∧
    (bad = [] → (copyRow u place bank row bad s).resil = s.resil) := by
  have key : ∀ (bad : List Nat) (s : State), SameRows s (bad.foldl (storePoisoned u place bank row) s) ∧
      ∀ l, poisoned (bad.foldl (storePoisoned u place bank row) s) l = true ↔ poisoned s l = true ∨ ∃ x ∈ bad, l = lineAt s u place bank row x := by
    intro bad
    induction bad with
    | nil => exact fun s => ⟨⟨rfl, rfl, rfl, rfl⟩, fun l => by simp⟩
    | cons col bad ih =>
      intro s
      obtain ⟨hone, hpone⟩ := storePoisoned_spec (s := s) (u := u) (place := place) (bank := bank) (row := row) col
      obtain ⟨hrest, hprest⟩ := ih (storePoisoned u place bank row s col)
      refine ⟨hone.trans hrest, fun l => ?_⟩
      rw [List.foldl_cons, hprest, hpone, hone.lines]
      simp [or_assoc]
  obtain ⟨hrows, hpoison⟩ := key bad (injectMaint u (if u < 8 then 16 else 128) s)
  exact ⟨(⟨rfl, rfl, rfl, rfl⟩ : SameRows s (injectMaint u (if u < 8 then 16 else 128) s)).trans hrows, hpoison, fun h => by rw [h]; rfl⟩

/-! ### A device is erased (R291) -/

/-- The bytes, what is poisoned, the rows spared and the hard repairs left are as before. -/
structure SameSpares (u : Nat) (s t : State) : Prop where
  bytes : t.mem.bytes = s.mem.bytes
  poison : t.mem.poison = s.mem.poison
  spared : (memCtl t u).spared = (memCtl s u).spared
  hard : spareLeft t 6 = spareLeft s 6
theorem SameSpares.trans (h : SameSpares u s t) (h' : SameSpares u t r) : SameSpares u s r :=
  ⟨h'.bytes.trans h.bytes, h'.poison.trans h.poison, h'.spared.trans h.spared, h'.hard.trans h.hard⟩

theorem memCtl_of_put {c : MemCtl} {m : SMap MemCtl} (t : State) (h : t.mem.ctls = smPut ctlDef m u c) : memCtl t u = c := by
  rw [memCtl, h, smGet_smPut_same]
theorem enterContain_sameSpares (bit : Nat) (hb : bit < 6) : SameSpares u s (enterContain bit s) := by
  obtain ⟨l, n, p, i, c, h, -, -⟩ := enterContain_spec (s := s) bit hb
  rw [h]
  exact ⟨rfl, rfl, rfl, rfl⟩
theorem retireUnit_sameSpares (dimm : Nat) (rank : Option Nat) : SameSpares u s (retireUnit u dimm rank s) := by
  by_cases hm : ∀ x ∈ retirementsOf s u dimm, x.rank ≠ none ∧ x.rank ≠ rank
  · by_cases hf : retireNeed s u dimm (rank.isNone || !(retirementsOf s u dimm).isEmpty) ≤ s.mem.reserveFree
    · obtain ⟨e, n, p, i, used, v, -, h⟩ := retireUnit_new hm rfl rfl hf
      rw [h]
      refine ⟨rfl, rfl, ?_, smGet_smPut_other _ _ _ (by decide)⟩
      rw [memCtl_of_put _ rfl]
    · rw [retireUnit_short hm (Nat.lt_of_not_le hf)]
      exact enterContain_sameSpares _ (by decide)
  · simp only [not_forall, not_and_or, ne_eq, not_not] at hm
    obtain ⟨x, hx, hr⟩ := hm
    obtain ⟨hx, hd⟩ := List.mem_filter.mp hx
    rw [retireUnit_again hx (beq_iff_eq.mp hd) hr]
    exact ⟨rfl, rfl, rfl, rfl⟩
theorem eraseDevice_sameSpares (place rank : Nat) (b : Option Nat) (dev flags : Nat) : SameSpares u s (eraseDevice u place rank b dev flags s) := by
  unfold eraseDevice
  extract_lets c
  split
  · exact ⟨rfl, rfl, rfl, rfl⟩
  · split
    · exact retireUnit_sameSpares ..
    · obtain ⟨e, n, p, i, -, hlog⟩ := logMem_eq
        (s := setMemCtl u { c with erased := c.erased ++ [{ place := place, rank := rank, bank := b, dev := dev }] } s) 0x106
        { unit := u, flags := flags, place := place, rank := rank, bank := b.getD 0, symbols := 2 ^ dev } (by decide)
      rw [hlog]
      refine ⟨rfl, rfl, ?_, rfl⟩
      rw [memCtl_of_put _ rfl]
theorem eraseFor_sameSpares (mask : Nat) (isOver : MemCtl → Nat → Bool) : SameSpares u s (eraseFor u place bank mask isOver s) := by
  have key : ∀ (l : List Nat) (s : State), SameSpares u s (l.foldl (fun a d =>
      if mask.testBit d && isOver (memCtl a u) d then eraseDevice u (place / 8) (place % 8) (some bank) d 0 a else a) s) := by
    intro l
    induction l with
    | nil => exact fun s => ⟨rfl, rfl, rfl, rfl⟩
    | cons d l ih =>
      intro s
      refine SameSpares.trans ?_ (ih _)
      dsimp only
      split
      · exact eraseDevice_sameSpares ..
      · exact ⟨rfl, rfl, rfl, rfl⟩
  exact key _ s
theorem eraseFor_none {mask : Nat} {isOver : MemCtl → Nat → Bool} (h : ∀ d, d < 10 → mask.testBit d = true → isOver (memCtl s u) d = false) :
    eraseFor u place bank mask isOver s = s := by
  refine foldl_still _ fun d hd => ?_
  rw [if_neg]
  simp only [Bool.and_eq_true, not_and, Bool.not_eq_true]
  exact h d (List.mem_range.mp hd)
/-- The one device seen in error is erased for the bank. -/
theorem eraseFor_one {d : Nat} (hd : d < 10) (he : (memCtl s u).erased = []) : ∃ e n p i, e.record.take 2 = bytesOfNat 0x106 2 ∧
    eraseFor u place bank (2 ^ d) (fun _ _ => true) s =
      { s with mem := { s.mem with ctls := smPut ctlDef s.mem.ctls u { memCtl s u with
                 erased := [{ place := place / 8, rank := place % 8, bank := some bank, dev := d }] } },
               resil := { s.resil with log := e :: s.resil.log.take 4095, logSeq := n }, pads := p, intc := i } := by
  obtain ⟨e, n, p, i, hrec, hlog⟩ := logMem_eq (s := setMemCtl u { memCtl s u with
    erased := [{ place := place / 8, rank := place % 8, bank := some bank, dev := d }] } s) 0x106
    { unit := u, flags := 0, place := place / 8, rank := place % 8, bank := bank, symbols := 2 ^ d } (by decide)
  refine ⟨e, n, p, i, hrec, foldl_one (x := d) _ List.nodup_range (List.mem_range.mpr hd) (fun y _ hy => ?_) (fun y _ hy => ?_) ?_⟩
  · simp [Nat.testBit_two_pow, Ne.symm hy]
  · simp [Nat.testBit_two_pow, Ne.symm hy]
  · simp only [Nat.testBit_two_pow_self, Bool.and_self, if_true]
    unfold eraseDevice
    simp only [he, List.any_nil, Bool.false_eq_true, if_false, List.nil_append]
    exact hlog

end Sys2Proof.Machine
end

section
/-! Memory repair, retirement and sectors (11 R279, R288 to R294). -/

namespace Sys2Proof.Machine
-- One declaration after another: each `decide +kernel` waits for the kernel's turn, and many at once would hold a thread each.
set_option Elab.async false
variable {s t : State} {u place bank row : Nat} {bad : List Nat}

/-! ### A row is spared (R291, R292) -/

/-- The errors recorded of a row. -/
def errorsOf (s : State) (u place bank row : Nat) : List RowError :=
  (memCtl s u).errors.filter fun e => decide (e.place = place ∧ e.bank = bank ∧ e.row = row)
theorem rowDue_iff : rowDue s u place bank row = true ↔ (∃ e ∈ errorsOf s u place bank row, e.ue = true) ∨
    2 ≤ (((errorsOf s u place bank row).filter fun e => decide (nowNs s < e.time + 86400000000000)).map fun e => e.col).dedup.length := by
  have herr : rowErrors s u place bank row =
      (((errorsOf s u place bank row).filter fun e => decide (nowNs s < e.time + 86400000000000)).map fun e => e.col).dedup.length := by
    rw [rowErrors, errorsOf, List.filter_filter]
    congr 3
    refine List.filter_congr fun e _ => ?_
    rw [← Bool.decide_and, decide_eq_decide, dayNs]
    exact ⟨fun ⟨h1, h2, h3, h4⟩ => ⟨h4, h1, h2, h3⟩, fun ⟨h4, h1, h2, h3⟩ => ⟨h1, h2, h3, h4⟩⟩
  rw [rowDue, herr, Bool.or_eq_true, decide_eq_true_eq, or_comm]
  refine or_congr ?_ Iff.rfl
  simp only [errorsOf, List.any_eq_true, Bool.and_eq_true, decide_eq_true_eq, List.mem_filter, and_assoc]
/-- Is a row spared already? -/
def RowSpared (s : State) (u place bank row : Nat) : Prop := ∃ x ∈ (memCtl s u).spared, x.place = place ∧ x.bank = bank ∧ x.row = row
theorem spared_any : ((memCtl s u).spared.any fun r => r.place == place && r.bank == bank && r.row == row) = true ↔ RowSpared s u place bank row := by
  simp [RowSpared, and_assoc]

/-- The row's lines have been copied: the bytes are those of before, and poisoned beside what was is each line found uncorrectable. -/
def RowCopied (s : State) (u place bank row : Nat) (bad : List Nat) (t : State) : Prop :=
  SameBytes s t ∧ (∀ x ∈ bad, poisoned t (lineAt s u place bank row x) = true) ∧
    ∀ l, (∀ x ∈ bad, l ≠ lineAt s u place bank row x) → poisoned t l = poisoned s l
theorem rowCopied_of {r v : State} (hr : r.mem.bytes = s.mem.bytes ∧ r.mem.poison = s.mem.poison ∧ lineAt r = lineAt s)
    (hv : v.mem.bytes = (copyRow u place bank row bad r).mem.bytes ∧ v.mem.poison = (copyRow u place bank row bad r).mem.poison) :
    RowCopied s u place bank row bad v := by
  obtain ⟨hbytes, hpoison, hlines⟩ := hr
  obtain ⟨hvbytes, hvpoison⟩ := hv
  obtain ⟨hrows, hcopy, -⟩ := copyRow_spec (s := r) (u := u) (place := place) (bank := bank) (row := row) bad
  have hp : ∀ l, poisoned v l = true ↔ poisoned s l = true ∨ ∃ x ∈ bad, l = lineAt s u place bank row x := fun l => by
    have h := hcopy l
    rw [hlines] at h
    simpa only [poisoned, hvpoison, hpoison] using h
  refine ⟨fun a => ?_, fun x hx => (hp _).mpr (.inr ⟨x, hx, rfl⟩), fun l hl => ?_⟩
  · rw [readByte, readByte, hvbytes, hrows.bytes, hbytes]
  · rw [Bool.eq_iff_iff, hp]
    exact or_iff_left fun ⟨x, hx, h⟩ => hl x hx h

section
variable (hdue : rowDue s u place bank row = true) (hnew : ¬RowSpared s u place bank row)
include hdue hnew

theorem rowSpare_due : rowSpare u place bank row bad s =
    (let c := memCtl s u
     let p : MemPlace := { unit := u, place := place / 8, rank := place % 8, bank := bank, row := row }
     let mask := rowSymbols s u place bank row
     if u < 8 then
      match spareBankFor c (place / 8) bank with
      | some b =>
        let e : SparedRow := { place := place, bank := bank, row := row, toBank := b, spare := 23040 + spareRowsUsed c (place / 8) b, symbols := mask }
        copyRow u place bank row bad (useSpare 3 (logMem 0x103 p (setMemCtl u (takeSpareRows (place / 8) b 1 { c with spared := c.spared ++ [e] }) s)))
      | none => enterContain containMem s
     else if spareLeft s 6 = 0 then eraseFor u place bank mask (fun _ _ => true) s
     else
      let e : SparedRow := { place := place, bank := bank, row := row, toBank := bank, spare := row, symbols := mask }
      let s1 := copyRow u place bank row bad (useSpare 6 (logMem 0x105 p (setMemCtl u { c with spared := c.spared ++ [e], pprs := c.pprs + 1 } s)))
      eraseFor u place bank mask (fun c d => decide (16 ≤ deviceRows c place bank d)) s1) := by
  unfold rowSpare
  extract_lets c p mask
  rw [if_neg (by simp [hdue]), if_neg (by rw [spared_any]; exact hnew)] <;> rfl

/-- An HBM row goes to a spare row of the bank that gives one. -/
theorem rowSpare_hbm {b : Nat} (hu : u < 8) (hb : spareBankFor (memCtl s u) (place / 8) bank = some b) :
    (memCtl (rowSpare u place bank row bad s) u).spared = (memCtl s u).spared ++ [
      { place := place, bank := bank, row := row, toBank := b, spare := 23040 + smGet zeroNat (memCtl s u).spareUsed (place / 8 * 64 + b),
        symbols := rowSymbols s u place bank row }] ∧
    RowCopied s u place bank row bad (rowSpare u place bank row bad s) ∧ (bad = [] → Newest 0x103 (rowSpare u place bank row bad s)) := by
  rw [rowSpare_due hdue hnew]
  dsimp only
  rw [if_pos hu, hb]
  dsimp only
  obtain ⟨e, n, p, i, he, hlog⟩ := logMem_eq (s := setMemCtl u (takeSpareRows (place / 8) b 1 { memCtl s u with spared := (memCtl s u).spared ++
    [{ place := place, bank := bank, row := row, toBank := b, spare := 23040 + spareRowsUsed (memCtl s u) (place / 8) b,
       symbols := rowSymbols s u place bank row }] }) s) 0x103 { unit := u, place := place / 8, rank := place % 8, bank := bank, row := row } (by decide)
  rw [hlog]
  generalize hr : useSpare 3 _ = r
  have hctl : r.mem.ctls = smPut ctlDef s.mem.ctls u (takeSpareRows (place / 8) b 1 { memCtl s u with spared := (memCtl s u).spared ++
    [{ place := place, bank := bank, row := row, toBank := b, spare := 23040 + spareRowsUsed (memCtl s u) (place / 8) b,
       symbols := rowSymbols s u place bank row }] }) := by rw [← hr]; rfl
  have hnewest : r.resil.log = e :: s.resil.log.take 4095 := by rw [← hr]; rfl
  have hsame : r.mem.bytes = s.mem.bytes ∧ r.mem.poison = s.mem.poison ∧ lineAt r = lineAt s := by rw [← hr]; exact ⟨rfl, rfl, rfl⟩
  obtain ⟨hrows, -, hresil⟩ := copyRow_spec (s := r) (u := u) (place := place) (bank := bank) (row := row) bad
  refine ⟨?_, rowCopied_of hsame ⟨rfl, rfl⟩, fun h => ⟨e, _, by rw [hresil h, hnewest], he⟩⟩
  rw [memCtl_of_put _ (hrows.ctls.trans hctl)]
  rfl
theorem rowSpare_exhausted (hu : u < 8) (hb : spareBankFor (memCtl s u) (place / 8) bank = none) :
    rowSpare u place bank row bad s = enterContain containMem s := by
  rw [rowSpare_due hdue hnew]
  dsimp only
  rw [if_pos hu, hb]

/-- A DDR row is repaired in place. -/
theorem rowSpare_ddr (hu : ¬u < 8) (hl : spareLeft s 6 ≠ 0) :
    (memCtl (rowSpare u place bank row bad s) u).spared = (memCtl s u).spared ++
      [{ place := place, bank := bank, row := row, toBank := bank, spare := row, symbols := rowSymbols s u place bank row }] ∧
    RowCopied s u place bank row bad (rowSpare u place bank row bad s) ∧ spareLeft (rowSpare u place bank row bad s) 6 = spareLeft s 6 - 1 ∧
    ((∀ d, d < 10 → (rowSymbols s u place bank row).testBit d = true → deviceRows (memCtl s u) place bank d < 15) →
      (memCtl (rowSpare u place bank row bad s) u).erased = (memCtl s u).erased ∧ (bad = [] → Newest 0x105 (rowSpare u place bank row bad s))) := by
  rw [rowSpare_due hdue hnew]
  dsimp only
  rw [if_neg hu, if_neg hl]
  obtain ⟨e, n, p, i, he, hlog⟩ := logMem_eq (s := setMemCtl u { memCtl s u with pprs := (memCtl s u).pprs + 1, spared := (memCtl s u).spared ++
    [{ place := place, bank := bank, row := row, toBank := bank, spare := row, symbols := rowSymbols s u place bank row }] } s)
    0x105 { unit := u, place := place / 8, rank := place % 8, bank := bank, row := row } (by decide)
  rw [hlog]
  generalize hr : useSpare 6 _ = r
  have hctl : r.mem.ctls = smPut ctlDef s.mem.ctls u { memCtl s u with pprs := (memCtl s u).pprs + 1, spared := (memCtl s u).spared ++
    [{ place := place, bank := bank, row := row, toBank := bank, spare := row, symbols := rowSymbols s u place bank row }] } := by rw [← hr]; rfl
  have hnewest : r.resil.log = e :: s.resil.log.take 4095 := by rw [← hr]; rfl
  have hsame : r.mem.bytes = s.mem.bytes ∧ r.mem.poison = s.mem.poison ∧ lineAt r = lineAt s := by rw [← hr]; exact ⟨rfl, rfl, rfl⟩
  have hspare : smGet spareTotal r.resil.spareLeft 6 = spareLeft s 6 - 1 := by rw [← hr]; exact smGet_smPut_same ..
  obtain ⟨hrows, -, hresil⟩ := copyRow_spec (s := r) (u := u) (place := place) (bank := bank) (row := row) bad
  have hcopied := memCtl_of_put _ (hrows.ctls.trans hctl)
  obtain ⟨hbytes, hpoison, hspared, hhard⟩ := eraseFor_sameSpares (s := copyRow u place bank row bad r) (u := u) (place := place) (bank := bank)
    (rowSymbols s u place bank row) fun c d => decide (16 ≤ deviceRows c place bank d)
  refine ⟨by rw [hspared, hcopied], rowCopied_of hsame ⟨hbytes, hpoison⟩, ?_, fun hfew => ?_⟩
  · rw [hhard, spareLeft, hrows.spares, hspare]
  · rw [eraseFor_none]
    · exact ⟨by rw [hcopied], fun h => ⟨e, _, by rw [hresil h, hnewest], he⟩⟩
    · intro d hd hmask
      have hrow : deviceRows (memCtl (copyRow u place bank row bad r) u) place bank d ≤ deviceRows (memCtl s u) place bank d + 1 := by
        rw [hcopied, deviceRows, deviceRows, List.filter_append, List.length_append]
        exact Nat.add_le_add_left (List.length_filter_le ..) _
      have := hfew d hd hmask
      simp only [decide_eq_false_iff_not]
      omega
end

/-! ### A bank is spared (R291) -/

/-- The spare rows that are left in each of some banks. -/
def rowsLeft (pc : Nat) (bs : List Nat) (c : MemCtl) : List Nat :=
  (bs.filter fun b => !c.sparedBanks.contains (pc, b)).map fun b => 1536 - smGet zeroNat c.spareUsed (pc * 64 + b)
theorem rowsLeft_taken {pc b k : Nat} {bs : List Nat} {c : MemCtl} (hb : b ∉ bs) : rowsLeft pc bs (takeSpareRows pc b k c) = rowsLeft pc bs c := by
  refine List.map_congr_left fun x hx => ?_
  have hne : pc * 64 + x ≠ pc * 64 + b := fun h => hb (by
    have hxb : x = b := by omega
    exact hxb ▸ (List.mem_filter.mp hx).1)
  rw [takeSpareRows, smGet_smPut_other _ _ _ hne]
theorem takeFrom_spec (pc : Nat) : ∀ (bs : List Nat) (n : Nat) (c : MemCtl), bs.Nodup →
    ∃ m, takeFrom pc bs n c = (n - (rowsLeft pc bs c).sum, { c with spareUsed := m })
  | [], _, _, _ => ⟨_, rfl⟩
  | b :: bs, n, c, hnd => by
    obtain ⟨hb, hbs⟩ := List.nodup_cons.mp hnd
    obtain ⟨m, h⟩ := takeFrom_spec pc bs (n - if c.sparedBanks.contains (pc, b) then 0 else min n (1536 - spareRowsUsed c pc b))
      (takeSpareRows pc b (if c.sparedBanks.contains (pc, b) then 0 else min n (1536 - spareRowsUsed c pc b)) c) hbs
    refine ⟨m, h.trans ?_⟩
    rw [rowsLeft_taken hb]
    refine Prod.ext ?_ rfl
    cases hc : c.sparedBanks.contains (pc, b) with
    | true => simp only [if_true, rowsLeft, List.filter_cons, hc, Bool.not_true, Bool.false_eq_true, if_false, Nat.sub_zero]
    | false =>
      simp only [Bool.false_eq_true, if_false, rowsLeft, List.filter_cons, hc, Bool.not_false, if_true, List.map_cons, List.sum_cons, spareRowsUsed]
      omega

/-! ### Sectors (R279) -/

theorem findReg_hmcSeccmd : ∀ n : Fin 8, findReg (ctlBase n.val + 0x120) =
    some ({ name := .hmcSeccmd, off := 0x2000120, dims := [(0x100000, 8)], acc := .wo, bits := 0xf0000007, keeper := true }, [n.val]) := by decide +kernel

theorem sector_bits {c : BitVec 8} {x j : Nat} (hj : j < 8) :
    (c ||| BitVec.ofNat 8 (2 ^ x)).getLsbD j = (if j = x then true else c.getLsbD j) ∧
    (c &&& ~~~(BitVec.ofNat 8 (2 ^ x))).getLsbD j = if j = x then false else c.getLsbD j := by
  have hbit : (BitVec.ofNat 8 (2 ^ x)).getLsbD j = decide (j = x) := by
    rw [BitVec.getLsbD_ofNat, Nat.testBit_two_pow]
    simp [hj, eq_comm]
  simp only [BitVec.getLsbD_or, BitVec.getLsbD_and, BitVec.getLsbD_not, hbit, hj, decide_true, Bool.true_and]
  by_cases h : j = x
  · simp [h]
  · simp [h]

/-- A sector is set to a mode in one controller more. -/
def sectorSetAt (j mode : Nat) (s : State) (n : Nat) : State :=
  setReg (hmcSecOff n j) (BitVec.ofNat 32 (2 ^ 31 + mode)) (setMemCtl n { memCtl s n with stopped := (memCtl s n).stopped &&& ~~~(BitVec.ofNat 8 (2 ^ j)) } s)
theorem sectorSet_foldl {j mode : Nat} (hj : j < 8) (ns : List Nat) (s : State) :
    (∀ n, reg (ns.foldl (sectorSetAt j mode) s) (hmcSecOff n j) = if n ∈ ns then BitVec.ofNat 32 (2 ^ 31 + mode) else reg s (hmcSecOff n j)) ∧
    (∀ n, n ∈ ns ∨ (memCtl s n).stopped.getLsbD j = false → (memCtl (ns.foldl (sectorSetAt j mode) s) n).stopped.getLsbD j = false) ∧
    (ns.foldl (sectorSetAt j mode) s).mem.bytes = s.mem.bytes := by
  induction ns generalizing s with
  | nil => exact ⟨fun n => by simp, fun n h => h.resolve_left (List.not_mem_nil), rfl⟩
  | cons m ns ih =>
    obtain ⟨hreg, hstop, hbytes⟩ := ih (sectorSetAt j mode s m)
    refine ⟨fun n => ?_, fun n h => ?_, hbytes⟩
    · rw [List.foldl_cons, hreg]
      have hone : reg (sectorSetAt j mode s m) (hmcSecOff n j) = if n = m then BitVec.ofNat 32 (2 ^ 31 + mode) else reg s (hmcSecOff n j) := by
        have hoff : hmcSecOff n j = hmcSecOff m j ↔ n = m := by simp only [hmcSecOff]; omega
        exact (smGet_smPut ..).trans (by simp only [hoff]; rfl)
      rw [hone]
      by_cases hn : n ∈ ns
      · simp [hn]
      · by_cases hm : n = m
        · simp [hm]
        · simp [hn, hm]
    · have hone : memCtl (sectorSetAt j mode s m) n =
          if n = m then { memCtl s m with stopped := (memCtl s m).stopped &&& ~~~(BitVec.ofNat 8 (2 ^ j)) } else memCtl s n := smGet_smPut ..
      refine hstop n ?_
      rw [hone]
      by_cases hm : n = m
      · rw [if_pos hm]
        exact .inr ((sector_bits hj).2.trans (if_pos rfl))
      · rw [if_neg hm]
        exact h.imp_left fun h => (List.mem_cons.mp h).resolve_left hm

/-! ### What gives a spare row -/

/-- A bank of a pseudo-channel has a spare row left. -/
def GivesRow (c : MemCtl) (pc b : Nat) : Prop := smGet zeroNat c.spareUsed (pc * 64 + b) < 1536 ∧ (pc, b) ∉ c.sparedBanks
section
variable {c : MemCtl} {pc b : Nat}
theorem givesRow_iff : (decide (spareRowsUsed c pc b < 1536) && !c.sparedBanks.contains (pc, b)) = true ↔ GivesRow c pc b := by
  rw [Bool.and_eq_true, decide_eq_true_eq, Bool.not_eq_true', ← Bool.not_eq_true, List.contains_iff_mem]
  rfl
theorem spareBankFor_own (h : GivesRow c pc bank) : spareBankFor c pc bank = some bank := List.find?_cons_of_pos (givesRow_iff.mpr h)
theorem spareBankFor_first (h : ¬GivesRow c pc bank) (hb : b < 64) (hg : GivesRow c pc b) (hl : ∀ x, x < b → ¬GivesRow c pc x) :
    spareBankFor c pc bank = some b := by
  refine (List.find?_cons_of_neg (p := fun b => decide (spareRowsUsed c pc b < 1536) && !c.sparedBanks.contains (pc, b)) fun h' => h (givesRow_iff.mp h')).trans (List.find?_range_eq_some.mpr ⟨givesRow_iff.mpr hg, List.mem_range.mpr hb, fun x hx => by
    rw [Bool.not_eq_true', ← Bool.not_eq_true]
    exact fun h' => hl x hx (givesRow_iff.mp h')⟩)
theorem spareBankFor_none (h : ¬GivesRow c pc bank) (hl : ∀ x, x < 64 → ¬GivesRow c pc x) : spareBankFor c pc bank = none := by
  refine (List.find?_cons_of_neg (p := fun b => decide (spareRowsUsed c pc b < 1536) && !c.sparedBanks.contains (pc, b)) fun h' => h (givesRow_iff.mp h')).trans (List.find?_eq_none.mpr fun x hx h' => ?_)
  exact hl x (List.mem_range.mp hx) (givesRow_iff.mp h')
end

/-! ### The commands -/

/-- The one device seen in error in a row is erased, where no hard repair is left (R288, R291). -/
theorem rowSpare_erases {d : Nat} (hdue : rowDue s u place bank row = true) (hnew : ¬RowSpared s u place bank row) (hu : ¬u < 8) (hd : d < 10)
    (hl : spareLeft s 6 = 0) (hmask : rowSymbols s u place bank row = 2 ^ d) (he : (memCtl s u).erased = []) :
    let t := rowSpare u place bank row bad s
    (memCtl t u).erased = [{ place := place / 8, rank := place % 8, bank := some bank, dev := d }] ∧ (memCtl t u).spared = (memCtl s u).spared ∧
      Newest 0x106 t ∧ SameBytes s t := by
  dsimp only
  rw [rowSpare_due hdue hnew]
  dsimp only
  rw [if_neg hu, if_pos hl, hmask]
  obtain ⟨e, n, p, i, hrec, h⟩ := eraseFor_one (place := place) (bank := bank) hd he
  rw [h]
  refine ⟨?_, ?_, ⟨e, _, rfl, hrec⟩, fun _ => rfl⟩
  · rw [memCtl_of_put _ rfl]
  · rw [memCtl_of_put _ rfl]

theorem bankSpare_still {pc : Nat} (h : 8 ≤ u ∨ ((memCtl s u).spared.filter fun r => r.place / 8 == pc && r.bank == bank).length ≤ 64 ∨
    (pc, bank) ∈ (memCtl s u).sparedBanks) : bankSpare u pc bank s = s := by
  refine if_pos ?_
  rw [List.contains_iff_mem]
  exact h.imp_right Or.symm
section
variable {pc : Nat} (hu : u < 8) (hrows : 64 < ((memCtl s u).spared.filter fun r => r.place / 8 == pc && r.bank == bank).length)
  (hnew : (pc, bank) ∉ (memCtl s u).sparedBanks)
include hu hrows hnew
theorem bankSpare_due : bankSpare u pc bank s =
    if 4 ≤ ((memCtl s u).sparedBanks.filter fun b => b.1 == pc).length ∨
      (rowsLeft pc ((List.range 64).filter fun b => b != bank) (memCtl s u)).sum < 23040 then enterContain containMem s
    else useSpare 4 (logMem 0x104 { unit := u, place := pc, rank := bank / 16, bank := bank } (setMemCtl u
      { (takeFrom pc ((List.range 64).filter fun b => b != bank) 23040 (memCtl s u)).2 with
        sparedBanks := (memCtl s u).sparedBanks ++ [(pc, bank)] } s)) := by
  obtain ⟨m, htake⟩ := takeFrom_spec pc ((List.range 64).filter fun b => b != bank) 23040 (memCtl s u) (List.nodup_range.filter _)
  unfold bankSpare
  extract_lets c x
  have hx : x.1 = 23040 - (rowsLeft pc ((List.range 64).filter fun b => b != bank) (memCtl s u)).sum := congrArg Prod.fst htake
  rw [if_neg (by rw [List.contains_iff_mem]; exact fun h => h.elim (fun h => absurd hu (Nat.not_lt.mpr h)) fun h => h.elim hnew fun h => absurd hrows (Nat.not_lt.mpr h))]
  by_cases hfour : 4 ≤ ((memCtl s u).sparedBanks.filter fun b => b.1 == pc).length
  · rw [if_pos hfour, if_pos (.inl hfour)]
  · rw [if_neg hfour]
    by_cases hsum : (rowsLeft pc ((List.range 64).filter fun b => b != bank) (memCtl s u)).sum < 23040
    · rw [if_pos (by rw [hx]; omega), if_pos (.inr hsum)]
    · rw [if_neg (by rw [hx]; omega), if_neg (by rintro (h | h); exacts [hfour h, hsum h])]
theorem bankSpare_moves (hfour : ((memCtl s u).sparedBanks.filter fun b => b.1 == pc).length < 4)
    (hsum : 23040 ≤ (rowsLeft pc ((List.range 64).filter fun b => b != bank) (memCtl s u)).sum) :
    (memCtl (bankSpare u pc bank s) u).sparedBanks = (memCtl s u).sparedBanks ++ [(pc, bank)] ∧ Newest 0x104 (bankSpare u pc bank s) ∧
      SameBytes s (bankSpare u pc bank s) := by
  rw [bankSpare_due hu hrows hnew, if_neg (by rintro (h | h) <;> omega)]
  generalize (takeFrom pc ((List.range 64).filter fun b => b != bank) 23040 (memCtl s u)).2 = c
  obtain ⟨e, n, p, i, hrec, h⟩ := logMem_eq (s := setMemCtl u { c with sparedBanks := (memCtl s u).sparedBanks ++ [(pc, bank)] } s) 0x104
    { unit := u, place := pc, rank := bank / 16, bank := bank } (by decide)
  rw [h]
  refine ⟨?_, ⟨e, _, rfl, hrec⟩, fun _ => rfl⟩
  rw [memCtl_of_put (useSpare 4 _) rfl]
end

/-- The left rows of R291 as the rule counts them: of the banks not spared, but the one to spare. -/
theorem rowsLeft_others (pc : Nat) (c : MemCtl) : rowsLeft pc ((List.range 64).filter fun b => b != bank) c =
    ((List.range 64).filter fun b => b != bank && !c.sparedBanks.contains (pc, b)).map fun b => 1536 - smGet zeroNat c.spareUsed (pc * 64 + b) := by
  rw [rowsLeft, List.filter_filter]
  congr 2
  exact funext fun b => Bool.and_comm ..

/-- A retirement through the reserve (R293, R294): what it takes of it, and its record; CONTAIN where the reserve does not suffice. -/
theorem retires_of {dimm : Nat} {rank k : Option Nat} {need : Nat} (hm : ∀ x ∈ retirementsOf s u dimm, x.rank ≠ none ∧ x.rank ≠ rank)
    (hk : k = if rank.isNone || !(retirementsOf s u dimm).isEmpty then none else rank)
    (hw : k = none ↔ (rank.isNone || !(retirementsOf s u dimm).isEmpty) = true)
    (hneed : need = retireNeed s u dimm (rank.isNone || !(retirementsOf s u dimm).isEmpty)) :
    (need ≤ s.mem.reserveFree → let t := retireUnit u dimm rank s
      t.mem.reserveFree = s.mem.reserveFree - need ∧ SameBytes s t ∧ Newest (if k = none then 0x108 else 0x107) t ∧
        (memCtl t u).retired = (memCtl s u).retired ++
          [{ dimm := dimm, rank := k, pointer := 0, total := need, done := false, base := reserveStart s }]) ∧
    (s.mem.reserveFree < need → (retireUnit u dimm rank s).resil.contain.getLsbD 1 = true ∧ (retireUnit u dimm rank s).mem = s.mem) := by
  refine ⟨fun hf => ?_, fun hf => ?_⟩
  · obtain ⟨e, n, p, i, used, v, hrec, h⟩ := retireUnit_new hm rfl hneed hf
    dsimp only
    rw [h]
    refine ⟨rfl, fun _ => rfl, ⟨e, _, rfl, ?_⟩, ?_⟩
    · rw [hrec]
      simp only [hw]
    · rw [memCtl_of_put _ rfl, hk]
  · rw [retireUnit_short hm (hneed ▸ hf)]
    exact enterContain_memory s

theorem reserveCopyDone_first {x : Retirement} {rest : List Retirement} (h : (memCtl s u).retired = x :: rest) (hd : x.done = false) :
    (memCtl (reserveCopyDone u s) u).retired = { x with pointer := x.total, done := true } :: rest ∧ SameBytes s (reserveCopyDone u s) ∧
      (reserveArmed s = false → Newest 0x10A (reserveCopyDone u s)) := by
  have hfin : finishFirst (memCtl s u).retired = { x with pointer := x.total, done := true } :: rest := by
    rw [h, finishFirst, if_neg (by simp [hd])]
  unfold reserveCopyDone
  rw [if_neg (by simp [h, hd])]
  extract_lets lines _ s1
  have hctl : memCtl s1 u = { memCtl s u with retired := finishFirst (memCtl s u).retired } := smGet_smPut_same ..
  obtain ⟨e, n, p, i, hrec, hlog⟩ := logMem_eq (s := s1) 0x10A { unit := u } (by decide)
  split
  next harm => exact ⟨by rw [hctl, hfin], fun _ => rfl, fun hno => absurd (show reserveArmed s = true from harm) (by simp [hno])⟩
  next =>
    rw [hlog]
    exact ⟨(congrArg MemCtl.retired hctl).trans hfin, fun _ => rfl, fun _ => ⟨e, _, rfl, hrec⟩⟩

/-! ### Sectors -/

section
variable {w : Writer} {n : Fin 8} {x : BitVec 28}

theorem fld_secWord (op : Nat) (hop : op < 16) (hx : x.toNat < 8) :
    fld (opWord op x) 31 28 = op ∧ fld (opWord op x) 27 3 = 0 ∧ fld (opWord op x) 2 0 = x.toNat := by
  simp only [fld, natBits, opWord, BitVec.toNat_ofNat]
  omega
/-- What stopping or starting a sector of a controller leaves. -/
theorem sector_commands {i : Instr} {op : Nat} (hop : op = 1 ∨ op = 2) (hi : exec i s = .next (sdc w (ctlBase n.val + 0x120) (opWord op x) s))
    (hr : Reaches w 2 0 (ctlBase n.val + 0x120) s) (hx : x.toNat < 8) :
    Commands i w (ctlBase n.val + 0x120) (BitVec.ofNat 32 (op * 2 ^ 28 + x.toNat)) s fun v =>
      (∀ j, j < 8 → (memCtl v n.val).stopped.getLsbD j = if j = x.toNat then decide (op = 1) else (memCtl s n.val).stopped.getLsbD j) ∧
      { memCtl v n.val with stopped := 0 } = { memCtl s n.val with stopped := 0 } ∧ (∀ m, m ≠ n.val → memCtl v m = memCtl s m) ∧
      { v with mem := { v.mem with ctls := s.mem.ctls } } = s := by
  have ho : Orders i w { name := .hmcSeccmd, off := 0x2000120, dims := [(0x100000, 8)], acc := .wo, bits := 0xf0000007, keeper := true } [n.val]
      (ctlBase n.val + 0x120) (opWord op x) s := ⟨findReg_hmcSeccmd n, hi, rfl, rfl, by decide, hr⟩
  obtain ⟨h1, h2, h3⟩ := fld_secWord (x := x) op (by omega) hx
  generalize hbits : (if op = 1 then (memCtl s n.val).stopped ||| BitVec.ofNat 8 (2 ^ x.toNat)
    else (memCtl s n.val).stopped &&& ~~~(BitVec.ofNat 8 (2 ^ x.toNat))) = bits
  refine ho.commands (u := setMemCtl n.val { memCtl s n.val with stopped := bits } s) ?_ ⟨fun j hj => ?_, ?_, fun m hm => ?_, rfl⟩
  · show hmcSecCmd n.val (opWord op x) s = _
    rw [hmcSecCmd, h1, h2, h3, if_neg (by omega), ← hbits]
    rfl
  · rw [memCtl_of_put (setMemCtl ..) rfl, ← hbits]
    obtain rfl | rfl := hop
    · rw [if_pos rfl, (sector_bits hj).1]
      rfl
    · rw [if_neg (by decide), (sector_bits hj).2]
      rfl
  · rw [memCtl_of_put (setMemCtl ..) rfl]
  · exact smGet_smPut_other _ _ _ hm
end

section
variable {lc : LC}

theorem sets_sector (hc : Called lc 0x200 s) : let j := argOf lc s 2; let mode := argOf lc s 3; let base := slotOf s * 2 ^ 44 + 8 * j * 0x168000000
    (j < 8 → mode < 2 → s.ctl.inFlight = false → Serves (.memSectorSet lc) lc s 0 none fun v =>
        (∀ n, n < 8 → reg v (0x2000100 + 0x100000 * n + 4 * j) = BitVec.ofNat 32 (2 ^ 31 + mode) ∧ (memCtl v n).stopped.getLsbD j = false) ∧
        (∀ l, base ≤ 64 * l → 64 * l < base + 8 * 0x168000000 → poisoned v l = false) ∧
        (∀ a, readByte v a = if base ≤ a ∧ a < base + 8 * 0x168000000 then 0 else readByte s a)) ∧
      (7 < j ∨ 1 < mode → Serves (.memSectorSet lc) lc s 3 none fun v => v = s) ∧
      (j < 8 → mode < 2 → s.ctl.inFlight = true → Serves (.memSectorSet lc) lc s 7 none fun v => v = s) := by
  intro j mode base
  have hexec : exec (.memSectorSet lc) s = .next (service 0x200 lc (fun a s => plain (memSectorSet (a 2) (a 3) s)) s) := rfl
  have hj : regArg lc s 2 = j := argOf_2.symm
  have hmode : regArg lc s 3 = mode := argOf_3.symm
  refine ⟨fun h1 h2 h3 => ?_, fun h => ?_, fun h1 h2 h3 => ?_⟩
  · obtain ⟨hreg, hstop, hbytes⟩ := sectorSet_foldl (mode := mode) h1 (List.range 8) s
    generalize hs1 : (List.range 8).foldl (sectorSetAt j mode) s = s1 at *
    refine serves_of (r := none) hc (by decide) hexec (u := zeroBytes base (8 * bandSize) { s1 with mem := { s1.mem with
      poison := s1.mem.poison.filter fun e => decide (64 * e.1 < base ∨ base + 8 * bandSize ≤ 64 * e.1) } }) ?_ rfl
      ⟨fun n hn => ⟨(hreg n).trans (if_pos (List.mem_range.mpr hn)), hstop n (.inl (List.mem_range.mpr hn))⟩, fun l hlo hhi => ?_, fun a => ?_⟩
    · dsimp only
      rw [hj, hmode, memSectorSet, if_neg (by omega), if_neg (by simp [h3])]
      rw [← hs1]
      rfl
    · have hdrop : ¬(64 * l < base ∨ base + 8 * bandSize ≤ 64 * l) := by
        have hb : bandSize = 0x168000000 := rfl
        omega
      show smGet boolDef (List.filter _ (List.filter _ _)) l = false
      rw [smGet_filter_in boolDef _ (fun k => decide (64 * k + 64 ≤ base ∨ base + 8 * bandSize ≤ 64 * k)),
        smGet_filter_in boolDef _ (fun k => decide (64 * k < base ∨ base + 8 * bandSize ≤ 64 * k))]
      simp only [hdrop, decide_false, Bool.false_eq_true, if_false, boolDef, ite_self]
    · rw [readByte_zeroBytes]
      refine if_congr Iff.rfl rfl ?_
      exact congrArg (smGet byteDef · a) hbytes
  · refine refuses_of hc (by decide) hexec ?_
    rw [hj, hmode, memSectorSet, if_pos h]
    rfl
  · refine refuses_of hc (by decide) hexec ?_
    rw [hj, hmode, memSectorSet, if_neg (by omega), if_pos h3]
    rfl

theorem gives_reserve (hc : Called lc 0x201 s) (hn : argOf lc s 3 ≠ 0) (hna : argOf lc s 3 % 0x200000 = 0) (hla : argOf lc s 2 % 0x200000 = 0)
    (hbase : argOf lc s 2 + argOf lc s 3 = reserveBase s) (hlo : slotOf s * 2 ^ 44 + 0x10000000000 ≤ argOf lc s 2)
    (hcoded : pagesCoded s (argOf lc s 2) (argOf lc s 3) 0 = true) (hmap : mappedOpen s (argOf lc s 2) (argOf lc s 2 + argOf lc s 3) = false) :
    Serves (.memDdrGive lc) lc s 0 none fun v => SameBytes s v ∧ v.mem.reserveTotal = s.mem.reserveTotal + argOf lc s 3 / 2 ^ 20 ∧
      v.mem.reserveFree = s.mem.reserveFree + argOf lc s 3 / 2 ^ 20 ∧ ∀ n, (coreOf v n).regs = (coreOf s n).regs := by
  have hexec : exec (.memDdrGive lc) s = .next (service 0x201 lc memDdrGive s) := rfl
  generalize hj : argOf lc s 2 = lo at *
  generalize hm : argOf lc s 3 = n at *
  have h2 : regArg lc s 2 = lo := argOf_2.symm.trans hj
  have h3 : regArg lc s 3 = n := argOf_3.symm.trans hm
  obtain ⟨hcores, -⟩ := purgeRange_spec lo (lo + n) s
  obtain ⟨v, i, hset⟩ := setReserve_eq (s.mem.reserveTotal + n / 2 ^ 20) (s.mem.reserveFree + n / 2 ^ 20) (purgeRange lo (lo + n) s)
  refine serves_of (r := none) hc (by decide) hexec (u := setReserve (s.mem.reserveTotal + n / 2 ^ 20) (s.mem.reserveFree + n / 2 ^ 20)
    (purgeRange lo (lo + n) s)) ?_ rfl ?_
  · unfold memDdrGive
    extract_lets l m s1 k
    have hl : l = lo := h2
    have hmn : m = n := h3
    have hb : ddrBase = 0x10000000000 := rfl
    have hok : ¬(m = 0 ∨ l % 0x200000 ≠ 0 ∨ m % 0x200000 ≠ 0 ∨ l + m ≠ reserveBase s ∨ l < slotOf s * 2 ^ 44 + ddrBase ∨
        (!pagesCoded s l m 0) = true ∨ mappedOpen s l (l + m) = true) := by
      rw [hl, hmn, hcoded, hmap, hb]
      simp only [Bool.not_true, Bool.false_eq_true, or_false, not_or]
      exact ⟨hn, not_not.mpr hla, not_not.mpr hna, not_not.mpr hbase, Nat.not_lt.mpr hlo⟩
    rw [if_neg hok]
    have hs1 : s1 = purgeRange lo (lo + n) s := by rw [← hl, ← hmn]
    have hk : k = n / 2 ^ 20 := by rw [← hmn]
    rw [hs1, hk]
    rfl
  · rw [hset]
    exact ⟨fun _ => rfl, rfl, rfl, fun m => (hcores m).1⟩
end

/-- Settles O40: the spare of a row through the bank that gives one, the retirement by what the reserve holds, the sectors by their bits. -/
theorem memoryRepairsAndSectors : Obligations.MemoryRepairsAndSectors := by
  unfold Obligations.MemoryRepairsAndSectors
  refine ⟨?_, ?_, ?_, ?_, fun s u => ⟨fun x rest h hd => ⟨_, rfl, reserveCopyDone_first h hd⟩, fun h => ?_⟩, fun w n x s hr hx => ?_, fun lc s => ?_⟩
  · intro s u place bank row bad c mine due mask spared gives copied takes
    have hdue : rowDue s u.val place bank row = true ↔ due := rowDue_iff
    refine ⟨fun h => ?_, fun h1 h2 hu => ⟨fun hg => ?_, fun hg b hb hgb hl => ?_, fun hg hl => ?_⟩,
      fun h1 h2 hu => ⟨fun hl => ?_, fun d hd hl hmask he => ?_⟩⟩
    · show (.next (rowSpare ..) : Out) = _
      congr 1
      unfold rowSpare
      obtain h | h := h
      · exact if_pos (by simpa using fun h' => h (hdue.mp h'))
      · exact ite_eq_left_iff.mpr fun _ => if_pos (spared_any.mpr h)
    · obtain ⟨hs, hcopy, hnew⟩ := rowSpare_hbm (bad := bad) (hdue.mpr h1) h2 hu (spareBankFor_own hg)
      exact ⟨_, rfl, ⟨hs, hcopy⟩, hnew⟩
    · obtain ⟨hs, hcopy, -⟩ := rowSpare_hbm (bad := bad) (hdue.mpr h1) h2 hu (spareBankFor_first hg hb hgb hl)
      exact ⟨_, rfl, hs, hcopy⟩
    · refine ⟨_, rfl, ?_⟩
      rw [rowSpare_exhausted (hdue.mpr h1) h2 hu (spareBankFor_none hg hl)]
      exact enterContain_memory s
    · obtain ⟨hs, hcopy, hleft, hnew⟩ := rowSpare_ddr (bad := bad) (hdue.mpr h1) h2 (Nat.not_lt.mpr hu) hl
      exact ⟨_, rfl, ⟨hs, hcopy⟩, hleft, hnew⟩
    · exact ⟨_, rfl, rowSpare_erases (hdue.mpr h1) h2 (Nat.not_lt.mpr hu) hd hl hmask he⟩
  · intro s u pc bank c rows left four
    have hleft : rowsLeft pc ((List.range 64).filter fun b => b != bank) (memCtl s u.val) = left := rowsLeft_others ..
    refine ⟨fun h => congrArg _ (bankSpare_still h), fun hu hrows hnew => ⟨fun hfour hsum => ⟨_, rfl, ?_⟩, fun h => ⟨_, rfl, ?_⟩⟩⟩
    · exact bankSpare_moves hu hrows hnew hfour (hleft ▸ hsum)
    · rw [bankSpare_due hu hrows hnew, if_pos (h.imp Nat.le_of_not_lt (hleft ▸ ·))]
      exact enterContain_memory s
  · intro s u dimm rank k sym hu c whole base retires
    have hrank : ∀ rk, exec (.rankRetire u dimm rk) s = .next (retireUnit u.val dimm (some rk) s) := fun rk => if_neg (Nat.not_lt.mpr hu)
    have hdimm : exec (.dimmRetire u dimm) s = .next (retireUnit u.val dimm none s) := if_neg (Nat.not_lt.mpr hu)
    have hretires : ∀ {i : Instr} {rk k : Option Nat} {need : Nat}, exec i s = .next (retireUnit u.val dimm rk s) →
        (∀ x ∈ retirementsOf s u.val dimm, x.rank ≠ none ∧ x.rank ≠ rk) →
        (k = if rk.isNone || !(retirementsOf s u.val dimm).isEmpty then none else rk) →
        (k = none ↔ (rk.isNone || !(retirementsOf s u.val dimm).isEmpty) = true) →
        need = retireNeed s u.val dimm (rk.isNone || !(retirementsOf s u.val dimm).isEmpty) → retires i k need := by
      intro i rk k need hi hm hk hw hneed
      obtain ⟨htake, hshort⟩ := retires_of hm hk hw hneed
      exact ⟨fun h => ⟨_, hi, htake h⟩, fun h => ⟨_, hi, hshort h⟩⟩
    refine ⟨fun hnone => ?_, fun r hr hd hrk hne => ?_, fun r hr hd => ⟨fun h => ?_, fun h => ?_⟩, ?_⟩
    · have hempty : retirementsOf s u.val dimm = [] := List.filter_eq_nil_iff.mpr fun r hr h => hnone r hr (beq_iff_eq.mp h)
      refine ⟨hretires hdimm ?_ ?_ ?_ ?_, hretires (hrank rank) ?_ ?_ ?_ ?_⟩ <;> simp [hempty, retireNeed, whole, dimmMib]
    · have hone : retirementsOf s u.val dimm = [r] := by
        rw [retirementsOf, show (memCtl s u.val).retired = [r] from hr]
        simp [hd]
      refine hretires (hrank rank) ?_ ?_ ?_ ?_ <;> simp [hone, retireNeed, whole, dimmMib, hrk, hne]
    · rw [hrank, retireUnit_again hr hd (h.imp id id)]
    · rw [hdimm, retireUnit_again hr hd (.inl h)]
    · refine ⟨_, if_neg (Nat.not_lt.mpr hu), ?_, ?_, fun hm => newest_logMem _ _ (by decide) rfl hm⟩
      · exact (logNow_logMem ..).mem
      · exact (logNow_logMem ..).cores
  · intro s u dimm rank sym hu i hi
    simp only [List.mem_cons, List.not_mem_nil, or_false] at hi
    obtain rfl | rfl | rfl := hi
    · exact if_pos hu
    · exact if_pos hu
    · exact if_pos hu
  · show (.next (reserveCopyDone ..) : Out) = _
    rw [reserveCopyDone, if_pos (List.all_eq_true.mpr h)]
  · exact ⟨sector_commands (.inl rfl) rfl hr hx, sector_commands (.inr rfl) rfl hr hx⟩
  · exact ⟨sets_sector, gives_reserve⟩

end Sys2Proof.Machine
end

section
/-! What sending leaves of the ports (15 R376 to R390): a message sent, a letter delivered and an answer taken change no port but in its frames,
its credits and its link power. -/

namespace Sys2Proof.Machine
variable {s t : State}

/-- A port beside its frames, its credits and its link power. -/
def kept (x : Port) : Port :=
  { x with txSeq := 0, retryBuf := [], ackKind := 0, pwr := .active, credits := [], retries := 0, sleepReq := false, sleepAgreed := false }
/-- Every port is the same beside those, and the same devices are joined. -/
structure Sent (s t : State) : Prop where
  ports : ∀ q, kept (port t q) = kept (port s q)
  peers : t.links.peers = s.links.peers
namespace Sent
theorem refl (s : State) : Sent s s := ⟨fun _ => rfl, rfl⟩
theorem trans {u : State} (h : Sent s t) (h' : Sent t u) : Sent s u := ⟨fun q => (h'.ports q).trans (h.ports q), h'.peers.trans h.peers⟩
theorem after {u : State} (h' : Sent t u) (h : Sent s t) : Sent s u := h.trans h'
theorem of_links (h : t.links = s.links) : Sent s t := ⟨fun q => by rw [port, port, h], by rw [h]⟩
theorem of_ports (h : t.links.ports = s.links.ports) (hp : t.links.peers = s.links.peers) : Sent s t := ⟨fun q => by rw [port, port, h], hp⟩
theorem of_beside (h : beside t = beside s) : Sent s t :=
  of_ports (congrArg (fun x : State => x.links.ports) h :) (congrArg (fun x : State => x.links.peers) h :)
theorem of_log (h : LogNow s t) : Sent s t := by
  obtain ⟨_, _, _, rfl⟩ := h
  exact of_links rfl
theorem foldl {α : Type} (f : State → α → State) (hf : ∀ a x, Sent a (f a x)) (l : List α) (s : State) : Sent s (l.foldl f s) := by
  induction l generalizing s with
  | nil => exact .refl s
  | cons x l ih => exact (hf s x).trans (ih _)
theorem setPort {p : Nat} {x : Port} (h : kept x = kept (port s p)) : Sent s (setPort p x s) := by
  refine ⟨fun q => ?_, rfl⟩
  rw [show port (Machine.setPort p x s) q = if q = p then x else port s q from smGet_smPut ..]
  split
  next hq => rw [h, hq]
  next => rfl
theorem soCnt (h : Sent s t) (off : Nat) : Sent s (Machine.soCnt off t) := h.trans (.of_links rfl)
theorem setReg (h : Sent s t) (off : Nat) (v : Word32) : Sent s (Machine.setReg off v t) := h.trans (.of_links rfl)
theorem setQueue (h : Sent s t) (q : Nat) (x : Queue) : Sent s (Machine.setQueue q x t) := h.trans (.of_links rfl)
theorem sopInject (h : Sent s t) (q pa : Nat) : Sent s (Machine.sopInject q pa t) := h.trans (.of_links rfl)
theorem state_eq (h : Sent s t) (q : Nat) : (port t q).state = (port s q).state := (congrArg Port.state (h.ports q) :)
theorem join_eq (h : Sent s t) (q : Nat) : (port t q).join = (port s q).join := (congrArg Port.join (h.ports q) :)
theorem sweep_eq (h : Sent s t) (q : Nat) : (port t q).sweep = (port s q).sweep := (congrArg Port.sweep (h.ports q) :)
theorem degraded_eq (h : Sent s t) (q : Nat) : (port t q).degraded = (port s q).degraded := (congrArg Port.degraded (h.ports q) :)
theorem resyncWait_eq (h : Sent s t) (q : Nat) : (port t q).resyncWait = (port s q).resyncWait := (congrArg Port.resyncWait (h.ports q) :)
end Sent

/-! ### Messages -/

theorem sent_sendFrame (p : Nat) (ms : List Msg) (s : State) : Sent s (sendFrame p ms s) :=
  (Sent.setPort (x := framed (port s p) ms) rfl).trans (.of_links rfl)
theorem sent_transmit (p : Nat) (m : Msg) (s : State) : Sent s (transmit p m s) := by
  unfold transmit
  extract_lets po s1 s2
  have h1 : Sent s s1 := .setPort rfl
  have h2 : Sent s s2 := Sent.after (sent_sendFrame ..) (h1.trans (.of_links rfl))
  split
  · exact h2.trans (.of_links rfl)
  · exact h2
theorem sent_retrained (p : Nat) (s : State) : Sent s (retrained p s) := .setPort rfl
theorem sent_woken (c : Prop) [Decidable c] (p : Nat) (s : State) : Sent s (if c then retrained p s else s) := by
  split
  · exact sent_retrained ..
  · exact .refl s
theorem sent_route (expired : Bool) (m : Msg) (s : State) : Sent s (route expired m s).2 := by
  unfold route
  extract_lets dst
  split
  · exact .refl s
  · split
    · exact .of_log (logNow_logFault 0x204 5 uDevice none dst 0)
    · split
      · exact .refl s
      · split
        · exact Sent.after (sent_transmit ..) (sent_woken ..)
        · split
          · exact .refl s
          · split
            · rename_i m1 s1 _ _ _ _ _ _ _
              have h1 : Sent s s1 := sent_woken ..
              exact h1.trans (sent_transmit _ m1 s1)
            · exact sent_woken ..
theorem sent_sendMsg (m : Msg) (s : State) : Sent s (sendMsg m s).2 := by
  unfold sendMsg
  extract_lets m1 r
  have h : Sent s r.2 := sent_route ..
  split
  · exact h.trans (.of_ports rfl rfl)
  · exact h
theorem sent_giveCredit (p : Nat) (m : Msg) (s : State) : Sent s (giveCredit p m s) := by
  unfold giveCredit
  split
  · exact sent_sendFrame ..
  · exact .refl s

/-! ### Letters and reports -/

theorem sent_noteFenced (line : Nat) (s : State) : Sent s (noteFenced line s) := by
  unfold noteFenced
  split
  · split
    · exact .of_log (logNow_logFencedOnce _)
    · exact .refl s
  · exact .refl s
theorem sent_agentWriteLine (tc pa : Nat) (bs : List Byte) (s : State) : Sent s (agentWriteLine tc pa bs s) := by
  unfold agentWriteLine
  split
  · split
    · exact sent_noteFenced ..
    · split <;> exact .of_beside (beside_request ..)
  · split <;> exact .of_links rfl
theorem sent_agentWrite (tc pa : Nat) (bs : List Byte) (s : State) : Sent s (agentWrite tc pa bs s) :=
  .foldl _ (fun _ _ => sent_agentWriteLine ..) _ s
theorem sent_deadLetter {r q : Nat} {l : Letter} (h : deadLetter r q l s = some t) : Sent s t := by
  unfold deadLetter at h
  split at h
  · cases h
  · cases h
    exact ((sent_agentWrite ..).setReg ..).soCnt _
theorem sent_storeLetter {q : Nat} {l : Letter} (h : storeLetter q l s = some t) : Sent s t := by
  unfold storeLetter at h
  extract_lets x pa e y at h
  split at h
  · cases h
    exact .of_links rfl
  · split at h
    · cases h
      exact (((sent_agentWrite ..).setQueue ..).sopInject ..).soCnt _
    · cases h
theorem links_ringBell (q n : Nat) (s : State) : (ringBell q n s).links = s.links := by
  unfold ringBell
  extract_lets x m th
  split <;> split <;> rfl
theorem links_advanceCtr (c : Nat) (n : Word64) (s : State) : (advanceCtr c n s).links = s.links := by
  have key : ∀ (l : List (Nat × Slot)) (s : State), (l.foldl (fun a e => fireSlot e.1 e.2 a) s).links = s.links := by
    intro l
    induction l with
    | nil => exact fun _ => rfl
    | cons e l ih => exact fun s => (ih _).trans rfl
  exact (key ..).trans rfl
theorem links_accepted (q n : Nat) (s : State) : (accepted q n s).links = s.links := by
  unfold accepted
  extract_lets s1 x
  have h1 : s1.links = s.links := links_ringBell ..
  split
  · exact (links_advanceCtr ..).trans h1
  · exact h1
theorem sent_offer (q : Nat) (l : Letter) (s : State) : Sent s (offer q l s).2 := by
  unfold offer
  extract_lets x
  split
  · exact .refl s
  · split
    · exact .refl s
    · exact .refl s
    · exact .refl s
    · split
      · exact .refl s
      · split
        next hs => exact (sent_storeLetter hs).trans (.of_links (links_accepted ..))
        next => exact .refl s
theorem sent_report (via : Option Nat) (r : Nat) (indlr : Bool) (device : Nat) (l : Letter) (s : State) : Sent s (report via r indlr device l s) := by
  unfold report
  split
  · exact .refl s
  · extract_lets x cq rep o
    split
    · exact .refl s
    · have ho : Sent s o.2 := Sent.after (sent_offer ..) (.of_links rfl)
      split
      · exact ho
      · split
        next hd => exact ho.trans (sent_deadLetter hd)
        next => exact ho.trans (.of_links rfl)
theorem sent_deliver (q : Nat) (l : Letter) (s : State) : Sent s (deliver q l s).2 := by
  unfold deliver
  split
  · exact .of_links rfl
  · extract_lets o
    have ho : Sent s o.2 := by
      unfold o
      split
      · exact .refl s
      · exact sent_offer ..
    split
    · exact ho
    · split
      · split
        next hd => exact (ho.trans (sent_deadLetter hd)).trans (sent_report ..)
        next => exact ho.trans (.of_links rfl)
      · exact ho.trans (sent_report ..)
theorem sent_portTakes (q : Nat) (l : Letter) (s : State) : Sent s (portTakes q l s) := by
  unfold portTakes
  extract_lets x dest s1
  split
  · exact .of_links (links_accepted ..)
  · exact sent_report ..
theorem sent_sendAway (k : Nat) (sl : SendSlot) (s : State) : Sent s (sendAway k sl s) := by
  unfold sendAway
  extract_lets t ordered tc m0 rs m r
  have hr : Sent s r.2 := Sent.after (sent_sendMsg ..) (.of_ports rfl rfl)
  split
  · exact hr.trans (.of_links rfl)
  · exact hr.trans (.of_links rfl)
  · exact hr.trans (.of_links rfl)
  · exact Sent.after (sent_report ..) (hr.trans (.of_links rfl))
theorem sent_serveSender (retry : Bool) (k : Nat) (dest : BitVec 32) (s : State) : Sent s (serveSender retry k dest s) := by
  unfold serveSender
  split
  · exact .refl s
  next sl _ =>
    extract_lets q sentOn s1 _ l d
    have h1 : Sent s s1 := by
      refine .of_links ?_
      unfold s1
      split <;> rfl
    split
    · exact sent_sendAway ..
    · split
      · exact Sent.after (sent_portTakes ..) (h1.trans (.of_links rfl))
      · have hd : Sent s d.2 := h1.trans (sent_deliver ..)
        split
        · exact hd.trans (.of_links rfl)
        · exact hd.trans (.of_links rfl)
theorem sent_postFrom (q : Nat) (dest : BitVec 32) (l : Letter) (s : State) : Sent s (postFrom q dest l s) :=
  Sent.after (sent_serveSender ..) (.of_links rfl)

/-! ### Answers, and the messages that wait -/

theorem sent_roundDone (x : Nat) (c : Cmd) (round st fpx : Nat) (s : State) : Sent s (roundDone x c round st fpx s) := by
  unfold roundDone
  extract_lets s1
  have h1 : Sent s s1 := by
    unfold s1
    split
    · exact .of_links (links_advanceCtr ..)
    · exact .refl s
  split
  · exact h1.trans (sent_postFrom ..)
  · exact h1
theorem sent_takeResponse (m : Msg) (s : State) : Sent s (takeResponse m s) := by
  unfold takeResponse
  extract_lets w st
  split
  · exact .of_links rfl
  · split
    · unfold forwardDone
      split
      · exact Sent.after (sent_roundDone ..) (.of_links rfl)
      · exact .of_links rfl
    · exact .refl s
theorem sent_letterNaked (m : Msg) (device : Nat) (s : State) : Sent s (letterNaked m device s) := by
  unfold letterNaked
  split
  · exact .refl s
  · extract_lets r
    split
    · exact .of_links rfl
    · exact Sent.after (sent_report ..) (.of_links rfl)
theorem sent_refuseMsg (p : Nat) (m : Msg) (s : State) : Sent s (refuseMsg p m s) := by
  unfold refuseMsg
  extract_lets own answer
  have hanswer (a : Msg) : Sent s (answer a) := by
    unfold answer
    extract_lets r
    have hr : Sent s r.2 := sent_sendMsg ..
    split
    · exact hr.trans (.of_links rfl)
    · exact hr
  split
  · split
    · exact sent_letterNaked ..
    · exact hanswer _
  · split
    · exact sent_takeResponse ..
    · exact hanswer _
  · exact .refl s
theorem sent_forwardMsg (expired : Bool) (p : Nat) (m : Msg) (s : State) : Sent s (forwardMsg expired p m s) := by
  unfold forwardMsg
  extract_lets r
  have hr : Sent s r.2 := sent_route ..
  split
  · exact hr.trans (sent_giveCredit ..)
  · exact hr.trans (.of_ports rfl rfl)
  · exact (hr.trans (sent_refuseMsg ..)).trans (sent_giveCredit ..)
  · exact (hr.trans (sent_refuseMsg ..)).trans (sent_giveCredit ..)
  · exact hr
theorem sent_sendCohOne (s : State) (m : CohMsg) : Sent s (sendCohOne s m) := by
  unfold sendCohOne
  split
  · exact .refl s
  · split
    · exact sent_transmit ..
    · exact .of_ports rfl rfl
theorem sent_sendCoh (s : State) : Sent s (sendCoh s) := Sent.after (.foldl _ sent_sendCohOne _ _) (.of_ports rfl rfl)
theorem sent_reroute (s : State) : Sent s (reroute s) := by
  unfold reroute
  extract_lets ws
  refine Sent.after (sent_sendCoh _) (Sent.trans (t := (serveOrder s ws).foldl (fun a e => forwardMsg false e.1 e.2 a)
    { s with links := { s.links with waiting := [] } }) ?_ (.of_ports rfl rfl))
  exact Sent.after (.foldl _ (fun _ _ => sent_forwardMsg ..) _ _) (.of_ports rfl rfl)
theorem sendCoh_quiet (hc : s.links.cohOut = []) : sendCoh s = { s with links := { s.links with cohOut := [] } } := by
  rw [sendCoh, hc]
  rfl
/-- With no message waiting, only the count of classes passed over can change. -/
theorem reroute_quiet (hw : s.links.waiting = []) (hc : s.links.cohOut = []) :
    ∃ m, reroute s = { s with links := { s.links with waiting := [], cohOut := [], passed := m } } := by
  have h : reroute s = sendCoh (countPassed [] { s with links := { s.links with waiting := [] } }) := by
    unfold reroute
    extract_lets ws
    rw [show ws = [] from hw]
    rfl
  exact ⟨_, h.trans (sendCoh_quiet hc)⟩

end Sys2Proof.Machine
end

section
/-! Ports one by one (15 R375 to R395): what a control frame, a sweep given up, a port that leaves service and a split leave. -/

namespace Sys2Proof.Machine
variable {s t u : State} {p : Nat} {x : Port}

/-! ### One port -/

@[simp] theorem port_setPort (p q : Nat) (x : Port) (s : State) : port (setPort p x s) q = if q = p then x else port s q := smGet_smPut ..
theorem port_setPort_same (p : Nat) (x : Port) (s : State) : port (setPort p x s) p = x := smGet_smPut_same ..
theorem port_sendCtl (p q : Nat) (kind : BitVec 8) (k : BitVec 40) (chunks : List (BitVec 128)) (s : State) : port (sendCtl p kind k chunks s) q =
    if q = p then framed (port s p) [{ kind := kind, kspec := k, chunks := chunks }] else port s q := smGet_smPut ..

namespace OnlyPort
theorem refl (p : Nat) (s : State) : OnlyPort p (port s p) s s := ⟨rfl, fun _ _ => rfl, rfl, rfl, rfl⟩
theorem set (h : OnlyPort p x s t) (y : Port) : OnlyPort p y s (setPort p y t) := by
  obtain ⟨-, hothers, hmem, hcores, hoffice⟩ := h
  exact ⟨port_setPort_same .., fun q hq => (smGet_smPut_other _ _ _ hq).trans (hothers q hq), hmem, hcores, hoffice⟩
theorem setPort (p : Nat) (x : Port) (s : State) : OnlyPort p x s (setPort p x s) := (refl p s).set x
theorem sends (h : OnlyPort p x s t) (kind : BitVec 8) (k : Nat) : OnlyPort p (framed x [ctlMsg kind k]) s (sendCtl p kind (BitVec.ofNat 40 k) [] t) := by
  obtain ⟨hport, hothers, hmem, hcores, hoffice⟩ := h
  refine ⟨(port_sendCtl ..).trans ?_, fun q hq => ((port_sendCtl ..).trans (if_neg hq)).trans (hothers q hq), hmem, hcores, hoffice⟩
  rw [if_pos rfl, hport]
  rfl
/-- A change beside ports, memory, cores and queues. -/
theorem beside (h : OnlyPort p x s t) (hl : u.links.ports = t.links.ports) (hm : u.mem = t.mem) (hc : u.cores = t.cores) (ho : u.office = t.office) :
    OnlyPort p x s u := by
  obtain ⟨hport, hothers, hmem, hcores, hoffice⟩ := h
  have hsame (q : Nat) : port u q = port t q := by rw [port, port, hl]
  exact ⟨(hsame p).trans hport, fun q hq => (hsame q).trans (hothers q hq), hm.trans hmem, hc.trans hcores, ho.trans hoffice⟩
theorem rerouted (h : OnlyPort p x s t) (hw : t.links.waiting = []) (hc : t.links.cohOut = []) : OnlyPort p x s (reroute t) := by
  obtain ⟨m, hm⟩ := reroute_quiet hw hc
  rw [hm]
  exact h.beside rfl rfl rfl rfl
theorem log (h : OnlyPort p x s t) (hl : LogNow t u) : OnlyPort p x s u := by
  obtain ⟨r, pd, i, rfl⟩ := hl
  exact h.beside rfl rfl rfl rfl
end OnlyPort

theorem newest_logFault (kind cls unit : Nat) (lcore : Option Nat) (arg0 arg1 : Nat) (s : State) (hc : cls ≠ 0) :
    Newest kind (logFault kind cls unit lcore arg0 arg1 s) := by
  obtain ⟨e, n, p, i, he, h⟩ := logFault_eq (s := s) kind cls unit lcore arg0 arg1 hc
  rw [h]
  exact ⟨e, _, rfl, he⟩

/-! ### A sweep given up (R395) -/

/-- The lanes once the data of a swept lane is back on it. -/
def lanesBack (x : Port) : BitVec 5 :=
  if x.sweep.swapped = true ∧ x.bad.getLsbD x.sweep.lane = false then
    (x.lanes &&& ~~~(BitVec.ofNat 5 (2 ^ x.spare))) ||| BitVec.ofNat 5 (2 ^ x.sweep.lane)
  else x.lanes
/-- The port once a sweep has been given up. -/
def sweepStopped (x : Port) (r : Nat) : Port :=
  { x with lanes := lanesBack x, sweep := { x.sweep with busy := false, done := false, incomplete := true, reason := r, swapped := false } }
theorem unswap_eq (x : Port) : unswap x = { x with lanes := lanesBack x, sweep := { x.sweep with swapped := false } } := by
  unfold unswap lanesBack
  by_cases hs : x.sweep.swapped = true
  · rw [if_pos hs]
    by_cases hb : x.bad.getLsbD x.sweep.lane = true
    · rw [if_neg (by simp [hb])]
      simp only [hb, if_true]
    · rw [if_pos ⟨hs, by simpa using hb⟩]
      simp only [hb, Bool.false_eq_true, if_false]
  · rw [if_neg hs, if_neg fun h => hs h.1]
    have hsw : x.sweep.swapped = false := by simpa using hs
    rw [← hsw]
theorem abortSweep_idle {r : Nat} (h : (port s p).sweep.busy = false) : abortSweep p r s = s := if_neg (by simp [h])
theorem abortSweep_busy {r : Nat} (h : (port s p).sweep.busy = true) : abortSweep p r s =
    if (port s p).state = .up then sendCtl p 0x8A (BitVec.ofNat 40 r) [] (setPort p (sweepStopped (port s p) r) s)
    else setPort p (sweepStopped (port s p) r) s := by
  unfold abortSweep
  extract_lets po q _ s1
  have hs1 : s1 = setPort p (sweepStopped (port s p) r) s := by
    show setPort p { unswap (port s p) with
      sweep := { (unswap (port s p)).sweep with busy := false, done := false, incomplete := true, reason := r } } s = _
    rw [unswap_eq]
    rfl
  have hup : portUp s1 p = decide ((port s p).state = .up) := by
    rw [hs1, portUp, port_setPort_same]
    rfl
  rw [if_pos h, hup, hs1]
  simp only [decide_eq_true_eq]
theorem abortSweep_up {r : Nat} (h : (port s p).sweep.busy = true) (hup : (port s p).state = .up) :
    OnlyPort p (framed (sweepStopped (port s p) r) [ctlMsg 0x8A r]) s (abortSweep p r s) := by
  rw [abortSweep_busy h, if_pos hup]
  exact (OnlyPort.setPort ..).sends ..
/-- Whether a sweep is given up or not, the rest of the port is the same beside its lanes, frames and link power. -/
theorem abortSweep_spec (p r : Nat) (s : State) : (∀ q, kept { port (abortSweep p r s) q with lanes := 0, sweep := {} } =
      kept { port s q with lanes := 0, sweep := {} }) ∧
    (∃ m c, abortSweep p r s = { s with links := { s.links with ports := m }, ctl := { s.ctl with counters := c } }) ∧
    (∀ q, q ≠ p → port (abortSweep p r s) q = port s q) := by
  cases h : (port s p).sweep.busy with
  | false => exact ⟨fun q => by rw [abortSweep_idle h], ⟨_, _, abortSweep_idle h⟩, fun q _ => by rw [abortSweep_idle h]⟩
  | true =>
    rw [abortSweep_busy h]
    split
    · refine ⟨fun q => ?_, ⟨_, _, rfl⟩, fun q hq => ?_⟩
      · rw [port_sendCtl, port_setPort_same, port_setPort]
        split
        next hq => rw [hq]; rfl
        next => rfl
      · rw [port_sendCtl, if_neg hq, port_setPort, if_neg hq]
    · refine ⟨fun q => ?_, ⟨_, _, rfl⟩, fun q hq => ?_⟩
      · rw [port_setPort]
        split
        next hq => rw [hq]; rfl
        next => rfl
      · rw [port_setPort, if_neg hq]

/-! ### Records that stay -/

/-- A record of the kind is among the newest of the log. -/
def LoggedWithin (k n : Nat) (t : State) : Prop := ∃ i e, i ≤ n ∧ t.resil.log[i]? = some e ∧ e.record.take 2 = bytesOfNat k 2
namespace LoggedWithin
variable {k n : Nat}
theorem of_newest (h : Newest k t) : LoggedWithin k 0 t := by
  obtain ⟨e, rest, hlog, he⟩ := h
  exact ⟨0, e, Nat.le_refl 0, by rw [hlog]; rfl, he⟩
theorem of_log (h : LoggedWithin k n s) (hl : t.resil.log = s.resil.log) : LoggedWithin k n t := by rwa [LoggedWithin, hl]
theorem logFault (h : LoggedWithin k n s) (hn : n < 4095) (kind cls unit : Nat) (lcore : Option Nat) (arg0 arg1 : Nat) (hc : cls ≠ 0) :
    LoggedWithin k (n + 1) (logFault kind cls unit lcore arg0 arg1 s) := by
  obtain ⟨i, e, hi, hlog, he⟩ := h
  obtain ⟨e', m, p, j, -, heq⟩ := logFault_eq (s := s) kind cls unit lcore arg0 arg1 hc
  refine ⟨i + 1, e, Nat.add_le_add_right hi 1, ?_, he⟩
  rw [heq]
  show (e' :: s.resil.log.take 4095)[i + 1]? = some e
  rw [List.getElem?_cons_succ, List.getElem?_take, if_pos (by omega), hlog]
theorem exists_mem (h : LoggedWithin k n t) : ∃ e ∈ t.resil.log, e.record.take 2 = bytesOfNat k 2 := by
  obtain ⟨i, e, -, hlog, he⟩ := h
  exact ⟨e, List.mem_of_getElem? hlog, he⟩
end LoggedWithin

/-- One message of the router leaves memory alone and writes one record at most. -/
theorem resil_transmit (p : Nat) (m : Msg) (s : State) : (transmit p m s).resil = s.resil ∧ (transmit p m s).mem = s.mem := by
  unfold transmit
  extract_lets po s1 s2
  split <;> exact ⟨rfl, rfl⟩
theorem resil_woken (c : Prop) [Decidable c] (p : Nat) (s : State) :
    (if c then retrained p s else s).resil = s.resil ∧ (if c then retrained p s else s).mem = s.mem := by
  split <;> exact ⟨rfl, rfl⟩
theorem route_log (expired : Bool) (m : Msg) (s : State) : (route expired m s).2.mem = s.mem ∧
    ((route expired m s).2.resil = s.resil ∨ (route expired m s).2 = logFault 0x204 5 uDevice none m.dst.toNat 0 s) := by
  unfold route
  extract_lets dst
  split
  · exact ⟨rfl, .inl rfl⟩
  · split
    · exact ⟨mem_logFault .., .inr rfl⟩
    · split
      · exact ⟨rfl, .inl rfl⟩
      · split
        · have h := resil_woken ((port s ‹Nat›).pwr = .listen) ‹Nat› s
          have ht := resil_transmit ‹Nat› m (if (port s ‹Nat›).pwr = .listen then retrained ‹Nat› s else s)
          exact ⟨ht.2.trans h.2, .inl (ht.1.trans h.1)⟩
        · split
          · exact ⟨rfl, .inl rfl⟩
          · rename_i escPort _ _ _ _ m1 s1 _ _ _ _ _ _
            have h : s1.resil = s.resil ∧ s1.mem = s.mem := resil_woken ..
            split
            · have ht := resil_transmit escPort m1 s1
              exact ⟨ht.2.trans h.2, .inl (ht.1.trans h.1)⟩
            · exact ⟨h.2, .inl h.1⟩
theorem sendMsg_log (m : Msg) (s : State) : (sendMsg m s).2.mem = s.mem ∧ ∀ k n, LoggedWithin k n s → n < 4095 → LoggedWithin k (n + 1) (sendMsg m s).2 := by
  have key : ∀ m : Msg, (route false m s).2.mem = s.mem ∧ ∀ k n, LoggedWithin k n s → n < 4095 → LoggedWithin k (n + 1) (route false m s).2 := by
    intro m
    obtain ⟨hmem, hlog⟩ := route_log false m s
    refine ⟨hmem, fun k n h hn => ?_⟩
    obtain hr | hl := hlog
    · obtain ⟨i, e, hi, hi', he⟩ := h
      exact ⟨i, e, Nat.le_succ_of_le hi, by rw [hr, hi'], he⟩
    · rw [hl]
      exact h.logFault hn _ _ _ _ _ _ (by decide)
  unfold sendMsg
  extract_lets m1 r
  split
  · exact key m1
  · exact key m1
theorem checkParent_spec (s : State) : Sent s (checkParent s) ∧ (checkParent s).mem = s.mem ∧
    ∀ k n, LoggedWithin k n s → n < 4095 → LoggedWithin k (n + 1) (checkParent s) := by
  unfold checkParent
  extract_lets _ s0
  have h0 : s0.resil = s.resil ∧ s0.mem = s.mem ∧ Sent s s0 := by
    unfold s0
    split
    · split
      · exact ⟨rfl, rfl, .refl s⟩
      · exact ⟨rfl, rfl, .of_ports rfl rfl⟩
    · exact ⟨rfl, rfl, .refl s⟩
  obtain ⟨hr, hm, hs⟩ := h0
  have hlog (k n : Nat) (h : LoggedWithin k n s) : LoggedWithin k n s0 := h.of_log (congrArg Resil.log hr)
  split
  · generalize hv : ({ s0 with links := { s0.links with servo := .holdover } } : State) = v
    have hsv : Sent s0 v := by rw [← hv]; exact .of_ports rfl rfl
    have hmv : v.mem = s0.mem := by rw [← hv]
    have hrv : v.resil = s0.resil := by rw [← hv]
    refine ⟨(hs.trans hsv).trans (.of_log (logNow_logFault ..)), (mem_logFault ..).trans (hmv.trans hm), fun k n h hn => ?_⟩
    exact ((hlog k n h).of_log (congrArg Resil.log hrv)).logFault hn _ _ _ _ _ _ (by decide)
  · refine ⟨hs, hm, fun k n h _ => ?_⟩
    obtain ⟨i, e, hi, hi', he⟩ := hlog k n h
    exact ⟨i, e, Nat.le_succ_of_le hi, hi', he⟩

end Sys2Proof.Machine
end

section
/-! A port leaves service, and the split of a pair that may follow (10 R269; 15 R390). -/

namespace Sys2Proof.Machine
variable {s t : State} {p slot : Nat}

/-! ### A split begins (10 R269) -/

/-- A port fenced from the peer of a slot. -/
def fencedPort (slot : Nat) (x : Port) : Port := { x with join := { x.join with state := .fenced, peerSlot := slot } }
def fencePorts (slot : Nat) (ps : List Nat) (s : State) : State := ps.foldl (fun a q => updPort q (fencedPort slot) a) s
theorem port_fencePorts (ps : List Nat) (s : State) (q : Nat) :
    port (fencePorts slot ps s) q = if q ∈ ps then fencedPort slot (port s q) else port s q := by
  unfold fencePorts
  induction ps generalizing s with
  | nil => simp
  | cons n ps ih =>
    rw [List.foldl_cons, ih, updPort, port_setPort]
    by_cases hq : q = n
    · subst hq
      simp only [if_true, List.mem_cons, true_or]
      split <;> rfl
    · simp only [hq, if_false, List.mem_cons, false_or]
theorem fencePorts_eq (ps : List Nat) (s : State) : ∃ m, fencePorts slot ps s = { s with links := { s.links with ports := m } } := by
  unfold fencePorts
  induction ps generalizing s with
  | nil => exact ⟨_, rfl⟩
  | cons n ps ih =>
    obtain ⟨m, h⟩ := ih (updPort n (fencedPort slot) s)
    exact ⟨m, h⟩

theorem links_ackTargets (gone : Nat → Bool) (s : State) : (ackTargets gone s).links = s.links ∧ (ackTargets gone s).resil = s.resil := by
  unfold ackTargets
  extract_lets f
  split <;> exact ⟨rfl, rfl⟩
theorem links_blockSwitched (k : Nat) (s : State) : (blockSwitched k s).links = s.links := by
  unfold blockSwitched
  split
  · extract_lets left _ s1
    split
    · obtain ⟨i, h⟩ := pulse_eq (s := s1) 155
      rw [h]
    · rfl
  · rfl
theorem logNow_foldl {α : Type} (f : State → α → State) (hf : ∀ a x, LogNow a (f a x)) (l : List α) (s : State) : LogNow s (l.foldl f s) := by
  induction l generalizing s with
  | nil => exact .refl
  | cons x l ih => exact (hf s x).trans (ih _)
/-- What is dropped of a peer's requests changes no port; where no request waits on it, no message of a home follows. -/
theorem dropInFlight_spec (slot : Nat) (s : State) : Sent s (dropInFlight slot s) ∧
    ((∀ q ∈ s.mem.homeQ, ∀ x ∈ q.pending, x.1 ≠ devOwner slot) →
      (dropInFlight slot s).links = { s.links with cohOut := s.links.cohOut.filter fun m => m.slot != slot }) := by
  unfold dropInFlight
  extract_lets ours lost s1 late _ _ s2
  have h1 : LogNow s s1 := logNow_foldl _ (fun a q => (logNow_logFault ..).trans (.of_pulse 151)) _ _
  have hlinks : s1.links = s.links := by
    obtain ⟨_, _, _, h⟩ := h1
    rw [h]
  have h2 : Sent s s2 := Sent.trans (.of_log h1) (.of_ports rfl rfl)
  refine ⟨?_, fun hno => ?_⟩
  · refine (h2.trans ?_).trans (.of_links (links_ackTargets ..).1)
    exact .foldl _ (fun a l => .of_beside (beside_settle ..)) _ _
  · have hlate : late = [] := by
      unfold late
      rw [List.map_eq_nil_iff, List.filter_eq_nil_iff]
      intro q hq
      rw [h1.mem] at hq
      simp only [List.any_eq_true, beq_iff_eq, not_exists, not_and]
      exact hno q hq
    have hs2 : s2.links = { s1.links with cohOut := s1.links.cohOut.filter fun m => m.slot != slot } := rfl
    rw [(links_ackTargets ..).1, hlate]
    exact hs2.trans (by rw [hlinks])

/-- The ports of a pair: the one, and every other that is joined with the peer. -/
def pairPorts (p slot : Nat) (s : State) : List Nat :=
  p :: ((List.range 8).filter fun q => q != p && decide ((port s q).join.state = .coherent) && (port s q).join.peerSlot == slot)
/-- The device once a split has begun, before what it discards. -/
def pairFenced (p slot : Nat) (s : State) : State :=
  let s1 := fencePorts slot (pairPorts p slot s) s
  { s1 with links := { s1.links with peers := s1.links.peers &&& ~~~(BitVec.ofNat 4 (2 ^ slot)) } }
theorem splitPair_eq {trigger : Nat} {log : Bool} (h : (port s p).join.state ≠ .fenced)
    (hslot : slot = if (port s p).join.state = .coherent then (port s p).join.peerSlot else (port s p).peerSlot) :
    splitPair p trigger log s = (let s2 := blockSwitched (9 + slot) (dropInFlight slot (pairFenced p slot s))
      if log then logFault 0xD 3 (uPort p) none slot trigger s2 else s2) := by
  subst hslot
  exact if_neg h
theorem splitPair_spec {trigger : Nat} {log : Bool} (h : (port s p).join.state ≠ .fenced)
    (hslot : slot = if (port s p).join.state = .coherent then (port s p).join.peerSlot else (port s p).peerSlot) :
    Sent (pairFenced p slot s) (splitPair p trigger log s) ∧ (log = true → Newest 0xD (splitPair p trigger log s)) ∧
    ((∀ q ∈ s.mem.homeQ, ∀ x ∈ q.pending, x.1 ≠ devOwner slot) → (splitPair p trigger log s).links =
      { (pairFenced p slot s).links with cohOut := (pairFenced p slot s).links.cohOut.filter fun m => m.slot != slot }) := by
  rw [splitPair_eq h hslot]
  obtain ⟨hsent, hlinks⟩ := dropInFlight_spec slot (pairFenced p slot s)
  have hbs := links_blockSwitched (9 + slot) (dropInFlight slot (pairFenced p slot s))
  have hmem : (pairFenced p slot s).mem = s.mem := by
    obtain ⟨m, hm⟩ := fencePorts_eq (slot := slot) (pairPorts p slot s) s
    rw [pairFenced, hm]
  have hsent' : Sent (pairFenced p slot s) (blockSwitched (9 + slot) (dropInFlight slot (pairFenced p slot s))) := hsent.trans (.of_links hbs)
  rw [← hmem]
  dsimp only
  cases log with
  | true =>
    rw [if_pos rfl]
    refine ⟨hsent'.trans (.of_log (logNow_logFault ..)), fun _ => newest_logFault _ _ _ _ _ _ _ (by decide), fun hno => ?_⟩
    obtain ⟨r, pd, i, hl⟩ := logNow_logFault (s := blockSwitched (9 + slot) (dropInFlight slot (pairFenced p slot s))) 0xD 3 (uPort p) none slot trigger
    rw [hl]
    exact hbs.trans (hlinks hno)
  | false =>
    rw [if_neg Bool.false_ne_true]
    exact ⟨hsent', fun h => absurd h Bool.false_ne_true, fun hno => hbs.trans (hlinks hno)⟩
theorem port_pairFenced (q : Nat) : port (pairFenced p slot s) q = if q ∈ pairPorts p slot s then fencedPort slot (port s q) else port s q :=
  port_fencePorts ..
theorem links_pairFenced : ∃ m, (pairFenced p slot s).links =
    { s.links with ports := m, peers := s.links.peers &&& ~~~(BitVec.ofNat 4 (2 ^ slot)) } := by
  obtain ⟨m, hm⟩ := fencePorts_eq (slot := slot) (pairPorts p slot s) s
  exact ⟨m, by rw [pairFenced, hm]⟩

/-! ### A port leaves service (R390) -/

/-- The device with the port out of service, before what follows for its join. -/
def leftService (p : Nat) (s : State) : State :=
  setPort p { port (abortSweep p 1 s) p with state := .out, resyncWait := (port s p).peerValid && !(port s p).retryBuf.isEmpty, degraded := false,
                                             sleepReq := false, sleepAgreed := false } (abortSweep p 1 s)
/-- The join of a port that has left service: the pair's others carry it on, or the pair splits; a join in progress is refused. -/
def leftJoin (p : Nat) (s : State) : State :=
  let po := port s p
  let s1 := leftService p s
  if po.join.state = .coherent ∧ ((joinedWith s1 po.join.peerSlot).filter fun q => q != p).isEmpty then splitPair p 2 true s1
  else if po.join.state = .coherent then setPort p { port s1 p with join := { po.join with state := .non } } s1
  else if po.join.state = .joining then
    setPort p { port s1 p with join := { po.join with state := .non, reason := 9, tries := min 65535 (po.join.tries + 1) } } s1
  else s1
/-- The RESYNC of a port that has left service. -/
def resyncOf (p : Nat) (s : State) : Msg :=
  { kind := 8, mc := 2, dst := BitVec.ofNat 16 (port s p).peerDev, kspec := BitVec.ofNat 40 (p * 256 + (port s p).rxSeq.toNat) }
theorem outOfService_eq (h : (port s p).state ≠ .out) : outOfService p s = (let s3 := checkParent (reroute (leftJoin p s))
    if (port s p).peerValid then (sendMsg (resyncOf p s) s3).2 else s3) := if_neg h
theorem sent_outOfService (h : (port s p).state ≠ .out) : Sent (leftJoin p s) (outOfService p s) := by
  rw [outOfService_eq h]
  have h3 : Sent (leftJoin p s) (checkParent (reroute (leftJoin p s))) := (sent_reroute _).trans (checkParent_spec _).1
  dsimp only
  split
  · exact h3.trans (sent_sendMsg ..)
  · exact h3
/-- With nothing waiting to be sent, a port that leaves service leaves memory as its join left it, and two records at most follow. -/
theorem outOfService_quiet (h : (port s p).state ≠ .out) (hw : (leftJoin p s).links.waiting = []) (hc : (leftJoin p s).links.cohOut = []) :
    (outOfService p s).mem = (leftJoin p s).mem ∧ ∀ k n, LoggedWithin k n (leftJoin p s) → n < 4000 → LoggedWithin k (n + 2) (outOfService p s) := by
  rw [outOfService_eq h]
  obtain ⟨m, hm⟩ := reroute_quiet hw hc
  obtain ⟨-, hmem, hlog⟩ := checkParent_spec (reroute (leftJoin p s))
  have hrmem : (reroute (leftJoin p s)).mem = (leftJoin p s).mem := by rw [hm]
  have hrlog : (reroute (leftJoin p s)).resil.log = (leftJoin p s).resil.log := by rw [hm]
  have h1 (k n : Nat) (hk : LoggedWithin k n (leftJoin p s)) (hn : n < 4000) : LoggedWithin k (n + 1) (checkParent (reroute (leftJoin p s))) :=
    hlog k n (hk.of_log hrlog) (by omega)
  dsimp only
  split
  · obtain ⟨hsmem, hslog⟩ := sendMsg_log (resyncOf p s) (checkParent (reroute (leftJoin p s)))
    exact ⟨hsmem.trans (hmem.trans hrmem), fun k n hk hn => hslog k (n + 1) (h1 k n hk hn) (by omega)⟩
  · refine ⟨hmem.trans hrmem, fun k n hk hn => ?_⟩
    obtain ⟨i, e, hi, hi', he⟩ := h1 k n hk hn
    exact ⟨i, e, Nat.le_succ_of_le hi, hi', he⟩

theorem port_leftService_other {q : Nat} (hq : q ≠ p) : port (leftService p s) q = port s q := by
  rw [leftService, port_setPort, if_neg hq]
  exact (abortSweep_spec p 1 s).2.2 q hq
theorem port_leftService_join : (port (leftService p s) p).join = (port s p).join := by
  rw [leftService, port_setPort_same]
  exact (congrArg Port.join ((abortSweep_spec p 1 s).1 p) :)
theorem port_leftService_sweep (h : (port s p).sweep.busy = false) : (port (leftService p s) p).sweep = (port s p).sweep := by
  rw [leftService, port_setPort_same, abortSweep_idle h]
theorem leftService_frame (p : Nat) (s : State) :
    ∃ m c, leftService p s = { s with links := { s.links with ports := m }, ctl := { s.ctl with counters := c } } := by
  obtain ⟨m, c, h⟩ := (abortSweep_spec p 1 s).2.1
  unfold leftService
  generalize port (abortSweep p 1 s) p = x
  rw [h]
  exact ⟨_, c, rfl⟩
theorem joinedWith_leftService (slot : Nat) : (joinedWith (leftService p s) slot).filter (fun q => q != p) = (joinedWith s slot).filter fun q => q != p := by
  rw [joinedWith, joinedWith, List.filter_filter, List.filter_filter]
  refine List.filter_congr fun q _ => ?_
  by_cases hq : q = p
  · simp [hq]
  · rw [portUp, portUp, port_leftService_other hq]

/-- The sweep of each port is kept by whatever follows for the join. -/
theorem sweep_leftJoin (q : Nat) : (port (leftJoin p s) q).sweep = (port (leftService p s) q).sweep := by
  have hset (j : Join) : (port (setPort p { port (leftService p s) p with join := j } (leftService p s)) q).sweep = (port (leftService p s) q).sweep := by
    rw [port_setPort]
    split
    next hq => rw [hq]
    next => rfl
  unfold leftJoin
  extract_lets po s1
  split
  next hc =>
    have hst : (port s1 p).join.state ≠ .fenced := by
      rw [port_leftService_join, hc.1]
      decide
    obtain ⟨hsent, -, -⟩ := splitPair_spec (trigger := 2) (log := true) (slot := po.join.peerSlot) hst
      (by rw [port_leftService_join, if_pos hc.1])
    rw [hsent.sweep_eq, port_pairFenced]
    split <;> rfl
  next =>
    split
    · exact hset _
    · split
      · exact hset _
      · rfl
theorem sweep_outOfService (h : (port s p).sweep.busy = false) (q : Nat) : (port (outOfService p s) q).sweep = (port s q).sweep := by
  by_cases hout : (port s p).state = .out
  · rw [outOfService, if_pos hout]
  · rw [(sent_outOfService hout).sweep_eq, sweep_leftJoin]
    by_cases hq : q = p
    · rw [hq, port_leftService_sweep h]
    · rw [port_leftService_other hq]

section
variable (hout : (port s p).state ≠ .out)

/-- What a port that leaves service keeps and loses, by the join it was in. -/
structure Left (p : Nat) (j : Join) (s t : State) : Prop where
  state : (port t p).state = .out
  degraded : (port t p).degraded = false
  resyncWait : (port t p).resyncWait = ((port s p).peerValid && !(port s p).retryBuf.isEmpty)
  join : (port t p).join = j
theorem left_of {j : Join} (hport : kept (port t p) = kept { port (leftService p s) p with join := j }) : Left p j s t := by
  have hs := congrArg Port.state hport
  have hd := congrArg Port.degraded hport
  have hr := congrArg Port.resyncWait hport
  have hj := congrArg Port.join hport
  simp only [kept, leftService, port_setPort_same] at hs hd hr hj
  exact ⟨hs, hd, hr, hj⟩
theorem quiet_leftService (hq : s.links.waiting = [] ∧ s.links.cohOut = []) :
    (leftService p s).links.waiting = [] ∧ (leftService p s).links.cohOut = [] := by
  obtain ⟨m, c, h⟩ := leftService_frame p s
  rw [h]
  exact hq
theorem same_leftService : (leftService p s).mem = s.mem ∧ (leftService p s).resil = s.resil ∧ (leftService p s).links.peers = s.links.peers := by
  obtain ⟨m, c, h⟩ := leftService_frame p s
  rw [h]
  exact ⟨rfl, rfl, rfl⟩

include hout
/-- Where the pair does not split, what leaving comes to is the port's own state. -/
theorem outOfService_of_set {j : Join} (hq : s.links.waiting = [] ∧ s.links.cohOut = [])
    (hport : port (leftJoin p s) p = { port (leftService p s) p with join := j })
    (hl : ∃ m, leftJoin p s = { leftService p s with links := { (leftService p s).links with ports := m } }) :
    Left p j s (outOfService p s) ∧ (outOfService p s).mem = s.mem ∧ (outOfService p s).links.peers = s.links.peers ∧
      ∀ k n, LoggedWithin k n s → n < 4000 → LoggedWithin k (n + 2) (outOfService p s) := by
  obtain ⟨hw, hc⟩ := quiet_leftService (p := p) hq
  obtain ⟨hmem, hresil, hpeers⟩ := same_leftService (s := s) (p := p)
  have hsent := sent_outOfService hout
  obtain ⟨m, hl⟩ := hl
  obtain ⟨hm, hlog⟩ := outOfService_quiet hout (hl ▸ hw) (hl ▸ hc)
  refine ⟨left_of ((hsent.ports p).trans (by rw [hport])), hm.trans (by rw [hl, ← hmem]), hsent.peers.trans (by rw [hl, ← hpeers]), fun k n hk hn => hlog k n ?_ hn⟩
  exact hk.of_log (by rw [hl, ← hresil])
theorem leaves_still (hq : s.links.waiting = [] ∧ s.links.cohOut = []) (hj : (port s p).join.state = .non ∨ (port s p).join.state = .fenced) :
    Left p (port s p).join s (outOfService p s) ∧ (outOfService p s).mem = s.mem ∧
      ∀ k n, LoggedWithin k n s → n < 4000 → LoggedWithin k (n + 2) (outOfService p s) := by
  have hne : (port s p).join.state ≠ .coherent ∧ (port s p).join.state ≠ .joining := by
    obtain h | h := hj
    · rw [h]; decide
    · rw [h]; decide
  have hsame : leftJoin p s = leftService p s := by
    unfold leftJoin
    extract_lets po s1
    rw [if_neg fun h => hne.1 h.1, if_neg hne.1, if_neg hne.2]
  obtain ⟨hleft, hmem, -, hlog⟩ := outOfService_of_set (j := (port s p).join) hout hq (by rw [hsame, ← port_leftService_join]) ⟨_, hsame⟩
  exact ⟨hleft, hmem, hlog⟩
theorem leaves_joining (hq : s.links.waiting = [] ∧ s.links.cohOut = []) (hj : (port s p).join.state = .joining) :
    Left p { (port s p).join with state := .non, reason := 9, tries := min 65535 ((port s p).join.tries + 1) } s (outOfService p s) ∧
      (outOfService p s).mem = s.mem := by
  have hset : leftJoin p s = setPort p { port (leftService p s) p with
      join := { (port s p).join with state := .non, reason := 9, tries := min 65535 ((port s p).join.tries + 1) } } (leftService p s) := by
    unfold leftJoin
    extract_lets po s1
    have hpo : po.join.state = .joining := hj
    rw [if_neg fun h => by rw [hpo] at h; exact absurd h.1 (by decide), if_neg (by rw [hpo]; decide), if_pos hpo]
  obtain ⟨hleft, hmem, -, -⟩ := outOfService_of_set hout hq (by rw [hset, port_setPort_same]) ⟨_, hset⟩
  exact ⟨hleft, hmem⟩
theorem leaves_shared (hq : s.links.waiting = [] ∧ s.links.cohOut = []) (hj : (port s p).join.state = .coherent)
    (hmore : ∃ q ∈ joinedWith s (port s p).join.peerSlot, q ≠ p) :
    Left p { (port s p).join with state := .non } s (outOfService p s) ∧ (outOfService p s).mem = s.mem ∧
      (outOfService p s).links.peers = s.links.peers := by
  obtain ⟨q, hqm, hqp⟩ := hmore
  have hset : leftJoin p s = setPort p { port (leftService p s) p with join := { (port s p).join with state := .non } } (leftService p s) := by
    unfold leftJoin
    extract_lets po s1
    have hothers : q ∈ (joinedWith s1 po.join.peerSlot).filter fun q => q != p := by
      rw [joinedWith_leftService]
      exact List.mem_filter.mpr ⟨hqm, by simpa using hqp⟩
    have hsome : ¬((joinedWith s1 po.join.peerSlot).filter fun q => q != p).isEmpty = true := fun h =>
      List.not_mem_nil (List.isEmpty_iff.mp h ▸ hothers)
    rw [if_neg fun h => hsome h.2]
    exact if_pos hj
  obtain ⟨hleft, hmem, hpeers, -⟩ := outOfService_of_set hout hq (by rw [hset, port_setPort_same]) ⟨_, hset⟩
  exact ⟨hleft, hmem, hpeers⟩
theorem leaves_last (hq : s.links.waiting = [] ∧ s.links.cohOut = []) (hj : (port s p).join.state = .coherent)
    (hlast : ∀ q ∈ joinedWith s (port s p).join.peerSlot, q = p)
    (hno : ∀ q ∈ s.mem.homeQ, ∀ x ∈ q.pending, x.1 ≠ devOwner (port s p).join.peerSlot) :
    (port (outOfService p s) p).state = .out ∧ (port (outOfService p s) p).join.state = .fenced ∧
      (outOfService p s).links.peers = s.links.peers &&& ~~~(BitVec.ofNat 4 (2 ^ (port s p).join.peerSlot)) ∧
      ∃ e ∈ (outOfService p s).resil.log, e.record.take 2 = bytesOfNat 0xD 2 := by
  have hsplit : leftJoin p s = splitPair p 2 true (leftService p s) := by
    unfold leftJoin
    extract_lets po s1
    refine if_pos ⟨hj, ?_⟩
    rw [joinedWith_leftService, List.isEmpty_iff, List.filter_eq_nil_iff]
    exact fun q hq h => absurd (hlast q hq) (by simpa using h)
  have hst : (port (leftService p s) p).join.state = .coherent := by rw [port_leftService_join, hj]
  obtain ⟨hmem, -, hpeers⟩ := same_leftService (s := s) (p := p)
  obtain ⟨hsent, hnew, hlinks⟩ := splitPair_spec (trigger := 2) (log := true) (slot := (port s p).join.peerSlot) (by rw [hst]; decide)
    (by rw [if_pos hst, port_leftService_join])
  have hquiet := hlinks (hmem ▸ hno)
  obtain ⟨m, hpl⟩ := links_pairFenced (s := leftService p s) (p := p) (slot := (port s p).join.peerSlot)
  obtain ⟨hw, hc⟩ := quiet_leftService (p := p) hq
  have hall := (sent_outOfService hout)
  rw [hsplit] at hall
  have hall := hsent.trans hall
  have hpair : port (pairFenced p (port s p).join.peerSlot (leftService p s)) p = fencedPort (port s p).join.peerSlot (port (leftService p s) p) := by
    rw [port_pairFenced, if_pos (show p ∈ pairPorts .. from List.mem_cons_self ..)]
  obtain ⟨-, hlog⟩ := outOfService_quiet hout (by rw [hsplit, hquiet, hpl, ← hw]) (by rw [hsplit, hquiet, hpl]; simp [hc])
  refine ⟨?_, ?_, ?_, (hlog 0xD 0 (.of_newest (hsplit ▸ hnew rfl)) (by decide)).exists_mem⟩
  · rw [hall.state_eq, hpair]
    show (port (leftService p s) p).state = .out
    rw [leftService, port_setPort_same]
  · rw [hall.join_eq, hpair]
    rfl
  · rw [hall.peers, hpl, ← hpeers]
end

end Sys2Proof.Machine
end

section
/-! Ports train, spare, rest and sweep (15 R375, R384, R385, R390 to R395). -/

namespace Sys2Proof.Machine
-- One declaration after another: each `decide +kernel` waits for the kernel's turn, and many at once would hold a thread each.
set_option Elab.async false
variable {s t : State} {p : Nat} {x : Port}

/-- A port that fails goes out of service, with the record of why among the newest. -/
theorem goes_out {k cls : Nat} {unit a0 a1 : Nat} {lc : Option Nat} (hc : cls ≠ 0) (hx : x.state ≠ .out) (hj : x.join.state = .non)
    (hq : s.links.waiting = [] ∧ s.links.cohOut = []) :
    (port (outOfService p (logFault k cls unit lc a0 a1 (setPort p x s))) p).state = .out ∧
      (∃ e ∈ (outOfService p (logFault k cls unit lc a0 a1 (setPort p x s))).resil.log, e.record.take 2 = bytesOfNat k 2) ∧
      SameBytes s (outOfService p (logFault k cls unit lc a0 a1 (setPort p x s))) := by
  have hnew := newest_logFault k cls unit lc a0 a1 (setPort p x s) hc
  have hlog := logNow_logFault (s := setPort p x s) k cls unit lc a0 a1
  generalize logFault k cls unit lc a0 a1 (setPort p x s) = v at hnew hlog ⊢
  have hport : port v p = x := by
    obtain ⟨r, pd, i, rfl⟩ := hlog
    exact port_setPort_same ..
  have hquiet : v.links.waiting = [] ∧ v.links.cohOut = [] := by
    obtain ⟨r, pd, i, rfl⟩ := hlog
    exact hq
  have hmem : v.mem = s.mem := hlog.mem
  obtain ⟨hleft, hm, hkept⟩ := leaves_still (hport ▸ hx) hquiet (.inl (hport ▸ hj))
  refine ⟨hleft.state, (hkept k 0 (.of_newest hnew) (by decide)).exists_mem, fun a => ?_⟩
  rw [readByte, readByte, hm, hmem]

/-! ### Training (R375) -/

theorem byEye_subset (eyes : List Nat) (ls : List Nat) : ∀ l ∈ byEye eyes ls, l ∈ ls := by
  have hins : ∀ (l m : Nat) (acc : List Nat), m ∈ insertEye eyes l acc → m = l ∨ m ∈ acc := by
    intro l m acc
    induction acc with
    | nil => exact fun h => .inl (List.mem_singleton.mp h)
    | cons a acc ih =>
      rw [insertEye]
      split
      · exact fun h => List.mem_cons.mp h
      · intro h
        obtain rfl | h := List.mem_cons.mp h
        · exact .inr (List.mem_cons_self ..)
        · exact (ih h).imp_right (List.mem_cons_of_mem _)
  have key : ∀ (ls acc : List Nat) (m : Nat), m ∈ ls.foldl (fun acc l => insertEye eyes l acc) acc → m ∈ acc ∨ m ∈ ls := by
    intro ls
    induction ls with
    | nil => exact fun acc m h => .inl h
    | cons l ls ih =>
      intro acc m h
      obtain h | h := ih _ m h
      · exact (hins l m acc h).elim (fun h => .inr (h ▸ List.mem_cons_self ..)) .inl
      · exact .inr (List.mem_cons_of_mem _ h)
  exact fun l h => (key ls [] l h).resolve_left List.not_mem_nil

/-- The spare of a trained port is a lane. -/
theorem spare_lt {ls data : List Nat} (h : ∀ l ∈ ls, l < 5) : (ls[4]?).getD (((List.range 5).find? fun l => !data.contains l).getD 4) < 5 := by
  cases h4 : ls[4]? with
  | some l => exact h l (List.mem_of_getElem? h4)
  | none =>
    cases hf : (List.range 5).find? fun l => !data.contains l with
    | some l => exact List.mem_range.mp (List.mem_of_find?_eq_some hf)
    | none => decide

/-- The spare of a port trained on lanes `ls`, the widest first. -/
def trainedSpare (ls : List Nat) : Nat :=
  (ls[4]?).getD (((List.range 5).find? fun l => !(ls.take (if decide (4 ≤ ls.length) = true then 4 else 2)).contains l).getD 4)
/-- The port trained on them (R375). -/
def trainedPort (ls : List Nat) (dev slot pport : Nat) (x : Port) : Port :=
  { x with state := .up, pwr := .active, attempts := 0, lanes := lanesMask (ls.take (if decide (4 ≤ ls.length) = true then 4 else 2)), spare := trainedSpare ls,
           spareUsed := !(decide (ls.length = 5)), degraded := !decide (4 ≤ ls.length), peerDev := dev, peerSlot := slot, peerPort := pport,
           peerValid := true, credits := [], retries := 0, discarding := false, resyncWait := false }
section
variable (ok : Bool) (usable : BitVec 5) (eyes : List Nat) (dev slot pport major : Nat)

theorem trains_iff : (!(decide ((port s p).state = .training) || (decide ((port s p).state = .down) && decide (s.power.mode = .calibrate)))) = true ↔
    ¬((port s p).state = .training ∨ ((port s p).state = .down ∧ s.power.mode = .calibrate)) := by
  rw [Bool.not_eq_true', ← Bool.not_eq_true, Bool.or_eq_true, Bool.and_eq_true]
  simp only [decide_eq_true_eq]
theorem capsArrive_still (h : ¬((port s p).state = .training ∨ ((port s p).state = .down ∧ s.power.mode = .calibrate))) :
    capsArrive p ok usable eyes dev slot pport major s = s := if_pos (trains_iff.mpr h)

variable (htrains : (port s p).state = .training ∨ ((port s p).state = .down ∧ s.power.mode = .calibrate))
  {ls : List Nat} (hls : ls = byEye eyes ((List.range 5).filter fun l => usable.getLsbD l && !(port s p).bad.getLsbD l))
include htrains hls
theorem capsArrive_fails (h : ¬(ok = true ∧ major = fld (mainVer s 2) 31 24 ∧ 2 ≤ ls.length)) :
    ∃ lane, capsArrive p ok usable eyes dev slot pport major s = trainFailed p lane s := by
  refine ⟨_, (if_neg (trains_iff.not.mpr (not_not.mpr htrains))).trans (if_pos ?_)⟩
  subst hls
  by_contra hc
  simp only [not_or, Bool.not_eq_true', Bool.not_eq_false, ne_eq, not_not, Nat.not_lt] at hc
  exact h hc
theorem capsArrive_fits (h : ok = true ∧ major = fld (mainVer s 2) 31 24 ∧ 2 ≤ ls.length) (hq : s.links.waiting = [] ∧ s.links.cohOut = []) :
    OnlyPort p (trainedPort ls dev slot pport (port s p)) s (capsArrive p ok usable eyes dev slot pport major s) ∧
      (ls.length < 4 → Newest 0x202 (capsArrive p ok usable eyes dev slot pport major s)) ∧
      (4 ≤ ls.length → (capsArrive p ok usable eyes dev slot pport major s).resil = s.resil) := by
  obtain ⟨hok, hmajor, hlen⟩ := h
  have hcaps : capsArrive p ok usable eyes dev slot pport major s = reroute (if decide (4 ≤ ls.length) = true then
      setPort p (trainedPort ls dev slot pport (port s p)) s
      else logFault 0x202 1 (uPort p) none 0 0 (setPort p (trainedPort ls dev slot pport (port s p)) s)) := by
    subst hls
    refine (if_neg (trains_iff.not.mpr (not_not.mpr htrains))).trans (if_neg ?_)
    simp only [hok, hmajor, Bool.not_true, Bool.false_eq_true, ne_eq, not_true, false_or]
    exact Nat.not_lt.mpr hlen
  rw [hcaps]
  have hset := OnlyPort.setPort p (trainedPort ls dev slot pport (port s p)) s
  by_cases hwide : 4 ≤ ls.length
  · rw [if_pos (decide_eq_true hwide)]
    refine ⟨hset.rerouted hq.1 hq.2, fun hn => absurd hn (Nat.not_lt.mpr hwide), fun _ => ?_⟩
    obtain ⟨m, hm⟩ := reroute_quiet (s := setPort p (trainedPort ls dev slot pport (port s p)) s) hq.1 hq.2
    rw [hm]
    rfl
  · rw [if_neg (by simpa using hwide)]
    have hlog := logNow_logFault (s := setPort p (trainedPort ls dev slot pport (port s p)) s) 0x202 1 (uPort p) none 0 0
    have hnew := newest_logFault 0x202 1 (uPort p) none 0 0 (setPort p (trainedPort ls dev slot pport (port s p)) s) (by decide)
    generalize logFault 0x202 1 (uPort p) none 0 0 (setPort p (trainedPort ls dev slot pport (port s p)) s) = v at hlog hnew ⊢
    have hquiet : v.links.waiting = [] ∧ v.links.cohOut = [] := by
      obtain ⟨r, pd, i, rfl⟩ := hlog
      exact hq
    refine ⟨(hset.log hlog).rerouted hquiet.1 hquiet.2, fun _ => ?_, fun hw => absurd hw hwide⟩
    obtain ⟨m, hm⟩ := reroute_quiet hquiet.1 hquiet.2
    rw [hm]
    exact hnew
end
theorem trainFailed_again {lane : Nat} (h : (port s p).attempts < 2) :
    trainFailed p lane s = setPort p { port s p with attempts := (port s p).attempts + 1, state := .training } s := if_neg (by omega)
theorem trainFailed_out {lane : Nat} (h : 2 ≤ (port s p).attempts) :
    trainFailed p lane s = outOfService p (logFault 0x200 2 (uPort p) none lane 0 (setPort p { port s p with attempts := 0, state := .training } s)) :=
  if_pos (by omega)

/-! ### Lanes (R384, R385) -/

/-- The lanes once `l` has given its data to the spare, and once it has them back. -/
def toSpare (x : Port) (l : Nat) : BitVec 5 := (x.lanes &&& ~~~(BitVec.ofNat 5 (2 ^ l))) ||| BitVec.ofNat 5 (2 ^ x.spare)
def fromSpare (x : Port) (l : Nat) : BitVec 5 := (x.lanes &&& ~~~(BitVec.ofNat 5 (2 ^ x.spare))) ||| BitVec.ofNat 5 (2 ^ l)
/-- The healthy lanes once `l` has failed too, the widest eye first. -/
def healthy (x : Port) (l : Nat) (eyes : List Nat) : List Nat :=
  byEye eyes ((List.range 5).filter fun k => !(x.bad ||| BitVec.ofNat 5 (2 ^ l)).getLsbD k)

section
variable {lane : Nat} {eyes : List Nat}
theorem degrade_out (h : (port s p).degraded = true ∨ (healthy (port s p) lane eyes).length < 2) : degrade p lane eyes s =
    outOfService p (logFault 0x201 2 (uPort p) none lane 0 (setPort p { port s p with bad := (port s p).bad ||| BitVec.ofNat 5 (2 ^ lane) } s)) := by
  refine if_pos (h.imp_right fun h => ?_)
  rw [List.length_take]
  exact (Nat.min_le_right ..).trans_lt h
theorem degrade_two (hd : (port s p).degraded = false) (h : 2 ≤ (healthy (port s p) lane eyes).length) : Newest 0x202 (degrade p lane eyes s) ∧
    OnlyPort p { port s p with bad := (port s p).bad ||| BitVec.ofNat 5 (2 ^ lane), degraded := true,
                               lanes := lanesMask ((healthy (port s p) lane eyes).take 2) } s (degrade p lane eyes s) := by
  have hdeg : degrade p lane eyes s = logFault 0x202 1 (uPort p) none lane 0 (setPort p { port s p with
      bad := (port s p).bad ||| BitVec.ofNat 5 (2 ^ lane), degraded := true, lanes := lanesMask ((healthy (port s p) lane eyes).take 2) } s) := by
    refine if_neg fun hc => ?_
    obtain hc | hc := hc
    · rw [hd] at hc
      cases hc
    · rw [List.length_take] at hc
      have : 2 ≤ ((byEye eyes ((List.range 5).filter fun k => !((port s p).bad ||| BitVec.ofNat 5 (2 ^ lane)).getLsbD k)).length) := h
      omega
  rw [hdeg]
  exact ⟨newest_logFault _ _ _ _ _ _ _ (by decide), (OnlyPort.setPort ..).log (logNow_logFault ..)⟩
theorem sweep_degrade (h : (port s p).sweep.busy = false) : (port (degrade p lane eyes s) p).sweep = (port s p).sweep := by
  by_cases hd : (port s p).degraded = true ∨ (healthy (port s p) lane eyes).length < 2
  · rw [degrade_out hd]
    have hlog := logNow_logFault (s := setPort p { port s p with bad := (port s p).bad ||| BitVec.ofNat 5 (2 ^ lane) } s) 0x201 2 (uPort p) none lane 0
    generalize logFault 0x201 2 (uPort p) none lane 0 (setPort p { port s p with bad := (port s p).bad ||| BitVec.ofNat 5 (2 ^ lane) } s) = v at hlog ⊢
    have hport : port v p = { port s p with bad := (port s p).bad ||| BitVec.ofNat 5 (2 ^ lane) } := by
      obtain ⟨r, pd, i, rfl⟩ := hlog
      exact port_setPort_same ..
    rw [sweep_outOfService (by rw [hport]; exact h), hport]
  · rw [not_or, Bool.not_eq_true, Nat.not_lt] at hd
    obtain ⟨-, hport, -⟩ := degrade_two hd.1 hd.2
    rw [hport]

/-- The port with its failed lane's data on the spare. -/
def sparedPort (x : Port) (l : Nat) : Port := { x with lanes := toSpare x l, spareUsed := true, bad := x.bad ||| BitVec.ofNat 5 (2 ^ l) }
/-- The lane that fails goes to the spare: the device after it. -/
def laneSpared (p lane : Nat) (s : State) : State :=
  useSpare 8 (logFault 0x203 1 (uPort p) none lane 0 (sendCtl p 0x87 (BitVec.ofNat 40 (lane * 256 + ((port s p).txSeq + 16).toNat)) []
    (setPort p (sparedPort (port s p) lane) s)))
theorem laneFails_still (h : ¬((port s p).state = .up ∧ (port s p).lanes.getLsbD lane = true)) : laneFails p lane eyes s = s := by
  refine if_pos ?_
  simp only [portUp, Bool.not_eq_true', decide_eq_false_iff_not]
  by_contra hc
  rw [not_or, not_not, Bool.not_eq_false] at hc
  exact h hc
theorem laneFails_eq (h : (port s p).state = .up ∧ (port s p).lanes.getLsbD lane = true) : laneFails p lane eyes s =
    (let a := abortSweep p 4 s
     if (reg a (vxBase p + 0x14)).getLsbD 0 = true ∧ (port a p).spareUsed = false ∧ (port a p).degraded = false ∧
       (port a p).bad.getLsbD (port a p).spare = false then laneSpared p lane a else degrade p lane eyes a) := by
  refine (if_neg ?_).trans (if_congr ?_ rfl rfl)
  · rw [portUp, decide_eq_true h.1, h.2]
    decide
  · simp only [Bool.and_eq_true, Bool.not_eq_true', and_assoc]
theorem laneSpared_spec (p lane : Nat) (s : State) : Newest 0x203 (laneSpared p lane s) ∧ spareLeft (laneSpared p lane s) 8 = spareLeft s 8 - 1 ∧
    OnlyPort p (framed (sparedPort (port s p) lane) [ctlMsg 0x87 (lane * 256 + ((port s p).txSeq + 16).toNat)]) s (laneSpared p lane s) := by
  unfold laneSpared
  have hsend := (OnlyPort.setPort p (sparedPort (port s p) lane) s).sends 0x87 (lane * 256 + ((port s p).txSeq + 16).toNat)
  generalize hv : sendCtl p 0x87 (BitVec.ofNat 40 (lane * 256 + ((port s p).txSeq + 16).toNat)) [] (setPort p (sparedPort (port s p) lane) s) = v at hsend ⊢
  have hspare : v.resil = s.resil := by rw [← hv]; rfl
  obtain ⟨e, n, pd, i, he, hl⟩ := logFault_eq (s := v) 0x203 1 (uPort p) none lane 0 (by decide)
  rw [hl]
  refine ⟨⟨e, _, rfl, he⟩, ?_, hsend.beside rfl rfl rfl rfl⟩
  refine (smGet_smPut_same ..).trans ?_
  rw [spareLeft, spareLeft, hspare]

theorem swapArrives_back (hup : (port s p).state = .up) (hb : (port s p).bad.getLsbD lane = false) :
    swapArrives p lane true eyes s = setPort p { port s p with lanes := fromSpare (port s p) lane, spareUsed := false } s := by
  refine (if_neg ?_).trans ((if_pos rfl).trans (if_neg ?_))
  · simp [portUp, hup]
  · simp [hb]
theorem swapArrives_back_still (h : (port s p).state ≠ .up ∨ (port s p).bad.getLsbD lane = true) : swapArrives p lane true eyes s = s := by
  by_cases hup : (port s p).state = .up
  · exact (if_neg (by simp [portUp, hup])).trans ((if_pos rfl).trans (if_pos (h.resolve_left (not_not.mpr hup))))
  · exact if_pos (by simp [portUp, hup])
theorem swapArrives_still (h : ¬((port s p).state = .up ∧ (port s p).lanes.getLsbD lane = true)) : swapArrives p lane false eyes s = s := by
  by_cases hup : (port s p).state = .up
  · have hl : (port s p).lanes.getLsbD lane = false := by simpa [hup] using h
    exact (if_neg (by simp [portUp, hup])).trans ((if_neg Bool.false_ne_true).trans (if_pos (by simp [hl])))
  · exact if_pos (by simp [portUp, hup])
theorem swapArrives_away (h : (port s p).state = .up ∧ (port s p).lanes.getLsbD lane = true) : swapArrives p lane false eyes s =
    if (port s p).spareUsed = true then degrade p lane eyes s
    else setPort p { port s p with lanes := toSpare (port s p) lane, spareUsed := true } s :=
  (if_neg (by simp [portUp, h.1])).trans ((if_neg Bool.false_ne_true).trans (if_neg (by simp [h.2])))
end

/-! ### Link power (R391 to R393) -/

/-- The port asks for, or wants, rest: what the rules of R392 name. -/
def wantsRest (s : State) (p : Nat) : Prop :=
  s.power.mode = .deepDoze ∨ s.power.entering = true ∨ fld (regAct s (vxBase p + 0x18)) 31 16 ≠ 0
theorem standbyIdle_rests (hup : (port s p).state = .up) (hh : heldActive s p = false) (hp : (port s p).pwr = .active)
    (hi : fld (regAct s (vxBase p + 0x18)) 15 0 ≠ 0) : standbyIdle p s = setPort p { port s p with pwr := .standby } s := by
  have hsweep : (port s p).sweep.busy = false := by
    simp only [heldActive, Bool.or_eq_false_iff] at hh
    exact hh.1.2
  refine (if_pos ?_).trans (by rw [abortSweep_idle hsweep])
  simp [portUp, hup, hp, hi, hh]
theorem standbyIdle_still (h : ¬((port s p).state = .up ∧ heldActive s p = false) ∨ (port s p).pwr ≠ .active ∨
    fld (regAct s (vxBase p + 0x18)) 15 0 = 0) : standbyIdle p s = s := by
  refine if_neg fun hc => ?_
  simp only [portUp, Bool.and_eq_true, decide_eq_true_eq, bne_iff_ne, ne_eq, Bool.not_eq_true'] at hc
  obtain ⟨⟨⟨h1, h2⟩, h3⟩, h4⟩ := hc
  exact h.elim (fun h => h ⟨h1, h4⟩) fun h => h.elim (fun h => h h2) fun h => h3 h
theorem askSleep_iff : (portUp s p && decide ((port s p).pwr ≠ .listen) &&
      (decide (s.power.mode = .deepDoze) || s.power.entering || fld (regAct s (vxBase p + 0x18)) 31 16 != 0) && !heldActive s p && !(port s p).sleepReq) = true ↔
    ((port s p).state = .up ∧ heldActive s p = false) ∧ (port s p).pwr ≠ .listen ∧ wantsRest s p ∧ (port s p).sleepReq = false := by
  simp only [portUp, wantsRest, Bool.and_eq_true, Bool.or_eq_true, decide_eq_true_eq, bne_iff_ne, Bool.not_eq_true', ne_eq, or_assoc]
  exact ⟨fun ⟨⟨⟨⟨h1, h2⟩, h3⟩, h4⟩, h5⟩ => ⟨⟨h1, h4⟩, h2, h3, h5⟩, fun ⟨⟨h1, h4⟩, h2, h3, h5⟩ => ⟨⟨⟨⟨h1, h2⟩, h3⟩, h4⟩, h5⟩⟩
theorem askSleep_asks (h : ((port s p).state = .up ∧ heldActive s p = false) ∧ (port s p).pwr ≠ .listen ∧ wantsRest s p ∧ (port s p).sleepReq = false) :
    OnlyPort p (framed { port s p with sleepReq := true } [ctlMsg 0x85 0]) s (askSleep p s) := by
  rw [show askSleep p s = sendCtl p 0x85 0 [] (setPort p { port s p with sleepReq := true } s) from if_pos (askSleep_iff.mpr h)]
  exact (OnlyPort.setPort ..).sends ..
theorem askSleep_still (h : ¬((port s p).state = .up ∧ heldActive s p = false) ∨ (port s p).pwr = .listen ∨ ¬wantsRest s p ∨ (port s p).sleepReq = true) :
    askSleep p s = s := by
  refine if_neg fun hc => ?_
  obtain ⟨h1, h2, h3, h4⟩ := askSleep_iff.mp hc
  exact h.elim (fun h => h h1) fun h => h.elim h2 fun h => h.elim (fun h => h h3) fun h => by rw [h4] at h; cases h

/-- Both sides have agreed to rest: the port listens once every frame is acknowledged. -/
theorem settleSleep_agreed (hq : s.links.waiting = [] ∧ s.links.cohOut = []) (hb : (port s p).retryBuf = []) :
    OnlyPort p { port s p with pwr := .listen, sleepAgreed := false, sleepReq := false } s
      (settleSleep p (setPort p { port s p with sleepAgreed := true } s)) := by
  have hset : settleSleep p (setPort p { port s p with sleepAgreed := true } s) = reroute (setPort p { port s p with
      pwr := .listen, sleepAgreed := false, sleepReq := false } (setPort p { port s p with sleepAgreed := true } s)) := by
    unfold settleSleep
    rw [port_setPort_same]
    exact if_pos (by simp [hb])
  rw [hset]
  exact ((OnlyPort.setPort p { port s p with sleepAgreed := true } s).set _).rerouted hq.1 hq.2
theorem settleSleep_waits (hb : (port s p).retryBuf ≠ []) :
    settleSleep p (setPort p { port s p with sleepAgreed := true } s) = setPort p { port s p with sleepAgreed := true } s := by
  unfold settleSleep
  rw [port_setPort_same]
  exact if_neg (by simp [hb])
theorem sleepAsked_agrees (hup : (port s p).state = .up) (hp : (port s p).pwr ≠ .listen) (hr : (port s p).sleepReq = true) :
    sleepAsked p s = settleSleep p (setPort p { port s p with sleepAgreed := true } s) :=
  (if_neg (by simp [portUp, hup, hp])).trans (if_pos hr)
theorem sleepAsked_answers (hup : (port s p).state = .up) (hh : heldActive s p = false) (hp : (port s p).pwr ≠ .listen) (hr : (port s p).sleepReq = false)
    (hw : s.links.waiting = []) : OnlyPort p { framed (port s p) [ctlMsg 0x86 0] with sleepAgreed := true } s (sleepAsked p s) := by
  have hask : sleepAsked p s = setPort p { port (sendCtl p 0x86 0 [] s) p with sleepAgreed := true } (sendCtl p 0x86 0 [] s) :=
    (if_neg (by simp [portUp, hup, hp])).trans ((if_neg (by simp [hr])).trans (if_neg (by simp [hh, hw])))
  have hsend := (OnlyPort.refl p s).sends 0x86 0
  have hport : port (sendCtl p 0x86 0 [] s) p = framed (port s p) [ctlMsg 0x86 0] := hsend.1
  rw [hask, hport]
  exact hsend.set _
theorem sleepAsked_still (h : (port s p).state ≠ .up ∨ (port s p).pwr = .listen ∨
    ((port s p).sleepReq = false ∧ (heldActive s p = true ∨ s.links.waiting ≠ []))) : sleepAsked p s = s := by
  by_cases hc : (!portUp s p) = true ∨ (port s p).pwr = .listen
  · exact if_pos hc
  · have hc' := hc
    simp only [portUp, Bool.not_eq_true', decide_eq_false_iff_not, not_or, not_not] at hc'
    obtain ⟨hr, hw⟩ := (h.resolve_left (not_not.mpr hc'.1)).resolve_left hc'.2
    refine (if_neg hc).trans ((if_neg (by simp [hr])).trans (if_pos ?_))
    rw [Bool.or_eq_true, Bool.not_eq_true', List.isEmpty_eq_false_iff]
    exact hw
theorem sleepAcked_agrees (hup : (port s p).state = .up) (hr : (port s p).sleepReq = true) :
    sleepAcked p s = settleSleep p (setPort p { port s p with sleepAgreed := true } s) := if_pos (by simp [portUp, hup, hr])
theorem sleepAcked_still (h : (port s p).state ≠ .up ∨ (port s p).sleepReq = false) : sleepAcked p s = s := by
  refine if_neg fun hc => ?_
  simp only [portUp, Bool.and_eq_true, decide_eq_true_eq] at hc
  exact h.elim (fun h => h hc.1) fun h => by rw [hc.2] at h; cases h
theorem wakeArrives_wakes (hp : (port s p).pwr = .listen) (hq : s.links.waiting = [] ∧ s.links.cohOut = []) : OnlyPort p
    { port s p with pwr := .active, credits := [], retries := 0, sleepReq := false, sleepAgreed := false } s (wakeArrives p s) := by
  rw [show wakeArrives p s = reroute (latchWake wakeLink (retrained p s)) from if_pos hp]
  have hset := OnlyPort.setPort p { port s p with pwr := .active, credits := [], retries := 0, sleepReq := false, sleepAgreed := false } s
  obtain ⟨w, hw⟩ : ∃ w, latchWake wakeLink (retrained p s) = { retrained p s with power := w } := by
    unfold latchWake
    extract_lets b
    split
    · exact ⟨_, rfl⟩
    · split
      · exact ⟨_, rfl⟩
      · split
        · exact ⟨_, rfl⟩
        · exact ⟨_, rfl⟩
  rw [hw]
  exact OnlyPort.rerouted (hset.beside rfl rfl rfl rfl) hq.1 hq.2

/-! ### Eye sweeps (R394, R395) -/

/-- The port of a sweep that has completed. -/
def sweepOver (x : Port) : Port :=
  { x with lanes := lanesBack x, sweep := { x.sweep with busy := false, done := true, incomplete := false, reason := 0, swapped := false } }
theorem sweepAsked_still {lane : Nat} (h : (port s p).state ≠ .up) : sweepAsked p lane s = s := if_pos (by simp [portUp, h])
theorem sweepAsked_takes {lane : Nat} (hup : (port s p).state = .up) (hc : (reg s (vxBase p + 0x104)).getLsbD 0 = true)
    (hb : ¬((port s p).spareUsed = true ∧ (port s p).lanes.getLsbD lane = true)) :
    OnlyPort p (framed { port s p with sweep := { (port s p).sweep with forPeer := true } } [ctlMsg 0x89 1]) s (sweepAsked p lane s) := by
  rw [show sweepAsked p lane s = sendCtl p 0x89 1 [] (setPort p { port s p with sweep := { (port s p).sweep with forPeer := true } } s) from
    (if_neg (by simp [portUp, hup])).trans (if_pos (by rw [hc, Bool.true_and, Bool.not_eq_true', ← Bool.not_eq_true, Bool.and_eq_true]; exact hb))]
  exact (OnlyPort.setPort ..).sends 0x89 1
theorem sweepAsked_refuses {lane : Nat} (hup : (port s p).state = .up) (h : (reg s (vxBase p + 0x104)).getLsbD 0 = false ∨
    ((port s p).spareUsed = true ∧ (port s p).lanes.getLsbD lane = true)) : OnlyPort p (framed (port s p) [ctlMsg 0x89 0]) s (sweepAsked p lane s) := by
  rw [show sweepAsked p lane s = sendCtl p 0x89 0 [] s from (if_neg (by simp [portUp, hup])).trans (if_neg (by
    obtain h | ⟨h1, h2⟩ := h
    · rw [h, Bool.false_and]
      exact Bool.false_ne_true
    · simp [h1, h2]))]
  exact (OnlyPort.refl p s).sends 0x89 0
section
variable (hb : (port s p).sweep.busy = true)
include hb
theorem sweepAnswered_borrows (hl : (port s p).lanes.getLsbD (port s p).sweep.lane = true) : OnlyPort p (framed
    { port s p with lanes := toSpare (port s p) (port s p).sweep.lane, sweep := { (port s p).sweep with swapped := true } }
    [ctlMsg 0x87 ((port s p).sweep.lane * 256 + ((port s p).txSeq + 16).toNat)]) s (sweepAnswered p true s) := by
  rw [show sweepAnswered p true s = sendCtl p 0x87 (BitVec.ofNat 40 ((port s p).sweep.lane * 256 + ((port s p).txSeq + 16).toNat)) []
      (setPort p { port s p with lanes := toSpare (port s p) (port s p).sweep.lane, sweep := { (port s p).sweep with swapped := true } } s) from
    (if_neg (by simp [hb])).trans ((if_neg (by simp)).trans (if_pos hl))]
  exact (OnlyPort.setPort ..).sends ..
theorem sweepAnswered_spare (hl : (port s p).lanes.getLsbD (port s p).sweep.lane = false) : sweepAnswered p true s = s :=
  (if_neg (by simp [hb])).trans ((if_neg (by simp)).trans (if_neg (by simp [hl])))
theorem sweepAnswered_refused : sweepAnswered p false s = abortSweep p 2 s := (if_neg (by simp [hb])).trans (if_pos rfl)
theorem sweepEnded_busy (hup : (port s p).state = .up) : OnlyPort p (framed { sweepStopped (port s p) 7 with
    sweep := { (sweepStopped (port s p) 7).sweep with forPeer := false } } [ctlMsg 0x8A 7]) s (sweepEnded p s) := by
  have hport := port_setPort_same p { port s p with sweep := { (port s p).sweep with forPeer := false } } s
  have hab := abortSweep_busy (s := setPort p { port s p with sweep := { (port s p).sweep with forPeer := false } } s) (p := p) (r := 7)
    (by rw [hport]; exact hb)
  rw [hport, if_pos (show (port s p).state = .up from hup)] at hab
  rw [show sweepEnded p s = _ from hab]
  exact ((OnlyPort.setPort p { port s p with sweep := { (port s p).sweep with forPeer := false } } s).set _).sends 0x8A 7
/-- What a sweep that has completed leaves of its port and of the results. -/
theorem sweepDone_spec (r0 r1 r2 : Word32) : OnlyPort p (framed (sweepOver (port s p)) [ctlMsg 0x8A 0]) s (sweepDone p r0 r1 r2 s) ∧
    reg (sweepDone p r0 r1 r2 s) (vxBase p + 0x110) = r0 ∧ reg (sweepDone p r0 r1 r2 s) (vxBase p + 0x110 + 4) = r1 ∧
    reg (sweepDone p r0 r1 r2 s) (vxBase p + 0x110 + 8) = r2 ∧
    ∀ o, o < vxBase p + 0x110 ∨ vxBase p + 0x110 + 8 < o → reg (sweepDone p r0 r1 r2 s) o = reg s o := by
  have hdone : sweepDone p r0 r1 r2 s = sendCtl p 0x8A 0 [] (setReg (vxBase p + 0x118) r2 (setReg (vxBase p + 0x114) r1 (setReg (vxBase p + 0x110) r0
      (setPort p (sweepOver (port s p)) s)))) := by
    refine (if_neg (by simp [hb])).trans ?_
    rw [unswap_eq]
    rfl
  have hreg (o : Nat) : reg (sweepDone p r0 r1 r2 s) o = if o = vxBase p + 0x118 then r2 else if o = vxBase p + 0x114 then r1
      else if o = vxBase p + 0x110 then r0 else reg s o := by
    rw [hdone]
    exact (smGet_smPut ..).trans (if_congr Iff.rfl rfl ((smGet_smPut ..).trans (if_congr Iff.rfl rfl (smGet_smPut ..))))
  refine ⟨?_, ?_, ?_, ?_, fun o ho => ?_⟩
  · rw [hdone]
    exact OnlyPort.sends (OnlyPort.beside (OnlyPort.setPort ..) rfl rfl rfl rfl) 0x8A 0
  · rw [hreg, if_neg (by omega), if_neg (by omega), if_pos rfl]
  · rw [hreg, if_neg (by omega), if_pos rfl]
  · rw [hreg, if_pos rfl]
  · rw [hreg, if_neg (by omega), if_neg (by omega), if_neg (by omega)]
end
theorem sweepEnded_idle (hb : (port s p).sweep.busy = false) :
    sweepEnded p s = setPort p { port s p with sweep := { (port s p).sweep with forPeer := false } } s :=
  abortSweep_idle (by rw [updPort, port_setPort_same]; exact hb)

/-! ### Commands (R395, R401) -/

theorem findReg_vxCmd : ∀ p : Fin 8, findReg (vxBase p.val + 0x10) =
    some ({ name := .vxCmd, off := 0x4000010, dims := [(0x100000, 8)], acc := .wo, bits := 0xf0000000 }, [p.val]) := by decide +kernel
theorem findReg_vxCmdSweep : ∀ p : Fin 8, findReg (vxBase p.val + 0x100) =
    some ({ name := .vxCmdSweep, off := 0x4000100, dims := [(0x100000, 8)], acc := .wo, bits := 0xf0000007 }, [p.val]) := by decide +kernel
section
variable {w : Writer} {p : Fin 8} {v : Word32} {i : Instr}

theorem vxCmd_orders (hr : Reaches w 1 0 (vxBase p.val + 0x10) s) (hi : exec i s = .next (sdc w (vxBase p.val + 0x10) v s)) :
    Orders i w { name := .vxCmd, off := 0x4000010, dims := [(0x100000, 8)], acc := .wo, bits := 0xf0000000 } [p.val] (vxBase p.val + 0x10) v s := by
  refine ⟨findReg_vxCmd p, hi, rfl, rfl, by decide, ?_⟩
  rw [show needLevel s { name := .vxCmd, off := 0x4000010, dims := [(0x100000, 8)], acc := .wo, bits := 0xf0000000 } (vxBase p.val + 0x10) true = 1 from
    blockLevel_supervisor (by unfold vxBase; omega) (by unfold vxBase; omega)]
  exact hr
theorem vxSweep_orders (hr : Reaches w 1 0 (vxBase p.val + 0x100) s) (hi : exec i s = .next (sdc w (vxBase p.val + 0x100) v s)) :
    Orders i w { name := .vxCmdSweep, off := 0x4000100, dims := [(0x100000, 8)], acc := .wo, bits := 0xf0000007 } [p.val] (vxBase p.val + 0x100) v s := by
  refine ⟨findReg_vxCmdSweep p, hi, rfl, rfl, by decide, ?_⟩
  rw [show needLevel s { name := .vxCmdSweep, off := 0x4000100, dims := [(0x100000, 8)], acc := .wo, bits := 0xf0000007 } (vxBase p.val + 0x100) true = 1 from
    blockLevel_supervisor (by unfold vxBase; omega) (by unfold vxBase; omega)]
  exact hr

theorem vxCmd_eq {op : Nat} (hop : op = 1 ∨ op = 2 ∨ op = 3) : vxCmd p.val (opWord op 0) s =
    if (port s p.val).state = .training then (7, s) else if op = 2 then (0, outOfService p.val s)
    else (0, setPort p.val { port (abortSweep p.val 1 s) p.val with state := .training, attempts := 0 } (abortSweep p.val 1 s)) := by
  have hfld : fld (opWord op 0) 31 28 = op ∧ fld (opWord op 0) 27 0 = 0 := by
    obtain rfl | rfl | rfl := hop <;> decide
  unfold vxCmd
  rw [hfld.1, hfld.2]
  exact if_neg (by omega)
theorem vxCmd_busy {op : Nat} (hop : op = 1 ∨ op = 2 ∨ op = 3) (ht : (port s p.val).state = .training) : vxCmd p.val (opWord op 0) s = (7, s) := by
  rw [vxCmd_eq hop, if_pos ht]
theorem vxCmd_trains {op : Nat} (hop : op = 1 ∨ op = 3) (ht : (port s p.val).state ≠ .training) (hb : (port s p.val).sweep.busy = false) :
    vxCmd p.val (opWord op 0) s = (0, setPort p.val { port s p.val with state := .training, attempts := 0 } s) := by
  rw [vxCmd_eq (by omega), if_neg ht, if_neg (by omega), abortSweep_idle hb]
theorem vxCmd_leaves (ht : (port s p.val).state ≠ .training) : vxCmd p.val (opWord 2 0) s = (0, outOfService p.val s) := by
  rw [vxCmd_eq (by omega), if_neg ht, if_pos rfl]

/-- The word that starts the sweep of a lane. -/
theorem fld_sweepWord (op l : Nat) (hop : op < 16) (hl : l < 8) : fld (opWord op (BitVec.ofNat 28 l)) 31 28 = op ∧
    fld (opWord op (BitVec.ofNat 28 l)) 27 3 = 0 ∧ fld (opWord op (BitVec.ofNat 28 l)) 2 0 = l := by
  simp only [fld, natBits, opWord, BitVec.toNat_ofNat]
  omega
theorem vxSweep_start (l : Nat) (hl : l < 8) : vxSweep p.val (opWord 1 (BitVec.ofNat 28 l)) s =
    if (port s p.val).state ≠ .up then (14, s) else if 4 < l then (3, s)
    else if (port s p.val).sweep.busy = true ∨ ((port s p.val).spareUsed = true ∧ (port s p.val).lanes.getLsbD l = true) then (7, s)
    else (0, sendCtl p.val 0x88 (BitVec.ofNat 40 l) []
      (setPort p.val { port s p.val with sweep := { busy := true, lane := l, forPeer := (port s p.val).sweep.forPeer } } s)) := by
  obtain ⟨h1, h2, h3⟩ := fld_sweepWord 1 l (by decide) hl
  unfold vxSweep
  rw [h1, h2, h3]
  refine if_congr (and_iff_right rfl) rfl ((if_neg (by omega)).trans ((if_neg (by omega)).trans (if_congr Iff.rfl rfl (if_congr ?_ rfl rfl))))
  rw [Bool.or_eq_true, Bool.and_eq_true]
theorem vxSweep_abort : vxSweep p.val (opWord 2 0) s = (0, abortSweep p.val 5 s) := by
  have h1 : fld (opWord 2 0) 31 28 = 2 := by decide
  have h2 : fld (opWord 2 0) 27 3 = 0 := by decide
  unfold vxSweep
  rw [h1, h2]
  exact (if_neg (by omega)).trans ((if_neg (by omega)).trans (if_pos rfl))
end

/-- Settles O45: each port command by its one port; a port that leaves service by what its join leaves. -/
theorem portsTrainRestAndSweep : Obligations.PortsTrainRestAndSweep := by
  unfold Obligations.PortsTrainRestAndSweep
  intro s p w lane eyes po sp bitOf ln same only cmd ready quiet logged goesOut
  have hsame {i : Instr} {f : State} (hi : exec i s = .next f) (h : f = s) : same i := by rw [h] at hi; exact hi
  have honly {i : Instr} {f : State} {x : Port} (hi : exec i s = .next f) (h : OnlyPort p.val x s f) : only i x := ⟨f, hi, h⟩
  have hset {i : Instr} {f : State} {x : Port} (hi : exec i s = .next f) (h : f = setPort p.val x s) : only i x := ⟨f, hi, h ▸ .setPort ..⟩
  have hgoes {i : Instr} {k cls unit a0 a1 : Nat} {lc : Option Nat} {x : Port} (hc : cls ≠ 0)
      (hi : exec i s = .next (outOfService p.val (logFault k cls unit lc a0 a1 (setPort p.val x s)))) (hx : x.state ≠ .out) (hj : x.join = po.join) :
      goesOut i k := fun hnon hq => ⟨_, hi, goes_out hc hx (by rw [hj]; exact hnon) hq⟩
  refine ⟨?_, ?_, ?_, rfl, ?_, ?_, ?_, ?_⟩
  · intro ok usable dev ps pp major caps ls fit trains data
    refine ⟨fun h => hsame rfl (capsArrive_still _ _ _ _ _ _ _ h), fun ht hf hq => ?_, fun ht hf => ?_⟩
    · obtain ⟨honly', hnew, hres⟩ := capsArrive_fits ok usable eyes dev.toNat ps.toNat pp.toNat major.toNat ht (ls := ls) rfl hf hq
      refine ⟨_, rfl, trainedSpare ls, spare_lt fun l hl => ?_, fun l h4 => by rw [trainedSpare, h4]; rfl, ?_, hnew, hres⟩
      · exact List.mem_range.mp (List.mem_filter.mp (byEye_subset _ _ l hl)).1
      · simp only [trainedPort, decide_eq_true_eq, ← decide_not, Nat.not_le] at honly'
        exact honly'
    · obtain ⟨lane, hfail⟩ := capsArrive_fails ok usable eyes dev.toNat ps.toNat pp.toNat major.toNat ht (ls := ls) rfl hf
      refine ⟨fun ha => hset rfl (hfail.trans (trainFailed_again ha)), fun ha => ?_⟩
      exact hgoes (by decide) (congrArg _ (hfail.trans (trainFailed_out ha))) nofun rfl
  · intro carries ls degrades fails
    have hdegrades {i : Instr} {e : List Nat} (hup : po.state = .up) (hi : exec i s = .next (degrade p.val lane.val e s)) : degrades i e := by
      refine ⟨fun h => hgoes (by decide) (hi.trans (congrArg _ (degrade_out h))) ?_ rfl, fun hd hl => ?_⟩
      · rw [show (port s p.val).state = .up from hup]
        exact nofun
      · obtain ⟨hnew, hport⟩ := degrade_two hd hl
        exact ⟨_, hi, hnew, hport⟩
    have hfails {i : Instr} {e : List Nat} (hi : exec i s = .next (laneFails p.val lane.val e s)) : fails i e := by
      intro hcar hbusy takes
      have hlf := laneFails_eq (eyes := e) hcar
      rw [abortSweep_idle hbusy] at hlf
      refine ⟨fun ht => ⟨_, hi.trans (congrArg _ (hlf.trans (if_pos ht))), laneSpared_spec ..⟩, fun ht => ?_⟩
      exact hdegrades hcar.1 (hi.trans (congrArg _ (hlf.trans (if_neg ht))))
    have hretune (hu : po.spareUsed = false) (hb : po.sweep.busy = false) :
        exec (.laneRetune p lane false) s = .next (laneFails p.val lane.val [] s) := if_neg (by
      rw [show (port s p.val).spareUsed = false from hu, show (port s p.val).sweep.busy = false from hb]
      decide)
    refine ⟨hfails rfl, fun hu hcar hb => hfails (hretune hu hb) hcar hb, fun hcar hb => ?_, if_pos (Bool.or_true _), fun h => if_pos ?_,
      fun hno => ⟨hsame rfl (laneFails_still hno), ?_, hsame rfl (swapArrives_still hno)⟩, fun hcar => ⟨fun hu => ?_, fun hu => ?_⟩,
      fun hup hb => hset rfl (swapArrives_back hup hb), fun h => hsame rfl (swapArrives_back_still h)⟩
    · obtain ⟨hport, -⟩ := abortSweep_up (r := 4) hb hcar.1
      refine ⟨_, rfl, ?_⟩
      rw [laneFails_eq hcar]
      generalize abortSweep p.val 4 s = a at hport
      dsimp only
      have hsweep : (port a p.val).sweep = (sweepStopped po 4).sweep := by rw [hport]; rfl
      split
      · obtain ⟨-, -, hp, -⟩ := laneSpared_spec p.val lane.val a
        rw [hp]
        show (port a p.val).sweep.busy = false ∧ (port a p.val).sweep.incomplete = true ∧ (port a p.val).sweep.reason = 4
        rw [hsweep]
        exact ⟨rfl, rfl, rfl⟩
      · rw [sweep_degrade (by rw [hsweep]; rfl), hsweep]
        exact ⟨rfl, rfl, rfl⟩
    · rw [Bool.or_false, Bool.or_eq_true]
      exact h
    · by_cases hu : po.spareUsed = true ∨ po.sweep.busy = true
      · refine if_pos ?_
        rw [Bool.or_false, Bool.or_eq_true]
        exact hu
      · rw [not_or, Bool.not_eq_true, Bool.not_eq_true] at hu
        exact hsame (hretune hu.1 hu.2) (laneFails_still hno)
    · exact hset rfl ((swapArrives_away hcar).trans (if_neg (by rw [show (port s p.val).spareUsed = false from hu]; exact Bool.false_ne_true)))
    · exact hdegrades hcar.1 (congrArg _ ((swapArrives_away hcar).trans (if_pos hu)))
  · intro hup hu
    refine hset (if_neg ?_) rfl
    simp [portUp, show (port s p.val).spareUsed = false from hu, show (port s p.val).state = .up from hup]
  · intro h
    refine if_pos ?_
    obtain h | h := h
    · simp [portUp, show (port s p.val).state ≠ .up from h]
    · simp [show (port s p.val).spareUsed = true from h]
  · intro wants rests agrees
    have hagrees {i : Instr} (hi : exec i s = .next (settleSleep p.val (setPort p.val { po with sleepAgreed := true } s))) : agrees i :=
      ⟨fun hb hq => honly hi (settleSleep_agreed hq hb), fun hb => hset hi (settleSleep_waits hb)⟩
    refine ⟨fun hr hp hi => hset rfl (standbyIdle_rests hr.1 hr.2 hp hi), fun h => hsame rfl (standbyIdle_still h),
      fun hr hp hw hs => honly rfl (askSleep_asks ⟨hr, hp, hw, hs⟩), fun h => hsame rfl (askSleep_still h),
      fun hr hp hs hw => honly rfl (sleepAsked_answers hr.1 hr.2 hp hs hw), fun hup hp hs => hagrees (congrArg _ (sleepAsked_agrees hup hp hs)),
      fun h => hsame rfl (sleepAsked_still h), fun hup hs => hagrees (congrArg _ (sleepAcked_agrees hup hs)), fun h => hsame rfl (sleepAcked_still h),
      fun ha => hset rfl ?_, fun ha => hset rfl ?_, fun hp hq => honly rfl (wakeArrives_wakes hp hq), fun hp => hsame rfl (if_neg hp)⟩
    · show setPort p.val { po with sleepReq := po.sleepReq && po.sleepAgreed } s = _
      rw [ha, Bool.and_false]
    · have hreq : (po.sleepReq && po.sleepAgreed) = po.sleepReq := by rw [ha, Bool.and_true]
      exact congrArg (fun b => setPort p.val { po with sleepReq := b } s) hreq
  · intro w0 back stopped busySpare
    have hstopped (r : Nat) : stopped r = sweepStopped po r := rfl
    refine ⟨fun h => hsame rfl (sweepAsked_still h), fun hup => ⟨fun hc hb => honly rfl (sweepAsked_takes hup hc hb),
        fun h => honly rfl (sweepAsked_refuses hup h), fun hb => ⟨fun hl => honly rfl (sweepAnswered_borrows hb hl),
          fun hl => hsame rfl (sweepAnswered_spare hb hl), honly rfl (sweepAnswered_refused hb ▸ abortSweep_up hb hup),
          honly rfl (abortSweep_up hb hup), honly rfl (sweepEnded_busy hb hup), fun hr => ?_⟩⟩,
      fun hb => hset rfl (sweepEnded_idle hb), fun r0 r1 r2 hb => ⟨_, rfl, sweepDone_spec hb r0 r1 r2⟩, fun hb => ⟨?_, ?_, ?_, fun r0 r1 r2 => ?_⟩,
      fun hr => ⟨fun hup hb hs => ?_, fun hup h => ?_, fun hup => ?_, fun hup => ?_, fun hb => ?_⟩⟩
    · exact (vxSweep_orders hr.2 rfl).commands vxSweep_abort (abortSweep_up hb hup)
    · exact hsame rfl (if_pos (by simp [show (port s p.val).sweep.busy = false from hb]))
    · exact hsame rfl (if_pos (by simp [show (port s p.val).sweep.busy = false from hb]))
    · exact hsame rfl (abortSweep_idle hb)
    · exact hsame rfl (if_pos (by simp [show (port s p.val).sweep.busy = false from hb]))
    · have hword : BitVec.ofNat 32 (0x10000000 + lane.val) = opWord 1 (BitVec.ofNat 28 lane.val) := by
        rw [opWord, BitVec.toNat_ofNat, Nat.mod_eq_of_lt (by omega), Nat.one_mul]
        rfl
      show Commands _ _ _ (BitVec.ofNat 32 (0x10000000 + lane.val)) _ _
      rw [hword]
      refine (vxSweep_orders hr.2 rfl).commands ((vxSweep_start lane.val (by omega)).trans ?_) ((OnlyPort.setPort ..).sends ..)
      rw [if_neg (not_not.mpr hup), if_neg (by omega), if_neg]
      · exact fun h => h.elim (fun h => by rw [show (port s p.val).sweep.busy = false from hb] at h; cases h) hs
    · refine (vxSweep_orders hr.2 rfl).refuses (a := s) ((vxSweep_start lane.val (by omega)).trans ?_) rfl (by decide)
      rw [if_neg (not_not.mpr hup), if_neg (by omega), if_pos h]
    · refine (vxSweep_orders hr.2 rfl).refuses (a := s) ((vxSweep_start 5 (by decide)).trans ?_) rfl (by decide)
      rw [if_neg (not_not.mpr hup), if_pos (by decide)]
    · refine (vxSweep_orders hr.2 rfl).refuses (a := s) ((vxSweep_start 0 (by decide)).trans ?_) rfl (by decide)
      rw [if_pos hup]
    · refine (vxSweep_orders hr.2 rfl).commands (u := s) (vxSweep_abort.trans ?_) (.refl ..)
      rw [abortSweep_idle hb]
  · intro leaves gone
    have hgone (E : State → Prop) (h : E (outOfService p.val s)) : gone E :=
      ⟨⟨_, rfl, h⟩, fun hr ht => (vxCmd_orders hr.1 rfl).commands (vxCmd_leaves ht) h⟩
    have hbytes {t : State} (h : t.mem = s.mem) : SameBytes s t := fun a => by rw [readByte, readByte, h]
    refine ⟨fun hr => ⟨fun ht => ⟨?_, ?_, ?_⟩, fun ht hb => ⟨?_, ?_⟩⟩, fun h => hsame rfl (if_pos h),
      fun hout _ hq => ⟨fun hj => ?_, fun hj => ?_, fun hj hmore => ?_, fun hj hlast hno => ?_⟩⟩
    · exact (vxCmd_orders hr.1 rfl).refuses (a := s) (vxCmd_busy (.inl rfl) ht) rfl (by decide)
    · exact (vxCmd_orders hr.1 rfl).refuses (a := s) (vxCmd_busy (.inr (.inr rfl)) ht) rfl (by decide)
    · exact (vxCmd_orders hr.1 rfl).refuses (a := s) (vxCmd_busy (.inr (.inl rfl)) ht) rfl (by decide)
    · exact (vxCmd_orders hr.1 rfl).commands (vxCmd_trains (.inl rfl) ht hb) (.setPort ..)
    · exact (vxCmd_orders hr.1 rfl).commands (vxCmd_trains (.inr rfl) ht hb) (.setPort ..)
    · obtain ⟨hleft, hmem, -⟩ := leaves_still hout hq hj
      refine hgone _ ⟨hleft.state, hleft.degraded, hleft.join, ?_, hbytes hmem⟩
      rw [hleft.resyncWait, Bool.and_eq_true, Bool.not_eq_true', List.isEmpty_eq_false_iff]
    · obtain ⟨hleft, hmem⟩ := leaves_joining hout hq hj
      exact hgone _ ⟨hleft.state, hbytes hmem, hleft.join⟩
    · obtain ⟨hleft, hmem, hpeers⟩ := leaves_shared hout hq hj hmore
      exact hgone _ ⟨hleft.state, hleft.join, hpeers, hbytes hmem⟩
    · exact hgone _ (leaves_last hout hq hj hlast hno)

end Sys2Proof.Machine
end

section
/-! Two snapshots between two rind-clock edges (02 R54): the device-wide one serves the timers' own, which then copies nothing. -/

namespace Sys2Proof.Machine
-- One declaration after another: each `decide +kernel` waits for the kernel's turn, and many at once would hold a thread each.
set_option Elab.async false

/-- A device-wide snapshot has been taken since the last rind-clock edge; five nanoseconds later it is now. -/
def snappedNow : State := { ({} : State) with
  ctl := { ({} : Ctl) with edgeSnaps := [(0x300010, true)] }, time := { ({} : Time) with now := 5, snapTime := 0 } }
/-- The timers' snapshot leaves the time that the device-wide one copied. -/
theorem snapTime_snappedNow : (match exec (.tmrSnap (.pair 0)) snappedNow with | .next t => t.time.snapTime | _ => 5) = 0 := by
  decide +kernel
theorem reaches_snappedNow : Reaches (.pair 0) 1 0 0x300010 snappedNow :=
  { level := by decide +kernel, attached := by decide +kernel, unfenced := by decide +kernel, answers := by decide +kernel,
    sound := by decide +kernel, unlocked := by decide +kernel, powered := by decide +kernel, room := by decide +kernel }

/-- Refutes O47: between a device-wide snapshot and the next rind-clock edge the timers' snapshot copies nothing anew (02 R54). -/
theorem not_timersCountCaptureAndKeepTime : ¬ Obligations.TimersCountCaptureAndKeepTime := by
  intro h
  obtain ⟨-, hdevice⟩ := h
  obtain ⟨-, hsnap, -⟩ := hdevice snappedNow (.pair 0)
  obtain ⟨t, ht, u, ⟨htime, -⟩, -, -, -, hframe⟩ := hsnap reaches_snappedNow
  have hkept := snapTime_snappedNow
  rw [ht] at hkept
  have hsame : t.time = u.time := congrArg (·.time) hframe
  have hzero : u.time.snapTime = 0 := hsame ▸ hkept
  exact absurd (hzero.symm.trans htime) (by decide)

end Sys2Proof.Machine
end

section
/-! What the timers' own work leaves of the device (18 R444 to R451): their counts, RUN bits, event lines and source lines change, the latched wake
sources, and nothing else. -/

namespace Sys2Proof.Machine

variable {s t u : State} {k : Nat}

theorem lineHigh_setLine (n m : Nat) (b : Bool) (s : State) : lineHigh (setLine n b s) m = if m = n then b else lineHigh s m := by
  unfold setLine setPend
  split <;> simp only [lineHigh, smGet_smPut] <;> split <;> rfl
theorem latchWake_eq (b : Nat) (s : State) :
    ∃ x y, latchWake b s = { s with power := { s.power with wakeLatch := x, wakeLast := y } } := by
  unfold latchWake
  dsimp only
  split_ifs <;> exact ⟨_, _, rfl⟩
/-- The latch of a wake source that is enabled, no exit under way, with the device in a mode it may wake from. -/
theorem wakeLatch_latchWake {b : Nat} (hon : wakeOn s b = true) (hexit : s.power.exiting = false) (hp : s.power.pstate ≠ 0) :
    (latchWake b s).power.wakeLatch = s.power.wakeLatch ||| BitVec.ofNat 9 (2 ^ b) := by
  simp [latchWake, hon, hexit, hp]

/-- `t` is `s` but for what the timers' work may change. -/
structure TimerSide (s t : State) : Prop where
  frame : ∃ tm i rg a b, t = { s with time := tm, intc := i, ctl := { s.ctl with regs := rg }, power := { s.power with wakeLatch := a, wakeLast := b } }
  time : ∃ ts ev, t.time = { s.time with timers := ts, evPulse := ev }
  regs : ∀ o, o / 0x100000 ≠ 3 → reg t o = reg s o
  lines : ∀ n, 64 ≤ n → lineHigh t n = lineHigh s n

namespace TimerSide
theorem refl : TimerSide s s := ⟨⟨_, _, _, _, _, rfl⟩, ⟨_, _, rfl⟩, fun _ _ => rfl, fun _ _ => rfl⟩
theorem trans (h : TimerSide s t) (h' : TimerSide t u) : TimerSide s u where
  frame := by
    obtain ⟨_, _, _, _, _, rfl⟩ := h.frame
    obtain ⟨_, _, _, _, _, rfl⟩ := h'.frame
    exact ⟨_, _, _, _, _, rfl⟩
  time := by
    obtain ⟨_, _, hx⟩ := h.time
    obtain ⟨_, _, hy⟩ := h'.time
    rw [hy, hx]
    exact ⟨_, _, rfl⟩
  regs o ho := (h'.regs o ho).trans (h.regs o ho)
  lines n hn := (h'.lines n hn).trans (h.lines n hn)
theorem setTimer (k : Nat) (x : Timer) : TimerSide s (setTimer k x s) := ⟨⟨_, _, _, _, _, rfl⟩, ⟨_, _, rfl⟩, fun _ _ => rfl, fun _ _ => rfl⟩
theorem updTimer (k : Nat) (f : Timer → Timer) : TimerSide s (updTimer k f s) := setTimer ..
theorem setLine (hk : k < 64) (b : Bool) : TimerSide s (setLine k b s) := by
  obtain ⟨i, hi⟩ := setLine_eq (s := s) k b
  refine ⟨⟨_, i, _, _, _, hi⟩, ⟨_, _, by rw [hi]⟩, fun o _ => by rw [hi]; rfl, fun n hn => ?_⟩
  rw [lineHigh_setLine, if_neg (by omega)]
theorem setTFlag (hk : k < 64) (b : Nat) : TimerSide s (setTFlag k b s) := (updTimer k _).trans (setLine hk _)
theorem evPulse (k : Nat) (l : List Nat) : TimerSide s (evPulse k l s) := by
  unfold Machine.evPulse
  split
  · exact ⟨⟨_, _, _, _, _, rfl⟩, ⟨_, _, rfl⟩, fun _ _ => rfl, fun _ _ => rfl⟩
  · exact refl
theorem putRun (hk : k < 64) (b : Bool) : TimerSide s (putRun k b s) := by
  refine ⟨⟨_, _, _, _, _, rfl⟩, ⟨_, _, rfl⟩, fun o ho => ?_, fun _ _ => rfl⟩
  unfold Machine.putRun
  dsimp only
  rw [reg_setReg, if_neg (by unfold tmrReg; omega)]
theorem latchWake (b : Nat) : TimerSide s (latchWake b s) := by
  obtain ⟨x, y, h⟩ := latchWake_eq b s
  rw [h]
  exact ⟨⟨_, _, _, _, _, rfl⟩, ⟨_, _, rfl⟩, fun _ _ => rfl, fun _ _ => rfl⟩
theorem wrapEvent (hk : k < 64) : TimerSide s (wrapEvent k s) := by
  unfold Machine.wrapEvent
  extract_lets s1
  have h1 : TimerSide s s1 := (setTFlag hk 0).trans (evPulse k _)
  split
  · exact h1.trans (putRun hk _)
  · exact h1
theorem compareEvent (hk : k < 64) : TimerSide s (compareEvent k s) := by
  unfold Machine.compareEvent
  extract_lets s1
  have h1 : TimerSide s s1 := (setTFlag hk 1).trans (evPulse k _)
  split
  · exact h1.trans (latchWake _)
  · exact h1
theorem resetEvent (k : Nat) : TimerSide s (resetEvent k s) := (updTimer k _).trans (evPulse k _)
theorem startEvent (hk : k < 64) : TimerSide s (startEvent k s) := (updTimer k _).trans (putRun hk _)
theorem ticks (hk : k < 64) (n : Nat) : TimerSide s (ticks k n s) := by
  unfold Machine.ticks
  split
  · exact refl
  extract_lets c r s1 s2 s3
  have h1 : TimerSide s s1 := updTimer k _
  have h2 : TimerSide s s2 := by
    unfold s2
    split
    · exact h1
    · exact h1.trans (wrapEvent hk)
  have h3 : TimerSide s s3 := by
    unfold s3
    split
    · exact h2.trans (setTFlag hk 5)
    · exact h2
  split
  · exact h3.trans (compareEvent hk)
  · exact h3
theorem prescale (hk : k < 64) (n : Nat) : TimerSide s (prescale k n s) := (updTimer k _).trans (ticks hk _)
theorem capture (hk : k < 64) (rise : Bool) : TimerSide s (capture k rise s) := by
  have held (i j : Nat) (y : Timer) :
      TimerSide s (if (timer s k).flags.getLsbD i then Machine.setTFlag k 4 s else Machine.setTFlag k j (Machine.setTimer k y s)) := by
    split
    · exact setTFlag hk 4
    · exact (setTimer k y).trans (setTFlag hk j)
  exact held _ _ _
theorem takeInputs (hk : k < 64) (p : BitVec 64) : TimerSide s (takeInputs p k s).2 := by
  unfold Machine.takeInputs
  extract_lets g cp x tpol gEdge s1 s2
  have h1 : TimerSide s s1 := by
    unfold s1
    split
    · exact (updTimer k _).trans (capture hk _)
    · exact refl
  have h2 : TimerSide s s2 := by
    unfold s2
    split
    · exact h1.trans (updTimer k _)
    · exact h1
  split
  · split
    · exact h2.trans (resetEvent k)
    · exact h2.trans (startEvent hk)
    · split
      · exact h2.trans ((updTimer k _).trans (prescale hk 1))
      · exact h2
    · exact h2
  · exact h2
theorem inputsChanged : TimerSide s (inputsChanged s) := by
  unfold Machine.inputsChanged
  split
  · exact List.foldlRecOn (motive := TimerSide s) _ _ refl fun a ha k hk => ha.trans (takeInputs (List.mem_range.mp hk) 0)
  · exact refl
end TimerSide

/-- An edge at a land is the land's new level, and what the timers make of it. -/
theorem timerSide_tinLevel (n : Nat) (b : Bool) (s : State) :
    TimerSide { s with time := { s.time with tins := putFld s.time.tins n n (if b then 1 else 0) } } (tinLevel n b s) := by
  by_cases h : putFld s.time.tins n n (if b then 1 else 0) = s.time.tins
  · rw [tinLevel, if_pos h, h]
    exact .refl
  · rw [tinLevel, if_neg h]
    exact .inputsChanged

end Sys2Proof.Machine
end

section
/-! Reads of registers that a read clears (00 R8; 02 R39, R44). -/

namespace Sys2Proof.Machine

variable {s u : State} {w : Writer} {off : Nat} {d : RegDesc} {ix : List Nat} {i : Instr}

/-- `i` reads the read-to-clear register `d` at `off`, below the debug unit, and nothing ahead of the value refuses it. -/
structure Collects (i : Instr) (w : Writer) (d : RegDesc) (ix : List Nat) (off : Nat) (s : State) : Prop where
  row : findReg off = some (d, ix)
  reads : exec i s = .next (sdcRd w off s)
  rc : d.acc = .rc
  low : off < 0x5000000
  counts : d.name ≠ .tmrTCnt
  answers : Answers w (needLevel s d off false) d.dbgR off s

namespace Collects
variable (h : Collects i w d ix off s)
include h

theorem readStatus_eq : readStatus w d ix off s = 0 := by
  have hsound : off ∉ s.ctl.badParity := by simpa using h.answers.sound
  simp [readStatus, h.answers.attached, h.answers.unfenced, h.answers.answers, hsound, h.counts, stOk]
theorem exec_eq : exec i s =
    .next (answer 0 ((regValue w d ix off s).setWidth 64) (if readClears w s then clearRead w d ix (BitVec.allOnes 32) s else s)) := by
  have htouch (a : State) : touch w off a = a := if_neg fun hle => absurd hle.1 (by have := h.low; omega)
  have hlevel := h.answers.level
  rw [h.reads, sdcRd, if_neg h.answers.powered, ctlRead, ctlReadAt, if_pos (by have := h.low; unfold stageBase; omega), regRead, h.row]
  simp only [if_neg (Nat.not_lt.mpr hlevel), h.readStatus_eq, stAuth, stRunning, h.rc, htouch]
  simp
/-- The register answers its value, and what it returns is cleared. -/
theorem readsToClear {E : State → Prop} {v : Word64} (hv : (regValue w d ix off s).setWidth 64 = v)
    (hE : E (clearRead w d ix (BitVec.allOnes 32) s)) : ReadsToClear i w s v E := by
  constructor
  · intro hclear
    refine ⟨_, ⟨_, h.exec_eq, ?_⟩, hE⟩
    rw [hclear, hv, if_pos rfl]
    exact ⟨rfl, rfl⟩
  · intro hkeep
    refine ⟨_, h.exec_eq, ?_⟩
    rw [hkeep, hv, if_neg Bool.false_ne_true]
    exact ⟨rfl, rfl⟩
/-- A read that finds nothing to clear. -/
theorem readsNothing {v : Word64} (hv : (regValue w d ix off s).setWidth 64 = v) (hsame : clearRead w d ix (BitVec.allOnes 32) s = s) :
    Reads i s s 0 v := by
  refine ⟨_, h.exec_eq, ?_⟩
  rw [hv, hsame, ite_self]
  exact ⟨rfl, rfl⟩
end Collects

end Sys2Proof.Machine
end

section
/-! The low-speed pads (24 R572, R576 to R579): what drives a pad, and what a change of its level or of its function leaves of the device. -/

namespace Sys2Proof.Machine
-- One declaration after another: each `decide +kernel` waits for the kernel's turn, and many at once would hold a thread each.
set_option Elab.async false

variable {s t u : State} {n : Nat}

/-- `t` is `s` but for what the timers and their inputs may change. -/
structure Fed (s t : State) : Prop where
  frame : ∃ tm i rg a b, t = { s with time := tm, intc := i, ctl := { s.ctl with regs := rg }, power := { s.power with wakeLatch := a, wakeLast := b } }
  time : ∃ ts ev tins, t.time = { s.time with timers := ts, evPulse := ev, tins := tins }
  regs : ∀ o, o / 0x100000 ≠ 3 → reg t o = reg s o
  lines : ∀ n, 64 ≤ n → lineHigh t n = lineHigh s n

namespace Fed
theorem refl : Fed s s := ⟨⟨_, _, _, _, _, rfl⟩, ⟨_, _, _, rfl⟩, fun _ _ => rfl, fun _ _ => rfl⟩
theorem trans (h : Fed s t) (h' : Fed t u) : Fed s u where
  frame := by
    obtain ⟨_, _, _, _, _, rfl⟩ := h.frame
    obtain ⟨_, _, _, _, _, rfl⟩ := h'.frame
    exact ⟨_, _, _, _, _, rfl⟩
  time := by
    obtain ⟨_, _, _, hx⟩ := h.time
    obtain ⟨_, _, _, hy⟩ := h'.time
    rw [hy, hx]
    exact ⟨_, _, _, rfl⟩
  regs o ho := (h'.regs o ho).trans (h.regs o ho)
  lines n hn := (h'.lines n hn).trans (h.lines n hn)
theorem of_side (h : TimerSide s t) : Fed s t where
  frame := h.frame
  time := by
    obtain ⟨ts, ev, ht⟩ := h.time
    exact ⟨ts, ev, _, ht⟩
  regs := h.regs
  lines := h.lines
theorem tinLevel (k : Nat) (b : Bool) : Fed s (tinLevel k b s) :=
  trans (t := { s with time := { s.time with tins := putFld s.time.tins k k (if b then 1 else 0) } })
    ⟨⟨_, _, _, _, _, rfl⟩, ⟨_, _, _, rfl⟩, fun _ _ => rfl, fun _ _ => rfl⟩ (of_side (timerSide_tinLevel k b s))
theorem idleInput (n : Nat) : Fed s (idleInput n s) := by
  unfold Machine.idleInput
  split
  · exact tinLevel _ _
  · exact refl
theorem startInput (n : Nat) : Fed s (startInput n s) := by
  unfold Machine.startInput
  split
  · exact tinLevel _ _
  · exact refl
theorem pads (h : Fed s t) : t.pads = s.pads := by
  obtain ⟨_, _, _, _, _, rfl⟩ := h.frame
  rfl
theorem bytes (h : Fed s t) : SameBytes s t := by
  obtain ⟨_, _, _, _, _, rfl⟩ := h.frame
  exact fun _ => rfl
end Fed

theorem tins_tinLevel {k : Nat} (hk : k < 16) (b : Bool) (s : State) {j : Nat} :
    (tinLevel k b s).time.tins.getLsbD j = if j = k then b else s.time.tins.getLsbD j := by
  obtain ⟨ts, ev, h⟩ := (timerSide_tinLevel k b s).time
  rw [h]
  show (putFld s.time.tins k k _).getLsbD j = _
  rw [getLsbD_putFld _ _ _ le_rfl hk]
  by_cases hj : j = k
  · subst hj
    cases b <;> simp
  · rw [if_neg (by omega), if_neg hj]

/-! ### What drives a pad (24 R572) -/

theorem padCfg_of_regs (hregs : ∀ o, o / 0x100000 ≠ 3 → reg t o = reg s o) (n : Fin 32) : padCfg t n.val = padCfg s n.val :=
  hregs _ (by have := n.isLt; unfold padReg; omega)

/-- What drives a pad depends neither on the pads' levels nor, but for an output of a timer, on the timers. -/
theorem padDrive_congr {tm : Time} {i : Intc} {rg : SMap Word32} {a b : BitVec 9} {l : BitVec 32} (n : Fin 32)
    (ht : t = { s with time := tm, intc := i, ctl := { s.ctl with regs := rg }, power := { s.power with wakeLatch := a, wakeLast := b },
                       pads := { s.pads with level := l } })
    (hregs : ∀ o, o / 0x100000 ≠ 3 → reg t o = reg s o) (hnow : nowNs t = nowNs s)
    (htout : padFsel s n.val = 2 → 24 ≤ n.val → ∀ k, tLvl t k = tLvl s k) : padDrive t (.gpio n) = padDrive s (.gpio n) := by
  have hlt := n.isLt
  have hcfg := padCfg_of_regs hregs n
  have hreg (o : Nat) (ho : o < 0x100000) : reg t (padReg o) = reg s (padReg o) := hregs _ (by unfold padReg; omega)
  have hpads : t.pads = { s.pads with level := l } := by rw [ht]
  have hpower : t.power = { s.power with wakeLatch := a, wakeLast := b } := by rw [ht]
  have hfsel : padFsel t n.val = padFsel s n.val := by rw [padFsel, hpads]; rfl
  have hrel : padReleasing t n.val = padReleasing s n.val := by rw [padReleasing, hpads]; rfl
  have hsinks (m : Nat) (hm : m < 32) : ledSinks t m = ledSinks s m := by
    have hled : ledOn t m = ledOn s m := by rw [ledOn, hreg (0x210 + 4 * m) (by omega), ledOn]
    have hperiod : ledPeriod t m = ledPeriod s m := by rw [ledPeriod, rfld, hreg (0x210 + 4 * m) (by omega), ledPeriod, rfld]
    rw [ledSinks, hreg 0x200 (by omega), hled, hperiod, hnow, ledSinks]
  have hfun : functionDrive t n.val = functionDrive s n.val := by
    unfold functionDrive
    rw [hfsel, hcfg]
    split
    · rfl
    · simp only [hpads, hreg (0x300 + 32 * ((n.val - 24) / 2)) (by omega), hsinks (n.val - 28) (by omega)]
    · next hsel =>
      split
      · rfl
      · simp only [toutDrive, hcfg, htout hsel (by omega)]
    · rfl
  have hoff : outputsOff t = outputsOff s := by rw [outputsOff, hpower]; rfl
  have hscan : scanDrive t = scanDrive s := by rw [scanDrive, hpads]; rfl
  simp only [padDrive, hpower, hoff, hscan, hrel, hfun]

/-- A pad that is an input of a timer is no output of one. -/
theorem fsel_of_tinOf {n f k : Nat} (h : tinOf n f = some k) : k < 16 ∧ ¬(f = 2 ∧ 24 ≤ n) := by
  unfold tinOf at h
  split_ifs at h <;> cases h <;> omega

/-! ### A change of level (24 R577 to R579) -/

theorem padFollow_frame (n : Nat) (was : Bool) (s : State) :
    ∃ i a b, padFollow n was s = { s with intc := i, power := { s.power with wakeLatch := a, wakeLast := b } } := by
  unfold padFollow
  dsimp only
  obtain ⟨i, hi⟩ := setLine_eq (s := s) (160 + n) (padIn s n)
  split
  · obtain ⟨x, y, h⟩ := latchWake_eq wakeGpio (setLine (160 + n) (padIn s n) s)
    rw [h, hi]
    exact ⟨i, x, y, rfl⟩
  · exact ⟨i, _, _, hi⟩
theorem lineHigh_padFollow (n m : Nat) (was : Bool) (s : State) :
    lineHigh (padFollow n was s) m = if m = 160 + n then padIn s n else lineHigh s m := by
  rw [← lineHigh_setLine]
  unfold padFollow
  dsimp only
  split
  · obtain ⟨x, y, h⟩ := latchWake_eq wakeGpio (setLine (160 + n) (padIn s n) s)
    rw [h]
    rfl
  · rfl
theorem wakeLatch_padFollow {was : Bool} (hnow : padIn s n = true) (hwas : was = false) (hen : (padCfg s n).getLsbD 11 = true) (hon : wakeOn s 3 = true)
    (hexit : s.power.exiting = false) (hp : s.power.pstate ≠ 0) : (padFollow n was s).power.wakeLatch = s.power.wakeLatch ||| 8 := by
  obtain ⟨i, hi⟩ := setLine_eq (s := s) (160 + n) true
  unfold padFollow
  rw [hnow, hwas, hen]
  show (latchWake wakeGpio (setLine (160 + n) true s)).power.wakeLatch = _
  rw [hi]
  exact wakeLatch_latchWake (s := { s with intc := i }) hon hexit hp

/-- The levels with that of pad `n` become `b`. -/
def levelled (n : Nat) (b : Bool) (s : State) : State := setPads (fun p => { p with level := putFld p.level n n b.toNat }) s
theorem level_putFld (l : BitVec 32) (n : Fin 32) (b : Bool) {m : Nat} :
    (putFld l n.val n.val b.toNat).getLsbD m = if m = n.val then b else l.getLsbD m := by
  rw [getLsbD_putFld _ _ _ le_rfl n.isLt]
  by_cases hm : m = n.val
  · subst hm
    cases b <;> simp
  · rw [if_neg (by omega), if_neg hm]
theorem padIn_levelled (n : Fin 32) (b : Bool) (s : State) : padIn (levelled n.val b s) n.val = (b != (padCfg s n.val).getLsbD 10) := by
  show ((putFld s.pads.level n.val n.val b.toNat).getLsbD n.val != _) = _
  rw [level_putFld, if_pos rfl]
  rfl

/-- A pad that no timer follows: its source line takes the level. -/
theorem padLevel_plain (n : Fin 32) (b : Bool) (h : padReleasing s n.val = true ∨ tinOf n.val (padFsel s n.val) = none) :
    padLevel n b s = padFollow n.val (padIn s n.val) (levelled n.val (padShows s n b) s) := by
  unfold padLevel
  dsimp only
  obtain h | h := h <;> rw [h]
  · rfl
  · exact ite_self _
/-- A pad that a timer follows: the timer's input takes the level too. -/
theorem padLevel_tin (n : Fin 32) (b : Bool) {k : Nat} (hr : padReleasing s n.val = false) (h : tinOf n.val (padFsel s n.val) = some k) :
    padLevel n b s = tinLevel k (padShows s n b) (padFollow n.val (padIn s n.val) (levelled n.val (padShows s n b) s)) := by
  unfold padLevel
  rw [hr, h]
  rfl

/-- `u` is `s` after pad `n` has come to show `high`. -/
structure Shows (n : Fin 32) (high : Bool) (s u : State) : Prop where
  frame : ∃ tm i rg a b, u = { s with time := tm, intc := i, ctl := { s.ctl with regs := rg }, power := { s.power with wakeLatch := a, wakeLast := b },
                                      pads := { s.pads with level := putFld s.pads.level n.val n.val high.toNat } }
  time : ∃ ts ev tins, u.time = { s.time with timers := ts, evPulse := ev, tins := tins }
  regs : ∀ o, o / 0x100000 ≠ 3 → reg u o = reg s o
  line : lineHigh u (160 + n.val) = (high != (padCfg s n.val).getLsbD 10)
  drive : padDrive u (.gpio n) = padDrive s (.gpio n)

namespace Shows
variable {n : Fin 32} {high : Bool} (h : Shows n high s u)
include h
theorem level (b : Nat) : u.pads.level.getLsbD b = if b = n.val then high else s.pads.level.getLsbD b := by
  obtain ⟨_, _, _, _, _, rfl⟩ := h.frame
  exact level_putFld ..
theorem fsel (m : Nat) : padFsel u m = padFsel s m := by
  obtain ⟨_, _, _, _, _, rfl⟩ := h.frame
  rfl
theorem releasing (m : Nat) : padReleasing u m = padReleasing s m := by
  obtain ⟨_, _, _, _, _, rfl⟩ := h.frame
  rfl
theorem bytes : SameBytes s u := by
  obtain ⟨_, _, _, _, _, rfl⟩ := h.frame
  exact fun _ => rfl
theorem held : u.power.padHeld = s.power.padHeld := by
  obtain ⟨_, _, _, _, _, rfl⟩ := h.frame
  rfl
theorem shows (b : Bool) : padShows u n b = padShows s n b := by rw [padShows, h.drive, padShows]
end Shows

theorem shows_padLevel (n : Fin 32) (b : Bool) (s : State) : Shows n (padShows s n b) s (padLevel n b s) := by
  obtain ⟨i, x, y, hfollow⟩ := padFollow_frame n.val (padIn s n.val) (levelled n.val (padShows s n b) s)
  have hline := lineHigh_padFollow n.val (160 + n.val) (padIn s n.val) (levelled n.val (padShows s n b) s)
  rw [if_pos rfl, padIn_levelled] at hline
  by_cases hplain : padReleasing s n.val = true ∨ tinOf n.val (padFsel s n.val) = none
  · rw [padLevel_plain n b hplain]
    refine ⟨⟨s.time, i, s.ctl.regs, x, y, hfollow⟩, ⟨_, _, _, by rw [hfollow]; rfl⟩, fun o _ => by rw [hfollow]; rfl, hline, ?_⟩
    exact padDrive_congr (tm := s.time) (rg := s.ctl.regs) n hfollow (fun o _ => by rw [hfollow]; rfl) (by rw [hfollow]; rfl)
      fun _ _ k => by rw [hfollow]; rfl
  · rw [not_or, Bool.not_eq_true] at hplain
    obtain ⟨k, hk⟩ := Option.ne_none_iff_exists'.mp hplain.2
    obtain ⟨-, hout⟩ := fsel_of_tinOf hk
    rw [padLevel_tin n b hplain.1 hk]
    have hfed := Fed.tinLevel (s := padFollow n.val (padIn s n.val) (levelled n.val (padShows s n b) s)) k (padShows s n b)
    have hframe : ∃ tm i rg a c, tinLevel k (padShows s n b) (padFollow n.val (padIn s n.val) (levelled n.val (padShows s n b) s)) =
        { s with time := tm, intc := i, ctl := { s.ctl with regs := rg }, power := { s.power with wakeLatch := a, wakeLast := c },
                 pads := { s.pads with level := putFld s.pads.level n.val n.val (padShows s n b).toNat } } := by
      obtain ⟨tm, j, rg, a, c, h⟩ := hfed.frame
      refine ⟨tm, j, rg, a, c, h.trans ?_⟩
      rw [hfollow]
      rfl
    have htime : ∃ ts ev tins, (tinLevel k (padShows s n b) (padFollow n.val (padIn s n.val) (levelled n.val (padShows s n b) s))).time =
        { s.time with timers := ts, evPulse := ev, tins := tins } := by
      obtain ⟨ts, ev, tins, h⟩ := hfed.time
      refine ⟨ts, ev, tins, h.trans ?_⟩
      rw [hfollow]
      rfl
    have hregs (o : Nat) (ho : o / 0x100000 ≠ 3) :
        reg (tinLevel k (padShows s n b) (padFollow n.val (padIn s n.val) (levelled n.val (padShows s n b) s))) o = reg s o :=
      (hfed.regs o ho).trans (by rw [hfollow]; rfl)
    refine ⟨hframe, htime, hregs, (hfed.lines _ (by omega)).trans hline, ?_⟩
    obtain ⟨tm, j, rg, a, c, h⟩ := hframe
    refine padDrive_congr n h hregs ?_ fun h2 h24 => absurd ⟨h2, h24⟩ hout
    obtain ⟨ts, ev, tins, ht⟩ := htime
    rw [nowNs, ht, nowNs]

end Sys2Proof.Machine
end

section
/-! Pads, LEDs, UARTs, flash time-outs and the TAP (24 R572 to R592). -/

namespace Sys2Proof.Machine
-- One declaration after another: each `decide +kernel` waits for the kernel's turn, and many at once would hold a thread each.
set_option Elab.async false

variable {s t u : State} {w : Writer} {v : Word32}

/-- The accepted write of a register of the rind, of which no copy is kept (02 R42). -/
theorem Stores.commands_rind {i : Instr} {d : RegDesc} {ix : List Nat} {off : Nat} (h : Stores i w d ix off v s) (hoff : off < 0x400000)
    {E : State → Prop} (hc : firstCode (lateChecks d ix off (curWord w d ix off s) v (BitVec.allOnes 32) s) = 0)
    (happly : applyReg w d ix off v s = u) (hE : E u) : Commands i w off v s E := by
  have hcopy : keepCopy w off (regValue w d ix off s) s = s := if_pos (decide_eq_true hoff)
  refine ⟨_, h.writes, u, hE, ?_⟩
  rw [sdc_register h.low h.reaches.powered, regWrite_word h.row h.single h.not_wo,
    wordWrite_accepted ((h.code_eq _).trans hc) h.reaches.room, hcopy, happly]
  exact accepted_journal w off (journalKind d) v u.ctl.copies s u

/-! ### GPIO (24 R576 to R579) -/

theorem redrive_eq (n : Fin 32) (s : State) : redrive n.val s = padLevel n (s.pads.level.getLsbD n.val) s := dif_pos n.isLt

theorem padShows_board (n : Fin 32) (board : Bool) (h : padDrive s (.gpio n) = .released ∨ padDrive s (.gpio n) = .signal) :
    padShows s n board = board := by
  rw [padShows]
  obtain h | h := h <;> rw [h]

theorem changes_input (s : State) (n : Fin 32) (board : Bool) : Completes (.gpioInputChange n board) s fun u =>
    (∀ b, b < 32 → u.pads.level.getLsbD b = if b = n.val then padShows s n board else s.pads.level.getLsbD b) ∧
      lineHigh u (160 + n.val) = (padShows s n board != (padCfg s n.val).getLsbD 10) ∧ SameBytes s u ∧
      (padReleasing s n.val = true ∨ tinOf n.val (padFsel s n.val) = none → u.time = s.time) ∧
      (∀ k, padReleasing s n.val = false → tinOf n.val (padFsel s n.val) = some k → u.time.tins.getLsbD k = padShows s n board) ∧
      (padIn s n.val = false → (padShows s n board != (padCfg s n.val).getLsbD 10) = true → (padCfg s n.val).getLsbD 11 = true → wakeOn s 3 = true →
        s.power.exiting = false → s.power.pstate ≠ 0 → (padReleasing s n.val = true ∨ tinOf n.val (padFsel s n.val) = none) →
        u.power.wakeLatch = s.power.wakeLatch ||| 8) := by
  have h := shows_padLevel n board s
  refine ⟨_, rfl, fun b _ => h.level b, h.line, h.bytes, fun hplain => ?_, fun k hr hk => ?_, fun hwas hnow hen hon hexit hp hplain => ?_⟩
  · obtain ⟨i, x, y, hf⟩ := padFollow_frame n.val (padIn s n.val) (levelled n.val (padShows s n board) s)
    rw [padLevel_plain n board hplain, hf]
    rfl
  · rw [padLevel_tin n board hr hk, tins_tinLevel (fsel_of_tinOf hk).1, if_pos rfl]
  · rw [padLevel_plain n board hplain]
    exact wakeLatch_padFollow (s := levelled n.val (padShows s n board) s) ((padIn_levelled ..).trans hnow) hwas hen hon hexit hp

theorem fsel_takeFsel (n m : Nat) (s : State) : padFsel (takeFsel n s) m = if m = n then fld (padCfg s n) 1 0 else padFsel s m := by
  show (smGet fselReset (smPut fselReset s.pads.fsel n _) m).toNat = _
  rw [smGet_smPut]
  split
  · rw [BitVec.toNat_ofNat, Nat.mod_eq_of_lt (fld_lt _ 1 0)]
  · rfl
theorem releasing_setReleasing (n m : Nat) (b : Bool) (s : State) : padReleasing (setReleasing n b s) m = if m = n then b else padReleasing s m :=
  smGet_smPut ..

theorem switches_function (n : Fin 32) (hr : padReleasing s n.val = true) (hmode : s.power.mode ≠ .scan) :
    Completes (.functionSwitchComplete n) s fun u => padReleasing u n.val = false ∧ padFsel u n.val = fld (padCfg s n.val) 1 0 ∧
      (∀ m, m ≠ n.val → padFsel u m = padFsel s m ∧ padReleasing u m = padReleasing s m) ∧ SameBytes s u ∧
      ∀ b, b < 32 → u.pads.level.getLsbD b = if b = n.val then padShows u n (s.pads.level.getLsbD n.val) else s.pads.level.getLsbD b := by
  have hfed : Fed (takeFsel n.val (setReleasing n.val false s)) (startInput n.val (takeFsel n.val (setReleasing n.val false s))) := Fed.startInput _
  generalize hs2 : startInput n.val (takeFsel n.val (setReleasing n.val false s)) = s2 at hfed
  have hu : padSwitched n.val s = redrive n.val s2 := by
    unfold padSwitched
    rw [hr, hs2, if_pos (by simpa using hmode)]
  have hlevel : s2.pads.level = s.pads.level := by rw [hfed.pads]; rfl
  have hfsel (m : Nat) : padFsel s2 m = if m = n.val then fld (padCfg s n.val) 1 0 else padFsel s m := by
    have h := fsel_takeFsel n.val m (setReleasing n.val false s)
    rwa [padFsel, ← hfed.pads] at h
  have hrel (m : Nat) : padReleasing s2 m = if m = n.val then false else padReleasing s m := by
    have h := releasing_setReleasing n.val m false s
    rw [padReleasing, hfed.pads]
    exact h
  refine ⟨redrive n.val s2, congrArg (fun a => (.next a : Out)) hu, ?_⟩
  rw [redrive_eq, hlevel]
  have h := shows_padLevel n (s.pads.level.getLsbD n.val) s2
  generalize padLevel n (s.pads.level.getLsbD n.val) s2 = u at h
  refine ⟨(h.releasing _).trans ((hrel _).trans (if_pos rfl)), (h.fsel _).trans ((hfsel _).trans (if_pos rfl)),
    fun m hm => ⟨(h.fsel _).trans ((hfsel _).trans (if_neg hm)), (h.releasing _).trans ((hrel _).trans (if_neg hm))⟩, ?_, fun b _ => ?_⟩
  · exact fun a => (h.bytes a).trans (hfed.bytes a)
  · rw [h.level, h.shows, hlevel]

/-- A pad whose configuration has been written, driven by its present function: it shows what that drives. -/
theorem shows_rewritten (n : Fin 32) (was : Bool) (a : State) :
    Shows n (padShows a n (a.pads.level.getLsbD n.val)) a (redrive n.val (padFollow n.val was a)) := by
  obtain ⟨i, x, y, hf⟩ := padFollow_frame n.val was a
  have hdrive : padDrive (padFollow n.val was a) (.gpio n) = padDrive a (.gpio n) :=
    padDrive_congr (tm := a.time) (rg := a.ctl.regs) (l := a.pads.level) n hf (fun o _ => by rw [hf]; rfl) (by rw [hf]; rfl)
      fun _ _ k => by rw [hf]; rfl
  have hshows (b : Bool) : padShows (padFollow n.val was a) n b = padShows a n b := by rw [padShows, hdrive, padShows]
  have h := shows_padLevel n (a.pads.level.getLsbD n.val) (padFollow n.val was a)
  rw [redrive_eq]
  have hlevel : (padFollow n.val was a).pads.level = a.pads.level := by rw [hf]
  rw [hlevel]
  generalize padLevel n (a.pads.level.getLsbD n.val) (padFollow n.val was a) = u at h
  rw [hshows] at h
  refine ⟨?_, ?_, fun o ho => (h.regs o ho).trans (by rw [hf]; rfl), h.line.trans (by rw [hf]; rfl), h.drive.trans hdrive⟩
  · obtain ⟨tm, j, rg, b, c, hu⟩ := h.frame
    refine ⟨tm, j, rg, b, c, hu.trans ?_⟩
    rw [hf]
  · obtain ⟨ts, ev, tins, hu⟩ := h.time
    refine ⟨ts, ev, tins, hu.trans ?_⟩
    rw [hf]

/-- The row of the register maps that holds pad `n`'s configuration. -/
def gpioRow (n : Nat) : RegDesc :=
  if n < 24 then { name := .padGpioCfg, off := 0x200100, dims := [(0x4, 24)], acc := .rw, reset := 0x2000001, bits := 0xff000f83 }
  else { name := .padGpioCfg, off := 0x200160, dims := [(0x4, 8)], acc := .rw, reset := 0x2000000, bits := 0xff000f83 }
theorem findReg_gpio : ∀ n : Fin 32, findReg (0x200100 + 4 * n.val) = some (gpioRow n.val, [if n.val < 24 then n.val else n.val - 24]) := by
  decide +kernel
theorem gpioRow_facts (n : Nat) : (gpioRow n).name = .padGpioCfg ∧ (gpioRow n).acc = .rw ∧ (gpioRow n).half = .single ∧ (gpioRow n).bits = 0xff000f83 ∧
    (gpioRow n).ro = 0 ∧ (gpioRow n).stopped = 0 ∧ (gpioRow n).period = 0 ∧ (gpioRow n).keeper = false ∧ (gpioRow n).dbgW = 0 ∧ (gpioRow n).hold = false ∧
    (gpioRow n).byLc = false := by
  unfold gpioRow
  split <;> exact ⟨rfl, rfl, rfl, rfl, rfl, rfl, rfl, rfl, rfl, rfl, rfl⟩
theorem cfgPad_gpio (n : Nat) : cfgPad (0x200100 + 4 * n) = n := by unfold cfgPad; omega
theorem gpio_level (n : Fin 32) (s : State) : needLevel s (gpioRow n.val) (0x200100 + 4 * n.val) true =
    if n.val < 24 ∧ ¬(13 ≤ n.val ∧ s.power.strapBoot = 2) then 2 else 1 := by
  obtain ⟨hname, -, -, -, -, -, -, hkeeper, -⟩ := gpioRow_facts n.val
  have hblock : blockLevel (0x200100 + 4 * n.val) true = 1 := by
    have := n.isLt
    unfold blockLevel
    rw [if_neg (by omega), if_neg (by omega), if_neg (by omega), if_pos (by omega)]
  simp only [needLevel, if_true, hname, hkeeper, cfgPad_gpio, hblock, padAtK]
  by_cases h1 : n.val < 24 <;> by_cases h2 : 13 ≤ n.val <;> by_cases h3 : s.power.strapBoot = 2 <;> simp [h1, h2, h3]
theorem getLsbD_of_fld_zero {x : Word32} {hi lo i : Nat} (h : fld x hi lo = 0) (hlo : lo ≤ i) (hhi : i ≤ hi) : x.getLsbD i = false := by
  have hbit := congrArg (·.testBit (i - lo)) h
  simp only [testBit_fld, Nat.zero_testBit] at hbit
  have hi' : lo + (i - lo) = i := by omega
  simpa [hi', show i - lo < hi - lo + 1 by omega] using hbit
theorem gpio_bits (h1 : fld v 23 12 = 0) (h2 : fld v 6 2 = 0) : v &&& ~~~(0xff000f83#32) = 0 := by
  have hmask : ∀ i < 32, (0xff000f83#32).getLsbD i = false → 12 ≤ i ∧ i ≤ 23 ∨ 2 ≤ i ∧ i ≤ 6 := by decide
  refine BitVec.eq_of_getLsbD_eq fun i hi => ?_
  rw [BitVec.getLsbD_and, BitVec.getLsbD_not]
  cases hm : (0xff000f83#32).getLsbD i
  · obtain ⟨hlo, hhi⟩ | ⟨hlo, hhi⟩ := hmask i hi hm
    · simp [getLsbD_of_fld_zero h1 hlo hhi]
    · simp [getLsbD_of_fld_zero h2 hlo hhi]
  · simp

theorem gpio_checks (n : Fin 32) (h1 : fld v 23 12 = 0) (h2 : fld v 6 2 = 0) (w : Writer) (ix : List Nat) :
    lateChecks (gpioRow n.val) ix (0x200100 + 4 * n.val) (curWord w (gpioRow n.val) ix (0x200100 + 4 * n.val) s) v (BitVec.allOnes 32) s =
      if fld v 1 0 = fld (padCfg s n.val) 1 0 then [] else codeIf (!fselLegal n.val (fld v 1 0)) stRange := by
  obtain ⟨hname, hacc, -, hbits, hro, hstop, hper, -, -, hhold, hlc⟩ := gpioRow_facts n.val
  have hlt := n.isLt
  have hunbound : unboundReg s (gpioRow n.val) ix = false := by simp [unboundReg, lcIndex, hname, hlc]
  have hcur : curWord w (gpioRow n.val) ix (0x200100 + 4 * n.val) s = padCfg s n.val := by
    simp [curWord, regValue, hname, hacc, hunbound, hhold, isSnapSeq, show ¬0x200100 + 4 * n.val < 0x200000 by omega,
      show 0x200100 + 4 * n.val < 0x300000 by omega, show ¬0x200100 + 4 * n.val < 0x100000 by omega, padValue, padCfg, padReg, ← Nat.add_assoc]
  have hmask : v &&& ~~~(BitVec.ofNat 32 0xff000f83) = 0 := gpio_bits h1 h2
  simp only [lateChecks, hbits, hro, hstop, hper, hunbound, hmask, codeIf, valueCodes, hname, hcur, cfgPad_gpio]
  simp

theorem padCfgWritten_same {n : Nat} {old : Word32} (h : fld old 1 0 = fld (padCfg s n) 1 0) :
    padCfgWritten n old s = redrive n (padFollow n (s.pads.level.getLsbD n != old.getLsbD 10) s) := by
  unfold padCfgWritten
  exact if_pos h
theorem padCfgWritten_other {n : Nat} {old : Word32} (h : ¬fld old 1 0 = fld (padCfg s n) 1 0) : padCfgWritten n old s =
    if s.power.padHeld.getLsbD n then startInput n (takeFsel n (idleInput n (redrive n (padFollow n (s.pads.level.getLsbD n != old.getLsbD 10) s))))
    else setReleasing n true (idleInput n (redrive n (padFollow n (s.pads.level.getLsbD n != old.getLsbD 10) s))) := by
  unfold padCfgWritten
  exact if_neg h

/-- What a write of pad `n`'s configuration leaves: `s1` is the device driving as before, `u` the device after. -/
structure Rewritten (n : Fin 32) (s1 u : State) : Prop where
  regs : ∀ o, o / 0x100000 ≠ 3 → reg u o = reg s1 o
  bytes : SameBytes s1 u
  level : u.pads.level = s1.pads.level
  line : lineHigh u (160 + n.val) = lineHigh s1 (160 + n.val)
  others : ∀ m, m ≠ n.val → padFsel u m = padFsel s1 m ∧ padReleasing u m = padReleasing s1 m

theorem rewritten_of_fed {n : Fin 32} (h : Fed s t) : Rewritten n s t where
  regs := h.regs
  bytes := h.bytes
  level := by rw [h.pads]
  line := h.lines _ (by omega)
  others m _ := by rw [padFsel, padReleasing, h.pads]; exact ⟨rfl, rfl⟩
theorem Rewritten.trans {n : Fin 32} (h : Rewritten n s t) (h' : Rewritten n t u) : Rewritten n s u where
  regs o ho := (h'.regs o ho).trans (h.regs o ho)
  bytes a := (h'.bytes a).trans (h.bytes a)
  level := h'.level.trans h.level
  line := h'.line.trans h.line
  others m hm := ⟨(h'.others m hm).1.trans (h.others m hm).1, (h'.others m hm).2.trans (h.others m hm).2⟩
theorem rewritten_released (n : Fin 32) (s1 : State) : Rewritten n s1 (setReleasing n.val true (idleInput n.val s1)) :=
  (rewritten_of_fed (Fed.idleInput n.val)).trans ⟨fun _ _ => rfl, fun _ => rfl, rfl, rfl, fun m hm =>
    ⟨rfl, (releasing_setReleasing n.val m true _).trans (if_neg hm)⟩⟩
theorem rewritten_taken (n : Fin 32) (s1 : State) : Rewritten n s1 (startInput n.val (takeFsel n.val (idleInput n.val s1))) :=
  ((rewritten_of_fed (Fed.idleInput n.val)).trans (u := takeFsel n.val (idleInput n.val s1)) ⟨fun _ _ => rfl, fun _ => rfl, rfl, rfl, fun m hm =>
    ⟨(fsel_takeFsel n.val m _).trans (if_neg hm), rfl⟩⟩).trans (rewritten_of_fed (Fed.startInput n.val))

theorem writes_function (n : Fin 32)
    (hr : Reaches w (if n.val < 24 ∧ ¬(13 ≤ n.val ∧ s.power.strapBoot = 2) then 2 else 1) 0 (0x200100 + 4 * n.val) s)
    (h1 : fld v 23 12 = 0) (h2 : fld v 6 2 = 0) :
    let held := s.power.padHeld.getLsbD n.val
    let same := fld v 1 0 = fld (padCfg s n.val) 1 0
    (¬same → fselLegal n.val (fld v 1 0) = false → Refuses (.functionSwitch w n v) s 3) ∧
    (same ∨ fselLegal n.val (fld v 1 0) = true → Commands (.functionSwitch w n v) w (0x200100 + 4 * n.val) v s fun u =>
      padCfg u n.val = v ∧ (∀ o, o ≠ 0x200100 + 4 * n.val → o / 0x100000 ≠ 3 → reg u o = reg s o) ∧ SameBytes s u ∧
      (∀ b, b < 32 → b ≠ n.val → u.pads.level.getLsbD b = s.pads.level.getLsbD b) ∧
      (same → u.pads.level.getLsbD n.val = padShows u n (s.pads.level.getLsbD n.val)) ∧
      lineHigh u (160 + n.val) = (u.pads.level.getLsbD n.val != v.getLsbD 10) ∧
      (∀ m, m ≠ n.val → padFsel u m = padFsel s m ∧ padReleasing u m = padReleasing s m) ∧
      (same → padFsel u n.val = padFsel s n.val ∧ padReleasing u n.val = padReleasing s n.val) ∧
      (¬same → held = false → padFsel u n.val = padFsel s n.val ∧ padReleasing u n.val = true) ∧
      (¬same → held = true → padFsel u n.val = fld v 1 0 ∧ padReleasing u n.val = padReleasing s n.val)) := by
  intro held same
  have hlt := n.isLt
  obtain ⟨hname, hacc, hhalf, -, -, -, -, -, hdbg, -⟩ := gpioRow_facts n.val
  have hst : Stores (.functionSwitch w n v) w (gpioRow n.val) [if n.val < 24 then n.val else n.val - 24] (0x200100 + 4 * n.val) v s :=
    { row := findReg_gpio n, writes := congrArg (fun o => (.next (sdc w o v s) : Out)) (by unfold padReg; omega), single := hhalf, acc := .inl hacc,
      name := by rw [hname]; decide, reaches := by rw [gpio_level, hdbg]; exact hr }
  refine ⟨fun hne hill => hst.refuses ?_ (by decide), fun hok => ?_⟩
  · rw [gpio_checks n h1 h2, if_neg hne, hill]
    rfl
  have hcode : firstCode (lateChecks (gpioRow n.val) [if n.val < 24 then n.val else n.val - 24] (0x200100 + 4 * n.val)
      (curWord w (gpioRow n.val) [if n.val < 24 then n.val else n.val - 24] (0x200100 + 4 * n.val) s) v (BitVec.allOnes 32) s) = 0 := by
    rw [gpio_checks n h1 h2]
    split
    · rfl
    · next hne => rw [hok.resolve_left hne]; rfl
  have happly : applyReg w (gpioRow n.val) [if n.val < 24 then n.val else n.val - 24] (0x200100 + 4 * n.val) v s =
      padCfgWritten n.val (padCfg s n.val) (setReg (0x200100 + 4 * n.val) v s) := by
    have hoff : padReg (0x100 + 4 * n.val) = 0x200100 + 4 * n.val := by unfold padReg; omega
    unfold applyReg
    rw [hname]
    simp only [cfgPad_gpio, padCfg, hoff]
  generalize ha : setReg (0x200100 + 4 * n.val) v s = a at happly
  have hareg (o : Nat) : reg a o = if o = 0x200100 + 4 * n.val then v else reg s o := by rw [← ha, reg_setReg]
  have hcfg : padCfg a n.val = v := by
    rw [padCfg, hareg, if_pos (by unfold padReg; omega)]
  have hpads : a.pads = s.pads := by rw [← ha]; rfl
  have hheld : a.power.padHeld = s.power.padHeld := by rw [← ha]; rfl
  have habytes : SameBytes s a := by rw [← ha]; exact fun _ => rfl
  have hfsel (m : Nat) : padFsel a m = padFsel s m := by rw [padFsel, hpads]; rfl
  have hrel (m : Nat) : padReleasing a m = padReleasing s m := by rw [padReleasing, hpads]; rfl
  have hs1 := shows_rewritten n (a.pads.level.getLsbD n.val != (padCfg s n.val).getLsbD 10) a
  generalize hs1eq : redrive n.val (padFollow n.val (a.pads.level.getLsbD n.val != (padCfg s n.val).getLsbD 10) a) = s1 at hs1
  have hfsel1 (m : Nat) : padFsel s1 m = padFsel s m := (hs1.fsel m).trans (hfsel m)
  have hrel1 (m : Nat) : padReleasing s1 m = padReleasing s m := (hs1.releasing m).trans (hrel m)
  have hcfg1 : padCfg s1 n.val = v := (padCfg_of_regs hs1.regs n).trans hcfg
  -- what holds of every state that `s1` becomes by a change of function
  have hkept {u : State} (hu : Rewritten n s1 u) : padCfg u n.val = v ∧
      (∀ o, o ≠ 0x200100 + 4 * n.val → o / 0x100000 ≠ 3 → reg u o = reg s o) ∧ SameBytes s u ∧
      (∀ b, b < 32 → b ≠ n.val → u.pads.level.getLsbD b = s.pads.level.getLsbD b) ∧
      lineHigh u (160 + n.val) = (u.pads.level.getLsbD n.val != v.getLsbD 10) ∧
      (∀ m, m ≠ n.val → padFsel u m = padFsel s m ∧ padReleasing u m = padReleasing s m) := by
    refine ⟨(padCfg_of_regs hu.regs n).trans hcfg1, fun o ho h3 => ?_, fun x => ?_, fun b _ hb => ?_, ?_, fun m hm => ?_⟩
    · rw [hu.regs o h3, hs1.regs o h3, hareg, if_neg ho]
    · exact (hu.bytes x).trans ((hs1.bytes x).trans (habytes x))
    · rw [hu.level, hs1.level, if_neg hb, hpads]
    · rw [hu.line, hs1.line, hu.level, hs1.level, if_pos rfl, hcfg]
    · exact ⟨(hu.others m hm).1.trans (hfsel1 m), (hu.others m hm).2.trans (hrel1 m)⟩
  by_cases hsame : same
  · have hold : fld (padCfg s n.val) 1 0 = fld (padCfg a n.val) 1 0 := by rw [hcfg]; exact hsame.symm
    refine hst.commands_rind (by omega) hcode (happly.trans ((padCfgWritten_same hold).trans hs1eq)) ?_
    obtain ⟨h1, h2, h3, h4, h6, h7⟩ := hkept (rewritten_of_fed Fed.refl)
    refine ⟨h1, h2, h3, h4, fun _ => ?_, h6, h7, fun _ => ⟨hfsel1 _, hrel1 _⟩, fun h => absurd hsame h, fun h => absurd hsame h⟩
    rw [hs1.level, if_pos rfl, hs1.shows, hpads]
  · have hold : ¬fld (padCfg s n.val) 1 0 = fld (padCfg a n.val) 1 0 := by rw [hcfg]; exact fun h => hsame h.symm
    have hwritten := (padCfgWritten_other hold).trans (by rw [hs1eq])
    rw [hheld] at hwritten
    cases hh : held
    · rw [show s.power.padHeld.getLsbD n.val = false from hh, if_neg Bool.false_ne_true] at hwritten
      refine hst.commands_rind (by omega) hcode (happly.trans hwritten) ?_
      obtain ⟨h1, h2, h3, h4, h6, h7⟩ := hkept (rewritten_released n s1)
      have hidle := (Fed.idleInput (s := s1) n.val).pads
      refine ⟨h1, h2, h3, h4, fun h => absurd h hsame, h6, h7, fun h => absurd h hsame, fun _ _ => ⟨?_, ?_⟩, fun _ h => nomatch h⟩
      · show padFsel (idleInput n.val s1) n.val = _
        rw [padFsel, hidle]
        exact hfsel1 _
      · exact (releasing_setReleasing ..).trans (if_pos rfl)
    · rw [show s.power.padHeld.getLsbD n.val = true from hh, if_pos rfl] at hwritten
      refine hst.commands_rind (by omega) hcode (happly.trans hwritten) ?_
      obtain ⟨h1, h2, h3, h4, h6, h7⟩ := hkept (rewritten_taken n s1)
      have hidle := Fed.idleInput (s := s1) n.val
      have hstart := (Fed.startInput (s := takeFsel n.val (idleInput n.val s1)) n.val).pads
      refine ⟨h1, h2, h3, h4, fun h => absurd h hsame, h6, h7, fun h => absurd h hsame, fun _ h => (nomatch h), fun _ _ => ⟨?_, ?_⟩⟩
      · rw [padFsel, hstart]
        refine (fsel_takeFsel ..).trans ?_
        rw [if_pos rfl, padCfg_of_regs hidle.regs n, hcfg1]
      · rw [padReleasing, hstart]
        show smGet boolDef (idleInput n.val s1).pads.releasing n.val = _
        rw [hidle.pads]
        exact hrel1 _

end Sys2Proof.Machine
end

section
/-! What the low-speed outputs drive, LEDs, UARTs, flash time-outs and the TAP (24 R572, R580 to R583, R589 to R592). -/

namespace Sys2Proof.Machine
-- One declaration after another: each `decide +kernel` waits for the kernel's turn, and many at once would hold a thread each.
set_option Elab.async false

variable {s t u : State} {w : Writer} {v : Word32}

/-! ### Outputs (R572) -/

theorem padDrive_off (hmode : s.power.mode ≠ .scan)
    (hoff : s.power.pwrgd = false ∨ s.power.mode = .off ∨ s.power.mode = .rind ∨ s.power.mode = .sequence) {o : LowSpeedOut} (ho : o ≠ .thermtrip) :
    padDrive s o = .released := by
  have houts : outputsOff s = true := by
    rw [outputsOff, Bool.or_eq_true, decide_eq_true_iff]
    exact hoff.imp (fun h => by rw [h]; rfl) id
  cases o with
  | gpio n => simp [padDrive, hmode, houts]
  | tdo => rfl
  | syncOut => simp [padDrive, hmode, houts]
  | prochot => simp [padDrive, hmode, houts]
  | thermtrip => exact absurd rfl ho
theorem padDrive_thermtrip (hmode : s.power.mode ≠ .scan) : padDrive s .thermtrip =
    if s.power.pwrgd = true ∧ s.power.thermtrip = true ∧ nowNs s < s.power.tripAt + 10000000 then .low else .released := by
  simp [padDrive, hmode, and_assoc]
theorem padDrive_scan (hmode : s.power.mode = .scan) {o : LowSpeedOut} (ho : o ≠ .tdo) : padDrive s o = scanDrive s := by
  cases o with
  | tdo => exact absurd rfl ho
  | gpio _ | syncOut | prochot | thermtrip => exact if_pos hmode
theorem scanDrive_eq (s : State) :
    scanDrive s = if s.pads.ir = 5 ∨ s.pads.released = true ∨ padCode s.pads.ir = false then .released else .signal := by
  simp [scanDrive]
theorem powered_mode (h : s.power.mode = .calibrate ∨ s.power.mode = .run ∨ s.power.mode = .doze ∨ s.power.mode = .deepDoze ∨ s.power.mode = .drain)
    (hg : s.power.pwrgd = true) : s.power.mode ≠ .scan ∧ outputsOff s = false := by
  rw [outputsOff, hg]
  obtain h | h | h | h | h := h <;> rw [h] <;> decide

theorem padDrive_syncOut (hscan : s.power.mode ≠ .scan) (houts : outputsOff s = false) :
    padDrive s .syncOut = if (reg s 0x300050).getLsbD 0 then driveLevel false s.time.syncOut else .released := by
  show (if s.power.mode = .scan then scanDrive s else
    if outputsOff s || !(reg s 0x300050).getLsbD 0 then .released else driveLevel false s.time.syncOut) = _
  rw [if_neg hscan, houts]
  cases (reg s 0x300050).getLsbD 0 <;> rfl
theorem padDrive_free (n : Fin 32) (hscan : s.power.mode ≠ .scan) (houts : outputsOff s = false) (hr : padReleasing s n.val = false)
    (h : s.power.padHeld.getLsbD n.val = false ∨ functionDrive s n.val = .released) : padDrive s (.gpio n) = functionDrive s n.val := by
  unfold padDrive
  dsimp only
  rw [if_neg hscan, houts, hr, Bool.or_false, if_neg Bool.false_ne_true]
  obtain h | h := h <;> rw [h]
  · exact if_neg Bool.false_ne_true
  · exact ite_self _
theorem functionDrive_gpio {n : Nat} (hf : padFsel s n = 0) : functionDrive s n =
    if (padCfg s n).getLsbD 7 then driveLevel ((padCfg s n).getLsbD 9) ((padCfg s n).getLsbD 8) else .released := by
  unfold functionDrive
  rw [hf]
  rfl

theorem outputs_drive (s : State) :
    (s.power.mode ≠ .scan →
      (s.power.pwrgd = false ∨ s.power.mode = .off ∨ s.power.mode = .rind ∨ s.power.mode = .sequence → ∀ o, o ≠ .thermtrip → padDrive s o = .released) ∧
      (padDrive s .thermtrip = .low ∨ padDrive s .thermtrip = .released) ∧
      (s.power.thermtrip = true → s.power.pwrgd = true → nowNs s < s.power.tripAt + 10000000 → padDrive s .thermtrip = .low) ∧
      (s.power.thermtrip = false ∨ s.power.tripAt + 10000000 ≤ nowNs s → padDrive s .thermtrip = .released)) ∧
    (s.power.mode = .scan → ∀ o, o ≠ .tdo → padDrive s o = (if s.pads.ir = 5 ∨ s.pads.released = true ∨ padCode s.pads.ir = false then .released else .signal)) ∧
    (s.power.mode = .calibrate ∨ s.power.mode = .run ∨ s.power.mode = .doze ∨ s.power.mode = .deepDoze ∨ s.power.mode = .drain → s.power.pwrgd = true →
      (padDrive s .prochot = if s.power.prochotOwn then .low else .released) ∧
      (padDrive s .syncOut = if (reg s 0x300050).getLsbD 0 then (if s.time.syncOut then .high else .low) else .released) ∧
      ∀ n : Fin 32, (padReleasing s n.val = true → padDrive s (.gpio n) = .released) ∧
        (padReleasing s n.val = false → padFsel s n.val = 0 →
          let c := padCfg s n.val
          (c.getLsbD 7 = false → padDrive s (.gpio n) = .released) ∧
          (c.getLsbD 7 = true → s.power.padHeld.getLsbD n.val = false →
            padDrive s (.gpio n) = if c.getLsbD 8 then (if c.getLsbD 9 then .released else .high) else .low))) := by
  refine ⟨fun hmode => ⟨fun hoff o ho => padDrive_off hmode hoff ho, ?_, fun htrip hg hnow => ?_, fun hdone => ?_⟩, fun hmode o ho => ?_, fun hmode hg => ?_⟩
  · rw [padDrive_thermtrip hmode]
    split
    · exact .inl rfl
    · exact .inr rfl
  · rw [padDrive_thermtrip hmode, if_pos ⟨hg, htrip, hnow⟩]
  · rw [padDrive_thermtrip hmode, if_neg]
    rintro ⟨-, htrip, hnow⟩
    obtain h | h := hdone
    · rw [htrip] at h
      cases h
    · omega
  · rw [padDrive_scan hmode ho, scanDrive_eq]
  · obtain ⟨hscan, houts⟩ := powered_mode hmode hg
    refine ⟨by simp [padDrive, hscan, houts], ?_, fun n => ⟨fun hr => by simp [padDrive, hscan, houts, hr], fun hr hf => ⟨fun h7 => ?_, fun h7 hheld => ?_⟩⟩⟩
    · rw [padDrive_syncOut hscan houts]
      cases s.time.syncOut <;> rfl
    · have hnone : functionDrive s n.val = .released := by rw [functionDrive_gpio hf, h7, if_neg Bool.false_ne_true]
      rw [padDrive_free n hscan houts hr (.inr hnone), hnone]
    · rw [padDrive_free n hscan houts hr (.inl hheld), functionDrive_gpio hf, h7, if_pos rfl]
      cases (padCfg s n.val).getLsbD 8 <;> rfl

/-! ### LEDs (R580, R581) -/

/-- Four codes of two bits each, lowest first. -/
theorem fld_codes {c : Nat → Nat} (hc : ∀ n, c n < 4) {n : Nat} (hn : n < 4) :
    fld (BitVec.ofNat 8 (((List.range 4).map fun n => c n * 4 ^ n).foldl (· + ·) 0)) (2 * n + 1) (2 * n) = c n := by
  have h0 := hc 0
  have h1 := hc 1
  have h2 := hc 2
  have h3 := hc 3
  have hsum : (((List.range 4).map fun n => c n * 4 ^ n).foldl (· + ·) 0) = c 0 + c 1 * 4 + c 2 * 16 + c 3 * 64 := by
    simp [List.range_succ]
  have hlt : c 0 + c 1 * 4 + c 2 * 16 + c 3 * 64 < 2 ^ 8 := by omega
  rw [hsum, fld, natBits, BitVec.toNat_ofNat, Nat.mod_eq_of_lt hlt]
  obtain rfl | rfl | rfl | rfl : n = 0 ∨ n = 1 ∨ n = 2 ∨ n = 3 := by omega
  all_goals
    norm_num
    omega
theorem ledCode_lt (s : State) (n : Nat) (above below : Bool) : ledCode s n above below < 4 := by
  unfold ledCode
  dsimp only
  split_ifs <;> decide

theorem diagnoses_leds (s : State) (hi lo : BitVec 4) :
    Completes (.ledDiagnosis hi lo) s fun u => { u with pads := { u.pads with ledDiag := s.pads.ledDiag } } = s ∧ ∀ n, n < 4 →
      let r := reg s (0x200210 + 4 * n)
      let on := if (reg s 0x200200).getLsbD n then fld r 31 16 * 1000 * fld r 15 0 / 65536 / 80 * 80 else 0
      let mine := padFsel s (28 + n) = 1 ∧ padReleasing s (28 + n) = false
      let short := mine ∧ lo.getLsbD n = true ∧ (on = 0 ∨ on + 25000 ≤ 1000 * fld r 31 16)
      let tested := mine ∧ 0 < on ∧ (25000 ≤ on ∨ (reg s 0x200200).getLsbD 31 = true)
      fld u.pads.ledDiag (2 * n + 1) (2 * n) = if short then 3 else if tested then (if hi.getLsbD n then 2 else 1) else 0 := by
  refine ⟨_, rfl, rfl, fun n hn => ?_⟩
  intro r on mine short tested
  refine (fld_codes (c := fun n => ledCode s n (hi.getLsbD n) (lo.getLsbD n)) (fun n => ledCode_lt ..) hn).trans ?_
  have hreg : padReg (0x210 + 4 * n) = 0x200210 + 4 * n := by unfold padReg; omega
  have hon : (if (reg s (padReg 0x200)).getLsbD n then ledOn s n else 0) = on := by rw [ledOn, hreg]; rfl
  have hperiod : ledPeriod s n = 1000 * fld r 31 16 := by rw [ledPeriod, rfld, hreg]
  unfold ledCode
  dsimp only
  rw [hon, hperiod]
  by_cases hmine : mine
  · have hm : (padFsel s (28 + n) == 1 && !padReleasing s (28 + n)) = true := by rw [hmine.1, hmine.2]; rfl
    rw [hm]
    have hctl : reg s (padReg 0x200) = reg s 0x200200 := rfl
    simp only [Bool.not_true, Bool.false_eq_true, if_false, Bool.and_eq_true, decide_eq_true_iff, Bool.or_eq_true, hctl, short, tested, hmine, true_and,
      and_comm (a := lo.getLsbD n = true)]
  · have hm : (padFsel s (28 + n) == 1 && !padReleasing s (28 + n)) = false := by
      rw [Bool.eq_false_iff]
      simpa [mine] using hmine
    have hshort : ¬short := fun h => hmine h.1
    have htested : ¬tested := fun h => hmine h.1
    rw [hm, if_neg hshort, if_neg htested]
    rfl

/-! ### UARTs (R582) -/

/-- A read of the whole register leaves no bit. -/
theorem and_not_read {n : Nat} (hn : n ≤ 32) (e : BitVec n) : e &&& ~~~((BitVec.allOnes 32).setWidth n) = 0 := by
  refine BitVec.eq_of_getLsbD_eq fun i hi => ?_
  rw [BitVec.getLsbD_and, BitVec.getLsbD_not, BitVec.getLsbD_setWidth, BitVec.getLsbD_allOnes, decide_eq_true hi, decide_eq_true (by omega : i < 32)]
  simp

/-- `u` is `s` with `y` for UART `k`, whose source line follows. -/
structure UartNow (k : Nat) (y : Uart) (s u : State) : Prop where
  here : uart u k = y
  others : ∀ j, j ≠ k → uart u j = uart s j
  bytes : SameBytes s u
  ctl : u.ctl = s.ctl
  line : lineHigh u (156 + k) =
    (((reg s (0x200314 + 32 * k)).getLsbD 0 && decide (y.rx ≠ [])) || ((reg s (0x200314 + 32 * k)).getLsbD 1 && decide (y.tx.length < 32)))
theorem uartNow_setUart (k : Nat) (y : Uart) (s : State) : UartNow k y s (setUart k y s) := by
  have hget (j : Nat) : uart (setPads (fun p => { p with uarts := smPut uartDef p.uarts k y }) s) j = if j = k then y else uart s j := smGet_smPut ..
  have hoff : uartReg k 0x14 = 0x200314 + 32 * k := by unfold uartReg padReg; omega
  unfold setUart uartLine
  dsimp only
  rw [hget, if_pos rfl, hoff]
  have hline (b : Bool) := lineHigh_setLine (156 + k) (156 + k) b (setPads (fun p => { p with uarts := smPut uartDef p.uarts k y }) s)
  generalize hb : ((reg (setPads (fun p => { p with uarts := smPut uartDef p.uarts k y }) s) (0x200314 + 32 * k)).getLsbD 0 && decide (y.rx ≠ []) ||
    (reg (setPads (fun p => { p with uarts := smPut uartDef p.uarts k y }) s) (0x200314 + 32 * k)).getLsbD 1 && decide (y.tx.length < 32)) = b
  obtain ⟨i, hi⟩ := setLine_eq (s := setPads (fun p => { p with uarts := smPut uartDef p.uarts k y }) s) (156 + k) b
  have hl := hline b
  rw [hi] at hl ⊢
  exact ⟨(hget k).trans (if_pos rfl), fun j hj => (hget j).trans (if_neg hj), fun _ => rfl, rfl, (hl.trans (if_pos rfl)).trans hb.symm⟩
theorem UartNow.all {k : Nat} {y : Uart} (h : UartNow k y s u) : uart u k = y ∧ (∀ j, j ≠ k → uart u j = uart s j) ∧ SameBytes s u ∧ u.ctl = s.ctl ∧
    lineHigh u (156 + k) =
      (((reg s (0x200314 + 32 * k)).getLsbD 0 && decide (y.rx ≠ [])) || ((reg s (0x200314 + 32 * k)).getLsbD 1 && decide (y.tx.length < 32))) :=
  ⟨h.here, h.others, h.bytes, h.ctl, h.line⟩

theorem findReg_uart : ∀ k : Fin 2,
    findReg (0x200304 + 32 * k.val) = some ({ name := .padUartTx, off := 0x200304, dims := [(0x20, 2)], acc := .wo, bits := 0xff }, [k.val]) ∧
    findReg (0x200308 + 32 * k.val) = some ({ name := .padUartRx, off := 0x200308, dims := [(0x20, 2)], acc := .rc }, [k.val]) ∧
    findReg (0x200310 + 32 * k.val) = some ({ name := .padUartErr, off := 0x200310, dims := [(0x20, 2)], acc := .rc }, [k.val]) := by
  decide +kernel
theorem uartReceive_eq {k : Nat} (b : Byte) (frame brk : Bool) (hon : uartOn s k = true) (hpad : uartPad s k 1 = true) :
    uartReceive k b frame brk s =
      if brk then setUart k { uart s k with err := (uart s k).err ||| 1 } s
      else if 64 ≤ (uart s k).rx.length then setUart k { uart s k with err := (if frame then (uart s k).err ||| 2 else (uart s k).err) ||| 4 } s
      else setUart k { uart s k with err := if frame then (uart s k).err ||| 2 else (uart s k).err, rx := (uart s k).rx ++ [b] } s := by
  rw [uartReceive, hon, hpad]
  rfl

theorem uart_receives (s : State) (k : Fin 2) (b : Byte) (frame brk : Bool) :
    let x := uart s k.val
    (uartOn s k.val = false ∨ uartPad s k.val 1 = false → exec (.uartRxByte k b frame brk) s = .next s) ∧
    (uartOn s k.val = true → uartPad s k.val 1 = true →
      (brk = true → Completes (.uartRxByte k b frame brk) s (UartNow k.val { x with err := x.err ||| 1 } s)) ∧
      (brk = false → x.rx.length < 64 → Completes (.uartRxByte k b frame brk) s
        (UartNow k.val { x with err := if frame then x.err ||| 2 else x.err, rx := x.rx ++ [b] } s)) ∧
      (brk = false → 64 ≤ x.rx.length → Completes (.uartRxByte k b frame brk) s
        (UartNow k.val { x with err := (if frame then x.err ||| 2 else x.err) ||| 4 } s))) := by
  intro x
  have hexec : exec (.uartRxByte k b frame brk) s = .next (uartReceive k.val b frame brk s) := rfl
  refine ⟨fun hdead => ?_, fun hon hpad => ⟨fun hbrk => ?_, fun hbrk hroom => ?_, fun hbrk hfull => ?_⟩⟩
  · rw [hexec, uartReceive]
    obtain h | h := hdead <;> simp [h]
  · refine ⟨_, hexec, ?_⟩
    rw [uartReceive_eq b frame brk hon hpad, if_pos hbrk]
    exact uartNow_setUart ..
  · refine ⟨_, hexec, ?_⟩
    rw [uartReceive_eq b frame brk hon hpad, hbrk, if_neg Bool.false_ne_true, if_neg (Nat.not_le.mpr hroom)]
    exact uartNow_setUart ..
  · refine ⟨_, hexec, ?_⟩
    rw [uartReceive_eq b frame brk hon hpad, hbrk, if_neg Bool.false_ne_true, if_pos hfull]
    exact uartNow_setUart ..

theorem uart_sends (s : State) (k : Fin 2) (w : Writer) (v : Word32) :
    let x := uart s k.val
    (uartOn s k.val = true → Completes (.uartByteSent k) s (UartNow k.val { x with tx := x.tx.drop 1 } s)) ∧
    (uartOn s k.val = false → exec (.uartByteSent k) s = .next s) ∧
    (Reaches w 1 0 (0x200304 + 32 * k.val) s → v.toNat < 256 →
      (x.tx.length < 64 → Commands (.uartTx w k v) w (0x200304 + 32 * k.val) v s (UartNow k.val { x with tx := x.tx ++ [v.setWidth 8] } s)) ∧
      (64 ≤ x.tx.length → Refuses (.uartTx w k v) s 7)) := by
  intro x
  refine ⟨fun hon => ⟨_, congrArg (fun a => (.next a : Out)) (if_pos hon), uartNow_setUart ..⟩,
    fun hon => congrArg (fun a => (.next a : Out)) (if_neg (by rw [hon]; decide)), fun hr hv => ?_⟩
  have hoff : uartReg k.val 4 = 0x200304 + 32 * k.val := by unfold uartReg padReg; omega
  have hlevel : needLevel s { name := .padUartTx, off := 0x200304, dims := [(0x20, 2)], acc := .wo, bits := 0xff } (0x200304 + 32 * k.val) true = 1 := by
    fin_cases k <;> rfl
  have ho : Orders (.uartTx w k v) w { name := .padUartTx, off := 0x200304, dims := [(0x20, 2)], acc := .wo, bits := 0xff } [k.val]
      (0x200304 + 32 * k.val) v s :=
    ⟨(findReg_uart k).1, by rw [← hoff]; rfl, rfl, rfl, by decide, by rw [hlevel]; exact hr⟩
  have hzero : ¬fld v 31 8 ≠ 0 := by
    have : v.toNat / 2 ^ 8 = 0 := Nat.div_eq_of_lt hv
    rw [fld, natBits, this]
    simp
  have hcmd : command mcmd w { name := .padUartTx, off := 0x200304, dims := [(0x20, 2)], acc := .wo, bits := 0xff } [k.val] (0x200304 + 32 * k.val) v s =
      uartSend k.val v s := if_neg hzero
  refine ⟨fun hroom => ho.commands (hcmd.trans (if_neg (Nat.not_le.mpr hroom))) (uartNow_setUart ..), fun hfull => ?_⟩
  exact ho.refuses (a := s) (hcmd.trans (if_pos hfull)) rfl (by decide)

theorem uart_reads (s : State) (k : Fin 2) (w : Writer) :
    let x := uart s k.val
    (Answers w 1 0 (0x200308 + 32 * k.val) s →
      (x.rx = [] → Reads (.uartRxRead w k) s s 0 0) ∧
      ∀ c rest, x.rx = c :: rest → ReadsToClear (.uartRxRead w k) w s (BitVec.ofNat 64 (2 ^ 31 + c.toNat)) (UartNow k.val { x with rx := rest } s)) ∧
    (Answers w 1 0 (0x200310 + 32 * k.val) s → ReadsToClear (.uartErrRead w k) w s (x.err.setWidth 64) (UartNow k.val { x with err := 0 } s)) := by
  intro x
  have hrx : uartReg k.val 8 = 0x200308 + 32 * k.val := by unfold uartReg padReg; omega
  have herr : uartReg k.val 0x10 = 0x200310 + 32 * k.val := by unfold uartReg padReg; omega
  refine ⟨fun ha => ?_, fun ha => ?_⟩
  · have hc : Collects (.uartRxRead w k) w { name := .padUartRx, off := 0x200308, dims := [(0x20, 2)], acc := .rc } [k.val] (0x200308 + 32 * k.val) s :=
      ⟨(findReg_uart k).2.1, by rw [← hrx]; rfl, rfl, by omega, by decide, by fin_cases k <;> exact ha⟩
    have hval : regValue w { name := .padUartRx, off := 0x200308, dims := [(0x20, 2)], acc := .rc } [k.val] (0x200308 + 32 * k.val) s =
        BitVec.ofNat 32 (uartFront s k.val) := by
      fin_cases k <;> rfl
    have hclear : clearRead w { name := .padUartRx, off := 0x200308, dims := [(0x20, 2)], acc := .rc } [k.val] (BitVec.allOnes 32) s = (uartRead k.val s).2 := rfl
    refine ⟨fun hnil => hc.readsNothing ?_ ?_, fun c rest hcons => hc.readsToClear ?_ ?_⟩
    · have hnil' : (uart s k.val).rx = [] := hnil
      rw [hval, uartFront, hnil']
      rfl
    · have hnil' : (uart s k.val).rx = [] := hnil
      rw [hclear, uartRead, hnil']
    · have hcons' : (uart s k.val).rx = c :: rest := hcons
      rw [hval, uartFront, hcons']
      apply BitVec.eq_of_toNat_eq
      have := c.isLt
      simp only [BitVec.toNat_setWidth, BitVec.toNat_ofNat]
      omega
    · have hcons' : (uart s k.val).rx = c :: rest := hcons
      rw [hclear, uartRead, hcons']
      exact uartNow_setUart ..
  · have hc : Collects (.uartErrRead w k) w { name := .padUartErr, off := 0x200310, dims := [(0x20, 2)], acc := .rc } [k.val] (0x200310 + 32 * k.val) s :=
      ⟨(findReg_uart k).2.2, by rw [← herr]; rfl, rfl, by omega, by decide, by fin_cases k <;> exact ha⟩
    refine hc.readsToClear ?_ ?_
    · have hval : regValue w { name := .padUartErr, off := 0x200310, dims := [(0x20, 2)], acc := .rc } [k.val] (0x200310 + 32 * k.val) s =
          BitVec.ofNat 32 (uart s k.val).err.toNat := by
        fin_cases k <;> rfl
      rw [hval]
      apply BitVec.eq_of_toNat_eq
      have := (uart s k.val).err.isLt
      simp only [BitVec.toNat_setWidth, BitVec.toNat_ofNat, x]
      omega
    · have h : clearRead w { name := .padUartErr, off := 0x200310, dims := [(0x20, 2)], acc := .rc } [k.val] (BitVec.allOnes 32) s =
          setUart k.val { uart s k.val with err := 0 } s := by
        show setUart k.val { uart s k.val with err := (uart s k.val).err &&& ~~~((BitVec.allOnes 32).setWidth 3) } s = _
        rw [and_not_read (by decide)]
      rw [h]
      exact uartNow_setUart ..

/-! ### Boot flash and the pad events (R583) -/

theorem flash_and_events (s : State) (c : Fin 2) (w : Writer) :
    (Completes (.flashTimeout c) s fun u => (∀ k, smGet zeroNat u.pads.flashFails k = smGet zeroNat s.pads.flashFails k + if k = c.val then 1 else 0) ∧
      u.pads.events = s.pads.events ||| BitVec.ofNat 8 (4 * 2 ^ c.val) ∧
      { u with pads := { u.pads with flashFails := s.pads.flashFails, events := s.pads.events } } = s) ∧
    (Answers w 1 0 0x200008 s → ReadsToClear (.padEventRead w) w s (s.pads.events.setWidth 64) fun u =>
      u = { s with pads := { s.pads with events := 0 } }) := by
  refine ⟨⟨_, rfl, fun k => ?_, ?_, rfl⟩, fun ha => ?_⟩
  · show smGet zeroNat (smPut zeroNat s.pads.flashFails c.val (flashFails s c.val + 1)) k = _
    rw [smGet_smPut]
    split
    · next h => rw [h, flashFails]
    · rfl
  · show s.pads.events ||| BitVec.ofNat 8 (2 ^ (2 + c.val)) = _
    rw [Nat.pow_add]
  · have hc : Collects (.padEventRead w) w { name := .padEvent, off := 0x200008, acc := .rc } [] 0x200008 s :=
      ⟨by decide +kernel, rfl, rfl, by decide, by decide, ha⟩
    refine hc.readsToClear ?_ ?_
    · show (BitVec.ofNat 32 s.pads.events.toNat).setWidth 64 = _
      apply BitVec.eq_of_toNat_eq
      have := s.pads.events.isLt
      simp only [BitVec.toNat_setWidth, BitVec.toNat_ofNat]
      omega
    · show setPads (fun p => { p with events := p.events &&& ~~~((BitVec.allOnes 32).setWidth 8) }) s = _
      rw [setPads, and_not_read (by decide)]

/-! ### The TAP (R589 to R592) -/

theorem leaveScan_of_ne (h : s.power.mode ≠ .scan) : leaveScan s = s := if_neg h
/-- A change of `SYS_MODE` may be noted, and changes nothing beside. -/
theorem setMode_frame (m : DevMode) (s : State) :
    (setMode m s).power = { s.power with mode := m } ∧
    { setMode m s with power := s.power, pads := { (setMode m s).pads with alerts := s.pads.alerts } } = s ∧
    (setMode m s).pads.ir = s.pads.ir ∧ (setMode m s).pads.safeEn = s.pads.safeEn ∧ (setMode m s).pads.released = s.pads.released := by
  unfold setMode noteMode
  split <;> exact ⟨rfl, rfl, rfl, rfl, rfl⟩

/-- `u` is `s` but for the registers of the TAP, the mode and its note. -/
def TapOnly (s u : State) : Prop :=
  { u with power := s.power, pads := { u.pads with alerts := s.pads.alerts, ir := s.pads.ir, safeEn := s.pads.safeEn, released := s.pads.released } } = s

/-- The registers of the TAP as an operation sets them. -/
def tapSet (ir : BitVec 8) (en rel : Bool) (s : State) : State := setPads (fun p => { p with ir := ir, safeEn := en, released := rel }) s
theorem tapOnly_setMode (m : DevMode) (ir : BitVec 8) (en rel : Bool) (s : State) : TapOnly s (setMode m (tapSet ir en rel s)) := by
  unfold setMode noteMode
  split <;> rfl
theorem tap_leaves (ir : BitVec 8) (en rel : Bool) (s : State) :
    (leaveScan (tapSet ir en rel s)).pads.ir = ir ∧ (leaveScan (tapSet ir en rel s)).pads.safeEn = en ∧
    (leaveScan (tapSet ir en rel s)).pads.released = rel ∧
    (leaveScan (tapSet ir en rel s)).power = { s.power with mode := if s.power.mode = .scan then .sequence else s.power.mode } ∧
    TapOnly s (leaveScan (tapSet ir en rel s)) := by
  by_cases h : s.power.mode = .scan
  · have hl : leaveScan (tapSet ir en rel s) = setMode .sequence (tapSet ir en rel s) := if_pos h
    obtain ⟨hpower, -, hir, hen, hrel⟩ := setMode_frame .sequence (tapSet ir en rel s)
    rw [hl, if_pos h]
    exact ⟨hir, hen, hrel, hpower, tapOnly_setMode ..⟩
  · rw [leaveScan_of_ne (s := tapSet ir en rel s) h, if_neg h]
    exact ⟨rfl, rfl, rfl, rfl, rfl⟩

theorem inRindOn_on {f : State → State} (h : s.power.mode ≠ .off) : inRindOn f s = f s := if_neg h
theorem inRindOn_off {f : State → State} (h : s.power.mode = .off) : inRindOn f s = s := if_pos h

theorem tap_resets (s : State) (hon : s.power.mode ≠ .off) : Completes .tapReset s fun u => u.pads.ir = 1 ∧ u.pads.safeEn = false ∧
    u.pads.released = false ∧ u.power = { s.power with mode := if s.power.mode = .scan then .sequence else s.power.mode } ∧ TapOnly s u :=
  ⟨_, congrArg (fun a => (.next a : Out)) (inRindOn_on hon), tap_leaves 1 false false s⟩
theorem tap_updates_ir (s : State) (ir : BitVec 8) :
    (padCode ir = true → s.power.strapTest = true → s.power.mode = .sequence ∨ s.power.mode = .scan → Completes (.tapUpdateIr ir) s fun u =>
      u.pads.ir = ir ∧ u.pads.released = false ∧ u.pads.safeEn = s.pads.safeEn ∧ u.power = { s.power with mode := .scan } ∧ TapOnly s u) ∧
    (s.power.mode ≠ .off → padCode ir = false ∨ s.power.strapTest = false ∨ s.power.mode ≠ .sequence ∧ s.power.mode ≠ .scan →
      Completes (.tapUpdateIr ir) s fun u => u.pads.ir = ir ∧ u.pads.released = false ∧ u.pads.safeEn = s.pads.safeEn ∧
        u.power = { s.power with mode := if s.power.mode = .scan then .sequence else s.power.mode } ∧ TapOnly s u) := by
  have hupdate : tapUpdateIr ir s = if padCode ir && mayScan s then setMode .scan (tapSet ir s.pads.safeEn false s)
      else leaveScan (tapSet ir s.pads.safeEn false s) := rfl
  refine ⟨fun hcode htest hmode => ?_, fun hon hno => ?_⟩
  · have hon : s.power.mode ≠ .off := by obtain h | h := hmode <;> rw [h] <;> decide
    have hmay : (padCode ir && mayScan s) = true := by rw [hcode, mayScan, htest, decide_eq_true hmode]; rfl
    refine ⟨_, congrArg (fun a => (.next a : Out)) ((inRindOn_on hon).trans (hupdate.trans (if_pos hmay))), ?_⟩
    obtain ⟨hpower, -, hir, hen, hrel⟩ := setMode_frame .scan (tapSet ir s.pads.safeEn false s)
    exact ⟨hir, hrel, hen, hpower, tapOnly_setMode ..⟩
  · have hmay : ¬(padCode ir && mayScan s) = true := by
      rw [mayScan, Bool.and_eq_true, Bool.and_eq_true, decide_eq_true_iff]
      rintro ⟨hcode, htest, hmode⟩
      obtain h | h | ⟨h, h'⟩ := hno
      · rw [hcode] at h
        cases h
      · rw [htest] at h
        cases h
      · exact hmode.elim h h'
    refine ⟨_, congrArg (fun a => (.next a : Out)) ((inRindOn_on hon).trans (hupdate.trans (if_neg hmay))), ?_⟩
    obtain ⟨hir, hen, hrel, hrest⟩ := tap_leaves ir s.pads.safeEn false s
    exact ⟨hir, hrel, hen, hrest⟩

theorem tap_updates_dr (s : State) (d : BitVec 2112) (hon : s.power.mode ≠ .off) :
    (s.pads.ir = 2 ∨ (s.pads.ir = 0 ∨ s.pads.ir = 6 ∨ s.pads.ir = 7) ∧ s.power.mode = .scan → Completes (.tapUpdateDr d) s fun u =>
      u = { s with pads := { s.pads with boundary := d, released := false } }) ∧
    (s.pads.ir = 0x10 → Completes (.tapUpdateDr d) s fun u =>
      { u with pads := { u.pads with safeEn := s.pads.safeEn, safeTimeout := s.pads.safeTimeout, released := s.pads.released } } = s ∧ u.pads.released = false ∧
      (if 1 ≤ fld d 9 0 ∧ fld d 9 0 ≤ 1000 then u.pads.safeEn = d.getLsbD 15 ∧ u.pads.safeTimeout.toNat = fld d 9 0
        else u.pads.safeEn = s.pads.safeEn ∧ u.pads.safeTimeout = s.pads.safeTimeout)) ∧
    (s.pads.ir ≠ 2 → s.pads.ir ≠ 0x10 → ¬((s.pads.ir = 0 ∨ s.pads.ir = 6 ∨ s.pads.ir = 7) ∧ s.power.mode = .scan) → Completes (.tapUpdateDr d) s fun u =>
      u = { s with pads := { s.pads with released := false } }) := by
  have hexec : exec (.tapUpdateDr d) s = .next (tapUpdateDr d s) := congrArg (fun a => (.next a : Out)) (inRindOn_on hon)
  refine ⟨fun hb => ⟨_, hexec, if_pos hb⟩, fun hsafe => ⟨_, hexec, ?_⟩, fun h2 h10 hb => ⟨_, hexec, ?_⟩⟩
  · have hb : ¬(s.pads.ir = 2 ∨ (s.pads.ir = 0 ∨ s.pads.ir = 6 ∨ s.pads.ir = 7) ∧ s.power.mode = .scan) := by rw [hsafe]; simp
    have hdr : tapUpdateDr d s = if 1 ≤ fld d 9 0 ∧ fld d 9 0 ≤ 1000 then
        setPads (fun p => { p with safeEn := d.getLsbD 15, safeTimeout := BitVec.ofNat 10 (fld d 9 0) }) (setPads (fun p => { p with released := false }) s)
        else setPads (fun p => { p with released := false }) s := (if_neg hb).trans (if_pos hsafe)
    by_cases ht : 1 ≤ fld d 9 0 ∧ fld d 9 0 ≤ 1000
    · rw [hdr, if_pos ht]
      refine ⟨rfl, rfl, ?_⟩
      rw [if_pos ht]
      exact ⟨rfl, Nat.mod_eq_of_lt (by omega)⟩
    · rw [hdr, if_neg ht]
      refine ⟨rfl, rfl, ?_⟩
      rw [if_neg ht]
      exact ⟨rfl, rfl⟩
  · exact (if_neg (not_or.mpr ⟨h2, hb⟩)).trans (if_neg h10)
theorem safehold_expires (s : State) :
    let fires := s.pads.safeEn = true ∧ s.power.mode = .scan ∧ padCode s.pads.ir = true ∧ s.pads.released = false
    (fires → Completes .safeholdExpiry s fun u => u = { s with pads := { s.pads with released := true, events := s.pads.events ||| 0x40 } }) ∧
    (¬fires → exec .safeholdExpiry s = .next s) := by
  intro fires
  have hcond : (s.pads.safeEn && s.power.mode == .scan && padCode s.pads.ir && !s.pads.released) = true ↔ fires := by
    simp [fires, and_assoc]
  exact ⟨fun h => ⟨_, rfl, if_pos (hcond.mpr h)⟩, fun h => congrArg (fun a => (.next a : Out)) (if_neg (mt hcond.mp h))⟩
theorem dbgacc_answers (s : State) (x : Word64) :
    let on := s.power.mode ≠ .off
    (s.pads.ir ≠ 0x20 ∨ x.getLsbD 0 = false ∨ ¬on → exec (.dbgacc x) s = .next s) ∧
    (on → s.pads.ir = 0x20 → x.getLsbD 0 = true → fld x 31 24 ≠ 0 → Completes (.dbgacc x) s fun u =>
      u = { s with pads := { s.pads with released := false, dbgData := 0, dbgStatus := 4 } }) ∧
    (on → s.pads.ir = 0x20 → x.getLsbD 0 = true → fld x 31 24 = 0 →
      let s1 := { s with pads := { s.pads with released := false } }
      let o := 0x5000000 + 4 * fld x 23 2
      let answered (u a : State) (st : Nat) (v : Word32) : Prop := u = { a with pads := { a.pads with dbgData := v, dbgStatus := st } }
      let r := ctlRead (.path 1) o s1
      let q := ctlWrite (.path 1) o (BitVec.ofNat 32 (fld x 63 32)) s1
      (x.getLsbD 1 = false → Completes (.dbgacc x) s fun u => answered u r.2.2 r.1 r.2.1) ∧
      (x.getLsbD 1 = true → Completes (.dbgacc x) s fun u => answered u q.2 q.1 0)) := by
  intro on
  have hrun (h1 : s.pads.ir = 0x20) (h2 : x.getLsbD 0 = true) (h3 : on) : exec (.dbgacc x) s =
      (let s1 : State := { s with pads := { s.pads with released := false } }
       let r := if fld x 31 24 ≠ 0 then (stRsvd, 0, s1)
         else dbgAccess (.path 1) (4 * fld x 23 2) (x.getLsbD 1) (BitVec.ofNat 32 (fld x 63 32)) s1
       .next (setPads (fun p => { p with dbgData := r.2.1, dbgStatus := r.1 }) r.2.2)) := if_pos ⟨h1, h2, h3⟩
  have haccess (a : State) (b : Bool) : dbgAccess (.path 1) (4 * fld x 23 2) b (BitVec.ofNat 32 (fld x 63 32)) a =
      if b then ((ctlWrite (.path 1) (0x5000000 + 4 * fld x 23 2) (BitVec.ofNat 32 (fld x 63 32)) a).1, 0,
        (ctlWrite (.path 1) (0x5000000 + 4 * fld x 23 2) (BitVec.ofNat 32 (fld x 63 32)) a).2)
      else ctlRead (.path 1) (0x5000000 + 4 * fld x 23 2) a := by
    have hlt := fld_lt x 23 2
    exact if_neg (by omega)
  refine ⟨fun hno => if_neg ?_, fun hon hir h0 hres => ⟨_, hrun hir h0 hon, ?_⟩, fun hon hir h0 hres => ⟨fun hrd => ⟨_, hrun hir h0 hon, ?_⟩,
    fun hwr => ⟨_, hrun hir h0 hon, ?_⟩⟩⟩
  · rintro ⟨hir, h0, hon⟩
    obtain h | h | h := hno
    · exact h hir
    · rw [h0] at h
      cases h
    · exact h hon
  · rw [if_pos hres]
    rfl
  · rw [if_neg (not_not.mpr hres), haccess, hrd, if_neg Bool.false_ne_true]
    generalize ctlRead (.path 1) (0x5000000 + 4 * fld x 23 2) _ = r
    rfl
  · rw [if_neg (not_not.mpr hres), haccess, hwr, if_pos rfl]
    generalize ctlWrite (.path 1) (0x5000000 + 4 * fld x 23 2) _ _ = q
    rfl

/-- Settles O55: each output, input, UART and TAP register by the one function of the model that acts on it. -/
theorem padsSwitchSampleAndScan : Obligations.PadsSwitchSampleAndScan := by
  refine ⟨fun s n board => ⟨padShows_board n board, changes_input s n board, switches_function n, fun hno => ?_, fun w v hr h1 h2 => writes_function n hr h1 h2⟩,
    outputs_drive, diagnoses_leds, fun s k b frame brk w v => ?_, flash_and_events, fun s ir d x => ?_⟩
  · have hexec : exec (.functionSwitchComplete n) s = .next (padSwitched n.val s) := rfl
    have hcond : ¬(padReleasing s n.val && s.power.mode != .scan) = true := by
      obtain h | h := hno <;> simp [h]
    rw [hexec, padSwitched, if_neg hcond]
  · obtain ⟨hdead, hlive⟩ := uart_receives s k b frame brk
    obtain ⟨hsent, hstill, htx⟩ := uart_sends s k w v
    obtain ⟨hrx, herr⟩ := uart_reads s k w
    refine ⟨hdead, fun hon hpad => ?_, fun hon => ?_, hstill, fun hr hv => ?_, fun ha => ?_, fun ha => ?_⟩
    · obtain ⟨hbreak, htake, hover⟩ := hlive hon hpad
      refine ⟨fun h => ?_, fun h h' => ?_, fun h h' => ?_⟩
      · obtain ⟨t, ht, hnow⟩ := hbreak h
        exact ⟨t, ht, hnow.all⟩
      · obtain ⟨t, ht, hnow⟩ := htake h h'
        exact ⟨t, ht, hnow.all⟩
      · obtain ⟨t, ht, hnow⟩ := hover h h'
        exact ⟨t, ht, hnow.all⟩
    · obtain ⟨t, ht, hnow⟩ := hsent hon
      exact ⟨t, ht, hnow.all⟩
    · obtain ⟨htakes, hbusy⟩ := htx hr hv
      refine ⟨fun h => ?_, hbusy⟩
      obtain ⟨t, ht, a, hnow, hacc⟩ := htakes h
      exact ⟨t, ht, a, hnow.all, hacc⟩
    · obtain ⟨hnone, hsome⟩ := hrx ha
      refine ⟨hnone, fun c rest hcons => ⟨fun hclear => ?_, (hsome c rest hcons).2⟩⟩
      obtain ⟨a, hreads, hnow⟩ := (hsome c rest hcons).1 hclear
      exact ⟨a, hreads, hnow.all⟩
    · refine ⟨fun hclear => ?_, (herr ha).2⟩
      obtain ⟨a, hreads, hnow⟩ := (herr ha).1 hclear
      exact ⟨a, hreads, hnow.all⟩
  · obtain ⟨hscan, hbypass⟩ := tap_updates_ir s ir
    obtain ⟨hfires, hquiet⟩ := safehold_expires s
    obtain ⟨hnone, hres, hacc⟩ := dbgacc_answers s x
    refine ⟨fun hoff => ?_, tap_resets s, hscan, hbypass, fun hon => (tap_updates_dr s d hon).1, fun hon => (tap_updates_dr s d hon).2.1,
      fun hon => (tap_updates_dr s d hon).2.2, hfires, hquiet, hnone, hres, hacc⟩
    have hoff' : s.power.mode = .off := not_not.mp hoff
    exact ⟨congrArg (fun a => (.next a : Out)) (inRindOn_off hoff'), congrArg (fun a => (.next a : Out)) (inRindOn_off hoff'),
      congrArg (fun a => (.next a : Out)) (inRindOn_off hoff')⟩

end Sys2Proof.Machine
end

section
/-! Root ports: start and stop, invalidation, containment, and the completions of what waits below (16 R404, R407, R413 to R417). -/

namespace Sys2Proof.Machine
-- One declaration after another: each `decide +kernel` waits for the kernel's turn, and many at once would hold a thread each.
set_option Elab.async false

variable {s t u : State} {w : Writer} {v : Word32}

/-! ### Sub-ports (R404, R413) -/

theorem subOf_setSub (j k : Nat) (x : SubPort) (s : State) : subOf (setSub j x s) k = if k = j then x else subOf s k := smGet_smPut ..
theorem subOf_updSub (j k : Nat) (f : SubPort → SubPort) (s : State) : subOf (updSub j f s) k = if k = j then f (subOf s j) else subOf s k :=
  subOf_setSub ..
theorem subEvent_eq (j e : Nat) (s : State) : ∃ i, subEvent j e s = { s with intc := i } := pulse_eq _

/-- `t` is `s` but for the root ports and the sources they raise. -/
def PortsOnly (s t : State) : Prop := ∃ i p, t = { s with intc := i, pcie := p }
namespace PortsOnly
theorem refl : PortsOnly s s := ⟨_, _, rfl⟩
theorem trans (h : PortsOnly s t) (h' : PortsOnly t u) : PortsOnly s u := by
  obtain ⟨_, _, rfl⟩ := h
  obtain ⟨_, _, rfl⟩ := h'
  exact ⟨_, _, rfl⟩
theorem bytes (h : PortsOnly s t) : SameBytes s t := by
  obtain ⟨_, _, rfl⟩ := h
  exact fun _ => rfl
theorem cores (h : PortsOnly s t) : t.cores = s.cores := by
  obtain ⟨_, _, rfl⟩ := h
  rfl
theorem subExists_eq (h : PortsOnly s t) (j : Nat) : subExists t j = subExists s j := by
  obtain ⟨_, _, rfl⟩ := h
  rfl
end PortsOnly

/-- The sub-ports of a port exist. -/
theorem subExists_of_mem {n j : Nat} (h : j ∈ subsOf s n) : subExists s j = true := by
  unfold subsOf at h
  obtain ⟨k, hk, rfl⟩ := List.mem_map.mp h
  have hk4 : ∀ code, k ∈ bifSubs code → k < 4 := by
    intro code
    unfold bifSubs
    split <;> simp <;> omega
  have hlt := hk4 _ hk
  unfold subExists
  rw [show (4 * n + k) / 4 = n by omega, show (4 * n + k) % 4 = k by omega]
  exact List.elem_eq_true_of_mem hk

/-! ### Start and stop (R404) -/

theorem pcie_subEvent (j e : Nat) (s : State) : (subEvent j e s).pcie = s.pcie := by
  obtain ⟨i, hi⟩ := subEvent_eq j e s
  rw [hi]
theorem portsOnly_subEvent (j e : Nat) (s : State) : PortsOnly s (subEvent j e s) := by
  obtain ⟨i, hi⟩ := subEvent_eq j e s
  exact ⟨i, _, hi⟩

/-- The link of one sub-port of a port that starts. -/
def trainSub (a : State) (j : Nat) : State :=
  let b := updSub j (fun x => { x with dpc := false, linkUp := x.present }) a
  if (subOf b j).linkUp then subEvent j evHotplug b else b
theorem trainSub_spec (a : State) (j : Nat) : PortsOnly a (trainSub a j) ∧ (trainSub a j).pcie.running = a.pcie.running ∧
    ∀ k, subOf (trainSub a j) k = if k = j then { subOf a k with dpc := false, linkUp := (subOf a k).present } else subOf a k := by
  have hsub (k : Nat) : subOf (updSub j (fun x => { x with dpc := false, linkUp := x.present }) a) k =
      if k = j then { subOf a k with dpc := false, linkUp := (subOf a k).present } else subOf a k := by
    rw [subOf_updSub]
    split
    · next h => rw [h]
    · rfl
  unfold trainSub
  dsimp only
  split
  · refine ⟨.trans (t := updSub j _ a) ⟨_, _, rfl⟩ (portsOnly_subEvent ..), by rw [pcie_subEvent]; rfl, fun k => ?_⟩
    rw [subOf, pcie_subEvent]
    exact hsub k
  · exact ⟨⟨_, _, rfl⟩, rfl, hsub⟩
theorem trained (l : List Nat) (a : State) : PortsOnly a (l.foldl trainSub a) ∧ (l.foldl trainSub a).pcie.running = a.pcie.running ∧
    ∀ k, subOf (l.foldl trainSub a) k = if k ∈ l then { subOf a k with dpc := false, linkUp := (subOf a k).present } else subOf a k := by
  induction l generalizing a with
  | nil => exact ⟨.refl, rfl, fun k => rfl⟩
  | cons j l ih =>
    obtain ⟨hframe, hrun, hsub⟩ := trainSub_spec a j
    obtain ⟨hframe', hrun', hsub'⟩ := ih (trainSub a j)
    refine ⟨hframe.trans hframe', hrun'.trans hrun, fun k => (hsub' k).trans ?_⟩
    rw [hsub]
    by_cases hk : k = j <;> by_cases hl : k ∈ l <;> simp [hk, hl]

theorem peRunning_set (r : BitVec 3) {n : Nat} (hn : n < 3) (k : Nat) : (r ||| BitVec.ofNat 3 (2 ^ n)).getLsbD k = (decide (k = n) || r.getLsbD k) := by
  rw [BitVec.getLsbD_or, BitVec.getLsbD_ofNat, Nat.testBit_two_pow, Bool.or_comm]
  congr 1
  by_cases hk : k = n
  · simp [hk, hn]
  · simp [hk, Ne.symm hk]
theorem peRunning_clear (r : BitVec 3) {n : Nat} (hn : n < 3) : (r &&& ~~~(BitVec.ofNat 3 (2 ^ n))).getLsbD n = false := by
  rw [BitVec.getLsbD_and, BitVec.getLsbD_not, BitVec.getLsbD_ofNat, Nat.testBit_two_pow]
  simp [hn]

/-! ### Containment (R414) -/

theorem dpcTrigger_spec {j : Nat} (surprise : Bool) (h : subExists s j = true) : PortsOnly s (dpcTrigger j surprise s) ∧
    (dpcTrigger j surprise s).pcie.running = s.pcie.running ∧ (dpcTrigger j surprise s).pcie.ctxs = s.pcie.ctxs ∧
    (∀ k, subOf (dpcTrigger j surprise s) k = if k = j then
      { subOf s j with linkUp := false, dpc := true, present := (subOf s j).present && !surprise, prgOut := [] } else subOf s k) ∧
    (dpcTrigger j surprise s).pcie.invs = s.pcie.invs.map fun x =>
      { x with waiting := x.waiting.filter fun r => !((s.pcie.ctxs.filter fun c => c.sub == j).map (·.rid)).contains r } := by
  unfold dpcTrigger
  rw [h]
  extract_lets below s1 _ s2 s3
  have h2 : PortsOnly s s2 := ⟨_, _, rfl⟩
  have h3 : PortsOnly s2 s3 := portsOnly_subEvent ..
  have hsub (k : Nat) : subOf s2 k = if k = j then
      { subOf s j with linkUp := false, dpc := true, present := (subOf s j).present && !surprise, prgOut := [] } else subOf s k :=
    subOf_updSub j k (fun x => { x with linkUp := false, dpc := true, present := x.present && !surprise, prgOut := [] }) s
  have hp3 : s3.pcie = s2.pcie := pcie_subEvent ..
  rw [Bool.not_true, if_neg Bool.false_ne_true]
  have hp : (if (surprise || (subOf s j).linkUp) = true then subEvent j evHotplug s3 else s3).pcie = s2.pcie := by
    split
    · rw [pcie_subEvent, hp3]
    · exact hp3
  refine ⟨(h2.trans h3).trans ?_, by rw [hp]; rfl, by rw [hp]; rfl, fun k => ?_, by rw [hp]; rfl⟩
  · split
    · exact portsOnly_subEvent ..
    · exact .refl
  · rw [subOf, hp]
    exact hsub k

/-- A contained sub-port. -/
def Contained (x : SubPort) : Prop := x.linkUp = false ∧ x.dpc = true ∧ x.prgOut = []
theorem contained_all (l : List Nat) (a : State) (hl : ∀ j ∈ l, subExists a j = true) :
    PortsOnly a (l.foldl (fun b j => dpcTrigger j false b) a) ∧ (l.foldl (fun b j => dpcTrigger j false b) a).pcie.running = a.pcie.running ∧
    ∀ j, (j ∈ l ∨ Contained (subOf a j)) → Contained (subOf (l.foldl (fun b j => dpcTrigger j false b) a) j) := by
  induction l generalizing a with
  | nil => exact ⟨.refl, rfl, fun j hj => hj.elim (fun h => nomatch h) id⟩
  | cons i l ih =>
    obtain ⟨hframe, hrun, -, hsub, -⟩ := dpcTrigger_spec false (hl i (List.mem_cons_self ..))
    obtain ⟨hframe', hrun', hsub'⟩ := ih (dpcTrigger i false a) fun j hj => (hframe.subExists_eq j).trans (hl j (List.mem_cons_of_mem _ hj))
    refine ⟨hframe.trans hframe', hrun'.trans hrun, fun j hj => hsub' j ?_⟩
    rw [hsub]
    by_cases hji : j = i
    · exact .inr (by rw [if_pos hji]; exact ⟨rfl, rfl, rfl⟩)
    · rw [if_neg hji]
      exact hj.imp (fun h => (List.mem_cons.mp h).resolve_left hji) id
theorem finishLost_none (h : ∀ e ∈ s.cores, e.2.mmioWait = false) : finishLost s = s := by
  refine if_neg ?_
  rw [List.any_eq_true]
  rintro ⟨e, he, hw⟩
  rw [h e he] at hw
  cases hw

theorem contains_subport (s : State) (j : Fin 12) (surprise : Bool) (hfree : ∀ e ∈ s.cores, e.2.mmioWait = false) (hex : subExists s j.val = true) :
    Completes (.dpcTrigger j surprise) s fun t =>
      subOf t j.val = { subOf s j.val with linkUp := false, dpc := true, present := (subOf s j.val).present && !surprise, prgOut := [] } ∧
      (∀ k, k ≠ j.val → subOf t k = subOf s k) ∧ t.cores = s.cores ∧ SameBytes s t := by
  obtain ⟨hframe, -, -, hsub, -⟩ := dpcTrigger_spec surprise hex
  have hexec : exec (.dpcTrigger j surprise) s = .next (finishLost (dpcTrigger j.val surprise s)) := rfl
  refine ⟨_, hexec, ?_⟩
  rw [finishLost_none (by rw [hframe.cores]; exact hfree)]
  exact ⟨(hsub _).trans (if_pos rfl), fun k hk => (hsub k).trans (if_neg hk), hframe.cores, hframe.bytes⟩

theorem hot_added (s : State) (j : Fin 12) (hex : subExists s j.val = true) (hedge : isLevel s (96 + 4 * j.val) = false)
    (hlow : lineHigh s (96 + 4 * j.val) = false) : Completes (.hotAdd j) s fun t =>
      subOf t j.val = { subOf s j.val with present := true, linkUp := peRunning s (j.val / 4) && !(subOf s j.val).dpc } ∧
      smGet boolDef t.intc.pend (96 + 4 * j.val) = true ∧ (∀ k, k ≠ j.val → subOf t k = subOf s k) ∧ SameBytes s t := by
  have hadd : hotAdd j.val s = subEvent j.val evHotplug (updSub j.val (fun x => { x with present := true, linkUp := peRunning s (j.val / 4) && !x.dpc }) s) := by
    unfold hotAdd
    rw [hex]
    rfl
  have hsub (k : Nat) := subOf_updSub j.val k (fun x => { x with present := true, linkUp := peRunning s (j.val / 4) && !x.dpc }) s
  refine ⟨_, congrArg (fun a => (.next a : Out)) hadd, ?_, ?_, fun k hk => ?_, ?_⟩
  · rw [subOf, pcie_subEvent]
    exact (hsub _).trans (if_pos rfl)
  · generalize hb : updSub j.val (fun x => { x with present := true, linkUp := peRunning s (j.val / 4) && !x.dpc }) s = b
    have hlevel : isLevel b (96 + 4 * j.val) = false := by rw [← hb]; exact hedge
    have hline : lineHigh b (96 + 4 * j.val) = false := by rw [← hb]; exact hlow
    show smGet boolDef (setLine (96 + 4 * j.val) false (setLine (96 + 4 * j.val) true b)).intc.pend (96 + 4 * j.val) = true
    have hup : setLine (96 + 4 * j.val) true b =
        { setPend (96 + 4 * j.val) true b with intc := { (setPend (96 + 4 * j.val) true b).intc with
          lines := smPut boolDef (setPend (96 + 4 * j.val) true b).intc.lines (96 + 4 * j.val) true } } := by
      unfold setLine
      rw [hline, hlevel]
      rfl
    rw [hup]
    exact smGet_smPut_same ..
  · rw [subOf, pcie_subEvent]
    exact (hsub k).trans (if_neg hk)
  · exact (PortsOnly.trans (t := updSub j.val _ s) ⟨_, _, rfl⟩ (portsOnly_subEvent ..)).bytes

/-! ### Commands of ports (R404, R418) -/

theorem findReg_pcie : findReg 0x4800004 = some ({ name := .pcieCmd, off := 0x4800004, acc := .wo, bits := 0xf0000003 }, []) ∧
    findReg 0x4800128 = some ({ name := .pcieIotuInv, off := 0x4800128, acc := .wo }, []) ∧
    findReg 0x4800130 = some ({ name := .pciePrgResp, off := 0x4800130, acc := .wo }, []) := by decide +kernel

theorem pcieCmd_port (op n : Nat) (hop : op = 1 ∨ op = 2) (hn : n < 4) : pcieCmd (BitVec.ofNat 32 (op * 2 ^ 28 + n)) s =
    if n = 3 then (3, s) else (0, if op = 1 then peStart n s else peStop n s) := by
  have hcodes : ∀ o : Fin 2, ∀ m : Fin 4, fld (BitVec.ofNat 32 ((o.val + 1) * 2 ^ 28 + m.val)) 31 28 = o.val + 1 ∧
      fld (BitVec.ofNat 32 ((o.val + 1) * 2 ^ 28 + m.val)) 1 0 = m.val ∧ fld (BitVec.ofNat 32 ((o.val + 1) * 2 ^ 28 + m.val)) 27 2 = 0 := by
    decide
  obtain ⟨h1, h2, h3⟩ : fld (BitVec.ofNat 32 (op * 2 ^ 28 + n)) 31 28 = op ∧ fld (BitVec.ofNat 32 (op * 2 ^ 28 + n)) 1 0 = n ∧
      fld (BitVec.ofNat 32 (op * 2 ^ 28 + n)) 27 2 = 0 := by
    obtain rfl | rfl := hop
    · exact hcodes 0 ⟨n, hn⟩
    · exact hcodes 1 ⟨n, hn⟩
  unfold pcieCmd
  simp only [h1, h2, h3]
  by_cases h : n = 3
  · subst h
    obtain rfl | rfl := hop <;> rfl
  · rw [if_neg h]
    have hb : (n == 3) = false := by simpa using h
    obtain rfl | rfl := hop <;> rw [hb] <;> rfl

theorem port_starts (n : Fin 4) (hr : Reaches w 1 0 0x4800004 s) :
    (n.val < 3 → peRunning s n.val = false → Commands (.pciePortStart w n) w 0x4800004 (BitVec.ofNat 32 (2 ^ 28 + n.val)) s fun u =>
      peRunning u n.val = true ∧ (∀ k, k ≠ n.val → peRunning u k = peRunning s k) ∧
      (∀ j, subOf u j = if j ∈ subsOf s n.val then { subOf s j with dpc := false, linkUp := (subOf s j).present } else subOf s j) ∧ SameBytes s u) ∧
    (n.val = 3 → Refuses (.pciePortStart w n) s 3) := by
  have hword : opWord 1 (BitVec.ofNat 28 n.val) = BitVec.ofNat 32 (2 ^ 28 + n.val) := by fin_cases n <;> rfl
  have ho : Orders (.pciePortStart w n) w { name := .pcieCmd, off := 0x4800004, acc := .wo, bits := 0xf0000003 } [] 0x4800004
      (BitVec.ofNat 32 (2 ^ 28 + n.val)) s :=
    ⟨findReg_pcie.1, by rw [← hword]; rfl, rfl, rfl, by decide, hr⟩
  have hcmd : command mcmd w { name := .pcieCmd, off := 0x4800004, acc := .wo, bits := 0xf0000003 } [] 0x4800004 (BitVec.ofNat 32 (2 ^ 28 + n.val)) s =
      if n.val = 3 then (3, s) else (0, peStart n.val s) := by
    show pcieCmd _ s = _
    have h := pcieCmd_port (s := s) 1 n.val (.inl rfl) n.isLt
    rwa [one_mul] at h
  refine ⟨fun hn hstop => ?_, fun hn => ho.refuses (a := s) (hcmd.trans (if_pos hn)) rfl (by decide)⟩
  have hstart : peStart n.val s =
      (subsOf s n.val).foldl trainSub { s with pcie := { s.pcie with running := s.pcie.running ||| BitVec.ofNat 3 (2 ^ n.val) } } := by
    unfold peStart
    rw [hstop]
    rfl
  obtain ⟨hframe, hrun, hsub⟩ := trained (subsOf s n.val) { s with pcie := { s.pcie with running := s.pcie.running ||| BitVec.ofNat 3 (2 ^ n.val) } }
  refine ho.commands (u := peStart n.val s) (hcmd.trans (if_neg (by omega))) ?_
  rw [hstart]
  refine ⟨?_, fun k hk => ?_, hsub, hframe.bytes⟩
  · rw [peRunning, hrun, peRunning_set _ hn]
    simp
  · rw [peRunning, hrun, peRunning_set _ hn]
    simp [hk, peRunning]

theorem port_stops (n : Fin 4) (hr : Reaches w 1 0 0x4800004 s) (hfree : ∀ e ∈ s.cores, e.2.mmioWait = false) :
    (n.val < 3 → peRunning s n.val = true → Completes (.pciePortStop w n) s fun t => t.ans.status = 0 ∧ peRunning t n.val = false ∧
      ∀ j ∈ subsOf s n.val, (subOf t j).linkUp = false ∧ (subOf t j).dpc = true ∧ (subOf t j).prgOut = []) ∧
    (n.val = 3 → Refuses (.pciePortStop w n) s 3) := by
  have hword : opWord 2 (BitVec.ofNat 28 n.val) = BitVec.ofNat 32 (2 * 2 ^ 28 + n.val) := by fin_cases n <;> rfl
  have hexec : exec (.pciePortStop w n) s = .next (finishLost (sdc w 0x4800004 (BitVec.ofNat 32 (2 * 2 ^ 28 + n.val)) s)) := by
    rw [← hword]
    rfl
  -- the register write beneath the command
  have ho : Orders (.registerWrite w 0x4800004 (BitVec.ofNat 32 (2 * 2 ^ 28 + n.val))) w
      { name := .pcieCmd, off := 0x4800004, acc := .wo, bits := 0xf0000003 } [] 0x4800004 (BitVec.ofNat 32 (2 * 2 ^ 28 + n.val)) s :=
    ⟨findReg_pcie.1, rfl, rfl, rfl, by decide, hr⟩
  have hcmd : command mcmd w { name := .pcieCmd, off := 0x4800004, acc := .wo, bits := 0xf0000003 } [] 0x4800004
      (BitVec.ofNat 32 (2 * 2 ^ 28 + n.val)) s = if n.val = 3 then (3, s) else (0, peStop n.val s) := pcieCmd_port 2 n.val (.inr rfl) n.isLt
  refine ⟨fun hn hrunning => ?_, fun hn => ?_⟩
  · obtain ⟨hframe, hrun, hsub⟩ := contained_all (subsOf s n.val) s fun j hj => subExists_of_mem hj
    obtain ⟨t, ht, u, hu, hans, -, -, hsame⟩ := ho.commands (u := peStop n.val s) (E := fun u => u = peStop n.val s) (hcmd.trans (if_neg (by omega))) rfl
    have hwrite : sdc w 0x4800004 (BitVec.ofNat 32 (2 * 2 ^ 28 + n.val)) s = t := by
      injection ho.writes.symm.trans ht
    have hstop : peStop n.val s = (fun b : State => { b with pcie := { b.pcie with running := b.pcie.running &&& ~~~(BitVec.ofNat 3 (2 ^ n.val)) } })
        ((subsOf s n.val).foldl (fun b j => dpcTrigger j false b) s) := if_pos hrunning
    have hcores : t.cores = s.cores := by
      rw [show t.cores = u.cores from congrArg (·.cores) hsame, hu, hstop]
      exact hframe.cores
    have hpcie : t.pcie = u.pcie := congrArg (·.pcie) hsame
    rw [hwrite, finishLost_none (by rw [hcores]; exact hfree)] at hexec
    refine ⟨t, hexec, by rw [hans], ?_, fun j hj => ?_⟩
    · rw [peRunning, hpcie, hu, hstop]
      exact peRunning_clear _ hn
    · have h := hsub j (.inl hj)
      rw [subOf, hpcie, hu, hstop]
      exact h
  · obtain ⟨t, ht, hans, hsame⟩ := ho.refuses (a := s) (st := 3) (hcmd.trans (if_pos hn)) rfl (by decide)
    have hwrite : sdc w 0x4800004 (BitVec.ofNat 32 (2 * 2 ^ 28 + n.val)) s = t := by
      injection ho.writes.symm.trans ht
    have hcores : t.cores = s.cores := congrArg (·.cores) hsame
    rw [hwrite, finishLost_none (by rw [hcores]; exact hfree)] at hexec
    exact ⟨t, hexec, hans, hsame⟩

/-! ### Invalidation (R416) -/

/-- Lists of which some entries go: a list left empty is no longer listed. -/
theorem smGet_shed {α : Type} [DecidableEq α] {d : Nat → List α} (hd : ∀ k, d k = []) (f : List α → List α) (hf : f [] = []) {m : SMap (List α)}
    (h : smSorted m = true) (k : Nat) : smGet d ((m.map fun e => (e.1, f e.2)).filter fun e => decide (e.2 ≠ [])) k = f (smGet d m k) := by
  induction m with
  | nil => simp [smGet, hd, hf]
  | cons e m ih =>
    obtain ⟨j, x⟩ := e
    have htail := ih (smSorted_tail h)
    rw [List.map_cons, List.filter_cons]
    by_cases hj : j = k
    · subst hj
      have hnone : smGet d m j = d j := smGet_of_lt d (smSorted_head_lt h)
      rw [hnone, hd, hf] at htail
      by_cases hx : f x = []
      · rw [if_neg (by simpa using hx), htail]
        simp [smGet, hx]
      · rw [if_pos (by simpa using hx)]
        simp [smGet]
    · have hget : smGet d ((j, x) :: m) k = smGet d m k := by simp [smGet, hj]
      rw [hget, ← htail]
      split
      · simp [smGet, hj]
      · rfl

/-- What an invalidation asks for and leaves. -/
structure Invalidated (w : Writer) (kind id : Nat) (cover : DevCtx → Bool) (keep : IoSlot → Bool) (s u : State) : Prop where
  slots : ∀ n, ioslots u n = (ioslots s n).filter keep
  invs : u.pcie.invs = s.pcie.invs ++ [{ by_ := writerKey w, waiting := (s.pcie.ctxs.filter fun c => cover c && c.ats && subLive s c.sub).map (·.rid) }]
  issued : invIssued u (writerKey w) = invIssued s (writerKey w) + 1
  sent : u.pcie.sent = s.pcie.sent ++ ((s.pcie.ctxs.filter fun c => cover c && c.ats && subLive s c.sub).map (·.rid)).map PcieOut.atsInv
  ctxs : u.pcie.ctxs = if kind = 4 then s.pcie.ctxs.filter fun c => c.rid != id else s.pcie.ctxs
  frame : { u with pcie := s.pcie } = s

/-- The root ports after an invalidation has been issued. -/
def invalidated (w : Writer) (kind id : Nat) (s : State) : State :=
  let k := writerKey w
  let iova := fld (bankReg s 0x4800120 k) 31 12 * 4096 + (bankReg s 0x4800124 k).toNat * 2 ^ 32
  let ask := (s.pcie.ctxs.filter fun c => invCovers kind id c && c.ats && subLive s c.sub).map (·.rid)
  { s with pcie := { s.pcie with
    iotlb := (s.pcie.iotlb.map fun e => (e.1, invSlots kind id iova e.2)).filter (fun e => decide (e.2 ≠ []))
    ioptr := (s.pcie.ioptr.map fun e => (e.1, invPtrs kind id e.2)).filter (fun e => decide (e.2 ≠ []))
    ctxs := if kind = 4 then s.pcie.ctxs.filter fun c => c.rid != id else s.pcie.ctxs
    invs := s.pcie.invs ++ [{ by_ := k, waiting := ask }]
    issued := smPut bv0 s.pcie.issued k (invIssued s k + 1)
    sent := s.pcie.sent ++ ask.map PcieOut.atsInv } }

theorem fld_inv {kind : Nat} (hk : kind < 5) (id : BitVec 16) : fld (BitVec.ofNat 32 (kind * 2 ^ 28 + id.toNat)) 31 28 = kind ∧
    fld (BitVec.ofNat 32 (kind * 2 ^ 28 + id.toNat)) 15 0 = id.toNat ∧ fld (BitVec.ofNat 32 (kind * 2 ^ 28 + id.toNat)) 27 16 = 0 := by
  have hid := id.isLt
  have hnat : (BitVec.ofNat 32 (kind * 2 ^ 28 + id.toNat)).toNat = kind * 2 ^ 28 + id.toNat := by
    rw [BitVec.toNat_ofNat, Nat.mod_eq_of_lt (by omega)]
  simp only [fld, natBits, hnat]
  norm_num
  omega

theorem pcieInv_eq {kind : Nat} (hk : 1 ≤ kind ∧ kind < 5) (id : BitVec 16) (hid : kind = 3 → id = 0)
    (hfree : (s.pcie.invs.filter fun x => x.by_ == writerKey w).length < 16) :
    pcieInv w (BitVec.ofNat 32 (kind * 2 ^ 28 + id.toNat)) s = (0, invalidated w kind id.toNat s) := by
  obtain ⟨h1, h2, h3⟩ := fld_inv hk.2 id
  have hcode : firstCode (codeIf (0 != 0 || kind == 0 || decide (4 < kind)) stRsvd ++ codeIf (kind == 3 && id.toNat != 0) stRange ++
      codeIf (decide (16 ≤ (s.pcie.invs.filter fun x => x.by_ == writerKey w).length)) stBusy) = 0 := by
    rw [decide_eq_false (by omega : ¬16 ≤ _)]
    have h0 : (kind == 0) = false := by simp; omega
    have h4 : decide (4 < kind) = false := by simp; omega
    have h30 : (kind == 3 && id.toNat != 0) = false := by
      by_cases h : kind = 3
      · rw [hid h]
        simp
      · simp [h]
    rw [h0, h4, h30]
    rfl
  unfold pcieInv
  simp only [h1, h2, h3, hcode]
  rfl

theorem invalidates {i : Instr} {kind : Nat} (hk : 1 ≤ kind ∧ kind < 5) (id : BitVec 16) (hid : kind = 3 → id = 0)
    (hexec : exec i s = .next (sdc w 0x4800128 (opWord kind (id.setWidth 28)) s)) (hr : Reaches w 1 0 0x4800128 s)
    (hfree : (s.pcie.invs.filter fun x => x.by_ == writerKey w).length < 16) (hwf : smWf ioslotsDef s.pcie.iotlb = true)
    (cover : DevCtx → Bool) (hcover : cover = invCovers kind id.toNat) (keep : IoSlot → Bool)
    (hkeep : invSlots kind id.toNat (fld (bankReg s 0x4800120 (writerKey w)) 31 12 * 4096 + (bankReg s 0x4800124 (writerKey w)).toNat * 2 ^ 32) =
      List.filter keep) :
    Commands i w 0x4800128 (BitVec.ofNat 32 (kind * 2 ^ 28 + id.toNat)) s (Invalidated w kind id.toNat cover keep s) := by
  have hword : opWord kind (id.setWidth 28) = BitVec.ofNat 32 (kind * 2 ^ 28 + id.toNat) := by
    have := id.isLt
    unfold opWord
    rw [BitVec.toNat_setWidth, Nat.mod_eq_of_lt (by omega)]
  have ho : Orders i w { name := .pcieIotuInv, off := 0x4800128, acc := .wo } [] 0x4800128 (BitVec.ofNat 32 (kind * 2 ^ 28 + id.toNat)) s :=
    ⟨findReg_pcie.2.1, by rw [← hword]; exact hexec, rfl, rfl, by decide, hr⟩
  refine ho.commands (u := invalidated w kind id.toNat s) (pcieInv_eq hk id hid hfree) ?_
  subst hcover
  refine ⟨fun n => ?_, rfl, smGet_smPut_same .., rfl, rfl, rfl⟩
  have hsorted : smSorted s.pcie.iotlb = true := by
    unfold smWf at hwf
    exact (Bool.and_eq_true_iff.mp hwf).1
  rw [← hkeep]
  exact smGet_shed (d := ioslotsDef) (fun _ => rfl) (invSlots kind id.toNat _) (by rw [hkeep]; rfl) hsorted n
theorem invalidation_refused {i : Instr} {kind : Nat} (hk : 1 ≤ kind ∧ kind < 5) (id : BitVec 16)
    (hexec : exec i s = .next (sdc w 0x4800128 (opWord kind (id.setWidth 28)) s)) (hr : Reaches w 1 0 0x4800128 s) {st : Nat}
    (hst : st = (if kind = 3 ∧ id ≠ 0 then 3 else if 16 ≤ (s.pcie.invs.filter fun x => x.by_ == writerKey w).length then 7 else 0)) (hne : st ≠ 0) :
    Refuses i s st := by
  have hword : opWord kind (id.setWidth 28) = BitVec.ofNat 32 (kind * 2 ^ 28 + id.toNat) := by
    have := id.isLt
    unfold opWord
    rw [BitVec.toNat_setWidth, Nat.mod_eq_of_lt (by omega)]
  have ho : Orders i w { name := .pcieIotuInv, off := 0x4800128, acc := .wo } [] 0x4800128 (BitVec.ofNat 32 (kind * 2 ^ 28 + id.toNat)) s :=
    ⟨findReg_pcie.2.1, by rw [← hword]; exact hexec, rfl, rfl, by decide, hr⟩
  obtain ⟨h1, h2, h3⟩ := fld_inv hk.2 id
  have h0 : (kind == 0) = false := by simp; omega
  have h4 : decide (4 < kind) = false := by simp; omega
  have hid : (kind == 3 && id.toNat != 0) = decide (kind = 3 ∧ id ≠ 0) := by
    have hz : (id.toNat != 0) = decide (id ≠ 0) := by
      by_cases h : id = 0
      · simp [h]
      · have : id.toNat ≠ 0 := fun h' => h (BitVec.eq_of_toNat_eq h')
        rw [decide_eq_true h]
        simpa using this
    rw [hz]
    by_cases h : kind = 3 <;> simp [h]
  have hcode : firstCode (codeIf (0 != 0 || kind == 0 || decide (4 < kind)) stRsvd ++ codeIf (kind == 3 && id.toNat != 0) stRange ++
      codeIf (decide (16 ≤ (s.pcie.invs.filter fun x => x.by_ == writerKey w).length)) stBusy) = st := by
    rw [h0, h4, hid, hst]
    by_cases hc : kind = 3 ∧ id ≠ 0
    · rw [decide_eq_true hc, if_pos hc]
      cases decide (16 ≤ (s.pcie.invs.filter fun x => x.by_ == writerKey w).length) <;> rfl
    · rw [decide_eq_false hc, if_neg hc]
      by_cases hfull : 16 ≤ (s.pcie.invs.filter fun x => x.by_ == writerKey w).length
      · rw [decide_eq_true hfull, if_pos hfull]
        rfl
      · rw [decide_eq_false hfull, if_neg hfull]
        rfl
  have hcmd : pcieInv w (BitVec.ofNat 32 (kind * 2 ^ 28 + id.toNat)) s = (st, s) := by
    unfold pcieInv
    simp only [h1, h2, h3, hcode]
  have h37 : st = 3 ∨ st = 7 := by
    by_cases hc : kind = 3 ∧ id ≠ 0
    · exact .inl (hst.trans (if_pos hc))
    · rw [if_neg hc] at hst
      by_cases hfull : 16 ≤ (s.pcie.invs.filter fun x => x.by_ == writerKey w).length
      · exact .inr (hst.trans (if_pos hfull))
      · exact absurd (hst.trans (if_neg hfull)) hne
  exact ho.refuses (a := s) (st := st) hcmd (by obtain h | h := h37 <;> rw [h] <;> rfl) (by obtain h | h := h37 <;> rw [h] <;> decide)

/-! ### The answers of endpoints (R416, R417) -/

theorem answers_invalidation (rid : BitVec 16) {x : IoInv} {rest : List IoInv} (h : s.pcie.invs = x :: rest) :
    (rid.toNat ∈ x.waiting → Completes (.invalidateCompletion rid) s fun t => t.pcie.invs = { x with waiting := x.waiting.erase rid.toNat } :: rest ∧
      { t with pcie := { t.pcie with invs := s.pcie.invs } } = s) ∧
    (x.waiting = [] → Completes .iotuInvalidationDone s fun t => t.pcie.invs = rest ∧ invDone t x.by_ = invDone s x.by_ + 1 ∧
      (∀ k, k ≠ x.by_ → invDone t k = invDone s k) ∧ { t with pcie := { t.pcie with invs := s.pcie.invs, done := s.pcie.done } } = s) ∧
    (x.waiting ≠ [] → exec .iotuInvalidationDone s = .next s) := by
  have hdone : exec .iotuInvalidationDone s = .next (if x.waiting.isEmpty then
      { s with pcie := { s.pcie with invs := rest, done := smPut bv0 s.pcie.done x.by_ (invDone s x.by_ + 1) } } else s) := by
    show (.next (invDoneNow s) : Out) = _
    unfold invDoneNow
    rw [h]
  refine ⟨fun hw => ⟨_, rfl, ?_, rfl⟩, fun hw => ?_, fun hw => ?_⟩
  · show dropWaiting rid.toNat s.pcie.invs = _
    rw [h, dropWaiting, if_pos (by simpa using hw)]
  · rw [hw, List.isEmpty_nil, if_pos rfl] at hdone
    exact ⟨_, hdone, rfl, smGet_smPut_same .., fun k hk => smGet_smPut_other _ _ _ hk, rfl⟩
  · rw [hdone, if_neg (by simpa using hw)]

/-- A letter for a fault queue that is off is counted, and nothing else. -/
theorem ioFault_off (hoff : (reg s 0x4800110).getLsbD 31 = false) (j rid tc : Nat) (f : IoFault) (access prgi iova : Nat) :
    ioFault j rid tc f access prgi iova s = bump 0x4800220 s := by
  unfold ioFault toFaultQueue
  exact if_neg (by show ¬(reg s 0x4800110).getLsbD 31 = true; rw [hoff]; decide)
theorem beside_bump (off : Nat) (s : State) : ∃ c, bump off s = { s with ctl := { s.ctl with counters := c } } := ⟨_, rfl⟩

theorem ats_times_out (s : State) (j : Fin 12) (rid : BitVec 16) {c : DevCtx} {rest : List DevCtx} (hfree : ∀ e ∈ s.cores, e.2.mmioWait = false)
    (hctx : s.pcie.ctxs = c :: rest) (hrid : c.rid = rid.toNat) (hsub : c.sub = j.val) (hex : subExists s j.val = true)
    (hoff : (reg s 0x4800110).getLsbD 31 = false) :
    ((∃ x ∈ s.pcie.invs, rid.toNat ∈ x.waiting) → Completes (.atsInvalidationTimeout rid) s fun t => (subOf t j.val).dpc = true ∧
      (subOf t j.val).linkUp = false ∧ (∀ x ∈ t.pcie.invs, rid.toNat ∉ x.waiting) ∧ SameBytes s t) ∧
    ((∀ x ∈ s.pcie.invs, rid.toNat ∉ x.waiting) → exec (.atsInvalidationTimeout rid) s = .next s) := by
  have hexec : exec (.atsInvalidationTimeout rid) s = .next (finishLost (atsLate rid.toNat s)) := rfl
  have hany : (s.pcie.invs.any fun x => x.waiting.contains rid.toNat) = true ↔ ∃ x ∈ s.pcie.invs, rid.toNat ∈ x.waiting := by simp
  refine ⟨fun hsome => ?_, fun hnone => ?_⟩
  · have hlate : atsLate rid.toNat s = ioFault c.sub rid.toNat c.tc { kind := 5 } 0 0 0 (dpcTrigger c.sub false s) := by
      unfold atsLate
      rw [if_pos (hany.mpr hsome), hctx, List.find?_cons_of_pos (by simpa using hrid)]
    obtain ⟨hframe, -, -, hsubs, hinvs⟩ := dpcTrigger_spec false hex
    have hoff' : (reg (dpcTrigger j.val false s) 0x4800110).getLsbD 31 = false := by
      obtain ⟨i, p, hp⟩ := hframe
      rw [hp]
      exact hoff
    rw [hsub, ioFault_off hoff'] at hlate
    rw [hlate, finishLost_none (by obtain ⟨c', hc⟩ := beside_bump 0x4800220 (dpcTrigger j.val false s); rw [hc]; rw [hframe.cores]; exact hfree)] at hexec
    obtain ⟨c', hc⟩ := beside_bump 0x4800220 (dpcTrigger j.val false s)
    rw [hc] at hexec
    refine ⟨_, hexec, ?_, ?_, fun x hx => ?_, fun a => hframe.bytes a⟩
    · show (subOf (dpcTrigger j.val false s) j.val).dpc = true
      rw [hsubs, if_pos rfl]
    · show (subOf (dpcTrigger j.val false s) j.val).linkUp = false
      rw [hsubs, if_pos rfl]
    · have hx' : x ∈ (dpcTrigger j.val false s).pcie.invs := hx
      rw [hinvs] at hx'
      obtain ⟨y, -, rfl⟩ := List.mem_map.mp hx'
      have hbelow : rid.toNat ∈ (s.pcie.ctxs.filter fun c => c.sub == j.val).map (·.rid) :=
        List.mem_map.mpr ⟨c, List.mem_filter.mpr ⟨by rw [hctx]; exact List.mem_cons_self .., by simpa using hsub⟩, hrid⟩
      simp only [List.mem_filter, not_and, Bool.not_eq_true', Bool.not_eq_false]
      exact fun _ => List.elem_eq_true_of_mem hbelow
  · have hlate : atsLate rid.toNat s = s := by
      refine if_neg ?_
      rw [hany]
      rintro ⟨x, hx, hr⟩
      exact hnone x hx hr
    have hlost : finishLost s = s := finishLost_none hfree
    rw [hexec, hlate, hlost]

/-! ### What a core waits for (R407) -/

theorem extendLoad_whole (n : Nat) : extendLoad (bytesOfNat n 8) 8 false = BitVec.ofNat 64 n := by
  have hmod : bytesOfNat n 8 = bytesOfNat (n % 2 ^ 64) 8 := by
    refine List.ext_getElem (by simp only [length_bytesOfNat]) fun i hi _ => ?_
    rw [length_bytesOfNat] at hi
    rw [getElem_bytesOfNat, getElem_bytesOfNat]
    apply BitVec.eq_of_toNat_eq
    simp only [BitVec.toNat_ofNat]
    interval_cases i <;> norm_num <;> omega
  rw [extendLoad, List.take_of_length_le (by rw [length_bytesOfNat]), hmod, natOfBytes_bytesOfNat _ _ (show n % 2 ^ 64 < 256 ^ 8 from Nat.mod_lt _ (by decide)),
    if_neg (fun h => nomatch h.1)]
  apply BitVec.eq_of_toNat_eq
  simp

/-- Core `c` with the value of the one load its group `g` waited for, the group holding nothing more. -/
def broughtCore (c : Core) (g : Group) (sh : Nat) (rt : GReg) (v : Word64) : Core :=
  { c with mmioWait := false, shadows := [{ left := sh, dest := .gen rt, value := .word v }], group := some { g with held := [] } }

/-- The completion of the one load that a closed group waits for: the group commits, the load's register written. -/
theorem finishMmio_one {lc : LC} {g : Group} {a : Access} {sh : Nat} {rt : GReg} {c : Core} {s2 : State} (n : Nat) (hc : coreOf s2 lc.val = c)
    (hwait : c.mmioWait = true) (hg : c.group = some g) (hclosed : g.closed = true) (hrs : g.rsOps = []) (hitts : g.itts = [])
    (hheld : g.held = [.load 0 a 8 false]) (hsh : c.shadows = [{ left := sh, dest := .gen rt, value := .deferred 0 }])
    (hcount : (csr c.regs 0x522).getLsbD 0 = true) (hun : Unarmed c) :
    (coreOf (finishMmio lc n s2) lc.val).group = none ∧ (coreOf (finishMmio lc n s2) lc.val).mmioWait = false ∧
    (coreOf (finishMmio lc n s2) lc.val).pc = c.pc ∧
    (∀ i, readG (coreOf (finishMmio lc n s2) lc.val).regs i = if i = rt ∧ rt ≠ 0 then BitVec.ofNat 64 n else readG c.regs i) ∧
    (∀ m, m ≠ lc.val → coreOf (finishMmio lc n s2) m = coreOf s2 m) ∧ SameBytes s2 (finishMmio lc n s2) := by
  have hgive : giveHeld n g.held = ([(0, some (.word (BitVec.ofNat 64 n)))], []) := by
    rw [hheld, giveHeld, extendLoad_whole]
  have hresolve : c.shadows.filterMap (resolve [(0, some (.word (BitVec.ofNat 64 n)))]) =
      [{ left := sh, dest := .gen rt, value := .word (BitVec.ofNat 64 n) }] := by
    rw [hsh]
    rfl
  have hfin : finishMmio lc n s2 = (performHeld lc [] (setCore s2 lc.val (broughtCore c g sh rt (BitVec.ofNat 64 n)))).2 := by
    simp only [finishMmio, hc, hwait, hg, hgive, hresolve]
    rfl
  have hperform : performHeld lc [] (setCore s2 lc.val (broughtCore c g sh rt (BitVec.ofNat 64 n))) =
      (true, finishCommit lc.val { g with held := [] }
        (setCore (setCore s2 lc.val (broughtCore c g sh rt (BitVec.ofNat 64 n))) lc.val (broughtCore c g sh rt (BitVec.ofNat 64 n)))) := by
    simp only [performHeld, heldPass, releaseAll, List.foldl_nil, Bool.false_eq_true, if_false, updCore, coreOf_setCore_same]
    rfl
  have hcommit := finishCommit_plain (lc := lc) (g := { g with held := [] })
    (t := setCore (setCore s2 lc.val (broughtCore c g sh rt (BitVec.ofNat 64 n))) lc.val (broughtCore c g sh rt (BitVec.ofNat 64 n)))
    (c := broughtCore c g sh rt (BitVec.ofNat 64 n)) hclosed hrs hitts hcount hun (coreOf_setCore_same ..)
  rw [hfin, hperform, hcommit]
  simp only [coreOf_setCore_same]
  refine ⟨rfl, rfl, rfl, fun i => ?_, fun m hm => by simp only [coreOf_setCore_other _ _ hm], fun _ => rfl⟩
  rw [regs_committed_one _ sh rt (BitVec.ofNat 64 n) rfl, readG_writeG]
  rfl

theorem logAer_eq (s : State) (pa : Nat) : ∃ i, logAer s pa = { s with intc := i } := by
  unfold logAer
  split
  · split
    · split
      · exact subEvent_eq ..
      · exact ⟨_, rfl⟩
    · exact ⟨_, rfl⟩
  · exact ⟨_, rfl⟩

/-- Settles O50: ports by induction over their sub-ports, an invalidation by what it removes, a completion by the commit it lets go on. -/
theorem rootPortsInvalidateAndContain : Obligations.RootPortsInvalidateAndContain := by
  refine ⟨fun s w n hr => ?ports, fun s w id hr hwf => ?inv, fun s rid x rest h => answers_invalidation rid h, fun s j surprise => ?subs,
    fun s lc g a sh rt v u r => ?loads⟩
  case ports =>
    exact ⟨(port_starts n hr).1, fun hn hrun hfree => (port_stops n hr hfree).1 hn hrun,
      fun hn => ⟨(port_starts n hr).2 hn, fun hfree => (port_stops n hr hfree).2 hn⟩⟩
  case inv =>
    intro k iova free does
    have hall {i : Instr} {kind : Nat} {cover : DevCtx → Bool} {keep : IoSlot → Bool}
        (h : Commands i w 0x4800128 (BitVec.ofNat 32 (kind * 2 ^ 28 + id.toNat)) s (Invalidated w kind id.toNat cover keep s)) : does i kind cover keep := by
      obtain ⟨t, ht, u, ⟨h1, h2, h3, h4, h5, h6⟩, hacc⟩ := h
      exact ⟨t, ht, u, ⟨h1, h2, h3, h4, h5, h6⟩, hacc⟩
    refine ⟨fun hfree => ⟨hall (invalidates (by decide) id (fun h => absurd h (by decide)) rfl hr hfree hwf _ rfl _ rfl),
        hall (invalidates (by decide) id (fun h => absurd h (by decide)) rfl hr hfree hwf _ rfl _ rfl), fun hid =>
        hall (invalidates (by decide) id (fun _ => hid) rfl hr hfree hwf _ rfl _ (funext fun l => (List.filter_false l).symm)),
        hall (invalidates (by decide) id (fun h => absurd h (by decide)) rfl hr hfree hwf _ rfl _ (funext fun l => (List.filter_true l).symm))⟩,
      fun hid => invalidation_refused (kind := 3) (by decide) id rfl hr (by rw [if_pos ⟨rfl, hid⟩]) (by decide), fun hfull => ?_⟩
    have hfull' : 16 ≤ (s.pcie.invs.filter fun x => x.by_ == writerKey w).length := not_lt.mp hfull
    exact ⟨invalidation_refused (kind := 1) (by decide) id rfl hr (by rw [if_neg (fun h => absurd h.1 (by decide)), if_pos hfull']) (by decide),
      invalidation_refused (kind := 4) (by decide) id rfl hr (by rw [if_neg (fun h => absurd h.1 (by decide)), if_pos hfull']) (by decide)⟩
  case subs =>
    refine ⟨fun hno => ?_, hot_added s j, fun hfree => ⟨contains_subport s j surprise hfree, fun rid c rest hctx hrid hsub hex hoff =>
      ats_times_out s j rid hfree hctx hrid hsub hex hoff⟩⟩
    have hexec : exec (.hotAdd j) s = .next (hotAdd j.val s) := rfl
    rw [hexec, hotAdd, hno]
    rfl
  case loads =>
    intro c
    refine ⟨fun hno => ?_, fun hwait hg hclosed hrs hitts _ hheld hsh hcount h1 h2 h3 h4 => ?_⟩
    · have hnone : mmioAccess (coreOf s lc.val) = none := by
        have hno' : (coreOf s lc.val).mmioWait = false := hno
        rw [mmioAccess, hno']
      have hexec : exec (.mmioCompletion lc v u r) s = .next (match mmioAccess (coreOf s lc.val) with
        | some a =>
          let x := completionValue a v (u || lostLoad s lc) r s
          finishMmio lc x.1 x.2
        | none => s) := rfl
      have hexec' : exec (.completionTimeout lc) s = .next (match mmioAccess (coreOf s lc.val) with
        | some a => finishMmio lc allOnes512 (logAer s a.pa)
        | none => s) := rfl
      rw [hexec, hexec', hnone]
      exact ⟨rfl, rfl⟩
    · intro ends
      have hacc : mmioAccess (coreOf s lc.val) = some a := by
        have hwait' : (coreOf s lc.val).mmioWait = true := hwait
        have hg' : (coreOf s lc.val).group = some g := hg
        rw [mmioAccess, hwait', hg']
        show g.held.findSome? waitsFor = some a
        rw [hheld]
        rfl
      have hends (n : Nat) (s2 : State) (hs2 : ∃ i, s2 = { s with intc := i }) : ends (BitVec.ofNat 64 n) (finishMmio lc n s2) := by
        obtain ⟨i, rfl⟩ := hs2
        exact finishMmio_one (s2 := { s with intc := i }) n rfl hwait hg hclosed hrs hitts hheld hsh hcount ⟨h1, h2, h3, h4⟩
      have hones : BitVec.ofNat 64 allOnes512 = BitVec.allOnes 64 := by decide +kernel
      have hvalue : BitVec.ofNat 64 v.toNat = v := BitVec.ofNat_toNat ..|>.trans (BitVec.setWidth_eq v)
      have hexec (u r : Bool) : exec (.mmioCompletion lc v u r) s =
          .next (finishMmio lc (completionValue a v (u || lostLoad s lc) r s).1 (completionValue a v (u || lostLoad s lc) r s).2) := by
        show (.next (match mmioAccess (coreOf s lc.val) with
          | some a =>
            let x := completionValue a v (u || lostLoad s lc) r s
            finishMmio lc x.1 x.2
          | none => s) : Out) = _
        rw [hacc]
      have htimeout : exec (.completionTimeout lc) s = .next (finishMmio lc allOnes512 (logAer s a.pa)) := by
        show (.next (match mmioAccess (coreOf s lc.val) with
          | some a => finishMmio lc allOnes512 (logAer s a.pa)
          | none => s) : Out) = _
        rw [hacc]
      refine ⟨fun hlive => ⟨_, hexec false false, ?_⟩, ⟨_, hexec true r, ?_⟩, ⟨_, htimeout, ?_⟩, fun hven => ⟨_, hexec false true, ?_⟩⟩
      · rw [hlive]
        have h := hends v.toNat s ⟨_, rfl⟩
        rwa [hvalue] at h
      · rw [← hones]
        exact hends allOnes512 _ (logAer_eq ..)
      · rw [← hones]
        exact hends allOnes512 _ (logAer_eq ..)
      · rw [← hones]
        have hval : completionValue a v (false || lostLoad s lc) true s = (allOnes512, logAer s a.pa) := by
          unfold completionValue
          rw [hven]
          cases lostLoad s lc <;> rfl
        rw [hval]
        exact hends allOnes512 _ (logAer_eq ..)

end Sys2Proof.Machine
end

section
/-! A far atomic by an agent on a line that nothing else holds (04 R113, R115; 10 R253): the old value answered, the new one in its place. -/

namespace Sys2Proof.Machine
variable {s t u : State}

/-- `t` is `s` but for the copies in the slices, their replacement and their counters; each directory is that of before. -/
def Offered (s t : State) : Prop := ∃ sl lf c fr,
  t = { s with mem := { s.mem with slices := sl, lfsrs := lf }, ctl := { s.ctl with counters := c }, fresh := fr } ∧
    ∀ n, (smGet sliceDef sl n).dir = (slice s n).dir
namespace Offered
theorem refl (s : State) : Offered s s := ⟨_, _, _, _, rfl, fun _ => rfl⟩
theorem trans (h : Offered s t) (h' : Offered t u) : Offered s u := by
  obtain ⟨sl, lf, c, fr, rfl, hd⟩ := h
  obtain ⟨sl', lf', c', fr', rfl, hd'⟩ := h'
  exact ⟨sl', lf', c', fr', rfl, fun n => (hd' n).trans (hd n)⟩
theorem counted (h which : Nat) (s : State) : Offered s (hnCnt h which s) := ⟨_, _, _, _, rfl, fun _ => rfl⟩
theorem findDir_eq (h : Offered s t) (n line : Nat) : findDir t n line = findDir s n line := by
  obtain ⟨sl, lf, c, fr, rfl, hd⟩ := h
  show List.findSome? _ (smGet sliceDef sl n).dir = List.findSome? _ (slice s n).dir
  rw [hd]
theorem bytes (h : Offered s t) : t.mem.bytes = s.mem.bytes := by
  obtain ⟨sl, lf, c, fr, rfl, -⟩ := h
  rfl
theorem homeOf_eq (h : Offered s t) (line : Nat) : homeOf t line = homeOf s line := by
  obtain ⟨sl, lf, c, fr, rfl, -⟩ := h
  rfl
theorem putL3 (h slot : Nat) (l : L3Line) (s : State) : Offered s (putL3 h slot l s) := by
  refine ⟨_, _, _, _, rfl, fun n => ?_⟩
  rw [smGet_smPut]
  split
  next hn => rw [hn]
  next => rfl
theorem pickWay {α : Type} (k : Nat) (tbl : SMap (Option α)) (set ways : Nat) (cand : List Nat) (s : State) :
    Offered s (pickWay k tbl set ways cand s).2 := by
  unfold Machine.pickWay
  split
  · exact refl s
  · split
    · exact refl s
    · exact ⟨_, _, _, _, rfl, fun _ => rfl⟩
end Offered
/-- A line offered to its slice changes the slice's copies alone. -/
theorem offered_offerL3 (h line : Nat) (dirty : Bool) (s : State) : Offered s (offerL3 h line dirty s) := by
  unfold offerL3
  extract_lets sl pw
  have hpw : Offered s pw.2 := .pickWay ..
  split
  · exact .refl s
  · split
    · split
      · exact .refl s
      · exact .counted ..
    · split
      · split
        · exact .putL3 ..
        · exact .refl s
      · split
        · split
          · exact .refl s
          · exact .counted ..
        · extract_lets ok
          split
          · exact hpw.trans (.putL3 ..)
          · exact hpw.trans (.counted ..)

/-- The value a place of memory holds before an atomic operation, extended with zeros. -/
def amoOld (wide : Bool) (pa : Nat) (s : State) : Word64 :=
  if wide then BitVec.ofNat 64 (readNat s pa 8) else (BitVec.ofNat 32 (readNat s pa 4)).setWidth 64
/-- The bytes an atomic operation puts there. -/
def amoNew (op : AmoOp) (wide : Bool) (gs gt : Word64) (pa : Nat) (s : State) : List Byte :=
  if wide then bytesOf (amoOp op (BitVec.ofNat 64 (readNat s pa 8)) gs gt) 8
  else bytesOf (amoOp op (BitVec.ofNat 32 (readNat s pa 4)) (gs.setWidth 32) (gt.setWidth 32)) 4
theorem amoAt_eq (pa : Nat) (op : AmoOp) (wide : Bool) (gs gt : Word64) (s : State) :
    amoAt pa op wide gs gt s = (amoOld wide pa s, writeBytes pa (amoNew op wide gs gt pa s) s) := by
  cases wide <;> rfl
theorem amoOld_congr {wide : Bool} {pa : Nat} (h : t.mem.bytes = s.mem.bytes) : amoOld wide pa t = amoOld wide pa s := by
  simp only [amoOld, readNat, readBytes_congr h]
theorem amoNew_congr {op : AmoOp} {wide : Bool} {gs gt : Word64} {pa : Nat} (h : t.mem.bytes = s.mem.bytes) :
    amoNew op wide gs gt pa t = amoNew op wide gs gt pa s := by
  simp only [amoNew, readNat, readBytes_congr h]

/-- What a clear line's home answers a far atomic with, and leaves. -/
theorem request_famo {line : Nat} (h : LineClear s line) (b : ReqData) : let x := request .famo .agent line b s
    x.1 = amoOld b.wide (64 * line + b.off) s ∧
    x.2.mem.bytes = putBytes (amoNew (amoCode b.op) b.wide b.gs b.gt (64 * line + b.off) s) (64 * line + b.off) s.mem.bytes := by
  obtain ⟨pr, hack⟩ := ackAll_priv line s
  generalize hs1 : hnCnt (homeOf s line) cntReq (ackAll line s) = s1
  have hacc : Accessed s s1 := by
    rw [← hs1, hack]
    exact (accessed_priv s pr).trans (Metered.accessed ⟨_, _, rfl⟩)
  have hbytes : s1.mem.bytes = s.mem.bytes := by
    rw [← hs1, hack]
    rfl
  obtain ⟨hremote, hdir, hl3, -, -⟩ := h.of_accessed hacc
  have hstale : l3Stale s1 (homeOf s1 line) line = none := by rw [l3Stale, hl3]
  have hd : dirOf s1 (homeOf s1 line) line = { line := line, owner := none, sharers := 0, devs := 0, proxy := false } := by rw [dirOf, hdir]
  have hkept : keptGroups (0 : BitVec 72) [] = 0 := by simp [keptGroups]
  have hoff := offered_offerL3 (homeOf s1 line) line true s1
  generalize hs2 : offerL3 (homeOf s1 line) line true s1 = s2 at hoff
  have hset : setDir (homeOf s1 line) line none 0 0 s2 = s2 := setDir_clear (by rw [hoff.findDir_eq, hdir])
  have hb2 : s2.mem.bytes = s.mem.bytes := hoff.bytes.trans hbytes
  have hremote2 : remoteSlot s2 line = none := by
    obtain ⟨sl, lf, c, fr, rfl, -⟩ := hoff
    exact hremote
  have hfin : homeFinish s1 { kind := .famo, req := .agent, line := line, body := b } = (amoOld b.wide (64 * line + b.off) s2, none,
      hnCnt (homeOf s1 line) cntFamo (writeBytes (64 * line + b.off) (amoNew (amoCode b.op) b.wide b.gs b.gt (64 * line + b.off) s2) s2)) := by
    simp only [homeFinish, Bool.false_eq_true, if_false, hstale, exposeStale, hd, hkept, hs2, hset, amoAt_eq]
    rw [if_neg]
    simpa [hremote] using hremote2
  rw [request_clear h .famo (by decide) b (by rw [hs1, hfin]), hs1, hfin]
  exact ⟨amoOld_congr hb2, by rw [← amoNew_congr hb2, ← hb2]; rfl⟩

/-- An agent's atomic operation on clear bytes answers what they held and puts the operation's result there; beside memory nothing changes. -/
theorem agentAmo_clear (tc : Nat) {pa n : Nat} (op : Nat) (wide : Bool) (gs gt : Word64) (h : Clear s pa n) (hn : 0 < n) :
    let x := agentAmo tc pa op wide gs gt s
    x.1 = amoOld wide pa s ∧ x.2.mem.bytes = putBytes (amoNew (amoCode op) wide gs gt pa s) pa s.mem.bytes ∧ beside x.2 = beside s := by
  unfold agentAmo
  split
  next hm =>
    obtain ⟨hold, hnew⟩ := request_famo (h.lineAt hn hm) { off := pa % 64, op := op, wide := wide, gs := gs, gt := gt, tc := BitVec.ofNat 2 tc }
    have hpa : 64 * lineOf pa + pa % 64 = pa := by unfold lineOf; omega
    rw [hpa] at hold hnew
    exact ⟨hold, hnew, beside_request ..⟩
  next =>
    rw [amoAt_eq]
    exact ⟨rfl, rfl, rfl⟩

end Sys2Proof.Machine
end

section
/-! A letter that its queue takes into burst storage, posted by a sender that has no other (13 R333, R335, R346). -/

namespace Sys2Proof.Machine
variable {s t u : State} {q : Nat}

/-- The queue takes a letter into burst storage, and neither a doorbell nor a trigger counter follows. -/
structure TakesLetters (s : State) (q : Nat) : Prop where
  running : s.office.running = true
  awake : s.power.mode ≠ .drain
  inService : sopDown s (q % 8) = false
  active : (queueOf s q).state = .active
  kind : qKind (queueOf s q) ≠ 1
  unspilled : (queueOf s q).spill = false
  room : burstRoom s q (queueOf s q) = true
  uncounted : (qw (queueOf s q) 0).getLsbD 19 = false
  silent : bellOn (queueOf s q) = false

/-- `t` is `s` but that the queue holds the letter behind the others, its doorbell perhaps armed again; what cores wait for and the counters follow. -/
def Stored (q : Nat) (l : Letter) (s t : State) : Prop := ∃ qs cs c b,
  t = { s with office := { s.office with queues := qs }, cores := cs, ctl := { s.ctl with counters := c } } ∧
  ∀ p, smGet qDef qs p = if p = q then { queueOf s q with burst := (queueOf s q).burst ++ [l], bell := b } else queueOf s p
theorem Stored.queue {l : Letter} (h : Stored q l s t) : (queueOf t q).burst = (queueOf s q).burst ++ [l] := by
  obtain ⟨qs, cs, c, b, rfl, hq⟩ := h
  exact congrArg Queue.burst ((hq q).trans (if_pos rfl))
theorem Stored.others {l : Letter} (h : Stored q l s t) {p : Nat} (hp : p ≠ q) : queueOf t p = queueOf s p := by
  obtain ⟨qs, cs, c, b, rfl, hq⟩ := h
  exact (hq p).trans (if_neg hp)

/-- A queue without a doorbell at most arms it again. -/
theorem ringBell_silent (before : Nat) (h : bellOn (queueOf s q) = false) : ∃ qs b, ringBell q before s = { s with office := { s.office with queues := qs } } ∧
    ∀ p, smGet qDef qs p = if p = q then { queueOf s q with bell := b } else queueOf s p := by
  have hsame : ∀ p, queueOf s p = if p = q then { queueOf s q with bell := (queueOf s q).bell } else queueOf s p := by
    intro p
    split
    next hp => rw [hp]
    next => rfl
  have harmed : ∀ p, smGet qDef (smPut qDef s.office.queues q { queueOf s q with bell := .armed }) p =
      if p = q then { queueOf s q with bell := .armed } else queueOf s p := fun p => smGet_smPut ..
  unfold ringBell
  dsimp only
  split
  · rw [h, Bool.false_and, if_neg Bool.false_ne_true]
    exact ⟨_, _, rfl, hsame⟩
  · split
    · exact ⟨_, _, rfl, harmed⟩
    · exact ⟨_, _, rfl, hsame⟩
  · split
    · exact ⟨_, _, rfl, harmed⟩
    · exact ⟨_, _, rfl, hsame⟩

theorem storeLetter_burst (h : TakesLetters s q) (l : Letter) :
    storeLetter q l s = some (setQueue q { queueOf s q with burst := (queueOf s q).burst ++ [l] } s) := by
  unfold storeLetter
  dsimp only
  rw [h.unspilled, h.room, if_pos (by decide)]
/-- What follows an acceptance where nothing listens. -/
theorem accepted_silent {l : Letter} (h : TakesLetters s q) (before : Nat) :
    Stored q l s (accepted q before (setQueue q { queueOf s q with burst := (queueOf s q).burst ++ [l] } s)) := by
  generalize hs1 : soCnt cntAccept (setQueue q { queueOf s q with burst := (queueOf s q).burst ++ [l] } s) = s1
  have hq1 : ∀ p, queueOf s1 p = if p = q then { queueOf s q with burst := (queueOf s q).burst ++ [l] } else queueOf s p := by
    intro p
    rw [← hs1]
    exact smGet_smPut ..
  have hx1 : queueOf s1 q = { queueOf s q with burst := (queueOf s q).burst ++ [l] } := (hq1 q).trans (if_pos rfl)
  obtain ⟨qs, b, hring, hqs⟩ := ringBell_silent (s := s1) (q := q) before (by rw [hx1]; exact h.silent)
  have hqueues : ∀ p, smGet qDef qs p = if p = q then { queueOf s q with burst := (queueOf s q).burst ++ [l], bell := b } else queueOf s p := by
    intro p
    rw [hqs p, hx1]
    split
    next => rfl
    next hp => exact (hq1 p).trans (if_neg hp)
  have hbit : (qw (queueOf (armQueue (some q) { s1 with office := { s1.office with queues := qs } }) q) 0).getLsbD 19 = false := by
    show (qw (smGet qDef qs q) 0).getLsbD 19 = false
    rw [hqueues, if_pos rfl]
    exact h.uncounted
  unfold accepted
  rw [hs1, hring]
  dsimp only
  rw [hbit, if_neg Bool.false_ne_true]
  subst hs1
  exact ⟨_, _, _, _, rfl, hqueues⟩

/-- The queue takes the letter. -/
theorem deliver_taken (h : TakesLetters s q) (l : Letter) : ∃ t, deliver q l s = (.taken, t) ∧ Stored q l s t := by
  have hoffer : offer q l s = (0, accepted q (qCount (queueOf s q)) (setQueue q { queueOf s q with burst := (queueOf s q).burst ++ [l] } s)) := by
    have hstore := storeLetter_burst h l
    generalize setQueue q _ s = a at hstore ⊢
    unfold offer
    dsimp only
    rw [h.inService, if_neg Bool.false_ne_true, h.active]
    dsimp only
    rw [if_neg h.kind, hstore]
  refine ⟨_, ?_, accepted_silent h (qCount (queueOf s q))⟩
  unfold deliver
  rw [h.running, Bool.not_true, if_neg Bool.false_ne_true, if_neg h.awake, hoffer]
  rfl

/-- A letter posted to queue `q` by a sender with no other: its queue holds it behind the others, with its fields stamped; nothing else of memory, the
links, the other queues or the commands changes. -/
structure Posted (k q : Nat) (l : Letter) (s t : State) : Prop where
  frame : ∃ qs sn cs c f, t = { s with office := { s.office with queues := qs, senders := sn }, cores := cs, ctl := { s.ctl with counters := c }, frk := f }
  queue : (queueOf t q).burst = (queueOf s q).burst ++ [{ l with data := stamp s q l.data }]
  others : ∀ p, p ≠ q → queueOf t p = queueOf s p

theorem TakesLetters.of_frame (h : TakesLetters s q) {sn : SMap (List SendSlot)} {c : SMap Word64} {f : Franking} :
    TakesLetters { s with office := { s.office with senders := sn }, ctl := { s.ctl with counters := c }, frk := f } q :=
  ⟨h.running, h.awake, h.inService, h.active, h.kind, h.unspilled, h.room, h.uncounted, h.silent⟩

theorem posted_serveSender {k : Nat} {dest : BitVec 32} {l : Letter} {tc : BitVec 2} (h : TakesLetters s q) (hnone : sendersOf s k = [])
    (hdev : fld dest 31 16 = devNum s) (hq : fld dest 15 0 = q) (hvia : l.via = none) :
    Posted k q l s (serveSender false k dest (setSender k (sendersOf s k ++ [{ dest := dest, letter := l, released := true, tc := tc }]) s)) := by
  obtain ⟨d, pm, via⟩ := l
  cases hvia
  generalize hsl : ({ dest := dest, letter := { data := d, postmark := pm, via := none }, released := true, tc := tc } : SendSlot) = sl
  generalize hs1 : setSender k (sendersOf s k ++ [sl]) s = s1
  have hmine : sendersOf s1 k = [sl] := by
    rw [← hs1, hnone]
    exact smGet_smPut_same ..
  have hnext : nextSlot false dest (sendersOf s1 k) = some sl := by
    rw [hmine, ← hsl]
    simp [nextSlot]
  have hlet : sl.letter = { data := d, postmark := pm, via := none } := by rw [← hsl]
  generalize hs2 : serveFlits (272 + q % 8) (senderTc s1 k sl).toNat 1 (injectLetter k sl [24 + q % 8] s1) = s2
  have hs2frame : ∃ sn c f, s2 = { s with office := { s.office with senders := sn }, ctl := { s.ctl with counters := c }, frk := f } :=
    ⟨_, _, _, by rw [← hs2, ← hs1]; rfl⟩
  obtain ⟨sn, c, f, hs2eq⟩ := hs2frame
  have htakes : TakesLetters s2 q := by
    rw [hs2eq]
    exact h.of_frame
  have hstamp : stamp s2 q d = stamp s q d := by rw [hs2eq]; rfl
  obtain ⟨t, hdel, hst⟩ := deliver_taken htakes { data := stamp s2 q d, postmark := pm, via := none }
  have hport : ¬(!false && s2.office.running && !sopDown s2 (q % 8) && decide ((queueOf s2 q).state = .active ∧ qKind (queueOf s2 q) = 1)) = true := by
    simp [htakes.kind]
  have hrun : serveSender false k dest s1 = setSender k ((sendersOf t k).erase sl) t := by
    unfold serveSender
    rw [hnext]
    dsimp only
    rw [if_neg (show ¬fld dest 31 16 ≠ devNum s1 from not_not.mpr (by rw [hdev, ← hs1]; rfl)), hq, hlet, Option.isSome_none, Bool.and_false]
    simp only [Bool.false_eq_true, if_false]
    rw [hs2, if_neg hport, hdel]
  rw [hrun]
  refine ⟨?_, ?_, fun p hp => ?_⟩
  · obtain ⟨qs, cs, c', b, ht, -⟩ := hst
    exact ⟨_, _, _, _, _, by rw [ht, hs2eq]; rfl⟩
  · have := hst.queue
    rw [hstamp, hs2eq] at this
    exact this
  · have := hst.others hp
    rw [hs2eq] at this
    exact this

end Sys2Proof.Machine
end

section
/-! Requests of devices below root ports (16 R405, R408 to R412): translated, performed, refused; messages and page requests. -/

namespace Sys2Proof.Machine
-- One declaration after another: each `decide +kernel` waits for the kernel's turn, and many at once would hold a thread each.
set_option Elab.async false

variable {s t u : State} {w : Writer} {v : Word32} {c : DevCtx} {rest : List DevCtx} {x : IoSlot} {xs : List IoSlot}

/-! ### Context and translation (R408, R409) -/

/-- The cached context of a requester below sub-port `j`, noted as the one used last. -/
def ctxUsed (c : DevCtx) (rest : List DevCtx) (j : Nat) (s : State) : State := { s with pcie := { s.pcie with ctxs := { c with sub := j } :: rest } }
theorem findCtx_first {rid : Nat} (j : Nat) (h : s.pcie.ctxs = c :: rest) (hrid : c.rid = rid) :
    findCtx rid j s = (.ok { c with sub := j }, ctxUsed c rest j s) := by
  unfold findCtx
  rw [h, List.find?_cons_of_pos (by simpa using hrid)]
  dsimp only
  rw [List.erase_cons_head]
  rfl
theorem sameBytes_ctxUsed (c : DevCtx) (rest : List DevCtx) (j : Nat) (s : State) : SameBytes s (ctxUsed c rest j s) := fun _ => rfl
theorem readBytes_ctxUsed (c : DevCtx) (rest : List DevCtx) (j : Nat) (s : State) (pa n : Nat) :
    readBytes (ctxUsed c rest j s) pa n = readBytes s pa n := readBytes_congr (s := s) (t := ctxUsed c rest j s) rfl pa n
theorem clear_ctxUsed {j pa n : Nat} (h : Clear s pa n) : Clear (ctxUsed c rest j s) pa n := h

/-- The address that a slot translates to. -/
def slotPa (x : IoSlot) (iova : Nat) : Nat := x.pa + (iova - x.iova)
/-- The first cached slot of a root port holds the translation of `iova` for a context, A and D set. -/
structure SlotHit (s : State) (n : Nat) (c : DevCtx) (x : IoSlot) (iova : Nat) : Prop where
  first : (ioslots s n).head? = some x
  tag : x.tag = c.tag
  canonical : iova < 2 ^ 47
  low : x.iova ≤ iova
  high : iova < x.iova + x.size
  accessed : x.a = true
  dirty : x.d = true
theorem SlotHit.find {n iova : Nat} (h : SlotHit s n c x iova) :
    (ioslots s n).find? (fun x => decide (x.tag = c.tag ∧ x.iova ≤ iova ∧ iova < x.iova + x.size)) = some x := by
  obtain ⟨xs, hxs⟩ := List.head?_eq_some_iff.mp h.first
  rw [hxs, List.find?_cons_of_pos (by simpa using ⟨h.tag, h.low, h.high⟩)]
/-- A translation that finds its slot with A and D set: the checks of R409 in their order. -/
theorem ioXlat_hit {again n iova : Nat} {rd wr : Bool} (h : SlotHit s n c x iova) : ioXlat again n c iova rd wr s =
      (if !regionOk s (slotPa x iova) .dma then .error { kind := 4 }
      else if (rd && !x.rd) || (wr && !x.wr) then .error { kind := 2, reason := 9 }
      else if mmioBarred s c (slotPa x iova) then .error { kind := 4 }
      else if ownerCode s (slotPa x iova) ≠ 0 ∧ (wr ∨ ownerCode s (slotPa x iova) ≠ 2) then .error { kind := 4 }
      else .ok (slotPa x iova), s) := by
  unfold ioXlat
  rw [if_neg (Nat.not_le.mpr h.canonical), h.find]
  dsimp only
  rw [if_pos (show (x.a && (x.d || !wr)) = true by rw [h.accessed, h.dirty]; rfl)]
  unfold slotPa
  split_ifs <;> rfl

/-- What is below the windows of PCI Express lies in none of them. -/
theorem placeOf_low {pa : Nat} (h : pa < mmioBase) (sl off : Nat) : placeOf pa ≠ some ⟨.mmio, sl, off⟩ := by
  have hm : mmioBase = 0xC000000000000 := rfl
  have hs : scratchBase = 0xE000000000000 := rfl
  have hc : controlBase = 0xF000000000000 := rfl
  unfold placeOf
  split
  · split
    · simp
    · split <;> simp
  · unfold inSlots
    rw [if_neg (show ¬(mmioBase ≤ pa ∧ pa < mmioBase + 4 * 0x20000000000) by omega),
      if_neg (show ¬(scratchBase ≤ pa ∧ pa < scratchBase + 4 * 0x1000000000) by omega),
      if_neg (show ¬(controlBase ≤ pa ∧ pa < controlBase + 4 * 0x1000000000) by omega)]
    split <;> simp
theorem mmioBarred_low {pa : Nat} (h : pa < mmioBase) (s : State) (c : DevCtx) : mmioBarred s c pa = false := by
  unfold mmioBarred
  split
  · next hp => exact absurd hp (placeOf_low h _ _)
  · rfl
theorem mmioBarred_window {pa sl off : Nat} (h : placeOf pa = some ⟨.mmio, sl, off⟩) (s : State) (c : DevCtx) :
    mmioBarred s c pa = (!c.p2p || sl != slotOf s) := by
  unfold mmioBarred
  rw [h]

/-! ### A request of a known requester -/

/-- Rights that an operation needs. -/
def dmaRd (op : DmaOp) : Bool := match op with | .write _ => false | _ => true
def dmaWr (op : DmaOp) : Bool := match op with | .read _ => false | _ => true
/-- The outcome of the translation of a request, physical where it comes translated. -/
def dmaXlat (n : Nat) (c : DevCtx) (iova : Nat) (op : DmaOp) (tr : Bool) (s : State) : Except IoFault Nat × State :=
  if tr then (ioTranslated c iova (dmaWr op) s, s) else ioXlat 1 n c iova (dmaRd op) (dmaWr op) s
/-- A requester whose context is cached, below a sub-port that passes requests. -/
structure Known (s : State) (j rid : Nat) (c : DevCtx) (rest : List DevCtx) : Prop where
  live : subLive s j = true
  cached : s.pcie.ctxs = c :: rest
  named : c.rid = rid

/-- A request of a known requester is what its translation makes of it. -/
theorem dmaRequest_known {j rid iova : Nat} {op : DmaOp} {ep tr : Bool} (hk : Known s j rid c rest) (hop : op ≠ .unsupported)
    (hsize : dmaSizeOk iova op = true) (hmsi : tr = false → iova / 4096 * 4096 ≠ msiPage s) :
    dmaRequest j rid iova op ep tr s = let r := dmaXlat (j / 4) { c with sub := j } iova op tr (ctxUsed c rest j s)
      match r.1 with
      | .error f => dmaRefuse j rid c.tc f op tr iova r.2
      | .ok pa => dmaPerform (j / 4) { c with sub := j } pa op ep r.2 := by
  unfold dmaRequest
  rw [hk.live, Bool.not_true, if_neg Bool.false_ne_true, if_neg (by simp [hop, hsize]), findCtx_first j hk.cached hk.named]
  dsimp only
  cases op with
  | write bs =>
    dsimp only
    rw [if_neg (by rintro ⟨h, htr⟩; exact hmsi (by simpa using htr) h)]
    rfl
  | read k => rfl
  | atomic o wide a b => rfl
  | unsupported => exact absurd rfl hop
theorem dmaRequest_unsupported {j rid iova : Nat} {ep tr : Bool} (h : subLive s j = true) :
    dmaRequest j rid iova .unsupported ep tr s = complete 1 false [] s := by
  unfold dmaRequest
  rw [h, Bool.not_true, if_neg Bool.false_ne_true, if_pos (.inl rfl)]

/-! ### The performance of a request -/

theorem dmaPerform_read {n pa k : Nat} {ep : Bool} (h : pa < mmioBase) : dmaPerform n c pa (.read k) ep s =
    let r := agentRead c.tc pa k (bumpBy (pcieReg 0x210) (spanLines pa k) (inject (528 + n) c.tc (spanLines pa k) (lineResources s pa) s))
    complete 0 r.2.1 r.1 r.2.2 := by
  unfold dmaPerform
  split
  · next hp => exact absurd hp (placeOf_low h _ _)
  · rfl
theorem dmaPerform_write {n pa : Nat} {bs : List Byte} {ep : Bool} (h : pa < mmioBase) : dmaPerform n c pa (.write bs) ep s =
    let s1 := agentWrite c.tc pa bs (bumpBy (pcieReg 0x218) (spanLines pa bs.length) (inject (528 + n) c.tc (spanLines pa bs.length) (lineResources s pa) s))
    complete 0 false [] (if ep then poisonLines pa bs.length s1 else s1) := by
  unfold dmaPerform
  split
  · next hp => exact absurd hp (placeOf_low h _ _)
  · rfl
theorem dmaPerform_atomic {n pa : Nat} {o : Fin 3} {wide : Bool} {a b : Word64} {ep : Bool} (h : pa < mmioBase) : dmaPerform n c pa (.atomic o wide a b) ep s =
    let s1 := inject (528 + n) c.tc 1 (lineResources s pa) s
    let r := if o.val = 2 then agentAmo c.tc pa 9 wide b a s1 else agentAmo c.tc pa (if o.val = 0 then 1 else 0) wide a 0 s1
    complete 0 false (bytesOfNat r.1.toNat (if wide then 8 else 4)) r.2 := by
  unfold dmaPerform
  split
  · next hp => exact absurd hp (placeOf_low h _ _)
  · obtain ⟨o, ho⟩ := o
    rcases o with _ | _ | _ | o
    · simp
    · simp
    · simp
    · omega

/-- A sub-port's use of a context leaves memory and what stands before it. -/
theorem SlotHit.used {n j iova : Nat} (h : SlotHit s n c x iova) : SlotHit (ctxUsed c rest j s) n { c with sub := j } x iova :=
  ⟨h.first, h.tag, h.canonical, h.low, h.high, h.accessed, h.dirty⟩
/-- A translation that meets no refusal. -/
theorem dmaXlat_ok {n iova pa : Nat} {op : DmaOp} {tr : Bool} (h : SlotHit s n c x iova) (hpa : pa = if tr then iova else slotPa x iova)
    (hreg : regionOk s pa .dma = true) (hown : ownerCode s pa = 0) (hbar : mmioBarred s c pa = false) (hats : tr = true → c.ats = true)
    (hrd : dmaRd op = true → x.rd = true) (hwr : dmaWr op = true → x.wr = true) : dmaXlat n c iova op tr s = (.ok pa, s) := by
  cases tr with
  | true =>
    simp only [if_true] at hpa
    subst hpa
    simp [dmaXlat, ioTranslated, hats rfl, hreg, hbar, hown]
  | false =>
    simp only [Bool.false_eq_true, if_false] at hpa
    subst hpa
    have hrights : ((dmaRd op && !x.rd) || (dmaWr op && !x.wr)) = false := by
      cases hr : dmaRd op <;> cases hw : dmaWr op <;> simp_all
    simp only [dmaXlat, Bool.false_eq_true, if_false]
    rw [ioXlat_hit h, hreg, hrights, hbar, hown]
    simp
/-- A translation without the rights the operation needs. -/
theorem dmaXlat_rights {n iova : Nat} {op : DmaOp} (h : SlotHit s n c x iova) (hreg : regionOk s (slotPa x iova) .dma = true)
    (hrights : ((dmaRd op && !x.rd) || (dmaWr op && !x.wr)) = true) : dmaXlat n c iova op false s = (.error { kind := 2, reason := 9 }, s) := by
  simp only [dmaXlat, Bool.false_eq_true, if_false]
  rw [ioXlat_hit h, hreg, hrights]
  rfl
/-- A translation to PCIe MMIO that the context may not reach. -/
theorem dmaXlat_barred {n iova pa k : Nat} {tr : Bool} (h : SlotHit s n c x iova) (hpa : pa = if tr then iova else slotPa x iova)
    (hreg : regionOk s pa .dma = true) (hrd : x.rd = true) (hats : c.ats = true) (hbar : mmioBarred s c pa = true) :
    dmaXlat n c iova (.read k) tr s = (.error { kind := 4 }, s) := by
  cases tr with
  | true =>
    simp only [if_true] at hpa
    subst hpa
    simp [dmaXlat, ioTranslated, hats, hreg, hbar]
  | false =>
    simp only [Bool.false_eq_true, if_false] at hpa
    subst hpa
    simp only [dmaXlat, Bool.false_eq_true, if_false]
    rw [ioXlat_hit h, hreg, hbar, hrd]
    rfl

/-! ### Memory served to a device below (R405, R409) -/

/-- A request that its translation lets pass to `pa`. -/
theorem dmaRequest_passes {j rid iova pa : Nat} {op : DmaOp} {ep tr : Bool} (hk : Known s j rid c rest) (hit : SlotHit s (j / 4) c x iova)
    (hop : op ≠ .unsupported) (hsize : dmaSizeOk iova op = true) (hmsi : iova / 4096 * 4096 ≠ msiPage s)
    (hpa : pa = if tr then iova else slotPa x iova) (hreg : regionOk s pa .dma = true) (hown : ownerCode s pa = 0)
    (hbar : mmioBarred s c pa = false) (hats : tr = true → c.ats = true) (hrd : dmaRd op = true → x.rd = true) (hwr : dmaWr op = true → x.wr = true) :
    dmaRequest j rid iova op ep tr s = dmaPerform (j / 4) { c with sub := j } pa op ep (ctxUsed c rest j s) := by
  rw [dmaRequest_known hk hop hsize fun _ => hmsi, dmaXlat_ok (s := ctxUsed c rest j s) hit.used hpa hreg hown hbar hats hrd hwr]

theorem dma_reads {n pa k : Nat} {ep : Bool} (hlow : pa < mmioBase) (hclear : Clear s pa k) : let t := dmaPerform n c pa (.read k) ep s
    t.ans = { status := 0, value := 0, bytes := readBytes s pa k } ∧ SameBytes s t := by
  rw [dmaPerform_read hlow]
  have hm : Metered s (bumpBy (pcieReg 0x210) (spanLines pa k) (inject (528 + n) c.tc (spanLines pa k) (lineResources s pa) s)) := ⟨_, _, rfl⟩
  generalize bumpBy (pcieReg 0x210) (spanLines pa k) (inject (528 + n) c.tc (spanLines pa k) (lineResources s pa) s) = s1 at hm
  obtain ⟨hbytes, hpoison, hacc, hmem⟩ := agentRead_clear c.tc (hm.accessed.clear hclear)
  dsimp only
  rw [hbytes, hpoison]
  have hb1 : s1.mem.bytes = s.mem.bytes := congrArg MemSt.bytes hm.mem
  exact ⟨by rw [readBytes_congr hb1]; rfl, sameBytes_of_bytes (hmem.trans hb1)⟩
theorem dma_writes {n pa : Nat} {bs : List Byte} (hlow : pa < mmioBase) (hclear : Clear s pa bs.length) : let t := dmaPerform n c pa (.write bs) false s
    t.ans.status = 0 ∧ (∀ k, k < bs.length → readByte t (pa + k) = bs.getD k 0) ∧ SameBytesBut pa bs.length s t := by
  rw [dmaPerform_write hlow]
  have hm : Metered s (bumpBy (pcieReg 0x218) (spanLines pa bs.length) (inject (528 + n) c.tc (spanLines pa bs.length) (lineResources s pa) s)) := ⟨_, _, rfl⟩
  generalize bumpBy (pcieReg 0x218) (spanLines pa bs.length) (inject (528 + n) c.tc (spanLines pa bs.length) (lineResources s pa) s) = s1 at hm
  obtain ⟨-, hmem⟩ := agentWrite_clear c.tc (bs := bs) (hm.accessed.clear hclear)
  have hb : (complete 0 false [] (agentWrite c.tc pa bs s1)).mem.bytes = putBytes bs pa s.mem.bytes := by
    rw [← hm.mem]
    exact hmem
  refine ⟨rfl, fun k hk => ?_, sameBytesBut_of_putBytes hb rfl⟩
  show readByte (complete 0 false [] (agentWrite c.tc pa bs s1)) (pa + k) = _
  rw [readByte_of_putBytes hb, if_pos (by omega), Nat.add_sub_cancel_left]
theorem poisonLines_spec (pa n : Nat) (s : State) : (poisonLines pa n s).mem.bytes = s.mem.bytes ∧
    ∀ l, poisoned (poisonLines pa n s) l = (poisoned s l || decide (pa / 64 ≤ l ∧ l < pa / 64 + spanLines pa n)) := by
  unfold poisonLines
  have key : ∀ (m k : Nat) (a : State), ((List.range' k m).foldl (fun a i => poisonLine (pa / 64 + i) a) a).mem.bytes = a.mem.bytes ∧
      ∀ l, poisoned ((List.range' k m).foldl (fun a i => poisonLine (pa / 64 + i) a) a) l =
        (poisoned a l || decide (pa / 64 + k ≤ l ∧ l < pa / 64 + k + m)) := by
    intro m
    induction m with
    | zero =>
      intro k a
      refine ⟨rfl, fun l => ?_⟩
      rw [show decide (pa / 64 + k ≤ l ∧ l < pa / 64 + k + 0) = false from decide_eq_false (by omega), Bool.or_false]
      rfl
    | succ m ih =>
      intro k a
      rw [List.range'_succ, List.foldl_cons]
      obtain ⟨i, hi⟩ := pulse_eq (s := setPoison (pa / 64 + k) true a) 151
      have hstep : poisonLine (pa / 64 + k) a = { setPoison (pa / 64 + k) true a with intc := i } := hi
      obtain ⟨hb, hp⟩ := ih (k + 1) (poisonLine (pa / 64 + k) a)
      refine ⟨hb.trans (by rw [hstep]; rfl), fun l => ?_⟩
      rw [hp, hstep]
      show (smGet boolDef (smPut boolDef a.mem.poison (pa / 64 + k) true) l || _) = _
      rw [smGet_smPut]
      split
      next hl =>
        rw [Bool.true_or, hl, show decide (pa / 64 + k ≤ pa / 64 + k ∧ pa / 64 + k < pa / 64 + k + (m + 1)) = true from decide_eq_true (by omega), Bool.or_true]
      next hl =>
        have hcong : decide (pa / 64 + (k + 1) ≤ l ∧ l < pa / 64 + (k + 1) + m) = decide (pa / 64 + k ≤ l ∧ l < pa / 64 + k + (m + 1)) :=
          decide_eq_decide.mpr (by omega)
        rw [hcong]
        rfl
  rw [List.range_eq_range']
  exact key (spanLines pa n) 0 s
theorem dma_poisons {n pa : Nat} {bs : List Byte} (hlow : pa < mmioBase) (hclear : Clear s pa bs.length) : let t := dmaPerform n c pa (.write bs) true s
    (∀ k, k < bs.length → readByte t (pa + k) = bs.getD k 0) ∧ SameBytesBut pa bs.length s t ∧
      ∀ k, k < bs.length → readsPoison t (lineOf (pa + k)) = true := by
  obtain ⟨-, hat, hbut⟩ := dma_writes (c := c) (n := n) hlow hclear
  rw [dmaPerform_write hlow] at hat hbut ⊢
  dsimp only at hat hbut ⊢
  simp only [Bool.false_eq_true, if_false] at hat hbut
  simp only [if_true]
  generalize agentWrite c.tc pa bs _ = s1 at hat hbut ⊢
  obtain ⟨hb, hp⟩ := poisonLines_spec pa bs.length s1
  have hsame : ∀ a, readByte (complete 0 false [] (poisonLines pa bs.length s1)) a = readByte (complete 0 false [] s1) a := fun a => by
    show smGet byteDef (poisonLines pa bs.length s1).mem.bytes a = _
    rw [hb]
    rfl
  refine ⟨fun k hk => (hsame _).trans (hat k hk), fun a ha => (hsame a).trans (hbut a ha), fun k hk => ?_⟩
  show (poisoned (poisonLines pa bs.length s1) (lineOf (pa + k)) || _) = true
  rw [hp, decide_eq_true, Bool.or_true, Bool.true_or]
  unfold spanLines lineOf
  rw [if_neg (by omega)]
  omega

theorem holdsBytes_of_putBytes {w pa n : Nat} {v : BitVec w} (h : t.mem.bytes = putBytes (bytesOf v n) pa s.mem.bytes) : HoldsBytes t pa n v.toNat := by
  intro i hi
  rw [← holdsBytes_writeBytes pa n v s i hi, readByte, h]
  rfl
/-- What a FetchAdd, a Swap or a CAS of a device leaves in place of `old` (R405). -/
def dmaNew {w : Nat} (o : Fin 3) (old : BitVec w) (a b : Word64) : BitVec w :=
  if o = 0 then old + a.setWidth w else if o = 1 then a.setWidth w else if old = a.setWidth w then b.setWidth w else old
/-- The operations of a device are the far atomics ADD, XCHG and CMPX. -/
theorem amoOp_dma {w : Nat} (o : Fin 3) (old : BitVec w) (a b : Word64) :
    amoOp (amoCode (if o.val = 2 then 9 else if o.val = 0 then 1 else 0)) old ((if o.val = 2 then b else a).setWidth w)
      ((if o.val = 2 then a else 0).setWidth w) = dmaNew o old a b := by
  obtain ⟨o, ho⟩ := o
  rcases o with _ | _ | _ | o
  · rfl
  · rfl
  · simp only [dmaNew, amoOp, amoCode]
    rfl
  · omega
theorem dmaPerform_amo {n pa : Nat} {o : Fin 3} {wide : Bool} {a b : Word64} {ep : Bool} (h : pa < mmioBase) : dmaPerform n c pa (.atomic o wide a b) ep s =
    let r := agentAmo c.tc pa (if o.val = 2 then 9 else if o.val = 0 then 1 else 0) wide (if o.val = 2 then b else a) (if o.val = 2 then a else 0)
      (inject (528 + n) c.tc 1 (lineResources s pa) s)
    complete 0 false (bytesOfNat r.1.toNat (if wide then 8 else 4)) r.2 := by
  rw [dmaPerform_atomic h]
  by_cases ho : o.val = 2
  · simp only [ho, if_true]
  · simp only [ho, if_false]
theorem dma_updates {n pa : Nat} {o : Fin 3} {wide : Bool} {a b : Word64} (hlow : pa < mmioBase) (hclear : Clear s pa (if wide then 8 else 4)) :
    let t := dmaPerform n c pa (.atomic o wide a b) false s
    let len := if wide then 8 else 4
    let old : BitVec (8 * len) := BitVec.ofNat (8 * len) (readNat s pa len)
    t.ans = { status := 0, value := 0, bytes := bytesOfNat old.toNat len } ∧ HoldsBytes t pa len (dmaNew o old a b).toNat ∧ SameBytesBut pa len s t := by
  rw [dmaPerform_amo hlow]
  have hm : Metered s (inject (528 + n) c.tc 1 (lineResources s pa) s) := metered_inject ..
  generalize inject (528 + n) c.tc 1 (lineResources s pa) s = s1 at hm
  have hb1 : s1.mem.bytes = s.mem.bytes := congrArg MemSt.bytes hm.mem
  obtain ⟨hold, hnew, -⟩ := agentAmo_clear c.tc (if o.val = 2 then 9 else if o.val = 0 then 1 else 0) wide (if o.val = 2 then b else a)
    (if o.val = 2 then a else 0) (hm.accessed.clear hclear) (by split <;> decide)
  dsimp only
  rw [hold, amoOld_congr hb1]
  rw [amoNew_congr hb1, hb1] at hnew
  generalize (agentAmo c.tc pa _ wide _ _ s1).2 = s2 at hnew
  cases wide with
  | true =>
    have hop := amoOp_dma o (BitVec.ofNat 64 (readNat s pa 8)) a b
    simp only [BitVec.setWidth_eq] at hop
    simp only [amoNew, if_true, hop] at hnew
    exact ⟨rfl, holdsBytes_of_putBytes (v := dmaNew o (BitVec.ofNat 64 (readNat s pa 8)) a b) hnew,
      sameBytesBut_of_putBytes (bs := bytesOf (dmaNew o (BitVec.ofNat 64 (readNat s pa 8)) a b) 8) hnew rfl⟩
  | false =>
    have hop := amoOp_dma o (BitVec.ofNat 32 (readNat s pa 4)) a b
    simp only [amoNew, Bool.false_eq_true, if_false, hop] at hnew
    refine ⟨?_, holdsBytes_of_putBytes (v := dmaNew o (BitVec.ofNat 32 (readNat s pa 4)) a b) hnew,
      sameBytesBut_of_putBytes (bs := bytesOf (dmaNew o (BitVec.ofNat 32 (readNat s pa 4)) a b) 4) hnew rfl⟩
    have hwide : ((BitVec.ofNat 32 (readNat s pa 4)).setWidth 64 : Word64).toNat = (BitVec.ofNat 32 (readNat s pa 4)).toNat :=
      BitVec.toNat_setWidth_of_le (by decide)
    show (complete 0 false (bytesOfNat ((BitVec.ofNat 32 (readNat s pa 4)).setWidth 64 : Word64).toNat 4) s2).ans = _
    rw [hwide]
    rfl

/-! ### Refusals (R409) -/

/-- The fault queue is off: a refused request is counted and answered, or, posted, discarded. -/
theorem dmaRefuse_off (hoff : (reg s 0x4800110).getLsbD 31 = false) (j rid tc : Nat) (f : IoFault) (op : DmaOp) (tr : Bool) (iova : Nat) :
    let t := dmaRefuse j rid tc f op tr iova s
    (dmaRd op = true → t.ans.status = 1) ∧ (dmaRd op = false → t.ans = s.ans) ∧ t.pcie = s.pcie ∧ SameBytes s t := by
  unfold dmaRefuse
  rw [ioFault_off hoff]
  cases op with
  | write bs => exact ⟨fun h => Bool.noConfusion h, fun _ => rfl, rfl, fun _ => rfl⟩
  | read k => exact ⟨fun _ => rfl, fun h => Bool.noConfusion h, rfl, fun _ => rfl⟩
  | atomic o wide a b => exact ⟨fun _ => rfl, fun h => Bool.noConfusion h, rfl, fun _ => rfl⟩
  | unsupported => exact ⟨fun _ => rfl, fun h => Bool.noConfusion h, rfl, fun _ => rfl⟩

/-! ### Translation requests (R410) -/

theorem translation_answered {j rid iova : Nat} (hk : Known s j rid c rest) (hit : SlotHit s (j / 4) c x iova) (hats : c.ats = true)
    (hreg : regionOk s (slotPa x iova) .dma = true) (hown : ownerCode s (slotPa x iova) = 0) (hlow : slotPa x iova < mmioBase) :
    translationRequest j rid iova s = { ctxUsed c rest j s with
      ans := { status := 0, value := BitVec.ofNat 64 (slotPa x iova / min x.size 0x200000 * min x.size 0x200000 + (if x.rd then 1 else 0) +
                 (if x.wr then 2 else 0)), bytes := bytesOfNat (min x.size 0x200000) 8 } } := by
  have hit' : SlotHit (ctxUsed c rest j s) (j / 4) { c with sub := j } x iova := hit.used
  have hx (wr : Bool) (hwr : wr = true → x.wr = true) : ioXlat 1 (j / 4) { c with sub := j } iova false wr (ctxUsed c rest j s) =
      (.ok (slotPa x iova), ctxUsed c rest j s) := by
    have hright : (wr && !x.wr) = false := by
      cases wr
      · rfl
      · rw [hwr rfl]
        rfl
    rw [ioXlat_hit hit', show regionOk (ctxUsed c rest j s) (slotPa x iova) .dma = true from hreg, Bool.false_and, Bool.false_or, hright,
      mmioBarred_low hlow, show ownerCode (ctxUsed c rest j s) (slotPa x iova) = 0 from hown]
    simp
  have hfind := hit'.find
  unfold translationRequest
  rw [hk.live, Bool.not_true, if_neg Bool.false_ne_true, findCtx_first j hk.cached hk.named]
  dsimp only
  rw [if_neg (show ¬(!c.ats) = true by rw [hats]; decide), hx false (fun h => Bool.noConfusion h)]
  dsimp only at hfind ⊢
  rw [hfind]
  have hr : (if (Except.toBool (Except.ok (slotPa x iova) : Except IoFault Nat) && Option.any (fun y => y.wr) (some x)) = true then
      ioXlat 1 (j / 4) { c with sub := j } iova false true (ctxUsed c rest j s) else (.ok (slotPa x iova), ctxUsed c rest j s)) =
      (.ok (slotPa x iova), ctxUsed c rest j s) := by
    split
    next h => exact hx true fun _ => by simpa [Except.toBool] using h
    next => rfl
  rw [hr]
  dsimp only
  rw [hfind]
theorem translation_refused {j rid iova : Nat} (hk : Known s j rid c rest) (hats : c.ats = false) (hoff : (reg s 0x4800110).getLsbD 31 = false) :
    (translationRequest j rid iova s).ans.status = 1 ∧ SameBytes s (translationRequest j rid iova s) := by
  unfold translationRequest
  rw [hk.live, Bool.not_true, if_neg Bool.false_ne_true, findCtx_first j hk.cached hk.named]
  dsimp only
  rw [hats, Bool.not_false, if_pos rfl, ioFault_off (s := ctxUsed c rest j s) hoff]
  exact ⟨rfl, fun _ => rfl⟩

/-! ### Messages (R412) -/

theorem dmaRequest_msi {j rid iova : Nat} {bs : List Byte} (hk : Known s j rid c rest) (hsize : dmaSizeOk iova (.write bs) = true)
    (hpage : iova / 4096 * 4096 = msiPage s) : dmaRequest j rid iova (.write bs) false false s = msi { c with sub := j } j iova bs (ctxUsed c rest j s) := by
  unfold dmaRequest
  rw [hk.live, Bool.not_true, if_neg Bool.false_ne_true, if_neg (by simp [hsize]), findCtx_first j hk.cached hk.named]
  dsimp only
  rw [if_pos ⟨hpage, rfl⟩]
/-- A message is a write that a root port takes, to the page of messages. -/
theorem msiMessage_eq {j rid : Nat} {off : BitVec 12} {bs : List Byte} (hk : Known s j rid c rest) (hpage : msiPage s % 4096 = 0) (hpos : 0 < bs.length)
    (hlen : bs.length ≤ 512) (hfit : off.toNat + bs.length ≤ 4096) : dmaRequest j rid (msiPage s + off.toNat) (.write bs) false false s =
      msi { c with sub := j } j (msiPage s + off.toNat) bs (ctxUsed c rest j s) := by
  have hoff := off.isLt
  refine dmaRequest_msi hk ?_ (by omega)
  show (decide (0 < bs.length ∧ (msiPage s + off.toNat) % 4096 + bs.length ≤ 4096) && decide (bs.length ≤ 512)) = true
  rw [decide_eq_true ⟨hpos, by omega⟩, decide_eq_true hlen]
  rfl

/-! ### Page requests (R410) -/

theorem natOfBytes_append (a b : List Byte) : natOfBytes (a ++ b) = natOfBytes a + 256 ^ a.length * natOfBytes b := by
  induction a with
  | nil => simp [natOfBytes]
  | cons x a ih =>
    rw [List.cons_append, natOfBytes, natOfBytes, ih, List.length_cons, Nat.pow_succ]
    ring
/-- A number among the bytes of a vector. -/
theorem fld_vecOfBytes {bs : List Byte} {k n x : Nat} (h : Part bs k (bytesOfNat x n)) (hx : x < 256 ^ n) (hn : 0 < n) (hk : k + n ≤ 64) :
    fld (vecOfBytes bs) (8 * (k + n) - 1) (8 * k) = x := by
  obtain ⟨pre, post, rfl, rfl⟩ := h
  have hpre : natOfBytes pre < 256 ^ pre.length := natOfBytes_lt pre
  have hwidth : 8 * (pre.length + n) - 1 - 8 * pre.length + 1 = 8 * n := by omega
  have hpow (m : Nat) : 2 ^ (8 * m) = 256 ^ m := by rw [Nat.pow_mul]
  rw [fld, vecOfBytes, natBits, BitVec.toNat_ofNat, hwidth, hpow, hpow, natOfBytes_append, natOfBytes_append, natOfBytes_bytesOfNat n x hx,
    length_bytesOfNat]
  have h512 : (2 : Nat) ^ 512 = 256 ^ (pre.length + n) * 256 ^ (64 - (pre.length + n)) := by
    rw [← Nat.pow_add, Nat.add_sub_cancel' hk, ← hpow]
  rw [h512, Nat.pow_add 256 pre.length n, Nat.mul_assoc (256 ^ pre.length), Nat.mod_mul_right_div_self, Nat.mod_mul_right_mod,
    Nat.add_mul_div_left _ _ (Nat.pow_pos (by decide)), Nat.div_eq_of_lt hpre, Nat.zero_add, Nat.add_mul_mod_self_left, Nat.mod_eq_of_lt hx]

/-- The fields of a page-request letter that a posting leaves as they are. -/
theorem iotuLetter_fields {reason rid j access prgi iova : Nat} (hreason : reason < 256) (hrid : rid < 65536) (hj : j < 256) (haccess : access < 256)
    (hprgi : prgi < 65536) (hiova : iova < 2 ^ 64) : let l := iotuLetter s 1 reason rid j access prgi iova
    fld l 71 64 = 1 ∧ fld l 79 72 = reason ∧ fld l 95 80 = rid ∧ fld l 103 96 = j ∧ fld l 111 104 = access ∧ fld l 127 112 = prgi ∧ fld l 191 128 = iova := by
  unfold iotuLetter
  simp only [List.append_assoc]
  refine ⟨fld_vecOfBytes (k := 8) (n := 1) ((Part.here ..).skip _ rfl) (by decide) (by decide) (by decide),
    fld_vecOfBytes (k := 9) (n := 1) (((Part.here ..).skip _ rfl).skip _ rfl) hreason (by decide) (by decide),
    fld_vecOfBytes (k := 10) (n := 2) ((((Part.here ..).skip _ rfl).skip _ rfl).skip _ rfl) hrid (by decide) (by decide),
    fld_vecOfBytes (k := 12) (n := 1) (((((Part.here ..).skip _ rfl).skip _ rfl).skip _ rfl).skip _ rfl) hj (by decide) (by decide),
    fld_vecOfBytes (k := 13) (n := 1) ((((((Part.here ..).skip _ rfl).skip _ rfl).skip _ rfl).skip _ rfl).skip _ rfl) haccess (by decide) (by decide),
    fld_vecOfBytes (k := 14) (n := 2) (((((((Part.here ..).skip _ rfl).skip _ rfl).skip _ rfl).skip _ rfl).skip _ rfl).skip _ rfl) hprgi
      (by decide) (by decide),
    fld_vecOfBytes (k := 16) (n := 8) ((((((((Part.here ..).skip _ rfl).skip _ rfl).skip _ rfl).skip _ rfl).skip _ rfl).skip _ rfl).skip _ rfl) hiova
      (by decide) (by decide)⟩

/-- The stamp of a letter reaches no further than its envelope. -/
theorem fld_stamp (q : Nat) (x : Vec) {hi lo : Nat} (hlo : 64 ≤ lo) (h : lo ≤ hi) : fld (stamp s q x) hi lo = fld x hi lo := by
  unfold stamp
  dsimp only
  split
  · exact fld_putFld_other x _ (by decide) (by decide) h (.inr (by omega))
  · rw [fld_putFld_other _ _ (by decide) (by decide) h (.inr (by omega)), fld_putFld_other x _ (by decide) (by decide) h (.inr (by omega))]
/-- An IOTU letter to a queue that takes it: it stands there, what it says of the request as it was made. -/
theorem postIotu_posted {n q : Nat} (tc : Nat) (x : Vec) (h : TakesLetters s q) (hq : q < 65536) (hnone : sendersOf s (131072 + n) = []) :
    ∃ l, Posted (131072 + n) q l s (postIotu n q tc x s) ∧ ∀ hi lo, 64 ≤ lo → lo ≤ hi → fld (stamp s q l.data) hi lo = fld x hi lo := by
  have hdev : devNum s < 65536 := fld_lt ..
  have hto : (BitVec.ofNat 32 (devNum s * 2 ^ 16 + q)).toNat = devNum s * 2 ^ 16 + q := by
    rw [BitVec.toNat_ofNat]
    omega
  refine ⟨_, posted_serveSender (k := 131072 + n) (dest := BitVec.ofNat 32 (devNum s * 2 ^ 16 + q)) (tc := BitVec.ofNat 2 tc) h hnone ?_ ?_ rfl,
    fun hi lo hlo hle => ?_⟩
  · rw [fld, hto, natBits]
    omega
  · rw [fld, hto, natBits]
    omega
  · rw [fld_stamp q _ hlo hle, fld_putFld_other _ _ (by decide) (by decide) hle (.inr (by omega)),
      fld_putFld_other x _ (by decide) (by decide) hle (.inr (by omega))]

/-- Page-request groups that a root port's sub-ports await responses for. -/
def groupsOut (s : State) (j : Nat) : Nat := ((List.range 4).map fun k => (subOf s (j / 4 * 4 + k)).prgOut.length).foldl (· + ·) 0
theorem pageRequest_posted {j rid iova prgi : Nat} {rd wr last : Bool} (hk : Known s j rid c rest) (hpri : c.pri = true) (hout : groupsOut s j < 512)
    (hnone : sendersOf s (131072 + j / 4) = []) (htakes : TakesLetters s c.priq) (hq : c.priq < 65536) (hrid : rid < 65536) (hj : j < 256)
    (hprgi : prgi < 65536) (hiova : iova < 2 ^ 64) : let t := pageRequest j rid iova rd wr last prgi s
    SameBytes s t ∧ (subOf t j).prgOut = (subOf s j).prgOut ++ [(rid, prgi)] ∧ ∃ l, (queueOf t c.priq).burst = (queueOf s c.priq).burst ++ [l] ∧
      fld l.data 71 64 = 1 ∧ fld l.data 79 72 = 0 ∧ fld l.data 95 80 = rid ∧ fld l.data 103 96 = j ∧
      fld l.data 111 104 = rd.toNat + 2 * wr.toNat + 4 * last.toNat ∧ fld l.data 127 112 = prgi ∧ fld l.data 191 128 = iova / 4096 * 4096 := by
  generalize hs1 : updSub j (fun y => { y with prgOut := y.prgOut ++ [(rid, prgi)] }) (ctxUsed c rest j s) = s1
  have hframe : ∃ p, s1 = { s with pcie := p } := ⟨_, by rw [← hs1]; rfl⟩
  have hsub : subOf s1 j = { subOf s j with prgOut := (subOf s j).prgOut ++ [(rid, prgi)] } := by
    rw [← hs1, subOf_updSub, if_pos rfl]
    rfl
  have hrun : pageRequest j rid iova rd wr last prgi s = postIotu (j / 4) c.priq c.tc (iotuLetter (ctxUsed c rest j s) 1 0 rid j
      ((if rd then 1 else 0) + (if wr then 2 else 0) + (if last then 4 else 0)) prgi (iova / 4096 * 4096)) s1 := by
    unfold pageRequest
    rw [hk.live, Bool.not_true, if_neg Bool.false_ne_true, findCtx_first j hk.cached hk.named]
    dsimp only
    rw [if_neg (show ¬(!c.pri) = true by rw [hpri]; decide),
      if_neg (Nat.not_le.mpr (show ((List.range 4).map fun k => (subOf s (j / 4 * 4 + k)).prgOut.length).foldl (· + ·) 0 < 512 from hout)), hs1]
  obtain ⟨p, hp⟩ := hframe
  have htakes1 : TakesLetters s1 c.priq := by
    rw [hp]
    exact ⟨htakes.running, htakes.awake, htakes.inService, htakes.active, htakes.kind, htakes.unspilled, htakes.room, htakes.uncounted, htakes.silent⟩
  obtain ⟨l, hpost, hfld⟩ := postIotu_posted c.tc (iotuLetter (ctxUsed c rest j s) 1 0 rid j
    ((if rd then 1 else 0) + (if wr then 2 else 0) + (if last then 4 else 0)) prgi (iova / 4096 * 4096)) htakes1 hq (n := j / 4) (by rw [hp]; exact hnone)
  rw [← hrun] at hpost
  intro t
  obtain ⟨qs, sn, cs, cn, f, ht⟩ := hpost.frame
  have haccess : (if rd then 1 else 0) + (if wr then 2 else 0) + (if last then 4 else 0) = rd.toNat + 2 * wr.toNat + 4 * last.toNat := by
    cases rd <;> cases wr <;> cases last <;> rfl
  obtain ⟨h1, h2, h3, h4, h5, h6, h7⟩ := iotuLetter_fields (s := ctxUsed c rest j s) (reason := 0) (rid := rid) (j := j)
    (access := (if rd then 1 else 0) + (if wr then 2 else 0) + (if last then 4 else 0)) (prgi := prgi) (iova := iova / 4096 * 4096) (by decide) hrid hj
    (by cases rd <;> cases wr <;> cases last <;> decide) hprgi (by omega)
  refine ⟨?_, ?_, { l with data := stamp s1 c.priq l.data }, ?_, ?_⟩
  · show SameBytes s (pageRequest j rid iova rd wr last prgi s)
    rw [ht, hp]
    exact fun _ => rfl
  · show (subOf (pageRequest j rid iova rd wr last prgi s) j).prgOut = _
    rw [ht]
    exact congrArg SubPort.prgOut hsub
  · refine hpost.queue.trans ?_
    rw [hp]
    rfl
  · dsimp only
    rw [hfld _ _ (by decide) (by decide), hfld _ _ (by decide) (by decide), hfld _ _ (by decide) (by decide), hfld _ _ (by decide) (by decide),
      hfld _ _ (by decide) (by decide), hfld _ _ (by decide) (by decide), hfld _ _ (by decide) (by decide), ← haccess]
    exact ⟨h1, h2, h3, h4, h5, h6, h7⟩
theorem pageRequest_refused {j rid iova prgi : Nat} {rd wr last : Bool} (hk : Known s j rid c rest) (hno : c.pri = false ∨ 512 ≤ groupsOut s j)
    (hoff : (reg s 0x4800110).getLsbD 31 = false) : let t := pageRequest j rid iova rd wr last prgi s
    t.pcie.subs = s.pcie.subs ∧ t.office = s.office ∧ SameBytes s t := by
  unfold pageRequest
  rw [hk.live, Bool.not_true, if_neg Bool.false_ne_true, findCtx_first j hk.cached hk.named]
  dsimp only
  by_cases hpri : c.pri = true
  · rw [if_neg (show ¬(!c.pri) = true by rw [hpri]; decide),
      if_pos (show 512 ≤ ((List.range 4).map fun k => (subOf s (j / 4 * 4 + k)).prgOut.length).foldl (· + ·) 0 from hno.resolve_left (by simp [hpri])),
      ioFault_off (s := ctxUsed c rest j s) hoff]
    exact ⟨rfl, rfl, fun _ => rfl⟩
  · rw [if_pos (show (!c.pri) = true by simpa using hpri), ioFault_off (s := ctxUsed c rest j s) hoff]
    exact ⟨rfl, rfl, fun _ => rfl⟩

/-! ### Responses to page requests (R410) -/

section
variable (hr : Reaches w 1 0 0x4800130 s) (hrsvd : fld v 27 25 = 0)
include hr
theorem prgResp_orders : Orders (.pciePrgResp w v) w { name := .pciePrgResp, off := 0x4800130, acc := .wo } [] 0x4800130 v s :=
  ⟨findReg_pcie.2.2, rfl, rfl, rfl, by decide, hr⟩
include hrsvd
theorem prgResp_codes (hgood : fld v 31 28 = 0 ∨ fld v 31 28 = 1 ∨ fld v 31 28 = 15) :
    command mcmd w { name := .pciePrgResp, off := 0x4800130, acc := .wo } [] 0x4800130 v s =
      match (List.range 12).find? fun j => subLive s j && (subOf s j).prgOut.contains (fld v 15 0, fld v 24 16) with
      | some j => (0, sendPcie (.prgResp (fld v 15 0) (fld v 24 16) (fld v 31 28))
          (updSub j (fun y => { y with prgOut := y.prgOut.filter fun e => e != (fld v 15 0, fld v 24 16) }) s))
      | none => (0, s) := by
  show pciePrgResp v s = _
  unfold pciePrgResp
  have hcode : firstCode (codeIf (fld v 27 25 != 0) stRsvd ++
      codeIf (fld v 31 28 != 0 && fld v 31 28 != 1 && fld v 31 28 != 15) stRange) = 0 := by
    rw [hrsvd]
    rcases hgood with h | h | h <;> rw [h] <;> decide
  dsimp only
  rw [hcode] <;> rfl
theorem prgResp_refused (hbad : ¬(fld v 31 28 = 0 ∨ fld v 31 28 = 1 ∨ fld v 31 28 = 15)) : Refuses (.pciePrgResp w v) s 3 := by
  refine (prgResp_orders hr).refuses (a := s) ?_ rfl (by decide)
  show pciePrgResp v s = _
  unfold pciePrgResp
  have hcode : firstCode (codeIf (fld v 27 25 != 0) stRsvd ++
      codeIf (fld v 31 28 != 0 && fld v 31 28 != 1 && fld v 31 28 != 15) stRange) = 3 := by
    have hb : (fld v 31 28 != 0 && fld v 31 28 != 1 && fld v 31 28 != 15) = true := by
      simp only [not_or] at hbad
      simpa [and_assoc] using hbad
    rw [hrsvd, hb]
    decide
  dsimp only
  rw [hcode] <;> rfl
end

/-- Settles O49: a request is what its translation makes of it, by the cached context and slot; what it performs is an agent's access to clear bytes. -/
theorem devicesBelowReadWriteAndRaise : Obligations.DevicesBelowReadWriteAndRaise := by
  refine ⟨fun s j rid iova c rest x xs tr op hlive hctx hrid hslots htag hcanon hlo hhi ha hd hmsi => ?requests, fun s j rid op iova rd wr last prgi off bs => ?others,
    fun s w v hr hrsvd => ?responses⟩
  case requests =>
    have hk : Known s j.val rid.toNat c rest := ⟨hlive, hctx, hrid⟩
    have hit : SlotHit s (j.val / 4) c x iova.toNat := ⟨by rw [hslots]; rfl, htag, hcanon, hlo, hhi, ha, hd⟩
    intro n pa i passes
    have hexec (op : DmaOp) (ep : Bool) : exec (.dmaRequest j rid iova op ep tr) s = .next (dmaRequest j.val rid.toNat iova.toNat op ep tr s) := rfl
    refine ⟨?served, ?peers, ?refused, ?unsupported, ?translated, ?untranslated⟩
    case served =>
      rintro ⟨hreg, hown, hlow, hats⟩ hsize hclear
      have hrun (ep : Bool) (hop : op ≠ .unsupported) (hrd : dmaRd op = true → x.rd = true) (hwr : dmaWr op = true → x.wr = true) :=
        dmaRequest_passes (ep := ep) hk hit hop hsize hmsi (tr := tr) (pa := pa) rfl hreg hown (mmioBarred_low hlow _ _) hats hrd hwr
      have hcl : Clear (ctxUsed c rest j.val s) pa n := clear_ctxUsed hclear
      refine ⟨?_, ?_, ?_, ?_⟩
      · rintro k rfl hrd
        refine ⟨_, hexec _ false, ?_⟩
        rw [hrun false (by simp) (fun _ => hrd) (fun h => Bool.noConfusion h)]
        obtain ⟨hans, hb⟩ := dma_reads (c := { c with sub := j.val }) (n := j.val / 4) (ep := false) (s := ctxUsed c rest j.val s) (k := k) hlow hcl
        exact ⟨hans.trans (by rw [readBytes_ctxUsed]), hb⟩
      · rintro bs rfl hwr
        refine ⟨_, hexec _ false, ?_⟩
        rw [hrun false (by simp) (fun h => Bool.noConfusion h) (fun _ => hwr)]
        exact dma_writes (s := ctxUsed c rest j.val s) (bs := bs) hlow hcl
      · rintro bs rfl hwr
        refine ⟨_, hexec _ true, ?_⟩
        rw [hrun true (by simp) (fun h => Bool.noConfusion h) (fun _ => hwr)]
        exact dma_poisons (s := ctxUsed c rest j.val s) (bs := bs) hlow hcl
      · rintro o wide a b rfl hrd hwr -
        refine ⟨_, hexec _ false, ?_⟩
        rw [hrun false (by simp) (fun _ => hrd) (fun _ => hwr)]
        obtain ⟨hans, hheld, hb⟩ := dma_updates (c := { c with sub := j.val }) (n := j.val / 4) (s := ctxUsed c rest j.val s) (o := o) (wide := wide) (a := a)
          (b := b) hlow hcl
        rw [readNat, readBytes_ctxUsed, ← readNat] at hans hheld
        exact ⟨hans, hheld, hb⟩
    case peers =>
      rintro sl off k rfl hsize hplace hreg hown hrd hats hoff
      have hbarred := mmioBarred_window hplace (ctxUsed c rest j.val s) { c with sub := j.val }
      refine ⟨fun hp2p hsl => ?_, fun hno => ?_⟩
      · refine ⟨_, hexec _ false, ?_⟩
        have hbar : mmioBarred s c pa = false := by
          rw [mmioBarred_window hplace, hp2p, hsl]
          simp
        rw [dmaRequest_passes hk hit (by simp) hsize hmsi (tr := tr) (pa := pa) rfl hreg hown hbar (fun _ => hats) (fun _ => hrd) (fun h => Bool.noConfusion h)]
        unfold dmaPerform
        rw [hplace]
        exact ⟨rfl, rfl, fun _ => rfl⟩
      · refine ⟨_, hexec _ false, ?_⟩
        have hbar : mmioBarred (ctxUsed c rest j.val s) { c with sub := j.val } pa = true := by
          rw [hbarred]
          rcases hno with h | h
          · simp [h]
          · rw [show (sl != slotOf (ctxUsed c rest j.val s)) = true from bne_iff_ne.mpr h, Bool.or_true]
        rw [dmaRequest_known hk (by simp) hsize fun _ => hmsi,
          dmaXlat_barred (s := ctxUsed c rest j.val s) hit.used (pa := pa) rfl hreg hrd hats hbar]
        dsimp only
        obtain ⟨hst, -, hp, hb⟩ := dmaRefuse_off (s := ctxUsed c rest j.val s) hoff j.val rid.toNat c.tc { kind := 4 } (.read k) tr iova.toNat
        exact ⟨hst rfl, show _ = (ctxUsed c rest j.val s).pcie.sent by rw [hp], hb⟩
    case refused =>
      rintro rfl hreg hoff
      have hrefused (op : DmaOp) (hop : op ≠ .unsupported) (hsize : dmaSizeOk iova.toNat op = true)
          (hrights : ((dmaRd op && !x.rd) || (dmaWr op && !x.wr)) = true) :
          dmaRequest j.val rid.toNat iova.toNat op false false s =
            dmaRefuse j.val rid.toNat c.tc { kind := 2, reason := 9 } op false iova.toNat (ctxUsed c rest j.val s) := by
        rw [dmaRequest_known hk hop hsize fun _ => hmsi, dmaXlat_rights (s := ctxUsed c rest j.val s) hit.used hreg hrights]
      refine ⟨fun bs hop hsize hwr => ?_, fun k hop hsize hrd => ?_⟩
      · subst hop
        refine ⟨_, hexec _ false, ?_⟩
        rw [hrefused _ (by simp) hsize (by simp [dmaRd, dmaWr, hwr])]
        obtain ⟨-, hans, -, hb⟩ := dmaRefuse_off (s := ctxUsed c rest j.val s) hoff j.val rid.toNat c.tc { kind := 2, reason := 9 } (.write bs) false iova.toNat
        exact ⟨hans rfl, hb⟩
      · subst hop
        refine ⟨_, hexec _ false, ?_⟩
        rw [hrefused _ (by simp) hsize (by simp [dmaRd, dmaWr, hrd])]
        obtain ⟨hst, -, -, hb⟩ := dmaRefuse_off (s := ctxUsed c rest j.val s) hoff j.val rid.toNat c.tc { kind := 2, reason := 9 } (.read k) false iova.toNat
        exact ⟨hst rfl, hb⟩
    case unsupported =>
      refine ⟨_, hexec _ false, ?_⟩
      rw [dmaRequest_unsupported hlive]
      exact ⟨rfl, rfl⟩
    case translated =>
      intro hreg hown hlow hats
      have hrun := translation_answered hk hit hats hreg hown hlow
      refine ⟨translationRequest j.val rid.toNat iova.toNat s, rfl, ?_⟩
      rw [hrun]
      have hr : (if x.rd then 1 else 0) + (if x.wr then 2 else 0) = x.rd.toNat + 2 * x.wr.toNat := by cases x.rd <;> cases x.wr <;> rfl
      refine ⟨rfl, ?_, rfl, fun _ => rfl⟩
      show BitVec.ofNat 64 _ = _
      rw [Nat.add_assoc, hr, ← Nat.add_assoc]
      rfl
    case untranslated =>
      exact fun hats hoff => ⟨translationRequest j.val rid.toNat iova.toNat s, rfl, translation_refused hk hats hoff⟩
  case others =>
    refine ⟨fun hdead => ⟨fun tr => ?_, ?_, ?_, ?_⟩, fun c rest hlive hctx hrid => ?_⟩
    · show (.next (dmaRequest j.val rid.toNat iova.toNat op false tr s) : Out) = _
      rw [show dmaRequest j.val rid.toNat iova.toNat op false tr s = s by unfold dmaRequest; rw [hdead]; rfl]
    · show (.next (translationRequest j.val rid.toNat iova.toNat s) : Out) = _
      rw [translationRequest, hdead]
      rfl
    · show (.next (pageRequest j.val rid.toNat iova.toNat rd wr last prgi.toNat s) : Out) = _
      rw [pageRequest, hdead]
      rfl
    · show (.next (dmaRequest j.val rid.toNat (msiPage s + off.toNat) (.write bs) false false s) : Out) = _
      rw [dmaRequest, hdead]
      rfl
    · have hk : Known s j.val rid.toNat c rest := ⟨hlive, hctx, hrid⟩
      intro v ok
      refine ⟨fun hpage hpos hlen hfit => ?_, ?_⟩
      · have hrun := msiMessage_eq (off := off) hk hpage hpos hlen hfit
        have hexec : exec (.msiMessage j rid off bs) s = .next (dmaRequest j.val rid.toNat (msiPage s + off.toNat) (.write bs) false false s) := rfl
        refine ⟨fun hok => ⟨_, hexec, ?_⟩, fun hok hoff => ⟨_, hexec, ?_⟩⟩
        · rw [hrun, show msi { c with sub := j.val } j.val _ bs (ctxUsed c rest j.val s) = raiseMsg v (ctxUsed c rest j.val s) from if_pos hok]
          exact ⟨fun n => smGet_smPut .., fun _ => rfl⟩
        · rw [hrun, show msi { c with sub := j.val } j.val (msiPage s + off.toNat) bs (ctxUsed c rest j.val s) =
            ioFault j.val c.rid c.tc { kind := 3 } 2 0 (msiPage s + off.toNat) (bump (pcieReg 0x228) (ctxUsed c rest j.val s)) from if_neg hok,
          ioFault_off (s := bump (pcieReg 0x228) (ctxUsed c rest j.val s)) hoff]
          exact ⟨rfl, fun _ => rfl⟩
      · intro out q y
        have hexec : exec (.pageRequest j rid iova rd wr last prgi) s = .next (pageRequest j.val rid.toNat iova.toNat rd wr last prgi.toNat s) := rfl
        refine ⟨fun hpri hout hnone h1 h2 hq h3 h4 h5 h6 h7 h8 h9 => ⟨_, hexec, ?_⟩, fun hno hoff => ⟨_, hexec, pageRequest_refused hk hno hoff⟩⟩
        exact pageRequest_posted hk hpri hout hnone ⟨h1, h2, h3, h4, h5, h6, h7, h8, h9⟩ hq rid.isLt (by omega) (by omega) iova.isLt
  case responses =>
    intro g code good
    have ho := prgResp_orders (v := v) hr
    refine ⟨prgResp_refused hr hrsvd, fun hgood hnone => ?_, fun j hj hgood hlive hmem hfirst => ?_⟩
    · have hc := prgResp_codes hr hrsvd hgood
      have hfind : ((List.range 12).find? fun j => subLive s j && (subOf s j).prgOut.contains (fld v 15 0, fld v 24 16)) = none := by
        rw [List.find?_eq_none]
        intro k hk
        have := hnone k (List.mem_range.mp hk)
        simpa using fun _ => this
      rw [hfind] at hc
      exact ho.commands hc rfl
    · have hc := prgResp_codes hr hrsvd hgood
      have hfind : ((List.range 12).find? fun j => subLive s j && (subOf s j).prgOut.contains (fld v 15 0, fld v 24 16)) = some j := by
        rw [List.find?_range_eq_some]
        refine ⟨by simpa [hlive] using hmem, List.mem_range.mpr hj, fun k hk => ?_⟩
        simpa using Or.inr (hfirst k hk)
      rw [hfind] at hc
      refine ho.commands hc ⟨rfl, ?_, fun k hk => ?_, fun _ => rfl⟩
      · exact (congrArg SubPort.prgOut ((subOf_updSub j j (fun y => { y with prgOut := y.prgOut.filter fun e => e != (fld v 15 0, fld v 24 16) }) s).trans
          (if_pos rfl)) :)
      · exact (subOf_updSub j k (fun y => { y with prgOut := y.prgOut.filter fun e => e != (fld v 15 0, fld v 24 16) }) s).trans (if_neg hk)

end Sys2Proof.Machine
end

section
/-! What the trace ring, the counters and an agent's accesses leave of a core (23 R562 to R567): trace moves its own head alone, and what passes for
a counter is in the counters' own CSRs. -/

namespace Sys2Proof.Machine
variable {s t u : State}

/-! ### An agent's accesses -/

/-- The cores, the register words and the debug unit are the same. -/
def SameWatch (s t : State) : Prop := t.cores = s.cores ∧ t.ctl.regs = s.ctl.regs ∧ t.dbg = s.dbg
namespace SameWatch
theorem refl (s : State) : SameWatch s s := ⟨rfl, rfl, rfl⟩
theorem trans (h : SameWatch s t) (h' : SameWatch t u) : SameWatch s u := ⟨h'.1.trans h.1, h'.2.1.trans h.2.1, h'.2.2.trans h.2.2⟩
theorem of_beside (h : beside t = beside s) : SameWatch s t :=
  ⟨(congrArg State.cores h :), (congrArg (fun x : State => x.ctl.regs) h :), (congrArg State.dbg h :)⟩
theorem of_log (h : LogNow s t) : SameWatch s t := by
  obtain ⟨_, _, _, rfl⟩ := h
  exact ⟨rfl, rfl, rfl⟩
theorem of_metered (h : Metered s t) : SameWatch s t := by
  obtain ⟨_, _, rfl⟩ := h
  exact ⟨rfl, rfl, rfl⟩
theorem of_accessed (h : Accessed s t) : SameWatch s t := by
  obtain ⟨_, _, _, _, _, _, rfl, -, -⟩ := h
  exact ⟨rfl, rfl, rfl⟩
theorem foldl {α : Type} (f : State → α → State) (hf : ∀ a x, SameWatch a (f a x)) (l : List α) (s : State) : SameWatch s (l.foldl f s) := by
  induction l generalizing s with
  | nil => exact .refl s
  | cons x l ih => exact (hf s x).trans (ih _)
theorem coreOf_eq (h : SameWatch s t) (n : Nat) : coreOf t n = coreOf s n := by rw [coreOf, h.1]; rfl
theorem reg_eq (h : SameWatch s t) (o : Nat) : reg t o = reg s o := by rw [reg, h.2.1]; rfl
theorem reg64_eq (h : SameWatch s t) (o : Nat) : reg64 t o = reg64 s o := by rw [reg64, reg64, h.reg_eq, h.reg_eq]
end SameWatch
theorem sameWatch_noteFenced (line : Nat) (s : State) : SameWatch s (noteFenced line s) := by
  unfold noteFenced
  split
  · split
    · exact .of_log (logNow_logFencedOnce _)
    · exact .refl s
  · exact .refl s
theorem sameWatch_agentWriteLine (tc pa : Nat) (bs : List Byte) (s : State) : SameWatch s (agentWriteLine tc pa bs s) := by
  unfold agentWriteLine
  split
  · split
    · exact sameWatch_noteFenced ..
    · split <;> exact .of_beside (beside_request ..)
  · split <;> exact ⟨rfl, rfl, rfl⟩
theorem sameWatch_agentWrite (tc pa : Nat) (bs : List Byte) (s : State) : SameWatch s (agentWrite tc pa bs s) :=
  .foldl _ (fun _ _ => sameWatch_agentWriteLine ..) _ s

/-! ### The trace ring (R562, R563) -/

/-- Trace has gone on: the ring's head and what it owes may have moved, no core, no register word and nothing else of the debug unit. -/
def Traced (s t : State) : Prop := t.cores = s.cores ∧ t.ctl.regs = s.ctl.regs ∧ ∃ h o, t.dbg = { s.dbg with trHead := h, trOwed := o }
namespace Traced
theorem refl (s : State) : Traced s s := ⟨rfl, rfl, _, _, rfl⟩
theorem trans (h : Traced s t) (h' : Traced t u) : Traced s u := by
  obtain ⟨hc, hr, a, b, hd⟩ := h
  obtain ⟨hc', hr', a', b', hd'⟩ := h'
  exact ⟨hc'.trans hc, hr'.trans hr, a', b', by rw [hd', hd]⟩
theorem of_watch (h : SameWatch s t) : Traced s t := ⟨h.1, h.2.1, s.dbg.trHead, s.dbg.trOwed, h.2.2⟩
theorem coreOf_eq (h : Traced s t) (n : Nat) : coreOf t n = coreOf s n := by rw [coreOf, h.1]; rfl
theorem reg_eq (h : Traced s t) (o : Nat) : reg t o = reg s o := by rw [reg, h.2.1]; rfl
end Traced
theorem traced_putPacket (bs : List Byte) (s : State) : Traced s (putPacket bs s) := by
  obtain ⟨hc, hr, hd⟩ := sameWatch_agentWrite 3 (traceBase s + s.dbg.trHead % traceSize s * 32) bs s
  unfold putPacket
  dsimp only
  generalize agentWrite 3 (traceBase s + s.dbg.trHead % traceSize s * 32) bs s = s1 at hc hr hd
  refine ⟨hc, hr, (s1.dbg.trHead + 1) % 2 ^ 32, s1.dbg.trOwed, ?_⟩
  rw [← hd]
  rfl
theorem traced_emit (kind port : Nat) (lcore : Option Nat) (data arg : Nat) (s : State) : Traced s (emit kind port lcore data arg s) := by
  have hdrop (a : State) : Traced a (bump (dbgReg 0x2518) (setDbg (fun d => { d with trOwed := d.trOwed + 1 }) a)) := ⟨rfl, rfl, _, _, rfl⟩
  have hput (bs : List Byte) (a : State) : Traced a (putPacket bs a) := traced_putPacket bs a
  have hpaid (bs : List Byte) (a : State) : Traced a (setDbg (fun d => { d with trOwed := 0 }) (putPacket bs a)) :=
    (hput bs a).trans ⟨rfl, rfl, (putPacket bs a).dbg.trHead, 0, rfl⟩
  unfold emit
  extract_lets drop s1
  split_ifs
  · exact .refl s
  · exact hdrop s
  · exact hput ..
  · exact (hpaid ..).trans (hdrop _)
  · exact (hpaid ..).trans (hput ..)
theorem traced_emitHalt (kind lc data : Nat) (s : State) : Traced s (emitHalt kind lc data s) := by
  unfold emitHalt
  split
  · exact traced_emit ..
  · exact .refl s
/-- Trace that asks for no HALT and RESUME packets. -/
theorem emitHalt_off (h : (reg s 0x500240C).getLsbD 1 = false) (kind lc data : Nat) : emitHalt kind lc data s = s := by
  unfold emitHalt
  rw [show (reg s (dbgReg 0x240C)).getLsbD 1 = false from h, if_neg Bool.false_ne_true]
theorem noteHalts_eq (s : State) : ∃ b, noteHalts s = { s with time := { s.time with tbOff := b } } := ⟨_, rfl⟩

/-! ### Counters (R564 to R567) -/

/-- The CSRs of the counters, of their wraps and of the sample buffer. -/
def IsCounterCsr (n : Nat) : Prop := 0x500 ≤ n ∧ n ≤ 0x508 ∨ n = 0x520 ∨ n = 0x540 ∨ n = 0x542
/-- Cycles and events have passed for core `lc`: its counters' CSRs alone have changed, memory only where the sample buffer is on, nothing at all
where the counters are frozen. -/
structure Ticked (lc : Nat) (s t : State) : Prop where
  core : coreOf t lc = { coreOf s lc with regs := { (coreOf s lc).regs with csr := (coreOf t lc).regs.csr } }
  others : ∀ n, n ≠ lc → coreOf t n = coreOf s n
  csrs : ∀ n, ¬IsCounterCsr n → csr (coreOf t lc).regs n = csr (coreOf s lc).regs n
  sampling : (csr (coreOf s lc).regs 0x540).getLsbD 31 = false → (csr (coreOf t lc).regs 0x540).getLsbD 31 = false ∧ SameBytes s t
  regs : t.ctl.regs = s.ctl.regs
  dbg : t.dbg = s.dbg
namespace Ticked
variable {lc : Nat}
theorem refl (lc : Nat) (s : State) : Ticked lc s s := ⟨rfl, fun _ _ => rfl, fun _ _ => rfl, fun h => ⟨h, fun _ => rfl⟩, rfl, rfl⟩
theorem trans (h : Ticked lc s t) (h' : Ticked lc t u) : Ticked lc s u where
  core := by rw [h'.core, h.core]
  others n hn := (h'.others n hn).trans (h.others n hn)
  csrs n hn := (h'.csrs n hn).trans (h.csrs n hn)
  sampling hoff := by
    obtain ⟨hoff1, hb⟩ := h.sampling hoff
    obtain ⟨hoff2, hb'⟩ := h'.sampling hoff1
    exact ⟨hoff2, fun a => (hb' a).trans (hb a)⟩
  regs := h'.regs.trans h.regs
  dbg := h'.dbg.trans h.dbg
theorem ite {c : Prop} [Decidable c] (lc : Nat) (h : Ticked lc s t) (h' : Ticked lc s u) : Ticked lc s (if c then t else u) := by
  split
  · exact h
  · exact h'
/-- A step that no core, no register word, no byte and nothing of the debug unit sees. -/
theorem of_quiet (lc : Nat) (hc : t.cores = s.cores) (hr : t.ctl.regs = s.ctl.regs) (hd : t.dbg = s.dbg) (hb : SameBytes s t) : Ticked lc s t := by
  have hcore (n : Nat) : coreOf t n = coreOf s n := by rw [coreOf, hc]; rfl
  exact ⟨by rw [hcore], fun n _ => hcore n, fun n _ => by rw [hcore], fun h => ⟨by rwa [hcore], hb⟩, hr, hd⟩
/-- Writes of CSRs of the counters; the sample buffer is not turned on by them. -/
theorem of_updRegs (lc : Nat) (f : Regs → Regs) (hf : ∀ q, f q = { q with csr := (f q).csr }) (hcsr : ∀ q n, ¬IsCounterCsr n → csr (f q) n = csr q n)
    (hoff : (csr (coreOf s lc).regs 0x540).getLsbD 31 = false → (csr (f (coreOf s lc).regs) 0x540).getLsbD 31 = false) : Ticked lc s (updRegs lc f s) where
  core := by
    rw [updRegs, coreOf_updCore_same]
    exact congrArg (fun r => ({ coreOf s lc with regs := r } : Core)) (hf _)
  others k hk := by simp [updRegs, hk, coreOf_updCore_other]
  csrs k hk := by
    rw [updRegs, coreOf_updCore_same]
    exact hcsr _ k hk
  sampling h := ⟨by rw [updRegs, coreOf_updCore_same]; exact hoff h, fun _ => rfl⟩
  regs := rfl
  dbg := rfl
/-- A write of one CSR of the counters but the control of the sample buffer. -/
theorem of_setCsr (lc : Nat) {n : Nat} (hn : IsCounterCsr n) (h540 : n ≠ 0x540) (g : Regs → Word64) : Ticked lc s (updRegs lc (fun q => setCsr q n (g q)) s) := by
  refine of_updRegs lc _ (fun q => rfl) (fun q k hk => ?_) fun h => ?_
  · rw [csr_setCsr, if_neg (by rintro rfl; exact hk hn)]
  · rwa [csr_setCsr, if_neg (Ne.symm h540)]
/-- The control of the sample buffer, its buffer left off where it was. -/
theorem of_control (lc : Nat) {w : Word64} (hw : (csr (coreOf s lc).regs 0x540).getLsbD 31 = false → w.getLsbD 31 = false) :
    Ticked lc s (updRegs lc (fun q => setCsr q 0x540 w) s) := by
  refine of_updRegs lc _ (fun q => rfl) (fun q k hk => ?_) fun h => ?_
  · rw [csr_setCsr, if_neg (by rintro rfl; exact hk (by unfold IsCounterCsr; omega))]
  · rw [csr_setCsr_same]
    exact hw h
end Ticked
theorem ticked_pmRaise (lc : Nat) (s : State) : Ticked lc s (pmRaise lc s) := by
  unfold pmRaise
  dsimp only
  split
  · exact .of_quiet lc rfl rfl rfl fun _ => rfl
  · exact .refl lc s
/-- Two CSRs of the counters, neither the control of the sample buffer. -/
theorem ticked_pair (lc : Nat) {m n : Nat} (hm : IsCounterCsr m) (hm' : m ≠ 0x540) (hn : IsCounterCsr n) (hn' : n ≠ 0x540) (g h : Regs → Word64) (s : State) :
    Ticked lc s (updRegs lc (fun q => setCsr (setCsr q m (g q)) n (h q)) s) := by
  refine .of_updRegs lc _ (fun q => rfl) (fun q k hk => ?_) fun hoff => ?_
  · rw [csr_setCsr, csr_setCsr, if_neg (by rintro rfl; exact hk hn), if_neg (by rintro rfl; exact hk hm)]
  · rwa [csr_setCsr, csr_setCsr, if_neg (Ne.symm hn'), if_neg (Ne.symm hm')]
theorem isCounter_cyc : IsCounterCsr 0x500 := .inl ⟨by decide, by decide⟩
theorem isCounter_wraps : IsCounterCsr 0x520 := .inr (.inl rfl)
theorem isCounter_head : IsCounterCsr 0x542 := .inr (.inr (.inr rfl))
theorem isCounter_of {i : Nat} (hi : i < 9) : IsCounterCsr (if i = 8 then 0x500 else 0x501 + i) := by
  unfold IsCounterCsr
  split <;> omega
theorem counter_ne {i n : Nat} (hi : i < 9) (hn : 0x508 < n) : (if i = 8 then 0x500 else 0x501 + i) ≠ n := by
  split <;> omega
theorem ticked_cycTick (lc : Nat) (s : State) : Ticked lc s (cycTick lc s) := by
  have hdraw : Ticked lc s (drawCount s).2 := .of_quiet lc rfl rfl rfl fun _ => rfl
  unfold cycTick
  dsimp only
  split
  · split
    · exact hdraw.trans (.of_setCsr lc isCounter_cyc (by decide) _)
    · exact (hdraw.trans (ticked_pair lc isCounter_cyc (by decide) isCounter_wraps (by decide) _ _ _)).trans (ticked_pmRaise ..)
  · exact .refl lc s
/-- A write of the sample buffer, which is on. -/
theorem Ticked.watched {lc : Nat} (hon : (csr (coreOf s lc).regs 0x540).getLsbD 31 = true) (h : Ticked lc s t) (hw : SameWatch t u) : Ticked lc s u where
  core := by rw [hw.coreOf_eq, h.core]
  others n hn := by rw [hw.coreOf_eq, h.others n hn]
  csrs n hn := by rw [hw.coreOf_eq, h.csrs n hn]
  sampling hoff := absurd hon (by rw [hoff]; decide)
  regs := hw.2.1.trans h.regs
  dbg := hw.2.2.trans h.dbg
theorem ticked_sample (lc : Nat) (e : PmEvent) (s : State) : Ticked lc s (sample lc e s) := by
  cases hon : (csr (coreOf s lc).regs 0x540).getLsbD 31 with
  | false =>
    unfold sample
    dsimp only
    rw [hon, Bool.not_false, if_pos rfl]
    exact .refl lc s
  | true =>
    have hctl (w : Word64) : Ticked lc s (updRegs lc (fun q => setCsr q 0x540 w) s) := .of_control lc fun h => absurd hon (by rw [h]; decide)
    unfold sample
    dsimp only
    rw [hon, Bool.not_true, if_neg Bool.false_ne_true]
    split
    · split
      · exact hctl _
      · exact (hctl _).trans (ticked_pmRaise ..)
    · refine .ite _ ?_ (hctl _)
      · have hwrote (a : State) (pa : Nat) (bs : List Byte) (rs : List Nat) : SameWatch a (inject lc 3 1 rs (agentWrite 3 pa bs a)) :=
          (sameWatch_agentWrite 3 pa bs a).trans (.of_metered (metered_inject ..))
        have htick : Ticked lc s (drawBytes 4 (cycTick lc s)).2 := (ticked_cycTick lc s).trans (.of_quiet lc rfl rfl rfl fun _ => rfl)
        exact (htick.watched hon (hwrote ..)).trans (.of_setCsr lc isCounter_head (by decide) _)
theorem ticked_pmWrap (lc : Nat) {i : Nat} (hi : i < 9) (excess : Nat) (e : PmEvent) (s : State) : Ticked lc s (pmWrap lc i excess e s) := by
  unfold pmWrap
  extract_lets r sel plog value off s1 s2
  have h1 : Ticked lc s s1 := ticked_pair lc (isCounter_of hi) (counter_ne hi (by decide)) isCounter_wraps (by decide) (fun _ => BitVec.ofNat 64 value)
    (fun q => csr q 0x520 ||| BitVec.ofNat 64 (2 ^ i)) s
  have h2 : Ticked lc s s2 := by
    simp only [s2]
    split
    · exact h1.trans (ticked_sample lc e s1)
    · exact h1
  split
  · exact h2.trans (ticked_pmRaise lc s2)
  · exact h2
theorem ticked_pmAdd (lc : Nat) {i : Nat} (hi : i < 9) (e : PmEvent) (s : State) : Ticked lc s (pmAdd lc i e s) := by
  unfold pmAdd
  extract_lets off n
  split
  · exact .of_setCsr lc (isCounter_of hi) (counter_ne hi (by decide)) fun _ => BitVec.ofNat 64 n
  · exact ticked_pmWrap lc hi _ e s
theorem ticked_pmTick (lc : Nat) {i : Nat} (hi : i < 9) (s : State) : Ticked lc s (pmTick lc i s) := by
  have hdraw : Ticked lc s (drawCount s).2 := .of_quiet lc rfl rfl rfl fun _ => rfl
  unfold pmTick
  dsimp only
  split
  · exact ticked_cycTick lc s
  · split
    · exact hdraw.trans (ticked_pmAdd lc hi _ _)
    · exact .refl lc s
theorem ticked_pmTickAll (lc : Nat) (s : State) : Ticked lc s (pmTickAll lc s) := by
  have key (l : List Nat) (hl : ∀ i ∈ l, i < 9) : ∀ a : State, Ticked lc a (l.foldl (fun a i => pmTick lc i a) a) := by
    induction l with
    | nil => exact .refl lc
    | cons i l ih =>
      intro a
      exact (ticked_pmTick lc (hl i List.mem_cons_self) a).trans (ih (fun j hj => hl j (List.mem_cons_of_mem _ hj)) _)
  exact key (List.range 9) (fun i hi => List.mem_range.mp hi) s
end Sys2Proof.Machine
end

section
/-! The attachment, its authorisation and the halts (23 R547 to R554; 19 R475): each command's outcome by the state of the attachment or of the core. -/

namespace Sys2Proof.Machine
-- One declaration after another: each `decide +kernel` waits for the kernel's turn, and many at once would hold a thread each.
set_option Elab.async false

variable {s t u : State} {w : Writer} {v : Word32} {lc : Nat}

/-! ### The rows (23) -/

def attachRow : RegDesc := { name := .dbgAttach, off := 0x5000004, acc := .wo }
def authReqRow : RegDesc := { name := .dbgAuthReq, off := 0x5000010, acc := .wo, bits := 0xffff0003 }
def authSubmitRow : RegDesc := { name := .dbgAuthSubmit, off := 0x5000060, acc := .wo, bits := 0xf0000001 }
def lcCmdRow : RegDesc := { name := .dbgLcCmd, off := 0x5000104, dims := [(0x10, 512)], acc := .wo, bits := 0xf0000000, byLc := true, dbgR := 2, dbgW := 2 }
def haltallRow : RegDesc := { name := .dbgHaltall, off := 0x5002100, acc := .wo, bits := 0xf0000000, dbgR := 2, dbgW := 2 }
def rcmdRow : RegDesc := { name := .dbgRcmd, off := 0x5002204, acc := .wo, bits := 0xf0000000, dbgR := 1, dbgW := 1 }
def mcmdRow : RegDesc := { name := .dbgMcmd, off := 0x5002308, acc := .wo, bits := 0xf0000101, dbgR := 1, dbgW := 1 }
def stimRow : RegDesc := { name := .dbgStim, off := 0x5010000, dims := [(0x4, 256)], acc := .wo }
theorem findReg_dbg : findReg 0x5000004 = some (attachRow, []) ∧ findReg 0x5000010 = some (authReqRow, []) ∧
    findReg 0x5000060 = some (authSubmitRow, []) ∧ findReg 0x5002100 = some (haltallRow, []) ∧ findReg 0x5002204 = some (rcmdRow, []) ∧
    findReg 0x5002308 = some (mcmdRow, []) := by decide +kernel
theorem findReg_lcCmd : ∀ n : Fin 512, findReg (0x5000104 + 16 * n.val) = some (lcCmdRow, [n.val]) := by decide +kernel
theorem findReg_stim : ∀ p : Fin 256, findReg (0x5010000 + 4 * p.val) = some (stimRow, [p.val]) := by decide +kernel

theorem fld_withOp (op : Nat) (h : op < 16) : fld (withOp op v) 31 28 = op := by
  unfold withOp
  rw [fld_putFld_same _ _ (by decide) (by decide)]
  exact Nat.mod_eq_of_lt h
theorem fld_withOp_low (op : Nat) {hi lo : Nat} (hle : lo ≤ hi) (hlt : hi < 28) : fld (withOp op v) hi lo = fld v hi lo :=
  fld_putFld_other v op (by decide) (by decide) hle (.inl hlt)

/-! ### Halts (R550 to R554) -/

/-- Halted cores may have been resumed: registers stand, no core halts, no step is armed that was not, and of the debug unit only trace has gone on. -/
structure Resumed (s t : State) : Prop where
  regs : t.ctl.regs = s.ctl.regs
  dbg : ∃ h o, t.dbg = { s.dbg with trHead := h, trOwed := o }
  kept : ∀ n, (coreOf t n).regs = (coreOf s n).regs
  runs : ∀ n, (coreOf s n).standing ≠ .halted → (coreOf t n).standing ≠ .halted
  unarmed : ∀ n, (coreOf s n).stepReq = false → (coreOf t n).stepReq = false
namespace Resumed
theorem refl (s : State) : Resumed s s := ⟨rfl, ⟨_, _, rfl⟩, fun _ => rfl, fun _ h => h, fun _ h => h⟩
theorem trans (h : Resumed s t) (h' : Resumed t u) : Resumed s u where
  regs := h'.regs.trans h.regs
  dbg := by
    obtain ⟨a, b, hd⟩ := h.dbg
    obtain ⟨a', b', hd'⟩ := h'.dbg
    exact ⟨a', b', by rw [hd', hd]⟩
  kept n := (h'.kept n).trans (h.kept n)
  runs n hn := h'.runs n (h.runs n hn)
  unarmed n hn := h'.unarmed n (h.unarmed n hn)
theorem of_traced (h : Traced s t) : Resumed s t :=
  ⟨h.2.1, h.2.2, fun n => by rw [h.coreOf_eq], fun n hn => by rwa [h.coreOf_eq], fun n hn => by rwa [h.coreOf_eq]⟩
theorem of_updCore (f : Core → Core) (hr : (f (coreOf s lc)).regs = (coreOf s lc).regs)
    (hh : (coreOf s lc).standing ≠ .halted → (f (coreOf s lc)).standing ≠ .halted)
    (hs : (coreOf s lc).stepReq = false → (f (coreOf s lc)).stepReq = false) : Resumed s (updCore lc f s) := by
  refine ⟨rfl, ⟨_, _, rfl⟩, fun n => ?_, fun n hn => ?_, fun n hn => ?_⟩ <;> rcases eq_or_ne n lc with rfl | hne
  · rw [coreOf_updCore_same, hr]
  · rw [coreOf_updCore_other s f hne]
  · rw [coreOf_updCore_same]
    exact hh hn
  · rwa [coreOf_updCore_other s f hne]
  · rw [coreOf_updCore_same]
    exact hs hn
  · rwa [coreOf_updCore_other s f hne]
/-- Along a fold what each step makes of its core stands at the end. -/
theorem foldl {f : State → Nat → State} {P : Core → Prop} (hf : ∀ a n, Resumed a (f a n)) (hat : ∀ a n, P (coreOf (f a n) n))
    (hkeep : ∀ a m n, P (coreOf a n) → P (coreOf (f a m) n)) (l : List Nat) (s : State) :
    Resumed s (l.foldl f s) ∧ ∀ n ∈ l, P (coreOf (l.foldl f s) n) := by
  have hstill (l : List Nat) : ∀ a n, P (coreOf a n) → P (coreOf (l.foldl f a) n) := by
    induction l with
    | nil => exact fun a n h => h
    | cons m l ih => exact fun a n h => ih _ n (hkeep a m n h)
  induction l generalizing s with
  | nil => exact ⟨.refl s, fun n hn => absurd hn List.not_mem_nil⟩
  | cons m l ih =>
    rw [List.foldl_cons]
    obtain ⟨hr, hp⟩ := ih (f s m)
    refine ⟨(hf s m).trans hr, fun n hn => ?_⟩
    rcases List.mem_cons.mp hn with rfl | hn
    · exact hstill l _ _ (hat s _)
    · exact hp n hn
end Resumed

/-- The core that runs again (R552; 07 R181). -/
def resumed (step : Bool) (c : Core) : Core :=
  { c with standing := if c.vecStop then .stopped else .issuing, stepReq := step, haltReq := false,
           skipOnce := c.skipOnce || (c.haltCause &&& 12) != 0, haltCause := 0, resuming := true }
theorem resumed_runs (step : Bool) (c : Core) : (resumed step c).standing ≠ .halted := by
  unfold resumed
  dsimp only
  split <;> decide
theorem resumeCore_eq (lc : Nat) (step : Bool) (s : State) : ∃ b, resumeCore lc step s =
    { updCore lc (resumed step) (emitHalt 5 lc 0 s) with time := { (emitHalt 5 lc 0 s).time with tbOff := b } } := noteHalts_eq _
theorem resumed_resumeCore (lc : Nat) (s : State) : Resumed s (resumeCore lc false s) ∧ (coreOf (resumeCore lc false s) lc).standing ≠ .halted := by
  obtain ⟨b, hb⟩ := resumeCore_eq lc false s
  have htr : Resumed s (emitHalt 5 lc 0 s) := .of_traced (traced_emitHalt ..)
  have hup : Resumed (emitHalt 5 lc 0 s) (updCore lc (resumed false) (emitHalt 5 lc 0 s)) :=
    .of_updCore (resumed false) rfl (fun _ => resumed_runs false _) fun _ => rfl
  have htime : Resumed (updCore lc (resumed false) (emitHalt 5 lc 0 s)) (resumeCore lc false s) := by
    rw [hb]
    exact ⟨rfl, ⟨_, _, rfl⟩, fun _ => rfl, fun _ h => h, fun _ h => h⟩
  refine ⟨(htr.trans hup).trans htime, htime.runs lc ?_⟩
  rw [coreOf_updCore_same]
  exact resumed_runs false _
theorem resumed_resumeHalted (s : State) (lc : Nat) : Resumed s (resumeHalted s lc) ∧ (coreOf (resumeHalted s lc) lc).standing ≠ .halted := by
  unfold resumeHalted
  split
  · exact resumed_resumeCore lc s
  · exact ⟨.refl s, ‹_›⟩
theorem resumeAll_spec (s : State) : Resumed s ((boundCores s).foldl resumeHalted s) ∧
    ∀ n, n < s.resil.bound → (coreOf ((boundCores s).foldl resumeHalted s) n).standing ≠ .halted := by
  obtain ⟨hr, hp⟩ := Resumed.foldl (P := fun c => c.standing ≠ .halted) (fun a n => (resumed_resumeHalted a n).1) (fun a n => (resumed_resumeHalted a n).2)
    (fun a m n h => (resumed_resumeHalted a m).1.runs n h) (boundCores s) s
  exact ⟨hr, fun n hn => hp n (List.mem_range.mpr hn)⟩

/-- A core asked to halt with all others, where it has not halted. -/
def haltedAll (c : Core) : Core := if c.standing = .halted then c else { c with haltReq := true, haltCause := c.haltCause ||| 1 }
theorem haltedAll_twice (c : Core) : haltedAll (haltedAll c) = haltedAll c := by
  unfold haltedAll
  by_cases h : c.standing = .halted
  · rw [if_pos h, if_pos h]
  · rw [if_neg h]
    dsimp only
    rw [if_neg h, BitVec.or_assoc, BitVec.or_self]
theorem coreOf_requestHalt (m n : Nat) (s : State) : coreOf (requestHalt causeAll m s) n = if n = m then haltedAll (coreOf s n) else coreOf s n := by
  unfold requestHalt haltedAll
  rcases eq_or_ne n m with rfl | hne
  · rw [if_pos rfl]
    split
    · rfl
    · rw [coreOf_updCore_same]
      rfl
  · rw [if_neg hne]
    split
    · rfl
    · rw [coreOf_updCore_other s _ hne]
theorem coreOf_haltAll (l : List Nat) (n : Nat) (s : State) :
    coreOf (l.foldl (fun a lc => requestHalt causeAll lc a) s) n = if n ∈ l then haltedAll (coreOf s n) else coreOf s n := by
  induction l generalizing s with
  | nil => rw [if_neg List.not_mem_nil]; rfl
  | cons m l ih =>
    rw [List.foldl_cons, ih, coreOf_requestHalt]
    by_cases hm : n = m
    · subst hm
      rw [if_pos rfl, if_pos List.mem_cons_self, haltedAll_twice, ite_self]
    · rw [if_neg hm]
      simp only [List.mem_cons, hm, false_or]

/-! ### The level returns to CLOSED (R549) -/

/-- The attachment at level CLOSED: no bound core is halted or steps, their controls are at reset, their registers stand. -/
structure Closed (s t : State) : Prop where
  level : t.dbg.level = 0
  path : t.dbg.path = s.dbg.path
  core : ∀ n, n < s.resil.bound → (coreOf t n).standing ≠ .halted ∧ (coreOf t n).stepReq = false ∧ reg t (0x5000100 + 16 * n) = 0 ∧
    (coreOf t n).regs = (coreOf s n).regs
theorem reg_clearControls (l : List Nat) (s : State) : let t := l.foldl (fun a n => setReg (0x5000100 + 16 * n) 0 a) s
    t = { s with ctl := { s.ctl with regs := t.ctl.regs } } ∧ ∀ n ∈ l, reg t (0x5000100 + 16 * n) = 0 := by
  have hstill (l : List Nat) : ∀ (a : State) (n : Nat), reg a (0x5000100 + 16 * n) = 0 →
      reg (l.foldl (fun a n => setReg (0x5000100 + 16 * n) 0 a) a) (0x5000100 + 16 * n) = 0 := by
    induction l with
    | nil => exact fun a n h => h
    | cons m l ih =>
      intro a n h
      refine ih _ n ?_
      rw [reg_setReg]
      split
      · rfl
      · exact h
  induction l generalizing s with
  | nil => exact ⟨rfl, fun n hn => absurd hn List.not_mem_nil⟩
  | cons m l ih =>
    obtain ⟨he, hz⟩ := ih (setReg (0x5000100 + 16 * m) 0 s)
    refine ⟨he, fun n hn => ?_⟩
    rcases List.mem_cons.mp hn with rfl | hn
    · exact hstill l _ _ (by rw [reg_setReg, if_pos rfl])
    · exact hz n hn
theorem closeLevel_closed (s : State) : Closed s (closeLevel s) := by
  unfold closeLevel
  extract_lets s1 s2
  obtain ⟨p, hp⟩ := noteMode_eq s (setDbg (fun d => { d with level := 0, grantEnd := 0, challenge := [], wanted := none }) s)
  have hs1 : s1 = { s with dbg := { s.dbg with level := 0, grantEnd := 0, challenge := [], wanted := none }, pads := p } := hp
  obtain ⟨he, hz⟩ : s2 = { s1 with ctl := { s1.ctl with regs := s2.ctl.regs } } ∧ ∀ n ∈ boundCores s1, reg s2 (0x5000100 + 16 * n) = 0 :=
    reg_clearControls (boundCores s1) s1
  have hbound : s2.resil.bound = s.resil.bound := by
    rw [he, hs1]
  have hcore (n : Nat) : coreOf s2 n = coreOf s n := by
    rw [coreOf, he, hs1]
    rfl
  have hstep (a : State) (n : Nat) : Resumed (resumeHalted a n) (updCore n (fun c => { c with haltReq := false, stepReq := false, haltCause := 0 }) (resumeHalted a n)) :=
    .of_updCore _ rfl (fun h => h) fun _ => rfl
  obtain ⟨hr, hq⟩ := Resumed.foldl (P := fun c => c.standing ≠ .halted ∧ c.stepReq = false)
    (f := fun a n => updCore n (fun c => { c with haltReq := false, stepReq := false, haltCause := 0 }) (resumeHalted a n))
    (fun a n => (resumed_resumeHalted a n).1.trans (hstep a n))
    (fun a n => ⟨(hstep a n).runs n (resumed_resumeHalted a n).2, by rw [coreOf_updCore_same]⟩)
    (fun a m n h => ⟨((resumed_resumeHalted a m).1.trans (hstep a m)).runs n h.1, ((resumed_resumeHalted a m).1.trans (hstep a m)).unarmed n h.2⟩)
    (boundCores s2) s2
  obtain ⟨h, o, hd⟩ := hr.dbg
  have hdbg : s2.dbg = { s.dbg with level := 0, grantEnd := 0, challenge := [], wanted := none } := by
    rw [he, hs1]
  refine ⟨?_, ?_, fun n hn => ⟨(hq n ?_).1, (hq n ?_).2, ?_, ?_⟩⟩
  · rw [hd, hdbg]
  · rw [hd, hdbg]
  · exact List.mem_range.mpr (hbound ▸ hn)
  · exact List.mem_range.mpr (hbound ▸ hn)
  · rw [reg, hr.regs]
    exact hz n (List.mem_range.mpr (by rw [hs1]; exact hn))
  · rw [hr.kept, hcore]

/-! ### The attachment (R547) -/

section
variable {i : Instr} (hr : Reaches w 1 0 0x5000004 s) (hlow : fld v 27 0 = 0)
include hr
theorem attach_orders {op : Nat} (hi : exec i s = .next (sdc w 0x5000004 (withOp op v) s)) : Orders i w attachRow [] 0x5000004 (withOp op v) s :=
  ⟨findReg_dbg.1, hi, rfl, rfl, by decide, hr⟩
omit hr
theorem fld_attach {op : Nat} : fld (withOp op v) 27 0 = fld v 27 0 := fld_withOp_low op (by decide) (by decide)
include hr hlow
/-- An attachment by a path. -/
theorem attach_spec :
    (s.dbg.path = 0 → pathOf w ≠ 0 → Commands (.dbgAttach w v) w 0x5000004 (withOp 1 v) s fun u =>
      u = { s with dbg := { s.dbg with path := pathOf w, lastAccess := s.time.now } }) ∧
    (s.dbg.path = pathOf w → Commands (.dbgAttach w v) w 0x5000004 (withOp 1 v) s fun u => u = s) ∧
    (s.dbg.path ≠ 0 → s.dbg.path ≠ pathOf w → Refuses (.dbgAttach w v) s 7) := by
  have ho := attach_orders (v := v) (i := .dbgAttach w v) (op := 1) hr rfl
  have hc : command mcmd w attachRow [] 0x5000004 (withOp 1 v) s = dbgAttach w (withOp 1 v) s := rfl
  have hcmd : dbgAttach w (withOp 1 v) s = if s.dbg.path = pathOf w then (stOk, s) else if s.dbg.path ≠ 0 then (stBusy, s)
      else (stOk, setDbg (fun d => { d with path := pathOf w, lastAccess := s.time.now }) s) := by
    unfold dbgAttach
    dsimp only
    rw [fld_attach, hlow, if_neg (by decide), fld_withOp 1 (by decide)]
    rfl
  refine ⟨fun h0 hp => ho.commands (hc.trans (hcmd.trans ?_)) rfl, fun hp => ho.commands (hc.trans (hcmd.trans (if_pos hp))) rfl,
    fun h0 hp => ho.refuses (a := s) (hc.trans (hcmd.trans ?_)) rfl (by decide)⟩
  · rw [if_neg (by rw [h0]; exact Ne.symm hp), if_neg (by simpa using h0)]
    rfl
  · rw [if_neg hp, if_pos h0]
    rfl
/-- A detach by a path. -/
theorem detach_spec (hpath : pathOf w ≠ 0) :
    (s.dbg.path = 0 → Commands (.dbgDetach w v) w 0x5000004 (withOp 2 v) s fun u => u = s) ∧
    (s.dbg.path = pathOf w → Commands (.dbgDetach w v) w 0x5000004 (withOp 2 v) s fun u => u = detach s) ∧
    (s.dbg.path ≠ 0 → s.dbg.path ≠ pathOf w → Refuses (.dbgDetach w v) s 7) := by
  have ho := attach_orders (v := v) (i := .dbgDetach w v) (op := 2) hr rfl
  have hc : command mcmd w attachRow [] 0x5000004 (withOp 2 v) s = dbgAttach w (withOp 2 v) s := rfl
  have hcmd : dbgAttach w (withOp 2 v) s = if s.dbg.path = pathOf w then (stOk, detach s) else if s.dbg.path = 0 then (stOk, s) else (stBusy, s) := by
    unfold dbgAttach
    dsimp only
    rw [fld_attach, hlow, if_neg (by decide), fld_withOp 2 (by decide)]
    rfl
  refine ⟨fun h0 => ho.commands (hc.trans (hcmd.trans ?_)) rfl, fun hp => ho.commands (hc.trans (hcmd.trans (if_pos hp))) rfl,
    fun h0 hp => ho.refuses (a := s) (hc.trans (hcmd.trans ?_)) rfl (by decide)⟩
  · rw [if_neg (by rw [h0]; exact Ne.symm hpath), if_pos h0]
    rfl
  · rw [if_neg hp, if_neg h0]
    rfl
end
/-- The end of the attachment closes its level. -/
theorem detach_closed (s : State) : (detach s).dbg.path = 0 ∧ (detach s).dbg.level = 0 ∧ ∀ n, n < s.resil.bound → (coreOf (detach s) n).standing ≠ .halted ∧
    (coreOf (detach s) n).stepReq = false ∧ reg (detach s) (0x5000100 + 16 * n) = 0 ∧ (coreOf (detach s) n).regs = (coreOf s n).regs :=
  ⟨rfl, (closeLevel_closed s).level, (closeLevel_closed s).core⟩

/-! ### Authorisation (19 R475) -/

section
variable (hr : Reaches w 1 0 0x5000010 s)
include hr
theorem authReq_orders : Orders (.authRequest w v) w authReqRow [] 0x5000010 v s := ⟨findReg_dbg.2.1, rfl, rfl, rfl, by decide, hr⟩
theorem authRequest_spec :
    (fld v 15 2 ≠ 0 → Refuses (.authRequest w v) s 4) ∧
    (fld v 15 2 = 0 → fld v 1 0 = 0 ∨ fld v 1 0 = 3 ∨ fld v 31 16 = 0 → Refuses (.authRequest w v) s 3) ∧
    (fld v 15 2 = 0 → fld v 1 0 = 1 ∨ fld v 1 0 = 2 → fld v 31 16 ≠ 0 → s.dbg.lockedUntil.toNat ≤ nowNs s → Commands (.authRequest w v) w 0x5000010 v s fun u =>
      u.dbg = { s.dbg with challenge := u.dbg.challenge, wanted := some (fld v 1 0, fld v 31 16), reqPath := pathOf w } ∧ u.dbg.challenge.length = 48 ∧
      { u with dbg := s.dbg, fresh := s.fresh } = s) ∧
    (fld v 15 2 = 0 → fld v 1 0 = 1 ∨ fld v 1 0 = 2 → fld v 31 16 ≠ 0 → nowNs s < s.dbg.lockedUntil.toNat →
      Commands (.authRequest w v) w 0x5000010 v s fun u => u = s) := by
  have ho := authReq_orders (v := v) hr
  have hc : command mcmd w authReqRow [] 0x5000010 v s = authRequest w v s := rfl
  refine ⟨fun h => ho.refuses (a := s) (hc.trans ?_) rfl (by decide), fun h0 h => ho.refuses (a := s) (hc.trans ?_) rfl (by decide),
    fun h0 hl hd hu => ?_, fun h0 hl hd hu => ho.commands (hc.trans ?_) rfl⟩
  · unfold authRequest
    rw [if_pos h]
    rfl
  · unfold authRequest
    dsimp only
    rw [if_neg (by simpa using h0), if_pos h]
    rfl
  · refine ho.commands (u := setDbg (fun d => { d with challenge := (drawBytes 48 s).1, wanted := some (fld v 1 0, fld v 31 16), reqPath := pathOf w })
      (drawBytes 48 s).2) (hc.trans ?_) ⟨rfl, ?_, rfl⟩
    · unfold authRequest
      dsimp only
      rw [if_neg (by simpa using h0), if_neg (by omega), if_neg (Nat.not_lt.mpr hu)]
      rfl
    · show (drawBytes 48 s).1.length = 48
      simp [drawBytes]
  · unfold authRequest
    dsimp only
    rw [if_neg (by simpa using h0), if_neg (by omega), if_pos hu]
    rfl
end

section
variable (hr : Reaches w 1 0 0x5000060 s) (hlow : fld v 27 1 = 0) (halg : fld v 31 28 < 2)
include hr
theorem authSubmit_orders : Orders (.authSubmit w v) w authSubmitRow [] 0x5000060 v s := ⟨findReg_dbg.2.2.1, rfl, rfl, rfl, by decide, hr⟩
end

/-- A refusal: the challenge is spent, and what the keeper notes of refusals is its own. -/
theorem authRefuse_spec (s : State) : (authRefuse s).dbg.level = s.dbg.level ∧ (authRefuse s).dbg.challenge = [] ∧ (authRefuse s).dbg.wanted = none ∧
    Newest 0x403 (authRefuse s) ∧ (authRefuse s).cellar = s.cellar ∧
    (2 ≤ (s.dbg.refusals.filter fun x => decide (nowNs s < x + 1000000000)).length →
      (authRefuse s).dbg.lockedUntil = BitVec.ofNat 64 (nowNs s + 60000000000)) := by
  unfold authRefuse
  extract_lets recent locked
  obtain ⟨e, n, p, i, hrec, he⟩ := logFault_eq (s := setDbg (fun d => { d with challenge := [], wanted := none, refusals := recent, lockedUntil := locked }) s)
    0x403 5 uDevice none 1 s.dbg.reqPath (by decide)
  rw [he]
  refine ⟨rfl, rfl, rfl, ⟨e, _, rfl, hrec⟩, rfl, fun h => ?_⟩
  show locked = _
  simp only [locked]
  rw [if_pos (show 3 ≤ recent.length from Nat.succ_le_succ h)]
  rfl

/-- The signature a request wants, by the path that asked and holds the attachment (R475). -/
structure Signed (w : Writer) (v : Word32) (lvl dur : Nat) (s : State) : Prop where
  signature : Config.signatureOk (fld v 31 28) (authDigest s lvl dur) ((respBytes s).take (sigLen (fld v 31 28))) = true
  tail : ∀ b ∈ (respBytes s).drop (sigLen (fld v 31 28)), b = 0
  asked : s.dbg.reqPath = pathOf w
  attached : s.dbg.path = pathOf w
  granted : 0 < min lvl (fld (reg s 0x500000C) 1 0)
/-- The level granted. -/
def authGranted (lvl dur : Nat) (s : State) : State :=
  noteMode s (logFault 0x403 5 uDevice none 0 (min lvl (fld (reg s 0x500000C) 1 0)) (extendMr 3 (authDigest s lvl dur) (setDbg (fun d =>
    { d with level := min lvl (fld (reg s 0x500000C) 1 0), grantEnd := BitVec.ofNat 64 (nowNs s + dur * second), challenge := [], wanted := none }) s)))
theorem authGranted_spec (lvl dur : Nat) (s : State) : (authGranted lvl dur s).dbg.level = min lvl (fld (reg s 0x500000C) 1 0) ∧
    (authGranted lvl dur s).dbg.challenge = [] ∧ (authGranted lvl dur s).dbg.wanted = none ∧
    (authGranted lvl dur s).dbg.grantEnd = BitVec.ofNat 64 (nowNs s + dur * 1000000000) ∧ Newest 0x403 (authGranted lvl dur s) ∧
    ∀ k, mrOf (authGranted lvl dur s) k = if k = 3 then BitVec.ofNat 384 (natOfBytes (sha384 (bytesOfNat (mrOf s k).toNat 48 ++ authDigest s lvl dur)))
      else mrOf s k := by
  unfold authGranted
  generalize hs1 : extendMr 3 (authDigest s lvl dur) _ = s1
  obtain ⟨e, n, p, i, hrec, he⟩ := logFault_eq (s := s1) 0x403 5 uDevice none 0 (min lvl (fld (reg s 0x500000C) 1 0)) (by decide)
  rw [he]
  obtain ⟨q, hq⟩ := noteMode_eq s { s1 with resil := { s1.resil with log := e :: s1.resil.log.take 4095, logSeq := n }, pads := p, intc := i }
  rw [hq]
  subst hs1
  refine ⟨rfl, rfl, rfl, rfl, ⟨e, _, rfl, hrec⟩, fun k => (smGet_smPut ..).trans ?_⟩
  split
  · next h => rw [h]; rfl
  · rfl
theorem bytes_zero_iff (l : List Byte) : (l.all fun b => b == 0) = true ↔ ∀ b ∈ l, b = 0 := by simp

section
variable {i : Instr} (hlow : fld v 27 1 = 0) (halg : fld v 31 28 < 2)
include hlow halg
theorem authSubmit_idle (h : v.getLsbD 0 = false) : authSubmit w v s = (0, s) := by
  unfold authSubmit
  dsimp only
  rw [if_neg (by omega), h]
  rfl
theorem authSubmit_unasked (h : v.getLsbD 0 = true) (hw : s.dbg.wanted = none) (hu : s.dbg.lockedUntil.toNat ≤ nowNs s) :
    authSubmit w v s = (0, authRefuse s) := by
  unfold authSubmit
  dsimp only
  rw [if_neg (by omega), h, hw, Bool.not_true, if_neg Bool.false_ne_true]
  dsimp only
  rw [if_neg (Nat.not_lt.mpr hu)]
  rfl
theorem authSubmit_asked {lvl dur : Nat} (h : v.getLsbD 0 = true) (hw : s.dbg.wanted = some (lvl, dur)) :
    (Signed w v lvl dur s → authSubmit w v s = (0, authGranted lvl dur s)) ∧ (¬Signed w v lvl dur s → authSubmit w v s = (0, authRefuse s)) := by
  have hok : (Config.signatureOk (fld v 31 28) (authDigest s lvl dur) ((respBytes s).take (sigLen (fld v 31 28))) &&
      ((respBytes s).drop (sigLen (fld v 31 28))).all (fun b => b == 0) && s.dbg.reqPath == pathOf w && s.dbg.path == pathOf w &&
      decide (0 < min lvl (rfld s (dbgReg 0xC) 1 0))) = true ↔ Signed w v lvl dur s := by
    simp only [Bool.and_eq_true, bytes_zero_iff, beq_iff_eq, decide_eq_true_eq]
    exact ⟨fun ⟨⟨⟨⟨h1, h2⟩, h3⟩, h4⟩, h5⟩ => ⟨h1, h2, h3, h4, h5⟩, fun h => ⟨⟨⟨⟨h.signature, h.tail⟩, h.asked⟩, h.attached⟩, h.granted⟩⟩
  have hsub : authSubmit w v s = if (Config.signatureOk (fld v 31 28) (authDigest s lvl dur) ((respBytes s).take (sigLen (fld v 31 28))) &&
      ((respBytes s).drop (sigLen (fld v 31 28))).all (fun b => b == 0) && s.dbg.reqPath == pathOf w && s.dbg.path == pathOf w &&
      decide (0 < min lvl (rfld s (dbgReg 0xC) 1 0))) = true then (0, authGranted lvl dur s) else (0, authRefuse s) := by
    unfold authSubmit
    dsimp only
    rw [if_neg (by omega), h, hw, Bool.not_true, if_neg Bool.false_ne_true]
    rfl
  exact ⟨fun hs => hsub.trans (if_pos (hok.mpr hs)), fun hs => hsub.trans (if_neg fun h => hs (hok.mp h))⟩
end

/-! ### One core's halt, resume and step (R550 to R552) -/

theorem needLevel_lcCmd (lc : LC) (s : State) : needLevel s lcCmdRow (0x5000104 + 16 * lc.val) true = 1 := by
  have hn := lc.isLt
  show blockLevel (0x5000104 + 16 * lc.val) true = 1
  rw [blockLevel, if_neg (by omega), if_neg (by omega), if_neg (by omega), if_pos (by omega)]
theorem lcCmd_orders {i : Instr} {lc : LC} (hr : Reaches w 1 2 (0x5000104 + 16 * lc.val) s) (hi : exec i s = .next (sdc w (lcCmdOff lc) v s)) :
    Orders i w lcCmdRow [lc.val] (0x5000104 + 16 * lc.val) v s := by
  have hoff : lcCmdOff lc = 0x5000104 + 16 * lc.val := by
    unfold lcCmdOff dbgReg
    omega
  exact ⟨findReg_lcCmd lc, by rw [hi, hoff], rfl, rfl, by decide, by rw [needLevel_lcCmd]; exact hr⟩
theorem command_lcCmd (off : Nat) (lc : Nat) : command mcmd w lcCmdRow [lc] off v s = if bound s lc then lcCmd lc v s else (stRange, s) := rfl
theorem lcCmd_unbound (off : Nat) (h : s.resil.bound ≤ lc) : command mcmd w lcCmdRow [lc] off v s = (3, s) := by
  rw [command_lcCmd, if_neg (by simpa [bound] using h)]
  rfl
theorem lcCmd_bound (off : Nat) {op : Nat} (h : lc < s.resil.bound) (hop : op = 1 ∨ op = 2 ∨ op = 3) :
    command mcmd w lcCmdRow [lc] off (opWord op 0) s =
      if op = 1 then (0, requestHalt causeRequest lc s)
      else if (coreOf s lc).standing = .halted then (0, resumeCore lc (op == 3) s) else (6, s) := by
  rw [command_lcCmd, if_pos (by simpa [bound] using h)]
  rcases hop with rfl | rfl | rfl <;> unfold lcCmd <;> dsimp only
  · rw [if_neg (by decide), if_pos rfl]
    rfl
  · rw [if_neg (by decide)]
    show (if ((coreOf s lc).standing == .halted) = true then _ else _) = _
    simp only [beq_iff_eq]
    rfl
  · rw [if_neg (by decide)]
    show (if ((coreOf s lc).standing == .halted) = true then _ else _) = _
    simp only [beq_iff_eq]
    rfl
/-- A resume with no trace of resumes asked for. -/
theorem resumeCore_plain (step : Bool) (h : (reg s 0x500240C).getLsbD 1 = false) : coreOf (resumeCore lc step s) lc = resumed step (coreOf s lc) ∧
    SameBytes s (resumeCore lc step s) ∧ ∀ n, n ≠ lc → coreOf (resumeCore lc step s) n = coreOf s n := by
  obtain ⟨b, hb⟩ := resumeCore_eq lc step s
  rw [emitHalt_off h] at hb
  rw [hb]
  exact ⟨coreOf_updCore_same .., fun _ => rfl, fun n hn => coreOf_updCore_other s _ hn⟩

/-- A core that halts at a group boundary (R550). -/
def Halts (s : State) (lc : Nat) : Prop := (coreOf s lc).haltReq = true ∧ (coreOf s lc).group = none ∧ (coreOf s lc).shadows = [] ∧
  (coreOf s lc).drainReq = false ∧ (coreOf s lc).paused = false ∧ levelOf (coreOf s lc).regs ≠ 2 ∧ (coreOf s lc).standing ≠ .halted ∧ lc < s.resil.bound
theorem haltNow_eq (lc : Nat) (s : State) : (Halts s lc → haltNow lc s = haltCore lc 0 s) ∧ (¬Halts s lc → haltNow lc s = s) := by
  have hiff : ((coreOf s lc).haltReq && (coreOf s lc).group.isNone && (coreOf s lc).shadows.isEmpty && !(coreOf s lc).drainReq && !(coreOf s lc).paused &&
      levelOf (coreOf s lc).regs != 2 && (coreOf s lc).standing != .halted && bound s lc) = true ↔ Halts s lc := by
    simp [Halts, bound, and_assoc]
  exact ⟨fun h => if_pos (hiff.mpr h), fun h => if_neg fun hc => h (hiff.mp hc)⟩
/-- A core as it halts, for no cause but those it was asked to halt for. -/
def haltedCore (c : Core) : Core := { c with standing := .halted, wait := none, haltReq := false, stepReq := false, resuming := false }
theorem haltedCore_of_csr {c x : Core} {q : SMap Word64} (hx : x = haltedCore { c with regs := { c.regs with csr := q } }) :
    x = { haltedCore c with regs := { c.regs with csr := x.regs.csr } } := by
  subst hx
  rfl
/-- The halt itself: the counters' cycles pass, and the core stands halted. -/
theorem haltCore_spec (lc : Nat) (h : (reg s 0x500240C).getLsbD 1 = false) : let t := haltCore lc 0 s
    coreOf t lc = { coreOf s lc with standing := .halted, wait := none, haltReq := false, stepReq := false, resuming := false,
                                     regs := { (coreOf s lc).regs with csr := (coreOf t lc).regs.csr } } ∧
    (∀ n, ¬IsCounterCsr n → csr (coreOf t lc).regs n = csr (coreOf s lc).regs n) ∧
    (pmFrozen (coreOf s lc).regs = true → (coreOf t lc).regs = (coreOf s lc).regs) ∧
    (pmFrozen (coreOf s lc).regs = true ∨ (csr (coreOf s lc).regs 0x540).getLsbD 31 = false → SameBytes s t) ∧
    (∀ n, n ≠ lc → coreOf t n = coreOf s n) ∧ t.dbg = s.dbg := by
  have htick := ticked_pmTickAll lc s
  have hfrozen (hf : pmFrozen (coreOf s lc).regs = true) : pmTickAll lc s = s := pmTickAll_frozen hf
  unfold haltCore
  generalize pmTickAll lc s = s1 at htick hfrozen
  dsimp only
  rw [emitHalt_off (by rw [reg, updCore_ctl, htick.regs]; exact h)]
  obtain ⟨b, hb⟩ := noteHalts_eq (updCore lc haltedCore s1)
  rw [show (fun c : Core => { c with standing := .halted, wait := none, haltReq := false, stepReq := false, haltCause := c.haltCause ||| 0, resuming := false }) = haltedCore
    from funext fun c => by simp [haltedCore], hb]
  have hcore : coreOf (updCore lc haltedCore s1) lc = haltedCore (coreOf s1 lc) := coreOf_updCore_same ..
  refine ⟨?_, fun n hn => ?_, fun hf => ?_, fun hf => ?_, fun n hn => ?_, htick.dbg⟩
  · obtain ⟨q, hq⟩ : ∃ q, coreOf s1 lc = { coreOf s lc with regs := { (coreOf s lc).regs with csr := q } } := ⟨_, htick.core⟩
    exact haltedCore_of_csr (c := coreOf s lc) (hcore.trans (congrArg haltedCore hq))
  · exact (congrArg (fun c : Core => csr c.regs n) hcore).trans (htick.csrs n hn)
  · exact (congrArg Core.regs hcore).trans (by rw [hfrozen hf]; rfl)
  · rcases hf with hf | hf
    · rw [hfrozen hf]
      exact fun _ => rfl
    · exact (htick.sampling hf).2
  · exact (coreOf_updCore_other s1 _ hn).trans (htick.others n hn)

end Sys2Proof.Machine
end

section
/-! The register window, memory by cycle stealing, the trace ring and a counter's wrap (23 R555 to R557, R562 to R566). -/

namespace Sys2Proof.Machine
variable {s t u : State} {w : Writer} {v : Word32} {lc : Nat}

/-! ### The register window (R555) -/

/-- What the window is set to. -/
def winCore (s : State) : Nat := fld (reg s 0x5002200) 24 16
def winReg (s : State) : Nat := fld (reg s 0x5002200) 11 0
def winClass (s : State) : Nat := fld (reg s 0x5002200) 31 28
def winData (s : State) : Word64 := BitVec.ofNat 64 (reg64 s 0x5002210)
/-- What the command of the window leaves in its status. -/
def winDone (st : Nat) (s : State) : State := setDbg (fun d => { d with rStatus := st }) s
theorem rcmd_eq {op : Nat} (hop : op = 1 ∨ op = 2 ∧ dbgAllows s w 2 = true) : rcmd w (opWord op 0) s = (0,
    if s.resil.bound ≤ winCore s then winDone 3 s
    else if (coreOf s (winCore s)).standing ≠ .halted then winDone 6 s
    else if op = 1 then
      let r := winRead (winCore s) (winClass s) (winReg s) s
      winDone r.1 (if r.1 = 0 then putRdata r.2.1 r.2.2 else s)
    else
      let r := winWrite (winCore s) (winClass s) (winReg s) (winData s) s
      winDone r.1 r.2) := by
  have hbound : (!bound s (winCore s)) = true ↔ s.resil.bound ≤ winCore s := by simp [bound]
  have hfields : ¬(fld (opWord op 0) 27 0 ≠ 0 ∨ fld (opWord op 0) 31 28 ≠ 1 ∧ fld (opWord op 0) 31 28 ≠ 2) ∧ fld (opWord op 0) 31 28 = op := by
    rcases hop with rfl | ⟨rfl, -⟩ <;> decide
  unfold rcmd
  extract_lets o sel cls c n done
  have ho : o = op := hfields.2
  rw [if_neg hfields.1, if_neg (show ¬(o = 2 ∧ (!dbgAllows s w 2) = true) by
    rw [ho]
    rintro ⟨rfl, hno⟩
    rcases hop with h | ⟨-, h⟩
    · exact absurd h (by decide)
    · simp [h] at hno)]
  show (if (!bound s (winCore s)) = true then _ else if (coreOf s (winCore s)).standing ≠ .halted then _ else _) = _
  simp only [hbound, ho]
  by_cases h1 : s.resil.bound ≤ winCore s
  · simp only [if_pos h1]
    rfl
  by_cases h2 : (coreOf s (winCore s)).standing ≠ .halted
  · simp only [if_neg h1, if_pos h2]
    rfl
  by_cases h3 : op = 1
  · simp only [if_neg h1, if_neg h2, if_pos h3]
    rfl
  · simp only [if_neg h1, if_neg h2, if_neg h3]
    rfl
theorem rcmd_locked (h : dbgAllows s w 2 = false) : rcmd w (opWord 2 0) s = (15, s) := by
  unfold rcmd
  dsimp only
  rw [if_neg (by decide), if_pos ⟨by decide, by simp [h]⟩]
  rfl

section
variable (hr : Reaches w 1 1 0x5002204 s)
include hr
theorem rcmd_orders {i : Instr} (hi : exec i s = .next (sdc w 0x5002204 v s)) : Orders i w rcmdRow [] 0x5002204 v s :=
  ⟨findReg_dbg.2.2.2.2.1, hi, rfl, rfl, by decide, hr⟩
/-- A window that gets no further than its status. -/
theorem window_stops {st : Nat} (hread : rcmd w (opWord 1 0) s = (0, winDone st s))
    (hwrite : dbgAllows s w 2 = true → rcmd w (opWord 2 0) s = (0, winDone st s)) :
    (Commands (.registerWindowRead w) w 0x5002204 0x10000000 s fun u => u = { s with dbg := { s.dbg with rStatus := st } }) ∧
    (dbgAllows s w 2 = true → Commands (.registerWindowWrite w) w 0x5002204 0x20000000 s fun u => u = { s with dbg := { s.dbg with rStatus := st } }) :=
  ⟨(rcmd_orders (i := .registerWindowRead w) hr rfl).commands hread rfl,
    fun h => (rcmd_orders (i := .registerWindowWrite w) hr rfl).commands (hwrite h) rfl⟩
theorem window_locked (h : dbgAllows s w 2 = false) : Refuses (.registerWindowWrite w) s 15 :=
  (rcmd_orders (i := .registerWindowWrite w) hr rfl).refuses (rcmd_locked h) rfl (by decide)

variable (hb : winCore s < s.resil.bound) (hh : (coreOf s (winCore s)).standing = .halted)
include hb hh
omit hr in
theorem rcmd_reads {st : Nat} {x : Word64} (h : winRead (winCore s) (winClass s) (winReg s) s = (st, x, t)) :
    rcmd w (opWord 1 0) s = (0, winDone st (if st = 0 then putRdata x t else s)) := by
  rw [rcmd_eq (.inl rfl), if_neg (Nat.not_le.mpr hb), if_neg (not_not.mpr hh), if_pos rfl, h]
omit hr in
theorem rcmd_writes {st : Nat} (ha : dbgAllows s w 2 = true) (h : winWrite (winCore s) (winClass s) (winReg s) (winData s) s = (st, t)) :
    rcmd w (opWord 2 0) s = (0, winDone st t) := by
  rw [rcmd_eq (.inr ⟨rfl, ha⟩), if_neg (Nat.not_le.mpr hb), if_neg (not_not.mpr hh), if_neg (by decide), h]
/-- A window to a register that is not there. -/
theorem window_refuses {st : Nat} (hst : st ≠ 0) {x : Word64} (hread : winRead (winCore s) (winClass s) (winReg s) s = (st, x, s))
    (hwrite : winWrite (winCore s) (winClass s) (winReg s) (winData s) s = (st, s)) :
    (Commands (.registerWindowRead w) w 0x5002204 0x10000000 s fun u => u = { s with dbg := { s.dbg with rStatus := st } }) ∧
    (dbgAllows s w 2 = true → Commands (.registerWindowWrite w) w 0x5002204 0x20000000 s fun u => u = { s with dbg := { s.dbg with rStatus := st } }) :=
  window_stops hr (by rw [rcmd_reads hb hh hread, if_neg hst]) fun ha => rcmd_writes hb hh ha hwrite
omit hr hb hh in
theorem reg64_putRdata (x : Word64) (s : State) : reg64 (putRdata x s) 0x5002210 = x.toNat := by
  have hx := x.isLt
  unfold putRdata reg64 dbgReg
  rw [reg_setReg, reg_setReg, reg_setReg, if_neg (by decide), if_pos (by decide), if_pos (by decide), BitVec.toNat_setWidth, BitVec.toNat_ofNat]
  omega
/-- A window that reads `x`. -/
theorem window_reads {x : Word64} (hread : winRead (winCore s) (winClass s) (winReg s) s = (0, x, s)) :
    Commands (.registerWindowRead w) w 0x5002204 0x10000000 s fun u => u.dbg = { s.dbg with rStatus := 0 } ∧
      reg64 u 0x5002210 = x.toNat ∧ (∀ o, o ≠ 0x5002210 → o ≠ 0x5002214 → reg u o = reg s o) ∧ u.cores = s.cores ∧ SameBytes s u := by
  refine (rcmd_orders (i := .registerWindowRead w) hr rfl).commands (u := winDone 0 (putRdata x s))
    (rcmd_reads (w := w) hb hh hread) ⟨rfl, reg64_putRdata x s, fun o h h' => ?_, rfl, fun _ => rfl⟩
  · show reg (putRdata x s) o = _
    unfold putRdata dbgReg
    rw [reg_setReg, if_neg h', reg_setReg, if_neg h]
/-- A window that writes registers of its core. -/
theorem window_writes {f : Regs → Regs} {R : Regs → Prop} (hwrite : winWrite (winCore s) (winClass s) (winReg s) (winData s) s = (0, updRegs (winCore s) f s))
    (hR : R (f (coreOf s (winCore s)).regs)) (ha : dbgAllows s w 2 = true) :
    Commands (.registerWindowWrite w) w 0x5002204 0x20000000 s fun u => u.dbg = { s.dbg with rStatus := 0 } ∧ R (coreOf u (winCore s)).regs ∧
      coreOf u (winCore s) = { coreOf s (winCore s) with regs := (coreOf u (winCore s)).regs } ∧ (∀ k, k ≠ winCore s → coreOf u k = coreOf s k) ∧ SameBytes s u := by
  have hcore : coreOf (winDone 0 (updRegs (winCore s) f s)) (winCore s) = { coreOf s (winCore s) with regs := f (coreOf s (winCore s)).regs } :=
    coreOf_updCore_same s _ fun c => { c with regs := f c.regs }
  refine (rcmd_orders (i := .registerWindowWrite w) hr rfl).commands (rcmd_writes hb hh ha hwrite)
    ⟨rfl, by rw [hcore]; exact hR, by rw [hcore], fun k hk => coreOf_updCore_other s (fun c => { c with regs := f c.regs }) hk, fun _ => rfl⟩
end
/-- A word of a vector register. -/
theorem vecWord_eq (x : Vec) (i : Nat) : vecWord x i = x.extractLsb' (64 * i) 64 := by
  have h : 64 * i + 63 - 64 * i + 1 = 64 := by omega
  apply BitVec.eq_of_toNat_eq
  rw [vecWord, natBits, h, BitVec.toNat_ofNat, BitVec.extractLsb'_toNat, Nat.shiftRight_eq_div_pow, Nat.mod_mod]
theorem vecWord_put (x : Vec) {i j : Nat} (y : Word64) (hi : i < 8) (hj : j < 8) :
    (putVecWord x i y).extractLsb' (64 * j) 64 = if j = i then y else x.extractLsb' (64 * j) 64 := by
  apply BitVec.eq_of_getLsbD_eq
  intro k hk
  rw [BitVec.getLsbD_extractLsb', decide_eq_true hk, Bool.true_and, putVecWord, getLsbD_putFld _ _ _ (by omega) (by omega)]
  rcases eq_or_ne j i with rfl | hne
  · rw [if_pos (by omega), if_pos rfl, Nat.add_sub_cancel_left]
    rfl
  · rw [if_neg (by omega), if_neg hne, BitVec.getLsbD_extractLsb', decide_eq_true hk, Bool.true_and]

/-! ### Memory (R556, R557) -/

/-- Bytes a memory command moves: a line, or 8 or 4. -/
def stealLen (op : Nat) (v : Word32) : Nat := if 3 ≤ op then 64 else if v.getLsbD 8 then 8 else 4
/-- A page the attachment finds in memory. -/
def InMem (s : State) (pa : Nat) : Prop :=
  (∃ q, placeOf pa = some q ∧ (q.region = .hbm ∨ q.region = .ddr ∨ q.region = .scratch)) ∧ backed s pa = true
def stealAt (s : State) : Nat := reg64 s 0x5002300
theorem mcmd_mem {op : Nat} (hv : fld v 27 9 = 0 ∧ fld v 7 1 = 0) (hop : op ∈ [1, 2, 3, 4]) (hfull : op = 2 ∨ op = 4 → dbgAllows s w 2 = true)
    (hnot : ∀ q, placeOf (stealAt s) = some q → q.region ≠ .control) : mcmd w (withOp op v) s = dbgMem w op (stealLen op v) (stealAt s) s := by
  have hlt : op < 16 ∧ op ≠ 0 ∧ op ≤ 4 := by
    simp only [List.mem_cons, List.not_mem_nil, or_false] at hop
    omega
  have hbit : (withOp op v).getLsbD 8 = v.getLsbD 8 := by
    unfold withOp
    rw [getLsbD_putFld _ _ _ (by decide) (by decide), if_neg (by decide)]
  unfold mcmd
  extract_lets o pa n own
  have ho : o = op := fld_withOp op hlt.1
  have hown : own = false := by
    have hgoal : (match placeOf (stealAt s) with | some p => decide (p.region = .control ∧ p.slot = slotOf s) | none => false) = false := by
      split
      · next q hq => exact decide_eq_false fun h => hnot q hq h.1
      · rfl
    exact hgoal
  rw [if_neg (show ¬(fld (withOp op v) 27 9 ≠ 0 ∨ fld (withOp op v) 7 1 ≠ 0) by
    rw [fld_withOp_low op (by decide) (by decide), fld_withOp_low op (by decide) (by decide)]
    omega), ho, if_neg (by omega), if_neg (show ¬((op = 2 ∨ op = 4) ∧ (!dbgAllows s w 2) = true) by
    rintro ⟨h, hno⟩
    simp [hfull h] at hno), hown, Bool.not_false, if_pos rfl]
  show dbgMem w op (if 3 ≤ o then 64 else if (withOp op v).getLsbD 8 then 8 else 4) (stealAt s) s = _
  rw [ho, hbit]
  rfl
theorem mcmd_locked {op : Nat} (hv : fld v 27 9 = 0 ∧ fld v 7 1 = 0) (hop : op = 2 ∨ op = 4) (h : dbgAllows s w 2 = false) :
    mcmd w (withOp op v) s = (15, s) := by
  have hlt : op < 16 := by omega
  unfold mcmd
  dsimp only
  rw [fld_withOp op hlt, fld_withOp_low op (by decide) (by decide), fld_withOp_low op (by decide) (by decide), if_neg (by omega), if_neg (by omega),
    if_pos ⟨hop, by simp [h]⟩]
  rfl
theorem dbgMem_eq (w : Writer) (op n pa : Nat) (s : State) : (pa % n ≠ 0 → dbgMem w op n pa s = dbgDone 4 false s) ∧
    (pa % n = 0 → ¬InMem s pa → dbgMem w op n pa s = dbgDone 3 false s) ∧
    (pa % n = 0 → InMem s pa → dbgOwnerOk s w (op % 2 == 0) pa = false → dbgMem w op n pa s = dbgDone 2 false s) := by
  have hiff : (!(match placeOf pa with | some p => decide (p.region = .hbm ∨ p.region = .ddr ∨ p.region = .scratch) | none => false) || !backed s pa) = true ↔
      ¬InMem s pa := by
    unfold InMem
    cases placeOf pa <;> cases backed s pa <;> simp
  unfold dbgMem
  extract_lets region
  have hregion : (!region || !backed s pa) = true ↔ ¬InMem s pa := hiff
  refine ⟨fun h => if_pos h, fun h h' => ?_, fun h h' h'' => ?_⟩
  · rw [if_neg (not_not.mpr h), if_pos (hregion.mpr h')]
    rfl
  · rw [if_neg (not_not.mpr h), if_neg (fun hc => hregion.mp hc h'), h'', Bool.not_false, if_pos rfl]
    rfl
theorem metered_dbgSteal (pa : Nat) (s : State) : Metered s (dbgSteal pa s) := ⟨_, _, rfl⟩
/-- What a memory command that has found its page does. -/
theorem dbgMem_found {op n pa : Nat} (h : pa % n = 0) (hm : InMem s pa) (hown : dbgOwnerOk s w (op % 2 == 0) pa = true) : dbgMem w op n pa s =
    if op = 1 ∨ op = 3 then
      let r := agentRead 3 pa n (dbgSteal pa s)
      let s1 := if op = 3 then (List.range 16).foldl (fun a i => setReg (0x5002340 + 4 * i) (BitVec.ofNat 32 (natOfBytes ((r.1.drop (4 * i)).take 4))) a) r.2.2
        else putPair 0x5002310 (natOfBytes r.1) r.2.2
      dbgDone 0 r.2.1 s1
    else dbgDone 0 false (agentWrite 3 pa (if op = 4 then (List.range 16).flatMap fun i => bytesOfNat (reg s (0x5002340 + 4 * i)).toNat 4
      else bytesOfNat (reg64 s 0x5002310) n) (dbgSteal pa s)) := by
  have hiff : (!(match placeOf pa with | some p => decide (p.region = .hbm ∨ p.region = .ddr ∨ p.region = .scratch) | none => false) || !backed s pa) = true ↔
      ¬InMem s pa := by
    unfold InMem
    cases placeOf pa <;> cases backed s pa <;> simp
  unfold dbgMem
  extract_lets region
  have hregion : ¬(!region || !backed s pa) = true := fun hc => hiff.mp hc hm
  rw [if_neg (not_not.mpr h), if_neg hregion, hown, Bool.not_true, if_neg Bool.false_ne_true]
  rfl
/-- Words filled into a run of registers. -/
theorem reg_fill (f : Nat → Word32) (o m : Nat) (s : State) : let t := (List.range m).foldl (fun a i => setReg (o + 4 * i) (f i) a) s
    t = { s with ctl := { s.ctl with regs := t.ctl.regs } } ∧ ∀ k, k < m → reg t (o + 4 * k) = f k := by
  induction m with
  | zero => exact ⟨rfl, fun k hk => absurd hk (Nat.not_lt_zero k)⟩
  | succ m ih =>
    obtain ⟨he, hk⟩ := ih
    rw [List.range_succ, List.foldl_append, List.foldl_cons, List.foldl_nil]
    generalize (List.range m).foldl (fun a i => setReg (o + 4 * i) (f i) a) s = a at he hk
    refine ⟨by rw [he]; rfl, fun k hlt => ?_⟩
    rw [reg_setReg]
    split
    next h => rw [show k = m by omega]
    next h => exact hk k (by omega)
/-- Four bytes of a line. -/
theorem readBytes_word {pa k : Nat} (hk : k < 16) : ((readBytes s pa 64).drop (4 * k)).take 4 = readBytes s (pa + 4 * k) 4 := by
  rw [show 64 = 4 * k + (4 + (60 - 4 * k)) by omega, readBytes_add, readBytes_add, List.drop_left' (length_readBytes ..), List.take_left' (length_readBytes ..)]
theorem natOfBytes_word (s : State) (pa : Nat) : (BitVec.ofNat 32 (natOfBytes (readBytes s pa 4))).toNat = readNat s pa 4 := by
  have h : natOfBytes (readBytes s pa 4) < 256 ^ (readBytes s pa 4).length := natOfBytes_lt _
  rw [length_readBytes] at h
  rw [BitVec.toNat_ofNat, Nat.mod_eq_of_lt (by omega), readNat]

section
variable {op n pa : Nat} (ha : pa % n = 0) (hm : InMem s pa) (hown : dbgOwnerOk s w (op % 2 == 0) pa = true) (hclear : Clear s pa n)
include ha hm hown hclear
theorem dbgMem_reads (hop : op = 1) (hn : n = 4 ∨ n = 8) : ∃ u, dbgMem w op n pa s = (0, u) ∧ u.dbg = { s.dbg with mStatus := 0, mPoison := false } ∧
    u.cores = s.cores ∧ reg64 u 0x5002310 = readNat s pa n ∧ SameBytes s u := by
  have hsteal := metered_dbgSteal pa s
  obtain ⟨hbytes, hpoison, hacc, hmem⟩ := agentRead_clear 3 (hsteal.accessed.clear hclear)
  obtain ⟨hcores, -, hdbg⟩ := (SameWatch.of_metered hsteal).trans (.of_accessed hacc)
  have hb : (agentRead 3 pa n (dbgSteal pa s)).2.2.mem.bytes = s.mem.bytes := hmem.trans (congrArg MemSt.bytes hsteal.mem)
  rw [readBytes_congr (congrArg MemSt.bytes hsteal.mem)] at hbytes
  rw [dbgMem_found ha hm hown, if_pos (.inl hop)]
  dsimp only
  rw [if_neg (by omega), hpoison, hbytes]
  have hlt : natOfBytes (readBytes s pa n) < 256 ^ (readBytes s pa n).length := natOfBytes_lt _
  refine ⟨_, rfl, ?_, hcores, ?_, sameBytes_of_bytes hb⟩
  · show ({ (agentRead 3 pa n (dbgSteal pa s)).2.2.dbg with mStatus := 0, mPoison := false } : Dbg) = _
    rw [hdbg]
  · refine (reg64_putPair ..).trans (Nat.mod_eq_of_lt ?_)
    rw [length_readBytes] at hlt
    rcases hn with rfl | rfl <;> omega
theorem dbgMem_readsLine (hop : op = 3) (hn : n = 64) : ∃ u, dbgMem w op n pa s = (0, u) ∧ u.dbg = { s.dbg with mStatus := 0, mPoison := false } ∧
    u.cores = s.cores ∧ SameBytes s u ∧ ∀ k, k < 16 → (reg u (0x5002340 + 4 * k)).toNat = readNat s (pa + 4 * k) 4 := by
  subst hn
  have hsteal := metered_dbgSteal pa s
  obtain ⟨hbytes, hpoison, hacc, hmem⟩ := agentRead_clear 3 (hsteal.accessed.clear hclear)
  obtain ⟨hcores, -, hdbg⟩ := (SameWatch.of_metered hsteal).trans (.of_accessed hacc)
  have hb : (agentRead 3 pa 64 (dbgSteal pa s)).2.2.mem.bytes = s.mem.bytes := hmem.trans (congrArg MemSt.bytes hsteal.mem)
  rw [readBytes_congr (congrArg MemSt.bytes hsteal.mem)] at hbytes
  rw [dbgMem_found ha hm hown, if_pos (.inr hop)]
  dsimp only
  rw [if_pos hop, hpoison, hbytes]
  generalize (agentRead 3 pa 64 (dbgSteal pa s)).2.2 = s1 at hcores hdbg hb
  obtain ⟨he, hk⟩ := reg_fill (fun i => BitVec.ofNat 32 (natOfBytes (((readBytes s pa 64).drop (4 * i)).take 4))) 0x5002340 16 s1
  dsimp only at he hk
  generalize (List.range 16).foldl _ s1 = s2 at he hk
  refine ⟨_, rfl, ?_, ?_, ?_, fun k hlt => ?_⟩
  · show ({ s2.dbg with mStatus := 0, mPoison := false } : Dbg) = _
    rw [he]
    show ({ s1.dbg with mStatus := 0, mPoison := false } : Dbg) = _
    rw [hdbg]
  · show s2.cores = _
    rw [he]
    exact hcores
  · refine sameBytes_of_bytes ?_
    show s2.mem.bytes = _
    rw [he]
    exact hb
  · show (reg s2 _).toNat = _
    rw [hk k hlt, readBytes_word hlt, natOfBytes_word]
theorem dbgMem_writes (hop : op = 2 ∨ op = 4) {bs : List Byte} (hn : bs.length = n)
    (hbs : bs = if op = 4 then (List.range 16).flatMap fun i => bytesOfNat (reg s (0x5002340 + 4 * i)).toNat 4 else bytesOfNat (reg64 s 0x5002310) n) :
    ∃ u, dbgMem w op n pa s = (0, u) ∧ u.dbg = { s.dbg with mStatus := 0, mPoison := false } ∧ u.cores = s.cores ∧ u.mem.bytes = putBytes bs pa s.mem.bytes := by
  subst hn
  have hsteal := metered_dbgSteal pa s
  obtain ⟨hacc, hmem⟩ := agentWrite_clear 3 (hsteal.accessed.clear hclear)
  obtain ⟨hcores, -, hdbg⟩ := (SameWatch.of_metered hsteal).trans (.of_accessed hacc)
  rw [dbgMem_found ha hm hown, if_neg (by omega), ← hbs]
  refine ⟨_, rfl, ?_, hcores, hmem.trans (by rw [hsteal.mem])⟩
  show ({ (agentWrite 3 pa bs (dbgSteal pa s)).dbg with mStatus := 0, mPoison := false } : Dbg) = _
  rw [hdbg]
end

section
variable (hr : Reaches w 1 1 0x5002308 s)
include hr
theorem mcmd_orders {i : Instr} (hi : exec i s = .next (sdc w 0x5002308 v s)) : Orders i w mcmdRow [] 0x5002308 v s :=
  ⟨findReg_dbg.2.2.2.2.2, hi, rfl, rfl, by decide, hr⟩
end

/-! ### The trace ring (R562, R563) -/

/-- Where the next packet goes. -/
def packetAt (s : State) : Nat := traceBase s + s.dbg.trHead % traceSize s * 32
/-- The number of a core in a packet. -/
def lcoreWord (lcore : Option Nat) : Nat := match lcore with | some n => 2 ^ 15 + n | none => 0
theorem packet_eq (kind port : Nat) (lcore : Option Nat) (data arg : Nat) (s : State) : packet kind port lcore data arg s =
    bytesOfNat kind 1 ++ (bytesOfNat port 1 ++ (bytesOfNat (lcoreWord lcore) 2 ++ (bytesOfNat data 4 ++ (bytesOfNat (nowNs s) 8 ++
      (bytesOfNat arg 8 ++ (bytesOfNat s.dbg.trHead 4 ++ [0, 0, 0, 0])))))) := by
  unfold packet
  simp only [List.append_assoc]
  rfl
theorem length_packet (kind port : Nat) (lcore : Option Nat) (data arg : Nat) (s : State) : (packet kind port lcore data arg s).length = 32 := by
  simp [packet, length_bytesOfNat]
/-- A packet written whole. -/
theorem putPacket_spec {kind port data arg : Nat} {lcore : Option Nat} (hc : Clear s (packetAt s) 32) :
    let u := putPacket (packet kind port lcore data arg s) s
    HoldsBytes u (packetAt s) 1 kind ∧ HoldsBytes u (packetAt s + 1) 1 port ∧
    HoldsBytes u (packetAt s + 2) 2 (lcoreWord lcore) ∧ HoldsBytes u (packetAt s + 4) 4 data ∧
    HoldsBytes u (packetAt s + 8) 8 (nowNs s) ∧ HoldsBytes u (packetAt s + 16) 8 arg ∧ HoldsBytes u (packetAt s + 24) 4 s.dbg.trHead ∧
    SameBytesBut (packetAt s) 32 s u ∧ u.dbg = { s.dbg with trHead := (s.dbg.trHead + 1) % 2 ^ 32 } := by
  generalize hbs : packet kind port lcore data arg s = bs
  have hlen : bs.length = 32 := by rw [← hbs, length_packet]
  obtain ⟨hacc, hmem⟩ := agentWrite_clear 3 (bs := bs) (pa := packetAt s) (s := s) (by rw [hlen]; exact hc)
  have hu : (putPacket bs s).mem.bytes = putBytes bs (packetAt s) s.mem.bytes := hmem
  have hdbg : (putPacket bs s).dbg = { s.dbg with trHead := (s.dbg.trHead + 1) % 2 ^ 32 } := by
    have hd : (agentWrite 3 (packetAt s) bs s).dbg = s.dbg := (SameWatch.of_accessed hacc).2.2
    show ({ (agentWrite 3 (packetAt s) bs s).dbg with trHead := ((agentWrite 3 (packetAt s) bs s).dbg.trHead + 1) % 2 ^ 32 } : Dbg) = _
    rw [hd]
  have hpk := hbs.symm.trans (packet_eq kind port lcore data arg s)
  intro u
  refine ⟨Part.holds (k := 0) (by rw [hpk]; exact .here ..) hu, Part.holds (k := 1) (by rw [hpk]; exact (Part.here ..).skip _ rfl) hu,
    Part.holds (k := 2) (by rw [hpk]; exact ((Part.here ..).skip _ rfl).skip _ rfl) hu,
    Part.holds (k := 4) (by rw [hpk]; exact (((Part.here ..).skip _ rfl).skip _ rfl).skip _ rfl) hu,
    Part.holds (k := 8) (by rw [hpk]; exact ((((Part.here ..).skip _ rfl).skip _ rfl).skip _ rfl).skip _ rfl) hu,
    Part.holds (k := 16) (by rw [hpk]; exact (((((Part.here ..).skip _ rfl).skip _ rfl).skip _ rfl).skip _ rfl).skip _ rfl) hu,
    Part.holds (k := 24) (by rw [hpk]; exact ((((((Part.here ..).skip _ rfl).skip _ rfl).skip _ rfl).skip _ rfl).skip _ rfl).skip _ rfl) hu,
    sameBytesBut_of_putBytes hu hlen, hdbg⟩
/-- A packet the ring has no room for. -/
def packetDropped (s : State) : State := bump 0x5002518 (setDbg (fun d => { d with trOwed := d.trOwed + 1 }) s)
theorem packetDropped_spec (s : State) : (packetDropped s).dbg = { s.dbg with trOwed := s.dbg.trOwed + 1 } ∧ SameBytes s (packetDropped s) ∧
    smGet cnt0 (packetDropped s).ctl.counters 0x5002518 = smGet cnt0 s.ctl.counters 0x5002518 + 1 :=
  ⟨rfl, fun _ => rfl, (smGet_smPut ..).trans (if_pos rfl)⟩
theorem emit_eq (kind port : Nat) (lcore : Option Nat) (data arg : Nat) (s : State) :
    ((reg s 0x500240C).getLsbD 0 = false → emit kind port lcore data arg s = s) ∧
    ((reg s 0x500240C).getLsbD 0 = true → traceSize s ≤ traceUsed s → emit kind port lcore data arg s = packetDropped s) ∧
    ((reg s 0x500240C).getLsbD 0 = true → traceUsed s < traceSize s → s.dbg.trOwed = 0 →
      emit kind port lcore data arg s = putPacket (packet kind port lcore data arg s) s) := by
  have hon (b : Bool) (h : (reg s 0x500240C).getLsbD 0 = b) : traceOn s = b := h
  unfold emit
  extract_lets drop s1
  refine ⟨fun h => ?_, fun h h1 => ?_, fun h h1 h2 => ?_⟩
  · rw [hon _ h]
    rfl
  · rw [hon _ h, Bool.not_true, if_neg Bool.false_ne_true, if_pos h1]
    rfl
  · rw [hon _ h, Bool.not_true, if_neg Bool.false_ne_true, if_neg (Nat.not_le.mpr h1), if_pos h2]

/-! ### A counter that wraps (R566) -/

theorem pmRaise_pend (lc : Nat) (s : State) : (pmRaise lc s).cores = s.cores ∧ SameBytes s (pmRaise lc s) ∧
    ∀ n, smGet boolDef (pmRaise lc s).intc.pend n = if (csr (coreOf s lc).regs 0x521).getLsbD 31 = true ∧ n = fld (csr (coreOf s lc).regs 0x521) 12 0 then true
      else smGet boolDef s.intc.pend n := by
  unfold pmRaise
  dsimp only
  by_cases h : (csr (coreOf s lc).regs 0x521).getLsbD 31 = true
  · rw [if_pos h]
    refine ⟨rfl, fun _ => rfl, fun n => (smGet_smPut ..).trans ?_⟩
    by_cases hn : n = fld (csr (coreOf s lc).regs 0x521) 12 0
    · rw [if_pos hn, if_pos ⟨h, hn⟩]
    · rw [if_neg hn, if_neg fun hc => hn hc.2]
  · rw [if_neg h]
    exact ⟨rfl, fun _ => rfl, fun n => (if_neg fun hc => h hc.1).symm⟩
/-- The counter at its top that counts once more. -/
theorem pmAdd_top {i : Nat} (hi : i < 9) (e : PmEvent) (he : e.n = 1) (htop : csr (coreOf s lc).regs (if i = 8 then 0x500 else 0x501 + i) = BitVec.allOnes 64)
    (hsel : i = 8 ∨ (csr (coreOf s lc).regs (0x510 + i)).getLsbD 29 = false) : let u := pmAdd lc i e s
    let r := (coreOf s lc).regs
    let off := if i = 8 then 0x500 else 0x501 + i
    let asks := (i = 8 ∨ (csr r (0x510 + i)).getLsbD 28 = true) ∧ (csr r 0x521).getLsbD 31 = true
    csr (coreOf u lc).regs off = 0 ∧ csr (coreOf u lc).regs 0x520 = csr r 0x520 ||| BitVec.ofNat 64 (2 ^ i) ∧
      (∀ n, n ≠ off → n ≠ 0x520 → csr (coreOf u lc).regs n = csr r n) ∧ SameBytes s u ∧
      ∀ n, smGet boolDef u.intc.pend n = if asks ∧ n = fld (csr r 0x521) 12 0 then true else smGet boolDef s.intc.pend n := by
  have hoff : (if i = 8 then 0x500 else 0x501 + i) ≠ 0x520 := counter_ne hi (by decide)
  have hoff' : (if i = 8 then 0x500 else 0x501 + i) ≠ 0x521 := counter_ne hi (by decide)
  generalize ho : (if i = 8 then 0x500 else 0x501 + i) = off at hoff hoff' htop
  generalize hsl : (if i = 8 then (0 : Word64) else pmSel (coreOf s lc).regs i) = sel
  have h29 : sel.getLsbD 29 = false := by
    rw [← hsl]
    split
    · rfl
    · next hne => exact hsel.resolve_left hne
  have h28 : (i = 8 ∨ sel.getLsbD 28 = true) ↔ (i = 8 ∨ (csr (coreOf s lc).regs (0x510 + i)).getLsbD 28 = true) := by
    rw [← hsl]
    by_cases h : i = 8
    · simp [h]
    · rw [if_neg h]
      rfl
  generalize hs1 : updRegs lc (fun q => setCsr (setCsr q off 0) 0x520 (csr q 0x520 ||| BitVec.ofNat 64 (2 ^ i))) s = s1
  have hrun : pmAdd lc i e s = if i = 8 ∨ sel.getLsbD 28 then pmRaise lc s1 else s1 := by
    unfold pmAdd pmWrap
    dsimp only
    rw [ho, hsl, htop, he, if_neg (by decide), h29, if_neg Bool.false_ne_true, if_neg Bool.false_ne_true]
    subst hs1
    rfl
  have hcsr (n : Nat) : csr (coreOf s1 lc).regs n =
      if n = 0x520 then csr (coreOf s lc).regs 0x520 ||| BitVec.ofNat 64 (2 ^ i) else if n = off then 0 else csr (coreOf s lc).regs n := by
    rw [← hs1, updRegs, coreOf_updCore_same]
    dsimp only
    rw [csr_setCsr, csr_setCsr]
  have hs : SameBytes s s1 ∧ s1.intc = s.intc := by
    rw [← hs1]
    exact ⟨fun _ => rfl, rfl⟩
  obtain ⟨hcores, hbytes, hpend⟩ := pmRaise_pend lc s1
  rw [hcsr 0x521, if_neg (by decide), if_neg (Ne.symm hoff')] at hpend
  intro u r off' asks
  have hu : (coreOf u lc).regs = (coreOf s1 lc).regs ∧ SameBytes s1 u ∧
      ∀ n, smGet boolDef u.intc.pend n = if asks ∧ n = fld (csr r 0x521) 12 0 then true else smGet boolDef s1.intc.pend n := by
    simp only [u, hrun]
    by_cases h : i = 8 ∨ sel.getLsbD 28 = true
    · rw [if_pos h]
      refine ⟨by rw [coreOf, hcores]; rfl, hbytes, fun n => (hpend n).trans ?_⟩
      have : asks ↔ (csr r 0x521).getLsbD 31 = true := ⟨fun hc => hc.2, fun hc => ⟨h28.mp h, hc⟩⟩
      simp only [this]
      rfl
    · rw [if_neg h]
      exact ⟨rfl, fun _ => rfl, fun n => (if_neg fun hc => h (h28.mpr hc.1.1)).symm⟩
  obtain ⟨hregs, hb, hp⟩ := hu
  rw [show off' = off from rfl, hregs]
  refine ⟨?_, ?_, fun n hn hn' => ?_, fun a => (hb a).trans (hs.1 a), fun n => (hp n).trans (by rw [hs.2])⟩
  · rw [hcsr, if_neg hoff, if_pos rfl]
  · rw [hcsr, if_pos rfl]
  · rw [hcsr, if_neg hn', if_neg hn]

end Sys2Proof.Machine
end

section
/-! Debuggers: what the attachment, the halts, the window, memory, trace and a counter's wrap come to (23 R547 to R566). -/

namespace Sys2Proof.Machine
-- One declaration after another: each `decide +kernel` waits for the kernel's turn, and many at once would hold a thread each.
set_option Elab.async false

variable {s t u : State} {w : Writer} {v : Word32}

/-! ### The window by classes of registers (R555) -/

section
variable (lc n : Nat) (s : State) (x : Word64)
theorem winRead_class0 : winRead lc 0 n s = if n < 32 then (0, readG (coreOf s lc).regs (Fin.ofNat 32 n), s) else (3, 0, s) := rfl
theorem winRead_class1 : winRead lc 1 n s =
    if n = 0 then (0, flagsWord (coreOf s lc).regs.flags, s) else if n = 1 then (0, (coreOf s lc).pc, s) else (3, 0, s) := rfl
theorem winRead_class2 : winRead lc 2 n s =
    if n < 256 then (0, vecWord (readV (coreOf s lc).regs (Fin.ofNat 32 (n / 8))) (n % 8), s) else (3, 0, s) := rfl
theorem winRead_class3 : winRead lc 3 n s = if n < 8 then (0, readK (coreOf s lc).regs (Fin.ofNat 8 n), s) else (3, 0, s) := rfl
theorem winWrite_class0 : winWrite lc 0 n x s =
    if decide (n < 32) = true then (0, updRegs lc (fun r => writeG r (Fin.ofNat 32 n) x) s) else (3, s) := rfl
theorem winWrite_class1 : winWrite lc 1 n x s =
    if n = 0 then (if fld x 63 4 ≠ 0 then (4, s) else (0, updRegs lc (fun r => { r with flags := flagsOfWord x }) s))
    else if n = 1 then (if fld x 1 0 ≠ 0 then (4, s) else (0, updCore lc (fun c => { c with pc := x, vecStop := false }) s))
    else (3, s) := rfl
theorem winWrite_class2 : winWrite lc 2 n x s = if decide (n < 256) = true then
    (0, updRegs lc (fun r => writeV r (Fin.ofNat 32 (n / 8)) (putVecWord (readV r (Fin.ofNat 32 (n / 8))) (n % 8) x)) s) else (3, s) := rfl
theorem winWrite_class3 : winWrite lc 3 n x s =
    if decide (n < 8) = true then (0, updRegs lc (fun r => writeK r (Fin.ofNat 8 n) x) s) else (3, s) := rfl
end

section
variable (hr : Reaches w 1 1 0x5002204 s)
include hr
/-- The window before it looks at a register. -/
theorem window_unbound (h : s.resil.bound ≤ winCore s) :
    (Commands (.registerWindowRead w) w 0x5002204 0x10000000 s fun u => u = { s with dbg := { s.dbg with rStatus := 3 } }) ∧
    (dbgAllows s w 2 = true → Commands (.registerWindowWrite w) w 0x5002204 0x20000000 s fun u => u = { s with dbg := { s.dbg with rStatus := 3 } }) :=
  window_stops hr (by rw [rcmd_eq (.inl rfl), if_pos h]) fun ha => by rw [rcmd_eq (.inr ⟨rfl, ha⟩), if_pos h]
theorem window_running (hb : winCore s < s.resil.bound) (h : (coreOf s (winCore s)).standing ≠ .halted) :
    (Commands (.registerWindowRead w) w 0x5002204 0x10000000 s fun u => u = { s with dbg := { s.dbg with rStatus := 6 } }) ∧
    (dbgAllows s w 2 = true → Commands (.registerWindowWrite w) w 0x5002204 0x20000000 s fun u => u = { s with dbg := { s.dbg with rStatus := 6 } }) :=
  window_stops hr (by rw [rcmd_eq (.inl rfl), if_neg (Nat.not_le.mpr hb), if_pos h]) fun ha => by
    rw [rcmd_eq (.inr ⟨rfl, ha⟩), if_neg (Nat.not_le.mpr hb), if_pos h]

variable (hb : winCore s < s.resil.bound) (hh : (coreOf s (winCore s)).standing = .halted)
include hb hh
theorem window_noClass (h : 4 < winClass s) :
    (Commands (.registerWindowRead w) w 0x5002204 0x10000000 s fun u => u = { s with dbg := { s.dbg with rStatus := 4 } }) ∧
    (dbgAllows s w 2 = true → Commands (.registerWindowWrite w) w 0x5002204 0x20000000 s fun u => u = { s with dbg := { s.dbg with rStatus := 4 } }) := by
  generalize hc : winClass s = cls at h
  obtain ⟨k, rfl⟩ : ∃ k, cls = k + 5 := ⟨cls - 5, by omega⟩
  exact window_refuses hr hb hh (x := 0) (by decide) (by rw [hc]; rfl) (by rw [hc]; rfl)
theorem window_noReg (h : winClass s = 0 ∧ 32 ≤ winReg s ∨ winClass s = 1 ∧ 2 ≤ winReg s ∨ winClass s = 2 ∧ 256 ≤ winReg s ∨ winClass s = 3 ∧ 8 ≤ winReg s) :
    (Commands (.registerWindowRead w) w 0x5002204 0x10000000 s fun u => u = { s with dbg := { s.dbg with rStatus := 3 } }) ∧
    (dbgAllows s w 2 = true → Commands (.registerWindowWrite w) w 0x5002204 0x20000000 s fun u => u = { s with dbg := { s.dbg with rStatus := 3 } }) := by
  refine window_refuses hr hb hh (x := 0) (st := 3) (by decide) ?_ ?_
  · rcases h with ⟨hc, h⟩ | ⟨hc, h⟩ | ⟨hc, h⟩ | ⟨hc, h⟩ <;> rw [hc]
    · rw [winRead_class0, if_neg (Nat.not_lt.mpr h)]
    · rw [winRead_class1, if_neg (by omega), if_neg (by omega)]
    · rw [winRead_class2, if_neg (Nat.not_lt.mpr h)]
    · rw [winRead_class3, if_neg (Nat.not_lt.mpr h)]
  · rcases h with ⟨hc, h⟩ | ⟨hc, h⟩ | ⟨hc, h⟩ | ⟨hc, h⟩ <;> rw [hc]
    · rw [winWrite_class0, decide_eq_false (Nat.not_lt.mpr h), if_neg Bool.false_ne_true]
    · rw [winWrite_class1, if_neg (by omega), if_neg (by omega)]
    · rw [winWrite_class2, decide_eq_false (Nat.not_lt.mpr h), if_neg Bool.false_ne_true]
    · rw [winWrite_class3, decide_eq_false (Nat.not_lt.mpr h), if_neg Bool.false_ne_true]
end
/-- A register's number that is in range names it. -/
theorem ofNat_val {m : Nat} [NeZero m] (g : Fin m) {n : Nat} (h : g.val = n) : Fin.ofNat m n = g :=
  Fin.ext (by rw [Fin.val_ofNat, ← h, Nat.mod_eq_of_lt g.isLt])
theorem winRead_general {lc n : Nat} (g : GReg) (h : g.val = n) (s : State) : winRead lc 0 n s = (0, readG (coreOf s lc).regs g, s) := by
  rw [winRead_class0, if_pos (by have := g.isLt; omega), ofNat_val g h]
theorem winWrite_general {lc n : Nat} (g : GReg) (h : g.val = n) (x : Word64) (s : State) :
    winWrite lc 0 n x s = (0, updRegs lc (fun r => writeG r g x) s) := by
  rw [winWrite_class0, decide_eq_true (show n < 32 by have := g.isLt; omega), if_pos rfl, ofNat_val g h]
theorem winRead_mask {lc n : Nat} (k : KReg) (h : k.val = n) (s : State) : winRead lc 3 n s = (0, readK (coreOf s lc).regs k, s) := by
  rw [winRead_class3, if_pos (by have := k.isLt; omega), ofNat_val k h]
theorem winWrite_mask {lc n : Nat} (k : KReg) (h : k.val = n) (x : Word64) (s : State) :
    winWrite lc 3 n x s = (0, updRegs lc (fun r => writeK r k x) s) := by
  rw [winWrite_class3, decide_eq_true (show n < 8 by have := k.isLt; omega), if_pos rfl, ofNat_val k h]
theorem winRead_vector {lc n : Nat} (k : VReg) (h : k.val = n / 8) (s : State) :
    winRead lc 2 n s = (0, (readV (coreOf s lc).regs k).extractLsb' (64 * (n % 8)) 64, s) := by
  rw [winRead_class2, if_pos (by have := k.isLt; omega), ofNat_val k h, vecWord_eq]
theorem winWrite_vector {lc n : Nat} (k : VReg) (h : k.val = n / 8) (x : Word64) (s : State) :
    winWrite lc 2 n x s = (0, updRegs lc (fun r => writeV r k (putVecWord (readV r k) (n % 8) x)) s) := by
  rw [winWrite_class2, decide_eq_true (show n < 256 by have := k.isLt; omega), if_pos rfl, ofNat_val k h]
/-- The core a stimulus comes from, in its packet (R562). -/
def stimCore (w : Writer) : Option Nat := match w with | .core lc => some lc.val | _ => none
theorem stim_eq (w : Writer) (p : Nat) (v : Word32) (s : State) :
    let enabled := (reg s (0x5002420 + 4 * (p / 32))).getLsbD (p % 32) = true ∧ ∀ lc, w = .core lc → levelOf (coreOf s lc.val).regs ≠ 2
    (enabled → stim w p v s = emit 1 p (stimCore w) v.toNat 0 s) ∧ (¬enabled → stim w p v s = s) := by
  intro enabled
  have hiff : ((reg s (0x5002420 + 4 * (p / 32))).getLsbD (p % 32) && !(match w with | .core lc => levelOf (coreOf s lc.val).regs == 2 | _ => false)) = true ↔
      enabled := by
    cases w <;> simp [enabled]
  exact ⟨fun h => if_pos (hiff.mpr h), fun h => if_neg fun hc => h (hiff.mp hc)⟩

/-- Settles O57: each command is the model's equation for it; a fold over the bound cores keeps what a core was given, and trace and the counters
leave registers, words and the debug unit as they were. -/
theorem debuggersAttachHaltAndLook : Obligations.DebuggersAttachHaltAndLook := by
  refine ⟨fun s w v => ?attachment, fun s w lc => ?halting, fun s w hr => ?window, fun s w v hr hv hv' => ?memory, fun s w p v => ?trace, fun s lc i => ?wrap⟩
  case attachment =>
    intro p closed
    refine ⟨fun hr hlow hp => ?_, ⟨fun hdue => ?_, fun hdue => ?_⟩, ⟨fun hdue => ?_, fun hdue => ?_⟩, fun hr => authRequest_spec hr, fun hr hlow halg => ?_⟩
    · obtain ⟨h1, h2, h3⟩ := attach_spec (v := v) hr hlow
      obtain ⟨d1, d2, d3⟩ := detach_spec (v := v) hr hlow hp
      refine ⟨fun h => h1 h hp, h2, fun h h' => ⟨h3 h h', d3 h h'⟩, d1, fun h => ?_⟩
      obtain ⟨x, hx, y, rfl, ha⟩ := d2 h
      exact ⟨x, hx, _, detach_closed s, ha⟩
    · refine ⟨attachLate s, rfl, ?_⟩
      rw [show attachLate s = detach s from if_pos hdue]
      exact detach_closed s
    · show (.next (attachLate s) : Out) = _
      rw [show attachLate s = s from if_neg hdue]
    · refine ⟨grantLapses s, rfl, ?_⟩
      rw [show grantLapses s = closeLevel s from if_pos hdue]
      exact ⟨(closeLevel_closed s).path, (closeLevel_closed s).level, (closeLevel_closed s).core⟩
    · show (.next (grantLapses s) : Out) = _
      rw [show grantLapses s = s from if_neg hdue]
    · have ho := authSubmit_orders (v := v) hr
      obtain ⟨hlevel, hchal, hwant, hnew, hcel, hlock⟩ := authRefuse_spec s
      refine ⟨fun h => ho.commands (authSubmit_idle hlow halg h) rfl, fun h hw hu => ho.commands (authSubmit_unasked hlow halg h hw hu) ⟨hlevel, hnew, hcel, hlock⟩,
        fun lvl dur h hw => ?_⟩
      intro sig dig lvl1 good
      have hsigned : good ↔ Signed w v lvl dur s :=
        ⟨fun ⟨h1, h2, h3, h4, h5⟩ => ⟨h1, h2, h3, h4, h5⟩, fun h => ⟨h.signature, h.tail, h.asked, h.attached, h.granted⟩⟩
      obtain ⟨hyes, hno⟩ := authSubmit_asked (w := w) hlow halg h hw
      exact ⟨fun hg => ho.commands (hyes (hsigned.mp hg)) (authGranted_spec lvl dur s),
        fun hg => ho.commands (hno fun hs => hg (hsigned.mpr hs)) ⟨hlevel, hchal, hwant, hnew, hcel⟩⟩
  case halting =>
    intro c off noEvents run skip
    refine ⟨fun hr => ?_, fun hr => ?_, ?_⟩
    · have hhalt := lcCmd_orders (v := opWord 1 0) (i := .haltRequest w lc) hr rfl
      have hresume := lcCmd_orders (v := opWord 2 0) (i := .resume w lc) hr rfl
      have hstep := lcCmd_orders (v := opWord 3 0) (i := .step w lc) hr rfl
      refine ⟨fun hb => ⟨hhalt.refuses (lcCmd_unbound off hb) rfl (by decide), hresume.refuses (lcCmd_unbound off hb) rfl (by decide),
        hstep.refuses (lcCmd_unbound off hb) rfl (by decide)⟩, fun hb => ⟨fun hc => ⟨?_, ?_, ?_⟩, fun hc => ⟨?_, fun hno => ⟨?_, ?_⟩⟩⟩⟩
      · refine hhalt.commands ((lcCmd_bound off hb (.inl rfl)).trans (if_pos rfl)) ?_
        rw [requestHalt, if_neg hc]
        exact ⟨coreOf_updCore_same .., fun n hn => coreOf_updCore_other s _ hn, rfl⟩
      · exact hresume.refuses ((lcCmd_bound off hb (.inr (.inl rfl))).trans (by rw [if_neg (by decide), if_neg hc])) rfl (by decide)
      · exact hstep.refuses ((lcCmd_bound off hb (.inr (.inr rfl))).trans (by rw [if_neg (by decide), if_neg hc])) rfl (by decide)
      · refine hhalt.commands ((lcCmd_bound off hb (.inl rfl)).trans (if_pos rfl)) ?_
        rw [requestHalt, if_pos hc]
      · exact hresume.commands ((lcCmd_bound off hb (.inr (.inl rfl))).trans (by rw [if_neg (by decide), if_pos hc]; rfl)) (resumeCore_plain false hno)
      · exact hstep.commands ((lcCmd_bound off hb (.inr (.inr rfl))).trans (by rw [if_neg (by decide), if_pos hc]; rfl)) (resumeCore_plain true hno)
    · have ho {i : Instr} {v : Word32} (hi : exec i s = .next (sdc w 0x5002100 v s)) : Orders i w haltallRow [] 0x5002100 v s :=
        ⟨findReg_dbg.2.2.2.1, hi, rfl, rfl, by decide, hr⟩
      refine ⟨(ho (i := .haltAll w) rfl).commands (u := (boundCores s).foldl (fun a lc => requestHalt causeAll lc a) s) rfl fun n => ?_,
        (ho (i := .resumeAll w) rfl).commands (u := (boundCores s).foldl resumeHalted s) rfl fun n hn => ?_⟩
      · rw [coreOf_haltAll, haltedAll]
        simp only [boundCores, List.mem_range]
        by_cases hn : n < s.resil.bound <;> by_cases hc : (coreOf s n).standing = .halted <;> simp [hn, hc]
      · exact ⟨(resumeAll_spec s).2 n hn, (resumeAll_spec s).1.kept n⟩
    · intro halts
      obtain ⟨hyes, hno⟩ := haltNow_eq lc.val s
      refine ⟨fun h hev => ⟨haltNow lc.val s, rfl, ?_⟩, fun h => congrArg (fun x => (.next x : Out)) (hno h)⟩
      rw [hyes h]
      obtain ⟨hcore, hcsr, hfrozen, hbytes, hothers, hdbg⟩ := haltCore_spec lc.val hev
      refine ⟨hcore, fun n h1 h2 h3 h4 => hcsr n ?_, hfrozen, hbytes, hothers, hdbg⟩
      unfold IsCounterCsr
      omega
  case window =>
    intro sel lc n cls r stops got x put
    refine ⟨window_locked hr, window_unbound hr, window_running hr, fun hb hh => ⟨window_noClass hr hb hh, window_noReg hr hb hh, fun g hc hg => ⟨?_, fun ha => ?_⟩,
      fun hc hn => ⟨?_, fun hx ha => ?_⟩, fun hc hn => ⟨?_, fun hx ha => ?_⟩, fun k hc hk => ⟨?_, fun ha => ?_⟩, fun k hc hk => ⟨?_, fun ha => ?_⟩,
      fun hc => ?csrs⟩⟩
    case csrs =>
      intro lvl z y
      refine ⟨(rcmd_orders (i := .registerWindowRead w) hr rfl).commands (rcmd_reads (w := w) (st := z.1) (x := z.2.1) (t := z.2.2) hb hh ?_) ⟨rfl, fun h0 => ?_⟩,
        fun ha => (rcmd_orders (i := .registerWindowWrite w) hr rfl).commands (rcmd_writes (st := y.1) (t := y.2) hb hh ha ?_) ⟨rfl, rfl⟩⟩
      · rw [show winClass s = 4 from hc]
        rfl
      · rw [if_pos h0]
        exact reg64_putRdata z.2.1 z.2.2
      · rw [show winClass s = 4 from hc]
        rfl
    · exact window_reads hr hb hh (by rw [show winClass s = 0 from hc]; exact winRead_general g hg s)
    · exact window_writes hr hb hh (R := WroteG g x r.flags r) (by rw [show winClass s = 0 from hc]; exact winWrite_general g hg _ s) (wroteG_writeG ..) ha
    · exact window_reads hr hb hh (by rw [show winClass s = 1 from hc, show winReg s = 0 from hn]; rfl)
    · refine window_writes hr hb hh (f := fun q => { q with flags := flagsOfWord x }) (R := fun q => q = { r with flags := flagsOfWord x }) ?_ rfl ha
      rw [show winClass s = 1 from hc, show winReg s = 0 from hn, winWrite_class1, if_pos rfl, if_neg]
      · rfl
      · rw [fld, natBits, show winData s = x from rfl]
        omega
    · exact window_reads hr hb hh (by rw [show winClass s = 1 from hc, show winReg s = 1 from hn]; rfl)
    · refine (rcmd_orders (i := .registerWindowWrite w) hr rfl).commands (u := winDone 0 (updCore lc (fun c => { c with pc := x, vecStop := false }) s))
        (rcmd_writes hb hh ha ?_) ⟨coreOf_updCore_same s lc fun c => { c with pc := x, vecStop := false }, rfl⟩
      rw [show winClass s = 1 from hc, show winReg s = 1 from hn, winWrite_class1, if_neg (by decide), if_pos rfl, if_neg]
      · rfl
      · rw [fld, natBits, show winData s = x from rfl]
        omega
    · exact window_reads hr hb hh (by rw [show winClass s = 2 from hc]; exact winRead_vector k hk s)
    · refine window_writes hr hb hh (R := fun q => ∃ y, WroteV k y r q ∧ ∀ j, j < 8 → y.extractLsb' (64 * j) 64 = if j = n % 8 then x else
        (readV r k).extractLsb' (64 * j) 64) (by rw [show winClass s = 2 from hc]; exact winWrite_vector k hk _ s)
        ⟨_, wroteV_writeV .., fun j hj => vecWord_put _ _ (Nat.mod_lt _ (by decide)) hj⟩ ha
    · exact window_reads hr hb hh (by rw [show winClass s = 3 from hc]; exact winRead_mask k hk s)
    · exact window_writes hr hb hh (R := WroteK k x r) (by rw [show winClass s = 3 from hc]; exact winWrite_mask k hk _ s) (wroteK_writeK ..) ha
  case memory =>
    intro pa n inMem fails done full
    have hread := mcmd_orders (v := withOp 1 v) (i := .debugMemoryRead w v) hr rfl
    have hwrite := mcmd_orders (v := withOp 2 v) (i := .debugMemoryWrite w v) hr rfl
    have hlineR := mcmd_orders (v := withOp 3 v) (i := .debugLineRead w v) hr rfl
    have hlineW := mcmd_orders (v := withOp 4 v) (i := .debugLineWrite w v) hr rfl
    refine ⟨fun h => ⟨hwrite.refuses (mcmd_locked ⟨hv, hv'⟩ (.inl rfl) h) rfl (by decide), hlineW.refuses (mcmd_locked ⟨hv, hv'⟩ (.inr rfl) h) rfl (by decide)⟩,
      fun hnot => ?_⟩
    have hn : n = 4 ∨ n = 8 := by
      simp only [n]
      split
      · exact .inr rfl
      · exact .inl rfl
    have e1 : command mcmd w mcmdRow [] 0x5002308 (withOp 1 v) s = dbgMem w 1 n pa s :=
      mcmd_mem ⟨hv, hv'⟩ (by decide) (fun h => absurd h (by decide)) hnot
    have e2 (hfull : full) : command mcmd w mcmdRow [] 0x5002308 (withOp 2 v) s = dbgMem w 2 n pa s := mcmd_mem ⟨hv, hv'⟩ (by decide) (fun _ => hfull) hnot
    have e3 : command mcmd w mcmdRow [] 0x5002308 (withOp 3 v) s = dbgMem w 3 64 pa s :=
      mcmd_mem ⟨hv, hv'⟩ (by decide) (fun h => absurd h (by decide)) hnot
    have e4 (hfull : full) : command mcmd w mcmdRow [] 0x5002308 (withOp 4 v) s = dbgMem w 4 64 pa s := mcmd_mem ⟨hv, hv'⟩ (by decide) (fun _ => hfull) hnot
    have hsmall (h : pa % 64 = 0) : pa % n = 0 := by rcases hn with h' | h' <;> rw [h'] <;> omega
    refine ⟨fun h => ⟨hread.commands (e1.trans ((dbgMem_eq w 1 n pa s).1 h)) rfl, fun hf => hwrite.commands ((e2 hf).trans ((dbgMem_eq w 2 n pa s).1 h)) rfl⟩,
      fun h => ⟨hlineR.commands (e3.trans ((dbgMem_eq w 3 64 pa s).1 h)) rfl, fun hf => hlineW.commands ((e4 hf).trans ((dbgMem_eq w 4 64 pa s).1 h)) rfl⟩,
      fun h hm => ⟨hread.commands (e1.trans ((dbgMem_eq w 1 n pa s).2.1 (hsmall h) hm)) rfl, hlineR.commands (e3.trans ((dbgMem_eq w 3 64 pa s).2.1 h hm)) rfl,
        fun hf => ⟨hwrite.commands ((e2 hf).trans ((dbgMem_eq w 2 n pa s).2.1 (hsmall h) hm)) rfl,
          hlineW.commands ((e4 hf).trans ((dbgMem_eq w 4 64 pa s).2.1 h hm)) rfl⟩⟩,
      fun h hm h0 h2 hlife => ?_, fun hm hown hclear => ⟨fun h => ⟨?_, fun hf => ?_⟩, fun h => ⟨?_, fun hf => ?_⟩⟩⟩
    · have hno (wr : Bool) : dbgOwnerOk s w wr pa = false := by simp [dbgOwnerOk, h0, h2, hlife]
      exact ⟨hread.commands (e1.trans ((dbgMem_eq w 1 n pa s).2.2 (hsmall h) hm (hno _))) rfl, hlineR.commands (e3.trans ((dbgMem_eq w 3 64 pa s).2.2 h hm (hno _))) rfl,
        fun hf => ⟨hwrite.commands ((e2 hf).trans ((dbgMem_eq w 2 n pa s).2.2 (hsmall h) hm (hno _))) rfl,
          hlineW.commands ((e4 hf).trans ((dbgMem_eq w 4 64 pa s).2.2 h hm (hno _))) rfl⟩⟩
    all_goals
      have hok (wr : Bool) : dbgOwnerOk s w wr pa = true := by
        rcases hown with h0 | ⟨hlife, hf⟩
        · simp [dbgOwnerOk, h0]
        · simp [dbgOwnerOk, hlife, show dbgAllows s w 2 = true from hf]
      have hcn : Clear s pa n := hclear.mono (Nat.le_refl pa) (by rcases hn with h' | h' <;> omega)
    · obtain ⟨u, hu, hdbg, hcores, hval, hb⟩ := dbgMem_reads h hm (hok _) hcn rfl hn
      exact hread.commands (e1.trans hu) ⟨⟨hdbg, hcores⟩, hval, hb⟩
    · obtain ⟨u, hu, hdbg, hcores, hb⟩ := dbgMem_writes h hm (hok _) hcn (.inl rfl) (length_bytesOfNat ..) (by rw [if_neg (by decide)])
      exact hwrite.commands ((e2 hf).trans hu) ⟨⟨hdbg, hcores⟩, Part.holds (k := 0) ⟨[], [], by simp, rfl⟩ hb, sameBytesBut_of_putBytes hb (length_bytesOfNat ..)⟩
    · obtain ⟨u, hu, hdbg, hcores, hb, hwords⟩ := dbgMem_readsLine h hm (hok _) hclear rfl rfl
      exact hlineR.commands (e3.trans hu) ⟨⟨hdbg, hcores⟩, hb, hwords⟩
    · have hlen : ((List.range 16).flatMap fun i => bytesOfNat (reg s (0x5002340 + 4 * i)).toNat 4).length = 64 := by
        simp [List.length_flatMap, length_bytesOfNat]
      obtain ⟨u, hu, hdbg, hcores, hb⟩ := dbgMem_writes h hm (hok _) hclear (.inr rfl) hlen (by rw [if_pos rfl])
      exact hlineW.commands ((e4 hf).trans hu) ⟨⟨hdbg, hcores⟩, sameBytesBut_of_putBytes hb hlen, fun k hk =>
        Part.holds (.flatMap (f := fun i => bytesOfNat (reg s (0x5002340 + 4 * i)).toNat 4) (fun j => length_bytesOfNat ..) hk rfl) hb⟩
  case trace =>
    intro size pa on room enabled wrote dropped
    have hoff (h : ¬on) : (reg s 0x500240C).getLsbD 0 = false := by simpa [on] using h
    refine ⟨fun h => ?_, fun h hno => ⟨emit 3 0 none 0 0 s, rfl, ?_⟩, fun h hroom h0 hc => ⟨emit 3 0 none 0 0 s, rfl, ?_⟩, fun hr => ?_⟩
    · show (.next (emit 3 0 none 0 0 s) : Out) = _
      rw [(emit_eq 3 0 none 0 0 s).1 (hoff h)]
    · rw [(emit_eq 3 0 none 0 0 s).2.1 h (Nat.not_lt.mp hno)]
      exact packetDropped_spec s
    · rw [(emit_eq 3 0 none 0 0 s).2.2 h hroom h0]
      exact putPacket_spec hc
    · have hlevel : needLevel s stimRow (0x5010000 + 4 * p.val) true = 1 := by
        have hp := p.isLt
        show blockLevel (0x5010000 + 4 * p.val) true = 1
        rw [blockLevel, if_neg (by omega), if_neg (by omega), if_neg (by omega), if_pos (by omega)]
      have ho : Orders (.stim w p v) w stimRow [p.val] (0x5010000 + 4 * p.val) v s := by
        have haddr : dbgReg (0x10000 + 4 * p.val) = 0x5010000 + 4 * p.val := by
          unfold dbgReg
          omega
        exact ⟨findReg_stim p, by rw [← haddr]; rfl, rfl, rfl, by decide, by rw [hlevel]; exact hr⟩
      have hcmd : command mcmd w stimRow [p.val] (0x5010000 + 4 * p.val) v s = (0, stim w p.val v s) := rfl
      have hstim : (enabled → stim w p.val v s = emit 1 p.val (stimCore w) v.toNat 0 s) ∧ (¬enabled → stim w p.val v s = s) := stim_eq w p.val v s
      refine ⟨fun h => ho.commands hcmd ?_, fun h he hno => ho.commands hcmd ?_, fun h he hroom h0 hc => ho.commands hcmd ?_⟩
      · by_cases he : enabled
        · rw [hstim.1 he]
          exact (emit_eq ..).1 (hoff (h.resolve_right (not_not.mpr he)))
        · exact hstim.2 he
      · rw [hstim.1 he, (emit_eq ..).2.1 h (Nat.not_lt.mp hno)]
        exact packetDropped_spec s
      · rw [hstim.1 he, (emit_eq ..).2.2 h hroom h0]
        cases w <;> exact putPacket_spec hc
  case wrap =>
    intro r off counts asks
    have hiff : (decide (csr r off = BitVec.allOnes 64) && pmCounts r (levelOf r) i.val && ((coreOf s lc.val).standing == .issuing)) = true ↔ counts := by
      simp [counts, and_assoc]
    refine ⟨fun h => ?_, fun h hsel => ⟨_, rfl, ?_⟩⟩
    · exact congrArg (fun x => (.next x : Out)) (if_neg fun hc => h (hiff.mp hc))
    · rw [if_pos (hiff.mpr h)]
      exact pmAdd_top i.isLt _ rfl h.1 hsel

end Sys2Proof.Machine
end

section
/-! A request at its home (10 R253, R258): what it becomes where snoops are needed, and where none is. -/

namespace Sys2Proof.Machine
variable {s t : State} {line : Nat}

/-! ### Coherent messages that leave -/

/-- `t` is `s` but for the links and what counts their traffic. -/
def SentOnly (s t : State) : Prop := ∃ l f c, t = { s with links := l, frk := f, ctl := { s.ctl with counters := c } }
namespace SentOnly
theorem refl (s : State) : SentOnly s s := ⟨_, _, _, rfl⟩
theorem trans {u : State} (h : SentOnly s t) (h' : SentOnly t u) : SentOnly s u := by
  obtain ⟨_, _, _, rfl⟩ := h
  obtain ⟨_, _, _, rfl⟩ := h'
  exact ⟨_, _, _, rfl⟩
end SentOnly
theorem sentOnly_transmit (p : Nat) (m : Msg) (s : State) : SentOnly s (transmit p m s) := by
  unfold transmit
  extract_lets po s1 s2
  have h2 : SentOnly s s2 := ⟨_, _, _, rfl⟩
  split
  · exact h2.trans ⟨_, _, _, rfl⟩
  · exact h2
theorem sentOnly_sendCohOne (s : State) (m : CohMsg) : SentOnly s (sendCohOne s m) := by
  unfold sendCohOne
  split
  · exact .refl s
  · split
    · exact sentOnly_transmit ..
    · exact ⟨_, _, _, rfl⟩
theorem sentOnly_sendCoh (s : State) : SentOnly s (sendCoh s) := by
  have hfold : ∀ (l : List CohMsg) (a : State), SentOnly a (l.foldl sendCohOne a) := fun l => by
    induction l with
    | nil => exact .refl
    | cons m l ih => exact fun a => (sentOnly_sendCohOne a m).trans (ih _)
  exact SentOnly.trans (t := { s with links := { s.links with cohOut := [] } }) ⟨_, _, _, rfl⟩ (hfold _ _)
theorem sendCoh_empty (hc : s.links.cohOut = []) : sendCoh s = s := by
  rw [sendCoh_quiet hc, ← hc]
/-- With no port joined, the messages for joined devices wait and the others are dropped. -/
theorem sendCoh_unjoined (h : ∀ e, joinedWith s e = []) :
    sendCoh s = { s with links := { s.links with cohOut := s.links.cohOut.filter fun m => s.links.peers.getLsbD m.slot } } := by
  have hone (xs : List CohMsg) (m : CohMsg) : sendCohOne { s with links := { s.links with cohOut := xs } } m =
      { s with links := { s.links with cohOut := xs ++ if s.links.peers.getLsbD m.slot then [m] else [] } } := by
    have hj : joinedWith { s with links := { s.links with cohOut := xs } } m.slot = [] := h m.slot
    rw [sendCohOne, hj]
    cases s.links.peers.getLsbD m.slot
    · simp
    · rfl
  have hfold : ∀ (l xs : List CohMsg), l.foldl sendCohOne { s with links := { s.links with cohOut := xs } } =
      { s with links := { s.links with cohOut := xs ++ l.filter fun m => s.links.peers.getLsbD m.slot } } := fun l => by
    induction l with
    | nil => simp
    | cons m l ih =>
      intro xs
      rw [List.foldl_cons, hone, ih, List.filter_cons, List.append_assoc]
      cases s.links.peers.getLsbD m.slot <;> rfl
  exact hfold _ []

/-! ### A request with snoops to wait for -/

/-- The snoops of another device's copies, as messages. -/
def snoopMsgs (line : Nat) (sn : List (Nat × SnoopKind)) : List CohMsg :=
  (sn.filter fun y => decide (600 ≤ y.1)).map fun y => { slot := y.1 - 600, kind := .snoop y.2, line := line, tc := 0, data := none }
theorem sendSnoops_eq (line : Nat) (sn : List (Nat × SnoopKind)) (s : State) :
    sendSnoops line sn s = { s with links := { s.links with cohOut := s.links.cohOut ++ snoopMsgs line sn } } := by
  unfold sendSnoops
  induction sn generalizing s with
  | nil => simp [snoopMsgs]
  | cons y sn ih =>
    rw [List.foldl_cons, ih]
    by_cases hy : 600 ≤ y.1
    · rw [if_pos hy]
      simp [snoopMsgs, hy, cohSend]
    · rw [if_neg hy]
      simp [snoopMsgs, hy]

/-- The home has taken a request up: it stands last in the queue, and is counted. -/
def taken (q : HomeReq) (c : SMap Word64) (s : State) : State :=
  { s with ctl := { s.ctl with counters := c }, mem := { s.mem with homeQ := s.mem.homeQ ++ [q] } }
theorem countReq_own {q : HomeReq} (h : remoteSlot s q.line = none) : ∃ c, countReq q s = { s with ctl := { s.ctl with counters := c } } := by
  simp only [countReq, h]
  cases q.req <;> exact ⟨_, rfl⟩

section
variable {q : HomeReq} (h : HomeIdle s line) (hl : q.line = line)
include h hl
theorem HomeIdle.absent : q ∉ s.mem.homeQ := fun hq => h.idle.1 q hq hl
theorem HomeIdle.next : (s.mem.homeQ ++ [q]).find? (fun x => x.line == line) = some q := by
  have hnone : s.mem.homeQ.find? (fun x => x.line == line) = none := by simpa using h.idle.1
  rw [List.find?_append, hnone]
  simp [hl]
theorem HomeIdle.counted : ∃ c, countReq q { s with mem := { s.mem with homeQ := s.mem.homeQ ++ [q] } } = taken q c s :=
  countReq_own (s := { s with mem := { s.mem with homeQ := s.mem.homeQ ++ [q] } }) (by rw [hl]; exact h.own)
theorem sendReq_begins (ht : homeTakes s q.req q.line = true) :
    sendReq q s = beginNext line (s.mem.homeQ.length + 1) { s with mem := { s.mem with homeQ := s.mem.homeQ ++ [q] } } := by
  have hready : (!homeTakes s q.req q.line || islandSilent s (uHome (homeOf s q.line))) = false := by rw [ht, hl, h.awake]; rfl
  rw [sendReq, hready, hl]
  simp
theorem HomeIdle.none_served (hs : q.served = false) : ((s.mem.homeQ ++ [q]).any fun x => x.line == line && x.served) = false := by
  rw [List.any_append, List.any_cons, hs]
  simpa using fun x hx hxl => absurd hxl (h.idle.1 x hx)

/-- The request waits for the answers of the snoops its home has sent. -/
theorem sendReq_waits (hs : q.served = false) (ht : homeTakes s q.req q.line = true) (hk : q.kind ≠ .wb ∧ q.kind ≠ .evc)
    (hne : snoopsOf q s ≠ []) : ∃ c, sendReq q s = { taken { q with served := true, pending := snoopsOf q s, since := nowNs s } c s with
      links := { s.links with cohOut := snoopMsgs line (snoopsOf q s) } } := by
  obtain ⟨c, hcount⟩ := h.counted hl
  have hsn : snoopsOf q (taken q c s) = snoopsOf q s := rfl
  have hempty : (snoopsOf q s).isEmpty = false := by simpa using hne
  have hrep : (s.mem.homeQ ++ [q]).replace q { q with served := true, pending := snoopsOf q s, since := nowNs s } =
      s.mem.homeQ ++ [{ q with served := true, pending := snoopsOf q s, since := nowNs s }] := by
    rw [List.replace_append_right (h.absent hl)]
    simp
  rw [sendReq_begins h hl ht, beginNext, if_neg (by rw [h.none_served hl hs]; exact Bool.false_ne_true)]
  simp only [h.next hl, hcount, hsn, hempty, if_neg (show ¬(q.kind = .wb ∨ q.kind = .evc) from fun hor => hor.elim hk.1 hk.2), Bool.false_eq_true, if_false]
  rw [sendSnoops_eq, show (taken q c s).links.cohOut = [] from h.quiet]
  exact ⟨_, congrArg (fun x => ({ s with ctl := _, links := _, mem := { s.mem with homeQ := x } } : State)) hrep⟩

omit h hl in
/-- Where no request for the line stands in the queue, none is taken up. -/
theorem HomeIdle.rests (h : HomeIdle s line) {t : State} (n : Nat) (ht : t.mem.homeQ = s.mem.homeQ) : beginNext line n t = t := by
  cases n with
  | zero => rfl
  | succ n =>
    have hany : (t.mem.homeQ.any fun x => x.line == line && x.served) = false := by
      rw [ht]
      simpa using fun x hx hxl => absurd hxl (h.idle.1 x hx)
    have hfind : t.mem.homeQ.find? (fun x => x.line == line) = none := by
      rw [ht]
      simpa using h.idle.1
    rw [beginNext, if_neg (by rw [hany]; exact Bool.false_ne_true), hfind]
/-- A request that needs no snoop is served, its home idle again. -/
theorem sendReq_done (hs : q.served = false) (ht : homeTakes s q.req q.line = true) (hk : q.kind ≠ .wb ∧ q.kind ≠ .evc)
    (hnil : snoopsOf q s = []) : ∃ c, let x := homeDone q (taken q c s)
      sendReq q s = { x.2.2 with ans := { status := 0, value := x.1 },
                                 mem := { x.2.2.mem with homeQ := s.mem.homeQ, grants := x.2.2.mem.grants ++ x.2.1.toList } } := by
  obtain ⟨c, hcount⟩ := h.counted hl
  have hsn : snoopsOf q (taken q c s) = [] := hnil
  have herase : (s.mem.homeQ ++ [q]).erase q = s.mem.homeQ := by
    rw [List.erase_append_right _ (h.absent hl)]
    simp
  refine ⟨c, ?_⟩
  rw [sendReq_begins h hl ht, beginNext, if_neg (by rw [h.none_served hl hs]; exact Bool.false_ne_true)]
  simp only [h.next hl, hcount, hsn, if_neg (show ¬(q.kind = .wb ∨ q.kind = .evc) from fun hor => hor.elim hk.1 hk.2), List.isEmpty_nil, if_true, herase]
  generalize homeDone q (taken q c s) = x
  obtain ⟨w, g, u⟩ := x
  cases g <;> exact h.rests _ rfl
end

end Sys2Proof.Machine
end

section
/-! Requests that wait at their home for the answers of snoops (10 R252, R253, R263). -/

namespace Sys2Proof.Machine
variable {s : State} {line : Nat}

/-! ### The snoops a request needs -/

/-- The snoop of the owner, where that is not the requester itself. -/
def ownSnoop (d : DirEntry) (me : Nat) (k : SnoopKind) : List (Nat × SnoopKind) :=
  match d.owner with
  | some p => if p = me then [] else [(p, k)]
  | none => []
/-- The snoops of the holders beside the owner and the requester. -/
def otherSnoops (d : DirEntry) (me : Nat) : List (Nat × SnoopKind) :=
  ((groupPcs d.sharers ++ ((List.range 4).filter fun e => d.devs.getLsbD e).map (600 + ·)).filter fun p =>
    decide (p ≠ me ∧ d.owner ≠ some p)).map fun p => (p, .inv)
theorem ownSnoop_eq (d : DirEntry) (me : Nat) (k : SnoopKind) :
    d.owner.toList.filterMap (fun p => if p = me then none else some (p, k)) = ownSnoop d me k := by
  unfold ownSnoop
  cases d.owner with
  | none => rfl
  | some p =>
    by_cases hp : p = me
    · simp [hp]
    · simp [hp]
theorem devHolders_eq (devs : BitVec 4) (owner : Option Nat) (me : Nat) : devHolders devs owner me =
    (((List.range 4).filter fun e => devs.getLsbD e).map (600 + ·)).filter fun p => decide (p ≠ me ∧ owner ≠ some p) := by
  rw [devHolders, List.filter_map, List.filter_map, List.filter_filter]
  refine congrArg (List.map (600 + ·)) (List.filter_congr fun e _ => ?_)
  show (devs.getLsbD (600 + e - 600) && decide (owner ≠ some (600 + e) ∧ 600 + e ≠ me)) = (decide (600 + e ≠ me ∧ owner ≠ some (600 + e)) && devs.getLsbD e)
  rw [Nat.add_sub_cancel_left, Bool.and_comm]
  exact congrArg (· && devs.getLsbD e) (decide_eq_decide.2 and_comm)
theorem otherSnoops_eq (d : DirEntry) (me : Nat) : ((groupPcs d.sharers).filter (fun p => decide (p ≠ me ∧ d.owner ≠ some p)) ++
    devHolders d.devs d.owner me).map (fun p => (p, SnoopKind.inv)) = otherSnoops d me := by
  rw [otherSnoops, devHolders_eq, List.filter_append]
section
/-! The table *Home actions* (10 R253): who is snooped, and how. -/
variable (d : DirEntry) (still : Bool) (r : Requester)
theorem homeSnoops_rs : homeSnoops d still .rs r = ownSnoop d (holderNum r) .shared := ownSnoop_eq ..
theorem homeSnoops_rnc : homeSnoops d still .rnc r = ownSnoop d (holderNum r) .read := ownSnoop_eq ..
theorem homeSnoops_cmoc : homeSnoops d still .cmoc r = ownSnoop d (holderNum r) .clean := ownSnoop_eq ..
theorem homeSnoops_fw : homeSnoops d still .fw r = ownSnoop d (holderNum r) .inv ++ otherSnoops d (holderNum r) := by
  rw [← ownSnoop_eq, ← otherSnoops_eq]
  rfl
theorem homeSnoops_unique {k : ReqKind} (hk : k = .ru ∨ k = .pw ∨ k = .famo ∨ k = .cmoi) :
    homeSnoops d still k r = ownSnoop d (holderNum r) .unique ++ otherSnoops d (holderNum r) := by
  rw [← ownSnoop_eq, ← otherSnoops_eq]
  rcases hk with rfl | rfl | rfl | rfl <;> rfl
theorem homeSnoops_upg : homeSnoops d still .upg r =
    (if still then ownSnoop d (holderNum r) .inv else ownSnoop d (holderNum r) .unique) ++ otherSnoops d (holderNum r) := by
  rw [← ownSnoop_eq, ← ownSnoop_eq, ← otherSnoops_eq]
  rfl
end
theorem dirOf_line (s : State) (h line : Nat) : (dirOf s h line).line = line := by
  unfold dirOf
  split
  next hfind =>
    obtain ⟨⟨_, o⟩, _, ho⟩ := List.exists_of_findSome?_eq_some hfind
    cases o with
    | none => cases ho
    | some d =>
      by_cases hd : d.line = line
      · simp only [hd, if_true, Option.some.injEq, Prod.mk.injEq] at ho
        rw [← ho.2, hd]
      · simp [hd] at ho
  · rfl
/-- An L2 that has a copy, and no grant of the line on its way, is still a holder. -/
theorem stillHolder_copy {pc : Nat} {x : Nat × L2Line} (h : HomeIdle s line) (hx : l2Copy s pc line = some x) :
    stillHolder s (dirOf s (homeOf s line) line) (.l2 pc) = true := by
  have hg : grantOf s pc line = none := by simpa [grantOf] using fun g hg _ => h.idle.2 g hg
  rw [stillHolder, dirOf_line, l2State, hg, hx]
  rfl

/-! ### The request waits -/

/-- What a request that waits leaves: it stands in the queue with its snoops out; only counters and messages have changed beside. -/
theorem completes_waits {i : Instr} {q : HomeReq} (hexec : exec i s = .next (sendCoh (sendReq q s))) (h : HomeIdle s line) (hl : q.line = line)
    (hs : q.served = false) (ht : homeTakes s q.req q.line = true) (hk : q.kind ≠ .wb ∧ q.kind ≠ .evc) {sn : List (Nat × SnoopKind)}
    (hsn : snoopsOf q s = sn) (hne : sn ≠ []) : Completes i s fun t =>
      t.mem.homeQ = s.mem.homeQ ++ [{ q with served := true, pending := sn, since := nowNs s }] ∧ t.mem.grants = s.mem.grants ∧ SameBytes s t ∧
      ((∀ y ∈ sn, y.1 < 600) → { t with ctl := { t.ctl with counters := s.ctl.counters }, mem := { t.mem with homeQ := s.mem.homeQ } } = s) ∧
      ((∀ e, joinedWith s e = []) →
        t.links.cohOut = (sn.filter fun y => decide (600 ≤ y.1) && s.links.peers.getLsbD (y.1 - 600)).map (fun y =>
          { slot := y.1 - 600, kind := .snoop y.2, line := line, tc := 0, data := none }) ∧
        { t with ctl := { t.ctl with counters := s.ctl.counters }, mem := { t.mem with homeQ := s.mem.homeQ }, links := s.links } = s) := by
  obtain ⟨c, hwait⟩ := sendReq_waits h hl hs ht hk (by rw [hsn]; exact hne)
  rw [hsn] at hwait
  generalize hq' : ({ q with served := true, pending := sn, since := nowNs s } : HomeReq) = q' at hwait ⊢
  generalize hu : sendReq q s = u at hwait hexec
  refine ⟨_, hexec, ?_, ?_, ?_, ?_, ?_⟩
  · obtain ⟨_, _, _, hpass⟩ := sentOnly_sendCoh u
    rw [hpass, hwait]
    rfl
  · obtain ⟨_, _, _, hpass⟩ := sentOnly_sendCoh u
    rw [hpass, hwait]
    rfl
  · obtain ⟨_, _, _, hpass⟩ := sentOnly_sendCoh u
    rw [hpass, hwait]
    exact fun _ => rfl
  · intro hlow
    have hmsgs : snoopMsgs line sn = [] := by
      rw [snoopMsgs, List.filter_eq_nil_iff.2 fun y hy => by simpa using hlow y hy]
      rfl
    rw [hwait, hmsgs, sendCoh_empty rfl, ← h.quiet]
    rfl
  · intro hj
    have hju : ∀ e, joinedWith u e = [] := by
      rw [hwait]
      exact hj
    rw [sendCoh_unjoined hju, hwait]
    refine ⟨?_, rfl⟩
    show (snoopMsgs line sn).filter (fun m => s.links.peers.getLsbD m.slot) = _
    rw [snoopMsgs, List.filter_map, List.filter_filter]
    exact congrArg _ (List.filter_congr fun y _ => Bool.and_comm ..)

/-! ### Who asks -/

theorem homeTakes_own (h : HomeIdle s line) : homeTakes s .agent line = true ∧ (∀ pc, homeTakes s (.l2 pc) line = true) ∧
    ∀ e, s.links.peers.getLsbD e = true → homeTakes s (.dev e) line = true := by
  refine ⟨?_, fun pc => ?_, fun e he => ?_⟩
  · simp [homeTakes, h.memory, h.backed]
  · simp [homeTakes, h.memory, h.backed]
  · simp only [homeTakes, h.memory, h.backed, h.own, he, Option.isNone_none, Bool.and_self]
theorem fromPeer_joined {r : Requester} (hr : r = .agent ∨ (∃ pc, r = .l2 pc) ∨ ∃ e, r = .dev e ∧ s.links.peers.getLsbD e = true) (f : State → State) :
    fromPeer r f s = f s := by
  rcases hr with rfl | ⟨pc, rfl⟩ | ⟨e, rfl, he⟩
  · rfl
  · rfl
  · rw [fromPeer, if_pos he]
/-- A device that no port reaches leaves its requests without effect. -/
theorem fromPeer_absent {e : Nat} (he : s.links.peers.getLsbD e = false)
    (hno : ∀ p, p < 8 → ¬(portUp s p = true ∧ (port s p).peerValid = true ∧ (port s p).peerSlot = e)) (f : State → State) :
    fromPeer (.dev e) f s = s := by
  have hfind : (List.range 8).find? (fun p => portUp s p && (port s p).peerValid && (port s p).peerSlot == e) = none := by
    rw [List.find?_eq_none]
    intro p hp hpe
    simp only [Bool.and_eq_true, beq_iff_eq] at hpe
    exact hno p (List.mem_range.1 hp) ⟨hpe.1.1, hpe.1.2, hpe.2⟩
  rw [fromPeer, if_neg (by rw [he]; exact Bool.false_ne_true), hfind]

end Sys2Proof.Machine
end

section
/-! A request that its home serves at once: the line is in no cache but the slice (10 R253, R255; 09 R230, R236). -/

namespace Sys2Proof.Machine
variable {s t : State} {line h : Nat}

/-! ### What the slice holds -/

/-- An entry put where the first match stands, or where there is no match, is the one found. -/
theorem findSome?_smInsert {α β : Type} {f : Nat × α → Option (Nat × β)} (hf : ∀ e x, f e = some x → x.1 = e.1) {k : Nat} {v : α} {y : Nat × β}
    (hy : f (k, v) = some y) : ∀ m : SMap α, (∀ x, m.findSome? f = some x → x.1 = k) → (smInsert m k v).findSome? f = some y
  | [], _ => by simp [smInsert, hy]
  | (k', v') :: m, hm => by
    rw [smInsert]
    split
    · rw [List.findSome?_cons, hy]
    · split
      · rw [List.findSome?_cons, hy]
      · rename_i hne
        have hmiss : f (k', v') = none := by
          cases hx : f (k', v') with
          | none => rfl
          | some x => exact absurd ((hf _ _ hx).symm.trans (hm x (by rw [List.findSome?_cons, hx]))).symm hne
        rw [List.findSome?_cons, hmiss]
        exact findSome?_smInsert hf hy m fun x hx => hm x (by rw [List.findSome?_cons, hmiss]; exact hx)

/-- `t` is `s` but for the copies and entries in slices and for counters. -/
def Sliced (s t : State) : Prop := ∃ sl c, t = { s with mem := { s.mem with slices := sl }, ctl := { s.ctl with counters := c } }
/-- Beside that each directory is that of before. -/
structure Refilled (s t : State) : Prop where
  sliced : Sliced s t
  dirs : ∀ n, (slice t n).dir = (slice s n).dir
namespace Sliced
theorem refl (s : State) : Sliced s s := ⟨_, _, rfl⟩
theorem trans {u : State} (h : Sliced s t) (h' : Sliced t u) : Sliced s u := by
  obtain ⟨_, _, rfl⟩ := h
  obtain ⟨_, _, rfl⟩ := h'
  exact ⟨_, _, rfl⟩
theorem bytes (h : Sliced s t) : t.mem.bytes = s.mem.bytes := by
  obtain ⟨_, _, rfl⟩ := h
  rfl
theorem remoteSlot_eq (h : Sliced s t) (line : Nat) : remoteSlot t line = remoteSlot s line := by
  obtain ⟨_, _, rfl⟩ := h
  rfl
theorem cohOut (h : Sliced s t) : t.links.cohOut = s.links.cohOut := by
  obtain ⟨_, _, rfl⟩ := h
  rfl
end Sliced
namespace Refilled
theorem refl (s : State) : Refilled s s := ⟨.refl s, fun _ => rfl⟩
theorem trans {u : State} (h : Refilled s t) (h' : Refilled t u) : Refilled s u := ⟨h.sliced.trans h'.sliced, fun n => (h'.dirs n).trans (h.dirs n)⟩
theorem counted (h which : Nat) (s : State) : Refilled s (hnCnt h which s) := ⟨⟨_, _, rfl⟩, fun _ => rfl⟩
theorem findDir_eq (h : Refilled s t) (n line : Nat) : findDir t n line = findDir s n line := by rw [findDir, findDir, h.dirs]
theorem setSlice {n : Nat} {x : Slice} (h : x.dir = (slice s n).dir) : Refilled s (setSlice n x s) := by
  refine ⟨⟨_, _, rfl⟩, fun m => ?_⟩
  rw [slice_setSlice]
  split
  next hm => rw [hm, h]
  next => rfl
end Refilled
theorem refilled_dropL3 (h line : Nat) (s : State) : Refilled s (dropL3 h line s) := by
  unfold dropL3
  split
  · exact .setSlice rfl
  · exact .refl s
theorem refilled_putL3 (h slot : Nat) (l : L3Line) (s : State) : Refilled s (putL3 h slot l s) := .setSlice rfl
theorem refilled_serveFromL3 (h line : Nat) (k : ReqKind) (s : State) : Refilled s (serveFromL3 h line k s) := by
  unfold serveFromL3
  split
  · extract_lets s1
    have h1 : Refilled s s1 := .counted ..
    split
    · exact h1.trans (refilled_dropL3 ..)
    · exact h1.trans (refilled_dropL3 ..)
    · exact h1.trans (refilled_putL3 ..)
    · exact h1
  · exact .refl s
theorem l3Copy_dropL3 (h line : Nat) (s : State) : l3Copy (dropL3 h line s) h line = none := by
  unfold dropL3 l3Copy
  split
  next hon =>
    rw [slice_setSlice, if_pos rfl, if_pos hon, findL3, List.findSome?_eq_none_iff]
    rintro ⟨k, o⟩ he
    have hkeep := (List.mem_filter.1 he).2
    cases o with
    | none => rfl
    | some l => simpa using hkeep
  next => rfl
/-- The copy that stands where the line was found is the one found. -/
theorem l3Copy_putL3 {x : Nat × L3Line} (hx : l3Copy s h line = some x) {l : L3Line} (hl : l.line = line) :
    l3Copy (putL3 h x.1 l s) h line = some (x.1, l) := by
  unfold l3Copy at hx
  split at hx
  next hon =>
    rw [putL3, l3Copy, slice_setSlice, if_pos rfl, if_pos hon, findL3]
    show List.findSome? _ (smPut optDef _ _ (some l)) = _
    rw [smPut_eq, if_neg (by simp [optDef])]
    refine findSome?_smInsert ?_ (by simp [hl]) _ fun y hy => ?_
    · rintro ⟨k, o⟩ y hy
      cases o with
      | none => cases hy
      | some l' =>
        by_cases hl' : l'.line = line
        · simp only [hl', if_true, Option.some.injEq] at hy
          rw [← hy]
        · simp [hl'] at hy
    · exact congrArg Prod.fst (Option.some.inj (hy.symm.trans hx))
  next => cases hx

/-! ### The directory -/

/-- The entry of a line the directory does not list. -/
def unlisted (line : Nat) : DirEntry := { line := line, owner := none, sharers := 0, devs := 0, proxy := false }
theorem dirOf_unlisted (hd : findDir s h line = none) : dirOf s h line = unlisted line := by rw [dirOf, hd]; rfl
/-- A holder of a line that had none gets an entry in a free slot of its set. -/
theorem setDir_made (hd : findDir s h line = none) (hfree : ∃ i, i < 18 ∧ smGet optDef (slice s h).dir (l3Set line * 18 + i) = none)
    (hown : remoteSlot s line = none) (p : Nat) (sharers : BitVec 72) (devs : BitVec 4) : Sliced s (setDir h line (some p) sharers devs s) ∧
    dirOf (setDir h line (some p) sharers devs s) h line = { line := line, owner := some p, sharers := sharers, devs := devs, proxy := false } := by
  have hslot : ∃ k, dirSlot h line s = (k, s) := by
    obtain ⟨i, hi, hnone⟩ := hfree
    have hfind : ((List.range 18).find? fun w => (smGet optDef (slice s h).dir (l3Set line * 18 + w)).isNone).isSome = true := by
      rw [List.find?_isSome]
      exact ⟨i, List.mem_range.2 hi, by rw [hnone]; rfl⟩
    obtain ⟨w, hw⟩ := Option.isSome_iff_exists.1 hfind
    have hfreeW : smGet optDef (slice s h).dir (l3Set line * 18 + w) = none := by simpa using List.find?_some hw
    have hpick : pickWay (lfsrSlice h) (slice s h).dir (l3Set line) 18 (List.range 18) s = (some (l3Set line * 18 + w), s) := by
      rw [show List.range 18 = 0 :: (List.range' 1 17) from rfl] at hw ⊢
      simp only [pickWay, hw]
    refine ⟨l3Set line * 18 + w, ?_⟩
    simp only [dirSlot, hd, hpick, Option.getD_some, hfreeW]
  obtain ⟨k, hslot⟩ := hslot
  have hset : setDir h line (some p) sharers devs s =
      putDir h k (some { line := line, owner := some p, sharers := sharers, devs := devs, proxy := false }) s := by
    simp only [setDir, Option.isNone_some, Bool.false_and, Bool.false_eq_true, if_false, hslot, hown, Option.isSome_none]
  rw [hset]
  refine ⟨⟨_, _, rfl⟩, ?_⟩
  have hfind : findDir (putDir h k (some { line := line, owner := some p, sharers := sharers, devs := devs, proxy := false }) s) h line =
      some (k, { line := line, owner := some p, sharers := sharers, devs := devs, proxy := false }) := by
    rw [findDir, putDir, slice_setSlice, if_pos rfl]
    show List.findSome? _ (smPut optDef _ _ _) = _
    rw [smPut_eq, if_neg (by simp [optDef])]
    refine findSome?_smInsert ?_ (by simp) _ fun x hx => absurd (hx.symm.trans hd) (by simp)
    rintro ⟨k, o⟩ y hy
    cases o with
    | none => cases hy
    | some d =>
      by_cases hd' : d.line = line
      · simp only [hd', if_true, Option.some.injEq] at hy
        rw [← hy]
      · simp [hd'] at hy
  rw [dirOf, hfind]

end Sys2Proof.Machine
end

section
/-! What the home does at once for each kind of request (10 R253): the grant, the write, the far atomic, the maintenance. -/

namespace Sys2Proof.Machine
variable {s t : State} {line : Nat}

/-! ### The home's work -/

theorem keptGroups_none (v : BitVec 72) : keptGroups v [] = 0 := by simp [keptGroups]
theorem heldElsewhere_unlisted (s : State) (r : Requester) (line : Nat) : heldElsewhere s (unlisted line) r line = false := by
  simp [heldElsewhere, unlisted, devHolders, groupPcs_zero]

/-- The state a grant of a line that no cache holds gives. -/
def grantedState (k : ReqKind) : LineState := if k = .rs then .e else .m
section
variable (hd : findDir s (homeOf s line) line = none) (hown : remoteSlot s line = none) {k : ReqKind} (hk : k = .rs ∨ k = .ru ∨ k = .upg) (b : ReqData)
include hd hown hk
theorem homeFinish_l2 (p : Nat) : ∃ g src, Refilled s src ∧ (g.pc = p ∧ g.line = line ∧ g.st = grantedState k) ∧
    homeFinish s { kind := k, req := .l2 p, line := line, body := b } =
      (0, some g, setDir (homeOf s line) line (some p) (groupBit p) 0 src) := by
  have hdir := dirOf_unlisted hd
  have hshare : (0 : BitVec 72) ||| groupBit p = groupBit p := BitVec.zero_or
  rcases hk with rfl | rfl | rfl
  · refine ⟨{ pc := p, line := line, st := .e, stale := l3Stale s (homeOf s line) line }, _, refilled_serveFromL3 (homeOf s line) line .rs s,
      ⟨rfl, rfl, rfl⟩, ?_⟩
    simp only [homeFinish, hdir, heldElsewhere_unlisted, hown, Option.isNone_none, Bool.or_true, if_true, Bool.false_eq_true, if_false, grantedState]
    rw [show (unlisted line).sharers = 0 from rfl, hshare]
    rfl
  · refine ⟨{ pc := p, line := line, st := .m, stale := l3Stale s (homeOf s line) line }, _, refilled_serveFromL3 (homeOf s line) line .ru s,
      ⟨rfl, rfl, rfl⟩, ?_⟩
    simp only [homeFinish, hdir, keptGroups_none, hshare, Bool.false_eq_true, if_false, grantedState, reduceCtorEq]
  · refine ⟨{ pc := p, line := line, st := .m,
                stale := if stillHolder s (unlisted line) (.l2 p) then none else l3Stale s (homeOf s line) line },
      if stillHolder s (unlisted line) (.l2 p) then s else serveFromL3 (homeOf s line) line .upg s, ?_, ⟨rfl, rfl, rfl⟩, ?_⟩
    · split
      · exact .refl s
      · exact refilled_serveFromL3 _ line .upg s
    · simp only [homeFinish, hdir, keptGroups_none, hshare, Bool.false_eq_true, if_false, grantedState, reduceCtorEq]
theorem homeFinish_dev (e : Nat) : ∃ src, Refilled s src ∧ homeFinish s { kind := k, req := .dev e, line := line, body := b } =
    (0, none, setDir (homeOf s line) line (some (600 + e)) 0 (BitVec.ofNat 4 (2 ^ e)) src) := by
  have hdir := dirOf_unlisted hd
  have hdevs : (0 : BitVec 4) ||| BitVec.ofNat 4 (2 ^ e) = BitVec.ofNat 4 (2 ^ e) := BitVec.zero_or
  rcases hk with rfl | rfl | rfl
  · refine ⟨_, refilled_serveFromL3 (homeOf s line) line .rs s, ?_⟩
    simp only [homeFinish, hdir, heldElsewhere_unlisted, hown, Option.isNone_none, Bool.or_true, if_true, Bool.false_eq_true, if_false]
    rw [show (unlisted line).devs = 0 from rfl, hdevs]
    rfl
  · refine ⟨_, refilled_serveFromL3 (homeOf s line) line .ru s, ?_⟩
    simp only [homeFinish, hdir, keptGroups_none, Bool.false_eq_true, if_false]
    rfl
  · refine ⟨_, refilled_serveFromL3 (homeOf s line) line .upg s, ?_⟩
    simp only [homeFinish, hdir, keptGroups_none, Bool.false_eq_true, if_false]
    rfl
end

section
variable (hd : findDir s (homeOf s line) line = none) (r : Requester) (b : ReqData)
include hd
/-- No entry is made for a line that stays in no cache. -/
theorem setDir_unlisted (h : Refilled s t) : setDir (homeOf s line) line none 0 0 t = t := setDir_clear (by rw [h.findDir_eq, hd])
theorem homeFinish_fw : homeFinish s { kind := .fw, req := r, line := line, body := b } =
    (0, none, setPoison line false (writeBytes (64 * line) (b.bytes.take 64) (dropL3 (homeOf s line) line s))) := by
  simp only [homeFinish, dirOf_unlisted hd, keptGroups_none, setDir_unlisted hd (refilled_dropL3 ..)]
theorem homeFinish_cmoi : homeFinish s { kind := .cmoi, req := r, line := line, body := b } = (0, none, dropL3 (homeOf s line) line s) := by
  simp only [homeFinish, dirOf_unlisted hd, keptGroups_none, setDir_unlisted hd (refilled_dropL3 ..)]
theorem homeFinish_rnc : homeFinish s { kind := .rnc, req := r, line := line, body := b } = (0, none, serveFromL3 (homeOf s line) line .rnc s) := rfl
/-- The state before a masked write or a far atomic: what the slice holds of its own is in memory. -/
theorem homeFinish_pw : ∃ u, u.mem.bytes = (exposeStale line (l3Stale s (homeOf s line) line) s).mem.bytes ∧
    findDir u (homeOf s line) line = none ∧ l3Copy u (homeOf s line) line = none ∧ u.links = s.links ∧ u.mem.homeQ = s.mem.homeQ ∧
    homeFinish s { kind := .pw, req := r, line := line, body := b } = (0, none, writeBytes (64 * line + b.off) (b.bytes.take (64 - b.off)) u) := by
  obtain ⟨⟨sl, c, hsrc⟩, hdirs⟩ := refilled_serveFromL3 (homeOf s line) line .pw s
  generalize hst : l3Stale s (homeOf s line) line = st
  have hbytes : (exposeStale line st (serveFromL3 (homeOf s line) line .pw s)).mem.bytes = (exposeStale line st s).mem.bytes := by
    rw [hsrc]
    cases st <;> rfl
  have hlinks : (exposeStale line st (serveFromL3 (homeOf s line) line .pw s)).links = s.links ∧
      (exposeStale line st (serveFromL3 (homeOf s line) line .pw s)).mem.homeQ = s.mem.homeQ := by
    rw [hsrc]
    cases st <;> exact ⟨rfl, rfl⟩
  have hfind : findDir (exposeStale line st (serveFromL3 (homeOf s line) line .pw s)) (homeOf s line) line = none := by
    rw [findDir, slice_exposeStale, hdirs]
    exact hd
  generalize hv : exposeStale line st (serveFromL3 (homeOf s line) line .pw s) = v at hbytes hlinks hfind
  have hdrop := refilled_dropL3 (homeOf s line) line v
  refine ⟨dropL3 (homeOf s line) line v, hdrop.sliced.bytes.trans hbytes, ?_, l3Copy_dropL3 .., ?_, ?_, ?_⟩
  · rw [hdrop.findDir_eq, hfind]
  · obtain ⟨_, _, hv'⟩ := hdrop.sliced
    rw [hv']
    exact hlinks.1
  · obtain ⟨_, _, hv'⟩ := hdrop.sliced
    rw [hv']
    exact hlinks.2
  · simp only [homeFinish, dirOf_unlisted hd, keptGroups_none, Bool.false_eq_true, if_false, hst, hv]
    rw [show setDir (homeOf s line) line none 0 0 (dropL3 (homeOf s line) line v) = _ from setDir_clear (by rw [hdrop.findDir_eq, hfind])]
theorem homeFinish_famo (hown : remoteSlot s line = none) : ∃ u, u.mem.bytes = (exposeStale line (l3Stale s (homeOf s line) line) s).mem.bytes ∧
    u.links = s.links ∧ let pa := 64 * line + b.off
    ∃ w, homeFinish s { kind := .famo, req := r, line := line, body := b } = (amoOld b.wide pa u, none, w) ∧
      w.mem.bytes = putBytes (amoNew (amoCode b.op) b.wide b.gs b.gt pa u) pa u.mem.bytes ∧ w.links = s.links := by
  generalize hst : l3Stale s (homeOf s line) line = st
  have hoff := offered_offerL3 (homeOf s line) line true (exposeStale line st s)
  have hlinks : (offerL3 (homeOf s line) line true (exposeStale line st s)).links = s.links := by
    obtain ⟨_, _, _, _, hu, -⟩ := hoff
    rw [hu]
    cases st <;> rfl
  have hset : setDir (homeOf s line) line none 0 0 (offerL3 (homeOf s line) line true (exposeStale line st s)) =
      offerL3 (homeOf s line) line true (exposeStale line st s) := setDir_clear (by
    rw [hoff.findDir_eq, findDir, slice_exposeStale]
    exact hd)
  refine ⟨_, hoff.bytes, hlinks, ?_⟩
  intro pa
  generalize hu : offerL3 (homeOf s line) line true (exposeStale line st s) = u at hlinks hset
  refine ⟨hnCnt (homeOf s line) cntFamo (writeBytes pa (amoNew (amoCode b.op) b.wide b.gs b.gt pa u) u), by
    simp only [homeFinish, dirOf_unlisted hd, keptGroups_none, Bool.false_eq_true, if_false, hst, hu, hset, amoAt_eq, hown, Option.isSome_none]
    rfl, rfl, hlinks⟩
/-- A cleaned line stands in the slice as it did, and no longer dirty. -/
theorem homeFinish_cmoc : let st := l3Copy s (homeOf s line) line
    ∃ u, homeFinish s { kind := .cmoc, req := r, line := line, body := b } = (0, none, u) ∧ (∀ x, l3Copy u (homeOf s line) line = some x → x.2.dirty = false) ∧
      Sliced (if st.any fun x => x.2.dirty then exposeStale line (l3Stale s (homeOf s line) line) s else s) u := by
  intro st
  have hdir := dirOf_unlisted hd
  have hclean (v : State) : ownerAfterClean v (unlisted line) = none := rfl
  cases hl : l3Copy s (homeOf s line) line with
  | none =>
    refine ⟨s, ?_, fun x hx => absurd (hl.symm.trans hx) (by simp), ?_⟩
    · simp only [homeFinish, hdir, hl, hclean]
      rw [show setDir (homeOf s line) line none (unlisted line).sharers (unlisted line).devs s = s from setDir_clear hd]
    · rw [show st = none from hl]
      exact .refl s
  | some x =>
    obtain ⟨slot, l⟩ := x
    have hlLine : l.line = line := by
      unfold l3Copy at hl
      split at hl
      · obtain ⟨⟨_, o⟩, _, ho⟩ := List.exists_of_findSome?_eq_some hl
        cases o with
        | none => cases ho
        | some d =>
          by_cases hd : d.line = line
          · simp only [hd, if_true, Option.some.injEq, Prod.mk.injEq] at ho
            rw [← ho.2, hd]
          · simp [hd] at ho
      · cases hl
    have hcopy (x : Option Vec) : l3Copy (exposeStale line x s) (homeOf s line) line = some (slot, l) := by
      rw [l3Copy, slice_exposeStale]
      exact hl
    generalize hv : exposeStale line (if l.dirty then l.stale else none) s = v
    have hvl : l3Copy v (homeOf s line) line = some (slot, l) := by rw [← hv, hcopy]
    have hput := refilled_putL3 (homeOf s line) slot { l with dirty := false, stale := none } v
    have hvd : findDir v (homeOf s line) line = none := by
      rw [← hv, findDir, slice_exposeStale]
      exact hd
    refine ⟨putL3 (homeOf s line) slot { l with dirty := false, stale := none } v, ?_, fun x hx => ?_, ?_⟩
    · simp only [homeFinish, hdir, hl, hclean, hv]
      rw [show setDir (homeOf s line) line none (unlisted line).sharers (unlisted line).devs _ = _ from setDir_clear (by rw [hput.findDir_eq, hvd])]
    · have hnow := l3Copy_putL3 hvl (l := { l with dirty := false, stale := none }) hlLine
      rw [← Option.some.inj (hnow.symm.trans hx)]
    · have hbase : (if st.any fun x => x.2.dirty then exposeStale line (l3Stale s (homeOf s line) line) s else s) = v := by
        have hstale : l3Stale s (homeOf s line) line = l.stale := by rw [l3Stale, hl]
        rw [← hv, show st = some (slot, l) from hl, hstale]
        cases hdirty : l.dirty <;> simp [hdirty, exposeStale]
      rw [hbase]
      exact hput.sliced
end

end Sys2Proof.Machine
end

section
/-! Line maintenance by a command of a home node (09 R246). -/

namespace Sys2Proof.Machine
-- One declaration after another: each `decide +kernel` waits for the kernel's turn, and many at once would hold a thread each.
set_option Elab.async false
variable {s t : State} {line : Nat}

/-- A line that no cache holds needs no snoop. -/
theorem snoopsOf_unlisted {q : HomeReq} (hl : q.line = line) (hd : findDir s (homeOf s line) line = none) : snoopsOf q s = [] := by
  show homeSnoops (dirOf s (homeOf s q.line) q.line) (stillHolder s (dirOf s (homeOf s q.line) q.line) q.req) q.kind q.req = []
  rw [hl, dirOf_unlisted hd]
  generalize stillHolder s (unlisted line) q.req = still
  have hothers : ((groupPcs (unlisted line).sharers).filter (fun p => decide (p ≠ holderNum q.req ∧ (unlisted line).owner ≠ some p)) ++
      devHolders (unlisted line).devs (unlisted line).owner (holderNum q.req)).map (fun p => (p, SnoopKind.inv)) = [] := by
    simp [devHolders, groupPcs_zero, unlisted]
  cases q.kind <;> cases still <;> simp only [homeSnoops, hothers] <;> rfl

/-- An agent's request for a line of which nothing is under way, run at once. -/
theorem request_idle (h : HomeIdle s line) (hd : findDir s (homeOf s line) line = none) {k : ReqKind} (hk : k ≠ .wb ∧ k ≠ .evc) (b : ReqData) :
    ∃ c pr, ∀ w u, homeFinish { s with ctl := { s.ctl with counters := c }, mem := { s.mem with priv := pr } }
        { kind := k, req := .agent, line := line, body := b } = (w, none, u) → request k .agent line b s = (w, u) := by
  obtain ⟨pr, hack⟩ := ackAll_priv line s
  have hsettle : settle line s = { s with mem := { s.mem with priv := pr } } := by
    rw [← hack]
    unfold settle
    rw [if_pos]
    simp only [Bool.and_eq_true, List.all_eq_true, bne_iff_ne]
    exact h.idle
  obtain ⟨c, hcount⟩ := countReq_own (s := { s with mem := { s.mem with priv := pr } }) (q := { kind := k, req := .agent, line := line, body := b }) h.own
  refine ⟨c, pr, fun w u hfin => ?_⟩
  have hrun : runReq { kind := k, req := .agent, line := line, body := b } (settle line s) = (w, none, u) := by
    rw [hsettle, runReq, if_neg (by simpa using hk), if_neg Bool.false_ne_true]
    dsimp only
    rw [hcount, snoopsOf_unlisted rfl hd]
    show homeDone _ _ = _
    rw [homeDone]
    dsimp only [runSnoops, sendSnoops, List.foldl_nil]
    rw [hfin]
    rfl
  rw [request, hrun]

/-- A clean of the line changes no byte where no content of its own stands dirty in the slice. -/
theorem hnCmo_clean (h : HomeIdle s line) (hd : findDir s (homeOf s line) line = none)
    (hst : ∀ x, l3Copy s (homeOf s line) line = some x → x.2.dirty = true → x.2.stale = none) : ∃ u, hnCmo line 1 s = (0, u) ∧ SameBytes s u ∧
      ∀ x, l3Copy u (homeOf s line) line = some x → x.2.dirty = false := by
  obtain ⟨c, pr, hreq⟩ := request_idle h hd (k := .cmoc) (by decide) {}
  generalize ha : ({ s with ctl := { s.ctl with counters := c }, mem := { s.mem with priv := pr } } : State) = a at hreq
  have hhome : homeOf a line = homeOf s line := by rw [← ha]; rfl
  have hcopy : l3Copy a (homeOf a line) line = l3Copy s (homeOf s line) line := by rw [← ha]; rfl
  obtain ⟨u, hfin, hclean, hsliced⟩ := homeFinish_cmoc (s := a) (line := line) (by rw [← ha]; exact hd) .agent {}
  have hsame : (if (l3Copy a (homeOf a line) line).any fun x => x.2.dirty then exposeStale line (l3Stale a (homeOf a line) line) a else a) = a := by
    split
    next hdirty =>
      obtain ⟨x, hx, hxd⟩ := (Option.any_eq_true _ _).1 hdirty
      rw [l3Stale, hx]
      exact congrArg (fun o => exposeStale line o a) (hst x (hcopy.symm.trans hx) hxd)
    next => rfl
  refine ⟨u, ?_, fun n => ?_, ?_⟩
  · rw [hnCmo, if_neg (by decide), if_neg (by rw [h.memory, h.backed]; decide), if_pos (by decide), hreq _ _ hfin]
    rfl
  · rw [hsame] at hsliced
    rw [readByte, hsliced.bytes, ← ha]
    rfl
  · rw [hhome] at hclean
    exact hclean

theorem findLine_dropLine (tbl : SMap (Option L2Line)) (line : Nat) : findLine (dropLine tbl line) line = none := by
  rw [findLine, List.findSome?_eq_none_iff]
  rintro ⟨k, o⟩ he
  have hkeep := (List.mem_filter.1 he).2
  cases o with
  | none => rfl
  | some l => simpa using hkeep
/-- A slice that lets a line go, enabled or not. -/
theorem l3Copy_filtered (s : State) (h line : Nat) : l3Copy (setSlice h { slice s h with l3 := (slice s h).l3.filter fun e => match e.2 with
    | some l => l.line != line | none => true } s) h line = none := by
  rw [l3Copy, slice_setSlice, if_pos rfl]
  split
  · rw [findL3, List.findSome?_eq_none_iff]
    rintro ⟨k, o⟩ he
    have hkeep := (List.mem_filter.1 he).2
    cases o with
    | none => rfl
    | some l => simpa using hkeep
  · rfl
/-- The line out of its slice and of every core's caches. -/
def uncached (line : Nat) (s : State) : State :=
  let h := homeOf s line
  let u := setSlice h { slice s h with l3 := (slice s h).l3.filter fun e => match e.2 with | some l => l.line != line | none => true } s
  { u with mem := { u.mem with priv := u.mem.priv.map fun e =>
    (e.1, { e.2 with l1i := dropLine e.2.l1i line, l1d := dropLine e.2.l1d line, l2 := dropLine e.2.l2 line }) } }
/-- An invalidation takes the line out of every cache and changes no byte. -/
theorem hnCmo_invalidate (h : HomeIdle s line) (hd : findDir s (homeOf s line) line = none) : ∃ u, hnCmo line 2 s = (0, u) ∧ SameBytes s u ∧
    l3Copy u (homeOf s line) line = none ∧
    ∀ p, findLine (priv u p).l2 line = none ∧ findLine (priv u p).l1d line = none ∧ findLine (priv u p).l1i line = none := by
  obtain ⟨c, pr, hreq⟩ := request_idle h hd (k := .cmoi) (by decide) {}
  generalize ha : ({ s with ctl := { s.ctl with counters := c }, mem := { s.mem with priv := pr } } : State) = a at hreq
  have hhome : homeOf a line = homeOf s line := by rw [← ha]; rfl
  have hfin := homeFinish_cmoi (s := a) (line := line) (by rw [← ha]; exact hd) .agent {}
  have hdrop := refilled_dropL3 (homeOf a line) line a
  generalize hb : dropL3 (homeOf a line) line a = b at hfin hdrop
  have hhomeB : homeOf b line = homeOf s line := by
    obtain ⟨_, _, hb'⟩ := hdrop.sliced
    rw [hb', ← ha]
    rfl
  have hcmo : hnCmo line 2 s = (0, uncached line b) := by
    rw [hnCmo, if_neg (by decide), if_neg (by rw [h.memory, h.backed]; decide), if_neg (by decide), hreq _ _ hfin]
    rfl
  refine ⟨_, hcmo, fun n => ?_, ?_, fun p => ?_⟩
  · rw [readByte]
    show smGet _ b.mem.bytes n = _
    rw [hdrop.sliced.bytes, ← ha]
    rfl
  · rw [← hhomeB]
    exact l3Copy_filtered b (homeOf b line) line
  · have hp := smGet_map_of_default privDef
      (fun x => { x with l1i := dropLine x.l1i line, l1d := dropLine x.l1d line, l2 := dropLine x.l2 line }) (fun _ => rfl) b.mem.priv p
    have hpriv : priv (uncached line b) p = _ := hp
    rw [hpriv]
    exact ⟨findLine_dropLine .., findLine_dropLine .., findLine_dropLine ..⟩

/-! ### The register -/

/-- `HN_CMO`, written to start the maintenance of the line in `HN_CMO_ADDR`. -/
def hnCmoReg : RegDesc := { name := .hnCmo, off := 0x1008018, dims := [(0x10000, 256)], acc := .wo, bits := 0x3 }
theorem findReg_hnCmo : ∀ n : Fin 256, findReg (hnOff n.val 0x8018) = some (hnCmoReg, [n.val]) := by decide +kernel
theorem hnCmo_orders {i : Instr} {w : Writer} {n : Fin 256} {v : Word32} (hi : exec i s = .next (sdc w (hnOff n.val 0x8018) v s))
    (h : Reaches w 1 0 (hnOff n.val 0x8018) s) : Orders i w hnCmoReg [n.val] (hnOff n.val 0x8018) v s := by
  refine ⟨findReg_hnCmo n, hi, rfl, rfl, by decide, ?_⟩
  have hlevel : needLevel s hnCmoReg (hnOff n.val 0x8018) true = 1 := by
    have hn := n.isLt
    generalize hoff : hnOff n.val 0x8018 = off
    exact blockLevel_supervisor (by rw [← hoff, hnOff]; omega) (by rw [← hoff, hnOff]; omega)
  rw [hlevel]
  exact h
/-- The address that `HN_CMO_ADDR` holds for the writer. -/
def cmoAddr (s : State) (w : Writer) (n : Nat) : Nat :=
  (keyReg s (bankKey (hnOff n 0x8014) (writerKey w))).toNat * 2 ^ 32 + (keyReg s (bankKey (hnOff n 0x8010) (writerKey w))).toNat
theorem command_hnCmo (w : Writer) (n : Nat) (v : Word32) (s : State) :
    command mcmd w hnCmoReg [n] (hnOff n 0x8018) v s = hnCmo (cmoAddr s w n / 64) v s := by
  have hoff (off : Nat) : command mcmd w hnCmoReg [n] off v s = hnCmo (((keyReg s (bankKey (off - 4) (writerKey w))).toNat * 2 ^ 32 +
      (keyReg s (bankKey (off - 8) (writerKey w))).toNat) / 64) v s := rfl
  have hhi : hnOff n 0x8018 - 4 = hnOff n 0x8014 := by simp only [hnOff]; omega
  have hlo : hnOff n 0x8018 - 8 = hnOff n 0x8010 := by simp only [hnOff]; omega
  rw [hoff, hhi, hlo, cmoAddr]
theorem hnCmo_range {v : Word32} (hv : v = 1 ∨ v = 2) (h : isMemory (64 * line) = false ∨ backed s (64 * line) = false) : hnCmo line v s = (3, s) := by
  have hfields : ¬(fld v 31 2 ≠ 0 ∨ fld v 1 0 = 0 ∨ fld v 1 0 = 3) := by
    rcases hv with rfl | rfl <;> decide
  rw [hnCmo, if_neg hfields, if_pos (by rcases h with h | h <;> rw [h] <;> simp)]
  rfl

end Sys2Proof.Machine
end

section
/-! Requests served at once, as commands (10 R253, R254). -/

namespace Sys2Proof.Machine
variable {s t : State} {line : Nat} {i : Instr}

section
variable {q : HomeReq} (hexec : exec i s = .next (sendCoh (sendReq q s))) (h : HomeIdle s line) (hl : q.line = line) (hs : q.served = false)
  (ht : homeTakes s q.req q.line = true) (hk : q.kind ≠ .wb ∧ q.kind ≠ .evc) (hd : findDir s (homeOf s line) line = none)
include hexec h hl hs ht hk hd
/-- The home's work done, its answer is out and its queue as it was; what leaves for other devices is sent. -/
theorem exec_done : ∃ c, ∀ w g u, homeDone q (taken q c s) = (w, g, u) →
    exec i s = .next (sendCoh { u with ans := { status := 0, value := w }, mem := { u.mem with homeQ := s.mem.homeQ, grants := u.mem.grants ++ g.toList } }) := by
  obtain ⟨c, hdone⟩ := sendReq_done h hl hs ht hk (snoopsOf_unlisted hl hd)
  refine ⟨c, fun w g u hw => ?_⟩
  rw [hexec, hdone, hw]
theorem exec_done_here (hreq : q.req = .agent ∨ ∃ pc, q.req = .l2 pc) : ∃ c, ∀ w g u, homeFinish (taken q c s) q = (w, g, u) → u.links.cohOut = [] →
    exec i s = .next { u with ans := { status := 0, value := w }, mem := { u.mem with homeQ := s.mem.homeQ, grants := u.mem.grants ++ g.toList } } := by
  obtain ⟨c, hdone⟩ := exec_done hexec h hl hs ht hk hd
  refine ⟨c, fun w g u hw hu => ?_⟩
  have hfin : homeDone q (taken q c s) = (w, g, u) := by
    rw [homeDone, hw]
    rcases hreq with hr | ⟨pc, hr⟩ <;> rw [completeDev, hr]
  rw [hdone w g u hfin]
  exact congrArg _ (sendCoh_empty hu)
end

/-! ### A copy granted -/

/-- Nothing but the answer, counters, slices and grants has changed. -/
def Quiet (b t : State) : Prop :=
  { t with ans := b.ans, ctl := { t.ctl with counters := b.ctl.counters }, mem := { t.mem with slices := b.mem.slices, grants := b.mem.grants } } = b

section
variable {k : ReqKind} (h : HomeIdle s line) (hk : k = .rs ∨ k = .ru ∨ k = .upg) (hd : findDir s (homeOf s line) line = none)
  (hfree : ∃ i, i < 18 ∧ smGet optDef (slice s (homeOf s line)).dir (l3Set line * 18 + i) = none)
include h hk hd hfree
omit h hd hfree in
theorem kind_cached : k ≠ .wb ∧ k ≠ .evc := by rcases hk with rfl | rfl | rfl <;> decide
theorem completes_grant {pc : Nat} {b : ReqData} (hexec : exec i s = .next (sendCoh (sendReq { kind := k, req := .l2 pc, line := line, body := b } s))) :
    Completes i s fun t => Quiet s t ∧ (∃ g, t.mem.grants = s.mem.grants ++ [g] ∧ g.pc = pc ∧ g.line = line ∧ g.st = grantedState k) ∧
      dirOf t (homeOf s line) line = { line := line, owner := some pc, sharers := groupBit pc, devs := 0, proxy := false } := by
  obtain ⟨c, hdone⟩ := exec_done_here hexec h rfl rfl ((homeTakes_own h).2.1 pc) (kind_cached hk) hd (.inr ⟨pc, rfl⟩)
  generalize ha : taken { kind := k, req := .l2 pc, line := line, body := b } c s = a at hdone
  have hhome : homeOf a line = homeOf s line := by rw [← ha]; rfl
  have hda : findDir a (homeOf a line) line = none := by rw [← ha]; exact hd
  obtain ⟨g, src, hsrc, hg, hfin⟩ := homeFinish_l2 hda (by rw [← ha]; exact h.own) hk b pc
  obtain ⟨hsl, hdir⟩ := setDir_made (s := src) (h := homeOf a line) (line := line) (by rw [hsrc.findDir_eq, hda])
    (by rw [hsrc.dirs, ← ha]; exact hfree) (by rw [hsrc.sliced.remoteSlot_eq, ← ha]; exact h.own) pc (groupBit pc) 0
  obtain ⟨sl, c', hu⟩ := hsrc.sliced.trans hsl
  rw [hu] at hfin hdir
  refine ⟨_, hdone _ _ _ hfin (by rw [← ha]; exact h.quiet), ?_, ⟨g, ?_, hg⟩, ?_⟩
  · rw [← ha]
    rfl
  · rw [← ha]
    rfl
  · rw [hhome] at hdir
    exact hdir
theorem completes_remote {e : Nat} {tc : BitVec 2} (hp : s.links.peers.getLsbD e = true)
    (hexec : exec i s = .next (sendCoh (sendReq { kind := k, req := .dev e, line := line, body := { tc := tc } } s))) :
    Completes i s fun t => t.mem.grants = s.mem.grants ∧ SameBytes s t ∧
      dirOf t (homeOf s line) line = { line := line, owner := some (600 + e), sharers := 0, devs := BitVec.ofNat 4 (2 ^ e), proxy := false } ∧
      ((∀ e, joinedWith s e = []) →
        t.links.cohOut = [{ slot := e, kind := .grant k, line := line, tc := tc, data := if k = .upg then none else some (readLine s line) }]) := by
  obtain ⟨c, hdone⟩ := exec_done hexec h rfl rfl ((homeTakes_own h).2.2 e hp) (kind_cached hk) hd
  generalize hq : ({ kind := k, req := .dev e, line := line, body := { tc := tc } } : HomeReq) = q at hdone
  generalize ha : taken q c s = a at hdone
  have hhome : homeOf a line = homeOf s line := by rw [← ha]; rfl
  have hda : findDir a (homeOf a line) line = none := by rw [← ha]; exact hd
  obtain ⟨src, hsrc, hfin⟩ := homeFinish_dev hda (by rw [← ha]; exact h.own) hk { tc := tc } e
  obtain ⟨hsl, hdir⟩ := setDir_made (s := src) (h := homeOf a line) (line := line) (by rw [hsrc.findDir_eq, hda])
    (by rw [hsrc.dirs, ← ha]; exact hfree) (by rw [hsrc.sliced.remoteSlot_eq, ← ha]; exact h.own) (600 + e) 0 (BitVec.ofNat 4 (2 ^ e))
  obtain ⟨sl, c', hu⟩ := hsrc.sliced.trans hsl
  rw [hu] at hfin hdir
  rw [hhome] at hdir
  have hread : readLine { a with mem := { a.mem with slices := sl }, ctl := { a.ctl with counters := c' } } line = readLine s line := by
    rw [readLine, readLine, readBytes_congr (s := s) (by rw [← ha]; rfl)]
  have hcomplete : homeDone q a = (0, none, cohSend e (.grant k) line tc (if k = .upg then none else some (readLine s line))
      { a with mem := { a.mem with slices := sl }, ctl := { a.ctl with counters := c' } }) := by
    rw [homeDone, ← hq, hfin]
    rcases hk with rfl | rfl | rfl <;> simp only [completeDev, hread] <;> rfl
  generalize hmsg : (if k = .upg then none else some (readLine s line)) = data at hcomplete ⊢
  have hnext := hdone _ _ _ hcomplete
  generalize hv : ({ cohSend e (.grant k) line tc data { a with mem := { a.mem with slices := sl }, ctl := { a.ctl with counters := c' } } with
    ans := { status := 0, value := 0 }, mem := { a.mem with slices := sl, homeQ := s.mem.homeQ, grants := a.mem.grants ++ [] } } : State) = v
  have hexec' : exec i s = .next (sendCoh v) := by
    rw [hnext, ← hv]
    rfl
  have hmem : (sendCoh v).mem = v.mem := by
    obtain ⟨_, _, _, hpass⟩ := sentOnly_sendCoh v
    rw [hpass]
  refine ⟨_, hexec', ?_, fun n => ?_, ?_, fun hj => ?_⟩
  · rw [hmem, ← hv, ← ha]
    exact List.append_nil _
  · rw [readByte, hmem, ← hv, ← ha]
    rfl
  · have hsame : dirOf (sendCoh v) (homeOf s line) line = dirOf v (homeOf s line) line := by
      simp only [dirOf, findDir, slice, hmem]
    rw [hsame, ← hv]
    exact hdir
  · have hjv : ∀ e, joinedWith v e = [] := by
      rw [← hv, ← ha]
      exact hj
    have hout : v.links.cohOut = [{ slot := e, kind := .grant k, line := line, tc := tc, data := data }] := by
      rw [← hv, ← ha]
      show s.links.cohOut ++ _ = _
      rw [h.quiet]
      rfl
    have hpv : v.links.peers.getLsbD e = true := by
      rw [← hv, ← ha]
      exact hp
    rw [sendCoh_unjoined hjv]
    show v.links.cohOut.filter (fun m => v.links.peers.getLsbD m.slot) = _
    rw [hout, List.filter_cons_of_pos (by exact hpv)]
    rfl
end

/-! ### An agent's request -/

section
variable (h : HomeIdle s line) (hd : findDir s (homeOf s line) line = none) {b : ReqData}
include h hd
theorem completes_rnc (hexec : exec i s = .next (sendCoh (sendReq { kind := .rnc, req := .agent, line := line, body := b } s))) :
    Completes i s fun t => Quiet s t ∧ t.mem.grants = s.mem.grants ∧ findDir t (homeOf s line) line = none := by
  obtain ⟨c, hdone⟩ := exec_done_here hexec h rfl rfl (homeTakes_own h).1 ⟨nofun, nofun⟩ hd (.inl rfl)
  generalize ha : taken { kind := .rnc, req := .agent, line := line, body := b } c s = a at hdone
  have hda : findDir a (homeOf a line) line = none := by rw [← ha]; exact hd
  have hserve := refilled_serveFromL3 (homeOf a line) line .rnc a
  have hfin := homeFinish_rnc hda .agent b
  have hfind := (hserve.findDir_eq (homeOf a line) line).trans hda
  obtain ⟨sl, c', hu⟩ := hserve.sliced
  rw [hu] at hfin hfind
  refine ⟨_, hdone _ _ _ hfin (by rw [← ha]; exact h.quiet), ?_, ?_, ?_⟩
  · rw [← ha]
    rfl
  · rw [← ha]
    exact List.append_nil _
  · rw [show homeOf a line = homeOf s line by rw [← ha]; rfl] at hfind
    exact hfind
theorem completes_fw {v : Vec} (hb : b.bytes = bytesOf v 64)
    (hexec : exec i s = .next (sendCoh (sendReq { kind := .fw, req := .agent, line := line, body := b } s))) :
    Completes i s fun t => HoldsBytes t (64 * line) 64 v.toNat ∧ SameBytesBut (64 * line) 64 s t ∧ poisoned t line = false ∧
      findDir t (homeOf s line) line = none ∧ l3Copy t (homeOf s line) line = none := by
  obtain ⟨c, hdone⟩ := exec_done_here hexec h rfl rfl (homeTakes_own h).1 ⟨nofun, nofun⟩ hd (.inl rfl)
  generalize ha : taken { kind := .fw, req := .agent, line := line, body := b } c s = a at hdone
  have hhome : homeOf a line = homeOf s line := by rw [← ha]; rfl
  have hda : findDir a (homeOf a line) line = none := by rw [← ha]; exact hd
  have hfin := homeFinish_fw hda .agent b
  rw [hb, List.take_of_length_le (by rw [length_bytesOf]), hhome] at hfin
  have hdrop := refilled_dropL3 (homeOf s line) line a
  have hcopy := l3Copy_dropL3 (homeOf s line) line a
  have hfind := hdrop.findDir_eq (homeOf s line) line
  rw [hhome] at hda
  generalize hu : dropL3 (homeOf s line) line a = u at hfin hdrop hcopy hfind
  have hbytes : u.mem.bytes = s.mem.bytes := by
    rw [hdrop.sliced.bytes, ← ha]
    rfl
  have hcoh : u.links.cohOut = [] := by
    rw [hdrop.sliced.cohOut, ← ha]
    exact h.quiet
  have hread (n : Nat) : readByte s n = readByte u n := by rw [readByte, readByte, hbytes]
  refine ⟨_, hdone _ _ _ hfin hcoh, holdsBytes_writeBytes (64 * line) 64 v u, fun n hn => ?_, poisoned_setPoison .., hfind.trans hda, hcopy⟩
  have hsame := sameBytesBut_writeBytes (64 * line) (bytesOf v 64) u
  rw [length_bytesOf] at hsame
  rw [hread]
  exact hsame n hn
theorem completes_pw {o : Nat} {bs : List Byte} (hb : b.off = o ∧ b.bytes = bs) (hlen : o + bs.length ≤ 64)
    (hexec : exec i s = .next (sendCoh (sendReq { kind := .pw, req := .agent, line := line, body := b } s))) :
    Completes i s fun t => (∀ i, i < bs.length → readByte t (64 * line + o + i) = bs.getD i 0) ∧
      SameBytesBut (64 * line + o) bs.length (exposeStale line (l3Stale s (homeOf s line) line) s) t ∧
      findDir t (homeOf s line) line = none ∧ l3Copy t (homeOf s line) line = none := by
  obtain ⟨c, hdone⟩ := exec_done_here hexec h rfl rfl (homeTakes_own h).1 ⟨nofun, nofun⟩ hd (.inl rfl)
  generalize ha : taken { kind := .pw, req := .agent, line := line, body := b } c s = a at hdone
  have hhome : homeOf a line = homeOf s line := by rw [← ha]; rfl
  have hda : findDir a (homeOf a line) line = none := by rw [← ha]; exact hd
  obtain ⟨u, hbytes, hfind, hcopy, hlinks, -, hfin⟩ := homeFinish_pw hda .agent b
  rw [hb.1, hb.2, List.take_of_length_le (by omega)] at hfin
  rw [hhome] at hfind hcopy
  have hheld : u.mem.bytes = (exposeStale line (l3Stale s (homeOf s line) line) s).mem.bytes := by
    rw [hbytes, hhome, show l3Stale a (homeOf s line) line = l3Stale s (homeOf s line) line by rw [← ha]; rfl]
    cases l3Stale s (homeOf s line) line <;> rw [← ha] <;> rfl
  refine ⟨_, hdone _ _ _ hfin (show u.links.cohOut = [] by rw [hlinks, ← ha]; exact h.quiet), fun n hn => ?_, fun n hn => ?_, hfind, hcopy⟩
  · have hread := readByte_writeBytes (64 * line + o) (64 * line + o + n) bs u
    rw [if_pos (by omega), Nat.add_sub_cancel_left] at hread
    exact hread
  · have hsame := sameBytesBut_writeBytes (64 * line + o) bs u n hn
    rw [readByte, readByte, hheld] at hsame
    exact hsame
theorem completes_famo (hexec : exec i s = .next (sendCoh (sendReq { kind := .famo, req := .agent, line := line, body := b } s))) :
    let held := exposeStale line (l3Stale s (homeOf s line) line) s
    let pa := 64 * line + b.off
    Completes i s fun t => t.ans.value = amoOld b.wide pa held ∧
      t.mem.bytes = putBytes (amoNew (amoCode b.op) b.wide b.gs b.gt pa held) pa held.mem.bytes := by
  intro held pa
  obtain ⟨c, hdone⟩ := exec_done_here hexec h rfl rfl (homeTakes_own h).1 ⟨nofun, nofun⟩ hd (.inl rfl)
  generalize ha : taken { kind := .famo, req := .agent, line := line, body := b } c s = a at hdone
  have hhome : homeOf a line = homeOf s line := by rw [← ha]; rfl
  have hda : findDir a (homeOf a line) line = none := by rw [← ha]; exact hd
  obtain ⟨u, hbytes, hlinks, w, hfin, hw, hwl⟩ := homeFinish_famo hda .agent b (by rw [← ha]; exact h.own)
  have hheld : u.mem.bytes = held.mem.bytes := by
    rw [hbytes, hhome, show l3Stale a (homeOf s line) line = l3Stale s (homeOf s line) line by rw [← ha]; rfl]
    show (exposeStale line (l3Stale s (homeOf s line) line) a).mem.bytes = (exposeStale line (l3Stale s (homeOf s line) line) s).mem.bytes
    cases l3Stale s (homeOf s line) line <;> rw [← ha] <;> rfl
  refine ⟨_, hdone _ _ _ hfin (by rw [hwl, ← ha]; exact h.quiet), amoOld_congr hheld, ?_⟩
  rw [← hheld, ← amoNew_congr hheld]
  exact hw
theorem completes_cmoc (hexec : exec i s = .next (sendCoh (sendReq { kind := .cmoc, req := .agent, line := line, body := b } s))) :
    Completes i s fun t => Quiet (if (l3Copy s (homeOf s line) line).any fun x => x.2.dirty then
        exposeStale line (l3Stale s (homeOf s line) line) s else s) t ∧ ∀ x, l3Copy t (homeOf s line) line = some x → x.2.dirty = false := by
  obtain ⟨c, hdone⟩ := exec_done_here hexec h rfl rfl (homeTakes_own h).1 ⟨nofun, nofun⟩ hd (.inl rfl)
  generalize ha : taken { kind := .cmoc, req := .agent, line := line, body := b } c s = a at hdone
  have hhome : homeOf a line = homeOf s line := by rw [← ha]; rfl
  have hda : findDir a (homeOf a line) line = none := by rw [← ha]; exact hd
  obtain ⟨u, hfin, hclean, sl, c', hu⟩ := homeFinish_cmoc hda .agent b
  rw [hhome] at hclean hu
  rw [show l3Copy a (homeOf s line) line = l3Copy s (homeOf s line) line by rw [← ha]; rfl,
    show l3Stale a (homeOf s line) line = l3Stale s (homeOf s line) line by rw [← ha]; rfl] at hu
  generalize l3Stale s (homeOf s line) line = st at hu ⊢
  have hquiet : Quiet (if (l3Copy s (homeOf s line) line).any fun x => x.2.dirty then exposeStale line st s else s)
      { u with ans := { status := 0, value := 0 }, mem := { u.mem with homeQ := s.mem.homeQ, grants := u.mem.grants ++ [] } } := by
    rw [hu]
    split <;> [cases st; skip] <;> rw [← ha] <;> rfl
  have hcoh : u.links.cohOut = [] := by
    rw [hu]
    split <;> [cases st; skip] <;> rw [← ha] <;> exact h.quiet
  exact ⟨_, hdone _ _ _ hfin hcoh, hquiet, hclean⟩
theorem completes_cmoi (hexec : exec i s = .next (sendCoh (sendReq { kind := .cmoi, req := .agent, line := line, body := b } s))) :
    Completes i s fun t => Quiet s t ∧ l3Copy t (homeOf s line) line = none ∧ findDir t (homeOf s line) line = none := by
  obtain ⟨c, hdone⟩ := exec_done_here hexec h rfl rfl (homeTakes_own h).1 ⟨nofun, nofun⟩ hd (.inl rfl)
  generalize ha : taken { kind := .cmoi, req := .agent, line := line, body := b } c s = a at hdone
  have hhome : homeOf a line = homeOf s line := by rw [← ha]; rfl
  have hda : findDir a (homeOf a line) line = none := by rw [← ha]; exact hd
  have hfin := homeFinish_cmoi hda .agent b
  rw [hhome] at hfin hda
  have hdrop := refilled_dropL3 (homeOf s line) line a
  have hcopy := l3Copy_dropL3 (homeOf s line) line a
  have hfind := (hdrop.findDir_eq (homeOf s line) line).trans hda
  obtain ⟨sl, c', hu⟩ := hdrop.sliced
  rw [hu] at hfin hfind hcopy
  refine ⟨_, hdone _ _ _ hfin (by rw [← ha]; exact h.quiet), ?_, hcopy, hfind⟩
  rw [← ha]
  rfl
end

end Sys2Proof.Machine
end

section
/-! O35. -/

namespace Sys2Proof.Machine
variable {s : State} {line : Nat}

/-! ### The commands -/

section
variable {r : Requester} (hr : r = .agent ∨ (∃ pc, r = .l2 pc) ∨ ∃ e, r = .dev e ∧ s.links.peers.getLsbD e = true) (tc : BitVec 2)
/-- A request of an L2 for a line it has not, or has and may not write. -/
theorem cachingReq_l2 {pc : Nat} (hmay : mayRequest s pc line = true) :
    (l2Copy s pc line = none → ∀ k, k = .rs ∨ k = .ru →
      cachingReq k (.l2 pc) line tc s = sendReq { kind := k, req := .l2 pc, line := line, body := { tc := tc } } s) ∧
    ∀ x, l2Copy s pc line = some x → (x.2.st = .s ∨ x.2.st = .o) →
      cachingReq .upg (.l2 pc) line tc s = sendReq { kind := .upg, req := .l2 pc, line := line, body := { tc := tc } } s := by
  refine ⟨fun hnone k hk => ?_, fun x hx hst => ?_⟩
  · rcases hk with rfl | rfl <;> simp only [cachingReq, hnone, hmay, Bool.and_self, if_true]
  · obtain ⟨slot, l⟩ := x
    simp only [cachingReq, hx, hmay, decide_eq_true hst, Bool.and_self, if_true]
/-- A request that its home does not take leaves the state. -/
theorem sendReq_off (q : HomeReq) (h : isMemory (64 * q.line) = false ∨ backed s (64 * q.line) = false) : sendReq q s = s := by
  have hno : homeTakes s q.req q.line = false := by
    rcases h with h | h <;> simp [homeTakes, h]
  rw [sendReq, hno]
  rfl
theorem cachingReq_off (k : ReqKind) (h : isMemory (64 * line) = false ∨ backed s (64 * line) = false) : cachingReq k r line tc s = s := by
  unfold cachingReq
  split
  · extract_lets ok
    split
    · exact sendReq_off _ h
    · rfl
  · exact sendReq_off _ h
  · rfl
theorem fromPeer_still {f : State → State} (hr : (∃ pc, r = .l2 pc) ∨ r = .agent) (hf : f s = s) : fromPeer r f s = s := by
  rcases hr with ⟨pc, rfl⟩ | rfl <;> exact hf
/-- A request behind another one for its line waits its turn. -/
theorem sendReq_behind {q : HomeReq} (hl : q.line = line) (ht : homeTakes s q.req line = true) (hsil : islandSilent s (uHome (homeOf s line)) = false)
    (hbusy : ∃ x ∈ s.mem.homeQ, x.line = line ∧ x.served = true) : sendReq q s = { s with mem := { s.mem with homeQ := s.mem.homeQ ++ [q] } } := by
  have hready : (!homeTakes s q.req q.line || islandSilent s (uHome (homeOf s q.line))) = false := by rw [hl, ht, hsil]; rfl
  obtain ⟨x, hx, hxl, hxs⟩ := hbusy
  have hany : ((s.mem.homeQ ++ [q]).any fun y => y.line == line && y.served) = true :=
    List.any_eq_true.2 ⟨x, List.mem_append_left _ hx, by rw [hxl, hxs]; simp⟩
  rw [sendReq, hready, hl]
  simp only [Bool.false_eq_true, if_false, List.length_append, List.length_singleton]
  rw [beginNext, if_pos hany]
end

/-! ### Requests that wait -/

/-- The request stands at its home with the snoops `sn` out, and nothing else has changed but counters and what leaves for other devices. -/
def Waits (s : State) (line : Nat) (i : Instr) (q : HomeReq) (sn : List (Nat × SnoopKind)) : Prop := sn ≠ [] → Completes i s fun t =>
  t.mem.homeQ = s.mem.homeQ ++ [{ q with served := true, pending := sn, since := nowNs s }] ∧ t.mem.grants = s.mem.grants ∧ SameBytes s t ∧
  ((∀ y ∈ sn, y.1 < 600) → { t with ctl := { t.ctl with counters := s.ctl.counters }, mem := { t.mem with homeQ := s.mem.homeQ } } = s) ∧
  ((∀ e, joinedWith s e = []) →
    t.links.cohOut = (sn.filter fun y => decide (600 ≤ y.1) && s.links.peers.getLsbD (y.1 - 600)).map (fun y =>
      { slot := y.1 - 600, kind := .snoop y.2, line := line, tc := 0, data := none }) ∧
    { t with ctl := { t.ctl with counters := s.ctl.counters }, mem := { t.mem with homeQ := s.mem.homeQ }, links := s.links } = s)
theorem waits_of (i : Instr) (h : HomeIdle s line) (k : ReqKind) (r : Requester) (b : ReqData)
    (hexec : exec i s = .next (sendCoh (sendReq { kind := k, req := r, line := line, body := b } s)))
    (hr : r = .agent ∨ (∃ pc, r = .l2 pc) ∨ ∃ e, r = .dev e ∧ s.links.peers.getLsbD e = true) (hk : k ≠ .wb ∧ k ≠ .evc) {sn : List (Nat × SnoopKind)}
    (hsn : homeSnoops (dirOf s (homeOf s line) line) (stillHolder s (dirOf s (homeOf s line) line) r) k r = sn) :
    Waits s line i { kind := k, req := r, line := line, body := b } sn := by
  have ht : homeTakes s r line = true := by
    obtain ⟨hagent, hl2, hdev⟩ := homeTakes_own h
    rcases hr with rfl | ⟨pc, rfl⟩ | ⟨e, rfl, he⟩
    · exact hagent
    · exact hl2 pc
    · exact hdev e he
  exact completes_waits hexec h rfl rfl ht hk hsn

/-- Settles O35: each request is taken into the idle home's queue; with snoops to send it waits there, and without any it is served by the home's
work of its kind on a line that the directory does not list. -/
theorem homesServeRequests : Obligations.HomesServeRequests := by
  intro s line pc e off tc v bs gs gt o hidle h d r a others own waits pw fa
  have hagent : (Requester.agent = .agent) ∨ (∃ pc, Requester.agent = .l2 pc) ∨ ∃ e, Requester.agent = .dev e ∧ s.links.peers.getLsbD e = true := .inl rfl
  refine ⟨fun hmay => ?_, fun x hx => ?_, fun hp => ?_, ?_, ?_, ?_, ?_, ?_, ?_, ?_⟩
  · obtain ⟨hfresh, hheld⟩ := cachingReq_l2 (line := line) tc hmay
    have hl2 : (Requester.l2 pc = .agent) ∨ (∃ p, Requester.l2 pc = .l2 p) ∨ ∃ e, Requester.l2 pc = .dev e ∧ s.links.peers.getLsbD e = true :=
      .inr (.inl ⟨pc, rfl⟩)
    refine ⟨fun hnone => ⟨?_, ?_⟩, fun x hx hst => ?_⟩
    · exact waits_of (.rs r line) hidle .rs (.l2 pc) { tc := tc } (congrArg (fun u => (.next (sendCoh u) : Out)) (hfresh hnone .rs (.inl rfl))) hl2 (by decide) (homeSnoops_rs ..)
    · exact waits_of (.ru r line) hidle .ru (.l2 pc) { tc := tc } (congrArg (fun u => (.next (sendCoh u) : Out)) (hfresh hnone .ru (.inr rfl))) hl2 (by decide)
        (homeSnoops_unique _ _ _ (.inl rfl))
    · have hupg := homeSnoops_upg d (stillHolder s d (.l2 pc)) (.l2 pc)
      rw [if_pos (stillHolder_copy hidle hx)] at hupg
      exact waits_of (.upg r line) hidle .upg (.l2 pc) { tc := tc } (congrArg (fun u => (.next (sendCoh u) : Out)) (hheld x hx hst)) hl2 (by decide) hupg
  · obtain ⟨who, tc⟩ := x
    have hr : who = .agent ∨ (∃ pc, who = .l2 pc) ∨ ∃ e, who = .dev e ∧ s.links.peers.getLsbD e = true := hx.imp_right .inr
    have hexec (k : ReqKind) (b : ReqData) := congrArg (fun u => (.next (sendCoh u) : Out)) (fromPeer_joined hr (plainReq k who line b))
    refine ⟨?_, ?_, ?_, fun op wide => ?_⟩
    · exact waits_of (.rnc ⟨who, tc⟩ line) hidle .rnc who { tc := tc } (hexec .rnc _) hr (by decide) (homeSnoops_rnc ..)
    · exact waits_of (.fw ⟨who, tc⟩ line v) hidle .fw who { bytes := bytesOf v 64, tc := tc } (hexec .fw _) hr (by decide) (homeSnoops_fw ..)
    · exact waits_of (.pw ⟨who, tc⟩ line o bs) hidle .pw who { off := o.val, bytes := bs, tc := tc } (hexec .pw _) hr (by decide) (homeSnoops_unique _ _ _ (.inr (.inl rfl)))
    · exact waits_of (.famo ⟨who, tc⟩ line o op wide gs gt) hidle .famo who { off := o.val, op := op.val, wide := wide, gs := gs, gt := gt, tc := tc } (hexec .famo _) hr (by decide)
        (homeSnoops_unique _ _ _ (.inr (.inr (.inl rfl))))
  · have hr : (Requester.dev e = .agent) ∨ (∃ p, Requester.dev e = .l2 p) ∨ ∃ x, Requester.dev e = .dev x ∧ s.links.peers.getLsbD x = true :=
      .inr (.inr ⟨e, rfl, hp⟩)
    have hexec (k : ReqKind) := congrArg (fun u => (.next (sendCoh u) : Out)) (fromPeer_joined hr (cachingReq k (.dev e) line tc))
    refine ⟨?_, ?_, ?_⟩
    · exact waits_of (.rs ⟨.dev e, tc⟩ line) hidle .rs (.dev e) { tc := tc } (hexec .rs) hr (by decide) (homeSnoops_rs ..)
    · exact waits_of (.ru ⟨.dev e, tc⟩ line) hidle .ru (.dev e) { tc := tc } (hexec .ru) hr (by decide) (homeSnoops_unique _ _ _ (.inl rfl))
    · exact waits_of (.upg ⟨.dev e, tc⟩ line) hidle .upg (.dev e) { tc := tc } (hexec .upg) hr (by decide) (homeSnoops_upg d _ (.dev e))
  · exact waits_of (.cmoc line) hidle .cmoc .agent {} rfl hagent (by decide) (homeSnoops_cmoc ..)
  · exact waits_of (.cmoi line) hidle .cmoi .agent {} rfl hagent (by decide)
      (homeSnoops_unique _ _ _ (.inr (.inr (.inr rfl))))
  · intro x hp hno i hi
    have hoff (f : State → State) : (.next (sendCoh (fromPeer (.dev e) f s)) : Out) = .next s := by
      rw [fromPeer_absent hp hno, sendCoh_empty hidle.quiet]
    simp only [List.mem_cons, List.not_mem_nil, or_false] at hi
    rcases hi with rfl | rfl | rfl | rfl | rfl | rfl | rfl <;> exact hoff _
  · intro l hl i hi
    have hcaching (k : ReqKind) : (.next (sendCoh (cachingReq k (.l2 pc) l tc s)) : Out) = .next s := by
      rw [cachingReq_off tc k hl, sendCoh_empty hidle.quiet]
    have hplain (k : ReqKind) (b : ReqData) : (.next (sendCoh (plainReq k .agent l b s)) : Out) = .next s := by
      rw [plainReq, sendReq_off _ hl, sendCoh_empty hidle.quiet]
    simp only [List.mem_cons, List.not_mem_nil, or_false] at hi
    rcases hi with rfl | rfl | rfl | rfl | rfl | rfl | rfl | rfl | rfl
    · exact hcaching .rs
    · exact hcaching .ru
    · exact hcaching .upg
    · exact hplain .rnc _
    · exact hplain .fw _
    · exact hplain .pw _
    · exact hplain .famo _
    · exact hplain .cmoc _
    · exact hplain .cmoi _
  · intro l hm hb hsil hbusy
    have ht : homeTakes s .agent l = true := by simp [homeTakes, hm, hb]
    have hexec (q : HomeReq) (hq : q.line = l) (hreq : q.req = .agent) : (.next (sendCoh (sendReq q s)) : Out) =
        .next { s with mem := { s.mem with homeQ := s.mem.homeQ ++ [q] } } := by
      rw [sendReq_behind hq (by rw [hreq]; exact ht) hsil hbusy]
      exact congrArg _ (sendCoh_empty hidle.quiet)
    exact ⟨hexec { kind := .fw, req := .agent, line := l, body := { bytes := bytesOf v 64, tc := tc } } rfl rfl,
      hexec { kind := .cmoi, req := .agent, line := l } rfl rfl⟩
  · intro hd hfree held cleaned quiet grants remote
    refine ⟨fun hmay => ?_, fun _ hp => ?_, ?_, ?_, fun hlen => ?_, fun op => ⟨?_, ?_⟩, ?_, ?_⟩
    · obtain ⟨hfresh, hheld⟩ := cachingReq_l2 (line := line) tc hmay
      refine ⟨fun hnone => ⟨?_, ?_⟩, fun x hx hst => ?_⟩
      · exact completes_grant (i := .rs r line) hidle (.inl rfl) hd hfree (congrArg (fun u => (.next (sendCoh u) : Out)) (hfresh hnone .rs (.inl rfl)))
      · exact completes_grant (i := .ru r line) hidle (.inr (.inl rfl)) hd hfree
          (congrArg (fun u => (.next (sendCoh u) : Out)) (hfresh hnone .ru (.inr rfl)))
      · exact completes_grant (i := .upg r line) hidle (.inr (.inr rfl)) hd hfree (congrArg (fun u => (.next (sendCoh u) : Out)) (hheld x hx hst))
    · have hexec (k : ReqKind) := congrArg (fun u => (.next (sendCoh u) : Out)) (fromPeer_joined (.inr (.inr ⟨e, rfl, hp⟩)) (cachingReq k (.dev e) line tc))
      exact ⟨completes_remote (i := .rs ⟨.dev e, tc⟩ line) hidle (.inl rfl) hd hfree hp (hexec .rs),
        completes_remote (i := .ru ⟨.dev e, tc⟩ line) hidle (.inr (.inl rfl)) hd hfree hp (hexec .ru),
        completes_remote (i := .upg ⟨.dev e, tc⟩ line) hidle (.inr (.inr rfl)) hd hfree hp (hexec .upg)⟩
    · exact completes_rnc (i := .rnc a line) (b := { tc := tc }) hidle hd rfl
    · exact completes_fw (i := .fw a line v) (b := { bytes := bytesOf v 64, tc := tc }) hidle hd rfl rfl
    · exact completes_pw (i := .pw a line o bs) (b := { off := o.val, bytes := bs, tc := tc }) hidle hd ⟨rfl, rfl⟩ hlen rfl
    · obtain ⟨t, hexec, hans, hbytes⟩ := completes_famo (i := .famo a line o op true gs gt)
        (b := { off := o.val, op := op.val, wide := true, gs := gs, gt := gt, tc := tc }) hidle hd rfl
      exact ⟨t, hexec, hans, holdsBytes_of_putBytes hbytes, sameBytesBut_of_putBytes hbytes (length_bytesOf ..)⟩
    · obtain ⟨t, hexec, hans, hbytes⟩ := completes_famo (i := .famo a line o op false gs gt)
        (b := { off := o.val, op := op.val, wide := false, gs := gs, gt := gt, tc := tc }) hidle hd rfl
      exact ⟨t, hexec, hans, holdsBytes_of_putBytes hbytes, sameBytesBut_of_putBytes hbytes (length_bytesOf ..)⟩
    · exact completes_cmoc (i := .cmoc line) (b := {}) hidle hd rfl
    · exact completes_cmoi (i := .cmoi line) (b := {}) hidle hd rfl
  · intro w n hreach addr
    have hclean := hnCmo_orders (i := .hnCmoClean w n) (v := 1) rfl hreach
    have hinval := hnCmo_orders (i := .hnCmoInvalidate w n) (v := 2) rfl hreach
    have haddr : cmoAddr s w n.val = addr := rfl
    refine ⟨fun hno => ⟨?_, ?_⟩, fun heq hoff hd hst => ⟨?_, ?_⟩⟩
    · exact hclean.refuses (a := s) (by rw [command_hnCmo, haddr, hnCmo_range (.inl rfl) hno]) rfl (by decide)
    · exact hinval.refuses (a := s) (by rw [command_hnCmo, haddr, hnCmo_range (.inr rfl) hno]) rfl (by decide)
    · obtain ⟨u, hcmo, hE⟩ := hnCmo_clean hidle hd hst
      exact hclean.commands (u := u) (by rw [command_hnCmo, haddr, heq, show (64 * line + off) / 64 = line by omega, hcmo]) hE
    · obtain ⟨u, hcmo, hE⟩ := hnCmo_invalidate hidle hd
      exact hinval.commands (u := u) (by rw [command_hnCmo, haddr, heq, show (64 * line + off) / 64 = line by omega, hcmo]) hE

end Sys2Proof.Machine
end

section
/-! The next command of a queue leaves it, and runs or fails (14 R349, R350, R352). -/

namespace Sys2Proof.Machine
variable {s t u : State} {q : Nat}

/-! ### The head letter leaves its queue -/

/-- `t` is `s` but that the first letter has left burst storage of queue `q`, its doorbell perhaps armed again. -/
def Popped (q : Nat) (s t : State) : Prop := ∃ qs b, t = { s with office := { s.office with queues := qs } } ∧
  ∀ p, smGet qDef qs p = if p = q then { queueOf s q with burst := (queueOf s q).burst.tail, bell := b } else queueOf s p
namespace Popped
theorem queue (h : Popped q s t) : ∃ b, queueOf t q = { queueOf s q with burst := (queueOf s q).burst.tail, bell := b } := by
  obtain ⟨qs, b, rfl, hq⟩ := h
  exact ⟨b, (hq q).trans (if_pos rfl)⟩
theorem burst (h : Popped q s t) : (queueOf t q).burst = (queueOf s q).burst.tail := by
  obtain ⟨b, hb⟩ := h.queue
  rw [hb]
theorem qClass_eq (h : Popped q s t) : qClass (queueOf t q) = qClass (queueOf s q) := by
  obtain ⟨b, hb⟩ := h.queue
  rw [hb]
  rfl
end Popped
/-- A doorbell does not ring as a letter leaves. -/
theorem ringBell_fewer {x : Queue} (hx : queueOf s q = x) {before : Nat} (h : qCount x ≤ before) :
    ∃ qs b, ringBell q before s = { s with office := { s.office with queues := qs } } ∧
      ∀ p, smGet qDef qs p = if p = q then { x with bell := b } else queueOf s p := by
  have hsame : ∀ p, queueOf s p = if p = q then { x with bell := x.bell } else queueOf s p := by
    intro p
    split
    next hp => rw [hp, hx]
    next => rfl
  have harmed : ∀ p, smGet qDef (smPut qDef s.office.queues q { x with bell := .armed }) p = if p = q then { x with bell := .armed } else queueOf s p :=
    fun p => smGet_smPut ..
  unfold ringBell
  dsimp only
  rw [hx]
  split
  · rw [if_neg (by simp only [Bool.and_eq_true, decide_eq_true_eq]; omega)]
    exact ⟨_, _, rfl, hsame⟩
  · split
    · exact ⟨_, _, rfl, harmed⟩
    · exact ⟨_, _, rfl, hsame⟩
  · split
    · exact ⟨_, _, rfl, harmed⟩
    · exact ⟨_, _, rfl, hsame⟩
theorem popCmd_active {l : Letter} {r : List Letter} (hfront : (queueOf s q).burst = l :: r) (hactive : (queueOf s q).state = .active) :
    Popped q s (popCmd q s) := by
  have htake : takeHead q 1 s = (some l, setQueue q { queueOf s q with burst := r } s) := by
    rw [takeHead]
    simp only [hfront]
  have hx : queueOf (setQueue q { queueOf s q with burst := r } s) q = { queueOf s q with burst := r } := smGet_smPut_same ..
  obtain ⟨qs, b, hring, hqs⟩ := ringBell_fewer hx (before := qCount (queueOf s q)) (by simp [qCount, hfront])
  have hqueues : ∀ p, smGet qDef qs p = if p = q then { queueOf s q with burst := (queueOf s q).burst.tail, bell := b } else queueOf s p := by
    intro p
    rw [hqs p, hfront]
    split
    next => rfl
    next hp => exact (smGet_smPut ..).trans (if_neg hp)
  refine ⟨qs, b, ?_, hqueues⟩
  unfold popCmd
  dsimp only
  rw [htake]
  dsimp only
  rw [hring]
  have hstate : (queueOf { s with office := { s.office with queues := qs } } q).state = .active := by
    show (smGet qDef qs q).state = _
    rw [hqueues, if_pos rfl]
    exact hactive
  rw [freeIfDrained]
  exact if_neg fun hd => absurd (hstate.symm.trans hd.1) (by decide)

/-! ### The command begins -/

theorem frontCmd_burst {l : Letter} {r : List Letter} (hkind : qKind (queueOf s q) = 2) (hactive : (queueOf s q).state = .active)
    (hup : sopDown s (q % 8) = false) (hfront : (queueOf s q).burst = l :: r) : frontCmd s q = some { q := q, data := l.data, cpm := l.postmark } := by
  unfold frontCmd
  dsimp only
  rw [if_neg (by simp [hkind, hup, hactive]), hfront]
theorem firstCode_nil : firstCode [] = 0 := rfl
section
variable {c : Cmd} {op : Nat} (h : NextCmd c op s)
include h
theorem NextCmd.slot : c.slot = none := by
  obtain ⟨l, r, -, hc⟩ := h.front
  rw [hc]
theorem NextCmd.frontCmd_eq : frontCmd s c.q = some c := by
  obtain ⟨hkind, hactive, hup⟩ := h.queue
  obtain ⟨l, r, hburst, hc⟩ := h.front
  rw [frontCmd_burst hkind hactive hup hburst, ← hc]
theorem NextCmd.popped : Popped c.q s (popCmd c.q s) := by
  obtain ⟨-, hactive, -⟩ := h.queue
  obtain ⟨l, r, hburst, -⟩ := h.front
  exact popCmd_active hburst hactive
theorem takeCmd_next (hmode : cMode c = 0) : takeCmd c.q op s = some (c, popCmd c.q s) := by
  have hready : (s.office.ready.find? fun x => x.q == c.q) = none := by simpa using h.alone
  have hfree : (cFlag c fOrder && runningOf s c.q) = false := by
    rcases h.free with hf | hf <;> rw [hf]
    · rfl
    · exact Bool.and_false _
  unfold takeCmd
  rw [hready, h.frontCmd_eq]
  dsimp only
  rw [if_pos ⟨hmode, h.fields.2, by rw [hfree]; rfl⟩]
theorem commonCodes_next (hp : Popped c.q s t) : commonCodes c t = [] := by
  have hlctr : (cFlag c fLctren && !granted t c.q 1 (cLctr c)) = false := by
    have hg : granted t c.q 1 (cLctr c) = granted s c.q 1 (cLctr c) := by
      obtain ⟨_, _, rfl, -⟩ := hp
      rfl
    cases hf : cFlag c fLctren with
    | false => rfl
    | true => rw [hg, h.counter hf]; rfl
  rw [commonCodes, h.fields.1, hlctr, h.slot]
  rfl
/-- The command leaves its queue and runs, its own checks passed. -/
theorem begin_runs (hmode : cMode c = 0) {codes : Cmd → State → List Nat} {act : Cmd → State → Running × State}
    (hcodes : firstCode (codes c (popCmd c.q s)) = 0) : begin_ c.q op codes act s = addRunning (act c (popCmd c.q s)).1 (act c (popCmd c.q s)).2 := by
  have hcommon := commonCodes_next h h.popped
  simp only [begin_, takeCmd_next h hmode, hcommon, List.nil_append, hcodes, stOk, ne_eq, not_true_eq_false, if_false]
/-- The command fails with the code its checks give. -/
theorem begin_fails (hmode : cMode c = 0) {codes : Cmd → State → List Nat} {act : Cmd → State → Running × State} {st : Nat}
    (hcodes : firstCode (codes c (popCmd c.q s)) = st) (hst : st ≠ 0) : begin_ c.q op codes act s = addRunning { cmd := c, status := st } (popCmd c.q s) := by
  have hcommon := commonCodes_next h h.popped
  simp only [begin_, takeCmd_next h hmode, hcommon, List.nil_append, hcodes, stOk, if_pos hst]
end

/-! ### What starting leaves -/

/-- The queues and the commands running are those of before. -/
def KeepsCmds (s t : State) : Prop := t.office.queues = s.office.queues ∧ t.office.cmds = s.office.cmds
theorem keepsCmds_of_office (h : t.office = s.office) : KeepsCmds s t := ⟨by rw [h], by rw [h]⟩
theorem Accessed.office (h : Accessed s t) : t.office = s.office := by
  obtain ⟨_, _, _, _, _, _, rfl, -⟩ := h
  rfl
theorem sameBytes_popped (h : Popped q s t) : SameBytes s t := by
  obtain ⟨_, _, rfl, -⟩ := h
  exact fun _ => rfl
section
variable {i : Instr} {c : Cmd} {op : Nat} {codes : Cmd → State → List Nat} {act : Cmd → State → Running × State} {E : State → Prop}
theorem starts_runs (h : NextCmd c op s) (hmode : cMode c = 0) (hexec : exec i s = .next (begin_ c.q op codes act s)) {r : Running}
    (hrun : ∀ s1, Popped c.q s s1 → firstCode (codes c s1) = 0 ∧ (act c s1).1 = r ∧ KeepsCmds s1 (act c s1).2 ∧ E (addRunning r (act c s1).2)) :
    Starts i c s r E := by
  obtain ⟨hcodes, hr, ⟨hqueues, hcmds⟩, hE⟩ := hrun _ h.popped
  refine ⟨_, hexec.trans (congrArg _ (begin_runs h hmode hcodes)), ?_, ?_, by rw [hr]; exact hE⟩
  · refine Eq.trans ?_ h.popped.burst
    show (smGet qDef (act c (popCmd c.q s)).2.office.queues c.q).burst = _
    rw [hqueues]
    rfl
  · show (act c (popCmd c.q s)).2.office.cmds ++ [(act c (popCmd c.q s)).1] = _
    rw [hcmds, hr]
    obtain ⟨_, _, hp, -⟩ := h.popped
    rw [hp]
theorem starts_fails (h : NextCmd c op s) (hmode : cMode c = 0) (hexec : exec i s = .next (begin_ c.q op codes act s)) {st : Nat} (hst : st ≠ 0)
    (hfail : ∀ s1, Popped c.q s s1 → firstCode (codes c s1) = st ∧ E (addRunning { cmd := c, status := st } s1)) : Starts i c s { cmd := c, status := st } E := by
  obtain ⟨hcodes, hE⟩ := hfail _ h.popped
  refine ⟨_, hexec.trans (congrArg _ (begin_fails h hmode hcodes hst)), h.popped.burst, ?_, hE⟩
  obtain ⟨_, _, hp, -⟩ := h.popped
  rw [hp]
  rfl
end

end Sys2Proof.Machine
end

section
/-! Bytes copied between clear ranges (14 R356, R358), and a command sent to its device (14 R351). -/

namespace Sys2Proof.Machine
variable {s t u : State}

/-! ### The copy engine -/

/-- Two ranges of `n` bytes that share none. -/
def Apart (a b n : Nat) : Prop := a + n ≤ b ∨ b + n ≤ a
/-- The bytes at `b` are those that stood at `a`, and no other byte has changed. -/
def Copied (a b n : Nat) (s t : State) : Prop := (∀ j, j < n → readByte t (b + j) = readByte s (a + j)) ∧ SameBytesBut b n s t
theorem copied_of_putBytes {a b n : Nat} (h : t.mem.bytes = putBytes (readBytes s a n) b s.mem.bytes) : Copied a b n s t := by
  refine ⟨fun j hj => ?_, sameBytesBut_of_putBytes h (length_readBytes ..)⟩
  rw [readByte_of_putBytes h, if_pos (by rw [length_readBytes]; omega), Nat.add_sub_cancel_left, getD_readBytes s a n j hj]
theorem holdsBytes_of_putNat {pa n v : Nat} (h : t.mem.bytes = putBytes (bytesOfNat v n) pa s.mem.bytes) : HoldsBytes t pa n v := by
  intro i hi
  have hlen : i < (bytesOfNat v n).length := by rwa [length_bytesOfNat]
  rw [readByte_of_putBytes h, if_pos (by omega), Nat.add_sub_cancel_left, List.getD_eq_getElem _ _ hlen, getElem_bytesOfNat]
/-- Bytes beside those written read as before. -/
theorem readBytes_beside {bs : List Byte} {pa a n : Nat} (h : t.mem.bytes = putBytes bs pa s.mem.bytes) (hout : a + n ≤ pa ∨ pa + bs.length ≤ a) :
    readBytes t a n = readBytes s a n := by
  induction n generalizing a with
  | zero => rfl
  | succ n ih =>
    rw [readBytes, readBytes, ih (by omega), readByte_of_putBytes h, if_neg (by omega)]
theorem copyPiece_clear (init tc : Nat) {src dst n : Nat} (hs : Clear s src n) (hd : Clear s dst n) :
    ∃ t, copyPiece init tc src dst n s = (false, t) ∧ Accessed s t ∧ t.mem.bytes = putBytes (readBytes s src n) dst s.mem.bytes := by
  have hm := metered_injectLines init tc src n s
  obtain ⟨hread, hsound, hacc, hbytes⟩ := agentRead_clear tc (hm.accessed.clear hs)
  have hsame : (agentRead tc src n (injectLines init tc src n s)).2.2.mem.bytes = s.mem.bytes := hbytes.trans (congrArg MemSt.bytes hm.mem)
  rw [readBytes_congr (congrArg MemSt.bytes hm.mem)] at hread
  have hm2 := metered_injectLines init tc dst n (agentRead tc src n (injectLines init tc src n s)).2.2
  have hacc2 : Accessed s (injectLines init tc dst n (agentRead tc src n (injectLines init tc src n s)).2.2) :=
    hm.accessed.trans (hacc.trans hm2.accessed)
  obtain ⟨hacc3, hwrite⟩ := agentWrite_clear tc (bs := readBytes s src n) (pa := dst) (by rw [length_readBytes]; exact hacc2.clear hd)
  refine ⟨_, ?_, hacc2.trans hacc3, hwrite.trans (by rw [hm2.mem, hsame])⟩
  unfold copyPiece
  dsimp only
  rw [hsound, hread]
  rfl
theorem copyBytes_clear (init tc k : Nat) {src dst n : Nat} (hk : n < k) (hs : Clear s src n) (hd : Clear s dst n) (hapart : Apart src dst n) :
    ∃ t, copyBytes init tc k src dst n s = (false, t) ∧ Accessed s t ∧ t.mem.bytes = putBytes (readBytes s src n) dst s.mem.bytes := by
  induction k generalizing src dst n s with
  | zero => omega
  | succ k ih =>
    unfold copyBytes
    split
    next h0 =>
      rw [h0]
      exact ⟨s, rfl, .refl s, rfl⟩
    next hn =>
      extract_lets m a b
      have hm : 0 < m ∧ m ≤ n := by omega
      obtain ⟨u, hpiece, hacc, hbytes⟩ := copyPiece_clear init tc (hs.mono (pa' := src) (n' := m) (Nat.le_refl _) (by omega))
        (hd.mono (pa' := dst) (n' := m) (Nat.le_refl _) (by omega))
      have hu : a = (false, u) := hpiece
      have hlen : (readBytes s src m).length = m := length_readBytes ..
      obtain ⟨t, hrest, hacc', hbytes'⟩ := ih (s := u) (src := src + m) (dst := dst + m) (n := n - m) (by omega)
        ((hacc.clear hs).mono (by omega) (by omega)) ((hacc.clear hd).mono (by omega) (by omega))
        (by rcases hapart with h | h <;> [left; right] <;> omega)
      refine ⟨t, ?_, hacc.trans hacc', ?_⟩
      · show (a.1 || b.1, b.2) = _
        have hb : b = (false, t) := by
          show copyBytes init tc k (src + m) (dst + m) (n - m) a.2 = _
          rw [hu, hrest]
        rw [hu, hb]
        rfl
      · rw [hbytes', readBytes_beside hbytes (by rw [hlen]; rcases hapart with h | h <;> omega), hbytes]
        have happend := putBytes_append (readBytes s src m) (readBytes s (src + m) (n - m)) dst s.mem.bytes
        rw [hlen] at happend
        rw [← happend, ← readBytes_add, Nat.add_sub_cancel' hm.2]

/-! ### A message leaves -/

/-- Memory and the sorting office are those of before. -/
def SameStore (s t : State) : Prop := t.office = s.office ∧ t.mem = s.mem
namespace SameStore
theorem refl (s : State) : SameStore s s := ⟨rfl, rfl⟩
theorem trans (h : SameStore s t) (h' : SameStore t u) : SameStore s u := ⟨h'.1.trans h.1, h'.2.trans h.2⟩
theorem of_log (h : LogNow s t) : SameStore s t := by
  obtain ⟨_, _, _, rfl⟩ := h
  exact ⟨rfl, rfl⟩
end SameStore
theorem sameStore_transmit (p : Nat) (m : Msg) (s : State) : SameStore s (transmit p m s) := by
  unfold transmit
  extract_lets po s1 s2
  split <;> exact ⟨rfl, rfl⟩
theorem sameStore_woken (c : Prop) [Decidable c] (p : Nat) (s : State) : SameStore s (if c then retrained p s else s) := by
  split <;> exact ⟨rfl, rfl⟩
theorem sameStore_route (expired : Bool) (m : Msg) (s : State) : SameStore s (route expired m s).2 := by
  unfold route
  extract_lets dst
  split
  · exact .refl s
  · split
    · exact .of_log (logNow_logFault 0x204 5 uDevice none dst 0)
    · split
      · exact .refl s
      · split
        · exact (sameStore_woken ..).trans (sameStore_transmit ..)
        · split
          · exact .refl s
          · split
            · exact (sameStore_woken ..).trans (sameStore_transmit ..)
            · exact sameStore_woken ..
theorem sameStore_sendMsg (m : Msg) (s : State) : SameStore s (sendMsg m s).2 := by
  unfold sendMsg
  extract_lets m1 r
  have hr : SameStore s r.2 := sameStore_route ..
  split
  · exact hr.trans ⟨rfl, rfl⟩
  · exact hr
theorem sameStore_sendOf (init : Nat) (m : Msg) (s : State) : SameStore s (sendOf init m s).2 :=
  SameStore.trans (t := inject init m.tc.toNat 1 [32 + egressOf s m] s) ⟨rfl, rfl⟩ (sameStore_sendMsg ..)
theorem sameStore_sendData (init : Option Nat) (ms : List Msg) (s : State) : SameStore s (sendData init ms s) := by
  unfold sendData
  induction ms generalizing s with
  | nil => exact .refl s
  | cons m ms ih =>
    rw [List.foldl_cons]
    refine SameStore.trans ?_ (ih _)
    split
    · exact sameStore_sendOf ..
    · exact sameStore_sendMsg ..

/-- Does a route lead on for a message: here, or by a port in service, its hops not used up? -/
def leadsOn (s : State) (m : Msg) : Bool :=
  let e := routeEntry s m
  decide (m.dst.toNat = devNum s) || (!decide (fld (actFor s m 0x4080000) 20 16 ≤ m.hops) &&
    !(((List.range 8).filter fun p => e.getLsbD (8 + p) && portUp s p).isEmpty && !(e.getLsbD 3 && portUp s (fld e 2 0))))
theorem routeLeads_route (m : Msg) (s : State) : routeLeads (route false m s).1 = leadsOn s m := by
  unfold route leadsOn
  extract_lets dst e up escPort esc free awake goMain
  split
  next hdst =>
    rw [show decide (m.dst.toNat = devNum s) = true from decide_eq_true hdst]
    rfl
  next hdst =>
    rw [show decide (m.dst.toNat = devNum s) = false from decide_eq_false hdst]
    split
    next hhops =>
      rw [decide_eq_true hhops]
      rfl
    next hhops =>
      rw [decide_eq_false hhops]
      split
      next hnone =>
        have : (up.isEmpty && !esc) = true := by simpa using hnone
        rw [this]
        rfl
      next hsome =>
        have : (up.isEmpty && !esc) = false := by simpa using hsome
        rw [this]
        split
        · rfl
        · split
          · rfl
          · split <;> rfl
theorem routeLeads_sendMsg (m : Msg) (s : State) :
    routeLeads (sendMsg m s).1 = leadsOn s { m with src := BitVec.ofNat 16 (devNum s), epar := decide (s.ctl.epoch % 2 = 1) } := by
  rw [← routeLeads_route]
  unfold sendMsg
  extract_lets m1 r
  split
  next hw => rw [show (route false m1 s).1 = .wait from hw]
  next => rfl

end Sys2Proof.Machine
end

section
/-! Commands that act on memory here, or are sent to their device (14 R351 to R358). -/

namespace Sys2Proof.Machine
variable {s s1 t u : State} {i : Instr} {c : Cmd} {op : Nat} {codes : Cmd → State → List Nat} {act : Cmd → State → Running × State}

/-! ### Checks -/

theorem codeIf_false (n : Nat) : codeIf false n = [] := rfl
theorem codeIf_true (n : Nat) : codeIf true n = [n] := rfl
theorem codeIf_nil {b : Bool} {n : Nat} (h : ∀ x ∈ codeIf b n, x = 0) (hn : n ≠ 0) : codeIf b n = [] := by
  cases b with
  | false => rfl
  | true => exact absurd (h n (List.mem_singleton_self n)) hn
theorem mayUse_nil {q r off n need : Nat} (h : MayUse s q r off n need) : (localUse s q r off n need).1 = [] := by
  unfold MayUse localUse regionUse at h
  simp only [List.mem_append] at h
  unfold localUse regionUse
  simp only [List.append_eq_nil_iff]
  exact ⟨⟨⟨codeIf_nil (fun x hx => h x (.inl (.inl (.inl hx)))) (by decide), codeIf_nil (fun x hx => h x (.inl (.inl (.inr hx)))) (by decide)⟩,
    codeIf_nil (fun x hx => h x (.inl (.inr hx))) (by decide)⟩, codeIf_nil (fun x hx => h x (.inr hx)) (by decide)⟩
theorem MayUse.popped {p q r off n need : Nat} (h : MayUse s q r off n need) (hp : Popped p s s1) : MayUse s1 q r off n need := by
  obtain ⟨_, _, rfl, -⟩ := hp
  exact h
theorem Popped.granted_eq {p : Nat} (hp : Popped p s s1) (q k n : Nat) : granted s1 q k n = granted s q k n := by
  obtain ⟨_, _, rfl, -⟩ := hp
  rfl
theorem Popped.sopDown_eq {p : Nat} (hp : Popped p s s1) (n : Nat) : sopDown s1 n = sopDown s n := by
  obtain ⟨_, _, rfl, -⟩ := hp
  rfl
theorem rctrCodes_nil (h : RctrFree c s) (hp : Popped c.q s s1) : rctrCodes c s1 = [] := by
  unfold rctrCodes
  cases hf : cFlag c fRctren with
  | false => rfl
  | true =>
    obtain ⟨hg, hup⟩ := h hf
    rw [hp.granted_eq, hp.sopDown_eq, hg, hup, Bool.not_true, Bool.and_false]
    rfl
theorem rctrCodes_away (h : isLocal c s1 = false) : rctrCodes c s1 = [] := by
  rw [rctrCodes, h, Bool.and_false, Bool.false_and, Bool.false_and]
  rfl
theorem isLocal_popped {p : Nat} (hp : Popped p s s1) : isLocal c s1 = isLocal c s := by
  obtain ⟨_, _, rfl, -⟩ := hp
  rfl
theorem isLocal_here (h : cRdev c = devNum s) : isLocal c s = true := by simp [isLocal, h]
theorem isLocal_away (h : ¬cRdev c = devNum s) : isLocal c s = false := by simp [isLocal, h]
theorem Clear.popped {p pa n : Nat} (h : Clear s pa n) (hp : Popped p s s1) : Clear s1 pa n := by
  obtain ⟨_, _, rfl, -⟩ := hp
  exact h
theorem Popped.bytes {p : Nat} (hp : Popped p s s1) : s1.mem.bytes = s.mem.bytes := by
  obtain ⟨_, _, rfl, -⟩ := hp
  rfl
theorem Popped.region {p : Nat} (hp : Popped p s s1) (r : Nat) : regionOf s1 r = regionOf s r := by
  obtain ⟨_, _, rfl, -⟩ := hp
  rfl

/-! ### Acts on memory -/

theorem keepsCmds_accessed (h : Accessed s t) : KeepsCmds s t := keepsCmds_of_office h.office
theorem starts_copy (h : NextCmd c op s) (hmode : cMode c = 0) (hexec : exec i s = .next (begin_ c.q op codes act s)) {a b n : Nat} {rs : List Nat}
    (hs : Clear s a n) (hd : Clear s b n) (hapart : Apart a b n)
    (hrun : ∀ s1, Popped c.q s s1 → firstCode (codes c s1) = 0 ∧ ∃ tc, act c s1 =
      ({ cmd := c, poison := (copyBytes (cmdInit c) tc (n + 1) a b n s1).1, regions := rs }, (copyBytes (cmdInit c) tc (n + 1) a b n s1).2)) :
    Starts i c s { cmd := c, regions := rs } (Copied a b n s) := by
  refine starts_runs h hmode hexec fun s1 hp => ?_
  obtain ⟨hcodes, tc, hact⟩ := hrun s1 hp
  obtain ⟨t, hcopy, hacc, hbytes⟩ := copyBytes_clear (cmdInit c) tc (n + 1) (Nat.lt_succ_self n) (hs.popped hp) (hd.popped hp) hapart
  rw [hcopy] at hact
  rw [hact]
  refine ⟨hcodes, rfl, keepsCmds_accessed hacc, copied_of_putBytes ?_⟩
  show t.mem.bytes = _
  rw [hbytes, hp.bytes, readBytes_congr hp.bytes]

/-! ### Sending -/

/-- The command is sent to its device and waits for the answer, or fails for want of a route. -/
def Sends (s : State) (c : Cmd) (i : Instr) (left : Nat) (rs : List Nat) : Prop :=
  let m := letterMsg 4 (cRdev c) s.links.nextTid (BitVec.ofNat 2 (qClass (queueOf s c.q))) false { data := c.data, postmark := c.cpm }
  let out := (sendMsg m (newTid s).2).1
  (routeLeads out = true → Starts i c s { cmd := c, tid := some s.links.nextTid, left := left, regions := rs } (SameBytes s)) ∧
  (routeLeads out = false → Starts i c s { cmd := c, status := 9, regions := rs } (SameBytes s))
theorem Accessed.links (h : Accessed s t) : t.links = s.links := by
  obtain ⟨_, _, _, _, _, _, rfl, -⟩ := h
  rfl
theorem Accessed.queueOf_eq (h : Accessed s t) (q : Nat) : queueOf t q = queueOf s q := by rw [queueOf, h.office]; rfl
/-- A route leads on from here after the command has left its queue and its data have been read as it does now. -/
theorem leads_sendOf (h : Accessed s t) (init : Nat) (m : Msg) (tid : BitVec 12) :
    routeLeads (sendOf init m { t with links := { t.links with nextTid := tid } }).1 = routeLeads (sendMsg m { s with links := { s.links with nextTid := tid } }).1 := by
  rw [sendOf, routeLeads_sendMsg, routeLeads_sendMsg]
  obtain ⟨_, _, _, _, _, _, rfl, -⟩ := h
  rfl
theorem leads_popped {p : Nat} (hp : Popped p s s1) (m : Msg) (tid : BitVec 12) :
    routeLeads (sendMsg m { s1 with links := { s1.links with nextTid := tid } }).1 = routeLeads (sendMsg m { s with links := { s.links with nextTid := tid } }).1 := by
  rw [routeLeads_sendMsg, routeLeads_sendMsg]
  obtain ⟨_, _, rfl, -⟩ := hp
  rfl
theorem starts_sends (h : NextCmd c op s) (hmode : cMode c = 0) (hexec : exec i s = .next (begin_ c.q op codes act s)) {left : Nat} {rs : List Nat}
    (hleft : (if cOp c = 3 then cX c else 0) = left)
    (hrun : ∀ s1, Popped c.q s s1 → firstCode (codes c s1) = 0 ∧ ∃ s2 bs, Accessed s1 s2 ∧ s2.mem.bytes = s1.mem.bytes ∧
      act c s1 = sendCommand c bs false rs s2) : Sends s c i left rs := by
  unfold Sends
  extract_lets m out
  have hout (s1 s2 : State) (hp : Popped c.q s s1) (hacc : Accessed s1 s2) : s2.links.nextTid = s.links.nextTid ∧
      letterMsg 4 (cRdev c) s2.links.nextTid (BitVec.ofNat 2 (qClass (queueOf s2 c.q))) false { data := c.data, postmark := c.cpm } = m ∧
      routeLeads (sendOf (cmdInit c) m (newTid s2).2).1 = routeLeads out := by
    have hlinks : s2.links = s.links := by
      obtain ⟨_, _, hs1, -⟩ := hp
      rw [hacc.links, hs1]
    refine ⟨by rw [hlinks], ?_, ?_⟩
    · rw [hlinks, hacc.queueOf_eq, hp.qClass_eq]
    · rw [show (newTid s2).2 = { s2 with links := { s2.links with nextTid := s2.links.nextTid + 1 } } from rfl, leads_sendOf hacc, hlinks,
        leads_popped hp]
      rfl
  refine ⟨fun hlead => starts_runs h hmode hexec fun s1 hp => ?_, fun hno => starts_runs h hmode hexec fun s1 hp => ?_⟩
  · obtain ⟨hcodes, s2, bs, hacc, hbytes, hact⟩ := hrun s1 hp
    obtain ⟨htid, hm, hroute⟩ := hout s1 s2 hp hacc
    rw [hlead] at hroute
    have hsend : sendCommand c bs false rs s2 = ({ cmd := c, tid := some s.links.nextTid, left := left, regions := rs },
        sendData (some (cmdInit c)) (dataMsgs 6 4 (cRdev c) (newTid s2).1 (BitVec.ofNat 2 (qClass (queueOf s2 c.q))) false bs)
          (sendOf (cmdInit c) m (newTid s2).2).2) := by
      unfold sendCommand
      dsimp only
      rw [show (newTid s2).1 = s2.links.nextTid from rfl, hm, hroute, if_pos rfl, hleft, htid]
    have hstore : SameStore s2 (sendData (some (cmdInit c)) (dataMsgs 6 4 (cRdev c) (newTid s2).1 (BitVec.ofNat 2 (qClass (queueOf s2 c.q))) false bs)
        (sendOf (cmdInit c) m (newTid s2).2).2) :=
      SameStore.trans (t := (newTid s2).2) ⟨rfl, rfl⟩ ((sameStore_sendOf ..).trans (sameStore_sendData ..))
    rw [hact, hsend]
    refine ⟨hcodes, rfl, keepsCmds_of_office (hstore.1.trans hacc.office), fun n => ?_⟩
    rw [readByte]
    show smGet _ (sendData _ _ _).mem.bytes n = _
    rw [hstore.2, hbytes, hp.bytes]
    rfl
  · obtain ⟨hcodes, s2, bs, hacc, hbytes, hact⟩ := hrun s1 hp
    obtain ⟨htid, hm, hroute⟩ := hout s1 s2 hp hacc
    rw [hno] at hroute
    have hsend : sendCommand c bs false rs s2 = ({ cmd := c, status := 9, regions := rs }, (sendOf (cmdInit c) m (newTid s2).2).2) := by
      unfold sendCommand
      dsimp only
      rw [show (newTid s2).1 = s2.links.nextTid from rfl, hm, hroute, if_neg Bool.false_ne_true]
      rfl
    have hstore : SameStore s2 (sendOf (cmdInit c) m (newTid s2).2).2 := SameStore.trans (t := (newTid s2).2) ⟨rfl, rfl⟩ (sameStore_sendOf ..)
    rw [hact, hsend]
    refine ⟨hcodes, rfl, keepsCmds_of_office (hstore.1.trans hacc.office), fun n => ?_⟩
    rw [readByte]
    show smGet _ (sendOf _ _ _).2.mem.bytes n = _
    rw [hstore.2, hbytes, hp.bytes]
    rfl

end Sys2Proof.Machine
end

section
/-! The commands that move bytes (14 R351 to R358): NOP, PUT, PUTI, GET, AMO and COPY. -/

namespace Sys2Proof.Machine
variable {s s1 t u : State} {q : Fin 65536} {c : Cmd}

theorem codeIf_not {p : Prop} [Decidable p] (h : ¬p) (n : Nat) : codeIf (decide p) n = [] := by rw [decide_eq_false h]; rfl
theorem mayUse_codes {p r off n need : Nat} (h : MayUse s c.q r off n need) (hp : Popped p s s1) : (localUse s1 c.q r off n need).1 = [] := mayUse_nil (h.popped hp)
theorem metered_read {init tc pa n : Nat} (h : Clear s pa n) : let x := agentRead tc pa n (injectLines init tc pa n s)
    x.1 = readBytes s pa n ∧ x.2.1 = false ∧ Accessed s x.2.2 ∧ x.2.2.mem.bytes = s.mem.bytes := by
  have hm := metered_injectLines init tc pa n s
  obtain ⟨hread, hsound, hacc, hbytes⟩ := agentRead_clear tc (hm.accessed.clear h)
  exact ⟨hread.trans (readBytes_congr (congrArg MemSt.bytes hm.mem) ..), hsound, hm.accessed.trans hacc, hbytes.trans (congrArg MemSt.bytes hm.mem)⟩
theorem metered_write {init tc pa n : Nat} {bs : List Byte} (h : Clear s pa n) (hn : bs.length = n) :
    Accessed s (agentWrite tc pa bs (injectLines init tc pa n s)) ∧
    (agentWrite tc pa bs (injectLines init tc pa n s)).mem.bytes = putBytes bs pa s.mem.bytes := by
  have hm := metered_injectLines init tc pa n s
  obtain ⟨hacc, hbytes⟩ := agentWrite_clear tc (bs := bs) (pa := pa) (by rw [hn]; exact hm.accessed.clear h)
  exact ⟨hm.accessed.trans hacc, hbytes.trans (by rw [hm.mem])⟩

theorem nop_starts (hmode : cMode c = 0) (h : NextCmd c 0 s) (hq : c.q = q.val) : Starts (.nop q) c s { cmd := c } (SameBytes s) := by
  refine starts_runs h hmode (codes := fun _ _ => []) (act := fun c s => ({ cmd := c }, s)) (by rw [hq]; rfl) fun s1 hp => ?_
  have hsame := sameBytes_popped hp
  exact ⟨rfl, rfl, ⟨rfl, rfl⟩, hsame⟩

/-! ### PUT and GET -/

section
variable (hmode : cMode c = 0) (hq : c.q = q.val)
include hmode hq
theorem put_here (h : NextCmd c 1 s) (here : cRdev c = devNum s) (hn : cX c ≤ 2 ^ 30) (hr : RctrFree c s)
    (hl : MayUse s c.q (cLreg c) (cLoff c) (cX c) needRead) (hw : MayUse s c.q (cRreg c) (cRoff c) (cX c) needWrite) :
    let dst := (regionOf s (cRreg c)).base + cRoff c
    let src := (regionOf s (cLreg c)).base + cLoff c
    Apart src dst (cX c) → Clear s src (cX c) → Clear s dst (cX c) →
    Starts (.put q) c s { cmd := c, regions := [cLreg c, cRreg c] } (Copied src dst (cX c) s) := by
  intro dst src hapart hs hd
  refine starts_copy h hmode (codes := putCodes) (act := putAct) (by rw [hq]; rfl) hs hd hapart fun s1 hp => ?_
  have hlocal : isLocal c s1 = true := by rw [isLocal_popped hp, isLocal_here here]
  refine ⟨?_, cmdTc s1 c, ?_⟩
  · rw [putCodes, hlocal, if_pos rfl, mayUse_codes hl hp, mayUse_codes hw hp, rctrCodes_nil hr hp, codeIf_not (by omega)]
    rfl
  · rw [putAct, hlocal, if_pos rfl, hp.region, hp.region]
theorem put_away (h : NextCmd c 1 s) (away : ¬cRdev c = devNum s) (hn : cX c ≤ 2 ^ 30) (hl : MayUse s c.q (cLreg c) (cLoff c) (cX c) needRead)
    (hs : Clear s ((regionOf s (cLreg c)).base + cLoff c) (cX c)) : Sends s c (.put q) 0 [cLreg c] := by
  refine starts_sends h hmode (codes := putCodes) (act := putAct) (by rw [hq]; rfl) (by rw [h.fields.2]; rfl) fun s1 hp => ?_
  have hlocal : isLocal c s1 = false := by rw [isLocal_popped hp, isLocal_away away]
  obtain ⟨hread, hsound, hacc, hbytes⟩ := metered_read (init := cmdInit c) (tc := cmdTc s1 c) (hs.popped hp)
  refine ⟨?_, _, readBytes s1 ((regionOf s (cLreg c)).base + cLoff c) (cX c), hacc, hbytes, ?_⟩
  · rw [putCodes, hlocal, if_neg Bool.false_ne_true, mayUse_codes hl hp, rctrCodes_away hlocal, codeIf_not (by omega)]
    rfl
  · rw [putAct, hlocal, if_neg Bool.false_ne_true, hp.region]
    dsimp only
    rw [hread, hsound]
theorem get_here (h : NextCmd c 3 s) (here : cRdev c = devNum s) (hn : cX c ≤ 2 ^ 30) (hr : RctrFree c s)
    (hl : MayUse s c.q (cLreg c) (cLoff c) (cX c) needWrite) (hw : MayUse s c.q (cRreg c) (cRoff c) (cX c) needRead) :
    let dst := (regionOf s (cRreg c)).base + cRoff c
    let src := (regionOf s (cLreg c)).base + cLoff c
    Apart dst src (cX c) → Clear s src (cX c) → Clear s dst (cX c) →
    Starts (.get q) c s { cmd := c, regions := [cLreg c, cRreg c] } (Copied dst src (cX c) s) := by
  intro dst src hapart hs hd
  refine starts_copy h hmode (codes := getCodes) (act := getAct) (by rw [hq]; rfl) hd hs hapart fun s1 hp => ?_
  have hlocal : isLocal c s1 = true := by rw [isLocal_popped hp, isLocal_here here]
  refine ⟨?_, cmdTc s1 c, ?_⟩
  · rw [getCodes, hlocal, if_pos rfl, mayUse_codes hl hp, mayUse_codes hw hp, rctrCodes_nil hr hp, codeIf_not (by omega)]
    rfl
  · rw [getAct, hlocal, if_pos rfl, hp.region, hp.region]
theorem get_away (h : NextCmd c 3 s) (away : ¬cRdev c = devNum s) (hn : cX c ≤ 2 ^ 30) (hl : MayUse s c.q (cLreg c) (cLoff c) (cX c) needWrite) :
    Sends s c (.get q) (cX c) [cLreg c] := by
  refine starts_sends h hmode (codes := getCodes) (act := getAct) (by rw [hq]; rfl) (by rw [h.fields.2]; rfl) fun s1 hp => ?_
  have hlocal : isLocal c s1 = false := by rw [isLocal_popped hp, isLocal_away away]
  refine ⟨?_, s1, [], .refl s1, rfl, ?_⟩
  · rw [getCodes, hlocal, if_neg Bool.false_ne_true, mayUse_codes hl hp, rctrCodes_away hlocal, codeIf_not (by omega)]
    rfl
  · rw [getAct, hlocal, if_neg Bool.false_ne_true]

/-! ### PUTI -/

omit hmode hq in
theorem putiSize_eq (hlt : cLreg c < 9) : putiSize c = cLreg c := by
  rw [putiSize, natBits]
  omega
theorem puti_here (h : NextCmd c 2 s) (hlt : cLreg c < 9) (hpos : 0 < cLreg c) (here : cRdev c = devNum s) (hr : RctrFree c s)
    (hw : MayUse s c.q (cRreg c) (cRoff c) (cLreg c) needWrite) :
    let dst := (regionOf s (cRreg c)).base + cRoff c
    Clear s dst (cLreg c) → Starts (.puti q) c s { cmd := c, regions := [cRreg c] } fun t =>
      HoldsBytes t dst (cLreg c) (cX c) ∧ SameBytesBut dst (cLreg c) s t := by
  intro dst hd
  refine starts_runs h hmode (codes := putiCodes) (act := putiAct) (by rw [hq]; rfl) fun s1 hp => ?_
  have hlocal : isLocal c s1 = true := by rw [isLocal_popped hp, isLocal_here here]
  have hsize := putiSize_eq hlt
  have hlen : (bytesOfNat (cX c) (cLreg c)).length = cLreg c := length_bytesOfNat ..
  obtain ⟨hacc, hbytes⟩ := metered_write (init := cmdInit c) (tc := cmdTc s1 c) (hd.popped hp) hlen
  rw [hp.bytes] at hbytes
  rw [putiAct, hlocal, if_pos rfl, hp.region, hsize]
  refine ⟨?_, rfl, keepsCmds_accessed hacc, holdsBytes_of_putNat hbytes, sameBytesBut_of_putBytes hbytes hlen⟩
  rw [putiCodes, hlocal, if_pos rfl, hsize, mayUse_codes hw hp, rctrCodes_nil hr hp, codeIf_not (by omega), codeIf_not (by omega)]
  rfl
theorem puti_away (h : NextCmd c 2 s) (hlt : cLreg c < 9) (hpos : 0 < cLreg c) (away : ¬cRdev c = devNum s) : Sends s c (.puti q) 0 [] := by
  refine starts_sends h hmode (codes := putiCodes) (act := putiAct) (by rw [hq]; rfl) (by rw [h.fields.2]; rfl) fun s1 hp => ?_
  have hlocal : isLocal c s1 = false := by rw [isLocal_popped hp, isLocal_away away]
  refine ⟨?_, s1, [], .refl s1, rfl, ?_⟩
  · rw [putiCodes, hlocal, if_neg Bool.false_ne_true, putiSize_eq hlt, rctrCodes_away hlocal, codeIf_not (by omega), codeIf_not (by omega)]
    rfl
  · rw [putiAct, hlocal, if_neg Bool.false_ne_true]

/-! ### AMO -/

omit hmode hq in
theorem amoCodes_nil (hop : cLreg c % 256 < 10) (hlt : cLreg c < 512) (hal : cRoff c % amoSize c = 0) : amoCodes c = [] := by
  have hzero : natBits (cLreg c) 7 4 = 0 := by rw [natBits]; omega
  have hlow : ¬9 < natBits (cLreg c) 3 0 := by rw [natBits]; omega
  rw [amoCodes, hzero, hal, decide_eq_false hlow, decide_eq_false (by omega)]
  rfl
theorem amo_here (h : NextCmd c 4 s) (hop : cLreg c % 256 < 10) (hlt : cLreg c < 512) (hal : cRoff c % amoSize c = 0) (hr : RctrFree c s)
    (here : cRdev c = devNum s) (hw : MayUse s c.q (cRreg c) (cRoff c) (amoSize c) needAmo) :
    let pa := (regionOf s (cRreg c)).base + cRoff c
    let wide := (cLreg c).testBit 8
    Clear s pa (amoSize c) → Starts (.amoCommand q) c s { cmd := c, value := amoOld wide pa s, regions := [cRreg c] } fun t =>
      t.mem.bytes = putBytes (amoNew (amoCode (natBits (cLreg c) 3 0)) wide (BitVec.ofNat 64 (cLoff c)) (BitVec.ofNat 64 (cX c)) pa s) pa s.mem.bytes := by
  intro pa wide hd
  refine starts_runs h hmode (codes := fun c s => amoCodes c ++ (if isLocal c s then (localUse s c.q (cRreg c) (cRoff c) (amoSize c) needAmo).1 else []) ++
    rctrCodes c s) (act := amoAct) (by rw [hq]; rfl) fun s1 hp => ?_
  have hlocal : isLocal c s1 = true := by rw [isLocal_popped hp, isLocal_here here]
  have hm := metered_injectLines (cmdInit c) (cmdTc s1 c) pa 1 s1
  have hsize : 0 < amoSize c := by
    unfold amoSize
    split <;> decide
  have hclear := hm.accessed.clear (hd.popped hp)
  obtain ⟨hold, hnew, hbeside⟩ := agentAmo_clear (cmdTc (injectLines (cmdInit c) (cmdTc s1 c) pa 1 s1) c) (natBits (cLreg c) 3 0) wide
    (BitVec.ofNat 64 (cLoff c)) (BitVec.ofNat 64 (cX c)) hclear hsize
  have hsound : readsPoison (injectLines (cmdInit c) (cmdTc s1 c) pa 1 s1) (lineOf pa) = false := (hclear 0 hsize).1
  have hsame : (injectLines (cmdInit c) (cmdTc s1 c) pa 1 s1).mem.bytes = s.mem.bytes := by rw [hm.mem, hp.bytes]
  rw [amoOld_congr hsame] at hold
  rw [amoNew_congr hsame, hsame] at hnew
  have hoffice : (agentAmo (cmdTc (injectLines (cmdInit c) (cmdTc s1 c) pa 1 s1) c) pa (natBits (cLreg c) 3 0) wide (BitVec.ofNat 64 (cLoff c))
      (BitVec.ofNat 64 (cX c)) (injectLines (cmdInit c) (cmdTc s1 c) pa 1 s1)).2.office = s1.office :=
    (congrArg State.office hbeside :).trans hm.accessed.office
  rw [amoAct, hlocal, if_pos rfl, hp.region]
  dsimp only
  rw [amoDo, show (regionOf s (cRreg c)).base + cRoff c = pa from rfl, hsound, if_neg Bool.false_ne_true]
  refine ⟨?_, by rw [← hold]; rfl, keepsCmds_of_office hoffice, hnew⟩
  rw [amoCodes_nil hop hlt hal, mayUse_codes hw hp, rctrCodes_nil hr hp]
  rfl
theorem amo_away (h : NextCmd c 4 s) (hop : cLreg c % 256 < 10) (hlt : cLreg c < 512) (hal : cRoff c % amoSize c = 0) (away : ¬cRdev c = devNum s) :
    Sends s c (.amoCommand q) 0 [] := by
  refine starts_sends h hmode (codes := fun c s => amoCodes c ++ (if isLocal c s then (localUse s c.q (cRreg c) (cRoff c) (amoSize c) needAmo).1 else []) ++
    rctrCodes c s) (act := amoAct) (by rw [hq]; rfl) (by rw [h.fields.2]; rfl) fun s1 hp => ?_
  have hlocal : isLocal c s1 = false := by rw [isLocal_popped hp, isLocal_away away]
  refine ⟨?_, s1, [], .refl s1, rfl, ?_⟩
  · rw [hlocal, if_neg Bool.false_ne_true, amoCodes_nil hop hlt hal, rctrCodes_away hlocal]
    rfl
  · rw [amoAct, hlocal, if_neg Bool.false_ne_true]

/-! ### COPY -/

theorem copy_here (h : NextCmd c 5 s) (here : cRdev c = devNum s) (hn : cX c ≤ 2 ^ 30) (hl : MayUse s c.q (cLreg c) (cLoff c) (cX c) needRead)
    (hw : MayUse s c.q (cRreg c) (cRoff c) (cX c) needWrite) :
    let dst := (regionOf s (cRreg c)).base + cRoff c
    let src := (regionOf s (cLreg c)).base + cLoff c
    Apart src dst (cX c) → Clear s src (cX c) → Clear s dst (cX c) →
    Starts (.copy q) c s { cmd := c, regions := [cLreg c, cRreg c] } (Copied src dst (cX c) s) := by
  intro dst src hapart hs hd
  refine starts_copy h hmode (codes := copyCodes) (act := copyAct) (by rw [hq]; rfl) hs hd hapart fun s1 hp => ?_
  have hlocal : isLocal c s1 = true := by rw [isLocal_popped hp, isLocal_here here]
  refine ⟨?_, cmdTc s1 c, ?_⟩
  · have hover : overlaps (localUse s1 c.q (cLreg c) (cLoff c) (cX c) needRead).2 (localUse s1 c.q (cRreg c) (cRoff c) (cX c) needWrite).2 (cX c) = false := by
      show overlaps ((regionOf s1 (cLreg c)).base + cLoff c) ((regionOf s1 (cRreg c)).base + cRoff c) (cX c) = false
      rw [hp.region, hp.region]
      exact decide_eq_false (by rcases hapart with h | h <;> omega)
    rw [copyCodes, hover, hlocal, mayUse_codes hl hp, mayUse_codes hw hp, decide_eq_false (show ¬2 ^ 30 < cX c by omega)]
    rfl
  · rw [copyAct, hp.region, hp.region]
theorem copy_away (h : NextCmd c 5 s) (away : ¬cRdev c = devNum s)
    (hx : ∀ x ∈ (localUse s c.q (cLreg c) (cLoff c) (cX c) needRead).1 ++ (localUse s c.q (cRreg c) (cRoff c) (cX c) needWrite).1, x = 0) :
    Starts (.copy q) c s { cmd := c, status := 3 } (SameBytes s) := by
  refine starts_fails h hmode (codes := copyCodes) (act := copyAct) (by rw [hq]; rfl) (by decide) fun s1 hp => ?_
  have hlocal : isLocal c s1 = false := by rw [isLocal_popped hp, isLocal_away away]
  have hl : MayUse s c.q (cLreg c) (cLoff c) (cX c) needRead := fun x h => hx x (List.mem_append_left _ h)
  have hw : MayUse s c.q (cRreg c) (cRoff c) (cX c) needWrite := fun x h => hx x (List.mem_append_right _ h)
  have hsame := sameBytes_popped hp
  refine ⟨?_, hsame⟩
  rw [copyCodes, hlocal, mayUse_codes hl hp, mayUse_codes hw hp]
  rfl
end

end Sys2Proof.Machine
end

section
/-! Trigger counters, slots and the arming of commands (14 R361 to R365). -/

namespace Sys2Proof.Machine
variable {s s1 t u : State} {q : Fin 65536} {c : Cmd}

/-! ### Counters and the slots that wait for them -/

/-- No slot waits for the counter. -/
def NoSlot (s : State) (k : Nat) : Prop := ∀ e ∈ s.office.slots, ∀ y, e.2 = some y → y.ctr ≠ k
theorem dueSlots_nil {k : Nat} (h : ∀ e ∈ s.office.slots, ∀ y, e.2 = some y → y.ctr = k → (ctrOf s k).toNat < y.thresh.toNat) : dueSlots s k = [] := by
  unfold dueSlots
  generalize s.office.slots = l at h
  induction l with
  | nil => rfl
  | cons e l ih =>
    rw [List.foldr_cons, ih fun e' he' => h e' (List.mem_cons_of_mem _ he')]
    obtain ⟨j, o⟩ := e
    cases o with
    | none => rfl
    | some y =>
      have hy := h (j, some y) (List.mem_cons_self ..) y rfl
      exact if_neg fun hdue => absurd (hy hdue.1) (Nat.not_lt.2 hdue.2)
theorem fireCtr_none {k : Nat} (h : dueSlots s k = []) : fireCtr k s = s := by rw [fireCtr, h]; rfl
theorem fireCtr_noSlot {k : Nat} (h : NoSlot s k) : fireCtr k s = s := fireCtr_none (dueSlots_nil fun e he y hy hk => absurd hk (h e he y hy))
/-- The one slot that stands fires. -/
theorem fireCtr_one {k j : Nat} {y : Slot} (hslots : s.office.slots = [(j, some y)]) (hk : y.ctr = k) (hdue : y.thresh.toNat ≤ (ctrOf s k).toNat) :
    fireCtr k s = { s with office := { s.office with slots := [], ready := s.office.ready ++ [{ y.cmd with slot := some j, cpm := s.time.now }] } } := by
  have hlist : dueSlots s k = [(j, y)] := by
    unfold dueSlots
    rw [hslots]
    exact if_pos ⟨hk, hdue⟩
  have hput : smPut slotDef s.office.slots j none = [] := by
    rw [hslots]
    simp [smPut, slotDef, smDrop]
  rw [fireCtr, hlist]
  show fireSlot j y s = _
  rw [fireSlot, putSlot, hput]

/-- The counter has become `v`, no other counter and no byte of memory has changed. -/
def Moved (s : State) (k : Nat) (v : Word64) (t : State) : Prop := ctrOf t k = v ∧ (∀ j, j ≠ k → ctrOf t j = ctrOf s j) ∧ SameBytes s t
theorem ctrOf_setCtr (k j : Nat) (v : Word64) (s : State) : ctrOf (setCtr k v s) j = if j = k then v else ctrOf s j := smGet_smPut ..
theorem moved_setCtr (k : Nat) (v : Word64) (s : State) : Moved s k v (setCtr k v s) :=
  ⟨by rw [ctrOf_setCtr, if_pos rfl], fun j hj => by rw [ctrOf_setCtr, if_neg hj], fun _ => rfl⟩
theorem moved_same (k : Nat) (s : State) : Moved s k (ctrOf s k) s := ⟨rfl, fun _ _ => rfl, fun _ => rfl⟩
theorem Moved.popped {k p : Nat} {v : Word64} (h : Moved s1 k v t) (hp : Popped p s s1) : Moved s k v t := by
  obtain ⟨_, _, rfl, -⟩ := hp
  exact h
theorem moved_of_office {k : Nat} {v : Word64} (h : Moved s k v t) (hc : u.office.ctrs = t.office.ctrs) (hb : u.mem = t.mem) : Moved s k v u := by
  obtain ⟨hk, hother, hbytes⟩ := h
  refine ⟨?_, fun j hj => ?_, fun n => ?_⟩
  · rw [ctrOf, hc]
    exact hk
  · rw [ctrOf, hc]
    exact hother j hj
  · rw [readByte, hb]
    exact hbytes n

/-! ### The commands -/

section
variable (hmode : cMode c = 0) (hq : c.q = q.val)
include hmode hq
section
variable (hg : granted s c.q 1 (cRctr c) = true) (hup : sopDown s (cRctr c % 8) = false)
omit hmode hq in
include hg hup in
theorem ctrCodes_nil (hp : Popped c.q s s1) : ctrCodes c s1 = [] := by
  rw [ctrCodes, hp.granted_eq, hp.sopDown_eq, hg, hup]
  rfl
include hg hup
theorem ctradd_here (h : NextCmd c 8 s) (here : cRdev c = devNum s) (hquiet : NoSlot s (cRctr c)) : Starts (.ctradd q) c s { cmd := c } fun t =>
    Moved s (cRctr c) (ctrOf s (cRctr c) + BitVec.ofNat 64 (cX c)) t ∧ t.office.ready = s.office.ready ∧ t.office.slots = s.office.slots := by
  refine starts_runs h hmode (codes := fun c s => if isLocal c s then ctrCodes c s else []) (act := ctraddAct) (by rw [hq]; rfl) fun s1 hp => ?_
  have hlocal : isLocal c s1 = true := by rw [isLocal_popped hp, isLocal_here here]
  have hcodes := ctrCodes_nil hg hup hp
  obtain ⟨_, _, rfl, -⟩ := hp
  rw [ctraddAct, hlocal, if_pos rfl, hcodes, advanceCtr, fireCtr_noSlot (by exact hquiet)]
  exact ⟨rfl, rfl, ⟨rfl, rfl⟩, moved_setCtr (cRctr c) _ s, rfl, rfl⟩
theorem ctradd_fires (h : NextCmd c 8 s) (here : cRdev c = devNum s) {j : Nat} {y : Slot} (hslots : s.office.slots = [(j, some y)])
    (hy : y.ctr = cRctr c) (hdue : y.thresh.toNat ≤ (ctrOf s (cRctr c) + BitVec.ofNat 64 (cX c)).toNat) : Starts (.ctradd q) c s { cmd := c } fun t =>
    Moved s (cRctr c) (ctrOf s (cRctr c) + BitVec.ofNat 64 (cX c)) t ∧ t.office.slots = [] ∧
      t.office.ready = s.office.ready ++ [{ y.cmd with slot := some j, cpm := s.time.now }] := by
  refine starts_runs h hmode (codes := fun c s => if isLocal c s then ctrCodes c s else []) (act := ctraddAct) (by rw [hq]; rfl) fun s1 hp => ?_
  have hlocal : isLocal c s1 = true := by rw [isLocal_popped hp, isLocal_here here]
  have hcodes := ctrCodes_nil hg hup hp
  obtain ⟨_, _, rfl, -⟩ := hp
  rw [ctraddAct, hlocal, if_pos rfl, hcodes, advanceCtr, fireCtr_one (by exact hslots) hy (by rw [ctrOf_setCtr, if_pos rfl]; exact hdue)]
  exact ⟨rfl, rfl, ⟨rfl, rfl⟩, moved_setCtr (cRctr c) _ s, rfl, rfl⟩
theorem ctrset_here (h : NextCmd c 9 s) (here : cRdev c = devNum s) (hquiet : NoSlot s (cRctr c)) :
    Starts (.ctrset q) c s { cmd := c } (Moved s (cRctr c) (BitVec.ofNat 64 (cX c))) := by
  refine starts_runs h hmode (codes := fun c s => codeIf (!isLocal c s) stRange ++ ctrCodes c s)
    (act := fun c s => ({ cmd := c }, setCounter (cRctr c) (BitVec.ofNat 64 (cX c)) s)) (by rw [hq]; rfl) fun s1 hp => ?_
  have hlocal : isLocal c s1 = true := by rw [isLocal_popped hp, isLocal_here here]
  have hcodes := ctrCodes_nil hg hup hp
  obtain ⟨_, _, rfl, -⟩ := hp
  rw [hlocal, hcodes, setCounter, fireCtr_noSlot (by exact hquiet)]
  exact ⟨rfl, rfl, ⟨rfl, rfl⟩, moved_setCtr (cRctr c) _ s⟩
theorem ctrread_here (h : NextCmd c 10 s) (here : cRdev c = devNum s) :
    Starts (.ctrread q) c s { cmd := c, value := ctrOf s (cRctr c), always := true } (Moved s (cRctr c) (ctrOf s (cRctr c))) := by
  refine starts_runs h hmode (codes := fun c s => codeIf (!isLocal c s) stRange ++ ctrCodes c s)
    (act := fun c s => ({ cmd := c, value := ctrOf s (cRctr c), always := true }, s)) (by rw [hq]; rfl) fun s1 hp => ?_
  have hlocal : isLocal c s1 = true := by rw [isLocal_popped hp, isLocal_here here]
  have hcodes := ctrCodes_nil hg hup hp
  obtain ⟨_, _, rfl, -⟩ := hp
  rw [hlocal, hcodes]
  exact ⟨rfl, rfl, ⟨rfl, rfl⟩, moved_same (cRctr c) s⟩
end
theorem ctradd_ungranted (h : NextCmd c 8 s) (here : cRdev c = devNum s) (hg : granted s c.q 1 (cRctr c) = false) :
    Starts (.ctradd q) c s { cmd := c, status := 2 } (Moved s (cRctr c) (ctrOf s (cRctr c))) := by
  refine starts_fails h hmode (codes := fun c s => if isLocal c s then ctrCodes c s else []) (act := ctraddAct) (by rw [hq]; rfl) (by decide) fun s1 hp => ?_
  have hlocal : isLocal c s1 = true := by rw [isLocal_popped hp, isLocal_here here]
  refine ⟨?_, ?_⟩
  · rw [hlocal, if_pos rfl, ctrCodes, hp.granted_eq, hg]
    cases sopDown s1 (cRctr c % 8) <;> rfl
  · obtain ⟨_, _, rfl, -⟩ := hp
    exact moved_same (cRctr c) s
theorem ctradd_away (h : NextCmd c 8 s) (away : ¬cRdev c = devNum s) : Sends s c (.ctradd q) 0 [] := by
  refine starts_sends h hmode (codes := fun c s => if isLocal c s then ctrCodes c s else []) (act := ctraddAct) (by rw [hq]; rfl)
    (by rw [h.fields.2]; rfl) fun s1 hp => ?_
  have hlocal : isLocal c s1 = false := by rw [isLocal_popped hp, isLocal_away away]
  refine ⟨?_, s1, [], .refl s1, rfl, ?_⟩
  · rw [hlocal, if_neg Bool.false_ne_true]
    rfl
  · rw [ctraddAct, hlocal, if_neg Bool.false_ne_true]

omit hmode hq in
theorem slotAt_putSlot (n j : Nat) (x : Option Slot) (s : State) : slotAt (putSlot n x s) j = if j = n then x else slotAt s j := smGet_smPut ..
omit hmode hq in
theorem cancelAct_some (hn : cX c < 2 ^ 18) {x : Slot} (hx : slotAt u (cX c) = some x) : cancelAct c u = ({ cmd := c }, putSlot (cX c) none u) := by
  rw [cancelAct, Nat.mod_eq_of_lt hn, hx]
omit hmode hq in
theorem cancelAct_none (hn : cX c < 2 ^ 18) (hx : slotAt u (cX c) = none) : cancelAct c u = ({ cmd := c, status := stBusy }, u) := by
  rw [cancelAct, Nat.mod_eq_of_lt hn, hx]
theorem trigcancel_starts (h : NextCmd c 12 s) (hn : cX c < 2 ^ 18) (hg : granted s c.q 0 (cX c) = true) (hup : sopDown s (cX c % 8) = false) :
    (slotAt s (cX c) ≠ none → Starts (.trigcancel q) c s { cmd := c } fun t => slotAt t (cX c) = none ∧ (∀ j, j ≠ cX c → slotAt t j = slotAt s j) ∧ SameBytes s t) ∧
    (slotAt s (cX c) = none → Starts (.trigcancel q) c s { cmd := c, status := 7 } fun t => t.office.slots = s.office.slots ∧ SameBytes s t) := by
  have hmod : cX c % 2 ^ 18 = cX c := Nat.mod_eq_of_lt hn
  have hcodes (s1 : State) (hp : Popped c.q s s1) : codeIf (decide (2 ^ 18 ≤ cX c)) stRsvd ++ codeIf (!granted s1 c.q 0 (cX c % 2 ^ 18)) stPriv ++
      codeIf (sopDown s1 (cX c % 8)) stFenced = [] := by
    rw [hmod, hp.granted_eq, hp.sopDown_eq, hg, hup, codeIf_not (by omega)]
    rfl
  refine ⟨fun hsome => ?_, fun hnone => ?_⟩
  · refine starts_runs h hmode (act := cancelAct) (by rw [hq]; rfl) fun s1 hp => ⟨by rw [hcodes s1 hp]; rfl, ?_⟩
    obtain ⟨x, hx⟩ := Option.ne_none_iff_exists'.1 hsome
    have hslot : slotAt s1 (cX c) = slotAt s (cX c) := by
      obtain ⟨_, _, rfl, -⟩ := hp
      rfl
    obtain ⟨_, _, rfl, -⟩ := hp
    rw [cancelAct_some hn (hslot.trans hx)]
    exact ⟨rfl, ⟨rfl, rfl⟩, (slotAt_putSlot (cX c) (cX c) none s).trans (if_pos rfl), fun j hj => (slotAt_putSlot (cX c) j none s).trans (if_neg hj), fun _ => rfl⟩
  · refine starts_runs h hmode (act := cancelAct) (by rw [hq]; rfl) fun s1 hp => ⟨by rw [hcodes s1 hp]; rfl, ?_⟩
    have hslot : slotAt s1 (cX c) = slotAt s (cX c) := by
      obtain ⟨_, _, rfl, -⟩ := hp
      rfl
    obtain ⟨_, _, rfl, -⟩ := hp
    rw [cancelAct_none hn (hslot.trans hnone)]
    exact ⟨rfl, ⟨rfl, rfl⟩, rfl, fun _ => rfl⟩
end

end Sys2Proof.Machine
end

section
/-! Reduction contexts: contributions, rounds and their configuration (14 R367 to R371). -/

namespace Sys2Proof.Machine
variable {s s1 t u : State} {q : Fin 65536} {c k : Cmd}

theorem ctxOf_setCtx (x j : Nat) (v : Ctx) (s : State) : ctxOf (setCtx x v s) j = if j = x then v else ctxOf s j := smGet_smPut ..
/-- Context `x` has become `v`, and no other context has changed. -/
def OnlyCtx (x : Nat) (v : Ctx) (s t : State) : Prop := ctxOf t x = v ∧ ∀ j, j ≠ x → ctxOf t j = ctxOf s j
theorem onlyCtx_set (x : Nat) (v : Ctx) (s : State) : OnlyCtx x v s (setCtx x v s) :=
  ⟨(ctxOf_setCtx ..).trans (if_pos rfl), fun _ hj => (ctxOf_setCtx ..).trans (if_neg hj)⟩
theorem OnlyCtx.of_ctxs {x : Nat} {v : Ctx} (h : OnlyCtx x v s t) {s' t' : State} (hs : s'.office.ctxs = s.office.ctxs) (ht : t'.office.ctxs = t.office.ctxs) :
    OnlyCtx x v s' t' := by
  refine ⟨?_, fun j hj => ?_⟩
  · rw [ctxOf, ht]
    exact h.1
  · rw [ctxOf, ctxOf, ht, hs]
    exact h.2 j hj
theorem Popped.ctxs {p : Nat} (hp : Popped p s s1) : s1.office.ctxs = s.office.ctxs := by
  obtain ⟨_, _, rfl, -⟩ := hp
  rfl
theorem Popped.ctxOf_eq {p : Nat} (hp : Popped p s s1) (x : Nat) : ctxOf s1 x = ctxOf s x := by rw [ctxOf, hp.ctxs]; rfl

/-! ### A contribution -/

/-- The scratchpad ways of the L2s are those of before. -/
def SpKept (s t : State) : Prop := ∀ pc, (priv t pc).spMask = (priv s pc).spMask
theorem SpKept.trans (h : SpKept s t) (h' : SpKept t u) : SpKept s u := fun pc => (h' pc).trans (h pc)
theorem spKept_freeTransit (p line : Nat) (s : State) : SpKept s (freeTransit p line s) := by
  intro pc
  rw [freeTransit, priv, setPriv, smGet_smPut]
  split
  next h => rw [h]
  next => rfl
theorem spKept_ackAll (line : Nat) (s : State) : SpKept s (ackAll line s) := by
  unfold ackAll
  generalize s.mem.priv = l
  induction l generalizing s with
  | nil => exact fun _ => rfl
  | cons e l ih =>
    rw [List.foldl_cons]
    split
    · exact SpKept.trans (spKept_freeTransit e.1 line s) (ih _)
    · exact ih s
theorem spKept_rnc {line : Nat} (h : LineClear s line) (b : ReqData) : SpKept s (request .rnc .agent line b s).2 := by
  obtain ⟨pr, hack⟩ := ackAll_priv line s
  have hacc : Accessed s (hnCnt (homeOf s line) cntReq (ackAll line s)) := by
    rw [hack]
    exact (accessed_priv s pr).trans (Metered.accessed ⟨_, _, rfl⟩)
  have hfin : homeFinish (hnCnt (homeOf s line) cntReq (ackAll line s)) { kind := .rnc, req := .agent, line := line, body := b } =
      (0, none, hnCnt (homeOf s line) cntReq (ackAll line s)) := by
    simp only [homeFinish, Bool.false_eq_true, if_false, serveFromL3, (h.of_accessed hacc).l3]
  rw [request_clear h .rnc (by decide) b (by rw [hfin]), hfin]
  exact spKept_ackAll line s
theorem spKept_readLine (tc : Nat) {pa m n : Nat} (h : Clear s pa m) (hm : 0 < m) : SpKept s (agentReadLine tc pa n s).2.2 := by
  unfold agentReadLine
  split
  next hmem =>
    rw [noteFenced_unfenced (h.poison hm).2]
    exact spKept_rnc (h.lineAt hm hmem) _
  · exact fun _ => rfl
theorem Clear.whole {pa m n : Nat} (h : Clear s pa 1) (hline : pa % 64 + m ≤ 64) (hn : n ≤ m) : Clear s pa n := by
  intro i hi
  have hl : lineOf (pa + i) = lineOf (pa + 0) := by unfold lineOf; omega
  rw [hl]
  exact h 0 Nat.one_pos
theorem spKept_readFrom (tc pa : Nat) (l : List (Nat × Nat)) (h : ∀ x ∈ l, Clear s x.1 1 ∧ x.1 % 64 + x.2 ≤ 64) :
    SpKept s (agentReadFrom tc pa l s).2.2 := by
  induction l generalizing s with
  | nil => exact fun _ => rfl
  | cons x l ih =>
    obtain ⟨a, n⟩ := x
    obtain ⟨hclear, hline⟩ := h (a, n) (List.mem_cons_self ..)
    rw [agentReadFrom]
    have hfirst := spKept_readLine tc (n := n) hclear Nat.one_pos
    refine hfirst.trans (ih fun y hy => ?_)
    obtain ⟨hy1, hy2⟩ := h y (List.mem_cons_of_mem _ hy)
    rcases Nat.eq_zero_or_pos n with h0 | hn
    · have hacc : Accessed s (agentReadLine tc a n s).2.2 := by
        unfold agentReadLine
        split
        next hmem =>
          rw [noteFenced_unfenced (hclear.poison Nat.one_pos).2]
          exact (request_rnc (hclear.lineAt Nat.one_pos hmem) _).1
        · exact .refl s
      exact ⟨hacc.clear hy1, hy2⟩
    · obtain ⟨-, -, hacc, -⟩ := agentReadLine_clear tc (hclear.whole hline (Nat.le_refl n)) hn
      exact ⟨hacc.clear hy1, hy2⟩
theorem spKept_read {init tc pa n : Nat} (h : Clear s pa n) : SpKept s (agentRead tc pa n (injectLines init tc pa n s)).2.2 := by
  have hm := metered_injectLines init tc pa n s
  have hstart : SpKept s (injectLines init tc pa n s) := fun pc => by rw [priv, hm.mem]; rfl
  refine hstart.trans ?_
  have hclear := hm.accessed.clear h
  generalize injectLines init tc pa n s = a at hclear
  unfold agentRead
  split
  · exact fun _ => rfl
  next hn =>
    refine spKept_readFrom tc pa _ fun x hx => ?_
    obtain ⟨i, hi, rfl⟩ := List.mem_map.1 hx
    have hlt := List.mem_range.1 hi
    dsimp only
    split
    · exact ⟨hclear.mono (Nat.le_refl _) (by omega), by omega⟩
    · exact ⟨hclear.mono (by omega) (by omega), by omega⟩

theorem backed_kept (hacc : Accessed s t) (hsp : SpKept s t) (pa : Nat) : backed t pa = backed s pa := by
  have hside : (∀ n, slotBacked t n = slotBacked s n) ∧ slotOf t = slotOf s ∧ (∀ n, sectorRuns t n = sectorRuns s n) ∧ t.mem.ddrGib = s.mem.ddrGib ∧
      (∀ n, bound t n = bound s n) ∧ ∀ n, pcOf t n = pcOf s n := by
    obtain ⟨_, _, _, _, _, _, rfl, -⟩ := hacc
    exact ⟨fun _ => rfl, rfl, fun _ => rfl, rfl, fun _ => rfl, fun _ => rfl⟩
  obtain ⟨hslots, hslot, hsector, hgib, hbound, hpc⟩ := hside
  have hscratch (o : Nat) : scratchBacked t o = scratchBacked s o := by
    unfold scratchBacked l3SpWays l2SpWays
    simp only [hacc.slice_eq, hbound, hpc, hsp _]
  unfold backed
  simp only [hslots, hslot, hsector, hgib, hscratch]
theorem MayUse.accessed {p r off n need : Nat} (h : MayUse s p r off n need) (hacc : Accessed s t) (hb : t.mem.bytes = s.mem.bytes) (hsp : SpKept s t) :
    MayUse t p r off n need := by
  have howner (p : Nat) : ownerCode t p = ownerCode s p := by
    have hbyte : readByte t = readByte s := funext fun a => by rw [readByte, readByte, hb]
    have hside : t.ctl.regs = s.ctl.regs ∧ slotOf t = slotOf s ∧ ∀ a, inReserve t a = inReserve s a := by
      obtain ⟨_, _, _, _, _, _, rfl, -⟩ := hacc
      exact ⟨rfl, rfl, fun _ => rfl⟩
    obtain ⟨hregs, hslot, hreserve⟩ := hside
    have hreg (o : Nat) : reg t o = reg s o := by rw [reg, hregs]; rfl
    have hreg64 (o : Nat) : reg64 t o = reg64 s o := by rw [reg64, hreg, hreg]; rfl
    unfold ownerCode
    rw [hslot, hreg64, hreg64, hreg64, hreg, hreserve, hbyte]
  have hregion (p : Nat) (k : AccessKind) : regionOk t p k = regionOk s p k := by rw [regionOk, backed_kept hacc hsp]; rfl
  have hgrant (k n : Nat) : granted t p k n = granted s p k n := by rw [granted, hacc.office]; rfl
  have hof : regionOf t r = regionOf s r := by rw [regionOf, hacc.office]; rfl
  unfold MayUse localUse regionUse at h ⊢
  simpa only [hacc.lineFenced_eq, howner, hregion, hgrant, hof] using h
theorem wordsAt_congr (h : t.mem.bytes = s.mem.bytes) (pa n : Nat) : wordsAt pa t n = wordsAt pa s n :=
  List.map_congr_left fun i _ => by rw [readNat, readNat, readBytes_congr h]
/-- The elements of a round, one behind the other. -/
theorem part_foldr {α : Type} {f : α → List Byte} {n : Nat} (hn : ∀ a, (f a).length = n) {xs : List α} {j : Nat} {a : α} (h : xs[j]? = some a) :
    Part ((xs.map f).foldr (· ++ ·) []) (n * j) (f a) := by
  induction xs generalizing j with
  | nil => cases h
  | cons x xs ih =>
    rw [List.map_cons, List.foldr_cons]
    cases j with
    | zero =>
      cases h
      exact .here ..
    | succ j => exact (ih h).skip _ (by rw [hn, Nat.mul_succ, Nat.add_comm])
theorem length_foldr {α : Type} {f : α → List Byte} {n : Nat} (hn : ∀ a, (f a).length = n) (xs : List α) :
    ((xs.map f).foldr (· ++ ·) []).length = n * xs.length := by
  induction xs with
  | nil => rfl
  | cons x xs ih => rw [List.map_cons, List.foldr_cons, List.length_append, ih, hn, List.length_cons, Nat.mul_succ, Nat.add_comm]
/-- A contribution that does not end the round is counted. -/
theorem addToCtx_counts {x : Nat} {accs : List Acc} (hcfg : (ctxOf s x).cfg = some k) (hmore : (ctxOf s x).count + 1 < xExpect k) :
    addToCtx x accs s = setCtx x { ctxOf s x with accs := accs, count := (ctxOf s x).count + 1 } s := by
  unfold addToCtx
  generalize ctxOf s x = X at hcfg hmore
  obtain ⟨cfg, as, n, r⟩ := X
  cases hcfg
  exact if_pos hmore
/-- A context as its next round begins. -/
def nextRound (k : Cmd) (x : Ctx) : Ctx := { x with accs := freshAccs k, count := 0, round := x.round + 1 }
/-- The last one writes the round where its context says, and the context begins again. -/
theorem addToCtx_writes {x : Nat} {accs : List Acc} (hcfg : (ctxOf s x).cfg = some k) (hlast : xExpect k ≤ (ctxOf s x).count + 1) (hfwd : xFwd k = false)
    (hcpl : cFlag k fCpl = false) (hlctr : cFlag k fLctren = false) (huse : MayUse s k.q (cLreg k) (cLoff k) (8 * xElems k) needWrite)
    (hlen : accs.length = xElems k) : let out := (regionOf s (cLreg k)).base + cLoff k
    Clear s out (8 * xElems k) → ∃ w, addToCtx x accs s = w ∧ w.office = (setCtx x (nextRound k (ctxOf s x)) s).office ∧
      (∀ j a, accs[j]? = some a → HoldsBytes w (out + 8 * j) 8 (accResult (xRop k) (xRm k) a).1) ∧ SameBytesBut out (8 * xElems k) s w := by
  intro out hclear
  generalize hv : setCtx x (nextRound k (ctxOf s x)) s = v
  have huse' : (localUse v k.q (cLreg k) (cLoff k) (8 * xElems k) needWrite).1 = [] := mayUse_nil (by rw [← hv]; exact huse)
  have hpa : (localUse v k.q (cLreg k) (cLoff k) (8 * xElems k) needWrite).2 = out := by
    rw [← hv]
    rfl
  have hvbytes : v.mem.bytes = s.mem.bytes := by rw [← hv]; rfl
  have hmap (f : Nat × Nat → List Byte) : ((accs.map (accResult (xRop k) (xRm k))).map f) = accs.map fun a => f (accResult (xRop k) (xRm k) a) := by
    rw [List.map_map]
    rfl
  have hone (a : Acc) : (bytesOfNat (accResult (xRop k) (xRm k) a).1 8).length = 8 := length_bytesOfNat ..
  have hbs := length_foldr hone accs
  rw [hlen] at hbs
  obtain ⟨hacc, hbytes⟩ := metered_write (s := v) (init := cmdInit k) (tc := cmdTc v k) (pa := out) (by rw [← hv]; exact hclear) hbs
  rw [hvbytes] at hbytes
  refine ⟨_, ?_, hacc.office, fun j a ha => Part.holds (part_foldr hone ha) hbytes, sameBytesBut_of_putBytes hbytes hbs⟩
  have hfinish : addToCtx x accs s = finishRound x k accs (ctxOf s x).round v := by
    rw [← hv]
    unfold addToCtx
    generalize ctxOf s x = X at hcfg hlast
    obtain ⟨cfg, as, n, r⟩ := X
    cases hcfg
    exact if_neg (Nat.not_lt.2 hlast)
  rw [hfinish]
  unfold finishRound
  rw [hfwd, if_neg Bool.false_ne_true]
  dsimp only
  rw [huse', hpa, hmap, if_neg (show ¬firstCode [] ≠ stOk by decide)]
  unfold roundDone
  simp [hcpl, hlctr]

section
variable (hmode : cMode c = 0) (hq : c.q = q.val)
include hmode hq

section
variable (h : NextCmd c 16 s) (hn : cX c < 4096) (hoff : cLoff c % 8 = 0)
omit hmode hq in
include hn in
theorem xCtx_small : xCtx c = cX c := by
  rw [xCtx, natBits]
  omega
include h hn hoff
/-- A contribution of this device reads its words and adds them to the context. -/
theorem contrib_here (here : cRdev c = devNum s) (hg : granted s c.q 2 (cX c) = true) (hcfg : (ctxOf s (cX c)).cfg = some k)
    (hup : sopDown s (cX c % 8) = false) (huse : MayUse s c.q (cLreg c) (cLoff c) (8 * xElems k) needRead) {E : State → Prop} :
    let src := (regionOf s (cLreg c)).base + cLoff c
    let accs := ((ctxOf s (cX c)).accs.zip (wordsAt src s (xElems k))).map fun e => contribute (xRop k) e.1 e.2
    Clear s src (8 * xElems k) →
    (∀ s1 u, Popped c.q s s1 → Accessed s1 u → u.mem.bytes = s.mem.bytes → SpKept s1 u → KeepsCmds u (addToCtx (cX c) accs u) ∧
      E (addRunning { cmd := c, regions := [cLreg c] } (addToCtx (cX c) accs u))) →
    Starts (.contrib q) c s { cmd := c, regions := [cLreg c] } E := by
  intro src accs hs hadd
  refine starts_runs h hmode (codes := contribCodes) (act := contribAct) (by rw [hq]; rfl) fun s1 hp => ?_
  have hlocal : isLocal c s1 = true := by rw [isLocal_popped hp, isLocal_here here]
  have hx := xCtx_small hn
  have hcfg1 : (ctxOf s1 (cX c)).cfg = some k := by rw [hp.ctxOf_eq, hcfg]
  have hel : elemsOf s1 (cX c) = xElems k := by rw [elemsOf, hcfg1]
  obtain ⟨hread, hsound, hacc, hbytes⟩ := metered_read (init := cmdInit c) (tc := cmdTc s1 c) (hs.popped hp)
  have hsp : SpKept s1 _ := spKept_read (init := cmdInit c) (tc := cmdTc s1 c) (hs.popped hp)
  generalize hu : (agentRead (cmdTc s1 c) src (8 * xElems k) (injectLines (cmdInit c) (cmdTc s1 c) src (8 * xElems k) s1)).2.2 = u at hacc hbytes hsp
  have hbytes' : u.mem.bytes = s.mem.bytes := hbytes.trans hp.bytes
  obtain ⟨hkeeps, hE⟩ := hadd s1 u hp hacc hbytes' hsp
  have hctxU : ctxOf u (cX c) = ctxOf s (cX c) := by rw [ctxOf, hacc.office]; exact hp.ctxOf_eq _
  have hact : contribAct c s1 = ({ cmd := c, regions := [cLreg c] }, addToCtx (cX c) accs u) := by
    unfold contribAct
    dsimp only
    rw [hlocal, if_pos rfl, hx, hel, hp.region, show (regionOf s (cLreg c)).base + cLoff c = src from rfl, hsound, if_neg Bool.false_ne_true, if_pos rfl,
      hcfg1, hu, Nat.mul_div_cancel_left _ (by decide), wordsAt_congr hbytes']
    dsimp only
    rw [addValues, hctxU]
  rw [hact]
  refine ⟨?_, rfl, ⟨hkeeps.1.trans (by rw [hacc.office]), hkeeps.2.trans (by rw [hacc.office])⟩, hE⟩
  unfold contribCodes
  dsimp only
  rw [hlocal, if_pos rfl, if_pos rfl, hx, hel, hp.granted_eq, hp.sopDown_eq, hg, hup, hcfg1, mayUse_codes huse hp, codeIf_not (by omega), hoff]
  rfl
theorem contrib_away (away : ¬cRdev c = devNum s) (huse : MayUse s c.q (cLreg c) (cLoff c) 8 needRead)
    (hs : Clear s ((regionOf s (cLreg c)).base + cLoff c) 64) : Sends s c (.contrib q) 0 [cLreg c] := by
  refine starts_sends h hmode (codes := contribCodes) (act := contribAct) (by rw [hq]; rfl) (by rw [h.fields.2]; rfl) fun s1 hp => ?_
  have hlocal : isLocal c s1 = false := by rw [isLocal_popped hp, isLocal_away away]
  generalize hlen : min 64 (((regionOf s (cLreg c)).pages * 4096 - cLoff c) / 8 * 8) = n
  have hs1 : Clear s1 ((regionOf s (cLreg c)).base + cLoff c) n := (hs.popped hp).mono (Nat.le_refl _) (by omega)
  obtain ⟨hread, hsound, hacc, hbytes⟩ := metered_read (init := cmdInit c) (tc := cmdTc s1 c) hs1
  refine ⟨?_, _, readBytes s1 ((regionOf s (cLreg c)).base + cLoff c) n, hacc, hbytes, ?_⟩
  · unfold contribCodes
    dsimp only
    rw [hlocal, if_neg Bool.false_ne_true, if_neg Bool.false_ne_true, mayUse_codes huse hp, codeIf_not (by omega), hoff]
    rfl
  · unfold contribAct
    dsimp only
    rw [hlocal, if_neg Bool.false_ne_true, hp.region, hlen, hsound, if_neg Bool.false_ne_true, if_neg Bool.false_ne_true, hread]
end

/-! ### The configuration of a context -/

section
variable (h : NextCmd c 17 s) (hz : natBits (cX c) 15 12 = 0 ∧ (cX c).testBit 23 = false ∧ natBits (cX c) 31 28 = 0) (hoff : cRoff c < 4096)
  (hg : granted s c.q 2 (xCtx c) = true) (hup : sopDown s (xCtx c % 8) = false)
include h hz hoff hg hup
omit hmode hq h in
theorem ctxsetCodes_eq (hp : Popped c.q s s1) : ctxsetCodes c s1 = codeIf ((ctxOf s (xCtx c)).count != 0) stBusy ++ (if xRop c = 0 then []
    else codeIf (decide (11 < xRop c ∨ xElems c < 1 ∨ 8 < xElems c ∨ xExpect c = 0)) stRange ++
      (if xFwd c then [] else (localUse s1 c.q (cLreg c) (cLoff c) (8 * xElems c) needWrite).1)) := by
  rw [ctxsetCodes, hp.granted_eq, hp.sopDown_eq, hp.ctxOf_eq, hg, hup, hz.1, hz.2.1, hz.2.2, decide_eq_false (Nat.not_le.2 hoff)]
  rfl
theorem ctxset_busy (hcount : (ctxOf s (xCtx c)).count ≠ 0) (hrop : xRop c = 0) : Starts (.ctxset q) c s { cmd := c, status := 7 } fun t =>
    OnlyCtx (xCtx c) (ctxOf s (xCtx c)) s t ∧ SameBytes s t := by
  refine starts_fails h hmode (codes := ctxsetCodes) (act := ctxsetAct) (by rw [hq]; rfl) (by decide) fun s1 hp => ⟨?_, ?_⟩
  · rw [ctxsetCodes_eq hz hoff hg hup hp, if_pos hrop, bne_iff_ne.2 hcount]
    rfl
  · obtain ⟨_, _, rfl, -⟩ := hp
    exact ⟨⟨rfl, fun _ _ => rfl⟩, fun _ => rfl⟩
theorem ctxset_clears (hcount : (ctxOf s (xCtx c)).count = 0) (hrop : xRop c = 0) : Starts (.ctxset q) c s { cmd := c, quiet := true } fun t =>
    OnlyCtx (xCtx c) {} s t ∧ SameBytes s t := by
  refine starts_runs h hmode (codes := ctxsetCodes) (act := ctxsetAct) (by rw [hq]; rfl) fun s1 hp => ⟨?_, ?_⟩
  · rw [ctxsetCodes_eq hz hoff hg hup hp, if_pos hrop, hcount]
    rfl
  · obtain ⟨_, _, rfl, -⟩ := hp
    rw [ctxsetAct, if_pos hrop]
    exact ⟨rfl, ⟨rfl, rfl⟩, onlyCtx_set _ _ s, fun _ => rfl⟩
theorem ctxset_configures (hcount : (ctxOf s (xCtx c)).count = 0) (hrop : 1 ≤ xRop c) (hrop' : xRop c < 12) (helems : 1 ≤ xElems c) (helems' : xElems c ≤ 8)
    (hexpect : xExpect c ≠ 0) (huse : xFwd c = true ∨ MayUse s c.q (cLreg c) (cLoff c) (8 * xElems c) needWrite) :
    Starts (.ctxset q) c s { cmd := c, quiet := true } fun t =>
      OnlyCtx (xCtx c) { cfg := some c, accs := List.replicate (xElems c) (accStart (xRop c)) } s t ∧ SameBytes s t := by
  refine starts_runs h hmode (codes := ctxsetCodes) (act := ctxsetAct) (by rw [hq]; rfl) fun s1 hp => ⟨?_, ?_⟩
  · rw [ctxsetCodes_eq hz hoff hg hup hp, if_neg (by omega), hcount, codeIf_not (by omega)]
    rcases huse with hf | hu
    · rw [hf]
      rfl
    · rw [mayUse_codes hu hp]
      split <;> rfl
  · obtain ⟨_, _, rfl, -⟩ := hp
    rw [ctxsetAct, if_neg (by omega)]
    exact ⟨rfl, ⟨rfl, rfl⟩, onlyCtx_set _ _ s, fun _ => rfl⟩
end
end

end Sys2Proof.Machine
end

section
/-! Slots armed, commands completed and forwards merged (14 R360 to R363, R369). -/

namespace Sys2Proof.Machine
variable {s s1 t u : State} {q : Fin 65536} {c k : Cmd}

/-! ### Arming -/

theorem exec_slotArm (hq : c.q = q.val) (h : armHead c.q s = t) : exec (.slotArm q) s = .next t := by
  rw [← h, hq]
  rfl

/-- The slot that the letter of an arming command makes. -/
def armedSlot (s : State) (c : Cmd) : Slot :=
  { cmd := { c with data := putFld c.data 191 64 0 }, ctr := cActr c, thresh := BitVec.ofNat 64 (cThresh c), order := s.office.armSeq }
theorem thresh_armedSlot (s : State) (c : Cmd) : (armedSlot s c).thresh.toNat = cThresh c := by
  have hlt : cThresh c < 2 ^ 64 := by
    rw [cThresh, cb, natBits]
    exact Nat.mod_lt _ (by decide)
  show (BitVec.ofNat 64 (cThresh c)).toNat = _
  rw [BitVec.toNat_ofNat, Nat.mod_eq_of_lt hlt]
section
variable {l : Letter} {r : List Letter} (hkind : qKind (queueOf s c.q) = 2) (hactive : (queueOf s c.q).state = .active) (hup : sopDown s (c.q % 8) = false)
  (hfront : (queueOf s c.q).burst = l :: r) (hc : c = { q := c.q, data := l.data, cpm := l.postmark }) (hmode : cMode c = 1)
include hkind hactive hup hfront hc hmode
/-- The letter leaves its queue; the slot is filled unless a check fails. -/
theorem armHead_eq : ∃ s1, Popped c.q s s1 ∧ armHead c.q s = if firstCode (armCodes c s1) ≠ 0 then addRunning { cmd := c, status := firstCode (armCodes c s1) } s1
    else
      let s2 := putSlot (cAslot c % 2 ^ 18) (some (armedSlot s1 c)) s1
      fireCtr (cActr c) { s2 with office := { s2.office with armSeq := s2.office.armSeq + 1 } } := by
  refine ⟨popCmd c.q s, popCmd_active hfront hactive, ?_⟩
  have hf : frontCmd s c.q = some c := by rw [frontCmd_burst hkind hactive hup hfront, ← hc]
  unfold armHead
  rw [hf]
  dsimp only
  rw [if_neg (show ¬cMode c ≠ 1 from fun h => h hmode)]
  rfl
section
variable (hzero : cb c 9 9 = 0) (hslot : cAslot c < 2 ^ 18) (hgs : granted s c.q 0 (cAslot c) = true) (hgc : granted s c.q 1 (cActr c) = true)
  (hpipe : cAslot c % 8 = cActr c % 8) (hdown : sopDown s (cAslot c % 8) = false)
include hzero hslot hgs hgc hpipe hdown
omit hkind hactive hup hfront hc hmode in
theorem armCodes_eq (hp : Popped c.q s s1) : armCodes c s1 = codeIf (slotAt s (cAslot c)).isSome stBusy := by
  have hsame : slotAt s1 (cAslot c) = slotAt s (cAslot c) := by
    obtain ⟨_, _, rfl, -⟩ := hp
    rfl
  unfold armCodes
  dsimp only
  rw [Nat.mod_eq_of_lt hslot, hp.granted_eq, hp.granted_eq, hp.sopDown_eq, hgs, hgc, hdown, hzero, hpipe, hsame, decide_eq_false (Nat.not_le.2 hslot)]
  simp [codeIf]
theorem arm_busy (hq : c.q = q.val) (hused : slotAt s (cAslot c) ≠ none) : Starts (.slotArm q) c s { cmd := c, status := 7 } fun t =>
    t.office.slots = s.office.slots := by
  obtain ⟨s1, hp, harm⟩ := armHead_eq hkind hactive hup hfront hc hmode
  have hcode : firstCode (armCodes c s1) = 7 := by
    rw [armCodes_eq hzero hslot hgs hgc hpipe hdown hp, Option.isSome_iff_ne_none.2 hused]
    rfl
  rw [hcode, if_pos (by decide)] at harm
  refine ⟨_, exec_slotArm hq harm, hp.burst, ?_, ?_⟩
  · obtain ⟨_, _, rfl, -⟩ := hp
    rfl
  · obtain ⟨_, _, rfl, -⟩ := hp
    rfl
section
variable (hfree : slotAt s (cAslot c) = none)
include hfree
theorem arm_fills : ∃ s1, Popped c.q s s1 ∧ armHead c.q s = fireCtr (cActr c) { putSlot (cAslot c) (some (armedSlot s c)) s1 with
    office := { (putSlot (cAslot c) (some (armedSlot s c)) s1).office with armSeq := s1.office.armSeq + 1 } } := by
  obtain ⟨s1, hp, harm⟩ := armHead_eq hkind hactive hup hfront hc hmode
  have hcode : firstCode (armCodes c s1) = 0 := by
    rw [armCodes_eq hzero hslot hgs hgc hpipe hdown hp, hfree]
    rfl
  have hsame : armedSlot s1 c = armedSlot s c := by
    obtain ⟨_, _, rfl, -⟩ := hp
    rfl
  rw [hcode, if_neg (by decide), Nat.mod_eq_of_lt hslot, hsame] at harm
  exact ⟨s1, hp, harm⟩
theorem arm_waits (hq : c.q = q.val) (hless : (ctrOf s (cActr c)).toNat < cThresh c) (hquiet : NoSlot s (cActr c)) :
    Completes (.slotArm q) s fun t => (queueOf t c.q).burst = r ∧ slotAt t (cAslot c) = some (armedSlot s c) ∧
      (∀ j, j ≠ cAslot c → slotAt t j = slotAt s j) ∧ t.office.ready = s.office.ready ∧ t.office.cmds = s.office.cmds ∧ SameBytes s t := by
  obtain ⟨s1, hp, harm⟩ := arm_fills hkind hactive hup hfront hc hmode hzero hslot hgs hgc hpipe hdown hfree
  have hburst := hp.burst
  rw [hfront] at hburst
  obtain ⟨qs, b, rfl, hqs⟩ := hp
  rw [fireCtr_none (dueSlots_nil fun e he y hy hk => ?_)] at harm
  · exact ⟨_, exec_slotArm hq harm, hburst, (slotAt_putSlot _ _ _ s).trans (if_pos rfl),
      fun j hj => (slotAt_putSlot _ _ _ s).trans (if_neg hj), rfl, rfl, fun _ => rfl⟩
  · have he' : e ∈ smInsert s.office.slots (cAslot c) (some (armedSlot s c)) := by
      rw [← show smPut slotDef s.office.slots (cAslot c) (some (armedSlot s c)) = _ from (smPut_eq ..).trans (if_neg (by simp [slotDef]))]
      exact he
    rcases mem_smInsert he' with rfl | hold
    · cases hy
      rw [thresh_armedSlot]
      exact hless
    · exact absurd hk (hquiet e hold y hy)
end
theorem arm_fires (hq : c.q = q.val) (hnone : s.office.slots = []) (hdue : cThresh c ≤ (ctrOf s (cActr c)).toNat) :
    Completes (.slotArm q) s fun t => (queueOf t c.q).burst = r ∧ t.office.slots = [] ∧
      t.office.ready = s.office.ready ++ [{ (armedSlot s c).cmd with slot := some (cAslot c), cpm := s.time.now }] := by
  obtain ⟨s1, hp, harm⟩ := arm_fills hkind hactive hup hfront hc hmode hzero hslot hgs hgc hpipe hdown (by rw [slotAt, hnone]; rfl)
  have hburst := hp.burst
  rw [hfront] at hburst
  obtain ⟨qs, b, rfl, hqs⟩ := hp
  have hslots : smPut slotDef s.office.slots (cAslot c) (some (armedSlot s c)) = [(cAslot c, some (armedSlot s c))] := by
    rw [hnone]
    rfl
  rw [fireCtr_one (k := cActr c) (y := armedSlot s c) (by exact hslots) rfl (by rw [thresh_armedSlot]; exact hdue)] at harm
  exact ⟨_, exec_slotArm hq harm, hburst, rfl, rfl⟩
end
end

/-! ### Completion -/

theorem completeCmd_eq {r : Running} (hr : r.cmd = c) (hrctr : cFlag c fRctren = false) (hlctr : cFlag c fLctren = false) :
    completeCmd r s = if r.status ≠ stOk ∨ r.poison ∨ r.always ∨ (cFlag c fCpl && !r.quiet) then
      postCompletion c r.status (c.slot.isSome.toNat + 2 * r.poison.toNat) 0 (c.slot.getD 0) r.value.toNat c.cpm.toNat
        { s with office := { s.office with cmds := s.office.cmds.erase r } }
    else { s with office := { s.office with cmds := s.office.cmds.erase r } } := by
  subst hr
  have hdone : rctrDone r { s with office := { s.office with cmds := s.office.cmds.erase r } } = { s with office := { s.office with cmds := s.office.cmds.erase r } } := by
    unfold rctrDone
    rw [if_neg]
    rintro ⟨-, -, hf, -⟩
    rw [hrctr] at hf
    cases hf
  unfold completeCmd
  dsimp only
  rw [hdone, if_neg (show ¬(r.status = stOk ∧ (!r.quiet) = true ∧ cFlag r.cmd fLctren = true) from fun h => by rw [hlctr] at h; cases h.2.2)]
theorem devNum_lt (s : State) : devNum s < 65536 := by
  rw [devNum, rfld]
  exact fld_lt ..
/-- The completion letter goes to CPLQ of the command, which takes it. -/
theorem postCompletion_posted (hq : c.q = q.val) (st flags fpx number value cpm : Nat) (htakes : TakesLetters s (cCplq c))
    (hnone : sendersOf s (65536 + q.val) = []) :
    Posted (65536 + q.val) (cCplq c) (completionLetter s c st flags fpx number value cpm) s (postCompletion c st flags fpx number value cpm s) := by
  have hdev := devNum_lt s
  have hcq : cCplq c < 65536 := by
    rw [cCplq, cb, natBits]
    exact Nat.mod_lt _ (by decide)
  rw [postCompletion, postFrom, hq]
  refine posted_serveSender htakes hnone ?_ ?_ rfl
  · rw [fld, natBits, BitVec.toNat_ofNat]
    omega
  · rw [fld, natBits, BitVec.toNat_ofNat]
    omega

/-! ### Forwards -/

theorem mergeForward_counts {f : Forward} (hsrc : f.srcDev = devNum s ∨ srcMatches f.srcDev (cRreg c) (cRctr c) = true)
    (hcfg : (ctxOf s f.dst).cfg = some c) (hrop : xRop c = f.rop) (helems : xElems c = f.elems) (hmore : (ctxOf s f.dst).count + 1 < xExpect c) :
    mergeForward f s = (0, setCtx f.dst { ctxOf s f.dst with
      accs := ((ctxOf s f.dst).accs.zip f.accs).map fun e => mergeAcc f.rop e.1 e.2, count := (ctxOf s f.dst).count + 1 } s) := by
  have hcode : firstCode (codeIf (f.srcDev != devNum s && !srcMatches f.srcDev (cRreg c) (cRctr c)) stPriv ++
      codeIf (xRop c != f.rop || xElems c != f.elems) stRange) = 0 := by
    rcases hsrc with h | h <;> rw [h, hrop, helems] <;> simp [codeIf, firstCode_nil]
  unfold mergeForward
  rw [hcfg]
  dsimp only
  rw [hcode, if_neg (by decide), addToCtx_counts hcfg hmore]
  rfl
theorem roundDone_quiet {x round : Nat} (hlctr : cFlag k fLctren = false) (hcpl : cFlag k fCpl = false) : roundDone x k round 0 0 s = s := by
  unfold roundDone
  simp [hlctr, hcpl, stOk]

end Sys2Proof.Machine
end

section
/-! O43. -/

namespace Sys2Proof.Machine
variable {s t u : State} {q : Fin 65536} {c k : Cmd}

theorem keepsCmds_setCtx (x : Nat) (v : Ctx) (s : State) : KeepsCmds s (setCtx x v s) := ⟨rfl, rfl⟩
/-- A contribution that does not end its round. -/
theorem contrib_counts (hmode : cMode c = 0) (hq : c.q = q.val) (h : NextCmd c 16 s) (hn : cX c < 4096) (hoff : cLoff c % 8 = 0)
    (here : cRdev c = devNum s) (hg : granted s c.q 2 (cX c) = true) (hcfg : (ctxOf s (cX c)).cfg = some k)
    (hup : sopDown s (cX c % 8) = false) (huse : MayUse s c.q (cLreg c) (cLoff c) (8 * xElems k) needRead)
    (hs : Clear s ((regionOf s (cLreg c)).base + cLoff c) (8 * xElems k)) (hmore : (ctxOf s (cX c)).count + 1 < xExpect k) :
    Starts (.contrib q) c s { cmd := c, regions := [cLreg c] } fun t =>
      ctxOf t (cX c) = { ctxOf s (cX c) with
        accs := ((ctxOf s (cX c)).accs.zip (wordsAt ((regionOf s (cLreg c)).base + cLoff c) s (xElems k))).map fun e => contribute (xRop k) e.1 e.2,
        count := (ctxOf s (cX c)).count + 1 } ∧ (∀ j, j ≠ cX c → ctxOf t j = ctxOf s j) ∧ SameBytes s t := by
  refine contrib_here hmode hq h hn hoff here hg hcfg hup huse hs fun s1 u hp hacc hbytes hsp => ?_
  have hctxs : u.office.ctxs = s.office.ctxs := by rw [hacc.office, hp.ctxs]
  have hctx : ctxOf u (cX c) = ctxOf s (cX c) := by rw [ctxOf, hctxs]; rfl
  rw [addToCtx_counts (by rw [hctx, hcfg]) (by rw [hctx]; exact hmore), hctx]
  obtain ⟨hset, hother⟩ := OnlyCtx.of_ctxs (onlyCtx_set (cX c) { ctxOf s (cX c) with
    accs := ((ctxOf s (cX c)).accs.zip (wordsAt ((regionOf s (cLreg c)).base + cLoff c) s (xElems k))).map fun e => contribute (xRop k) e.1 e.2,
    count := (ctxOf s (cX c)).count + 1 } u) hctxs.symm rfl
  exact ⟨keepsCmds_setCtx .., hset, hother, fun n => congrArg (fun m => smGet _ m n) hbytes⟩
/-- The last one writes the round. -/
theorem contrib_writes (hmode : cMode c = 0) (hq : c.q = q.val) (h : NextCmd c 16 s) (hn : cX c < 4096) (hoff : cLoff c % 8 = 0)
    (here : cRdev c = devNum s) (hg : granted s c.q 2 (cX c) = true) (hcfg : (ctxOf s (cX c)).cfg = some k)
    (hup : sopDown s (cX c % 8) = false) (huse : MayUse s c.q (cLreg c) (cLoff c) (8 * xElems k) needRead)
    (hs : Clear s ((regionOf s (cLreg c)).base + cLoff c) (8 * xElems k)) (hlast : xExpect k ≤ (ctxOf s (cX c)).count + 1) (hfwd : xFwd k = false)
    (hcpl : cFlag k fCpl = false) (hlctr : cFlag k fLctren = false) (hout : MayUse s k.q (cLreg k) (cLoff k) (8 * xElems k) needWrite) :
    let accs := ((ctxOf s (cX c)).accs.zip (wordsAt ((regionOf s (cLreg c)).base + cLoff c) s (xElems k))).map fun e => contribute (xRop k) e.1 e.2
    let out := (regionOf s (cLreg k)).base + cLoff k
    accs.length = xElems k → Clear s out (8 * xElems k) → Starts (.contrib q) c s { cmd := c, regions := [cLreg c] } fun t =>
      ctxOf t (cX c) = { cfg := some k, accs := List.replicate (xElems k) (accStart (xRop k)), round := (ctxOf s (cX c)).round + 1 } ∧
      (∀ j a, accs[j]? = some a → HoldsBytes t (out + 8 * j) 8 (accResult (xRop k) (xRm k) a).1) ∧ SameBytesBut out (8 * xElems k) s t := by
  intro accs out hlen hclear
  refine contrib_here hmode hq h hn hoff here hg hcfg hup huse hs fun s1 u hp hacc hbytes hsp => ?_
  have hctxs : u.office.ctxs = s.office.ctxs := by rw [hacc.office, hp.ctxs]
  have hctx : ctxOf u (cX c) = ctxOf s (cX c) := by rw [ctxOf, hctxs]; rfl
  have hregion : regionOf u (cLreg k) = regionOf s (cLreg k) := by
    rw [regionOf, hacc.office]
    exact hp.region _
  have huseU : MayUse u k.q (cLreg k) (cLoff k) (8 * xElems k) needWrite := (hout.popped hp).accessed hacc (hbytes.trans hp.bytes.symm) hsp
  obtain ⟨w, hadd, hoffice, hholds, hsame⟩ := addToCtx_writes (s := u) (x := cX c) (accs := accs) (by rw [hctx, hcfg]) (by rw [hctx]; exact hlast)
    hfwd hcpl hlctr huseU hlen (by rw [hregion]; exact hacc.clear (hclear.popped hp))
  rw [hctx] at hoffice
  rw [hregion] at hholds hsame
  have hread (n : Nat) : readByte s n = readByte u n := by rw [readByte, readByte, hbytes]
  rw [show addToCtx (cX c) accs u = w from hadd]
  refine ⟨⟨by rw [hoffice]; rfl, by rw [hoffice]; rfl⟩, ?_, hholds, fun n hn => (hsame n hn).trans (hread n).symm⟩
  show smGet ctxDef w.office.ctxs (cX c) = _
  rw [hoffice]
  refine (smGet_smPut_same ..).trans ?_
  rw [nextRound, hcfg]
  rfl

theorem Starts.mono {i : Instr} {r : Running} {E F : State → Prop} (h : Starts i c s r E) (hE : ∀ t, E t → F t) : Starts i c s r F := by
  obtain ⟨t, hexec, hburst, hcmds, ht⟩ := h
  exact ⟨t, hexec, hburst, hcmds, hE t ht⟩
/-- An atomic command of each width. -/
theorem amo_wide (hlt : cLreg c < 512) : ((cLreg c).testBit 8 = true ↔ 256 ≤ cLreg c) := by
  rw [Nat.testBit_eq_decide_div_mod_eq, decide_eq_true_iff]
  omega

/-- The letter of a completion stands behind the others in CPLQ's queue. -/
theorem completes_posted {i : Instr} {r : Running} {left : List Running} (hexec : exec i s = .next (completeCmd r u)) (hr : r.cmd = c) (hq : c.q = q.val)
    (hu : { u with office := { u.office with cmds := u.office.cmds.erase r } } = { s with office := { s.office with cmds := left } })
    (hrctr : cFlag c fRctren = false) (hlctr : cFlag c fLctren = false) (hletter : r.status ≠ 0 ∨ (cFlag c fCpl = true ∧ r.quiet = false))
    (htakes : TakesLetters s (cCplq c)) (hnone : sendersOf s (65536 + q.val) = []) :
    let l := completionLetter s c r.status (c.slot.isSome.toNat + 2 * r.poison.toNat) 0 (c.slot.getD 0) r.value.toNat c.cpm.toNat
    Completes i s fun t => t.office.cmds = left ∧
      (queueOf t (cCplq c)).burst = (queueOf s (cCplq c)).burst ++ [{ l with data := stamp s (cCplq c) l.data }] ∧
      (∀ p, p ≠ cCplq c → queueOf t p = queueOf s p) ∧ SameBytes s t := by
  intro l
  have hposts : r.status ≠ stOk ∨ r.poison = true ∨ r.always = true ∨ (cFlag c fCpl && !r.quiet) = true := by
    rcases hletter with h | ⟨h1, h2⟩
    · exact .inl h
    · exact .inr (.inr (.inr (by rw [h1, h2]; rfl)))
  rw [completeCmd_eq hr hrctr hlctr, if_pos hposts, hu] at hexec
  have hpost := postCompletion_posted (s := { s with office := { s.office with cmds := left } }) hq r.status
    (c.slot.isSome.toNat + 2 * r.poison.toNat) 0 (c.slot.getD 0) r.value.toNat c.cpm.toNat
    ⟨htakes.running, htakes.awake, htakes.inService, htakes.active, htakes.kind, htakes.unspilled, htakes.room, htakes.uncounted, htakes.silent⟩ hnone
  refine ⟨_, hexec, ?_, hpost.queue, hpost.others, ?_⟩
  · obtain ⟨_, _, _, _, _, ht⟩ := hpost.frame
    rw [ht]
  · obtain ⟨_, _, _, _, _, ht⟩ := hpost.frame
    rw [ht]
    exact fun _ => rfl

/-- Settles O43: each command leaves its queue with its checks passed, and its act is the read, write or move of its operation; a completion posts its
letter, and a forward adds to the context it names. -/
theorem commandLettersActAndComplete : Obligations.CommandLettersActAndComplete := by
  refine ⟨fun s q c hq => ?_, fun f s => ⟨fun hdev hno => ?_, fun c hdev hcfg hsrc hrop helems hmore => ?_,
    fun c k hdev hmem hto hcfg hrop helems hmore hk hlctr hcpl => ?_⟩⟩
  · intro here dst src n copied apart both sends
    refine ⟨fun hm h => nop_starts hm h hq,
      fun hm h hh hn hr hl hw => put_here hm hq h hh hn hr hl hw,
      fun hm h hh hn hl hs => put_away hm hq h hh hn hl hs,
      fun hm h hlt hpos hr => ⟨fun hh hw hd => puti_here hm hq h hlt hpos hh hr hw hd, fun hh => puti_away hm hq h hlt hpos hh⟩,
      fun hm h hn hr hl => ⟨fun hh hw hapart hs hd => get_here hm hq h hh hn hr hl hw hapart.symm hs hd, fun hh => get_away hm hq h hh hn hl⟩,
      fun hm h hop hlt hal hr => ⟨fun hh hw hmod hd => ?_, fun hh => amo_away hm hq h hop hlt hal hh⟩,
      fun hm h => ⟨fun hh hn hl hw => copy_here hm hq h hh hn hl hw, fun hh hx => copy_away hm hq h hh hx⟩,
      ?_, fun hm h hn hg hup => trigcancel_starts hm hq h hn hg hup, ?_,
      fun hm h hh hn hoff huse hs => contrib_away hm hq h hn hoff hh huse hs, ?_, ?_, ?_⟩
    · intro op old lo
      have hstart := amo_here hm hq h hop hlt hal hr hh hw hd
      refine ⟨fun hge => ?_, fun hless => ?_⟩
      · have hbit := (amo_wide hlt).2 hge
        have hsize : amoSize c = 8 := by rw [amoSize, if_pos hbit]
        rw [hbit] at hstart
        refine hstart.mono fun t ht => ?_
        have ht' : t.mem.bytes = putBytes (bytesOf (amoOp op old (BitVec.ofNat 64 (cLoff c)) (BitVec.ofNat 64 n)) 8) dst s.mem.bytes := ht
        exact ⟨holdsBytes_of_putBytes ht', sameBytesBut_of_putBytes ht' (length_bytesOf ..)⟩
      · have hbit : (cLreg c).testBit 8 = false := Bool.eq_false_iff.2 fun hb => absurd ((amo_wide hlt).1 hb) (by omega)
        rw [hbit] at hstart
        refine hstart.mono fun t ht => ?_
        have hnarrow (x : Nat) : (BitVec.ofNat 64 x).setWidth 32 = BitVec.ofNat 32 x := by
          apply BitVec.eq_of_toNat_eq
          simp only [BitVec.toNat_setWidth, BitVec.toNat_ofNat]
          omega
        have ht' : t.mem.bytes = putBytes (bytesOf (amoOp op lo (BitVec.ofNat 32 (cLoff c)) (BitVec.ofNat 32 n)) 4) dst s.mem.bytes := by
          rw [← hnarrow, ← hnarrow]
          exact ht
        exact ⟨holdsBytes_of_putBytes ht', sameBytesBut_of_putBytes ht' (length_bytesOf ..)⟩
    · refine ⟨fun hm h hh hall => ⟨fun hquiet => ctradd_here hm hq hall.1 hall.2 h hh hquiet, fun j y hslots hy hdue => ?_⟩,
        fun hm h hh hg => ctradd_ungranted hm hq h hh hg, fun hm h hh => ctradd_away hm hq h hh,
        fun hm h hh hall hquiet => ctrset_here hm hq hall.1 hall.2 h hh hquiet, fun hm h hh hall => ctrread_here hm hq hall.1 hall.2 h hh⟩
      exact ctradd_fires hm hq hall.1 hall.2 h hh hslots hy hdue
    · intro k hm h hh hn hoff hg hcfg hup huse hs
      exact ⟨fun hmore => contrib_counts hm hq h hn hoff hh hg hcfg hup huse hs hmore,
        fun hlast hfwd hcpl hlctr hout hlen hclear => contrib_writes hm hq h hn hoff hh hg hcfg hup huse hs hlast hfwd hcpl hlctr hout hlen hclear⟩
    · intro hm h hz1 hz2 hz3 hoff hg hup
      have honly {v : Ctx} (t : State) (ht : OnlyCtx (xCtx c) v s t ∧ SameBytes s t) :
          ctxOf t (xCtx c) = v ∧ (∀ j, j ≠ xCtx c → ctxOf t j = ctxOf s j) ∧ SameBytes s t := ⟨ht.1.1, ht.1.2, ht.2⟩
      exact ⟨fun hcount hrop => (ctxset_busy hm hq h ⟨hz1, hz2, hz3⟩ hoff hg hup hcount hrop).mono honly,
        fun hcount hrop => (ctxset_clears hm hq h ⟨hz1, hz2, hz3⟩ hoff hg hup hcount hrop).mono honly,
        fun hcount h1 h2 h3 h4 h5 huse => (ctxset_configures hm hq h ⟨hz1, hz2, hz3⟩ hoff hg hup hcount h1 h2 h3 h4 h5 huse).mono honly⟩
    · intro l r hkind hactive hup hfront hc hm hzero hslot hgs hgc hpipe hdown
      exact ⟨fun hused => arm_busy hkind hactive hup hfront hc hm hzero hslot hgs hgc hpipe hdown hq hused,
        fun hfree hless hquiet => arm_waits hkind hactive hup hfront hc hm hzero hslot hgs hgc hpipe hdown hfree hq hless hquiet,
        fun hnone hdue => arm_fires hkind hactive hup hfront hc hm hzero hslot hgs hgc hpipe hdown hq hnone hdue⟩
    · intro k late r hk hr hrctr hlctr st left cq y l
      have hnth : exec (.commandComplete q k late) s = .next (match r.tid with
          | none => completeCmd r s
          | some _ => if late then completeCmd { r with status := stTimeout, tid := none }
              { s with office := { s.office with cmds := s.office.cmds.replace r { r with status := stTimeout, tid := none } } } else s) := by
        show (.next (completeNth q.val k late s) : Out) = _
        rw [completeNth, hk] <;> rfl
      refine ⟨fun htid hlate => ?_, fun htid hst hpoison halways hcpl => ?_, fun hdone hletter hnone hrun hdrain hup hactive hkind hspill hroom hbit hbell => ?_⟩
      · obtain ⟨x, hx⟩ := Option.isSome_iff_exists.1 htid
        rw [hnth, hx, hlate]
        rfl
      · have hstatus : r.status = 0 := by
          rw [← hst]
          simp only [st, htid, Option.isSome_none, Bool.false_eq_true, if_false]
        have hleft : left = s.office.cmds.erase r := by
          simp only [left, htid, Option.isSome_none, Bool.false_eq_true, if_false]
        have hquiet : (cFlag c fCpl && !r.quiet) = false := by
          rcases hcpl with h | h <;> simp [h]
        rw [htid] at hnth
        refine ⟨_, hnth, ?_⟩
        show completeCmd r s = _
        rw [completeCmd_eq hr hrctr hlctr, hleft, if_neg]
        simp [hstatus, hpoison, halways, hquiet, stOk]
      · have htakes : TakesLetters s cq := ⟨hrun, hdrain, hup, hactive, hkind, hspill, hroom, hbit, hbell⟩
        cases htid : r.tid with
        | none =>
          have hst : st = r.status := by simp only [st, htid, Option.isSome_none, Bool.false_eq_true, if_false]
          have hleft : left = s.office.cmds.erase r := by simp only [left, htid, Option.isSome_none, Bool.false_eq_true, if_false]
          rw [htid] at hnth
          have hposted := completes_posted hnth hr hq (left := left) (by rw [hleft]) hrctr hlctr (by rw [← hst]; exact hletter) htakes hnone
          rw [← hst] at hposted
          exact hposted
        | some x =>
          have hlate : late = true := hdone.resolve_left (by rw [htid]; exact Option.some_ne_none x)
          have hst : st = 9 := by simp only [st, htid, Option.isSome_some, if_true]
          have hleft : left = (s.office.cmds.replace r { r with status := 9, tid := none }).erase { r with status := 9, tid := none } := by
            simp only [left, htid, Option.isSome_some, if_true]
          rw [htid, hlate] at hnth
          have hposted := completes_posted (c := c) (r := { r with status := stTimeout, tid := none }) hnth hr hq (left := left) (by rw [hleft]; rfl)
            hrctr hlctr (.inl (show (9 : Nat) ≠ 0 by decide)) htakes hnone
          have hl : l = completionLetter s c 9 (c.slot.isSome.toNat + 2 * r.poison.toNat) 0 (c.slot.getD 0) r.value.toNat c.cpm.toNat := by
            rw [← hst]
          rw [hlate, hl]
          exact hposted
  · have hcontains : s.office.forwards.contains f = false := by simpa using hno
    show (.next (forwardArrives f s) : Out) = _
    rw [forwardArrives, if_pos hdev, hcontains]
    rfl
  · have hmerge := mergeForward_counts (f := f) (.inr hsrc) hcfg hrop helems hmore
    refine ⟨_, rfl, ?_⟩
    rw [forwardArrives, if_neg hdev]
    dsimp only
    rw [hmerge]
    generalize hv : setCtx f.dst _ s = v
    have hstore := sameStore_sendMsg (respMsg f.srcDev f.tid f.tc 0 0 0) v
    have hctx (j : Nat) : ctxOf (sendMsg (respMsg f.srcDev f.tid f.tc 0 0 0) v).2 j = ctxOf v j := by rw [ctxOf, hstore.1]; rfl
    refine ⟨fun n => ?_, fun j hj => ?_, ?_⟩
    · rw [readByte, hstore.2, ← hv]
      rfl
    · rw [hctx, ← hv]
      exact (ctxOf_setCtx ..).trans (if_neg hj)
    · rw [hctx, ← hv]
      exact (ctxOf_setCtx ..).trans (if_pos rfl)
  · generalize ha : ({ s with office := { s.office with forwards := s.office.forwards.erase f } } : State) = a
    have hctxA (j : Nat) : ctxOf a j = ctxOf s j := by rw [← ha]; rfl
    have hmerge := mergeForward_counts (s := a) (c := c) (f := f) (.inl (by rw [← ha]; exact hdev)) (by rw [hctxA, hcfg]) hrop helems (by rw [hctxA]; exact hmore)
    have hready : (s.office.forwards.contains f && f.dev == devNum s) = true := by
      rw [hto]
      simpa using hmem
    have harrive : forwardArrives f s = setCtx f.dst { ctxOf s f.dst with
        accs := ((ctxOf s f.dst).accs.zip f.accs).map fun e => mergeAcc f.rop e.1 e.2, count := (ctxOf s f.dst).count + 1 } a := by
      rw [forwardArrives, if_pos hdev, hready, if_pos rfl, ha]
      dsimp only
      rw [hmerge, hctxA]
      generalize hv : setCtx f.dst _ a = v
      have hcfgV : ∃ k', (ctxOf v f.src).cfg = some k' ∧ cFlag k' fLctren = false ∧ cFlag k' fCpl = false := by
        refine ⟨k, ?_, hlctr, hcpl⟩
        rw [← hv, ctxOf_setCtx]
        split
        next hsame =>
          rw [hsame] at hk
          exact hk
        next => rw [hctxA, hk]
      obtain ⟨k', hk', hl', hc'⟩ := hcfgV
      rw [forwardDone, hk']
      exact roundDone_quiet hl' hc'
    refine ⟨_, rfl, ?_⟩
    rw [harrive, ← ha]
    exact ⟨rfl, fun _ => rfl, fun j hj => (ctxOf_setCtx ..).trans (if_neg hj), (ctxOf_setCtx ..).trans (if_pos rfl)⟩

end Sys2Proof.Machine
end

section
/-! Frames and the acknowledgements they carry, credits and late resynchronisations (15 R376, R380, R382, R383, R390; 10 R269). -/

namespace Sys2Proof.Machine
variable {s t : State} {p n : Nat} {x : Port} {fseq aseq : BitVec 8} {k : BitVec 2} {coh good ok : Bool}

/-! ### A frame that is not taken -/

theorem frameArrives_down (h : (port s p).state ≠ .up) : frameArrives p fseq aseq k coh good n ok s = s := if_pos (by simp [portUp, h])
theorem frameArrives_bad (hup : (port s p).state = .up) (hbad : good = false ∨ fseq ≠ (port s p).rxSeq + 1) :
    OnlyPort p { port s p with discarding := true, ackKind := 2 } s (frameArrives p fseq aseq k coh good n ok s) := by
  have hrefused : ¬(good && fseq == (port s p).rxSeq + 1) = true := by
    simp only [Bool.and_eq_true, beq_iff_eq]
    obtain h | h := hbad
    · exact fun hc => absurd hc.1 (by simp [h])
    · exact fun hc => h hc.2
  have hset : OnlyPort p { port s p with discarding := true, ackKind := 2 } s (setPort p { port s p with discarding := true, ackKind := 2 } s) := .setPort ..
  unfold frameArrives
  rw [if_neg (by simp [portUp, hup]), if_neg hrefused]
  dsimp only
  split
  · exact hset
  · exact hset.beside rfl rfl rfl rfl

/-! ### A frame in order -/

/-- The port once a frame in order has been taken. -/
def gotPort (fseq : BitVec 8) (x : Port) : Port := { x with rxSeq := fseq, discarding := false, ackKind := 1 }
/-- The device then, before the frame's acknowledgement. -/
def frameGot (p n : Nat) (fseq : BitVec 8) (s : State) : State := vxRxflit p n (setPort p (gotPort fseq (port s p)) s)
theorem only_frameGot : OnlyPort p (gotPort fseq (port s p)) s (frameGot p n fseq s) := (OnlyPort.setPort ..).beside rfl rfl rfl rfl
theorem frameArrives_next (hup : (port s p).state = .up) (hgood : good = true) (hseq : fseq = (port s p).rxSeq + 1) :
    frameArrives p fseq aseq k coh good n ok s = (let s2 := takeAck p aseq k ok (frameGot p n fseq s)
      if (port s2 p).join.state = .coherent ∧ !coh then splitPair p 0 true s2 else s2) := by
  unfold frameArrives
  rw [if_neg (by simp [portUp, hup]), if_pos (by simp [hgood, hseq])]
  rfl
/-- A frame that ends no pair leaves what its acknowledgement does. -/
theorem frameArrives_whole (hup : (port s p).state = .up) (hgood : good = true) (hseq : fseq = (port s p).rxSeq + 1)
    (hcoh : (port (takeAck p aseq k ok (frameGot p n fseq s)) p).join.state ≠ .coherent ∨ coh = true) :
    frameArrives p fseq aseq k coh good n ok s = takeAck p aseq k ok (frameGot p n fseq s) := by
  rw [frameArrives_next hup hgood hseq]
  refine if_neg fun h => ?_
  obtain hj | hc := hcoh
  · exact hj h.1
  · simp [hc] at h

section
variable (h : OnlyPort p x s t)
include h

theorem takeAck_other (h1 : k ≠ 1) (h2 : k ≠ 2) : OnlyPort p x s (takeAck p aseq k ok t) := by
  unfold takeAck
  rw [if_neg h1, if_neg h2]
  exact h
/-- The port with the frames that its peer has received forgotten. -/
def ackedPort (aseq : BitVec 8) (x : Port) : Port :=
  { x with retryBuf := framesAfter aseq x.retryBuf, retries := if (framesAfter aseq x.retryBuf).length < x.retryBuf.length then 0 else x.retries }
omit h in
theorem takeAck_ack : takeAck p aseq 1 ok t = settleSleep p (setPort p (ackedPort aseq (port t p)) t) := by
  unfold takeAck
  rw [if_pos rfl]
  rfl
theorem takeAck_awake (hs : x.sleepAgreed = false ∨ framesAfter aseq x.retryBuf ≠ []) : OnlyPort p (ackedPort aseq x) s (takeAck p aseq 1 ok t) := by
  rw [takeAck_ack, h.1, settleSleep, port_setPort_same, if_neg]
  · exact h.set _
  · simp only [ackedPort, Bool.and_eq_true, List.isEmpty_iff, not_and]
    obtain hs | hs := hs
    · exact fun hs' => by simp [hs] at hs'
    · exact fun _ => hs
theorem takeAck_asleep (hs : x.sleepAgreed = true) (hrest : framesAfter aseq x.retryBuf = []) (hw : t.links.waiting = []) (hc : t.links.cohOut = []) :
    OnlyPort p { ackedPort aseq x with pwr := .listen, sleepAgreed := false, sleepReq := false } s (takeAck p aseq 1 ok t) := by
  rw [takeAck_ack, h.1, settleSleep, port_setPort_same, if_pos]
  · exact ((h.set _).set _).rerouted hw hc
  · simp [ackedPort, hs, hrest]

/-- How often the frames at the head of the retry buffer have been sent again. -/
def retriesAfter (aseq : BitVec 8) (x : Port) : Nat := if (framesAfter aseq x.retryBuf).length < x.retryBuf.length then 1 else x.retries + 1
/-- The port after a negative acknowledgement. -/
def nackedPort (aseq : BitVec 8) (x : Port) : Port := { x with retryBuf := framesAfter aseq x.retryBuf, retries := retriesAfter aseq x }
/-- The device then, the repetition counted. -/
def nacked (p : Nat) (aseq : BitVec 8) (t : State) : State := vxRetry p (setPort p (nackedPort aseq (port t p)) t)
omit h in
theorem takeAck_nack : takeAck p aseq 2 ok t =
    if fld (regAct t (vxBase p + 0x14)) 15 8 ≤ retriesAfter aseq (port t p) then fastRetrain p ok (nacked p aseq t) else nacked p aseq t := rfl
theorem only_nacked : OnlyPort p (nackedPort aseq x) s (nacked p aseq t) := by
  rw [nacked, h.1]
  exact (h.set _).beside rfl rfl rfl rfl
theorem takeAck_again (hlt : retriesAfter aseq x < fld (regAct t (vxBase p + 0x14)) 15 8) : OnlyPort p (nackedPort aseq x) s (takeAck p aseq 2 ok t) := by
  rw [takeAck_nack, h.1, if_neg (Nat.not_le.2 hlt)]
  exact only_nacked h
theorem takeAck_limit (hge : fld (regAct t (vxBase p + 0x14)) 15 8 ≤ retriesAfter aseq x) : takeAck p aseq 2 ok t = fastRetrain p ok (nacked p aseq t) := by
  rw [takeAck_nack, h.1, if_pos hge]
theorem fastRetrain_ok : OnlyPort p { x with pwr := .active, credits := [], retries := 0, sleepReq := false, sleepAgreed := false } s (fastRetrain p true t) := by
  rw [fastRetrain, if_pos rfl, retrained, updPort, h.1]
  exact h.set _
/-- The fast retrains of the port that failed within the last second, this one among them. -/
def failsAt (s : State) (x : Port) : List Nat := nowNs s :: x.fastFails.filter fun y => decide (nowNs s < y + 1000000000)
omit h in
theorem fastRetrain_fails : fastRetrain p false t = (let s1 := setPort p { port t p with fastFails := failsAt t (port t p) } t
    if 3 ≤ (failsAt t (port t p)).length then outOfService p (logFault 0x201 2 (uPort p) none (port t p).peerDev 0 s1) else s1) := rfl
theorem fastRetrain_few (hlt : (failsAt t x).length < 3) : OnlyPort p { x with fastFails := failsAt t x } s (fastRetrain p false t) := by
  rw [fastRetrain_fails, h.1]
  dsimp only
  rw [if_neg (Nat.not_le.2 hlt)]
  exact h.set _
/-- The third failure within a second takes the port out of service. -/
theorem fastRetrain_out (hge : 3 ≤ (failsAt t x).length) (hx : x.state ≠ .out) (hj : x.join.state = .non) (hw : t.links.waiting = []) (hc : t.links.cohOut = []) :
    (port (fastRetrain p false t) p).state = .out ∧ (port (fastRetrain p false t) p).join.state = .non ∧
      (∃ e ∈ (fastRetrain p false t).resil.log, e.record.take 2 = bytesOfNat 0x201 2) ∧ SameBytes s (fastRetrain p false t) := by
  rw [fastRetrain_fails, h.1]
  dsimp only
  rw [if_pos hge]
  have hpo : ({ x with fastFails := failsAt t x } : Port).state ≠ .out := hx
  obtain ⟨hstate, hlog, hbytes⟩ := goes_out (s := t) (p := p) (k := 0x201) (cls := 2) (unit := uPort p) (a0 := x.peerDev) (a1 := 0) (lc := none)
    (x := { x with fastFails := failsAt t x }) (by decide) hpo hj ⟨hw, hc⟩
  refine ⟨hstate, ?_, hlog, fun a => (hbytes a).trans (by rw [readByte, readByte, h.2.2.1])⟩
  have hlogged := logNow_logFault (s := setPort p { x with fastFails := failsAt t x } t) 0x201 2 (uPort p) none x.peerDev 0
  generalize logFault 0x201 2 (uPort p) none x.peerDev 0 (setPort p { x with fastFails := failsAt t x } t) = v at hlogged ⊢
  have hport : port v p = { x with fastFails := failsAt t x } := by
    obtain ⟨r, pd, i, rfl⟩ := hlogged
    exact port_setPort_same ..
  have hquiet : v.links.waiting = [] ∧ v.links.cohOut = [] := by
    obtain ⟨r, pd, i, rfl⟩ := hlogged
    exact ⟨hw, hc⟩
  obtain ⟨hleft, -, -⟩ := leaves_still (by rw [hport]; exact hx) hquiet (.inl (by rw [hport]; exact hj))
  rw [hleft.join, hport]
  exact hj
end

/-! ### A flit marked non-coherent (10 R269) -/

theorem mem_ackTargets (gone : Nat → Bool) (s : State) : (ackTargets gone s).mem = s.mem := by
  unfold ackTargets
  extract_lets f
  split <;> rfl
theorem mem_blockSwitched (k : Nat) (s : State) : (blockSwitched k s).mem = s.mem := by
  unfold blockSwitched
  split
  · extract_lets left _ s1
    split
    · exact (LogNow.of_pulse 155).mem
    · rfl
  · rfl
/-- Where no request waits on the peer, what is dropped of its requests changes no byte. -/
theorem sameBytes_dropInFlight {slot : Nat} (h : ∀ q ∈ s.mem.homeQ, ∀ x ∈ q.pending, x.1 ≠ devOwner slot) : SameBytes s (dropInFlight slot s) := by
  unfold dropInFlight
  extract_lets ours lost s1 late _ _ s2
  have h1 : LogNow s s1 := logNow_foldl _ (fun a q => (logNow_logFault ..).trans (.of_pulse 151)) _ _
  have hlate : late = [] := by
    unfold late
    rw [List.map_eq_nil_iff, List.filter_eq_nil_iff]
    intro q hq
    rw [h1.mem] at hq
    simp only [List.any_eq_true, beq_iff_eq, not_exists, not_and]
    exact h q hq
  rw [hlate]
  refine sameBytes_of_bytes ?_
  rw [mem_ackTargets]
  exact (show s1.mem.bytes = s.mem.bytes by rw [h1.mem])
theorem sameBytes_splitPair {slot trigger : Nat} (hj : (port s p).join.state = .coherent) (hslot : slot = (port s p).join.peerSlot)
    (h : ∀ q ∈ s.mem.homeQ, ∀ x ∈ q.pending, x.1 ≠ devOwner slot) : SameBytes s (splitPair p trigger true s) := by
  rw [splitPair_eq (slot := slot) (by rw [hj]; decide) (by rw [if_pos hj, hslot])]
  have hmem : (pairFenced p slot s).mem = s.mem := by
    obtain ⟨m, hm⟩ := fencePorts_eq (slot := slot) (pairPorts p slot s) s
    rw [pairFenced, hm]
  have hdrop : SameBytes (pairFenced p slot s) (dropInFlight slot (pairFenced p slot s)) := sameBytes_dropInFlight (by rw [hmem]; exact h)
  intro a
  dsimp only
  rw [if_pos rfl, readByte, mem_logFault, mem_blockSwitched]
  exact (hdrop a).trans (by rw [readByte, readByte, hmem])
/-- The pair of a coherent port splits: its join is fenced, the peer no longer joined, nothing goes to it any more. -/
theorem splitPair_coherent {trigger : Nat} (hj : (port s p).join.state = .coherent)
    (hno : ∀ q ∈ s.mem.homeQ, ∀ x ∈ q.pending, x.1 ≠ devOwner (port s p).join.peerSlot) :
    (port (splitPair p trigger true s) p).join.state = .fenced ∧ (splitPair p trigger true s).links.peers.getLsbD (port s p).join.peerSlot = false ∧
      Newest 0xD (splitPair p trigger true s) ∧ (∀ m ∈ (splitPair p trigger true s).links.cohOut, m.slot ≠ (port s p).join.peerSlot) ∧
      SameBytes s (splitPair p trigger true s) := by
  obtain ⟨hsent, hnew, hlinks⟩ := splitPair_spec (trigger := trigger) (log := true) (slot := (port s p).join.peerSlot) (by rw [hj]; decide) (by rw [if_pos hj])
  obtain ⟨m, hpl⟩ := links_pairFenced (s := s) (p := p) (slot := (port s p).join.peerSlot)
  refine ⟨?_, ?_, hnew rfl, fun m hm => ?_, sameBytes_splitPair hj rfl hno⟩
  · rw [hsent.join_eq, port_pairFenced, if_pos (show p ∈ pairPorts .. from List.mem_cons_self ..)]
    rfl
  · rw [hsent.peers, hpl]
    simp only [BitVec.getLsbD_and, BitVec.getLsbD_not, BitVec.getLsbD_ofNat, Nat.testBit_two_pow_self]
    by_cases hlt : (port s p).join.peerSlot < 4 <;> simp [hlt]
  · rw [hlinks hno] at hm
    simpa using (List.mem_filter.1 hm).2

/-! ### Credits and a RESYNC that does not come -/

theorem creditsOf_setCredits (x : Port) (vc n v : Nat) : creditsOf (setCredits x vc n) v = if v = vc then n else creditsOf x v := smGet_smPut ..
/-- No message of the frames that were not acknowledged is refused where none of them took a credit. -/
theorem resyncLate_idle (h : ∀ f ∈ (port s p).retryBuf, ∀ m ∈ f.msgs, m.mc = 0) (hw : (port s p).resyncWait = true) :
    resyncLate p s = setPort p { port s p with retryBuf := [], resyncWait := false } s := by
  have hnone : ((port s p).retryBuf.foldr (fun f acc => f.msgs ++ acc) []).filter (fun m => m.mc != 0) = [] := by
    generalize (port s p).retryBuf = l at h
    induction l with
    | nil => rfl
    | cons f l ih =>
      rw [List.foldr_cons, List.filter_append, ih fun g hg => h g (List.mem_cons_of_mem _ hg), List.append_nil, List.filter_eq_nil_iff]
      intro m hm
      simp [h f (List.mem_cons_self ..) m hm]
  unfold resyncLate
  rw [if_pos hw]
  dsimp only
  rw [hnone]
  rfl

end Sys2Proof.Machine
end

section
/-! A message at the router: the escape channel, what an arrival injects, and the way on to another device (15 R380, R381, R387, R388). -/

namespace Sys2Proof.Machine
variable {s t u : State} {p : Nat} {m : Msg}

/-! ### Sending on a port -/

theorem port_transmit (p q : Nat) (m : Msg) (s : State) : port (transmit p m s) q =
    if q = p then framed (setCredits (port s p) (vcOf m) (creditsOf (port s p) (vcOf m) - 1)) [{ m with hops := m.hops + 1 }] else port s q := by
  have key : port (sendFrame p [{ m with hops := m.hops + 1 }] (serveFlits (280 + p) (if tc0At s p m then 0 else max 1 m.tc.toNat) (msgLen m)
      (setPort p (setCredits (port s p) (vcOf m) (creditsOf (port s p) (vcOf m) - 1)) s))) q =
      if q = p then framed (setCredits (port s p) (vcOf m) (creditsOf (port s p) (vcOf m) - 1)) [{ m with hops := m.hops + 1 }] else port s q := by
    refine (smGet_smPut ..).trans ?_
    split
    next hq =>
      show framed (port (setPort p _ s) p) _ = _
      rw [port_setPort_same]
    next hq => exact smGet_smPut_other _ _ _ hq
  unfold transmit
  extract_lets po s1 s2
  split <;> exact key
theorem waiting_transmit (p : Nat) (m : Msg) (s : State) : (transmit p m s).links.waiting = s.links.waiting := by
  unfold transmit
  extract_lets po s1 s2
  split <;> rfl
theorem sameStore_giveCredit (p : Nat) (m : Msg) (s : State) : SameStore s (giveCredit p m s) := by
  unfold giveCredit
  split
  · exact ⟨rfl, rfl⟩
  · exact .refl s
/-- The port that took a message gives its buffer entry back. -/
theorem port_giveCredit (hp : p < 8) (hup : (port s p).state = .up) (q : Nat) :
    port (giveCredit p m s) q = if q = p then framed (port s p) [ctlMsg 0x80 (vcOf m * 256 + 1)] else port s q := by
  rw [giveCredit, if_pos ⟨hp, by simp [portUp, hup]⟩]
  exact port_sendCtl ..

/-! ### The escape channel (R387) -/

theorem portUp_of_canSend {q : Nat} (h : canSend s q m = true) : portUp s q = true := by
  simp only [canSend, Bool.and_eq_true] at h
  exact h.1.1.1.1
/-- Where no port of the main channel takes a message whose time has passed, it goes by the escape port. -/
theorem route_escape {ep : Nat} (hdst : m.dst.toNat ≠ devNum s) (hhops : m.hops < fld (actFor s m 0x4080000) 20 16)
    (hbit : (routeEntry s m).getLsbD 3 = true) (hep : fld (routeEntry s m) 2 0 = ep)
    (hfull : ∀ q, q < 8 → (routeEntry s m).getLsbD (8 + q) = true → canSend s q m = false)
    (hcan : canSend s ep { m with esc := true } = true) (hawake : (port s ep).pwr ≠ .listen) :
    route true m s = (.sent, transmit ep { m with esc := true } s) := by
  unfold route
  extract_lets dst e up escPort esc free awake goMain m1 s1
  have hesc : esc = true := by
    show ((routeEntry s m).getLsbD 3 && portUp s (fld (routeEntry s m) 2 0)) = true
    rw [hbit, hep, portUp_of_canSend hcan]
    rfl
  have hfree : free = [] := by
    show up.filter _ = []
    rw [List.filter_eq_nil_iff]
    intro q hq
    obtain ⟨hlt, hq⟩ := List.mem_filter.1 hq
    rw [Bool.and_eq_true] at hq
    rw [hfull q (List.mem_range.1 hlt) hq.1]
    exact Bool.false_ne_true
  have hnone : (if goMain then (if awake.isEmpty then free else awake).foldl (betterPort s m) none else none) = none := by
    rw [show awake = [] by show free.filter _ = []; rw [hfree]; rfl, hfree]
    exact ite_self _
  rw [if_neg hdst, if_neg (Nat.not_le.2 hhops), if_neg (by simp [hesc]), hnone]
  dsimp only
  have hs1 : s1 = s := if_neg (by rw [show escPort = ep from hep]; exact hawake)
  rw [hesc, if_neg (by simp), hs1, show escPort = ep from hep, show m1 = { m with esc := true } from rfl, if_pos hcan]

/-! ### What an arrival injects (12 R299; 22 R537) -/

/-- `t` is `s` but for the wake latches, counters and meters. -/
def Noticed (s t : State) : Prop := ∃ a b c f,
  t = { s with power := { s.power with wakeLast := a, wakeLatch := b }, ctl := { s.ctl with counters := c }, frk := f }
theorem noticed_latchWake (bit : Nat) (s : State) : Noticed s (latchWake bit s) := by
  unfold latchWake
  extract_lets b
  split
  · exact ⟨_, _, _, _, rfl⟩
  · split
    · exact ⟨_, _, _, _, rfl⟩
    · split <;> exact ⟨_, _, _, _, rfl⟩
theorem noticed_injectMsg (p : Nat) (m : Msg) (s : State) : Noticed s (injectMsg p m (latchWake wakeLink s)).2 := by
  obtain ⟨a, b, c, f, h⟩ := noticed_latchWake wakeLink s
  rw [h]
  unfold injectMsg
  extract_lets n rs
  split
  · exact ⟨a, b, c, f, rfl⟩
  · exact ⟨a, b, _, _, rfl⟩
/-- Nothing of the message changes but whose traffic it counts as. -/
theorem injectMsg_msg (p : Nat) (m : Msg) (s : State) : ∃ i o, (injectMsg p m s).1 = { m with init := i, isOver := o } := by
  unfold injectMsg
  extract_lets n rs
  split
  · exact ⟨_, _, rfl⟩
  · exact ⟨_, _, rfl⟩

/-! ### Arrivals -/

theorem takesMsg_iff {k : Nat} : takesMsg s p m k = true ↔ (port s p).state = .up ∧ (port s p).discarding = false ∧ m.kind.toNat = k := by
  simp only [takesMsg, portUp, Bool.and_eq_true, decide_eq_true_eq, Bool.not_eq_true', beq_iff_eq, and_assoc]
variable {k : Nat} {here : Msg → State → State}
theorem arrive_refused (h : (port s p).state ≠ .up ∨ (port s p).discarding = true ∨ m.kind.toNat ≠ k) : arrive p m k here s = s := by
  refine if_neg fun ht => ?_
  obtain ⟨hup, hdisc, hkind⟩ := takesMsg_iff.1 ht
  obtain h | h | h := h
  · exact h hup
  · rw [hdisc] at h
    cases h
  · exact h hkind
section
variable (hup : (port s p).state = .up) (hdisc : (port s p).discarding = false) (hkind : m.kind.toNat = k)
include hup hdisc hkind
theorem arrive_on (hdst : m.dst.toNat ≠ devNum s) :
    arrive p m k here s = forwardMsg false p (injectMsg p m (latchWake wakeLink s)).1 (injectMsg p m (latchWake wakeLink s)).2 := by
  unfold arrive
  rw [if_pos (takesMsg_iff.2 ⟨hup, hdisc, hkind⟩)]
  exact if_neg hdst
theorem arrive_here (hdst : m.dst.toNat = devNum s) :
    arrive p m k here s = giveCredit p m (here m (injectMsg p m (latchWake wakeLink s)).2) := by
  unfold arrive
  rw [if_pos (takesMsg_iff.2 ⟨hup, hdisc, hkind⟩)]
  exact if_pos hdst
end
theorem giveCredit_vc {m' : Msg} (h : vcOf m' = vcOf m) : giveCredit p m' s = giveCredit p m s := by rw [giveCredit, giveCredit, h]
/-- What goes to a port does not read the counters. -/
theorem links_giveCredit (h : t.links = s.links) : (giveCredit p m t).links = (giveCredit p m s).links := by
  have hport : portUp t p = portUp s p := by rw [portUp, portUp, port, port, h]
  unfold giveCredit
  rw [hport]
  split
  · have key : ∀ v : State, (sendCtl p 0x80 (BitVec.ofNat 40 (vcOf m * 256 + 1)) [] v).links =
        { v.links with ports := smPut portDef v.links.ports p (framed (smGet portDef v.links.ports p) [ctlMsg 0x80 (vcOf m * 256 + 1)]) } := fun _ => rfl
    rw [key, key, h]
  · exact h

/-! ### The way on -/

/-- A message that is refused and is neither a letter nor a command has no answer (R388). -/
theorem refuseMsg_silent (h1 : m.kind.toNat ≠ 1) (h4 : m.kind.toNat ≠ 4) : refuseMsg p m s = s := by
  unfold refuseMsg
  extract_lets own answer
  split
  next h => exact absurd h h1
  next h => exact absurd h h4
  next => rfl
/-- The refused letter or command of another device is answered to it. -/
theorem refuseMsg_answers (hsrc : m.src.toNat ≠ devNum s) {a : Msg}
    (ha : m.kind.toNat = 1 ∧ a = { kind := 3, mc := 2, tc := m.tc, tid := m.tid, dst := m.src, kspec := 6 } ∨
      m.kind.toNat = 4 ∧ a = respMsg m.src.toNat m.tid m.tc 9 0 0) :
    (refuseMsg p m s).links = (sendMsg { a with ordered := m.ordered } s).2.links ∧ SameStore s (refuseMsg p m s) := by
  have hstore := sameStore_sendMsg { a with ordered := m.ordered } s
  have key : ∀ r : Routed × State, r = sendMsg { a with ordered := m.ordered } s →
      (if r.1 = .loop ∨ r.1 = .unreachable then vxDrop (p % 8) r.2 else r.2).links = (sendMsg { a with ordered := m.ordered } s).2.links ∧
      SameStore s (if r.1 = .loop ∨ r.1 = .unreachable then vxDrop (p % 8) r.2 else r.2) := by
    intro r hr
    rw [← hr] at hstore ⊢
    split
    · exact ⟨rfl, hstore.trans ⟨rfl, rfl⟩⟩
    · exact ⟨rfl, hstore⟩
  unfold refuseMsg
  extract_lets own answer
  have hown : own = false := decide_eq_false hsrc
  rw [hown]
  obtain ⟨hk, rfl⟩ | ⟨hk, rfl⟩ := ha
  · rw [hk]
    exact key _ rfl
  · rw [hk]
    exact key _ rfl

variable {m' : Msg}
theorem forwardMsg_wait (h : (route false m' u).1 = .wait) : forwardMsg false p m' u =
    { (route false m' u).2 with links := { (route false m' u).2.links with waiting := (route false m' u).2.links.waiting ++ [(p, m')] } } := by
  unfold forwardMsg
  extract_lets r
  rw [show r.1 = .wait from h]
section
variable (hmsg : ∃ i o, m' = { m with init := i, isOver := o })
include hmsg
theorem forwardMsg_sent (h : (route false m' u).1 = .sent) : forwardMsg false p m' u = giveCredit p m (route false m' u).2 := by
  unfold forwardMsg
  extract_lets r
  rw [show r.1 = .sent from h]
  obtain ⟨i, o, rfl⟩ := hmsg
  exact giveCredit_vc rfl
theorem forwardMsg_refused (h : (route false m' u).1 = .loop ∨ (route false m' u).1 = .unreachable) :
    forwardMsg false p m' u = giveCredit p m (refuseMsg p m' (route false m' u).2) := by
  unfold forwardMsg
  extract_lets r
  obtain ⟨i, o, rfl⟩ := hmsg
  obtain h | h := h
  · rw [show r.1 = .loop from h]
    exact giveCredit_vc rfl
  · rw [show r.1 = .unreachable from h]
    exact giveCredit_vc rfl
end

end Sys2Proof.Machine
end

section
/-! Letters, their answers and the commands of another device, arrived at this one (13 R336, R338; 14 R351 to R361; 15 R377). -/

namespace Sys2Proof.Machine
variable {s t u : State} {m : Msg} {p : Fin 8} {k : Nat} {i : Instr} {here : Msg → State → State}

/-! ### An arrival here -/

/-- A message for this device is taken from a port in service that awaits no replay. -/
structure Arrives (p : Nat) (m : Msg) (k : Nat) (s : State) : Prop where
  up : (port s p).state = .up
  inOrder : (port s p).discarding = false
  here : m.dst.toNat = devNum s
  kind : m.kind.toNat = k
/-- The port that took the message has given its buffer entry back. -/
def backPort (p : Nat) (m : Msg) (s : State) : Port := framed (port s p) [ctlMsg 0x80 (vcOf m * 256 + 1)]
theorem port_back (h : Arrives p m k s) (hport : port u p = port s p) : port (giveCredit p m u) p = backPort p m s := by
  rw [port_giveCredit p.isLt (by rw [hport]; exact h.up), if_pos rfl, hport]
  rfl
theorem completes_here (h : Arrives p m k s) (hexec : exec i s = .next (arrive p m k here s)) {P : State → Prop}
    (hP : ∀ u, Noticed s u → P (giveCredit p m (here m u))) : Completes i s P := by
  obtain ⟨hup, hdisc, hdst, hkind⟩ := h
  refine ⟨_, hexec, ?_⟩
  rw [arrive_here hup hdisc hkind hdst]
  exact hP _ (noticed_injectMsg ..)
namespace Noticed
theorem port_eq (h : Noticed s t) (q : Nat) : port t q = port s q := by
  obtain ⟨_, _, _, _, rfl⟩ := h
  rfl
theorem store (h : Noticed s t) : SameStore s t := by
  obtain ⟨_, _, _, _, rfl⟩ := h
  exact ⟨rfl, rfl⟩
theorem clear (h : Noticed s t) {pa n : Nat} (hc : Clear s pa n) : Clear t pa n := by
  obtain ⟨_, _, _, _, rfl⟩ := h
  exact hc
theorem ownerCode_eq (h : Noticed s t) (pa : Nat) : ownerCode t pa = ownerCode s pa := by
  have hbyte : readByte t = readByte s := funext fun a => by rw [readByte, readByte, h.store.2]
  have hside : t.ctl.regs = s.ctl.regs ∧ slotOf t = slotOf s ∧ ∀ a, inReserve t a = inReserve s a := by
    obtain ⟨_, _, _, _, rfl⟩ := h
    exact ⟨rfl, rfl, fun _ => rfl⟩
  obtain ⟨hregs, hslot, hreserve⟩ := hside
  have hreg (o : Nat) : reg t o = reg s o := by rw [reg, hregs]; rfl
  have hreg64 (o : Nat) : reg64 t o = reg64 s o := by rw [reg64, hreg, hreg]; rfl
  unfold ownerCode
  rw [hslot, hreg64, hreg64, hreg64, hreg, hreserve, hbyte]
theorem regionOk_eq (h : Noticed s t) (pa : Nat) (kind : AccessKind) : regionOk t pa kind = regionOk s pa kind := by
  have hb : backed t pa = backed s pa := by
    obtain ⟨_, _, _, _, rfl⟩ := h
    rfl
  rw [regionOk, hb]
  rfl
theorem lineFenced_eq (h : Noticed s t) (line : Nat) : lineFenced t line = lineFenced s line := by
  obtain ⟨_, _, _, _, rfl⟩ := h
  rfl
theorem regionOf_eq (h : Noticed s t) (r : Nat) : regionOf t r = regionOf s r := by rw [regionOf, h.store.1]; rfl
theorem sopDown_eq (h : Noticed s t) (n : Nat) : sopDown t n = sopDown s n := by
  obtain ⟨_, _, _, _, rfl⟩ := h
  rfl
theorem serveCodes_eq (h : Noticed s t) (dev : Nat) (c : Cmd) : serveCodes t dev c = serveCodes s dev c := by
  have hctx (n : Nat) : ctxOf t n = ctxOf s n := by rw [ctxOf, h.store.1]; rfl
  have howner : ownerCode t = ownerCode s := funext h.ownerCode_eq
  have hok : regionOk t = regionOk s := funext fun pa => funext (h.regionOk_eq pa)
  have hfenced : lineFenced t = lineFenced s := funext h.lineFenced_eq
  unfold serveCodes remoteUse regionUse remoteRctr remoteCtr
  rw [hctx, h.regionOf_eq, howner, hok, hfenced, h.sopDown_eq, h.sopDown_eq]
theorem pagesTaken_eq (h : Noticed s t) (pa : Nat) (m : Msg) : pagesTaken t pa m = pagesTaken s pa m := by
  unfold pagesTaken
  rw [show ownerCode t = ownerCode s from funext h.ownerCode_eq]
end Noticed

/-! ### Letters and their answers -/

/-- The 64-bit postmark nearest the time `now` that ends in the bits `low` (15 R377). -/
def postmarkNear (low now : Nat) : Nat :=
  let base := now / 2 ^ 40 * 2 ^ 40 + low
  if now + 2 ^ 39 < base then base - 2 ^ 40 else if base + 2 ^ 39 < now then base + 2 ^ 40 else base
theorem postmarkNear_spec {now low : Nat} (hlow : low < 2 ^ 40) (h1 : 2 ^ 40 ≤ now) (h2 : now < 2 ^ 63) :
    postmarkNear low now < 2 ^ 64 ∧ postmarkNear low now % 2 ^ 40 = low ∧ now ≤ postmarkNear low now + 2 ^ 39 ∧ postmarkNear low now ≤ now + 2 ^ 39 := by
  unfold postmarkNear
  dsimp only
  split
  · omega
  · split <;> omega
/-- A letter's answer is sent. -/
def answerLetter (k : BitVec 8) (n : Nat) (m : Msg) (s : State) : State :=
  (sendMsg { kind := k, mc := 2, tc := m.tc, tid := m.tid, dst := m.src, kspec := BitVec.ofNat 40 n, ordered := m.ordered } s).2
/-- A letter that arrives with its postmark `pm`, and the answer to it. -/
def letterTaken (pm : Nat) (m : Msg) (s : State) : State :=
  let r := deliver (fld (vecOfChunks m.chunks) 15 0) { data := vecOfChunks m.chunks, postmark := BitVec.ofNat 64 pm } s
  match r.1 with
  | .taken => answerLetter 2 0 m r.2
  | .gone n => answerLetter 3 n m r.2
  | .nak => answerLetter 3 0 m r.2
theorem letterHere_eq : letterHere m s = letterTaken (postmarkNear m.kspec.toNat (nowNs s)) m s := rfl
theorem letterTaken_stored {pm : Nat} (h : TakesLetters s (fld (vecOfChunks m.chunks) 15 0)) :
    (queueOf (letterTaken pm m s) (fld (vecOfChunks m.chunks) 15 0)).burst =
      (queueOf s (fld (vecOfChunks m.chunks) 15 0)).burst ++ [{ data := vecOfChunks m.chunks, postmark := BitVec.ofNat 64 pm }] ∧
    SameBytes s (letterTaken pm m s) := by
  obtain ⟨t, ht, hstored⟩ := deliver_taken h { data := vecOfChunks m.chunks, postmark := BitVec.ofNat 64 pm }
  have hfirst : (deliver (fld (vecOfChunks m.chunks) 15 0) { data := vecOfChunks m.chunks, postmark := BitVec.ofNat 64 pm } s).1 = .taken := by rw [ht]
  have hanswer : letterTaken pm m s = answerLetter 2 0 m t := by
    unfold letterTaken
    extract_lets r
    have hr : r.2 = t := by rw [show r = (.taken, t) from ht]
    split
    next => rw [hr]
    next h => exact absurd (h.symm.trans hfirst) (by simp)
    next h => exact absurd (h.symm.trans hfirst) (by simp)
  rw [hanswer]
  have hsent : SameStore t (answerLetter 2 0 m t) := sameStore_sendMsg ..
  obtain ⟨hoffice, hmem⟩ := hsent
  refine ⟨?_, sameBytes_of_mem (hmem.trans ?_)⟩
  · rw [queueOf, hoffice]
    exact hstored.queue
  · obtain ⟨_, _, _, _, rfl, -⟩ := hstored
    rfl
theorem letterHere_taken (h : TakesLetters s (fld (vecOfChunks m.chunks) 15 0)) (h1 : 2 ^ 40 ≤ nowNs s) (h2 : nowNs s < 2 ^ 63) : ∃ pm : Word64,
    (queueOf (letterHere m s) (fld (vecOfChunks m.chunks) 15 0)).burst =
      (queueOf s (fld (vecOfChunks m.chunks) 15 0)).burst ++ [{ data := vecOfChunks m.chunks, postmark := pm }] ∧
    pm.setWidth 40 = m.kspec ∧ nowNs s ≤ pm.toNat + 2 ^ 39 ∧ pm.toNat ≤ nowNs s + 2 ^ 39 ∧ SameBytes s (letterHere m s) := by
  obtain ⟨hlt, hmod, hlo, hhi⟩ := postmarkNear_spec (low := m.kspec.toNat) m.kspec.isLt h1 h2
  rw [letterHere_eq]
  generalize postmarkNear m.kspec.toNat (nowNs s) = pm at *
  obtain ⟨hburst, hbytes⟩ := letterTaken_stored (pm := pm) h
  have hpm : (BitVec.ofNat 64 pm).toNat = pm := by rw [BitVec.toNat_ofNat, Nat.mod_eq_of_lt hlt]
  refine ⟨BitVec.ofNat 64 pm, hburst, BitVec.eq_of_toNat_eq ?_, by rw [hpm]; exact hlo, by rw [hpm]; exact hhi, hbytes⟩
  rw [BitVec.toNat_setWidth, hpm]
  exact hmod

/-- The entries of a map, each cut down, those that become empty left out. -/
theorem smGet_cutDown {α : Type} [DecidableEq α] (f : α → Bool) {l : SMap (List α)} (h : smWf (fun _ => []) l = true) (k : Nat) :
    smGet (fun _ => []) (l.filterMap fun e => if (e.2.filter f).isEmpty then none else some (e.1, e.2.filter f)) k = (smGet (fun _ => []) l k).filter f := by
  induction l with
  | nil => rfl
  | cons e l ih =>
    have ih := ih (smWf_tail h)
    obtain ⟨k', v⟩ := e
    rw [List.filterMap_cons, smGet]
    by_cases hk : k' = k
    · subst hk
      rw [if_pos rfl]
      split
      next hnone =>
        have hempty : v.filter f = [] := by
          by_contra hne
          simp [List.isEmpty_iff, hne] at hnone
        rw [ih, smGet_above h (Nat.le_refl k'), hempty]
        rfl
      next e' hsome =>
        obtain rfl : (k', v.filter f) = e' := by
          split at hsome
          · cases hsome
          · exact Option.some.inj hsome
        exact if_pos rfl
    · rw [if_neg hk]
      split
      next hnone => exact ih
      next e' hsome =>
        obtain rfl : (k', v.filter f) = e' := by
          split at hsome
          · cases hsome
          · exact Option.some.inj hsome
        rw [smGet, if_neg hk]
        exact ih
theorem sendersOf_letterAcked (h : smWf senderDef s.office.senders = true) (k : Nat) : sendersOf (letterAcked m s) k =
    (sendersOf s k).filter fun x => !(x.tid == some m.tid && fld x.dest 31 16 == m.src.toNat) :=
  smGet_cutDown (fun x : SendSlot => !(x.tid == some m.tid && fld x.dest 31 16 == m.src.toNat)) h k
theorem sendersOf_setSender (k : Nat) (xs : List SendSlot) (s : State) : sendersOf (setSender k xs s) k = xs := smGet_smPut_same ..

/-! ### Commands of another device -/

/-- The command that a message carries. -/
def carried (m : Msg) : Cmd := { q := 65536, data := vecOfChunks m.chunks, cpm := m.kspec.setWidth 64, tc := m.tc.toNat }
theorem sameStore_reply (st flags : Nat) (v : Word64) (s : State) : SameStore s (reply m st flags v s) := sameStore_sendMsg ..
/-- The place a command of another device speaks of. -/
def placed (s : State) (m : Msg) : Nat := (regionOf s (cRreg (carried m))).base + cRoff (carried m)
/-- The answer to a GET of another device, the bytes read before it. -/
def answerGet (c : Cmd) (m : Msg) (r : List Byte × Bool × State) : State :=
  reply m stOk (2 * r.2.1.toNat) 0 (advanceRctr c (sendData none (dataMsgs 7 2 m.src.toNat m.tid m.tc r.2.1 r.1) r.2.2))
/-- The answer to an AMO of another device. -/
def answerAmo (c : Cmd) (m : Msg) (r : Nat × Bool × Word64 × State) : State :=
  reply m r.1 (2 * r.2.1.toNat) r.2.2.1 (if r.1 = stOk then advanceRctr c r.2.2.2 else r.2.2.2)
theorem sameStore_answerGet {c : Cmd} (hctr : cFlag c fRctren = false) (r : List Byte × Bool × State) : SameStore r.2.2 (answerGet c m r) := by
  rw [answerGet, advanceRctr, hctr, if_neg Bool.false_ne_true]
  exact (sameStore_sendData ..).trans (sameStore_reply ..)
theorem sameStore_answerAmo {c : Cmd} (hctr : cFlag c fRctren = false) (r : Nat × Bool × Word64 × State) : SameStore r.2.2.2 (answerAmo c m r) := by
  rw [answerAmo, advanceRctr, hctr, if_neg Bool.false_ne_true, ite_self]
  exact sameStore_reply ..
/-- A command of another device served once its code is known (14 R356 to R361). -/
def servedWith (c : Cmd) (code pa : Nat) (m : Msg) (s : State) : State :=
  if code ≠ stOk then reply m code 0 0 s
  else
    match cOp c with
    | 1 =>
      if cX c = 0 then reply m stOk 0 0 (advanceRctr c s)
      else { s with office := { s.office with serving := s.office.serving ++
        [{ src := m.src.toNat, tid := m.tid, cmd := c, left := cX c, region := cRreg c }] } }
    | 2 => reply m stOk 0 0 (advanceRctr c (agentWrite m.tc.toNat pa (bytesOfNat (cX c) (putiSize c)) s))
    | 3 =>
      let r := agentRead m.tc.toNat pa (cX c) s
      reply m stOk (2 * r.2.1.toNat) 0 (advanceRctr c (sendData none (dataMsgs 7 2 m.src.toNat m.tid m.tc r.2.1 r.1) r.2.2))
    | 4 =>
      let r := amoDo c pa s
      reply m r.1 (2 * r.2.1.toNat) r.2.2.1 (if r.1 = stOk then advanceRctr c r.2.2.2 else r.2.2.2)
    | 8 => reply m stOk 0 0 (advanceCtr (cRctr c) (BitVec.ofNat 64 (cX c)) s)
    | _ => { s with office := { s.office with serving := s.office.serving ++
      [{ src := m.src.toNat, tid := m.tid, cmd := c, left := 8 * elemsOf s (xCtx c), region := 4096 }] } }
theorem carried_eq (m : Msg) : ({ q := 65536, data := vecOfChunks m.chunks, cpm := m.kspec.setWidth 64, tc := m.tc.toNat } : Cmd) = carried m := rfl
theorem serveCommand_eq : serveCommand m s =
    servedWith (carried m) (if s.office.running then firstCode (serveCodes s m.src.toNat (carried m)) else stBusy) (placed s m) m s := by
  have h : serveCommand m s = servedWith { q := 65536, data := vecOfChunks m.chunks, cpm := m.kspec.setWidth 64, tc := m.tc.toNat }
      (if s.office.running then firstCode (serveCodes s m.src.toNat { q := 65536, data := vecOfChunks m.chunks, cpm := m.kspec.setWidth 64, tc := m.tc.toNat })
        else stBusy)
      ((regionOf s (cRreg { q := 65536, data := vecOfChunks m.chunks, cpm := m.kspec.setWidth 64, tc := m.tc.toNat })).base +
        cRoff { q := 65536, data := vecOfChunks m.chunks, cpm := m.kspec.setWidth 64, tc := m.tc.toNat }) m s := rfl
  rw [carried_eq] at h
  exact h
theorem testBit_eight {n : Nat} (hlo : 256 ≤ n) (hhi : n < 512) : n.testBit 8 = true := by
  rw [Nat.testBit_eq_decide_div_mod_eq, decide_eq_true_eq]
  omega
/-- An AMO of a doubleword that nothing else holds. -/
theorem amoDo_clear {c : Cmd} {pa : Nat} (hwide : 256 ≤ cLreg c) (hlt : cLreg c < 512) (hc : Clear s pa 8) : ∃ v t, amoDo c pa s = (stOk, false, v, t) ∧
    t.mem.bytes = putBytes (bytesOf (amoOp (amoCode (natBits (cLreg c) 3 0)) (BitVec.ofNat 64 (readNat s pa 8)) (BitVec.ofNat 64 (cLoff c))
      (BitVec.ofNat 64 (cX c))) 8) pa s.mem.bytes ∧ t.office = s.office := by
  obtain ⟨-, hnew, hbeside⟩ := agentAmo_clear (cmdTc s c) (natBits (cLreg c) 3 0) true (BitVec.ofNat 64 (cLoff c)) (BitVec.ofNat 64 (cX c)) hc (by decide)
  have hsound : readsPoison s (lineOf pa) = false := by
    obtain ⟨hpoison, hfenced⟩ := hc.poison (by decide)
    rw [readsPoison, hpoison, hfenced]
    rfl
  rw [amoDo, hsound, if_neg Bool.false_ne_true, testBit_eight hwide hlt]
  exact ⟨_, _, rfl, hnew, (congrArg State.office hbeside :)⟩
theorem serveCommand_stopped (h : s.office.running = false) : serveCommand m s = reply m stBusy 0 0 s := by
  rw [serveCommand_eq, h, if_neg Bool.false_ne_true, servedWith, if_pos (by decide)]
section
variable (hrun : s.office.running = true) (hcodes : ∀ x ∈ serveCodes s m.src.toNat (carried m), x = 0)
include hrun hcodes
theorem serveCommand_runs : serveCommand m s = servedWith (carried m) 0 (placed s m) m s := by
  rw [serveCommand_eq, hrun, if_pos rfl, firstCode_zero hcodes]
variable {c : Cmd} {pa : Nat}
section
omit hrun hcodes
theorem servedWith_put (hop : cOp c = 1) (hx : cX c ≠ 0) : servedWith c 0 pa m s = { s with office := { s.office with serving := s.office.serving ++
    [{ src := m.src.toNat, tid := m.tid, cmd := c, left := cX c, region := cRreg c }] } } := by
  rw [servedWith, if_neg (by decide)]
  split
  next => exact if_neg hx
  next h => exact absurd (h.symm.trans hop) (by decide)
  next h => exact absurd (h.symm.trans hop) (by decide)
  next h => exact absurd (h.symm.trans hop) (by decide)
  next h => exact absurd (h.symm.trans hop) (by decide)
  next h1 h2 h3 h4 h8 => exact absurd hop h1
theorem servedWith_puti (hop : cOp c = 2) (hctr : cFlag c fRctren = false) (h8 : cLreg c ≤ 8) : servedWith c 0 pa m s = 
    reply m stOk 0 0 (agentWrite m.tc.toNat pa (bytesOfNat (cX c) (cLreg c)) s) := by
  rw [servedWith, if_neg (by decide)]
  split
  next h => exact absurd (h.symm.trans hop) (by decide)
  next => rw [advanceRctr, hctr, if_neg Bool.false_ne_true, putiSize_eq (by omega)]
  next h => exact absurd (h.symm.trans hop) (by decide)
  next h => exact absurd (h.symm.trans hop) (by decide)
  next h => exact absurd (h.symm.trans hop) (by decide)
  next h1 h2 h3 h4 h8 => exact absurd hop h2
theorem servedWith_get (hop : cOp c = 3) : servedWith c 0 pa m s = answerGet c m (agentRead m.tc.toNat pa (cX c) s) := by
  rw [servedWith, if_neg (by decide)]
  split
  next h => exact absurd (h.symm.trans hop) (by decide)
  next h => exact absurd (h.symm.trans hop) (by decide)
  next => rfl
  next h => exact absurd (h.symm.trans hop) (by decide)
  next h => exact absurd (h.symm.trans hop) (by decide)
  next h1 h2 h3 h4 h8 => exact absurd hop h3
theorem servedWith_amo (hop : cOp c = 4) : servedWith c 0 pa m s = answerAmo c m (amoDo c pa s) := by
  rw [servedWith, if_neg (by decide)]
  split
  next h => exact absurd (h.symm.trans hop) (by decide)
  next h => exact absurd (h.symm.trans hop) (by decide)
  next h => exact absurd (h.symm.trans hop) (by decide)
  next => rfl
  next h => exact absurd (h.symm.trans hop) (by decide)
  next h1 h2 h3 h4 h8 => exact absurd hop h4
theorem servedWith_ctradd (hop : cOp c = 8) : servedWith c 0 pa m s = reply m stOk 0 0 (advanceCtr (cRctr c) (BitVec.ofNat 64 (cX c)) s) := by
  rw [servedWith, if_neg (by decide)]
  split
  next h => exact absurd (h.symm.trans hop) (by decide)
  next h => exact absurd (h.symm.trans hop) (by decide)
  next h => exact absurd (h.symm.trans hop) (by decide)
  next h => exact absurd (h.symm.trans hop) (by decide)
  next => rfl
  next h1 h2 h3 h4 h8 => exact absurd hop h8
end
theorem serve_put (hop : cOp (carried m) = 1) (hx : cX (carried m) ≠ 0) : serveCommand m s =
    { s with office := { s.office with serving := s.office.serving ++
      [{ src := m.src.toNat, tid := m.tid, cmd := carried m, left := cX (carried m), region := cRreg (carried m) }] } } := by
  rw [serveCommand_runs hrun hcodes, servedWith_put hop hx]
section
variable (hctr : cFlag (carried m) fRctren = false)
include hctr
theorem serve_puti (hop : cOp (carried m) = 2) (h8 : cLreg (carried m) ≤ 8) (hc : Clear s (placed s m) (cLreg (carried m))) :
    HoldsBytes (serveCommand m s) (placed s m) (cLreg (carried m)) (cX (carried m)) ∧
    SameBytesBut (placed s m) (cLreg (carried m)) s (serveCommand m s) ∧ (serveCommand m s).office = s.office := by
  have hlen : (bytesOfNat (cX (carried m)) (cLreg (carried m))).length = cLreg (carried m) := length_bytesOfNat ..
  obtain ⟨hacc, hbytes⟩ := agentWrite_clear m.tc.toNat (bs := bytesOfNat (cX (carried m)) (cLreg (carried m))) (by rw [hlen]; exact hc)
  have hall : (serveCommand m s).office = s.office ∧
      (serveCommand m s).mem.bytes = putBytes (bytesOfNat (cX (carried m)) (cLreg (carried m))) (placed s m) s.mem.bytes := by
    rw [serveCommand_runs hrun hcodes, servedWith_puti hop hctr h8]
    obtain ⟨hoffice, hmem⟩ := sameStore_reply (m := m) stOk 0 0 (agentWrite m.tc.toNat (placed s m) (bytesOfNat (cX (carried m)) (cLreg (carried m))) s)
    exact ⟨hoffice.trans hacc.office, (congrArg MemSt.bytes hmem).trans hbytes⟩
  exact ⟨holdsBytes_of_putNat hall.2, sameBytesBut_of_putBytes hall.2 hlen, hall.1⟩
theorem serve_get (hop : cOp (carried m) = 3) (hc : Clear s (placed s m) (cX (carried m))) :
    (serveCommand m s).office = s.office ∧ SameBytes s (serveCommand m s) := by
  obtain ⟨-, -, hacc, hbytes⟩ := agentRead_clear m.tc.toNat hc
  rw [serveCommand_runs hrun hcodes, servedWith_get hop]
  generalize agentRead m.tc.toNat (placed s m) (cX (carried m)) s = r at hacc hbytes ⊢
  obtain ⟨hoffice, hmem⟩ := sameStore_answerGet (m := m) hctr r
  exact ⟨hoffice.trans hacc.office, sameBytes_of_bytes ((congrArg MemSt.bytes hmem).trans hbytes)⟩
theorem serve_amo (hop : cOp (carried m) = 4) (hwide : 256 ≤ cLreg (carried m)) (hlt : cLreg (carried m) < 512) (hc : Clear s (placed s m) 8) :
    HoldsBytes (serveCommand m s) (placed s m) 8 (amoOp (amoCode (natBits (cLreg (carried m)) 3 0)) (BitVec.ofNat 64 (readNat s (placed s m) 8))
      (BitVec.ofNat 64 (cLoff (carried m))) (BitVec.ofNat 64 (cX (carried m)))).toNat ∧
    SameBytesBut (placed s m) 8 s (serveCommand m s) ∧ (serveCommand m s).office = s.office := by
  rw [serveCommand_runs hrun hcodes, servedWith_amo hop]
  obtain ⟨v, t, hdo, hnew, hsame⟩ := amoDo_clear hwide hlt hc
  generalize placed s m = pa at *
  rw [hdo]
  obtain ⟨hoffice, hmem⟩ := sameStore_answerAmo (m := m) hctr (stOk, false, v, t)
  have hbytes := (congrArg MemSt.bytes hmem).trans hnew
  exact ⟨holdsBytes_of_putBytes hbytes, sameBytesBut_of_putBytes hbytes (length_bytesOf ..), hoffice.trans hsame⟩
end
theorem serve_ctradd (hop : cOp (carried m) = 8) (hquiet : NoSlot s (cRctr (carried m))) :
    ctrOf (serveCommand m s) (cRctr (carried m)) = ctrOf s (cRctr (carried m)) + BitVec.ofNat 64 (cX (carried m)) ∧ SameBytes s (serveCommand m s) := by
  rw [serveCommand_runs hrun hcodes, servedWith_ctradd hop, advanceCtr, fireCtr_noSlot (by exact hquiet)]
  obtain ⟨hoffice, hmem⟩ := sameStore_reply (m := m) stOk 0 0 (setCtr (cRctr (carried m)) (ctrOf s (cRctr (carried m)) + BitVec.ofNat 64 (cX (carried m))) s)
  exact ⟨by rw [ctrOf, hoffice]; exact (ctrOf_setCtr ..).trans (if_pos rfl), sameBytes_of_mem hmem⟩
end

/-! ### Data that arrives -/

/-- The first bytes of a masked write whose mask selects them all. -/
theorem writeMasked_full (tc : Nat) {pa : Nat} (v : Vec) (hc : Clear s pa 64) :
    Accessed s (writeMasked tc pa (2 ^ 64 - 1) false v s) ∧ (writeMasked tc pa (2 ^ 64 - 1) false v s).mem.bytes = putBytes (bytesOfNat v.toNat 64) pa s.mem.bytes := by
  have key : ∀ n, n ≤ 64 → let t := (List.range n).foldl (fun a i => if (2 ^ 64 - 1).testBit i then
        let a1 := agentWrite tc (pa + i) [BitVec.ofNat 8 (fld v (8 * i + 7) (8 * i))] a
        if false && !poisoned a1 (lineOf (pa + i)) then poisonLine (lineOf (pa + i)) a1 else a1 else a) s
      Accessed s t ∧ t.mem.bytes = putBytes ((List.range n).map fun i => BitVec.ofNat 8 (fld v (8 * i + 7) (8 * i))) pa s.mem.bytes := by
    intro n
    induction n with
    | zero => exact fun _ => ⟨.refl s, rfl⟩
    | succ n ih =>
      intro hn
      obtain ⟨hacc, hbytes⟩ := ih (by omega)
      rw [List.range_succ, List.foldl_append, List.map_append]
      generalize (List.range n).foldl _ s = a at hacc hbytes ⊢
      obtain ⟨hacc', hbytes'⟩ := agentWrite_clear tc (pa := pa + n) (bs := [BitVec.ofNat 8 (fld v (8 * n + 7) (8 * n))])
        (hacc.clear (hc.mono (pa' := pa + n) (n' := 1) (by omega) (by omega)))
      have hbit : (2 ^ 64 - 1).testBit n = true := by
        rw [Nat.testBit_two_pow_sub_one]
        exact decide_eq_true hn
      rw [List.foldl_cons, List.foldl_nil, hbit, if_pos rfl]
      simp only [Bool.false_and, Bool.false_eq_true, if_false]
      refine ⟨hacc.trans hacc', hbytes'.trans ?_⟩
      rw [putBytes_append, List.length_map, List.length_range, hbytes]
      rfl
  have hlist : ((List.range 64).map fun i => BitVec.ofNat 8 (fld v (8 * i + 7) (8 * i))) = bytesOfNat v.toNat 64 := by
    refine List.ext_getElem (by simp) fun i h1 h2 => ?_
    rw [List.getElem_map, List.getElem_range, getElem_bytesOfNat, fld, natBits, Nat.pow_mul]
    refine BitVec.eq_of_toNat_eq ?_
    simp only [BitVec.toNat_ofNat]
    rw [show 8 * i + 7 - 8 * i + 1 = 8 by omega, show (2 : Nat) ^ 8 = 256 from rfl]
    omega
  have h64 := key 64 (Nat.le_refl 64)
  rw [hlist] at h64
  exact h64

/-- The data of a PUT of another device, `s1` the device once it is written (14 R356). -/
def dataServed (x : Serving) (m : Msg) (taken : Bool) (n : Nat) (poison : Bool) (s1 s : State) : State :=
  let left := x.left - n
  if taken then reply m stPriv 0 0 { s with office := { s.office with serving := s.office.serving.erase x } }
  else if left = 0 then
    reply m stOk (2 * (x.poison || poison).toNat) 0 (advanceRctr x.cmd { s1 with office := { s1.office with serving := s1.office.serving.erase x } })
  else { s1 with office := { s1.office with serving := s1.office.serving.replace x { x with left := left, poison := x.poison || poison } } }
theorem serveData_eq {x : Serving} (hfind : (s.office.serving.find? fun x => x.src == m.src.toNat && x.tid == m.tid) = some x) (hop : cOp x.cmd ≠ 16) :
    serveData m s = dataServed x m (pagesTaken s ((regionOf s (cRreg x.cmd)).base + cRoff x.cmd + dataOff m) m)
      (countOnes (BitVec.ofNat 64 (dataMask m)) 64) (dataPoison m)
      (writeMasked m.tc.toNat ((regionOf s (cRreg x.cmd)).base + cRoff x.cmd + dataOff m) (dataMask m) (dataPoison m) (dataVec m) s) s := by
  unfold serveData
  rw [hfind]
  exact if_neg hop
theorem countOnes_full : countOnes (BitVec.ofNat 64 (2 ^ 64 - 1)) 64 = 64 := by decide
theorem serveData_put {x : Serving} (hfind : (s.office.serving.find? fun x => x.src == m.src.toNat && x.tid == m.tid) = some x) (hop : cOp x.cmd = 1)
    (hleft : 64 < x.left) (hmask : dataMask m = 2 ^ 64 - 1) (hsound : dataPoison m = false) :
    let pa := (regionOf s (cRreg x.cmd)).base + cRoff x.cmd + dataOff m
    (pagesTaken s pa m = false → Clear s pa 64 → HoldsBytes (serveData m s) pa 64 (dataVec m).toNat ∧ SameBytesBut pa 64 s (serveData m s) ∧
      (∀ q, port (serveData m s) q = port s q) ∧ (serveData m s).office.serving = s.office.serving.replace x { x with left := x.left - 64 }) ∧
    (pagesTaken s pa m = true → SameBytes s (serveData m s) ∧ (serveData m s).office.serving = s.office.serving.erase x) := by
  intro pa
  rw [serveData_eq hfind (by rw [hop]; decide), hmask, hsound, countOnes_full]
  refine ⟨fun hopen hc => ?_, fun htaken => ?_⟩
  · obtain ⟨hacc, hbytes⟩ := writeMasked_full m.tc.toNat (dataVec m) hc
    rw [show pagesTaken s ((regionOf s (cRreg x.cmd)).base + cRoff x.cmd + dataOff m) m = false from hopen]
    generalize writeMasked m.tc.toNat pa (2 ^ 64 - 1) false (dataVec m) s = v at hacc hbytes ⊢
    have hall : dataServed x m false 64 false v s =
        { v with office := { v.office with serving := v.office.serving.replace x { x with left := x.left - 64 } } } := by
      unfold dataServed
      extract_lets left
      rw [if_neg Bool.false_ne_true, if_neg (show ¬x.left - 64 = 0 by omega), Bool.or_false]
    rw [hall]
    refine ⟨holdsBytes_of_putNat (s := s) hbytes, sameBytesBut_of_putBytes (s := s) hbytes (length_bytesOfNat ..), fun q => ?_, ?_⟩
    · show smGet portDef v.links.ports q = _
      rw [hacc.links]
      rfl
    · show v.office.serving.replace x _ = _
      rw [hacc.office]
  · rw [show pagesTaken s ((regionOf s (cRreg x.cmd)).base + cRoff x.cmd + dataOff m) m = true from htaken, dataServed]
    obtain ⟨hoffice, hmem⟩ := sameStore_reply (m := m) stPriv 0 0 { s with office := { s.office with serving := s.office.serving.erase x } }
    exact ⟨sameBytes_of_mem hmem, congrArg Office.serving hoffice⟩

/-- Data read for a GET, `s1` the device once it is written (14 R358). -/
def dataTaken (r : Running) (taken : Bool) (n : Nat) (poison : Bool) (s1 : State) : State :=
  let y := { r with left := r.left - n, poison := r.poison || poison, status := if taken then stPriv else r.status }
  { s1 with office := { s1.office with cmds := s1.office.cmds.replace r y } }
theorem takeReadData_eq {r : Running} (hfind : (s.office.cmds.find? fun r => r.tid == some m.tid && cRdev r.cmd == m.src.toNat) = some r) :
    let pa := (regionOf s (cLreg r.cmd)).base + cLoff r.cmd + dataOff m
    takeReadData m s = dataTaken r (pagesTaken s pa m) (countOnes (BitVec.ofNat 64 (dataMask m)) 64) (dataPoison m)
      (if pagesTaken s pa m then s else writeMasked m.tc.toNat pa (dataMask m) (dataPoison m) (dataVec m) s) := by
  intro pa
  unfold takeReadData
  rw [hfind]
  rfl
theorem takeReadData_get {r : Running} (hfind : (s.office.cmds.find? fun r => r.tid == some m.tid && cRdev r.cmd == m.src.toNat) = some r)
    (hmask : dataMask m = 2 ^ 64 - 1) (hsound : dataPoison m = false) :
    let pa := (regionOf s (cLreg r.cmd)).base + cLoff r.cmd + dataOff m
    (pagesTaken s pa m = false → Clear s pa 64 → HoldsBytes (takeReadData m s) pa 64 (dataVec m).toNat ∧ SameBytesBut pa 64 s (takeReadData m s) ∧
      (∀ q, port (takeReadData m s) q = port s q) ∧ (takeReadData m s).office.cmds = s.office.cmds.replace r { r with left := r.left - 64 }) ∧
    (pagesTaken s pa m = true → SameBytes s (takeReadData m s) ∧ (∀ q, port (takeReadData m s) q = port s q) ∧
      (takeReadData m s).office.cmds = s.office.cmds.replace r { r with left := r.left - 64, status := 2 }) := by
  intro pa
  rw [takeReadData_eq hfind, hmask, hsound, countOnes_full]
  refine ⟨fun hopen hc => ?_, fun htaken => ?_⟩
  · obtain ⟨hacc, hbytes⟩ := writeMasked_full m.tc.toNat (dataVec m) hc
    rw [show pagesTaken s ((regionOf s (cLreg r.cmd)).base + cLoff r.cmd + dataOff m) m = false from hopen, if_neg Bool.false_ne_true]
    generalize writeMasked m.tc.toNat pa (2 ^ 64 - 1) false (dataVec m) s = v at hacc hbytes ⊢
    have hall : dataTaken r false 64 false v = { v with office := { v.office with cmds := v.office.cmds.replace r { r with left := r.left - 64 } } } := by
      rw [dataTaken, if_neg Bool.false_ne_true, Bool.or_false]
    rw [hall]
    refine ⟨holdsBytes_of_putNat (s := s) hbytes, sameBytesBut_of_putBytes (s := s) hbytes (length_bytesOfNat ..), fun q => ?_, ?_⟩
    · show smGet portDef v.links.ports q = _
      rw [hacc.links]
      rfl
    · show v.office.cmds.replace r _ = _
      rw [hacc.office]
  · rw [show pagesTaken s ((regionOf s (cLreg r.cmd)).base + cLoff r.cmd + dataOff m) m = true from htaken, if_pos rfl, dataTaken, Bool.or_false, if_pos rfl]
    exact ⟨fun _ => rfl, fun _ => rfl, rfl⟩

end Sys2Proof.Machine
end

section
/-! Frames, credits and routing (15 R376 to R390). -/

namespace Sys2Proof.Machine
variable {s t u : State} {m : Msg} {p : Fin 8}

/-! ### What a frame does -/

/-- A frame arrives on a port in service, good and in order. -/
structure InOrder (p : Fin 8) (fseq : BitVec 8) (good : Bool) (s : State) : Prop where
  up : (port s p.val).state = .up
  good : good = true
  next : fseq = (port s p.val).rxSeq + 1
section
variable {fseq aseq : BitVec 8} {good coh ok : Bool} {n : Nat} {k : BitVec 2} (h : InOrder p fseq good s)
include h
theorem frame_takes {x : Port} (hcoh : (port s p.val).join.state ≠ .coherent ∨ coh = true) (hj : x.join = (port s p.val).join)
    (hack : OnlyPort p.val x s (takeAck p.val aseq k ok (frameGot p.val n fseq s))) :
    Completes (.frameReceive p fseq aseq k coh good n ok) s (OnlyPort p.val x s) := by
  refine ⟨_, rfl, ?_⟩
  rw [frameArrives_whole h.up h.good h.next (by rw [hack.1, hj]; exact hcoh)]
  exact hack
/-- A third fast retrain that fails within a second takes the port out of service. -/
theorem frame_out (hcoh : (port s p.val).join.state ≠ .coherent ∨ coh = true) (hj : (port s p.val).join.state = .non)
    (hlimit : fld (regAct s (vxBase p.val + 0x14)) 15 8 ≤ retriesAfter aseq (gotPort fseq (port s p.val)))
    (hthree : 3 ≤ (failsAt s (port s p.val)).length) (hw : s.links.waiting = []) (hc : s.links.cohOut = []) :
    Completes (.frameReceive p fseq aseq 2 coh good n false) s fun t =>
      (port t p.val).state = .out ∧ (∃ e ∈ t.resil.log, e.record.take 2 = bytesOfNat 0x201 2) ∧ SameBytes s t := by
  have hnack : takeAck p.val aseq 2 false (frameGot p.val n fseq s) = fastRetrain p.val false (nacked p.val aseq (frameGot p.val n fseq s)) :=
    takeAck_limit only_frameGot hlimit
  obtain ⟨hstate, hnon, hlog, hbytes⟩ := fastRetrain_out (only_nacked (aseq := aseq) (only_frameGot (s := s) (p := p.val) (n := n) (fseq := fseq)))
    hthree (show (port s p.val).state ≠ .out by rw [h.up]; decide) hj hw hc
  refine ⟨_, rfl, ?_⟩
  rw [frameArrives_whole h.up h.good h.next (by rw [hnack, hnon]; exact .inl (by decide)), hnack]
  exact ⟨hstate, hlog, hbytes⟩
theorem frame_splits (hj : (port s p.val).join.state = .coherent) (hawake : (port s p.val).sleepAgreed = false)
    (hno : ∀ q ∈ s.mem.homeQ, ∀ x ∈ q.pending, x.1 ≠ devOwner (port s p.val).join.peerSlot) :
    Completes (.frameReceive p fseq aseq 1 false good n ok) s fun t => (port t p.val).join.state = .fenced ∧
      t.links.peers.getLsbD (port s p.val).join.peerSlot = false ∧ Newest 0xD t ∧ (∀ m ∈ t.links.cohOut, m.slot ≠ (port s p.val).join.peerSlot) ∧ SameBytes s t := by
  have hack : OnlyPort p.val (ackedPort aseq (gotPort fseq (port s p.val))) s (takeAck p.val aseq 1 ok (frameGot p.val n fseq s)) :=
    takeAck_awake only_frameGot (.inl hawake)
  obtain ⟨hport, -, hmem, -, -⟩ := hack
  refine ⟨_, rfl, ?_⟩
  rw [frameArrives_next h.up h.good h.next]
  generalize takeAck p.val aseq 1 ok (frameGot p.val n fseq s) = v at hport hmem
  have hjoin : (port v p.val).join = (port s p.val).join := by rw [hport]; rfl
  obtain ⟨hfenced, hpeers, hnew, hquiet, hbytes⟩ := splitPair_coherent (s := v) (p := p.val) (trigger := 0) (by rw [hjoin]; exact hj) (by rw [hjoin, hmem]; exact hno)
  rw [hjoin] at hpeers hquiet
  dsimp only
  rw [if_pos ⟨by rw [hjoin]; exact hj, rfl⟩]
  exact ⟨hfenced, hpeers, hnew, hquiet, fun a => (hbytes a).trans (by rw [readByte, readByte, hmem])⟩
end

theorem credit_returns {vc : Fin 10} {n : Nat} (hup : (port s p.val).state = .up) (hw : s.links.waiting = []) (hc : s.links.cohOut = []) :
    Completes (.credit p vc n) s fun t => OnlyPort p.val { port s p.val with credits := (port t p.val).credits } s t ∧
      ∀ v, creditsOf (port t p.val) v =
        if v = vc.val then min (creditInit v) (creditsOf (port s p.val) v + n) else creditsOf (port s p.val) v := by
  refine ⟨_, if_pos (by simp [portUp, hup]), ?_⟩
  have hset : OnlyPort p.val (setCredits (port s p.val) vc.val (min (creditInit vc.val) (creditsOf (port s p.val) vc.val + n))) s
      (updPort p.val (fun x => setCredits x vc.val (min (creditInit vc.val) (creditsOf x vc.val + n))) s) := OnlyPort.setPort ..
  have hall := hset.rerouted hw hc
  generalize reroute _ = t at hall ⊢
  obtain ⟨hport, hrest⟩ := hall
  refine ⟨⟨hport.trans (by rw [hport]; rfl), hrest⟩, fun v => ?_⟩
  rw [hport, creditsOf_setCredits]
  split
  next hv => rw [hv]
  next => rfl

theorem escape_sends {n ep : Nat} (hn : s.links.waiting[n]? = some (8, m)) (hdst : m.dst.toNat ≠ devNum s) (hhops : m.hops < fld (actFor s m 0x4080000) 20 16)
    (hbit : (routeEntry s m).getLsbD 3 = true) (hep : fld (routeEntry s m) 2 0 = ep)
    (hfull : ∀ q, q < 8 → (routeEntry s m).getLsbD (8 + q) = true → canSend s q m = false)
    (hcan : canSend s ep { m with esc := true } = true) (hawake : (port s ep).pwr ≠ .listen) : Completes (.escapeWaitExpiry n) s fun t =>
      t.links.waiting = s.links.waiting.eraseIdx n ∧
      (port t ep).retryBuf = (framed (port s ep) [{ m with esc := true, hops := m.hops + 1 }]).retryBuf ∧
      creditsOf (port t ep) (m.mc.toNat - 1 + 5) = creditsOf (port s ep) (m.mc.toNat - 1 + 5) - 1 ∧ (∀ q, q ≠ ep → port t q = port s q) ∧ SameBytes s t := by
  have hexec : exec (.escapeWaitExpiry n) s = .next (forwardMsg true 8 m { s with links := { s.links with waiting := s.links.waiting.eraseIdx n } }) := by
    show execEscapeWaitExpiry n s = _
    rw [execEscapeWaitExpiry, hn]
  generalize hv : ({ s with links := { s.links with waiting := s.links.waiting.eraseIdx n } } : State) = v at hexec
  have hports (q : Nat) : port v q = port s q := by rw [← hv]; rfl
  have hroute : route true m v = (.sent, transmit ep { m with esc := true } v) := by
    rw [← hv]
    exact route_escape (s := { s with links := { s.links with waiting := s.links.waiting.eraseIdx n } }) hdst hhops hbit hep hfull hcan hawake
  have hsent : forwardMsg true 8 m v = transmit ep { m with esc := true } v := by
    unfold forwardMsg
    rw [hroute]
    exact if_neg (by omega)
  refine ⟨_, hexec, ?_⟩
  rw [hsent]
  refine ⟨(waiting_transmit ..).trans (by rw [← hv]), ?_, ?_, fun q hq => ?_, sameBytes_of_mem ((sameStore_transmit ..).2.trans (by rw [← hv]))⟩
  · rw [port_transmit, if_pos rfl, hports]
    rfl
  · rw [port_transmit, if_pos rfl, hports]
    exact (creditsOf_setCredits ..).trans (if_pos rfl)
  · rw [port_transmit, if_neg hq, hports]

/-! ### Messages here -/

theorem takeResponse_ends {r : Running} (hfind : (s.office.cmds.find? fun r => r.tid == some m.tid && cRdev r.cmd == m.src.toNat) = some r) :
    takeResponse m s = { s with office := { s.office with cmds := s.office.cmds.replace r { r with
      tid := none, status := if r.status = 0 then fld (m.chunks.headD 0) 7 0 else r.status, poison := r.poison || (m.chunks.headD 0).getLsbD 9,
      value := BitVec.ofNat 64 (fld (m.chunks.headD 0) 127 64) } } } := by
  unfold takeResponse
  rw [hfind]
  rfl
/-- A RESYNC for a port whose peer has received every frame. -/
theorem resyncHere_quiet {q : Nat} (hq : q < 8) (hdown : (port s q).state ≠ .up) (hvalid : (port s q).peerValid = true) (hdev : (port s q).peerDev = m.src.toNat)
    (hport : (port s q).peerPort = fld m.kspec 10 8) (hfirst : ∀ r, r < q → (port s r).peerValid = true → (port s r).peerDev ≠ m.src.toNat)
    (hnone : framesAfter (m.kspec.setWidth 8) (port s q).retryBuf = []) :
    resyncHere m s = setPort q { port s q with retryBuf := [], resyncWait := false } s := by
  have hfind : ((List.range 8).find? fun p => (port s p).peerValid && (port s p).peerDev == m.src.toNat && (port s p).peerPort == fld m.kspec 10 8) = some q := by
    rw [List.find?_range_eq_some]
    refine ⟨by simp [hvalid, hdev, hport], List.mem_range.2 hq, fun r hr => ?_⟩
    by_cases hv : (port s r).peerValid = true
    · simp [hfirst r hr hv]
    · simp [hv]
  unfold resyncHere
  rw [hfind]
  dsimp only
  rw [show portUp s q = false from decide_eq_false hdown, if_neg Bool.false_ne_true, resync, hnone]
  rfl

theorem sameBytes_stored (h : SameBytes s u) (h' : SameStore u t) : SameBytes s t := fun a => (sameBytes_of_mem h'.2 a).trans (h a)
theorem noticed_sameBytes (h : Noticed s u) : SameBytes s u := sameBytes_of_mem h.store.2

/-! ### The way on to another device -/

theorem regs_transmit (q : Nat) (m : Msg) (s : State) : (transmit q m s).ctl.regs = s.ctl.regs := by
  unfold transmit
  extract_lets po s1 s2
  split <;> rfl
theorem regs_woken (c : Prop) [Decidable c] (q : Nat) (s : State) : (if c then retrained q s else s).ctl.regs = s.ctl.regs := by
  split <;> rfl
theorem regs_route (expired : Bool) (m : Msg) (s : State) : (route expired m s).2.ctl.regs = s.ctl.regs := by
  unfold route
  extract_lets dst
  split
  · rfl
  · split
    · obtain ⟨_, _, _, h⟩ := logNow_logFault (s := s) 0x204 5 uDevice none dst 0
      rw [h]
    · split
      · rfl
      · split
        · exact (regs_transmit ..).trans (regs_woken ..)
        · split
          · rfl
          · split
            · exact (regs_transmit ..).trans (regs_woken ..)
            · exact regs_woken ..
theorem devNum_route (expired : Bool) (m : Msg) (s : State) : devNum (route expired m s).2 = devNum s := by
  rw [devNum, rfld, reg, regs_route]
  rfl
/-- What becomes of a message for another device, by what the router makes of it (15 R387, R388). -/
theorem way_on {i : Instr} {k : Nat} {here : Msg → State → State} (hexec : exec i s = .next (arrive p.val m k here s)) :
    let x := injectMsg p.val m (latchWake wakeLink s)
    let r := route false x.1 x.2
    ((port s p.val).state ≠ .up ∨ (port s p.val).discarding = true ∨ m.kind.toNat ≠ k → exec i s = .next s) ∧
    ((port s p.val).state = .up → (port s p.val).discarding = false → m.kind.toNat = k → ¬m.dst.toNat = devNum s →
      (r.1 = .wait → Completes i s fun t => t.links = { r.2.links with waiting := r.2.links.waiting ++ [(p.val, x.1)] } ∧
        t.office = s.office ∧ SameBytes s t) ∧
      (r.1 = .sent → Completes i s fun t => t.links = (giveCredit p.val m r.2).links ∧ t.office = s.office ∧ SameBytes s t) ∧
      (r.1 = .loop ∨ r.1 = .unreachable →
        (k ≠ 1 → k ≠ 4 → Completes i s fun t => t.links = (giveCredit p.val m r.2).links ∧ t.office = s.office ∧ SameBytes s t) ∧
        ∀ a : Msg, m.src.toNat ≠ devNum s →
          (k = 1 ∧ a = { kind := 3, mc := 2, tc := m.tc, tid := m.tid, dst := m.src, kspec := 6 } ∨
            k = 4 ∧ a = respMsg m.src.toNat m.tid m.tc 9 0 0) →
          Completes i s fun t => t.links = (giveCredit p.val m (sendMsg { a with ordered := m.ordered } r.2).2).links ∧ t.office = s.office ∧
            SameBytes s t)) := by
  have hmsg := injectMsg_msg p.val m (latchWake wakeLink s)
  have hnoticed := noticed_injectMsg p.val m s
  intro x r
  have hstore : SameStore s r.2 := hnoticed.store.trans (sameStore_route ..)
  have hdev : devNum r.2 = devNum s := by
    refine (devNum_route ..).trans ?_
    obtain ⟨_, _, _, _, h⟩ := hnoticed
    rw [h]
    rfl
  refine ⟨fun h => by rw [hexec, arrive_refused h], fun hup hdisc hkind hdst => ?_⟩
  have hon : exec i s = .next (forwardMsg false p.val x.1 x.2) := by rw [hexec, arrive_on hup hdisc hkind hdst]
  obtain ⟨o, v, hx⟩ := hmsg
  have hxm : x.1 = { m with init := o, isOver := v } := hx
  refine ⟨fun h => ⟨_, hon, ?_⟩, fun h => ⟨_, hon, ?_⟩, fun h => ⟨fun h1 h4 => ⟨_, hon, ?_⟩, fun a hsrc ha => ⟨_, hon, ?_⟩⟩⟩
  · rw [forwardMsg_wait h]
    exact ⟨rfl, hstore.1, sameBytes_of_mem hstore.2⟩
  · rw [forwardMsg_sent ⟨o, v, hxm⟩ h]
    obtain ⟨hoffice, hmem⟩ := hstore.trans (sameStore_giveCredit p.val m r.2)
    exact ⟨rfl, hoffice, sameBytes_of_mem hmem⟩
  · rw [forwardMsg_refused ⟨o, v, hxm⟩ h, refuseMsg_silent (by rw [hxm]; exact hkind ▸ h1) (by rw [hxm]; exact hkind ▸ h4)]
    obtain ⟨hoffice, hmem⟩ := hstore.trans (sameStore_giveCredit p.val m r.2)
    exact ⟨rfl, hoffice, sameBytes_of_mem hmem⟩
  · obtain ⟨hlinks, hanswered⟩ := refuseMsg_answers (p := p.val) (m := x.1) (s := r.2) (a := a) (by rw [hxm, hdev]; exact hsrc) (by rw [hxm, ← hkind] at *; exact ha)
    rw [forwardMsg_refused ⟨o, v, hxm⟩ h]
    obtain ⟨hoffice, hmem⟩ := (hstore.trans hanswered).trans (sameStore_giveCredit p.val m _)
    exact ⟨links_giveCredit (hlinks.trans (by rw [hxm])), hoffice, sameBytes_of_mem hmem⟩

/-! ### Letters, commands and data that end here -/

theorem letter_taken (h : Arrives p.val m 1 s) (ht : TakesLetters s (fld (vecOfChunks m.chunks) 15 0)) (h1 : 2 ^ 40 ≤ nowNs s) (h2 : nowNs s < 2 ^ 63) :
    Completes (.letter p m) s fun t => ∃ pm : Word64,
      (queueOf t (fld (vecOfChunks m.chunks) 15 0)).burst =
        (queueOf s (fld (vecOfChunks m.chunks) 15 0)).burst ++ [{ data := vecOfChunks m.chunks, postmark := pm }] ∧
      pm.setWidth 40 = m.kspec ∧ nowNs s ≤ pm.toNat + 2 ^ 39 ∧ pm.toNat ≤ nowNs s + 2 ^ 39 ∧ SameBytes s t := by
  refine completes_here h rfl fun u hu => ?_
  have hstore := sameStore_giveCredit p.val m (letterHere m u)
  have hu' : TakesLetters u (fld (vecOfChunks m.chunks) 15 0) ∧ nowNs u = nowNs s ∧ SameBytes s u := by
    refine ⟨?_, ?_, noticed_sameBytes hu⟩
    · obtain ⟨_, _, _, _, rfl⟩ := hu
      exact ⟨ht.running, ht.awake, ht.inService, ht.active, ht.kind, ht.unspilled, ht.room, ht.uncounted, ht.silent⟩
    · obtain ⟨_, _, _, _, rfl⟩ := hu
      rfl
  obtain ⟨htu, hnow, hbytes⟩ := hu'
  obtain ⟨pm, hburst, hpm, hlo, hhi, hsame⟩ := letterHere_taken (m := m) htu (hnow ▸ h1) (hnow ▸ h2)
  rw [hnow] at hlo hhi
  refine ⟨pm, ?_, hpm, hlo, hhi, sameBytes_stored (fun a => (hsame a).trans (hbytes a)) hstore⟩
  rw [queueOf, hstore.1]
  refine hburst.trans ?_
  rw [queueOf, hu.store.1]
  rfl
theorem letterAck_frees (h : Arrives p.val m 2 s) (hwf : smWf senderDef s.office.senders = true) : Completes (.letterAck p m) s fun t =>
    port t p.val = backPort p.val m s ∧ SameBytes s t ∧
    ∀ k, sendersOf t k = (sendersOf s k).filter fun x => !(x.tid == some m.tid && fld x.dest 31 16 == m.src.toNat) := by
  refine completes_here h rfl fun u hu => ?_
  have hstore := sameStore_giveCredit p.val m (letterAcked m u)
  refine ⟨port_back h (hu.port_eq _), sameBytes_of_mem (hstore.2.trans hu.store.2), fun k => ?_⟩
  rw [sendersOf, hstore.1]
  refine (sendersOf_letterAcked (by rw [hu.store.1]; exact hwf) k).trans ?_
  rw [sendersOf, hu.store.1]
  rfl
theorem letterNak_keeps (h : Arrives p.val m 3 s) {k : Nat} {sl : SendSlot} (hof : letterOf m s = some (k, sl)) :
    (fld m.kspec 7 0 = 0 → Completes (.letterNak p m) s fun t => port t p.val = backPort p.val m s ∧ SameBytes s t ∧
      sendersOf t k = (sendersOf s k).replace sl { sl with tid := none, naked := true, attempts := sl.attempts + 1 }) ∧
    (fld m.kspec 7 0 ≠ 0 → sl.letter.data.getLsbD 52 = true → Completes (.letterNak p m) s fun t => port t p.val = backPort p.val m s ∧ SameBytes s t ∧
      sendersOf t k = (sendersOf s k).erase sl) := by
  have hofu {u : State} (hu : Noticed s u) : letterOf m u = some (k, sl) ∧ sendersOf u k = sendersOf s k := by
    refine ⟨?_, by rw [sendersOf, hu.store.1]; rfl⟩
    rw [letterOf, hu.store.1]
    exact hof
  refine ⟨fun hzero => completes_here h rfl fun u hu => ?_, fun hsome hsilent => completes_here h rfl fun u hu => ?_⟩
  · obtain ⟨hofu, hsenders⟩ := hofu hu
    have hnak : letterNaked m m.src.toNat u = setSender k ((sendersOf u k).replace sl { sl with tid := none, naked := true, attempts := sl.attempts + 1 }) u := by
      unfold letterNaked
      rw [hofu]
      exact if_pos hzero
    have hstore := sameStore_giveCredit p.val m (letterNaked m m.src.toNat u)
    refine ⟨port_back h (by rw [hnak]; exact hu.port_eq _), sameBytes_stored (by rw [hnak]; exact fun a => noticed_sameBytes hu a) hstore, ?_⟩
    rw [sendersOf, hstore.1, hnak]
    exact (sendersOf_setSender ..).trans (by rw [hsenders])
  · obtain ⟨hofu, hsenders⟩ := hofu hu
    have hnak : letterNaked m m.src.toNat u = setSender k ((sendersOf u k).erase sl) u := by
      unfold letterNaked
      rw [hofu]
      dsimp only
      rw [if_neg hsome, report_none _ _ _ _ _ (.inr hsilent)]
    have hstore := sameStore_giveCredit p.val m (letterNaked m m.src.toNat u)
    refine ⟨port_back h (by rw [hnak]; exact hu.port_eq _), sameBytes_stored (by rw [hnak]; exact fun a => noticed_sameBytes hu a) hstore, ?_⟩
    rw [sendersOf, hstore.1, hnak]
    exact (sendersOf_setSender ..).trans (by rw [hsenders])

section
variable (h : Arrives p.val m 4 s)
include h
theorem command_refused (hstop : s.office.running = false) : Completes (.command p m) s fun t => t.office = s.office ∧ SameBytes s t := by
  refine completes_here h rfl fun u hu => ?_
  have hserve : SameStore u (serveCommand m u) := by
    rw [serveCommand_stopped (by rw [hu.store.1]; exact hstop)]
    exact sameStore_reply ..
  obtain ⟨hoffice, hmem⟩ := (hu.store.trans hserve).trans (sameStore_giveCredit p.val m _)
  exact ⟨hoffice, sameBytes_of_mem hmem⟩
variable (hrun : s.office.running = true) (hcodes : ∀ x ∈ serveCodes s m.src.toNat (carried m), x = 0)
include hrun hcodes
/-- A command without a code is served in a device that has noticed nothing but the arrival. -/
theorem command_served {P : State → Prop} (hP : ∀ u, Noticed s u → u.office.running = true → (∀ x ∈ serveCodes u m.src.toNat (carried m), x = 0) →
    placed u m = placed s m → P (giveCredit p.val m (serveCommand m u))) : Completes (.command p m) s P :=
  completes_here h rfl fun u hu => hP u hu (by rw [hu.store.1]; exact hrun) (by rw [hu.serveCodes_eq]; exact hcodes) (by rw [placed, hu.regionOf_eq]; rfl)
theorem command_put (hop : cOp (carried m) = 1) (hx : cX (carried m) ≠ 0) : Completes (.command p m) s fun t =>
    t.office = { s.office with serving := s.office.serving ++
      [{ src := m.src.toNat, tid := m.tid, cmd := carried m, left := cX (carried m), region := cRreg (carried m) }] } ∧
    port t p.val = backPort p.val m s ∧ SameBytes s t := by
  refine command_served h hrun hcodes fun u hu hrun hcodes _ => ?_
  obtain ⟨hoffice, hmem⟩ := sameStore_giveCredit p.val m (serveCommand m u)
  rw [serve_put hrun hcodes hop hx] at *
  refine ⟨hoffice.trans ?_, port_back h (hu.port_eq _), sameBytes_of_mem (hmem.trans hu.store.2)⟩
  rw [← hu.store.1]
theorem command_puti (hop : cOp (carried m) = 2) (h8 : cLreg (carried m) ≤ 8) (hctr : cFlag (carried m) fRctren = false)
    (hc : Clear s (placed s m) (cLreg (carried m))) : Completes (.command p m) s fun t =>
    HoldsBytes t (placed s m) (cLreg (carried m)) (cX (carried m)) ∧ SameBytesBut (placed s m) (cLreg (carried m)) s t ∧ t.office = s.office := by
  refine command_served h hrun hcodes fun u hu hrun hcodes hplaced => ?_
  obtain ⟨hholds, hbut, hoffice⟩ := serve_puti hrun hcodes hctr hop h8 (by rw [hplaced]; exact hu.clear hc)
  rw [hplaced] at hholds hbut
  have hsame := sameBytes_of_mem (sameStore_giveCredit p.val m (serveCommand m u)).2
  exact ⟨fun i hi => (hsame _).trans (hholds i hi), fun a ha => ((hsame a).trans (hbut a ha)).trans (noticed_sameBytes hu a),
    ((sameStore_giveCredit ..).1.trans hoffice).trans hu.store.1⟩
theorem command_get (hop : cOp (carried m) = 3) (hctr : cFlag (carried m) fRctren = false) (hc : Clear s (placed s m) (cX (carried m))) :
    Completes (.command p m) s fun t => t.office = s.office ∧ SameBytes s t := by
  refine command_served h hrun hcodes fun u hu hrun hcodes hplaced => ?_
  obtain ⟨hoffice, hbytes⟩ := serve_get hrun hcodes hctr hop (by rw [hplaced]; exact hu.clear hc)
  have hstore := sameStore_giveCredit p.val m (serveCommand m u)
  exact ⟨(hstore.1.trans hoffice).trans hu.store.1, sameBytes_stored (fun a => (hbytes a).trans (noticed_sameBytes hu a)) hstore⟩
theorem command_amo (hop : cOp (carried m) = 4) (hwide : 256 ≤ cLreg (carried m)) (hlt : cLreg (carried m) < 512) (hctr : cFlag (carried m) fRctren = false)
    (hc : Clear s (placed s m) 8) : Completes (.command p m) s fun t =>
    HoldsBytes t (placed s m) 8 (amoOp (amoCode (natBits (cLreg (carried m)) 3 0)) (BitVec.ofNat 64 (readNat s (placed s m) 8))
      (BitVec.ofNat 64 (cLoff (carried m))) (BitVec.ofNat 64 (cX (carried m)))).toNat ∧ SameBytesBut (placed s m) 8 s t ∧ t.office = s.office := by
  refine command_served h hrun hcodes fun u hu hrun hcodes hplaced => ?_
  obtain ⟨hholds, hbut, hoffice⟩ := serve_amo hrun hcodes hctr hop hwide hlt (by rw [hplaced]; exact hu.clear hc)
  have hread : readNat u (placed s m) 8 = readNat s (placed s m) 8 := by rw [readNat, readNat, readBytes_congr (congrArg MemSt.bytes hu.store.2)]
  rw [hplaced] at hholds hbut
  rw [hread] at hholds
  have hsame := sameBytes_of_mem (sameStore_giveCredit p.val m (serveCommand m u)).2
  exact ⟨fun i hi => (hsame _).trans (hholds i hi), fun a ha => ((hsame a).trans (hbut a ha)).trans (noticed_sameBytes hu a),
    ((sameStore_giveCredit ..).1.trans hoffice).trans hu.store.1⟩
theorem command_ctradd (hop : cOp (carried m) = 8) (hquiet : NoSlot s (cRctr (carried m))) : Completes (.command p m) s fun t =>
    ctrOf t (cRctr (carried m)) = ctrOf s (cRctr (carried m)) + BitVec.ofNat 64 (cX (carried m)) ∧ SameBytes s t := by
  refine command_served h hrun hcodes fun u hu hrun hcodes _ => ?_
  obtain ⟨hctr, hbytes⟩ := serve_ctradd hrun hcodes hop (by rw [NoSlot, hu.store.1]; exact hquiet)
  have hstore := sameStore_giveCredit p.val m (serveCommand m u)
  refine ⟨?_, sameBytes_stored (fun a => (hbytes a).trans (noticed_sameBytes hu a)) hstore⟩
  rw [ctrOf, hstore.1]
  refine hctr.trans ?_
  rw [ctrOf, hu.store.1]
  rfl
end
theorem cmdResp_ends (h : Arrives p.val m 5 s) {r : Running}
    (hfind : (s.office.cmds.find? fun r => r.tid == some m.tid && cRdev r.cmd == m.src.toNat) = some r) : Completes (.cmdResp p m) s fun t =>
    port t p.val = backPort p.val m s ∧ SameBytes s t ∧ t.office.cmds = s.office.cmds.replace r { r with
      tid := none, status := if r.status = 0 then fld (m.chunks.headD 0) 7 0 else r.status, poison := r.poison || (m.chunks.headD 0).getLsbD 9,
      value := BitVec.ofNat 64 (fld (m.chunks.headD 0) 127 64) } := by
  refine completes_here h rfl fun u hu => ?_
  have hstore := sameStore_giveCredit p.val m (takeResponse m u)
  rw [takeResponse_ends (by rw [hu.store.1]; exact hfind)] at *
  refine ⟨port_back h (hu.port_eq _), sameBytes_of_mem (hstore.2.trans hu.store.2), ?_⟩
  rw [hstore.1, hu.store.1]
theorem cmdData_writes (h : Arrives p.val m 6 s) {x : Serving}
    (hfind : (s.office.serving.find? fun x => x.src == m.src.toNat && x.tid == m.tid) = some x) (hop : cOp x.cmd = 1)
    (hleft : 64 < x.left) (hmask : dataMask m = 2 ^ 64 - 1) (hsound : dataPoison m = false) :
    let pa := (regionOf s (cRreg x.cmd)).base + cRoff x.cmd + dataOff m
    (pagesTaken s pa m = false → Clear s pa 64 → Completes (.cmdData p m) s fun t => HoldsBytes t pa 64 (dataVec m).toNat ∧
      SameBytesBut pa 64 s t ∧ port t p.val = backPort p.val m s ∧ t.office.serving = s.office.serving.replace x { x with left := x.left - 64 }) ∧
    (pagesTaken s pa m = true → Completes (.cmdData p m) s fun t => SameBytes s t ∧ t.office.serving = s.office.serving.erase x) := by
  intro pa
  have key {u : State} (hu : Noticed s u) := serveData_put (s := u) (by rw [hu.store.1]; exact hfind) hop hleft hmask hsound
  refine ⟨fun hopen hc => completes_here h rfl fun u hu => ?_, fun htaken => completes_here h rfl fun u hu => ?_⟩
  · obtain ⟨hwrites, -⟩ := key hu
    rw [hu.regionOf_eq] at hwrites
    obtain ⟨hholds, hbut, hports, hserving⟩ := hwrites (by rw [hu.pagesTaken_eq]; exact hopen) (hu.clear hc)
    have hstore := sameStore_giveCredit p.val m (serveData m u)
    have hsame := sameBytes_of_mem hstore.2
    refine ⟨fun i hi => (hsame _).trans (hholds i hi), fun a ha => ((hsame a).trans (hbut a ha)).trans (noticed_sameBytes hu a),
      port_back h ((hports _).trans (hu.port_eq _)), ?_⟩
    rw [hstore.1, hserving, hu.store.1]
  · obtain ⟨-, hdrops⟩ := key hu
    rw [hu.regionOf_eq] at hdrops
    obtain ⟨hbytes, hserving⟩ := hdrops (by rw [hu.pagesTaken_eq]; exact htaken)
    have hstore := sameStore_giveCredit p.val m (serveData m u)
    refine ⟨sameBytes_stored (fun a => (hbytes a).trans (noticed_sameBytes hu a)) hstore, ?_⟩
    rw [hstore.1, hserving, hu.store.1]
theorem cmdRdata_writes (h : Arrives p.val m 7 s) {r : Running}
    (hfind : (s.office.cmds.find? fun r => r.tid == some m.tid && cRdev r.cmd == m.src.toNat) = some r)
    (hmask : dataMask m = 2 ^ 64 - 1) (hsound : dataPoison m = false) :
    let pa := (regionOf s (cLreg r.cmd)).base + cLoff r.cmd + dataOff m
    (pagesTaken s pa m = false → Clear s pa 64 → Completes (.cmdRdata p m) s fun t => HoldsBytes t pa 64 (dataVec m).toNat ∧
      SameBytesBut pa 64 s t ∧ port t p.val = backPort p.val m s ∧ t.office.cmds = s.office.cmds.replace r { r with left := r.left - 64 }) ∧
    (pagesTaken s pa m = true → Completes (.cmdRdata p m) s fun t => SameBytes s t ∧ port t p.val = backPort p.val m s ∧
      t.office.cmds = s.office.cmds.replace r { r with left := r.left - 64, status := 2 }) := by
  intro pa
  have key {u : State} (hu : Noticed s u) := takeReadData_get (s := u) (by rw [hu.store.1]; exact hfind) hmask hsound
  refine ⟨fun hopen hc => completes_here h rfl fun u hu => ?_, fun htaken => completes_here h rfl fun u hu => ?_⟩
  · obtain ⟨hwrites, -⟩ := key hu
    rw [hu.regionOf_eq] at hwrites
    obtain ⟨hholds, hbut, hports, hcmds⟩ := hwrites (by rw [hu.pagesTaken_eq]; exact hopen) (hu.clear hc)
    have hstore := sameStore_giveCredit p.val m (takeReadData m u)
    have hsame := sameBytes_of_mem hstore.2
    refine ⟨fun i hi => (hsame _).trans (hholds i hi), fun a ha => ((hsame a).trans (hbut a ha)).trans (noticed_sameBytes hu a),
      port_back h ((hports _).trans (hu.port_eq _)), ?_⟩
    rw [hstore.1, hcmds, hu.store.1]
  · obtain ⟨-, hdrops⟩ := key hu
    rw [hu.regionOf_eq] at hdrops
    obtain ⟨hbytes, hports, hcmds⟩ := hdrops (by rw [hu.pagesTaken_eq]; exact htaken)
    have hstore := sameStore_giveCredit p.val m (takeReadData m u)
    refine ⟨sameBytes_stored (fun a => (hbytes a).trans (noticed_sameBytes hu a)) hstore, port_back h ((hports _).trans (hu.port_eq _)), ?_⟩
    rw [hstore.1, hcmds, hu.store.1]
theorem resync_clears (h : Arrives p.val m 8 s) {q : Fin 8} (hqp : q ≠ p) (hdown : (port s q.val).state ≠ .up) (hvalid : (port s q.val).peerValid = true)
    (hdev : (port s q.val).peerDev = m.src.toNat) (hport : (port s q.val).peerPort = fld m.kspec 10 8)
    (hfirst : ∀ r, r < q.val → (port s r).peerValid = true → (port s r).peerDev ≠ m.src.toNat)
    (hnone : framesAfter (m.kspec.setWidth 8) (port s q.val).retryBuf = []) : Completes (.resync p m) s fun t => port t p.val = backPort p.val m s ∧
      port t q.val = { port s q.val with retryBuf := [], resyncWait := false } ∧ SameBytes s t := by
  have hne : q.val ≠ p.val := fun he => hqp (Fin.ext he)
  refine completes_here h rfl fun u hu => ?_
  have hports (r : Nat) : port u r = port s r := hu.port_eq r
  have hquiet : resyncHere m u = setPort q.val { port s q.val with retryBuf := [], resyncWait := false } u := by
    rw [resyncHere_quiet q.isLt (by rw [hports]; exact hdown) (by rw [hports]; exact hvalid) (by rw [hports]; exact hdev) (by rw [hports]; exact hport)
      (fun r hr => by rw [hports]; exact hfirst r hr) (by rw [hports]; exact hnone), hports]
  have hstore := sameStore_giveCredit p.val m (resyncHere m u)
  have hp : port (resyncHere m u) p.val = port s p.val := by rw [hquiet, port_setPort, if_neg (Ne.symm hne), hports]
  refine ⟨port_back h hp, ?_, sameBytes_stored (by rw [hquiet]; exact fun a => noticed_sameBytes hu a) hstore⟩
  rw [port_giveCredit p.isLt (by rw [hp]; exact h.up), if_neg hne, hquiet, port_setPort_same]

/-! ### The obligation -/

/-- Settles O44: a frame, a credit, a message and a late resynchronisation are each followed through the port that takes them; a message here goes on from
a device that has noticed nothing but its arrival. -/
theorem framesCreditsAndMessages : Obligations.FramesCreditsAndMessages := by
  unfold Obligations.FramesCreditsAndMessages
  refine ⟨fun s p fseq aseq coh good ok n => ?_, fun s p vc n => ?_, fun s n => ?_, fun s p m => ?_, fun s p => ?_⟩
  · intro po rest fewer limit again i taken
    refine ⟨fun hdown k => congrArg (fun x : State => (.next x : Out)) (frameArrives_down hdown), fun hup hbad k => ⟨_, rfl, frameArrives_bad hup hbad⟩,
      fun hup hgood hseq hcoh => ?_, fun hup hgood hseq hj hcoh hawake hno => by subst hcoh; exact frame_splits ⟨hup, hgood, hseq⟩ hj hawake hno⟩
    intro got acked nacked' fails
    have h : InOrder p fseq good s := ⟨hup, hgood, hseq⟩
    have hgot : OnlyPort p.val got s (frameGot p.val n fseq s) := only_frameGot
    refine ⟨fun k h1 h2 => frame_takes h hcoh rfl (takeAck_other hgot h1 h2), fun hs => frame_takes h hcoh rfl (takeAck_awake hgot hs),
      fun hs hrest hw hc => frame_takes h hcoh rfl ?_, fun hlt => frame_takes h hcoh rfl (takeAck_again hgot hlt),
      fun hge hok => frame_takes h hcoh rfl ?_, fun hge hok hfew => frame_takes h hcoh rfl ?_, fun hge hok hthree hj hw hc => ?_⟩
    · exact takeAck_asleep hgot hs hrest hw hc
    · subst hok
      rw [takeAck_limit hgot hge]
      exact fastRetrain_ok (only_nacked hgot)
    · subst hok
      rw [takeAck_limit hgot hge]
      exact fastRetrain_few (only_nacked hgot) hfew
    · subst hok
      exact frame_out h hcoh hj hge hthree hw hc
  · refine ⟨fun hdown => ?_, fun hup hw hc => credit_returns hup hw hc⟩
    exact if_neg (by simp [portUp, hdown])
  · refine ⟨fun hnone => ?_, fun m ep hn hdst hhops _ hbit hep hfull hcan hawake => escape_sends hn hdst hhops hbit hep hfull hcan hawake⟩
    show execEscapeWaitExpiry n s = _
    rw [execEscapeWaitExpiry, hnone]
  · intro po here back kinds x r
    refine ⟨fun e he => ?_, fun hup hdisc hhere => ?_⟩
    · simp only [kinds, List.mem_cons, List.not_mem_nil, or_false] at he
      obtain rfl | rfl | rfl | rfl | rfl | rfl | rfl | rfl := he <;> exact way_on rfl
    · have taken {k : BitVec 8} {n : Nat} (hk : m.kind = k) (hn : k.toNat = n) : Arrives p.val m n s := ⟨hup, hdisc, hhere, by rw [hk]; exact hn⟩
      refine ⟨?_, fun hk hwf => letterAck_frees (taken hk rfl) hwf, fun k sl hk hof => letterNak_keeps (taken hk rfl) hof, fun hk => ?_,
        fun r hk hfind => cmdResp_ends (taken hk rfl) hfind, ?_, ?_, fun q hk hqp hdown hvalid hdev hport hfirst hnone =>
          resync_clears (taken hk rfl) hqp hdown hvalid hdev hport hfirst hnone⟩
      · intro hk hrun hmode data q x hup' hactive hkind hspill hroom hcount hbell h1 h2
        exact letter_taken (taken hk rfl) ⟨hrun, hmode, hup', hactive, hkind, hspill, hroom, hcount, hbell⟩ h1 h2
      · have h : Arrives p.val m 4 s := taken hk rfl
        intro c g pa n
        refine ⟨command_refused h, fun hrun hcodes => ⟨command_put h hrun hcodes, fun hop _ h8 hctr hc => command_puti h hrun hcodes hop h8 hctr hc,
          fun hop hctr hc => command_get h hrun hcodes hop hctr hc,
          fun hop _ hwide hlt _ _ hctr hc => command_amo h hrun hcodes hop hwide hlt hctr hc, fun hop hquiet => command_ctradd h hrun hcodes hop hquiet⟩⟩
      · intro x hk hfind hop hleft pa hmask hsound
        exact cmdData_writes (taken hk rfl) hfind hop hleft hmask hsound
      · intro r hk hfind pa hmask hsound
        exact cmdRdata_writes (taken hk rfl) hfind hmask hsound
  · refine ⟨fun hno => congrArg (fun x : State => (.next x : Out)) (if_neg (fun h => Bool.false_ne_true (hno.symm.trans h))), fun hwait hnone => ⟨_, rfl, ?_⟩⟩
    rw [resyncLate_idle hnone hwait]
    exact OnlyPort.setPort ..

end Sys2Proof.Machine
end

section
/-! Canonical memory (10): what it is for a state, for what an instruction leaves and for the outcome of a command. The lemmas of the sections below
follow the model, one for each definition that gives a state. Only `writeBytes` and `zeroBytes` change the bytes of memory, and both keep the form;
a definition that touches neither leaves the bytes as they were, a definition that calls others is canonical because they are. -/
namespace Sys2Proof.Machine
variable {s t : State}
/-- Memory is in its canonical form. -/
def Canon (s : State) : Prop := Memory.wf s.mem.bytes = true
/-- A state with the same bytes is as canonical. -/
theorem Canon.same (h : Canon s) (e : t.mem.bytes = s.mem.bytes) : Canon t := by
  rw [Canon, e]
  exact h
theorem canon_writeBytes {pa : Nat} {bs : List Byte} (h : Canon s) : Canon (writeBytes pa bs s) := wf_writeBytes pa bs h
theorem canon_zeroBytes {pa n : Nat} (h : Canon s) : Canon (zeroBytes pa n s) := wf_zeroBytes pa n h
theorem canon_reset : Canon State.reset := wf_reset
theorem canon_foldl {α : Type} {f : State → α → State} {l : List α} (hf : ∀ a x, Canon a → Canon (f a x)) (h : Canon s) :
    Canon (l.foldl f s) := by
  induction l generalizing s with
  | nil => exact h
  | cons x l ih => exact ih (hf _ _ h)
theorem canon_foldl_snd {α β : Type} {f : β × State → α → β × State} {l : List α} {b : β × State}
    (hf : ∀ a x, Canon a.2 → Canon (f a x).2) (h : Canon b.2) : Canon (l.foldl f b).2 := by
  induction l generalizing b with
  | nil => exact h
  | cons x l ih => exact ih (hf _ _ h)
/-- The state that an instruction leaves, however it ends, is canonical. -/
def CanonEff : Eff → Prop
  | .ok s _ _ => Canon s
  | .micro s _ => Canon s
  | .istack s _ => Canon s
  | .exc _ s => Canon s
  | .hold s => Canon s
section
variable {pc : Word64} {evs : List PmEvent} {n : Nat} {e : Exc}
theorem canonEff_ok (h : Canon s) : CanonEff (.ok s pc evs) := h
theorem canonEff_micro (h : Canon s) : CanonEff (.micro s evs) := h
theorem canonEff_istack (h : Canon s) : CanonEff (.istack s n) := h
theorem canonEff_exc (h : Canon s) : CanonEff (.exc e s) := h
theorem canonEff_hold (h : Canon s) : CanonEff (.hold s) := h
theorem canon_of_ok (h : CanonEff (.ok s pc evs)) : Canon s := h
theorem canon_of_micro (h : CanonEff (.micro s evs)) : Canon s := h
theorem canon_of_istack (h : CanonEff (.istack s n)) : Canon s := h
theorem canon_of_exc (h : CanonEff (.exc e s)) : Canon s := h
theorem canon_of_hold (h : CanonEff (.hold s)) : Canon s := h
end
/-- The next state, where a command has one, is canonical. -/
def CanonOut (o : Out) : Prop := ∀ t, o = .next t → Canon t
theorem canonOut_next (h : Canon s) : CanonOut (.next s) := by
  rintro t ⟨⟩
  exact h
theorem canonOut_refused {r : Refusal} : CanonOut (.refused r) := by
  rintro t ⟨⟩
end Sys2Proof.Machine
end

section
/-! Canonical memory: the operations on the state. A core, a word of control space, an interrupt line or a log record is not memory. -/
namespace Sys2Proof.Machine
variable {s : State} {b : Bool} {rec : List Byte} {cls kind lc n off src st unit : Nat} {v : Word32}
theorem canon_setCore {c : Core} (h : Canon s) : Canon (setCore s lc c) := h.same rfl
theorem canon_updCore {f : Core → Core} (h : Canon s) : Canon (updCore lc f s) := canon_setCore h
theorem canon_drawWord (h : Canon s) : Canon (drawWord s).2 := h.same rfl
theorem canon_drawCount (h : Canon s) : Canon (drawCount s).2 := h.same rfl
theorem canon_drawBytes (h : Canon s) : Canon (drawBytes n s).2 := h.same rfl
theorem canon_setPoison {line : Nat} (h : Canon s) : Canon (setPoison line b s) := h.same rfl
theorem canon_setReg (h : Canon s) : Canon (setReg off v s) := h.same rfl
theorem canon_setAct (h : Canon s) : Canon (setAct off v s) := h.same rfl
theorem canon_bumpBy (h : Canon s) : Canon (bumpBy off n s) := h.same rfl
theorem canon_bump (h : Canon s) : Canon (bump off s) := canon_bumpBy h
theorem canon_answer {v : Word64} (h : Canon s) : Canon (answer st v s) := h.same rfl
theorem canon_answerSt (h : Canon s) : Canon (answerSt st s) := canon_answer h
theorem canon_setPend (h : Canon s) : Canon (setPend src b s) := h.same rfl
theorem canon_setLine {high : Bool} (h : Canon s) : Canon (setLine src high s) := by
  unfold setLine
  extract_lets s1 _
  have hs1 : Canon s1 := by
    unfold s1
    split
    · exact canon_setPend h
    · exact h
  exact hs1.same rfl
theorem canon_pulse (h : Canon s) : Canon (pulse src s) := canon_setLine (canon_setLine h)
theorem canon_raiseMsg (h : Canon s) : Canon (raiseMsg src s) := canon_setPend h
theorem canon_alert {i : Nat} (h : Canon s) : Canon (alert i s) := h.same rfl
theorem canon_noteMode {before after : State} (_ : Canon before) (hafter : Canon after) : Canon (noteMode before after) := by
  unfold noteMode
  split
  · exact hafter
  · exact canon_alert hafter
theorem canon_addEntry (h : Canon s) : Canon (addEntry kind cls rec s) := by
  unfold addEntry
  extract_lets seq e _ s1 s2
  have hs1 : Canon s1 := h.same rfl
  have hs2 : Canon s2 := by
    unfold s2
    split
    · exact canon_alert (canon_pulse hs1)
    · exact hs1
  split
  · exact canon_pulse hs2
  · exact hs2
theorem canon_logRecord {countAt : Nat} (h : Canon s) : Canon (logRecord kind cls unit countAt rec s) := by
  unfold logRecord
  split
  · split
    · exact h.same rfl
    · extract_lets s1 _
      have hs1 : Canon s1 := canon_addEntry h
      exact hs1.same rfl
  · exact canon_addEntry h
theorem canon_logFault {lcore : Option Nat} {arg0 arg1 : Nat} (h : Canon s) : Canon (logFault kind cls unit lcore arg0 arg1 s) := canon_logRecord h
theorem canon_logMem {p : MemPlace} (h : Canon s) : Canon (logMem kind p s) := by
  unfold logMem
  extract_lets s1
  have hs1 : Canon s1 := canon_logRecord h
  split
  · exact canon_pulse hs1
  · exact hs1
end Sys2Proof.Machine
end

section
/-! Canonical memory: the state of a memory controller, of a core's caches and of an L3 slice (01, 10). -/
namespace Sys2Proof.Machine
variable {s : State}
theorem canon_setMemCtl {u : Nat} {c : MemCtl} (h : Canon s) : Canon (setMemCtl u c s) := h.same rfl
theorem canon_setPriv {pc : Nat} {c : PrivCaches} (h : Canon s) : Canon (setPriv pc c s) := h.same rfl
theorem canon_setSlice {n : Nat} {c : Slice} (h : Canon s) : Canon (setSlice n c s) := h.same rfl
end Sys2Proof.Machine
end

section
/-! Canonical memory: requests, snoops and evictions (10 R250 to R261). Bytes change where a stale line is exposed or a request writes. -/
namespace Sys2Proof.Machine
variable {s : State} {tc : BitVec 2} {instr : Bool} {g : Grant} {q : HomeReq} {l : L2Line} {bs : List Byte} {lc line pa pc slot : Nat} {k : SnoopKind}
theorem canon_drawLfsr {k : Nat} (h : Canon s) : Canon (drawLfsr k s).2 := by
  unfold drawLfsr
  extract_lets n x _ _
  have hn : Canon n.2 := canon_drawCount h
  exact hn.same rfl
theorem canon_pickWay {α : Type} {k : Nat} {tbl : SMap (Option α)} {set ways : Nat} {cand : List Nat} (h : Canon s) : Canon (pickWay k tbl set ways cand s).2 := by
  unfold pickWay
  split
  · exact h
  · split
    · exact h
    · extract_lets d
      have hd : Canon d.2 := canon_drawLfsr h
      exact hd
theorem canon_dropL2 (h : Canon s) : Canon (dropL2 pc line s) := canon_setPriv h
theorem canon_putL2 (h : Canon s) : Canon (putL2 pc slot l s) := canon_setPriv h
theorem canon_exposeStale {st : Option Vec} (h : Canon s) : Canon (exposeStale line st s) := by
  unfold exposeStale
  split
  · exact canon_writeBytes h
  · exact h
theorem canon_dropL3 {h : Nat} (h1 : Canon s) : Canon (dropL3 h line s) := by
  unfold dropL3
  split
  · exact canon_setSlice h1
  · exact h1
theorem canon_putL3 {h : Nat} {l : L3Line} (h1 : Canon s) : Canon (putL3 h slot l s) := canon_setSlice h1
theorem canon_hnCnt {h which : Nat} (h1 : Canon s) : Canon (hnCnt h which s) := canon_bump h1
theorem canon_offerL3 {h : Nat} {dirty : Bool} (h1 : Canon s) : Canon (offerL3 h line dirty s) := by
  unfold offerL3
  extract_lets sl pw
  have hpw : Canon pw.2 := canon_pickWay h1
  split
  · exact h1
  · split
    · split
      · exact h1
      · exact canon_hnCnt h1
    · split
      · split
        · exact canon_putL3 h1
        · exact h1
      · split
        · split
          · exact h1
          · exact canon_hnCnt h1
        · extract_lets ok
          split
          · exact canon_putL3 hpw
          · exact canon_hnCnt hpw
theorem canon_placeL3 {h : Nat} (h1 : Canon s) : Canon (placeL3 h line s) := by
  unfold placeL3
  extract_lets sl pw
  have hpw : Canon pw.2 := canon_pickWay h1
  split
  · exact h1
  · split
    · exact canon_putL3 hpw
    · exact h1
theorem canon_cohSend {k : CohKind} {data : Option Vec} (h : Canon s) : Canon (cohSend slot k line tc data s) := h.same rfl
theorem canon_snoopDev {p : Nat} (h : Canon s) : Canon (snoopDev p line k s).2 := by
  unfold snoopDev
  extract_lets d dirty
  have hd : Canon d.2 := canon_drawWord h
  exact hd
theorem canon_putDir {h : Nat} {d : Option DirEntry} (h1 : Canon s) : Canon (putDir h slot d s) := canon_setSlice h1
theorem canon_snoopGrant (h : Canon s) : Canon (snoopGrant g k s).2 := by
  unfold snoopGrant
  extract_lets s1 _ s2
  have hs1 : Canon s1 := by
    unfold s1
    split
    · exact canon_exposeStale h
    · exact h
  have hs2 : Canon s2 := by
    unfold s2
    split
    · extract_lets g1
      exact hs1.same rfl
    · exact canon_dropL2 (hs1.same rfl)
  exact hs2
theorem canon_snoopCopy (h : Canon s) : Canon (snoopCopy pc line k s).2 := by
  unfold snoopCopy
  split
  · extract_lets s1 s2
    have hs1 : Canon s1 := by
      unfold s1
      split
      · exact canon_exposeStale h
      · exact h
    have hs2 : Canon s2 := by
      unfold s2
      split
      · exact canon_putL2 hs1
      · exact canon_dropL2 hs1
    exact hs2
  · split <;> exact h
theorem canon_setIsland {i : Nat} {x : IslandState} (h : Canon s) : Canon (setIsland i x s) := h.same rfl
theorem canon_wakeL2 (h : Canon s) : Canon (wakeL2 pc s) := by
  unfold wakeL2
  split
  · exact canon_setIsland h
  · exact canon_setIsland h
  · exact h
theorem canon_snoopL2 (h : Canon s) : Canon (snoopL2 pc line k s).2 := by
  unfold snoopL2
  split
  · exact canon_snoopDev h
  · extract_lets s1
    have hs1 : Canon s1 := canon_wakeL2 h
    split
    · exact canon_snoopGrant hs1
    · exact canon_snoopCopy hs1
theorem canon_sendSnoops {sn : List (Nat × SnoopKind)} (h : Canon s) : Canon (sendSnoops line sn s) := by
  unfold sendSnoops
  refine canon_foldl (fun a1 x1 h1 => ?_) h
  split
  · exact canon_cohSend h1
  · exact h1
theorem canon_evictDir {h : Nat} {d : DirEntry} (h1 : Canon s) : Canon (evictDir h slot d s) := by
  unfold evictDir
  extract_lets own oth r s1
  have hr : Canon r.2 := by
    unfold r
    refine canon_foldl_snd (fun a1 x1 h2 => ?_) (canon_sendSnoops h1)
    extract_lets x
    have hx : Canon x.2 := canon_snoopL2 h2
    exact canon_hnCnt hx
  have hs1 : Canon s1 := by
    unfold s1
    split
    · exact canon_offerL3 hr
    · exact hr
  exact canon_hnCnt (canon_putDir hs1)
theorem canon_dirSlot {h : Nat} (h1 : Canon s) : Canon (dirSlot h line s).2 := by
  unfold dirSlot
  split
  · exact h1
  · extract_lets pw slot
    have hpw : Canon pw.2 := canon_pickWay h1
    split
    · exact canon_evictDir hpw
    · exact hpw
theorem canon_setDir {h : Nat} {owner : Option Nat} {sharers : BitVec 72} {devs : BitVec 4} (h1 : Canon s) : Canon (setDir h line owner sharers devs s) := by
  unfold setDir
  split
  · split
    · exact canon_putDir h1
    · exact h1
  · extract_lets ds
    have hds : Canon ds.2 := canon_dirSlot h1
    exact canon_putDir hds
theorem canon_amoAt {op : AmoOp} {wide : Bool} {gs gt : Word64} (h : Canon s) : Canon (amoAt pa op wide gs gt s).2 := by
  unfold amoAt
  split
  · extract_lets old
    exact canon_writeBytes h
  · extract_lets old
    exact canon_writeBytes h
theorem canon_serveFromL3 {h : Nat} {k : ReqKind} (h1 : Canon s) : Canon (serveFromL3 h line k s) := by
  unfold serveFromL3
  split
  · extract_lets s1
    have hs1 : Canon s1 := canon_hnCnt h1
    split
    · exact canon_dropL3 hs1
    · exact canon_dropL3 hs1
    · exact canon_putL3 hs1
    · exact hs1
  · exact h1
theorem canon_homeFinish (h : Canon s) : Canon (homeFinish s q).2.2 := by
  unfold homeFinish
  extract_lets line h1 d kept src stale held w x st still s1 s1b s1c r s1d
  have hsrc : Canon src := by
    unfold src
    split
    · exact h
    · exact canon_serveFromL3 h
  have hw : Canon w.2 := canon_drawWord hsrc
  have hx : Canon x.2 := by
    unfold x
    split
    · exact hsrc
    · exact hw
  have hs1 : Canon s1 := canon_setDir (canon_dropL3 h)
  have hs1b : Canon s1b := canon_setDir (canon_dropL3 (canon_exposeStale hsrc))
  have hs1c : Canon s1c := canon_setDir (canon_offerL3 (canon_exposeStale h))
  have hr : Canon r.2 := canon_amoAt hs1c
  have hs1d : Canon s1d := by
    unfold s1d
    split
    · exact canon_putL3 (canon_exposeStale h)
    · exact h
  split
  · split
    · extract_lets owner
      exact canon_setDir hx
    · extract_lets owner
      exact canon_setDir hx
    · exact hx
  · split
    · exact canon_setDir hsrc
    · exact canon_setDir hsrc
    · exact hsrc
  · split
    · extract_lets g
      refine canon_setDir ?_
      split
      · exact h
      · exact hsrc
    · exact canon_setDir hsrc
    · exact hsrc
  · exact hsrc
  · exact canon_setPoison (canon_writeBytes hs1)
  · exact canon_writeBytes hs1b
  · split
    · exact hr
    · exact canon_hnCnt hr
  · exact canon_setDir hs1d
  · exact canon_setDir (canon_dropL3 h)
  · exact h
  · exact h
theorem canon_serveEvict (h : Canon s) : Canon (serveEvict q s) := by
  unfold serveEvict
  extract_lets h1 d owns s1
  have hs1 : Canon s1 := by
    unfold s1
    split
    · exact canon_setDir h
    · exact h
  split
  · split
    · exact canon_offerL3 hs1
    · exact canon_hnCnt h
  · split
    · exact canon_offerL3 hs1
    · exact hs1
theorem canon_countReq (h : Canon s) : Canon (countReq q s) := by
  unfold countReq
  extract_lets h1 s1
  have hs1 : Canon s1 := canon_hnCnt h
  split
  · exact canon_cohSend (canon_hnCnt hs1)
  · exact canon_hnCnt hs1
  · exact hs1
theorem canon_completeDev (h : Canon s) : Canon (completeDev q s) := by
  unfold completeDev
  split
  · extract_lets data
    exact canon_cohSend h
  · exact h
theorem canon_takeAnswer {a : SnoopAnswer} (h : Canon s) : Canon (takeAnswer q a s).2 := by
  unfold takeAnswer
  extract_lets h1 s1 d s2
  have hs1 : Canon s1 := by
    unfold s1
    split
    · exact canon_offerL3 h
    · exact h
  have hs2 : Canon s2 := by
    unfold s2
    split
    · split
      · exact canon_setDir hs1
      · exact hs1
    · exact hs1
  exact hs2
theorem canon_runSnoops {l : List (Nat × SnoopKind)} (h : Canon s) : Canon (runSnoops q l s).2 := by
  induction l generalizing q s with
  | nil => exact h
  | cons x l ih =>
    unfold runSnoops
    extract_lets x y
    exact ih (canon_takeAnswer (canon_hnCnt (canon_snoopL2 h)))
theorem canon_homeDone (h : Canon s) : Canon (homeDone q s).2.2 := by
  unfold homeDone
  extract_lets x
  have hx : Canon x.2.2 := canon_homeFinish h
  exact canon_completeDev hx
theorem canon_runReq (h : Canon s) : Canon (runReq q s).2.2 := by
  unfold runReq
  split
  · exact canon_completeDev (canon_serveEvict (canon_countReq h))
  · split
    · extract_lets x
      have hx : Canon x.2 := canon_runSnoops h
      exact canon_homeDone hx
    · extract_lets s1 sn x
      have hs1 : Canon s1 := canon_countReq h
      have hx : Canon x.2 := canon_runSnoops (canon_sendSnoops hs1)
      exact canon_homeDone hx
theorem canon_toTransit (h : Canon s) : Canon (toTransit pc l s) := by
  unfold toTransit
  extract_lets s1 s2 _
  have hs1 : Canon s1 := by
    unfold s1
    split
    · exact canon_exposeStale h
    · exact h
  have hs2 : Canon s2 := canon_dropL2 hs1
  exact canon_setPriv hs2
theorem canon_freeTransit (h : Canon s) : Canon (freeTransit pc line s) := canon_setPriv h
theorem canon_flushL2 (h : Canon s) : Canon (flushL2 pc l s) := by
  unfold flushL2
  extract_lets s1 h1 d
  have hs1 : Canon s1 := by
    unfold s1
    refine canon_dropL2 ?_
    split
    · exact canon_exposeStale h
    · exact h
  split
  · exact canon_setDir hs1
  · exact hs1
theorem canon_flushL3 {n : Nat} {ways : BitVec 16} (h : Canon s) : Canon (flushL3 n ways s) := by
  unfold flushL3
  extract_lets out s1 _
  have hs1 : Canon s1 := by
    unfold s1
    refine canon_foldl (fun a1 x1 h1 => ?_) h
    split
    · exact canon_exposeStale h1
    · exact h1
  exact canon_setSlice hs1
theorem canon_evictNow (h : Canon s) : Canon (evictNow pc l s) := by
  unfold evictNow
  extract_lets s1
  have hs1 : Canon s1 := canon_toTransit h
  exact canon_freeTransit (canon_runReq hs1)
theorem canon_installL2 (h : Canon s) : Canon (installL2 g s) := by
  unfold installL2
  split
  · exact canon_putL2 h
  · split
    · exact h
    · extract_lets p pw
      have hpw : Canon pw.2 := canon_pickWay h
      split
      · exact hpw
      · extract_lets s1
        have hs1 : Canon s1 := by
          unfold s1
          split
          · exact canon_evictNow hpw
          · exact hpw
        exact canon_putL2 hs1
theorem canon_clearLate {h : Nat} (h1 : Canon s) : Canon (clearLate h s) := by
  unfold clearLate
  split
  · exact canon_setSlice h1
  · exact h1
theorem canon_settleQ {l : List HomeReq} (h : Canon s) : Canon (settleQ line l s) := by
  induction l generalizing s with
  | nil => exact h
  | cons q l ih =>
    unfold settleQ
    split
    · extract_lets x
      have hx : Canon x.2.2 := canon_runReq h
      refine ih ?_
      split
      · exact canon_installL2 hx
      · exact hx
    · exact ih h
theorem canon_ackAll (h : Canon s) : Canon (ackAll line s) := by
  unfold ackAll
  refine canon_foldl (fun a1 x1 h1 => ?_) h
  split
  · exact canon_freeTransit h1
  · exact h1
theorem canon_settle (h : Canon s) : Canon (settle line s) := by
  unfold settle
  split
  · exact canon_ackAll h
  · extract_lets s0 s1 _
    have hs0 : Canon s0 := canon_foldl (fun _ _ => canon_installL2) h
    have hs1 : Canon s1 := canon_ackAll (canon_settleQ hs0)
    exact canon_clearLate (hs1.same rfl)
theorem canon_request {k : ReqKind} {r : Requester} {b : ReqData} (h : Canon s) : Canon (request k r line b s).2 := by
  unfold request
  extract_lets x
  have hx : Canon x.2.2 := canon_runReq (canon_settle h)
  split
  · exact canon_installL2 hx
  · exact hx
theorem canon_fillL1 (h : Canon s) : Canon (fillL1 instr pc line s) := by
  unfold fillL1
  split
  · split
    · extract_lets p tbl pw _
      have hpw : Canon pw.2 := canon_pickWay h
      split
      · split
        · extract_lets t2
          exact canon_setPriv hpw
        · exact hpw
      · exact h
    · exact h
  · split
    · extract_lets p tbl pw _
      have hpw : Canon pw.2 := canon_pickWay h
      split
      · split
        · extract_lets t2
          exact canon_setPriv hpw
        · exact hpw
      · exact h
    · exact h
theorem canon_coherentRead {nt : Bool} (h : Canon s) : Canon (coherentRead lc line tc instr nt s) := by
  unfold coherentRead
  extract_lets pc s1
  have hs1 : Canon s1 := by
    unfold s1
    split
    · exact h
    · exact canon_request h
  split
  · exact canon_request h
  · split
    · exact hs1
    · exact canon_fillL1 hs1
theorem canon_coherentOwn (h : Canon s) : Canon (coherentOwn lc line tc s) := by
  unfold coherentOwn
  extract_lets pc
  split
  · split
    · exact h
    · exact canon_putL2 h
    · exact canon_request h
  · exact canon_request h
theorem canon_viewWrite (h : Canon s) : Canon (viewWrite lc pa bs s) := by
  unfold viewWrite
  extract_lets pc line p own l2 l1 s1
  have hs1 : Canon s1 := by
    unfold s1
    split
    · exact canon_setPriv h
    · exact h
  split
  · exact hs1
  · exact canon_writeBytes hs1
theorem canon_coherentStore (h : Canon s) : Canon (coherentStore lc pa tc bs s) := by
  unfold coherentStore
  split
  · exact canon_request h
  · exact canon_viewWrite (canon_coherentOwn h)
end Sys2Proof.Machine
end

section
/-! Canonical memory: the meters of an interval and the injections counted on them (12 R295 to R299). -/
namespace Sys2Proof.Machine
variable {s : State} {init n pa tc u : Nat}
theorem canon_inject {rs : List Nat} (h : Canon s) : Canon (inject init tc n rs s) := canon_bumpBy (canon_bumpBy (h.same rfl))
theorem canon_logFencedOnce (h : Canon s) : Canon (logFencedOnce u s) := by
  unfold logFencedOnce
  split
  · exact h
  · extract_lets s1 keep _
    have hs1 : Canon s1 := canon_logMem h
    exact hs1.same rfl
theorem canon_noteFenced {line : Nat} (h : Canon s) : Canon (noteFenced line s) := by
  unfold noteFenced
  split
  · split
    · exact canon_logFencedOnce h
    · exact h
  · exact h
theorem canon_serveFlits {k : Nat} (h : Canon s) : Canon (serveFlits k tc n s) := h.same rfl
theorem canon_injectLine (h : Canon s) : Canon (injectLine init tc pa s) := by
  unfold injectLine
  extract_lets rs t s1
  have hs1 : Canon s1 := canon_inject h
  split
  · exact canon_foldl (fun _ _ => canon_serveFlits) (canon_serveFlits hs1)
  · exact hs1
theorem canon_coreInject {lc : Nat} {a : Access} (h : Canon s) : Canon (coreInject lc a s) := canon_injectLine h
theorem canon_injectLines (h : Canon s) : Canon (injectLines init tc pa n s) := canon_foldl (fun _ _ => canon_injectLine) h
theorem canon_injectMaint (h : Canon s) : Canon (injectMaint u n s) := canon_serveFlits (canon_inject h)
end Sys2Proof.Machine
end

section
/-! Canonical memory: walks, the translation caches they fill and their invalidation (08). -/
namespace Sys2Proof.Machine
variable {s : State} {k lc : Nat} {t : TlbSlot}
theorem canon_faPut {α : Type} {n : Nat} {xs : List α} {x : α} (h : Canon s) : Canon (faPut k n xs x s).2 := by
  unfold faPut
  split
  · exact h
  · extract_lets d
    have hd : Canon d.2 := canon_drawLfsr h
    exact hd
theorem canon_l2tlbPut {m : List (Nat × TlbSlot)} (h : Canon s) : Canon (l2tlbPut k t m s).2 := by
  unfold l2tlbPut
  extract_lets set d
  have hd : Canon d.2 := canon_drawLfsr h
  split
  · exact h
  · exact hd
theorem canon_keepSlot {instr fresh : Bool} (h : Canon s) : Canon (keepSlot lc instr fresh t s) := by
  unfold keepSlot
  extract_lets c k x _ tl y
  have hx : Canon x.2 := by
    unfold x
    split <;> exact canon_faPut h
  have hy : Canon y.2 := canon_l2tlbPut hx
  split
  · exact canon_setCore hy
  · exact canon_setCore hx
theorem canon_keepPtrs {l : List WalkEntry} (h : Canon s) : Canon (keepPtrs lc l s) := by
  induction l generalizing s with
  | nil => exact h
  | cons w l ih =>
    unfold keepPtrs
    extract_lets c x
    exact ih (canon_setCore (canon_faPut h))
theorem canon_oneOf {x : TlbSlot} {xs : List TlbSlot} (h : Canon s) : Canon (oneOf x xs s).2 := by
  unfold oneOf
  split
  · exact h
  · extract_lets d
    have hd : Canon d.2 := canon_drawWord h
    exact hd
theorem canon_walkReads {lines : List Nat} (h : Canon s) : Canon (walkReads lc lines s) := by
  unfold walkReads
  extract_lets tc
  refine canon_foldl (fun a1 x1 h1 => canon_coherentRead ?_) h
  split
  · exact canon_inject h1
  · exact h1
theorem canon_lookup {va : Nat} {kind : AccessKind} (h : Canon s) : Canon (lookup lc va kind s).2 := by
  unfold lookup
  extract_lets c instr l1 l2 w s1
  have hs1 : Canon s1 := canon_walkReads h
  split
  · extract_lets p
    have hp : Canon p.2 := canon_oneOf h
    split
    · exact hp
    · exact canon_keepSlot hp
  · split
    · exact hs1
    · split
      · exact hs1
      · extract_lets s2
        have hs2 : Canon s2 := canon_keepPtrs hs1
        split
        · exact hs2
        · exact canon_keepSlot hs2
theorem canon_translate {w : Want} {va : Word64} (h : Canon s) : Canon (translate lc w va s).2 := by
  unfold translate
  extract_lets c level cfg xl pa mt v x
  have hx : Canon x.2 := canon_lookup h
  split
  · split
    · exact h
    · split
      · exact h
      · split
        · exact h
        · split
          · exact h
          · split <;> exact h
  · split
    · exact h
    · split
      · exact hx
      · exact hx
      · extract_lets pa1 needA needD ads
        split
        · exact hx
        · split
          · exact hx
          · split
            · exact hx
            · split
              · exact hx
              · split
                · exact hx
                · split <;> exact hx
theorem canon_adSwap {u : AdUpdate} {t : State} (h : Canon s) (e : adSwap u s = some t) : Canon t := by
  unfold adSwap at e
  extract_lets x mask y at e
  split at e
  · cases e
    exact canon_request h
  · cases e
end Sys2Proof.Machine
end

section
/-! Canonical memory: accesses by agents that keep no copy, and the interrupt controller (10 R250; 17 R425 to R430). -/
namespace Sys2Proof.Machine
variable {s : State} {bs : List Byte} {lc n pa tc : Nat} {v : Word32}
theorem canon_agentReadLine (h : Canon s) : Canon (agentReadLine tc pa n s).2.2 := by
  unfold agentReadLine
  split
  · extract_lets s1 st bs
    have hs1 : Canon s1 := canon_request (canon_noteFenced h)
    exact hs1
  · exact h
theorem canon_agentWriteLine (h : Canon s) : Canon (agentWriteLine tc pa bs s) := by
  unfold agentWriteLine
  split
  · split
    · exact canon_noteFenced h
    · split <;> exact canon_request h
  · refine canon_writeBytes ?_
    split
    · exact canon_setPoison h
    · exact h
theorem canon_agentReadFrom {l : List (Nat × Nat)} (h : Canon s) : Canon (agentReadFrom tc pa l s).2.2 := by
  induction l generalizing s with
  | nil => exact h
  | cons x l ih => exact ih (canon_agentReadLine h)
theorem canon_agentRead (h : Canon s) : Canon (agentRead tc pa n s).2.2 := by
  unfold agentRead
  split
  · exact h
  · exact canon_agentReadFrom h
theorem canon_agentWrite (h : Canon s) : Canon (agentWrite tc pa bs s) := canon_foldl (fun _ _ => canon_agentWriteLine) h
theorem canon_keeperRead (h : Canon s) : Canon (keeperRead pa n s).2.2 := canon_agentRead (canon_injectLines h)
theorem canon_keeperWrite (h : Canon s) : Canon (keeperWrite pa bs s) := canon_agentWrite (canon_injectLines h)
theorem canon_agentAmo {op : Nat} {wide : Bool} {gs gt : Word64} (h : Canon s) : Canon (agentAmo tc pa op wide gs gt s).2 := by
  unfold agentAmo
  split
  · exact canon_request h
  · exact canon_amoAt h
theorem canon_poisonLine {line : Nat} (h : Canon s) : Canon (poisonLine line s) := canon_pulse (canon_setPoison h)
theorem canon_ackTargets {gone : Nat → Bool} (h : Canon s) : Canon (ackTargets gone s) := by
  unfold ackTargets
  extract_lets f
  split
  · exact h.same rfl
  · exact h
theorem canon_setIcStack {st : List IcEntry} (h : Canon s) : Canon (setIcStack lc st s) := h.same rfl
theorem canon_setAct_ {src : Nat} {b : Bool} (h : Canon s) : Canon (setAct_ src b s) := h.same rfl
theorem canon_icClaim (h : Canon s) : Canon (icClaim lc s).2 := by
  unfold icClaim
  split
  · extract_lets s1 _ s2
    have hs1 : Canon s1 := canon_setIcStack (canon_setAct_ (canon_setPend h))
    have hs2 : Canon s2 := hs1.same rfl
    exact canon_bump hs2
  · exact canon_bump h
theorem canon_icComplete (h : Canon s) : Canon (icComplete lc v s).2 := by
  unfold icComplete
  split
  · exact h
  · split
    · split
      · extract_lets s1 _
        have hs1 : Canon s1 := canon_setIcStack (canon_setAct_ h)
        exact hs1.same rfl
      · exact canon_bump h
    · exact canon_bump h
theorem canon_icRaise (h : Canon s) : Canon (icRaise v s).2 := by
  unfold icRaise
  split
  · exact h
  · split
    · exact h
    · exact canon_raiseMsg h
theorem canon_icUnraise (h : Canon s) : Canon (icUnraise v s).2 := by
  unfold icUnraise
  split
  · exact h
  · exact canon_setPend h
end Sys2Proof.Machine
end

section
/-! Canonical memory: fencing, CONTAIN and the retirement of cache ways (20 R487 to R497; 09 R243 to R245). -/
namespace Sys2Proof.Machine
variable {s : State} {uncorr : Bool} {way : Nat} {bad : Option Nat}
theorem canon_enterContain {bit : Nat} (h : Canon s) : Canon (enterContain bit s) := by
  unfold enterContain
  split
  · exact h
  · extract_lets _ s1
    have hs1 : Canon s1 := h.same rfl
    exact canon_noteMode h (canon_alert (canon_pulse (canon_logFault hs1)))
theorem canon_useSpare {k : Nat} (h : Canon s) : Canon (useSpare k s) := h.same rfl
theorem canon_fenceUnit {unit cause : Nat} (h : Canon s) : Canon (fenceUnit unit cause s) := by
  unfold fenceUnit
  split
  · exact h
  · extract_lets _ s1
    have hs1 : Canon s1 := h.same rfl
    exact canon_bump (canon_pulse (canon_logFault hs1))
theorem canon_retireL3Way {n : Nat} (h : Canon s) : Canon (retireL3Way n way uncorr bad s) := by
  unfold retireL3Way
  extract_lets sl sp retired removed s1 s0 _ s2 s3 s4
  have hs1 : Canon s1 := by
    unfold s1
    split
    · split
      · exact canon_poisonLine h
      · exact h
    · exact h
  have hs0 : Canon s0 := canon_flushL3 hs1
  have hs2 : Canon s2 := canon_setSlice hs0
  have hs3 : Canon s3 := canon_logFault hs2
  have hs4 : Canon s4 := by
    unfold s4
    split
    · exact canon_useSpare hs3
    · exact hs3
  split
  · exact h
  · split
    · exact hs4
    · exact canon_logFault hs4
theorem canon_retireL2Way {pc : Nat} (h : Canon s) : Canon (retireL2Way pc way uncorr bad s) := by
  unfold retireL2Way
  extract_lets p sp s1 s2 _ s3 s4 s5
  have hs1 : Canon s1 := by
    unfold s1
    split
    · split
      · split
        · exact canon_poisonLine h
        · exact h
      · split
        · exact canon_poisonLine h
        · exact h
    · exact h
  have hs2 : Canon s2 := canon_foldl (fun _ _ => canon_flushL2) hs1
  have hs3 : Canon s3 := canon_setPriv hs2
  have hs4 : Canon s4 := canon_logFault hs3
  have hs5 : Canon s5 := by
    unfold s5
    split
    · exact canon_useSpare hs4
    · exact hs4
  split
  · exact h
  · split
    · split
      · exact hs5
      · exact canon_logFault hs5
    · exact hs5
end Sys2Proof.Machine
end

section
/-! Canonical memory: the memory controllers and their repairs (11 R279 to R294). -/
namespace Sys2Proof.Machine
variable {s : State} {pinOnly wr : Bool} {sw : List LaneSweep} {bad : List Nat} {bank dimm err flags lane line pc place rank row symbols u : Nat} {v : Word32}
theorem canon_ctlCnt {which : Nat} (h : Canon s) : Canon (ctlCnt u which s) := canon_bump h
theorem canon_drainWq {slot : Nat} (h : Canon s) : Canon (drainWq u slot s) := canon_setMemCtl h
theorem canon_drainAll (h : Canon s) : Canon (drainAll s) := h.same rfl
theorem canon_setCoverable (h : Canon s) : Canon (setCoverable s) := h.same rfl
theorem canon_setReserve {total free : Nat} (h : Canon s) : Canon (setReserve total free s) := by
  unfold setReserve
  extract_lets _ s1
  have hs1 : Canon s1 := canon_setCoverable (h.same rfl)
  split
  · exact canon_pulse hs1
  · exact hs1
theorem canon_retireUnit {rank : Option Nat} (h : Canon s) : Canon (retireUnit u dimm rank s) := by
  unfold retireUnit
  extract_lets c mine whole need base s1 s2 _
  have hs1 : Canon s1 := canon_setMemCtl h
  have hs2 : Canon s2 := canon_logMem hs1
  clear_value s2
  split
  · exact h
  · split
    · exact canon_enterContain h
    · exact canon_setReserve (hs2.same rfl)
theorem canon_reserveCopyDone (h : Canon s) : Canon (reserveCopyDone u s) := by
  unfold reserveCopyDone
  split
  · exact h
  · extract_lets lines _ s1
    have hs1 : Canon s1 := canon_injectMaint (canon_setMemCtl h)
    split
    · exact hs1
    · exact canon_logMem hs1
theorem canon_noteError {p : MemPlace} {ue : Bool} (h : Canon s) : Canon (noteError p ue s) := canon_setMemCtl h
theorem canon_checkLine {found : Nat} (h : Canon s) : Canon (checkLine line err found symbols s) := by
  unfold checkLine
  extract_lets _ p covered s1 s2
  have hs1 : Canon s1 := by
    unfold s1
    split
    · exact canon_logMem h
    · exact canon_logMem (canon_setPoison h)
  have hs2 : Canon s2 := canon_noteError (canon_ctlCnt hs1)
  split
  · exact h
  · split
    · exact h
    · exact canon_noteError (canon_ctlCnt (canon_logMem h))
    · split
      · exact canon_retireUnit hs2
      · exact hs2
theorem canon_memRead (h : Canon s) : Canon (memRead line err symbols s) := by
  unfold memRead
  split
  · exact h
  · split
    · exact h
    · split
      · exact canon_answerSt (canon_logFencedOnce h)
      · extract_lets queued s1
        have hs1 : Canon s1 := by
          unfold s1
          split
          · exact canon_drainWq h
          · exact canon_checkLine h
        exact canon_answer hs1
theorem canon_memWrite {v : Vec} {mask : Word64} (h : Canon s) : Canon (memWrite line v mask s) := by
  unfold memWrite
  split
  · exact h
  · split
    · exact h
    · split
      · exact canon_logFencedOnce h
      · extract_lets full s1 s2 slot c s3
        have hs1 : Canon s1 := canon_writeBytes h
        have hs2 : Canon s2 := by
          unfold s2
          split
          · exact canon_setPoison hs1
          · exact hs1
        have hs3 : Canon s3 := canon_setMemCtl hs2
        split
        · exact canon_drainWq hs3
        · exact hs3
theorem canon_putOwed {v : Int} (h : Canon s) : Canon (putOwed u place bank v s) := canon_setMemCtl h
theorem canon_memRefresh {due : Bool} {ready : List Nat} (h : Canon s) : Canon (memRefresh u place bank due ready s) := by
  unfold memRefresh
  extract_lets c o
  split
  · split
    · split
      · exact canon_ctlCnt h
      · exact h
    · exact canon_putOwed h
  · split
    · split
      · exact h
      · exact canon_putOwed h
    · exact h
theorem canon_memTemp {temp : Nat} (h : Canon s) : Canon (memTemp u temp s) := by
  unfold memTemp
  extract_lets _ s1
  have hs1 : Canon s1 := canon_setMemCtl h
  split
  · exact canon_logMem hs1
  · exact hs1
theorem canon_eraseDevice {bank : Option Nat} {dev : Nat} (h : Canon s) : Canon (eraseDevice u place rank bank dev flags s) := by
  unfold eraseDevice
  extract_lets c
  split
  · exact h
  · split
    · exact canon_retireUnit h
    · exact canon_logMem (canon_setMemCtl h)
theorem canon_hbmPin (h : Canon s) : Canon (hbmPin u pc flags s) := by
  unfold hbmPin
  extract_lets c n
  split
  · exact canon_enterContain h
  · exact canon_useSpare (canon_logMem (canon_setMemCtl h))
theorem canon_repairLane (h : Canon s) : Canon (repairLane u lane pinOnly flags s) := by
  unfold repairLane
  split
  · split
    · exact canon_enterContain h
    · split
      · exact canon_enterContain h
      · extract_lets s1 _
        have hs1 : Canon s1 := canon_hbmPin h
        exact canon_setMemCtl hs1
  · exact canon_foldl (fun _ _ => canon_eraseDevice) h
theorem canon_putResult (h : Canon s) : Canon (putResult u lane wr v s) := canon_setMemCtl h
theorem canon_trainLane (h : Canon s) : Canon (trainLane sw u lane s) := by
  unfold trainLane
  split
  · exact h
  · extract_lets passes again s1
    have hs1 : Canon s1 := canon_putResult (canon_putResult h)
    split
    · exact canon_repairLane hs1
    · exact hs1
theorem canon_trainAll (h : Canon s) : Canon (trainAll sw s) := by
  unfold trainAll
  extract_lets s1
  have hs1 : Canon s1 := canon_foldl (fun _ _ => canon_setMemCtl) h
  exact canon_foldl (fun _ _ => canon_trainLane) hs1
theorem canon_memRecentre {l r : Nat} (h : Canon s) : Canon (memRecentre u lane wr l r pinOnly s) := by
  unfold memRecentre
  split
  · exact h
  · extract_lets old width v c s1 rank s2
    have hs1 : Canon s1 := canon_injectMaint (canon_ctlCnt (canon_putResult (canon_setMemCtl h)))
    have hs2 : Canon s2 := by
      unfold s2
      split
      · exact canon_logMem hs1
      · exact hs1
    split
    · exact canon_repairLane hs2
    · exact hs2
theorem canon_copyRow (h : Canon s) : Canon (copyRow u place bank row bad s) := by
  unfold copyRow
  refine canon_foldl (fun a1 x1 h1 => ?_) (canon_injectMaint h)
  extract_lets line _ p
  split
  · exact h1
  · exact canon_ctlCnt (canon_logMem (canon_setPoison h1))
theorem canon_eraseFor {mask : Nat} {isOver : MemCtl → Nat → Bool} (h : Canon s) : Canon (eraseFor u place bank mask isOver s) := by
  unfold eraseFor
  refine canon_foldl (fun a1 x1 h1 => ?_) h
  split
  · exact canon_eraseDevice h1
  · exact h1
theorem canon_rowSpare (h : Canon s) : Canon (rowSpare u place bank row bad s) := by
  unfold rowSpare
  extract_lets c p mask e s1
  have hs1 : Canon s1 := canon_copyRow (canon_useSpare (canon_logMem (canon_setMemCtl h)))
  split
  · exact h
  · split
    · exact h
    · split
      · split
        · extract_lets e1
          exact canon_copyRow (canon_useSpare (canon_logMem (canon_setMemCtl h)))
        · exact canon_enterContain h
      · split
        · exact canon_eraseFor h
        · exact canon_eraseFor hs1
theorem canon_bankSpare (h : Canon s) : Canon (bankSpare u pc bank s) := by
  unfold bankSpare
  extract_lets c x _
  split
  · exact h
  · split
    · exact canon_enterContain h
    · split
      · exact canon_enterContain h
      · exact canon_useSpare (canon_logMem (canon_setMemCtl h))
theorem canon_hmcSecCmd {n : Nat} (h : Canon s) : Canon (hmcSecCmd n v s).2 := by
  unfold hmcSecCmd
  extract_lets op c bit
  split
  · exact h
  · exact canon_setMemCtl h
theorem canon_memSectorSet {j mode : Nat} (h : Canon s) : Canon (memSectorSet j mode s).2 := by
  unfold memSectorSet
  split
  · exact h
  · split
    · exact h
    · extract_lets s1 base clean _
      have hs1 : Canon s1 := canon_foldl (fun _ _ h1 => canon_setReg (canon_setMemCtl h1)) h
      exact canon_zeroBytes (hs1.same rfl)
theorem canonOut_execScrubRead (h : Canon s) : CanonOut (execScrubRead line err symbols s) := by
  unfold execScrubRead
  split
  · exact canonOut_next h
  · split
    · exact canonOut_next h
    · exact canonOut_next (canon_ctlCnt (canon_checkLine (canon_injectMaint h)))
theorem canonOut_execEcsRead {u : Fin 16} (h : Canon s) : CanonOut (execEcsRead u dimm symbols s) := by
  unfold execEcsRead
  split
  · exact canonOut_next h
  · exact canonOut_next (canon_logMem h)
theorem canonOut_execRankRetire {u : Fin 16} (h : Canon s) : CanonOut (execRankRetire u dimm rank s) := by
  unfold execRankRetire
  split
  · exact canonOut_next h
  · exact canonOut_next (canon_retireUnit h)
theorem canonOut_execDimmRetire {u : Fin 16} (h : Canon s) : CanonOut (execDimmRetire u dimm s) := by
  unfold execDimmRetire
  split
  · exact canonOut_next h
  · exact canonOut_next (canon_retireUnit h)
end Sys2Proof.Machine
end

section
/-! Canonical memory: the home nodes and the caches' answers, command by command (10 R250 to R261). -/
namespace Sys2Proof.Machine
variable {s : State} {line n pc unit way : Nat} {k : ReqKind} {r : Requester} {v : Word32}
theorem canon_beginNext (h : Canon s) : Canon (beginNext line n s) := by
  induction n generalizing s with
  | zero => exact h
  | succ n ih =>
    unfold beginNext
    split
    · exact h
    · split
      · exact h
      next q _ =>
        extract_lets rest s1 s2 _ sn x g s3 _ s4 _
        have hs1 : Canon s1 := canon_countReq h
        split
        · have hs2 : Canon s2 := canon_completeDev (canon_serveEvict hs1)
          exact ih (hs2.same rfl)
        · split
          · have hs3 : Canon s3 := canon_homeDone hs1
            exact ih (hs3.same rfl)
          · have hs4 : Canon s4 := canon_bumpBy (canon_sendSnoops hs1)
            exact hs4.same rfl
theorem canon_sendReq {q : HomeReq} (h : Canon s) : Canon (sendReq q s) := by
  unfold sendReq
  split
  · exact h
  · extract_lets _ s1
    have hs1 : Canon s1 := h.same rfl
    exact canon_beginNext hs1
theorem canon_cachingReq {tc : BitVec 2} (h : Canon s) : Canon (cachingReq k r line tc s) := by
  unfold cachingReq
  split
  · extract_lets ok
    split
    · exact canon_sendReq h
    · exact h
  · exact canon_sendReq h
  · exact h
theorem canon_plainReq {b : ReqData} (h : Canon s) : Canon (plainReq k r line b s) := canon_sendReq h
theorem canon_evictReq (h : Canon s) : Canon (evictReq k pc line s) := by
  unfold evictReq
  split
  · exact canon_sendReq h
  · split
    · split
      · exact canon_sendReq (canon_toTransit h)
      · exact h
    · exact h
theorem canon_deliverSnoop {k : SnoopKind} (h : Canon s) : Canon (deliverSnoop k pc line s) := by
  unfold deliverSnoop
  extract_lets asked done x _ _
  have hx : Canon x.2 := canon_snoopL2 h
  split
  · exact hx.same rfl
  · exact h
theorem canon_proxyAnswer {a : SnoopAnswer} (h : Canon s) : Canon (proxyAnswer a s) := by
  unfold proxyAnswer
  extract_lets _ s1 h1 e owner s2
  have hs1 : Canon s1 := h.same rfl
  have hs2 : Canon s2 := by
    unfold s2
    split
    · exact canon_setDir hs1
    · exact hs1
  split
  · exact hs1
  · exact canon_cohSend hs2
theorem canon_answerArrives (h : Canon s) : Canon (answerArrives pc line s) := by
  unfold answerArrives
  split
  · exact h
  · split
    · exact canon_proxyAnswer h
    · extract_lets _ y x g s2 _ s3 s4 _ _
      have hy : Canon y.2 := canon_takeAnswer (h.same rfl)
      have hx : Canon x.2.2 := canon_homeDone hy
      have hs2 : Canon s2 := hx
      have hs3 : Canon s3 := hs2.same rfl
      have hs4 : Canon s4 := canon_clearLate hs3
      split
      · exact canon_beginNext hs4
      · exact hy.same rfl
theorem canon_grantArrives (h : Canon s) : Canon (grantArrives pc line s) := by
  unfold grantArrives
  split
  · exact h
  · exact canon_installL2 (h.same rfl)
theorem canon_evictAcked (h : Canon s) : Canon (evictAcked pc line s) := by
  unfold evictAcked
  split
  · exact h
  · exact canon_freeTransit h
theorem canon_snoopLate (h : Canon s) : Canon (snoopLate line s) := by
  unfold snoopLate
  split
  · exact h
  · extract_lets h1 p s1 _ s2 _
    have hs1 : Canon s1 := canon_logFault h
    have hs2 : Canon s2 := canon_setSlice hs1
    exact hs2.same rfl
theorem canon_freezeL3 (h : Canon s) : Canon (freezeL3 n s) := by
  unfold freezeL3
  extract_lets s1 _
  have hs1 : Canon s1 := by
    unfold s1
    refine canon_foldl (fun a1 x1 h1 => ?_) h
    split
    · exact canon_exposeStale h1
    · exact h1
  exact canon_setSlice hs1
theorem canon_l3Cmd (h : Canon s) : Canon (l3Cmd n v s).2 := by
  unfold l3Cmd
  extract_lets op ways sl j s1 _
  have hs1 : Canon s1 := by
    unfold s1
    split
    · exact canon_zeroBytes (canon_setSlice h)
    · exact h
  split
  · exact h
  · split
    · exact h
    · split
      · exact h
      · split
        · exact h
        · split
          · exact h
          · split
            · exact h
            · exact canon_setSlice hs1
theorem canon_l3CmdDone (h : Canon s) : Canon (l3CmdDone n s) := by
  unfold l3CmdDone
  extract_lets sl s1 _ j
  have hs1 : Canon s1 := canon_freezeL3 h
  split
  · exact h
  · split
    · exact canon_setSlice hs1
    · exact canon_setSlice h
    · exact canon_setSlice h
    · extract_lets m s0 _ s1b
      have hs0 : Canon s0 := canon_flushL3 h
      have hs1b : Canon s1b := canon_setSlice hs0
      exact canon_zeroBytes hs1b
theorem canon_hnCmo (h : Canon s) : Canon (hnCmo line v s).2 := by
  unfold hnCmo
  split
  · exact h
  · split
    · exact h
    · split
      · exact canon_request h
      · extract_lets s1 h1 _ s2 _
        have hs1 : Canon s1 := canon_request h
        have hs2 : Canon s2 := canon_setSlice hs1
        exact hs2.same rfl
theorem canon_beginRetire (h : Canon s) : Canon (beginRetire n way s) := by
  unfold beginRetire
  split
  · exact canon_setSlice h
  · exact h
theorem canon_patrol {what err : Nat} (h : Canon s) : Canon (patrol what unit way line err s) := by
  unfold patrol
  split
  · exact h
  · split
    · extract_lets p s1
      have hs1 : Canon s1 := canon_setPriv h
      exact canon_logFault hs1
    · split
      · extract_lets p s1
        have hs1 : Canon s1 := canon_setPriv h
        split
        · exact canon_setPriv h
        · split
          · exact canon_poisonLine hs1
          · split
            · split
              · exact canon_poisonLine hs1
              · exact canon_dropL2 hs1
            · exact hs1
      · extract_lets sl s1 _
        have hs1 : Canon s1 := canon_beginRetire (canon_setSlice h)
        split
        · exact canon_beginRetire (canon_setSlice h)
        · split
          · exact canon_poisonLine hs1
          · split
            · split
              · exact canon_poisonLine hs1
              · exact canon_setSlice hs1
            · exact hs1
theorem canon_retireDue {isL3 : Bool} {bad : Option Nat} (h : Canon s) : Canon (retireDue isL3 unit way bad s) := by
  unfold retireDue
  split
  · split
    · exact canon_retireL3Way h
    · exact h
  · split
    · exact canon_retireL2Way h
    · exact h
end Sys2Proof.Machine
end

section
/-! Canonical memory: reservations (12 R303 to R306). -/
namespace Sys2Proof.Machine
variable {s : State} {n w : Nat} {v : Word32}
theorem canon_holdRes (h : Canon s) : Canon (holdRes n w v s) := h.same rfl
theorem canon_dropHeldRes (h : Canon s) : Canon (dropHeldRes n w s) := h.same rfl
theorem canon_frkApply {off : Nat} (h : Canon s) : Canon (frkApply off v s) := by
  unfold frkApply
  split
  · extract_lets n
    split
    · exact canon_setReg (canon_dropHeldRes (canon_dropHeldRes (canon_setReg (canon_setReg h))))
    · exact canon_holdRes h
    · exact canon_holdRes h
  · exact canon_setReg h
end Sys2Proof.Machine
end

section
/-! Canonical memory: frames sent and the route of a message (15 R376 to R390). -/
namespace Sys2Proof.Machine
variable {s : State} {m : Msg} {n p : Nat}
theorem canon_setPort {x : Port} (h : Canon s) : Canon (setPort p x s) := h.same rfl
theorem canon_updPort {f : Port → Port} (h : Canon s) : Canon (updPort p f s) := canon_setPort h
theorem canon_vxTxflit (h : Canon s) : Canon (vxTxflit p n s) := canon_bumpBy h
theorem canon_vxRxflit (h : Canon s) : Canon (vxRxflit p n s) := canon_bumpBy h
theorem canon_vxRetry (h : Canon s) : Canon (vxRetry p s) := canon_bump h
theorem canon_vxFecUnc (h : Canon s) : Canon (vxFecUnc p s) := canon_bump h
theorem canon_vxEsc (h : Canon s) : Canon (vxEsc p s) := canon_bump h
theorem canon_vxDrop (h : Canon s) : Canon (vxDrop p s) := canon_bump h
theorem canon_latchWake {bit : Nat} (h : Canon s) : Canon (latchWake bit s) := by
  unfold latchWake
  extract_lets b _
  split
  · exact h
  · split
    · exact h.same rfl
    · split
      · exact h.same rfl
      · exact h
theorem canon_sendFrame {ms : List Msg} (h : Canon s) : Canon (sendFrame p ms s) := canon_vxTxflit (canon_setPort h)
theorem canon_sendCtl {kind : BitVec 8} {k : BitVec 40} {chunks : List (BitVec 128)} (h : Canon s) : Canon (sendCtl p kind k chunks s) := canon_sendFrame h
theorem canon_transmit (h : Canon s) : Canon (transmit p m s) := by
  unfold transmit
  extract_lets po s1 s2
  have hs1 : Canon s1 := canon_setPort h
  have hs2 : Canon s2 := canon_sendFrame (canon_serveFlits hs1)
  split
  · exact canon_vxEsc hs2
  · exact hs2
theorem canon_sendCohOne {m : CohMsg} (h : Canon s) : Canon (sendCohOne s m) := by
  unfold sendCohOne
  split
  · exact h
  · split
    · exact canon_transmit h
    · exact h.same rfl
theorem canon_sendCoh (h : Canon s) : Canon (sendCoh s) := canon_foldl (fun _ _ => canon_sendCohOne) (h.same rfl)
theorem canon_retrained (h : Canon s) : Canon (retrained p s) := canon_updPort h
theorem canon_route {expired : Bool} (h : Canon s) : Canon (route expired m s).2 := by
  unfold route
  extract_lets dst e up escPort esc free awake goMain m1 s1
  have hs1 : Canon s1 := by
    unfold s1
    split
    · exact canon_retrained h
    · exact h
  split
  · exact h
  · split
    · exact canon_logFault h
    · split
      · exact h
      · split
        · refine canon_transmit ?_
          split
          · exact canon_retrained h
          · exact h
        · split
          · exact h
          · split
            · exact canon_transmit hs1
            · exact hs1
theorem canon_countPassed {before : List (Nat × Msg)} (h : Canon s) : Canon (countPassed before s) := h.same rfl
theorem canon_sendMsg (h : Canon s) : Canon (sendMsg m s).2 := by
  unfold sendMsg
  extract_lets m1 r _ _
  have hr : Canon r.2 := canon_route h
  split
  · exact hr.same rfl
  · exact hr
theorem canon_newTid (h : Canon s) : Canon (newTid s).2 := h.same rfl
end Sys2Proof.Machine
end

section
/-! Canonical memory: queues and letters (13). A letter is stored in burst storage, in its ring or in the dead-letter ring. -/
namespace Sys2Proof.Machine
variable {s t : State} {dest : BitVec 32} {l : Letter} {before c k lc n q r : Nat} {sl : SendSlot} {v : Word32}
theorem canon_setQueue {x : Queue} (h : Canon s) : Canon (setQueue q x s) := h.same rfl
theorem canon_soCnt {off : Nat} (h : Canon s) : Canon (soCnt off s) := canon_bump h
theorem canon_setCtr {v : Word64} (h : Canon s) : Canon (setCtr c v s) := h.same rfl
theorem canon_putSlot {x : Option Slot} (h : Canon s) : Canon (putSlot n x s) := h.same rfl
theorem canon_fireSlot {x : Slot} (h : Canon s) : Canon (fireSlot n x s) := by
  unfold fireSlot
  extract_lets s1 _ _
  have hs1 : Canon s1 := canon_putSlot h
  exact hs1.same rfl
theorem canon_fireCtr (h : Canon s) : Canon (fireCtr c s) := canon_foldl (fun _ _ => canon_fireSlot) h
theorem canon_advanceCtr {n : Word64} (h : Canon s) : Canon (advanceCtr c n s) := canon_fireCtr (canon_setCtr h)
theorem canon_setCounter {v : Word64} (h : Canon s) : Canon (setCounter c v s) := canon_fireCtr (canon_setCtr h)
theorem canon_ringBell (h : Canon s) : Canon (ringBell q before s) := by
  unfold ringBell
  extract_lets x n th
  split
  · split
    · exact canon_raiseMsg (canon_setQueue h)
    · exact h
  · split
    · exact canon_setQueue h
    · exact h
  · split
    · exact canon_setQueue h
    · exact h
theorem canon_armQueue {only : Option Nat} (h : Canon s) : Canon (armQueue only s) := h.same rfl
theorem canon_freeIfDrained (h : Canon s) : Canon (freeIfDrained q s) := by
  unfold freeIfDrained
  extract_lets x s1 _
  have hs1 : Canon s1 := canon_setQueue h
  split
  · exact hs1.same rfl
  · exact h
theorem canon_deadLetter (h : Canon s) (e : deadLetter r q l s = some t) : Canon t := by
  unfold deadLetter at e
  split at e
  · cases e
  · cases e
    exact canon_soCnt (canon_setReg (canon_agentWrite h))
theorem canon_sopInject {pa : Nat} (h : Canon s) : Canon (sopInject q pa s) := canon_inject h
theorem canon_storeLetter (h : Canon s) (e : storeLetter q l s = some t) : Canon t := by
  unfold storeLetter at e
  extract_lets x at e
  split at e
  · cases e
    exact canon_setQueue h
  · split at e
    · cases e
      exact canon_soCnt (canon_sopInject (canon_setQueue (canon_agentWrite h)))
    · cases e
theorem canon_accepted (h : Canon s) : Canon (accepted q before s) := by
  unfold accepted
  extract_lets s1 x
  have hs1 : Canon s1 := canon_armQueue (canon_ringBell (canon_soCnt h))
  split
  · exact canon_advanceCtr hs1
  · exact hs1
theorem canon_offer (h : Canon s) : Canon (offer q l s).2 := by
  unfold offer
  extract_lets x
  split
  · exact h
  · split
    · exact h
    · exact h
    · exact h
    · split
      · exact h
      · split
        next s1 e1 => exact canon_accepted (canon_storeLetter h e1)
        · exact h
theorem canon_report {via : Option Nat} {indlr : Bool} {device : Nat} (h : Canon s) : Canon (report via r indlr device l s) := by
  unfold report
  split
  · exact h
  next v =>
    extract_lets x cq rep o
    split
    · exact h
    · have ho : Canon o.2 := canon_offer (canon_soCnt h)
      split
      · exact ho
      · split
        next s1 e1 => exact canon_deadLetter ho e1
        · exact canon_soCnt ho
theorem canon_deliver (h : Canon s) : Canon (deliver q l s).2 := by
  unfold deliver
  split
  · exact canon_soCnt h
  · extract_lets o
    have ho : Canon o.2 := by
      unfold o
      split
      · exact h
      · exact canon_offer h
    split
    · exact ho
    · split
      · split
        next s1 e1 => exact canon_report (canon_deadLetter ho e1)
        · exact canon_soCnt ho
      · exact canon_report ho
theorem canon_setSender {xs : List SendSlot} (h : Canon s) : Canon (setSender k xs s) := h.same rfl
theorem canon_portTakes (h : Canon s) : Canon (portTakes q l s) := by
  unfold portTakes
  extract_lets x dest s1
  have hs1 : Canon s1 := canon_setSender h
  split
  · exact canon_accepted hs1
  · exact canon_report h
theorem canon_injectLetter {rs : List Nat} (h : Canon s) : Canon (injectLetter k sl rs s) := canon_inject h
theorem canon_sendAway (h : Canon s) : Canon (sendAway k sl s) := by
  unfold sendAway
  extract_lets t ordered tc m0 rs m r
  have ht : Canon t.2 := canon_newTid h
  have hr : Canon r.2 := canon_sendMsg (canon_injectLetter ht)
  split
  · exact canon_setSender hr
  · exact canon_setSender hr
  · exact canon_setSender hr
  · exact canon_report (canon_setSender hr)
theorem canon_serveSender {retry : Bool} (h : Canon s) : Canon (serveSender retry k dest s) := by
  unfold serveSender
  split
  · exact h
  · split
    · exact canon_sendAway h
    · extract_lets q sentOn s1 _ l d
      have hs1 : Canon s1 := by
        unfold s1
        refine canon_serveFlits ?_
        split
        · exact h
        · exact canon_injectLetter h
      have hd : Canon d.2 := canon_deliver hs1
      split
      · exact canon_portTakes (canon_setSender hs1)
      · split <;> exact canon_setSender hd
theorem canon_postFrom (h : Canon s) : Canon (postFrom q dest l s) := canon_serveSender (canon_setSender h)
theorem canon_giveUp (h : Canon s) : Canon (giveUp k dest s) := by
  unfold giveUp
  split
  · exact h
  · exact canon_report (canon_setSender h)
theorem canon_releaseLetter {tc : BitVec 2} {v : Vec} (h : Canon s) : Canon (releaseLetter lc dest tc v s) := by
  unfold releaseLetter
  split
  · exact h
  · extract_lets l
    exact canon_setSender h
theorem canon_takeSlot (h : Canon s) (e : takeSlot lc s = some t) : Canon t := by
  unfold takeSlot at e
  split at e
  · cases e
  · cases e
    exact canon_setSender h
theorem canon_freeSlots (h : Canon s) : Canon (freeSlots lc s) := canon_setSender h
theorem canon_readRing {e : RingEntry} (h : Canon s) : Canon (readRing q e s).2 := by
  unfold readRing
  extract_lets r
  have hr : Canon r.2.2 := canon_agentRead (canon_sopInject h)
  split
  · split
    next s1 e1 => exact canon_ringBell (canon_setQueue (canon_deadLetter hr e1))
    · exact hr
  · exact hr
theorem canon_refill (h : Canon s) : Canon (refill q s) := by
  unfold refill
  extract_lets x
  split
  · exact h
  · split
    · exact h
    · extract_lets r y
      have hr : Canon r.2 := canon_readRing h
      split
      · exact canon_setQueue hr
      · exact canon_freeIfDrained hr
      · exact hr
theorem canon_takeHead (h : Canon s) : Canon (takeHead q n s).2 := by
  induction n generalizing s with
  | zero => exact h
  | succ n ih =>
    unfold takeHead
    extract_lets x
    split
    · exact canon_setQueue h
    next e _ _ _ =>
      extract_lets r
      have hr : Canon r.2 := canon_readRing h
      split
      · exact canon_setQueue hr
      · exact ih hr
      · exact hr
    · exact h
theorem canon_takeLease (h : Canon s) : Canon (takeLease lc q s) := by
  unfold takeLease
  extract_lets x
  split
  · exact canon_setQueue h
  · exact h
theorem canon_consume {isTry : Bool} (h : Canon s) : Canon (consume lc q isTry s).2.2 := by
  unfold consume
  extract_lets x s1 h1
  have hs1 : Canon s1 := canon_takeLease h
  have hh1 : Canon h1.2 := canon_takeHead hs1
  split
  · exact h
  · split
    · exact h
    · split
      · exact h
      · split
        · exact h
        · split
          · exact hs1
          · split
            · exact hs1
            · split
              · exact canon_freeIfDrained (canon_ringBell (canon_soCnt hh1))
              · exact canon_freeIfDrained (canon_ringBell hh1)
theorem canon_flushFrom (h : Canon s) : Canon (flushFrom q n s) := by
  induction n generalizing s with
  | zero => exact h
  | succ n ih =>
    unfold flushFrom
    extract_lets x
    split
    next l _ _ =>
      split
      next s1 e1 => exact ih (canon_report (canon_setQueue (canon_deadLetter h e1)))
      · exact h
    next e _ _ _ =>
      extract_lets rd l
      have hrd : Canon rd.2.2 := canon_agentRead (canon_sopInject h)
      split
      next s1 e1 =>
        extract_lets s2
        have hs2 : Canon s2 := canon_setQueue (canon_deadLetter hrd e1)
        refine ih ?_
        split
        · exact hs2
        · exact canon_report hs2
      · exact hrd
    · exact h
theorem canon_flushQueue (h : Canon s) : Canon (flushQueue q s) := by
  unfold flushQueue
  extract_lets n s1
  have hs1 : Canon s1 := canon_flushFrom h
  exact canon_freeIfDrained (canon_ringBell hs1)
theorem canon_soQcmd {im : Nat → Word32} (h : Canon s) : Canon (soQcmd im v s).2 := by
  unfold soQcmd
  extract_lets op q x uses ring wrong code s1
  split
  · exact h
  · clear_value op
    split
    · exact canon_setQueue h
    · exact canon_setQueue h
    · exact canon_freeIfDrained (canon_setQueue h)
    · exact canon_flushQueue (canon_setQueue h)
theorem canon_soDlrTail (h : Canon s) : Canon (soDlrTail v s).2 := by
  unfold soDlrTail
  split
  · exact h
  · refine canon_foldl (fun a1 x1 h1 => ?_) (canon_setReg h)
    split
    · exact canon_flushQueue h1
    · exact h1
theorem canon_soStart (h : Canon s) : Canon (soStart v s).2 := by
  unfold soStart
  split
  · exact h
  · split
    · exact h
    · split
      · exact h
      · exact h.same rfl
theorem canonOut_execDoorbellHoldExpiry {q : Fin 65536} (h : Canon s) : CanonOut (execDoorbellHoldExpiry q s) := by
  unfold execDoorbellHoldExpiry
  extract_lets x
  split
  · exact canonOut_next (canon_raiseMsg (canon_setQueue h))
  · exact canonOut_next h
theorem canonOut_execLeaseLapse {q : Fin 65536} (h : Canon s) : CanonOut (execLeaseLapse q s) := by
  unfold execLeaseLapse
  extract_lets x
  split
  · exact canonOut_next (canon_setQueue h)
  · exact canonOut_next h
end Sys2Proof.Machine
end

section
/-! Canonical memory: command letters, what they move and their completion (14 R349 to R371). -/
namespace Sys2Proof.Machine
variable {s : State} {poison : Bool} {c : Cmd} {f : Forward} {accs : List Acc} {m : Msg} {dst flags fpx init n op pa q round src st tc x : Nat} {r : Running}
theorem canon_soGrantSet {a : Nat → Nat} (h : Canon s) : Canon (soGrantSet a s).2 := by
  unfold soGrantSet
  extract_lets limit _ g
  split
  · exact h
  · split
    · exact h.same rfl
    · split
      · exact h
      · exact h.same rfl
theorem canon_soRegionSet {a : Nat → Nat} (h : Canon s) : Canon (soRegionSet a s).2 := by
  unfold soRegionSet
  split
  · exact h
  · split
    · exact h.same rfl
    · split
      · exact h
      · extract_lets g _
        exact h.same rfl
theorem canon_copyPiece (h : Canon s) : Canon (copyPiece init tc src dst n s).2 := by
  unfold copyPiece
  extract_lets r s1
  have hr : Canon r.2.2 := canon_agentRead (canon_injectLines h)
  have hs1 : Canon s1 := canon_agentWrite (canon_injectLines hr)
  split
  · exact canon_poisonLine hs1
  · exact hs1
theorem canon_copyBytes {k : Nat} (h : Canon s) : Canon (copyBytes init tc k src dst n s).2 := by
  induction k generalizing src dst n s with
  | zero => exact h
  | succ k ih =>
    unfold copyBytes
    split
    · exact h
    · exact ih (canon_copyPiece h)
theorem canon_writeMasked {mask : Nat} {v : Vec} (h : Canon s) : Canon (writeMasked tc pa mask poison v s) := by
  unfold writeMasked
  refine canon_foldl (fun a1 x1 h1 => ?_) h
  split
  · extract_lets a1b
    have ha1b : Canon a1b := canon_agentWrite h1
    split
    · exact canon_poisonLine ha1b
    · exact ha1b
  · exact h1
theorem canon_postCompletion {number value cpm : Nat} (h : Canon s) : Canon (postCompletion c st flags fpx number value cpm s) := canon_postFrom h
theorem canon_setCtx {v : Ctx} (h : Canon s) : Canon (setCtx x v s) := h.same rfl
theorem canon_roundDone (h : Canon s) : Canon (roundDone x c round st fpx s) := by
  unfold roundDone
  extract_lets s1
  have hs1 : Canon s1 := by
    unfold s1
    split
    · exact canon_advanceCtr h
    · exact h
  split
  · exact canon_postCompletion hs1
  · exact hs1
theorem canon_sendOf (h : Canon s) : Canon (sendOf init m s).2 := canon_sendMsg (canon_inject h)
theorem canon_sendData {init : Option Nat} {ms : List Msg} (h : Canon s) : Canon (sendData init ms s) := by
  unfold sendData
  refine canon_foldl (fun a1 x1 h1 => ?_) h
  split
  · exact canon_sendOf h1
  · exact canon_sendMsg h1
theorem canon_finishRound (h : Canon s) : Canon (finishRound x c accs round s) := by
  unfold finishRound
  split
  · extract_lets t f s1 _ s2
    have ht : Canon t.2 := canon_newTid h
    have hs1 : Canon s1 := by
      unfold s1
      split
      · exact canon_inject ht
      · exact ht
    have hs2 : Canon s2 := hs1.same rfl
    split
    · exact hs2
    · split
      · exact hs2
      · extract_lets r
        have hr : Canon r.2 := canon_sendOf hs2
        split
        · exact canon_sendData hr
        · exact canon_roundDone hs1
  · extract_lets rs fpx u code s1
    have hs1 : Canon s1 := canon_injectLines h
    split
    · exact canon_roundDone h
    · exact canon_roundDone (canon_agentWrite hs1)
theorem canon_addToCtx (h : Canon s) : Canon (addToCtx x accs s) := by
  unfold addToCtx
  extract_lets k
  split
  · exact h
  · split
    · exact canon_setCtx h
    · exact canon_finishRound (canon_setCtx h)
theorem canon_addValues {rop : Nat} {vs : List Word64} (h : Canon s) : Canon (addValues x rop vs s) := canon_addToCtx h
theorem canon_mergeForward (h : Canon s) : Canon (mergeForward f s).2 := by
  unfold mergeForward
  split
  · exact h
  · extract_lets code
    split
    · exact h
    · exact canon_addToCtx h
theorem canon_forwardDone (h : Canon s) : Canon (forwardDone f st s) := by
  unfold forwardDone
  split
  · exact canon_roundDone h
  · exact h
theorem canon_forwardArrives (h : Canon s) : Canon (forwardArrives f s) := by
  unfold forwardArrives
  split
  · split
    · extract_lets _ r
      have hr : Canon r.2 := canon_mergeForward (h.same rfl)
      exact canon_forwardDone hr
    · exact h
  · extract_lets r
    have hr : Canon r.2 := canon_mergeForward h
    exact canon_sendMsg hr
theorem canon_addRunning (h : Canon s) : Canon (addRunning r s) := h.same rfl
theorem canon_popCmd (h : Canon s) : Canon (popCmd q s) := canon_freeIfDrained (canon_ringBell (canon_takeHead h))
theorem canon_takeCmd {t : State} (h : Canon s) (e : takeCmd q op s = some (c, t)) : Canon t := by
  unfold takeCmd at e
  split at e
  · split at e
    · cases e
      exact h.same rfl
    · cases e
  · split at e
    · split at e
      · cases e
        exact canon_popCmd h
      · cases e
    · cases e
theorem canon_begin_ {codes : Cmd → State → List Nat} {act : Cmd → State → Running × State} (hact : ∀ c a, Canon a → Canon (act c a).2) (h : Canon s)
    : Canon (begin_ q op codes act s) := by
  unfold begin_
  split
  · exact h
  next c s1 e1 =>
    extract_lets code
    have hs1 : Canon s1 := canon_takeCmd h e1
    split
    · exact canon_addRunning hs1
    · exact canon_addRunning (hact _ _ hs1)
theorem canon_sendCommand {data : List Byte} {regions : List Nat} (h : Canon s) : Canon (sendCommand c data poison regions s).2 := by
  unfold sendCommand
  extract_lets t tc r
  have ht : Canon t.2 := canon_newTid h
  have hr : Canon r.2 := canon_sendOf ht
  split
  · exact canon_sendData hr
  · exact hr
theorem canon_putAct (h : Canon s) : Canon (putAct c s).2 := by
  unfold putAct
  extract_lets src r r1
  have hr : Canon r.2 := canon_copyBytes h
  have hr1 : Canon r1.2.2 := canon_agentRead (canon_injectLines h)
  split
  · exact hr
  · exact canon_sendCommand hr1
theorem canon_putiAct (h : Canon s) : Canon (putiAct c s).2 := by
  unfold putiAct
  split
  · extract_lets pa
    exact canon_agentWrite (canon_injectLines h)
  · exact canon_sendCommand h
theorem canon_getAct (h : Canon s) : Canon (getAct c s).2 := by
  unfold getAct
  split
  · extract_lets r
    have hr : Canon r.2 := canon_copyBytes h
    exact hr
  · exact canon_sendCommand h
theorem canon_amoDo (h : Canon s) : Canon (amoDo c pa s).2.2.2 := by
  unfold amoDo
  split
  · exact h
  · extract_lets r
    have hr : Canon r.2 := canon_agentAmo h
    exact hr
theorem canon_amoAct (h : Canon s) : Canon (amoAct c s).2 := by
  unfold amoAct
  split
  · extract_lets pa r
    have hr : Canon r.2.2.2 := canon_amoDo (canon_injectLines h)
    exact hr
  · exact canon_sendCommand h
theorem canon_copyAct (h : Canon s) : Canon (copyAct c s).2 := by
  unfold copyAct
  extract_lets r
  have hr : Canon r.2 := canon_copyBytes h
  exact hr
theorem canon_ctraddAct (h : Canon s) : Canon (ctraddAct c s).2 := by
  unfold ctraddAct
  split
  · exact canon_advanceCtr h
  · exact canon_sendCommand h
theorem canon_cancelAct (h : Canon s) : Canon (cancelAct c s).2 := by
  unfold cancelAct
  split
  · exact canon_putSlot h
  · exact h
theorem canon_contribAct (h : Canon s) : Canon (contribAct c s).2 := by
  unfold contribAct
  extract_lets g pa n r rop
  have hr : Canon r.2.2 := canon_agentRead (canon_injectLines h)
  split
  · exact hr
  · split
    · exact canon_addValues hr
    · exact canon_sendCommand hr
theorem canon_ctxsetAct (h : Canon s) : Canon (ctxsetAct c s).2 := canon_setCtx h
theorem canon_armHead (h : Canon s) : Canon (armHead q s) := by
  unfold armHead
  split
  · exact h
  · split
    · exact h
    · extract_lets s1 code x s2 _
      have hs1 : Canon s1 := canon_popCmd h
      have hs2 : Canon s2 := canon_putSlot hs1
      split
      · exact canon_addRunning hs1
      · exact canon_fireCtr (hs2.same rfl)
theorem canon_rctrDone (h : Canon s) : Canon (rctrDone r s) := by
  unfold rctrDone
  split
  · exact canon_advanceCtr h
  · exact h
theorem canon_completeCmd (h : Canon s) : Canon (completeCmd r s) := by
  unfold completeCmd
  extract_lets c _ s1 s2
  have hs1 : Canon s1 := canon_rctrDone (h.same rfl)
  have hs2 : Canon s2 := by
    unfold s2
    split
    · exact canon_advanceCtr hs1
    · exact hs1
  split
  · exact canon_postCompletion hs2
  · exact hs2
theorem canon_completeNth {late : Bool} (h : Canon s) : Canon (completeNth q n late s) := by
  unfold completeNth
  split
  · split
    · exact canon_completeCmd h
    · split
      · exact canon_completeCmd (h.same rfl)
      · exact h
  · split
    · split
      · exact canon_forwardDone (h.same rfl)
      · exact h
    · split
      · extract_lets r
        exact canon_completeCmd (canon_addRunning (canon_popCmd h))
      · exact h
    · exact h
theorem canon_advanceRctr (h : Canon s) : Canon (advanceRctr c s) := by
  unfold advanceRctr
  split
  · exact canon_advanceCtr h
  · exact h
theorem canon_reply {v : Word64} (h : Canon s) : Canon (reply m st flags v s) := canon_sendMsg h
theorem canon_servedWith {code : Nat} (h : Canon s) : Canon (servedWith c code pa m s) := by
  unfold servedWith
  split
  · exact canon_reply h
  · split
    · split
      · exact canon_reply (canon_advanceRctr h)
      · exact h.same rfl
    · exact canon_reply (canon_advanceRctr (canon_agentWrite h))
    · extract_lets r
      have hr : Canon r.2.2 := canon_agentRead h
      clear_value r
      exact canon_reply (canon_advanceRctr (canon_sendData hr))
    · extract_lets r
      have hr : Canon r.2.2.2 := canon_amoDo h
      clear_value r
      refine canon_reply ?_
      split
      · exact canon_advanceRctr hr
      · exact hr
    · exact canon_reply (canon_advanceCtr h)
    · exact h.same rfl
theorem canon_serveCommand (h : Canon s) : Canon (serveCommand m s) := by
  rw [serveCommand_eq]
  exact canon_servedWith h
theorem canon_serveData (h : Canon s) : Canon (serveData m s) := by
  unfold serveData
  split
  · exact h
  · extract_lets c _ drop n pa s1 left poison _
    have hdrop : Canon drop := h.same rfl
    have hs1 : Canon s1 := canon_writeMasked h
    split
    · split
      · exact canon_reply hdrop
      · split
        · exact canon_reply hdrop
        · split
          · exact canon_reply hdrop
          · exact canon_reply (canon_addValues hdrop)
    · split
      · exact canon_reply hdrop
      · split
        · exact canon_reply (canon_advanceRctr (hs1.same rfl))
        · exact hs1.same rfl
theorem canon_dataTaken {taken : Bool} (h : Canon s) : Canon (dataTaken r taken n poison s) := h.same rfl
theorem canon_takeReadData (h : Canon s) : Canon (takeReadData m s) := by
  cases hfind : s.office.cmds.find? fun r => r.tid == some m.tid && cRdev r.cmd == m.src.toNat with
  | none =>
    rw [takeReadData, hfind]
    exact h
  | some r =>
    rw [takeReadData_eq hfind]
    refine canon_dataTaken ?_
    split
    · exact h
    · exact canon_writeMasked h
theorem canon_takeResponse (h : Canon s) : Canon (takeResponse m s) := by
  unfold takeResponse
  extract_lets w st _
  split
  · extract_lets y
    exact h.same rfl
  · split
    · exact canon_forwardDone (h.same rfl)
    · exact h
end Sys2Proof.Machine
end

section
/-! Canonical memory: the ports, joined devices and system time on links (10 R262 to R271; 15). -/
namespace Sys2Proof.Machine
variable {s : State} {akind : BitVec 2} {aseq : BitVec 8} {ok retrainOk : Bool} {th : Int} {eyes : List Nat} {m : Msg} {lane n p reason slot : Nat} {v : Word32}
theorem canon_giveCredit (h : Canon s) : Canon (giveCredit p m s) := by
  unfold giveCredit
  split
  · exact canon_sendCtl h
  · exact h
theorem canon_letterAcked (h : Canon s) : Canon (letterAcked m s) := h.same rfl
theorem canon_letterNaked {device : Nat} (h : Canon s) : Canon (letterNaked m device s) := by
  unfold letterNaked
  split
  · exact h
  · extract_lets r
    split
    · exact canon_setSender h
    · exact canon_report (canon_setSender h)
theorem canon_refuseMsg (h : Canon s) : Canon (refuseMsg p m s) := by
  unfold refuseMsg
  extract_lets own answer _
  have hanswer (a1 : Msg) : Canon (answer a1) := by
    unfold answer
    extract_lets r
    have hr : Canon r.2 := canon_sendMsg h
    split
    · exact canon_vxDrop hr
    · exact hr
  split
  · split
    · exact canon_letterNaked h
    · exact hanswer _
  · split
    · exact canon_takeResponse h
    · exact hanswer _
  · exact h
theorem canon_forwardMsg {expired : Bool} (h : Canon s) : Canon (forwardMsg expired p m s) := by
  unfold forwardMsg
  extract_lets r _ _
  have hr : Canon r.2 := canon_route h
  split
  · exact canon_giveCredit hr
  · exact hr.same rfl
  · exact canon_giveCredit (canon_refuseMsg hr)
  · exact canon_giveCredit (canon_refuseMsg hr)
  · exact hr
theorem canon_reroute (h : Canon s) : Canon (reroute s) := canon_sendCoh (canon_countPassed (canon_foldl (fun _ _ => canon_forwardMsg) (h.same rfl)))
theorem canon_letterHere (h : Canon s) : Canon (letterHere m s) := by
  unfold letterHere
  extract_lets data now low base pm r ans
  have hr : Canon r.2 := canon_deliver h
  have hans (k1 : BitVec 8) (n1 : Nat) : Canon (ans k1 n1) := canon_sendMsg hr
  split <;> exact hans _ _
theorem canon_injectMsg (h : Canon s) : Canon (injectMsg p m s).2 := by
  unfold injectMsg
  extract_lets n rs
  split
  · exact h
  · exact canon_inject h
theorem canon_arrive {kind : Nat} {here : Msg → State → State} (hhere : ∀ x a, Canon a → Canon (here x a)) (hs : Canon s) : Canon (arrive p m kind here s) := by
  unfold arrive
  split
  · extract_lets x
    have hx : Canon x.2 := canon_injectMsg (canon_latchWake hs)
    split
    · exact canon_giveCredit (hhere _ _ hx)
    · exact canon_forwardMsg hx
  · exact hs
theorem canon_abortSweep (h : Canon s) : Canon (abortSweep p reason s) := by
  unfold abortSweep
  extract_lets po q _ s1
  have hs1 : Canon s1 := canon_setPort h
  split
  · split
    · exact canon_sendCtl hs1
    · exact hs1
  · exact h
theorem canon_dropInFlight (h : Canon s) : Canon (dropInFlight slot s) := by
  unfold dropInFlight
  extract_lets ours lost s1 late _ _ s2
  have hs1 : Canon s1 := canon_foldl (fun _ _ h1 => canon_pulse (canon_logFault h1)) h
  have hs2 : Canon s2 := hs1.same rfl
  exact canon_ackTargets (canon_foldl (fun _ _ => canon_settle) hs2)
theorem canon_blockSwitched {k : Nat} (h : Canon s) : Canon (blockSwitched k s) := by
  unfold blockSwitched
  split
  · extract_lets left _ s1
    have hs1 : Canon s1 := h.same rfl
    split
    · exact canon_pulse hs1
    · exact hs1
  · exact h
theorem canon_splitPair {trigger : Nat} {log : Bool} (h : Canon s) : Canon (splitPair p trigger log s) := by
  unfold splitPair
  extract_lets po slot ps s1 _ s2
  have hs1 : Canon s1 := canon_foldl (fun _ _ => canon_updPort) h
  have hs2 : Canon s2 := canon_blockSwitched (canon_dropInFlight (hs1.same rfl))
  split
  · exact h
  · split
    · exact canon_logFault hs2
    · exact hs2
theorem canon_checkParent (h : Canon s) : Canon (checkParent s) := by
  unfold checkParent
  extract_lets _ s0 _
  have hs0 : Canon s0 := by
    unfold s0
    split
    · split
      · exact h
      · exact h.same rfl
    · exact h
  split
  · exact canon_logFault (hs0.same rfl)
  · exact hs0
theorem canon_outOfService (h : Canon s) : Canon (outOfService p s) := by
  unfold outOfService
  extract_lets po _ s1 others _ _ s2 s3
  have hs1 : Canon s1 := canon_setPort (canon_abortSweep h)
  have hs2 : Canon s2 := by
    unfold s2
    split
    · exact canon_splitPair hs1
    · split
      · exact canon_setPort hs1
      · split
        · exact canon_setPort hs1
        · exact hs1
  have hs3 : Canon s3 := canon_checkParent (canon_reroute hs2)
  split
  · exact h
  · split
    · exact canon_sendMsg hs3
    · exact hs3
theorem canon_resync {seq : BitVec 8} (h : Canon s) : Canon (resync p seq s) := by
  unfold resync
  extract_lets po ms s1
  have hs1 : Canon s1 := canon_setPort h
  exact canon_foldl (fun _ _ => canon_forwardMsg) hs1
theorem canon_resyncHere (h : Canon s) : Canon (resyncHere m s) := by
  unfold resyncHere
  split
  · exact h
  · extract_lets s1
    have hs1 : Canon s1 := by
      unfold s1
      split
      · exact canon_outOfService h
      · exact h
    exact canon_resync hs1
theorem canon_resyncLate (h : Canon s) : Canon (resyncLate p s) := by
  unfold resyncLate
  extract_lets po ms
  split
  · exact canon_foldl (fun _ _ => canon_refuseMsg) (canon_setPort h)
  · exact h
theorem canon_settleSleep (h : Canon s) : Canon (settleSleep p s) := by
  unfold settleSleep
  extract_lets po
  split
  · exact canon_reroute (canon_setPort h)
  · exact h
theorem canon_fastRetrain (h : Canon s) : Canon (fastRetrain p ok s) := by
  unfold fastRetrain
  split
  · exact canon_retrained h
  · extract_lets po fails s1
    have hs1 : Canon s1 := canon_setPort h
    split
    · exact canon_outOfService (canon_logFault hs1)
    · exact hs1
theorem canon_takeAck (h : Canon s) : Canon (takeAck p aseq akind retrainOk s) := by
  unfold takeAck
  extract_lets po rest n s1
  have hs1 : Canon s1 := canon_vxRetry (canon_setPort h)
  split
  · exact canon_settleSleep (canon_setPort h)
  · split
    · split
      · exact canon_fastRetrain hs1
      · exact hs1
    · exact h
theorem canon_frameArrives {fseq : BitVec 8} {coh good : Bool} {slots : Nat} (h : Canon s) : Canon (frameArrives p fseq aseq akind coh good slots retrainOk s) := by
  unfold frameArrives
  extract_lets po s1 s2 s1b
  have hs1 : Canon s1 := canon_vxRxflit (canon_setPort h)
  have hs2 : Canon s2 := canon_takeAck hs1
  have hs1b : Canon s1b := canon_setPort h
  split
  · exact h
  · split
    · split
      · exact canon_splitPair hs2
      · exact hs2
    · split
      · exact hs1b
      · exact canon_vxFecUnc hs1b
theorem canon_trainFailed (h : Canon s) : Canon (trainFailed p lane s) := by
  unfold trainFailed
  extract_lets po
  split
  · exact canon_outOfService (canon_logFault (canon_setPort h))
  · exact canon_setPort h
theorem canon_capsArrive {stepsOk : Bool} {usable : BitVec 5} {dev pport major : Nat} (h : Canon s)
    : Canon (capsArrive p stepsOk usable eyes dev slot pport major s) := by
  unfold capsArrive
  extract_lets po ls wide data spare po1 s1
  have hs1 : Canon s1 := canon_setPort h
  split
  · exact h
  · split
    · exact canon_trainFailed h
    · refine canon_reroute ?_
      split
      · exact hs1
      · exact canon_logFault hs1
theorem canon_vxCmd (h : Canon s) : Canon (vxCmd p v s).2 := by
  unfold vxCmd
  extract_lets op po _
  split
  · exact h
  · split
    · exact h
    · split
      · exact canon_outOfService h
      · exact canon_setPort (canon_abortSweep h)
theorem canon_degrade (h : Canon s) : Canon (degrade p lane eyes s) := by
  unfold degrade
  extract_lets po bad ls
  split
  · exact canon_outOfService (canon_logFault (canon_setPort h))
  · exact canon_logFault (canon_setPort h)
theorem canon_laneFails {s0 : State} (h : Canon s0) : Canon (laneFails p lane eyes s0) := by
  unfold laneFails
  split
  · exact h
  · extract_lets s po lanes s1
    have hs : Canon s := canon_abortSweep h
    have hs1 : Canon s1 := canon_setPort hs
    split
    · exact canon_useSpare (canon_logFault (canon_sendCtl hs1))
    · exact canon_degrade hs
theorem canon_swapArrives {back : Bool} (h : Canon s) : Canon (swapArrives p lane back eyes s) := by
  unfold swapArrives
  extract_lets po l l1
  split
  · exact h
  · split
    · split
      · exact h
      · exact canon_setPort h
    · split
      · exact h
      · split
        · exact canon_degrade h
        · exact canon_setPort h
theorem canon_standbyIdle (h : Canon s) : Canon (standbyIdle p s) := by
  unfold standbyIdle
  extract_lets po
  split
  · exact canon_setPort (canon_abortSweep h)
  · exact h
theorem canon_askSleep (h : Canon s) : Canon (askSleep p s) := by
  unfold askSleep
  extract_lets po want
  split
  · exact canon_sendCtl (canon_setPort h)
  · exact h
theorem canon_sleepAsked (h : Canon s) : Canon (sleepAsked p s) := by
  unfold sleepAsked
  extract_lets po s1 _
  have hs1 : Canon s1 := canon_sendCtl h
  split
  · exact h
  · split
    · exact canon_settleSleep (canon_setPort h)
    · split
      · exact h
      · exact canon_setPort hs1
theorem canon_sleepAcked (h : Canon s) : Canon (sleepAcked p s) := by
  unfold sleepAcked
  extract_lets po
  split
  · exact canon_settleSleep (canon_setPort h)
  · exact h
theorem canon_wakeArrives (h : Canon s) : Canon (wakeArrives p s) := by
  unfold wakeArrives
  split
  · exact canon_reroute (canon_latchWake (canon_retrained h))
  · exact h
theorem canon_vxSweep (h : Canon s) : Canon (vxSweep p v s).2 := by
  unfold vxSweep
  extract_lets op lane po
  split
  · exact h
  · split
    · exact h
    · split
      · exact canon_abortSweep h
      · split
        · exact h
        · split
          · exact h
          · exact canon_sendCtl (canon_setPort h)
theorem canon_sweepAsked (h : Canon s) : Canon (sweepAsked p lane s) := by
  unfold sweepAsked
  split
  · exact h
  · split
    · exact canon_sendCtl (canon_updPort h)
    · exact canon_sendCtl h
theorem canon_sweepAnswered {accept : Bool} (h : Canon s) : Canon (sweepAnswered p accept s) := by
  unfold sweepAnswered
  extract_lets po l _
  split
  · exact h
  · split
    · exact canon_abortSweep h
    · split
      · exact canon_sendCtl (canon_setPort h)
      · exact h
theorem canon_sweepEnded (h : Canon s) : Canon (sweepEnded p s) := canon_abortSweep (canon_updPort h)
theorem canon_sweepDone {r0 r1 r2 : Word32} (h : Canon s) : Canon (sweepDone p r0 r1 r2 s) := by
  unfold sweepDone
  extract_lets po q _ s1
  have hs1 : Canon s1 := canon_setPort h
  split
  · exact h
  · exact canon_sendCtl (canon_setReg (canon_setReg (canon_setReg hs1)))
theorem canon_setRate {r : Int} (h : Canon s) : Canon (setRate r s) := h.same rfl
theorem canon_setServo {v : Servo} (h : Canon s) : Canon (setServo v s) := h.same rfl
theorem canon_lockedRate (h : Canon s) : Canon (lockedRate th s) := by
  unfold lockedRate
  extract_lets d m
  have hd : Canon d.2 := canon_drawWord h
  exact canon_setRate hd
theorem canon_reslewRate (h : Canon s) : Canon (reslewRate th s) := canon_setRate h
theorem canon_steer (h : Canon s) : Canon (steer p th s) := by
  unfold steer
  extract_lets wide n _ s1 t _ t1 _
  have hs1 : Canon s1 := h.same rfl
  split
  · split
    · exact canon_setRate (canon_setServo (hs1.same rfl))
    · split
      · exact canon_lockedRate (canon_setServo hs1)
      · exact canon_reslewRate hs1
  · split
    · exact canon_lockedRate (canon_setServo hs1)
    · exact canon_reslewRate hs1
  · split
    · exact canon_logFault (canon_reslewRate (canon_setServo hs1))
    · exact canon_lockedRate (canon_setServo hs1)
  · split
    · exact canon_logFault (canon_reslewRate (canon_setServo hs1))
    · exact canon_lockedRate (canon_setServo hs1)
theorem canon_timeResp {t2 t3 rootDev depth : Nat} {ofs : Int} (h : Canon s) : Canon (timeResp p t2 t3 rootDev depth ofs s) := by
  unfold timeResp
  split
  · exact h
  · extract_lets t1 d1 d2 a th off s0 s1 _ lk s2 s3 _ n s2b s3b follow _
    have hs0 : Canon s0 := canon_updPort h
    have hs1 : Canon s1 := canon_setReg (canon_setReg hs0)
    have hs2 : Canon s2 := hs1.same rfl
    have hs3 : Canon s3 := canon_steer hs2
    have hs2b : Canon s2b := canon_updPort hs1
    have hs3b : Canon s3b := canon_logFault hs2b
    split
    · split
      · split
        · exact hs2
        · exact canon_logFault (canon_setServo hs2)
      · split
        · exact hs3.same rfl
        · exact hs3
    · split
      · exact canon_logFault hs1
      · split
        · split
          · exact canon_logFault (canon_reslewRate (hs3b.same rfl))
          · exact hs3b
        · exact hs2b
theorem canon_clockCleared (h : Canon s) : Canon (clockCleared s) := by
  unfold clockCleared
  split
  · exact canon_noteMode h (h.same rfl)
  · exact h
theorem canon_timeAsked (h : Canon s) : Canon (timeAsked p s) := by
  unfold timeAsked
  split
  · exact h
  · extract_lets t
    exact canon_sendCtl h
theorem canon_timeAsk (h : Canon s) : Canon (timeAsk p s) := by
  unfold timeAsk
  split
  · exact canon_sendCtl (canon_updPort h)
  · exact h
theorem canon_joinEnds (h : Canon s) : Canon (joinEnds p reason s) := by
  unfold joinEnds
  extract_lets j done s1 _
  have hs1 : Canon s1 := canon_updPort h
  split
  · exact hs1.same rfl
  · exact canon_updPort h
theorem canon_joinDecide (h : Canon s) : Canon (joinDecide p s) := by
  unfold joinDecide
  extract_lets j
  split
  · exact h
  · split
    · exact canon_joinEnds h
    · exact h
    · exact canon_joinEnds h
    · exact h
theorem canon_joinCheck (h : Canon s) : Canon (joinCheck p s) := by
  unfold joinCheck
  extract_lets j r
  split
  · exact canon_joinDecide (canon_sendCtl (canon_updPort h))
  · exact h
theorem canon_vxCohCmd (h : Canon s) : Canon (vxCohCmd p v s).2 := by
  unfold vxCohCmd
  extract_lets op po d _ j chunks
  split
  · exact h
  · split
    · exact h
    · split
      · exact h
      · split
        · split
          · exact h
          · exact canon_joinCheck (canon_sendCtl (canon_setPort h))
        · split
          · exact h
          · exact canon_splitPair h
theorem canon_digestArrives {d : List Byte} (h : Canon s) : Canon (digestArrives p d s) := by
  unfold digestArrives
  split
  · exact canon_joinCheck (canon_updPort h)
  · exact h
theorem canon_verdictArrives (h : Canon s) : Canon (verdictArrives p reason s) := by
  unfold verdictArrives
  split
  · exact canon_joinDecide (canon_updPort h)
  · exact h
theorem canon_joinLate (h : Canon s) : Canon (joinLate p s) := by
  unfold joinLate
  split
  · exact canon_joinEnds h
  · exact h
theorem canon_splitDone {back : List (Nat × Vec)} (h : Canon s) : Canon (splitDone p back s) := by
  unfold splitDone
  extract_lets slot bit ofPeer s1 fix s2 keep dirty _ _ s3
  have hs1 : Canon s1 := by
    unfold s1
    refine canon_foldl (fun a1 x1 h1 => ?_) h
    extract_lets h2 d
    split
    · exact canon_setDir (canon_setPoison (canon_writeBytes h1))
    · exact h1
  have hfix (n1 : Nat) (a1 : State) (ha1 : Canon a1) : Canon (fix n1 a1) := by
    unfold fix
    refine canon_foldl (fun a2 x1 h1 => ?_) ha1
    split
    · split
      · exact canon_putDir h1
      · extract_lets x
        refine canon_putDir ?_
        split
        · exact canon_poisonLine h1
        · exact h1
    · exact h1
  have hs2 : Canon s2 := canon_foldl (fun _ _ h1 => hfix _ _ h1) hs1
  clear_value s2
  have hs3 : Canon s3 := hs2.same rfl
  split
  · exact h
  · exact canon_foldl (fun _ _ => canon_updPort) hs3
theorem canonOut_execCredit {p : Fin 8} {vc : Fin 10} (h : Canon s) : CanonOut (execCredit p vc n s) := by
  unfold execCredit
  split
  · exact canonOut_next (canon_reroute (canon_updPort h))
  · exact canonOut_next h
theorem canonOut_execEscapeWaitExpiry (h : Canon s) : CanonOut (execEscapeWaitExpiry n s) := by
  unfold execEscapeWaitExpiry
  split
  · exact canonOut_next (canon_forwardMsg (h.same rfl))
  · exact canonOut_next h
theorem canonOut_execSpareLaneCheck {p : Fin 8} (h : Canon s) : CanonOut (execSpareLaneCheck p ok s) := by
  unfold execSpareLaneCheck
  split
  · exact canonOut_next h
  · exact canonOut_next (canon_updPort h)
theorem canonOut_execLaneRetune {p : Fin 8} {lane : Fin 5} (h : Canon s) : CanonOut (execLaneRetune p lane ok s) := by
  unfold execLaneRetune
  split
  · exact canonOut_next h
  · exact canonOut_next (canon_laneFails h)
end Sys2Proof.Machine
end

section
/-! Canonical memory: messages between joined devices and the snoops they bring (10 R262 to R271). -/
namespace Sys2Proof.Machine
variable {s : State}
theorem canon_fromPeer {r : Requester} {f : State → State} (hf : ∀ a, Canon a → Canon (f a)) (hs : Canon s) : Canon (fromPeer r f s) := by
  unfold fromPeer
  split
  · split
    · exact hf _ hs
    · split
      · exact canon_splitPair hs
      · exact hs
  · exact hf _ hs
theorem canonOut_nodeDone (h : Canon s) : CanonOut (nodeDone s) := canonOut_next (canon_sendCoh h)
end Sys2Proof.Machine
end

section
/-! Canonical memory: the root ports and the IOTU (16). -/
namespace Sys2Proof.Machine
variable {s : State} {ep rd translated wr : Bool} {c : DevCtx} {op : DmaOp} {f : IoFault} {bs : List Byte} {iova j n off pa prgi rid tc : Nat} {v : Word32}
theorem canon_setSub {x : SubPort} (h : Canon s) : Canon (setSub j x s) := h.same rfl
theorem canon_updSub {f : SubPort → SubPort} (h : Canon s) : Canon (updSub j f s) := canon_setSub h
theorem canon_sendPcie {x : PcieOut} (h : Canon s) : Canon (sendPcie x s) := h.same rfl
theorem canon_subEvent {e : Nat} (h : Canon s) : Canon (subEvent j e s) := canon_pulse h
theorem canon_pcieStore (h : Canon s) : Canon (pcieStore off bs s) := by
  unfold pcieStore
  split
  · extract_lets _ s1
    have hs1 : Canon s1 := h.same rfl
    split
    · exact canon_updSub hs1
    · exact hs1
  · split
    · exact canon_sendPcie h
    · exact canon_subEvent h
  · exact h
theorem canon_pcieLoad (h : Canon s) : Canon (pcieLoad off n s).2 := by
  unfold pcieLoad
  split
  · exact h
  · split
    · exact h
    · exact canon_subEvent h
  · exact h
theorem canon_postIotu {q : Nat} {v : Vec} (h : Canon s) : Canon (postIotu n q tc v s) := canon_serveSender (canon_setSender h)
theorem canon_toFaultQueue {v : Vec} (h : Canon s) : Canon (toFaultQueue n tc v s) := by
  unfold toFaultQueue
  extract_lets s1
  have hs1 : Canon s1 := canon_bump h
  split
  · exact canon_postIotu hs1
  · exact hs1
theorem canon_ioFault {access : Nat} (h : Canon s) : Canon (ioFault j rid tc f access prgi iova s) := canon_toFaultQueue h
theorem canon_findCtx (h : Canon s) : Canon (findCtx rid j s).2 := by
  unfold findCtx
  split
  · extract_lets c1 _
    exact h.same rfl
  · extract_lets at_ r c _ _
    have hr : Canon r.2.2 := canon_agentRead h
    split
    · exact h
    · split
      · exact h
      · split
        · exact hr
        · split
          · exact hr
          · split
            · exact hr
            · exact hr.same rfl
theorem canon_setIoslots {xs : List IoSlot} (h : Canon s) : Canon (setIoslots n xs s) := h.same rfl
theorem canon_keepIo {x : IoSlot} (h : Canon s) : Canon (keepIo n x s) := by
  unfold keepIo
  extract_lets key xs mine d
  have hd : Canon d.2 := canon_drawWord h
  split
  · exact canon_setIoslots h
  · split <;> exact canon_setIoslots hd
theorem canon_keepIoPtrs {l : List IoPtr} (h : Canon s) : Canon (keepIoPtrs n l s) := by
  induction l generalizing s with
  | nil => exact h
  | cons w l ih =>
    unfold keepIoPtrs
    extract_lets xs d x
    have hx : Canon x.2 := by
      unfold x
      split
      · exact h
      · exact canon_drawWord h
    exact ih (hx.same rfl)
theorem canon_ioReads {eas : List Nat} (h : Canon s) : Canon (ioReads n tc eas s) := canon_foldl (fun _ _ h1 => canon_agentRead (canon_inject h1)) h
theorem canon_ioSwaps {setD : Bool} {l : List (Nat × Word64)} {t : State} (h : Canon s) (e : ioSwaps setD l s = some t) : Canon t := by
  induction l generalizing s with
  | nil =>
    cases e
    exact h
  | cons x l ih =>
    unfold ioSwaps at e
    split at e
    next s1 e1 => exact ih (canon_adSwap h e1) e
    · cases e
theorem canon_ioFill (h : Canon s) : Canon (ioFill n c iova s).2 := by
  unfold ioFill
  split
  · exact h
  · extract_lets s1
    have hs1 : Canon s1 := canon_ioReads h
    split
    · exact hs1
    · split
      · exact hs1
      · exact canon_keepIoPtrs (canon_keepIo hs1)
theorem canon_ioXlat {again : Nat} (h : Canon s) : Canon (ioXlat again n c iova rd wr s).2 := by
  induction again using Nat.strong_induction_on generalizing s with
  | h again ih =>
    unfold ioXlat
    split
    · exact h
    · extract_lets r
      have hr : Canon r.2 := by
        unfold r
        split
        · exact h
        · exact canon_ioFill h
      split
      · exact hr
      next x _ =>
        extract_lets pa code s1
        split
        · exact hr
        · split
          · exact hr
          · split
            · exact hr
            · split
              · exact hr
              · split
                · exact hr
                · split
                  next s1 e1 => exact canon_setIoslots (canon_ioSwaps hr e1)
                  · have hs1 : Canon s1 := canon_setIoslots hr
                    split
                    · exact hs1
                    · exact ih _ (Nat.lt_succ_self _) hs1
theorem canon_msi (h : Canon s) : Canon (msi c j iova bs s) := by
  unfold msi
  extract_lets v
  split
  · exact canon_raiseMsg h
  · exact canon_ioFault (canon_bump h)
theorem canon_complete {st : Nat} (h : Canon s) : Canon (complete st ep bs s) := h.same rfl
theorem canon_poisonLines (h : Canon s) : Canon (poisonLines pa n s) := canon_foldl (fun _ _ => canon_poisonLine) h
theorem canon_dmaPerform (h : Canon s) : Canon (dmaPerform n c pa op ep s) := by
  unfold dmaPerform
  split
  · exact canon_complete (canon_sendPcie h)
  · split
    · extract_lets r
      have hr : Canon r.2.2 := canon_agentRead (canon_bumpBy (canon_inject h))
      exact canon_complete hr
    · extract_lets s1
      have hs1 : Canon s1 := canon_agentWrite (canon_bumpBy (canon_inject h))
      refine canon_complete ?_
      split
      · exact canon_poisonLines hs1
      · exact hs1
    · extract_lets s1 code r
      have hs1 : Canon s1 := canon_inject h
      have hr : Canon r.2 := by
        unfold r
        split <;> exact canon_agentAmo hs1
      exact canon_complete hr
    · exact canon_complete h
theorem canon_dmaRefuse (h : Canon s) : Canon (dmaRefuse j rid tc f op translated iova s) := by
  unfold dmaRefuse
  extract_lets s1
  have hs1 : Canon s1 := canon_ioFault h
  split
  · exact hs1
  · exact canon_complete hs1
theorem canon_dmaRequest (h : Canon s) : Canon (dmaRequest j rid iova op ep translated s) := by
  unfold dmaRequest
  split
  · exact h
  · split
    · exact canon_complete h
    · extract_lets x wr rd
      have hx : Canon x.2 := canon_findCtx h
      split
      · exact canon_dmaRefuse hx
      · split
        · split
          · exact canon_msi hx
          · extract_lets r
            have hr : Canon r.2 := by
              unfold r
              split
              · exact hx
              · exact canon_ioXlat hx
            split
            · exact canon_dmaRefuse hr
            · exact canon_dmaPerform hr
        · extract_lets r
          have hr : Canon r.2 := by
            unfold r
            split
            · exact hx
            · exact canon_ioXlat hx
          split
          · exact canon_dmaRefuse hr
          · exact canon_dmaPerform hr
theorem canon_translationRequest (h : Canon s) : Canon (translationRequest j rid iova s) := by
  unfold translationRequest
  split
  · exact h
  · extract_lets x
    have hx : Canon x.2 := canon_findCtx h
    split
    · exact canon_complete (canon_ioFault hx)
    · split
      · exact canon_complete (canon_ioFault hx)
      · extract_lets t may r _
        have ht : Canon t.2 := canon_ioXlat hx
        have hr : Canon r.2 := by
          unfold r
          split
          · exact canon_ioXlat ht
          · exact ht
        split
        · refine canon_complete ?_
          split
          · exact hr
          · exact canon_ioFault hr
        · split
          · extract_lets sz
            exact hr.same rfl
          · exact canon_complete hr
theorem canon_pageRequest {last : Bool} (h : Canon s) : Canon (pageRequest j rid iova rd wr last prgi s) := by
  unfold pageRequest
  split
  · exact h
  · extract_lets x access page out
    have hx : Canon x.2 := canon_findCtx h
    split
    · exact canon_complete (canon_ioFault hx)
    · split
      · exact canon_ioFault hx
      · split
        · exact canon_ioFault hx
        · exact canon_postIotu (canon_updSub hx)
theorem canon_pciePrgResp (h : Canon s) : Canon (pciePrgResp v s).2 := by
  unfold pciePrgResp
  extract_lets code g
  split
  · split
    · exact canon_sendPcie (canon_updSub h)
    · exact h
  · exact h
theorem canon_pcieInv {w : Writer} (h : Canon s) : Canon (pcieInv w v s).2 := by
  unfold pcieInv
  extract_lets kind id k mine iova ask p p1
  split
  · exact h.same rfl
  · exact h
theorem canon_invAnswered (h : Canon s) : Canon (invAnswered rid s) := h.same rfl
theorem canon_invDoneNow (h : Canon s) : Canon (invDoneNow s) := by
  unfold invDoneNow
  split
  · split
    · exact h.same rfl
    · exact h
  · exact h
theorem canon_dpcTrigger {surprise : Bool} (h : Canon s) : Canon (dpcTrigger j surprise s) := by
  unfold dpcTrigger
  split
  · exact h
  · extract_lets below s1 _ s2 s3
    have hs1 : Canon s1 := canon_updSub h
    have hs2 : Canon s2 := hs1.same rfl
    have hs3 : Canon s3 := canon_subEvent hs2
    split
    · exact canon_subEvent hs3
    · exact hs3
theorem canon_peStop (h : Canon s) : Canon (peStop n s) := by
  unfold peStop
  split
  · extract_lets s1 _
    have hs1 : Canon s1 := canon_foldl (fun _ _ => canon_dpcTrigger) h
    exact hs1.same rfl
  · exact h
theorem canon_peStart (h : Canon s) : Canon (peStart n s) := by
  unfold peStart
  split
  · exact h
  · extract_lets _ s1
    have hs1 : Canon s1 := h.same rfl
    refine canon_foldl (fun a1 x1 h1 => ?_) hs1
    extract_lets b
    have hb : Canon b := canon_updSub h1
    split
    · exact canon_subEvent hb
    · exact hb
theorem canon_pcieCmd (h : Canon s) : Canon (pcieCmd v s).2 := by
  unfold pcieCmd
  extract_lets op n
  split
  · split
    · exact canon_peStart h
    · exact canon_peStop h
  · exact h
theorem canon_hotAdd (h : Canon s) : Canon (hotAdd j s) := by
  unfold hotAdd
  split
  · exact h
  · exact canon_subEvent (canon_updSub h)
theorem canon_atsLate (h : Canon s) : Canon (atsLate rid s) := by
  unfold atsLate
  split
  · split
    · exact canon_ioFault (canon_dpcTrigger h)
    · exact h.same rfl
  · exact h
end Sys2Proof.Machine
end

section
/-! Canonical memory: the timers and system time (18). -/
namespace Sys2Proof.Machine
variable {s : State} {pulses : BitVec 64} {n t : Nat} {v : Word32}
theorem canon_setTimer {x : Timer} (h : Canon s) : Canon (setTimer t x s) := h.same rfl
theorem canon_updTimer {f : Timer → Timer} (h : Canon s) : Canon (updTimer t f s) := canon_setTimer h
theorem canon_tmrLine (h : Canon s) : Canon (tmrLine t s) := canon_setLine h
theorem canon_setTFlag {b : Nat} (h : Canon s) : Canon (setTFlag t b s) := canon_tmrLine (canon_updTimer h)
theorem canon_evPulse {sels : List Nat} (h : Canon s) : Canon (evPulse t sels s) := by
  unfold evPulse
  split
  · exact h.same rfl
  · exact h
theorem canon_putRun {b : Bool} (h : Canon s) : Canon (putRun t b s) := canon_setReg h
theorem canon_wrapEvent (h : Canon s) : Canon (wrapEvent t s) := by
  unfold wrapEvent
  extract_lets s1
  have hs1 : Canon s1 := canon_evPulse (canon_setTFlag h)
  split
  · exact canon_putRun hs1
  · exact hs1
theorem canon_compareEvent (h : Canon s) : Canon (compareEvent t s) := by
  unfold compareEvent
  extract_lets s1
  have hs1 : Canon s1 := canon_evPulse (canon_setTFlag h)
  split
  · exact canon_latchWake hs1
  · exact hs1
theorem canon_resetEvent (h : Canon s) : Canon (resetEvent t s) := canon_evPulse (canon_updTimer h)
theorem canon_forcedWrap (h : Canon s) : Canon (forcedWrap t s) := canon_wrapEvent (canon_updTimer h)
theorem canon_startEvent (h : Canon s) : Canon (startEvent t s) := canon_putRun (canon_updTimer h)
theorem canon_ticks (h : Canon s) : Canon (ticks t n s) := by
  unfold ticks
  split
  · exact h
  · extract_lets c r s1 s2 s3
    have hs1 : Canon s1 := canon_updTimer h
    have hs2 : Canon s2 := by
      unfold s2
      split
      · exact hs1
      · exact canon_wrapEvent hs1
    have hs3 : Canon s3 := by
      unfold s3
      split
      · exact canon_setTFlag hs2
      · exact hs2
    split
    · exact canon_compareEvent hs3
    · exact hs3
theorem canon_prescale (h : Canon s) : Canon (prescale t n s) := canon_ticks (canon_updTimer h)
theorem canon_capture {rise : Bool} (h : Canon s) : Canon (capture t rise s) := by
  unfold capture
  extract_lets x
  split
  · split
    · exact canon_setTFlag h
    · exact canon_setTFlag (canon_setTimer h)
  · split
    · exact canon_setTFlag h
    · exact canon_setTFlag (canon_setTimer h)
theorem canon_takeInputs (h : Canon s) : Canon (takeInputs pulses t s).2 := by
  unfold takeInputs
  extract_lets g cp x tpol gEdge s1 s2 far
  have hs1 : Canon s1 := by
    unfold s1
    split
    · exact canon_capture (canon_updTimer h)
    · exact h
  have hs2 : Canon s2 := by
    unfold s2
    split
    · exact canon_updTimer hs1
    · exact hs1
  split
  · split
    · exact canon_resetEvent hs2
    · exact canon_startEvent hs2
    · split
      · exact canon_prescale (canon_updTimer hs2)
      · exact hs2
    · exact hs2
  · exact hs2
theorem canon_timerCycle {ns : Nat} {rind : Bool} (h : Canon s) : Canon (timerCycle pulses ns rind s t) := by
  unfold timerCycle
  extract_lets r s1 gate
  have hr : Canon r.2 := canon_takeInputs h
  have hs1 : Canon s1 := hr
  split
  · exact hs1
  · exact canon_prescale hs1
theorem canon_inputsChanged (h : Canon s) : Canon (inputsChanged s) := by
  unfold inputsChanged
  split
  · exact canon_foldl (fun _ _ => canon_takeInputs) h
  · exact h
theorem canon_advance (h : Canon s) : Canon (advance n s).2 := h.same rfl
theorem canon_syncOut {before : Nat} (h : Canon s) : Canon (syncOut before s) := by
  unfold syncOut
  extract_lets now rise t
  split
  · exact h.same rfl
  · split
    · exact h.same rfl
    · exact h
theorem canon_rindEdge (h : Canon s) : Canon (rindEdge s) := h.same rfl
theorem canon_timeCycle (h : Canon s) : Canon (timeCycle s) := by
  unfold timeCycle
  extract_lets before off a rind pulses t _ s1 s2
  have ha : Canon a.2 := canon_advance h
  have hs1 : Canon s1 := ha.same rfl
  have hs2 : Canon s2 := by
    unfold s2
    refine canon_syncOut ?_
    split
    · exact canon_rindEdge hs1
    · exact hs1
  split
  · exact canon_foldl (fun _ _ => canon_timerCycle) hs2
  · exact hs2
theorem canon_syncLine (h : Canon s) : Canon (syncLine s) := canon_setLine h
theorem canon_syncCapture {high : Bool} (h : Canon s) : Canon (syncCapture high s) := canon_syncLine (h.same rfl)
theorem canon_syncSteer (h : Canon s) : Canon (syncSteer s) := by
  unfold syncSteer
  extract_lets off far errs agree _ s1 t s2 _
  have hs1 : Canon s1 := h.same rfl
  have hs2 : Canon s2 := canon_steer hs1
  split
  · exact canon_setServo (hs1.same rfl)
  · split
    · exact hs1
    · exact hs2.same rfl
theorem canon_syncEdge {high : Bool} (h : Canon s) : Canon (syncEdge high s) := by
  unfold syncEdge
  split
  · exact h
  · extract_lets _ s1 s2
    have hs1 : Canon s1 := h.same rfl
    have hs2 : Canon s2 := canon_latchWake (canon_inputsChanged (canon_syncCapture hs1))
    split
    · exact canon_clockCleared (canon_syncSteer hs2)
    · exact hs2
theorem canon_syncLost (h : Canon s) : Canon (syncLost s) := by
  unfold syncLost
  split
  · exact canon_logFault (canon_setServo (h.same rfl))
  · exact h
theorem canon_tmrCmd (h : Canon s) : Canon (tmrCmd v s).2 := by
  unfold tmrCmd
  extract_lets op
  split
  · exact h
  · split
    · exact canon_resetEvent h
    · exact canon_forcedWrap h
theorem canon_tmrRun {w : Nat} (h : Canon s) : Canon (tmrRun w v s) := by
  unfold tmrRun
  refine canon_foldl (fun a1 x1 h1 => ?_) h
  extract_lets old
  split
  · exact h1
  · split
    · exact canon_putRun h1
    · exact canon_startEvent h1
theorem canon_timeSet {v : Nat} (h : Canon s) : Canon (timeSet v s).2 := by
  unfold timeSet
  split
  · exact h
  · exact h.same rfl
theorem canon_tmrSnap (h : Canon s) : Canon (tmrSnap s) := h.same rfl
theorem canonOut_execSyncOutPulse (h : Canon s) : CanonOut (execSyncOutPulse s) := by
  unfold execSyncOutPulse
  refine canonOut_next ?_
  split
  · exact canon_syncOut h
  · exact h
theorem canonOut_execTimerTick {t : Fin 64} (h : Canon s) : CanonOut (execTimerTick t n s) := by
  unfold execTimerTick
  refine canonOut_next ?_
  split
  · exact canon_ticks (canon_updTimer h)
  · exact h
theorem canonOut_execTimerWrap {t : Fin 64} (h : Canon s) : CanonOut (execTimerWrap t s) := by
  unfold execTimerWrap
  refine canonOut_next ?_
  split
  · exact canon_ticks (canon_updTimer h)
  · exact h
theorem canon_tinLevel {high : Bool} (h : Canon s) : Canon (tinLevel n high s) := by
  unfold tinLevel
  extract_lets t w
  split
  · exact h
  · exact canon_inputsChanged (h.same rfl)
end Sys2Proof.Machine
end

section
/-! Canonical memory: the keeper's services and measurement (19). -/
namespace Sys2Proof.Machine
variable {s : State} {lc : LC} {v : Word32}
theorem canon_extendMr {i : Nat} {d : List Byte} (h : Canon s) : Canon (extendMr i d s) := h.same rfl
theorem canon_celMrCmd (h : Canon s) : Canon (celMrCmd v s).2 := by
  unfold celMrCmd
  split
  · exact h
  · exact canon_extendMr h
theorem canon_purgeRange {lo hi : Nat} (h : Canon s) : Canon (purgeRange lo hi s) := h.same rfl
theorem canon_celPotSync (h : Canon s) : Canon (celPotSync v s).2 := by
  unfold celPotSync
  extract_lets n base s1 _
  have hs1 : Canon s1 := canon_purgeRange h
  split
  · exact hs1.same rfl
  · exact h
theorem canon_potSyncDone (h : Canon s) : Canon (potSyncDone s) := h.same rfl
theorem canon_setCodes {pa n code : Nat} (h : Canon s) : Canon (setCodes pa n code s) := by
  have hdone (a : State) (ha : Canon a) : Canon { a with cellar := { a.cellar with potStarted := true } } := ha.same rfl
  unfold setCodes
  exact hdone _ (canon_setReg (canon_setReg (canon_purgeRange (canon_keeperWrite h))))
theorem canon_service {fn : Nat} {body : (Nat → Nat) → State → Served} (hbody : ∀ x a, Canon a → Canon (body x a).2.2) (hs : Canon s)
    : Canon (service fn lc body s) := by
  unfold service
  extract_lets c g r
  have hr : Canon r.2.2 := by
    unfold r
    split
    · exact hs
    · split
      · exact hs
      · exact hbody _ _ hs
  split
  · exact canon_updCore hr
  · exact hs
theorem canon_plain {r : Nat × State} (h : Canon r.2) : Canon (plain r).2.2 := h
theorem canon_attestQuote {a : Nat → Nat} (h : Canon s) : Canon (attestQuote a s).2.2 := by
  unfold attestQuote
  extract_lets sig n iss sg
  have hn : Canon n.2.2 := canon_keeperRead h
  have hiss : Canon iss.2 := canon_drawBytes hn
  have hsg : Canon sg.2 := canon_drawBytes hiss
  split
  · exact h
  · exact canon_keeperWrite hsg
theorem canon_measureExtend {a : Nat → Nat} (h : Canon s) : Canon (measureExtend a s).2.2 := by
  unfold measureExtend
  split
  · exact h
  · extract_lets d
    have hd : Canon d.2.2 := canon_keeperRead h
    exact canon_extendMr hd
theorem canon_attestCert {a : Nat → Nat} (h : Canon s) : Canon (attestCert a s).2.2 := by
  unfold attestCert
  extract_lets n
  split
  · exact h
  · exact canon_keeperWrite h
theorem canon_ringReserve {a : Nat → Nat} (h : Canon s) : Canon (ringReserve a s).2.2 := by
  unfold ringReserve
  split
  · exact h
  · exact canon_setCodes h
theorem canon_ringRelease {a : Nat → Nat} (h : Canon s) : Canon (ringRelease a s).2.2 := by
  unfold ringRelease
  split
  · exact h
  · split
    · exact h
    · exact canon_setCodes (canon_zeroBytes h)
theorem canon_dlrShare (h : Canon s) : Canon (dlrShare s).2.2 := by
  unfold dlrShare
  split
  · exact h
  · extract_lets lim put
    have hput (off1 : Nat) (v1 : Nat) (x1 : State) (hx1 : Canon x1) : Canon (put off1 v1 x1) := canon_setReg (canon_setReg hx1)
    exact hput _ _ _ (hput _ _ _ h)
theorem canon_writeBackL2 {pc : Nat} (h : Canon s) : Canon (writeBackL2 pc s) := canon_foldl (fun _ _ => canon_exposeStale) h
theorem canon_cacheQuery {a : Nat → Nat} (h : Canon s) : Canon (cacheQuery a s).2.2 := by
  unfold cacheQuery
  split
  · exact h
  · extract_lets c
    exact h
theorem canon_cacheDisable {a : Nat → Nat} (h : Canon s) : Canon (cacheDisable a s).2.2 := by
  unfold cacheDisable
  split
  · exact h
  · split
    · exact h
    · extract_lets m c pc s1 p p1
      have hs1 : Canon s1 := by
        unfold s1
        split
        · exact canon_writeBackL2 h
        · exact h
      exact canon_updCore (canon_setPriv hs1)
theorem canon_cacheEnable {a : Nat → Nat} (h : Canon s) : Canon (cacheEnable a s).2.2 := by
  unfold cacheEnable
  extract_lets c m
  split
  · exact h
  · split
    · exact h
    · exact canon_updCore h
theorem canon_cacheInvalAll {a : Nat → Nat} (h : Canon s) : Canon (cacheInvalAll a s).2.2 := by
  unfold cacheInvalAll
  extract_lets c m pc p
  split
  · exact h
  · split
    · exact h
    · split
      · exact h
      · exact canon_setPriv h
theorem canon_l2SpSet {a : Nat → Nat} (h : Canon s) : Canon (l2SpSet a s).2.2 := by
  unfold l2SpSet
  extract_lets pc p k j m s1 _ s2
  have hs1 : Canon s1 := canon_foldl (fun _ _ => canon_flushL2) h
  have hs2 : Canon s2 := canon_setPriv hs1
  split
  · exact h
  · split
    · exact canon_zeroBytes (canon_setPriv h)
    · exact canon_zeroBytes hs2
theorem canon_memDdrGive {a : Nat → Nat} (h : Canon s) : Canon (memDdrGive a s).2.2 := by
  unfold memDdrGive
  extract_lets lo n s1 k
  have hs1 : Canon s1 := canon_purgeRange h
  split
  · exact h
  · exact canon_setReserve hs1
theorem canonOut_execKeeperVersion (h : Canon s) : CanonOut (execKeeperVersion lc s) := by
  unfold execKeeperVersion
  extract_lets fn
  split <;> exact canonOut_next (canon_service (fun _ _ h1 => h1) h)
end Sys2Proof.Machine
end

section
/-! Canonical memory: sealed storage (19 R474). -/
namespace Sys2Proof.Machine
variable {s : State}
theorem canon_sealAll (h : Canon s) : Canon (sealAll s) := h.same rfl
theorem canon_openSealed {copies : SMap (List SealedRecord)} (h : Canon s) : Canon (openSealed copies s) := by
  unfold openSealed
  extract_lets n bad s1 keep used _
  have hs1 : Canon s1 := canon_foldl (fun _ _ => canon_logFault) h
  exact hs1.same rfl
end Sys2Proof.Machine
end

section
/-! Canonical memory: relocation, leases, pairs and the census (20). -/
namespace Sys2Proof.Machine
variable {s : State} {isL3 : Bool} {k kind lc line n pc unit : Nat}
theorem canon_setPhys {x : PhysCore} (h : Canon s) : Canon (setPhys pc x s) := h.same rfl
theorem canon_setCoreIsland {x : IslandState} (h : Canon s) : Canon (setCoreIsland pc x s) := canon_setIsland (canon_setIsland h)
theorem canon_rollback (h : Canon s) : Canon (rollback lc s) := canon_freeSlots (canon_updCore h)
theorem canon_dropGroup (h : Canon s) : Canon (dropGroup lc s) := by
  unfold dropGroup
  split
  · exact h
  · exact canon_rollback h
theorem canon_setMoving {b : Bool} (h : Canon s) : Canon (setMoving lc b s) := h.same rfl
theorem canon_startReloc {trigger : Nat} {healthy : Bool} {ver : Option Word32} (h : Canon s) : Canon (startReloc lc trigger healthy ver s) := by
  unfold startReloc
  split
  · exact h
  · split
    · split
      · exact h
      · extract_lets s1
        have hs1 : Canon s1 := canon_updCore (canon_dropGroup h)
        exact canon_enterContain (canon_fenceUnit hs1)
    · extract_lets r _ s1
      have hs1 : Canon s1 := canon_setMoving (canon_setCoreIsland (h.same rfl))
      split
      · exact canon_updCore hs1
      · exact canon_updCore (canon_dropGroup hs1)
theorem canon_putReloc {r r' : Relocation} (h : Canon s) : Canon (putReloc r r' s) := h.same rfl
theorem canon_relocDrain (h : Canon s) : Canon (relocDrain lc s) := by
  unfold relocDrain
  split
  · split
    · exact canon_putReloc (canon_updCore h)
    · exact h
  · exact h
theorem canon_carrySp {fromPc toPc : Nat} (h : Canon s) : Canon (carrySp fromPc toPc s) := by
  unfold carrySp
  extract_lets n _ s1 _
  have hs1 : Canon s1 := canon_setPriv h
  exact canon_setPriv hs1
theorem canon_setMicro {m : MicroStore} (h : Canon s) : Canon (setMicro k n m s) := h.same rfl
theorem canon_loadBank {im : Option Image} (h : Canon s) : Canon (loadBank k n im s) := canon_setMicro h
theorem canon_loadPatch (h : Canon s) : Canon (loadPatch pc s) := by
  unfold loadPatch
  split
  · exact canon_loadBank (canon_setPhys h)
  · exact h
theorem canon_microError (h : Canon s) : Canon (microError pc s) := by
  unfold microError
  extract_lets d words s1 _
  have hd : Canon d.2 := canon_drawWord h
  have hs1 : Canon s1 := canon_bump (canon_logFault hd)
  split
  · split
    · split
      · exact canon_logFault (hs1.same rfl)
      · exact hs1.same rfl
    · exact hs1
  · exact hs1
theorem canon_relocResume (h : Canon s) : Canon (relocResume lc s) := by
  unfold relocResume
  split
  · split
    · extract_lets rs s1 s2 s3 _ s4
      have hs1 : Canon s1 := h.same rfl
      have hs2 : Canon s2 := canon_carrySp (canon_setMoving (canon_putReloc hs1))
      have hs3 : Canon s3 := canon_updCore hs2
      have hs4 : Canon s4 := canon_setPriv hs3
      exact canon_pulse (canon_bump (canon_loadPatch (canon_ackTargets hs4)))
    · exact h
  · exact h
theorem canon_writebackDone (h : Canon s) : Canon (writebackDone pc s) := by
  unfold writebackDone
  split
  · extract_lets s1 _ s2 arg s3 _
    have hs1 : Canon s1 := canon_foldl (fun _ _ => canon_evictNow) h
    have hs2 : Canon s2 := hs1.same rfl
    have hs3 : Canon s3 := canon_setCoreIsland (canon_logFault hs2)
    split
    · exact hs3
    · exact canon_useSpare (canon_setPhys hs3)
  · exact h
theorem canon_retryGroup {row : Nat} (h : Canon s) : Canon (retryGroup lc row s) := by
  unfold retryGroup
  split
  · exact h
  · extract_lets pc0 s0 s1 now run times s2
    have hs0 : Canon s0 := canon_rollback h
    have hs1 : Canon s1 := by
      unfold s1
      refine canon_bump (canon_logFault ?_)
      split
      · exact canon_microError hs0
      · exact hs0
    have hs2 : Canon s2 := canon_updCore hs1
    split
    · exact canon_startReloc hs2
    · exact hs2
theorem canon_heartbeatLost (h : Canon s) : Canon (heartbeatLost pc s) := by
  unfold heartbeatLost
  split
  · split
    · exact canon_startReloc (canon_logFault h)
    · exact h
  · exact h
theorem canon_afterArray (h : Canon s) : Canon (afterArray pc s) := by
  unfold afterArray
  split
  · extract_lets recent
    split
    · exact canon_startReloc h
    · split
      · exact canon_startReloc h
      · exact h
  · exact h
theorem canon_bridgeLate {near far : Nat} (h : Canon s) : Canon (bridgeLate near far s) := by
  unfold bridgeLate
  extract_lets _ s1
  have hs1 : Canon s1 := canon_logFault (h.same rfl)
  split
  · split
    · exact canon_startReloc (canon_ackTargets hs1)
    · exact hs1
  · exact hs1
theorem canon_proxiedSnoop {bad : Bool} (h : Canon s) : Canon (proxiedSnoop pc line bad s) := by
  unfold proxiedSnoop
  split
  · split
    · extract_lets s1
      have hs1 : Canon s1 := canon_answerArrives (canon_deliverSnoop h)
      split
      · exact canon_poisonLine hs1
      · exact hs1
    · exact h
  · exact h
theorem canon_noteRevoke (h : Canon s) : Canon (noteRevoke kind n lc s) := canon_pulse (canon_bump (canon_logFault h))
theorem canon_leaseRevoke (h : Canon s) : Canon (leaseRevoke kind lc n s) := by
  unfold leaseRevoke
  split
  · split
    · exact canon_noteRevoke (canon_setQueue h)
    · exact h
  · split
    · exact canon_noteRevoke (canon_proxiedSnoop h)
    · exact h
  · split
    · exact canon_noteRevoke (canon_freeTransit h)
    · exact h
  · exact h
theorem canon_pairLost (h : Canon s) : Canon (pairLost k s) := by
  unfold pairLost
  split
  · exact h
  · extract_lets c up roles c1 s1
    have hs1 : Canon s1 := canon_useSpare (canon_logFault (h.same rfl))
    split
    · exact canon_enterContain hs1
    · exact hs1
theorem canon_pairStops {silent released : Bool} (h : Canon s) : Canon (pairStops k silent released s) := by
  unfold pairStops
  split
  · exact h
  · extract_lets _ s1
    have hs1 : Canon s1 := h.same rfl
    split
    · split
      · exact canon_enterContain hs1
      · exact hs1
    · exact canon_logFault hs1
theorem canon_pairTested {ok : Bool} (h : Canon s) : Canon (pairTested k ok s) := by
  unfold pairTested
  split
  · extract_lets _ s1
    have hs1 : Canon s1 := h.same rfl
    split
    · exact hs1
    · exact canon_pairLost hs1
  · exact h
theorem canon_unfence (h : Canon s) : Canon (unfence unit s) := h.same rfl
theorem canon_copyLost {copy : Nat} (h : Canon s) : Canon (copyLost n copy s) := by
  unfold copyLost
  extract_lets x y s1
  have hs1 : Canon s1 := canon_logFault (canon_setSlice h)
  split
  · exact canon_enterContain (canon_setSlice (canon_fenceUnit hs1))
  · exact hs1
theorem canon_removeSlice (h : Canon s) : Canon (removeSlice n s) := by
  unfold removeSlice
  extract_lets s1 _
  have hs1 : Canon s1 := canon_flushL3 h
  exact canon_setSlice hs1
theorem canon_homePart {u : Nat} (h : Canon s) : Canon (homePart u s) := by
  unfold homePart
  extract_lets n part s1
  have hs1 : Canon s1 := canon_bump (canon_pulse (canon_logFault h))
  split
  · exact canon_copyLost hs1
  · exact canon_removeSlice hs1
theorem canon_replaceUnit (h : Canon s) : Canon (replaceUnit unit s) := by
  unfold replaceUnit
  extract_lets n _ _ _ _ _ s1
  have hs1 : Canon s1 := h.same rfl
  split
  · split
    · split
      · exact canon_unfence (canon_startReloc h)
      · exact canon_startReloc h
    · exact canon_unfence (canon_setPhys h)
  · split
    · split
      · exact canon_unfence (canon_startReloc h)
      · exact canon_startReloc h
    · exact canon_unfence (canon_setPhys h)
  · exact canon_enterContain (canon_setSlice h)
  · exact canon_enterContain (canon_setMemCtl h)
  · split
    · exact canon_unfence (canon_foldl (fun _ _ => canon_retireUnit) h)
    · exact canon_enterContain (canon_setMemCtl h)
  · split
    · exact canon_unfence (canon_logFault hs1)
    · exact canon_enterContain hs1
  · exact canon_outOfService h
  · exact canon_foldl (fun _ _ => canon_dpcTrigger) h
  · exact canon_pairLost h
  · exact canon_unfence h
  · exact h
theorem canon_census {bad : List Nat} (h : Canon s) : Canon (census bad s) := by
  unfold census
  extract_lets old _ s1
  have hs1 : Canon s1 := h.same rfl
  refine canon_foldl (fun a1 x1 h1 => ?_) hs1
  split
  · split
    · exact canon_homePart h1
    · split
      · exact h1
      · exact canon_replaceUnit (canon_fenceUnit h1)
  · exact canon_logFault h1
theorem canon_spareHorizon {run : Nat} {used : List Nat} (h : Canon s) : Canon (spareHorizon run used s) := by
  unfold spareHorizon
  extract_lets days h1 kind r low s1
  have hs1 : Canon s1 := h.same rfl
  split
  · exact canon_alert (canon_pulse (canon_logFault hs1))
  · exact hs1
theorem canon_injectPatrol (h : Canon s) : Canon (injectPatrol isL3 unit s) := canon_inject h
theorem canonOut_execCachePatrolRead {what : Fin 4} {way err : Nat} (h : Canon s) : CanonOut (execCachePatrolRead what unit way line err s) := by
  unfold execCachePatrolRead
  split
  · exact canonOut_next (canon_afterArray (canon_patrol h))
  · split
    · exact canonOut_next (canon_afterArray (canon_patrol (canon_injectPatrol h)))
    · exact canonOut_next (canon_patrol (canon_injectPatrol h))
theorem canonOut_execWayRetirement {way : Fin 16} {bad : Option Nat} (h : Canon s) : CanonOut (execWayRetirement isL3 unit way bad s) := by
  unfold execWayRetirement
  refine canonOut_next ?_
  split
  · exact canon_retireDue h
  · exact canon_afterArray (canon_retireDue h)
end Sys2Proof.Machine
end

section
/-! Canonical memory: updates and aging (21). -/
namespace Sys2Proof.Machine
variable {s : State} {x : Aging} {i store : Nat}
theorem canon_setLive {f : Live → Live} (h : Canon s) : Canon (setLive f s) := h.same rfl
theorem canon_setPatch {b : Bool} (h : Canon s) : Canon (setPatch b s) := canon_noteMode h (canon_setLive h)
theorem canon_updateSubmit {h : ImageHeader} {a : Nat → Nat} (h1 : Canon s) : Canon (updateSubmit h a s).2.2 := by
  unfold updateSubmit
  extract_lets active b im
  have hb : Canon b.2.2 := canon_keeperRead h1
  split
  · exact h1
  · split
    · exact canon_logFault h1
    · split
      · exact h1
      · exact canon_setLive hb
theorem canon_flashFirst {im : Option Image} (h : Canon s) : Canon (flashFirst store im s) := canon_setLive h
theorem canon_rollEnd {r : Roll} (h : Canon s) : Canon (rollEnd r s) := by
  unfold rollEnd
  extract_lets s1
  have hs1 : Canon s1 := canon_setPatch (canon_setLive h)
  split
  · exact canon_setLive hs1
  · exact canon_flashFirst (canon_setLive hs1)
theorem canon_rollCheck (h : Canon s) : Canon (rollCheck s) := by
  unfold rollCheck
  split
  · split
    · exact canon_rollEnd h
    · exact h
  · exact h
theorem canon_loadSpares (h : Canon s) : Canon (loadSpares s) := canon_foldl (fun _ _ => canon_loadPatch) h
theorem canon_updateRoll {a : Nat → Nat} (h : Canon s) : Canon (updateRoll a s).2.2 := by
  unfold updateRoll
  split
  · exact h
  · split
    · exact h
    · split
      · exact h
      · extract_lets r s1
        have hs1 : Canon s1 := canon_extendMr (canon_setPatch (canon_setLive h))
        show Canon (if _ then _ else _)
        split
        · exact canon_rollCheck (canon_loadSpares hs1)
        · exact hs1
theorem canon_updateAbort (h : Canon s) : Canon (updateAbort s).2.2 := by
  unfold updateAbort
  split
  · exact h
  · extract_lets s1
    have hs1 : Canon s1 := canon_setLive h
    show Canon (if _ then _ else _)
    split
    · exact canon_rollCheck (canon_loadSpares hs1)
    · split
      · exact canon_rollEnd hs1
      · exact hs1
theorem canon_rollStep (h : Canon s) : Canon (rollStep s) := by
  unfold rollStep
  split
  · exact h
  · split
    · exact h
    · refine canon_foldl (fun a1 x1 h1 => ?_) h
      split
      · exact canon_startReloc h1
      · exact h1
theorem canon_instanceSwitch {n : Nat} (h : Canon s) : Canon (instanceSwitch n s) := by
  unfold instanceSwitch
  split
  · exact h
  · split
    · exact h
    · split
      · split
        · extract_lets r1 _ s0
          have hs0 : Canon s0 := canon_setMicro h
          split
          · exact canon_rollEnd hs0
          · exact canon_setLive hs0
        · exact h
      · split
        · extract_lets r1 s1
          have hs1 : Canon s1 := canon_setLive (canon_loadBank h)
          split
          · exact canon_rollEnd hs1
          · exact hs1
        · exact h
theorem canon_keeperHandover {ok : Bool} (h : Canon s) : Canon (keeperHandover ok s).2.2 := by
  unfold keeperHandover
  split
  · exact h
  · split
    · exact h
    · extract_lets s1 s2 c s3
      have hs1 : Canon s1 := canon_setPatch h
      have hs2 : Canon s2 := canon_extendMr hs1
      have hs3 : Canon s3 := hs2.same rfl
      split
      · exact canon_setPatch hs1
      · exact canon_flashFirst (canon_setPatch hs3)
theorem canon_flashSecond (h : Canon s) : Canon (flashSecond store s) := by
  unfold flashSecond
  split
  · split
    · extract_lets v s1
      have hs1 : Canon s1 := canon_setLive h
      split
      · exact canon_sealAll hs1
      · exact hs1
    · exact h
  · exact h
theorem canon_setAging (h : Canon s) : Canon (setAging i x s) := canon_setLive h
theorem canon_agingQuery {a : Nat → Nat} (h : Canon s) : Canon (agingQuery a s).2.2 := by
  unfold agingQuery
  split
  · exact h
  · split
    · split
      · exact h
      · extract_lets x
        exact h
    · split
      · exact h
      · extract_lets x
        exact h
theorem canon_agingAlarm (h : Canon s) : Canon (agingAlarm i x s) := canon_logFault (canon_setAging h)
theorem canon_agingSample {degr tj : Nat} {short : Bool} (h : Canon s) : Canon (agingSample i degr tj short s) := by
  unfold agingSample
  extract_lets _ x dayOver x1 s1 s2 _
  have hs1 : Canon s1 := canon_setAging h
  have hs2 : Canon s2 := canon_agingAlarm hs1
  split
  · split
    · split
      · split
        · exact canon_startReloc hs2
        · exact hs2
      · exact canon_useSpare (canon_setPhys hs2)
    · exact hs1
  · split
    · split
      · exact canon_agingAlarm hs1
      · exact canon_enterContain (canon_setAging hs1)
    · exact hs1
end Sys2Proof.Machine
end

section
/-! Canonical memory: power modes, rails and thermal control (22, 25). -/
namespace Sys2Proof.Machine
variable {s : State} {low : Bool} {m : DevMode} {c lc mv n rail : Nat} {t : Transition} {v : Word32}
theorem canon_setPower {f : Power → Power} (h : Canon s) : Canon (setPower f s) := h.same rfl
theorem canon_setMode (h : Canon s) : Canon (setMode m s) := canon_noteMode h (canon_setPower h)
theorem canon_setTbOff {b : Bool} (h : Canon s) : Canon (setTbOff b s) := h.same rfl
theorem canon_takeWakes (h : Canon s) : Canon (takeWakes s) := canon_setPower h
theorem canon_setIslands {f : Nat → IslandState} (h : Canon s) : Canon (setIslands f s) := canon_foldl (fun _ _ => canon_setIsland) h
theorem canon_drainPorts (h : Canon s) : Canon (drainPorts s) := by
  unfold drainPorts
  refine canon_foldl (fun a1 x1 h1 => ?_) h
  extract_lets a1b
  have ha1b : Canon a1b := by
    unfold a1b
    split
    · exact canon_splitPair h1
    · exact h1
  exact canon_outOfService (canon_updPort ha1b)
theorem canon_startDrain (h : Canon s) : Canon (startDrain s) := by
  unfold startDrain
  extract_lets s1 s2
  have hs1 : Canon s1 := by
    unfold s1
    split
    · exact h
    · exact canon_bump (canon_setTbOff (canon_setIslands (canon_takeWakes h)))
  have hs2 : Canon s2 := canon_setMode (canon_setPower hs1)
  exact canon_foldl (fun _ _ => canon_peStop) (canon_drainPorts hs2)
theorem canon_startTransition (h : Canon s) : Canon (startTransition t s) := by
  unfold startTransition
  split
  · extract_lets s1
    have hs1 : Canon s1 := canon_bump (canon_setPower h)
    split
    · exact hs1
    · exact canon_setTbOff (canon_setMode hs1)
  · exact canon_bump (canon_setTbOff (canon_setMode (canon_takeWakes (canon_setPower h))))
  · exact canon_setPower h
  · exact canon_takeWakes (canon_setPower h)
  · exact canon_startDrain h
  · exact h
theorem canon_afterTransition (h : Canon s) : Canon (afterTransition s) := by
  unfold afterTransition
  extract_lets p
  split
  · exact h
  · split
    · exact canon_startTransition h
    · split
      · exact canon_startTransition (canon_setPower h)
      · exact h
theorem canon_placeRequest {commanded : Bool} (h : Canon s) : Canon (placeRequest t commanded s).2 := by
  unfold placeRequest
  extract_lets r s1
  have hs1 : Canon s1 := by
    unfold s1
    split
    · exact canon_setPower h
    · exact h
  split
  · exact canon_startTransition hs1
  · exact canon_setPower hs1
  · split
    · exact canon_setPower hs1
    · split <;> exact h
theorem canon_drainByPwrgd (h : Canon s) : Canon (drainByPwrgd s) := by
  unfold drainByPwrgd
  extract_lets replaced s1
  have hs1 : Canon s1 := by
    unfold s1
    split
    · exact canon_setPower h
    · exact h
  split
  · exact canon_startDrain hs1
  · exact h
  · exact canon_setPower hs1
theorem canon_pwrCmd (h : Canon s) : Canon (pwrCmd v s).2 := by
  unfold pwrCmd
  split
  · exact h
  · split
    · exact canon_placeRequest h
    · exact canon_setPower h
    · exact canon_setPower h
    · exact h
theorem canon_deepBegin (h : Canon s) : Canon (deepBegin s) := by
  unfold deepBegin
  extract_lets s1
  have hs1 : Canon s1 := canon_startTransition h
  split
  · exact hs1
  · refine canon_foldl (fun a1 x1 h1 => ?_) hs1
    split
    · exact canon_askSleep h1
    · exact h1
theorem canon_forgetOff (h : Canon s) : Canon (forgetOff s) := by
  unfold forgetOff
  refine canon_foldl (fun a1 x1 h1 => ?_) h
  split
  · exact canon_updCore h1
  · exact h1
theorem canon_deepEnd (h : Canon s) : Canon (deepEnd s) := by
  unfold deepEnd
  split
  · exact h
  · extract_lets s1 s0 m s2 s3
    have hs1 : Canon s1 := canon_bump (canon_setPower h)
    have hs0 : Canon s0 := by
      unfold s0
      refine canon_foldl (fun a1 x1 h1 => canon_foldl (fun a2 x2 h2 => ?_) h1) (canon_foldl (fun a1 x1 h1 => canon_foldl (fun a2 x2 h2 => ?_) h1) hs1)
      · split
        · exact canon_exposeStale h2
        · exact h2
      · split
        · exact canon_exposeStale h2
        · exact h2
    have hs2 : Canon s2 := hs0.same rfl
    have hs3 : Canon s3 := canon_forgetOff (canon_setIslands (canon_setPower hs2))
    split
    · exact canon_afterTransition hs1
    · exact canon_afterTransition (canon_setMode hs3)
theorem canon_deepExitEnd (h : Canon s) : Canon (deepExitEnd s) := by
  unfold deepExitEnd
  split
  · exact h
  · extract_lets s1 s2
    have hs1 : Canon s1 := canon_bump (canon_setPower h)
    have hs2 : Canon s2 := by
      unfold s2
      split
      · exact hs1
      · exact canon_setMode (canon_setTbOff (canon_setIslands hs1))
    exact canon_afterTransition hs2
theorem canon_wake {bit : Nat} (h : Canon s) : Canon (wake bit s) := by
  unfold wake
  extract_lets s1
  have hs1 : Canon s1 := canon_latchWake h
  split
  · exact hs1
  · exact canon_afterTransition hs1
theorem canon_padRelease (h : Canon s) : Canon (padRelease v s).2 := by
  unfold padRelease
  split
  · exact h
  · split
    · exact h
    · split
      · exact canon_setPower h
      · exact h
theorem canon_islandIdle {st : IslandState} (h : Canon s) : Canon (islandIdle st lc s) := by
  unfold islandIdle
  extract_lets c on
  split
  · exact canon_setIsland (canon_setIsland h)
  · exact h
theorem canon_drainEnd (h : Canon s) : Canon (drainEnd s) := by
  unfold drainEnd
  split
  · exact canon_setMode (canon_setIslands (canon_setPower h))
  · exact h
theorem canon_fallTo (h : Canon s) : Canon (fallTo m s) := canon_setMode (canon_setIslands (canon_setPower h))
theorem canon_rindLost (h : Canon s) : Canon (rindLost s) := h.same rfl
theorem canon_railFails {written : Bool} (h : Canon s) : Canon (railFails rail mv written s) := by
  unfold railFails
  split
  · exact h
  · extract_lets s1 s2
    have hs1 : Canon s1 := by
      unfold s1
      split
      · exact canon_logFault h
      · exact h
    have hs2 : Canon s2 := canon_setPower hs1
    split
    · exact canon_rindLost (canon_fallTo hs2)
    · exact canon_fallTo hs2
theorem canon_rindDown (h : Canon s) : Canon (rindDown s) := by
  unfold rindDown
  split
  · exact canon_rindLost (canon_setMode h)
  · exact canon_railFails h
theorem canon_rindUp (h : Canon s) : Canon (rindUp s) := by
  unfold rindUp
  split
  · exact canon_setMode h
  · exact h
theorem canon_pwrgdFalls (h : Canon s) : Canon (pwrgdFalls s) := by
  unfold pwrgdFalls
  extract_lets s1
  have hs1 : Canon s1 := canon_setPower h
  split
  · exact canon_fallTo hs1
  · exact canon_fallTo hs1
  · exact canon_fallTo hs1
  · exact canon_drainByPwrgd hs1
  · exact canon_drainByPwrgd hs1
  · exact canon_drainByPwrgd hs1
  · exact hs1
theorem canon_sequenceLate (h : Canon s) : Canon (sequenceLate rail mv s) := by
  unfold sequenceLate
  split
  · exact canon_fallTo (canon_logFault h)
  · exact h
theorem canon_setLimit (h : Canon s) : Canon (setLimit lc n s) := canon_setPower h
theorem canon_noteThrottle (h : Canon s) : Canon (noteThrottle s) := by
  unfold noteThrottle
  extract_lets t
  split
  · exact h
  · exact canon_pulse (canon_setPower h)
theorem canon_limitCompare {avg : Nat} (h : Canon s) : Canon (limitCompare avg s) := by
  unfold limitCompare
  extract_lets s0 limit step first second s1 s2
  have hs0 : Canon s0 := canon_setPower h
  have hstep (a1 : State) (lc1 : Nat) (ha1 : Canon a1) : Canon (step a1 lc1) := canon_setLimit ha1
  have hs1 : Canon s1 := by
    unfold s1
    split
    · exact canon_foldl (fun _ _ h1 => hstep _ _ h1) hs0
    · split
      · refine canon_foldl (fun a1 x1 h1 => ?_) hs0
        split
        · exact canon_setLimit h1
        · exact h1
      · exact hs0
  have hs2 : Canon s2 := canon_noteThrottle hs1
  split
  · exact canon_bump hs2
  · exact hs2
theorem canon_setTargets {t tu tr : Nat} (h : Canon s) : Canon (setTargets t tu tr s) := canon_setPower h
theorem canon_lowerAll (h : Canon s) : Canon (lowerAll s) := canon_foldl (fun _ _ => canon_setTargets) h
theorem canon_thermalTrip (h : Canon s) : Canon (thermalTrip s) := canon_alert (canon_fallTo (canon_setPower h))
theorem canon_tempSample {i temp : Nat} (h : Canon s) : Canon (tempSample i temp s) := by
  unfold tempSample
  extract_lets was hot s1
  have hs1 : Canon s1 := canon_setPower h
  split
  · exact canon_thermalTrip hs1
  · split
    · exact canon_alert (canon_pulse (canon_lowerAll (canon_setPower hs1)))
    · split
      · exact canon_pulse (canon_setPower hs1)
      · exact hs1
theorem canon_thermalStep (h : Canon s) : Canon (thermalStep s) := by
  unfold thermalStep
  split
  · exact canon_lowerAll h
  · extract_lets stackHot stackCool
    refine canon_foldl (fun a1 x1 h1 => ?_) h
    extract_lets ts tu tr
    split
    · split
      · exact canon_setTargets h1
      · split
        · exact canon_setTargets h1
        · exact h1
    · split
      · split
        · exact canon_setTargets h1
        · split
          · exact canon_setTargets h1
          · exact h1
      · exact h1
theorem canon_prochotBoard (h : Canon s) : Canon (prochotBoard low s) := by
  unfold prochotBoard
  split
  · exact h
  · extract_lets s1
    have hs1 : Canon s1 := canon_pulse (canon_setPower h)
    split
    · exact canon_lowerAll hs1
    · exact hs1
theorem canon_setPadEvent {b : Nat} (h : Canon s) : Canon (setPadEvent b s) := h.same rfl
theorem canon_vrAlert (h : Canon s) : Canon (vrAlert low s) := by
  unfold vrAlert
  extract_lets s1
  have hs1 : Canon s1 := canon_setPower h
  split
  · exact canon_setPadEvent hs1
  · exact hs1
theorem canon_perstLow (h : Canon s) : Canon (perstLow s) := by
  unfold perstLow
  split
  · exact h
  · exact canon_foldl (fun _ _ => canon_peStop) (canon_setPower h)
theorem canon_perstHigh (h : Canon s) : Canon (perstHigh s) := by
  unfold perstHigh
  split
  · refine canon_foldl (fun a1 x1 h1 => ?_) (canon_setPower h)
    split
    · exact canon_peStart h1
    · exact h1
  · exact h
theorem canon_setSrc (h : Canon s) : Canon (setSrc n s) := h.same rfl
theorem canon_dropRef (h : Canon s) : Canon (dropRef c s) := canon_setPower h
theorem canon_refSwitch (h : Canon s) : Canon (refSwitch s) := by
  unfold refSwitch
  extract_lets c
  split
  · exact canon_logFault (canon_setSrc (canon_dropRef (canon_setPower h)))
  · exact h
theorem canon_standbyLost (h : Canon s) : Canon (standbyLost s) := by
  unfold standbyLost
  extract_lets c
  split
  · exact canon_logFault (canon_dropRef h)
  · exact h
theorem canon_refLost (h : Canon s) : Canon (refLost s) := by
  unfold refLost
  split
  · exact h
  · exact canon_enterContain (canon_logFault (canon_setSrc (canon_setPower h)))
theorem canon_refReturn (h : Canon s) : Canon (refReturn c s) := by
  unfold refReturn
  split
  · exact h
  · extract_lets s1
    have hs1 : Canon s1 := canon_setPower h
    split
    · exact canon_clockCleared (canon_logFault (canon_setSrc (canon_setPower hs1)))
    · exact hs1
theorem canonOut_execDozeEntry (h : Canon s) : CanonOut (execDozeEntry s) := by
  unfold execDozeEntry
  refine canonOut_next ?_
  split
  · extract_lets s1
    have hs1 : Canon s1 := canon_startTransition h
    split
    · exact canon_deepBegin hs1
    · exact hs1
  · exact h
theorem canonOut_execDeepDozeEntry (h : Canon s) : CanonOut (execDeepDozeEntry s) := by
  unfold execDeepDozeEntry
  refine canonOut_next ?_
  split
  · exact canon_deepBegin h
  · exact h
end Sys2Proof.Machine
end

section
/-! Canonical memory: pads, GPIO, the UARTs and the TAP (24). -/
namespace Sys2Proof.Machine
variable {s : State} {tag : Byte} {n u : Nat} {v : Word32}
theorem canon_setPads {f : Pads → Pads} (h : Canon s) : Canon (setPads f s) := h.same rfl
theorem canon_padFollow {was : Bool} (h : Canon s) : Canon (padFollow n was s) := by
  unfold padFollow
  extract_lets now s1
  have hs1 : Canon s1 := canon_setLine h
  split
  · exact canon_latchWake hs1
  · exact hs1
theorem canon_padLevel {n : Fin 32} {board : Bool} (h : Canon s) : Canon (padLevel n board s) := by
  unfold padLevel
  extract_lets was high s1
  have hs1 : Canon s1 := canon_padFollow (canon_setPads h)
  split
  · exact hs1
  · split
    · exact canon_tinLevel hs1
    · exact hs1
theorem canon_takeFsel (h : Canon s) : Canon (takeFsel n s) := canon_setPads h
theorem canon_setReleasing {b : Bool} (h : Canon s) : Canon (setReleasing n b s) := canon_setPads h
theorem canon_idleInput (h : Canon s) : Canon (idleInput n s) := by
  unfold idleInput
  split
  · exact canon_tinLevel h
  · exact h
theorem canon_startInput (h : Canon s) : Canon (startInput n s) := by
  unfold startInput
  split
  · exact canon_tinLevel h
  · exact h
theorem canon_redrive (h : Canon s) : Canon (redrive n s) := by
  unfold redrive
  split
  · exact canon_padLevel h
  · exact h
theorem canon_padCfgWritten {old : Word32} (h : Canon s) : Canon (padCfgWritten n old s) := by
  unfold padCfgWritten
  extract_lets was s1
  have hs1 : Canon s1 := canon_redrive (canon_padFollow h)
  split
  · exact hs1
  · split
    · exact canon_startInput (canon_takeFsel (canon_idleInput hs1))
    · exact canon_setReleasing (canon_idleInput hs1)
theorem canon_padSwitched (h : Canon s) : Canon (padSwitched n s) := by
  unfold padSwitched
  split
  · exact canon_redrive (canon_startInput (canon_takeFsel (canon_setReleasing h)))
  · exact h
theorem canon_ledDiagnose {above below : BitVec 4} (h : Canon s) : Canon (ledDiagnose above below s) := canon_setPads h
theorem canon_uartLine (h : Canon s) : Canon (uartLine u s) := canon_setLine h
theorem canon_setUart {x : Uart} (h : Canon s) : Canon (setUart u x s) := canon_uartLine (canon_setPads h)
theorem canon_uartSend (h : Canon s) : Canon (uartSend u v s).2 := by
  unfold uartSend
  extract_lets x
  split
  · exact h
  · exact canon_setUart h
theorem canon_uartReceive {b : Byte} {frameErr brk : Bool} (h : Canon s) : Canon (uartReceive u b frameErr brk s) := by
  unfold uartReceive
  extract_lets x e
  split
  · exact h
  · split
    · exact canon_setUart h
    · split <;> exact canon_setUart h
theorem canon_uartSent (h : Canon s) : Canon (uartSent u s) := by
  unfold uartSent
  split
  · exact canon_setUart h
  · exact h
theorem canon_uartRead (h : Canon s) : Canon (uartRead u s).2 := by
  unfold uartRead
  split
  · exact canon_setUart h
  · exact h
theorem canon_flashTimeout {c : Nat} (h : Canon s) : Canon (flashTimeout c s) := canon_setPadEvent (canon_setPads h)
theorem canon_mbxAnswer {st : Nat} {data : List Byte} (h : Canon s) : Canon (mbxAnswer st tag data s) := canon_setPads h
theorem canon_mbxRequest {cmd len : Byte} {payload : List Byte} {pec : Byte} (h : Canon s) : Canon (mbxRequest cmd tag len payload pec s) := by
  unfold mbxRequest
  split
  · exact h
  · split
    · exact canon_mbxAnswer h
    · split
      · exact canon_mbxAnswer h
      · extract_lets s1
        have hs1 : Canon s1 := canon_setPads h
        split
        · exact canon_latchWake hs1
        · exact hs1
theorem canon_mbxStall (h : Canon s) : Canon (mbxStall s) := canon_setPadEvent (canon_setPads h)
theorem canon_mbxCmd (h : Canon s) : Canon (mbxCmd v s).2 := by
  unfold mbxCmd
  extract_lets n
  split
  · exact h
  · split
    · exact canon_setLine (canon_setPads h)
    · split
      · exact h
      · split
        · exact h
        · exact canon_alert (canon_setPads h)
    · exact h
theorem canon_leaveScan (h : Canon s) : Canon (leaveScan s) := by
  unfold leaveScan
  split
  · exact canon_setMode h
  · exact h
theorem canon_tapReset (h : Canon s) : Canon (tapReset s) := canon_leaveScan (canon_setPads h)
theorem canon_tapUpdateIr {ir : BitVec 8} (h : Canon s) : Canon (tapUpdateIr ir s) := by
  unfold tapUpdateIr
  extract_lets s1
  have hs1 : Canon s1 := canon_setPads h
  split
  · exact canon_setMode hs1
  · exact canon_leaveScan hs1
theorem canon_tapUpdateDr {d : BitVec 2112} (h : Canon s) : Canon (tapUpdateDr d s) := by
  unfold tapUpdateDr
  extract_lets s1 ir t
  have hs1 : Canon s1 := canon_setPads h
  split
  · exact canon_setPads hs1
  · split
    · split
      · exact canon_setPads hs1
      · exact hs1
    · exact hs1
theorem canon_safeholdExpires (h : Canon s) : Canon (safeholdExpires s) := by
  unfold safeholdExpires
  split
  · exact canon_setPadEvent (canon_setPads h)
  · exact h
theorem canon_inRindOn {f : State → State} (hf : ∀ a, Canon a → Canon (f a)) (hs : Canon s) : Canon (inRindOn f s) := by
  unfold inRindOn
  split
  · exact hs
  · exact hf _ hs
end Sys2Proof.Machine
end

section
/-! Canonical memory: SEQUENCE and CALIBRATE. A boot starts from the memory of reset, which lists nothing (26 R609 to R614). -/
namespace Sys2Proof.Machine
variable {s : State} {boot slot : BitVec 2} {test valid : Bool} {cfg : BootConfig} {l : Loader} {off v : Nat}
theorem canon_journal {v : Word32} {kind level : Nat} (h : Canon s) : Canon (journal off v kind level s) := h.same rfl
theorem canon_seqWrite (h : Canon s) : Canon (seqWrite off v s) := canon_journal (canon_setAct (canon_setReg h))
theorem canon_seqWrite64 (h : Canon s) : Canon (seqWrite64 off v s) := canon_seqWrite (canon_seqWrite h)
theorem canon_enterSequence (h : Canon s) : Canon (enterSequence s) := by
  unfold enterSequence
  extract_lets s1
  have hs1 : Canon s1 := canon_setMode h
  split
  · exact canon_logFault (canon_setPower hs1)
  · exact hs1
theorem canon_takeStraps (h : Canon s) : Canon (takeStraps boot slot test valid s) := by
  unfold takeStraps
  split
  · exact canon_setPower h
  · exact canon_setPadEvent (canon_setPower h)
theorem canon_pwrgdRises (h : Canon s) : Canon (pwrgdRises boot slot test valid s) := by
  unfold pwrgdRises
  split
  · exact h
  · extract_lets s1
    have hs1 : Canon s1 := canon_setPower h
    split
    · exact canon_enterSequence (canon_takeStraps hs1)
    · exact hs1
theorem canon_powerOn (h : Canon s) : Canon (powerOn s).2 := by
  unfold powerOn
  split
  · exact h
  · split
    · exact canon_enterSequence (canon_setPower h)
    · exact h
theorem canon_afterSequence (_ : Canon s) : Canon (afterSequence s) := by
  unfold afterSequence
  extract_lets z m boot _ _ _ _ _ _ _ _ s1
  have hz : Canon z := canon_reset
  have hs1 : Canon s1 := hz.same rfl
  exact canon_setReg hs1
theorem canon_sequenceDone (h : Canon s) : Canon (sequenceDone s) := by
  unfold sequenceDone
  split
  · exact canon_noteMode h (canon_afterSequence h)
  · exact h
theorem canon_putMap {map : List Nat} (h : Canon s) : Canon (putMap map s) := h.same rfl
theorem canon_startCore {lc : Nat} (h : Canon s) : Canon (startCore l s lc) := by
  unfold startCore
  extract_lets k1 k2 r r1
  have hk1 : Canon k1.2 := canon_drawWord h
  have hk2 : Canon k2.2 := canon_drawWord hk1
  exact canon_setCore hk2
theorem canon_progress {stage detail : Nat} (h : Canon s) : Canon (progress stage detail s) := by
  unfold progress
  split
  · exact h
  · exact canon_alert (canon_setPads h)
theorem canon_bootDdr {ds : List Dimm} (h : Canon s) : Canon (bootDdr ds s) := by
  unfold bootDdr
  extract_lets chs d0 per _ s1 s2 s3 total gone hard _
  have hs1 : Canon s1 := h.same rfl
  have hs2 : Canon s2 := canon_foldl (fun _ _ => canon_setMemCtl) hs1
  have hs3 : Canon s3 := canon_foldl (fun _ _ => canon_logMem) hs2
  exact canon_setReserve (hs3.same rfl)
theorem canon_bootMemory (h : Canon s) : Canon (bootMemory cfg s) := by
  unfold bootMemory
  extract_lets s1 _
  have hs1 : Canon s1 := canon_trainAll (canon_bootDdr h)
  exact hs1.same rfl
theorem canon_bootRegs (h : Canon s) : Canon (bootRegs cfg s) := by
  unfold bootRegs
  extract_lets pages s1 s2 s3 s4 copy s5 s6 _ _ _ s7
  have hs1 : Canon s1 := canon_seqWrite64 (canon_seqWrite64 (canon_seqWrite64 h))
  have hs2 : Canon s2 := canon_seqWrite hs1
  have hs3 : Canon s3 := by
    unfold s3
    split
    · exact canon_seqWrite hs2
    · exact hs2
  have hs4 : Canon s4 := by
    unfold s4
    split
    · extract_lets a
      have ha : Canon a := canon_seqWrite hs3
      split
      · exact canon_seqWrite ha
      · exact ha
    · exact hs3
  have hs5 : Canon s5 := canon_seqWrite hs4
  have hs6 : Canon s6 := by
    unfold s6
    split
    · exact canon_foldl (fun _ _ h1 => canon_padCfgWritten (canon_seqWrite h1)) hs5
    · exact hs5
  have hs7 : Canon s7 := hs6.same rfl
  exact canon_foldl (fun _ _ h1 => canon_peStart (canon_seqWrite h1)) hs7
theorem canon_bootPatches (h : Canon s) : Canon (bootPatches cfg s) := by
  unfold bootPatches
  extract_lets copy s1 s2
  have hs1 : Canon s1 := canon_extendMr (canon_extendMr h)
  have hs2 : Canon s2 := canon_openSealed hs1
  refine canon_foldl (fun a1 x1 h1 => ?_) hs2
  split
  · extract_lets b
    have hb : Canon b := canon_foldl (fun _ _ => canon_loadBank) (canon_extendMr h1)
    exact canon_setLive hb
  · exact canon_setLive h1
theorem canon_bootCores (h : Canon s) : Canon (bootCores l s) := by
  unfold bootCores
  extract_lets s1 used s2 _ s3
  have hs1 : Canon s1 := canon_foldl (fun _ _ => canon_startCore) h
  have hs2 : Canon s2 := by
    unfold s2
    refine canon_foldl (fun a1 x1 h1 => ?_) hs1
    split
    · exact h1
    · exact canon_setCoreIsland h1
  clear_value s2
  have hs3 : Canon s3 := canon_setMode (hs2.same rfl)
  split
  · exact canon_enterContain hs3
  · exact hs3
theorem canon_calibrateDone (h : Canon s) : Canon (calibrateDone cfg s) := by
  unfold calibrateDone
  split
  · exact h
  · split
    · exact canon_progress (canon_logFault h)
    · extract_lets s0 map ready s1 v _ s2
      have hs0 : Canon s0 := canon_bootMemory (canon_progress (canon_bootPatches (canon_progress h)))
      have hready : Canon ready := canon_progress (canon_progress (canon_progress hs0))
      have hs1 : Canon s1 := canon_progress (canon_bootRegs (canon_progress hready))
      have hs2 : Canon s2 := canon_putMap (hs1.same rfl)
      split
      · exact canon_progress (canon_logFault hs2)
      · extract_lets s3 s4
        have hs3 : Canon s3 := canon_writeBytes hs2
        have hs4 : Canon s4 := canon_extendMr (canon_writeBytes hs3)
        exact canon_bootCores (canon_progress hs4)
end Sys2Proof.Machine
end

section
/-! Canonical memory: the CSRs of a core and its performance counters (03 R64, R65; 23 R564 to R567). -/
namespace Sys2Proof.Machine
variable {s : State} {i lc lvl n : Nat} {e : PmEvent} {v : Word64}
theorem canon_updRegs {f : Regs → Regs} (h : Canon s) : Canon (updRegs lc f s) := canon_updCore h
theorem canon_pmRaise (h : Canon s) : Canon (pmRaise lc s) := by
  unfold pmRaise
  extract_lets p
  split
  · exact canon_raiseMsg h
  · exact h
theorem canon_cycTick (h : Canon s) : Canon (cycTick lc s) := by
  unfold cycTick
  split
  · extract_lets d n
    have hd : Canon d.2 := canon_drawCount h
    split
    · exact canon_updRegs hd
    · exact canon_pmRaise (canon_updRegs hd)
  · exact h
theorem canon_sample (h : Canon s) : Canon (sample lc e s) := by
  unfold sample
  extract_lets r ctl head used size s1 pa own d s1b
  have hs1 : Canon s1 := canon_updRegs h
  have hd : Canon d.2 := canon_drawBytes (canon_cycTick h)
  have hs1b : Canon s1b := canon_inject (canon_agentWrite hd)
  split
  · exact h
  · split
    · split
      · exact hs1
      · exact canon_pmRaise hs1
    · split
      · exact canon_updRegs hs1b
      · exact canon_updRegs h
theorem canon_pmWrap {excess : Nat} (h : Canon s) : Canon (pmWrap lc i excess e s) := by
  unfold pmWrap
  extract_lets r sel plog value off s1 s2
  have hs1 : Canon s1 := canon_updRegs h
  have hs2 : Canon s2 := by
    unfold s2
    split
    · exact canon_sample hs1
    · exact hs1
  split
  · exact canon_pmRaise hs2
  · exact hs2
theorem canon_pmAdd (h : Canon s) : Canon (pmAdd lc i e s) := by
  unfold pmAdd
  extract_lets off n
  split
  · exact canon_updRegs h
  · exact canon_pmWrap h
theorem canon_pmCount (h : Canon s) : Canon (pmCount lc s e) := by
  unfold pmCount
  refine canon_foldl (fun a1 x1 h1 => ?_) h
  extract_lets r
  split
  · exact canon_pmAdd h1
  · exact h1
theorem canon_pmTick (h : Canon s) : Canon (pmTick lc i s) := by
  unfold pmTick
  extract_lets c d
  have hd : Canon d.2 := canon_drawCount h
  split
  · exact canon_cycTick h
  · split
    · exact canon_pmAdd hd
    · exact h
theorem canon_pmTickAll (h : Canon s) : Canon (pmTickAll lc s) := canon_foldl (fun _ _ => canon_pmTick) h
theorem canon_csrRead (h : Canon s) : Canon (csrRead lc lvl n s).2.2 := by
  unfold csrRead
  split
  · exact h
  · split
    · exact h
    · extract_lets s1
      have hs1 : Canon s1 := by
        unfold s1
        split
        · exact canon_pmTick h
        · split
          · exact canon_pmTick h
          · exact h
      exact hs1
theorem canon_csrApply (h : Canon s) : Canon (csrApply lc n v s) := by
  unfold csrApply
  extract_lets c put s1 s1b s1c
  have hput (x1 : Word64) : Canon (put x1) := canon_updRegs h
  have hs1 : Canon s1 := hput _
  have hs1b : Canon s1b := by
    unfold s1b
    split
    · exact canon_pmTickAll h
    · exact h
  have hs1c : Canon s1c := hput _
  split
  · exact canon_updRegs h
  · exact hput _
  · split
    · exact canon_updCore hs1
    · exact hs1
  · split
    · exact hput _
    · exact canon_updCore (hput _)
  · split
    · exact hput _
    · exact canon_updCore (hput _)
  · exact canon_updRegs hs1b
  · split
    · exact canon_updRegs hs1c
    · split
      · exact canon_updRegs (canon_pmTick h)
      · exact hput _
theorem canon_csrWrite (h : Canon s) : Canon (csrWrite lc lvl n v s).2 := by
  unfold csrWrite
  extract_lets r
  split
  · exact h
  · split
    · exact h
    · extract_lets ro
      split
      · exact h
      · split
        · exact h
        · split
          · exact h
          · exact canon_csrApply h
theorem canonOut_execPmcWrap {lc : LC} {i : Fin 9} (h : Canon s) : CanonOut (execPmcWrap lc i s) := by
  unfold execPmcWrap
  extract_lets c top
  refine canonOut_next ?_
  split
  · exact canon_pmAdd h
  · exact h
end Sys2Proof.Machine
end

section
/-! Canonical memory: attachment, halting and the debugger's accesses (23). -/
namespace Sys2Proof.Machine
variable {s : State} {cause : BitVec 5} {cls data kind lc n pa : Nat} {v : Word32} {w : Writer}
theorem canon_setDbg {f : Dbg → Dbg} (h : Canon s) : Canon (setDbg f s) := h.same rfl
theorem canon_dbgTouch (h : Canon s) : Canon (dbgTouch w s) := by
  unfold dbgTouch
  split
  · exact canon_setDbg h
  · exact h
theorem canon_putPacket {bs : List Byte} (h : Canon s) : Canon (putPacket bs s) := by
  unfold putPacket
  extract_lets pa s1
  have hs1 : Canon s1 := canon_bump (canon_inject (canon_agentWrite h))
  exact canon_setDbg hs1
theorem canon_emit {port : Nat} {lcore : Option Nat} {arg : Nat} (h : Canon s) : Canon (emit kind port lcore data arg s) := by
  unfold emit
  extract_lets drop s1
  have hdrop (a1 : State) (ha1 : Canon a1) : Canon (drop a1) := canon_bump (canon_setDbg ha1)
  have hs1 : Canon s1 := canon_setDbg (canon_putPacket h)
  split
  · exact h
  · split
    · exact hdrop _ h
    · split
      · exact canon_putPacket h
      · split
        · exact hdrop _ hs1
        · exact canon_putPacket hs1
theorem canon_emitHalt (h : Canon s) : Canon (emitHalt kind lc data s) := by
  unfold emitHalt
  split
  · exact canon_emit h
  · exact h
theorem canon_stim {p : Nat} (h : Canon s) : Canon (stim w p v s) := by
  unfold stim
  extract_lets atK lcore
  split
  · exact canon_emit h
  · exact h
theorem canon_noteHalts (h : Canon s) : Canon (noteHalts s) := canon_setTbOff h
theorem canon_haltCore (h : Canon s) : Canon (haltCore lc cause s) := by
  unfold haltCore
  extract_lets s1
  have hs1 : Canon s1 := canon_updCore (canon_pmTickAll h)
  exact canon_noteHalts (canon_emitHalt hs1)
theorem canon_resumeCore {step : Bool} (h : Canon s) : Canon (resumeCore lc step s) := by
  unfold resumeCore
  extract_lets s0
  have hs0 : Canon s0 := canon_emitHalt h
  exact canon_noteHalts (canon_updCore hs0)
theorem canon_requestHalt (h : Canon s) : Canon (requestHalt cause lc s) := by
  unfold requestHalt
  split
  · exact h
  · exact canon_updCore h
theorem canon_haltNow (h : Canon s) : Canon (haltNow lc s) := by
  unfold haltNow
  extract_lets c
  split
  · exact canon_haltCore h
  · exact h
theorem canon_lcCmd (h : Canon s) : Canon (lcCmd lc v s).2 := by
  unfold lcCmd
  extract_lets halted
  split
  · exact h
  · split
    · exact canon_requestHalt h
    · split
      · exact canon_resumeCore h
      · exact h
    · split
      · exact canon_resumeCore h
      · exact h
    · exact h
theorem canon_resumeHalted (h : Canon s) : Canon (resumeHalted s lc) := by
  unfold resumeHalted
  split
  · exact canon_resumeCore h
  · exact h
theorem canon_haltAll (h : Canon s) : Canon (haltAll v s).2 := by
  unfold haltAll
  split
  · exact h
  · split
    · exact canon_foldl (fun _ _ => canon_requestHalt) h
    · exact canon_foldl (fun _ _ => canon_resumeHalted) h
    · exact h
theorem canon_closeLevel (h : Canon s) : Canon (closeLevel s) := by
  unfold closeLevel
  extract_lets s1 s2
  have hs1 : Canon s1 := canon_noteMode h (canon_setDbg h)
  have hs2 : Canon s2 := canon_foldl (fun _ _ => canon_setReg) hs1
  exact canon_foldl (fun _ _ h1 => canon_updCore (canon_resumeHalted h1)) hs2
theorem canon_detach (h : Canon s) : Canon (detach s) := canon_setDbg (canon_closeLevel h)
theorem canon_dbgAttach (h : Canon s) : Canon (dbgAttach w v s).2 := by
  unfold dbgAttach
  extract_lets p
  split
  · exact h
  · split
    · split
      · exact h
      · split
        · exact h
        · exact canon_setDbg h
    · split
      · exact canon_detach h
      · split <;> exact h
    · exact h
theorem canon_attachLate (h : Canon s) : Canon (attachLate s) := by
  unfold attachLate
  split
  · exact canon_detach h
  · exact h
theorem canon_authRequest (h : Canon s) : Canon (authRequest w v s).2 := by
  unfold authRequest
  extract_lets lvl dur c
  have hc : Canon c.2 := canon_drawBytes h
  split
  · exact h
  · split
    · exact h
    · split
      · exact h
      · exact canon_setDbg hc
theorem canon_authRefuse (h : Canon s) : Canon (authRefuse s) := canon_logFault (canon_setDbg h)
theorem canon_authSubmit (h : Canon s) : Canon (authSubmit w v s).2 := by
  unfold authSubmit
  extract_lets alg r
  split
  · exact h
  · split
    · exact h
    · split
      · split
        · exact h
        · exact canon_authRefuse h
      · extract_lets dig lvl1 ok s1
        have hs1 : Canon s1 := canon_setDbg h
        split
        · exact canon_noteMode h (canon_logFault (canon_extendMr hs1))
        · exact canon_authRefuse h
theorem canon_grantLapses (h : Canon s) : Canon (grantLapses s) := by
  unfold grantLapses
  split
  · exact canon_closeLevel h
  · exact h
theorem canon_winRead (h : Canon s) : Canon (winRead lc cls n s).2.2 := by
  unfold winRead
  extract_lets c
  split
  · split <;> exact h
  · split
    · exact h
    · split <;> exact h
  · split <;> exact h
  · split <;> exact h
  · exact canon_csrRead h
  · exact h
theorem canon_winWrite {v : Word64} (h : Canon s) : Canon (winWrite lc cls n v s).2 := by
  unfold winWrite
  extract_lets put
  have hput (ok1 : Bool) (f1 : Regs → Regs) : Canon (put ok1 f1).2 := by
    unfold put
    split
    · exact canon_updRegs h
    · exact h
  split
  · exact hput _ _
  · split
    · split
      · exact h
      · exact hput _ _
    · split
      · split
        · exact h
        · exact canon_updCore h
      · exact h
  · exact hput _ _
  · exact hput _ _
  · exact canon_csrWrite h
  · exact h
theorem canon_putRdata {w : Word64} (h : Canon s) : Canon (putRdata w s) := canon_setReg (canon_setReg h)
theorem canon_rcmd (h : Canon s) : Canon (rcmd w v s).2 := by
  unfold rcmd
  extract_lets op sel cls lc n done r r1
  have hdone (st1 : Nat) (a1 : State) (ha1 : Canon a1) : Canon (done st1 a1).2 := canon_setDbg ha1
  have hr : Canon r.2.2 := canon_winRead h
  have hr1 : Canon r1.2 := canon_winWrite h
  split
  · exact h
  · split
    · exact h
    · split
      · exact hdone _ _ h
      · split
        · exact hdone _ _ h
        · split
          · refine hdone _ _ ?_
            split
            · exact canon_putRdata hr
            · exact h
          · exact hdone _ _ hr1
theorem canon_dbgDone {st : Nat} {poison : Bool} (h : Canon s) : Canon (dbgDone st poison s).2 := canon_setDbg h
theorem canon_dbgSteal (h : Canon s) : Canon (dbgSteal pa s) := canon_bump (canon_inject h)
theorem canon_dbgMem {op : Nat} (h : Canon s) : Canon (dbgMem w op n pa s).2 := by
  unfold dbgMem
  extract_lets region r x s1 bs
  have hr : Canon r.2.2 := canon_agentRead (canon_dbgSteal h)
  have hs1 : Canon s1 := by
    unfold s1
    split
    · exact canon_foldl (fun _ _ => canon_setReg) hr
    · exact canon_setReg (canon_setReg hr)
  split
  · exact canon_dbgDone h
  · split
    · exact canon_dbgDone h
    · split
      · exact canon_dbgDone h
      · split
        · exact canon_dbgDone hs1
        · exact canon_dbgDone (canon_agentWrite (canon_dbgSteal h))
end Sys2Proof.Machine
end

section
/-! Canonical memory: period boundaries and epochs (02 R47 to R51; 12 R300, R301). -/
namespace Sys2Proof.Machine
variable {s : State} {kind : Nat}
theorem canon_applyShadows (h : Canon s) : Canon (applyShadows kind s) := canon_foldl (fun _ _ => canon_setAct) h
theorem canon_switchEpoch (h : Canon s) : Canon (switchEpoch kind s) := by
  unfold switchEpoch
  split
  · extract_lets mine kept _ s0 s1 _
    have hs0 : Canon s0 := h.same rfl
    have hs1 : Canon s1 := by
      unfold s1
      refine canon_foldl (fun a1 x1 h1 => ?_) hs0
      split
      · exact canon_setReg h1
      · exact h1
    exact canon_blockSwitched (hs1.same rfl)
  · exact h
theorem canon_ageSlices (h : Canon s) : Canon (ageSlices s) := h.same rfl
theorem canon_refillKind (h : Canon s) : Canon (refillKind kind s) := h.same rfl
theorem canon_frankSwitch (h : Canon s) : Canon (frankSwitch s) := by
  unfold frankSwitch
  extract_lets s1 len
  have hs1 : Canon s1 := canon_applyShadows (canon_switchEpoch h)
  exact hs1.same rfl
theorem canon_periodBoundary (h : Canon s) : Canon (periodBoundary kind s) := by
  unfold periodBoundary
  split
  · exact canon_blockSwitched h
  · split
    · exact canon_frankSwitch h
    · extract_lets s2
      have hs2 : Canon s2 := canon_applyShadows (canon_switchEpoch (canon_refillKind h))
      split
      · exact canon_armQueue hs2
      · split
        · exact canon_ageSlices hs2
        · exact hs2
theorem canon_epochCommit (h : Canon s) : Canon (epochCommit s).2 := by
  unfold epochCommit
  split
  · exact h
  · extract_lets joined _ s1
    have hs1 : Canon s1 := h.same rfl
    exact canon_foldl (fun _ _ => canon_cohSend) hs1
theorem canon_epochDiscard (h : Canon s) : Canon (epochDiscard s).2 := by
  unfold epochDiscard
  split
  · exact h
  · exact h.same rfl
end Sys2Proof.Machine
end

section
/-! Canonical memory: reads of control space (02 R35 to R46). -/
namespace Sys2Proof.Machine
variable {s : State} {clear : Bool} {off : Nat} {mask : Word32} {w : Writer}
theorem canon_setKeyReg {k : Nat} {v : Word32} (h : Canon s) : Canon (setKeyReg k v s) := h.same rfl
theorem canon_keepCopy {old : Word32} (h : Canon s) : Canon (keepCopy w off old s) := by
  unfold keepCopy
  split
  · exact h
  · extract_lets v _
    exact h.same rfl
theorem canon_freezeCopies {u : Nat} (h : Canon s) : Canon (freezeCopies u s) := h.same rfl
theorem canon_clearRead {d : RegDesc} {ix : List Nat} (h : Canon s) : Canon (clearRead w d ix mask s) := by
  unfold clearRead
  extract_lets n _ _
  split
  · exact canon_setPower h
  · exact canon_setPads h
  · split
    · exact canon_uartRead h
    · split
      · exact canon_setUart h
      · exact h
  · exact canon_setUart h
  · exact canon_syncLine (h.same rfl)
  · exact canon_tmrLine (canon_updTimer h)
  · split
    · split
      · exact canon_icClaim h
      · exact h
    · exact h
  · exact h
theorem canon_touch (h : Canon s) : Canon (touch w off s) := by
  unfold touch
  split
  · exact canon_dbgTouch h
  · exact h
theorem canon_regRead (h : Canon s) : Canon (regRead w off mask clear s).2.2 := by
  unfold regRead
  split
  · exact h
  · split
    · exact h
    · extract_lets st v s1
      have hs1 : Canon s1 := by
        unfold s1
        split
        · exact canon_clearRead h
        · exact h
      split
      · exact h
      · split
        · exact h
        · exact canon_touch hs1
/-- What holds of the read of a register, and of its answer with another value, and of no register, holds of every read. -/
theorem ctlReadAt_induction (P : Nat × Word32 × State → Prop) (off : Nat) (read : ∀ x m c, P (regRead w x m c s)) (value : ∀ r v, P r → P (r.1, v, r.2.2))
    (none : P (stNoreg, 0, s)) : P (ctlReadAt w off clear s) := by
  rw [ctlReadAt]
  by_cases hreg : off < stageBase
  · rw [if_pos hreg]
    exact read ..
  rw [if_neg hreg]
  by_cases hstage : off < 2 * stageBase
  · rw [if_pos hstage]
    extract_lets x r
    have hr : P r := read ..
    split
    · split
      · exact hr
      · exact value _ _ hr
    · exact hr
  rw [if_neg hstage]
  by_cases hbit : bitBase ≤ off ∧ off < 2 * bitBase
  · rw [if_pos hbit]
    exact value _ _ (read ..)
  · rw [if_neg hbit]
    exact none
theorem canon_ctlReadAt (h : Canon s) : Canon (ctlReadAt w off clear s).2.2 :=
  ctlReadAt_induction (fun r => Canon r.2.2) off (fun _ _ _ => canon_regRead h) (fun _ _ hr => hr) h
theorem canon_ctlRead (h : Canon s) : Canon (ctlRead w off s).2.2 := canon_ctlReadAt h
end Sys2Proof.Machine
end

section
/-! Canonical memory: writes of control space and the commands they give (02 R35 to R56). -/
namespace Sys2Proof.Machine
variable {s : State} {ix : List Nat} {k off : Nat} {r : Nat × State} {d : RegDesc} {v : Word32} {w : Writer}
theorem canon_captureBlock (h : Canon s) : Canon (captureBlock off s) := by
  unfold captureBlock
  extract_lets r mine _ s1
  have hs1 : Canon s1 := h.same rfl
  split
  · exact canon_tmrSnap hs1
  · exact hs1
theorem canon_snapOne {all : Bool} (h : Canon s) : Canon (snapOne all off s) := by
  unfold snapOne
  extract_lets s1 _
  have hs1 : Canon s1 := by
    unfold s1
    split
    · exact h
    · exact canon_captureBlock h
  exact hs1.same rfl
theorem canon_blockSnap (h : Canon s) : Canon (blockSnap off s) := canon_snapOne h
theorem canon_snapAll (h : Canon s) : Canon (snapAll s).2 := by
  unfold snapAll
  extract_lets s1 _ s2
  have hs1 : Canon s1 := by
    unfold s1
    refine canon_foldl (fun a1 x1 h1 => ?_) h
    split
    · exact h1
    · exact canon_snapOne h1
  have hs2 : Canon s2 := hs1.same rfl
  exact hs2
theorem canon_lockSet (h : Canon s) : Canon (lockSet v s).2 := by
  unfold lockSet
  split
  · exact h
  · split
    · exact h
    · exact h.same rfl
theorem canon_putWord (h : Canon s) : Canon (putWord d off v s) := by
  unfold putWord
  extract_lets s1
  have hs1 : Canon s1 := canon_setReg h
  split
  · exact hs1
  · exact canon_setAct hs1
theorem canon_applyReg (h : Canon s) : Canon (applyReg w d ix off v s) := by
  unfold applyReg
  extract_lets n s1
  have hs1 : Canon s1 := canon_setReg h
  split
  · split
    · exact canon_setReg hs1
    · exact hs1
  · exact canon_setLive (canon_setReg h)
  · exact canon_padCfgWritten (canon_setReg h)
  · exact canon_uartLine (canon_setReg h)
  · exact canon_tmrRun h
  · exact canon_syncLine (canon_setReg h)
  · exact canon_inputsChanged (canon_setReg h)
  · exact canon_tmrLine (canon_setReg h)
  · exact canon_frkApply h
  · exact canon_frkApply h
  · exact canon_frkApply h
  · exact canon_frkApply h
  · exact canon_frkApply h
  · exact canon_frkApply h
  · exact canon_frkApply h
  · exact canon_frkApply h
  · exact canon_frkApply h
  · exact canon_setKeyReg h
  · exact canon_soDlrTail h
  · exact canon_reroute (canon_putWord h)
  · exact canon_reroute (canon_putWord h)
  · exact canon_putWord h
theorem canon_applyPair {v : Nat} (h : Canon s) : Canon (applyPair w d ix off v s) := by
  unfold applyPair
  extract_lets put
  have hput (a1 : State) (ha1 : Canon a1) : Canon (put a1) := canon_setKeyReg (canon_setKeyReg ha1)
  split
  · exact canon_updTimer h
  · exact hput _ h
theorem canon_goBit {bits : Nat} {f : State → Nat × State} (hf : ∀ a, Canon a → Canon (f a).2) (hs : Canon s) : Canon (goBit bits v f s).2 := by
  unfold goBit
  split
  · exact hs
  · split
    · exact hf _ hs
    · exact hs
theorem canon_ofCore {f : Nat → Nat × State} (hf : ∀ x, Canon (f x).2) (hs : Canon s) : Canon (ofCore w f s).2 := by
  unfold ofCore
  split
  · exact hf _
  · exact hs
theorem canon_command {mcmd : Writer → Word32 → State → Nat × State} (hmcmd : ∀ x y a, Canon a → Canon (mcmd x y a).2) (hs : Canon s)
    : Canon (command mcmd w d ix off v s).2 := by
  unfold command
  extract_lets n lo hi
  split
  · exact canon_goBit (fun _ => canon_epochCommit) hs
  · exact canon_goBit (fun _ => canon_epochDiscard) hs
  · exact canon_goBit (fun _ => canon_snapAll) hs
  · exact canon_lockSet hs
  · exact canon_pwrCmd hs
  · exact canon_padRelease hs
  · exact canon_mbxCmd hs
  · split
    · exact hs
    · exact canon_uartSend hs
  · exact canon_tmrCmd hs
  · exact canon_icRaise hs
  · exact canon_icUnraise hs
  · exact canon_ofCore (fun _ => canon_icComplete hs) hs
  · exact canon_l3Cmd hs
  · exact canon_hnCmo hs
  · exact canon_hmcSecCmd hs
  · exact canon_soStart hs
  · exact canon_soQcmd hs
  · exact canon_vxCmd hs
  · exact canon_vxSweep hs
  · exact canon_vxCohCmd hs
  · exact canon_pcieCmd hs
  · exact canon_pcieInv hs
  · exact canon_pciePrgResp hs
  · exact canon_dbgAttach hs
  · exact canon_authRequest hs
  · exact canon_authSubmit hs
  · split
    · exact canon_lcCmd hs
    · exact hs
  · exact canon_haltAll hs
  · exact canon_rcmd hs
  · exact hmcmd _ _ _ hs
  · exact canon_stim hs
  · exact canon_celPotSync hs
  · exact canon_celMrCmd hs
  · exact canon_goBit (fun _ => canon_blockSnap) hs
theorem canon_finish (hs : Canon s) (hr : Canon r.2) : Canon (finish w d off v s r).2 := by
  unfold finish
  split
  · exact hs
  · split
    · exact canon_journal hr
    · exact hs
theorem canon_finishWo (hs : Canon s) (hr : Canon r.2) : Canon (finishWo w d off v s r).2 := by
  unfold finishWo
  split
  · exact canon_finish hs hr
  · split
    · exact hr
    · exact hs
theorem canon_dropHeld (h : Canon s) : Canon (dropHeld w k s) := h.same rfl
theorem canon_holdLo (h : Canon s) : Canon (holdLo w k v s) := h.same rfl
theorem canon_pairWrite {old v : Nat} (h : Canon s) : Canon (pairWrite w d ix off old v s).2 := by
  unfold pairWrite
  extract_lets bits stops code lv a r
  have ha : Canon a := canon_keepCopy (canon_keepCopy h)
  have hr : Canon r.2 := by
    unfold r
    split
    · exact canon_timeSet h
    · exact canon_applyPair ha
  split
  · exact h
  · split
    · exact canon_journal (canon_journal hr)
    · exact hr
theorem canon_halfWrite (h : Canon s) : Canon (halfWrite w d ix off v s).2 := by
  unfold halfWrite
  extract_lets lo k early s1 cur old
  have hs1 : Canon s1 := canon_dropHeld h
  split
  · split
    · exact canon_holdLo h
    · exact h
  · split
    · exact hs1
    · exact canon_pairWrite hs1
theorem canon_wordWrite {old mask : Word32} (h : Canon s) : Canon (wordWrite w d ix off old v mask s).2 := by
  unfold wordWrite
  extract_lets code
  split
  · exact h
  · exact canon_finish h (canon_applyReg (canon_keepCopy h))
theorem canon_regWrite {mcmd : Writer → Word32 → State → Nat × State} (hmcmd : ∀ x y a, Canon a → Canon (mcmd x y a).2) (hs : Canon s)
    : Canon (regWrite mcmd w off v s).2 := by
  unfold regWrite
  split
  · exact hs
  · split
    · exact canon_halfWrite hs
    · split
      · extract_lets early
        split
        · exact hs
        · exact canon_finishWo hs (canon_command hmcmd hs)
      · exact canon_wordWrite hs
theorem canon_bitWrite {mcmd : Writer → Word32 → State → Nat × State} {b : Nat} (hmcmd : ∀ x y a, Canon a → Canon (mcmd x y a).2) (hs : Canon s)
    : Canon (bitWrite mcmd w off b v s).2 := by
  unfold bitWrite
  split
  · exact hs
  · extract_lets early m old new lo cur high v64
    split
    · exact hs
    · split
      · split
        · exact hs
        · split
          · exact hs
          · split
            · exact canon_finishWo hs (canon_command hmcmd hs)
            · exact canon_halfWrite hs
      · split
        · exact hs
        · split
          · exact canon_wordWrite hs
          · exact canon_pairWrite hs
theorem canon_staged (h : Canon s) : Canon (staged s) := by
  unfold staged
  extract_lets put
  have hput (m1 : SMap (Option Word32)) (a1 : State) (ha1 : Canon a1) : Canon (put m1 a1) := by
    unfold put
    refine canon_foldl (fun a2 x1 h1 => ?_) ha1
    split
    · exact canon_setReg h1
    · exact h1
  exact hput _ _ (hput _ _ h)
theorem canon_stageWrite (h : Canon s) : Canon (stageWrite w off v s).2 := by
  unfold stageWrite
  split
  · exact h
  · extract_lets base new code _ s1
    have hs1 : Canon s1 := h.same rfl
    split
    · exact h
    · exact canon_journal hs1
theorem canon_ctlWriteWith {mcmd : Writer → Word32 → State → Nat × State} (hmcmd : ∀ w v a, Canon a → Canon (mcmd w v a).2) (h : Canon s)
    : Canon (ctlWriteWith mcmd w off v s).2 :=
  ctlWriteWith_induction (mc := mcmd) v s w off (fun r => Canon r.2) (canon_touch (canon_regWrite hmcmd h)) (fun _ => canon_stageWrite h) (fun _ _ => canon_touch
      (canon_bitWrite hmcmd h)) h
theorem canon_mcmd (h : Canon s) : Canon (mcmd w v s).2 := by
  unfold mcmd
  extract_lets op pa n own p off r r1
  have hr : Canon r.2.2 := canon_ctlReadAt h
  have hr1 : Canon r1.2 := canon_ctlWriteWith (fun _ _ _ h1 => h1) h
  split
  · exact h
  · split
    · exact canon_dbgDone h
    · split
      · exact h
      · split
        · exact canon_dbgMem h
        · split
          · exact canon_dbgDone h
          · split
            · exact canon_dbgDone (canon_setReg hr)
            · exact canon_dbgDone hr1
theorem canon_ctlWrite (h : Canon s) : Canon (ctlWrite w off v s).2 := canon_ctlWriteWith (fun _ _ _ => canon_mcmd) h
end Sys2Proof.Machine
end

section
/-! Canonical memory: the commands of control space, block by block. -/
namespace Sys2Proof.Machine
variable {s : State} {off : Nat} {v : Word32} {w : Writer}
theorem canon_sdc (h : Canon s) : Canon (sdc w off v s) := by
  unfold sdc
  split
  · exact h
  · extract_lets r
    have hr : Canon r.2 := canon_ctlWrite h
    exact canon_answerSt hr
theorem canon_sdcRd (h : Canon s) : Canon (sdcRd w off s) := by
  unfold sdcRd
  split
  · exact h
  · extract_lets r
    have hr : Canon r.2.2 := canon_ctlRead h
    exact canon_answer hr
theorem canon_dropHigh (h : Canon s) : Canon (dropHigh w off s) := by
  unfold dropHigh
  split
  · split
    · exact canon_dropHeld h
    · exact h
  · exact h
theorem canon_answeredAt {st : Nat} (h : Canon s) : Canon (answeredAt w off st s) := canon_answerSt (canon_dropHigh h)
theorem canonOut_execLedgerFullTimeout {off : BitVec 36} (h : Canon s) : CanonOut (execLedgerFullTimeout w off v s) := by
  unfold execLedgerFullTimeout
  split
  · exact canonOut_next h
  · split
    · exact canonOut_next (canon_sdc h)
    · exact canonOut_next (canon_answeredAt h)
theorem canon_paritySweep {bad : List Nat} (h : Canon s) : Canon (paritySweep bad s) := by
  unfold paritySweep
  refine canon_foldl (fun a1 x1 h1 => ?_) h
  split
  · extract_lets b _
    have hb : Canon b := canon_logFault h1
    exact hb.same rfl
  · exact h1
theorem canon_restoreReg (h : Canon s) : Canon (restoreReg off v s) := by
  unfold restoreReg
  split
  · split
    · exact canon_updTimer h
    · split
      · exact canon_foldl (fun _ _ => canon_setKeyReg) h
      · exact canon_putWord h
  · exact h
theorem canon_parityFence (h : Canon s) : Canon (parityFence off s) := by
  unfold parityFence
  extract_lets _ s1
  have hs1 : Canon s1 := h.same rfl
  split
  · split
    · exact hs1
    · exact canon_replaceUnit (canon_fenceUnit hs1)
  · exact hs1
theorem canon_parityRestore {ok : Bool} (h : Canon s) : Canon (parityRestore off ok s) := by
  unfold parityRestore
  split
  · exact h
  · split
    · extract_lets v _
      exact canon_journal (canon_restoreReg (h.same rfl))
    · exact canon_parityFence h
theorem canonOut_execPortOutOfService {w : Option Writer} {p : Fin 8} (h : Canon s) : CanonOut (execPortOutOfService w p s) := by
  unfold execPortOutOfService
  split
  · exact canonOut_next (canon_sdc h)
  · exact canonOut_next (canon_outOfService h)
end Sys2Proof.Machine
end

section
/-! Canonical memory: the management mailbox (24 R584 to R588). -/
namespace Sys2Proof.Machine
variable {s : State}
theorem canon_mbxServe {cmd : Nat} {len : Option Nat} {f : List Byte → State → Nat × List Byte × State} (hf : ∀ x a, Canon a → Canon (f x a).2.2) (hs : Canon s)
    : Canon (mbxServe cmd len f s) := by
  unfold mbxServe
  split
  · split
    · exact hs
    · split
      · exact canon_mbxAnswer hs
      · extract_lets r
        have hr : Canon r.2.2 := hf _ _ hs
        exact canon_mbxAnswer hr
  · exact hs
theorem canon_okBytes {bs : List Byte} (h : Canon s) : Canon (okBytes bs s).2.2 := h
theorem canonOut_execGetState (h : Canon s) : CanonOut (execGetState s) := by
  unfold execGetState
  refine canonOut_next (canon_mbxServe (fun a a1 h1 => ?_) h)
  extract_lets res
  exact canon_okBytes h1
theorem canonOut_execPowerOn (h : Canon s) : CanonOut (execPowerOn s) := by
  unfold execPowerOn
  refine canonOut_next (canon_mbxServe (fun a a1 h1 => ?_) h)
  extract_lets r
  have hr : Canon r.2 := canon_powerOn h1
  exact hr
theorem canonOut_execMailboxDrain (h : Canon s) : CanonOut (execMailboxDrain s) := by
  unfold execMailboxDrain
  refine canonOut_next (canon_mbxServe (fun a a1 h1 => ?_) h)
  split
  · extract_lets r
    have hr : Canon r.2 := canon_placeRequest h1
    exact hr
  · exact h1
theorem canonOut_execReadLog (h : Canon s) : CanonOut (execReadLog s) := by
  unfold execReadLog
  refine canonOut_next (canon_mbxServe (fun a a1 h1 => ?_) h)
  extract_lets n
  split
  · exact canon_okBytes h1
  · exact h1
theorem canonOut_execReadReg (h : Canon s) : CanonOut (execReadReg s) := by
  unfold execReadReg
  refine canonOut_next (canon_mbxServe (fun a a1 h1 => ?_) h)
  extract_lets r
  have hr : Canon r.2.2 := canon_ctlRead h1
  exact hr
theorem canonOut_execSetPwrLimit (h : Canon s) : CanonOut (execSetPwrLimit s) := by
  unfold execSetPwrLimit
  refine canonOut_next (canon_mbxServe (fun a a1 h1 => ?_) h)
  extract_lets r
  have hr : Canon r.2 := canon_ctlWrite h1
  exact hr
theorem canon_dbgAccess {w : Writer} {o : Nat} {wr : Bool} {v : Word32} (h : Canon s) : Canon (dbgAccess w o wr v s).2.2 := by
  unfold dbgAccess
  split
  · exact h
  · split
    · extract_lets r
      have hr : Canon r.2 := canon_ctlWrite h
      exact hr
    · exact canon_ctlRead h
theorem canonOut_execDebug (h : Canon s) : CanonOut (execDebug s) := by
  unfold execDebug
  refine canonOut_next (canon_mbxServe (fun a a1 h1 => ?_) h)
  extract_lets r
  have hr : Canon r.2.2 := canon_dbgAccess h1
  exact hr
theorem canonOut_execHostMsg (h : Canon s) : CanonOut (execHostMsg s) := by
  unfold execHostMsg
  refine canonOut_next (canon_mbxServe (fun a a1 h1 => ?_) h)
  split
  · exact h1
  · split
    · exact h1
    · exact canon_setLine (canon_setPads h1)
theorem canonOut_execDbgacc {d : Word64} (h : Canon s) : CanonOut (execDbgacc d s) := by
  unfold execDbgacc
  split
  · extract_lets s1 r
    have hs1 : Canon s1 := canon_setPads h
    have hr : Canon r.2.2 := by
      unfold r
      split
      · exact hs1
      · exact canon_dbgAccess hs1
    exact canonOut_next (canon_setPads hr)
  · exact canonOut_next h
end Sys2Proof.Machine
end

section
/-! Canonical memory: the checks of a core's access and the bytes it brings or writes (04 R94 to R100; 07 R179). -/
namespace Sys2Proof.Machine
variable {s : State} {a : Access} {ld nt st : Bool} {lc n : Nat} {w : Want} {va : Word64}
theorem canon_accessPart {part : Bool} (h : Canon s) : Canon (accessPart lc w va n ld st part s).2 := by
  unfold accessPart
  extract_lets x
  have hx : Canon x.2 := canon_translate h
  split
  · exact hx
  · split
    · exact hx
    · split
      · exact hx
      · split <;> exact hx
theorem canon_access (h : Canon s) : Canon (access lc w va n ld st s).2 := canon_accessPart h
theorem canon_coreMeter (h : Canon s) : Canon (coreMeter lc a s) := by
  unfold coreMeter
  split
  · exact canon_coreInject h
  · exact h
theorem canon_loadNow (h : Canon s) : Canon (loadNow lc a n nt s).2 := by
  unfold loadNow
  extract_lets s0 s1 r
  have hs0 : Canon s0 := canon_coreMeter h
  have hs1 : Canon s1 := canon_coherentRead (canon_noteFenced hs0)
  have hr : Canon r.2.2 := canon_agentRead hs0
  split
  · split
    · exact hs1
    · exact hr
  · exact hs0
theorem canon_storeNow {bs : List Byte} (h : Canon s) : Canon (storeNow lc a bs nt s) := by
  unfold storeNow
  split
  · exact canon_pulse (canon_logFault h)
  · extract_lets s0
    have hs0 : Canon s0 := canon_coreMeter h
    split
    · split
      · split
        · exact canon_pcieStore hs0
        · exact canon_cohSend hs0
      · split
        · exact canon_noteFenced hs0
        · split
          · exact canon_request hs0
          · split
            · exact canon_coherentStore hs0
            · exact canon_agentWrite hs0
    · exact hs0
theorem canon_amoNow {op : AmoOp} {wide far : Bool} {gs gt : Word64} (h : Canon s) : Canon (amoNow lc a op wide far gs gt s).2 := by
  unfold amoNow
  extract_lets s0 s1 old old1
  have hs0 : Canon s0 := canon_coreMeter h
  have hs1 : Canon s1 := canon_coherentOwn hs0
  split
  · split <;> exact canon_viewWrite hs1
  · exact canon_agentAmo hs0
theorem canon_setAds {l : List AdUpdate} (h : Canon s) : Canon (setAds lc l s).2 := by
  induction l generalizing s with
  | nil => exact h
  | cons u l ih =>
    unfold setAds
    split
    next s1 e1 => exact ih (canon_updCore (canon_adSwap h e1))
    · exact canon_updCore h
end Sys2Proof.Machine
end

section
/-! Canonical memory: exception entry (07 R176 to R178). -/
namespace Sys2Proof.Machine
variable {s : State} {lc : Nat}
theorem canon_pmEvents1 {evs : List PmEvent} (h : Canon s) : Canon (pmEvents1 lc evs s) := canon_foldl (fun _ _ => canon_pmCount) h
theorem canon_vectorStop (h : Canon s) : Canon (vectorStop lc s) := canon_logFault (canon_updCore h)
theorem canon_stepEnds (h : Canon s) : Canon (stepEnds lc s) := by
  unfold stepEnds
  extract_lets c
  split
  · exact canon_haltCore h
  · exact h
theorem canon_raiseExc {e : Exc} {insn : Word32} (h : Canon s) : Canon (raiseExc lc e insn s) := by
  unfold raiseExc
  extract_lets c epc s1 word
  have hs1 : Canon s1 := by
    unfold s1
    split
    · exact canon_pmEvents1 (canon_rollback h)
    · exact canon_updCore h
  split
  · exact canon_vectorStop hs1
  · split
    · exact canon_haltCore (canon_updCore hs1)
    · exact canon_stepEnds (canon_pmEvents1 (canon_updCore hs1))
theorem canon_raiseIstack {source : Nat} (h : Canon s) : Canon (raiseIstack lc source s) := canon_stepEnds (canon_pmEvents1 (canon_updCore h))
theorem canon_unitEnd (h : Canon s) : Canon (unitEnd lc s) := by
  unfold unitEnd
  extract_lets c r s1 e
  have hs1 : Canon s1 := canon_setCore h
  split
  · exact h
  · split
    · exact canon_haltCore hs1
    · split
      · exact canon_pmEvents1 (canon_updCore hs1)
      · exact hs1
end Sys2Proof.Machine
end

section
/-! Canonical memory: shadow groups. The commit performs what the group holds (04 R103 to R115). -/
namespace Sys2Proof.Machine
variable {s : State} {a : Access} {lc : LC} {kept : List Held} {n : Nat}
theorem canon_loadBytes {lc : Nat} {nt : Bool} (h : Canon s) : Canon (loadBytes lc a n nt s).2 := by
  unfold loadBytes
  extract_lets x
  have hx : Canon x.2 := canon_loadNow h
  exact hx
theorem canon_deferredRead (h : Canon s) : Canon (deferredRead lc a n s).2 := by
  unfold deferredRead
  split
  · split
    · split
      · extract_lets r
        have hr : Canon r.2.2 := canon_ctlRead (canon_coreMeter h)
        exact hr
      · extract_lets d
        have hd : Canon d.2 := canon_drawBytes (canon_coreMeter h)
        exact hd
    · split
      · split
        · extract_lets r
          have hr : Canon r.2 := canon_pcieLoad (canon_coreMeter h)
          exact hr
        · exact h
      · extract_lets r
        have hr : Canon r.2 := canon_loadNow h
        exact hr
  · exact h
theorem canon_readElems {w : Nat} {l : List LineRead} {v : Vec} (h : Canon s) : Canon (readElems lc w kept l v s).2.2 := by
  induction l generalizing v s with
  | nil => exact h
  | cons e l ih =>
    unfold readElems
    extract_lets x
    have hx : Canon x.2 := canon_deferredRead h
    split
    · exact ih hx
    · exact hx
theorem canon_peerStatus {l : List Nat} (h : Canon s) : Canon (peerStatus l s).2 := by
  unfold peerStatus
  extract_lets d
  have hd : Canon d.2 := canon_drawWord h
  exact hd
theorem canon_deqNow {lc slot q : Nat} {isTry : Bool} (h : Canon s) : Canon (deqNow lc slot q isTry s).2.2 := by
  unfold deqNow
  split
  · exact canon_consume h
  · extract_lets r v m
    have hr : Canon r.2 := canon_peerStatus h
    have hv : Canon v.2 := canon_drawBytes hr
    have hm : Canon m.2 := canon_drawWord hv
    split
    · exact hm
    · exact hr
theorem canon_heldOne {h : Held} (h1 : Canon s) : Canon (heldOne lc kept h s).2.2 := by
  unfold heldOne
  split
  · extract_lets x
    have hx : Canon x.2 := canon_deferredRead h1
    exact hx
  · extract_lets x
    have hx : Canon x.2.2 := canon_readElems h1
    exact hx
  · extract_lets x
    have hx : Canon x.2 := canon_amoNow h1
    exact hx
  · extract_lets x s1
    have hx : Canon x.2.2 := canon_deqNow h1
    have hs1 : Canon s1 := canon_updCore hx
    split
    · exact hs1
    · exact hx
  · exact h1
  · exact h1
  · exact h1
theorem canon_releaseOne {a : Held} (h : Canon s) : Canon (releaseOne lc s a) := by
  unfold releaseOne
  split
  · exact canon_storeNow h
  · exact canon_releaseLetter h
  · exact h
theorem canon_releaseAll {hs : List Held} (h : Canon s) : Canon (releaseAll lc hs s) := canon_foldl (fun _ _ => canon_releaseOne) h
theorem canon_ittWrite {lc : Nat} {pc target : Word64} (h : Canon s) : Canon (ittWrite lc pc target s) := by
  unfold ittWrite
  extract_lets c e d x
  have hd : Canon d.2 := canon_drawLfsr h
  have hx : Canon x.2 := by
    unfold x
    split
    · exact h
    · split
      · exact h
      · exact hd
  exact canon_setCore hx
theorem canon_finishCommit {lc : Nat} {g : Group} (h : Canon s) : Canon (finishCommit lc g s) := by
  unfold finishCommit
  extract_lets s1 s2
  have hs1 : Canon s1 := canon_updCore h
  have hs2 : Canon s2 := canon_foldl (fun _ _ => canon_ittWrite) hs1
  exact canon_unitEnd (canon_pmEvents1 hs2)
theorem canon_heldPass {hs : List Held} (h : Canon s) : Canon (heldPass lc kept hs s).st := by
  induction hs generalizing kept s with
  | nil => exact h
  | cons x hs ih =>
    unfold heldPass
    split
    · exact ih h
    · extract_lets out k y
      have hout : Canon (if out then releaseAll lc kept s else s) := by
        split
        · exact canon_releaseAll h
        · exact h
      have hy : Canon y.2.2 := canon_heldOne hout
      split
      · exact ih hy
      · exact hy
theorem canon_performHeld {hs : List Held} (h : Canon s) : Canon (performHeld lc hs s).2 := by
  unfold performHeld
  extract_lets x s1 s2
  have hs1 : Canon s1 := canon_updCore (canon_heldPass h)
  have hs2 : Canon s2 := canon_releaseAll hs1
  split
  · exact canon_updCore hs1
  · split
    · exact hs2
    · exact canon_finishCommit hs2
theorem canon_commitGroup (h : Canon s) : Canon (commitGroup lc s).2 := by
  unfold commitGroup
  split
  · exact h
  · extract_lets x
    have hx : Canon x.2 := canon_setAds h
    split
    · exact canon_performHeld hx
    · exact canon_rollback hx
theorem canon_finishMmio {v : Nat} (h : Canon s) : Canon (finishMmio lc v s) := by
  unfold finishMmio
  extract_lets c
  split
  · extract_lets x s1
    have hs1 : Canon s1 := canon_setCore h
    exact canon_performHeld hs1
  · exact h
theorem canon_finishLost (h : Canon s) : Canon (finishLost s) := by
  unfold finishLost
  split
  · refine canon_foldl (fun a1 x1 h1 => ?_) h
    split
    · exact canon_finishMmio h1
    · exact h1
  · exact h
end Sys2Proof.Machine
end

section
/-! Canonical memory: one instruction, from its fetch to its end (03 R61; 04 R103 to R108). -/
namespace Sys2Proof.Machine
variable {s : State} {ser : Bool} {evs : List PmEvent} {lc : Nat} {insn : Word32}
theorem canon_ready {lc : LC} (h : Canon s) : Canon (ready lc ser s).2 := by
  unfold ready
  split
  · exact h
  · split
    · extract_lets s1
      have hs1 : Canon s1 := by
        unfold s1
        split
        · exact h
        · exact canon_updCore h
      exact hs1
    · split
      · extract_lets x
        have hx : Canon x.2 := canon_commitGroup h
        exact hx
      · exact h
theorem canon_fetch (h : Canon s) : Canon (fetch lc s).2 := by
  unfold fetch
  extract_lets c x
  have hx : Canon x.2 := canon_translate h
  split
  · exact h
  · split
    · exact hx
    · split
      · exact hx
      · split
        · exact hx
        · exact canon_coherentRead (canon_coreMeter hx)
theorem canon_retire {pc : Word64} (h : Canon s) : Canon (retire lc pc evs s) := by
  unfold retire
  extract_lets c c1 _
  split
  · exact canon_setCore h
  · exact canon_unitEnd (canon_pmEvents1 (canon_setCore h))
theorem canon_retireMicro (h : Canon s) : Canon (retireMicro lc evs s) := by
  unfold retireMicro
  extract_lets s1
  have hs1 : Canon s1 := canon_pmEvents1 h
  split
  · exact canon_unitEnd (canon_updCore hs1)
  · exact hs1
theorem canon_oweFetch {ads : List AdUpdate} {page : Nat} (h : Canon s) : Canon (oweFetch lc ads page s).2 := by
  unfold oweFetch
  split
  · exact canon_updCore h
  · exact canon_setAds h
theorem canon_noteIssue (h : Canon s) : Canon (noteIssue lc insn s) := by
  unfold noteIssue
  extract_lets c
  split
  · exact canon_updCore h
  · exact h
theorem canon_runInsn {lc : LC} {body : State → Eff} (hbody : ∀ a, Canon a → CanonEff (body a)) (h : Canon s) : Canon (runInsn lc ser insn body s) := by
  unfold runInsn
  extract_lets r f c
  have hr : Canon r.2 := canon_ready h
  split
  · exact hr
  · have hf : Canon f.2 := canon_fetch (canon_noteIssue hr)
    split
    · exact canon_raiseExc hf
    next ads page _ =>
      extract_lets owed
      have howed (u : State) (k : State → State) (hu : Canon u) (hk : ∀ a, Canon a → Canon (k a)) : Canon (owed u k) := by
        unfold owed
        extract_lets y
        split
        · exact hk _ (canon_oweFetch hu)
        · exact canon_setAds hf
      have hb : CanonEff (body f.2) := hbody _ hf
      split
      next e => exact howed _ _ (canon_of_ok (e ▸ hb)) fun _ ha => canon_retire ha
      next e => exact howed _ _ (canon_of_micro (e ▸ hb)) fun _ ha => canon_retireMicro ha
      next e => exact howed _ _ (canon_of_istack (e ▸ hb)) fun _ ha => canon_raiseIstack (canon_pmEvents1 ha)
      next e => exact canon_raiseExc (canon_of_exc (e ▸ hb))
      next s2 e =>
        have h2 : Canon s2 := canon_of_hold (e ▸ hb)
        split
        · exact canon_setAds h2
        · exact h2
theorem canonEff_illegal (h : Canon s) : CanonEff (illegal s) := canonEff_exc h
theorem canonEff_doneRegs {lc : LC} {f : Regs → Regs} (h : Canon s) : CanonEff (doneRegs lc f s) := canonEff_ok (canon_updRegs h)
theorem canon_endWait {rd : GReg} {res : Nat} (h : Canon s) : Canon (endWait lc rd res s) := by
  unfold endWait
  extract_lets c0 s1
  have hs1 : Canon s1 := canon_updCore h
  exact canon_unitEnd (canon_pmEvents1 (canon_setCoreIsland hs1))
theorem canon_wakeDevice (h : Canon s) : Canon (wakeDevice s) := by
  unfold wakeDevice
  split
  · exact h
  · exact canon_wake h
theorem canon_interruptEntry {lc : LC} (h : Canon s) : Canon (interruptEntry lc s) := by
  unfold interruptEntry
  extract_lets c0 s0 c s2 s1 c1 s2b
  have hs0 : Canon s0 := by
    unfold s0
    split
    · split
      · exact canon_commitGroup h
      · exact h
    · exact h
  have hs2 : Canon s2 := canon_wakeDevice hs0
  have hs1 : Canon s1 := by
    unfold s1
    split
    · split
      · exact canon_endWait hs2
      · exact hs2
    · exact hs0
  have hs2b : Canon s2b := canon_updCore hs1
  split
  · exact h
  · split
    · exact hs0
    · split
      · exact hs1
      · exact canon_stepEnds (canon_pmEvents1 hs2b)
theorem canonOut_execShadowGroupCommit {lc : LC} (h : Canon s) : CanonOut (execShadowGroupCommit lc s) := by
  unfold execShadowGroupCommit
  refine canonOut_next ?_
  split
  · split
    · exact canon_commitGroup h
    · exact h
  · exact h
end Sys2Proof.Machine
end

section
/-! Canonical memory: the integer and branch instructions (03 R71 to R92). -/
namespace Sys2Proof.Machine
variable {s : State} {imm : BitVec 16} {off : BitVec 26} {cond : BitVec 4} {q : BitVec 5} {f x : Bool} {ra rb rd : GReg} {op : IntOp} {lc : LC} {fn major : Nat}
theorem canonOut_intReg {unary : Bool} (h : Canon s) : CanonOut (intReg op major fn unary lc f rd ra rb s) := by
  unfold intReg
  refine canonOut_next (canon_runInsn (fun a h1 => ?_) h)
  split
  · exact canonEff_illegal h1
  · extract_lets r x
    exact canonEff_doneRegs h1
theorem canonOut_intImm {imm : BitVec 14} (h : Canon s) : CanonOut (intImm op major lc f x rd ra imm s) := by
  unfold intImm
  refine canonOut_next (canon_runInsn (fun a h1 => ?_) h)
  extract_lets r y
  exact canonEff_doneRegs h1
theorem canonOut_shiftImm {sel : Nat} {hi n : BitVec 6} (h : Canon s) : CanonOut (shiftImm op sel lc f x rd ra hi n s) := by
  unfold shiftImm
  refine canonOut_next (canon_runInsn (fun a h1 => ?_) h)
  split
  · exact canonEff_illegal h1
  · extract_lets r y
    exact canonEff_doneRegs h1
theorem canonOut_execSetq (h : Canon s) : CanonOut (execSetq lc rd q imm s) := by
  unfold execSetq
  refine canonOut_next (canon_runInsn (fun a h1 => ?_) h)
  split
  · exact canonEff_illegal h1
  · exact canonEff_doneRegs h1
theorem canonOut_execPutq (h : Canon s) : CanonOut (execPutq lc rd q imm s) := by
  unfold execPutq
  refine canonOut_next (canon_runInsn (fun a h1 => ?_) h)
  split
  · exact canonEff_illegal h1
  · exact canonEff_doneRegs h1
theorem canonOut_execSel {hi : BitVec 6} (h : Canon s) : CanonOut (execSel lc f rd ra rb hi cond s) := by
  unfold execSel
  refine canonOut_next (canon_runInsn (fun a h1 => ?_) h)
  split
  · split
    · exact canonEff_illegal h1
    · exact canonEff_doneRegs h1
  · exact canonEff_illegal h1
theorem canon_learnItt {pc target : Word64} (h : Canon s) : Canon (learnItt lc pc target s) := by
  unfold learnItt
  extract_lets c
  split
  · exact h
  · split
    · exact canon_setCore h
    · exact canon_ittWrite h
theorem canonOut_execBCond {hint : Bool} {rsv : BitVec 4} {off : BitVec 17} (h : Canon s) : CanonOut (execBCond lc cond hint rsv off s) := by
  unfold execBCond
  refine canonOut_next (canon_runInsn (fun a h1 => ?_) h)
  extract_lets c
  split
  · split
    · exact canonEff_illegal h1
    · exact canonEff_ok (canon_updCore h1)
  · exact canonEff_illegal h1
theorem canonOut_execB (h : Canon s) : CanonOut (execB lc off s) := by
  unfold execB
  refine canonOut_next (canon_runInsn (fun a h1 => ?_) h)
  extract_lets c
  exact canonEff_ok (canon_updCore h1)
theorem canonOut_execBl (h : Canon s) : CanonOut (execBl lc off s) := by
  unfold execBl
  refine canonOut_next (canon_runInsn (fun a h1 => ?_) h)
  extract_lets c
  exact canonEff_ok (canon_updCore h1)
theorem canonOut_indirect {body : Word64 → State → Eff} (hbody : ∀ x a, Canon a → CanonEff (body x a)) (hs : Canon s)
    : CanonOut (indirect lc fn f rd ra rb body s) := by
  unfold indirect
  refine canonOut_next (canon_runInsn (fun a h => ?_) hs)
  extract_lets t
  split
  · exact canonEff_illegal h
  · split
    · exact canonEff_exc h
    · exact hbody _ _ h
theorem canonOut_execBr (h : Canon s) : CanonOut (execBr lc f rd ra rb s) := by
  unfold execBr
  refine canonOut_indirect (fun a a1 h1 => ?_) h
  extract_lets c
  exact canonEff_ok (canon_learnItt (canon_updCore h1))
theorem canonOut_execBlr (h : Canon s) : CanonOut (execBlr lc f rd ra rb s) := by
  unfold execBlr
  refine canonOut_indirect (fun a a1 h1 => ?_) h
  extract_lets c a1b
  have ha1b : Canon a1b := canon_updCore h1
  exact canonEff_ok (canon_learnItt ha1b)
theorem canonOut_execRet (h : Canon s) : CanonOut (execRet lc f rd ra rb s) := by
  unfold execRet
  refine canonOut_indirect (fun a a1 h1 => ?_) h
  extract_lets c y x a1b p
  have ha1b : Canon a1b := canon_setCore h1
  refine canonEff_ok ?_
  split
  · exact ha1b
  · exact canon_learnItt ha1b
theorem canonOut_execReservedMajorOpcode {w : Word32} (h : Canon s) : CanonOut (execReservedMajorOpcode lc w s) := by
  unfold execReservedMajorOpcode
  refine canonOut_next ?_
  split
  · refine canon_runInsn (fun a h1 => ?_) h
    extract_lets off
    exact canonEff_exc h1
  · exact h
end Sys2Proof.Machine
end

section
/-! Canonical memory: loads, stores, atomics and fences (04). -/
namespace Sys2Proof.Machine
variable {s : State} {x12 : BitVec 12} {off : BitVec 14} {mo : BitVec 2} {sel : BitVec 4} {low : BitVec 5} {signed : Bool} {gi rb rd rt rv : GReg} {lc : LC}
  {kind major n : Nat} {va : Word64}
theorem canonEff_loadAt (h : Canon s) : CanonEff (loadAt lc va n signed mo rt s) := by
  unfold loadAt
  split
  · exact canonEff_exc h
  · extract_lets _ x c d
    have hx : Canon x.2 := canon_access h
    split
    · exact canonEff_exc hx
    · extract_lets evs c2 v c2b
      have hv : Canon v.2 := canon_loadBytes hx
      split
      · exact canonEff_ok (canon_setCore hx)
      · exact canonEff_ok (canon_setCore hv)
theorem canonOut_loadM (h : Canon s) : CanonOut (loadM major n signed lc rt rb mo off s) := by
  unfold loadM
  refine canonOut_next (canon_runInsn (fun a h1 => ?_) h)
  split
  · exact canonEff_illegal h1
  · exact canonEff_loadAt h1
theorem canon_giveOrDo {hs : List Held} {ads : List AdUpdate} {pages : List Nat} (h : Canon s) : Canon (giveOrDo lc hs ads pages s).2 := by
  unfold giveOrDo
  split
  · exact canon_updCore h
  · extract_lets x
    have hx : Canon x.2 := canon_setAds h
    split
    · exact canon_releaseAll hx
    · exact hx
theorem canonEff_doneIf {r : Bool × State} {pc : Word64} {evs : List PmEvent} (h : Canon r.2) : CanonEff (doneIf r pc evs) := by
  unfold doneIf
  split
  · exact canonEff_ok h
  · exact canonEff_hold h
theorem canonEff_storeAt {v : Word64} (h : Canon s) : CanonEff (storeAt lc va n mo v s) := by
  unfold storeAt
  split
  · exact canonEff_exc h
  · extract_lets x
    have hx : Canon x.2 := canon_access h
    split
    · exact canonEff_exc hx
    · exact canonEff_doneIf (canon_giveOrDo hx)
theorem canonOut_storeM (h : Canon s) : CanonOut (storeM major n lc rt rb mo off s) := by
  unfold storeM
  refine canonOut_next (canon_runInsn (fun a h1 => ?_) h)
  split
  · exact canonEff_illegal h1
  · exact canonEff_storeAt h1
theorem canonOut_execLoadIndexed (h : Canon s) : CanonOut (execLoadIndexed lc rt rb mo gi sel low s) := by
  unfold execLoadIndexed
  refine canonOut_next (canon_runInsn (fun a h1 => ?_) h)
  split
  · split
    · exact canonEff_illegal h1
    · exact canonEff_loadAt h1
  · exact canonEff_illegal h1
theorem canonOut_execStoreIndexed (h : Canon s) : CanonOut (execStoreIndexed lc rt rb mo gi sel low s) := by
  unfold execStoreIndexed
  refine canonOut_next (canon_runInsn (fun a h1 => ?_) h)
  split
  · split
    · exact canonEff_illegal h1
    · exact canonEff_storeAt h1
  · exact canonEff_illegal h1
theorem canonOut_amoRow {op : AmoOp} {wide far : Bool} {gs : GReg} {low : BitVec 3} (h : Canon s) : CanonOut (amoRow op lc rt rb mo wide far gs low s) := by
  unfold amoRow
  refine canonOut_next (canon_runInsn (fun a h1 => ?_) h)
  extract_lets r va n x c d
  have hx : Canon x.2 := canon_access h1
  split
  · exact canonEff_illegal h1
  · split
    · exact canonEff_exc h1
    · split
      · exact canonEff_exc hx
      · extract_lets c2
        exact canonEff_ok (canon_setCore hx)
theorem canon_prefetchLine {line : Nat} {tc : BitVec 2} (h : Canon s) : Canon (prefetchLine lc kind line tc s) := by
  unfold prefetchLine
  split
  · exact canon_coherentRead h
  · exact canon_coherentRead h
  · split
    · exact canon_coherentOwn h
    · exact h
  · exact canon_placeL3 h
theorem canon_prefetch (h : Canon s) : Canon (prefetch lc kind va s) := by
  unfold prefetch
  extract_lets x
  have hx : Canon x.2 := canon_translate h
  split
  · exact h
  · split
    · exact h
    · exact canon_prefetchLine (canon_coreMeter hx)
theorem canon_prefetchNew (h : Canon s) : Canon (prefetchNew lc va s) := by
  unfold prefetchNew
  split
  · split
    · split
      · exact h
      · exact canon_prefetch h
    · split
      · exact h
      · exact canon_prefetch h
  · exact h
theorem canonOut_execPrfm {kind : BitVec 5} (h : Canon s) : CanonOut (execPrfm lc kind rb mo off s) := by
  unfold execPrfm
  refine canonOut_next (canon_runInsn (fun a h1 => ?_) h)
  split
  · exact canonEff_illegal h1
  · exact canonEff_ok (canon_prefetch h1)
theorem canonOut_execFence (h : Canon s) : CanonOut (execFence lc rd rv x12 s) := by
  unfold execFence
  refine canonOut_next (canon_runInsn (fun a h1 => ?_) h)
  split
  · exact canonEff_illegal h1
  · exact canonEff_doneRegs h1
theorem canonOut_execIfence (h : Canon s) : CanonOut (execIfence lc rd rv x12 s) := by
  unfold execIfence
  refine canonOut_next (canon_runInsn (fun a h1 => ?_) h)
  split
  · exact canonEff_illegal h1
  · exact canonEff_doneRegs h1
theorem canonOut_execSpecbar (h : Canon s) : CanonOut (execSpecbar lc rd rv x12 s) := by
  unfold execSpecbar
  refine canonOut_next (canon_runInsn (fun a h1 => ?_) h)
  split
  · exact canonEff_illegal h1
  · exact canonEff_doneRegs h1
end Sys2Proof.Machine
end

section
/-! Canonical memory: the vector instructions (05). -/
namespace Sys2Proof.Machine
variable {s : State} {ew : BitVec 2} {bad nt scaled unary z : Bool} {rb : GReg} {k : KReg} {lc : LC} {n vfn w : Nat} {va vb vd vt : VReg} {v : Vec}
theorem canonOut_vecInsn {op : Nat} {body : State → Eff} (hbody : ∀ a, Canon a → CanonEff (body a)) (hs : Canon s)
    : CanonOut (vecInsn op vfn lc vd va vb k z ew bad body s) := by
  unfold vecInsn
  refine canonOut_next (canon_runInsn (fun a h => ?_) hs)
  split
  · exact canonEff_exc h
  · split
    · exact canonEff_illegal h
    · exact hbody _ h
theorem canonEff_vecRegs {f : Regs → Regs} (h : Canon s) : CanonEff (vecRegs lc f s) := canonEff_ok (canon_updRegs h)
theorem canonEff_vecTo {f : Regs → Vec} (h : Canon s) : CanonEff (vecTo lc vd f s) := canonEff_vecRegs h
theorem canonEff_fpEnd {fl : FpFlags} {lanes : Nat} {write : Regs → Regs} (h : Canon s) : CanonEff (fpEnd lc fl lanes write n s) := by
  unfold fpEnd
  extract_lets c _
  split
  · exact canonEff_exc h
  · exact canonEff_ok (canon_updRegs h)
theorem canonEff_fpLanes {o : FpOut} {write : Regs → Regs} (h : Canon s) : CanonEff (fpLanes lc o write n s) := canonEff_fpEnd h
theorem canonOut_vecInt {op : VIntOp} (h : Canon s) : CanonOut (vecInt op vfn unary lc vd va vb k z ew s) := canonOut_vecInsn (fun _ => canonEff_vecTo) h
theorem canonOut_vecFp2 {op : FOp2} (h : Canon s) : CanonOut (vecFp2 op vfn unary lc vd va vb k z ew s) := by
  unfold vecFp2
  refine canonOut_vecInsn (fun a h1 => ?_) h
  extract_lets r w o
  exact canonEff_fpLanes h1
theorem canonOut_vecFp3 {op : FOp3} (h : Canon s) : CanonOut (vecFp3 op vfn lc vd va vb k z ew s) := by
  unfold vecFp3
  refine canonOut_vecInsn (fun a h1 => ?_) h
  extract_lets r w o
  exact canonEff_fpLanes h1
theorem canonOut_vecCvt {op : CvtOp} {hi : Bool} (h : Canon s) : CanonOut (vecCvt op vfn hi lc vd va vb k z ew s) := by
  unfold vecCvt
  refine canonOut_vecInsn (fun a h1 => ?_) h
  extract_lets r w o
  exact canonEff_fpLanes h1
theorem canonOut_vecMove {f : Nat → Word64 → Regs → Vec} (h : Canon s) : CanonOut (vecMove vfn lc vd va vb k z ew bad f s) :=
  canonOut_vecInsn (fun _ => canonEff_vecTo) h
theorem canonOut_execVperm (h : Canon s) : CanonOut (execVperm lc vd va vb k z ew s) := canonOut_vecMove h
theorem canonOut_execVperm2 (h : Canon s) : CanonOut (execVperm2 lc vd va vb k z ew s) := canonOut_vecMove h
theorem canonOut_execVbcstl (h : Canon s) : CanonOut (execVbcstl lc vd va vb k z ew s) := canonOut_vecMove h
theorem canonOut_execVrev (h : Canon s) : CanonOut (execVrev lc vd va vb k z ew s) := canonOut_vecMove h
theorem canonOut_execVcompress (h : Canon s) : CanonOut (execVcompress lc vd va vb k z ew s) := canonOut_vecMove h
theorem canonOut_execVexpand (h : Canon s) : CanonOut (execVexpand lc vd va vb k z ew s) := canonOut_vecMove h
theorem canonOut_execVbcstg (h : Canon s) : CanonOut (execVbcstg lc vd va vb k z ew s) := canonOut_vecMove h
theorem canonOut_execVins (h : Canon s) : CanonOut (execVins lc vd va vb k z ew s) := canonOut_vecMove h
theorem canonOut_vecRed {op : RedOp} (h : Canon s) : CanonOut (vecRed op vfn lc vd va vb k z ew s) := canonOut_vecInsn (fun _ => canonEff_vecTo) h
theorem canonOut_vecFRed {op : FRedOp} (h : Canon s) : CanonOut (vecFRed op vfn lc vd va vb k z ew s) := by
  unfold vecFRed
  refine canonOut_vecInsn (fun a h1 => ?_) h
  extract_lets r w o d
  have hd : Canon d.2 := by
    unfold d
    split
    · exact h1
    · exact canon_drawWord h1
  exact canonEff_fpEnd hd
theorem canonOut_vecCmp {op : VCmpOp} (h : Canon s) : CanonOut (vecCmp op vfn lc vd va vb k z ew s) := canonOut_vecInsn (fun _ => canonEff_vecRegs) h
theorem canonOut_vecFCmp {op : FCmp} (h : Canon s) : CanonOut (vecFCmp op vfn lc vd va vb k z ew s) := by
  unfold vecFCmp
  refine canonOut_vecInsn (fun a h1 => ?_) h
  extract_lets r w o
  exact canonEff_fpLanes h1
theorem canonOut_execVfcmpf (h : Canon s) : CanonOut (execVfcmpf lc vd va vb k z ew s) := by
  unfold execVfcmpf
  refine canonOut_vecInsn (fun a h1 => ?_) h
  extract_lets r w x y c fl rel
  exact canonEff_fpEnd h1
theorem canonOut_kLogic {op : KOp} (h : Canon s) : CanonOut (kLogic op vfn unary lc vd va vb k z ew s) := canonOut_vecInsn (fun _ => canonEff_vecRegs) h
theorem canonOut_execKand (h : Canon s) : CanonOut (execKand lc vd va vb k z ew s) := canonOut_kLogic h
theorem canonOut_execKor (h : Canon s) : CanonOut (execKor lc vd va vb k z ew s) := canonOut_kLogic h
theorem canonOut_execKxor (h : Canon s) : CanonOut (execKxor lc vd va vb k z ew s) := canonOut_kLogic h
theorem canonOut_execKandn (h : Canon s) : CanonOut (execKandn lc vd va vb k z ew s) := canonOut_kLogic h
theorem canonOut_execKnot (h : Canon s) : CanonOut (execKnot lc vd va vb k z ew s) := canonOut_kLogic h
theorem canon_checkElems {w : Want} {numbered ld st : Bool} {l : List (List Nat × Word64)} {k : Checked} (h : Canon s)
    : Canon (checkElems lc w numbered n ld st l k s).2 := by
  induction l generalizing k s with
  | nil => exact h
  | cons e l ih =>
    unfold checkElems
    extract_lets i el x
    split
    · exact h
    · have hx : Canon x.2 := canon_access h
      split
      · exact hx
      · exact ih hx
theorem canon_readLanes {l : List LineRead} (h : Canon s) : Canon (readLanes lc w nt l v s).2 := by
  induction l generalizing v s with
  | nil => exact h
  | cons e l ih => exact ih (canon_loadBytes h)
theorem canonEff_vecLoad {gather : Bool} {base : Vec} {mk : Option (KReg × Word64)} {k : Checked} (h : Canon s)
    : CanonEff (vecLoad lc vt w nt gather base mk k s) := by
  unfold vecLoad
  extract_lets reads evs c withMask d c2 x c2b
  have hx : Canon x.2 := canon_readLanes h
  split
  · exact canonEff_ok (canon_setCore h)
  · exact canonEff_ok (canon_setCore hx)
theorem canonOut_vldRow {addr : Regs → Word64} (h : Canon s) : CanonOut (vldRow vfn nt addr lc vt rb vb k z ew s) := by
  unfold vldRow
  refine canonOut_vecInsn (fun a h1 => ?_) h
  extract_lets r w va x
  have hx : Canon x.2 := canon_checkElems h1
  split
  · exact canonEff_exc h1
  · split
    · exact canonEff_exc hx
    · exact canonEff_vecLoad hx
theorem canonOut_execVld (h : Canon s) : CanonOut (execVld lc vt rb vb k z ew s) := canonOut_vldRow h
theorem canonOut_execVldX (h : Canon s) : CanonOut (execVldX lc vt rb vb k z ew s) := canonOut_vldRow h
theorem canonOut_execVldNt (h : Canon s) : CanonOut (execVldNt lc vt rb vb k z ew s) := canonOut_vldRow h
theorem canonOut_execVldFf (h : Canon s) : CanonOut (execVldFf lc vt rb vb k z ew s) := by
  unfold execVldFf
  refine canonOut_vecInsn (fun a h1 => ?_) h
  extract_lets r w va x go
  have hx : Canon x.2 := canon_checkElems h1
  have hgo (mask1 : Word64) : CanonEff (go mask1) := canonEff_vecLoad hx
  split
  · exact canonEff_exc h1
  · split
    · split
      · exact canonEff_exc hx
      · exact hgo _
    · exact hgo _
theorem canonOut_vldbcRow {addr : Regs → Word64} (h : Canon s) : CanonOut (vldbcRow vfn addr lc vt rb vb k z ew s) := by
  unfold vldbcRow
  refine canonOut_vecInsn (fun a h1 => ?_) h
  extract_lets r w va on x
  have hx : Canon x.2 := canon_checkElems h1
  split
  · exact canonEff_exc h1
  · split
    · exact canonEff_exc hx
    · exact canonEff_vecLoad hx
theorem canonOut_execVldbc (h : Canon s) : CanonOut (execVldbc lc vt rb vb k z ew s) := canonOut_vldbcRow h
theorem canonOut_execVldbcX (h : Canon s) : CanonOut (execVldbcX lc vt rb vb k z ew s) := canonOut_vldbcRow h
theorem canonEff_vecStore {whole scatter : Bool} {k : Checked} (h : Canon s) : CanonEff (vecStore lc w v whole scatter k s) := canonEff_doneIf (canon_giveOrDo h)
theorem canonOut_vstRow {addr : Regs → Word64} (h : Canon s) : CanonOut (vstRow vfn nt addr lc vt rb vb k z ew s) := by
  unfold vstRow
  refine canonOut_vecInsn (fun a h1 => ?_) h
  extract_lets r w va x
  have hx : Canon x.2 := canon_checkElems h1
  split
  · exact canonEff_exc h1
  · split
    · exact canonEff_exc hx
    · exact canonEff_vecStore hx
theorem canonOut_execVst (h : Canon s) : CanonOut (execVst lc vt rb vb k z ew s) := canonOut_vstRow h
theorem canonOut_execVstX (h : Canon s) : CanonOut (execVstX lc vt rb vb k z ew s) := canonOut_vstRow h
theorem canonOut_execVstNt (h : Canon s) : CanonOut (execVstNt lc vt rb vb k z ew s) := canonOut_vstRow h
theorem canonOut_gatherRow (h : Canon s) : CanonOut (gatherRow vfn scaled lc vt rb vb k z ew s) := by
  unfold gatherRow
  refine canonOut_vecInsn (fun a h1 => ?_) h
  extract_lets r w x
  have hx : Canon x.2 := canon_checkElems h1
  split
  · exact canonEff_exc hx
  · exact canonEff_vecLoad hx
theorem canonOut_execVgather (h : Canon s) : CanonOut (execVgather lc vt rb vb k z ew s) := canonOut_gatherRow h
theorem canonOut_execVgatherS (h : Canon s) : CanonOut (execVgatherS lc vt rb vb k z ew s) := canonOut_gatherRow h
theorem canonOut_scatterRow (h : Canon s) : CanonOut (scatterRow vfn scaled lc vt rb vb k z ew s) := by
  unfold scatterRow
  refine canonOut_vecInsn (fun a h1 => ?_) h
  extract_lets r w x
  have hx : Canon x.2 := canon_checkElems h1
  split
  · exact canonEff_exc hx
  · exact canonEff_vecStore hx
theorem canonOut_execVscatter (h : Canon s) : CanonOut (execVscatter lc vt rb vb k z ew s) := canonOut_scatterRow h
theorem canonOut_execVscatterS (h : Canon s) : CanonOut (execVscatterS lc vt rb vb k z ew s) := canonOut_scatterRow h
end Sys2Proof.Machine
end

section
/-! Canonical memory: the long instructions, by micro-steps (06 R150 to R158). -/
namespace Sys2Proof.Machine
variable {s : State} {nt : Bool} {ra rb rd : GReg} {lc : LC} {l : List (Word64 × Nat × Xlat)} {bs : List Byte} {m : Micro} {ga gb gd : Word64}
theorem canon_checkPieces {w : Want} {wr : Bool} {l : List (Nat × Nat)} (h : Canon s) : Canon (checkPieces lc w wr l s).2 := by
  induction l generalizing s with
  | nil => exact h
  | cons p l ih =>
    unfold checkPieces
    extract_lets va x y
    split
    · exact h
    · have hx : Canon x.2 := canon_accessPart h
      split
      · exact hx
      · have hy : Canon y.2 := ih hx
        split
        · exact hy
        · exact hy
theorem canon_readPieces (h : Canon s) : Canon (readPieces lc l s).2 := by
  induction l generalizing s with
  | nil => exact h
  | cons p l ih => exact ih (canon_loadNow h)
theorem canon_writePiece {a : Access} (h : Canon s) : Canon (writePiece lc nt a bs s) := by
  unfold writePiece
  extract_lets s1
  have hs1 : Canon s1 := canon_storeNow h
  split
  · exact canon_setPoison hs1
  · exact hs1
theorem canon_writePieces (h : Canon s) : Canon (writePieces lc nt l bs s) := by
  induction l generalizing bs s with
  | nil => exact h
  | cons p l ih => exact ih (canon_writePiece h)
theorem canon_checkMicro (h : Canon s) : Canon (checkMicro lc m s).2 := by
  unfold checkMicro
  extract_lets x y z
  have hx : Canon x.2 := canon_checkPieces h
  have hy : Canon y.2 := canon_checkPieces hx
  have hz : Canon z.2 := canon_checkPieces hy
  split
  · exact hx
  · split
    · exact hy
    · split <;> exact hz
theorem canon_readAhead {spans : List (Nat × Nat)} (h : Canon s) : Canon (readAhead lc spans s) := by
  unfold readAhead
  split
  · refine canon_foldl (fun a1 x1 h1 => ?_) h
    split
    · exact canon_prefetchNew h1
    · exact h1
  · exact h
theorem canonEff_microStep {fin : MicroEnd} (h : Canon s) : CanonEff (microStep lc nt m fin s) := by
  unfold microStep
  extract_lets x
  have hx : Canon x.2 := canon_checkMicro h
  split
  · exact canonEff_exc hx
  · extract_lets y evs a b e s1
    have hy : Canon y.2 := canon_setAds hx
    have ha : Canon a.2 := canon_readPieces hy
    have hb : Canon b.2 := canon_readPieces ha
    have hs1 : Canon s1 := canon_updRegs (canon_writePieces hb)
    split
    · exact canonEff_hold hy
    · split
      · exact canonEff_ok hs1
      · exact canonEff_micro (canon_readAhead hs1)
theorem canonOut_longInsn {fn : Nat} {addrA f : Bool} {zero : Regs → Regs} {body : Word64 → Word64 → Word64 → State → Eff}
    (hbody : ∀ x y z a, Canon a → CanonEff (body x y z a)) (hs : Canon s) : CanonOut (longInsn fn addrA lc f rd ra rb zero body s) := by
  unfold longInsn
  refine canonOut_next (canon_runInsn (fun a h => ?_) hs)
  split
  · exact canonEff_illegal h
  · extract_lets r
    split
    · exact canonEff_doneRegs h
    · exact hbody _ _ _ _ h
theorem canonEff_bcopyStep (h : Canon s) : CanonEff (bcopyStep nt lc rd ra rb gd ga gb s) := by
  unfold bcopyStep
  split
  · extract_lets n
    exact canonEff_microStep h
  · extract_lets n
    exact canonEff_microStep h
theorem canonEff_bfillStep (h : Canon s) : CanonEff (bfillStep nt lc rd ra rb gd ga gb s) := by
  unfold bfillStep
  extract_lets n
  exact canonEff_microStep h
theorem canonEff_bcmpStep (h : Canon s) : CanonEff (bcmpStep lc rd ra rb gd ga gb s) := by
  unfold bcmpStep
  extract_lets n last
  exact canonEff_microStep h
end Sys2Proof.Machine
end

section
/-! Canonical memory: the queue instructions (13 R324 to R332). -/
namespace Sys2Proof.Machine
variable {s : State} {x12 : BitVec 12} {rd rv : GReg} {lc : LC} {sfn : Nat} {p : Posting}
theorem canon_postingPage {w : Want} {letter : Bool} {va : Word64} (h : Canon s) : Canon (postingPage lc w letter va s).2 := by
  unfold postingPage
  split
  · exact h
  · extract_lets off no x
    have hx : Canon x.2 := canon_translate h
    split
    · split <;> exact hx
    · split
      · exact hx
      · split <;> exact hx
theorem canonOut_queueInsn {ser : Bool} {body : Word64 → State → Eff} (hbody : ∀ x a, Canon a → CanonEff (body x a)) (hs : Canon s)
    : CanonOut (queueInsn sfn ser lc rd rv x12 body s) := by
  unfold queueInsn
  refine canonOut_next (canon_runInsn (fun a h => ?_) hs)
  split
  · exact canonEff_illegal h
  · exact hbody _ _ h
theorem canonEff_postLetter {x : Eff} (h : Canon s) (hx : CanonEff x) : CanonEff ((postLetter lc rd rv p s).getD x) := by
  unfold postLetter
  cases e : takeSlot lc.val s with
  | none => exact hx
  | some s1 =>
    simp only [Option.map_some, Option.getD_some]
    have hr (l : List Held) (ads : List AdUpdate) (ps : List Nat) : Canon (giveOrDo lc l ads ps s1).2 := canon_giveOrDo (canon_takeSlot h e)
    split
    · exact canonEff_ok (canon_updRegs (hr _ _ _))
    · exact canonEff_hold (canon_freeSlots (hr _ _ _))
theorem canonOut_execEnq (h : Canon s) : CanonOut (execEnq lc rd rv x12 s) := by
  unfold execEnq
  refine canonOut_queueInsn (fun va a ha => ?_) h
  extract_lets x
  have hx : Canon x.2 := canon_postingPage ha
  split
  · exact canonEff_exc hx
  · exact canonEff_postLetter hx (canonEff_hold hx)
theorem canonOut_execEnqt (h : Canon s) : CanonOut (execEnqt lc rd rv x12 s) := by
  unfold execEnqt
  refine canonOut_queueInsn (fun va a ha => ?_) h
  extract_lets x
  have hx : Canon x.2 := canon_postingPage ha
  split
  · exact canonEff_exc hx
  · exact canonEff_postLetter hx (canonEff_doneRegs hx)
theorem canonOut_deqRow {isTry : Bool} (h : Canon s) : CanonOut (deqRow sfn isTry lc rd rv x12 s) := by
  unfold deqRow
  refine canonOut_queueInsn (fun a a1 h1 => ?_) h
  extract_lets x c d d2
  have hx : Canon x.2 := canon_postingPage h1
  split
  · exact canonEff_exc hx
  · extract_lets c2
    exact canonEff_ok (canon_setCore hx)
theorem canon_qstatNow {lc : Nat} (h : Canon s) : Canon (qstatNow lc p s).2.2 := by
  unfold qstatNow
  split
  · extract_lets r
    exact h
  · extract_lets r d
    have hr : Canon r.2 := canon_peerStatus h
    have hd : Canon d.2 := canon_drawWord hr
    split
    · exact hd
    · exact hr
theorem canonOut_execQstat (h : Canon s) : CanonOut (execQstat lc rd rv x12 s) := by
  unfold execQstat
  refine canonOut_queueInsn (fun a a1 h1 => ?_) h
  extract_lets x
  have hx : Canon x.2 := canon_postingPage h1
  split
  · exact canonEff_exc hx
  · extract_lets y r
    have hy : Canon y.2 := canon_setAds hx
    have hr : Canon r.2.2 := canon_qstatNow hy
    split
    · exact canonEff_hold hy
    · exact canonEff_doneRegs hr
end Sys2Proof.Machine
end

section
/-! Canonical memory: CSR instructions, checked accesses, system calls, gateways and invalidation (03, 02, 07, 19, 08). -/
namespace Sys2Proof.Machine
variable {s : State} {x12 : BitVec 12} {isRead ok : Bool} {rd rv : GReg} {lc : LC} {sfn : Nat} {va : Word64}
theorem canonOut_execCsrrd (h : Canon s) : CanonOut (execCsrrd lc rd rv x12 s) := by
  unfold execCsrrd
  refine canonOut_next (canon_runInsn (fun a h1 => ?_) h)
  extract_lets r
  have hr : Canon r.2.2 := canon_csrRead h1
  exact canonEff_doneRegs hr
theorem canonEff_csrPut {n : Nat} {v : Word64} (h : Canon s) : CanonEff (csrPut lc rd n v s) := by
  unfold csrPut
  extract_lets r
  have hr : Canon r.2 := canon_csrWrite h
  exact canonEff_doneRegs hr
theorem canon_sdcPlace (h : Canon s) : Canon (sdcPlace lc isRead va s).2 := by
  unfold sdcPlace
  extract_lets w x
  have hx : Canon x.2 := canon_access h
  split
  · exact h
  · split
    · exact hx
    · split <;> exact hx
theorem canonOut_sdcInsn {act : Place → State → Eff} (hact : ∀ x a, Canon a → CanonEff (act x a)) (hs : Canon s) : CanonOut (sdcInsn isRead lc rd rv x12 act s) := by
  unfold sdcInsn
  refine canonOut_next (canon_runInsn (fun a h => ?_) hs)
  split
  · exact canonEff_illegal h
  · extract_lets x
    have hx : Canon x.2 := canon_sdcPlace h
    split
    · exact canonEff_exc hx
    · extract_lets y
      have hy : Canon y.2 := canon_setAds hx
      split
      · exact canonEff_hold hy
      · exact hact _ _ (canon_coreMeter hy)
theorem canon_anyStatus (h : Canon s) : Canon (anyStatus s).2 := canon_peerStatus h
theorem canonOut_execSdc (h : Canon s) : CanonOut (execSdc lc rd rv x12 s) := by
  unfold execSdc
  refine canonOut_sdcInsn (fun a a1 h1 => ?_) h
  extract_lets v r
  have hr : Canon r.2 := by
    unfold r
    split
    · exact canon_ctlWrite h1
    · exact canon_anyStatus h1
  split
  · exact canonEff_istack (canon_updRegs hr)
  · exact canonEff_doneRegs hr
theorem canonOut_execSdcRd (h : Canon s) : CanonOut (execSdcRd lc rd rv x12 s) := by
  unfold execSdcRd
  refine canonOut_sdcInsn (fun a a1 h1 => ?_) h
  extract_lets d v r
  have hd : Canon d.2 := canon_anyStatus h1
  have hv : Canon v.2 := canon_drawWord hd
  have hr : Canon r.2.2 := by
    unfold r
    split
    · exact canon_ctlRead h1
    · exact hv
  exact canonEff_doneRegs hr
theorem canonOut_execSdcTimeout (h : Canon s) : CanonOut (execSdcTimeout lc isRead rd rv x12 s) := by
  unfold execSdcTimeout
  refine canonOut_sdcInsn (fun a a1 h1 => ?_) h
  extract_lets r w st d v
  have hd : Canon d.2 := canon_drawWord h1
  have hv : Canon v.2 := by
    unfold v
    split
    · exact h1
    · exact hd
  split
  · exact canonEff_doneRegs hv
  · refine canonEff_doneRegs ?_
    split
    · exact canon_dropHigh h1
    · exact h1
theorem canonOut_sysInsn {op : Nat} {ser priv : Bool} {body : State → Eff} (hbody : ∀ a, Canon a → CanonEff (body a)) (hs : Canon s)
    : CanonOut (sysInsn op sfn ser ok priv lc rd rv x12 body s) := by
  unfold sysInsn
  refine canonOut_next (canon_runInsn (fun a h => ?_) hs)
  split
  · exact canonEff_illegal h
  · split
    · exact canonEff_exc h
    · exact hbody _ h
theorem canonOut_execEret (h : Canon s) : CanonOut (execEret lc rd rv x12 s) := by
  unfold execEret
  refine canonOut_sysInsn (fun a h1 => ?_) h
  extract_lets r
  exact canonEff_ok (canon_updCore h1)
theorem canon_gateTarget (h : Canon s) : Canon (gateTarget lc va s).2 := by
  unfold gateTarget
  extract_lets old x s1
  have hx : Canon x.2 := canon_translate (canon_updRegs h)
  have hs1 : Canon s1 := canon_updRegs hx
  split
  · exact hs1
  · split
    · exact hs1
    · split
      · exact hs1
      · extract_lets s2
        have hs2 : Canon s2 := canon_coherentRead (canon_coreMeter hs1)
        split <;> exact hs2
theorem canonOut_execGate (h : Canon s) : CanonOut (execGate lc rd rv x12 s) := by
  unfold execGate
  refine canonOut_sysInsn (fun a h1 => ?_) h
  extract_lets va gateExc x
  have hgateExc (n1 : Nat) (t1 : State) (ht1 : Canon t1) : CanonEff (gateExc n1 t1) := canonEff_exc ht1
  have hx : Canon x.2 := canon_gateTarget h1
  split
  · exact canonEff_exc h1
  · split
    · exact hgateExc _ _ h1
    · split
      · exact hgateExc _ _ hx
      · extract_lets y
        have hy : Canon y.2 := canon_setAds hx
        split
        · exact canonEff_hold hy
        · exact canonEff_ok (canon_updCore (canon_pmTickAll hy))
theorem canonOut_execGatepad (h : Canon s) : CanonOut (execGatepad lc rd rv x12 s) := by
  unfold execGatepad
  refine canonOut_sysInsn (fun a h1 => ?_) h
  split
  · exact canonEff_doneRegs h1
  · exact canonEff_illegal h1
theorem canonOut_gateRet {back : Word64} (h : Canon s) : CanonOut (gateRet sfn back lc rd rv x12 s) := by
  unfold gateRet
  refine canonOut_sysInsn (fun a h1 => ?_) h
  extract_lets c
  split
  · exact canonEff_exc h1
  · split
    · exact canonEff_exc h1
    · exact canonEff_ok (canon_updCore h1)
theorem canonOut_tlbiInsn {body : State → Eff} (hbody : ∀ a, Canon a → CanonEff (body a)) (hs : Canon s) : CanonOut (tlbiInsn sfn ok lc rd rv x12 body s) :=
  canonOut_sysInsn hbody hs
theorem canonEff_tlbiLocal {kind : Regs → TlbiKind} (h : Canon s) : CanonEff (tlbiLocal lc kind s) := canonEff_ok (canon_updCore h)
theorem canonEff_tlbiBroadcast {kind : Regs → TlbiKind} (h : Canon s) : CanonEff (tlbiBroadcast lc kind s) := by
  unfold tlbiBroadcast
  extract_lets r own b code s1
  have hs1 : Canon s1 := canon_foldl (fun _ _ => canon_cohSend) h
  split
  · exact canonEff_hold h
  · exact canonEff_ok (canon_updCore hs1)
theorem canonOut_execTlbsync (h : Canon s) : CanonOut (execTlbsync lc rd rv x12 s) := by
  unfold execTlbsync
  refine canonOut_tlbiInsn (fun a h1 => ?_) h
  split
  · exact canonEff_doneRegs h1
  · exact canonEff_hold h1
theorem canon_tlbiTarget {kind : TlbiKind} {world : Bool} {lc : Nat} (h : Canon s) : Canon (tlbiTarget kind world lc s) := by
  unfold tlbiTarget
  extract_lets c s1 asleep
  have hs1 : Canon s1 := by
    unfold s1
    split
    · exact canon_rollback h
    · exact h
  exact canon_updCore hs1
theorem canonOut_execTlbiBroadcastArrival {src : TlbiFrom} {target : Nat} (h : Canon s) : CanonOut (execTlbiBroadcastArrival src target s) := by
  unfold execTlbiBroadcastArrival
  refine canonOut_next ?_
  split
  · split
    · extract_lets s1
      have hs1 : Canon s1 := canon_updCore h
      split
      · exact canon_tlbiTarget hs1
      · exact hs1
    · exact h
  · split
    · exact canon_cohSend (canon_tlbiTarget h)
    · exact h
end Sys2Proof.Machine
end

section
/-! Canonical memory: events and waits (07 R185 to R195). -/
namespace Sys2Proof.Machine
variable {s : State} {x12 : BitVec 12} {rd rv : GReg} {lc : LC} {k : WaitKind}
theorem canon_sendEvents {l : List Nat} (h : Canon s) : Canon (sendEvents l s) := canon_foldl (fun _ _ => canon_updCore) h
theorem canonOut_execSev (h : Canon s) : CanonOut (execSev lc rd rv x12 s) := by
  unfold execSev
  refine canonOut_sysInsn (fun a h1 => ?_) h
  split
  · exact canonEff_doneRegs (canon_sendEvents h1)
  · exact canonEff_doneRegs h1
theorem canonOut_execEventDelivery (h : Canon s) : CanonOut (execEventDelivery lc s) := by
  unfold execEventDelivery
  refine canonOut_next ?_
  split
  · exact canon_updCore h
  · exact h
theorem canonEff_beginWait (h : Canon s) : CanonEff (beginWait lc rd k s) := by
  unfold beginWait
  extract_lets res
  split
  · exact canonEff_doneRegs h
  · exact canonEff_hold (canon_updCore h)
theorem canonOut_execWfeNe (h : Canon s) : CanonOut (execWfeNe lc rd rv x12 s) := by
  unfold execWfeNe
  refine canonOut_sysInsn (fun a h1 => ?_) h
  extract_lets r va x
  have hx : Canon x.2 := canon_access h1
  split
  · exact canonEff_exc h1
  · split
    · exact canonEff_exc hx
    · extract_lets y
      have hy : Canon y.2 := canon_setAds hx
      split
      · exact canonEff_hold hy
      · exact canonEff_beginWait (canon_loadNow hy)
theorem canonOut_execWfeQ (h : Canon s) : CanonOut (execWfeQ lc rd rv x12 s) := by
  unfold execWfeQ
  refine canonOut_sysInsn (fun a h1 => ?_) h
  extract_lets x
  have hx : Canon x.2 := canon_postingPage h1
  split
  · exact canonEff_exc hx
  · extract_lets y
    have hy : Canon y.2 := canon_setAds hx
    split
    · exact canonEff_hold hy
    · exact canonEff_beginWait hy
theorem canon_rereadLine {lc : Nat} (h : Canon s) : Canon (rereadLine lc k s) := by
  unfold rereadLine
  split
  · split
    · exact canon_coherentRead (canon_coreMeter h)
    · exact h
  · exact h
theorem canonOut_execWaitEnd (h : Canon s) : CanonOut (execWaitEnd lc s) := by
  unfold execWaitEnd
  refine canonOut_next ?_
  extract_lets c
  split
  · split
    · extract_lets s0 s1
      have hs0 : Canon s0 := canon_rereadLine h
      have hs1 : Canon s1 := canon_wakeDevice hs0
      split
      · exact canon_raiseExc (canon_updCore hs0)
      · split
        · split
          · exact canon_endWait hs1
          · exact hs1
        · exact hs0
    · exact h
  · exact h
end Sys2Proof.Machine
end

section
/-! Canonical memory: what comes back to a core from below a root port and from the interrupt controller (16 R407; 17 R430). -/
namespace Sys2Proof.Machine
variable {s : State} {retryStatus unsupported : Bool} {lc : LC} {value : Word64}
theorem canon_logAer {pa : Nat} (h : Canon s) : Canon (logAer s pa) := by
  unfold logAer
  split
  · split
    · split
      · exact canon_subEvent h
      · exact h
    · exact h
  · exact h
theorem canon_completionValue {a : Access} (h : Canon s) : Canon (completionValue a value unsupported retryStatus s).2 := by
  unfold completionValue
  split
  · exact canon_logAer h
  · split
    · split
      · extract_lets d
        have hd : Canon d.2 := canon_drawWord (canon_logAer h)
        exact hd
      · exact canon_logAer h
    · exact h
theorem canonOut_execMmioCompletion (h : Canon s) : CanonOut (execMmioCompletion lc value unsupported retryStatus s) := by
  unfold execMmioCompletion
  refine canonOut_next ?_
  split
  · extract_lets x
    have hx : Canon x.2 := canon_completionValue h
    exact canon_finishMmio hx
  · exact h
theorem canonOut_execCompletionTimeout (h : Canon s) : CanonOut (execCompletionTimeout lc s) := by
  unfold execCompletionTimeout
  refine canonOut_next ?_
  split
  · exact canon_finishMmio (canon_logAer h)
  · exact h
theorem canonOut_execIcComplete {w : Writer} {v : Word32} (h : Canon s) : CanonOut (execIcComplete w v s) := by
  unfold execIcComplete
  refine canonOut_next ?_
  extract_lets r s1
  have hr : Canon r.2 := canon_ctlWrite h
  have hs1 : Canon s1 := canon_answerSt hr
  split
  · split
    · exact canon_raiseIstack hs1
    · exact hs1
  · exact hs1
end Sys2Proof.Machine
end

section
/-! Canonical memory: a block that idles. -/
namespace Sys2Proof.Machine
theorem canon_idle {s : State} (h : Canon s) : Canon (idle s) := canon_sendCoh (canon_drainAll (canon_finishLost (canon_afterTransition (canon_timeCycle h))))
end Sys2Proof.Machine
end

section
/-! Every step keeps the canonical form of memory. -/
namespace Sys2Proof.Machine
variable {s : State}
/-- The outcome of every instruction is canonical: the rows that share a helper of the model share its lemma. -/
theorem canonOut_exec (i : Instr) (h : Canon s) : CanonOut (exec i s) :=
  match i with
  | .add .. | .adc .. | .sub .. | .sbc .. | .and .. | .andn .. | .or .. | .orn .. | .xor .. | .xnor .. | .mul .. | .mulh .. | .mulhu .. | .div .. | .divu .. |
    .rem .. | .remu .. | .sll .. | .srl .. | .sra .. | .ror .. | .clz .. | .ctz .. | .popc .. | .bswap .. | .brev .. | .sextb .. | .sexth .. | .sextw .. |
    .zextb .. | .zexth .. | .zextw .. => canonOut_intReg h
  | .addi .. | .subi .. | .andi .. | .ori .. | .xori .. => canonOut_intImm h
  | .slli .. | .srli .. | .srai .. | .rori .. => canonOut_shiftImm h
  | .setq .. => canonOut_execSetq h
  | .putq .. => canonOut_execPutq h
  | .adr .. => canonOut_next (canon_runInsn (fun _ => canonEff_doneRegs) h)
  | .sel .. => canonOut_execSel h
  | .bCond .. => canonOut_execBCond h
  | .b .. => canonOut_execB h
  | .bl .. => canonOut_execBl h
  | .br .. => canonOut_execBr h
  | .blr .. => canonOut_execBlr h
  | .ret .. => canonOut_execRet h
  | .mispredictRecovery .. => canonOut_next (canon_updCore h)
  | .csrrd .. => canonOut_execCsrrd h
  | .csrwr .. | .csrset .. | .csrclr .. => canonOut_next (canon_runInsn (fun _ => canonEff_csrPut) h)
  | .sdc .. => canonOut_execSdc h
  | .sdcRd .. => canonOut_execSdcRd h
  | .sdcTimeout .. => canonOut_execSdcTimeout h
  | .ldb .. | .ldh .. | .ldw .. | .ldd .. | .ldsb .. | .ldsh .. | .ldsw .. => canonOut_loadM h
  | .stb .. | .sth .. | .stw .. | .std .. => canonOut_storeM h
  | .loadIndexed .. => canonOut_execLoadIndexed h
  | .storeIndexed .. => canonOut_execStoreIndexed h
  | .amoXchg .. | .amoAdd .. | .amoAnd .. | .amoOr .. | .amoXor .. | .amoMaxs .. | .amoMins .. | .amoMaxu .. | .amoMinu .. | .amoCmpx .. => canonOut_amoRow h
  | .prfm .. => canonOut_execPrfm h
  | .fence .. => canonOut_execFence h
  | .ifence .. => canonOut_execIfence h
  | .specbar .. => canonOut_execSpecbar h
  | .shadowGroupCommit .. => canonOut_execShadowGroupCommit h
  | .interruptEntry .. => canonOut_next (canon_interruptEntry h)
  | .instructionGroupRetry .. => canonOut_next (canon_retryGroup h)
  | .vadd .. | .vsub .. | .vmullo .. | .vmulhs .. | .vmulhu .. | .vand .. | .vandn .. | .vor .. | .vxor .. | .vsllv .. | .vsrlv .. | .vsrav .. | .vsmin .. |
    .vsmax .. | .vumin .. | .vumax .. | .vabs .. => canonOut_vecInt h
  | .vfadd .. | .vfsub .. | .vfmul .. | .vfdiv .. | .vfsqrt .. | .vfmin .. | .vfmax .. | .vfabs .. | .vfneg .. | .vfrnd .. => canonOut_vecFp2 h
  | .vfmadd .. | .vfmsub .. | .vfnmadd .. | .vfnmsub .. => canonOut_vecFp3 h
  | .vcvtDS .. | .vcvtSD .. | .vcvtSH .. | .vcvtHS .. | .vcvtSBf .. | .vcvtBfS .. | .vcvtFI .. | .vcvtFU .. | .vcvtIF .. | .vcvtUF .. | .vcvtIFT .. | .vcvtUFT .. =>
    canonOut_vecCvt h
  | .vperm .. => canonOut_execVperm h
  | .vperm2 .. => canonOut_execVperm2 h
  | .vbcstl .. => canonOut_execVbcstl h
  | .vrev .. => canonOut_execVrev h
  | .vcompress .. => canonOut_execVcompress h
  | .vexpand .. => canonOut_execVexpand h
  | .vbcstg .. => canonOut_execVbcstg h
  | .vins .. => canonOut_execVins h
  | .vext .. | .kmovg .. | .kmovk .. | .kpopc .. | .kfirst .. => canonOut_vecInsn (fun _ => canonEff_vecRegs) h
  | .vredadd .. | .vredsmin .. | .vredsmax .. | .vredumin .. | .vredumax .. | .vredand .. | .vredor .. | .vredxor .. => canonOut_vecRed h
  | .vfredadd .. | .vfredmin .. | .vfredmax .. => canonOut_vecFRed h
  | .vcmpeq .. | .vcmpne .. | .vcmplt .. | .vcmple .. | .vcmpltu .. | .vcmpleu .. => canonOut_vecCmp h
  | .vfcmpeq .. | .vfcmpne .. | .vfcmplt .. | .vfcmple .. | .vfcmpun .. => canonOut_vecFCmp h
  | .vfcmpf .. => canonOut_execVfcmpf h
  | .kand .. => canonOut_execKand h
  | .kor .. => canonOut_execKor h
  | .kxor .. => canonOut_execKxor h
  | .kandn .. => canonOut_execKandn h
  | .knot .. => canonOut_execKnot h
  | .vld .. => canonOut_execVld h
  | .vldX .. => canonOut_execVldX h
  | .vldFf .. => canonOut_execVldFf h
  | .vldNt .. => canonOut_execVldNt h
  | .vldbc .. => canonOut_execVldbc h
  | .vldbcX .. => canonOut_execVldbcX h
  | .vst .. => canonOut_execVst h
  | .vstX .. => canonOut_execVstX h
  | .vstNt .. => canonOut_execVstNt h
  | .vgather .. => canonOut_execVgather h
  | .vgatherS .. => canonOut_execVgatherS h
  | .vscatter .. => canonOut_execVscatter h
  | .vscatterS .. => canonOut_execVscatterS h
  | .bcopy .. | .bcopyNt .. => canonOut_longInsn (fun _ _ _ _ => canonEff_bcopyStep) h
  | .bfill .. | .bfillNt .. => canonOut_longInsn (fun _ _ _ _ => canonEff_bfillStep) h
  | .bcmp .. => canonOut_longInsn (fun _ _ _ _ => canonEff_bcmpStep) h
  | .eret .. => canonOut_execEret h
  | .svc .. => canonOut_sysInsn (fun _ => canonEff_exc) h
  | .sev .. => canonOut_execSev h
  | .eventDelivery .. => canonOut_execEventDelivery h
  | .wfe .. | .waitt .. => canonOut_sysInsn (fun _ => canonEff_beginWait) h
  | .wfeNe .. => canonOut_execWfeNe h
  | .wfeQ .. => canonOut_execWfeQ h
  | .waitEnd .. => canonOut_execWaitEnd h
  | .rdtime .. | .wrpkr .. | .uacon .. | .uacoff .. => canonOut_sysInsn (fun _ => canonEff_doneRegs) h
  | .tlbiVa .. | .tlbiTag .. | .tlbiAll .. => canonOut_tlbiInsn (fun _ => canonEff_tlbiLocal) h
  | .tlbiVaB .. | .tlbiTagB .. | .tlbiAllB .. => canonOut_tlbiInsn (fun _ => canonEff_tlbiBroadcast) h
  | .tlbiBroadcastArrival .. => canonOut_execTlbiBroadcastArrival h
  | .tlbsync .. => canonOut_execTlbsync h
  | .gate .. => canonOut_execGate h
  | .gatepad .. => canonOut_execGatepad h
  | .gateret .. | .gateretR .. => canonOut_gateRet h
  | .enq .. => canonOut_execEnq h
  | .enqt .. => canonOut_execEnqt h
  | .deq .. | .deqt .. => canonOut_deqRow h
  | .qstat .. => canonOut_execQstat h
  | .stageWrite .. | .bitAliasWrite .. | .registerWrite .. | .sysEpochCommit .. | .sysEpochDiscard .. | .sysSnapAll .. | .blockSnap .. | .sysLockSet .. |
    .l3Disable .. | .l3Enable .. | .l3InvalidateAll .. | .l3SetScratchpadWays .. | .hnCmoClean .. | .hnCmoInvalidate .. | .cohJoin .. | .cohLeave .. |
    .hmcSectorStop .. | .hmcSectorStart .. | .frkResWrite .. | .frkTc0CeilWrite .. | .queueCreate .. | .queueResize .. | .queueRetire .. | .queueRetireFlush .. |
    .soStart .. | .dlrTailWrite .. | .portTrain .. | .portRetrain .. | .sweepStart .. | .sweepAbort .. | .pciePortStart .. | .pciePrgResp .. | .iotuInvPage .. |
    .iotuInvTag .. | .iotuInvAll .. | .iotuInvDevice .. | .icRaise .. | .icUnraise .. | .timerStart .. | .timerStop .. | .resetEvent .. | .forcedWrap .. |
    .tmrSnap .. | .celPotSync .. | .mrExtend .. | .authRequest .. | .authSubmit .. | .dbgAttach .. | .dbgDetach .. | .haltRequest .. | .resume .. | .step .. |
    .haltAll .. | .resumeAll .. | .registerWindowRead .. | .registerWindowWrite .. | .debugMemoryRead .. | .debugMemoryWrite .. | .debugLineRead .. |
    .debugLineWrite .. | .stim .. | .drain .. | .setDeepnext .. | .clearDeepnext .. | .pwrPadRelease .. | .pwrLimitCeilWrite .. | .functionSwitch .. | .uartTx .. |
    .mbxReleaseIn .. | .mbxPostOut .. => canonOut_next (canon_sdc h)
  | .ledgerFullTimeout .. => canonOut_execLedgerFullTimeout h
  | .frankingPeriodBoundary .. => canonOut_next (canon_periodBoundary h)
  | .cfgParitySweep .. => canonOut_next (canon_paritySweep h)
  | .cfgParityRestore .. => canonOut_next (canon_parityRestore h)
  | .bridgeTimeout .. => canonOut_next (canon_freezeCopies (canon_bridgeLate h))
  | .rs .. | .ru .. | .upg .. => canonOut_nodeDone (canon_fromPeer (fun _ => canon_cachingReq) h)
  | .wb .. | .evc .. => canonOut_nodeDone (canon_fromPeer (fun _ => canon_evictReq) h)
  | .rnc .. | .fw .. | .pw .. | .famo .. => canonOut_nodeDone (canon_fromPeer (fun _ => canon_plainReq) h)
  | .cmoc .. | .cmoi .. => canonOut_nodeDone (canon_plainReq h)
  | .snpshared .. | .snpunique .. | .snpinv .. | .snpread .. | .snpclean .. => canonOut_nodeDone (canon_deliverSnoop h)
  | .snoopAnswer .. => canonOut_nodeDone (canon_answerArrives h)
  | .grant .. => canonOut_nodeDone (canon_grantArrives h)
  | .evictionAck .. => canonOut_nodeDone (canon_evictAcked h)
  | .snoopTimeout .. => canonOut_nodeDone (canon_snoopLate h)
  | .l3CommandComplete .. => canonOut_next (canon_l3CmdDone h)
  | .cachePatrolRead .. => canonOut_execCachePatrolRead h
  | .wayRetirement .. => canonOut_execWayRetirement h
  | .cacheQuery .. => canonOut_next (canon_service (fun _ _ => canon_cacheQuery) h)
  | .cacheDisable .. => canonOut_next (canon_service (fun _ _ => canon_cacheDisable) h)
  | .cacheEnable .. => canonOut_next (canon_service (fun _ _ => canon_cacheEnable) h)
  | .cacheInvalAll .. => canonOut_next (canon_service (fun _ _ => canon_cacheInvalAll) h)
  | .l2SpSet .. => canonOut_next (canon_service (fun _ _ => canon_l2SpSet) h)
  | .joinDigest .. => canonOut_next (canon_digestArrives h)
  | .joinVerdict .. => canonOut_next (canon_verdictArrives h)
  | .joinTimeout .. => canonOut_next (canon_joinLate h)
  | .splitComplete .. => canonOut_next (canon_splitDone h)
  | .memoryRead .. => canonOut_next (canon_memRead h)
  | .memoryWrite .. => canonOut_next (canon_memWrite h)
  | .refresh .. => canonOut_next (canon_memRefresh h)
  | .temperatureRead .. => canonOut_next (canon_memTemp h)
  | .recentre .. => canonOut_next (canon_memRecentre h)
  | .scrubRead .. => canonOut_execScrubRead h
  | .ecsRead .. => canonOut_execEcsRead h
  | .rowSpare .. => canonOut_next (canon_rowSpare h)
  | .bankSpare .. => canonOut_next (canon_bankSpare h)
  | .rankRetire .. => canonOut_execRankRetire h
  | .dimmRetire .. => canonOut_execDimmRetire h
  | .memSectorSet .. => canonOut_next (canon_service (fun _ _ h1 => canon_plain (canon_memSectorSet h1)) h)
  | .memDdrGive .. => canonOut_next (canon_service (fun _ _ => canon_memDdrGive) h)
  | .letterArrival .. | .letterRetry .. => canonOut_next (canon_serveSender h)
  | .doorbellHoldExpiry .. => canonOut_execDoorbellHoldExpiry h
  | .bulkRefill .. => canonOut_next (canon_refill h)
  | .sendTimeout .. => canonOut_next (canon_giveUp h)
  | .leaseLapse .. => canonOut_execLeaseLapse h
  | .nop .. | .ctrread .. => canonOut_next (canon_begin_ (fun _ _ h1 => h1) h)
  | .put .. => canonOut_next (canon_begin_ (fun _ _ => canon_putAct) h)
  | .puti .. => canonOut_next (canon_begin_ (fun _ _ => canon_putiAct) h)
  | .get .. => canonOut_next (canon_begin_ (fun _ _ => canon_getAct) h)
  | .amoCommand .. => canonOut_next (canon_begin_ (fun _ _ => canon_amoAct) h)
  | .copy .. => canonOut_next (canon_begin_ (fun _ _ => canon_copyAct) h)
  | .ctradd .. => canonOut_next (canon_begin_ (fun _ _ => canon_ctraddAct) h)
  | .ctrset .. => canonOut_next (canon_begin_ (fun _ _ => canon_setCounter) h)
  | .trigcancel .. => canonOut_next (canon_begin_ (fun _ _ => canon_cancelAct) h)
  | .contrib .. => canonOut_next (canon_begin_ (fun _ _ => canon_contribAct) h)
  | .ctxset .. => canonOut_next (canon_begin_ (fun _ _ => canon_ctxsetAct) h)
  | .slotArm .. => canonOut_next (canon_armHead h)
  | .commandComplete .. => canonOut_next (canon_completeNth h)
  | .contextForward .. => canonOut_next (canon_forwardArrives h)
  | .soGrantSet .. => canonOut_next (canon_service (fun _ _ h1 => canon_plain (canon_soGrantSet h1)) h)
  | .soRegionSet .. => canonOut_next (canon_service (fun _ _ h1 => canon_plain (canon_soRegionSet h1)) h)
  | .soRegionQuery .. => canonOut_next (canon_service (fun _ _ h1 => h1) h)
  | .portOutOfService .. => canonOut_execPortOutOfService h
  | .frameReceive .. => canonOut_next (canon_frameArrives h)
  | .letter .. => canonOut_next (canon_arrive (fun _ _ => canon_letterHere) h)
  | .letterAck .. => canonOut_next (canon_arrive (fun _ _ => canon_letterAcked) h)
  | .letterNak .. => canonOut_next (canon_arrive (fun _ _ => canon_letterNaked) h)
  | .command .. => canonOut_next (canon_arrive (fun _ _ => canon_serveCommand) h)
  | .cmdResp .. => canonOut_next (canon_arrive (fun _ _ => canon_takeResponse) h)
  | .cmdData .. => canonOut_next (canon_arrive (fun _ _ => canon_serveData) h)
  | .cmdRdata .. => canonOut_next (canon_arrive (fun _ _ => canon_takeReadData) h)
  | .resync .. => canonOut_next (canon_arrive (fun _ _ => canon_resyncHere) h)
  | .resyncTimeout .. => canonOut_next (canon_resyncLate h)
  | .credit .. => canonOut_execCredit h
  | .escapeWaitExpiry .. => canonOut_execEscapeWaitExpiry h
  | .caps .. => canonOut_next (canon_capsArrive h)
  | .laneFailure .. => canonOut_next (canon_laneFails h)
  | .laneSwap .. => canonOut_next (canon_swapArrives h)
  | .spareLaneCheck .. => canonOut_execSpareLaneCheck h
  | .laneRetune .. => canonOut_execLaneRetune h
  | .standbyIdleExpiry .. => canonOut_next (canon_standbyIdle h)
  | .listenIdleExpiry .. => canonOut_next (canon_askSleep h)
  | .sleepReq .. => canonOut_next (canon_sleepAsked h)
  | .sleepAck .. => canonOut_next (canon_sleepAcked h)
  | .sleepReqLapse .. => canonOut_next (canon_updPort h)
  | .wakeOrderedSet .. => canonOut_next (canon_wakeArrives h)
  | .sweepReq .. => canonOut_next (canon_sweepAsked h)
  | .sweepAck .. => canonOut_next (canon_sweepAnswered h)
  | .sweepEnd .. => canonOut_next (canon_sweepEnded h)
  | .sweepComplete .. => canonOut_next (canon_sweepDone h)
  | .sweepPartnerSilent .. => canonOut_next (canon_abortSweep h)
  | .timeExchangeInterval .. => canonOut_next (canon_timeAsk h)
  | .timeReq .. => canonOut_next (canon_timeAsked h)
  | .timeResp .. => canonOut_next (canon_clockCleared (canon_timeResp h))
  | .syncInEdge .. => canonOut_next (canon_syncEdge h)
  | .syncLost .. => canonOut_next (canon_syncLost h)
  | .syncOutPulse .. => canonOut_execSyncOutPulse h
  | .timeSet .. => canonOut_next (canon_sdc (canon_ctlWrite h))
  | .pciePortStop .. => canonOut_next (canon_finishLost (canon_sdc h))
  | .dmaRequest .. | .msiMessage .. => canonOut_next (canon_dmaRequest h)
  | .translationRequest .. => canonOut_next (canon_translationRequest h)
  | .pageRequest .. => canonOut_next (canon_pageRequest h)
  | .mmioCompletion .. => canonOut_execMmioCompletion h
  | .completionTimeout .. => canonOut_execCompletionTimeout h
  | .dpcTrigger .. => canonOut_next (canon_finishLost (canon_dpcTrigger h))
  | .hotAdd .. => canonOut_next (canon_hotAdd h)
  | .invalidateCompletion .. => canonOut_next (canon_invAnswered h)
  | .atsInvalidationTimeout .. => canonOut_next (canon_finishLost (canon_atsLate h))
  | .iotuInvalidationDone .. => canonOut_next (canon_invDoneNow h)
  | .wiredSourceEdge .. => canonOut_next (canon_setLine h)
  | .icClaim .. | .tmrFlagsRead .. | .tmrSyncFlagsRead .. | .pwrWakeLastRead .. | .uartRxRead .. | .uartErrRead .. | .padEventRead .. =>
    canonOut_next (canon_sdcRd h)
  | .icComplete .. => canonOut_execIcComplete h
  | .timerTick .. => canonOut_execTimerTick h
  | .timerWrap .. => canonOut_execTimerWrap h
  | .timerInputEdge .. => canonOut_next (canon_tinLevel h)
  | .potSyncComplete .. => canonOut_next (canon_potSyncDone h)
  | .keeperVersion .. => canonOut_execKeeperVersion h
  | .attestQuote .. => canonOut_next (canon_service (fun _ _ => canon_attestQuote) h)
  | .measureExtend .. => canonOut_next (canon_service (fun _ _ => canon_measureExtend) h)
  | .attestCert .. => canonOut_next (canon_service (fun _ _ => canon_attestCert) h)
  | .soRingReserve .. => canonOut_next (canon_service (fun _ _ => canon_ringReserve) h)
  | .soRingRelease .. => canonOut_next (canon_service (fun _ _ => canon_ringRelease) h)
  | .soDlrShare .. => canonOut_next (canon_service (fun _ _ => canon_dlrShare) h)
  | .updateSubmit .. => canonOut_next (canon_service (fun _ _ => canon_updateSubmit) h)
  | .updateRoll .. => canonOut_next (canon_service (fun _ _ => canon_updateRoll) h)
  | .updateAbort .. => canonOut_next (canon_service (fun _ _ => canon_updateAbort) h)
  | .keeperHandover .. => canonOut_next (canon_service (fun _ _ => canon_keeperHandover) h)
  | .agingQuery .. => canonOut_next (canon_service (fun _ _ => canon_agingQuery) h)
  | .rollStep .. => canonOut_next (canon_rollStep h)
  | .rollInstanceSwitch .. => canonOut_next (canon_instanceSwitch h)
  | .flashSecondCopyWrite .. => canonOut_next (canon_flashSecond h)
  | .grantExpiry .. => canonOut_next (canon_grantLapses h)
  | .attachTimeout .. => canonOut_next (canon_attachLate h)
  | .debugHalt .. => canonOut_next (canon_haltNow h)
  | .traceTimePacket .. => canonOut_next (canon_emit h)
  | .pmcWrap .. => canonOut_execPmcWrap h
  | .heartbeatMissed .. => canonOut_next (canon_heartbeatLost h)
  | .coreRelocation .. => canonOut_next (canon_startReloc h)
  | .relocationDrain .. => canonOut_next (canon_relocDrain h)
  | .relocationResume .. => canonOut_next (canon_rollCheck (canon_relocResume h))
  | .proxiedSnoop .. => canonOut_next (canon_proxiedSnoop h)
  | .census .. => canonOut_next (canon_census h)
  | .leaseRevoke .. => canonOut_next (canon_leaseRevoke h)
  | .pairMismatch .. => canonOut_next (canon_pairStops h)
  | .pairSelfTestComplete .. => canonOut_next (canon_pairTested h)
  | .spareHorizon .. => canonOut_next (canon_spareHorizon h)
  | .agingSample .. => canonOut_next (canon_agingSample h)
  | .vddRindUp .. => canonOut_next (canon_rindUp h)
  | .vddRindDown .. => canonOut_next (canon_rindDown h)
  | .pwrgdRise .. => canonOut_next (canon_pwrgdRises h)
  | .pwrgdFall .. => canonOut_next (canon_pwrgdFalls h)
  | .sequenceComplete .. => canonOut_next (canon_sequenceDone h)
  | .sequenceRailTimeout .. => canonOut_next (canon_sequenceLate h)
  | .calibrateComplete .. => canonOut_next (canon_calibrateDone h)
  | .railFailure .. => canonOut_next (canon_railFails h)
  | .islandGate .. | .islandRetain .. => canonOut_next (canon_islandIdle h)
  | .dozeEntry .. => canonOut_execDozeEntry h
  | .deepDozeEntry .. => canonOut_execDeepDozeEntry h
  | .deepDozeEntryComplete .. => canonOut_next (canon_deepEnd h)
  | .wake .. => canonOut_next (canon_wake h)
  | .deepDozeExitComplete .. => canonOut_next (canon_deepExitEnd h)
  | .drainComplete .. => canonOut_next (canon_drainEnd h)
  | .powerLimitCompare .. => canonOut_next (canon_limitCompare h)
  | .temperatureSample .. => canonOut_next (canon_tempSample h)
  | .thermalControl .. => canonOut_next (canon_thermalStep h)
  | .prochotInput .. => canonOut_next (canon_prochotBoard h)
  | .vrAlert .. => canonOut_next (canon_vrAlert h)
  | .perstAssert .. => canonOut_next (canon_perstLow h)
  | .perstRelease .. => canonOut_next (canon_perstHigh h)
  | .refclkSwitch .. => canonOut_next (canon_refSwitch h)
  | .refclkLost .. => canonOut_next (canon_refLost h)
  | .refclkReturn .. => canonOut_next (canon_refReturn h)
  | .gpioInputChange .. => canonOut_next (canon_padLevel h)
  | .functionSwitchComplete .. => canonOut_next (canon_padSwitched h)
  | .ledDiagnosis .. => canonOut_next (canon_ledDiagnose h)
  | .uartRxByte .. => canonOut_next (canon_uartReceive h)
  | .flashTimeout .. => canonOut_next (canon_flashTimeout h)
  | .mailboxRequest .. => canonOut_next (canon_mbxRequest h)
  | .mailboxStall .. => canonOut_next (canon_inRindOn (fun _ => canon_mbxStall) h)
  | .getId .. | .logSeq .. => canonOut_next (canon_mbxServe (fun _ _ => canon_okBytes) h)
  | .getState .. => canonOut_execGetState h
  | .powerOn .. => canonOut_execPowerOn h
  | .mailboxDrain .. => canonOut_execMailboxDrain h
  | .readLog .. => canonOut_execReadLog h
  | .readReg .. => canonOut_execReadReg h
  | .getAlert .. | .hostRead .. => canonOut_next (canon_mbxServe (fun _ _ h1 => canon_okBytes (canon_setPads h1)) h)
  | .setPwrLimit .. => canonOut_execSetPwrLimit h
  | .debug .. => canonOut_execDebug h
  | .hostMsg .. => canonOut_execHostMsg h
  | .dynamicAddressAssign .. | .rstdaa .. => canonOut_next (canon_inRindOn (fun _ => canon_setPads) h)
  | .tapReset .. => canonOut_next (canon_inRindOn (fun _ => canon_tapReset) h)
  | .tapUpdateIr .. => canonOut_next (canon_inRindOn (fun _ => canon_tapUpdateIr) h)
  | .tapUpdateDr .. => canonOut_next (canon_inRindOn (fun _ => canon_tapUpdateDr) h)
  | .safeholdExpiry .. => canonOut_next (canon_safeholdExpires h)
  | .dbgacc .. => canonOut_execDbgacc h
  | .reservedMajorOpcode .. => canonOut_execReservedMajorOpcode h
  | .uartByteSent .. => canonOut_next (canon_uartSent h)
  | .standbyRefclkAbsent .. => canonOut_next (canon_standbyLost h)
  | .backgroundWritebackComplete .. => canonOut_next (canon_rollCheck (canon_writebackDone h))
  | .reserveCopyComplete .. => canonOut_next (canon_reserveCopyDone h)
/-- Settles O59: the next state is that of idling or of the command at the front of the queue, and neither touches the canonical form. -/
theorem everyStepKeepsMemoryCanonical : Obligations.EveryStepKeepsMemoryCanonical := by
  intro s t h hstep
  have hs : Canon s := h
  unfold step at hstep
  split at hstep
  · cases hstep
    exact canon_idle hs
  next c rest _ => exact canonOut_exec c (hs.same (t := { s with pending := rest }) rfl) t hstep
end Sys2Proof.Machine
end
